-- ==== Sys2Proof/Word.lean ====
section
/-!
DEFINITION. Word.lean: the word types of the device (R7, R611) and the plain sparse table that memories, register
files and the package's many like units are held in.
-/
namespace Sys2Proof

/-- R7: a byte. -/
abbrev Byte := BitVec 8

/-- R611: a 32-bit register or descriptor word. -/
abbrev Word := BitVec 32

/-- A sparse table: (key, value) pairs, keys strictly rising, no entry equal to what an unlisted key reads as. -/
abbrev Tbl (α : Type) := List (Nat × α)

end Sys2Proof
end

