-- ==== Sys2Proof/Syntax.lean ====
section
/-!
DEFINITION. Syntax.lean: the commands and events of the Varya package, one constructor of `Instr` per row of the
operation table, with the operands the row needs: the unit it happens at, and what comes from outside the model
(host data, sensor codes, the outcome of a training, of a signature check or of a self-test).
-/
namespace Sys2Proof

/-- R172: a logical plot: stack position and logical number. -/
structure PlotId where
  st : Fin 16
  pl : Fin 32
  deriving DecidableEq, Repr

/-- R6, R151: a barge channel, of a plot or of the I/O die. -/
inductive ChanId where
  | plot (p : PlotId) (c : Fin 4)
  | iod (n : Fin 32)
  deriving DecidableEq, Repr

/-- R174, R204: a die-to-die module end; die 16 is the I/O die, whose modules run to 63. -/
structure ModId where
  die : Fin 17
  m : Fin 64
  deriving DecidableEq, Repr

/-- R329: ring `r` of function `f` (0 physical, n virtual function n). -/
structure RingId where
  f : Fin 17
  r : Fin 4
  deriving DecidableEq, Repr

/-- R105, R130: a fabric place: die value and logical plot or I/O die endpoint. -/
structure Loc where
  die : BitVec 5
  plot : BitVec 5
  deriving DecidableEq, Repr

/-- R594: a stop unit: die, kind and index. -/
structure UnitId where
  die : Fin 17
  kind : Fin 12
  index : Nat
  deriving DecidableEq, Repr

/-- R120, R177: the 64 B of a stream flit, with one poison mark per 8 B word. -/
structure FlitData where
  bytes : List Byte
  poison : Byte
  deriving DecidableEq, Repr

/-- A descriptor as the queues hold it: its 32-bit words, word 0 first (a missing word reads zero). -/
abbrev Desc := List Word

/-- R8, R609: who makes a register access. -/
inductive Req where
  | pf
  | vf (n : Fin 16)
  | core (stack : Fin 16) (k : Fin 8) (machine : Bool)
  | debug
  | rider
  | steward (p : PlotId)
  deriving DecidableEq, Repr

/-- R609, R625, R96: a register address as its requester gives it: die, page and offset; a virtual
function's BAR0 offset in [19:0]; a steward's local register offset in [15:0]. -/
abbrev RegAddr := BitVec 26

/-- R244, R268: why a slice controller reads or writes. -/
inductive Src where
  | port | rmw | scrub | noria | copy
  deriving DecidableEq, Repr

/-- R273: where a noria command came from, and the name its source gave it. -/
inductive NorSrc where
  | plot (p : PlotId) (seq : Nat)
  | window (part : Fin 16) (seq : Nat)
  deriving DecidableEq, Repr

/-- R319: PCIe AtomicOps. -/
inductive AtomOp where
  | fetchAdd32 | fetchAdd64 | cas32 | cas64 | cas128 | swap32 | swap64
  deriving DecidableEq, Repr

/-- R415: a core's atomic instructions. -/
inductive CoreAmo where
  | add | and_ | or_ | xor_ | min | max | cas | swap | minu | maxu | casq | lr | sc
  deriving DecidableEq, Repr

/-- R397, R399, R404: what a ferry's admission finds; `modules` holds a bit for each module up, each x16. -/
structure FerryInfo where
  answers : Bool
  landing : Bool
  vendor : BitVec 16
  product : BitVec 16
  serial : BitVec 64
  version : Word
  modules : Byte
  ucie2 : Bool
  /-- a pair of modules reaches a usable rate (R396) -/
  trains : Bool
  meas : List Byte
  /-- the ferry gave a measurement signed by its key, and the signature verifies (R397) -/
  signed : Bool
  /-- SHA-256 of that key -/
  signerHash : List Byte
  deriving DecidableEq, Repr

/-- R426: how a media job ends. -/
inductive MediaEnd where
  | done | damage | poison | codec
  deriving DecidableEq, Repr

/-- R454: a unit with an owner register. -/
inductive OwnedId where
  | barge (n : Fin 32)
  | media (n : Fin 32)
  | endpoint (n : Fin 32)
  deriving DecidableEq, Repr

/-- R445: SPDM requests over DOE. -/
inductive SpdmReq where
  | getCertificate
  | challenge (nonce : List Byte)
  | getMeasurements (index : Byte) (nonce : List Byte)
  | keyExchange
  | finish
  | keyUpdate
  | heartbeat
  | endSession
  | ideKeyProgram
  | other (code : Byte)
  deriving DecidableEq, Repr

/-- R459 to R490: what the ditch rider finds at a boot stage. -/
inductive StageResult where
  | pass
  /-- stage 0x07, 0x08, 0x09, 0x0B: stacks to hold out, with the cause code of R490 -/
  | holdOut (hold : List (Fin 16)) (cause : BitVec 4)
  /-- stage 0x01, 0x09, 0x06, 0x04: a failure reason of R488 -/
  | fail (reason : Byte)
  deriving DecidableEq, Repr

/-- R491: what a reset resets. -/
inductive Scope where
  | plot (p : PlotId)
  | reach (s : Fin 16) (q : Fin 4)
  | part (n : Fin 16)
  | package (cold : Bool)
  deriving DecidableEq, Repr

/-- R501: the functions under the EN, STOPPING and STOPPED contract. -/
inductive FuncId where
  | queue (p : PlotId) (q : BitVec 2)
  | chan (c : ChanId)
  | ring (g : RingId)
  | part (n : Fin 16)
  | xng (n : Fin 32)
  | endpoint (n : Fin 32)
  | media (n : Fin 32)
  deriving DecidableEq, Repr

/-- R565: one feed frame. -/
structure FeedFrame where
  /-- owning partition per stack, 16 for none -/
  owner : List Nat
  /-- WU per stack -/
  wu : List Nat
  /-- landing bytes per function, 0 to 16 -/
  lnd : List Nat
  /-- crossing packet bytes per partition -/
  xng : List Nat
  /-- crossing bytes forwarded for other devices -/
  fwd : Nat
  deriving DecidableEq, Repr

/-- R582: a counter set. -/
inductive CntId where
  | plot (p : PlotId)
  | reach (s : Fin 16) (q : Fin 4)
  | die (s : Fin 16)
  | iod
  | barge
  | package
  deriving DecidableEq, Repr

/-- R606: operations of the debug module interface; registers by the numbers of the RISC-V debug module (log 69). -/
inductive DmiOp where
  | haltCore (s : Fin 16) (k : Fin 8)
  | resumeCore (s : Fin 16) (k : Fin 8)
  | stepCore (s : Fin 16) (k : Fin 8)
  | readCoreReg (s : Fin 16) (k : Fin 8) (n : BitVec 16)
  | writeCoreReg (s : Fin 16) (k : Fin 8) (n : BitVec 16) (v : BitVec 64)
  | haltSteward (p : PlotId)
  | resumeSteward (p : PlotId)
  | stepSteward (p : PlotId)
  | readStewardReg (p : PlotId) (n : BitVec 16)
  | writeStewardReg (p : PlotId) (n : BitVec 16) (v : BitVec 64)
  | haltRider
  | resumeRider
  | readRiderReg (n : BitVec 16)
  | writeRiderReg (n : BitVec 16) (v : BitVec 64)
  | scanDump (die : Fin 17)
  deriving DecidableEq, Repr

/-- One constructor per row of the operation table. -/
inductive Instr where
  /-- R559: PWR_GOOD is asserted; the tollhouse starts metering within 20 ms and the package waits for the PERST_N release. -/
  | pwrGoodRise
  /-- R31: PWR_GOOD falls and every unit, the tollhouse included, resets at once without draining. -/
  | pwrGoodFall
  /-- R31: PERST_N is asserted while PWR_GOOD is high, which starts a package cold reset without draining while the tollhouse keeps metering. -/
  | perstNAssert
  /-- R458: PERST_N is released and a cold boot starts on the slot order set by BOOT_MODE. -/
  | perstNRelease (mode : BitVec 2)
  /-- R27: The monitor finds REFCLK_SYS absent for 10 us; the device halts all arrays, holds every domain except TOLL and asserts ALERT_N. -/
  | refclkSysAbsent
  /-- R27: REFCLK_XNG is absent for 10 us; all crossings go link-down and XNG_CLK_OK reads 0. -/
  | refclkXngAbsent
  /-- R27: REFCLK_XNG has been stable for 1 ms and the crossings retrain. -/
  | refclkXngStable
  /-- R24: A coolant flow-meter pulse edge arrives; it is counted and FLOW_ACTIVE is set. -/
  | flowPulse
  /-- R549: FLOW_PULSE is absent for 0.5 s; FLOW_ACTIVE falls and the supervisor halts every stack within 1 ms and raises FLOW_STOP. -/
  | flowStop
  /-- R25: The 100 ms I3C1 read of the inlet and outlet sensors marks each sensor valid or invalid and checks the inlet range and the flow. -/
  | coolantSensorRead (inlet outlet : Option (BitVec 16))
  /-- R531: A valid sensor has been at or above its hard limit for two samples; the device halts the arrays, asserts THERMTRIP_N and stops its clocks. -/
  | hardLimitTrip
  /-- R532: A die comparator reaches 125 C junction temperature and pulls THERMTRIP_N low without any governor action. -/
  | analogueComparatorTrip (die : Fin 17)
  /-- R544: The adaptive DVFS averaging window expires and the stack moves one P-state down or up. -/
  | pstateDecision (s : Fin 16) (ack : Bool)
  /-- R545: The 50 us regulator settling time expires and the next voltage step or the clock change proceeds. -/
  | voutStepSettled (s : Fin 16) (ack : Bool)
  /-- R545: Once the arrays are empty and the weight loads are done, the ARR clock switches in 0.5 us and issue resumes. -/
  | clockSwitch (s : Fin 16) (ack : Bool)
  /-- R52: A pass descriptor enters a free lookahead place; the feeder resolves WLOAD and checks the pass. -/
  | lookaheadEntry (p : PlotId) (t : Nat)
  /-- R49: Once its conditions hold, a bore starts shifting its tile into the transit chains. -/
  | boreStart (p : PlotId) (t : Nat)
  /-- R50: After 64 entries the transit chains are full and hold, and the weight feed is free. -/
  | boreEntryDone (p : PlotId) (t : Nat)
  /-- R51: With the shadow set FREE and the feed free, a shadow load starts writing one row per ARR cycle. -/
  | shadowLoadStart (p : PlotId) (t : Nat)
  /-- R51: The last shadow row is written and the shadow set reads LOADED. -/
  | shadowLoaded (p : PlotId) (t : Nat)
  /-- R61: During a weight load the feeder finds a bad 2:4 index group, discards the partial load and rejects the owning pass with ARR_SPARSE_META. -/
  | sparseMetaReject (p : PlotId) (t : Nat)
  /-- R106: A pass takes its first issue cycle once its wait, weights, ramp, pause and permit allow, subtracting WAIT_CNT. -/
  | passStart (p : PlotId) (t : Nat)
  /-- R51: Cell (63, 63) has swapped at e + 127 and the shadow set reads FREE. -/
  | shadowFree (p : PlotId) (t : Nat)
  /-- R56: In an issue slot the feeder issues the next valid vector, reserving its accumulator row, or issues a bubble. -/
  | vectorIssue (p : PlotId) (t : Nat)
  /-- R59: A column result is written into its accumulator row in ACCUMULATE or OVERWRITE mode. -/
  | accWrite (p : PlotId) (c : Fin 64) (t : Nat)
  /-- R58: The drain path reads a finished row, converts it, writes it to the tank or the output stream and releases its reservation. -/
  | drainRow (p : PlotId) (t : Nat)
  /-- R93: A write to ARR_RNG_HI arms a load of both generator halves at the next drain row boundary. -/
  | arrRngHiWrite (r : Req) (p : PlotId) (v : Word)
  /-- R54: The 256th consecutive idle cycle starts a ramp-down when RAMP_DOWN_EN is 1. -/
  | rampDownStart (p : PlotId) (t : Nat)
  /-- R54: Each S cycles during a ramp-down the next column group from 7 down to 0 is clock-gated. -/
  | columnGroupDisable (p : PlotId) (t : Nat)
  /-- R55: A valid vector is ready with every other issue condition met, so any ramp-down stops and a ramp-up begins. -/
  | rampUpStart (p : PlotId) (t : Nat)
  /-- R55: Each S cycles during a ramp-up the next disabled column group is enabled. -/
  | columnGroupEnable (p : PlotId) (t : Nat)
  /-- R65: An emergency halt or a slack-water stop makes the feeder stop issuing at the next vector boundary. -/
  | haltRequest (p : PlotId) (t : Nat)
  /-- R65: The last vector in flight has written and ARR_STAT.HALTED reads 1. -/
  | arrayHalted (p : PlotId) (t : Nat)
  /-- R68: A write to ARR_CFG takes effect, and a RAMP_STEP outside 3-12 is ignored and sets CFG_REJ. -/
  | arrCfgWrite (r : Req) (p : PlotId) (v : Word)
  /-- R99: A steward exception, an access fault or an interrupt traps to the firmware handler. -/
  | stewardException (p : PlotId) (cause tval : BitVec 64)
  /-- R99: Firmware writes STW_WDOG.FAULT and the plot fails with cause STEWARD. -/
  | stwWdogFault (r : Req) (p : PlotId)
  /-- R150: A write of KICK restarts the watchdog period. -/
  | stwWdogKick (r : Req) (p : PlotId)
  /-- R99: PERIOD passes without a kick and the plot fails with cause WATCHDOG. -/
  | stewardWatchdogExpiry (p : PlotId)
  /-- R102: A write to PQ_PUSH copies the push window into the named queue, or stalls a steward push, or drops another source's push. -/
  | pqPush (r : Req) (p : PlotId) (q : BitVec 2)
  /-- R102: An entry frees in a full queue and the stalled steward push completes. -/
  | stalledPushAccept (p : PlotId)
  /-- R106: A vector descriptor whose wait is satisfied leaves the vector queue for the vector unit after its checks. -/
  | vectorDescStart (p : PlotId)
  /-- R107: A vector descriptor's last store completes; it signals and writes its record. -/
  | vectorDescComplete (p : PlotId)
  /-- R107: A local signal reaches its token counter 1 to 8 FAB cycles after its descriptor completed. -/
  | localSignalArrive (p : PlotId) (ctr : BitVec 6)
  /-- R149: A write to VEC_RNG_HI arms a load of the vector generator at the next descriptor boundary. -/
  | vecRngHiWrite (r : Req) (p : PlotId) (v : Word)
  /-- R144: A read of PQ_CPL_LO pops the oldest completion record and captures its time into PQ_CPL_HI. -/
  | pqCplPop (r : Req) (p : PlotId)
  /-- R111: SKIP discards the held head and resumes the queue. -/
  | pqSkip (r : Req) (p : PlotId) (q : BitVec 2)
  /-- R111: FLUSH discards every descriptor that has done no work with ABORTED records and resumes a held queue. -/
  | pqFlush (r : Req) (p : PlotId) (q : BitVec 2)
  /-- R142: SET_EN makes a STOPPED plot queue RUNNING. -/
  | pqSetEn (r : Req) (p : PlotId) (q : BitVec 2)
  /-- R112: CLR_EN begins STOPPING, discarding descriptors that have done no work. -/
  | pqClrEn (r : Req) (p : PlotId) (q : BitVec 2)
  /-- R128: A noria command leaves the noria queue once its wait, its banks and its dispatch permit allow. -/
  | noriaDispatch (p : PlotId)
  /-- R129: The barge queue hands its head to the named idle channel, which checks and takes it. -/
  | bargeHandoff (p : PlotId)
  /-- R132: A steward write to an output slot entry opens, closes or fills the slot, or is ignored with TOKEN_ERR. -/
  | outputSlotWrite (r : Req) (p : PlotId) (n : Fin 32) (w : Fin 8) (v : Word)
  /-- R132: A steward write to a headgate entry opens, closes (discarding held flits) or fills it, or is ignored with TOKEN_ERR. -/
  | headgateWrite (r : Req) (p : PlotId) (n : Fin 32) (w : Fin 8) (v : Word)
  /-- R108: An ADD token arrives and adds its amount to a token counter, saturating at 65,535. -/
  | addToken (p : PlotId) (src : Loc) (ctr amount : BitVec 6)
  /-- R186: A CREDIT token adds flits to an output slot's CREDIT_NOW. -/
  | creditToken (p : PlotId) (src : Loc) (slot : BitVec 5) (n : BitVec 7)
  /-- R192: A FENCED token sets the output slot's FENCED, and its sender completes with STREAM_FENCED. -/
  | fencedToken (p : PlotId) (src : Loc) (slot : BitVec 5)
  /-- R164: A BARGE_GO token adds 1 to the named channel's GO_PEND. -/
  | bargeGo (p : PlotId) (src : Loc) (c : BitVec 2)
  /-- R133: A WAKE token sets HDR_IRQ_STAT.WAKE. -/
  | wake (p : PlotId) (src : Loc)
  /-- R592: A MARKER token arrives on a token lane input of a stop unit. -/
  | markerToken (u : UnitId) (input : Nat) (stop : Byte)
  /-- R133: A token of reserved type, or an ADD of amount 0, is dropped and counted and sets TOKEN_ERR. -/
  | reservedToken (p : PlotId) (src : Loc) (tok : BitVec 16)
  /-- R134: A steward write to PQ_TOKEN_TX sends an ADD, BARGE_GO or WAKE token inside the partition, or is dropped with TOKEN_ERR. -/
  | pqTokenTx (r : Req) (p : PlotId) (v : Word)
  /-- R108: A steward write to a token counter takes effect, and a same-cycle addition is applied in the next FAB cycle. -/
  | tokenCounterWrite (r : Req) (p : PlotId) (n : Fin 64) (v : Word)
  /-- R186: A sender holding credit sends one stream flit and subtracts one credit. -/
  | streamFlitSend (p : PlotId) (slot : Fin 32)
  /-- R184: A stream flit reaches its destination plot and is accepted into the headgate ring or discarded by the ejection filter. -/
  | streamFlitArrive (dst : Loc) (hg : BitVec 5) (sid : BitVec 16) (src : Loc) (slot : BitVec 5) (data : FlitData)
  /-- R187: The consumer reads a flit from the ring, and a CREDIT token is sent when 8 flits are pending or the headgate empties. -/
  | headgateConsume (p : PlotId) (hg : Fin 32)
  /-- R187: 32 FAB cycles pass since the oldest pending flit was consumed and the pending credit is sent. -/
  | creditBatchTimeout (p : PlotId) (hg : Fin 32)
  /-- R178: A router forwards a whole packet, chosen round-robin, once the next buffer has room. -/
  | routerForward (die : Fin 17) (site : Fin 36) (out : Fin 13)
  /-- R191: Management software fences a plot through RH_FENCE.FENCED. -/
  | rhFenceSet (r : Req) (s : Fin 16) (q : Fin 4) (mask : Byte)
  /-- R196: A die-to-die frame arrives; it is delivered, or it fails its CRC, is discarded and a NAK is sent, and a received NAK starts a replay. -/
  | d2dFrameReceive (m : ModId) (frame : List Byte)
  /-- R196: The one-second replay window closes, and a module over RATE for WINDOW seconds sets LASTING, reports and retrains. -/
  | replayRateTick (m : ModId)
  /-- R204: A write of DF_LINK_CTRL.RETRAIN starts a module retrain. -/
  | dfLinkRetrain (r : Req) (m : ModId)
  /-- R197: A retrain ends; the module is UP, or after three failures it reads DISABLED and its hub moves traffic to the other module. -/
  | d2dRetrainDone (m : ModId) (ok : Bool) (spared : BitVec 3)
  /-- R204: A write of DF_LINK_CTRL.DISABLE takes a module in or out of use. -/
  | dfLinkDisable (r : Req) (m : ModId) (v : Bool)
  /-- R199: A far end has been DOWN for 1 us; outstanding requests get TARGET_LOST, queued traffic is discarded and credits are reclaimed. -/
  | d2dLinkDown (die far : Fin 17)
  /-- R222: The slice controller serves a read burst, classifying each code word and returning corrected data or poison. -/
  | cisternRead (p : PlotId) (off len : Nat) (src : Src)
  /-- R222: The slice controller serves a write of whole code words, or a read-modify-write for partial ones. -/
  | cisternWrite (p : PlotId) (off : Nat) (data : List Byte) (poison : Bool) (src : Src)
  /-- R227: The weir adder applies one element's operation to each code word as an atomic read-modify-write and sends its completion. -/
  | weirOpApply (p : PlotId) (op : BitVec 4) (esize : BitVec 3) (off : Nat) (operand : List Byte) (poison fetch : Bool)
  /-- R226: A scatter-add packet is sent when full, when the next element targets another slice, or 16 cycles after its first element. -/
  | scatterAddPacketSend (c : Option ChanId)
  /-- R232: A bank's refresh interval for the band expires and the bank refreshes. -/
  | bankRefresh (p : PlotId) (bank : Fin 32)
  /-- R233: Within 1 us of a band change, the slice controllers apply the new refresh interval, timing and write hold. -/
  | bandApply (s : Fin 16)
  /-- R231: A fill finishes a segment, and requests waiting on it proceed. -/
  | fillSegmentDone (p : PlotId) (seg : Fin 8)
  /-- R215: A write to COMMONS_CFG sets H and the window sizes, or is ignored with CFG_REJ or WR_REJ. -/
  | commonsCfgWrite (r : Req) (n : Fin 16) (v : Word)
  /-- R249: Within 10 us of a correctable read error, the burst is re-read and its correctable words are written back. -/
  | demandScrub (p : PlotId)
  /-- R248: The patrol reads its next burst on schedule, writes back correctable words and poisons uncorrectable ones. -/
  | patrolScrub (p : PlotId)
  /-- R252: Once a second, the lasting-fault window of every valid entry that has run out is closed. -/
  | eccWindowTick (s : Fin 16)
  /-- R270: A read of ERR_RPT_W0 pops the oldest error report and captures its other words. -/
  | errRptPop (r : Req) (f : Fin 17)
  /-- R257: CISTERN_PPR_CTRL.GO starts a soft post-package repair of one row. -/
  | pprGo (r : Req) (p : PlotId) (v : Word)
  /-- R257: The row copy ends, the row switches to its spare, held accesses are released and STATE reads DONE or FAILED. -/
  | pprDone (p : PlotId)
  /-- R260: BEGIN copies the current remap table into the staging table. -/
  | commonsRemapBegin (r : Req) (n : Fin 16)
  /-- R260: WRITE places a pair into the staging table at INDEX. -/
  | commonsRemapWrite (r : Req) (n : Fin 16) (i : Fin 512)
  /-- R260: CLEAR removes the pair at INDEX from the staging table. -/
  | commonsRemapClear (r : Req) (n : Fin 16) (i : Fin 512)
  /-- R260: START checks the staging table and starts the migration, or ends the change as FAILED with BAD_ENTRY. -/
  | commonsRemapStart (r : Req) (n : Fin 16)
  /-- R260: CANCEL discards the staging table and ends dual writes before the switch. -/
  | commonsRemapCancel (r : Req) (n : Fin 16)
  /-- R260: The mover finishes copying and the remap state reads SWITCH_WAIT. -/
  | remapCopyDone (n : Fin 16)
  /-- R262: At a command boundary with no command running, GEN increments and new command starts stay held. -/
  | remapSwitch (n : Fin 16)
  /-- R262: Every translator has taken the new generation; dual writes end, held commands are released and REMAP_DONE is raised. -/
  | remapDone (n : Fin 16)
  /-- R277: A noria command reaches the target slice queue, where it is checked and queued, rejected, or answered with RETRY. -/
  | noriaCmdArrive (src : NorSrc)
  /-- R273: 1 us after a RETRY, the source sends the command again. -/
  | noriaRetryResend (src : NorSrc)
  /-- R303: The governor grants a bank permit within the adaptive headroom or tNAW. -/
  | bankPermitGrant (p : PlotId) (bank : Fin 32)
  /-- R289: A bank holding a permit starts the next step of its command, holding other accesses to the bank. -/
  | noriaStepStart (p : PlotId) (bank : Fin 32)
  /-- R292: A noria step ends, and the requests queued for the bank are served before the next step. -/
  | noriaStepEnd (p : PlotId) (bank : Fin 32)
  /-- R299: The cross-check period expires and the test runs on idle banks. -/
  | noriaXchkPeriod (p : PlotId)
  /-- R307: NORIA_XCHK_CTRL.GO starts a cross-check of one bank or all banks. -/
  | noriaXchkGo (r : Req) (p : PlotId) (v : Word)
  /-- R299: A bank's cross-check ends; a mismatch sets the bank FAILED and raises NORIA_XCHK_FAIL. -/
  | noriaXchkDone (p : PlotId) (bank : Fin 32) (same : Bool)
  /-- R356: NWIN_PUSH.PUSH queues the noria window command, or drops it with PUSH_FULL. -/
  | nwinPush (r : Req) (n : Fin 16)
  /-- R358: A read of NWIN_CPL pops one noria window record. -/
  | nwinCplPop (r : Req) (n : Fin 16)
  /-- R315: The landing enters recovery or changes rate or width, and requests wait without a reset. -/
  | linkRecovery (gen : Fin 7) (width : Fin 17)
  /-- R315: A hot reset or DL_Down of the landing starts a package warm reset. -/
  | hotReset
  /-- R315: A Function Level Reset of a virtual function starts a partition reset of its partition. -/
  | flrVf (n : Fin 16)
  /-- R315: A Function Level Reset of the physical function resets its rings, noria window state and error report FIFO. -/
  | flrPf
  /-- R316: A configuration request is served, or answered with Retry Status until ready. -/
  | configRequest (f : Fin 17) (write : Bool) (off : BitVec 12) (v : Word)
  /-- R324: A BAR2 read or write reaches the commons at WIN_BASE plus the offset, or reads all ones outside the commons. -/
  | bar2Access (f : Fin 17) (write : Bool) (off len : Nat) (data : List Byte) (ep tbit : Bool)
  /-- R319: A PCIe AtomicOp in BAR2 becomes a fetching weir operation, or is answered with Unsupported Request. -/
  | atomicOp (f : Fin 17) (bar : Fin 5) (op : AtomOp) (off : Nat) (operand compare : BitVec 64) (tbit : Bool)
  /-- R330: Host software writes a new submission tail, or an out-of-range value sets DB_ERR. -/
  | sqDoorbell (g : RingId) (v : Word) (tbit : Bool)
  /-- R330: Host software frees completion entries, releasing any held completion. -/
  | cqDoorbell (g : RingId) (v : Word) (tbit : Bool)
  /-- R330: The device reads up to 8 submission entries from host memory. -/
  | sqFetch (g : RingId)
  /-- R320: A completion returns for a device host read; a failure fails its command with HOST_DMA or stops the ring with FETCH_ERR. -/
  | hostReadCompletion (f : Fin 17) (i : Nat) (ok : Bool) (data : List Byte)
  /-- R320: A device host read times out and is handled as a failed read. -/
  | completionTimeout (f : Fin 17) (i : Nat)
  /-- R339: The command authenticates and checks an Ndeorn graph image and loads its programs and streams into a slot. -/
  | loadGraph (g : RingId) (image : List Byte)
  /-- R341: The command writes the arguments, reopens the streams, zeroes the counters and releases the stewards of a slot's graph. -/
  | runGraph (g : RingId)
  /-- R341: A plot's firmware reports the end of its part of the run. -/
  | plotPartEnd (p : PlotId)
  /-- R341: TIMEOUT passes and the RUN_GRAPH completes with RUN_TIMEOUT while the graph keeps running. -/
  | runTimeout (n : Fin 16) (slot : Fin 8)
  /-- R342: The command moves LENGTH bytes on the landing DMA engine or on the partition's I/O die barges. -/
  | copy (g : RingId)
  /-- R343: The command writes a 64-bit pattern over a device range with I/O die barges. -/
  | fill (g : RingId)
  /-- R344: The command passes a list of noria commands through the window and completes when all have completed. -/
  | noriaOp (g : RingId) (list : List Byte)
  /-- R345: The command completes when every earlier command of its scope has completed and is visible. -/
  | fence (g : RingId)
  /-- R346: The command performs an IADD64 weir operation or sends an ADD token inside the partition. -/
  | signal (g : RingId)
  /-- R347: The command starts polling a device word until it reaches the threshold. -/
  | wait (g : RingId)
  /-- R347: Each 1 us the word is read, completing the WAIT when it meets the threshold or is poisoned. -/
  | waitPoll (g : RingId)
  /-- R347: TIMEOUT passes and WAIT completes with WAIT_TIMEOUT. -/
  | waitTimeout (g : RingId)
  /-- R348: The command writes a partition record, counter sample, symbol table or landing record to host memory. -/
  | query (g : RingId)
  /-- R352: The command queues a named self-test on a scope. -/
  | selftest (g : RingId)
  /-- R512: The command replaces a logical plot with a spare site after testing, flooding and copying or filling its cistern. -/
  | spareIn (g : RingId)
  /-- R386: The command checks the member list and sends JOIN to form or re-form a crossing group. -/
  | groupForm (g : RingId) (ids : List (BitVec 16))
  /-- R386: GROUP_FORM with ACTION 1 sets the slot FREE, ending its collectives with COLL_GROUP. -/
  | groupDissolve (g : RingId)
  /-- R337: A command with an unknown opcode completes with BAD_OPCODE. -/
  | reservedOpcode (g : RingId)
  /-- R335: RING_CTRL.SET_EN makes a STOPPED ring RUNNING with head, tail 0 and phase 1. -/
  | ringSetEn (r : Req) (g : RingId)
  /-- R335: RING_CTRL.CLR_EN stops fetching and starts STOPPING. -/
  | ringClrEn (r : Req) (g : RingId)
  /-- R327: PART_CFGp with ASSIGN 1 assigns an arc and enters RESETTING, or is ignored with CFG_REJ. -/
  | partAssign (r : Req) (n : Fin 16) (v : Word)
  /-- R327: ASSIGN 0 removes a partition in IDLE, STOPPED or FAULTED through RESETTING. -/
  | partRemove (r : Req) (n : Fin 16) (v : Word)
  /-- R328: SET_EN of PART_CTRLp or PART_SELF_CTRL makes the partition RUNNING from IDLE or STOPPED. -/
  | partSetEn (r : Req) (n : Fin 16)
  /-- R503: CLR_EN makes the partition STOPPING and every enabled ring STOPPING. -/
  | partClrEn (r : Req) (n : Fin 16)
  /-- R497: PART_CTRLp.RESET starts a partition reset through RESETTING. -/
  | partReset (r : Req) (n : Fin 16)
  /-- R328: RESETTING ends in IDLE, STOPPED or FREE after reset, fill and zeroisation. -/
  | resettingEnd (n : Fin 16) (trained : Bool)
  /-- R365: A crossing in DETECT sees light on its receive lanes and starts EQUALISE. -/
  | xngLightDetect (n : Fin 32)
  /-- R366: Equalisation succeeds at a configuration and the crossing enters ALIGN, or it falls back to the next configuration. -/
  | xngEqualiseDone (n : Fin 32) (ok : Bool)
  /-- R365: Codeword lock, deskew and lane sparing complete and the crossing enters PEER. -/
  | xngAlignDone (n : Fin 32) (spare : Bool)
  /-- R365: The peer exchange completes and the crossing enters AUTH, or ACTIVE in a retrain. -/
  | xngPeerDone (n : Fin 32) (peer : BitVec 16) (gen : Fin 3) (half encOff : Bool)
  /-- R375: Certificate check and key exchange complete and the crossing enters ACTIVE, or DOWN with AUTH_CERT or AUTH_POLICY. -/
  | xngAuthDone (n : Fin 32) (certOk : Bool)
  /-- R365: A training state's time limit passes and the crossing falls back or enters DOWN. -/
  | xngStateTimeout (n : Fin 32)
  /-- R365: The 1 ms of DOWN handling ends and the crossing returns to DETECT. -/
  | xngDownExpiry (n : Fin 32)
  /-- R367: Codeword lock has been lost for 1 us and the crossing starts a retrain. -/
  | codewordLockLoss (n : Fin 32)
  /-- R367: A write of XNG_CTRL.RETRAIN starts a crossing retrain. -/
  | xngRetrain (r : Req) (n : Fin 32)
  /-- R367: A retrain returns the crossing to ACTIVE, or three failures enter DOWN. -/
  | xngRetrainDone (n : Fin 32) (ok : Bool)
  /-- R369: A crossing flit arrives; CRC, tag group, acknowledgement, NAK and credit fields are processed. -/
  | xngFlitReceive (n : Fin 32) (flit : List Byte) (tagOk : Bool) (plain : List Byte)
  /-- R376: A group closes after 31 flits or 16 idle flit times and the sender sends its TAG flit. -/
  | tagGroupClose (n : Fin 32)
  /-- R378: A write of XNG_CTRL.REKEY starts a key renewal. -/
  | xngRekey (r : Req) (n : Fin 32)
  /-- R378: SECONDS or 2^32 groups pass and a key renewal starts. -/
  | rekeyDue (n : Fin 32)
  /-- R372: A one-second window closes; lasting replays or a lane over THRESH start a retrain. -/
  | xngErrorRateTick (n : Fin 32) (laneCorr : Nat)
  /-- R381: A routed packet leaves on an ACTIVE port of its route mask against link credit, or is dropped with NOROUTE. -/
  | xngPacketSend (n : Fin 32)
  /-- R386: A JOIN packet arrives and is answered with JOIN_ACK when it matches, or kept for 100 ms. -/
  | join (src gid : BitVec 16) (epoch : Word) (digest : List Byte)
  /-- R386: A JOIN_ACK arrives, and the group becomes ACTIVE when every member has answered. -/
  | joinAck (src gid : BitVec 16) (epoch : Word) (digest : List Byte)
  /-- R386: A JOIN kept for 100 ms without a local GROUP_FORM is discarded. -/
  | joinKeepExpiry (i : Nat)
  /-- R387: TIMEOUT passes while forming and GROUP_FORM completes with GRP_TIMEOUT. -/
  | grpTimeout (g : Fin 16)
  /-- R392: Every HEARTBEAT/5 us a member sends HEARTBEAT to its ring neighbours. -/
  | heartbeatSend (g : Fin 16)
  /-- R392: A HEARTBEAT packet arrives and refreshes the neighbour's timeout. -/
  | heartbeat (src gid : BitVec 16) (epoch : Word)
  /-- R393: A neighbour is silent for HEARTBEAT us, so the slot becomes SEVERED and SEVER is sent. -/
  | heartbeatTimeout (g : Fin 16) (next : Bool)
  /-- R393: A SEVER packet for the current epoch marks the slot SEVERED and ends its collectives with SPLIT. -/
  | sever (src gid : BitVec 16) (epoch : Word)
  /-- R383: A LOST packet completes the named collective with COLL_LOST. -/
  | lost (src gid : BitVec 16) (epoch : Word) (seq : BitVec 16)
  /-- R382: An end-to-end CREDIT packet grants DATA credit from a destination engine. -/
  | e2eCredit (src : BitVec 16) (amount : Nat)
  /-- R389: A DATA packet of a collective arrives and is added or written at DST, or mismatched or stale packets are handled. -/
  | dataPacket (src gid : BitVec 16) (epoch : Word) (seq : BitVec 16) (like : Desc) (off : Nat) (data : List Byte) (poison : Bool)
  /-- R388: A collective descriptor arrives on an endpoint command queue and starts or completes with COLL_DESC. -/
  | collectiveDescriptor (e : Fin 32)
  /-- R391: All DST writes are visible; the status record is written and the token sent. -/
  | collectiveComplete (e : Fin 32) (i : Nat)
  /-- R397: The ditch rider discovers, trains, measures and checks a ferry, admitting or rejecting it. -/
  | ferryAdmission (s : Fin 9) (info : FerryInfo)
  /-- R400: A ferry's modules go down or its sideband faults; its crossings enter DOWN and admission repeats. -/
  | ferryLost (s : Fin 9) (hot : Bool)
  /-- R400: A write of FERRY_CTRL.READMIT repeats ferry admission. -/
  | ferryReadmit (r : Req) (s : Fin 9)
  /-- R409: A write of CORE_CTRL.RELEASE releases cores of a RUNNING partition into the firmware and HS mode. -/
  | coreRelease (r : Req) (s : Fin 16) (mask : Byte)
  /-- R415: A core atomic to an uncached cistern or commons address becomes a fetching weir operation, or faults. -/
  | coreAtomic (s : Fin 16) (k : Fin 8) (op : CoreAmo) (wide : Bool) (addr : Nat) (cached : Bool) (operand compare : BitVec 128) (rd : Fin 32)
  /-- R419: A core write of CORE_TOKEN_TX sends a token under R134 checks. -/
  | coreTokenTx (r : Req) (s : Fin 16) (v : Word)
  /-- R423: MEDIA_SUBMIT.PUSH queues a media job, or drops it with PUSH_FULL or PUSH_REJ. -/
  | mediaSubmitPush (r : Req) (n : Fin 32)
  /-- R425: A media channel takes its next job and checks it, rejecting it or starting to decode. -/
  | mediaJobStart (n : Fin 32)
  /-- R425: A decoded picture is cropped, converted, resized, normalised and written as a tensor. -/
  | mediaPictureOutput (n : Fin 32) (vals : List Word)
  /-- R426: A media job completes or stops on damage or poison and writes its record. -/
  | mediaJobComplete (n : Fin 32) (how : MediaEnd)
  /-- R428: A read of MEDIA_CPL pops one media record. -/
  | mediaCplPop (r : Req) (n : Fin 32)
  /-- R454: A write to BRG_OWNER, MEDIA_OWNER or COLL_EP_OWNER of a STOPPED unit changes its owner and clears its state. -/
  | ownerWrite (r : Req) (u : OwnedId) (v : Word)
  /-- R442: SEC_CTRL.SVN_COMMIT raises SVN_FUSE to the running firmware SVN. -/
  | svnCommit (r : Req)
  /-- R443: SEC_CTRL.REVOKE_SUBMIT checks a revocation image and blows the slot's revocation bit. -/
  | revokeSubmit (r : Req)
  /-- R444: A fuse burn request finishes and SEC_REQ_STAT reads DONE or FAILED. -/
  | keyEngineRequestDone (ok : Bool)
  /-- R445: An SPDM request over DOE is answered with certificates, measurements or session messages. -/
  | spdmRequest (f : Fin 17) (q : SpdmReq)
  /-- R447: An IDE stream fails an integrity check, enters Insecure and drops the TLP. -/
  | ideIntegrityFail (f : Fin 17)
  /-- R448: TDISP LOCK_INTERFACE sets HDR_LOCK and freezes the partition's configuration. -/
  | lockInterface (n : Fin 16)
  /-- R450: STOP_INTERFACE returns the TDI to CONFIG_UNLOCKED after a partition reset. -/
  | stopInterface (n : Fin 16)
  /-- R452: A submitted debug token is checked and, if accepted, locks keys, ends sessions, errors every TDI and opens JTAG. -/
  | dbgTokenSubmit (token : List Byte) (viaJtag : Bool)
  /-- R437: An entropy health test fails, RNG_FAIL is set and key operations needing randomness are refused. -/
  | rngHealthFail
  /-- R459: A boot stage passes, holds out a unit, or fails the start immediately or as a counted failure. -/
  | bootStageComplete (stage : Fin 17) (res : StageResult)
  /-- R461: A stage runs for twice its limit and the start fails with WATCHDOG. -/
  | bootWatchdog
  /-- R479: A receiver takes a flooded block, checks its digest and installs it or discards it. -/
  | floodBlock (recv : Nat) (num : Nat) (data : List Byte)
  /-- R480: 20 us after the main pass, receivers with missing blocks request a repair round. -/
  | floodRepairRequest
  /-- R480: 100 us after a round's last block, the round ends and incomplete receivers request again or are held out. -/
  | floodRoundEnd
  /-- R458: BOOT_CTRL.COLD_RESET starts a cold boot. -/
  | coldReset (r : Req) (next : BitVec 2)
  /-- R458: BOOT_CTRL.WARM_RESET starts a warm boot. -/
  | warmReset (r : Req)
  /-- R465: BOOT_CTRL.CLR_ATTEMPTS writes a clear record to the boot-attempt counter. -/
  | clrAttempts (r : Req)
  /-- R490: BOOT_CTRL.NEXT_SLOT chooses the slot order for the next cold boot. -/
  | nextSlot (r : Req) (v : BitVec 2)
  /-- R487: SSTORE_CMD READ copies 256 B of the settings store into the window. -/
  | sstoreRead (r : Req)
  /-- R487: SSTORE_CMD PROGRAM writes the window to an erased page, or is refused in the attempt area. -/
  | sstoreProgram (r : Req)
  /-- R487: SSTORE_CMD ERASE clears a 64 KiB block, or is refused in the attempt area. -/
  | sstoreErase (r : Req)
  /-- R487: A settings store command finishes and SSTORE_STAT reads DONE or FAILED. -/
  | sstoreDone (ok : Bool)
  /-- R491: RH_PLOT_CTRL.RESET starts plot resets with optional ZERO_FILL and RETEST. -/
  | plotReset (r : Req) (s : Fin 16) (q : Fin 4) (v : Word)
  /-- R496: RH_PLOT_CTRL.REACH_RESET resets the reach's eight plots and its hub. -/
  | reachReset (r : Req) (s : Fin 16) (q : Fin 4)
  /-- R494: A reset's drain ends or its limit passes; what remains is absorbed with RESET_ABORT and the scope is cleared. -/
  | resetDrainEnd (sc : Scope)
  /-- R495: A reset scope returns to service after its clear, fill and optional retest. -/
  | resetRelease (sc : Scope) (testsOk floodOk : Bool)
  /-- R523: A read of FLT_PROP_W0 pops one defect proposal. -/
  | fltPropPop (r : Req)
  /-- R515: A queued self-test starts when its scope is idle. -/
  | selftestStart (id : Nat)
  /-- R476: A self-test ends; a failure holds out the unit and the command completes. -/
  | selftestDone (id : Nat) (ok : Bool) (code : Word)
  /-- R517: A request's TIMEOUT passes before its test starts and it completes with BUSY_TIMEOUT. -/
  | busyTimeout (id : Nat)
  /-- R512: The spare is tested, flooded and copied; the site map switches and SPARE_IN completes. -/
  | spareCopyDone (s : Fin 16) (p : Fin 32) (testsOk floodOk copyOk : Bool)
  /-- R500: HDR_CTRL.EN set makes a STOPPED function RUNNING. -/
  | functionSetEn (r : Req) (u : FuncId)
  /-- R500: HDR_CTRL.EN clear makes a RUNNING function STOPPING and samples DRAIN_LIMIT. -/
  | functionClrEn (r : Req) (u : FuncId)
  /-- R500: The last item of a STOPPING function finishes and it reads STOPPED. -/
  | functionStopped (u : FuncId)
  /-- R500: DRAIN_LIMIT passes in STOPPING and unfinished items complete with ABORTED. -/
  | drainLimitExpiry (u : FuncId)
  /-- R525: Every 10 us each on-die sensor is sampled and checked against range and hard limits. -/
  | sensorSample (die : Fin 17) (i : Fin 13) (raw : BitVec 12) (temp : BitVec 16)
  /-- R530: Every 100 us the governor updates sensor means, the pair reading, the deciding temperature and the thermal level. -/
  | thermalLoop (s : Fin 16)
  /-- R526: A 100 ms mean completes and the rate and stuck checks mark sensors ignored or valid again. -/
  | sensorMean100ms (s : Fin 16) (i : Fin 13)
  /-- R536: Every 10 us the governor estimates power and, in adaptive mode, raises the power level above 97 % of the cap. -/
  | powerEstimate (s : Fin 16) (mw : Nat)
  /-- R539: Every 100 us the adaptive power level drops by one if power stayed below 92 % of the cap. -/
  | adaptiveLevelLower (s : Fin 16)
  /-- R541: In timed mode, a start permit is granted every SPACING ARR cycles round robin. -/
  | startPermitGrant (s : Fin 16) (p : Fin 32) (t : Nat)
  /-- R546: Every second the supervisor estimates thermal resistance and updates coolant states and caps. -/
  | coolantEstimate
  /-- R550: GOV_CTRL.RESUME ends the emergency halt, or is rejected with RESUME_REJ. -/
  | govResume (r : Req)
  /-- R560: The tollhouse samples voltage and current on every channel at 100 kS/s. -/
  | tollSample (power : List Nat) (sat : Bool)
  /-- R565: A 1 ms attribution frame arrives from the I/O die and is checked by CRC. -/
  | feedFrame (frame : FeedFrame) (crcOk : Bool)
  /-- R566: A millisecond passes without a valid frame; its energy goes to the unassigned account. -/
  | feedGap
  /-- R568: Each second the tollhouse closes energy, attributes it and writes a chained record. -/
  | tollSecond (memOk : Bool)
  /-- R569: Every SUMMARY_MIN minutes a signed summary is written. -/
  | tollSummary
  /-- R573: The mailbox request returns the tollhouse version, checksum, seal and certificate chain. -/
  | identify (m : Fin 17)
  /-- R573: The mailbox request returns the last SEQ, flags, SUMMARY_MIN and audit count. -/
  | status (m : Fin 17)
  /-- R573: The mailbox request returns one record, filtered by mailbox, or NOT_HELD. -/
  | readRecord (m : Fin 17)
  /-- R573: The mailbox request returns one summary. -/
  | readSummary (m : Fin 17)
  /-- R574: The mailbox request returns a signed report over a record range. -/
  | signRange (m : Fin 17)
  /-- R573: The mailbox request returns one audit entry. -/
  | readAudit (m : Fin 17)
  /-- R578: The mailbox request checks the pin and signature and installs a new calibration set while blowing a seal bit. -/
  | calibrate (m : Fin 17) (message : List Byte) (pinHeld : Bool)
  /-- R573: A mailbox request with a reserved opcode completes with BAD_OPCODE. -/
  | mbBadOpcode (m : Fin 17)
  /-- R576: A mailbox request finishes, STATE reads DONE and the DONE interrupt bit is set. -/
  | tollMbDone (m : Fin 17)
  /-- R579: TOLL_CAL_EN is asserted or released and an audit entry is written. -/
  | tollCalEnChange (level : Bool)
  /-- R587: CNT_CTRL.SAMPLE switches a counter set's banks. -/
  | cntSample (r : Req) (set : CntId)
  /-- R591: DBG_SND_CTRL.GO asks every unit to write a sounding record. -/
  | soundingGo (r : Req)
  /-- R591: The sounding ends within 20 us and its state reads DONE. -/
  | soundingDone
  /-- R593: DBG_STOP_CTRL.GO starts a slack-water stop, or is refused. -/
  | stopGo (r : Req)
  /-- R593: A marker packet arrives on an input of a stop unit, stopping new work at its first marker. -/
  | markerPacket (u : UnitId) (input : Nat) (stop : Byte)
  /-- R593: A stop unit settles, takes its snapshot and sends markers on every output. -/
  | unitSnapshot (u : UnitId)
  /-- R596: An input's marker has not come within 100 us of the snapshot and it is recorded INCOMPLETE. -/
  | markerTimeout (u : UnitId) (input : Nat)
  /-- R596: 200 us after GO, units without a snapshot are forced to take one and marked FORCED. -/
  | stopForce
  /-- R598: DBG_STOP_CTRL.RELEASE resumes every unit from its recorded state. -/
  | stopRelease (r : Req)
  /-- R600: A write of DBG_REC_SEL fetches a record over the debug path. -/
  | dbgRecSel (r : Req) (v : Word)
  /-- R600: The record fetch ends and DBG_REC_STAT reads READY or NONE. -/
  | dbgRecReady
  /-- R604: A watch point reaches OCC and within 2 us starts a sounding or a stop. -/
  | watchPointFire (n : Fin 8)
  /-- R607: Update-DR of DBG_ACCESS starts a debug read or write subject to the debug level. -/
  | dbgAccess (dr : BitVec 88)
  /-- R619: A write of HDR_LOCK.LOCK locks the page's RWL fields. -/
  | hdrLockSet (r : Req) (a : RegAddr) (size : Nat)
  /-- R615: A write of HDR_IRQ_FORCE sets HDR_IRQ_STAT bits as their hardware events would. -/
  | hdrIrqForce (r : Req) (a : RegAddr) (size : Nat) (v : Word)
  /-- R8: A read of a _LO register captures the matching _HI register for the next _HI read. -/
  | registerPairLoRead (r : Req) (a : RegAddr) (size : Nat)
  /-- R10: A read of an RC counter field returns its value and clears it. -/
  | rcRead (r : Req) (a : RegAddr) (size : Nat)
  /-- R611: A write to a register with no row of its own takes effect by its access code, or is dropped and logged. -/
  | registerWrite (r : Req) (a : RegAddr) (size : Nat) (v : BitVec 64)
  /-- R165: A unit's due time on a barge TIMER grid comes; the unit starts, is marked late, or the due time is dropped and counted. -/
  | bargeTimerDue (c : ChanId)
  /-- R160: The last write of a barge unit becomes visible; FOLLOW channels gain GO_PEND, NOTIFY sends BARGE_GO, the last unit signals and records, and the channel takes its next descriptor. -/
  | bargeUnitComplete (c : ChanId)
  /-- R168: A write of BRG_SUBMIT.PUSH queues the I/O die channel's descriptor window, or drops it with PUSH_FULL or PUSH_REJ. -/
  | brgSubmitPush (r : Req) (n : Fin 32)
  /-- R164: A write of BRG_CTRL.GO adds 1 to the channel's GO_PEND, and CLR_GO clears it. -/
  | brgCtrlGo (r : Req) (c : ChanId) (clr : Bool)
  /-- R169: A read of BRG_CPL pops one I/O die barge completion record, releasing a channel held by a full BRG_CPL. -/
  | brgCplPop (r : Req) (n : Fin 32)
  /-- R449: The TDISP request that moves a CONFIG_LOCKED TDI to RUN, after which BAR requests must arrive on its bound stream with the T bit. -/
  | startInterface (n : Fin 16)
  /-- R606: A JTAG DMI operation at level 2 reaches the debug module, which halts, steps or accesses host-class cores, stewards or the ditch rider, or reads a scan dump port. -/
  | dmiAccess (a : DmiOp)
  deriving DecidableEq, Repr

end Sys2Proof
end

