-- ==== Sys2Proof/Decode.lean ====
section
/-!
DEFINITION. Decode.lean: commands read from words. The operation table gives no row any bits, so no word spells a
command.
-/
namespace Sys2Proof

/-- The command a word spells by the bits of the operation table: none, since no row has bits. -/
def decodeTableWord (_nbits _w : Nat) : Option Instr := none

end Sys2Proof
end

