-- ==== Sys2Proof/Machine/Tables.lean ====
section
/-!
DEFINITION. Tables.lean: the operations on sparse tables, lists, byte strings and bit fields that every family uses.
A table keeps one canonical form: keys strictly rising, no entry equal to what an unlisted key reads as.
-/
namespace Sys2Proof.Machine

/-- The value at key `i`; `d` where no entry lists it. -/
def tget {α : Type} (d : α) : Tbl α → Nat → α
  | [], _ => d
  | (k, v) :: t, i => if i = k then v else tget d t i

/-- Put an entry in its place among rising keys, replacing one of the same key. -/
def tins {α : Type} : Tbl α → Nat → α → Tbl α
  | [], i, x => [(i, x)]
  | (k, v) :: t, i, x =>
    if i < k then (i, x) :: (k, v) :: t
    else if i = k then (i, x) :: t
    else (k, v) :: tins t i x

/-- Write `x` at key `i` of a table whose unlisted keys read as `d`. -/
def tput {α : Type} [DecidableEq α] (d : α) (t : Tbl α) (i : Nat) (x : α) : Tbl α :=
  if x = d then t.filter (fun e => e.1 != i) else tins t i x

/-- The canonical form of a table whose unlisted keys read as `d k`. -/
def twf {α : Type} [DecidableEq α] (d : Nat → α) : Tbl α → Bool
  | [] => true
  | [(k, v)] => v != d k
  | (k, v) :: (k', v') :: t => (v != d k) && decide (k < k') && twf d ((k', v') :: t)

/-- The canonical form of the cisterns' memory: an unlisted byte reads zero (log 8). -/
def Memory.wf (m : Tbl Byte) : Bool := twf (fun _ => 0) m

/-- Entries of a table written one after another from key `i` on. -/
def tputs {α : Type} [DecidableEq α] (d : α) (t : Tbl α) (i : Nat) : List α → Tbl α
  | [] => t
  | x :: xs => tputs d (tput d t i x) (i + 1) xs

/-- `n` values from key `i` on. -/
def tgets {α : Type} (d : α) (t : Tbl α) (i : Nat) : Nat → List α
  | 0 => []
  | n + 1 => tget d t i :: tgets d t (i + 1) n

/-- Keep only the entries whose key satisfies `p`: the others read as unlisted. -/
def tkeep {α : Type} (t : Tbl α) (p : Nat → Bool) : Tbl α := t.filter (fun e => p e.1)

/-- The list element at `i`, `d` beyond its end. -/
def nth {α : Type} (d : α) (l : List α) (i : Nat) : α := l.getD i d

/-- Replace the element at `i`, growing the list with `d` where it is too short. -/
def setNth {α : Type} (d : α) (l : List α) (i : Nat) (x : α) : List α :=
  if i < l.length then l.set i x else l ++ List.replicate (i - l.length) d ++ [x]

/-- Bits `lo` to `lo + w - 1` of a number. -/
def nbits (v lo w : Nat) : Nat := v / 2 ^ lo % 2 ^ w

/-- One bit of a number. -/
def nbit (v i : Nat) : Bool := v / 2 ^ i % 2 == 1

/-- A number with bits `lo` to `lo + w - 1` replaced. -/
def putBits (v lo w x : Nat) : Nat :=
  v % 2 ^ lo + (x % 2 ^ w) * 2 ^ lo + v / 2 ^ (lo + w) * 2 ^ (lo + w)

/-- A bit as a number. -/
def b2n (b : Bool) : Nat := if b then 1 else 0

/-- A two's-complement value of `w` bits. -/
def sext (w v : Nat) : Int := if v % 2 ^ w < 2 ^ (w - 1) then (v % 2 ^ w : Int) else (v % 2 ^ w : Int) - (2 ^ w : Int)

/-- The `w`-bit two's-complement pattern of an integer. -/
def wrapInt (w : Nat) (x : Int) : Nat := (x % (2 ^ w : Int)).toNat

/-- R7: the value of a little-endian byte string. -/
def leVal : List Byte → Nat
  | [] => 0
  | b :: bs => b.toNat + 256 * leVal bs

/-- R7: `n` bytes of a value, low byte first. -/
def leBytes : Nat → Nat → List Byte
  | 0, _ => []
  | n + 1, v => BitVec.ofNat 8 v :: leBytes n (v / 256)

/-- A big-endian byte string of `n` bytes. -/
def beBytes (n v : Nat) : List Byte := (leBytes n v).reverse

/-- The value of a big-endian byte string. -/
def beVal (l : List Byte) : Nat := leVal l.reverse

/-- `n` bytes of a byte string from `i` on; missing bytes read zero. -/
def slice (l : List Byte) (i n : Nat) : List Byte := (List.range n).map fun k => nth 0 l (i + k)

/-- `n` bytes from `i` on as a little-endian number. -/
def leAt (l : List Byte) (i n : Nat) : Nat := leVal (slice l i n)

/-- Write bytes over a byte string from `i` on. -/
def putBytes (l : List Byte) (i : Nat) : List Byte → List Byte
  | [] => l
  | b :: bs => putBytes (setNth 0 l i b) (i + 1) bs

/-- 32-bit words of a byte string, low byte first. -/
def wordsOf (l : List Byte) (n : Nat) : List Word := (List.range n).map fun k => BitVec.ofNat 32 (leAt l (4 * k) 4)

/-- The bytes of words. -/
def bytesOf (ws : List Word) : List Byte := ws.flatMap fun w => leBytes 4 w.toNat

/-- Word `i` of a descriptor. -/
def dw (d : List Word) (i : Nat) : Nat := (nth 0 d i).toNat

/-- A bit field of word `i` of a descriptor. -/
def df (d : List Word) (i lo w : Nat) : Nat := nbits (dw d i) lo w

/-- Saturating addition below `2 ^ w`. -/
def satAdd (w a b : Nat) : Nat := min (a + b) (2 ^ w - 1)

/-- The first element that satisfies a test, with its place. -/
def findAt {α : Type} (p : α → Bool) : List α → Nat → Option (Nat × α)
  | [], _ => none
  | x :: xs, i => if p x then some (i, x) else findAt p xs (i + 1)

/-- Apply `f` to every key of a list in turn. -/
def forAll {α σ : Type} (l : List α) (s : σ) (f : σ → α → σ) : σ := l.foldl f s

/-- `n` rounded up to a multiple of `m`. -/
def roundUp (n m : Nat) : Nat := (n + m - 1) / m * m

/-- The largest `k` with `2 ^ k ≤ n`, for `n > 0`. -/
def ilog2 (n : Nat) : Nat := Nat.log2 n

/-- Number of ones. -/
def ones (w v : Nat) : Nat := ((List.range w).filter fun i => nbit v i).length

/-- The bit positions that are set. -/
def setBits (w v : Nat) : List Nat := (List.range w).filter fun i => nbit v i

end Sys2Proof.Machine
end

