-- ==== Sys2Proof/Machine/Num.lean ====
section
/-!
DEFINITION. Num.lean: exact values of the number formats of R71 to R76, and the one rounding operation that every unit
uses (R79, R84, R90): a value is an exact quotient times a power of two, rounded once to a place.
-/
namespace Sys2Proof.Machine

/-- An exact value: not a number, an infinity, or (-1)^neg * m * 2^e. -/
inductive Num where
  | nan
  | inf (neg : Bool)
  | fin (neg : Bool) (m : Nat) (e : Int)
  deriving DecidableEq, Repr

/-- +0. -/
def Num.zero : Num := .fin false 0 0

/-- An integer as an exact value. -/
def Num.ofInt (x : Int) : Num := .fin (decide (x < 0)) x.natAbs 0

/-- R84, R90: nearest with ties to even, toward zero, or stochastic with a 16-bit random value. -/
inductive Rnd where
  | near | zero
  | stoch (r : Nat)
  deriving DecidableEq, Repr

/-- The quotient `n / d` rounded to an integer (R84). -/
def roundQ (mode : Rnd) (n d : Nat) : Nat :=
  let q := n / d
  let r := n % d
  match mode with
  | .near => if 2 * r > d ∨ (2 * r = d ∧ q % 2 = 1) then q + 1 else q
  | .zero => q
  | .stoch x => if r * 65536 / d + x ≥ 65536 then q + 1 else q

/-- The exponent of the leading bit of `n / d`, both positive. -/
def leadExp (n d : Nat) : Int :=
  let a : Int := (Nat.log2 n : Int) - (Nat.log2 d : Int)
  if a ≥ 0 then (if n < d * 2 ^ a.toNat then a - 1 else a)
  else (if n * 2 ^ (-a).toNat < d then a - 1 else a)

/-- The value `n / d * 2 ^ e` in units of `2 ^ u`, as a quotient. -/
def scaleTo (n d : Nat) (e u : Int) : Nat × Nat :=
  if e ≥ u then (n * 2 ^ (e - u).toNat, d) else (n, d * 2 ^ (u - e).toNat)

/-- Compare `m * 2 ^ e` with `m' * 2 ^ e'`. -/
def ltPow (m : Nat) (e : Int) (m' : Nat) (e' : Int) : Bool :=
  let b := min e e'
  decide (m * 2 ^ (e - b).toNat < m' * 2 ^ (e' - b).toNat)

/-- R72: how a floating format marks infinities and NaNs. -/
inductive Special where
  | ieee | e4m3 | none
  deriving DecidableEq, Repr

/-- R72: a floating format. -/
structure FFmt where
  ebits : Nat
  mbits : Nat
  bias : Nat
  special : Special
  deriving DecidableEq, Repr

def fp32 : FFmt := ⟨8, 23, 127, .ieee⟩
def bf16 : FFmt := ⟨8, 7, 127, .ieee⟩
def fp16 : FFmt := ⟨5, 10, 15, .ieee⟩
def e4m3 : FFmt := ⟨4, 3, 7, .e4m3⟩
def e5m2 : FFmt := ⟨5, 2, 15, .ieee⟩
def e2m3 : FFmt := ⟨2, 3, 1, .none⟩
def e3m2 : FFmt := ⟨3, 2, 3, .none⟩
def e2m1 : FFmt := ⟨2, 1, 1, .none⟩

/-- Exponent of the smallest subnormal. -/
def FFmt.ulpMin (f : FFmt) : Int := 1 - (f.bias : Int) - (f.mbits : Int)

/-- Largest finite magnitude: significand and exponent. -/
def FFmt.maxFin (f : FFmt) : Nat × Int :=
  let top : Int := (2 ^ f.ebits : Int) - 1 - (f.bias : Int)
  match f.special with
  | .ieee => (2 ^ (f.mbits + 1) - 1, top - 1 - (f.mbits : Int))
  | .e4m3 => (2 ^ (f.mbits + 1) - 2, top - (f.mbits : Int))
  | .none => (2 ^ (f.mbits + 1) - 1, top - (f.mbits : Int))

/-- R74: the canonical NaN; 0 where the format has none. -/
def FFmt.nanCode (f : FFmt) : Nat :=
  match f.special with
  | .ieee => if f = e5m2 then 0x7F else (2 ^ f.ebits - 1) * 2 ^ f.mbits + 2 ^ (f.mbits - 1)
  | .e4m3 => 0x7F
  | .none => 0

/-- The value an element code stands for. -/
def FFmt.decode (f : FFmt) (c : Nat) : Num :=
  let neg := nbit c (f.ebits + f.mbits)
  let e := nbits c f.mbits f.ebits
  let m := nbits c 0 f.mbits
  if f.special = .ieee ∧ e = 2 ^ f.ebits - 1 then (if m = 0 then .inf neg else .nan)
  else if f.special = .e4m3 ∧ e = 15 ∧ m = 7 then .nan
  else if e = 0 then .fin neg m f.ulpMin
  else .fin neg (m + 2 ^ f.mbits) ((e : Int) - (f.bias : Int) - (f.mbits : Int))

/-- The code of the representable magnitude `m * 2 ^ e`. -/
def FFmt.encode (f : FFmt) (neg : Bool) (m : Nat) (e : Int) : Nat :=
  let s := if neg then 2 ^ (f.ebits + f.mbits) else 0
  if m = 0 then s
  else
    let x : Int := leadExp m 1 + e
    if x ≥ 1 - (f.bias : Int) then
      let sig := (scaleTo m 1 e (x - (f.mbits : Int)))
      s + (x + (f.bias : Int)).toNat * 2 ^ f.mbits + (sig.1 / sig.2 - 2 ^ f.mbits)
    else
      let sig := scaleTo m 1 e f.ulpMin
      s + sig.1 / sig.2

/-- The code of ±infinity of an IEEE-like format. -/
def FFmt.infCode (f : FFmt) (neg : Bool) : Nat :=
  (if neg then 2 ^ (f.ebits + f.mbits) else 0) + (2 ^ f.ebits - 1) * 2 ^ f.mbits

/-- The code of the largest finite value. -/
def FFmt.maxCode (f : FFmt) (neg : Bool) : Nat := f.encode neg f.maxFin.1 f.maxFin.2

/-- `n / d * 2 ^ e` rounded once to the precision of a format, subnormals kept (R72): significand, exponent, and
whether the rounding was inexact. -/
def FFmt.round (f : FFmt) (mode : Rnd) (n d : Nat) (e : Int) : Nat × Int × Bool :=
  if n = 0 then (0, f.ulpMin, false)
  else
    let u := max f.ulpMin (leadExp n d + e - (f.mbits : Int))
    let q := scaleTo n d e u
    (roundQ mode q.1 q.2, u, q.1 % q.2 != 0)

/-- The rounded magnitude exceeds the largest finite value (R86). -/
def FFmt.over (f : FFmt) (m : Nat) (e : Int) : Bool := ltPow f.maxFin.1 f.maxFin.2 m e

/-! ### Exact operations -/

/-- Exact negation. -/
def Num.neg : Num → Num
  | .nan => .nan
  | .inf s => .inf (!s)
  | .fin s m e => .fin (!s) m e

/-- Exact product; zero times an infinity is NaN (R80). -/
def Num.mul : Num → Num → Num
  | .nan, _ => .nan
  | _, .nan => .nan
  | .inf s, .inf t => .inf (s != t)
  | .inf s, .fin t m _ => if m = 0 then .nan else .inf (s != t)
  | .fin s m _, .inf t => if m = 0 then .nan else .inf (s != t)
  | .fin s m e, .fin t n g => .fin (s != t) (m * n) (e + g)

/-- Exact sum. Infinities of opposite sign give NaN (R80). A zero sum of opposite signs is +0, and -0 only of two
negative zeros, as IEEE 754 gives for rounding to nearest. -/
def Num.add : Num → Num → Num
  | .nan, _ => .nan
  | _, .nan => .nan
  | .inf s, .inf t => if s = t then .inf s else .nan
  | .inf s, .fin _ _ _ => .inf s
  | .fin _ _ _, .inf t => .inf t
  | .fin s m e, .fin t n g =>
    let b := min e g
    let x : Int := (if s then -1 else 1) * ((m * 2 ^ (e - b).toNat : Nat) : Int)
    let y : Int := (if t then -1 else 1) * ((n * 2 ^ (g - b).toNat : Nat) : Int)
    if x + y = 0 then .fin (s && t) 0 b else .fin (decide (x + y < 0)) (x + y).natAbs b

/-- Multiply by a power of two. -/
def Num.pow2 (x : Num) (k : Int) : Num :=
  match x with
  | .fin s m e => .fin s m (e + k)
  | y => y

/-- Whether the value is a NaN. -/
def Num.isNan : Num → Bool
  | .nan => true
  | _ => false

/-- Whether the value is zero. -/
def Num.isZero : Num → Bool
  | .fin _ m _ => m == 0
  | _ => false

/-- Whether the value is finite. -/
def Num.isFin : Num → Bool
  | .fin _ _ _ => true
  | _ => false

/-- The sign. -/
def Num.sign : Num → Bool
  | .nan => false
  | .inf s => s
  | .fin s _ _ => s

/-- `x < y` for numbers, with -0 less than +0 (R90). -/
def Num.lt : Num → Num → Bool
  | .nan, _ => false
  | _, .nan => false
  | .inf s, .inf t => s && !t
  | .inf s, .fin _ _ _ => s
  | .fin _ _ _, .inf t => !t
  | .fin s m e, .fin t n g =>
    match s, t with
    | true, false => true
    | false, true => false
    | false, false => ltPow m e n g
    | true, true => ltPow n g m e

/-- Magnitude comparison of finite values. -/
def Num.magLt : Num → Num → Bool
  | .fin _ m e, .fin _ n g => ltPow m e n g
  | _, _ => false

/-! ### FP32 results -/

/-- R90, R148: exception flags as bits: 1 invalid, 2 divide by zero, 4 overflow, 8 underflow, 16 inexact. -/
abbrev Flag := Nat

/-- R90: the value `(-1)^neg * n / d * 2 ^ e` as an FP32 result, with its flags. -/
def to32Q (mode : Rnd) (neg : Bool) (n d : Nat) (e : Int) : Num × Flag :=
  if n = 0 then (.fin neg 0 0, 0)
  else
    let r := fp32.round mode n d e
    if fp32.over r.1 r.2.1 then
      ((match mode with
        | .zero => .fin neg fp32.maxFin.1 fp32.maxFin.2
        | _ => .inf neg), 4 + 16)
    else
      let u := leadExp n d + e - 23
      let q := scaleTo n d e u
      let tiny := ltPow (roundQ mode q.1 q.2) u 1 (-126)
      (.fin neg r.1 r.2.1, (if r.2.2 then 16 else 0) + (if r.2.2 && tiny then 8 else 0))

/-- An exact value rounded to FP32. -/
def to32 (mode : Rnd) : Num → Num × Flag
  | .fin s m e => to32Q mode s m 1 e
  | x => (x, 0)

/-- R79, R90: FP32 addition. -/
def add32 (mode : Rnd) (x y : Num) : Num × Flag :=
  let z := x.add y
  if z.isNan ∧ ¬ x.isNan ∧ ¬ y.isNan then (.nan, 1) else to32 mode z

/-- FP32 multiplication. -/
def mul32 (mode : Rnd) (x y : Num) : Num × Flag :=
  let z := x.mul y
  if z.isNan ∧ ¬ x.isNan ∧ ¬ y.isNan then (.nan, 1) else to32 mode z

/-- Fused multiply-add. -/
def fma32 (mode : Rnd) (x y c : Num) : Num × Flag :=
  let p := x.mul y
  let z := p.add c
  if z.isNan ∧ ¬ x.isNan ∧ ¬ y.isNan ∧ ¬ c.isNan then (.nan, 1)
  else if p.isNan ∧ ¬ x.isNan ∧ ¬ y.isNan then (.nan, 1)
  else to32 mode z

/-- FP32 division. -/
def div32 (mode : Rnd) : Num → Num → Num × Flag
  | .nan, _ => (.nan, 0)
  | _, .nan => (.nan, 0)
  | .inf _, .inf _ => (.nan, 1)
  | .inf s, .fin t _ _ => (.inf (s != t), 0)
  | .fin s _ _, .inf t => (.fin (s != t) 0 0, 0)
  | .fin s m e, .fin t n g =>
    if n = 0 then (if m = 0 then (.nan, 1) else (.inf (s != t), 2))
    else to32Q mode (s != t) m n (e - g)

/-- The integer square root, by `k` binary digits from the top. -/
def isqrt (n : Nat) : Nat → Nat
  | 0 => 0
  | k + 1 =>
    let r := 2 * isqrt (n / 4) k
    if (r + 1) * (r + 1) ≤ n then r + 1 else r

/-- FP32 square root: 64 digits below the leading one and a sticky bit settle the rounding. -/
def sqrt32 (mode : Rnd) : Num → Num × Flag
  | .nan => (.nan, 0)
  | .inf s => if s then (.nan, 1) else (.inf false, 0)
  | .fin s m e =>
    if m = 0 then (.fin s 0 0, 0)
    else if s then (.nan, 1)
    else
      let odd := e % 2 != 0
      let m' := (if odd then 2 * m else m) * 2 ^ 128
      let e' := (if odd then e - 1 else e) - 128
      let r := isqrt m' (Nat.log2 m' / 2 + 1)
      to32Q mode false (2 * r + (if r * r = m' then 0 else 1)) 1 (e' / 2 - 1)

/-- R90: minimum and maximum. -/
def min32 (x y : Num) : Num :=
  if x.isNan then y else if y.isNan then x else if y.lt x then y else x

/-- Maximum. -/
def max32 (x y : Num) : Num :=
  if x.isNan then y else if y.isNan then x else if x.lt y then y else x

/-- The FP32 word of an FP32 value. -/
def enc32 : Num → Nat
  | .nan => fp32.nanCode
  | .inf s => fp32.infCode s
  | .fin s m e =>
    let r := fp32.round .near m 1 e
    fp32.encode s r.1 r.2.1

/-- The value of an FP32 word. -/
def dec32 (w : Nat) : Num := fp32.decode w

/-- R90: an FP32 value to INT32, with its flags. -/
def ftoi (rz : Bool) : Num → Int × Flag
  | .nan => (0, 1)
  | .inf s => (if s then -2147483648 else 2147483647, 1)
  | .fin s m e =>
    let q := scaleTo m 1 e 0
    let v := roundQ (if rz then .zero else .near) q.1 q.2
    let x : Int := if s then -(v : Int) else v
    if x < -2147483648 then (-2147483648, 1)
    else if x > 2147483647 then (2147483647, 1)
    else (x, if q.1 % q.2 = 0 then 0 else 16)

/-! ### Format codes (R71) -/

/-- The floating format of the elements of a code; none for the integer codes and for MXINT8. -/
def elemFmt (c : Nat) : Option FFmt :=
  match c with
  | 0x00 => some fp32
  | 0x01 => some bf16
  | 0x02 => some fp16
  | 0x03 => some e4m3
  | 0x04 => some e5m2
  | 0x05 => some e4m3
  | 0x06 => some e5m2
  | 0x07 => some e2m3
  | 0x08 => some e3m2
  | 0x09 => some e2m1
  | 0x0B => some e2m1
  | _ => none

/-- Bits of an element. -/
def elemBits (c : Nat) : Nat :=
  match c with
  | 0x00 => 32
  | 0x01 => 16
  | 0x02 => 16
  | 0x07 => 6
  | 0x08 => 6
  | 0x09 => 4
  | 0x0B => 4
  | 0x0D => 4
  | 0x0E => 32
  | 0x0F => 64
  | _ => 8

/-- The format has block scales. -/
def isBlock (c : Nat) : Bool := decide (0x05 ≤ c ∧ c ≤ 0x0B)

/-- The format is an integer format. -/
def isIntFmt (c : Nat) : Bool := decide (0x0C ≤ c ∧ c ≤ 0x0F)

/-- The value of an element code: R72, R73. -/
def elemVal (c v : Nat) : Num :=
  match elemFmt c with
  | some f => f.decode v
  | none => if c = 0x0A then (Num.ofInt (sext 8 v)).pow2 (-6) else Num.ofInt (sext (elemBits c) v)

/-- R75: an E8M0 exponent; none for NaN. -/
def e8m0 (k : Nat) : Option Int := if k % 256 = 255 then none else some ((k % 256 : Int) - 127)

/-- R76: the fine step of element `j` of a VX4 block word. -/
def fineOf (bw j : Nat) : Nat := nbits bw (if j < 16 then 8 else 12) 4

/-- R75, R76: an element scaled by its block word. -/
def blockVal (c v bw j : Nat) : Num :=
  match e8m0 bw with
  | none => .nan
  | some k =>
    let x := (elemVal c v).pow2 k
    if c = 0x0B then x.mul (.fin false (16 + fineOf bw j) (-4)) else x

end Sys2Proof.Machine
end

