-- ==== Sys2Proof/Machine/Flags.lean ====
section
/-!
DEFINITION. Flags.lean: output conversion with every flag it sets (R83 to R89, R629), the stochastic generator (R85),
and integer wrapping with its flag (R81). `ARR_CVT_STAT` flags are bits: 1 OVF, 2 SATD, 4 NAN_OUT, 8 INT_WRAP,
16 NAN_ACC (R94).
-/
namespace Sys2Proof.Machine

/-! ### The generator (R85) -/

/-- One step: the bit shifted out and the next state. -/
def lfsrStep (s : BitVec 64) : Bool × BitVec 64 :=
  let f := s.getLsbD 63 ^^ s.getLsbD 62 ^^ s.getLsbD 60 ^^ s.getLsbD 59
  (s.getLsbD 63, s <<< 1 ||| (if f then 1 else 0))

/-- `n` steps: the bits shifted out, the first one most significant, and the next state. -/
def lfsrBits : Nat → BitVec 64 → Nat → Nat × BitVec 64
  | 0, s, acc => (acc, s)
  | n + 1, s, acc =>
    let r := lfsrStep s
    lfsrBits n r.2 (2 * acc + (if r.1 then 1 else 0))

/-- The 16-bit random value of the next element. -/
def lfsr16 (s : BitVec 64) : Nat × BitVec 64 := lfsrBits 16 s 0

/-- The random values of `n` elements in order, and the next state. -/
def lfsrMany : Nat → BitVec 64 → List Nat × BitVec 64
  | 0, s => ([], s)
  | n + 1, s =>
    let r := lfsr16 s
    let t := lfsrMany n r.2
    (r.1 :: t.1, t.2)

/-- R93: a loaded value of zero is replaced by 1. -/
def rngSeed (hi lo : Word) : BitVec 64 := if hi ++ lo = 0#64 then 1 else hi ++ lo

/-! ### Element conversion (R84, R86) -/

/-- R82: how a unit rounds and saturates its output. -/
structure OutMode where
  /-- `ROUND` = 1: stochastic -/
  stoch : Bool
  sat : Bool
  deriving DecidableEq, Repr

/-- The rounding mode for an element whose random value is `r`. -/
def OutMode.rnd (o : OutMode) (r : Nat) : Rnd := if o.stoch then .stoch r else .near

/-- R83: an element times `OUT_SCALE`, rounded once to FP32 precision; a product beyond the FP32 range stays finite,
and counts as an overflow. -/
def scaleOut (x k : Num) : Num × Bool :=
  match x.mul k with
  | .fin s m e =>
    let r := fp32.round .near m 1 e
    (.fin s r.1 r.2.1, fp32.over r.1 r.2.1)
  | y => (y, false)

/-- R86, R629: a value to an unscaled floating format. -/
def cvtFloat (f : FFmt) (o : OutMode) (r : Nat) : Num → Nat × Nat
  | .nan => (f.nanCode, 4)
  | .inf s =>
    if o.sat then (f.maxCode s, 2)
    else if f.special = .ieee then (f.infCode s, 0) else (f.nanCode, 4)
  | .fin s m e =>
    let q := f.round (o.rnd r) m 1 e
    if f.over q.1 q.2.1 then
      if o.sat then (f.maxCode s, 1 + 2)
      else if f.special = .ieee then (f.infCode s, 1) else (f.nanCode, 1 + 4)
    else (f.encode s q.1 q.2.1, 0)

/-- R89, R629: a value to a two's-complement format of `w` bits, saturating. -/
def cvtInt (w : Nat) (o : OutMode) (r : Nat) : Num → Nat × Nat
  | .nan => (0, 4)
  | .inf s => (if s then 2 ^ (w - 1) else 2 ^ (w - 1) - 1, 2)
  | .fin s m e =>
    let q := scaleTo m 1 e 0
    let v := roundQ (o.rnd r) q.1 q.2
    if s then (if v > 2 ^ (w - 1) then (2 ^ (w - 1), 1 + 2) else ((2 ^ w - v) % 2 ^ w, 0))
    else if v > 2 ^ (w - 1) - 1 then (2 ^ (w - 1) - 1, 1 + 2) else (v, 0)

/-- R86: a quotient `x / (c * 2 ^ k)` as a block element: overflows are clamped. -/
def cvtElem (f : FFmt) (o : OutMode) (r : Nat) (c : Nat) (k : Int) : Num → Nat × Nat
  | .fin s m e =>
    let q := f.round (o.rnd r) m c (e - k)
    if f.over q.1 q.2.1 then (f.maxCode s, 2) else (f.encode s q.1 q.2.1, 0)
  | _ => (0, 0)

/-! ### Blocks (R87, R88) -/

/-- The largest magnitude of finite values; none if the block holds a NaN or an infinity. -/
def amax (xs : List Num) : Option Num :=
  xs.foldl (fun acc x => match acc with
    | none => none
    | some a => if x.isFin then some (if a.magLt x then x else a) else none) (some Num.zero)

/-- R87: largest exponent of an element format. -/
def emaxOf (c : Nat) : Int :=
  match c with
  | 0x05 => 8
  | 0x06 => 15
  | 0x07 => 2
  | 0x08 => 4
  | 0x09 => 2
  | _ => 0

/-- An integer clamped to the exponents of E8M0. -/
def clampX (x : Int) : Int := max (-127) (min 127 x)

/-- MXINT8 elements: a multiple of 2^-6 clamped to its range (R73). -/
def cvtMxInt (o : OutMode) (r : Nat) (k : Int) : Num → Nat × Nat
  | .fin s m e =>
    let q := scaleTo m 1 (e - k) (-6)
    let v := roundQ (o.rnd r) q.1 q.2
    if s then (if v > 128 then (128, 2) else ((256 - v) % 256, 0)) else if v > 127 then (127, 2) else (v, 0)
  | _ => (0, 0)

/-- R87: one MX block: scale code, element codes and flags. -/
def mxBlock (c : Nat) (o : OutMode) (rs : List Nat) (xs : List Num) : Nat × List Nat × Nat :=
  match amax xs with
  | none => (0xFF, xs.map fun _ => 0, 4)
  | some a =>
    let x : Int := match a with
      | .fin _ m e => if m = 0 then -127 else clampX (leadExp m 1 + e - emaxOf c)
      | _ => -127
    let es := (xs.zip rs).map fun p =>
      match elemFmt c with
      | some f => cvtElem f o p.2 1 x p.1
      | none => cvtMxInt o p.2 x p.1
    ((x + 127).toNat, es.map (·.1), es.foldl (fun g e => Nat.lor g e.2) 0)

/-- R88: the smallest fine step that covers `a` at block exponent `x`; 15 if none does. -/
def fineStep (x : Int) (a : Num) : Nat :=
  ((List.range 16).find? fun f => !(Num.magLt (.fin false (6 * (16 + f)) (x - 4)) a)).getD 15

/-- R88: one VX4 block: the block word's scale fields, element codes and flags. -/
def vxBlock (o : OutMode) (rs : List Nat) (xs : List Num) : Nat × List Nat × Nat :=
  match amax xs with
  | none => (0xFF, xs.map fun _ => 0, 4)
  | some a =>
    match a with
    | .fin _ m e =>
      if m = 0 then (0, xs.map fun _ => 0, 0)
      else
        let x := clampX (leadExp m 6 + e)
        let f0 := fineStep x ((amax (xs.take 16)).getD Num.zero)
        let f1 := fineStep x ((amax (xs.drop 16)).getD Num.zero)
        let es := (xs.zip rs).zipIdx.map fun p =>
          cvtElem e2m1 o p.1.2 (16 + (if p.2 < 16 then f0 else f1)) (x - 4) p.1.1
        ((x + 127).toNat + f0 * 256 + f1 * 4096, es.map (·.1), es.foldl (fun g e => Nat.lor g e.2) 0)
    | _ => (0xFF, xs.map fun _ => 0, 4)

/-- R115, R120, R125: one block of 32 values: its block word with `TAG`, its elements and flags. -/
def cvtBlock (c : Nat) (o : OutMode) (rs : List Nat) (xs : List Num) : Nat × List Nat × Nat :=
  let b := if c = 0x0B then vxBlock o rs xs else mxBlock c o rs xs
  (b.1 + (if elemBits c = 4 then 0 else 65536), b.2)

/-! ### Packing -/

/-- Element codes of `w` bits packed little-endian into bytes. -/
def packBits (w : Nat) (vs : List Nat) : List Byte :=
  leBytes ((vs.length * w + 7) / 8) (vs.foldr (fun v acc => v % 2 ^ w + acc * 2 ^ w) 0)

/-- `n` elements of `w` bits from packed bytes. -/
def unpackBits (w n : Nat) (bs : List Byte) : List Nat :=
  let v := leVal bs
  (List.range n).map fun i => nbits v (i * w) w

/-- R118: the 32 B slot of one block; 4-bit elements use its first 16 B, 6-bit elements its first 24 B. -/
def packSlot (w : Nat) (vs : List Nat) : List Byte := packBits w vs

/-! ### Unscaled conversion by format code -/

/-- One element to the unscaled format `c`: code and flags. -/
def cvtOne (c : Nat) (o : OutMode) (r : Nat) (x : Num) : Nat × Nat :=
  match elemFmt c with
  | some f => cvtFloat f o r x
  | none => cvtInt (elemBits c) o r x

/-- R81: a 32-bit wrapping sum and whether it wrapped. -/
def addWrap (x y : Int) : Int × Bool :=
  let z := sext 32 (wrapInt 32 (x + y))
  (z, z != x + y)

/-! ### One drained row (R82 to R88) -/

/-- What a drained row becomes: element bytes, block words, flags. -/
structure RowOut where
  bytes : List Byte
  words : List Nat
  flags : Nat
  deriving DecidableEq, Repr

/-- R83 to R89: convert the 64 words of an accumulator row. `isInt` tells an integer pass. -/
def cvtRow (c : Nat) (o : OutMode) (scale : Nat) (isInt : Bool) (rs : List Nat) (row : List Word) : RowOut :=
  if c = 0x0E then { bytes := bytesOf row, words := [], flags := 0 }
  else
    let k := dec32 scale
    let vals := row.map fun w =>
      let x := if isInt then (to32 .near (Num.ofInt (sext 32 w.toNat))).1 else dec32 w.toNat
      scaleOut x k
    let ovf := if vals.any (·.2) then 1 else 0
    let xs := vals.map (·.1)
    if isBlock c then
      let b0 := cvtBlock c o (rs.take 32) (xs.take 32)
      let b1 := cvtBlock c o (rs.drop 32) (xs.drop 32)
      { bytes := packSlot (elemBits c) b0.2.1 ++ packSlot (elemBits c) b1.2.1, words := [b0.1, b1.1],
        flags := Nat.lor ovf (Nat.lor b0.2.2 b1.2.2) }
    else
      let es := (xs.zip rs).map fun p => cvtOne c o p.2 p.1
      { bytes := packBits (elemBits c) (es.map (·.1)), words := [],
        flags := Nat.lor ovf (es.foldl (fun g e => Nat.lor g e.2) 0) }

end Sys2Proof.Machine
end

