-- ==== Sys2Proof/Config.lean ====
section
/-!
DEFINITION. Config.lean: the values the spec leaves open after which the package goes on (log 5). Each is an opaque
constant: no proof can see what it is. A value drawn afresh each time is applied to the counter `State.freeCtr`; a
value that the operands fix is applied to them.
-/
namespace Sys2Proof

/-- An open value, by the number of the draw. -/
opaque Config.freeNat : Nat → Nat

/-- R91, R285: the result of a function that the spec bounds but does not state, by function code and operands. -/
opaque Config.openFn : Nat → List Nat → Nat

end Sys2Proof
end

