-- ==== Sys2Proof/Machine/RegMap.lean ====
section
/-!
DEFINITION. RegMap.lean: the register field tables of R615 and of every chapter, one row per field: offset, number of
copies and their stride, lowest bit, width, access code (R10) and reset value; a field whose value is loaded at boot
or read from structured state has reset 0 here.
-/
namespace Sys2Proof.Machine

/-- R10: access codes. -/
inductive Acc where
  | ro | rw | w1c | w1s | rc | wo | rwl
  deriving DecidableEq, Repr

/-- One field of a register, or of `n` like registers `stride` apart. -/
structure RField where
  off : Nat
  n : Nat
  stride : Nat
  lsb : Nat
  w : Nat
  acc : Acc
  rst : Nat
  deriving DecidableEq, Repr

/-- Fields of the header page. -/
def hdrFields : List RField :=
  [
   ⟨0x0, 1, 0, 0, 8, .ro, 0⟩, -- HDR_ID.REV
   ⟨0x0, 1, 0, 8, 12, .ro, 0⟩, -- HDR_ID.INSTANCE
   ⟨0x0, 1, 0, 20, 12, .ro, 0⟩, -- HDR_ID.TYPE
   ⟨0x4, 1, 0, 0, 8, .ro, 0⟩, -- HDR_VER.MINOR
   ⟨0x4, 1, 0, 8, 8, .ro, 1⟩, -- HDR_VER.MAJOR
   ⟨0x8, 1, 0, 0, 4, .ro, 0⟩, -- HDR_CAP.DOMAIN
   ⟨0x8, 1, 0, 4, 1, .ro, 0⟩, -- HDR_CAP.FUNCTION
   ⟨0x8, 1, 0, 5, 1, .ro, 0⟩, -- HDR_CAP.VF_VISIBLE
   ⟨0x8, 1, 0, 6, 3, .ro, 0⟩, -- HDR_CAP.LOCK_SCOPE
   ⟨0x8, 1, 0, 16, 16, .ro, 0⟩, -- HDR_CAP.FEATURES
   ⟨0x10, 1, 0, 0, 4, .ro, 0⟩, -- HDR_STAT.OWNER
   ⟨0x10, 1, 0, 4, 1, .ro, 0⟩, -- HDR_STAT.ASSIGNED
   ⟨0x10, 1, 0, 5, 1, .ro, 0⟩, -- HDR_STAT.IRQ_PEND
   ⟨0x14, 1, 0, 0, 32, .w1c, 0⟩, -- HDR_IRQ_STAT.EVENTS
   ⟨0x18, 1, 0, 0, 32, .rw, 0⟩, -- HDR_IRQ_EN.EN
   ⟨0x1c, 1, 0, 0, 32, .wo, 0⟩, -- HDR_IRQ_FORCE.FORCE
   ⟨0x20, 1, 0, 0, 32, .rc, 0⟩, -- HDR_ERR_CNT.COUNT
   ⟨0x24, 1, 0, 0, 32, .ro, 0⟩, -- HDR_ERR_ADDR_LO.ADDR
   ⟨0x28, 1, 0, 0, 16, .ro, 0⟩, -- HDR_ERR_ADDR_HI.ADDR
   ⟨0x2c, 1, 0, 0, 1, .w1s, 0⟩, -- HDR_LOCK.LOCK
   ⟨0x2c, 1, 0, 1, 1, .ro, 0⟩, -- HDR_LOCK.BY_DEVICE
   ⟨0x2c, 1, 0, 2, 1, .w1c, 0⟩, -- HDR_LOCK.WR_REJ
   ⟨0x30, 1, 0, 0, 32, .rw, 0⟩ -- HDR_SCRATCH.VALUE
  ]

/-- Fields of the array page. -/
def arrFields : List RField :=
  [
   ⟨0x40, 1, 0, 0, 4, .rw, 6⟩, -- ARR_CFG.RAMP_STEP
   ⟨0x40, 1, 0, 4, 1, .rw, 1⟩, -- ARR_CFG.ZERO_ELIDE
   ⟨0x40, 1, 0, 5, 1, .rw, 1⟩, -- ARR_CFG.RAMP_DOWN_EN
   ⟨0x44, 1, 0, 0, 2, .ro, 0⟩, -- ARR_STAT.SHADOW
   ⟨0x44, 1, 0, 2, 1, .ro, 0⟩, -- ARR_STAT.BORE_BUSY
   ⟨0x44, 1, 0, 3, 4, .ro, 0⟩, -- ARR_STAT.GROUPS_ON
   ⟨0x44, 1, 0, 7, 1, .ro, 0⟩, -- ARR_STAT.HALTED
   ⟨0x44, 1, 0, 8, 8, .ro, 0⟩, -- ARR_STAT.INFLIGHT
   ⟨0x44, 1, 0, 16, 1, .w1c, 0⟩, -- ARR_STAT.CFG_REJ
   ⟨0x44, 1, 0, 17, 1, .ro, 0⟩, -- ARR_STAT.NAN_TILE
   ⟨0x48, 1, 0, 0, 32, .rw, 1⟩, -- ARR_RNG_LO.STATE_LO
   ⟨0x4c, 1, 0, 0, 32, .rw, 0⟩, -- ARR_RNG_HI.STATE_HI
   ⟨0x50, 1, 0, 0, 1, .w1c, 0⟩, -- ARR_CVT_STAT.OVF
   ⟨0x50, 1, 0, 1, 1, .w1c, 0⟩, -- ARR_CVT_STAT.SATD
   ⟨0x50, 1, 0, 2, 1, .w1c, 0⟩, -- ARR_CVT_STAT.NAN_OUT
   ⟨0x50, 1, 0, 3, 1, .w1c, 0⟩, -- ARR_CVT_STAT.INT_WRAP
   ⟨0x50, 1, 0, 4, 1, .w1c, 0⟩ -- ARR_CVT_STAT.NAN_ACC
  ]

/-- Fields of the queue page. -/
def pqFields : List RField :=
  [
   ⟨0x40, 1, 0, 0, 2, .wo, 0⟩, -- PQ_PUSH.QUEUE
   ⟨0x44, 1, 0, 0, 2, .wo, 0⟩, -- PQ_CTRL.QUEUE
   ⟨0x44, 1, 0, 2, 2, .wo, 0⟩, -- PQ_CTRL.ACTION
   ⟨0x44, 1, 0, 4, 1, .wo, 0⟩, -- PQ_CTRL.SET_EN
   ⟨0x44, 1, 0, 5, 1, .wo, 0⟩, -- PQ_CTRL.CLR_EN
   ⟨0x48, 4, 4, 0, 6, .ro, 0⟩, -- PQ_STAT0.FREE
   ⟨0x48, 4, 4, 6, 1, .ro, 0⟩, -- PQ_STAT0.HELD
   ⟨0x48, 4, 4, 7, 1, .ro, 1⟩, -- PQ_STAT0.EMPTY
   ⟨0x48, 4, 4, 8, 8, .ro, 0⟩, -- PQ_STAT0.HELD_STATUS
   ⟨0x48, 4, 4, 16, 2, .ro, 0⟩, -- PQ_STAT0.STATE
   ⟨0x58, 1, 0, 0, 16, .rc, 0⟩, -- PQ_CPL_LO.TAG
   ⟨0x58, 1, 0, 16, 2, .rc, 0⟩, -- PQ_CPL_LO.QUEUE
   ⟨0x58, 1, 0, 18, 1, .rc, 0⟩, -- PQ_CPL_LO.REJECTED
   ⟨0x58, 1, 0, 19, 8, .rc, 0⟩, -- PQ_CPL_LO.STATUS
   ⟨0x58, 1, 0, 31, 1, .rc, 0⟩, -- PQ_CPL_LO.VALID
   ⟨0x5c, 1, 0, 0, 32, .ro, 0⟩, -- PQ_CPL_HI.TIME
   ⟨0x60, 1, 0, 0, 7, .ro, 0⟩, -- PQ_CPL_CNT
   ⟨0x64, 1, 0, 0, 16, .wo, 0⟩, -- PQ_TOKEN_TX.TOKEN
   ⟨0x64, 1, 0, 16, 5, .wo, 0⟩, -- PQ_TOKEN_TX.DIE
   ⟨0x64, 1, 0, 21, 5, .wo, 0⟩, -- PQ_TOKEN_TX.PLOT
   ⟨0x6c, 1, 0, 0, 12, .ro, 0⟩, -- PLOT_GOV.PAUSE
   ⟨0x6c, 1, 0, 12, 1, .ro, 0⟩, -- PLOT_GOV.TIMED
   ⟨0x6c, 1, 0, 13, 1, .ro, 0⟩, -- PLOT_GOV.ARR_PERMIT_WAIT
   ⟨0x6c, 1, 0, 14, 1, .ro, 0⟩, -- PLOT_GOV.NOR_PERMIT_WAIT
   ⟨0x6c, 1, 0, 15, 1, .ro, 0⟩, -- PLOT_GOV.HALT
   ⟨0x70, 1, 0, 0, 1, .w1c, 0⟩, -- VEC_FLAGS.INVALID
   ⟨0x70, 1, 0, 1, 1, .w1c, 0⟩, -- VEC_FLAGS.DIVZERO
   ⟨0x70, 1, 0, 2, 1, .w1c, 0⟩, -- VEC_FLAGS.OVERFLOW
   ⟨0x70, 1, 0, 3, 1, .w1c, 0⟩, -- VEC_FLAGS.UNDERFLOW
   ⟨0x70, 1, 0, 4, 1, .w1c, 0⟩, -- VEC_FLAGS.INEXACT
   ⟨0x74, 1, 0, 0, 32, .rw, 1⟩, -- VEC_RNG_LO.STATE_LO
   ⟨0x78, 1, 0, 0, 32, .rw, 0⟩, -- VEC_RNG_HI.STATE_HI
   ⟨0x7c, 1, 0, 0, 24, .rw, 10000⟩, -- STW_WDOG.PERIOD
   ⟨0x7c, 1, 0, 30, 1, .w1s, 0⟩, -- STW_WDOG.FAULT
   ⟨0x7c, 1, 0, 31, 1, .wo, 0⟩, -- STW_WDOG.KICK
   ⟨0x100, 16, 4, 0, 32, .wo, 0⟩, -- PQ_WINDOW
   ⟨0x140, 8, 4, 0, 32, .wo, 0⟩, -- PQ_WINDOW
   ⟨0x180, 16, 4, 0, 32, .wo, 0⟩, -- PQ_WINDOW
   ⟨0x1c0, 16, 4, 0, 32, .wo, 0⟩, -- PQ_WINDOW
   ⟨0x200, 64, 4, 0, 16, .rw, 0⟩ -- PQ_TOKEN_CTRn.VALUE
  ] ++
  [
   ⟨0x200, 64, 4, 16, 1, .w1c, 0⟩, -- PQ_TOKEN_CTRn.OVF
   ⟨0x400, 32, 32, 0, 16, .rw, 0⟩, -- PQ_SLOT.STREAM_ID
   ⟨0x400, 32, 32, 16, 1, .rw, 0⟩, -- PQ_SLOT.VALID
   ⟨0x404, 32, 32, 0, 5, .rw, 0⟩, -- PQ_SLOT.DEST_DIE
   ⟨0x404, 32, 32, 5, 5, .rw, 0⟩, -- PQ_SLOT.DEST_PLOT
   ⟨0x404, 32, 32, 10, 5, .rw, 0⟩, -- PQ_SLOT.DEST_HG
   ⟨0x408, 32, 32, 0, 9, .rw, 0⟩, -- PQ_SLOT.CREDITS
   ⟨0x40c, 32, 32, 0, 9, .ro, 0⟩, -- PQ_SLOT.CREDIT_NOW
   ⟨0x40c, 32, 32, 9, 1, .ro, 0⟩, -- PQ_SLOT.FENCED
   ⟨0x800, 32, 32, 0, 16, .rw, 0⟩, -- PQ_HEADGATE.STREAM_ID
   ⟨0x800, 32, 32, 16, 1, .rw, 0⟩, -- PQ_HEADGATE.VALID
   ⟨0x804, 32, 32, 0, 22, .rw, 0⟩, -- PQ_HEADGATE.RING_BASE
   ⟨0x808, 32, 32, 0, 9, .rw, 0⟩, -- PQ_HEADGATE.DEPTH
   ⟨0x80c, 32, 32, 0, 6, .rw, 0⟩, -- PQ_HEADGATE.ARRIVE_CTR
   ⟨0x80c, 32, 32, 6, 1, .rw, 0⟩, -- PQ_HEADGATE.ARRIVE_EN
   ⟨0x80c, 32, 32, 8, 8, .rw, 0⟩, -- PQ_HEADGATE.ARRIVE_EVERY
   ⟨0x810, 32, 32, 0, 9, .ro, 0⟩, -- PQ_HEADGATE.FILL
   ⟨0x810, 32, 32, 16, 9, .ro, 0⟩ -- PQ_HEADGATE.RD_PTR
  ]

/-- Fields of the plot barge channel page. -/
def brgFields : List RField :=
  [
   ⟨0xc, 1, 0, 0, 1, .rw, 1⟩, -- HDR_CTRL.EN
   ⟨0xc, 1, 0, 1, 2, .ro, 0⟩, -- HDR_CTRL.FSTATE
   ⟨0xc, 1, 0, 3, 1, .w1c, 0⟩, -- HDR_CTRL.ABORTED_SEEN
   ⟨0x40, 1, 0, 0, 1, .wo, 0⟩, -- BRG_CTRL.GO
   ⟨0x40, 1, 0, 1, 1, .wo, 0⟩, -- BRG_CTRL.CLR_GO
   ⟨0x44, 1, 0, 0, 2, .ro, 0⟩, -- BRG_STAT.PHASE
   ⟨0x44, 1, 0, 2, 8, .ro, 0⟩, -- BRG_STAT.GO_PEND
   ⟨0x44, 1, 0, 10, 1, .w1c, 0⟩, -- BRG_STAT.GO_OVF
   ⟨0x44, 1, 0, 11, 1, .w1c, 0⟩, -- BRG_STAT.POISON_SEEN
   ⟨0x48, 1, 0, 0, 16, .ro, 0⟩, -- BRG_POS_LO.I0
   ⟨0x48, 1, 0, 16, 16, .ro, 0⟩, -- BRG_POS_LO.I1
   ⟨0x4c, 1, 0, 0, 16, .ro, 0⟩, -- BRG_POS_HI.I2
   ⟨0x50, 1, 0, 0, 16, .rc, 0⟩, -- BRG_OVERRUN.LATE
   ⟨0x50, 1, 0, 16, 16, .rc, 0⟩, -- BRG_OVERRUN.DROPPED
   ⟨0x54, 1, 0, 0, 16, .rw, 100⟩ -- BRG_DRAIN_LIMIT.LIMIT
  ]

/-- Fields of the counter page. -/
def cntFields : List RField :=
  [
   ⟨0x40, 1, 0, 0, 1, .wo, 0⟩, -- CNT_CTRL.SAMPLE
   ⟨0x44, 1, 0, 0, 16, .ro, 0⟩, -- CNT_STAT.SEQ
   ⟨0x44, 1, 0, 16, 1, .ro, 0⟩, -- CNT_STAT.BOUNDARY
   ⟨0x44, 1, 0, 17, 1, .w1c, 0⟩, -- CNT_STAT.SAT
   ⟨0x48, 1, 0, 0, 16, .ro, 0⟩, -- CNT_TAG.HELD_TAG
   ⟨0x48, 1, 0, 16, 16, .ro, 0⟩, -- CNT_TAG.LIVE_TAG
   ⟨0x4c, 2, 4, 0, 32, .ro, 0⟩, -- CNT_TIME_LO, _HI.TIME
   ⟨0x100, 240, 16, 0, 32, .ro, 0⟩, -- CNT_HELD_LO_i.VALUE
   ⟨0x104, 240, 16, 0, 32, .ro, 0⟩, -- CNT_HELD_HI_i.VALUE
   ⟨0x108, 240, 16, 0, 32, .ro, 0⟩, -- CNT_LIVE_LO_i.VALUE
   ⟨0x10c, 240, 16, 0, 32, .ro, 0⟩ -- CNT_LIVE_HI_i.VALUE
  ]

/-- Fields of the slice controller page. -/
def slcFields : List RField :=
  [
   ⟨0x40, 1, 0, 0, 4, .ro, 0⟩, -- CISTERN_SPLIT.SHARE
   ⟨0x40, 1, 0, 4, 4, .ro, 0⟩, -- CISTERN_SPLIT.HASHED
   ⟨0x44, 1, 0, 0, 1, .ro, 0⟩, -- CISTERN_STAT.FILL_BUSY
   ⟨0x44, 1, 0, 1, 1, .ro, 0⟩, -- CISTERN_STAT.WR_HELD
   ⟨0x44, 1, 0, 2, 7, .ro, 0⟩, -- CISTERN_STAT.HELD_REQ
   ⟨0x48, 1, 0, 0, 8, .ro, 0⟩, -- CISTERN_FILL_STAT.SET
   ⟨0x48, 1, 0, 8, 8, .ro, 0⟩, -- CISTERN_FILL_STAT.DONE
   ⟨0x4c, 1, 0, 0, 1, .w1c, 0⟩, -- CISTERN_WEIR_STAT.POISON_HIT
   ⟨0x4c, 1, 0, 1, 1, .w1c, 0⟩, -- CISTERN_WEIR_STAT.NAN_OUT
   ⟨0x4c, 1, 0, 2, 1, .w1c, 0⟩, -- CISTERN_WEIR_STAT.OVF
   ⟨0x4c, 1, 0, 3, 1, .w1c, 0⟩, -- CISTERN_WEIR_STAT.INT_WRAP
   ⟨0x50, 1, 0, 0, 8, .rw, 24⟩, -- CISTERN_SCRUB_CFG.PERIOD
   ⟨0x54, 1, 0, 0, 23, .ro, 0⟩, -- CISTERN_SCRUB_STAT.POS
   ⟨0x54, 1, 0, 23, 1, .ro, 0⟩, -- CISTERN_SCRUB_STAT.BEHIND
   ⟨0x58, 1, 0, 0, 1, .rw, 0⟩, -- CISTERN_FLIP_CFG.ARM
   ⟨0x58, 1, 0, 1, 2, .rw, 0⟩, -- CISTERN_FLIP_CFG.SOURCE
   ⟨0x58, 1, 0, 3, 4, .rw, 0⟩, -- CISTERN_FLIP_CFG.USE
   ⟨0x5c, 2, 4, 0, 6, .rw, 0⟩, -- CISTERN_FLIP_BYTES.POS0
   ⟨0x5c, 2, 4, 8, 8, .rw, 0⟩, -- CISTERN_FLIP_BYTES.MASK0
   ⟨0x5c, 2, 4, 16, 6, .rw, 0⟩, -- CISTERN_FLIP_BYTES.POS1
   ⟨0x5c, 2, 4, 24, 8, .rw, 0⟩, -- CISTERN_FLIP_BYTES.MASK1
   ⟨0x64, 1, 0, 0, 31, .ro, 0⟩, -- CISTERN_FLIP_HIT_LO.OFFSET
   ⟨0x64, 1, 0, 31, 1, .w1c, 0⟩, -- CISTERN_FLIP_HIT_LO.HIT
   ⟨0x68, 1, 0, 0, 5, .rw, 0⟩, -- CISTERN_PPR_CTRL.BANK
   ⟨0x68, 1, 0, 5, 15, .rw, 0⟩, -- CISTERN_PPR_CTRL.ROW
   ⟨0x68, 1, 0, 31, 1, .wo, 0⟩, -- CISTERN_PPR_CTRL.GO
   ⟨0x6c, 1, 0, 0, 2, .ro, 0⟩, -- CISTERN_PPR_STAT.STATE
   ⟨0x6c, 1, 0, 2, 4, .ro, 0⟩, -- CISTERN_PPR_STAT.CODE
   ⟨0x6c, 1, 0, 6, 7, .ro, 0⟩ -- CISTERN_PPR_STAT.SPARES
  ]

/-- Fields of the noria page. -/
def norFields : List RField :=
  [
   ⟨0x40, 1, 0, 0, 5, .ro, 0⟩, -- NORIA_STAT.QUEUED
   ⟨0x44, 1, 0, 0, 32, .ro, 0⟩, -- NORIA_BANK_BUSY.BUSY
   ⟨0x48, 1, 0, 0, 32, .ro, 0⟩, -- NORIA_BANK_FAILED.FAILED
   ⟨0x4c, 1, 0, 0, 16, .rwl, 60⟩, -- NORIA_XCHK_CFG.PERIOD
   ⟨0x50, 1, 0, 0, 5, .wo, 0⟩, -- NORIA_XCHK_CTRL.BANK
   ⟨0x50, 1, 0, 5, 1, .wo, 0⟩, -- NORIA_XCHK_CTRL.ALL
   ⟨0x50, 1, 0, 31, 1, .wo, 0⟩, -- NORIA_XCHK_CTRL.GO
   ⟨0x54, 1, 0, 0, 2, .ro, 0⟩, -- NORIA_XCHK_STAT.STATE
   ⟨0x54, 1, 0, 8, 8, .rc, 0⟩, -- NORIA_XCHK_STAT.PASSES
   ⟨0x54, 1, 0, 16, 8, .rc, 0⟩, -- NORIA_XCHK_STAT.FAILS
   ⟨0x80, 32, 8, 0, 26, .ro, 0⟩, -- NORIA_RANGE_LO_b.LOW
   ⟨0x80, 32, 8, 31, 1, .ro, 0⟩, -- NORIA_RANGE_LO_b.VALID
   ⟨0x84, 32, 8, 0, 26, .ro, 0⟩, -- NORIA_RANGE_HI_b.HIGH
   ⟨0x180, 32, 4, 0, 16, .ro, 0⟩ -- NORIA_RANGE_TAG_b.TAG
  ]

/-- Fields of the reach hub page. -/
def rhFields : List RField :=
  [
   ⟨0x40, 1, 0, 0, 8, .w1s, 0⟩, -- RH_FENCE.FENCED
   ⟨0x40, 1, 0, 8, 8, .ro, 0⟩, -- RH_FENCE.BY_FAULT
   ⟨0x44, 1, 0, 0, 8, .wo, 0⟩, -- RH_PLOT_CTRL.RESET
   ⟨0x44, 1, 0, 8, 1, .wo, 0⟩, -- RH_PLOT_CTRL.ZERO_FILL
   ⟨0x44, 1, 0, 9, 1, .wo, 0⟩, -- RH_PLOT_CTRL.RETEST
   ⟨0x44, 1, 0, 10, 1, .wo, 0⟩, -- RH_PLOT_CTRL.REACH_RESET
   ⟨0x48, 1, 0, 0, 8, .ro, 0⟩, -- RH_RESET_STAT.BUSY
   ⟨0x48, 1, 0, 8, 8, .w1c, 0⟩, -- RH_RESET_STAT.ABSORBED
   ⟨0x4c, 1, 0, 0, 16, .rw, 20⟩, -- RH_DRAIN.RESET_LIMIT
   ⟨0x4c, 1, 0, 16, 16, .rw, 100⟩, -- RH_DRAIN.QUEUE_LIMIT
   ⟨0x80, 8, 16, 0, 32, .ro, 0⟩, -- RH_ERR_LO_p.INFO
   ⟨0x84, 8, 16, 0, 16, .ro, 0⟩, -- RH_ERR_HI_p.ADDR_HI
   ⟨0x84, 8, 16, 16, 8, .ro, 0⟩, -- RH_ERR_HI_p.CODE
   ⟨0x84, 8, 16, 31, 1, .w1c, 0⟩, -- RH_ERR_HI_p.VALID
   ⟨0x88, 8, 16, 0, 16, .rc, 0⟩ -- RH_ERR_CNT_p.COUNT
  ]

/-- Fields of the stack die fabric page. -/
def dfFields : List RField :=
  [
   ⟨0x40, 8, 4, 0, 6, .ro, 0⟩, -- DF_SITE_MAP.SITE0
   ⟨0x40, 8, 4, 8, 6, .ro, 0⟩, -- DF_SITE_MAP.SITE1
   ⟨0x40, 8, 4, 16, 6, .ro, 0⟩, -- DF_SITE_MAP.SITE2
   ⟨0x40, 8, 4, 24, 6, .ro, 0⟩, -- DF_SITE_MAP.SITE3
   ⟨0x60, 1, 0, 0, 1, .ro, 0⟩, -- DF_ROUTE.PREV_UP
   ⟨0x60, 1, 0, 1, 1, .ro, 0⟩, -- DF_ROUTE.NEXT_UP
   ⟨0x60, 1, 0, 2, 1, .rw, 1⟩, -- DF_ROUTE.PREV_EN
   ⟨0x60, 1, 0, 3, 1, .rw, 1⟩, -- DF_ROUTE.NEXT_EN
   ⟨0x64, 1, 0, 0, 16, .rw, 10⟩, -- DF_REPLAY_CFG.RATE
   ⟨0x64, 1, 0, 16, 8, .rw, 10⟩, -- DF_REPLAY_CFG.WINDOW
   ⟨0x68, 1, 0, 0, 16, .rw, 100⟩, -- DF_D2D_DRAIN_LIMIT.LIMIT
   ⟨0x80, 8, 8, 0, 2, .ro, 0⟩, -- DF_LINK_STATm.STATE
   ⟨0x80, 8, 8, 2, 3, .ro, 0⟩, -- DF_LINK_STATm.SPARED
   ⟨0x80, 8, 8, 5, 1, .w1c, 0⟩, -- DF_LINK_STATm.LASTING
   ⟨0x80, 8, 8, 16, 16, .rc, 0⟩, -- DF_LINK_STATm.REPLAYS
   ⟨0x84, 8, 8, 0, 1, .wo, 0⟩, -- DF_LINK_CTRLm.RETRAIN
   ⟨0x84, 8, 8, 1, 1, .rw, 0⟩ -- DF_LINK_CTRLm.DISABLE
  ]

/-- Fields of the stack memory page. -/
def smFields : List RField :=
  [
   ⟨0x40, 1, 0, 0, 3, .ro, 1⟩, -- CISTERN_BAND.BAND
   ⟨0x40, 1, 0, 3, 1, .ro, 0⟩, -- CISTERN_BAND.WR_HELD
   ⟨0x40, 1, 0, 8, 8, .ro, 0⟩, -- CISTERN_BAND.TEMP
   ⟨0x40, 1, 0, 16, 3, .rc, 0⟩, -- CISTERN_BAND.BAND_MAX
   ⟨0x40, 1, 0, 19, 1, .w1c, 0⟩, -- CISTERN_BAND.CHANGED
   ⟨0x100, 1, 0, 0, 8, .rw, 3⟩, -- ECC_CFG.THRESH
   ⟨0x100, 1, 0, 8, 8, .rw, 24⟩, -- ECC_CFG.WINDOW
   ⟨0x104, 1, 0, 0, 32, .ro, 0⟩, -- ECC_TIME_NOW.MS
   ⟨0x108, 1, 0, 0, 16, .rc, 0⟩, -- ECC_LOG_OVF.CE
   ⟨0x108, 1, 0, 16, 16, .rc, 0⟩, -- ECC_LOG_OVF.UE
   ⟨0x10c, 1, 0, 0, 16, .ro, 0⟩, -- ECC_TIME_WRAP.WRAPS
   ⟨0x400, 16, 32, 0, 26, .ro, 0⟩, -- ECC_UE_LOG.WORD
   ⟨0x400, 16, 32, 26, 5, .ro, 0⟩, -- ECC_UE_LOG.PLOT
   ⟨0x400, 16, 32, 31, 1, .w1c, 0⟩, -- ECC_UE_LOG.VALID
   ⟨0x404, 16, 32, 0, 32, .ro, 0⟩, -- ECC_UE_LOG.SYNDROME
   ⟨0x408, 16, 32, 0, 16, .ro, 0⟩, -- ECC_UE_LOG.COUNT
   ⟨0x408, 16, 32, 16, 6, .ro, 0⟩, -- ECC_UE_LOG.POS
   ⟨0x408, 16, 32, 22, 8, .ro, 0⟩, -- ECC_UE_LOG.WIN_COUNT
   ⟨0x408, 16, 32, 30, 1, .ro, 0⟩, -- ECC_UE_LOG.LASTING
   ⟨0x408, 16, 32, 31, 1, .ro, 0⟩, -- ECC_UE_LOG.NORIA_SUSPECT
   ⟨0x40c, 16, 32, 0, 32, .ro, 0⟩, -- ECC_UE_LOG.FIRST_TIME
   ⟨0x410, 16, 32, 0, 32, .ro, 0⟩, -- ECC_UE_LOG.LAST_TIME
   ⟨0x414, 16, 32, 0, 32, .ro, 0⟩, -- ECC_UE_LOG.WIN_START
   ⟨0x418, 16, 32, 0, 3, .ro, 0⟩, -- FOUND_BY
   ⟨0x418, 16, 32, 3, 1, .ro, 0⟩, -- WIN_ACTIVE
   ⟨0x800, 64, 32, 0, 26, .ro, 0⟩, -- ECC_CE_LOG.WORD
   ⟨0x800, 64, 32, 26, 5, .ro, 0⟩, -- ECC_CE_LOG.PLOT
   ⟨0x800, 64, 32, 31, 1, .w1c, 0⟩, -- ECC_CE_LOG.VALID
   ⟨0x804, 64, 32, 0, 32, .ro, 0⟩, -- ECC_CE_LOG.SYNDROME
   ⟨0x808, 64, 32, 0, 16, .ro, 0⟩, -- ECC_CE_LOG.COUNT
   ⟨0x808, 64, 32, 16, 6, .ro, 0⟩, -- ECC_CE_LOG.POS
   ⟨0x808, 64, 32, 22, 8, .ro, 0⟩, -- ECC_CE_LOG.WIN_COUNT
   ⟨0x808, 64, 32, 30, 1, .ro, 0⟩, -- ECC_CE_LOG.LASTING
   ⟨0x808, 64, 32, 31, 1, .ro, 0⟩, -- ECC_CE_LOG.NORIA_SUSPECT
   ⟨0x80c, 64, 32, 0, 32, .ro, 0⟩, -- ECC_CE_LOG.FIRST_TIME
   ⟨0x810, 64, 32, 0, 32, .ro, 0⟩, -- ECC_CE_LOG.LAST_TIME
   ⟨0x814, 64, 32, 0, 32, .ro, 0⟩, -- ECC_CE_LOG.WIN_START
   ⟨0x818, 64, 32, 0, 3, .ro, 0⟩, -- FOUND_BY
   ⟨0x818, 64, 32, 3, 1, .ro, 0⟩ -- WIN_ACTIVE
  ]

/-- Fields of the governor page. -/
def govFields : List RField :=
  [
   ⟨0x40, 1, 0, 0, 8, .rw, 100⟩, -- GOV_CAP.CAP_PCT
   ⟨0x40, 1, 0, 8, 8, .ro, 100⟩, -- GOV_CAP.EFFECTIVE_PCT
   ⟨0x44, 1, 0, 0, 2, .rw, 0⟩, -- GOV_CFG.SHARE
   ⟨0x44, 1, 0, 2, 3, .rw, 0⟩, -- GOV_CFG.PSTATE_MAX
   ⟨0x44, 1, 0, 5, 1, .rw, 1⟩, -- GOV_CFG.DVFS_AUTO
   ⟨0x48, 1, 0, 0, 4, .ro, 0⟩, -- GOV_STAT.LEVEL
   ⟨0x48, 1, 0, 4, 3, .ro, 0⟩, -- GOV_STAT.PSTATE
   ⟨0x48, 1, 0, 7, 1, .ro, 0⟩, -- GOV_STAT.TIMED
   ⟨0x48, 1, 0, 8, 1, .ro, 0⟩, -- GOV_STAT.HALT
   ⟨0x48, 1, 0, 9, 2, .ro, 0⟩, -- GOV_STAT.COOL_STATE
   ⟨0x48, 1, 0, 16, 8, .ro, 0⟩, -- GOV_STAT.POWER_W
   ⟨0x4c, 1, 0, 0, 4, .rw, 4⟩, -- GOV_STAGGER.SPACING
   ⟨0x50, 1, 0, 0, 4, .rw, 6⟩, -- THM_CFG.HOTSPOT_OFFSET
   ⟨0x54, 1, 0, 0, 1, .ro, 0⟩, -- THM_PAIR.DISAGREE
   ⟨0x54, 1, 0, 1, 1, .w1c, 0⟩, -- THM_PAIR.DISAGREE_SEEN
   ⟨0x58, 1, 0, 0, 16, .ro, 0⟩, -- THM_RTH.EST
   ⟨0x58, 1, 0, 16, 16, .ro, 0⟩, -- THM_RTH.BASE
   ⟨0x80, 13, 4, 0, 16, .ro, 0⟩, -- THM_SENSi.TEMP
   ⟨0x80, 13, 4, 16, 1, .ro, 0⟩, -- THM_SENSi.VALID
   ⟨0x80, 13, 4, 17, 2, .ro, 0⟩, -- THM_SENSi.CAUSE
   ⟨0x80, 13, 4, 19, 1, .ro, 0⟩, -- THM_SENSi.CAL_FAIL
   ⟨0x80, 13, 4, 20, 1, .ro, 0⟩ -- THM_SENSi.CALIBRATING
  ]

/-- Fields of the core complex page. -/
def ccFields : List RField :=
  [
   ⟨0x40, 1, 0, 0, 8, .w1s, 0⟩, -- CORE_CTRL.RELEASE
   ⟨0x40, 1, 0, 8, 8, .ro, 0⟩, -- CORE_CTRL.STARTED
   ⟨0x48, 1, 0, 2, 30, .rw, 0⟩, -- CORE_ENTRY_LO.ADDR
   ⟨0x4c, 1, 0, 0, 16, .rw, 0⟩, -- CORE_ENTRY_HI.ADDR
   ⟨0x50, 1, 0, 0, 32, .rw, 0⟩, -- CORE_ARG_LO.ARG
   ⟨0x54, 1, 0, 0, 32, .rw, 0⟩, -- CORE_ARG_HI.ARG
   ⟨0x58, 1, 0, 0, 26, .wo, 0⟩, -- CORE_TOKEN_TX.as PQ_TOKEN_TX
   ⟨0x5c, 1, 0, 0, 3, .rw, 0⟩, -- CORE_IRQ_ROUTE.CORE
   ⟨0x5c, 1, 0, 3, 8, .rw, 0⟩, -- CORE_IRQ_ROUTE.IDENTITY
   ⟨0x5c, 1, 0, 11, 1, .rw, 0⟩ -- CORE_IRQ_ROUTE.EN
  ]

/-- Fields of the identification page. -/
def identFields : List RField :=
  [
   ⟨0x40, 1, 0, 0, 4, .ro, 0⟩, -- ID_TYPE.TYPE
   ⟨0x44, 1, 0, 0, 8, .ro, 0⟩, -- ID_REV.REV
   ⟨0x48, 2, 4, 0, 32, .ro, 0⟩, -- ID_SERIAL_LO, _HI.SERIAL
   ⟨0x50, 2, 4, 0, 32, .ro, 0⟩ -- ID_FEATURE_LO, _HI.MASK
  ]

/-- Fields of the package page. -/
def pkgFields : List RField :=
  [
   ⟨0x40, 1, 0, 0, 5, .ro, 0⟩, -- PKG_IDENT.STACKS
   ⟨0x40, 1, 0, 5, 1, .ro, 0⟩, -- PKG_IDENT.GRADE
   ⟨0x40, 1, 0, 16, 16, .ro, 0⟩, -- PKG_IDENT.STACK_EN
   ⟨0x44, 1, 0, 0, 2, .ro, 0⟩, -- PKG_PINS.BOOT_MODE
   ⟨0x44, 1, 0, 2, 1, .ro, 0⟩, -- PKG_PINS.ALERT_ASSERTED
   ⟨0x44, 1, 0, 3, 1, .ro, 0⟩, -- PKG_PINS.FLOW_ACTIVE
   ⟨0x44, 1, 0, 4, 1, .ro, 0⟩, -- PKG_PINS.XNG_CLK_OK
   ⟨0x44, 1, 0, 5, 1, .w1c, 0⟩, -- PKG_PINS.PMB_FAULT
   ⟨0x48, 1, 0, 0, 32, .ro, 0⟩, -- PKG_FEATURE_LO.MASK
   ⟨0x4c, 1, 0, 0, 32, .ro, 0⟩, -- PKG_FEATURE_HI.MASK
   ⟨0x50, 1, 0, 0, 32, .ro, 0⟩, -- PKG_REGERR_LO.ADDR
   ⟨0x54, 1, 0, 0, 16, .ro, 0⟩, -- PKG_REGERR_HI.ADDR
   ⟨0x54, 1, 0, 16, 4, .ro, 0⟩, -- PKG_REGERR_HI.CAUSE
   ⟨0x54, 1, 0, 20, 5, .ro, 0⟩, -- PKG_REGERR_HI.SOURCE
   ⟨0x54, 1, 0, 31, 1, .w1c, 0⟩ -- PKG_REGERR_HI.VALID
  ]

/-- Fields of the boot page. -/
def bootFields : List RField :=
  [
   ⟨0x40, 1, 0, 0, 5, .ro, 0⟩, -- BOOT_STAT.STAGE
   ⟨0x40, 1, 0, 5, 2, .ro, 0⟩, -- BOOT_STAT.STATE
   ⟨0x40, 1, 0, 7, 1, .ro, 0⟩, -- BOOT_STAT.SLOT
   ⟨0x40, 1, 0, 8, 1, .ro, 0⟩, -- BOOT_STAT.WARM
   ⟨0x40, 1, 0, 9, 1, .ro, 0⟩, -- BOOT_STAT.SPI_SINGLE
   ⟨0x40, 1, 0, 10, 2, .ro, 0⟩, -- BOOT_STAT.ATTEMPTS
   ⟨0x40, 1, 0, 12, 8, .ro, 0⟩, -- BOOT_STAT.REASON
   ⟨0x40, 1, 0, 20, 5, .ro, 0⟩, -- BOOT_STAT.FAIL_STAGE
   ⟨0x44, 1, 0, 0, 1, .wo, 0⟩, -- BOOT_CTRL.COLD_RESET
   ⟨0x44, 1, 0, 1, 1, .wo, 0⟩, -- BOOT_CTRL.WARM_RESET
   ⟨0x44, 1, 0, 2, 1, .wo, 0⟩, -- BOOT_CTRL.CLR_ATTEMPTS
   ⟨0x44, 1, 0, 3, 2, .wo, 0⟩, -- BOOT_CTRL.NEXT_SLOT
   ⟨0x48, 1, 0, 0, 32, .ro, 0⟩, -- BOOT_TIME.MS
   ⟨0x4c, 1, 0, 0, 16, .ro, 0⟩, -- BOOT_STACK_HOLD.STACKS
   ⟨0x4c, 1, 0, 16, 16, .ro, 0⟩, -- BOOT_STACK_HOLD.CORES
   ⟨0x50, 2, 4, 0, 32, .ro, 0⟩, -- BOOT_STACK_CAUSE0, 1.CAUSE
   ⟨0x80, 16, 4, 0, 32, .ro, 0⟩, -- BOOT_PLOT_HOLD_s.PLOTS
   ⟨0xc0, 1, 0, 0, 8, .rw, 10⟩, -- FLOOD_CFG.GAP
   ⟨0xc4, 1, 0, 0, 10, .ro, 0⟩, -- FLOOD_STAT.BLOCKS
   ⟨0xc4, 1, 0, 10, 2, .ro, 0⟩, -- FLOOD_STAT.ROUNDS
   ⟨0xc4, 1, 0, 12, 10, .ro, 0⟩, -- FLOOD_STAT.REPAIRS
   ⟨0x100, 1, 0, 0, 26, .rw, 0⟩, -- SSTORE_ADDR.ADDR
   ⟨0x104, 1, 0, 0, 2, .wo, 0⟩, -- SSTORE_CMD.CMD
   ⟨0x108, 1, 0, 0, 2, .ro, 0⟩, -- SSTORE_STAT.STATE
   ⟨0x108, 1, 0, 2, 1, .w1c, 0⟩, -- SSTORE_STAT.PROTECTED
   ⟨0x200, 64, 4, 0, 32, .rw, 0⟩ -- SSTORE_WINDOW
  ]

/-- Fields of the fault page. -/
def fltFields : List RField :=
  [
   ⟨0x40, 1, 0, 0, 16, .ro, 0⟩, -- FLT_STAT.STACK_LOST
   ⟨0x44, 1, 0, 0, 5, .ro, 0⟩, -- FLT_PROP_CNT.HELD
   ⟨0x44, 1, 0, 16, 16, .rc, 0⟩, -- FLT_PROP_CNT.OVF
   ⟨0x48, 1, 0, 0, 32, .rc, 0⟩, -- FLT_PROP_W0.ENTRY
   ⟨0x4c, 3, 4, 0, 32, .ro, 0⟩, -- FLT_PROP_W1-3.ENTRY
   ⟨0x58, 1, 0, 0, 16, .rw, 1000⟩, -- FLT_PKG_DRAIN.LIMIT
   ⟨0x5c, 1, 0, 0, 6, .ro, 0⟩, -- FLT_TEST_STAT.QUEUED
   ⟨0x5c, 1, 0, 6, 5, .ro, 0⟩, -- FLT_TEST_STAT.RUNNING
   ⟨0x80, 16, 4, 0, 32, .ro, 0⟩, -- FLT_PLOT_FAILED_s.FAILED
   ⟨0x100, 64, 4, 0, 32, .ro, 0⟩ -- FLT_PLOT_CAUSE_s_k.CAUSE
  ]

/-- Fields of the I/O die thermal page. -/
def thmFields : List RField :=
  [
   ⟨0x40, 1, 0, 0, 12, .w1c, 0⟩, -- THM_ALERT.CAUSE
   ⟨0x44, 1, 0, 0, 16, .ro, 0⟩, -- THM_INLET.TEMP
   ⟨0x44, 1, 0, 16, 1, .ro, 0⟩, -- THM_INLET.VALID
   ⟨0x48, 1, 0, 0, 16, .ro, 0⟩, -- THM_OUTLET.TEMP
   ⟨0x48, 1, 0, 16, 1, .ro, 0⟩, -- THM_OUTLET.VALID
   ⟨0x4c, 1, 0, 0, 16, .ro, 0⟩, -- THM_FLOW.ML_MIN
   ⟨0x50, 1, 0, 0, 8, .rw, 15⟩, -- THM_COOL_CFG.DERATE_PCT
   ⟨0x50, 1, 0, 8, 8, .rw, 40⟩, -- THM_COOL_CFG.DEGRADE_PCT
   ⟨0x54, 1, 0, 0, 1, .wo, 0⟩, -- GOV_CTRL.RESUME
   ⟨0x58, 1, 0, 0, 1, .w1c, 0⟩, -- GOV_CTRL_STAT.RESUME_REJ
   ⟨0x80, 8, 4, 0, 16, .ro, 0⟩, -- THM_IOD_SENSi.TEMP
   ⟨0x80, 8, 4, 16, 1, .ro, 0⟩, -- THM_IOD_SENSi.VALID
   ⟨0xa0, 9, 4, 0, 16, .ro, 0⟩, -- THM_FERRY_s.TEMP
   ⟨0xa0, 9, 4, 16, 1, .ro, 0⟩ -- THM_FERRY_s.VALID
  ]

/-- Fields of the security page. -/
def secFields : List RField :=
  [
   ⟨0x40, 1, 0, 0, 4, .ro, 0⟩, -- SEC_STAT.KEYS_PROGRAMMED
   ⟨0x40, 1, 0, 4, 4, .ro, 0⟩, -- SEC_STAT.KEYS_REVOKED
   ⟨0x40, 1, 0, 8, 2, .ro, 0⟩, -- SEC_STAT.BOOT_KEY
   ⟨0x40, 1, 0, 16, 1, .ro, 0⟩, -- SEC_STAT.DEBUG_UNLOCKED
   ⟨0x40, 1, 0, 17, 1, .ro, 0⟩, -- SEC_STAT.KEYS_LOCKED
   ⟨0x40, 1, 0, 18, 1, .ro, 0⟩, -- SEC_STAT.RNG_FAIL
   ⟨0x44, 1, 0, 0, 7, .ro, 0⟩, -- SEC_SVN.FUSED
   ⟨0x44, 1, 0, 16, 7, .ro, 0⟩, -- SEC_SVN.RUNNING
   ⟨0x48, 1, 0, 0, 1, .wo, 0⟩, -- SEC_CTRL.SVN_COMMIT
   ⟨0x48, 1, 0, 1, 1, .wo, 0⟩, -- SEC_CTRL.REVOKE_SUBMIT
   ⟨0x4c, 1, 0, 0, 32, .rw, 0⟩, -- SEC_REQ_ADDR_LO.ADDR
   ⟨0x50, 1, 0, 0, 16, .rw, 0⟩, -- SEC_REQ_ADDR_HI.ADDR
   ⟨0x54, 1, 0, 0, 2, .ro, 0⟩, -- SEC_REQ_STAT.STATE
   ⟨0x54, 1, 0, 4, 4, .ro, 0⟩, -- SEC_REQ_STAT.CODE
   ⟨0x60, 8, 4, 0, 32, .ro, 0⟩, -- SEC_DBG_NONCE0–7.NONCE
   ⟨0x80, 1, 0, 0, 2, .ro, 0⟩, -- SEC_DBG_STAT.LEVEL
   ⟨0x80, 1, 0, 2, 1, .w1c, 0⟩, -- SEC_DBG_STAT.TOKEN_REJ
   ⟨0xa0, 8, 4, 0, 32, .ro, 0⟩, -- SEC_DEVID_HASH0–7.HASH
   ⟨0x400, 256, 4, 0, 32, .wo, 0⟩ -- SEC_DBG_WINDOW
  ]

/-- Fields of the landing page. -/
def lndFields : List RField :=
  [
   ⟨0x40, 1, 0, 0, 3, .ro, 0⟩, -- LND_STAT.GEN
   ⟨0x40, 1, 0, 3, 5, .ro, 0⟩, -- LND_STAT.WIDTH
   ⟨0x40, 1, 0, 8, 1, .ro, 0⟩, -- LND_STAT.UP
   ⟨0x40, 1, 0, 9, 1, .ro, 0⟩, -- LND_STAT.NARROW
   ⟨0x40, 1, 0, 10, 16, .ro, 0⟩, -- LND_STAT.RECOVERIES
   ⟨0x44, 1, 0, 0, 1, .w1c, 0⟩, -- LND_ERR.WIN_OUTSIDE
   ⟨0x44, 1, 0, 1, 1, .w1c, 0⟩, -- LND_ERR.ATOMIC_UR
   ⟨0x44, 1, 0, 2, 1, .w1c, 0⟩, -- LND_ERR.HOST_DMA
   ⟨0x48, 1, 0, 0, 4, .rw, 0⟩, -- LND_PF_WIN.PART
   ⟨0x4c, 1, 0, 0, 10, .rw, 0⟩, -- LND_PF_WIN_BASE.BASE
   ⟨0x80, 16, 4, 0, 4, .rw, 0⟩, -- PART_CFGp.FIRST_STACK
   ⟨0x80, 16, 4, 4, 3, .rw, 0⟩, -- PART_CFGp.SIZE_LOG2
   ⟨0x80, 16, 4, 7, 1, .rw, 0⟩, -- PART_CFGp.ASSIGN
   ⟨0x80, 16, 4, 31, 1, .w1c, 0⟩, -- PART_CFGp.CFG_REJ
   ⟨0xc0, 16, 4, 0, 1, .wo, 0⟩, -- PART_CTRLp.SET_EN
   ⟨0xc0, 16, 4, 1, 1, .wo, 0⟩, -- PART_CTRLp.CLR_EN
   ⟨0xc0, 16, 4, 2, 1, .wo, 0⟩, -- PART_CTRLp.RESET
   ⟨0x100, 4, 64, 6, 26, .rw, 0⟩, -- RING_SQ_BASE_LO.ADDR
   ⟨0x104, 4, 64, 0, 32, .rw, 0⟩, -- RING_SQ_BASE_HI.ADDR
   ⟨0x108, 4, 64, 6, 26, .rw, 0⟩, -- RING_CQ_BASE_LO.ADDR
   ⟨0x10c, 4, 64, 0, 32, .rw, 0⟩, -- RING_CQ_BASE_HI.ADDR
   ⟨0x110, 4, 64, 0, 4, .rw, 4⟩, -- RING_SIZE.SQ_LOG2
   ⟨0x110, 4, 64, 4, 4, .rw, 4⟩, -- RING_SIZE.CQ_LOG2
   ⟨0x114, 4, 64, 0, 1, .wo, 0⟩, -- RING_CTRL.SET_EN
   ⟨0x114, 4, 64, 1, 1, .wo, 0⟩, -- RING_CTRL.CLR_EN
   ⟨0x118, 4, 64, 0, 2, .ro, 2⟩, -- RING_STAT.STATE
   ⟨0x118, 4, 64, 2, 12, .ro, 0⟩, -- RING_STAT.SQ_HEAD
   ⟨0x118, 4, 64, 14, 12, .ro, 0⟩, -- RING_STAT.CQ_TAIL
   ⟨0x118, 4, 64, 26, 1, .ro, 0⟩, -- RING_STAT.CQ_FULL
   ⟨0x118, 4, 64, 27, 1, .w1c, 0⟩, -- RING_STAT.DB_ERR
   ⟨0x118, 4, 64, 28, 1, .w1c, 0⟩, -- RING_STAT.FETCH_ERR
   ⟨0x11c, 4, 64, 0, 16, .rw, 1000⟩ -- RING_DRAIN_LIMIT.LIMIT
  ]

/-- Fields of the debug page. -/
def dbgFields : List RField :=
  [
   ⟨0x40, 1, 0, 0, 1, .wo, 0⟩, -- DBG_STOP_CTRL.GO
   ⟨0x40, 1, 0, 1, 1, .wo, 0⟩, -- DBG_STOP_CTRL.RELEASE
   ⟨0x44, 1, 0, 0, 2, .ro, 0⟩, -- DBG_STOP_STAT.STATE
   ⟨0x44, 1, 0, 2, 1, .ro, 0⟩, -- DBG_STOP_STAT.COMPLETE
   ⟨0x44, 1, 0, 3, 1, .w1c, 0⟩, -- DBG_STOP_STAT.REFUSED
   ⟨0x44, 1, 0, 4, 8, .ro, 0⟩, -- DBG_STOP_STAT.STOP_ID
   ⟨0x44, 1, 0, 16, 16, .ro, 0⟩, -- DBG_STOP_STAT.INCOMPLETE_UNITS
   ⟨0x48, 1, 0, 0, 32, .ro, 0⟩, -- DBG_STOP_TIME.US
   ⟨0x4c, 1, 0, 0, 1, .wo, 0⟩, -- DBG_SND_CTRL.GO
   ⟨0x50, 1, 0, 0, 2, .ro, 0⟩, -- DBG_SND_STAT.STATE
   ⟨0x50, 1, 0, 2, 1, .w1c, 0⟩, -- DBG_SND_STAT.REFUSED
   ⟨0x54, 1, 0, 0, 5, .rw, 0⟩, -- DBG_REC_SEL.DIE
   ⟨0x54, 1, 0, 5, 5, .rw, 0⟩, -- DBG_REC_SEL.KIND
   ⟨0x54, 1, 0, 10, 12, .rw, 0⟩, -- DBG_REC_SEL.INDEX
   ⟨0x54, 1, 0, 22, 1, .rw, 0⟩, -- DBG_REC_SEL.SOUNDING
   ⟨0x58, 1, 0, 0, 2, .ro, 0⟩, -- DBG_REC_STAT.STATE
   ⟨0x58, 1, 0, 2, 12, .ro, 0⟩, -- DBG_REC_STAT.LEN
   ⟨0x80, 8, 32, 0, 16, .rw, 0⟩, -- WP_VAL_n.VALUE
   ⟨0x80, 8, 32, 16, 16, .rw, 0⟩, -- WP_VAL_n.MASK
   ⟨0x84, 8, 32, 0, 4, .rw, 0⟩, -- WP_SCOPE_n.PART
   ⟨0x84, 8, 32, 4, 3, .rw, 0⟩, -- WP_SCOPE_n.SLOT
   ⟨0x84, 8, 32, 7, 4, .rw, 0⟩, -- WP_SCOPE_n.QUEUES
   ⟨0x84, 8, 32, 11, 2, .rw, 0⟩, -- WP_SCOPE_n.ACTION
   ⟨0x84, 8, 32, 13, 1, .rw, 0⟩, -- WP_SCOPE_n.EN
   ⟨0x88, 8, 32, 0, 32, .rw, 0⟩, -- WP_STEP_n.STEP
   ⟨0x8c, 8, 32, 0, 16, .rw, 1⟩, -- WP_OCC_n.OCC
   ⟨0x90, 8, 32, 0, 1, .w1c, 0⟩, -- WP_STAT_n.FIRED
   ⟨0x90, 8, 32, 16, 16, .rc, 0⟩, -- WP_STAT_n.COUNT
   ⟨0x94, 8, 32, 0, 4, .ro, 0⟩, -- WP_HIT_n.STACK
   ⟨0x94, 8, 32, 4, 5, .ro, 0⟩, -- WP_HIT_n.PLOT
   ⟨0x94, 8, 32, 9, 2, .ro, 0⟩, -- WP_HIT_n.QUEUE
   ⟨0x800, 512, 4, 0, 32, .ro, 0⟩ -- DBG_REC_WINDOW
  ]

/-- Fields of the I/O die fabric page. -/
def iodfFields : List RField :=
  [
   ⟨0x60, 1, 0, 0, 1, .ro, 0⟩, -- DF_ROUTE.PREV_UP
   ⟨0x60, 1, 0, 1, 1, .ro, 0⟩, -- DF_ROUTE.NEXT_UP
   ⟨0x60, 1, 0, 2, 1, .rw, 1⟩, -- DF_ROUTE.PREV_EN
   ⟨0x60, 1, 0, 3, 1, .rw, 1⟩, -- DF_ROUTE.NEXT_EN
   ⟨0x64, 1, 0, 0, 16, .rw, 10⟩, -- DF_REPLAY_CFG.RATE
   ⟨0x64, 1, 0, 16, 8, .rw, 10⟩, -- DF_REPLAY_CFG.WINDOW
   ⟨0x68, 1, 0, 0, 16, .rw, 100⟩, -- DF_D2D_DRAIN_LIMIT.LIMIT
   ⟨0x80, 64, 8, 0, 2, .ro, 0⟩, -- DF_LINK_STATm.STATE
   ⟨0x80, 64, 8, 2, 3, .ro, 0⟩, -- DF_LINK_STATm.SPARED
   ⟨0x80, 64, 8, 5, 1, .w1c, 0⟩, -- DF_LINK_STATm.LASTING
   ⟨0x80, 64, 8, 16, 16, .rc, 0⟩, -- DF_LINK_STATm.REPLAYS
   ⟨0x84, 64, 8, 0, 1, .wo, 0⟩, -- DF_LINK_CTRLm.RETRAIN
   ⟨0x84, 64, 8, 1, 1, .rw, 0⟩ -- DF_LINK_CTRLm.DISABLE
  ]

/-- Fields of the crossing package page. -/
def xpkFields : List RField :=
  [
   ⟨0x40, 1, 0, 0, 16, .rwl, 0⟩, -- XNG_DEVICE_ID.ID
   ⟨0x80, 32, 4, 0, 32, .ro, 0⟩ -- XNG_TRUST0–3.HASH
  ]

/-- Fields of the collective engine page. -/
def colFields : List RField :=
  [
   ⟨0x40, 32, 4, 0, 4, .rwl, 0⟩, -- COLL_EP_OWNER_e.PART
   ⟨0x40, 32, 4, 4, 1, .rwl, 0⟩, -- COLL_EP_OWNER_e.ASSIGNED
   ⟨0xc0, 16, 4, 0, 4, .rwl, 0⟩, -- COLL_GRP_OWNER_g.PART
   ⟨0xc0, 16, 4, 4, 1, .rwl, 0⟩, -- COLL_GRP_OWNER_g.ASSIGNED
   ⟨0x100, 16, 16, 0, 3, .ro, 0⟩, -- COLL_GRP_STAT_g.STATE
   ⟨0x100, 16, 16, 3, 1, .w1c, 0⟩, -- COLL_GRP_STAT_g.SEVERED_NEW
   ⟨0x100, 16, 16, 4, 12, .ro, 0⟩, -- COLL_GRP_STAT_g.RANK
   ⟨0x100, 16, 16, 16, 12, .ro, 0⟩, -- COLL_GRP_STAT_g.SIZE_M1
   ⟨0x104, 16, 16, 0, 32, .ro, 0⟩, -- COLL_GRP_EPOCH_g.EPOCH
   ⟨0x108, 16, 16, 0, 16, .ro, 0⟩, -- COLL_GRP_ID_g.GROUP_ID
   ⟨0x10c, 16, 16, 0, 32, .ro, 0⟩, -- COLL_GRP_SEQ_g.SEQ
   ⟨0x200, 1, 0, 0, 16, .rw, 50⟩, -- COLL_CFG.HB_DEFAULT
   ⟨0x204, 1, 0, 0, 16, .rw, 1000⟩ -- COLL_DRAIN_LIMIT.LIMIT
  ]

/-- Fields of the error report page. -/
def errFields : List RField :=
  [
   ⟨0x40, 1, 0, 0, 8, .rc, 0⟩, -- ERR_RPT_W0.CODE
   ⟨0x40, 1, 0, 8, 2, .rc, 0⟩, -- ERR_RPT_W0.SEV
   ⟨0x40, 1, 0, 10, 5, .rc, 0⟩, -- ERR_RPT_W0.DIE
   ⟨0x40, 1, 0, 15, 5, .rc, 0⟩, -- ERR_RPT_W0.PLOT
   ⟨0x40, 1, 0, 31, 1, .rc, 0⟩, -- ERR_RPT_W0.VALID
   ⟨0x44, 1, 0, 0, 32, .ro, 0⟩, -- ERR_RPT_W1.ADDR
   ⟨0x48, 1, 0, 0, 16, .ro, 0⟩, -- ERR_RPT_W2.ADDR
   ⟨0x4c, 1, 0, 0, 32, .ro, 0⟩, -- ERR_RPT_W3.TIME
   ⟨0x50, 1, 0, 0, 7, .ro, 0⟩, -- ERR_RPT_CNT.HELD
   ⟨0x50, 1, 0, 16, 16, .rc, 0⟩ -- ERR_RPT_CNT.OVF
  ]

/-- Fields of the route page. -/
def routeFields : List RField :=
  [
   ⟨0x800, 256, 8, 0, 32, .rw, 0⟩, -- XNG_ROUTE.PORTS
   ⟨0x804, 256, 8, 0, 1, .rw, 0⟩ -- XNG_ROUTE.VALID
  ]

/-- Fields of the crossing page. -/
def xngFields : List RField :=
  [
   ⟨0xc, 1, 0, 0, 1, .rw, 1⟩, -- HDR_CTRL.EN
   ⟨0xc, 1, 0, 1, 2, .ro, 0⟩, -- HDR_CTRL.FSTATE
   ⟨0xc, 1, 0, 3, 1, .w1c, 0⟩, -- HDR_CTRL.ABORTED_SEEN
   ⟨0x40, 1, 0, 0, 2, .rw, 2⟩, -- XNG_CFG.MAX_GEN
   ⟨0x40, 1, 0, 2, 1, .rw, 0⟩, -- XNG_CFG.ENC_OFF
   ⟨0x40, 1, 0, 3, 1, .rw, 1⟩, -- XNG_CFG.HALF_OK
   ⟨0x44, 1, 0, 0, 4, .ro, 0⟩, -- XNG_STAT.STATE
   ⟨0x44, 1, 0, 4, 2, .ro, 0⟩, -- XNG_STAT.GEN
   ⟨0x44, 1, 0, 6, 1, .ro, 0⟩, -- XNG_STAT.SPARED
   ⟨0x44, 1, 0, 7, 1, .ro, 0⟩, -- XNG_STAT.HALF
   ⟨0x44, 1, 0, 8, 1, .ro, 0⟩, -- XNG_STAT.ENCRYPTED
   ⟨0x44, 1, 0, 9, 1, .w1c, 0⟩, -- XNG_STAT.LASTING
   ⟨0x44, 1, 0, 16, 16, .ro, 0⟩, -- XNG_STAT.PEER_ID
   ⟨0x48, 1, 0, 0, 16, .rc, 0⟩, -- XNG_ERR.REPLAYS
   ⟨0x48, 1, 0, 16, 8, .rc, 0⟩, -- XNG_ERR.TAG_FAIL
   ⟨0x48, 1, 0, 24, 4, .ro, 0⟩, -- XNG_ERR.REASON
   ⟨0x4c, 1, 0, 0, 32, .rc, 0⟩, -- XNG_FEC_CORR.SYMBOLS
   ⟨0x50, 1, 0, 0, 32, .rc, 0⟩, -- XNG_FEC_UNCORR.CODEWORDS
   ⟨0x54, 1, 0, 0, 16, .rw, 10⟩, -- XNG_REPLAY_CFG.RATE
   ⟨0x54, 1, 0, 16, 8, .rw, 10⟩, -- XNG_REPLAY_CFG.WINDOW
   ⟨0x58, 1, 0, 0, 16, .rw, 300⟩, -- XNG_REKEY_CFG.SECONDS
   ⟨0x5c, 1, 0, 0, 16, .rw, 2000⟩, -- XNG_LANE_CFG.THRESH
   ⟨0x60, 1, 0, 0, 1, .wo, 0⟩, -- XNG_CTRL.RETRAIN
   ⟨0x60, 1, 0, 1, 1, .wo, 0⟩, -- XNG_CTRL.REKEY
   ⟨0x64, 1, 0, 0, 16, .rw, 100⟩ -- XNG_DRAIN_LIMIT.LIMIT
  ]

/-- Fields of the I/O die barge channel page. -/
def ibrgFields : List RField :=
  [
   ⟨0xc, 1, 0, 0, 1, .rw, 0⟩, -- HDR_CTRL.EN
   ⟨0xc, 1, 0, 1, 2, .ro, 0⟩, -- HDR_CTRL.FSTATE
   ⟨0xc, 1, 0, 3, 1, .w1c, 0⟩, -- HDR_CTRL.ABORTED_SEEN
   ⟨0x40, 1, 0, 0, 1, .wo, 0⟩, -- BRG_CTRL.GO
   ⟨0x40, 1, 0, 1, 1, .wo, 0⟩, -- BRG_CTRL.CLR_GO
   ⟨0x44, 1, 0, 0, 2, .ro, 0⟩, -- BRG_STAT.PHASE
   ⟨0x44, 1, 0, 2, 8, .ro, 0⟩, -- BRG_STAT.GO_PEND
   ⟨0x44, 1, 0, 10, 1, .w1c, 0⟩, -- BRG_STAT.GO_OVF
   ⟨0x44, 1, 0, 11, 1, .w1c, 0⟩, -- BRG_STAT.POISON_SEEN
   ⟨0x48, 1, 0, 0, 16, .ro, 0⟩, -- BRG_POS_LO.I0
   ⟨0x48, 1, 0, 16, 16, .ro, 0⟩, -- BRG_POS_LO.I1
   ⟨0x4c, 1, 0, 0, 16, .ro, 0⟩, -- BRG_POS_HI.I2
   ⟨0x50, 1, 0, 0, 16, .rc, 0⟩, -- BRG_OVERRUN.LATE
   ⟨0x50, 1, 0, 16, 16, .rc, 0⟩, -- BRG_OVERRUN.DROPPED
   ⟨0x54, 1, 0, 0, 16, .rw, 100⟩, -- BRG_DRAIN_LIMIT.LIMIT
   ⟨0x58, 1, 0, 0, 1, .wo, 0⟩, -- BRG_SUBMIT.PUSH
   ⟨0x5c, 1, 0, 0, 4, .rwl, 0⟩, -- BRG_OWNER.PART
   ⟨0x5c, 1, 0, 4, 1, .rwl, 0⟩, -- BRG_OWNER.ASSIGNED
   ⟨0x60, 1, 0, 0, 16, .rc, 0⟩, -- BRG_CPL.TAG
   ⟨0x60, 1, 0, 16, 8, .rc, 0⟩, -- BRG_CPL.STATUS
   ⟨0x60, 1, 0, 31, 1, .rc, 0⟩, -- BRG_CPL.VALID
   ⟨0x100, 16, 4, 0, 32, .wo, 0⟩ -- descriptor window
  ]

/-- Fields of the media channel page. -/
def medFields : List RField :=
  [
   ⟨0xc, 1, 0, 0, 1, .rw, 0⟩, -- HDR_CTRL.EN
   ⟨0xc, 1, 0, 1, 2, .ro, 0⟩, -- HDR_CTRL.FSTATE
   ⟨0xc, 1, 0, 3, 1, .w1c, 0⟩, -- HDR_CTRL.ABORTED_SEEN
   ⟨0x40, 1, 0, 0, 1, .wo, 0⟩, -- MEDIA_SUBMIT.PUSH
   ⟨0x44, 1, 0, 0, 4, .rwl, 0⟩, -- MEDIA_OWNER.PART
   ⟨0x44, 1, 0, 4, 1, .rwl, 0⟩, -- MEDIA_OWNER.ASSIGNED
   ⟨0x48, 1, 0, 0, 3, .ro, 0⟩, -- MEDIA_STAT.QUEUED
   ⟨0x48, 1, 0, 3, 1, .ro, 0⟩, -- MEDIA_STAT.CONTEXT
   ⟨0x4c, 1, 0, 0, 16, .rc, 0⟩, -- MEDIA_CPL.TAG
   ⟨0x4c, 1, 0, 16, 8, .rc, 0⟩, -- MEDIA_CPL.STATUS
   ⟨0x4c, 1, 0, 31, 1, .rc, 0⟩, -- MEDIA_CPL.VALID
   ⟨0x50, 1, 0, 0, 16, .ro, 0⟩, -- MEDIA_CPL_FRAMES.FRAMES
   ⟨0x54, 1, 0, 0, 16, .rw, 1000⟩, -- MEDIA_DRAIN_LIMIT.LIMIT
   ⟨0x100, 16, 4, 0, 32, .wo, 0⟩ -- descriptor window
  ]

/-- Fields of the collective endpoint page. -/
def epFields : List RField :=
  [
   ⟨0xc, 1, 0, 0, 1, .rw, 0⟩, -- HDR_CTRL.EN
   ⟨0xc, 1, 0, 1, 2, .ro, 0⟩, -- HDR_CTRL.FSTATE
   ⟨0xc, 1, 0, 3, 1, .w1c, 0⟩ -- HDR_CTRL.ABORTED_SEEN
  ]

/-- Fields of the partition page. -/
def partFields : List RField :=
  [
   ⟨0x40, 1, 0, 0, 3, .ro, 0⟩, -- PART_STAT.STATE
   ⟨0x40, 1, 0, 3, 4, .ro, 0⟩, -- PART_STAT.FIRST_STACK
   ⟨0x40, 1, 0, 7, 3, .ro, 0⟩, -- PART_STAT.SIZE_LOG2
   ⟨0x40, 1, 0, 10, 10, .ro, 0⟩, -- PART_STAT.FAILED_PLOTS
   ⟨0x44, 1, 0, 0, 10, .rw, 0⟩, -- PART_WIN.BASE
   ⟨0x48, 1, 0, 0, 1, .wo, 0⟩, -- NWIN_PUSH.PUSH
   ⟨0x4c, 1, 0, 0, 6, .ro, 32⟩, -- NWIN_STAT.FREE
   ⟨0x4c, 1, 0, 6, 1, .w1c, 0⟩, -- NWIN_STAT.PUSH_FULL
   ⟨0x50, 1, 0, 0, 16, .rc, 0⟩, -- NWIN_CPL.TAG
   ⟨0x50, 1, 0, 16, 8, .rc, 0⟩, -- NWIN_CPL.STATUS
   ⟨0x50, 1, 0, 24, 1, .rc, 0⟩, -- NWIN_CPL.REJECTED
   ⟨0x50, 1, 0, 31, 1, .rc, 0⟩, -- NWIN_CPL.VALID
   ⟨0x54, 1, 0, 0, 16, .rw, 10000⟩, -- PART_DRAIN_LIMIT.LIMIT
   ⟨0x58, 1, 0, 0, 16, .rw, 1000⟩, -- PART_RESET_DRAIN.LIMIT
   ⟨0x58, 1, 0, 16, 1, .w1c, 0⟩, -- PART_RESET_DRAIN.ABSORBED
   ⟨0x5c, 1, 0, 0, 4, .rw, 0⟩, -- PART_PAGE_SEL.ARC
   ⟨0x5c, 1, 0, 4, 2, .rw, 0⟩, -- PART_PAGE_SEL.QUARTER
   ⟨0x60, 1, 0, 0, 1, .wo, 0⟩, -- PART_SELF_CTRL.SET_EN
   ⟨0x60, 1, 0, 1, 1, .wo, 0⟩, -- PART_SELF_CTRL.CLR_EN
   ⟨0xc0, 16, 4, 0, 32, .wo, 0⟩, -- noria window
   ⟨0x100, 4, 64, 6, 26, .rw, 0⟩, -- RING_SQ_BASE_LO.ADDR
   ⟨0x104, 4, 64, 0, 32, .rw, 0⟩, -- RING_SQ_BASE_HI.ADDR
   ⟨0x108, 4, 64, 6, 26, .rw, 0⟩, -- RING_CQ_BASE_LO.ADDR
   ⟨0x10c, 4, 64, 0, 32, .rw, 0⟩, -- RING_CQ_BASE_HI.ADDR
   ⟨0x110, 4, 64, 0, 4, .rw, 4⟩, -- RING_SIZE.SQ_LOG2
   ⟨0x110, 4, 64, 4, 4, .rw, 4⟩, -- RING_SIZE.CQ_LOG2
   ⟨0x114, 4, 64, 0, 1, .wo, 0⟩, -- RING_CTRL.SET_EN
   ⟨0x114, 4, 64, 1, 1, .wo, 0⟩, -- RING_CTRL.CLR_EN
   ⟨0x118, 4, 64, 0, 2, .ro, 2⟩, -- RING_STAT.STATE
   ⟨0x118, 4, 64, 2, 12, .ro, 0⟩, -- RING_STAT.SQ_HEAD
   ⟨0x118, 4, 64, 14, 12, .ro, 0⟩, -- RING_STAT.CQ_TAIL
   ⟨0x118, 4, 64, 26, 1, .ro, 0⟩, -- RING_STAT.CQ_FULL
   ⟨0x118, 4, 64, 27, 1, .w1c, 0⟩, -- RING_STAT.DB_ERR
   ⟨0x118, 4, 64, 28, 1, .w1c, 0⟩, -- RING_STAT.FETCH_ERR
   ⟨0x11c, 4, 64, 0, 16, .rw, 1000⟩ -- RING_DRAIN_LIMIT.LIMIT
  ]

/-- Fields of the commons page. -/
def comFields : List RField :=
  [
   ⟨0x40, 1, 0, 0, 4, .rwl, 0⟩, -- COMMONS_CFG.HASHED
   ⟨0x40, 1, 0, 4, 4, .rwl, 0⟩, -- COMMONS_CFG.WIN0–WIN3
   ⟨0x40, 1, 0, 8, 4, .rwl, 0⟩, -- COMMONS_CFG.WIN0–WIN3
   ⟨0x40, 1, 0, 12, 4, .rwl, 0⟩, -- COMMONS_CFG.WIN0–WIN3
   ⟨0x40, 1, 0, 16, 4, .rwl, 0⟩, -- COMMONS_CFG.WIN0–WIN3
   ⟨0x40, 1, 0, 20, 4, .ro, 0⟩, -- COMMONS_CFG.SLICES_LOG2
   ⟨0x40, 1, 0, 31, 1, .w1c, 0⟩, -- COMMONS_CFG.CFG_REJ
   ⟨0x44, 1, 0, 0, 13, .ro, 0⟩, -- COMMONS_SIZE.SEGMENTS
   ⟨0x48, 1, 0, 0, 32, .rw, 0⟩, -- COMMONS_LOCATE_IN_LO.OFFSET_LO
   ⟨0x4c, 1, 0, 0, 8, .rw, 0⟩, -- COMMONS_LOCATE_IN_HI.OFFSET_HI
   ⟨0x50, 1, 0, 0, 31, .ro, 0⟩, -- COMMONS_LOCATE_OUT_LO.CIS_OFFSET
   ⟨0x50, 1, 0, 31, 1, .ro, 0⟩, -- COMMONS_LOCATE_OUT_LO.VALID
   ⟨0x54, 1, 0, 0, 9, .ro, 0⟩, -- COMMONS_LOCATE_OUT_HI.SLICE
   ⟨0x54, 1, 0, 9, 4, .ro, 0⟩, -- COMMONS_LOCATE_OUT_HI.STACK
   ⟨0x54, 1, 0, 13, 5, .ro, 0⟩, -- COMMONS_LOCATE_OUT_HI.PLOT
   ⟨0x54, 1, 0, 18, 3, .ro, 0⟩, -- COMMONS_LOCATE_OUT_HI.KIND
   ⟨0x54, 1, 0, 21, 1, .ro, 0⟩, -- COMMONS_LOCATE_OUT_HI.REMAPPED
   ⟨0x58, 1, 0, 0, 16, .ro, 0⟩, -- COMMONS_GEN.GEN
   ⟨0x5c, 1, 0, 0, 3, .wo, 0⟩, -- COMMONS_REMAP_CTRL.ACTION
   ⟨0x5c, 1, 0, 4, 9, .wo, 0⟩, -- COMMONS_REMAP_CTRL.INDEX
   ⟨0x60, 1, 0, 0, 32, .rw, 0⟩, -- COMMONS_REMAP_A.GRANULE
   ⟨0x64, 1, 0, 0, 32, .rw, 0⟩, -- COMMONS_REMAP_B.GRANULE
   ⟨0x68, 1, 0, 0, 8, .rw, 16⟩, -- COMMONS_REMAP_CFG.FLOOR
   ⟨0x6c, 1, 0, 0, 3, .ro, 0⟩, -- COMMONS_REMAP_STAT.STATE
   ⟨0x6c, 1, 0, 3, 4, .ro, 0⟩, -- COMMONS_REMAP_STAT.CODE
   ⟨0x6c, 1, 0, 7, 9, .ro, 0⟩, -- COMMONS_REMAP_STAT.BAD_INDEX
   ⟨0x6c, 1, 0, 16, 10, .ro, 0⟩ -- COMMONS_REMAP_STAT.PAIRS
  ]

/-- Fields of the partition security page. -/
def psecFields : List RField :=
  [
   ⟨0x40, 8, 4, 0, 32, .rwl, 0⟩, -- PART_GRAPH_KEY0–7.HASH
   ⟨0x60, 1, 0, 0, 1, .rwl, 0⟩, -- PART_GRAPH_POLICY.REQUIRE_SIG
   ⟨0x64, 1, 0, 0, 2, .ro, 0⟩, -- PART_TDI_STAT.STATE
   ⟨0x64, 1, 0, 2, 1, .ro, 0⟩, -- PART_TDI_STAT.IDE_BOUND
   ⟨0x64, 1, 0, 3, 1, .w1c, 0⟩ -- PART_TDI_STAT.CFG_REJ
  ]

/-- Fields of the tollhouse mailbox page. -/
def mbFields : List RField :=
  [
   ⟨0x40, 1, 0, 0, 1, .wo, 0⟩, -- TOLL_MB_DOORBELL.GO
   ⟨0x44, 1, 0, 0, 2, .ro, 0⟩, -- TOLL_MB_STAT.STATE
   ⟨0x44, 1, 0, 8, 8, .ro, 0⟩, -- TOLL_MB_STAT.CODE
   ⟨0x44, 1, 0, 16, 12, .ro, 0⟩, -- TOLL_MB_STAT.RESP_LEN
   ⟨0x48, 1, 0, 0, 32, .ro, 0⟩, -- TOLL_MB_SEQ_LO.SEQ
   ⟨0x4c, 1, 0, 0, 32, .ro, 0⟩, -- TOLL_MB_SEQ_HI.SEQ
   ⟨0x50, 1, 0, 0, 1, .ro, 0⟩, -- TOLL_MB_INFO.ALIVE
   ⟨0x50, 1, 0, 1, 1, .ro, 0⟩, -- TOLL_MB_INFO.MEM_FAULT
   ⟨0x100, 64, 4, 0, 32, .rw, 0⟩, -- request window
   ⟨0x400, 768, 4, 0, 32, .ro, 0⟩ -- response window
  ]

/-- Fields of the ferry site page. -/
def ferFields : List RField :=
  [
   ⟨0x40, 1, 0, 0, 3, .ro, 0⟩, -- FERRY_STAT.STATE
   ⟨0x40, 1, 0, 3, 4, .ro, 0⟩, -- FERRY_STAT.REASON
   ⟨0x40, 1, 0, 7, 8, .ro, 0⟩, -- FERRY_STAT.MODULES_UP
   ⟨0x40, 1, 0, 15, 1, .ro, 0⟩, -- FERRY_STAT.UCIE2
   ⟨0x44, 1, 0, 0, 16, .ro, 0⟩, -- FERRY_IDENT.VENDOR
   ⟨0x44, 1, 0, 16, 16, .ro, 0⟩, -- FERRY_IDENT.PRODUCT
   ⟨0x48, 1, 0, 0, 32, .ro, 0⟩, -- FERRY_FW_VER.VERSION
   ⟨0x4c, 2, 4, 0, 32, .ro, 0⟩, -- FERRY_SERIAL_LO, _HI.SERIAL
   ⟨0x60, 8, 4, 0, 32, .ro, 0⟩, -- FERRY_MEAS0–7.DIGEST
   ⟨0x80, 1, 0, 0, 1, .wo, 0⟩ -- FERRY_CTRL.READMIT
  ]

/-- R628: the fields of each block type, the header's apart. -/
def fieldsOf (ty : Nat) : List RField :=
  match ty with
  | 0x1 => arrFields
  | 0x2 => pqFields
  | 0x3 => brgFields
  | 0x4 => cntFields
  | 0x5 => slcFields
  | 0x6 => norFields
  | 0x7 => rhFields
  | 0x8 => cntFields
  | 0x9 => dfFields
  | 0xa => cntFields
  | 0xb => smFields
  | 0xc => govFields
  | 0xd => ccFields
  | 0xf => identFields
  | 0x10 => pkgFields
  | 0x11 => bootFields
  | 0x12 => fltFields
  | 0x13 => thmFields
  | 0x14 => secFields
  | 0x15 => lndFields
  | 0x16 => dbgFields
  | 0x17 => iodfFields
  | 0x18 => xpkFields
  | 0x19 => colFields
  | 0x1a => cntFields
  | 0x1b => cntFields
  | 0x1c => cntFields
  | 0x1d => errFields
  | 0x1e => routeFields
  | 0x1f => xngFields
  | 0x20 => ibrgFields
  | 0x21 => medFields
  | 0x22 => epFields
  | 0x23 => partFields
  | 0x24 => comFields
  | 0x25 => psecFields
  | 0x26 => mbFields
  | 0x27 => ferFields
  | _ => []

end Sys2Proof.Machine
end

