-- ==== Sys2Proof/Machine/State.lean ====
section
/-!
DEFINITION. State.lean: everything the spec gives the package, as plain data. A field's comment gives what it is, then
in brackets its width, the chapter and rule that name it, and its reset value; a reset value that no rule gives is
marked with the log entry that names it.
-/
namespace Sys2Proof.Machine

/-- R501, R112: the three states of a function. -/
inductive FState where
  | running | stopping | stopped
  deriving DecidableEq, Repr

/-- R144: one plot completion record. -/
structure CplRec where
  tag : BitVec 16
  queue : BitVec 2
  rejected : Bool
  status : Byte
  irq : Bool
  time : Word
  deriving DecidableEq, Repr

/-- R101, R111, R112: one plot queue. -/
structure PQueue where
  /-- entries queued, oldest first [16, 32, 16 or 32 descriptors; 04 R101; empty] -/
  entries : List Desc := []
  /-- PQ_STATn.STATE [2 bits; 04 R143; RUNNING] -/
  state : FState := .running
  /-- PQ_STATn.HELD [1 bit; 04 R143; 0] -/
  held : Bool := false
  /-- PQ_STATn.HELD_STATUS [8 bits; 04 R143; 0] -/
  heldStatus : Byte := 0
  /-- finished descriptor's record waiting for a full completion FIFO [one record or none; 04 R109; none] -/
  heldRecs : List CplRec := []
  /-- push window [16 words; 04 R102, R141; DESIGN CHOICE 0, log 12] -/
  window : List Word := []
  /-- time at which STOPPING began [10 ns units; 15 R500; model's own 0] -/
  stopAt : Nat := 0
  deriving DecidableEq, Repr

/-- R48: how a pass obtains its tile, once resolved. -/
inductive WLoad where
  | keep | bore | gate
  deriving DecidableEq, Repr

/-- R49, R51: how far a pass's weight load is. -/
inductive LoadPhase where
  | none | loading | ready | taken
  deriving DecidableEq, Repr

/-- R52: a pass of the array queue inside the feeder. -/
structure Pass where
  seq : Nat
  desc : Desc
  wload : WLoad
  load : LoadPhase := .none
  started : Bool := false
  first : Nat := 0
  next : Nat := 0
  rowsLeft : Nat := 0
  poisoned : Bool := false
  fenced : Bool := false
  lastIssue : Nat := 0
  /-- R61: rejected during its weight load; it stays at the head of the lane until SKIP or FLUSH -/
  rejected : Bool := false
  /-- R53: cycle at which its weights were ready -/
  readyAt : Nat := 0
  /-- R52: cycle at which it entered the lookahead -/
  enteredAt : Nat := 0
  deriving DecidableEq, Repr

/-- R39, R49, R51, R67: a weight tile in the transit chains, the shadow set or the active registers. -/
structure Tile where
  /-- a tile has been loaded since the last reset or fence -/
  loaded : Bool := false
  mode : BitVec 3 := 0
  sparse : Bool := false
  fmt : BitVec 5 := 0
  bytes : List Byte := []
  scales : List Word := []
  nan : Bool := false
  poison : Bool := false
  deriving DecidableEq, Repr

/-- R47: the weight load the feed is carrying. -/
structure Feed where
  seq : Nat
  bore : Bool
  start : Nat
  tile : Tile
  deriving DecidableEq, Repr

/-- R69: `ARR_STAT.SHADOW`. -/
inductive Shadow where
  | free | loading | loaded | swapping
  deriving DecidableEq, Repr

/-- R54, R55: the activity ramp. -/
inductive Ramp where
  | idle
  | down (t : Nat) (s : Nat)
  | up (t : Nat) (s : Nat) (from_ : Nat)
  deriving DecidableEq, Repr

/-- R44, R58: a valid vector in the array. -/
structure Vec where
  seq : Nat
  row : Nat
  e : Nat
  two : Bool
  acc : Bool
  int : Bool
  drain : Bool
  poison : Bool
  sums : List Word
  /-- R81: columns whose partial sum wrapped -/
  wraps : List Bool := []
  written : Nat := 0
  deriving DecidableEq, Repr

/-- R58: an accumulator row awaiting drain. -/
structure DrainRow where
  seq : Nat
  row : Nat
  index : Nat
  ready : Bool := false
  /-- converted, its flits waiting for stream credit (R120) -/
  conv : Bool := false
  deriving DecidableEq, Repr

/-- R120: a drained flit waiting for stream credit; `last` releases the row's reservation. -/
structure OutFlit where
  seq : Nat
  slot : BitVec 5
  data : FlitData
  last : Bool
  deriving DecidableEq, Repr

/-- R39 to R70, R93: one plot's matrix array and feeder. -/
structure Arr where
  /-- ARR cycle of the array's latest event [cycle count; 02 R39; model's own 0, log 33] -/
  now : Nat := 0
  /-- head pass and lookahead, head first [at most 1 + 2 passes; 02 R52; empty] -/
  lane : List Pass := []
  /-- passes that have issued their last vector and are not complete [list; 02 R46, 04 R107; empty] -/
  issued : List Pass := []
  /-- name given to the next pass [counter; model's own; 0] -/
  nextSeq : Nat := 0
  /-- weight load in the feed [a tile or none; 02 R47; none] -/
  feed : Option Feed := none
  /-- full transit chains and the pass that owns them [a tile or none; 02 R49; none] -/
  transit : Option (Nat × Tile) := none
  /-- first issue cycle of the last pass that took its tile by bore [cycle or none; 02 R49; none] -/
  lastBore : Option Nat := none
  /-- ARR_STAT.SHADOW [2 bits; 02 R69; FREE] -/
  shadow : Shadow := .free
  /-- shadow weight set and the pass that owns it [64 x 64 weights; 02 R51; zero weights] -/
  shadowTile : Nat × Tile := (0, {})
  /-- cycle of the last gate swap's first issue slot [cycle; 02 R51; 0] -/
  swapAt : Nat := 0
  /-- active weight set [64 x 64 weights and block scales; 02 R67; zero weights, scales 127] -/
  active : Tile := {}
  /-- first cycle in which the next issue slot may fall [cycle; 02 R46; 0] -/
  slotAt : Nat := 0
  /-- cycle after the last issue cycle of the latest valid vector [cycle or none; 16 R541; none] -/
  lastValid : Option Nat := none
  /-- ARR_STAT.GROUPS_ON [4 bits; 02 R54, R69; 0] -/
  groupsOn : Nat := 0
  /-- ramp in progress [state; 02 R54, R55; idle] -/
  ramp : Ramp := .idle
  /-- cycle at which the idle count was last zero [cycle; 02 R54; 0] -/
  idleFrom : Nat := 0
  /-- valid vectors in the array [at most 128; 02 R44; empty] -/
  vecs : List Vec := []
  /-- rows awaiting drain [at most 128 with the vectors; 02 R58; empty] -/
  rows : List DrainRow := []
  /-- drained flits waiting for stream credit [list; 04 R120; empty] -/
  outQ : List OutFlit := []
  /-- halt requested [1 bit; 02 R65; 0] -/
  haltReq : Bool := false
  /-- ARR_STAT.HALTED [1 bit; 02 R69; 0] -/
  halted : Bool := false
  /-- minimum occupancy of the preceding pass since reset or fence [cycles or none; 02 R52; none] -/
  prec : Option Nat := none
  /-- a pass-start permit is held [1 bit; 02 R64, 16 R541; 0] -/
  permit : Bool := false
  /-- end of the check pause after the last pass [cycle; 02 R63; 0] -/
  pauseTo : Nat := 0
  /-- activation flits taken from a headgate ahead of the next vector [up to 8 vectors; 04 R136; empty] -/
  preE : List FlitData := []
  /-- block-word flits taken ahead [list; 04 R119, R136; empty] -/
  preB : List FlitData := []
  /-- bytes of the first block-word flit already used [0 to 63; 04 R119; 0] -/
  preOff : Nat := 0
  /-- drain generator ARR_RNG [64 bits; 03 R85, R93; 1] -/
  rng : BitVec 64 := 1
  /-- held write of ARR_RNG_LO [32 bits; 03 R93; DESIGN CHOICE 1, log 13] -/
  rngLo : Word := 1
  /-- generator load armed for the next row boundary [64 bits or none; 03 R93; none] -/
  rngArm : Option (BitVec 64) := none
  deriving DecidableEq, Repr

/-- R289: where a bank stands in a command: pass, row or bag, element or index. -/
structure NorPos where
  pass : Nat := 0
  row : Nat := 0
  j : Nat := 0
  /-- the 4 KiB scratch (R272): FP32 accumulators or the statistics n, mean, M2, Q -/
  acc : List Word := []
  /-- rows accumulated so far -/
  cnt : Nat := 0
  /-- poison met by the row, the bag or the bank (R297) -/
  bad : Bool := false
  /-- the bag is written as NaNs (R288) -/
  nan : Bool := false
  /-- outputs gathered in the scratch: bank-local address, bytes, poisoned -/
  out : List (Nat × List Byte × Bool) := []
  deriving DecidableEq, Repr

/-- R273, R289, R300: a noria command at its target slice. -/
structure NorCmd where
  src : NorSrc
  desc : Desc
  /-- place of the next step per selected bank -/
  pos : Tbl NorPos := []
  /-- banks whose last output word is written -/
  banksDone : Word := 0
  /-- banks to which the command has written (R298) -/
  wrote : Word := 0
  poisoned : Bool := false
  badIndex : Bool := false
  aborted : Option Byte := none
  deriving DecidableEq, Repr

/-- R273: where a command sent to a cistern stands: on its way, answered with RETRY, or in the slice queue. -/
inductive NorWay where
  | sent | retry | accepted
  deriving DecidableEq, Repr

/-- R128: a command that has left its plot's noria queue. -/
structure NorOut where
  seq : Nat
  desc : Desc
  way : NorWay := .sent
  deriving DecidableEq, Repr

/-- R123: a vector descriptor in the vector unit. -/
structure VecRun where
  desc : Desc
  deriving DecidableEq, Repr

/-- R184, R187: what a headgate holds beside its registers. -/
structure Hg where
  /-- latched source die, plot, slot [5+5+5 bits or none; 06 R184; none] -/
  src : Option (Nat × Nat × Nat) := none
  /-- flits consumed and not yet credited [count; 06 R187; 0] -/
  owed : Nat := 0
  /-- time of the oldest uncredited consumption [10 ns units; 06 R187; 0] -/
  owedAt : Nat := 0
  /-- flits arrived since ARRIVE_CTR was last stepped [count; 04 R131; 0] -/
  arrived : Nat := 0
  deriving DecidableEq, Repr

/-- R95, R99: the steward core (register names PRESUMED from RISC-V, log 15). -/
structure Steward where
  /-- released to run [1 bit; 04 R100; 0] -/
  released : Bool := false
  /-- program counter [64 bits; 04 R95; PRESUMED 0, log 15] -/
  pc : BitVec 64 := 0
  /-- x1 to x31, x0 is hard-wired zero [31 x 64 bits; 04 R95; DESIGN CHOICE 0, log 15] -/
  x : List (BitVec 64) := []
  /-- machine status: bit 3 MIE, bit 7 MPIE, bits 12:11 MPP [64 bits; 04 R95; PRESUMED 0x1800, log 15] -/
  mstatus : BitVec 64 := 0x1800
  /-- machine interrupt enables [64 bits; 04 R95; PRESUMED 0, log 15] -/
  mie : BitVec 64 := 0
  /-- trap vector [64 bits; 04 R95; PRESUMED 0, log 15] -/
  mtvec : BitVec 64 := 0
  /-- machine scratch [64 bits; 04 R95; PRESUMED 0, log 15] -/
  mscratch : BitVec 64 := 0
  /-- saved pc [64 bits; 04 R99; PRESUMED 0, log 15] -/
  mepc : BitVec 64 := 0
  /-- trap cause [64 bits; 04 R99; PRESUMED 0, log 15] -/
  mcause : BitVec 64 := 0
  /-- trap value [64 bits; 04 R99; PRESUMED 0, log 15] -/
  mtval : BitVec 64 := 0
  deriving DecidableEq, Repr

/-- R509: why a plot failed. -/
inductive FailCause where
  | watchdog | steward | selftest | flood | other
  deriving DecidableEq, Repr

/-- One plot: array, queues, stream ends, memories and steward. -/
structure Plot where
  arr : Arr := {}
  /-- array queue [16 entries; 04 R101; empty] -/
  qa : PQueue := {}
  /-- vector queue [32 entries; 04 R101; empty] -/
  qv : PQueue := {}
  /-- barge queue [16 entries; 04 R101; empty] -/
  qb : PQueue := {}
  /-- noria queue [32 entries; 04 R101; empty] -/
  qn : PQueue := {}
  /-- completion FIFO [64 records; 04 R109; empty] -/
  cpl : List CplRec := []
  /-- steward push stalled on a full queue [queue index or none; 04 R102; none] -/
  stall : Option (BitVec 2) := none
  /-- vector descriptor in the vector unit [one or none; 04 R123; none] -/
  vec : Option VecRun := none
  /-- local signals on their way to their counters [list of counters; 04 R107; empty] -/
  sigs : List (BitVec 6) := []
  /-- hidden part of the 32 headgates [see Hg; 06 R184; all clear] -/
  hgs : Tbl Hg := []
  /-- noria commands dispatched and not complete [list of descriptors; 04 R128; empty] -/
  norOut : List NorOut := []
  /-- name given to the next noria command [counter; model's own; 0] -/
  norSeq : Nat := 0
  /-- vector generator VEC_RNG [64 bits; 04 R149; 1] -/
  vrng : BitVec 64 := 1
  /-- held write of VEC_RNG_LO [32 bits; 04 R149; DESIGN CHOICE 1, log 13] -/
  vrngLo : Word := 1
  /-- vector generator load armed [64 bits or none; 04 R149; none] -/
  vrngArm : Option (BitVec 64) := none
  /-- time of the last watchdog kick [10 ns units; 04 R99; 0] -/
  kickAt : Nat := 0
  stw : Steward := {}
  /-- tank bytes [4 MiB; 04 R135, R100; zero] -/
  tank : Tbl Byte := []
  /-- poisoned 8 B tank words [524,288 flags; 04 R138; none] -/
  tankPoison : Tbl Bool := []
  /-- accumulator bank words, row x 64 + column [1,024 x 64 x 32 bits; 02 R42; zero by R100] -/
  acc : Tbl Word := []
  /-- poisoned accumulator words [flags; 04 R138; none] -/
  accPoison : Tbl Bool := []
  /-- firmware instruction SRAM [32 KiB; 04 R96; DESIGN CHOICE 0, log 9] -/
  fw : Tbl Byte := []
  /-- program instruction SRAM [96 KiB; 04 R96; DESIGN CHOICE 0, log 9] -/
  prog : Tbl Byte := []
  /-- data SRAM [64 KiB; 04 R96, R100; zero] -/
  data : Tbl Byte := []
  /-- sources already answered FENCED, as die, plot, slot [list; 06 R191; empty] -/
  fencedSrc : List (Nat × Nat × Nat) := []
  /-- the plot reads FAILED, with its cause [state; 15 R509; not failed] -/
  failed : Option FailCause := none
  deriving DecidableEq, Repr

/-- R169: `BRG_STAT.PHASE`. -/
inductive BPhase where
  | idle | waitSync | waitGo | moving
  deriving DecidableEq, Repr

/-- One barge channel, of a plot or of the I/O die. -/
structure Chan where
  /-- function state HDR_CTRL.FSTATE [2 bits; 15 R502; RUNNING on a plot channel] -/
  state : FState := .running
  /-- BRG_STAT.PHASE [2 bits; 05 R169; IDLE] -/
  phase : BPhase := .idle
  /-- descriptor taken [one or none; 05 R160; none] -/
  desc : Option Desc := none
  /-- queued descriptors, I/O die only, with the landing command (ring, name) each serves [4 entries; 05 R151; empty] -/
  queue : List (Desc × Option (Nat × Nat)) := []
  /-- descriptor window, I/O die only [16 words; 05 R169; DESIGN CHOICE 0, log 12] -/
  window : List Word := []
  /-- BRG_STAT.GO_PEND [8 bits; 05 R164; 0] -/
  goPend : Nat := 0
  /-- units of the descriptor already complete [count; 05 R163; 0] -/
  unit : Nat := 0
  /-- BRG_POS: elements of the descriptor already issued [48 bits as I0, I1, I2; 05 R169; 0] -/
  pos : Nat := 0
  /-- end of the sync wait, the timer grid's origin [10 ns units; 05 R165; 0] -/
  t0 : Nat := 0
  /-- next unit number of the timer grid [count; 05 R165; 0] -/
  grid : Nat := 0
  /-- a late unit is pending [1 bit; 05 R165; 0] -/
  late : Bool := false
  /-- the running descriptor has met poison [1 bit; 05 R161; 0] -/
  poisoned : Bool := false
  /-- the running descriptor's stream is fenced [1 bit; 05 R161; 0] -/
  fenced : Bool := false
  /-- the running descriptor lost its target [1 bit; 05 R161; 0] -/
  lost : Bool := false
  /-- a reset answered one of the descriptor's requests [1 bit; 06 R201; 0] -/
  aborted : Bool := false
  /-- headgate flits taken and not yet written [list; 05 R160; empty] -/
  inBuf : List FlitData := []
  /-- flits of the unit ready for the output slot [list; 05 R160; empty] -/
  outQ : List FlitData := []
  /-- BRG_CPL records [4 records; 05 R168; empty] -/
  cpl : List CplRec := []
  /-- finished record held by a full BRG_CPL or completion FIFO [list; 05 R168; empty] -/
  heldRecs : List CplRec := []
  /-- landing command (ring, name) this descriptor serves [one or none; 10 R342; none] -/
  job : Option (Nat × Nat) := none
  /-- time at which STOPPING began [10 ns units; 15 R500; model's own 0] -/
  stopAt : Nat := 0
  deriving DecidableEq, Repr

/-- R231: a memory fill of a cistern. -/
structure FillSt where
  set : Byte
  done : Byte
  deriving DecidableEq, Repr

/-- R234, R221: a request the slice controller holds. -/
inductive HeldReq where
  | write (off : Nat) (data : List Byte) (poison : Bool)
  | weir (op : BitVec 4) (esize : BitVec 3) (off : Nat) (operand : List Byte) (poison : Bool)
  | poisonBack (off : Nat)
  | scrubBack (off : Nat)
  deriving DecidableEq, Repr

/-- R257: a soft repair in progress. -/
structure PprRun where
  bank : BitVec 5
  row : BitVec 15
  spare : Nat
  deriving DecidableEq, Repr

/-- R206 to R261: hidden state of a slice controller. -/
structure Slice where
  /-- fill in progress [8 + 8 segment flags or none; 07 R231; none] -/
  fill : Option FillSt := none
  /-- requests held by the band [at most 64; 07 R234; empty] -/
  held : List HeldReq := []
  /-- requests waiting on a fill, a row repair or a noria step [list; 07 R221, R231, 08 R257; empty] -/
  waiting : List HeldReq := []
  /-- bursts due a demand scrub, with word offset and syndrome [list; 08 R249; empty] -/
  demand : List (Nat × Word) := []
  /-- time the patrol pass was (re)started [10 ns units; 08 R248; 0] -/
  patrolFrom : Nat := 0
  /-- row repair in progress [bank, row, spare or none; 08 R257; none] -/
  ppr : Option PprRun := none
  /-- rows switched to spares: (bank * 32768 + row, spare) [64 spares per bank; 08 R257; none] -/
  rowMap : Tbl Nat := []
  /-- spare rows used per bank, fuse repairs included [0 to 64 each; 08 R257, R266; 0] -/
  spareUsed : Tbl Nat := []
  /-- the slice controller is lost [1 bit; 07 R215; 0] -/
  lost : Bool := false
  /-- per-bank refreshes done [counter each; 07 R232; 0] -/
  refreshAt : Tbl Nat := []
  /-- noria microcode store [256 KiB; 14 R466; DESIGN CHOICE 0, log 9] -/
  ucode : Tbl Byte := []
  /-- the flood left the microcode incomplete [1 bit; 14 R481; 0] -/
  noUcode : Bool := false
  deriving DecidableEq, Repr

/-- R195, R196, R199: hidden state of one die-to-die module end. -/
structure Link where
  /-- sequence number of the next frame sent [16 bits; 06 R195; PRESUMED 0, log 40] -/
  txSeq : BitVec 16 := 0
  /-- sequence number expected next [16 bits; 06 R195; PRESUMED 0, log 40] -/
  rxSeq : BitVec 16 := 0
  /-- a NAK is owed to the far end [1 bit; 06 R196; 0] -/
  nak : Bool := false
  /-- replay buffer, oldest first [64 frames with sequence numbers; 06 R196; empty] -/
  replay : List (BitVec 16 × List Byte) := []
  /-- frames to send again [list; 06 R196; empty] -/
  resend : List (BitVec 16) := []
  /-- replays in the current second [count; 06 R196; 0] -/
  secReplays : Nat := 0
  /-- consecutive seconds over RATE [count; 06 R196; 0] -/
  overSecs : Nat := 0
  /-- failed retrains in a row [count; 06 R197; 0] -/
  fails : Nat := 0
  /-- link-level credit returned per class STREAM, REQ, RSP [3 counts; 06 R195, R199; 0] -/
  credits : List Nat := []
  /-- headers, flits and tokens delivered from frames [list of frames; 06 R199; empty] -/
  delivered : List (List Byte) := []
  deriving DecidableEq, Repr

/-- R264, R270: one error report record: W0, ADDR[31:0], ADDR[47:32], TIME. -/
structure ErrRpt where
  code : Byte
  sev : BitVec 2
  die : BitVec 5
  plot : BitVec 5
  addr : BitVec 48
  time : Word
  deriving DecidableEq, Repr

/-- R264: an error report FIFO and its capture. -/
structure ErrFifo where
  /-- records, oldest first [64 records; 08 R264; empty] -/
  recs : List ErrRpt := []
  /-- captured ERR_RPT_W1 to W3 [3 words; 08 R270; 0] -/
  w1 : Word := 0
  w2 : Word := 0
  w3 : Word := 0
  deriving DecidableEq, Repr

/-- R259: a commons remap pair. -/
structure Pair where
  a : Word
  b : Word
  deriving DecidableEq, Repr

/-- R260: where a migrating granule stands. -/
inductive MigSt where
  | waiting | copied
  deriving DecidableEq, Repr

/-- R259 to R263: a partition's commons remap. -/
structure Remap where
  /-- table of the current generation, by INDEX [512 pairs; 08 R259; empty] -/
  cur : Tbl (Option Pair) := []
  /-- staging table [512 pairs; 08 R260; empty] -/
  stage : Tbl (Option Pair) := []
  /-- granules under migration and their state [list; 08 R261; empty] -/
  mig : List (Word × MigSt) := []
  /-- the generation has switched and dual writes still run [1 bit; 08 R262; 0] -/
  switching : Bool := false
  deriving DecidableEq, Repr

/-- R272 to R299: hidden state of one cistern's noria. -/
structure Noria where
  /-- slice command queue, oldest first, running commands included [16 entries; 09 R273; empty] -/
  queue : List NorCmd := []
  /-- banks running a step now [32 bits; 09 R289; 0] -/
  stepping : Word := 0
  /-- banks holding a permit [32 bits; 09 R303; 0] -/
  permits : Word := 0
  /-- cross-checks waiting for idle banks [32 bits; 09 R299; 0] -/
  xchk : Word := 0
  /-- the waiting cross-check was started by management software [1 bit; 09 R299; 0] -/
  xchkGo : Bool := false
  deriving DecidableEq, Repr

/-- R356: one noria window record. -/
structure WinRec where
  tag : BitVec 16
  status : Byte
  rejected : Bool
  irq : Bool
  deriving DecidableEq, Repr

/-- R356: an entry of a partition's noria window queue. `job` names the NORIA_OP it belongs to: ring, command and place in
the list. -/
structure WinCmd where
  seq : Nat
  desc : Desc
  job : Option (Nat × Nat × Nat)
  way : NorWay := .sent
  deriving DecidableEq, Repr

/-- R328: `PART_STAT.STATE`. -/
inductive PState where
  | free | resetting | idle | running | stopping | stopped | faulted
  deriving DecidableEq, Repr

/-- What a RESETTING ends in (R328). -/
inductive ResetWhy where
  | assign | reset | remove
  deriving DecidableEq, Repr

/-- R340: one stream entry of a loaded graph. -/
structure StreamEnt where
  headgate : Bool
  stack : Nat
  plot : Nat
  num : Nat
  words : List Word
  deriving DecidableEq, Repr

/-- R341: a run of a graph in progress. -/
structure GraphRun where
  /-- ring key and command name of the RUN_GRAPH -/
  owner : Nat × Nat
  startAt : Nat
  timeout : Nat
  /-- (stack, plot) pairs that have reported -/
  ended : List (Nat × Nat) := []
  poisoned : Bool := false
  /-- the completion entry has been decided already -/
  answered : Bool := false
  deriving DecidableEq, Repr

/-- R339: a graph slot. -/
structure Slot where
  /-- plots loaded as (stack, plot) [list; 10 R339; empty] -/
  plots : List (Nat × Nat) := []
  /-- stream entries [list; 10 R340; empty] -/
  streams : List StreamEnt := []
  /-- tensor symbol table, 64 B entries [bytes; 10 R350; empty] -/
  symbols : List (List Byte) := []
  /-- a graph is loaded [1 bit; 10 R339; 0] -/
  loaded : Bool := false
  /-- number of the most recent run [32 bits; 10 R350; 0] -/
  runNo : Word := 0
  /-- the run in progress [one or none; 10 R341; none] -/
  run : Option GraphRun := none
  deriving DecidableEq, Repr

/-- R356, R328, R339: hidden state of one partition. -/
structure Part where
  /-- PART_STAT.STATE [3 bits; 10 R328; FREE] -/
  state : PState := .free
  /-- PART_STAT.FIRST_STACK and SIZE_LOG2 in force [4 + 3 bits; 10 R358; 0] -/
  first : Nat := 0
  sizeLog2 : Nat := 0
  /-- the partition is assigned [1 bit; 10 R327; 0] -/
  assigned : Bool := false
  /-- why a RESETTING runs [state; 10 R328; none] -/
  why : Option ResetWhy := none
  /-- the partition has entered RUNNING since assignment [1 bit; 07 R215; 0] -/
  enabled : Bool := false
  /-- time at which STOPPING began [10 ns units; 15 R503; 0] -/
  stopAt : Nat := 0
  /-- noria window [16 words; 10 R356; DESIGN CHOICE 0, log 12] -/
  window : List Word := []
  /-- window queue [32 commands; 10 R356; empty] -/
  winQ : List WinCmd := []
  /-- window commands sent and not complete [list; 09 R274; empty] -/
  winOut : List WinCmd := []
  /-- name given to the next window command [counter; model's own; 0] -/
  winSeq : Nat := 0
  /-- window record FIFO [64 records; 10 R356; empty] -/
  winCpl : List WinRec := []
  /-- record held by a full FIFO [list; 10 R356; empty] -/
  winHeld : List WinRec := []
  /-- graph slots 0 to 7 [8; 10 R339; empty] -/
  slots : Tbl Slot := []
  /-- STOP_INTERFACE waits for the end of the partition reset [1 bit; 13 R450; 0] -/
  tdiStop : Bool := false
  remap : Remap := {}
  deriving DecidableEq, Repr

/-- Where a started ring command stands. -/
inductive RunSt where
  /-- WAIT polling, a run, a self-test, SPARE_IN, a group forming -/
  | waiting
  /-- R342: a host-to-device COPY: bytes still to read, bytes written -/
  | moving (left moved : Nat)
  /-- R342, R343: barge descriptors waiting for a queue entry of their channel, descriptors not complete, worst status so
  far, bytes written so far -/
  | chans (todo : List (Nat × Desc)) (left : Nat) (status : Byte) (moved : Nat)
  /-- R344: commands not yet in the window queue, statuses by place in the list, commands not complete -/
  | noria (todo : List (Nat × Desc)) (results : List (Nat × Byte)) (left : Nat)
  /-- R345: the commands (ring, name) a FENCE still waits for -/
  | fence (of_ : List (Nat × Nat))
  deriving DecidableEq, Repr

/-- R331: a command of a ring. -/
structure Cmd where
  /-- the model's name of the command [counter; model's own; 0] -/
  id : Nat
  bytes : List Byte
  /-- SQ_HEAD after its entry was consumed -/
  head : Nat
  st : RunSt := .waiting
  startAt : Nat := 0
  poisoned : Bool := false
  deriving DecidableEq, Repr

/-- R320: a host read the device has sent. -/
structure HostRead where
  ring : Nat
  /-- none: a fetch of submission entries -/
  cmd : Option Nat
  addr : BitVec 64
  len : Nat
  sentAt : Nat
  deriving DecidableEq, Repr

/-- R333: a completion entry (words 0 to 2; word 3 reserved). -/
structure CplEnt where
  w0 : Word
  w1 : Word
  w2 : Word
  irq : Bool
  deriving DecidableEq, Repr

/-- R329, R360: one ring; ring r of function f has key 4 f + r, function 0 the physical one. -/
structure Ring where
  /-- RING_STAT.STATE [2 bits; 10 R360; STOPPED] -/
  state : FState := .stopped
  /-- RING_STAT.SQ_HEAD [12 bits; 10 R360; 0] -/
  head : Nat := 0
  /-- submission tail from the doorbell [12 bits; 10 R330; 0] -/
  tail : Nat := 0
  /-- RING_STAT.CQ_TAIL [12 bits; 10 R360; 0] -/
  cqTail : Nat := 0
  /-- completion head from the doorbell [12 bits; 10 R330; 0] -/
  cqHead : Nat := 0
  /-- completion phase [1 bit; 10 R333; 1] -/
  phase : Bool := true
  /-- commands fetched and not started [list; 10 R332; empty] -/
  queue : List Cmd := []
  /-- commands started and not completed [list; 10 R332; empty] -/
  running : List Cmd := []
  /-- completion entries held by a full queue [list; 10 R334; empty] -/
  held : List CplEnt := []
  /-- time at which STOPPING began [10 ns units; 10 R335; 0] -/
  stopAt : Nat := 0
  deriving DecidableEq, Repr

/-- R326, R315: hidden state of a PCIe function (0 physical, 1 to 16 virtual). -/
structure Func where
  /-- host reads outstanding [list; 10 R320; empty] -/
  reads : List HostRead := []
  /-- name given to the next command [counter; model's own; 0] -/
  nextId : Nat := 0
  deriving DecidableEq, Repr

/-- R365: `XNG_STAT.STATE`. -/
inductive XState where
  | disabled | detect | equalise | align | peer | auth | active | retrain | down
  deriving DecidableEq, Repr

/-- R361, R366: a rate and lane configuration of a crossing. -/
structure XCfg where
  gen : Nat
  half : Bool
  upper : Bool     -- lanes 4-7 when half
  deriving DecidableEq, Repr

/-- R380: the kinds of a Traiq packet; the reserved ones by their code. -/
inductive XKind where
  | join | joinAck | heartbeat | sever | lost | credit | data
  | reserved (code : BitVec 4)
  deriving DecidableEq, Repr

/-- R380: a Traiq packet: header fields and data. R380 gives the header no place for the last four, which the packets of
the engine need: what the sender's descriptor holds, the offset of the data in the contribution or the amount of credit,
and poison (log 44). -/
structure XPkt where
  kind : XKind
  src : BitVec 16
  dst : BitVec 16
  group : BitVec 16
  epoch : Word
  seq : BitVec 16
  layer : Nat := 0
  body : List Byte := []
  like : Desc := []
  off : Nat := 0
  poison : Bool := false
  deriving DecidableEq, Repr

/-- Hidden state of one crossing. -/
structure Xng where
  /-- function state HDR_CTRL.FSTATE [2 bits; 15 R502; RUNNING] -/
  fstate : FState := .running
  /-- XNG_STAT.STATE [4 bits; 11 R365; DISABLED] -/
  state : XState := .disabled
  /-- configuration in force or being tried [gen, half, lanes; 11 R366; Gen 2 on 8 lanes] -/
  cfg : XCfg := { gen := 2, half := false, upper := false }
  /-- the configuration a retrain may not exceed [as above; 11 R367; Gen 2 on 8 lanes] -/
  ceil : XCfg := { gen := 2, half := false, upper := false }
  /-- where a retrain stands: EQUALISE, ALIGN or PEER [state; 11 R365; EQUALISE] -/
  phase : XState := .equalise
  /-- failed retrains in a row [count; 11 R367; 0] -/
  fails : Nat := 0
  /-- time at which the state was entered [10 ns units; 11 R365; 0] -/
  since : Nat := 0
  /-- a lane is marked for sparing [1 bit; 11 R364; 0] -/
  spareMark : Bool := false
  /-- the peer's encryption policy, from PEER [1 bit; 11 R374; 0] -/
  peerEncOff : Bool := false
  /-- next SEQ sent [16 bits; 11 R369; PRESUMED 0, log 41] -/
  txSeq : BitVec 16 := 0
  /-- last sequenced flit received in good order [16 bits; 11 R371; PRESUMED 0xFFFF, log 41] -/
  rxAck : BitVec 16 := 0xFFFF
  /-- SEQ of the next sequenced flit the receiver takes [16 bits; 11 R371; PRESUMED 0, log 41] -/
  rxNext : BitVec 16 := 0
  /-- discarding until the replay arrives [1 bit; 11 R371; 0] -/
  nak : Bool := false
  /-- replay buffer, oldest first [1,024 flits of 256 B; 11 R371; empty] -/
  replay : List (BitVec 16 × List Byte) := []
  /-- packets sent and not acknowledged, with the SEQ of the flit that ends each [list; 11 R383; empty] -/
  sentPkts : List (BitVec 16 × XPkt) := []
  /-- packet bytes that wait for a flit, and the packets that end in them, with their ends [bytes and places; 11 R369; empty] -/
  txBuf : List Byte := []
  txEnds : List (Nat × XPkt) := []
  /-- link credit held per virtual channel, in 16 B units [8 counts; 11 R373; 4,096 each once ACTIVE] -/
  credit : List Nat := []
  /-- link credit owed to the peer per virtual channel, in 16 B units [8 counts; 11 R373; 0] -/
  owed : List Nat := []
  /-- packet bytes received and not yet a whole packet [bytes; 11 R369; empty] -/
  rxBuf : List Byte := []
  /-- DATA flits sent in the open tag group [0 to 31; 11 R376; 0] -/
  txGroup : Nat := 0
  /-- payloads received in the open tag group, held until its tag [at most 31; 11 R377; empty] -/
  rxGroup : List (List Byte) := []
  /-- groups sent under the key [64-bit nonce count; 11 R376; 0] -/
  groups : Nat := 0
  /-- consecutive failed groups [count; 11 R377; 0] -/
  tagFails : Nat := 0
  /-- key phase in use, sent and received [1 bit each; 11 R378; 0] -/
  txPhase : Bool := false
  rxPhase : Bool := false
  /-- a key renewal waits for the open tag group to close [1 bit; 11 R378; 0] -/
  rekeying : Bool := false
  /-- time the key in use was installed [10 ns units; 11 R378; 0] -/
  keyAt : Nat := 0
  /-- replays in the current second, and consecutive seconds over RATE [counts; 11 R372; 0] -/
  secReplays : Nat := 0
  overSecs : Nat := 0
  /-- time at which STOPPING began [10 ns units; 15 R500; 0] -/
  stopAt : Nat := 0
  deriving DecidableEq, Repr

/-- R388: a collective in flight. -/
structure Coll where
  slot : Nat
  seq : Word
  desc : Desc
  /-- members and own rank, as the group had them at the start -/
  members : List (BitVec 16)
  rank : Nat
  /-- the contribution so far, in 32 B words with their poison -/
  contrib : List (List Byte × Bool) := []
  /-- bytes of the contribution sent to each rank -/
  sent : Tbl Nat := []
  /-- bytes that have come from each rank -/
  got : Tbl Nat := []
  poisoned : Bool := false
  deriving DecidableEq, Repr

/-- R384: one collective endpoint. -/
structure Endpoint where
  /-- function state HDR_CTRL.FSTATE [2 bits; 15 R502; STOPPED] -/
  fstate : FState := .stopped
  /-- headgate queues 0 (commands) to 8 (data): flits held [9 of 256 flits; 11 R384; empty] -/
  queues : Tbl (List FlitData) := []
  /-- hidden headgate state per queue [9; 06 R184; clear] -/
  hgs : Tbl Hg := []
  /-- sources already answered FENCED [list; 06 R191, R193; empty] -/
  fencedSrc : List (Nat × Nat × Nat) := []
  /-- descriptors in flight [at most 4; 11 R384; empty] -/
  running : List Coll := []
  /-- time at which STOPPING began [10 ns units; 15 R500; 0] -/
  stopAt : Nat := 0
  deriving DecidableEq, Repr

/-- R403: `COLL_GRP_STAT.STATE`. -/
inductive GState where
  | free | forming | active | severed
  deriving DecidableEq, Repr

/-- R385, R386: a group being formed. -/
structure Form where
  gid : BitVec 16
  epoch : Word
  members : List (BitVec 16)
  rank : Nat
  hb : Nat
  digest : List Byte
  /-- ranks of which a matching JOIN or JOIN_ACK is held -/
  answered : List Nat
  startAt : Nat
  /-- forming time limit in ms -/
  limit : Nat
  /-- ring key and name of the command -/
  job : Nat × Nat
  deriving DecidableEq, Repr

/-- R385, R386, R392: one group slot. -/
structure Group where
  /-- COLL_GRP_STAT.STATE, while no group is being formed in the slot [3 bits; 11 R403; FREE] -/
  state : GState := .free
  /-- the group being formed: the slot reads FORMING [one or none; 11 R386; none] -/
  form : Option Form := none
  /-- member device IDs in rank order [2 to 4,096 of 16 bits; 11 R385; empty] -/
  members : List (BitVec 16) := []
  /-- RANK [12 bits; 11 R403; 0] -/
  rank : Nat := 0
  /-- COLL_GRP_EPOCH [32 bits; 11 R403; 0] -/
  epoch : Word := 0
  /-- COLL_GRP_ID [16 bits; 11 R403; 0] -/
  gid : BitVec 16 := 0
  /-- COLL_GRP_SEQ [32 bits; 11 R403; 0] -/
  seq : Word := 0
  /-- membership digest [256 bits as bytes; 11 R386; empty] -/
  digest : List Byte := []
  /-- heartbeat timeout in us [16 bits; 11 R392; 0] -/
  hb : Nat := 0
  /-- time a packet was last heard from rank r - 1 and r + 1 [10 ns units; 11 R392; 0] -/
  heardPrev : Nat := 0
  heardNext : Nat := 0
  deriving DecidableEq, Repr

/-- R386: a JOIN kept for a later GROUP_FORM. -/
structure KeptJoin where
  gid : BitVec 16
  epoch : Word
  src : BitVec 16
  digest : List Byte
  since : Nat
  deriving DecidableEq, Repr

/-- A packet inside the device: with the crossing it came by, whose receive buffer it still holds. -/
structure HeldPkt where
  pkt : XPkt
  via : Option Nat
  deriving DecidableEq, Repr

/-- R384 to R395: the collective engine's package state. -/
structure CollEng where
  /-- kept JOINs [list; 11 R386; empty] -/
  kept : List KeptJoin := []
  /-- last epoch used per group ID [32 bits each; 11 R387; 0] -/
  lastEpoch : Tbl Word := []
  /-- end-to-end DATA credit per destination device, in packets [count each; 11 R382; 0] -/
  e2e : Tbl Nat := []
  /-- packets that wait for a port, oldest first [list; 11 R381; empty] -/
  out : List HeldPkt := []
  /-- packets for this device that have come by a crossing and not yet reached the engine [list; 11 R382; empty] -/
  inp : List HeldPkt := []
  /-- elements gathered in the engine's open scatter-add packet: operation, device address, operand, poisoned [at most 8; 07 R226; empty] -/
  sap : List (BitVec 4 × Nat × List Byte × Bool) := []
  deriving DecidableEq, Repr

/-- R406 to R418: one host-class core. -/
structure HCore where
  /-- released into the firmware [1 bit; 12 R409; 0] -/
  released : Bool := false
  /-- hart state HS mode entered [1 bit; 12 R409; 0] -/
  started : Bool := false
  /-- privilege mode is machine [1 bit; 12 R408; 1] -/
  machine : Bool := true
  /-- program counter [64 bits; 12 R409; PRESUMED 0, log 16] -/
  pc : BitVec 64 := 0
  /-- integer registers x1 to x31 [31 x 64 bits; 12 R407; DESIGN CHOICE 0, log 16] -/
  x : List (BitVec 64) := []
  /-- floating registers [32 x 64 bits; 12 R407; DESIGN CHOICE 0, log 16] -/
  f : List (BitVec 64) := []
  /-- vector registers [32 x 256 bits; 12 R407; DESIGN CHOICE 0, log 16] -/
  v : List (BitVec 256) := []
  /-- supervisor and machine CSRs by number [4,096 x 64 bits; 12 R407; DESIGN CHOICE 0, log 16] -/
  csr : Tbl (BitVec 64) := []
  /-- reservation of lr [line of the caches or none; 12 R414; none] -/
  resv : Option Nat := none
  /-- IMSIC pending identities by 256 * file + identity: file 0 machine, 1 supervisor, 2 to 6 guest [7 x 255 bits; 12 R417; 0] -/
  imsicPend : Tbl Bool := []
  deriving DecidableEq, Repr

/-- R416: lines held in a stack's core caches. -/
structure CacheLine where
  bytes : List Byte
  dirty : Bool
  /-- poison mark per 32 B half -/
  poison : BitVec 2
  deriving DecidableEq, Repr

/-- R423 to R428: one media channel. -/
structure Media where
  /-- function state [2 bits; 15 R502; STOPPED] -/
  fstate : FState := .stopped
  /-- descriptor window [16 words; 12 R428; DESIGN CHOICE 0, log 12] -/
  window : List Word := []
  /-- jobs queued [4 descriptors; 12 R423; empty] -/
  queue : List Desc := []
  /-- job being decoded [one or none; 12 R425; none] -/
  job : Option Desc := none
  /-- MEDIA_STAT.CONTEXT [1 bit; 12 R428; 0] -/
  context : Bool := false
  /-- tensors written by the job [16 bits; 12 R426; 0] -/
  frames : Nat := 0
  /-- the job has ended on damage, poison or an unsupported stream with this status [8 bits or none; 12 R426; none] -/
  ended : Option Byte := none
  /-- completion records with their frame counts [list; 12 R428; empty] -/
  cpl : List (CplRec × Nat) := []
  /-- time at which STOPPING began [10 ns units; 15 R500; 0] -/
  stopAt : Nat := 0
  deriving DecidableEq, Repr

/-- R449, R457: `PART_TDI_STAT.STATE`. -/
inductive Tdi where
  | unlocked | locked | run | error
  deriving DecidableEq, Repr

/-- R444: what the key engine is doing. -/
inductive KeyReq where
  | svnCommit (target : Nat) | revoke (slot : BitVec 2)
  deriving DecidableEq, Repr

/-- R429, R437, R445, R447, R452: hidden security state. -/
structure Sec where
  /-- key engine request in progress [one or none; 13 R444; none] -/
  req : Option KeyReq := none
  /-- DeviceID private key held [1 bit; 13 R434; 0] -/
  devidKey : Bool := false
  /-- measurement block M the alias key was derived from [bytes; 13 R432; empty] -/
  aliasM : List Byte := []
  /-- secure sessions per function [at most 32 in all; 13 R445; 0] -/
  sessions : Tbl Nat := []
  /-- selective IDE stream bound to a function and its state, insecure or not [17 + 1 streams; 13 R447; none] -/
  ideBound : Tbl Bool := []
  ideInsecure : Tbl Bool := []
  /-- measurements 1 to 16 and 32 to 39 per function, as digests [bytes each; 13 R445; empty] -/
  meas : Tbl (List Byte) := []
  /-- debug token window [1,024 bytes; 13 R451; DESIGN CHOICE 0, log 12] -/
  tokenWin : Tbl Byte := []
  deriving DecidableEq, Repr

/-- R492: a phased reset in progress. -/
structure ResetRun where
  scope : Scope
  startAt : Nat
  /-- drain limit sampled at the start, 10 ns units -/
  limit : Nat
  zeroFill : Bool := false
  retest : Bool := false
  /-- quiesce and drain are over; the scope is cleared and waits for its release -/
  cleared : Bool := false
  deriving DecidableEq, Repr

/-- R464: the device record and coolant parameters read at boot. -/
structure CoolParm where
  /-- pulses per litre [400 to 10,000; 14 R464; DESIGN CHOICE 0 before boot, log 25] -/
  ppl : Nat := 0
  /-- thermal-resistance baseline per stack, mK/W [16 values; 14 R464; DESIGN CHOICE 0 before boot, log 25] -/
  rBase : List Nat := []
  /-- COOL_WAIT in ms [500 to 10,000; 14 R464; DESIGN CHOICE 0 before boot, log 25] -/
  coolWait : Nat := 0
  deriving DecidableEq, Repr

/-- R479, R480: one flood receiver. -/
structure Receiver where
  /-- payload blocks of its sections installed: the bitmap's set bits [list; 14 R479; none] -/
  got : List Nat := []
  /-- blocks it has asked for in the current repair round [list; 14 R480; none] -/
  asked : List Nat := []
  /-- held out after the third round [1 bit; 14 R481; 0] -/
  out : Bool := false
  deriving DecidableEq, Repr

/-- R458 to R490: hidden boot state. -/
structure Boot where
  /-- a boot is running [1 bit; 14 R459; 0] -/
  running : Bool := false
  /-- dies whose identification was read at stage 0x07 [17 bits; 19 R624; none] -/
  answered : List Nat := []
  /-- stages of the boot that have ended, by code [16; 14 R459; none] -/
  passed : List Nat := []
  /-- start time of the boot [10 ns units; 14 R490; 0] -/
  startAt : Nat := 0
  /-- start time of each stage that has started [10 ns units; 14 R461; none] -/
  stageAt : Tbl Nat := []
  /-- slot order for this boot, A first [1 bit; 14 R458; 1] -/
  aFirst : Bool := true
  /-- slots that failed in the current series of restarts, B as true [set; 14 R458; empty] -/
  failedSlots : List Bool := []
  /-- NEXT_SLOT written for the next cold boot [2 bits; 14 R490; 0] -/
  nextSlot : BitVec 2 := 0
  /-- slot that booted last is B [1 bit; 14 R458; 0] -/
  lastSlot : Bool := false
  /-- boot number [32 bits; 14 R489; 0] -/
  number : Nat := 0
  /-- boot log entries written so far: where the ring stands [count; 14 R489; 0] -/
  logNext : Nat := 0
  /-- coolant parameters in force [record; 14 R464; none] -/
  cool : CoolParm := {}
  /-- device record read at boot [17 words; 14 R464; empty] -/
  devRec : List Word := []
  /-- the digest block: payload blocks of the flood with their digests [list; 14 R478; empty] -/
  digests : List (Nat × List Byte) := []
  /-- first block and number of blocks of the core, plot and microcode sections [3 ranges; 14 R466; none] -/
  sections : List (Nat × Nat) := []
  /-- flood receivers: plot 32 s + p, core complex 512 + s [528; 14 R477; empty] -/
  recv : Tbl Receiver := []
  /-- digest of the header and digest list of the image that boots [32 bytes; 13 R432; empty] -/
  imgHash : List Byte := []
  /-- the flood runs [1 bit; 14 R478; 0] -/
  flooding : Bool := false
  /-- a repair round is in progress [1 bit; 14 R480; 0] -/
  roundOn : Bool := false
  /-- settings store command running: command, address, stage it was given in, 0 for none [2 + 26 + 5 bits or none; 14 R487; none] -/
  sstore : Option (BitVec 2 × Nat × Nat) := none
  deriving DecidableEq, Repr

/-- R515: a queued or running self-test. -/
structure TestReq where
  id : Nat
  test : Byte
  scopeKind : Byte
  stack : Nat
  idx : Nat
  when : Nat
  limit : Nat
  /-- ring command (function, ring key, id), or none for a boot or reset test -/
  job : Option (Nat × Nat × Nat)
  deriving DecidableEq, Repr

/-- R512: a SPARE_IN in progress. -/
structure SpareRun where
  stack : Nat
  plot : Nat
  site : Nat
  lost : Bool
  part : Nat
  job : Nat × Nat × Nat
  deriving DecidableEq, Repr

/-- R523: one defect-list entry, 16 bytes as 4 words. -/
abbrev Defect := List Word

/-- R511, R515: hidden fault state. -/
structure Faults where
  /-- proposal FIFO [16 entries; 15 R511; empty] -/
  props : List Defect := []
  /-- self-test queue [32 entries; 15 R515; empty] -/
  tests : List TestReq := []
  /-- self-tests running [list; 15 R523; empty] -/
  running : List TestReq := []
  /-- name given to the next test [counter; model's own; 0] -/
  nextTest : Nat := 0
  /-- resets in progress [list; 15 R492; empty] -/
  resets : List ResetRun := []
  /-- SPARE_INs in progress [list; 15 R512; empty] -/
  spares : List SpareRun := []
  deriving DecidableEq, Repr

/-- R525, R526: one on-die thermal sensor. -/
structure Sensor where
  /-- last ten samples, newest first [10 of 16 bits, 0.0625 C; 16 R525; empty] -/
  last : List Int := []
  /-- last raw code [12 bits; 16 R525; 0] -/
  raw : Nat := 0
  /-- it has been sampled: VALID reads 0 before [1 bit; 16 R554; 0] -/
  seen : Bool := false
  /-- samples since the raw code last changed [count; 16 R526; 0] -/
  same : Nat := 0
  /-- samples since a condition of R526 was last met [count; 16 R526; 0] -/
  clean : Nat := 0
  /-- samples of the 100 ms period so far: sum and count [sums; 16 R525; 0] -/
  sum : Int := 0
  cnt : Nat := 0
  /-- previous 100 ms mean as sum and count [value or none; 16 R526; none] -/
  prev : Option (Int × Nat) := none
  /-- ignored, with cause 1 to 3 [2 bits; 16 R526; 0] -/
  cause : Nat := 0
  /-- the latest self-test 0x09 has failed [1 bit; 16 R526; 0] -/
  calFail : Bool := false
  /-- a self-test 0x09 runs [1 bit; 16 R529; 0] -/
  calibrating : Bool := false
  /-- consecutive samples at or above the hard limit [count; 16 R531; 0] -/
  hardCnt : Nat := 0
  deriving DecidableEq, Repr

/-- R547: a stack's coolant state. -/
inductive CoolSt where
  | normal | derated | degraded
  deriving DecidableEq, Repr

/-- R545: a P-state change in progress. -/
structure PChange where
  target : Nat
  /-- the voltage rises before the clock switches -/
  raising : Bool
  /-- the feeders hold issue for the switch -/
  hold : Bool
  deriving DecidableEq, Repr

/-- R546: the means of one second. -/
structure SecMean where
  temp : Int
  inlet : Int
  power : Nat
  /-- the inlet was valid throughout -/
  ok : Bool
  /-- the deciding temperature at its end -/
  last : Int
  deriving DecidableEq, Repr

/-- Hidden state of one stack: governor, refresh, logs. -/
structure Stack where
  /-- held in reset: dormant, held out, lost or in reset [1 bit; 10 R326, 14 R473; 1] -/
  inReset : Bool := true
  /-- stack die lost [1 bit; 15 R506; 0] -/
  lost : Bool := false
  /-- band in force at the slice controllers [3 bits; 07 R233; Normal] -/
  applied : Nat := 1
  /-- time of a band change not yet applied [10 ns units or none; 07 R233; none] -/
  bandAt : Option Nat := none
  /-- power level and thermal level [4 bits each; 16 R535; 0] -/
  pLevel : Nat := 0
  tLevel : Nat := 0
  /-- power estimates in mW, newest first, 1 ms [100 of 10 us; 16 R536; empty] -/
  power : List Nat := []
  /-- means of the last ten seconds, newest first [10 records; 16 R546; empty] -/
  secs : List SecMean := []
  /-- sums of the current second: power, deciding temperature [sums and counts; 16 R546; 0] -/
  powSum : Nat := 0
  powCnt : Nat := 0
  tempSum : Int := 0
  tempCnt : Nat := 0
  /-- deciding temperature [16 bits, 0.0625 C, or none; 16 R530; none] -/
  temp : Option Int := none
  /-- the mean has stood at or above 92 % of the cap in the current 100 us [1 bit; 16 R539; 0] -/
  above92 : Bool := false
  /-- power levels seen since the latest P-state decision, and estimates since the level last read above 0 [sum and counts; 16 R544; 0] -/
  lvlSum : Nat := 0
  lvlCnt : Nat := 0
  zeroCnt : Nat := 0
  /-- emergency halt by a trip or a lost clock [1 bit; 16 R531, 01 R27; 0] -/
  halt : Bool := false
  /-- halted because no band sensor is valid [1 bit; 16 R528; 0] -/
  sensHalt : Bool := false
  /-- measures of R528 in force for the pair, all band sensors, all logic sensors: control loops since the sensors returned [counts or none; 16 R528; none] -/
  pairLost : Option Nat := none
  bandLost : Option Nat := none
  logicLost : Option Nat := none
  /-- control loops for which the pair has stood so as to change DISAGREE [count; 16 R527; 0] -/
  pairCnt : Nat := 0
  /-- coolant state [2 bits; 16 R547; NORMAL] -/
  cool : CoolSt := .normal
  /-- coolant cap in percent [7 bits; 16 R547; 100] -/
  coolCap : Nat := 100
  /-- target of the coolant cap in percent [7 bits; 16 R547; 100] -/
  coolTarget : Nat := 100
  /-- seconds for which the leaving condition has held [count; 16 R547; 0] -/
  coolCnt : Nat := 0
  /-- P-state change in progress [one or none; 16 R545; none] -/
  change : Option PChange := none
  /-- VDD_ARR requested, mV [10 bits; 01 R29; 700 by R30 step 6] -/
  vdd : Nat := 700
  /-- regulator did not acknowledge: P-state 4 forced [1 bit; 16 R544; 0] -/
  pmbBad : Bool := false
  /-- arrays waiting for a start permit, oldest grant position [5 bits; 16 R541; 0] -/
  rrPtr : Nat := 0
  /-- ARR cycle of the last start permit [cycle; 16 R541; 0] -/
  permitAt : Nat := 0
  /-- bank permits released, with time [list; 09 R303; empty] -/
  released : List Nat := []
  /-- WU counted since the last feed frame [64 bits; 17 R564; 0] -/
  wu : Nat := 0
  /-- core firmware SRAM [1 MiB; 12 R408, 14 R466; DESIGN CHOICE 0, log 9] -/
  coreFw : Tbl Byte := []
  /-- plot sites marked bad [sites; 14 R467; none until stage 0x08] -/
  badSites : List Nat := []
  /-- plot sites whose plot SPARE_IN has replaced [sites; 15 R512; none] -/
  usedSites : List Nat := []
  deriving DecidableEq, Repr

/-- R548: one condition that the supervisor watches. -/
structure CoolCond where
  /-- in force [1 bit; 16 R548; 0] -/
  on : Bool := false
  /-- periods for which the condition that would change it has held [count; 16 R548; 0] -/
  cnt : Nat := 0
  deriving DecidableEq, Repr

/-- R546 to R550: coolant supervisor. -/
structure Coolant where
  /-- FLOW_PULSE edges since the latest estimate [count; 01 R24; 0] -/
  pulses : Nat := 0
  /-- sensor reads since the pulses became active [count; 16 R550; 0] -/
  flowReads : Nat := 0
  /-- inlet temperatures of the current second: sum and count, and an invalid read among them [16 R546; 0] -/
  inSum : Int := 0
  inCnt : Nat := 0
  inBad : Bool := false
  /-- the conditions of R548: inlet hot, inlet cold, flow low, sensor invalid [4 conditions; 16 R548; clear] -/
  hot : CoolCond := {}
  cold : CoolCond := {}
  low : CoolCond := {}
  bad : CoolCond := {}
  /-- the flow has been absent for 0.5 s and has not come back [1 bit; 16 R549; 0] -/
  noFlow : Bool := false
  /-- the second trigger of R549 held at the latest estimate [1 bit; 16 R549; 0] -/
  ramp : Bool := false
  /-- emergency halt in force, package-wide [1 bit; 16 R549; 0] -/
  halted : Bool := false
  deriving DecidableEq, Repr

/-- R568: one tollhouse record (values before they are laid out in 512 B). -/
structure TollRec where
  seq : Nat
  bytes : List Byte
  deriving DecidableEq, Repr

/-- R557 to R581: the tollhouse. What `kept` marks survives power loss. -/
structure Toll where
  /-- metering [1 bit; 17 R559; 0] -/
  on : Bool := false
  /-- energy since the last millisecond, in uW x 10 us, with the remainder below 1 uJ carried [20 counts; 17 R563, R566; 0] -/
  acc : Tbl Nat := []
  /-- a sample has come since the last millisecond [1 bit; 17 R566; 0] -/
  msOpen : Bool := false
  /-- energy of this second per channel, whole uJ [20; 17 R563; 0] -/
  sec : Tbl Nat := []
  /-- stack energy attributed this second in uJ: partition 0 to 15, 17 unassigned [18; 17 R566; 0] -/
  acct : Tbl Nat := []
  /-- work units attributed this second per partition [16; 17 R566; 0] -/
  wu : Tbl Nat := []
  /-- bytes this second per partition, 16 for the device [17; 17 R567; 0] -/
  bytes : Tbl Nat := []
  /-- last valid frame of the second [one or none; 17 R567; none] -/
  frame : Option FeedFrame := none
  /-- FLAGS gathered for the record of this second [5 bits; 17 R568; POWER_ON after power-up] -/
  flags : BitVec 5 := 1
  /-- seconds since this power cycle began [32 bits; 17 R568; 0] -/
  second : Nat := 0
  /-- calibration set that applies from the next whole second [bytes or none; 17 R578; none] -/
  newCal : Option (List Byte) := none
  /-- SUMMARY_MIN that applies from the next summary boundary [6 bits or none; 17 R578; none] -/
  newMin : Option Nat := none
  /-- the latest write to its memory failed [1 bit; 17 R571; 0] -/
  memFault : Bool := false
  /-- records written in this power cycle [count; 17 R568; 0] -/
  alive : Nat := 0
  /-- time at which the last record was written [10 ns units; 17 R576; 0] -/
  lastAt : Nat := 0
  /-- records held in SRAM after a memory fault [3,600; 17 R571; empty] -/
  sram : List TollRec := []
  /-- SUMMARYs held in SRAM after a memory fault [list; 17 R571; empty] -/
  sramSum : List TollRec := []
  /-- record ring in SPI memory, newest first, kept [345,600 of 512 B; 17 R569; empty] -/
  ring : List TollRec := []
  /-- summaries, newest first, kept [1 KiB each, 96 h; 17 R569; empty] -/
  sums : List TollRec := []
  /-- last SEQ written, kept [64 bits; 17 R568; DESIGN CHOICE 0, log 73] -/
  seq : Nat := 0
  /-- power cycles since manufacture, kept [32 bits; 17 R568; DESIGN CHOICE 0, log 73] -/
  cycle : Nat := 0
  /-- seal counter in one-time-programmable memory, kept [0 to 256; 17 R578; DESIGN CHOICE 0, log 73] -/
  sealCnt : Nat := 0
  /-- calibration set in SPI memory, kept [bytes; 17 R577; DESIGN CHOICE empty, log 73] -/
  cal : List Byte := []
  /-- the set passes its HMAC and is in use [1 bit; 17 R577; DESIGN CHOICE 1, log 73] -/
  calOk : Bool := true
  /-- SUMMARY_MIN, kept [6 bits; 17 R569; 15] -/
  summaryMin : Nat := 15
  /-- first SEQ of the open summary interval, kept [64 bits; 17 R569; 1] -/
  sumFirst : Nat := 1
  /-- audit log, newest first, kept [4,096 entries of 64 B; 17 R579; empty] -/
  audit : List (List Byte) := []
  /-- accepted changes among the audit entries, kept [count; 17 R579; 0] -/
  auditAcc : Nat := 0
  /-- pin events and rejections only counted, kept [count; 17 R579; 0] -/
  auditOver : Nat := 0
  /-- tollhouse public-key hash [256 bits; 17 R578; DESIGN CHOICE 0, log 73] -/
  keyHash : List Byte := []
  /-- calibration authority hashes [2 x 256 bits; 17 R578; DESIGN CHOICE 0, log 73] -/
  authHash : List (List Byte) := []
  /-- software version [32 bits; 17 R580; DESIGN CHOICE 0, log 73] -/
  version : Word := 0
  /-- ROM checksum [256 bits; 17 R580; DESIGN CHOICE 0, log 73] -/
  checksum : List Byte := []
  /-- mailboxes with a request pending [at most 17; 17 R572; empty] -/
  queue : List Nat := []
  /-- mailbox served last [5 bits; 17 R572; 16] -/
  lastBox : Nat := 16
  /-- request being served: mailbox, code and response [one or none; 17 R575; none] -/
  resp : Option (Nat × Byte × List Byte) := none
  deriving DecidableEq, Repr

/-- R586, R590: one counter set's banks. -/
structure CntSet where
  /-- LIVE and HELD counters by index [64 bits each; 18 R586; 0] -/
  live : Tbl Nat := []
  held : Tbl Nat := []
  /-- CNT_STAT.SEQ, BOUNDARY [16 + 1 bits; 18 R590; 0] -/
  seq : BitVec 16 := 0
  boundary : Bool := false
  /-- HELD_TAG, LIVE_TAG [16 bits each; 18 R590; 0] -/
  heldTag : BitVec 16 := 0
  liveTag : BitVec 16 := 0
  /-- CNT_TIME [64 bits; 18 R590; 0] -/
  time : Nat := 0
  deriving DecidableEq, Repr

/-- R593: a stop unit taking part in a stop. -/
structure StopUnit where
  who : UnitId
  /-- first marker (or GO) has come: starts nothing new -/
  started : Bool := false
  /-- snapshot time -/
  snapAt : Option Nat := none
  forced : Bool := false
  /-- inputs whose marker has come, with delay -/
  marked : List (Nat × Nat) := []
  /-- inputs recorded incomplete -/
  incomplete : List Nat := []
  /-- items held per input -/
  items : Tbl Nat := []
  deriving DecidableEq, Repr

/-- R600 to R602: a sounding or stop record. -/
structure DbgRec where
  who : UnitId
  sounding : Bool
  /-- only the header was written (R591) -/
  locked : Bool
  trunc : Bool
  time : Nat
  stopId : Nat
  /-- what became of the unit's inputs; while a stop is in force its own list holds it -/
  ends : Option StopUnit
  body : List Byte
  deriving DecidableEq, Repr

/-- Hidden debug state. -/
structure Dbg where
  /-- sounding records [one per unit; 18 R591; none] -/
  snd : List DbgRec := []
  /-- sounding in progress [1 bit and start time; 18 R591; none] -/
  sndAt : Option Nat := none
  /-- stop records [one per unit; 18 R600; none] -/
  recs : List DbgRec := []
  /-- units of the stop in force [list; 18 R593; empty] -/
  units : List StopUnit := []
  /-- time of GO of the stop in force [10 ns units or none; 18 R596; none] -/
  stopAt : Option Nat := none
  /-- a stop waits for a sounding to end [1 bit; 18 R599; 0] -/
  stopWait : Bool := false
  /-- held token tallies: plot * 64 + counter [16 bits each; 18 R593; 0] -/
  tally : Tbl Nat := []
  /-- plot, reach and partition resets held until release, in arrival order [list; 18 R599; empty] -/
  heldResets : List ResetRun := []
  /-- posted writes to BAR2 and BAR4 dropped by the stop in force [count; 18 R595; 0] -/
  dropped : Nat := 0
  /-- completions the landing holds: function, request, outcome, data [list; 18 R595; empty] -/
  heldCpls : List (Nat × Nat × Bool × List Byte) := []
  /-- record window [2,048 bytes; 18 R608; 0] -/
  window : List Byte := []
  /-- watch point match counts: ((n * 512 + plot)), for run number [counts; 18 R604; 0] -/
  wpCount : Tbl (Nat × Nat) := []
  /-- watch points that have reached OCC and whose action is due [list; 18 R604; empty] -/
  wpDue : List Nat := []
  /-- plots that start nothing new from a match with ACTION 2 [list of plot keys; 18 R604; empty] -/
  wpHold : List Nat := []
  /-- DBG_ACCESS result: STATUS and DATA [2 + 32 bits; 18 R607; 0] -/
  accStat : BitVec 2 := 0
  accData : Word := 0
  /-- DMI data last returned [64 bits; 18 R606; DESIGN CHOICE 0, log 69] -/
  dmiData : BitVec 64 := 0
  /-- registers of the halted ditch rider that the debug module has read or written, by their debug numbers [64 bits each; 18 R606; none, log 69] -/
  rider : Tbl (Option (BitVec 64)) := []
  /-- harts halted by the debug module: core, 1024 + plot for a steward, 4096 for the ditch rider [set; 18 R606; empty] -/
  dmiHalt : List Nat := []
  /-- halted harts, core or 1024 + plot, that the debug module lets execute one instruction [set; 18 R606; empty] -/
  dmiStep : List Nat := []
  deriving DecidableEq, Repr

/-- R18, R21, R27, R31: the package's pins and what the clock monitors see. -/
structure Pins where
  /-- PWR_GOOD [1 bit; 01 R18; 0 (pull-down)] -/
  pwrGood : Bool := false
  /-- PERST_N is low [1 bit; 01 R18; DESIGN CHOICE 1, log 11] -/
  perst : Bool := true
  /-- THERMTRIP_N is low, latched [1 bit; 01 R22; 0] -/
  thermtrip : Bool := false
  /-- REFCLK_SYS absent: every domain but TOLL held until PERST_N is asserted and released [1 bit; 01 R27; 0] -/
  sysLost : Bool := false
  /-- REFCLK_XNG present [1 bit; 01 R27; DESIGN CHOICE 1, log 11] -/
  xngClk : Bool := true
  /-- PERST_N was released while PWR_GOOD was low: the boot starts when PWR_GOOD rises [1 bit; 01 R31; 0] -/
  released : Bool := false
  /-- BOOT_MODE as sampled at the last release [2 bits; 01 R21; 0] -/
  bootMode : BitVec 2 := 0
  /-- TOLL_CAL_EN, seen by the tollhouse only [1 bit; 01 R18, 17 R579; 0 (pull-down)] -/
  calEn : Bool := false
  deriving DecidableEq, Repr

/-- R1 to R4, R429, R430, R442, R443, R463, R467, R472, R624: what the fuses hold. -/
structure Fuses where
  /-- active stack positions [16 bits; 00 R2; DESIGN CHOICE all 16, a VY-9160, log 10] -/
  stackEn : List (Fin 16) := [0, 1, 2, 3, 4, 5, 6, 7, 8, 9, 10, 11, 12, 13, 14, 15]
  /-- speed grade -E [1 bit; 00 R3; DESIGN CHOICE 0, grade -F, log 10] -/
  gradeE : Bool := false
  /-- plot sites marked bad at test, stack * 64 + site [list; 14 R467; DESIGN CHOICE none, log 10] -/
  badSites : List Nat := []
  /-- crossings with a lane channel found bad at package test [list; 14 R467; DESIGN CHOICE none, log 10] -/
  badLanes : List Nat := []
  /-- DRAM rows repaired by fuse: (plot key, bank, row) [list; 08 R258; DESIGN CHOICE none, log 10] -/
  rowFix : List (Nat × Nat × Nat) := []
  /-- firmware key hashes in slots 0 to 3 [4 of 256 bits; 13 R429; DESIGN CHOICE empty, log 10] -/
  keyHash : List (List Byte) := []
  /-- revoked key slots [4 bits; 13 R443; 0] -/
  revoked : BitVec 4 := 0
  /-- fused security version [0 to 64; 13 R442; DESIGN CHOICE 0, log 10] -/
  svn : Nat := 0
  /-- unique device secret UDS, read by the key engine only [256 bits; 13 R429; DESIGN CHOICE 0, log 10] -/
  uds : List Word := []
  /-- device identity certificate DEVID_CERT [4 KiB; 13 R429; DESIGN CHOICE empty, log 10] -/
  devidCert : List Byte := []
  /-- device identity hash SEC_DEVID_HASH [256 bits; 13 R456; DESIGN CHOICE 0, log 10] -/
  devidHash : List Word := []
  /-- die revisions, serials and feature masks: stack 0 to 15, I/O die 16 [17 each; 19 R624; DESIGN CHOICE 0, log 10] -/
  rev : Tbl Byte := []
  serial : Tbl (BitVec 64) := []
  feature : Tbl (BitVec 64) := []
  deriving DecidableEq, Repr

/-- What leaves a unit and has not arrived, or leaves the package. -/
inductive Msg where
  /-- R133: tokens on the token lane -/
  | add (dst src : Loc) (ctr amount : BitVec 6)
  | credit (dst src : Loc) (slot : BitVec 5) (n : BitVec 7)
  | fenced (dst src : Loc) (slot : BitVec 5)
  | bargeGo (dst src : Loc) (c : BitVec 2)
  | wake (dst src : Loc)
  | reserved (dst src : Loc) (tok : BitVec 16)
  | marker (from_ : UnitId) (stop : Byte)
  /-- R183: a stream flit -/
  | flit (dst : Loc) (hg : BitVec 5) (sid : BitVec 16) (src : Loc) (slot : BitVec 5) (data : FlitData)
  /-- R321, R333: a write of host memory by a function -/
  | hostWrite (f : Nat) (addr : BitVec 64) (data : List Byte) (poison : Bool)
  /-- R325: an MSI-X message -/
  | msix (f : Nat) (vec : Nat)
  /-- R29: VOUT_COMMAND to a stack's regulator, in mV -/
  | pmbus (s : Nat) (mv : Nat)
  /-- R320, R319: a completion to a host read, AtomicOp or configuration read -/
  | cplD (f : Nat) (ok : Bool) (data : List Byte) (poison : Bool)
  /-- R320: unsupported request or completer abort -/
  | cplErr (f : Nat) (abort : Bool)
  /-- R316: Configuration Request Retry Status -/
  | retry (f : Nat)
  /-- R369: a crossing flit sent -/
  | xflit (n : Nat) (flit : List Byte)
  /-- R195: a die-to-die frame sent -/
  | frame (die m : Nat) (bytes : List Byte)
  /-- R445: an SPDM response -/
  | spdm (f : Nat) (body : List Byte)
  /-- R575: a mailbox response -/
  | tollResp (m : Nat)
  /-- R464: console output -/
  | uart (text : List Byte)
  deriving DecidableEq, Repr

/-- R178, R180: a packet or token inside the fabric: the site that holds it, the input it came in by, its class
(0 STREAM, 1 REQ, 2 RSP, 3 token lane) and what it is. Edge hubs are sites 30 and 35; the I/O die's fabric has one
place per stack it joins. -/
structure NetPkt where
  die : Nat
  site : Nat
  inp : Nat
  cls : Fin 4
  src : Loc
  dst : Loc
  msg : Msg
  deriving DecidableEq, Repr

/-- R199: a request sent across a far end and not answered: who asked, and whether it reads. -/
structure ReqEnt where
  src : Loc
  read : Bool
  deriving DecidableEq, Repr

/-- R320, R319, R316: what the latest access was answered with: the model's own record of the value a read, an
AtomicOp or a push returned. -/
structure Reply where
  /-- data returned, low byte first -/
  data : List Byte := []
  /-- the answer carries the poison mark -/
  poison : Bool := false
  /-- unsupported request, completer abort or another refusal -/
  err : Bool := false
  deriving DecidableEq, Repr

/-- The whole package. -/
structure State where
  /-- time since power-up [10 ns units of the device time base; 04 R143, 18 R586; 0] -/
  tb : Nat := 0
  /-- free values drawn so far [counter; the model's own; DESIGN CHOICE 0, log 5] -/
  freeCtr : Nat := 0
  /-- what the latest access answered [record; the model's own; DESIGN CHOICE empty, log 7] -/
  reply : Reply := {}
  /-- the clock of every domain the device controls is stopped [1 bit; 01 R22, R27; 0] -/
  clocksOff : Bool := false
  pins : Pins := {}
  fuses : Fuses := {}
  /-- register words by register address, unlisted reads as its reset word [32 bits each; 19 R609; see the table] -/
  regs : Tbl Word := []
  /-- captured `_HI` words of the register pairs, by the address of `_HI` [32 bits each; 00 R8; none] -/
  caps : Tbl (Option Word) := []
  /-- plots by 32 * stack + plot [512; 04 R95; see Plot] -/
  plots : Tbl Plot := []
  /-- plot barge channels by 4 * (32 * stack + plot) + channel, I/O die channels by 2048 + channel [2,080; 05 R151; see Chan] -/
  chans : Tbl Chan := []
  /-- slice controllers by 32 * stack + plot [512; 07 R206; see Slice] -/
  slices : Tbl Slice := []
  /-- norias by 32 * stack + plot [512; 09 R272; see Noria] -/
  norias : Tbl Noria := []
  /-- cistern bytes by plot key * 2^31 + offset [512 of 2 GiB; 07 R206; DESIGN CHOICE 0, log 8] -/
  dram : Tbl Byte := []
  /-- check-byte difference from a clean code word, by plot key * 2^26 + word: 0 for a clean word [32 bits each; 08 R239; DESIGN CHOICE 0, log 8] -/
  chk : Tbl Word := []
  /-- fabric packets and tokens on their way, oldest first [list; 06 R177; empty] -/
  net : List NetPkt := []
  /-- round-robin place of each router output: last (input * 4 + class) served [small number each; 06 R178; DESIGN CHOICE 0, log 14] -/
  rr : Tbl Nat := []
  /-- die-to-die module ends by die * 64 + module [192; 06 R174; see Link] -/
  links : Tbl Link := []
  /-- requests outstanding by die * 32 + far end [1,024 entries each; 06 R199; empty] -/
  reqTabs : Tbl (List ReqEnt) := []
  /-- stacks [16; 00 R1; see Stack] -/
  stks : Tbl Stack := []
  /-- die temperature sensors by 16 * die + index [13 for each of 16 stacks, 8 for the I/O die; 16 R524; see Sensor] -/
  sensors : Tbl Sensor := []
  coolant : Coolant := {}
  /-- partitions [16; 10 R326; see Part] -/
  parts : Tbl Part := []
  /-- rings by 4 * function + ring [68; 10 R329; see Ring] -/
  rings : Tbl Ring := []
  /-- PCIe functions: 0 physical, 1 to 16 virtual [17; 10 R315; see Func] -/
  funcs : Tbl Func := []
  /-- landing error counts of QUERY kind 3, in the order of R351 [8 of 32 bits; 10 R351; 0] -/
  lndErr : Tbl Nat := []
  /-- PCIe configuration bytes by function * 4096 + offset [17 of 4 KiB; 10 R316; PRESUMED 0 but for the identity bytes, log 19] -/
  cfg : Tbl Byte := []
  /-- error report FIFOs by function [17; 08 R264; see ErrFifo] -/
  errs : Tbl ErrFifo := []
  /-- crossings [32; 11 R361; see Xng] -/
  xngs : Tbl Xng := []
  /-- collective endpoints [32; 11 R384; see Endpoint] -/
  eps : Tbl Endpoint := []
  /-- group slots [16; 11 R385; see Group] -/
  groups : Tbl Group := []
  coll : CollEng := {}
  /-- host-class cores by 8 * stack + core [128; 12 R406; see HCore] -/
  cores : Tbl HCore := []
  /-- lines held in the core caches, by stack * 2^34 + cistern * 2^25 + line of the cistern [64 B lines; 12 R413; empty] -/
  caches : Tbl (Option CacheLine) := []
  /-- media channels [32; 12 R423; see Media] -/
  media : Tbl Media := []
  sec : Sec := {}
  boot : Boot := {}
  /-- settings store bytes [64 MiB, off the package; 14 R462; PRESUMED 0xFF erased flash, log 23] -/
  store : Tbl Byte := []
  faults : Faults := {}
  dbg : Dbg := {}
  /-- counter sets by set number [see CntSet; 18 R582; see CntSet] -/
  cnts : Tbl CntSet := []
  toll : Toll := {}
  /-- everything the package has sent outside, or to a unit that takes it by an event, newest last [list; the model's own; empty, log 7] -/
  wire : List Msg := []
  /-- commands waiting, first in first out [list; the model's own; empty] -/
  pending : List Instr := []
  deriving DecidableEq, Repr

/-- The machine right after reset: power is absent and PWR_GOOD is low, every unit at its reset value (R11, R13). -/
def State.reset : State := {}

/-- Why the machine stops. No command of this model does: every command of the table has an effect, a refusal that
the spec itself describes as an answer, or nothing to act on. -/
inductive Fault where
  /-- an access to a byte of the address space that the spec says does not exist. No command raises it now. Safe. -/
  | noSuchByte
  deriving DecidableEq, Repr

/-- Why a command has no meaning. -/
inductive Refusal where
  /-- a command that has no meaning yet, by its mnemonic. Raised by Dispatch alone. Safe. -/
  | notModelled (mnemonic : String)
  deriving DecidableEq, Repr

end Sys2Proof.Machine
end

