-- ==== Sys2Proof/Machine/Ops.lean ====
section
/-!
DEFINITION. Ops.lean: the operations every command shares. Register addresses and the page directory; the accessors of
each kind of unit; stored register fields; free values; messages; interrupts and counters; partitions and owners; which
pages are live and visible; error reports.
-/
namespace Sys2Proof.Machine

/-- What a command answers. -/
abbrev Out := Host.Outcome State Fault Refusal

/-! ### Keys of units -/

/-- The plot key 32 * stack + logical plot. -/
def plotKey (p : PlotId) : Nat := 32 * p.st.val + p.pl.val

/-- The channel key. -/
def chanKey : ChanId → Nat
  | .plot p c => 4 * plotKey p + c.val
  | .iod n => 2048 + n.val

/-- The ring key 4 * function + ring. -/
def ringKey (g : RingId) : Nat := 4 * g.f.val + g.r.val

/-- The module key 64 * die + module. -/
def modKey (m : ModId) : Nat := 64 * m.die.val + m.m.val

/-- The fabric place of a plot. -/
def plotLoc (k : Nat) : Loc := ⟨BitVec.ofNat 5 (k / 32), BitVec.ofNat 5 (k % 32)⟩

/-- The plot key of a fabric place on a stack. -/
def locKey (l : Loc) : Nat := 32 * l.die.toNat + l.plot.toNat

/-! ### Accessors -/

/-- The reset value of a channel: R501, a plot channel runs and an I/O die channel is stopped. -/
def chanReset (k : Nat) : Chan := if k < 2048 then {} else { state := .stopped }

/-- Channel `k`. -/
def State.chan (s : State) (k : Nat) : Chan := tget (chanReset k) s.chans k

/-- Replace channel `k`. -/
def State.setChan (s : State) (k : Nat) (x : Chan) : State := { s with chans := tput (chanReset k) s.chans k x }

/-- Change channel `k`. -/
def State.updChan (s : State) (k : Nat) (f : Chan → Chan) : State := s.setChan k (f (s.chan k))

/-- Entry `k` of `plots`. -/
def State.plot (s : State) (k : Nat) : Plot := tget ({} : Plot) s.plots k

/-- Replace entry `k` of `plots`. -/
def State.setPlot (s : State) (k : Nat) (x : Plot) : State := { s with plots := tput ({} : Plot) s.plots k x }

/-- Change entry `k` of `plots`. -/
def State.updPlot (s : State) (k : Nat) (f : Plot → Plot) : State := s.setPlot k (f (s.plot k))

/-- Entry `k` of `slices`. -/
def State.slc (s : State) (k : Nat) : Slice := tget ({} : Slice) s.slices k

/-- Replace entry `k` of `slices`. -/
def State.setSlc (s : State) (k : Nat) (x : Slice) : State := { s with slices := tput ({} : Slice) s.slices k x }

/-- Change entry `k` of `slices`. -/
def State.updSlc (s : State) (k : Nat) (f : Slice → Slice) : State := s.setSlc k (f (s.slc k))

/-- Entry `k` of `norias`. -/
def State.nor (s : State) (k : Nat) : Noria := tget ({} : Noria) s.norias k

/-- Replace entry `k` of `norias`. -/
def State.setNor (s : State) (k : Nat) (x : Noria) : State := { s with norias := tput ({} : Noria) s.norias k x }

/-- Change entry `k` of `norias`. -/
def State.updNor (s : State) (k : Nat) (f : Noria → Noria) : State := s.setNor k (f (s.nor k))

/-- Entry `k` of `links`. -/
def State.link (s : State) (k : Nat) : Link := tget ({} : Link) s.links k

/-- Replace entry `k` of `links`. -/
def State.setLink (s : State) (k : Nat) (x : Link) : State := { s with links := tput ({} : Link) s.links k x }

/-- Change entry `k` of `links`. -/
def State.updLink (s : State) (k : Nat) (f : Link → Link) : State := s.setLink k (f (s.link k))

/-- Entry `k` of `stks`. -/
def State.stk (s : State) (k : Nat) : Stack := tget ({} : Stack) s.stks k

/-- Replace entry `k` of `stks`. -/
def State.setStk (s : State) (k : Nat) (x : Stack) : State := { s with stks := tput ({} : Stack) s.stks k x }

/-- Change entry `k` of `stks`. -/
def State.updStk (s : State) (k : Nat) (f : Stack → Stack) : State := s.setStk k (f (s.stk k))

/-- Entry `k` of `sensors`. -/
def State.sensor (s : State) (k : Nat) : Sensor := tget ({} : Sensor) s.sensors k

/-- Replace entry `k` of `sensors`. -/
def State.setSensor (s : State) (k : Nat) (x : Sensor) : State := { s with sensors := tput ({} : Sensor) s.sensors k x }

/-- Change entry `k` of `sensors`. -/
def State.updSensor (s : State) (k : Nat) (f : Sensor → Sensor) : State := s.setSensor k (f (s.sensor k))

/-- Entry `k` of `parts`. -/
def State.part (s : State) (k : Nat) : Part := tget ({} : Part) s.parts k

/-- Replace entry `k` of `parts`. -/
def State.setPart (s : State) (k : Nat) (x : Part) : State := { s with parts := tput ({} : Part) s.parts k x }

/-- Change entry `k` of `parts`. -/
def State.updPart (s : State) (k : Nat) (f : Part → Part) : State := s.setPart k (f (s.part k))

/-- Entry `k` of `rings`. -/
def State.ring (s : State) (k : Nat) : Ring := tget ({} : Ring) s.rings k

/-- Replace entry `k` of `rings`. -/
def State.setRing (s : State) (k : Nat) (x : Ring) : State := { s with rings := tput ({} : Ring) s.rings k x }

/-- Change entry `k` of `rings`. -/
def State.updRing (s : State) (k : Nat) (f : Ring → Ring) : State := s.setRing k (f (s.ring k))

/-- Entry `k` of `funcs`. -/
def State.func (s : State) (k : Nat) : Func := tget ({} : Func) s.funcs k

/-- Replace entry `k` of `funcs`. -/
def State.setFunc (s : State) (k : Nat) (x : Func) : State := { s with funcs := tput ({} : Func) s.funcs k x }

/-- Change entry `k` of `funcs`. -/
def State.updFunc (s : State) (k : Nat) (f : Func → Func) : State := s.setFunc k (f (s.func k))

/-- Entry `k` of `errs`. -/
def State.errf (s : State) (k : Nat) : ErrFifo := tget ({} : ErrFifo) s.errs k

/-- Replace entry `k` of `errs`. -/
def State.setErrf (s : State) (k : Nat) (x : ErrFifo) : State := { s with errs := tput ({} : ErrFifo) s.errs k x }

/-- Change entry `k` of `errs`. -/
def State.updErrf (s : State) (k : Nat) (f : ErrFifo → ErrFifo) : State := s.setErrf k (f (s.errf k))

/-- Entry `k` of `xngs`. -/
def State.xng (s : State) (k : Nat) : Xng := tget ({} : Xng) s.xngs k

/-- Replace entry `k` of `xngs`. -/
def State.setXng (s : State) (k : Nat) (x : Xng) : State := { s with xngs := tput ({} : Xng) s.xngs k x }

/-- Change entry `k` of `xngs`. -/
def State.updXng (s : State) (k : Nat) (f : Xng → Xng) : State := s.setXng k (f (s.xng k))

/-- Entry `k` of `eps`. -/
def State.ep (s : State) (k : Nat) : Endpoint := tget ({} : Endpoint) s.eps k

/-- Replace entry `k` of `eps`. -/
def State.setEp (s : State) (k : Nat) (x : Endpoint) : State := { s with eps := tput ({} : Endpoint) s.eps k x }

/-- Change entry `k` of `eps`. -/
def State.updEp (s : State) (k : Nat) (f : Endpoint → Endpoint) : State := s.setEp k (f (s.ep k))

/-- Entry `k` of `groups`. -/
def State.grp (s : State) (k : Nat) : Group := tget ({} : Group) s.groups k

/-- Replace entry `k` of `groups`. -/
def State.setGrp (s : State) (k : Nat) (x : Group) : State := { s with groups := tput ({} : Group) s.groups k x }

/-- Change entry `k` of `groups`. -/
def State.updGrp (s : State) (k : Nat) (f : Group → Group) : State := s.setGrp k (f (s.grp k))

/-- Entry `k` of `cores`. -/
def State.core (s : State) (k : Nat) : HCore := tget ({} : HCore) s.cores k

/-- Replace entry `k` of `cores`. -/
def State.setCore (s : State) (k : Nat) (x : HCore) : State := { s with cores := tput ({} : HCore) s.cores k x }

/-- Change entry `k` of `cores`. -/
def State.updCore (s : State) (k : Nat) (f : HCore → HCore) : State := s.setCore k (f (s.core k))

/-- Entry `k` of `media`. -/
def State.med (s : State) (k : Nat) : Media := tget ({} : Media) s.media k

/-- Replace entry `k` of `media`. -/
def State.setMed (s : State) (k : Nat) (x : Media) : State := { s with media := tput ({} : Media) s.media k x }

/-- Change entry `k` of `media`. -/
def State.updMed (s : State) (k : Nat) (f : Media → Media) : State := s.setMed k (f (s.med k))

/-- Entry `k` of `cnts`. -/
def State.cnt (s : State) (k : Nat) : CntSet := tget ({} : CntSet) s.cnts k

/-- Replace entry `k` of `cnts`. -/
def State.setCnt (s : State) (k : Nat) (x : CntSet) : State := { s with cnts := tput ({} : CntSet) s.cnts k x }

/-- Change entry `k` of `cnts`. -/
def State.updCnt (s : State) (k : Nat) (f : CntSet → CntSet) : State := s.setCnt k (f (s.cnt k))

/-- Entry `k` of `reqTabs`. -/
def State.reqTab (s : State) (k : Nat) : List ReqEnt := tget ([] : List ReqEnt) s.reqTabs k

/-- Replace entry `k` of `reqTabs`. -/
def State.setReqTab (s : State) (k : Nat) (x : List ReqEnt) : State := { s with reqTabs := tput ([] : List ReqEnt) s.reqTabs k x }

/-- Change entry `k` of `reqTabs`. -/
def State.updReqTab (s : State) (k : Nat) (f : List ReqEnt → List ReqEnt) : State := s.setReqTab k (f (s.reqTab k))

/-! ### Register addresses and the directory -/

/-- R609: the register address of a die, page and offset. -/
def regAddr (die page off : Nat) : Nat := die * 2097152 + page * 4096 + off

/-- R609: die, page and offset of a register address. -/
def addrDie (a : Nat) : Nat := a / 2097152 % 32

/-- Page of a register address. -/
def addrPage (a : Nat) : Nat := a / 4096 % 512

/-- Offset of a register address. -/
def addrOff (a : Nat) : Nat := a % 4096

/-- R620 to R622, R628: `TYPE` and `INSTANCE` of a page; none for a reserved page or die. -/
def pageType (die page : Nat) : Option (Nat × Nat) :=
  if die < 16 then
    if page < 256 then
      let p := page / 8
      match page % 8 with
      | 0 => some (0x001, p)
      | 1 => some (0x002, p)
      | 2 => some (0x003, 4 * p)
      | 3 => some (0x003, 4 * p + 1)
      | 4 => some (0x003, 4 * p + 2)
      | 5 => some (0x003, 4 * p + 3)
      | 6 => some (0x004, p)
      | _ => none
    else if page < 0x120 then some (0x005, page - 0x100)
    else if page < 0x140 then some (0x006, page - 0x120)
    else if page < 0x144 then some (0x007, page - 0x140)
    else if page < 0x148 then some (0x008, page - 0x144)
    else if page = 0x148 then some (0x009, 0)
    else if page = 0x149 then some (0x00A, 0)
    else if page = 0x14A then some (0x00B, 0)
    else if page = 0x14B then some (0x00C, 0)
    else if page = 0x14F then some (0x00D, 0)
    else if 0x150 ≤ page ∧ page < 0x150 + 56 then some (0x00E, page - 0x150)
    else if page = 0x1F0 then some (0x00F, 0)
    else none
  else if die = 16 then
    if page < 0x00D then
      match page with
      | 0x000 => some (0x010, 0)
      | 0x001 => some (0x011, 0)
      | 0x002 => some (0x012, 0)
      | 0x003 => some (0x013, 0)
      | 0x004 => some (0x014, 0)
      | 0x005 => some (0x015, 0)
      | 0x006 => some (0x016, 0)
      | 0x007 => some (0x017, 0)
      | 0x008 => some (0x018, 0)
      | 0x009 => some (0x019, 0)
      | 0x00A => some (0x01A, 0)
      | 0x00B => some (0x01B, 0)
      | _ => some (0x01C, 0)
    else if page = 0x00E then some (0x01D, 0)
    else if 0x010 ≤ page ∧ page < 0x020 then some (0x01E, page - 0x010)
    else if 0x020 ≤ page ∧ page < 0x040 then some (0x01F, page - 0x020)
    else if 0x040 ≤ page ∧ page < 0x060 then some (0x020, page - 0x040)
    else if 0x060 ≤ page ∧ page < 0x080 then some (0x021, page - 0x060)
    else if 0x080 ≤ page ∧ page < 0x0A0 then some (0x022, page - 0x080)
    else if 0x100 ≤ page ∧ page < 0x180 then
      match page % 8 with
      | 0 => some (0x023, (page - 0x100) / 8)
      | 1 => some (0x024, (page - 0x100) / 8)
      | 2 => some (0x025, (page - 0x100) / 8)
      | 3 => some (0x01D, (page - 0x100) / 8 + 1)
      | _ => none
    else if page = 0x1F0 then some (0x00F, 0)
    else none
  else if die = 17 then (if page < 17 then some (0x026, page) else none)
  else if die < 27 then (if page = 0 then some (0x027, die - 18) else none)
  else none

/-- R628: clock domain of a block type (R615's codes). -/
def typeDomain (ty : Nat) : Nat :=
  if ty = 0x001 then 0
  else if ty = 0x005 ∨ ty = 0x006 ∨ ty = 0x00B then 3
  else if ty = 0x00D ∨ ty = 0x00E then 2
  else if ty ≤ 0x00C then 1
  else if (0x00F ≤ ty ∧ ty ≤ 0x013) ∨ ty = 0x027 then 8
  else 5

/-- R619, R628: `LOCK_SCOPE` of a page: 0 plot, 1 reach, 2 partition, 3 assignment, 4 package. -/
def typeLock (ty inst : Nat) : Nat :=
  if ty ≤ 0x004 then 0
  else if ty = 0x007 ∨ ty = 0x008 then 1
  else if ty ≤ 0x00E then 2
  else if ty = 0x023 ∨ ty = 0x025 then 2
  else if ty = 0x024 then 3
  else if ty = 0x01D ∧ inst ≠ 0 then 2
  else 4

/-- R628: `VF_VISIBLE`. -/
def typeVf (ty inst : Nat) : Bool :=
  (ty ≤ 0x008) || ty == 0x00D || ty == 0x00E || ty == 0x019 || ty == 0x01A || ty == 0x01B ||
  (ty == 0x01D && inst != 0) || (0x020 ≤ ty && ty ≤ 0x025) || (ty == 0x026 && inst != 0)

/-- R628: `FUNCTION`. -/
def typeFn (ty : Nat) : Bool :=
  ty == 0x002 || ty == 0x003 || ty == 0x01F || ty == 0x020 || ty == 0x021 || ty == 0x022 || ty == 0x023

/-- R620, R621: addresses of the pages the model names. -/
def arrReg (p off : Nat) : Nat := regAddr (p / 32) (8 * (p % 32)) off
def pqReg (p off : Nat) : Nat := regAddr (p / 32) (8 * (p % 32) + 1) off
def slcReg (p off : Nat) : Nat := regAddr (p / 32) (0x100 + p % 32) off
def norReg (p off : Nat) : Nat := regAddr (p / 32) (0x120 + p % 32) off
def rhReg (st q off : Nat) : Nat := regAddr st (0x140 + q) off
def dfReg (die off : Nat) : Nat := if die < 16 then regAddr die 0x148 off else regAddr 16 0x007 off
def smReg (st off : Nat) : Nat := regAddr st 0x14A off
def govReg (st off : Nat) : Nat := regAddr st 0x14B off
def ccReg (st off : Nat) : Nat := regAddr st 0x14F off
def pkgReg (off : Nat) : Nat := regAddr 16 0x000 off
def bootReg (off : Nat) : Nat := regAddr 16 0x001 off
def fltReg (off : Nat) : Nat := regAddr 16 0x002 off
def thmReg (off : Nat) : Nat := regAddr 16 0x003 off
def secReg (off : Nat) : Nat := regAddr 16 0x004 off
def lndReg (off : Nat) : Nat := regAddr 16 0x005 off
def dbgReg (off : Nat) : Nat := regAddr 16 0x006 off
def xpkReg (off : Nat) : Nat := regAddr 16 0x008 off
def colReg (off : Nat) : Nat := regAddr 16 0x009 off
def errReg (f off : Nat) : Nat := if f = 0 then regAddr 16 0x00E off else regAddr 16 (0x103 + 8 * (f - 1)) off
def xngReg (n off : Nat) : Nat := regAddr 16 (0x020 + n) off
def medReg (n off : Nat) : Nat := regAddr 16 (0x060 + n) off
def epReg (n off : Nat) : Nat := regAddr 16 (0x080 + n) off
def partReg (p off : Nat) : Nat := regAddr 16 (0x100 + 8 * p) off
def comReg (p off : Nat) : Nat := regAddr 16 (0x101 + 8 * p) off
def psecReg (p off : Nat) : Nat := regAddr 16 (0x102 + 8 * p) off
def mbReg (m off : Nat) : Nat := regAddr 17 m off
def ferReg (n off : Nat) : Nat := regAddr (18 + n) 0 off

/-- The page of a barge channel. -/
def brgReg (k off : Nat) : Nat :=
  if k < 2048 then regAddr (k / 128) (8 * (k / 4 % 32) + 2 + k % 4) off else regAddr 16 (0x040 + (k - 2048)) off

/-- The ring registers: the physical function's on the landing page, a virtual function's on its partition page. -/
def ringReg (g off : Nat) : Nat :=
  if g < 4 then lndReg (0x100 + 0x40 * g + off) else partReg (g / 4 - 1) (0x100 + 0x40 * (g % 4) + off)

/-! ### Stored registers -/

/-- Whether a field row covers an offset. -/
def RField.covers (f : RField) (off : Nat) : Bool :=
  if f.n ≤ 1 then off == f.off
  else decide (f.off ≤ off) && decide ((off - f.off) / f.stride < f.n) && (off - f.off) % f.stride == 0

/-- R11: the reset word of a register. -/
def resetOf (fs : List RField) (off : Nat) : Nat :=
  fs.foldl (fun acc f => if f.covers off then putBits acc f.lsb f.w f.rst else acc) 0

/-- R11, R615: the reset word at a register address. -/
def regReset (a : Nat) : Word :=
  match pageType (addrDie a) (addrPage a) with
  | none => 0
  | some (ty, _) =>
    BitVec.ofNat 32 (resetOf (if addrOff a < 0x40 ∧ addrOff a ≠ 0x00C then hdrFields else fieldsOf ty) (addrOff a))

/-- The stored word of a register. -/
def State.reg (s : State) (a : Nat) : Word := tget (regReset a) s.regs a

/-- Replace the stored word of a register. -/
def State.setReg (s : State) (a : Nat) (w : Word) : State := { s with regs := tput (regReset a) s.regs a w }

/-- A stored field. -/
def State.fld (s : State) (a lo w : Nat) : Nat := nbits (s.reg a).toNat lo w

/-- Replace a stored field. -/
def State.setFld (s : State) (a lo w x : Nat) : State :=
  s.setReg a (BitVec.ofNat 32 (putBits (s.reg a).toNat lo w x))

/-- A stored one-bit field. -/
def State.bit (s : State) (a i : Nat) : Bool := s.fld a i 1 == 1

/-- Set a stored bit to 1. -/
def State.setBit (s : State) (a i : Nat) : State := s.setFld a i 1 1

/-- Clear a stored bit. -/
def State.clrBit (s : State) (a i : Nat) : State := s.setFld a i 1 0

/-- Add to a stored saturating field. -/
def State.addFld (s : State) (a lo w n : Nat) : State := s.setFld a lo w (satAdd w (s.fld a lo w) n)

/-- R146, R615: a hardware event sets a bit of the page's `HDR_IRQ_STAT`; `a` is any address of the page. -/
def State.irq (s : State) (a i : Nat) : State := s.setBit (a / 4096 * 4096 + 0x014) i

/-- R615: the page counts an error and keeps the device address of the latest. -/
def State.pageErr (s : State) (a addr : Nat) : State :=
  let b := a / 4096 * 4096
  ((s.addFld (b + 0x020) 0 32 1).setReg (b + 0x024) (BitVec.ofNat 32 addr)).setReg (b + 0x028) (BitVec.ofNat 32 (nbits addr 32 16))

/-- Return every register of the page at `a` (any address of it) to its reset value, and drop its captures. -/
def State.resetPage (s : State) (a : Nat) : State :=
  { s with regs := tkeep s.regs (fun k => k / 4096 != a / 4096), caps := tkeep s.caps (fun k => k / 4096 != a / 4096) }

/-! ### Free values, messages -/

/-- Draw an open value. -/
def State.free (s : State) : Nat := Config.freeNat s.freeCtr

/-- Note that an open value was drawn. -/
def State.drawn (s : State) : State := { s with freeCtr := s.freeCtr + 1 }

/-- Send a message out of the package, or to a unit that takes it by an event. -/
def State.send (s : State) (m : Msg) : State := { s with wire := s.wire ++ [m] }

/-- R207: the site of a logical plot on its die (R172). -/
def siteOf (s : State) (k : Nat) : Nat := s.fld (dfReg (k / 32) (0x040 + k % 32 / 4 * 4)) (8 * (k % 4)) 6

/-- Put a packet or token into the fabric at its source. -/
def State.inject (s : State) (cls : Fin 4) (src dst : Loc) (m : Msg) : State :=
  let die := src.die.toNat
  let site := if die < 16 then siteOf s (locKey src) else dst.die.toNat % 16
  { s with net := s.net ++ [⟨die, site, 4, cls, src, dst, m⟩] }

/-- R593, R596: an item that comes between a unit's snapshot and the marker of its input `i` counts as in flight. -/
def StopUnit.note (i : Nat) (x : StopUnit) : StopUnit :=
  if x.snapAt.isNone || x.marked.any (fun m => m.1 == i) || x.incomplete.contains i then x
  else { x with items := tput 0 x.items i (tget 0 x.items i + 1) }

/-- The same for unit `u` of the stop in force. -/
def State.noteItem (s : State) (u : UnitId) (i : Nat) : State :=
  { s with dbg := { s.dbg with units := s.dbg.units.map fun x => if x.who == u then x.note i else x } }

/-- R594: the stop unit at a fabric place. -/
def locUnit (l : Loc) : UnitId := if l.die.toNat < 16 then ⟨Fin.ofNat 17 l.die.toNat, 0, l.plot.toNat⟩ else ⟨16, 8, l.plot.toNat⟩

/-- R593: an item that reaches a unit after its snapshot is held where it arrived. -/
def State.holdMsg (s : State) (cls : Fin 4) (src dst : Loc) (m : Msg) : State :=
  let s1 := s.noteItem (locUnit dst) cls.val
  if s.net.any (fun p => p.msg == m) then s1
  else { s1 with net := s.net ++ [⟨dst.die.toNat, siteOf s (locKey dst), 255, cls, src, dst, m⟩] }

/-- Take the first packet of the fabric that carries this message: it has arrived. -/
def State.arrived (s : State) (m : Msg) : State := { s with net := s.net.eraseP (fun p => p.msg == m) }

/-! ### Counters (R582 to R585) -/

/-- The number of a counter set: plots, then reaches, stack dies, I/O die, barges, package. -/
def cntKey : CntId → Nat
  | .plot p => plotKey p
  | .reach st q => 512 + 4 * st.val + q.val
  | .die st => 576 + st.val
  | .iod => 592
  | .barge => 593
  | .package => 594

/-- The counter page of a set. -/
def cntPage (k off : Nat) : Nat :=
  if k < 512 then regAddr (k / 32) (8 * (k % 32) + 6) off
  else if k < 576 then regAddr ((k - 512) / 4) (0x144 + k % 4) off
  else if k < 592 then regAddr (k - 576) 0x149 off
  else if k = 592 then regAddr 16 0x00A off
  else if k = 593 then regAddr 16 0x00B off
  else regAddr 16 0x00C off

/-- R585: add to LIVE counter `i` of set `k`, saturating at 64 bits and noting it. -/
def State.count (s : State) (k i n : Nat) : State :=
  let c := s.cnt k
  let v := tget 0 c.live i + n
  let s' := s.setCnt k { c with live := tput 0 c.live i (min v (2 ^ 64 - 1)) }
  if v ≥ 2 ^ 64 then s'.setBit (cntPage k 0x044) 17 else s'

/-- The set and first index of a barge channel's counters (R583, R584). -/
def chanCnt (k i : Nat) : Nat × Nat :=
  if k < 2048 then (k / 4, 16 + 5 * (k % 4) + i) else (593, 5 * (k - 2048) + i)

/-- Add to counter `i` of a barge channel. -/
def State.countChan (s : State) (k i n : Nat) : State := s.count (chanCnt k i).1 (chanCnt k i).2 n

/-- R586: a switch of counter set `k`. -/
def State.cntSwitch (s : State) (k : Nat) (boundary : Bool) (tag : Option (BitVec 16)) : State :=
  s.updCnt k fun c =>
    { held := c.live, live := [], heldTag := c.liveTag, liveTag := tag.getD c.liveTag, boundary := boundary,
      seq := c.seq + 1, time := s.tb }

/-! ### Stacks, partitions, owners -/

/-- R2: the position is not disabled by fuse. -/
def activeStack (s : State) (st : Nat) : Bool := s.fuses.stackEn.any (fun x => x.val == st)

/-- R2, R214, R326: the stacks of an arc of `2 ^ log2` from `first`, in ring order, disabled positions skipped. -/
def arcFrom (s : State) (first log2 : Nat) : List Nat :=
  (((List.range 16).map fun i => (first + i) % 16).filter (activeStack s)).take (2 ^ log2)

/-- The stacks of partition `n`; none where it is not assigned. -/
def arcOf (s : State) (n : Nat) : List Nat :=
  if (s.part n).assigned then arcFrom s (s.part n).first (s.part n).sizeLog2 else []

/-- The partition that holds a stack. -/
def partOf (s : State) (st : Nat) : Option Nat := (List.range 16).find? fun n => (arcOf s n).contains st

/-- R468: the stack has a good site for logical plot `k % 32`: of 34 sites those marked bad have no number. -/
def plotReported (s : State) (k : Nat) : Bool :=
  activeStack s (k / 32) && decide (k % 32 + (s.stk (k / 32)).badSites.length < 34)

/-- R212: the number of logical plots a stack reports. -/
def plotCount (s : State) (st : Nat) : Nat := ((List.range 32).filter fun p => plotReported s (32 * st + p)).length

/-- R99, R191: the plot is fenced. -/
def fenced (s : State) (k : Nat) : Bool := s.bit (rhReg (k / 32) (k % 32 / 8) 0x040) (k % 8)

/-- The owner of an I/O die barge channel (R168, R169): none where it is not assigned. -/
def brgOwner (s : State) (n : Nat) : Option Nat :=
  if s.bit (brgReg (2048 + n) 0x05C) 4 then some (s.fld (brgReg (2048 + n) 0x05C) 0 4) else none

/-- The owner of a media channel (R428). -/
def medOwner (s : State) (n : Nat) : Option Nat :=
  if s.bit (medReg n 0x044) 4 then some (s.fld (medReg n 0x044) 0 4) else none

/-- The owner of a collective endpoint (R403). -/
def epOwner (s : State) (n : Nat) : Option Nat :=
  if s.bit (colReg (0x040 + 4 * n)) 4 then some (s.fld (colReg (0x040 + 4 * n)) 0 4) else none

/-- The owner of a group slot (R403). -/
def grpOwner (s : State) (g : Nat) : Option Nat :=
  if s.bit (colReg (0x0C0 + 4 * g)) 4 then some (s.fld (colReg (0x0C0 + 4 * g)) 0 4) else none

/-- The partition of a channel. -/
def chanOwner (s : State) (k : Nat) : Option Nat :=
  if k < 2048 then partOf s (k / 128) else brgOwner s (k - 2048)

/-- R449, R457: the partition's TDI reads CONFIG_LOCKED or RUN. -/
def tdiLocked (s : State) (n : Nat) : Bool :=
  s.fld (psecReg n 0x064) 0 2 == 1 || s.fld (psecReg n 0x064) 0 2 == 2

/-! ### Whether units run -/

/-- The package has power, its clocks run and it is out of reset. -/
def pkgUp (s : State) : Bool :=
  s.pins.pwrGood && !s.pins.perst && !s.pins.sysLost && !s.clocksOff

/-- The stack is out of reset: its pages are live. -/
def stackUp (s : State) (st : Nat) : Bool := pkgUp s && activeStack s st && !(s.stk st).inReset && !(s.stk st).lost

/-- R612: a plot's pages are live: its stack is up, the stack reports it and no reset holds it. -/
def plotUp (s : State) (k : Nat) : Bool :=
  stackUp s (k / 32) && plotReported s k &&
  !(s.faults.resets.any fun r => r.cleared && (match r.scope with
      | .plot p => plotKey p == k
      | .reach st q => k / 32 == st.val && k % 32 / 8 == q.val
      | _ => false))

/-- R593: the stop unit has taken its snapshot and starts nothing until release. -/
def stopped (s : State) (u : UnitId) : Bool := s.dbg.units.any fun x => x.who == u && x.snapAt.isSome

/-- R593: the stop unit has seen its first marker: it starts nothing new. -/
def stopping (s : State) (u : UnitId) : Bool := s.dbg.units.any fun x => x.who == u && x.started

/-- The stop unit of a plot. -/
def plotUnit (k : Nat) : UnitId := ⟨Fin.ofNat 17 (k / 32), 0, k % 32⟩

/-- R491: plot `k` lies in a reset scope. -/
def inScope (s : State) (k : Nat) : Scope → Bool
  | .plot p => plotKey p == k
  | .reach st q => k / 32 == st.val && k % 32 / 8 == q.val
  | .part n => (arcOf s n.val).contains (k / 32)
  | .package _ => true

/-- R492: a reset of the plot or of a wider scope is under way: units start nothing new. -/
def quiesced (s : State) (k : Nat) : Bool := s.faults.resets.any fun r => inScope s k r.scope

/-- R492: a package reset is under way. -/
def pkgQuiesced (s : State) : Bool := s.faults.resets.any fun r => match r.scope with | .package _ => true | _ => false

/-- R516: a test that runs while its scope has work. -/
def inBand (t : TestReq) : Bool := t.test == 6 || t.test == 8 || t.test == 9

/-- R515: the scope of a test holds plot `k`. -/
def testCovers (t : TestReq) (k : Nat) : Bool :=
  match t.scopeKind.toNat with
  | 0 => 32 * t.stack + t.idx == k
  | 1 => k / 32 == t.stack && k % 32 / 8 == t.idx
  | 2 => k / 32 == t.stack
  | _ => false

/-- R517: work for plot `k` or its cistern waits until a test that is not in-band ends. -/
def testHolds (s : State) (k : Nat) : Bool := s.faults.running.any fun t => !inBand t && testCovers t k

/-- A plot may start work: it is live, has not failed (R509), and no stop, reset or test has reached it. -/
def plotGo (s : State) (k : Nat) : Bool :=
  plotUp s k && (s.plot k).failed.isNone && !stopping s (plotUnit k) && !quiesced s k && !testHolds s k

/-- A plot may finish what it has begun. -/
def plotRun (s : State) (k : Nat) : Bool := plotUp s k && (s.plot k).failed.isNone && !stopped s (plotUnit k)

/-! ### Reports and interrupts -/

/-- R418: the core interrupt of a partition's events, routed by the register of the arc's first stack. -/
def State.routeIrq (s : State) (n : Nat) : State :=
  match arcOf s n with
  | [] => s
  | st :: _ =>
    let a := ccReg st 0x05C
    if s.bit a 11 ∧ s.fld a 3 8 ≠ 0 then
      s.updCore (8 * st + s.fld a 0 3) fun C => { C with imsicPend := tput false C.imsicPend (256 + s.fld a 3 8) true }
    else s

/-- R325, R418: an MSI-X message of a function, and the core interrupt that goes with vectors 0 and 6. -/
def State.msix (s : State) (f vec : Nat) : State :=
  let s1 := s.send (.msix f vec)
  if f ≠ 0 ∧ (vec = 0 ∨ vec = 6) then s1.routeIrq (f - 1) else s1

/-- R251, R264: milliseconds since the last package reset. -/
def msNow (s : State) : Nat := (s.tb - s.boot.startAt) / 100000

/-- R264: one record into the FIFO of function `f`. -/
def State.pushRpt (s : State) (f : Nat) (r : ErrRpt) : State :=
  let q := s.errf f
  if q.recs.length ≥ 64 then s.addFld (errReg f 0x050) 16 16 1
  else
    let s' := s.setErrf f { q with recs := q.recs ++ [r] }
    if q.recs.isEmpty then s'.msix f 0 else s'

/-- R264, R265, R270: a report from a unit of partition `own`, if it has one. -/
def State.report (s : State) (own : Option Nat) (code sev die plot addr : Nat) : State :=
  let r : ErrRpt :=
    { code := BitVec.ofNat 8 code, sev := BitVec.ofNat 2 sev, die := BitVec.ofNat 5 die, plot := BitVec.ofNat 5 plot,
      addr := BitVec.ofNat 48 addr, time := BitVec.ofNat 32 (msNow s) }
  let s1 := s.pushRpt 0 r
  match own with
  | some n => s1.pushRpt (n + 1) r
  | none => s1

/-- R23, R32, R325: an alert cause is set: ALERT_N is driven, and vector 5 of the physical function is raised. -/
def State.alert (s : State) (i : Nat) : State :=
  let was := s.fld (thmReg 0x040) 0 12
  let s1 := (s.setBit (thmReg 0x040) i).setBit (pkgReg 0x044) 2
  let s2 := if was = 0 then s1.count 594 3 1 else s1
  if nbit was i then s2 else s2.msix 0 5

/-! ### Register access errors (R612, R623) -/

/-- Number of the requester in `PKG_REGERR_HI.SOURCE`. -/
def reqSource : Req → Nat
  | .pf => 0
  | .vf n => n.val + 1
  | .core _ _ _ => 17
  | .debug => 18
  | .rider => 19
  | .steward _ => 20

/-- R623: log the first refused access since `VALID` was cleared, and count every one. -/
def State.regErr (s : State) (addr cause : Nat) (r : Req) : State :=
  let s1 := s.count 594 2 1
  if s1.bit (pkgReg 0x054) 31 then s1
  else
    (s1.setReg (pkgReg 0x050) (BitVec.ofNat 32 addr)).setReg (pkgReg 0x054)
      (BitVec.ofNat 32 (nbits addr 32 16 + cause * 2 ^ 16 + reqSource r * 2 ^ 20 + 2 ^ 31))

/-- R211, R623: the device address of a register. -/
def devReg (a : Nat) : Nat := 0x8000_0000_0000 + a

/-- R612, R624: the page is live. -/
def pageLive (s : State) (die page : Nat) : Bool :=
  if page = 0x1F0 ∧ die ≤ 16 then pkgUp s && s.boot.answered.contains die
  else if die < 16 then
    if page < 0x100 then plotUp s (32 * die + page / 8)
    else if page < 0x140 then stackUp s die && plotReported s (32 * die + page % 32)
    else stackUp s die
  else pkgUp s

/-- R410, R618, R627: the partition a requester acts for; none for the device's own. -/
def reqPart (s : State) : Req → Option Nat
  | .vf n => some n.val
  | .core st _ _ => partOf s st.val
  | .steward p => partOf s p.st.val
  | _ => none

/-- R403, R625: partition `n` sees the header and the `COLL_GRP` registers of its own slots. -/
def collOwn (s : State) (n off : Nat) : Bool :=
  decide (off < 0x040) || decide (0x0C0 ≤ off) && decide (off < 0x100) && grpOwner s ((off - 0x0C0) / 4) == some n ||
  decide (0x100 ≤ off) && decide (off < 0x200) && grpOwner s ((off - 0x100) / 16) == some n

/-- R410, R607, R627: the requester may see the register. -/
def pageVisible (s : State) (r : Req) (die page off : Nat) : Bool :=
  match pageType die page with
  | none => true
  | some (ty, inst) =>
    match r with
    | .pf => !(ty == 0x00E && inst % 7 == 0)
    | .rider => true
    | .debug => true
    | .steward p => die == p.st.val && page / 8 == p.pl.val && page < 256
    | .vf _ | .core _ _ _ =>
      match reqPart s r with
      | none => false
      | some n =>
        if die < 16 then
          (arcOf s n).contains die &&
          (if ty ≤ 0x004 || ty == 0x006 || ty == 0x007 || ty == 0x008 || ty == 0x00D then true
           else if ty == 0x005 then decide (0x040 ≤ off) && decide (off < 0x050)
           else if ty == 0x00E then
             (if inst % 7 == 0 then (match r with | .core st _ m => m && st.val == die | _ => false) else true)
           else false)
        else if die = 16 then
          (ty == 0x023 || ty == 0x024 || ty == 0x025) && inst == n ||
          ty == 0x01D && inst == n + 1 || ty == 0x019 && collOwn s n off || ty == 0x01A || ty == 0x01B ||
          ty == 0x020 && brgOwner s inst == some n || ty == 0x021 && medOwner s inst == some n ||
          ty == 0x022 && epOwner s inst == some n
        else if die = 17 then inst == n + 1
        else false

/-- A steward's own access, which does not cross the ejection filter. -/
def reqLocal : Req → Bool
  | .steward _ => true
  | _ => false

/-! ### Core exceptions (R410; PRESUMED from RISC-V, log 16) -/

/-- A CSR. -/
def HCore.getCsr (C : HCore) (n : Nat) : Nat := (tget 0 C.csr n).toNat

/-- Write a CSR. -/
def HCore.setCsr (C : HCore) (n v : Nat) : HCore := { C with csr := tput 0 C.csr n (BitVec.ofNat 64 v) }

/-- A precise exception: to HS mode where machine mode has delegated it, else to machine mode. -/
def HCore.trap (C : HCore) (cause tval : Nat) : HCore :=
  let m := C.getCsr 0x300
  if !C.machine && nbit (C.getCsr 0x302) cause then
    let D := ((C.setCsr 0x141 C.pc.toNat).setCsr 0x142 cause).setCsr 0x143 tval
    { D.setCsr 0x300 (putBits (putBits (putBits m 5 1 (nbits m 1 1)) 1 1 0) 8 1 1) with
      pc := BitVec.ofNat 64 (C.getCsr 0x105 / 4 * 4) }
  else
    let D := ((C.setCsr 0x341 C.pc.toNat).setCsr 0x342 cause).setCsr 0x343 tval
    { D.setCsr 0x300 (putBits (putBits (putBits m 7 1 (nbits m 3 1)) 3 1 0) 11 2 (if C.machine then 3 else 1)) with
      pc := BitVec.ofNat 64 (C.getCsr 0x305 / 4 * 4), machine := true }

/-- R606: hart `h` has executed the one instruction that a step lets it execute. -/
def State.hartStepped (s : State) (h : Nat) : State := { s with dbg := { s.dbg with dmiStep := s.dbg.dmiStep.filter (· != h) } }

/-- R606: hart `h` is not halted by the debug module, or a step lets it execute one instruction. -/
def hartFree (s : State) (h : Nat) : Bool := !s.dbg.dmiHalt.contains h || s.dbg.dmiStep.contains h

/-- The core takes an exception. -/
def State.coreTrap (s : State) (n cause tval : Nat) : State := (s.updCore n fun C => C.trap cause tval).hartStepped n

/-- R490: `BOOT_STAT.STATE`: 0 BOOTING, 1 READY, 2 LOW_WATER. -/
def bootState (s : State) : Nat := s.fld (bootReg 0x040) 5 2

/-- The requester comes by the landing. -/
def reqHost : Req → Bool
  | .pf => true
  | .vf _ => true
  | _ => false

/-- Management software makes the access. -/
def isMgmt : Req → Bool
  | .pf => true
  | .rider => true
  | .debug => true
  | _ => false

/-- R485: the pages that low-water mode keeps. -/
def lowWaterPage (die page : Nat) : Bool := die == 16 && (page == 0x000 || page == 0x001 || page == 0x004 || page == 0x00E)

/-- R607: the debug path reaches registers from level 1 on; level 1 writes counter pages and the debug page only. -/
def debugMay (s : State) (rd : Bool) (die page : Nat) : Bool :=
  let level := s.fld (secReg 0x080) 0 2
  level == 2 || level == 1 && (rd || (match pageType die page with
    | some (ty, _) => ty == 0x004 || ty == 0x008 || ty == 0x00A || ty == 0x016 || ty == 0x01A || ty == 0x01B || ty == 0x01C
    | none => false))

/-- R322, R497: a virtual function whose partition is FREE or RESETTING. -/
def vfDark (s : State) : Req → Bool
  | .vf n => (s.part n.val).state == .free || (s.part n.val).state == .resetting
  | _ => false

/-- R410: the partition filter stops the access in the core. -/
def filtered (s : State) (r : Req) (die page off : Nat) : Bool :=
  match r with
  | .core _ _ _ => (pageType die page).isNone || !pageVisible s r die page off
  | _ => false

/-- R410, R412: a core makes an access only while it is released. -/
def reqRuns (s : State) : Req → Bool
  | .core st k _ => (s.core (8 * st.val + k.val)).released && hartFree s (8 * st.val + k.val)
  | .steward p => hartFree s (1024 + plotKey p)
  | _ => true

/-- What becomes of a register access. -/
inductive Reach where
  /-- it is served -/
  | ok
  /-- it is dropped without a log: in a package without power or clocks, until READY, with JTAG locked, or from a core
  that does not run -/
  | gone
  /-- R191: the ejection filter of a fenced plot answers it -/
  | fenced
  /-- R612: refused and logged with this cause -/
  | refused (cause : Nat)
  /-- R410: a precise access fault of the core -/
  | fault
  deriving DecidableEq, Repr

/-- R191, R410, R498, R612: what becomes of an access of requester `r` to register `a`; `rd` for a read. -/
def reach (s : State) (r : Req) (rd : Bool) (a : Nat) : Reach :=
  let die := addrDie a
  let page := addrPage a
  if !pkgUp s || (reqHost r && bootState s == 0) || !reqRuns s r || (r == .debug && !debugMay s rd die page) then .gone
  else if vfDark s r || (reqHost r && bootState s == 2 && !lowWaterPage die page) then .refused 1
  else if filtered s r die page (addrOff a) then .fault
  else if (pageType die page).isNone then .refused 2
  else if !pageVisible s r die page (addrOff a) then .refused 3
  else if !pageLive s die page then .refused 1
  else if decide (die < 16) && decide (page < 256) && fenced s (32 * die + page / 8) && !reqLocal r then .fenced
  else .ok

/-- R410: a core's access fault: cause 5 for a load, 7 for a store (log 16). -/
def State.accessFault (s : State) (r : Req) (rd : Bool) (a : Nat) : State :=
  match r with
  | .core st k _ => s.coreTrap (8 * st.val + k.val) (if rd then 5 else 7) (devReg a)
  | _ => s

/-- R606: the access was the one instruction of a step of its hart. -/
def State.reqStepped (s : State) (r : Req) : State :=
  match r with
  | .core st k _ => s.hartStepped (8 * st.val + k.val)
  | .steward p => s.hartStepped (1024 + plotKey p)
  | _ => s

/-- R612: make a write with effect `k` if the page is live, defined and visible; otherwise drop it. -/
def State.access (s : State) (r : Req) (a : Nat) (k : State → State) : State :=
  match reach s r false a with
  | .ok => k (s.reqStepped r)
  | .refused c => (s.reqStepped r).regErr (devReg a) c r
  | .fault => s.accessFault r false a
  | _ => s

/-- The answer to the access just made. -/
def State.answer (s : State) (data : List Byte) : State := { s with reply := { data := data } }

/-- R612: the data of a refused read: a stopped page, and an unassigned channel in a virtual function view, read all ones. -/
def refusedData (s : State) (r : Req) (a c n : Nat) : List Byte :=
  let hidden : Bool := match r, pageType (addrDie a) (addrPage a) with
    | .vf _, some (ty, _) => ty == 0x020 || ty == 0x021 || ty == 0x022
    | _, _ => false
  if c == 1 || c == 3 && hidden || vfDark s r then List.replicate n 0xFF else List.replicate n 0

/-- R191, R612: make a read of `n` bytes with effect and answer `k` if the page is live, defined and visible; a fenced plot's
filter answers with poison, and the data of that answer is open. -/
def State.readAccess (s : State) (r : Req) (a : Nat) (k : State → State) (n : Nat := 4) : State :=
  match reach s r true a with
  | .ok => k (s.reqStepped r)
  | .refused c => ((s.reqStepped r).regErr (devReg a) c r).answer (refusedData s r a c n)
  | .fault => s.accessFault r true a
  | .fenced => { (s.reqStepped r).drawn with reply := { data := leBytes n s.free, poison := true } }
  | .gone => if reqHost r then s.answer (List.replicate n 0xFF) else s

/-- R8: capture the word of a `_HI` register. -/
def State.capture (s : State) (a : Nat) (w : Word) : State := { s with caps := tput none s.caps a (some w) }


end Sys2Proof.Machine
end

