-- ==== Sys2Proof/Machine/Operands.lean ====
section
/-!
DEFINITION. Operands.lean: every operand form of the plot's descriptors. Tank and accumulator bank with their poison
marks (R135 to R138); the sync and tag words (R104, R105); the fields of pass, vector and barge descriptors (R114, R122,
R152); weight tiles, activation records and block words (R115 to R118); stream ends (R130, R131).
-/
namespace Sys2Proof.Machine

/-! ### Tank and accumulator bank -/

/-- R135: bytes of a tank. -/
def tankSize : Nat := 4194304

/-- `n` tank bytes from `a` on. -/
def tankGet (P : Plot) (a n : Nat) : List Byte := tgets 0 P.tank a n

/-- The 8 B words that a range touches (R137). -/
def wordsIn (a n : Nat) : List Nat :=
  if n = 0 then [] else (List.range ((a + n - 1) / 8 - a / 8 + 1)).map (· + a / 8)

/-- R138: the range touches a poisoned word. -/
def tankBad (P : Plot) (a n : Nat) : Bool := (wordsIn a n).any fun w => tget false P.tankPoison w

/-- R137, R138: store bytes; `bad` marks every touched word. A word stored whole with good data loses its mark; a
word stored in part keeps it. -/
def tankPut (P : Plot) (a : Nat) (bs : List Byte) (bad : Bool) : Plot :=
  { P with
    tank := tputs 0 P.tank a bs
    tankPoison := (wordsIn a bs.length).foldl
      (fun t w => if bad then tput false t w true
        else if a ≤ 8 * w ∧ 8 * w + 8 ≤ a + bs.length then tput false t w false else t) P.tankPoison }

/-- A 64 B unit with its eight marks. -/
def tankFlit (P : Plot) (a : Nat) : FlitData :=
  { bytes := tankGet P a 64
    poison := BitVec.ofNat 8 ((List.range 8).foldl (fun m i => m + (if tankBad P (a + 8 * i) 8 then 2 ^ i else 0)) 0) }

/-- R138: store a flit, each marked word as a poisoned tank word. -/
def tankPutFlit (P : Plot) (a : Nat) (f : FlitData) : Plot :=
  (List.range 8).foldl (fun Q i => tankPut Q (a + 8 * i) (slice f.bytes (8 * i) 8) (nbit f.poison.toNat i)) P

/-- R42: a word of the accumulator bank. -/
def accGet (P : Plot) (row col : Nat) : Word := tget 0 P.acc (64 * row + col)

/-- Its poison mark. -/
def accBad (P : Plot) (row col : Nat) : Bool := tget false P.accPoison (64 * row + col)

/-- Write a word of the accumulator bank. -/
def accPut (P : Plot) (row col : Nat) (w : Word) (bad : Bool) : Plot :=
  { P with acc := tput 0 P.acc (64 * row + col) w, accPoison := tput false P.accPoison (64 * row + col) bad }

/-- One row of the bank. -/
def accRow (P : Plot) (row : Nat) : List Word := (List.range 64).map (accGet P row)

/-- Poison anywhere in a row. -/
def accRowBad (P : Plot) (row : Nat) : Bool := (List.range 64).any (accBad P row)

/-- Bytes of the bank: `space` chooses the bank or the tank. -/
def spaceGet (P : Plot) (acc : Bool) (a n : Nat) : List Byte :=
  if acc then (List.range n).map fun i => BitVec.ofNat 8 ((tget 0 P.acc ((a + i) / 4)).toNat / 256 ^ ((a + i) % 4))
  else tankGet P a n

/-- Poison in a range of either space. -/
def spaceBad (P : Plot) (acc : Bool) (a n : Nat) : Bool :=
  if acc then (if n = 0 then false else (List.range ((a + n - 1) / 4 - a / 4 + 1)).any fun i => tget false P.accPoison (a / 4 + i))
  else tankBad P a n

/-- Store in either space; bank stores are whole words. -/
def spacePut (P : Plot) (acc : Bool) (a : Nat) (bs : List Byte) (bad : Bool) : Plot :=
  if acc then
    (List.range (bs.length / 4)).foldl (fun Q i =>
      { Q with acc := tput 0 Q.acc (a / 4 + i) (BitVec.ofNat 32 (leAt bs (4 * i) 4))
               accPoison := tput false Q.accPoison (a / 4 + i) bad }) P
  else tankPut P a bs bad

/-! ### Sync and tag words -/

/-- R104: the sync word of a descriptor of queue `q`. -/
def syncOf (q : Nat) (d : Desc) : Nat := dw d (match q with | 0 => 10 | 1 => 6 | 2 => 14 | _ => 1)

/-- R105: the tag word. -/
def tagOf (q : Nat) (d : Desc) : Nat := dw d (match q with | 0 => 11 | 1 => 7 | 2 => 15 | _ => 2)

def waitCtr (y : Nat) : Nat := nbits y 0 6
def waitEn (y : Nat) : Bool := nbit y 6
def waitCnt (y : Nat) : Nat := nbits y 8 8
def sigCtr (y : Nat) : Nat := nbits y 16 6
def sigEn (y : Nat) : Bool := nbit y 22
def sigRemote (y : Nat) : Bool := nbit y 23
def cplEn (y : Nat) : Bool := nbit y 24
def cplIrq (y : Nat) : Bool := nbit y 25

/-- R105: the plot a remote signal names. -/
def sigLoc (g : Nat) : Loc := ⟨BitVec.ofNat 5 (nbits g 16 5), BitVec.ofNat 5 (nbits g 21 5)⟩

/-- R104: `WAIT_CNT` zero with `WAIT_EN` = 1. -/
def syncBad (y : Nat) : Bool := waitEn y && waitCnt y == 0

/-! ### Pass descriptors (R114) -/

def pMode (d : Desc) : Nat := df d 0 0 3
def pSparse (d : Desc) : Bool := df d 0 3 1 == 1
def pWload (d : Desc) : Nat := df d 0 4 2
def pAccum (d : Desc) : Bool := df d 0 6 1 == 1
def pDrain (d : Desc) : Bool := df d 0 7 1 == 1
def pWFmt (d : Desc) : Nat := df d 0 8 5
def pAFmt (d : Desc) : Nat := df d 0 13 5
def pAFmt8 (d : Desc) : Nat := df d 0 18 5
def pOutMode (d : Desc) : OutMode := { stoch := df d 0 23 1 == 1, sat := df d 0 24 1 == 1 }
def pOutFmt (d : Desc) : Nat := df d 0 25 5
def pASrc (d : Desc) : Bool := df d 0 30 1 == 1
def pOutDst (d : Desc) : Bool := df d 0 31 1 == 1
def pL (d : Desc) : Nat := df d 1 0 11
def pAccBase (d : Desc) : Nat := df d 1 11 10
def pOutScale (d : Desc) : Nat := dw d 2
def pWAddr (d : Desc) : Nat := df d 3 0 22
def pWScale (d : Desc) : Nat := df d 4 0 22
def pAAddr (d : Desc) : Nat := df d 5 0 22
def pAStride (d : Desc) : Nat := df d 6 0 16
def pAScaleStride (d : Desc) : Nat := df d 6 16 16
def pAScale (d : Desc) : Nat := df d 7 0 22
def pOutAddr (d : Desc) : Nat := df d 8 0 22
def pOutStride (d : Desc) : Nat := df d 9 0 16
def pOutScaleStride (d : Desc) : Nat := df d 9 16 16
def pOutScaleAddr (d : Desc) : Nat := df d 12 0 22

/-- R116: blocks per vector. -/
def pNB (d : Desc) : Nat :=
  match pMode d with
  | 0 => if pSparse d then 4 else 2
  | 1 => if pSparse d then 8 else 4
  | _ => 2

/-- R116: element bytes per vector. -/
def pElemBytes (d : Desc) : Nat := if pMode d = 2 then 128 else 32 * pNB d

/-- R116: bytes of a weight row. -/
def pRowBytes (d : Desc) : Nat :=
  match pMode d with
  | 0 => (if elemBits (pWFmt d) = 6 then 48 else 64) + (if pSparse d then 16 else 0)
  | 1 => 64 + (if pSparse d then 32 else 0)
  | _ => 128

/-- R115: the activations come with block words. -/
def pABlocks (d : Desc) : Bool := pMode d == 1 || isBlock (pAFmt d)

/-- R115: the weights come with block words. -/
def pWBlocks (d : Desc) : Bool := isBlock (pWFmt d)

/-- R81: an integer pass. -/
def pInt (d : Desc) : Bool := isIntFmt (pWFmt d)

/-- R52: minimum occupancy. -/
def pMinOcc (d : Desc) : Nat := if pMode d = 2 then 2 * pL d else pL d

/-- R120: bytes of a drained row's elements; a block row spans two slots. -/
def pOutBytes (d : Desc) : Nat := if isBlock (pOutFmt d) then 64 else 8 * elemBits (pOutFmt d)

/-- R78: the formats of an allowed pair. -/
def pPairOk (d : Desc) : Bool :=
  let w := pWFmt d
  let a := pAFmt d
  let fp8 (c : Nat) : Bool := c == 3 || c == 4 || (5 ≤ c && c ≤ 8) || c == 0x0A
  match pMode d with
  | 0 => (fp8 w && fp8 a) || (w == 0x0C && a == 0x0C)
  | 1 => ((w == 9 || w == 0x0B) && (a == 9 || a == 0x0B) && (pAFmt8 d == 5 || pAFmt8 d == 6)) ||
         (w == 0x0D && a == 0x0D && pAFmt8 d == 0x0C)
  | 2 => !pSparse d && w == 1 && a == 1
  | _ => false

/-- R82: the output format fits the class of the pass. -/
def pOutOk (d : Desc) : Bool :=
  !pDrain d ||
  (if pInt d then pOutFmt d == 0x0C || pOutFmt d == 0x0D || pOutFmt d == 0x0E
   else [0x00, 0x01, 0x03, 0x04, 0x05, 0x06, 0x09, 0x0B].contains (pOutFmt d))

/-- R83: `OUT_SCALE` is a positive normal number, where it is applied. -/
def pScaleOk (d : Desc) : Bool :=
  !(pDrain d && pOutFmt d != 0x0E) ||
  (let x := pOutScale d
   !nbit x 31 && decide (0 < nbits x 23 8) && decide (nbits x 23 8 < 255))

/-- R82: OUT_DST = 1 needs a format without block words. -/
def pStreamOk (d : Desc) : Bool := !(pDrain d && pOutDst d && isBlock (pOutFmt d))

/-- R121: alignment and stride multiples of the fields a pass uses. -/
def pAligned (d : Desc) : Bool :=
  let m (x n : Nat) : Bool := x % n == 0
  (pWload d == 0 || (m (pWAddr d) 64 && (!pWBlocks d || m (pWScale d) 4))) &&
  (pASrc d || (m (pAAddr d) 32 && m (pAStride d) 32 && (!pABlocks d || (m (pAScale d) 4 && m (pAScaleStride d) 4)))) &&
  (!pDrain d || pOutDst d ||
    (m (pOutAddr d) 32 && m (pOutStride d) 32 &&
      (!isBlock (pOutFmt d) || (m (pOutScaleAddr d) 4 && m (pOutScaleStride d) 4))))

/-- R121: the byte ranges a pass uses stay in the tank. -/
def pInTank (d : Desc) : Bool :=
  let ok (a n : Nat) : Bool := decide (a + n ≤ tankSize)
  let rows (st : Nat) : Nat := (pL d - 1) * st
  (pWload d == 0 || (ok (pWAddr d) (64 * pRowBytes d) && (!pWBlocks d || ok (pWScale d) (256 * pNB d)))) &&
  (pASrc d || (ok (pAAddr d) (rows (pAStride d) + pElemBytes d) &&
    (!pABlocks d || ok (pAScale d) (rows (pAScaleStride d) + 4 * pNB d)))) &&
  (!pDrain d || pOutDst d || (ok (pOutAddr d) (rows (pOutStride d) + pOutBytes d) &&
    (!isBlock (pOutFmt d) || ok (pOutScaleAddr d) (rows (pOutScaleStride d) + 8))))

/-- R103, R104, R114, R118: reserved or out-of-range fields. -/
def pFieldBad (d : Desc) : Bool :=
  syncBad (syncOf 0 d) || pL d == 0 || decide (pL d > 1024) || !pStreamOk d ||
  (!pASrc d && decide (pMode d ≤ 2) && (decide (pAStride d < pElemBytes d) || (pABlocks d && decide (pAScaleStride d < 4 * pNB d))))

/-- R119, R121: headgates a pass names. -/
def pHgs (d : Desc) : List Nat :=
  if pASrc d then pAAddr d % 32 :: (if pABlocks d then [pAScale d % 32] else []) else []

/-- R120, R121: the output slot a pass names. -/
def pSlot (d : Desc) : Option Nat := if pDrain d && pOutDst d then some (pOutAddr d % 32) else none

/-! ### Weight tiles (R117) and their use (R60, R79) -/

/-- R117: cell (r, c)'s raw weights as (K position, element code), for a tile of `mode`, `sparse` and format. -/
def tileCell (mode : Nat) (sparse : Bool) (fmt : Nat) (bytes : List Byte) (r c : Nat) : List (Nat × Nat) :=
  let six := elemBits fmt = 6
  match mode with
  | 0 =>
    let base := if six then 48 else 64
    let row := r * (base + (if sparse then 16 else 0))
    let v := if six then nbits (leAt bytes (row + 6 * c / 8) 2) (6 * c % 8) 6 else leAt bytes (row + c) 1
    if sparse then [(4 * (r / 2) + nbits (leAt bytes (row + base + c / 4) 1) (2 * (c % 4)) 2, v)] else [(r, v)]
  | 1 =>
    let row := r * (64 + (if sparse then 32 else 0))
    let v := leAt bytes (row + c) 1
    if sparse then
      let ix := nbits (leAt bytes (row + 64 + c / 2) 1) (4 * (c % 2)) 4
      [(4 * r + nbits ix 0 2, nbits v 0 4), (4 * r + nbits ix 2 2, nbits v 4 4)]
    else [(2 * r, nbits v 0 4), (2 * r + 1, nbits v 4 4)]
  | _ => [(r, leAt bytes (r * 128 + 2 * c) 2)]

/-- R61: the two indices of every group differ, the lower K position first. -/
def tileIndexOk (mode : Nat) (fmt : Nat) (bytes : List Byte) : Bool :=
  (List.range 64).all fun c =>
    if mode = 0 then (List.range 32).all fun g =>
      match tileCell 0 true fmt bytes (2 * g) c, tileCell 0 true fmt bytes (2 * g + 1) c with
      | (a, _) :: _, (b, _) :: _ => decide (a < b)
      | _, _ => true
    else (List.range 64).all fun g =>
      match tileCell 1 true fmt bytes g c with
      | (a, _) :: (b, _) :: _ => decide (a < b)
      | _ => true

/-- R57: the tile holds an Inf or NaN weight, or a block scale that reads NaN. -/
def tileNan (mode : Nat) (sparse : Bool) (fmt : Nat) (bytes : List Byte) (scales : List Word) : Bool :=
  scales.any (fun w => w.toNat % 256 == 255) ||
  (List.range 64).any fun r => (List.range 64).any fun c =>
    (tileCell mode sparse fmt bytes r c).any fun p => !(elemVal fmt p.2).isFin

/-- R47, R117: the tile a pass names, read from the tank. -/
def readTile (P : Plot) (d : Desc) : Tile :=
  let bytes := tankGet P (pWAddr d) (64 * pRowBytes d)
  let sb := if pWBlocks d then tankGet P (pWScale d) (256 * pNB d) else []
  let scales := if pWBlocks d then wordsOf sb (64 * pNB d) else []
  { loaded := true, mode := BitVec.ofNat 3 (pMode d), sparse := pSparse d, fmt := BitVec.ofNat 5 (pWFmt d),
    bytes := bytes, scales := scales, nan := tileNan (pMode d) (pSparse d) (pWFmt d) bytes scales,
    poison := tankBad P (pWAddr d) (64 * pRowBytes d) || (pWBlocks d && tankBad P (pWScale d) (256 * pNB d)) }

/-! ### Activations (R115, R118, R119) -/

/-- One activation block: format code, block word and the 32 element codes. -/
structure ABlock where
  fmt : Nat
  word : Nat
  elems : List Nat
  deriving DecidableEq, Repr

/-- R118: the 32 elements of a slot. -/
def slotElems (fmt : Nat) (slot : List Byte) : List Nat := unpackBits (elemBits fmt) 32 slot

/-- The blocks of a vector from its element bytes and block words. -/
def aBlocks (d : Desc) (elems : List Byte) (words : List Word) : List ABlock :=
  let w := if pMode d = 2 then 64 else 32
  (List.range (pNB d)).map fun b =>
    let bw := (nth 0 words b).toNat
    let f := if pMode d = 1 ∧ nbit bw 16 then pAFmt8 d else pAFmt d
    { fmt := f, word := bw, elems := slotElems f (slice elems (w * b) w) }

/-- R62: the vector takes two issue cycles. -/
def aTwo (d : Desc) (bs : List ABlock) : Bool :=
  pMode d == 2 || (pMode d == 1 && bs.any fun b => nbit b.word 16)

/-- R57: all elements of the block are zero and its own scale does not read NaN. -/
def aZero (b : ABlock) : Bool :=
  b.elems.all (fun v => (elemVal b.fmt v).isZero) && !(isBlock b.fmt && b.word % 256 == 255)

/-- R79: the exponent of a block scale; none for NaN; 2^0 for a format without block scales. -/
def scaleExp (fmt word : Nat) : Option Int := if isBlock fmt then e8m0 word else some 0

/-- R79: an element with its VX4 fine factor, without its block exponent. -/
def fineVal (fmt v word j : Nat) : Num :=
  if fmt = 0x0B then (elemVal fmt v).mul (.fin false (16 + fineOf word j) (-4)) else elemVal fmt v

/-! ### Column results (R79 to R81) -/

/-- The weights of a column in block `b`, as (K position within the block, code). -/
def colBlock (cells : List (Nat × Nat)) (b : Nat) : List (Nat × Nat) :=
  (cells.filter fun p => p.1 / 32 == b).map fun p => (p.1 % 32, p.2)

/-- The weights of column `c` of the tile, in row order. -/
def colCells (t : Tile) (c : Nat) : List (Nat × Nat) :=
  (List.range 64).flatMap fun r => tileCell t.mode.toNat t.sparse t.fmt.toNat t.bytes r c

/-- R79, R80: one floating column: its FP32 partial sum. `elide` marks the elided blocks. -/
def colFloat (t : Tile) (c : Nat) (bs : List ABlock) (elide : List Bool) : Word :=
  let cells := colCells t c
  let nb := bs.length
  let part := bs.zipIdx.foldl (fun (acc : Num) (x : ABlock × Nat) =>
    let a := x.1
    let b := x.2
    if nth false elide b then acc
    else
      let ww := (nth 0 t.scales (c * nb + b)).toNat
      let prods := (colBlock cells b).map fun p =>
        (fineVal t.fmt.toNat p.2 ww p.1).mul (fineVal a.fmt (nth 0 a.elems p.1) a.word p.1)
      let sum := prods.foldl Num.add Num.zero
      match scaleExp t.fmt.toNat ww, scaleExp a.fmt a.word with
      | some kw, some ka => (add32 .near acc (sum.pow2 (kw + ka))).1
      | _, _ => Num.nan) Num.zero
  BitVec.ofNat 32 (enc32 part)

/-- R81: one integer column and whether its partial sum wrapped. -/
def colInt (t : Tile) (c : Nat) (bs : List ABlock) (elide : List Bool) : Word × Bool :=
  let cells := colCells t c
  let w := elemBits t.fmt.toNat
  let r := bs.zipIdx.foldl (fun (acc : Int × Bool) (x : ABlock × Nat) =>
    if nth false elide x.2 then acc
    else
      let sum := (colBlock cells x.2).foldl
        (fun (z : Int) p => z + sext w p.2 * sext (elemBits x.1.fmt) (nth 0 x.1.elems p.1)) 0
      let z := addWrap acc.1 sum
      (z.1, acc.2 || z.2)) ((0, false) : Int × Bool)
  (BitVec.ofNat 32 (wrapInt 32 r.1), r.2)

/-- R67: the tile after a reset or fence: zero weights, whose products are zero for finite activations and NaN for
infinite or NaN ones. -/
def colEmpty (bs : List ABlock) : Word :=
  let bad := bs.any fun b => (b.elems.any fun v => !(elemVal b.fmt v).isFin) || (isBlock b.fmt && b.word % 256 == 255)
  if bad then BitVec.ofNat 32 fp32.nanCode else 0

/-- R48, log 34: a KEEP pass whose mode, sparsity and weight format are not those of the active tile; the spec
states no result. -/
def tileMatches (t : Tile) (d : Desc) : Bool :=
  !t.loaded || (t.mode.toNat == pMode d && t.sparse == pSparse d && t.fmt.toNat == pWFmt d)

/-- The 64 column results of a vector and their wrap marks. -/
def vecSums (open_ : Nat) (t : Tile) (d : Desc) (bs : List ABlock) (elide : List Bool) : List (Word × Bool) :=
  (List.range 64).map fun c =>
    if !tileMatches t d then (BitVec.ofNat 32 (Config.openFn 1 [open_, c]), false)
    else if !t.loaded then (if pInt d then (0, false) else (colEmpty bs, false))
    else if pInt d then colInt t c bs elide
    else (colFloat t c bs elide, false)

/-! ### Vector descriptors (R122) -/

def vOp (d : Desc) : Nat := df d 0 0 8
def vIn (d : Desc) : Nat := df d 0 8 5
def vOut (d : Desc) : Nat := df d 0 13 5
def vOutMode (d : Desc) : OutMode := { stoch := df d 0 18 1 == 1, sat := df d 0 19 1 == 1 }
def vRz (d : Desc) : Bool := df d 0 20 1 == 1
def vAAcc (d : Desc) : Bool := df d 0 21 1 == 1
def vDstAcc (d : Desc) : Bool := df d 0 22 1 == 1
def vBKind (d : Desc) : Nat := df d 0 23 2
def vCKind (d : Desc) : Nat := df d 0 25 2
def vA (d : Desc) : Nat := if vAAcc d then df d 1 0 18 else df d 1 0 22
def vB (d : Desc) : Nat := df d 2 0 22
def vC (d : Desc) : Nat := df d 3 0 22
def vDst (d : Desc) : Nat := if vDstAcc d then df d 4 0 18 else df d 4 0 22
def vCount (d : Desc) : Nat := df d 5 0 16 + 1
def vRow (d : Desc) : Nat := df d 5 16 16 + 1

/-! ### Barge descriptors (R152 to R157) -/

def bCh (d : Desc) : Nat := df d 0 0 2
def bEsize (d : Desc) : Nat := df d 0 2 3
def bSwap (d : Desc) : Nat := df d 0 5 3
def bSrcK (d : Desc) : Nat := df d 0 8 2
def bDstK (d : Desc) : Nat := df d 0 10 2
def bStart (d : Desc) : Nat := df d 0 12 2
def bPace (d : Desc) : Nat := df d 0 14 2
def bFollow (d : Desc) : Nat := df d 0 16 5
def bNotify (d : Desc) : Bool := df d 0 21 1 == 1
def bNotifyCh (d : Desc) : Nat := df d 0 22 2
def bWeir (d : Desc) : Nat := df d 0 24 4
def bSrc (d : Desc) : Nat := dw d 1 + df d 2 0 16 * 2 ^ 32
def bPattern (d : Desc) : Nat := dw d 1 + dw d 2 * 2 ^ 32
def bDst (d : Desc) : Nat := dw d 3 + df d 4 0 16 * 2 ^ 32
def bCount (d : Desc) (k : Nat) : Nat := 1 + (match k with | 0 => df d 5 0 16 | 1 => df d 5 16 16 | _ => df d 6 0 16)
def bSrcStep (d : Desc) (k : Nat) : Int := sext 24 (df d (7 + k) 0 24)
def bDstStep (d : Desc) (k : Nat) : Int := sext 24 (df d (10 + k) 0 24)
def bPeriod (d : Desc) : Nat := df d 13 0 24

/-- R153: element bytes; none for a reserved code. -/
def esizeBytes (c : Nat) : Option Nat :=
  match c with
  | 0 => some 1
  | 1 => some 2
  | 2 => some 4
  | 3 => some 8
  | 4 => some 32
  | 5 => some 256
  | _ => none

/-- Element bytes of a descriptor that has passed its checks. -/
def bBytes (d : Desc) : Nat := (esizeBytes (bEsize d)).getD 1

/-- The headgate a barge descriptor reads. -/
def bHg (d : Desc) : Option Nat := if bSrcK d = 2 then some (df d 1 0 5) else none

/-- The output slot a barge descriptor feeds. -/
def bSlot (d : Desc) : Option Nat := if bDstK d = 2 then some (df d 3 0 5) else none

/-- R156: elements of the whole walk. -/
def bElems (d : Desc) : Nat := bCount d 0 * bCount d 1 * bCount d 2

/-- R163: elements per unit. -/
def bUnitElems (d : Desc) : Nat :=
  if bStart d = 0 then bElems d
  else match bPace d with
    | 1 => bCount d 0
    | 2 => bCount d 0 * bCount d 1
    | _ => bElems d

/-- R163: units of the descriptor. -/
def bUnits (d : Desc) : Nat := bElems d / bUnitElems d

/-- R156: loop indices of element `n` in issue order. -/
def bIndex (d : Desc) (n : Nat) : Nat × Nat × Nat :=
  (n % bCount d 0, n / bCount d 0 % bCount d 1, n / (bCount d 0 * bCount d 1))

/-- R156: an address of the walk. -/
def walkAddr (base : Nat) (step : Nat → Int) (i : Nat × Nat × Nat) : Nat :=
  ((base : Int) + i.1 * step 0 + i.2.1 * step 1 + i.2.2 * step 2).toNat

def bSrcAddr (d : Desc) (n : Nat) : Nat := walkAddr (if bSrcK d = 0 then bSrc d % 4194304 else bSrc d) (bSrcStep d) (bIndex d n)
def bDstAddr (d : Desc) (n : Nat) : Nat := walkAddr (if bDstK d = 0 then bDst d % 4194304 else bDst d) (bDstStep d) (bIndex d n)

/-- R154: the swap unit; 1 for none. -/
def swapUnit (c : Nat) : Nat :=
  match c with
  | 1 => 2
  | 2 => 4
  | 3 => 8
  | 4 => 4
  | 5 => 8
  | _ => 1

/-- Reverse each group of `n` items. -/
def swapGroups {α : Type} (n : Nat) : Nat → List α → List α
  | 0, l => l
  | k + 1, l => if l.isEmpty then [] else (l.take n).reverse ++ swapGroups n k (l.drop n)

/-- R154: an element after its swap. -/
def swapBytes (c : Nat) (e : List Byte) : List Byte :=
  let groups n := swapGroups n e.length e
  match c with
  | 1 => groups 2
  | 2 => groups 4
  | 3 => groups 8
  | 4 => swapGroups 2 e.length (swapGroups 4 e.length e)
  | 5 => swapGroups 2 e.length (swapGroups 8 e.length e)
  | _ => e

/-! ### Stream ends (R130 to R132) -/

/-- Word `w` of output slot `n`. -/
def slotReg (k n w : Nat) : Nat := pqReg k (0x400 + 32 * n + 4 * w)

/-- Word `w` of headgate `n`. -/
def hgReg (k n w : Nat) : Nat := pqReg k (0x800 + 32 * n + 4 * w)

def slotValid (s : State) (k n : Nat) : Bool := s.bit (slotReg k n 0) 16
def slotId (s : State) (k n : Nat) : Nat := s.fld (slotReg k n 0) 0 16
def slotDest (s : State) (k n : Nat) : Loc :=
  ⟨BitVec.ofNat 5 (s.fld (slotReg k n 1) 0 5), BitVec.ofNat 5 (s.fld (slotReg k n 1) 5 5)⟩
def slotHg (s : State) (k n : Nat) : Nat := s.fld (slotReg k n 1) 10 5
def slotCredits (s : State) (k n : Nat) : Nat := s.fld (slotReg k n 2) 0 9
def slotCredit (s : State) (k n : Nat) : Nat := s.fld (slotReg k n 3) 0 9
def slotFenced (s : State) (k n : Nat) : Bool := s.bit (slotReg k n 3) 9
def hgValid (s : State) (k n : Nat) : Bool := s.bit (hgReg k n 0) 16
def hgId (s : State) (k n : Nat) : Nat := s.fld (hgReg k n 0) 0 16
def hgBase (s : State) (k n : Nat) : Nat := s.fld (hgReg k n 1) 0 22
def hgDepth (s : State) (k n : Nat) : Nat := s.fld (hgReg k n 2) 0 9
def hgFill (s : State) (k n : Nat) : Nat := s.fld (hgReg k n 4) 0 9
def hgRd (s : State) (k n : Nat) : Nat := s.fld (hgReg k n 4) 16 9

/-- The channels of plot `k`. -/
def plotChans (k : Nat) : List Nat := [4 * k, 4 * k + 1, 4 * k + 2, 4 * k + 3]

/-- Passes that have entered the lookahead and not completed. -/
def livePasses (P : Plot) : List Pass := P.arr.lane ++ P.arr.issued

/-- R132: the pass feeder uses headgate `n`. -/
def hgByArr (P : Plot) (n : Nat) : Bool := (livePasses P).any fun x => (pHgs x.desc).contains n

/-- R132: the pass feeder uses output slot `n`. -/
def slotByArr (P : Plot) (n : Nat) : Bool := (livePasses P).any fun x => pSlot x.desc == some n

/-- R132: a channel of the plot other than `c` has taken a descriptor that names headgate `n`. -/
def hgByChan (s : State) (k n c : Nat) : Bool :=
  (plotChans k).any fun x => x != c && (match (s.chan x).desc with | some d => bHg d == some n | none => false)

/-- R132: the same for output slot `n`. -/
def slotByChan (s : State) (k n c : Nat) : Bool :=
  (plotChans k).any fun x => x != c && (match (s.chan x).desc with | some d => bSlot d == some n | none => false)

end Sys2Proof.Machine
end

