-- ==== Sys2Proof/Machine/PlotOps.lean ====
section
/-!
DEFINITION. PlotOps.lean: what every queue of a plot shares. Token counters (R108), waits (R106), signals (R107),
completion records (R109), rejections and held queues (R111), watch-point matches (R604), fabric error logs (R202),
steward interrupts (R146).
-/
namespace Sys2Proof.Machine

/-! ### Token counters -/

/-- Register of token counter `n`. -/
def ctrReg (k n : Nat) : Nat := pqReg k (0x200 + 4 * n)

/-- R108: the value of token counter `n` of plot `k`. -/
def tokCtr (s : State) (k n : Nat) : Nat := s.fld (ctrReg k n) 0 16

/-- R108: add to a token counter, saturating. -/
def State.ctrAdd (s : State) (k n amt : Nat) : State :=
  let v := tokCtr s k n + amt
  let s1 := s.setFld (ctrReg k n) 0 16 (min v 65535)
  if v > 65535 then (s1.setBit (ctrReg k n) 16).irq (pqReg k 0) 3 else s1

/-- R593: a token or signal that reaches a plot after its snapshot goes to the held tally, otherwise to the counter. -/
def State.tokArrive (s : State) (k n amt : Nat) : State :=
  if stopped s (plotUnit k) then
    { s with dbg := { s.dbg with tally := tput 0 s.dbg.tally (64 * k + n) (satAdd 16 (tget 0 s.dbg.tally (64 * k + n)) amt) } }
  else s.ctrAdd k n amt

/-- R106: the wait of a sync word is satisfied. -/
def waitOk (s : State) (k y : Nat) : Bool := !waitEn y || decide (waitCnt y ≤ tokCtr s k (waitCtr y))

/-- R106: the count a start takes. -/
def State.waitTake (s : State) (k y : Nat) : State :=
  if waitEn y then s.setFld (ctrReg k (waitCtr y)) 0 16 (tokCtr s k (waitCtr y) - waitCnt y) else s

/-! ### Queues -/

/-- R101: entries of queue `q`. -/
def qSize (q : Nat) : Nat := match q with | 0 => 16 | 1 => 32 | 2 => 16 | _ => 32

/-- Queue `q` of a plot. -/
def Plot.queue (P : Plot) (q : Nat) : PQueue := match q with | 0 => P.qa | 1 => P.qv | 2 => P.qb | _ => P.qn

/-- Replace queue `q` of a plot. -/
def Plot.setQueue (P : Plot) (q : Nat) (x : PQueue) : Plot :=
  match q with
  | 0 => { P with qa := x }
  | 1 => { P with qv := x }
  | 2 => { P with qb := x }
  | _ => { P with qn := x }

/-- Queue `q` of plot `k`. -/
def State.queue (s : State) (k q : Nat) : PQueue := (s.plot k).queue q

/-- Change queue `q` of plot `k`. -/
def State.updQueue (s : State) (k q : Nat) (f : PQueue → PQueue) : State :=
  s.updPlot k fun P => P.setQueue q (f (P.queue q))

/-! ### Watch points (R604) -/

/-- Register of watch point `n`. -/
def wpReg (n off : Nat) : Nat := dbgReg (0x080 + 32 * n + off)

/-- The run number of slot `sl` of partition `pt` if plot `k` belongs to it. -/
def wpRun (s : State) (pt sl k : Nat) : Option Nat :=
  let S := tget ({} : Slot) (s.part pt).slots sl
  if S.loaded && S.plots.contains (k / 32, k % 32) then some S.runNo.toNat else none

/-- One watch point sees a completion with tag `tag` in queue `q` of plot `k`. -/
def State.wpMatch (s : State) (k q tag n : Nat) : State :=
  let sc := wpReg n 0x04
  let val := wpReg n 0x00
  let mask := s.fld val 16 16
  match wpRun s (s.fld sc 0 4) (s.fld sc 4 3) k with
  | none => s
  | some run =>
    let step := s.fld (wpReg n 0x08) 0 32
    if s.bit sc 13 && s.bit sc (7 + q) && (step == 0 || step == run) &&
        (Nat.land tag mask == Nat.land (s.fld val 0 16) mask) then
      let key := 512 * n + k
      let old := tget (0, 0) s.dbg.wpCount key
      let c := if old.1 = run then old.2 + 1 else 1
      let s1 := ({ s with dbg := { s.dbg with wpCount := tput (0, 0) s.dbg.wpCount key (run, c) } }).addFld (wpReg n 0x10) 16 16 1
      let act := s.fld sc 11 2
      if (act == 1 || act == 2) && decide (max 1 (s.fld (wpReg n 0x0C) 0 16) ≤ c) then
        let s2 := ((s1.clrBit sc 13).setBit (wpReg n 0x10) 0).setReg (wpReg n 0x14)
          (BitVec.ofNat 32 (k / 32 + k % 32 * 16 + q * 512))
        { s2 with dbg := { s2.dbg with wpDue := s2.dbg.wpDue ++ [n]
                                       wpHold := if act == 2 then k :: s2.dbg.wpHold else s2.dbg.wpHold } }
      else s1
    else s

/-- R599, R604: every armed watch point sees the completion; none while a stop is in force. -/
def State.wpMatches (s : State) (k q tag : Nat) : State :=
  if s.dbg.stopAt.isSome then s else (List.range 8).foldl (fun s n => s.wpMatch k q tag n) s

/-! ### Records and signals -/

/-- R144: `TIME`: the FAB cycle counter, 20 cycles per unit of the time base. -/
def fabTime (s : State) : Word := BitVec.ofNat 32 (20 * s.tb)

/-- R109: records waiting in a queue of the plot. -/
def recsHeld (P : Plot) (q : Nat) : Bool := !(P.queue q).heldRecs.isEmpty

/-- R109, R146: a record goes into the plot's completion FIFO, or its queue holds it while the FIFO is full. A failed
plot's records are discarded. -/
def State.record (s : State) (k : Nat) (r : CplRec) : State :=
  let P := s.plot k
  if P.failed.isSome then s
  else if P.cpl.length < 64 then
    let s1 := s.setPlot k { P with cpl := P.cpl ++ [r] }
    if r.irq then s1.irq (pqReg k 0) 0 else s1
  else s.updQueue k r.queue.toNat fun Q => { Q with heldRecs := Q.heldRecs ++ [r] }

/-- The record of a descriptor of queue `q`. -/
def cplRec (s : State) (q : Nat) (d : Desc) (status : Nat) (rejected : Bool) : CplRec :=
  { tag := BitVec.ofNat 16 (tagOf q d), queue := BitVec.ofNat 2 q, rejected := rejected,
    status := BitVec.ofNat 8 status, irq := cplIrq (syncOf q d), time := fabTime s }

/-- R107: descriptors of this status signal. -/
def signals (status : Nat) : Bool := status == 0x00 || status == 0x10 || status == 0x11

/-- R134: the destination is a stack die and a logical plot of partition `own`. -/
def tokDestOk (s : State) (own : Option Nat) (dst : Loc) : Bool :=
  match own with
  | none => false
  | some n => (arcOf s n).contains dst.die.toNat && plotReported s (locKey dst)

/-- R134: plot `k` sends a token to `dst`, or drops it with `TOKEN_ERR`. -/
def State.plotToken (s : State) (k : Nat) (dst : Loc) (m : Loc → Loc → Msg) : State :=
  if tokDestOk s (partOf s (k / 32)) dst then
    (s.inject 3 (plotLoc k) dst (m dst (plotLoc k))).count k 12 1
  else s.irq (pqReg k 0) 4

/-- R107: the signal of a completed descriptor: a local one reaches its counter by an event of its own. -/
def State.signal (s : State) (k y g : Nat) : State :=
  if !sigEn y then s
  else if sigRemote y then s.plotToken k (sigLoc g) fun dst src => .add dst src (BitVec.ofNat 6 (sigCtr y)) 1
  else s.updPlot k fun P => { P with sigs := P.sigs ++ [BitVec.ofNat 6 (sigCtr y)] }

/-- R341: the slot's run has met poison. -/
def Slot.markPoison (S : Slot) : Slot := { S with run := S.run.map fun r => { r with poisoned := true } }

/-- R341: a descriptor of a running graph completed `POISONED`. -/
def State.runPoison (s : State) (k : Nat) : State :=
  let here (S : Slot) : Bool := S.plots.contains (k / 32, k % 32)
  match partOf s (k / 32) with
  | none => s
  | some n => s.updPart n fun P => { P with slots := P.slots.map fun e => if here e.2 then (e.1, e.2.markPoison) else e }

/-- R107, R109, R604: a descriptor of queue `q` completes with `status`. -/
def State.complete (s : State) (k q : Nat) (d : Desc) (status : Nat) : State :=
  let s1 := if signals status then s.signal k (syncOf q d) (tagOf q d) else s
  let s2 := if cplEn (syncOf q d) || status != 0 then s1.record k (cplRec s q d status false) else s1
  let s3 := if status = 0x10 then s2.runPoison k else s2
  s3.wpMatches k q (nbits (tagOf q d) 0 16)

/-- R111: a rejection: the record is written, the queue is held, the steward interrupt rises. -/
def State.rejectHold (s : State) (k q : Nat) (d : Desc) (status : Nat) : State :=
  ((s.record k (cplRec s q d status true)).updQueue k q fun Q =>
    { Q with held := true, heldStatus := BitVec.ofNat 8 status }).irq (pqReg k 0) 1

/-- R109: slots have freed in the completion FIFO: held records are written, one queue after another. -/
def State.releaseHeld (s : State) (k : Nat) : State :=
  [0, 1, 2, 3].foldl (fun s q =>
    let rs := (s.queue k q).heldRecs
    rs.foldl (fun s r => s.record k r) (s.updQueue k q fun Q => { Q with heldRecs := [] })) s

/-- R111, R112: queued descriptors discarded: each writes a record with `ABORTED`; the held head has its record. -/
def State.abortEntries (s : State) (k q : Nat) : State :=
  let Q := s.queue k q
  let gone := if Q.held && q != 3 && !(q == 0 && (s.plot k).arr.lane.any (·.rejected)) then Q.entries.drop 1 else Q.entries
  gone.foldl (fun s d => s.complete k q d 0x20) (s.updQueue k q fun Q => { Q with entries := [] })

/-! ### Fabric error logs (R202, R203, R630) -/

/-- R630: the stream layout of `INFO`. -/
def streamInfo (sid die plot slot : Nat) : Nat := sid % 65536 + die % 32 * 65536 + plot % 32 * 2 ^ 21 + slot % 32 * 2 ^ 26

/-- R202: log a fabric error of plot `k`. -/
def State.rhErr (s : State) (k code info hi : Nat) : State :=
  let base := rhReg (k / 32) (k % 32 / 8) (0x080 + 16 * (k % 8))
  let s1 := (s.addFld (base + 8) 0 16 1).count (512 + 4 * (k / 32) + k % 32 / 8) 2 1
  if s1.bit (base + 4) 31 then s1
  else (s1.setReg base (BitVec.ofNat 32 info)).setReg (base + 4) (BitVec.ofNat 32 (hi % 65536 + code * 65536 + 2 ^ 31))

/-! ### Halts -/

/-- R542, R549, R528, R531: the stack is halted. -/
def stackHalted (s : State) (st : Nat) : Bool := (s.stk st).halt || (s.stk st).sensHalt || s.coolant.halted

/-- R534: the check pause of each level, in ARR cycles. -/
def pauseTable : List Nat := [0, 16, 32, 64, 96, 128, 192, 256, 384, 512, 768, 1024, 1536, 2048, 3072, 4095]

/-- R535: the level in force. -/
def govLevel (s : State) (st : Nat) : Nat :=
  max (max (s.stk st).pLevel (s.stk st).tLevel) (if stackHalted s st then 15 else 0)

/-- R65, R493, R593, R542, R549: the array must stop issuing: an emergency halt, a slack-water stop or a reset. -/
def haltInForce (s : State) (k : Nat) : Bool :=
  stackHalted s (k / 32) || stopping s (plotUnit k) || quiesced s k

/-- A plot may start a descriptor of queue `q` (R109, R112, R604). -/
def queueGo (s : State) (k q : Nat) : Bool :=
  plotGo s k && !(s.dbg.wpHold.contains k) && !recsHeld (s.plot k) q

end Sys2Proof.Machine
end

