-- ==== Sys2Proof/Machine/Array.lean ====
section
/-!
DEFINITION. Array.lean: the matrix array and its feeder (R39 to R70), the drain path (R82 to R94), and the commands of
the array family. Commands carry the ARR cycle of the event (log 33). A command whose conditions do not hold
changes nothing (log 2).
-/
namespace Sys2Proof.Machine

/-- Change the array of plot `k`. -/
def State.updArr (s : State) (k : Nat) (f : Arr → Arr) : State := s.updPlot k fun P => { P with arr := f P.arr }

/-- The array of plot `k`. -/
def State.arr (s : State) (k : Nat) : Arr := (s.plot k).arr

/-- The array takes an event of cycle `t`: the plot works and time does not run backwards. -/
def arrAt (s : State) (k t : Nat) : Bool := plotRun s k && decide ((s.arr k).now ≤ t)

/-- Note the cycle of the latest event. -/
def State.arrNow (s : State) (k t : Nat) : State := s.updArr k fun A => { A with now := t }

/-! ### Lookahead (R52, R121) -/

/-- R121: a headgate the pass names is not valid, or a channel uses it; the same for its output slot. -/
def passStreamsBad (s : State) (k : Nat) (d : Desc) : Bool :=
  ((pHgs d).any fun n => !hgValid s k n || hgByChan s k n 9999) ||
  (match pSlot d with | some n => !slotValid s k n || slotByChan s k n 9999 | none => false)

/-- R121: the status with which the feeder rejects a pass, in its order of checks. -/
def passCheck (s : State) (k : Nat) (d : Desc) : Option Nat :=
  if pFieldBad d then some 0x07
  else if !(pPairOk d && pOutOk d) then some 0x01
  else if pAccBase d + pL d > 1024 then some 0x02
  else if !pScaleOk d then some 0x04
  else if !pAligned d then some 0x06
  else if !pInTank d then some 0x05
  else if passStreamsBad s k d then some 0x0B
  else none

/-- R52: minimum occupancy of the preceding pass. -/
def precOcc (A : Arr) : Option Nat :=
  match (A.lane.filter fun x => !x.rejected).getLast? with
  | some x => some (pMinOcc x.desc)
  | none => A.prec

/-- R48, R52: `WLOAD` resolved. -/
def resolveLoad (A : Arr) (d : Desc) : WLoad :=
  match pWload d with
  | 0 => .keep
  | 1 => .bore
  | 2 => .gate
  | _ =>
    match precOcc A with
    | none => .bore
    | some o => if o < 64 ∧ A.shadow = .free then .gate else .bore

/-- R52: a place is free and the queue has a head that is not held. -/
def lookaheadOk (s : State) (k t : Nat) : Bool :=
  arrAt s k t && queueGo s k 0 && decide ((s.arr k).lane.length < 3) && !(s.plot k).qa.held &&
  !(s.plot k).qa.entries.isEmpty

/-- R52: the head of the array queue enters the lookahead, or is rejected. -/
def lookahead (s : State) (k t : Nat) : State :=
  match (s.plot k).qa.entries with
  | [] => s
  | d :: rest =>
    match passCheck s k d with
    | some st => (s.rejectHold k 0 d st).arrNow k t
    | none =>
      (s.updPlot k fun P => { P with
        qa := { P.qa with entries := rest }
        arr := { P.arr with
          now := t, nextSeq := P.arr.nextSeq + 1
          lane := P.arr.lane ++ [{ seq := P.arr.nextSeq, desc := d, wload := resolveLoad P.arr d,
                                   load := if resolveLoad P.arr d = .keep then .ready else .none,
                                   rowsLeft := pL d, enteredAt := t }] } })

/-- LOOKAHEAD_ENTRY (R52). -/
def execLookaheadEntry (p : PlotId) (t : Nat) (s : State) : Out :=
  .next (if lookaheadOk s (plotKey p) t then lookahead s (plotKey p) t else s)

/-! ### Weight loads (R47 to R51, R61) -/

/-- Passes of the lane that no rejected pass stands before (R43). -/
def laneLive (A : Arr) : List Pass := A.lane.takeWhile fun x => !x.rejected

/-- R47: the next load in array-queue order. -/
def nextLoad (A : Arr) : Option Pass := (laneLive A).find? fun x => x.load == .none

/-- Change the pass `q` wherever it is. -/
def Arr.updPass (A : Arr) (q : Nat) (f : Pass → Pass) : Arr :=
  let g (x : Pass) : Pass := if x.seq = q then f x else x
  { A with lane := A.lane.map g, issued := A.issued.map g }

/-- R65, R66: the feeder may begin a weight load. -/
def loadGo (s : State) (k t : Nat) : Bool :=
  arrAt s k t && queueGo s k 0 && (s.arr k).feed.isNone && !(s.arr k).haltReq

/-- R49: a bore may start entering at `t`. -/
def boreOk (s : State) (k t : Nat) : Bool :=
  let A := s.arr k
  loadGo s k t && A.transit.isNone && decide ((A.lastBore.getD 0) ≤ t) &&
  (match nextLoad A with | some x => x.wload == .bore | none => false)

/-- R49: the feed starts to carry the tile of the next load. -/
def startLoad (s : State) (k t : Nat) (bore : Bool) : State :=
  match nextLoad (s.arr k) with
  | none => s
  | some x =>
    s.updPlot k fun P => { P with arr := { P.arr.updPass x.seq (fun y => { y with load := .loading }) with
      now := t, feed := some { seq := x.seq, bore := bore, start := t, tile := readTile P x.desc }
      shadow := if bore then P.arr.shadow else .loading } }

/-- BORE_START (R49). -/
def execBoreStart (p : PlotId) (t : Nat) (s : State) : Out :=
  .next (if boreOk s (plotKey p) t then startLoad s (plotKey p) t true else s)

/-- R61: the tile in the feed breaks the index rule. -/
def feedBad (f : Feed) : Bool := f.tile.sparse && !tileIndexOk f.tile.mode.toNat f.tile.fmt.toNat f.tile.bytes

/-- R50: the 64th entry is in the chains. -/
def boreDoneOk (s : State) (k t : Nat) : Bool :=
  arrAt s k t && (match (s.arr k).feed with | some f => f.bore && decide (f.start + 64 ≤ t) && !feedBad f | none => false)

/-- R50: the chains hold the tile and the feed is free. -/
def boreDone (s : State) (k t : Nat) : State :=
  match (s.arr k).feed with
  | none => s
  | some f => s.updArr k fun A => { A.updPass f.seq (fun x => { x with load := .ready, readyAt := f.start + 64 }) with
      now := t, feed := none, transit := some (f.seq, f.tile) }

/-- BORE_ENTRY_DONE (R50). -/
def execBoreEntryDone (p : PlotId) (t : Nat) (s : State) : Out :=
  .next (if boreDoneOk s (plotKey p) t then boreDone s (plotKey p) t else s)

/-- R51: a shadow load may start at `t`. -/
def shadowLoadOk (s : State) (k t : Nat) : Bool :=
  let A := s.arr k
  loadGo s k t && A.shadow == .free && (match nextLoad A with | some x => x.wload == .gate | none => false)

/-- SHADOW_LOAD_START (R51). -/
def execShadowLoadStart (p : PlotId) (t : Nat) (s : State) : Out :=
  .next (if shadowLoadOk s (plotKey p) t then startLoad s (plotKey p) t false else s)

/-- R51: the last shadow row is written. -/
def shadowDoneOk (s : State) (k t : Nat) : Bool :=
  arrAt s k t && (match (s.arr k).feed with | some f => !f.bore && decide (f.start + 64 ≤ t) && !feedBad f | none => false)

/-- R51: the shadow set reads LOADED. -/
def shadowDone (s : State) (k t : Nat) : State :=
  match (s.arr k).feed with
  | none => s
  | some f => s.updArr k fun A => { A.updPass f.seq (fun x => { x with load := .ready, readyAt := f.start + 64 }) with
      now := t, feed := none, shadow := .loaded, shadowTile := (f.seq, f.tile) }

/-- SHADOW_LOADED (R51). -/
def execShadowLoaded (p : PlotId) (t : Nat) (s : State) : Out :=
  .next (if shadowDoneOk s (plotKey p) t then shadowDone s (plotKey p) t else s)

/-- R61: the feed carries a tile that breaks the index rule. -/
def sparseBadOk (s : State) (k t : Nat) : Bool :=
  arrAt s k t && (match (s.arr k).feed with | some f => decide (f.start ≤ t) && feedBad f | none => false)

/-- R61, R43: the load is discarded, the owning pass is rejected and stays where it is until SKIP or FLUSH. -/
def sparseReject (s : State) (k t : Nat) : State :=
  match (s.arr k).feed with
  | none => s
  | some f =>
    let d := match (s.arr k).lane.find? (fun x => x.seq == f.seq) with | some x => x.desc | none => []
    (s.updArr k fun A => { A.updPass f.seq (fun x => { x with rejected := true, load := .none }) with
      now := t, feed := none, shadow := if f.bore then A.shadow else .free }).rejectHold k 0 d 0x03

/-- SPARSE_META_REJECT (R61). -/
def execSparseMetaReject (p : PlotId) (t : Nat) (s : State) : Out :=
  .next (if sparseBadOk s (plotKey p) t then sparseReject s (plotKey p) t else s)

/-! ### Starting a pass (R46, R49, R51, R55, R63, R64, R106) -/

/-- The pass at the head of the feeder. -/
def headPass (A : Arr) : Option Pass := (laneLive A).head?

/-- R55: the array's groups let a vector enter at `e`: every group `j` is enabled no later than `e + 8 j`. -/
def rampOk (A : Arr) (e : Nat) : Bool :=
  match A.ramp with
  | .up t0 st fr => (List.range 8).all fun j => j < fr || decide (t0 + st * (j + 1 - fr) ≤ e + 8 * j)
  | .idle => A.groupsOn == 8
  | .down _ _ => false

/-- R48 to R51: the pass has its weights at `t`. -/
def weightsOk (A : Arr) (x : Pass) (t : Nat) : Bool :=
  match x.wload with
  | .keep => true
  | .bore => (match A.transit with | some (q, _) => q == x.seq | none => false) && decide (x.readyAt ≤ t)
  | .gate => A.shadow == .loaded && A.shadowTile.1 == x.seq && decide (x.readyAt ≤ t)

/-- R538: the stack is governed in timed mode: its partition has more than two stacks. -/
def timedMode (s : State) (st : Nat) : Bool :=
  match partOf s st with
  | some n => decide (2 ≤ (s.part n).sizeLog2)
  | none => false

/-- R64, R541: under timed governing, a pass that does not follow a vector of the cycle before needs a permit. -/
def permitOk (s : State) (k t : Nat) : Bool :=
  !timedMode s (k / 32) || (s.arr k).permit || (s.arr k).lastValid == some t

/-- R545, R66: a P-state change of the stack holds issue. -/
def clockHold (s : State) (k : Nat) : Bool :=
  match (s.stk (k / 32)).change with
  | some c => c.hold
  | none => false

/-- The head pass may take its first issue slot at `t`. -/
def passStartOk (s : State) (k t : Nat) : Bool :=
  let A := s.arr k
  arrAt s k t && queueGo s k 0 && !A.haltReq && !clockHold s k && permitOk s k t &&
  (match headPass A with
   | none => false
   | some x => !x.started && decide (A.slotAt ≤ t) && decide (A.pauseTo ≤ t) && weightsOk A x t && rampOk A t &&
       waitOk s k (syncOf 0 x.desc))

/-- R50, R51: the swap or the bore front that rides the first issue slot. -/
def takeWeights (A : Arr) (x : Pass) (t : Nat) : Arr :=
  match x.wload with
  | .keep => A
  | .bore =>
    { A with active := (match A.transit with | some (_, w) => w | none => A.active), transit := none, lastBore := some t }
  | .gate => { A with active := A.shadowTile.2, shadowTile := (x.seq, A.active), shadow := .swapping, swapAt := t }

/-- R70: cycles of pause, weight stall and ramp that this start ends. Cycles of a pause that also wait for weights count
as pause. -/
def startLoss (A : Arr) (x : Pass) (t : Nat) : Nat × Nat × Nat :=
  let base := max A.slotAt x.enteredAt
  let paused := min t A.pauseTo
  let stall := (min t x.readyAt) - max base paused
  let ramp := match A.ramp with | .up t0 _ _ => t - max t0 (max base (max paused x.readyAt)) | _ => 0
  (paused - base, (if x.wload = .keep then 0 else stall), ramp)

/-- PASS_START's effect: the wait is taken, the weights change hands, the pass has started. -/
def startPass (s : State) (k t : Nat) : State :=
  match headPass (s.arr k) with
  | none => s
  | some x =>
    let loss := startLoss (s.arr k) x t
    let s1 := s.waitTake k (syncOf 0 x.desc)
    let s2 := s1.updArr k fun A =>
      { (takeWeights A x t).updPass x.seq (fun y => { y with started := true, first := t, load := .taken }) with
        now := t, slotAt := t, permit := false }
    let s3 := (((s2.count k 0 1).count k 5 loss.2.1).count k 7 loss.2.2).count k 8 loss.1
    if x.wload = .gate then s3.count k 6 1 else s3

/-- PASS_START (R106). -/
def execPassStart (p : PlotId) (t : Nat) (s : State) : Out :=
  .next (if passStartOk s (plotKey p) t then startPass s (plotKey p) t else s)

/-- R51: cell (63, 63) has swapped. -/
def shadowFreeOk (s : State) (k t : Nat) : Bool :=
  arrAt s k t && (s.arr k).shadow == .swapping && decide ((s.arr k).swapAt + 127 ≤ t)

/-- SHADOW_FREE (R51). -/
def execShadowFree (p : PlotId) (t : Nat) (s : State) : Out :=
  .next (if shadowFreeOk s (plotKey p) t then
    s.updArr (plotKey p) fun A => { A with now := t, shadow := .free } else s)

/-! ### Issue (R56 to R58, R62) -/

/-- R58: reservations outstanding. -/
def reserved (A : Arr) : Nat := (A.vecs.filter fun v => !v.drain).length + A.rows.length

/-- R56: bytes a vector takes from headgates: element flits, and block-word bytes. -/
def vecFlits (d : Desc) : Nat := (pElemBytes d + 63) / 64

/-- Block-word bytes taken ahead and not used. -/
def preBytes (A : Arr) : Nat := 64 * A.preB.length - A.preOff

/-- R56: the activation data of the next vector has arrived. -/
def dataOk (A : Arr) (d : Desc) : Bool :=
  !pASrc d || (decide (vecFlits d ≤ A.preE.length) && (!pABlocks d || decide (4 * pNB d ≤ preBytes A)))

/-- The element bytes, block words and poison of vector `i` (R118, R119). -/
def vecData (P : Plot) (d : Desc) (i : Nat) : List Byte × List Word × Bool :=
  if pASrc d then
    let fs := P.arr.preE.take (vecFlits d)
    let raw := P.arr.preB.flatMap (·.bytes)
    let nw := (4 * pNB d + 63) / 64 + 1
    (fs.flatMap (·.bytes),
      if pABlocks d then wordsOf (slice raw P.arr.preOff (4 * pNB d)) (pNB d) else [],
      fs.any (fun f => f.poison != 0) ||
        (pABlocks d && (P.arr.preB.take nw).zipIdx.any fun x => (List.range 8).any fun j =>
          nbit x.1.poison.toNat j && decide (64 * x.2 + 8 * j < P.arr.preOff + 4 * pNB d) &&
          decide (P.arr.preOff < 64 * x.2 + 8 * j + 8)))
  else
    let a := pAAddr d + i * pAStride d
    let b := pAScale d + i * pAScaleStride d
    (tankGet P a (pElemBytes d),
      if pABlocks d then wordsOf (tankGet P b (4 * pNB d)) (pNB d) else [],
      tankBad P a (pElemBytes d) || (pABlocks d && tankBad P b (4 * pNB d)))

/-- The flits and block-word bytes a vector uses up. -/
def useData (A : Arr) (d : Desc) : Arr :=
  if !pASrc d then A
  else
    let off := if pABlocks d then A.preOff + 4 * pNB d else A.preOff
    { A with preE := A.preE.drop (vecFlits d), preB := A.preB.drop (off / 64), preOff := off % 64 }

/-- R564: work units of one vector. -/
def vecWU (d : Desc) (bs : List ABlock) : Nat :=
  let base := if pSparse d then 16384 else 8192
  match pMode d with
  | 0 => base
  | 1 => base + 2048 * (bs.filter fun b => nbit b.word 16).length
  | _ => 16384

/-- R56: what the next slot carries. -/
inductive SlotKind where
  | dry | ramp | resv | valid
  deriving DecidableEq, Repr

/-- R56, R58: whether the next vector of a pass can issue at `t`. -/
def slotKind (A : Arr) (x : Pass) (t : Nat) : SlotKind :=
  if !dataOk A x.desc then .dry
  else if !rampOk A t then .ramp
  else if A.rows.any (fun r => r.row == pAccBase x.desc + x.next) || decide (128 ≤ reserved A) then .resv
  else .valid

/-- The feeder has an issue slot at `t`: the head pass has started and nothing halts it. -/
def issueOk (s : State) (k t : Nat) : Bool :=
  let A := s.arr k
  arrAt s k t && !A.haltReq && decide (A.slotAt ≤ t) &&
  (match headPass A with | some x => x.started && decide (x.next < pL x.desc) | none => false)

/-- R57: blocks elided. -/
def elided (s : State) (k : Nat) (t : Tile) (bs : List ABlock) : List Bool :=
  bs.map fun b => s.bit (arrReg k 0x040) 4 && !t.nan && aZero b

/-- R54, R56: a bubble: the slot passes and one counter counts it. -/
def bubble (s : State) (k t : Nat) (why : SlotKind) : State :=
  (s.updArr k fun A => { A with now := t, slotAt := t + 1 }).count k
    (match why with | .dry => 2 | .resv => 3 | _ => 7) 1

/-- R35, R63: the check pause in force, ARR cycles. -/
def pauseLen (s : State) (k : Nat) : Nat := nth 0 pauseTable (govLevel s (k / 32))

/-- VECTOR_ISSUE's effect for a valid vector. -/
def issueVec (s : State) (k t : Nat) (x : Pass) : State :=
  let d := x.desc
  let data := vecData (s.plot k) d x.next
  let bs := aBlocks d data.1 data.2.1
  let two := aTwo d bs
  let tile := (s.arr k).active
  let el := elided s k tile bs
  let sums := vecSums s.freeCtr tile d bs el
  let row := pAccBase d + x.next
  let last := x.next + 1 == pL d
  let lastCyc := if two then t + 1 else t
  let v : Vec := { seq := x.seq, row := row, e := t, two := two, acc := pAccum d, int := pInt d,
                   drain := pDrain d && !x.fenced, poison := data.2.2 || tile.poison,
                   sums := sums.map (·.1), wraps := sums.map (·.2) }
  let s1 := s.updArr k fun A =>
    let B := useData A d
    let C := { B with
      now := t, slotAt := lastCyc + 1, lastValid := some (lastCyc + 1), vecs := B.vecs ++ [v]
      rows := if v.drain then B.rows ++ [(⟨x.seq, row, x.next, false, false⟩ : DrainRow)] else B.rows }
    let D := C.updPass x.seq (fun y => { y with next := y.next + 1, lastIssue := lastCyc, poisoned := y.poisoned || v.poison })
    if last then
      { D with
        issued := D.issued ++ (D.lane.filter fun y => y.seq == x.seq)
        lane := D.lane.filter fun y => y.seq != x.seq
        prec := some (pMinOcc d)
        preE := [], preB := [], preOff := 0
        pauseTo := if pauseLen s k = 0 then D.pauseTo else lastCyc + 1 + pauseLen s k }
    else D
  let s2 := (s1.count k 1 1).count k 4 (el.filter id).length
  let s3 := s2.updStk (k / 32) fun z => { z with wu := z.wu + vecWU d bs }
  if tileMatches tile d then s3 else s3.drawn

/-- VECTOR_ISSUE's effect. -/
def issueSlot (s : State) (k t : Nat) : State :=
  match headPass (s.arr k) with
  | none => s
  | some x => if slotKind (s.arr k) x t = .valid then issueVec s k t x else bubble s k t (slotKind (s.arr k) x t)

/-- VECTOR_ISSUE (R56). -/
def execVectorIssue (p : PlotId) (t : Nat) (s : State) : Out :=
  .next (if issueOk s (plotKey p) t then issueSlot s (plotKey p) t else s)

/-! ### Results (R44, R45, R58, R59, R107) -/

/-- R44, R45: the cycle in which a vector's column `c` is written. -/
def writeCycle (v : Vec) (c : Nat) : Nat := v.e + (if v.two then 65 else 64) + c

/-- R107: every row of the pass is written (or drained): it completes. -/
def passDone (s : State) (k seq : Nat) : State :=
  match (s.arr k).issued.find? (fun x => x.seq == seq && x.rowsLeft == 0) with
  | none => s
  | some x =>
    (s.updArr k fun A => { A with issued := A.issued.filter fun y => y.seq != seq }).complete k 0 x.desc
      (if x.fenced then 0x11 else if x.poisoned then 0x10 else 0)

/-- One row of a pass has had its last write, or has been drained. -/
def rowDone (s : State) (k seq : Nat) (bad : Bool) : State :=
  passDone (s.updArr k fun A => A.updPass seq fun x =>
    { x with rowsLeft := x.rowsLeft - 1, poisoned := x.poisoned || bad }) k seq

/-- R94: sticky conversion flags. -/
def State.cvtFlags (s : State) (k flags : Nat) : State :=
  s.setReg (arrReg k 0x050) (BitVec.ofNat 32 (Nat.lor (s.reg (arrReg k 0x050)).toNat flags))

/-- R59, R80, R81: the word a column write leaves in the bank, with its flags. -/
def accValue (P : Plot) (v : Vec) (c : Nat) : Word × Nat :=
  let x := nth 0 v.sums c
  let old := accGet P v.row c
  let w0 := if nth false v.wraps c then 8 else 0
  if v.int then
    if v.acc then
      let r := addWrap (sext 32 old.toNat) (sext 32 x.toNat)
      (BitVec.ofNat 32 (wrapInt 32 r.1), if r.2 then 8 else w0)
    else (x, w0)
  else
    let y := if v.acc then BitVec.ofNat 32 (enc32 (add32 .near (dec32 old.toNat) (dec32 x.toNat)).1) else x
    (y, if (dec32 y.toNat).isNan then 16 else 0)

/-- The vector whose column `c` falls on cycle `t`. -/
def writing (A : Arr) (c t : Nat) : Option Vec := A.vecs.find? fun v => v.written == c && writeCycle v c == t

/-- A column write is due. -/
def accWriteOk (s : State) (k c t : Nat) : Bool := arrAt s k t && (writing (s.arr k) c t).isSome

/-- ACC_WRITE's effect. -/
def accWrite (s : State) (k c t : Nat) : State :=
  match writing (s.arr k) c t with
  | none => s
  | some v =>
    let r := accValue (s.plot k) v c
    let bad := v.poison || (v.acc && c == 0 && accRowBad (s.plot k) v.row)
    let s1 := (s.updPlot k fun P => accPut P v.row c r.1 bad).cvtFlags k r.2
    if c < 63 then
      s1.updArr k fun A => { A with now := t, vecs := A.vecs.map fun u =>
        if u.e == v.e then { u with written := c + 1, poison := bad } else u }
    else
      let s2 := s1.updArr k fun A =>
        let vs := A.vecs.filter fun u => u.e != v.e
        let rows := A.rows
        { A with
          now := t, vecs := vs
          idleFrom := if vs.isEmpty then t else A.idleFrom
          rows := rows.map fun q => if q.row == v.row && q.seq == v.seq then { q with ready := true } else q }
      if v.drain then s2 else rowDone s2 k v.seq bad

/-- ACC_WRITE (R59). -/
def execAccWrite (p : PlotId) (c : Fin 64) (t : Nat) (s : State) : Out :=
  .next (if accWriteOk s (plotKey p) c.val t then accWrite s (plotKey p) c.val t else s)

/-! ### Drain (R58, R82 to R89, R120) -/

/-- The next row the drain path reads. -/
def drainHead (A : Arr) : Option DrainRow := A.rows.find? fun r => !r.conv

/-- R58: the row's last element has been written. -/
def drainOk (s : State) (k t : Nat) : Bool :=
  arrAt s k t && (match drainHead (s.arr k) with | some r => r.ready | none => false)

/-- R93: an armed generator load happens at a row boundary. -/
def Arr.loadRng (A : Arr) : Arr :=
  match A.rngArm with
  | some v => { A with rng := v, rngArm := none }
  | none => A

/-- R120: where a block row's element bytes lie: two 32 B slots, in which a 4-bit format fills the first 16 B. -/
def blockRowParts (c : Nat) (bytes : List Byte) : List (Nat × List Byte) :=
  let n := 4 * elemBits c
  [(0, bytes.take n), (32, bytes.drop n)]

/-- R120: a drained row written to the tank. -/
def putRow (P : Plot) (d : Desc) (i : Nat) (o : RowOut) (bad : Bool) : Plot :=
  let a := pOutAddr d + i * pOutStride d
  if isBlock (pOutFmt d) then
    let Q := (blockRowParts (pOutFmt d) o.bytes).foldl (fun Q x => tankPut Q (a + x.1) x.2 bad) P
    tankPut Q (pOutScaleAddr d + i * pOutScaleStride d) (o.words.flatMap (leBytes 4)) bad
  else tankPut P a o.bytes bad

/-- R120: the flits of a row, padded to whole flits; every word of a poisoned row is marked. -/
def rowFlits (bytes : List Byte) (bad : Bool) : List FlitData :=
  (List.range ((bytes.length + 63) / 64)).map fun i =>
    { bytes := slice bytes (64 * i) 64, poison := if bad then 0xFF else 0 }

/-- Mark the last of a list. -/
def outFlits (seq : Nat) (slot : Nat) : List FlitData → List OutFlit
  | [] => []
  | [f] => [{ seq := seq, slot := BitVec.ofNat 5 slot, data := f, last := true }]
  | f :: fs => { seq := seq, slot := BitVec.ofNat 5 slot, data := f, last := false } :: outFlits seq slot fs

/-- DRAIN_ROW's effect: the row is read, converted and written, or queued for its stream. -/
def drainRow (s : State) (k t : Nat) : State :=
  match drainHead (s.arr k) with
  | none => s
  | some r =>
    let d := match (livePasses (s.plot k)).find? (fun x => x.seq == r.seq) with | some x => x.desc | none => []
    let fencedPass := (livePasses (s.plot k)).any fun x => x.seq == r.seq && x.fenced
    let s0 := s.updArr k fun A => { A.loadRng with now := t }
    let P := s0.plot k
    let rs := lfsrMany 64 P.arr.rng
    let bad := accRowBad P r.row
    let o := cvtRow (pOutFmt d) (pOutMode d) (pOutScale d) (pInt d) rs.1 (accRow P r.row)
    let drop (A : Arr) : Arr := { A with rows := A.rows.filter fun q => !(q.seq == r.seq && q.index == r.index) }
    if fencedPass || (match pSlot d with | some n => slotFenced s k n | none => false) then
      rowDone (s0.updArr k fun A => drop (A.updPass r.seq fun x => { x with fenced := true })) k r.seq bad
    else
      let s1 := (s0.updArr k fun A => { A with rng := rs.2 }).cvtFlags k o.flags
      match pSlot d with
      | none => rowDone ((s1.updPlot k fun Q => putRow Q d r.index o bad).updArr k drop) k r.seq bad
      | some n =>
        s1.updArr k fun A => { A with
          rows := A.rows.map fun q => if q.seq == r.seq && q.index == r.index then { q with conv := true } else q
          outQ := A.outQ ++ outFlits r.seq n (rowFlits o.bytes bad) }

/-- DRAIN_ROW (R58). -/
def execDrainRow (p : PlotId) (t : Nat) (s : State) : Out :=
  .next (if drainOk s (plotKey p) t then drainRow s (plotKey p) t else s)

/-- R93: the drain path converts nothing at the moment. -/
def drainIdle (A : Arr) : Bool := match drainHead A with | some r => !r.ready | none => true

/-- R93: a write of `ARR_RNG_HI` arms a load of both halves; with no row in conversion it loads at once. -/
def writeArrRng (s : State) (k : Nat) (v : Word) : State :=
  s.updArr k fun A =>
    let B := { A with rngArm := some (rngSeed v A.rngLo) }
    if drainIdle A then B.loadRng else B

/-- ARR_RNG_HI_WRITE (R93). -/
def execArrRngHiWrite (r : Req) (p : PlotId) (v : Word) (s : State) : Out :=
  .next (s.access r (arrReg (plotKey p) 0x04C) fun s => writeArrRng s (plotKey p) v)

/-! ### Activity ramp (R54, R55) -/

/-- R54: `S`, ARR cycles per column group. -/
def rampStep (s : State) (k : Nat) : Nat := s.fld (arrReg k 0x040) 0 4

/-- R54: the 256th consecutive idle cycle. -/
def rampDownOk (s : State) (k t : Nat) : Bool :=
  let A := s.arr k
  arrAt s k t && s.bit (arrReg k 0x040) 5 && A.vecs.isEmpty && A.ramp == .idle && decide (0 < A.groupsOn) &&
  decide (A.idleFrom + 256 ≤ t)

/-- RAMP_DOWN_START (R54). -/
def execRampDownStart (p : PlotId) (t : Nat) (s : State) : Out :=
  .next (if rampDownOk s (plotKey p) t then
    s.updArr (plotKey p) fun A => { A with now := t, ramp := .down t (rampStep s (plotKey p)) } else s)

/-- R54: the next group from 7 down is disabled at `t`. -/
def groupOffOk (s : State) (k t : Nat) : Bool :=
  arrAt s k t && (match (s.arr k).ramp with
    | .down t0 st => decide (0 < (s.arr k).groupsOn) && t == t0 + st * (9 - (s.arr k).groupsOn)
    | _ => false)

/-- COLUMN_GROUP_DISABLE (R54). -/
def execColumnGroupDisable (p : PlotId) (t : Nat) (s : State) : Out :=
  .next (if groupOffOk s (plotKey p) t then
    s.updArr (plotKey p) fun A => { A with
      now := t, groupsOn := A.groupsOn - 1, ramp := if A.groupsOn ≤ 1 then .idle else A.ramp } else s)

/-- R55: a valid vector is ready with every other issue condition met, and groups are off or a ramp-down runs. -/
def rampUpOk (s : State) (k t : Nat) : Bool :=
  let A := s.arr k
  arrAt s k t && !A.haltReq && !clockHold s k &&
  (match A.ramp with | .up _ _ _ => false | .down _ _ => true | .idle => decide (A.groupsOn < 8)) &&
  (match headPass A with
   | none => false
   | some x => dataOk A x.desc &&
      (x.started || (decide (A.pauseTo ≤ t) && weightsOk A x t && permitOk s k t && waitOk s k (syncOf 0 x.desc))))

/-- RAMP_UP_START (R55). -/
def execRampUpStart (p : PlotId) (t : Nat) (s : State) : Out :=
  .next (if rampUpOk s (plotKey p) t then
    s.updArr (plotKey p) fun A => { A with
      now := t
      ramp := if A.groupsOn = 8 then .idle else .up t (rampStep s (plotKey p)) A.groupsOn } else s)

/-- R55: the next disabled group is enabled at `t`. -/
def groupOnOk (s : State) (k t : Nat) : Bool :=
  arrAt s k t && (match (s.arr k).ramp with
    | .up t0 st fr => decide ((s.arr k).groupsOn < 8) && t == t0 + st * ((s.arr k).groupsOn + 1 - fr)
    | _ => false)

/-- COLUMN_GROUP_ENABLE (R55). -/
def execColumnGroupEnable (p : PlotId) (t : Nat) (s : State) : Out :=
  .next (if groupOnOk s (plotKey p) t then
    s.updArr (plotKey p) fun A => { A with
      now := t, groupsOn := A.groupsOn + 1, ramp := if A.groupsOn = 7 then .idle else A.ramp } else s)

/-! ### Halts (R65) -/

/-- HALT_REQUEST (R65): the feeder stops issuing. -/
def execHaltRequest (p : PlotId) (t : Nat) (s : State) : Out :=
  .next (if decide ((s.arr (plotKey p)).now ≤ t) && haltInForce s (plotKey p) then
    (s.updArr (plotKey p) fun A => { A with now := t, haltReq := true }).setBit (pqReg (plotKey p) 0x06C) 15 else s)

/-- ARRAY_HALTED (R65): the array holds no vector. -/
def execArrayHalted (p : PlotId) (t : Nat) (s : State) : Out :=
  .next (if decide ((s.arr (plotKey p)).now ≤ t) && (s.arr (plotKey p)).haltReq && (s.arr (plotKey p)).vecs.isEmpty then
    s.updArr (plotKey p) fun A => { A with now := t, halted := true } else s)

/-- R65: the halt is released: issue resumes. -/
def State.resumeArr (s : State) (k : Nat) : State :=
  if haltInForce s k then s
  else (s.updArr k fun A => { A with haltReq := false, halted := false }).clrBit (pqReg k 0x06C) 15

/-! ### Configuration (R68), fence and reset (R67) -/

/-- R68: `RAMP_STEP` outside 3 to 12 is ignored and sets `CFG_REJ`; the other fields take effect. -/
def writeArrCfg (s : State) (k : Nat) (v : Word) : State :=
  let st := nbits v.toNat 0 4
  let s1 := s.setFld (arrReg k 0x040) 4 2 (nbits v.toNat 4 2)
  if 3 ≤ st ∧ st ≤ 12 then s1.setFld (arrReg k 0x040) 0 4 st else s1.setBit (arrReg k 0x044) 16

/-- ARR_CFG_WRITE (R68). -/
def execArrCfgWrite (r : Req) (p : PlotId) (v : Word) (s : State) : Out :=
  .next (s.access r (arrReg (plotKey p) 0x040) fun s => writeArrCfg s (plotKey p) v)

/-- R67: what the array holds is discarded; rows that vectors in flight were writing hold open values. The column
groups, the generator and the cycle count stay as they are. -/
def State.clearArr (s : State) (k : Nat) : State :=
  let rows := (s.arr k).vecs.map (·.row)
  let s1 := rows.foldl (fun s r => (List.range 64).foldl (fun s c =>
    (s.updPlot k fun P => accPut P r c (BitVec.ofNat 32 s.free) false).drawn) s) s
  s1.updArr k fun A =>
    { now := A.now, nextSeq := A.nextSeq, groupsOn := A.groupsOn, ramp := A.ramp, idleFrom := A.now, slotAt := A.now,
      haltReq := A.haltReq, halted := A.halted, rng := A.rng, rngLo := A.rngLo, rngArm := A.rngArm }

end Sys2Proof.Machine
end

