-- ==== Sys2Proof/Machine/Cistern.lean ====
section
/-!
DEFINITION. Cistern.lean: the slice controller (R206 to R238) and its code words (R239 to R255): classification and
correction, reads, writes and read-modify-writes, weir operations, what waits and what the band holds, fills, refresh,
the error logs (R251 to R254).
-/
namespace Sys2Proof.Machine

/-! ### The code (R239 to R241) -/

/-- Product in GF(2^8) modulo 0x11D. -/
def gfMulGo : Nat → Nat → Nat → Nat → Nat
  | 0, _, _, acc => acc
  | n + 1, a, b, acc =>
    gfMulGo n (if a ≥ 128 then Nat.xor (2 * a) 0x11D else 2 * a) (b / 2) (if b % 2 = 1 then Nat.xor acc a else acc)

def gfMul (a b : Nat) : Nat := gfMulGo 8 a b 0

/-- α ^ n. -/
def gfAlpha : Nat → Nat
  | 0 => 1
  | n + 1 => gfMul 2 (gfAlpha n)

/-- R239: one step of the division by g(x), high data byte first, over the remainder (r0, r1, r2, r3). -/
def rsStep (r : Nat × Nat × Nat × Nat) (d : Nat) : Nat × Nat × Nat × Nat :=
  let fb := Nat.xor d r.2.2.2
  (gfMul fb 0x40, Nat.xor r.1 (gfMul fb 0x78), Nat.xor r.2.1 (gfMul fb 0x36), Nat.xor r.2.2.1 (gfMul fb 0x0F))

/-- R239: the check bytes of 32 data bytes as one word. -/
def rsCheck (data : List Byte) : Nat :=
  let r := (slice data 0 32).reverse.foldl (fun r b => rsStep r b.toNat) (0, 0, 0, 0)
  r.1 + 256 * r.2.1 + 65536 * r.2.2.1 + 16777216 * r.2.2.2

/-- R241: what poison XORs into the check bytes. -/
def poisonMark : Nat := 0x5AA55AA5

/-- R240: syndromes S0 to S3 of a word whose check bytes differ from its data's by `d`. -/
def syndromes (d : Nat) : List Nat :=
  (List.range 4).map fun k => (List.range 4).foldl (fun a j => Nat.xor a (gfMul (nbits d (8 * j) 8) (gfAlpha (k * j)))) 0

/-- R240: packed. -/
def packSyn (l : List Nat) : Nat := nth 0 l 0 + 256 * nth 0 l 1 + 65536 * nth 0 l 2 + 16777216 * nth 0 l 3

/-- R240: the position of a single-byte pattern. -/
def singleAt (l : List Nat) : Option Nat :=
  if nth 0 l 0 = 0 then none
  else (List.range 36).find? fun j =>
    let a := gfAlpha j
    nth 0 l 1 == gfMul (nth 0 l 0) a && nth 0 l 2 == gfMul (nth 0 l 1) a && nth 0 l 3 == gfMul (nth 0 l 2) a

/-- R241: how a word reads. -/
inductive WordClass where
  | clean
  | poisoned
  | poisonedErr
  | correctable (j e : Nat)
  | uncorrectable
  deriving DecidableEq, Repr

/-- R241: classification by the first row that matches. -/
def classify (d : Nat) : WordClass :=
  if d = 0 then .clean
  else if d = poisonMark then .poisoned
  else if (singleAt (syndromes (Nat.xor d poisonMark))).isSome then .poisonedErr
  else match singleAt (syndromes d) with
    | some j => .correctable j (nth 0 (syndromes d) 0)
    | none => .uncorrectable

/-! ### Stored words -/

/-- Key of code word `w` of cistern `k`. -/
def wordKey (k w : Nat) : Nat := k * 67108864 + w

/-- Key of byte `off` of cistern `k`. -/
def byteKey (k off : Nat) : Nat := k * 2147483648 + off

/-- The 32 stored data bytes. -/
def rawWord (s : State) (k w : Nat) : List Byte := tgets 0 s.dram (byteKey k (32 * w)) 32

/-- The check difference of a word. -/
def rawChk (s : State) (k w : Nat) : Nat := (tget 0 s.chk (wordKey k w)).toNat

/-- Store data bytes and a check difference. -/
def State.putWord (s : State) (k w : Nat) (bs : List Byte) (d : Nat) : State :=
  { s with dram := tputs 0 s.dram (byteKey k (32 * w)) bs, chk := tput 0 s.chk (wordKey k w) (BitVec.ofNat 32 d) }

/-- R208: the bank of a cistern offset. -/
def bankOf (off : Nat) : Nat := nbits off 8 5

/-- R208: the row of a cistern offset. -/
def rowOf (off : Nat) : Nat := nbits off 16 15

/-- R213: the segment of a cistern offset. -/
def segOf (off : Nat) : Nat := nbits off 28 3

/-- R211: the cistern direct address. -/
def direct (k off : Nat) : Nat := k * 2147483648 + off

/-- The cistern's slice controller answers (R191, R215). -/
def cisternUp (s : State) (k : Nat) : Bool :=
  decide (k < 512) && stackUp s (k / 32) && plotReported s k && !(s.slc k).lost

/-! ### Error logs (R251 to R254) -/

/-- R268: `FOUND_BY`. -/
def foundBy : Src → Nat
  | .port => 0
  | .rmw => 1
  | .scrub => 2
  | .noria => 3
  | .copy => 4

/-- R275: the bank-local address of a cistern offset. -/
def bankLocal (off : Nat) : Nat := off % 256 + nbits off 13 3 * 256 + rowOf off * 2048

/-- R254: the word lies in its bank's most recent noria range. -/
def inNoriaRange (s : State) (k w : Nat) : Bool :=
  let a := norReg k (0x080 + 8 * bankOf (32 * w))
  let bl := bankLocal (32 * w)
  s.bit a 31 && decide (s.fld a 0 26 ≤ bl + 31) && decide (bl ≤ s.fld (a + 4) 0 26)

/-- The log entry at `base` (64 or 16 entries of 32 B) that a word takes: its own, or the lowest free one. -/
def logSlot (s : State) (base n w pl : Nat) : Option (Nat × Bool) :=
  let is := (List.range n).map fun i => base + 32 * i
  match is.find? (fun a => s.bit a 31 && s.fld a 0 26 == w && s.fld a 26 5 == pl) with
  | some a => some (a, true)
  | none => (is.find? fun a => !s.bit a 31).map fun a => (a, false)

/-- R252: `ECC_CFG.WINDOW` in ms and `THRESH`; 0 is taken as 1. -/
def eccWindow (s : State) (st : Nat) : Nat := max 1 (s.fld (smReg st 0x100) 8 8) * 3600000
def eccThresh (s : State) (st : Nat) : Nat := max 1 (s.fld (smReg st 0x100) 0 8)

/-- The fields both logs share. -/
def State.logCommon (s : State) (a : Nat) (old : Bool) (w pl syn pos fb : Nat) (sus : Bool) : State :=
  let now := msNow s % 2 ^ 32
  let s0 := if old then s else (List.range 8).foldl (fun s i => s.setReg (a + 4 * i) 0) s
  let s1 := ((s0.setReg a (BitVec.ofNat 32 (w + pl * 2 ^ 26 + 2 ^ 31))).setReg (a + 4) (BitVec.ofNat 32 syn)).addFld (a + 8) 0 16 1
  let s2 := (s1.setFld (a + 8) 16 6 pos).setReg (a + 16) (BitVec.ofNat 32 now)
  let s3 := if old then s2 else s2.setReg (a + 12) (BitVec.ofNat 32 now)
  let s4 := s3.setFld (a + 24) 0 3 fb
  if sus then s4.setBit (a + 8) 31 else s4

/-- R252: the lasting-fault window of an entry at an error. -/
def State.window (s : State) (a st k off : Nat) : State :=
  let now := msNow s % 2 ^ 32
  let diff := (now + 2 ^ 32 - (s.reg (a + 20)).toNat) % 2 ^ 32
  let s1 :=
    if !s.bit (a + 24) 3 || decide (eccWindow s st < diff) then
      ((s.setReg (a + 20) (BitVec.ofNat 32 now)).setFld (a + 8) 22 8 1).setBit (a + 24) 3
    else s.addFld (a + 8) 22 8 1
  if eccThresh s st ≤ s1.fld (a + 8) 22 8 ∧ !s1.bit (a + 8) 30 then
    (s1.setBit (a + 8) 30).report (partOf s st) 0x01 1 st (k % 32) (direct k off)
  else s1

/-- R251: a correctable error. -/
def State.logCE (s : State) (k w syn pos fb : Nat) (sus : Bool) : State :=
  let st := k / 32
  match logSlot s (smReg st 0x800) 64 w (k % 32) with
  | some (a, old) => (s.logCommon a old w (k % 32) syn pos fb sus).window a st k (32 * w)
  | none =>
    let first := s.fld (smReg st 0x108) 0 16 == 0
    let s1 := s.addFld (smReg st 0x108) 0 16 1
    if first then s1.report (partOf s st) 0x06 3 st (k % 32) (direct k (32 * w)) else s1

/-- R253: an uncorrectable word, or a double-bit error of the plot's own memories. -/
def State.logUE (s : State) (k w syn pos fb : Nat) (sus : Bool) : State :=
  let st := k / 32
  match logSlot s (smReg st 0x400) 16 w (k % 32) with
  | some (a, old) => s.logCommon a old w (k % 32) syn pos fb sus
  | none => s.addFld (smReg st 0x108) 16 16 1

/-! ### What holds writes (R234) and what waits (R221, R231, R257) -/

/-- R232, R234: the band in force holds writes. -/
def bandHeld (s : State) (st : Nat) : Bool := (s.stk st).applied == 0 || (s.stk st).applied == 4

/-- The code words a range touches. -/
def codeWords (off len : Nat) : List Nat :=
  if len = 0 then [] else (List.range ((off + len - 1) / 32 - off / 32 + 1)).map (· + off / 32)

/-- The 256 B bursts a range touches. -/
def bursts (off len : Nat) : List Nat :=
  if len = 0 then [] else (List.range ((off + len - 1) / 256 - off / 256 + 1)).map (· + off / 256)

/-- A held or waiting request will change word `w`. -/
def HeldReq.touches (w : Nat) : HeldReq → Bool
  | .write off data _ => (codeWords off data.length).contains w
  | .weir _ _ off operand _ => (codeWords off operand.length).contains w
  | .poisonBack off => off / 32 == w
  | .scrubBack off => off / 32 == w

/-- R231: the segment waits to be filled. -/
def segWaits (S : Slice) (off : Nat) : Bool :=
  match S.fill with
  | some f => nbit f.set.toNat (segOf off) && !nbit f.done.toNat (segOf off)
  | none => false

/-- R257: the row is being copied to its spare. -/
def rowWaits (S : Slice) (off : Nat) : Bool :=
  match S.ppr with
  | some r => r.bank.toNat == bankOf off && r.row.toNat == rowOf off
  | none => false

/-- A burst cannot be reached now: its segment is filling, its row is being repaired, or a noria step runs on its bank
(R221, R231, R257, R289). -/
def burstWaits (s : State) (k b : Nat) : Bool :=
  segWaits (s.slc k) (256 * b) || (rowWaits (s.slc k) (256 * b) && !bandHeld s (k / 32)) || nbit (s.nor k).stepping.toNat (bankOf (256 * b))

/-- A range cannot be reached now. -/
def rangeWaits (s : State) (k off len : Nat) : Bool := (bursts off len).any (burstWaits s k)

/-- R234: a held or waiting request will change the range. -/
def behindHeld (s : State) (k off len : Nat) : Bool :=
  (codeWords off len).any fun w => ((s.slc k).held ++ (s.slc k).waiting).any (HeldReq.touches w)

/-- R594: the stop unit of a slice controller. -/
def sliceUnit (k : Nat) : UnitId := ⟨Fin.ofNat 17 (k / 32), 3, k % 32⟩

/-- A read can be served now; a slice controller that has taken its snapshot serves nothing (R593). -/
def readGo (s : State) (k off len : Nat) : Bool :=
  cisternUp s k && !stopped s (sliceUnit k) && !rangeWaits s k off len && !behindHeld s k off len

/-- A write can be served now. -/
def writeGo (s : State) (k off len : Nat) : Bool := readGo s k off len && !bandHeld s (k / 32)

/-! ### Reading a word (R244 to R247) -/

/-- R245: an uncorrectable word is written back poisoned, over its stored data, or held while writes are. -/
def State.poisonBack (s : State) (k w : Nat) : State :=
  if bandHeld s (k / 32) then s.updSlc k fun S => { S with held := S.held ++ [.poisonBack (32 * w)] }
  else s.putWord k w (rawWord s k w) poisonMark

/-- The stored bytes with the wrong byte corrected; a wrong check byte leaves them as they are. -/
def corrected (bs : List Byte) (j e : Nat) : List Byte :=
  if j < 4 then bs else setNth 0 bs (j - 4) (nth 0 bs (j - 4) ^^^ BitVec.ofNat 8 e)

/-- R249: the error is already waiting for its demand scrub. -/
def knownError (s : State) (k w syn : Nat) : Bool := (s.slc k).demand.any fun x => x.1 == 32 * w && x.2.toNat == syn

/-- One code word read: the state after its logs and counters, its data, and whether it reads as poison. -/
def readWord (s : State) (k w : Nat) (src : Src) : State × List Byte × Bool :=
  let d := rawChk s k w
  let bs := rawWord s k w
  let syn := packSyn (syndromes d)
  let sus := inNoriaRange s k w
  let st := k / 32
  let pr (s : State) : State := if src = .port then s.count k 45 1 else s
  let su (s : State) : State := if sus then s.count k 46 1 else s
  match classify d with
  | .clean => (s, bs, false)
  | .poisoned => (pr s, bs, true)
  | .poisonedErr =>
    (pr ((su (s.logUE k w syn 63 (foundBy src) sus)).report (partOf s st) (if sus then 0x05 else 0x04) 2 st (k % 32) (direct k (32 * w))),
      bs, true)
  | .correctable j e =>
    if knownError s k w syn then (s, corrected bs j e, false)
    else
      let s1 := su ((s.logCE k w syn j (foundBy src) sus).count k 43 1)
      let s2 := if src = .scrub then s1
        else s1.updSlc k fun S => { S with demand := S.demand ++ [(32 * w, BitVec.ofNat 32 syn)] }
      (s2, corrected bs j e, false)
  | .uncorrectable =>
    let s1 := su ((s.logUE k w syn 63 (foundBy src) sus).count k 44 1)
    let s2 := (s1.pageErr (slcReg k 0) (direct k (32 * w))).report (partOf s st)
      (if sus then 0x05 else if src = .scrub then 0x03 else 0x02) 2 st (k % 32) (direct k (32 * w))
    (pr (s2.poisonBack k w), bs, true)

/-- Words one after another. -/
def readWords (s : State) (k : Nat) (src : Src) : List Nat → State × List Byte × Bool
  | [] => (s, [], false)
  | w :: ws =>
    let r := readWord s k w src
    let t := readWords r.1 k src ws
    (t.1, r.2.1 ++ t.2.1, r.2.2 || t.2.2)

/-- R220, R222: a read of `len` bytes: data, and whether any word of it is poison. -/
def State.cisRead (s : State) (k off len : Nat) (src : Src) : State × List Byte × Bool :=
  let n := (bursts off len).length
  let r := readWords ((s.count k 36 n).count k 39 n) k src (codeWords off len)
  (r.1, slice r.2.1 (off % 32) len, r.2.2)

/-! ### Writing a word (R222, R246, R255) -/

/-- R255: the flips that match a write. -/
def flipOn (s : State) (k : Nat) (src : Src) : Bool :=
  s.bit (slcReg k 0x058) 0 &&
  (match s.fld (slcReg k 0x058) 1 2, src with
   | 0, .port => true
   | 0, .rmw => true
   | 0, .noria => true
   | 1, .port => true
   | 1, .rmw => true
   | 2, .noria => true
   | _, _ => false)

/-- R255: the four flips as positions and masks, those in use. -/
def flipsOf (s : State) (k : Nat) : List (Nat × Nat) :=
  (List.range 4).filterMap fun i =>
    let a := slcReg k (0x05C + 4 * (i / 2))
    if nbit (s.fld (slcReg k 0x058) 3 4) i then some (s.fld a (16 * (i % 2)) 6, s.fld a (16 * (i % 2) + 8) 8) else none

/-- R255: the flips XORed into a stored word. -/
def State.flipWord (s : State) (k w : Nat) : State :=
  let fs := flipsOf s k
  let delta := fs.foldl (fun (l : List Byte) f =>
    if 4 ≤ f.1 ∧ f.1 < 36 then setNth 0 l (f.1 - 4) (nth 0 l (f.1 - 4) ^^^ BitVec.ofNat 8 f.2) else l) (List.replicate 32 0)
  let cd := fs.foldl (fun a f => if f.1 < 4 then Nat.xor a (f.2 * 256 ^ f.1) else a) 0
  let bs := (rawWord s k w).zip delta |>.map fun x => x.1 ^^^ x.2
  ((s.putWord k w bs (Nat.xor (Nat.xor (rawChk s k w) (rsCheck delta)) cd)).clrBit (slcReg k 0x058) 0).setReg
    (slcReg k 0x064) (BitVec.ofNat 32 (32 * w + 2 ^ 31))

/-- Store an encoded word, poisoned or not. -/
def State.storeWord (s : State) (k w : Nat) (bs : List Byte) (bad : Bool) (src : Src) : State :=
  let s1 := s.putWord k w bs (if bad then poisonMark else 0)
  if flipOn s k src then s1.flipWord k w else s1

/-- R161, R222, R246: the part of a write that falls in word `w`: `lo` and `n` in the word. A partial write is a
read-modify-write, which a poisoned or uncorrectable word refuses. The Bool says that it was refused. -/
def writeWord (s : State) (k w lo : Nat) (bs : List Byte) (bad : Bool) (src : Src) : State × Bool :=
  if bs.length = 32 then (s.storeWord k w bs bad src, false)
  else
    let r := readWord s k w (if src = .port then .rmw else src)
    if bad then (r.1.storeWord k w (putBytes (rawWord s k w) lo bs) true src, false)
    else if r.2.2 then (r.1, true)
    else (r.1.storeWord k w (putBytes r.2.1 lo bs) false src, false)

/-- The pieces of a write, word by word. -/
def writeWords (s : State) (k off : Nat) (data : List Byte) (bad : Bool) (src : Src) : List Nat → State × Bool
  | [] => (s, false)
  | w :: ws =>
    let a := max off (32 * w)
    let b := min (off + data.length) (32 * w + 32)
    let r := writeWord s k w (a - 32 * w) (slice data (a - off) (b - a)) bad src
    let t := writeWords r.1 k off data bad src ws
    (t.1, r.2 || t.2)

/-- A burst of which some word is written in part. -/
def partialBurst (off len b : Nat) : Bool :=
  let lo := max off (256 * b)
  let hi := min (off + len) (256 * b + 256)
  lo % 32 != 0 || hi % 32 != 0

/-- A 64 B line of cistern `k` in the core caches of stack `st`. -/
def lineKey (st k off : Nat) : Nat := st * 17179869184 + k * 33554432 + off / 64

/-- R412, R414: copies of a range that the core caches of the cistern's own stack hold are invalidated, with the reservations
on it. -/
def State.dropLines (s : State) (k off len : Nat) : State :=
  let hit (a : Nat) : Bool := decide (lineKey (k / 32) k off ≤ a) && decide (a ≤ lineKey (k / 32) k (off + len - 1))
  if s.caches.isEmpty ∧ s.cores.isEmpty then s
  else (List.range 8).foldl (fun s c =>
    let n := 8 * (k / 32) + c
    (match (s.core n).resv with
     | some a => if hit a then s.updCore n fun C => { C with resv := none } else s
     | none => s)) { s with caches := tkeep s.caches fun a => !(hit a) }

/-- R220, R222: a write; the Bool says that some word refused it (`POISONED`). -/
def State.cisWrite (s : State) (k off : Nat) (data : List Byte) (bad : Bool) (src : Src) : State × Bool :=
  let bs := bursts off data.length
  let p := (bs.filter fun b => partialBurst off data.length b).length
  let s0 := if src = .port then s.dropLines k off data.length else s
  let s1 := ((((s0.count k 37 bs.length).count k 36 p).count k 38 p).count k 39 bs.length)
  writeWords s1 k off data bad src (codeWords off data.length)

/-! ### Weir adders (R224 to R229) -/

/-- R224: the lane format: element format code, or an integer of that many bits. -/
inductive Lane where
  | float (f : FFmt) (n : Nat)
  | int (n : Nat)
  | bits

/-- R224: lane of an operation. -/
def weirLane (op : Nat) : Option Lane :=
  match op with
  | 0x0 => some (.float fp32 4)
  | 0x1 => some (.float bf16 2)
  | 0x2 => some (.float fp16 2)
  | 0x3 => some (.int 4)
  | 0x4 => some (.int 4)
  | 0x5 => some (.int 4)
  | 0x6 => some (.int 8)
  | 0x7 => some (.int 8)
  | 0x8 => some (.int 8)
  | 0x9 => some .bits
  | 0xA => some .bits
  | 0xB => some .bits
  | 0xC => some (.int 8)
  | _ => none

/-- R224: the element sizes that a barge may pair with an operation. -/
def weirPairOk (op esize : Nat) : Bool :=
  decide (esize ≤ 5) &&
  (match weirLane op with
   | some (.float _ n) => if n = 4 then decide (2 ≤ esize) else decide (1 ≤ esize)
   | some (.int n) => op != 0xC && (if n = 4 then decide (2 ≤ esize) else decide (3 ≤ esize))
   | some .bits => true
   | none => false)

/-- R225: one lane: the new value and its flags: 2 NaN, 4 overflow to infinity, 8 integer wrap. -/
def weirLaneOp (op old x : Nat) : Nat × Nat :=
  let flt (f : FFmt) : Nat × Nat :=
    let r := cvtFloat f { stoch := false, sat := false } 0 ((f.decode old).add (f.decode x))
    (r.1, (if nbit r.2 2 then 2 else 0) + (if nbit r.2 0 then 4 else 0))
  let add (w : Nat) : Nat × Nat :=
    let z := sext w old + sext w x
    (wrapInt w z, if z < -(2 ^ (w - 1) : Int) ∨ (2 ^ (w - 1) : Int) ≤ z then 8 else 0)
  let pick (w : Nat) (mx : Bool) : Nat × Nat :=
    (if (sext w old < sext w x) == mx then x else old, 0)
  match op with
  | 0x0 => flt fp32
  | 0x1 => flt bf16
  | 0x2 => flt fp16
  | 0x3 => add 32
  | 0x4 => pick 32 false
  | 0x5 => pick 32 true
  | 0x6 => add 64
  | 0x7 => pick 64 false
  | 0x8 => pick 64 true
  | 0x9 => (Nat.land old x, 0)
  | 0xA => (Nat.lor old x, 0)
  | 0xB => (Nat.xor old x, 0)
  | _ => (old, 0)

/-- Bytes of a lane. -/
def laneBytes (op : Nat) : Nat :=
  match weirLane op with
  | some (.float _ n) => n
  | some (.int n) => n
  | _ => 1

/-- R225: an element's operation on old bytes, lane by lane. -/
def weirBytes (op : Nat) (old x : List Byte) : List Byte × Nat :=
  let n := laneBytes op
  let rs := (List.range (x.length / n)).map fun i => weirLaneOp op (leAt old (n * i) n) (leAt x (n * i) n)
  (rs.flatMap fun r => leBytes n r.1, rs.foldl (fun a r => Nat.lor a r.2) 0)

/-- R235: set flags of `CISTERN_WEIR_STAT`. -/
def State.weirFlags (s : State) (k fl : Nat) : State :=
  s.setReg (slcReg k 0x04C) (BitVec.ofNat 32 (Nat.lor (s.reg (slcReg k 0x04C)).toNat fl))

/-- R225: CAS64: the operand holds the swap value and then the compare value. -/
def casBytes (old operand : List Byte) : List Byte := if leAt old 0 8 = leAt operand 8 8 then operand.take 8 else old

/-- R227, R229: the part of an element in word `w`: the new state, the old bytes, and whether it met poison. -/
def weirWord (s : State) (k w lo op : Nat) (x : List Byte) (bad : Bool) : State × List Byte × Bool :=
  let n := if op = 0xC then 8 else x.length
  let r := readWord s k w .rmw
  let old := slice r.2.1 lo n
  if r.2.2 then (r.1.weirFlags k 1, old, true)
  else if bad then (r.1.storeWord k w r.2.1 true .rmw, old, true)
  else
    let y := if op = 0xC then (casBytes old x, 0) else weirBytes op old x
    ((r.1.storeWord k w (putBytes r.2.1 lo y.1) false .rmw).weirFlags k y.2, old, false)

/-- The words of an element in turn. -/
def weirWords (s : State) (k off op : Nat) (x : List Byte) (bad : Bool) : List Nat → State × List Byte × Bool
  | [] => (s, [], false)
  | w :: ws =>
    let a := max off (32 * w)
    let b := min (off + x.length) (32 * w + 32)
    let r := weirWord s k w (a - 32 * w) op (slice x (a - off) (b - a)) bad
    let t := weirWords r.1 k off op x bad ws
    (t.1, r.2.1 ++ t.2.1, r.2.2 || t.2.2)

/-- R227: one element of a weir operation: the state, the old value and whether it met poison. -/
def State.cisWeir (s : State) (k op off : Nat) (x : List Byte) (bad : Bool) : State × List Byte × Bool :=
  let n := (bursts off (if op = 0xC then 8 else x.length)).length
  let s1 := ((((s.dropLines k off x.length).count k 40 1).count k 36 n).count k 37 n).count k 39 n
  if op = 0xC then weirWord s1 k (off / 32) (off % 32) op x bad
  else weirWords s1 k off op x bad (codeWords off x.length)

/-! ### Held and waiting requests -/

/-- A held or waiting request takes effect. -/
def State.serveHeld (s : State) (k : Nat) : HeldReq → State
  | .write off data bad => (s.cisWrite k off data bad .port).1
  | .weir op _ off x bad => (s.cisWeir k op.toNat off x bad).1
  | .poisonBack off => s.putWord k (off / 32) (rawWord s k (off / 32)) poisonMark
  | .scrubBack off =>
    match classify (rawChk s k (off / 32)) with
    | .correctable j e => s.putWord k (off / 32) (corrected (rawWord s k (off / 32)) j e) 0
    | _ => s

/-- Bytes a request touches. -/
def HeldReq.range : HeldReq → Nat × Nat
  | .write off data _ => (off, data.length)
  | .weir _ _ off x _ => (off, x.length)
  | .poisonBack off => (off / 32 * 32, 32)
  | .scrubBack off => (off / 32 * 32, 32)

/-- R222, R234: requests served in the order they came, each once nothing stops it. -/
def State.serveList (s : State) (k : Nat) : List HeldReq → State
  | [] => s
  | h :: hs =>
    let blocked := bandHeld s (k / 32) || rangeWaits s k h.range.1 h.range.2 ||
      (codeWords h.range.1 h.range.2).any fun w => (s.slc k).waiting.any (HeldReq.touches w)
    if blocked then (s.updSlc k fun S => { S with waiting := S.waiting ++ [h] }).serveList k hs
    else (s.serveHeld k h).serveList k hs

/-- What waited is tried again. -/
def State.serveWaiting (s : State) (k : Nat) : State :=
  let hs := (s.slc k).held ++ (s.slc k).waiting
  if bandHeld s (k / 32) || stopped s (sliceUnit k) then s
  else (s.updSlc k fun S => { S with held := [], waiting := [] }).serveList k hs

/-- R234: a request that must wait is kept: 64 under the band's hold, the others behind their wait. -/
def State.keepReq (s : State) (k : Nat) (h : HeldReq) : State :=
  if bandHeld s (k / 32) then
    (if (s.slc k).held.length < 64 then s.updSlc k fun S => { S with held := S.held ++ [h] } else s)
  else s.updSlc k fun S => { S with waiting := S.waiting ++ [h] }

/-! ### Commands of the slice controller -/

/-- The offsets of a request lie in a cistern. -/
def inCistern (off len : Nat) : Bool := decide (off + len ≤ 2147483648)

/-- The answer of a read, write or fetch. -/
def State.answerCis (s : State) (data : List Byte) (poison : Bool) : State :=
  { s with reply := { data := data, poison := poison } }

/-- CISTERN_READ (R222): served once nothing makes it wait. -/
def execCisternRead (p : PlotId) (off len : Nat) (src : Src) (s : State) : Out :=
  let k := plotKey p
  .next (if inCistern off len && readGo s k off len then
    (let r := s.cisRead k off len src
     r.1.answerCis r.2.1 r.2.2) else s)

/-- CISTERN_WRITE (R222, R234): served, or kept while something makes it wait. -/
def execCisternWrite (p : PlotId) (off : Nat) (data : List Byte) (poison : Bool) (src : Src) (s : State) : Out :=
  let k := plotKey p
  .next (if !(inCistern off data.length && cisternUp s k) then s
    else if writeGo s k off data.length then
      (let r := s.cisWrite k off data poison src
       r.1.answerCis [] r.2)
    else s.keepReq k (.write off data poison))

/-- R224: an element that a source may send: a known operation on an allowed size. -/
def weirOk (op esize n : Nat) : Bool :=
  if op = 0xC then n == 16 else weirPairOk op esize && n == (match esize with | 0 => 1 | 1 => 2 | 2 => 4 | 3 => 8 | 4 => 32 | _ => 256)

/-- WEIR_OP_APPLY (R227). -/
def execWeirOpApply (p : PlotId) (op : BitVec 4) (esize : BitVec 3) (off : Nat) (operand : List Byte) (poison fetch : Bool)
    (s : State) : Out :=
  let k := plotKey p
  let n := if op = 0xC then 8 else operand.length
  .next (if !(inCistern off n && cisternUp s k && weirOk op.toNat esize.toNat operand.length) then s
    else if writeGo s k off n then
      (let r := s.cisWeir k op.toNat off operand poison
       r.1.answerCis (if fetch then r.2.1 else []) r.2.2)
    else s.keepReq k (.weir op esize off operand poison))

/-- BANK_REFRESH (R232): no noria step runs on the bank. -/
def execBankRefresh (p : PlotId) (bank : Fin 32) (s : State) : Out :=
  let k := plotKey p
  .next (if cisternUp s k && !nbit (s.nor k).stepping.toNat bank.val then
    (s.count k 42 1).updSlc k fun S => { S with refreshAt := tput 0 S.refreshAt bank.val (tget 0 S.refreshAt bank.val + 1) }
    else s)

/-- R233: a band change is due at the slice controllers. -/
def bandDue (s : State) (st : Nat) : Bool := stackUp s st && (s.stk st).applied != s.fld (smReg st 0x040) 0 3

/-- R233, R234: the new band is in force; requests it no longer holds are served. -/
def applyBand (st : Nat) (s : State) : State :=
  let s1 := s.updStk st fun T => { T with applied := s.fld (smReg st 0x040) 0 3, bandAt := none }
  (List.range 32).foldl (fun s p => s.serveWaiting (32 * st + p)) s1

/-- BAND_APPLY (R233). -/
def execBandApply (st : Fin 16) (s : State) : Out := .next (if bandDue s st.val then applyBand st.val s else s)

/-! ### Fill (R230, R231) -/

/-- R230: a fill of the segments of `set` starts. -/
def State.startFill (s : State) (k set : Nat) : State :=
  if set % 256 = 0 then s
  else
    let b := BitVec.ofNat 8 set
    (s.updSlc k fun S => { S with fill := some { set := b, done := 0 } }).setReg (slcReg k 0x048) (BitVec.ofNat 32 (set % 256))

/-- R231: segments fill in ascending order. -/
def nextSeg (f : FillSt) : Option Nat := (List.range 8).find? fun g => nbit f.set.toNat g && !nbit f.done.toNat g

/-- R230: one segment of zeros with valid check bytes. -/
def State.zeroSegment (s : State) (k g : Nat) : State :=
  let lo := byteKey k (g * 268435456)
  let wl := wordKey k (g * 8388608)
  { s with dram := tkeep s.dram (fun a => decide (a < lo) || decide (lo + 268435456 ≤ a))
           chk := tkeep s.chk (fun a => decide (a < wl) || decide (wl + 8388608 ≤ a)) }

/-- R231: a segment of the fill is done. -/
def fillDone (k g : Nat) (s : State) : State :=
  match (s.slc k).fill with
  | none => s
  | some f =>
    let d := Nat.lor f.done.toNat (2 ^ g)
    let whole := d == f.set.toNat
    let s1 := (s.zeroSegment k g).updSlc k fun S => { S with
      fill := if whole then none else some { f with done := BitVec.ofNat 8 d } }
    (s1.setFld (slcReg k 0x048) 8 8 d).serveWaiting k

/-- The segment is the next of the fill and nothing holds it (R234). -/
def fillGo (s : State) (k g : Nat) : Bool :=
  cisternUp s k && !bandHeld s (k / 32) && (match (s.slc k).fill with | some f => nextSeg f == some g | none => false)

/-- FILL_SEGMENT_DONE (R231). -/
def execFillSegmentDone (p : PlotId) (seg : Fin 8) (s : State) : Out :=
  .next (if fillGo s (plotKey p) seg.val then fillDone (plotKey p) seg.val s else s)

end Sys2Proof.Machine
end

