-- ==== Sys2Proof/Machine/Commons.lean ====
section
/-!
DEFINITION. Commons.lean: device addresses (R211, R212), the placement of commons granules (R213 to R219), the remap
table (R259 to R263), and reads, writes and weir operations at device addresses.
-/
namespace Sys2Proof.Machine

/-! ### Placement (R214 to R218) -/

/-- Where a commons offset lies: kind (0 hashed, 1 to 4 affine window), slice, cistern and offset. -/
structure Place where
  kind : Nat
  slice : Nat
  key : Nat
  off : Nat
  remapped : Bool
  deriving DecidableEq, Repr

/-- R215: H. -/
def cfgH (s : State) (n : Nat) : Nat := s.fld (comReg n 0x040) 0 4

/-- R215: segments of affine window `w`. -/
def cfgA (s : State) (n w : Nat) : Nat := s.fld (comReg n 0x040) (4 + 4 * w) 4

/-- R213: S. -/
def cfgS (s : State) (n : Nat) : Nat := cfgH s n + cfgA s n 0 + cfgA s n 1 + cfgA s n 2 + cfgA s n 3

/-- R214: slices of the commons. -/
def commonsN (s : State) (n : Nat) : Nat := 32 * (arcOf s n).length

/-- R214: bytes of the commons. -/
def commonsSize (s : State) (n : Nat) : Nat := commonsN s n * cfgS s n * 268435456

/-- R214: the cistern of slice `sl`. -/
def sliceKey (s : State) (n sl : Nat) : Nat := 32 * nth 0 (arcOf s n) (sl / 32) + sl % 32

/-- R216: the slice of a hashed offset over `2 ^ w` slices. -/
def hashSlice (w o : Nat) : Nat :=
  (List.range w).foldl (fun a i =>
    a + (b2n (nbit o (8 + i)) + b2n (nbit o (17 + i)) + b2n (nbit o (26 + i)) + b2n (nbit o (35 + i))) % 2 * 2 ^ i) 0

/-- R216: a hashed offset before any remap. -/
def hashPlace (s : State) (n o : Nat) : Place :=
  let w := ilog2 (commonsN s n)
  let sl := hashSlice w o
  { kind := 0, slice := sl, key := sliceKey s n sl,
    off := (8 - cfgS s n) * 268435456 + o / 2 ^ (8 + w) * 256 + o % 256, remapped := false }

/-- R216: offsets below this are hashed. -/
def hashedBytes (s : State) (n : Nat) : Nat := commonsN s n * cfgH s n * 268435456

/-- R218: window `w` at offset `r` from its start. -/
def winPlace (s : State) (n w r : Nat) : Place :=
  let span := cfgA s n w * 268435456
  let before := ((List.range w).map (cfgA s n)).foldl (· + ·) 0
  let sl := r / span
  { kind := w + 1, slice := sl, key := sliceKey s n sl,
    off := (8 - cfgS s n + cfgH s n + before) * 268435456 + r % span, remapped := false }

/-- The affine window that holds offset `r` past the hashed part. -/
def findWin (s : State) (n : Nat) : List Nat → Nat → Option Place
  | [], _ => none
  | w :: ws, r =>
    let bytes := commonsN s n * cfgA s n w * 268435456
    if r < bytes then some (winPlace s n w r) else findWin s n ws (r - bytes)

/-- R259: the pairs of a table. -/
def pairsOf (t : Tbl (Option Pair)) : List Pair := t.filterMap (·.2)

/-- R259: where a table sends granule `g`. -/
def remapTo (ps : List Pair) (g : Nat) : Option Nat :=
  match ps.find? (fun p => p.a.toNat == g || p.b.toNat == g) with
  | some p => some (if p.a.toNat = g then p.b.toNat else p.a.toNat)
  | none => none

/-- R216, R218, R259: the place of commons offset `o` under a table; none outside the commons. -/
def placeWith (s : State) (n : Nat) (ps : List Pair) (o : Nat) : Option Place :=
  if o < hashedBytes s n then
    match remapTo ps (o / 256) with
    | some g => some { hashPlace s n (g * 256 + o % 256) with remapped := true }
    | none => some (hashPlace s n o)
  else if o < commonsSize s n then findWin s n [0, 1, 2, 3] (o - hashedBytes s n)
  else none

/-- The place under the current generation. -/
def commonsPlace (s : State) (n o : Nat) : Option Place := placeWith s n (pairsOf (s.part n).remap.cur) o

/-- R261, R262: the places a write reaches: the current one, and the other generation's for a copied granule. -/
def writePlaces (s : State) (n o : Nat) : List Place :=
  let R := (s.part n).remap
  let dual := R.mig.any fun x => x.1.toNat == o / 256 && x.2 == .copied
  (commonsPlace s n o).toList ++ (if dual then (placeWith s n (pairsOf R.stage) o).toList else [])

/-- R259: the granule is the donor of a pair in force, or of one being installed. -/
def isDonor (s : State) (n g : Nat) : Bool :=
  let R := (s.part n).remap
  (pairsOf R.cur ++ (if R.mig.isEmpty then [] else pairsOf R.stage)).any fun p => p.b.toNat == g

/-! ### Device addresses (R211, R212) -/

/-- Cistern and offset of a device address, for a read. -/
def devPlace (s : State) (addr : Nat) : Option (Nat × Nat) :=
  match nbits addr 44 4 with
  | 0 => if nbits addr 40 4 = 0 then some (nbits addr 31 9, nbits addr 0 31) else none
  | 1 => (commonsPlace s (nbits addr 40 4) (nbits addr 0 40)).map fun p => (p.key, p.off)
  | _ => none

/-- The cisterns and offsets that a write reaches. -/
def devPlacesW (s : State) (addr : Nat) : List (Nat × Nat) :=
  match nbits addr 44 4 with
  | 0 => if nbits addr 40 4 = 0 then [(nbits addr 31 9, nbits addr 0 31)] else []
  | 1 => (writePlaces s (nbits addr 40 4) (nbits addr 0 40)).map fun p => (p.key, p.off)
  | _ => []

/-- R449: no locked TDI keeps the physical function from the stack. -/
def unlockedStack (s : State) (st : Nat) : Bool := match partOf s st with | some m => !tdiLocked s m | none => true

/-- R212, R449: the cisterns of region 0 that a requester reaches: those of its partition, or for the physical function any that
no locked TDI holds. -/
def keyAllowed (s : State) (own : Option Nat) (k : Nat) : Bool :=
  plotReported s k && (match own with | some n => (arcOf s n).contains (k / 32) | none => unlockedStack s (k / 32))

/-- R212, R449: a range of device addresses that a requester may reach. -/
def addrOk (s : State) (own : Option Nat) (addr len : Nat) : Bool :=
  let last := addr + len - 1
  decide (last < 2 ^ 48) && nbits addr 44 4 == nbits last 44 4 &&
  (match nbits addr 44 4 with
   | 0 => decide (last < 2 ^ 40) &&
      ((List.range (last / 2 ^ 31 - addr / 2 ^ 31 + 1)).all fun i => keyAllowed s own (addr / 2 ^ 31 + i))
   | 1 =>
     let n := nbits addr 40 4
     n == nbits last 40 4 && decide (nbits last 0 40 < commonsSize s n) &&
       (match own with | some m => m == n | none => !tdiLocked s n)
   | _ => false)

/-- R220: pieces of a range, split at 256 B boundaries, as (address, offset in the data, length). -/
def pieces (addr len : Nat) : List (Nat × Nat × Nat) :=
  if len = 0 then []
  else (List.range ((addr + len - 1) / 256 - addr / 256 + 1)).map fun i =>
    let lo := max addr (256 * (addr / 256 + i))
    let hi := min (addr + len) (256 * (addr / 256 + i) + 256)
    (lo, lo - addr, hi - lo)

/-- Nothing makes the range wait; a lost slice answers at once (R215). -/
def devReadGo (s : State) (addr len : Nat) : Bool :=
  (pieces addr len).all fun p => match devPlace s p.1 with
    | some q => !cisternUp s q.1 || readGo s q.1 q.2 p.2.2
    | none => true

/-- The same for a write. -/
def devWriteGo (s : State) (addr len : Nat) : Bool :=
  (pieces addr len).all fun p => (devPlacesW s p.1).all fun q => !cisternUp s q.1 || writeGo s q.1 q.2 p.2.2

/-- What a device access gives back. -/
structure DevRes where
  st : State
  data : List Byte
  poison : Bool
  lost : Bool

/-- `n` open bytes (R259, log 5). -/
def State.freeBytes (s : State) : Nat → State × List Byte
  | 0 => (s, [])
  | n + 1 =>
    let r := s.drawn.freeBytes n
    (r.1, BitVec.ofNat 8 s.free :: r.2)

/-- One piece of a read. -/
def devReadPiece (r : DevRes) (src : Src) (p : Nat × Nat × Nat) : DevRes :=
  match devPlace r.st p.1 with
  | none => { r with data := r.data ++ List.replicate p.2.2 0, lost := true, poison := true }
  | some q =>
    if !cisternUp r.st q.1 then { r with data := r.data ++ List.replicate p.2.2 0, lost := true, poison := true }
    else
      let x := r.st.cisRead q.1 q.2 p.2.2 src
      if nbits p.1 44 4 = 1 ∧ isDonor r.st (nbits p.1 40 4) (nbits p.1 0 40 / 256) then
        let f := x.1.freeBytes p.2.2
        { st := f.1, data := r.data ++ f.2, poison := r.poison, lost := r.lost }
      else { st := x.1, data := r.data ++ x.2.1, poison := r.poison || x.2.2, lost := r.lost }

/-- A read of a device range. -/
def State.devRead (s : State) (addr len : Nat) (src : Src) : DevRes :=
  (pieces addr len).foldl (fun r p => devReadPiece r src p) { st := s, data := [], poison := false, lost := false }

/-- A write of a device range; `poison` in the answer says that a word refused it (R246). -/
def State.devWrite (s : State) (addr : Nat) (data : List Byte) (bad : Bool) (src : Src) : DevRes :=
  (pieces addr data.length).foldl (fun r p =>
    let qs := devPlacesW r.st p.1
    if qs.isEmpty then { r with lost := true }
    else qs.foldl (fun r q =>
      if !cisternUp r.st q.1 then { r with lost := true }
      else
        let x := r.st.cisWrite q.1 q.2 (slice data p.2.1 p.2.2) bad src
        { r with st := x.1, poison := r.poison || x.2 }) r) { st := s, data := [], poison := false, lost := false }

/-- R223, R261: a weir operation at a device address; a fetch returns the first place's old value. -/
def State.devWeir (s : State) (op addr : Nat) (x : List Byte) (bad : Bool) : DevRes :=
  let n := if op = 0xC then 8 else x.length
  (pieces addr n).foldl (fun r p =>
    let piece := if op = 0xC then x else slice x p.2.1 p.2.2
    match devPlacesW r.st p.1 with
    | [] => { r with lost := true }
    | q :: qs =>
      if !cisternUp r.st q.1 then { r with lost := true }
      else
        let y := r.st.cisWeir q.1 op q.2 piece bad
        let r1 : DevRes := { st := y.1, data := r.data ++ y.2.1, poison := r.poison || y.2.2, lost := r.lost }
        qs.foldl (fun r q =>
          if !cisternUp r.st q.1 then { r with lost := true }
          else
            let z := r.st.cisWeir q.1 op q.2 piece bad
            { r with st := z.1, poison := r.poison || z.2.2 }) r1) { st := s, data := [], poison := false, lost := false }

/-! ### Configuration (R215, R236) -/

/-- R619: the page's RWL fields are locked. -/
def pageLocked (s : State) (a : Nat) : Bool := s.bit (a / 4096 * 4096 + 0x02C) 0

/-- R619: a write that a lock refuses. -/
def State.wrRej (s : State) (a : Nat) : State := s.setBit (a / 4096 * 4096 + 0x02C) 2

/-- R619: the device locks a page itself. -/
def State.lockPage (s : State) (a : Nat) : State := s.setFld (a / 4096 * 4096 + 0x02C) 0 2 3

/-- R215: the segment counts are allowed. -/
def commonsCfgOk (s : State) (n v : Nat) : Bool :=
  let sum := ((List.range 5).map fun i => nbits v (4 * i) 4).foldl (· + ·) 0
  decide (sum ≤ 8) && (sum == 0 || (arcOf s n).all fun st => plotCount s st == 32)

/-- R215, R236: a write of `COMMONS_CFG`; a 1 to `CFG_REJ` clears it. -/
def writeCommonsCfg (n : Nat) (v : Word) (s : State) : State :=
  let a := comReg n 0x040
  let s0 := if nbit v.toNat 31 then s.clrBit a 31 else s
  if pageLocked s0 a then s0.wrRej a
  else if commonsCfgOk s0 n v.toNat then s0.setFld a 0 20 (nbits v.toNat 0 20) else s0.setBit a 31

/-- COMMONS_CFG_WRITE (R215). -/
def execCommonsCfgWrite (r : Req) (n : Fin 16) (v : Word) (s : State) : Out :=
  .next (s.access r (comReg n.val 0x040) fun s => if isMgmt r then writeCommonsCfg n.val v s else s)

/-! ### Remap (R259 to R263) -/

/-- R269: `COMMONS_REMAP_STAT.STATE`: 0 IDLE, 1 STAGING, 2 MIGRATING, 3 SWITCH_WAIT, 4 FAILED. -/
def remapState (s : State) (n : Nat) : Nat := s.fld (comReg n 0x06C) 0 3

def State.setRemapState (s : State) (n x : Nat) : State := s.setFld (comReg n 0x06C) 0 3 x

/-- Change the remap of partition `n`. -/
def State.updRemap (s : State) (n : Nat) (f : Remap → Remap) : State := s.updPart n fun P => { P with remap := f P.remap }

/-- R260: BEGIN. -/
def remapBegin (n : Nat) (s : State) : State :=
  if remapState s n = 0 ∨ remapState s n = 4 then
    ((s.setFld (comReg n 0x06C) 3 13 0).setRemapState n 1).updRemap n fun R => { R with stage := R.cur, mig := [] }
  else s

/-- R260: WRITE. -/
def remapWrite (n i : Nat) (s : State) : State :=
  if remapState s n = 1 then
    s.updRemap n fun R => { R with stage := tput none R.stage i (some ⟨s.reg (comReg n 0x060), s.reg (comReg n 0x064)⟩) }
  else s

/-- R260: CLEAR. -/
def remapClear (n i : Nat) (s : State) : State :=
  if remapState s n = 1 then s.updRemap n fun R => { R with stage := tput none R.stage i none } else s

/-- R260: a pair that the table may hold beside the others. -/
def pairOk (s : State) (n : Nat) (t : Tbl (Option Pair)) (i : Nat) (p : Pair) : Bool :=
  let hashed (g : Word) : Bool := decide (g.toNat * 256 < hashedBytes s n)
  hashed p.a && hashed p.b && p.a != p.b &&
  t.all fun e => e.1 == i || (match e.2 with
    | some q => q.a != p.a && q.a != p.b && q.b != p.a && q.b != p.b
    | none => true)

/-- R260: the lowest index of a bad pair. -/
def firstBad (s : State) (n : Nat) (t : Tbl (Option Pair)) : Option Nat :=
  (t.find? fun e => match e.2 with | some p => !pairOk s n t e.1 p | none => false).map (·.1)

/-- R260: the granules to copy: named as an A by either generation, donor in neither, their places different. -/
def moving (s : State) (n : Nat) : List Word :=
  let R := (s.part n).remap
  let ps := pairsOf R.cur
  let qs := pairsOf R.stage
  let donor (g : Word) : Bool := (ps ++ qs).any fun p => p.b == g
  ((ps ++ qs).map (·.a)).eraseDups.filter fun g => !donor g && remapTo ps g.toNat != remapTo qs g.toNat

/-- R260: START. -/
def remapStart (n : Nat) (s : State) : State :=
  if remapState s n = 1 then
    match firstBad s n (s.part n).remap.stage with
    | some i => ((((s.setRemapState n 4).setFld (comReg n 0x06C) 3 4 1).setFld (comReg n 0x06C) 7 9 i).updRemap n fun R =>
        { R with stage := [], mig := [] })
    | none => (s.setRemapState n 2).updRemap n fun R => { R with mig := (moving s n).map fun g => (g, MigSt.waiting) }
  else s

/-- R260: CANCEL, before the switch only. -/
def remapCancel (n : Nat) (s : State) : State :=
  if (remapState s n = 1 ∨ remapState s n = 2 ∨ remapState s n = 3) ∧ !(s.part n).remap.switching then
    (s.setRemapState n 0).updRemap n fun R => { R with stage := [], mig := [] }
  else s

/-- COMMONS_REMAP_BEGIN (R260). -/
def execCommonsRemapBegin (r : Req) (n : Fin 16) (s : State) : Out :=
  .next (s.access r (comReg n.val 0x05C) (remapBegin n.val))

/-- COMMONS_REMAP_WRITE (R260). -/
def execCommonsRemapWrite (r : Req) (n : Fin 16) (i : Fin 512) (s : State) : Out :=
  .next (s.access r (comReg n.val 0x05C) (remapWrite n.val i.val))

/-- COMMONS_REMAP_CLEAR (R260). -/
def execCommonsRemapClear (r : Req) (n : Fin 16) (i : Fin 512) (s : State) : Out :=
  .next (s.access r (comReg n.val 0x05C) (remapClear n.val i.val))

/-- COMMONS_REMAP_START (R260). -/
def execCommonsRemapStart (r : Req) (n : Fin 16) (s : State) : Out :=
  .next (s.access r (comReg n.val 0x05C) (remapStart n.val))

/-- COMMONS_REMAP_CANCEL (R260). -/
def execCommonsRemapCancel (r : Req) (n : Fin 16) (s : State) : Out :=
  .next (s.access r (comReg n.val 0x05C) (remapCancel n.val))

/-- R263: the mover stops: the old generation stays in force. -/
def State.remapFail (s : State) (n code : Nat) : State :=
  (((s.setRemapState n 4).setFld (comReg n 0x06C) 3 4 code).updRemap n fun R =>
    { R with stage := [], mig := [], switching := false }).report (some n) 0x0A 3 16 0 0

/-- Both places of a granule under migration. -/
def movePlaces (s : State) (n : Nat) (g : Word) : Option (Place × Place) :=
  let R := (s.part n).remap
  match placeWith s n (pairsOf R.cur) (g.toNat * 256), placeWith s n (pairsOf R.stage) (g.toNat * 256) with
  | some a, some b => some (a, b)
  | _, _ => none

/-- R260: one granule copied word by word; a poisoned or uncorrectable source is copied as poison. -/
def copyGranule (s : State) (a b : Place) : State :=
  let s1 := (List.range 8).foldl (fun s i =>
    let r := readWord s a.key (a.off / 32 + i) .copy
    r.1.storeWord b.key (b.off / 32 + i) r.2.1 r.2.2 .copy) s
  s1.count a.key 48 1

/-- The mover can reach every place now. -/
def moverGo (s : State) (n : Nat) : Bool :=
  (s.part n).remap.mig.all fun x => match movePlaces s n x.1 with
    | some (a, b) => (!cisternUp s a.key || readGo s a.key a.off 256) && (!cisternUp s b.key || writeGo s b.key b.off 256)
    | none => true

/-- R263: a slice that the mover needs is lost. -/
def moverLost (s : State) (n : Nat) : Bool :=
  (s.part n).remap.mig.any fun x => match movePlaces s n x.1 with
    | some (a, b) => !cisternUp s a.key || !cisternUp s b.key
    | none => true

/-- R260, R263: the copy, or its failure. -/
def finishCopy (n : Nat) (s : State) : State :=
  if moverLost s n then s.remapFail n 2
  else
    let s1 := (s.part n).remap.mig.foldl (fun s x => match movePlaces s n x.1 with
      | some (a, b) => copyGranule s a b
      | none => s) s
    (s1.setRemapState n 3).updRemap n fun R => { R with mig := R.mig.map fun x => (x.1, MigSt.copied) }

/-- REMAP_COPY_DONE (R260). -/
def execRemapCopyDone (n : Fin 16) (s : State) : Out :=
  .next (if remapState s n.val == 2 && moverGo s n.val then finishCopy n.val s else s)

/-- A command of partition `n` runs on one of its rings or on a ring of the physical function. -/
def partRunning (s : State) (n : Nat) : Bool :=
  ((List.range 4).any fun r => !(s.ring (4 * (n + 1) + r)).running.isEmpty) ||
  ((List.range 4).any fun r => (s.ring r).running.any fun c => (nth 0 c.bytes 4).toNat % 16 == n)

/-- R262: the switch: every translator takes the new generation; the old one is kept for dual writes. -/
def switchRemap (n : Nat) (s : State) : State :=
  let R := (s.part n).remap
  ((s.setFld (comReg n 0x058) 0 16 (s.fld (comReg n 0x058) 0 16 + 1)).setFld (comReg n 0x06C) 16 10
    (pairsOf R.stage).length).updRemap n fun R => { R with cur := R.stage, stage := R.cur, switching := true }

/-- REMAP_SWITCH (R262). -/
def execRemapSwitch (n : Fin 16) (s : State) : Out :=
  .next (if remapState s n.val == 3 && !(s.part n.val).remap.switching && !partRunning s n.val then switchRemap n.val s else s)

/-- REMAP_DONE (R262). -/
def execRemapDone (n : Fin 16) (s : State) : Out :=
  .next (if (s.part n.val).remap.switching then
    ((s.setRemapState n.val 0).updRemap n.val fun R => { R with stage := [], mig := [], switching := false }).report
      (some n.val) 0x09 3 16 0 0 else s)

/-- R262: command starts of the partition are held. -/
def startsHeldByRemap (s : State) (n : Nat) : Bool := remapState s n == 3

end Sys2Proof.Machine
end

