-- ==== Sys2Proof/Machine/Func.lean ====
section
/-!
DEFINITION. Func.lean: the vector unit's function operations (R91). Each function is evaluated in fixed point with 512
fraction bits, far below an FP32 step, and rounded once; the device's result is an open value inside the bound that R91
gives around it (log 31).
-/
namespace Sys2Proof.Machine

/-- Fraction bits of the fixed-point values here. -/
def fxBits : Nat := 512

/-- ln 2. -/
def fxLn2 : Int := 9293584264128987901384440660653081117630633404975079641076009770578364573633075645167623918067512986930843040596952636663673675798576024949780480621393957

/-- Pi. -/
def fxPi : Int := 42121870893450636219446821484559388105255997313489254605594685088103805782276098919793885372247726346443771296916333485327292916625599161542353774203832599

/-- One. -/
def fxOne : Int := 2 ^ fxBits

/-- Product of fixed-point values. -/
def fxMul (a b : Int) : Int := a * b / fxOne

/-- Quotient of fixed-point values. -/
def fxDiv (a b : Int) : Int := a * fxOne / b

/-- A finite value in fixed point. -/
def fxOf : Num → Int
  | .fin s m e =>
    let q := scaleTo m 1 e (-(fxBits : Int))
    let v : Int := (q.1 / q.2 : Nat)
    if s then -v else v
  | _ => 0

/-- A fixed-point value times `2 ^ k`, rounded to FP32. -/
def fxTo32 (v k : Int) : Num := (to32Q .near (decide (v < 0)) v.natAbs 1 (k - (fxBits : Int))).1

/-- Sum of `term / 1 + term x / 1! ...`: `n` more terms, term `t` at index `i`. -/
def fxExpSeries (x : Int) : Nat → Nat → Int → Int
  | 0, _, _ => 0
  | n + 1, i, t => t + fxExpSeries x n (i + 1) (fxMul t x / ((i : Int) + 1))

/-- exp of a small fixed-point value. -/
def fxExpSmall (r : Int) : Int := fxExpSeries r 120 0 fxOne

/-- exp `x` as mantissa and binary exponent. -/
def fxExp (x : Int) : Int × Int :=
  let k := x / fxLn2
  (fxExpSmall (x - k * fxLn2), k)

/-- exp `x` in fixed point, for `x` at most 400. -/
def fxExpV (x : Int) : Int :=
  let p := fxExp x
  if p.2 ≥ 0 then p.1 * 2 ^ p.2.toNat else p.1 / 2 ^ (-p.2).toNat

/-- Odd series `z + z^3/3 + ...` with signs `sg`. -/
def fxOdd (z2 sg : Int) : Nat → Nat → Int → Int
  | 0, _, _ => 0
  | n + 1, i, t => t / (2 * (i : Int) + 1) + fxOdd z2 sg n (i + 1) (sg * fxMul t z2)

/-- Natural logarithm of a positive value. -/
def fxLog : Num → Int
  | .fin _ m e =>
    let x := leadExp m 1
    let y := (m : Int) * fxOne / 2 ^ x.toNat
    let z := fxDiv (y - fxOne) (y + fxOne)
    (e + x) * fxLn2 + 2 * fxOdd (fxMul z z) 1 170 0 z
  | _ => 0

/-- 1 / (1 + exp (-x)) for |x| at most 400. -/
def fxSigmoid (x : Int) : Int :=
  let y := fxExpV x
  fxDiv y (fxOne + y)

/-- erf series: terms `(-1)^n z^(2n+1) / (n! (2n+1))`. -/
def fxErfSeries (z2 : Int) : Nat → Nat → Int → Int
  | 0, _, _ => 0
  | n + 1, i, t => t / (2 * (i : Int) + 1) + fxErfSeries z2 n (i + 1) (-(fxMul t z2) / ((i : Int) + 1))

/-- Square root of a positive fixed-point value. -/
def fxSqrt (v : Int) : Int := isqrt (v.toNat * 2 ^ fxBits) 640

/-- The normal distribution function for |x| at most 16. -/
def fxPhi (x : Int) : Int :=
  let z := fxDiv x (fxSqrt (2 * fxOne))
  let er := fxDiv (2 * fxErfSeries (fxMul z z) 760 0 z) (fxSqrt fxPi)
  (fxOne + er) / 2

/-- cos and sin series: terms with factorial steps of two. -/
def fxTrig (x2 : Int) : Nat → Nat → Int → Int
  | 0, _, _ => 0
  | n + 1, i, t => t + fxTrig x2 n (i + 2) (-(fxMul t x2) / (((i : Int) + 1) * ((i : Int) + 2)))

/-- sin (`c = 0`) or cos (`c = 1`). -/
def fxSinCos (x : Int) (c : Nat) : Int :=
  let h := fxPi / 2
  let k := x / h
  let r := x - k * h
  let q := ((k + c) % 4).toNat
  let sn := fxTrig (fxMul r r) 70 1 r
  let cs := fxTrig (fxMul r r) 70 0 fxOne
  match q with
  | 0 => sn
  | 1 => cs
  | 2 => -sn
  | _ => -cs

/-- A finite magnitude exceeds the integer `n`. -/
def bigger (x : Num) (n : Nat) : Bool := Num.magLt (.fin false n 0) x

/-- R91: reciprocal square root of a positive value, correctly rounded. -/
def rsqrtRound (m : Nat) (e : Int) : Num :=
  let m' := if e % 2 = 0 then m else 2 * m
  let e' := if e % 2 = 0 then e else e - 1
  let r := isqrt (2 ^ 400 / m') 402
  to32Q .near false (2 * r + 1) 1 (-(e' / 2) - 201) |>.1

/-- R91: the exactly rounded result of function `op`, where the table gives it no bound of its own. -/
def funcExact (op : Nat) : Num → Num
  | .nan => .nan
  | .inf s =>
    match op with
    | 0x0A => .fin s 0 0
    | 0x0B => if s then .nan else Num.zero
    | 0x0C => if s then Num.zero else .inf false
    | 0x0D => if s then Num.zero else .inf false
    | 0x0E => if s then .nan else .inf false
    | 0x0F => if s then .nan else .inf false
    | 0x10 => .fin s 1 0
    | 0x11 => if s then Num.zero else .fin false 1 0
    | 0x15 => Num.zero
    | 0x16 => Num.zero
    | _ => if s then .fin true 0 0 else .inf false
  | .fin s m e =>
    let x : Num := .fin s m e
    match op with
    | 0x0A => if m = 0 then .inf s else (to32Q .near s 1 m (-e)).1
    | 0x0B => if m = 0 then .inf s else if s then .nan else rsqrtRound m e
    | 0x0C => if bigger x 200 then (if s then Num.zero else .inf false) else let p := fxExp (fxOf x); fxTo32 p.1 p.2
    | 0x0D =>
      if bigger x 200 then (if s then Num.zero else .inf false)
      else let v := fxOf x; fxTo32 (fxExpSmall (fxMul (v % fxOne) fxLn2)) (v / fxOne)
    | 0x0E => if m = 0 then .inf true else if s then .nan else fxTo32 (fxLog x) 0
    | 0x0F => if m = 0 then .inf true else if s then .nan else fxTo32 (fxDiv (fxLog x) fxLn2) 0
    | 0x10 =>
      if m = 0 then x
      else if bigger x 100 then .fin s 1 0
      else let y := fxExpV (2 * fxOf x); fxTo32 (fxDiv (y - fxOne) (y + fxOne)) 0
    | 0x11 => if bigger x 200 then (if s then Num.zero else .fin false 1 0) else fxTo32 (fxSigmoid (fxOf x)) 0
    | 0x12 =>
      if m = 0 then x else if bigger x 16 then (if s then .fin true 0 0 else x)
      else fxTo32 (fxMul (fxOf x) (fxPhi (fxOf x))) 0
    | 0x13 =>
      if m = 0 then x else if bigger x 16 then (if s then .fin true 0 0 else x)
      else
        let v := fxOf x
        let u := fxMul (fxSqrt (fxDiv (2 * fxOne) fxPi)) (v + fxMul (44715 * fxOne / 1000000) (fxMul v (fxMul v v)))
        fxTo32 (fxMul v (fxSigmoid (2 * u))) 0
    | 0x14 =>
      if m = 0 then x else if bigger x 200 then (if s then .fin true 0 0 else x)
      else fxTo32 (fxMul (fxOf x) (fxSigmoid (fxOf x))) 0
    | 0x15 => fxTo32 (fxSinCos (fxOf x) 0) 0
    | _ => fxTo32 (fxSinCos (fxOf x) 1) 0

/-- R91: bound of `op` in steps of the last place, and as an absolute power of two where it has one. -/
def funcBound (op : Nat) : Nat × Option Int :=
  match op with
  | 0x0A => (1, none)
  | 0x0B => (1, none)
  | 0x0C => (2, none)
  | 0x0D => (2, none)
  | 0x0E => (2, none)
  | 0x0F => (2, none)
  | 0x10 => (4, some (-24))
  | 0x11 => (4, some (-24))
  | 0x12 => (4, some (-22))
  | 0x13 => (4, some (-22))
  | 0x14 => (4, some (-22))
  | _ => (2, none)

/-- The difference of two finite values as a magnitude. -/
def Num.dist (x y : Num) : Num :=
  match x.add y.neg with
  | .fin _ m e => .fin false m e
  | z => z

/-- R91: `w` lies within the bound around the exactly rounded `y`. -/
def funcAllows (op : Nat) (y w : Num) : Bool :=
  match y, w with
  | .fin sy m e, .fin sw _ _ =>
    let b := funcBound op
    let u := (fp32.round .near m 1 e).2.1
    let near := !Num.magLt (.fin false b.1 u) (Num.dist y w)
    let abs := match b.2 with | some k => !Num.magLt (.fin false 1 k) (Num.dist y w) | none => false
    let saturated := (op == 0x10 && m != 0 && Num.magLt (.fin false 16777214 (-24)) y) ||
      (op == 0x11 && (m == 0 || Num.magLt (.fin false 16777214 (-24)) y))
    (near || abs) && !saturated && (sy == sw || op ≥ 0x0E && op != 0x11)
  | _, _ => false

/-- R91: the device's result on an FP32 value: an open word inside the bound, else the exactly rounded value. For
|x| above 2^15, sin and cos lie anywhere in [-1, 1]. -/
def funcResult (op : Nat) (x : Num) : Num :=
  let w := dec32 (Config.openFn 2 [op, enc32 x] % 2 ^ 32)
  if x.isNan then .nan
  else if (op == 0x15 || op == 0x16) && !(x.isFin && !bigger x 32768) then
    (if w.isFin && !bigger w 1 then w else Num.zero)
  else
    let y := funcExact op x
    if funcAllows op y w then w else y

end Sys2Proof.Machine
end

