-- ==== Sys2Proof/Machine/Vector.lean ====
section
/-!
DEFINITION. Vector.lean: the vector unit (R90, R91, R122 to R126, R148, R149) and the commands of its queue. A descriptor
is computed whole when its last store completes; all its loads come before its stores (log 32).
-/
namespace Sys2Proof.Machine

/-! ### Opcodes -/

/-- R123: opcodes that exist. -/
def vOpOk (o : Nat) : Bool :=
  (0x01 ≤ o && o ≤ 0x16) || o == 0x18 || o == 0x19 || (0x20 ≤ o && o ≤ 0x26)

/-- Opcodes with an operand B. -/
def vHasB (o : Nat) : Bool := (0x02 ≤ o && o ≤ 0x06) || o == 0x08 || o == 0x09 || (0x22 ≤ o && o ≤ 0x24)

/-- Opcodes with an operand C. -/
def vHasC (o : Nat) : Bool := o == 0x05

/-- R126: row reductions. -/
def vReduces (o : Nat) : Bool := o == 0x20 || o == 0x21

/-- R91: function operations. -/
def vFunc (o : Nat) : Bool := 0x0A ≤ o && o ≤ 0x16

/-- Integer opcodes. -/
def vIntOp (o : Nat) : Bool := 0x22 ≤ o && o ≤ 0x24

/-- R125: formats of the first rule. -/
def vPlain (c : Nat) : Bool := [0x00, 0x01, 0x02, 0x03, 0x04, 0x0C, 0x0D, 0x0E].contains c

/-! ### Checks (R124, R125) -/

/-- R125: the formats fit the opcode and the operand spaces. -/
def vFmtOk (d : Desc) : Bool :=
  let o := vOp d
  let i := vIn d
  let u := vOut d
  let pair :=
    if o = 0x18 then isBlock i && vPlain u && !isIntFmt u
    else if o = 0x19 then vPlain i && !isIntFmt i && isBlock u
    else vPlain i && (vReduces o || vPlain u) &&
      (if o = 0x25 then !isIntFmt i && isIntFmt u
       else if o = 0x26 then isIntFmt i && !isIntFmt u
       else if o = 0x01 then true
       else if vIntOp o then isIntFmt i && isIntFmt u
       else !isIntFmt i && (vReduces o || !isIntFmt u))
  let bank (c : Nat) : Bool := c == 0x00 || c == 0x0E
  pair && (!vAAcc d || bank i) && (!vDstAcc d || vReduces o || bank u)

/-- R124: shapes. -/
def vShapeOk (d : Desc) : Bool :=
  vCount d % vRow d == 0 &&
  (vOp d != 0x18 || (vCount d % 32 == 0 && vCKind d == 2)) &&
  (vOp d != 0x19 || (vCount d % 32 == 0 && vBKind d == 2))

/-- Bytes of `n` packed elements. -/
def packedBytes (c n : Nat) : Nat := (n * elemBits c + 7) / 8

/-- R124: alignment of an element format. -/
def elemAlign (c : Nat) : Nat := max 1 (elemBits c / 8)

/-- Elements an operand of a kind has. -/
def kindCount (d : Desc) (kind : Nat) : Nat :=
  match kind with
  | 0 => vCount d
  | 1 => 1
  | _ => vCount d / vRow d

/-- R124: every operand range: in the accumulator bank, address, bytes, alignment, written. -/
def vSpans (d : Desc) : List (Bool × Nat × Nat × Nat × Bool) :=
  let o := vOp d
  let n := vCount d
  let a :=
    if o = 0x18 then [(false, df d 1 0 22, n, 32, false), (false, vB d, n / 8, 4, false)]
    else [(vAAcc d, vA d, packedBytes (vIn d) n, (if vAAcc d then 4 else elemAlign (vIn d)), false)]
  let mem (kind addr : Nat) : List (Bool × Nat × Nat × Nat × Bool) :=
    if kind = 2 then [] else [(false, addr, packedBytes (vIn d) (kindCount d kind), elemAlign (vIn d), false)]
  let b := if vHasB o then mem (vBKind d) (vB d) else []
  let c := if vHasC o then mem (vCKind d) (vC d) else []
  let w :=
    if o = 0x19 then [(false, df d 4 0 22, n, 32, true), (false, vC d, n / 8, 4, true)]
    else if vReduces o then [(vDstAcc d, vDst d, 4 * (n / vRow d), 4, true)]
    else [(vDstAcc d, vDst d, packedBytes (vOut d) n, (if vDstAcc d then 4 else elemAlign (vOut d)), true)]
  a ++ b ++ c ++ w

/-- R125: the status with which a vector descriptor is rejected, in order. -/
def vecCheck (d : Desc) : Option Nat :=
  if syncBad (syncOf 1 d) then some 0x07
  else if !vOpOk (vOp d) then some 0x08
  else if !vFmtOk d then some 0x0A
  else if !vShapeOk d then some 0x09
  else if (vSpans d).any (fun x => x.2.1 % x.2.2.2.1 != 0) then some 0x06
  else if (vSpans d).any (fun x => decide (x.2.1 + x.2.2.1 > (if x.1 then 262144 else tankSize))) then some 0x05
  else none

/-! ### Loads -/

/-- An operand value: a number, or an INT32. -/
inductive VVal where
  | flt (x : Num)
  | int (x : Int)
  deriving DecidableEq, Repr

/-- R90: an element code widened exactly. -/
def widen (c v : Nat) : VVal := if isIntFmt c then .int (sext (elemBits c) v) else .flt (elemVal c v)

/-- Element `i` of format `c` from address `a` of a space, with its poison. -/
def vLoad (P : Plot) (acc : Bool) (c a i : Nat) : VVal × Bool :=
  let w := elemBits c
  if w = 4 then (widen c (nbits (leVal (spaceGet P acc (a + i / 2) 1)) (4 * (i % 2)) 4), spaceBad P acc (a + i / 2) 1)
  else (widen c (leVal (spaceGet P acc (a + i * (w / 8)) (w / 8))), spaceBad P acc (a + i * (w / 8)) (w / 8))

/-- R122: an immediate. -/
def vImm (c w : Nat) : VVal := if isIntFmt c then .int (sext 32 w) else .flt (dec32 w)

/-- R122: operand B or C at element `i`. -/
def vOperand (P : Plot) (d : Desc) (kind word i : Nat) : VVal × Bool :=
  match kind with
  | 0 => vLoad P false (vIn d) (word % tankSize) i
  | 1 => vLoad P false (vIn d) (word % tankSize) 0
  | 2 => (vImm (vIn d) word, false)
  | _ => vLoad P false (vIn d) (word % tankSize) (i / vRow d)

/-- R118, R124: element `i` of a CVT_IN operand with its block word. -/
def vLoadBlock (P : Plot) (d : Desc) (i : Nat) : VVal × Bool :=
  let a := df d 1 0 22 + 32 * (i / 32)
  let b := vB d + 4 * (i / 32)
  let w := elemBits (vIn d)
  let j := i % 32
  let v := nbits (leVal (tankGet P a (4 * w))) (w * j) w
  (.flt (blockVal (vIn d) v (leVal (tankGet P b 4)) j),
    tankBad P (a + w * j / 8) ((w * j + w - 1) / 8 - w * j / 8 + 1) || tankBad P b 4)

/-! ### Results -/

/-- The FP32 value of an operand. -/
def VVal.num : VVal → Num
  | .flt x => x
  | .int x => Num.ofInt x

/-- The INT32 value of an operand. -/
def VVal.intv : VVal → Int
  | .int x => x
  | .flt _ => 0

/-- A 32-bit wrapped integer. -/
def wrap32 (x : Int) : Int := sext 32 (wrapInt 32 x)

/-- R90, R91, R123: the result of an element operation and its exception flags. -/
def vCompute (o : Nat) (rz : Bool) (a b c : VVal) : VVal × Flag :=
  let m : Rnd := if rz then .zero else .near
  let f (r : Num × Flag) : VVal × Flag := (.flt r.1, r.2)
  match o with
  | 0x01 => (a, 0)
  | 0x02 => f (add32 m a.num b.num)
  | 0x03 => f (add32 m a.num b.num.neg)
  | 0x04 => f (mul32 m a.num b.num)
  | 0x05 => f (fma32 m a.num b.num c.num)
  | 0x06 => f (div32 m a.num b.num)
  | 0x07 => f (sqrt32 m a.num)
  | 0x08 => (.flt (min32 a.num b.num), 0)
  | 0x09 => (.flt (max32 a.num b.num), 0)
  | 0x18 => f (mul32 m a.num c.num)
  | 0x19 => f (mul32 m a.num b.num)
  | 0x22 => (.int (wrap32 (a.intv + b.intv)), 0)
  | 0x23 => (.int (wrap32 (a.intv - b.intv)), 0)
  | 0x24 => (.int (wrap32 (a.intv * b.intv)), 0)
  | 0x25 => let r := ftoi rz a.num; (.int r.1, r.2)
  | 0x26 => f (to32 m (Num.ofInt a.intv))
  | _ => (.flt (funcResult o a.num), Config.openFn 3 [o, enc32 a.num] % 32)

/-- R84, R86, R89, R125: a result as an element code of format `u`; an output overflow sets `OVERFLOW`. -/
def vStoreCode (u : Nat) (om : OutMode) (rz : Bool) (r : Nat) (x : VVal) : Nat × Flag :=
  match x with
  | .int v =>
    if isIntFmt u then
      if u = 0x0E then (wrapInt 32 v, 0)
      else let q := cvtInt (elemBits u) om r (Num.ofInt v); (q.1, if nbit q.2 0 then 4 else 0)
    else
      let y := to32 (if rz then .zero else .near) (Num.ofInt v)
      let q := cvtOne u om r y.1
      (q.1, Nat.lor y.2 (if nbit q.2 0 then 4 else 0))
  | .flt v => let q := cvtOne u om r v; (q.1, if nbit q.2 0 then 4 else 0)

/-- R126: one level of the pairwise tree. -/
def treeLevel {α : Type} (f : α → α → α) : List (Option α) → List (Option α)
  | a :: b :: t =>
    (match a, b with
      | some x, some y => some (f x y)
      | some x, none => some x
      | none, y => y) :: treeLevel f t
  | l => l

/-- R126: six levels over 64 lanes. -/
def treeFold {α : Type} (f : α → α → α) (l : List (Option α)) : Option α :=
  ((List.range 6).foldl (fun l _ => treeLevel f l) l).head?.join

/-- R126: lane values: element `j` goes to lane `j mod 64`. -/
def laneFold {α : Type} (f : α → α → α) (xs : List α) : List (Option α) :=
  (List.range 64).map fun l =>
    (xs.zipIdx.filter fun x => x.2 % 64 == l).foldl
      (fun acc x => match acc with | none => some x.1 | some y => some (f y x.1)) none

/-- R126: the sum of a row with its flags, or its maximum. -/
def rowReduce (o : Nat) (xs : List Num) : Num × Flag :=
  let add (p q : Num × Flag) : Num × Flag :=
    if o = 0x20 then let r := add32 .near p.1 q.1; (r.1, Nat.lor r.2 (Nat.lor p.2 q.2)) else (max32 p.1 q.1, 0)
  (treeFold add (laneFold add (xs.map fun x => (x, 0)))).getD (Num.zero, 0)

/-! ### Whole descriptors -/

/-- What a descriptor stores: (in the bank, address, bytes, poisoned), its flags, the generator after it, and whether it
met poison. -/
structure VOutcome where
  stores : List (Bool × Nat × List Byte × Bool)
  nibbles : List (Nat × Nat × Bool)
  flags : Flag
  rng : BitVec 64
  poisoned : Bool
  deriving DecidableEq, Repr

/-- The element results of a descriptor that is no reduction. -/
def vElems (P : Plot) (d : Desc) : List ((VVal × Flag) × Bool) :=
  let o := vOp d
  (List.range (vCount d)).map fun i =>
    let a := if o = 0x18 then vLoadBlock P d i else vLoad P (vAAcc d) (vIn d) (vA d) i
    let b := if o = 0x19 then (vImm 0 (dw d 2), false) else if vHasB o then vOperand P d (vBKind d) (dw d 2) i else (.flt Num.zero, false)
    let c := if o = 0x18 then (vImm 0 (dw d 3), false) else if vHasC o then vOperand P d (vCKind d) (dw d 3) i else (.flt Num.zero, false)
    (vCompute o (vRz d) a.1 b.1 c.1, a.2 || b.2 || c.2)

/-- R85: the random values of a descriptor's stores. -/
def vRandom (g : BitVec 64) (n : Nat) : List Nat × BitVec 64 := lfsrMany n g

/-- RSUM and RMAX (R124, R126). -/
def vReduce (P : Plot) (d : Desc) : VOutcome :=
  let rows := vCount d / vRow d
  let rs := vRandom P.vrng rows
  let out := (List.range rows).map fun j =>
    let els := (List.range (vRow d)).map fun i => vLoad P (vAAcc d) (vIn d) (vA d) (j * vRow d + i)
    let r := rowReduce (vOp d) (els.map fun x => x.1.num)
    let q := vStoreCode 0 (vOutMode d) (vRz d) (nth 0 rs.1 j) (.flt r.1)
    ((vDstAcc d, vDst d + 4 * j, leBytes 4 q.1, els.any (·.2)), Nat.lor r.2 q.2)
  { stores := out.map (·.1), nibbles := [], flags := out.foldl (fun g x => Nat.lor g x.2) 0, rng := rs.2,
    poisoned := out.any fun x => x.1.2.2.2 }

/-- CVT_OUT (R125). -/
def vCvtOut (P : Plot) (d : Desc) : VOutcome :=
  let es := vElems P d
  let rs := vRandom P.vrng (vCount d)
  let w := elemBits (vOut d)
  let out := (List.range (vCount d / 32)).map fun k =>
    let xs := (es.drop (32 * k)).take 32
    let q := cvtBlock (vOut d) (vOutMode d) ((rs.1.drop (32 * k)).take 32) (xs.map fun x => x.1.1.num)
    let bad := xs.any (·.2)
    [(false, df d 4 0 22 + 32 * k, packSlot w q.2.1, bad), (false, vC d + 4 * k, leBytes 4 q.1, bad)]
  { stores := out.flatMap id, nibbles := [], flags := es.foldl (fun g x => Nat.lor g x.1.2) 0, rng := rs.2,
    poisoned := es.any (·.2) }

/-- Every other opcode. -/
def vPlainOut (P : Plot) (d : Desc) : VOutcome :=
  let es := vElems P d
  let rs := vRandom P.vrng (vCount d)
  let w := if vDstAcc d then 32 else elemBits (vOut d)
  let codes := (es.zip rs.1).map fun x => (vStoreCode (vOut d) (vOutMode d) (vRz d) x.2 x.1.1.1, x.1.2)
  let fl := Nat.lor (es.foldl (fun g x => Nat.lor g x.1.2) 0) (codes.foldl (fun g x => Nat.lor g x.1.2) 0)
  { stores := if w = 4 then [] else codes.zipIdx.map fun x =>
      (vDstAcc d, vDst d + w / 8 * x.2, leBytes (w / 8) x.1.1.1, x.1.2)
    nibbles := if w = 4 then codes.zipIdx.map fun x => (2 * vDst d + x.2, x.1.1.1, x.1.2) else []
    flags := fl, rng := rs.2, poisoned := es.any (·.2) }

/-- What a vector descriptor does. -/
def vRun (P : Plot) (d : Desc) : VOutcome :=
  if vReduces (vOp d) then vReduce P d else if vOp d = 0x19 then vCvtOut P d else vPlainOut P d

/-- Store one 4-bit element at a nibble address. -/
def putNibble (P : Plot) (a v : Nat) (bad : Bool) : Plot :=
  let old := leVal (tankGet P (a / 2) 1)
  tankPut P (a / 2) [BitVec.ofNat 8 (putBits old (4 * (a % 2)) 4 v)] bad

/-- Apply the stores of a descriptor. -/
def vApply (P : Plot) (o : VOutcome) : Plot :=
  let Q := o.stores.foldl (fun Q x => spacePut Q x.1 x.2.1 x.2.2.1 x.2.2.2) P
  let R := o.nibbles.foldl (fun Q x => putNibble Q x.1 x.2.1 x.2.2) Q
  { R with vrng := o.rng }

/-- R148: sticky flags; a change from 0 to 1 raises `VEC_FLAG`. -/
def State.vecFlags (s : State) (k fl : Nat) : State :=
  let old := (s.reg (pqReg k 0x070)).toNat
  let new := Nat.lor old (fl % 32)
  let s1 := s.setReg (pqReg k 0x070) (BitVec.ofNat 32 new)
  if new = old then s1 else s1.irq (pqReg k 0) 5

/-! ### Commands -/

/-- R149: an armed load of the vector generator happens at a descriptor boundary. -/
def Plot.loadVrng (P : Plot) : Plot :=
  match P.vrngArm with
  | some v => { P with vrng := v, vrngArm := none }
  | none => P

/-- R106: the head of the vector queue may leave it. -/
def vecStartOk (s : State) (k : Nat) : Bool :=
  queueGo s k 1 && !(s.plot k).qv.held && (s.plot k).vec.isNone &&
  (match (s.plot k).qv.entries with | d :: _ => waitOk s k (syncOf 1 d) | [] => false)

/-- The head enters the vector unit, or is rejected and takes nothing from its counter. -/
def vecStart (s : State) (k : Nat) : State :=
  match (s.plot k).qv.entries with
  | [] => s
  | d :: rest =>
    match vecCheck d with
    | some st => s.rejectHold k 1 d st
    | none =>
      (s.waitTake k (syncOf 1 d)).updPlot k fun P =>
        { P.loadVrng with qv := { P.qv with entries := rest }, vec := some { desc := d } }

/-- VECTOR_DESC_START (R106). -/
def execVectorDescStart (p : PlotId) (s : State) : Out :=
  .next (if vecStartOk s (plotKey p) then vecStart s (plotKey p) else s)

/-- R139: no accumulator row of the ranges holds a reservation. -/
def rowsFree (A : Arr) (spans : List (Bool × Nat × Nat × Nat × Bool)) : Bool :=
  spans.all fun x => !x.1 ||
    ((A.vecs.all fun v => !(decide (x.2.1 / 256 ≤ v.row) && decide (v.row ≤ (x.2.1 + x.2.2.1 - 1) / 256))) &&
     (A.rows.all fun r => !(decide (x.2.1 / 256 ≤ r.row) && decide (r.row ≤ (x.2.1 + x.2.2.1 - 1) / 256))))

/-- The vector unit's descriptor can store its last element. -/
def vecDoneOk (s : State) (k : Nat) : Bool :=
  plotRun s k && !quiesced s k &&
  (match (s.plot k).vec with | some v => rowsFree (s.arr k) (vSpans v.desc) | none => false)

/-- The descriptor's stores, flags, signal and record. -/
def vecDone (s : State) (k : Nat) : State :=
  match (s.plot k).vec with
  | none => s
  | some v =>
    let o := vRun (s.plot k) v.desc
    let s1 := (s.updPlot k fun P => { (vApply P o).loadVrng with vec := none }).vecFlags k o.flags
    s1.complete k 1 v.desc (if o.poisoned then 0x10 else 0)

/-- VECTOR_DESC_COMPLETE (R107). -/
def execVectorDescComplete (p : PlotId) (s : State) : Out :=
  .next (if vecDoneOk s (plotKey p) then vecDone s (plotKey p) else s)

/-- R149: a write of `VEC_RNG_HI` arms a load; with no descriptor in the unit it loads at once. -/
def writeVecRng (s : State) (k : Nat) (v : Word) : State :=
  s.updPlot k fun P =>
    let Q := { P with vrngArm := some (rngSeed v P.vrngLo) }
    if P.vec.isNone then Q.loadVrng else Q

/-- VEC_RNG_HI_WRITE (R149). -/
def execVecRngHiWrite (r : Req) (p : PlotId) (v : Word) (s : State) : Out :=
  .next (s.access r (pqReg (plotKey p) 0x078) fun s => writeVecRng s (plotKey p) v)

end Sys2Proof.Machine
end

