-- ==== Sys2Proof/Machine/Queue.lean ====
section
/-!
DEFINITION. Queue.lean: the queue page (R101 to R112, R141 to R146): pushes, pops, SKIP, FLUSH, SET_EN, CLR_EN, token
counters, token sends, output slots and headgates (R130 to R134, R183).
-/
namespace Sys2Proof.Machine

/-! ### Pushes (R102) -/

/-- The steward of plot `k` itself makes the access. -/
def ownSteward (k : Nat) : Req → Bool
  | .steward p => plotKey p == k
  | _ => false

/-- A queue has no free entry. -/
def qFull (s : State) (k q : Nat) : Bool := decide (qSize q ≤ (s.queue k q).entries.length)

/-- R102: the whole push window becomes one entry. -/
def windowDesc (ws : List Word) : Desc := (List.range 16).map fun i => nth 0 ws i

/-- One entry into queue `q`. -/
def State.enqueue (s : State) (k q : Nat) : State :=
  s.updQueue k q fun Q => { Q with entries := Q.entries ++ [windowDesc Q.window] }

/-- R102, R112: a push of requester `r`. -/
def pushQueue (r : Req) (k q : Nat) (s : State) : State :=
  if (s.queue k q).state != .running then s.irq (pqReg k 0) 6
  else if qFull s k q then
    (if ownSteward k r then s.updPlot k fun P => { P with stall := some (BitVec.ofNat 2 q) } else s.irq (pqReg k 0) 6)
  else s.enqueue k q

/-- PQ_PUSH (R102). -/
def execPqPush (r : Req) (p : PlotId) (q : BitVec 2) (s : State) : Out :=
  .next (s.access r (pqReg (plotKey p) 0x040) (pushQueue r (plotKey p) q.toNat))

/-- R102: an entry has freed for the stalled push. -/
def stalledOk (s : State) (k : Nat) : Bool :=
  plotRun s k && (match (s.plot k).stall with | some q => !qFull s k q.toNat || (s.queue k q.toNat).state != .running | none => false)

/-- The stalled store completes: its push is taken, or dropped where the queue no longer runs. -/
def stalledPush (s : State) (k : Nat) : State :=
  match (s.plot k).stall with
  | none => s
  | some q =>
    let s1 := s.updPlot k fun P => { P with stall := none }
    if (s1.queue k q.toNat).state != .running then s1.irq (pqReg k 0) 6 else s1.enqueue k q.toNat

/-- STALLED_PUSH_ACCEPT (R102). -/
def execStalledPushAccept (p : PlotId) (s : State) : Out :=
  .next (if stalledOk s (plotKey p) then stalledPush s (plotKey p) else s)

/-! ### Signals and counters -/

/-- R107: a local signal on its way names this counter. -/
def signalOk (s : State) (k : Nat) (c : BitVec 6) : Bool := plotUp s k && (s.plot k).sigs.contains c

/-- LOCAL_SIGNAL_ARRIVE (R107). -/
def execLocalSignalArrive (p : PlotId) (ctr : BitVec 6) (s : State) : Out :=
  .next (if signalOk s (plotKey p) ctr then
    (s.updPlot (plotKey p) fun P => { P with sigs := P.sigs.erase ctr }).tokArrive (plotKey p) ctr.toNat 1 else s)

/-- R108, R145: a write of a token counter: `VALUE` takes effect, a 1 to `OVF` clears it. -/
def writeCtr (k n : Nat) (v : Word) (s : State) : State :=
  let s1 := s.setFld (ctrReg k n) 0 16 (nbits v.toNat 0 16)
  if nbit v.toNat 16 then s1.clrBit (ctrReg k n) 16 else s1

/-- TOKEN_COUNTER_WRITE (R108). -/
def execTokenCounterWrite (r : Req) (p : PlotId) (n : Fin 64) (v : Word) (s : State) : Out :=
  .next (s.access r (ctrReg (plotKey p) n.val) (writeCtr (plotKey p) n.val v))

/-! ### Completion records (R144) -/

/-- R144: `PQ_CPL_LO` of a record. -/
def cplWord (r : CplRec) : Nat :=
  r.tag.toNat + r.queue.toNat * 2 ^ 16 + b2n r.rejected * 2 ^ 18 + r.status.toNat * 2 ^ 19 + 2 ^ 31

/-- R144: a read of `PQ_CPL_LO` pops a record, captures its time, and lets held records in. -/
def popCpl (k : Nat) (s : State) : State :=
  match (s.plot k).cpl with
  | [] => s.answer (leBytes 4 0)
  | r :: rest =>
    (((s.updPlot k fun P => { P with cpl := rest }).releaseHeld k).capture (pqReg k 0x05C) r.time).answer (leBytes 4 (cplWord r))

/-- PQ_CPL_POP (R144). -/
def execPqCplPop (r : Req) (p : PlotId) (s : State) : Out :=
  .next (s.readAccess r (pqReg (plotKey p) 0x058) (popCpl (plotKey p)))

/-! ### SKIP, FLUSH, SET_EN, CLR_EN (R111, R112) -/

/-- R111: a pass of the lane has done no work. -/
def passIdle (x : Pass) : Bool :=
  !x.started && !x.rejected && (x.load == .none || (x.wload == .keep && x.load == .ready))

/-- R111: the queue runs again. -/
def State.unhold (s : State) (k q : Nat) : State :=
  s.updQueue k q fun Q => { Q with held := false, heldStatus := 0 }

/-- R111: the held head leaves: a queued entry, or a pass rejected during its weight load; a rejected noria command has
left its queue already (R301). -/
def State.dropHeld (s : State) (k q : Nat) : State :=
  if q = 0 ∧ (s.plot k).arr.lane.any (·.rejected) then
    s.updArr k fun A => { A with lane := A.lane.filter fun x => !x.rejected }
  else if q = 3 then s
  else s.updQueue k q fun Q => { Q with entries := Q.entries.drop 1 }

/-- R111: SKIP. -/
def skipQueue (k q : Nat) (s : State) : State :=
  if (s.queue k q).held then (s.dropHeld k q).unhold k q else s

/-- PQ_SKIP (R111). -/
def execPqSkip (r : Req) (p : PlotId) (q : BitVec 2) (s : State) : Out :=
  .next (s.access r (pqReg (plotKey p) 0x044) (skipQueue (plotKey p) q.toNat))

/-- R111: passes of the lookahead that have done no work are discarded with `ABORTED` records. -/
def State.abortLane (s : State) (k : Nat) : State :=
  let gone := (s.arr k).lane.filter passIdle
  gone.foldl (fun s x => s.complete k 0 x.desc 0x20)
    (s.updArr k fun A => { A with lane := A.lane.filter fun x => !(passIdle x) && !x.rejected })

/-- R111: the lookahead stands before the queue: its idle passes go first, then the entries. -/
def State.abortArrayQueue (s : State) (k : Nat) : State :=
  let heldEntry := (s.plot k).qa.held && !((s.arr k).lane.any (·.rejected))
  let es := (s.plot k).qa.entries
  (if heldEntry then es.drop 1 else es).foldl (fun s d => s.complete k 0 d 0x20)
    ((s.abortLane k).updQueue k 0 fun Q => { Q with entries := [] })

/-- R111: FLUSH. -/
def flushQueue (k q : Nat) (s : State) : State :=
  (if q = 0 then s.abortArrayQueue k else s.abortEntries k q).unhold k q

/-- PQ_FLUSH (R111). -/
def execPqFlush (r : Req) (p : PlotId) (q : BitVec 2) (s : State) : Out :=
  .next (s.access r (pqReg (plotKey p) 0x044) (flushQueue (plotKey p) q.toNat))

/-- R112, R142: SET_EN, from STOPPED only. -/
def queueSetEn (k q : Nat) (s : State) : State :=
  if (s.queue k q).state = .stopped then s.updQueue k q fun Q => { Q with state := .running } else s

/-- PQ_SET_EN (R142). -/
def execPqSetEn (r : Req) (p : PlotId) (q : BitVec 2) (s : State) : Out :=
  .next (s.access r (pqReg (plotKey p) 0x044) (queueSetEn (plotKey p) q.toNat))

/-- R112: CLR_EN: descriptors that have done no work are discarded as FLUSH does, the rest may finish. -/
def queueClrEn (k q : Nat) (s : State) : State :=
  if (s.queue k q).state = .running then
    flushQueue k q (s.updQueue k q fun Q => { Q with state := .stopping, stopAt := s.tb })
  else s

/-! ### Token sends (R134) -/

/-- R133: the 16-bit message of a token. -/
def tokenWord : Msg → Nat
  | .add _ _ c a => 0x1000 + c.toNat * 64 + a.toNat
  | .credit _ _ sl n => 0x2000 + sl.toNat * 128 + n.toNat
  | .fenced _ _ sl => 0x3000 + sl.toNat * 128
  | .bargeGo _ _ c => 0x4000 + c.toNat
  | .wake _ _ => 0x5000
  | .marker _ st => 0x6000 + st.toNat
  | .reserved _ _ t => t.toNat
  | _ => 0

/-- R134: a write of `PQ_TOKEN_TX` of plot `k`. -/
def sendToken (k : Nat) (v : Word) (s : State) : State :=
  let t := v.toNat
  let dst : Loc := ⟨BitVec.ofNat 5 (nbits t 16 5), BitVec.ofNat 5 (nbits t 21 5)⟩
  match nbits t 12 4 with
  | 1 => s.plotToken k dst fun d c => .add d c (BitVec.ofNat 6 (nbits t 6 6)) (BitVec.ofNat 6 (nbits t 0 6))
  | 4 => s.plotToken k dst fun d c => .bargeGo d c (BitVec.ofNat 2 t)
  | 5 => s.plotToken k dst fun d c => .wake d c
  | _ => s.irq (pqReg k 0) 4

/-- PQ_TOKEN_TX (R134). -/
def execPqTokenTx (r : Req) (p : PlotId) (v : Word) (s : State) : Out :=
  .next (s.access r (pqReg (plotKey p) 0x064) (sendToken (plotKey p) v))

/-! ### Output slots and headgates (R130 to R132, R183) -/

/-- R183: the stream ID names the partition of plot `k`. -/
def streamIdOk (s : State) (k sid : Nat) : Bool :=
  match partOf s (k / 32) with | some n => nbits sid 12 4 == n | none => false

/-- R183: a die of the partition, or the I/O die. -/
def destDieOk (s : State) (k die : Nat) : Bool :=
  die == 16 || (match partOf s (k / 32) with | some n => (arcOf s n).contains die | none => false)

/-- Writable bits of an output slot word. -/
def slotMask (w : Nat) : Nat := match w with | 0 => 17 | 1 => 15 | 2 => 9 | _ => 0

/-- Writable bits of a headgate word. -/
def hgMask (w : Nat) : Nat := match w with | 0 => 17 | 1 => 22 | 2 => 9 | 3 => 16 | _ => 0

/-- R132: a headgate or slot write is ignored with `TOKEN_ERR`. -/
def tokenErr (k : Nat) (s : State) : State := s.irq (pqReg k 0) 4

/-- R132, R183: an output slot may open with word 0 = `v`. -/
def slotOpenOk (s : State) (k n v : Nat) : Bool :=
  decide (8 ≤ slotCredits s k n) && decide (slotCredits s k n ≤ 256) && streamIdOk s k (nbits v 0 16) &&
  destDieOk s k (s.fld (slotReg k n 1) 0 5)

/-- R132: a write of word `w` of output slot `n`. -/
def writeSlot (k n w : Nat) (v : Word) (s : State) : State :=
  let x := v.toNat
  if slotValid s k n then
    if w = 0 ∧ ¬ nbit x 16 then
      (if slotByArr (s.plot k) n || slotByChan s k n 9999 then tokenErr k s
       else ((s.clrBit (slotReg k n 0) 16).setFld (slotReg k n 3) 0 10 0))
    else tokenErr k s
  else if w = 0 ∧ nbit x 16 then
    (if slotOpenOk s k n x then
      (s.setFld (slotReg k n 0) 0 17 x).setFld (slotReg k n 3) 0 10 (slotCredits s k n)
     else tokenErr k s)
  else if slotMask w = 0 then s
  else s.setFld (slotReg k n w) 0 (slotMask w) x

/-- OUTPUT_SLOT_WRITE (R132). -/
def execOutputSlotWrite (r : Req) (p : PlotId) (n : Fin 32) (w : Fin 8) (v : Word) (s : State) : Out :=
  .next (s.access r (slotReg (plotKey p) n.val w.val) (writeSlot (plotKey p) n.val w.val v))

/-- R132, R183: a headgate may open with word 0 = `v`. -/
def hgOpenOk (s : State) (k n v : Nat) : Bool :=
  decide (8 ≤ hgDepth s k n) && decide (hgDepth s k n ≤ 256) && streamIdOk s k (nbits v 0 16) &&
  !(s.bit (hgReg k n 3) 6 && s.fld (hgReg k n 3) 8 8 == 0)

/-- R187: one CREDIT token for the flits pending, at most 127. -/
def State.sendCredit (s : State) (k n : Nat) : State :=
  let g := tget ({} : Hg) (s.plot k).hgs n
  match g.src with
  | none => s
  | some (die, plot, slot) =>
    if g.owed = 0 then s
    else
      let c := min g.owed 127
      let dst : Loc := ⟨BitVec.ofNat 5 die, BitVec.ofNat 5 plot⟩
      ((s.updPlot k fun P => { P with hgs := tput {} P.hgs n { g with owed := g.owed - c, owedAt := s.tb } }).inject 3
        (plotLoc k) dst (.credit dst (plotLoc k) (BitVec.ofNat 5 slot) (BitVec.ofNat 7 c))).count k 12 1

/-- R132: a headgate closes: held flits are discarded, its source is forgotten; flits already consumed are credited. -/
def closeHg (k n : Nat) (s : State) : State :=
  let s1 := (s.sendCredit k n).clrBit (hgReg k n 0) 16
  (s1.setReg (hgReg k n 4) 0).updPlot k fun P => { P with hgs := tput {} P.hgs n {} }

/-- R132: a write of word `w` of headgate `n`. -/
def writeHg (k n w : Nat) (v : Word) (s : State) : State :=
  let x := v.toNat
  if hgValid s k n then
    if w = 0 ∧ ¬ nbit x 16 then
      (if hgByArr (s.plot k) n || hgByChan s k n 9999 then tokenErr k s else closeHg k n s)
    else tokenErr k s
  else if w = 0 ∧ nbit x 16 then
    (if hgOpenOk s k n x then
      ((s.setFld (hgReg k n 0) 0 17 x).setReg (hgReg k n 4) 0).updPlot k fun P => { P with hgs := tput {} P.hgs n {} }
     else tokenErr k s)
  else if hgMask w = 0 then s
  else s.setFld (hgReg k n w) 0 (hgMask w) x

/-- HEADGATE_WRITE (R132). -/
def execHeadgateWrite (r : Req) (p : PlotId) (n : Fin 32) (w : Fin 8) (v : Word) (s : State) : Out :=
  .next (s.access r (hgReg (plotKey p) n.val w.val) (writeHg (plotKey p) n.val w.val v))

end Sys2Proof.Machine
end

