-- ==== Sys2Proof/Machine/RingOps.lean ====
section
/-!
DEFINITION. RingOps.lean: what every ring command shares (R331 to R335): header fields, completion entries, and the end of
a command.
-/
namespace Sys2Proof.Machine

/-! ### Header fields (R331) -/

/-- Byte `i` of a command. -/
def Cmd.byte (c : Cmd) (i : Nat) : Nat := (nth 0 c.bytes i).toNat

/-- `n` bytes of a command from `i` on, low byte first. -/
def Cmd.field (c : Cmd) (i n : Nat) : Nat := leAt c.bytes i n

def Cmd.op (c : Cmd) : Nat := c.byte 0
def Cmd.irq (c : Cmd) : Bool := nbit (c.byte 1) 0
def Cmd.order (c : Cmd) : Bool := nbit (c.byte 1) 1
def Cmd.quiet (c : Cmd) : Bool := nbit (c.byte 1) 2
def Cmd.tag (c : Cmd) : Nat := c.field 2 2

/-- R322, R331: the partition a command of ring `g` acts on. -/
def cmdPart (g : Nat) (c : Cmd) : Nat := if g < 4 then c.byte 4 % 16 else g / 4 - 1

/-! ### Rings -/

/-- R329: entries of the submission and of the completion queue. -/
def sqSize (s : State) (g : Nat) : Nat := 2 ^ s.fld (ringReg g 0x10) 0 4
def cqSize (s : State) (g : Nat) : Nat := 2 ^ s.fld (ringReg g 0x10) 4 4

/-- Host address of the queues. -/
def sqBase (s : State) (g : Nat) : Nat := s.fld (ringReg g 0x00) 6 26 * 64 + s.fld (ringReg g 0x04) 0 32 * 2 ^ 32
def cqBase (s : State) (g : Nat) : Nat := s.fld (ringReg g 0x08) 6 26 * 64 + s.fld (ringReg g 0x0C) 0 32 * 2 ^ 32

/-- R330: completion entries that host software has not freed. -/
def cqUsed (s : State) (g : Nat) : Nat := ((s.ring g).cqTail + cqSize s g - (s.ring g).cqHead) % cqSize s g

/-- R330: room for one more entry. -/
def cqRoom (s : State) (g : Nat) : Bool := decide (cqUsed s g + 1 < cqSize s g)

/-- R333: one entry is written to host memory: one posted write of 16 B, then the interrupt. -/
def State.writeCpl (s : State) (g : Nat) (e : CplEnt) : State :=
  let R := s.ring g
  let w0 := putBits e.w0.toNat 31 1 (b2n R.phase)
  let bytes := bytesOf [BitVec.ofNat 32 w0, e.w1, e.w2, 0]
  let s1 := s.send (.hostWrite (g / 4) (BitVec.ofNat 64 (cqBase s g + 16 * R.cqTail)) bytes false)
  let t := (R.cqTail + 1) % cqSize s g
  let s2 := s1.setRing g { R with cqTail := t, phase := if t = 0 then !R.phase else R.phase }
  if e.irq then s2.msix (g / 4) (1 + g % 4) else s2

/-- R334: an entry is written, or held while the completion queue is full. -/
def State.postCpl (s : State) (g : Nat) (e : CplEnt) : State :=
  if (s.ring g).held.isEmpty && cqRoom s g then s.writeCpl g e
  else s.updRing g fun R => { R with held := R.held ++ [e] }

/-- R334: held entries in turn, as far as there is room. -/
def State.releaseCpls (s : State) (g : Nat) : List CplEnt → State
  | [] => s.updRing g fun R => { R with held := [] }
  | e :: es => if cqRoom s g then (s.writeCpl g e).releaseCpls g es else s.updRing g fun R => { R with held := e :: es }

/-- R333: the completion entry of a command. -/
def cplEntry (g : Nat) (c : Cmd) (status value : Nat) : CplEnt :=
  { w0 := BitVec.ofNat 32 (c.tag + status % 256 * 2 ^ 16 + g % 4 * 2 ^ 24)
    w1 := BitVec.ofNat 32 value, w2 := BitVec.ofNat 32 (c.head % 4096), irq := c.irq }

/-- R331: the entry of a finished command, none for a quiet one that ended `OK`. -/
def State.endCmd (s : State) (g : Nat) (c : Cmd) (status value : Nat) : State :=
  if c.quiet && status == 0 then s else s.postCpl g (cplEntry g c status value)

/-- A FENCE no longer waits for command (g, id). -/
def RunSt.without (g id : Nat) : RunSt → RunSt
  | .fence l => .fence (l.filter fun x => x != (g, id))
  | r => r

/-- A FENCE that waits for nothing more. -/
def RunSt.fenceDone : RunSt → Bool
  | .fence [] => true
  | _ => false

/-- Take a running command out of its ring. -/
def State.dropCmd (s : State) (g id : Nat) : State :=
  s.updRing g fun R => { R with running := R.running.filter fun c => c.id != id }

/-- R345: every FENCE of the function of ring `g` stops waiting for command (g, id). -/
def State.unfence (s : State) (g id : Nat) : State :=
  (List.range 4).foldl (fun s r => s.updRing (g / 4 * 4 + r) fun R =>
    { R with running := R.running.map fun c => { c with st := c.st.without g id } }) s

/-- R345: FENCEs that wait for nothing complete; one may wait for another, so the rings are gone through `n` times. -/
def State.endFences (s : State) (f : Nat) : Nat → State
  | 0 => s
  | n + 1 =>
    match (List.range 4).findSome? fun r => ((s.ring (4 * f + r)).running.find? fun c => c.st.fenceDone).map fun c => (4 * f + r, c) with
    | none => s
    | some (g, c) => (((s.dropCmd g c.id).endCmd g c 0 0).unfence g c.id).endFences f n

/-- A running command completes. -/
def State.finishCmd (s : State) (g id status value : Nat) : State :=
  match (s.ring g).running.find? fun c => c.id == id with
  | none => s
  | some c =>
    let s1 := ((s.dropCmd g id).endCmd g c status value).unfence g id
    s1.endFences (g / 4) (((List.range 4).map fun r => (s.ring (g / 4 * 4 + r)).running.length).foldl (· + ·) 0)

/-- Change a running command. -/
def State.updCmd (s : State) (g id : Nat) (f : Cmd → Cmd) : State :=
  s.updRing g fun R => { R with running := R.running.map fun c => if c.id = id then f c else c }

end Sys2Proof.Machine
end

