-- ==== Sys2Proof/Machine/Routes.lean ====
section
/-!
DEFINITION. Routes.lean: die-to-die modules and their far ends (R174, R198, R204), and the routes of packets (R179 to R181).
-/
namespace Sys2Proof.Machine

/-! ### Links and routes (R171 to R181, R204) -/

/-- Registers of module `m` of a die. -/
def linkReg (die m : Nat) : Nat := dfReg die (0x080 + 8 * m)

/-- R204: `DF_LINK_STAT.STATE`: 0 DOWN, 1 TRAINING, 2 UP, 3 DISABLED. -/
def linkState (s : State) (die m : Nat) : Nat := s.fld (linkReg die m) 0 2

/-- The module carries traffic. -/
def linkUp (s : State) (die m : Nat) : Bool := linkState s die m == 2

/-- R174: the far end of module `m` of die `die`, with the far module: stacks 0 to 15, 16 for the I/O die. -/
def farEnd (die m : Nat) : Nat × Nat :=
  if die = 16 then (m / 4 % 16, if m % 4 < 2 then m % 4 else m % 4 + 2)
  else match m with
    | 0 => (16, 4 * die)
    | 1 => (16, 4 * die + 1)
    | 2 => ((die + 15) % 16, 6)
    | 3 => ((die + 15) % 16, 7)
    | 4 => (16, 4 * die + 2)
    | 5 => (16, 4 * die + 3)
    | 6 => ((die + 1) % 16, 2)
    | _ => ((die + 1) % 16, 3)

/-- Modules of a die. -/
def modCount (die : Nat) : Nat := if die < 16 then 8 else 64

/-- R198: the modules that reach a far end. -/
def modsTo (die far : Nat) : List Nat := (List.range (modCount die)).filter fun m => (farEnd die m).1 == far

/-- R198: every module to the far end reads DOWN or DISABLED. -/
def farDown (s : State) (die far : Nat) : Bool :=
  (modsTo die far).all fun m => linkState s die m == 0 || linkState s die m == 3

/-- R204: `PREV_UP` and `NEXT_UP` follow the modules. -/
def State.refreshRoute (s : State) (die : Nat) : State :=
  if die < 16 then
    (s.setFld (dfReg die 0x060) 0 1 (b2n (linkUp s die 2 || linkUp s die 3))).setFld (dfReg die 0x060) 1 1
      (b2n (linkUp s die 6 || linkUp s die 7))
  else s

/-- R180: a ring link is up and enabled: 0 to n - 1, 1 to n + 1. -/
def ringOk (s : State) (die i : Nat) : Bool := s.bit (dfReg die 0x060) i && s.bit (dfReg die 0x060) (2 + i)

/-- R179, R180: the hub and first module of the route off a stack: to n - 1, to n + 1, or to the I/O die by column. -/
def exitRoute (s : State) (die srcSite dst : Nat) : Nat × Nat :=
  if dst < 16 ∧ dst = (die + 15) % 16 ∧ ringOk s die 0 then (30, 2)
  else if dst < 16 ∧ dst = (die + 1) % 16 ∧ ringOk s die 1 then (35, 6)
  else if srcSite % 6 ≤ 2 then (30, 0) else (35, 4)

/-- R179, R197: the module of a pair that the source site chooses, or the other one where it is not up. -/
def pickModule (s : State) (die base srcSite : Nat) : Nat :=
  let m := base + srcSite % 2
  if linkUp s die m then m else base + (srcSite + 1) % 2

/-- R179: one hop of dimension-ordered routing; ports north 0, east 1, south 2, west 3, local 4 (R594). -/
def meshPort (site dst : Nat) : Nat :=
  if site % 6 < dst % 6 then 1
  else if dst % 6 < site % 6 then 3
  else if site / 6 < dst / 6 then 2
  else if dst / 6 < site / 6 then 0
  else 4

/-- The source plot site of a packet. -/
def srcSite (s : State) (p : NetPkt) : Nat := if p.src.die.toNat < 16 then siteOf s (locKey p.src) else p.src.plot.toNat

/-- R179, R180: the output port a packet needs where it stands. -/
def outPort (s : State) (p : NetPkt) : Nat :=
  let dst := p.dst.die.toNat
  if p.die < 16 then
    if dst = p.die then meshPort p.site (siteOf s (locKey p.dst))
    else
      let e := exitRoute s p.die (srcSite s p) dst
      if p.site = e.1 then 5 + pickModule s p.die e.2 (srcSite s p) else meshPort p.site e.1
  else if dst = 16 then 4
  else
    let base := 4 * dst + (if siteOf s (locKey p.dst) % 6 ≤ 2 then 0 else 2)
    5 + (pickModule s 16 base (srcSite s p)) % 4

/-- Where a packet stands after leaving by port `out`. -/
def moved (p : NetPkt) (out : Nat) : NetPkt :=
  match out with
  | 0 => { p with site := p.site - 6, inp := 2 }
  | 1 => { p with site := p.site + 1, inp := 3 }
  | 2 => { p with site := p.site + 6, inp := 0 }
  | 3 => { p with site := p.site - 1, inp := 1 }
  | 4 => { p with inp := 255 }
  | _ =>
    let m := if p.die < 16 then out - 5 else 4 * (p.dst.die.toNat % 16) + (out - 5)
    let f := farEnd p.die m
    if f.1 = 16 then { p with die := 16, site := if p.dst.die = 16 then p.die else p.dst.die.toNat, inp := 5 + f.2 }
    else { p with die := f.1, site := if f.2 < 4 then 30 else 35, inp := 5 + f.2 }

end Sys2Proof.Machine
end

