-- ==== Sys2Proof/Machine/BargeOps.lean ====
section
/-!
DEFINITION. BargeOps.lean: what barge channels do (R151 to R168): descriptor checks, starts, the moving of elements, the end
of a descriptor.
-/
namespace Sys2Proof.Machine

/-! ### Channels -/

/-- A channel of the I/O die. -/
def isIod (c : Nat) : Bool := decide (2048 ≤ c)

/-- The stop unit of a channel (R594). -/
def chanUnit (c : Nat) : UnitId := if isIod c then ⟨16, 7, c - 2048⟩ else plotUnit (c / 4)

/-- No stop, reset or failure keeps the channel from starting work. -/
def chanLive (s : State) (c : Nat) : Bool :=
  if isIod c then pkgUp s && !stopping s (chanUnit c) && !pkgQuiesced s else plotGo s (c / 4)

/-- The channel may start a unit or take a descriptor. -/
def chanGo (s : State) (c : Nat) : Bool := chanLive s c && (s.chan c).state == .running

/-- R167, R500: what the channel has taken may go on while it stops, but a unit that needs a start event is not started. -/
def unitsGo (s : State) (c : Nat) (d : Desc) : Bool :=
  chanLive s c && ((s.chan c).state == .running || (s.chan c).state == .stopping && bStart d == 0)

/-- The channel may finish what it has begun. -/
def chanRun (s : State) (c : Nat) : Bool :=
  if isIod c then pkgUp s && !stopped s (chanUnit c) && !pkgQuiesced s else plotRun s (c / 4) && !quiesced s (c / 4)

/-- R164: a start event of channel `c`. -/
def State.addGo (s : State) (c : Nat) : State :=
  let C := s.chan c
  if C.goPend ≥ 255 then s.setBit (brgReg c 0x044) 10 else s.setChan c { C with goPend := C.goPend + 1 }

/-! ### Checks (R153 to R157, R168) -/

/-- R157: the least and the greatest address of a side. -/
def bRange (d : Desc) (base : Nat) (step : Nat → Int) : Int × Int :=
  let term (k : Nat) : Int := step k * ((bCount d k : Int) - 1)
  ([0, 1, 2].foldl (fun a k => a + min 0 (term k)) (base : Int),
   [0, 1, 2].foldl (fun a k => a + max 0 (term k)) (base : Int) + (bBytes d : Int) - 1)

def bSrcBase (d : Desc) : Nat := if bSrcK d = 0 then bSrc d % 4194304 else bSrc d
def bDstBase (d : Desc) : Nat := if bDstK d = 0 then bDst d % 4194304 else bDst d
def bSrcRange (d : Desc) : Int × Int := bRange d (bSrcBase d) (bSrcStep d)
def bDstRange (d : Desc) : Int × Int := bRange d (bDstBase d) (bDstStep d)

/-- R155: a side with device addresses. -/
def bSrcDev (d : Desc) : Bool := bSrcK d == 1
def bDstDev (d : Desc) : Bool := bDstK d == 1 || bDstK d == 3

/-- R157: base and steps are multiples of min(element bytes, 32). -/
def bSideAligned (d : Desc) (base : Nat) (step : Nat → Int) : Bool :=
  let g := min (bBytes d) 32
  base % g == 0 && [0, 1, 2].all fun k => step k % (g : Int) == 0

/-- R157: a device range that the channel may reach. -/
def bDevOk (s : State) (c : Nat) (r : Int × Int) : Bool :=
  decide (0 ≤ r.1) && (isIod c || (chanOwner s c).isSome) && addrOk s (chanOwner s c) r.1.toNat (r.2 - r.1 + 1).toNat

/-- R157: a tank range. -/
def bTankOk (r : Int × Int) : Bool := decide (0 ≤ r.1) && decide (r.2 < 4194304)

/-- R103, R104, R152 to R154, R163, R168: fields out of range. -/
def bFieldBad (c : Nat) (d : Desc) : Bool :=
  let y := syncOf 2 d
  decide (6 ≤ bEsize d) || decide (6 ≤ bSwap d) || (bStart d != 0 && bPace d == 3) || (bStart d == 1 && bPeriod d == 0) ||
  (bDstK d == 3 && (weirLane (bWeir d)).isNone) || syncBad y ||
  (isIod c && (waitEn y || bNotify d || sigEn y && !sigRemote y))

/-- R151, R155: kinds that the channel does not offer. -/
def bKindBad (c : Nat) (d : Desc) : Bool :=
  (isIod c && (bSrcK d == 0 || bSrcK d == 2 || bDstK d == 0 || bDstK d == 2)) || (bSrcK d == 2 && bDstK d == 2)

/-- R132, R157: a stream end that is not valid or in use. -/
def bStreamBad (s : State) (c : Nat) (d : Desc) : Bool :=
  let k := c / 4
  (match bHg d with | some n => !hgValid s k n || hgByArr (s.plot k) n || hgByChan s k n c | none => false) ||
  (match bSlot d with | some n => !slotValid s k n || slotByArr (s.plot k) n || slotByChan s k n c | none => false)

/-- R157: FOLLOW names the channel itself, or none. -/
def bFollowBad (c : Nat) (d : Desc) : Bool :=
  bStart d == 2 && (if isIod c then bFollow d == c - 2048 else bFollow d == c % 4 || decide (4 ≤ bFollow d))

/-- R157: the status that rejects a descriptor on channel `c`. -/
def bCheck (s : State) (c : Nat) (d : Desc) : Option Nat :=
  let st := (bUnitElems d * bBytes d) % 64 != 0
  if bFieldBad c d then some 0x07
  else if bKindBad c d then some 0x42
  else if bDstK d = 3 ∧ !weirPairOk (bWeir d) (bEsize d) then some 0x44
  else if bBytes d % swapUnit (bSwap d) ≠ 0 then some 0x43
  else if (bSrcK d = 0 ∧ !bTankOk (bSrcRange d)) ∨ (bDstK d = 0 ∧ !bTankOk (bDstRange d)) then some 0x05
  else if (bSrcK d = 0 ∧ !bSideAligned d (bSrcBase d) (bSrcStep d)) ∨ (bDstK d = 0 ∧ !bSideAligned d (bDstBase d) (bDstStep d)) then some 0x06
  else if (bSrcDev d ∧ !bDevOk s c (bSrcRange d)) ∨ (bDstDev d ∧ !bDevOk s c (bDstRange d)) then some 0x40
  else if (bSrcDev d ∧ !bSideAligned d (bSrcBase d) (bSrcStep d)) ∨ (bDstDev d ∧ !bSideAligned d (bDstBase d) (bDstStep d)) then some 0x41
  else if (bSrcK d = 2 ∨ bDstK d = 2) ∧ st then some 0x46
  else if bStreamBad s c d then some 0x0B
  else if bFollowBad c d then some 0x45
  else none

/-! ### Requests across far ends (R199) -/

/-- The fabric place of a channel as a requester. -/
def chanLoc (c : Nat) : Loc := if isIod c then ⟨16, BitVec.ofNat 5 (c - 2048)⟩ else plotLoc (c / 4)

/-- The table of the far end that a request to `addr` crosses; none on the channel's own die. -/
def reqKeyOf (s : State) (c addr : Nat) : Option Nat :=
  let die := if isIod c then 16 else c / 128
  match devPlace s addr with
  | none => none
  | some (k, _) =>
    if k / 32 = die then none
    else if die = 16 then some (16 * 32 + k / 32)
    else some (die * 32 + (farEnd die (exitRoute s die (siteOf s (c / 4)) (k / 32)).2).1)

/-- The tables a unit's requests stand in: those of its first element. -/
def unitKeys (s : State) (c : Nat) (d : Desc) (n : Nat) : List (Nat × Bool) :=
  ((if bSrcDev d then (reqKeyOf s c (bSrcAddr d n)).toList.map fun k => (k, true) else []) ++
   (if bDstDev d then (reqKeyOf s c (bDstAddr d n)).toList.map fun k => (k, false) else []))

/-- R199: requests enter their tables. -/
def State.reqAdd (s : State) (c : Nat) (ks : List (Nat × Bool)) : State :=
  ks.foldl (fun s k => s.updReqTab k.1 fun l => l ++ [⟨chanLoc c, k.2⟩]) s

/-- R199: requests are answered. -/
def State.reqDrop (s : State) (c : Nat) (ks : List (Nat × Bool)) : State :=
  ks.foldl (fun s k => s.updReqTab k.1 fun l => l.erase ⟨chanLoc c, k.2⟩) s

/-- R199: a table has room. -/
def reqRoom (s : State) (ks : List (Nat × Bool)) : Bool := ks.all fun k => decide ((s.reqTab k.1).length < 1024)

/-! ### Starting (R163 to R165) -/

/-- First element of the unit in progress. -/
def unitFirst (C : Chan) (d : Desc) : Nat := C.unit * bUnitElems d

/-- A unit starts; one that feeds a fenced slot sends nothing (R192). -/
def State.startUnit (s : State) (c : Nat) (d : Desc) : State :=
  let fen := match bSlot d with | some n => slotFenced s (c / 4) n | none => false
  (s.updChan c fun C => { C with phase := .moving, fenced := C.fenced || fen }).reqAdd c (unitKeys s c d (unitFirst (s.chan c) d))

/-- R163: the channel's next unit may start. -/
def unitReady (C : Chan) (d : Desc) : Bool :=
  match bStart d with
  | 0 => true
  | 1 => C.late || C.grid == 0
  | _ => decide (0 < C.goPend)

/-- R164, R165: what a start takes. -/
def unitTake (C : Chan) (d : Desc) : Chan :=
  match bStart d with
  | 0 => C
  | 1 => { C with late := false, grid := max 1 C.grid }
  | _ => { C with goPend := C.goPend - 1 }

/-- R106, R163: a channel whose wait ends starts its grid; a unit whose start event is there starts (log 28). -/
def State.pump (s : State) (c : Nat) : State :=
  match (s.chan c).desc with
  | none => s
  | some d =>
    if !unitsGo s c d then s
    else
      let y := syncOf 2 d
      let s1 := if (s.chan c).phase == .waitSync && (isIod c || waitOk s (c / 4) y) then
          (if isIod c then s else s.waitTake (c / 4) y).updChan c fun C => { C with phase := .waitGo, t0 := s.tb, grid := 0 }
        else s
      let C := s1.chan c
      if C.phase == .waitGo && unitReady C d && reqRoom s1 (unitKeys s1 c d (unitFirst C d)) then
        (s1.setChan c (unitTake C d)).startUnit c d
      else s1

/-! ### Elements -/

/-- What has been moved. -/
structure Moved where
  st : State
  poison : Bool := false
  lost : Bool := false

/-- R155: the bytes of element `n` before its swap. -/
def readElem (s : State) (c : Nat) (d : Desc) (n : Nat) : DevRes :=
  let e := bBytes d
  match bSrcK d with
  | 0 =>
    let P := s.plot (c / 4)
    { st := s, data := tankGet P (bSrcAddr d n) e, poison := tankBad P (bSrcAddr d n) e, lost := false }
  | 1 => s.devRead (bSrcAddr d n) e .port
  | 2 =>
    let C := s.chan c
    let o := (n - unitFirst C d) * e
    let fs := (C.inBuf.drop (o / 64)).take ((o % 64 + e + 63) / 64)
    let bad := (List.range ((o % 8 + e + 7) / 8)).any fun w =>
      let i := o % 64 / 8 + w
      nbit (nth (⟨[], 0⟩ : FlitData) fs (i / 8)).poison.toNat (i % 8)
    { st := s, data := ((fs.flatMap (·.bytes)).drop (o % 64)).take e, poison := bad, lost := false }
  | _ => { st := s, data := (List.range e).map fun i => BitVec.ofNat 8 (bPattern d / 256 ^ (i % 8)), poison := false, lost := false }

/-- R159: the source and destination ranges overlap. -/
def bOverlap (d : Desc) : Bool :=
  (bSrcK d == 0 && bDstK d == 0 || bSrcDev d && bDstDev d) &&
  decide ((bSrcRange d).1 ≤ (bDstRange d).2) && decide ((bDstRange d).1 ≤ (bSrcRange d).2)

/-- R155, R161: element `n` is written; poison is written as poison. -/
def writeElem (s : State) (c : Nat) (d : Desc) (n : Nat) (data : List Byte) (bad : Bool) : Moved :=
  let a := bDstAddr d n
  match bDstK d with
  | 0 => { st := s.updPlot (c / 4) fun P => tankPut P a data bad }
  | 1 => let r := s.devWrite a data bad .port; { st := r.st, poison := r.poison, lost := r.lost }
  | 3 => let r := s.devWeir (bWeir d) a data bad; { st := r.st, poison := r.poison, lost := r.lost }
  | _ => { st := s }

/-- R156, R159: one element; where the ranges overlap, its data is open (log 5). -/
def moveElem (m : Moved) (c : Nat) (d : Desc) (n : Nat) : Moved :=
  if m.lost then m
  else
    let r := readElem m.st c d n
    if r.lost then { m with st := r.st, lost := true }
    else
      let f := if bOverlap d then r.st.freeBytes (bBytes d) else (r.st, swapBytes (bSwap d) r.data)
      let w := writeElem f.1 c d n f.2 r.poison
      { st := if r.poison then w.st.setBit (brgReg c 0x044) 11 else w.st
        poison := m.poison || r.poison || w.poison, lost := w.lost }

/-- Elements `n` to `n + cnt - 1`. -/
def moveElems (s : State) (c : Nat) (d : Desc) (n cnt : Nat) : Moved :=
  (List.range cnt).foldl (fun m i => moveElem m c d (n + i)) { st := s }

/-- Nothing makes the elements wait at their slices. -/
def elemsGo (s : State) (d : Desc) (n cnt : Nat) : Bool :=
  (List.range cnt).all fun i =>
    (!bSrcDev d || devReadGo s (bSrcAddr d (n + i)) (bBytes d)) && (!bDstDev d || devWriteGo s (bDstAddr d (n + i)) (bBytes d))

/-! ### Flits of an output slot -/

/-- The 64 B flits of bytes with their poison. -/
def flitsOf (bs : List Byte) (bad : Bool) : List FlitData :=
  (List.range (bs.length / 64)).map fun i => ⟨(bs.drop (64 * i)).take 64, if bad then 0xFF else 0⟩

/-- R156: elements of the next flit, or the flits of the next element. -/
def State.fillOut (s : State) (c : Nat) : State :=
  let C := s.chan c
  match C.desc with
  | none => s
  | some d =>
    if C.phase == .moving && bDstK d == 2 && C.outQ.isEmpty && !C.fenced && decide (C.pos < unitFirst C d + bUnitElems d) then
      let e := bBytes d
      let cnt := max 1 (64 / e)
      let es := (List.range cnt).map (· + C.pos)
      if es.all fun n => !bSrcDev d || devReadGo s (bSrcAddr d n) e then
        let r := es.foldl (fun (r : DevRes × Nat) n =>
          let x := readElem r.1.st c d n
          let bytes := swapBytes (bSwap d) x.data
          let lo := (n - C.pos) * e / 8
          let mask := if x.poison then (List.range ((e + 7) / 8)).foldl (fun m w => Nat.lor m (2 ^ ((lo + w) % 8))) 0 else 0
          ({ st := x.st, data := r.1.data ++ bytes, poison := r.1.poison || x.poison, lost := r.1.lost || x.lost }, Nat.lor r.2 mask))
          (({ st := s, data := [], poison := false, lost := false } : DevRes), 0)
        if r.1.lost then r.1.st.updChan c fun C => { C with lost := true }
        else
          let fs := if e ≤ 64 then [(⟨r.1.data, BitVec.ofNat 8 r.2⟩ : FlitData)] else flitsOf r.1.data r.1.poison
          let s1 := r.1.st.updChan c fun C => { C with outQ := fs, pos := C.pos + cnt, poisoned := C.poisoned || r.1.poison }
          if r.1.poison then s1.setBit (brgReg c 0x044) 11 else s1
      else s
    else s

/-- The channels of plot `k` start what they can, and those that feed a slot have a flit ready. -/
def State.readyChans (s : State) (k : Nat) : State := (plotChans k).foldl (fun s c => (s.pump c).fillOut c) s

/-! ### Counters (R158, R170) -/

/-- R158: the requests of a run of `len` bytes from `a`, cut at `b`-byte boundaries, as lengths. -/
def cutRun (a len b : Nat) : List Nat :=
  if len = 0 then []
  else (List.range ((a + len - 1) / b - a / b + 1)).map fun i =>
    min (a + len) (b * (a / b + i) + b) - max a (b * (a / b + i))

/-- R158: the requests of one side for elements `n` to `n + cnt - 1`, whole loop-0 runs, as lengths. -/
def sideReqs (d : Desc) (addr : Nat → Nat) (step0 : Int) (b n cnt : Nat) : List Nat :=
  let e := bBytes d
  if step0 = (e : Int) then
    (List.range (cnt / bCount d 0)).flatMap fun i => cutRun (addr (n + i * bCount d 0)) (e * bCount d 0) b
  else (List.range cnt).flatMap fun i => cutRun (addr (n + i)) e b

/-- R170: a unit's bytes, requests and short cistern writes. -/
def State.countUnit (s : State) (c : Nat) (d : Desc) (n cnt : Nat) : State :=
  let src := match bSrcK d with
    | 0 => sideReqs d (bSrcAddr d) (bSrcStep d 0) 64 n cnt
    | 1 => sideReqs d (bSrcAddr d) (bSrcStep d 0) 256 n cnt
    | _ => []
  let dst := match bDstK d with
    | 0 => sideReqs d (bDstAddr d) (bDstStep d 0) 64 n cnt
    | 1 => sideReqs d (bDstAddr d) (bDstStep d 0) 256 n cnt
    | 3 => List.replicate cnt (bBytes d)
    | _ => []
  let short := if bDstK d = 1 then (dst.filter (· < 32)).length else 0
  ((s.countChan c 0 (if bDstK d = 2 then 0 else cnt * bBytes d)).countChan c 1 (src.length + dst.length)).countChan c 2 short

/-! ### The end of a descriptor (R160, R162, R168) -/

/-- R168: a record of an I/O die channel, or its wait for a full `BRG_CPL`. -/
def State.iodRecord (s : State) (c : Nat) (r : CplRec) : State :=
  let C := s.chan c
  if C.cpl.length < 4 then s.setChan c { C with cpl := C.cpl ++ [r] } else s.setChan c { C with heldRecs := C.heldRecs ++ [r] }

/-- R342: landing descriptors waiting for channel `c`: the command, the descriptor and what then waits. -/
def waitingJob (s : State) (c : Nat) : Option (Nat × Nat × Desc × List (Nat × Desc) × Nat × Byte × Nat) :=
  (List.range 68).findSome? fun g => (s.ring g).running.findSome? fun (x : Cmd) => match x.st with
    | .chans todo left status moved =>
      (match todo.find? fun t => t.1 == c with
       | some t => some (g, x.id, t.2, todo.erase t, left, status, moved)
       | none => none)
    | _ => none

/-- R342: the landing's descriptors enter the channel's queue as entries free. -/
def State.refillChan (s : State) (c : Nat) : Nat → State
  | 0 => s
  | n + 1 =>
    if 4 ≤ (s.chan c).queue.length then s
    else match waitingJob s c with
      | none => s
      | some (g, id, d, todo, left, status, moved) =>
        ((s.updCmd g id fun x => { x with st := .chans todo left status moved }).updChan c fun C =>
          { C with queue := C.queue ++ [(d, some (g, id))] }).refillChan c n

/-- R300, R342: the more severe of two statuses. -/
def worse (a b : Nat) : Nat :=
  let rank (x : Nat) : Nat := match x with | 0 => 0 | 0x10 => 1 | 0x12 => 2 | 0x20 => 3 | 0x21 => 4 | _ => 5
  if rank a < rank b then b else a

/-- R342, R343: a descriptor of a landing command has ended after writing `bytes`. -/
def State.jobDone (s : State) (g id status bytes : Nat) : State :=
  match (s.ring g).running.find? fun x => x.id == id with
  | none => s
  | some x =>
    match x.st with
    | .chans todo left st moved =>
      let st' := worse st.toNat status
      if left ≤ 1 then s.finishCmd g id st' (min (moved + bytes) (2 ^ 32 - 1))
      else s.updCmd g id fun x => { x with st := .chans todo (left - 1) (BitVec.ofNat 8 st') (moved + bytes) }
    | _ => s

/-- R168: the remote signal of an I/O die channel. -/
def State.iodSignal (s : State) (c : Nat) (d : Desc) (status : Nat) : State :=
  let y := syncOf 2 d
  let dst := sigLoc (tagOf 2 d)
  let ok := match chanOwner s c with
    | some n => tokDestOk s (some n) dst
    | none => decide (dst.die.toNat < 16) && plotReported s (locKey dst)
  if signals status && sigEn y && ok then
    s.inject 3 (chanLoc c) dst (.add dst (chanLoc c) (BitVec.ofNat 6 (sigCtr y)) 1) else s

/-- R168: a descriptor of an I/O die channel ends: its record goes to `BRG_CPL`, or to the landing. -/
def State.iodEnd (s : State) (c : Nat) (d : Desc) (job : Option (Nat × Nat)) (status bytes : Nat) (rejected : Bool) : State :=
  match job with
  | some (g, id) => s.jobDone g id status bytes
  | none =>
    let s1 := if rejected then s else s.iodSignal c d status
    if cplEn (syncOf 2 d) || status != 0 then s1.iodRecord c (cplRec s1 2 d status rejected) else s1

/-- The channel takes a descriptor that has passed its checks. -/
def State.takeDesc (s : State) (c : Nat) (d : Desc) (job : Option (Nat × Nat)) : State :=
  (s.updChan c fun C => { C with desc := some d, job := job, phase := .waitSync, unit := 0, pos := 0, grid := 0, late := false,
                                 poisoned := false, fenced := false, lost := false, aborted := false, inBuf := [], outQ := [] }).pump c

/-- R168: an I/O die channel takes its next descriptor; rejected ones leave their records. -/
def State.iodNext (s : State) (c : Nat) : Nat → State
  | 0 => s
  | n + 1 =>
    let C := s.chan c
    match C.queue with
    | [] => s
    | (d, job) :: rest =>
      if C.desc.isSome || !C.heldRecs.isEmpty || !chanGo s c then s
      else
        let s1 := (s.setChan c { C with queue := rest }).refillChan c 4
        match bCheck s1 c d with
        | some st => (s1.iodEnd c d job st 0 true).iodNext c n
        | none => s1.takeDesc c d job

/-- R129: the head of the barge queue may go to its channel. -/
def handoffOk (s : State) (k : Nat) : Bool :=
  let Q := s.queue k 2
  match Q.entries with
  | [] => false
  | d :: _ => queueGo s k 2 && !Q.held && (s.chan (4 * k + bCh d)).desc.isNone && (s.chan (4 * k + bCh d)).state == .running

/-- R129, R157: the channel checks the head and takes it. -/
def handoff (k : Nat) (s : State) : State :=
  match (s.queue k 2).entries with
  | [] => s
  | d :: rest =>
    let c := 4 * k + bCh d
    match bCheck s c d with
    | some st => s.rejectHold k 2 d st
    | none => (s.updQueue k 2 fun Q => { Q with entries := rest }).takeDesc c d none

/-- The channel's descriptor leaves it. -/
def State.clearChan (s : State) (c : Nat) : State :=
  let C := s.chan c
  let s1 := match C.desc with
    | some d => if C.phase = BPhase.moving then s.reqDrop c (unitKeys s c d (unitFirst C d)) else s
    | none => s
  s1.updChan c fun C => { C with desc := none, job := none, phase := .idle, unit := 0, pos := 0, grid := 0, late := false,
                                 poisoned := false, fenced := false, lost := false, aborted := false, inBuf := [], outQ := [] }

/-- R160: the descriptor of channel `c` ends with `status`; the channel takes its next one. -/
def State.endDesc (s : State) (c status : Nat) : State :=
  let C := s.chan c
  match C.desc with
  | none => s
  | some d =>
    let s1 := s.clearChan c
    if isIod c then (s1.iodEnd c d C.job status (C.pos * bBytes d) false).iodNext c 5
    else
      let s2 := s1.complete (c / 4) 2 d status
      if handoffOk s2 (c / 4) then handoff (c / 4) s2 else s2

/-- R161: the status of a descriptor that ends. -/
def endStatus (C : Chan) : Nat := if C.aborted then 0x21 else if C.lost then 0x12 else if C.fenced then 0x11 else if C.poisoned then 0x10 else 0

/-- R164: channels that follow channel `c` gain a start event. -/
def State.followers (s : State) (c : Nat) : State :=
  let me := if isIod c then c - 2048 else c % 4
  let xs := if isIod c then (List.range 32).map (· + 2048) else plotChans (c / 4)
  xs.foldl (fun s x =>
    if x != c && (match (s.chan x).desc with | some d => bStart d == 2 && bFollow d == me | none => false) then (s.addGo x).pump x
    else s) s

/-- R166: BARGE_GO after each unit. -/
def State.notify (s : State) (c : Nat) (d : Desc) : State :=
  if bNotify d && !isIod c then
    let dst := if sigRemote (syncOf 2 d) then sigLoc (tagOf 2 d) else plotLoc (c / 4)
    s.plotToken (c / 4) dst fun t f => .bargeGo t f (BitVec.ofNat 2 (bNotifyCh d))
  else s

end Sys2Proof.Machine
end

