-- ==== Sys2Proof/Machine/Noria.lean ====
section
/-!
DEFINITION. Noria.lean: arithmetic inside the DRAM banks (R127, R128, R272 to R308): command fields and checks, the steps
of every class, permits, the noria window's commands, the encoder cross-check.
-/
namespace Sys2Proof.Machine

/-! ### Fields (R278, R279) -/

def nOp (d : Desc) : Nat := df d 0 0 8
def nIn (d : Desc) : Nat := df d 0 8 5
def nOut (d : Desc) : Nat := df d 0 13 5
def nMode (d : Desc) : OutMode := { stoch := false, sat := df d 0 18 1 == 1 }
def nBImm (d : Desc) : Bool := df d 0 19 1 == 1
def nCImm (d : Desc) : Bool := df d 0 20 1 == 1
def nBcast (d : Desc) : Bool := df d 0 21 1 == 1
def nAux (d : Desc) : Nat := df d 0 22 5
def nSelf (d : Desc) : Bool := df d 3 9 1 == 1
def nMask (d : Desc) : Nat := dw d 4
def nLen (d : Desc) : Nat := df d 9 0 16 + 1
def nRows (d : Desc) : Nat := df d 9 16 16 + 1
def nSrcPitch (d : Desc) : Nat := 32 * df d 10 0 16
def nDstPitch (d : Desc) : Nat := 32 * df d 10 16 16
def nImm0 (d : Desc) : Num := dec32 (dw d 11)
def nImm1 (d : Desc) : Num := dec32 (dw d 12)
def nArg0 (d : Desc) : Nat := df d 13 0 26
def nArg1 (d : Desc) : Nat := df d 14 0 26

/-- The cistern a command names, from the issuing plot `self`. -/
def nTarget (self : Nat) (d : Desc) : Nat := if nSelf d then self else 32 * df d 3 0 4 + df d 3 4 5

/-- Bytes of an element of a format. -/
def nSize (f : Nat) : Nat := max 1 (elemBits f / 8)

/-- R281: the class of an opcode. -/
inductive NorClass where
  | elem | func | pwl | norm | reduce | gather | score | smv
  deriving DecidableEq, Repr

/-- R281: the opcodes; every other value is `NOR_OP`. -/
def norClass (op : Nat) : Option NorClass :=
  if 0x01 ≤ op ∧ op ≤ 0x07 then some .elem
  else if 0x10 ≤ op ∧ op ≤ 0x18 then some .func
  else if op = 0x19 then some .pwl
  else if op = 0x1A ∨ op = 0x1B then some .func
  else if op = 0x20 ∨ op = 0x21 then some .norm
  else if 0x30 ≤ op ∧ op ≤ 0x34 then some .reduce
  else if 0x40 ≤ op ∧ op ≤ 0x43 then some .gather
  else if op = 0x70 then some .score
  else if op = 0x71 then some .smv
  else none

/-- R281: SRC1 is a second vector. -/
def nVecB (d : Desc) : Bool :=
  ((0x02 ≤ nOp d && nOp d ≤ 0x07) || nOp d == 0x1A || nOp d == 0x1B) && !nBImm d

/-- R281: AUX is FMA's C vector. -/
def nVecC (d : Desc) : Bool := nOp d == 0x05 && !nCImm d

/-! ### Operands (R280, R288, R304) -/

/-- An operand: base, element bytes, row pitch, rows and elements per row. -/
structure NorOpd where
  base : Nat
  es : Nat
  pitch : Nat
  rows : Nat
  n : Nat
  deriving DecidableEq, Repr

/-- R280: the bank-local address of element `j` of row `i`. -/
def NorOpd.at' (o : NorOpd) (i j : Nat) : Nat := o.base + (if o.rows = 1 then 0 else i) * o.pitch + j * o.es

/-- R280: a zero pitch is packed. -/
def rowPitch (pitch n es : Nat) : Nat := if pitch = 0 then roundUp (n * es) 32 else pitch

/-- The end of an operand. -/
def NorOpd.last (o : NorOpd) : Nat := if o.rows = 0 ∨ o.n = 0 then o.base else o.at' (o.rows - 1) o.n

/-- Some row of the operand touches addresses `lo` to `hi - 1`. -/
def NorOpd.touches (o : NorOpd) (lo hi : Nat) : Bool :=
  let len := o.n * o.es
  if o.rows = 0 ∨ len = 0 ∨ hi ≤ lo then false
  else
    let i := if lo < o.base + len then 0 else (lo - (o.base + len)) / max 1 o.pitch + 1
    decide (i < o.rows) && decide (o.at' i 0 < hi) && decide (lo < o.at' i 0 + len)

/-- SRC0 as rows. -/
def opdA (d : Desc) : NorOpd :=
  ⟨df d 5 0 26, nSize (nIn d), rowPitch (nSrcPitch d) (nLen d) (nSize (nIn d)), nRows d, nLen d⟩

/-- SRC1 as B. -/
def opdB (d : Desc) : NorOpd :=
  ⟨df d 6 0 26, nSize (nIn d), rowPitch (nSrcPitch d) (nLen d) (nSize (nIn d)), if nBcast d then 1 else nRows d, nLen d⟩

/-- AUX as C. -/
def opdC (d : Desc) : NorOpd :=
  ⟨df d 7 0 26, nSize (nAux d), rowPitch (nSrcPitch d) (nLen d) (nSize (nAux d)), nRows d, nLen d⟩

/-- One row of `n` elements of `es` bytes. -/
def opdRow (base es n : Nat) : NorOpd := ⟨base, es, 0, 1, n⟩

/-- The inputs of a command whose gather lists hold `idx` indices. -/
def norIns (d : Desc) (idx : Nat) : List NorOpd :=
  match norClass (nOp d) with
  | some .pwl => [opdA d, opdRow (df d 7 0 26) 4 128]
  | some .norm => opdA d :: opdRow (df d 7 0 26) (nSize (nAux d)) (nLen d) ::
      (if nOp d = 0x21 then [opdRow (df d 6 0 26) (nSize (nAux d)) (nLen d)] else [])
  | some .gather => [opdRow (df d 5 0 26) 4 idx, opdRow (df d 6 0 26) 4 (nRows d + 1),
      ⟨df d 7 0 26, nSize (nIn d), nSrcPitch d, nArg0 d, nLen d⟩] ++
      (if nOp d = 0x43 then [opdRow (nArg1 d) 4 idx] else [])
  | some .score => [opdA d, opdRow (df d 7 0 26) (nSize (nAux d)) (nLen d)]
  | some .smv => [opdA d, opdRow (df d 6 0 26) 4 (nRows d)]
  | _ => opdA d :: ((if nVecB d then [opdB d] else []) ++ (if nVecC d then [opdC d] else []))

/-- R306: floats of a record, its padding included. -/
def smvWords (d : Desc) : Nat := roundUp ((2 + nLen d) * 4) 32 / 4

/-- The output of a command. -/
def norDst (d : Desc) : NorOpd :=
  let base := df d 8 0 26
  match norClass (nOp d) with
  | some .reduce => opdRow base 4 (nRows d)
  | some .score => opdRow base 4 (nRows d)
  | some .smv => opdRow base 4 (smvWords d)
  | _ => ⟨base, nSize (nOut d), rowPitch (nDstPitch d) (nLen d) (nSize (nOut d)), nRows d, nLen d⟩

/-! ### Bank memory -/

/-- R275: the cistern offset of a bank-local address. -/
def bankOff (b bl : Nat) : Nat :=
  bl % 256 + b * 256 + bl / 256 % 8 * 8192 + bl / 2048 % 32768 * 65536

/-- Word `u` of a bank (32 B, counted bank-locally) as it reads, and whether it reads as poison. -/
def peekWord (s : State) (k b u : Nat) : List Byte × Bool :=
  let w := bankOff b (32 * u) / 32
  match classify (rawChk s k w) with
  | .clean => (rawWord s k w, false)
  | .correctable j e => (corrected (rawWord s k w) j e, false)
  | _ => (rawWord s k w, true)

/-- `n` elements of format code `f` from `bl` on, each with its poison. -/
def peekElems (s : State) (k b f bl n : Nat) : List (Num × Bool) :=
  let es := nSize f
  let ws := (List.range ((bl % 32 + n * es + 31) / 32)).map fun i => peekWord s k b (bl / 32 + i)
  (List.range n).map fun j =>
    let a := bl % 32 + j * es
    let w := nth ([], false) ws (a / 32)
    (elemVal f (leAt w.1 (a % 32) es), w.2)

/-- An INT32 of a list, with its poison. -/
def peekInt (s : State) (k b bl : Nat) : Int × Bool :=
  let w := peekWord s k b (bl / 32)
  (sext 32 (leAt w.1 (bl % 32) 4), w.2)

/-- Some word of a range reads as poison. -/
def peekBad (s : State) (k b bl len : Nat) : Bool := (codeWords bl len).any fun u => (peekWord s k b u).2

/-! ### Arithmetic -/

/-- R91, R285: the function of an opcode as the vector unit numbers it, with noria's bound: relative and absolute, as
powers of two. -/
def norFuncOf (op : Nat) : Nat × Nat × Option Nat :=
  match op with
  | 0x10 => (0x13, 14, some 18)
  | 0x11 => (0x12, 14, some 18)
  | 0x12 => (0x14, 14, some 18)
  | 0x13 => (0x0C, 18, none)
  | 0x14 => (0x0D, 18, none)
  | 0x15 => (0x11, 16, some 20)
  | 0x16 => (0x10, 16, some 20)
  | 0x17 => (0x0A, 18, none)
  | _ => (0x0B, 18, none)

/-- R285: `w` lies within the bound around the exact value, whose FP32 rounding is `y`. -/
def norAllows (op : Nat) (x y w : Num) : Bool :=
  let f := norFuncOf op
  match y, w with
  | .fin sy m e, .fin sw _ _ =>
    let slack : Num := .fin false m (e - 23)
    let rel : Num := Num.add (.fin false m (e - f.2.1)) slack
    let near := !Num.magLt rel (Num.dist y w)
    let abs := match f.2.2 with
      | some a => !Num.magLt (Num.add (.fin false 1 (-(a : Int))) slack) (Num.dist y w)
      | none => false
    let saturated := x.isZero && op != 0x15 || (op == 0x16 && m != 0 && Num.magLt (.fin false 16777214 (-24)) y) ||
      (op == 0x15 && (m == 0 || Num.magLt (.fin false 16777214 (-24)) y))
    (near || abs) && !saturated && (sy == sw || f.2.2.isSome && op != 0x15)
  | _, _ => false

/-- R285: noria's result of a function: an open word inside the bound, else the exact value rounded (log 31). -/
def norFunc (op : Nat) (x : Num) : Num :=
  let w := dec32 (Config.openFn 4 [op, enc32 x] % 2 ^ 32)
  if x.isNan then .nan
  else
    let y := funcExact (norFuncOf op).1 x
    if norAllows op x y w then w else y

/-- R284: one FP32 operation. -/
def nadd (x y : Num) : Num := (add32 .near x y).1
def nsub (x y : Num) : Num := (add32 .near x y.neg).1
def nmul (x y : Num) : Num := (mul32 .near x y).1
def ndiv (x y : Num) : Num := (div32 .near x y).1
def nrne (x : Num) : Num := (to32 .near x).1

/-- A magnitude. -/
def Num.abs : Num → Num
  | .nan => .nan
  | .inf _ => .inf false
  | .fin _ m e => .fin false m e

/-- R281, R284: the result of an element-wise or function operation. -/
def norElem (op : Nat) (a b c : Num) : Num :=
  match op with
  | 0x01 => a
  | 0x02 => nadd a b
  | 0x03 => nsub a b
  | 0x04 => nmul a b
  | 0x05 => (fma32 .near a b c).1
  | 0x06 => min32 a b
  | 0x07 => max32 a b
  | 0x1A => nmul (norFunc 0x12 a) b
  | 0x1B => nmul (norFunc 0x10 a) b
  | _ => norFunc op a

/-- The quotient of two positive exact values, rounded down. -/
def floorDiv (x y : Num) : Nat :=
  match x, y with
  | .fin _ m e, .fin _ m' e' => if e' ≤ e then m * 2 ^ (e - e').toNat / max 1 m' else m / max 1 (m' * 2 ^ (e' - e).toNat)
  | _, _ => 0

/-- R285: the segment of an input; one inside a range with a bound that is no number is open (log 5). -/
def pwlSeg (lo hi x : Num) : Nat :=
  if x.lt lo then 0
  else if !x.lt hi then 63
  else if lo.isFin && hi.isFin then min 63 (floorDiv ((x.add lo.neg).mul (Num.ofInt 64)) (hi.add lo.neg))
  else Config.openFn 5 [enc32 lo, enc32 hi, enc32 x] % 64

/-- The bytes of converted results. -/
def norBytes (f : Nat) (m : OutMode) (ys : List Num) : List Byte :=
  ys.flatMap fun y => leBytes (nSize f) (cvtOne f m 0 y).1

/-- FP32 results. -/
def fpBytes (ys : List Num) : List Byte := ys.flatMap fun y => leBytes 4 (enc32 y)

/-! ### Steps (R289) -/

/-- What one step does: the ranges it reads, what it writes (address, bytes, poisoned words), where the bank stands after
it, whether the command is done in the bank, whether it met poison or a bad index. -/
structure NorStep where
  reads : List (Nat × Nat) := []
  writes : List (Nat × List Byte × List Nat) := []
  pos : NorPos := {}
  fin : Bool := false
  bad : Bool := false
  idx : Bool := false
  deriving DecidableEq, Repr

/-- R289: elements of one operand before its next 2 KiB boundary. -/
def chunkLeft (a es : Nat) : Nat := (2048 - a % 2048) / es

/-- R289: the next run of elements. -/
def norRun (d : Desc) (i j : Nat) (os : List NorOpd) : Nat :=
  max 1 (os.foldl (fun m o => min m (chunkLeft (o.at' i j) o.es)) (nLen d - j))

/-- The words that hold poisoned elements of a run written at `bl`. -/
def badWords (bl es : Nat) (bads : List Bool) : List Nat :=
  ((bads.zipIdx.filter (·.1)).map fun x => (bl + x.2 * es) / 32).eraseDups

/-- All words of a range. -/
def allWords (bl len : Nat) (bad : Bool) : List Nat := if bad then codeWords bl len else []

/-- The place after element `j` of row `i`. -/
def nextElem (d : Desc) (p : NorPos) (m : Nat) : NorPos × Bool :=
  if p.j + m < nLen d then ({ p with j := p.j + m }, false)
  else ({ p with row := p.row + 1, j := 0 }, decide (nRows d ≤ p.row + 1))

/-- R284, R285: a step of an element-wise or function operation. -/
def elemStep (s : State) (k b : Nat) (d : Desc) (p : NorPos) : NorStep :=
  let os := opdA d :: ((if nVecB d then [opdB d] else []) ++ (if nVecC d then [opdC d] else []))
  let m := norRun d p.row p.j (norDst d :: os)
  let get (o : NorOpd) (f : Nat) : List (Num × Bool) := peekElems s k b f (o.at' p.row p.j) m
  let xs := get (opdA d) (nIn d)
  let ys := if nVecB d then get (opdB d) (nIn d) else List.replicate m (nImm0 d, false)
  let zs := if nVecC d then get (opdC d) (nAux d) else List.replicate m (nImm1 d, false)
  let rs := (xs.zip (ys.zip zs)).map fun x => (norElem (nOp d) x.1.1 x.2.1.1 x.2.2.1, x.1.2 || x.2.1.2 || x.2.2.2)
  let a := (norDst d).at' p.row p.j
  let n := nextElem d p m
  { reads := os.map fun o => (o.at' p.row p.j, m * o.es)
    writes := [(a, norBytes (nOut d) (nMode d) (rs.map (·.1)), badWords a (norDst d).es (rs.map (·.2)))]
    pos := n.1, fin := n.2, bad := rs.any (·.2) }

/-- R285: USER_PWL's table is read in the first step. -/
def pwlStep (s : State) (k b : Nat) (d : Desc) (p : NorPos) : NorStep :=
  let m := norRun d p.row p.j [norDst d, opdA d]
  let xs := peekElems s k b (nIn d) ((opdA d).at' p.row p.j) m
  let tab := peekElems s k b 0 (df d 7 0 26) 128
  let rs := xs.map fun x =>
    let g := pwlSeg (nImm0 d) (nImm1 d) x.1
    let sl := nth (Num.nan, false) tab (2 * g)
    let ic := nth (Num.nan, false) tab (2 * g + 1)
    (if x.1.isNan then Num.nan else (fma32 .near sl.1 x.1 ic.1).1, x.2 || sl.2 || ic.2)
  let a := (norDst d).at' p.row p.j
  let n := nextElem d p m
  { reads := ((opdA d).at' p.row p.j, m * (opdA d).es) :: (if p.row = 0 ∧ p.j = 0 then [(df d 7 0 26, 512)] else [])
    writes := [(a, norBytes (nOut d) (nMode d) (rs.map (·.1)), badWords a (norDst d).es (rs.map (·.2)))]
    pos := n.1, fin := n.2, bad := rs.any (·.2) }

/-- R286: an exact sum. -/
def exactSum (xs : List Num) : Num := xs.foldl Num.add Num.zero

/-- R286: the statistics after one step of pass 1: n, mean, M2, Q. -/
def normMerge (first : Bool) (n : Nat) (mu m2 q : Num) (xs : List Num) : Nat × Num × Num × Num :=
  let m := xs.length
  let s := nrne (exactSum xs)
  let mk := ndiv s (Num.ofInt m)
  let dk := nrne (exactSum (xs.map fun x => (x.add mk.neg).mul (x.add mk.neg)))
  let qk := nrne (exactSum (xs.map fun x => x.mul x))
  if first then (m, mk, dk, qk)
  else
    let tot := n + m
    let delta := nsub mk mu
    let w := ndiv (Num.ofInt m) (Num.ofInt tot)
    (tot, nadd mu (nmul delta w), nadd (nadd m2 dk) (nmul (nmul delta delta) (nmul (Num.ofInt n) w)), nadd q qk)

/-- R286: a step of pass 1 of a row. -/
def normPass1 (s : State) (k b : Nat) (d : Desc) (p : NorPos) : NorStep :=
  let a := opdA d
  let m := norRun d p.row p.j [a]
  let xs := peekElems s k b (nIn d) (a.at' p.row p.j) m
  let w (i : Nat) : Num := dec32 (nth 0 p.acc i).toNat
  let r := normMerge (p.j == 0) p.cnt (w 0) (w 1) (w 2) (xs.map (·.1))
  let p' : NorPos := { p with acc := [r.2.1, r.2.2.1, r.2.2.2].map fun x => BitVec.ofNat 32 (enc32 x), cnt := r.1,
                              bad := p.bad || xs.any (·.2) }
  { reads := [(a.at' p.row p.j, m * a.es)], bad := xs.any (·.2)
    pos := if p.j + m < nLen d then { p' with j := p.j + m } else { p' with pass := 1, j := 0 } }

/-- R286: one output of pass 2. -/
def normOut (d : Desc) (n : Nat) (mu m2 q x g be : Num) : Num :=
  let r (v : Num) : Num := funcResult 0x0B (nadd (ndiv v (Num.ofInt n)) (nImm0 d))
  if nOp d = 0x20 then nmul (nmul x (r q)) g else nadd (nmul (nmul (nsub x mu) (r m2)) g) be

/-- R286, R297: a step of pass 2; a row that reads poison anywhere is written poisoned whole. -/
def normPass2 (s : State) (k b : Nat) (d : Desc) (p : NorPos) : NorStep :=
  let a := opdA d
  let g := opdRow (df d 7 0 26) (nSize (nAux d)) (nLen d)
  let e := opdRow (df d 6 0 26) (nSize (nAux d)) (nLen d)
  let ins := a :: g :: (if nOp d = 0x21 then [e] else [])
  let m := norRun d p.row p.j (norDst d :: ins)
  let bad := p.bad || (p.j == 0 && ins.any fun o => peekBad s k b (o.at' p.row 0) (nLen d * o.es)) ||
    ins.any fun o => peekBad s k b (o.at' p.row p.j) (m * o.es)
  let get (o : NorOpd) (f : Nat) : List Num := (peekElems s k b f (o.at' p.row p.j) m).map (·.1)
  let es := if nOp d = 0x21 then get e (nAux d) else List.replicate m Num.zero
  let w (i : Nat) : Num := dec32 (nth 0 p.acc i).toNat
  let ys := ((get a (nIn d)).zip ((get g (nAux d)).zip es)).map fun x =>
    normOut d p.cnt (w 0) (w 1) (w 2) x.1 x.2.1 x.2.2
  let t := (norDst d).at' p.row p.j
  let bs := norBytes (nOut d) (nMode d) ys
  { reads := ins.map fun o => (o.at' p.row p.j, m * o.es)
    writes := [(t, bs, allWords t bs.length bad)], bad := bad
    pos := if p.j + m < nLen d then { p with j := p.j + m, bad := bad } else { row := p.row + 1 }
    fin := decide (nLen d ≤ p.j + m) && decide (nRows d ≤ p.row + 1) }

/-- Outputs gathered in the scratch that follow one another are written as one run. -/
def coalesce : List (Nat × List Byte × Bool) → List (Nat × List Byte × List Nat)
  | [] => []
  | (a, bs, bad) :: t =>
    match coalesce t with
    | (a', bs', ws) :: t' =>
      if a + bs.length = a' then (a, bs ++ bs', allWords a bs.length bad ++ ws) :: t'
      else (a, bs, allWords a bs.length bad) :: (a', bs', ws) :: t'
    | [] => [(a, bs, allWords a bs.length bad)]

/-- R289: the step that writes what has gathered. -/
def flushStep (p : NorPos) (fin : Bool) : NorStep :=
  { writes := coalesce p.out, pos := { p with pass := 0, out := [] }, fin := fin, bad := p.out.any fun x => x.2.2 }

/-- R287: an element as its lane takes it, and how lanes combine. -/
def redInit (op : Nat) (x : Num) : Num := match op with | 0x33 => nmul x x | 0x34 => x.abs | _ => x
def redComb (op : Nat) (x y : Num) : Num :=
  match op with
  | 0x31 => max32 x y
  | 0x32 => min32 x y
  | 0x34 => max32 x y
  | _ => nadd x y

/-- R287: elements from `j` on into the 16 lanes. -/
def redLanes (op : Nat) (acc : List Word) (j : Nat) (xs : List Num) : List Word :=
  (xs.zipIdx j).foldl (fun acc x =>
    let v := redInit op x.1
    if x.2 < 16 then acc ++ [BitVec.ofNat 32 (enc32 v)]
    else setNth 0 acc (x.2 % 16) (BitVec.ofNat 32 (enc32 (redComb op (dec32 (nth 0 acc (x.2 % 16)).toNat) v)))) acc

/-- R287: the tree over the lanes that received an element. -/
def redTree (op : Nat) (acc : List Word) : Num :=
  (treeFold (redComb op) ((List.range 16).map fun i => if i < acc.length then some (dec32 (nth 0 acc i).toNat) else none)).getD Num.zero

/-- R287, R289: a step of a reduction. -/
def redStep (s : State) (k b : Nat) (d : Desc) (p : NorPos) : NorStep :=
  if p.pass = 1 then flushStep p (decide (nRows d ≤ p.row))
  else
    let a := opdA d
    let m := norRun d p.row p.j [a]
    let xs := peekElems s k b (nIn d) (a.at' p.row p.j) m
    let acc := redLanes (nOp d) p.acc p.j (xs.map (·.1))
    let bad := p.bad || xs.any (·.2)
    let pos : NorPos :=
      if p.j + m < nLen d then { p with j := p.j + m, acc := acc, bad := bad }
      else
        let out := p.out ++ [((norDst d).at' 0 p.row, fpBytes [redTree (nOp d) acc], bad)]
        { p with row := p.row + 1, j := 0, acc := [], bad := false, out := out
                 pass := if out.length = 512 ∨ nRows d ≤ p.row + 1 then 1 else 0 }
    { reads := [(a.at' p.row p.j, m * a.es)], pos := pos, bad := xs.any (·.2) }

/-! ### Gather-reduce (R288) -/

/-- Offsets of bag `k'`: first, end, and whether a word of them is poison. -/
def bagOffs (s : State) (k b : Nat) (d : Desc) (bag : Nat) : Int × Int × Bool :=
  let o (i : Nat) : Int × Bool := peekInt s k b (df d 6 0 26 + 4 * i)
  ((o bag).1, (o (bag + 1)).1, (o bag).2 || (o (bag + 1)).2)

/-- The bag's offsets break R288. -/
def bagBroken (o : Int × Int × Bool) : Bool := decide (o.1 < 0) || decide (o.2.1 < o.1) || decide (65535 < o.2.1 - o.1)

/-- Indices of a bag to be gathered; none of a broken or poisoned one. -/
def bagCount (o : Int × Int × Bool) : Nat := if bagBroken o || o.2.2 then 0 else (o.2.1 - o.1).toNat

/-- R288: a bag's output row. -/
def bagRow (d : Desc) (p : NorPos) (nan : Bool) : List Num :=
  if nan then List.replicate (nLen d) Num.nan
  else if p.cnt = 0 then List.replicate (nLen d) Num.zero
  else
    let acc := p.acc.map fun w => dec32 w.toNat
    if nOp d = 0x41 then acc.map fun x => ndiv x (Num.ofInt p.cnt) else acc

/-- R288: a bag is complete: its output row goes to the scratch. -/
def endBag (d : Desc) (p : NorPos) (o : Int × Int × Bool) : NorPos :=
  let bs := norBytes (nOut d) (nMode d) (bagRow d p (p.nan || bagBroken o))
  let out := p.out ++ [((norDst d).at' p.row 0, bs, p.bad || o.2.2)]
  let held := (out.map fun x => x.2.1.length).foldl (· + ·) 0
  { row := p.row + 1, out := out, pass := if 2048 < held + bs.length ∨ nRows d ≤ p.row + 1 then 1 else 0 }

/-- Bags that end, and indices that are skipped, up to the next table row to gather or the next write: the place, and
whether an index or a bag was bad. -/
def gatherSkip (s : State) (k b : Nat) (d : Desc) : Nat → NorPos → Bool → NorPos × Bool
  | 0, p, bad => (p, bad)
  | n + 1, p, bad =>
    if p.pass = 1 then (p, bad)
    else
      let o := bagOffs s k b d p.row
      if bagCount o ≤ p.j then gatherSkip s k b d n (endBag d p o) (bad || bagBroken o)
      else
        let x := peekInt s k b (df d 5 0 26 + 4 * (o.1.toNat + p.j))
        if x.1 < 0 ∨ (nArg0 d : Int) ≤ x.1 then
          gatherSkip s k b d n { p with j := p.j + 1, nan := true, bad := p.bad || x.2 } true
        else (p, bad)

/-- Enough turns for every bag and index. -/
def gatherFuel : Nat := 2 ^ 33

/-- R288, R289: one table row is gathered, or what has gathered is written. -/
def gatherStep (s : State) (k b : Nat) (d : Desc) (p0 : NorPos) : NorStep :=
  let sk := gatherSkip s k b d gatherFuel p0 false
  let p := sk.1
  if p.pass = 1 then { flushStep p (decide (nRows d ≤ p.row)) with idx := sk.2 }
  else
    let o := bagOffs s k b d p.row
    let at_i := o.1.toNat + p.j
    let ia := df d 5 0 26 + 4 * at_i
    let wa := nArg1 d + 4 * at_i
    let x := peekInt s k b ia
    let t := df d 7 0 26 + x.1.toNat * nSrcPitch d
    let vs := peekElems s k b (nIn d) t (nLen d)
    let wt := if nOp d = 0x43 then nth (Num.zero, false) (peekElems s k b 0 wa 1) 0 else (Num.zero, false)
    let row := vs.map fun v => if nOp d = 0x43 then nmul v.1 wt.1 else v.1
    let acc := if nOp d = 0x42 then
        (if p.cnt = 0 then row else (p.acc.zip row).map fun z => max32 (dec32 z.1.toNat) z.2)
      else ((if p.cnt = 0 then List.replicate (nLen d) 0 else p.acc).zip row).map fun z => nadd (dec32 z.1.toNat) z.2
    let bad := x.2 || wt.2 || vs.any (·.2)
    let p' : NorPos := { p with j := p.j + 1, acc := acc.map fun y => BitVec.ofNat 32 (enc32 y), cnt := p.cnt + 1, bad := p.bad || bad }
    let after := gatherSkip s k b d gatherFuel p' false
    { reads := [(df d 6 0 26 + 4 * p.row, 8), (ia, 4)] ++ (if nOp d = 0x43 then [(wa, 4)] else []) ++ [(t, nLen d * nSize (nIn d))]
      pos := after.1, bad := bad, idx := sk.2 || after.2 }

/-- Indices of the gather lists, from the offsets of the selected banks (R277). -/
def gatherLen (s : State) (k : Nat) (d : Desc) : Nat :=
  if norClass (nOp d) = some .gather then
    (setBits 32 (nMask d)).foldl (fun m b => (List.range (nRows d + 1)).foldl (fun m i =>
      max m (peekInt s k b (df d 6 0 26 + 4 * i)).1.toNat) m) 0
  else 0

/-! ### Attention (R304 to R306) -/

/-- R304: the position of row `i` in bank `b`. -/
def attPos (d : Desc) (b i : Nat) : Nat :=
  nbits (nArg0 d) 0 22 + ((setBits 32 (nMask d)).filter (· < b)).length * nRows d + i

/-- R304: a masked position. -/
def attMasked (d : Desc) (b i : Nat) : Bool := decide (nbits (nArg1 d) 0 22 < attPos d b i)

/-- Rows of keys or values in one step of 2 KiB. -/
def attRows (d : Desc) : Nat := max 1 (2048 / (nLen d * nSize (nIn d)))

/-- R305: the score of one key; a sum whose rounding order matters is open (log 5). -/
def attScore (d : Desc) (q key : List Num) : Num :=
  let ps := (q.zip key).map fun x => x.1.mul x.2
  if ps.any Num.isNan || !(ps.all Num.isFin) then nrne ((nImm0 d).mul (exactSum ps))
  else
    let es := ps.filterMap fun x => match x with | .fin _ m e => (if m = 0 then none else some ((m, e) : Nat × Int)) | _ => none
    let t := es.foldl (fun (a : Int) x => min a x.2) 0
    let tot : Nat := es.foldl (fun a x => a + x.1 * 2 ^ (x.2 - t).toNat) 0
    if tot < 16777216 ∧ -149 ≤ t then nmul (nImm0 d) (exactSum ps)
    else dec32 (Config.openFn 6 (dw d 11 :: (q ++ key).map enc32) % 2 ^ 32)

/-- R297: some word that the bank's attention command reads is poison. -/
def attBad (s : State) (k b : Nat) (d : Desc) : Bool :=
  peekBad s k b (df d 7 0 26) (nLen d * nSize (nAux d)) ||
  (List.range (nRows d)).any fun i => !attMasked d b i && peekBad s k b ((opdA d).at' i 0) (nLen d * nSize (nIn d))

/-- R305: a step of ATT_SCORE. -/
def scoreStep (s : State) (k b : Nat) (d : Desc) (p : NorPos) : NorStep :=
  if p.pass = 1 then flushStep p (decide (nRows d ≤ p.row))
  else
    let m := min (attRows d) (min (nRows d - p.row) (512 - p.out.length))
    let bad := p.bad || (p.row == 0 && attBad s k b d)
    let q := (peekElems s k b (nAux d) (df d 7 0 26) (nLen d)).map (·.1)
    let rows := (List.range m).map (· + p.row)
    let out := p.out ++ rows.map fun i =>
      ((norDst d).at' 0 i, fpBytes [if attMasked d b i then .inf true
        else attScore d q ((peekElems s k b (nIn d) ((opdA d).at' i 0) (nLen d)).map (·.1))], bad)
    { reads := (if p.row = 0 then [(df d 7 0 26, nLen d * nSize (nAux d))] else []) ++
        (rows.filter fun i => !attMasked d b i).map fun i => ((opdA d).at' i 0, nLen d * nSize (nIn d))
      pos := { p with row := p.row + m, out := out, bad := bad, pass := if out.length = 512 ∨ nRows d ≤ p.row + m then 1 else 0 }
      bad := bad }

/-- R306: one value row into (m, l, o). -/
def smvRow (acc : List Num) (sc : Num) (v : List Num) : List Num :=
  let m := nth Num.nan acc 0
  let mn := max32 m sc
  let c := norFunc 0x13 (nsub m mn)
  let w := norFunc 0x13 (nsub sc mn)
  mn :: nadd (nmul (nth Num.nan acc 1) c) w ::
    ((acc.drop 2).zip v).map fun z => nadd (nmul z.1 c) (nmul w z.2)

/-- R306: a step of ATT_SMV. -/
def smvStep (s : State) (k b : Nat) (d : Desc) (p : NorPos) : NorStep :=
  if p.pass = 1 then flushStep p true
  else
    let m := min (attRows d) (nRows d - p.row)
    let rows := ((List.range m).map (· + p.row)).filter fun i => !attMasked d b i
    let start := Num.inf true :: List.replicate (1 + nLen d) Num.zero
    let acc0 := if p.row = 0 then start else p.acc.map fun w => dec32 w.toNat
    let sc (i : Nat) : Num × Bool := nth (Num.nan, false) (peekElems s k b 0 (df d 6 0 26 + 4 * i) 1) 0
    let vs (i : Nat) : List (Num × Bool) := peekElems s k b (nIn d) ((opdA d).at' i 0) (nLen d)
    let acc := rows.foldl (fun a i => smvRow a (sc i).1 ((vs i).map (·.1))) acc0
    let bad := p.bad || rows.any fun i => (sc i).2 || (vs i).any (·.2)
    let last := decide (nRows d ≤ p.row + m)
    let rec_ := fpBytes acc ++ List.replicate (4 * (smvWords d - acc.length)) 0
    { reads := rows.flatMap fun i => [(df d 6 0 26 + 4 * i, 4), ((opdA d).at' i 0, nLen d * nSize (nIn d))]
      pos := { p with row := p.row + m, acc := acc.map fun y => BitVec.ofNat 32 (enc32 y), bad := bad
                      pass := if last then 1 else 0, out := if last then [((norDst d).at' 0 0, rec_, bad)] else [] }
      bad := bad }

/-- R289: the next step of a command in bank `b`. -/
def norStep (s : State) (k b : Nat) (d : Desc) (p : NorPos) : NorStep :=
  match norClass (nOp d) with
  | some .pwl => pwlStep s k b d p
  | some .norm => if p.pass = 0 then normPass1 s k b d p else normPass2 s k b d p
  | some .reduce => redStep s k b d p
  | some .gather => gatherStep s k b d p
  | some .score => scoreStep s k b d p
  | some .smv => smvStep s k b d p
  | some _ => elemStep s k b d p
  | none => { fin := true }

/-! ### Checks (R274, R277, R279, R282, R283) -/

/-- R282. -/
def norFmtOk (d : Desc) : Bool :=
  let five (f : Nat) : Bool := decide (f ≤ 4)
  match norClass (nOp d) with
  | some .reduce => five (nIn d)
  | some .gather => five (nIn d) && decide (nOut d ≤ 1)
  | some .norm => five (nIn d) && five (nOut d) && decide (nAux d ≤ 1)
  | some .pwl => five (nIn d) && five (nOut d) && nAux d == 0
  | some .score => (nIn d == 1 || nIn d == 3) && (nAux d == 1 || nAux d == 3)
  | some .smv => (nIn d == 1 || nIn d == 3) && (nAux d == 1 || nAux d == 3)
  | _ => five (nIn d) && five (nOut d) && (!nVecC d || five (nAux d))

/-- R283 and the limits of R285, R286, R288, R304. -/
def norShapeOk (d : Desc) (os : List NorOpd) : Bool :=
  (os.all fun o => o.base % o.es == 0 && (o.pitch == 0 || decide (o.n * o.es ≤ o.pitch))) &&
  (match norClass (nOp d) with
   | some .pwl => !(!(nImm0 d).isNan && !(nImm1 d).isNan && !(nImm0 d).lt (nImm1 d))
   | some .norm => !(nImm0 d).isNan && ((nImm0 d).isZero || !(nImm0 d).sign)
   | some .gather =>
     let tp := nSrcPitch d
     let rb := nLen d * nSize (nIn d)
     tp != 0 && decide (rb ≤ 2048) && decide (rb ≤ tp) && decide (nLen d ≤ 512) && (2048 % tp == 0 || tp % 2048 == 0) &&
       (List.range (min (nArg0 d) 64)).all fun x => decide ((df d 7 0 26 + x * tp) % 2048 + rb ≤ 2048)
   | some .score => nLen d == 64 || nLen d == 128
   | some .smv => nLen d == 64 || nLen d == 128
   | _ => true)

/-- R277: extents and positions. -/
def norRangeOk (d : Desc) (os : List NorOpd) : Bool :=
  (os.all fun o => decide (o.last ≤ 67108864)) &&
  (match norClass (nOp d) with
   | some .score => decide (nbits (nArg0 d) 0 22 + (setBits 32 (nMask d)).length * nRows d ≤ 4194304)
   | some .smv => decide (nbits (nArg0 d) 0 22 + (setBits 32 (nMask d)).length * nRows d ≤ 4194304)
   | _ => true)

/-- R277: some operand byte lies in a hashed segment. -/
def norHashed (s : State) (n : Nat) (os : List NorOpd) : Bool :=
  let lo := (8 - cfgS s n) * 8388608
  cfgH s n != 0 && os.any fun o => o.touches lo (lo + cfgH s n * 8388608)

/-- R283: DST overlaps an input, other than in place. -/
def norOverlap (d : Desc) (ins : List NorOpd) : Bool :=
  let t := norDst d
  (ins.zipIdx).any fun x =>
    let o := x.1
    let same := x.2 == 0 && decide (nOp d ≤ 0x21) && o.base == t.base && o.es == t.es
    !same && decide (t.base < o.last) && decide (o.base < t.last)

/-- R277: the status that rejects a command at cistern `k` of partition `own`, in code order (log 30). -/
def norCheck (s : State) (own : Option Nat) (window : Bool) (k : Nat) (d : Desc) : Option Nat :=
  let y := dw d 1
  let ins := norIns d (gatherLen s k d)
  let os := norDst d :: ins
  if syncBad y || window && (waitEn y || nSelf d || sigEn y && !sigRemote y) then some 0x07
  else if (norClass (nOp d)).isNone then some 0x30
  else if !norFmtOk d then some 0x31
  else if !norShapeOk d os then some 0x32
  else match own with
    | none => some 0x33
    | some n =>
      if !keyAllowed s own k || !norRangeOk d os then some 0x33
      else if norHashed s n os then some 0x34
      else if norOverlap d ins then some 0x35
      else if nMask d = 0 ∨ Nat.land (nMask d) (s.reg (norReg k 0x048)).toNat ≠ 0 then some 0x36
      else none

/-! ### Completion (R300, R356, R344) -/

/-- R300: the most severe of two statuses. -/
def norRank (st : Nat) : Nat := match st with | 0x21 => 0 | 0x20 => 1 | 0x12 => 2 | 0x10 => 3 | 0x38 => 4 | _ => 5

/-- R356: a window record, or its wait for a full FIFO. -/
def State.winRecord (s : State) (n : Nat) (r : WinRec) : State :=
  if (s.part n).winCpl.length < 64 then
    let s1 := s.updPart n fun P => { P with winCpl := P.winCpl ++ [r] }
    if r.irq then s1.msix (n + 1) 5 else s1
  else s.updPart n fun P => { P with winHeld := P.winHeld ++ [r] }

/-- R344: the status and value of a NORIA_OP whose commands ended with `rs`. -/
def norOpResult (rs : List (Nat × Byte)) : Nat × Nat :=
  let bad := rs.filter fun r => r.2 != 0
  match bad with
  | [] => (0, 0)
  | r :: t =>
    let first := t.foldl (fun a x => if x.1 < a.1 then x else a) r
    let worst := bad.foldl (fun a x => if norRank x.2.toNat < norRank a then x.2.toNat else a) r.2.toNat
    (if norRank worst ≤ 2 then worst else 0x18, first.1 % 4096 * 65536 + first.2.toNat)

/-- R344: a listed command has ended. -/
def State.norJob (s : State) (g id i : Nat) (status : Nat) : State :=
  match (s.ring g).running.find? fun c => c.id == id with
  | none => s
  | some c =>
    match c.st with
    | .noria todo rs left =>
      let rs' := rs ++ [(i, BitVec.ofNat 8 status)]
      if left ≤ 1 then s.finishCmd g id (norOpResult rs').1 (norOpResult rs').2
      else s.updCmd g id fun c => { c with st := .noria todo rs' (left - 1) }
    | _ => s

/-- R344: NORIA_OP commands of partition `n` that still have list entries outside the window queue. -/
def norFeeder (s : State) (n : Nat) : Option (Nat × Cmd × Nat × Desc × List (Nat × Desc) × List (Nat × Byte) × Nat) :=
  ((List.range 4).map (fun r => 4 * (n + 1) + r) ++ [0, 1, 2, 3]).findSome? fun g =>
    (s.ring g).running.findSome? fun (c : Cmd) => match c.st with
      | .noria ((i, d) :: todo) rs left => if cmdPart g c = n then some (g, c, i, d, todo, rs, left) else none
      | _ => none

/-- R344: list entries go into the window queue in list order as it has room. -/
def State.refillWin (s : State) (n : Nat) : Nat → State
  | 0 => s
  | m + 1 =>
    if 32 ≤ (s.part n).winQ.length then s
    else match norFeeder s n with
      | none => s
      | some (g, c, i, d, todo, rs, left) =>
        ((s.updCmd g c.id fun c => { c with st := .noria todo rs left }).updPart n fun P =>
          { P with winQ := P.winQ ++ [{ seq := P.winSeq, desc := d, job := some (g, c.id, i) }], winSeq := P.winSeq + 1 }).refillWin n m

/-- R274, R356: a window command of partition `n` ends. -/
def State.winDone (s : State) (n seq status : Nat) (rejected : Bool) : State :=
  match (s.part n).winOut.find? fun c => c.seq == seq with
  | none => s
  | some c =>
    let y := dw c.desc 1
    let g := dw c.desc 2
    let s1 := s.updPart n fun P => { P with winOut := P.winOut.filter fun x => x.seq != seq }
    let dst := sigLoc g
    let s2 := if !rejected && signals status && sigEn y && tokDestOk s1 (some n) dst then
        s1.inject 3 ⟨16, 0⟩ dst (.add dst ⟨16, 0⟩ (BitVec.ofNat 6 (sigCtr y)) 1) else s1
    match c.job with
    | some (r, id, i) => s2.norJob r id i status
    | none =>
      if cplEn y || status != 0 then
        s2.winRecord n ⟨BitVec.ofNat 16 g, BitVec.ofNat 8 status, rejected, cplIrq y⟩
      else s2

/-- R300: a plot's command ends; one whose plot has dropped it (a fence) leaves no record. -/
def State.plotNorDone (s : State) (k seq status : Nat) (rejected : Bool) : State :=
  match (s.plot k).norOut.find? fun c => c.seq == seq with
  | none => s
  | some c =>
    let s1 := s.updPlot k fun P => { P with norOut := P.norOut.filter fun x => x.seq != seq }
    if rejected then s1.rejectHold k 3 c.desc status else s1.complete k 3 c.desc status

/-- A command ends at its source. -/
def State.norDone (s : State) (src : NorSrc) (status : Nat) (rejected : Bool) : State :=
  match src with
  | .plot p seq => s.plotNorDone (plotKey p) seq status rejected
  | .window n seq => s.winDone n.val seq status rejected

/-! ### Dispatch and arrival (R128, R273) -/

/-- R542, R549: the stack's noria are halted. -/
def norHalted (s : State) (st : Nat) : Bool := (s.stk st).halt || (s.stk st).sensHalt || s.coolant.halted

/-- R128: the head may leave the noria queue. -/
def norDispatchOk (s : State) (k : Nat) : Bool :=
  let Q := s.queue k 3
  match Q.entries with
  | [] => false
  | d :: _ =>
    let t := nTarget k d
    queueGo s k 3 && !Q.held && Q.state != .stopped && waitOk s k (dw d 1) && !norHalted s (k / 32) &&
    (s.plot k).norOut.all fun c =>
      nTarget k c.desc != t || (c.way == .accepted && Nat.land (nMask c.desc) (nMask d) == 0)

/-- R128: the head leaves for its target. -/
def norDispatch (s : State) (k : Nat) : State :=
  match (s.queue k 3).entries with
  | [] => s
  | d :: rest =>
    ((s.waitTake k (dw d 1)).updQueue k 3 fun Q => { Q with entries := rest }).updPlot k fun P =>
      { P with norOut := P.norOut ++ [{ seq := P.norSeq, desc := d }], norSeq := P.norSeq + 1 }

/-- NORIA_DISPATCH (R128). -/
def execNoriaDispatch (p : PlotId) (s : State) : Out :=
  .next (if norDispatchOk s (plotKey p) then norDispatch s (plotKey p) else s)

/-- R356: a command leaves the window queue for its target. -/
def State.winSend (s : State) (n seq : Nat) : State :=
  match (s.part n).winQ with
  | c :: rest =>
    if c.seq = seq ∧ (s.part n).winHeld = [] then
      (s.updPart n fun P => { P with winQ := rest, winOut := P.winOut ++ [c] }).refillWin n 32
    else s
  | [] => s

/-- The command a source has on its way: its descriptor, its partition and its target. -/
def norSent (s : State) (src : NorSrc) : Option (Desc × Option Nat × Nat) :=
  match src with
  | .plot p seq =>
    ((s.plot (plotKey p)).norOut.find? fun c => c.seq == seq && c.way == .sent).map fun c =>
      (c.desc, partOf s p.st.val, nTarget (plotKey p) c.desc)
  | .window n seq =>
    ((s.part n.val).winOut.find? fun c => c.seq == seq && c.way == .sent).map fun c =>
      (c.desc, some n.val, 32 * df c.desc 3 0 4 + df c.desc 3 4 5)

/-- Note what a target answered. -/
def State.norWay (s : State) (src : NorSrc) (from_ w : NorWay) : State :=
  match src with
  | .plot p seq => s.updPlot (plotKey p) fun P => { P with norOut := P.norOut.map fun c =>
      if c.seq = seq ∧ c.way = from_ then { c with way := w } else c }
  | .window n seq => s.updPart n.val fun P => { P with winOut := P.winOut.map fun c =>
      if c.seq = seq ∧ c.way = from_ then { c with way := w } else c }

/-- A window source. -/
def isWindow : NorSrc → Bool
  | .window _ _ => true
  | _ => false

/-- R199, R215: the target cistern is lost. -/
def norLost (s : State) (k : Nat) : Bool := (s.slc k).lost || (s.stk (k / 32)).lost

/-- R273, R277: a command reaches its target. -/
def norArrive (src : NorSrc) (s : State) : State :=
  match norSent s src with
  | none => s
  | some (d, own, k) =>
    if stopping s (sliceUnit k) then s
    else if !keyAllowed s own k then s.norDone src (((norCheck s own (isWindow src) k d).getD 0x33)) true
    else if norLost s k then s.norDone src 0x12 false
    else if !cisternUp s k then s.norDone src 0x21 false
    else if 16 ≤ (s.nor k).queue.length then (s.count k 55 1).norWay src .sent .retry
    else match norCheck s own (isWindow src) k d with
      | some st => s.norDone src st true
      | none => (s.updNor k fun N => { N with queue := N.queue ++ [{ src := src, desc := d }] }).norWay src .sent .accepted

/-- The window command that arrives leaves the window queue first. -/
def norLeave (src : NorSrc) (s : State) : State :=
  match src with
  | .window n seq => s.winSend n.val seq
  | _ => s

/-- NORIA_CMD_ARRIVE (R273, R277). -/
def execNoriaCmdArrive (src : NorSrc) (s : State) : Out := .next (norArrive src (norLeave src s))

/-- NORIA_RETRY_RESEND (R273): the source sends the command again. -/
def execNoriaRetryResend (src : NorSrc) (s : State) : Out := .next (s.norWay src .retry .sent)

/-! ### Permits (R303, R539, R540) -/

/-- A command has work left in bank `b`. -/
def norWants (b : Nat) (c : NorCmd) : Bool := nbit (nMask c.desc) b && !nbit c.banksDone.toNat b && c.aborted.isNone

/-- The bank has work. -/
def bankWork (s : State) (k b : Nat) : Bool := (s.nor k).queue.any (norWants b)

/-- R303: noria-active banks of the stack, those that were active within the last 1 us included. -/
def norActive (s : State) (st : Nat) : Nat :=
  ((List.range 32).map fun p => ones 32 (s.nor (32 * st + p)).permits.toNat).foldl (· + ·) 0 +
  ((s.stk st).released.filter fun t => decide (s.tb < t + 100)).length

/-- R303: a permit may be granted: in timed mode within tNAW; in adaptive mode the grant is the governor's. -/
def bankPermitOk (s : State) (k b : Nat) : Bool :=
  cisternUp s k && bankWork s k b && !nbit (s.nor k).permits.toNat b && !norHalted s (k / 32) &&
  (!timedMode s (k / 32) || decide (norActive s (k / 32) < 24))

/-- R555: a grant that tNAW defers is counted. -/
def permitDeferred (s : State) (k b : Nat) : Bool :=
  cisternUp s k && bankWork s k b && !nbit (s.nor k).permits.toNat b && timedMode s (k / 32) && decide (24 ≤ norActive s (k / 32))

/-- BANK_PERMIT_GRANT (R303). -/
def execBankPermitGrant (p : PlotId) (bank : Fin 32) (s : State) : Out :=
  let k := plotKey p
  .next (if bankPermitOk s k bank.val then
      s.updNor k fun N => { N with permits := N.permits ||| BitVec.ofNat 32 (2 ^ bank.val) }
    else if permitDeferred s k bank.val then s.count (576 + k / 32) 19 1 else s)

/-- R303: a bank with no command left gives its permit back. -/
def State.releasePermit (s : State) (k b : Nat) : State :=
  if !bankWork s k b && nbit (s.nor k).permits.toNat b then
    (s.updNor k fun N => { N with permits := N.permits &&& ~~~(BitVec.ofNat 32 (2 ^ b)) }).updStk (k / 32) fun T =>
      { T with released := s.tb :: T.released.filter fun t => decide (s.tb < t + 100) }
  else s

/-! ### Running a step -/

/-- R594: the stop unit of a noria bank. -/
def norUnit (k b : Nat) : UnitId := ⟨Fin.ofNat 17 (k / 32), 4, 32 * (k % 32) + b⟩

/-- R273: the command that bank `b` runs next. -/
def norNext (s : State) (k b : Nat) : Option NorCmd := (s.nor k).queue.find? (norWants b)

/-- Where a command stands in bank `b`. -/
def NorCmd.at' (c : NorCmd) (b : Nat) : NorPos := tget ({} : NorPos) c.pos b

/-- R295: an operand of the command lies in a segment that is still to be filled. -/
def norFillHolds (s : State) (k : Nat) (d : Desc) : Bool :=
  match (s.slc k).fill with
  | none => false
  | some f => (norDst d :: norIns d (gatherLen s k d)).any fun o =>
      (List.range 8).any fun g => nbit f.set.toNat g && !nbit f.done.toNat g && o.touches (g * 8388608) ((g + 1) * 8388608)

/-- R295: a range of bank `b` opens the row under repair. -/
def norPprHolds (s : State) (k b : Nat) (rs : List (Nat × Nat)) : Bool :=
  match (s.slc k).ppr with
  | none => false
  | some r => r.bank.toNat == b && rs.any fun x =>
      decide (0 < x.2) && decide (x.1 / 2048 ≤ r.row.toNat) && decide (r.row.toNat ≤ (x.1 + x.2 - 1) / 2048)

/-- The ranges of a step. -/
def NorStep.ranges (t : NorStep) : List (Nat × Nat) := t.reads ++ t.writes.map fun w => (w.1, w.2.1.length)

/-- R492, R493: a reset of the cistern's stack, or of the plot that issued the command, starts no step. -/
def norQuiesced (s : State) (k : Nat) (c : NorCmd) : Bool :=
  (s.faults.resets.any fun r => match r.scope with
    | .part _ => inScope s k r.scope
    | .package _ => true
    | _ => false) ||
  (match c.src with | .plot p _ => quiesced s (plotKey p) | .window _ _ => false)

/-- R289, R295, R303, R492, R542: the bank may start its next step. -/
def stepOk (s : State) (k b : Nat) : Bool :=
  match norNext s k b with
  | none => false
  | some c =>
    cisternUp s k && nbit (s.nor k).permits.toNat b && !nbit (s.nor k).stepping.toNat b && !bandHeld s (k / 32) &&
    !norHalted s (k / 32) && !stopping s (norUnit k b) && !norQuiesced s k c && !testHolds s k && !norFillHolds s k c.desc &&
    !norPprHolds s k b (norStep s k b c.desc (c.at' b)).ranges

/-- NORIA_STEP_START (R289). -/
def execNoriaStepStart (p : PlotId) (bank : Fin 32) (s : State) : Out :=
  let k := plotKey p
  .next (if stepOk s k bank.val then
    s.updNor k fun N => { N with stepping := N.stepping ||| BitVec.ofNat 32 (2 ^ bank.val) } else s)

/-- R296: a range is read through the code. -/
def State.norRead (s : State) (k b bl len : Nat) : State :=
  (codeWords bl len).foldl (fun s u => (readWord s k (bankOff b (32 * u) / 32) .noria).1) s

/-- R298: the range record of bank `b`: the first word a command writes starts it anew. -/
def State.norRecord (s : State) (k b tag lo hi : Nat) (fresh : Bool) : State :=
  let a := norReg k (0x080 + 8 * b)
  let lo' := if fresh then lo else min lo (s.fld a 0 26)
  let hi' := if fresh then hi else max hi (s.fld (a + 4) 0 26)
  ((s.setReg a (BitVec.ofNat 32 (lo' + 2 ^ 31))).setReg (a + 4) (BitVec.ofNat 32 hi')).setReg (norReg k (0x180 + 4 * b))
    (BitVec.ofNat 32 (tag % 65536))

/-- R280, R296, R297: what a step writes in word `u`: the state, whether the merge was refused, and whether the bank has been
written by this command. -/
def norWriteWord (x : State × Bool × Bool) (k b tag u lo : Nat) (bs : List Byte) (bad : Bool) : State × Bool × Bool :=
  let r := writeWord x.1 k (bankOff b (32 * u) / 32) lo bs bad .noria
  let s1 := if bad || r.2 then r.1.count k 54 1 else r.1
  if r.2 then (s1, true, x.2.2)
  else (s1.norRecord k b tag (32 * u + lo) (32 * u + lo + bs.length - 1) (!x.2.2), x.2.1, true)

/-- One run of outputs. -/
def norWriteRun (x : State × Bool × Bool) (k b tag : Nat) (w : Nat × List Byte × List Nat) : State × Bool × Bool :=
  (codeWords w.1 w.2.1.length).foldl (fun x u =>
    let lo := max w.1 (32 * u)
    let hi := min (w.1 + w.2.1.length) (32 * u + 32)
    norWriteWord x k b tag u (lo - 32 * u) (slice w.2.1 (lo - w.1) (hi - lo)) (w.2.2.contains u)) x

/-- Change a command of the slice queue. -/
def State.updNorCmd (s : State) (k : Nat) (src : NorSrc) (f : NorCmd → NorCmd) : State :=
  s.updNor k fun N => { N with queue := N.queue.map fun c => if c.src = src then f c else c }

/-- R300: the status of a command. -/
def NorCmd.status (c : NorCmd) : Nat :=
  match c.aborted with
  | some st => st.toNat
  | none => if c.poisoned then 0x10 else if c.badIndex then 0x38 else 0

/-- A command that has nothing left to do in any bank completes. -/
def State.norFinish (s : State) (k : Nat) (src : NorSrc) : State :=
  match (s.nor k).queue.find? fun c => c.src == src with
  | none => s
  | some c =>
    if Nat.land (nMask c.desc) c.banksDone.toNat = nMask c.desc then
      ((s.updNor k fun N => { N with queue := N.queue.filter fun x => x.src != src }).count k 49 1).norDone src c.status false
    else s

/-- The outcome of the step that bank `b` runs for command `c`. -/
def runStep (s : State) (k b : Nat) (c : NorCmd) : State :=
  let t := norStep s k b c.desc (c.at' b)
  let s1 := t.reads.foldl (fun s r => s.norRead k b r.1 r.2) s
  let bytes := (t.ranges.map (·.2)).foldl (· + ·) 0
  let x := t.writes.foldl (fun x w => norWriteRun x k b (dw c.desc 2) w) (s1, false, nbit c.wrote.toNat b)
  ((x.1.count k 50 1).count k 51 bytes).updNorCmd k c.src fun c =>
    { c with pos := tput ({} : NorPos) c.pos b t.pos
             banksDone := if t.fin || c.aborted.isSome then c.banksDone ||| BitVec.ofNat 32 (2 ^ b) else c.banksDone
             wrote := if x.2.2 then c.wrote ||| BitVec.ofNat 32 (2 ^ b) else c.wrote
             poisoned := c.poisoned || t.bad || x.2.1, badIndex := c.badIndex || t.idx }

/-- The command whose step runs in bank `b`: the oldest that is not done there. -/
def norRunning (s : State) (k b : Nat) : Option NorCmd :=
  (s.nor k).queue.find? fun c => nbit (nMask c.desc) b && !nbit c.banksDone.toNat b

/-- R292, R300, R302, R303: a step ends. -/
def stepEnd (k b : Nat) (s : State) : State :=
  match norRunning s k b with
  | none => s.updNor k fun N => { N with stepping := N.stepping &&& ~~~(BitVec.ofNat 32 (2 ^ b)) }
  | some c =>
    let s1 := (runStep s k b c).updNor k fun N => { N with stepping := N.stepping &&& ~~~(BitVec.ofNat 32 (2 ^ b)) }
    ((s1.norFinish k c.src).releasePermit k b).serveWaiting k

/-- NORIA_STEP_END (R292). -/
def execNoriaStepEnd (p : PlotId) (bank : Fin 32) (s : State) : Out :=
  .next (if nbit (s.nor (plotKey p)).stepping.toNat bank.val then stepEnd (plotKey p) bank.val s else s)

/-! ### Stops (R302) -/

/-- R302: a command stops: only the banks that run a step of it are waited for. -/
def State.norStopCmd (s : State) (k status : Nat) (src : NorSrc) : State :=
  let runs (b : Nat) : Bool := nbit (s.nor k).stepping.toNat b && (norRunning s k b).any fun x => x.src == src
  let idle := (List.range 32).foldl (fun a b => if runs b then a else a + 2 ^ b) 0
  (s.updNorCmd k src fun c =>
    { c with aborted := some (BitVec.ofNat 8 status), banksDone := c.banksDone ||| BitVec.ofNat 32 idle }).norFinish k src

/-- R302: the commands of cistern `k` that `sel` picks stop at the end of the step each bank runs, and complete with
`status`. -/
def State.norStop (s : State) (k : Nat) (sel : NorCmd → Bool) (status : Nat) : State :=
  let cs := ((s.nor k).queue.filter fun c => sel c && c.aborted.isNone).map (·.src)
  let s1 := cs.foldl (fun s src => s.norStopCmd k status src) s
  (List.range 32).foldl (fun s b => if nbit (s.nor k).stepping.toNat b then s else s.releasePermit k b) s1

/-- A command of plot `p`. -/
def fromPlot (p : Nat) (c : NorCmd) : Bool := match c.src with | .plot q _ => plotKey q == p | _ => false

/-- A command of the window of partition `n`. -/
def fromWindow (n : Nat) (c : NorCmd) : Bool := match c.src with | .window m _ => m.val == n | _ => false

/-- R302: commands of plot `p` that no slice queue holds yet complete at once. -/
def State.norUnsent (s : State) (p status : Nat) : State :=
  ((s.plot p).norOut.filter fun c => c.way != .accepted).foldl (fun s c => s.plotNorDone p c.seq status false) s

/-- R302: the commands of plot `p` stop everywhere. -/
def State.norStopPlot (s : State) (p status : Nat) : State :=
  let ts := ((s.plot p).norOut.map fun c => nTarget p c.desc).eraseDups
  ts.foldl (fun s k => s.norStop k (fromPlot p) status) (s.norUnsent p status)

/-- R302: a fence of plot `p`: its commands stop and leave no record. -/
def State.norFence (s : State) (p : Nat) : State :=
  let ts := ((s.plot p).norOut.map fun c => nTarget p c.desc).eraseDups
  let s1 := s.updPlot p fun P => { P with norOut := [] }
  ts.foldl (fun s k => s.norStop k (fromPlot p) 0x20) s1

/-- R302: the commands of the window of partition `n` stop, those still queued included. -/
def State.norStopWindow (s : State) (n status : Nat) : State :=
  let P := s.part n
  let s0 := s.updPart n fun P => { P with winQ := [], winOut := P.winOut ++ P.winQ }
  let s1 := (P.winQ ++ P.winOut.filter fun c => c.way != .accepted).foldl (fun s c => s.winDone n c.seq status false) s0
  let ks := (arcOf s n).flatMap fun st => (List.range 32).map fun p => 32 * st + p
  ks.foldl (fun s k => s.norStop k (fromWindow n) status) s1

/-! ### The encoder cross-check (R299, R307) -/

/-- R307: `NORIA_XCHK_STAT.STATE`. -/
def xchkState (s : State) (k : Nat) : Nat := s.fld (norReg k 0x054) 0 2

/-- A cross-check of the banks of `mask` waits for them to be idle. -/
def State.startXchk (s : State) (k mask : Nat) (mgmt : Bool) : State :=
  if xchkState s k = 1 then s
  else (s.updNor k fun N => { N with xchk := BitVec.ofNat 32 mask, xchkGo := mgmt }).setFld (norReg k 0x054) 0 2 1

/-- NORIA_XCHK_PERIOD (R299): a zero PERIOD disables the schedule. -/
def execNoriaXchkPeriod (p : PlotId) (s : State) : Out :=
  let k := plotKey p
  .next (if cisternUp s k && s.fld (norReg k 0x04C) 0 16 != 0 then s.startXchk k (2 ^ 32 - 1) false else s)

/-- R307: a write of `NORIA_XCHK_CTRL`. -/
def xchkGo (r : Req) (k : Nat) (v : Word) (s : State) : State :=
  if nbit v.toNat 31 then
    s.startXchk k (if nbit v.toNat 5 then 2 ^ 32 - 1 else 2 ^ nbits v.toNat 0 5) (isMgmt r)
  else s

/-- NORIA_XCHK_GO (R307). -/
def execNoriaXchkGo (r : Req) (p : PlotId) (v : Word) (s : State) : Out :=
  .next (s.access r (norReg (plotKey p) 0x050) (xchkGo r (plotKey p) v))

/-- R299: the bank's test can run: it is due, and no command is queued or running on the bank. -/
def xchkOk (s : State) (k b : Nat) : Bool :=
  cisternUp s k && nbit (s.nor k).xchk.toNat b && !((s.nor k).queue.any fun c => nbit (nMask c.desc) b && !nbit c.banksDone.toNat b)

/-- R299: the bank's test passed or failed. -/
def xchkResult (k b : Nat) (same : Bool) (s : State) : State :=
  if same then
    let s1 := s.addFld (norReg k 0x054) 8 8 1
    if (s.nor k).xchkGo then s1.clrBit (norReg k 0x048) b else s1
  else
    (((s.addFld (norReg k 0x054) 16 8 1).setBit (norReg k 0x048) b).irq (norReg k 0) 0).report (partOf s (k / 32)) 0x17 1
      (k / 32) (k % 32) (direct k (256 * b))

/-- A bank's test ends; the last one ends the cross-check. -/
def xchkDone (k b : Nat) (same : Bool) (s : State) : State :=
  let s1 := ((xchkResult k b same s).count k 56 1).updNor k fun N => { N with xchk := N.xchk &&& ~~~(BitVec.ofNat 32 (2 ^ b)) }
  if (s1.nor k).xchk = 0 then s1.setFld (norReg k 0x054) 0 2 2 else s1

/-- NORIA_XCHK_DONE (R299). -/
def execNoriaXchkDone (p : PlotId) (bank : Fin 32) (same : Bool) (s : State) : Out :=
  .next (if xchkOk s (plotKey p) bank.val then xchkDone (plotKey p) bank.val same s else s)

end Sys2Proof.Machine
end

