-- ==== Sys2Proof/Machine/Fabric.lean ====
section
/-!
DEFINITION. Fabric.lean: what a plot does with the tokens and stream flits that reach it (R133, R184 to R193), what its
stream ends send (R186, R187), fencing (R191), and routers (R178).
-/
namespace Sys2Proof.Machine

/-! ### The ejection filter (R191) -/

/-- R191: the plot drops what reaches it: it is fenced or held in reset. -/
def ejects (s : State) (k : Nat) : Bool := fenced s k || !plotUp s k

/-- R630: the token layout of `INFO`. -/
def tokenInfo (m : Msg) (src : Loc) : Nat := tokenWord m + src.die.toNat * 65536 + src.plot.toNat * 2 ^ 21 + 2 ^ 31

/-- R191, R203: a token dropped at a fenced plot; `counted` for every type but CREDIT. -/
def State.dropToken (s : State) (k : Nat) (m : Msg) (src : Loc) (counted : Bool) : State :=
  let s1 := s.rhErr k 5 (tokenInfo m src) 0
  if counted then s1.count k 14 1 else s1

/-- R593: after its snapshot a plot holds what arrives, tokens that count apart. -/
def holding (s : State) (k : Nat) : Bool := stopped s (plotUnit k)

/-- R133, R191, R593: a token reaches plot `k`: it is dropped there, held there, or has effect `f`. -/
def State.tokenIn (s : State) (k : Nat) (src : Loc) (m : Msg) (counted tallied : Bool) (f : State → State) : State :=
  if ejects s k then (s.arrived m).dropToken k m src counted
  else if holding s k && !tallied then s.holdMsg 3 src (plotLoc k) m
  else f ((s.arrived m).count k 13 1)

/-- R133: a reserved type or an ADD of amount 0. -/
def badToken (k : Nat) (s : State) : State := (s.count k 14 1).irq (pqReg k 0) 4

/-- ADD_TOKEN (R108). -/
def execAddToken (p : PlotId) (src : Loc) (ctr amount : BitVec 6) (s : State) : Out :=
  let k := plotKey p
  .next (s.tokenIn k src (.add (plotLoc k) src ctr amount) true true fun s =>
    if amount = 0 then badToken k s else (s.noteItem (plotUnit k) 3).tokArrive k ctr.toNat amount.toNat)

/-- R186: `n` flits of credit for output slot `n`. -/
def addCredit (k : Nat) (src : Loc) (sl n : Nat) (s : State) : State :=
  if !slotValid s k sl then s
  else
    let v := slotCredit s k sl + n
    if v > slotCredits s k sl then
      ((s.setFld (slotReg k sl 3) 0 9 (slotCredits s k sl)).irq (pqReg k 0) 4).rhErr k 6
        (streamInfo (slotId s k sl) src.die.toNat src.plot.toNat sl) 0
    else s.setFld (slotReg k sl 3) 0 9 v

/-- CREDIT_TOKEN (R186). -/
def execCreditToken (p : PlotId) (src : Loc) (slot : BitVec 5) (n : BitVec 7) (s : State) : Out :=
  let k := plotKey p
  .next (s.tokenIn k src (.credit (plotLoc k) src slot n) false false (addCredit k src slot.toNat n.toNat))

/-- R192: rows of fenced passes that wait for stream credit are discarded and released. -/
def State.dropRows (s : State) (k sl : Nat) : State :=
  let A := s.arr k
  let qs := (livePasses (s.plot k)).filter fun x => pSlot x.desc == some sl
  let gone := A.rows.filter fun r => r.conv && qs.any fun x => x.seq == r.seq
  let s1 := s.updArr k fun A => { A with
    lane := A.lane.map fun x => if pSlot x.desc == some sl && x.started then { x with fenced := true } else x
    issued := A.issued.map fun x => if pSlot x.desc == some sl then { x with fenced := true } else x
    outQ := A.outQ.filter fun f => f.slot.toNat != sl
    rows := A.rows.filter fun r => !(r.conv && qs.any fun x => x.seq == r.seq) }
  gone.foldl (fun s r => rowDone s k r.seq false) s1

/-- R161, R192: FENCED for output slot `sl`. -/
def fenceSlot (k sl : Nat) (s : State) : State :=
  let s1 := s.count k 15 1
  if !slotValid s1 k sl then s1
  else
    let s2 := (s1.setBit (slotReg k sl 3) 9).dropRows k sl
    (plotChans k).foldl (fun s c =>
      if (match (s.chan c).desc with | some d => bSlot d == some sl | none => false) then
        s.updChan c fun C => { C with fenced := true, outQ := [] }
      else s) s2

/-- FENCED_TOKEN (R192). -/
def execFencedToken (p : PlotId) (src : Loc) (slot : BitVec 5) (s : State) : Out :=
  let k := plotKey p
  let m := Msg.fenced (plotLoc k) src slot
  .next (if !plotUp s k then s.arrived m
    else if holding s k then s.holdMsg 3 src (plotLoc k) m
    else fenceSlot k slot.toNat ((s.arrived m).count k 13 1))

/-- BARGE_GO (R164). -/
def execBargeGo (p : PlotId) (src : Loc) (c : BitVec 2) (s : State) : Out :=
  let k := plotKey p
  .next (s.tokenIn k src (.bargeGo (plotLoc k) src c) true false fun s => (s.addGo (4 * k + c.toNat)).pump (4 * k + c.toNat))

/-- WAKE (R133). -/
def execWake (p : PlotId) (src : Loc) (s : State) : Out :=
  let k := plotKey p
  .next (s.tokenIn k src (.wake (plotLoc k) src) true false fun s => s.irq (pqReg k 0) 2)

/-- R133: the types that no unit may send. -/
def tokenReserved (tok : BitVec 16) : Bool :=
  let ty := nbits tok.toNat 12 4
  ty == 0 || decide (7 ≤ ty) || (ty == 1 && nbits tok.toNat 0 6 == 0)

/-- RESERVED_TOKEN (R133). -/
def execReservedToken (p : PlotId) (src : Loc) (tok : BitVec 16) (s : State) : Out :=
  let k := plotKey p
  .next (if tokenReserved tok then
    s.tokenIn k src (.reserved (plotLoc k) src tok) true false (badToken k) else s)

/-! ### Sending stream flits (R183, R186) -/

/-- The channel of plot `k` that has a flit ready for output slot `n`. -/
def feedingChan (s : State) (k n : Nat) : Option Nat :=
  (plotChans k).find? fun c => !(s.chan c).outQ.isEmpty && !(s.chan c).fenced &&
    (match (s.chan c).desc with | some d => bSlot d == some n | none => false)

/-- The drain path's next flit, if it is for slot `n`. -/
def feedingRow (s : State) (k n : Nat) : Option OutFlit :=
  match (s.arr k).outQ with
  | f :: _ => if f.slot.toNat = n then some f else none
  | [] => none

/-- R186: a flit leaves on slot `n` against one credit. -/
def State.launch (s : State) (k n : Nat) (f : FlitData) : State :=
  let dst := slotDest s k n
  ((s.setFld (slotReg k n 3) 0 9 (slotCredit s k n - 1)).inject 0 (plotLoc k) dst
    (.flit dst (BitVec.ofNat 5 (slotHg s k n)) (BitVec.ofNat 16 (slotId s k n)) (plotLoc k) (BitVec.ofNat 5 n) f)).count k 9 1

/-- STREAM_FLIT_SEND's effect: the drain path goes before a barge; a sender without credit waits (R186, R205). -/
def sendFlit (k n : Nat) (s : State) : State :=
  match feedingRow s k n, feedingChan s k n with
  | some f, _ =>
    if slotCredit s k n = 0 then s.count k 11 1
    else
      let s1 := (s.launch k n f.data).updArr k fun A => { A with outQ := A.outQ.drop 1 }
      if f.last then
        rowDone (s1.updArr k fun A => { A with rows := A.rows.eraseP fun r => r.conv && r.seq == f.seq }) k f.seq
          (f.data.poison != 0)
      else s1
  | none, some c =>
    if slotCredit s k n = 0 then (s.count k 11 1).countChan c 3 1
    else
      match (s.chan c).outQ with
      | [] => s
      | f :: rest => ((s.launch k n f).updChan c fun C => { C with outQ := rest }).countChan c 0 64
  | none, none => s

/-- STREAM_FLIT_SEND (R186). -/
def execStreamFlitSend (p : PlotId) (slot : Fin 32) (s : State) : Out :=
  let k := plotKey p
  .next (if plotRun s k && slotValid s k slot.val && !slotFenced s k slot.val then sendFlit k slot.val (s.readyChans k) else s)

/-! ### Arrival of stream flits (R184, R191, R193) -/

/-- R191, R193: a flit that no headgate can take: it is discarded and logged, and the first of its source is answered
with FENCED. -/
def State.discardFlit (s : State) (k code : Nat) (sid : BitVec 16) (src : Loc) (slot : BitVec 5) : State :=
  let who := (src.die.toNat, src.plot.toNat, slot.toNat)
  let rch := 512 + 4 * (k / 32) + k % 32 / 8
  let s1 := (s.count rch 0 1).rhErr k code (streamInfo sid.toNat src.die.toNat src.plot.toNat slot.toNat) 0
  if (s1.plot k).fencedSrc.contains who then s1
  else
    ((s1.updPlot k fun P => { P with fencedSrc := who :: P.fencedSrc }).inject 3 (plotLoc k) src
      (.fenced src (plotLoc k) slot)).count rch 1 1

/-- R184, R193: why headgate `n` cannot take the flit: its error code. -/
def hgRefuses (s : State) (k n : Nat) (sid : BitVec 16) (src : Loc) (slot : BitVec 5) : Option Nat :=
  let g := tget ({} : Hg) (s.plot k).hgs n
  if !hgValid s k n then some 2
  else if hgId s k n ≠ sid.toNat then some 3
  else if (match g.src with | some w => w != (src.die.toNat, src.plot.toNat, slot.toNat) | none => false) then some 4
  else if hgFill s k n ≥ hgDepth s k n then some 7
  else none

/-- R131, R184: the flit enters the ring, latching its source; every `ARRIVE_EVERY` flits add 1 to the counter. -/
def State.ringPut (s : State) (k n : Nat) (src : Loc) (slot : BitVec 5) (data : FlitData) : State :=
  let at' := hgBase s k n + (hgRd s k n + hgFill s k n) % hgDepth s k n * 64
  let g := tget ({} : Hg) (s.plot k).hgs n
  let a := g.arrived + 1
  let every := s.bit (hgReg k n 3) 6 && decide (s.fld (hgReg k n 3) 8 8 ≤ a)
  let g' : Hg := { g with src := some (src.die.toNat, src.plot.toNat, slot.toNat), arrived := if every then 0 else a }
  let s1 := ((s.updPlot k fun P => { tankPutFlit P (at' % tankSize) data with hgs := tput {} P.hgs n g' }).setFld
    (hgReg k n 4) 0 9 (hgFill s k n + 1)).count k 10 1
  if every then s1.tokArrive k (s.fld (hgReg k n 3) 0 6) 1 else s1

/-- STREAM_FLIT_ARRIVE at a plot. -/
def plotFlit (k : Nat) (hg : BitVec 5) (sid : BitVec 16) (src : Loc) (slot : BitVec 5) (data : FlitData) (s : State) : State :=
  let m := Msg.flit (plotLoc k) hg sid src slot data
  if ejects s k then (s.arrived m).discardFlit k 5 sid src slot
  else if holding s k then s.holdMsg 0 src (plotLoc k) m
  else match hgRefuses s k hg.toNat sid src slot with
    | some code => (s.arrived m).discardFlit k code sid src slot
    | none => (s.arrived m).ringPut k hg.toNat src slot data

/-! ### Consumption and credit (R132, R187) -/

/-- Flits of headgate data the head pass may take ahead: its vectors not yet issued, at most eight (R136). -/
def passRoom (x : Pass) : Nat := min 8 (pL x.desc - x.next)

/-- The head pass takes a flit of headgate `n`: as elements (`some false`) or block words (`some true`). -/
def passTakes (s : State) (k n : Nat) : Option Bool :=
  let A := s.arr k
  match headPass A with
  | none => none
  | some x =>
    let d := x.desc
    if !pASrc d || !(x.started || waitOk s k (syncOf 0 d)) then none
    else if pAAddr d % 32 = n ∧ A.preE.length < passRoom x * vecFlits d then some false
    else if pABlocks d ∧ pAScale d % 32 = n ∧ 64 * A.preB.length < A.preOff + passRoom x * (4 * pNB d) then some true
    else none

/-- R160: flits of headgate data the channel's unit still needs. -/
def unitWants (C : Chan) (d : Desc) : Bool :=
  C.phase == .moving && decide (64 * C.inBuf.length < bUnitElems d * bBytes d)

/-- The channel of plot `k` that takes a flit of headgate `n`. -/
def takingChan (s : State) (k n : Nat) : Option Nat :=
  (plotChans k).find? fun c => match (s.chan c).desc with
    | some d => bHg d == some n && unitWants (s.chan c) d
    | none => false

/-- R132, R187: the flit at the read pointer leaves the ring; credit goes back at 8 flits or when the ring empties. -/
def State.ringTake (s : State) (k n : Nat) : State :=
  let g := tget ({} : Hg) (s.plot k).hgs n
  let fill := hgFill s k n - 1
  let s1 := (s.setFld (hgReg k n 4) 0 9 fill).setFld (hgReg k n 4) 16 9 ((hgRd s k n + 1) % hgDepth s k n)
  let g' : Hg := { g with owed := g.owed + 1, owedAt := if g.owed = 0 then s.tb else g.owedAt }
  let s2 := s1.updPlot k fun P => { P with hgs := tput {} P.hgs n g' }
  if 8 ≤ g'.owed ∨ fill = 0 then s2.sendCredit k n else s2

/-- The flit at the read pointer. -/
def ringHead (s : State) (k n : Nat) : FlitData := tankFlit (s.plot k) ((hgBase s k n + hgRd s k n * 64) % tankSize)

/-- HEADGATE_CONSUME's effect. -/
def consume (k n : Nat) (s : State) : State :=
  let f := ringHead s k n
  match passTakes s k n, takingChan s k n with
  | some false, _ => (s.updArr k fun A => { A with preE := A.preE ++ [f] }).ringTake k n
  | some true, _ => (s.updArr k fun A => { A with preB := A.preB ++ [f] }).ringTake k n
  | none, some c => (s.updChan c fun C => { C with inBuf := C.inBuf ++ [f] }).ringTake k n
  | none, none => s

/-- HEADGATE_CONSUME (R187). -/
def execHeadgateConsume (p : PlotId) (hg : Fin 32) (s : State) : Out :=
  let k := plotKey p
  .next (if plotRun s k && hgValid s k hg.val && decide (0 < hgFill s k hg.val) then consume k hg.val (s.readyChans k) else s)

/-- CREDIT_BATCH_TIMEOUT (R187, log 3). -/
def execCreditBatchTimeout (p : PlotId) (hg : Fin 32) (s : State) : Out :=
  let k := plotKey p
  .next (if plotRun s k && hgValid s k hg.val then s.sendCredit k hg.val else s)

/-! ### Fencing (R67, R191) -/

/-- R67, R191: the fence bit is set; the array's passes are discarded and the noria dispatch stops. -/
def State.fencePlot (s : State) (k : Nat) (byFault : Bool) : State :=
  let a := rhReg (k / 32) (k % 32 / 8) 0x040
  let was := fenced s k
  let s1 := s.setBit a (k % 8)
  let s2 := if byFault then s1.setBit a (8 + k % 8) else s1
  if was then s2 else (s2.clearArr k).norFence k

/-- R191: the plots of a write of `RH_FENCE.FENCED`. -/
def fenceMask (st q mask : Nat) (s : State) : State :=
  (setBits 8 mask).foldl (fun s p => s.fencePlot (32 * st + 8 * q + p) false) s

/-- RH_FENCE_SET (R191). -/
def execRhFenceSet (r : Req) (st : Fin 16) (q : Fin 4) (mask : Byte) (s : State) : Out :=
  .next (s.access r (rhReg st.val q.val 0x040) (fenceMask st.val q.val mask.toNat))

/-! ### Routers (R178) -/

/-- R178: packets waiting at the head of their (input, class) buffer at a site that need port `out`. -/
def waitingAt (s : State) (die site out : Nat) (lane : Bool) : List NetPkt :=
  let here := s.net.filter fun p => p.die == die && p.site == site && p.inp != 255 && (p.cls.val == 3) == lane
  let heads := (List.range 276).flatMap fun i => (here.find? fun p => 4 * p.inp + p.cls.val == i).toList
  heads.filter fun p => outPort s p == out

/-- R178: round-robin: the first candidate past the one served last. -/
def pickRound (last : Nat) (cs : List NetPkt) : Option NetPkt :=
  match cs.find? (fun p => decide (last < 4 * p.inp + p.cls.val + 1)) with
  | some p => some p
  | none => cs.head?

/-- The stop unit of a router, a hub, or the I/O die module that port `out` is (R594). -/
def routerUnit (die site out : Nat) : UnitId :=
  if die = 16 then ⟨16, 6, 4 * site + (out - 5)⟩
  else if site = 30 then ⟨Fin.ofNat 17 die, 2, 0⟩
  else if site = 35 then ⟨Fin.ofNat 17 die, 2, 1⟩
  else ⟨Fin.ofNat 17 die, 1, site⟩

/-- One packet, or one token, leaves by port `out`. -/
def forwardLane (die site out : Nat) (lane : Bool) (s : State) : State :=
  let key := ((die * 36 + site) * 13 + out) * 2 + b2n lane
  match pickRound (tget 0 s.rr key) (waitingAt s die site out lane) with
  | none => s
  | some p =>
    { s with rr := tput 0 s.rr key (4 * p.inp + p.cls.val + 1), net := (s.net.erase p) ++ [moved p out] }

/-- The die is up and its router is not stopped; a module port is up. -/
def routerGo (s : State) (die site out : Nat) : Bool :=
  pkgUp s && (decide (die = 16) || stackUp s die) && !stopped s (routerUnit die site out) &&
  (decide (out < 5) || (if die < 16 then linkUp s die (out - 5) else linkUp s 16 (4 * site + (out - 5))))

end Sys2Proof.Machine
end

