-- ==== Sys2Proof/Machine/Barge.lean ====
section
/-!
DEFINITION. Barge.lean: the commands of barge channels (R129, R160 to R169, R226).
-/
namespace Sys2Proof.Machine

/-- BARGE_HANDOFF (R129). -/
def execBargeHandoff (p : PlotId) (s : State) : Out :=
  .next (if handoffOk s (plotKey p) then handoff (plotKey p) s else s)

/-! ### Units -/

/-- R160: what a unit still needs has come: its headgate flits, or its last flit has left, and no slice makes it wait. -/
def unitOk (s : State) (c : Nat) : Bool :=
  let C := s.chan c
  match C.desc with
  | none => false
  | some d =>
    C.phase == .moving && chanRun s c &&
    (C.lost || C.fenced || C.aborted ||
     (if bDstK d = 2 then C.outQ.isEmpty && C.pos == unitFirst C d + bUnitElems d
      else (bSrcK d != 2 || decide (bUnitElems d * bBytes d ≤ 64 * C.inBuf.length)) &&
        elemsGo s d C.pos (unitFirst C d + bUnitElems d - C.pos)))

/-- R160 to R166: the rest of the unit moves; its completion starts what follows it. -/
def finishUnit (c : Nat) (s : State) : State :=
  let C := s.chan c
  match C.desc with
  | none => s
  | some d =>
    if C.lost || C.fenced || C.aborted then s.endDesc c (endStatus C)
    else
      let last := unitFirst C d + bUnitElems d
      let m := moveElems s c d C.pos (if bDstK d = 2 then 0 else last - C.pos)
      if m.lost then (m.st.updChan c fun C => { C with poisoned := C.poisoned || m.poison, lost := true }).endDesc c 0x12
      else
        let s1 := (m.st.countUnit c d (unitFirst C d) (bUnitElems d)).reqDrop c (unitKeys s c d (unitFirst C d))
        let s2 := s1.updChan c fun C => { C with unit := C.unit + 1, pos := last, phase := .waitGo, inBuf := []
                                                 poisoned := C.poisoned || m.poison }
        let s3 := (s2.followers c).notify c d
        if bUnits d ≤ C.unit + 1 then s3.endDesc c (endStatus (s3.chan c)) else s3.pump c

/-- A channel starts what it can, and its slot's next flit is ready. -/
def State.ready (s : State) (c : Nat) : State := (s.pump c).fillOut c

/-- BARGE_UNIT_COMPLETE (R160). -/
def execBargeUnitComplete (c : ChanId) (s : State) : Out :=
  let n := chanKey c
  .next (if unitOk (s.ready n) n then finishUnit n (s.ready n) else s.ready n)

/-- R165: a due time of the grid. -/
def timerDue (c : Nat) (d : Desc) (s : State) : State :=
  let C := s.chan c
  if C.phase == .moving then
    if bUnits d ≤ C.unit + 1 then s
    else if C.late then (s.addFld (brgReg c 0x050) 16 16 1).setChan c { C with grid := C.grid + 1 }
    else (s.addFld (brgReg c 0x050) 0 16 1).setChan c { C with grid := C.grid + 1, late := true }
  else (s.setChan c { C with grid := C.grid + 1 }).startUnit c d

/-- The channel runs a TIMER descriptor whose wait has ended. -/
def timerOk (s : State) (c : Nat) : Bool :=
  let C := s.chan c
  chanGo s c && (C.phase == .moving || C.phase == .waitGo) && (match C.desc with | some d => bStart d == 1 | none => false)

/-- BARGE_TIMER_DUE (R165, log 3). -/
def execBargeTimerDue (c : ChanId) (s : State) : Out :=
  let n := chanKey c
  let t := s.pump n
  .next (if timerOk t n then (match (t.chan n).desc with | some d => timerDue n d t | none => t) else t)

/-! ### I/O die channels (R168, R169) -/

/-- R168: a push of the descriptor window. -/
def brgPush (n : Nat) (s : State) : State :=
  let c := 2048 + n
  let C := s.chan c
  if C.state != .running then s.irq (brgReg c 0) 1
  else if 4 ≤ C.queue.length then s.irq (brgReg c 0) 0
  else (s.setChan c { C with queue := C.queue ++ [(windowDesc C.window, none)] }).iodNext c 5

/-- BRG_SUBMIT_PUSH (R168). -/
def execBrgSubmitPush (r : Req) (n : Fin 32) (s : State) : Out :=
  .next (s.access r (brgReg (2048 + n.val) 0x058) (brgPush n.val))

/-- R164: a write of `BRG_CTRL`. -/
def brgGo (c : Nat) (clr : Bool) (s : State) : State :=
  if clr then s.updChan c fun C => { C with goPend := 0 } else (s.addGo c).pump c

/-- BRG_CTRL_GO (R164). -/
def execBrgCtrlGo (r : Req) (c : ChanId) (clr : Bool) (s : State) : Out :=
  .next (s.access r (brgReg (chanKey c) 0x040) (brgGo (chanKey c) clr))

/-- R169: `BRG_CPL`. -/
def brgCplWord (r : CplRec) : Nat := r.tag.toNat + r.status.toNat * 2 ^ 16 + 2 ^ 31

/-- R169: a read of `BRG_CPL` pops a record, lets a held one in, and releases the channel. -/
def popBrg (n : Nat) (s : State) : State :=
  let c := 2048 + n
  let C := s.chan c
  match C.cpl with
  | [] => s.answer (leBytes 4 0)
  | r :: rest =>
    let all := rest ++ C.heldRecs
    ((s.setChan c { C with cpl := all.take 4, heldRecs := all.drop 4 }).iodNext c 5).answer (leBytes 4 (brgCplWord r))

/-- BRG_CPL_POP (R169). -/
def execBrgCplPop (r : Req) (n : Fin 32) (s : State) : Out :=
  .next (s.readAccess r (brgReg (2048 + n.val) 0x060) (popBrg n.val))

/-! ### Scatter-add packets (R226) -/

/-- The slice an element of the walk goes to. -/
def weirSlice (s : State) (d : Desc) (n : Nat) : Option Nat := (devPlace s (bDstAddr d n)).map (·.1)

/-- R226: elements of the next packet: at most 8 and 256 B, all to one slice. -/
def packetLen (s : State) (d : Desc) (n left : Nat) : Nat :=
  let most := min left (min 8 (max 1 (256 / bBytes d)))
  ((List.range most).takeWhile fun i => weirSlice s d (n + i) == weirSlice s d n).length

/-- R226: the channel's next packet reaches its slice. -/
def sendPacket (c : Nat) (s : State) : State :=
  let C := s.chan c
  match C.desc with
  | none => s
  | some d =>
    if C.phase == .moving && bDstK d == 3 && !C.lost && !C.aborted && chanRun s c &&
        (bSrcK d != 2 || decide (bUnitElems d * bBytes d ≤ 64 * C.inBuf.length)) then
      let m := packetLen s d C.pos (unitFirst C d + bUnitElems d - C.pos)
      if elemsGo s d C.pos m then
        let r := moveElems s c d C.pos m
        r.st.updChan c fun C => { C with pos := C.pos + m, poisoned := C.poisoned || r.poison, lost := C.lost || r.lost }
      else s
    else s

end Sys2Proof.Machine
end

