-- ==== Sys2Proof/Machine/Ecc.lean ====
section
/-!
DEFINITION. Ecc.lean: scrubbing (R248 to R250), the lasting-fault window (R252), error report FIFOs (R264, R270) and
soft post-package repair (R257).
-/
namespace Sys2Proof.Machine

/-! ### Scrubs -/

/-- R248, R249: a scrubbed word: a correctable one is written back, or held while writes are. -/
def scrubWord (s : State) (k w : Nat) : State :=
  let r := readWord s k w .scrub
  match classify (rawChk s k w) with
  | .correctable j e =>
    if bandHeld s (k / 32) then r.1.updSlc k fun S => { S with held := S.held ++ [.scrubBack (32 * w)] }
    else r.1.putWord k w (corrected (rawWord s k w) j e) 0
  | _ => r.1

/-- The eight words of a burst; its demand scrubs are done. -/
def scrubBurst (k b : Nat) (s : State) : State :=
  let s1 := (List.range 8).foldl (fun s i => scrubWord s k (8 * b + i)) (s.count k 47 1)
  s1.updSlc k fun S => { S with demand := S.demand.filter fun x => x.1 / 256 != b }

/-- DEMAND_SCRUB (R249). -/
def execDemandScrub (p : PlotId) (s : State) : Out :=
  let k := plotKey p
  .next (match (s.slc k).demand with
    | [] => s
    | x :: _ => if cisternUp s k && !burstWaits s k (x.1 / 256) then scrubBurst k (x.1 / 256) s else s)

/-- R266: the next burst of the patrol. -/
def patrolPos (s : State) (k : Nat) : Nat := s.fld (slcReg k 0x054) 0 23

/-- R248: 10 ns units of one patrol pass. -/
def patrolPeriod (s : State) (k : Nat) : Nat := s.fld (slcReg k 0x050) 0 8 * 360000000000

/-- R248: more than 1 % of a period behind schedule. -/
def patrolBehind (s : State) (k : Nat) : Bool :=
  decide (patrolPos s k * patrolPeriod s k / 8388608 + patrolPeriod s k / 100 < s.tb - (s.slc k).patrolFrom)

/-- R248, R250: the patrol runs, its write-backs are done and nothing stops the burst. -/
def patrolGo (s : State) (k : Nat) : Bool :=
  cisternUp s k && decide (0 < patrolPeriod s k) && !burstWaits s k (patrolPos s k) &&
  !((s.slc k).held.any fun h => match h with | .scrubBack _ => true | _ => false)

/-- One burst of the patrol. -/
def patrolStep (k : Nat) (s : State) : State :=
  let pos := patrolPos s k
  let s1 := (scrubBurst k pos s).setFld (slcReg k 0x054) 0 23 ((pos + 1) % 8388608)
  let s2 := if pos + 1 = 8388608 then s1.updSlc k fun S => { S with patrolFrom := s.tb } else s1
  s2.setFld (slcReg k 0x054) 23 1 (b2n (patrolBehind s2 k))

/-- PATROL_SCRUB (R248, log 3). -/
def execPatrolScrub (p : PlotId) (s : State) : Out :=
  .next (if patrolGo s (plotKey p) then patrolStep (plotKey p) s else s)

/-- R252: windows that have run out are closed. -/
def closeWindows (st : Nat) (s : State) : State :=
  (List.range 64).foldl (fun s i =>
    let a := smReg st (0x800 + 32 * i)
    let diff := (msNow s % 2 ^ 32 + 2 ^ 32 - (s.reg (a + 20)).toNat) % 2 ^ 32
    if s.bit a 31 && s.bit (a + 24) 3 && decide (eccWindow s st < diff) then s.clrBit (a + 24) 3 else s) s

/-- ECC_WINDOW_TICK (R252, log 3). -/
def execEccWindowTick (st : Fin 16) (s : State) : Out :=
  .next (if stackUp s st.val then closeWindows st.val s else s)

/-! ### Error reports (R270) -/

/-- R270: `ERR_RPT_W0` of a record. -/
def rptWord (r : ErrRpt) : Nat :=
  r.code.toNat + r.sev.toNat * 256 + r.die.toNat * 1024 + r.plot.toNat * 32768 + 2 ^ 31

/-- R270: the oldest record popped, its other words captured; an empty FIFO reads 0 and clears them. -/
def popRpt (f : Nat) (s : State) : State :=
  match (s.errf f).recs with
  | [] => (s.updErrf f fun q => { q with w1 := 0, w2 := 0, w3 := 0 }).answer (leBytes 4 0)
  | r :: rest =>
    (s.setErrf f { recs := rest, w1 := BitVec.ofNat 32 r.addr.toNat, w2 := BitVec.ofNat 32 (nbits r.addr.toNat 32 16),
                   w3 := r.time }).answer (leBytes 4 (rptWord r))

/-- ERR_RPT_POP (R270). -/
def execErrRptPop (r : Req) (f : Fin 17) (s : State) : Out :=
  .next (s.readAccess r (errReg f.val 0x040) (popRpt f.val))

/-! ### Soft repair (R257, R266) -/

/-- R257: spare rows left in a bank. -/
def sparesLeft (s : State) (k b : Nat) : Nat := 64 - tget 0 (s.slc k).spareUsed b

/-- R257, R266: a write of `CISTERN_PPR_CTRL` with `GO`; a GO while BUSY is ignored. -/
def startPpr (k : Nat) (v : Word) (s : State) : State :=
  let s1 := s.setFld (slcReg k 0x068) 0 20 v.toNat
  let b := nbits v.toNat 0 5
  if s1.fld (slcReg k 0x06C) 0 2 = 1 then s1
  else if sparesLeft s1 k b = 0 then s1.setFld (slcReg k 0x06C) 0 6 (3 + 4 * 1)
  else (s1.setFld (slcReg k 0x06C) 0 6 1).updSlc k fun S => { S with
    ppr := some { bank := BitVec.ofNat 5 b, row := BitVec.ofNat 15 (nbits v.toNat 5 15), spare := 64 - sparesLeft s1 k b } }

/-- PPR_GO (R257). -/
def execPprGo (r : Req) (p : PlotId) (v : Word) (s : State) : Out :=
  .next (s.access r (slcReg (plotKey p) 0x068) fun s =>
    if nbit v.toNat 31 then startPpr (plotKey p) v s else s.setFld (slcReg (plotKey p) 0x068) 0 20 v.toNat)

/-- R208: the 64 code words of a row of a bank. -/
def rowWords (bank row : Nat) : List Nat :=
  (List.range 64).map fun i => (row * 65536 + i / 8 * 8192 + bank * 256) / 32 + i % 8

/-- R257: the row is copied, switched to its spare and released. -/
def finishPpr (k : Nat) (s : State) : State :=
  match (s.slc k).ppr with
  | none => s
  | some r =>
    let s1 := (rowWords r.bank.toNat r.row.toNat).foldl (fun s w =>
      let x := readWord s k w .copy
      x.1.storeWord k w x.2.1 x.2.2 .copy) s
    ((s1.updSlc k fun S => { S with
      ppr := none
      rowMap := tput 0 S.rowMap (r.bank.toNat * 32768 + r.row.toNat) (r.spare + 1)
      spareUsed := tput 0 S.spareUsed r.bank.toNat (tget 0 S.spareUsed r.bank.toNat + 1) }).setFld
      (slcReg k 0x06C) 0 6 2).serveWaiting k

/-- PPR_DONE (R257): writes are not held and no noria step runs on the bank. -/
def execPprDone (p : PlotId) (s : State) : Out :=
  let k := plotKey p
  .next (match (s.slc k).ppr with
    | some r => if cisternUp s k && !bandHeld s (k / 32) && !nbit (s.nor k).stepping.toNat r.bank.toNat
        then finishPpr k s else s
    | none => s)

end Sys2Proof.Machine
end

