-- ==== Sys2Proof/Machine/ResetOps.lean ====
section
/-!
DEFINITION. ResetOps.lean: what resets, failures and lost dies share (R199 to R201, R491 to R509): runs of graphs and their
ends, aborted ring commands, failed plots, far ends that go down, and the clearing of each scope.
-/
namespace Sys2Proof.Machine

/-! ### Runs (R341) -/

/-- Change a graph slot. -/
def State.updSlot (s : State) (n sl : Nat) (f : Slot → Slot) : State :=
  s.updPart n fun P => { P with slots := tput ({} : Slot) P.slots sl (f (tget ({} : Slot) P.slots sl)) }

/-- Graph slot `sl` of partition `n`. -/
def State.slot (s : State) (n sl : Nat) : Slot := tget ({} : Slot) (s.part n).slots sl

/-- A graph of the partition runs. -/
def anyRun (s : State) (n : Nat) : Bool := (List.range 8).any fun sl => (s.slot n sl).run.isSome

/-- R341: the RUN_GRAPH command completes; the graph runs on. -/
def State.answerRun (s : State) (n sl status value : Nat) : State :=
  match (s.slot n sl).run with
  | none => s
  | some r =>
    if r.answered then s
    else (s.updSlot n sl fun S => { S with run := some { r with answered := true } }).finishCmd r.owner.1 r.owner.2 status value

/-- The run is over. -/
def State.dropRun (s : State) (n sl : Nat) : State := s.updSlot n sl fun S => { S with run := none }

/-- R341: microseconds since the release, saturating. -/
def runTime (s : State) (r : GraphRun) : Nat := min ((s.tb - r.startAt) / 100) (2 ^ 32 - 1)

/-- R341: a plot has ended its part, or has failed; the run ends with the last one. -/
def State.partEnded (s : State) (n sl k : Nat) : State :=
  match (s.slot n sl).run with
  | none => s
  | some r =>
    let r' := { r with ended := (k / 32, k % 32) :: r.ended }
    if (s.slot n sl).plots.all fun p => r'.ended.contains p then
      (s.answerRun n sl (if r.poisoned then 0x10 else 0) (runTime s r)).dropRun n sl
    else s.updSlot n sl fun S => { S with run := some r' }

/-- R341, R495, R509: a run that includes plot `k` completes with `GRAPH_FAULT`, naming the plot. -/
def State.faultRun (s : State) (n sl k : Nat) : State :=
  if (s.slot n sl).plots.contains (k / 32, k % 32) then (s.answerRun n sl 0x11 k).partEnded n sl k else s

/-- The same in every slot of the plot's partition. -/
def State.faultRuns (s : State) (k : Nat) : State :=
  match partOf s (k / 32) with
  | none => s
  | some n => (List.range 8).foldl (fun s sl => s.faultRun n sl k) s

/-! ### Aborted commands -/

/-- What a landing command has under way elsewhere is given up: barge descriptors, window commands, host reads, self-tests,
spares, and a group being formed. -/
def State.cancelJob (s : State) (g id : Nat) : State :=
  let s1 := (List.range 32).foldl (fun s i =>
    let c := 2048 + i
    let s1 := s.updChan c fun C => { C with queue := C.queue.filter fun x => x.2 != some (g, id) }
    if (s1.chan c).job = some (g, id) then (s1.clearChan c).iodNext c 5 else s1) s
  let s2 := s1.updFunc (g / 4) fun F => { F with reads := F.reads.filter fun r => !(r.ring == g && r.cmd == some id) }
  let mine (w : WinCmd) : Bool := match w.job with | some (r, i, _) => r == g && i == id | none => false
  let s3 := (List.range 16).foldl (fun s n => s.updPart n fun P => { P with winQ := P.winQ.filter fun w => !(mine w) }) s2
  let ours (j : Nat × Nat × Nat) : Bool := j.2.1 == g && j.2.2 == id
  let s4 : State := { s3 with faults := { s3.faults with
    tests := s3.faults.tests.filter fun t => !(t.job.any ours)
    running := s3.faults.running.map fun t => if t.job.any ours then { t with job := none } else t
    spares := s3.faults.spares.filter fun x => !(ours x.job) } }
  (List.range 16).foldl (fun s i => if ((s.grp i).form.any fun F => F.job == (g, id)) then s.updGrp i fun G => { G with form := none } else s) s4

/-- A running command completes unfinished. -/
def State.abortCmd (s : State) (g id status : Nat) : State :=
  (s.cancelJob g id).finishCmd g id status 0

/-- The commands of ring `g` that `sel` picks complete with `status`: those that run, then those not started. -/
def State.abortCmds (s : State) (g : Nat) (sel : Cmd → Bool) (status : Nat) : State :=
  let s1 := (((s.ring g).running.filter sel).map (·.id)).foldl (fun s id => s.abortCmd g id status) s
  let q := (s1.ring g).queue
  (q.filter sel).foldl (fun s c => s.endCmd g c status 0)
    (s1.updRing g fun R => { R with queue := R.queue.filter fun c => !(sel c) })

/-- Only the running ones (R506). -/
def State.abortRunning (s : State) (g : Nat) (sel : Cmd → Bool) (status : Nat) : State :=
  (((s.ring g).running.filter sel).map (·.id)).foldl (fun s id => s.abortCmd g id status) s

/-- The rings on which commands of partition `n` run: its function's, and the physical function's for `PART` = n. -/
def partRings (n : Nat) : List Nat := (List.range 4).map (4 * (n + 1) + ·) ++ [0, 1, 2, 3]

/-- R331: a command that acts on partition `n`. -/
def onPart (n g : Nat) (c : Cmd) : Bool := cmdPart g c == n

/-- R328, R325: the partition's state changes, with vector 6 of both functions. -/
def State.setPState (s : State) (n : Nat) (st : PState) : State :=
  if (s.part n).state = st then s
  else ((s.updPart n fun P => { P with state := st }).msix (n + 1) 6).msix 0 6

/-- R449, R457: `PART_TDI_STAT.STATE`. -/
def tdiState (s : State) (n : Nat) : Nat := s.fld (psecReg n 0x064) 0 2

def State.setTdi (s : State) (n x : Nat) : State := s.setFld (psecReg n 0x064) 0 2 x

/-! ### Starting a reset (R492, R499) -/

/-- The scopes that a reset of `sc` takes over. -/
def scopeHolds (s : State) : Scope → Scope → Bool
  | .package _, _ => true
  | .part n, .plot p => (arcOf s n.val).contains p.st.val
  | .part n, .reach st _ => (arcOf s n.val).contains st.val
  | .reach st q, .plot p => p.st == st && p.pl.val / 8 == q.val
  | _, _ => false

/-- R499: a reset of the same or of a wider scope runs already. -/
def resetRuns (s : State) (sc : Scope) : Bool :=
  s.faults.resets.any fun r => r.scope == sc || scopeHolds s r.scope sc ||
    (match r.scope, sc with | .package _, .package _ => true | _, _ => false)

/-- R491: the drain limit of a scope, in 10 ns units. -/
def drainLimit (s : State) : Scope → Nat
  | .plot p => 100 * s.fld (rhReg p.st.val (p.pl.val / 8) 0x04C) 0 16
  | .reach st q => 100 * s.fld (rhReg st.val q.val 0x04C) 0 16
  | .part n => 100 * min 30000 (s.fld (partReg n.val 0x058) 0 16)
  | .package _ => 100 * s.fld (fltReg 0x058) 0 16

/-- R599: a stop in force holds every reset but a package reset. -/
def resetHeld (s : State) (sc : Scope) : Bool := s.dbg.stopAt.isSome && (match sc with | .package _ => false | _ => true)

/-- R492, R499: the quiesce phase of a reset begins; narrower resets that run are taken over. -/
def State.beginReset (s : State) (sc : Scope) (zero retest : Bool) : State :=
  let r : ResetRun := { scope := sc, startAt := s.tb, limit := drainLimit s sc, zeroFill := zero, retest := retest }
  if resetRuns s sc then s
  else if resetHeld s sc then { s with dbg := { s.dbg with heldResets := s.dbg.heldResets ++ [r] } }
  else
    { s with faults := { s.faults with resets := (s.faults.resets.filter fun x => !(scopeHolds s sc x.scope)) ++ [r] } }

/-- R450, R497: a reset of partition `n`, which reads RESETTING. -/
def State.resetPart (s : State) (n : Nat) (why : ResetWhy) : State :=
  if (s.part n).state = .free ∨ (s.part n).state = .resetting then s
  else
    let s1 := s.updPart n fun P => { P with why := some why }
    (if s.dbg.stopAt.isSome then s1 else s1.setPState n .resetting).beginReset (.part (Fin.ofNat 16 n)) false false

/-- R450: the TDI of a partition enters ERROR, which starts a partition reset. -/
def State.tdiError (s : State) (n : Nat) : State := if tdiLocked s n then (s.setTdi n 3).resetPart n .reset else s

/-- R506: the partition enters FAULTED: running commands complete with `TARGET_LOST`. -/
def State.faultPart (s : State) (n : Nat) : State :=
  if (s.part n).state = .free ∨ (s.part n).state = .faulted then s
  else
    let s1 := s.setPState n .faulted
    let s2 := (partRings n).foldl (fun s g => s.abortRunning g (onPart n g) 0x12) s1
    (s2.updPart n fun P => { P with slots := P.slots.map fun e => (e.1, { e.2 with run := none }) }).tdiError n

/-! ### Defects and failed plots (R508 to R511) -/

/-- R511: an entry enters the proposal FIFO. -/
def State.propose (s : State) (st pl : Nat) (d : Defect) : State :=
  if 16 ≤ s.faults.props.length then s.addFld (fltReg 0x044) 16 16 1
  else
    ({ s with faults := { s.faults with props := s.faults.props ++ [d] } }).report (partOf s st) 0x0D 3 st pl 0

/-- R469: a type 1 entry. -/
def badSiteEntry (st site : Nat) : Defect := [BitVec.ofNat 32 (1 + st * 256 + site * 65536), 0, 0, 0]

/-- R508: the code of a cause. -/
def causeCode : FailCause → Nat
  | .steward => 1
  | .watchdog => 2
  | .selftest => 3
  | .flood => 4
  | .other => 0

/-- R523: the plot reads FAILED with its cause. -/
def State.markFailed (s : State) (k cause : Nat) : State :=
  let st := k / 32
  (s.setBit (fltReg (0x080 + 4 * st)) (k % 32)).setFld (fltReg (0x100 + 16 * st + 4 * (k % 32 / 8))) (4 * (k % 8)) 4 cause

/-- The plot reads OK. -/
def State.markOk (s : State) (k : Nat) : State :=
  let st := k / 32
  ((s.clrBit (fltReg (0x080 + 4 * st)) (k % 32)).setFld (fltReg (0x100 + 16 * st + 4 * (k % 32 / 8))) (4 * (k % 8)) 4 0).updPlot k
    fun P => { P with failed := none }

/-- R509: queues, records and barges of the plot stop at once. -/
def State.stopPlotWork (s : State) (k : Nat) : State :=
  let s1 := (plotChans k).foldl (fun s c => s.clearChan c) ((s.clearArr k).norFence k)
  s1.updPlot k fun P =>
    { P with
      qa := { P.qa with entries := [], held := false, heldStatus := 0, heldRecs := [] }
      qv := { P.qv with entries := [], held := false, heldStatus := 0, heldRecs := [] }
      qb := { P.qb with entries := [], held := false, heldStatus := 0, heldRecs := [] }
      qn := { P.qn with entries := [], held := false, heldStatus := 0, heldRecs := [] }
      cpl := [], stall := none, vec := none, sigs := [] }

/-- R490: a plot held out by the flood or by a self-test. -/
def State.holdPlot (s : State) (k : Nat) (cause : FailCause) : State :=
  match cause with
  | .flood | .selftest => s.setBit (bootReg (0x080 + 4 * (k / 32))) (k % 32)
  | _ => s

/-- R508 to R510: plot `k` fails. -/
def State.failPlot (s : State) (k : Nat) (cause : FailCause) : State :=
  if (s.plot k).failed.isSome then s
  else
    let st := k / 32
    let s1 := (((s.fencePlot k true).stopPlotWork k).updPlot k fun P => { P with failed := some cause }).holdPlot k cause
    ((((s1.markFailed k (causeCode cause)).faultRuns k).report (partOf s st) 0x0B 2 st (k % 32) 0).propose st (k % 32)
      (badSiteEntry st (siteOf s k)))

/-! ### Far ends that go down (R199 to R201) -/

/-- The channels that wait for an answer across a far end. -/
def chansAcross (s : State) (key : Nat) : List Nat :=
  (s.chans.filter fun e => match e.2.desc with
    | some d => e.2.phase == .moving && (unitKeys s e.1 d (unitFirst e.2 d)).any fun x => x.1 == key
    | none => false).map (·.1)

/-- The packet stands where it would cross from `die` to `far`. -/
def queuedFor (s : State) (die far : Nat) (p : NetPkt) : Bool :=
  p.die == die && p.inp != 255 &&
  (let o := outPort s p
   decide (5 ≤ o) && (farEnd die (if die < 16 then o - 5 else 4 * (p.dst.die.toNat % 16) + (o - 5))).1 == far) ||
  -- a far end that is down is routed around (R181): what stands at its hub with the old far end as its destination
  (p.die == die && decide (die < 16) && p.dst.die.toNat == far && (p.site == 30 || p.site == 35) && p.inp != 255)

/-- R191, R199: FENCED goes to the source of a discarded flit. -/
def State.fenceSource (s : State) (m : Msg) : State :=
  match m with
  | .flit dst _ _ src slot _ => s.inject 3 dst src (.fenced src dst slot)
  | _ => s

/-- R199: what stands queued for a far end that is down is discarded, with FENCED by the first-flit rule. -/
def State.dropQueued (s : State) (die far : Nat) : State :=
  let gone := s.net.filter (queuedFor s die far)
  let s1 := { s with net := s.net.filter fun p => !(queuedFor s die far p) }
  let firsts := (gone.map fun p => match p.msg with
    | .flit dst hg sid src slot _ => Msg.flit dst hg sid src slot ⟨[], 0⟩
    | _ => .cplErr 0 false).eraseDups
  firsts.foldl (fun s m => s.fenceSource m) s1

/-- R199, R201: die `die` sees the far end `far` go down: requests are answered, queued traffic is discarded, credits are
reclaimed. `abort`: a deliberate reset, whose answers read RESET_ABORT. -/
def State.dropFar (s : State) (die far : Nat) (abort : Bool) : State :=
  let key := die * 32 + far
  let hit := chansAcross s key
  let n := (s.reqTab key).length
  let s1 := hit.foldl (fun s c => s.updChan c fun C => if abort then { C with aborted := true } else { C with lost := true }) s
  let s2 := (s1.setReqTab key []).count (if die < 16 then 576 + die else 592) (if die < 16 then 16 else 128) n
  (modsTo die far).foldl (fun s m => s.updLink (64 * die + m) fun L => { L with credits := [] }) (s2.dropQueued die far)

/-- A module end and its far end read `x`, but a disabled one stays DISABLED. -/
def State.setLink2 (s : State) (die m x : Nat) : State :=
  let f := farEnd die m
  let set (s : State) (d i : Nat) : State := if linkState s d i = 3 then s else s.setFld (linkReg d i) 0 2 x
  ((set (set s die m) f.1 f.2).refreshRoute die).refreshRoute f.1

/-- R201: the links of a stack go down for a deliberate reset. -/
def State.linksDown (s : State) (st : Nat) (abort : Bool) : State :=
  let s1 := (List.range 8).foldl (fun s m => s.setLink2 st m 0) s
  [(st + 15) % 16, (st + 1) % 16, 16].foldl (fun s d => s.dropFar d st abort) s1

/-- R474: the links of a stack train again to every die that is up. -/
def State.linksUp (s : State) (st : Nat) : State :=
  (List.range 8).foldl (fun s m =>
    let f := farEnd st m
    if f.1 = 16 ∨ stackUp s f.1 then s.setLink2 st m 2 else s) s

/-! ### Clearing (R491, R494, R453) -/

/-- R491: a plot reset's clear phase. -/
def State.clearPlot (s : State) (k : Nat) : State :=
  let s1 := s.norStopPlot k 0x21
  let s2 := (plotChans k).foldl (fun s c => (((s.clearChan c).setChan c {})).resetPage (brgReg c 0)) s1
  let s3 := s2.updPlot k fun P => { fw := P.fw, prog := P.prog, failed := P.failed, norSeq := P.norSeq, kickAt := s.tb }
  let s4 := ((s3.resetPage (arrReg k 0)).resetPage (pqReg k 0)).resetPage (cntPage k 0)
  let s5 := s4.setCnt k {}
  { s5 with dbg := { s5.dbg with wpHold := s5.dbg.wpHold.filter (· != k), tally := tkeep s5.dbg.tally fun i => i / 64 != k } }

/-- R496: a reach hub's clear phase, the fences of its plots apart. -/
def State.clearHub (s : State) (st q : Nat) : State :=
  let a := rhReg st q 0x040
  let w := s.reg a
  let b := s.reg (rhReg st q 0x048)
  ((((s.resetPage (rhReg st q 0)).setReg a w).setReg (rhReg st q 0x048) b).resetPage (cntPage (512 + 4 * st + q) 0)).setCnt
    (512 + 4 * st + q) {}

/-- The stack die's pages, but for the site map (R172). -/
def keptStackReg (st a : Nat) : Bool :=
  addrDie a != st || (addrPage a == 0x148 && decide (0x040 ≤ addrOff a) && decide (addrOff a < 0x060))

/-- R481: the banks of a cistern whose noria lacks its microcode read FAILED. -/
def State.noMicrocode (s : State) (st : Nat) : State :=
  (List.range 32).foldl (fun s p => if (s.slc (32 * st + p)).noUcode then s.setReg (norReg (32 * st + p) 0x048) (BitVec.ofNat 32 (2 ^ 32 - 1)) else s) s

/-- R491, R497: a stack die is reset: what R491 keeps of it is its firmware regions, soft repairs and maps. -/
def State.clearStack (s : State) (st : Nat) : State :=
  let s1 := s.linksDown st true
  let T := s.stk st
  let inSt (k : Nat) : Bool := k / 32 == st
  let s2 : State := { s1 with
    plots := (s1.plots.filter fun e => inSt e.1).foldl
      (fun t e => tput ({} : Plot) t e.1 { fw := e.2.fw, failed := e.2.failed }) (tkeep s1.plots fun k => !(inSt k))
    chans := tkeep s1.chans fun c => !(decide (c < 2048) && c / 128 == st)
    slices := (s1.slices.filter fun e => inSt e.1).foldl
      (fun t e => tput ({} : Slice) t e.1 { rowMap := e.2.rowMap, spareUsed := e.2.spareUsed, ucode := e.2.ucode, noUcode := e.2.noUcode })
      (tkeep s1.slices fun k => !(inSt k)) }
  let s3 : State := { s2 with
    norias := tkeep s2.norias fun k => !(inSt k)
    dram := tkeep s2.dram fun a => a / 68719476736 != st
    chk := tkeep s2.chk fun a => a / 2147483648 != st
    net := s2.net.filter fun p => p.die != st && p.src.die.toNat != st && p.dst.die.toNat != st
    links := tkeep s2.links fun m => m / 64 != st
    reqTabs := tkeep s2.reqTabs fun t => t / 32 != st
    regs := tkeep s2.regs (keptStackReg st), caps := tkeep s2.caps fun a => addrDie a != st }
  let s4 : State := { s3 with
    cores := tkeep s3.cores fun c => c / 8 != st
    caches := tkeep s3.caches fun a => a / 17179869184 != st
    sensors := tkeep s3.sensors fun i => i / 16 != st
    cnts := tkeep s3.cnts fun c => !(inSt c && decide (c < 512)) && !(decide (512 ≤ c) && decide (c < 576) && (c - 512) / 4 == st) && c != 576 + st
    dbg := { s3.dbg with wpHold := s3.dbg.wpHold.filter fun k => !(inSt k), tally := tkeep s3.dbg.tally fun i => i / 2048 != st } }
  ((s4.setStk st { inReset := true, lost := T.lost, coreFw := T.coreFw, vdd := T.vdd, badSites := T.badSites, usedSites := T.usedSites }).noMicrocode st).linksDown st true

/-- R230: every cistern of the stack has been filled. -/
def State.filledStack (s : State) (st : Nat) : State :=
  (List.range 32).foldl (fun s p => if plotReported s (32 * st + p) then s.setReg (slcReg (32 * st + p) 0x048) 0xFFFF else s) s

/-- A page of a unit with an owner, reset but for the word that names the owner. -/
def State.resetOwned (s : State) (page own : Nat) : State := let w := s.reg own; (s.resetPage page).setReg own w

/-- R453: the units that partition `n` owns. -/
def State.clearOwned (s : State) (n : Nat) : State :=
  let s1 := (List.range 32).foldl (fun s i =>
    if brgOwner s i = some n then
      ((s.clearChan (2048 + i)).setChan (2048 + i) { state := .stopped }).resetOwned (brgReg (2048 + i) 0) (brgReg (2048 + i) 0x05C)
    else s) s
  let s2 := (List.range 32).foldl (fun s i =>
    if medOwner s i = some n then (s.setMed i {}).resetOwned (medReg i 0) (medReg i 0x044) else s) s1
  let s3 := (List.range 32).foldl (fun s i =>
    if epOwner s i = some n then (s.setEp i {}).resetPage (epReg i 0) else s) s2
  (List.range 16).foldl (fun s g => if grpOwner s g = some n then s.setGrp g {} else s) s3

/-- R263: a reset before the switch ends a remap; after the switch the new generation stays. -/
def State.resetRemap (s : State) (n : Nat) : State :=
  if (s.part n).remap.switching then
    (s.setRemapState n 0).updRemap n fun R => { R with stage := [], mig := [], switching := false }
  else if remapState s n = 1 ∨ remapState s n = 2 ∨ remapState s n = 3 then s.remapFail n 3
  else s

/-- R453, R335: rings of the partition's function, its window, slots, reports and keys. -/
def State.clearPartState (s : State) (n : Nat) : State :=
  let s1 := (partRings n).foldl (fun s g => s.abortCmds g (onPart n g) 0x21) s
  let s2 := (s1.resetRemap n).clearOwned n
  let P := s2.part n
  let s3 := s2.setPart n { state := P.state, first := P.first, sizeLog2 := P.sizeLog2, assigned := P.assigned, why := P.why,
                           enabled := P.enabled, tdiStop := P.tdiStop, winSeq := P.winSeq, remap := P.remap }
  let tdi := s3.fld (psecReg n 0x064) 0 2
  let ab := s3.fld (partReg n 0x058) 16 1
  let s4 := (((s3.resetPage (partReg n 0)).resetPage (psecReg n 0)).resetPage (errReg (n + 1) 0)).setErrf (n + 1) {}
  let s5 := ((List.range 4).foldl (fun s r => s.setRing (4 * (n + 1) + r) {}) s4).updFunc (n + 1) fun F => { F with reads := [] }
  let s6 := (s5.setTdi n tdi).setFld (partReg n 0x058) 16 1 ab
  { s6 with sec := { s6.sec with sessions := tput 0 s6.sec.sessions (n + 1) 0, ideBound := tput false s6.sec.ideBound (n + 1) false
                                 ideInsecure := tput false s6.sec.ideInsecure (n + 1) false
                                 meas := tkeep s6.sec.meas fun i => i / 64 != n + 1 } }

/-- R499: tests whose scope is reset complete with `RESET_ABORT`; SPARE_INs of the partition end with their commands. -/
def State.abortTests (s : State) (sel : TestReq → Bool) : State :=
  let gone := (s.faults.tests ++ s.faults.running).filter sel
  let s1 := gone.foldl (fun s t => match t.job with
    | some (_, g, id) => s.abortCmd g id 0x21
    | none => s) s
  { s1 with faults := { s1.faults with tests := s1.faults.tests.filter fun t => !(sel t), running := s1.faults.running.filter fun t => !(sel t) } }

/-- R491, R497: the clear phase of a partition reset. -/
def State.clearPart (s : State) (n : Nat) : State :=
  let arc := arcOf s n
  let s1 := s.abortTests fun t => arc.contains t.stack && decide (t.scopeKind.toNat < 3)
  let s2 := { s1 with faults := { s1.faults with spares := s1.faults.spares.filter fun x => x.part != n } }
  arc.foldl (fun s st => s.clearStack st) (s2.clearPartState n)

/-- R491, R498: a package reset; the tollhouse, the fuses, the settings store and, on the warm path, repairs and maps are
kept; the pulses of the flow meter and the supply voltages outlast it. -/
def State.clearPkg (s : State) (cold : Bool) : State :=
  let map (a : Nat) : Bool := !cold && decide (addrDie a < 16) && addrPage a == 0x148 && decide (0x040 ≤ addrOff a) && decide (addrOff a < 0x060)
  let flow := s.fld (pkgReg 0x044) 3 1
  let z : State := { ({} : State) with
    tb := s.tb, freeCtr := s.freeCtr, reply := s.reply, pins := s.pins, fuses := s.fuses, store := s.store, clocksOff := s.clocksOff
    toll := { s.toll with queue := [], resp := none }
    wire := s.wire, pending := s.pending
    regs := tkeep s.regs map
    slices := if cold then [] else s.slices.foldl
      (fun t e => tput ({} : Slice) t e.1 { rowMap := e.2.rowMap, spareUsed := e.2.spareUsed }) []
    stks := s.stks.foldl
      (fun t e => tput ({} : Stack) t e.1
        (if cold then { vdd := e.2.vdd } else { vdd := e.2.vdd, badSites := e.2.badSites, usedSites := e.2.usedSites })) []
    coolant := { pulses := s.coolant.pulses, flowReads := s.coolant.flowReads, noFlow := s.coolant.noFlow }
    sec := { ({} : Sec) with devidKey := !cold && s.sec.devidKey, aliasM := if cold then [] else s.sec.aliasM }
    boot := { number := s.boot.number, lastSlot := s.boot.lastSlot, nextSlot := s.boot.nextSlot, logNext := s.boot.logNext
              startAt := s.tb } }
  z.setFld (pkgReg 0x044) 3 1 flow

end Sys2Proof.Machine
end

