-- ==== Sys2Proof/Machine/Landing.lean ====
section
/-!
DEFINITION. Landing.lean: the host port (R309 to R325): link events, configuration requests, BAR2, AtomicOps, doorbells, and
the device's own reads of host memory (R320, R330).
-/
namespace Sys2Proof.Machine

/-! ### Boots and resets that the landing starts (R315, R458) -/

/-- R21, R458: slot A is tried first. -/
def slotAFirst (s : State) (warm : Bool) : Bool :=
  if warm then !s.boot.lastSlot
  else if s.boot.nextSlot = 1 then true
  else if s.boot.nextSlot = 2 then false
  else s.pins.bootMode != 1

/-- R451: the nonce of the boot is drawn. -/
def State.drawNonce (s : State) : State :=
  (List.range 8).foldl (fun s i => (s.setReg (secReg (0x060 + 4 * i)) (BitVec.ofNat 32 s.free)).drawn) s

/-- R458, R459: a boot starts at stage 0x01. -/
def State.startBoot (s : State) (warm : Bool) : State :=
  let s1 : State := { s with boot := { s.boot with
    running := true, startAt := s.tb, number := s.boot.number + 1, aFirst := slotAFirst s warm, passed := [], failedSlots := []
    nextSlot := if warm then s.boot.nextSlot else 0, stageAt := [(1, s.tb)] } }
  (((s1.setReg (bootReg 0x040) (BitVec.ofNat 32 (1 + b2n warm * 256))).setFld (pkgReg 0x044) 0 2 s.pins.bootMode.toNat).drawNonce).send (.uart [1])

/-- R315, R450: a warm reset on the fast path: work in flight is lost. -/
def hotResetNow (s : State) : State := (s.clearPkg false).startBoot true

/-- HOT_RESET (R315). -/
def execHotReset (s : State) : Out := .next (if pkgUp s then hotResetNow s else s)

/-- R311: rates and widths that serve diagnosis only. -/
def narrow (gen width : Nat) : Bool := decide (gen < 3) || decide (width < 4)

/-- R315, R357: `LND_STAT` follows the link. -/
def linkRec (gen width : Nat) (s : State) : State :=
  let s1 := (s.addFld (lndReg 0x040) 10 16 1)
  let up := decide (0 < gen) && decide (0 < width)
  (((s1.setFld (lndReg 0x040) 0 3 gen).setFld (lndReg 0x040) 3 5 width).setFld (lndReg 0x040) 8 1 (b2n up)).setFld (lndReg 0x040) 9 1
    (b2n (up && narrow gen width))

/-- LINK_RECOVERY (R315). -/
def execLinkRecovery (gen : Fin 7) (width : Fin 17) (s : State) : Out :=
  .next (if pkgUp s then linkRec gen.val width.val s else s)

/-- R317: a function's configuration space returns to its reset content. -/
def State.resetCfg (s : State) (f : Nat) : State := { s with cfg := tkeep s.cfg fun a => a / 4096 != f }

/-- FLR_VF (R315, R450). -/
def execFlrVf (n : Fin 16) (s : State) : Out :=
  .next (if pkgUp s && bootState s == 1 then
    (let s1 := s.resetCfg (n.val + 1)
     if tdiLocked s1 n.val then s1.tdiError n.val else s1.resetPart n.val .reset) else s)

/-- R315: the physical function's rings, its window registers and its report FIFO. -/
def flrPfNow (s : State) : State :=
  let s1 := [0, 1, 2, 3].foldl (fun s g => (s.abortCmds g (fun _ => true) 0x21).setRing g {}) (s.resetCfg 0)
  let s2 : State := { s1 with regs := tkeep s1.regs fun a => !(decide (lndReg 0x100 ≤ a) && decide (a < lndReg 0x200)) }
  ((((s2.setReg (lndReg 0x048) 0).setReg (lndReg 0x04C) 0).setErrf 0 {}).setReg (errReg 0 0x050) 0).updFunc 0 fun F => { F with reads := [] }

/-- FLR_PF (R315). -/
def execFlrPf (s : State) : Out := .next (if pkgUp s && decide (0 < bootState s) then flrPfNow s else s)

/-! ### Configuration requests (R316, R4) -/

/-- R4: the reset content of a configuration byte. -/
def cfgReset (f off : Nat) : Byte :=
  match off with
  | 0 => 0x9B
  | 1 => 0x1F
  | 2 => if f = 0 then 0x60 else 0x61
  | 3 => 0x91
  | 0x209 => 16
  | _ => 0

/-- A configuration byte. -/
def cfgByte (s : State) (f off : Nat) : Byte := tget (cfgReset f off) s.cfg (4096 * f + off)

/-- R317: the BAR2 size in GiB; the place of the resizable BAR control register is PRESUMED (log 19). -/
def bar2Size (s : State) (f : Nat) : Nat := 2 ^ ((cfgByte s f 0x209).toNat % 64 - 10)

/-- R317, R448: a write of the BAR2 size is ignored outside 1 GiB to 1 TiB, and in a locked function. -/
def barSizeBad (s : State) (f b : Nat) (v : Word) : Bool :=
  b == 0x208 && (nbits v.toNat 8 6 < 10 || 20 < nbits v.toNat 8 6 || f != 0 && tdiLocked s (f - 1))

/-- A configuration request to a function that is ready: vendor and device IDs never change. -/
def cfgServe (f : Nat) (write : Bool) (off : Nat) (v : Word) (s : State) : State :=
  let b := off / 4 * 4
  if write then
    (if b = 0 then s
     else if barSizeBad s f b v then (if f ≠ 0 ∧ tdiLocked s (f - 1) then s.setBit (psecReg (f - 1) 0x064) 3 else s)
     else { s with cfg := (List.range 4).foldl (fun t i =>
        tput (cfgReset f (b + i)) t (4096 * f + b + i) (BitVec.ofNat 8 (v.toNat / 256 ^ i))) s.cfg })
  else
    let d := (List.range 4).map fun i => cfgByte s f (b + i)
    (s.answer d).send (.cplD f true d false)

/-- CONFIG_REQUEST (R316, R485): Retry Status until the landing is ready; in low-water mode only the physical function
answers. -/
def execConfigRequest (f : Fin 17) (write : Bool) (off : BitVec 12) (v : Word) (s : State) : Out :=
  .next (if !pkgUp s then s
    else if bootState s = 0 then { s with reply := { err := true } }.send (.retry f.val)
    else if bootState s = 2 ∧ f.val ≠ 0 then { s with reply := { err := true } }.send (.cplErr f.val false)
    else cfgServe f.val write off.toNat v s)

/-! ### BAR2 (R320 to R324) -/

/-- R322, R497: a virtual function's BARs answer: its partition is neither FREE nor RESETTING. -/
def vfBars (s : State) (f : Nat) : Bool := f == 0 || !vfDark s (.vf (Fin.ofNat 16 (f - 1)))

/-- R449: a request to a BAR of a function whose TDI is in RUN needs the T bit. -/
def tdiRefuses (s : State) (f : Nat) (tbit : Bool) : Bool := f != 0 && tdiState s (f - 1) == 2 && !tbit

/-- R324: partition and `WIN_BASE` of a function's window. -/
def winOf (s : State) (f : Nat) : Nat × Nat :=
  if f = 0 then (s.fld (lndReg 0x048) 0 4, s.fld (lndReg 0x04C) 0 10 * 2 ^ 30)
  else (f - 1, s.fld (partReg (f - 1) 0x044) 0 10 * 2 ^ 30)

/-- R211: the device address of a commons offset. -/
def commonsAddr (n o : Nat) : Nat := 2 ^ 44 + n * 2 ^ 40 + o

/-- An answer of all ones. -/
def State.allOnes (s : State) (f len : Nat) : State :=
  (s.answer (List.replicate len 0xFF)).send (.cplD f true (List.replicate len 0xFF) false)

/-- R319, R498: Unsupported Request. -/
def State.unsupported (s : State) (f : Nat) : State := { s with reply := { err := true } }.send (.cplErr f false)

/-- R320: the landing counts a poisoned TLP. -/
def State.lndCount (s : State) (i : Nat) : State :=
  { s with lndErr := tput 0 s.lndErr i (min (tget 0 s.lndErr i + 1) (2 ^ 32 - 1)) }

/-- R594: the landing as a stop unit. -/
def landingUnit : UnitId := ⟨16, 11, 0⟩

/-- R595: after the landing's snapshot a posted write to BAR2 or BAR4 is dropped and counted in its record. -/
def State.dropPosted (s : State) : State := { s with dbg := { s.dbg with dropped := s.dbg.dropped + 1 } }

/-- R595: Completer Abort. -/
def State.completerAbort (s : State) (f : Nat) : State := { s with reply := { err := true } }.send (.cplErr f true)

/-- R449: the window of the physical function names a partition that a TDI keeps. -/
def winLocked (s : State) (f : Nat) : Bool := f == 0 && tdiLocked s (winOf s f).1

/-- BAR2_ACCESS's effect where the request reaches the window. -/
def bar2 (f : Nat) (write : Bool) (off len : Nat) (data : List Byte) (ep : Bool) (s : State) : State :=
  let w := winOf s f
  let a := commonsAddr w.1 (w.2 + off)
  let s0 := if write && ep then s.lndCount 6 else s
  if winLocked s f then
    (let s1 := s0.setBit (lndReg 0x044) 0
     if write then s1 else s1.allOnes f len)
  else if !decide (w.2 + off + len ≤ commonsSize s w.1) then
    (if write then s0.setBit (lndReg 0x044) 0 else s0.allOnes f len)
  else if write then (if devWriteGo s a data.length then (s0.devWrite a data ep .port).st else s)
  else if devReadGo s a len then
    (let r := s0.devRead a len .port
     { r.st with reply := { data := r.data, poison := r.poison } }.send (.cplD f true r.data r.poison))
  else s

/-- BAR2_ACCESS (R324). -/
def execBar2Access (f : Fin 17) (write : Bool) (off len : Nat) (data : List Byte) (ep tbit : Bool) (s : State) : Out :=
  .next (if !pkgUp s then s
    else if bootState s = 0 ∨ tdiRefuses s f.val tbit then s.unsupported f.val
    else if !vfBars s f.val then (if write then s else s.allOnes f.val len)
    else if stopped s landingUnit then (if write then s.dropPosted else s.completerAbort f.val)
    else bar2 f.val write off len data ep s)

/-! ### AtomicOps (R319) -/

/-- R319: the weir operation, its element bytes and its operand. -/
def atomOf (op : AtomOp) (x y : BitVec 64) : Option (Nat × Nat × List Byte) :=
  match op with
  | .fetchAdd32 => some (0x3, 4, leBytes 4 x.toNat)
  | .fetchAdd64 => some (0x6, 8, leBytes 8 x.toNat)
  | .cas64 => some (0xC, 8, leBytes 8 x.toNat ++ leBytes 8 y.toNat)
  | _ => none

/-- R319: an AtomicOp refused. -/
def State.atomicRefused (s : State) (f : Nat) : State := (s.setBit (lndReg 0x044) 1).unsupported f

/-- ATOMIC_OP's effect. -/
def atomic (f bar : Nat) (op : AtomOp) (off : Nat) (x y : BitVec 64) (s : State) : State :=
  let w := winOf s f
  match (if bar = 2 then atomOf op x y else none) with
  | none => s.atomicRefused f
  | some (code, n, bytes) =>
    if winLocked s f ∨ off % n ≠ 0 ∨ ¬ (w.2 + off + n ≤ commonsSize s w.1) then s.atomicRefused f
    else
      let a := commonsAddr w.1 (w.2 + off)
      if devWriteGo s a n then
        let r := s.devWeir code a bytes false
        { r.st with reply := { data := r.data, poison := r.poison || r.lost } }.send (.cplD f true r.data (r.poison || r.lost))
      else s

/-- ATOMIC_OP (R319). -/
def execAtomicOp (f : Fin 17) (bar : Fin 5) (op : AtomOp) (off : Nat) (operand compare : BitVec 64) (tbit : Bool) (s : State) : Out :=
  .next (if !pkgUp s then s
    else if bootState s = 0 ∨ tdiRefuses s f.val tbit then s.unsupported f.val
    else if !vfBars s f.val then s
    else if stopped s landingUnit then s.completerAbort f.val
    else atomic f.val bar.val op off operand compare s)

/-! ### Doorbells (R330) -/

/-- A doorbell of the ring reaches it. -/
def doorbellOk (s : State) (g : RingId) (tbit : Bool) : Bool :=
  pkgUp s && bootState s != 0 && vfBars s g.f.val && !tdiRefuses s g.f.val tbit && (g.f.val == 0 || bootState s == 1)

/-- R330: the submission doorbell. -/
def sqBell (g : Nat) (v : Word) (s : State) : State :=
  if sqSize s g ≤ v.toNat then s.setBit (ringReg g 0x18) 27 else s.updRing g fun R => { R with tail := v.toNat }

/-- SQ_DOORBELL (R330). -/
def execSqDoorbell (g : RingId) (v : Word) (tbit : Bool) (s : State) : Out :=
  .next (if doorbellOk s g tbit then (if stopped s landingUnit then s.dropPosted else sqBell (ringKey g) v s) else s)

/-- R330, R334: the completion doorbell; held entries are written as far as there is room. -/
def cqBell (g : Nat) (v : Word) (s : State) : State :=
  if cqSize s g ≤ v.toNat then s.setBit (ringReg g 0x18) 27
  else
    let s1 := s.updRing g fun R => { R with cqHead := v.toNat }
    s1.releaseCpls g (s1.ring g).held

/-- CQ_DOORBELL (R330). -/
def execCqDoorbell (g : RingId) (v : Word) (tbit : Bool) (s : State) : Out :=
  .next (if doorbellOk s g tbit then (if stopped s landingUnit then s.dropPosted else cqBell (ringKey g) v s) else s)

/-! ### Host reads (R320, R330) -/

/-- R330: entries of the next fetch: at most 8, up to the end of the queue. -/
def fetchLen (s : State) (g : Nat) : Nat :=
  let R := s.ring g
  min 8 (min ((R.tail + sqSize s g - R.head) % sqSize s g) (sqSize s g - R.head))

/-- R329, R506: a ring whose commands are taken: those of a FAULTED partition are taken to be refused. -/
def ringTakes (s : State) (g : Nat) : Bool :=
  pkgUp s && !pkgQuiesced s && !stopping s landingUnit && (s.ring g).state == .running &&
  (decide (g < 4) || (s.part (g / 4 - 1)).state == .running || (s.part (g / 4 - 1)).state == .faulted)

/-- R330: the ring has something to fetch, and no fetch is under way. -/
def fetchOk (s : State) (g : Nat) : Bool :=
  ringTakes s g && decide (0 < fetchLen s g) && !((s.func (g / 4)).reads.any fun r => r.ring == g && r.cmd.isNone)

/-- R330: the fetch is sent. -/
def fetch (g : Nat) (s : State) : State :=
  let r : HostRead := { ring := g, cmd := none, addr := BitVec.ofNat 64 (sqBase s g + 64 * (s.ring g).head), len := 64 * fetchLen s g, sentAt := s.tb }
  s.updFunc (g / 4) fun F => { F with reads := F.reads ++ [r] }

/-- SQ_FETCH (R330). -/
def execSqFetch (g : RingId) (s : State) : Out := .next (if fetchOk s (ringKey g) then fetch (ringKey g) s else s)

/-- R330, R333: the fetched entries join the ring's queue. -/
def State.takeEntries (s : State) (g : Nat) (data : List Byte) : State :=
  let n := data.length / 64
  let F := s.func (g / 4)
  let R := s.ring g
  let cs := (List.range n).map fun j =>
    ({ id := F.nextId + j, bytes := (data.drop (64 * j)).take 64, head := (R.head + j + 1) % sqSize s g } : Cmd)
  (s.updFunc (g / 4) fun F => { F with nextId := F.nextId + n }).setRing g
    { R with queue := R.queue ++ cs, head := (R.head + n) % sqSize s g }

/-- R342: data of a host-to-device COPY is written; the rest is still to be read. -/
def State.copyIn (s : State) (g : Nat) (c : Cmd) (r : HostRead) (data : List Byte) (left moved : Nat) : State :=
  let w := s.devWrite (c.field 24 8 + moved) data false .port
  let n := data.length
  if w.lost then w.st.finishCmd g c.id 0x12 (min moved (2 ^ 32 - 1))
  else
    let s1 := w.st.updCmd g c.id fun c => { c with poisoned := c.poisoned || w.poison, st := .moving (left - n) (moved + n) }
    if left ≤ n then s1.finishCmd g c.id (if c.poisoned || w.poison then 0x10 else 0) (min (moved + n) (2 ^ 32 - 1))
    else s1.updFunc (g / 4) fun F => { F with reads := F.reads ++ [{ r with addr := r.addr + BitVec.ofNat 64 n, len := r.len - n, sentAt := s.tb }] }

/-- The host read leaves the table. -/
def State.dropRead (s : State) (f i : Nat) : State := s.updFunc f fun F => { F with reads := F.reads.eraseIdx i }

/-- R320: a host read fails: its command fails, or the ring that fetched stops. -/
def State.readFailed (s : State) (f i : Nat) (r : HostRead) : State :=
  let s1 := (s.dropRead f i).setBit (lndReg 0x044) 2
  match r.cmd with
  | none => (s1.updRing r.ring fun R => { R with state := .stopped, queue := [] }).setBit (ringReg r.ring 0x18) 28
  | some id =>
    match (s1.ring r.ring).running.find? fun c => c.id == id with
    | some c => s1.finishCmd r.ring id 0x13 (match c.st with | .moving _ m => min m (2 ^ 32 - 1) | _ => 0)
    | none => s1

/-- R320: a completion with data. -/
def readDone (f i : Nat) (r : HostRead) (data : List Byte) (s : State) : State :=
  match r.cmd with
  | none => if data.length = r.len then (s.dropRead f i).takeEntries r.ring data else s
  | some id =>
    match (s.ring r.ring).running.find? fun c => c.id == id with
    | some c =>
      (match c.st with
       | .moving left moved =>
         if 0 < data.length ∧ data.length ≤ r.len ∧ devWriteGo s (c.field 24 8 + moved) data.length then
           (s.dropRead f i).copyIn r.ring c r data left moved
         else s
       | _ => s)
    | none => s.dropRead f i

/-- R320: the completion of the `i`-th outstanding host read of function `f`. -/
def hostReadDone (f i : Nat) (ok : Bool) (data : List Byte) (s : State) : State :=
  match (s.func f).reads[i]? with
  | some r => if ok then readDone f i r data s else s.readFailed f i r
  | none => s

/-- HOST_READ_COMPLETION (R320); after the landing's snapshot it is held (R595). -/
def execHostReadCompletion (f : Fin 17) (i : Nat) (ok : Bool) (data : List Byte) (s : State) : Out :=
  .next (if !pkgUp s then s
    else if stopped s landingUnit then
      { s with dbg := { s.dbg with heldCpls := s.dbg.heldCpls ++ [(f.val, i, ok, data)] } }
    else hostReadDone f.val i ok data s)

/-- COMPLETION_TIMEOUT (R320). -/
def execCompletionTimeout (f : Fin 17) (i : Nat) (s : State) : Out :=
  .next (match (s.func f.val).reads[i]? with
    | some r => if !pkgUp s then s else (s.lndCount 5).readFailed f.val i r
    | none => s)

end Sys2Proof.Machine
end

