-- ==== Sys2Proof/Machine/Gov.lean ====
section
/-!
DEFINITION. Gov.lean: what the stack governors share (R524 to R545): sensors, caps, levels and P-states.
-/
namespace Sys2Proof.Machine

/-! ### Sensors (R524 to R529) -/

/-- The key of sensor `i` of a die. -/
def sensKey (die i : Nat) : Nat := 16 * die + i

/-- R526: the sensor reads valid. -/
def Sensor.ok (x : Sensor) : Bool := x.seen && x.cause == 0 && !x.calFail

/-- R526, R529: the sensor's readings are used. -/
def Sensor.used (x : Sensor) : Bool := x.ok && !x.calibrating

/-- R525: the mean of the last ten samples, rounded down. -/
def Sensor.mean (x : Sensor) : Int := if x.last = [] then 0 else x.last.foldl (· + ·) 0 / x.last.length

/-- R552: the address field of a thermal report. -/
def thermAddr (die i : Nat) : Nat := if die = 16 then 0x10 else die + 16 * i

/-- R526, R552: one report for each change from valid to ignored. -/
def State.sensorIgnored (s : State) (die i : Nat) (was : Bool) : State :=
  if was ∧ !(s.sensor (sensKey die i)).ok then s.report none 0x0E 3 die 0 (thermAddr die i) else s

/-- R476, R526: test 0x09 has failed. -/
def State.calFailed (s : State) (die i : Nat) : State :=
  let was := (s.sensor (sensKey die i)).ok
  (s.updSensor (sensKey die i) fun X => { X with calFail := true }).sensorIgnored die i was

/-! ### Caps (R33, R537) -/

/-- R33: a stack's budget in mW. -/
def stackBudget (s : State) : Nat := if s.fuses.gradeE then 126000 else 140000

/-- R548: the package-wide coolant cap in percent. -/
def flowCap (s : State) : Nat := if s.coolant.hot.on || s.coolant.low.on then 50 else 100

/-- R537: the effective cap in percent of the budget. -/
def effCap (s : State) (st : Nat) : Nat :=
  min (min (min 100 (s.fld (govReg st 0x040) 0 8)) (min (s.stk st).coolCap (flowCap s)))
    (if (s.stk st).pairLost.isSome then 50 else 100)

/-- The effective cap in mW. -/
def capMw (s : State) (st : Nat) : Nat := stackBudget s * effCap s st / 100

/-! ### P-states (R29, R543 to R545) -/

/-- R543: `VDD_ARR` of a P-state in mV. -/
def pstateMv (p : Nat) : Nat := nth 550 [800, 750, 680, 620, 550] p

/-- R543: the arrays' share of the budget in a P-state, in mW. -/
def pstateShare (p : Nat) : Nat := 1000 * nth 25 [84, 70, 52, 38, 25] p

/-- R543: the highest P-state of the grade. -/
def gradeTop (s : State) : Nat := b2n s.fuses.gradeE

/-- `GOV_STAT.PSTATE`. -/
def pstateOf (s : State) (st : Nat) : Nat := s.fld (govReg st 0x048) 4 3

/-- R29: a voltage command to the stack's regulator. -/
def State.requestVdd (s : State) (st mv : Nat) : State := (s.updStk st fun T => { T with vdd := mv }).send (.pmbus st mv)

/-- R29: the next step of at most 50 mV towards a voltage. -/
def nextMv (now mv : Nat) : Nat := if now < mv then min mv (now + 50) else max mv (now - min now 50)

/-- The steps to a voltage, at most `n`. -/
def State.stepVdd (s : State) (st mv : Nat) : Nat → State
  | 0 => s
  | n + 1 => if (s.stk st).vdd = mv then s else (s.requestVdd st (nextMv (s.stk st).vdd mv)).stepVdd st mv n

/-- R538, R543, R554: a stack's governor starts: P-state, baseline and mode are loaded, and the voltage fits the P-state. -/
def State.startGov (s : State) (st : Nat) : State :=
  let p := gradeTop s
  let s1 := ((s.setFld (govReg st 0x044) 2 3 p).setFld (govReg st 0x048) 4 3 p).setFld (govReg st 0x058) 16 16 (nth 0 s.boot.cool.rBase st)
  s1.stepVdd st (pstateMv p) 6

/-- R29, R544: the regulator has not acknowledged: the clock goes to P-state 4, whatever the voltage. -/
def State.pmbFault (s : State) (st : Nat) : State :=
  let s1 := s.updStk st fun T =>
    { T with pmbBad := true, change := if pstateOf s st = 4 then none else some { target := 4, raising := false, hold := true } }
  (s1.setBit (pkgReg 0x044) 5).alert 10

/-- R29: a step is sent; a regulator that does not acknowledge it is a fault. -/
def State.sendStep (s : State) (st mv : Nat) (ack : Bool) : State :=
  let s1 := s.requestVdd st (nextMv (s.stk st).vdd mv)
  if ack then s1 else s1.pmbFault st

/-- R545: a change to P-state `p` begins. -/
def State.changePstate (s : State) (st p : Nat) (ack : Bool) : State :=
  if p = pstateOf s st then s
  else if p < pstateOf s st ∧ (s.stk st).vdd < pstateMv p then
    (s.updStk st fun T => { T with change := some { target := p, raising := true, hold := false } }).sendStep st (pstateMv p) ack
  else s.updStk st fun T => { T with change := some { target := p, raising := decide (p < pstateOf s st), hold := true } }

/-! ### Levels (R534, R535, R540) -/

/-- R540: the smallest level at which the arrays' duty and the other shares fit the cap. -/
def timedLevel (s : State) (st : Nat) : Nat :=
  let other := stackBudget s - pstateShare (gradeTop s)
  let fits (l : Nat) : Bool := decide (pstateShare (pstateOf s st) * 256 + other * (256 + nth 0 pauseTable l) ≤ capMw s st * (256 + nth 0 pauseTable l))
  ((List.range 16).find? fits).getD 15

end Sys2Proof.Machine
end

