-- ==== Sys2Proof/Machine/Crypto.lean ====
section
/-!
DEFINITION. Crypto.lean: the checks the package makes over byte strings: CRC-32 (R195, R369), SHA-256, HMAC-SHA-256 and
RSA-3072 RSASSA-PSS verification (R432, R436).
-/
namespace Sys2Proof.Machine

/-! ### CRC-32, IEEE 802.3 polynomial, reflected -/

/-- Eight steps of the reflected register. -/
def crcByte : Nat → Nat → Nat
  | 0, r => r
  | n + 1, r => crcByte n (if r % 2 = 1 then Nat.xor (r / 2) 0xEDB88320 else r / 2)

/-- CRC-32 of a byte string. -/
def crc32 (l : List Byte) : Nat :=
  Nat.xor (l.foldl (fun r b => crcByte 8 (Nat.xor r b.toNat)) 0xFFFFFFFF) 0xFFFFFFFF

/-! ### SHA-256 -/

/-- The round constants. -/
def shaK : List Nat :=
  [0x428a2f98, 0x71374491, 0xb5c0fbcf, 0xe9b5dba5, 0x3956c25b, 0x59f111f1, 0x923f82a4, 0xab1c5ed5,
   0xd807aa98, 0x12835b01, 0x243185be, 0x550c7dc3, 0x72be5d74, 0x80deb1fe, 0x9bdc06a7, 0xc19bf174] ++
  [0xe49b69c1, 0xefbe4786, 0x0fc19dc6, 0x240ca1cc, 0x2de92c6f, 0x4a7484aa, 0x5cb0a9dc, 0x76f988da,
   0x983e5152, 0xa831c66d, 0xb00327c8, 0xbf597fc7, 0xc6e00bf3, 0xd5a79147, 0x06ca6351, 0x14292967] ++
  [0x27b70a85, 0x2e1b2138, 0x4d2c6dfc, 0x53380d13, 0x650a7354, 0x766a0abb, 0x81c2c92e, 0x92722c85,
   0xa2bfe8a1, 0xa81a664b, 0xc24b8b70, 0xc76c51a3, 0xd192e819, 0xd6990624, 0xf40e3585, 0x106aa070] ++
  [0x19a4c116, 0x1e376c08, 0x2748774c, 0x34b0bcb5, 0x391c0cb3, 0x4ed8aa4a, 0x5b9cca4f, 0x682e6ff3,
   0x748f82ee, 0x78a5636f, 0x84c87814, 0x8cc70208, 0x90befffa, 0xa4506ceb, 0xbef9a3f7, 0xc67178f2]

/-- The initial hash value. -/
def shaInit : List Nat := [0x6a09e667, 0xbb67ae85, 0x3c6ef372, 0xa54ff53a, 0x510e527f, 0x9b05688c, 0x1f83d9ab, 0x5be0cd19]

/-- A sum or a rotation as a 32-bit word. -/
def sha32 (x : Nat) : Nat := x.land 0xFFFFFFFF

/-- A word twice, one above the other: its low word after a right shift is the rotated word. -/
def sha64 (x : Nat) : Nat := x.mul 0x100000001

/-- The exclusive or of three rotations of a word to the right. -/
def shaRot (i j k x : Nat) : Nat :=
  sha32 (((sha64 x).shiftRight i).xor (((sha64 x).shiftRight j).xor ((sha64 x).shiftRight k)))

/-- The exclusive or of two rotations and a shift of a word to the right. -/
def shaMix (i j k x : Nat) : Nat :=
  sha32 (((sha64 x).shiftRight i).xor (((sha64 x).shiftRight j).xor (x.shiftRight k)))

/-- The next message-schedule word from the last sixteen, newest first. -/
def shaNext : List Nat → Nat
  | _ :: w2 :: _ :: _ :: _ :: _ :: w7 :: _ :: _ :: _ :: _ :: _ :: _ :: _ :: w15 :: w16 :: _ =>
    sha32 (((shaMix 17 19 10 w2).add w7).add ((shaMix 7 18 3 w15).add w16))
  | _ => 0

/-- The schedule, newest first. -/
def shaSched : Nat → List Nat → List Nat
  | 0, w => w
  | n + 1, w => shaSched n (shaNext w :: w)

/-- The rounds over the round constants and the schedule, from the working variables a to h. -/
def shaRounds : List Nat → List Nat → Nat → Nat → Nat → Nat → Nat → Nat → Nat → Nat → List Nat
  | k :: ks, w :: ws, a, b, c, d, e, f, g, h =>
    let t1 := sha32 ((h.add (shaRot 6 11 25 e)).add (((e.land f).xor ((e.xor 0xFFFFFFFF).land g)).add (k.add w)))
    let t2 := (shaRot 2 13 22 a).add ((a.land b).xor ((a.land c).xor (b.land c)))
    shaRounds ks ws (sha32 (t1.add t2)) a b c (sha32 (d.add t1)) e f g
  | _, _, a, b, c, d, e, f, g, h => [a, b, c, d, e, f, g, h]

/-- The big-endian words of a byte string. -/
def beWords : List Byte → List Nat
  | a :: b :: c :: d :: l => (((a.toNat.mul 256).add b.toNat).mul 65536).add ((c.toNat.mul 256).add d.toNat) :: beWords l
  | _ => []

/-- One 64 B block. -/
def shaBlock (v : List Nat) (blk : List Byte) : List Nat :=
  match v with
  | [a, b, c, d, e, f, g, h] =>
    (v.zip (shaRounds shaK (shaSched 48 (beWords blk).reverse).reverse a b c d e f g h)).map fun x => sha32 (x.1.add x.2)
  | _ => v

/-- Blocks one after another. -/
def shaBlocks : Nat → List Nat → List Byte → List Nat
  | 0, h, _ => h
  | n + 1, h, l => shaBlocks n (shaBlock h (l.take 64)) (l.drop 64)

/-- SHA-256 of a byte string, digest byte 0 first. -/
def sha256 (l : List Byte) : List Byte :=
  let pad := (119 - l.length % 64) % 64
  let m := l ++ [(0x80 : Byte)] ++ List.replicate pad 0 ++ beBytes 8 (8 * l.length)
  (shaBlocks (m.length / 64) shaInit m).flatMap (beBytes 4)

/-- HMAC-SHA-256. -/
def hmac256 (key msg : List Byte) : List Byte :=
  let k0 := if key.length > 64 then sha256 key else key
  let k := k0 ++ List.replicate (64 - k0.length) 0
  sha256 (k.map (· ^^^ 0x5c) ++ sha256 (k.map (· ^^^ 0x36) ++ msg))

/-! ### RSASSA-PSS -/

/-- `b ^ e mod n` by squaring, on the bits of `e`. -/
def modPow (b n : Nat) : Nat → Nat → Nat → Nat
  | 0, _, acc => acc
  | k + 1, e, acc =>
    let acc' := if e % 2 = 1 then acc * b % n else acc
    modPow (b * b % n) n k (e / 2) acc'

/-- MGF1 with SHA-256. -/
def mgf1 (seed : List Byte) (n : Nat) : List Byte :=
  ((List.range ((n + 31) / 32)).flatMap fun i => sha256 (seed ++ beBytes 4 i)).take n

/-- R436: EMSA-PSS verification over 3,071 bits with a 32 B salt. -/
def pssOk (mhash em : List Byte) : Bool :=
  let h := slice em 351 32
  let db := ((em.take 351).zip (mgf1 h 351)).map fun x => x.1 ^^^ x.2
  let db := match db with | [] => [] | x :: xs => (x &&& 0x7F) :: xs
  nth 0 em 383 == 0xBC && decide ((nth 0 em 0).toNat < 128) &&
  (db.take 318).all (· == 0) && nth 0 db 318 == 1 &&
  sha256 (List.replicate 8 0 ++ mhash ++ slice db 319 32) == h

/-- R436, R438: the signature of `msg` verifies under a modulus and exponent, all little-endian (log 21). -/
def rsaOk (modulus : List Byte) (exponent : Nat) (msg sig : List Byte) : Bool :=
  let n := leVal modulus
  let x := leVal sig
  exponent == 65537 && decide (0 < n) && decide (x < n) && pssOk (sha256 msg) (beBytes 384 (modPow x n 17 exponent 1))

end Sys2Proof.Machine
end

