-- ==== Sys2Proof/Machine/Image.lean ====
section
/-!
DEFINITION. Image.lean: Ndeorn images (R438 to R441): their header, digest list, signature and payload, and the checks in
their order.
-/
namespace Sys2Proof.Machine

def imgKind (l : List Byte) : Nat := leAt l 6 1
def imgKey (l : List Byte) : Nat := leAt l 7 1
def imgSvn (l : List Byte) : Nat := leAt l 8 1
def imgRevoke (l : List Byte) : Nat := leAt l 9 1
def imgLen (l : List Byte) : Nat := leAt l 16 4
def imgBlocks (l : List Byte) : Nat := leAt l 20 4

/-- R438: offset of the signature, and of payload block 0. -/
def imgSigAt (l : List Byte) : Nat := 512 + 32 * imgBlocks l
def imgPayAt (l : List Byte) : Nat := imgSigAt l + 384

/-- Bytes from `i` to `j` are zero. -/
def zeros (l : List Byte) (i j : Nat) : Bool := ((l.drop i).take (j - i)).all (· == 0)

/-- R439, check 1: the header is valid for an image of this kind, and the image is whole. -/
def imgForm (l : List Byte) (kind : Nat) : Bool :=
  decide (512 ≤ l.length) && l.take 4 == [0x4E, 0x44, 0x52, 0x4E] && leAt l 4 2 == 1 && imgKind l == kind &&
  (kind == 1 || decide (imgKey l < 4)) && decide (imgSvn l ≤ (if kind = 0 then 64 else 0)) &&
  decide (imgRevoke l ≤ (if kind = 2 then 3 else 0)) && zeros l 10 16 && zeros l 24 64 && zeros l 452 512 &&
  imgBlocks l == (imgLen l + 4095) / 4096 && decide (imgPayAt l + 4096 * imgBlocks l ≤ l.length)

/-- R439, check 2: the digest of the signer's key. -/
def imgSigner (l : List Byte) : List Byte := sha256 ((l.drop 64).take 388)

/-- R439, check 3. -/
def imgSigned (l : List Byte) : Bool :=
  rsaOk ((l.drop 64).take 384) (leAt l 448 4) (l.take (imgSigAt l)) ((l.drop (imgSigAt l)).take 384)

/-- Payload block `i`. -/
def imgBlock (l : List Byte) (i : Nat) : List Byte := (l.drop (imgPayAt l + 4096 * i)).take 4096

/-- Its listed digest. -/
def imgDigest (l : List Byte) (i : Nat) : List Byte := (l.drop (512 + 32 * i)).take 32

/-- R439, check 5, for every block. -/
def imgWhole (l : List Byte) : Bool := (List.range (imgBlocks l)).all fun i => sha256 (imgBlock l i) == imgDigest l i

/-- The payload. -/
def imgPayload (l : List Byte) : List Byte := (l.drop (imgPayAt l)).take (imgLen l)

/-- R431: a fused slot is usable. -/
def keyUsable (s : State) (i : Nat) : Bool :=
  (nth [] s.fuses.keyHash i).any (· != 0) && !nbit s.fuses.revoked.toNat i

/-- R431, R439: the image passes checks 2 and 3 against its fused slot. -/
def imgFused (s : State) (l : List Byte) : Bool :=
  keyUsable s (imgKey l) && imgSigner l == nth [] s.fuses.keyHash (imgKey l) && imgSigned l

/-- R432: SHA-256 of the boot ROM, whose contents no rule gives (log 5). -/
def romDigest : List Byte := (List.range 32).map fun i => BitVec.ofNat 8 (Config.openFn 8 [i])

end Sys2Proof.Machine
end

