-- ==== Sys2Proof/Machine/RingCmd.lean ====
section
/-!
DEFINITION. RingCmd.lean: the ring commands (R329 to R353) but for those of graphs and groups: what lets a command start, what
refuses it, and what each does.
-/
namespace Sys2Proof.Machine

/-! ### Starting a command (R332, R334, R337) -/

/-- R332, R345, R347: a running command of this kind holds every later one of its ring. -/
def Cmd.holds (c : Cmd) : Bool := c.op == 6 || c.op == 8

/-- R262, R512: a remap switch or a SPARE_IN holds the command starts of partition `n`. -/
def startsHeld (s : State) (n : Nat) : Bool := startsHeldByRemap s n || s.faults.spares.any fun x => x.part == n

/-- R332, R334: the ring's front command may start. -/
def frontCmd (s : State) (g : Nat) (sel : Nat → Bool) : Option Cmd :=
  let R := s.ring g
  match R.queue with
  | [] => none
  | c :: _ =>
    if sel c.op && ringTakes s g && R.held.isEmpty && (!c.order || R.running.isEmpty) && !(R.running.any Cmd.holds) &&
        !startsHeld s (cmdPart g c) then some c else none

/-- R311, R337, R449, R506: what refuses a command before its body is looked at. -/
def refusal (s : State) (g : Nat) (c : Cmd) : Option Nat :=
  let n := cmdPart g c
  if c.op = 0 ∨ 12 < c.op then some 0x01
  else if s.bit (lndReg 0x040) 9 ∧ c.op ≠ 9 ∧ c.op ≠ 10 then some 0x05
  else if g < 4 ∧ 16 ≤ c.byte 4 then some 0x02
  else if g < 4 ∧ tdiLocked s n ∧ ¬ (c.op = 9 ∧ c.byte 8 = 0) then some 0x05
  else if (s.part n).state = .faulted then some 0x12
  else if (s.part n).state ≠ .running then some 0x04
  else none

/-- The front command leaves the ring's queue. -/
def State.popCmd (s : State) (g : Nat) : State := s.updRing g fun R => { R with queue := R.queue.drop 1 }

/-- The front command completes at once. -/
def State.instant (s : State) (g : Nat) (c : Cmd) (status value : Nat) : State := (s.popCmd g).endCmd g c status value

/-- The front command starts to run. -/
def State.runCmd (s : State) (g : Nat) (c : Cmd) (st : RunSt) : State :=
  (s.popCmd g).updRing g fun R => { R with running := R.running ++ [{ c with st := st, startAt := s.tb }] }

/-- Start the front command of a ring, if it is one of those `sel` names. -/
def startCmd (g : Nat) (sel : Nat → Bool) (k : Cmd → State → State) (s : State) : State :=
  match frontCmd s g sel with
  | none => s
  | some c => match refusal s g c with
    | some st => s.instant g c st 0
    | none => k c s

/-- RESERVED_OPCODE (R337). -/
def execReservedOpcode (g : RingId) (s : State) : Out :=
  .next (startCmd (ringKey g) (fun o => o == 0 || decide (12 < o)) (fun _ s => s) s)

/-- R320: a host read of a command failed. -/
def State.hostDma (s : State) (g : Nat) (c : Cmd) : State := (s.setBit (lndReg 0x044) 2).instant g c 0x13 0

/-! ### COPY and FILL (R342, R343) -/

/-- R342: copies on the landing's DMA engine that run for the function of ring `g`. -/
def dmaCopies (s : State) (g : Nat) : Nat :=
  (((List.range 4).flatMap fun r => (s.ring (g / 4 * 4 + r)).running).filter fun c =>
    match c.st with | .moving _ _ => true | _ => false).length

/-- R342: up to four channels of the partition that read RUNNING, lowest first (log 29). -/
def copyChans (s : State) (n : Nat) : List Nat :=
  (((List.range 32).filter fun i => brgOwner s i == some n && (s.chan (2048 + i)).state == .running).take 4).map (· + 2048)

/-- The code of the largest element that divides everything (log 29). -/
def elemCode (x : Nat) : Nat :=
  match [5, 4, 3, 2, 1].find? fun c => x % (esizeBytes c).getD 1 == 0 with
  | some c => c
  | none => 0

/-- R152: a descriptor of `n` elements of code `e`, one after another. -/
def runDesc (e srcK src dst n : Nat) : Desc :=
  let b := (esizeBytes e).getD 1
  let w (x : Nat) : Word := BitVec.ofNat 32 x
  [w (e * 4 + srcK * 256 + 1024), w src, w (src / 2 ^ 32), w dst, w (dst / 2 ^ 32), w (n - 1), 0, w b, 0, 0, w b, 0, 0, 0, 0, 0]

/-- R342, R343: the descriptors of a transfer, in turn over the channels. `src` gives the source words at a byte offset. -/
def transfer (e srcK : Nat) (src : Nat → Nat) (dst len : Nat) (cs : List Nat) : List (Nat × Desc) :=
  let b := (esizeBytes e).getD 1
  let n := len / b
  (List.range ((n + 65535) / 65536)).map fun i =>
    (nth 0 cs (i % cs.length), runDesc e srcK (src (i * 65536 * b)) (dst + i * 65536 * b) (min 65536 (n - i * 65536)))

/-- The landing's descriptors enter their channels. -/
def State.feedChans (s : State) (g : Nat) (c : Cmd) (cs : List Nat) (todo : List (Nat × Desc)) : State :=
  cs.foldl (fun s ch => (s.refillChan ch 4).iodNext ch 5) (s.runCmd g c (.chans todo todo.length 0 0))

/-- R342: bytes moved and poison met by a device-to-host copy, 256 B at a time. -/
def copyOut (s : State) (f : Nat) (src host : Nat) (ps : List (Nat × Nat × Nat)) : State × Nat × Bool × Bool :=
  ps.foldl (fun (r : State × Nat × Bool × Bool) p =>
    if r.2.2.2 then r
    else
      let x := r.1.devRead p.1 p.2.2 .port
      if x.lost then (x.st, r.2.1, r.2.2.1, true)
      else (x.st.send (.hostWrite f (BitVec.ofNat 64 (host + (p.1 - src))) x.data x.poison), r.2.1 + p.2.2, r.2.2.1 || x.poison, false))
    (s, 0, false, false)

/-- The largest `VALUE`. -/
def satValue (n : Nat) : Nat := min n (2 ^ 32 - 1)

/-- COPY's effect. -/
def copyCmd (g : Nat) (c : Cmd) (s : State) : State :=
  let dir := c.byte 8
  let src := c.field 16 8
  let dst := c.field 24 8
  let len := c.field 32 8
  let n := some (cmdPart g c)
  if 2 < dir ∨ len = 0 ∨ 2 ^ 40 < len then s.instant g c 0x02 0
  else if (dir ≠ 0 ∧ !addrOk s n src len) ∨ (dir ≠ 1 ∧ !addrOk s n dst len) then s.instant g c 0x03 0
  else if dir = 0 then
    (if 4 ≤ dmaCopies s g then s
     else (s.runCmd g c (.moving len 0)).updFunc (g / 4) fun F =>
       { F with reads := F.reads ++ [{ ring := g, cmd := some c.id, addr := BitVec.ofNat 64 src, len := len, sentAt := s.tb }] })
  else if dir = 1 then
    (if dmaCopies s g < 4 ∧ devReadGo s src len then
       (let r := copyOut s (g / 4) src dst (pieces src len)
        r.1.instant g c (if r.2.2.2 then 0x12 else if r.2.2.1 then 0x10 else 0) (satValue r.2.1))
     else s)
  else
    let cs := copyChans s (cmdPart g c)
    if cs = [] then s.instant g c 0x0B 0
    else s.feedChans g c cs (transfer (elemCode (Nat.gcd (Nat.gcd src dst) len)) 1 (src + ·) dst len cs)

/-- COPY (R342). -/
def execCopy (g : RingId) (s : State) : Out := .next (startCmd (ringKey g) (· == 3) (copyCmd (ringKey g)) s)

/-- FILL's effect. -/
def fillCmd (g : Nat) (c : Cmd) (s : State) : State :=
  let dst := c.field 16 8
  let len := c.field 24 8
  let cs := copyChans s (cmdPart g c)
  if len % 8 ≠ 0 ∨ dst % 8 ≠ 0 ∨ 2 ^ 40 < len then s.instant g c 0x02 0
  else if len ≠ 0 ∧ !addrOk s (some (cmdPart g c)) dst len then s.instant g c 0x03 0
  else if cs = [] then s.instant g c 0x0B 0
  else if len = 0 then s.instant g c 0 0
  else s.feedChans g c cs (transfer (elemCode (Nat.gcd dst len)) 3 (fun _ => c.field 32 8) dst len cs)

/-- FILL (R343). -/
def execFill (g : RingId) (s : State) : Out := .next (startCmd (ringKey g) (· == 4) (fillCmd (ringKey g)) s)

/-! ### NORIA_OP (R344) -/

/-- The listed commands join the partition's window. -/
def State.startNoriaOp (s : State) (g : Nat) (c : Cmd) (list : List Byte) : State :=
  let k := c.field 24 2
  let todo := (List.range k).map fun i => (i, wordsOf (list.drop (64 * i)) 16)
  (s.runCmd g c (.noria todo [] k)).refillWin (cmdPart g c) 32

/-- NORIA_OP's effect. -/
def noriaOpCmd (list : List Byte) (g : Nat) (c : Cmd) (s : State) : State :=
  let k := c.field 24 2
  let a := c.field 16 8
  if k = 0 ∨ 4096 < k then s.instant g c 0x02 0
  else if !nbit (c.byte 9) 0 then (if list.length < 64 * k then s.hostDma g c else s.startNoriaOp g c list)
  else if !addrOk s (some (cmdPart g c)) a (64 * k) then s.instant g c 0x03 0
  else if devReadGo s a (64 * k) then
    (let r := s.devRead a (64 * k) .port
     if r.lost then r.st.instant g c 0x12 0
     else if r.poison then r.st.instant g c 0x10 0
     else r.st.startNoriaOp g c r.data)
  else s

/-- NORIA_OP (R344). -/
def execNoriaOp (g : RingId) (list : List Byte) (s : State) : Out :=
  .next (startCmd (ringKey g) (· == 5) (noriaOpCmd list (ringKey g)) s)

/-! ### FENCE, SIGNAL, WAIT (R345 to R347) -/

/-- R345: the commands a FENCE waits for. -/
def fenceWaits (s : State) (g : Nat) (c : Cmd) : List (Nat × Nat) :=
  (if c.byte 8 = 0 then [g] else (List.range 4).map (g / 4 * 4 + ·)).flatMap fun r => (s.ring r).running.map fun x => (r, x.id)

/-- FENCE's effect. -/
def fenceCmd (g : Nat) (c : Cmd) (s : State) : State :=
  if 1 < c.byte 8 then s.instant g c 0x02 0
  else match fenceWaits s g c with
    | [] => s.instant g c 0 0
    | l => s.runCmd g c (.fence l)

/-- FENCE (R345). -/
def execFence (g : RingId) (s : State) : Out := .next (startCmd (ringKey g) (· == 6) (fenceCmd (ringKey g)) s)

/-- R346: the place of the landing as a sender of tokens. -/
def landingLoc : Loc := ⟨16, 0⟩

/-- SIGNAL's effect: BAD_FIELD is looked for before BAD_ADDRESS (log 56). -/
def signalCmd (g : Nat) (c : Cmd) (s : State) : State :=
  let n := cmdPart g c
  let a := c.field 16 8
  if c.byte 8 = 0 then
    (if a % 8 ≠ 0 then s.instant g c 0x02 0
     else if !addrOk s (some n) a 8 then s.instant g c 0x03 0
     else if devWriteGo s a 8 then
       (let r := s.devWeir 0x6 a (leBytes 8 (c.field 24 8)) false
        r.st.instant g c (if r.lost then 0x12 else if r.poison then 0x10 else 0) 0)
     else s)
  else if c.byte 8 = 1 then
    (let dst : Loc := ⟨BitVec.ofNat 5 (c.byte 16), BitVec.ofNat 5 (c.byte 17)⟩
     if 63 < c.byte 18 ∨ c.byte 24 = 0 ∨ 63 < c.byte 24 then s.instant g c 0x02 0
     else if !((arcOf s n).contains (c.byte 16)) ∨ 31 < c.byte 17 ∨ !plotReported s (32 * c.byte 16 + c.byte 17) then
       s.instant g c 0x03 0
     else (s.inject 3 landingLoc dst (.add dst landingLoc (BitVec.ofNat 6 (c.byte 18)) (BitVec.ofNat 6 (c.byte 24)))).instant g c 0 0)
  else s.instant g c 0x02 0

/-- SIGNAL (R346). -/
def execSignal (g : RingId) (s : State) : Out := .next (startCmd (ringKey g) (· == 7) (signalCmd (ringKey g)) s)

/-- WAIT's start. -/
def waitCmd (g : Nat) (c : Cmd) (s : State) : State :=
  let a := c.field 16 8
  if a % 8 ≠ 0 then s.instant g c 0x02 0
  else if !addrOk s (some (cmdPart g c)) a 8 then s.instant g c 0x03 0
  else s.runCmd g c .waiting

/-- WAIT (R347). -/
def execWait (g : RingId) (s : State) : Out := .next (startCmd (ringKey g) (· == 8) (waitCmd (ringKey g)) s)

/-- The WAIT that runs on a ring. -/
def waitRunning (s : State) (g : Nat) : Option Cmd := (s.ring g).running.find? fun c => c.op == 8

/-- R347: one reading of the word. -/
def pollWait (g : Nat) (c : Cmd) (s : State) : State :=
  let r := s.devRead (c.field 16 8) 8 .port
  let v := leVal r.data
  if r.lost then r.st.finishCmd g c.id 0x12 0
  else if r.poison then r.st.finishCmd g c.id 0x10 (v % 2 ^ 32)
  else if c.field 24 8 ≤ v then r.st.finishCmd g c.id 0 (v % 2 ^ 32)
  else r.st

/-- The landing works. -/
def landingRuns (s : State) : Bool := pkgUp s && !stopped s landingUnit && !pkgQuiesced s

/-- WAIT_POLL (R347). -/
def execWaitPoll (g : RingId) (s : State) : Out :=
  .next (match waitRunning s (ringKey g) with
    | some c => if landingRuns s && devReadGo s (c.field 16 8) 8 then pollWait (ringKey g) c s else s
    | none => s)

/-- R347: the word as it reads when TIMEOUT passes (log 58). -/
def timeoutWait (g : Nat) (c : Cmd) (s : State) : State :=
  if devReadGo s (c.field 16 8) 8 then
    (let r := s.devRead (c.field 16 8) 8 .port
     r.st.finishCmd g c.id 0x14 (leVal r.data % 2 ^ 32))
  else s.drawn.finishCmd g c.id 0x14 (s.free % 2 ^ 32)

/-- WAIT_TIMEOUT (R347). -/
def execWaitTimeout (g : RingId) (s : State) : Out :=
  .next (match waitRunning s (ringKey g) with
    | some c => if landingRuns s && c.field 32 4 != 0 then timeoutWait (ringKey g) c s else s
    | none => s)

/-! ### QUERY (R348 to R351, R589) -/

/-- R348: a header and the whole entries that fit a buffer. -/
def queryBytes (hdr : List Byte) (es : List (List Byte)) (size buf : Nat) : List Byte :=
  if buf < hdr.length then [] else hdr ++ (es.take ((buf - hdr.length) / size)).flatten

/-- R348: the result is written in pieces of at most 256 B. -/
def State.writeHost (s : State) (f host : Nat) (data : List Byte) : State :=
  (pieces host data.length).foldl (fun s p =>
    s.send (.hostWrite f (BitVec.ofNat 64 p.1) (slice data p.2.1 p.2.2) false)) s

/-- The query ends with its result written. -/
def State.queryDone (s : State) (g : Nat) (c : Cmd) (data : List Byte) : State :=
  (s.writeHost (g / 4) (c.field 16 8) data).instant g c 0 data.length

/-- R328: `PART_STAT.STATE`. -/
def pstateCode : PState → Nat
  | .free => 0
  | .resetting => 1
  | .idle => 2
  | .running => 3
  | .stopping => 4
  | .stopped => 5
  | .faulted => 6

/-- R554: `GOV_STAT.COOL_STATE`. -/
def coolCode : CoolSt → Nat
  | .normal => 0
  | .derated => 1
  | .degraded => 2

/-- R523: plots of stack `st` that read FAILED, and R358: of a partition. -/
def failedMask (s : State) (st : Nat) : Nat := (s.reg (fltReg (0x080 + 4 * st))).toNat
def failedPlots (s : State) (n : Nat) : Nat := ((arcOf s n).map fun st => ones 32 (failedMask s st)).foldl (· + ·) 0

/-- R191: the fenced plots of a stack. -/
def fencedMask (s : State) (st : Nat) : Nat :=
  (List.range 4).foldl (fun a q => a + s.fld (rhReg st q 0x040) 0 8 * 256 ^ q) 0

/-- R467, R512: plot sites that SPARE_IN may take. -/
def spareSites (s : State) (st : Nat) : List Nat :=
  let T := s.stk st
  let held := ((List.range 32).filter fun p => plotReported s (32 * st + p)).map fun p => siteOf s (32 * st + p)
  (List.range 36).filter fun i => i != 30 && i != 35 && !T.badSites.contains i && !T.usedSites.contains i && !held.contains i

/-- R349: the entry of one stack. -/
def stackEntry (s : State) (st : Nat) : List Byte :=
  leBytes 1 st ++ leBytes 1 (plotCount s st) ++ leBytes 1 (s.fld (smReg st 0x040) 0 3) ++ leBytes 1 (coolCode (s.stk st).cool) ++
  leBytes 4 (failedMask s st) ++ leBytes 4 (fencedMask s st) ++ leBytes 1 (spareSites s st).length ++ [0, 0, 0]

/-- A mask of graph slots. -/
def slotBits (s : State) (n : Nat) (f : Slot → Bool) : Nat :=
  ((List.range 8).map fun i => b2n (f (s.slot n i)) * 2 ^ i).foldl (· + ·) 0

/-- R349: the partition record. -/
def partHeader (s : State) (n : Nat) : List Byte :=
  let P := s.part n
  [0] ++ leBytes 1 n ++ leBytes 1 (pstateCode P.state) ++ leBytes 1 P.first ++ leBytes 1 P.sizeLog2 ++
  leBytes 1 (arcOf s n).length ++ leBytes 2 (failedPlots s n) ++ leBytes 1 (slotBits s n (·.loaded)) ++
  leBytes 1 (slotBits s n (·.run.isSome)) ++ [0, 0, 0, 0, 0, 0]

/-- R350: the symbol table. -/
def symHeader (S : Slot) (sl : Nat) : List Byte :=
  [2] ++ leBytes 1 sl ++ leBytes 2 S.symbols.length ++ leBytes 4 S.runNo.toNat ++ [0, 0, 0, 0, 0, 0, 0, 0]

/-- R351: the landing record. -/
def landingRecord (s : State) (vf : Bool) : List Byte :=
  let lnd := leBytes 4 (s.reg (lndReg 0x040)).toNat
  if vf then [3, 0, 0, 0] ++ lnd ++ List.replicate 56 0
  else [3, 0, 0, 0] ++ lnd ++ leBytes 4 (s.reg (lndReg 0x044)).toNat ++ [0, 0, 0, 0] ++
    ((List.range 8).flatMap fun i => leBytes 4 (tget 0 s.lndErr i)) ++ List.replicate 16 0

/-- R583, R584: the counters of a set. -/
def setSize (set : Nat) : Nat := match set with | 0 => 57 | 1 => 4 | 2 => 23 | 3 => 228 | 4 => 160 | _ => 6

/-- R589: the counter set that a body names, and whether its unit is there. -/
def querySet (c : Cmd) : Option Nat :=
  let st := c.byte 10
  let i := c.byte 11
  match c.byte 9 with
  | 0 => if st < 16 ∧ i < 32 then some (32 * st + i) else none
  | 1 => if st < 16 ∧ i < 4 then some (512 + 4 * st + i) else none
  | 2 => if st < 16 then some (576 + st) else none
  | 3 => some 592
  | 4 => some 593
  | 5 => some 594
  | _ => none

/-- R589: the counters of a shared set that a virtual function may see. -/
def ownCounter (s : State) (n set i : Nat) : Bool :=
  if set = 3 then decide (196 ≤ i) && epOwner s (i - 196) == some n else brgOwner s (i / 5) == some n

/-- R589: what refuses a counter query. -/
def counterRefusal (s : State) (g : Nat) (c : Cmd) : Option Nat :=
  let set := c.byte 9
  let st := c.byte 10
  match querySet c with
  | none => some 0x02
  | some k =>
    if 4 ≤ g ∧ (set = 2 ∨ set = 5) then some 0x05
    else if 4 ≤ g ∧ set < 2 ∧ !((arcOf s (cmdPart g c)).contains st) then some 0x03
    else if set < 3 ∧ (!stackUp s st ∨ (set = 0 ∧ !plotReported s k)) then some 0x03
    else none

/-- R589: the counter sample. -/
def counterQuery (g k : Nat) (c : Cmd) (s : State) : State :=
  let set := c.byte 9
  let live := decide (4 ≤ g) && decide (3 ≤ set)
  let s1 := if live then s else s.cntSwitch k false none
  let C := s1.cnt k
  let vals := (List.range (setSize set)).map fun i =>
    if live then (if ownCounter s (cmdPart g c) set i then tget 0 C.live i else 0) else tget 0 C.held i
  let flags := b2n C.boundary + 2 * b2n (s1.bit (cntPage k 0x044) 17) + 4 * b2n live
  let hdr := leBytes 1 set ++ leBytes 1 (c.byte 10) ++ leBytes 1 (c.byte 11) ++ leBytes 1 flags ++ leBytes 2 C.seq.toNat ++
    leBytes 2 C.heldTag.toNat ++ leBytes 8 C.time ++ leBytes 2 (setSize set) ++ List.replicate 14 0
  s1.queryDone g c (queryBytes hdr (vals.map (leBytes 8)) 8 (c.field 24 4))

/-- QUERY's effect. -/
def queryCmd (g : Nat) (c : Cmd) (s : State) : State :=
  let n := cmdPart g c
  let buf := c.field 24 4
  match c.byte 8 with
  | 0 => s.queryDone g c (queryBytes (partHeader s n) ((arcOf s n).map (stackEntry s)) 16 buf)
  | 1 =>
    (match counterRefusal s g c, querySet c with
     | none, some k => counterQuery g k c s
     | some st, _ => s.instant g c st 0
     | none, none => s.instant g c 0x02 0)
  | 2 =>
    let sl := c.byte 9
    if 7 < sl then s.instant g c 0x02 0
    else if !(s.slot n sl).loaded then s.instant g c 0x08 0
    else s.queryDone g c (queryBytes (symHeader (s.slot n sl) sl) (s.slot n sl).symbols 64 buf)
  | 3 => s.queryDone g c (queryBytes (landingRecord s (decide (4 ≤ g))) [] 1 buf)
  | _ => s.instant g c 0x02 0

/-- QUERY (R348). -/
def execQuery (g : RingId) (s : State) : Out := .next (startCmd (ringKey g) (· == 9) (queryCmd (ringKey g)) s)

/-! ### SELFTEST and SPARE_IN (R352, R353, R475, R512, R515 to R518) -/

/-- R475: the scope of a test. -/
def testScope (t : Nat) : Option Nat :=
  match t with
  | 1 | 2 | 3 => some 0
  | 4 => some 1
  | 5 | 6 | 10 => some 2
  | 7 | 8 => some 3
  | 9 => some 4
  | _ => none

/-- R352: the indices of a scope. -/
def scopeIndexOk (s : State) (scope st i : Nat) : Bool :=
  decide (st < 16) && (match scope with
    | 0 => decide (i < 32) && plotReported s (32 * st + i)
    | 1 => decide (i < 4)
    | 2 => true
    | 3 => decide (i < 8)
    | _ => decide (i < 13))

/-- SELFTEST's effect. -/
def selftestCmd (g : Nat) (c : Cmd) (s : State) : State :=
  let t := c.field 24 4
  let sc := c.byte 8
  let st := c.byte 16
  let ms := c.field 32 4
  if testScope t ≠ some sc ∨ !scopeIndexOk s sc st (c.byte 17) then s.instant g c 0x02 0
  else if 4 ≤ g ∧ (2 < sc ∨ !((arcOf s (cmdPart g c)).contains st)) then s.instant g c 0x05 0
  else if 32 ≤ s.faults.tests.length then s.instant g c 0x16 0
  else
    let r : TestReq :=
      { id := s.faults.nextTest, test := BitVec.ofNat 8 t, scopeKind := BitVec.ofNat 8 sc, stack := st, idx := c.byte 17, when := s.tb
        limit := (if ms = 0 then 1000 else ms) * 100000, job := some (g / 4, g, c.id) }
    let s1 := s.runCmd g c .waiting
    { s1 with faults := { s1.faults with tests := s1.faults.tests ++ [r], nextTest := s1.faults.nextTest + 1 } }

/-- SELFTEST (R352). -/
def execSelftest (g : RingId) (s : State) : Out := .next (startCmd (ringKey g) (· == 10) (selftestCmd (ringKey g)) s)

/-- R353: something of the partition or of the function still runs. -/
def notQuiesced (s : State) (g n : Nat) : Bool :=
  anyRun s n || ((List.range 4).any fun r => !(s.ring (g / 4 * 4 + r)).running.isEmpty) ||
  !(s.part n).winQ.isEmpty || !(s.part n).winOut.isEmpty

/-- SPARE_IN's start. -/
def spareInCmd (g : Nat) (c : Cmd) (s : State) : State :=
  let n := cmdPart g c
  let st := c.byte 16
  let p := c.byte 17
  if 1 < c.byte 8 ∨ 15 < st ∨ 31 < p then s.instant g c 0x02 0
  else if !((arcOf s n).contains st) ∨ !plotReported s (32 * st + p) then s.instant g c 0x03 0
  else if notQuiesced s g n then s.instant g c 0x0C 0
  else match spareSites s st with
    | [] => s.instant g c 0x0D 0
    | site :: _ =>
      let r : SpareRun := { stack := st, plot := p, site := site, lost := c.byte 8 == 1, part := n, job := (g / 4, g, c.id) }
      let s1 := s.runCmd g c .waiting
      { s1 with faults := { s1.faults with spares := s1.faults.spares ++ [r] } }

/-- SPARE_IN (R353, R512). -/
def execSpareIn (g : RingId) (s : State) : Out := .next (startCmd (ringKey g) (· == 11) (spareInCmd (ringKey g)) s)

end Sys2Proof.Machine
end

