-- ==== Sys2Proof/Machine/Graph.lean ====
section
/-!
DEFINITION. Graph.lean: graphs (R339 to R341): the payload of a graph image, LOAD_GRAPH, RUN_GRAPH and the ends of a run.
-/
namespace Sys2Proof.Machine

/-! ### The payload (R340) -/

/-- R340: fields of the graph header. -/
def gStacks (p : List Byte) : Nat := leAt p 6 1
def gPlots (p : List Byte) : Nat := leAt p 8 2
def gStreams (p : List Byte) : Nat := leAt p 10 2
def gSymbols (p : List Byte) : Nat := leAt p 12 2
def gPlotAt (p : List Byte) : Nat := leAt p 16 4
def gStreamAt (p : List Byte) : Nat := leAt p 20 4
def gSymbolAt (p : List Byte) : Nat := leAt p 24 4
def gProgAt (p : List Byte) : Nat := leAt p 28 4
def gProgLen (p : List Byte) : Nat := leAt p 32 4

/-- R340: the header is valid, its tables and the program area lie in the payload. -/
def graphHeaderOk (p : List Byte) : Bool :=
  let len := p.length
  let fits (a n : Nat) : Bool := a % 64 == 0 && decide (a + n ≤ len)
  decide (64 ≤ len) && p.take 4 == [0x47, 0x52, 0x50, 0x48] && leAt p 4 2 == 1 &&
  decide (1 ≤ gStacks p) && decide (gStacks p ≤ 16) && decide (1 ≤ gPlots p) && decide (gPlots p ≤ 512) && decide (gStreams p ≤ 32768) &&
  zeros p 7 8 && zeros p 14 16 && zeros p 36 64 &&
  fits (gPlotAt p) (16 * gPlots p) && fits (gStreamAt p) (32 * gStreams p) && fits (gSymbolAt p) (64 * gSymbols p) &&
  fits (gProgAt p) (gProgLen p)

/-- R340: one plot entry: arc index, logical plot, program offset and length. -/
structure PlotEnt where
  idx : Nat
  plot : Nat
  off : Nat
  len : Nat
  reserved : Bool
  deriving DecidableEq, Repr

/-- Plot entry `i`. -/
def plotEnt (p : List Byte) (i : Nat) : PlotEnt :=
  let e := (p.drop (gPlotAt p + 16 * i)).take 16
  { idx := leAt e 0 1, plot := leAt e 1 1, off := leAt e 4 4, len := leAt e 8 4, reserved := !(zeros e 2 4 && zeros e 12 16) }

/-- The plot entries. -/
def plotEnts (p : List Byte) : List PlotEnt := (List.range (gPlots p)).map (plotEnt p)

/-- R340: a plot entry is valid. -/
def plotEntOk (p : List Byte) (e : PlotEnt) : Bool :=
  decide (e.idx < gStacks p) && decide (e.plot < 32) && !e.reserved && e.off % 4 == 0 && decide (4 ≤ e.len) && decide (e.len ≤ 98304) &&
  decide (e.off + e.len ≤ gProgLen p)

/-- R340: one stream entry, with the arc index of its stack. -/
def streamEnt (p : List Byte) (i : Nat) : StreamEnt :=
  let e := (p.drop (gStreamAt p + 32 * i)).take 32
  { headgate := leAt e 0 1 == 1, stack := leAt e 1 1, plot := leAt e 2 1, num := leAt e 3 1, words := wordsOf (e.drop 4) 4 }

/-- The stream entries. -/
def streamEnts (p : List Byte) : List StreamEnt := (List.range (gStreams p)).map (streamEnt p)

/-- A word has no bit set outside its fields. -/
def inMask (m : Nat) (w : Word) : Bool := decide (w.toNat < 2 ^ m)

/-- R130, R131, R132, R340: the words of a stream entry hold nothing reserved and nothing out of range (log 60). -/
def streamWordsOk (n : Nat) (e : StreamEnt) : Bool :=
  let w (i : Nat) : Nat := dw e.words i
  if e.headgate then
    inMask 17 (nth 0 e.words 0) && inMask 22 (nth 0 e.words 1) && inMask 9 (nth 0 e.words 2) && inMask 16 (nth 0 e.words 3) &&
    !nbit (w 3) 7 && w 1 % 64 == 0 && decide (8 ≤ w 2) && decide (w 2 ≤ 256) && !(nbit (w 3) 6 && nbits (w 3) 8 8 == 0)
  else
    inMask 17 (nth 0 e.words 0) && inMask 15 (nth 0 e.words 1) && inMask 9 (nth 0 e.words 2) &&
    decide (8 ≤ w 2) && decide (w 2 ≤ 256) && (nbits (w 1) 0 5 == 16 || decide (nbits (w 1) 0 5 < n))

/-- R340: a stream entry is valid. -/
def streamEntOk (p : List Byte) (i : Nat) : Bool :=
  let b := (p.drop (gStreamAt p + 32 * i)).take 32
  let e := streamEnt p i
  decide (leAt b 0 1 < 2) && decide (e.stack < gStacks p) && decide (e.num < 32) &&
  ((plotEnts p).any fun x => x.idx == e.stack && x.plot == e.plot) &&
  zeros b (if e.headgate then 20 else 16) 32 && streamWordsOk (gStacks p) e

/-- R340: the payload is well formed. -/
def graphOk (p : List Byte) : Bool :=
  graphHeaderOk p &&
  (let ps := plotEnts p
   let names := ps.map fun e => (e.idx, e.plot)
   let ends := (streamEnts p).map fun e => (e.headgate, e.stack, e.plot, e.num)
   (ps.all (plotEntOk p)) && names.eraseDups.length == names.length &&
   ((List.range (gStreams p)).all (streamEntOk p)) && ends.eraseDups.length == ends.length)

/-! ### LOAD_GRAPH (R339, R439, R441) -/

/-- R457: the partition's graph key. -/
def graphKey (s : State) (n : Nat) : List Byte := (List.range 8).flatMap fun i => leBytes 4 (s.reg (psecReg n (0x040 + 4 * i))).toNat

/-- R441: a signature is asked for. -/
def sigWanted (s : State) (n : Nat) : Bool := s.bit (psecReg n 0x060) 0 || (graphKey s n).any (· != 0)

/-- R441: checks 2 and 3 of R439 against the partition's key. -/
def sigOk (s : State) (n : Nat) (l : List Byte) : Bool :=
  (graphKey s n).any (· != 0) && imgSigner l == graphKey s n && imgSigned l

/-- The stack position of arc index `i`. -/
def arcStack (s : State) (n i : Nat) : Nat := nth 0 (arcOf s n) i

/-- R339, step 4: the plot cannot be used. -/
def plotUnusable (s : State) (k : Nat) : Bool :=
  !plotReported s k || (s.plot k).failed.isSome || nbit (failedMask s (k / 32)) (k % 32) || fenced s k || (s.stk (k / 32)).lost

/-- R339: the status that ends a load without effect. -/
def loadRefusal (s : State) (n sl : Nat) (l : List Byte) : Option Nat :=
  let p := imgPayload l
  if !imgForm l 1 then some 0x07
  else if sigWanted s n ∧ !sigOk s n l then some 0x06
  else if !imgWhole l then some 0x06
  else if !graphOk p then some 0x07
  else if (arcOf s n).length < gStacks p then some 0x0E
  else
    let ks := (plotEnts p).map fun e => (arcStack s n e.idx, e.plot)
    if ks.any fun k => plotUnusable s (32 * k.1 + k.2) then some 0x0A
    else if (s.slot n sl).run.isSome ∨
        ((List.range 8).any fun i => i != sl && (s.slot n i).loaded && ks.any fun k => (s.slot n i).plots.contains k) then some 0x09
    else none

/-- R339, steps 3 and 5: a stream entry as it is written: stack positions for arc indices, the partition in the stream ID. -/
def placeStream (s : State) (n : Nat) (e : StreamEnt) : StreamEnt :=
  let w0 := BitVec.ofNat 32 (putBits (putBits (dw e.words 0) 12 4 n) 16 1 1)
  let d := nbits (dw e.words 1) 0 5
  let w1 := if e.headgate then nth 0 e.words 1
    else BitVec.ofNat 32 (putBits (dw e.words 1) 0 5 (if d = 16 then 16 else arcStack s n d))
  { e with stack := arcStack s n e.stack, words := [w0, w1, nth 0 e.words 2, nth 0 e.words 3] }

/-- R341: a stream end closes and opens anew: an empty headgate, a slot at full credit. -/
def State.reopen (s : State) (e : StreamEnt) : State :=
  let k := 32 * e.stack + e.plot
  if e.headgate then (s.setReg (hgReg k e.num 4) 0).updPlot k fun P => { P with hgs := tput {} P.hgs e.num {} }
  else s.setReg (slotReg k e.num 3) (BitVec.ofNat 32 (dw e.words 2))

/-- R339, step 5: a stream entry is written. -/
def State.writeStream (s : State) (e : StreamEnt) : State :=
  let k := 32 * e.stack + e.plot
  let addr (i : Nat) : Nat := if e.headgate then hgReg k e.num i else slotReg k e.num i
  let ws := if e.headgate then [0, 1, 2, 3] else [0, 1, 2]
  (ws.foldl (fun s i => s.setReg (addr i) (nth 0 e.words i)) s).reopen e

/-- R445: the measurement of slot `sl` of partition `n`: header and digest list, and the flag of an unsigned image. -/
def measSlot (n sl : Nat) : Nat := (n + 1) * 64 + 32 + sl

/-- R339, step 5 and 6. -/
def State.installGraph (s : State) (n sl : Nat) (l : List Byte) : State :=
  let p := imgPayload l
  let es := plotEnts p
  let str := (streamEnts p).map (placeStream s n)
  let s1 := es.foldl (fun s e =>
    s.updPlot (32 * arcStack s n e.idx + e.plot) fun P => { P with prog := tputs 0 P.prog 0 (slice p (gProgAt p + e.off) e.len) }) s
  let s2 := str.foldl State.writeStream s1
  let s3 := s2.updSlot n sl fun _ =>
    { plots := es.map fun e => (arcStack s n e.idx, e.plot), streams := str, loaded := true, runNo := 0
      symbols := (List.range (gSymbols p)).map fun i => slice p (gSymbolAt p + 64 * i) 64 }
  let flag : Byte := if sigWanted s n then 0 else 1
  { s3 with sec := { s3.sec with meas := tput [] s3.sec.meas (measSlot n sl) (sha256 (l.take (imgSigAt l)) ++ [flag]) } }

/-- The image has been read. -/
def loadImage (g : Nat) (c : Cmd) (l : List Byte) (s : State) : State :=
  let n := cmdPart g c
  match loadRefusal s n (c.byte 8) l with
  | some st => s.instant g c st 0
  | none => (s.installGraph n (c.byte 8) l).instant g c 0 (gPlots (imgPayload l))

/-- R339: a length of 0 unloads the slot. -/
def State.unloadSlot (s : State) (n sl : Nat) : State :=
  let s1 := s.updSlot n sl fun _ => {}
  { s1 with sec := { s1.sec with meas := tput [] s1.sec.meas (measSlot n sl) [] } }

/-- LOAD_GRAPH's effect. -/
def loadGraphCmd (image : List Byte) (g : Nat) (c : Cmd) (s : State) : State :=
  let n := cmdPart g c
  let a := c.field 16 8
  let len := c.field 24 4
  if 7 < c.byte 8 ∨ 67108864 < len then s.instant g c 0x02 0
  else if len = 0 then
    (if (s.slot n (c.byte 8)).run.isSome then s.instant g c 0x09 0 else (s.unloadSlot n (c.byte 8)).instant g c 0 0)
  else if !nbit (c.byte 9) 0 then (if image.length < len then s.hostDma g c else loadImage g c (image.take len) s)
  else if !addrOk s (some n) a len then s.instant g c 0x03 0
  else if devReadGo s a len then
    (let r := s.devRead a len .port
     if r.lost then r.st.instant g c 0x12 0
     else if r.poison then r.st.instant g c 0x06 0
     else loadImage g c r.data r.st)
  else s

/-- LOAD_GRAPH (R339). -/
def execLoadGraph (g : RingId) (image : List Byte) (s : State) : Out :=
  .next (startCmd (ringKey g) (· == 1) (loadGraphCmd image (ringKey g)) s)

/-! ### RUN_GRAPH (R341) -/

/-- R341, steps 2 and 4: arguments, token counters, release; R587: the plot's counter set switches. -/
def State.releasePlot (s : State) (k : Nat) (args : List Byte) (tag : Nat) : State :=
  let s1 := (List.range 64).foldl (fun s i => s.setFld (ctrReg k i) 0 16 0) s
  let s2 := s1.updPlot k fun P =>
    { P with data := tputs 0 P.data 0 args, kickAt := s.tb, stw := { P.stw with released := true, pc := 0x8000 } }
  s2.cntSwitch k true (some (BitVec.ofNat 16 tag))

/-- R341, R495: a run starts with its stream entries written anew; one whose graph holds a failed plot faults at once. -/
def State.startRun (s : State) (g : Nat) (c : Cmd) (n sl : Nat) : State :=
  let S := s.slot n sl
  let s1 := S.streams.foldl State.writeStream (s.runCmd g c .waiting)
  let s2 := S.plots.foldl (fun s p => s.releasePlot (32 * p.1 + p.2) ((c.bytes.drop 16).take (8 * c.byte 9)) c.tag) s1
  let s3 := s2.updSlot n sl fun S =>
    { S with runNo := S.runNo + 1, run := some { owner := (g, c.id), startAt := s.tb, timeout := c.field 10 2 } }
  (S.plots.filter fun p => (s.plot (32 * p.1 + p.2)).failed.isSome).foldl (fun s p => s.faultRun n sl (32 * p.1 + p.2)) s3

/-- RUN_GRAPH's effect. -/
def runGraphCmd (g : Nat) (c : Cmd) (s : State) : State :=
  let n := cmdPart g c
  let sl := c.byte 8
  if 7 < sl ∨ 6 < c.byte 9 then s.instant g c 0x02 0
  else if !(s.slot n sl).loaded then s.instant g c 0x08 0
  else if (s.slot n sl).run.isSome then s
  else s.startRun g c n sl

/-- RUN_GRAPH (R341). -/
def execRunGraph (g : RingId) (s : State) : Out := .next (startCmd (ringKey g) (· == 2) (runGraphCmd (ringKey g)) s)

/-- R143: a plot's queue reads EMPTY: nothing queued or running. -/
def queueEmpty (s : State) (k q : Nat) : Bool :=
  let P := s.plot k
  (P.queue q).entries.isEmpty && (match q with
    | 0 => P.arr.lane.isEmpty && P.arr.issued.isEmpty
    | 1 => P.vec.isNone
    | 2 => (plotChans k).all fun c => (s.chan c).desc.isNone
    | _ => P.norOut.isEmpty)

/-- The slot in whose run plot `k` still has a part to end. -/
def runOf (s : State) (k : Nat) : Option (Nat × Nat) :=
  match partOf s (k / 32) with
  | none => none
  | some n =>
    ((List.range 8).find? fun sl => (s.slot n sl).plots.contains (k / 32, k % 32) && (match (s.slot n sl).run with
      | some r => !r.ended.contains (k / 32, k % 32)
      | none => false)).map fun sl => (n, sl)

/-- R341, step 5: the plot's part ends; its steward is back in firmware. -/
def endPart (k : Nat) (s : State) : State :=
  match runOf s k with
  | some (n, sl) => (s.updPlot k fun P => { P with stw := { P.stw with released := false } }).partEnded n sl k
  | none => s

/-- PLOT_PART_END (R341). -/
def execPlotPartEnd (p : PlotId) (s : State) : Out :=
  let k := plotKey p
  .next (if plotRun s k && (s.plot k).stw.released && [0, 1, 2, 3].all (queueEmpty s k) then endPart k s else s)

/-- RUN_TIMEOUT (R341). -/
def execRunTimeout (n : Fin 16) (slot : Fin 8) (s : State) : Out :=
  .next (match (s.slot n.val slot.val).run with
    | some r => if landingRuns s && r.timeout != 0 then s.answerRun n.val slot.val 0x15 (runTime s r) else s
    | none => s)

end Sys2Proof.Machine
end

