-- ==== Sys2Proof/Machine/StopOps.lean ====
section
/-!
DEFINITION. StopOps.lean: the EN, STOPPING and STOPPED contract (R500 to R504) of plot queues, barge channels, rings and
partitions: what STOPPING discards, when a function reads STOPPED, and what the drain limit ends.
-/
namespace Sys2Proof.Machine

/-! ### Plot queues (R112) -/

/-- R500: a STOPPING queue with nothing left, its records written, reads STOPPED. -/
def State.queueStopped (s : State) (k q : Nat) : State :=
  if (s.queue k q).state = .stopping ∧ queueEmpty s k q ∧ !recsHeld (s.plot k) q then
    s.updQueue k q fun Q => { Q with state := .stopped }
  else s

/-- R65, R493: vectors in flight write every column. -/
def State.writeVecs (s : State) (k : Nat) : State :=
  (s.arr k).vecs.foldl (fun s v => (List.range 64).foldl (fun s c => if v.written ≤ c then accWrite s k c (writeCycle v c) else s) s) s

/-- R493, R500: the passes that are left stop at the vector boundary. -/
def State.expireArr (s : State) (k : Nat) : State :=
  let s1 := s.writeVecs k
  let xs := (s1.arr k).issued ++ (s1.arr k).lane.filter fun x => !x.rejected
  xs.foldl (fun s x => s.complete k 0 x.desc 0x20) (s1.clearArr k)

/-- R493, R500: the vector descriptor in the unit ends. -/
def State.expireVec (s : State) (k : Nat) : State :=
  match (s.plot k).vec with
  | some v => (s.updPlot k fun P => { P with vec := none }).complete k 1 v.desc 0x20
  | none => s

/-- R167: a descriptor in a channel ends; what is not written stays unwritten. -/
def State.expireDesc (s : State) (c : Nat) : State :=
  if (s.chan c).desc.isSome then (s.endDesc c 0x20).setBit (brgReg c 0x00C) 3 else s

/-- R500: the drain limit of a plot queue has passed. -/
def State.expireQueue (s : State) (k q : Nat) : State :=
  (match q with
   | 0 => s.expireArr k
   | 1 => s.expireVec k
   | 2 => (plotChans k).foldl State.expireDesc s
   | _ => s.norStopPlot k 0x20).queueStopped k q

/-- R500, R521: the limit in force for a plot's queues. -/
def queueLimit (s : State) (k : Nat) : Nat := s.fld (rhReg (k / 32) (k % 32 / 8) 0x04C) 16 16

/-- R112, R500: CLR_EN; a limit of 0 stops at once. -/
def queueStop (k q : Nat) (s : State) : State :=
  if (s.queue k q).state = .running then
    (let s1 := queueClrEn k q s
     if queueLimit s k = 0 then s1.expireQueue k q else s1)
  else s

/-- PQ_CLR_EN (R112). -/
def execPqClrEn (r : Req) (p : PlotId) (q : BitVec 2) (s : State) : Out :=
  .next (s.access r (pqReg (plotKey p) 0x044) (queueStop (plotKey p) q.toNat))

/-! ### Barge channels (R167, R168) -/

/-- R500: a STOPPING channel with nothing left reads STOPPED. -/
def State.chanStopped (s : State) (c : Nat) : State :=
  let C := s.chan c
  if C.state = .stopping ∧ C.desc.isNone ∧ C.heldRecs.isEmpty then s.setChan c { C with state := .stopped } else s

/-- R500: the drain limit of a channel has passed. -/
def State.expireChan (s : State) (c : Nat) : State :=
  if (s.chan c).state = .stopping then (s.expireDesc c).chanStopped c else s

/-- R168: descriptors that an I/O die channel has not taken are discarded with records. -/
def State.discardQueue (s : State) (c : Nat) : State :=
  let q := (s.chan c).queue
  let s1 := q.foldl (fun s e => s.iodEnd c e.1 e.2 0x20 0 true) (s.updChan c fun C => { C with queue := [] })
  if q = [] then s1 else s1.setBit (brgReg c 0x00C) 3

/-- R500: EN set. -/
def chanSetEn (c : Nat) (s : State) : State :=
  if (s.chan c).state = .stopped then (s.updChan c fun C => { C with state := .running }).setBit (brgReg c 0x00C) 0 else s

/-- R500: EN cleared. -/
def chanClrEn (c : Nat) (s : State) : State :=
  if (s.chan c).state = .running then
    (let s1 := ((s.updChan c fun C => { C with state := .stopping, stopAt := s.tb }).clrBit (brgReg c 0x00C) 0).discardQueue c
     if s.fld (brgReg c 0x054) 0 16 = 0 then s1.expireChan c else s1)
  else s

/-! ### Rings (R335, R500) -/

/-- R500: a STOPPING ring with no command and no entry held reads STOPPED. -/
def State.ringStopped (s : State) (g : Nat) : State :=
  let R := s.ring g
  if R.state = .stopping ∧ R.running.isEmpty ∧ R.held.isEmpty then s.setRing g { R with state := .stopped } else s

/-- R335: the drain limit of a ring has passed. -/
def State.expireRing (s : State) (g : Nat) : State :=
  if (s.ring g).state = .stopping then (s.abortRunning g (fun _ => true) 0x20).ringStopped g else s

/-- R335: a STOPPED ring of a RUNNING partition starts anew. -/
def ringSetEn (g : Nat) (s : State) : State :=
  if (s.ring g).state = .stopped ∧ (g < 4 ∨ (s.part (g / 4 - 1)).state = .running) then
    s.updRing g fun _ => { state := .running }
  else s

/-- R335: fetching stops; entries fetched and not started are dropped (log 57). -/
def ringClrEn (g : Nat) (s : State) : State :=
  if (s.ring g).state = .running then
    (let s1 := (s.updRing g fun R => { R with state := .stopping, queue := [], stopAt := s.tb }).updFunc (g / 4) fun F =>
       { F with reads := F.reads.filter fun r => !(r.ring == g && r.cmd.isNone) }
     if s.fld (ringReg g 0x1C) 0 16 = 0 then s1.expireRing g else s1)
  else s

/-- RING_SET_EN (R335). -/
def execRingSetEn (r : Req) (g : RingId) (s : State) : Out :=
  .next (s.access r (ringReg (ringKey g) 0x14) (ringSetEn (ringKey g)))

/-- RING_CLR_EN (R335). -/
def execRingClrEn (r : Req) (g : RingId) (s : State) : Out :=
  .next (s.access r (ringReg (ringKey g) 0x14) (ringClrEn (ringKey g)))

/-! ### Partitions (R503, R504) -/

/-- R329: the rings of a partition's function. -/
def ownRings (n : Nat) : List Nat := (List.range 4).map (4 * (n + 1) + ·)

/-- R503: a STOPPING partition whose rings are STOPPED and whose graphs have ended reads STOPPED. -/
def State.partStopped (s : State) (n : Nat) : State :=
  if (s.part n).state = .stopping ∧ (ownRings n).all (fun g => (s.ring g).state == .stopped) ∧ !anyRun s n then
    s.setPState n .stopped
  else s

/-- R503: the queues of a running plot stop at once, and its steward is held in firmware. -/
def State.haltPlot (s : State) (k : Nat) : State :=
  let s1 := [0, 1, 2, 3].foldl (fun s q => (queueClrEn k q s).expireQueue k q) s
  s1.updPlot k fun P => { P with stw := { P.stw with released := false } }

/-- R503: a run ends with ABORTED. -/
def State.expireRun (s : State) (n sl : Nat) : State :=
  match (s.slot n sl).run with
  | none => s
  | some r =>
    let ps := (s.slot n sl).plots.filter fun p => !r.ended.contains p
    ((ps.foldl (fun s p => s.haltPlot (32 * p.1 + p.2)) s).answerRun n sl 0x20 (runTime s r)).dropRun n sl

/-- R503: `PART_DRAIN_LIMIT` has passed. -/
def State.expirePart (s : State) (n : Nat) : State :=
  if (s.part n).state = .stopping then ((List.range 8).foldl (fun s sl => s.expireRun n sl) s).partStopped n else s

/-- R328, R215: EN set; the first time, the commons configuration locks. -/
def partSetEn (n : Nat) (s : State) : State :=
  if (s.part n).state = .idle ∨ (s.part n).state = .stopped then
    (let s1 := s.setPState n .running
     if (s.part n).enabled then s1 else (s1.updPart n fun P => { P with enabled := true }).lockPage (comReg n 0))
  else s

/-- R503: EN cleared: every enabled ring stops. -/
def partClrEn (n : Nat) (s : State) : State :=
  if (s.part n).state = .running then
    (let s1 := (ownRings n).foldl (fun s g => ringClrEn g s) ((s.setPState n .stopping).updPart n fun P => { P with stopAt := s.tb })
     if s.fld (partReg n 0x054) 0 16 = 0 then s1.expirePart n else s1)
  else s

/-- R359: the register a requester enables a partition by. -/
def partCtrlReg (r : Req) (n : Nat) : Nat :=
  match r with
  | .vf _ => partReg n 0x060
  | .core _ _ _ => partReg n 0x060
  | _ => lndReg (0x0C0 + 4 * n)

/-- PART_SET_EN (R328, R359). -/
def execPartSetEn (r : Req) (n : Fin 16) (s : State) : Out :=
  .next (s.access r (partCtrlReg r n.val) (partSetEn n.val))

/-- PART_CLR_EN (R503). -/
def execPartClrEn (r : Req) (n : Fin 16) (s : State) : Out :=
  .next (s.access r (partCtrlReg r n.val) (partClrEn n.val))

end Sys2Proof.Machine
end

