-- ==== Sys2Proof/Machine/Parts.lean ====
section
/-!
DEFINITION. Parts.lean: assignment, removal and reset of partitions (R326 to R328, R448, R497, R507).
-/
namespace Sys2Proof.Machine

/-- R357: `PART_CFGp`. -/
def partCfgReg (n : Nat) : Nat := lndReg (0x080 + 4 * n)

/-- R490: the stack is held out at boot. -/
def heldOut (s : State) (st : Nat) : Bool := nbit (s.reg (bootReg 0x04C)).toNat st

/-- R326, R327: an arc that a FREE partition may take. -/
def arcFree (s : State) (first log2 : Nat) : Bool :=
  let arc := arcFrom s first log2
  decide (log2 ≤ 4) && activeStack s first && arc.length == 2 ^ log2 &&
  arc.all fun st => !heldOut s st && (partOf s st).isNone

/-- R328: an assigned partition enters RESETTING: its stacks, which nothing used, are cleared. -/
def State.assignPart (s : State) (n first log2 : Nat) : State :=
  let s1 := (s.setPState n .resetting).updPart n fun P =>
    { P with first := first, sizeLog2 := log2, assigned := true, why := some .assign, enabled := false }
  let s2 := (arcOf s1 n).foldl (fun s st => s.clearStack st) s1
  let r : ResetRun := { scope := .part (Fin.ofNat 16 n), startAt := s.tb, limit := 0, cleared := true }
  { s2 with faults := { s2.faults with resets := s2.faults.resets ++ [r] } }

/-- R327: removal is accepted in IDLE, STOPPED and FAULTED. -/
def removable (s : State) (n : Nat) : Bool :=
  (s.part n).state == .idle || (s.part n).state == .stopped || (s.part n).state == .faulted

/-- R327: a write of `PART_CFGp` that is ignored. -/
def State.cfgRej (s : State) (n : Nat) : State := s.setBit (partCfgReg n) 31

/-- R327, R448: a write of `PART_CFGp`; a 1 to `CFG_REJ` clears it. -/
def writePartCfg (n : Nat) (v : Word) (s : State) : State :=
  let x := v.toNat
  let s0 := if nbit x 31 then s.clrBit (partCfgReg n) 31 else s
  let P := s0.part n
  if tdiLocked s0 n then s0.cfgRej n
  else if nbit x 7 then
    (if P.assigned then (if nbits x 0 4 = P.first ∧ nbits x 4 3 = P.sizeLog2 then s0 else s0.cfgRej n)
     else if P.state = .free ∧ arcFree s0 (nbits x 0 4) (nbits x 4 3) then
       (s0.setFld (partCfgReg n) 0 8 (nbits x 0 8)).assignPart n (nbits x 0 4) (nbits x 4 3)
     else s0.cfgRej n)
  else if P.state = .free then s0.setFld (partCfgReg n) 0 8 (nbits x 0 7)
  else if removable s0 n then s0.resetPart n .remove
  else s0.cfgRej n

/-- PART_ASSIGN (R327). -/
def execPartAssign (r : Req) (n : Fin 16) (v : Word) (s : State) : Out :=
  .next (s.access r (partCfgReg n.val) (writePartCfg n.val v))

/-- PART_REMOVE (R327). -/
def execPartRemove (r : Req) (n : Fin 16) (v : Word) (s : State) : Out :=
  .next (s.access r (partCfgReg n.val) (writePartCfg n.val v))

/-- PART_RESET (R497). -/
def execPartReset (r : Req) (n : Fin 16) (s : State) : Out :=
  .next (s.access r (lndReg (0x0C0 + 4 * n.val)) fun s => s.resetPart n.val .reset)

/-! ### The end of RESETTING (R328, R497, R507) -/

/-- R507: a lost stack that trains again is no longer lost. -/
def State.foundStack (s : State) (st : Nat) : State :=
  if (s.stk st).lost then (s.updStk st fun T => { T with lost := false }).clrBit (fltReg 0x040) st else s

/-- R495, R497: a stack comes out of reset: links up, cisterns filled, failed plots fenced again. -/
def State.releaseStack (s : State) (st : Nat) : State :=
  let s1 := (((s.updStk st fun T => { T with inReset := false }).linksUp st).filledStack st).startGov st
  (List.range 32).foldl (fun s p =>
    if (s.plot (32 * st + p)).failed.isSome then (s.setBit (rhReg st (p / 8) 0x040) (p % 8)).setBit (rhReg st (p / 8) 0x040) (8 + p % 8)
    else s) s1

/-- R327, R538: a removed partition is FREE: nothing of it is left, and its stacks are dormant. -/
def State.freePart (s : State) (n : Nat) : State :=
  let s1 := ((s.setPState n .free).setPart n {}).resetPage (comReg n 0)
  (arcOf s n).foldl (fun s st => s.requestVdd st 550) (s1.clrBit (partCfgReg n) 7)

/-- R450: a stopped TDI, once its reset has ended. -/
def State.tdiEnd (s : State) (n : Nat) : State :=
  if (s.part n).tdiStop then (s.setTdi n 0).updPart n fun P => { P with tdiStop := false } else s

/-- The reset of partition `n` has been cleared and waits for its end. -/
def partCleared (s : State) (n : Nat) : Bool :=
  s.faults.resets.any fun r => r.cleared && (match r.scope with | .part m => m.val == n | _ => false)

/-- The reset leaves the list of those under way. -/
def State.dropReset (s : State) (sel : Scope → Bool) : State :=
  { s with faults := { s.faults with resets := s.faults.resets.filter fun r => !(sel r.scope) } }

/-- A reset of partition `n`. -/
def isPart (n : Nat) : Scope → Bool
  | .part m => m.val == n
  | _ => false

/-- R328, R507: RESETTING ends. -/
def endResetting (n : Nat) (trained : Bool) (s : State) : State :=
  let arc := arcOf s n
  let s1 := s.dropReset (isPart n)
  match (s1.part n).why with
  | some .remove => (s1.tdiEnd n).freePart n
  | why =>
    let s2 := if trained then arc.foldl (fun s st => s.foundStack st) s1 else s1
    let live := arc.filter fun st => !(s2.stk st).lost
    let s3 := (live.foldl (fun s st => s.releaseStack st) s2).tdiEnd n
    let s4 := s3.updPart n fun P => { P with why := none }
    if live.length < arc.length then s4.setPState n .faulted
    else s4.setPState n (if why = some .assign then .idle else .stopped)

/-- RESETTING_END (R328). -/
def execResettingEnd (n : Fin 16) (trained : Bool) (s : State) : Out :=
  .next (if pkgUp s && (s.part n.val).state == .resetting && partCleared s n.val then endResetting n.val trained s else s)

end Sys2Proof.Machine
end

