-- ==== Sys2Proof/Machine/Resets.lean ====
section
/-!
DEFINITION. Resets.lean: plot and reach resets and the phases of every reset (R491 to R499), lost dies (R198 to R201, R505 to
R507), the forwarding of routers (R178, R199), defect proposals (R511, R523), self-tests (R475, R476, R515 to R517) and the
end of SPARE_IN (R512, R513).
-/
namespace Sys2Proof.Machine

/-! ### Plot and reach resets (R491, R495, R496, R521) -/

/-- R521: a write of `RH_PLOT_CTRL`. -/
def writePlotCtrl (st q : Nat) (v : Word) (s : State) : State :=
  let x := v.toNat
  let id (p : Nat) : PlotId := ⟨Fin.ofNat 16 st, Fin.ofNat 32 (8 * q + p)⟩
  let s1 := if nbit x 10 then s.beginReset (.reach (Fin.ofNat 16 st) (Fin.ofNat 4 q)) false false else s
  (setBits 8 (nbits x 0 8)).foldl (fun s p => if plotReported s (32 * st + 8 * q + p) then s.beginReset (.plot (id p)) (nbit x 8) (nbit x 9) else s) s1

/-- PLOT_RESET (R491). -/
def execPlotReset (r : Req) (st : Fin 16) (q : Fin 4) (v : Word) (s : State) : Out :=
  .next (s.access r (rhReg st.val q.val 0x044) (writePlotCtrl st.val q.val v))

/-- REACH_RESET (R496). -/
def execReachReset (r : Req) (st : Fin 16) (q : Fin 4) (s : State) : Out :=
  .next (s.access r (rhReg st.val q.val 0x044) (writePlotCtrl st.val q.val 0x400))

/-- R492: requests of the plot are still outstanding. -/
def plotBusy (s : State) (k : Nat) : Bool :=
  !(s.plot k).norOut.isEmpty || (plotChans k).any fun c => (s.chan c).phase == .moving

/-- R494, R521: the drain limit was reached with something outstanding. -/
def State.noteAbsorbed (s : State) (k : Nat) : State :=
  if plotBusy s k then s.setBit (rhReg (k / 32) (k % 32 / 8) 0x048) (8 + k % 8) else s

/-- R212, R230: the private segments of a cistern. -/
def privateSet (s : State) (k : Nat) : Nat :=
  match partOf s (k / 32) with
  | some n => 2 ^ (8 - cfgS s n) - 1
  | none => 255

/-- R491, R494, R495: the absorb and clear phases of one plot. -/
def State.absorbPlot (s : State) (k : Nat) (zero : Bool) : State :=
  let s1 := ((((s.noteAbsorbed k).abortTests fun t => decide (t.scopeKind.toNat < 3) && testCovers t k).clearPlot k).faultRuns k).count
    (512 + k / 8) 3 1
  if zero then s1.startFill k (privateSet s1 k) else s1

/-- The plots of a reach. -/
def reachPlots (s : State) (st q : Nat) : List Nat :=
  ((List.range 8).map fun p => 32 * st + 8 * q + p).filter (plotReported s)

/-- R494: something of partition `n` is outstanding. -/
def partBusy (s : State) (n : Nat) : Bool :=
  ((partRings n).any fun g => (s.ring g).running.any fun c => onPart n g c) || !(s.part n).winOut.isEmpty ||
  ((arcOf s n).any fun st => (List.range 32).any fun p => plotBusy s (32 * st + p))

/-- R335, R494: every ring command completes before the rings reset. -/
def State.abortAll (s : State) : State := (List.range 68).foldl (fun s g => s.abortCmds g (fun _ => true) 0x21) s

/-- R494: what remains of a scope is absorbed, and the scope is cleared. -/
def absorb (s : State) (r : ResetRun) : State :=
  match r.scope with
  | .plot p => s.absorbPlot (plotKey p) r.zeroFill
  | .reach st q => ((reachPlots s st.val q.val).foldl (fun s k => s.absorbPlot k r.zeroFill) s).clearHub st.val q.val
  | .part n => (if partBusy s n.val then s.setBit (partReg n.val 0x058) 16 else s).clearPart n.val
  | .package cold => (s.abortAll.clearPkg cold).startBoot !cold

/-- The reset waits for its release. -/
def State.markCleared (s : State) (sc : Scope) : State :=
  { s with faults := { s.faults with resets := s.faults.resets.map fun r => if r.scope = sc then { r with cleared := true } else r } }

/-- RESET_DRAIN_END (R494). -/
def execResetDrainEnd (sc : Scope) (s : State) : Out :=
  .next (match s.faults.resets.find? fun r => r.scope == sc && !r.cleared with
    | some r => if pkgUp s then (absorb s r).markCleared sc else s
    | none => s)

/-- R191, R495: the fence bits of a plot are lifted. -/
def State.liftFence (s : State) (k : Nat) : State :=
  let a := rhReg (k / 32) (k % 32 / 8) 0x040
  (s.clrBit a (k % 8)).clrBit a (8 + k % 8)

/-- R495: the fence of a failed plot is set again. -/
def State.setFence (s : State) (k : Nat) : State :=
  let a := rhReg (k / 32) (k % 32 / 8) 0x040
  (s.setBit a (k % 8)).setBit a (8 + k % 8)

/-- R495: a plot returns to service. -/
def State.releasePlotReset (s : State) (k : Nat) (retest ok floodOk : Bool) : State :=
  match (s.plot k).failed with
  | none => if retest && !ok then (s.liftFence k).failPlot k .selftest else s.liftFence k
  | some c =>
    if retest && ok && (c != .flood || floodOk) then (s.markOk k).liftFence k else s.setFence k

/-- R495: the private fill has ended. -/
def fillOver (s : State) (r : ResetRun) : Bool :=
  !r.zeroFill || (match r.scope with
    | .plot p => (s.slc (plotKey p)).fill.isNone
    | .reach st q => (reachPlots s st.val q.val).all fun k => (s.slc k).fill.isNone
    | _ => true)

/-- R495, R496: a plot or a reach is released; RESETTING_END releases a partition, and the boot a package. -/
def releaseScope (s : State) (r : ResetRun) (ok floodOk : Bool) : State :=
  match r.scope with
  | .plot p => (s.dropReset (· == r.scope)).releasePlotReset (plotKey p) r.retest ok floodOk
  | .reach st q => (reachPlots s st.val q.val).foldl (fun s k => s.releasePlotReset k false ok floodOk) (s.dropReset (· == r.scope))
  | _ => s

/-- RESET_RELEASE (R495). -/
def execResetRelease (sc : Scope) (testsOk floodOk : Bool) (s : State) : Out :=
  .next (match s.faults.resets.find? fun r => r.scope == sc && r.cleared with
    | some r => if pkgUp s && fillOver s r then releaseScope s r testsOk floodOk else s
    | none => s)

/-! ### Lost dies (R198 to R200, R505, R506) -/

/-- R506: the I/O die holds a lost stack in reset; the partition enters FAULTED. -/
def State.loseStack (s : State) (st : Nat) : State :=
  let own := partOf s st
  let s1 := (List.range 32).foldl (fun s p => s.norStop (32 * st + p) (fun _ => true) 0x12) s
  let s2 := ((s1.updStk st fun T => { T with lost := true, inReset := true }).setBit (fltReg 0x040) st).report own 0x0C 2 st 0 0
  match own with
  | some n => s2.faultPart n
  | none => s2

/-- R505, R599: a stack that is link-down without a deliberate reset is lost; during a stop this waits for the release. -/
def State.checkLost (s : State) (st : Nat) : State :=
  if s.dbg.stopAt.isNone && activeStack s st && !(s.stk st).inReset && farDown s 16 st then s.loseStack st else s

/-- D2D_LINK_DOWN (R199). -/
def execD2dLinkDown (die far : Fin 17) (s : State) : Out :=
  .next (if pkgUp s && !(modsTo die.val far.val).isEmpty && farDown s die.val far.val then
    (let s1 := (s.dropFar die.val far.val false).refreshRoute die.val
     if die.val = 16 then s1.checkLost far.val else s1) else s)

/-- R199: a packet for a far end that is down goes no further. -/
def deadEnd (s : State) (die site out : Nat) : Option Nat :=
  let far := (farEnd die (if die < 16 then out - 5 else 4 * site + (out - 5))).1
  if 5 ≤ out ∧ pkgUp s ∧ farDown s die far then some far else none

/-- ROUTER_FORWARD (R178): a packet, and a token on the token lane beside it; what is bound for a far end that is down is
discarded (R199). On the I/O die a site is the stack whose modules the port joins. -/
def execRouterForward (die : Fin 17) (site : Fin 36) (out : Fin 13) (s : State) : Out :=
  .next (if routerGo s die.val site.val out.val then
      forwardLane die.val site.val out.val true (forwardLane die.val site.val out.val false s)
    else match deadEnd s die.val site.val out.val with
      | some far => s.dropQueued die.val far
      | none => s)

/-! ### Proposals (R511, R523) -/

/-- R523: the oldest proposal leaves; its words 1 to 3 are captured. -/
def popProp (s : State) : State :=
  match s.faults.props with
  | [] => s.answer (leBytes 4 0)
  | d :: rest =>
    ((((({ s with faults := { s.faults with props := rest } } : State).capture (fltReg 0x04C) (nth 0 d 1)).capture (fltReg 0x050) (nth 0 d 2)).capture
      (fltReg 0x054) (nth 0 d 3)).answer (leBytes 4 (nth 0 d 0).toNat))

/-- FLT_PROP_POP (R523). -/
def execFltPropPop (r : Req) (s : State) : Out := .next (s.readAccess r (fltReg 0x048) popProp)

/-! ### Self-tests (R475, R476, R515 to R517) -/

/-- R515: a plot has nothing to do. -/
def plotIdle (s : State) (k : Nat) : Bool :=
  (runOf s k).isNone && [0, 1, 2, 3].all (queueEmpty s k) && (s.nor k).queue.isEmpty

/-- R515: the scope of a test that is not in-band is idle. -/
def testIdle (s : State) (t : TestReq) : Bool :=
  inBand t || (match t.scopeKind.toNat with
    | 0 => plotIdle s (32 * t.stack + t.idx)
    | 1 => (reachPlots s t.stack t.idx).all (plotIdle s)
    | 2 => ((List.range 32).all fun p => plotIdle s (32 * t.stack + p)) &&
      (t.test != 10 || (List.range 8).all fun c => !(s.core (8 * t.stack + c)).released)
    | 3 => s.bit (linkReg t.stack t.idx + 4) 1
    | _ => true)

/-- R515: two tests on overlapping scopes. -/
def testsMeet (a b : TestReq) : Bool :=
  if a.scopeKind.toNat < 3 ∧ b.scopeKind.toNat < 3 then
    a.stack == b.stack && (a.scopeKind == 2 || b.scopeKind == 2 ||
      (if a.scopeKind = b.scopeKind then a.idx == b.idx
       else if a.scopeKind = 0 then a.idx / 8 == b.idx else a.idx == b.idx / 8))
  else a.scopeKind == b.scopeKind && a.stack == b.stack && a.idx == b.idx

/-- The unit under test is out of reset. -/
def testUnitUp (s : State) (t : TestReq) : Bool :=
  pkgUp s && stackUp s t.stack && (t.scopeKind != 0 || plotUp s (32 * t.stack + t.idx))

/-- R299, R516: the cross-check of every bank; management software started it if the physical function or the boot did. -/
def State.startTest (s : State) (t : TestReq) : State :=
  match t.test.toNat with
  | 2 => s.updPlot (32 * t.stack + t.idx) fun P => { P with tank := [], tankPoison := [], acc := [], accPoison := [] }
  | 6 => (List.range 32).foldl (fun s p => if plotReported s (32 * t.stack + p) then
      s.startXchk (32 * t.stack + p) (2 ^ 32 - 1) (match t.job with | some j => j.1 == 0 | none => true) else s) s
  | 9 => s.updSensor (16 * t.stack + t.idx) fun X => { X with calibrating := true }
  | _ => s

/-- SELFTEST_START (R515). -/
def execSelftestStart (id : Nat) (s : State) : Out :=
  .next (match s.faults.tests.find? fun t => t.id == id with
    | none => s
    | some t =>
      let ahead := s.faults.tests.takeWhile fun x => x.id != id
      if testUnitUp s t && testIdle s t && !((ahead ++ s.faults.running).any (testsMeet t)) then
        ({ s with faults := { s.faults with tests := s.faults.tests.filter fun x => x.id != id, running := s.faults.running ++ [t] } }).startTest t
      else s)

/-- R476: test 0x05 reads every code word of the stack; only words that a fault has touched can be bad. -/
def State.verifyStack (s : State) (st : Nat) : State :=
  (s.chk.filter fun e => e.1 / 2147483648 == st).foldl (fun s e => (readWord s (e.1 / 67108864) (e.1 % 67108864) .scrub).1) s

/-- R476: what a failed test does to its unit. -/
def State.testFailed (s : State) (t : TestReq) : State :=
  match t.test.toNat with
  | 1 | 2 | 3 => s.failPlot (32 * t.stack + t.idx) .selftest
  | 4 => (reachPlots s t.stack t.idx).foldl (fun s k => s.failPlot k .selftest) s
  | 7 => (s.setFld (linkReg t.stack t.idx) 0 2 3).refreshRoute t.stack
  | 9 => s.calFailed t.stack t.idx
  | 10 => s.setBit (bootReg 0x04C) (16 + t.stack)
  | _ => s

/-- R476: what a test does when it ends, passed or failed. -/
def State.testEnded (s : State) (t : TestReq) (ok : Bool) : State :=
  match t.test.toNat with
  | 5 => s.verifyStack t.stack
  | 9 => s.updSensor (16 * t.stack + t.idx) fun X => { X with calibrating := false, calFail := X.calFail && !ok }
  | _ => s

/-- SELFTEST_DONE (R476). -/
def execSelftestDone (id : Nat) (ok : Bool) (code : Word) (s : State) : Out :=
  .next (match s.faults.running.find? fun t => t.id == id with
    | none => s
    | some t =>
      let s1 := { s with faults := { s.faults with running := s.faults.running.filter fun x => x.id != id } }
      let s2 := s1.testEnded t ok
      let s3 := if ok then s2 else s2.testFailed t
      match t.job with
      | some (_, g, c) => s3.finishCmd g c (if ok then 0 else 0x17) (if ok then 0 else code.toNat)
      | none => s3)

/-- BUSY_TIMEOUT (R517). -/
def execBusyTimeout (id : Nat) (s : State) : Out :=
  .next (match s.faults.tests.find? fun t => t.id == id with
    | none => s
    | some t =>
      let s1 := { s with faults := { s.faults with tests := s.faults.tests.filter fun x => x.id != id } }
      match t.job with
      | some (_, g, c) => s1.finishCmd g c 0x16 0
      | none => s1)

/-! ### The end of SPARE_IN (R512, R513) -/

/-- R513: SPARE_IN fails and changes nothing. -/
def State.spareFail (s : State) (x : SpareRun) (status : Nat) : State :=
  ({ s with faults := { s.faults with spares := s.faults.spares.filter fun y => y != x } }).finishCmd x.job.2.1 x.job.2.2 status 0

/-- R512: the words of the old cistern as the spare holds them: poison and uncorrectable words as poison. -/
def State.copyCistern (s : State) (k : Nat) : State :=
  (s.chk.filter fun e => e.1 / 67108864 == k).foldl (fun s e =>
    let r := readWord s k (e.1 % 67108864) .copy
    r.1.storeWord k (e.1 % 67108864) r.2.1 r.2.2 .copy) s

/-- R512: graph slots that held the plot are emptied. -/
def State.emptySlots (s : State) (n k : Nat) : State :=
  (List.range 8).foldl (fun s sl => if (s.slot n sl).plots.contains (k / 32, k % 32) then s.unloadSlot n sl else s) s

/-- R512, steps 2 to 7. -/
def State.spareDone (s : State) (x : SpareRun) : State :=
  let k := 32 * x.stack + x.plot
  let old := siteOf s k
  let s1 := if x.lost then ((List.range 8).foldl (fun s g => s.zeroSegment k g) s) else s.copyCistern k
  let s2 := ((s1.setSlc k {}).setNor k {}).resetPage (slcReg k 0)
  let s3 := ((s2.resetPage (norReg k 0)).setReg (slcReg k 0x048) (if x.lost then 0xFFFF else 0)).clearPlot k
  let s4 := s3.updPlot k fun P => { P with prog := [] }
  let s5 := s4.setFld (dfReg x.stack (0x040 + x.plot / 4 * 4)) (8 * (x.plot % 4)) 6 x.site
  let s6 := ((s5.updStk x.stack fun T => { T with usedSites := T.usedSites ++ [old] }).markOk k).liftFence k
  let s7 := s6.emptySlots x.part k
  ({ s7 with faults := { s7.faults with spares := s7.faults.spares.filter fun y => y != x } }).finishCmd x.job.2.1 x.job.2.2 0 k

/-- SPARE_COPY_DONE (R512). -/
def execSpareCopyDone (st : Fin 16) (p : Fin 32) (testsOk floodOk copyOk : Bool) (s : State) : Out :=
  .next (match s.faults.spares.find? fun x => x.stack == st.val && x.plot == p.val with
    | none => s
    | some x =>
      if !pkgUp s then s
      else if !testsOk || !floodOk then (s.propose x.stack x.plot (badSiteEntry x.stack x.site)).spareFail x 0x17
      else if !x.lost && (!copyOk || !cisternUp s (32 * x.stack + x.plot)) then s.spareFail x 0x12
      else s.spareDone x)

end Sys2Proof.Machine
end

