-- ==== Sys2Proof/Machine/Steward.lean ====
section
/-!
DEFINITION. Steward.lean: the steward's traps and its watchdog (R95, R99, R150).
-/
namespace Sys2Proof.Machine

/-- The steward of plot `k` executes: nothing holds its plot, and the debug module has not halted it. -/
def stewardRuns (s : State) (k : Nat) : Bool :=
  plotUp s k && (s.plot k).failed.isNone && !stopped s (plotUnit k) && !quiesced s k && hartFree s (1024 + k)

/-- The trap handler's address (PRESUMED from RISC-V, log 15): vectored mode adds 4 times the number of an interrupt. -/
def trapPc (mtvec cause : BitVec 64) : BitVec 64 :=
  let base := mtvec &&& ~~~3#64
  if nbits mtvec.toNat 0 2 = 1 ∧ nbit cause.toNat 63 then base + BitVec.ofNat 64 (4 * nbits cause.toNat 0 63) else base

/-- R99: a trap to the firmware handler. -/
def Steward.trap (w : Steward) (cause tval : BitVec 64) : Steward :=
  let m := w.mstatus.toNat
  { w with mepc := w.pc, mcause := cause, mtval := tval, pc := trapPc w.mtvec cause
           mstatus := BitVec.ofNat 64 (putBits (putBits (putBits m 7 1 (nbits m 3 1)) 3 1 0) 11 2 3) }

/-- STEWARD_EXCEPTION (R99). -/
def execStewardException (p : PlotId) (cause tval : BitVec 64) (s : State) : Out :=
  .next (if stewardRuns s (plotKey p) then
    (s.updPlot (plotKey p) fun P => { P with stw := P.stw.trap cause tval }).hartStepped (1024 + plotKey p) else s)

/-- R99: firmware declares a fault. -/
def stewardFault (k : Nat) (s : State) : State := (s.setBit (pqReg k 0x07C) 30).failPlot k .steward

/-- STW_WDOG_FAULT (R99). -/
def execStwWdogFault (r : Req) (p : PlotId) (s : State) : Out :=
  .next (s.access r (pqReg (plotKey p) 0x07C) (stewardFault (plotKey p)))

/-- R150: the period starts again. -/
def kickDog (k : Nat) (s : State) : State := s.updPlot k fun P => { P with kickAt := s.tb }

/-- STW_WDOG_KICK (R150). -/
def execStwWdogKick (r : Req) (p : PlotId) (s : State) : Out :=
  .next (s.access r (pqReg (plotKey p) 0x07C) (kickDog (plotKey p)))

/-- R99, R150, R597: the watchdog is enabled and not paused. -/
def dogRuns (s : State) (k : Nat) : Bool :=
  plotUp s k && (s.plot k).failed.isNone && s.dbg.stopAt.isNone && s.fld (pqReg k 0x07C) 0 24 != 0

/-- STEWARD_WATCHDOG_EXPIRY (R99). -/
def execStewardWatchdogExpiry (p : PlotId) (s : State) : Out :=
  .next (if dogRuns s (plotKey p) then s.failPlot (plotKey p) .watchdog else s)

end Sys2Proof.Machine
end

