-- ==== Sys2Proof/Machine/Coll.lean ====
section
/-!
DEFINITION. Coll.lean: the collective engine (R384 to R395): its endpoints, its descriptors, the packets it sends, and how a
collective ends.
-/
namespace Sys2Proof.Machine

/-! ### Scatter-add packets of the engine (R226) -/

/-- R388: result bytes at `DST` of a collective of `p` members. -/
def collResult (d : Desc) (p : Nat) : Nat :=
  let b := dw d 6 + dw d 7 * 2 ^ 32
  match df d 0 0 8 with
  | 1 => b
  | 2 => b / p
  | 3 => p * b
  | 5 => b
  | _ => 0

/-- R388: `DST`. -/
def collDst (d : Desc) : Nat := dw d 4 + dw d 5 * 2 ^ 32

/-- The device address lies in the result of collective `C`. -/
def inResult (n : Nat) (C : Coll) (addr : Nat) : Bool :=
  let a := commonsAddr n (collDst C.desc)
  decide (a ≤ addr) && decide (addr < a + collResult C.desc C.members.length)

/-- R391: collectives whose result an operation at `addr` found or left poisoned. -/
def markColl (addr : Nat) (C : Coll) : Coll := if inResult (nbits addr 40 4) C addr then { C with poisoned := true } else C

/-- The same in every endpoint. -/
def State.markPoisoned (s : State) (addr : Nat) : State :=
  (List.range 32).foldl (fun s e => if (s.ep e).running = [] then s
    else s.updEp e fun E => { E with running := E.running.map (markColl addr) }) s

/-- R226: the engine's open packet reaches its slice. -/
def State.flushSap (s : State) : State :=
  s.coll.sap.foldl (fun s e =>
    let r := s.devWeir e.1.toNat e.2.1 e.2.2.1 e.2.2.2
    if r.poison then r.st.markPoisoned e.2.1 else r.st) { s with coll := { s.coll with sap := [] } }

/-- Nothing makes the packet wait at its slice. -/
def sapGo (s : State) : Bool := s.coll.sap.all fun e => devWriteGo s e.2.1 e.2.2.1.length

/-- The slice an address lies in. -/
def sliceOf (s : State) (addr : Nat) : Option Nat := (devPlace s addr).map (·.1)

/-- R226: one more element: a full packet, or one for another slice, goes first. -/
def State.addSap (s : State) (op addr : Nat) (data : List Byte) (bad : Bool) : State :=
  let es := s.coll.sap
  let bytes := (es.map fun e => e.2.2.1.length).foldl (· + ·) 0
  let full := decide (8 ≤ es.length) || decide (256 < bytes + data.length) ||
    es.any fun e => sliceOf s e.2.1 != sliceOf s addr
  let s1 := if full then s.flushSap else s
  { s1 with coll := { s1.coll with sap := s1.coll.sap ++ [(BitVec.ofNat 4 op, addr, data, bad)] } }

/-- SCATTER_ADD_PACKET_SEND (R226): of a barge channel, or of the collective engine. -/
def execScatterAddPacketSend (c : Option ChanId) (s : State) : Out :=
  .next (match c with
    | some c => sendPacket (chanKey c) (s.pump (chanKey c))
    | none => if sapGo s then s.flushSap else s)

/-! ### Descriptors (R388) -/

def cOp (d : Desc) : Nat := df d 0 0 8
def cSlot (d : Desc) : Nat := df d 0 8 4
def cRed (d : Desc) : Nat := df d 0 12 2
def cFmt (d : Desc) : Nat := df d 0 14 5
def cSrcQ (d : Desc) : Bool := df d 0 19 1 == 1
def cQueue (d : Desc) : Nat := df d 0 20 4
def cSrc (d : Desc) : Nat := dw d 2 + dw d 3 * 2 ^ 32
def cBytes (d : Desc) : Nat := dw d 6 + dw d 7 * 2 ^ 32
def cPeer (d : Desc) : Nat := df d 8 0 16
def cTag (d : Desc) : Nat := df d 8 16 16
def cStatus (d : Desc) : Nat := dw d 9 + dw d 10 * 2 ^ 32
def cTokDst (d : Desc) : Loc := ⟨BitVec.ofNat 5 (df d 11 0 5), BitVec.ofNat 5 (df d 11 5 5)⟩

/-- R224, R388: the weir operation of a reduction. -/
def collWeir (d : Desc) : Option Nat :=
  match cRed d, cFmt d with
  | 0, 0x00 => some 0x0
  | 0, 0x01 => some 0x1
  | 0, 0x02 => some 0x2
  | 0, 0x0E => some 0x3
  | 0, 0x0F => some 0x6
  | 1, 0x0E => some 0x4
  | 1, 0x0F => some 0x7
  | 2, 0x0E => some 0x5
  | 2, 0x0F => some 0x8
  | _, _ => none

/-- R388: bytes of the device's own contribution. -/
def collSource (d : Desc) : Nat := if 1 ≤ cOp d ∧ cOp d ≤ 4 then cBytes d else 0

/-- R388: a range of the commons. -/
def inCommons (s : State) (n off len : Nat) : Bool := len == 0 || decide (off + len ≤ commonsSize s n)

/-- R388: fields that no group decides. -/
def collFieldsOk (s : State) (n : Nat) (d : Desc) : Bool :=
  decide (1 ≤ cOp d) && decide (cOp d ≤ 6) && (collWeir d).isSome &&
  (!cSrcQ d || decide (1 ≤ cQueue d) && decide (cQueue d ≤ 8)) &&
  cSrc d % 256 == 0 && collDst d % 256 == 0 && cBytes d % 256 == 0 && decide (cBytes d ≤ 2 ^ 36) && cStatus d % 8 == 0 &&
  inCommons s n (cStatus d) 8 && (cSrcQ d || inCommons s n (cSrc d) (collSource d))

/-- R388, R389: fields that the group's `p` members decide. -/
def collGroupOk (s : State) (n : Nat) (d : Desc) (p rank : Nat) : Bool :=
  (cOp d != 2 || cBytes d % (256 * p) == 0) && inCommons s n (collDst d) (collResult d p) &&
  (!(cOp d == 4 || cOp d == 5) || decide (cPeer d < p) && cPeer d != rank)

/-- R403: `COLL_GRP_STAT.STATE`. -/
def grpState (G : Group) : GState := if G.form.isSome then .forming else G.state

/-- R388, R391, R393: the status of a descriptor that does not start. -/
def collRefusal (s : State) (n : Nat) (d : Desc) (bad : Bool) : Option Nat :=
  let G := s.grp (cSlot d)
  if bad || grpOwner s (cSlot d) != some n || !collFieldsOk s n d then some 0x54
  else match grpState G with
    | .severed => some 0x50
    | .active =>
      if dw d 1 ≠ 0 ∧ dw d 1 ≠ G.epoch.toNat then some 0x53
      else if !collGroupOk s n d G.members.length G.rank then some 0x54
      else none
    | _ => some 0x53

/-! ### Packets (R380 to R383) -/

/-- R379: this device's ID. -/
def ownId (s : State) : BitVec 16 := BitVec.ofNat 16 (s.fld (xpkReg 0x040) 0 16)

/-- R381: the port mask of the entry of device `d`, if it is valid. -/
def routeMask (s : State) (d : Nat) : Option Nat :=
  let a := regAddr 16 (0x010 + d / 256) (0x800 + 8 * (d % 256))
  if d < 4096 ∧ s.bit (a + 4) 0 then some (s.fld a 0 32) else none

/-- R381, R367: a port that a packet may be given to: it is ACTIVE, or in a retrain, where packets wait (log 43). -/
def portOpen (s : State) (n : Nat) : Bool :=
  ((s.xng n).state == .active || (s.xng n).state == .retrain) && (s.xng n).fstate == .running

/-- R381: the ports a packet to `d` may take. -/
def routePorts (s : State) (d : Nat) : List Nat :=
  match routeMask s d with
  | some m => (setBits 32 m).filter (portOpen s)
  | none => []

/-- R381: the port of a packet; the hash is open, but one for each source, destination and group (log 5). -/
def portOf (s : State) (p : XPkt) : Option Nat :=
  let ps := routePorts s p.dst.toNat
  if ps = [] then none else some (nth 0 ps (Config.openFn 7 [p.src.toNat, p.dst.toNat, p.group.toNat] % ps.length))

/-- The engine's packet waits for a port. -/
def State.postPkt (s : State) (p : XPkt) : State :=
  { s with coll := { s.coll with out := s.coll.out ++ [⟨p, none⟩] } }

/-- A packet of the group to each other member that a route leads to. -/
def State.postAll (s : State) (members : List (BitVec 16)) (p : XPkt) : State :=
  (members.filter fun m => m != ownId s && routePorts s m.toNat != []).foldl
    (fun s m => s.postPkt { p with src := ownId s, dst := m }) s

/-! ### Ends of a collective (R391) -/

/-- R391: the status record, and the token. -/
def State.collRecord (s : State) (e n : Nat) (d : Desc) (status seq epoch : Nat) : State :=
  let rec8 := leBytes 2 (status % 256) ++ leBytes 2 seq ++ leBytes 4 epoch
  let s1 := if cStatus d % 8 = 0 ∧ inCommons s n (cStatus d) 8 then (s.devWrite (commonsAddr n (cStatus d)) rec8 false .port).st else s
  let src : Loc := ⟨16, BitVec.ofNat 5 e⟩
  if df d 11 16 1 = 1 ∧ tokDestOk s (some n) (cTokDst d) then
    s1.inject 3 src (cTokDst d) (.add (cTokDst d) src (BitVec.ofNat 6 (df d 11 10 6)) 1)
  else s1

/-- A collective in flight ends with `status`. -/
def State.endColl (s : State) (e : Nat) (C : Coll) (status : Nat) : State :=
  let s1 := s.updEp e fun E => { E with running := E.running.filter fun X => !(X.slot == C.slot && X.seq == C.seq) }
  match epOwner s e with
  | some n => s1.collRecord e n C.desc status (C.seq.toNat % 65536) (s.grp C.slot).epoch.toNat
  | none => s1

/-- The collectives in flight on a slot, with their endpoints. -/
def collsOf (s : State) (g : Nat) : List (Nat × Coll) :=
  (List.range 32).flatMap fun e => ((s.ep e).running.filter fun C => C.slot == g).map fun C => (e, C)

/-- R383: LOST for collective `seq` of the group in slot `g`, to every other member. -/
def State.sendLost (s : State) (g : Nat) (seq : BitVec 16) : State :=
  let G := s.grp g
  s.postAll G.members { kind := .lost, src := 0, dst := 0, group := G.gid, epoch := G.epoch, seq := seq }

/-- R383: a DATA packet of this device is lost: LOST is sent, and the collective ends. -/
def State.lostData (s : State) (p : XPkt) : State :=
  match (List.range 16).find? fun g => (s.grp g).state == .active && (s.grp g).gid == p.group && (s.grp g).epoch == p.epoch with
  | none => s
  | some g =>
    let s1 := s.sendLost g p.seq
    match (collsOf s1 g).find? fun x => BitVec.ofNat 16 x.2.seq.toNat == p.seq with
    | some (e, C) => s1.endColl e C 0x51
    | none => s1

/-! ### Contributions and results (R389) -/

/-- R389: bytes that member `rank` sends to rank `q`; a barrier's message counts as one. -/
def collSend (C : Coll) (q : Nat) : Nat :=
  if q = C.rank then 0
  else match cOp C.desc with
    | 1 => cBytes C.desc
    | 2 => cBytes C.desc / C.members.length
    | 3 => cBytes C.desc
    | 4 => if q = cPeer C.desc then cBytes C.desc else 0
    | 6 => 1
    | _ => 0

/-- R389: bytes that come from rank `q`. -/
def collRecv (C : Coll) (q : Nat) : Nat :=
  if q = C.rank then 0
  else match cOp C.desc with
    | 1 => cBytes C.desc
    | 2 => cBytes C.desc / C.members.length
    | 3 => cBytes C.desc
    | 5 => if q = cPeer C.desc then cBytes C.desc else 0
    | 6 => 1
    | _ => 0

/-- R389: where byte `pos` of the own contribution lies in the result; none where it is not part of it. -/
def localPlace (C : Coll) (pos : Nat) : Option Nat :=
  let part := cBytes C.desc / C.members.length
  match cOp C.desc with
  | 1 => some pos
  | 2 => if C.rank * part ≤ pos ∧ pos < (C.rank + 1) * part then some (pos - C.rank * part) else none
  | 3 => some (C.rank * cBytes C.desc + pos)
  | _ => none

/-- R405: `COLL_CNT_BYTES`. -/
def State.countColl (s : State) (e n : Nat) : State := s.count 592 (196 + e) n

/-- R389: the local stage takes one word of the contribution. -/
def localWord (e n : Nat) (x : State × Coll) (w : List Byte × Bool) : State × Coll :=
  let C := x.2
  let C1 := { C with contrib := C.contrib ++ [w], poisoned := C.poisoned || w.2 }
  match localPlace C (32 * C.contrib.length) with
  | none => (x.1, C1)
  | some o => (((x.1.devWrite (commonsAddr n (collDst C.desc + o)) w.1 w.2 .port).st).countColl e 32, C1)

/-- R388: the contribution of a descriptor that reads the commons. -/
def collWords (s : State) (n off : Nat) : Nat → State × List (List Byte × Bool)
  | 0 => (s, [])
  | k + 1 =>
    let r := s.devRead (commonsAddr n off) 32 .port
    let x := collWords r.st n (off + 32) k
    (x.1, (r.data, r.poison) :: x.2)

/-- The words of a flit. -/
def flitWords (f : FlitData) : List (List Byte × Bool) :=
  [(slice f.bytes 0 32, f.poison.toNat % 16 != 0), (slice f.bytes 32 32, f.poison.toNat / 16 != 0)]

/-! ### Endpoints (R384) -/

/-- The fabric place of an endpoint. -/
def epLoc (e : Nat) : Loc := ⟨16, BitVec.ofNat 5 e⟩

/-- The stop unit of an endpoint. -/
def epUnit (e : Nat) : UnitId := ⟨16, 8, e⟩

/-- R384: flits held in queue `q`. -/
def epQueue (s : State) (e q : Nat) : List FlitData := tget [] (s.ep e).queues q

/-- R187: the front flit of queue `q` is taken; credit goes back at 8 flits or when the queue empties. -/
def State.epTake (s : State) (e q : Nat) : State :=
  let l := (epQueue s e q).drop 1
  let g := tget ({} : Hg) (s.ep e).hgs q
  let owed := g.owed + 1
  let send := decide (8 ≤ owed) || l.isEmpty
  let s1 := s.updEp e fun E => { E with
    queues := tput [] E.queues q l, hgs := tput {} E.hgs q { g with owed := if send then 0 else owed } }
  match g.src with
  | some (die, plot, slot) =>
    let dst : Loc := ⟨BitVec.ofNat 5 die, BitVec.ofNat 5 plot⟩
    if send then s1.inject 3 (epLoc e) dst (.credit dst (epLoc e) (BitVec.ofNat 5 slot) (BitVec.ofNat 7 owed)) else s1
  | none => s1

/-- Collective `C` of an endpoint has come to be `C'`. -/
def State.setColl (s : State) (e : Nat) (C : Coll) : State :=
  s.updEp e fun E => { E with running := E.running.map fun X => if X.slot = C.slot ∧ X.seq = C.seq then C else X }

/-- The collective that takes flits of queue `q`: the oldest that still wants some. -/
def wantsFlits (s : State) (e q : Nat) : Option Coll :=
  (s.ep e).running.find? fun C => cSrcQ C.desc && cQueue C.desc == q && decide (32 * C.contrib.length < collSource C.desc)

/-- R384, R389: contributions that arrive on queue `q`. -/
def State.feedColl (s : State) (e n q : Nat) : Nat → State
  | 0 => s
  | k + 1 =>
    match epQueue s e q, wantsFlits s e q with
    | f :: _, some C =>
      let r := (flitWords f).foldl (localWord e n) (s.epTake e q, C)
      (r.1.setColl e r.2).feedColl e n q k
    | _, _ => s

/-- R388, R390: a descriptor that may start becomes collective `seq` of its slot. The engine grants credit to those it
expects data from (R382); how much is open (log 5). -/
def State.startColl (s : State) (e n : Nat) (d : Desc) (seq : Word) : State :=
  let G := s.grp (cSlot d)
  let C : Coll := { slot := cSlot d, seq := seq, desc := d, members := G.members, rank := G.rank }
  let r := if cSrcQ d then (s, []) else collWords s n (cSrc d) (collSource d / 32)
  let x := r.2.foldl (localWord e n) (r.1, C)
  let s1 := x.1.updEp e fun E => { E with running := E.running ++ [x.2] }
  let s2 := if cSrcQ d then s1.feedColl e n (cQueue d) (epQueue s1 e (cQueue d)).length else s1
  (List.range G.members.length).foldl (fun s q =>
    if collRecv C q = 0 then s
    else (s.drawn).postPkt { kind := .credit, src := ownId s, dst := nth 0 G.members q, group := G.gid, epoch := G.epoch,
                             seq := 0, off := s.free }) s2

/-- COLLECTIVE_DESCRIPTOR's effect. -/
def takeCollDesc (e n : Nat) (f : FlitData) (s : State) : State :=
  let d := wordsOf f.bytes 16
  let s1 := s.epTake e 0
  let G := s1.grp (cSlot d)
  let own := grpOwner s1 (cSlot d) == some n
  let numbered := own && (grpState G == .active || grpState G == .severed)
  let seq := G.seq + 1
  let s2 := if numbered then s1.updGrp (cSlot d) fun G => { G with seq := seq } else s1
  match collRefusal s1 n d (f.poison != 0) with
  | some st =>
    if numbered then s2.collRecord e n d st (seq.toNat % 65536) G.epoch.toNat
    else s2.drawn.collRecord e n d st (s2.free % 65536) G.epoch.toNat
  | none => s2.startColl e n d seq

/-- COLLECTIVE_DESCRIPTOR (R384, R388). -/
def execCollectiveDescriptor (e : Fin 32) (s : State) : Out :=
  .next (match epOwner s e.val, epQueue s e.val 0 with
    | some n, f :: _ =>
      if pkgUp s && !stopping s (epUnit e.val) && !pkgQuiesced s && (s.ep e.val).fstate == .running &&
          decide ((s.ep e.val).running.length < 4) then takeCollDesc e.val n f s
      else s
    | _, _ => s)

/-- R391: every result write is visible, and everything is sent. -/
def collDone (s : State) (C : Coll) : Bool :=
  32 * C.contrib.length == collSource C.desc && s.coll.sap.isEmpty &&
  (List.range C.members.length).all fun q => tget 0 C.sent q == collSend C q && tget 0 C.got q == collRecv C q

/-- R391: a complete collective's status. -/
def collStatus (C : Coll) : Nat := if C.poisoned then 0x10 else 0

/-- R500: a STOPPING endpoint with nothing in flight reads STOPPED. -/
def State.epStopped (s : State) (e : Nat) : State :=
  let E := s.ep e
  if E.fstate = .stopping ∧ E.running.isEmpty then s.setEp e { E with fstate := .stopped } else s

/-- COLLECTIVE_COMPLETE (R391). -/
def execCollectiveComplete (e : Fin 32) (i : Nat) (s : State) : Out :=
  .next (match (s.ep e.val).running[i]? with
    | some C => if pkgUp s && !stopped s (epUnit e.val) && !pkgQuiesced s && collDone s C then s.endColl e.val C (collStatus C) else s
    | none => s)

/-! ### Stream flits (R184, R193, R384) -/

/-- R191, R193: a flit that no queue can take: the first of its source is answered with FENCED. -/
def State.epDiscard (s : State) (e : Nat) (src : Loc) (slot : BitVec 5) : State :=
  let who := (src.die.toNat, src.plot.toNat, slot.toNat)
  if (s.ep e).fencedSrc.contains who then s
  else (s.updEp e fun E => { E with fencedSrc := who :: E.fencedSrc }).inject 3 (epLoc e) src (.fenced src (epLoc e) slot)

/-- R184, R384: queue `q` takes a flit of this stream. -/
def epTakes (s : State) (e n q : Nat) (sid : BitVec 16) (src : Loc) (slot : BitVec 5) : Bool :=
  let who := (src.die.toNat, src.plot.toNat, slot.toNat)
  decide (q ≤ 8) && sid.toNat / 4096 == n && decide ((epQueue s e q).length < 256) &&
  (match (tget ({} : Hg) (s.ep e).hgs q).src with
   | some w => w == who
   | none => true)

/-- STREAM_FLIT_ARRIVE at an endpoint (R384). -/
def epFlit (e q : Nat) (sid : BitVec 16) (src : Loc) (slot : BitVec 5) (data : FlitData) (s : State) : State :=
  let m := Msg.flit (epLoc e) (BitVec.ofNat 5 q) sid src slot data
  if !pkgUp s then s
  else if stopped s (epUnit e) then s.holdMsg 0 src (epLoc e) m
  else match epOwner s e with
    | none => (s.arrived m).epDiscard e src slot
    | some n =>
      if epTakes s e n q sid src slot then
        let s1 := (s.arrived m).updEp e fun E => { E with
          queues := tput [] E.queues q (tget [] E.queues q ++ [data])
          hgs := tput {} E.hgs q { tget ({} : Hg) E.hgs q with src := some (src.die.toNat, src.plot.toNat, slot.toNat) } }
        if q = 0 then s1 else s1.feedColl e n q (epQueue s1 e q).length
      else (s.arrived m).epDiscard e src slot

/-- STREAM_FLIT_ARRIVE (R184, R384). -/
def execStreamFlitArrive (dst : Loc) (hg : BitVec 5) (sid : BitVec 16) (src : Loc) (slot : BitVec 5) (data : FlitData) (s : State) : Out :=
  .next (if dst.die.toNat < 16 then plotFlit (locKey dst) hg sid src slot data s
    else if dst.die = 16 then epFlit dst.plot.toNat hg.toNat sid src slot data s
    else s)

end Sys2Proof.Machine
end

