-- ==== Sys2Proof/Machine/Xng.lean ====
section
/-!
DEFINITION. Xng.lean: the crossings (R361 to R383): training, retrains and link-down, flits and replay, tag groups and key
renewal, and the sending of packets.
-/
namespace Sys2Proof.Machine

/-! ### Configurations (R366, R396) -/

/-- R366: the order in which training tries configurations. -/
def xngOrder : List XCfg :=
  [⟨2, false, false⟩, ⟨1, false, false⟩, ⟨2, true, false⟩, ⟨2, true, true⟩, ⟨1, true, false⟩, ⟨1, true, true⟩]

/-- R404: `FERRY_STAT.STATE` of a site: 4 ADMITTED. -/
def ferryState (s : State) (i : Nat) : Nat := s.fld (ferReg i 0x040) 0 3

/-- R396: the highest rate that the module pair of crossing `n` allows; none where it is DISABLED (log 48). -/
def pairGen (s : State) (n : Nat) : Option Nat :=
  let a := ferReg (n / 4) 0x040
  let u := s.fld a 7 8
  let k := n % 4
  let up := b2n (nbit u (2 * k)) + b2n (nbit u (2 * k + 1))
  if ferryState s (n / 4) ≠ 4 then none
  else match up, s.bit a 15 with
    | 2, true => some 2
    | 2, false => some 1
    | 1, true => some 1
    | _, _ => none

/-- R366: the configurations that may be tried, in order; the diagnostic rate alone where `MAX_GEN` = 0. -/
def xngAllowed (s : State) (n : Nat) : List XCfg :=
  match pairGen s n with
  | none => []
  | some g =>
    let m := s.fld (xngReg n 0x040) 0 2
    if m = 0 then [⟨0, false, false⟩]
    else xngOrder.filter fun c => decide (c.gen ≤ min m g) && (!c.half || s.bit (xngReg n 0x040) 3)

/-- The configurations from `c` on (`incl`), or after it. -/
def cfgsFrom (c : XCfg) (incl : Bool) : List XCfg :=
  let l := xngOrder.dropWhile (· != c)
  if incl then (if l = [] then xngOrder else l) else l.drop 1

/-- R366, R367: the first configuration to try that does not exceed the ceiling. -/
def firstCfg (s : State) (n : Nat) : Option XCfg :=
  let l := xngAllowed s n
  match l.find? fun c => (cfgsFrom (s.xng n).ceil true).contains c with
  | some c => some c
  | none => l.head?

/-- R366: the next one after the one being tried. -/
def nextCfg (s : State) (n : Nat) : Option XCfg :=
  (xngAllowed s n).find? fun c => (cfgsFrom (s.xng n).cfg false).contains c

/-! ### Link-down (R368, R383) -/

/-- R368, R383: the crossing enters DOWN: what is queued for it and not acknowledged is discarded. -/
def State.xngDown (s : State) (n reason : Nat) : State :=
  let X := s.xng n
  let gone := (X.sentPkts.map (·.2) ++ X.txEnds.map (·.2)).filter fun p => p.kind == .data && p.src == ownId s
  let s1 := (s.setFld (xngReg n 0x048) 24 4 reason).setXng n
    { X with state := .down, since := s.tb, replay := [], sentPkts := [], txBuf := [], txEnds := [], rxBuf := [], rxGroup := [],
             txGroup := 0, credit := [], owed := [], nak := false, fails := 0, tagFails := 0, rekeying := false }
  gone.foldl (fun s p => s.lostData p) s1

/-- The crossing is in a state that DOWN can take it from. -/
def xngLit (X : Xng) : Bool := X.state != .disabled && X.state != .down

/-- The PHYs are clocked, and the package runs. -/
def xngGo (s : State) : Bool := pkgUp s && s.pins.xngClk && !pkgQuiesced s

/-- The crossing goes dark (R365). -/
def State.xngDark (s : State) (n : Nat) : State :=
  s.updXng n fun X => { X with state := .disabled, since := s.tb, spareMark := false, fails := 0, ceil := ⟨2, false, false⟩ }

/-- R365: an enabled crossing whose ferry is admitted waits for light; any other is DISABLED. -/
def State.xngDetect (s : State) (n : Nat) : State :=
  if (s.xng n).fstate = .running ∧ (pairGen s n).isSome then s.updXng n fun X => { X with state := .detect, since := s.tb }
  else s.xngDark n

/-! ### Training (R365, R366, R374, R375) -/

/-- Where training stands, in a retrain or not. -/
def xngStep (X : Xng) : XState := if X.state = .retrain then X.phase else X.state

/-- Move on to a step of training, within the retrain if one runs. -/
def State.xngTo (s : State) (n : Nat) (x : XState) : State :=
  s.updXng n fun X => if X.state = .retrain then { X with phase := x, since := s.tb } else { X with state := x, since := s.tb }

/-- XNG_LIGHT_DETECT (R365). -/
def execXngLightDetect (n : Fin 32) (s : State) : Out :=
  .next (if xngGo s && (s.xng n.val).state == .detect then
    (match firstCfg s n.val with
     | some c => s.updXng n.val fun X => { X with state := .equalise, cfg := c, since := s.tb }
     | none => s.xngDark n.val)
    else s)

/-- R367: a retrain begins at the configuration in force, or below. -/
def State.xngRetrain (s : State) (n : Nat) : State :=
  match firstCfg s n with
  | some c => s.updXng n fun X => { X with state := .retrain, phase := .equalise, cfg := c, since := s.tb }
  | none => s.xngDown n 8

/-- R367: a retrain fails: the third failure in a row enters DOWN; before it, the crossing retrains again. -/
def State.retrainFailed (s : State) (n : Nat) : State :=
  let k := (s.xng n).fails + 1
  if 3 ≤ k then s.xngDown n 8 else (s.updXng n fun X => { X with fails := k }).xngRetrain n

/-- R366: a step of training fails for `reason`. -/
def State.trainFailed (s : State) (n reason : Nat) : State :=
  if (s.xng n).state = .retrain then s.retrainFailed n else s.xngDown n reason

/-- R366: equalisation fails: the next configuration is tried. -/
def State.equaliseFailed (s : State) (n : Nat) : State :=
  match nextCfg s n with
  | some c => s.updXng n fun X => { X with cfg := c }
  | none => s.trainFailed n 2

/-- XNG_EQUALISE_DONE (R366). -/
def execXngEqualiseDone (n : Fin 32) (ok : Bool) (s : State) : Out :=
  .next (if xngGo s && xngStep (s.xng n.val) == .equalise then
    (if ok then s.xngTo n.val .align else s.equaliseFailed n.val) else s)

/-- R364, R365: ALIGN ends; a lane that is marked or has failed alone is spared. -/
def alignDone (n : Nat) (spare : Bool) (s : State) : State :=
  let s1 := if spare || (s.xng n).spareMark then s.setBit (xngReg n 0x044) 6 else s
  (s1.updXng n fun X => { X with spareMark := false }).xngTo n .peer

/-- XNG_ALIGN_DONE (R365). -/
def execXngAlignDone (n : Fin 32) (spare : Bool) (s : State) : Out :=
  .next (if xngGo s && xngStep (s.xng n.val) == .align then alignDone n.val spare s else s)

/-- R370, R376: the crossing encrypts. -/
def xngEnc (s : State) (n : Nat) : Bool := s.bit (xngReg n 0x044) 8

/-- R369: a flit. -/
def mkFlit (seq ack ty : Nat) (nak phase : Bool) (c0 c1 : Nat) (payload : List Byte) : List Byte :=
  let h := leBytes 2 seq ++ leBytes 2 ack ++ leBytes 1 (ty + 4 * b2n nak + 8 * b2n phase) ++ leBytes 2 c0 ++ leBytes 2 c1 ++
    leBytes 3 0
  h ++ leBytes 4 (crc32 (h ++ payload)) ++ payload

/-- R369, R373: the two credit fields of the next flit, and what is then still owed. -/
def creditFields (owed : List Nat) : Nat × Nat × List Nat :=
  let take (o : List Nat) : Nat × List Nat :=
    match (List.range 8).find? fun v => nth 0 o v != 0 with
    | some v => (v + min (nth 0 o v) 4095 * 16, setNth 0 o v (nth 0 o v - 4095))
    | none => (0, o)
  let a := take owed
  let b := take a.2
  (a.1, b.1, b.2)

/-- A flit of the crossing's own leaves. -/
def State.sendFlit (s : State) (n ty : Nat) (nak : Bool) (payload : List Byte) : State :=
  let X := s.xng n
  let c := creditFields X.owed
  let f := mkFlit X.txSeq.toNat X.rxAck.toNat ty nak X.txPhase c.1 c.2.1 payload
  let s1 := (s.setXng n { X with owed := c.2.2 }).send (.xflit n f)
  if ty = 0 then s1
  else (s1.updXng n fun X => { X with replay := X.replay ++ [(X.txSeq, f)], txSeq := X.txSeq + 1 }).count 592 (129 + n) 1

/-- R370: an IDLE flit carries acknowledgement and credit. -/
def State.sendIdle (s : State) (n : Nat) (nak : Bool) : State := s.sendFlit n 0 nak (List.replicate 240 0)

/-- R371: sequenced flits from the first not acknowledged, as sent. -/
def State.replayFlits (s : State) (n : Nat) : State :=
  (s.xng n).replay.foldl (fun s f => (s.send (.xflit n f.2)).count 592 (129 + n) 1) s

/-- R365, R369, R373: the crossing becomes ACTIVE after AUTH, with its link layer new. -/
def State.xngActive (s : State) (n : Nat) (enc : Bool) : State :=
  let X := s.xng n
  (s.setXng n { X with
    state := .active, since := s.tb, ceil := X.cfg, fails := 0, txSeq := 0, rxAck := 0xFFFF, rxNext := 0, nak := false
    replay := [], sentPkts := [], txBuf := [], txEnds := [], rxBuf := [], rxGroup := [], credit := List.replicate 8 4096, owed := []
    txGroup := 0, groups := 0, tagFails := 0, txPhase := false, rxPhase := false, rekeying := false, keyAt := s.tb
    secReplays := 0, overSecs := 0 }).setFld (xngReg n 0x044) 8 1 (b2n enc)

/-- R367: a retrain ends: keys and link-layer state are kept, and traffic resumes with the first flit not acknowledged. -/
def State.xngResume (s : State) (n : Nat) : State :=
  (s.updXng n fun X => { X with state := .active, since := s.tb, ceil := X.cfg, fails := 0, nak := false, rxGroup := []
                                rxNext := X.rxAck + 1 }).replayFlits n

/-- R366, R379: what PEER settles: the rate and width that both ends reach; none where the ends do not fit. -/
def settle (s : State) (n : Nat) (peer : BitVec 16) (gen : Nat) (half : Bool) : Option XCfg :=
  let c := (s.xng n).cfg
  if 0x1000 ≤ (ownId s).toNat ∨ 0x1000 ≤ peer.toNat ∨ peer = ownId s ∨ (gen = 0) ≠ (c.gen = 0) then none
  else some { c with gen := min c.gen gen, half := c.half || half }

/-- R365: PEER ends. -/
def peerDone (n : Nat) (peer : BitVec 16) (gen : Nat) (half encOff : Bool) (s : State) : State :=
  match settle s n peer gen half with
  | none => s.trainFailed n 4
  | some c =>
    let s1 := (s.setFld (xngReg n 0x044) 16 16 peer.toNat).updXng n fun X => { X with cfg := c, peerEncOff := encOff }
    if (s1.xng n).state = .retrain then s1.xngResume n else s1.xngTo n .auth

/-- XNG_PEER_DONE (R365). -/
def execXngPeerDone (n : Fin 32) (peer : BitVec 16) (gen : Fin 3) (half encOff : Bool) (s : State) : Out :=
  .next (if xngGo s && xngStep (s.xng n.val) == .peer then peerDone n.val peer gen.val half encOff s else s)

/-- R375: some trust register is not all-zero. -/
def xngTrusts (s : State) : Bool := (List.range 32).any fun i => s.reg (xpkReg (0x080 + 4 * i)) != 0

/-- R437, R452: the key engine makes keys with the alias key and random values. -/
def keysUsable (s : State) : Bool := !s.bit (secReg 0x040) 17 && !s.bit (secReg 0x040) 18

/-- R374, R375: AUTH ends. -/
def authDone (n : Nat) (certOk : Bool) (s : State) : State :=
  let off := s.bit (xngReg n 0x040) 2
  if off ≠ (s.xng n).peerEncOff then s.xngDown n 6
  else if certOk && xngTrusts s && keysUsable s then s.xngActive n (!off)
  else (s.setFld (xngReg n 0x044) 16 16 0).xngDown n 5

/-- XNG_AUTH_DONE (R374, R375). -/
def execXngAuthDone (n : Fin 32) (certOk : Bool) (s : State) : Out :=
  .next (if xngGo s && (s.xng n.val).state == .auth then authDone n.val certOk s else s)

/-- R365: a time limit passes; DETECT has none. -/
def xngTimeout (n : Nat) (s : State) : State :=
  match xngStep (s.xng n) with
  | .equalise => s.equaliseFailed n
  | .align => s.trainFailed n 3
  | .peer => s.trainFailed n 4
  | .auth => (s.setFld (xngReg n 0x044) 16 16 0).xngDown n 5
  | _ => s

/-- XNG_STATE_TIMEOUT (R365, log 3). -/
def execXngStateTimeout (n : Fin 32) (s : State) : Out := .next (if xngGo s then xngTimeout n.val s else s)

/-- XNG_DOWN_EXPIRY (R365): without its clock the crossing stays down (R27). -/
def execXngDownExpiry (n : Fin 32) (s : State) : Out :=
  .next (if xngGo s && (s.xng n.val).state == .down then s.xngDetect n.val else s)

/-- CODEWORD_LOCK_LOSS (R367). -/
def execCodewordLockLoss (n : Fin 32) (s : State) : Out :=
  .next (if xngGo s && (s.xng n.val).state == .active then s.xngRetrain n.val else s)

/-- R367: `RETRAIN`: a lowered configuration may rise again. -/
def retrainCtrl (n : Nat) (s : State) : State :=
  let s1 := s.updXng n fun X => { X with ceil := ⟨2, false, false⟩ }
  if (s1.xng n).state = .active ∧ xngGo s1 then s1.xngRetrain n else s1

/-- XNG_RETRAIN (R367). -/
def execXngRetrain (r : Req) (n : Fin 32) (s : State) : Out := .next (s.access r (xngReg n.val 0x060) (retrainCtrl n.val))

/-- XNG_RETRAIN_DONE (R367). -/
def execXngRetrainDone (n : Fin 32) (ok : Bool) (s : State) : Out :=
  .next (if xngGo s && (s.xng n.val).state == .retrain then (if ok then s.xngResume n.val else s.retrainFailed n.val) else s)

/-- R27: REFCLK_XNG is lost. -/
def xngClockLost (s : State) : State :=
  (List.range 32).foldl (fun s n => if xngLit (s.xng n) then s.xngDown n 9 else s) { s with pins := { s.pins with xngClk := false } }

/-- REFCLK_XNG_ABSENT (R27). -/
def execRefclkXngAbsent (s : State) : Out := .next (xngClockLost s)

/-- R27: the crossings train again. -/
def xngClockBack (s : State) : State :=
  (List.range 32).foldl (fun s n => if (s.xng n).state = .down ∧ (pairGen s n).isSome then s.xngDetect n else s)
    { s with pins := { s.pins with xngClk := true } }

/-- REFCLK_XNG_STABLE (R27). -/
def execRefclkXngStable (s : State) : Out := .next (xngClockBack s)

/-! ### Receiving (R371, R377, R382) -/

/-- R380: units of 16 B and virtual channel of a packet. -/
def pktUnits (p : XPkt) : Nat := (16 + p.body.length + 15) / 16
def pktChan (p : XPkt) : Nat := 2 * (p.layer % 4) + (if p.kind = .data then 1 else 0)

/-- R380: the code of a kind. -/
def kindCode : XKind → Nat
  | .join => 1
  | .joinAck => 2
  | .heartbeat => 3
  | .sever => 4
  | .lost => 5
  | .credit => 6
  | .data => 8
  | .reserved c => c.toNat

/-- The kind of a code. -/
def kindOf (c : Nat) : XKind :=
  match c with
  | 1 => .join
  | 2 => .joinAck
  | 3 => .heartbeat
  | 4 => .sever
  | 5 => .lost
  | 6 => .credit
  | 8 => .data
  | _ => .reserved (BitVec.ofNat 4 c)

/-- R380: a packet as bytes. -/
def pktBytes (p : XPkt) : List Byte :=
  leBytes 2 p.dst.toNat ++ leBytes 2 p.src.toNat ++ leBytes 1 (kindCode p.kind + 16 * (p.layer % 4)) ++ leBytes 1 0 ++
  leBytes 2 p.group.toNat ++ leBytes 4 p.epoch.toNat ++ leBytes 2 p.body.length ++ leBytes 2 p.seq.toNat ++ p.body

/-- R380: the packet at the start of a byte string. -/
def pktOf (l : List Byte) : XPkt :=
  { kind := kindOf (leAt l 4 1 % 16), src := BitVec.ofNat 16 (leAt l 2 2), dst := BitVec.ofNat 16 (leAt l 0 2),
    group := BitVec.ofNat 16 (leAt l 6 2), epoch := BitVec.ofNat 32 (leAt l 8 4), seq := BitVec.ofNat 16 (leAt l 14 2),
    layer := leAt l 4 1 / 16 % 4, body := (l.drop 16).take (leAt l 12 2 % 512) }

/-- R373: the receive buffer of a packet's channel frees; its credit is owed to the peer. -/
def State.freeBuf (s : State) (via : Option Nat) (p : XPkt) : State :=
  match via with
  | some n => s.updXng n fun X => { X with owed := setNth 0 X.owed (pktChan p) (nth 0 X.owed (pktChan p) + pktUnits p) }
  | none => s

/-- R381, R382: a packet dropped for want of a route, of a layer or of a meaning (log 46). -/
def State.dropPkt (s : State) (via : Option Nat) (p : XPkt) : State := (s.freeBuf via p).count 592 194 1

/-- R380, R382: a packet has come by crossing `n`: it is for this device, or goes on at the next hop layer. -/
def State.takePkt (s : State) (n : Nat) (p : XPkt) : State :=
  match p.kind with
  | .reserved _ => s.dropPkt (some n) p
  | _ =>
    if p.dst = ownId s then { s with coll := { s.coll with inp := s.coll.inp ++ [⟨p, some n⟩] } }
    else if p.layer = 3 then s.dropPkt (some n) p
    else { s with coll := { s.coll with out := s.coll.out ++ [⟨p, some n⟩] } }

/-- R369: whole packets in the receive stream; zeros at a packet's place fill the rest of a flit (log 45). -/
def takePkts (s : State) (n : Nat) : Nat → List Byte → State
  | 0, l => s.updXng n fun X => { X with rxBuf := l }
  | k + 1, l =>
    let len := 16 + leAt l 12 2 % 512
    if l.length < 16 then (if l.all (· == 0) then takePkts s n k [] else s.updXng n fun X => { X with rxBuf := l })
    else if (l.take 16).all (· == 0) then takePkts s n k (l.drop 16)
    else if l.length < len then s.updXng n fun X => { X with rxBuf := l }
    else takePkts (s.takePkt n (pktOf l)) n k (l.drop len)

/-- Payload bytes in good order; after the crossing's snapshot they stay in its receive buffers (R595). -/
def State.deliver (s : State) (n : Nat) (bytes : List Byte) : State :=
  let l := (s.xng n).rxBuf ++ bytes
  if stopped s ⟨16, 10, n⟩ then s.updXng n fun X => { X with rxBuf := l } else takePkts s n (l.length + 1) l

def flSeq (f : List Byte) : BitVec 16 := BitVec.ofNat 16 (leAt f 0 2)
def flAck (f : List Byte) : BitVec 16 := BitVec.ofNat 16 (leAt f 2 2)
def flType (f : List Byte) : Nat := leAt f 4 1 % 4
def flNak (f : List Byte) : Bool := nbit (leAt f 4 1) 2
def flPhase (f : List Byte) : Bool := nbit (leAt f 4 1) 3

/-- R369: the flit is whole, of a known type, and passes its CRC. -/
def flitOk (f : List Byte) : Bool :=
  f.length == 256 && flType f != 3 && decide (leAt f 12 4 = crc32 (f.take 12 ++ f.drop 16))

/-- R371: flits up to the acknowledged one leave the replay buffer. -/
def ackFlits (X : Xng) (a : BitVec 16) : Xng :=
  if X.replay.any (fun x => x.1 == a) then
    let gone := ((X.replay.takeWhile fun x => x.1 != a).map (·.1)) ++ [a]
    { X with replay := (X.replay.dropWhile fun x => x.1 != a).drop 1, sentPkts := X.sentPkts.filter fun p => !(gone.contains p.1) }
  else X

/-- R373: a credit field. -/
def addCredits (X : Xng) (f : Nat) : Xng :=
  let v := f % 8
  { X with credit := setNth 0 X.credit v (min 4096 (nth 0 X.credit v + f / 16)) }

/-- R371, R372: a NAK: the sender replays. -/
def State.replayXng (s : State) (n : Nat) : State :=
  ((s.updXng n fun X => { X with secReplays := X.secReplays + 1 }).addFld (xngReg n 0x048) 0 16 1).replayFlits n

/-- R371: what comes is discarded until the replay: NAK names the last flit in good order. -/
def State.sendNak (s : State) (n : Nat) : State :=
  (s.updXng n fun X => { X with nak := true, rxGroup := [], rxNext := X.rxAck + 1 }).sendIdle n true

/-- R371, R377: a sequenced flit is taken in good order and acknowledged. -/
def State.takeFlits (s : State) (n : Nat) (seq : BitVec 16) (bytes : List Byte) : State :=
  ((s.updXng n fun X => { X with rxAck := seq, rxNext := seq + 1, nak := false, rxGroup := [], tagFails := 0 }).deliver n bytes).sendIdle n false

/-- R377: a tag that fails: the group is discarded and replayed; the third failure in a row enters DOWN. -/
def State.tagFailed (s : State) (n : Nat) : State :=
  let k := (s.xng n).tagFails + 1
  let s1 := (s.addFld (xngReg n 0x048) 16 8 1).updXng n fun X => { X with tagFails := k }
  if 3 ≤ k then s1.xngDown n 7 else s1.sendNak n

/-- R371, R376, R377: a sequenced flit. -/
def sequenced (n : Nat) (f : List Byte) (tagOk : Bool) (plain : List Byte) (s : State) : State :=
  let X := s.xng n
  if flSeq f ≠ X.rxNext then (if X.nak then s else s.sendNak n)
  else
    let s1 := s.count 592 (161 + n) 1
    let data := f.drop 16
    if !xngEnc s n then s1.takeFlits n (flSeq f) (if flType f = 1 then data else [])
    else if flType f = 1 then
      s1.updXng n fun X => { X with rxNext := X.rxNext + 1, nak := false, rxGroup := X.rxGroup ++ [data], rxPhase := flPhase f }
    else if tagOk ∧ X.rxGroup ≠ [] then s1.takeFlits n (flSeq f) (plain.take (240 * X.rxGroup.length))
    else s1.tagFailed n

/-- XNG_FLIT_RECEIVE's effect: acknowledgement, NAK and credit first, then the flit itself. -/
def receiveFlit (n : Nat) (f : List Byte) (tagOk : Bool) (plain : List Byte) (s : State) : State :=
  if !flitOk f then (if (s.xng n).nak then s else s.sendNak n)
  else
    let s1 := s.updXng n fun X => addCredits (addCredits (ackFlits X (flAck f)) (leAt f 5 2)) (leAt f 7 2)
    let s2 := if flNak f then s1.replayXng n else s1
    if flType f = 0 then s2 else sequenced n f tagOk plain s2

/-- XNG_FLIT_RECEIVE (R369, R371, R377). -/
def execXngFlitReceive (n : Fin 32) (flit : List Byte) (tagOk : Bool) (plain : List Byte) (s : State) : Out :=
  .next (if xngGo s && (s.xng n.val).state == .active then receiveFlit n.val flit tagOk plain s else s)

/-! ### Tag groups and keys (R376 to R378) -/

/-- R371, R376: a sequenced DATA flit may leave. -/
def mayFlit (s : State) (n : Nat) : Bool :=
  decide ((s.xng n).replay.length < 1024) && (!xngEnc s n || decide ((s.xng n).txGroup < 31))

/-- R376: the first 240 B that wait leave in a DATA flit; what encryption makes of them is open (log 5). -/
def State.dataFlit (s : State) (n : Nat) : State :=
  let X := s.xng n
  let bytes := X.txBuf.take 240
  let plain := bytes ++ List.replicate (240 - bytes.length) (0 : Byte)
  let ends := (X.txEnds.filter fun e => e.1 ≤ bytes.length).map fun e => (X.txSeq, e.2)
  let rest := (X.txEnds.filter fun e => bytes.length < e.1).map fun e => (e.1 - bytes.length, e.2)
  let enc := xngEnc s n
  let r := if enc then s.freeBytes 240 else (s, plain)
  (r.1.setXng n { X with txBuf := X.txBuf.drop 240, txEnds := rest, sentPkts := X.sentPkts ++ ends
                         txGroup := if enc then X.txGroup + 1 else X.txGroup }).sendFlit n 1 false r.2

/-- Whole flits leave while they may. -/
def State.flushFlits (s : State) (n : Nat) : Nat → State
  | 0 => s
  | k + 1 => if 240 ≤ (s.xng n).txBuf.length ∧ mayFlit s n then (s.dataFlit n).flushFlits n k else s

/-- R378: the next group goes under a new key. -/
def State.newKey (s : State) (n : Nat) : State :=
  s.updXng n fun X => { X with txPhase := !X.txPhase, groups := 0, keyAt := s.tb, rekeying := false }

/-- R376: the group closes with its TAG flit. -/
def closeGroup (n : Nat) (s : State) : State :=
  let s0 := if 0 < (s.xng n).txBuf.length ∧ mayFlit s n then s.dataFlit n else s
  let tag := s0.freeBytes 16
  let s1 := (tag.1.sendFlit n 2 false (tag.2 ++ List.replicate 224 0)).updXng n fun X => { X with txGroup := 0, groups := X.groups + 1 }
  let s2 := if (s1.xng n).rekeying then s1.newKey n else s1
  s2.flushFlits n ((s2.xng n).txBuf.length + 1)

/-- The crossing sends: it is ACTIVE and no stop has reached it. -/
def xngSends (s : State) (n : Nat) : Bool := xngGo s && (s.xng n).state == .active && !stopped s ⟨16, 10, n⟩

/-- TAG_GROUP_CLOSE (R376). -/
def execTagGroupClose (n : Fin 32) (s : State) : Out :=
  .next (if xngSends s n.val && xngEnc s n.val && decide (0 < (s.xng n.val).txGroup) && decide ((s.xng n.val).replay.length < 1024) then
    closeGroup n.val s else s)

/-- R378, R452: a renewal: without a usable key engine it fails, and the crossing enters DOWN. -/
def State.rekey (s : State) (n : Nat) : State :=
  if !keysUsable s then (s.setFld (xngReg n 0x044) 16 16 0).xngDown n 5
  else if (s.xng n).txGroup = 0 then s.newKey n
  else s.updXng n fun X => { X with rekeying := true }

/-- R378: only an encrypting crossing has keys. -/
def hasKeys (s : State) (n : Nat) : Bool := xngGo s && (s.xng n).state == .active && xngEnc s n

/-- XNG_REKEY (R378). -/
def execXngRekey (r : Req) (n : Fin 32) (s : State) : Out :=
  .next (s.access r (xngReg n.val 0x060) fun s => if hasKeys s n.val then s.rekey n.val else s)

/-- REKEY_DUE (R378, log 3): `SECONDS` = 0 leaves the group limit alone. -/
def execRekeyDue (n : Fin 32) (s : State) : Out :=
  .next (if hasKeys s n.val && (s.fld (xngReg n.val 0x058) 0 16 != 0 || decide (2 ^ 32 ≤ (s.xng n.val).groups)) then s.rekey n.val else s)

/-- R364, R372: the second closes: lasting replays, or a lane to spare, start a retrain. -/
def errorTick (n laneCorr : Nat) (s : State) : State :=
  let X := s.xng n
  let cfg := xngReg n 0x054
  let bad := if s.fld cfg 0 16 < X.secReplays then X.overSecs + 1 else 0
  let lasting := decide (0 < bad) && decide (s.fld cfg 16 8 ≤ bad)
  let lane := decide (s.fld (xngReg n 0x05C) 0 16 < laneCorr) && !s.bit (xngReg n 0x044) 6
  let s1 := s.setXng n { X with secReplays := 0, overSecs := if lasting then 0 else bad, spareMark := X.spareMark || lane }
  let s2 := if lasting then (s1.setBit (xngReg n 0x044) 9).report none 0x08 1 16 0 (64 + n) else s1
  if lasting || lane then s2.xngRetrain n else s2

/-- XNG_ERROR_RATE_TICK (R364, R372, log 4). -/
def execXngErrorRateTick (n : Fin 32) (laneCorr : Nat) (s : State) : Out :=
  .next (if xngGo s && (s.xng n.val).state == .active then errorTick n.val laneCorr s else s)

/-! ### Sending packets (R373, R381, R382) -/

/-- R381: packets without a port are dropped. -/
def State.dropLostPkts (s : State) : State :=
  let gone := s.coll.out.filter fun h => (portOf s h.pkt).isNone
  let s1 := { s with coll := { s.coll with out := s.coll.out.filter fun h => (portOf s h.pkt).isSome } }
  gone.foldl (fun s h => s.dropPkt h.via h.pkt) s1

/-- R382: the layer a packet leaves on: forwarded packets rise by one. -/
def outPkt (h : HeldPkt) : XPkt := if h.via.isSome then { h.pkt with layer := h.pkt.layer + 1 } else h.pkt

/-- R373: link credit of its channel covers the packet. -/
def creditOk (X : Xng) (p : XPkt) : Bool := decide (pktUnits p ≤ nth 0 X.credit (pktChan p))

/-- R373, R382: the first packet of a channel that may leave by port `n`. -/
def pickPkt (s : State) (n : Nat) : Option HeldPkt :=
  let cands := s.coll.out.filter fun h => portOf s h.pkt == some n
  cands.find? fun h => creditOk (s.xng n) (outPkt h) && (cands.find? fun x => pktChan (outPkt x) == pktChan (outPkt h)) == some h

/-- R389, R391: the next DATA packet of a collective to rank `q`: words of one kind, poisoned or not, at most 256 B. -/
def collData (s : State) (C : Coll) (q : Nat) : Option XPkt :=
  let at' := tget 0 C.sent q
  let G := s.grp C.slot
  let base : XPkt := { kind := .data, src := ownId s, dst := nth 0 C.members q, group := G.gid, epoch := G.epoch,
                       seq := BitVec.ofNat 16 C.seq.toNat, like := C.desc, off := at' }
  if collSend C q ≤ at' then none
  else if cOp C.desc = 6 then some base
  else
    let start := (if cOp C.desc = 2 then q * (cBytes C.desc / C.members.length) else 0) + at'
    let ws := (C.contrib.drop (start / 32)).take (min 8 ((collSend C q - at') / 32))
    match ws with
    | [] => none
    | w :: _ => some { base with body := (ws.takeWhile fun x => x.2 == w.2).flatMap (·.1), poison := w.2 }

/-- R382: the first DATA packet of a collective in flight that has end-to-end credit and leaves by port `n`. -/
def pickData (s : State) (n : Nat) : Option (Nat × Coll × Nat × XPkt) :=
  (List.range 32).findSome? fun e =>
    if stopping s (epUnit e) then none
    else (s.ep e).running.findSome? fun C => (List.range C.members.length).findSome? fun q =>
      match collData s C q with
      | some p =>
        if portOf s p = some n ∧ 0 < tget 0 s.coll.e2e p.dst.toNat ∧ creditOk (s.xng n) p then some (e, C, q, p) else none
      | none => none

/-- The packet joins the flit stream of port `n`. -/
def State.packPkt (s : State) (n : Nat) (p : XPkt) : State :=
  let X := s.xng n
  let buf := X.txBuf ++ pktBytes p
  (s.setXng n { X with txBuf := buf, txEnds := X.txEnds ++ [(buf.length, p)]
                       credit := setNth 0 X.credit (pktChan p) (nth 0 X.credit (pktChan p) - pktUnits p) }).flushFlits n (buf.length + 1)

/-- XNG_PACKET_SEND's effect: a packet that waits, then DATA of a collective, then the rest of an open flit, then IDLE. -/
def sendPkt (n : Nat) (s : State) : State :=
  let s1 := s.dropLostPkts
  let X := s1.xng n
  if 240 ≤ X.txBuf.length then s1.flushFlits n (X.txBuf.length + 1)
  else
    let open_ := portOpen s1 n && !stopping s1 ⟨16, 10, n⟩
    match (if open_ then pickPkt s1 n else none), (if open_ then pickData s1 n else none) with
    | some h, _ =>
      let s2 := { s1 with coll := { s1.coll with out := s1.coll.out.erase h } }
      let s3 := if h.via.isSome then (s2.freeBuf h.via h.pkt).count 592 193 1 else s2
      s3.packPkt n (outPkt h)
    | none, some (e, C, q, p) =>
      let n' := if cOp C.desc = 6 then 1 else p.body.length
      let s2 := s1.setColl e { C with sent := tput 0 C.sent q (tget 0 C.sent q + n') }
      let s3 := { s2 with coll := { s2.coll with e2e := tput 0 s2.coll.e2e p.dst.toNat (tget 0 s2.coll.e2e p.dst.toNat - 1) } }
      s3.packPkt n p
    | none, none => if 0 < X.txBuf.length ∧ mayFlit s1 n then s1.dataFlit n else s1.sendIdle n false

/-- XNG_PACKET_SEND (R373, R381, R382). -/
def execXngPacketSend (n : Fin 32) (s : State) : Out := .next (if xngSends s n.val then sendPkt n.val s else s)

end Sys2Proof.Machine
end

