-- ==== Sys2Proof/Machine/Groups.lean ====
section
/-!
DEFINITION. Groups.lean: crossing groups (R385 to R387, R392 to R395) and the packets of collectives (R382, R383, R389, R390).
-/
namespace Sys2Proof.Machine

/-! ### Forming (R385 to R387) -/

/-- R385: fields of a GROUP_FORM body. -/
def gfSlot (c : Cmd) : Nat := c.byte 8
def gfAction (c : Cmd) : Nat := c.byte 9
def gfSize (c : Cmd) : Nat := c.field 10 2
def gfEpoch (c : Cmd) : Nat := c.field 12 4
def gfGid (c : Cmd) : Nat := c.field 16 2
def gfRank (c : Cmd) : Nat := c.field 18 2

/-- R386: the membership digest: `GROUP_ID`, `EPOCH` and the list, little-endian (log 50). -/
def memberDigest (gid epoch : Nat) (ids : List (BitVec 16)) : List Byte :=
  sha256 (leBytes 2 gid ++ leBytes 4 epoch ++ ids.flatMap fun i => leBytes 2 i.toNat)

/-- R386: the list: own ID at `RANK`, and no ID twice. -/
def membersOk (s : State) (rank : Nat) (ids : List (BitVec 16)) : Bool :=
  decide (rank < ids.length) && nth 0 ids rank == ownId s && ids.eraseDups.length == ids.length

/-- R386, R387: the status that refuses a GROUP_FORM, in the order of its codes. -/
def formRefusal (s : State) (n : Nat) (c : Cmd) (ids : List (BitVec 16)) : Option Nat :=
  let g := gfSlot c
  let G := s.grp g
  let st := grpState G
  if 15 < g ∨ grpOwner s g ≠ some n ∨ st = .forming ∨ st = .active then some 0x30
  else if gfSize c < 2 ∨ 4096 < gfSize c ∨ !membersOk s (gfRank c) (ids.take (gfSize c)) then some 0x31
  else if gfEpoch c = 0 ∨ gfEpoch c ≤ (tget 0 s.coll.lastEpoch (gfGid c)).toNat ∨ (st = .severed ∧ gfEpoch c ≤ G.epoch.toNat) then
    some 0x32
  else if !((ids.take (gfSize c)).all fun i => i == ownId s || (routeMask s i.toNat).isSome) then some 0x35
  else none

/-- The slot's group is formed: it reads ACTIVE, its sequence number 0. -/
def formedGroup (F : Form) (now : Nat) : Group :=
  { state := .active, members := F.members, rank := F.rank, epoch := F.epoch, gid := F.gid, seq := 0, digest := F.digest, hb := F.hb
    heardPrev := now, heardNext := now }

/-- R386: every other member has answered. -/
def allAnswered (F : Form) : Bool := (List.range F.members.length).all fun q => q == F.rank || F.answered.contains q

/-- R386: the command completes when the last answer has come. -/
def State.tryForm (s : State) (g : Nat) : State :=
  match (s.grp g).form with
  | none => s
  | some F =>
    if allAnswered F then (s.setGrp g (formedGroup F s.tb)).finishCmd F.job.1 F.job.2 0 F.epoch.toNat else s

/-- R387: forming fails: the slot returns to its previous state. -/
def State.formFailed (s : State) (g status : Nat) : State :=
  match (s.grp g).form with
  | none => s
  | some F => (s.updGrp g fun G => { G with form := none }).finishCmd F.job.1 F.job.2 status 0

/-- The rank of a device in a list. -/
def rankOf (ids : List (BitVec 16)) (d : BitVec 16) : Option Nat := (List.range ids.length).find? fun i => nth 0 ids i == d

/-- R386: a JOIN or JOIN_ACK that answers the group being formed in slot `g`. -/
def State.answerForm (s : State) (g q : Nat) (digest : List Byte) (ack : Bool) : State :=
  match (s.grp g).form with
  | none => s
  | some F =>
    if digest ≠ F.digest then s.formFailed g 0x34
    else
      let s1 := s.updGrp g fun G => { G with form := some { F with answered := q :: F.answered } }
      let s2 := if ack then s1.postPkt { kind := .joinAck, src := ownId s, dst := nth 0 F.members q, group := F.gid, epoch := F.epoch,
                                         seq := 0, body := F.digest } else s1
      s2.tryForm g

/-- R386: forming starts: JOIN goes to every member, and JOINs kept for it are taken. -/
def startForm (k : Nat) (c : Cmd) (ids : List (BitVec 16)) (s : State) : State :=
  let g := gfSlot c
  let hb := c.field 20 2
  let lim := c.field 22 2
  let members := ids.take (gfSize c)
  let F : Form :=
    { gid := BitVec.ofNat 16 (gfGid c), epoch := BitVec.ofNat 32 (gfEpoch c), members := members, rank := gfRank c
      hb := if hb = 0 then s.fld (colReg 0x200) 0 16 else hb, digest := memberDigest (gfGid c) (gfEpoch c) members
      answered := [], startAt := s.tb, limit := if lim = 0 then 100 else lim, job := (k, c.id) }
  let s1 := (s.runCmd k c .waiting).updGrp g fun G => { G with form := some F }
  let s2 := { s1 with coll := { s1.coll with lastEpoch := tput 0 s1.coll.lastEpoch (gfGid c) F.epoch } }
  let s3 := s2.postAll members { kind := .join, src := 0, dst := 0, group := F.gid, epoch := F.epoch, seq := 0, body := F.digest }
  let mine (j : KeptJoin) : Bool := j.gid == F.gid && j.epoch == F.epoch && members.contains j.src
  let s4 := { s3 with coll := { s3.coll with kept := s3.coll.kept.filter fun j => !(mine j) } }
  (s3.coll.kept.filter mine).foldl (fun s j => match rankOf members j.src with
    | some q => s.answerForm g q j.digest true
    | none => s) s4

/-- GROUP_FORM's effect with `ACTION` 0; a re-form waits for the records of the old epoch (R395). -/
def formCmd (ids : List (BitVec 16)) (k : Nat) (c : Cmd) (s : State) : State :=
  if gfAction c = 1 then s
  else if 1 < gfAction c then s.instant k c 0x02 0
  else match formRefusal s (cmdPart k c) c ids with
    | some st => if ids.length < gfSize c ∧ gfSize c ≤ 4096 ∧ st = 0x31 then s.hostDma k c else s.instant k c st 0
    | none => if collsOf s (gfSlot c) = [] then startForm k c ids s else s

/-- GROUP_FORM (R385, R386). -/
def execGroupForm (g : RingId) (ids : List (BitVec 16)) (s : State) : Out :=
  .next (startCmd (ringKey g) (· == 12) (formCmd ids (ringKey g)) s)

/-- The collectives in flight on slot `g` end with `status`; those complete already end as they are (R395). -/
def State.endColls (s : State) (g status : Nat) : State :=
  (collsOf s g).foldl (fun s x => s.endColl x.1 x.2 (if collDone s x.2 then collStatus x.2 else status)) s

/-- R386: a dissolve: the slot reads FREE at once. -/
def dissolve (g : Nat) (s : State) : State := ((s.endColls g 0x53).formFailed g 0x30).setGrp g {}

/-- GROUP_FORM's effect with `ACTION` 1. -/
def dissolveCmd (k : Nat) (c : Cmd) (s : State) : State :=
  if gfAction c ≠ 1 then s
  else if 15 < gfSlot c ∨ grpOwner s (gfSlot c) ≠ some (cmdPart k c) then s.instant k c 0x30 0
  else (dissolve (gfSlot c) s).instant k c 0 (gfEpoch c)

/-- GROUP_DISSOLVE (R386). -/
def execGroupDissolve (g : RingId) (s : State) : Out := .next (startCmd (ringKey g) (· == 12) (dissolveCmd (ringKey g)) s)

/-! ### Arrivals (R382, R394) -/

/-- The engine takes packets: it is in reset until the boot is done, and in low-water mode (R485). -/
def collUp (s : State) : Bool := pkgUp s && bootState s != 2 && !pkgQuiesced s

/-- A packet of this kind reaches the engine: it leaves the receive buffer it held. -/
def State.pktIn (s : State) (kind : XKind) (src gid : BitVec 16) (epoch : Word) (seq : Option (BitVec 16)) : State :=
  match s.coll.inp.find? fun h => h.pkt.kind == kind && h.pkt.src == src && h.pkt.group == gid && h.pkt.epoch == epoch &&
      (match seq with | some q => h.pkt.seq == q | none => true) with
  | none => s
  | some h => ({ s with coll := { s.coll with inp := s.coll.inp.erase h } }).freeBuf h.via h.pkt

/-- The slot that forms this group in this epoch. -/
def formingSlot (s : State) (gid : BitVec 16) (epoch : Word) : Option Nat :=
  (List.range 16).find? fun g => match (s.grp g).form with
    | some F => F.gid == gid && F.epoch == epoch
    | none => false

/-- The ACTIVE slot of this group in this epoch. -/
def activeSlot (s : State) (gid : BitVec 16) (epoch : Word) : Option Nat :=
  (List.range 16).find? fun g => grpState (s.grp g) == .active && (s.grp g).gid == gid && (s.grp g).epoch == epoch

/-- R394: a packet of no ACTIVE or FORMING slot. -/
def State.stale (s : State) : State := s.count 592 195 1

/-- R392: any packet of a neighbour is a heartbeat. -/
def State.heard (s : State) (g : Nat) (src : BitVec 16) : State :=
  s.updGrp g fun G =>
    let p := G.members.length
    { G with heardPrev := if nth 0 G.members ((G.rank + p - 1) % p) = src then s.tb else G.heardPrev
             heardNext := if nth 0 G.members ((G.rank + 1) % p) = src then s.tb else G.heardNext }

/-- R386: a JOIN or JOIN_ACK for an epoch above the last this device used. -/
def higherEpoch (s : State) (gid : BitVec 16) (epoch : Word) : Bool :=
  decide ((tget 0 s.coll.lastEpoch gid.toNat).toNat < epoch.toNat)

/-- JOIN's effect. -/
def joinIn (src gid : BitVec 16) (epoch : Word) (digest : List Byte) (s : State) : State :=
  match formingSlot s gid epoch, activeSlot s gid epoch with
  | some g, _ =>
    (match (s.grp g).form with
     | some F => (match rankOf F.members src with | some q => s.answerForm g q digest true | none => s)
     | none => s)
  | none, some g =>
    let G := s.grp g
    let s1 := s.heard g src
    if G.members.contains src ∧ digest = G.digest then
      s1.postPkt { kind := .joinAck, src := ownId s, dst := src, group := gid, epoch := epoch, seq := 0, body := G.digest }
    else s1
  | none, none =>
    if higherEpoch s gid epoch then
      { s with coll := { s.coll with kept := s.coll.kept ++ [{ gid := gid, epoch := epoch, src := src, digest := digest, since := s.tb }] } }
    else s.stale

/-- JOIN (R386). -/
def execJoin (src gid : BitVec 16) (epoch : Word) (digest : List Byte) (s : State) : Out :=
  .next (if collUp s then joinIn src gid epoch digest (s.pktIn .join src gid epoch none) else s)

/-- JOIN_ACK's effect. -/
def joinAckIn (src gid : BitVec 16) (epoch : Word) (digest : List Byte) (s : State) : State :=
  match formingSlot s gid epoch, activeSlot s gid epoch with
  | some g, _ =>
    (match (s.grp g).form with
     | some F => (match rankOf F.members src with | some q => s.answerForm g q digest false | none => s)
     | none => s)
  | none, some g => s.heard g src
  | none, none => if higherEpoch s gid epoch then s else s.stale

/-- JOIN_ACK (R386). -/
def execJoinAck (src gid : BitVec 16) (epoch : Word) (digest : List Byte) (s : State) : Out :=
  .next (if collUp s then joinAckIn src gid epoch digest (s.pktIn .joinAck src gid epoch none) else s)

/-- JOIN_KEEP_EXPIRY (R386, log 3). -/
def execJoinKeepExpiry (i : Nat) (s : State) : Out :=
  .next (if collUp s then { s with coll := { s.coll with kept := s.coll.kept.eraseIdx i } } else s)

/-- GRP_TIMEOUT (R387, log 3). -/
def execGrpTimeout (g : Fin 16) (s : State) : Out := .next (if collUp s then s.formFailed g.val 0x33 else s)

/-! ### Heartbeats and splits (R392 to R395) -/

/-- R392: the two neighbours of a member. -/
def neighbours (G : Group) : List (BitVec 16) :=
  let p := G.members.length
  [nth 0 G.members ((G.rank + p - 1) % p), nth 0 G.members ((G.rank + 1) % p)].eraseDups

/-- R392: HEARTBEAT goes to the neighbours. -/
def beat (g : Nat) (s : State) : State :=
  let G := s.grp g
  (neighbours G).foldl (fun s d => s.postPkt { kind := .heartbeat, src := ownId s, dst := d, group := G.gid, epoch := G.epoch, seq := 0 }) s

/-- HEARTBEAT_SEND (R392, log 3). -/
def execHeartbeatSend (g : Fin 16) (s : State) : Out :=
  .next (if collUp s && grpState (s.grp g.val) == .active then beat g.val s else s)

/-- A packet of a group in use: `f` on its ACTIVE slot; while the slot forms it has no effect; any other is stale. -/
def groupPkt (src gid : BitVec 16) (epoch : Word) (f : Nat → State → State) (s : State) : State :=
  match activeSlot s gid epoch, formingSlot s gid epoch with
  | some g, _ => f g (s.heard g src)
  | none, some _ => s
  | none, none => s.stale

/-- HEARTBEAT (R392). -/
def execHeartbeat (src gid : BitVec 16) (epoch : Word) (s : State) : Out :=
  .next (if collUp s then groupPkt src gid epoch (fun _ s => s) (s.pktIn .heartbeat src gid epoch none) else s)

/-- R393: the slot reads SEVERED; SEVER goes out, and its collectives end. -/
def sever (g : Nat) (s : State) : State :=
  let G := s.grp g
  let s1 := ((s.endColls g 0x50).setGrp g { s.grp g with state := .severed }).setBit (colReg (0x100 + 16 * g)) 3
  s1.postAll G.members { kind := .sever, src := 0, dst := 0, group := G.gid, epoch := G.epoch, seq := 0 }

/-- HEARTBEAT_TIMEOUT (R393, log 3): either neighbour's silence severs the slot. -/
def execHeartbeatTimeout (g : Fin 16) (_next : Bool) (s : State) : Out :=
  .next (if collUp s && grpState (s.grp g.val) == .active then sever g.val s else s)

/-- SEVER (R393). -/
def execSever (src gid : BitVec 16) (epoch : Word) (s : State) : Out :=
  .next (if collUp s then groupPkt src gid epoch sever (s.pktIn .sever src gid epoch none) else s)

/-- The collective in flight that a packet names. -/
def findColl (s : State) (g : Nat) (seq : BitVec 16) : Option (Nat × Coll) :=
  (collsOf s g).find? fun x => BitVec.ofNat 16 x.2.seq.toNat == seq

/-- R383: the collective named by LOST ends. -/
def lostIn (seq : BitVec 16) (g : Nat) (s : State) : State :=
  match findColl s g seq with
  | some (e, C) => s.endColl e C 0x51
  | none => s

/-- LOST (R383). -/
def execLost (src gid : BitVec 16) (epoch : Word) (seq : BitVec 16) (s : State) : Out :=
  .next (if collUp s then groupPkt src gid epoch (lostIn seq) (s.pktIn .lost src gid epoch (some seq)) else s)

/-- R382: credit from engine `src`. -/
def creditIn (src : BitVec 16) (amount : Nat) (s : State) : State :=
  { s with coll := { s.coll with e2e := tput 0 s.coll.e2e src.toNat (tget 0 s.coll.e2e src.toNat + amount) } }

/-- R382: the CREDIT packet of `src` leaves the receive buffer. -/
def State.creditPktIn (s : State) (src : BitVec 16) : State :=
  match s.coll.inp.find? fun h => h.pkt.kind == .credit && h.pkt.src == src with
  | some h => s.pktIn .credit src h.pkt.group h.pkt.epoch none
  | none => s

/-- E2E_CREDIT (R382). -/
def execE2eCredit (src : BitVec 16) (amount : Nat) (s : State) : Out :=
  .next (if collUp s then creditIn src amount (s.creditPktIn src) else s)

/-! ### DATA (R389, R390) -/

/-- R390: what must agree between the two descriptors. -/
def alike (a b : Desc) : Bool := cOp a == cOp b && cFmt a == cFmt b && cRed a == cRed b && cBytes a == cBytes b

/-- R389, R390: the collective of slot `g` that the data of rank `q` belongs to: SEND goes to the RECV of its peer and tag. -/
def dataColl (s : State) (g q : Nat) (seq : BitVec 16) (like : Desc) : Option (Nat × Coll) :=
  if cOp like = 4 then (collsOf s g).find? fun x => cOp x.2.desc == 5 && cPeer x.2.desc == q && cTag x.2.desc == cTag like
  else findColl s g seq

/-- R390: the descriptors of the two ends do not fit. -/
def mismatch (C : Coll) (like : Desc) : Bool :=
  if cOp like = 4 then cFmt like != cFmt C.desc || cRed like != cRed C.desc || cBytes like != cBytes C.desc
  else !alike like C.desc || cOp C.desc == 5 || cOp C.desc == 4

/-- R389: where data at offset `off` of rank `q`'s part goes in the result, and whether it is added. -/
def dataPlace (C : Coll) (q off : Nat) : Option (Nat × Bool) :=
  match cOp C.desc with
  | 1 => some (off, true)
  | 2 => some (off, true)
  | 3 => some (q * cBytes C.desc + off, false)
  | 5 => some (off, false)
  | _ => none

/-- R389: the local stage has written what arriving data is added to. -/
def localReady (C : Coll) (off len : Nat) : Bool :=
  match cOp C.desc with
  | 1 => decide (off + len ≤ 32 * C.contrib.length)
  | 2 => decide (C.rank * (cBytes C.desc / C.members.length) + off + len ≤ 32 * C.contrib.length)
  | _ => true

/-- R226, R389: data of rank `q` is added or written at `DST`. -/
def applyData (e n : Nat) (C : Coll) (q off : Nat) (data : List Byte) (bad : Bool) (s : State) : State :=
  let len := if cOp C.desc = 6 then 1 else data.length
  let C1 := { C with got := tput 0 C.got q (min (collRecv C q) (tget 0 C.got q + len)), poisoned := C.poisoned || bad }
  let s1 := s.setColl e C1
  match dataPlace C q off with
  | none => s1
  | some (o, true) =>
    let a := commonsAddr n (collDst C.desc + o)
    let op := (collWeir C.desc).getD 0
    ((pieces a data.length).foldl (fun s p => s.addSap op p.1 (slice data p.2.1 p.2.2) bad) s1).countColl e data.length
  | some (o, false) => ((s1.devWrite (commonsAddr n (collDst C.desc + o)) data bad .port).st).countColl e data.length

/-- The data lies in the result. -/
def dataFits (C : Coll) (q off len : Nat) : Bool := decide (off + len ≤ collRecv C q) || cOp C.desc == 6

/-- DATA_PACKET's effect on its group: data of a collective not yet started waits; that of a past one is dropped. -/
def dataIn (src : BitVec 16) (seq : BitVec 16) (like : Desc) (off : Nat) (data : List Byte) (bad : Bool) (g : Nat) (s : State) : State :=
  match rankOf (s.grp g).members src, grpOwner s g with
  | some q, some n =>
    (match dataColl s g q seq like with
     | some (e, C) =>
       if mismatch C like then (s.sendLost g (BitVec.ofNat 16 C.seq.toNat)).endColl e C 0x52
       else if dataFits C q off data.length then applyData e n C q off data bad s
       else s
     | none => s)
  | _, _ => s

/-- R382: the packet may be taken now: what it is added to is there, its slices take it, and its collective has started or
is past. -/
def dataGo (s : State) (src gid : BitVec 16) (epoch : Word) (seq : BitVec 16) (like : Desc) (off len : Nat) : Bool :=
  match activeSlot s gid epoch with
  | none => (formingSlot s gid epoch).isNone
  | some g =>
    match rankOf (s.grp g).members src, grpOwner s g with
    | some q, some n =>
      (match dataColl s g q seq like with
       | some (_, C) => mismatch C like ||
           localReady C off len && sapGo s &&
           (match dataPlace C q off with
            | some (o, _) => devWriteGo s (commonsAddr n (collDst C.desc + o)) len
            | none => true)
       | none => cOp like != 4 && decide ((seq - BitVec.ofNat 16 (s.grp g).seq.toNat).toNat = 0 ∨ 0x8000 ≤ (seq - BitVec.ofNat 16 (s.grp g).seq.toNat).toNat))
    | _, _ => true

/-- DATA_PACKET (R389, R390, R394). -/
def execDataPacket (src gid : BitVec 16) (epoch : Word) (seq : BitVec 16) (like : Desc) (off : Nat) (data : List Byte) (poison : Bool) (s : State) : Out :=
  .next (if collUp s && dataGo s src gid epoch seq like off data.length then
    groupPkt src gid epoch (dataIn src seq like off data poison) (s.pktIn .data src gid epoch (some seq)) else s)

end Sys2Proof.Machine
end

