-- ==== Sys2Proof/Machine/Store.lean ====
section
/-!
DEFINITION. Store.lean: the settings store (R462 to R465, R489): its bytes, headers, records, the boot-attempt counter and
the boot log. Layouts that no rule gives are PRESUMED (log 23).
-/
namespace Sys2Proof.Machine

/-! ### Bytes -/

/-- Bytes of the store; erased flash reads ones. -/
def storeBytes (s : State) (a n : Nat) : List Byte := tgets 0xFF s.store a n

/-- Program bytes. -/
def State.storePut (s : State) (a : Nat) (bytes : List Byte) : State := { s with store := tputs 0xFF s.store a bytes }

/-- Erase from `a` up to `b`. -/
def State.storeErase (s : State) (a b : Nat) : State := { s with store := tkeep s.store fun x => decide (x < a) || decide (b ≤ x) }

/-- R462: the areas. -/
def attemptArea : Nat := 0x10000
def deviceArea : Nat := 0x20000
def coolArea : Nat := 0x30000
def defectArea : Nat := 0x3500000
def listArea : Nat := 0x3600000
def logArea : Nat := 0x3700000
def slotArea (b : Bool) : Nat := if b then 0x1900000 else 0x100000

/-! ### Headers and records (R463) -/

/-- A header copy is good: magic, version 1, CRC over both (log 23). -/
def headerOk (s : State) (copy : Nat) : Bool :=
  let h := storeBytes s (4096 * copy) 12
  h.take 4 == [0x56, 0x59, 0x53, 0x53] && leAt h 4 4 == 1 && leAt h 8 4 == crc32 (h.take 8)

/-- The record of an area of `size` bytes: none where its CRC fails, or its length leaves the area. -/
def storeRecord (s : State) (a size : Nat) : Option (List Byte) :=
  let h := storeBytes s a 12
  if size < leAt h 4 4 + 12 then none
  else
    let r := storeBytes s (a + 12) (leAt h 4 4)
    if crc32 r = leAt h 8 4 then some r else none

/-- R438: an image in an area of `size` bytes, or its header alone where it has no magic. -/
def storeImage (s : State) (a size : Nat) : List Byte :=
  let h := storeBytes s a 512
  if h.take 4 = [0x4E, 0x44, 0x52, 0x4E] then storeBytes s a (min size (imgPayAt h + 4096 * imgBlocks h)) else h

/-- R464: the device record: device ID, then 16 partition records as `PART_CFGp` (log 23). -/
def deviceRecord (s : State) : List Word :=
  match storeRecord s deviceArea 0x10000 with
  | some r => wordsOf r 17
  | none => [0xFFFF]

/-- R464: the coolant parameters, each within its range (log 23). -/
def coolRecord (s : State) : Option CoolParm :=
  match storeRecord s coolArea 0x10000 with
  | none => none
  | some r =>
    let ppl := leAt r 0 2
    let w := leAt r 40 2
    if 400 ≤ ppl ∧ ppl ≤ 10000 ∧ 500 ≤ w ∧ w ≤ 10000 then
      some { ppl := ppl, rBase := (List.range 16).map fun i => leAt r (8 + 2 * i) 2, coolWait := w }
    else none

/-- R469: the defect list, at most 4,096 entries. -/
def defectList (s : State) : List Defect :=
  match storeRecord s defectArea 0x100000 with
  | none => []
  | some r => (List.range (min 4096 (r.length / 16))).map fun i => wordsOf (r.drop (16 * i)) 4

/-- R398, R440: the allowlist image, where it is accepted. -/
def allowImage (s : State) : Option (List Byte) :=
  let l := storeImage s listArea 0x100000
  if imgForm l 3 && imgFused s l && imgWhole l then some l else none

/-- R398: its entries of 96 B, at most 64. -/
def allowlist (s : State) : List (List Byte) :=
  match allowImage s with
  | none => []
  | some l => (List.range (min 64 (imgLen l / 96))).map fun i => ((imgPayload l).drop (96 * i)).take 96

/-! ### The boot log (R489) -/

/-- Entries the ring holds. -/
def logSize : Nat := (9 * 1048576 - 32) / 32

/-- An entry: event code and detail have no stated layout, so they are free (log 23). -/
def State.bootLog (s : State) (stage reason : Nat) : State :=
  let f := s.freeBytes 22
  let e := leBytes 4 ((s.tb - s.boot.startAt) / 100000) ++ leBytes 4 s.boot.number ++ leBytes 1 stage ++ f.2.take 1 ++
    leBytes 1 reason ++ f.2.drop 1
  { f.1.storePut (logArea + 32 + 32 * (f.1.boot.logNext % logSize)) e with boot := { f.1.boot with logNext := f.1.boot.logNext + 1 } }

/-- R486: the stage of the last counted failure, newest entry first. -/
def lastFail (s : State) : Nat → Nat
  | 0 => 0
  | n + 1 =>
    let e := storeBytes s (logArea + 32 + 32 * (n % logSize)) 11
    if 6 ≤ leAt e 10 1 ∧ leAt e 10 1 ≤ 12 then leAt e 8 1 else lastFail s n

/-! ### The boot-attempt counter (R465) -/

/-- The kind of record `i` of the counter: 1 an attempt, 2 a clear, 0xFF unwritten (log 23). -/
def attemptKind (s : State) (i : Nat) : Nat := leAt (storeBytes s (attemptArea + 16 * (i + 1)) 1) 0 1

/-- Records that the area holds behind its record header. -/
def attemptSize : Nat := 4095

/-- Records written so far. -/
def attemptNext (s : State) : Nat := ((List.range attemptSize).find? fun i => attemptKind s i == 0xFF).getD attemptSize

/-- Attempts after the last clear record. -/
def attemptCount (s : State) : Nat :=
  (List.range (attemptNext s)).foldl (fun n i => if attemptKind s i = 2 then 0 else if attemptKind s i = 1 then n + 1 else n) 0

/-- Write record `i`. -/
def State.attemptPut (s : State) (i kind : Nat) : State :=
  s.storePut (attemptArea + 16 * (i + 1)) [BitVec.ofNat 8 kind]

/-- A record is written; a full area is erased first and gets the count again. -/
def State.attemptWrite (s : State) (kind : Nat) : State :=
  let n := attemptNext s
  if n < attemptSize then s.attemptPut n kind
  else
    let k := attemptCount s
    let s1 := s.storeErase (attemptArea + 16) (attemptArea + 0x10000)
    ((List.range k).foldl (fun s i => s.attemptPut i 1) s1).attemptPut k kind

/-- R490: `BOOT_STAT.ATTEMPTS` shows the count. -/
def State.showAttempts (s : State) : State := s.setFld (bootReg 0x040) 10 2 (min 3 (attemptCount s))

/-! ### The window (R487, R490) -/

/-- The command touches the boot-attempt counter area. -/
def storeProtected (a : Nat) : Bool := decide (attemptArea ≤ a) && decide (a < attemptArea + 0x10000)

/-- SSTORE_CMD: a command while one runs is ignored; one on the protected area is refused. -/
def storeCmd (c : BitVec 2) (s : State) : State :=
  let a := s.fld (bootReg 0x100) 0 26 / 256 * 256
  if s.fld (bootReg 0x108) 0 2 = 1 ∨ c = 0 then s
  else if c ≠ 1 ∧ storeProtected a then s.setBit (bootReg 0x108) 2
  else
    let at_stage := if bootState s = 0 then s.fld (bootReg 0x040) 0 5 else 0
    { s with boot := { s.boot with sstore := some (c, a, at_stage) } }.setFld (bootReg 0x108) 0 2 1

/-- SSTORE_READ (R487). -/
def execSstoreRead (r : Req) (s : State) : Out := .next (s.access r (bootReg 0x104) (storeCmd 1))

/-- SSTORE_PROGRAM (R487). -/
def execSstoreProgram (r : Req) (s : State) : Out := .next (s.access r (bootReg 0x104) (storeCmd 2))

/-- SSTORE_ERASE (R487). -/
def execSstoreErase (r : Req) (s : State) : Out := .next (s.access r (bootReg 0x104) (storeCmd 3))

/-- R487: a command given during stages 0x02 to 0x0E waits until that stage has ended. -/
def storeWaits (s : State) (stage : Nat) : Bool :=
  s.boot.running && decide (2 ≤ stage) && decide (stage ≤ 14) && !s.boot.passed.contains stage

/-- The window's bytes. -/
def windowBytes (s : State) : List Byte := bytesOf ((List.range 64).map fun i => s.reg (bootReg (0x200 + 4 * i)))

/-- A page may be programmed: it was erased before. -/
def pageErased (s : State) (a : Nat) : Bool := (storeBytes s a 256).all (· == 0xFF)

/-- The command's effect; false where it cannot be done. -/
def storeEffect (c : BitVec 2) (a : Nat) (s : State) : State × Bool :=
  match c.toNat with
  | 1 =>
    let b := storeBytes s a 256
    ((List.range 64).foldl (fun s i => s.setReg (bootReg (0x200 + 4 * i)) (BitVec.ofNat 32 (leAt b (4 * i) 4))) s, true)
  | 2 => if pageErased s a then (s.storePut a (windowBytes s), true) else (s, false)
  | _ => (s.storeErase (a / 65536 * 65536) (a / 65536 * 65536 + 65536), true)

/-- SSTORE_DONE (R487): the command ends, done or failed. -/
def execSstoreDone (ok : Bool) (s : State) : Out :=
  .next (match s.boot.sstore with
    | none => s
    | some (c, a, stage) =>
      if !pkgUp s || storeWaits s stage then s
      else
        let r := if ok then storeEffect c a s else (s, false)
        { r.1 with boot := { r.1.boot with sstore := none } }.setFld (bootReg 0x108) 0 2 (if r.2 then 2 else 3))

/-- CLR_ATTEMPTS (R465, R490). -/
def execClrAttempts (r : Req) (s : State) : Out :=
  .next (s.access r (bootReg 0x044) fun s => (s.attemptWrite 2).showAttempts)

/-- R490: `NEXT_SLOT`; 3 is ignored. -/
def writeNextSlot (v : BitVec 2) (s : State) : State := if v = 3 then s else { s with boot := { s.boot with nextSlot := v } }

/-- NEXT_SLOT (R490). -/
def execNextSlot (r : Req) (v : BitVec 2) (s : State) : Out := .next (s.access r (bootReg 0x044) (writeNextSlot v))

end Sys2Proof.Machine
end

