-- ==== Sys2Proof/Machine/Ferry.lean ====
section
/-!
DEFINITION. Ferry.lean: ferry admission, loss and readmission (R396 to R400, R404, R533).
-/
namespace Sys2Proof.Machine

/-! ### The checks (R397 to R399) -/

/-- R398: an entry for this vendor, product and kind. -/
def allowFor (x : FerryInfo) (e : List Byte) : Bool :=
  leAt e 0 2 == x.vendor.toNat && leAt e 2 2 == x.product.toNat && leAt e 4 1 == b2n x.landing

/-- R398, R399: the first check of an entry that fails, by its reason. -/
def allowReason (x : FerryInfo) (e : List Byte) : Option Nat :=
  let m := (e.drop 16).take 32
  if x.version.toNat < leAt e 8 4 then some 4
  else if m.any (· != 0) ∧ m ≠ x.meas.take 32 then some 5
  else if nbit (leAt e 12 4) 0 ∧ !(x.signed && x.signerHash == (e.drop 48).take 32) then some 6
  else none

/-- R398: one entry admits the ferry; otherwise the reason is that of the first entry for it. -/
def listReason (l : List (List Byte)) (x : FerryInfo) : Option Nat :=
  match l.filter (allowFor x) with
  | [] => some 3
  | e :: rest => if (e :: rest).any (fun e => (allowReason x e).isNone) then none else allowReason x e

/-- R397, R399: the reason that rejects the ferry at site `i`, in the order of the steps; none admits it. -/
def ferryReason (s : State) (i : Nat) (x : FerryInfo) : Option Nat :=
  if !x.answers then some 1
  else if x.landing != (i == 8) then some 7
  else if !x.trains then some 2
  else listReason (allowlist s) x

/-! ### Admission (R397) -/

/-- What the ditch rider reads of the ferry. -/
def State.readFerry (s : State) (i : Nat) (x : FerryInfo) : State :=
  let s1 := ((s.setReg (ferReg i 0x044) (BitVec.ofNat 32 (x.vendor.toNat + x.product.toNat * 65536))).setReg (ferReg i 0x048) x.version)
  let s2 := (s1.setReg (ferReg i 0x04C) (BitVec.ofNat 32 x.serial.toNat)).setReg (ferReg i 0x050) (BitVec.ofNat 32 (nbits x.serial.toNat 32 32))
  (List.range 8).foldl (fun s k => s.setReg (ferReg i (0x060 + 4 * k)) (BitVec.ofNat 32 (leAt x.meas (4 * k) 4))) s2

/-- R404: `FERRY_STAT`. -/
def State.setFerry (s : State) (i state reason modules : Nat) (ucie2 : Bool) : State :=
  s.setReg (ferReg i 0x040) (BitVec.ofNat 32 (state + reason * 8 + modules % 256 * 128 + b2n ucie2 * 32768))

/-- R445: the measurement of the ferry at site `i`. -/
def State.setFerryMeas (s : State) (i : Nat) (m : List Byte) : State :=
  { s with sec := { s.sec with meas := tput [] s.sec.meas (6 + i) m } }

/-- The crossings of a site. -/
def siteXngs (i : Nat) : List Nat := if i < 8 then (List.range 4).map (4 * i + ·) else []

/-- R467: a lane channel found bad at package test is spared before training. -/
def State.markLane (s : State) (n : Nat) : State :=
  if s.fuses.badLanes.contains n then s.updXng n fun X => { X with spareMark := true } else s

/-- R397: the ferry is admitted: its lanes are released. -/
def State.admitFerry (s : State) (i : Nat) (x : FerryInfo) : State :=
  let s1 := ((s.readFerry i x).setFerry i 4 0 (x.modules.toNat % (if i = 8 then 16 else 256)) x.ucie2).setFerryMeas i (x.meas.take 32)
  (siteXngs i).foldl (fun s n => (s.xngDetect n).markLane n) s1

/-- R397, R399: the ferry is held in reset, and its crossings read DISABLED; a rejection at site L is logged and printed. -/
def State.rejectFerry (s : State) (i : Nat) (x : FerryInfo) (reason : Nat) : State :=
  let s1 := ((if x.answers then s.readFerry i x else s).setFerry i 5 reason 0 x.ucie2).setFerryMeas i (List.replicate 32 0)
  let s2 := (siteXngs i).foldl (fun s n => s.xngDark n) s1
  if i = 8 then (s2.bootLog 3 0).send (.uart [BitVec.ofNat 8 reason]) else s2

/-- R397, R485: the ditch rider works on the site: site L once stage 0x02 has read the allowlist, the others from stage 0x0A
on; in low-water mode site L alone. -/
def ferryTurn (s : State) (i : Nat) : Bool :=
  match bootState s with
  | 0 => s.boot.running && s.boot.passed.contains (if i = 8 then 2 else 9)
  | 1 => true
  | _ => i == 8

/-- FERRY_ADMISSION (R397). -/
def execFerryAdmission (i : Fin 9) (x : FerryInfo) (s : State) : Out :=
  .next (if pkgUp s && ferryTurn s i.val && ferryState s i.val != 4 && ferryState s i.val != 5 then
    (match ferryReason s i.val x with
     | none => s.admitFerry i.val x
     | some reason => s.rejectFerry i.val x reason)
    else s)

/-! ### Loss (R400, R533) -/

/-- A crossing whose ferry is lost. -/
def State.ferryXngLost (s : State) (n : Nat) : State := if (s.xng n).state = .disabled then s else s.xngDown n 10

/-- R400: the ferry reads LOST; the loss of site L is a DL_Down of the landing. -/
def State.loseFerry (s : State) (i : Nat) : State :=
  if i = 8 then hotResetNow s
  else (siteXngs i).foldl (fun s n => s.ferryXngLost n) ((s.setFerry i 6 0 0 (s.bit (ferReg i 0x040) 15)).setFerryMeas i (List.replicate 32 0))

/-- FERRY_LOST (R400, R533). -/
def execFerryLost (i : Fin 9) (hot : Bool) (s : State) : Out :=
  .next (if pkgUp s && ferryState s i.val == 4 then
    (let s1 := s.loseFerry i.val
     if hot then s1.alert 8 else s1)
    else s)

/-- R400: admission is repeated: the site's lanes go dark until it has passed again. -/
def readmit (i : Nat) (s : State) : State :=
  let s1 := (s.setFerry i 1 0 0 false).setFerryMeas i (List.replicate 32 0)
  (siteXngs i).foldl (fun s n => s.ferryXngLost n) s1

/-- FERRY_READMIT (R400). -/
def execFerryReadmit (r : Req) (i : Fin 9) (s : State) : Out := .next (s.access r (ferReg i.val 0x080) (readmit i.val))

end Sys2Proof.Machine
end

