-- ==== Sys2Proof/Machine/Flood.lean ====
section
/-!
DEFINITION. Flood.lean: firmware images in the slots (R466) and the flood: receivers, blocks, repair rounds and holding out
(R477 to R481).
-/
namespace Sys2Proof.Machine

/-! ### Firmware images (R440, R466; section table PRESUMED, log 24) -/

/-- The image in a slot. -/
def slotImage (s : State) (b : Bool) : List Byte := storeImage s (slotArea b) 0x1800000

/-- Blocks of the ditch rider, core, plot and microcode sections, which follow each other from payload block 0. -/
def secCounts (l : List Byte) : List Nat := (List.range 4).map fun i => leAt (imgPayload l) (2 * i) 2

/-- First block of section `i`. -/
def secFirst (l : List Byte) (i : Nat) : Nat := ((secCounts l).take i).foldl (· + ·) 0

/-- First block and number of blocks of section `i`. -/
def secRange (l : List Byte) (i : Nat) : Nat × Nat := (secFirst l i, nth 0 (secCounts l) i)

/-- The blocks of a range. -/
def rangeBlocks (r : Nat × Nat) : List Nat := (List.range r.2).map (r.1 + ·)

/-- The bytes of section `i`. -/
def secBytes (l : List Byte) (i : Nat) : List Byte := (rangeBlocks (secRange l i)).flatMap (imgBlock l)

/-- R466: the sections keep to their limits, in blocks of 4 KiB, and lie within the payload. -/
def secOk (l : List Byte) : Bool :=
  ((List.range 4).all fun i => decide (nth 0 (secCounts l) i ≤ nth 0 [384, 256, 8, 64] i)) && decide (secFirst l 4 ≤ imgBlocks l)

/-- The image's minimum I/O die revision. -/
def imgMinRev (l : List Byte) : Nat := leAt (imgPayload l) 8 1

/-- A block matches its listed digest. -/
def blockOk (l : List Byte) (i : Nat) : Bool := sha256 (imgBlock l i) == imgDigest l i

/-- R466: every check of an image in a slot; the blocks of the ditch rider section only. -/
def firmwareOk (s : State) (l : List Byte) : Bool :=
  imgForm l 0 && imgFused s l && decide (s.fuses.svn ≤ imgSvn l) && secOk l && (rangeBlocks (secRange l 0)).all (blockOk l) &&
  decide (imgMinRev l ≤ (tget 0 s.fuses.rev 16).toNat)

/-- R458: the slots in the order of this boot, but for those that failed in the series. -/
def slotOrder (s : State) : List Bool :=
  (if s.boot.aFirst then [false, true] else [true, false]).filter fun b => !s.boot.failedSlots.contains b

/-- R466: the slot that boots. -/
def bootSlot (s : State) : Option Bool := (slotOrder s).find? fun b => firmwareOk s (slotImage s b)

/-! ### Receivers (R477, R479) -/

/-- A receiver. -/
def State.receiver (s : State) (r : Nat) : Receiver := tget ({} : Receiver) s.boot.recv r

/-- Change a receiver. -/
def State.updReceiver (s : State) (r : Nat) (f : Receiver → Receiver) : State :=
  { s with boot := { s.boot with recv := tput ({} : Receiver) s.boot.recv r (f (s.receiver r)) } }

/-- The section of each receiver: a core complex takes the core firmware, a plot its firmware and its microcode. -/
def recvSections (s : State) (r : Nat) : List (Nat × Nat) :=
  if r < 512 then [nth (0, 0) s.boot.sections 1, nth (0, 0) s.boot.sections 2] else [nth (0, 0) s.boot.sections 0]

/-- The blocks that a receiver still wants: the clear bits of its bitmap. -/
def missing (s : State) (r : Nat) : List Nat :=
  ((recvSections s r).flatMap rangeBlocks).filter fun b => !(s.receiver r).got.contains b

/-- R2, R473: the stacks that this boot keeps. -/
def keptStacks (s : State) : List Nat := (List.range 16).filter fun st => activeStack s st && !heldOut s st

/-- The receivers of the stacks kept. -/
def receivers (s : State) : List Nat :=
  (keptStacks s).flatMap fun st => (((List.range 32).map (32 * st + ·)).filter (plotReported s)) ++ [512 + st]

/-- Receivers with a clear bit. -/
def incomplete (s : State) : List Nat := (receivers s).filter fun r => missing s r != [] && !(s.receiver r).out

/-- R478: the flood starts: the digest block is broadcast. -/
def State.startFlood (s : State) : State :=
  let l := slotImage s s.boot.lastSlot
  let blocks := s.boot.sections.flatMap rangeBlocks
  { s with boot := { s.boot with digests := blocks.map fun b => (b, imgDigest l b), recv := [], flooding := true, roundOn := false } }.setReg
    (bootReg 0x0C4) (BitVec.ofNat 32 (blocks.length % 1024))

/-- R478: a block that the ditch rider reads has a wrong digest. -/
def floodBad (s : State) : Bool :=
  let l := slotImage s s.boot.lastSlot
  s.boot.digests.any fun d => sha256 (imgBlock l d.1) != d.2

/-- R479: the block is written to its destination. -/
def State.installBlock (s : State) (r num : Nat) (data : List Byte) : State :=
  let core := nth (0, 0) s.boot.sections 0
  let plot := nth (0, 0) s.boot.sections 1
  let ucode := nth (0, 0) s.boot.sections 2
  if 512 ≤ r then s.updStk (r - 512) fun T => { T with coreFw := tputs 0 T.coreFw (4096 * (num - core.1)) data }
  else if plot.1 ≤ num ∧ num < plot.1 + plot.2 then s.updPlot r fun P => { P with fw := tputs 0 P.fw (4096 * (num - plot.1)) data }
  else s.updSlc r fun S => { S with ucode := tputs 0 S.ucode (4096 * (num - ucode.1)) data }

/-- R479: a block of the receiver's sections whose bit is clear and whose digest is the listed one. -/
def blockTaken (s : State) (r num : Nat) (data : List Byte) : Bool :=
  (missing s r).contains num && (s.boot.digests.any fun d => d.1 == num && d.2 == sha256 data)

/-- FLOOD_BLOCK (R479). -/
def execFloodBlock (r num : Nat) (data : List Byte) (s : State) : Out :=
  .next (if pkgUp s && s.boot.flooding && (receivers s).contains r && !(s.receiver r).out && blockTaken s r num data then
    (s.installBlock r num data).updReceiver r fun R => { R with got := num :: R.got, asked := R.asked.filter (· != num) }
  else s)

/-! ### Repair rounds (R480, R481) -/

/-- `FLOOD_STAT.ROUNDS`. -/
def floodRounds (s : State) : Nat := s.fld (bootReg 0x0C4) 10 2

/-- R480: every receiver with a clear bit asks for its missing blocks, and a repair round runs. -/
def State.startRound (s : State) : State :=
  let s1 := (incomplete s).foldl (fun s r => (s.addFld (bootReg 0x0C4) 12 10 (missing s r).length).updReceiver r fun R => { R with asked := missing s r }) s
  { s1 with boot := { s1.boot with roundOn := true } }.addFld (bootReg 0x0C4) 10 2 1

/-- FLOOD_REPAIR_REQUEST (R480): after the main pass. -/
def execFloodRepairRequest (s : State) : Out :=
  .next (if pkgUp s && s.boot.flooding && !s.boot.roundOn && floodRounds s == 0 && incomplete s != [] then s.startRound else s)

/-- R481: the microcode of a plot's receiver is complete. -/
def ucodeComplete (s : State) (r : Nat) : Bool :=
  (rangeBlocks (nth (0, 0) s.boot.sections 2)).all fun b => (s.receiver r).got.contains b

/-- R481: a receiver is held out. -/
def State.holdReceiver (s : State) (r : Nat) : State :=
  let s1 := s.updReceiver r fun R => { R with out := true, asked := [] }
  if 512 ≤ r then s1.setBit (bootReg 0x04C) (16 + (r - 512))
  else
    let s2 := if ucodeComplete s r then s1
              else (s1.updSlc r fun S => { S with noUcode := true }).setReg (norReg r 0x048) (BitVec.ofNat 32 (2 ^ 32 - 1))
    s2.failPlot r .flood

/-- R480, R481: a round ends: the next one runs, or after the third the incomplete receivers are held out. -/
def State.endRound (s : State) : State :=
  let s1 := { s with boot := { s.boot with roundOn := false } }
  if incomplete s1 = [] then s1
  else if floodRounds s1 < 3 then s1.startRound
  else (incomplete s1).foldl (fun s r => s.holdReceiver r) s1

/-- FLOOD_ROUND_END (R480). -/
def execFloodRoundEnd (s : State) : Out := .next (if pkgUp s && s.boot.flooding && s.boot.roundOn then s.endRound else s)

/-- R480: the flood has ended: no round runs and no receiver waits. -/
def floodOver (s : State) : Bool := !s.boot.roundOn && incomplete s == []

end Sys2Proof.Machine
end

