-- ==== Sys2Proof/Machine/Boot.lean ====
section
/-!
DEFINITION. Boot.lean: the boot stages (R458 to R474, R483, R484), failures of the start and low-water mode (R461, R485, R486),
and the resets that BOOT_CTRL starts.
-/
namespace Sys2Proof.Machine

/-! ### The order of the stages (R459) -/

/-- The boot takes the warm path. -/
def warmBoot (s : State) : Bool := s.bit (bootReg 0x040) 8

/-- The stages that must have ended before stage `k` starts; a stage that the path skips never starts. -/
def stagePre (warm : Bool) (k : Nat) : List Nat :=
  match k with
  | 0x01 => []
  | 0x02 | 0x03 => [0x01]
  | 0x04 => [0x02]
  | 0x05 | 0x06 => [0x04]
  | 0x07 => [0x06]
  | 0x08 => if warm then [0xFF] else [0x07]
  | 0x09 => if warm then [0x07] else [0x08]
  | 0x0A | 0x0B => [0x09]
  | 0x0C => [0x0A, 0x0B]
  | 0x0D => if warm then [0xFF] else [0x0C]
  | 0x0E => if warm then [0x0C] else [0x0D]
  | 0x0F => [0x05, 0x0E]
  | 0x10 => [0x03, 0x0F]
  | _ => [0xFF]

/-- Stage `k` runs. -/
def stageOn (s : State) (k : Nat) : Bool :=
  s.boot.running && bootState s == 0 && !s.boot.passed.contains k && (stagePre (warmBoot s) k).all s.boot.passed.contains

/-- The stages that run beside others are not shown in `BOOT_STAT.STAGE`. -/
def sideStage (k : Nat) : Bool := k == 0x03 || k == 0x05 || k == 0x0A

/-! ### What a stage starts with -/

/-- R475: a boot test. -/
def State.bootTest (s : State) (test kind st idx : Nat) : State :=
  let t : TestReq := { id := s.faults.nextTest, test := BitVec.ofNat 8 test, scopeKind := BitVec.ofNat 8 kind, stack := st, idx := idx,
                       when := s.tb, limit := 0, job := none }
  ({ s with faults := { s.faults with running := s.faults.running ++ [t], nextTest := s.faults.nextTest + 1 } }).startTest t

/-- R475, R476: every test on every unit of a stack. -/
def State.bootTests (s : State) (st : Nat) : State :=
  let plots := (List.range 32).filter fun p => plotReported s (32 * st + p)
  let s1 := plots.foldl (fun s p => ((s.bootTest 1 0 st p).bootTest 2 0 st p).bootTest 3 0 st p) s
  let s2 := (List.range 4).foldl (fun s q => s.bootTest 4 1 st q) s1
  let s3 := ((s2.bootTest 5 2 st 0).bootTest 6 2 st 0).bootTest 10 2 st 0
  let s4 := (List.range 8).foldl (fun s m => (s.bootTest 7 3 st m).bootTest 8 3 st m) s3
  (List.range 13).foldl (fun s i => s.bootTest 9 4 st i) s4

/-- R483: the arc of a partition record obeys R327, a stack held out apart. -/
def recordOk (s : State) (first log2 : Nat) : Bool :=
  let arc := arcFrom s first log2
  decide (log2 ≤ 4) && activeStack s first && arc.length == 2 ^ log2 && arc.all fun st => (partOf s st).isNone

/-- R483: one partition record. -/
def State.assignRecord (s : State) (n : Nat) (w : Nat) : State :=
  let first := nbits w 0 4
  let log2 := nbits w 4 3
  if !nbit w 7 then s
  else if !recordOk s first log2 then s.bootLog 0x0F 0
  else
    let s1 := s.setFld (partCfgReg n) 0 8 (nbits w 0 8)
    if (arcFrom s first log2).any (heldOut s) then
      (s1.updPart n fun P => { P with first := first, sizeLog2 := log2, assigned := true }).setPState n .faulted
    else s1.assignPart n first log2

/-- R483, R326: the records are assigned; a stack outside every partition is held in reset. -/
def State.assignRecords (s : State) : State :=
  let s1 := (List.range 16).foldl (fun s n => s.assignRecord n (dw s.boot.devRec (n + 1))) s
  (keptStacks s1).foldl (fun s st => if (partOf s st).isNone then (s.clearStack st).requestVdd st 550 else s) s1

/-- What the start of stage `k` does. -/
def State.stageHook (s : State) (k : Nat) : State :=
  match k with
  | 0x06 => (match coolRecord s with
    | some c => { s with boot := { s.boot with cool := c } }
    | none => s)
  | 0x0D => (keptStacks s).foldl (fun s st => s.bootTests st) s
  | 0x0E => s.startFlood
  | 0x0F => s.assignRecords
  | _ => s

/-- R461: a stage starts: its code is printed. -/
def State.startStage (s : State) (k : Nat) : State :=
  let s1 := ({ s with boot := { s.boot with stageAt := tput 0 s.boot.stageAt k (s.tb + 1) } }).send (.uart [BitVec.ofNat 8 k])
  (if sideStage k then s1 else s1.setFld (bootReg 0x040) 0 5 k).stageHook k

/-- The stages that can start now. -/
def State.startStages (s : State) : State :=
  (List.range 17).foldl (fun s k => if stageOn s k ∧ tget 0 s.boot.stageAt k = 0 then s.startStage k else s) s

/-! ### Failures of the start (R461, R485, R486) -/

/-- R432: the measurement block. -/
def aliasBlock (s : State) (imgHash : List Byte) (svn : Nat) : List Byte :=
  romDigest ++ imgHash ++ leBytes 1 svn ++ leBytes 1 (b2n (s.bit (secReg 0x040) 16) + 2 * s.fuses.revoked.toNat)

/-- R432, R434: the keys are derived. -/
def State.deriveKeys (s : State) (imgHash : List Byte) (svn : Nat) : State :=
  { s with sec := { s.sec with devidKey := true, aliasM := aliasBlock s imgHash svn } }

/-- R445: the security state of measurement 16. -/
def securityState (s : State) : List Byte :=
  leBytes 2 (b2n (s.bit (secReg 0x040) 16) + 2 * s.fuses.revoked.toNat + 256 * s.fuses.svn)

/-- R445, R446: the measurements of the boot ROM, the tollhouse and the security state, fixed at the end of boot. -/
def State.fixMeas (s : State) : State :=
  let m := tput [] (tput [] (tput [] s.sec.meas 1 romDigest) 15 (leBytes 4 s.toll.version.toNat ++ s.toll.checksum)) 16 (securityState s)
  { s with sec := { s.sec with meas := m } }

/-- R485, R486: low-water mode. -/
def State.lowWater (s : State) (stage reason : Nat) : State :=
  let s1 := (s.bootLog stage reason).send (.uart [BitVec.ofNat 8 reason])
  let s2 := (s1.setFld (bootReg 0x040) 5 2 2).setFld (bootReg 0x040) 12 8 reason
  let s3 := s2.setFld (bootReg 0x040) 20 5 (if reason = 2 then lastFail s s.boot.logNext else stage)
  ({ s3 with boot := { s3.boot with running := false, flooding := false } }.deriveKeys (List.replicate 32 0) 0).fixMeas

/-- R458, R461: a counted failure: the reason is logged, and the boot restarts on the cold path with the landing's link up. -/
def State.restart (s : State) (stage reason : Nat) : State :=
  let s1 := (s.bootLog stage reason).send (.uart [BitVec.ofNat 8 reason])
  let failed := if s.boot.passed.contains 0x04 then s.boot.lastSlot :: s.boot.failedSlots else s.boot.failedSlots
  let s2 := (((s1.clearPkg true).setReg (lndReg 0x040) (s.reg (lndReg 0x040))).setReg (ferReg 8 0x040) (s.reg (ferReg 8 0x040))).startBoot false
  { s2 with boot := { s2.boot with failedSlots := failed } }

/-- R461: the start fails. -/
def State.failStart (s : State) (stage reason : Nat) : State :=
  if reason ≤ 5 then s.lowWater stage reason else s.restart stage reason

/-! ### What each stage finds in the settings store -/

/-- A failure that the settings store's contents bring about. -/
def storeFails (s : State) (k : Nat) : Option Nat :=
  match k with
  | 0x02 =>
    if s.pins.bootMode = 2 then some 1
    else if !headerOk s 0 ∧ !headerOk s 1 then some 3
    else if 3 ≤ attemptCount s then some 2
    else none
  | 0x04 => if (bootSlot s).isNone then some 4 else none
  | 0x06 => if (coolRecord s).isNone then some 5 else none
  | 0x0E => if floodBad s then some 10 else none
  | _ => none

/-- R470: the coolant conditions of stage 0x06. -/
def coolReady (s : State) : Bool :=
  let t := sext 16 (s.fld (thmReg 0x044) 0 16)
  s.bit (thmReg 0x044) 16 && s.bit (thmReg 0x048) 16 && decide (240 ≤ t) && decide (t ≤ 720) && s.bit (pkgReg 0x044) 3

/-- R397: a site's admission has ended. -/
def ferryDone (s : State) (i : Nat) : Bool := ferryState s i == 4 || ferryState s i == 5

/-- What a stage needs before it can pass. -/
def stageReady (s : State) (k : Nat) : Bool :=
  match k with
  | 0x03 => ferryDone s 8
  | 0x06 => coolReady s
  | 0x0A => (List.range 8).all (ferryDone s)
  | 0x0E => floodOver s
  | 0x0F => (List.range 16).all fun n => (s.part n).state != .resetting
  | _ => true

/-! ### What each stage leaves -/

/-- R463 to R465: stage 0x02. -/
def State.endSettings (s : State) : State :=
  let rec_ := deviceRecord s
  let s1 := (s.attemptWrite 1).showAttempts
  let s2 := ({ s1 with boot := { s1.boot with devRec := rec_ } }).setFld (xpkReg 0x040) 0 16 (df rec_ 0 0 16)
  let s3 := match allowImage s with
    | some l => { s2 with sec := { s2.sec with meas := tput [] s2.sec.meas 5 (sha256 l) } }
    | none => s2
  if s.pins.bootMode = 3 then s3.bootLog 0x02 0 else s3

/-- R466: stage 0x04: slot `b` boots; the slots tried before it are logged. -/
def State.endImage (s : State) (b : Bool) : State :=
  let l := slotImage s b
  let s1 := ((slotOrder s).takeWhile (· != b)).foldl (fun s _ => s.bootLog 0x04 0) s
  let s2 := { s1 with boot := { s1.boot with lastSlot := b, sections := [secRange l 1, secRange l 2, secRange l 3], imgHash := sha256 (l.take (imgSigAt l)) } }
  let s3 := ((s2.setFld (bootReg 0x040) 7 1 (b2n b)).setFld (secReg 0x040) 8 2 (imgKey l)).setFld (secReg 0x044) 16 7 (imgSvn l)
  let m := tput [] (tput [] (tput [] (tput [] s3.sec.meas 1 romDigest) 2 (sha256 (secBytes l 0 ++ secBytes l 1))) 3 (sha256 (secBytes l 2))) 4
    (sha256 (secBytes l 3))
  { s3 with sec := { s3.sec with meas := m } }

/-- R472, R624: stage 0x07: every die is read; the features that every kept die has. -/
def State.endDieId (s : State) : State :=
  let dies := (List.range 16).filter (activeStack s) ++ [16]
  let kept := keptStacks s ++ [16]
  let m := kept.foldl (fun m d => Nat.land m (tget 0 s.fuses.feature d).toNat) (2 ^ 64 - 1)
  (({ s with boot := { s.boot with answered := dies } }).setReg (pkgReg 0x048) (BitVec.ofNat 32 m)).setReg (pkgReg 0x04C) (BitVec.ofNat 32 (m / 2 ^ 32))

/-- R467: the sites of a stack marked bad, by fuse and by the defect list. -/
def badSitesOf (s : State) (st : Nat) : List Nat :=
  let fused := (s.fuses.badSites.filter fun x => x / 64 == st).map (· % 64)
  let listed := ((defectList s).filter fun d => df d 0 0 8 == 1 && df d 0 8 8 == st).map fun d => df d 0 16 8
  (List.range 34).filter fun x => fused.contains x || listed.contains x

/-- R468: the map of a stack die: the good sites in ascending order. -/
def State.mapSites (s : State) (st : Nat) : State :=
  let good := (List.range 34).filter fun x => !((s.stk st).badSites.contains x)
  (List.range 32).foldl (fun s p => s.setFld (dfReg st (0x040 + p / 4 * 4)) (8 * (p % 4)) 6 (nth 0 good p)) s

/-- R258, R467: a row goes to the next spare of its bank; with no spare left it is skipped and logged. -/
def State.repairRow (s : State) (k bank row : Nat) : State :=
  if sparesLeft s k bank = 0 then s.bootLog 0x08 0
  else s.updSlc k fun S =>
    { S with rowMap := tput 0 S.rowMap (bank * 32768 + row) (tget 0 S.spareUsed bank + 1)
             spareUsed := tput 0 S.spareUsed bank (tget 0 S.spareUsed bank + 1) }

/-- R467, R468: stage 0x08. -/
def State.endFuses (s : State) : State :=
  let s1 := (keptStacks s).foldl (fun s st => (s.updStk st fun T => { T with badSites := badSitesOf s st, usedSites := [] }).mapSites st) s
  let s2 := s1.fuses.rowFix.foldl (fun s r => s.repairRow r.1 r.2.1 r.2.2) s1
  ((defectList s).filter fun d => df d 0 0 8 == 2 && decide (df d 0 8 8 < 16) && decide (df d 0 24 8 < 32) && decide (df d 1 0 8 < 32)).foldl
    (fun s d => s.repairRow (32 * df d 0 8 8 + df d 0 24 8) (df d 1 0 8) (df d 2 0 15)) s2

/-- R29, R470, R554: stage 0x09: the stacks leave reset at the P-state of their grade; a disabled position gets 0.55 V. -/
def State.endClocks (s : State) : State :=
  let s1 := (keptStacks s).foldl (fun s st => (s.updStk st fun T => { T with inReset := false }).startGov st) s
  ((List.range 16).filter fun st => !(activeStack s st)).foldl (fun s st => s.requestVdd st 550) s1

/-- R475, R476: stage 0x0D: what has not failed has passed. -/
def State.endTests (s : State) : State :=
  let mine := s.faults.running.filter fun t => t.job.isNone
  mine.foldl (fun s t => s.testEnded t true) { s with faults := { s.faults with running := s.faults.running.filter fun t => t.job.isSome } }

/-- R484: READY. -/
def State.endReady (s : State) : State :=
  let s1 := ((s.setFld (bootReg 0x040) 5 2 1).setReg (bootReg 0x048) (BitVec.ofNat 32 ((s.tb - s.boot.startAt) / 100000))).attemptWrite 2
  let s2 := s1.showAttempts.bootLog 0x10 0
  { s2 with boot := { s2.boot with running := false, failedSlots := [] } }.fixMeas

/-- What the end of stage `k` leaves. -/
def State.stageEffect (s : State) (k : Nat) : State :=
  match k with
  | 0x02 => s.endSettings
  | 0x04 => (match bootSlot s with
    | some b => s.endImage b
    | none => s)
  | 0x05 => s.deriveKeys s.boot.imgHash (s.fld (secReg 0x044) 16 7)
  | 0x07 => s.endDieId
  | 0x08 => s.endFuses
  | 0x09 => s.endClocks
  | 0x0B => (keptStacks s).foldl (fun s st => s.linksUp st) s
  | 0x0C => (keptStacks s).foldl (fun s st => s.filledStack st) s
  | 0x0D => s.endTests
  | 0x0E => { s with boot := { s.boot with flooding := false } }
  | 0x10 => s.endReady
  | _ => s

/-- R473: a stack is held out: it stays in reset. -/
def State.holdStack (s : State) (k cause st : Nat) : State :=
  if !activeStack s st then s
  else
    let s1 := ((s.setBit (bootReg 0x04C) st).setFld (bootReg (0x050 + 4 * (st / 8))) (4 * (st % 8)) 4 cause).bootLog k 0
    if (s.stk st).inReset then s1 else s1.clearStack st

/-- The causes of R473, by stage. -/
def holdCause (k : Nat) : Nat :=
  match k with
  | 0x07 => 1
  | 0x08 => 2
  | 0x09 => 3
  | 0x0B => 4
  | _ => 0

/-- A stage ends: it passes, and holds out what it must. -/
def State.endStage (s : State) (k : Nat) (hold : List Nat) : State :=
  let s1 := hold.foldl (fun s st => s.holdStack k (holdCause k) st) s
  if keptStacks s1 = [] then s1.failStart k 11
  else
    let s2 := s1.stageEffect k
    ({ s2 with boot := { s2.boot with passed := k :: s2.boot.passed } }).startStages

/-- R488: the reasons with which the ditch rider may end a stage, beside those that the store brings about. -/
def failOk (s : State) (k r : Nat) : Bool :=
  r == 12 || (k == 1 && r == 7) || (k == 2 && r == 3) || (k == 4 && (r == 4 || r == 10)) || (k == 0x0E && r == 10) || (k == 9 && r == 8) ||
  (k == 6 && r == 6 && !coolReady s)

/-- BOOT_STAGE_COMPLETE's effect. -/
def stageComplete (k : Nat) (res : StageResult) (s : State) : State :=
  match storeFails s k, res with
  | some r, _ => (if r = 3 then s.setBit (bootReg 0x040) 9 else s).failStart k r
  | none, .fail r => if failOk s k r.toNat then s.failStart k r.toNat else s
  | none, .holdOut hold cause => if cause.toNat = holdCause k ∧ cause ≠ 0 then s.endStage k (hold.map (·.val)) else s
  | none, .pass => if stageReady s k then s.endStage k [] else s

/-- BOOT_STAGE_COMPLETE (R459). -/
def execBootStageComplete (k : Fin 17) (res : StageResult) (s : State) : Out :=
  .next (if pkgUp s && stageOn s k.val then stageComplete k.val res s else s)

/-- BOOT_WATCHDOG (R461): of the stage that `BOOT_STAT` shows. -/
def execBootWatchdog (s : State) : Out :=
  .next (if pkgUp s && s.boot.running then s.failStart (s.fld (bootReg 0x040) 0 5) 9 else s)

/-! ### Resets by BOOT_CTRL (R458, R490, R498) -/

/-- R490: before READY a new boot starts at once; otherwise the package reset runs its phases. -/
def State.pkgReset (s : State) (cold : Bool) : State :=
  if bootState s = 0 then (s.clearPkg cold).startBoot (!cold) else s.beginReset (.package cold) false false

/-- COLD_RESET (R458). -/
def execColdReset (r : Req) (next : BitVec 2) (s : State) : Out :=
  .next (s.access r (bootReg 0x044) fun s => (writeNextSlot next s).pkgReset true)

/-- R490: `WARM_RESET` is ignored in low-water mode. -/
def warmCmd (s : State) : State := if bootState s = 2 then s else s.pkgReset false

/-- WARM_RESET (R458). -/
def execWarmReset (r : Req) (s : State) : Out := .next (s.access r (bootReg 0x044) warmCmd)

end Sys2Proof.Machine
end

