-- ==== Sys2Proof/Machine/Cores.lean ====
section
/-!
DEFINITION. Cores.lean: the host-class cores (R406 to R420): their release, their atomic instructions to cached and uncached
addresses, their access faults, and their tokens. What RISC-V itself gives (register numbers of the CSRs, trap entry) is
PRESUMED, log 16.
-/
namespace Sys2Proof.Machine

/-! ### Registers and traps -/

/-- Integer register `n`; x0 reads zero. -/
def HCore.getX (C : HCore) (n : Nat) : BitVec 64 := if n = 0 then 0 else nth 0 C.x (n - 1)

/-- Write integer register `n`; x0 discards. -/
def HCore.setX (C : HCore) (n : Nat) (v : BitVec 64) : HCore := if n = 0 then C else { C with x := setNth 0 C.x (n - 1) v }

/-- The instruction completes: its result, and the next instruction. -/
def State.coreDone (s : State) (n rd : Nat) (v : BitVec 64) : State :=
  (s.updCore n fun C => { C.setX rd v with pc := C.pc + 4 }).hartStepped n

/-! ### Release (R409) -/

/-- The stop unit of a core complex. -/
def coreUnit (st : Nat) : UnitId := ⟨Fin.ofNat 17 st, 5, 0⟩

/-- R409, R493: a reset holds the cores of the stack. -/
def coreQuiesced (s : State) (st : Nat) : Bool :=
  s.faults.resets.any fun r => match r.scope with
    | .part n => (arcOf s n.val).contains st
    | .package _ => true
    | _ => false

/-- The core executes: released, and no stop, reset or debug module holds it. -/
def coreRuns (s : State) (n : Nat) : Bool :=
  stackUp s (n / 8) && (s.core n).released && !stopping s (coreUnit (n / 8)) && !coreQuiesced s (n / 8) && hartFree s n

/-- R409, R481, R515: the cores of the stack can be released. -/
def coresFree (s : State) (st : Nat) : Bool :=
  (match partOf s st with | some n => (s.part n).state == .running | none => false) &&
  !nbit (s.reg (bootReg 0x04C)).toNat (16 + st) && !(s.faults.running.any fun t => t.test == 10 && t.stack == st) &&
  !coreQuiesced s st

/-- R409: core `c` of a stack enters HS mode at `CORE_ENTRY` with `a0` and `a1` set. -/
def State.releaseCore (s : State) (st c : Nat) : State :=
  let pair (off : Nat) : Nat := (s.reg (ccReg st off)).toNat + (s.reg (ccReg st (off + 4))).toNat * 2 ^ 32
  let s1 := (s.setBit (ccReg st 0x040) c).setBit (ccReg st 0x040) (8 + c)
  s1.updCore (8 * st + c) fun C =>
    { (C.setX 10 (BitVec.ofNat 64 (8 * st + c))).setX 11 (BitVec.ofNat 64 (pair 0x050)) with
      released := true, started := true, machine := false, pc := BitVec.ofNat 64 (pair 0x048) }

/-- R409: a write of `RELEASE`. -/
def coreRelease (st mask : Nat) (s : State) : State :=
  if coresFree s st then
    (List.range 8).foldl (fun s c => if nbit mask c ∧ !s.bit (ccReg st 0x040) c then s.releaseCore st c else s) s
  else s

/-- CORE_RELEASE (R409). -/
def execCoreRelease (r : Req) (st : Fin 16) (mask : Byte) (s : State) : Out :=
  .next (s.access r (ccReg st.val 0x040) (coreRelease st.val mask.toNat))

/-! ### Atomic instructions (R410 to R416) -/

/-- R415: the weir operation of an atomic instruction to an uncached address; none where it is not supported. -/
def amoWeir (op : CoreAmo) (wide : Bool) : Option Nat :=
  match op with
  | .add => some (if wide then 0x6 else 0x3)
  | .and_ => some 0x9
  | .or_ => some 0xA
  | .xor_ => some 0xB
  | .min => some (if wide then 0x7 else 0x4)
  | .max => some (if wide then 0x8 else 0x5)
  | .cas => if wide then some 0xC else none
  | _ => none

/-- Bytes an atomic instruction acts on. -/
def amoLen (op : CoreAmo) (wide : Bool) : Nat := match op with | .casq => 16 | _ => if wide then 8 else 4

/-- What an atomic instruction writes over `old`; all values have `w` bits. -/
def amoNew (op : CoreAmo) (w old x cmp : Nat) : Nat :=
  match op with
  | .add => (old + x) % 2 ^ w
  | .and_ => Nat.land old x
  | .or_ => Nat.lor old x
  | .xor_ => Nat.xor old x
  | .min => if sext w old ≤ sext w x then old else x
  | .max => if sext w old ≤ sext w x then x else old
  | .minu => min old x
  | .maxu => max old x
  | .swap => x
  | .cas => if old = cmp then x else old
  | .casq => if old = cmp then x else old
  | .lr => old
  | .sc => x

/-- The value a register takes from a word read: sign-extended from 32 bits where the instruction is not wide. -/
def amoResult (wide : Bool) (v : Nat) : BitVec 64 := if wide then BitVec.ofNat 64 v else BitVec.ofInt 64 (sext 32 v)

/-- R416: the line at a place, from the caches of the stack or filled from the cistern: the state and the line. -/
def State.fillLine (s : State) (st key off addr : Nat) : State × CacheLine :=
  match tget none s.caches (lineKey st key off) with
  | some l => (s, l)
  | none =>
    let a := addr / 64 * 64
    let r1 := s.devRead a 32 .port
    let r2 := r1.st.devRead (a + 32) 32 .port
    let l : CacheLine := { bytes := r1.data ++ r2.data, dirty := false, poison := BitVec.ofNat 2 (b2n r1.poison + 2 * b2n r2.poison) }
    ({ r2.st with caches := tput none r2.st.caches (lineKey st key off) (some l) }, l)

/-- R414: no other core of the stack keeps a reservation on a line that is written. -/
def State.breakResv (s : State) (st line : Nat) : State :=
  (List.range 8).foldl (fun s c =>
    if (s.core (8 * st + c)).resv = some line then s.updCore (8 * st + c) fun C => { C with resv := none } else s) s

/-- An atomic instruction carried out in the core's caches, the line at hand. -/
def State.lineAmo (s : State) (n : Nat) (op : CoreAmo) (wide : Bool) (line : Nat) (l : CacheLine) (addr x cmp rd : Nat) : State :=
  let len := amoLen op wide
  let w := 8 * len
  let at0 := addr % 64
  let old := leAt l.bytes at0 len
  let v := amoNew op w old (x % 2 ^ w) (cmp % 2 ^ w)
  let put (s : State) : State :=
    { s.breakResv (n / 8) line with
      caches := tput none s.caches line (some { l with bytes := putBytes l.bytes at0 (leBytes len v), dirty := true }) }
  match op with
  | .lr => (s.coreDone n rd (amoResult wide old)).updCore n fun C => { C with resv := some line }
  | .sc =>
    if (s.core n).resv = some line then (put s).coreDone n rd 0
    else (s.coreDone n rd 1).updCore n fun C => { C with resv := none }
  | .casq =>
    if rd = 0 then (put s).coreDone n 0 0
    else ((put s).coreDone n rd (BitVec.ofNat 64 old)).updCore n fun C => C.setX (rd + 1) (BitVec.ofNat 64 (old / 2 ^ 64))
  | _ => (put s).coreDone n rd (amoResult wide old)

/-- R415, R416: an atomic instruction to a cacheable address. -/
def State.cachedAmo (s : State) (n : Nat) (op : CoreAmo) (wide : Bool) (addr x cmp rd : Nat) : State :=
  match devPlace s addr with
  | none => s.coreTrap n 7 addr
  | some q =>
    let line := lineKey (n / 8) q.1 q.2
    if (tget none s.caches line).isNone ∧ !devReadGo s (addr / 64 * 64) 64 then s
    else
      let r := s.fillLine (n / 8) q.1 q.2 addr
      if nbit r.2.poison.toNat (addr % 64 / 32) then r.1.coreTrap n (match op with | .lr => 5 | _ => 7) addr
      else r.1.lineAmo n op wide line r.2 addr x cmp rd

/-- R415, R416: an atomic instruction to an uncached address is a fetching weir operation at the target slice. -/
def State.weirAmo (s : State) (n : Nat) (op : CoreAmo) (wide : Bool) (addr x cmp rd : Nat) : State :=
  match amoWeir op wide with
  | none => s.coreTrap n 7 addr
  | some w =>
    let len := amoLen op wide
    if !devWriteGo s addr len then s
    else
      let r := s.devWeir w addr (if w = 0xC then leBytes 8 x ++ leBytes 8 cmp else leBytes len x) false
      if r.poison || r.lost then r.st.coreTrap n 7 addr else r.st.coreDone n rd (amoResult wide (leAt r.data 0 len))

/-- R410, R415: an atomic instruction of core `n`. -/
def coreAmo (n : Nat) (op : CoreAmo) (wide : Bool) (addr : Nat) (cached : Bool) (x cmp rd : Nat) (s : State) : State :=
  let len := amoLen op wide
  if addr % len ≠ 0 then s.coreTrap n 6 addr
  else if !addrOk s (partOf s (n / 8)) addr len then s.coreTrap n 7 addr
  else if cached then s.cachedAmo n op wide addr x cmp rd
  else s.weirAmo n op wide addr x cmp rd

/-- CORE_ATOMIC (R415). -/
def execCoreAtomic (st : Fin 16) (k : Fin 8) (op : CoreAmo) (wide : Bool) (addr : Nat) (cached : Bool) (operand compare : BitVec 128)
    (rd : Fin 32) (s : State) : Out :=
  let n := 8 * st.val + k.val
  .next (if coreRuns s n then coreAmo n op wide addr cached operand.toNat compare.toNat rd.val s else s)

/-! ### Tokens (R419) -/

/-- R419: a token of the core complex of stack `st`, by the rules of R134; its place in the fabric and the place of
`TOKEN_ERR` are PRESUMED (log 17). -/
def State.coreToken (s : State) (st : Nat) (dst : Loc) (m : Loc → Loc → Msg) : State :=
  let src : Loc := ⟨BitVec.ofNat 5 st, 0⟩
  if tokDestOk s (partOf s st) dst then { s with net := s.net ++ [⟨st, 30, 4, 3, src, dst, m dst src⟩] }
  else s.irq (ccReg st 0) 4

/-- R134, R145, R419: a write of `CORE_TOKEN_TX`. -/
def coreTokenTx (st : Nat) (v : Word) (s : State) : State :=
  let t := v.toNat
  let dst : Loc := ⟨BitVec.ofNat 5 (nbits t 16 5), BitVec.ofNat 5 (nbits t 21 5)⟩
  match nbits t 12 4 with
  | 1 => s.coreToken st dst fun d c => .add d c (BitVec.ofNat 6 (nbits t 6 6)) (BitVec.ofNat 6 (nbits t 0 6))
  | 4 => s.coreToken st dst fun d c => .bargeGo d c (BitVec.ofNat 2 t)
  | 5 => s.coreToken st dst fun d c => .wake d c
  | _ => s.irq (ccReg st 0) 4

/-- CORE_TOKEN_TX (R419). -/
def execCoreTokenTx (r : Req) (st : Fin 16) (v : Word) (s : State) : Out :=
  .next (s.access r (ccReg st.val 0x058) (coreTokenTx st.val v))

end Sys2Proof.Machine
end

