-- ==== Sys2Proof/Machine/Media.lean ====
section
/-!
DEFINITION. Media.lean: the media channels (R421 to R428): their jobs, the tensors a job writes, its end and its record, and
their EN, STOPPING and STOPPED contract (R500). What a bitstream decodes to is an operand of the events (log 54).
-/
namespace Sys2Proof.Machine

/-- The stop unit of a media channel (R594). -/
def medUnit (n : Nat) : UnitId := ⟨16, 9, n⟩

/-! ### Job descriptors (R424) -/

def mCodec (d : Desc) : Nat := df d 0 0 3
def mNew (d : Desc) : Bool := df d 0 3 1 == 1
def mNhwc (d : Desc) : Bool := df d 0 5 1 == 1
def mOutFmt (d : Desc) : Nat := df d 0 6 5
def mBgr (d : Desc) : Bool := df d 0 15 1 == 1
def mSrc (d : Desc) : Nat := dw d 1 + dw d 2 * 2 ^ 32
def mSrcLen (d : Desc) : Nat := dw d 3
def mDst (d : Desc) : Nat := dw d 4 + dw d 5 * 2 ^ 32
def mPitch (d : Desc) : Nat := dw d 6
def mW (d : Desc) : Nat := df d 7 0 16
def mH (d : Desc) : Nat := df d 7 16 16
def mMax (d : Desc) : Nat := df d 10 0 16

/-- `MEAN_c` and `SCALE_c` of colour `c`, BF16. -/
def mMean (d : Desc) (c : Nat) : Num := bf16.decode (df d (11 + c) 0 16)
def mScale (d : Desc) (c : Nat) : Num := bf16.decode (df d (11 + c) 16 16)

/-- R425: bytes of an output tensor. -/
def mTensor (d : Desc) : Nat := 3 * mH d * mW d * (elemBits (mOutFmt d) / 8)

/-- R421: the largest picture of a codec. -/
def mLargest (codec : Nat) : Nat × Nat :=
  match codec with
  | 1 => (8192, 4320)
  | 2 => (4096, 2304)
  | 4 => (16384, 16384)
  | _ => (8192, 4352)

/-- R424, R104, R168: reserved values and fields out of range. -/
def mFieldBad (d : Desc) : Bool :=
  let y := syncOf 2 d
  decide (5 ≤ mCodec d) || !([0x00, 0x01, 0x02, 0x03, 0x0C].contains (mOutFmt d)) || mSrcLen d == 0 || mMax d == 0 ||
  waitEn y || (sigEn y && !sigRemote y)

/-- R424: pitch, alignment, crop and output size. The crop must lie in the largest picture of the codec. -/
def mShapeBad (d : Desc) : Bool :=
  mW d == 0 || mH d == 0 || decide (4096 < mW d) || decide (4096 < mH d) || mDst d % 256 != 0 || mPitch d % 256 != 0 ||
  decide (mPitch d < mTensor d) ||
  decide ((mLargest (mCodec d)).1 < df d 8 0 16 + df d 9 0 16) || decide ((mLargest (mCodec d)).2 < df d 8 16 16 + df d 9 16 16)

/-- R423: the device address of an offset of the owner's commons; a channel of the physical function gives device addresses. -/
def mAddr (own : Option Nat) (x : Nat) : Nat :=
  match own with
  | some n => 0x1000_0000_0000 + n * 2 ^ 40 + x % 2 ^ 40
  | none => x % 2 ^ 48

/-- R424: source and outputs lie in the commons. -/
def mRangeOk (s : State) (own : Option Nat) (d : Desc) : Bool :=
  addrOk s own (mAddr own (mSrc d)) (mSrcLen d) && addrOk s own (mAddr own (mDst d)) (mMax d * mPitch d)

/-- R427: the first check a job breaks. -/
def mCheck (s : State) (n : Nat) (d : Desc) : Option Nat :=
  if mFieldBad d then some 0x07
  else if mShapeBad d then some 0x61
  else if !mRangeOk s (medOwner s n) d then some 0x62
  else if mCodec d ≠ 4 ∧ !mNew d ∧ !(s.med n).context then some 0x64
  else none

/-! ### Records (R423, R426, R428) -/

/-- R168: the remote signal of a job. -/
def State.medSignal (s : State) (n : Nat) (d : Desc) (status : Nat) : State :=
  let y := syncOf 2 d
  let dst := sigLoc (tagOf 2 d)
  let src : Loc := ⟨16, BitVec.ofNat 5 n⟩
  let ok := match medOwner s n with
    | some p => tokDestOk s (some p) dst
    | none => decide (dst.die.toNat < 16) && plotReported s (locKey dst)
  if signals status && sigEn y && ok then s.inject 3 src dst (.add dst src (BitVec.ofNat 6 (sigCtr y)) 1) else s

/-- R423, R426: a job ends with its record. -/
def State.medEnd (s : State) (n : Nat) (d : Desc) (status frames : Nat) (rejected : Bool) : State :=
  let s1 := if rejected then s else s.medSignal n d status
  let s2 := if cplEn (syncOf 2 d) || status != 0 then
      s1.updMed n fun M => { M with cpl := M.cpl ++ [(cplRec s1 2 d status rejected, frames)] }
    else s1
  if status = 0x20 then s2.setBit (medReg n 0x00C) 3 else s2

/-! ### Submission and start (R423, R425) -/

/-- R423: a push of the descriptor window. -/
def mediaPush (n : Nat) (s : State) : State :=
  let M := s.med n
  if M.fstate != .running then s.irq (medReg n 0) 1
  else if 4 ≤ M.queue.length then s.irq (medReg n 0) 0
  else s.setMed n { M with queue := M.queue ++ [windowDesc M.window] }

/-- MEDIA_SUBMIT_PUSH (R423). -/
def execMediaSubmitPush (r : Req) (n : Fin 32) (s : State) : Out :=
  .next (s.access r (medReg n.val 0x040) (mediaPush n.val))

/-- The channel may take a job. -/
def medGo (s : State) (n : Nat) : Bool :=
  pkgUp s && !pkgQuiesced s && !stopping s (medUnit n) && (s.med n).fstate != .stopped &&
  (match medOwner s n with | some p => !(s.faults.resets.any fun r => r.scope == .part (Fin.ofNat 16 p)) | none => true)

/-- R425: the next job is checked; a rejected one leaves its record and does not hold the channel. -/
def mediaStart (n : Nat) (s : State) : State :=
  let M := s.med n
  match M.queue with
  | [] => s
  | d :: rest =>
    let s1 := s.setMed n { M with queue := rest }
    match mCheck s n d with
    | some st => s1.medEnd n d st 0 true
    | none => s1.updMed n fun M => { M with job := some d, frames := 0, context := M.context && !mNew d }

/-- MEDIA_JOB_START (R425). -/
def execMediaJobStart (n : Fin 32) (s : State) : Out :=
  .next (if medGo s n.val && (s.med n.val).job.isNone then mediaStart n.val s else s)

/-! ### Tensors (R425) -/

/-- R425, R89: one value scaled, offset and converted. -/
def mValue (d : Desc) (c : Nat) (v : Word) : Nat :=
  let y := (mul32 .near (add32 .near (dec32 v.toNat) (mMean d c).neg).1 (mScale d c)).1
  (cvtOne (mOutFmt d) { stoch := false, sat := true } 0 y).1

/-- R425: element `i` of a tensor: its place in the picture's values (colour, row, column). -/
def mPlace (d : Desc) (i : Nat) : Nat × Nat :=
  let hw := mH d * mW d
  let ch := if mNhwc d then i % 3 else i / hw
  let at0 := if mNhwc d then i / 3 else i % hw
  (if mBgr d then 2 - ch else ch, at0)

/-- R425: the bytes of a tensor. -/
def mBytes (d : Desc) (vals : List Word) : List Byte :=
  (List.range (3 * mH d * mW d)).flatMap fun i =>
    let p := mPlace d i
    leBytes (elemBits (mOutFmt d) / 8) (mValue d p.1 (nth 0 vals (p.1 * (mH d * mW d) + p.2)))

/-- R425: the next tensor is written where the remap generation in force puts it. -/
def mediaOutput (n : Nat) (d : Desc) (vals : List Word) (s : State) : State :=
  let k := (s.med n).frames
  let a := mAddr (medOwner s n) (mDst d) + k * mPitch d
  if k < mMax d ∧ devWriteGo s a (mTensor d) then
    (s.devWrite a (mBytes d vals) false .port).st.updMed n fun M => { M with frames := k + 1 }
  else s

/-- The channel works on a job. -/
def medRuns (s : State) (n : Nat) : Bool :=
  pkgUp s && !pkgQuiesced s && !stopped s (medUnit n) && (s.med n).fstate != .stopped

/-- MEDIA_PICTURE_OUTPUT (R425): `vals` holds the picture's FP32 values in [0, 1] after cropping, conversion and resizing, by
colour, row and column. -/
def execMediaPictureOutput (n : Fin 32) (vals : List Word) (s : State) : Out :=
  .next (match (s.med n.val).job with
    | some d => if medRuns s n.val then mediaOutput n.val d vals s else s
    | none => s)

/-! ### The end of a job (R426) -/

/-- R426, R427: the status of a job that has come to its end. -/
def mediaStatus (how : MediaEnd) (poison : Bool) : Nat :=
  match how with
  | .done => if poison then 0x10 else 0
  | .damage => 0x63
  | .poison => 0x10
  | .codec => 0x60

/-- R500: a STOPPING channel with nothing left reads STOPPED. -/
def State.medStopped (s : State) (n : Nat) : State :=
  let M := s.med n
  if M.fstate = .stopping ∧ M.job.isNone ∧ M.queue.isEmpty then s.setMed n { M with fstate := .stopped } else s

/-- R426: the job ends; damage, poison and a bitstream outside R421 leave no stream context, and a JPEG job leaves it as it was. -/
def mediaComplete (n : Nat) (d : Desc) (how : MediaEnd) (s : State) : State :=
  let a := mAddr (medOwner s n) (mSrc d)
  if !devReadGo s a (mSrcLen d) then s
  else
    let r := s.devRead a (mSrcLen d) .port
    let st := mediaStatus how r.poison
    let M := r.st.med n
    ((r.st.setMed n { M with job := none, context := if st = 0 then M.context || mCodec d != 4 else false }).medEnd n d st M.frames
      false).medStopped n

/-- MEDIA_JOB_COMPLETE (R426). -/
def execMediaJobComplete (n : Fin 32) (how : MediaEnd) (s : State) : Out :=
  .next (match (s.med n.val).job with
    | some d => if medRuns s n.val then mediaComplete n.val d how s else s
    | none => s)

/-- R428: `MEDIA_CPL`. -/
def medCplWord (r : CplRec) : Nat := r.tag.toNat + r.status.toNat * 2 ^ 16 + 2 ^ 31

/-- R428: a read of `MEDIA_CPL` pops a record and captures its frames. -/
def popMedia (n : Nat) (s : State) : State :=
  match (s.med n).cpl with
  | [] => (s.capture (medReg n 0x050) 0).answer (leBytes 4 0)
  | (r, f) :: rest =>
    ((s.updMed n fun M => { M with cpl := rest }).capture (medReg n 0x050) (BitVec.ofNat 32 (min f 65535))).answer (leBytes 4 (medCplWord r))

/-- MEDIA_CPL_POP (R428). -/
def execMediaCplPop (r : Req) (n : Fin 32) (s : State) : Out :=
  .next (s.readAccess r (medReg n.val 0x04C) (popMedia n.val))

/-! ### EN, STOPPING and STOPPED (R423, R500) -/

/-- R500: EN set. -/
def medSetEn (n : Nat) (s : State) : State :=
  if (s.med n).fstate = .stopped then (s.updMed n fun M => { M with fstate := .running }).setBit (medReg n 0x00C) 0 else s

/-- R500: the drain limit of a channel has passed. -/
def State.expireMed (s : State) (n : Nat) : State :=
  if (s.med n).fstate = .stopping then
    let M := s.med n
    let s1 := s.setMed n { M with job := none, queue := [] }
    let s2 := match M.job with | some d => s1.medEnd n d 0x20 M.frames false | none => s1
    (M.queue.foldl (fun s d => s.medEnd n d 0x20 0 false) s2).medStopped n
  else s

/-- R500: EN cleared. -/
def medClrEn (n : Nat) (s : State) : State :=
  if (s.med n).fstate = .running then
    (let s1 := (s.updMed n fun M => { M with fstate := .stopping, stopAt := s.tb }).clrBit (medReg n 0x00C) 0
     if s.fld (medReg n 0x054) 0 16 = 0 then s1.expireMed n else s1)
  else s

end Sys2Proof.Machine
end

