-- ==== Sys2Proof/Machine/Security.lean ====
section
/-!
DEFINITION. Security.lean: fuse requests (R442 to R444), SPDM (R445, R446), IDE and TDISP (R447 to R450), debug tokens (R451,
R452), owners (R454) and the entropy source (R437).
-/
namespace Sys2Proof.Machine

/-! ### The key engine's requests (R442 to R444) -/

/-- R456: `SEC_REQ_STAT`. -/
def State.reqStat (s : State) (state code : Nat) : State :=
  (s.setFld (secReg 0x054) 0 2 state).setFld (secReg 0x054) 4 4 code

/-- R444: a request is in progress. -/
def reqBusy (s : State) : Bool := s.sec.req.isSome

/-- R442: a commit of the running firmware's `SVN`. -/
def svnCommitCmd (s : State) : State :=
  let run := s.fld (secReg 0x044) 16 7
  if reqBusy s then s
  else if run ≤ s.fuses.svn then s.reqStat 2 0
  else { s with sec := { s.sec with req := some (.svnCommit run) } }.reqStat 1 0

/-- SVN_COMMIT (R442). -/
def execSvnCommit (r : Req) (s : State) : Out := .next (s.access r (secReg 0x048) svnCommitCmd)

/-- R443: the image at `SEC_REQ_ADDR`; none where the physical function cannot read it whole and clean. -/
def revokeImage (s : State) : Option (State × List Byte) :=
  let a := (s.reg (secReg 0x04C)).toNat + s.fld (secReg 0x050) 0 16 * 2 ^ 32
  if !addrOk s none a 512 then none
  else
    let h := s.devRead a 512 .port
    let n := imgPayAt h.data + 4096 * imgBlocks h.data
    if h.poison || !addrOk h.st none a n then none
    else
      let r := h.st.devRead a n .port
      if r.poison then none else some (r.st, r.data)

/-- R443: why a revocation that passes R439 is refused all the same. -/
def revokeRule (s : State) (l : List Byte) : Bool :=
  imgKey l == imgRevoke l || imgRevoke l == s.fld (secReg 0x040) 8 2 ||
  !((List.range 4).any fun i => keyUsable s i && i != imgRevoke l)

/-- R443: a revocation is submitted. -/
def revokeCmd (s : State) : State :=
  if reqBusy s then s
  else match revokeImage s with
    | none => s.reqStat 3 1
    | some (s1, l) =>
      if !(imgForm l 2 && imgFused s1 l && imgWhole l) then s1.reqStat 3 1
      else if revokeRule s1 l then s1.reqStat 3 2
      else { s1 with sec := { s1.sec with req := some (.revoke (BitVec.ofNat 2 (imgRevoke l))) } }.reqStat 1 0

/-- REVOKE_SUBMIT (R443). -/
def execRevokeSubmit (r : Req) (s : State) : Out := .next (s.access r (secReg 0x048) revokeCmd)

/-- R430: a commit that fails has blown some of its bits, in ascending order; how many is open (log 5). -/
def State.partCommit (s : State) (target : Nat) : State :=
  if s.fuses.svn < target then
    { s with fuses := { s.fuses with svn := s.fuses.svn + s.free % (target - s.fuses.svn) } }.drawn
  else s

/-- R442 to R444: a fuse burn ends. -/
def requestDone (ok : Bool) (s : State) : State :=
  let t := { s with sec := { s.sec with req := none } }
  match s.sec.req with
  | none => s
  | some (.svnCommit v) =>
    if ok then { t with fuses := { t.fuses with svn := max v t.fuses.svn } }.reqStat 2 0 else (t.partCommit v).reqStat 3 3
  | some (.revoke i) =>
    if ok then { t with fuses := { t.fuses with revoked := t.fuses.revoked ||| BitVec.ofNat 4 (2 ^ i.toNat) } }.reqStat 2 0
    else t.reqStat 3 3

/-- KEY_ENGINE_REQUEST_DONE (R444). -/
def execKeyEngineRequestDone (ok : Bool) (s : State) : Out := .next (if pkgUp s then requestDone ok s else s)

/-! ### SPDM (R445, R446) -/

/-- R445, R485: the measurements that function `f` may be given, by index. -/
def measList (s : State) (f : Nat) : List Nat :=
  if bootState s = 2 then [1, 16]
  else (List.range 16).map (· + 1) ++ (if f = 0 then [] else (List.range 8).map (· + 32))

/-- R445: one measurement of function `f`. -/
def measurement (s : State) (f i : Nat) : List Byte := tget [] s.sec.meas (if i < 32 then i else f * 64 + i)

/-- R445: an SPDM error; the numbers of the errors are SPDM's (PRESUMED, log 20). -/
def State.spdmErr (s : State) (f code : Nat) : State := s.send (.spdm f [0x7F, BitVec.ofNat 8 code])

/-- R445: a response; the layouts are SPDM's, and `body` holds the values the spec gives (log 20). -/
def State.spdmAns (s : State) (f : Nat) (body : List Byte) : State := s.send (.spdm f body)

/-- R435: a signature of the alias key, whose bytes are open (log 21). -/
def State.aliasSign (s : State) (f : Nat) (body : List Byte) : State :=
  if keysUsable s then (let r := s.freeBytes 384; r.1.spdmAns f (body ++ r.2)) else s.spdmErr f 0x05

/-- R445: sessions in all. -/
def sessionCount (s : State) : Nat := (s.sec.sessions.map (·.2)).foldl (· + ·) 0

/-- Sessions of function `f`. -/
def State.setSessions (s : State) (f n : Nat) : State := { s with sec := { s.sec with sessions := tput 0 s.sec.sessions f n } }

/-- R447: IDE keys installed for the selective stream of function `f`. -/
def State.bindIde (s : State) (f : Nat) : State :=
  let s1 := { s with sec := { s.sec with ideBound := tput false s.sec.ideBound f true
                                         ideInsecure := tput false s.sec.ideInsecure f false } }
  if f = 0 then s1 else s1.setBit (psecReg (f - 1) 0x064) 2

/-- R445 to R447: a request over the DOE mailbox of function `f`. -/
def spdm (f : Nat) (q : SpdmReq) (s : State) : State :=
  let mine := tget 0 s.sec.sessions f
  match q with
  | .getCertificate => (let r := s.freeBytes 32; r.1.spdmAns f (s.fuses.devidCert ++ r.2))
  | .challenge nonce => s.aliasSign f nonce
  | .getMeasurements i nonce =>
    let is := measList s f
    if i = 0 then s.aliasSign f (BitVec.ofNat 8 is.length :: nonce)
    else if i = 0xFF then s.aliasSign f (is.flatMap (measurement s f) ++ nonce)
    else if is.contains i.toNat then s.aliasSign f (measurement s f i.toNat ++ nonce)
    else s.spdmErr f 0x01
  | .keyExchange =>
    if !keysUsable s then s.spdmErr f 0x05
    else if 32 ≤ sessionCount s then s.spdmErr f 0x03
    else (s.setSessions f (mine + 1)).aliasSign f []
  | .finish => if mine = 0 then s.spdmErr f 0x04 else s.spdmAns f []
  | .keyUpdate => if mine = 0 then s.spdmErr f 0x04 else s.spdmAns f []
  | .heartbeat => if mine = 0 then s.spdmErr f 0x04 else s.spdmAns f []
  | .endSession => if mine = 0 then s.spdmErr f 0x04 else (s.setSessions f (mine - 1)).spdmAns f []
  | .ideKeyProgram => if mine = 0 then s.spdmErr f 0x04 else (s.bindIde f).spdmAns f []
  | .other _ => s.spdmErr f 0x07

/-- The DOE mailbox of a function answers: from READY on, and the physical function's in low-water mode. -/
def doeUp (s : State) (f : Nat) : Bool := pkgUp s && !pkgQuiesced s && (bootState s == 1 || (bootState s == 2 && f == 0))

/-- SPDM_REQUEST (R445). -/
def execSpdmRequest (f : Fin 17) (q : SpdmReq) (s : State) : Out := .next (if doeUp s f.val then spdm f.val q s else s)

/-! ### IDE and TDISP (R447 to R450) -/

/-- R447, R450: a stream turns insecure; the TLP is dropped and counted. -/
def ideFail (f : Nat) (s : State) : State :=
  let s1 := { s with sec := { s.sec with ideInsecure := tput false s.sec.ideInsecure f true } }
  let s2 := s1.lndCount 7
  if f = 0 then s2 else s2.tdiError (f - 1)

/-- IDE_INTEGRITY_FAIL (R447). -/
def execIdeIntegrityFail (f : Fin 17) (s : State) : Out :=
  .next (if pkgUp s && tget false s.sec.ideBound f.val then ideFail f.val s else s)

/-- R448: a TDI may be locked. -/
def lockOk (s : State) (n : Nat) : Bool :=
  pkgUp s && s.dbg.stopAt.isNone && tdiState s n == 0 && tget false s.sec.ideBound (n + 1) &&
  !(tget false s.sec.ideInsecure (n + 1)) &&
  ((s.part n).state == .idle || (s.part n).state == .stopped || (s.part n).state == .running)

/-- LOCK_INTERFACE (R448, R599). -/
def execLockInterface (n : Fin 16) (s : State) : Out :=
  .next (if lockOk s n.val then (s.lockPage (psecReg n.val 0)).setTdi n.val 1 else s)

/-- START_INTERFACE (R449): a locked TDI runs. -/
def execStartInterface (n : Fin 16) (s : State) : Out :=
  .next (if pkgUp s && tdiState s n.val == 1 then s.setTdi n.val 2 else s)

/-- R450: the TDI is unlocked after a reset of its partition: the one that runs, the one that ERROR has brought, or its own. -/
def stopInterface (n : Nat) (s : State) : State :=
  if tdiState s n = 0 then s
  else if (s.part n).state = .resetting then s.updPart n fun P => { P with tdiStop := true }
  else if tdiState s n = 3 then s.setTdi n 0
  else (s.updPart n fun P => { P with tdiStop := true }).resetPart n .reset

/-- STOP_INTERFACE (R450). -/
def execStopInterface (n : Fin 16) (s : State) : Out := .next (if pkgUp s then stopInterface n.val s else s)

/-! ### Debug tokens (R451, R452) -/

/-- A token's bytes as the 32 bytes of eight registers. -/
def regBytes (s : State) (base : Nat) : List Byte := (List.range 8).flatMap fun i => leBytes 4 (s.reg (base + 4 * i)).toNat

/-- R433: `SEC_DEVID_HASH`. -/
def devidBytes (s : State) : List Byte := (List.range 8).flatMap fun i => leBytes 4 (nth 0 s.fuses.devidHash i).toNat

/-- R451: a token passes: its bound fields match, its level has a meaning, and a usable fused key has signed it. -/
def tokenOk (s : State) (l : List Byte) : Bool :=
  let k := leAt l 65 1
  l.length == 1024 && l.take 32 == devidBytes s && (l.drop 32).take 32 == regBytes s (secReg 0x060) &&
  (leAt l 64 1 == 1 || leAt l 64 1 == 2) && decide (k < 4) && keyUsable s k &&
  sha256 ((l.drop 128).take 388) == nth [] s.fuses.keyHash k &&
  rsaOk ((l.drop 128).take 384) (leAt l 512 4) (l.take 516) ((l.drop 516).take 384)

/-- R452: the effects of an accepted token, in their order. -/
def State.unlockDebug (s : State) (level : Nat) : State :=
  let s1 := (s.setBit (secReg 0x040) 17).setBit (secReg 0x040) 16
  let s2 := { s1 with sec := { s1.sec with sessions := [], meas := tput [] s1.sec.meas 16 (setNth 0 (tget [] s1.sec.meas 16) 0
    (nth 0 (tget [] s1.sec.meas 16) 0 ||| 1)) } }
  let s3 := (List.range 16).foldl (fun s n => s.tdiError n) s2
  s3.setFld (secReg 0x080) 0 2 (max (s3.fld (secReg 0x080) 0 2) level)

/-- R451: a token is submitted. -/
def submitToken (l : List Byte) (s : State) : State :=
  if tokenOk s l then s.unlockDebug (leAt l 64 1) else s.setBit (secReg 0x080) 2

/-- DBG_TOKEN_SUBMIT (R451, R452): by JTAG, or by the physical function's window. -/
def execDbgTokenSubmit (token : List Byte) (viaJtag : Bool) (s : State) : Out :=
  .next (if viaJtag then (if pkgUp s then submitToken token s else s) else s.access .pf (secReg 0x7FC) (submitToken token))

/-! ### The entropy source (R437) -/

/-- R437: key exchanges in progress fail. -/
def rngFail (s : State) : State :=
  (List.range 32).foldl (fun s n =>
    if (s.xng n).state = .auth then (s.setFld (xngReg n 0x044) 16 16 0).xngDown n 5 else s) (s.setBit (secReg 0x040) 18)

/-- RNG_HEALTH_FAIL (R437). -/
def execRngHealthFail (s : State) : Out := .next (if pkgUp s then rngFail s else s)

/-! ### Owners (R448, R454) -/

/-- The register that names a unit's owner. -/
def ownerReg : OwnedId → Nat
  | .barge n => brgReg (2048 + n.val) 0x05C
  | .media n => medReg n.val 0x044
  | .endpoint n => colReg (0x040 + 4 * n.val)

/-- The unit reads STOPPED. -/
def ownedStopped (s : State) : OwnedId → Bool
  | .barge n => (s.chan (2048 + n.val)).state == .stopped
  | .media n => (s.med n.val).fstate == .stopped
  | .endpoint n => (s.ep n.val).fstate == .stopped

/-- R454: queue, context and buffers are cleared for the new owner. -/
def State.clearUnit (s : State) : OwnedId → State
  | .barge n => (s.clearChan (2048 + n.val)).setChan (2048 + n.val) { state := .stopped }
  | .media n => s.setMed n.val {}
  | .endpoint n => s.setEp n.val {}

/-- R448: a locked TDI freezes entries that name its partition, before or after the write; it notes the refusal. -/
def frozenBy (s : State) (old new : Nat) : Option Nat :=
  let named (v : Nat) : Option Nat := if nbit v 4 ∧ tdiLocked s (nbits v 0 4) then some (nbits v 0 4) else none
  match named old with
  | some n => some n
  | none => named new

/-- R448, R454, R619: a write of an owner register. -/
def writeOwner (u : OwnedId) (v : Word) (s : State) : State :=
  let a := ownerReg u
  let old := s.fld a 0 5
  let new := nbits v.toNat 0 5
  if pageLocked s a then s.wrRej a
  else match frozenBy s old new with
    | some n => s.setBit (psecReg n 0x064) 3
    | none => if old ≠ new ∧ ownedStopped s u then (s.clearUnit u).setFld a 0 5 new else s

/-- OWNER_WRITE (R454). -/
def execOwnerWrite (r : Req) (u : OwnedId) (v : Word) (s : State) : Out := .next (s.access r (ownerReg u) fun s => if isMgmt r then writeOwner u v s else s)

/-- R385, R448, R619: a write of `COLL_GRP_OWNER_g`. -/
def writeGrpOwner (g : Nat) (v : Word) (s : State) : State :=
  let a := colReg (0x0C0 + 4 * g)
  let old := s.fld a 0 5
  let new := nbits v.toNat 0 5
  if pageLocked s a then s.wrRej a
  else match frozenBy s old new with
    | some n => s.setBit (psecReg n 0x064) 3
    | none => s.setFld a 0 5 new

end Sys2Proof.Machine
end

