-- ==== Sys2Proof/Machine/Debug.lean ====
section
/-!
DEFINITION. Debug.lean: counter samples (R587), soundings (R591), the slack-water stop (R592 to R599), its records (R600 to
R602) and watch points (R604).
-/
namespace Sys2Proof.Machine

/-! ### Counters (R587) -/

/-- R587: SAMPLE switches the set; a steward's write is ignored. -/
def cntSampleCmd (r : Req) (k : Nat) (s : State) : State :=
  match r with
  | .steward _ => s
  | _ => s.cntSwitch k false none

/-- CNT_SAMPLE (R587). -/
def execCntSample (r : Req) (set : CntId) (s : State) : Out :=
  .next (s.access r (cntPage (cntKey set) 0x040) (cntSampleCmd r (cntKey set)))

/-! ### Stop units (R594) -/

/-- A unit by die, kind and index. -/
def unitAt (die kind index : Nat) : UnitId := ⟨Fin.ofNat 17 die, Fin.ofNat 12 kind, index⟩

/-- The units of a stack that is out of reset. -/
def stackUnits (s : State) (st : Nat) : List UnitId :=
  let ps := (List.range 32).filter fun p => plotReported s (32 * st + p)
  ps.map (unitAt st 0) ++ (((List.range 36).filter fun x => x != 30 && x != 35).map (unitAt st 1)) ++ [unitAt st 2 0, unitAt st 2 1] ++
  ps.map (unitAt st 3) ++ (ps.flatMap fun p => (List.range 32).map fun b => unitAt st 4 (32 * p + b)) ++ [unitAt st 5 0]

/-- The units of the I/O die. -/
def iodUnits : List UnitId :=
  (List.range 68).map (unitAt 16 6) ++ (List.range 32).map (unitAt 16 7) ++ (List.range 32).map (unitAt 16 8) ++
  (List.range 32).map (unitAt 16 9) ++ (List.range 32).map (unitAt 16 10) ++ [unitAt 16 11 0]

/-- The units that can take part; units in reset and lost dies have no record (R596). -/
def allUnits (s : State) : List UnitId := iodUnits ++ ((List.range 16).filter (stackUp s)).flatMap (stackUnits s)

/-- All four classes of a port. -/
def portInputs (p : Nat) : List Nat := [4 * p, 4 * p + 1, 4 * p + 2, 4 * p + 3]

/-- R594: the inputs of a unit (log 72): four classes for each fabric port, one for each dual-clock queue. -/
def unitInputs (u : UnitId) : List Nat :=
  match u.kind.val with
  | 0 => portInputs 0 ++ [6]
  | 1 =>
    (if 6 ≤ u.index then portInputs 0 else []) ++ (if u.index % 6 < 5 then portInputs 1 else []) ++
    (if u.index / 6 < 5 then portInputs 2 else []) ++ (if 0 < u.index % 6 then portInputs 3 else []) ++ portInputs 4
  | 2 => portInputs 0 ++ portInputs (if u.index = 0 then 1 else 3) ++ [5, 6, 7, 8].flatMap portInputs
  | 3 => [1, 5] ++ (List.range 32).map fun b => 4 * (2 + b) + 2
  | 4 => [1]
  | _ => portInputs 0

/-- The unit's place in the stop in force. -/
def stopUnit (s : State) (u : UnitId) : StopUnit :=
  match s.dbg.units.find? fun x => x.who == u with
  | some x => x
  | none => { who := u }

/-- Change the unit's place in the stop in force. -/
def State.updUnit (s : State) (u : UnitId) (f : StopUnit → StopUnit) : State :=
  let y := f (stopUnit s u)
  let us := if s.dbg.units.any fun x => x.who == u then s.dbg.units.map fun x => if x.who == u then y else x else s.dbg.units ++ [y]
  { s with dbg := { s.dbg with units := us } }

/-- R608: `DBG_STOP_STAT.STATE`: 0 IDLE, 1 SPREADING, 2 STOPPED. -/
def stopState (s : State) : Nat := s.fld (dbgReg 0x044) 0 2

/-- R608: `STOP_ID`. -/
def stopId (s : State) : Nat := s.fld (dbgReg 0x044) 4 8

/-! ### Records (R600 to R602) -/

/-- Words of a record, low byte first. -/
def recWords (l : List Nat) : List Byte := l.flatMap (leBytes 4)

/-- R602: what the head of a queue waits on: 0 nothing, 1 its sync word, 2 a bank or permit, 3 a headgate, 4 credit. -/
def headWaits (s : State) (k q : Nat) (d : Desc) : Nat :=
  if !waitOk s k (syncOf q d) then 1
  else if q = 3 then 2
  else if q = 0 ∧ pASrc d then 3
  else if q = 0 ∧ pOutDst d ∧ (s.arr k).outQ ≠ [] then 4
  else 0

/-- R602: a plot's queue. -/
def queueBody (s : State) (k q : Nat) : List Byte :=
  let Q := s.queue k q
  let free := qSize q - Q.entries.length
  match Q.entries with
  | [] => recWords [0, 0, 0, 0, free]
  | d :: _ =>
    let y := syncOf q d
    recWords [nbits (tagOf q d) 0 16, headWaits s k q d, waitCtr y, waitCnt y, free]

/-- R602: a barge channel. -/
def chanBody (s : State) (c : Nat) : List Byte :=
  let C := s.chan c
  let tag := match C.desc with | some d => nbits (tagOf 2 d) 0 16 | none => 0
  recWords [tag, match C.phase with | .idle => 0 | .waitSync => 1 | .waitGo => 2 | .moving => 3, C.goPend, C.pos % 2 ^ 32]

/-- R602: a plot. -/
def plotBody (s : State) (k : Nat) (stop : Bool) : List Byte :=
  let A := s.arr k
  let st := (s.plot k).stw
  let shadow := match A.shadow with | .free => 0 | .loading => 1 | .loaded => 2 | .swapping => 3
  [0, 1, 2, 3].flatMap (queueBody s k) ++
  recWords ((List.range 64).map (tokCtr s k)) ++
  (if stop then recWords ((List.range 64).map fun n => tget 0 s.dbg.tally (64 * k + n)) else []) ++
  recWords ((List.range 32).flatMap fun n => [slotCredit s k n, b2n (slotFenced s k n)]) ++ recWords [A.rows.length] ++
  recWords ((List.range 32).flatMap fun n => [hgFill s k n, hgRd s k n, (tget ({} : Hg) (s.plot k).hgs n).owed]) ++
  (plotChans k).flatMap (chanBody s) ++ recWords [shadow, A.vecs.length, A.vecs.length + A.rows.length] ++
  leBytes 8 st.pc.toNat ++ leBytes 8 st.mcause.toNat ++ recWords [(s.plot k).cpl.length]

/-- R602: a packet header: class, source, destination, flits, and whether it came after the snapshot. -/
def hdrBody (p : NetPkt) : List Byte :=
  [BitVec.ofNat 8 p.cls.val, BitVec.ofNat 8 p.src.die.toNat, BitVec.ofNat 8 p.src.plot.toNat, BitVec.ofNat 8 p.dst.die.toNat,
   BitVec.ofNat 8 p.dst.plot.toNat, 1, BitVec.ofNat 8 (b2n (p.inp == 255)), 0]

/-- R602: the packets a router, hub or I/O die port holds: up to 128 headers, then TRUNC. -/
def routerBody (s : State) (die site : Nat) : List Byte × Bool :=
  let ps := s.net.filter fun p => p.die == die && p.site == site
  (recWords [ps.length] ++ (ps.take 128).flatMap hdrBody, decide (128 < ps.length))

/-- R602: a slice controller. -/
def sliceBody (s : State) (k : Nat) : List Byte :=
  let S := s.slc k
  let f := match S.fill with | some f => f.set.toNat * 256 + f.done.toNat | none => 0
  recWords ([S.held.length, S.waiting.length, (s.nor k).queue.length] ++ (s.nor k).queue.map (fun c => dw c.desc 2 % 65536) ++
    [f, s.fld (slcReg k 0x054) 0 23])

/-- R602: a noria bank. -/
def bankBody (s : State) (k b : Nat) : List Byte :=
  let N := s.nor k
  match N.queue.find? fun c => nbit (nMask c.desc) b && !nbit c.banksDone.toNat b with
  | some c => recWords [dw c.desc 2 % 65536, (tget ({} : NorPos) c.pos b).row, b2n (nbit N.permits.toNat b)]
  | none => recWords [0, 0, b2n (nbit N.permits.toNat b)]

/-- R602: a core complex. -/
def coresBody (s : State) (st : Nat) : List Byte :=
  (List.range 8).flatMap fun c =>
    let C := s.core (8 * st + c)
    leBytes 8 C.pc.toNat ++ recWords [if C.machine then 3 else 1, 0]

/-- R602: a collective endpoint. -/
def epBody (s : State) (e : Nat) : List Byte := recWords ((s.ep e).running.flatMap fun C => [C.slot, C.seq.toNat])

/-- R602: a media channel. -/
def medBody (s : State) (n : Nat) : List Byte :=
  let M := s.med n
  recWords (M.queue.map (fun d => tagOf 2 d % 65536) ++ [b2n M.job.isSome, M.frames])

/-- R602: a crossing. -/
def xngBody (s : State) (n : Nat) : List Byte :=
  let X := s.xng n
  let st := match X.state with
    | .disabled => 0 | .detect => 1 | .equalise => 2 | .align => 3 | .peer => 4 | .auth => 5 | .active => 6 | .retrain => 7 | .down => 8
  recWords [st, X.txSeq.toNat, X.rxAck.toNat, X.rxBuf.length, X.sentPkts.length]

/-- R602: the landing. -/
def landingBody (s : State) : List Byte :=
  recWords ((List.range 68).flatMap fun g =>
    (s.ring g).head :: (s.ring g).running.map fun c => leAt c.bytes 2 2) ++ recWords [s.dbg.dropped, s.dbg.heldCpls.length]

/-- R602: the body of a unit's record, and whether it was cut. The order of the fields is R602's, a word each (log 71). -/
def unitBody (s : State) (u : UnitId) (stop : Bool) : List Byte × Bool :=
  let k := 32 * u.die.val + u.index
  match u.kind.val with
  | 0 => (plotBody s k stop, false)
  | 1 => routerBody s u.die.val u.index
  | 2 => routerBody s u.die.val (if u.index = 0 then 30 else 35)
  | 3 => (sliceBody s k, false)
  | 4 => (bankBody s (32 * u.die.val + u.index / 32) (u.index % 32), false)
  | 5 => (coresBody s u.die.val, false)
  | 6 => routerBody s 16 (u.index / 4)
  | 7 => (chanBody s (2048 + u.index), false)
  | 8 => (epBody s u.index, false)
  | 9 => (medBody s u.index, false)
  | 10 => (xngBody s u.index, false)
  | _ => (landingBody s, false)

/-- The partition of a unit. -/
def unitOwner (s : State) (u : UnitId) : Option Nat :=
  match u.kind.val with
  | 7 => brgOwner s u.index
  | 8 => epOwner s u.index
  | 9 => medOwner s u.index
  | _ => if u.die.val < 16 then partOf s u.die.val else none

/-- R456: `SEC_DBG_STAT.LEVEL`. -/
def debugLevel (s : State) : Nat := s.fld (secReg 0x080) 0 2

/-- R591: the partition's TDI is locked and debug is not unlocked. -/
def unitLocked (s : State) (u : UnitId) : Bool :=
  (match unitOwner s u with | some n => tdiLocked s n | none => false) && debugLevel s == 0

/-- A unit writes its record. -/
def makeRec (s : State) (u : UnitId) (sounding : Bool) : DbgRec :=
  let locked := sounding && unitLocked s u
  let b := unitBody s u (!sounding)
  { who := u, sounding := sounding, locked := locked, trunc := !locked && b.2, time := s.tb, stopId := stopId s, ends := none
    body := if locked then [] else b.1 }

/-! ### Soundings (R591) -/

/-- R599: a stop is in force. -/
def stopOn (s : State) : Bool := s.dbg.stopAt.isSome

/-- R591, R599: a sounding starts: every unit writes its record (log 70). -/
def soundingCmd (s : State) : State :=
  if stopOn s then s.setBit (dbgReg 0x050) 2
  else
    { s with dbg := { s.dbg with snd := (allUnits s).map fun u => makeRec s u true, sndAt := some s.tb } }.setFld (dbgReg 0x050) 0 2 1

/-- SOUNDING_GO (R591). -/
def execSoundingGo (r : Req) (s : State) : Out := .next (s.access r (dbgReg 0x04C) soundingCmd)

/-! ### The slack-water stop (R593 to R599) -/

/-- R599: GO is refused. -/
def stopRefused (s : State) : Bool :=
  bootState s == 2 || (debugLevel s == 0 && (List.range 16).any fun n => tdiLocked s n)

/-- R593: the stop starts; the I/O die ports act on GO. -/
def State.beginStop (s : State) : State :=
  let a := dbgReg 0x044
  let s1 := (((s.setFld a 4 8 ((stopId s + 1) % 256)).setFld a 0 3 1).setFld a 16 16 0).count 594 5 1
  { s1 with dbg := { s1.dbg with
      units := (List.range 68).map fun i => { who := unitAt 16 6 i, started := true }
      recs := [], stopAt := some s.tb, stopWait := false, tally := [], dropped := 0, heldCpls := [] } }

/-- R593, R599: GO. -/
def stopCmd (s : State) : State :=
  if stopRefused s then s.setBit (dbgReg 0x044) 3
  else if stopOn s then s
  else if s.fld (dbgReg 0x050) 0 2 = 1 then { s with dbg := { s.dbg with stopWait := true } }
  else s.beginStop

/-- STOP_GO (R593). -/
def execStopGo (r : Req) (s : State) : Out := .next (s.access r (dbgReg 0x040) stopCmd)

/-- R591, R599: the sounding is done; a stop that waits for it starts. -/
def soundingEnd (s : State) : State :=
  let s1 := { s with dbg := { s.dbg with sndAt := none } }.setFld (dbgReg 0x050) 0 2 2
  if s1.dbg.stopWait then { s1 with dbg := { s1.dbg with stopWait := false } }.beginStop else s1

/-- SOUNDING_DONE (R591). -/
def execSoundingDone (s : State) : Out := .next (if s.fld (dbgReg 0x050) 0 2 = 1 then soundingEnd s else s)

/-- R593: every input of the unit has delivered its marker or is incomplete, and the unit has its snapshot. -/
def unitHalted (s : State) (u : UnitId) : Bool :=
  let x := stopUnit s u
  x.snapAt.isSome && (unitInputs u).all fun i => x.marked.any (fun m => m.1 == i) || x.incomplete.contains i

/-- R596: a record that is FORCED or INCOMPLETE. -/
def StopUnit.bad (x : StopUnit) : Bool := x.forced || !x.incomplete.isEmpty

/-- R596, R608: when every unit is halted the stop reads STOPPED. -/
def State.checkStopped (s : State) : State :=
  if stopState s = 1 ∧ (allUnits s).all (unitHalted s) then
    let n := (s.dbg.units.filter StopUnit.bad).length
    let a := dbgReg 0x044
    (((s.setFld a 0 2 2).setFld a 2 1 (b2n (n == 0))).setFld a 16 16 (min n 65535)).setReg (dbgReg 0x048)
      (BitVec.ofNat 32 ((s.tb - s.dbg.stopAt.getD s.tb) / 100))
  else s

/-- R593, R601: a marker on input `i`: the first starts nothing new; one after the snapshot has a delay. -/
def StopUnit.mark (now i : Nat) (x : StopUnit) : StopUnit :=
  let y := { x with started := true }
  if x.marked.any (fun m => m.1 == i) || x.incomplete.contains i then y
  else { y with marked := x.marked ++ [(i, match x.snapAt with | some t => now - t | none => 0)] }

/-- R592, R593: a marker reaches unit `u`; a token with another stop's number is dropped and counted. -/
def markerIn (u : UnitId) (i stop : Nat) (s : State) : State :=
  if !stopOn s || stop != stopId s then
    (if i % 4 = 3 ∧ u.kind.val = 0 then s.count (32 * u.die.val + u.index) 14 1 else s)
  else if (allUnits s).contains u ∧ (unitInputs u).contains i then (s.updUnit u fun x => x.mark s.tb i).checkStopped
  else s

/-- MARKER_TOKEN (R592). -/
def execMarkerToken (u : UnitId) (input : Nat) (stop : Byte) (s : State) : Out :=
  .next (if input % 4 = 3 then markerIn u input stop.toNat s else s)

/-- MARKER_PACKET (R593). -/
def execMarkerPacket (u : UnitId) (input : Nat) (stop : Byte) (s : State) : Out :=
  .next (if input % 4 = 3 then s else markerIn u input stop.toNat s)

/-- A drained row of the pass goes to the tank. -/
def rowToTank (s : State) (k seq : Nat) : Bool :=
  (livePasses (s.plot k)).any fun x => x.seq == seq && !pOutDst x.desc

/-- R594: the unit has settled. -/
def settled (s : State) (u : UnitId) : Bool :=
  let k := 32 * u.die.val + u.index
  match u.kind.val with
  | 0 => (s.arr k).vecs.isEmpty && (s.arr k).rows.all fun r => !rowToTank s k r.seq
  | 4 => !nbit (s.nor (32 * u.die.val + u.index / 32)).stepping.toNat (u.index % 32)
  | _ => true

/-- R593, R596: the unit takes its snapshot and sends markers on its outputs; a forced one has no complete input. -/
def State.snapshot (s : State) (u : UnitId) (forced : Bool) : State :=
  let s1 := s.updUnit u fun x =>
    { x with started := true, snapAt := some s.tb, forced := forced
             incomplete := if forced then unitInputs u else x.incomplete, marked := if forced then [] else x.marked }
  ({ s1 with dbg := { s1.dbg with recs := s1.dbg.recs ++ [makeRec s u false] } }).send (.marker u (BitVec.ofNat 8 (stopId s)))

/-- UNIT_SNAPSHOT (R593, R594). -/
def execUnitSnapshot (u : UnitId) (s : State) : Out :=
  .next (if stopping s u && !stopped s u && settled s u then (s.snapshot u false).checkStopped else s)

/-- R596: a marker that has not come. -/
def markerLate (u : UnitId) (i : Nat) (s : State) : State :=
  let x := stopUnit s u
  if x.snapAt.isSome && (unitInputs u).contains i && !(x.marked.any fun m => m.1 == i) && !(x.incomplete.contains i) then
    (s.updUnit u fun x => { x with incomplete := x.incomplete ++ [i] }).checkStopped
  else s

/-- MARKER_TIMEOUT (R596, log 3). -/
def execMarkerTimeout (u : UnitId) (input : Nat) (s : State) : Out :=
  .next (if stopOn s && stopState s == 1 then markerLate u input s else s)

/-- R596: every unit without a snapshot is forced to take one. -/
def forceStop (s : State) : State :=
  (((allUnits s).filter fun u => !stopped s u).foldl (fun s u => s.snapshot u true) s).checkStopped

/-- STOP_FORCE (R596, log 3). -/
def execStopForce (s : State) : Out := .next (if stopOn s && stopState s == 1 then forceStop s else s)

/-! ### Release (R598) -/

/-- R598: a held reset begins. -/
def State.heldReset (s : State) (r : ResetRun) : State :=
  match r.scope with
  | .part n => s.resetPart n.val ((s.part n.val).why.getD .reset)
  | sc => s.beginReset sc r.zeroFill r.retest

/-- R598: every unit resumes from its recorded state. -/
def releaseStop (s : State) : State :=
  let D := s.dbg
  let recs := D.recs.map fun r => { r with ends := D.units.find? fun x => x.who == r.who }
  let s1 : State := { s with
    net := s.net.map fun p => if p.inp = 255 then { p with inp := 4 } else p
    dbg := { D with units := [], recs := recs, stopAt := none, tally := [], heldResets := [], heldCpls := [], wpHold := [] } }
  let s2 := D.tally.foldl (fun s e => s.ctrAdd (e.1 / 64) (e.1 % 64) e.2) (s1.setFld (dbgReg 0x044) 0 2 0)
  let s3 := (List.range 512).foldl (fun s k => s.serveWaiting k) s2
  let s4 := (List.range 32).foldl (fun s n => s.deliver n []) s3
  let s5 := D.heldCpls.foldl (fun s c => hostReadDone c.1 c.2.1 c.2.2.1 c.2.2.2 s) s4
  let s6 := D.heldResets.foldl State.heldReset s5
  (List.range 16).foldl (fun s st => s.checkLost st) s6

/-- R598, R599: RELEASE while the stop reads STOPPED. -/
def releaseCmd (s : State) : State := if stopState s = 2 then releaseStop s else s

/-- STOP_RELEASE (R598). -/
def execStopRelease (r : Req) (s : State) : Out := .next (s.access r (dbgReg 0x040) releaseCmd)

/-! ### Reading a record (R600, R601) -/

/-- R601: an input entry. -/
def inputEntry (x : StopUnit) (i : Nat) : List Byte :=
  let m := x.marked.find? fun m => m.1 == i
  leBytes 4 (i + i % 4 * 256 + b2n m.isSome * 1024 + b2n (x.incomplete.contains i) * 2048 + min (tget 0 x.items i) 65535 * 65536) ++
  leBytes 4 (match m with | some p => min p.2 (2 ^ 32 - 1) | none => 2 ^ 32 - 1)

/-- R600: the bytes of a record, at most 2 KiB. -/
def recBytes (s : State) (r : DbgRec) : List Byte :=
  let x := match r.ends with | some x => x | none => stopUnit s r.who
  let es := if r.sounding then [] else unitInputs r.who
  let body := es.flatMap (inputEntry x) ++ r.body
  let len := min 2048 (32 + body.length)
  let fl := b2n r.sounding + (if r.sounding then 0 else 2 * b2n x.forced + 4 * b2n (!x.incomplete.isEmpty)) + 8 * b2n r.locked +
    16 * b2n (r.trunc || decide (2048 < 32 + body.length))
  (leBytes 4 (r.who.die.val + 32 * r.who.kind.val + 1024 * r.who.index) ++ leBytes 4 fl ++ leBytes 8 r.time ++
    [BitVec.ofNat 8 r.stopId, BitVec.ofNat 8 es.length] ++ leBytes 2 len ++ List.replicate 12 0 ++ body).take 2048

/-- R600: a write of `DBG_REC_SEL`. -/
def recSel (v : Word) (s : State) : State :=
  if s.fld (dbgReg 0x058) 0 2 = 1 then s
  else (s.setFld (dbgReg 0x054) 0 23 (nbits v.toNat 0 23)).setFld (dbgReg 0x058) 0 2 1

/-- DBG_REC_SEL (R600). -/
def execDbgRecSel (r : Req) (v : Word) (s : State) : Out := .next (s.access r (dbgReg 0x054) (recSel v))

/-- The record that `DBG_REC_SEL` names. -/
def selRec (s : State) : Option DbgRec :=
  let w := (s.reg (dbgReg 0x054)).toNat
  (if nbit w 22 then s.dbg.snd else s.dbg.recs).find? fun r =>
    r.who.die.val == nbits w 0 5 && r.who.kind.val == nbits w 5 5 && r.who.index == nbits w 10 12

/-- R600: the fetch ends: READY with the record's length, or NONE. -/
def recReady (s : State) : State :=
  match selRec s with
  | some r =>
    let b := recBytes s r
    ({ s with dbg := { s.dbg with window := b } }.setFld (dbgReg 0x058) 0 2 2).setFld (dbgReg 0x058) 2 12 b.length
  | none => ({ s with dbg := { s.dbg with window := [] } }.setFld (dbgReg 0x058) 0 2 3).setFld (dbgReg 0x058) 2 12 0

/-- DBG_REC_READY (R600). -/
def execDbgRecReady (s : State) : Out := .next (if s.fld (dbgReg 0x058) 0 2 = 1 then recReady s else s)

/-! ### Watch points (R604) -/

/-- The plot that watch point `n` has fired on. -/
def wpPlot (s : State) (n : Nat) : Nat := 32 * s.fld (wpReg n 0x14) 0 4 + s.fld (wpReg n 0x14) 4 5

/-- R604: the action; a stop that is refused lets the plot go on. -/
def wpFire (n : Nat) (s : State) : State :=
  let s1 := { s with dbg := { s.dbg with wpDue := s.dbg.wpDue.erase n } }
  if s.fld (wpReg n 0x04) 11 2 = 2 then
    let s2 := stopCmd s1
    if stopRefused s1 then { s2 with dbg := { s2.dbg with wpHold := s2.dbg.wpHold.filter (· != wpPlot s n) } } else s2
  else soundingCmd s1

/-- WATCH_POINT_FIRE (R604). -/
def execWatchPointFire (n : Fin 8) (s : State) : Out := .next (if s.dbg.wpDue.contains n.val then wpFire n.val s else s)

end Sys2Proof.Machine
end

