-- ==== Sys2Proof/Machine/Functions.lean ====
section
/-!
DEFINITION. Functions.lean: the EN, STOPPING and STOPPED contract (R500 to R502) of crossings and collective endpoints, and the
commands that act on any function.
-/
namespace Sys2Proof.Machine

/-! ### Crossings (R501) -/

/-- R501: a STOPPING crossing that has sent and had acknowledged all it held reads DISABLED and STOPPED. -/
def State.xngStopped (s : State) (n : Nat) : State :=
  let X := s.xng n
  if X.fstate = .stopping ∧ X.replay.isEmpty ∧ X.txBuf.isEmpty then
    (s.xngDark n).updXng n fun X => { X with fstate := .stopped } else s

/-- R383, R501: at its limit a crossing discards the rest. -/
def State.expireXng (s : State) (n : Nat) : State :=
  if (s.xng n).fstate = .stopping then ((s.xngDown n (s.fld (xngReg n 0x048) 24 4)).xngDark n).updXng n fun X => { X with fstate := .stopped }
  else s

/-- R500: EN set. -/
def xngSetEn (n : Nat) (s : State) : State :=
  if (s.xng n).fstate = .stopped then ((s.updXng n fun X => { X with fstate := .running }).setBit (xngReg n 0x00C) 0).xngDetect n else s

/-- R500: EN cleared. -/
def xngClrEn (n : Nat) (s : State) : State :=
  if (s.xng n).fstate = .running then
    (let s1 := (s.updXng n fun X => { X with fstate := .stopping, stopAt := s.tb }).clrBit (xngReg n 0x00C) 0
     if s.fld (xngReg n 0x064) 0 16 = 0 then s1.expireXng n else s1)
  else s

/-! ### Collective endpoints (R501) -/

/-- R500: the drain limit of an endpoint has passed. -/
def State.expireEp (s : State) (e : Nat) : State :=
  if (s.ep e).fstate = .stopping then
    let cs := (s.ep e).running
    let s1 := cs.foldl (fun s C => s.endColl e C 0x20) s
    (if cs = [] then s1 else s1.setBit (epReg e 0x00C) 3).epStopped e
  else s

/-- R500: EN set. -/
def epSetEn (e : Nat) (s : State) : State :=
  if (s.ep e).fstate = .stopped then (s.updEp e fun E => { E with fstate := .running }).setBit (epReg e 0x00C) 0 else s

/-- R500: EN cleared. -/
def epClrEn (e : Nat) (s : State) : State :=
  if (s.ep e).fstate = .running then
    (let s1 := (s.updEp e fun E => { E with fstate := .stopping, stopAt := s.tb }).clrBit (epReg e 0x00C) 0
     if s.fld (colReg 0x204) 0 16 = 0 then s1.expireEp e else s1)
  else s

/-! ### Any function -/

/-- R501: the register by which requester `r` controls a function. -/
def funcReg (r : Req) : FuncId → Nat
  | .queue p _ => pqReg (plotKey p) 0x044
  | .chan c => brgReg (chanKey c) 0x00C
  | .ring g => ringReg (ringKey g) 0x14
  | .part n => partCtrlReg r n.val
  | .xng n => xngReg n.val 0x00C
  | .endpoint n => epReg n.val 0x00C
  | .media n => medReg n.val 0x00C

/-- R500: EN set. -/
def funcSetEn (u : FuncId) (s : State) : State :=
  match u with
  | .queue p q => queueSetEn (plotKey p) q.toNat s
  | .chan c => chanSetEn (chanKey c) s
  | .ring g => ringSetEn (ringKey g) s
  | .part n => partSetEn n.val s
  | .xng n => xngSetEn n.val s
  | .endpoint n => epSetEn n.val s
  | .media n => medSetEn n.val s

/-- R500: EN cleared. -/
def funcClrEn (u : FuncId) (s : State) : State :=
  match u with
  | .queue p q => queueStop (plotKey p) q.toNat s
  | .chan c => chanClrEn (chanKey c) s
  | .ring g => ringClrEn (ringKey g) s
  | .part n => partClrEn n.val s
  | .xng n => xngClrEn n.val s
  | .endpoint n => epClrEn n.val s
  | .media n => medClrEn n.val s

/-- R500: the last item has ended. -/
def funcStopped (u : FuncId) (s : State) : State :=
  match u with
  | .queue p q => s.queueStopped (plotKey p) q.toNat
  | .chan c => s.chanStopped (chanKey c)
  | .ring g => s.ringStopped (ringKey g)
  | .part n => s.partStopped n.val
  | .xng n => s.xngStopped n.val
  | .endpoint n => s.epStopped n.val
  | .media n => s.medStopped n.val

/-- R500: the drain limit has passed in STOPPING. -/
def funcExpire (u : FuncId) (s : State) : State :=
  match u with
  | .queue p q => if (s.queue (plotKey p) q.toNat).state = .stopping then s.expireQueue (plotKey p) q.toNat else s
  | .chan c => s.expireChan (chanKey c)
  | .ring g => s.expireRing (ringKey g)
  | .part n => s.expirePart n.val
  | .xng n => s.expireXng n.val
  | .endpoint n => s.expireEp n.val
  | .media n => s.expireMed n.val

/-- FUNCTION_SET_EN (R500). -/
def execFunctionSetEn (r : Req) (u : FuncId) (s : State) : Out := .next (s.access r (funcReg r u) (funcSetEn u))

/-- FUNCTION_CLR_EN (R500). -/
def execFunctionClrEn (r : Req) (u : FuncId) (s : State) : Out := .next (s.access r (funcReg r u) (funcClrEn u))

/-- FUNCTION_STOPPED (R500). -/
def execFunctionStopped (u : FuncId) (s : State) : Out := .next (if pkgUp s then funcStopped u s else s)

/-- DRAIN_LIMIT_EXPIRY (R500, log 3): drain limits pause during a stop (R597). -/
def execDrainLimitExpiry (u : FuncId) (s : State) : Out := .next (if pkgUp s && !stopOn s then funcExpire u s else s)

end Sys2Proof.Machine
end

