-- ==== Sys2Proof/Machine/Link.lean ====
section
/-!
DEFINITION. Link.lean: the die-to-die link layer (R195 to R197, R204): frames, acknowledgement and replay, the replay
rate, retrains and module disabling.
-/
namespace Sys2Proof.Machine

/-- A module number that the die has. -/
def modOk (m : ModId) : Bool := decide (m.m.val < modCount m.die.val)

/-- The die of a module is up. -/
def modDieUp (s : State) (m : ModId) : Bool :=
  modOk m && (if m.die.val < 16 then stackUp s m.die.val else pkgUp s)

/-- The counter set and module index of R584. -/
def linkCnt (die i m : Nat) : Nat × Nat := if die < 16 then (576 + die, 8 * i + m % 8) else (592, 64 * i + m % 64)

/-- Count a module event: 0 frames sent, 1 replays. -/
def State.countLink (s : State) (die i m n : Nat) : State := s.count (linkCnt die i m).1 (linkCnt die i m).2 n

/-- R195: frame sequence number. -/
def frameSeq (f : List Byte) : BitVec 16 := BitVec.ofNat 16 (leAt f 45 2)

/-- R195: acknowledged sequence number. -/
def frameAck (f : List Byte) : Nat := leAt f 47 2 % 32768

/-- R195: the NAK flag. -/
def frameNak (f : List Byte) : Bool := nbit (leAt f 47 2) 15

/-- R195, R196: whole and with a right CRC. -/
def frameOk (f : List Byte) : Bool :=
  (f.length == 1024 || f.length == 64) && decide (leAt f 60 4 = crc32 (f.take 60 ++ f.drop 64))

/-- R195: a control-only frame that acknowledges, with or without NAK. -/
def ctrlFrame (L : Link) (nak : Bool) : List Byte :=
  let body := List.replicate 45 (0 : Byte) ++ leBytes 2 L.txSeq.toNat ++
    leBytes 2 ((L.rxSeq - 1).toNat % 32768 + (if nak then 32768 else 0)) ++ List.replicate 11 0
  body ++ leBytes 4 (crc32 body)

/-- Send a frame. -/
def State.sendFrame (s : State) (die m : Nat) (f : List Byte) : State := (s.send (.frame die m f)).countLink die 0 m 1

/-- R196: frames up to the acknowledged one leave the replay buffer. -/
def ackFrames (L : Link) (ack : Nat) : Link :=
  if L.replay.any (fun x => x.1.toNat % 32768 == ack) then
    { L with replay := (L.replay.dropWhile fun x => x.1.toNat % 32768 != ack).drop 1 }
  else L

/-- R196: a NAK: the sender replays its buffer from the frame after the acknowledged one. -/
def State.replayFrames (s : State) (die m : Nat) : State :=
  let key := 64 * die + m
  let fs := (s.link key).replay
  let s1 := (fs.foldl (fun s x => s.sendFrame die m x.2) s).updLink key fun L =>
    { L with resend := fs.map (·.1), secReplays := L.secReplays + 1 }
  (s1.addFld (linkReg die m) 16 16 1).countLink die 1 m 1

/-- R195, R199: a frame in good order is delivered with its tokens, headers and credits. -/
def takeFrame (L : Link) (f : List Byte) : Link :=
  let c (i : Nat) : Nat := nth 0 L.credits i + leAt f (57 + i) 1
  { L with rxSeq := if f.length = 1024 then L.rxSeq + 1 else L.rxSeq, nak := false
           credits := [c 0, c 1, c 2], delivered := L.delivered ++ [f] }

/-- D2D_FRAME_RECEIVE's effect. -/
def receiveFrame (die m : Nat) (f : List Byte) (s : State) : State :=
  let key := 64 * die + m
  let L := s.link key
  if !frameOk f then (s.setLink key { L with nak := true }).sendFrame die m (ctrlFrame L true)
  else
    let s1 := s.updLink key fun L => ackFrames L (frameAck f)
    let s2 := if f.length = 64 ∨ frameSeq f = L.rxSeq then s1.updLink key fun L => takeFrame L f else s1
    if frameNak f then s2.replayFrames die m else s2

/-- D2D_FRAME_RECEIVE (R196). -/
def execD2dFrameReceive (m : ModId) (frame : List Byte) (s : State) : Out :=
  .next (if modDieUp s m && linkUp s m.die.val m.m.val then receiveFrame m.die.val m.m.val frame s else s)

/-- R197: a retrain starts. -/
def State.startRetrain (s : State) (die m : Nat) : State := (s.setFld (linkReg die m) 0 2 1).refreshRoute die

/-- R196: the second closes; `WINDOW` seconds over `RATE` set LASTING, report and retrain. -/
def replayTick (die m : Nat) (s : State) : State :=
  let key := 64 * die + m
  let L := s.link key
  let cfg := dfReg die 0x064
  let bad := if s.fld cfg 0 16 < L.secReplays then L.overSecs + 1 else 0
  let s1 := s.setLink key { L with secReplays := 0, overSecs := bad }
  if bad > 0 ∧ bad ≥ s.fld cfg 16 8 then
    (((s1.updLink key fun L => { L with overSecs := 0 }).setBit (linkReg die m) 5).report
      (if die < 16 then partOf s die else none) 0x08 1 die 0 m).startRetrain die m
  else s1

/-- REPLAY_RATE_TICK (R196, log 4). -/
def execReplayRateTick (m : ModId) (s : State) : Out :=
  .next (if modDieUp s m && linkUp s m.die.val m.m.val then replayTick m.die.val m.m.val s else s)

/-- R204: `RETRAIN`, for a module that is in use. -/
def retrainWrite (die m : Nat) (s : State) : State :=
  if s.bit (linkReg die m + 4) 1 then s else s.startRetrain die m

/-- DF_LINK_RETRAIN (R204). -/
def execDfLinkRetrain (r : Req) (m : ModId) (s : State) : Out :=
  .next (if modOk m then s.access r (linkReg m.die.val m.m.val + 4) (retrainWrite m.die.val m.m.val) else s)

/-- A retrain runs, or has failed and is tried again. -/
def training (s : State) (m : ModId) : Bool :=
  linkState s m.die.val m.m.val == 1 ||
  (linkState s m.die.val m.m.val == 0 && decide (0 < (s.link (modKey m)).fails))

/-- R197: the end of a retrain. -/
def retrainEnd (die m : Nat) (ok : Bool) (spared : Nat) (s : State) : State :=
  let key := 64 * die + m
  if ok then
    (((s.setFld (linkReg die m) 0 2 2).setFld (linkReg die m) 2 3 (min spared 4)).updLink key fun L =>
      { L with fails := 0, credits := [] }).refreshRoute die
  else
    let n := (s.link key).fails + 1
    ((s.setFld (linkReg die m) 0 2 (if n ≥ 3 then 3 else 0)).updLink key fun L =>
      { L with fails := if n ≥ 3 then 0 else n }).refreshRoute die

/-- D2D_RETRAIN_DONE (R197). -/
def execD2dRetrainDone (m : ModId) (ok : Bool) (spared : BitVec 3) (s : State) : Out :=
  .next (if modDieUp s m && training s m then retrainEnd m.die.val m.m.val ok spared.toNat s else s)

/-- R204: `DISABLE`: 1 takes the module out of use; 0 brings it back by a retrain (log 40). -/
def disableWrite (die m : Nat) (v : Bool) (s : State) : State :=
  let s1 := s.setFld (linkReg die m + 4) 1 1 (b2n v)
  if v then (s1.setFld (linkReg die m) 0 2 3).refreshRoute die
  else if linkState s die m = 3 then s1.startRetrain die m else s1

/-- DF_LINK_DISABLE (R204). -/
def execDfLinkDisable (r : Req) (m : ModId) (v : Bool) (s : State) : Out :=
  .next (if modOk m then s.access r (linkReg m.die.val m.m.val + 4) (disableWrite m.die.val m.m.val v) else s)

end Sys2Proof.Machine
end

