-- ==== Sys2Proof/Machine/Thermal.lean ====
section
/-!
DEFINITION. Thermal.lean: sensors, bands, throttle levels, DVFS, the coolant supervisor, trips and the emergency halt (R22 to
R25, R524 to R553).
-/
namespace Sys2Proof.Machine

/-! ### Samples (R525, R526, R531) -/

/-- R524: the sensor exists and its reader runs. -/
def sensorLive (s : State) (die i : Nat) : Bool := if die = 16 then pkgUp s && decide (i < 8) else stackUp s die

/-- R531: the hard limit of a sensor, in 0.0625 C. -/
def hardLimit (die i : Nat) : Int := if die < 16 ∧ i < 9 then 1760 else 1840

/-- R525, R526: a sample; one outside the range marks the sensor. -/
def Sensor.sample (x : Sensor) (die i raw : Nat) (t : Int) : Sensor :=
  let bad := t < -640 || 2400 < t
  { x with
    last := (t :: x.last).take 10, raw := raw, seen := true, sum := x.sum + t, cnt := x.cnt + 1
    same := if x.seen ∧ x.raw = raw then x.same + 1 else 0
    clean := if bad then 0 else x.clean + 1
    cause := if bad ∧ x.cause = 0 then 1 else x.cause
    hardCnt := if x.ok ∧ hardLimit die i ≤ t then x.hardCnt + 1 else 0 }

/-- R551, R552: an I/O die sensor at 105 C or above. -/
def iodHot (s : State) : Bool := (List.range 8).any fun i =>
  (s.sensor (sensKey 16 i)).used && (match (s.sensor (sensKey 16 i)).last with | t :: _ => decide (1680 ≤ t) | [] => false)

/-- SENSOR_SAMPLE's effect. -/
def sensorSample (die i raw : Nat) (t : Int) (s : State) : State :=
  let was := (s.sensor (sensKey die i)).ok
  let hot := iodHot s
  let s1 := (s.updSensor (sensKey die i) fun x => x.sample die i raw t).sensorIgnored die i was
  if die = 16 ∧ iodHot s1 then (if hot then s1 else s1.report none 0x16 3 16 0 0x10).alert 7 else s1

/-- SENSOR_SAMPLE (R525). -/
def execSensorSample (die : Fin 17) (i : Fin 13) (raw : BitVec 12) (temp : BitVec 16) (s : State) : Out :=
  .next (if sensorLive s die.val i.val then sensorSample die.val i.val raw.toNat temp.toInt s else s)

/-- R526: the rate check of two consecutive 100 ms means. -/
def rateBad (x : Sensor) : Bool :=
  match x.prev with
  | some (a, n) => decide (0 < x.cnt) && decide (0 < n) && decide (80 * (x.cnt : Int) * n < ((x.sum * n - a * x.cnt).natAbs : Int))
  | none => false

/-- R526: the stuck and rate checks; a second of clean samples (100,000) brings the sensor back. -/
def Sensor.check (x : Sensor) : Sensor :=
  let stuck := decide (100000 ≤ x.same)
  let rate := rateBad x
  let c := if x.cause ≠ 0 then (if stuck || rate || decide (x.clean < 100000) then x.cause else 0)
           else if stuck then 2 else if rate then 3 else 0
  { x with cause := c, clean := if stuck || rate then 0 else x.clean, prev := some (x.sum, x.cnt), sum := 0, cnt := 0 }

/-- SENSOR_MEAN_100MS (R526). -/
def execSensorMean100ms (st : Fin 16) (i : Fin 13) (s : State) : Out :=
  .next (if sensorLive s st.val i.val then
    (s.updSensor (sensKey st.val i.val) Sensor.check).sensorIgnored st.val i.val (s.sensor (sensKey st.val i.val)).ok
  else s)

/-! ### Trips (R22, R531, R532) -/

/-- R531: a valid sensor has stood at its hard limit for two samples. -/
def tripDue (s : State) : Bool :=
  s.sensors.any fun e => decide (2 ≤ e.2.hardCnt) && e.2.used && sensorLive s (e.1 / 16) (e.1 % 16)

/-- R22, R531: arrays halted, THERMTRIP_N latched, clocks stopped. -/
def State.trip (s : State) : State :=
  let s1 := (List.range 16).foldl (fun s st => s.updStk st fun T => { T with halt := true }) s
  { s1 with pins := { s1.pins with thermtrip := true }, clocksOff := true }

/-- HARD_LIMIT_TRIP (R531). -/
def execHardLimitTrip (s : State) : Out := .next (if tripDue s then s.trip else s)

/-- ANALOGUE_COMPARATOR_TRIP (R532): the comparator needs no clock and no firmware. -/
def execAnalogueComparatorTrip (die : Fin 17) (s : State) : Out :=
  .next (if s.pins.pwrGood && (die.val == 16 || activeStack s die.val) then s.trip else s)

/-! ### The control loop (R527, R528, R530, R535) -/

/-- The hotter of two readings. -/
def hotter : Option Int → Option Int → Option Int
  | some a, some b => some (max a b)
  | some a, none => some a
  | none, b => b

/-- The hottest reading of the sensors `is` of a stack that are used. -/
def hottest (s : State) (st : Nat) (is : List Nat) : Option Int :=
  is.foldl (fun m i => if (s.sensor (sensKey st i)).used then hotter m (some (s.sensor (sensKey st i)).mean) else m) none

/-- R528: the reading that stands in for the pair: layer 1, or the hottest layer sensor, plus the offset. -/
def pairFill (s : State) (st : Nat) : Option Int :=
  (match hottest s st [2] with
   | some t => some t
   | none => hottest s st [3, 4, 5, 6, 7, 8]).map (· + 16 * (s.fld (govReg st 0x050) 0 4 : Int))

/-- R527, R528: the pair reading. -/
def pairReading (s : State) (st : Nat) : Option Int :=
  if (s.stk st).pairLost.isSome then (match pairFill s st with | some t => some t | none => hottest s st [0, 1]) else hottest s st [0, 1]

/-- R530: the deciding temperature. -/
def deciding (s : State) (st : Nat) : Option Int := hotter (pairReading s st) (hottest s st [2, 3, 4, 5, 6, 7, 8])

/-- R528: a measure begins where sensors are missing, and ends 1 s (10,000 loops) after they have returned. -/
def lostStep (missing : Bool) (c : Option Nat) : Option Nat :=
  if missing then some 0
  else match c with
    | some n => if 10000 ≤ n then none else some (n + 1)
    | none => none

/-- R528: the measures of one loop. -/
def State.sensorsLost (s : State) (st : Nat) : State :=
  let noPair := (hottest s st [0, 1]).isNone
  let noBand := (hottest s st [0, 1, 2, 3, 4, 5, 6, 7, 8]).isNone
  let noLogic := (hottest s st [9, 10, 11, 12]).isNone
  let s1 := s.updStk st fun T =>
    { T with pairLost := lostStep noPair T.pairLost, bandLost := lostStep noBand T.bandLost, logicLost := lostStep noLogic T.logicLost
             sensHalt := (lostStep noBand T.bandLost).isSome }
  if (s1.stk st).pairLost.isSome || (s1.stk st).logicLost.isSome then s1.alert 4 else s1

/-- R527: the pair check; 10,000 loops are 1 s. -/
def State.pairCheck (s : State) (st : Nat) : State :=
  let a := s.sensor (sensKey st 0)
  let b := s.sensor (sensKey st 1)
  let far := a.used && b.used && decide (64 < (a.mean - b.mean).natAbs)
  let near := a.used && b.used && decide ((a.mean - b.mean).natAbs ≤ 64)
  let on := s.bit (govReg st 0x054) 0
  let n := (s.stk st).pairCnt
  if on then
    (if !near then s.updStk st fun T => { T with pairCnt := 0 }
     else if 10000 ≤ n then (s.updStk st fun T => { T with pairCnt := 0 }).clrBit (govReg st 0x054) 0
     else s.updStk st fun T => { T with pairCnt := n + 1 })
  else if !far then s.updStk st fun T => { T with pairCnt := 0 }
  else if n ≤ 10000 then s.updStk st fun T => { T with pairCnt := n + 1 }
  else (((s.updStk st fun T => { T with pairCnt := 0 }).setBit (govReg st 0x054) 0).setBit (govReg st 0x054) 1).report none 0x0F 3 st 0 (thermAddr st 0)

/-- R232: lower bound of a band, in 0.0625 C. -/
def bandLow (b : Nat) : Int :=
  match b with
  | 0 => -100000
  | 1 => 0
  | 2 => 1360
  | 3 => 1520
  | _ => 1680

/-- R233: the next band: up to any band whose bound is reached, down by one below the bound less 2 C. -/
def nextBand (b : Nat) (t : Int) : Nat :=
  let up := ((List.range 5).filter fun x => decide (bandLow x ≤ t)).foldl max 0
  if b < up then up else if b ≠ 0 ∧ t < bandLow b - 32 then b - 1 else b

/-- R233, R237: the band of the stack becomes `b`. -/
def State.setBand (s : State) (st b : Nat) : State :=
  let a := smReg st 0x040
  if s.fld a 0 3 = b then s
  else
    let s1 := ((s.setFld a 0 3 b).setFld a 16 3 (max (s.fld a 16 3) b)).setBit a 19
    let s2 := s1.updStk st fun T => { T with bandAt := some s.tb }
    if b = 4 then (s2.report none 0x14 3 st 0 (thermAddr st 0)).alert 3 else s2

/-- R535: the minimum level of the band and of the logic sensors. -/
def thermalLevel (band : Nat) (logic : Option Int) : Nat :=
  max (if band = 4 then 15 else if band = 3 then 4 else 0)
    (match logic with
     | some t => if 1760 ≤ t then 12 else if 1680 ≤ t then 8 else 0
     | none => 0)

/-- R528, R535: the reading by which the logic limit is judged. -/
def logicReading (s : State) (st : Nat) : Option Int :=
  if (s.stk st).logicLost.isSome then (pairReading s st).map (· + 80) else hottest s st [9, 10, 11, 12]

/-- THERMAL_LOOP's effect. -/
def thermalLoop (st : Nat) (s : State) : State :=
  let s1 := (s.sensorsLost st).pairCheck st
  let t := deciding s1 st
  let b := if (s1.stk st).bandLost.isSome then 4 else match t with | some x => nextBand (s1.fld (smReg st 0x040) 0 3) x | none => 4
  let s2 := s1.setBand st b
  let s3 := match t with
    | some x => (s2.setFld (smReg st 0x040) 8 8 (wrapInt 8 (x / 16))).updStk st fun T =>
        { T with temp := some x, tempSum := T.tempSum + x, tempCnt := T.tempCnt + 1 }
    | none => s2.updStk st fun T => { T with temp := none }
  s3.updStk st fun T => { T with tLevel := thermalLevel b (logicReading s3 st) }

/-- THERMAL_LOOP (R530). -/
def execThermalLoop (st : Fin 16) (s : State) : Out := .next (if stackUp s st.val then thermalLoop st.val s else s)

/-! ### Power (R536, R539 to R541) -/

/-- R536: the mean of the last 1 ms, in mW. -/
def powerMean (T : Stack) : Nat := if T.power = [] then 0 else T.power.foldl (· + ·) 0 / T.power.length

/-- R539, R540: the power level after an estimate. -/
def nextPLevel (s : State) (st : Nat) : Nat :=
  if timedMode s st then timedLevel s st
  else if 97 * capMw s st < 100 * powerMean (s.stk st) then min 15 ((s.stk st).pLevel + 1)
  else (s.stk st).pLevel

/-- R556: the counters of one 10 us period. -/
def State.countGov (s : State) (st : Nat) : State :=
  let T := s.stk st
  let s1 := if govLevel s st = 0 then s else s.count (576 + st) 17 1
  let s2 := if 0 < T.tLevel ∧ T.pLevel ≤ T.tLevel then s1.count (576 + st) 18 1 else s1
  if stackHalted s st then s2.count (576 + st) 22 10 else s2

/-- POWER_ESTIMATE's effect. -/
def powerEstimate (st mw : Nat) (s : State) : State :=
  let s1 := s.updStk st fun T => { T with power := (mw :: T.power).take 100, powSum := T.powSum + mw, powCnt := T.powCnt + 1 }
  let m := powerMean (s1.stk st)
  let s2 := (s1.setFld (govReg st 0x048) 16 8 (min 255 (m / 1000))).updStk st fun T =>
    { T with pLevel := nextPLevel s1 st, above92 := T.above92 || decide (92 * capMw s1 st ≤ 100 * m) }
  let s3 := s2.updStk st fun T =>
    { T with lvlSum := T.lvlSum + T.pLevel, lvlCnt := T.lvlCnt + 1, zeroCnt := if T.pLevel = 0 then T.zeroCnt + 1 else 0 }
  s3.countGov st

/-- POWER_ESTIMATE (R536). -/
def execPowerEstimate (st : Fin 16) (mw : Nat) (s : State) : Out :=
  .next (if stackUp s st.val then powerEstimate st.val mw s else s)

/-- ADAPTIVE_LEVEL_LOWER (R539). -/
def execAdaptiveLevelLower (st : Fin 16) (s : State) : Out :=
  .next (if stackUp s st.val && !timedMode s st.val then
    (let T := s.stk st.val
     let below := !T.above92 && decide (100 * powerMean T < 92 * capMw s st.val)
     s.updStk st.val fun T => { T with above92 := false, pLevel := if below then T.pLevel - 1 else T.pLevel })
  else s)

/-- R541: the array waits for a start permit. -/
def waitsPermit (s : State) (k t : Nat) : Bool :=
  plotGo s k && !haltInForce s k && !permitOk s k t &&
  (match headPass (s.arr k) with
   | some x => !x.started || decide ((s.arr k).slotAt ≤ t)
   | none => false)

/-- R541: the waiting array next in turn. -/
def permitTurn (s : State) (st t : Nat) : Option Nat :=
  ((List.range 32).map fun i => ((s.stk st).rrPtr + i) % 32).find? fun p => waitsPermit s (32 * st + p) t

/-- START_PERMIT_GRANT (R541). -/
def execStartPermitGrant (st : Fin 16) (p : Fin 32) (t : Nat) (s : State) : Out :=
  let T := s.stk st.val
  .next (if stackUp s st.val && timedMode s st.val && permitTurn s st.val t == some p.val &&
      (T.permitAt == 0 || decide (T.permitAt + s.fld (govReg st.val 0x04C) 0 4 ≤ t)) then
    (s.updStk st.val fun T => { T with permitAt := t, rrPtr := (p.val + 1) % 32 }).updArr (32 * st.val + p.val) fun A => { A with permit := true }
  else s)

/-! ### DVFS (R544, R545) -/

/-- R543: `PSTATE_MAX`; the -E grade takes 0 as 1. -/
def pstateMax (s : State) (st : Nat) : Nat := max (gradeTop s) (s.fld (govReg st 0x044) 2 3)

/-- R544: the P-state that the governor chooses; 1,000 estimates are 10 ms and 10,000 are 100 ms. -/
def pstateChoice (s : State) (st : Nat) : Nat :=
  let T := s.stk st
  let p := pstateOf s st
  if T.pmbBad then 4
  else if timedMode s st || !s.bit (govReg st 0x044) 5 then pstateMax s st
  else if 0 < T.lvlCnt ∧ 8 * T.lvlCnt ≤ T.lvlSum then min 4 (p + 1)
  else if 10000 ≤ T.zeroCnt then max (pstateMax s st) (p - 1)
  else p

/-- PSTATE_DECISION (R544). -/
def execPstateDecision (st : Fin 16) (ack : Bool) (s : State) : Out :=
  .next (if stackUp s st.val && (s.stk st.val).change.isNone then
    (let p := pstateChoice s st.val
     let s1 := s.updStk st.val fun T => { T with lvlSum := 0, lvlCnt := 0, zeroCnt := if p < pstateOf s st.val then 0 else T.zeroCnt }
     s1.changePstate st.val p ack)
  else s)

/-- R545: a step has settled: the next one goes out, or the clock may switch, or the change is over. -/
def stepSettled (st : Nat) (ack : Bool) (s : State) : State :=
  match (s.stk st).change with
  | none => s
  | some c =>
    if c.hold then s
    else if (s.stk st).vdd ≠ pstateMv c.target then s.sendStep st (pstateMv c.target) ack
    else if c.raising then s.updStk st fun T => { T with change := some { c with hold := true } }
    else s.updStk st fun T => { T with change := none }

/-- VOUT_STEP_SETTLED (R545). -/
def execVoutStepSettled (st : Fin 16) (ack : Bool) (s : State) : Out :=
  .next (if stackUp s st.val then stepSettled st.val ack s else s)

/-- R66, R545: the arrays of the stack are empty and their weight loads are done. -/
def arraysEmpty (s : State) (st : Nat) : Bool :=
  (List.range 32).all fun p =>
    let A := s.arr (32 * st + p)
    A.vecs.isEmpty && A.feed.isNone && A.shadow != .loading

/-- R545: the clock switches; the voltage follows it down. -/
def clockSwitch (st : Nat) (ack : Bool) (s : State) : State :=
  match (s.stk st).change with
  | none => s
  | some c =>
    if !c.hold then s
    else
      let s1 := (s.setFld (govReg st 0x048) 4 3 c.target).count (576 + st) 21 1
      if !c.raising ∧ !(s.stk st).pmbBad ∧ (s.stk st).vdd ≠ pstateMv c.target then
        (s1.updStk st fun T => { T with change := some { c with hold := false } }).sendStep st (pstateMv c.target) ack
      else s1.updStk st fun T => { T with change := none }

/-- CLOCK_SWITCH (R545). -/
def execClockSwitch (st : Fin 16) (ack : Bool) (s : State) : Out :=
  .next (if stackUp s st.val && arraysEmpty s st.val then clockSwitch st.val ack s else s)

/-! ### The coolant supervisor (R546 to R550) -/

/-- R464, R471, R485: the coolant parameters have been read, and the supervisor runs. -/
def coolRuns (s : State) : Bool := pkgUp s && bootState s != 2 && s.boot.cool.ppl != 0

/-- R471: the supervisor owns the coolant decisions: stage 0x06 has passed. -/
def coolOwns (s : State) : Bool := coolRuns s && (bootState s == 1 || s.boot.passed.contains 6)

/-- R25: a read that is not acknowledged, or lies outside -20 C to 120 C, is invalid. -/
def coolValid : Option (BitVec 16) → Option Int
  | none => none
  | some x => if x.toInt < -320 ∨ 1920 < x.toInt then none else some x.toInt

/-- A sensor register of R555. -/
def State.setCoolReg (s : State) (off : Nat) (x : Option Int) : State :=
  match x with
  | some t => (s.setFld (thmReg off) 0 16 (wrapInt 16 t)).setBit (thmReg off) 16
  | none => s.clrBit (thmReg off) 16

/-- R548: a condition that begins after `up` and ends after `down` further periods. -/
def CoolCond.step (c : CoolCond) (enter leave : Bool) (up down : Nat) : CoolCond :=
  if c.on then (if !leave then { c with cnt := 0 } else if down ≤ c.cnt then {} else { c with cnt := c.cnt + 1 })
  else if !enter then {} else if up ≤ c.cnt then { on := true } else { c with cnt := c.cnt + 1 }

/-- R548, R551: a condition has come into force. -/
def State.coolAlert (s : State) (was now : CoolCond) (rpt : Bool) (cause : Nat) : State :=
  if now.on ∧ !was.on then (if rpt then s.report none 0x15 3 16 0 0x10 else s).alert cause else s

/-- R548: the inlet and the sensors; ten reads are 1 s. -/
def State.inletCheck (s : State) (inlet outlet : Option Int) : State :=
  let C := s.coolant
  let above (x : Int) : Bool := match inlet with | some t => decide (x < t) | none => false
  let below (x : Int) : Bool := match inlet with | some t => decide (t < x) | none => false
  let bad := inlet.isNone || outlet.isNone
  let hot := C.hot.step (above 720) (below 689) 10 100
  let cold := C.cold.step (below 240) (above 271) 10 100
  let badc := C.bad.step bad (!bad) 10 10
  let s1 := { s with coolant := { C with hot := hot, cold := cold, bad := badc } }
  ((s1.coolAlert C.hot hot true 5).coolAlert C.cold cold true 5).coolAlert C.bad badc false 6

/-- COOLANT_SENSOR_READ's effect. -/
def coolantRead (inlet outlet : Option Int) (s : State) : State :=
  let s1 := (s.setCoolReg 0x044 inlet).setCoolReg 0x048 outlet
  let C := s1.coolant
  let s2 := { s1 with coolant := { C with
    flowReads := if s1.bit (pkgReg 0x044) 3 then C.flowReads + 1 else 0
    inSum := C.inSum + inlet.getD 0, inCnt := C.inCnt + b2n inlet.isSome, inBad := C.inBad || inlet.isNone } }
  let s3 := if C.halted then s2.count 594 4 100000 else s2
  if coolOwns s then s3.inletCheck inlet outlet else s3

/-- COOLANT_SENSOR_READ (R25, R548). -/
def execCoolantSensorRead (inlet outlet : Option (BitVec 16)) (s : State) : Out :=
  .next (if coolRuns s then coolantRead (coolValid inlet) (coolValid outlet) s else s)

/-- FLOW_PULSE (R24). -/
def execFlowPulse (s : State) : Out :=
  .next (if pkgUp s then
    { s with coolant := { s.coolant with pulses := s.coolant.pulses + 1, noFlow := false } }.setBit (pkgReg 0x044) 3 else s)

/-- R549: the emergency halt, for a trigger with its alert cause and report. -/
def State.emergencyHalt (s : State) (cause code addr : Nat) : State :=
  let s1 := { s with coolant := { s.coolant with halted := true } }
  ((s1.alert cause).alert 11).report none code 2 16 0 addr

/-- FLOW_STOP (R549). -/
def execFlowStop (s : State) : Out :=
  .next (if pkgUp s && s.bit (pkgReg 0x044) 3 then
    (let s1 := { s with coolant := { s.coolant with flowReads := 0, noFlow := true } }.clrBit (pkgReg 0x044) 3
     if coolOwns s then s1.emergencyHalt 0 0x12 0x10 else s1)
  else s)

/-- R548: flow in mL/min from the pulses of the last second. -/
def flowMl (s : State) : Nat := s.coolant.pulses * 60000 / max 1 s.boot.cool.ppl

/-- R36: the minimum flow in mL/min. -/
def flowMin (s : State) : Nat := if sext 16 (s.fld (thmReg 0x044) 0 16) ≤ 640 then 3000 else 4000

/-- R548: the flow check; ten estimates are 10 s. -/
def State.flowCheck (s : State) : State :=
  let f := flowMl s
  let s1 := s.setFld (thmReg 0x04C) 0 16 (min 65535 f)
  let low := s.coolant.low.step (decide (f < flowMin s)) (decide (flowMin s ≤ f)) 9 9
  { s1 with coolant := { s1.coolant with low := low, pulses := 0 } }.coolAlert s.coolant.low low true 5

/-- R546: the means of the second that ends. -/
def secMean (s : State) (st : Nat) : SecMean :=
  let T := s.stk st
  { temp := if T.tempCnt = 0 then T.temp.getD 0 else T.tempSum / T.tempCnt
    inlet := if s.coolant.inCnt = 0 then 0 else s.coolant.inSum / s.coolant.inCnt
    power := if T.powCnt = 0 then 0 else T.powSum / T.powCnt
    ok := !s.coolant.inBad && decide (0 < s.coolant.inCnt) && T.temp.isSome
    last := T.temp.getD 0 }

/-- R546: the estimate in mK/W over ten seconds, where it is taken. -/
def rEstimate (l : List SecMean) : Option Nat :=
  if l.length = 10 ∧ (l.all fun m => m.ok && decide (40000 ≤ m.power)) then
    some ((l.foldl (fun (a : Int) (m : SecMean) => a + (m.temp - m.inlet)) 0).toNat * 62500 / l.foldl (fun (a : Nat) (m : SecMean) => a + m.power) 0)
  else none

/-- R547: the stack's coolant state after an estimate. -/
def State.coolState (s : State) (st est : Nat) : State :=
  let T := s.stk st
  let base := s.fld (govReg st 0x058) 16 16
  let over_ (pct : Nat) : Bool := decide (base * pct < est * 100)
  let target := if est = 0 then 100 else min 100 (100 * base / est)
  let held (pct : Nat) : Bool := !(over_ pct)
  match T.cool with
  | .normal =>
    if over_ (100 + s.fld (thmReg 0x050) 0 8) then
      (s.updStk st fun T => { T with cool := .derated, coolTarget := target, coolCnt := 0 }).report none 0x10 3 st 0 (thermAddr st 0)
    else s.updStk st fun T => { T with coolTarget := 100 }
  | .derated =>
    if over_ (100 + s.fld (thmReg 0x050) 8 8) then
      ((s.updStk st fun T => { T with cool := .degraded, coolTarget := 50, coolCap := 50, coolCnt := 0 }).report none 0x11 1 st 0 (thermAddr st 0)).alert 2
    else if held 110 ∧ 60 ≤ T.coolCnt then s.updStk st fun T => { T with cool := .normal, coolTarget := 100, coolCnt := 0 }
    else s.updStk st fun T => { T with coolTarget := target, coolCnt := if held 110 then T.coolCnt + 1 else 0 }
  | .degraded =>
    if held 135 ∧ 60 ≤ T.coolCnt then s.updStk st fun T => { T with cool := .derated, coolTarget := target, coolCnt := 0 }
    else s.updStk st fun T => { T with coolCnt := if held 135 then T.coolCnt + 1 else 0 }

/-- R547: the cap moves towards its target by 5 % per second. -/
def State.moveCap (s : State) (st : Nat) : State :=
  s.updStk st fun T =>
    { T with coolCap := if T.coolCap < T.coolTarget then min T.coolTarget (T.coolCap + 5) else max T.coolTarget (T.coolCap - 5) }

/-- R549: the second trigger: more than 2 C in 1 s at steady power. -/
def rampNow (l : List SecMean) : Bool :=
  match l with
  | a :: b :: _ => a.ok && b.ok && decide (b.last + 32 < a.last) && decide (20 * ((a.power : Int) - b.power).natAbs ≤ b.power)
  | _ => false

/-- R546, R547, R549: one stack, once a second. -/
def State.coolStack (s : State) (st : Nat) : State :=
  let m := secMean s st
  let s1 := s.updStk st fun T => { T with secs := (m :: T.secs).take 10, powSum := 0, powCnt := 0, tempSum := 0, tempCnt := 0 }
  let s2 := match rEstimate (s1.stk st).secs with
    | some e => (s1.setFld (govReg st 0x058) 0 16 (min 65535 e)).coolState st e
    | none => s1
  let s3 := s2.moveCap st
  if rampNow (s3.stk st).secs then { s3 with coolant := { s3.coolant with ramp := true } }.emergencyHalt 1 0x13 (thermAddr st 0) else s3

/-- COOLANT_ESTIMATE's effect; the flow check counts into the same second. -/
def coolantEstimate (s : State) : State :=
  let s0 := { s with coolant := { s.coolant with ramp := false } }
  let s1 := ((List.range 16).filter fun st => stackUp s st).foldl (fun s st => s.coolStack st) s0
  { s1 with coolant := { s1.coolant with inSum := 0, inCnt := 0, inBad := false } }.flowCheck

/-- COOLANT_ESTIMATE (R546). -/
def execCoolantEstimate (s : State) : Out := .next (if coolOwns s then coolantEstimate s else s)

/-- R550: the conditions of RESUME; ten reads are 1 s. -/
def resumeOk (s : State) : Bool :=
  decide (10 ≤ s.coolant.flowReads) && s.bit (pkgReg 0x044) 3 && !s.coolant.noFlow && !s.coolant.ramp &&
  (List.range 16).all fun st => !(stackUp s st) || decide (s.fld (smReg st 0x040) 0 3 < 3)

/-- R550: a write of `GOV_CTRL.RESUME`. -/
def resume (s : State) : State :=
  if resumeOk s then { s with coolant := { s.coolant with halted := false } } else s.setBit (thmReg 0x058) 0

/-- GOV_RESUME (R550). -/
def execGovResume (r : Req) (s : State) : Out := .next (s.access r (thmReg 0x054) resume)

/-! ### Alerts (R551) -/

/-- R551: the causes whose conditions hold now: a write of 1 does not clear them. -/
def alertHolds (s : State) : Nat :=
  let sts := (List.range 16).filter fun st => stackUp s st
  b2n s.coolant.noFlow + 2 * b2n s.coolant.ramp +
  4 * b2n (sts.any fun st => (s.stk st).cool == .degraded) + 8 * b2n (sts.any fun st => s.fld (smReg st 0x040) 0 3 == 4) +
  16 * b2n (sts.any fun st => (s.stk st).pairLost.isSome || (s.stk st).logicLost.isSome) +
  32 * b2n (s.coolant.hot.on || s.coolant.cold.on || s.coolant.low.on) + 64 * b2n s.coolant.bad.on + 128 * b2n (iodHot s) +
  512 * b2n s.pins.sysLost + 1024 * b2n (s.bit (pkgReg 0x044) 5) + 2048 * b2n s.coolant.halted

/-- R551: W1C of `THM_ALERT`. -/
def clearAlerts (v : Nat) (s : State) : State :=
  let keep := alertHolds s
  let w := s.fld (thmReg 0x040) 0 12
  let w' := (List.range 12).foldl (fun a i => if nbit w i ∧ (!nbit v i ∨ nbit keep i) then a + 2 ^ i else a) 0
  let s1 := s.setFld (thmReg 0x040) 0 12 w'
  if w' = 0 then s1.clrBit (pkgReg 0x044) 2 else s1

end Sys2Proof.Machine
end

