-- ==== Sys2Proof/Machine/Toll.lean ====
section
/-!
DEFINITION. Toll.lean: the tollhouse (R557 to R581): metering, attribution, records, summaries, mailboxes, calibration and the
audit log. Layouts that no rule gives are PRESUMED (log 73).
-/
namespace Sys2Proof.Machine

/-- Replace the tollhouse. -/
def State.updToll (s : State) (f : Toll → Toll) : State := { s with toll := f s.toll }

/-- R559: it meters. -/
def tollOn (s : State) : Bool := s.pins.pwrGood && s.toll.on

/-- Set a flag of the second (R568). -/
def Toll.flag (T : Toll) (i : Nat) : Toll := { T with flags := T.flags ||| BitVec.ofNat 5 (2 ^ i) }

/-! ### Metering (R560 to R563) -/

/-- R560, R562: a sample adds power x 10 us to every channel but the spare ones. -/
def Toll.sample (T : Toll) (power : List Nat) (sat : Bool) : Toll :=
  let T1 := { T with acc := (List.range 18).foldl (fun t c => tput 0 t c (tget 0 t c + nth 0 power c)) T.acc, msOpen := true }
  if sat then T1.flag 2 else T1

/-- TOLL_SAMPLE (R560). -/
def execTollSample (power : List Nat) (sat : Bool) (s : State) : Out :=
  .next (if tollOn s then s.updToll fun T => T.sample power sat else s)

/-- R563: whole microjoules of a channel that the millisecond closes. -/
def Toll.msEnergy (T : Toll) (c : Nat) : Nat := tget 0 T.acc c / 100000

/-- R566: the account of stack `n` in the millisecond: its partition, or 17. -/
def ownerOf (f : Option FeedFrame) (n : Nat) : Nat :=
  match f with
  | some x => if nth 16 x.owner n < 16 then nth 16 x.owner n else 17
  | none => 17

/-- R563, R566: a millisecond ends: its energy joins the second's, and each stack's goes to its account. -/
def Toll.closeMs (T : Toll) (f : Option FeedFrame) : Toll :=
  { T with
    sec := (List.range 18).foldl (fun t c => tput 0 t c (tget 0 t c + T.msEnergy c)) T.sec
    acct := (List.range 16).foldl (fun t n => tput 0 t (ownerOf f n) (tget 0 t (ownerOf f n) + T.msEnergy n)) T.acct
    acc := (List.range 18).foldl (fun t c => tput 0 t c (tget 0 T.acc c % 100000)) T.acc
    msOpen := false }

/-- R565 to R567: what a valid frame reports: WU by owner, and bytes. -/
def Toll.takeFrame (T : Toll) (f : FeedFrame) : Toll :=
  { T with
    wu := (List.range 16).foldl (fun t n => if ownerOf (some f) n < 16 then
      tput 0 t (ownerOf (some f) n) (tget 0 t (ownerOf (some f) n) + nth 0 f.wu n) else t) T.wu
    bytes := tput 0 ((List.range 16).foldl (fun t p => tput 0 t p (tget 0 t p + nth 0 f.lnd (p + 1) + nth 0 f.xng p)) T.bytes) 16
      (tget 0 T.bytes 16 + nth 0 f.lnd 0 + f.fwd)
    frame := some f }

/-- R566: a millisecond without a valid frame. -/
def Toll.gap (T : Toll) : Toll := (T.closeMs none).flag 1

/-- FEED_FRAME (R565): the stacks' counts start anew with each frame sent. -/
def execFeedFrame (frame : FeedFrame) (crcOk : Bool) (s : State) : Out :=
  .next (if tollOn s then
    ((List.range 16).foldl (fun s st => s.updStk st fun T => { T with wu := 0 }) s).updToll fun T =>
      if crcOk then (T.closeMs (some frame)).takeFrame frame else T.gap
  else s)

/-- FEED_GAP (R566). -/
def execFeedGap (s : State) : Out := .next (if tollOn s then s.updToll Toll.gap else s)

/-! ### The second (R567, R568) -/

/-- R567: stacks that partition `p` owns in the second's last valid frame. -/
def Toll.stacksOf (T : Toll) (p : Nat) : Nat := ((List.range 16).filter fun n => ownerOf T.frame n == p).length

/-- R567: shared energy of the second. -/
def Toll.shared (T : Toll) : Nat := tget 0 T.sec 16 + tget 0 T.sec 17

/-- R567: bytes in all. -/
def Toll.allBytes (T : Toll) : Nat := (List.range 17).foldl (fun a p => a + tget 0 T.bytes p) 0

/-- R567: partition `p`'s share. -/
def Toll.share (T : Toll) (p : Nat) : Nat :=
  if 0 < T.allBytes then T.shared * tget 0 T.bytes p / T.allBytes else T.shared * T.stacksOf p / 16

/-- R567: the device account takes the remainder. -/
def Toll.device (T : Toll) : Nat := T.shared - (List.range 16).foldl (fun a p => a + T.share p) 0

/-- A record is held by the ring or, after a memory fault, by SRAM. -/
def Toll.find (T : Toll) (seq : Nat) : Option TollRec :=
  match T.sram.find? fun r => r.seq == seq with
  | some r => some r
  | none => T.ring.find? fun r => r.seq == seq

/-- R568: the previous record's hash. -/
def Toll.chain (T : Toll) (other : List Byte) : List Byte :=
  match T.find T.seq with
  | some r => sha256 r.bytes
  | none => other

/-- R568: the partition entries of a record. -/
def Toll.entries (T : Toll) : List Byte :=
  (List.range 16).flatMap fun p =>
    leBytes 4 (tget 0 T.acct p + T.share p) ++ leBytes 4 (T.share p) ++ leBytes 8 (tget 0 T.wu p)

/-- R568: the record of the second that ends; `chain` is its `CHAIN`. -/
def Toll.record (T : Toll) (chain : List Byte) : List Byte :=
  leBytes 8 (T.seq + 1) ++ leBytes 4 T.cycle ++ leBytes 4 (T.second + 1) ++ leBytes 4 T.flags.toNat ++ leBytes 4 T.sealCnt ++
  leBytes 8 0 ++ T.entries ++ leBytes 8 T.device ++ leBytes 8 (tget 0 T.acct 17) ++
  ((List.range 20).flatMap fun c => leBytes 4 (tget 0 T.sec c)) ++ List.replicate 96 0 ++ chain

/-- R569, R571: the record is written, to the ring or to SRAM. -/
def Toll.write (T : Toll) (bytes : List Byte) (memOk : Bool) : Toll :=
  let r : TollRec := { seq := T.seq + 1, bytes := bytes }
  let T1 := { T with seq := T.seq + 1, alive := T.alive + 1, memFault := !memOk }
  if memOk then { T1 with ring := (r :: T.ring).take 345600 } else { T1 with sram := (r :: T.sram).take 3600 }

/-- R577, R578: the next second begins; a new calibration set is in use from its start. -/
def Toll.nextSecond (T : Toll) : Toll :=
  let T1 := { T with sec := [], acct := [], wu := [], bytes := [], frame := none, second := T.second + 1, flags := 0 }
  match T.newCal with
  | some c => { T1 with cal := c, newCal := none, calOk := true, flags := 8 }
  | none => if T.calOk then T1 else { T1 with flags := 8 }

/-! ### Summaries (R569, R570) -/

/-- The records of a range that are held. -/
def Toll.range (T : Toll) (a b : Nat) : List TollRec := ((List.range (b + 1 - a)).filterMap fun i => T.find (a + i))

/-- The sum of a field over records. -/
def sumAt (l : List TollRec) (off n : Nat) : Nat := l.foldl (fun a r => a + leAt r.bytes off n) 0

/-- The totals per account of energy, shared energy and WU, then of the device and unassigned accounts. -/
def totals (l : List TollRec) : List Byte :=
  ((List.range 16).flatMap fun p => leBytes 8 (sumAt l (32 + 16 * p) 4) ++ leBytes 8 (sumAt l (36 + 16 * p) 4) ++ leBytes 8 (sumAt l (40 + 16 * p) 8)) ++
  leBytes 8 (sumAt l 288 4) ++ leBytes 8 (sumAt l 296 4)

/-- The OR of the records' flags. -/
def orFlags (l : List TollRec) : Nat := l.foldl (fun a r => Nat.lor a (leAt r.bytes 16 4)) 0

/-- R580: version and checksum. -/
def Toll.software (T : Toll) : List Byte := leBytes 4 T.version.toNat ++ (T.checksum ++ List.replicate 32 0).take 32

/-- R569: the body of a summary of records `a` to `b`; the signature follows it (log 73). -/
def Toll.summary (T : Toll) (a b : Nat) : List Byte :=
  let l := T.range a b
  let last := match T.find b with | some r => r.bytes | none => []
  let body := leBytes 8 a ++ leBytes 8 b ++ leBytes 4 (leAt last 8 4) ++ leBytes 4 (orFlags l) ++ leBytes 4 T.sealCnt ++ T.software ++
    slice last 480 32 ++ totals l
  (body ++ List.replicate 640 0).take 640

/-- R569: the open interval closes with a signed summary. The signature is a free value: the key is the tollhouse's own. -/
def State.closeSummary (s : State) : State :=
  let T := s.toll
  if T.seq < T.sumFirst then s
  else
    let g := s.freeBytes 384
    let r : TollRec := { seq := T.seq, bytes := T.summary T.sumFirst T.seq ++ g.2 }
    g.1.updToll fun T =>
      { T with sumFirst := T.seq + 1, summaryMin := T.newMin.getD T.summaryMin, newMin := none
               sums := if T.memFault then T.sums else (r :: T.sums).take 5760, sramSum := if T.memFault then (r :: T.sramSum).take 5760 else T.sramSum }

/-- TOLL_SUMMARY (R569). -/
def execTollSummary (s : State) : Out := .next (if tollOn s then s.closeSummary else s)

/-- TOLL_SECOND's effect: a millisecond still open has had no frame; the first second of a power cycle closes the interval
that the power loss cut short. -/
def tollSecond (memOk : Bool) (s : State) : State :=
  let s1 := if s.toll.msOpen then s.updToll Toll.gap else s
  let s2 := if s1.toll.alive = 0 then s1.closeSummary else s1
  let s3 := if memOk then s2 else s2.updToll fun T => T.flag 4
  let g := s3.freeBytes 32
  g.1.updToll fun T => { (T.write (T.record (T.chain g.2)) memOk).nextSecond with lastAt := s.tb }

/-- TOLL_SECOND (R568). -/
def execTollSecond (memOk : Bool) (s : State) : Out := .next (if tollOn s then tollSecond memOk s else s)

/-! ### The audit log (R579) -/

/-- An entry: kind, result, `SEQ`, `SEAL`, and the previous entry's hash (log 73). -/
def Toll.auditEntry (T : Toll) (kind code : Nat) : List Byte :=
  leBytes 1 kind ++ leBytes 1 code ++ leBytes 2 0 ++ leBytes 8 T.seq ++ leBytes 4 T.sealCnt ++ List.replicate 16 0 ++
  (match T.audit with
   | e :: _ => sha256 e
   | [] => List.replicate 32 0)

/-- R579: an entry is written; the last 256 places are kept for accepted changes, and what finds no place is counted. -/
def Toll.addAudit (T : Toll) (kind code : Nat) (accepted : Bool) : Toll :=
  if T.audit.length < (if accepted then 4096 else 3840) then
    { T with audit := T.auditEntry kind code :: T.audit, auditAcc := T.auditAcc + b2n accepted }
  else { T with auditOver := T.auditOver + 1 }

/-- TOLL_CAL_EN_CHANGE (R579). -/
def execTollCalEnChange (level : Bool) (s : State) : Out :=
  .next (if s.pins.calEn = level then s
    else
      let s1 := { s with pins := { s.pins with calEn := level } }
      if tollOn s then s1.updToll fun T => T.addAudit (if level then 1 else 2) 0 false else s1)

/-! ### Mailboxes (R572 to R576) -/

/-- The request window of mailbox `m`. -/
def mbReq (s : State) (m : Nat) : List Byte := bytesOf ((List.range 64).map fun i => s.reg (mbReg m (0x100 + 4 * i)))

/-- R576: `GO`; while a request runs it is ignored with `BUSY`. -/
def mbGo (m : Nat) (s : State) : State :=
  if s.fld (mbReg m 0x044) 0 2 = 1 then s.setFld (mbReg m 0x044) 8 8 6
  else (s.setFld (mbReg m 0x044) 0 2 1).updToll fun T => { T with queue := T.queue ++ [m] }

/-- R572: the next mailbox in turn. -/
def mbTurn (T : Toll) : Option Nat := ((List.range 17).map fun i => (T.lastBox + 1 + i) % 17).find? T.queue.contains

/-- R572, R573: the tollhouse takes the request of mailbox `m`, whose opcode is one of `ops`. -/
def mbTaken (s : State) (m : Nat) (ops : Nat → Bool) : Bool :=
  tollOn s && s.toll.resp.isNone && mbTurn s.toll == some m && ops (leAt (mbReq s m) 0 1)

/-- The response is ready. -/
def State.mbAnswer (s : State) (m code : Nat) (body : List Byte) : State :=
  s.updToll fun T => { T with resp := some (m, BitVec.ofNat 8 code, body), lastBox := m, queue := T.queue.erase m }

/-- R572: what mailbox `m` may see of a record: all of it, or its own partition's entry. -/
def filterRecord (m : Nat) (b : List Byte) : List Byte :=
  if m = 0 then b
  else
    (List.range b.length).map fun i =>
      if 32 ≤ i ∧ i < 384 ∧ !(decide (32 + 16 * (m - 1) ≤ i) && decide (i < 48 + 16 * (m - 1))) then 0 else nth 0 b i

/-- The same of the totals in a summary or report, which start at `at_`. -/
def filterTotals (m at_ : Nat) (b : List Byte) : List Byte :=
  if m = 0 then b
  else
    (List.range b.length).map fun i =>
      if at_ ≤ i ∧ i < at_ + 400 ∧ !(decide (at_ + 24 * (m - 1) ≤ i) && decide (i < at_ + 24 * m)) then 0 else nth 0 b i

/-- R433, R573: the tollhouse's certificate chain, whose bytes no rule gives (log 5). -/
def tollCert : List Byte := (List.range (Config.openFn 9 [] % 2048)).map fun i => BitVec.ofNat 8 (Config.openFn 9 [i + 1])

/-- IDENTIFY (R573, R580). -/
def execIdentify (m : Fin 17) (s : State) : Out :=
  .next (if mbTaken s m.val (· == 1) then s.mbAnswer m.val 0 (s.toll.software ++ leBytes 4 s.toll.sealCnt ++ tollCert) else s)

/-- STATUS (R573, R579). -/
def execStatus (m : Fin 17) (s : State) : Out :=
  let T := s.toll
  let flags := match T.find T.seq with | some r => leAt r.bytes 16 4 | none => 0
  .next (if mbTaken s m.val (· == 2) then
    s.mbAnswer m.val 0 (leBytes 8 T.seq ++ leBytes 4 flags ++ leBytes 4 T.summaryMin ++ leBytes 4 T.audit.length ++ leBytes 4 T.auditOver)
  else s)

/-- READ_RECORD (R573). -/
def execReadRecord (m : Fin 17) (s : State) : Out :=
  .next (if mbTaken s m.val (· == 3) then
    (match s.toll.find (leAt (mbReq s m.val) 8 8) with
     | some r => s.mbAnswer m.val 0 (filterRecord m.val r.bytes)
     | none => s.mbAnswer m.val 2 [])
  else s)

/-- READ_SUMMARY (R573). -/
def execReadSummary (m : Fin 17) (s : State) : Out :=
  .next (if mbTaken s m.val (· == 4) then
    (match (s.toll.sramSum ++ s.toll.sums).find? fun r => r.seq == leAt (mbReq s m.val) 8 8 with
     | some r => s.mbAnswer m.val 0 (filterTotals m.val 96 r.bytes)
     | none => s.mbAnswer m.val 2 [])
  else s)

/-- R574: the range lies within one power cycle, holds 1 to 3,600 records, and all of them are held. -/
def rangeOk (T : Toll) (a b : Nat) : Bool :=
  decide (a ≤ b) && decide (b - a < 3600) &&
  ((List.range (b + 1 - a)).all fun i =>
    match T.find (a + i), T.find a with
    | some r, some q => leAt r.bytes 8 4 == leAt q.bytes 8 4
    | _, _ => false)

/-- R574: the report over a range, up to the signature. -/
def Toll.report (T : Toll) (req : List Byte) : List Byte :=
  let a := leAt req 8 8
  let b := leAt req 16 8
  let l := T.range a b
  leBytes 8 a ++ leBytes 8 b ++ totals l ++ leBytes 4 (orFlags l) ++ sha256 (l.flatMap (·.bytes)) ++ slice req 24 40 ++ T.software ++ leBytes 4 T.sealCnt

/-- SIGN_RANGE (R574): the signature is a free value. -/
def execSignRange (m : Fin 17) (s : State) : Out :=
  let req := mbReq s m.val
  .next (if mbTaken s m.val (· == 5) then
    (if rangeOk s.toll (leAt req 8 8) (leAt req 16 8) then
      (let g := s.freeBytes 384
       g.1.mbAnswer m.val 0 (filterTotals m.val 16 (s.toll.report req) ++ g.2))
     else s.mbAnswer m.val 3 [])
  else s)

/-- READ_AUDIT (R573): entry 0 is the oldest. -/
def execReadAudit (m : Fin 17) (s : State) : Out :=
  .next (if mbTaken s m.val (· == 6) then
    (match s.toll.audit.reverse[leAt (mbReq s m.val) 8 4]? with
     | some e => s.mbAnswer m.val 0 e
     | none => s.mbAnswer m.val 2 [])
  else s)

/-- MB_BAD_OPCODE (R573). -/
def execMbBadOpcode (m : Fin 17) (s : State) : Out :=
  .next (if mbTaken s m.val (fun o => o == 0 || decide (7 < o)) then s.mbAnswer m.val 1 [] else s)

/-! ### Calibration (R577, R578) -/

/-- R578: the message: key hash, `SEAL` + 1, `SUMMARY_MIN`, constants, and at its end modulus, exponent and signature over what
precedes the signature (log 73). -/
def calMessageOk (T : Toll) (l : List Byte) : Bool :=
  let n := l.length
  decide (37 + 772 ≤ n) && decide (T.sealCnt < 256) && l.take 32 == (T.keyHash ++ List.replicate 32 0).take 32 && leAt l 32 4 == T.sealCnt + 1 &&
  decide (1 ≤ leAt l 36 1) && decide (leAt l 36 1 ≤ 60) &&
  T.authHash.contains (sha256 (slice l (n - 772) 388)) &&
  rsaOk (slice l (n - 772) 384) (leAt l (n - 388) 4) (l.take (n - 384)) (slice l (n - 384) 384)

/-- CALIBRATE (R578). -/
def execCalibrate (m : Fin 17) (message : List Byte) (pinHeld : Bool) (s : State) : Out :=
  .next (if mbTaken s m.val (· == 7) then
    (if !s.pins.calEn || !pinHeld then (s.updToll fun T => T.addAudit 3 4 false).mbAnswer m.val 4 []
     else if !calMessageOk s.toll message then (s.updToll fun T => T.addAudit 3 5 false).mbAnswer m.val 5 []
     else
       (s.updToll fun T => { T with sealCnt := T.sealCnt + 1, newCal := some (message.drop 36), newMin := some (leAt message 36 1) }.addAudit 3 0 true).mbAnswer
         m.val 0 [])
  else s)

/-- TOLL_MB_DONE's effect: the response is in the window. -/
def mbDone (m : Nat) (code : Byte) (body : List Byte) (s : State) : State :=
  let s1 := s.updToll fun T => { T with resp := none }
  let s2 := (wordsOf body ((body.length + 3) / 4)).zipIdx.foldl (fun s w => s.setReg (mbReg m (0x400 + 4 * w.2)) w.1) s1
  ((s2.setReg (mbReg m 0x044) (BitVec.ofNat 32 (2 + code.toNat * 256 + body.length % 4096 * 65536))).irq (mbReg m 0) 0).send (.tollResp m)

/-- TOLL_MB_DONE (R576). -/
def execTollMbDone (m : Fin 17) (s : State) : Out :=
  .next (match s.toll.resp with
    | some (k, code, body) => if pkgUp s && k == m.val then mbDone k code body s else s
    | none => s)

/-! ### Power (R559, R570) -/

/-- R559, R568, R577: metering starts with the power cycle. -/
def Toll.start (T : Toll) : Toll :=
  { T with on := true, cycle := T.cycle + 1, second := 0, alive := 0, flags := if T.calOk then 1 else 9 }

/-- R570: what power loss leaves: SPI and one-time-programmable memory. A new set that was written applies at power-up. -/
def Toll.powerLoss (T : Toll) : Toll :=
  { ({} : Toll) with
    ring := T.ring, sums := T.sums, seq := T.ring.foldl (fun a r => max a r.seq) 0, cycle := T.cycle, sealCnt := T.sealCnt
    cal := T.newCal.getD T.cal, calOk := T.calOk || T.newCal.isSome, summaryMin := T.newMin.getD T.summaryMin
    sumFirst := T.sumFirst, audit := T.audit, auditAcc := T.auditAcc, auditOver := T.auditOver
    keyHash := T.keyHash, authHash := T.authHash, version := T.version, checksum := T.checksum }

end Sys2Proof.Machine
end

