-- ==== Sys2Proof/Machine/Pins.lean ====
section
/-!
DEFINITION. Pins.lean: power, reset pins and the reference clock (R18 to R31, R559).
-/
namespace Sys2Proof.Machine

/-- PWR_GOOD_RISE (R559, R31): the tollhouse starts; a boot starts if PERST_N has been released already. -/
def execPwrGoodRise (s : State) : Out :=
  .next (if s.pins.pwrGood then s
    else
      let s1 := { s with pins := { s.pins with pwrGood := true }, toll := s.toll.start }
      if s.pins.perst then s1 else { s1 with pins := { s1.pins with released := false } }.startBoot false)

/-- R31, R570: what power loss leaves. -/
def powerLoss (s : State) : State :=
  { ({} : State) with
    freeCtr := s.freeCtr, reply := s.reply, fuses := s.fuses, store := s.store, wire := s.wire, pending := s.pending
    pins := { perst := s.pins.perst, xngClk := s.pins.xngClk, calEn := s.pins.calEn, bootMode := s.pins.bootMode, released := !s.pins.perst }
    toll := s.toll.powerLoss
    boot := { number := s.boot.number, logNext := s.boot.logNext } }

/-- PWR_GOOD_FALL (R31): every unit resets at once; THERMTRIP_N is released (R22). -/
def execPwrGoodFall (s : State) : Out := .next (if s.pins.pwrGood then powerLoss s else s)

/-- PERST_N_ASSERT (R31): a cold reset without draining; once the clocks are stopped by a trip nothing acts on it. -/
def execPerstNAssert (s : State) : Out :=
  .next (
    let s1 := { s with pins := { s.pins with perst := true, released := false } }
    if s.pins.pwrGood && !s.pins.perst && !s.clocksOff then s1.clearPkg true else s1)

/-- PERST_N_RELEASE (R21, R31, R458): BOOT_MODE is sampled, and a cold boot starts once there is power. -/
def execPerstNRelease (mode : BitVec 2) (s : State) : Out :=
  .next (if !s.pins.perst then s
    else
      let s1 := { s with pins := { s.pins with perst := false, bootMode := mode, sysLost := false, released := !s.pins.pwrGood } }
      if s.pins.pwrGood && !s.clocksOff then s1.startBoot false else s1)

/-- REFCLK_SYS_ABSENT (R27): arrays halt, every domain but TOLL is held, ALERT_N is asserted. -/
def execRefclkSysAbsent (s : State) : Out :=
  .next (if pkgUp s then
    (let s1 := (List.range 16).foldl (fun s st => s.updStk st fun T => { T with halt := true }) (s.alert 9)
     { s1 with pins := { s1.pins with sysLost := true } })
  else s)

end Sys2Proof.Machine
end

