-- ==== Sys2Proof/Machine/Window.lean ====
section
/-!
DEFINITION. Window.lean: the noria window of a partition page (R356, R358).
-/
namespace Sys2Proof.Machine

/-- R356: a push of the noria window. -/
def nwinPush (n : Nat) (s : State) : State :=
  let P := s.part n
  if 32 ≤ P.winQ.length then s.setBit (partReg n 0x04C) 6
  else s.setPart n { P with winQ := P.winQ ++ [{ seq := P.winSeq, desc := windowDesc P.window, job := none }], winSeq := P.winSeq + 1 }

/-- NWIN_PUSH (R356). -/
def execNwinPush (r : Req) (n : Fin 16) (s : State) : Out := .next (s.access r (partReg n.val 0x048) (nwinPush n.val))

/-- R358: `NWIN_CPL`. -/
def winCplWord (r : WinRec) : Nat := r.tag.toNat + r.status.toNat * 2 ^ 16 + b2n r.rejected * 2 ^ 24 + 2 ^ 31

/-- R356: records held by a full FIFO are written as room comes. -/
def State.unholdWin (s : State) (n : Nat) : State :=
  let rs := (s.part n).winHeld
  rs.foldl (fun s r => s.winRecord n r) (s.updPart n fun P => { P with winHeld := [] })

/-- R356, R358: a read of `NWIN_CPL` pops a record. -/
def popWin (n : Nat) (s : State) : State :=
  match (s.part n).winCpl with
  | [] => s.answer (leBytes 4 0)
  | r :: rest => ((s.updPart n fun P => { P with winCpl := rest }).unholdWin n).answer (leBytes 4 (winCplWord r))

/-- NWIN_CPL_POP (R358). -/
def execNwinCplPop (r : Req) (n : Fin 16) (s : State) : Out := .next (s.readAccess r (partReg n.val 0x050) (popWin n.val))

end Sys2Proof.Machine
end

