-- ==== Sys2Proof/Machine/RegRead.lean ====
section
/-!
DEFINITION. RegRead.lean: what a register reads: the stored word of the field tables, with the fields that follow the state of
units laid over it; the register pairs of R8; the effects of a read (R10, R144, R270, R523).
-/
namespace Sys2Proof.Machine

/-- A word with fields (lowest bit, width, value) laid over it. -/
def lay (w : Nat) (fs : List (Nat × Nat × Nat)) : Nat := fs.foldl (fun a f => putBits a f.1 f.2.1 f.2.2) w

/-- R500, R502: the code of a function state. -/
def fCode : FState → Nat
  | .running => 0
  | .stopping => 1
  | .stopped => 2

/-! ### The header (R615 to R618) -/

/-- R501, R502: the state of the function that `HDR_CTRL` of a page controls. -/
def pageFState (s : State) (die ty inst : Nat) : Option FState :=
  match ty with
  | 0x003 => some (s.chan (128 * die + inst)).state
  | 0x01F => some (s.xng inst).fstate
  | 0x020 => some (s.chan (2048 + inst)).state
  | 0x021 => some (s.med inst).fstate
  | 0x022 => some (s.ep inst).fstate
  | _ => none

/-- R618: the partition that owns the unit of a page. -/
def pageOwner (s : State) (die ty inst : Nat) : Option Nat :=
  if die < 16 ∧ ty ≠ 0x00F then partOf s die
  else match ty with
    | 0x020 => brgOwner s inst
    | 0x021 => medOwner s inst
    | 0x022 => epOwner s inst
    | 0x023 => some inst
    | 0x024 => some inst
    | 0x025 => some inst
    | 0x01D => if inst = 0 then none else some (inst - 1)
    | _ => none

/-- R615: the header of a page, at offset `off` below 0x040; `w` the stored word. -/
def hdrWord (s : State) (a ty inst w : Nat) : Nat :=
  let die := addrDie a
  match addrOff a with
  | 0x000 => (tget 0 s.fuses.rev (min die 16)).toNat + inst * 256 + ty * 2 ^ 20
  | 0x008 => typeDomain ty + b2n (typeFn ty) * 16 + b2n (typeVf ty inst) * 32 + typeLock ty inst * 64
  | 0x00C => (match pageFState s die ty inst with
      | some f => lay w [(0, 1, b2n (f == .running)), (1, 2, fCode f)]
      | none => 0)
  | 0x010 =>
    let p := a / 4096 * 4096
    let irq := Nat.land (s.reg (p + 0x014)).toNat (s.reg (p + 0x018)).toNat != 0
    (match pageOwner s die ty inst with | some n => n + 16 | none => 0) + b2n irq * 32
  | _ => w

/-! ### Plot pages -/

/-- R69. -/
def shadowCode : Shadow → Nat
  | .free => 0
  | .loading => 1
  | .loaded => 2
  | .swapping => 3

/-- R69, R93: the array page. -/
def arrWord (s : State) (k off w : Nat) : Nat :=
  let A := s.arr k
  match off with
  | 0x044 => lay w [(0, 2, shadowCode A.shadow), (2, 1, b2n A.transit.isSome), (3, 4, A.groupsOn), (7, 1, b2n A.halted),
      (8, 8, (A.vecs.filter fun v => !v.drain).length), (17, 1, b2n A.active.nan)]
  | 0x048 => A.rng.toNat % 2 ^ 32
  | 0x04C => A.rng.toNat / 2 ^ 32
  | _ => w

/-- R128, R303: the noria queue head waits for the dispatch permit of its stack. -/
def norWaitsPermit (s : State) (k : Nat) : Bool := norHalted s (k / 32) && !(s.queue k 3).entries.isEmpty && !(s.queue k 3).held

/-- R143 to R150: the queue page. -/
def pqWord (s : State) (k off w : Nat) : Nat :=
  let P := s.plot k
  if 0x048 ≤ off ∧ off < 0x058 then
    let q := (off - 0x048) / 4
    let Q := P.queue q
    lay 0 [(0, 6, qSize q - Q.entries.length), (6, 1, b2n Q.held), (7, 1, b2n (queueEmpty s k q)), (8, 8, Q.heldStatus.toNat), (16, 2, fCode Q.state)]
  else match off with
    | 0x05C => (match P.cpl with | r :: _ => r.time.toNat | [] => 0)
    | 0x060 => P.cpl.length
    | 0x06C => lay w [(0, 12, pauseLen s k), (12, 1, b2n (timedMode s (k / 32))), (13, 1, b2n (waitsPermit s k (s.arr k).now)),
        (14, 1, b2n (norWaitsPermit s k)), (15, 1, b2n (nbit w 15 || stackHalted s (k / 32) || stopOn s))]
    | 0x074 => P.vrng.toNat % 2 ^ 32
    | 0x078 => P.vrng.toNat / 2 ^ 32
    | _ => w

/-- R169. -/
def phaseCode : BPhase → Nat
  | .idle => 0
  | .waitSync => 1
  | .waitGo => 2
  | .moving => 3

/-- R169: the place of the next element to issue, 0 after the last. -/
def chanPos (C : Chan) : Nat × Nat × Nat :=
  match C.desc with
  | some d => if C.pos < bElems d then bIndex d C.pos else (0, 0, 0)
  | none => (0, 0, 0)

/-- R169: a barge channel page. -/
def brgWord (s : State) (c off w : Nat) : Nat :=
  let C := s.chan c
  match off with
  | 0x044 => lay w [(0, 2, phaseCode C.phase), (2, 8, C.goPend)]
  | 0x048 => (chanPos C).1 + (chanPos C).2.1 * 65536
  | 0x04C => (chanPos C).2.2
  | _ => w

/-- R589, R625: what a virtual function sees of a shared set: `COLL_CNT_BYTES` of its endpoints, its own channels. -/
def cntShown (s : State) (r : Req) (k i : Nat) : Bool :=
  match r with
  | .vf _ | .core _ _ _ =>
    if k = 592 then decide (196 ≤ i) && decide (i < 228) && epOwner s (i - 196) == reqPart s r
    else if k = 593 then decide (i < 160) && brgOwner s (i / 5) == reqPart s r
    else true
  | _ => true

/-- R590: a counter page. -/
def cntWord (s : State) (r : Req) (k off w : Nat) : Nat :=
  let c := s.cnt k
  match off with
  | 0x044 => lay w [(0, 16, c.seq.toNat), (16, 1, b2n c.boundary)]
  | 0x048 => c.heldTag.toNat + c.liveTag.toNat * 65536
  | 0x04C => c.time % 2 ^ 32
  | 0x050 => nbits c.time 32 32
  | _ =>
    if off < 0x100 then w
    else
      let i := (off - 0x100) / 16
      if cntShown s r k i then
        (match off % 16 / 4 with
         | 0 => tget 0 c.held i % 2 ^ 32
         | 1 => nbits (tget 0 c.held i) 32 32
         | 2 => tget 0 c.live i % 2 ^ 32
         | _ => nbits (tget 0 c.live i) 32 32)
      else 0

/-! ### Memory and hub pages -/

/-- R235, R266: the slice controller page. -/
def slcWord (s : State) (k off w : Nat) : Nat :=
  let S := s.slc k
  match off with
  | 0x040 => (match partOf s (k / 32) with | some n => lay 0 [(0, 4, cfgS s n), (4, 4, cfgH s n)] | none => 0)
  | 0x044 => lay 0 [(0, 1, b2n S.fill.isSome), (1, 1, b2n (bandHeld s (k / 32))), (2, 7, S.held.length)]
  | 0x054 => lay w [(23, 1, b2n (patrolBehind s k))]
  | 0x06C => lay w [(6, 7, sparesLeft s k (s.fld (slcReg k 0x068) 0 5))]
  | _ => w

/-- R307: the noria page. -/
def norWord (s : State) (k off w : Nat) : Nat :=
  match off with
  | 0x040 => (s.nor k).queue.length
  | 0x044 => ((s.nor k).stepping ||| (s.nor k).permits).toNat
  | _ => w

/-- R521: plots of reach `q` in reset. -/
def resetBusy (s : State) (st q : Nat) : Nat :=
  (List.range 8).foldl (fun a p => a + b2n (quiesced s (32 * st + 8 * q + p)) * 2 ^ p) 0

/-- R267: the stack memory page. -/
def smWord (s : State) (st off w : Nat) : Nat :=
  match off with
  | 0x040 => lay w [(3, 1, b2n (bandHeld s st))]
  | 0x104 => msNow s % 2 ^ 32
  | 0x10C => min 65535 (msNow s / 2 ^ 32)
  | _ => w

/-- R554, R555: a sensor register. -/
def sensWord (x : Sensor) : Nat :=
  lay 0 [(0, 16, wrapInt 16 x.mean), (16, 1, b2n x.ok), (17, 2, x.cause), (19, 1, b2n x.calFail), (20, 1, b2n x.calibrating)]

/-- R554: the governor page. -/
def govWord (s : State) (st off w : Nat) : Nat :=
  if 0x080 ≤ off ∧ off < 0x0B4 then sensWord (s.sensor (sensKey st ((off - 0x080) / 4)))
  else match off with
    | 0x040 => lay w [(8, 8, effCap s st)]
    | 0x048 => lay w [(0, 4, govLevel s st), (7, 1, b2n (timedMode s st)), (8, 1, b2n (stackHalted s st)), (9, 2, coolCode (s.stk st).cool)]
    | _ => w

/-- R418: the stack is the first of its partition's arc. -/
def firstOfArc (s : State) (st : Nat) : Bool :=
  match partOf s st with
  | some n => (arcOf s n).head? == some st
  | none => false

/-! ### I/O die pages -/

/-- R624: the identification page of a die. -/
def identWord (s : State) (die off w : Nat) : Nat :=
  match off with
  | 0x040 => if die = 16 then 2 else 1
  | 0x044 => (tget 0 s.fuses.rev die).toNat
  | 0x048 => (tget 0 s.fuses.serial die).toNat % 2 ^ 32
  | 0x04C => (tget 0 s.fuses.serial die).toNat / 2 ^ 32
  | 0x050 => (tget 0 s.fuses.feature die).toNat % 2 ^ 32
  | 0x054 => (tget 0 s.fuses.feature die).toNat / 2 ^ 32
  | _ => w

/-- R4, R32, R623: the package page. -/
def pkgWord (s : State) (off w : Nat) : Nat :=
  match off with
  | 0x040 => lay 0 [(0, 5, s.fuses.stackEn.length), (5, 1, b2n s.fuses.gradeE),
      (16, 16, (List.range 16).foldl (fun a n => a + b2n (activeStack s n) * 2 ^ n) 0)]
  | 0x044 => lay w [(0, 2, s.pins.bootMode.toNat), (4, 1, b2n s.pins.xngClk)]
  | _ => w

/-- R523: the fault page. -/
def fltWord (s : State) (off w : Nat) : Nat :=
  match off with
  | 0x044 => lay w [(0, 5, s.faults.props.length)]
  | 0x04C => (match s.faults.props with | d :: _ => (nth 0 d 1).toNat | [] => 0)
  | 0x050 => (match s.faults.props with | d :: _ => (nth 0 d 2).toNat | [] => 0)
  | 0x054 => (match s.faults.props with | d :: _ => (nth 0 d 3).toNat | [] => 0)
  | 0x05C => lay 0 [(0, 6, s.faults.tests.length), (6, 5, s.faults.running.length)]
  | _ => w

/-- R555: the I/O die thermal page. -/
def thmWord (s : State) (off w : Nat) : Nat :=
  if 0x080 ≤ off ∧ off < 0x0A0 then sensWord (s.sensor (sensKey 16 ((off - 0x080) / 4))) % 2 ^ 17 else w

/-- R456: the security page. -/
def secWord (s : State) (off w : Nat) : Nat :=
  if 0x0A0 ≤ off ∧ off < 0x0C0 then (nth 0 s.fuses.devidHash ((off - 0x0A0) / 4)).toNat
  else match off with
    | 0x040 => lay w [(0, 4, (List.range 4).foldl (fun a i => a + b2n ((nth [] s.fuses.keyHash i).any (· != 0)) * 2 ^ i) 0),
        (4, 4, s.fuses.revoked.toNat)]
    | 0x044 => lay w [(0, 7, s.fuses.svn)]
    | _ => w

/-- R360: `RING_STAT` of a ring. -/
def ringStat (s : State) (g w : Nat) : Nat :=
  let R := s.ring g
  lay w [(0, 2, fCode R.state), (2, 12, R.head), (14, 12, R.cqTail), (26, 1, b2n (!cqRoom s g))]

/-- R360: the ring part of the landing page and of a partition page. -/
def ringWord (s : State) (f off w : Nat) : Nat :=
  if 0x100 ≤ off ∧ off < 0x200 ∧ off % 64 = 0x18 then ringStat s (4 * f + (off - 0x100) / 64) w else w

/-- R328, R356, R358: a partition page. -/
def partWord (s : State) (n off w : Nat) : Nat :=
  let P := s.part n
  match off with
  | 0x040 => lay 0 [(0, 3, pstateCode P.state), (3, 4, P.first), (7, 3, P.sizeLog2), (10, 10, failedPlots s n)]
  | 0x04C => lay w [(0, 6, 32 - P.winQ.length)]
  | _ => ringWord s (n + 1) off w

/-- R236: `COMMONS_LOCATE_OUT` as VALID and offset, and as slice, stack, plot, kind and remapped. -/
def locateOut (s : State) (n : Nat) : Nat × Nat :=
  let o := (s.reg (comReg n 0x048)).toNat + s.fld (comReg n 0x04C) 0 8 * 2 ^ 32
  match commonsPlace s n o with
  | none => (0, 7 * 2 ^ 18)
  | some p =>
    (lay 0 [(0, 31, p.off), (31, 1, 1)],
     lay 0 [(0, 9, p.slice), (9, 4, sliceKey s n p.slice / 32), (13, 5, sliceKey s n p.slice % 32), (18, 3, p.kind),
       (21, 1, b2n ((remapTo (pairsOf (s.part n).remap.cur) (o / 256)).isSome && p.kind == 0))])

/-- R236: the commons page. -/
def comWord (s : State) (n off w : Nat) : Nat :=
  match off with
  | 0x040 => lay w [(20, 4, if (s.part n).assigned then ilog2 (commonsN s n) else 0)]
  | 0x044 => commonsN s n * cfgS s n
  | 0x050 => (locateOut s n).1
  | 0x054 => (locateOut s n).2
  | _ => w

/-- R365: the code of a crossing's state. -/
def xCode : XState → Nat
  | .disabled => 0
  | .detect => 1
  | .equalise => 2
  | .align => 3
  | .peer => 4
  | .auth => 5
  | .active => 6
  | .retrain => 7
  | .down => 8

/-- R401: a crossing page. -/
def xngWord (s : State) (n off w : Nat) : Nat :=
  let X := s.xng n
  match off with
  | 0x044 => lay w [(0, 4, xCode X.state), (4, 2, X.cfg.gen), (7, 1, b2n X.cfg.half)]
  | _ => w

/-- R403. -/
def gCode : GState → Nat
  | .free => 0
  | .forming => 1
  | .active => 2
  | .severed => 3

/-- R403: the registers of a group slot; while a group is being formed, those of that group. -/
def grpWord (s : State) (g i w : Nat) : Nat :=
  let G := s.grp g
  match G.form with
  | some F => (match i with
      | 0 => lay w [(0, 3, 1), (4, 12, F.rank), (16, 12, F.members.length - 1)]
      | 1 => F.epoch.toNat
      | 2 => F.gid.toNat
      | _ => 0)
  | none => (match i with
      | 0 => lay w [(0, 3, gCode G.state), (4, 12, G.rank), (16, 12, G.members.length - 1)]
      | 1 => G.epoch.toNat
      | 2 => G.gid.toNat
      | _ => G.seq.toNat)

/-- R403: the collective engine page. -/
def colWord (s : State) (off w : Nat) : Nat :=
  if 0x100 ≤ off ∧ off < 0x200 then grpWord s ((off - 0x100) / 16) (off % 16 / 4) w else w

/-- R270: an error report page. -/
def errWord (s : State) (f off w : Nat) : Nat :=
  match off with
  | 0x044 => (s.errf f).w1.toNat
  | 0x048 => (s.errf f).w2.toNat
  | 0x04C => (s.errf f).w3.toNat
  | 0x050 => lay w [(0, 7, (s.errf f).recs.length)]
  | _ => w

/-- R428: a media channel page. -/
def medWord (s : State) (n off w : Nat) : Nat :=
  let M := s.med n
  match off with
  | 0x048 => lay 0 [(0, 3, M.queue.length), (3, 1, b2n M.context)]
  | 0x050 => (match M.cpl with | (_, f) :: _ => min f 65535 | [] => 0)
  | _ => w

/-- R600, R608: the debug page. -/
def dbgWord (s : State) (off w : Nat) : Nat := if 0x800 ≤ off then leAt s.dbg.window (off - 0x800) 4 else w

/-- R576: a mailbox page. -/
def mbWord (s : State) (off w : Nat) : Nat :=
  match off with
  | 0x048 => s.toll.seq % 2 ^ 32
  | 0x04C => nbits s.toll.seq 32 32
  | 0x050 => lay 0 [(0, 1, b2n (s.toll.alive != 0 && decide (s.tb - s.toll.lastAt ≤ 200000000))), (1, 1, b2n s.toll.memFault)]
  | _ => w

/-! ### Any register -/

/-- The bits of a register that software reads: those of fields that are not write-only. -/
def readMask (fs : List RField) (off : Nat) : Nat :=
  fs.foldl (fun m f => if f.covers off && f.acc != .wo then putBits m f.lsb f.w (2 ^ f.w - 1) else m) 0

/-- The fields of a page at an offset. -/
def fieldsAt (ty off : Nat) : List RField := if off < 0x40 ∧ off ≠ 0x00C then hdrFields else fieldsOf ty

/-- What the block of a page makes of the stored word `w`. -/
def blockWord (s : State) (r : Req) (a ty inst w : Nat) : Nat :=
  let die := addrDie a
  let off := addrOff a
  let k := 32 * die + inst
  match ty with
  | 0x001 => arrWord s k off w
  | 0x002 => pqWord s k off w
  | 0x003 => brgWord s (128 * die + inst) off w
  | 0x004 => cntWord s r k off w
  | 0x005 => slcWord s k off w
  | 0x006 => norWord s k off w
  | 0x007 => if off = 0x048 then lay w [(0, 8, resetBusy s die inst)] else w
  | 0x008 => cntWord s r (512 + 4 * die + inst) off w
  | 0x00A => cntWord s r (576 + die) off w
  | 0x00B => smWord s die off w
  | 0x00C => govWord s die off w
  | 0x00D => if off = 0x05C ∧ !firstOfArc s die then 0 else w
  | 0x00F => identWord s die off w
  | 0x010 => pkgWord s off w
  | 0x012 => fltWord s off w
  | 0x013 => thmWord s off w
  | 0x014 => secWord s off w
  | 0x015 => ringWord s 0 off w
  | 0x016 => dbgWord s off w
  | 0x019 => colWord s off w
  | 0x01A => cntWord s r 592 off w
  | 0x01B => cntWord s r 593 off w
  | 0x01C => cntWord s r 594 off w
  | 0x01D => errWord s inst off w
  | 0x01F => xngWord s inst off w
  | 0x020 => brgWord s (2048 + inst) off w
  | 0x021 => medWord s inst off w
  | 0x023 => partWord s inst off w
  | 0x024 => comWord s inst off w
  | 0x026 => mbWord s off w
  | _ => w

/-- The live value of the register at `a`, as requester `r` sees it; 0 at a reserved offset (R9). -/
def liveWord (s : State) (r : Req) (a : Nat) : Nat :=
  match pageType (addrDie a) (addrPage a) with
  | none => 0
  | some (ty, inst) =>
    let w := (s.reg a).toNat
    let v := if addrOff a < 0x40 then hdrWord s a ty inst w else blockWord s r a ty inst w
    Nat.land v (readMask (fieldsAt ty (addrOff a)) (addrOff a))

/-- R8: the offsets that a read of the `_LO` register at `off` of a page of type `ty` captures. -/
def pairHis (ty off : Nat) : List Nat :=
  if off = 0x024 then [0x028]
  else if off < 0x040 then []
  else match ty with
    | 0x001 => if off = 0x048 then [0x04C] else []
    | 0x002 => if off = 0x074 then [0x078] else []
    | 0x003 => if off = 0x048 then [0x04C] else []
    | 0x020 => if off = 0x048 then [0x04C] else []
    | 0x006 => if 0x080 ≤ off ∧ off < 0x180 ∧ off % 8 = 0 then [off + 4, 0x180 + (off - 0x080) / 2] else []
    | 0x007 => if 0x080 ≤ off ∧ off < 0x100 ∧ off % 16 = 0 then [off + 4] else []
    | 0x00D => if off = 0x048 ∨ off = 0x050 then [off + 4] else []
    | 0x00F => if off = 0x048 ∨ off = 0x050 then [off + 4] else []
    | 0x010 => if off = 0x048 ∨ off = 0x050 then [off + 4] else []
    | 0x014 => if off = 0x04C then [0x050] else []
    | 0x015 => if 0x100 ≤ off ∧ off < 0x200 ∧ (off % 64 = 0 ∨ off % 64 = 8) then [off + 4] else []
    | 0x023 => if 0x100 ≤ off ∧ off < 0x200 ∧ (off % 64 = 0 ∨ off % 64 = 8) then [off + 4] else []
    | 0x024 => if off = 0x048 ∨ off = 0x050 then [off + 4] else []
    | 0x026 => if off = 0x048 then [0x04C] else []
    | 0x027 => if off = 0x04C then [0x050] else []
    | _ =>
      if ty ∈ [0x004, 0x008, 0x00A, 0x01A, 0x01B, 0x01C] then
        (if off = 0x04C ∨ (0x100 ≤ off ∧ off % 8 = 0) then [off + 4] else [])
      else []

/-- R10: clear the RC fields of a register. -/
def State.clearRc (s : State) (a : Nat) (fs : List RField) : State :=
  (fs.filter fun f => f.covers (addrOff a) && f.acc == .rc).foldl (fun s f => s.setFld a f.lsb f.w 0) s

/-- The reads that pop a record (R144, R168, R270, R356, R428, R523). -/
def popAt (s : State) (a ty inst : Nat) : Option State :=
  match ty, addrOff a with
  | 0x002, 0x058 => some (popCpl (32 * addrDie a + inst) s)
  | 0x020, 0x060 => some (popBrg inst s)
  | 0x021, 0x04C => some (popMedia inst s)
  | 0x023, 0x050 => some (popWin inst s)
  | 0x01D, 0x040 => some (popRpt inst s)
  | 0x012, 0x048 => some (popProp s)
  | _, _ => none

/-- R8, R10: one 4 B read of a register that is served. -/
def readReg (r : Req) (a : Nat) (s : State) : State :=
  match pageType (addrDie a) (addrPage a) with
  | none => s.answer (leBytes 4 0)
  | some (ty, inst) =>
    match popAt s a ty inst with
    | some s1 => s1
    | none =>
      match tget none s.caps a with
      | some w => { s with caps := tput none s.caps a none }.answer (leBytes 4 w.toNat)
      | none =>
        let v := liveWord s r a
        let s1 := (pairHis ty (addrOff a)).foldl (fun t off =>
          let hi := a / 4096 * 4096 + off
          t.capture hi (BitVec.ofNat 32 (liveWord s r hi))) s
        (s1.clearRc a (fieldsAt ty (addrOff a))).answer (leBytes 4 v)

/-- R611: an 8 B read serves the lower half first. -/
def readReg8 (r : Req) (a : Nat) (s : State) : State :=
  let s1 := readReg r a s
  let s2 := readReg r (a + 4) s1
  s2.answer (s1.reply.data ++ s2.reply.data)

end Sys2Proof.Machine
end

