-- ==== Sys2Proof/Machine/RegWrite.lean ====
section
/-!
DEFINITION. RegWrite.lean: what a write of a register does: the access codes of R10, the locks of R619, and the registers
whose write is a command of their block. Every write of a 4 B register goes through `writeReg`.
-/
namespace Sys2Proof.Machine

/-! ### Access codes (R10, R619) -/

/-- R619 (log 65): requester `r` may write RWL fields of a page of type `ty`. -/
def mayRwl (r : Req) (ty : Nat) : Bool := isMgmt r || ty == 0x006 || ty == 0x025

/-- The page type has an RWL field. -/
def hasRwl (ty : Nat) : Bool := (fieldsOf ty).any fun f => f.acc == .rwl

/-- R10: one field `f` of the register at `a` takes its bits of the written word `v`. -/
def writeField (r : Req) (ty a v : Nat) (s : State) (f : RField) : State :=
  let x := nbits v f.lsb f.w
  let old := s.fld a f.lsb f.w
  match f.acc with
  | .rw => s.setFld a f.lsb f.w x
  | .w1c => s.setFld a f.lsb f.w (old - Nat.land old x)
  | .w1s => s.setFld a f.lsb f.w (Nat.lor old x)
  | .rwl => if !mayRwl r ty then s else if pageLocked s a then s.wrRej a else s.setFld a f.lsb f.w x
  | _ => s

/-- R10: a write with no effect beyond the register's own fields; reserved offsets and bits are ignored (R9). -/
def plainWrite (r : Req) (ty a v : Nat) (s : State) : State :=
  ((fieldsAt ty (addrOff a)).filter fun f => f.covers (addrOff a)).foldl (writeField r ty a v) s

/-- Write-1 effects of a command register: `k i` for each bit `i` of `is` that is set, in order. -/
def onBits (v : Nat) (l : List (Nat × (State → State))) (s : State) : State :=
  l.foldl (fun s e => if nbit v e.1 then e.2 s else s) s

/-! ### The header (R502, R615, R619) -/

/-- R500, R502: `HDR_CTRL.EN` of a function page. -/
def fnEnable (die ty inst : Nat) (en : Bool) (s : State) : State :=
  match ty with
  | 0x003 => if en then chanSetEn (128 * die + inst) s else chanClrEn (128 * die + inst) s
  | 0x01F => if en then xngSetEn inst s else xngClrEn inst s
  | 0x020 => if en then chanSetEn (2048 + inst) s else chanClrEn (2048 + inst) s
  | 0x021 => if en then medSetEn inst s else medClrEn inst s
  | 0x022 => if en then epSetEn inst s else epClrEn inst s
  | _ => s

/-- R502: a write of `HDR_CTRL`; reserved on every other page (R615). -/
def writeHdrCtrl (a ty inst v : Nat) (s : State) : State :=
  if (pageFState s (addrDie a) ty inst).isSome then
    fnEnable (addrDie a) ty inst (nbit v 0) (if nbit v 3 then s.clrBit a 3 else s)
  else s

/-- R615: the events that a page's chapter names (R146, R168, R428, R306; of core and mailbox pages, log 66). -/
def irqMask (ty : Nat) : Nat :=
  match ty with
  | 0x002 => 0x7F
  | 0x003 => 0
  | 0x020 => 3
  | 0x021 => 3
  | 0x006 => 1
  | 0x00D => 0x10
  | 0x026 => 1
  | _ => 0

/-- R615: a write of `HDR_IRQ_FORCE`. -/
def forceIrq (a ty v : Nat) (s : State) : State :=
  let b := a / 4096 * 4096 + 0x014
  s.setFld b 0 32 (Nat.lor (s.fld b 0 32) (Nat.land v (irqMask ty)))

/-- R619: a write of `HDR_LOCK`: the lock is taken by one that may write an RWL field of the page. -/
def writeLock (r : Req) (a ty v : Nat) (s : State) : State :=
  let s1 := if nbit v 2 then s.clrBit a 2 else s
  if nbit v 0 && hasRwl ty && mayRwl r ty then s1.setBit a 0 else s1

/-- A write of a header register. -/
def writeHdr (r : Req) (a ty inst v : Nat) (s : State) : State :=
  match addrOff a with
  | 0x00C => writeHdrCtrl a ty inst v s
  | 0x01C => forceIrq a ty v s
  | 0x02C => writeLock r a ty v s
  | _ => plainWrite r ty a v s

/-! ### Plot pages -/

/-- R69, R93: the array page. -/
def writeArr (r : Req) (a k v : Nat) (s : State) : State :=
  match addrOff a with
  | 0x040 => writeArrCfg s k (BitVec.ofNat 32 v)
  | 0x048 => s.updArr k fun A => { A with rngLo := BitVec.ofNat 32 v }
  | 0x04C => writeArrRng s k (BitVec.ofNat 32 v)
  | _ => plainWrite r 0x001 a v s

/-- R141: a word of a push window: array 0x100, vector 0x140, barge 0x180, noria 0x1C0. -/
def pushWord (k off v : Nat) (s : State) : State :=
  s.updQueue k ((off - 0x100) / 64) fun Q => { Q with window := setNth 0 Q.window (off % 64 / 4) (BitVec.ofNat 32 v) }

/-- R111, R112, R142: a write of `PQ_CTRL`. -/
def writePqCtrl (k v : Nat) (s : State) : State :=
  let q := nbits v 0 2
  let s1 := match nbits v 2 2 with
    | 1 => skipQueue k q s
    | 2 => flushQueue k q s
    | _ => s
  onBits v [(4, queueSetEn k q), (5, queueStop k q)] s1

/-- R141 to R150: the queue page. -/
def writePq (r : Req) (a k v : Nat) (s : State) : State :=
  let off := addrOff a
  if 0x800 ≤ off ∧ off < 0xC00 then writeHg k ((off - 0x800) / 32) (off % 32 / 4) (BitVec.ofNat 32 v) s
  else if 0x400 ≤ off ∧ off < 0x800 then writeSlot k ((off - 0x400) / 32) (off % 32 / 4) (BitVec.ofNat 32 v) s
  else if 0x200 ≤ off ∧ off < 0x300 then writeCtr k ((off - 0x200) / 4) (BitVec.ofNat 32 v) s
  else if 0x100 ≤ off ∧ off < 0x200 then (if 0x160 ≤ off ∧ off < 0x180 then s else pushWord k off v s)
  else match off with
    | 0x040 => pushQueue r k (nbits v 0 2) s
    | 0x044 => writePqCtrl k v s
    | 0x064 => sendToken k (BitVec.ofNat 32 v) s
    | 0x074 => s.updPlot k fun P => { P with vrngLo := BitVec.ofNat 32 v }
    | 0x078 => writeVecRng s k (BitVec.ofNat 32 v)
    | 0x07C => onBits v [(30, stewardFault k), (31, kickDog k)] (s.setFld a 0 24 (nbits v 0 24))
    | _ => plainWrite r 0x002 a v s

/-- R164, R168, R169: a barge channel page, `c` its channel. -/
def writeBrg (r : Req) (ty a c v : Nat) (s : State) : State :=
  let off := addrOff a
  if ty = 0x020 ∧ 0x100 ≤ off ∧ off < 0x140 then
    s.updChan c fun C => { C with window := setNth 0 C.window ((off - 0x100) / 4) (BitVec.ofNat 32 v) }
  else match off with
    | 0x040 => onBits v [(0, brgGo c false), (1, brgGo c true)] s
    | 0x058 => if ty = 0x020 ∧ nbit v 0 then brgPush (c - 2048) s else s
    | 0x05C => if ty = 0x020 ∧ isMgmt r then writeOwner (.barge (Fin.ofNat 32 (c - 2048))) (BitVec.ofNat 32 v) s else s
    | _ => plainWrite r ty a v s

/-- R587, R590: a counter page; the steward only reads it. -/
def writeCnt (r : Req) (ty a k v : Nat) (s : State) : State :=
  if reqLocal r then s
  else if addrOff a = 0x040 then (if nbit v 0 then cntSampleCmd r k s else s)
  else plainWrite r ty a v s

/-! ### Memory, hub and governor pages -/

/-- R235, R266: the slice controller page. -/
def writeSlc (r : Req) (a k v : Nat) (s : State) : State :=
  match addrOff a with
  | 0x068 => if nbit v 31 then startPpr k (BitVec.ofNat 32 v) s else s.setFld a 0 20 v
  | _ => plainWrite r 0x005 a v s

/-- R307: the noria page. -/
def writeNor (r : Req) (a k v : Nat) (s : State) : State :=
  match addrOff a with
  | 0x050 => xchkGo r k (BitVec.ofNat 32 v) s
  | _ => plainWrite r 0x006 a v s

/-- R194, R521: the reach hub page. -/
def writeRh (r : Req) (a st q v : Nat) (s : State) : State :=
  match addrOff a with
  | 0x040 => fenceMask st q (nbits v 0 8) s
  | 0x044 => writePlotCtrl st q (BitVec.ofNat 32 v) s
  | _ => plainWrite r 0x007 a v s

/-- R204: a die fabric page. -/
def writeDf (r : Req) (ty a v : Nat) (s : State) : State :=
  let die := addrDie a
  let off := addrOff a
  let m := (off - 0x080) / 8
  if 0x080 ≤ off ∧ off % 8 = 4 ∧ m < modCount die then
    (let s1 := if nbit v 1 = s.bit a 1 then s else disableWrite die m (nbit v 1) s
     if nbit v 0 then retrainWrite die m s1 else s1)
  else plainWrite r ty a v s

/-- R554: the governor page. -/
def writeGov (r : Req) (a v : Nat) (s : State) : State :=
  match addrOff a with
  | 0x044 =>
    let s1 := (s.setFld a 0 2 (nbits v 0 2)).setFld a 5 1 (nbits v 5 1)
    if nbits v 2 3 ≤ 4 then s1.setFld a 2 3 (nbits v 2 3) else s1
  | 0x04C => if 2 ≤ nbits v 0 4 then s.setFld a 0 4 (nbits v 0 4) else s
  | _ => plainWrite r 0x00C a v s

/-- R409, R418, R419: the core complex page. -/
def writeCc (r : Req) (a st v : Nat) (s : State) : State :=
  let off := addrOff a
  match off with
  | 0x040 => coreRelease st (nbits v 0 8) s
  | 0x058 => coreTokenTx st (BitVec.ofNat 32 v) s
  | 0x05C => if firstOfArc s st then plainWrite r 0x00D a v s else s
  | _ =>
    if 0x048 ≤ off ∧ off < 0x058 ∧ s.fld (ccReg st 0x040) 8 8 ≠ 0 then s else plainWrite r 0x00D a v s

/-- R417 (log 18): a write at offset 0 of an interrupt file's page makes the identity written pending. -/
def writeImsic (a st inst v : Nat) (s : State) : State :=
  if addrOff a = 0 ∧ 1 ≤ v ∧ v ≤ 255 then
    s.updCore (8 * st + inst / 7) fun C => { C with imsicPend := tput false C.imsicPend (256 * (inst % 7) + v) true }
  else s

/-! ### I/O die pages -/

/-- R32, R623: the package page; clearing `PMB_FAULT` lets the bus be used again. -/
def writePkg (r : Req) (a v : Nat) (s : State) : State :=
  let s1 := plainWrite r 0x010 a v s
  if addrOff a = 0x044 ∧ nbit v 5 then
    (List.range 16).foldl (fun s st => s.updStk st fun T => { T with pmbBad := false }) s1
  else s1

/-- R465, R490: a write of `BOOT_CTRL`: the other bits first, then the wider reset. -/
def writeBootCtrl (v : Nat) (s : State) : State :=
  let s1 := writeNextSlot (BitVec.ofNat 2 (nbits v 3 2)) s
  let s2 := if nbit v 2 then (s1.attemptWrite 2).showAttempts else s1
  if nbit v 0 then s2.pkgReset true else if nbit v 1 then warmCmd s2 else s2

/-- R490: the boot page. -/
def writeBoot (r : Req) (a v : Nat) (s : State) : State :=
  match addrOff a with
  | 0x044 => writeBootCtrl v s
  | 0x104 => storeCmd (BitVec.ofNat 2 (nbits v 0 2)) s
  | _ => plainWrite r 0x011 a v s

/-- R555: the I/O die thermal page. -/
def writeThm (r : Req) (a v : Nat) (s : State) : State :=
  match addrOff a with
  | 0x040 => clearAlerts v s
  | 0x054 => if nbit v 0 then resume s else s
  | _ => plainWrite r 0x013 a v s

/-- R451: the bytes of the token window. -/
def tokenBytes (s : State) : List Byte := (List.range 1024).map fun i => tget 0 s.sec.tokenWin i

/-- R451: a word of the token window; the last one submits the token. -/
def tokenWord4 (i v : Nat) (s : State) : State :=
  let W := (List.range 4).foldl (fun w j => tput 0 w (4 * i + j) (BitVec.ofNat 8 (nbits v (8 * j) 8))) s.sec.tokenWin
  let s1 := { s with sec := { s.sec with tokenWin := W } }
  if i = 255 then submitToken (tokenBytes s1) s1 else s1

/-- R456: the security page. -/
def writeSec (r : Req) (a v : Nat) (s : State) : State :=
  let off := addrOff a
  if 0x400 ≤ off ∧ off < 0x800 then tokenWord4 ((off - 0x400) / 4) v s
  else match off with
    | 0x048 => onBits v [(0, svnCommitCmd), (1, revokeCmd)] s
    | _ => plainWrite r 0x014 a v s

/-- R360: a ring register; base and size change only while the ring reads STOPPED. -/
def writeRing (r : Req) (ty a g v : Nat) (s : State) : State :=
  let off := addrOff a % 64
  let isStopped : Bool := (s.ring g).state == .stopped
  let log2 (lo : Nat) (s : State) : State := if 4 ≤ nbits v lo 4 ∧ nbits v lo 4 ≤ 12 then s.setFld a lo 4 (nbits v lo 4) else s
  match off with
  | 0x14 => onBits v [(0, ringSetEn g), (1, ringClrEn g)] s
  | 0x10 => if isStopped then log2 4 (log2 0 s) else s
  | _ => if off < 0x10 ∧ !isStopped then s else plainWrite r ty a v s

/-- R324: a window base is a multiple of the BAR2 size of function `f`. -/
def writeWinBase (a f v : Nat) (s : State) : State := if nbits v 0 10 % bar2Size s f = 0 then s.setFld a 0 10 (nbits v 0 10) else s

/-- R357, R360: the landing page. -/
def writeLnd (r : Req) (a v : Nat) (s : State) : State :=
  let off := addrOff a
  if 0x100 ≤ off ∧ off < 0x200 then writeRing r 0x015 a ((off - 0x100) / 64) v s
  else if 0x0C0 ≤ off ∧ off < 0x100 then
    (let n := (off - 0x0C0) / 4
     onBits v [(0, partSetEn n), (1, partClrEn n), (2, fun s => s.resetPart n .reset)] s)
  else if 0x080 ≤ off ∧ off < 0x0C0 then writePartCfg ((off - 0x080) / 4) (BitVec.ofNat 32 v) s
  else if off = 0x04C then writeWinBase a 0 v s
  else plainWrite r 0x015 a v s

/-- R604: counts of watch point `n` go as it is armed. -/
def State.armWp (s : State) (n : Nat) : State :=
  { s with dbg := { s.dbg with wpDue := s.dbg.wpDue.filter (· != n)
                               wpCount := s.dbg.wpCount.filter fun e => e.1 / 512 != n } }

/-- R604, R605: a watch point register: while armed only a write that clears `EN` acts, and clears `EN` alone. -/
def writeWp (r : Req) (a n v : Nat) (s : State) : State :=
  let off := addrOff a % 32
  if s.bit (wpReg n 0x04) 13 then (if off = 0x04 ∧ !nbit v 13 then s.clrBit a 13 else s)
  else if off = 0x04 ∧ nbits v 11 2 = 3 then s
  else if off = 0x04 ∧ nbit v 13 then (plainWrite r 0x016 a v s).armWp n
  else plainWrite r 0x016 a v s

/-- R604: only the physical function arms a watch point. -/
def armsWp (off v : Nat) : Bool := decide (off % 32 = 4) && nbit v 13

/-- R608: the debug page. -/
def writeDbg (r : Req) (a v : Nat) (s : State) : State :=
  let off := addrOff a
  if 0x080 ≤ off ∧ off < 0x180 then (if r != .pf && armsWp off v then s else writeWp r a ((off - 0x080) / 32) v s)
  else match off with
    | 0x040 => onBits v [(0, stopCmd), (1, releaseCmd)] s
    | 0x04C => if nbit v 0 then soundingCmd s else s
    | 0x054 => recSel (BitVec.ofNat 32 v) s
    | _ => plainWrite r 0x016 a v s

/-- R403: the collective engine page. -/
def writeCol (r : Req) (a v : Nat) (s : State) : State :=
  let off := addrOff a
  if 0x040 ≤ off ∧ off < 0x0C0 then
    (if isMgmt r then writeOwner (.endpoint (Fin.ofNat 32 ((off - 0x040) / 4))) (BitVec.ofNat 32 v) s else s)
  else if 0x0C0 ≤ off ∧ off < 0x100 then
    (if isMgmt r then writeGrpOwner ((off - 0x0C0) / 4) (BitVec.ofNat 32 v) s else s)
  else plainWrite r 0x019 a v s

/-- R401: a crossing page. -/
def writeXng (r : Req) (a n v : Nat) (s : State) : State :=
  match addrOff a with
  | 0x040 =>
    let s1 := s.setFld a 2 2 (nbits v 2 2)
    if nbits v 0 2 = 3 then s1 else s1.setFld a 0 2 (nbits v 0 2)
  | 0x060 => onBits v [(0, retrainCtrl n), (1, fun s => if hasKeys s n then s.rekey n else s)] s
  | _ => plainWrite r 0x01F a v s

/-- R428: a media channel page. -/
def writeMed (r : Req) (a n v : Nat) (s : State) : State :=
  let off := addrOff a
  if 0x100 ≤ off ∧ off < 0x140 then
    s.updMed n fun M => { M with window := setNth 0 M.window ((off - 0x100) / 4) (BitVec.ofNat 32 v) }
  else match off with
    | 0x040 => if nbit v 0 then mediaPush n s else s
    | 0x044 => if isMgmt r then writeOwner (.media (Fin.ofNat 32 n)) (BitVec.ofNat 32 v) s else s
    | _ => plainWrite r 0x021 a v s

/-- R328, R356 to R360: a partition page. -/
def writePart (r : Req) (a n v : Nat) (s : State) : State :=
  let off := addrOff a
  if 0x100 ≤ off ∧ off < 0x200 then writeRing r 0x023 a (4 * (n + 1) + (off - 0x100) / 64) v s
  else if 0x0C0 ≤ off ∧ off < 0x100 then
    s.updPart n fun P => { P with window := setNth 0 P.window ((off - 0x0C0) / 4) (BitVec.ofNat 32 v) }
  else match off with
    | 0x044 => writeWinBase a (n + 1) v s
    | 0x048 => if nbit v 0 then nwinPush n s else s
    | 0x060 => onBits v [(0, partSetEn n), (1, partClrEn n)] s
    | _ => plainWrite r 0x023 a v s

/-- R236, R269: the commons page. -/
def writeCom (r : Req) (a n v : Nat) (s : State) : State :=
  match addrOff a with
  | 0x040 => if isMgmt r then writeCommonsCfg n (BitVec.ofNat 32 v) s else s
  | 0x05C => (match nbits v 0 3 with
      | 1 => remapBegin n s
      | 2 => remapWrite n (nbits v 4 9) s
      | 3 => remapClear n (nbits v 4 9) s
      | 4 => remapStart n s
      | 5 => remapCancel n s
      | _ => s)
  | _ => plainWrite r 0x024 a v s

/-- R576: a mailbox page. -/
def writeMb (r : Req) (a m v : Nat) (s : State) : State :=
  match addrOff a with
  | 0x040 => if nbit v 0 then mbGo m s else s
  | _ => plainWrite r 0x026 a v s

/-- R404: a ferry site page. -/
def writeFer (r : Req) (a i v : Nat) (s : State) : State :=
  match addrOff a with
  | 0x080 => if nbit v 0 then readmit i s else s
  | _ => plainWrite r 0x027 a v s

/-! ### Any register -/

/-- A write of a block's own register. -/
def writeBlock (r : Req) (a ty inst v : Nat) (s : State) : State :=
  let die := addrDie a
  let k := 32 * die + inst
  match ty with
  | 0x001 => writeArr r a k v s
  | 0x002 => writePq r a k v s
  | 0x003 => writeBrg r ty a (128 * die + inst) v s
  | 0x004 => writeCnt r ty a k v s
  | 0x005 => writeSlc r a k v s
  | 0x006 => writeNor r a k v s
  | 0x007 => writeRh r a die inst v s
  | 0x008 => writeCnt r ty a (512 + 4 * die + inst) v s
  | 0x009 => writeDf r ty a v s
  | 0x00A => writeCnt r ty a (576 + die) v s
  | 0x00C => writeGov r a v s
  | 0x00D => writeCc r a die v s
  | 0x010 => writePkg r a v s
  | 0x011 => writeBoot r a v s
  | 0x013 => writeThm r a v s
  | 0x014 => writeSec r a v s
  | 0x015 => writeLnd r a v s
  | 0x016 => writeDbg r a v s
  | 0x017 => writeDf r ty a v s
  | 0x019 => writeCol r a v s
  | 0x01A => writeCnt r ty a 592 v s
  | 0x01B => writeCnt r ty a 593 v s
  | 0x01C => writeCnt r ty a 594 v s
  | 0x01F => writeXng r a inst v s
  | 0x020 => writeBrg r ty a (2048 + inst) v s
  | 0x021 => writeMed r a inst v s
  | 0x023 => writePart r a inst v s
  | 0x024 => writeCom r a inst v s
  | 0x026 => writeMb r a inst v s
  | 0x027 => writeFer r a inst v s
  | _ => plainWrite r ty a v s

/-- R611: one 4 B write of a register that is served. -/
def writeReg (r : Req) (a v : Nat) (s : State) : State :=
  match pageType (addrDie a) (addrPage a) with
  | none => s
  | some (ty, inst) =>
    if ty = 0x00E then writeImsic a (addrDie a) inst v s
    else if addrOff a < 0x40 then writeHdr r a ty inst v s
    else writeBlock r a ty inst v s

end Sys2Proof.Machine
end

