-- ==== Sys2Proof/Machine/Regs.lean ====
section
/-!
DEFINITION. Regs.lean: register accesses by address (R609 to R614, R625 to R627): where each requester's address leads, the sizes
and alignments that a page serves, and the commands that read or write any register.
-/
namespace Sys2Proof.Machine

/-! ### Addresses (R609, R625, R626) -/

/-- Where an address leads. -/
inductive RegPlace where
  /-- the register address of a page -/
  | reg (a : Nat)
  /-- R612: no register behind a page of a virtual function view; `ones` is what a read of it returns -/
  | noVf (ones : Bool)
  /-- R620: a steward's local page without a BAR0 place -/
  | noLocal
  deriving DecidableEq, Repr

/-- R626: the stack window of partition `n`, window page `w` at offset `off`. -/
def stackWindow (s : State) (n w off : Nat) : RegPlace :=
  let arc := arcOf s n
  let i := s.fld (partReg n 0x05C) 0 4
  if i < arc.length then .reg (regAddr (nth 0 arc i) (128 * s.fld (partReg n 0x05C) 4 2 + w) off) else .noVf true

/-- R625: a page of the BAR0 view of the virtual function that owns partition `n`. -/
def vfPlace (s : State) (n x : Nat) : RegPlace :=
  let off := x % 4096
  let pg := x / 4096 % 256
  if pg < 4 then .reg (regAddr 16 (0x100 + 8 * n + pg) off)
  else if pg = 4 then .reg (regAddr 17 (1 + n) off)
  else if pg < 8 then .reg (regAddr 16 (pg + 4) off)
  else if pg < 0x28 then .reg (regAddr 16 (0x040 + (pg - 8)) off)
  else if pg < 0x48 then .reg (regAddr 16 (0x060 + (pg - 0x28)) off)
  else if pg < 0x68 then .reg (regAddr 16 (0x080 + (pg - 0x48)) off)
  else if pg < 0x80 then .noVf false
  else stackWindow s n (pg - 0x80) off

/-- R609: where address `x` of requester `r` leads. -/
def placeOf (s : State) (r : Req) (x : RegAddr) : RegPlace :=
  match r with
  | .vf n => vfPlace s n.val x.toNat
  | .steward p =>
    let pg := x.toNat / 4096 % 16
    if pg < 8 then .reg (regAddr p.st.val (8 * p.pl.val + pg) (x.toNat % 4096)) else .noLocal
  | _ => .reg x.toNat

/-- R611: a size and alignment that a page serves. -/
def sizeOk (a size : Nat) : Bool := size == 4 && a % 4 == 0 || size == 8 && a % 8 == 0

/-- R612: the log entry of an access behind which there is no register: the BAR0 offset. -/
def State.noVfErr (s : State) (r : Req) (x : RegAddr) : State := (s.reqStepped r).regErr (x.toNat % 2 ^ 20) 5 r

/-! ### Reads -/

/-- One 4 B half of an access. -/
def readHalf (r : Req) (s : State) (a : Nat) : State := s.readAccess r a (readReg r a)

/-- R611: a read at register address `a`: a page that refuses the access does so for all of it; a page that takes it
refuses a wrong size or alignment, and serves an 8 B access as two. -/
def regReadAt (r : Req) (a size : Nat) (s : State) : State :=
  if reach s r true a = .ok ∨ size = 8 ∧ reach s r true (a + 4) = .ok then
    (if !sizeOk a size then ((s.reqStepped r).regErr (devReg a) 4 r).answer (List.replicate size 0)
     else if size = 8 then
       (let s1 := readHalf r s a
        let s2 := readHalf r s1 (a + 4)
        s2.answer (s1.reply.data ++ s2.reply.data))
     else readHalf r s a)
  else s.readAccess r a id size

/-- R609 to R612: a read of `size` bytes at address `x` of requester `r`. -/
def regRead (r : Req) (x : RegAddr) (size : Nat) (s : State) : State :=
  match placeOf s r x with
  | .reg a => regReadAt r a size s
  | .noVf ones =>
    if bootState s = 0 then s.answer (List.replicate size 0xFF)
    else (s.noVfErr r x).answer (List.replicate size (if ones || vfDark s r then 0xFF else 0))
  | .noLocal => s.answer (List.replicate size 0)

/-! ### Writes -/

/-- R611: a write of `v` at register address `a`. -/
def regWriteAt (r : Req) (a size v : Nat) (s : State) : State :=
  if reach s r false a = .ok ∨ size = 8 ∧ reach s r false (a + 4) = .ok then
    (if !sizeOk a size then (s.reqStepped r).regErr (devReg a) 4 r
     else if size = 8 then
       (let s1 := s.access r a (writeReg r a (v % 2 ^ 32))
        s1.access r (a + 4) (writeReg r (a + 4) (v / 2 ^ 32 % 2 ^ 32)))
     else s.access r a (writeReg r a (v % 2 ^ 32)))
  else s.access r a id

/-- R609 to R612: a write of `size` bytes at address `x` of requester `r`. -/
def regWrite (r : Req) (x : RegAddr) (size v : Nat) (s : State) : State :=
  match placeOf s r x with
  | .reg a => regWriteAt r a size v s
  | .noVf _ => if bootState s = 0 then s else s.noVfErr r x
  | .noLocal => s

/-- The address of the header register at offset `off` of the page that `x` lies in. -/
def headerAt (x : RegAddr) (off : Nat) : RegAddr := BitVec.ofNat 26 (x.toNat / 4096 * 4096 + off)

/-! ### Commands -/

/-- HDR_LOCK_SET (R619): a write of 1 to `HDR_LOCK.LOCK` of the page that `x` lies in. -/
def execHdrLockSet (r : Req) (x : RegAddr) (size : Nat) (s : State) : Out := .next (regWrite r (headerAt x 0x02C) size 1 s)

/-- HDR_IRQ_FORCE (R615): a write of `HDR_IRQ_FORCE` of the page that `x` lies in. -/
def execHdrIrqForce (r : Req) (x : RegAddr) (size : Nat) (v : Word) (s : State) : Out :=
  .next (regWrite r (headerAt x 0x01C) size v.toNat s)

/-- REGISTER_PAIR_LO_READ (R8): a read of a register; of a `_LO` register it captures the `_HI` register. -/
def execRegisterPairLoRead (r : Req) (x : RegAddr) (size : Nat) (s : State) : Out := .next (regRead r x size s)

/-- RC_READ (R10): a read of a register; its RC fields are cleared. -/
def execRcRead (r : Req) (x : RegAddr) (size : Nat) (s : State) : Out := .next (regRead r x size s)

/-- REGISTER_WRITE (R611). -/
def execRegisterWrite (r : Req) (x : RegAddr) (size : Nat) (v : BitVec 64) (s : State) : Out :=
  .next (regWrite r x size v.toNat s)

end Sys2Proof.Machine
end

