-- ==== Sys2Proof/Machine/Jtag.lean ====
section
/-!
DEFINITION. Jtag.lean: debug access and the debug module interface (R451, R606, R607).
-/
namespace Sys2Proof.Machine

/-! ### DBG_ACCESS (R607) -/

/-- R451, R607: the debug level. -/
def jtagLevel (s : State) : Nat := if pkgUp s then s.fld (secReg 0x080) 0 2 else 0

/-- The result that the next Capture-DR returns: 0 OK, 1 BUSY, 2 DENIED, 3 ERROR. -/
def State.accDone (s : State) (stat data : Nat) : State :=
  { s with dbg := { s.dbg with accStat := BitVec.ofNat 2 stat, accData := BitVec.ofNat 32 data } }

/-- R607: region 0x8: a register access of the debug path. -/
def dbgReg8 (rd : Bool) (a v : Nat) (s : State) : State :=
  if !debugMay s rd (addrDie a) (addrPage a) then s.accDone 2 0
  else if rd then
    (let s1 := regReadAt .debug a 4 s
     s1.accDone 0 (leAt s1.reply.data 0 4))
  else (regWriteAt .debug a 4 v s).accDone 0 0

/-- R607: regions 0x0 and 0x1 at level 2; a cistern that makes the access wait leaves it BUSY (log 68). -/
def dbgMem (rd : Bool) (a v : Nat) (s : State) : State :=
  if !addrOk s none a 4 then s.accDone 3 0
  else if rd then
    (if !devReadGo s a 4 then s.accDone 1 0
     else
       let r := s.devRead a 4 .port
       r.st.accDone (if r.poison || r.lost then 3 else 0) (leAt r.data 0 4))
  else if !devWriteGo s a 4 then s.accDone 1 0
  else
    let r := s.devWrite a (leBytes 4 v) false .port
    r.st.accDone (if r.lost then 3 else 0) 0

/-- R607: an access at level 1 or 2. -/
def dbgAccess (dr : BitVec 88) (s : State) : State :=
  let x := dr.toNat
  let a := nbits x 0 48
  let v := nbits x 48 32
  let op := nbits x 80 2
  if op = 0 then s
  else if op = 3 then s.accDone 3 0
  else if nbits a 44 4 = 8 then (if nbits a 26 18 = 0 then dbgReg8 (op == 1) (a % 2 ^ 26) v s else s.accDone 3 0)
  else if 2 ≤ nbits a 44 4 then s.accDone 3 0
  else if jtagLevel s = 2 then dbgMem (op == 1) a v s
  else s.accDone 2 0

/-- DBG_ACCESS (R607): locked JTAG has no such instruction (R451). -/
def execDbgAccess (dr : BitVec 88) (s : State) : Out := .next (if jtagLevel s = 0 then s else dbgAccess dr s)

/-! ### The debug module (R606) -/

/-- The hart number of the ditch rider. -/
def riderHart : Nat := 4096

/-- The debug module halts a hart. -/
def State.haltHart (s : State) (h : Nat) : State :=
  { s.hartStepped h with dbg := { (s.hartStepped h).dbg with dmiHalt := h :: s.dbg.dmiHalt.filter (· != h) } }

/-- The hart runs again. -/
def State.resumeHart (s : State) (h : Nat) : State :=
  { s.hartStepped h with dbg := { (s.hartStepped h).dbg with dmiHalt := s.dbg.dmiHalt.filter (· != h) } }

/-- A halted hart executes one instruction. -/
def State.stepHart (s : State) (h : Nat) : State :=
  if s.dbg.dmiHalt.contains h then { s with dbg := { s.dbg with dmiStep := h :: s.dbg.dmiStep.filter (· != h) } } else s

/-- Data that the debug module returns. -/
def State.dmiAnswer (s : State) (v : BitVec 64) : State :=
  { s with dbg := { s.dbg with dmiData := v } }.answer (leBytes 8 v.toNat)

/-- Registers by debug number (log 69): control registers 0 to 0xFFF, integer 0x1000 on, floating 0x1020 on. -/
def coreRegGet (C : HCore) (n : Nat) : Option (BitVec 64) :=
  if n = 0x7B1 then some C.pc
  else if n < 0x1000 then some (tget 0 C.csr n)
  else if n < 0x1020 then some (C.getX (n - 0x1000))
  else if n < 0x1040 then some (nth 0 C.f (n - 0x1020))
  else none

/-- The same, written. -/
def coreRegPut (C : HCore) (n : Nat) (v : BitVec 64) : HCore :=
  if n = 0x7B1 then { C with pc := v }
  else if n < 0x1000 then { C with csr := tput 0 C.csr n v }
  else if n < 0x1020 then C.setX (n - 0x1000) v
  else if n < 0x1040 then { C with f := setNth 0 C.f (n - 0x1020) v }
  else C

/-- A steward's registers: it has the integer ones and those of machine mode. -/
def stewardRegGet (w : Steward) (n : Nat) : Option (BitVec 64) :=
  match n with
  | 0x300 => some w.mstatus
  | 0x304 => some w.mie
  | 0x305 => some w.mtvec
  | 0x340 => some w.mscratch
  | 0x341 => some w.mepc
  | 0x342 => some w.mcause
  | 0x343 => some w.mtval
  | 0x7B1 => some w.pc
  | _ => if n = 0x1000 then some 0 else if 0x1000 < n ∧ n < 0x1020 then some (nth 0 w.x (n - 0x1001)) else none

/-- The same, written. -/
def stewardRegPut (w : Steward) (n : Nat) (v : BitVec 64) : Steward :=
  match n with
  | 0x300 => { w with mstatus := v }
  | 0x304 => { w with mie := v }
  | 0x305 => { w with mtvec := v }
  | 0x340 => { w with mscratch := v }
  | 0x341 => { w with mepc := v }
  | 0x342 => { w with mcause := v }
  | 0x343 => { w with mtval := v }
  | 0x7B1 => { w with pc := v }
  | _ => if 0x1000 < n ∧ n < 0x1020 then { w with x := setNth 0 w.x (n - 0x1001) v } else w

/-- The ditch rider's registers: what firmware left in one is open until it is read or written (log 69). -/
def riderGet (n : Nat) (s : State) : State :=
  if n = 0x1000 then s.dmiAnswer 0
  else match tget none s.dbg.rider n with
    | some v => s.dmiAnswer v
    | none =>
      let v := BitVec.ofNat 64 s.free
      { s.drawn with dbg := { s.dbg with rider := tput none s.dbg.rider n (some v) } }.dmiAnswer v

/-- R606: while a stop halts the die, its scan dump port streams state in a layout that the manual does not define. -/
def scanDump (s : State) : State :=
  if stopState s = 2 then s.drawn.dmiAnswer (BitVec.ofNat 64 s.free) else s

/-- An operation on a hart that the debug module holds halted. -/
def onHalted (s : State) (h : Nat) (k : State → State) : State := if s.dbg.dmiHalt.contains h then k s else s

/-- R606: one operation of the debug module. -/
def dmi (a : DmiOp) (s : State) : State :=
  match a with
  | .haltCore st k => if stackUp s st.val then s.haltHart (8 * st.val + k.val) else s
  | .resumeCore st k => s.resumeHart (8 * st.val + k.val)
  | .stepCore st k => s.stepHart (8 * st.val + k.val)
  | .readCoreReg st k n =>
    let h := 8 * st.val + k.val
    onHalted s h fun s => (match coreRegGet (s.core h) n.toNat with | some v => s.dmiAnswer v | none => s)
  | .writeCoreReg st k n v => onHalted s (8 * st.val + k.val) fun s => s.updCore (8 * st.val + k.val) fun C => coreRegPut C n.toNat v
  | .haltSteward p => if plotUp s (plotKey p) then s.haltHart (1024 + plotKey p) else s
  | .resumeSteward p => s.resumeHart (1024 + plotKey p)
  | .stepSteward p => s.stepHart (1024 + plotKey p)
  | .readStewardReg p n =>
    onHalted s (1024 + plotKey p) fun s => (match stewardRegGet (s.plot (plotKey p)).stw n.toNat with | some v => s.dmiAnswer v | none => s)
  | .writeStewardReg p n v =>
    onHalted s (1024 + plotKey p) fun s => s.updPlot (plotKey p) fun P => { P with stw := stewardRegPut P.stw n.toNat v }
  | .haltRider => s.haltHart riderHart
  | .resumeRider =>
    let t := s.resumeHart riderHart
    { t with dbg := { t.dbg with rider := [] } }
  | .readRiderReg n => onHalted s riderHart (riderGet n.toNat)
  | .writeRiderReg n v =>
    onHalted s riderHart fun s =>
      if n = 0x1000 then s else { s with dbg := { s.dbg with rider := tput none s.dbg.rider n.toNat (some v) } }
  | .scanDump _ => scanDump s

/-- DMI_ACCESS (R606): level 2 alone. -/
def execDmiAccess (a : DmiOp) (s : State) : Out := .next (if jtagLevel s = 2 then dmi a s else s)

end Sys2Proof.Machine
end

