-- ==== Sys2Proof/Machine/Dispatch.lean ====
section
/-!
DEFINITION. Dispatch.lean: one arm per command; each arm is one call of the command's meaning.
-/
namespace Sys2Proof.Machine

/-- The effect of a command on everything but the queue. -/
def exec (i : Instr) (s : State) : Host.Outcome State Fault Refusal :=
  match i with
  | .pwrGoodRise => Sys2Proof.Machine.execPwrGoodRise s
  | .pwrGoodFall => Sys2Proof.Machine.execPwrGoodFall s
  | .perstNAssert => Sys2Proof.Machine.execPerstNAssert s
  | .perstNRelease mode => Sys2Proof.Machine.execPerstNRelease mode s
  | .refclkSysAbsent => Sys2Proof.Machine.execRefclkSysAbsent s
  | .refclkXngAbsent => Sys2Proof.Machine.execRefclkXngAbsent s
  | .refclkXngStable => Sys2Proof.Machine.execRefclkXngStable s
  | .flowPulse => Sys2Proof.Machine.execFlowPulse s
  | .flowStop => Sys2Proof.Machine.execFlowStop s
  | .coolantSensorRead inlet outlet => Sys2Proof.Machine.execCoolantSensorRead inlet outlet s
  | .hardLimitTrip => Sys2Proof.Machine.execHardLimitTrip s
  | .analogueComparatorTrip die => Sys2Proof.Machine.execAnalogueComparatorTrip die s
  | .pstateDecision st ack => Sys2Proof.Machine.execPstateDecision st ack s
  | .voutStepSettled st ack => Sys2Proof.Machine.execVoutStepSettled st ack s
  | .clockSwitch st ack => Sys2Proof.Machine.execClockSwitch st ack s
  | .lookaheadEntry p t => Sys2Proof.Machine.execLookaheadEntry p t s
  | .boreStart p t => Sys2Proof.Machine.execBoreStart p t s
  | .boreEntryDone p t => Sys2Proof.Machine.execBoreEntryDone p t s
  | .shadowLoadStart p t => Sys2Proof.Machine.execShadowLoadStart p t s
  | .shadowLoaded p t => Sys2Proof.Machine.execShadowLoaded p t s
  | .sparseMetaReject p t => Sys2Proof.Machine.execSparseMetaReject p t s
  | .passStart p t => Sys2Proof.Machine.execPassStart p t s
  | .shadowFree p t => Sys2Proof.Machine.execShadowFree p t s
  | .vectorIssue p t => Sys2Proof.Machine.execVectorIssue p t s
  | .accWrite p c t => Sys2Proof.Machine.execAccWrite p c t s
  | .drainRow p t => Sys2Proof.Machine.execDrainRow p t s
  | .arrRngHiWrite r p v => Sys2Proof.Machine.execArrRngHiWrite r p v s
  | .rampDownStart p t => Sys2Proof.Machine.execRampDownStart p t s
  | .columnGroupDisable p t => Sys2Proof.Machine.execColumnGroupDisable p t s
  | .rampUpStart p t => Sys2Proof.Machine.execRampUpStart p t s
  | .columnGroupEnable p t => Sys2Proof.Machine.execColumnGroupEnable p t s
  | .haltRequest p t => Sys2Proof.Machine.execHaltRequest p t s
  | .arrayHalted p t => Sys2Proof.Machine.execArrayHalted p t s
  | .arrCfgWrite r p v => Sys2Proof.Machine.execArrCfgWrite r p v s
  | .stewardException p cause tval => Sys2Proof.Machine.execStewardException p cause tval s
  | .stwWdogFault r p => Sys2Proof.Machine.execStwWdogFault r p s
  | .stwWdogKick r p => Sys2Proof.Machine.execStwWdogKick r p s
  | .stewardWatchdogExpiry p => Sys2Proof.Machine.execStewardWatchdogExpiry p s
  | .pqPush r p q => Sys2Proof.Machine.execPqPush r p q s
  | .stalledPushAccept p => Sys2Proof.Machine.execStalledPushAccept p s
  | .vectorDescStart p => Sys2Proof.Machine.execVectorDescStart p s
  | .vectorDescComplete p => Sys2Proof.Machine.execVectorDescComplete p s
  | .localSignalArrive p ctr => Sys2Proof.Machine.execLocalSignalArrive p ctr s
  | .vecRngHiWrite r p v => Sys2Proof.Machine.execVecRngHiWrite r p v s
  | .pqCplPop r p => Sys2Proof.Machine.execPqCplPop r p s
  | .pqSkip r p q => Sys2Proof.Machine.execPqSkip r p q s
  | .pqFlush r p q => Sys2Proof.Machine.execPqFlush r p q s
  | .pqSetEn r p q => Sys2Proof.Machine.execPqSetEn r p q s
  | .pqClrEn r p q => Sys2Proof.Machine.execPqClrEn r p q s
  | .noriaDispatch p => Sys2Proof.Machine.execNoriaDispatch p s
  | .bargeHandoff p => Sys2Proof.Machine.execBargeHandoff p s
  | .outputSlotWrite r p n w v => Sys2Proof.Machine.execOutputSlotWrite r p n w v s
  | .headgateWrite r p n w v => Sys2Proof.Machine.execHeadgateWrite r p n w v s
  | .addToken p src ctr amount => Sys2Proof.Machine.execAddToken p src ctr amount s
  | .creditToken p src slot n => Sys2Proof.Machine.execCreditToken p src slot n s
  | .fencedToken p src slot => Sys2Proof.Machine.execFencedToken p src slot s
  | .bargeGo p src c => Sys2Proof.Machine.execBargeGo p src c s
  | .wake p src => Sys2Proof.Machine.execWake p src s
  | .markerToken u input stop => Sys2Proof.Machine.execMarkerToken u input stop s
  | .reservedToken p src tok => Sys2Proof.Machine.execReservedToken p src tok s
  | .pqTokenTx r p v => Sys2Proof.Machine.execPqTokenTx r p v s
  | .tokenCounterWrite r p n v => Sys2Proof.Machine.execTokenCounterWrite r p n v s
  | .streamFlitSend p slot => Sys2Proof.Machine.execStreamFlitSend p slot s
  | .streamFlitArrive dst hg sid src slot data => Sys2Proof.Machine.execStreamFlitArrive dst hg sid src slot data s
  | .headgateConsume p hg => Sys2Proof.Machine.execHeadgateConsume p hg s
  | .creditBatchTimeout p hg => Sys2Proof.Machine.execCreditBatchTimeout p hg s
  | .routerForward die site out => Sys2Proof.Machine.execRouterForward die site out s
  | .rhFenceSet r st q mask => Sys2Proof.Machine.execRhFenceSet r st q mask s
  | .d2dFrameReceive m frame => Sys2Proof.Machine.execD2dFrameReceive m frame s
  | .replayRateTick m => Sys2Proof.Machine.execReplayRateTick m s
  | .dfLinkRetrain r m => Sys2Proof.Machine.execDfLinkRetrain r m s
  | .d2dRetrainDone m ok spared => Sys2Proof.Machine.execD2dRetrainDone m ok spared s
  | .dfLinkDisable r m v => Sys2Proof.Machine.execDfLinkDisable r m v s
  | .d2dLinkDown die far => Sys2Proof.Machine.execD2dLinkDown die far s
  | .cisternRead p off len src => Sys2Proof.Machine.execCisternRead p off len src s
  | .cisternWrite p off data poison src => Sys2Proof.Machine.execCisternWrite p off data poison src s
  | .weirOpApply p op esize off operand poison fetch => Sys2Proof.Machine.execWeirOpApply p op esize off operand poison fetch s
  | .scatterAddPacketSend c => Sys2Proof.Machine.execScatterAddPacketSend c s
  | .bankRefresh p bank => Sys2Proof.Machine.execBankRefresh p bank s
  | .bandApply st => Sys2Proof.Machine.execBandApply st s
  | .fillSegmentDone p seg => Sys2Proof.Machine.execFillSegmentDone p seg s
  | .commonsCfgWrite r n v => Sys2Proof.Machine.execCommonsCfgWrite r n v s
  | .demandScrub p => Sys2Proof.Machine.execDemandScrub p s
  | .patrolScrub p => Sys2Proof.Machine.execPatrolScrub p s
  | .eccWindowTick st => Sys2Proof.Machine.execEccWindowTick st s
  | .errRptPop r f => Sys2Proof.Machine.execErrRptPop r f s
  | .pprGo r p v => Sys2Proof.Machine.execPprGo r p v s
  | .pprDone p => Sys2Proof.Machine.execPprDone p s
  | .commonsRemapBegin r n => Sys2Proof.Machine.execCommonsRemapBegin r n s
  | .commonsRemapWrite r n j => Sys2Proof.Machine.execCommonsRemapWrite r n j s
  | .commonsRemapClear r n j => Sys2Proof.Machine.execCommonsRemapClear r n j s
  | .commonsRemapStart r n => Sys2Proof.Machine.execCommonsRemapStart r n s
  | .commonsRemapCancel r n => Sys2Proof.Machine.execCommonsRemapCancel r n s
  | .remapCopyDone n => Sys2Proof.Machine.execRemapCopyDone n s
  | .remapSwitch n => Sys2Proof.Machine.execRemapSwitch n s
  | .remapDone n => Sys2Proof.Machine.execRemapDone n s
  | .noriaCmdArrive src => Sys2Proof.Machine.execNoriaCmdArrive src s
  | .noriaRetryResend src => Sys2Proof.Machine.execNoriaRetryResend src s
  | .bankPermitGrant p bank => Sys2Proof.Machine.execBankPermitGrant p bank s
  | .noriaStepStart p bank => Sys2Proof.Machine.execNoriaStepStart p bank s
  | .noriaStepEnd p bank => Sys2Proof.Machine.execNoriaStepEnd p bank s
  | .noriaXchkPeriod p => Sys2Proof.Machine.execNoriaXchkPeriod p s
  | .noriaXchkGo r p v => Sys2Proof.Machine.execNoriaXchkGo r p v s
  | .noriaXchkDone p bank same => Sys2Proof.Machine.execNoriaXchkDone p bank same s
  | .nwinPush r n => Sys2Proof.Machine.execNwinPush r n s
  | .nwinCplPop r n => Sys2Proof.Machine.execNwinCplPop r n s
  | .linkRecovery gen width => Sys2Proof.Machine.execLinkRecovery gen width s
  | .hotReset => Sys2Proof.Machine.execHotReset s
  | .flrVf n => Sys2Proof.Machine.execFlrVf n s
  | .flrPf => Sys2Proof.Machine.execFlrPf s
  | .configRequest f write off v => Sys2Proof.Machine.execConfigRequest f write off v s
  | .bar2Access f write off len data ep tbit => Sys2Proof.Machine.execBar2Access f write off len data ep tbit s
  | .atomicOp f bar op off operand compare tbit => Sys2Proof.Machine.execAtomicOp f bar op off operand compare tbit s
  | .sqDoorbell g v tbit => Sys2Proof.Machine.execSqDoorbell g v tbit s
  | .cqDoorbell g v tbit => Sys2Proof.Machine.execCqDoorbell g v tbit s
  | .sqFetch g => Sys2Proof.Machine.execSqFetch g s
  | .hostReadCompletion f j ok data => Sys2Proof.Machine.execHostReadCompletion f j ok data s
  | .completionTimeout f j => Sys2Proof.Machine.execCompletionTimeout f j s
  | .loadGraph g image => Sys2Proof.Machine.execLoadGraph g image s
  | .runGraph g => Sys2Proof.Machine.execRunGraph g s
  | .plotPartEnd p => Sys2Proof.Machine.execPlotPartEnd p s
  | .runTimeout n slot => Sys2Proof.Machine.execRunTimeout n slot s
  | .copy g => Sys2Proof.Machine.execCopy g s
  | .fill g => Sys2Proof.Machine.execFill g s
  | .noriaOp g list => Sys2Proof.Machine.execNoriaOp g list s
  | .fence g => Sys2Proof.Machine.execFence g s
  | .signal g => Sys2Proof.Machine.execSignal g s
  | .wait g => Sys2Proof.Machine.execWait g s
  | .waitPoll g => Sys2Proof.Machine.execWaitPoll g s
  | .waitTimeout g => Sys2Proof.Machine.execWaitTimeout g s
  | .query g => Sys2Proof.Machine.execQuery g s
  | .selftest g => Sys2Proof.Machine.execSelftest g s
  | .spareIn g => Sys2Proof.Machine.execSpareIn g s
  | .groupForm g ids => Sys2Proof.Machine.execGroupForm g ids s
  | .groupDissolve g => Sys2Proof.Machine.execGroupDissolve g s
  | .reservedOpcode g => Sys2Proof.Machine.execReservedOpcode g s
  | .ringSetEn r g => Sys2Proof.Machine.execRingSetEn r g s
  | .ringClrEn r g => Sys2Proof.Machine.execRingClrEn r g s
  | .partAssign r n v => Sys2Proof.Machine.execPartAssign r n v s
  | .partRemove r n v => Sys2Proof.Machine.execPartRemove r n v s
  | .partSetEn r n => Sys2Proof.Machine.execPartSetEn r n s
  | .partClrEn r n => Sys2Proof.Machine.execPartClrEn r n s
  | .partReset r n => Sys2Proof.Machine.execPartReset r n s
  | .resettingEnd n trained => Sys2Proof.Machine.execResettingEnd n trained s
  | .xngLightDetect n => Sys2Proof.Machine.execXngLightDetect n s
  | .xngEqualiseDone n ok => Sys2Proof.Machine.execXngEqualiseDone n ok s
  | .xngAlignDone n spare => Sys2Proof.Machine.execXngAlignDone n spare s
  | .xngPeerDone n peer gen half encOff => Sys2Proof.Machine.execXngPeerDone n peer gen half encOff s
  | .xngAuthDone n certOk => Sys2Proof.Machine.execXngAuthDone n certOk s
  | .xngStateTimeout n => Sys2Proof.Machine.execXngStateTimeout n s
  | .xngDownExpiry n => Sys2Proof.Machine.execXngDownExpiry n s
  | .codewordLockLoss n => Sys2Proof.Machine.execCodewordLockLoss n s
  | .xngRetrain r n => Sys2Proof.Machine.execXngRetrain r n s
  | .xngRetrainDone n ok => Sys2Proof.Machine.execXngRetrainDone n ok s
  | .xngFlitReceive n flit tagOk plain => Sys2Proof.Machine.execXngFlitReceive n flit tagOk plain s
  | .tagGroupClose n => Sys2Proof.Machine.execTagGroupClose n s
  | .xngRekey r n => Sys2Proof.Machine.execXngRekey r n s
  | .rekeyDue n => Sys2Proof.Machine.execRekeyDue n s
  | .xngErrorRateTick n laneCorr => Sys2Proof.Machine.execXngErrorRateTick n laneCorr s
  | .xngPacketSend n => Sys2Proof.Machine.execXngPacketSend n s
  | .join src gid epoch digest => Sys2Proof.Machine.execJoin src gid epoch digest s
  | .joinAck src gid epoch digest => Sys2Proof.Machine.execJoinAck src gid epoch digest s
  | .joinKeepExpiry j => Sys2Proof.Machine.execJoinKeepExpiry j s
  | .grpTimeout g => Sys2Proof.Machine.execGrpTimeout g s
  | .heartbeatSend g => Sys2Proof.Machine.execHeartbeatSend g s
  | .heartbeat src gid epoch => Sys2Proof.Machine.execHeartbeat src gid epoch s
  | .heartbeatTimeout g next => Sys2Proof.Machine.execHeartbeatTimeout g next s
  | .sever src gid epoch => Sys2Proof.Machine.execSever src gid epoch s
  | .lost src gid epoch seq => Sys2Proof.Machine.execLost src gid epoch seq s
  | .e2eCredit src amount => Sys2Proof.Machine.execE2eCredit src amount s
  | .dataPacket src gid epoch seq like off data poison => Sys2Proof.Machine.execDataPacket src gid epoch seq like off data poison s
  | .collectiveDescriptor e => Sys2Proof.Machine.execCollectiveDescriptor e s
  | .collectiveComplete e j => Sys2Proof.Machine.execCollectiveComplete e j s
  | .ferryAdmission st info => Sys2Proof.Machine.execFerryAdmission st info s
  | .ferryLost st hot => Sys2Proof.Machine.execFerryLost st hot s
  | .ferryReadmit r st => Sys2Proof.Machine.execFerryReadmit r st s
  | .coreRelease r st mask => Sys2Proof.Machine.execCoreRelease r st mask s
  | .coreAtomic st k op wide addr cached operand compare rd => Sys2Proof.Machine.execCoreAtomic st k op wide addr cached operand compare rd s
  | .coreTokenTx r st v => Sys2Proof.Machine.execCoreTokenTx r st v s
  | .mediaSubmitPush r n => Sys2Proof.Machine.execMediaSubmitPush r n s
  | .mediaJobStart n => Sys2Proof.Machine.execMediaJobStart n s
  | .mediaPictureOutput n vals => Sys2Proof.Machine.execMediaPictureOutput n vals s
  | .mediaJobComplete n how => Sys2Proof.Machine.execMediaJobComplete n how s
  | .mediaCplPop r n => Sys2Proof.Machine.execMediaCplPop r n s
  | .ownerWrite r u v => Sys2Proof.Machine.execOwnerWrite r u v s
  | .svnCommit r => Sys2Proof.Machine.execSvnCommit r s
  | .revokeSubmit r => Sys2Proof.Machine.execRevokeSubmit r s
  | .keyEngineRequestDone ok => Sys2Proof.Machine.execKeyEngineRequestDone ok s
  | .spdmRequest f q => Sys2Proof.Machine.execSpdmRequest f q s
  | .ideIntegrityFail f => Sys2Proof.Machine.execIdeIntegrityFail f s
  | .lockInterface n => Sys2Proof.Machine.execLockInterface n s
  | .stopInterface n => Sys2Proof.Machine.execStopInterface n s
  | .dbgTokenSubmit token viaJtag => Sys2Proof.Machine.execDbgTokenSubmit token viaJtag s
  | .rngHealthFail => Sys2Proof.Machine.execRngHealthFail s
  | .bootStageComplete stage res => Sys2Proof.Machine.execBootStageComplete stage res s
  | .bootWatchdog => Sys2Proof.Machine.execBootWatchdog s
  | .floodBlock recv num data => Sys2Proof.Machine.execFloodBlock recv num data s
  | .floodRepairRequest => Sys2Proof.Machine.execFloodRepairRequest s
  | .floodRoundEnd => Sys2Proof.Machine.execFloodRoundEnd s
  | .coldReset r next => Sys2Proof.Machine.execColdReset r next s
  | .warmReset r => Sys2Proof.Machine.execWarmReset r s
  | .clrAttempts r => Sys2Proof.Machine.execClrAttempts r s
  | .nextSlot r v => Sys2Proof.Machine.execNextSlot r v s
  | .sstoreRead r => Sys2Proof.Machine.execSstoreRead r s
  | .sstoreProgram r => Sys2Proof.Machine.execSstoreProgram r s
  | .sstoreErase r => Sys2Proof.Machine.execSstoreErase r s
  | .sstoreDone ok => Sys2Proof.Machine.execSstoreDone ok s
  | .plotReset r st q v => Sys2Proof.Machine.execPlotReset r st q v s
  | .reachReset r st q => Sys2Proof.Machine.execReachReset r st q s
  | .resetDrainEnd sc => Sys2Proof.Machine.execResetDrainEnd sc s
  | .resetRelease sc testsOk floodOk => Sys2Proof.Machine.execResetRelease sc testsOk floodOk s
  | .fltPropPop r => Sys2Proof.Machine.execFltPropPop r s
  | .selftestStart id => Sys2Proof.Machine.execSelftestStart id s
  | .selftestDone id ok code => Sys2Proof.Machine.execSelftestDone id ok code s
  | .busyTimeout id => Sys2Proof.Machine.execBusyTimeout id s
  | .spareCopyDone st p testsOk floodOk copyOk => Sys2Proof.Machine.execSpareCopyDone st p testsOk floodOk copyOk s
  | .functionSetEn r u => Sys2Proof.Machine.execFunctionSetEn r u s
  | .functionClrEn r u => Sys2Proof.Machine.execFunctionClrEn r u s
  | .functionStopped u => Sys2Proof.Machine.execFunctionStopped u s
  | .drainLimitExpiry u => Sys2Proof.Machine.execDrainLimitExpiry u s
  | .sensorSample die j raw temp => Sys2Proof.Machine.execSensorSample die j raw temp s
  | .thermalLoop st => Sys2Proof.Machine.execThermalLoop st s
  | .sensorMean100ms st j => Sys2Proof.Machine.execSensorMean100ms st j s
  | .powerEstimate st mw => Sys2Proof.Machine.execPowerEstimate st mw s
  | .adaptiveLevelLower st => Sys2Proof.Machine.execAdaptiveLevelLower st s
  | .startPermitGrant st p t => Sys2Proof.Machine.execStartPermitGrant st p t s
  | .coolantEstimate => Sys2Proof.Machine.execCoolantEstimate s
  | .govResume r => Sys2Proof.Machine.execGovResume r s
  | .tollSample power sat => Sys2Proof.Machine.execTollSample power sat s
  | .feedFrame frame crcOk => Sys2Proof.Machine.execFeedFrame frame crcOk s
  | .feedGap => Sys2Proof.Machine.execFeedGap s
  | .tollSecond memOk => Sys2Proof.Machine.execTollSecond memOk s
  | .tollSummary => Sys2Proof.Machine.execTollSummary s
  | .identify m => Sys2Proof.Machine.execIdentify m s
  | .status m => Sys2Proof.Machine.execStatus m s
  | .readRecord m => Sys2Proof.Machine.execReadRecord m s
  | .readSummary m => Sys2Proof.Machine.execReadSummary m s
  | .signRange m => Sys2Proof.Machine.execSignRange m s
  | .readAudit m => Sys2Proof.Machine.execReadAudit m s
  | .calibrate m message pinHeld => Sys2Proof.Machine.execCalibrate m message pinHeld s
  | .mbBadOpcode m => Sys2Proof.Machine.execMbBadOpcode m s
  | .tollMbDone m => Sys2Proof.Machine.execTollMbDone m s
  | .tollCalEnChange level => Sys2Proof.Machine.execTollCalEnChange level s
  | .cntSample r set => Sys2Proof.Machine.execCntSample r set s
  | .soundingGo r => Sys2Proof.Machine.execSoundingGo r s
  | .soundingDone => Sys2Proof.Machine.execSoundingDone s
  | .stopGo r => Sys2Proof.Machine.execStopGo r s
  | .markerPacket u input stop => Sys2Proof.Machine.execMarkerPacket u input stop s
  | .unitSnapshot u => Sys2Proof.Machine.execUnitSnapshot u s
  | .markerTimeout u input => Sys2Proof.Machine.execMarkerTimeout u input s
  | .stopForce => Sys2Proof.Machine.execStopForce s
  | .stopRelease r => Sys2Proof.Machine.execStopRelease r s
  | .dbgRecSel r v => Sys2Proof.Machine.execDbgRecSel r v s
  | .dbgRecReady => Sys2Proof.Machine.execDbgRecReady s
  | .watchPointFire n => Sys2Proof.Machine.execWatchPointFire n s
  | .dbgAccess dr => Sys2Proof.Machine.execDbgAccess dr s
  | .hdrLockSet r a size => Sys2Proof.Machine.execHdrLockSet r a size s
  | .hdrIrqForce r a size v => Sys2Proof.Machine.execHdrIrqForce r a size v s
  | .registerPairLoRead r a size => Sys2Proof.Machine.execRegisterPairLoRead r a size s
  | .rcRead r a size => Sys2Proof.Machine.execRcRead r a size s
  | .registerWrite r a size v => Sys2Proof.Machine.execRegisterWrite r a size v s
  | .bargeTimerDue c => Sys2Proof.Machine.execBargeTimerDue c s
  | .bargeUnitComplete c => Sys2Proof.Machine.execBargeUnitComplete c s
  | .brgSubmitPush r n => Sys2Proof.Machine.execBrgSubmitPush r n s
  | .brgCtrlGo r c clr => Sys2Proof.Machine.execBrgCtrlGo r c clr s
  | .brgCplPop r n => Sys2Proof.Machine.execBrgCplPop r n s
  | .startInterface n => Sys2Proof.Machine.execStartInterface n s
  | .dmiAccess a => Sys2Proof.Machine.execDmiAccess a s

end Sys2Proof.Machine
end

