-- ==== Sys2Proof/Machine/Time.lean ====
section
/-!
DEFINITION. Time.lean: what an idle step does.
-/
namespace Sys2Proof.Machine

/-- R143, R586: with no command waiting, the device time base counts one unit of 10 ns (log 1). -/
def tick (s : State) : State := { s with tb := s.tb + 1 }

end Sys2Proof.Machine
end

