-- ==== Sys2Proof/Safety.lean ====
section
/-!
DEFINITION. Safety.lean: what a safe run is, and the predicates that statements about the package use. No command of the
package stops the machine: a refusal by the hardware is an answer, a log entry or a status in the next state.
-/
namespace Sys2Proof.Machine

/-- A state from which the next `k` steps answer a next state each time. -/
def SafeFor : Nat → State → Prop
  | 0, _ => True
  | k + 1, s => ∃ t, step s = .next t ∧ SafeFor k t

/-- What no command takes back: fused security versions and revoked key slots (R442, R443), the tollhouse's seal
counter, which ends at 256 (R578), drawn open values, messages sent; the queue is left to the step; memory and registers
keep their canonical form. -/
structure Grows (s t : State) : Prop where
  pending : t.pending = s.pending
  mem : Memory.wf s.dram = true → Memory.wf t.dram = true
  regs : twf regReset s.regs = true → twf regReset t.regs = true
  svn : s.fuses.svn ≤ t.fuses.svn
  revoked : ∀ i, s.fuses.revoked.getLsbD i = true → t.fuses.revoked.getLsbD i = true
  free : s.freeCtr ≤ t.freeCtr
  seals : s.toll.sealCnt ≤ t.toll.sealCnt
  sealMax : s.toll.sealCnt ≤ 256 → t.toll.sealCnt ≤ 256
  wire : s.wire <+: t.wire

/-- The fields of `State`. -/
inductive Fld where
  | tb | freeCtr | reply | clocksOff | pins | fuses | regs | caps | plots | chans | slices
  | norias | dram | chk | net | rr | links | reqTabs | stks | sensors | coolant | parts
  | rings | funcs | lndErr | cfg | errs | xngs | eps | groups | coll | cores | caches
  | media | sec | boot | store | faults | dbg | cnts | toll | wire | pending
  deriving DecidableEq, Repr

/-- Every field of the first list is in the second. -/
def sub (m w : List Fld) : Bool := m.all fun x => w.contains x

/-- The states agree in every field that `w` does not name. -/
structure SameBut (w : List Fld) (s t : State) : Prop where
  tb : Fld.tb ∉ w → t.tb = s.tb
  freeCtr : Fld.freeCtr ∉ w → t.freeCtr = s.freeCtr
  reply : Fld.reply ∉ w → t.reply = s.reply
  clocksOff : Fld.clocksOff ∉ w → t.clocksOff = s.clocksOff
  pins : Fld.pins ∉ w → t.pins = s.pins
  fuses : Fld.fuses ∉ w → t.fuses = s.fuses
  regs : Fld.regs ∉ w → t.regs = s.regs
  caps : Fld.caps ∉ w → t.caps = s.caps
  plots : Fld.plots ∉ w → t.plots = s.plots
  chans : Fld.chans ∉ w → t.chans = s.chans
  slices : Fld.slices ∉ w → t.slices = s.slices
  norias : Fld.norias ∉ w → t.norias = s.norias
  dram : Fld.dram ∉ w → t.dram = s.dram
  chk : Fld.chk ∉ w → t.chk = s.chk
  net : Fld.net ∉ w → t.net = s.net
  rr : Fld.rr ∉ w → t.rr = s.rr
  links : Fld.links ∉ w → t.links = s.links
  reqTabs : Fld.reqTabs ∉ w → t.reqTabs = s.reqTabs
  stks : Fld.stks ∉ w → t.stks = s.stks
  sensors : Fld.sensors ∉ w → t.sensors = s.sensors
  coolant : Fld.coolant ∉ w → t.coolant = s.coolant
  parts : Fld.parts ∉ w → t.parts = s.parts
  rings : Fld.rings ∉ w → t.rings = s.rings
  funcs : Fld.funcs ∉ w → t.funcs = s.funcs
  lndErr : Fld.lndErr ∉ w → t.lndErr = s.lndErr
  cfg : Fld.cfg ∉ w → t.cfg = s.cfg
  errs : Fld.errs ∉ w → t.errs = s.errs
  xngs : Fld.xngs ∉ w → t.xngs = s.xngs
  eps : Fld.eps ∉ w → t.eps = s.eps
  groups : Fld.groups ∉ w → t.groups = s.groups
  coll : Fld.coll ∉ w → t.coll = s.coll
  cores : Fld.cores ∉ w → t.cores = s.cores
  caches : Fld.caches ∉ w → t.caches = s.caches
  media : Fld.media ∉ w → t.media = s.media
  sec : Fld.sec ∉ w → t.sec = s.sec
  boot : Fld.boot ∉ w → t.boot = s.boot
  store : Fld.store ∉ w → t.store = s.store
  faults : Fld.faults ∉ w → t.faults = s.faults
  dbg : Fld.dbg ∉ w → t.dbg = s.dbg
  cnts : Fld.cnts ∉ w → t.cnts = s.cnts
  toll : Fld.toll ∉ w → t.toll = s.toll
  wire : Fld.wire ∉ w → t.wire = s.wire
  pending : Fld.pending ∉ w → t.pending = s.pending

/-- Every plot but `k` is as before. -/
def OtherPlots (k : Nat) (s t : State) : Prop := ∀ j, j ≠ k → t.plot j = s.plot j

/-- Every register but those of the list is as before. -/
def OtherRegs (l : List Nat) (s t : State) : Prop := ∀ a, a ∉ l → t.reg a = s.reg a

/-- R332, R334, R337: command `c` of opcode `op` is at the front of ring `g`, may start and is not refused. -/
def Starts (s : State) (g op : Nat) (c : Cmd) : Prop := frontCmd s g (· == op) = some c ∧ refusal s g c = none

/-- R333: the bytes of the completion entry that ring `g` writes next for command `c`. -/
def cplBytes (s : State) (g : Nat) (c : Cmd) (status value : Nat) : List Byte :=
  bytesOf [BitVec.ofNat 32 (putBits (cplEntry g c status value).w0.toNat 31 1 (b2n (s.ring g).phase)),
    (cplEntry g c status value).w1, (cplEntry g c status value).w2, 0]

/-- R333, R334: unless it is quiet and ended OK, the command's completion entry is written where there is room. -/
def Answers (g : Nat) (c : Cmd) (status value : Nat) (s u : State) : Prop :=
  (c.quiet = false ∨ status ≠ 0) → cqRoom s g = true →
    ∃ a, Msg.hostWrite (g / 4) a (cplBytes s g c status value) false ∈ u.wire

/-- Every ring but `g` is as before. -/
def OtherRings (g : Nat) (s t : State) : Prop := ∀ j, j ≠ g → t.ring j = s.ring j

/-- Every partition but `n` is as before. -/
def OtherParts (n : Nat) (s t : State) : Prop := ∀ j, j ≠ n → t.part j = s.part j

/-- What every step keeps: memory and registers in canonical form, the seal counter within its limit (R578), and clocks
that the hard limit stopped (R22, R532) only while THERMTRIP_N is latched. -/
structure Inv (s : State) : Prop where
  mem : Memory.wf s.dram = true
  regs : twf regReset s.regs = true
  seals : s.toll.sealCnt ≤ 256
  trip : s.clocksOff = true → s.pins.thermtrip = true

/-- The fields of `State` that a command can change. -/
def footprint : Instr → List Fld
  | .pwrGoodRise =>
    [.freeCtr, .pins, .regs, .boot, .toll, .wire]
  | .pwrGoodFall =>
    [.tb, .clocksOff, .pins, .regs, .caps, .plots, .chans, .slices, .norias, .dram, .chk, .net, .rr, .links, .reqTabs,
    .stks, .sensors, .coolant, .parts, .rings, .funcs, .lndErr, .cfg, .errs, .xngs, .eps, .groups, .coll, .cores,
    .caches, .media, .sec, .boot, .faults, .dbg, .cnts, .toll]
  | .perstNAssert =>
    [.pins, .regs, .caps, .plots, .chans, .slices, .norias, .dram, .chk, .net, .rr, .links, .reqTabs, .stks, .sensors,
    .coolant, .parts, .rings, .funcs, .lndErr, .cfg, .errs, .xngs, .eps, .groups, .coll, .cores, .caches, .media,
    .sec, .boot, .faults, .dbg, .cnts, .toll]
  | .perstNRelease _ =>
    [.freeCtr, .pins, .regs, .boot, .wire]
  | .refclkSysAbsent =>
    [.pins, .regs, .stks, .cores, .cnts, .wire]
  | .refclkXngAbsent =>
    [.pins, .regs, .slices, .dram, .chk, .net, .errs, .xngs, .eps, .coll, .cores, .caches, .cnts, .wire]
  | .refclkXngStable =>
    [.pins, .xngs]
  | .flowPulse =>
    [.regs, .coolant]
  | .flowStop | .coolantSensorRead _ _ =>
    [.regs, .coolant, .errs, .cores, .cnts, .wire]
  | .hardLimitTrip | .analogueComparatorTrip _ =>
    [.clocksOff, .pins, .stks]
  | .pstateDecision _ _ | .voutStepSettled _ _ | .clockSwitch _ _ =>
    [.regs, .stks, .cores, .cnts, .wire]
  | .lookaheadEntry _ _ | .sparseMetaReject _ _ | .haltRequest _ _ | .stalledPushAccept _ | .vectorDescStart _
    | .noriaDispatch _ =>
    [.regs, .plots]
  | .boreStart _ _ | .boreEntryDone _ _ | .shadowLoadStart _ _ | .shadowLoaded _ _ | .shadowFree _ _
    | .rampDownStart _ _ | .columnGroupDisable _ _ | .rampUpStart _ _ | .columnGroupEnable _ _ | .arrayHalted _ _ =>
    [.plots]
  | .passStart _ _ =>
    [.regs, .plots, .cnts]
  | .vectorIssue _ _ =>
    [.freeCtr, .regs, .plots, .stks, .cnts]
  | .accWrite _ _ _ | .drainRow _ _ | .vectorDescComplete _ =>
    [.regs, .plots, .net, .parts, .dbg, .cnts]
  | .arrRngHiWrite _ _ _ | .stwWdogKick _ _ | .pqPush _ _ _ | .vecRngHiWrite _ _ _ | .pqSkip _ _ _ | .pqSetEn _ _ _ =>
    [.regs, .plots, .cores, .dbg, .cnts]
  | .arrCfgWrite _ _ _ | .outputSlotWrite _ _ _ _ _ | .tokenCounterWrite _ _ _ _ | .dfLinkRetrain _ _
    | .dfLinkDisable _ _ _ | .commonsCfgWrite _ _ _ | .coreRelease _ _ _ | .cntSample _ _ | .soundingGo _ | .stopGo _
    | .dbgRecSel _ _ =>
    [.regs, .cores, .dbg, .cnts]
  | .stewardException _ _ _ =>
    [.plots, .dbg]
  | .stwWdogFault _ _ | .stewardWatchdogExpiry _ | .resetRelease _ _ _ =>
    [.freeCtr, .regs, .plots, .chans, .norias, .net, .reqTabs, .stks, .parts, .rings, .errs, .cores, .faults, .dbg,
    .cnts, .wire]
  | .localSignalArrive _ _ =>
    [.regs, .plots, .dbg]
  | .pqCplPop _ _ =>
    [.freeCtr, .reply, .regs, .caps, .plots, .cores, .dbg, .cnts]
  | .pqFlush _ _ _ =>
    [.regs, .plots, .net, .parts, .cores, .dbg, .cnts]
  | .pqClrEn _ _ _ =>
    [.freeCtr, .regs, .plots, .chans, .norias, .net, .reqTabs, .stks, .parts, .rings, .cores, .dbg, .cnts, .wire]
  | .bargeHandoff _ =>
    [.regs, .plots, .chans, .reqTabs]
  | .headgateWrite _ _ _ _ _ =>
    [.regs, .plots, .net, .cores, .dbg, .cnts]
  | .addToken _ _ _ _ | .creditToken _ _ _ _ | .wake _ _ | .reservedToken _ _ _ =>
    [.regs, .net, .dbg, .cnts]
  | .fencedToken _ _ _ =>
    [.regs, .plots, .chans, .net, .parts, .dbg, .cnts]
  | .bargeGo _ _ _ =>
    [.regs, .chans, .net, .reqTabs, .dbg, .cnts]
  | .markerToken _ _ _ | .soundingDone | .markerPacket _ _ _ | .watchPointFire _ =>
    [.regs, .dbg, .cnts]
  | .pqTokenTx _ _ _ | .coreTokenTx _ _ _ =>
    [.regs, .net, .cores, .dbg, .cnts]
  | .streamFlitSend _ _ =>
    [.freeCtr, .regs, .plots, .chans, .slices, .dram, .chk, .net, .reqTabs, .parts, .errs, .cores, .dbg, .cnts, .wire]
  | .streamFlitArrive _ _ _ _ _ _ =>
    [.regs, .plots, .slices, .dram, .chk, .net, .errs, .eps, .cores, .caches, .dbg, .cnts, .wire]
  | .headgateConsume _ _ =>
    [.freeCtr, .regs, .plots, .chans, .slices, .dram, .chk, .net, .reqTabs, .errs, .cores, .cnts, .wire]
  | .creditBatchTimeout _ _ =>
    [.regs, .plots, .net, .cnts]
  | .routerForward _ _ _ =>
    [.net, .rr]
  | .rhFenceSet _ _ _ _ =>
    [.freeCtr, .regs, .plots, .norias, .net, .stks, .parts, .rings, .cores, .dbg, .cnts, .wire]
  | .d2dFrameReceive _ _ =>
    [.regs, .links, .cnts, .wire]
  | .replayRateTick _ =>
    [.regs, .links, .errs, .cores, .wire]
  | .d2dRetrainDone _ _ _ =>
    [.regs, .links]
  | .d2dLinkDown _ _ =>
    [.regs, .plots, .chans, .norias, .net, .links, .reqTabs, .stks, .parts, .rings, .funcs, .errs, .groups, .cores,
    .faults, .dbg, .cnts, .wire]
  | .cisternRead _ _ _ _ =>
    [.reply, .regs, .slices, .dram, .chk, .errs, .cores, .cnts, .wire]
  | .cisternWrite _ _ _ _ _ | .weirOpApply _ _ _ _ _ _ _ | .atomicOp _ _ _ _ _ _ _ =>
    [.reply, .regs, .slices, .dram, .chk, .errs, .cores, .caches, .cnts, .wire]
  | .scatterAddPacketSend _ =>
    [.freeCtr, .regs, .plots, .chans, .slices, .dram, .chk, .reqTabs, .errs, .eps, .coll, .cores, .caches, .cnts, .wire]
  | .bankRefresh _ _ =>
    [.regs, .slices, .cnts]
  | .bandApply _ =>
    [.regs, .slices, .dram, .chk, .stks, .errs, .cores, .caches, .cnts, .wire]
  | .fillSegmentDone _ _ | .pprDone _ =>
    [.regs, .slices, .dram, .chk, .errs, .cores, .caches, .cnts, .wire]
  | .demandScrub _ | .patrolScrub _ =>
    [.regs, .slices, .dram, .chk, .errs, .cores, .cnts, .wire]
  | .eccWindowTick _ | .linkRecovery _ _ | .lockInterface _ | .startInterface _ =>
    [.regs]
  | .errRptPop _ _ =>
    [.freeCtr, .reply, .regs, .errs, .cores, .dbg, .cnts]
  | .pprGo _ _ _ =>
    [.regs, .slices, .cores, .dbg, .cnts]
  | .commonsRemapBegin _ _ | .commonsRemapWrite _ _ _ | .commonsRemapClear _ _ _ | .commonsRemapStart _ _
    | .commonsRemapCancel _ _ | .nwinPush _ _ =>
    [.regs, .parts, .cores, .dbg, .cnts]
  | .remapCopyDone _ =>
    [.regs, .slices, .dram, .chk, .parts, .errs, .cores, .cnts, .wire]
  | .remapSwitch _ =>
    [.regs, .parts]
  | .remapDone _ =>
    [.regs, .parts, .errs, .cores, .wire]
  | .noriaCmdArrive _ =>
    [.regs, .plots, .norias, .net, .parts, .rings, .cores, .dbg, .cnts, .wire]
  | .noriaRetryResend _ =>
    [.plots, .parts]
  | .bankPermitGrant _ _ =>
    [.regs, .norias, .cnts]
  | .noriaStepStart _ _ =>
    [.norias]
  | .noriaStepEnd _ _ =>
    [.regs, .plots, .slices, .norias, .dram, .chk, .net, .stks, .parts, .rings, .errs, .cores, .caches, .dbg, .cnts,
    .wire]
  | .noriaXchkPeriod _ =>
    [.regs, .norias]
  | .noriaXchkGo _ _ _ =>
    [.regs, .norias, .cores, .dbg, .cnts]
  | .noriaXchkDone _ _ _ =>
    [.regs, .norias, .errs, .cores, .cnts, .wire]
  | .nwinCplPop _ _ =>
    [.freeCtr, .reply, .regs, .parts, .cores, .dbg, .cnts, .wire]
  | .hotReset | .ferryLost _ _ | .coldReset _ _ | .warmReset _ | .resetDrainEnd _ =>
    [.freeCtr, .regs, .caps, .plots, .chans, .slices, .norias, .dram, .chk, .net, .rr, .links, .reqTabs, .stks,
    .sensors, .coolant, .parts, .rings, .funcs, .lndErr, .cfg, .errs, .xngs, .eps, .groups, .coll, .cores, .caches,
    .media, .sec, .boot, .faults, .dbg, .cnts, .toll, .wire]
  | .flrVf _ =>
    [.regs, .parts, .cfg, .cores, .faults, .dbg, .wire]
  | .flrPf =>
    [.regs, .chans, .net, .reqTabs, .parts, .rings, .funcs, .cfg, .errs, .groups, .cores, .faults, .wire]
  | .configRequest _ _ _ _ =>
    [.reply, .regs, .cfg, .wire]
  | .bar2Access _ _ _ _ _ _ _ =>
    [.freeCtr, .reply, .regs, .slices, .dram, .chk, .lndErr, .errs, .cores, .caches, .dbg, .cnts, .wire]
  | .sqDoorbell _ _ _ =>
    [.regs, .rings, .dbg]
  | .cqDoorbell _ _ _ =>
    [.regs, .rings, .cores, .dbg, .wire]
  | .sqFetch _ =>
    [.funcs]
  | .hostReadCompletion _ _ _ _ =>
    [.regs, .slices, .dram, .chk, .rings, .funcs, .errs, .cores, .caches, .dbg, .cnts, .wire]
  | .completionTimeout _ _ =>
    [.regs, .rings, .funcs, .lndErr, .cores, .wire]
  | .loadGraph _ _ =>
    [.freeCtr, .regs, .plots, .slices, .dram, .chk, .parts, .rings, .errs, .cores, .sec, .cnts, .wire]
  | .runGraph _ =>
    [.regs, .plots, .parts, .rings, .cores, .cnts, .wire]
  | .plotPartEnd _ =>
    [.plots, .parts, .rings, .cores, .wire]
  | .runTimeout _ _ =>
    [.parts, .rings, .cores, .wire]
  | .copy _ =>
    [.freeCtr, .regs, .chans, .slices, .dram, .chk, .net, .reqTabs, .rings, .funcs, .errs, .cores, .cnts, .wire]
  | .fill _ =>
    [.regs, .chans, .net, .reqTabs, .rings, .cores, .wire]
  | .noriaOp _ _ =>
    [.freeCtr, .regs, .slices, .dram, .chk, .parts, .rings, .errs, .cores, .cnts, .wire]
  | .fence _ | .wait _ | .reservedOpcode _ =>
    [.rings, .cores, .wire]
  | .signal _ =>
    [.regs, .slices, .dram, .chk, .net, .rings, .errs, .cores, .caches, .cnts, .wire]
  | .waitPoll _ | .waitTimeout _ =>
    [.freeCtr, .regs, .slices, .dram, .chk, .rings, .errs, .cores, .cnts, .wire]
  | .query _ =>
    [.rings, .cores, .cnts, .wire]
  | .selftest _ | .spareIn _ | .busyTimeout _ =>
    [.rings, .cores, .faults, .wire]
  | .groupForm _ _ =>
    [.regs, .rings, .groups, .coll, .cores, .wire]
  | .groupDissolve _ =>
    [.regs, .slices, .dram, .chk, .net, .rings, .errs, .eps, .groups, .cores, .caches, .cnts, .wire]
  | .ringSetEn _ _ =>
    [.regs, .rings, .cores, .dbg, .cnts]
  | .ringClrEn _ _ =>
    [.regs, .chans, .net, .reqTabs, .parts, .rings, .funcs, .groups, .cores, .faults, .dbg, .cnts, .wire]
  | .partAssign _ _ _ | .partRemove _ _ _ =>
    [.regs, .caps, .plots, .chans, .slices, .norias, .dram, .chk, .net, .links, .reqTabs, .stks, .sensors, .parts,
    .cores, .caches, .faults, .dbg, .cnts, .wire]
  | .partSetEn _ _ =>
    [.regs, .parts, .cores, .dbg, .cnts, .wire]
  | .partClrEn _ _ =>
    [.freeCtr, .regs, .plots, .chans, .norias, .net, .reqTabs, .stks, .parts, .rings, .funcs, .groups, .cores,
    .faults, .dbg, .cnts, .wire]
  | .partReset _ _ =>
    [.regs, .parts, .cores, .faults, .dbg, .cnts, .wire]
  | .resettingEnd _ _ =>
    [.regs, .caps, .stks, .parts, .cores, .faults, .wire]
  | .xngLightDetect _ | .xngDownExpiry _ =>
    [.xngs]
  | .xngEqualiseDone _ _ | .xngPeerDone _ _ _ _ _ | .xngAuthDone _ _ | .xngStateTimeout _ | .codewordLockLoss _
    | .xngRetrainDone _ _ | .xngFlitReceive _ _ _ _ | .rekeyDue _ | .xngErrorRateTick _ _ | .rngHealthFail =>
    [.regs, .slices, .dram, .chk, .net, .errs, .xngs, .eps, .coll, .cores, .caches, .cnts, .wire]
  | .xngAlignDone _ _ =>
    [.regs, .xngs]
  | .xngRetrain _ _ | .xngRekey _ _ =>
    [.regs, .slices, .dram, .chk, .net, .errs, .xngs, .eps, .coll, .cores, .caches, .dbg, .cnts, .wire]
  | .tagGroupClose _ =>
    [.freeCtr, .regs, .xngs, .cnts, .wire]
  | .xngPacketSend _ =>
    [.freeCtr, .regs, .xngs, .eps, .coll, .cnts, .wire]
  | .join _ _ _ _ | .joinAck _ _ _ _ =>
    [.regs, .rings, .xngs, .groups, .coll, .cores, .cnts, .wire]
  | .joinKeepExpiry _ | .heartbeatSend _ =>
    [.coll]
  | .grpTimeout _ =>
    [.rings, .groups, .cores, .wire]
  | .heartbeat _ _ _ =>
    [.regs, .xngs, .groups, .coll, .cnts]
  | .heartbeatTimeout _ _ =>
    [.regs, .slices, .dram, .chk, .net, .errs, .eps, .groups, .coll, .cores, .caches, .cnts, .wire]
  | .sever _ _ _ | .lost _ _ _ _ | .dataPacket _ _ _ _ _ _ _ _ =>
    [.regs, .slices, .dram, .chk, .net, .errs, .xngs, .eps, .groups, .coll, .cores, .caches, .cnts, .wire]
  | .e2eCredit _ _ =>
    [.xngs, .coll]
  | .collectiveDescriptor _ =>
    [.freeCtr, .regs, .slices, .dram, .chk, .net, .errs, .eps, .groups, .coll, .cores, .caches, .cnts, .wire]
  | .collectiveComplete _ _ =>
    [.regs, .slices, .dram, .chk, .net, .errs, .eps, .cores, .caches, .cnts, .wire]
  | .ferryAdmission _ _ =>
    [.freeCtr, .regs, .xngs, .sec, .boot, .store, .wire]
  | .ferryReadmit _ _ =>
    [.regs, .slices, .dram, .chk, .net, .errs, .xngs, .eps, .coll, .cores, .caches, .sec, .dbg, .cnts, .wire]
  | .coreAtomic _ _ _ _ _ _ _ _ _ =>
    [.freeCtr, .regs, .slices, .dram, .chk, .errs, .cores, .caches, .dbg, .cnts, .wire]
  | .mediaSubmitPush _ _ =>
    [.regs, .cores, .media, .dbg, .cnts]
  | .mediaJobStart _ =>
    [.regs, .net, .media]
  | .mediaPictureOutput _ _ =>
    [.regs, .slices, .dram, .chk, .errs, .cores, .caches, .media, .cnts, .wire]
  | .mediaJobComplete _ _ =>
    [.freeCtr, .regs, .slices, .dram, .chk, .net, .errs, .cores, .media, .cnts, .wire]
  | .mediaCplPop _ _ =>
    [.freeCtr, .reply, .regs, .caps, .cores, .media, .dbg, .cnts]
  | .ownerWrite _ _ _ =>
    [.regs, .chans, .reqTabs, .eps, .cores, .media, .dbg, .cnts]
  | .svnCommit _ =>
    [.regs, .cores, .sec, .dbg, .cnts]
  | .revokeSubmit _ =>
    [.freeCtr, .regs, .slices, .dram, .chk, .errs, .cores, .sec, .dbg, .cnts, .wire]
  | .keyEngineRequestDone _ =>
    [.freeCtr, .fuses, .regs, .sec]
  | .spdmRequest _ _ =>
    [.freeCtr, .regs, .sec, .wire]
  | .ideIntegrityFail _ =>
    [.regs, .parts, .lndErr, .cores, .sec, .faults, .dbg, .wire]
  | .stopInterface _ =>
    [.regs, .parts, .cores, .faults, .dbg, .wire]
  | .dbgTokenSubmit _ _ =>
    [.regs, .parts, .cores, .sec, .faults, .dbg, .cnts, .wire]
  | .bootStageComplete _ _ | .bootWatchdog | .hdrLockSet _ _ _ | .hdrIrqForce _ _ _ _ | .registerWrite _ _ _ _ =>
    [.freeCtr, .regs, .caps, .plots, .chans, .slices, .norias, .dram, .chk, .net, .rr, .links, .reqTabs, .stks,
    .sensors, .coolant, .parts, .rings, .funcs, .lndErr, .cfg, .errs, .xngs, .eps, .groups, .coll, .cores, .caches,
    .media, .sec, .boot, .store, .faults, .dbg, .cnts, .toll, .wire]
  | .floodBlock _ _ _ =>
    [.plots, .slices, .stks, .boot]
  | .floodRepairRequest =>
    [.regs, .boot]
  | .floodRoundEnd =>
    [.freeCtr, .regs, .plots, .chans, .slices, .norias, .net, .reqTabs, .stks, .parts, .rings, .errs, .cores, .boot,
    .faults, .dbg, .cnts, .wire]
  | .clrAttempts _ =>
    [.regs, .cores, .store, .dbg, .cnts]
  | .nextSlot _ _ | .sstoreRead _ | .sstoreProgram _ | .sstoreErase _ =>
    [.regs, .cores, .boot, .dbg, .cnts]
  | .sstoreDone _ =>
    [.regs, .boot, .store]
  | .plotReset _ _ _ _ | .reachReset _ _ _ =>
    [.regs, .cores, .faults, .dbg, .cnts]
  | .fltPropPop _ =>
    [.freeCtr, .reply, .regs, .caps, .cores, .faults, .dbg, .cnts]
  | .selftestStart _ =>
    [.regs, .plots, .norias, .sensors, .faults]
  | .selftestDone _ _ _ =>
    [.freeCtr, .regs, .plots, .chans, .slices, .norias, .dram, .chk, .net, .reqTabs, .stks, .sensors, .parts, .rings,
    .errs, .cores, .faults, .dbg, .cnts, .wire]
  | .spareCopyDone _ _ _ _ _ =>
    [.regs, .caps, .plots, .chans, .slices, .norias, .dram, .chk, .net, .reqTabs, .stks, .parts, .rings, .errs,
    .cores, .sec, .faults, .dbg, .cnts, .wire]
  | .functionSetEn _ _ =>
    [.regs, .plots, .chans, .parts, .rings, .xngs, .eps, .cores, .media, .dbg, .cnts, .wire]
  | .functionClrEn _ _ | .drainLimitExpiry _ =>
    [.freeCtr, .regs, .plots, .chans, .slices, .norias, .dram, .chk, .net, .reqTabs, .stks, .parts, .rings, .funcs,
    .errs, .xngs, .eps, .groups, .coll, .cores, .caches, .media, .faults, .dbg, .cnts, .wire]
  | .functionStopped _ =>
    [.plots, .chans, .parts, .rings, .xngs, .eps, .cores, .media, .wire]
  | .sensorSample _ _ _ _ =>
    [.regs, .sensors, .errs, .cores, .cnts, .wire]
  | .thermalLoop _ =>
    [.regs, .stks, .errs, .cores, .cnts, .wire]
  | .sensorMean100ms _ _ =>
    [.regs, .sensors, .errs, .cores, .wire]
  | .powerEstimate _ _ =>
    [.regs, .stks, .cnts]
  | .adaptiveLevelLower _ =>
    [.stks]
  | .startPermitGrant _ _ _ =>
    [.plots, .stks]
  | .coolantEstimate =>
    [.regs, .stks, .coolant, .errs, .cores, .cnts, .wire]
  | .govResume _ =>
    [.regs, .coolant, .cores, .dbg, .cnts]
  | .tollSample _ _ | .feedGap | .identify _ | .status _ | .readRecord _ | .readSummary _ | .readAudit _
    | .calibrate _ _ _ | .mbBadOpcode _ =>
    [.toll]
  | .feedFrame _ _ =>
    [.stks, .toll]
  | .tollSecond _ | .tollSummary | .signRange _ =>
    [.freeCtr, .toll]
  | .tollMbDone _ =>
    [.regs, .toll, .wire]
  | .tollCalEnChange _ =>
    [.pins, .toll]
  | .unitSnapshot _ | .stopForce =>
    [.regs, .dbg, .wire]
  | .markerTimeout _ _ | .dbgRecReady =>
    [.regs, .dbg]
  | .stopRelease _ =>
    [.regs, .plots, .chans, .slices, .norias, .dram, .chk, .net, .reqTabs, .stks, .parts, .rings, .funcs, .errs,
    .xngs, .groups, .coll, .cores, .caches, .faults, .dbg, .cnts, .wire]
  | .dbgAccess _ =>
    [.freeCtr, .reply, .regs, .caps, .plots, .chans, .slices, .norias, .dram, .chk, .net, .rr, .links, .reqTabs,
    .stks, .sensors, .coolant, .parts, .rings, .funcs, .lndErr, .cfg, .errs, .xngs, .eps, .groups, .coll, .cores,
    .caches, .media, .sec, .boot, .store, .faults, .dbg, .cnts, .toll, .wire]
  | .registerPairLoRead _ _ _ | .rcRead _ _ _ =>
    [.freeCtr, .reply, .regs, .caps, .plots, .chans, .net, .reqTabs, .parts, .rings, .errs, .cores, .media, .faults,
    .dbg, .cnts, .wire]
  | .bargeTimerDue _ =>
    [.regs, .chans, .reqTabs]
  | .bargeUnitComplete _ =>
    [.freeCtr, .regs, .plots, .chans, .slices, .dram, .chk, .net, .reqTabs, .parts, .rings, .errs, .cores, .caches,
    .dbg, .cnts, .wire]
  | .brgSubmitPush _ _ =>
    [.regs, .chans, .net, .reqTabs, .rings, .cores, .dbg, .cnts, .wire]
  | .brgCtrlGo _ _ _ =>
    [.regs, .chans, .reqTabs, .cores, .dbg, .cnts]
  | .brgCplPop _ _ =>
    [.freeCtr, .reply, .regs, .chans, .net, .reqTabs, .rings, .cores, .dbg, .cnts, .wire]
  | .dmiAccess _ =>
    [.freeCtr, .reply, .plots, .cores, .dbg]

end Sys2Proof.Machine
end

