-- ==== Sys2Proof/Certificates/Slice0/Obligations.lean ====
section
/-!
DEFINITION. Obligations.lean: the statements about the package, by the block they are about. Hypotheses are on the state and the
operands alone; every conclusion is the next state that the command answers, what it holds, and what it leaves as it was.
-/
open Sys2Proof Sys2Proof.Machine

/-- The step contract: with a command at the front of the queue a step is that command's exec with the queue's rest; on
an empty queue the time base counts one unit and nothing else happens (the model's choice, log 1). -/
def Obligations.AStepRunsTheFrontCommand : Prop :=
  (∀ (c : Instr) (s : State), step { s with pending := c :: s.pending } = exec c s) ∧
  (∀ s : State, s.pending = [] → ∃ u, step s = .next u ∧ SameBut [.tb] s u ∧ u.tb = s.tb + 1)

/-- Every command completes in every state, takes itself and nothing else off the queue, and no run of steps ever stops. -/
def Obligations.EveryCommandCompletes : Prop :=
  (∀ (c : Instr) (s : State), ∃ u, exec c s = .next u ∧ u.pending = s.pending) ∧
  (∀ s : State, ∃ u, step s = .next u ∧ u.pending = s.pending.tail) ∧ ∀ (k : Nat) (s : State), SafeFor k s

/-- The frame of all commands: each changes at most the parts of the state that `footprint` lists for it. -/
def Obligations.CommandsKeepToTheirFields : Prop := ∀ (c : Instr) (s u : State), exec c s = .next u → SameBut (footprint c) s u

/-- R22, R442, R443, R578: an invariant of every step: memory and registers keep their canonical form, the seal counter
stays within 256, and stopped clocks mean a latched THERMTRIP_N. The model's choices it rests on: log 8, 38. -/
def Obligations.StepsKeepTheInvariant : Prop := ∀ s u : State, Inv s → step s = .next u → Inv u

/-- The state after reset has the invariant. The model's choices it rests on: log 8, 38. -/
def Obligations.TheInvariantHoldsAtReset : Prop := Inv State.reset

/-- R442, R443, R578: no step lowers the fused security version, restores a revoked key slot, lowers the seal counter,
or takes back a message sent. -/
def Obligations.StepsNeverTakeBack : Prop :=
  ∀ s u : State, step s = .next u →
    s.fuses.svn ≤ u.fuses.svn ∧ (∀ i, s.fuses.revoked.getLsbD i = true → u.fuses.revoked.getLsbD i = true) ∧
    s.toll.sealCnt ≤ u.toll.sealCnt ∧ s.wire <+: u.wire ∧ s.freeCtr ≤ u.freeCtr

/-- R10, R18, R24, R68, R93, R327, R335, R500: reset leaves the values that the register tables give, every partition
free, every ring and function stopped, no command waiting, nothing stored and nothing sent; power and PERST_N are low
until events say otherwise. The model's choices it rests on: log 10. -/
def Obligations.ResetLeavesTheTablesValues : Prop :=
  (∀ a, State.reset.reg a = regReset a) ∧ State.reset.pending = [] ∧ State.reset.dram = [] ∧ State.reset.net = [] ∧
  State.reset.wire = [] ∧ (∀ n, (State.reset.part n).state = .free ∧ State.reset.part n = {}) ∧
  (∀ g, (State.reset.ring g).state = .stopped ∧ (State.reset.ring g).queue = []) ∧
  (∀ k < 512, State.reset.fld (arrReg k 0x040) 0 4 = 6 ∧ State.reset.fld (arrReg k 0x048) 0 32 = 1) ∧
  State.reset.pins.pwrGood = false ∧ pkgUp State.reset = false ∧ bootState State.reset = 0 ∧ State.reset.toll.on = false

/-- R504: setting EN on a STOPPED partition makes it RUNNING; its rings stay as they are until each is enabled. -/
def Obligations.EnablingAPartitionLeavesItsRingsStopped : Prop :=
  ∀ (s : State) (r : Req) (n : Fin 16), reach s r false (partCtrlReg r n.val) = .ok → (s.part n.val).state = .stopped →
    ∃ u, exec (.partSetEn r n) s = .next u ∧ (u.part n.val).state = .running ∧ u.rings = s.rings ∧
      ∀ (q : Req) (g : RingId) (k : Nat), k = ringKey g → k ∈ ownRings n.val → (s.ring k).state = .stopped →
        reach u q false (ringReg k 0x14) = .ok →
        ∃ v, exec (.ringSetEn q g) u = .next v ∧ (v.ring k).state = .running ∧ ∀ j, j ≠ k → v.ring j = s.ring j

/-- R532: the comparator of a logic die that is present, or of the I/O die, pulls THERMTRIP_N low in every powered
state, whatever the governors, the firmware, a stop, a reset or the clocks are doing. -/
def Obligations.TheComparatorCannotBeDisabled : Prop :=
  ∀ (s : State) (die : Fin 17), s.pins.pwrGood = true → die.val = 16 ∨ activeStack s die.val = true →
    ∃ u, step { s with pending := .analogueComparatorTrip die :: s.pending } = .next u ∧ u.pins.thermtrip = true ∧
      u.regs = s.regs ∧ u.pending = s.pending

/-- R518: on a virtual function's ring SELFTEST takes a plot, reach or stack scope of its own partition; a link or
sensor scope, or a scope outside the partition, completes with NOT_PERMITTED and starts nothing. -/
def Obligations.VirtualFunctionsTestTheirOwnScopes : Prop :=
  ∀ (s : State) (g : RingId) (k : Nat) (c : Cmd), k = ringKey g → 4 ≤ k → Starts s k 10 c → testScope (c.field 24 4) = some (c.byte 8) →
    scopeIndexOk s (c.byte 8) (c.byte 16) (c.byte 17) = true →
    (c.byte 8 ≤ 2 → c.byte 16 ∈ arcOf s (cmdPart k c) → s.faults.tests.length < 32 →
      ∃ u t, exec (.selftest g) s = .next u ∧ u.faults.tests = s.faults.tests ++ [t] ∧ t.job = some (k / 4, k, c.id) ∧
        t.scopeKind.toNat = c.byte 8 ∧ t.stack = c.byte 16 ∧ t.idx = c.byte 17) ∧
    (2 < c.byte 8 ∨ c.byte 16 ∉ arcOf s (cmdPart k c) →
      ∃ u, exec (.selftest g) s = .next u ∧ SameBut [.rings, .cores, .wire] s u ∧ Answers k c 0x05 0 s u ∧
        (u.ring k).queue = (s.ring k).queue.drop 1)

/-- R52, R121: the head of a running array queue enters the lookahead with its weight load resolved, or is rejected and
holds its queue; nothing else of the package but that plot and its interrupt status changes. The model's choices it
rests on: log 33. -/
def Obligations.LookaheadTakesTheQueueHead : Prop :=
  ∀ (s : State) (p : PlotId) (t : Nat) (d : Desc) (rest : List Desc),
    lookaheadOk s (plotKey p) t = true → (s.plot (plotKey p)).qa.entries = d :: rest →
    ∃ u, exec (.lookaheadEntry p t) s = .next u ∧ SameBut [.plots, .regs] s u ∧ OtherPlots (plotKey p) s u ∧
      (u.arr (plotKey p)).now = t ∧
      match passCheck s (plotKey p) d with
      | none => (u.plot (plotKey p)).qa.entries = rest ∧ u.regs = s.regs ∧
          ∃ x, (u.arr (plotKey p)).lane = (s.arr (plotKey p)).lane ++ [x] ∧ x.desc = d ∧ x.seq = (s.arr (plotKey p)).nextSeq ∧
            x.wload = resolveLoad (s.arr (plotKey p)) d ∧ x.rowsLeft = pL d ∧ x.started = false ∧ x.enteredAt = t
      | some st => (u.plot (plotKey p)).qa.entries = d :: rest ∧ (u.plot (plotKey p)).qa.held = true ∧
          (u.plot (plotKey p)).qa.heldStatus = BitVec.ofNat 8 st ∧ (u.arr (plotKey p)).lane = (s.arr (plotKey p)).lane

/-- R49 to R51, R61, R43: what the weight-load commands leave in the array: the feed, the chains, the shadow set; a tile
that breaks the index rule is discarded and its pass rejected. The model's choices it rests on: log 33. -/
def Obligations.WeightLoadsMoveTheTile : Prop :=
  ∀ (s : State) (p : PlotId) (t : Nat),
    (boreOk s (plotKey p) t = true → ∃ x u, nextLoad (s.arr (plotKey p)) = some x ∧ exec (.boreStart p t) s = .next u ∧
      SameBut [.plots] s u ∧ OtherPlots (plotKey p) s u ∧ (u.arr (plotKey p)).shadow = (s.arr (plotKey p)).shadow ∧
      (u.arr (plotKey p)).feed = some { seq := x.seq, bore := true, start := t, tile := readTile (s.plot (plotKey p)) x.desc }) ∧
    (shadowLoadOk s (plotKey p) t = true → ∃ x u, nextLoad (s.arr (plotKey p)) = some x ∧
      exec (.shadowLoadStart p t) s = .next u ∧ SameBut [.plots] s u ∧ OtherPlots (plotKey p) s u ∧
      (u.arr (plotKey p)).shadow = .loading ∧
      (u.arr (plotKey p)).feed = some { seq := x.seq, bore := false, start := t, tile := readTile (s.plot (plotKey p)) x.desc }) ∧
    (boreDoneOk s (plotKey p) t = true → ∃ f u, (s.arr (plotKey p)).feed = some f ∧ exec (.boreEntryDone p t) s = .next u ∧
      SameBut [.plots] s u ∧ OtherPlots (plotKey p) s u ∧ (u.arr (plotKey p)).feed = none ∧
      (u.arr (plotKey p)).transit = some (f.seq, f.tile) ∧ (u.arr (plotKey p)).active = (s.arr (plotKey p)).active) ∧
    (shadowDoneOk s (plotKey p) t = true → ∃ f u, (s.arr (plotKey p)).feed = some f ∧ exec (.shadowLoaded p t) s = .next u ∧
      SameBut [.plots] s u ∧ OtherPlots (plotKey p) s u ∧ (u.arr (plotKey p)).feed = none ∧
      (u.arr (plotKey p)).shadow = .loaded ∧ (u.arr (plotKey p)).shadowTile = (f.seq, f.tile)) ∧
    (sparseBadOk s (plotKey p) t = true → ∃ u, exec (.sparseMetaReject p t) s = .next u ∧
      SameBut [.plots, .regs] s u ∧ OtherPlots (plotKey p) s u ∧ (u.arr (plotKey p)).feed = none ∧
      (u.arr (plotKey p)).active = (s.arr (plotKey p)).active ∧
      (u.plot (plotKey p)).qa.held = true ∧ (u.plot (plotKey p)).qa.heldStatus = 3) ∧
    (shadowFreeOk s (plotKey p) t = true → ∃ u, exec (.shadowFree p t) s = .next u ∧
      SameBut [.plots] s u ∧ OtherPlots (plotKey p) s u ∧ (u.arr (plotKey p)).shadow = .free ∧
      (u.arr (plotKey p)).active = (s.arr (plotKey p)).active)

/-- R48, R51, R54, R55, R56, R65, R68, R93, R106: a start takes its pass's wait and hands the weights over; an issue
slot carries the next vector of the started head pass, or passes empty. The activity ramp, the halt and the
configuration of the array. The model's choices it rests on: log 33. -/
def Obligations.PassesStartIssueRampAndHalt : Prop :=
  (∀ (s : State) (p : PlotId) (t : Nat) (x : Pass), headPass (s.arr (plotKey p)) = some x →
     (passStartOk s (plotKey p) t = true → ∃ u, exec (.passStart p t) s = .next u ∧ SameBut [.plots, .regs, .cnts] s u ∧
       OtherPlots (plotKey p) s u ∧ (u.arr (plotKey p)).slotAt = t ∧ (u.arr (plotKey p)).permit = false ∧
       (∀ y ∈ (u.arr (plotKey p)).lane, y.seq = x.seq → y.started = true ∧ y.first = t) ∧
       (x.wload = .keep → (u.arr (plotKey p)).active = (s.arr (plotKey p)).active) ∧
       (x.wload = .gate → (u.arr (plotKey p)).active = (s.arr (plotKey p)).shadowTile.2 ∧
         (u.arr (plotKey p)).shadow = .swapping ∧ (u.arr (plotKey p)).swapAt = t) ∧
       (x.wload = .bore → (u.arr (plotKey p)).transit = none ∧ (u.arr (plotKey p)).lastBore = some t)) ∧
     (issueOk s (plotKey p) t = true → ∃ u, exec (.vectorIssue p t) s = .next u ∧
       SameBut [.plots, .regs, .cnts, .stks, .freeCtr] s u ∧ OtherPlots (plotKey p) s u ∧
       (if slotKind (s.arr (plotKey p)) x t = .valid then
         ∃ v, (u.arr (plotKey p)).vecs = (s.arr (plotKey p)).vecs ++ [v] ∧ v.seq = x.seq ∧
           v.row = pAccBase x.desc + x.next ∧ v.e = t ∧ v.acc = pAccum x.desc
        else (u.arr (plotKey p)).vecs = (s.arr (plotKey p)).vecs ∧ (u.arr (plotKey p)).slotAt = t + 1))) ∧
  (∀ (s : State) (p : PlotId) (t : Nat),
     (rampDownOk s (plotKey p) t = true → ∃ u, exec (.rampDownStart p t) s = .next u ∧ SameBut [.plots] s u ∧
       OtherPlots (plotKey p) s u ∧ (u.arr (plotKey p)).ramp = .down t (rampStep s (plotKey p)) ∧
       (u.arr (plotKey p)).groupsOn = (s.arr (plotKey p)).groupsOn) ∧
     (groupOffOk s (plotKey p) t = true → ∃ u, exec (.columnGroupDisable p t) s = .next u ∧ SameBut [.plots] s u ∧
       OtherPlots (plotKey p) s u ∧ (u.arr (plotKey p)).groupsOn + 1 = (s.arr (plotKey p)).groupsOn) ∧
     (rampUpOk s (plotKey p) t = true → ∃ u, exec (.rampUpStart p t) s = .next u ∧ SameBut [.plots] s u ∧
       OtherPlots (plotKey p) s u ∧ (u.arr (plotKey p)).groupsOn = (s.arr (plotKey p)).groupsOn ∧
       ((s.arr (plotKey p)).groupsOn ≠ 8 → (u.arr (plotKey p)).ramp = .up t (rampStep s (plotKey p)) (s.arr (plotKey p)).groupsOn)) ∧
     (groupOnOk s (plotKey p) t = true → ∃ u, exec (.columnGroupEnable p t) s = .next u ∧ SameBut [.plots] s u ∧
       OtherPlots (plotKey p) s u ∧ (u.arr (plotKey p)).groupsOn = (s.arr (plotKey p)).groupsOn + 1) ∧
     ((s.arr (plotKey p)).now ≤ t → haltInForce s (plotKey p) = true → ∃ u, exec (.haltRequest p t) s = .next u ∧
       SameBut [.plots, .regs] s u ∧ OtherPlots (plotKey p) s u ∧ (u.arr (plotKey p)).haltReq = true ∧
       u.bit (pqReg (plotKey p) 0x06C) 15 = true ∧ OtherRegs [pqReg (plotKey p) 0x06C] s u) ∧
     ((s.arr (plotKey p)).now ≤ t → (s.arr (plotKey p)).haltReq = true → (s.arr (plotKey p)).vecs = [] →
       ∃ u, exec (.arrayHalted p t) s = .next u ∧ SameBut [.plots] s u ∧ OtherPlots (plotKey p) s u ∧
       (u.arr (plotKey p)).halted = true) ∧
     (∀ (r : Req) (v : Word), reach s r false (arrReg (plotKey p) 0x04C) = .ok →
       ∃ u, exec (.arrRngHiWrite r p v) s = .next u ∧ SameBut [.plots] (s.reqStepped r) u ∧ OtherPlots (plotKey p) s u ∧
         (if drainIdle (s.arr (plotKey p)) then (u.arr (plotKey p)).rng = rngSeed v (s.arr (plotKey p)).rngLo ∧
             (u.arr (plotKey p)).rngArm = none
          else (u.arr (plotKey p)).rngArm = some (rngSeed v (s.arr (plotKey p)).rngLo) ∧
             (u.arr (plotKey p)).rng = (s.arr (plotKey p)).rng)) ∧
     (∀ (r : Req) (v : Word), reach s r false (arrReg (plotKey p) 0x040) = .ok →
       ∃ u, exec (.arrCfgWrite r p v) s = .next u ∧ SameBut [.regs] (s.reqStepped r) u ∧
         OtherRegs [arrReg (plotKey p) 0x040, arrReg (plotKey p) 0x044] s u ∧
         u.fld (arrReg (plotKey p) 0x040) 4 2 = nbits v.toNat 4 2 ∧
         (if 3 ≤ nbits v.toNat 0 4 ∧ nbits v.toNat 0 4 ≤ 12 then u.fld (arrReg (plotKey p) 0x040) 0 4 = nbits v.toNat 0 4
          else u.fld (arrReg (plotKey p) 0x040) 0 4 = s.fld (arrReg (plotKey p) 0x040) 0 4 ∧
            u.bit (arrReg (plotKey p) 0x044) 16 = true)))

/-- R44, R58, R59, R120: a column write leaves its word in the accumulator bank, at the vector's row; a drained row
leaves the reservations, and goes to the tank or to its stream's queue. The model's choices it rests on: log 5, 33. -/
def Obligations.ResultsAreWrittenAndDrained : Prop :=
  ∀ (s : State) (p : PlotId) (t : Nat),
    (∀ (c : Fin 64) (v : Vec), accWriteOk s (plotKey p) c.val t = true → writing (s.arr (plotKey p)) c.val t = some v →
      ∃ u, exec (.accWrite p c t) s = .next u ∧ SameBut [.plots, .regs, .net, .parts, .cnts, .dbg] s u ∧
        OtherPlots (plotKey p) s u ∧ (u.arr (plotKey p)).now = t ∧
        accGet (u.plot (plotKey p)) v.row c.val = (accValue (s.plot (plotKey p)) v c.val).1 ∧
        (u.plot (plotKey p)).tank = (s.plot (plotKey p)).tank) ∧
    (∀ r, drainOk s (plotKey p) t = true → drainHead (s.arr (plotKey p)) = some r →
      ∃ u, exec (.drainRow p t) s = .next u ∧ SameBut [.plots, .regs, .net, .parts, .cnts, .dbg] s u ∧
        OtherPlots (plotKey p) s u ∧ (u.arr (plotKey p)).now = t ∧ (u.plot (plotKey p)).acc = (s.plot (plotKey p)).acc ∧
        ∀ q ∈ (u.arr (plotKey p)).rows, q.seq = r.seq → q.index = r.index → q.conv = true)

/-- R106, R107, R139, R149: the vector unit takes the head of its queue, stores what the descriptor computes and is free
again; its generator loads at a descriptor boundary. The model's choices it rests on: log 32. -/
def Obligations.VectorDescriptorsEnterAndLeave : Prop :=
  ∀ (s : State) (p : PlotId) (k : Nat), k = plotKey p →
    (∀ (d : Desc) (rest : List Desc), vecStartOk s k = true → (s.plot k).qv.entries = d :: rest →
      ∃ u, exec (.vectorDescStart p) s = .next u ∧ SameBut [.plots, .regs] s u ∧ OtherPlots k s u ∧
        match vecCheck d with
        | none => (u.plot k).qv.entries = rest ∧ (u.plot k).vec = some { desc := d } ∧
            (waitEn (syncOf 1 d) = true →
              tokCtr u k (waitCtr (syncOf 1 d)) + waitCnt (syncOf 1 d) = tokCtr s k (waitCtr (syncOf 1 d)))
        | some st => (u.plot k).qv.entries = d :: rest ∧ (u.plot k).qv.held = true ∧
            (u.plot k).qv.heldStatus = BitVec.ofNat 8 st) ∧
    (∀ v, vecDoneOk s k = true → (s.plot k).vec = some v →
      ∃ u, exec (.vectorDescComplete p) s = .next u ∧ SameBut [.plots, .regs, .net, .parts, .dbg, .cnts] s u ∧
        OtherPlots k s u ∧ (u.plot k).vec = none ∧
        (u.plot k).tank = (vApply (s.plot k) (vRun (s.plot k) v.desc)).tank ∧
        (u.plot k).acc = (vApply (s.plot k) (vRun (s.plot k) v.desc)).acc) ∧
    (∀ (r : Req) (v : Word), reach s r false (pqReg k 0x078) = .ok →
      ∃ u, exec (.vecRngHiWrite r p v) s = .next u ∧ SameBut [.plots] (s.reqStepped r) u ∧ OtherPlots k s u ∧
        (if (s.plot k).vec.isNone then (u.plot k).vrng = rngSeed v (s.plot k).vrngLo ∧ (u.plot k).vrngArm = none
         else (u.plot k).vrng = (s.plot k).vrng ∧ (u.plot k).vrngArm = some (rngSeed v (s.plot k).vrngLo)))

/-- R102, R112: a push into a running queue with room puts the whole window at its end; into a full one it stalls its
own steward and is dropped with the error interrupt for anyone else; a queue that does not run drops it. The model's
choices it rests on: log 12. -/
def Obligations.PushesEnterTheQueue : Prop :=
  ∀ (s : State) (p : PlotId) (k : Nat), k = plotKey p →
    (∀ (r : Req) (q : BitVec 2), reach s r false (pqReg k 0x040) = .ok →
      ∃ u, exec (.pqPush r p q) s = .next u ∧ SameBut [.plots, .regs] (s.reqStepped r) u ∧ OtherPlots k s u ∧
        (if (s.queue k q.toNat).state = .running ∧ qFull s k q.toNat = false then
          (u.queue k q.toNat).entries = (s.queue k q.toNat).entries ++ [windowDesc (s.queue k q.toNat).window] ∧ u.regs = s.regs
         else if (s.queue k q.toNat).state = .running ∧ ownSteward k r = true then
          (u.plot k).stall = some (BitVec.ofNat 2 q.toNat) ∧ u.regs = s.regs
         else u.plot k = s.plot k ∧ u.bit (pqReg k 0x014) 6 = true)) ∧
    (∀ q : BitVec 2, stalledOk s k = true → (s.plot k).stall = some q →
      ∃ u, exec (.stalledPushAccept p) s = .next u ∧ SameBut [.plots, .regs] s u ∧ OtherPlots k s u ∧
        (u.plot k).stall = none ∧
        ((s.queue k q.toNat).state = .running →
          (u.queue k q.toNat).entries = (s.queue k q.toNat).entries ++ [windowDesc (s.queue k q.toNat).window]))

/-- R107, R108, R134: a local signal adds 1 to its counter, saturating; a write sets a counter; a token to a plot of the
partition enters the fabric's token lane, any other is dropped with TOKEN_ERR. The model's choices it rests on: log 6. -/
def Obligations.TokensCountAndTravel : Prop :=
  ∀ (s : State) (p : PlotId) (k : Nat), k = plotKey p →
    (∀ c : BitVec 6, signalOk s k c = true → stopped s (plotUnit k) = false →
      ∃ u, exec (.localSignalArrive p c) s = .next u ∧ SameBut [.plots, .regs] s u ∧ OtherPlots k s u ∧
        (u.plot k).sigs = (s.plot k).sigs.erase c ∧ tokCtr u k c.toNat = min (tokCtr s k c.toNat + 1) 65535) ∧
    (∀ (r : Req) (n : Fin 64) (v : Word), reach s r false (ctrReg k n.val) = .ok →
      ∃ u, exec (.tokenCounterWrite r p n v) s = .next u ∧ SameBut [.regs] (s.reqStepped r) u ∧
        OtherRegs [ctrReg k n.val] s u ∧ tokCtr u k n.val = nbits v.toNat 0 16) ∧
    (∀ (r : Req) (v : Word) (dst : Loc), reach s r false (pqReg k 0x064) = .ok →
      dst = ⟨BitVec.ofNat 5 (nbits v.toNat 16 5), BitVec.ofNat 5 (nbits v.toNat 21 5)⟩ →
      ∃ u, exec (.pqTokenTx r p v) s = .next u ∧ SameBut [.regs, .net, .cnts] (s.reqStepped r) u ∧
        match (match nbits v.toNat 12 4 with
          | 1 => some (Msg.add dst (plotLoc k) (BitVec.ofNat 6 (nbits v.toNat 6 6)) (BitVec.ofNat 6 (nbits v.toNat 0 6)))
          | 4 => some (Msg.bargeGo dst (plotLoc k) (BitVec.ofNat 2 v.toNat))
          | 5 => some (Msg.wake dst (plotLoc k))
          | _ => none) with
        | some m =>
          if tokDestOk s (partOf s (k / 32)) dst = true then
            ∃ x, u.net = s.net ++ [x] ∧ x.cls = 3 ∧ x.src = plotLoc k ∧ x.dst = dst ∧ x.msg = m
          else u.net = s.net ∧ u.bit (pqReg k 0x014) 4 = true
        | none => u.net = s.net ∧ u.bit (pqReg k 0x014) 4 = true)

/-- R111, R112, R144: SKIP frees a held queue, FLUSH empties a queue, SET_EN runs a stopped queue, CLR_EN stops a
running one; a pop answers the oldest record and captures its time. -/
def Obligations.QueueControlsActOnTheirQueue : Prop :=
  ∀ (s : State) (p : PlotId) (k : Nat), k = plotKey p →
    (∀ (r : Req) (q : BitVec 2), reach s r false (pqReg k 0x044) = .ok →
      (∃ u, exec (.pqSkip r p q) s = .next u ∧ SameBut [.plots] (s.reqStepped r) u ∧ OtherPlots k s u ∧
        (u.queue k q.toNat).held = false ∧ ((s.queue k q.toNat).held = false → u.plot k = s.plot k)) ∧
      (∃ u, exec (.pqFlush r p q) s = .next u ∧ SameBut [.plots, .regs, .net, .parts, .dbg, .cnts] (s.reqStepped r) u ∧
        OtherPlots k s u ∧ (u.queue k q.toNat).entries = [] ∧ (u.queue k q.toNat).held = false) ∧
      (∃ u, exec (.pqSetEn r p q) s = .next u ∧ SameBut [.plots] (s.reqStepped r) u ∧ OtherPlots k s u ∧
        ((s.queue k q.toNat).state = .stopped → (u.queue k q.toNat).state = .running) ∧
        ((s.queue k q.toNat).state ≠ .stopped → u.plot k = s.plot k)) ∧
      (∃ u, exec (.pqClrEn r p q) s = .next u ∧
        ((s.queue k q.toNat).state = .running → queueLimit s k ≠ 0 → (u.queue k q.toNat).state = .stopping ∧
          (u.queue k q.toNat).entries = [] ∧ OtherPlots k s u) ∧
        ((s.queue k q.toNat).state ≠ .running → u = s.reqStepped r))) ∧
    (∀ r : Req, reach s r true (pqReg k 0x058) = .ok →
      ∃ u, exec (.pqCplPop r p) s = .next u ∧ SameBut [.plots, .regs, .caps, .reply] (s.reqStepped r) u ∧ OtherPlots k s u ∧
        match (s.plot k).cpl with
        | [] => u.reply = { data := leBytes 4 0 } ∧ u.plot k = s.plot k
        | c :: _ => u.reply = { data := leBytes 4 (cplWord c) } ∧ tget none u.caps (pqReg k 0x05C) = some c.time)

/-- R132, R183: an output slot or a headgate opens only with a legal depth, the partition's stream and, for a slot, a
die of its partition; while it is valid only a closing write of word 0 changes it, and any other write sets TOKEN_ERR. -/
def Obligations.SlotsAndHeadgatesOpenAndClose : Prop :=
  ∀ (s : State) (r : Req) (p : PlotId) (k : Nat) (n : Fin 32) (v : Word), k = plotKey p →
    (∀ w : Fin 8, reach s r false (slotReg k n.val w.val) = .ok → ∃ u, exec (.outputSlotWrite r p n w v) s = .next u ∧
      SameBut [.regs] (s.reqStepped r) u ∧
      (slotValid s k n.val = true → w.val ≠ 0 ∨ nbit v.toNat 16 = true →
        OtherRegs [pqReg k 0x014] s u ∧ u.bit (pqReg k 0x014) 4 = true) ∧
      (slotValid s k n.val = false → w.val = 0 → nbit v.toNat 16 = true →
        (slotOpenOk s k n.val v.toNat = true → u.fld (slotReg k n.val 0) 0 17 = nbits v.toNat 0 17 ∧
          u.fld (slotReg k n.val 3) 0 10 = slotCredits s k n.val % 1024) ∧
        (slotOpenOk s k n.val v.toNat = false → u.bit (pqReg k 0x014) 4 = true ∧
          OtherRegs [pqReg k 0x014] s u))) ∧
    (∀ w : Fin 8, reach s r false (hgReg k n.val w.val) = .ok → ∃ u, exec (.headgateWrite r p n w v) s = .next u ∧
      SameBut [.regs, .plots, .net, .cnts] (s.reqStepped r) u ∧ OtherPlots k s u ∧
      (hgValid s k n.val = true → w.val ≠ 0 ∨ nbit v.toNat 16 = true →
        OtherRegs [pqReg k 0x014] s u ∧ u.plot k = s.plot k ∧
          u.bit (pqReg k 0x014) 4 = true) ∧
      (hgValid s k n.val = false → w.val = 0 → nbit v.toNat 16 = true →
        (hgOpenOk s k n.val v.toNat = true → u.fld (hgReg k n.val 0) 0 17 = nbits v.toNat 0 17 ∧
          tget ({} : Hg) (u.plot k).hgs n.val = {}) ∧
        (hgOpenOk s k n.val v.toNat = false → u.bit (pqReg k 0x014) 4 = true ∧ u.plot k = s.plot k)))

/-- R108, R133, R164, R186, R191, R192, R193, R203: a token at a plot that takes it has the effect of its type, and no
other plot changes. A fenced plot drops the tokens and flits that reach it and logs them; the first flit of a source is
answered with FENCED; a FENCED token still acts; RH_FENCE_SET fences the plots of its mask. The model's choices it rests
on: log 6, 39. -/
def Obligations.TokensActOrAreFencedOff : Prop :=
  (∀ (s : State) (p : PlotId) (k : Nat) (src : Loc), k = plotKey p → plotUp s k = true → fenced s k = false →
     holding s k = false →
     (∀ ctr amount : BitVec 6, amount ≠ 0 → ∃ u, exec (.addToken p src ctr amount) s = .next u ∧
       SameBut [.regs, .net, .cnts, .dbg] s u ∧
       tokCtr u k ctr.toNat = min (tokCtr s k ctr.toNat + amount.toNat) 65535 ∧
       OtherRegs [ctrReg k ctr.toNat, pqReg k 0x014, cntPage k 0x044] s u) ∧
     (∀ (sl : BitVec 5) (n : BitVec 7), slotValid s k sl.toNat = true → ∃ u, exec (.creditToken p src sl n) s = .next u ∧
       SameBut [.regs, .net, .cnts] s u ∧
       slotCredit u k sl.toNat = min (slotCredit s k sl.toNat + n.toNat) (slotCredits s k sl.toNat)) ∧
     (∀ sl : BitVec 5, slotValid s k sl.toNat = true → ∃ u, exec (.fencedToken p src sl) s = .next u ∧
       SameBut [.regs, .plots, .chans, .net, .parts, .dbg, .cnts] s u ∧ OtherPlots k s u ∧
       slotFenced u k sl.toNat = true) ∧
     (∀ c : BitVec 2, (s.chan (4 * k + c.toNat)).desc = none → ∃ u, exec (.bargeGo p src c) s = .next u ∧
       SameBut [.regs, .chans, .net, .cnts] s u ∧
       (if (s.chan (4 * k + c.toNat)).goPend < 255 then
         (u.chan (4 * k + c.toNat)).goPend = (s.chan (4 * k + c.toNat)).goPend + 1
        else u.bit (brgReg (4 * k + c.toNat) 0x044) 10 = true)) ∧
     (∃ u, exec (.wake p src) s = .next u ∧ SameBut [.regs, .net, .cnts] s u ∧ u.bit (pqReg k 0x014) 2 = true ∧
       OtherRegs [pqReg k 0x014, cntPage k 0x044] s u) ∧
     (∀ tok, tokenReserved tok = true → ∃ u, exec (.reservedToken p src tok) s = .next u ∧
       SameBut [.regs, .net, .cnts] s u ∧ u.bit (pqReg k 0x014) 4 = true ∧
       OtherRegs [pqReg k 0x014, cntPage k 0x044] s u)) ∧
  (∀ (s : State),
     (∀ (p : PlotId) (k : Nat) (src : Loc), k = plotKey p → plotUp s k = true → fenced s k = true →
       (∀ (ctr amount : BitVec 6) (sl : BitVec 5) (n : BitVec 7) (c : BitVec 2) (i : Instr),
         i ∈ [Instr.addToken p src ctr amount, .creditToken p src sl n, .bargeGo p src c, .wake p src] →
         ∃ u, exec i s = .next u ∧ SameBut [.regs, .net, .cnts] s u ∧ tokCtr u k ctr.toNat = tokCtr s k ctr.toNat ∧
           u.fld (rhReg (k / 32) (k % 32 / 8) (0x088 + 16 * (k % 8))) 0 16 =
             satAdd 16 (s.fld (rhReg (k / 32) (k % 32 / 8) (0x088 + 16 * (k % 8))) 0 16) 1) ∧
       (∀ (hg sl : BitVec 5) (sid : BitVec 16) (data : FlitData), ∃ u,
         exec (.streamFlitArrive (plotLoc k) hg sid src sl data) s = .next u ∧ SameBut [.regs, .plots, .net, .cnts] s u ∧
           OtherPlots k s u ∧ (u.plot k).tank = (s.plot k).tank ∧
           ((src.die.toNat, src.plot.toNat, sl.toNat) ∉ (s.plot k).fencedSrc →
             ∃ x ∈ u.net, x.cls = 3 ∧ x.dst = src ∧ x.msg = .fenced src (plotLoc k) sl))) ∧
     (∀ (r : Req) (st : Fin 16) (q : Fin 4) (mask : Byte), reach s r false (rhReg st.val q.val 0x040) = .ok →
       ∃ u, exec (.rhFenceSet r st q mask) s = .next u ∧
         SameBut [.freeCtr, .regs, .plots, .norias, .net, .stks, .parts, .rings, .cores, .dbg, .cnts, .wire] (s.reqStepped r) u ∧
         ∀ j < 8, mask.getLsbD j = true → fenced u (32 * st.val + 8 * q.val + j) = true))

/-- R184, R186, R187: a flit leaves against one credit of its slot, enters the ring of the headgate that takes it, and
leaves the ring for its consumer; owed credit goes back to the source. The model's choices it rests on: log 6. -/
def Obligations.FlitsMoveThroughTheStreams : Prop :=
  ∀ (s : State) (p : PlotId) (k : Nat) (n : Fin 32), k = plotKey p →
    (plotRun s k = true → slotValid s k n.val = true → slotFenced s k n.val = false →
      ∀ (f : OutFlit), feedingRow (s.readyChans k) k n.val = some f → slotCredit (s.readyChans k) k n.val ≠ 0 →
      ∃ u, exec (.streamFlitSend p n) s = .next u ∧ OtherPlots k s u ∧
        slotCredit u k n.val + 1 = slotCredit (s.readyChans k) k n.val ∧
        (u.arr k).outQ = ((s.readyChans k).arr k).outQ.drop 1 ∧
        ∃ x ∈ u.net, x.cls = 0 ∧ x.src = plotLoc k ∧ x.dst = slotDest (s.readyChans k) k n.val) ∧
    (∀ (sid : BitVec 16) (src : Loc) (sl : BitVec 5) (data : FlitData), plotUp s k = true → fenced s k = false →
      holding s k = false → hgRefuses s k n.val sid src sl = none → s.bit (hgReg k n.val 3) 6 = false →
      ∃ u, exec (.streamFlitArrive (plotLoc k) (BitVec.ofNat 5 n.val) sid src sl data) s = .next u ∧
        SameBut [.regs, .plots, .net, .cnts] s u ∧ OtherPlots k s u ∧
        hgFill u k n.val = hgFill s k n.val + 1 ∧ hgRd u k n.val = hgRd s k n.val ∧
        (tget ({} : Hg) (u.plot k).hgs n.val).src = some (src.die.toNat, src.plot.toNat, sl.toNat)) ∧
    (plotRun s k = true → hgValid s k n.val = true → 0 < hgFill s k n.val → 0 < hgFill (s.readyChans k) k n.val →
      ∀ b, passTakes (s.readyChans k) k n.val = some b → ∃ u, exec (.headgateConsume p n) s = .next u ∧
        OtherPlots k s u ∧ hgFill u k n.val + 1 = hgFill (s.readyChans k) k n.val ∧
        (if b then (u.arr k).preB = ((s.readyChans k).arr k).preB ++ [ringHead (s.readyChans k) k n.val]
         else (u.arr k).preE = ((s.readyChans k).arr k).preE ++ [ringHead (s.readyChans k) k n.val])) ∧
    (plotRun s k = true → hgValid s k n.val = true → ∀ w, (tget ({} : Hg) (s.plot k).hgs n.val).src = some w →
      0 < (tget ({} : Hg) (s.plot k).hgs n.val).owed →
      ∃ u, exec (.creditBatchTimeout p n) s = .next u ∧ SameBut [.regs, .plots, .net, .cnts] s u ∧ OtherPlots k s u ∧
        (tget ({} : Hg) (u.plot k).hgs n.val).owed = (tget ({} : Hg) (s.plot k).hgs n.val).owed - 127 ∧
        ∃ x, u.net = s.net ++ [x] ∧ x.cls = 3 ∧ x.dst = ⟨BitVec.ofNat 5 w.1, BitVec.ofNat 5 w.2.1⟩)

/-- R178, R179: a live router moves the packet that its round-robin picks for a port one hop, and nothing else. The
model's choices it rests on: log 75. -/
def Obligations.RoutersForwardOneHop : Prop :=
  ∀ (s : State) (die : Fin 17) (site : Fin 36) (out : Fin 13), routerGo s die.val site.val out.val = true →
    ∃ u, exec (.routerForward die site out) s = .next u ∧ SameBut [.net, .rr] s u ∧ u.net.length = s.net.length ∧
      (waitingAt s die.val site.val out.val true = [] → ∀ x,
        pickRound (tget 0 s.rr (((die.val * 36 + site.val) * 13 + out.val) * 2)) (waitingAt s die.val site.val out.val false) =
          some x → u.net = s.net.erase x ++ [moved x out.val])

/-- R195, R196, R197, R204: a module acknowledges, discards and replays frames, and its state follows retrains, DISABLE
and the replay rate. The model's choices it rests on: log 40. -/
def Obligations.LinksTrainAndReplay : Prop :=
  ∀ (s : State) (m : ModId) (die mm : Nat), die = m.die.val → mm = m.m.val →
    (∀ frame, modDieUp s m = true → linkUp s die mm = true →
      ∃ u, exec (.d2dFrameReceive m frame) s = .next u ∧ SameBut [.regs, .links, .cnts, .wire] s u ∧
        (frameOk frame = false → (u.link (modKey m)).delivered = (s.link (modKey m)).delivered ∧
          (u.link (modKey m)).nak = true ∧ Msg.frame die mm (ctrlFrame (s.link (modKey m)) true) ∈ u.wire) ∧
        (frameOk frame = true → frameNak frame = false → frame.length = 1024 → frameSeq frame = (s.link (modKey m)).rxSeq →
          (u.link (modKey m)).delivered = (s.link (modKey m)).delivered ++ [frame] ∧
          (u.link (modKey m)).rxSeq = (s.link (modKey m)).rxSeq + 1)) ∧
    (modDieUp s m = true → linkUp s die mm = true → ∃ u, exec (.replayRateTick m) s = .next u ∧
      SameBut [.regs, .links, .errs, .cores, .wire] s u ∧ (u.link (modKey m)).secReplays = 0 ∧
      ((s.link (modKey m)).secReplays ≤ s.fld (dfReg die 0x064) 0 16 → linkState u die mm = linkState s die mm) ∧
      (s.fld (dfReg die 0x064) 0 16 < (s.link (modKey m)).secReplays →
        s.fld (dfReg die 0x064) 16 8 ≤ (s.link (modKey m)).overSecs + 1 →
        linkState u die mm = 1 ∧ u.bit (linkReg die mm) 5 = true)) ∧
    (∀ r, modOk m = true → reach s r false (linkReg die mm + 4) = .ok →
      (∃ u, exec (.dfLinkRetrain r m) s = .next u ∧ SameBut [.regs] (s.reqStepped r) u ∧
        (s.bit (linkReg die mm + 4) 1 = false → linkState u die mm = 1) ∧
        (s.bit (linkReg die mm + 4) 1 = true → u = s.reqStepped r)) ∧
      (∀ v, ∃ u, exec (.dfLinkDisable r m v) s = .next u ∧ SameBut [.regs] (s.reqStepped r) u ∧
        u.bit (linkReg die mm + 4) 1 = v ∧
        linkState u die mm = if v then 3 else if linkState s die mm = 3 then 1 else linkState s die mm)) ∧
    (∀ ok spared, modDieUp s m = true → training s m = true → ∃ u, exec (.d2dRetrainDone m ok spared) s = .next u ∧
      SameBut [.regs, .links] s u ∧
      linkState u die mm = if ok then 2 else if 2 ≤ (s.link (modKey m)).fails then 3 else 0) ∧
    (∀ far : Fin 17, pkgUp s = true → (modsTo die far.val).isEmpty = false → farDown s die far.val = true →
      ∃ u, exec (.d2dLinkDown m.die far) s = .next u ∧ u.fuses = s.fuses ∧ u.pins = s.pins ∧ u.dram = s.dram ∧
        (die < 16 → u.reqTab (die * 32 + far.val) = [] ∧ (far.val = (die + 15) % 16 → u.bit (dfReg die 0x060) 0 = false)) ∧
        (die = 16 → s.dbg.stopAt = none → activeStack s far.val = true → (s.stk far.val).inReset = false →
          (u.stk far.val).lost = true ∧ (u.stk far.val).inReset = true))

/-- R129, R160, R163, R164, R165, R168, R169: an idle channel takes the head of the barge queue or rejects it; a push
enters the queue of a busy I/O die channel; GO adds or clears a start event; a pop answers the oldest record. A unit's
completion leaves memory as the moving of its remaining elements leaves it, and starts the next unit or ends the
descriptor; a due time starts a unit, or is counted late or missed. The model's choices it rests on: log 28. -/
def Obligations.BargeChannelsTakeAndMoveUnits : Prop :=
  (∀ s : State,
     (∀ (p : PlotId) (k : Nat) (d : Desc) (rest : List Desc), k = plotKey p → handoffOk s k = true →
       (s.queue k 2).entries = d :: rest →
       ∃ u, exec (.bargeHandoff p) s = .next u ∧ SameBut [.regs, .plots, .chans, .reqTabs] s u ∧ OtherPlots k s u ∧
         (∀ c, c ≠ 4 * k + bCh d → u.chan c = s.chan c) ∧
         match bCheck s (4 * k + bCh d) d with
         | none => (u.queue k 2).entries = rest ∧ (u.chan (4 * k + bCh d)).desc = some d ∧
             (u.chan (4 * k + bCh d)).unit = 0
         | some st => (u.queue k 2).entries = d :: rest ∧ (u.queue k 2).held = true ∧
             (u.queue k 2).heldStatus = BitVec.ofNat 8 st ∧ u.chan (4 * k + bCh d) = s.chan (4 * k + bCh d)) ∧
     (∀ (r : Req) (n : Fin 32) (c : Nat), c = 2048 + n.val → reach s r false (brgReg c 0x058) = .ok →
       ∃ u, exec (.brgSubmitPush r n) s = .next u ∧ u.plots = s.plots ∧ u.dram = s.dram ∧
         ((s.chan c).state ≠ .running → u.chan c = s.chan c ∧ u.bit (brgReg c 0x014) 1 = true) ∧
         ((s.chan c).state = .running → 4 ≤ (s.chan c).queue.length →
           u.chan c = s.chan c ∧ u.bit (brgReg c 0x014) 0 = true) ∧
         ((s.chan c).state = .running → (s.chan c).queue.length < 4 → (s.chan c).desc.isSome = true →
           (u.chan c).queue = (s.chan c).queue ++ [(windowDesc (s.chan c).window, none)])) ∧
     (∀ (r : Req) (c : ChanId) (n : Nat), n = chanKey c → reach s r false (brgReg n 0x040) = .ok →
       (∃ u, exec (.brgCtrlGo r c true) s = .next u ∧ SameBut [.chans] (s.reqStepped r) u ∧ (u.chan n).goPend = 0 ∧
         ∀ j, j ≠ n → u.chan j = s.chan j) ∧
       ((s.chan n).desc = none → (s.chan n).goPend < 255 → ∃ u, exec (.brgCtrlGo r c false) s = .next u ∧
         SameBut [.chans] (s.reqStepped r) u ∧ (u.chan n).goPend = (s.chan n).goPend + 1 ∧
         ∀ j, j ≠ n → u.chan j = s.chan j)) ∧
     (∀ (r : Req) (n : Fin 32) (c : Nat), c = 2048 + n.val → reach s r true (brgReg c 0x060) = .ok →
       ∃ u, exec (.brgCplPop r n) s = .next u ∧ u.plots = s.plots ∧ u.dram = s.dram ∧
         match (s.chan c).cpl with
         | [] => u.reply = { data := leBytes 4 0 } ∧ u.chan c = s.chan c
         | x :: rest => u.reply = { data := leBytes 4 (brgCplWord x) } ∧
             ((s.chan c).queue = [] → (u.chan c).cpl = (rest ++ (s.chan c).heldRecs).take 4))) ∧
  (∀ (s t : State) (c : ChanId) (n : Nat) (d : Desc), n = chanKey c →
     (t = s.ready n → unitOk t n = true → (t.chan n).desc = some d → (t.chan n).lost = false → (t.chan n).fenced = false →
       (t.chan n).aborted = false → ∀ m, m = moveElems t n d (t.chan n).pos
         (if bDstK d = 2 then 0 else unitFirst (t.chan n) d + bUnitElems d - (t.chan n).pos) →
       ∃ u, exec (.bargeUnitComplete c) s = .next u ∧ u.fuses = s.fuses ∧ u.dram = m.st.dram ∧ u.chk = m.st.chk ∧
         (m.lost = false → (t.chan n).unit + 1 < bUnits d →
           (u.chan n).unit = (t.chan n).unit + 1 ∧ (u.chan n).desc = some d) ∧
         (m.lost = false → bUnits d ≤ (t.chan n).unit + 1 → isIod n = false → (t.queue (n / 4) 2).entries = [] →
           (u.chan n).desc = none)) ∧
     (t = s.pump n → timerOk t n = true → (t.chan n).desc = some d →
       ∃ u, exec (.bargeTimerDue c) s = .next u ∧ SameBut [.regs, .chans, .reqTabs] s u ∧
         ((t.chan n).phase ≠ .moving → (u.chan n).phase = .moving ∧ (u.chan n).grid = (t.chan n).grid + 1) ∧
         ((t.chan n).phase = .moving → (t.chan n).unit + 1 < bUnits d → (u.chan n).grid = (t.chan n).grid + 1 ∧
           (u.chan n).late = true ∧
           (if (t.chan n).late then u.fld (brgReg n 0x050) 16 16 = satAdd 16 (t.fld (brgReg n 0x050) 16 16) 1
            else u.fld (brgReg n 0x050) 0 16 = satAdd 16 (t.fld (brgReg n 0x050) 0 16) 1))))

/-- R220, R222, R234, R241, R244: a read that nothing makes wait answers the stored bytes; poison in a word shows in the
answer; clean words leave the memory as it is. A write that nothing holds stores its bytes and touches no other code
word; whole words take the check bytes of their poison; one that the band holds waits and stores nothing. The model's
choices it rests on: log 8, 26. -/
def Obligations.CisternsAnswerAndStoreTheirBytes : Prop :=
  (∀ (s : State) (p : PlotId) (k off len : Nat) (src : Src), k = plotKey p → inCistern off len = true →
     readGo s k off len = true → ∃ u, exec (.cisternRead p off len src) s = .next u ∧
       SameBut [.reply, .regs, .slices, .dram, .chk, .errs, .cores, .cnts, .wire] s u ∧
       ((∀ w ∈ codeWords off len, rawChk s k w = 0) →
         u.reply = { data := tgets 0 s.dram (byteKey k off) len } ∧ u.dram = s.dram ∧ u.chk = s.chk) ∧
       ((∃ w ∈ codeWords off len, rawChk s k w = poisonMark) → u.reply.poison = true)) ∧
  (∀ (s : State) (p : PlotId) (k off : Nat) (data : List Byte) (poison : Bool) (src : Src), k = plotKey p →
     inCistern off data.length = true →
     (writeGo s k off data.length = true → ∃ u, exec (.cisternWrite p off data poison src) s = .next u ∧
       SameBut [.reply, .regs, .slices, .dram, .chk, .errs, .cores, .caches, .cnts, .wire] s u ∧
       (∀ a, a < byteKey k (off / 32 * 32) ∨ byteKey k ((off + data.length + 31) / 32 * 32) ≤ a →
         tget 0 u.dram a = tget 0 s.dram a) ∧
       (flipOn s k src = false → off % 32 = 0 → data.length % 32 = 0 →
         tgets 0 u.dram (byteKey k off) data.length = data ∧ u.reply.poison = false ∧
         ∀ w ∈ codeWords off data.length, rawChk u k w = if poison then poisonMark else 0)) ∧
     (cisternUp s k = true → bandHeld s (k / 32) = true → (s.slc k).held.length < 64 →
       ∃ u, exec (.cisternWrite p off data poison src) s = .next u ∧ SameBut [.slices] s u ∧
         (u.slc k).held = (s.slc k).held ++ [.write off data poison] ∧ ∀ j, j ≠ k → u.slc j = s.slc j))

/-- R224, R225, R227: a weir operation inside one clean word applies its lanes to the stored bytes, and a fetch answers
what was there before. The model's choices it rests on: log 26. -/
def Obligations.WeirsApplyTheirLanes : Prop :=
  ∀ (s : State) (p : PlotId) (k : Nat) (op : BitVec 4) (esize : BitVec 3) (off : Nat) (operand : List Byte) (fetch : Bool),
    k = plotKey p → op.toNat ≠ 0xC → weirOk op.toNat esize.toNat operand.length = true →
    inCistern off operand.length = true → off % 32 + operand.length ≤ 32 → writeGo s k off operand.length = true →
    rawChk s k (off / 32) = 0 → flipOn s k .rmw = false → ∀ old, old = tgets 0 s.dram (byteKey k off) operand.length →
    ∃ u, exec (.weirOpApply p op esize off operand false fetch) s = .next u ∧
      SameBut [.reply, .regs, .dram, .chk, .cores, .caches, .cnts] s u ∧
      tgets 0 u.dram (byteKey k off) operand.length = (weirBytes op.toNat old operand).1 ∧
      u.reply = { data := if fetch then old else [] } ∧ rawChk u k (off / 32) = 0 ∧
      (∀ a, a < byteKey k off ∨ byteKey k off + operand.length ≤ a → tget 0 u.dram a = tget 0 s.dram a)

/-- R230, R231, R232, R233, R240, R248, R249, R252, R257, R270: refreshes are counted, a band comes into force, and a
fill leaves a segment of zeros whose done bit reads 1. A scrub writes a correctable word back corrected; a window closes
when it has run out; a report is popped oldest first; a row repair starts once and ends with the row on its spare. The
model's choices it rests on: log 3. -/
def Obligations.SlicesFillScrubAndRepair : Prop :=
  (∀ s : State,
     (∀ (p : PlotId) (k : Nat) (b : Fin 32), k = plotKey p → cisternUp s k = true →
       nbit (s.nor k).stepping.toNat b.val = false → ∃ u, exec (.bankRefresh p b) s = .next u ∧
         SameBut [.regs, .slices, .cnts] s u ∧
         tget 0 (u.slc k).refreshAt b.val = tget 0 (s.slc k).refreshAt b.val + 1 ∧ ∀ j, j ≠ k → u.slc j = s.slc j) ∧
     (∀ st : Fin 16, bandDue s st.val = true → ∃ u, exec (.bandApply st) s = .next u ∧
       SameBut [.regs, .slices, .dram, .chk, .stks, .errs, .cores, .caches, .cnts, .wire] s u ∧
       (u.stk st.val).applied = s.fld (smReg st.val 0x040) 0 3 ∧
       ((∀ p < 32, (s.slc (32 * st.val + p)).held = [] ∧ (s.slc (32 * st.val + p)).waiting = []) →
         u.dram = s.dram ∧ u.chk = s.chk)) ∧
     (∀ (p : PlotId) (k : Nat) (g : Fin 8), k = plotKey p → fillGo s k g.val = true → (s.slc k).held = [] →
       (s.slc k).waiting = [] → ∃ u, exec (.fillSegmentDone p g) s = .next u ∧
         SameBut [.regs, .slices, .dram, .chk] s u ∧
         u.bit (slcReg k 0x048) (8 + g.val) = true ∧
         (∀ a, tget 0 u.dram a = if byteKey k (g.val * 268435456) ≤ a ∧ a < byteKey k ((g.val + 1) * 268435456) then 0
           else tget 0 s.dram a) ∧
         (∀ w, g.val * 8388608 ≤ w → w < (g.val + 1) * 8388608 → rawChk u k w = 0))) ∧
  (∀ s : State,
     (∀ (p : PlotId) (k : Nat) (x : Nat × Word) (rest : List (Nat × Word)), k = plotKey p → (s.slc k).demand = x :: rest →
       cisternUp s k = true → burstWaits s k (x.1 / 256) = false → ∃ u, exec (.demandScrub p) s = .next u ∧
         SameBut [.regs, .slices, .dram, .chk, .errs, .cores, .cnts, .wire] s u ∧
         (∀ y ∈ (u.slc k).demand, y.1 / 256 ≠ x.1 / 256) ∧
         (bandHeld s (k / 32) = false → ∀ i < 8, ∀ j e, classify (rawChk s k (8 * (x.1 / 256) + i)) = .correctable j e →
           rawChk u k (8 * (x.1 / 256) + i) = 0 ∧
           rawWord u k (8 * (x.1 / 256) + i) = corrected (rawWord s k (8 * (x.1 / 256) + i)) j e)) ∧
     (∀ (p : PlotId) (k : Nat), k = plotKey p → patrolGo s k = true → ∃ u, exec (.patrolScrub p) s = .next u ∧
       SameBut [.regs, .slices, .dram, .chk, .errs, .cores, .cnts, .wire] s u ∧
       patrolPos u k = (patrolPos s k + 1) % 8388608) ∧
     (∀ st : Fin 16, stackUp s st.val = true → ∃ u, exec (.eccWindowTick st) s = .next u ∧ SameBut [.regs] s u ∧
       ∀ i < 64, u.bit (smReg st.val (0x800 + 32 * i) + 24) 3 =
         (s.bit (smReg st.val (0x800 + 32 * i) + 24) 3 && !(s.bit (smReg st.val (0x800 + 32 * i)) 31 &&
           decide (eccWindow s st.val < (msNow s % 2 ^ 32 + 2 ^ 32 - (s.reg (smReg st.val (0x800 + 32 * i) + 20)).toNat) %
             2 ^ 32)))) ∧
     (∀ (r : Req) (f : Fin 17), reach s r true (errReg f.val 0x040) = .ok → ∃ u, exec (.errRptPop r f) s = .next u ∧
       SameBut [.errs, .reply] (s.reqStepped r) u ∧
       match (s.errf f.val).recs with
       | [] => u.reply = { data := leBytes 4 0 } ∧ (u.errf f.val).recs = []
       | x :: rest => u.reply = { data := leBytes 4 (rptWord x) } ∧ (u.errf f.val).recs = rest ∧
           (u.errf f.val).w3 = x.time ∧ (u.errf f.val).w1 = BitVec.ofNat 32 x.addr.toNat) ∧
     (∀ (r : Req) (p : PlotId) (k : Nat) (v : Word), k = plotKey p → reach s r false (slcReg k 0x068) = .ok →
       nbit v.toNat 31 = true → ∃ u, exec (.pprGo r p v) s = .next u ∧ SameBut [.regs, .slices] (s.reqStepped r) u ∧
         (s.fld (slcReg k 0x06C) 0 2 = 1 → u.slc k = s.slc k) ∧
         (s.fld (slcReg k 0x06C) 0 2 ≠ 1 → sparesLeft s k (nbits v.toNat 0 5) = 0 → u.fld (slcReg k 0x06C) 0 6 = 7) ∧
         (s.fld (slcReg k 0x06C) 0 2 ≠ 1 → 0 < sparesLeft s k (nbits v.toNat 0 5) →
           ∃ x, (u.slc k).ppr = some x ∧ x.bank = BitVec.ofNat 5 (nbits v.toNat 0 5) ∧
             x.row = BitVec.ofNat 15 (nbits v.toNat 5 15) ∧ u.fld (slcReg k 0x06C) 0 2 = 1)) ∧
     (∀ (p : PlotId) (k : Nat) x, k = plotKey p → (s.slc k).ppr = some x → cisternUp s k = true →
       bandHeld s (k / 32) = false → nbit (s.nor k).stepping.toNat x.bank.toNat = false → ∃ u,
         exec (.pprDone p) s = .next u ∧
         SameBut [.regs, .slices, .dram, .chk, .errs, .cores, .caches, .cnts, .wire] s u ∧ (u.slc k).ppr = none ∧
         tget 0 (u.slc k).rowMap (x.bank.toNat * 32768 + x.row.toNat) = x.spare + 1 ∧
         tget 0 (u.slc k).spareUsed x.bank.toNat = tget 0 (s.slc k).spareUsed x.bank.toNat + 1))

/-- R215, R236, R259, R260, R262, R263: the commons takes an allowed configuration while its page is not locked; a remap
is staged, started, copied, switched and done, or cancelled, as its state allows. The model's choices it rests on: log
26. -/
def Obligations.CommonsIsConfiguredAndRemapped : Prop :=
  ∀ (s : State) (n : Fin 16) (m : Nat), m = n.val →
    (∀ (r : Req) (v : Word), isMgmt r = true → reach s r false (comReg m 0x040) = .ok → nbit v.toNat 31 = false →
      ∃ u, exec (.commonsCfgWrite r n v) s = .next u ∧ SameBut [.regs] (s.reqStepped r) u ∧
        (if pageLocked s (comReg m 0x040) then u.fld (comReg m 0x040) 0 20 = s.fld (comReg m 0x040) 0 20 ∧
            u.bit (comReg m 0x02C) 2 = true
         else if commonsCfgOk s m v.toNat then u.fld (comReg m 0x040) 0 20 = nbits v.toNat 0 20
         else u.fld (comReg m 0x040) 0 20 = s.fld (comReg m 0x040) 0 20 ∧ u.bit (comReg m 0x040) 31 = true)) ∧
    (∀ r : Req, reach s r false (comReg m 0x05C) = .ok →
      (∃ u, exec (.commonsRemapBegin r n) s = .next u ∧ SameBut [.regs, .parts] (s.reqStepped r) u ∧
        (remapState s m = 0 ∨ remapState s m = 4 → remapState u m = 1 ∧
          (u.part m).remap.stage = (s.part m).remap.cur) ∧
        (remapState s m ≠ 0 → remapState s m ≠ 4 → u = s.reqStepped r)) ∧
      (∀ i : Fin 512, (∃ u, exec (.commonsRemapWrite r n i) s = .next u ∧ SameBut [.parts] (s.reqStepped r) u ∧
          (remapState s m = 1 → tget none (u.part m).remap.stage i.val =
            some ⟨s.reg (comReg m 0x060), s.reg (comReg m 0x064)⟩ ∧ (u.part m).remap.cur = (s.part m).remap.cur)) ∧
        (∃ u, exec (.commonsRemapClear r n i) s = .next u ∧ SameBut [.parts] (s.reqStepped r) u ∧
          (remapState s m = 1 → tget none (u.part m).remap.stage i.val = none ∧
            (u.part m).remap.cur = (s.part m).remap.cur))) ∧
      (∃ u, exec (.commonsRemapStart r n) s = .next u ∧ SameBut [.regs, .parts] (s.reqStepped r) u ∧
        (remapState s m = 1 → remapState u m = if (firstBad s m (s.part m).remap.stage).isSome then 4 else 2) ∧
        (u.part m).remap.cur = (s.part m).remap.cur) ∧
      (∃ u, exec (.commonsRemapCancel r n) s = .next u ∧ SameBut [.regs, .parts] (s.reqStepped r) u ∧
        (remapState s m ∈ [1, 2, 3] → (s.part m).remap.switching = false →
          remapState u m = 0 ∧ (u.part m).remap.stage = []) ∧
        (u.part m).remap.cur = (s.part m).remap.cur)) ∧
    (remapState s m = 2 → moverGo s m = true → ∃ u, exec (.remapCopyDone n) s = .next u ∧
      (u.part m).remap.cur = (s.part m).remap.cur ∧
      (if moverLost s m then remapState u m = 4 ∧ u.dram = s.dram
       else remapState u m = 3 ∧ ∀ x ∈ (u.part m).remap.mig, x.2 = .copied)) ∧
    (remapState s m = 3 → (s.part m).remap.switching = false → partRunning s m = false →
      ∃ u, exec (.remapSwitch n) s = .next u ∧ SameBut [.regs, .parts] s u ∧
        (u.part m).remap.cur = (s.part m).remap.stage ∧
        u.fld (comReg m 0x058) 0 16 = (s.fld (comReg m 0x058) 0 16 + 1) % 65536) ∧
    ((s.part m).remap.switching = true → ∃ u, exec (.remapDone n) s = .next u ∧
      SameBut [.regs, .parts, .errs, .cores, .wire] s u ∧ remapState u m = 0 ∧ (u.part m).remap.stage = [] ∧
      (u.part m).remap.cur = (s.part m).remap.cur)

/-- R106, R128, R273, R277, R289, R292, R299, R303, R307, R356: a noria command leaves its queue once its wait is met,
is accepted by a slice with room, sent back by a full one or rejected by its check; a resend marks it sent; window
commands are pushed and their records popped. A bank with work gets a permit, its step starts and ends, and the memory
is as the step's reads and writes leave it; a cross-check waits for its banks and counts each result. The model's
choices it rests on: log 30. -/
def Obligations.NoriaCommandsTravelAndRun : Prop :=
  (∀ s : State,
     (∀ (p : PlotId) (k : Nat) (d : Desc) (rest : List Desc), k = plotKey p → norDispatchOk s k = true →
       (s.queue k 3).entries = d :: rest → ∃ u, exec (.noriaDispatch p) s = .next u ∧ SameBut [.regs, .plots] s u ∧
         OtherPlots k s u ∧ (u.queue k 3).entries = rest ∧
         (u.plot k).norOut = (s.plot k).norOut ++ [{ seq := (s.plot k).norSeq, desc := d }] ∧
         (waitEn (dw d 1) = true → tokCtr u k (waitCtr (dw d 1)) + waitCnt (dw d 1) = tokCtr s k (waitCtr (dw d 1)))) ∧
     (∀ (p : PlotId) (seq : Nat) (d : Desc) (own : Option Nat) (k : Nat), norSent s (.plot p seq) = some (d, own, k) →
       stopping s (sliceUnit k) = false → keyAllowed s own k = true → norLost s k = false → cisternUp s k = true →
       ∃ u, exec (.noriaCmdArrive (.plot p seq)) s = .next u ∧ u.dram = s.dram ∧
         (16 ≤ (s.nor k).queue.length → u.nor k = s.nor k ∧ norSent u (.plot p seq) = none) ∧
         ((s.nor k).queue.length < 16 → match norCheck s own false k d with
           | none => (u.nor k).queue = (s.nor k).queue ++ [{ src := .plot p seq, desc := d }]
           | some st => u.nor k = s.nor k ∧ (u.queue (plotKey p) 3).held = true ∧
               (u.queue (plotKey p) 3).heldStatus = BitVec.ofNat 8 st)) ∧
     (∀ (p : PlotId) (seq : Nat), ∃ u, exec (.noriaRetryResend (.plot p seq)) s = .next u ∧ SameBut [.plots] s u ∧
       OtherPlots (plotKey p) s u ∧ (∀ c ∈ (u.plot (plotKey p)).norOut, c.seq = seq → c.way ≠ .retry) ∧
       (u.plot (plotKey p)).norOut.map (·.desc) = (s.plot (plotKey p)).norOut.map (·.desc)) ∧
     (∀ (n : Fin 16) (r : Req), reach s r false (partReg n.val 0x048) = .ok → ∃ u, exec (.nwinPush r n) s = .next u ∧
       SameBut [.regs, .parts] (s.reqStepped r) u ∧
       (if 32 ≤ (s.part n.val).winQ.length then u.part n.val = s.part n.val ∧ u.bit (partReg n.val 0x04C) 6 = true
        else ∃ c, (u.part n.val).winQ = (s.part n.val).winQ ++ [c] ∧ c.desc = windowDesc (s.part n.val).window ∧
          c.job = none ∧ u.regs = s.regs)) ∧
     (∀ (n : Fin 16) (r : Req), reach s r true (partReg n.val 0x050) = .ok → ∃ u, exec (.nwinCplPop r n) s = .next u ∧
       u.dram = s.dram ∧ u.plots = s.plots ∧
       match (s.part n.val).winCpl with
       | [] => u.reply = { data := leBytes 4 0 } ∧ u.part n.val = s.part n.val
       | x :: rest => u.reply = { data := leBytes 4 (winCplWord x) } ∧
           ((s.part n.val).winHeld = [] → (u.part n.val).winCpl = rest))) ∧
  (∀ (s : State) (p : PlotId) (b : Fin 32) (k : Nat), k = plotKey p →
     (bankPermitOk s k b.val = true → ∃ u, exec (.bankPermitGrant p b) s = .next u ∧ SameBut [.norias] s u ∧
       (∀ j, j < 32 → nbit (u.nor k).permits.toNat j = (nbit (s.nor k).permits.toNat j || j == b.val))) ∧
     (stepOk s k b.val = true → ∃ u, exec (.noriaStepStart p b) s = .next u ∧ SameBut [.norias] s u ∧
       (u.nor k).queue = (s.nor k).queue ∧
       (∀ j, j < 32 → nbit (u.nor k).stepping.toNat j = (nbit (s.nor k).stepping.toNat j || j == b.val))) ∧
     (nbit (s.nor k).stepping.toNat b.val = true → ∃ u, exec (.noriaStepEnd p b) s = .next u ∧
       u.fuses = s.fuses ∧ nbit (u.nor k).stepping.toNat b.val = false ∧
       match norRunning s k b.val with
       | none => u.dram = s.dram
       | some c => ∀ t, t = runStep s k b.val c → (t.slc k).held = [] → (t.slc k).waiting = [] →
           u.dram = t.dram ∧ u.chk = t.chk) ∧
     (cisternUp s k = true → s.fld (norReg k 0x04C) 0 16 ≠ 0 → ∃ u, exec (.noriaXchkPeriod p) s = .next u ∧
       SameBut [.regs, .norias] s u ∧ xchkState u k = 1 ∧
       (xchkState s k ≠ 1 → (u.nor k).xchk = BitVec.ofNat 32 (2 ^ 32 - 1) ∧ (u.nor k).xchkGo = false)) ∧
     (∀ (r : Req) (v : Word), reach s r false (norReg k 0x050) = .ok → nbit v.toNat 31 = true →
       ∃ u, exec (.noriaXchkGo r p v) s = .next u ∧ SameBut [.regs, .norias] (s.reqStepped r) u ∧ xchkState u k = 1 ∧
         (xchkState s k ≠ 1 → (u.nor k).xchkGo = isMgmt r ∧ (u.nor k).xchk =
           BitVec.ofNat 32 (if nbit v.toNat 5 then 2 ^ 32 - 1 else 2 ^ nbits v.toNat 0 5))) ∧
     (∀ same, xchkOk s k b.val = true → ∃ u, exec (.noriaXchkDone p b same) s = .next u ∧
       SameBut [.regs, .norias, .errs, .cores, .cnts, .wire] s u ∧ nbit (u.nor k).xchk.toNat b.val = false ∧
       (if same then u.fld (norReg k 0x054) 8 8 = satAdd 8 (s.fld (norReg k 0x054) 8 8) 1 ∧
           ((s.nor k).xchkGo = true → u.bit (norReg k 0x048) b.val = false)
        else u.fld (norReg k 0x054) 16 8 = satAdd 8 (s.fld (norReg k 0x054) 16 8) 1 ∧ u.bit (norReg k 0x048) b.val = true ∧
          u.bit (norReg k 0x014) 0 = true)))

/-- R331, R333, R337: a command that its ring refuses leaves the queue and completes at once with the refusal's status;
nothing else happens. A reserved opcode completes with BAD_OPCODE, whatever else would refuse it. The model's choices it
rests on: log 56. -/
def Obligations.RefusedAndReservedCommandsComplete : Prop :=
  (∀ (s : State) (g : RingId) (k : Nat) (c : Cmd) (st : Nat) (bs : List Byte) (ids : List (BitVec 16)), k = ringKey g → refusal s k c = some st →
     ∀ x ∈ [(Instr.copy g, (3 : Nat)), (.fill g, 4), (.noriaOp g bs, 5), (.fence g, 6), (.signal g, 7), (.wait g, 8), (.query g, 9),
         (.selftest g, 10), (.spareIn g, 11), (.groupForm g ids, 12), (.groupDissolve g, 12), (.loadGraph g bs, 1), (.runGraph g, 2)],
       frontCmd s k (· == x.2) = some c →
       ∃ u, exec x.1 s = .next u ∧ SameBut [.rings, .wire, .cores] s u ∧ OtherRings k s u ∧
         (u.ring k).queue = (s.ring k).queue.drop 1 ∧ (u.ring k).running = (s.ring k).running ∧ Answers k c st 0 s u) ∧
  (∀ (s : State) (g : RingId) (k : Nat) (c : Cmd), k = ringKey g → frontCmd s k (fun o => o == 0 || decide (12 < o)) = some c →
     ∃ u, exec (.reservedOpcode g) s = .next u ∧ SameBut [.rings, .wire, .cores] s u ∧ OtherRings k s u ∧
       (u.ring k).queue = (s.ring k).queue.drop 1 ∧ Answers k c 0x01 0 s u)

/-- R342, R343, R344: COPY from host memory asks for its bytes; COPY to host memory sends what the device read gives and
answers how much; FILL, COPY inside the device and NORIA_OP leave the queue and hand their parts to channels or to the
window. The model's choices it rests on: log 29. -/
def Obligations.TransfersStart : Prop :=
  ∀ (s : State) (g : RingId) (k : Nat) (c : Cmd), k = ringKey g →
    (Starts s k 3 c → c.field 32 8 ≠ 0 → c.field 32 8 ≤ 2 ^ 40 →
      (c.byte 8 = 0 → addrOk s (some (cmdPart k c)) (c.field 24 8) (c.field 32 8) = true → dmaCopies s k < 4 →
        ∃ u, exec (.copy g) s = .next u ∧ SameBut [.rings, .funcs] s u ∧
          ∃ r, (u.func (k / 4)).reads = (s.func (k / 4)).reads ++ [r] ∧ r.ring = k ∧ r.cmd = some c.id ∧
            r.addr = BitVec.ofNat 64 (c.field 16 8) ∧ r.len = c.field 32 8) ∧
      (c.byte 8 = 1 → addrOk s (some (cmdPart k c)) (c.field 16 8) (c.field 32 8) = true → dmaCopies s k < 4 →
        devReadGo s (c.field 16 8) (c.field 32 8) = true →
        ∀ r, r = copyOut s (k / 4) (c.field 16 8) (c.field 24 8) (pieces (c.field 16 8) (c.field 32 8)) →
        ∃ u, exec (.copy g) s = .next u ∧ r.1.wire <+: u.wire ∧ u.dram = r.1.dram ∧
          (u.ring k).queue = (s.ring k).queue.drop 1) ∧
      (c.byte 8 = 2 → addrOk s (some (cmdPart k c)) (c.field 16 8) (c.field 32 8) = true →
        addrOk s (some (cmdPart k c)) (c.field 24 8) (c.field 32 8) = true →
        ∃ u, exec (.copy g) s = .next u ∧ u.dram = s.dram ∧ (u.ring k).queue = (s.ring k).queue.drop 1 ∧
          (copyChans s (cmdPart k c) = [] → u.chans = s.chans ∧ Answers k c 0x0B 0 s u))) ∧
    (Starts s k 4 c → c.field 24 8 % 8 = 0 → c.field 16 8 % 8 = 0 → c.field 24 8 ≤ 2 ^ 40 →
      (c.field 24 8 = 0 ∨ addrOk s (some (cmdPart k c)) (c.field 16 8) (c.field 24 8) = true) →
      ∃ u, exec (.fill g) s = .next u ∧ u.dram = s.dram ∧ (u.ring k).queue = (s.ring k).queue.drop 1 ∧
        (copyChans s (cmdPart k c) = [] → Answers k c 0x0B 0 s u) ∧
        (copyChans s (cmdPart k c) ≠ [] → c.field 24 8 = 0 → Answers k c 0 0 s u)) ∧
    (∀ list, Starts s k 5 c → 1 ≤ c.field 24 2 → c.field 24 2 ≤ 4096 → nbit (c.byte 9) 0 = false →
      64 * c.field 24 2 ≤ list.length → ∃ u, exec (.noriaOp g list) s = .next u ∧ SameBut [.rings, .parts] s u ∧
        (u.ring k).queue = (s.ring k).queue.drop 1 ∧ ∃ x ∈ (u.ring k).running, x.id = c.id)

/-- R345, R346, R347: FENCE completes when nothing runs before it and waits otherwise; SIGNAL adds to memory or sends
its token; WAIT runs until the word it polls is great enough or its time is over. The model's choices it rests on: log
56, 58. -/
def Obligations.FencesSignalsAndWaits : Prop :=
  ∀ (s : State) (g : RingId) (k : Nat) (c : Cmd), k = ringKey g →
    (Starts s k 6 c → c.byte 8 ≤ 1 → ∃ u, exec (.fence g) s = .next u ∧ SameBut [.rings, .cores, .wire] s u ∧
      (u.ring k).queue = (s.ring k).queue.drop 1 ∧
      (fenceWaits s k c = [] → Answers k c 0 0 s u ∧ (u.ring k).running = (s.ring k).running) ∧
      (fenceWaits s k c ≠ [] → u.wire = s.wire ∧ ∃ x, (u.ring k).running = (s.ring k).running ++ [x] ∧ x.id = c.id ∧
        x.st = .fence (fenceWaits s k c))) ∧
    (Starts s k 7 c →
      (c.byte 8 = 0 → c.field 16 8 % 8 = 0 → addrOk s (some (cmdPart k c)) (c.field 16 8) 8 = true →
        devWriteGo s (c.field 16 8) 8 = true → ∀ r, r = s.devWeir 0x6 (c.field 16 8) (leBytes 8 (c.field 24 8)) false →
        ∃ u, exec (.signal g) s = .next u ∧ u.dram = r.st.dram ∧ (u.ring k).queue = (s.ring k).queue.drop 1) ∧
      (c.byte 8 = 1 → c.byte 18 ≤ 63 → 1 ≤ c.byte 24 → c.byte 24 ≤ 63 → c.byte 16 ∈ arcOf s (cmdPart k c) → c.byte 17 ≤ 31 →
        plotReported s (32 * c.byte 16 + c.byte 17) = true →
        ∃ u, exec (.signal g) s = .next u ∧ SameBut [.net, .rings, .cores, .wire] s u ∧
          (u.ring k).queue = (s.ring k).queue.drop 1 ∧ Answers k c 0 0 s u ∧
          ∃ x, u.net = s.net ++ [x] ∧ x.cls = 3 ∧
            x.msg = .add ⟨BitVec.ofNat 5 (c.byte 16), BitVec.ofNat 5 (c.byte 17)⟩ landingLoc (BitVec.ofNat 6 (c.byte 18))
              (BitVec.ofNat 6 (c.byte 24)))) ∧
    (Starts s k 8 c → c.field 16 8 % 8 = 0 → addrOk s (some (cmdPart k c)) (c.field 16 8) 8 = true →
      ∃ u, exec (.wait g) s = .next u ∧ SameBut [.rings] s u ∧ OtherRings k s u ∧
        (u.ring k).queue = (s.ring k).queue.drop 1 ∧
        ∃ x, (u.ring k).running = (s.ring k).running ++ [x] ∧ x.id = c.id ∧ x.startAt = s.tb) ∧
    (waitRunning s k = some c → landingRuns s = true → devReadGo s (c.field 16 8) 8 = true →
      ∀ r, r = s.devRead (c.field 16 8) 8 .port → ∃ u, exec (.waitPoll g) s = .next u ∧ u.dram = r.st.dram ∧
        (r.lost = false → r.poison = false → leVal r.data < c.field 24 8 → u = r.st) ∧
        (c.field 24 8 ≤ leVal r.data → ∀ x ∈ (u.ring k).running, x.id ≠ c.id)) ∧
    (waitRunning s k = some c → landingRuns s = true → c.field 32 4 ≠ 0 →
      ∃ u, exec (.waitTimeout g) s = .next u ∧ u.fuses = s.fuses ∧ u.plots = s.plots ∧
        ∀ x ∈ (u.ring k).running, x.id ≠ c.id)

/-- R348, R352, R353: QUERY writes its record to host memory and answers its length; SELFTEST and SPARE_IN start to run
with a test or a spare run of their own. The model's choices it rests on: log 62, 74. -/
def Obligations.QueriesTestsAndSpares : Prop :=
  ∀ (s : State) (g : RingId) (k : Nat) (c : Cmd), k = ringKey g →
    (Starts s k 9 c → (c.byte 8 = 0 ∨ c.byte 8 = 3) → ∀ data, data = (if c.byte 8 = 0 then
        queryBytes (partHeader s (cmdPart k c)) ((arcOf s (cmdPart k c)).map (stackEntry s)) 16 (c.field 24 4)
        else queryBytes (landingRecord s (decide (4 ≤ k))) [] 1 (c.field 24 4)) →
      ∃ u, exec (.query g) s = .next u ∧ SameBut [.rings, .cores, .wire] s u ∧
        (s.writeHost (k / 4) (c.field 16 8) data).wire <+: u.wire ∧ (u.ring k).queue = (s.ring k).queue.drop 1 ∧
        Answers k c 0 data.length s u) ∧
    (Starts s k 10 c → testScope (c.field 24 4) = some (c.byte 8) → scopeIndexOk s (c.byte 8) (c.byte 16) (c.byte 17) = true →
      (k < 4 ∨ c.byte 8 ≤ 2 ∧ c.byte 16 ∈ arcOf s (cmdPart k c)) → s.faults.tests.length < 32 →
      ∃ u t, exec (.selftest g) s = .next u ∧ SameBut [.rings, .faults] s u ∧ u.faults.tests = s.faults.tests ++ [t] ∧
        t.test = BitVec.ofNat 8 (c.field 24 4) ∧ t.stack = c.byte 16 ∧ t.idx = c.byte 17 ∧ t.job = some (k / 4, k, c.id) ∧
        (u.ring k).queue = (s.ring k).queue.drop 1) ∧
    (∀ site rest, Starts s k 11 c → c.byte 8 ≤ 1 → c.byte 16 ∈ arcOf s (cmdPart k c) → c.byte 17 ≤ 31 → c.byte 16 ≤ 15 →
      plotReported s (32 * c.byte 16 + c.byte 17) = true → notQuiesced s k (cmdPart k c) = false →
      spareSites s (c.byte 16) = site :: rest →
      ∃ u x, exec (.spareIn g) s = .next u ∧ SameBut [.rings, .faults] s u ∧ u.faults.spares = s.faults.spares ++ [x] ∧
        x.stack = c.byte 16 ∧ x.plot = c.byte 17 ∧ x.site = site ∧ x.lost = (c.byte 8 == 1) ∧
        (u.ring k).queue = (s.ring k).queue.drop 1)

/-- R339, R341: a graph that passes its checks is in its slot with its plots and symbols, a refused one changes nothing;
a run starts with zeroed token counters and released stewards, and ends part by part; its timeout answers the command
once. The model's choices it rests on: log 59, 60, 61. -/
def Obligations.GraphsLoadRunAndEnd : Prop :=
  ∀ s : State,
    (∀ (g : RingId) (k : Nat) (c : Cmd) (image : List Byte) (n : Nat), k = ringKey g → n = cmdPart k c → Starts s k 1 c →
      c.byte 8 ≤ 7 → c.field 24 4 ≤ 67108864 → c.field 24 4 ≠ 0 → nbit (c.byte 9) 0 = false → c.field 24 4 ≤ image.length →
      ∃ u, exec (.loadGraph g image) s = .next u ∧ SameBut [.regs, .plots, .parts, .rings, .cores, .sec, .wire] s u ∧
        (u.ring k).queue = (s.ring k).queue.drop 1 ∧
        match loadRefusal s n (c.byte 8) (image.take (c.field 24 4)) with
        | some st => u.plots = s.plots ∧ u.parts = s.parts ∧ u.regs = s.regs ∧ Answers k c st 0 s u
        | none => (u.slot n (c.byte 8)).loaded = true ∧ (u.slot n (c.byte 8)).run = none ∧ (u.slot n (c.byte 8)).runNo = 0 ∧
            (u.slot n (c.byte 8)).plots =
              (plotEnts (imgPayload (image.take (c.field 24 4)))).map (fun e => (arcStack s n e.idx, e.plot)) ∧
            Answers k c 0 (gPlots (imgPayload (image.take (c.field 24 4)))) s u) ∧
    (∀ (g : RingId) (k : Nat) (c : Cmd) (n sl : Nat), k = ringKey g → n = cmdPart k c → sl = c.byte 8 → Starts s k 2 c → sl ≤ 7 →
      c.byte 9 ≤ 6 → (s.slot n sl).loaded = true → (s.slot n sl).run = none →
      (∀ p ∈ (s.slot n sl).plots, (s.plot (32 * p.1 + p.2)).failed = none) →
      ∃ u, exec (.runGraph g) s = .next u ∧ SameBut [.regs, .plots, .parts, .rings, .cores, .cnts, .wire] s u ∧
        (u.slot n sl).runNo = (s.slot n sl).runNo + 1 ∧
        (∃ r, (u.slot n sl).run = some r ∧ r.owner = (k, c.id) ∧ r.startAt = s.tb ∧ r.timeout = c.field 10 2) ∧
        (∀ p ∈ (s.slot n sl).plots, (u.plot (32 * p.1 + p.2)).stw.released = true ∧
          ∀ i < 64, tokCtr u (32 * p.1 + p.2) i = 0)) ∧
    (∀ (p : PlotId) (k n sl : Nat) (r : GraphRun), k = plotKey p → plotRun s k = true → (s.plot k).stw.released = true →
      (∀ q ∈ [0, 1, 2, 3], queueEmpty s k q = true) → runOf s k = some (n, sl) → (s.slot n sl).run = some r →
      ∃ u, exec (.plotPartEnd p) s = .next u ∧ SameBut [.plots, .parts, .rings, .cores, .wire] s u ∧ OtherPlots k s u ∧
        (u.plot k).stw.released = false ∧
        (if (s.slot n sl).plots.all fun q => (k / 32, k % 32) == q || r.ended.contains q then (u.slot n sl).run = none
         else ∃ r', (u.slot n sl).run = some r' ∧ r'.ended = (k / 32, k % 32) :: r.ended)) ∧
    (∀ (n : Fin 16) (sl : Fin 8) (r : GraphRun), (s.slot n.val sl.val).run = some r → landingRuns s = true → r.timeout ≠ 0 →
      ∃ u, exec (.runTimeout n sl) s = .next u ∧ SameBut [.parts, .rings, .cores, .wire] s u ∧
        (u.slot n.val sl.val).run = some { r with answered := true } ∧ (r.answered = true → u = s))

/-- R327, R328, R497, R507: an arc that nobody has is assigned and enters RESETTING; a wrong write is ignored with
CFG_REJ; removal and reset enter RESETTING; its end leaves FREE, IDLE, STOPPED or FAULTED. -/
def Obligations.PartitionsAreAssignedResetAndRemoved : Prop :=
  ∀ (s : State) (n : Fin 16),
    (∀ (r : Req) (v : Word), reach s r false (partCfgReg n.val) = .ok → nbit v.toNat 7 = true → nbit v.toNat 31 = false →
      (tdiLocked s n.val = false → (s.part n.val).assigned = false → (s.part n.val).state = .free →
        arcFree s (nbits v.toNat 0 4) (nbits v.toNat 4 3) = true →
        ∃ u, exec (.partAssign r n v) s = .next u ∧ SameBut [.regs, .caps, .plots, .chans, .slices, .norias, .dram, .chk, .net, .links,
            .reqTabs, .stks, .sensors, .parts, .cores, .caches, .faults, .dbg, .cnts, .wire] s u ∧
          OtherParts n.val s u ∧ (u.part n.val).state = .resetting ∧
          (u.part n.val).assigned = true ∧ (u.part n.val).first = nbits v.toNat 0 4 ∧
          (u.part n.val).sizeLog2 = nbits v.toNat 4 3 ∧ (u.part n.val).why = some .assign) ∧
      (tdiLocked s n.val = true ∨ (s.part n.val).assigned = false ∧
          ((s.part n.val).state ≠ .free ∨ arcFree s (nbits v.toNat 0 4) (nbits v.toNat 4 3) = false) →
        ∃ u, exec (.partAssign r n v) s = .next u ∧ SameBut [.regs] (s.reqStepped r) u ∧ OtherRegs [partCfgReg n.val] s u ∧
          u.bit (partCfgReg n.val) 31 = true)) ∧
    (∀ (r : Req) (v : Word), reach s r false (partCfgReg n.val) = .ok → nbit v.toNat 7 = false → nbit v.toNat 31 = false →
      s.dbg.stopAt = none → resetRuns s (.part n) = false → tdiLocked s n.val = false →
      (removable s n.val = true → ∃ u, exec (.partRemove r n v) s = .next u ∧
        SameBut [.parts, .faults, .wire, .cores] (s.reqStepped r) u ∧ OtherParts n.val s u ∧
        (u.part n.val).state = .resetting ∧ (u.part n.val).why = some .remove ∧ ∃ x ∈ u.faults.resets, x.scope = .part n) ∧
      (removable s n.val = false → (s.part n.val).state ≠ .free → ∃ u, exec (.partRemove r n v) s = .next u ∧
        SameBut [.regs] (s.reqStepped r) u ∧ OtherRegs [partCfgReg n.val] s u ∧ u.bit (partCfgReg n.val) 31 = true)) ∧
    (∀ r : Req, reach s r false (lndReg (0x0C0 + 4 * n.val)) = .ok → s.dbg.stopAt = none → resetRuns s (.part n) = false →
      (s.part n.val).state ≠ .free → (s.part n.val).state ≠ .resetting →
      ∃ u, exec (.partReset r n) s = .next u ∧ SameBut [.parts, .faults, .wire, .cores] (s.reqStepped r) u ∧
        OtherParts n.val s u ∧ (u.part n.val).state = .resetting ∧
        ∃ x ∈ u.faults.resets, x.scope = .part n ∧ x.limit = drainLimit s (.part n) ∧ x.cleared = false) ∧
    (∀ trained : Bool, pkgUp s = true → (s.part n.val).state = .resetting → partCleared s n.val = true →
      ∃ u, exec (.resettingEnd n trained) s = .next u ∧
        SameBut [.regs, .caps, .stks, .parts, .faults, .wire, .cores] s u ∧ partCleared u n.val = false ∧
        ((s.part n.val).why = some .remove → u.part n.val = {} ∧ u.bit (partCfgReg n.val) 7 = false) ∧
        ((s.part n.val).why ≠ some .remove → (∀ st ∈ arcOf s n.val, (s.stk st).lost = false) →
          (u.part n.val).state = (if (s.part n.val).why = some .assign then PState.idle else .stopped) ∧
          ∀ st ∈ arcOf s n.val, (u.stk st).inReset = false) ∧
        ((s.part n.val).why ≠ some .remove → trained = false → (∃ st ∈ arcOf s n.val, (s.stk st).lost = true) →
          (u.part n.val).state = .faulted))

/-- R328, R335, R383, R500, R501, R502, R503: EN runs an idle or stopped partition, and a stopped ring of a running
partition, afresh; clearing it stops the partition with every ring it owns, and drops what a ring has fetched and not
started. Every function keeps the EN, STOPPING and STOPPED contract: EN runs a stopped one, clearing EN stops a running
one, a stopping one with nothing left reads STOPPED, and at its limit what it still holds ends. The model's choices it
rests on: log 3, 57. -/
def Obligations.FunctionsKeepTheStopContract : Prop :=
  (∀ (s : State) (r : Req),
     (∀ n : Fin 16, reach s r false (partCtrlReg r n.val) = .ok →
       ((s.part n.val).state = .idle ∨ (s.part n.val).state = .stopped →
         ∃ u, exec (.partSetEn r n) s = .next u ∧ SameBut [.parts, .regs, .wire, .cores] (s.reqStepped r) u ∧ OtherParts n.val s u ∧
           (u.part n.val).state = .running ∧ (u.part n.val).enabled = true ∧
           ((s.part n.val).enabled = false → pageLocked u (comReg n.val 0) = true)) ∧
       ((s.part n.val).state = .running → s.fld (partReg n.val 0x054) 0 16 ≠ 0 → (∀ g ∈ ownRings n.val, s.fld (ringReg g 0x1C) 0 16 ≠ 0) →
         ∃ u, exec (.partClrEn r n) s = .next u ∧ SameBut [.parts, .rings, .funcs, .wire, .cores] (s.reqStepped r) u ∧
           OtherParts n.val s u ∧ (u.part n.val).state = .stopping ∧ ∀ g ∈ ownRings n.val, (u.ring g).state ≠ .running)) ∧
     (∀ (g : RingId) (k : Nat), k = ringKey g → reach s r false (ringReg k 0x14) = .ok →
       ((s.ring k).state = .stopped → (k < 4 ∨ (s.part (k / 4 - 1)).state = .running) →
         ∃ u, exec (.ringSetEn r g) s = .next u ∧ SameBut [.rings] (s.reqStepped r) u ∧ OtherRings k s u ∧
           u.ring k = { state := .running }) ∧
       ((s.ring k).state = .running → s.fld (ringReg k 0x1C) 0 16 ≠ 0 →
         ∃ u, exec (.ringClrEn r g) s = .next u ∧ SameBut [.rings, .funcs] (s.reqStepped r) u ∧ OtherRings k s u ∧
           (u.ring k).state = .stopping ∧ (u.ring k).queue = [] ∧ (u.ring k).running = (s.ring k).running ∧
           ∀ x ∈ (u.func (k / 4)).reads, x.ring = k → x.cmd ≠ none))) ∧
  (∀ (s : State) (r : Req),
     (∀ e : Fin 32, reach s r false (epReg e.val 0x00C) = .ok →
       ((s.ep e.val).fstate = .stopped → ∃ u, exec (.functionSetEn r (.endpoint e)) s = .next u ∧
         SameBut [.eps, .regs] (s.reqStepped r) u ∧ (u.ep e.val).fstate = .running ∧ u.bit (epReg e.val 0x00C) 0 = true) ∧
       ((s.ep e.val).fstate = .running → s.fld (colReg 0x204) 0 16 ≠ 0 → ∃ u, exec (.functionClrEn r (.endpoint e)) s = .next u ∧
         SameBut [.eps, .regs] (s.reqStepped r) u ∧ (u.ep e.val).fstate = .stopping ∧ u.bit (epReg e.val 0x00C) 0 = false)) ∧
     (∀ c : Fin 32, reach s r false (brgReg (2048 + c.val) 0x00C) = .ok →
       ((s.chan (2048 + c.val)).state = .stopped → ∃ u, exec (.functionSetEn r (.chan (.iod c))) s = .next u ∧
         SameBut [.chans, .regs] (s.reqStepped r) u ∧ (u.chan (2048 + c.val)).state = .running) ∧
       ((s.chan (2048 + c.val)).state = .running → s.fld (brgReg (2048 + c.val) 0x054) 0 16 ≠ 0 →
         ∃ u, exec (.functionClrEn r (.chan (.iod c))) s = .next u ∧ SameBut [.chans, .regs, .rings, .net, .cores, .wire] (s.reqStepped r) u ∧
           (u.chan (2048 + c.val)).state = .stopping ∧ (u.chan (2048 + c.val)).queue = [])) ∧
     (∀ m : Fin 32, reach s r false (medReg m.val 0x00C) = .ok →
       ((s.med m.val).fstate = .stopped → ∃ u, exec (.functionSetEn r (.media m)) s = .next u ∧
         SameBut [.media, .regs] (s.reqStepped r) u ∧ (u.med m.val).fstate = .running)) ∧
     (∀ n : Fin 32, reach s r false (xngReg n.val 0x00C) = .ok → (s.xng n.val).fstate = .stopped →
       ∃ u, exec (.functionSetEn r (.xng n)) s = .next u ∧ SameBut [.xngs, .regs] (s.reqStepped r) u ∧ (u.xng n.val).fstate = .running ∧
         u.bit (xngReg n.val 0x00C) 0 = true) ∧
     (pkgUp s = true → ∀ c : Fin 32, (s.chan (2048 + c.val)).state = .stopping → (s.chan (2048 + c.val)).desc = none →
       (s.chan (2048 + c.val)).heldRecs = [] → ∃ u, exec (.functionStopped (.chan (.iod c))) s = .next u ∧ SameBut [.chans] s u ∧
         u.chan (2048 + c.val) = { s.chan (2048 + c.val) with state := .stopped }) ∧
     (pkgUp s = true → ∀ n : Fin 32, (s.xng n.val).fstate = .stopping → (s.xng n.val).replay = [] → (s.xng n.val).txBuf = [] →
       ∃ u, exec (.functionStopped (.xng n)) s = .next u ∧ SameBut [.xngs] s u ∧ (u.xng n.val).fstate = .stopped ∧
         (u.xng n.val).state = .disabled) ∧
     (pkgUp s = true → stopOn s = false → ∀ g : RingId, (s.ring (ringKey g)).state = .stopping →
       ∃ u, exec (.drainLimitExpiry (.ring g)) s = .next u ∧
         SameBut [.regs, .chans, .net, .reqTabs, .parts, .rings, .funcs, .groups, .cores, .faults, .wire] s u ∧
         (u.ring (ringKey g)).running = []) ∧
     (pkgUp s = true → stopOn s = false → ∀ n : Fin 32, (s.xng n.val).fstate = .stopping →
       ∃ u, exec (.drainLimitExpiry (.xng n)) s = .next u ∧
         SameBut [.regs, .slices, .dram, .chk, .net, .errs, .xngs, .eps, .coll, .cores, .caches, .cnts, .wire] s u ∧ (u.xng n.val).fstate = .stopped))

/-- R319, R320, R324, R330, R334: a read of the window answers the commons' bytes, a write stores them, a read outside
it answers all ones; an AtomicOp applies its weir operation and answers the old value, any other is refused. Doorbells
move the tail and the head within the queue and are refused outside it; a fetch asks for the entries in turn, which join
the queue when they come; a timeout fails the read. The model's choices it rests on: log 19, 55. -/
def Obligations.WindowsDoorbellsAndFetches : Prop :=
  (∀ (s : State) (f : Fin 17) (off len : Nat) (data : List Byte) (tbit : Bool) (w : Nat × Nat), w = winOf s f.val →
     pkgUp s = true → bootState s ≠ 0 → tdiRefuses s f.val tbit = false → vfBars s f.val = true →
     stopped s landingUnit = false → winLocked s f.val = false →
     (w.2 + off + len ≤ commonsSize s w.1 → devReadGo s (commonsAddr w.1 (w.2 + off)) len = true →
       ∀ r, r = s.devRead (commonsAddr w.1 (w.2 + off)) len .port →
       ∃ u, exec (.bar2Access f false off len data false tbit) s = .next u ∧ u.dram = r.st.dram ∧
         u.reply = { data := r.data, poison := r.poison } ∧ Msg.cplD f.val true r.data r.poison ∈ u.wire) ∧
     (w.2 + off + len ≤ commonsSize s w.1 → devWriteGo s (commonsAddr w.1 (w.2 + off)) data.length = true →
       ∃ u, exec (.bar2Access f true off len data false tbit) s = .next u ∧
         u.dram = (s.devWrite (commonsAddr w.1 (w.2 + off)) data false .port).st.dram ∧ u.plots = s.plots) ∧
     (commonsSize s w.1 < w.2 + off + len →
       (∃ u, exec (.bar2Access f false off len data false tbit) s = .next u ∧ SameBut [.reply, .wire] s u ∧
         u.reply = { data := List.replicate len 0xFF }) ∧
       (∃ u, exec (.bar2Access f true off len data false tbit) s = .next u ∧ SameBut [.regs] s u ∧
         u.bit (lndReg 0x044) 0 = true)) ∧
     (∀ (x y : BitVec 64) (op : AtomOp) (code n : Nat) (bytes : List Byte), atomOf op x y = some (code, n, bytes) → off % n = 0 →
       w.2 + off + n ≤ commonsSize s w.1 → devWriteGo s (commonsAddr w.1 (w.2 + off)) n = true →
       ∀ r, r = s.devWeir code (commonsAddr w.1 (w.2 + off)) bytes false →
       ∃ u, exec (.atomicOp f 2 op off x y tbit) s = .next u ∧ u.dram = r.st.dram ∧ u.reply.data = r.data) ∧
     (∀ (x y : BitVec 64) (bar : Fin 5) (op : AtomOp), bar.val ≠ 2 ∨ atomOf op x y = none →
       ∃ u, exec (.atomicOp f bar op off x y tbit) s = .next u ∧ SameBut [.reply, .regs, .wire] s u ∧
         u.bit (lndReg 0x044) 1 = true ∧ Msg.cplErr f.val false ∈ u.wire)) ∧
  (∀ s : State,
     (∀ (g : RingId) (k : Nat) (v : Word) (tbit : Bool), k = ringKey g → doorbellOk s g tbit = true →
       stopped s landingUnit = false →
       (∃ u, exec (.sqDoorbell g v tbit) s = .next u ∧ SameBut [.regs, .rings] s u ∧
         (v.toNat < sqSize s k → (u.ring k).tail = v.toNat ∧ u.regs = s.regs) ∧
         (sqSize s k ≤ v.toNat → u.rings = s.rings ∧ u.bit (ringReg k 0x18) 27 = true)) ∧
       (∃ u, exec (.cqDoorbell g v tbit) s = .next u ∧ SameBut [.regs, .rings, .cores, .wire] s u ∧
         (v.toNat < cqSize s k → (u.ring k).cqHead = v.toNat ∧ u.regs = s.regs) ∧
         (cqSize s k ≤ v.toNat → u.rings = s.rings ∧ u.bit (ringReg k 0x18) 27 = true))) ∧
     (∀ (g : RingId) (k : Nat), k = ringKey g → fetchOk s k = true → ∃ u r, exec (.sqFetch g) s = .next u ∧
       SameBut [.funcs] s u ∧ (u.func (k / 4)).reads = (s.func (k / 4)).reads ++ [r] ∧ r.ring = k ∧ r.cmd = none ∧
       r.len = 64 * fetchLen s k ∧ r.addr = BitVec.ofNat 64 (sqBase s k + 64 * (s.ring k).head)) ∧
     (∀ (f : Fin 17) (i : Nat) (r : HostRead) (data : List Byte), pkgUp s = true → stopped s landingUnit = false →
       (s.func f.val).reads[i]? = some r → r.cmd = none → data.length = r.len →
       ∃ u, exec (.hostReadCompletion f i true data) s = .next u ∧ SameBut [.rings, .funcs] s u ∧ OtherRings r.ring s u ∧
         (u.ring r.ring).queue.length = (s.ring r.ring).queue.length + data.length / 64 ∧
         (u.ring r.ring).head = ((s.ring r.ring).head + data.length / 64) % sqSize s r.ring ∧
         (u.ring r.ring).queue.map (·.bytes) = (s.ring r.ring).queue.map (·.bytes) ++
           (List.range (data.length / 64)).map fun j => (data.drop (64 * j)).take 64) ∧
     (∀ (f : Fin 17) (i : Nat) (r : HostRead), pkgUp s = true → (s.func f.val).reads[i]? = some r → r.cmd = none →
       ∃ u, exec (.completionTimeout f i) s = .next u ∧ SameBut [.regs, .rings, .funcs, .lndErr] s u ∧
         (u.ring r.ring).state = .stopped ∧ u.bit (ringReg r.ring 0x18) 28 = true ∧ u.bit (lndReg 0x044) 2 = true ∧
         tget 0 u.lndErr 5 = min (tget 0 s.lndErr 5 + 1) (2 ^ 32 - 1)))

/-- R4, R315, R316, R485: configuration space answers and takes its bytes once the landing is ready; the link's state
shows in LND_STAT; function resets and a hot reset reset what they name and keep the fuses and the settings store. The
model's choices it rests on: log 19. -/
def Obligations.LinkAndFunctionResets : Prop :=
  ∀ s : State, pkgUp s = true →
    (∀ (f : Fin 17) (off : BitVec 12) (v : Word),
      (bootState s = 0 → ∀ write, ∃ u, exec (.configRequest f write off v) s = .next u ∧ SameBut [.reply, .wire] s u ∧
        u.reply.err = true ∧ u.wire = s.wire ++ [.retry f.val]) ∧
      (bootState s = 1 → ∃ u, exec (.configRequest f false off v) s = .next u ∧ SameBut [.reply, .wire] s u ∧
        u.reply = { data := (List.range 4).map fun i => cfgByte s f.val (off.toNat / 4 * 4 + i) }) ∧
      (bootState s = 1 → off.toNat / 4 ≠ 0 → off.toNat / 4 ≠ 0x82 → ∃ u, exec (.configRequest f true off v) s = .next u ∧
        SameBut [.cfg] s u ∧ ∀ i < 4, cfgByte u f.val (off.toNat / 4 * 4 + i) = BitVec.ofNat 8 (v.toNat / 256 ^ i))) ∧
    (∀ (gen : Fin 7) (width : Fin 17), ∃ u, exec (.linkRecovery gen width) s = .next u ∧ SameBut [.regs] s u ∧
      u.fld (lndReg 0x040) 0 3 = gen.val ∧ u.fld (lndReg 0x040) 3 5 = width.val ∧
      u.bit (lndReg 0x040) 8 = (decide (0 < gen.val) && decide (0 < width.val)) ∧
      u.fld (lndReg 0x040) 10 16 = satAdd 16 (s.fld (lndReg 0x040) 10 16) 1) ∧
    (∀ n : Fin 16, bootState s = 1 → tdiLocked s n.val = false → s.dbg.stopAt = none → (s.part n.val).state ≠ .free →
      ∃ u, exec (.flrVf n) s = .next u ∧ SameBut [.parts, .cfg, .faults, .wire, .cores] s u ∧
        (u.part n.val).state = .resetting ∧ ∀ off < 4096, cfgByte u (n.val + 1) off = cfgReset (n.val + 1) off) ∧
    (0 < bootState s → ∃ u, exec .flrPf s = .next u ∧
      SameBut [.regs, .chans, .net, .reqTabs, .parts, .rings, .funcs, .cfg, .errs, .groups, .cores, .faults, .wire] s u ∧
      (∀ g < 4, u.ring g = {}) ∧ (∀ off < 4096, cfgByte u 0 off = cfgReset 0 off) ∧ (u.errf 0) = {}) ∧
    (∃ u, exec .hotReset s = .next u ∧ u.boot.running = true ∧ u.boot.number = s.boot.number + 1 ∧ u.rings = [] ∧
      u.plots = [] ∧ u.net = [] ∧ u.fuses = s.fuses ∧ u.store = s.store ∧ u.toll.ring = s.toll.ring)

/-- R226, R384, R388, R389, R391: a collective descriptor leaves its queue and starts as the next collective of its slot
or leaves a record; flits join their queue; a complete collective leaves its endpoint with its record; scatter-add
packets reach memory. The model's choices it rests on: log 51, 52. -/
def Obligations.CollectivesStartAndComplete : Prop :=
  ∀ s : State,
    (∀ (e : Fin 32) (n : Nat) (f : FlitData) (rest : List FlitData) (d : Desc) (t : State), epOwner s e.val = some n →
      epQueue s e.val 0 = f :: rest → pkgUp s = true → stopping s (epUnit e.val) = false → pkgQuiesced s = false →
      (s.ep e.val).fstate = .running → (s.ep e.val).running.length < 4 → d = wordsOf f.bytes 16 → t = s.epTake e.val 0 →
      ∃ u, exec (.collectiveDescriptor e) s = .next u ∧ u.plots = s.plots ∧ u.fuses = s.fuses ∧
        (collRefusal t n d (f.poison != 0) = none → cSrcQ d = false →
          (u.grp (cSlot d)).seq = (s.grp (cSlot d)).seq + 1 ∧
          ∃ C, (u.ep e.val).running = (s.ep e.val).running ++ [C] ∧ C.desc = d ∧ C.slot = cSlot d ∧
            C.seq = (s.grp (cSlot d)).seq + 1 ∧ C.members = (s.grp (cSlot d)).members) ∧
        ((collRefusal t n d (f.poison != 0)).isSome = true → (u.ep e.val).running = (s.ep e.val).running ∧
          epQueue u e.val 0 = rest)) ∧
    (∀ (e : Fin 32) (n : Nat) (sid : BitVec 16) (src : Loc) (slot : BitVec 5) (data : FlitData), pkgUp s = true →
      stopped s (epUnit e.val) = false → epOwner s e.val = some n →
      ∃ u, exec (.streamFlitArrive (epLoc e.val) 0 sid src slot data) s = .next u ∧ SameBut [.net, .eps] s u ∧
        (epTakes s e.val n 0 sid src slot = true → epQueue u e.val 0 = epQueue s e.val 0 ++ [data]) ∧
        (epTakes s e.val n 0 sid src slot = false → epQueue u e.val 0 = epQueue s e.val 0)) ∧
    (∀ (e : Fin 32) (i : Nat) (C : Coll), (s.ep e.val).running[i]? = some C → pkgUp s = true → stopped s (epUnit e.val) = false →
      pkgQuiesced s = false → collDone s C = true → ∃ u, exec (.collectiveComplete e i) s = .next u ∧ u.plots = s.plots ∧
        (u.ep e.val).running = (s.ep e.val).running.filter (fun X => !(X.slot == C.slot && X.seq == C.seq)) ∧
        (epOwner s e.val = none → u.dram = s.dram ∧ u.net = s.net)) ∧
    (sapGo s = true → ∃ u, exec (.scatterAddPacketSend none) s = .next u ∧ u.coll.sap = [] ∧ u.plots = s.plots ∧
      (s.coll.sap = [] → u.dram = s.dram)) ∧
    (∀ (c : ChanId) (k m : Nat) (t : State) (d : Desc), k = chanKey c → t = s.pump k → (t.chan k).desc = some d →
      (t.chan k).phase = .moving → bDstK d = 3 → bSrcK d ≠ 2 → (t.chan k).lost = false → (t.chan k).aborted = false →
      chanRun t k = true → m = packetLen t d (t.chan k).pos (unitFirst (t.chan k) d + bUnitElems d - (t.chan k).pos) →
      elemsGo t d (t.chan k).pos m = true →
      ∃ u, exec (.scatterAddPacketSend (some c)) s = .next u ∧ (u.chan k).pos = (t.chan k).pos + m ∧ (u.chan k).desc = some d ∧
        u.dram = (moveElems t k d (t.chan k).pos m).st.dram)

/-- R382, R383, R385 to R387, R389, R390, R392, R393, R394, R395: forming asks every other member and ends with the last
answer, with a wrong one or with its time; a dissolve leaves the slot FREE. Heartbeats go to the neighbours and are
noted; silence and SEVER sever the slot; LOST ends its collective; CREDIT adds credit; DATA counts for its collective,
or ends it where the descriptors do not fit. The model's choices it rests on: log 3, 6. -/
def Obligations.GroupsFormAndTakePackets : Prop :=
  (∀ s : State,
     (∀ (g : RingId) (k : Nat) (c : Cmd) (ids : List (BitVec 16)), k = ringKey g → Starts s k 12 c → gfAction c = 0 →
       (formRefusal s (cmdPart k c) c ids = none → collsOf s (gfSlot c) = [] → s.coll.kept = [] →
         ∃ u F, exec (.groupForm g ids) s = .next u ∧ SameBut [.rings, .groups, .coll] s u ∧
           (u.grp (gfSlot c)).form = some F ∧ F.gid = BitVec.ofNat 16 (gfGid c) ∧ F.epoch = BitVec.ofNat 32 (gfEpoch c) ∧
           F.members = ids.take (gfSize c) ∧ F.rank = gfRank c ∧ F.job = (k, c.id) ∧
           tget 0 u.coll.lastEpoch (gfGid c) = F.epoch ∧
           (∀ m ∈ F.members, m ≠ ownId s → routePorts s m.toNat ≠ [] → ∃ h ∈ u.coll.out, h.pkt.kind = .join ∧ h.pkt.dst = m)) ∧
       (∀ st, formRefusal s (cmdPart k c) c ids = some st → st ≠ 0x31 → ∃ u, exec (.groupForm g ids) s = .next u ∧
         SameBut [.rings, .cores, .wire] s u ∧ Answers k c st 0 s u)) ∧
     (∀ (g : RingId) (k : Nat) (c : Cmd), k = ringKey g → Starts s k 12 c → gfAction c = 1 → gfSlot c ≤ 15 →
       grpOwner s (gfSlot c) = some (cmdPart k c) → ∃ u, exec (.groupDissolve g) s = .next u ∧ u.plots = s.plots ∧
         u.fuses = s.fuses ∧ u.grp (gfSlot c) = {} ∧ collsOf u (gfSlot c) = []) ∧
     (∀ (src gid : BitVec 16) (epoch : Word) (digest : List Byte) (g q : Nat) (F : Form), collUp s = true →
       formingSlot s gid epoch = some g → (s.grp g).form = some F → rankOf F.members src = some q →
       ∀ i ∈ [Instr.join src gid epoch digest, .joinAck src gid epoch digest], ∃ u, exec i s = .next u ∧
         u.plots = s.plots ∧ u.dram = s.dram ∧ u.fuses = s.fuses ∧
         (digest ≠ F.digest → (u.grp g).form = none ∧ (u.grp g).state = (s.grp g).state) ∧
         (digest = F.digest → allAnswered { F with answered := q :: F.answered } = true →
           u.grp g = formedGroup F s.tb) ∧
         (digest = F.digest → allAnswered { F with answered := q :: F.answered } = false →
           (u.grp g).form = some { F with answered := q :: F.answered })) ∧
     (∀ (src gid : BitVec 16) (epoch : Word) (digest : List Byte), collUp s = true → formingSlot s gid epoch = none →
       activeSlot s gid epoch = none → ∃ u, exec (.join src gid epoch digest) s = .next u ∧
         SameBut [.regs, .xngs, .coll, .cnts] s u ∧ u.coll.kept = s.coll.kept ++
           (if higherEpoch s gid epoch then [{ gid := gid, epoch := epoch, src := src, digest := digest, since := s.tb }] else [])) ∧
     (∀ i, collUp s = true → ∃ u, exec (.joinKeepExpiry i) s = .next u ∧ SameBut [.coll] s u ∧
       u.coll.kept = s.coll.kept.eraseIdx i) ∧
     (∀ (g : Fin 16) (F : Form), collUp s = true → (s.grp g.val).form = some F → ∃ u, exec (.grpTimeout g) s = .next u ∧
       SameBut [.rings, .groups, .cores, .wire] s u ∧ u.grp g.val = { s.grp g.val with form := none })) ∧
  (∀ (s : State) (src gid : BitVec 16) (epoch : Word) (g : Nat), collUp s = true →
     (grpState (s.grp g) = .active → ∀ h : g < 16,
       (∃ u, exec (.heartbeatSend ⟨g, h⟩) s = .next u ∧ SameBut [.coll] s u ∧
         ∃ l, u.coll.out = s.coll.out ++ l ∧ l.map (·.pkt.dst) = neighbours (s.grp g) ∧ ∀ x ∈ l, x.pkt.kind = .heartbeat) ∧
       (∀ next, ∃ u, exec (.heartbeatTimeout ⟨g, h⟩ next) s = .next u ∧ u.plots = s.plots ∧ u.fuses = s.fuses ∧
         (u.grp g).state = .severed ∧ collsOf u g = [] ∧ u.bit (colReg (0x100 + 16 * g)) 3 = true)) ∧
     (activeSlot s gid epoch = some g →
       (∃ u, exec (.heartbeat src gid epoch) s = .next u ∧ SameBut [.xngs, .groups, .coll] s u ∧
         (nth 0 (s.grp g).members (((s.grp g).rank + 1) % (s.grp g).members.length) = src → (u.grp g).heardNext = s.tb) ∧
         (nth 0 (s.grp g).members (((s.grp g).rank + 1) % (s.grp g).members.length) ≠ src →
           (u.grp g).heardNext = (s.grp g).heardNext) ∧ (u.grp g).state = (s.grp g).state) ∧
       (∃ u, exec (.sever src gid epoch) s = .next u ∧ u.plots = s.plots ∧ u.fuses = s.fuses ∧
         (u.grp g).state = .severed ∧ collsOf u g = []) ∧
       (∀ (seq : BitVec 16) (e : Nat) (C : Coll), findColl s g seq = some (e, C) → ∃ u,
         exec (.lost src gid epoch seq) s = .next u ∧ u.plots = s.plots ∧
         (u.ep e).running = (s.ep e).running.filter (fun X => !(X.slot == C.slot && X.seq == C.seq))) ∧
       (∀ (seq : BitVec 16) (like : Desc) (off : Nat) (data : List Byte) (bad : Bool) (q n e : Nat) (C : Coll),
         rankOf (s.grp g).members src = some q → grpOwner s g = some n → dataColl s g q seq like = some (e, C) →
         dataGo s src gid epoch seq like off data.length = true →
         ∃ u, exec (.dataPacket src gid epoch seq like off data bad) s = .next u ∧ u.plots = s.plots ∧
           (mismatch C like = true → (u.ep e).running =
             (s.ep e).running.filter (fun X => !(X.slot == C.slot && X.seq == C.seq))) ∧
           (mismatch C like = false → dataFits C q off data.length = true → C ∈ (s.ep e).running →
             ∃ X ∈ (u.ep e).running, X.slot = C.slot ∧ X.seq = C.seq ∧ tget 0 X.got q =
               min (collRecv C q) (tget 0 C.got q + (if cOp C.desc = 6 then 1 else data.length))))) ∧
     (∀ amount, ∃ u, exec (.e2eCredit src amount) s = .next u ∧ SameBut [.xngs, .coll] s u ∧
       tget 0 u.coll.e2e src.toNat = tget 0 s.coll.e2e src.toNat + amount))

/-- R27, R365, R366, R367, R368, R370, R371, R373, R374, R375, R376, R378, R381: the steps of training, of a retrain and
of link-down, with the reason each failure leaves. What an ACTIVE crossing takes, acknowledges and sends, and how its
keys change. The model's choices it rests on: log 41, 43, 45, 46, 47. -/
def Obligations.CrossingsTrainFailAndCarryFlits : Prop :=
  (∀ (s : State) (n : Fin 32) (k : Nat), k = n.val →
     (xngGo s = true →
       ((s.xng k).state = .detect → ∃ u, exec (.xngLightDetect n) s = .next u ∧ SameBut [.xngs] s u ∧
         match firstCfg s k with
         | some c => (u.xng k).state = .equalise ∧ (u.xng k).cfg = c
         | none => (u.xng k).state = .disabled) ∧
       (xngStep (s.xng k) = .equalise →
         (∃ u, exec (.xngEqualiseDone n true) s = .next u ∧ SameBut [.xngs] s u ∧ xngStep (u.xng k) = .align) ∧
         (∃ u, exec (.xngEqualiseDone n false) s = .next u ∧ u.plots = s.plots ∧
           (∀ c, nextCfg s k = some c → (u.xng k).cfg = c ∧ xngStep (u.xng k) = .equalise) ∧
           (nextCfg s k = none → (s.xng k).state ≠ .retrain → (u.xng k).state = .down ∧ u.fld (xngReg k 0x048) 24 4 = 2))) ∧
       (xngStep (s.xng k) = .align → ∀ spare, ∃ u, exec (.xngAlignDone n spare) s = .next u ∧ SameBut [.regs, .xngs] s u ∧
         xngStep (u.xng k) = .peer ∧ (spare = true → u.bit (xngReg k 0x044) 6 = true)) ∧
       (xngStep (s.xng k) = .peer → ∀ (peer : BitVec 16) (gen : Fin 3) (half off : Bool),
         ∃ u, exec (.xngPeerDone n peer gen half off) s = .next u ∧ u.plots = s.plots ∧
           match settle s k peer gen.val half with
           | some c => (u.xng k).cfg = c ∧ u.fld (xngReg k 0x044) 16 16 = peer.toNat ∧
               (u.xng k).state = (if (s.xng k).state = .retrain then .active else .auth)
           | none => (s.xng k).state ≠ .retrain → (u.xng k).state = .down ∧ u.fld (xngReg k 0x048) 24 4 = 4) ∧
       ((s.xng k).state = .auth → ∀ ok, ∃ u, exec (.xngAuthDone n ok) s = .next u ∧ u.plots = s.plots ∧
         (if s.bit (xngReg k 0x040) 2 ≠ (s.xng k).peerEncOff then
           (u.xng k).state = .down ∧ u.fld (xngReg k 0x048) 24 4 = 6
          else if ok && xngTrusts s && keysUsable s then (u.xng k).state = .active ∧
           u.bit (xngReg k 0x044) 8 = !s.bit (xngReg k 0x040) 2 ∧ (u.xng k).credit = List.replicate 8 4096
          else (u.xng k).state = .down ∧ u.fld (xngReg k 0x048) 24 4 = 5)) ∧
       (∃ u, exec (.xngStateTimeout n) s = .next u ∧ u.plots = s.plots ∧
         ((s.xng k).state = .align → (u.xng k).state = .down ∧ u.fld (xngReg k 0x048) 24 4 = 3) ∧
         ((s.xng k).state = .auth → (u.xng k).state = .down ∧ u.fld (xngReg k 0x048) 24 4 = 5)) ∧
       ((s.xng k).state = .down → ∃ u, exec (.xngDownExpiry n) s = .next u ∧ SameBut [.xngs] s u ∧
         (u.xng k).state = if (s.xng k).fstate = .running ∧ (pairGen s k).isSome then .detect else .disabled) ∧
       ((s.xng k).state = .active → ∀ c, firstCfg s k = some c → ∃ u, exec (.codewordLockLoss n) s = .next u ∧
         SameBut [.xngs] s u ∧ (u.xng k).state = .retrain ∧ (u.xng k).phase = .equalise ∧ (u.xng k).cfg = c) ∧
       ((s.xng k).state = .retrain →
         (∃ u, exec (.xngRetrainDone n true) s = .next u ∧ SameBut [.regs, .xngs, .cnts, .wire] s u ∧
           (u.xng k).state = .active ∧ (u.xng k).fails = 0) ∧
         (∃ u, exec (.xngRetrainDone n false) s = .next u ∧ u.plots = s.plots ∧
           (2 ≤ (s.xng k).fails → (u.xng k).state = .down ∧ u.fld (xngReg k 0x048) 24 4 = 8) ∧
           ((s.xng k).fails < 2 → (firstCfg s k).isSome = true → (u.xng k).state = .retrain ∧
             (u.xng k).fails = (s.xng k).fails + 1))) ∧
       ((s.xng k).state = .active → ∀ laneCorr, ∃ u, exec (.xngErrorRateTick n laneCorr) s = .next u ∧ u.plots = s.plots ∧
         (u.xng k).secReplays = 0 ∧
         ((s.xng k).secReplays ≤ s.fld (xngReg k 0x054) 0 16 → laneCorr ≤ s.fld (xngReg k 0x05C) 0 16 →
           (u.xng k).state = .active ∧ (u.xng k).overSecs = 0))) ∧
     (∀ r, reach s r false (xngReg k 0x060) = .ok → ∃ u, exec (.xngRetrain r n) s = .next u ∧ u.plots = s.plots ∧
       (u.xng k).ceil = ⟨2, false, false⟩ ∧
       ((s.xng k).state = .active → xngGo s = true → (u.xng k).state = .retrain ∨ (u.xng k).state = .down) ∧
       ((s.xng k).state ≠ .active → (u.xng k).state = (s.xng k).state)) ∧
     (∃ u, exec .refclkXngAbsent s = .next u ∧ u.plots = s.plots ∧ u.pins = { s.pins with xngClk := false } ∧
       (xngLit (s.xng k) = true → (u.xng k).state = .down ∧ u.fld (xngReg k 0x048) 24 4 = 9)) ∧
     (∃ u, exec .refclkXngStable s = .next u ∧ SameBut [.pins, .xngs] s u ∧ u.pins = { s.pins with xngClk := true } ∧
       ((s.xng k).state = .down → (pairGen s k).isSome = true → (s.xng k).fstate = .running → (u.xng k).state = .detect))) ∧
  (∀ (s : State) (n : Fin 32) (k : Nat), k = n.val →
     (xngGo s = true → (s.xng k).state = .active → ∀ (f : List Byte) (tagOk : Bool) (plain : List Byte),
       ∃ u, exec (.xngFlitReceive n f tagOk plain) s = .next u ∧ u.plots = s.plots ∧ u.fuses = s.fuses ∧
         (flitOk f = false → (s.xng k).nak = false → (u.xng k).nak = true ∧ (u.xng k).rxAck = (s.xng k).rxAck ∧
           u.coll = s.coll ∧ ∃ x, u.wire = s.wire ++ [.xflit k x] ∧ flNak x = true) ∧
         (flitOk f = true → flNak f = false → flType f = 0 → SameBut [.xngs] s u ∧
           (u.xng k).replay = (ackFlits (s.xng k) (flAck f)).replay) ∧
         (flitOk f = true → flNak f = false → flType f = 1 → flSeq f = (s.xng k).rxNext → xngEnc s k = false →
           (u.xng k).rxAck = flSeq f ∧ (u.xng k).rxNext = flSeq f + 1 ∧ (u.xng k).nak = false)) ∧
     (xngSends s k = true → xngEnc s k = true → 0 < (s.xng k).txGroup → (s.xng k).replay.length < 1024 →
       ∃ u, exec (.tagGroupClose n) s = .next u ∧ SameBut [.freeCtr, .regs, .xngs, .cnts, .wire] s u ∧
         ((s.xng k).rekeying = false → (u.xng k).groups = (s.xng k).groups + 1 ∧ (u.xng k).txPhase = (s.xng k).txPhase) ∧
         ((s.xng k).rekeying = true → (u.xng k).groups = 0 ∧ (u.xng k).txPhase = !(s.xng k).txPhase ∧
           (u.xng k).rekeying = false)) ∧
     (hasKeys s k = true → ∀ (r : Req) (i : Instr), (i = .xngRekey r n ∧ reach s r false (xngReg k 0x060) = .ok) ∨
         (i = .rekeyDue n ∧ s.fld (xngReg k 0x058) 0 16 ≠ 0) → ∃ u, exec i s = .next u ∧ u.plots = s.plots ∧
       (keysUsable s = false → (u.xng k).state = .down ∧ u.fld (xngReg k 0x048) 24 4 = 5) ∧
       (keysUsable s = true → (s.xng k).txGroup = 0 → (u.xng k).txPhase = !(s.xng k).txPhase ∧ (u.xng k).groups = 0 ∧
         (u.xng k).keyAt = s.tb) ∧
       (keysUsable s = true → (s.xng k).txGroup ≠ 0 → (u.xng k).rekeying = true ∧ (u.xng k).txPhase = (s.xng k).txPhase)) ∧
     (∀ t, xngSends s k = true → t = s.dropLostPkts → (t.xng k).txBuf.length < 240 → portOpen t k = true →
       stopping t ⟨16, 10, k⟩ = false →
       ∃ u, exec (.xngPacketSend n) s = .next u ∧ SameBut [.freeCtr, .regs, .xngs, .eps, .coll, .cnts, .wire] s u ∧
         (∀ h, pickPkt t k = some h → u.coll.out = t.coll.out.erase h ∧
           nth 0 (u.xng k).credit (pktChan (outPkt h)) =
             nth 0 (t.xng k).credit (pktChan (outPkt h)) - pktUnits (outPkt h)) ∧
         (pickPkt t k = none → pickData t k = none → (t.xng k).txBuf = [] → u.coll = t.coll ∧
           (u.xng k).replay = (t.xng k).replay ∧ ∃ x, u.wire = t.wire ++ [.xflit k x] ∧ flType x = 0)))

/-- R458, R459, R461, R485, R486, R490: a boot stage that passes, or holds out stacks while others remain, joins the
stages passed; READY ends the boot; a fatal failure enters low-water mode, a counted one and the watchdog start the boot
anew; BOOT_CTRL chooses a slot, clears attempts and resets the package. The model's choices it rests on: log 25. -/
def Obligations.BootStagesPassOrFail : Prop :=
  ∀ s : State,
    (∀ k : Fin 17, pkgUp s = true → stageOn s k.val = true → storeFails s k.val = none → keptStacks s ≠ [] →
      (stageReady s k.val = true → ∃ u, exec (.bootStageComplete k .pass) s = .next u ∧ u.boot.passed = k.val :: s.boot.passed ∧
        u.fuses = s.fuses ∧ u.pending = s.pending ∧
        (k.val = 0x10 → bootState u = 1 ∧ u.boot.running = false)) ∧
      (∀ (st : Fin 16) (cause : BitVec 4), cause.toNat = holdCause k.val → cause ≠ 0 → activeStack s st.val = true →
        (∃ x ∈ keptStacks s, x ≠ st.val) →
        ∃ u, exec (.bootStageComplete k (.holdOut [st] cause)) s = .next u ∧ u.boot.passed = k.val :: s.boot.passed ∧
          heldOut u st.val = true ∧ u.fld (bootReg (0x050 + 4 * (st.val / 8))) (4 * (st.val % 8)) 4 = holdCause k.val) ∧
      (∀ reason : Byte, failOk s k.val reason.toNat = true → ∃ u, exec (.bootStageComplete k (.fail reason)) s = .next u ∧
        (reason.toNat ≤ 5 → bootState u = 2 ∧ u.fld (bootReg 0x040) 12 8 = reason.toNat ∧ u.boot.running = false) ∧
        (5 < reason.toNat → bootState u = 0 ∧ u.boot.running = true ∧ u.boot.passed = [] ∧
          u.boot.number = s.boot.number + 1 ∧ u.fuses = s.fuses ∧ u.net = []))) ∧
    (pkgUp s = true → s.boot.running = true → ∃ u, exec .bootWatchdog s = .next u ∧ bootState u = 0 ∧ u.boot.running = true ∧
      u.boot.passed = [] ∧ u.boot.number = s.boot.number + 1 ∧ u.fuses = s.fuses ∧ u.plots = []) ∧
    (∀ r : Req, reach s r false (bootReg 0x044) = .ok →
      (∀ next : BitVec 2,
        (bootState s = 0 → ∃ u, exec (.coldReset r next) s = .next u ∧ u.boot.running = true ∧ u.boot.number = s.boot.number + 1 ∧
          u.rings = [] ∧ u.slices = [] ∧ u.fuses = s.fuses ∧ u.store = s.store) ∧
        (bootState s ≠ 0 → resetRuns s (.package true) = false → ∃ u x, exec (.coldReset r next) s = .next u ∧
          SameBut [.boot, .faults] (s.reqStepped r) u ∧ u.faults.resets = [x] ∧ x.scope = .package true ∧ x.cleared = false ∧
          u.boot.nextSlot = (if next = 3 then s.boot.nextSlot else next)) ∧
        (∃ u, exec (.nextSlot r next) s = .next u ∧ SameBut [.boot] (s.reqStepped r) u ∧
          u.boot.nextSlot = (if next = 3 then s.boot.nextSlot else next))) ∧
      (bootState s = 2 → exec (.warmReset r) s = .next (s.reqStepped r)) ∧
      (bootState s = 0 → ∃ u, exec (.warmReset r) s = .next u ∧ u.boot.running = true ∧ warmBoot u = true ∧ u.boot.passed = [] ∧
        u.rings = [] ∧ u.fuses = s.fuses ∧ u.store = s.store) ∧
      (bootState s = 1 → resetRuns s (.package false) = false → ∃ u x, exec (.warmReset r) s = .next u ∧
        SameBut [.faults] (s.reqStepped r) u ∧ u.faults.resets = [x] ∧ x.scope = .package false) ∧
      (∃ u, exec (.clrAttempts r) s = .next u ∧ SameBut [.store, .regs] (s.reqStepped r) u ∧ OtherRegs [bootReg 0x040] s u ∧
        (attemptNext s < attemptSize → attemptKind u (attemptNext s) = 2) ∧
        u.fld (bootReg 0x040) 10 2 = min 3 (attemptCount u)))

/-- R462, R479, R480, R481, R487, R490: a settings store command waits for its end unless it would touch the attempt
counter; the end reads, programs an erased page from the window, or erases a 64 KiB block, and a failed one changes
nothing. A receiver takes a block it wants and whose digest is listed; repair rounds ask for what is missing; after the
third an incomplete receiver is held out. The model's choices it rests on: log 23, 24. -/
def Obligations.TheStoreAndTheFloodMoveBytes : Prop :=
  (∀ s : State,
     (∀ r : Req, reach s r false (bootReg 0x104) = .ok → s.fld (bootReg 0x108) 0 2 ≠ 1 →
       ∀ (x : Instr × BitVec 2), x ∈ [(Instr.sstoreRead r, (1 : BitVec 2)), (.sstoreProgram r, 2), (.sstoreErase r, 3)] →
       ∀ a, a = s.fld (bootReg 0x100) 0 26 / 256 * 256 →
       (x.2 = 1 ∨ storeProtected a = false → ∃ u, exec x.1 s = .next u ∧ SameBut [.boot, .regs] (s.reqStepped r) u ∧
         OtherRegs [bootReg 0x108] s u ∧ u.fld (bootReg 0x108) 0 2 = 1 ∧ (∃ g, u.boot.sstore = some (x.2, a, g))) ∧
       (x.2 ≠ 1 → storeProtected a = true → ∃ u, exec x.1 s = .next u ∧ SameBut [.regs] (s.reqStepped r) u ∧
         OtherRegs [bootReg 0x108] s u ∧ u.bit (bootReg 0x108) 2 = true)) ∧
     (∀ (c : BitVec 2) (a g : Nat), pkgUp s = true → s.boot.sstore = some (c, a, g) → storeWaits s g = false →
       (∃ u, exec (.sstoreDone false) s = .next u ∧ SameBut [.boot, .regs] s u ∧ u.boot.sstore = none ∧ u.fld (bootReg 0x108) 0 2 = 3) ∧
       (c = 1 → ∃ u, exec (.sstoreDone true) s = .next u ∧ SameBut [.boot, .regs] s u ∧ u.fld (bootReg 0x108) 0 2 = 2 ∧
         windowBytes u = storeBytes s a 256) ∧
       (c = 2 → pageErased s a = true → ∃ u, exec (.sstoreDone true) s = .next u ∧ SameBut [.boot, .regs, .store] s u ∧
         u.fld (bootReg 0x108) 0 2 = 2 ∧ storeBytes u a 256 = windowBytes s ∧
         ∀ b, b < a ∨ a + 256 ≤ b → storeBytes u b 1 = storeBytes s b 1) ∧
       (c = 2 → pageErased s a = false → ∃ u, exec (.sstoreDone true) s = .next u ∧ SameBut [.boot, .regs] s u ∧
         u.fld (bootReg 0x108) 0 2 = 3) ∧
       (c = 3 → ∃ u, exec (.sstoreDone true) s = .next u ∧ SameBut [.boot, .regs, .store] s u ∧ u.fld (bootReg 0x108) 0 2 = 2 ∧
         ∀ b, storeBytes u b 1 = if b / 65536 = a / 65536 then [0xFF] else storeBytes s b 1))) ∧
  (∀ s : State, pkgUp s = true → s.boot.flooding = true →
     (∀ (r num : Nat) (data : List Byte), r ∈ receivers s → (s.receiver r).out = false →
       (blockTaken s r num data = true → ∃ u, exec (.floodBlock r num data) s = .next u ∧ SameBut [.plots, .slices, .stks, .boot] s u ∧
         (u.receiver r).got = num :: (s.receiver r).got ∧ num ∉ missing u r) ∧
       (blockTaken s r num data = false → exec (.floodBlock r num data) s = .next s)) ∧
     (s.boot.roundOn = false → floodRounds s = 0 → incomplete s ≠ [] → ∃ u, exec .floodRepairRequest s = .next u ∧
       SameBut [.regs, .boot] s u ∧ OtherRegs [bootReg 0x0C4] s u ∧ u.boot.roundOn = true ∧ floodRounds u = 1 ∧
       ∀ r ∈ incomplete s, (u.receiver r).asked = missing s r) ∧
     (s.boot.roundOn = true → ∃ u, exec .floodRoundEnd s = .next u ∧
       (incomplete s = [] → SameBut [.boot] s u ∧ u.boot.roundOn = false ∧ floodOver u = true) ∧
       (incomplete s ≠ [] → floodRounds s < 3 → SameBut [.regs, .boot] s u ∧ floodRounds u = floodRounds s + 1 ∧
         ∀ r ∈ incomplete s, (u.receiver r).asked = missing s r) ∧
       (incomplete s ≠ [] → floodRounds s = 3 → u.boot.roundOn = false ∧ u.fuses = s.fuses ∧ u.dram = s.dram ∧
         ∀ r ∈ incomplete s, (u.receiver r).out = true)))

/-- R397, R398, R399, R400: a ferry that passes its checks is admitted with its measurement; another is rejected with
the reason of the first check that fails; a lost or readmitted ferry takes its crossings down. The model's choices it
rests on: log 49. -/
def Obligations.FerriesAreAdmittedAndLost : Prop :=
  ∀ (s : State) (i : Fin 9),
    (∀ x : FerryInfo, pkgUp s = true → ferryTurn s i.val = true → ferryState s i.val ≠ 4 → ferryState s i.val ≠ 5 →
      ∃ u, exec (.ferryAdmission i x) s = .next u ∧ SameBut [.freeCtr, .regs, .xngs, .sec, .boot, .store, .wire] s u ∧
        match ferryReason s i.val x with
        | none => ferryState u i.val = 4 ∧ u.fld (ferReg i.val 0x040) 3 4 = 0 ∧ tget [] u.sec.meas (6 + i.val) = x.meas.take 32 ∧
            u.reg (ferReg i.val 0x048) = x.version
        | some reason => ferryState u i.val = 5 ∧ u.fld (ferReg i.val 0x040) 3 4 = reason ∧
            tget [] u.sec.meas (6 + i.val) = List.replicate 32 0 ∧ ∀ n ∈ siteXngs i.val, (u.xng n).state = .disabled) ∧
    (pkgUp s = true → ferryState s i.val = 4 →
      (i.val < 8 → ∃ u, exec (.ferryLost i false) s = .next u ∧
        SameBut [.regs, .slices, .dram, .chk, .net, .errs, .xngs, .eps, .coll, .cores, .caches, .sec, .cnts, .wire] s u ∧
        ferryState u i.val = 6 ∧ ∀ n ∈ siteXngs i.val, (s.xng n).state ≠ .disabled → (u.xng n).state = .down) ∧
      (i.val = 8 → ∃ u, exec (.ferryLost i false) s = .next u ∧ u.boot.running = true ∧ u.boot.number = s.boot.number + 1 ∧
        u.rings = [] ∧ u.fuses = s.fuses)) ∧
    (∀ r : Req, reach s r false (ferReg i.val 0x080) = .ok → ∃ u, exec (.ferryReadmit r i) s = .next u ∧
      SameBut [.regs, .slices, .dram, .chk, .net, .errs, .xngs, .eps, .coll, .cores, .caches, .sec, .cnts, .wire] (s.reqStepped r) u ∧
      ferryState u i.val = 1 ∧ tget [] u.sec.meas (6 + i.val) = List.replicate 32 0 ∧
      ∀ n ∈ siteXngs i.val, (s.xng n).state ≠ .disabled → (u.xng n).state = .down)

/-- R8, R10, R611, R612: a read answers the captured or the live word, captures the `_HI` words of a pair and clears RC
fields; a read that is refused, or whose size or alignment is wrong, changes no register but the error log. The model's
choices it rests on: log 63, 64. -/
def Obligations.ReadsAnswerCaptureAndClear : Prop :=
  ∀ (s t : State) (r : Req) (x : RegAddr) (a : Nat), t = s.reqStepped r → placeOf s r x = .reg a →
    ∀ c ∈ [Instr.registerPairLoRead r x 4, .rcRead r x 4],
      (∀ ty inst, reach s r true a = .ok → a % 4 = 0 → pageType (addrDie a) (addrPage a) = some (ty, inst) → popAt t a ty inst = none →
        ∃ u, exec c s = .next u ∧ SameBut [.regs, .caps, .reply] t u ∧ OtherRegs [a] t u ∧
          (∀ w, tget none s.caps a = some w → u.reply = { data := leBytes 4 w.toNat } ∧ tget none u.caps a = none ∧ u.regs = t.regs) ∧
          (tget none s.caps a = none → u.reply = { data := leBytes 4 (liveWord t r a) } ∧
            (∀ off ∈ pairHis ty (addrOff a), tget none u.caps (a / 4096 * 4096 + off) =
              some (BitVec.ofNat 32 (liveWord t r (a / 4096 * 4096 + off)))) ∧
            (∀ f ∈ fieldsAt ty (addrOff a), f.covers (addrOff a) = true → f.acc = .rc → u.fld a f.lsb f.w = 0))) ∧
      (∀ n, reach s r true a = .refused n → ∃ u, exec c s = .next u ∧ SameBut [.regs, .cnts, .reply] t u ∧
        OtherRegs [pkgReg 0x050, pkgReg 0x054, cntPage 594 0x044] t u ∧ u.reply = { data := refusedData s r a n 4 } ∧
        (s.bit (pkgReg 0x054) 31 = false → u.bit (pkgReg 0x054) 31 = true ∧ u.fld (pkgReg 0x054) 16 4 = n % 16)) ∧
      (reach s r true a = .ok → a % 4 ≠ 0 → ∃ u, exec c s = .next u ∧ SameBut [.regs, .cnts, .reply] t u ∧
        OtherRegs [pkgReg 0x050, pkgReg 0x054, cntPage 594 0x044] t u ∧ u.reply = { data := List.replicate 4 0 } ∧
        (s.bit (pkgReg 0x054) 31 = false → u.fld (pkgReg 0x054) 16 4 = 4))

/-- R10, R611, R612, R615, R619: a write takes effect field by field by its access code; a locked RWL field is refused
with WR_REJ; a refused or misaligned write changes no register but the error log; HDR_LOCK locks a page and
HDR_IRQ_FORCE sets the page's events. The model's choices it rests on: log 63, 65, 66. -/
def Obligations.WritesFollowTheirAccessCodes : Prop :=
  ∀ (s t : State) (r : Req) (x : RegAddr) (a : Nat) (v : BitVec 64), t = s.reqStepped r →
    (placeOf s r x = .reg a →
      (∀ ty inst, reach s r false a = .ok → a % 4 = 0 → 0x40 ≤ addrOff a → pageType (addrDie a) (addrPage a) = some (ty, inst) →
        ty ∈ [0x00B, 0x012, 0x018, 0x01D, 0x01E, 0x022, 0x025] →
        ∃ u, exec (.registerWrite r x 4 v) s = .next u ∧ SameBut [.regs] t u ∧ OtherRegs [a, a / 4096 * 4096 + 0x02C] t u ∧
          ∀ f ∈ fieldsAt ty (addrOff a), f.covers (addrOff a) = true →
            (f.acc = .rw → u.fld a f.lsb f.w = nbits v.toNat f.lsb f.w) ∧
            (f.acc = .ro ∨ f.acc = .rc → u.fld a f.lsb f.w = t.fld a f.lsb f.w) ∧
            (f.acc = .w1c → u.fld a f.lsb f.w = t.fld a f.lsb f.w - Nat.land (t.fld a f.lsb f.w) (nbits v.toNat f.lsb f.w)) ∧
            (f.acc = .rwl → mayRwl r ty = true → pageLocked t a = false → u.fld a f.lsb f.w = nbits v.toNat f.lsb f.w) ∧
            (f.acc = .rwl → mayRwl r ty = true → pageLocked t a = true → u.fld a f.lsb f.w = t.fld a f.lsb f.w ∧
              u.bit (a / 4096 * 4096 + 0x02C) 2 = true)) ∧
      (∀ n, reach s r false a = .refused n → ∃ u, exec (.registerWrite r x 4 v) s = .next u ∧ SameBut [.regs, .cnts] t u ∧
        OtherRegs [pkgReg 0x050, pkgReg 0x054, cntPage 594 0x044] t u ∧
        (s.bit (pkgReg 0x054) 31 = false → u.bit (pkgReg 0x054) 31 = true ∧ u.fld (pkgReg 0x054) 16 4 = n % 16)) ∧
      (∀ size, reach s r false a = .ok → sizeOk a size = false → ∃ u, exec (.registerWrite r x size v) s = .next u ∧
        SameBut [.regs, .cnts] t u ∧ OtherRegs [pkgReg 0x050, pkgReg 0x054, cntPage 594 0x044] t u ∧
        (s.bit (pkgReg 0x054) 31 = false → u.fld (pkgReg 0x054) 16 4 = 4))) ∧
    (∀ ty inst, placeOf s r (headerAt x 0x02C) = .reg a → reach s r false a = .ok → pageType (addrDie a) (addrPage a) = some (ty, inst) →
      ty ≠ 0x00E → addrOff a = 0x02C → ∃ u, exec (.hdrLockSet r x 4) s = .next u ∧ SameBut [.regs] t u ∧ OtherRegs [a] t u ∧
        (hasRwl ty = true → mayRwl r ty = true → pageLocked u a = true) ∧
        (hasRwl ty = false ∨ mayRwl r ty = false → u = t)) ∧
    (∀ (w : Word) ty inst, placeOf s r (headerAt x 0x01C) = .reg a → reach s r false a = .ok →
      pageType (addrDie a) (addrPage a) = some (ty, inst) → ty ≠ 0x00E → addrOff a = 0x01C →
      ∃ u, exec (.hdrIrqForce r x 4 w) s = .next u ∧ SameBut [.regs] t u ∧ OtherRegs [a / 4096 * 4096 + 0x014] t u ∧
        u.reg (a / 4096 * 4096 + 0x014) = t.reg (a / 4096 * 4096 + 0x014) ||| BitVec.ofNat 32 (Nat.land w.toNat (irqMask ty)))

/-- R18, R22, R27, R31, R458, R559: power starts the tollhouse, and its loss resets every unit but what is kept in fuses
and memory; PERST_N clears the package while the tollhouse meters on, and its release starts a cold boot; a lost
REFCLK_SYS halts the arrays. The model's choices it rests on: log 11. -/
def Obligations.PinsPowerAndResetThePackage : Prop :=
  ∀ s : State,
    (s.pins.pwrGood = false → ∃ u, exec .pwrGoodRise s = .next u ∧ SameBut [.pins, .toll, .boot, .regs, .freeCtr, .wire] s u ∧
      u.pins.pwrGood = true ∧ u.toll = s.toll.start ∧ (s.pins.perst = true → u.boot = s.boot ∧ u.wire = s.wire) ∧
      (s.pins.perst = false → u.boot.running = true ∧ warmBoot u = false ∧ u.boot.passed = [])) ∧
    (s.pins.pwrGood = true → ∃ u, exec .pwrGoodFall s = .next u ∧ u.pins.pwrGood = false ∧ u.pins.thermtrip = false ∧ u.fuses = s.fuses ∧
      u.store = s.store ∧ u.toll = s.toll.powerLoss ∧ u.toll.on = false ∧ u.regs = [] ∧ u.dram = [] ∧ u.plots = [] ∧ u.rings = [] ∧
      u.parts = [] ∧ u.net = [] ∧ u.boot.running = false ∧ u.clocksOff = false) ∧
    (s.pins.pwrGood = true → s.pins.perst = false → s.clocksOff = false → ∃ u, exec .perstNAssert s = .next u ∧ u.pins.perst = true ∧
      u.fuses = s.fuses ∧ u.store = s.store ∧ u.toll.on = s.toll.on ∧ u.toll.ring = s.toll.ring ∧ u.plots = [] ∧ u.rings = [] ∧
      u.net = [] ∧ u.dram = [] ∧ u.boot.running = false) ∧
    (∀ mode : BitVec 2, s.pins.perst = true → ∃ u, exec (.perstNRelease mode) s = .next u ∧
      SameBut [.pins, .boot, .regs, .freeCtr, .wire] s u ∧ u.pins.perst = false ∧ u.pins.bootMode = mode ∧
      (s.pins.pwrGood = true → s.clocksOff = false → u.boot.running = true ∧ bootState u = 0 ∧ warmBoot u = false ∧
        u.boot.number = s.boot.number + 1 ∧ u.fld (pkgReg 0x044) 0 2 = mode.toNat) ∧
      (s.pins.pwrGood = false → u.boot = s.boot ∧ u.pins.released = true)) ∧
    (pkgUp s = true → ∃ u, exec .refclkSysAbsent s = .next u ∧ SameBut [.pins, .stks, .regs, .cnts, .cores, .wire] s u ∧
      u.pins.sysLost = true ∧ (∀ st < 16, stackHalted u st = true) ∧ u.bit (thmReg 0x040) 9 = true)

/-- R99, R150: an exception takes a running steward to its handler; a declared fault and an expired watchdog fail the
plot; a kick starts the period anew. The model's choices it rests on: log 15. -/
def Obligations.StewardsTrapAndAreWatched : Prop :=
  ∀ (s : State) (p : PlotId) (k : Nat), k = plotKey p →
    (∀ cause tval : BitVec 64, stewardRuns s k = true → ∃ u, exec (.stewardException p cause tval) s = .next u ∧
      SameBut [.plots, .dbg] s u ∧ OtherPlots k s u ∧ (u.plot k).stw.mepc = (s.plot k).stw.pc ∧ (u.plot k).stw.mcause = cause ∧
      (u.plot k).stw.mtval = tval ∧ (u.plot k).stw.pc = trapPc (s.plot k).stw.mtvec cause ∧ (u.plot k).stw.x = (s.plot k).stw.x ∧
      nbit (u.plot k).stw.mstatus.toNat 3 = false ∧
      nbit (u.plot k).stw.mstatus.toNat 7 = nbit (s.plot k).stw.mstatus.toNat 3) ∧
    (∀ r : Req, reach s r false (pqReg k 0x07C) = .ok →
      (∃ u, exec (.stwWdogFault r p) s = .next u ∧ (u.plot k).failed = some ((s.plot k).failed.getD .steward) ∧
        u.bit (pqReg k 0x07C) 30 = true ∧ u.dram = s.dram ∧ u.fuses = s.fuses) ∧
      (∃ u, exec (.stwWdogKick r p) s = .next u ∧ SameBut [.plots] (s.reqStepped r) u ∧ OtherPlots k s u ∧
        u.plot k = { s.plot k with kickAt := s.tb })) ∧
    (dogRuns s k = true → ∃ u, exec (.stewardWatchdogExpiry p) s = .next u ∧ (u.plot k).failed = some .watchdog ∧ u.dram = s.dram ∧
      (∀ q ∈ [0, 1, 2, 3], (u.queue k q).entries = []) ∧ fenced u k = true)

/-- R409, R415, R416, R419: cores of a running partition are released at CORE_ENTRY with their number and argument; an
atomic instruction reads the old value and updates the cistern or the line, or traps; a core's token enters the fabric.
The model's choices it rests on: log 16, 17. -/
def Obligations.CoresAreReleasedAndAct : Prop :=
  ∀ (s : State) (st : Fin 16),
    (∀ (r : Req) (mask : Byte), reach s r false (ccReg st.val 0x040) = .ok →
      (coresFree s st.val = false → exec (.coreRelease r st mask) s = .next (s.reqStepped r)) ∧
      (coresFree s st.val = true → ∃ u, exec (.coreRelease r st mask) s = .next u ∧ SameBut [.regs, .cores] (s.reqStepped r) u ∧
        OtherRegs [ccReg st.val 0x040] s u ∧
        ∀ c < 8, nbit mask.toNat c = true → s.bit (ccReg st.val 0x040) c = false →
          u.bit (ccReg st.val 0x040) c = true ∧ u.bit (ccReg st.val 0x040) (8 + c) = true ∧
          (u.core (8 * st.val + c)).released = true ∧ (u.core (8 * st.val + c)).machine = false ∧
          (u.core (8 * st.val + c)).pc =
            BitVec.ofNat 64 ((s.reg (ccReg st.val 0x048)).toNat + (s.reg (ccReg st.val 0x04C)).toNat * 2 ^ 32))) ∧
    (∀ (k : Fin 8) (n : Nat) (op : CoreAmo) (wide : Bool) (addr : Nat) (x cmp : BitVec 128) (rd : Fin 32), n = 8 * st.val + k.val →
      coreRuns s n = true →
      (∀ w, addr % amoLen op wide = 0 → addrOk s (partOf s st.val) addr (amoLen op wide) = true → amoWeir op wide = some w →
        devWriteGo s addr (amoLen op wide) = true →
        ∀ r, r = s.devWeir w addr (if w = 0xC then leBytes 8 x.toNat ++ leBytes 8 cmp.toNat else leBytes (amoLen op wide) x.toNat) false →
        r.poison = false → r.lost = false →
        ∃ u, exec (.coreAtomic st k op wide addr false x cmp rd) s = .next u ∧ u.dram = r.st.dram ∧
          (u.core n).pc = (r.st.core n).pc + 4 ∧ (rd.val ≠ 0 →
            (u.core n).getX rd.val = amoResult wide (leAt r.data 0 (amoLen op wide)))) ∧
      (∀ (l : CacheLine) (q : Nat × Nat), addr % amoLen op wide = 0 → addrOk s (partOf s st.val) addr (amoLen op wide) = true →
        devPlace s addr = some q → tget none s.caches (lineKey st.val q.1 q.2) = some l → l.poison = 0 →
        op ≠ .lr → op ≠ .sc → op ≠ .casq →
        ∃ u, exec (.coreAtomic st k op wide addr true x cmp rd) s = .next u ∧ SameBut [.cores, .caches, .dbg] s u ∧
          tget none u.caches (lineKey st.val q.1 q.2) = some { l with
            bytes := putBytes l.bytes (addr % 64) (leBytes (amoLen op wide) (amoNew op (8 * amoLen op wide)
              (leAt l.bytes (addr % 64) (amoLen op wide)) (x.toNat % 2 ^ (8 * amoLen op wide)) (cmp.toNat % 2 ^ (8 * amoLen op wide))))
            dirty := true } ∧
          (u.core n).pc = (s.core n).pc + 4) ∧
      (∀ (l : CacheLine) (q : Nat × Nat), addr % amoLen op wide = 0 → addrOk s (partOf s st.val) addr (amoLen op wide) = true →
        devPlace s addr = some q → tget none s.caches (lineKey st.val q.1 q.2) = some l → l.poison = 0 → rd.val ≠ 0 →
        (op = .lr → ∃ u, exec (.coreAtomic st k op wide addr true x cmp rd) s = .next u ∧ SameBut [.cores, .dbg] s u ∧
          (u.core n).resv = some (lineKey st.val q.1 q.2) ∧
          (u.core n).getX rd.val = amoResult wide (leAt l.bytes (addr % 64) (amoLen op wide))) ∧
        (op = .sc → (s.core n).resv = some (lineKey st.val q.1 q.2) →
          ∃ u, exec (.coreAtomic st k op wide addr true x cmp rd) s = .next u ∧ SameBut [.cores, .caches, .dbg] s u ∧
          (u.core n).resv = none ∧ (u.core n).getX rd.val = 0 ∧
          tget none u.caches (lineKey st.val q.1 q.2) = some { l with
            bytes := putBytes l.bytes (addr % 64) (leBytes (amoLen op wide) (x.toNat % 2 ^ (8 * amoLen op wide))), dirty := true }) ∧
        (op = .sc → (s.core n).resv ≠ some (lineKey st.val q.1 q.2) →
          ∃ u, exec (.coreAtomic st k op wide addr true x cmp rd) s = .next u ∧ SameBut [.cores, .dbg] s u ∧
          (u.core n).getX rd.val = 1) ∧
        (op = .casq → ∃ u, exec (.coreAtomic st k op wide addr true x cmp rd) s = .next u ∧ SameBut [.cores, .caches, .dbg] s u ∧
          ((leAt l.bytes (addr % 64) 16 = cmp.toNat) → tget none u.caches (lineKey st.val q.1 q.2) =
            some { l with bytes := putBytes l.bytes (addr % 64) (leBytes 16 x.toNat), dirty := true }))) ∧
      (∀ cached, addr % amoLen op wide ≠ 0 ∨ addrOk s (partOf s st.val) addr (amoLen op wide) = false →
        ∃ u, exec (.coreAtomic st k op wide addr cached x cmp rd) s = .next u ∧ SameBut [.cores, .dbg] s u ∧
          u = s.coreTrap n (if addr % amoLen op wide ≠ 0 then 6 else 7) addr)) ∧
    (∀ (r : Req) (v : Word), reach s r false (ccReg st.val 0x058) = .ok →
      ∀ dst : Loc, dst = ⟨BitVec.ofNat 5 (nbits v.toNat 16 5), BitVec.ofNat 5 (nbits v.toNat 21 5)⟩ →
      ∃ u, exec (.coreTokenTx r st v) s = .next u ∧ SameBut [.net, .regs] (s.reqStepped r) u ∧
        (tokDestOk s (partOf s st.val) dst = true → nbits v.toNat 12 4 ∈ [1, 4, 5] →
          u.regs = s.regs ∧ ∃ p, u.net = s.net ++ [p] ∧ p.die = st.val ∧ p.cls = 3 ∧ p.dst = dst) ∧
        (tokDestOk s (partOf s st.val) dst = false ∨ nbits v.toNat 12 4 ∉ [1, 4, 5] →
          u.net = s.net ∧ u.bit (ccReg st.val 0x014) 4 = true))

/-- R423, R425, R426, R427, R428: a push queues the window's job; the channel takes or rejects the oldest; each picture
is written as its tensor; the job's end leaves the channel free with a record, which a pop answers. The model's choices
it rests on: log 54. -/
def Obligations.MediaJobsRunToTheirRecords : Prop :=
  ∀ (s : State) (n : Fin 32),
    (∀ r : Req, reach s r false (medReg n.val 0x040) = .ok → ∃ u, exec (.mediaSubmitPush r n) s = .next u ∧
      SameBut [.media, .regs] (s.reqStepped r) u ∧
      ((s.med n.val).fstate = .running → (s.med n.val).queue.length < 4 → u.regs = s.regs ∧
        u.med n.val = { s.med n.val with queue := (s.med n.val).queue ++ [windowDesc (s.med n.val).window] }) ∧
      ((s.med n.val).fstate ≠ .running → u.media = s.media ∧ u.bit (medReg n.val 0x014) 1 = true) ∧
      ((s.med n.val).fstate = .running → 4 ≤ (s.med n.val).queue.length → u.media = s.media ∧
        u.bit (medReg n.val 0x014) 0 = true)) ∧
    (∀ (d : Desc) (rest : List Desc), medGo s n.val = true → (s.med n.val).job = none → (s.med n.val).queue = d :: rest →
      ∃ u, exec (.mediaJobStart n) s = .next u ∧ SameBut [.media] s u ∧ (u.med n.val).queue = rest ∧
        match mCheck s n.val d with
        | none => (u.med n.val).job = some d ∧ (u.med n.val).frames = 0 ∧ (u.med n.val).cpl = (s.med n.val).cpl
        | some st => (u.med n.val).job = none ∧ ∃ x, (u.med n.val).cpl = (s.med n.val).cpl ++ [(x, 0)] ∧ x.status = BitVec.ofNat 8 st) ∧
    (∀ (d : Desc) (vals : List Word) (a : Nat), medRuns s n.val = true → (s.med n.val).job = some d →
      a = mAddr (medOwner s n.val) (mDst d) + (s.med n.val).frames * mPitch d → (s.med n.val).frames < mMax d →
      devWriteGo s a (mTensor d) = true →
      ∃ u, exec (.mediaPictureOutput n vals) s = .next u ∧ u.dram = (s.devWrite a (mBytes d vals) false .port).st.dram ∧
        (u.med n.val).frames = (s.med n.val).frames + 1 ∧ (u.med n.val).job = some d) ∧
    (∀ (d : Desc) (how : MediaEnd), medRuns s n.val = true → (s.med n.val).job = some d →
      devReadGo s (mAddr (medOwner s n.val) (mSrc d)) (mSrcLen d) = true →
      ∀ r, r = s.devRead (mAddr (medOwner s n.val) (mSrc d)) (mSrcLen d) .port →
      ∃ u, exec (.mediaJobComplete n how) s = .next u ∧ u.dram = r.st.dram ∧ (u.med n.val).job = none ∧
        (mediaStatus how r.poison = 0 → (u.med n.val).context = ((s.med n.val).context || mCodec d != 4)) ∧
        (mediaStatus how r.poison ≠ 0 → (u.med n.val).context = false ∧ ∃ x, x.status = BitVec.ofNat 8 (mediaStatus how r.poison) ∧
          (u.med n.val).cpl = (s.med n.val).cpl ++ [(x, (s.med n.val).frames)])) ∧
    (∀ r : Req, reach s r true (medReg n.val 0x04C) = .ok → ∃ u, exec (.mediaCplPop r n) s = .next u ∧
      SameBut [.media, .caps, .reply] (s.reqStepped r) u ∧
      match (s.med n.val).cpl with
      | [] => u.reply = { data := leBytes 4 0 } ∧ u.media = s.media
      | (x, f) :: rest => u.reply = { data := leBytes 4 (medCplWord x) } ∧ (u.med n.val).cpl = rest ∧
          tget none u.caps (medReg n.val 0x050) = some (BitVec.ofNat 32 (min f 65535)))

/-- R437, R442, R443, R444, R451, R452, R454: a commit or an accepted revocation waits for its fuses and shows DONE or
FAILED; a token that passes its checks locks the keys, ends sessions and raises the debug level; an owner changes only
on a stopped, unlocked unit. The model's choices it rests on: log 21, 22. -/
def Obligations.FusesTokensAndOwners : Prop :=
  ∀ s : State,
    (∀ r : Req, reach s r false (secReg 0x048) = .ok → s.sec.req = none →
      (s.fld (secReg 0x044) 16 7 ≤ s.fuses.svn → ∃ u, exec (.svnCommit r) s = .next u ∧ SameBut [.regs] (s.reqStepped r) u ∧
        OtherRegs [secReg 0x054] s u ∧ u.fld (secReg 0x054) 0 2 = 2) ∧
      (s.fuses.svn < s.fld (secReg 0x044) 16 7 → ∃ u, exec (.svnCommit r) s = .next u ∧ SameBut [.regs, .sec] (s.reqStepped r) u ∧
        OtherRegs [secReg 0x054] s u ∧ u.fld (secReg 0x054) 0 2 = 1 ∧
        u.sec = { s.sec with req := some (.svnCommit (s.fld (secReg 0x044) 16 7)) }) ∧
      (r = .pf → revokeImage s = none → ∃ u, exec (.revokeSubmit r) s = .next u ∧ u.fld (secReg 0x054) 0 2 = 3 ∧
        u.fld (secReg 0x054) 4 4 = 1 ∧ u.fuses = s.fuses ∧ u.sec = s.sec) ∧
      (∀ t l, r = .pf → revokeImage s = some (t, l) → (imgForm l 2 && imgFused t l && imgWhole l) = false →
        ∃ u, exec (.revokeSubmit r) s = .next u ∧ SameBut [.regs] t u ∧ u.fld (secReg 0x054) 0 2 = 3 ∧
          u.fld (secReg 0x054) 4 4 = 1) ∧
      (∀ t l, r = .pf → revokeImage s = some (t, l) → imgForm l 2 = true → imgFused t l = true → imgWhole l = true →
        ∃ u, exec (.revokeSubmit r) s = .next u ∧ SameBut [.regs, .sec] t u ∧ u.fuses = s.fuses ∧
        (revokeRule t l = true → u.fld (secReg 0x054) 0 2 = 3 ∧ u.fld (secReg 0x054) 4 4 = 2 ∧ u.sec = t.sec) ∧
        (revokeRule t l = false → u.fld (secReg 0x054) 0 2 = 1 ∧ u.sec.req = some (.revoke (BitVec.ofNat 2 (imgRevoke l)))))) ∧
    (∀ q, pkgUp s = true → s.sec.req = some q →
      (∃ u, exec (.keyEngineRequestDone true) s = .next u ∧ SameBut [.fuses, .regs, .sec] s u ∧ u.sec = { s.sec with req := none } ∧
        u.fld (secReg 0x054) 0 2 = 2 ∧
        match q with
        | .svnCommit v => u.fuses = { s.fuses with svn := max v s.fuses.svn }
        | .revoke i => u.fuses = { s.fuses with revoked := s.fuses.revoked ||| BitVec.ofNat 4 (2 ^ i.toNat) }) ∧
      (∃ u, exec (.keyEngineRequestDone false) s = .next u ∧ SameBut [.fuses, .regs, .sec, .freeCtr] s u ∧
        u.sec = { s.sec with req := none } ∧ u.fld (secReg 0x054) 0 2 = 3 ∧ u.fld (secReg 0x054) 4 4 = 3 ∧
        u.fuses.revoked = s.fuses.revoked ∧ (∀ v, q = .svnCommit v → s.fuses.svn ≤ u.fuses.svn ∧ u.fuses.svn ≤ max v s.fuses.svn))) ∧
    (∀ l : List Byte, pkgUp s = true →
      (tokenOk s l = false → ∃ u, exec (.dbgTokenSubmit l true) s = .next u ∧ SameBut [.regs] s u ∧ OtherRegs [secReg 0x080] s u ∧
        u.bit (secReg 0x080) 2 = true) ∧
      (tokenOk s l = true → ∃ u, exec (.dbgTokenSubmit l true) s = .next u ∧
        SameBut [.regs, .parts, .cores, .sec, .faults, .dbg, .wire] s u ∧ u.bit (secReg 0x040) 16 = true ∧
        u.bit (secReg 0x040) 17 = true ∧ u.sec.sessions = [] ∧
        u.fld (secReg 0x080) 0 2 = max (s.fld (secReg 0x080) 0 2) (leAt l 64 1))) ∧
    (∀ (x : OwnedId) (v : Word), reach s .pf false (ownerReg x) = .ok →
      (pageLocked s (ownerReg x) = true → ∃ u, exec (.ownerWrite .pf x v) s = .next u ∧ SameBut [.regs] s u ∧
        u.fld (ownerReg x) 0 5 = s.fld (ownerReg x) 0 5) ∧
      (pageLocked s (ownerReg x) = false → (∀ n, frozenBy s (s.fld (ownerReg x) 0 5) (nbits v.toNat 0 5) = some n →
        ∃ u, exec (.ownerWrite .pf x v) s = .next u ∧ SameBut [.regs] s u ∧ OtherRegs [psecReg n 0x064] s u ∧
          u.bit (psecReg n 0x064) 3 = true)) ∧
      (pageLocked s (ownerReg x) = false → frozenBy s (s.fld (ownerReg x) 0 5) (nbits v.toNat 0 5) = none →
        ∃ u, exec (.ownerWrite .pf x v) s = .next u ∧ SameBut [.regs, .chans, .reqTabs, .eps, .media] s u ∧
          (ownedStopped s x = true → u.fld (ownerReg x) 0 5 = nbits v.toNat 0 5) ∧
          (ownedStopped s x = false → u = s))) ∧
    (pkgUp s = true → ∃ u, exec .rngHealthFail s = .next u ∧
      SameBut [.regs, .slices, .dram, .chk, .net, .errs, .xngs, .eps, .coll, .cores, .caches, .cnts, .wire] s u ∧
      u.bit (secReg 0x040) 18 = true ∧ ∀ n < 32, (s.xng n).state = .auth → (u.xng n).state = .down)

/-- R445, R446, R447, R448, R449, R450: SPDM answers each request with its measurements, sessions and errors; a broken
stream turns insecure and takes its interface to ERROR; an unlocked interface is locked, started, and stopped through a
reset of its partition. The model's choices it rests on: log 20, 22. -/
def Obligations.SessionsAndInterfaces : Prop :=
  ∀ s : State,
    (∀ (f : Fin 17), doeUp s f.val = true →
      (∀ (i : Byte) (nonce : List Byte), keysUsable s = true → i.toNat ∈ measList s f.val → i ≠ 0 → i ≠ 0xFF →
        ∃ u sig, exec (.spdmRequest f (.getMeasurements i nonce)) s = .next u ∧ SameBut [.freeCtr, .wire] s u ∧
          u.wire = s.wire ++ [.spdm f.val (measurement s f.val i.toNat ++ nonce ++ sig)]) ∧
      (∀ (i : Byte) (nonce : List Byte), i.toNat ∉ measList s f.val → i ≠ 0 → i ≠ 0xFF →
        ∃ u, exec (.spdmRequest f (.getMeasurements i nonce)) s = .next u ∧ SameBut [.wire] s u ∧
          u.wire = s.wire ++ [.spdm f.val [0x7F, 0x01]]) ∧
      (∀ nonce, keysUsable s = true → ∃ u sig, exec (.spdmRequest f (.challenge nonce)) s = .next u ∧
        SameBut [.freeCtr, .wire] s u ∧ u.wire = s.wire ++ [.spdm f.val (nonce ++ sig)]) ∧
      (∀ code, ∃ u, exec (.spdmRequest f (.other code)) s = .next u ∧ SameBut [.wire] s u ∧
        u.wire = s.wire ++ [.spdm f.val [0x7F, 0x07]]) ∧
      (keysUsable s = true → ∃ u, exec (.spdmRequest f .keyExchange) s = .next u ∧ SameBut [.freeCtr, .wire, .sec] s u ∧
        tget 0 u.sec.sessions f.val = tget 0 s.sec.sessions f.val + (if 32 ≤ sessionCount s then 0 else 1)) ∧
      (∃ u, exec (.spdmRequest f .endSession) s = .next u ∧ SameBut [.wire, .sec] s u ∧
        tget 0 u.sec.sessions f.val = tget 0 s.sec.sessions f.val - 1) ∧
      (∃ u, exec (.spdmRequest f .ideKeyProgram) s = .next u ∧ SameBut [.wire, .sec, .regs] s u ∧
        (tget 0 s.sec.sessions f.val = 0 → u.sec = s.sec) ∧
        (tget 0 s.sec.sessions f.val ≠ 0 → tget false u.sec.ideBound f.val = true ∧ tget false u.sec.ideInsecure f.val = false)) ∧
      (∀ q ∈ [SpdmReq.finish, .keyUpdate, .heartbeat], ∃ u, exec (.spdmRequest f q) s = .next u ∧ SameBut [.wire] s u ∧
        u.wire = s.wire ++ [.spdm f.val (if tget 0 s.sec.sessions f.val = 0 then [0x7F, 0x04] else [])])) ∧
    (∀ f : Fin 17, pkgUp s = true → tget false s.sec.ideBound f.val = true → ∃ u, exec (.ideIntegrityFail f) s = .next u ∧
      SameBut [.regs, .parts, .lndErr, .cores, .sec, .faults, .dbg, .wire] s u ∧ tget false u.sec.ideInsecure f.val = true ∧
      tget 0 u.lndErr 7 = min (tget 0 s.lndErr 7 + 1) (2 ^ 32 - 1) ∧
      (f.val ≠ 0 → tdiLocked s (f.val - 1) = true → tdiState u (f.val - 1) = 3)) ∧
    (∀ n : Fin 16,
      (lockOk s n.val = true → ∃ u, exec (.lockInterface n) s = .next u ∧ SameBut [.regs] s u ∧ tdiState u n.val = 1 ∧
        pageLocked u (psecReg n.val 0) = true) ∧
      (lockOk s n.val = false → exec (.lockInterface n) s = .next s) ∧
      (pkgUp s = true → tdiState s n.val = 1 → ∃ u, exec (.startInterface n) s = .next u ∧ SameBut [.regs] s u ∧
        OtherRegs [psecReg n.val 0x064] s u ∧ tdiState u n.val = 2) ∧
      (pkgUp s = true → tdiState s n.val = 3 → (s.part n.val).state ≠ .resetting → ∃ u, exec (.stopInterface n) s = .next u ∧
        SameBut [.regs] s u ∧ tdiState u n.val = 0) ∧
      (pkgUp s = true → tdiState s n.val = 1 ∨ tdiState s n.val = 2 → (s.part n.val).state ≠ .resetting →
        (s.part n.val).state ≠ .free → s.dbg.stopAt = none →
        ∃ u, exec (.stopInterface n) s = .next u ∧ SameBut [.parts, .faults, .wire, .cores] s u ∧ (u.part n.val).tdiStop = true ∧
          (u.part n.val).state = .resetting))

/-- R525, R526, R530, R533, R535, R536, R539, R541, R544, R545: samples and means judge a sensor; the loop sets band,
temperature and level; the power level follows the cap; permits go round; a P-state change moves the voltage step by
step and switches the clock. The model's choices it rests on: log 4, 36, 37. -/
def Obligations.GovernorsControlTheirStacks : Prop :=
  ∀ (s : State) (st : Fin 16),
    (∀ (die : Fin 17) (i : Fin 13) (raw : BitVec 12) (x : BitVec 16), sensorLive s die.val i.val = true →
      ∃ u, exec (.sensorSample die i raw x) s = .next u ∧ SameBut [.sensors, .regs, .errs, .cores, .cnts, .wire] s u ∧
        u.sensor (sensKey die.val i.val) = (s.sensor (sensKey die.val i.val)).sample die.val i.val raw.toNat x.toInt ∧
        (x.toInt < -640 ∨ 2400 < x.toInt → (u.sensor (sensKey die.val i.val)).ok = false) ∧
        ∀ j, j ≠ sensKey die.val i.val → u.sensor j = s.sensor j) ∧
    (∀ i : Fin 13, sensorLive s st.val i.val = true → ∃ u, exec (.sensorMean100ms st i) s = .next u ∧
      SameBut [.sensors, .regs, .errs, .cores, .wire] s u ∧
      u.sensor (sensKey st.val i.val) = (s.sensor (sensKey st.val i.val)).check ∧
      (100000 ≤ (s.sensor (sensKey st.val i.val)).same → (u.sensor (sensKey st.val i.val)).ok = false)) ∧
    (stackUp s st.val = true →
      (∀ s1, s1 = (s.sensorsLost st.val).pairCheck st.val → ∃ u, exec (.thermalLoop st) s = .next u ∧
        SameBut [.stks, .regs, .errs, .cores, .cnts, .wire] s u ∧
        (∀ t b, deciding s1 st.val = some t → (s1.stk st.val).bandLost = none → b = nextBand (s1.fld (smReg st.val 0x040) 0 3) t →
          u.fld (smReg st.val 0x040) 0 3 = b ∧ (u.stk st.val).temp = some t ∧
          (u.stk st.val).tLevel = thermalLevel b (logicReading s1 st.val)) ∧
        ((s1.stk st.val).bandLost ≠ none → u.fld (smReg st.val 0x040) 0 3 = 4 ∧ (u.stk st.val).sensHalt = true)) ∧
      (∀ mw m, m = powerMean { s.stk st.val with power := (mw :: (s.stk st.val).power).take 100 } →
        ∃ u, exec (.powerEstimate st mw) s = .next u ∧ SameBut [.stks, .regs, .cnts] s u ∧
        u.fld (govReg st.val 0x048) 16 8 = min 255 (m / 1000) ∧
        (timedMode s st.val = false → (u.stk st.val).pLevel =
          if 97 * capMw s st.val < 100 * m then min 15 ((s.stk st.val).pLevel + 1) else (s.stk st.val).pLevel)) ∧
      (timedMode s st.val = false → ∃ u, exec (.adaptiveLevelLower st) s = .next u ∧ SameBut [.stks] s u ∧
        (u.stk st.val).pLevel = if (s.stk st.val).above92 = false ∧ 100 * powerMean (s.stk st.val) < 92 * capMw s st.val
          then (s.stk st.val).pLevel - 1 else (s.stk st.val).pLevel) ∧
      (∀ (p : Fin 32) (t : Nat), timedMode s st.val = true → permitTurn s st.val t = some p.val →
        (s.stk st.val).permitAt = 0 ∨ (s.stk st.val).permitAt + s.fld (govReg st.val 0x04C) 0 4 ≤ t → ∃ u, exec (.startPermitGrant st p t) s = .next u ∧
        SameBut [.stks, .plots] s u ∧ (u.arr (32 * st.val + p.val)).permit = true ∧ (u.stk st.val).permitAt = t ∧
        (u.stk st.val).rrPtr = (p.val + 1) % 32) ∧
      ((s.stk st.val).change = none → ∀ p, p = pstateChoice s st.val → ∃ u, exec (.pstateDecision st true) s = .next u ∧
        SameBut [.stks, .regs, .cores, .cnts, .wire] s u ∧
        (p = pstateOf s st.val → (u.stk st.val).change = none) ∧
        (p < pstateOf s st.val → (s.stk st.val).vdd < pstateMv p → (u.stk st.val).vdd = nextMv (s.stk st.val).vdd (pstateMv p) ∧
          (u.stk st.val).change = some { target := p, raising := true, hold := false }) ∧
        (pstateOf s st.val < p → (u.stk st.val).vdd = (s.stk st.val).vdd ∧
          (u.stk st.val).change = some { target := p, raising := false, hold := true })) ∧
      (∀ c, (s.stk st.val).change = some c → c.hold = false → ∃ u, exec (.voutStepSettled st true) s = .next u ∧
        SameBut [.stks, .wire] s u ∧
        ((s.stk st.val).vdd ≠ pstateMv c.target → (u.stk st.val).vdd = nextMv (s.stk st.val).vdd (pstateMv c.target) ∧
          (u.stk st.val).change = some c) ∧
        ((s.stk st.val).vdd = pstateMv c.target → (u.stk st.val).change = if c.raising then some { c with hold := true } else none)) ∧
      (∀ c, (s.stk st.val).change = some c → c.hold = true → c.target < 8 → arraysEmpty s st.val = true →
        ∃ u, exec (.clockSwitch st true) s = .next u ∧ SameBut [.stks, .regs, .cnts, .wire] s u ∧ pstateOf u st.val = c.target ∧
        (c.raising = true → (u.stk st.val).change = none)) ∧
      (∀ c, (s.stk st.val).change = some c → c.hold = false → (s.stk st.val).vdd ≠ pstateMv c.target →
        ∃ u, exec (.voutStepSettled st false) s = .next u ∧ (u.stk st.val).pmbBad = true ∧ u.bit (pkgReg 0x044) 5 = true ∧
        u.bit (thmReg 0x040) 10 = true))

/-- R22, R24, R25, R531, R532, R546, R547, R549, R550: a trip halts every array, latches THERMTRIP_N and stops the
clocks; the coolant's sensors, pulses and estimates show in their registers; lost flow halts the package until RESUME is
accepted. The model's choices it rests on: log 4, 38. -/
def Obligations.TripsAndTheCoolantHaltThePackage : Prop :=
  ∀ s : State,
    ((tripDue s = true → ∃ u, exec .hardLimitTrip s = .next u ∧ SameBut [.stks, .pins, .clocksOff] s u ∧ u.clocksOff = true ∧
        u.pins = { s.pins with thermtrip := true } ∧ ∀ st < 16, stackHalted u st = true) ∧
      (tripDue s = false → exec .hardLimitTrip s = .next s)) ∧
    (∀ die : Fin 17, s.pins.pwrGood = true → die.val = 16 ∨ activeStack s die.val = true →
      ∃ u, exec (.analogueComparatorTrip die) s = .next u ∧ SameBut [.stks, .pins, .clocksOff] s u ∧ u.clocksOff = true ∧
        u.pins = { s.pins with thermtrip := true } ∧ ∀ st < 16, stackHalted u st = true) ∧
    (∀ inlet outlet : Option (BitVec 16), coolRuns s = true → ∃ u, exec (.coolantSensorRead inlet outlet) s = .next u ∧
      SameBut [.regs, .coolant, .errs, .cores, .cnts, .wire] s u ∧
      u.bit (thmReg 0x044) 16 = (coolValid inlet).isSome ∧ u.bit (thmReg 0x048) 16 = (coolValid outlet).isSome ∧
      (∀ x : BitVec 16, inlet = some x → coolValid inlet ≠ none → u.fld (thmReg 0x044) 0 16 = x.toNat) ∧
      u.coolant.flowReads = (if s.bit (pkgReg 0x044) 3 then s.coolant.flowReads + 1 else 0)) ∧
    (pkgUp s = true → ∃ u, exec .flowPulse s = .next u ∧ SameBut [.regs, .coolant] s u ∧ OtherRegs [pkgReg 0x044] s u ∧
      u.bit (pkgReg 0x044) 3 = true ∧ u.coolant = { s.coolant with pulses := s.coolant.pulses + 1, noFlow := false }) ∧
    (pkgUp s = true → s.bit (pkgReg 0x044) 3 = true → ∃ u, exec .flowStop s = .next u ∧
      SameBut [.regs, .coolant, .errs, .cores, .cnts, .wire] s u ∧ u.bit (pkgReg 0x044) 3 = false ∧ u.coolant.noFlow = true ∧
      (coolOwns s = true → u.coolant.halted = true ∧ (∀ st, stackHalted u st = true ∧ govLevel u st ≥ 15) ∧
        u.bit (thmReg 0x040) 0 = true ∧ u.bit (thmReg 0x040) 11 = true)) ∧
    (coolOwns s = true → ∃ u, exec .coolantEstimate s = .next u ∧ SameBut [.regs, .stks, .coolant, .errs, .cores, .cnts, .wire] s u ∧
      u.fld (thmReg 0x04C) 0 16 = min 65535 (flowMl s) ∧ u.coolant.pulses = 0 ∧
      ∀ st < 16, stackUp s st = true → (u.stk st).secs = (secMean s st :: (s.stk st).secs).take 10) ∧
    (∀ r : Req, reach s r false (thmReg 0x054) = .ok → ∃ u, exec (.govResume r) s = .next u ∧ SameBut [.regs, .coolant] (s.reqStepped r) u ∧
      (resumeOk s = true → u.regs = s.regs ∧ u.coolant = { s.coolant with halted := false }) ∧
      (resumeOk s = false → u.coolant = s.coolant ∧ OtherRegs [thmReg 0x058] s u ∧ u.bit (thmReg 0x058) 0 = true))

/-- R560, R563, R565, R566, R568, R569, R572, R573, R574, R576, R577, R578, R579: samples add energy to their channels;
a frame or a gap closes a millisecond without losing any; each second leaves a record that carries the hash of the one
before; a summary closes its interval; pin changes are audited. The request of the mailbox in turn is answered with its
code and data, filtered for a virtual function's mailbox; calibration needs the pin and an authority's message and costs
a seal; the end shows the response. The model's choices it rests on: log 73. -/
def Obligations.TheTollhouseMetersAndAnswers : Prop :=
  (∀ s : State, tollOn s = true →
     (∀ (power : List Nat) (sat : Bool), ∃ u, exec (.tollSample power sat) s = .next u ∧ SameBut [.toll] s u ∧ u.toll.msOpen = true ∧
       (∀ c < 18, tget 0 u.toll.acc c = tget 0 s.toll.acc c + nth 0 power c) ∧
       (sat = true → nbit u.toll.flags.toNat 2 = true) ∧ u.toll.ring = s.toll.ring) ∧
     (∀ (f : FeedFrame) (ok : Bool), ∃ u, exec (.feedFrame f ok) s = .next u ∧ SameBut [.stks, .toll] s u ∧
       (∀ st < 16, (u.stk st).wu = 0) ∧ u.toll.msOpen = false ∧
       (∀ c < 18, 100000 * tget 0 u.toll.sec c + tget 0 u.toll.acc c = 100000 * tget 0 s.toll.sec c + tget 0 s.toll.acc c ∧
         tget 0 u.toll.acc c < 100000) ∧
       (ok = true → u.toll.frame = some f) ∧
       (ok = false → u.toll.frame = s.toll.frame ∧ nbit u.toll.flags.toNat 1 = true)) ∧
     (∃ u, exec .feedGap s = .next u ∧ SameBut [.toll] s u ∧ nbit u.toll.flags.toNat 1 = true ∧
       tget 0 u.toll.acct 17 = tget 0 s.toll.acct 17 + ((List.range 16).map fun n => s.toll.msEnergy n).sum ∧
       ∀ c < 18, 100000 * tget 0 u.toll.sec c + tget 0 u.toll.acc c = 100000 * tget 0 s.toll.sec c + tget 0 s.toll.acc c) ∧
     (∃ u r, exec (.tollSecond true) s = .next u ∧ SameBut [.toll, .freeCtr] s u ∧ u.toll.seq = s.toll.seq + 1 ∧
       u.toll.second = s.toll.second + 1 ∧ u.toll.ring = (r :: s.toll.ring).take 345600 ∧ r.seq = s.toll.seq + 1 ∧
       leAt r.bytes 0 8 = (s.toll.seq + 1) % 2 ^ 64 ∧
       (∀ x, s.toll.find s.toll.seq = some x → r.bytes.drop 480 = sha256 x.bytes) ∧ u.toll.sealCnt = s.toll.sealCnt) ∧
     (∃ u r, exec (.tollSecond false) s = .next u ∧ SameBut [.toll, .freeCtr] s u ∧ u.toll.seq = s.toll.seq + 1 ∧
       u.toll.memFault = true ∧ u.toll.ring = s.toll.ring ∧ u.toll.sram = (r :: s.toll.sram).take 3600 ∧ r.seq = s.toll.seq + 1) ∧
     (∃ u, exec .tollSummary s = .next u ∧ SameBut [.toll, .freeCtr] s u ∧
       (s.toll.seq < s.toll.sumFirst → u = s) ∧
       (s.toll.sumFirst ≤ s.toll.seq → u.toll.sumFirst = s.toll.seq + 1 ∧ (s.toll.memFault = false →
         ∃ r, u.toll.sums = (r :: s.toll.sums).take 5760 ∧ r.seq = s.toll.seq ∧
           r.bytes.take 640 = s.toll.summary s.toll.sumFirst s.toll.seq))) ∧
     (∀ level : Bool, s.pins.calEn ≠ level → ∃ u, exec (.tollCalEnChange level) s = .next u ∧ SameBut [.pins, .toll] s u ∧
       u.pins = { s.pins with calEn := level } ∧
       (s.toll.audit.length < 3840 → u.toll.audit = s.toll.auditEntry (if level then 1 else 2) 0 :: s.toll.audit) ∧
       (3840 ≤ s.toll.audit.length → u.toll.audit = s.toll.audit ∧ u.toll.auditOver = s.toll.auditOver + 1))) ∧
  (∀ (s : State) (m : Fin 17),
     (mbTaken s m.val (· == 1) = true → ∃ u, exec (.identify m) s = .next u ∧ SameBut [.toll] s u ∧
       u.toll.lastBox = m.val ∧ ∃ b, u.toll.resp = some (m.val, 0, b) ∧ b.take 36 = s.toll.software) ∧
     (mbTaken s m.val (· == 2) = true → ∃ u, exec (.status m) s = .next u ∧ SameBut [.toll] s u ∧
       ∃ b, u.toll.resp = some (m.val, 0, b) ∧ leAt b 0 8 = s.toll.seq % 2 ^ 64) ∧
     (mbTaken s m.val (· == 3) = true → ∃ u, exec (.readRecord m) s = .next u ∧ SameBut [.toll] s u ∧
       u.toll.resp = match s.toll.find (leAt (mbReq s m.val) 8 8) with
         | some r => some (m.val, 0, filterRecord m.val r.bytes)
         | none => some (m.val, 2, [])) ∧
     (mbTaken s m.val (· == 4) = true → ∃ u, exec (.readSummary m) s = .next u ∧ SameBut [.toll] s u ∧
       u.toll.resp = match (s.toll.sramSum ++ s.toll.sums).find? fun r => r.seq == leAt (mbReq s m.val) 8 8 with
         | some r => some (m.val, 0, filterTotals m.val 96 r.bytes)
         | none => some (m.val, 2, [])) ∧
     (mbTaken s m.val (· == 5) = true → ∃ u, exec (.signRange m) s = .next u ∧ SameBut [.toll, .freeCtr] s u ∧
       (rangeOk s.toll (leAt (mbReq s m.val) 8 8) (leAt (mbReq s m.val) 16 8) = false → u.toll.resp = some (m.val, 3, [])) ∧
       (rangeOk s.toll (leAt (mbReq s m.val) 8 8) (leAt (mbReq s m.val) 16 8) = true →
         ∃ sig, sig.length = 384 ∧ u.toll.resp = some (m.val, 0, filterTotals m.val 16 (s.toll.report (mbReq s m.val)) ++ sig))) ∧
     (mbTaken s m.val (· == 6) = true → ∃ u, exec (.readAudit m) s = .next u ∧ SameBut [.toll] s u ∧
       u.toll.resp = match s.toll.audit.reverse[leAt (mbReq s m.val) 8 4]? with
         | some e => some (m.val, 0, e)
         | none => some (m.val, 2, [])) ∧
     (mbTaken s m.val (fun o => o == 0 || decide (7 < o)) = true → ∃ u, exec (.mbBadOpcode m) s = .next u ∧ SameBut [.toll] s u ∧
       u.toll.resp = some (m.val, 1, [])) ∧
     (∀ (msg : List Byte) (held : Bool), mbTaken s m.val (· == 7) = true → ∃ u, exec (.calibrate m msg held) s = .next u ∧
       SameBut [.toll] s u ∧
       (s.pins.calEn = false ∨ held = false → u.toll.resp = some (m.val, 4, []) ∧ u.toll.sealCnt = s.toll.sealCnt ∧
         u.toll.newCal = s.toll.newCal) ∧
       (s.pins.calEn = true → held = true → calMessageOk s.toll msg = false → u.toll.resp = some (m.val, 5, []) ∧
         u.toll.sealCnt = s.toll.sealCnt ∧ u.toll.newCal = s.toll.newCal) ∧
       (s.pins.calEn = true → held = true → calMessageOk s.toll msg = true → u.toll.resp = some (m.val, 0, []) ∧
         u.toll.sealCnt = s.toll.sealCnt + 1 ∧ u.toll.sealCnt ≤ 256 ∧ u.toll.newCal = some (msg.drop 36))) ∧
     (∀ (code : Byte) (b : List Byte), pkgUp s = true → s.toll.resp = some (m.val, code, b) → ∃ u, exec (.tollMbDone m) s = .next u ∧
       SameBut [.toll, .regs, .wire] s u ∧ u.toll.resp = none ∧ u.fld (mbReg m.val 0x044) 0 2 = 2 ∧
       u.fld (mbReg m.val 0x044) 8 8 = code.toNat ∧ u.fld (mbReg m.val 0x044) 16 12 = b.length % 4096 ∧
       u.bit (mbReg m.val 0x014) 0 = true ∧ u.wire = s.wire ++ [.tollResp m.val]))

/-- R592 to R599: GO starts a stop, is refused, or waits for a sounding; markers stop units, a settled unit takes its
snapshot and sends markers on, late markers and the 200 µs limit leave their marks, and RELEASE of a finished stop lets
every unit go on. The model's choices it rests on: log 3, 72. -/
def Obligations.StopsSpreadAndRelease : Prop :=
  ∀ s : State,
    (∀ r : Req, reach s r false (dbgReg 0x040) = .ok →
      (stopRefused s = true → ∃ u, exec (.stopGo r) s = .next u ∧ SameBut [.regs] (s.reqStepped r) u ∧
        OtherRegs [dbgReg 0x044] s u ∧ u.bit (dbgReg 0x044) 3 = true) ∧
      (stopRefused s = false → stopOn s = false → s.fld (dbgReg 0x050) 0 2 ≠ 1 → ∃ u, exec (.stopGo r) s = .next u ∧
        SameBut [.regs, .cnts, .dbg] (s.reqStepped r) u ∧ u.dbg.stopAt = some s.tb ∧ stopState u = 1 ∧
        stopId u = (stopId s + 1) % 256 ∧ ∀ i < 68, stopping u (unitAt 16 6 i) = true) ∧
      (stopRefused s = false → stopOn s = false → s.fld (dbgReg 0x050) 0 2 = 1 → ∃ u, exec (.stopGo r) s = .next u ∧
        SameBut [.dbg] (s.reqStepped r) u ∧ u.dbg.stopWait = true ∧ u.dbg.stopAt = none) ∧
      (stopState s = 2 → ∃ u, exec (.stopRelease r) s = .next u ∧ u.fuses = s.fuses ∧ u.store = s.store ∧ u.dbg.stopAt = none ∧
        stopState u = 0 ∧ u.dbg.units = []) ∧
      (stopState s ≠ 2 → exec (.stopRelease r) s = .next (s.reqStepped r))) ∧
    (∀ (v : UnitId) (i : Nat) (n : Byte) (c : Instr),
      (c = .markerToken v i n ∧ i % 4 = 3) ∨ (c = .markerPacket v i n ∧ i % 4 ≠ 3) →
      (stopOn s = true → n.toNat = stopId s → v ∈ allUnits s → i ∈ unitInputs v → ∃ u, exec c s = .next u ∧
        SameBut [.dbg, .regs] s u ∧ stopping u v = true ∧
        ((stopUnit u v).marked.any (fun m => m.1 == i) = true ∨ i ∈ (stopUnit u v).incomplete)) ∧
      (stopOn s = false ∨ n.toNat ≠ stopId s → ∃ u, exec c s = .next u ∧ SameBut [.cnts, .regs] s u)) ∧
    (∀ v : UnitId, stopping s v = true → stopped s v = false → settled s v = true → ∃ u, exec (.unitSnapshot v) s = .next u ∧
      SameBut [.dbg, .regs, .wire] s u ∧ stopped u v = true ∧ u.wire = s.wire ++ [.marker v (BitVec.ofNat 8 (stopId s))] ∧
      (∃ x, u.dbg.recs = s.dbg.recs ++ [x] ∧ x.who = v ∧ x.time = s.tb ∧ x.sounding = false)) ∧
    (∀ (v : UnitId) (i : Nat), stopOn s = true → stopState s = 1 → (stopUnit s v).snapAt ≠ none → i ∈ unitInputs v →
      ((stopUnit s v).marked.any fun m => m.1 == i) = false → i ∉ (stopUnit s v).incomplete →
      ∃ u, exec (.markerTimeout v i) s = .next u ∧ SameBut [.dbg, .regs] s u ∧ i ∈ (stopUnit u v).incomplete) ∧
    (stopOn s = true → stopState s = 1 → ∃ u, exec .stopForce s = .next u ∧ SameBut [.dbg, .regs, .wire] s u ∧
      ∀ v ∈ allUnits s, stopped u v = true ∧ (stopped s v = false → (stopUnit u v).forced = true))

/-- R587, R591, R599, R600, R604: a sounding records every unit unless a stop is in force; its end may start a waiting
stop; a record is fetched into the window or is absent; a watch point due starts a sounding or a stop; SAMPLE switches a
counter set's banks. The model's choices it rests on: log 70, 71. -/
def Obligations.SoundingsRecordsAndSamples : Prop :=
  ∀ s : State,
    (∀ r : Req, reach s r false (dbgReg 0x04C) = .ok →
      (stopOn s = false → ∃ u, exec (.soundingGo r) s = .next u ∧ SameBut [.dbg, .regs] (s.reqStepped r) u ∧
        OtherRegs [dbgReg 0x050] s u ∧ u.fld (dbgReg 0x050) 0 2 = 1 ∧ u.dbg.sndAt = some s.tb ∧
        u.dbg.snd.map (·.who) = allUnits s ∧ ∀ x ∈ u.dbg.snd, x.sounding = true ∧ x.time = s.tb) ∧
      (stopOn s = true → ∃ u, exec (.soundingGo r) s = .next u ∧ SameBut [.regs] (s.reqStepped r) u ∧
        OtherRegs [dbgReg 0x050] s u ∧ u.bit (dbgReg 0x050) 2 = true)) ∧
    (s.fld (dbgReg 0x050) 0 2 = 1 → ∃ u, exec .soundingDone s = .next u ∧ SameBut [.dbg, .regs, .cnts] s u ∧
      u.fld (dbgReg 0x050) 0 2 = 2 ∧ u.dbg.sndAt = none ∧ (s.dbg.stopWait = true → u.dbg.stopAt = some s.tb ∧ stopState u = 1) ∧
      (s.dbg.stopWait = false → u.cnts = s.cnts ∧ u.dbg.stopAt = s.dbg.stopAt)) ∧
    (∀ (r : Req) (v : Word), reach s r false (dbgReg 0x054) = .ok → s.fld (dbgReg 0x058) 0 2 ≠ 1 →
      ∃ u, exec (.dbgRecSel r v) s = .next u ∧ SameBut [.regs] (s.reqStepped r) u ∧ OtherRegs [dbgReg 0x054, dbgReg 0x058] s u ∧
        u.fld (dbgReg 0x054) 0 23 = nbits v.toNat 0 23 ∧ u.fld (dbgReg 0x058) 0 2 = 1) ∧
    (s.fld (dbgReg 0x058) 0 2 = 1 → ∃ u, exec .dbgRecReady s = .next u ∧ SameBut [.dbg, .regs] s u ∧
      OtherRegs [dbgReg 0x058] s u ∧
      match selRec s with
      | some x => u.fld (dbgReg 0x058) 0 2 = 2 ∧ u.dbg.window = recBytes s x ∧ u.fld (dbgReg 0x058) 2 12 = (recBytes s x).length
      | none => u.fld (dbgReg 0x058) 0 2 = 3 ∧ u.dbg.window = []) ∧
    (∀ n : Fin 8, n.val ∈ s.dbg.wpDue → ∃ u, exec (.watchPointFire n) s = .next u ∧ SameBut [.dbg, .regs, .cnts] s u ∧
      u.dbg.wpDue = s.dbg.wpDue.erase n.val ∧
      (s.fld (wpReg n.val 0x04) 11 2 ≠ 2 → stopOn s = false → u.dbg.sndAt = some s.tb) ∧
      (s.fld (wpReg n.val 0x04) 11 2 = 2 → stopRefused s = false → stopOn s = false → s.fld (dbgReg 0x050) 0 2 ≠ 1 →
        u.dbg.stopAt = some s.tb) ∧
      (s.fld (wpReg n.val 0x04) 11 2 = 2 → stopRefused s = true → wpPlot s n.val ∉ u.dbg.wpHold)) ∧
    (∀ (r : Req) (set : CntId), reach s r false (cntPage (cntKey set) 0x040) = .ok → (∀ p, r ≠ .steward p) →
      ∃ u, exec (.cntSample r set) s = .next u ∧ SameBut [.cnts] (s.reqStepped r) u ∧
        (u.cnt (cntKey set)).held = (s.cnt (cntKey set)).live ∧ (u.cnt (cntKey set)).live = [] ∧
        (u.cnt (cntKey set)).time = s.tb ∧ (u.cnt (cntKey set)).seq = (s.cnt (cntKey set)).seq + 1 ∧
        ∀ j, j ≠ cntKey set → u.cnt j = s.cnt j)

/-- R451, R606, R607: locked JTAG does nothing; at level 1 DBG_ACCESS reads registers and is denied memory; at level 2
it reaches memory too, and the debug module halts, steps and resumes harts and reads and writes their registers. The
model's choices it rests on: log 68, 69. -/
def Obligations.JtagActsByItsLevel : Prop :=
  ∀ s : State,
    (jtagLevel s = 0 → ∀ dr, exec (.dbgAccess dr) s = .next s) ∧
    (∀ (dr : BitVec 88) (a v op : Nat), a = nbits dr.toNat 0 48 → v = nbits dr.toNat 48 32 → op = nbits dr.toNat 80 2 →
      (jtagLevel s ≠ 0 → op = 0 → exec (.dbgAccess dr) s = .next s) ∧
      (jtagLevel s ≠ 0 → op = 3 ∨ op ≠ 0 ∧ 2 ≤ nbits a 44 4 ∧ nbits a 44 4 ≠ 8 → ∃ u, exec (.dbgAccess dr) s = .next u ∧
        SameBut [.dbg] s u ∧ u.dbg.accStat = 3) ∧
      (jtagLevel s = 1 ∨ jtagLevel s = 2 → op = 1 → nbits a 44 4 = 8 → nbits a 26 18 = 0 → ∃ u t, exec (.dbgAccess dr) s = .next u ∧
        exec (.registerPairLoRead .debug (BitVec.ofNat 26 a) 4) s = .next t ∧ SameBut [.dbg] t u ∧ u.dbg.accStat = 0 ∧
        u.dbg.accData = BitVec.ofNat 32 (leAt t.reply.data 0 4)) ∧
      (jtagLevel s = 2 → op = 2 → nbits a 44 4 = 8 → nbits a 26 18 = 0 → ∃ u t, exec (.dbgAccess dr) s = .next u ∧
        exec (.registerWrite .debug (BitVec.ofNat 26 a) 4 (BitVec.ofNat 64 v)) s = .next t ∧ SameBut [.dbg] t u ∧
        u.dbg.accStat = 0) ∧
      (jtagLevel s = 1 → op = 1 ∨ op = 2 → nbits a 44 4 < 2 → ∃ u, exec (.dbgAccess dr) s = .next u ∧ SameBut [.dbg] s u ∧
        u.dbg.accStat = 2) ∧
      (jtagLevel s = 2 → nbits a 44 4 < 2 → addrOk s none a 4 = true →
        (op = 1 → devReadGo s a 4 = true → ∃ u, exec (.dbgAccess dr) s = .next u ∧ u.dram = (s.devRead a 4 .port).st.dram ∧
          u.dbg.accData = BitVec.ofNat 32 (leAt (s.devRead a 4 .port).data 0 4)) ∧
        (op = 2 → devWriteGo s a 4 = true → ∃ u, exec (.dbgAccess dr) s = .next u ∧
          u.dram = (s.devWrite a (leBytes 4 v) false .port).st.dram))) ∧
    (jtagLevel s ≠ 2 → ∀ x, exec (.dmiAccess x) s = .next s) ∧
    (jtagLevel s = 2 →
      (∀ (st : Fin 16) (k : Fin 8) (h : Nat), h = 8 * st.val + k.val →
        (stackUp s st.val = true → ∃ u, exec (.dmiAccess (.haltCore st k)) s = .next u ∧ SameBut [.dbg] s u ∧ hartFree u h = false) ∧
        (∃ u, exec (.dmiAccess (.resumeCore st k)) s = .next u ∧ SameBut [.dbg] s u ∧ h ∉ u.dbg.dmiHalt) ∧
        (h ∈ s.dbg.dmiHalt → ∃ u, exec (.dmiAccess (.stepCore st k)) s = .next u ∧ SameBut [.dbg] s u ∧ hartFree u h = true ∧
          u.dbg.dmiHalt = s.dbg.dmiHalt) ∧
        (∀ (n : BitVec 16) (v : BitVec 64), h ∈ s.dbg.dmiHalt →
          (∀ w, coreRegGet (s.core h) n.toNat = some w → ∃ u, exec (.dmiAccess (.readCoreReg st k n)) s = .next u ∧
            SameBut [.dbg, .reply] s u ∧ u.dbg.dmiData = w) ∧
          (∃ u, exec (.dmiAccess (.writeCoreReg st k n v)) s = .next u ∧ SameBut [.cores] s u ∧ u.core h = coreRegPut (s.core h) n.toNat v ∧
            ∀ j, j ≠ h → u.core j = s.core j))) ∧
      (∀ (p : PlotId) (k : Nat), k = plotKey p →
        (plotUp s k = true → ∃ u, exec (.dmiAccess (.haltSteward p)) s = .next u ∧ SameBut [.dbg] s u ∧ hartFree u (1024 + k) = false) ∧
        (1024 + k ∈ s.dbg.dmiHalt → ∀ (n : BitVec 16) (v : BitVec 64),
          (∀ w, stewardRegGet (s.plot k).stw n.toNat = some w → ∃ u, exec (.dmiAccess (.readStewardReg p n)) s = .next u ∧
            SameBut [.dbg, .reply] s u ∧ u.dbg.dmiData = w) ∧
          (∃ u, exec (.dmiAccess (.writeStewardReg p n v)) s = .next u ∧ SameBut [.plots] s u ∧ OtherPlots k s u ∧
            (u.plot k).stw = stewardRegPut (s.plot k).stw n.toNat v))) ∧
      (∀ (n : BitVec 16) (v : BitVec 64), riderHart ∈ s.dbg.dmiHalt → n.toNat ≠ 0x1000 → ∃ u,
        exec (.dmiAccess (.writeRiderReg n v)) s = .next u ∧ SameBut [.dbg] s u ∧ ∃ t, exec (.dmiAccess (.readRiderReg n)) u = .next t ∧
          SameBut [.dbg, .reply] u t ∧ t.dbg.dmiData = v))

/-- R491, R493, R494, R495, R496, R499, R521: a reset starts once, with its limit and options, and waits for release
during a stop; when its drain ends the scope is cleared; its release lifts the fences of the plots that are fit and
keeps those of the others. The model's choices it rests on: log 3, 74. -/
def Obligations.ResetsDrainClearAndRelease : Prop :=
  ∀ s : State,
    (∀ (r : Req) (st : Fin 16) (q : Fin 4) (v : Word), reach s r false (rhReg st.val q.val 0x044) = .ok → nbit v.toNat 10 = false →
      (s.dbg.stopAt = none → ∃ u, exec (.plotReset r st q v) s = .next u ∧ SameBut [.faults] (s.reqStepped r) u ∧
        ∀ p : Fin 32, p.val / 8 = q.val → nbit v.toNat (p.val % 8) = true → plotReported s (32 * st.val + p.val) = true →
          resetRuns s (.plot ⟨st, p⟩) = false → ∃ x ∈ u.faults.resets, x.scope = .plot ⟨st, p⟩ ∧ x.cleared = false ∧
            x.zeroFill = nbit v.toNat 8 ∧ x.retest = nbit v.toNat 9 ∧ x.limit = drainLimit s (.plot ⟨st, p⟩)) ∧
      (s.dbg.stopAt ≠ none → ∃ u, exec (.plotReset r st q v) s = .next u ∧ SameBut [.dbg] (s.reqStepped r) u)) ∧
    (∀ (r : Req) (st : Fin 16) (q : Fin 4), reach s r false (rhReg st.val q.val 0x044) = .ok → s.dbg.stopAt = none →
      resetRuns s (.reach st q) = false → ∃ u x, exec (.reachReset r st q) s = .next u ∧ SameBut [.faults] (s.reqStepped r) u ∧
        x ∈ u.faults.resets ∧ x.scope = .reach st q ∧ ∀ y ∈ u.faults.resets, scopeHolds s (.reach st q) y.scope = false) ∧
    (∀ (sc : Scope) (x : ResetRun), pkgUp s = true → (s.faults.resets.find? fun r => r.scope == sc && !r.cleared) = some x →
      ∃ u, exec (.resetDrainEnd sc) s = .next u ∧ u.fuses = s.fuses ∧ u.store = s.store ∧
        (∀ p P, sc = .plot p → P = s.plot (plotKey p) →
          (∃ n, u.plot (plotKey p) = { fw := P.fw, prog := P.prog, failed := P.failed, norSeq := n, kickAt := s.tb }) ∧
          ∃ y ∈ u.faults.resets, y.scope = sc ∧ y.cleared = true) ∧
        (∀ n, sc = .part n → (∀ st ∈ arcOf s n.val, (u.stk st).inReset = true) ∧ (∀ r < 4, u.ring (4 * (n.val + 1) + r) = {}) ∧
          partCleared u n.val = true) ∧
        (∀ cold, sc = .package cold → u.boot.running = true ∧ u.boot.number = s.boot.number + 1 ∧ warmBoot u = !cold ∧ u.rings = [] ∧
          u.net = [] ∧ u.dram = [])) ∧
    (∀ (sc : Scope) (x : ResetRun) (ok flood : Bool), pkgUp s = true →
      (s.faults.resets.find? fun r => r.scope == sc && r.cleared) = some x → fillOver s x = true →
      ∃ u, exec (.resetRelease sc ok flood) s = .next u ∧
        (∀ p k, sc = .plot p → k = plotKey p →
          (x.retest = false → (s.plot k).failed = none → SameBut [.regs, .faults] s u ∧ fenced u k = false) ∧
          (x.retest = true → ok = false → (s.plot k).failed = none → (u.plot k).failed = some .selftest ∧ fenced u k = true) ∧
          (x.retest = true → ok = true → (∃ c, (s.plot k).failed = some c ∧ (c ≠ .flood ∨ flood = true)) →
            (u.plot k).failed = none ∧ fenced u k = false) ∧
          (∀ c, (s.plot k).failed = some c → x.retest = false ∨ ok = false ∨ c = .flood ∧ flood = false →
            (u.plot k).failed = some c ∧ fenced u k = true)) ∧
        (∀ st q, sc = .reach st q → ∀ k ∈ reachPlots s st.val q.val, fenced u k = (s.plot k).failed.isSome))

/-- R475, R476, R512, R513, R515, R516, R517, R523: a proposal is popped oldest first; a test starts when its scope is
idle, ends with its command and holds out what it failed; a spare whose tests, flood and copy pass takes the plot's
place, and no other changes the map. The model's choices it rests on: log 74. -/
def Obligations.TestsSparesAndProposals : Prop :=
  ∀ s : State,
    (∀ r : Req, reach s r true (fltReg 0x048) = .ok → ∃ u, exec (.fltPropPop r) s = .next u ∧
      SameBut [.faults, .caps, .reply] (s.reqStepped r) u ∧
      match s.faults.props with
      | [] => u.reply = { data := leBytes 4 0 } ∧ u.faults = s.faults
      | d :: rest => u.faults = { s.faults with props := rest } ∧ u.reply = { data := leBytes 4 (nth 0 d 0).toNat } ∧
          tget none u.caps (fltReg 0x04C) = some (nth 0 d 1) ∧ tget none u.caps (fltReg 0x050) = some (nth 0 d 2) ∧
          tget none u.caps (fltReg 0x054) = some (nth 0 d 3)) ∧
    (∀ (id : Nat) (t : TestReq), (s.faults.tests.find? fun t => t.id == id) = some t →
      (testUnitUp s t = true → testIdle s t = true →
        (((s.faults.tests.takeWhile fun x => x.id != id) ++ s.faults.running).any (testsMeet t)) = false →
        ∃ u, exec (.selftestStart id) s = .next u ∧ u.faults.running = s.faults.running ++ [t] ∧
          u.faults.tests = s.faults.tests.filter (fun x => x.id != id) ∧ u.rings = s.rings ∧
          (t.test = 2 → (u.plot (32 * t.stack + t.idx)).tank = [] ∧ (u.plot (32 * t.stack + t.idx)).acc = [])) ∧
      (testIdle s t = false → exec (.selftestStart id) s = .next s) ∧
      (∃ u, exec (.busyTimeout id) s = .next u ∧ SameBut [.faults, .rings, .cores, .wire] s u ∧
        u.faults.tests = s.faults.tests.filter (fun x => x.id != id) ∧
        ∀ f g c, t.job = some (f, g, c) → ∀ x ∈ (u.ring g).running, x.id ≠ c)) ∧
    (∀ (id : Nat) (t : TestReq) (ok : Bool) (code : Word), (s.faults.running.find? fun t => t.id == id) = some t →
      ∃ u, exec (.selftestDone id ok code) s = .next u ∧ u.faults.running = s.faults.running.filter (fun x => x.id != id) ∧
        (∀ f g c, t.job = some (f, g, c) → ∀ x ∈ (u.ring g).running, x.id ≠ c) ∧
        (ok = false → t.test ∈ [(1 : Byte), 2, 3] → (u.plot (32 * t.stack + t.idx)).failed ≠ none) ∧
        (ok = false → t.test = 10 → t.stack < 16 → u.bit (bootReg 0x04C) (16 + t.stack) = true)) ∧
    (∀ (st : Fin 16) (p : Fin 32) (x : SpareRun) (tests flood copy : Bool), pkgUp s = true →
      (s.faults.spares.find? fun x => x.stack == st.val && x.plot == p.val) = some x → x.site < 64 →
      ∃ u, exec (.spareCopyDone st p tests flood copy) s = .next u ∧
        (∀ y ∈ (u.ring x.job.2.1).running, y.id ≠ x.job.2.2) ∧
        (tests = false ∨ flood = false → SameBut [.regs, .errs, .faults, .rings, .cores, .wire] s u ∧
          siteOf u (32 * st.val + p.val) = siteOf s (32 * st.val + p.val)) ∧
        (tests = true → flood = true → x.lost = false → copy = false →
          SameBut [.faults, .rings, .cores, .wire] s u) ∧
        (tests = true → flood = true → x.lost = true ∨ copy = true ∧ cisternUp s (32 * st.val + p.val) = true →
          siteOf u (32 * st.val + p.val) = x.site ∧ (u.plot (32 * st.val + p.val)).failed = none ∧
          fenced u (32 * st.val + p.val) = false))
end

