-- ==== Sys2Proof/Laws/Tables.lean ====
section
/-!
SUPPORT. Laws/Tables.lean: read after write on sparse tables, and that every table operation keeps the canonical form.
-/
namespace Sys2Proof.Machine

variable {α : Type}

theorem tget_tins_same (d : α) (t : Tbl α) (i : Nat) (x : α) : tget d (tins t i x) i = x := by
  induction t with
  | nil => simp [tins, tget]
  | cons e t ih =>
    obtain ⟨k, v⟩ := e
    rcases Nat.lt_trichotomy i k with h | h | h
    · simp [tins, tget, h]
    · simp [tins, tget, h]
    · have h1 : ¬ i < k := by omega
      have h2 : ¬ i = k := by omega
      simp [tins, tget, h1, h2, ih]

theorem tget_tins_ne (d : α) (t : Tbl α) {i j : Nat} (x : α) (h : j ≠ i) : tget d (tins t i x) j = tget d t j := by
  induction t with
  | nil => simp [tins, tget, h]
  | cons e t ih =>
    obtain ⟨k, v⟩ := e
    simp only [tins]
    split
    · simp [tget, h]
    · split
      · rename_i hk; subst hk; simp [tget, h]
      · simp only [tget, ih]

theorem tget_filter (d : α) (t : Tbl α) (p : Nat → Bool) (i : Nat) :
    tget d (t.filter fun e => p e.1) i = if p i then tget d t i else d := by
  induction t with
  | nil => simp [tget]
  | cons e t ih =>
    obtain ⟨k, v⟩ := e
    by_cases hp : p k = true <;> by_cases hi : i = k <;> simp_all [tget]

@[simp] theorem tget_tput_same [DecidableEq α] (d : α) (t : Tbl α) (i : Nat) (x : α) : tget d (tput d t i x) i = x := by
  unfold tput
  split
  · rename_i h
    rw [tget_filter d t (fun k => k != i)]; simp [h]
  · exact tget_tins_same d t i x

/-- The value another key reads as may differ from key to key. -/
theorem tget_tput_ne' [DecidableEq α] (d d' : α) (t : Tbl α) {i j : Nat} (x : α) (h : j ≠ i) :
    tget d' (tput d t i x) j = tget d' t j := by
  unfold tput
  split
  · rw [tget_filter d' t (fun k => k != i)]; simp [h]
  · exact tget_tins_ne d' t x h

theorem tget_tput_ne [DecidableEq α] (d : α) (t : Tbl α) {i j : Nat} (x : α) (h : j ≠ i) :
    tget d (tput d t i x) j = tget d t j := tget_tput_ne' d d t x h

/-- Read after write, both ways. -/
theorem tget_tput [DecidableEq α] (d : α) (t : Tbl α) (i j : Nat) (x : α) :
    tget d (tput d t i x) j = if j = i then x else tget d t j := by
  split
  · subst_vars; simp
  · exact tget_tput_ne d t x ‹_›

theorem tget_tkeep (d : α) (t : Tbl α) (p : Nat → Bool) (i : Nat) :
    tget d (tkeep t p) i = if p i then tget d t i else d := tget_filter d t p i

theorem tget_tputs_out [DecidableEq α] (d : α) (l : List α) (t : Tbl α) (i j : Nat) (h : j < i ∨ i + l.length ≤ j) :
    tget d (tputs d t i l) j = tget d t j := by
  induction l generalizing t i with
  | nil => rfl
  | cons x l ih =>
    simp only [tputs, List.length_cons] at *
    rw [ih _ _ (by omega), tget_tput_ne _ _ _ (by omega)]

theorem tget_tputs_in [DecidableEq α] (d : α) (l : List α) (t : Tbl α) (i n : Nat) (h : n < l.length) :
    tget d (tputs d t i l) (i + n) = l[n] := by
  induction l generalizing t i n with
  | nil => simp at h
  | cons x l ih =>
    simp only [tputs]
    cases n with
    | zero => rw [tget_tputs_out _ _ _ _ _ (by omega)]; simp
    | succ n =>
      have := ih (tput d t i x) (i + 1) n (by simpa using h)
      rw [show i + 1 + n = i + (n + 1) by omega] at this
      simpa using this

/-! ### The canonical form -/

variable [DecidableEq α]

theorem twf_cons (d : Nat → α) (k : Nat) (v : α) (t : Tbl α) :
    twf d ((k, v) :: t) = true ↔ v ≠ d k ∧ (∀ e ∈ t.head?, k < e.1) ∧ twf d t = true := by
  cases t with
  | nil => simp [twf]
  | cons e t => obtain ⟨k', v'⟩ := e; simp [twf, and_assoc]

theorem twf_lt (d : Nat → α) (k : Nat) (v : α) (t : Tbl α) (h : twf d ((k, v) :: t) = true) : ∀ e ∈ t, k < e.1 := by
  induction t generalizing k v with
  | nil => simp
  | cons e t ih =>
    obtain ⟨k', v'⟩ := e
    have h1 := (twf_cons d k v _).1 h
    have hk : k < k' := h1.2.1 (k', v') (by simp)
    intro x hx
    rcases List.mem_cons.1 hx with rfl | hx
    · exact hk
    · exact Nat.lt_trans hk (ih k' v' h1.2.2 x hx)

theorem twf_filter (d : Nat → α) (p : Nat → Bool) (t : Tbl α) (h : twf d t = true) :
    twf d (t.filter fun e => p e.1) = true := by
  induction t with
  | nil => simp [twf]
  | cons e t ih =>
    obtain ⟨k, v⟩ := e
    have h1 := (twf_cons d k v t).1 h
    rw [List.filter_cons]
    split
    · refine (twf_cons d k v _).2 ⟨h1.1, fun e he => ?_, ih h1.2.2⟩
      exact twf_lt d k v t h e (List.mem_of_mem_filter (List.mem_of_mem_head? he))
    · exact ih h1.2.2

omit [DecidableEq α] in
theorem head_tins (t : Tbl α) (i : Nat) (x : α) (k : Nat) (hi : k < i) (h : ∀ e ∈ t.head?, k < e.1) :
    ∀ e ∈ (tins t i x).head?, k < e.1 := by
  cases t with
  | nil => simp [tins, hi]
  | cons e t =>
    obtain ⟨k', v'⟩ := e
    have hk : k < k' := by simpa using h
    simp only [tins]
    split
    · simp [hi]
    · split <;> simp [hi, hk]

theorem twf_tins (d : Nat → α) (t : Tbl α) (i : Nat) (x : α) (h : twf d t = true) (hx : x ≠ d i) :
    twf d (tins t i x) = true := by
  induction t with
  | nil => simp [tins, twf, hx]
  | cons e t ih =>
    obtain ⟨k, v⟩ := e
    have h1 := (twf_cons d k v t).1 h
    simp only [tins]
    split
    · exact (twf_cons d i x _).2 ⟨hx, by simpa using ‹i < k›, h⟩
    · split
      · rename_i hk; subst hk
        exact (twf_cons d _ x t).2 ⟨hx, h1.2.1, h1.2.2⟩
      · exact (twf_cons d k v _).2 ⟨h1.1, head_tins t i x k (by omega) h1.2.1, ih h1.2.2⟩

/-- A write keeps the canonical form. -/
theorem twf_tput (d : α) (t : Tbl α) (i : Nat) (x : α) (h : twf (fun _ => d) t = true) :
    twf (fun _ => d) (tput d t i x) = true := by
  unfold tput
  split
  · exact twf_filter _ (fun k => k != i) t h
  · exact twf_tins _ t i x h ‹_›

/-- A write of a register file whose unlisted entries read as `d k`. -/
theorem twf_tput_at (d : Nat → α) (t : Tbl α) (i : Nat) (x : α) (h : twf d t = true) :
    twf d (tput (d i) t i x) = true := by
  unfold tput
  split
  · exact twf_filter _ (fun k => k != i) t h
  · exact twf_tins _ t i x h ‹_›

theorem twf_tputs (d : α) (l : List α) (t : Tbl α) (i : Nat) (h : twf (fun _ => d) t = true) :
    twf (fun _ => d) (tputs d t i l) = true := by
  induction l generalizing t i with
  | nil => exact h
  | cons x l ih => exact ih _ _ (twf_tput d t i x h)

theorem twf_tkeep (d : Nat → α) (t : Tbl α) (p : Nat → Bool) (h : twf d t = true) : twf d (tkeep t p) = true :=
  twf_filter d p t h

/-- Memory of the cisterns: a write of bytes keeps the canonical form. -/
theorem Memory.wf_tputs (m : Tbl Byte) (i : Nat) (l : List Byte) (h : Memory.wf m = true) :
    Memory.wf (tputs 0 m i l) = true := twf_tputs 0 l m i h

/-- Memory of the cisterns: dropping a range keeps the canonical form. -/
theorem Memory.wf_tkeep (m : Tbl Byte) (p : Nat → Bool) (h : Memory.wf m = true) : Memory.wf (tkeep m p) = true :=
  twf_tkeep _ m p h

end Sys2Proof.Machine
end

