-- ==== Sys2Proof/Laws/FramePlots.lean ====
section
/-!
SUPPORT. Laws/FramePlots.lean: what each operation leaves unchanged: one lemma per operation of the plots: array, vector unit, queues.
-/
set_option linter.unusedTactic false
set_option linter.unreachableTactic false
set_option linter.unusedVariables false
set_option linter.unusedSimpArgs false

namespace Sys2Proof.Machine

variable {msk : List Fld} {s0 : State}

theorem sub_mem {m msk : List Fld} {x : Fld} (h : sub m msk = true) (hx : x ∈ m) : x ∈ msk := by
  simp only [sub, List.all_eq_true, List.contains_iff_mem] at h
  exact h x hx

theorem sub_trans {m m' : List Fld} (h : sub m msk = true) (k : sub m' m = true) : sub m' msk = true := by
  simp only [sub, List.all_eq_true, List.contains_iff_mem] at *
  exact fun x hx => h x (k x hx)

theorem SameBut.refl (s : State) : SameBut msk s s := by
  constructor <;> exact fun _ => rfl

theorem SameBut.trans {s t u : State} (h : SameBut msk s t) (k : SameBut msk t u) : SameBut msk s u :=
  ⟨fun x => (k.tb x).trans (h.tb x), fun x => (k.freeCtr x).trans (h.freeCtr x), fun x => (k.reply x).trans (h.reply x), fun x => (k.clocksOff x).trans (h.clocksOff x), fun x => (k.pins x).trans (h.pins x), fun x => (k.fuses x).trans (h.fuses x), fun x => (k.regs x).trans (h.regs x), fun x => (k.caps x).trans (h.caps x), fun x => (k.plots x).trans (h.plots x), fun x => (k.chans x).trans (h.chans x), fun x => (k.slices x).trans (h.slices x), fun x => (k.norias x).trans (h.norias x), fun x => (k.dram x).trans (h.dram x), fun x => (k.chk x).trans (h.chk x), fun x => (k.net x).trans (h.net x), fun x => (k.rr x).trans (h.rr x), fun x => (k.links x).trans (h.links x), fun x => (k.reqTabs x).trans (h.reqTabs x), fun x => (k.stks x).trans (h.stks x), fun x => (k.sensors x).trans (h.sensors x), fun x => (k.coolant x).trans (h.coolant x), fun x => (k.parts x).trans (h.parts x), fun x => (k.rings x).trans (h.rings x), fun x => (k.funcs x).trans (h.funcs x), fun x => (k.lndErr x).trans (h.lndErr x), fun x => (k.cfg x).trans (h.cfg x), fun x => (k.errs x).trans (h.errs x), fun x => (k.xngs x).trans (h.xngs x), fun x => (k.eps x).trans (h.eps x), fun x => (k.groups x).trans (h.groups x), fun x => (k.coll x).trans (h.coll x), fun x => (k.cores x).trans (h.cores x), fun x => (k.caches x).trans (h.caches x), fun x => (k.media x).trans (h.media x), fun x => (k.sec x).trans (h.sec x), fun x => (k.boot x).trans (h.boot x), fun x => (k.store x).trans (h.store x), fun x => (k.faults x).trans (h.faults x), fun x => (k.dbg x).trans (h.dbg x), fun x => (k.cnts x).trans (h.cnts x), fun x => (k.toll x).trans (h.toll x), fun x => (k.wire x).trans (h.wire x), fun x => (k.pending x).trans (h.pending x)⟩

theorem SameBut.mono {m : List Fld} {s t : State} (h : SameBut m s t) (k : sub m msk = true) : SameBut msk s t :=
  ⟨fun x => h.tb fun y => x (sub_mem k y), fun x => h.freeCtr fun y => x (sub_mem k y), fun x => h.reply fun y => x (sub_mem k y), fun x => h.clocksOff fun y => x (sub_mem k y), fun x => h.pins fun y => x (sub_mem k y), fun x => h.fuses fun y => x (sub_mem k y), fun x => h.regs fun y => x (sub_mem k y), fun x => h.caps fun y => x (sub_mem k y), fun x => h.plots fun y => x (sub_mem k y), fun x => h.chans fun y => x (sub_mem k y), fun x => h.slices fun y => x (sub_mem k y), fun x => h.norias fun y => x (sub_mem k y), fun x => h.dram fun y => x (sub_mem k y), fun x => h.chk fun y => x (sub_mem k y), fun x => h.net fun y => x (sub_mem k y), fun x => h.rr fun y => x (sub_mem k y), fun x => h.links fun y => x (sub_mem k y), fun x => h.reqTabs fun y => x (sub_mem k y), fun x => h.stks fun y => x (sub_mem k y), fun x => h.sensors fun y => x (sub_mem k y), fun x => h.coolant fun y => x (sub_mem k y), fun x => h.parts fun y => x (sub_mem k y), fun x => h.rings fun y => x (sub_mem k y), fun x => h.funcs fun y => x (sub_mem k y), fun x => h.lndErr fun y => x (sub_mem k y), fun x => h.cfg fun y => x (sub_mem k y), fun x => h.errs fun y => x (sub_mem k y), fun x => h.xngs fun y => x (sub_mem k y), fun x => h.eps fun y => x (sub_mem k y), fun x => h.groups fun y => x (sub_mem k y), fun x => h.coll fun y => x (sub_mem k y), fun x => h.cores fun y => x (sub_mem k y), fun x => h.caches fun y => x (sub_mem k y), fun x => h.media fun y => x (sub_mem k y), fun x => h.sec fun y => x (sub_mem k y), fun x => h.boot fun y => x (sub_mem k y), fun x => h.store fun y => x (sub_mem k y), fun x => h.faults fun y => x (sub_mem k y), fun x => h.dbg fun y => x (sub_mem k y), fun x => h.cnts fun y => x (sub_mem k y), fun x => h.toll fun y => x (sub_mem k y), fun x => h.wire fun y => x (sub_mem k y), fun x => h.pending fun y => x (sub_mem k y)⟩

/-- An update of several fields. -/
theorem SameBut.lit {s : State} {tb freeCtr reply clocksOff pins fuses regs caps plots chans slices norias dram chk net rr links reqTabs stks sensors coolant parts rings funcs lndErr cfg errs xngs eps groups coll cores caches media sec boot store faults dbg cnts toll wire pending} (h : SameBut msk s0 s)
    (htb : tb = s.tb ∨ sub [Fld.tb] msk = true)
    (hfreeCtr : freeCtr = s.freeCtr ∨ sub [Fld.freeCtr] msk = true)
    (hreply : reply = s.reply ∨ sub [Fld.reply] msk = true)
    (hclocksOff : clocksOff = s.clocksOff ∨ sub [Fld.clocksOff] msk = true)
    (hpins : pins = s.pins ∨ sub [Fld.pins] msk = true)
    (hfuses : fuses = s.fuses ∨ sub [Fld.fuses] msk = true)
    (hregs : regs = s.regs ∨ sub [Fld.regs] msk = true)
    (hcaps : caps = s.caps ∨ sub [Fld.caps] msk = true)
    (hplots : plots = s.plots ∨ sub [Fld.plots] msk = true)
    (hchans : chans = s.chans ∨ sub [Fld.chans] msk = true)
    (hslices : slices = s.slices ∨ sub [Fld.slices] msk = true)
    (hnorias : norias = s.norias ∨ sub [Fld.norias] msk = true)
    (hdram : dram = s.dram ∨ sub [Fld.dram] msk = true)
    (hchk : chk = s.chk ∨ sub [Fld.chk] msk = true)
    (hnet : net = s.net ∨ sub [Fld.net] msk = true)
    (hrr : rr = s.rr ∨ sub [Fld.rr] msk = true)
    (hlinks : links = s.links ∨ sub [Fld.links] msk = true)
    (hreqTabs : reqTabs = s.reqTabs ∨ sub [Fld.reqTabs] msk = true)
    (hstks : stks = s.stks ∨ sub [Fld.stks] msk = true)
    (hsensors : sensors = s.sensors ∨ sub [Fld.sensors] msk = true)
    (hcoolant : coolant = s.coolant ∨ sub [Fld.coolant] msk = true)
    (hparts : parts = s.parts ∨ sub [Fld.parts] msk = true)
    (hrings : rings = s.rings ∨ sub [Fld.rings] msk = true)
    (hfuncs : funcs = s.funcs ∨ sub [Fld.funcs] msk = true)
    (hlndErr : lndErr = s.lndErr ∨ sub [Fld.lndErr] msk = true)
    (hcfg : cfg = s.cfg ∨ sub [Fld.cfg] msk = true)
    (herrs : errs = s.errs ∨ sub [Fld.errs] msk = true)
    (hxngs : xngs = s.xngs ∨ sub [Fld.xngs] msk = true)
    (heps : eps = s.eps ∨ sub [Fld.eps] msk = true)
    (hgroups : groups = s.groups ∨ sub [Fld.groups] msk = true)
    (hcoll : coll = s.coll ∨ sub [Fld.coll] msk = true)
    (hcores : cores = s.cores ∨ sub [Fld.cores] msk = true)
    (hcaches : caches = s.caches ∨ sub [Fld.caches] msk = true)
    (hmedia : media = s.media ∨ sub [Fld.media] msk = true)
    (hsec : sec = s.sec ∨ sub [Fld.sec] msk = true)
    (hboot : boot = s.boot ∨ sub [Fld.boot] msk = true)
    (hstore : store = s.store ∨ sub [Fld.store] msk = true)
    (hfaults : faults = s.faults ∨ sub [Fld.faults] msk = true)
    (hdbg : dbg = s.dbg ∨ sub [Fld.dbg] msk = true)
    (hcnts : cnts = s.cnts ∨ sub [Fld.cnts] msk = true)
    (htoll : toll = s.toll ∨ sub [Fld.toll] msk = true)
    (hwire : wire = s.wire ∨ sub [Fld.wire] msk = true)
    (hpending : pending = s.pending ∨ sub [Fld.pending] msk = true) :
    SameBut msk s0 (State.mk tb freeCtr reply clocksOff pins fuses regs caps plots chans slices norias dram chk net rr links reqTabs stks sensors coolant parts rings funcs lndErr cfg errs xngs eps groups coll cores caches media sec boot store faults dbg cnts toll wire pending) :=
  ⟨fun x => (htb.resolve_right fun y => x (sub_mem y (by simp))).trans (h.tb x), fun x => (hfreeCtr.resolve_right fun y => x (sub_mem y (by simp))).trans (h.freeCtr x), fun x => (hreply.resolve_right fun y => x (sub_mem y (by simp))).trans (h.reply x), fun x => (hclocksOff.resolve_right fun y => x (sub_mem y (by simp))).trans (h.clocksOff x), fun x => (hpins.resolve_right fun y => x (sub_mem y (by simp))).trans (h.pins x), fun x => (hfuses.resolve_right fun y => x (sub_mem y (by simp))).trans (h.fuses x), fun x => (hregs.resolve_right fun y => x (sub_mem y (by simp))).trans (h.regs x), fun x => (hcaps.resolve_right fun y => x (sub_mem y (by simp))).trans (h.caps x), fun x => (hplots.resolve_right fun y => x (sub_mem y (by simp))).trans (h.plots x), fun x => (hchans.resolve_right fun y => x (sub_mem y (by simp))).trans (h.chans x), fun x => (hslices.resolve_right fun y => x (sub_mem y (by simp))).trans (h.slices x), fun x => (hnorias.resolve_right fun y => x (sub_mem y (by simp))).trans (h.norias x), fun x => (hdram.resolve_right fun y => x (sub_mem y (by simp))).trans (h.dram x), fun x => (hchk.resolve_right fun y => x (sub_mem y (by simp))).trans (h.chk x), fun x => (hnet.resolve_right fun y => x (sub_mem y (by simp))).trans (h.net x), fun x => (hrr.resolve_right fun y => x (sub_mem y (by simp))).trans (h.rr x), fun x => (hlinks.resolve_right fun y => x (sub_mem y (by simp))).trans (h.links x), fun x => (hreqTabs.resolve_right fun y => x (sub_mem y (by simp))).trans (h.reqTabs x), fun x => (hstks.resolve_right fun y => x (sub_mem y (by simp))).trans (h.stks x), fun x => (hsensors.resolve_right fun y => x (sub_mem y (by simp))).trans (h.sensors x), fun x => (hcoolant.resolve_right fun y => x (sub_mem y (by simp))).trans (h.coolant x), fun x => (hparts.resolve_right fun y => x (sub_mem y (by simp))).trans (h.parts x), fun x => (hrings.resolve_right fun y => x (sub_mem y (by simp))).trans (h.rings x), fun x => (hfuncs.resolve_right fun y => x (sub_mem y (by simp))).trans (h.funcs x), fun x => (hlndErr.resolve_right fun y => x (sub_mem y (by simp))).trans (h.lndErr x), fun x => (hcfg.resolve_right fun y => x (sub_mem y (by simp))).trans (h.cfg x), fun x => (herrs.resolve_right fun y => x (sub_mem y (by simp))).trans (h.errs x), fun x => (hxngs.resolve_right fun y => x (sub_mem y (by simp))).trans (h.xngs x), fun x => (heps.resolve_right fun y => x (sub_mem y (by simp))).trans (h.eps x), fun x => (hgroups.resolve_right fun y => x (sub_mem y (by simp))).trans (h.groups x), fun x => (hcoll.resolve_right fun y => x (sub_mem y (by simp))).trans (h.coll x), fun x => (hcores.resolve_right fun y => x (sub_mem y (by simp))).trans (h.cores x), fun x => (hcaches.resolve_right fun y => x (sub_mem y (by simp))).trans (h.caches x), fun x => (hmedia.resolve_right fun y => x (sub_mem y (by simp))).trans (h.media x), fun x => (hsec.resolve_right fun y => x (sub_mem y (by simp))).trans (h.sec x), fun x => (hboot.resolve_right fun y => x (sub_mem y (by simp))).trans (h.boot x), fun x => (hstore.resolve_right fun y => x (sub_mem y (by simp))).trans (h.store x), fun x => (hfaults.resolve_right fun y => x (sub_mem y (by simp))).trans (h.faults x), fun x => (hdbg.resolve_right fun y => x (sub_mem y (by simp))).trans (h.dbg x), fun x => (hcnts.resolve_right fun y => x (sub_mem y (by simp))).trans (h.cnts x), fun x => (htoll.resolve_right fun y => x (sub_mem y (by simp))).trans (h.toll x), fun x => (hwire.resolve_right fun y => x (sub_mem y (by simp))).trans (h.wire x), fun x => (hpending.resolve_right fun y => x (sub_mem y (by simp))).trans (h.pending x)⟩

theorem SameBut.lit_tb {s : State} {x} (h : SameBut msk s0 s) (hmsk : sub [.tb] msk = true) :
    SameBut msk s0 (State.mk x s.freeCtr s.reply s.clocksOff s.pins s.fuses s.regs s.caps s.plots s.chans s.slices s.norias s.dram s.chk s.net s.rr s.links s.reqTabs s.stks s.sensors s.coolant s.parts s.rings s.funcs s.lndErr s.cfg s.errs s.xngs s.eps s.groups s.coll s.cores s.caches s.media s.sec s.boot s.store s.faults s.dbg s.cnts s.toll s.wire s.pending) :=
  ⟨fun y => absurd (sub_mem hmsk (by simp)) y, h.freeCtr, h.reply, h.clocksOff, h.pins, h.fuses, h.regs, h.caps, h.plots, h.chans, h.slices, h.norias, h.dram, h.chk, h.net, h.rr, h.links, h.reqTabs, h.stks, h.sensors, h.coolant, h.parts, h.rings, h.funcs, h.lndErr, h.cfg, h.errs, h.xngs, h.eps, h.groups, h.coll, h.cores, h.caches, h.media, h.sec, h.boot, h.store, h.faults, h.dbg, h.cnts, h.toll, h.wire, h.pending⟩

theorem SameBut.lit_freeCtr {s : State} {x} (h : SameBut msk s0 s) (hmsk : sub [.freeCtr] msk = true) :
    SameBut msk s0 (State.mk s.tb x s.reply s.clocksOff s.pins s.fuses s.regs s.caps s.plots s.chans s.slices s.norias s.dram s.chk s.net s.rr s.links s.reqTabs s.stks s.sensors s.coolant s.parts s.rings s.funcs s.lndErr s.cfg s.errs s.xngs s.eps s.groups s.coll s.cores s.caches s.media s.sec s.boot s.store s.faults s.dbg s.cnts s.toll s.wire s.pending) :=
  ⟨h.tb, fun y => absurd (sub_mem hmsk (by simp)) y, h.reply, h.clocksOff, h.pins, h.fuses, h.regs, h.caps, h.plots, h.chans, h.slices, h.norias, h.dram, h.chk, h.net, h.rr, h.links, h.reqTabs, h.stks, h.sensors, h.coolant, h.parts, h.rings, h.funcs, h.lndErr, h.cfg, h.errs, h.xngs, h.eps, h.groups, h.coll, h.cores, h.caches, h.media, h.sec, h.boot, h.store, h.faults, h.dbg, h.cnts, h.toll, h.wire, h.pending⟩

theorem SameBut.lit_reply {s : State} {x} (h : SameBut msk s0 s) (hmsk : sub [.reply] msk = true) :
    SameBut msk s0 (State.mk s.tb s.freeCtr x s.clocksOff s.pins s.fuses s.regs s.caps s.plots s.chans s.slices s.norias s.dram s.chk s.net s.rr s.links s.reqTabs s.stks s.sensors s.coolant s.parts s.rings s.funcs s.lndErr s.cfg s.errs s.xngs s.eps s.groups s.coll s.cores s.caches s.media s.sec s.boot s.store s.faults s.dbg s.cnts s.toll s.wire s.pending) :=
  ⟨h.tb, h.freeCtr, fun y => absurd (sub_mem hmsk (by simp)) y, h.clocksOff, h.pins, h.fuses, h.regs, h.caps, h.plots, h.chans, h.slices, h.norias, h.dram, h.chk, h.net, h.rr, h.links, h.reqTabs, h.stks, h.sensors, h.coolant, h.parts, h.rings, h.funcs, h.lndErr, h.cfg, h.errs, h.xngs, h.eps, h.groups, h.coll, h.cores, h.caches, h.media, h.sec, h.boot, h.store, h.faults, h.dbg, h.cnts, h.toll, h.wire, h.pending⟩

theorem SameBut.lit_clocksOff {s : State} {x} (h : SameBut msk s0 s) (hmsk : sub [.clocksOff] msk = true) :
    SameBut msk s0 (State.mk s.tb s.freeCtr s.reply x s.pins s.fuses s.regs s.caps s.plots s.chans s.slices s.norias s.dram s.chk s.net s.rr s.links s.reqTabs s.stks s.sensors s.coolant s.parts s.rings s.funcs s.lndErr s.cfg s.errs s.xngs s.eps s.groups s.coll s.cores s.caches s.media s.sec s.boot s.store s.faults s.dbg s.cnts s.toll s.wire s.pending) :=
  ⟨h.tb, h.freeCtr, h.reply, fun y => absurd (sub_mem hmsk (by simp)) y, h.pins, h.fuses, h.regs, h.caps, h.plots, h.chans, h.slices, h.norias, h.dram, h.chk, h.net, h.rr, h.links, h.reqTabs, h.stks, h.sensors, h.coolant, h.parts, h.rings, h.funcs, h.lndErr, h.cfg, h.errs, h.xngs, h.eps, h.groups, h.coll, h.cores, h.caches, h.media, h.sec, h.boot, h.store, h.faults, h.dbg, h.cnts, h.toll, h.wire, h.pending⟩

theorem SameBut.lit_pins {s : State} {x} (h : SameBut msk s0 s) (hmsk : sub [.pins] msk = true) :
    SameBut msk s0 (State.mk s.tb s.freeCtr s.reply s.clocksOff x s.fuses s.regs s.caps s.plots s.chans s.slices s.norias s.dram s.chk s.net s.rr s.links s.reqTabs s.stks s.sensors s.coolant s.parts s.rings s.funcs s.lndErr s.cfg s.errs s.xngs s.eps s.groups s.coll s.cores s.caches s.media s.sec s.boot s.store s.faults s.dbg s.cnts s.toll s.wire s.pending) :=
  ⟨h.tb, h.freeCtr, h.reply, h.clocksOff, fun y => absurd (sub_mem hmsk (by simp)) y, h.fuses, h.regs, h.caps, h.plots, h.chans, h.slices, h.norias, h.dram, h.chk, h.net, h.rr, h.links, h.reqTabs, h.stks, h.sensors, h.coolant, h.parts, h.rings, h.funcs, h.lndErr, h.cfg, h.errs, h.xngs, h.eps, h.groups, h.coll, h.cores, h.caches, h.media, h.sec, h.boot, h.store, h.faults, h.dbg, h.cnts, h.toll, h.wire, h.pending⟩

theorem SameBut.lit_fuses {s : State} {x} (h : SameBut msk s0 s) (hmsk : sub [.fuses] msk = true) :
    SameBut msk s0 (State.mk s.tb s.freeCtr s.reply s.clocksOff s.pins x s.regs s.caps s.plots s.chans s.slices s.norias s.dram s.chk s.net s.rr s.links s.reqTabs s.stks s.sensors s.coolant s.parts s.rings s.funcs s.lndErr s.cfg s.errs s.xngs s.eps s.groups s.coll s.cores s.caches s.media s.sec s.boot s.store s.faults s.dbg s.cnts s.toll s.wire s.pending) :=
  ⟨h.tb, h.freeCtr, h.reply, h.clocksOff, h.pins, fun y => absurd (sub_mem hmsk (by simp)) y, h.regs, h.caps, h.plots, h.chans, h.slices, h.norias, h.dram, h.chk, h.net, h.rr, h.links, h.reqTabs, h.stks, h.sensors, h.coolant, h.parts, h.rings, h.funcs, h.lndErr, h.cfg, h.errs, h.xngs, h.eps, h.groups, h.coll, h.cores, h.caches, h.media, h.sec, h.boot, h.store, h.faults, h.dbg, h.cnts, h.toll, h.wire, h.pending⟩

theorem SameBut.lit_regs {s : State} {x} (h : SameBut msk s0 s) (hmsk : sub [.regs] msk = true) :
    SameBut msk s0 (State.mk s.tb s.freeCtr s.reply s.clocksOff s.pins s.fuses x s.caps s.plots s.chans s.slices s.norias s.dram s.chk s.net s.rr s.links s.reqTabs s.stks s.sensors s.coolant s.parts s.rings s.funcs s.lndErr s.cfg s.errs s.xngs s.eps s.groups s.coll s.cores s.caches s.media s.sec s.boot s.store s.faults s.dbg s.cnts s.toll s.wire s.pending) :=
  ⟨h.tb, h.freeCtr, h.reply, h.clocksOff, h.pins, h.fuses, fun y => absurd (sub_mem hmsk (by simp)) y, h.caps, h.plots, h.chans, h.slices, h.norias, h.dram, h.chk, h.net, h.rr, h.links, h.reqTabs, h.stks, h.sensors, h.coolant, h.parts, h.rings, h.funcs, h.lndErr, h.cfg, h.errs, h.xngs, h.eps, h.groups, h.coll, h.cores, h.caches, h.media, h.sec, h.boot, h.store, h.faults, h.dbg, h.cnts, h.toll, h.wire, h.pending⟩

theorem SameBut.lit_caps {s : State} {x} (h : SameBut msk s0 s) (hmsk : sub [.caps] msk = true) :
    SameBut msk s0 (State.mk s.tb s.freeCtr s.reply s.clocksOff s.pins s.fuses s.regs x s.plots s.chans s.slices s.norias s.dram s.chk s.net s.rr s.links s.reqTabs s.stks s.sensors s.coolant s.parts s.rings s.funcs s.lndErr s.cfg s.errs s.xngs s.eps s.groups s.coll s.cores s.caches s.media s.sec s.boot s.store s.faults s.dbg s.cnts s.toll s.wire s.pending) :=
  ⟨h.tb, h.freeCtr, h.reply, h.clocksOff, h.pins, h.fuses, h.regs, fun y => absurd (sub_mem hmsk (by simp)) y, h.plots, h.chans, h.slices, h.norias, h.dram, h.chk, h.net, h.rr, h.links, h.reqTabs, h.stks, h.sensors, h.coolant, h.parts, h.rings, h.funcs, h.lndErr, h.cfg, h.errs, h.xngs, h.eps, h.groups, h.coll, h.cores, h.caches, h.media, h.sec, h.boot, h.store, h.faults, h.dbg, h.cnts, h.toll, h.wire, h.pending⟩

theorem SameBut.lit_plots {s : State} {x} (h : SameBut msk s0 s) (hmsk : sub [.plots] msk = true) :
    SameBut msk s0 (State.mk s.tb s.freeCtr s.reply s.clocksOff s.pins s.fuses s.regs s.caps x s.chans s.slices s.norias s.dram s.chk s.net s.rr s.links s.reqTabs s.stks s.sensors s.coolant s.parts s.rings s.funcs s.lndErr s.cfg s.errs s.xngs s.eps s.groups s.coll s.cores s.caches s.media s.sec s.boot s.store s.faults s.dbg s.cnts s.toll s.wire s.pending) :=
  ⟨h.tb, h.freeCtr, h.reply, h.clocksOff, h.pins, h.fuses, h.regs, h.caps, fun y => absurd (sub_mem hmsk (by simp)) y, h.chans, h.slices, h.norias, h.dram, h.chk, h.net, h.rr, h.links, h.reqTabs, h.stks, h.sensors, h.coolant, h.parts, h.rings, h.funcs, h.lndErr, h.cfg, h.errs, h.xngs, h.eps, h.groups, h.coll, h.cores, h.caches, h.media, h.sec, h.boot, h.store, h.faults, h.dbg, h.cnts, h.toll, h.wire, h.pending⟩

theorem SameBut.lit_chans {s : State} {x} (h : SameBut msk s0 s) (hmsk : sub [.chans] msk = true) :
    SameBut msk s0 (State.mk s.tb s.freeCtr s.reply s.clocksOff s.pins s.fuses s.regs s.caps s.plots x s.slices s.norias s.dram s.chk s.net s.rr s.links s.reqTabs s.stks s.sensors s.coolant s.parts s.rings s.funcs s.lndErr s.cfg s.errs s.xngs s.eps s.groups s.coll s.cores s.caches s.media s.sec s.boot s.store s.faults s.dbg s.cnts s.toll s.wire s.pending) :=
  ⟨h.tb, h.freeCtr, h.reply, h.clocksOff, h.pins, h.fuses, h.regs, h.caps, h.plots, fun y => absurd (sub_mem hmsk (by simp)) y, h.slices, h.norias, h.dram, h.chk, h.net, h.rr, h.links, h.reqTabs, h.stks, h.sensors, h.coolant, h.parts, h.rings, h.funcs, h.lndErr, h.cfg, h.errs, h.xngs, h.eps, h.groups, h.coll, h.cores, h.caches, h.media, h.sec, h.boot, h.store, h.faults, h.dbg, h.cnts, h.toll, h.wire, h.pending⟩

theorem SameBut.lit_slices {s : State} {x} (h : SameBut msk s0 s) (hmsk : sub [.slices] msk = true) :
    SameBut msk s0 (State.mk s.tb s.freeCtr s.reply s.clocksOff s.pins s.fuses s.regs s.caps s.plots s.chans x s.norias s.dram s.chk s.net s.rr s.links s.reqTabs s.stks s.sensors s.coolant s.parts s.rings s.funcs s.lndErr s.cfg s.errs s.xngs s.eps s.groups s.coll s.cores s.caches s.media s.sec s.boot s.store s.faults s.dbg s.cnts s.toll s.wire s.pending) :=
  ⟨h.tb, h.freeCtr, h.reply, h.clocksOff, h.pins, h.fuses, h.regs, h.caps, h.plots, h.chans, fun y => absurd (sub_mem hmsk (by simp)) y, h.norias, h.dram, h.chk, h.net, h.rr, h.links, h.reqTabs, h.stks, h.sensors, h.coolant, h.parts, h.rings, h.funcs, h.lndErr, h.cfg, h.errs, h.xngs, h.eps, h.groups, h.coll, h.cores, h.caches, h.media, h.sec, h.boot, h.store, h.faults, h.dbg, h.cnts, h.toll, h.wire, h.pending⟩

theorem SameBut.lit_norias {s : State} {x} (h : SameBut msk s0 s) (hmsk : sub [.norias] msk = true) :
    SameBut msk s0 (State.mk s.tb s.freeCtr s.reply s.clocksOff s.pins s.fuses s.regs s.caps s.plots s.chans s.slices x s.dram s.chk s.net s.rr s.links s.reqTabs s.stks s.sensors s.coolant s.parts s.rings s.funcs s.lndErr s.cfg s.errs s.xngs s.eps s.groups s.coll s.cores s.caches s.media s.sec s.boot s.store s.faults s.dbg s.cnts s.toll s.wire s.pending) :=
  ⟨h.tb, h.freeCtr, h.reply, h.clocksOff, h.pins, h.fuses, h.regs, h.caps, h.plots, h.chans, h.slices, fun y => absurd (sub_mem hmsk (by simp)) y, h.dram, h.chk, h.net, h.rr, h.links, h.reqTabs, h.stks, h.sensors, h.coolant, h.parts, h.rings, h.funcs, h.lndErr, h.cfg, h.errs, h.xngs, h.eps, h.groups, h.coll, h.cores, h.caches, h.media, h.sec, h.boot, h.store, h.faults, h.dbg, h.cnts, h.toll, h.wire, h.pending⟩

theorem SameBut.lit_dram {s : State} {x} (h : SameBut msk s0 s) (hmsk : sub [.dram] msk = true) :
    SameBut msk s0 (State.mk s.tb s.freeCtr s.reply s.clocksOff s.pins s.fuses s.regs s.caps s.plots s.chans s.slices s.norias x s.chk s.net s.rr s.links s.reqTabs s.stks s.sensors s.coolant s.parts s.rings s.funcs s.lndErr s.cfg s.errs s.xngs s.eps s.groups s.coll s.cores s.caches s.media s.sec s.boot s.store s.faults s.dbg s.cnts s.toll s.wire s.pending) :=
  ⟨h.tb, h.freeCtr, h.reply, h.clocksOff, h.pins, h.fuses, h.regs, h.caps, h.plots, h.chans, h.slices, h.norias, fun y => absurd (sub_mem hmsk (by simp)) y, h.chk, h.net, h.rr, h.links, h.reqTabs, h.stks, h.sensors, h.coolant, h.parts, h.rings, h.funcs, h.lndErr, h.cfg, h.errs, h.xngs, h.eps, h.groups, h.coll, h.cores, h.caches, h.media, h.sec, h.boot, h.store, h.faults, h.dbg, h.cnts, h.toll, h.wire, h.pending⟩

theorem SameBut.lit_chk {s : State} {x} (h : SameBut msk s0 s) (hmsk : sub [.chk] msk = true) :
    SameBut msk s0 (State.mk s.tb s.freeCtr s.reply s.clocksOff s.pins s.fuses s.regs s.caps s.plots s.chans s.slices s.norias s.dram x s.net s.rr s.links s.reqTabs s.stks s.sensors s.coolant s.parts s.rings s.funcs s.lndErr s.cfg s.errs s.xngs s.eps s.groups s.coll s.cores s.caches s.media s.sec s.boot s.store s.faults s.dbg s.cnts s.toll s.wire s.pending) :=
  ⟨h.tb, h.freeCtr, h.reply, h.clocksOff, h.pins, h.fuses, h.regs, h.caps, h.plots, h.chans, h.slices, h.norias, h.dram, fun y => absurd (sub_mem hmsk (by simp)) y, h.net, h.rr, h.links, h.reqTabs, h.stks, h.sensors, h.coolant, h.parts, h.rings, h.funcs, h.lndErr, h.cfg, h.errs, h.xngs, h.eps, h.groups, h.coll, h.cores, h.caches, h.media, h.sec, h.boot, h.store, h.faults, h.dbg, h.cnts, h.toll, h.wire, h.pending⟩

theorem SameBut.lit_net {s : State} {x} (h : SameBut msk s0 s) (hmsk : sub [.net] msk = true) :
    SameBut msk s0 (State.mk s.tb s.freeCtr s.reply s.clocksOff s.pins s.fuses s.regs s.caps s.plots s.chans s.slices s.norias s.dram s.chk x s.rr s.links s.reqTabs s.stks s.sensors s.coolant s.parts s.rings s.funcs s.lndErr s.cfg s.errs s.xngs s.eps s.groups s.coll s.cores s.caches s.media s.sec s.boot s.store s.faults s.dbg s.cnts s.toll s.wire s.pending) :=
  ⟨h.tb, h.freeCtr, h.reply, h.clocksOff, h.pins, h.fuses, h.regs, h.caps, h.plots, h.chans, h.slices, h.norias, h.dram, h.chk, fun y => absurd (sub_mem hmsk (by simp)) y, h.rr, h.links, h.reqTabs, h.stks, h.sensors, h.coolant, h.parts, h.rings, h.funcs, h.lndErr, h.cfg, h.errs, h.xngs, h.eps, h.groups, h.coll, h.cores, h.caches, h.media, h.sec, h.boot, h.store, h.faults, h.dbg, h.cnts, h.toll, h.wire, h.pending⟩

theorem SameBut.lit_rr {s : State} {x} (h : SameBut msk s0 s) (hmsk : sub [.rr] msk = true) :
    SameBut msk s0 (State.mk s.tb s.freeCtr s.reply s.clocksOff s.pins s.fuses s.regs s.caps s.plots s.chans s.slices s.norias s.dram s.chk s.net x s.links s.reqTabs s.stks s.sensors s.coolant s.parts s.rings s.funcs s.lndErr s.cfg s.errs s.xngs s.eps s.groups s.coll s.cores s.caches s.media s.sec s.boot s.store s.faults s.dbg s.cnts s.toll s.wire s.pending) :=
  ⟨h.tb, h.freeCtr, h.reply, h.clocksOff, h.pins, h.fuses, h.regs, h.caps, h.plots, h.chans, h.slices, h.norias, h.dram, h.chk, h.net, fun y => absurd (sub_mem hmsk (by simp)) y, h.links, h.reqTabs, h.stks, h.sensors, h.coolant, h.parts, h.rings, h.funcs, h.lndErr, h.cfg, h.errs, h.xngs, h.eps, h.groups, h.coll, h.cores, h.caches, h.media, h.sec, h.boot, h.store, h.faults, h.dbg, h.cnts, h.toll, h.wire, h.pending⟩

theorem SameBut.lit_links {s : State} {x} (h : SameBut msk s0 s) (hmsk : sub [.links] msk = true) :
    SameBut msk s0 (State.mk s.tb s.freeCtr s.reply s.clocksOff s.pins s.fuses s.regs s.caps s.plots s.chans s.slices s.norias s.dram s.chk s.net s.rr x s.reqTabs s.stks s.sensors s.coolant s.parts s.rings s.funcs s.lndErr s.cfg s.errs s.xngs s.eps s.groups s.coll s.cores s.caches s.media s.sec s.boot s.store s.faults s.dbg s.cnts s.toll s.wire s.pending) :=
  ⟨h.tb, h.freeCtr, h.reply, h.clocksOff, h.pins, h.fuses, h.regs, h.caps, h.plots, h.chans, h.slices, h.norias, h.dram, h.chk, h.net, h.rr, fun y => absurd (sub_mem hmsk (by simp)) y, h.reqTabs, h.stks, h.sensors, h.coolant, h.parts, h.rings, h.funcs, h.lndErr, h.cfg, h.errs, h.xngs, h.eps, h.groups, h.coll, h.cores, h.caches, h.media, h.sec, h.boot, h.store, h.faults, h.dbg, h.cnts, h.toll, h.wire, h.pending⟩

theorem SameBut.lit_reqTabs {s : State} {x} (h : SameBut msk s0 s) (hmsk : sub [.reqTabs] msk = true) :
    SameBut msk s0 (State.mk s.tb s.freeCtr s.reply s.clocksOff s.pins s.fuses s.regs s.caps s.plots s.chans s.slices s.norias s.dram s.chk s.net s.rr s.links x s.stks s.sensors s.coolant s.parts s.rings s.funcs s.lndErr s.cfg s.errs s.xngs s.eps s.groups s.coll s.cores s.caches s.media s.sec s.boot s.store s.faults s.dbg s.cnts s.toll s.wire s.pending) :=
  ⟨h.tb, h.freeCtr, h.reply, h.clocksOff, h.pins, h.fuses, h.regs, h.caps, h.plots, h.chans, h.slices, h.norias, h.dram, h.chk, h.net, h.rr, h.links, fun y => absurd (sub_mem hmsk (by simp)) y, h.stks, h.sensors, h.coolant, h.parts, h.rings, h.funcs, h.lndErr, h.cfg, h.errs, h.xngs, h.eps, h.groups, h.coll, h.cores, h.caches, h.media, h.sec, h.boot, h.store, h.faults, h.dbg, h.cnts, h.toll, h.wire, h.pending⟩

theorem SameBut.lit_stks {s : State} {x} (h : SameBut msk s0 s) (hmsk : sub [.stks] msk = true) :
    SameBut msk s0 (State.mk s.tb s.freeCtr s.reply s.clocksOff s.pins s.fuses s.regs s.caps s.plots s.chans s.slices s.norias s.dram s.chk s.net s.rr s.links s.reqTabs x s.sensors s.coolant s.parts s.rings s.funcs s.lndErr s.cfg s.errs s.xngs s.eps s.groups s.coll s.cores s.caches s.media s.sec s.boot s.store s.faults s.dbg s.cnts s.toll s.wire s.pending) :=
  ⟨h.tb, h.freeCtr, h.reply, h.clocksOff, h.pins, h.fuses, h.regs, h.caps, h.plots, h.chans, h.slices, h.norias, h.dram, h.chk, h.net, h.rr, h.links, h.reqTabs, fun y => absurd (sub_mem hmsk (by simp)) y, h.sensors, h.coolant, h.parts, h.rings, h.funcs, h.lndErr, h.cfg, h.errs, h.xngs, h.eps, h.groups, h.coll, h.cores, h.caches, h.media, h.sec, h.boot, h.store, h.faults, h.dbg, h.cnts, h.toll, h.wire, h.pending⟩

theorem SameBut.lit_sensors {s : State} {x} (h : SameBut msk s0 s) (hmsk : sub [.sensors] msk = true) :
    SameBut msk s0 (State.mk s.tb s.freeCtr s.reply s.clocksOff s.pins s.fuses s.regs s.caps s.plots s.chans s.slices s.norias s.dram s.chk s.net s.rr s.links s.reqTabs s.stks x s.coolant s.parts s.rings s.funcs s.lndErr s.cfg s.errs s.xngs s.eps s.groups s.coll s.cores s.caches s.media s.sec s.boot s.store s.faults s.dbg s.cnts s.toll s.wire s.pending) :=
  ⟨h.tb, h.freeCtr, h.reply, h.clocksOff, h.pins, h.fuses, h.regs, h.caps, h.plots, h.chans, h.slices, h.norias, h.dram, h.chk, h.net, h.rr, h.links, h.reqTabs, h.stks, fun y => absurd (sub_mem hmsk (by simp)) y, h.coolant, h.parts, h.rings, h.funcs, h.lndErr, h.cfg, h.errs, h.xngs, h.eps, h.groups, h.coll, h.cores, h.caches, h.media, h.sec, h.boot, h.store, h.faults, h.dbg, h.cnts, h.toll, h.wire, h.pending⟩

theorem SameBut.lit_coolant {s : State} {x} (h : SameBut msk s0 s) (hmsk : sub [.coolant] msk = true) :
    SameBut msk s0 (State.mk s.tb s.freeCtr s.reply s.clocksOff s.pins s.fuses s.regs s.caps s.plots s.chans s.slices s.norias s.dram s.chk s.net s.rr s.links s.reqTabs s.stks s.sensors x s.parts s.rings s.funcs s.lndErr s.cfg s.errs s.xngs s.eps s.groups s.coll s.cores s.caches s.media s.sec s.boot s.store s.faults s.dbg s.cnts s.toll s.wire s.pending) :=
  ⟨h.tb, h.freeCtr, h.reply, h.clocksOff, h.pins, h.fuses, h.regs, h.caps, h.plots, h.chans, h.slices, h.norias, h.dram, h.chk, h.net, h.rr, h.links, h.reqTabs, h.stks, h.sensors, fun y => absurd (sub_mem hmsk (by simp)) y, h.parts, h.rings, h.funcs, h.lndErr, h.cfg, h.errs, h.xngs, h.eps, h.groups, h.coll, h.cores, h.caches, h.media, h.sec, h.boot, h.store, h.faults, h.dbg, h.cnts, h.toll, h.wire, h.pending⟩

theorem SameBut.lit_parts {s : State} {x} (h : SameBut msk s0 s) (hmsk : sub [.parts] msk = true) :
    SameBut msk s0 (State.mk s.tb s.freeCtr s.reply s.clocksOff s.pins s.fuses s.regs s.caps s.plots s.chans s.slices s.norias s.dram s.chk s.net s.rr s.links s.reqTabs s.stks s.sensors s.coolant x s.rings s.funcs s.lndErr s.cfg s.errs s.xngs s.eps s.groups s.coll s.cores s.caches s.media s.sec s.boot s.store s.faults s.dbg s.cnts s.toll s.wire s.pending) :=
  ⟨h.tb, h.freeCtr, h.reply, h.clocksOff, h.pins, h.fuses, h.regs, h.caps, h.plots, h.chans, h.slices, h.norias, h.dram, h.chk, h.net, h.rr, h.links, h.reqTabs, h.stks, h.sensors, h.coolant, fun y => absurd (sub_mem hmsk (by simp)) y, h.rings, h.funcs, h.lndErr, h.cfg, h.errs, h.xngs, h.eps, h.groups, h.coll, h.cores, h.caches, h.media, h.sec, h.boot, h.store, h.faults, h.dbg, h.cnts, h.toll, h.wire, h.pending⟩

theorem SameBut.lit_rings {s : State} {x} (h : SameBut msk s0 s) (hmsk : sub [.rings] msk = true) :
    SameBut msk s0 (State.mk s.tb s.freeCtr s.reply s.clocksOff s.pins s.fuses s.regs s.caps s.plots s.chans s.slices s.norias s.dram s.chk s.net s.rr s.links s.reqTabs s.stks s.sensors s.coolant s.parts x s.funcs s.lndErr s.cfg s.errs s.xngs s.eps s.groups s.coll s.cores s.caches s.media s.sec s.boot s.store s.faults s.dbg s.cnts s.toll s.wire s.pending) :=
  ⟨h.tb, h.freeCtr, h.reply, h.clocksOff, h.pins, h.fuses, h.regs, h.caps, h.plots, h.chans, h.slices, h.norias, h.dram, h.chk, h.net, h.rr, h.links, h.reqTabs, h.stks, h.sensors, h.coolant, h.parts, fun y => absurd (sub_mem hmsk (by simp)) y, h.funcs, h.lndErr, h.cfg, h.errs, h.xngs, h.eps, h.groups, h.coll, h.cores, h.caches, h.media, h.sec, h.boot, h.store, h.faults, h.dbg, h.cnts, h.toll, h.wire, h.pending⟩

theorem SameBut.lit_funcs {s : State} {x} (h : SameBut msk s0 s) (hmsk : sub [.funcs] msk = true) :
    SameBut msk s0 (State.mk s.tb s.freeCtr s.reply s.clocksOff s.pins s.fuses s.regs s.caps s.plots s.chans s.slices s.norias s.dram s.chk s.net s.rr s.links s.reqTabs s.stks s.sensors s.coolant s.parts s.rings x s.lndErr s.cfg s.errs s.xngs s.eps s.groups s.coll s.cores s.caches s.media s.sec s.boot s.store s.faults s.dbg s.cnts s.toll s.wire s.pending) :=
  ⟨h.tb, h.freeCtr, h.reply, h.clocksOff, h.pins, h.fuses, h.regs, h.caps, h.plots, h.chans, h.slices, h.norias, h.dram, h.chk, h.net, h.rr, h.links, h.reqTabs, h.stks, h.sensors, h.coolant, h.parts, h.rings, fun y => absurd (sub_mem hmsk (by simp)) y, h.lndErr, h.cfg, h.errs, h.xngs, h.eps, h.groups, h.coll, h.cores, h.caches, h.media, h.sec, h.boot, h.store, h.faults, h.dbg, h.cnts, h.toll, h.wire, h.pending⟩

theorem SameBut.lit_lndErr {s : State} {x} (h : SameBut msk s0 s) (hmsk : sub [.lndErr] msk = true) :
    SameBut msk s0 (State.mk s.tb s.freeCtr s.reply s.clocksOff s.pins s.fuses s.regs s.caps s.plots s.chans s.slices s.norias s.dram s.chk s.net s.rr s.links s.reqTabs s.stks s.sensors s.coolant s.parts s.rings s.funcs x s.cfg s.errs s.xngs s.eps s.groups s.coll s.cores s.caches s.media s.sec s.boot s.store s.faults s.dbg s.cnts s.toll s.wire s.pending) :=
  ⟨h.tb, h.freeCtr, h.reply, h.clocksOff, h.pins, h.fuses, h.regs, h.caps, h.plots, h.chans, h.slices, h.norias, h.dram, h.chk, h.net, h.rr, h.links, h.reqTabs, h.stks, h.sensors, h.coolant, h.parts, h.rings, h.funcs, fun y => absurd (sub_mem hmsk (by simp)) y, h.cfg, h.errs, h.xngs, h.eps, h.groups, h.coll, h.cores, h.caches, h.media, h.sec, h.boot, h.store, h.faults, h.dbg, h.cnts, h.toll, h.wire, h.pending⟩

theorem SameBut.lit_cfg {s : State} {x} (h : SameBut msk s0 s) (hmsk : sub [.cfg] msk = true) :
    SameBut msk s0 (State.mk s.tb s.freeCtr s.reply s.clocksOff s.pins s.fuses s.regs s.caps s.plots s.chans s.slices s.norias s.dram s.chk s.net s.rr s.links s.reqTabs s.stks s.sensors s.coolant s.parts s.rings s.funcs s.lndErr x s.errs s.xngs s.eps s.groups s.coll s.cores s.caches s.media s.sec s.boot s.store s.faults s.dbg s.cnts s.toll s.wire s.pending) :=
  ⟨h.tb, h.freeCtr, h.reply, h.clocksOff, h.pins, h.fuses, h.regs, h.caps, h.plots, h.chans, h.slices, h.norias, h.dram, h.chk, h.net, h.rr, h.links, h.reqTabs, h.stks, h.sensors, h.coolant, h.parts, h.rings, h.funcs, h.lndErr, fun y => absurd (sub_mem hmsk (by simp)) y, h.errs, h.xngs, h.eps, h.groups, h.coll, h.cores, h.caches, h.media, h.sec, h.boot, h.store, h.faults, h.dbg, h.cnts, h.toll, h.wire, h.pending⟩

theorem SameBut.lit_errs {s : State} {x} (h : SameBut msk s0 s) (hmsk : sub [.errs] msk = true) :
    SameBut msk s0 (State.mk s.tb s.freeCtr s.reply s.clocksOff s.pins s.fuses s.regs s.caps s.plots s.chans s.slices s.norias s.dram s.chk s.net s.rr s.links s.reqTabs s.stks s.sensors s.coolant s.parts s.rings s.funcs s.lndErr s.cfg x s.xngs s.eps s.groups s.coll s.cores s.caches s.media s.sec s.boot s.store s.faults s.dbg s.cnts s.toll s.wire s.pending) :=
  ⟨h.tb, h.freeCtr, h.reply, h.clocksOff, h.pins, h.fuses, h.regs, h.caps, h.plots, h.chans, h.slices, h.norias, h.dram, h.chk, h.net, h.rr, h.links, h.reqTabs, h.stks, h.sensors, h.coolant, h.parts, h.rings, h.funcs, h.lndErr, h.cfg, fun y => absurd (sub_mem hmsk (by simp)) y, h.xngs, h.eps, h.groups, h.coll, h.cores, h.caches, h.media, h.sec, h.boot, h.store, h.faults, h.dbg, h.cnts, h.toll, h.wire, h.pending⟩

theorem SameBut.lit_xngs {s : State} {x} (h : SameBut msk s0 s) (hmsk : sub [.xngs] msk = true) :
    SameBut msk s0 (State.mk s.tb s.freeCtr s.reply s.clocksOff s.pins s.fuses s.regs s.caps s.plots s.chans s.slices s.norias s.dram s.chk s.net s.rr s.links s.reqTabs s.stks s.sensors s.coolant s.parts s.rings s.funcs s.lndErr s.cfg s.errs x s.eps s.groups s.coll s.cores s.caches s.media s.sec s.boot s.store s.faults s.dbg s.cnts s.toll s.wire s.pending) :=
  ⟨h.tb, h.freeCtr, h.reply, h.clocksOff, h.pins, h.fuses, h.regs, h.caps, h.plots, h.chans, h.slices, h.norias, h.dram, h.chk, h.net, h.rr, h.links, h.reqTabs, h.stks, h.sensors, h.coolant, h.parts, h.rings, h.funcs, h.lndErr, h.cfg, h.errs, fun y => absurd (sub_mem hmsk (by simp)) y, h.eps, h.groups, h.coll, h.cores, h.caches, h.media, h.sec, h.boot, h.store, h.faults, h.dbg, h.cnts, h.toll, h.wire, h.pending⟩

theorem SameBut.lit_eps {s : State} {x} (h : SameBut msk s0 s) (hmsk : sub [.eps] msk = true) :
    SameBut msk s0 (State.mk s.tb s.freeCtr s.reply s.clocksOff s.pins s.fuses s.regs s.caps s.plots s.chans s.slices s.norias s.dram s.chk s.net s.rr s.links s.reqTabs s.stks s.sensors s.coolant s.parts s.rings s.funcs s.lndErr s.cfg s.errs s.xngs x s.groups s.coll s.cores s.caches s.media s.sec s.boot s.store s.faults s.dbg s.cnts s.toll s.wire s.pending) :=
  ⟨h.tb, h.freeCtr, h.reply, h.clocksOff, h.pins, h.fuses, h.regs, h.caps, h.plots, h.chans, h.slices, h.norias, h.dram, h.chk, h.net, h.rr, h.links, h.reqTabs, h.stks, h.sensors, h.coolant, h.parts, h.rings, h.funcs, h.lndErr, h.cfg, h.errs, h.xngs, fun y => absurd (sub_mem hmsk (by simp)) y, h.groups, h.coll, h.cores, h.caches, h.media, h.sec, h.boot, h.store, h.faults, h.dbg, h.cnts, h.toll, h.wire, h.pending⟩

theorem SameBut.lit_groups {s : State} {x} (h : SameBut msk s0 s) (hmsk : sub [.groups] msk = true) :
    SameBut msk s0 (State.mk s.tb s.freeCtr s.reply s.clocksOff s.pins s.fuses s.regs s.caps s.plots s.chans s.slices s.norias s.dram s.chk s.net s.rr s.links s.reqTabs s.stks s.sensors s.coolant s.parts s.rings s.funcs s.lndErr s.cfg s.errs s.xngs s.eps x s.coll s.cores s.caches s.media s.sec s.boot s.store s.faults s.dbg s.cnts s.toll s.wire s.pending) :=
  ⟨h.tb, h.freeCtr, h.reply, h.clocksOff, h.pins, h.fuses, h.regs, h.caps, h.plots, h.chans, h.slices, h.norias, h.dram, h.chk, h.net, h.rr, h.links, h.reqTabs, h.stks, h.sensors, h.coolant, h.parts, h.rings, h.funcs, h.lndErr, h.cfg, h.errs, h.xngs, h.eps, fun y => absurd (sub_mem hmsk (by simp)) y, h.coll, h.cores, h.caches, h.media, h.sec, h.boot, h.store, h.faults, h.dbg, h.cnts, h.toll, h.wire, h.pending⟩

theorem SameBut.lit_coll {s : State} {x} (h : SameBut msk s0 s) (hmsk : sub [.coll] msk = true) :
    SameBut msk s0 (State.mk s.tb s.freeCtr s.reply s.clocksOff s.pins s.fuses s.regs s.caps s.plots s.chans s.slices s.norias s.dram s.chk s.net s.rr s.links s.reqTabs s.stks s.sensors s.coolant s.parts s.rings s.funcs s.lndErr s.cfg s.errs s.xngs s.eps s.groups x s.cores s.caches s.media s.sec s.boot s.store s.faults s.dbg s.cnts s.toll s.wire s.pending) :=
  ⟨h.tb, h.freeCtr, h.reply, h.clocksOff, h.pins, h.fuses, h.regs, h.caps, h.plots, h.chans, h.slices, h.norias, h.dram, h.chk, h.net, h.rr, h.links, h.reqTabs, h.stks, h.sensors, h.coolant, h.parts, h.rings, h.funcs, h.lndErr, h.cfg, h.errs, h.xngs, h.eps, h.groups, fun y => absurd (sub_mem hmsk (by simp)) y, h.cores, h.caches, h.media, h.sec, h.boot, h.store, h.faults, h.dbg, h.cnts, h.toll, h.wire, h.pending⟩

theorem SameBut.lit_cores {s : State} {x} (h : SameBut msk s0 s) (hmsk : sub [.cores] msk = true) :
    SameBut msk s0 (State.mk s.tb s.freeCtr s.reply s.clocksOff s.pins s.fuses s.regs s.caps s.plots s.chans s.slices s.norias s.dram s.chk s.net s.rr s.links s.reqTabs s.stks s.sensors s.coolant s.parts s.rings s.funcs s.lndErr s.cfg s.errs s.xngs s.eps s.groups s.coll x s.caches s.media s.sec s.boot s.store s.faults s.dbg s.cnts s.toll s.wire s.pending) :=
  ⟨h.tb, h.freeCtr, h.reply, h.clocksOff, h.pins, h.fuses, h.regs, h.caps, h.plots, h.chans, h.slices, h.norias, h.dram, h.chk, h.net, h.rr, h.links, h.reqTabs, h.stks, h.sensors, h.coolant, h.parts, h.rings, h.funcs, h.lndErr, h.cfg, h.errs, h.xngs, h.eps, h.groups, h.coll, fun y => absurd (sub_mem hmsk (by simp)) y, h.caches, h.media, h.sec, h.boot, h.store, h.faults, h.dbg, h.cnts, h.toll, h.wire, h.pending⟩

theorem SameBut.lit_caches {s : State} {x} (h : SameBut msk s0 s) (hmsk : sub [.caches] msk = true) :
    SameBut msk s0 (State.mk s.tb s.freeCtr s.reply s.clocksOff s.pins s.fuses s.regs s.caps s.plots s.chans s.slices s.norias s.dram s.chk s.net s.rr s.links s.reqTabs s.stks s.sensors s.coolant s.parts s.rings s.funcs s.lndErr s.cfg s.errs s.xngs s.eps s.groups s.coll s.cores x s.media s.sec s.boot s.store s.faults s.dbg s.cnts s.toll s.wire s.pending) :=
  ⟨h.tb, h.freeCtr, h.reply, h.clocksOff, h.pins, h.fuses, h.regs, h.caps, h.plots, h.chans, h.slices, h.norias, h.dram, h.chk, h.net, h.rr, h.links, h.reqTabs, h.stks, h.sensors, h.coolant, h.parts, h.rings, h.funcs, h.lndErr, h.cfg, h.errs, h.xngs, h.eps, h.groups, h.coll, h.cores, fun y => absurd (sub_mem hmsk (by simp)) y, h.media, h.sec, h.boot, h.store, h.faults, h.dbg, h.cnts, h.toll, h.wire, h.pending⟩

theorem SameBut.lit_media {s : State} {x} (h : SameBut msk s0 s) (hmsk : sub [.media] msk = true) :
    SameBut msk s0 (State.mk s.tb s.freeCtr s.reply s.clocksOff s.pins s.fuses s.regs s.caps s.plots s.chans s.slices s.norias s.dram s.chk s.net s.rr s.links s.reqTabs s.stks s.sensors s.coolant s.parts s.rings s.funcs s.lndErr s.cfg s.errs s.xngs s.eps s.groups s.coll s.cores s.caches x s.sec s.boot s.store s.faults s.dbg s.cnts s.toll s.wire s.pending) :=
  ⟨h.tb, h.freeCtr, h.reply, h.clocksOff, h.pins, h.fuses, h.regs, h.caps, h.plots, h.chans, h.slices, h.norias, h.dram, h.chk, h.net, h.rr, h.links, h.reqTabs, h.stks, h.sensors, h.coolant, h.parts, h.rings, h.funcs, h.lndErr, h.cfg, h.errs, h.xngs, h.eps, h.groups, h.coll, h.cores, h.caches, fun y => absurd (sub_mem hmsk (by simp)) y, h.sec, h.boot, h.store, h.faults, h.dbg, h.cnts, h.toll, h.wire, h.pending⟩

theorem SameBut.lit_sec {s : State} {x} (h : SameBut msk s0 s) (hmsk : sub [.sec] msk = true) :
    SameBut msk s0 (State.mk s.tb s.freeCtr s.reply s.clocksOff s.pins s.fuses s.regs s.caps s.plots s.chans s.slices s.norias s.dram s.chk s.net s.rr s.links s.reqTabs s.stks s.sensors s.coolant s.parts s.rings s.funcs s.lndErr s.cfg s.errs s.xngs s.eps s.groups s.coll s.cores s.caches s.media x s.boot s.store s.faults s.dbg s.cnts s.toll s.wire s.pending) :=
  ⟨h.tb, h.freeCtr, h.reply, h.clocksOff, h.pins, h.fuses, h.regs, h.caps, h.plots, h.chans, h.slices, h.norias, h.dram, h.chk, h.net, h.rr, h.links, h.reqTabs, h.stks, h.sensors, h.coolant, h.parts, h.rings, h.funcs, h.lndErr, h.cfg, h.errs, h.xngs, h.eps, h.groups, h.coll, h.cores, h.caches, h.media, fun y => absurd (sub_mem hmsk (by simp)) y, h.boot, h.store, h.faults, h.dbg, h.cnts, h.toll, h.wire, h.pending⟩

theorem SameBut.lit_boot {s : State} {x} (h : SameBut msk s0 s) (hmsk : sub [.boot] msk = true) :
    SameBut msk s0 (State.mk s.tb s.freeCtr s.reply s.clocksOff s.pins s.fuses s.regs s.caps s.plots s.chans s.slices s.norias s.dram s.chk s.net s.rr s.links s.reqTabs s.stks s.sensors s.coolant s.parts s.rings s.funcs s.lndErr s.cfg s.errs s.xngs s.eps s.groups s.coll s.cores s.caches s.media s.sec x s.store s.faults s.dbg s.cnts s.toll s.wire s.pending) :=
  ⟨h.tb, h.freeCtr, h.reply, h.clocksOff, h.pins, h.fuses, h.regs, h.caps, h.plots, h.chans, h.slices, h.norias, h.dram, h.chk, h.net, h.rr, h.links, h.reqTabs, h.stks, h.sensors, h.coolant, h.parts, h.rings, h.funcs, h.lndErr, h.cfg, h.errs, h.xngs, h.eps, h.groups, h.coll, h.cores, h.caches, h.media, h.sec, fun y => absurd (sub_mem hmsk (by simp)) y, h.store, h.faults, h.dbg, h.cnts, h.toll, h.wire, h.pending⟩

theorem SameBut.lit_store {s : State} {x} (h : SameBut msk s0 s) (hmsk : sub [.store] msk = true) :
    SameBut msk s0 (State.mk s.tb s.freeCtr s.reply s.clocksOff s.pins s.fuses s.regs s.caps s.plots s.chans s.slices s.norias s.dram s.chk s.net s.rr s.links s.reqTabs s.stks s.sensors s.coolant s.parts s.rings s.funcs s.lndErr s.cfg s.errs s.xngs s.eps s.groups s.coll s.cores s.caches s.media s.sec s.boot x s.faults s.dbg s.cnts s.toll s.wire s.pending) :=
  ⟨h.tb, h.freeCtr, h.reply, h.clocksOff, h.pins, h.fuses, h.regs, h.caps, h.plots, h.chans, h.slices, h.norias, h.dram, h.chk, h.net, h.rr, h.links, h.reqTabs, h.stks, h.sensors, h.coolant, h.parts, h.rings, h.funcs, h.lndErr, h.cfg, h.errs, h.xngs, h.eps, h.groups, h.coll, h.cores, h.caches, h.media, h.sec, h.boot, fun y => absurd (sub_mem hmsk (by simp)) y, h.faults, h.dbg, h.cnts, h.toll, h.wire, h.pending⟩

theorem SameBut.lit_faults {s : State} {x} (h : SameBut msk s0 s) (hmsk : sub [.faults] msk = true) :
    SameBut msk s0 (State.mk s.tb s.freeCtr s.reply s.clocksOff s.pins s.fuses s.regs s.caps s.plots s.chans s.slices s.norias s.dram s.chk s.net s.rr s.links s.reqTabs s.stks s.sensors s.coolant s.parts s.rings s.funcs s.lndErr s.cfg s.errs s.xngs s.eps s.groups s.coll s.cores s.caches s.media s.sec s.boot s.store x s.dbg s.cnts s.toll s.wire s.pending) :=
  ⟨h.tb, h.freeCtr, h.reply, h.clocksOff, h.pins, h.fuses, h.regs, h.caps, h.plots, h.chans, h.slices, h.norias, h.dram, h.chk, h.net, h.rr, h.links, h.reqTabs, h.stks, h.sensors, h.coolant, h.parts, h.rings, h.funcs, h.lndErr, h.cfg, h.errs, h.xngs, h.eps, h.groups, h.coll, h.cores, h.caches, h.media, h.sec, h.boot, h.store, fun y => absurd (sub_mem hmsk (by simp)) y, h.dbg, h.cnts, h.toll, h.wire, h.pending⟩

theorem SameBut.lit_dbg {s : State} {x} (h : SameBut msk s0 s) (hmsk : sub [.dbg] msk = true) :
    SameBut msk s0 (State.mk s.tb s.freeCtr s.reply s.clocksOff s.pins s.fuses s.regs s.caps s.plots s.chans s.slices s.norias s.dram s.chk s.net s.rr s.links s.reqTabs s.stks s.sensors s.coolant s.parts s.rings s.funcs s.lndErr s.cfg s.errs s.xngs s.eps s.groups s.coll s.cores s.caches s.media s.sec s.boot s.store s.faults x s.cnts s.toll s.wire s.pending) :=
  ⟨h.tb, h.freeCtr, h.reply, h.clocksOff, h.pins, h.fuses, h.regs, h.caps, h.plots, h.chans, h.slices, h.norias, h.dram, h.chk, h.net, h.rr, h.links, h.reqTabs, h.stks, h.sensors, h.coolant, h.parts, h.rings, h.funcs, h.lndErr, h.cfg, h.errs, h.xngs, h.eps, h.groups, h.coll, h.cores, h.caches, h.media, h.sec, h.boot, h.store, h.faults, fun y => absurd (sub_mem hmsk (by simp)) y, h.cnts, h.toll, h.wire, h.pending⟩

theorem SameBut.lit_cnts {s : State} {x} (h : SameBut msk s0 s) (hmsk : sub [.cnts] msk = true) :
    SameBut msk s0 (State.mk s.tb s.freeCtr s.reply s.clocksOff s.pins s.fuses s.regs s.caps s.plots s.chans s.slices s.norias s.dram s.chk s.net s.rr s.links s.reqTabs s.stks s.sensors s.coolant s.parts s.rings s.funcs s.lndErr s.cfg s.errs s.xngs s.eps s.groups s.coll s.cores s.caches s.media s.sec s.boot s.store s.faults s.dbg x s.toll s.wire s.pending) :=
  ⟨h.tb, h.freeCtr, h.reply, h.clocksOff, h.pins, h.fuses, h.regs, h.caps, h.plots, h.chans, h.slices, h.norias, h.dram, h.chk, h.net, h.rr, h.links, h.reqTabs, h.stks, h.sensors, h.coolant, h.parts, h.rings, h.funcs, h.lndErr, h.cfg, h.errs, h.xngs, h.eps, h.groups, h.coll, h.cores, h.caches, h.media, h.sec, h.boot, h.store, h.faults, h.dbg, fun y => absurd (sub_mem hmsk (by simp)) y, h.toll, h.wire, h.pending⟩

theorem SameBut.lit_toll {s : State} {x} (h : SameBut msk s0 s) (hmsk : sub [.toll] msk = true) :
    SameBut msk s0 (State.mk s.tb s.freeCtr s.reply s.clocksOff s.pins s.fuses s.regs s.caps s.plots s.chans s.slices s.norias s.dram s.chk s.net s.rr s.links s.reqTabs s.stks s.sensors s.coolant s.parts s.rings s.funcs s.lndErr s.cfg s.errs s.xngs s.eps s.groups s.coll s.cores s.caches s.media s.sec s.boot s.store s.faults s.dbg s.cnts x s.wire s.pending) :=
  ⟨h.tb, h.freeCtr, h.reply, h.clocksOff, h.pins, h.fuses, h.regs, h.caps, h.plots, h.chans, h.slices, h.norias, h.dram, h.chk, h.net, h.rr, h.links, h.reqTabs, h.stks, h.sensors, h.coolant, h.parts, h.rings, h.funcs, h.lndErr, h.cfg, h.errs, h.xngs, h.eps, h.groups, h.coll, h.cores, h.caches, h.media, h.sec, h.boot, h.store, h.faults, h.dbg, h.cnts, fun y => absurd (sub_mem hmsk (by simp)) y, h.wire, h.pending⟩

theorem SameBut.lit_wire {s : State} {x} (h : SameBut msk s0 s) (hmsk : sub [.wire] msk = true) :
    SameBut msk s0 (State.mk s.tb s.freeCtr s.reply s.clocksOff s.pins s.fuses s.regs s.caps s.plots s.chans s.slices s.norias s.dram s.chk s.net s.rr s.links s.reqTabs s.stks s.sensors s.coolant s.parts s.rings s.funcs s.lndErr s.cfg s.errs s.xngs s.eps s.groups s.coll s.cores s.caches s.media s.sec s.boot s.store s.faults s.dbg s.cnts s.toll x s.pending) :=
  ⟨h.tb, h.freeCtr, h.reply, h.clocksOff, h.pins, h.fuses, h.regs, h.caps, h.plots, h.chans, h.slices, h.norias, h.dram, h.chk, h.net, h.rr, h.links, h.reqTabs, h.stks, h.sensors, h.coolant, h.parts, h.rings, h.funcs, h.lndErr, h.cfg, h.errs, h.xngs, h.eps, h.groups, h.coll, h.cores, h.caches, h.media, h.sec, h.boot, h.store, h.faults, h.dbg, h.cnts, h.toll, fun y => absurd (sub_mem hmsk (by simp)) y, h.pending⟩

theorem SameBut.lit_pending {s : State} {x} (h : SameBut msk s0 s) (hmsk : sub [.pending] msk = true) :
    SameBut msk s0 (State.mk s.tb s.freeCtr s.reply s.clocksOff s.pins s.fuses s.regs s.caps s.plots s.chans s.slices s.norias s.dram s.chk s.net s.rr s.links s.reqTabs s.stks s.sensors s.coolant s.parts s.rings s.funcs s.lndErr s.cfg s.errs s.xngs s.eps s.groups s.coll s.cores s.caches s.media s.sec s.boot s.store s.faults s.dbg s.cnts s.toll s.wire x) :=
  ⟨h.tb, h.freeCtr, h.reply, h.clocksOff, h.pins, h.fuses, h.regs, h.caps, h.plots, h.chans, h.slices, h.norias, h.dram, h.chk, h.net, h.rr, h.links, h.reqTabs, h.stks, h.sensors, h.coolant, h.parts, h.rings, h.funcs, h.lndErr, h.cfg, h.errs, h.xngs, h.eps, h.groups, h.coll, h.cores, h.caches, h.media, h.sec, h.boot, h.store, h.faults, h.dbg, h.cnts, h.toll, h.wire, fun y => absurd (sub_mem hmsk (by simp)) y⟩

theorem SameBut.foldlBy {α β : Type} (p : β → State) {f : β → α → β} {l : List α} {x : β} (h : SameBut msk s0 (p x))
    (hf : ∀ u a, SameBut msk s0 (p u) → SameBut msk s0 (p (f u a))) : SameBut msk s0 (p (l.foldl f x)) := by
  induction l generalizing x with
  | nil => exact h
  | cons a l ih => exact ih (hf _ _ h)

theorem SameBut.foldl {α : Type} {f : State → α → State} {l : List α} {s : State} (h : SameBut msk s0 s)
    (hf : ∀ u a, SameBut msk s0 u → SameBut msk s0 (f u a)) : SameBut msk s0 (l.foldl f s) := SameBut.foldlBy id h hf

theorem SameBut.foldl1 {α β : Type} {f : State × β → α → State × β} {l : List α} {x : State × β} (h : SameBut msk s0 x.1)
    (hf : ∀ u a, SameBut msk s0 u.1 → SameBut msk s0 (f u a).1) : SameBut msk s0 (l.foldl f x).1 := SameBut.foldlBy Prod.fst h hf

theorem SameBut.forAll {α : Type} {f : State → α → State} {l : List α} {s : State} (h : SameBut msk s0 s)
    (hf : ∀ u a, SameBut msk s0 u → SameBut msk s0 (f u a)) : SameBut msk s0 (forAll l s f) := h.foldl hf

theorem SameBut.foldlDev {α : Type} {f : DevRes → α → DevRes} {l : List α} {x : DevRes} (h : SameBut msk s0 x.st)
    (hf : ∀ u a, SameBut msk s0 u.st → SameBut msk s0 (f u a).st) : SameBut msk s0 (l.foldl f x).st := SameBut.foldlBy DevRes.st h hf

theorem SameBut.foldlMv {α : Type} {f : Moved → α → Moved} {l : List α} {x : Moved} (h : SameBut msk s0 x.st)
    (hf : ∀ u a, SameBut msk s0 u.st → SameBut msk s0 (f u a).st) : SameBut msk s0 (l.foldl f x).st := SameBut.foldlBy Moved.st h hf

theorem SameBut.foldlDn {α β : Type} {f : DevRes × β → α → DevRes × β} {l : List α} {x : DevRes × β} (h : SameBut msk s0 x.1.st)
    (hf : ∀ u a, SameBut msk s0 u.1.st → SameBut msk s0 (f u a).1.st) : SameBut msk s0 (l.foldl f x).1.st :=
  SameBut.foldlBy (fun u : DevRes × β => u.1.st) h hf

/-- The outcome is a next state that differs in the named fields at most. -/
def OutSame (msk : List Fld) (s : State) (o : Out) : Prop := ∃ t, o = .next t ∧ SameBut msk s t

theorem OutSame.next {t : State} (h : SameBut msk s0 t) : OutSame msk s0 (.next t) := ⟨t, rfl, h⟩

/-! ### Ops -/

theorem State.setChan_same {msk : List Fld} {s0 : State} {s : State} (k : _) (x : _) (hs : SameBut msk s0 s)
    (hmsk : sub [.chans] msk = true) :
    SameBut msk s0 (State.setChan s k x) := by
  unfold State.setChan; try dsimp only
  repeat' first
    | with_reducible first
      | assumption | exact sub_trans hmsk rfl
    | intro _
    | split
    | with_reducible apply SameBut.lit_chans
    | dsimp only

theorem State.updChan_same {msk : List Fld} {s0 : State} {s : State} (k : _) (f : _) (hs : SameBut msk s0 s)
    (hmsk : sub [.chans] msk = true) :
    SameBut msk s0 (State.updChan s k f) := by
  unfold State.updChan; try dsimp only
  repeat' first
    | with_reducible first
      | assumption | exact sub_trans hmsk rfl | apply State.setChan_same
    | intro _
    | split
    | dsimp only

theorem State.setPlot_same {msk : List Fld} {s0 : State} {s : State} (k : _) (x : _) (hs : SameBut msk s0 s)
    (hmsk : sub [.plots] msk = true) :
    SameBut msk s0 (State.setPlot s k x) := by
  unfold State.setPlot; try dsimp only
  repeat' first
    | with_reducible first
      | assumption | exact sub_trans hmsk rfl
    | intro _
    | split
    | with_reducible apply SameBut.lit_plots
    | dsimp only

theorem State.updPlot_same {msk : List Fld} {s0 : State} {s : State} (k : _) (f : _) (hs : SameBut msk s0 s)
    (hmsk : sub [.plots] msk = true) :
    SameBut msk s0 (State.updPlot s k f) := by
  unfold State.updPlot; try dsimp only
  repeat' first
    | with_reducible first
      | assumption | exact sub_trans hmsk rfl | apply State.setPlot_same
    | intro _
    | split
    | dsimp only

theorem State.setSlc_same {msk : List Fld} {s0 : State} {s : State} (k : _) (x : _) (hs : SameBut msk s0 s)
    (hmsk : sub [.slices] msk = true) :
    SameBut msk s0 (State.setSlc s k x) := by
  unfold State.setSlc; try dsimp only
  repeat' first
    | with_reducible first
      | assumption | exact sub_trans hmsk rfl
    | intro _
    | split
    | with_reducible apply SameBut.lit_slices
    | dsimp only

theorem State.updSlc_same {msk : List Fld} {s0 : State} {s : State} (k : _) (f : _) (hs : SameBut msk s0 s)
    (hmsk : sub [.slices] msk = true) :
    SameBut msk s0 (State.updSlc s k f) := by
  unfold State.updSlc; try dsimp only
  repeat' first
    | with_reducible first
      | assumption | exact sub_trans hmsk rfl | apply State.setSlc_same
    | intro _
    | split
    | dsimp only

theorem State.setNor_same {msk : List Fld} {s0 : State} {s : State} (k : _) (x : _) (hs : SameBut msk s0 s)
    (hmsk : sub [.norias] msk = true) :
    SameBut msk s0 (State.setNor s k x) := by
  unfold State.setNor; try dsimp only
  repeat' first
    | with_reducible first
      | assumption | exact sub_trans hmsk rfl
    | intro _
    | split
    | with_reducible apply SameBut.lit_norias
    | dsimp only

theorem State.updNor_same {msk : List Fld} {s0 : State} {s : State} (k : _) (f : _) (hs : SameBut msk s0 s)
    (hmsk : sub [.norias] msk = true) :
    SameBut msk s0 (State.updNor s k f) := by
  unfold State.updNor; try dsimp only
  repeat' first
    | with_reducible first
      | assumption | exact sub_trans hmsk rfl | apply State.setNor_same
    | intro _
    | split
    | dsimp only

theorem State.setLink_same {msk : List Fld} {s0 : State} {s : State} (k : _) (x : _) (hs : SameBut msk s0 s)
    (hmsk : sub [.links] msk = true) :
    SameBut msk s0 (State.setLink s k x) := by
  unfold State.setLink; try dsimp only
  repeat' first
    | with_reducible first
      | assumption | exact sub_trans hmsk rfl
    | intro _
    | split
    | with_reducible apply SameBut.lit_links
    | dsimp only

theorem State.updLink_same {msk : List Fld} {s0 : State} {s : State} (k : _) (f : _) (hs : SameBut msk s0 s)
    (hmsk : sub [.links] msk = true) :
    SameBut msk s0 (State.updLink s k f) := by
  unfold State.updLink; try dsimp only
  repeat' first
    | with_reducible first
      | assumption | exact sub_trans hmsk rfl | apply State.setLink_same
    | intro _
    | split
    | dsimp only

theorem State.setStk_same {msk : List Fld} {s0 : State} {s : State} (k : _) (x : _) (hs : SameBut msk s0 s)
    (hmsk : sub [.stks] msk = true) :
    SameBut msk s0 (State.setStk s k x) := by
  unfold State.setStk; try dsimp only
  repeat' first
    | with_reducible first
      | assumption | exact sub_trans hmsk rfl
    | intro _
    | split
    | with_reducible apply SameBut.lit_stks
    | dsimp only

theorem State.updStk_same {msk : List Fld} {s0 : State} {s : State} (k : _) (f : _) (hs : SameBut msk s0 s)
    (hmsk : sub [.stks] msk = true) :
    SameBut msk s0 (State.updStk s k f) := by
  unfold State.updStk; try dsimp only
  repeat' first
    | with_reducible first
      | assumption | exact sub_trans hmsk rfl | apply State.setStk_same
    | intro _
    | split
    | dsimp only

theorem State.setSensor_same {msk : List Fld} {s0 : State} {s : State} (k : _) (x : _) (hs : SameBut msk s0 s)
    (hmsk : sub [.sensors] msk = true) :
    SameBut msk s0 (State.setSensor s k x) := by
  unfold State.setSensor; try dsimp only
  repeat' first
    | with_reducible first
      | assumption | exact sub_trans hmsk rfl
    | intro _
    | split
    | with_reducible apply SameBut.lit_sensors
    | dsimp only

theorem State.updSensor_same {msk : List Fld} {s0 : State} {s : State} (k : _) (f : _) (hs : SameBut msk s0 s)
    (hmsk : sub [.sensors] msk = true) :
    SameBut msk s0 (State.updSensor s k f) := by
  unfold State.updSensor; try dsimp only
  repeat' first
    | with_reducible first
      | assumption | exact sub_trans hmsk rfl | apply State.setSensor_same
    | intro _
    | split
    | dsimp only

theorem State.setPart_same {msk : List Fld} {s0 : State} {s : State} (k : _) (x : _) (hs : SameBut msk s0 s)
    (hmsk : sub [.parts] msk = true) :
    SameBut msk s0 (State.setPart s k x) := by
  unfold State.setPart; try dsimp only
  repeat' first
    | with_reducible first
      | assumption | exact sub_trans hmsk rfl
    | intro _
    | split
    | with_reducible apply SameBut.lit_parts
    | dsimp only

theorem State.updPart_same {msk : List Fld} {s0 : State} {s : State} (k : _) (f : _) (hs : SameBut msk s0 s)
    (hmsk : sub [.parts] msk = true) :
    SameBut msk s0 (State.updPart s k f) := by
  unfold State.updPart; try dsimp only
  repeat' first
    | with_reducible first
      | assumption | exact sub_trans hmsk rfl | apply State.setPart_same
    | intro _
    | split
    | dsimp only

theorem State.setRing_same {msk : List Fld} {s0 : State} {s : State} (k : _) (x : _) (hs : SameBut msk s0 s)
    (hmsk : sub [.rings] msk = true) :
    SameBut msk s0 (State.setRing s k x) := by
  unfold State.setRing; try dsimp only
  repeat' first
    | with_reducible first
      | assumption | exact sub_trans hmsk rfl
    | intro _
    | split
    | with_reducible apply SameBut.lit_rings
    | dsimp only

theorem State.updRing_same {msk : List Fld} {s0 : State} {s : State} (k : _) (f : _) (hs : SameBut msk s0 s)
    (hmsk : sub [.rings] msk = true) :
    SameBut msk s0 (State.updRing s k f) := by
  unfold State.updRing; try dsimp only
  repeat' first
    | with_reducible first
      | assumption | exact sub_trans hmsk rfl | apply State.setRing_same
    | intro _
    | split
    | dsimp only

theorem State.setFunc_same {msk : List Fld} {s0 : State} {s : State} (k : _) (x : _) (hs : SameBut msk s0 s)
    (hmsk : sub [.funcs] msk = true) :
    SameBut msk s0 (State.setFunc s k x) := by
  unfold State.setFunc; try dsimp only
  repeat' first
    | with_reducible first
      | assumption | exact sub_trans hmsk rfl
    | intro _
    | split
    | with_reducible apply SameBut.lit_funcs
    | dsimp only

theorem State.updFunc_same {msk : List Fld} {s0 : State} {s : State} (k : _) (f : _) (hs : SameBut msk s0 s)
    (hmsk : sub [.funcs] msk = true) :
    SameBut msk s0 (State.updFunc s k f) := by
  unfold State.updFunc; try dsimp only
  repeat' first
    | with_reducible first
      | assumption | exact sub_trans hmsk rfl | apply State.setFunc_same
    | intro _
    | split
    | dsimp only

theorem State.setErrf_same {msk : List Fld} {s0 : State} {s : State} (k : _) (x : _) (hs : SameBut msk s0 s)
    (hmsk : sub [.errs] msk = true) :
    SameBut msk s0 (State.setErrf s k x) := by
  unfold State.setErrf; try dsimp only
  repeat' first
    | with_reducible first
      | assumption | exact sub_trans hmsk rfl
    | intro _
    | split
    | with_reducible apply SameBut.lit_errs
    | dsimp only

theorem State.updErrf_same {msk : List Fld} {s0 : State} {s : State} (k : _) (f : _) (hs : SameBut msk s0 s)
    (hmsk : sub [.errs] msk = true) :
    SameBut msk s0 (State.updErrf s k f) := by
  unfold State.updErrf; try dsimp only
  repeat' first
    | with_reducible first
      | assumption | exact sub_trans hmsk rfl | apply State.setErrf_same
    | intro _
    | split
    | dsimp only

theorem State.setXng_same {msk : List Fld} {s0 : State} {s : State} (k : _) (x : _) (hs : SameBut msk s0 s)
    (hmsk : sub [.xngs] msk = true) :
    SameBut msk s0 (State.setXng s k x) := by
  unfold State.setXng; try dsimp only
  repeat' first
    | with_reducible first
      | assumption | exact sub_trans hmsk rfl
    | intro _
    | split
    | with_reducible apply SameBut.lit_xngs
    | dsimp only

theorem State.updXng_same {msk : List Fld} {s0 : State} {s : State} (k : _) (f : _) (hs : SameBut msk s0 s)
    (hmsk : sub [.xngs] msk = true) :
    SameBut msk s0 (State.updXng s k f) := by
  unfold State.updXng; try dsimp only
  repeat' first
    | with_reducible first
      | assumption | exact sub_trans hmsk rfl | apply State.setXng_same
    | intro _
    | split
    | dsimp only

theorem State.setEp_same {msk : List Fld} {s0 : State} {s : State} (k : _) (x : _) (hs : SameBut msk s0 s)
    (hmsk : sub [.eps] msk = true) :
    SameBut msk s0 (State.setEp s k x) := by
  unfold State.setEp; try dsimp only
  repeat' first
    | with_reducible first
      | assumption | exact sub_trans hmsk rfl
    | intro _
    | split
    | with_reducible apply SameBut.lit_eps
    | dsimp only

theorem State.updEp_same {msk : List Fld} {s0 : State} {s : State} (k : _) (f : _) (hs : SameBut msk s0 s)
    (hmsk : sub [.eps] msk = true) :
    SameBut msk s0 (State.updEp s k f) := by
  unfold State.updEp; try dsimp only
  repeat' first
    | with_reducible first
      | assumption | exact sub_trans hmsk rfl | apply State.setEp_same
    | intro _
    | split
    | dsimp only

theorem State.setGrp_same {msk : List Fld} {s0 : State} {s : State} (k : _) (x : _) (hs : SameBut msk s0 s)
    (hmsk : sub [.groups] msk = true) :
    SameBut msk s0 (State.setGrp s k x) := by
  unfold State.setGrp; try dsimp only
  repeat' first
    | with_reducible first
      | assumption | exact sub_trans hmsk rfl
    | intro _
    | split
    | with_reducible apply SameBut.lit_groups
    | dsimp only

theorem State.updGrp_same {msk : List Fld} {s0 : State} {s : State} (k : _) (f : _) (hs : SameBut msk s0 s)
    (hmsk : sub [.groups] msk = true) :
    SameBut msk s0 (State.updGrp s k f) := by
  unfold State.updGrp; try dsimp only
  repeat' first
    | with_reducible first
      | assumption | exact sub_trans hmsk rfl | apply State.setGrp_same
    | intro _
    | split
    | dsimp only

theorem State.setCore_same {msk : List Fld} {s0 : State} {s : State} (k : _) (x : _) (hs : SameBut msk s0 s)
    (hmsk : sub [.cores] msk = true) :
    SameBut msk s0 (State.setCore s k x) := by
  unfold State.setCore; try dsimp only
  repeat' first
    | with_reducible first
      | assumption | exact sub_trans hmsk rfl
    | intro _
    | split
    | with_reducible apply SameBut.lit_cores
    | dsimp only

theorem State.updCore_same {msk : List Fld} {s0 : State} {s : State} (k : _) (f : _) (hs : SameBut msk s0 s)
    (hmsk : sub [.cores] msk = true) :
    SameBut msk s0 (State.updCore s k f) := by
  unfold State.updCore; try dsimp only
  repeat' first
    | with_reducible first
      | assumption | exact sub_trans hmsk rfl | apply State.setCore_same
    | intro _
    | split
    | dsimp only

theorem State.setMed_same {msk : List Fld} {s0 : State} {s : State} (k : _) (x : _) (hs : SameBut msk s0 s)
    (hmsk : sub [.media] msk = true) :
    SameBut msk s0 (State.setMed s k x) := by
  unfold State.setMed; try dsimp only
  repeat' first
    | with_reducible first
      | assumption | exact sub_trans hmsk rfl
    | intro _
    | split
    | with_reducible apply SameBut.lit_media
    | dsimp only

theorem State.updMed_same {msk : List Fld} {s0 : State} {s : State} (k : _) (f : _) (hs : SameBut msk s0 s)
    (hmsk : sub [.media] msk = true) :
    SameBut msk s0 (State.updMed s k f) := by
  unfold State.updMed; try dsimp only
  repeat' first
    | with_reducible first
      | assumption | exact sub_trans hmsk rfl | apply State.setMed_same
    | intro _
    | split
    | dsimp only

theorem State.setCnt_same {msk : List Fld} {s0 : State} {s : State} (k : _) (x : _) (hs : SameBut msk s0 s)
    (hmsk : sub [.cnts] msk = true) :
    SameBut msk s0 (State.setCnt s k x) := by
  unfold State.setCnt; try dsimp only
  repeat' first
    | with_reducible first
      | assumption | exact sub_trans hmsk rfl
    | intro _
    | split
    | with_reducible apply SameBut.lit_cnts
    | dsimp only

theorem State.updCnt_same {msk : List Fld} {s0 : State} {s : State} (k : _) (f : _) (hs : SameBut msk s0 s)
    (hmsk : sub [.cnts] msk = true) :
    SameBut msk s0 (State.updCnt s k f) := by
  unfold State.updCnt; try dsimp only
  repeat' first
    | with_reducible first
      | assumption | exact sub_trans hmsk rfl | apply State.setCnt_same
    | intro _
    | split
    | dsimp only

theorem State.setReqTab_same {msk : List Fld} {s0 : State} {s : State} (k : _) (x : _) (hs : SameBut msk s0 s)
    (hmsk : sub [.reqTabs] msk = true) :
    SameBut msk s0 (State.setReqTab s k x) := by
  unfold State.setReqTab; try dsimp only
  repeat' first
    | with_reducible first
      | assumption | exact sub_trans hmsk rfl
    | intro _
    | split
    | with_reducible apply SameBut.lit_reqTabs
    | dsimp only

theorem State.updReqTab_same {msk : List Fld} {s0 : State} {s : State} (k : _) (f : _) (hs : SameBut msk s0 s)
    (hmsk : sub [.reqTabs] msk = true) :
    SameBut msk s0 (State.updReqTab s k f) := by
  unfold State.updReqTab; try dsimp only
  repeat' first
    | with_reducible first
      | assumption | exact sub_trans hmsk rfl | apply State.setReqTab_same
    | intro _
    | split
    | dsimp only

theorem State.setReg_same {msk : List Fld} {s0 : State} {s : State} (a : _) (w : _) (hs : SameBut msk s0 s)
    (hmsk : sub [.regs] msk = true) :
    SameBut msk s0 (State.setReg s a w) := by
  unfold State.setReg; try dsimp only
  repeat' first
    | with_reducible first
      | assumption | exact sub_trans hmsk rfl
    | intro _
    | split
    | with_reducible apply SameBut.lit_regs
    | dsimp only

theorem State.setFld_same {msk : List Fld} {s0 : State} {s : State} (a : _) (lo : _) (w : _) (x : _) (hs : SameBut msk s0 s)
    (hmsk : sub [.regs] msk = true) :
    SameBut msk s0 (State.setFld s a lo w x) := by
  unfold State.setFld; try dsimp only
  repeat' first
    | with_reducible first
      | assumption | exact sub_trans hmsk rfl | apply State.setReg_same
    | intro _
    | split
    | dsimp only

theorem State.setBit_same {msk : List Fld} {s0 : State} {s : State} (a : _) (i : _) (hs : SameBut msk s0 s)
    (hmsk : sub [.regs] msk = true) :
    SameBut msk s0 (State.setBit s a i) := by
  unfold State.setBit; try dsimp only
  repeat' first
    | with_reducible first
      | assumption | exact sub_trans hmsk rfl | apply State.setFld_same
    | intro _
    | split
    | dsimp only

theorem State.clrBit_same {msk : List Fld} {s0 : State} {s : State} (a : _) (i : _) (hs : SameBut msk s0 s)
    (hmsk : sub [.regs] msk = true) :
    SameBut msk s0 (State.clrBit s a i) := by
  unfold State.clrBit; try dsimp only
  repeat' first
    | with_reducible first
      | assumption | exact sub_trans hmsk rfl | apply State.setFld_same
    | intro _
    | split
    | dsimp only

theorem State.addFld_same {msk : List Fld} {s0 : State} {s : State} (a : _) (lo : _) (w : _) (n : _) (hs : SameBut msk s0 s)
    (hmsk : sub [.regs] msk = true) :
    SameBut msk s0 (State.addFld s a lo w n) := by
  unfold State.addFld; try dsimp only
  repeat' first
    | with_reducible first
      | assumption | exact sub_trans hmsk rfl | apply State.setFld_same
    | intro _
    | split
    | dsimp only

theorem State.irq_same {msk : List Fld} {s0 : State} {s : State} (a : _) (i : _) (hs : SameBut msk s0 s)
    (hmsk : sub [.regs] msk = true) :
    SameBut msk s0 (State.irq s a i) := by
  unfold State.irq; try dsimp only
  repeat' first
    | with_reducible first
      | assumption | exact sub_trans hmsk rfl | apply State.setBit_same
    | intro _
    | split
    | dsimp only

theorem State.pageErr_same {msk : List Fld} {s0 : State} {s : State} (a : _) (addr : _) (hs : SameBut msk s0 s)
    (hmsk : sub [.regs] msk = true) :
    SameBut msk s0 (State.pageErr s a addr) := by
  unfold State.pageErr; try dsimp only
  repeat' first
    | with_reducible first
      | assumption | exact sub_trans hmsk rfl | apply State.addFld_same | apply State.setReg_same
    | intro _
    | split
    | dsimp only

theorem State.resetPage_same {msk : List Fld} {s0 : State} {s : State} (a : _) (hs : SameBut msk s0 s)
    (hmsk : sub [.regs, .caps] msk = true) :
    SameBut msk s0 (State.resetPage s a) := by
  unfold State.resetPage; try dsimp only
  repeat' first
    | with_reducible first
      | assumption | exact sub_trans hmsk rfl
    | intro _
    | split
    | with_reducible (apply SameBut.lit <;> first | exact Or.inl rfl | exact Or.inr (sub_trans hmsk rfl) | skip)
    | dsimp only

theorem State.drawn_same {msk : List Fld} {s0 : State} {s : State} (hs : SameBut msk s0 s)
    (hmsk : sub [.freeCtr] msk = true) :
    SameBut msk s0 (State.drawn s) := by
  unfold State.drawn; try dsimp only
  repeat' first
    | with_reducible first
      | assumption | exact sub_trans hmsk rfl
    | intro _
    | split
    | with_reducible apply SameBut.lit_freeCtr
    | dsimp only

theorem State.send_same {msk : List Fld} {s0 : State} {s : State} (m : _) (hs : SameBut msk s0 s)
    (hmsk : sub [.wire] msk = true) :
    SameBut msk s0 (State.send s m) := by
  unfold State.send; try dsimp only
  repeat' first
    | with_reducible first
      | assumption | exact sub_trans hmsk rfl
    | intro _
    | split
    | with_reducible apply SameBut.lit_wire
    | dsimp only

theorem State.inject_same {msk : List Fld} {s0 : State} {s : State} (cls : _) (src : _) (dst : _) (m : _) (hs : SameBut msk s0 s)
    (hmsk : sub [.net] msk = true) :
    SameBut msk s0 (State.inject s cls src dst m) := by
  unfold State.inject; try dsimp only
  repeat' first
    | with_reducible first
      | assumption | exact sub_trans hmsk rfl
    | intro _
    | split
    | with_reducible apply SameBut.lit_net
    | dsimp only

theorem State.noteItem_same {msk : List Fld} {s0 : State} {s : State} (u : _) (i : _) (hs : SameBut msk s0 s)
    (hmsk : sub [.dbg] msk = true) :
    SameBut msk s0 (State.noteItem s u i) := by
  unfold State.noteItem; try dsimp only
  repeat' first
    | with_reducible first
      | assumption | exact sub_trans hmsk rfl
    | intro _
    | split
    | with_reducible apply SameBut.lit_dbg
    | dsimp only

theorem State.holdMsg_same {msk : List Fld} {s0 : State} {s : State} (cls : _) (src : _) (dst : _) (m : _) (hs : SameBut msk s0 s)
    (hmsk : sub [.net, .dbg] msk = true) :
    SameBut msk s0 (State.holdMsg s cls src dst m) := by
  unfold State.holdMsg; try dsimp only
  repeat' first
    | with_reducible first
      | assumption | exact sub_trans hmsk rfl | apply State.noteItem_same
    | intro _
    | split
    | with_reducible apply SameBut.lit_net
    | dsimp only

theorem State.arrived_same {msk : List Fld} {s0 : State} {s : State} (m : _) (hs : SameBut msk s0 s)
    (hmsk : sub [.net] msk = true) :
    SameBut msk s0 (State.arrived s m) := by
  unfold State.arrived; try dsimp only
  repeat' first
    | with_reducible first
      | assumption | exact sub_trans hmsk rfl
    | intro _
    | split
    | with_reducible apply SameBut.lit_net
    | dsimp only

theorem State.count_same {msk : List Fld} {s0 : State} {s : State} (k : _) (i : _) (n : _) (hs : SameBut msk s0 s)
    (hmsk : sub [.regs, .cnts] msk = true) :
    SameBut msk s0 (State.count s k i n) := by
  unfold State.count; try dsimp only
  repeat' first
    | with_reducible first
      | assumption | exact sub_trans hmsk rfl | apply State.setBit_same | apply State.setCnt_same
    | intro _
    | split
    | dsimp only

theorem State.countChan_same {msk : List Fld} {s0 : State} {s : State} (k : _) (i : _) (n : _) (hs : SameBut msk s0 s)
    (hmsk : sub [.regs, .cnts] msk = true) :
    SameBut msk s0 (State.countChan s k i n) := by
  unfold State.countChan; try dsimp only
  repeat' first
    | with_reducible first
      | assumption | exact sub_trans hmsk rfl | apply State.count_same
    | intro _
    | split
    | dsimp only

theorem State.cntSwitch_same {msk : List Fld} {s0 : State} {s : State} (k : _) (boundary : _) (tag : _) (hs : SameBut msk s0 s)
    (hmsk : sub [.cnts] msk = true) :
    SameBut msk s0 (State.cntSwitch s k boundary tag) := by
  unfold State.cntSwitch; try dsimp only
  repeat' first
    | with_reducible first
      | assumption | exact sub_trans hmsk rfl | apply State.updCnt_same
    | intro _
    | split
    | dsimp only

theorem State.routeIrq_same {msk : List Fld} {s0 : State} {s : State} (n : _) (hs : SameBut msk s0 s)
    (hmsk : sub [.cores] msk = true) :
    SameBut msk s0 (State.routeIrq s n) := by
  unfold State.routeIrq; try dsimp only
  repeat' first
    | with_reducible first
      | assumption | exact sub_trans hmsk rfl | apply State.updCore_same
    | intro _
    | split
    | dsimp only

theorem State.msix_same {msk : List Fld} {s0 : State} {s : State} (f : _) (vec : _) (hs : SameBut msk s0 s)
    (hmsk : sub [.cores, .wire] msk = true) :
    SameBut msk s0 (State.msix s f vec) := by
  unfold State.msix; try dsimp only
  repeat' first
    | with_reducible first
      | assumption | exact sub_trans hmsk rfl | apply State.routeIrq_same | apply State.send_same
    | intro _
    | split
    | dsimp only

theorem State.pushRpt_same {msk : List Fld} {s0 : State} {s : State} (f : _) (r : _) (hs : SameBut msk s0 s)
    (hmsk : sub [.regs, .errs, .cores, .wire] msk = true) :
    SameBut msk s0 (State.pushRpt s f r) := by
  unfold State.pushRpt; try dsimp only
  repeat' first
    | with_reducible first
      | assumption | exact sub_trans hmsk rfl | apply State.addFld_same | apply State.msix_same
      | apply State.setErrf_same
    | intro _
    | split
    | dsimp only

theorem State.report_same {msk : List Fld} {s0 : State} {s : State} (own : _) (code : _) (sev : _) (die : _) (plot : _) (addr : _) (hs : SameBut msk s0 s)
    (hmsk : sub [.regs, .errs, .cores, .wire] msk = true) :
    SameBut msk s0 (State.report s own code sev die plot addr) := by
  unfold State.report; try dsimp only
  repeat' first
    | with_reducible first
      | assumption | exact sub_trans hmsk rfl | apply State.pushRpt_same
    | intro _
    | split
    | dsimp only

theorem State.alert_same {msk : List Fld} {s0 : State} {s : State} (i : _) (hs : SameBut msk s0 s)
    (hmsk : sub [.regs, .cores, .cnts, .wire] msk = true) :
    SameBut msk s0 (State.alert s i) := by
  unfold State.alert; try dsimp only
  repeat' first
    | with_reducible first
      | assumption | exact sub_trans hmsk rfl | apply State.count_same | apply State.msix_same
      | apply State.setBit_same
    | intro _
    | split
    | dsimp only

theorem State.regErr_same {msk : List Fld} {s0 : State} {s : State} (addr : _) (cause : _) (r : _) (hs : SameBut msk s0 s)
    (hmsk : sub [.regs, .cnts] msk = true) :
    SameBut msk s0 (State.regErr s addr cause r) := by
  unfold State.regErr; try dsimp only
  repeat' first
    | with_reducible first
      | assumption | exact sub_trans hmsk rfl | apply State.count_same | apply State.setReg_same
    | intro _
    | split
    | dsimp only

theorem State.hartStepped_same {msk : List Fld} {s0 : State} {s : State} (x1 : _) (hs : SameBut msk s0 s)
    (hmsk : sub [.dbg] msk = true) :
    SameBut msk s0 (State.hartStepped s x1) := by
  unfold State.hartStepped; try dsimp only
  repeat' first
    | with_reducible first
      | assumption | exact sub_trans hmsk rfl
    | intro _
    | split
    | with_reducible apply SameBut.lit_dbg
    | dsimp only

theorem State.coreTrap_same {msk : List Fld} {s0 : State} {s : State} (n : _) (cause : _) (tval : _) (hs : SameBut msk s0 s)
    (hmsk : sub [.cores, .dbg] msk = true) :
    SameBut msk s0 (State.coreTrap s n cause tval) := by
  unfold State.coreTrap; try dsimp only
  repeat' first
    | with_reducible first
      | assumption | exact sub_trans hmsk rfl | apply State.hartStepped_same | apply State.updCore_same
    | intro _
    | split
    | dsimp only

theorem State.accessFault_same {msk : List Fld} {s0 : State} {s : State} (r : _) (rd : _) (a : _) (hs : SameBut msk s0 s)
    (hmsk : sub [.cores, .dbg] msk = true) :
    SameBut msk s0 (State.accessFault s r rd a) := by
  unfold State.accessFault; try dsimp only
  repeat' first
    | with_reducible first
      | assumption | exact sub_trans hmsk rfl | apply State.coreTrap_same
    | intro _
    | split
    | dsimp only

theorem State.reqStepped_same {msk : List Fld} {s0 : State} {s : State} (r : _) (hs : SameBut msk s0 s)
    (hmsk : sub [.dbg] msk = true) :
    SameBut msk s0 (State.reqStepped s r) := by
  unfold State.reqStepped; try dsimp only
  repeat' first
    | with_reducible first
      | assumption | exact sub_trans hmsk rfl | apply State.hartStepped_same
    | intro _
    | split
    | dsimp only

theorem State.access_same {s : State} (r : Req) (a : Nat) (k : State → State) (hs : SameBut msk s0 s)
    (hk : ∀ u, SameBut msk s0 u → SameBut msk s0 (k u))
    (hmsk : sub [.regs, .cores, .dbg, .cnts] msk = true) : SameBut msk s0 (s.access r a k) := by
  have h1 := State.reqStepped_same r hs (sub_trans hmsk rfl)
  unfold State.access
  generalize reach s r false a = o
  cases o
  · exact hk _ h1
  · exact hs
  · exact hs
  · exact State.regErr_same _ _ r h1 (sub_trans hmsk rfl)
  · exact State.accessFault_same r _ a hs (sub_trans hmsk rfl)

theorem State.answer_same {msk : List Fld} {s0 : State} {s : State} (data : _) (hs : SameBut msk s0 s)
    (hmsk : sub [.reply] msk = true) :
    SameBut msk s0 (State.answer s data) := by
  unfold State.answer; try dsimp only
  repeat' first
    | with_reducible first
      | assumption | exact sub_trans hmsk rfl
    | intro _
    | split
    | with_reducible apply SameBut.lit_reply
    | dsimp only

theorem State.readAccess_same {s : State} (r : Req) (a : Nat) (k : State → State) (n : Nat) (hs : SameBut msk s0 s)
    (hk : ∀ u, SameBut msk s0 u → SameBut msk s0 (k u))
    (hmsk : sub [.freeCtr, .reply, .regs, .cores, .dbg, .cnts] msk = true) : SameBut msk s0 (s.readAccess r a k n) := by
  have h1 := State.reqStepped_same r hs (sub_trans hmsk rfl)
  unfold State.readAccess
  generalize reach s r true a = o
  cases o
  · exact hk _ h1
  · dsimp only; split
    · exact State.answer_same _ hs (sub_trans hmsk rfl)
    · exact hs
  · exact SameBut.lit_reply (State.drawn_same h1 (sub_trans hmsk rfl)) (sub_trans hmsk rfl)
  · exact State.answer_same _ (State.regErr_same _ _ r h1 (sub_trans hmsk rfl)) (sub_trans hmsk rfl)
  · exact State.accessFault_same r _ a hs (sub_trans hmsk rfl)

theorem State.capture_same {msk : List Fld} {s0 : State} {s : State} (a : _) (w : _) (hs : SameBut msk s0 s)
    (hmsk : sub [.caps] msk = true) :
    SameBut msk s0 (State.capture s a w) := by
  unfold State.capture; try dsimp only
  repeat' first
    | with_reducible first
      | assumption | exact sub_trans hmsk rfl
    | intro _
    | split
    | with_reducible apply SameBut.lit_caps
    | dsimp only

/-! ### PlotOps -/

theorem State.ctrAdd_same {msk : List Fld} {s0 : State} {s : State} (k : _) (n : _) (amt : _) (hs : SameBut msk s0 s)
    (hmsk : sub [.regs] msk = true) :
    SameBut msk s0 (State.ctrAdd s k n amt) := by
  unfold State.ctrAdd; try dsimp only
  repeat' first
    | with_reducible first
      | assumption | exact sub_trans hmsk rfl | apply State.irq_same | apply State.setBit_same
      | apply State.setFld_same
    | intro _
    | split
    | dsimp only

theorem State.tokArrive_same {msk : List Fld} {s0 : State} {s : State} (k : _) (n : _) (amt : _) (hs : SameBut msk s0 s)
    (hmsk : sub [.regs, .dbg] msk = true) :
    SameBut msk s0 (State.tokArrive s k n amt) := by
  unfold State.tokArrive; try dsimp only
  repeat' first
    | with_reducible first
      | assumption | exact sub_trans hmsk rfl | apply State.ctrAdd_same
    | intro _
    | split
    | with_reducible apply SameBut.lit_dbg
    | dsimp only

theorem State.waitTake_same {msk : List Fld} {s0 : State} {s : State} (k : _) (y : _) (hs : SameBut msk s0 s)
    (hmsk : sub [.regs] msk = true) :
    SameBut msk s0 (State.waitTake s k y) := by
  unfold State.waitTake; try dsimp only
  repeat' first
    | with_reducible first
      | assumption | exact sub_trans hmsk rfl | apply State.setFld_same
    | intro _
    | split
    | dsimp only

theorem State.updQueue_same {msk : List Fld} {s0 : State} {s : State} (k : _) (q : _) (f : _) (hs : SameBut msk s0 s)
    (hmsk : sub [.plots] msk = true) :
    SameBut msk s0 (State.updQueue s k q f) := by
  unfold State.updQueue; try dsimp only
  repeat' first
    | with_reducible first
      | assumption | exact sub_trans hmsk rfl | apply State.updPlot_same
    | intro _
    | split
    | dsimp only

theorem State.wpMatch_same {msk : List Fld} {s0 : State} {s : State} (k : _) (q : _) (tag : _) (n : _) (hs : SameBut msk s0 s)
    (hmsk : sub [.regs, .dbg] msk = true) :
    SameBut msk s0 (State.wpMatch s k q tag n) := by
  unfold State.wpMatch; try dsimp only
  repeat' first
    | with_reducible first
      | assumption | exact sub_trans hmsk rfl | apply State.addFld_same | apply State.clrBit_same
      | apply State.setBit_same | apply State.setReg_same
    | intro _
    | split
    | with_reducible apply SameBut.lit_dbg
    | dsimp only

theorem State.wpMatches_same {msk : List Fld} {s0 : State} {s : State} (k : _) (q : _) (tag : _) (hs : SameBut msk s0 s)
    (hmsk : sub [.regs, .dbg] msk = true) :
    SameBut msk s0 (State.wpMatches s k q tag) := by
  unfold State.wpMatches; try dsimp only
  repeat' first
    | with_reducible first
      | assumption | exact sub_trans hmsk rfl | apply SameBut.foldl | apply SameBut.foldl1
      | apply SameBut.foldlDev | apply SameBut.foldlMv | apply SameBut.foldlDn | apply State.wpMatch_same
    | intro _
    | split
    | dsimp only

theorem State.record_same {msk : List Fld} {s0 : State} {s : State} (k : _) (r : _) (hs : SameBut msk s0 s)
    (hmsk : sub [.regs, .plots] msk = true) :
    SameBut msk s0 (State.record s k r) := by
  unfold State.record; try dsimp only
  repeat' first
    | with_reducible first
      | assumption | exact sub_trans hmsk rfl | apply State.irq_same | apply State.setPlot_same
      | apply State.updQueue_same
    | intro _
    | split
    | dsimp only

theorem State.plotToken_same {msk : List Fld} {s0 : State} {s : State} (k : _) (dst : _) (m : _) (hs : SameBut msk s0 s)
    (hmsk : sub [.regs, .net, .cnts] msk = true) :
    SameBut msk s0 (State.plotToken s k dst m) := by
  unfold State.plotToken; try dsimp only
  repeat' first
    | with_reducible first
      | assumption | exact sub_trans hmsk rfl | apply State.count_same | apply State.inject_same
      | apply State.irq_same
    | intro _
    | split
    | dsimp only

theorem State.signal_same {msk : List Fld} {s0 : State} {s : State} (k : _) (y : _) (g : _) (hs : SameBut msk s0 s)
    (hmsk : sub [.regs, .plots, .net, .cnts] msk = true) :
    SameBut msk s0 (State.signal s k y g) := by
  unfold State.signal; try dsimp only
  repeat' first
    | with_reducible first
      | assumption | exact sub_trans hmsk rfl | apply State.plotToken_same | apply State.updPlot_same
    | intro _
    | split
    | dsimp only

theorem State.runPoison_same {msk : List Fld} {s0 : State} {s : State} (k : _) (hs : SameBut msk s0 s)
    (hmsk : sub [.parts] msk = true) :
    SameBut msk s0 (State.runPoison s k) := by
  unfold State.runPoison; try dsimp only
  repeat' first
    | with_reducible first
      | assumption | exact sub_trans hmsk rfl | apply State.updPart_same
    | intro _
    | split
    | dsimp only

theorem State.complete_same {msk : List Fld} {s0 : State} {s : State} (k : _) (q : _) (d : _) (status : _) (hs : SameBut msk s0 s)
    (hmsk : sub [.regs, .plots, .net, .parts, .dbg, .cnts] msk = true) :
    SameBut msk s0 (State.complete s k q d status) := by
  unfold State.complete; try dsimp only
  repeat' first
    | with_reducible first
      | assumption | exact sub_trans hmsk rfl | apply State.record_same | apply State.runPoison_same
      | apply State.signal_same | apply State.wpMatches_same
    | intro _
    | split
    | dsimp only

theorem State.rejectHold_same {msk : List Fld} {s0 : State} {s : State} (k : _) (q : _) (d : _) (status : _) (hs : SameBut msk s0 s)
    (hmsk : sub [.regs, .plots] msk = true) :
    SameBut msk s0 (State.rejectHold s k q d status) := by
  unfold State.rejectHold; try dsimp only
  repeat' first
    | with_reducible first
      | assumption | exact sub_trans hmsk rfl | apply State.irq_same | apply State.record_same
      | apply State.updQueue_same
    | intro _
    | split
    | dsimp only

theorem State.releaseHeld_same {msk : List Fld} {s0 : State} {s : State} (k : _) (hs : SameBut msk s0 s)
    (hmsk : sub [.regs, .plots] msk = true) :
    SameBut msk s0 (State.releaseHeld s k) := by
  unfold State.releaseHeld; try dsimp only
  repeat' first
    | with_reducible first
      | assumption | exact sub_trans hmsk rfl | apply SameBut.foldl | apply SameBut.foldl1
      | apply SameBut.foldlDev | apply SameBut.foldlMv | apply SameBut.foldlDn | apply State.record_same
      | apply State.updQueue_same
    | intro _
    | split
    | dsimp only

theorem State.abortEntries_same {msk : List Fld} {s0 : State} {s : State} (k : _) (q : _) (hs : SameBut msk s0 s)
    (hmsk : sub [.regs, .plots, .net, .parts, .dbg, .cnts] msk = true) :
    SameBut msk s0 (State.abortEntries s k q) := by
  unfold State.abortEntries; try dsimp only
  repeat' first
    | with_reducible first
      | assumption | exact sub_trans hmsk rfl | apply SameBut.foldl | apply SameBut.foldl1
      | apply SameBut.foldlDev | apply SameBut.foldlMv | apply SameBut.foldlDn | apply State.complete_same
      | apply State.updQueue_same
    | intro _
    | split
    | dsimp only

theorem State.rhErr_same {msk : List Fld} {s0 : State} {s : State} (k : _) (code : _) (info : _) (hi : _) (hs : SameBut msk s0 s)
    (hmsk : sub [.regs, .cnts] msk = true) :
    SameBut msk s0 (State.rhErr s k code info hi) := by
  unfold State.rhErr; try dsimp only
  repeat' first
    | with_reducible first
      | assumption | exact sub_trans hmsk rfl | apply State.addFld_same | apply State.count_same
      | apply State.setReg_same
    | intro _
    | split
    | dsimp only

/-! ### Array -/

theorem State.updArr_same {msk : List Fld} {s0 : State} {s : State} (k : _) (f : _) (hs : SameBut msk s0 s)
    (hmsk : sub [.plots] msk = true) :
    SameBut msk s0 (State.updArr s k f) := by
  unfold State.updArr; try dsimp only
  repeat' first
    | with_reducible first
      | assumption | exact sub_trans hmsk rfl | apply State.updPlot_same
    | intro _
    | split
    | dsimp only

theorem State.arrNow_same {msk : List Fld} {s0 : State} {s : State} (k : _) (t : _) (hs : SameBut msk s0 s)
    (hmsk : sub [.plots] msk = true) :
    SameBut msk s0 (State.arrNow s k t) := by
  unfold State.arrNow; try dsimp only
  repeat' first
    | with_reducible first
      | assumption | exact sub_trans hmsk rfl | apply State.updArr_same
    | intro _
    | split
    | dsimp only

theorem lookahead_same {msk : List Fld} {s0 : State} {s : State} (k : _) (t : _) (hs : SameBut msk s0 s)
    (hmsk : sub [.regs, .plots] msk = true) :
    SameBut msk s0 (lookahead s k t) := by
  unfold lookahead; try dsimp only
  repeat' first
    | with_reducible first
      | assumption | exact sub_trans hmsk rfl | apply State.arrNow_same | apply State.rejectHold_same
      | apply State.updPlot_same
    | intro _
    | split
    | dsimp only

theorem execLookaheadEntry_same {msk : List Fld} {s0 : State} (p : _) (t : _) {s : State} (hs : SameBut msk s0 s)
    (hmsk : sub [.regs, .plots] msk = true) :
    OutSame msk s0 (execLookaheadEntry p t s) := by
  unfold execLookaheadEntry; try dsimp only
  repeat' first
    | with_reducible first
      | assumption | exact sub_trans hmsk rfl | apply OutSame.next | apply lookahead_same
    | intro _
    | split
    | dsimp only

theorem startLoad_same {msk : List Fld} {s0 : State} {s : State} (k : _) (t : _) (bore : _) (hs : SameBut msk s0 s)
    (hmsk : sub [.plots] msk = true) :
    SameBut msk s0 (startLoad s k t bore) := by
  unfold startLoad; try dsimp only
  repeat' first
    | with_reducible first
      | assumption | exact sub_trans hmsk rfl | apply State.updPlot_same
    | intro _
    | split
    | dsimp only

theorem execBoreStart_same {msk : List Fld} {s0 : State} (p : _) (t : _) {s : State} (hs : SameBut msk s0 s)
    (hmsk : sub [.plots] msk = true) :
    OutSame msk s0 (execBoreStart p t s) := by
  unfold execBoreStart; try dsimp only
  repeat' first
    | with_reducible first
      | assumption | exact sub_trans hmsk rfl | apply OutSame.next | apply startLoad_same
    | intro _
    | split
    | dsimp only

theorem boreDone_same {msk : List Fld} {s0 : State} {s : State} (k : _) (t : _) (hs : SameBut msk s0 s)
    (hmsk : sub [.plots] msk = true) :
    SameBut msk s0 (boreDone s k t) := by
  unfold boreDone; try dsimp only
  repeat' first
    | with_reducible first
      | assumption | exact sub_trans hmsk rfl | apply State.updArr_same
    | intro _
    | split
    | dsimp only

theorem execBoreEntryDone_same {msk : List Fld} {s0 : State} (p : _) (t : _) {s : State} (hs : SameBut msk s0 s)
    (hmsk : sub [.plots] msk = true) :
    OutSame msk s0 (execBoreEntryDone p t s) := by
  unfold execBoreEntryDone; try dsimp only
  repeat' first
    | with_reducible first
      | assumption | exact sub_trans hmsk rfl | apply OutSame.next | apply boreDone_same
    | intro _
    | split
    | dsimp only

theorem execShadowLoadStart_same {msk : List Fld} {s0 : State} (p : _) (t : _) {s : State} (hs : SameBut msk s0 s)
    (hmsk : sub [.plots] msk = true) :
    OutSame msk s0 (execShadowLoadStart p t s) := by
  unfold execShadowLoadStart; try dsimp only
  repeat' first
    | with_reducible first
      | assumption | exact sub_trans hmsk rfl | apply OutSame.next | apply startLoad_same
    | intro _
    | split
    | dsimp only

theorem shadowDone_same {msk : List Fld} {s0 : State} {s : State} (k : _) (t : _) (hs : SameBut msk s0 s)
    (hmsk : sub [.plots] msk = true) :
    SameBut msk s0 (shadowDone s k t) := by
  unfold shadowDone; try dsimp only
  repeat' first
    | with_reducible first
      | assumption | exact sub_trans hmsk rfl | apply State.updArr_same
    | intro _
    | split
    | dsimp only

theorem execShadowLoaded_same {msk : List Fld} {s0 : State} (p : _) (t : _) {s : State} (hs : SameBut msk s0 s)
    (hmsk : sub [.plots] msk = true) :
    OutSame msk s0 (execShadowLoaded p t s) := by
  unfold execShadowLoaded; try dsimp only
  repeat' first
    | with_reducible first
      | assumption | exact sub_trans hmsk rfl | apply OutSame.next | apply shadowDone_same
    | intro _
    | split
    | dsimp only

theorem sparseReject_same {msk : List Fld} {s0 : State} {s : State} (k : _) (t : _) (hs : SameBut msk s0 s)
    (hmsk : sub [.regs, .plots] msk = true) :
    SameBut msk s0 (sparseReject s k t) := by
  unfold sparseReject; try dsimp only
  repeat' first
    | with_reducible first
      | assumption | exact sub_trans hmsk rfl | apply State.rejectHold_same | apply State.updArr_same
    | intro _
    | split
    | dsimp only

theorem execSparseMetaReject_same {msk : List Fld} {s0 : State} (p : _) (t : _) {s : State} (hs : SameBut msk s0 s)
    (hmsk : sub [.regs, .plots] msk = true) :
    OutSame msk s0 (execSparseMetaReject p t s) := by
  unfold execSparseMetaReject; try dsimp only
  repeat' first
    | with_reducible first
      | assumption | exact sub_trans hmsk rfl | apply OutSame.next | apply sparseReject_same
    | intro _
    | split
    | dsimp only

theorem startPass_same {msk : List Fld} {s0 : State} {s : State} (k : _) (t : _) (hs : SameBut msk s0 s)
    (hmsk : sub [.regs, .plots, .cnts] msk = true) :
    SameBut msk s0 (startPass s k t) := by
  unfold startPass; try dsimp only
  repeat' first
    | with_reducible first
      | assumption | exact sub_trans hmsk rfl | apply State.count_same | apply State.updArr_same
      | apply State.waitTake_same
    | intro _
    | split
    | dsimp only

theorem execPassStart_same {msk : List Fld} {s0 : State} (p : _) (t : _) {s : State} (hs : SameBut msk s0 s)
    (hmsk : sub [.regs, .plots, .cnts] msk = true) :
    OutSame msk s0 (execPassStart p t s) := by
  unfold execPassStart; try dsimp only
  repeat' first
    | with_reducible first
      | assumption | exact sub_trans hmsk rfl | apply OutSame.next | apply startPass_same
    | intro _
    | split
    | dsimp only

theorem execShadowFree_same {msk : List Fld} {s0 : State} (p : _) (t : _) {s : State} (hs : SameBut msk s0 s)
    (hmsk : sub [.plots] msk = true) :
    OutSame msk s0 (execShadowFree p t s) := by
  unfold execShadowFree; try dsimp only
  repeat' first
    | with_reducible first
      | assumption | exact sub_trans hmsk rfl | apply OutSame.next | apply State.updArr_same
    | intro _
    | split
    | dsimp only

theorem bubble_same {msk : List Fld} {s0 : State} {s : State} (k : _) (t : _) (why : _) (hs : SameBut msk s0 s)
    (hmsk : sub [.regs, .plots, .cnts] msk = true) :
    SameBut msk s0 (bubble s k t why) := by
  unfold bubble; try dsimp only
  repeat' first
    | with_reducible first
      | assumption | exact sub_trans hmsk rfl | apply State.count_same | apply State.updArr_same
    | intro _
    | split
    | dsimp only

theorem issueVec_same {msk : List Fld} {s0 : State} {s : State} (k : _) (t : _) (x : _) (hs : SameBut msk s0 s)
    (hmsk : sub [.freeCtr, .regs, .plots, .stks, .cnts] msk = true) :
    SameBut msk s0 (issueVec s k t x) := by
  unfold issueVec; try dsimp only
  repeat' first
    | with_reducible first
      | assumption | exact sub_trans hmsk rfl | apply State.count_same | apply State.drawn_same
      | apply State.updArr_same | apply State.updStk_same
    | intro _
    | split
    | dsimp only [id]

theorem issueSlot_same {msk : List Fld} {s0 : State} {s : State} (k : _) (t : _) (hs : SameBut msk s0 s)
    (hmsk : sub [.freeCtr, .regs, .plots, .stks, .cnts] msk = true) :
    SameBut msk s0 (issueSlot s k t) := by
  unfold issueSlot; try dsimp only
  repeat' first
    | with_reducible first
      | assumption | exact sub_trans hmsk rfl | apply bubble_same | apply issueVec_same
    | intro _
    | split
    | dsimp only

theorem execVectorIssue_same {msk : List Fld} {s0 : State} (p : _) (t : _) {s : State} (hs : SameBut msk s0 s)
    (hmsk : sub [.freeCtr, .regs, .plots, .stks, .cnts] msk = true) :
    OutSame msk s0 (execVectorIssue p t s) := by
  unfold execVectorIssue; try dsimp only
  repeat' first
    | with_reducible first
      | assumption | exact sub_trans hmsk rfl | apply OutSame.next | apply issueSlot_same
    | intro _
    | split
    | dsimp only

theorem passDone_same {msk : List Fld} {s0 : State} {s : State} (k : _) (seq : _) (hs : SameBut msk s0 s)
    (hmsk : sub [.regs, .plots, .net, .parts, .dbg, .cnts] msk = true) :
    SameBut msk s0 (passDone s k seq) := by
  unfold passDone; try dsimp only
  repeat' first
    | with_reducible first
      | assumption | exact sub_trans hmsk rfl | apply State.complete_same | apply State.updArr_same
    | intro _
    | split
    | dsimp only

theorem rowDone_same {msk : List Fld} {s0 : State} {s : State} (k : _) (seq : _) (bad : _) (hs : SameBut msk s0 s)
    (hmsk : sub [.regs, .plots, .net, .parts, .dbg, .cnts] msk = true) :
    SameBut msk s0 (rowDone s k seq bad) := by
  unfold rowDone; try dsimp only
  repeat' first
    | with_reducible first
      | assumption | exact sub_trans hmsk rfl | apply State.updArr_same | apply passDone_same
    | intro _
    | split
    | dsimp only

theorem State.cvtFlags_same {msk : List Fld} {s0 : State} {s : State} (k : _) (flags : _) (hs : SameBut msk s0 s)
    (hmsk : sub [.regs] msk = true) :
    SameBut msk s0 (State.cvtFlags s k flags) := by
  unfold State.cvtFlags; try dsimp only
  repeat' first
    | with_reducible first
      | assumption | exact sub_trans hmsk rfl | apply State.setReg_same
    | intro _
    | split
    | dsimp only

theorem accWrite_same {msk : List Fld} {s0 : State} {s : State} (k : _) (c : _) (t : _) (hs : SameBut msk s0 s)
    (hmsk : sub [.regs, .plots, .net, .parts, .dbg, .cnts] msk = true) :
    SameBut msk s0 (accWrite s k c t) := by
  unfold accWrite; try dsimp only
  repeat' first
    | with_reducible first
      | assumption | exact sub_trans hmsk rfl | apply State.cvtFlags_same | apply State.updArr_same
      | apply State.updPlot_same | apply rowDone_same
    | intro _
    | split
    | dsimp only

theorem execAccWrite_same {msk : List Fld} {s0 : State} (p : _) (c : _) (t : _) {s : State} (hs : SameBut msk s0 s)
    (hmsk : sub [.regs, .plots, .net, .parts, .dbg, .cnts] msk = true) :
    OutSame msk s0 (execAccWrite p c t s) := by
  unfold execAccWrite; try dsimp only
  repeat' first
    | with_reducible first
      | assumption | exact sub_trans hmsk rfl | apply OutSame.next | apply accWrite_same
    | intro _
    | split
    | dsimp only

theorem drainRow_same {msk : List Fld} {s0 : State} {s : State} (k : _) (t : _) (hs : SameBut msk s0 s)
    (hmsk : sub [.regs, .plots, .net, .parts, .dbg, .cnts] msk = true) :
    SameBut msk s0 (drainRow s k t) := by
  unfold drainRow; try dsimp only
  repeat' first
    | with_reducible first
      | assumption | exact sub_trans hmsk rfl | apply State.cvtFlags_same | apply State.updArr_same
      | apply State.updPlot_same | apply rowDone_same
    | intro _
    | split
    | dsimp only

theorem execDrainRow_same {msk : List Fld} {s0 : State} (p : _) (t : _) {s : State} (hs : SameBut msk s0 s)
    (hmsk : sub [.regs, .plots, .net, .parts, .dbg, .cnts] msk = true) :
    OutSame msk s0 (execDrainRow p t s) := by
  unfold execDrainRow; try dsimp only
  repeat' first
    | with_reducible first
      | assumption | exact sub_trans hmsk rfl | apply OutSame.next | apply drainRow_same
    | intro _
    | split
    | dsimp only

theorem writeArrRng_same {msk : List Fld} {s0 : State} {s : State} (k : _) (v : _) (hs : SameBut msk s0 s)
    (hmsk : sub [.plots] msk = true) :
    SameBut msk s0 (writeArrRng s k v) := by
  unfold writeArrRng; try dsimp only
  repeat' first
    | with_reducible first
      | assumption | exact sub_trans hmsk rfl | apply State.updArr_same
    | intro _
    | split
    | dsimp only

theorem execArrRngHiWrite_same {msk : List Fld} {s0 : State} (r : _) (p : _) (v : _) {s : State} (hs : SameBut msk s0 s)
    (hmsk : sub [.regs, .plots, .cores, .dbg, .cnts] msk = true) :
    OutSame msk s0 (execArrRngHiWrite r p v s) := by
  unfold execArrRngHiWrite; try dsimp only
  repeat' first
    | with_reducible first
      | assumption | exact sub_trans hmsk rfl | apply OutSame.next | apply State.access_same
      | apply writeArrRng_same
    | intro _
    | split
    | dsimp only

theorem execRampDownStart_same {msk : List Fld} {s0 : State} (p : _) (t : _) {s : State} (hs : SameBut msk s0 s)
    (hmsk : sub [.plots] msk = true) :
    OutSame msk s0 (execRampDownStart p t s) := by
  unfold execRampDownStart; try dsimp only
  repeat' first
    | with_reducible first
      | assumption | exact sub_trans hmsk rfl | apply OutSame.next | apply State.updArr_same
    | intro _
    | split
    | dsimp only

theorem execColumnGroupDisable_same {msk : List Fld} {s0 : State} (p : _) (t : _) {s : State} (hs : SameBut msk s0 s)
    (hmsk : sub [.plots] msk = true) :
    OutSame msk s0 (execColumnGroupDisable p t s) := by
  unfold execColumnGroupDisable; try dsimp only
  repeat' first
    | with_reducible first
      | assumption | exact sub_trans hmsk rfl | apply OutSame.next | apply State.updArr_same
    | intro _
    | split
    | dsimp only

theorem execRampUpStart_same {msk : List Fld} {s0 : State} (p : _) (t : _) {s : State} (hs : SameBut msk s0 s)
    (hmsk : sub [.plots] msk = true) :
    OutSame msk s0 (execRampUpStart p t s) := by
  unfold execRampUpStart; try dsimp only
  repeat' first
    | with_reducible first
      | assumption | exact sub_trans hmsk rfl | apply OutSame.next | apply State.updArr_same
    | intro _
    | split
    | dsimp only

theorem execColumnGroupEnable_same {msk : List Fld} {s0 : State} (p : _) (t : _) {s : State} (hs : SameBut msk s0 s)
    (hmsk : sub [.plots] msk = true) :
    OutSame msk s0 (execColumnGroupEnable p t s) := by
  unfold execColumnGroupEnable; try dsimp only
  repeat' first
    | with_reducible first
      | assumption | exact sub_trans hmsk rfl | apply OutSame.next | apply State.updArr_same
    | intro _
    | split
    | dsimp only

theorem execHaltRequest_same {msk : List Fld} {s0 : State} (p : _) (t : _) {s : State} (hs : SameBut msk s0 s)
    (hmsk : sub [.regs, .plots] msk = true) :
    OutSame msk s0 (execHaltRequest p t s) := by
  unfold execHaltRequest; try dsimp only
  repeat' first
    | with_reducible first
      | assumption | exact sub_trans hmsk rfl | apply OutSame.next | apply State.setBit_same
      | apply State.updArr_same
    | intro _
    | split
    | dsimp only

theorem execArrayHalted_same {msk : List Fld} {s0 : State} (p : _) (t : _) {s : State} (hs : SameBut msk s0 s)
    (hmsk : sub [.plots] msk = true) :
    OutSame msk s0 (execArrayHalted p t s) := by
  unfold execArrayHalted; try dsimp only
  repeat' first
    | with_reducible first
      | assumption | exact sub_trans hmsk rfl | apply OutSame.next | apply State.updArr_same
    | intro _
    | split
    | dsimp only

theorem State.resumeArr_same {msk : List Fld} {s0 : State} {s : State} (k : _) (hs : SameBut msk s0 s)
    (hmsk : sub [.regs, .plots] msk = true) :
    SameBut msk s0 (State.resumeArr s k) := by
  unfold State.resumeArr; try dsimp only
  repeat' first
    | with_reducible first
      | assumption | exact sub_trans hmsk rfl | apply State.clrBit_same | apply State.updArr_same
    | intro _
    | split
    | dsimp only

theorem writeArrCfg_same {msk : List Fld} {s0 : State} {s : State} (k : _) (v : _) (hs : SameBut msk s0 s)
    (hmsk : sub [.regs] msk = true) :
    SameBut msk s0 (writeArrCfg s k v) := by
  unfold writeArrCfg; try dsimp only
  repeat' first
    | with_reducible first
      | assumption | exact sub_trans hmsk rfl | apply State.setBit_same | apply State.setFld_same
    | intro _
    | split
    | dsimp only

theorem execArrCfgWrite_same {msk : List Fld} {s0 : State} (r : _) (p : _) (v : _) {s : State} (hs : SameBut msk s0 s)
    (hmsk : sub [.regs, .cores, .dbg, .cnts] msk = true) :
    OutSame msk s0 (execArrCfgWrite r p v s) := by
  unfold execArrCfgWrite; try dsimp only
  repeat' first
    | with_reducible first
      | assumption | exact sub_trans hmsk rfl | apply OutSame.next | apply State.access_same
      | apply writeArrCfg_same
    | intro _
    | split
    | dsimp only

theorem State.clearArr_same {msk : List Fld} {s0 : State} {s : State} (k : _) (hs : SameBut msk s0 s)
    (hmsk : sub [.freeCtr, .plots] msk = true) :
    SameBut msk s0 (State.clearArr s k) := by
  unfold State.clearArr; try dsimp only
  repeat' first
    | with_reducible first
      | assumption | exact sub_trans hmsk rfl | apply SameBut.foldl | apply SameBut.foldl1
      | apply SameBut.foldlDev | apply SameBut.foldlMv | apply SameBut.foldlDn | apply State.drawn_same
      | apply State.updArr_same | apply State.updPlot_same
    | intro _
    | split
    | dsimp only

/-! ### Vector -/

theorem State.vecFlags_same {msk : List Fld} {s0 : State} {s : State} (k : _) (fl : _) (hs : SameBut msk s0 s)
    (hmsk : sub [.regs] msk = true) :
    SameBut msk s0 (State.vecFlags s k fl) := by
  unfold State.vecFlags; try dsimp only
  repeat' first
    | with_reducible first
      | assumption | exact sub_trans hmsk rfl | apply State.irq_same | apply State.setReg_same
    | intro _
    | split
    | dsimp only

theorem vecStart_same {msk : List Fld} {s0 : State} {s : State} (k : _) (hs : SameBut msk s0 s)
    (hmsk : sub [.regs, .plots] msk = true) :
    SameBut msk s0 (vecStart s k) := by
  unfold vecStart; try dsimp only
  repeat' first
    | with_reducible first
      | assumption | exact sub_trans hmsk rfl | apply State.rejectHold_same | apply State.updPlot_same
      | apply State.waitTake_same
    | intro _
    | split
    | dsimp only

theorem execVectorDescStart_same {msk : List Fld} {s0 : State} (p : _) {s : State} (hs : SameBut msk s0 s)
    (hmsk : sub [.regs, .plots] msk = true) :
    OutSame msk s0 (execVectorDescStart p s) := by
  unfold execVectorDescStart; try dsimp only
  repeat' first
    | with_reducible first
      | assumption | exact sub_trans hmsk rfl | apply OutSame.next | apply vecStart_same
    | intro _
    | split
    | dsimp only

theorem vecDone_same {msk : List Fld} {s0 : State} {s : State} (k : _) (hs : SameBut msk s0 s)
    (hmsk : sub [.regs, .plots, .net, .parts, .dbg, .cnts] msk = true) :
    SameBut msk s0 (vecDone s k) := by
  unfold vecDone; try dsimp only
  repeat' first
    | with_reducible first
      | assumption | exact sub_trans hmsk rfl | apply State.complete_same | apply State.updPlot_same
      | apply State.vecFlags_same
    | intro _
    | split
    | dsimp only

theorem execVectorDescComplete_same {msk : List Fld} {s0 : State} (p : _) {s : State} (hs : SameBut msk s0 s)
    (hmsk : sub [.regs, .plots, .net, .parts, .dbg, .cnts] msk = true) :
    OutSame msk s0 (execVectorDescComplete p s) := by
  unfold execVectorDescComplete; try dsimp only
  repeat' first
    | with_reducible first
      | assumption | exact sub_trans hmsk rfl | apply OutSame.next | apply vecDone_same
    | intro _
    | split
    | dsimp only

theorem writeVecRng_same {msk : List Fld} {s0 : State} {s : State} (k : _) (v : _) (hs : SameBut msk s0 s)
    (hmsk : sub [.plots] msk = true) :
    SameBut msk s0 (writeVecRng s k v) := by
  unfold writeVecRng; try dsimp only
  repeat' first
    | with_reducible first
      | assumption | exact sub_trans hmsk rfl | apply State.updPlot_same
    | intro _
    | split
    | dsimp only

theorem execVecRngHiWrite_same {msk : List Fld} {s0 : State} (r : _) (p : _) (v : _) {s : State} (hs : SameBut msk s0 s)
    (hmsk : sub [.regs, .plots, .cores, .dbg, .cnts] msk = true) :
    OutSame msk s0 (execVecRngHiWrite r p v s) := by
  unfold execVecRngHiWrite; try dsimp only
  repeat' first
    | with_reducible first
      | assumption | exact sub_trans hmsk rfl | apply OutSame.next | apply State.access_same
      | apply writeVecRng_same
    | intro _
    | split
    | dsimp only

/-! ### Queue -/

theorem State.enqueue_same {msk : List Fld} {s0 : State} {s : State} (k : _) (q : _) (hs : SameBut msk s0 s)
    (hmsk : sub [.plots] msk = true) :
    SameBut msk s0 (State.enqueue s k q) := by
  unfold State.enqueue; try dsimp only
  repeat' first
    | with_reducible first
      | assumption | exact sub_trans hmsk rfl | apply State.updQueue_same
    | intro _
    | split
    | dsimp only

theorem pushQueue_same {msk : List Fld} {s0 : State} (r : _) (k : _) (q : _) {s : State} (hs : SameBut msk s0 s)
    (hmsk : sub [.regs, .plots] msk = true) :
    SameBut msk s0 (pushQueue r k q s) := by
  unfold pushQueue; try dsimp only
  repeat' first
    | with_reducible first
      | assumption | exact sub_trans hmsk rfl | apply State.enqueue_same | apply State.irq_same
      | apply State.updPlot_same
    | intro _
    | split
    | dsimp only

theorem execPqPush_same {msk : List Fld} {s0 : State} (r : _) (p : _) (q : _) {s : State} (hs : SameBut msk s0 s)
    (hmsk : sub [.regs, .plots, .cores, .dbg, .cnts] msk = true) :
    OutSame msk s0 (execPqPush r p q s) := by
  unfold execPqPush; try dsimp only
  repeat' first
    | with_reducible first
      | assumption | exact sub_trans hmsk rfl | apply OutSame.next | apply State.access_same
      | apply pushQueue_same
    | intro _
    | split
    | dsimp only

theorem stalledPush_same {msk : List Fld} {s0 : State} {s : State} (k : _) (hs : SameBut msk s0 s)
    (hmsk : sub [.regs, .plots] msk = true) :
    SameBut msk s0 (stalledPush s k) := by
  unfold stalledPush; try dsimp only
  repeat' first
    | with_reducible first
      | assumption | exact sub_trans hmsk rfl | apply State.enqueue_same | apply State.irq_same
      | apply State.updPlot_same
    | intro _
    | split
    | dsimp only

theorem execStalledPushAccept_same {msk : List Fld} {s0 : State} (p : _) {s : State} (hs : SameBut msk s0 s)
    (hmsk : sub [.regs, .plots] msk = true) :
    OutSame msk s0 (execStalledPushAccept p s) := by
  unfold execStalledPushAccept; try dsimp only
  repeat' first
    | with_reducible first
      | assumption | exact sub_trans hmsk rfl | apply OutSame.next | apply stalledPush_same
    | intro _
    | split
    | dsimp only

theorem execLocalSignalArrive_same {msk : List Fld} {s0 : State} (p : _) (ctr : _) {s : State} (hs : SameBut msk s0 s)
    (hmsk : sub [.regs, .plots, .dbg] msk = true) :
    OutSame msk s0 (execLocalSignalArrive p ctr s) := by
  unfold execLocalSignalArrive; try dsimp only
  repeat' first
    | with_reducible first
      | assumption | exact sub_trans hmsk rfl | apply OutSame.next | apply State.tokArrive_same
      | apply State.updPlot_same
    | intro _
    | split
    | dsimp only

theorem writeCtr_same {msk : List Fld} {s0 : State} (k : _) (n : _) (v : _) {s : State} (hs : SameBut msk s0 s)
    (hmsk : sub [.regs] msk = true) :
    SameBut msk s0 (writeCtr k n v s) := by
  unfold writeCtr; try dsimp only
  repeat' first
    | with_reducible first
      | assumption | exact sub_trans hmsk rfl | apply State.clrBit_same | apply State.setFld_same
    | intro _
    | split
    | dsimp only

theorem execTokenCounterWrite_same {msk : List Fld} {s0 : State} (r : _) (p : _) (n : _) (v : _) {s : State} (hs : SameBut msk s0 s)
    (hmsk : sub [.regs, .cores, .dbg, .cnts] msk = true) :
    OutSame msk s0 (execTokenCounterWrite r p n v s) := by
  unfold execTokenCounterWrite; try dsimp only
  repeat' first
    | with_reducible first
      | assumption | exact sub_trans hmsk rfl | apply OutSame.next | apply State.access_same | apply writeCtr_same
    | intro _
    | split
    | dsimp only

theorem popCpl_same {msk : List Fld} {s0 : State} (k : _) {s : State} (hs : SameBut msk s0 s)
    (hmsk : sub [.reply, .regs, .caps, .plots] msk = true) :
    SameBut msk s0 (popCpl k s) := by
  unfold popCpl; try dsimp only
  repeat' first
    | with_reducible first
      | assumption | exact sub_trans hmsk rfl | apply State.answer_same | apply State.capture_same
      | apply State.releaseHeld_same | apply State.updPlot_same
    | intro _
    | split
    | dsimp only

theorem execPqCplPop_same {msk : List Fld} {s0 : State} (r : _) (p : _) {s : State} (hs : SameBut msk s0 s)
    (hmsk : sub [.freeCtr, .reply, .regs, .caps, .plots, .cores, .dbg, .cnts] msk = true) :
    OutSame msk s0 (execPqCplPop r p s) := by
  unfold execPqCplPop; try dsimp only
  repeat' first
    | with_reducible first
      | assumption | exact sub_trans hmsk rfl | apply OutSame.next | apply State.readAccess_same
      | apply popCpl_same
    | intro _
    | split
    | dsimp only

theorem State.unhold_same {msk : List Fld} {s0 : State} {s : State} (k : _) (q : _) (hs : SameBut msk s0 s)
    (hmsk : sub [.plots] msk = true) :
    SameBut msk s0 (State.unhold s k q) := by
  unfold State.unhold; try dsimp only
  repeat' first
    | with_reducible first
      | assumption | exact sub_trans hmsk rfl | apply State.updQueue_same
    | intro _
    | split
    | dsimp only

theorem State.dropHeld_same {msk : List Fld} {s0 : State} {s : State} (k : _) (q : _) (hs : SameBut msk s0 s)
    (hmsk : sub [.plots] msk = true) :
    SameBut msk s0 (State.dropHeld s k q) := by
  unfold State.dropHeld; try dsimp only
  repeat' first
    | with_reducible first
      | assumption | exact sub_trans hmsk rfl | apply State.updArr_same | apply State.updQueue_same
    | intro _
    | split
    | dsimp only

theorem skipQueue_same {msk : List Fld} {s0 : State} (k : _) (q : _) {s : State} (hs : SameBut msk s0 s)
    (hmsk : sub [.plots] msk = true) :
    SameBut msk s0 (skipQueue k q s) := by
  unfold skipQueue; try dsimp only
  repeat' first
    | with_reducible first
      | assumption | exact sub_trans hmsk rfl | apply State.dropHeld_same | apply State.unhold_same
    | intro _
    | split
    | dsimp only

theorem execPqSkip_same {msk : List Fld} {s0 : State} (r : _) (p : _) (q : _) {s : State} (hs : SameBut msk s0 s)
    (hmsk : sub [.regs, .plots, .cores, .dbg, .cnts] msk = true) :
    OutSame msk s0 (execPqSkip r p q s) := by
  unfold execPqSkip; try dsimp only
  repeat' first
    | with_reducible first
      | assumption | exact sub_trans hmsk rfl | apply OutSame.next | apply State.access_same
      | apply skipQueue_same
    | intro _
    | split
    | dsimp only

theorem State.abortLane_same {msk : List Fld} {s0 : State} {s : State} (k : _) (hs : SameBut msk s0 s)
    (hmsk : sub [.regs, .plots, .net, .parts, .dbg, .cnts] msk = true) :
    SameBut msk s0 (State.abortLane s k) := by
  unfold State.abortLane; try dsimp only
  repeat' first
    | with_reducible first
      | assumption | exact sub_trans hmsk rfl | apply SameBut.foldl | apply SameBut.foldl1
      | apply SameBut.foldlDev | apply SameBut.foldlMv | apply SameBut.foldlDn | apply State.complete_same
      | apply State.updArr_same
    | intro _
    | split
    | dsimp only

theorem State.abortArrayQueue_same {msk : List Fld} {s0 : State} {s : State} (k : _) (hs : SameBut msk s0 s)
    (hmsk : sub [.regs, .plots, .net, .parts, .dbg, .cnts] msk = true) :
    SameBut msk s0 (State.abortArrayQueue s k) := by
  unfold State.abortArrayQueue; try dsimp only
  repeat' first
    | with_reducible first
      | assumption | exact sub_trans hmsk rfl | apply SameBut.foldl | apply SameBut.foldl1
      | apply SameBut.foldlDev | apply SameBut.foldlMv | apply SameBut.foldlDn | apply State.abortLane_same
      | apply State.complete_same | apply State.updQueue_same
    | intro _
    | split
    | dsimp only

theorem flushQueue_same {msk : List Fld} {s0 : State} (k : _) (q : _) {s : State} (hs : SameBut msk s0 s)
    (hmsk : sub [.regs, .plots, .net, .parts, .dbg, .cnts] msk = true) :
    SameBut msk s0 (flushQueue k q s) := by
  unfold flushQueue; try dsimp only
  repeat' first
    | with_reducible first
      | assumption | exact sub_trans hmsk rfl | apply State.abortArrayQueue_same | apply State.abortEntries_same
      | apply State.unhold_same
    | intro _
    | split
    | dsimp only

theorem execPqFlush_same {msk : List Fld} {s0 : State} (r : _) (p : _) (q : _) {s : State} (hs : SameBut msk s0 s)
    (hmsk : sub [.regs, .plots, .net, .parts, .cores, .dbg, .cnts] msk = true) :
    OutSame msk s0 (execPqFlush r p q s) := by
  unfold execPqFlush; try dsimp only
  repeat' first
    | with_reducible first
      | assumption | exact sub_trans hmsk rfl | apply OutSame.next | apply State.access_same
      | apply flushQueue_same
    | intro _
    | split
    | dsimp only

theorem queueSetEn_same {msk : List Fld} {s0 : State} (k : _) (q : _) {s : State} (hs : SameBut msk s0 s)
    (hmsk : sub [.plots] msk = true) :
    SameBut msk s0 (queueSetEn k q s) := by
  unfold queueSetEn; try dsimp only
  repeat' first
    | with_reducible first
      | assumption | exact sub_trans hmsk rfl | apply State.updQueue_same
    | intro _
    | split
    | dsimp only

theorem execPqSetEn_same {msk : List Fld} {s0 : State} (r : _) (p : _) (q : _) {s : State} (hs : SameBut msk s0 s)
    (hmsk : sub [.regs, .plots, .cores, .dbg, .cnts] msk = true) :
    OutSame msk s0 (execPqSetEn r p q s) := by
  unfold execPqSetEn; try dsimp only
  repeat' first
    | with_reducible first
      | assumption | exact sub_trans hmsk rfl | apply OutSame.next | apply State.access_same
      | apply queueSetEn_same
    | intro _
    | split
    | dsimp only

theorem queueClrEn_same {msk : List Fld} {s0 : State} (k : _) (q : _) {s : State} (hs : SameBut msk s0 s)
    (hmsk : sub [.regs, .plots, .net, .parts, .dbg, .cnts] msk = true) :
    SameBut msk s0 (queueClrEn k q s) := by
  unfold queueClrEn; try dsimp only
  repeat' first
    | with_reducible first
      | assumption | exact sub_trans hmsk rfl | apply State.updQueue_same | apply flushQueue_same
    | intro _
    | split
    | dsimp only

theorem sendToken_same {msk : List Fld} {s0 : State} (k : _) (v : _) {s : State} (hs : SameBut msk s0 s)
    (hmsk : sub [.regs, .net, .cnts] msk = true) :
    SameBut msk s0 (sendToken k v s) := by
  unfold sendToken; try dsimp only
  repeat' first
    | with_reducible first
      | assumption | exact sub_trans hmsk rfl | apply State.irq_same | apply State.plotToken_same
    | intro _
    | split
    | dsimp only

theorem execPqTokenTx_same {msk : List Fld} {s0 : State} (r : _) (p : _) (v : _) {s : State} (hs : SameBut msk s0 s)
    (hmsk : sub [.regs, .net, .cores, .dbg, .cnts] msk = true) :
    OutSame msk s0 (execPqTokenTx r p v s) := by
  unfold execPqTokenTx; try dsimp only
  repeat' first
    | with_reducible first
      | assumption | exact sub_trans hmsk rfl | apply OutSame.next | apply State.access_same
      | apply sendToken_same
    | intro _
    | split
    | dsimp only

theorem tokenErr_same {msk : List Fld} {s0 : State} (k : _) {s : State} (hs : SameBut msk s0 s)
    (hmsk : sub [.regs] msk = true) :
    SameBut msk s0 (tokenErr k s) := by
  unfold tokenErr; try dsimp only
  repeat' first
    | with_reducible first
      | assumption | exact sub_trans hmsk rfl | apply State.irq_same
    | intro _
    | split
    | dsimp only

theorem writeSlot_same {msk : List Fld} {s0 : State} (k : _) (n : _) (w : _) (v : _) {s : State} (hs : SameBut msk s0 s)
    (hmsk : sub [.regs] msk = true) :
    SameBut msk s0 (writeSlot k n w v s) := by
  unfold writeSlot; try dsimp only
  repeat' first
    | with_reducible first
      | assumption | exact sub_trans hmsk rfl | apply State.clrBit_same | apply State.setFld_same
      | apply tokenErr_same
    | intro _
    | split
    | dsimp only

theorem execOutputSlotWrite_same {msk : List Fld} {s0 : State} (r : _) (p : _) (n : _) (w : _) (v : _) {s : State} (hs : SameBut msk s0 s)
    (hmsk : sub [.regs, .cores, .dbg, .cnts] msk = true) :
    OutSame msk s0 (execOutputSlotWrite r p n w v s) := by
  unfold execOutputSlotWrite; try dsimp only
  repeat' first
    | with_reducible first
      | assumption | exact sub_trans hmsk rfl | apply OutSame.next | apply State.access_same
      | apply writeSlot_same
    | intro _
    | split
    | dsimp only

theorem State.sendCredit_same {msk : List Fld} {s0 : State} {s : State} (k : _) (n : _) (hs : SameBut msk s0 s)
    (hmsk : sub [.regs, .plots, .net, .cnts] msk = true) :
    SameBut msk s0 (State.sendCredit s k n) := by
  unfold State.sendCredit; try dsimp only
  repeat' first
    | with_reducible first
      | assumption | exact sub_trans hmsk rfl | apply State.count_same | apply State.inject_same
      | apply State.updPlot_same
    | intro _
    | split
    | dsimp only

theorem closeHg_same {msk : List Fld} {s0 : State} (k : _) (n : _) {s : State} (hs : SameBut msk s0 s)
    (hmsk : sub [.regs, .plots, .net, .cnts] msk = true) :
    SameBut msk s0 (closeHg k n s) := by
  unfold closeHg; try dsimp only
  repeat' first
    | with_reducible first
      | assumption | exact sub_trans hmsk rfl | apply State.clrBit_same | apply State.sendCredit_same
      | apply State.setReg_same | apply State.updPlot_same
    | intro _
    | split
    | dsimp only

theorem writeHg_same {msk : List Fld} {s0 : State} (k : _) (n : _) (w : _) (v : _) {s : State} (hs : SameBut msk s0 s)
    (hmsk : sub [.regs, .plots, .net, .cnts] msk = true) :
    SameBut msk s0 (writeHg k n w v s) := by
  unfold writeHg; try dsimp only
  repeat' first
    | with_reducible first
      | assumption | exact sub_trans hmsk rfl | apply State.setFld_same | apply State.setReg_same
      | apply State.updPlot_same | apply closeHg_same | apply tokenErr_same
    | intro _
    | split
    | dsimp only

theorem execHeadgateWrite_same {msk : List Fld} {s0 : State} (r : _) (p : _) (n : _) (w : _) (v : _) {s : State} (hs : SameBut msk s0 s)
    (hmsk : sub [.regs, .plots, .net, .cores, .dbg, .cnts] msk = true) :
    OutSame msk s0 (execHeadgateWrite r p n w v s) := by
  unfold execHeadgateWrite; try dsimp only
  repeat' first
    | with_reducible first
      | assumption | exact sub_trans hmsk rfl | apply OutSame.next | apply State.access_same | apply writeHg_same
    | intro _
    | split
    | dsimp only

end Sys2Proof.Machine
end

