-- ==== Sys2Proof/Laws/FrameMemory.lean ====
section
/-!
SUPPORT. Laws/FrameMemory.lean: what each operation leaves unchanged: one lemma per operation of cisterns, commons, barges, norias and the fabric.
-/
set_option linter.unusedTactic false
set_option linter.unreachableTactic false
set_option linter.unusedVariables false
set_option linter.unusedSimpArgs false

namespace Sys2Proof.Machine

variable {msk : List Fld} {s0 : State}

/-! ### Cistern -/

theorem State.putWord_same {msk : List Fld} {s0 : State} {s : State} (k : _) (w : _) (bs : _) (d : _) (hs : SameBut msk s0 s)
    (hmsk : sub [.dram, .chk] msk = true) :
    SameBut msk s0 (State.putWord s k w bs d) := by
  unfold State.putWord; try dsimp only
  repeat' first
    | with_reducible first
      | assumption | exact sub_trans hmsk rfl
    | intro _
    | split
    | with_reducible (apply SameBut.lit <;> first | exact Or.inl rfl | exact Or.inr (sub_trans hmsk rfl) | skip)
    | dsimp only

theorem State.logCommon_same {msk : List Fld} {s0 : State} {s : State} (a : _) (old : _) (w : _) (pl : _) (syn : _) (pos : _) (fb : _) (sus : _) (hs : SameBut msk s0 s)
    (hmsk : sub [.regs] msk = true) :
    SameBut msk s0 (State.logCommon s a old w pl syn pos fb sus) := by
  unfold State.logCommon; try dsimp only
  repeat' first
    | with_reducible first
      | assumption | exact sub_trans hmsk rfl | apply SameBut.foldl | apply SameBut.foldl1
      | apply SameBut.foldlDev | apply SameBut.foldlMv | apply SameBut.foldlDn | apply State.addFld_same
      | apply State.setBit_same | apply State.setFld_same | apply State.setReg_same
    | intro _
    | split
    | dsimp only

theorem State.window_same {msk : List Fld} {s0 : State} {s : State} (a : _) (st : _) (k : _) (off : _) (hs : SameBut msk s0 s)
    (hmsk : sub [.regs, .errs, .cores, .wire] msk = true) :
    SameBut msk s0 (State.window s a st k off) := by
  unfold State.window; try dsimp only
  repeat' first
    | with_reducible first
      | assumption | exact sub_trans hmsk rfl | apply State.addFld_same | apply State.report_same
      | apply State.setBit_same | apply State.setFld_same | apply State.setReg_same
    | intro _
    | split
    | dsimp only

theorem State.logCE_same {msk : List Fld} {s0 : State} {s : State} (k : _) (w : _) (syn : _) (pos : _) (fb : _) (sus : _) (hs : SameBut msk s0 s)
    (hmsk : sub [.regs, .errs, .cores, .wire] msk = true) :
    SameBut msk s0 (State.logCE s k w syn pos fb sus) := by
  unfold State.logCE; try dsimp only
  repeat' first
    | with_reducible first
      | assumption | exact sub_trans hmsk rfl | apply State.addFld_same | apply State.logCommon_same
      | apply State.report_same | apply State.window_same
    | intro _
    | split
    | dsimp only

theorem State.logUE_same {msk : List Fld} {s0 : State} {s : State} (k : _) (w : _) (syn : _) (pos : _) (fb : _) (sus : _) (hs : SameBut msk s0 s)
    (hmsk : sub [.regs] msk = true) :
    SameBut msk s0 (State.logUE s k w syn pos fb sus) := by
  unfold State.logUE; try dsimp only
  repeat' first
    | with_reducible first
      | assumption | exact sub_trans hmsk rfl | apply State.addFld_same | apply State.logCommon_same
    | intro _
    | split
    | dsimp only

theorem State.poisonBack_same {msk : List Fld} {s0 : State} {s : State} (k : _) (w : _) (hs : SameBut msk s0 s)
    (hmsk : sub [.slices, .dram, .chk] msk = true) :
    SameBut msk s0 (State.poisonBack s k w) := by
  unfold State.poisonBack; try dsimp only
  repeat' first
    | with_reducible first
      | assumption | exact sub_trans hmsk rfl | apply State.putWord_same | apply State.updSlc_same
    | intro _
    | split
    | dsimp only

theorem readWord_same {msk : List Fld} {s0 : State} {s : State} (k : _) (w : _) (src : _) (hs : SameBut msk s0 s)
    (hmsk : sub [.regs, .slices, .dram, .chk, .errs, .cores, .cnts, .wire] msk = true) :
    SameBut msk s0 (readWord s k w src).1 := by
  unfold readWord; try dsimp only
  repeat' first
    | with_reducible first
      | assumption | exact sub_trans hmsk rfl | apply State.count_same | apply State.logCE_same
      | apply State.logUE_same | apply State.pageErr_same | apply State.poisonBack_same | apply State.report_same
      | apply State.updSlc_same
    | intro _
    | split
    | dsimp only

theorem readWords_same {msk : List Fld} {s0 : State} {s : State} (k : _) (src : _) (x3 : _) (hs : SameBut msk s0 s)
    (hmsk : sub [.regs, .slices, .dram, .chk, .errs, .cores, .cnts, .wire] msk = true) :
    SameBut msk s0 (readWords s k src x3).1 := by
  induction x3 generalizing s with
  | nil =>
    unfold readWords; try dsimp only
    repeat' first
      | with_reducible first
        | assumption | exact sub_trans hmsk rfl | apply readWord_same
      | intro _
      | split
      | dsimp only
  | cons _ _ ih =>
    unfold readWords; try dsimp only
    repeat' first
      | with_reducible first
        | assumption | exact sub_trans hmsk rfl | apply readWord_same | apply ih
      | intro _
      | split
      | dsimp only

theorem State.cisRead_same {msk : List Fld} {s0 : State} {s : State} (k : _) (off : _) (len : _) (src : _) (hs : SameBut msk s0 s)
    (hmsk : sub [.regs, .slices, .dram, .chk, .errs, .cores, .cnts, .wire] msk = true) :
    SameBut msk s0 (State.cisRead s k off len src).1 := by
  unfold State.cisRead; try dsimp only
  repeat' first
    | with_reducible first
      | assumption | exact sub_trans hmsk rfl | apply State.count_same | apply readWords_same
    | intro _
    | split
    | dsimp only

theorem State.flipWord_same {msk : List Fld} {s0 : State} {s : State} (k : _) (w : _) (hs : SameBut msk s0 s)
    (hmsk : sub [.regs, .dram, .chk] msk = true) :
    SameBut msk s0 (State.flipWord s k w) := by
  unfold State.flipWord; try dsimp only
  repeat' first
    | with_reducible first
      | assumption | exact sub_trans hmsk rfl | apply SameBut.foldl | apply SameBut.foldl1
      | apply SameBut.foldlDev | apply SameBut.foldlMv | apply SameBut.foldlDn | apply State.clrBit_same
      | apply State.putWord_same | apply State.setReg_same
    | intro _
    | split
    | dsimp only

theorem State.storeWord_same {msk : List Fld} {s0 : State} {s : State} (k : _) (w : _) (bs : _) (bad : _) (src : _) (hs : SameBut msk s0 s)
    (hmsk : sub [.regs, .dram, .chk] msk = true) :
    SameBut msk s0 (State.storeWord s k w bs bad src) := by
  unfold State.storeWord; try dsimp only
  repeat' first
    | with_reducible first
      | assumption | exact sub_trans hmsk rfl | apply State.flipWord_same | apply State.putWord_same
    | intro _
    | split
    | dsimp only

theorem writeWord_same {msk : List Fld} {s0 : State} {s : State} (k : _) (w : _) (lo : _) (bs : _) (bad : _) (src : _) (hs : SameBut msk s0 s)
    (hmsk : sub [.regs, .slices, .dram, .chk, .errs, .cores, .cnts, .wire] msk = true) :
    SameBut msk s0 (writeWord s k w lo bs bad src).1 := by
  unfold writeWord; try dsimp only
  repeat' first
    | with_reducible first
      | assumption | exact sub_trans hmsk rfl | apply State.storeWord_same | apply readWord_same
    | intro _
    | split
    | dsimp only

theorem writeWords_same {msk : List Fld} {s0 : State} {s : State} (k : _) (off : _) (data : _) (bad : _) (src : _) (x6 : _) (hs : SameBut msk s0 s)
    (hmsk : sub [.regs, .slices, .dram, .chk, .errs, .cores, .cnts, .wire] msk = true) :
    SameBut msk s0 (writeWords s k off data bad src x6).1 := by
  induction x6 generalizing s with
  | nil =>
    unfold writeWords; try dsimp only
    repeat' first
      | with_reducible first
        | assumption | exact sub_trans hmsk rfl | apply writeWord_same
      | intro _
      | split
      | dsimp only
  | cons _ _ ih =>
    unfold writeWords; try dsimp only
    repeat' first
      | with_reducible first
        | assumption | exact sub_trans hmsk rfl | apply writeWord_same | apply ih
      | intro _
      | split
      | dsimp only

theorem State.dropLines_same {msk : List Fld} {s0 : State} {s : State} (k : _) (off : _) (len : _) (hs : SameBut msk s0 s)
    (hmsk : sub [.cores, .caches] msk = true) :
    SameBut msk s0 (State.dropLines s k off len) := by
  unfold State.dropLines; try dsimp only
  repeat' first
    | with_reducible first
      | assumption | exact sub_trans hmsk rfl | apply SameBut.foldl | apply SameBut.foldl1
      | apply SameBut.foldlDev | apply SameBut.foldlMv | apply SameBut.foldlDn | apply State.updCore_same
    | intro _
    | split
    | with_reducible apply SameBut.lit_caches
    | dsimp only

theorem State.cisWrite_same {msk : List Fld} {s0 : State} {s : State} (k : _) (off : _) (data : _) (bad : _) (src : _) (hs : SameBut msk s0 s)
    (hmsk : sub [.regs, .slices, .dram, .chk, .errs, .cores, .caches, .cnts, .wire] msk = true) :
    SameBut msk s0 (State.cisWrite s k off data bad src).1 := by
  unfold State.cisWrite; try dsimp only
  repeat' first
    | with_reducible first
      | assumption | exact sub_trans hmsk rfl | apply State.count_same | apply State.dropLines_same
      | apply writeWords_same
    | intro _
    | split
    | dsimp only

theorem State.weirFlags_same {msk : List Fld} {s0 : State} {s : State} (k : _) (fl : _) (hs : SameBut msk s0 s)
    (hmsk : sub [.regs] msk = true) :
    SameBut msk s0 (State.weirFlags s k fl) := by
  unfold State.weirFlags; try dsimp only
  repeat' first
    | with_reducible first
      | assumption | exact sub_trans hmsk rfl | apply State.setReg_same
    | intro _
    | split
    | dsimp only

theorem weirWord_same {msk : List Fld} {s0 : State} {s : State} (k : _) (w : _) (lo : _) (op : _) (x : _) (bad : _) (hs : SameBut msk s0 s)
    (hmsk : sub [.regs, .slices, .dram, .chk, .errs, .cores, .cnts, .wire] msk = true) :
    SameBut msk s0 (weirWord s k w lo op x bad).1 := by
  unfold weirWord; try dsimp only
  repeat' first
    | with_reducible first
      | assumption | exact sub_trans hmsk rfl | apply State.storeWord_same | apply State.weirFlags_same
      | apply readWord_same
    | intro _
    | split
    | dsimp only

theorem weirWords_same {msk : List Fld} {s0 : State} {s : State} (k : _) (off : _) (op : _) (x : _) (bad : _) (x6 : _) (hs : SameBut msk s0 s)
    (hmsk : sub [.regs, .slices, .dram, .chk, .errs, .cores, .cnts, .wire] msk = true) :
    SameBut msk s0 (weirWords s k off op x bad x6).1 := by
  induction x6 generalizing s with
  | nil =>
    unfold weirWords; try dsimp only
    repeat' first
      | with_reducible first
        | assumption | exact sub_trans hmsk rfl | apply weirWord_same
      | intro _
      | split
      | dsimp only
  | cons _ _ ih =>
    unfold weirWords; try dsimp only
    repeat' first
      | with_reducible first
        | assumption | exact sub_trans hmsk rfl | apply weirWord_same | apply ih
      | intro _
      | split
      | dsimp only

theorem State.cisWeir_same {msk : List Fld} {s0 : State} {s : State} (k : _) (op : _) (off : _) (x : _) (bad : _) (hs : SameBut msk s0 s)
    (hmsk : sub [.regs, .slices, .dram, .chk, .errs, .cores, .caches, .cnts, .wire] msk = true) :
    SameBut msk s0 (State.cisWeir s k op off x bad).1 := by
  unfold State.cisWeir; try dsimp only
  repeat' first
    | with_reducible first
      | assumption | exact sub_trans hmsk rfl | apply State.count_same | apply State.dropLines_same
      | apply weirWord_same | apply weirWords_same
    | intro _
    | split
    | dsimp only

theorem State.serveHeld_same {msk : List Fld} {s0 : State} {s : State} (k : _) (x2 : _) (hs : SameBut msk s0 s)
    (hmsk : sub [.regs, .slices, .dram, .chk, .errs, .cores, .caches, .cnts, .wire] msk = true) :
    SameBut msk s0 (State.serveHeld s k x2) := by
  unfold State.serveHeld; try dsimp only
  repeat' first
    | with_reducible first
      | assumption | exact sub_trans hmsk rfl | apply State.cisWeir_same | apply State.cisWrite_same
      | apply State.putWord_same
    | intro _
    | split
    | dsimp only

theorem State.serveList_same {msk : List Fld} {s0 : State} {s : State} (k : _) (x2 : _) (hs : SameBut msk s0 s)
    (hmsk : sub [.regs, .slices, .dram, .chk, .errs, .cores, .caches, .cnts, .wire] msk = true) :
    SameBut msk s0 (State.serveList s k x2) := by
  induction x2 generalizing s with
  | nil =>
    unfold State.serveList; try dsimp only
    repeat' first
      | with_reducible first
        | assumption | exact sub_trans hmsk rfl | apply State.serveHeld_same | apply State.updSlc_same
      | intro _
      | split
      | dsimp only
  | cons _ _ ih =>
    unfold State.serveList; try dsimp only
    repeat' first
      | with_reducible first
        | assumption | exact sub_trans hmsk rfl | apply State.serveHeld_same | apply State.updSlc_same | apply ih
      | intro _
      | split
      | dsimp only

theorem State.serveWaiting_same {msk : List Fld} {s0 : State} {s : State} (k : _) (hs : SameBut msk s0 s)
    (hmsk : sub [.regs, .slices, .dram, .chk, .errs, .cores, .caches, .cnts, .wire] msk = true) :
    SameBut msk s0 (State.serveWaiting s k) := by
  unfold State.serveWaiting; try dsimp only
  repeat' first
    | with_reducible first
      | assumption | exact sub_trans hmsk rfl | apply State.serveList_same | apply State.updSlc_same
    | intro _
    | split
    | dsimp only

theorem State.keepReq_same {msk : List Fld} {s0 : State} {s : State} (k : _) (x2 : _) (hs : SameBut msk s0 s)
    (hmsk : sub [.slices] msk = true) :
    SameBut msk s0 (State.keepReq s k x2) := by
  unfold State.keepReq; try dsimp only
  repeat' first
    | with_reducible first
      | assumption | exact sub_trans hmsk rfl | apply State.updSlc_same
    | intro _
    | split
    | dsimp only

theorem State.answerCis_same {msk : List Fld} {s0 : State} {s : State} (data : _) (poison : _) (hs : SameBut msk s0 s)
    (hmsk : sub [.reply] msk = true) :
    SameBut msk s0 (State.answerCis s data poison) := by
  unfold State.answerCis; try dsimp only
  repeat' first
    | with_reducible first
      | assumption | exact sub_trans hmsk rfl
    | intro _
    | split
    | with_reducible apply SameBut.lit_reply
    | dsimp only

theorem execCisternRead_same {msk : List Fld} {s0 : State} (p : _) (off : _) (len : _) (src : _) {s : State} (hs : SameBut msk s0 s)
    (hmsk : sub [.reply, .regs, .slices, .dram, .chk, .errs, .cores, .cnts, .wire] msk = true) :
    OutSame msk s0 (execCisternRead p off len src s) := by
  unfold execCisternRead; try dsimp only
  repeat' first
    | with_reducible first
      | assumption | exact sub_trans hmsk rfl | apply OutSame.next | apply State.answerCis_same
      | apply State.cisRead_same
    | intro _
    | split
    | dsimp only

theorem execCisternWrite_same {msk : List Fld} {s0 : State} (p : _) (off : _) (data : _) (poison : _) (src : _) {s : State} (hs : SameBut msk s0 s)
    (hmsk : sub [.reply, .regs, .slices, .dram, .chk, .errs, .cores, .caches, .cnts, .wire] msk = true) :
    OutSame msk s0 (execCisternWrite p off data poison src s) := by
  unfold execCisternWrite; try dsimp only
  repeat' first
    | with_reducible first
      | assumption | exact sub_trans hmsk rfl | apply OutSame.next | apply State.answerCis_same
      | apply State.cisWrite_same | apply State.keepReq_same
    | intro _
    | split
    | dsimp only

theorem execWeirOpApply_same {msk : List Fld} {s0 : State} (p : _) (op : _) (esize : _) (off : _) (operand : _) (poison : _) (fetch : _) {s : State} (hs : SameBut msk s0 s)
    (hmsk : sub [.reply, .regs, .slices, .dram, .chk, .errs, .cores, .caches, .cnts, .wire] msk = true) :
    OutSame msk s0 (execWeirOpApply p op esize off operand poison fetch s) := by
  unfold execWeirOpApply; try dsimp only
  repeat' first
    | with_reducible first
      | assumption | exact sub_trans hmsk rfl | apply OutSame.next | apply State.answerCis_same
      | apply State.cisWeir_same | apply State.keepReq_same
    | intro _
    | split
    | dsimp only

theorem execBankRefresh_same {msk : List Fld} {s0 : State} (p : _) (bank : _) {s : State} (hs : SameBut msk s0 s)
    (hmsk : sub [.regs, .slices, .cnts] msk = true) :
    OutSame msk s0 (execBankRefresh p bank s) := by
  unfold execBankRefresh; try dsimp only
  repeat' first
    | with_reducible first
      | assumption | exact sub_trans hmsk rfl | apply OutSame.next | apply State.count_same
      | apply State.updSlc_same
    | intro _
    | split
    | dsimp only

theorem applyBand_same {msk : List Fld} {s0 : State} (st : _) {s : State} (hs : SameBut msk s0 s)
    (hmsk : sub [.regs, .slices, .dram, .chk, .stks, .errs, .cores, .caches, .cnts, .wire] msk = true) :
    SameBut msk s0 (applyBand st s) := by
  unfold applyBand; try dsimp only
  repeat' first
    | with_reducible first
      | assumption | exact sub_trans hmsk rfl | apply SameBut.foldl | apply SameBut.foldl1
      | apply SameBut.foldlDev | apply SameBut.foldlMv | apply SameBut.foldlDn | apply State.serveWaiting_same
      | apply State.updStk_same
    | intro _
    | split
    | dsimp only

theorem execBandApply_same {msk : List Fld} {s0 : State} (st : _) {s : State} (hs : SameBut msk s0 s)
    (hmsk : sub [.regs, .slices, .dram, .chk, .stks, .errs, .cores, .caches, .cnts, .wire] msk = true) :
    OutSame msk s0 (execBandApply st s) := by
  unfold execBandApply; try dsimp only
  repeat' first
    | with_reducible first
      | assumption | exact sub_trans hmsk rfl | apply OutSame.next | apply applyBand_same
    | intro _
    | split
    | dsimp only

theorem State.startFill_same {msk : List Fld} {s0 : State} {s : State} (k : _) (set : _) (hs : SameBut msk s0 s)
    (hmsk : sub [.regs, .slices] msk = true) :
    SameBut msk s0 (State.startFill s k set) := by
  unfold State.startFill; try dsimp only
  repeat' first
    | with_reducible first
      | assumption | exact sub_trans hmsk rfl | apply State.setReg_same | apply State.updSlc_same
    | intro _
    | split
    | dsimp only

theorem State.zeroSegment_same {msk : List Fld} {s0 : State} {s : State} (k : _) (g : _) (hs : SameBut msk s0 s)
    (hmsk : sub [.dram, .chk] msk = true) :
    SameBut msk s0 (State.zeroSegment s k g) := by
  unfold State.zeroSegment; try dsimp only
  repeat' first
    | with_reducible first
      | assumption | exact sub_trans hmsk rfl
    | intro _
    | split
    | with_reducible (apply SameBut.lit <;> first | exact Or.inl rfl | exact Or.inr (sub_trans hmsk rfl) | skip)
    | dsimp only

theorem fillDone_same {msk : List Fld} {s0 : State} (k : _) (g : _) {s : State} (hs : SameBut msk s0 s)
    (hmsk : sub [.regs, .slices, .dram, .chk, .errs, .cores, .caches, .cnts, .wire] msk = true) :
    SameBut msk s0 (fillDone k g s) := by
  unfold fillDone; try dsimp only
  repeat' first
    | with_reducible first
      | assumption | exact sub_trans hmsk rfl | apply State.serveWaiting_same | apply State.setFld_same
      | apply State.updSlc_same | apply State.zeroSegment_same
    | intro _
    | split
    | dsimp only

theorem execFillSegmentDone_same {msk : List Fld} {s0 : State} (p : _) (seg : _) {s : State} (hs : SameBut msk s0 s)
    (hmsk : sub [.regs, .slices, .dram, .chk, .errs, .cores, .caches, .cnts, .wire] msk = true) :
    OutSame msk s0 (execFillSegmentDone p seg s) := by
  unfold execFillSegmentDone; try dsimp only
  repeat' first
    | with_reducible first
      | assumption | exact sub_trans hmsk rfl | apply OutSame.next | apply fillDone_same
    | intro _
    | split
    | dsimp only

/-! ### Commons -/

theorem State.freeBytes_same {msk : List Fld} {s0 : State} {s : State} (x1 : _) (hs : SameBut msk s0 s)
    (hmsk : sub [.freeCtr] msk = true) :
    SameBut msk s0 (State.freeBytes s x1).1 := by
  induction x1 generalizing s with
  | zero =>
    unfold State.freeBytes; try dsimp only
    repeat' first
      | with_reducible first
        | assumption | exact sub_trans hmsk rfl | apply State.drawn_same
      | intro _
      | split
      | dsimp only
  | succ _ ih =>
    unfold State.freeBytes; try dsimp only
    repeat' first
      | with_reducible first
        | assumption | exact sub_trans hmsk rfl | apply State.drawn_same | apply ih
      | intro _
      | split
      | dsimp only

theorem devReadPiece_same {msk : List Fld} {s0 : State} {r : _} (src : _) (p : _) (hr : SameBut msk s0 r.st)
    (hmsk : sub [.freeCtr, .regs, .slices, .dram, .chk, .errs, .cores, .cnts, .wire] msk = true) :
    SameBut msk s0 (devReadPiece r src p).st := by
  unfold devReadPiece; try dsimp only
  repeat' first
    | with_reducible first
      | assumption | exact sub_trans hmsk rfl | apply State.cisRead_same | apply State.freeBytes_same
    | intro _
    | split
    | dsimp only

theorem State.devRead_same {msk : List Fld} {s0 : State} {s : State} (addr : _) (len : _) (src : _) (hs : SameBut msk s0 s)
    (hmsk : sub [.freeCtr, .regs, .slices, .dram, .chk, .errs, .cores, .cnts, .wire] msk = true) :
    SameBut msk s0 (State.devRead s addr len src).st := by
  unfold State.devRead; try dsimp only
  repeat' first
    | with_reducible first
      | assumption | exact sub_trans hmsk rfl | apply SameBut.foldl | apply SameBut.foldl1
      | apply SameBut.foldlDev | apply SameBut.foldlMv | apply SameBut.foldlDn | apply devReadPiece_same
    | intro _
    | split
    | dsimp only

theorem State.devWrite_same {msk : List Fld} {s0 : State} {s : State} (addr : _) (data : _) (bad : _) (src : _) (hs : SameBut msk s0 s)
    (hmsk : sub [.regs, .slices, .dram, .chk, .errs, .cores, .caches, .cnts, .wire] msk = true) :
    SameBut msk s0 (State.devWrite s addr data bad src).st := by
  unfold State.devWrite; try dsimp only
  repeat' first
    | with_reducible first
      | assumption | exact sub_trans hmsk rfl | apply SameBut.foldl | apply SameBut.foldl1
      | apply SameBut.foldlDev | apply SameBut.foldlMv | apply SameBut.foldlDn | apply State.cisWrite_same
    | intro _
    | split
    | dsimp only

theorem State.devWeir_same {msk : List Fld} {s0 : State} {s : State} (op : _) (addr : _) (x : _) (bad : _) (hs : SameBut msk s0 s)
    (hmsk : sub [.regs, .slices, .dram, .chk, .errs, .cores, .caches, .cnts, .wire] msk = true) :
    SameBut msk s0 (State.devWeir s op addr x bad).st := by
  unfold State.devWeir; try dsimp only
  repeat' first
    | with_reducible first
      | assumption | exact sub_trans hmsk rfl | apply SameBut.foldl | apply SameBut.foldl1
      | apply SameBut.foldlDev | apply SameBut.foldlMv | apply SameBut.foldlDn | apply State.cisWeir_same
    | intro _
    | split
    | dsimp only

theorem State.wrRej_same {msk : List Fld} {s0 : State} {s : State} (a : _) (hs : SameBut msk s0 s)
    (hmsk : sub [.regs] msk = true) :
    SameBut msk s0 (State.wrRej s a) := by
  unfold State.wrRej; try dsimp only
  repeat' first
    | with_reducible first
      | assumption | exact sub_trans hmsk rfl | apply State.setBit_same
    | intro _
    | split
    | dsimp only

theorem State.lockPage_same {msk : List Fld} {s0 : State} {s : State} (a : _) (hs : SameBut msk s0 s)
    (hmsk : sub [.regs] msk = true) :
    SameBut msk s0 (State.lockPage s a) := by
  unfold State.lockPage; try dsimp only
  repeat' first
    | with_reducible first
      | assumption | exact sub_trans hmsk rfl | apply State.setFld_same
    | intro _
    | split
    | dsimp only

theorem writeCommonsCfg_same {msk : List Fld} {s0 : State} (n : _) (v : _) {s : State} (hs : SameBut msk s0 s)
    (hmsk : sub [.regs] msk = true) :
    SameBut msk s0 (writeCommonsCfg n v s) := by
  unfold writeCommonsCfg; try dsimp only
  repeat' first
    | with_reducible first
      | assumption | exact sub_trans hmsk rfl | apply State.clrBit_same | apply State.setBit_same
      | apply State.setFld_same | apply State.wrRej_same
    | intro _
    | split
    | dsimp only

theorem execCommonsCfgWrite_same {msk : List Fld} {s0 : State} (r : _) (n : _) (v : _) {s : State} (hs : SameBut msk s0 s)
    (hmsk : sub [.regs, .cores, .dbg, .cnts] msk = true) :
    OutSame msk s0 (execCommonsCfgWrite r n v s) := by
  unfold execCommonsCfgWrite; try dsimp only
  repeat' first
    | with_reducible first
      | assumption | exact sub_trans hmsk rfl | apply OutSame.next | apply State.access_same
      | apply writeCommonsCfg_same
    | intro _
    | split
    | dsimp only

theorem State.setRemapState_same {msk : List Fld} {s0 : State} {s : State} (n : _) (x : _) (hs : SameBut msk s0 s)
    (hmsk : sub [.regs] msk = true) :
    SameBut msk s0 (State.setRemapState s n x) := by
  unfold State.setRemapState; try dsimp only
  repeat' first
    | with_reducible first
      | assumption | exact sub_trans hmsk rfl | apply State.setFld_same
    | intro _
    | split
    | dsimp only

theorem State.updRemap_same {msk : List Fld} {s0 : State} {s : State} (n : _) (f : _) (hs : SameBut msk s0 s)
    (hmsk : sub [.parts] msk = true) :
    SameBut msk s0 (State.updRemap s n f) := by
  unfold State.updRemap; try dsimp only
  repeat' first
    | with_reducible first
      | assumption | exact sub_trans hmsk rfl | apply State.updPart_same
    | intro _
    | split
    | dsimp only

theorem remapBegin_same {msk : List Fld} {s0 : State} (n : _) {s : State} (hs : SameBut msk s0 s)
    (hmsk : sub [.regs, .parts] msk = true) :
    SameBut msk s0 (remapBegin n s) := by
  unfold remapBegin; try dsimp only
  repeat' first
    | with_reducible first
      | assumption | exact sub_trans hmsk rfl | apply State.setFld_same | apply State.setRemapState_same
      | apply State.updRemap_same
    | intro _
    | split
    | dsimp only

theorem remapWrite_same {msk : List Fld} {s0 : State} (n : _) (i : _) {s : State} (hs : SameBut msk s0 s)
    (hmsk : sub [.parts] msk = true) :
    SameBut msk s0 (remapWrite n i s) := by
  unfold remapWrite; try dsimp only
  repeat' first
    | with_reducible first
      | assumption | exact sub_trans hmsk rfl | apply State.updRemap_same
    | intro _
    | split
    | dsimp only

theorem remapClear_same {msk : List Fld} {s0 : State} (n : _) (i : _) {s : State} (hs : SameBut msk s0 s)
    (hmsk : sub [.parts] msk = true) :
    SameBut msk s0 (remapClear n i s) := by
  unfold remapClear; try dsimp only
  repeat' first
    | with_reducible first
      | assumption | exact sub_trans hmsk rfl | apply State.updRemap_same
    | intro _
    | split
    | dsimp only

theorem remapStart_same {msk : List Fld} {s0 : State} (n : _) {s : State} (hs : SameBut msk s0 s)
    (hmsk : sub [.regs, .parts] msk = true) :
    SameBut msk s0 (remapStart n s) := by
  unfold remapStart; try dsimp only
  repeat' first
    | with_reducible first
      | assumption | exact sub_trans hmsk rfl | apply State.setFld_same | apply State.setRemapState_same
      | apply State.updRemap_same
    | intro _
    | split
    | dsimp only

theorem remapCancel_same {msk : List Fld} {s0 : State} (n : _) {s : State} (hs : SameBut msk s0 s)
    (hmsk : sub [.regs, .parts] msk = true) :
    SameBut msk s0 (remapCancel n s) := by
  unfold remapCancel; try dsimp only
  repeat' first
    | with_reducible first
      | assumption | exact sub_trans hmsk rfl | apply State.setRemapState_same | apply State.updRemap_same
    | intro _
    | split
    | dsimp only

theorem execCommonsRemapBegin_same {msk : List Fld} {s0 : State} (r : _) (n : _) {s : State} (hs : SameBut msk s0 s)
    (hmsk : sub [.regs, .parts, .cores, .dbg, .cnts] msk = true) :
    OutSame msk s0 (execCommonsRemapBegin r n s) := by
  unfold execCommonsRemapBegin; try dsimp only
  repeat' first
    | with_reducible first
      | assumption | exact sub_trans hmsk rfl | apply OutSame.next | apply State.access_same
      | apply remapBegin_same
    | intro _
    | split
    | dsimp only

theorem execCommonsRemapWrite_same {msk : List Fld} {s0 : State} (r : _) (n : _) (i : _) {s : State} (hs : SameBut msk s0 s)
    (hmsk : sub [.regs, .parts, .cores, .dbg, .cnts] msk = true) :
    OutSame msk s0 (execCommonsRemapWrite r n i s) := by
  unfold execCommonsRemapWrite; try dsimp only
  repeat' first
    | with_reducible first
      | assumption | exact sub_trans hmsk rfl | apply OutSame.next | apply State.access_same
      | apply remapWrite_same
    | intro _
    | split
    | dsimp only

theorem execCommonsRemapClear_same {msk : List Fld} {s0 : State} (r : _) (n : _) (i : _) {s : State} (hs : SameBut msk s0 s)
    (hmsk : sub [.regs, .parts, .cores, .dbg, .cnts] msk = true) :
    OutSame msk s0 (execCommonsRemapClear r n i s) := by
  unfold execCommonsRemapClear; try dsimp only
  repeat' first
    | with_reducible first
      | assumption | exact sub_trans hmsk rfl | apply OutSame.next | apply State.access_same
      | apply remapClear_same
    | intro _
    | split
    | dsimp only

theorem execCommonsRemapStart_same {msk : List Fld} {s0 : State} (r : _) (n : _) {s : State} (hs : SameBut msk s0 s)
    (hmsk : sub [.regs, .parts, .cores, .dbg, .cnts] msk = true) :
    OutSame msk s0 (execCommonsRemapStart r n s) := by
  unfold execCommonsRemapStart; try dsimp only
  repeat' first
    | with_reducible first
      | assumption | exact sub_trans hmsk rfl | apply OutSame.next | apply State.access_same
      | apply remapStart_same
    | intro _
    | split
    | dsimp only

theorem execCommonsRemapCancel_same {msk : List Fld} {s0 : State} (r : _) (n : _) {s : State} (hs : SameBut msk s0 s)
    (hmsk : sub [.regs, .parts, .cores, .dbg, .cnts] msk = true) :
    OutSame msk s0 (execCommonsRemapCancel r n s) := by
  unfold execCommonsRemapCancel; try dsimp only
  repeat' first
    | with_reducible first
      | assumption | exact sub_trans hmsk rfl | apply OutSame.next | apply State.access_same
      | apply remapCancel_same
    | intro _
    | split
    | dsimp only

theorem State.remapFail_same {msk : List Fld} {s0 : State} {s : State} (n : _) (code : _) (hs : SameBut msk s0 s)
    (hmsk : sub [.regs, .parts, .errs, .cores, .wire] msk = true) :
    SameBut msk s0 (State.remapFail s n code) := by
  unfold State.remapFail; try dsimp only
  repeat' first
    | with_reducible first
      | assumption | exact sub_trans hmsk rfl | apply State.report_same | apply State.setFld_same
      | apply State.setRemapState_same | apply State.updRemap_same
    | intro _
    | split
    | dsimp only

theorem copyGranule_same {msk : List Fld} {s0 : State} {s : State} (a : _) (b : _) (hs : SameBut msk s0 s)
    (hmsk : sub [.regs, .slices, .dram, .chk, .errs, .cores, .cnts, .wire] msk = true) :
    SameBut msk s0 (copyGranule s a b) := by
  unfold copyGranule; try dsimp only
  repeat' first
    | with_reducible first
      | assumption | exact sub_trans hmsk rfl | apply SameBut.foldl | apply SameBut.foldl1
      | apply SameBut.foldlDev | apply SameBut.foldlMv | apply SameBut.foldlDn | apply State.count_same
      | apply State.storeWord_same | apply readWord_same
    | intro _
    | split
    | dsimp only

theorem finishCopy_same {msk : List Fld} {s0 : State} (n : _) {s : State} (hs : SameBut msk s0 s)
    (hmsk : sub [.regs, .slices, .dram, .chk, .parts, .errs, .cores, .cnts, .wire] msk = true) :
    SameBut msk s0 (finishCopy n s) := by
  unfold finishCopy; try dsimp only
  repeat' first
    | with_reducible first
      | assumption | exact sub_trans hmsk rfl | apply SameBut.foldl | apply SameBut.foldl1
      | apply SameBut.foldlDev | apply SameBut.foldlMv | apply SameBut.foldlDn | apply State.remapFail_same
      | apply State.setRemapState_same | apply State.updRemap_same | apply copyGranule_same
    | intro _
    | split
    | dsimp only

theorem execRemapCopyDone_same {msk : List Fld} {s0 : State} (n : _) {s : State} (hs : SameBut msk s0 s)
    (hmsk : sub [.regs, .slices, .dram, .chk, .parts, .errs, .cores, .cnts, .wire] msk = true) :
    OutSame msk s0 (execRemapCopyDone n s) := by
  unfold execRemapCopyDone; try dsimp only
  repeat' first
    | with_reducible first
      | assumption | exact sub_trans hmsk rfl | apply OutSame.next | apply finishCopy_same
    | intro _
    | split
    | dsimp only

theorem switchRemap_same {msk : List Fld} {s0 : State} (n : _) {s : State} (hs : SameBut msk s0 s)
    (hmsk : sub [.regs, .parts] msk = true) :
    SameBut msk s0 (switchRemap n s) := by
  unfold switchRemap; try dsimp only
  repeat' first
    | with_reducible first
      | assumption | exact sub_trans hmsk rfl | apply State.setFld_same | apply State.updRemap_same
    | intro _
    | split
    | dsimp only

theorem execRemapSwitch_same {msk : List Fld} {s0 : State} (n : _) {s : State} (hs : SameBut msk s0 s)
    (hmsk : sub [.regs, .parts] msk = true) :
    OutSame msk s0 (execRemapSwitch n s) := by
  unfold execRemapSwitch; try dsimp only
  repeat' first
    | with_reducible first
      | assumption | exact sub_trans hmsk rfl | apply OutSame.next | apply switchRemap_same
    | intro _
    | split
    | dsimp only

theorem execRemapDone_same {msk : List Fld} {s0 : State} (n : _) {s : State} (hs : SameBut msk s0 s)
    (hmsk : sub [.regs, .parts, .errs, .cores, .wire] msk = true) :
    OutSame msk s0 (execRemapDone n s) := by
  unfold execRemapDone; try dsimp only
  repeat' first
    | with_reducible first
      | assumption | exact sub_trans hmsk rfl | apply OutSame.next | apply State.report_same
      | apply State.setRemapState_same | apply State.updRemap_same
    | intro _
    | split
    | dsimp only

/-! ### RingOps -/

theorem State.writeCpl_same {msk : List Fld} {s0 : State} {s : State} (g : _) (e : _) (hs : SameBut msk s0 s)
    (hmsk : sub [.rings, .cores, .wire] msk = true) :
    SameBut msk s0 (State.writeCpl s g e) := by
  unfold State.writeCpl; try dsimp only
  repeat' first
    | with_reducible first
      | assumption | exact sub_trans hmsk rfl | apply State.msix_same | apply State.send_same
      | apply State.setRing_same
    | intro _
    | split
    | dsimp only

theorem State.postCpl_same {msk : List Fld} {s0 : State} {s : State} (g : _) (e : _) (hs : SameBut msk s0 s)
    (hmsk : sub [.rings, .cores, .wire] msk = true) :
    SameBut msk s0 (State.postCpl s g e) := by
  unfold State.postCpl; try dsimp only
  repeat' first
    | with_reducible first
      | assumption | exact sub_trans hmsk rfl | apply State.updRing_same | apply State.writeCpl_same
    | intro _
    | split
    | dsimp only

theorem State.releaseCpls_same {msk : List Fld} {s0 : State} {s : State} (g : _) (x2 : _) (hs : SameBut msk s0 s)
    (hmsk : sub [.rings, .cores, .wire] msk = true) :
    SameBut msk s0 (State.releaseCpls s g x2) := by
  induction x2 generalizing s with
  | nil =>
    unfold State.releaseCpls; try dsimp only
    repeat' first
      | with_reducible first
        | assumption | exact sub_trans hmsk rfl | apply State.updRing_same | apply State.writeCpl_same
      | intro _
      | split
      | dsimp only
  | cons _ _ ih =>
    unfold State.releaseCpls; try dsimp only
    repeat' first
      | with_reducible first
        | assumption | exact sub_trans hmsk rfl | apply State.updRing_same | apply State.writeCpl_same | apply ih
      | intro _
      | split
      | dsimp only

theorem State.endCmd_same {msk : List Fld} {s0 : State} {s : State} (g : _) (c : _) (status : _) (value : _) (hs : SameBut msk s0 s)
    (hmsk : sub [.rings, .cores, .wire] msk = true) :
    SameBut msk s0 (State.endCmd s g c status value) := by
  unfold State.endCmd; try dsimp only
  repeat' first
    | with_reducible first
      | assumption | exact sub_trans hmsk rfl | apply State.postCpl_same
    | intro _
    | split
    | dsimp only

theorem State.dropCmd_same {msk : List Fld} {s0 : State} {s : State} (g : _) (id : _) (hs : SameBut msk s0 s)
    (hmsk : sub [.rings] msk = true) :
    SameBut msk s0 (State.dropCmd s g id) := by
  unfold State.dropCmd; try dsimp only
  repeat' first
    | with_reducible first
      | assumption | exact sub_trans hmsk rfl | apply State.updRing_same
    | intro _
    | split
    | dsimp only

theorem State.unfence_same {msk : List Fld} {s0 : State} {s : State} (g : _) (id : _) (hs : SameBut msk s0 s)
    (hmsk : sub [.rings] msk = true) :
    SameBut msk s0 (State.unfence s g id) := by
  unfold State.unfence; try dsimp only
  repeat' first
    | with_reducible first
      | assumption | exact sub_trans hmsk rfl | apply SameBut.foldl | apply SameBut.foldl1
      | apply SameBut.foldlDev | apply SameBut.foldlMv | apply SameBut.foldlDn | apply State.updRing_same
    | intro _
    | split
    | dsimp only

theorem State.endFences_same {msk : List Fld} {s0 : State} {s : State} (f : _) (x2 : _) (hs : SameBut msk s0 s)
    (hmsk : sub [.rings, .cores, .wire] msk = true) :
    SameBut msk s0 (State.endFences s f x2) := by
  induction x2 generalizing s with
  | zero =>
    unfold State.endFences; try dsimp only
    repeat' first
      | with_reducible first
        | assumption | exact sub_trans hmsk rfl | apply State.dropCmd_same | apply State.endCmd_same
        | apply State.unfence_same
      | intro _
      | split
      | dsimp only
  | succ _ ih =>
    unfold State.endFences; try dsimp only
    repeat' first
      | with_reducible first
        | assumption | exact sub_trans hmsk rfl | apply State.dropCmd_same | apply State.endCmd_same
        | apply State.unfence_same | apply ih
      | intro _
      | split
      | dsimp only

theorem State.finishCmd_same {msk : List Fld} {s0 : State} {s : State} (g : _) (id : _) (status : _) (value : _) (hs : SameBut msk s0 s)
    (hmsk : sub [.rings, .cores, .wire] msk = true) :
    SameBut msk s0 (State.finishCmd s g id status value) := by
  unfold State.finishCmd; try dsimp only
  repeat' first
    | with_reducible first
      | assumption | exact sub_trans hmsk rfl | apply SameBut.foldl | apply SameBut.foldl1
      | apply SameBut.foldlDev | apply SameBut.foldlMv | apply SameBut.foldlDn | apply State.dropCmd_same
      | apply State.endCmd_same | apply State.endFences_same | apply State.unfence_same
    | intro _
    | split
    | dsimp only

theorem State.updCmd_same {msk : List Fld} {s0 : State} {s : State} (g : _) (id : _) (f : _) (hs : SameBut msk s0 s)
    (hmsk : sub [.rings] msk = true) :
    SameBut msk s0 (State.updCmd s g id f) := by
  unfold State.updCmd; try dsimp only
  repeat' first
    | with_reducible first
      | assumption | exact sub_trans hmsk rfl | apply State.updRing_same
    | intro _
    | split
    | dsimp only

/-! ### Routes -/

theorem State.refreshRoute_same {msk : List Fld} {s0 : State} {s : State} (die : _) (hs : SameBut msk s0 s)
    (hmsk : sub [.regs] msk = true) :
    SameBut msk s0 (State.refreshRoute s die) := by
  unfold State.refreshRoute; try dsimp only
  repeat' first
    | with_reducible first
      | assumption | exact sub_trans hmsk rfl | apply State.setFld_same
    | intro _
    | split
    | dsimp only

/-! ### BargeOps -/

theorem State.addGo_same {msk : List Fld} {s0 : State} {s : State} (c : _) (hs : SameBut msk s0 s)
    (hmsk : sub [.regs, .chans] msk = true) :
    SameBut msk s0 (State.addGo s c) := by
  unfold State.addGo; try dsimp only
  repeat' first
    | with_reducible first
      | assumption | exact sub_trans hmsk rfl | apply State.setBit_same | apply State.setChan_same
    | intro _
    | split
    | dsimp only

theorem State.reqAdd_same {msk : List Fld} {s0 : State} {s : State} (c : _) (ks : _) (hs : SameBut msk s0 s)
    (hmsk : sub [.reqTabs] msk = true) :
    SameBut msk s0 (State.reqAdd s c ks) := by
  unfold State.reqAdd; try dsimp only
  repeat' first
    | with_reducible first
      | assumption | exact sub_trans hmsk rfl | apply SameBut.foldl | apply SameBut.foldl1
      | apply SameBut.foldlDev | apply SameBut.foldlMv | apply SameBut.foldlDn | apply State.updReqTab_same
    | intro _
    | split
    | dsimp only

theorem State.reqDrop_same {msk : List Fld} {s0 : State} {s : State} (c : _) (ks : _) (hs : SameBut msk s0 s)
    (hmsk : sub [.reqTabs] msk = true) :
    SameBut msk s0 (State.reqDrop s c ks) := by
  unfold State.reqDrop; try dsimp only
  repeat' first
    | with_reducible first
      | assumption | exact sub_trans hmsk rfl | apply SameBut.foldl | apply SameBut.foldl1
      | apply SameBut.foldlDev | apply SameBut.foldlMv | apply SameBut.foldlDn | apply State.updReqTab_same
    | intro _
    | split
    | dsimp only

theorem State.startUnit_same {msk : List Fld} {s0 : State} {s : State} (c : _) (d : _) (hs : SameBut msk s0 s)
    (hmsk : sub [.chans, .reqTabs] msk = true) :
    SameBut msk s0 (State.startUnit s c d) := by
  unfold State.startUnit; try dsimp only
  repeat' first
    | with_reducible first
      | assumption | exact sub_trans hmsk rfl | apply State.reqAdd_same | apply State.updChan_same
    | intro _
    | split
    | dsimp only

theorem State.pump_same {msk : List Fld} {s0 : State} {s : State} (c : _) (hs : SameBut msk s0 s)
    (hmsk : sub [.regs, .chans, .reqTabs] msk = true) :
    SameBut msk s0 (State.pump s c) := by
  unfold State.pump; try dsimp only
  repeat' first
    | with_reducible first
      | assumption | exact sub_trans hmsk rfl | apply State.setChan_same | apply State.startUnit_same
      | apply State.updChan_same | apply State.waitTake_same
    | intro _
    | split
    | dsimp only

theorem readElem_same {msk : List Fld} {s0 : State} {s : State} (c : _) (d : _) (n : _) (hs : SameBut msk s0 s)
    (hmsk : sub [.freeCtr, .regs, .slices, .dram, .chk, .errs, .cores, .cnts, .wire] msk = true) :
    SameBut msk s0 (readElem s c d n).st := by
  unfold readElem; try dsimp only
  repeat' first
    | with_reducible first
      | assumption | exact sub_trans hmsk rfl | apply State.devRead_same
    | intro _
    | split
    | dsimp only

theorem writeElem_same {msk : List Fld} {s0 : State} {s : State} (c : _) (d : _) (n : _) (data : _) (bad : _) (hs : SameBut msk s0 s)
    (hmsk : sub [.regs, .plots, .slices, .dram, .chk, .errs, .cores, .caches, .cnts, .wire] msk = true) :
    SameBut msk s0 (writeElem s c d n data bad).st := by
  unfold writeElem; try dsimp only
  repeat' first
    | with_reducible first
      | assumption | exact sub_trans hmsk rfl | apply State.devWeir_same | apply State.devWrite_same
      | apply State.updPlot_same
    | intro _
    | split
    | dsimp only

theorem moveElem_same {msk : List Fld} {s0 : State} {m : _} (c : _) (d : _) (n : _) (hm : SameBut msk s0 m.st)
    (hmsk : sub [.freeCtr, .regs, .plots, .slices, .dram, .chk, .errs, .cores, .caches, .cnts, .wire] msk = true) :
    SameBut msk s0 (moveElem m c d n).st := by
  unfold moveElem; try dsimp only
  repeat' first
    | with_reducible first
      | assumption | exact sub_trans hmsk rfl | apply State.freeBytes_same | apply State.setBit_same
      | apply readElem_same | apply writeElem_same
    | intro _
    | split
    | dsimp only

theorem moveElems_same {msk : List Fld} {s0 : State} {s : State} (c : _) (d : _) (n : _) (cnt : _) (hs : SameBut msk s0 s)
    (hmsk : sub [.freeCtr, .regs, .plots, .slices, .dram, .chk, .errs, .cores, .caches, .cnts, .wire] msk = true) :
    SameBut msk s0 (moveElems s c d n cnt).st := by
  unfold moveElems; try dsimp only
  repeat' first
    | with_reducible first
      | assumption | exact sub_trans hmsk rfl | apply SameBut.foldl | apply SameBut.foldl1
      | apply SameBut.foldlDev | apply SameBut.foldlMv | apply SameBut.foldlDn | apply moveElem_same
    | intro _
    | split
    | dsimp only

theorem State.fillOut_same {msk : List Fld} {s0 : State} {s : State} (c : _) (hs : SameBut msk s0 s)
    (hmsk : sub [.freeCtr, .regs, .chans, .slices, .dram, .chk, .errs, .cores, .cnts, .wire] msk = true) :
    SameBut msk s0 (State.fillOut s c) := by
  unfold State.fillOut; try dsimp only
  repeat' first
    | with_reducible first
      | assumption | exact sub_trans hmsk rfl | apply SameBut.foldl | apply SameBut.foldl1
      | apply SameBut.foldlDev | apply SameBut.foldlMv | apply SameBut.foldlDn | apply State.setBit_same
      | apply State.updChan_same | apply readElem_same
    | intro _
    | split
    | dsimp only

theorem State.readyChans_same {msk : List Fld} {s0 : State} {s : State} (k : _) (hs : SameBut msk s0 s)
    (hmsk : sub [.freeCtr, .regs, .chans, .slices, .dram, .chk, .reqTabs, .errs, .cores, .cnts, .wire] msk = true) :
    SameBut msk s0 (State.readyChans s k) := by
  unfold State.readyChans; try dsimp only
  repeat' first
    | with_reducible first
      | assumption | exact sub_trans hmsk rfl | apply SameBut.foldl | apply SameBut.foldl1
      | apply SameBut.foldlDev | apply SameBut.foldlMv | apply SameBut.foldlDn | apply State.fillOut_same
      | apply State.pump_same
    | intro _
    | split
    | dsimp only

theorem State.countUnit_same {msk : List Fld} {s0 : State} {s : State} (c : _) (d : _) (n : _) (cnt : _) (hs : SameBut msk s0 s)
    (hmsk : sub [.regs, .cnts] msk = true) :
    SameBut msk s0 (State.countUnit s c d n cnt) := by
  unfold State.countUnit; try dsimp only
  repeat' first
    | with_reducible first
      | assumption | exact sub_trans hmsk rfl | apply State.countChan_same
    | intro _
    | split
    | dsimp only

theorem State.iodRecord_same {msk : List Fld} {s0 : State} {s : State} (c : _) (r : _) (hs : SameBut msk s0 s)
    (hmsk : sub [.chans] msk = true) :
    SameBut msk s0 (State.iodRecord s c r) := by
  unfold State.iodRecord; try dsimp only
  repeat' first
    | with_reducible first
      | assumption | exact sub_trans hmsk rfl | apply State.setChan_same
    | intro _
    | split
    | dsimp only

theorem State.refillChan_same {msk : List Fld} {s0 : State} {s : State} (c : _) (x2 : _) (hs : SameBut msk s0 s)
    (hmsk : sub [.chans, .rings] msk = true) :
    SameBut msk s0 (State.refillChan s c x2) := by
  induction x2 generalizing s with
  | zero =>
    unfold State.refillChan; try dsimp only
    repeat' first
      | with_reducible first
        | assumption | exact sub_trans hmsk rfl | apply State.updChan_same | apply State.updCmd_same
      | intro _
      | split
      | dsimp only
  | succ _ ih =>
    unfold State.refillChan; try dsimp only
    repeat' first
      | with_reducible first
        | assumption | exact sub_trans hmsk rfl | apply State.updChan_same | apply State.updCmd_same | apply ih
      | intro _
      | split
      | dsimp only

theorem State.jobDone_same {msk : List Fld} {s0 : State} {s : State} (g : _) (id : _) (status : _) (bytes : _) (hs : SameBut msk s0 s)
    (hmsk : sub [.rings, .cores, .wire] msk = true) :
    SameBut msk s0 (State.jobDone s g id status bytes) := by
  unfold State.jobDone; try dsimp only
  repeat' first
    | with_reducible first
      | assumption | exact sub_trans hmsk rfl | apply State.finishCmd_same | apply State.updCmd_same
    | intro _
    | split
    | dsimp only

theorem State.iodSignal_same {msk : List Fld} {s0 : State} {s : State} (c : _) (d : _) (status : _) (hs : SameBut msk s0 s)
    (hmsk : sub [.net] msk = true) :
    SameBut msk s0 (State.iodSignal s c d status) := by
  unfold State.iodSignal; try dsimp only
  repeat' first
    | with_reducible first
      | assumption | exact sub_trans hmsk rfl | apply State.inject_same
    | intro _
    | split
    | dsimp only

theorem State.iodEnd_same {msk : List Fld} {s0 : State} {s : State} (c : _) (d : _) (job : _) (status : _) (bytes : _) (rejected : _) (hs : SameBut msk s0 s)
    (hmsk : sub [.chans, .net, .rings, .cores, .wire] msk = true) :
    SameBut msk s0 (State.iodEnd s c d job status bytes rejected) := by
  unfold State.iodEnd; try dsimp only
  repeat' first
    | with_reducible first
      | assumption | exact sub_trans hmsk rfl | apply State.iodRecord_same | apply State.iodSignal_same
      | apply State.jobDone_same
    | intro _
    | split
    | dsimp only

theorem State.takeDesc_same {msk : List Fld} {s0 : State} {s : State} (c : _) (d : _) (job : _) (hs : SameBut msk s0 s)
    (hmsk : sub [.regs, .chans, .reqTabs] msk = true) :
    SameBut msk s0 (State.takeDesc s c d job) := by
  unfold State.takeDesc; try dsimp only
  repeat' first
    | with_reducible first
      | assumption | exact sub_trans hmsk rfl | apply State.pump_same | apply State.updChan_same
    | intro _
    | split
    | dsimp only

theorem State.iodNext_same {msk : List Fld} {s0 : State} {s : State} (c : _) (x2 : _) (hs : SameBut msk s0 s)
    (hmsk : sub [.regs, .chans, .net, .reqTabs, .rings, .cores, .wire] msk = true) :
    SameBut msk s0 (State.iodNext s c x2) := by
  induction x2 generalizing s with
  | zero =>
    unfold State.iodNext; try dsimp only
    repeat' first
      | with_reducible first
        | assumption | exact sub_trans hmsk rfl | apply State.iodEnd_same | apply State.refillChan_same
        | apply State.setChan_same | apply State.takeDesc_same
      | intro _
      | split
      | dsimp only
  | succ _ ih =>
    unfold State.iodNext; try dsimp only
    repeat' first
      | with_reducible first
        | assumption | exact sub_trans hmsk rfl | apply State.iodEnd_same | apply State.refillChan_same
        | apply State.setChan_same | apply State.takeDesc_same | apply ih
      | intro _
      | split
      | dsimp only

theorem handoff_same {msk : List Fld} {s0 : State} (k : _) {s : State} (hs : SameBut msk s0 s)
    (hmsk : sub [.regs, .plots, .chans, .reqTabs] msk = true) :
    SameBut msk s0 (handoff k s) := by
  unfold handoff; try dsimp only
  repeat' first
    | with_reducible first
      | assumption | exact sub_trans hmsk rfl | apply State.rejectHold_same | apply State.takeDesc_same
      | apply State.updQueue_same
    | intro _
    | split
    | dsimp only

theorem State.clearChan_same {msk : List Fld} {s0 : State} {s : State} (c : _) (hs : SameBut msk s0 s)
    (hmsk : sub [.chans, .reqTabs] msk = true) :
    SameBut msk s0 (State.clearChan s c) := by
  unfold State.clearChan; try dsimp only
  repeat' first
    | with_reducible first
      | assumption | exact sub_trans hmsk rfl | apply State.reqDrop_same | apply State.updChan_same
    | intro _
    | split
    | dsimp only

theorem State.endDesc_same {msk : List Fld} {s0 : State} {s : State} (c : _) (status : _) (hs : SameBut msk s0 s)
    (hmsk : sub [.regs, .plots, .chans, .net, .reqTabs, .parts, .rings, .cores, .dbg, .cnts, .wire] msk = true) :
    SameBut msk s0 (State.endDesc s c status) := by
  unfold State.endDesc; try dsimp only
  repeat' first
    | with_reducible first
      | assumption | exact sub_trans hmsk rfl | apply State.clearChan_same | apply State.complete_same
      | apply State.iodEnd_same | apply State.iodNext_same | apply handoff_same
    | intro _
    | split
    | dsimp only

theorem State.followers_same {msk : List Fld} {s0 : State} {s : State} (c : _) (hs : SameBut msk s0 s)
    (hmsk : sub [.regs, .chans, .reqTabs] msk = true) :
    SameBut msk s0 (State.followers s c) := by
  unfold State.followers; try dsimp only
  repeat' first
    | with_reducible first
      | assumption | exact sub_trans hmsk rfl | apply SameBut.foldl | apply SameBut.foldl1
      | apply SameBut.foldlDev | apply SameBut.foldlMv | apply SameBut.foldlDn | apply State.addGo_same
      | apply State.pump_same
    | intro _
    | split
    | dsimp only

theorem State.notify_same {msk : List Fld} {s0 : State} {s : State} (c : _) (d : _) (hs : SameBut msk s0 s)
    (hmsk : sub [.regs, .net, .cnts] msk = true) :
    SameBut msk s0 (State.notify s c d) := by
  unfold State.notify; try dsimp only
  repeat' first
    | with_reducible first
      | assumption | exact sub_trans hmsk rfl | apply State.plotToken_same
    | intro _
    | split
    | dsimp only

/-! ### Noria -/

theorem State.winRecord_same {msk : List Fld} {s0 : State} {s : State} (n : _) (r : _) (hs : SameBut msk s0 s)
    (hmsk : sub [.parts, .cores, .wire] msk = true) :
    SameBut msk s0 (State.winRecord s n r) := by
  unfold State.winRecord; try dsimp only
  repeat' first
    | with_reducible first
      | assumption | exact sub_trans hmsk rfl | apply State.msix_same | apply State.updPart_same
    | intro _
    | split
    | dsimp only

theorem State.norJob_same {msk : List Fld} {s0 : State} {s : State} (g : _) (id : _) (i : _) (status : _) (hs : SameBut msk s0 s)
    (hmsk : sub [.rings, .cores, .wire] msk = true) :
    SameBut msk s0 (State.norJob s g id i status) := by
  unfold State.norJob; try dsimp only
  repeat' first
    | with_reducible first
      | assumption | exact sub_trans hmsk rfl | apply State.finishCmd_same | apply State.updCmd_same
    | intro _
    | split
    | dsimp only

theorem State.refillWin_same {msk : List Fld} {s0 : State} {s : State} (n : _) (x2 : _) (hs : SameBut msk s0 s)
    (hmsk : sub [.parts, .rings] msk = true) :
    SameBut msk s0 (State.refillWin s n x2) := by
  induction x2 generalizing s with
  | zero =>
    unfold State.refillWin; try dsimp only
    repeat' first
      | with_reducible first
        | assumption | exact sub_trans hmsk rfl | apply State.updCmd_same | apply State.updPart_same
      | intro _
      | split
      | dsimp only
  | succ _ ih =>
    unfold State.refillWin; try dsimp only
    repeat' first
      | with_reducible first
        | assumption | exact sub_trans hmsk rfl | apply State.updCmd_same | apply State.updPart_same | apply ih
      | intro _
      | split
      | dsimp only

theorem State.winDone_same {msk : List Fld} {s0 : State} {s : State} (n : _) (seq : _) (status : _) (rejected : _) (hs : SameBut msk s0 s)
    (hmsk : sub [.net, .parts, .rings, .cores, .wire] msk = true) :
    SameBut msk s0 (State.winDone s n seq status rejected) := by
  unfold State.winDone; try dsimp only
  repeat' first
    | with_reducible first
      | assumption | exact sub_trans hmsk rfl | apply State.inject_same | apply State.norJob_same
      | apply State.updPart_same | apply State.winRecord_same
    | intro _
    | split
    | dsimp only

theorem State.plotNorDone_same {msk : List Fld} {s0 : State} {s : State} (k : _) (seq : _) (status : _) (rejected : _) (hs : SameBut msk s0 s)
    (hmsk : sub [.regs, .plots, .net, .parts, .dbg, .cnts] msk = true) :
    SameBut msk s0 (State.plotNorDone s k seq status rejected) := by
  unfold State.plotNorDone; try dsimp only
  repeat' first
    | with_reducible first
      | assumption | exact sub_trans hmsk rfl | apply State.complete_same | apply State.rejectHold_same
      | apply State.updPlot_same
    | intro _
    | split
    | dsimp only

theorem State.norDone_same {msk : List Fld} {s0 : State} {s : State} (src : _) (status : _) (rejected : _) (hs : SameBut msk s0 s)
    (hmsk : sub [.regs, .plots, .net, .parts, .rings, .cores, .dbg, .cnts, .wire] msk = true) :
    SameBut msk s0 (State.norDone s src status rejected) := by
  unfold State.norDone; try dsimp only
  repeat' first
    | with_reducible first
      | assumption | exact sub_trans hmsk rfl | apply State.plotNorDone_same | apply State.winDone_same
    | intro _
    | split
    | dsimp only

theorem norDispatch_same {msk : List Fld} {s0 : State} {s : State} (k : _) (hs : SameBut msk s0 s)
    (hmsk : sub [.regs, .plots] msk = true) :
    SameBut msk s0 (norDispatch s k) := by
  unfold norDispatch; try dsimp only
  repeat' first
    | with_reducible first
      | assumption | exact sub_trans hmsk rfl | apply State.updPlot_same | apply State.updQueue_same
      | apply State.waitTake_same
    | intro _
    | split
    | dsimp only

theorem execNoriaDispatch_same {msk : List Fld} {s0 : State} (p : _) {s : State} (hs : SameBut msk s0 s)
    (hmsk : sub [.regs, .plots] msk = true) :
    OutSame msk s0 (execNoriaDispatch p s) := by
  unfold execNoriaDispatch; try dsimp only
  repeat' first
    | with_reducible first
      | assumption | exact sub_trans hmsk rfl | apply OutSame.next | apply norDispatch_same
    | intro _
    | split
    | dsimp only

theorem State.winSend_same {msk : List Fld} {s0 : State} {s : State} (n : _) (seq : _) (hs : SameBut msk s0 s)
    (hmsk : sub [.parts, .rings] msk = true) :
    SameBut msk s0 (State.winSend s n seq) := by
  unfold State.winSend; try dsimp only
  repeat' first
    | with_reducible first
      | assumption | exact sub_trans hmsk rfl | apply State.refillWin_same | apply State.updPart_same
    | intro _
    | split
    | dsimp only

theorem State.norWay_same {msk : List Fld} {s0 : State} {s : State} (src : _) (from_ : _) (w : _) (hs : SameBut msk s0 s)
    (hmsk : sub [.plots, .parts] msk = true) :
    SameBut msk s0 (State.norWay s src from_ w) := by
  unfold State.norWay; try dsimp only
  repeat' first
    | with_reducible first
      | assumption | exact sub_trans hmsk rfl | apply State.updPart_same | apply State.updPlot_same
    | intro _
    | split
    | dsimp only

theorem norArrive_same {msk : List Fld} {s0 : State} (src : _) {s : State} (hs : SameBut msk s0 s)
    (hmsk : sub [.regs, .plots, .norias, .net, .parts, .rings, .cores, .dbg, .cnts, .wire] msk = true) :
    SameBut msk s0 (norArrive src s) := by
  unfold norArrive; try dsimp only
  repeat' first
    | with_reducible first
      | assumption | exact sub_trans hmsk rfl | apply State.count_same | apply State.norDone_same
      | apply State.norWay_same | apply State.updNor_same
    | intro _
    | split
    | dsimp only

theorem norLeave_same {msk : List Fld} {s0 : State} (src : _) {s : State} (hs : SameBut msk s0 s)
    (hmsk : sub [.parts, .rings] msk = true) :
    SameBut msk s0 (norLeave src s) := by
  unfold norLeave; try dsimp only
  repeat' first
    | with_reducible first
      | assumption | exact sub_trans hmsk rfl | apply State.winSend_same
    | intro _
    | split
    | dsimp only

theorem execNoriaCmdArrive_same {msk : List Fld} {s0 : State} (src : _) {s : State} (hs : SameBut msk s0 s)
    (hmsk : sub [.regs, .plots, .norias, .net, .parts, .rings, .cores, .dbg, .cnts, .wire] msk = true) :
    OutSame msk s0 (execNoriaCmdArrive src s) := by
  unfold execNoriaCmdArrive; try dsimp only
  repeat' first
    | with_reducible first
      | assumption | exact sub_trans hmsk rfl | apply OutSame.next | apply norArrive_same | apply norLeave_same
    | intro _
    | split
    | dsimp only

theorem execNoriaRetryResend_same {msk : List Fld} {s0 : State} (src : _) {s : State} (hs : SameBut msk s0 s)
    (hmsk : sub [.plots, .parts] msk = true) :
    OutSame msk s0 (execNoriaRetryResend src s) := by
  unfold execNoriaRetryResend; try dsimp only
  repeat' first
    | with_reducible first
      | assumption | exact sub_trans hmsk rfl | apply OutSame.next | apply State.norWay_same
    | intro _
    | split
    | dsimp only

theorem execBankPermitGrant_same {msk : List Fld} {s0 : State} (p : _) (bank : _) {s : State} (hs : SameBut msk s0 s)
    (hmsk : sub [.regs, .norias, .cnts] msk = true) :
    OutSame msk s0 (execBankPermitGrant p bank s) := by
  unfold execBankPermitGrant; try dsimp only
  repeat' first
    | with_reducible first
      | assumption | exact sub_trans hmsk rfl | apply OutSame.next | apply State.count_same
      | apply State.updNor_same
    | intro _
    | split
    | dsimp only

theorem State.releasePermit_same {msk : List Fld} {s0 : State} {s : State} (k : _) (b : _) (hs : SameBut msk s0 s)
    (hmsk : sub [.norias, .stks] msk = true) :
    SameBut msk s0 (State.releasePermit s k b) := by
  unfold State.releasePermit; try dsimp only
  repeat' first
    | with_reducible first
      | assumption | exact sub_trans hmsk rfl | apply State.updNor_same | apply State.updStk_same
    | intro _
    | split
    | dsimp only

theorem execNoriaStepStart_same {msk : List Fld} {s0 : State} (p : _) (bank : _) {s : State} (hs : SameBut msk s0 s)
    (hmsk : sub [.norias] msk = true) :
    OutSame msk s0 (execNoriaStepStart p bank s) := by
  unfold execNoriaStepStart; try dsimp only
  repeat' first
    | with_reducible first
      | assumption | exact sub_trans hmsk rfl | apply OutSame.next | apply State.updNor_same
    | intro _
    | split
    | dsimp only

theorem State.norRead_same {msk : List Fld} {s0 : State} {s : State} (k : _) (b : _) (bl : _) (len : _) (hs : SameBut msk s0 s)
    (hmsk : sub [.regs, .slices, .dram, .chk, .errs, .cores, .cnts, .wire] msk = true) :
    SameBut msk s0 (State.norRead s k b bl len) := by
  unfold State.norRead; try dsimp only
  repeat' first
    | with_reducible first
      | assumption | exact sub_trans hmsk rfl | apply SameBut.foldl | apply SameBut.foldl1
      | apply SameBut.foldlDev | apply SameBut.foldlMv | apply SameBut.foldlDn | apply readWord_same
    | intro _
    | split
    | dsimp only

theorem State.norRecord_same {msk : List Fld} {s0 : State} {s : State} (k : _) (b : _) (tag : _) (lo : _) (hi : _) (fresh : _) (hs : SameBut msk s0 s)
    (hmsk : sub [.regs] msk = true) :
    SameBut msk s0 (State.norRecord s k b tag lo hi fresh) := by
  unfold State.norRecord; try dsimp only
  repeat' first
    | with_reducible first
      | assumption | exact sub_trans hmsk rfl | apply State.setReg_same
    | intro _
    | split
    | dsimp only

theorem norWriteWord_same {msk : List Fld} {s0 : State} {x : _} (k : _) (b : _) (tag : _) (u : _) (lo : _) (bs : _) (bad : _) (hx : SameBut msk s0 x.1)
    (hmsk : sub [.regs, .slices, .dram, .chk, .errs, .cores, .cnts, .wire] msk = true) :
    SameBut msk s0 (norWriteWord x k b tag u lo bs bad).1 := by
  unfold norWriteWord; try dsimp only
  repeat' first
    | with_reducible first
      | assumption | exact sub_trans hmsk rfl | apply State.count_same | apply State.norRecord_same
      | apply writeWord_same
    | intro _
    | split
    | dsimp only

theorem norWriteRun_same {msk : List Fld} {s0 : State} {x : _} (k : _) (b : _) (tag : _) (w : _) (hx : SameBut msk s0 x.1)
    (hmsk : sub [.regs, .slices, .dram, .chk, .errs, .cores, .cnts, .wire] msk = true) :
    SameBut msk s0 (norWriteRun x k b tag w).1 := by
  unfold norWriteRun; try dsimp only
  repeat' first
    | with_reducible first
      | assumption | exact sub_trans hmsk rfl | apply SameBut.foldl | apply SameBut.foldl1
      | apply SameBut.foldlDev | apply SameBut.foldlMv | apply SameBut.foldlDn | apply norWriteWord_same
    | intro _
    | split
    | dsimp only

theorem State.updNorCmd_same {msk : List Fld} {s0 : State} {s : State} (k : _) (src : _) (f : _) (hs : SameBut msk s0 s)
    (hmsk : sub [.norias] msk = true) :
    SameBut msk s0 (State.updNorCmd s k src f) := by
  unfold State.updNorCmd; try dsimp only
  repeat' first
    | with_reducible first
      | assumption | exact sub_trans hmsk rfl | apply State.updNor_same
    | intro _
    | split
    | dsimp only

theorem State.norFinish_same {msk : List Fld} {s0 : State} {s : State} (k : _) (src : _) (hs : SameBut msk s0 s)
    (hmsk : sub [.regs, .plots, .norias, .net, .parts, .rings, .cores, .dbg, .cnts, .wire] msk = true) :
    SameBut msk s0 (State.norFinish s k src) := by
  unfold State.norFinish; try dsimp only
  repeat' first
    | with_reducible first
      | assumption | exact sub_trans hmsk rfl | apply State.count_same | apply State.norDone_same
      | apply State.updNor_same
    | intro _
    | split
    | dsimp only

theorem runStep_same {msk : List Fld} {s0 : State} {s : State} (k : _) (b : _) (c : _) (hs : SameBut msk s0 s)
    (hmsk : sub [.regs, .slices, .norias, .dram, .chk, .errs, .cores, .cnts, .wire] msk = true) :
    SameBut msk s0 (runStep s k b c) := by
  unfold runStep; try dsimp only
  repeat' first
    | with_reducible first
      | assumption | exact sub_trans hmsk rfl | apply SameBut.foldl | apply SameBut.foldl1
      | apply SameBut.foldlDev | apply SameBut.foldlMv | apply SameBut.foldlDn | apply State.count_same
      | apply State.norRead_same | apply State.updNorCmd_same | apply norWriteRun_same
    | intro _
    | split
    | dsimp only

theorem stepEnd_same {msk : List Fld} {s0 : State} (k : _) (b : _) {s : State} (hs : SameBut msk s0 s)
    (hmsk : sub [.regs, .plots, .slices, .norias, .dram, .chk, .net, .stks, .parts, .rings, .errs, .cores, .caches, .dbg, .cnts, .wire] msk = true) :
    SameBut msk s0 (stepEnd k b s) := by
  unfold stepEnd; try dsimp only
  repeat' first
    | with_reducible first
      | assumption | exact sub_trans hmsk rfl | apply State.norFinish_same | apply State.releasePermit_same
      | apply State.serveWaiting_same | apply State.updNor_same | apply runStep_same
    | intro _
    | split
    | dsimp only

theorem execNoriaStepEnd_same {msk : List Fld} {s0 : State} (p : _) (bank : _) {s : State} (hs : SameBut msk s0 s)
    (hmsk : sub [.regs, .plots, .slices, .norias, .dram, .chk, .net, .stks, .parts, .rings, .errs, .cores, .caches, .dbg, .cnts, .wire] msk = true) :
    OutSame msk s0 (execNoriaStepEnd p bank s) := by
  unfold execNoriaStepEnd; try dsimp only
  repeat' first
    | with_reducible first
      | assumption | exact sub_trans hmsk rfl | apply OutSame.next | apply stepEnd_same
    | intro _
    | split
    | dsimp only

theorem State.norStopCmd_same {msk : List Fld} {s0 : State} {s : State} (k : _) (status : _) (src : _) (hs : SameBut msk s0 s)
    (hmsk : sub [.regs, .plots, .norias, .net, .parts, .rings, .cores, .dbg, .cnts, .wire] msk = true) :
    SameBut msk s0 (State.norStopCmd s k status src) := by
  unfold State.norStopCmd; try dsimp only
  repeat' first
    | with_reducible first
      | assumption | exact sub_trans hmsk rfl | apply SameBut.foldl | apply SameBut.foldl1
      | apply SameBut.foldlDev | apply SameBut.foldlMv | apply SameBut.foldlDn | apply State.norFinish_same
      | apply State.updNorCmd_same
    | intro _
    | split
    | dsimp only

theorem State.norStop_same {msk : List Fld} {s0 : State} {s : State} (k : _) (sel : _) (status : _) (hs : SameBut msk s0 s)
    (hmsk : sub [.regs, .plots, .norias, .net, .stks, .parts, .rings, .cores, .dbg, .cnts, .wire] msk = true) :
    SameBut msk s0 (State.norStop s k sel status) := by
  unfold State.norStop; try dsimp only
  repeat' first
    | with_reducible first
      | assumption | exact sub_trans hmsk rfl | apply SameBut.foldl | apply SameBut.foldl1
      | apply SameBut.foldlDev | apply SameBut.foldlMv | apply SameBut.foldlDn | apply State.norStopCmd_same
      | apply State.releasePermit_same
    | intro _
    | split
    | dsimp only

theorem State.norUnsent_same {msk : List Fld} {s0 : State} {s : State} (p : _) (status : _) (hs : SameBut msk s0 s)
    (hmsk : sub [.regs, .plots, .net, .parts, .dbg, .cnts] msk = true) :
    SameBut msk s0 (State.norUnsent s p status) := by
  unfold State.norUnsent; try dsimp only
  repeat' first
    | with_reducible first
      | assumption | exact sub_trans hmsk rfl | apply SameBut.foldl | apply SameBut.foldl1
      | apply SameBut.foldlDev | apply SameBut.foldlMv | apply SameBut.foldlDn | apply State.plotNorDone_same
    | intro _
    | split
    | dsimp only

theorem State.norStopPlot_same {msk : List Fld} {s0 : State} {s : State} (p : _) (status : _) (hs : SameBut msk s0 s)
    (hmsk : sub [.regs, .plots, .norias, .net, .stks, .parts, .rings, .cores, .dbg, .cnts, .wire] msk = true) :
    SameBut msk s0 (State.norStopPlot s p status) := by
  unfold State.norStopPlot; try dsimp only
  repeat' first
    | with_reducible first
      | assumption | exact sub_trans hmsk rfl | apply SameBut.foldl | apply SameBut.foldl1
      | apply SameBut.foldlDev | apply SameBut.foldlMv | apply SameBut.foldlDn | apply State.norStop_same
      | apply State.norUnsent_same
    | intro _
    | split
    | dsimp only

theorem State.norFence_same {msk : List Fld} {s0 : State} {s : State} (p : _) (hs : SameBut msk s0 s)
    (hmsk : sub [.regs, .plots, .norias, .net, .stks, .parts, .rings, .cores, .dbg, .cnts, .wire] msk = true) :
    SameBut msk s0 (State.norFence s p) := by
  unfold State.norFence; try dsimp only
  repeat' first
    | with_reducible first
      | assumption | exact sub_trans hmsk rfl | apply SameBut.foldl | apply SameBut.foldl1
      | apply SameBut.foldlDev | apply SameBut.foldlMv | apply SameBut.foldlDn | apply State.norStop_same
      | apply State.updPlot_same
    | intro _
    | split
    | dsimp only

theorem State.norStopWindow_same {msk : List Fld} {s0 : State} {s : State} (n : _) (status : _) (hs : SameBut msk s0 s)
    (hmsk : sub [.regs, .plots, .norias, .net, .stks, .parts, .rings, .cores, .dbg, .cnts, .wire] msk = true) :
    SameBut msk s0 (State.norStopWindow s n status) := by
  unfold State.norStopWindow; try dsimp only
  repeat' first
    | with_reducible first
      | assumption | exact sub_trans hmsk rfl | apply SameBut.foldl | apply SameBut.foldl1
      | apply SameBut.foldlDev | apply SameBut.foldlMv | apply SameBut.foldlDn | apply State.norStop_same
      | apply State.updPart_same | apply State.winDone_same
    | intro _
    | split
    | dsimp only

theorem State.startXchk_same {msk : List Fld} {s0 : State} {s : State} (k : _) (mask : _) (mgmt : _) (hs : SameBut msk s0 s)
    (hmsk : sub [.regs, .norias] msk = true) :
    SameBut msk s0 (State.startXchk s k mask mgmt) := by
  unfold State.startXchk; try dsimp only
  repeat' first
    | with_reducible first
      | assumption | exact sub_trans hmsk rfl | apply State.setFld_same | apply State.updNor_same
    | intro _
    | split
    | dsimp only

theorem execNoriaXchkPeriod_same {msk : List Fld} {s0 : State} (p : _) {s : State} (hs : SameBut msk s0 s)
    (hmsk : sub [.regs, .norias] msk = true) :
    OutSame msk s0 (execNoriaXchkPeriod p s) := by
  unfold execNoriaXchkPeriod; try dsimp only
  repeat' first
    | with_reducible first
      | assumption | exact sub_trans hmsk rfl | apply OutSame.next | apply State.startXchk_same
    | intro _
    | split
    | dsimp only

theorem xchkGo_same {msk : List Fld} {s0 : State} (r : _) (k : _) (v : _) {s : State} (hs : SameBut msk s0 s)
    (hmsk : sub [.regs, .norias] msk = true) :
    SameBut msk s0 (xchkGo r k v s) := by
  unfold xchkGo; try dsimp only
  repeat' first
    | with_reducible first
      | assumption | exact sub_trans hmsk rfl | apply State.startXchk_same
    | intro _
    | split
    | dsimp only

theorem execNoriaXchkGo_same {msk : List Fld} {s0 : State} (r : _) (p : _) (v : _) {s : State} (hs : SameBut msk s0 s)
    (hmsk : sub [.regs, .norias, .cores, .dbg, .cnts] msk = true) :
    OutSame msk s0 (execNoriaXchkGo r p v s) := by
  unfold execNoriaXchkGo; try dsimp only
  repeat' first
    | with_reducible first
      | assumption | exact sub_trans hmsk rfl | apply OutSame.next | apply State.access_same | apply xchkGo_same
    | intro _
    | split
    | dsimp only

theorem xchkResult_same {msk : List Fld} {s0 : State} (k : _) (b : _) (same : _) {s : State} (hs : SameBut msk s0 s)
    (hmsk : sub [.regs, .errs, .cores, .wire] msk = true) :
    SameBut msk s0 (xchkResult k b same s) := by
  unfold xchkResult; try dsimp only
  repeat' first
    | with_reducible first
      | assumption | exact sub_trans hmsk rfl | apply State.addFld_same | apply State.clrBit_same
      | apply State.irq_same | apply State.report_same | apply State.setBit_same
    | intro _
    | split
    | dsimp only

theorem xchkDone_same {msk : List Fld} {s0 : State} (k : _) (b : _) (same : _) {s : State} (hs : SameBut msk s0 s)
    (hmsk : sub [.regs, .norias, .errs, .cores, .cnts, .wire] msk = true) :
    SameBut msk s0 (xchkDone k b same s) := by
  unfold xchkDone; try dsimp only
  repeat' first
    | with_reducible first
      | assumption | exact sub_trans hmsk rfl | apply State.count_same | apply State.setFld_same
      | apply State.updNor_same | apply xchkResult_same
    | intro _
    | split
    | dsimp only

theorem execNoriaXchkDone_same {msk : List Fld} {s0 : State} (p : _) (bank : _) (same : _) {s : State} (hs : SameBut msk s0 s)
    (hmsk : sub [.regs, .norias, .errs, .cores, .cnts, .wire] msk = true) :
    OutSame msk s0 (execNoriaXchkDone p bank same s) := by
  unfold execNoriaXchkDone; try dsimp only
  repeat' first
    | with_reducible first
      | assumption | exact sub_trans hmsk rfl | apply OutSame.next | apply xchkDone_same
    | intro _
    | split
    | dsimp only

/-! ### Fabric -/

theorem State.dropToken_same {msk : List Fld} {s0 : State} {s : State} (k : _) (m : _) (src : _) (counted : _) (hs : SameBut msk s0 s)
    (hmsk : sub [.regs, .cnts] msk = true) :
    SameBut msk s0 (State.dropToken s k m src counted) := by
  unfold State.dropToken; try dsimp only
  repeat' first
    | with_reducible first
      | assumption | exact sub_trans hmsk rfl | apply State.count_same | apply State.rhErr_same
    | intro _
    | split
    | dsimp only

theorem State.tokenIn_same {msk : List Fld} {s0 : State} {s : State} (k : _) (src : _) (m : _) (counted : _) (tallied : _) (f : _) (hs : SameBut msk s0 s) (hf : ∀ u, SameBut msk s0 u → SameBut msk s0 (f u))
    (hmsk : sub [.regs, .net, .dbg, .cnts] msk = true) :
    SameBut msk s0 (State.tokenIn s k src m counted tallied f) := by
  unfold State.tokenIn; try dsimp only
  repeat' first
    | with_reducible first
      | assumption | exact sub_trans hmsk rfl | apply hf | apply State.arrived_same | apply State.count_same
      | apply State.dropToken_same | apply State.holdMsg_same
    | intro _
    | split
    | dsimp only

theorem badToken_same {msk : List Fld} {s0 : State} (k : _) {s : State} (hs : SameBut msk s0 s)
    (hmsk : sub [.regs, .cnts] msk = true) :
    SameBut msk s0 (badToken k s) := by
  unfold badToken; try dsimp only
  repeat' first
    | with_reducible first
      | assumption | exact sub_trans hmsk rfl | apply State.count_same | apply State.irq_same
    | intro _
    | split
    | dsimp only

theorem execAddToken_same {msk : List Fld} {s0 : State} (p : _) (src : _) (ctr : _) (amount : _) {s : State} (hs : SameBut msk s0 s)
    (hmsk : sub [.regs, .net, .dbg, .cnts] msk = true) :
    OutSame msk s0 (execAddToken p src ctr amount s) := by
  unfold execAddToken; try dsimp only
  repeat' first
    | with_reducible first
      | assumption | exact sub_trans hmsk rfl | apply OutSame.next | apply State.noteItem_same
      | apply State.tokArrive_same | apply State.tokenIn_same | apply badToken_same
    | intro _
    | split
    | dsimp only

theorem addCredit_same {msk : List Fld} {s0 : State} (k : _) (src : _) (sl : _) (n : _) {s : State} (hs : SameBut msk s0 s)
    (hmsk : sub [.regs, .cnts] msk = true) :
    SameBut msk s0 (addCredit k src sl n s) := by
  unfold addCredit; try dsimp only
  repeat' first
    | with_reducible first
      | assumption | exact sub_trans hmsk rfl | apply State.irq_same | apply State.rhErr_same
      | apply State.setFld_same
    | intro _
    | split
    | dsimp only

theorem execCreditToken_same {msk : List Fld} {s0 : State} (p : _) (src : _) (slot : _) (n : _) {s : State} (hs : SameBut msk s0 s)
    (hmsk : sub [.regs, .net, .dbg, .cnts] msk = true) :
    OutSame msk s0 (execCreditToken p src slot n s) := by
  unfold execCreditToken; try dsimp only
  repeat' first
    | with_reducible first
      | assumption | exact sub_trans hmsk rfl | apply OutSame.next | apply State.tokenIn_same
      | apply addCredit_same
    | intro _
    | split
    | dsimp only

theorem State.dropRows_same {msk : List Fld} {s0 : State} {s : State} (k : _) (sl : _) (hs : SameBut msk s0 s)
    (hmsk : sub [.regs, .plots, .net, .parts, .dbg, .cnts] msk = true) :
    SameBut msk s0 (State.dropRows s k sl) := by
  unfold State.dropRows; try dsimp only
  repeat' first
    | with_reducible first
      | assumption | exact sub_trans hmsk rfl | apply SameBut.foldl | apply SameBut.foldl1
      | apply SameBut.foldlDev | apply SameBut.foldlMv | apply SameBut.foldlDn | apply State.updArr_same
      | apply rowDone_same
    | intro _
    | split
    | dsimp only

theorem fenceSlot_same {msk : List Fld} {s0 : State} (k : _) (sl : _) {s : State} (hs : SameBut msk s0 s)
    (hmsk : sub [.regs, .plots, .chans, .net, .parts, .dbg, .cnts] msk = true) :
    SameBut msk s0 (fenceSlot k sl s) := by
  unfold fenceSlot; try dsimp only
  repeat' first
    | with_reducible first
      | assumption | exact sub_trans hmsk rfl | apply SameBut.foldl | apply SameBut.foldl1
      | apply SameBut.foldlDev | apply SameBut.foldlMv | apply SameBut.foldlDn | apply State.count_same
      | apply State.dropRows_same | apply State.setBit_same | apply State.updChan_same
    | intro _
    | split
    | dsimp only

theorem execFencedToken_same {msk : List Fld} {s0 : State} (p : _) (src : _) (slot : _) {s : State} (hs : SameBut msk s0 s)
    (hmsk : sub [.regs, .plots, .chans, .net, .parts, .dbg, .cnts] msk = true) :
    OutSame msk s0 (execFencedToken p src slot s) := by
  unfold execFencedToken; try dsimp only
  repeat' first
    | with_reducible first
      | assumption | exact sub_trans hmsk rfl | apply OutSame.next | apply State.arrived_same
      | apply State.count_same | apply State.holdMsg_same | apply fenceSlot_same
    | intro _
    | split
    | dsimp only

theorem execBargeGo_same {msk : List Fld} {s0 : State} (p : _) (src : _) (c : _) {s : State} (hs : SameBut msk s0 s)
    (hmsk : sub [.regs, .chans, .net, .reqTabs, .dbg, .cnts] msk = true) :
    OutSame msk s0 (execBargeGo p src c s) := by
  unfold execBargeGo; try dsimp only
  repeat' first
    | with_reducible first
      | assumption | exact sub_trans hmsk rfl | apply OutSame.next | apply State.addGo_same
      | apply State.pump_same | apply State.tokenIn_same
    | intro _
    | split
    | dsimp only

theorem execWake_same {msk : List Fld} {s0 : State} (p : _) (src : _) {s : State} (hs : SameBut msk s0 s)
    (hmsk : sub [.regs, .net, .dbg, .cnts] msk = true) :
    OutSame msk s0 (execWake p src s) := by
  unfold execWake; try dsimp only
  repeat' first
    | with_reducible first
      | assumption | exact sub_trans hmsk rfl | apply OutSame.next | apply State.irq_same
      | apply State.tokenIn_same
    | intro _
    | split
    | dsimp only

theorem execReservedToken_same {msk : List Fld} {s0 : State} (p : _) (src : _) (tok : _) {s : State} (hs : SameBut msk s0 s)
    (hmsk : sub [.regs, .net, .dbg, .cnts] msk = true) :
    OutSame msk s0 (execReservedToken p src tok s) := by
  unfold execReservedToken; try dsimp only
  repeat' first
    | with_reducible first
      | assumption | exact sub_trans hmsk rfl | apply OutSame.next | apply State.tokenIn_same
      | apply badToken_same
    | intro _
    | split
    | dsimp only

theorem State.launch_same {msk : List Fld} {s0 : State} {s : State} (k : _) (n : _) (f : _) (hs : SameBut msk s0 s)
    (hmsk : sub [.regs, .net, .cnts] msk = true) :
    SameBut msk s0 (State.launch s k n f) := by
  unfold State.launch; try dsimp only
  repeat' first
    | with_reducible first
      | assumption | exact sub_trans hmsk rfl | apply State.count_same | apply State.inject_same
      | apply State.setFld_same
    | intro _
    | split
    | dsimp only

theorem sendFlit_same {msk : List Fld} {s0 : State} (k : _) (n : _) {s : State} (hs : SameBut msk s0 s)
    (hmsk : sub [.regs, .plots, .chans, .net, .parts, .dbg, .cnts] msk = true) :
    SameBut msk s0 (sendFlit k n s) := by
  unfold sendFlit; try dsimp only
  repeat' first
    | with_reducible first
      | assumption | exact sub_trans hmsk rfl | apply State.count_same | apply State.countChan_same
      | apply State.launch_same | apply State.updArr_same | apply State.updChan_same | apply rowDone_same
    | intro _
    | split
    | dsimp only

theorem execStreamFlitSend_same {msk : List Fld} {s0 : State} (p : _) (slot : _) {s : State} (hs : SameBut msk s0 s)
    (hmsk : sub [.freeCtr, .regs, .plots, .chans, .slices, .dram, .chk, .net, .reqTabs, .parts, .errs, .cores, .dbg, .cnts, .wire] msk = true) :
    OutSame msk s0 (execStreamFlitSend p slot s) := by
  unfold execStreamFlitSend; try dsimp only
  repeat' first
    | with_reducible first
      | assumption | exact sub_trans hmsk rfl | apply OutSame.next | apply State.readyChans_same
      | apply sendFlit_same
    | intro _
    | split
    | dsimp only

theorem State.discardFlit_same {msk : List Fld} {s0 : State} {s : State} (k : _) (code : _) (sid : _) (src : _) (slot : _) (hs : SameBut msk s0 s)
    (hmsk : sub [.regs, .plots, .net, .cnts] msk = true) :
    SameBut msk s0 (State.discardFlit s k code sid src slot) := by
  unfold State.discardFlit; try dsimp only
  repeat' first
    | with_reducible first
      | assumption | exact sub_trans hmsk rfl | apply State.count_same | apply State.inject_same
      | apply State.rhErr_same | apply State.updPlot_same
    | intro _
    | split
    | dsimp only

theorem State.ringPut_same {msk : List Fld} {s0 : State} {s : State} (k : _) (n : _) (src : _) (slot : _) (data : _) (hs : SameBut msk s0 s)
    (hmsk : sub [.regs, .plots, .dbg, .cnts] msk = true) :
    SameBut msk s0 (State.ringPut s k n src slot data) := by
  unfold State.ringPut; try dsimp only
  repeat' first
    | with_reducible first
      | assumption | exact sub_trans hmsk rfl | apply State.count_same | apply State.setFld_same
      | apply State.tokArrive_same | apply State.updPlot_same
    | intro _
    | split
    | dsimp only

theorem plotFlit_same {msk : List Fld} {s0 : State} (k : _) (hg : _) (sid : _) (src : _) (slot : _) (data : _) {s : State} (hs : SameBut msk s0 s)
    (hmsk : sub [.regs, .plots, .net, .dbg, .cnts] msk = true) :
    SameBut msk s0 (plotFlit k hg sid src slot data s) := by
  unfold plotFlit; try dsimp only
  repeat' first
    | with_reducible first
      | assumption | exact sub_trans hmsk rfl | apply State.arrived_same | apply State.discardFlit_same
      | apply State.holdMsg_same | apply State.ringPut_same
    | intro _
    | split
    | dsimp only

theorem State.ringTake_same {msk : List Fld} {s0 : State} {s : State} (k : _) (n : _) (hs : SameBut msk s0 s)
    (hmsk : sub [.regs, .plots, .net, .cnts] msk = true) :
    SameBut msk s0 (State.ringTake s k n) := by
  unfold State.ringTake; try dsimp only
  repeat' first
    | with_reducible first
      | assumption | exact sub_trans hmsk rfl | apply State.sendCredit_same | apply State.setFld_same
      | apply State.updPlot_same
    | intro _
    | split
    | dsimp only

theorem consume_same {msk : List Fld} {s0 : State} (k : _) (n : _) {s : State} (hs : SameBut msk s0 s)
    (hmsk : sub [.regs, .plots, .chans, .net, .cnts] msk = true) :
    SameBut msk s0 (consume k n s) := by
  unfold consume; try dsimp only
  repeat' first
    | with_reducible first
      | assumption | exact sub_trans hmsk rfl | apply State.ringTake_same | apply State.updArr_same
      | apply State.updChan_same
    | intro _
    | split
    | dsimp only

theorem execHeadgateConsume_same {msk : List Fld} {s0 : State} (p : _) (hg : _) {s : State} (hs : SameBut msk s0 s)
    (hmsk : sub [.freeCtr, .regs, .plots, .chans, .slices, .dram, .chk, .net, .reqTabs, .errs, .cores, .cnts, .wire] msk = true) :
    OutSame msk s0 (execHeadgateConsume p hg s) := by
  unfold execHeadgateConsume; try dsimp only
  repeat' first
    | with_reducible first
      | assumption | exact sub_trans hmsk rfl | apply OutSame.next | apply State.readyChans_same
      | apply consume_same
    | intro _
    | split
    | dsimp only

theorem execCreditBatchTimeout_same {msk : List Fld} {s0 : State} (p : _) (hg : _) {s : State} (hs : SameBut msk s0 s)
    (hmsk : sub [.regs, .plots, .net, .cnts] msk = true) :
    OutSame msk s0 (execCreditBatchTimeout p hg s) := by
  unfold execCreditBatchTimeout; try dsimp only
  repeat' first
    | with_reducible first
      | assumption | exact sub_trans hmsk rfl | apply OutSame.next | apply State.sendCredit_same
    | intro _
    | split
    | dsimp only

theorem State.fencePlot_same {msk : List Fld} {s0 : State} {s : State} (k : _) (byFault : _) (hs : SameBut msk s0 s)
    (hmsk : sub [.freeCtr, .regs, .plots, .norias, .net, .stks, .parts, .rings, .cores, .dbg, .cnts, .wire] msk = true) :
    SameBut msk s0 (State.fencePlot s k byFault) := by
  unfold State.fencePlot; try dsimp only
  repeat' first
    | with_reducible first
      | assumption | exact sub_trans hmsk rfl | apply State.clearArr_same | apply State.norFence_same
      | apply State.setBit_same
    | intro _
    | split
    | dsimp only

theorem fenceMask_same {msk : List Fld} {s0 : State} (st : _) (q : _) (mask : _) {s : State} (hs : SameBut msk s0 s)
    (hmsk : sub [.freeCtr, .regs, .plots, .norias, .net, .stks, .parts, .rings, .cores, .dbg, .cnts, .wire] msk = true) :
    SameBut msk s0 (fenceMask st q mask s) := by
  unfold fenceMask; try dsimp only
  repeat' first
    | with_reducible first
      | assumption | exact sub_trans hmsk rfl | apply SameBut.foldl | apply SameBut.foldl1
      | apply SameBut.foldlDev | apply SameBut.foldlMv | apply SameBut.foldlDn | apply State.fencePlot_same
    | intro _
    | split
    | dsimp only

theorem execRhFenceSet_same {msk : List Fld} {s0 : State} (r : _) (st : _) (q : _) (mask : _) {s : State} (hs : SameBut msk s0 s)
    (hmsk : sub [.freeCtr, .regs, .plots, .norias, .net, .stks, .parts, .rings, .cores, .dbg, .cnts, .wire] msk = true) :
    OutSame msk s0 (execRhFenceSet r st q mask s) := by
  unfold execRhFenceSet; try dsimp only
  repeat' first
    | with_reducible first
      | assumption | exact sub_trans hmsk rfl | apply OutSame.next | apply State.access_same
      | apply fenceMask_same
    | intro _
    | split
    | dsimp only

theorem forwardLane_same {msk : List Fld} {s0 : State} (die : _) (site : _) (out : _) (lane : _) {s : State} (hs : SameBut msk s0 s)
    (hmsk : sub [.net, .rr] msk = true) :
    SameBut msk s0 (forwardLane die site out lane s) := by
  unfold forwardLane; try dsimp only
  repeat' first
    | with_reducible first
      | assumption | exact sub_trans hmsk rfl
    | intro _
    | split
    | with_reducible (apply SameBut.lit <;> first | exact Or.inl rfl | exact Or.inr (sub_trans hmsk rfl) | skip)
    | dsimp only

/-! ### Barge -/

theorem execBargeHandoff_same {msk : List Fld} {s0 : State} (p : _) {s : State} (hs : SameBut msk s0 s)
    (hmsk : sub [.regs, .plots, .chans, .reqTabs] msk = true) :
    OutSame msk s0 (execBargeHandoff p s) := by
  unfold execBargeHandoff; try dsimp only
  repeat' first
    | with_reducible first
      | assumption | exact sub_trans hmsk rfl | apply OutSame.next | apply handoff_same
    | intro _
    | split
    | dsimp only

theorem finishUnit_same {msk : List Fld} {s0 : State} (c : _) {s : State} (hs : SameBut msk s0 s)
    (hmsk : sub [.freeCtr, .regs, .plots, .chans, .slices, .dram, .chk, .net, .reqTabs, .parts, .rings, .errs, .cores, .caches, .dbg, .cnts, .wire] msk = true) :
    SameBut msk s0 (finishUnit c s) := by
  unfold finishUnit; try dsimp only
  repeat' first
    | with_reducible first
      | assumption | exact sub_trans hmsk rfl | apply State.countUnit_same | apply State.endDesc_same
      | apply State.followers_same | apply State.notify_same | apply State.pump_same | apply State.reqDrop_same
      | apply State.updChan_same | apply moveElems_same
    | intro _
    | split
    | dsimp only

theorem State.ready_same {msk : List Fld} {s0 : State} {s : State} (c : _) (hs : SameBut msk s0 s)
    (hmsk : sub [.freeCtr, .regs, .chans, .slices, .dram, .chk, .reqTabs, .errs, .cores, .cnts, .wire] msk = true) :
    SameBut msk s0 (State.ready s c) := by
  unfold State.ready; try dsimp only
  repeat' first
    | with_reducible first
      | assumption | exact sub_trans hmsk rfl | apply State.fillOut_same | apply State.pump_same
    | intro _
    | split
    | dsimp only

theorem execBargeUnitComplete_same {msk : List Fld} {s0 : State} (c : _) {s : State} (hs : SameBut msk s0 s)
    (hmsk : sub [.freeCtr, .regs, .plots, .chans, .slices, .dram, .chk, .net, .reqTabs, .parts, .rings, .errs, .cores, .caches, .dbg, .cnts, .wire] msk = true) :
    OutSame msk s0 (execBargeUnitComplete c s) := by
  unfold execBargeUnitComplete; try dsimp only
  repeat' first
    | with_reducible first
      | assumption | exact sub_trans hmsk rfl | apply OutSame.next | apply State.ready_same
      | apply finishUnit_same
    | intro _
    | split
    | dsimp only

theorem timerDue_same {msk : List Fld} {s0 : State} (c : _) (d : _) {s : State} (hs : SameBut msk s0 s)
    (hmsk : sub [.regs, .chans, .reqTabs] msk = true) :
    SameBut msk s0 (timerDue c d s) := by
  unfold timerDue; try dsimp only
  repeat' first
    | with_reducible first
      | assumption | exact sub_trans hmsk rfl | apply State.addFld_same | apply State.setChan_same
      | apply State.startUnit_same
    | intro _
    | split
    | dsimp only

theorem execBargeTimerDue_same {msk : List Fld} {s0 : State} (c : _) {s : State} (hs : SameBut msk s0 s)
    (hmsk : sub [.regs, .chans, .reqTabs] msk = true) :
    OutSame msk s0 (execBargeTimerDue c s) := by
  unfold execBargeTimerDue; try dsimp only
  repeat' first
    | with_reducible first
      | assumption | exact sub_trans hmsk rfl | apply OutSame.next | apply State.pump_same | apply timerDue_same
    | intro _
    | split
    | dsimp only

theorem brgPush_same {msk : List Fld} {s0 : State} (n : _) {s : State} (hs : SameBut msk s0 s)
    (hmsk : sub [.regs, .chans, .net, .reqTabs, .rings, .cores, .wire] msk = true) :
    SameBut msk s0 (brgPush n s) := by
  unfold brgPush; try dsimp only
  repeat' first
    | with_reducible first
      | assumption | exact sub_trans hmsk rfl | apply State.iodNext_same | apply State.irq_same
      | apply State.setChan_same
    | intro _
    | split
    | dsimp only

theorem execBrgSubmitPush_same {msk : List Fld} {s0 : State} (r : _) (n : _) {s : State} (hs : SameBut msk s0 s)
    (hmsk : sub [.regs, .chans, .net, .reqTabs, .rings, .cores, .dbg, .cnts, .wire] msk = true) :
    OutSame msk s0 (execBrgSubmitPush r n s) := by
  unfold execBrgSubmitPush; try dsimp only
  repeat' first
    | with_reducible first
      | assumption | exact sub_trans hmsk rfl | apply OutSame.next | apply State.access_same | apply brgPush_same
    | intro _
    | split
    | dsimp only

theorem brgGo_same {msk : List Fld} {s0 : State} (c : _) (clr : _) {s : State} (hs : SameBut msk s0 s)
    (hmsk : sub [.regs, .chans, .reqTabs] msk = true) :
    SameBut msk s0 (brgGo c clr s) := by
  unfold brgGo; try dsimp only
  repeat' first
    | with_reducible first
      | assumption | exact sub_trans hmsk rfl | apply State.addGo_same | apply State.pump_same
      | apply State.updChan_same
    | intro _
    | split
    | dsimp only

theorem execBrgCtrlGo_same {msk : List Fld} {s0 : State} (r : _) (c : _) (clr : _) {s : State} (hs : SameBut msk s0 s)
    (hmsk : sub [.regs, .chans, .reqTabs, .cores, .dbg, .cnts] msk = true) :
    OutSame msk s0 (execBrgCtrlGo r c clr s) := by
  unfold execBrgCtrlGo; try dsimp only
  repeat' first
    | with_reducible first
      | assumption | exact sub_trans hmsk rfl | apply OutSame.next | apply State.access_same | apply brgGo_same
    | intro _
    | split
    | dsimp only

theorem popBrg_same {msk : List Fld} {s0 : State} (n : _) {s : State} (hs : SameBut msk s0 s)
    (hmsk : sub [.reply, .regs, .chans, .net, .reqTabs, .rings, .cores, .wire] msk = true) :
    SameBut msk s0 (popBrg n s) := by
  unfold popBrg; try dsimp only
  repeat' first
    | with_reducible first
      | assumption | exact sub_trans hmsk rfl | apply State.answer_same | apply State.iodNext_same
      | apply State.setChan_same
    | intro _
    | split
    | dsimp only

theorem execBrgCplPop_same {msk : List Fld} {s0 : State} (r : _) (n : _) {s : State} (hs : SameBut msk s0 s)
    (hmsk : sub [.freeCtr, .reply, .regs, .chans, .net, .reqTabs, .rings, .cores, .dbg, .cnts, .wire] msk = true) :
    OutSame msk s0 (execBrgCplPop r n s) := by
  unfold execBrgCplPop; try dsimp only
  repeat' first
    | with_reducible first
      | assumption | exact sub_trans hmsk rfl | apply OutSame.next | apply State.readAccess_same
      | apply popBrg_same
    | intro _
    | split
    | dsimp only

theorem sendPacket_same {msk : List Fld} {s0 : State} (c : _) {s : State} (hs : SameBut msk s0 s)
    (hmsk : sub [.freeCtr, .regs, .plots, .chans, .slices, .dram, .chk, .errs, .cores, .caches, .cnts, .wire] msk = true) :
    SameBut msk s0 (sendPacket c s) := by
  unfold sendPacket; try dsimp only
  repeat' first
    | with_reducible first
      | assumption | exact sub_trans hmsk rfl | apply State.updChan_same | apply moveElems_same
    | intro _
    | split
    | dsimp only

end Sys2Proof.Machine
end

