-- ==== Sys2Proof/Laws/FrameHost.lean ====
section
/-!
SUPPORT. Laws/FrameHost.lean: what each operation leaves unchanged: one lemma per operation of resets, the landing, ring commands, graphs, crossings and groups.
-/
set_option linter.unusedTactic false
set_option linter.unreachableTactic false
set_option linter.unusedVariables false
set_option linter.unusedSimpArgs false

namespace Sys2Proof.Machine

variable {msk : List Fld} {s0 : State}

/-! ### ResetOps -/

theorem State.updSlot_same {msk : List Fld} {s0 : State} {s : State} (n : _) (sl : _) (f : _) (hs : SameBut msk s0 s)
    (hmsk : sub [.parts] msk = true) :
    SameBut msk s0 (State.updSlot s n sl f) := by
  unfold State.updSlot; try dsimp only
  repeat' first
    | with_reducible first
      | assumption | exact sub_trans hmsk rfl | apply State.updPart_same
    | intro _
    | split
    | dsimp only

theorem State.answerRun_same {msk : List Fld} {s0 : State} {s : State} (n : _) (sl : _) (status : _) (value : _) (hs : SameBut msk s0 s)
    (hmsk : sub [.parts, .rings, .cores, .wire] msk = true) :
    SameBut msk s0 (State.answerRun s n sl status value) := by
  unfold State.answerRun; try dsimp only
  repeat' first
    | with_reducible first
      | assumption | exact sub_trans hmsk rfl | apply State.finishCmd_same | apply State.updSlot_same
    | intro _
    | split
    | dsimp only

theorem State.dropRun_same {msk : List Fld} {s0 : State} {s : State} (n : _) (sl : _) (hs : SameBut msk s0 s)
    (hmsk : sub [.parts] msk = true) :
    SameBut msk s0 (State.dropRun s n sl) := by
  unfold State.dropRun; try dsimp only
  repeat' first
    | with_reducible first
      | assumption | exact sub_trans hmsk rfl | apply State.updSlot_same
    | intro _
    | split
    | dsimp only

theorem State.partEnded_same {msk : List Fld} {s0 : State} {s : State} (n : _) (sl : _) (k : _) (hs : SameBut msk s0 s)
    (hmsk : sub [.parts, .rings, .cores, .wire] msk = true) :
    SameBut msk s0 (State.partEnded s n sl k) := by
  unfold State.partEnded; try dsimp only
  repeat' first
    | with_reducible first
      | assumption | exact sub_trans hmsk rfl | apply State.answerRun_same | apply State.dropRun_same
      | apply State.updSlot_same
    | intro _
    | split
    | dsimp only

theorem State.faultRun_same {msk : List Fld} {s0 : State} {s : State} (n : _) (sl : _) (k : _) (hs : SameBut msk s0 s)
    (hmsk : sub [.parts, .rings, .cores, .wire] msk = true) :
    SameBut msk s0 (State.faultRun s n sl k) := by
  unfold State.faultRun; try dsimp only
  repeat' first
    | with_reducible first
      | assumption | exact sub_trans hmsk rfl | apply State.answerRun_same | apply State.partEnded_same
    | intro _
    | split
    | dsimp only

theorem State.faultRuns_same {msk : List Fld} {s0 : State} {s : State} (k : _) (hs : SameBut msk s0 s)
    (hmsk : sub [.parts, .rings, .cores, .wire] msk = true) :
    SameBut msk s0 (State.faultRuns s k) := by
  unfold State.faultRuns; try dsimp only
  repeat' first
    | with_reducible first
      | assumption | exact sub_trans hmsk rfl | apply SameBut.foldl | apply SameBut.foldl1
      | apply SameBut.foldlDev | apply SameBut.foldlMv | apply SameBut.foldlDn | apply State.faultRun_same
    | intro _
    | split
    | dsimp only

theorem State.cancelJob_same {msk : List Fld} {s0 : State} {s : State} (g : _) (id : _) (hs : SameBut msk s0 s)
    (hmsk : sub [.regs, .chans, .net, .reqTabs, .parts, .rings, .funcs, .groups, .cores, .faults, .wire] msk = true) :
    SameBut msk s0 (State.cancelJob s g id) := by
  unfold State.cancelJob; try dsimp only
  repeat' first
    | with_reducible first
      | assumption | exact sub_trans hmsk rfl | apply SameBut.foldl | apply SameBut.foldl1
      | apply SameBut.foldlDev | apply SameBut.foldlMv | apply SameBut.foldlDn | apply State.clearChan_same
      | apply State.iodNext_same | apply State.updChan_same | apply State.updFunc_same | apply State.updGrp_same
      | apply State.updPart_same
    | intro _
    | split
    | with_reducible apply SameBut.lit_faults
    | dsimp only

theorem State.abortCmd_same {msk : List Fld} {s0 : State} {s : State} (g : _) (id : _) (status : _) (hs : SameBut msk s0 s)
    (hmsk : sub [.regs, .chans, .net, .reqTabs, .parts, .rings, .funcs, .groups, .cores, .faults, .wire] msk = true) :
    SameBut msk s0 (State.abortCmd s g id status) := by
  unfold State.abortCmd; try dsimp only
  repeat' first
    | with_reducible first
      | assumption | exact sub_trans hmsk rfl | apply State.cancelJob_same | apply State.finishCmd_same
    | intro _
    | split
    | dsimp only

theorem State.abortCmds_same {msk : List Fld} {s0 : State} {s : State} (g : _) (sel : _) (status : _) (hs : SameBut msk s0 s)
    (hmsk : sub [.regs, .chans, .net, .reqTabs, .parts, .rings, .funcs, .groups, .cores, .faults, .wire] msk = true) :
    SameBut msk s0 (State.abortCmds s g sel status) := by
  unfold State.abortCmds; try dsimp only
  repeat' first
    | with_reducible first
      | assumption | exact sub_trans hmsk rfl | apply SameBut.foldl | apply SameBut.foldl1
      | apply SameBut.foldlDev | apply SameBut.foldlMv | apply SameBut.foldlDn | apply State.abortCmd_same
      | apply State.endCmd_same | apply State.updRing_same
    | intro _
    | split
    | dsimp only

theorem State.abortRunning_same {msk : List Fld} {s0 : State} {s : State} (g : _) (sel : _) (status : _) (hs : SameBut msk s0 s)
    (hmsk : sub [.regs, .chans, .net, .reqTabs, .parts, .rings, .funcs, .groups, .cores, .faults, .wire] msk = true) :
    SameBut msk s0 (State.abortRunning s g sel status) := by
  unfold State.abortRunning; try dsimp only
  repeat' first
    | with_reducible first
      | assumption | exact sub_trans hmsk rfl | apply SameBut.foldl | apply SameBut.foldl1
      | apply SameBut.foldlDev | apply SameBut.foldlMv | apply SameBut.foldlDn | apply State.abortCmd_same
    | intro _
    | split
    | dsimp only

theorem State.setPState_same {msk : List Fld} {s0 : State} {s : State} (n : _) (st : _) (hs : SameBut msk s0 s)
    (hmsk : sub [.parts, .cores, .wire] msk = true) :
    SameBut msk s0 (State.setPState s n st) := by
  unfold State.setPState; try dsimp only
  repeat' first
    | with_reducible first
      | assumption | exact sub_trans hmsk rfl | apply State.msix_same | apply State.updPart_same
    | intro _
    | split
    | dsimp only

theorem State.setTdi_same {msk : List Fld} {s0 : State} {s : State} (n : _) (x : _) (hs : SameBut msk s0 s)
    (hmsk : sub [.regs] msk = true) :
    SameBut msk s0 (State.setTdi s n x) := by
  unfold State.setTdi; try dsimp only
  repeat' first
    | with_reducible first
      | assumption | exact sub_trans hmsk rfl | apply State.setFld_same
    | intro _
    | split
    | dsimp only

theorem State.beginReset_same {msk : List Fld} {s0 : State} {s : State} (sc : _) (zero : _) (retest : _) (hs : SameBut msk s0 s)
    (hmsk : sub [.faults, .dbg] msk = true) :
    SameBut msk s0 (State.beginReset s sc zero retest) := by
  unfold State.beginReset; try dsimp only
  repeat' first
    | with_reducible first
      | assumption | exact sub_trans hmsk rfl
    | intro _
    | split
    | with_reducible apply SameBut.lit_faults
    | with_reducible apply SameBut.lit_dbg
    | with_reducible (apply SameBut.lit <;> first | exact Or.inl rfl | exact Or.inr (sub_trans hmsk rfl) | skip)
    | dsimp only

theorem State.resetPart_same {msk : List Fld} {s0 : State} {s : State} (n : _) (why : _) (hs : SameBut msk s0 s)
    (hmsk : sub [.parts, .cores, .faults, .dbg, .wire] msk = true) :
    SameBut msk s0 (State.resetPart s n why) := by
  unfold State.resetPart; try dsimp only
  repeat' first
    | with_reducible first
      | assumption | exact sub_trans hmsk rfl | apply State.beginReset_same | apply State.setPState_same
      | apply State.updPart_same
    | intro _
    | split
    | dsimp only

theorem State.tdiError_same {msk : List Fld} {s0 : State} {s : State} (n : _) (hs : SameBut msk s0 s)
    (hmsk : sub [.regs, .parts, .cores, .faults, .dbg, .wire] msk = true) :
    SameBut msk s0 (State.tdiError s n) := by
  unfold State.tdiError; try dsimp only
  repeat' first
    | with_reducible first
      | assumption | exact sub_trans hmsk rfl | apply State.resetPart_same | apply State.setTdi_same
    | intro _
    | split
    | dsimp only

theorem State.faultPart_same {msk : List Fld} {s0 : State} {s : State} (n : _) (hs : SameBut msk s0 s)
    (hmsk : sub [.regs, .chans, .net, .reqTabs, .parts, .rings, .funcs, .groups, .cores, .faults, .dbg, .wire] msk = true) :
    SameBut msk s0 (State.faultPart s n) := by
  unfold State.faultPart; try dsimp only
  repeat' first
    | with_reducible first
      | assumption | exact sub_trans hmsk rfl | apply SameBut.foldl | apply SameBut.foldl1
      | apply SameBut.foldlDev | apply SameBut.foldlMv | apply SameBut.foldlDn | apply State.abortRunning_same
      | apply State.setPState_same | apply State.tdiError_same | apply State.updPart_same
    | intro _
    | split
    | dsimp only

theorem State.propose_same {msk : List Fld} {s0 : State} {s : State} (st : _) (pl : _) (d : _) (hs : SameBut msk s0 s)
    (hmsk : sub [.regs, .errs, .cores, .faults, .wire] msk = true) :
    SameBut msk s0 (State.propose s st pl d) := by
  unfold State.propose; try dsimp only
  repeat' first
    | with_reducible first
      | assumption | exact sub_trans hmsk rfl | apply State.addFld_same | apply State.report_same
    | intro _
    | split
    | with_reducible apply SameBut.lit_faults
    | dsimp only

theorem State.markFailed_same {msk : List Fld} {s0 : State} {s : State} (k : _) (cause : _) (hs : SameBut msk s0 s)
    (hmsk : sub [.regs] msk = true) :
    SameBut msk s0 (State.markFailed s k cause) := by
  unfold State.markFailed; try dsimp only
  repeat' first
    | with_reducible first
      | assumption | exact sub_trans hmsk rfl | apply State.setBit_same | apply State.setFld_same
    | intro _
    | split
    | dsimp only

theorem State.markOk_same {msk : List Fld} {s0 : State} {s : State} (k : _) (hs : SameBut msk s0 s)
    (hmsk : sub [.regs, .plots] msk = true) :
    SameBut msk s0 (State.markOk s k) := by
  unfold State.markOk; try dsimp only
  repeat' first
    | with_reducible first
      | assumption | exact sub_trans hmsk rfl | apply State.clrBit_same | apply State.setFld_same
      | apply State.updPlot_same
    | intro _
    | split
    | dsimp only

theorem State.stopPlotWork_same {msk : List Fld} {s0 : State} {s : State} (k : _) (hs : SameBut msk s0 s)
    (hmsk : sub [.freeCtr, .regs, .plots, .chans, .norias, .net, .reqTabs, .stks, .parts, .rings, .cores, .dbg, .cnts, .wire] msk = true) :
    SameBut msk s0 (State.stopPlotWork s k) := by
  unfold State.stopPlotWork; try dsimp only
  repeat' first
    | with_reducible first
      | assumption | exact sub_trans hmsk rfl | apply SameBut.foldl | apply SameBut.foldl1
      | apply SameBut.foldlDev | apply SameBut.foldlMv | apply SameBut.foldlDn | apply State.clearArr_same
      | apply State.clearChan_same | apply State.norFence_same | apply State.updPlot_same
    | intro _
    | split
    | dsimp only

theorem State.holdPlot_same {msk : List Fld} {s0 : State} {s : State} (k : _) (cause : _) (hs : SameBut msk s0 s)
    (hmsk : sub [.regs] msk = true) :
    SameBut msk s0 (State.holdPlot s k cause) := by
  unfold State.holdPlot; try dsimp only
  repeat' first
    | with_reducible first
      | assumption | exact sub_trans hmsk rfl | apply State.setBit_same
    | intro _
    | split
    | dsimp only

theorem State.failPlot_same {msk : List Fld} {s0 : State} {s : State} (k : _) (cause : _) (hs : SameBut msk s0 s)
    (hmsk : sub [.freeCtr, .regs, .plots, .chans, .norias, .net, .reqTabs, .stks, .parts, .rings, .errs, .cores, .faults, .dbg, .cnts, .wire] msk = true) :
    SameBut msk s0 (State.failPlot s k cause) := by
  unfold State.failPlot; try dsimp only
  repeat' first
    | with_reducible first
      | assumption | exact sub_trans hmsk rfl | apply State.faultRuns_same | apply State.fencePlot_same
      | apply State.holdPlot_same | apply State.markFailed_same | apply State.propose_same
      | apply State.report_same | apply State.stopPlotWork_same | apply State.updPlot_same
    | intro _
    | split
    | dsimp only

theorem State.fenceSource_same {msk : List Fld} {s0 : State} {s : State} (m : _) (hs : SameBut msk s0 s)
    (hmsk : sub [.net] msk = true) :
    SameBut msk s0 (State.fenceSource s m) := by
  unfold State.fenceSource; try dsimp only
  repeat' first
    | with_reducible first
      | assumption | exact sub_trans hmsk rfl | apply State.inject_same
    | intro _
    | split
    | dsimp only

theorem State.dropQueued_same {msk : List Fld} {s0 : State} {s : State} (die : _) (far : _) (hs : SameBut msk s0 s)
    (hmsk : sub [.net] msk = true) :
    SameBut msk s0 (State.dropQueued s die far) := by
  unfold State.dropQueued; try dsimp only
  repeat' first
    | with_reducible first
      | assumption | exact sub_trans hmsk rfl | apply SameBut.foldl | apply SameBut.foldl1
      | apply SameBut.foldlDev | apply SameBut.foldlMv | apply SameBut.foldlDn | apply State.fenceSource_same
    | intro _
    | split
    | with_reducible apply SameBut.lit_net
    | dsimp only

theorem State.dropFar_same {msk : List Fld} {s0 : State} {s : State} (die : _) (far : _) (abort : _) (hs : SameBut msk s0 s)
    (hmsk : sub [.regs, .chans, .net, .links, .reqTabs, .cnts] msk = true) :
    SameBut msk s0 (State.dropFar s die far abort) := by
  unfold State.dropFar; try dsimp only
  repeat' first
    | with_reducible first
      | assumption | exact sub_trans hmsk rfl | apply SameBut.foldl | apply SameBut.foldl1
      | apply SameBut.foldlDev | apply SameBut.foldlMv | apply SameBut.foldlDn | apply State.count_same
      | apply State.dropQueued_same | apply State.setReqTab_same | apply State.updChan_same
      | apply State.updLink_same
    | intro _
    | split
    | dsimp only

theorem State.setLink2_same {msk : List Fld} {s0 : State} {s : State} (die : _) (m : _) (x : _) (hs : SameBut msk s0 s)
    (hmsk : sub [.regs] msk = true) :
    SameBut msk s0 (State.setLink2 s die m x) := by
  unfold State.setLink2; try dsimp only
  repeat' first
    | with_reducible first
      | assumption | exact sub_trans hmsk rfl | apply State.refreshRoute_same | apply State.setFld_same
    | intro _
    | split
    | dsimp only

theorem State.linksDown_same {msk : List Fld} {s0 : State} {s : State} (st : _) (abort : _) (hs : SameBut msk s0 s)
    (hmsk : sub [.regs, .chans, .net, .links, .reqTabs, .cnts] msk = true) :
    SameBut msk s0 (State.linksDown s st abort) := by
  unfold State.linksDown; try dsimp only
  repeat' first
    | with_reducible first
      | assumption | exact sub_trans hmsk rfl | apply SameBut.foldl | apply SameBut.foldl1
      | apply SameBut.foldlDev | apply SameBut.foldlMv | apply SameBut.foldlDn | apply State.dropFar_same
      | apply State.setLink2_same
    | intro _
    | split
    | dsimp only

theorem State.linksUp_same {msk : List Fld} {s0 : State} {s : State} (st : _) (hs : SameBut msk s0 s)
    (hmsk : sub [.regs] msk = true) :
    SameBut msk s0 (State.linksUp s st) := by
  unfold State.linksUp; try dsimp only
  repeat' first
    | with_reducible first
      | assumption | exact sub_trans hmsk rfl | apply SameBut.foldl | apply SameBut.foldl1
      | apply SameBut.foldlDev | apply SameBut.foldlMv | apply SameBut.foldlDn | apply State.setLink2_same
    | intro _
    | split
    | dsimp only

theorem State.clearPlot_same {msk : List Fld} {s0 : State} {s : State} (k : _) (hs : SameBut msk s0 s)
    (hmsk : sub [.regs, .caps, .plots, .chans, .norias, .net, .reqTabs, .stks, .parts, .rings, .cores, .dbg, .cnts, .wire] msk = true) :
    SameBut msk s0 (State.clearPlot s k) := by
  unfold State.clearPlot; try dsimp only
  repeat' first
    | with_reducible first
      | assumption | exact sub_trans hmsk rfl | apply SameBut.foldl | apply SameBut.foldl1
      | apply SameBut.foldlDev | apply SameBut.foldlMv | apply SameBut.foldlDn | apply State.clearChan_same
      | apply State.norStopPlot_same | apply State.resetPage_same | apply State.setChan_same
      | apply State.setCnt_same | apply State.updPlot_same
    | intro _
    | split
    | with_reducible apply SameBut.lit_dbg
    | dsimp only

theorem State.clearHub_same {msk : List Fld} {s0 : State} {s : State} (st : _) (q : _) (hs : SameBut msk s0 s)
    (hmsk : sub [.regs, .caps, .cnts] msk = true) :
    SameBut msk s0 (State.clearHub s st q) := by
  unfold State.clearHub; try dsimp only
  repeat' first
    | with_reducible first
      | assumption | exact sub_trans hmsk rfl | apply State.resetPage_same | apply State.setCnt_same
      | apply State.setReg_same
    | intro _
    | split
    | dsimp only

theorem State.noMicrocode_same {msk : List Fld} {s0 : State} {s : State} (st : _) (hs : SameBut msk s0 s)
    (hmsk : sub [.regs] msk = true) :
    SameBut msk s0 (State.noMicrocode s st) := by
  unfold State.noMicrocode; try dsimp only
  repeat' first
    | with_reducible first
      | assumption | exact sub_trans hmsk rfl | apply SameBut.foldl | apply SameBut.foldl1
      | apply SameBut.foldlDev | apply SameBut.foldlMv | apply SameBut.foldlDn | apply State.setReg_same
    | intro _
    | split
    | dsimp only

theorem State.clearStack_same {msk : List Fld} {s0 : State} {s : State} (st : _) (hs : SameBut msk s0 s)
    (hmsk : sub [.regs, .caps, .plots, .chans, .slices, .norias, .dram, .chk, .net, .links, .reqTabs, .stks, .sensors, .cores, .caches, .dbg, .cnts] msk = true) :
    SameBut msk s0 (State.clearStack s st) := by
  unfold State.clearStack; try dsimp only
  repeat' first
    | with_reducible first
      | assumption | exact sub_trans hmsk rfl | apply SameBut.foldl | apply SameBut.foldl1
      | apply SameBut.foldlDev | apply SameBut.foldlMv | apply SameBut.foldlDn | apply State.linksDown_same
      | apply State.noMicrocode_same | apply State.setStk_same
    | intro _
    | split
    | with_reducible (apply SameBut.lit <;> first | exact Or.inl rfl | exact Or.inr (sub_trans hmsk rfl) | skip)
    | dsimp only

theorem State.filledStack_same {msk : List Fld} {s0 : State} {s : State} (st : _) (hs : SameBut msk s0 s)
    (hmsk : sub [.regs] msk = true) :
    SameBut msk s0 (State.filledStack s st) := by
  unfold State.filledStack; try dsimp only
  repeat' first
    | with_reducible first
      | assumption | exact sub_trans hmsk rfl | apply SameBut.foldl | apply SameBut.foldl1
      | apply SameBut.foldlDev | apply SameBut.foldlMv | apply SameBut.foldlDn | apply State.setReg_same
    | intro _
    | split
    | dsimp only

theorem State.resetOwned_same {msk : List Fld} {s0 : State} {s : State} (page : _) (own : _) (hs : SameBut msk s0 s)
    (hmsk : sub [.regs, .caps] msk = true) :
    SameBut msk s0 (State.resetOwned s page own) := by
  unfold State.resetOwned; try dsimp only
  repeat' first
    | with_reducible first
      | assumption | exact sub_trans hmsk rfl | apply State.resetPage_same | apply State.setReg_same
    | intro _
    | split
    | dsimp only

theorem State.clearOwned_same {msk : List Fld} {s0 : State} {s : State} (n : _) (hs : SameBut msk s0 s)
    (hmsk : sub [.regs, .caps, .chans, .reqTabs, .eps, .groups, .media] msk = true) :
    SameBut msk s0 (State.clearOwned s n) := by
  unfold State.clearOwned; try dsimp only
  repeat' first
    | with_reducible first
      | assumption | exact sub_trans hmsk rfl | apply SameBut.foldl | apply SameBut.foldl1
      | apply SameBut.foldlDev | apply SameBut.foldlMv | apply SameBut.foldlDn | apply State.clearChan_same
      | apply State.resetOwned_same | apply State.resetPage_same | apply State.setChan_same
      | apply State.setEp_same | apply State.setGrp_same | apply State.setMed_same
    | intro _
    | split
    | dsimp only

theorem State.resetRemap_same {msk : List Fld} {s0 : State} {s : State} (n : _) (hs : SameBut msk s0 s)
    (hmsk : sub [.regs, .parts, .errs, .cores, .wire] msk = true) :
    SameBut msk s0 (State.resetRemap s n) := by
  unfold State.resetRemap; try dsimp only
  repeat' first
    | with_reducible first
      | assumption | exact sub_trans hmsk rfl | apply State.remapFail_same | apply State.setRemapState_same
      | apply State.updRemap_same
    | intro _
    | split
    | dsimp only

theorem State.clearPartState_same {msk : List Fld} {s0 : State} {s : State} (n : _) (hs : SameBut msk s0 s)
    (hmsk : sub [.regs, .caps, .chans, .net, .reqTabs, .parts, .rings, .funcs, .errs, .eps, .groups, .cores, .media, .sec, .faults, .wire] msk = true) :
    SameBut msk s0 (State.clearPartState s n) := by
  unfold State.clearPartState; try dsimp only
  repeat' first
    | with_reducible first
      | assumption | exact sub_trans hmsk rfl | apply SameBut.foldl | apply SameBut.foldl1
      | apply SameBut.foldlDev | apply SameBut.foldlMv | apply SameBut.foldlDn | apply State.abortCmds_same
      | apply State.clearOwned_same | apply State.resetPage_same | apply State.resetRemap_same
      | apply State.setErrf_same | apply State.setFld_same | apply State.setPart_same | apply State.setRing_same
      | apply State.setTdi_same | apply State.updFunc_same
    | intro _
    | split
    | with_reducible apply SameBut.lit_sec
    | dsimp only

theorem State.abortTests_same {msk : List Fld} {s0 : State} {s : State} (sel : _) (hs : SameBut msk s0 s)
    (hmsk : sub [.regs, .chans, .net, .reqTabs, .parts, .rings, .funcs, .groups, .cores, .faults, .wire] msk = true) :
    SameBut msk s0 (State.abortTests s sel) := by
  unfold State.abortTests; try dsimp only
  repeat' first
    | with_reducible first
      | assumption | exact sub_trans hmsk rfl | apply SameBut.foldl | apply SameBut.foldl1
      | apply SameBut.foldlDev | apply SameBut.foldlMv | apply SameBut.foldlDn | apply State.abortCmd_same
    | intro _
    | split
    | with_reducible apply SameBut.lit_faults
    | dsimp only

theorem State.clearPart_same {msk : List Fld} {s0 : State} {s : State} (n : _) (hs : SameBut msk s0 s)
    (hmsk : sub [.regs, .caps, .plots, .chans, .slices, .norias, .dram, .chk, .net, .links, .reqTabs, .stks, .sensors, .parts, .rings, .funcs, .errs, .eps, .groups, .cores, .caches, .media, .sec, .faults, .dbg, .cnts, .wire] msk = true) :
    SameBut msk s0 (State.clearPart s n) := by
  unfold State.clearPart; try dsimp only
  repeat' first
    | with_reducible first
      | assumption | exact sub_trans hmsk rfl | apply SameBut.foldl | apply SameBut.foldl1
      | apply SameBut.foldlDev | apply SameBut.foldlMv | apply SameBut.foldlDn | apply State.abortTests_same
      | apply State.clearPartState_same | apply State.clearStack_same
    | intro _
    | split
    | with_reducible apply SameBut.lit_faults
    | dsimp only

theorem State.clearPkg_same {msk : List Fld} {s0 : State} {s : State} (cold : _) (hs : SameBut msk s0 s)
    (hmsk : sub [.regs, .caps, .plots, .chans, .slices, .norias, .dram, .chk, .net, .rr, .links, .reqTabs, .stks, .sensors, .coolant, .parts, .rings, .funcs, .lndErr, .cfg, .errs, .xngs, .eps, .groups, .coll, .cores, .caches, .media, .sec, .boot, .faults, .dbg, .cnts, .toll] msk = true) :
    SameBut msk s0 (State.clearPkg s cold) := by
  unfold State.clearPkg; try dsimp only
  repeat' first
    | with_reducible first
      | assumption | exact sub_trans hmsk rfl | apply SameBut.foldl | apply SameBut.foldl1
      | apply SameBut.foldlDev | apply SameBut.foldlMv | apply SameBut.foldlDn | apply State.setFld_same
    | intro _
    | split
    | with_reducible (apply SameBut.lit <;> first | exact Or.inl rfl | exact Or.inr (sub_trans hmsk rfl) | skip)
    | dsimp only

/-! ### Landing -/

theorem State.drawNonce_same {msk : List Fld} {s0 : State} {s : State} (hs : SameBut msk s0 s)
    (hmsk : sub [.freeCtr, .regs] msk = true) :
    SameBut msk s0 (State.drawNonce s) := by
  unfold State.drawNonce; try dsimp only
  repeat' first
    | with_reducible first
      | assumption | exact sub_trans hmsk rfl | apply SameBut.foldl | apply SameBut.foldl1
      | apply SameBut.foldlDev | apply SameBut.foldlMv | apply SameBut.foldlDn | apply State.drawn_same
      | apply State.setReg_same
    | intro _
    | split
    | dsimp only

theorem State.startBoot_same {msk : List Fld} {s0 : State} {s : State} (warm : _) (hs : SameBut msk s0 s)
    (hmsk : sub [.freeCtr, .regs, .boot, .wire] msk = true) :
    SameBut msk s0 (State.startBoot s warm) := by
  unfold State.startBoot; try dsimp only
  repeat' first
    | with_reducible first
      | assumption | exact sub_trans hmsk rfl | apply State.drawNonce_same | apply State.send_same
      | apply State.setFld_same | apply State.setReg_same
    | intro _
    | split
    | with_reducible apply SameBut.lit_boot
    | dsimp only

theorem hotResetNow_same {msk : List Fld} {s0 : State} {s : State} (hs : SameBut msk s0 s)
    (hmsk : sub [.freeCtr, .regs, .caps, .plots, .chans, .slices, .norias, .dram, .chk, .net, .rr, .links, .reqTabs, .stks, .sensors, .coolant, .parts, .rings, .funcs, .lndErr, .cfg, .errs, .xngs, .eps, .groups, .coll, .cores, .caches, .media, .sec, .boot, .faults, .dbg, .cnts, .toll, .wire] msk = true) :
    SameBut msk s0 (hotResetNow s) := by
  unfold hotResetNow; try dsimp only
  repeat' first
    | with_reducible first
      | assumption | exact sub_trans hmsk rfl | apply State.clearPkg_same | apply State.startBoot_same
    | intro _
    | split
    | dsimp only

theorem execHotReset_same {msk : List Fld} {s0 : State} {s : State} (hs : SameBut msk s0 s)
    (hmsk : sub [.freeCtr, .regs, .caps, .plots, .chans, .slices, .norias, .dram, .chk, .net, .rr, .links, .reqTabs, .stks, .sensors, .coolant, .parts, .rings, .funcs, .lndErr, .cfg, .errs, .xngs, .eps, .groups, .coll, .cores, .caches, .media, .sec, .boot, .faults, .dbg, .cnts, .toll, .wire] msk = true) :
    OutSame msk s0 (execHotReset s) := by
  unfold execHotReset; try dsimp only
  repeat' first
    | with_reducible first
      | assumption | exact sub_trans hmsk rfl | apply OutSame.next | apply hotResetNow_same
    | intro _
    | split
    | dsimp only

theorem linkRec_same {msk : List Fld} {s0 : State} (gen : _) (width : _) {s : State} (hs : SameBut msk s0 s)
    (hmsk : sub [.regs] msk = true) :
    SameBut msk s0 (linkRec gen width s) := by
  unfold linkRec; try dsimp only
  repeat' first
    | with_reducible first
      | assumption | exact sub_trans hmsk rfl | apply State.addFld_same | apply State.setFld_same
    | intro _
    | split
    | dsimp only

theorem execLinkRecovery_same {msk : List Fld} {s0 : State} (gen : _) (width : _) {s : State} (hs : SameBut msk s0 s)
    (hmsk : sub [.regs] msk = true) :
    OutSame msk s0 (execLinkRecovery gen width s) := by
  unfold execLinkRecovery; try dsimp only
  repeat' first
    | with_reducible first
      | assumption | exact sub_trans hmsk rfl | apply OutSame.next | apply linkRec_same
    | intro _
    | split
    | dsimp only

theorem State.resetCfg_same {msk : List Fld} {s0 : State} {s : State} (f : _) (hs : SameBut msk s0 s)
    (hmsk : sub [.cfg] msk = true) :
    SameBut msk s0 (State.resetCfg s f) := by
  unfold State.resetCfg; try dsimp only
  repeat' first
    | with_reducible first
      | assumption | exact sub_trans hmsk rfl
    | intro _
    | split
    | with_reducible apply SameBut.lit_cfg
    | dsimp only

theorem execFlrVf_same {msk : List Fld} {s0 : State} (n : _) {s : State} (hs : SameBut msk s0 s)
    (hmsk : sub [.regs, .parts, .cfg, .cores, .faults, .dbg, .wire] msk = true) :
    OutSame msk s0 (execFlrVf n s) := by
  unfold execFlrVf; try dsimp only
  repeat' first
    | with_reducible first
      | assumption | exact sub_trans hmsk rfl | apply OutSame.next | apply State.resetCfg_same
      | apply State.resetPart_same | apply State.tdiError_same
    | intro _
    | split
    | dsimp only

theorem flrPfNow_same {msk : List Fld} {s0 : State} {s : State} (hs : SameBut msk s0 s)
    (hmsk : sub [.regs, .chans, .net, .reqTabs, .parts, .rings, .funcs, .cfg, .errs, .groups, .cores, .faults, .wire] msk = true) :
    SameBut msk s0 (flrPfNow s) := by
  unfold flrPfNow; try dsimp only
  repeat' first
    | with_reducible first
      | assumption | exact sub_trans hmsk rfl | apply SameBut.foldl | apply SameBut.foldl1
      | apply SameBut.foldlDev | apply SameBut.foldlMv | apply SameBut.foldlDn | apply State.abortCmds_same
      | apply State.resetCfg_same | apply State.setErrf_same | apply State.setReg_same | apply State.setRing_same
      | apply State.updFunc_same
    | intro _
    | split
    | with_reducible apply SameBut.lit_regs
    | dsimp only

theorem execFlrPf_same {msk : List Fld} {s0 : State} {s : State} (hs : SameBut msk s0 s)
    (hmsk : sub [.regs, .chans, .net, .reqTabs, .parts, .rings, .funcs, .cfg, .errs, .groups, .cores, .faults, .wire] msk = true) :
    OutSame msk s0 (execFlrPf s) := by
  unfold execFlrPf; try dsimp only
  repeat' first
    | with_reducible first
      | assumption | exact sub_trans hmsk rfl | apply OutSame.next | apply flrPfNow_same
    | intro _
    | split
    | dsimp only

theorem cfgServe_same {msk : List Fld} {s0 : State} (f : _) (write : _) (off : _) (v : _) {s : State} (hs : SameBut msk s0 s)
    (hmsk : sub [.reply, .regs, .cfg, .wire] msk = true) :
    SameBut msk s0 (cfgServe f write off v s) := by
  unfold cfgServe; try dsimp only
  repeat' first
    | with_reducible first
      | assumption | exact sub_trans hmsk rfl | apply SameBut.foldl | apply SameBut.foldl1
      | apply SameBut.foldlDev | apply SameBut.foldlMv | apply SameBut.foldlDn | apply State.answer_same
      | apply State.send_same | apply State.setBit_same
    | intro _
    | split
    | with_reducible apply SameBut.lit_cfg
    | dsimp only

theorem execConfigRequest_same {msk : List Fld} {s0 : State} (f : _) (write : _) (off : _) (v : _) {s : State} (hs : SameBut msk s0 s)
    (hmsk : sub [.reply, .regs, .cfg, .wire] msk = true) :
    OutSame msk s0 (execConfigRequest f write off v s) := by
  unfold execConfigRequest; try dsimp only
  repeat' first
    | with_reducible first
      | assumption | exact sub_trans hmsk rfl | apply OutSame.next | apply State.send_same | apply cfgServe_same
    | intro _
    | split
    | with_reducible apply SameBut.lit_reply
    | dsimp only

theorem State.allOnes_same {msk : List Fld} {s0 : State} {s : State} (f : _) (len : _) (hs : SameBut msk s0 s)
    (hmsk : sub [.reply, .wire] msk = true) :
    SameBut msk s0 (State.allOnes s f len) := by
  unfold State.allOnes; try dsimp only
  repeat' first
    | with_reducible first
      | assumption | exact sub_trans hmsk rfl | apply State.answer_same | apply State.send_same
    | intro _
    | split
    | dsimp only

theorem State.unsupported_same {msk : List Fld} {s0 : State} {s : State} (f : _) (hs : SameBut msk s0 s)
    (hmsk : sub [.reply, .wire] msk = true) :
    SameBut msk s0 (State.unsupported s f) := by
  unfold State.unsupported; try dsimp only
  repeat' first
    | with_reducible first
      | assumption | exact sub_trans hmsk rfl | apply State.send_same
    | intro _
    | split
    | with_reducible apply SameBut.lit_reply
    | dsimp only

theorem State.lndCount_same {msk : List Fld} {s0 : State} {s : State} (i : _) (hs : SameBut msk s0 s)
    (hmsk : sub [.lndErr] msk = true) :
    SameBut msk s0 (State.lndCount s i) := by
  unfold State.lndCount; try dsimp only
  repeat' first
    | with_reducible first
      | assumption | exact sub_trans hmsk rfl
    | intro _
    | split
    | with_reducible apply SameBut.lit_lndErr
    | dsimp only

theorem State.dropPosted_same {msk : List Fld} {s0 : State} {s : State} (hs : SameBut msk s0 s)
    (hmsk : sub [.dbg] msk = true) :
    SameBut msk s0 (State.dropPosted s) := by
  unfold State.dropPosted; try dsimp only
  repeat' first
    | with_reducible first
      | assumption | exact sub_trans hmsk rfl
    | intro _
    | split
    | with_reducible apply SameBut.lit_dbg
    | dsimp only

theorem State.completerAbort_same {msk : List Fld} {s0 : State} {s : State} (f : _) (hs : SameBut msk s0 s)
    (hmsk : sub [.reply, .wire] msk = true) :
    SameBut msk s0 (State.completerAbort s f) := by
  unfold State.completerAbort; try dsimp only
  repeat' first
    | with_reducible first
      | assumption | exact sub_trans hmsk rfl | apply State.send_same
    | intro _
    | split
    | with_reducible apply SameBut.lit_reply
    | dsimp only

theorem bar2_same {msk : List Fld} {s0 : State} (f : _) (write : _) (off : _) (len : _) (data : _) (ep : _) {s : State} (hs : SameBut msk s0 s)
    (hmsk : sub [.freeCtr, .reply, .regs, .slices, .dram, .chk, .lndErr, .errs, .cores, .caches, .cnts, .wire] msk = true) :
    SameBut msk s0 (bar2 f write off len data ep s) := by
  unfold bar2; try dsimp only
  repeat' first
    | with_reducible first
      | assumption | exact sub_trans hmsk rfl | apply State.allOnes_same | apply State.devRead_same
      | apply State.devWrite_same | apply State.lndCount_same | apply State.send_same | apply State.setBit_same
    | intro _
    | split
    | with_reducible apply SameBut.lit_reply
    | dsimp only

theorem execBar2Access_same {msk : List Fld} {s0 : State} (f : _) (write : _) (off : _) (len : _) (data : _) (ep : _) (tbit : _) {s : State} (hs : SameBut msk s0 s)
    (hmsk : sub [.freeCtr, .reply, .regs, .slices, .dram, .chk, .lndErr, .errs, .cores, .caches, .dbg, .cnts, .wire] msk = true) :
    OutSame msk s0 (execBar2Access f write off len data ep tbit s) := by
  unfold execBar2Access; try dsimp only
  repeat' first
    | with_reducible first
      | assumption | exact sub_trans hmsk rfl | apply OutSame.next | apply State.allOnes_same
      | apply State.completerAbort_same | apply State.dropPosted_same | apply State.unsupported_same
      | apply bar2_same
    | intro _
    | split
    | dsimp only

theorem State.atomicRefused_same {msk : List Fld} {s0 : State} {s : State} (f : _) (hs : SameBut msk s0 s)
    (hmsk : sub [.reply, .regs, .wire] msk = true) :
    SameBut msk s0 (State.atomicRefused s f) := by
  unfold State.atomicRefused; try dsimp only
  repeat' first
    | with_reducible first
      | assumption | exact sub_trans hmsk rfl | apply State.setBit_same | apply State.unsupported_same
    | intro _
    | split
    | dsimp only

theorem atomic_same {msk : List Fld} {s0 : State} (f : _) (bar : _) (op : _) (off : _) (x : _) (y : _) {s : State} (hs : SameBut msk s0 s)
    (hmsk : sub [.reply, .regs, .slices, .dram, .chk, .errs, .cores, .caches, .cnts, .wire] msk = true) :
    SameBut msk s0 (atomic f bar op off x y s) := by
  unfold atomic; try dsimp only
  repeat' first
    | with_reducible first
      | assumption | exact sub_trans hmsk rfl | apply State.atomicRefused_same | apply State.devWeir_same
      | apply State.send_same
    | intro _
    | split
    | with_reducible apply SameBut.lit_reply
    | dsimp only

theorem execAtomicOp_same {msk : List Fld} {s0 : State} (f : _) (bar : _) (op : _) (off : _) (operand : _) (compare : _) (tbit : _) {s : State} (hs : SameBut msk s0 s)
    (hmsk : sub [.reply, .regs, .slices, .dram, .chk, .errs, .cores, .caches, .cnts, .wire] msk = true) :
    OutSame msk s0 (execAtomicOp f bar op off operand compare tbit s) := by
  unfold execAtomicOp; try dsimp only
  repeat' first
    | with_reducible first
      | assumption | exact sub_trans hmsk rfl | apply OutSame.next | apply State.completerAbort_same
      | apply State.unsupported_same | apply atomic_same
    | intro _
    | split
    | dsimp only

theorem sqBell_same {msk : List Fld} {s0 : State} (g : _) (v : _) {s : State} (hs : SameBut msk s0 s)
    (hmsk : sub [.regs, .rings] msk = true) :
    SameBut msk s0 (sqBell g v s) := by
  unfold sqBell; try dsimp only
  repeat' first
    | with_reducible first
      | assumption | exact sub_trans hmsk rfl | apply State.setBit_same | apply State.updRing_same
    | intro _
    | split
    | dsimp only

theorem execSqDoorbell_same {msk : List Fld} {s0 : State} (g : _) (v : _) (tbit : _) {s : State} (hs : SameBut msk s0 s)
    (hmsk : sub [.regs, .rings, .dbg] msk = true) :
    OutSame msk s0 (execSqDoorbell g v tbit s) := by
  unfold execSqDoorbell; try dsimp only
  repeat' first
    | with_reducible first
      | assumption | exact sub_trans hmsk rfl | apply OutSame.next | apply State.dropPosted_same
      | apply sqBell_same
    | intro _
    | split
    | dsimp only

theorem cqBell_same {msk : List Fld} {s0 : State} (g : _) (v : _) {s : State} (hs : SameBut msk s0 s)
    (hmsk : sub [.regs, .rings, .cores, .wire] msk = true) :
    SameBut msk s0 (cqBell g v s) := by
  unfold cqBell; try dsimp only
  repeat' first
    | with_reducible first
      | assumption | exact sub_trans hmsk rfl | apply State.releaseCpls_same | apply State.setBit_same
      | apply State.updRing_same
    | intro _
    | split
    | dsimp only

theorem execCqDoorbell_same {msk : List Fld} {s0 : State} (g : _) (v : _) (tbit : _) {s : State} (hs : SameBut msk s0 s)
    (hmsk : sub [.regs, .rings, .cores, .dbg, .wire] msk = true) :
    OutSame msk s0 (execCqDoorbell g v tbit s) := by
  unfold execCqDoorbell; try dsimp only
  repeat' first
    | with_reducible first
      | assumption | exact sub_trans hmsk rfl | apply OutSame.next | apply State.dropPosted_same
      | apply cqBell_same
    | intro _
    | split
    | dsimp only

theorem fetch_same {msk : List Fld} {s0 : State} (g : _) {s : State} (hs : SameBut msk s0 s)
    (hmsk : sub [.funcs] msk = true) :
    SameBut msk s0 (fetch g s) := by
  unfold fetch; try dsimp only
  repeat' first
    | with_reducible first
      | assumption | exact sub_trans hmsk rfl | apply State.updFunc_same
    | intro _
    | split
    | dsimp only

theorem execSqFetch_same {msk : List Fld} {s0 : State} (g : _) {s : State} (hs : SameBut msk s0 s)
    (hmsk : sub [.funcs] msk = true) :
    OutSame msk s0 (execSqFetch g s) := by
  unfold execSqFetch; try dsimp only
  repeat' first
    | with_reducible first
      | assumption | exact sub_trans hmsk rfl | apply OutSame.next | apply fetch_same
    | intro _
    | split
    | dsimp only

theorem State.takeEntries_same {msk : List Fld} {s0 : State} {s : State} (g : _) (data : _) (hs : SameBut msk s0 s)
    (hmsk : sub [.rings, .funcs] msk = true) :
    SameBut msk s0 (State.takeEntries s g data) := by
  unfold State.takeEntries; try dsimp only
  repeat' first
    | with_reducible first
      | assumption | exact sub_trans hmsk rfl | apply State.setRing_same | apply State.updFunc_same
    | intro _
    | split
    | dsimp only

theorem State.copyIn_same {msk : List Fld} {s0 : State} {s : State} (g : _) (c : _) (r : _) (data : _) (left : _) (moved : _) (hs : SameBut msk s0 s)
    (hmsk : sub [.regs, .slices, .dram, .chk, .rings, .funcs, .errs, .cores, .caches, .cnts, .wire] msk = true) :
    SameBut msk s0 (State.copyIn s g c r data left moved) := by
  unfold State.copyIn; try dsimp only
  repeat' first
    | with_reducible first
      | assumption | exact sub_trans hmsk rfl | apply State.devWrite_same | apply State.finishCmd_same
      | apply State.updCmd_same | apply State.updFunc_same
    | intro _
    | split
    | dsimp only

theorem State.dropRead_same {msk : List Fld} {s0 : State} {s : State} (f : _) (i : _) (hs : SameBut msk s0 s)
    (hmsk : sub [.funcs] msk = true) :
    SameBut msk s0 (State.dropRead s f i) := by
  unfold State.dropRead; try dsimp only
  repeat' first
    | with_reducible first
      | assumption | exact sub_trans hmsk rfl | apply State.updFunc_same
    | intro _
    | split
    | dsimp only

theorem State.readFailed_same {msk : List Fld} {s0 : State} {s : State} (f : _) (i : _) (r : _) (hs : SameBut msk s0 s)
    (hmsk : sub [.regs, .rings, .funcs, .cores, .wire] msk = true) :
    SameBut msk s0 (State.readFailed s f i r) := by
  unfold State.readFailed; try dsimp only
  repeat' first
    | with_reducible first
      | assumption | exact sub_trans hmsk rfl | apply State.dropRead_same | apply State.finishCmd_same
      | apply State.setBit_same | apply State.updRing_same
    | intro _
    | split
    | dsimp only

theorem readDone_same {msk : List Fld} {s0 : State} (f : _) (i : _) (r : _) (data : _) {s : State} (hs : SameBut msk s0 s)
    (hmsk : sub [.regs, .slices, .dram, .chk, .rings, .funcs, .errs, .cores, .caches, .cnts, .wire] msk = true) :
    SameBut msk s0 (readDone f i r data s) := by
  unfold readDone; try dsimp only
  repeat' first
    | with_reducible first
      | assumption | exact sub_trans hmsk rfl | apply State.copyIn_same | apply State.dropRead_same
      | apply State.takeEntries_same
    | intro _
    | split
    | dsimp only

theorem hostReadDone_same {msk : List Fld} {s0 : State} (f : _) (i : _) (ok : _) (data : _) {s : State} (hs : SameBut msk s0 s)
    (hmsk : sub [.regs, .slices, .dram, .chk, .rings, .funcs, .errs, .cores, .caches, .cnts, .wire] msk = true) :
    SameBut msk s0 (hostReadDone f i ok data s) := by
  unfold hostReadDone; try dsimp only
  repeat' first
    | with_reducible first
      | assumption | exact sub_trans hmsk rfl | apply State.readFailed_same | apply readDone_same
    | intro _
    | split
    | dsimp only

theorem execHostReadCompletion_same {msk : List Fld} {s0 : State} (f : _) (i : _) (ok : _) (data : _) {s : State} (hs : SameBut msk s0 s)
    (hmsk : sub [.regs, .slices, .dram, .chk, .rings, .funcs, .errs, .cores, .caches, .dbg, .cnts, .wire] msk = true) :
    OutSame msk s0 (execHostReadCompletion f i ok data s) := by
  unfold execHostReadCompletion; try dsimp only
  repeat' first
    | with_reducible first
      | assumption | exact sub_trans hmsk rfl | apply OutSame.next | apply hostReadDone_same
    | intro _
    | split
    | with_reducible apply SameBut.lit_dbg
    | dsimp only

theorem execCompletionTimeout_same {msk : List Fld} {s0 : State} (f : _) (i : _) {s : State} (hs : SameBut msk s0 s)
    (hmsk : sub [.regs, .rings, .funcs, .lndErr, .cores, .wire] msk = true) :
    OutSame msk s0 (execCompletionTimeout f i s) := by
  unfold execCompletionTimeout; try dsimp only
  repeat' first
    | with_reducible first
      | assumption | exact sub_trans hmsk rfl | apply OutSame.next | apply State.lndCount_same
      | apply State.readFailed_same
    | intro _
    | split
    | dsimp only

/-! ### RingCmd -/

theorem State.popCmd_same {msk : List Fld} {s0 : State} {s : State} (g : _) (hs : SameBut msk s0 s)
    (hmsk : sub [.rings] msk = true) :
    SameBut msk s0 (State.popCmd s g) := by
  unfold State.popCmd; try dsimp only
  repeat' first
    | with_reducible first
      | assumption | exact sub_trans hmsk rfl | apply State.updRing_same
    | intro _
    | split
    | dsimp only

theorem State.instant_same {msk : List Fld} {s0 : State} {s : State} (g : _) (c : _) (status : _) (value : _) (hs : SameBut msk s0 s)
    (hmsk : sub [.rings, .cores, .wire] msk = true) :
    SameBut msk s0 (State.instant s g c status value) := by
  unfold State.instant; try dsimp only
  repeat' first
    | with_reducible first
      | assumption | exact sub_trans hmsk rfl | apply State.endCmd_same | apply State.popCmd_same
    | intro _
    | split
    | dsimp only

theorem State.runCmd_same {msk : List Fld} {s0 : State} {s : State} (g : _) (c : _) (st : _) (hs : SameBut msk s0 s)
    (hmsk : sub [.rings] msk = true) :
    SameBut msk s0 (State.runCmd s g c st) := by
  unfold State.runCmd; try dsimp only
  repeat' first
    | with_reducible first
      | assumption | exact sub_trans hmsk rfl | apply State.popCmd_same | apply State.updRing_same
    | intro _
    | split
    | dsimp only

theorem startCmd_same {msk : List Fld} {s0 : State} (g : _) (sel : _) (k : _) {s : State} (hk : ∀ c u, SameBut msk s0 u → SameBut msk s0 (k c u)) (hs : SameBut msk s0 s)
    (hmsk : sub [.rings, .cores, .wire] msk = true) :
    SameBut msk s0 (startCmd g sel k s) := by
  unfold startCmd; try dsimp only
  repeat' first
    | with_reducible first
      | assumption | exact sub_trans hmsk rfl | apply hk | apply State.instant_same
    | intro _
    | split
    | dsimp only

theorem execReservedOpcode_same {msk : List Fld} {s0 : State} (g : _) {s : State} (hs : SameBut msk s0 s)
    (hmsk : sub [.rings, .cores, .wire] msk = true) :
    OutSame msk s0 (execReservedOpcode g s) := by
  unfold execReservedOpcode; try dsimp only
  repeat' first
    | with_reducible first
      | assumption | exact sub_trans hmsk rfl | apply OutSame.next | apply startCmd_same
    | intro _
    | split
    | dsimp only

theorem State.hostDma_same {msk : List Fld} {s0 : State} {s : State} (g : _) (c : _) (hs : SameBut msk s0 s)
    (hmsk : sub [.regs, .rings, .cores, .wire] msk = true) :
    SameBut msk s0 (State.hostDma s g c) := by
  unfold State.hostDma; try dsimp only
  repeat' first
    | with_reducible first
      | assumption | exact sub_trans hmsk rfl | apply State.instant_same | apply State.setBit_same
    | intro _
    | split
    | dsimp only

theorem State.feedChans_same {msk : List Fld} {s0 : State} {s : State} (g : _) (c : _) (cs : _) (todo : _) (hs : SameBut msk s0 s)
    (hmsk : sub [.regs, .chans, .net, .reqTabs, .rings, .cores, .wire] msk = true) :
    SameBut msk s0 (State.feedChans s g c cs todo) := by
  unfold State.feedChans; try dsimp only
  repeat' first
    | with_reducible first
      | assumption | exact sub_trans hmsk rfl | apply SameBut.foldl | apply SameBut.foldl1
      | apply SameBut.foldlDev | apply SameBut.foldlMv | apply SameBut.foldlDn | apply State.iodNext_same
      | apply State.refillChan_same | apply State.runCmd_same
    | intro _
    | split
    | dsimp only

theorem copyOut_same {msk : List Fld} {s0 : State} {s : State} (f : _) (src : _) (host : _) (ps : _) (hs : SameBut msk s0 s)
    (hmsk : sub [.freeCtr, .regs, .slices, .dram, .chk, .errs, .cores, .cnts, .wire] msk = true) :
    SameBut msk s0 (copyOut s f src host ps).1 := by
  unfold copyOut; try dsimp only
  repeat' first
    | with_reducible first
      | assumption | exact sub_trans hmsk rfl | apply SameBut.foldl | apply SameBut.foldl1
      | apply SameBut.foldlDev | apply SameBut.foldlMv | apply SameBut.foldlDn | apply State.devRead_same
      | apply State.send_same
    | intro _
    | split
    | dsimp only

theorem copyCmd_same {msk : List Fld} {s0 : State} (g : _) (c : _) {s : State} (hs : SameBut msk s0 s)
    (hmsk : sub [.freeCtr, .regs, .chans, .slices, .dram, .chk, .net, .reqTabs, .rings, .funcs, .errs, .cores, .cnts, .wire] msk = true) :
    SameBut msk s0 (copyCmd g c s) := by
  unfold copyCmd; try dsimp only
  repeat' first
    | with_reducible first
      | assumption | exact sub_trans hmsk rfl | apply State.feedChans_same | apply State.instant_same
      | apply State.runCmd_same | apply State.updFunc_same | apply copyOut_same
    | intro _
    | split
    | dsimp only

theorem execCopy_same {msk : List Fld} {s0 : State} (g : _) {s : State} (hs : SameBut msk s0 s)
    (hmsk : sub [.freeCtr, .regs, .chans, .slices, .dram, .chk, .net, .reqTabs, .rings, .funcs, .errs, .cores, .cnts, .wire] msk = true) :
    OutSame msk s0 (execCopy g s) := by
  unfold execCopy; try dsimp only
  repeat' first
    | with_reducible first
      | assumption | exact sub_trans hmsk rfl | apply OutSame.next | apply copyCmd_same | apply startCmd_same
    | intro _
    | split
    | dsimp only

theorem fillCmd_same {msk : List Fld} {s0 : State} (g : _) (c : _) {s : State} (hs : SameBut msk s0 s)
    (hmsk : sub [.regs, .chans, .net, .reqTabs, .rings, .cores, .wire] msk = true) :
    SameBut msk s0 (fillCmd g c s) := by
  unfold fillCmd; try dsimp only
  repeat' first
    | with_reducible first
      | assumption | exact sub_trans hmsk rfl | apply State.feedChans_same | apply State.instant_same
    | intro _
    | split
    | dsimp only

theorem execFill_same {msk : List Fld} {s0 : State} (g : _) {s : State} (hs : SameBut msk s0 s)
    (hmsk : sub [.regs, .chans, .net, .reqTabs, .rings, .cores, .wire] msk = true) :
    OutSame msk s0 (execFill g s) := by
  unfold execFill; try dsimp only
  repeat' first
    | with_reducible first
      | assumption | exact sub_trans hmsk rfl | apply OutSame.next | apply fillCmd_same | apply startCmd_same
    | intro _
    | split
    | dsimp only

theorem State.startNoriaOp_same {msk : List Fld} {s0 : State} {s : State} (g : _) (c : _) (list : _) (hs : SameBut msk s0 s)
    (hmsk : sub [.parts, .rings] msk = true) :
    SameBut msk s0 (State.startNoriaOp s g c list) := by
  unfold State.startNoriaOp; try dsimp only
  repeat' first
    | with_reducible first
      | assumption | exact sub_trans hmsk rfl | apply State.refillWin_same | apply State.runCmd_same
    | intro _
    | split
    | dsimp only

theorem noriaOpCmd_same {msk : List Fld} {s0 : State} (list : _) (g : _) (c : _) {s : State} (hs : SameBut msk s0 s)
    (hmsk : sub [.freeCtr, .regs, .slices, .dram, .chk, .parts, .rings, .errs, .cores, .cnts, .wire] msk = true) :
    SameBut msk s0 (noriaOpCmd list g c s) := by
  unfold noriaOpCmd; try dsimp only
  repeat' first
    | with_reducible first
      | assumption | exact sub_trans hmsk rfl | apply State.devRead_same | apply State.hostDma_same
      | apply State.instant_same | apply State.startNoriaOp_same
    | intro _
    | split
    | dsimp only

theorem execNoriaOp_same {msk : List Fld} {s0 : State} (g : _) (list : _) {s : State} (hs : SameBut msk s0 s)
    (hmsk : sub [.freeCtr, .regs, .slices, .dram, .chk, .parts, .rings, .errs, .cores, .cnts, .wire] msk = true) :
    OutSame msk s0 (execNoriaOp g list s) := by
  unfold execNoriaOp; try dsimp only
  repeat' first
    | with_reducible first
      | assumption | exact sub_trans hmsk rfl | apply OutSame.next | apply noriaOpCmd_same | apply startCmd_same
    | intro _
    | split
    | dsimp only

theorem fenceCmd_same {msk : List Fld} {s0 : State} (g : _) (c : _) {s : State} (hs : SameBut msk s0 s)
    (hmsk : sub [.rings, .cores, .wire] msk = true) :
    SameBut msk s0 (fenceCmd g c s) := by
  unfold fenceCmd; try dsimp only
  repeat' first
    | with_reducible first
      | assumption | exact sub_trans hmsk rfl | apply State.instant_same | apply State.runCmd_same
    | intro _
    | split
    | dsimp only

theorem execFence_same {msk : List Fld} {s0 : State} (g : _) {s : State} (hs : SameBut msk s0 s)
    (hmsk : sub [.rings, .cores, .wire] msk = true) :
    OutSame msk s0 (execFence g s) := by
  unfold execFence; try dsimp only
  repeat' first
    | with_reducible first
      | assumption | exact sub_trans hmsk rfl | apply OutSame.next | apply fenceCmd_same | apply startCmd_same
    | intro _
    | split
    | dsimp only

theorem signalCmd_same {msk : List Fld} {s0 : State} (g : _) (c : _) {s : State} (hs : SameBut msk s0 s)
    (hmsk : sub [.regs, .slices, .dram, .chk, .net, .rings, .errs, .cores, .caches, .cnts, .wire] msk = true) :
    SameBut msk s0 (signalCmd g c s) := by
  unfold signalCmd; try dsimp only
  repeat' first
    | with_reducible first
      | assumption | exact sub_trans hmsk rfl | apply State.devWeir_same | apply State.inject_same
      | apply State.instant_same
    | intro _
    | split
    | dsimp only

theorem execSignal_same {msk : List Fld} {s0 : State} (g : _) {s : State} (hs : SameBut msk s0 s)
    (hmsk : sub [.regs, .slices, .dram, .chk, .net, .rings, .errs, .cores, .caches, .cnts, .wire] msk = true) :
    OutSame msk s0 (execSignal g s) := by
  unfold execSignal; try dsimp only
  repeat' first
    | with_reducible first
      | assumption | exact sub_trans hmsk rfl | apply OutSame.next | apply signalCmd_same | apply startCmd_same
    | intro _
    | split
    | dsimp only

theorem waitCmd_same {msk : List Fld} {s0 : State} (g : _) (c : _) {s : State} (hs : SameBut msk s0 s)
    (hmsk : sub [.rings, .cores, .wire] msk = true) :
    SameBut msk s0 (waitCmd g c s) := by
  unfold waitCmd; try dsimp only
  repeat' first
    | with_reducible first
      | assumption | exact sub_trans hmsk rfl | apply State.instant_same | apply State.runCmd_same
    | intro _
    | split
    | dsimp only

theorem execWait_same {msk : List Fld} {s0 : State} (g : _) {s : State} (hs : SameBut msk s0 s)
    (hmsk : sub [.rings, .cores, .wire] msk = true) :
    OutSame msk s0 (execWait g s) := by
  unfold execWait; try dsimp only
  repeat' first
    | with_reducible first
      | assumption | exact sub_trans hmsk rfl | apply OutSame.next | apply startCmd_same | apply waitCmd_same
    | intro _
    | split
    | dsimp only

theorem pollWait_same {msk : List Fld} {s0 : State} (g : _) (c : _) {s : State} (hs : SameBut msk s0 s)
    (hmsk : sub [.freeCtr, .regs, .slices, .dram, .chk, .rings, .errs, .cores, .cnts, .wire] msk = true) :
    SameBut msk s0 (pollWait g c s) := by
  unfold pollWait; try dsimp only
  repeat' first
    | with_reducible first
      | assumption | exact sub_trans hmsk rfl | apply State.devRead_same | apply State.finishCmd_same
    | intro _
    | split
    | dsimp only

theorem execWaitPoll_same {msk : List Fld} {s0 : State} (g : _) {s : State} (hs : SameBut msk s0 s)
    (hmsk : sub [.freeCtr, .regs, .slices, .dram, .chk, .rings, .errs, .cores, .cnts, .wire] msk = true) :
    OutSame msk s0 (execWaitPoll g s) := by
  unfold execWaitPoll; try dsimp only
  repeat' first
    | with_reducible first
      | assumption | exact sub_trans hmsk rfl | apply OutSame.next | apply pollWait_same
    | intro _
    | split
    | dsimp only

theorem timeoutWait_same {msk : List Fld} {s0 : State} (g : _) (c : _) {s : State} (hs : SameBut msk s0 s)
    (hmsk : sub [.freeCtr, .regs, .slices, .dram, .chk, .rings, .errs, .cores, .cnts, .wire] msk = true) :
    SameBut msk s0 (timeoutWait g c s) := by
  unfold timeoutWait; try dsimp only
  repeat' first
    | with_reducible first
      | assumption | exact sub_trans hmsk rfl | apply State.devRead_same | apply State.drawn_same
      | apply State.finishCmd_same
    | intro _
    | split
    | dsimp only

theorem execWaitTimeout_same {msk : List Fld} {s0 : State} (g : _) {s : State} (hs : SameBut msk s0 s)
    (hmsk : sub [.freeCtr, .regs, .slices, .dram, .chk, .rings, .errs, .cores, .cnts, .wire] msk = true) :
    OutSame msk s0 (execWaitTimeout g s) := by
  unfold execWaitTimeout; try dsimp only
  repeat' first
    | with_reducible first
      | assumption | exact sub_trans hmsk rfl | apply OutSame.next | apply timeoutWait_same
    | intro _
    | split
    | dsimp only

theorem State.writeHost_same {msk : List Fld} {s0 : State} {s : State} (f : _) (host : _) (data : _) (hs : SameBut msk s0 s)
    (hmsk : sub [.wire] msk = true) :
    SameBut msk s0 (State.writeHost s f host data) := by
  unfold State.writeHost; try dsimp only
  repeat' first
    | with_reducible first
      | assumption | exact sub_trans hmsk rfl | apply SameBut.foldl | apply SameBut.foldl1
      | apply SameBut.foldlDev | apply SameBut.foldlMv | apply SameBut.foldlDn | apply State.send_same
    | intro _
    | split
    | dsimp only

theorem State.queryDone_same {msk : List Fld} {s0 : State} {s : State} (g : _) (c : _) (data : _) (hs : SameBut msk s0 s)
    (hmsk : sub [.rings, .cores, .wire] msk = true) :
    SameBut msk s0 (State.queryDone s g c data) := by
  unfold State.queryDone; try dsimp only
  repeat' first
    | with_reducible first
      | assumption | exact sub_trans hmsk rfl | apply State.instant_same | apply State.writeHost_same
    | intro _
    | split
    | dsimp only

theorem counterQuery_same {msk : List Fld} {s0 : State} (g : _) (k : _) (c : _) {s : State} (hs : SameBut msk s0 s)
    (hmsk : sub [.rings, .cores, .cnts, .wire] msk = true) :
    SameBut msk s0 (counterQuery g k c s) := by
  unfold counterQuery; try dsimp only
  repeat' first
    | with_reducible first
      | assumption | exact sub_trans hmsk rfl | apply State.cntSwitch_same | apply State.queryDone_same
    | intro _
    | split
    | dsimp only

theorem queryCmd_same {msk : List Fld} {s0 : State} (g : _) (c : _) {s : State} (hs : SameBut msk s0 s)
    (hmsk : sub [.rings, .cores, .cnts, .wire] msk = true) :
    SameBut msk s0 (queryCmd g c s) := by
  unfold queryCmd; try dsimp only
  repeat' first
    | with_reducible first
      | assumption | exact sub_trans hmsk rfl | apply State.instant_same | apply State.queryDone_same
      | apply counterQuery_same
    | intro _
    | split
    | dsimp only

theorem execQuery_same {msk : List Fld} {s0 : State} (g : _) {s : State} (hs : SameBut msk s0 s)
    (hmsk : sub [.rings, .cores, .cnts, .wire] msk = true) :
    OutSame msk s0 (execQuery g s) := by
  unfold execQuery; try dsimp only
  repeat' first
    | with_reducible first
      | assumption | exact sub_trans hmsk rfl | apply OutSame.next | apply queryCmd_same | apply startCmd_same
    | intro _
    | split
    | dsimp only

theorem selftestCmd_same {msk : List Fld} {s0 : State} (g : _) (c : _) {s : State} (hs : SameBut msk s0 s)
    (hmsk : sub [.rings, .cores, .faults, .wire] msk = true) :
    SameBut msk s0 (selftestCmd g c s) := by
  unfold selftestCmd; try dsimp only
  repeat' first
    | with_reducible first
      | assumption | exact sub_trans hmsk rfl | apply State.instant_same | apply State.runCmd_same
    | intro _
    | split
    | with_reducible apply SameBut.lit_faults
    | dsimp only

theorem execSelftest_same {msk : List Fld} {s0 : State} (g : _) {s : State} (hs : SameBut msk s0 s)
    (hmsk : sub [.rings, .cores, .faults, .wire] msk = true) :
    OutSame msk s0 (execSelftest g s) := by
  unfold execSelftest; try dsimp only
  repeat' first
    | with_reducible first
      | assumption | exact sub_trans hmsk rfl | apply OutSame.next | apply selftestCmd_same | apply startCmd_same
    | intro _
    | split
    | dsimp only

theorem spareInCmd_same {msk : List Fld} {s0 : State} (g : _) (c : _) {s : State} (hs : SameBut msk s0 s)
    (hmsk : sub [.rings, .cores, .faults, .wire] msk = true) :
    SameBut msk s0 (spareInCmd g c s) := by
  unfold spareInCmd; try dsimp only
  repeat' first
    | with_reducible first
      | assumption | exact sub_trans hmsk rfl | apply State.instant_same | apply State.runCmd_same
    | intro _
    | split
    | with_reducible apply SameBut.lit_faults
    | dsimp only

theorem execSpareIn_same {msk : List Fld} {s0 : State} (g : _) {s : State} (hs : SameBut msk s0 s)
    (hmsk : sub [.rings, .cores, .faults, .wire] msk = true) :
    OutSame msk s0 (execSpareIn g s) := by
  unfold execSpareIn; try dsimp only
  repeat' first
    | with_reducible first
      | assumption | exact sub_trans hmsk rfl | apply OutSame.next | apply spareInCmd_same | apply startCmd_same
    | intro _
    | split
    | dsimp only

/-! ### Graph -/

theorem State.reopen_same {msk : List Fld} {s0 : State} {s : State} (e : _) (hs : SameBut msk s0 s)
    (hmsk : sub [.regs, .plots] msk = true) :
    SameBut msk s0 (State.reopen s e) := by
  unfold State.reopen; try dsimp only
  repeat' first
    | with_reducible first
      | assumption | exact sub_trans hmsk rfl | apply State.setReg_same | apply State.updPlot_same
    | intro _
    | split
    | dsimp only

theorem State.writeStream_same {msk : List Fld} {s0 : State} {s : State} (e : _) (hs : SameBut msk s0 s)
    (hmsk : sub [.regs, .plots] msk = true) :
    SameBut msk s0 (State.writeStream s e) := by
  unfold State.writeStream; try dsimp only
  repeat' first
    | with_reducible first
      | assumption | exact sub_trans hmsk rfl | apply SameBut.foldl | apply SameBut.foldl1
      | apply SameBut.foldlDev | apply SameBut.foldlMv | apply SameBut.foldlDn | apply State.reopen_same
      | apply State.setReg_same
    | intro _
    | split
    | dsimp only

theorem State.installGraph_same {msk : List Fld} {s0 : State} {s : State} (n : _) (sl : _) (l : _) (hs : SameBut msk s0 s)
    (hmsk : sub [.regs, .plots, .parts, .sec] msk = true) :
    SameBut msk s0 (State.installGraph s n sl l) := by
  unfold State.installGraph; try dsimp only
  repeat' first
    | with_reducible first
      | assumption | exact sub_trans hmsk rfl | apply SameBut.foldl | apply SameBut.foldl1
      | apply SameBut.foldlDev | apply SameBut.foldlMv | apply SameBut.foldlDn | apply State.updPlot_same
      | apply State.updSlot_same | apply State.writeStream_same
    | intro _
    | split
    | with_reducible apply SameBut.lit_sec
    | dsimp only

theorem loadImage_same {msk : List Fld} {s0 : State} (g : _) (c : _) (l : _) {s : State} (hs : SameBut msk s0 s)
    (hmsk : sub [.regs, .plots, .parts, .rings, .cores, .sec, .wire] msk = true) :
    SameBut msk s0 (loadImage g c l s) := by
  unfold loadImage; try dsimp only
  repeat' first
    | with_reducible first
      | assumption | exact sub_trans hmsk rfl | apply State.installGraph_same | apply State.instant_same
    | intro _
    | split
    | dsimp only

theorem State.unloadSlot_same {msk : List Fld} {s0 : State} {s : State} (n : _) (sl : _) (hs : SameBut msk s0 s)
    (hmsk : sub [.parts, .sec] msk = true) :
    SameBut msk s0 (State.unloadSlot s n sl) := by
  unfold State.unloadSlot; try dsimp only
  repeat' first
    | with_reducible first
      | assumption | exact sub_trans hmsk rfl | apply State.updSlot_same
    | intro _
    | split
    | with_reducible apply SameBut.lit_sec
    | dsimp only

theorem loadGraphCmd_same {msk : List Fld} {s0 : State} (image : _) (g : _) (c : _) {s : State} (hs : SameBut msk s0 s)
    (hmsk : sub [.freeCtr, .regs, .plots, .slices, .dram, .chk, .parts, .rings, .errs, .cores, .sec, .cnts, .wire] msk = true) :
    SameBut msk s0 (loadGraphCmd image g c s) := by
  unfold loadGraphCmd; try dsimp only
  repeat' first
    | with_reducible first
      | assumption | exact sub_trans hmsk rfl | apply State.devRead_same | apply State.hostDma_same
      | apply State.instant_same | apply State.unloadSlot_same | apply loadImage_same
    | intro _
    | split
    | dsimp only

theorem execLoadGraph_same {msk : List Fld} {s0 : State} (g : _) (image : _) {s : State} (hs : SameBut msk s0 s)
    (hmsk : sub [.freeCtr, .regs, .plots, .slices, .dram, .chk, .parts, .rings, .errs, .cores, .sec, .cnts, .wire] msk = true) :
    OutSame msk s0 (execLoadGraph g image s) := by
  unfold execLoadGraph; try dsimp only
  repeat' first
    | with_reducible first
      | assumption | exact sub_trans hmsk rfl | apply OutSame.next | apply loadGraphCmd_same | apply startCmd_same
    | intro _
    | split
    | dsimp only

theorem State.releasePlot_same {msk : List Fld} {s0 : State} {s : State} (k : _) (args : _) (tag : _) (hs : SameBut msk s0 s)
    (hmsk : sub [.regs, .plots, .cnts] msk = true) :
    SameBut msk s0 (State.releasePlot s k args tag) := by
  unfold State.releasePlot; try dsimp only
  repeat' first
    | with_reducible first
      | assumption | exact sub_trans hmsk rfl | apply SameBut.foldl | apply SameBut.foldl1
      | apply SameBut.foldlDev | apply SameBut.foldlMv | apply SameBut.foldlDn | apply State.cntSwitch_same
      | apply State.setFld_same | apply State.updPlot_same
    | intro _
    | split
    | dsimp only

theorem State.startRun_same {msk : List Fld} {s0 : State} {s : State} (g : _) (c : _) (n : _) (sl : _) (hs : SameBut msk s0 s)
    (hmsk : sub [.regs, .plots, .parts, .rings, .cores, .cnts, .wire] msk = true) :
    SameBut msk s0 (State.startRun s g c n sl) := by
  unfold State.startRun; try dsimp only
  repeat' first
    | with_reducible first
      | assumption | exact sub_trans hmsk rfl | apply SameBut.foldl | apply SameBut.foldl1
      | apply SameBut.foldlDev | apply SameBut.foldlMv | apply SameBut.foldlDn | apply State.faultRun_same
      | apply State.releasePlot_same | apply State.runCmd_same | apply State.updSlot_same
      | apply State.writeStream_same
    | intro _
    | split
    | dsimp only

theorem runGraphCmd_same {msk : List Fld} {s0 : State} (g : _) (c : _) {s : State} (hs : SameBut msk s0 s)
    (hmsk : sub [.regs, .plots, .parts, .rings, .cores, .cnts, .wire] msk = true) :
    SameBut msk s0 (runGraphCmd g c s) := by
  unfold runGraphCmd; try dsimp only
  repeat' first
    | with_reducible first
      | assumption | exact sub_trans hmsk rfl | apply State.instant_same | apply State.startRun_same
    | intro _
    | split
    | dsimp only

theorem execRunGraph_same {msk : List Fld} {s0 : State} (g : _) {s : State} (hs : SameBut msk s0 s)
    (hmsk : sub [.regs, .plots, .parts, .rings, .cores, .cnts, .wire] msk = true) :
    OutSame msk s0 (execRunGraph g s) := by
  unfold execRunGraph; try dsimp only
  repeat' first
    | with_reducible first
      | assumption | exact sub_trans hmsk rfl | apply OutSame.next | apply runGraphCmd_same | apply startCmd_same
    | intro _
    | split
    | dsimp only

theorem endPart_same {msk : List Fld} {s0 : State} (k : _) {s : State} (hs : SameBut msk s0 s)
    (hmsk : sub [.plots, .parts, .rings, .cores, .wire] msk = true) :
    SameBut msk s0 (endPart k s) := by
  unfold endPart; try dsimp only
  repeat' first
    | with_reducible first
      | assumption | exact sub_trans hmsk rfl | apply State.partEnded_same | apply State.updPlot_same
    | intro _
    | split
    | dsimp only

theorem execPlotPartEnd_same {msk : List Fld} {s0 : State} (p : _) {s : State} (hs : SameBut msk s0 s)
    (hmsk : sub [.plots, .parts, .rings, .cores, .wire] msk = true) :
    OutSame msk s0 (execPlotPartEnd p s) := by
  unfold execPlotPartEnd; try dsimp only
  repeat' first
    | with_reducible first
      | assumption | exact sub_trans hmsk rfl | apply OutSame.next | apply endPart_same
    | intro _
    | split
    | dsimp only

theorem execRunTimeout_same {msk : List Fld} {s0 : State} (n : _) (slot : _) {s : State} (hs : SameBut msk s0 s)
    (hmsk : sub [.parts, .rings, .cores, .wire] msk = true) :
    OutSame msk s0 (execRunTimeout n slot s) := by
  unfold execRunTimeout; try dsimp only
  repeat' first
    | with_reducible first
      | assumption | exact sub_trans hmsk rfl | apply OutSame.next | apply State.answerRun_same
    | intro _
    | split
    | dsimp only

/-! ### StopOps -/

theorem State.queueStopped_same {msk : List Fld} {s0 : State} {s : State} (k : _) (q : _) (hs : SameBut msk s0 s)
    (hmsk : sub [.plots] msk = true) :
    SameBut msk s0 (State.queueStopped s k q) := by
  unfold State.queueStopped; try dsimp only
  repeat' first
    | with_reducible first
      | assumption | exact sub_trans hmsk rfl | apply State.updQueue_same
    | intro _
    | split
    | dsimp only

theorem State.writeVecs_same {msk : List Fld} {s0 : State} {s : State} (k : _) (hs : SameBut msk s0 s)
    (hmsk : sub [.regs, .plots, .net, .parts, .dbg, .cnts] msk = true) :
    SameBut msk s0 (State.writeVecs s k) := by
  unfold State.writeVecs; try dsimp only
  repeat' first
    | with_reducible first
      | assumption | exact sub_trans hmsk rfl | apply SameBut.foldl | apply SameBut.foldl1
      | apply SameBut.foldlDev | apply SameBut.foldlMv | apply SameBut.foldlDn | apply accWrite_same
    | intro _
    | split
    | dsimp only

theorem State.expireArr_same {msk : List Fld} {s0 : State} {s : State} (k : _) (hs : SameBut msk s0 s)
    (hmsk : sub [.freeCtr, .regs, .plots, .net, .parts, .dbg, .cnts] msk = true) :
    SameBut msk s0 (State.expireArr s k) := by
  unfold State.expireArr; try dsimp only
  repeat' first
    | with_reducible first
      | assumption | exact sub_trans hmsk rfl | apply SameBut.foldl | apply SameBut.foldl1
      | apply SameBut.foldlDev | apply SameBut.foldlMv | apply SameBut.foldlDn | apply State.clearArr_same
      | apply State.complete_same | apply State.writeVecs_same
    | intro _
    | split
    | dsimp only

theorem State.expireVec_same {msk : List Fld} {s0 : State} {s : State} (k : _) (hs : SameBut msk s0 s)
    (hmsk : sub [.regs, .plots, .net, .parts, .dbg, .cnts] msk = true) :
    SameBut msk s0 (State.expireVec s k) := by
  unfold State.expireVec; try dsimp only
  repeat' first
    | with_reducible first
      | assumption | exact sub_trans hmsk rfl | apply State.complete_same | apply State.updPlot_same
    | intro _
    | split
    | dsimp only

theorem State.expireDesc_same {msk : List Fld} {s0 : State} {s : State} (c : _) (hs : SameBut msk s0 s)
    (hmsk : sub [.regs, .plots, .chans, .net, .reqTabs, .parts, .rings, .cores, .dbg, .cnts, .wire] msk = true) :
    SameBut msk s0 (State.expireDesc s c) := by
  unfold State.expireDesc; try dsimp only
  repeat' first
    | with_reducible first
      | assumption | exact sub_trans hmsk rfl | apply State.endDesc_same | apply State.setBit_same
    | intro _
    | split
    | dsimp only

theorem State.expireQueue_same {msk : List Fld} {s0 : State} {s : State} (k : _) (q : _) (hs : SameBut msk s0 s)
    (hmsk : sub [.freeCtr, .regs, .plots, .chans, .norias, .net, .reqTabs, .stks, .parts, .rings, .cores, .dbg, .cnts, .wire] msk = true) :
    SameBut msk s0 (State.expireQueue s k q) := by
  unfold State.expireQueue; try dsimp only
  repeat' first
    | with_reducible first
      | assumption | exact sub_trans hmsk rfl | apply SameBut.foldl | apply SameBut.foldl1
      | apply SameBut.foldlDev | apply SameBut.foldlMv | apply SameBut.foldlDn | apply State.expireArr_same
      | apply State.expireDesc_same | apply State.expireVec_same | apply State.norStopPlot_same
      | apply State.queueStopped_same
    | intro _
    | split
    | dsimp only

theorem queueStop_same {msk : List Fld} {s0 : State} (k : _) (q : _) {s : State} (hs : SameBut msk s0 s)
    (hmsk : sub [.freeCtr, .regs, .plots, .chans, .norias, .net, .reqTabs, .stks, .parts, .rings, .cores, .dbg, .cnts, .wire] msk = true) :
    SameBut msk s0 (queueStop k q s) := by
  unfold queueStop; try dsimp only
  repeat' first
    | with_reducible first
      | assumption | exact sub_trans hmsk rfl | apply State.expireQueue_same | apply queueClrEn_same
    | intro _
    | split
    | dsimp only

theorem execPqClrEn_same {msk : List Fld} {s0 : State} (r : _) (p : _) (q : _) {s : State} (hs : SameBut msk s0 s)
    (hmsk : sub [.freeCtr, .regs, .plots, .chans, .norias, .net, .reqTabs, .stks, .parts, .rings, .cores, .dbg, .cnts, .wire] msk = true) :
    OutSame msk s0 (execPqClrEn r p q s) := by
  unfold execPqClrEn; try dsimp only
  repeat' first
    | with_reducible first
      | assumption | exact sub_trans hmsk rfl | apply OutSame.next | apply State.access_same
      | apply queueStop_same
    | intro _
    | split
    | dsimp only

theorem State.chanStopped_same {msk : List Fld} {s0 : State} {s : State} (c : _) (hs : SameBut msk s0 s)
    (hmsk : sub [.chans] msk = true) :
    SameBut msk s0 (State.chanStopped s c) := by
  unfold State.chanStopped; try dsimp only
  repeat' first
    | with_reducible first
      | assumption | exact sub_trans hmsk rfl | apply State.setChan_same
    | intro _
    | split
    | dsimp only

theorem State.expireChan_same {msk : List Fld} {s0 : State} {s : State} (c : _) (hs : SameBut msk s0 s)
    (hmsk : sub [.regs, .plots, .chans, .net, .reqTabs, .parts, .rings, .cores, .dbg, .cnts, .wire] msk = true) :
    SameBut msk s0 (State.expireChan s c) := by
  unfold State.expireChan; try dsimp only
  repeat' first
    | with_reducible first
      | assumption | exact sub_trans hmsk rfl | apply State.chanStopped_same | apply State.expireDesc_same
    | intro _
    | split
    | dsimp only

theorem State.discardQueue_same {msk : List Fld} {s0 : State} {s : State} (c : _) (hs : SameBut msk s0 s)
    (hmsk : sub [.regs, .chans, .net, .rings, .cores, .wire] msk = true) :
    SameBut msk s0 (State.discardQueue s c) := by
  unfold State.discardQueue; try dsimp only
  repeat' first
    | with_reducible first
      | assumption | exact sub_trans hmsk rfl | apply SameBut.foldl | apply SameBut.foldl1
      | apply SameBut.foldlDev | apply SameBut.foldlMv | apply SameBut.foldlDn | apply State.iodEnd_same
      | apply State.setBit_same | apply State.updChan_same
    | intro _
    | split
    | dsimp only

theorem chanSetEn_same {msk : List Fld} {s0 : State} (c : _) {s : State} (hs : SameBut msk s0 s)
    (hmsk : sub [.regs, .chans] msk = true) :
    SameBut msk s0 (chanSetEn c s) := by
  unfold chanSetEn; try dsimp only
  repeat' first
    | with_reducible first
      | assumption | exact sub_trans hmsk rfl | apply State.setBit_same | apply State.updChan_same
    | intro _
    | split
    | dsimp only

theorem chanClrEn_same {msk : List Fld} {s0 : State} (c : _) {s : State} (hs : SameBut msk s0 s)
    (hmsk : sub [.regs, .plots, .chans, .net, .reqTabs, .parts, .rings, .cores, .dbg, .cnts, .wire] msk = true) :
    SameBut msk s0 (chanClrEn c s) := by
  unfold chanClrEn; try dsimp only
  repeat' first
    | with_reducible first
      | assumption | exact sub_trans hmsk rfl | apply State.clrBit_same | apply State.discardQueue_same
      | apply State.expireChan_same | apply State.updChan_same
    | intro _
    | split
    | dsimp only

theorem State.ringStopped_same {msk : List Fld} {s0 : State} {s : State} (g : _) (hs : SameBut msk s0 s)
    (hmsk : sub [.rings] msk = true) :
    SameBut msk s0 (State.ringStopped s g) := by
  unfold State.ringStopped; try dsimp only
  repeat' first
    | with_reducible first
      | assumption | exact sub_trans hmsk rfl | apply State.setRing_same
    | intro _
    | split
    | dsimp only

theorem State.expireRing_same {msk : List Fld} {s0 : State} {s : State} (g : _) (hs : SameBut msk s0 s)
    (hmsk : sub [.regs, .chans, .net, .reqTabs, .parts, .rings, .funcs, .groups, .cores, .faults, .wire] msk = true) :
    SameBut msk s0 (State.expireRing s g) := by
  unfold State.expireRing; try dsimp only
  repeat' first
    | with_reducible first
      | assumption | exact sub_trans hmsk rfl | apply State.abortRunning_same | apply State.ringStopped_same
    | intro _
    | split
    | dsimp only

theorem ringSetEn_same {msk : List Fld} {s0 : State} (g : _) {s : State} (hs : SameBut msk s0 s)
    (hmsk : sub [.rings] msk = true) :
    SameBut msk s0 (ringSetEn g s) := by
  unfold ringSetEn; try dsimp only
  repeat' first
    | with_reducible first
      | assumption | exact sub_trans hmsk rfl | apply State.updRing_same
    | intro _
    | split
    | dsimp only

theorem ringClrEn_same {msk : List Fld} {s0 : State} (g : _) {s : State} (hs : SameBut msk s0 s)
    (hmsk : sub [.regs, .chans, .net, .reqTabs, .parts, .rings, .funcs, .groups, .cores, .faults, .wire] msk = true) :
    SameBut msk s0 (ringClrEn g s) := by
  unfold ringClrEn; try dsimp only
  repeat' first
    | with_reducible first
      | assumption | exact sub_trans hmsk rfl | apply State.expireRing_same | apply State.updFunc_same
      | apply State.updRing_same
    | intro _
    | split
    | dsimp only

theorem execRingSetEn_same {msk : List Fld} {s0 : State} (r : _) (g : _) {s : State} (hs : SameBut msk s0 s)
    (hmsk : sub [.regs, .rings, .cores, .dbg, .cnts] msk = true) :
    OutSame msk s0 (execRingSetEn r g s) := by
  unfold execRingSetEn; try dsimp only
  repeat' first
    | with_reducible first
      | assumption | exact sub_trans hmsk rfl | apply OutSame.next | apply State.access_same
      | apply ringSetEn_same
    | intro _
    | split
    | dsimp only

theorem execRingClrEn_same {msk : List Fld} {s0 : State} (r : _) (g : _) {s : State} (hs : SameBut msk s0 s)
    (hmsk : sub [.regs, .chans, .net, .reqTabs, .parts, .rings, .funcs, .groups, .cores, .faults, .dbg, .cnts, .wire] msk = true) :
    OutSame msk s0 (execRingClrEn r g s) := by
  unfold execRingClrEn; try dsimp only
  repeat' first
    | with_reducible first
      | assumption | exact sub_trans hmsk rfl | apply OutSame.next | apply State.access_same
      | apply ringClrEn_same
    | intro _
    | split
    | dsimp only

theorem State.partStopped_same {msk : List Fld} {s0 : State} {s : State} (n : _) (hs : SameBut msk s0 s)
    (hmsk : sub [.parts, .cores, .wire] msk = true) :
    SameBut msk s0 (State.partStopped s n) := by
  unfold State.partStopped; try dsimp only
  repeat' first
    | with_reducible first
      | assumption | exact sub_trans hmsk rfl | apply State.setPState_same
    | intro _
    | split
    | dsimp only

theorem State.haltPlot_same {msk : List Fld} {s0 : State} {s : State} (k : _) (hs : SameBut msk s0 s)
    (hmsk : sub [.freeCtr, .regs, .plots, .chans, .norias, .net, .reqTabs, .stks, .parts, .rings, .cores, .dbg, .cnts, .wire] msk = true) :
    SameBut msk s0 (State.haltPlot s k) := by
  unfold State.haltPlot; try dsimp only
  repeat' first
    | with_reducible first
      | assumption | exact sub_trans hmsk rfl | apply SameBut.foldl | apply SameBut.foldl1
      | apply SameBut.foldlDev | apply SameBut.foldlMv | apply SameBut.foldlDn | apply State.expireQueue_same
      | apply State.updPlot_same | apply queueClrEn_same
    | intro _
    | split
    | dsimp only

theorem State.expireRun_same {msk : List Fld} {s0 : State} {s : State} (n : _) (sl : _) (hs : SameBut msk s0 s)
    (hmsk : sub [.freeCtr, .regs, .plots, .chans, .norias, .net, .reqTabs, .stks, .parts, .rings, .cores, .dbg, .cnts, .wire] msk = true) :
    SameBut msk s0 (State.expireRun s n sl) := by
  unfold State.expireRun; try dsimp only
  repeat' first
    | with_reducible first
      | assumption | exact sub_trans hmsk rfl | apply SameBut.foldl | apply SameBut.foldl1
      | apply SameBut.foldlDev | apply SameBut.foldlMv | apply SameBut.foldlDn | apply State.answerRun_same
      | apply State.dropRun_same | apply State.haltPlot_same
    | intro _
    | split
    | dsimp only

theorem State.expirePart_same {msk : List Fld} {s0 : State} {s : State} (n : _) (hs : SameBut msk s0 s)
    (hmsk : sub [.freeCtr, .regs, .plots, .chans, .norias, .net, .reqTabs, .stks, .parts, .rings, .cores, .dbg, .cnts, .wire] msk = true) :
    SameBut msk s0 (State.expirePart s n) := by
  unfold State.expirePart; try dsimp only
  repeat' first
    | with_reducible first
      | assumption | exact sub_trans hmsk rfl | apply SameBut.foldl | apply SameBut.foldl1
      | apply SameBut.foldlDev | apply SameBut.foldlMv | apply SameBut.foldlDn | apply State.expireRun_same
      | apply State.partStopped_same
    | intro _
    | split
    | dsimp only

theorem partSetEn_same {msk : List Fld} {s0 : State} (n : _) {s : State} (hs : SameBut msk s0 s)
    (hmsk : sub [.regs, .parts, .cores, .wire] msk = true) :
    SameBut msk s0 (partSetEn n s) := by
  unfold partSetEn; try dsimp only
  repeat' first
    | with_reducible first
      | assumption | exact sub_trans hmsk rfl | apply State.lockPage_same | apply State.setPState_same
      | apply State.updPart_same
    | intro _
    | split
    | dsimp only

theorem partClrEn_same {msk : List Fld} {s0 : State} (n : _) {s : State} (hs : SameBut msk s0 s)
    (hmsk : sub [.freeCtr, .regs, .plots, .chans, .norias, .net, .reqTabs, .stks, .parts, .rings, .funcs, .groups, .cores, .faults, .dbg, .cnts, .wire] msk = true) :
    SameBut msk s0 (partClrEn n s) := by
  unfold partClrEn; try dsimp only
  repeat' first
    | with_reducible first
      | assumption | exact sub_trans hmsk rfl | apply SameBut.foldl | apply SameBut.foldl1
      | apply SameBut.foldlDev | apply SameBut.foldlMv | apply SameBut.foldlDn | apply State.expirePart_same
      | apply State.setPState_same | apply State.updPart_same | apply ringClrEn_same
    | intro _
    | split
    | dsimp only

theorem execPartSetEn_same {msk : List Fld} {s0 : State} (r : _) (n : _) {s : State} (hs : SameBut msk s0 s)
    (hmsk : sub [.regs, .parts, .cores, .dbg, .cnts, .wire] msk = true) :
    OutSame msk s0 (execPartSetEn r n s) := by
  unfold execPartSetEn; try dsimp only
  repeat' first
    | with_reducible first
      | assumption | exact sub_trans hmsk rfl | apply OutSame.next | apply State.access_same
      | apply partSetEn_same
    | intro _
    | split
    | dsimp only

theorem execPartClrEn_same {msk : List Fld} {s0 : State} (r : _) (n : _) {s : State} (hs : SameBut msk s0 s)
    (hmsk : sub [.freeCtr, .regs, .plots, .chans, .norias, .net, .reqTabs, .stks, .parts, .rings, .funcs, .groups, .cores, .faults, .dbg, .cnts, .wire] msk = true) :
    OutSame msk s0 (execPartClrEn r n s) := by
  unfold execPartClrEn; try dsimp only
  repeat' first
    | with_reducible first
      | assumption | exact sub_trans hmsk rfl | apply OutSame.next | apply State.access_same
      | apply partClrEn_same
    | intro _
    | split
    | dsimp only

/-! ### Gov -/

theorem State.sensorIgnored_same {msk : List Fld} {s0 : State} {s : State} (die : _) (i : _) (was : _) (hs : SameBut msk s0 s)
    (hmsk : sub [.regs, .errs, .cores, .wire] msk = true) :
    SameBut msk s0 (State.sensorIgnored s die i was) := by
  unfold State.sensorIgnored; try dsimp only
  repeat' first
    | with_reducible first
      | assumption | exact sub_trans hmsk rfl | apply State.report_same
    | intro _
    | split
    | dsimp only

theorem State.calFailed_same {msk : List Fld} {s0 : State} {s : State} (die : _) (i : _) (hs : SameBut msk s0 s)
    (hmsk : sub [.regs, .sensors, .errs, .cores, .wire] msk = true) :
    SameBut msk s0 (State.calFailed s die i) := by
  unfold State.calFailed; try dsimp only
  repeat' first
    | with_reducible first
      | assumption | exact sub_trans hmsk rfl | apply State.sensorIgnored_same | apply State.updSensor_same
    | intro _
    | split
    | dsimp only

theorem State.requestVdd_same {msk : List Fld} {s0 : State} {s : State} (st : _) (mv : _) (hs : SameBut msk s0 s)
    (hmsk : sub [.stks, .wire] msk = true) :
    SameBut msk s0 (State.requestVdd s st mv) := by
  unfold State.requestVdd; try dsimp only
  repeat' first
    | with_reducible first
      | assumption | exact sub_trans hmsk rfl | apply State.send_same | apply State.updStk_same
    | intro _
    | split
    | dsimp only

theorem State.stepVdd_same {msk : List Fld} {s0 : State} {s : State} (st : _) (mv : _) (x3 : _) (hs : SameBut msk s0 s)
    (hmsk : sub [.stks, .wire] msk = true) :
    SameBut msk s0 (State.stepVdd s st mv x3) := by
  induction x3 generalizing s with
  | zero =>
    unfold State.stepVdd; try dsimp only
    repeat' first
      | with_reducible first
        | assumption | exact sub_trans hmsk rfl | apply State.requestVdd_same
      | intro _
      | split
      | dsimp only
  | succ _ ih =>
    unfold State.stepVdd; try dsimp only
    repeat' first
      | with_reducible first
        | assumption | exact sub_trans hmsk rfl | apply State.requestVdd_same | apply ih
      | intro _
      | split
      | dsimp only

theorem State.startGov_same {msk : List Fld} {s0 : State} {s : State} (st : _) (hs : SameBut msk s0 s)
    (hmsk : sub [.regs, .stks, .wire] msk = true) :
    SameBut msk s0 (State.startGov s st) := by
  unfold State.startGov; try dsimp only
  repeat' first
    | with_reducible first
      | assumption | exact sub_trans hmsk rfl | apply State.setFld_same | apply State.stepVdd_same
    | intro _
    | split
    | dsimp only

theorem State.pmbFault_same {msk : List Fld} {s0 : State} {s : State} (st : _) (hs : SameBut msk s0 s)
    (hmsk : sub [.regs, .stks, .cores, .cnts, .wire] msk = true) :
    SameBut msk s0 (State.pmbFault s st) := by
  unfold State.pmbFault; try dsimp only
  repeat' first
    | with_reducible first
      | assumption | exact sub_trans hmsk rfl | apply State.alert_same | apply State.setBit_same
      | apply State.updStk_same
    | intro _
    | split
    | dsimp only

theorem State.sendStep_same {msk : List Fld} {s0 : State} {s : State} (st : _) (mv : _) (ack : _) (hs : SameBut msk s0 s)
    (hmsk : sub [.regs, .stks, .cores, .cnts, .wire] msk = true) :
    SameBut msk s0 (State.sendStep s st mv ack) := by
  unfold State.sendStep; try dsimp only
  repeat' first
    | with_reducible first
      | assumption | exact sub_trans hmsk rfl | apply State.pmbFault_same | apply State.requestVdd_same
    | intro _
    | split
    | dsimp only

theorem State.changePstate_same {msk : List Fld} {s0 : State} {s : State} (st : _) (p : _) (ack : _) (hs : SameBut msk s0 s)
    (hmsk : sub [.regs, .stks, .cores, .cnts, .wire] msk = true) :
    SameBut msk s0 (State.changePstate s st p ack) := by
  unfold State.changePstate; try dsimp only
  repeat' first
    | with_reducible first
      | assumption | exact sub_trans hmsk rfl | apply State.sendStep_same | apply State.updStk_same
    | intro _
    | split
    | dsimp only

/-! ### Parts -/

theorem State.assignPart_same {msk : List Fld} {s0 : State} {s : State} (n : _) (first : _) (log2 : _) (hs : SameBut msk s0 s)
    (hmsk : sub [.regs, .caps, .plots, .chans, .slices, .norias, .dram, .chk, .net, .links, .reqTabs, .stks, .sensors, .parts, .cores, .caches, .faults, .dbg, .cnts, .wire] msk = true) :
    SameBut msk s0 (State.assignPart s n first log2) := by
  unfold State.assignPart; try dsimp only
  repeat' first
    | with_reducible first
      | assumption | exact sub_trans hmsk rfl | apply SameBut.foldl | apply SameBut.foldl1
      | apply SameBut.foldlDev | apply SameBut.foldlMv | apply SameBut.foldlDn | apply State.clearStack_same
      | apply State.setPState_same | apply State.updPart_same
    | intro _
    | split
    | with_reducible apply SameBut.lit_faults
    | dsimp only

theorem State.cfgRej_same {msk : List Fld} {s0 : State} {s : State} (n : _) (hs : SameBut msk s0 s)
    (hmsk : sub [.regs] msk = true) :
    SameBut msk s0 (State.cfgRej s n) := by
  unfold State.cfgRej; try dsimp only
  repeat' first
    | with_reducible first
      | assumption | exact sub_trans hmsk rfl | apply State.setBit_same
    | intro _
    | split
    | dsimp only

theorem writePartCfg_same {msk : List Fld} {s0 : State} (n : _) (v : _) {s : State} (hs : SameBut msk s0 s)
    (hmsk : sub [.regs, .caps, .plots, .chans, .slices, .norias, .dram, .chk, .net, .links, .reqTabs, .stks, .sensors, .parts, .cores, .caches, .faults, .dbg, .cnts, .wire] msk = true) :
    SameBut msk s0 (writePartCfg n v s) := by
  unfold writePartCfg; try dsimp only
  repeat' first
    | with_reducible first
      | assumption | exact sub_trans hmsk rfl | apply State.assignPart_same | apply State.cfgRej_same
      | apply State.clrBit_same | apply State.resetPart_same | apply State.setFld_same
    | intro _
    | split
    | dsimp only

theorem execPartAssign_same {msk : List Fld} {s0 : State} (r : _) (n : _) (v : _) {s : State} (hs : SameBut msk s0 s)
    (hmsk : sub [.regs, .caps, .plots, .chans, .slices, .norias, .dram, .chk, .net, .links, .reqTabs, .stks, .sensors, .parts, .cores, .caches, .faults, .dbg, .cnts, .wire] msk = true) :
    OutSame msk s0 (execPartAssign r n v s) := by
  unfold execPartAssign; try dsimp only
  repeat' first
    | with_reducible first
      | assumption | exact sub_trans hmsk rfl | apply OutSame.next | apply State.access_same
      | apply writePartCfg_same
    | intro _
    | split
    | dsimp only

theorem execPartRemove_same {msk : List Fld} {s0 : State} (r : _) (n : _) (v : _) {s : State} (hs : SameBut msk s0 s)
    (hmsk : sub [.regs, .caps, .plots, .chans, .slices, .norias, .dram, .chk, .net, .links, .reqTabs, .stks, .sensors, .parts, .cores, .caches, .faults, .dbg, .cnts, .wire] msk = true) :
    OutSame msk s0 (execPartRemove r n v s) := by
  unfold execPartRemove; try dsimp only
  repeat' first
    | with_reducible first
      | assumption | exact sub_trans hmsk rfl | apply OutSame.next | apply State.access_same
      | apply writePartCfg_same
    | intro _
    | split
    | dsimp only

theorem execPartReset_same {msk : List Fld} {s0 : State} (r : _) (n : _) {s : State} (hs : SameBut msk s0 s)
    (hmsk : sub [.regs, .parts, .cores, .faults, .dbg, .cnts, .wire] msk = true) :
    OutSame msk s0 (execPartReset r n s) := by
  unfold execPartReset; try dsimp only
  repeat' first
    | with_reducible first
      | assumption | exact sub_trans hmsk rfl | apply OutSame.next | apply State.access_same
      | apply State.resetPart_same
    | intro _
    | split
    | dsimp only

theorem State.foundStack_same {msk : List Fld} {s0 : State} {s : State} (st : _) (hs : SameBut msk s0 s)
    (hmsk : sub [.regs, .stks] msk = true) :
    SameBut msk s0 (State.foundStack s st) := by
  unfold State.foundStack; try dsimp only
  repeat' first
    | with_reducible first
      | assumption | exact sub_trans hmsk rfl | apply State.clrBit_same | apply State.updStk_same
    | intro _
    | split
    | dsimp only

theorem State.releaseStack_same {msk : List Fld} {s0 : State} {s : State} (st : _) (hs : SameBut msk s0 s)
    (hmsk : sub [.regs, .stks, .wire] msk = true) :
    SameBut msk s0 (State.releaseStack s st) := by
  unfold State.releaseStack; try dsimp only
  repeat' first
    | with_reducible first
      | assumption | exact sub_trans hmsk rfl | apply SameBut.foldl | apply SameBut.foldl1
      | apply SameBut.foldlDev | apply SameBut.foldlMv | apply SameBut.foldlDn | apply State.filledStack_same
      | apply State.linksUp_same | apply State.setBit_same | apply State.startGov_same | apply State.updStk_same
    | intro _
    | split
    | dsimp only

theorem State.freePart_same {msk : List Fld} {s0 : State} {s : State} (n : _) (hs : SameBut msk s0 s)
    (hmsk : sub [.regs, .caps, .stks, .parts, .cores, .wire] msk = true) :
    SameBut msk s0 (State.freePart s n) := by
  unfold State.freePart; try dsimp only
  repeat' first
    | with_reducible first
      | assumption | exact sub_trans hmsk rfl | apply SameBut.foldl | apply SameBut.foldl1
      | apply SameBut.foldlDev | apply SameBut.foldlMv | apply SameBut.foldlDn | apply State.clrBit_same
      | apply State.requestVdd_same | apply State.resetPage_same | apply State.setPState_same
      | apply State.setPart_same
    | intro _
    | split
    | dsimp only

theorem State.tdiEnd_same {msk : List Fld} {s0 : State} {s : State} (n : _) (hs : SameBut msk s0 s)
    (hmsk : sub [.regs, .parts] msk = true) :
    SameBut msk s0 (State.tdiEnd s n) := by
  unfold State.tdiEnd; try dsimp only
  repeat' first
    | with_reducible first
      | assumption | exact sub_trans hmsk rfl | apply State.setTdi_same | apply State.updPart_same
    | intro _
    | split
    | dsimp only

theorem State.dropReset_same {msk : List Fld} {s0 : State} {s : State} (sel : _) (hs : SameBut msk s0 s)
    (hmsk : sub [.faults] msk = true) :
    SameBut msk s0 (State.dropReset s sel) := by
  unfold State.dropReset; try dsimp only
  repeat' first
    | with_reducible first
      | assumption | exact sub_trans hmsk rfl
    | intro _
    | split
    | with_reducible apply SameBut.lit_faults
    | dsimp only

theorem endResetting_same {msk : List Fld} {s0 : State} (n : _) (trained : _) {s : State} (hs : SameBut msk s0 s)
    (hmsk : sub [.regs, .caps, .stks, .parts, .cores, .faults, .wire] msk = true) :
    SameBut msk s0 (endResetting n trained s) := by
  unfold endResetting; try dsimp only
  repeat' first
    | with_reducible first
      | assumption | exact sub_trans hmsk rfl | apply SameBut.foldl | apply SameBut.foldl1
      | apply SameBut.foldlDev | apply SameBut.foldlMv | apply SameBut.foldlDn | apply State.dropReset_same
      | apply State.foundStack_same | apply State.freePart_same | apply State.releaseStack_same
      | apply State.setPState_same | apply State.tdiEnd_same | apply State.updPart_same
    | intro _
    | split
    | dsimp only

theorem execResettingEnd_same {msk : List Fld} {s0 : State} (n : _) (trained : _) {s : State} (hs : SameBut msk s0 s)
    (hmsk : sub [.regs, .caps, .stks, .parts, .cores, .faults, .wire] msk = true) :
    OutSame msk s0 (execResettingEnd n trained s) := by
  unfold execResettingEnd; try dsimp only
  repeat' first
    | with_reducible first
      | assumption | exact sub_trans hmsk rfl | apply OutSame.next | apply endResetting_same
    | intro _
    | split
    | dsimp only

/-! ### Resets -/

theorem writePlotCtrl_same {msk : List Fld} {s0 : State} (st : _) (q : _) (v : _) {s : State} (hs : SameBut msk s0 s)
    (hmsk : sub [.faults, .dbg] msk = true) :
    SameBut msk s0 (writePlotCtrl st q v s) := by
  unfold writePlotCtrl; try dsimp only
  repeat' first
    | with_reducible first
      | assumption | exact sub_trans hmsk rfl | apply SameBut.foldl | apply SameBut.foldl1
      | apply SameBut.foldlDev | apply SameBut.foldlMv | apply SameBut.foldlDn | apply State.beginReset_same
    | intro _
    | split
    | dsimp only

theorem execPlotReset_same {msk : List Fld} {s0 : State} (r : _) (st : _) (q : _) (v : _) {s : State} (hs : SameBut msk s0 s)
    (hmsk : sub [.regs, .cores, .faults, .dbg, .cnts] msk = true) :
    OutSame msk s0 (execPlotReset r st q v s) := by
  unfold execPlotReset; try dsimp only
  repeat' first
    | with_reducible first
      | assumption | exact sub_trans hmsk rfl | apply OutSame.next | apply State.access_same
      | apply writePlotCtrl_same
    | intro _
    | split
    | dsimp only

theorem execReachReset_same {msk : List Fld} {s0 : State} (r : _) (st : _) (q : _) {s : State} (hs : SameBut msk s0 s)
    (hmsk : sub [.regs, .cores, .faults, .dbg, .cnts] msk = true) :
    OutSame msk s0 (execReachReset r st q s) := by
  unfold execReachReset; try dsimp only
  repeat' first
    | with_reducible first
      | assumption | exact sub_trans hmsk rfl | apply OutSame.next | apply State.access_same
      | apply writePlotCtrl_same
    | intro _
    | split
    | dsimp only

theorem State.noteAbsorbed_same {msk : List Fld} {s0 : State} {s : State} (k : _) (hs : SameBut msk s0 s)
    (hmsk : sub [.regs] msk = true) :
    SameBut msk s0 (State.noteAbsorbed s k) := by
  unfold State.noteAbsorbed; try dsimp only
  repeat' first
    | with_reducible first
      | assumption | exact sub_trans hmsk rfl | apply State.setBit_same
    | intro _
    | split
    | dsimp only

theorem State.absorbPlot_same {msk : List Fld} {s0 : State} {s : State} (k : _) (zero : _) (hs : SameBut msk s0 s)
    (hmsk : sub [.regs, .caps, .plots, .chans, .slices, .norias, .net, .reqTabs, .stks, .parts, .rings, .funcs, .groups, .cores, .faults, .dbg, .cnts, .wire] msk = true) :
    SameBut msk s0 (State.absorbPlot s k zero) := by
  unfold State.absorbPlot; try dsimp only
  repeat' first
    | with_reducible first
      | assumption | exact sub_trans hmsk rfl | apply State.abortTests_same | apply State.clearPlot_same
      | apply State.count_same | apply State.faultRuns_same | apply State.noteAbsorbed_same
      | apply State.startFill_same
    | intro _
    | split
    | dsimp only

theorem State.abortAll_same {msk : List Fld} {s0 : State} {s : State} (hs : SameBut msk s0 s)
    (hmsk : sub [.regs, .chans, .net, .reqTabs, .parts, .rings, .funcs, .groups, .cores, .faults, .wire] msk = true) :
    SameBut msk s0 (State.abortAll s) := by
  unfold State.abortAll; try dsimp only
  repeat' first
    | with_reducible first
      | assumption | exact sub_trans hmsk rfl | apply SameBut.foldl | apply SameBut.foldl1
      | apply SameBut.foldlDev | apply SameBut.foldlMv | apply SameBut.foldlDn | apply State.abortCmds_same
    | intro _
    | split
    | dsimp only

theorem absorb_same {msk : List Fld} {s0 : State} {s : State} (r : _) (hs : SameBut msk s0 s)
    (hmsk : sub [.freeCtr, .regs, .caps, .plots, .chans, .slices, .norias, .dram, .chk, .net, .rr, .links, .reqTabs, .stks, .sensors, .coolant, .parts, .rings, .funcs, .lndErr, .cfg, .errs, .xngs, .eps, .groups, .coll, .cores, .caches, .media, .sec, .boot, .faults, .dbg, .cnts, .toll, .wire] msk = true) :
    SameBut msk s0 (absorb s r) := by
  unfold absorb; try dsimp only
  repeat' first
    | with_reducible first
      | assumption | exact sub_trans hmsk rfl | apply SameBut.foldl | apply SameBut.foldl1
      | apply SameBut.foldlDev | apply SameBut.foldlMv | apply SameBut.foldlDn | apply State.abortAll_same
      | apply State.absorbPlot_same | apply State.clearHub_same | apply State.clearPart_same
      | apply State.clearPkg_same | apply State.setBit_same | apply State.startBoot_same
    | intro _
    | split
    | dsimp only

theorem State.markCleared_same {msk : List Fld} {s0 : State} {s : State} (sc : _) (hs : SameBut msk s0 s)
    (hmsk : sub [.faults] msk = true) :
    SameBut msk s0 (State.markCleared s sc) := by
  unfold State.markCleared; try dsimp only
  repeat' first
    | with_reducible first
      | assumption | exact sub_trans hmsk rfl
    | intro _
    | split
    | with_reducible apply SameBut.lit_faults
    | dsimp only

theorem execResetDrainEnd_same {msk : List Fld} {s0 : State} (sc : _) {s : State} (hs : SameBut msk s0 s)
    (hmsk : sub [.freeCtr, .regs, .caps, .plots, .chans, .slices, .norias, .dram, .chk, .net, .rr, .links, .reqTabs, .stks, .sensors, .coolant, .parts, .rings, .funcs, .lndErr, .cfg, .errs, .xngs, .eps, .groups, .coll, .cores, .caches, .media, .sec, .boot, .faults, .dbg, .cnts, .toll, .wire] msk = true) :
    OutSame msk s0 (execResetDrainEnd sc s) := by
  unfold execResetDrainEnd; try dsimp only
  repeat' first
    | with_reducible first
      | assumption | exact sub_trans hmsk rfl | apply OutSame.next | apply State.markCleared_same
      | apply absorb_same
    | intro _
    | split
    | dsimp only

theorem State.liftFence_same {msk : List Fld} {s0 : State} {s : State} (k : _) (hs : SameBut msk s0 s)
    (hmsk : sub [.regs] msk = true) :
    SameBut msk s0 (State.liftFence s k) := by
  unfold State.liftFence; try dsimp only
  repeat' first
    | with_reducible first
      | assumption | exact sub_trans hmsk rfl | apply State.clrBit_same
    | intro _
    | split
    | dsimp only

theorem State.setFence_same {msk : List Fld} {s0 : State} {s : State} (k : _) (hs : SameBut msk s0 s)
    (hmsk : sub [.regs] msk = true) :
    SameBut msk s0 (State.setFence s k) := by
  unfold State.setFence; try dsimp only
  repeat' first
    | with_reducible first
      | assumption | exact sub_trans hmsk rfl | apply State.setBit_same
    | intro _
    | split
    | dsimp only

theorem State.releasePlotReset_same {msk : List Fld} {s0 : State} {s : State} (k : _) (retest : _) (ok : _) (floodOk : _) (hs : SameBut msk s0 s)
    (hmsk : sub [.freeCtr, .regs, .plots, .chans, .norias, .net, .reqTabs, .stks, .parts, .rings, .errs, .cores, .faults, .dbg, .cnts, .wire] msk = true) :
    SameBut msk s0 (State.releasePlotReset s k retest ok floodOk) := by
  unfold State.releasePlotReset; try dsimp only
  repeat' first
    | with_reducible first
      | assumption | exact sub_trans hmsk rfl | apply State.failPlot_same | apply State.liftFence_same
      | apply State.markOk_same | apply State.setFence_same
    | intro _
    | split
    | dsimp only

theorem releaseScope_same {msk : List Fld} {s0 : State} {s : State} (r : _) (ok : _) (floodOk : _) (hs : SameBut msk s0 s)
    (hmsk : sub [.freeCtr, .regs, .plots, .chans, .norias, .net, .reqTabs, .stks, .parts, .rings, .errs, .cores, .faults, .dbg, .cnts, .wire] msk = true) :
    SameBut msk s0 (releaseScope s r ok floodOk) := by
  unfold releaseScope; try dsimp only
  repeat' first
    | with_reducible first
      | assumption | exact sub_trans hmsk rfl | apply SameBut.foldl | apply SameBut.foldl1
      | apply SameBut.foldlDev | apply SameBut.foldlMv | apply SameBut.foldlDn | apply State.dropReset_same
      | apply State.releasePlotReset_same
    | intro _
    | split
    | dsimp only

theorem execResetRelease_same {msk : List Fld} {s0 : State} (sc : _) (testsOk : _) (floodOk : _) {s : State} (hs : SameBut msk s0 s)
    (hmsk : sub [.freeCtr, .regs, .plots, .chans, .norias, .net, .reqTabs, .stks, .parts, .rings, .errs, .cores, .faults, .dbg, .cnts, .wire] msk = true) :
    OutSame msk s0 (execResetRelease sc testsOk floodOk s) := by
  unfold execResetRelease; try dsimp only
  repeat' first
    | with_reducible first
      | assumption | exact sub_trans hmsk rfl | apply OutSame.next | apply releaseScope_same
    | intro _
    | split
    | dsimp only

theorem State.loseStack_same {msk : List Fld} {s0 : State} {s : State} (st : _) (hs : SameBut msk s0 s)
    (hmsk : sub [.regs, .plots, .chans, .norias, .net, .reqTabs, .stks, .parts, .rings, .funcs, .errs, .groups, .cores, .faults, .dbg, .cnts, .wire] msk = true) :
    SameBut msk s0 (State.loseStack s st) := by
  unfold State.loseStack; try dsimp only
  repeat' first
    | with_reducible first
      | assumption | exact sub_trans hmsk rfl | apply SameBut.foldl | apply SameBut.foldl1
      | apply SameBut.foldlDev | apply SameBut.foldlMv | apply SameBut.foldlDn | apply State.faultPart_same
      | apply State.norStop_same | apply State.report_same | apply State.setBit_same | apply State.updStk_same
    | intro _
    | split
    | dsimp only

theorem State.checkLost_same {msk : List Fld} {s0 : State} {s : State} (st : _) (hs : SameBut msk s0 s)
    (hmsk : sub [.regs, .plots, .chans, .norias, .net, .reqTabs, .stks, .parts, .rings, .funcs, .errs, .groups, .cores, .faults, .dbg, .cnts, .wire] msk = true) :
    SameBut msk s0 (State.checkLost s st) := by
  unfold State.checkLost; try dsimp only
  repeat' first
    | with_reducible first
      | assumption | exact sub_trans hmsk rfl | apply State.loseStack_same
    | intro _
    | split
    | dsimp only

theorem execD2dLinkDown_same {msk : List Fld} {s0 : State} (die : _) (far : _) {s : State} (hs : SameBut msk s0 s)
    (hmsk : sub [.regs, .plots, .chans, .norias, .net, .links, .reqTabs, .stks, .parts, .rings, .funcs, .errs, .groups, .cores, .faults, .dbg, .cnts, .wire] msk = true) :
    OutSame msk s0 (execD2dLinkDown die far s) := by
  unfold execD2dLinkDown; try dsimp only
  repeat' first
    | with_reducible first
      | assumption | exact sub_trans hmsk rfl | apply OutSame.next | apply State.checkLost_same
      | apply State.dropFar_same | apply State.refreshRoute_same
    | intro _
    | split
    | dsimp only

theorem execRouterForward_same {msk : List Fld} {s0 : State} (die : _) (site : _) (out : _) {s : State} (hs : SameBut msk s0 s)
    (hmsk : sub [.net, .rr] msk = true) :
    OutSame msk s0 (execRouterForward die site out s) := by
  unfold execRouterForward; try dsimp only
  repeat' first
    | with_reducible first
      | assumption | exact sub_trans hmsk rfl | apply OutSame.next | apply State.dropQueued_same
      | apply forwardLane_same
    | intro _
    | split
    | dsimp only

theorem popProp_same {msk : List Fld} {s0 : State} {s : State} (hs : SameBut msk s0 s)
    (hmsk : sub [.reply, .caps, .faults] msk = true) :
    SameBut msk s0 (popProp s) := by
  unfold popProp; try dsimp only
  repeat' first
    | with_reducible first
      | assumption | exact sub_trans hmsk rfl | apply State.answer_same | apply State.capture_same
    | intro _
    | split
    | with_reducible apply SameBut.lit_faults
    | dsimp only

theorem execFltPropPop_same {msk : List Fld} {s0 : State} (r : _) {s : State} (hs : SameBut msk s0 s)
    (hmsk : sub [.freeCtr, .reply, .regs, .caps, .cores, .faults, .dbg, .cnts] msk = true) :
    OutSame msk s0 (execFltPropPop r s) := by
  unfold execFltPropPop; try dsimp only
  repeat' first
    | with_reducible first
      | assumption | exact sub_trans hmsk rfl | apply OutSame.next | apply State.readAccess_same
      | apply popProp_same
    | intro _
    | split
    | dsimp only

theorem State.startTest_same {msk : List Fld} {s0 : State} {s : State} (t : _) (hs : SameBut msk s0 s)
    (hmsk : sub [.regs, .plots, .norias, .sensors] msk = true) :
    SameBut msk s0 (State.startTest s t) := by
  unfold State.startTest; try dsimp only
  repeat' first
    | with_reducible first
      | assumption | exact sub_trans hmsk rfl | apply SameBut.foldl | apply SameBut.foldl1
      | apply SameBut.foldlDev | apply SameBut.foldlMv | apply SameBut.foldlDn | apply State.startXchk_same
      | apply State.updPlot_same | apply State.updSensor_same
    | intro _
    | split
    | dsimp only

theorem execSelftestStart_same {msk : List Fld} {s0 : State} (id : _) {s : State} (hs : SameBut msk s0 s)
    (hmsk : sub [.regs, .plots, .norias, .sensors, .faults] msk = true) :
    OutSame msk s0 (execSelftestStart id s) := by
  unfold execSelftestStart; try dsimp only
  repeat' first
    | with_reducible first
      | assumption | exact sub_trans hmsk rfl | apply OutSame.next | apply State.startTest_same
    | intro _
    | split
    | with_reducible apply SameBut.lit_faults
    | dsimp only

theorem State.verifyStack_same {msk : List Fld} {s0 : State} {s : State} (st : _) (hs : SameBut msk s0 s)
    (hmsk : sub [.regs, .slices, .dram, .chk, .errs, .cores, .cnts, .wire] msk = true) :
    SameBut msk s0 (State.verifyStack s st) := by
  unfold State.verifyStack; try dsimp only
  repeat' first
    | with_reducible first
      | assumption | exact sub_trans hmsk rfl | apply SameBut.foldl | apply SameBut.foldl1
      | apply SameBut.foldlDev | apply SameBut.foldlMv | apply SameBut.foldlDn | apply readWord_same
    | intro _
    | split
    | dsimp only

theorem State.testFailed_same {msk : List Fld} {s0 : State} {s : State} (t : _) (hs : SameBut msk s0 s)
    (hmsk : sub [.freeCtr, .regs, .plots, .chans, .norias, .net, .reqTabs, .stks, .sensors, .parts, .rings, .errs, .cores, .faults, .dbg, .cnts, .wire] msk = true) :
    SameBut msk s0 (State.testFailed s t) := by
  unfold State.testFailed; try dsimp only
  repeat' first
    | with_reducible first
      | assumption | exact sub_trans hmsk rfl | apply SameBut.foldl | apply SameBut.foldl1
      | apply SameBut.foldlDev | apply SameBut.foldlMv | apply SameBut.foldlDn | apply State.calFailed_same
      | apply State.failPlot_same | apply State.refreshRoute_same | apply State.setBit_same
      | apply State.setFld_same
    | intro _
    | split
    | dsimp only

theorem State.testEnded_same {msk : List Fld} {s0 : State} {s : State} (t : _) (ok : _) (hs : SameBut msk s0 s)
    (hmsk : sub [.regs, .slices, .dram, .chk, .sensors, .errs, .cores, .cnts, .wire] msk = true) :
    SameBut msk s0 (State.testEnded s t ok) := by
  unfold State.testEnded; try dsimp only
  repeat' first
    | with_reducible first
      | assumption | exact sub_trans hmsk rfl | apply State.updSensor_same | apply State.verifyStack_same
    | intro _
    | split
    | dsimp only

theorem execSelftestDone_same {msk : List Fld} {s0 : State} (id : _) (ok : _) (code : _) {s : State} (hs : SameBut msk s0 s)
    (hmsk : sub [.freeCtr, .regs, .plots, .chans, .slices, .norias, .dram, .chk, .net, .reqTabs, .stks, .sensors, .parts, .rings, .errs, .cores, .faults, .dbg, .cnts, .wire] msk = true) :
    OutSame msk s0 (execSelftestDone id ok code s) := by
  unfold execSelftestDone; try dsimp only
  repeat' first
    | with_reducible first
      | assumption | exact sub_trans hmsk rfl | apply OutSame.next | apply State.finishCmd_same
      | apply State.testEnded_same | apply State.testFailed_same
    | intro _
    | split
    | with_reducible apply SameBut.lit_faults
    | dsimp only

theorem execBusyTimeout_same {msk : List Fld} {s0 : State} (id : _) {s : State} (hs : SameBut msk s0 s)
    (hmsk : sub [.rings, .cores, .faults, .wire] msk = true) :
    OutSame msk s0 (execBusyTimeout id s) := by
  unfold execBusyTimeout; try dsimp only
  repeat' first
    | with_reducible first
      | assumption | exact sub_trans hmsk rfl | apply OutSame.next | apply State.finishCmd_same
    | intro _
    | split
    | with_reducible apply SameBut.lit_faults
    | dsimp only

theorem State.spareFail_same {msk : List Fld} {s0 : State} {s : State} (x : _) (status : _) (hs : SameBut msk s0 s)
    (hmsk : sub [.rings, .cores, .faults, .wire] msk = true) :
    SameBut msk s0 (State.spareFail s x status) := by
  unfold State.spareFail; try dsimp only
  repeat' first
    | with_reducible first
      | assumption | exact sub_trans hmsk rfl | apply State.finishCmd_same
    | intro _
    | split
    | with_reducible apply SameBut.lit_faults
    | dsimp only

theorem State.copyCistern_same {msk : List Fld} {s0 : State} {s : State} (k : _) (hs : SameBut msk s0 s)
    (hmsk : sub [.regs, .slices, .dram, .chk, .errs, .cores, .cnts, .wire] msk = true) :
    SameBut msk s0 (State.copyCistern s k) := by
  unfold State.copyCistern; try dsimp only
  repeat' first
    | with_reducible first
      | assumption | exact sub_trans hmsk rfl | apply SameBut.foldl | apply SameBut.foldl1
      | apply SameBut.foldlDev | apply SameBut.foldlMv | apply SameBut.foldlDn | apply State.storeWord_same
      | apply readWord_same
    | intro _
    | split
    | dsimp only

theorem State.emptySlots_same {msk : List Fld} {s0 : State} {s : State} (n : _) (k : _) (hs : SameBut msk s0 s)
    (hmsk : sub [.parts, .sec] msk = true) :
    SameBut msk s0 (State.emptySlots s n k) := by
  unfold State.emptySlots; try dsimp only
  repeat' first
    | with_reducible first
      | assumption | exact sub_trans hmsk rfl | apply SameBut.foldl | apply SameBut.foldl1
      | apply SameBut.foldlDev | apply SameBut.foldlMv | apply SameBut.foldlDn | apply State.unloadSlot_same
    | intro _
    | split
    | dsimp only

theorem State.spareDone_same {msk : List Fld} {s0 : State} {s : State} (x : _) (hs : SameBut msk s0 s)
    (hmsk : sub [.regs, .caps, .plots, .chans, .slices, .norias, .dram, .chk, .net, .reqTabs, .stks, .parts, .rings, .errs, .cores, .sec, .faults, .dbg, .cnts, .wire] msk = true) :
    SameBut msk s0 (State.spareDone s x) := by
  unfold State.spareDone; try dsimp only
  repeat' first
    | with_reducible first
      | assumption | exact sub_trans hmsk rfl | apply SameBut.foldl | apply SameBut.foldl1
      | apply SameBut.foldlDev | apply SameBut.foldlMv | apply SameBut.foldlDn | apply State.clearPlot_same
      | apply State.copyCistern_same | apply State.emptySlots_same | apply State.finishCmd_same
      | apply State.liftFence_same | apply State.markOk_same | apply State.resetPage_same
      | apply State.setFld_same | apply State.setNor_same | apply State.setReg_same | apply State.setSlc_same
      | apply State.updPlot_same | apply State.updStk_same | apply State.zeroSegment_same
    | intro _
    | split
    | with_reducible apply SameBut.lit_faults
    | dsimp only

theorem execSpareCopyDone_same {msk : List Fld} {s0 : State} (st : _) (p : _) (testsOk : _) (floodOk : _) (copyOk : _) {s : State} (hs : SameBut msk s0 s)
    (hmsk : sub [.regs, .caps, .plots, .chans, .slices, .norias, .dram, .chk, .net, .reqTabs, .stks, .parts, .rings, .errs, .cores, .sec, .faults, .dbg, .cnts, .wire] msk = true) :
    OutSame msk s0 (execSpareCopyDone st p testsOk floodOk copyOk s) := by
  unfold execSpareCopyDone; try dsimp only
  repeat' first
    | with_reducible first
      | assumption | exact sub_trans hmsk rfl | apply OutSame.next | apply State.propose_same
      | apply State.spareDone_same | apply State.spareFail_same
    | intro _
    | split
    | dsimp only

/-! ### Steward -/

theorem execStewardException_same {msk : List Fld} {s0 : State} (p : _) (cause : _) (tval : _) {s : State} (hs : SameBut msk s0 s)
    (hmsk : sub [.plots, .dbg] msk = true) :
    OutSame msk s0 (execStewardException p cause tval s) := by
  unfold execStewardException; try dsimp only
  repeat' first
    | with_reducible first
      | assumption | exact sub_trans hmsk rfl | apply OutSame.next | apply State.hartStepped_same
      | apply State.updPlot_same
    | intro _
    | split
    | dsimp only

theorem stewardFault_same {msk : List Fld} {s0 : State} (k : _) {s : State} (hs : SameBut msk s0 s)
    (hmsk : sub [.freeCtr, .regs, .plots, .chans, .norias, .net, .reqTabs, .stks, .parts, .rings, .errs, .cores, .faults, .dbg, .cnts, .wire] msk = true) :
    SameBut msk s0 (stewardFault k s) := by
  unfold stewardFault; try dsimp only
  repeat' first
    | with_reducible first
      | assumption | exact sub_trans hmsk rfl | apply State.failPlot_same | apply State.setBit_same
    | intro _
    | split
    | dsimp only

theorem execStwWdogFault_same {msk : List Fld} {s0 : State} (r : _) (p : _) {s : State} (hs : SameBut msk s0 s)
    (hmsk : sub [.freeCtr, .regs, .plots, .chans, .norias, .net, .reqTabs, .stks, .parts, .rings, .errs, .cores, .faults, .dbg, .cnts, .wire] msk = true) :
    OutSame msk s0 (execStwWdogFault r p s) := by
  unfold execStwWdogFault; try dsimp only
  repeat' first
    | with_reducible first
      | assumption | exact sub_trans hmsk rfl | apply OutSame.next | apply State.access_same
      | apply stewardFault_same
    | intro _
    | split
    | dsimp only

theorem kickDog_same {msk : List Fld} {s0 : State} (k : _) {s : State} (hs : SameBut msk s0 s)
    (hmsk : sub [.plots] msk = true) :
    SameBut msk s0 (kickDog k s) := by
  unfold kickDog; try dsimp only
  repeat' first
    | with_reducible first
      | assumption | exact sub_trans hmsk rfl | apply State.updPlot_same
    | intro _
    | split
    | dsimp only

theorem execStwWdogKick_same {msk : List Fld} {s0 : State} (r : _) (p : _) {s : State} (hs : SameBut msk s0 s)
    (hmsk : sub [.regs, .plots, .cores, .dbg, .cnts] msk = true) :
    OutSame msk s0 (execStwWdogKick r p s) := by
  unfold execStwWdogKick; try dsimp only
  repeat' first
    | with_reducible first
      | assumption | exact sub_trans hmsk rfl | apply OutSame.next | apply State.access_same | apply kickDog_same
    | intro _
    | split
    | dsimp only

theorem execStewardWatchdogExpiry_same {msk : List Fld} {s0 : State} (p : _) {s : State} (hs : SameBut msk s0 s)
    (hmsk : sub [.freeCtr, .regs, .plots, .chans, .norias, .net, .reqTabs, .stks, .parts, .rings, .errs, .cores, .faults, .dbg, .cnts, .wire] msk = true) :
    OutSame msk s0 (execStewardWatchdogExpiry p s) := by
  unfold execStewardWatchdogExpiry; try dsimp only
  repeat' first
    | with_reducible first
      | assumption | exact sub_trans hmsk rfl | apply OutSame.next | apply State.failPlot_same
    | intro _
    | split
    | dsimp only

/-! ### Coll -/

theorem State.markPoisoned_same {msk : List Fld} {s0 : State} {s : State} (addr : _) (hs : SameBut msk s0 s)
    (hmsk : sub [.eps] msk = true) :
    SameBut msk s0 (State.markPoisoned s addr) := by
  unfold State.markPoisoned; try dsimp only
  repeat' first
    | with_reducible first
      | assumption | exact sub_trans hmsk rfl | apply SameBut.foldl | apply SameBut.foldl1
      | apply SameBut.foldlDev | apply SameBut.foldlMv | apply SameBut.foldlDn | apply State.updEp_same
    | intro _
    | split
    | dsimp only

theorem State.flushSap_same {msk : List Fld} {s0 : State} {s : State} (hs : SameBut msk s0 s)
    (hmsk : sub [.regs, .slices, .dram, .chk, .errs, .eps, .coll, .cores, .caches, .cnts, .wire] msk = true) :
    SameBut msk s0 (State.flushSap s) := by
  unfold State.flushSap; try dsimp only
  repeat' first
    | with_reducible first
      | assumption | exact sub_trans hmsk rfl | apply SameBut.foldl | apply SameBut.foldl1
      | apply SameBut.foldlDev | apply SameBut.foldlMv | apply SameBut.foldlDn | apply State.devWeir_same
      | apply State.markPoisoned_same
    | intro _
    | split
    | with_reducible apply SameBut.lit_coll
    | dsimp only

theorem State.addSap_same {msk : List Fld} {s0 : State} {s : State} (op : _) (addr : _) (data : _) (bad : _) (hs : SameBut msk s0 s)
    (hmsk : sub [.regs, .slices, .dram, .chk, .errs, .eps, .coll, .cores, .caches, .cnts, .wire] msk = true) :
    SameBut msk s0 (State.addSap s op addr data bad) := by
  unfold State.addSap; try dsimp only
  repeat' first
    | with_reducible first
      | assumption | exact sub_trans hmsk rfl | apply SameBut.foldl | apply SameBut.foldl1
      | apply SameBut.foldlDev | apply SameBut.foldlMv | apply SameBut.foldlDn | apply State.flushSap_same
    | intro _
    | split
    | with_reducible apply SameBut.lit_coll
    | dsimp only

theorem execScatterAddPacketSend_same {msk : List Fld} {s0 : State} (c : _) {s : State} (hs : SameBut msk s0 s)
    (hmsk : sub [.freeCtr, .regs, .plots, .chans, .slices, .dram, .chk, .reqTabs, .errs, .eps, .coll, .cores, .caches, .cnts, .wire] msk = true) :
    OutSame msk s0 (execScatterAddPacketSend c s) := by
  unfold execScatterAddPacketSend; try dsimp only
  repeat' first
    | with_reducible first
      | assumption | exact sub_trans hmsk rfl | apply OutSame.next | apply State.flushSap_same
      | apply State.pump_same | apply sendPacket_same
    | intro _
    | split
    | dsimp only

theorem State.postPkt_same {msk : List Fld} {s0 : State} {s : State} (p : _) (hs : SameBut msk s0 s)
    (hmsk : sub [.coll] msk = true) :
    SameBut msk s0 (State.postPkt s p) := by
  unfold State.postPkt; try dsimp only
  repeat' first
    | with_reducible first
      | assumption | exact sub_trans hmsk rfl
    | intro _
    | split
    | with_reducible apply SameBut.lit_coll
    | dsimp only

theorem State.postAll_same {msk : List Fld} {s0 : State} {s : State} (members : _) (p : _) (hs : SameBut msk s0 s)
    (hmsk : sub [.coll] msk = true) :
    SameBut msk s0 (State.postAll s members p) := by
  unfold State.postAll; try dsimp only
  repeat' first
    | with_reducible first
      | assumption | exact sub_trans hmsk rfl | apply SameBut.foldl | apply SameBut.foldl1
      | apply SameBut.foldlDev | apply SameBut.foldlMv | apply SameBut.foldlDn | apply State.postPkt_same
    | intro _
    | split
    | dsimp only

theorem State.collRecord_same {msk : List Fld} {s0 : State} {s : State} (e : _) (n : _) (d : _) (status : _) (seq : _) (epoch : _) (hs : SameBut msk s0 s)
    (hmsk : sub [.regs, .slices, .dram, .chk, .net, .errs, .cores, .caches, .cnts, .wire] msk = true) :
    SameBut msk s0 (State.collRecord s e n d status seq epoch) := by
  unfold State.collRecord; try dsimp only
  repeat' first
    | with_reducible first
      | assumption | exact sub_trans hmsk rfl | apply State.devWrite_same | apply State.inject_same
    | intro _
    | split
    | dsimp only

theorem State.endColl_same {msk : List Fld} {s0 : State} {s : State} (e : _) (C : _) (status : _) (hs : SameBut msk s0 s)
    (hmsk : sub [.regs, .slices, .dram, .chk, .net, .errs, .eps, .cores, .caches, .cnts, .wire] msk = true) :
    SameBut msk s0 (State.endColl s e C status) := by
  unfold State.endColl; try dsimp only
  repeat' first
    | with_reducible first
      | assumption | exact sub_trans hmsk rfl | apply State.collRecord_same | apply State.updEp_same
    | intro _
    | split
    | dsimp only

theorem State.sendLost_same {msk : List Fld} {s0 : State} {s : State} (g : _) (seq : _) (hs : SameBut msk s0 s)
    (hmsk : sub [.coll] msk = true) :
    SameBut msk s0 (State.sendLost s g seq) := by
  unfold State.sendLost; try dsimp only
  repeat' first
    | with_reducible first
      | assumption | exact sub_trans hmsk rfl | apply State.postAll_same
    | intro _
    | split
    | dsimp only

theorem State.lostData_same {msk : List Fld} {s0 : State} {s : State} (p : _) (hs : SameBut msk s0 s)
    (hmsk : sub [.regs, .slices, .dram, .chk, .net, .errs, .eps, .coll, .cores, .caches, .cnts, .wire] msk = true) :
    SameBut msk s0 (State.lostData s p) := by
  unfold State.lostData; try dsimp only
  repeat' first
    | with_reducible first
      | assumption | exact sub_trans hmsk rfl | apply State.endColl_same | apply State.sendLost_same
    | intro _
    | split
    | dsimp only

theorem State.countColl_same {msk : List Fld} {s0 : State} {s : State} (e : _) (n : _) (hs : SameBut msk s0 s)
    (hmsk : sub [.regs, .cnts] msk = true) :
    SameBut msk s0 (State.countColl s e n) := by
  unfold State.countColl; try dsimp only
  repeat' first
    | with_reducible first
      | assumption | exact sub_trans hmsk rfl | apply State.count_same
    | intro _
    | split
    | dsimp only

theorem localWord_same {msk : List Fld} {s0 : State} (e : _) (n : _) {x : _} (w : _) (hx : SameBut msk s0 x.1)
    (hmsk : sub [.regs, .slices, .dram, .chk, .errs, .cores, .caches, .cnts, .wire] msk = true) :
    SameBut msk s0 (localWord e n x w).1 := by
  unfold localWord; try dsimp only
  repeat' first
    | with_reducible first
      | assumption | exact sub_trans hmsk rfl | apply State.countColl_same | apply State.devWrite_same
    | intro _
    | split
    | dsimp only

theorem collWords_same {msk : List Fld} {s0 : State} {s : State} (n : _) (off : _) (x3 : _) (hs : SameBut msk s0 s)
    (hmsk : sub [.freeCtr, .regs, .slices, .dram, .chk, .errs, .cores, .cnts, .wire] msk = true) :
    SameBut msk s0 (collWords s n off x3).1 := by
  induction x3 generalizing s off with
  | zero =>
    unfold collWords; try dsimp only
    repeat' first
      | with_reducible first
        | assumption | exact sub_trans hmsk rfl | apply State.devRead_same
      | intro _
      | split
      | dsimp only
  | succ _ ih =>
    unfold collWords; try dsimp only
    repeat' first
      | with_reducible first
        | assumption | exact sub_trans hmsk rfl | apply State.devRead_same | apply ih
      | intro _
      | split
      | dsimp only

theorem State.epTake_same {msk : List Fld} {s0 : State} {s : State} (e : _) (q : _) (hs : SameBut msk s0 s)
    (hmsk : sub [.net, .eps] msk = true) :
    SameBut msk s0 (State.epTake s e q) := by
  unfold State.epTake; try dsimp only
  repeat' first
    | with_reducible first
      | assumption | exact sub_trans hmsk rfl | apply State.inject_same | apply State.updEp_same
    | intro _
    | split
    | dsimp only

theorem State.setColl_same {msk : List Fld} {s0 : State} {s : State} (e : _) (C : _) (hs : SameBut msk s0 s)
    (hmsk : sub [.eps] msk = true) :
    SameBut msk s0 (State.setColl s e C) := by
  unfold State.setColl; try dsimp only
  repeat' first
    | with_reducible first
      | assumption | exact sub_trans hmsk rfl | apply State.updEp_same
    | intro _
    | split
    | dsimp only

theorem State.feedColl_same {msk : List Fld} {s0 : State} {s : State} (e : _) (n : _) (q : _) (x4 : _) (hs : SameBut msk s0 s)
    (hmsk : sub [.regs, .slices, .dram, .chk, .net, .errs, .eps, .cores, .caches, .cnts, .wire] msk = true) :
    SameBut msk s0 (State.feedColl s e n q x4) := by
  induction x4 generalizing s with
  | zero =>
    unfold State.feedColl; try dsimp only
    repeat' first
      | with_reducible first
        | assumption | exact sub_trans hmsk rfl | apply SameBut.foldl | apply SameBut.foldl1
        | apply SameBut.foldlDev | apply SameBut.foldlMv | apply SameBut.foldlDn | apply State.epTake_same
        | apply State.setColl_same | apply localWord_same
      | intro _
      | split
      | dsimp only
  | succ _ ih =>
    unfold State.feedColl; try dsimp only
    repeat' first
      | with_reducible first
        | assumption | exact sub_trans hmsk rfl | apply SameBut.foldl | apply SameBut.foldl1
        | apply SameBut.foldlDev | apply SameBut.foldlMv | apply SameBut.foldlDn | apply State.epTake_same
        | apply State.setColl_same | apply localWord_same | apply ih
      | intro _
      | split
      | dsimp only

theorem State.startColl_same {msk : List Fld} {s0 : State} {s : State} (e : _) (n : _) (d : _) (seq : _) (hs : SameBut msk s0 s)
    (hmsk : sub [.freeCtr, .regs, .slices, .dram, .chk, .net, .errs, .eps, .coll, .cores, .caches, .cnts, .wire] msk = true) :
    SameBut msk s0 (State.startColl s e n d seq) := by
  unfold State.startColl; try dsimp only
  repeat' first
    | with_reducible first
      | assumption | exact sub_trans hmsk rfl | apply SameBut.foldl | apply SameBut.foldl1
      | apply SameBut.foldlDev | apply SameBut.foldlMv | apply SameBut.foldlDn | apply State.drawn_same
      | apply State.feedColl_same | apply State.postPkt_same | apply State.updEp_same | apply collWords_same
      | apply localWord_same
    | intro _
    | split
    | dsimp only

theorem takeCollDesc_same {msk : List Fld} {s0 : State} (e : _) (n : _) (f : _) {s : State} (hs : SameBut msk s0 s)
    (hmsk : sub [.freeCtr, .regs, .slices, .dram, .chk, .net, .errs, .eps, .groups, .coll, .cores, .caches, .cnts, .wire] msk = true) :
    SameBut msk s0 (takeCollDesc e n f s) := by
  unfold takeCollDesc; try dsimp only
  repeat' first
    | with_reducible first
      | assumption | exact sub_trans hmsk rfl | apply State.collRecord_same | apply State.drawn_same
      | apply State.epTake_same | apply State.startColl_same | apply State.updGrp_same
    | intro _
    | split
    | dsimp only

theorem execCollectiveDescriptor_same {msk : List Fld} {s0 : State} (e : _) {s : State} (hs : SameBut msk s0 s)
    (hmsk : sub [.freeCtr, .regs, .slices, .dram, .chk, .net, .errs, .eps, .groups, .coll, .cores, .caches, .cnts, .wire] msk = true) :
    OutSame msk s0 (execCollectiveDescriptor e s) := by
  unfold execCollectiveDescriptor; try dsimp only
  repeat' first
    | with_reducible first
      | assumption | exact sub_trans hmsk rfl | apply OutSame.next | apply takeCollDesc_same
    | intro _
    | split
    | dsimp only

theorem State.epStopped_same {msk : List Fld} {s0 : State} {s : State} (e : _) (hs : SameBut msk s0 s)
    (hmsk : sub [.eps] msk = true) :
    SameBut msk s0 (State.epStopped s e) := by
  unfold State.epStopped; try dsimp only
  repeat' first
    | with_reducible first
      | assumption | exact sub_trans hmsk rfl | apply State.setEp_same
    | intro _
    | split
    | dsimp only

theorem execCollectiveComplete_same {msk : List Fld} {s0 : State} (e : _) (i : _) {s : State} (hs : SameBut msk s0 s)
    (hmsk : sub [.regs, .slices, .dram, .chk, .net, .errs, .eps, .cores, .caches, .cnts, .wire] msk = true) :
    OutSame msk s0 (execCollectiveComplete e i s) := by
  unfold execCollectiveComplete; try dsimp only
  repeat' first
    | with_reducible first
      | assumption | exact sub_trans hmsk rfl | apply OutSame.next | apply State.endColl_same
    | intro _
    | split
    | dsimp only

theorem State.epDiscard_same {msk : List Fld} {s0 : State} {s : State} (e : _) (src : _) (slot : _) (hs : SameBut msk s0 s)
    (hmsk : sub [.net, .eps] msk = true) :
    SameBut msk s0 (State.epDiscard s e src slot) := by
  unfold State.epDiscard; try dsimp only
  repeat' first
    | with_reducible first
      | assumption | exact sub_trans hmsk rfl | apply State.inject_same | apply State.updEp_same
    | intro _
    | split
    | dsimp only

theorem epFlit_same {msk : List Fld} {s0 : State} (e : _) (q : _) (sid : _) (src : _) (slot : _) (data : _) {s : State} (hs : SameBut msk s0 s)
    (hmsk : sub [.regs, .slices, .dram, .chk, .net, .errs, .eps, .cores, .caches, .dbg, .cnts, .wire] msk = true) :
    SameBut msk s0 (epFlit e q sid src slot data s) := by
  unfold epFlit; try dsimp only
  repeat' first
    | with_reducible first
      | assumption | exact sub_trans hmsk rfl | apply State.arrived_same | apply State.epDiscard_same
      | apply State.feedColl_same | apply State.holdMsg_same | apply State.updEp_same
    | intro _
    | split
    | dsimp only

theorem execStreamFlitArrive_same {msk : List Fld} {s0 : State} (dst : _) (hg : _) (sid : _) (src : _) (slot : _) (data : _) {s : State} (hs : SameBut msk s0 s)
    (hmsk : sub [.regs, .plots, .slices, .dram, .chk, .net, .errs, .eps, .cores, .caches, .dbg, .cnts, .wire] msk = true) :
    OutSame msk s0 (execStreamFlitArrive dst hg sid src slot data s) := by
  unfold execStreamFlitArrive; try dsimp only
  repeat' first
    | with_reducible first
      | assumption | exact sub_trans hmsk rfl | apply OutSame.next | apply epFlit_same | apply plotFlit_same
    | intro _
    | split
    | dsimp only

/-! ### Xng -/

theorem State.xngDown_same {msk : List Fld} {s0 : State} {s : State} (n : _) (reason : _) (hs : SameBut msk s0 s)
    (hmsk : sub [.regs, .slices, .dram, .chk, .net, .errs, .xngs, .eps, .coll, .cores, .caches, .cnts, .wire] msk = true) :
    SameBut msk s0 (State.xngDown s n reason) := by
  unfold State.xngDown; try dsimp only
  repeat' first
    | with_reducible first
      | assumption | exact sub_trans hmsk rfl | apply SameBut.foldl | apply SameBut.foldl1
      | apply SameBut.foldlDev | apply SameBut.foldlMv | apply SameBut.foldlDn | apply State.lostData_same
      | apply State.setFld_same | apply State.setXng_same
    | intro _
    | split
    | dsimp only

theorem State.xngDark_same {msk : List Fld} {s0 : State} {s : State} (n : _) (hs : SameBut msk s0 s)
    (hmsk : sub [.xngs] msk = true) :
    SameBut msk s0 (State.xngDark s n) := by
  unfold State.xngDark; try dsimp only
  repeat' first
    | with_reducible first
      | assumption | exact sub_trans hmsk rfl | apply State.updXng_same
    | intro _
    | split
    | dsimp only

theorem State.xngDetect_same {msk : List Fld} {s0 : State} {s : State} (n : _) (hs : SameBut msk s0 s)
    (hmsk : sub [.xngs] msk = true) :
    SameBut msk s0 (State.xngDetect s n) := by
  unfold State.xngDetect; try dsimp only
  repeat' first
    | with_reducible first
      | assumption | exact sub_trans hmsk rfl | apply State.updXng_same | apply State.xngDark_same
    | intro _
    | split
    | dsimp only

theorem State.xngTo_same {msk : List Fld} {s0 : State} {s : State} (n : _) (x : _) (hs : SameBut msk s0 s)
    (hmsk : sub [.xngs] msk = true) :
    SameBut msk s0 (State.xngTo s n x) := by
  unfold State.xngTo; try dsimp only
  repeat' first
    | with_reducible first
      | assumption | exact sub_trans hmsk rfl | apply State.updXng_same
    | intro _
    | split
    | dsimp only

theorem execXngLightDetect_same {msk : List Fld} {s0 : State} (n : _) {s : State} (hs : SameBut msk s0 s)
    (hmsk : sub [.xngs] msk = true) :
    OutSame msk s0 (execXngLightDetect n s) := by
  unfold execXngLightDetect; try dsimp only
  repeat' first
    | with_reducible first
      | assumption | exact sub_trans hmsk rfl | apply OutSame.next | apply State.updXng_same
      | apply State.xngDark_same
    | intro _
    | split
    | dsimp only

theorem State.xngRetrain_same {msk : List Fld} {s0 : State} {s : State} (n : _) (hs : SameBut msk s0 s)
    (hmsk : sub [.regs, .slices, .dram, .chk, .net, .errs, .xngs, .eps, .coll, .cores, .caches, .cnts, .wire] msk = true) :
    SameBut msk s0 (State.xngRetrain s n) := by
  unfold State.xngRetrain; try dsimp only
  repeat' first
    | with_reducible first
      | assumption | exact sub_trans hmsk rfl | apply State.updXng_same | apply State.xngDown_same
    | intro _
    | split
    | dsimp only

theorem State.retrainFailed_same {msk : List Fld} {s0 : State} {s : State} (n : _) (hs : SameBut msk s0 s)
    (hmsk : sub [.regs, .slices, .dram, .chk, .net, .errs, .xngs, .eps, .coll, .cores, .caches, .cnts, .wire] msk = true) :
    SameBut msk s0 (State.retrainFailed s n) := by
  unfold State.retrainFailed; try dsimp only
  repeat' first
    | with_reducible first
      | assumption | exact sub_trans hmsk rfl | apply State.updXng_same | apply State.xngDown_same
      | apply State.xngRetrain_same
    | intro _
    | split
    | dsimp only

theorem State.trainFailed_same {msk : List Fld} {s0 : State} {s : State} (n : _) (reason : _) (hs : SameBut msk s0 s)
    (hmsk : sub [.regs, .slices, .dram, .chk, .net, .errs, .xngs, .eps, .coll, .cores, .caches, .cnts, .wire] msk = true) :
    SameBut msk s0 (State.trainFailed s n reason) := by
  unfold State.trainFailed; try dsimp only
  repeat' first
    | with_reducible first
      | assumption | exact sub_trans hmsk rfl | apply State.retrainFailed_same | apply State.xngDown_same
    | intro _
    | split
    | dsimp only

theorem State.equaliseFailed_same {msk : List Fld} {s0 : State} {s : State} (n : _) (hs : SameBut msk s0 s)
    (hmsk : sub [.regs, .slices, .dram, .chk, .net, .errs, .xngs, .eps, .coll, .cores, .caches, .cnts, .wire] msk = true) :
    SameBut msk s0 (State.equaliseFailed s n) := by
  unfold State.equaliseFailed; try dsimp only
  repeat' first
    | with_reducible first
      | assumption | exact sub_trans hmsk rfl | apply State.trainFailed_same | apply State.updXng_same
    | intro _
    | split
    | dsimp only

theorem execXngEqualiseDone_same {msk : List Fld} {s0 : State} (n : _) (ok : _) {s : State} (hs : SameBut msk s0 s)
    (hmsk : sub [.regs, .slices, .dram, .chk, .net, .errs, .xngs, .eps, .coll, .cores, .caches, .cnts, .wire] msk = true) :
    OutSame msk s0 (execXngEqualiseDone n ok s) := by
  unfold execXngEqualiseDone; try dsimp only
  repeat' first
    | with_reducible first
      | assumption | exact sub_trans hmsk rfl | apply OutSame.next | apply State.equaliseFailed_same
      | apply State.xngTo_same
    | intro _
    | split
    | dsimp only

theorem alignDone_same {msk : List Fld} {s0 : State} (n : _) (spare : _) {s : State} (hs : SameBut msk s0 s)
    (hmsk : sub [.regs, .xngs] msk = true) :
    SameBut msk s0 (alignDone n spare s) := by
  unfold alignDone; try dsimp only
  repeat' first
    | with_reducible first
      | assumption | exact sub_trans hmsk rfl | apply State.setBit_same | apply State.updXng_same
      | apply State.xngTo_same
    | intro _
    | split
    | dsimp only

theorem execXngAlignDone_same {msk : List Fld} {s0 : State} (n : _) (spare : _) {s : State} (hs : SameBut msk s0 s)
    (hmsk : sub [.regs, .xngs] msk = true) :
    OutSame msk s0 (execXngAlignDone n spare s) := by
  unfold execXngAlignDone; try dsimp only
  repeat' first
    | with_reducible first
      | assumption | exact sub_trans hmsk rfl | apply OutSame.next | apply alignDone_same
    | intro _
    | split
    | dsimp only

theorem State.sendFlit_same {msk : List Fld} {s0 : State} {s : State} (n : _) (ty : _) (nak : _) (payload : _) (hs : SameBut msk s0 s)
    (hmsk : sub [.regs, .xngs, .cnts, .wire] msk = true) :
    SameBut msk s0 (State.sendFlit s n ty nak payload) := by
  unfold State.sendFlit; try dsimp only
  repeat' first
    | with_reducible first
      | assumption | exact sub_trans hmsk rfl | apply State.count_same | apply State.send_same
      | apply State.setXng_same | apply State.updXng_same
    | intro _
    | split
    | dsimp only

theorem State.sendIdle_same {msk : List Fld} {s0 : State} {s : State} (n : _) (nak : _) (hs : SameBut msk s0 s)
    (hmsk : sub [.regs, .xngs, .cnts, .wire] msk = true) :
    SameBut msk s0 (State.sendIdle s n nak) := by
  unfold State.sendIdle; try dsimp only
  repeat' first
    | with_reducible first
      | assumption | exact sub_trans hmsk rfl | apply State.sendFlit_same
    | intro _
    | split
    | dsimp only

theorem State.replayFlits_same {msk : List Fld} {s0 : State} {s : State} (n : _) (hs : SameBut msk s0 s)
    (hmsk : sub [.regs, .cnts, .wire] msk = true) :
    SameBut msk s0 (State.replayFlits s n) := by
  unfold State.replayFlits; try dsimp only
  repeat' first
    | with_reducible first
      | assumption | exact sub_trans hmsk rfl | apply SameBut.foldl | apply SameBut.foldl1
      | apply SameBut.foldlDev | apply SameBut.foldlMv | apply SameBut.foldlDn | apply State.count_same
      | apply State.send_same
    | intro _
    | split
    | dsimp only

theorem State.xngActive_same {msk : List Fld} {s0 : State} {s : State} (n : _) (enc : _) (hs : SameBut msk s0 s)
    (hmsk : sub [.regs, .xngs] msk = true) :
    SameBut msk s0 (State.xngActive s n enc) := by
  unfold State.xngActive; try dsimp only
  repeat' first
    | with_reducible first
      | assumption | exact sub_trans hmsk rfl | apply State.setFld_same | apply State.setXng_same
    | intro _
    | split
    | dsimp only

theorem State.xngResume_same {msk : List Fld} {s0 : State} {s : State} (n : _) (hs : SameBut msk s0 s)
    (hmsk : sub [.regs, .xngs, .cnts, .wire] msk = true) :
    SameBut msk s0 (State.xngResume s n) := by
  unfold State.xngResume; try dsimp only
  repeat' first
    | with_reducible first
      | assumption | exact sub_trans hmsk rfl | apply State.replayFlits_same | apply State.updXng_same
    | intro _
    | split
    | dsimp only

theorem peerDone_same {msk : List Fld} {s0 : State} (n : _) (peer : _) (gen : _) (half : _) (encOff : _) {s : State} (hs : SameBut msk s0 s)
    (hmsk : sub [.regs, .slices, .dram, .chk, .net, .errs, .xngs, .eps, .coll, .cores, .caches, .cnts, .wire] msk = true) :
    SameBut msk s0 (peerDone n peer gen half encOff s) := by
  unfold peerDone; try dsimp only
  repeat' first
    | with_reducible first
      | assumption | exact sub_trans hmsk rfl | apply State.setFld_same | apply State.trainFailed_same
      | apply State.updXng_same | apply State.xngResume_same | apply State.xngTo_same
    | intro _
    | split
    | dsimp only

theorem execXngPeerDone_same {msk : List Fld} {s0 : State} (n : _) (peer : _) (gen : _) (half : _) (encOff : _) {s : State} (hs : SameBut msk s0 s)
    (hmsk : sub [.regs, .slices, .dram, .chk, .net, .errs, .xngs, .eps, .coll, .cores, .caches, .cnts, .wire] msk = true) :
    OutSame msk s0 (execXngPeerDone n peer gen half encOff s) := by
  unfold execXngPeerDone; try dsimp only
  repeat' first
    | with_reducible first
      | assumption | exact sub_trans hmsk rfl | apply OutSame.next | apply peerDone_same
    | intro _
    | split
    | dsimp only

theorem authDone_same {msk : List Fld} {s0 : State} (n : _) (certOk : _) {s : State} (hs : SameBut msk s0 s)
    (hmsk : sub [.regs, .slices, .dram, .chk, .net, .errs, .xngs, .eps, .coll, .cores, .caches, .cnts, .wire] msk = true) :
    SameBut msk s0 (authDone n certOk s) := by
  unfold authDone; try dsimp only
  repeat' first
    | with_reducible first
      | assumption | exact sub_trans hmsk rfl | apply State.setFld_same | apply State.xngActive_same
      | apply State.xngDown_same
    | intro _
    | split
    | dsimp only

theorem execXngAuthDone_same {msk : List Fld} {s0 : State} (n : _) (certOk : _) {s : State} (hs : SameBut msk s0 s)
    (hmsk : sub [.regs, .slices, .dram, .chk, .net, .errs, .xngs, .eps, .coll, .cores, .caches, .cnts, .wire] msk = true) :
    OutSame msk s0 (execXngAuthDone n certOk s) := by
  unfold execXngAuthDone; try dsimp only
  repeat' first
    | with_reducible first
      | assumption | exact sub_trans hmsk rfl | apply OutSame.next | apply authDone_same
    | intro _
    | split
    | dsimp only

theorem xngTimeout_same {msk : List Fld} {s0 : State} (n : _) {s : State} (hs : SameBut msk s0 s)
    (hmsk : sub [.regs, .slices, .dram, .chk, .net, .errs, .xngs, .eps, .coll, .cores, .caches, .cnts, .wire] msk = true) :
    SameBut msk s0 (xngTimeout n s) := by
  unfold xngTimeout; try dsimp only
  repeat' first
    | with_reducible first
      | assumption | exact sub_trans hmsk rfl | apply State.equaliseFailed_same | apply State.setFld_same
      | apply State.trainFailed_same | apply State.xngDown_same
    | intro _
    | split
    | dsimp only

theorem execXngStateTimeout_same {msk : List Fld} {s0 : State} (n : _) {s : State} (hs : SameBut msk s0 s)
    (hmsk : sub [.regs, .slices, .dram, .chk, .net, .errs, .xngs, .eps, .coll, .cores, .caches, .cnts, .wire] msk = true) :
    OutSame msk s0 (execXngStateTimeout n s) := by
  unfold execXngStateTimeout; try dsimp only
  repeat' first
    | with_reducible first
      | assumption | exact sub_trans hmsk rfl | apply OutSame.next | apply xngTimeout_same
    | intro _
    | split
    | dsimp only

theorem execXngDownExpiry_same {msk : List Fld} {s0 : State} (n : _) {s : State} (hs : SameBut msk s0 s)
    (hmsk : sub [.xngs] msk = true) :
    OutSame msk s0 (execXngDownExpiry n s) := by
  unfold execXngDownExpiry; try dsimp only
  repeat' first
    | with_reducible first
      | assumption | exact sub_trans hmsk rfl | apply OutSame.next | apply State.xngDetect_same
    | intro _
    | split
    | dsimp only

theorem execCodewordLockLoss_same {msk : List Fld} {s0 : State} (n : _) {s : State} (hs : SameBut msk s0 s)
    (hmsk : sub [.regs, .slices, .dram, .chk, .net, .errs, .xngs, .eps, .coll, .cores, .caches, .cnts, .wire] msk = true) :
    OutSame msk s0 (execCodewordLockLoss n s) := by
  unfold execCodewordLockLoss; try dsimp only
  repeat' first
    | with_reducible first
      | assumption | exact sub_trans hmsk rfl | apply OutSame.next | apply State.xngRetrain_same
    | intro _
    | split
    | dsimp only

theorem retrainCtrl_same {msk : List Fld} {s0 : State} (n : _) {s : State} (hs : SameBut msk s0 s)
    (hmsk : sub [.regs, .slices, .dram, .chk, .net, .errs, .xngs, .eps, .coll, .cores, .caches, .cnts, .wire] msk = true) :
    SameBut msk s0 (retrainCtrl n s) := by
  unfold retrainCtrl; try dsimp only
  repeat' first
    | with_reducible first
      | assumption | exact sub_trans hmsk rfl | apply State.updXng_same | apply State.xngRetrain_same
    | intro _
    | split
    | dsimp only

theorem execXngRetrain_same {msk : List Fld} {s0 : State} (r : _) (n : _) {s : State} (hs : SameBut msk s0 s)
    (hmsk : sub [.regs, .slices, .dram, .chk, .net, .errs, .xngs, .eps, .coll, .cores, .caches, .dbg, .cnts, .wire] msk = true) :
    OutSame msk s0 (execXngRetrain r n s) := by
  unfold execXngRetrain; try dsimp only
  repeat' first
    | with_reducible first
      | assumption | exact sub_trans hmsk rfl | apply OutSame.next | apply State.access_same
      | apply retrainCtrl_same
    | intro _
    | split
    | dsimp only

theorem execXngRetrainDone_same {msk : List Fld} {s0 : State} (n : _) (ok : _) {s : State} (hs : SameBut msk s0 s)
    (hmsk : sub [.regs, .slices, .dram, .chk, .net, .errs, .xngs, .eps, .coll, .cores, .caches, .cnts, .wire] msk = true) :
    OutSame msk s0 (execXngRetrainDone n ok s) := by
  unfold execXngRetrainDone; try dsimp only
  repeat' first
    | with_reducible first
      | assumption | exact sub_trans hmsk rfl | apply OutSame.next | apply State.retrainFailed_same
      | apply State.xngResume_same
    | intro _
    | split
    | dsimp only

theorem xngClockLost_same {msk : List Fld} {s0 : State} {s : State} (hs : SameBut msk s0 s)
    (hmsk : sub [.pins, .regs, .slices, .dram, .chk, .net, .errs, .xngs, .eps, .coll, .cores, .caches, .cnts, .wire] msk = true) :
    SameBut msk s0 (xngClockLost s) := by
  unfold xngClockLost; try dsimp only
  repeat' first
    | with_reducible first
      | assumption | exact sub_trans hmsk rfl | apply SameBut.foldl | apply SameBut.foldl1
      | apply SameBut.foldlDev | apply SameBut.foldlMv | apply SameBut.foldlDn | apply State.xngDown_same
    | intro _
    | split
    | with_reducible apply SameBut.lit_pins
    | dsimp only

theorem execRefclkXngAbsent_same {msk : List Fld} {s0 : State} {s : State} (hs : SameBut msk s0 s)
    (hmsk : sub [.pins, .regs, .slices, .dram, .chk, .net, .errs, .xngs, .eps, .coll, .cores, .caches, .cnts, .wire] msk = true) :
    OutSame msk s0 (execRefclkXngAbsent s) := by
  unfold execRefclkXngAbsent; try dsimp only
  repeat' first
    | with_reducible first
      | assumption | exact sub_trans hmsk rfl | apply OutSame.next | apply xngClockLost_same
    | intro _
    | split
    | dsimp only

theorem xngClockBack_same {msk : List Fld} {s0 : State} {s : State} (hs : SameBut msk s0 s)
    (hmsk : sub [.pins, .xngs] msk = true) :
    SameBut msk s0 (xngClockBack s) := by
  unfold xngClockBack; try dsimp only
  repeat' first
    | with_reducible first
      | assumption | exact sub_trans hmsk rfl | apply SameBut.foldl | apply SameBut.foldl1
      | apply SameBut.foldlDev | apply SameBut.foldlMv | apply SameBut.foldlDn | apply State.xngDetect_same
    | intro _
    | split
    | with_reducible apply SameBut.lit_pins
    | dsimp only

theorem execRefclkXngStable_same {msk : List Fld} {s0 : State} {s : State} (hs : SameBut msk s0 s)
    (hmsk : sub [.pins, .xngs] msk = true) :
    OutSame msk s0 (execRefclkXngStable s) := by
  unfold execRefclkXngStable; try dsimp only
  repeat' first
    | with_reducible first
      | assumption | exact sub_trans hmsk rfl | apply OutSame.next | apply xngClockBack_same
    | intro _
    | split
    | dsimp only

theorem State.freeBuf_same {msk : List Fld} {s0 : State} {s : State} (via : _) (p : _) (hs : SameBut msk s0 s)
    (hmsk : sub [.xngs] msk = true) :
    SameBut msk s0 (State.freeBuf s via p) := by
  unfold State.freeBuf; try dsimp only
  repeat' first
    | with_reducible first
      | assumption | exact sub_trans hmsk rfl | apply State.updXng_same
    | intro _
    | split
    | dsimp only

theorem State.dropPkt_same {msk : List Fld} {s0 : State} {s : State} (via : _) (p : _) (hs : SameBut msk s0 s)
    (hmsk : sub [.regs, .xngs, .cnts] msk = true) :
    SameBut msk s0 (State.dropPkt s via p) := by
  unfold State.dropPkt; try dsimp only
  repeat' first
    | with_reducible first
      | assumption | exact sub_trans hmsk rfl | apply State.count_same | apply State.freeBuf_same
    | intro _
    | split
    | dsimp only

theorem State.takePkt_same {msk : List Fld} {s0 : State} {s : State} (n : _) (p : _) (hs : SameBut msk s0 s)
    (hmsk : sub [.regs, .xngs, .coll, .cnts] msk = true) :
    SameBut msk s0 (State.takePkt s n p) := by
  unfold State.takePkt; try dsimp only
  repeat' first
    | with_reducible first
      | assumption | exact sub_trans hmsk rfl | apply State.dropPkt_same
    | intro _
    | split
    | with_reducible apply SameBut.lit_coll
    | dsimp only

theorem takePkts_same {msk : List Fld} {s0 : State} {s : State} (n : _) (x2 : _) (x3 : _) (hs : SameBut msk s0 s)
    (hmsk : sub [.regs, .xngs, .coll, .cnts] msk = true) :
    SameBut msk s0 (takePkts s n x2 x3) := by
  induction x2 generalizing s x3 with
  | zero =>
    unfold takePkts; try dsimp only
    repeat' first
      | with_reducible first
        | assumption | exact sub_trans hmsk rfl | apply State.takePkt_same | apply State.updXng_same
      | intro _
      | split
      | dsimp only
  | succ _ ih =>
    unfold takePkts; try dsimp only
    repeat' first
      | with_reducible first
        | assumption | exact sub_trans hmsk rfl | apply State.takePkt_same | apply State.updXng_same | apply ih
      | intro _
      | split
      | dsimp only

theorem State.deliver_same {msk : List Fld} {s0 : State} {s : State} (n : _) (bytes : _) (hs : SameBut msk s0 s)
    (hmsk : sub [.regs, .xngs, .coll, .cnts] msk = true) :
    SameBut msk s0 (State.deliver s n bytes) := by
  unfold State.deliver; try dsimp only
  repeat' first
    | with_reducible first
      | assumption | exact sub_trans hmsk rfl | apply State.updXng_same | apply takePkts_same
    | intro _
    | split
    | dsimp only

theorem State.replayXng_same {msk : List Fld} {s0 : State} {s : State} (n : _) (hs : SameBut msk s0 s)
    (hmsk : sub [.regs, .xngs, .cnts, .wire] msk = true) :
    SameBut msk s0 (State.replayXng s n) := by
  unfold State.replayXng; try dsimp only
  repeat' first
    | with_reducible first
      | assumption | exact sub_trans hmsk rfl | apply State.addFld_same | apply State.replayFlits_same
      | apply State.updXng_same
    | intro _
    | split
    | dsimp only

theorem State.sendNak_same {msk : List Fld} {s0 : State} {s : State} (n : _) (hs : SameBut msk s0 s)
    (hmsk : sub [.regs, .xngs, .cnts, .wire] msk = true) :
    SameBut msk s0 (State.sendNak s n) := by
  unfold State.sendNak; try dsimp only
  repeat' first
    | with_reducible first
      | assumption | exact sub_trans hmsk rfl | apply State.sendIdle_same | apply State.updXng_same
    | intro _
    | split
    | dsimp only

theorem State.takeFlits_same {msk : List Fld} {s0 : State} {s : State} (n : _) (seq : _) (bytes : _) (hs : SameBut msk s0 s)
    (hmsk : sub [.regs, .xngs, .coll, .cnts, .wire] msk = true) :
    SameBut msk s0 (State.takeFlits s n seq bytes) := by
  unfold State.takeFlits; try dsimp only
  repeat' first
    | with_reducible first
      | assumption | exact sub_trans hmsk rfl | apply State.deliver_same | apply State.sendIdle_same
      | apply State.updXng_same
    | intro _
    | split
    | dsimp only

theorem State.tagFailed_same {msk : List Fld} {s0 : State} {s : State} (n : _) (hs : SameBut msk s0 s)
    (hmsk : sub [.regs, .slices, .dram, .chk, .net, .errs, .xngs, .eps, .coll, .cores, .caches, .cnts, .wire] msk = true) :
    SameBut msk s0 (State.tagFailed s n) := by
  unfold State.tagFailed; try dsimp only
  repeat' first
    | with_reducible first
      | assumption | exact sub_trans hmsk rfl | apply State.addFld_same | apply State.sendNak_same
      | apply State.updXng_same | apply State.xngDown_same
    | intro _
    | split
    | dsimp only

theorem sequenced_same {msk : List Fld} {s0 : State} (n : _) (f : _) (tagOk : _) (plain : _) {s : State} (hs : SameBut msk s0 s)
    (hmsk : sub [.regs, .slices, .dram, .chk, .net, .errs, .xngs, .eps, .coll, .cores, .caches, .cnts, .wire] msk = true) :
    SameBut msk s0 (sequenced n f tagOk plain s) := by
  unfold sequenced; try dsimp only
  repeat' first
    | with_reducible first
      | assumption | exact sub_trans hmsk rfl | apply State.count_same | apply State.sendNak_same
      | apply State.tagFailed_same | apply State.takeFlits_same | apply State.updXng_same
    | intro _
    | split
    | dsimp only

theorem receiveFlit_same {msk : List Fld} {s0 : State} (n : _) (f : _) (tagOk : _) (plain : _) {s : State} (hs : SameBut msk s0 s)
    (hmsk : sub [.regs, .slices, .dram, .chk, .net, .errs, .xngs, .eps, .coll, .cores, .caches, .cnts, .wire] msk = true) :
    SameBut msk s0 (receiveFlit n f tagOk plain s) := by
  unfold receiveFlit; try dsimp only
  repeat' first
    | with_reducible first
      | assumption | exact sub_trans hmsk rfl | apply State.replayXng_same | apply State.sendNak_same
      | apply State.updXng_same | apply sequenced_same
    | intro _
    | split
    | dsimp only

theorem execXngFlitReceive_same {msk : List Fld} {s0 : State} (n : _) (flit : _) (tagOk : _) (plain : _) {s : State} (hs : SameBut msk s0 s)
    (hmsk : sub [.regs, .slices, .dram, .chk, .net, .errs, .xngs, .eps, .coll, .cores, .caches, .cnts, .wire] msk = true) :
    OutSame msk s0 (execXngFlitReceive n flit tagOk plain s) := by
  unfold execXngFlitReceive; try dsimp only
  repeat' first
    | with_reducible first
      | assumption | exact sub_trans hmsk rfl | apply OutSame.next | apply receiveFlit_same
    | intro _
    | split
    | dsimp only

theorem State.dataFlit_same {msk : List Fld} {s0 : State} {s : State} (n : _) (hs : SameBut msk s0 s)
    (hmsk : sub [.freeCtr, .regs, .xngs, .cnts, .wire] msk = true) :
    SameBut msk s0 (State.dataFlit s n) := by
  unfold State.dataFlit; try dsimp only
  repeat' first
    | with_reducible first
      | assumption | exact sub_trans hmsk rfl | apply State.freeBytes_same | apply State.sendFlit_same
      | apply State.setXng_same
    | intro _
    | split
    | dsimp only

theorem State.flushFlits_same {msk : List Fld} {s0 : State} {s : State} (n : _) (x2 : _) (hs : SameBut msk s0 s)
    (hmsk : sub [.freeCtr, .regs, .xngs, .cnts, .wire] msk = true) :
    SameBut msk s0 (State.flushFlits s n x2) := by
  induction x2 generalizing s with
  | zero =>
    unfold State.flushFlits; try dsimp only
    repeat' first
      | with_reducible first
        | assumption | exact sub_trans hmsk rfl | apply State.dataFlit_same
      | intro _
      | split
      | dsimp only
  | succ _ ih =>
    unfold State.flushFlits; try dsimp only
    repeat' first
      | with_reducible first
        | assumption | exact sub_trans hmsk rfl | apply State.dataFlit_same | apply ih
      | intro _
      | split
      | dsimp only

theorem State.newKey_same {msk : List Fld} {s0 : State} {s : State} (n : _) (hs : SameBut msk s0 s)
    (hmsk : sub [.xngs] msk = true) :
    SameBut msk s0 (State.newKey s n) := by
  unfold State.newKey; try dsimp only
  repeat' first
    | with_reducible first
      | assumption | exact sub_trans hmsk rfl | apply State.updXng_same
    | intro _
    | split
    | dsimp only

theorem closeGroup_same {msk : List Fld} {s0 : State} (n : _) {s : State} (hs : SameBut msk s0 s)
    (hmsk : sub [.freeCtr, .regs, .xngs, .cnts, .wire] msk = true) :
    SameBut msk s0 (closeGroup n s) := by
  unfold closeGroup; try dsimp only
  repeat' first
    | with_reducible first
      | assumption | exact sub_trans hmsk rfl | apply State.dataFlit_same | apply State.flushFlits_same
      | apply State.freeBytes_same | apply State.newKey_same | apply State.sendFlit_same | apply State.updXng_same
    | intro _
    | split
    | dsimp only

theorem execTagGroupClose_same {msk : List Fld} {s0 : State} (n : _) {s : State} (hs : SameBut msk s0 s)
    (hmsk : sub [.freeCtr, .regs, .xngs, .cnts, .wire] msk = true) :
    OutSame msk s0 (execTagGroupClose n s) := by
  unfold execTagGroupClose; try dsimp only
  repeat' first
    | with_reducible first
      | assumption | exact sub_trans hmsk rfl | apply OutSame.next | apply closeGroup_same
    | intro _
    | split
    | dsimp only

theorem State.rekey_same {msk : List Fld} {s0 : State} {s : State} (n : _) (hs : SameBut msk s0 s)
    (hmsk : sub [.regs, .slices, .dram, .chk, .net, .errs, .xngs, .eps, .coll, .cores, .caches, .cnts, .wire] msk = true) :
    SameBut msk s0 (State.rekey s n) := by
  unfold State.rekey; try dsimp only
  repeat' first
    | with_reducible first
      | assumption | exact sub_trans hmsk rfl | apply State.newKey_same | apply State.setFld_same
      | apply State.updXng_same | apply State.xngDown_same
    | intro _
    | split
    | dsimp only

theorem execXngRekey_same {msk : List Fld} {s0 : State} (r : _) (n : _) {s : State} (hs : SameBut msk s0 s)
    (hmsk : sub [.regs, .slices, .dram, .chk, .net, .errs, .xngs, .eps, .coll, .cores, .caches, .dbg, .cnts, .wire] msk = true) :
    OutSame msk s0 (execXngRekey r n s) := by
  unfold execXngRekey; try dsimp only
  repeat' first
    | with_reducible first
      | assumption | exact sub_trans hmsk rfl | apply OutSame.next | apply State.access_same
      | apply State.rekey_same
    | intro _
    | split
    | dsimp only

theorem execRekeyDue_same {msk : List Fld} {s0 : State} (n : _) {s : State} (hs : SameBut msk s0 s)
    (hmsk : sub [.regs, .slices, .dram, .chk, .net, .errs, .xngs, .eps, .coll, .cores, .caches, .cnts, .wire] msk = true) :
    OutSame msk s0 (execRekeyDue n s) := by
  unfold execRekeyDue; try dsimp only
  repeat' first
    | with_reducible first
      | assumption | exact sub_trans hmsk rfl | apply OutSame.next | apply State.rekey_same
    | intro _
    | split
    | dsimp only

theorem errorTick_same {msk : List Fld} {s0 : State} (n : _) (laneCorr : _) {s : State} (hs : SameBut msk s0 s)
    (hmsk : sub [.regs, .slices, .dram, .chk, .net, .errs, .xngs, .eps, .coll, .cores, .caches, .cnts, .wire] msk = true) :
    SameBut msk s0 (errorTick n laneCorr s) := by
  unfold errorTick; try dsimp only
  repeat' first
    | with_reducible first
      | assumption | exact sub_trans hmsk rfl | apply State.report_same | apply State.setBit_same
      | apply State.setXng_same | apply State.xngRetrain_same
    | intro _
    | split
    | dsimp only

theorem execXngErrorRateTick_same {msk : List Fld} {s0 : State} (n : _) (laneCorr : _) {s : State} (hs : SameBut msk s0 s)
    (hmsk : sub [.regs, .slices, .dram, .chk, .net, .errs, .xngs, .eps, .coll, .cores, .caches, .cnts, .wire] msk = true) :
    OutSame msk s0 (execXngErrorRateTick n laneCorr s) := by
  unfold execXngErrorRateTick; try dsimp only
  repeat' first
    | with_reducible first
      | assumption | exact sub_trans hmsk rfl | apply OutSame.next | apply errorTick_same
    | intro _
    | split
    | dsimp only

theorem State.dropLostPkts_same {msk : List Fld} {s0 : State} {s : State} (hs : SameBut msk s0 s)
    (hmsk : sub [.regs, .xngs, .coll, .cnts] msk = true) :
    SameBut msk s0 (State.dropLostPkts s) := by
  unfold State.dropLostPkts; try dsimp only
  repeat' first
    | with_reducible first
      | assumption | exact sub_trans hmsk rfl | apply SameBut.foldl | apply SameBut.foldl1
      | apply SameBut.foldlDev | apply SameBut.foldlMv | apply SameBut.foldlDn | apply State.dropPkt_same
    | intro _
    | split
    | with_reducible apply SameBut.lit_coll
    | dsimp only

theorem State.packPkt_same {msk : List Fld} {s0 : State} {s : State} (n : _) (p : _) (hs : SameBut msk s0 s)
    (hmsk : sub [.freeCtr, .regs, .xngs, .cnts, .wire] msk = true) :
    SameBut msk s0 (State.packPkt s n p) := by
  unfold State.packPkt; try dsimp only
  repeat' first
    | with_reducible first
      | assumption | exact sub_trans hmsk rfl | apply State.flushFlits_same | apply State.setXng_same
    | intro _
    | split
    | dsimp only

theorem sendPkt_same {msk : List Fld} {s0 : State} (n : _) {s : State} (hs : SameBut msk s0 s)
    (hmsk : sub [.freeCtr, .regs, .xngs, .eps, .coll, .cnts, .wire] msk = true) :
    SameBut msk s0 (sendPkt n s) := by
  unfold sendPkt; try dsimp only
  repeat' first
    | with_reducible first
      | assumption | exact sub_trans hmsk rfl | apply State.count_same | apply State.dataFlit_same
      | apply State.dropLostPkts_same | apply State.flushFlits_same | apply State.freeBuf_same
      | apply State.packPkt_same | apply State.sendIdle_same | apply State.setColl_same
    | intro _
    | split
    | with_reducible apply SameBut.lit_coll
    | dsimp only

theorem execXngPacketSend_same {msk : List Fld} {s0 : State} (n : _) {s : State} (hs : SameBut msk s0 s)
    (hmsk : sub [.freeCtr, .regs, .xngs, .eps, .coll, .cnts, .wire] msk = true) :
    OutSame msk s0 (execXngPacketSend n s) := by
  unfold execXngPacketSend; try dsimp only
  repeat' first
    | with_reducible first
      | assumption | exact sub_trans hmsk rfl | apply OutSame.next | apply sendPkt_same
    | intro _
    | split
    | dsimp only

/-! ### Groups -/

theorem State.tryForm_same {msk : List Fld} {s0 : State} {s : State} (g : _) (hs : SameBut msk s0 s)
    (hmsk : sub [.rings, .groups, .cores, .wire] msk = true) :
    SameBut msk s0 (State.tryForm s g) := by
  unfold State.tryForm; try dsimp only
  repeat' first
    | with_reducible first
      | assumption | exact sub_trans hmsk rfl | apply State.finishCmd_same | apply State.setGrp_same
    | intro _
    | split
    | dsimp only

theorem State.formFailed_same {msk : List Fld} {s0 : State} {s : State} (g : _) (status : _) (hs : SameBut msk s0 s)
    (hmsk : sub [.rings, .groups, .cores, .wire] msk = true) :
    SameBut msk s0 (State.formFailed s g status) := by
  unfold State.formFailed; try dsimp only
  repeat' first
    | with_reducible first
      | assumption | exact sub_trans hmsk rfl | apply State.finishCmd_same | apply State.updGrp_same
    | intro _
    | split
    | dsimp only

theorem State.answerForm_same {msk : List Fld} {s0 : State} {s : State} (g : _) (q : _) (digest : _) (ack : _) (hs : SameBut msk s0 s)
    (hmsk : sub [.rings, .groups, .coll, .cores, .wire] msk = true) :
    SameBut msk s0 (State.answerForm s g q digest ack) := by
  unfold State.answerForm; try dsimp only
  repeat' first
    | with_reducible first
      | assumption | exact sub_trans hmsk rfl | apply State.formFailed_same | apply State.postPkt_same
      | apply State.tryForm_same | apply State.updGrp_same
    | intro _
    | split
    | dsimp only

theorem startForm_same {msk : List Fld} {s0 : State} (k : _) (c : _) (ids : _) {s : State} (hs : SameBut msk s0 s)
    (hmsk : sub [.rings, .groups, .coll, .cores, .wire] msk = true) :
    SameBut msk s0 (startForm k c ids s) := by
  unfold startForm; try dsimp only
  repeat' first
    | with_reducible first
      | assumption | exact sub_trans hmsk rfl | apply SameBut.foldl | apply SameBut.foldl1
      | apply SameBut.foldlDev | apply SameBut.foldlMv | apply SameBut.foldlDn | apply State.answerForm_same
      | apply State.postAll_same | apply State.runCmd_same | apply State.updGrp_same
    | intro _
    | split
    | with_reducible apply SameBut.lit_coll
    | dsimp only

theorem formCmd_same {msk : List Fld} {s0 : State} (ids : _) (k : _) (c : _) {s : State} (hs : SameBut msk s0 s)
    (hmsk : sub [.regs, .rings, .groups, .coll, .cores, .wire] msk = true) :
    SameBut msk s0 (formCmd ids k c s) := by
  unfold formCmd; try dsimp only
  repeat' first
    | with_reducible first
      | assumption | exact sub_trans hmsk rfl | apply State.hostDma_same | apply State.instant_same
      | apply startForm_same
    | intro _
    | split
    | dsimp only

theorem execGroupForm_same {msk : List Fld} {s0 : State} (g : _) (ids : _) {s : State} (hs : SameBut msk s0 s)
    (hmsk : sub [.regs, .rings, .groups, .coll, .cores, .wire] msk = true) :
    OutSame msk s0 (execGroupForm g ids s) := by
  unfold execGroupForm; try dsimp only
  repeat' first
    | with_reducible first
      | assumption | exact sub_trans hmsk rfl | apply OutSame.next | apply formCmd_same | apply startCmd_same
    | intro _
    | split
    | dsimp only

theorem State.endColls_same {msk : List Fld} {s0 : State} {s : State} (g : _) (status : _) (hs : SameBut msk s0 s)
    (hmsk : sub [.regs, .slices, .dram, .chk, .net, .errs, .eps, .cores, .caches, .cnts, .wire] msk = true) :
    SameBut msk s0 (State.endColls s g status) := by
  unfold State.endColls; try dsimp only
  repeat' first
    | with_reducible first
      | assumption | exact sub_trans hmsk rfl | apply SameBut.foldl | apply SameBut.foldl1
      | apply SameBut.foldlDev | apply SameBut.foldlMv | apply SameBut.foldlDn | apply State.endColl_same
    | intro _
    | split
    | dsimp only

theorem dissolve_same {msk : List Fld} {s0 : State} (g : _) {s : State} (hs : SameBut msk s0 s)
    (hmsk : sub [.regs, .slices, .dram, .chk, .net, .rings, .errs, .eps, .groups, .cores, .caches, .cnts, .wire] msk = true) :
    SameBut msk s0 (dissolve g s) := by
  unfold dissolve; try dsimp only
  repeat' first
    | with_reducible first
      | assumption | exact sub_trans hmsk rfl | apply State.endColls_same | apply State.formFailed_same
      | apply State.setGrp_same
    | intro _
    | split
    | dsimp only

theorem dissolveCmd_same {msk : List Fld} {s0 : State} (k : _) (c : _) {s : State} (hs : SameBut msk s0 s)
    (hmsk : sub [.regs, .slices, .dram, .chk, .net, .rings, .errs, .eps, .groups, .cores, .caches, .cnts, .wire] msk = true) :
    SameBut msk s0 (dissolveCmd k c s) := by
  unfold dissolveCmd; try dsimp only
  repeat' first
    | with_reducible first
      | assumption | exact sub_trans hmsk rfl | apply State.instant_same | apply dissolve_same
    | intro _
    | split
    | dsimp only

theorem execGroupDissolve_same {msk : List Fld} {s0 : State} (g : _) {s : State} (hs : SameBut msk s0 s)
    (hmsk : sub [.regs, .slices, .dram, .chk, .net, .rings, .errs, .eps, .groups, .cores, .caches, .cnts, .wire] msk = true) :
    OutSame msk s0 (execGroupDissolve g s) := by
  unfold execGroupDissolve; try dsimp only
  repeat' first
    | with_reducible first
      | assumption | exact sub_trans hmsk rfl | apply OutSame.next | apply dissolveCmd_same | apply startCmd_same
    | intro _
    | split
    | dsimp only

theorem State.pktIn_same {msk : List Fld} {s0 : State} {s : State} (kind : _) (src : _) (gid : _) (epoch : _) (seq : _) (hs : SameBut msk s0 s)
    (hmsk : sub [.xngs, .coll] msk = true) :
    SameBut msk s0 (State.pktIn s kind src gid epoch seq) := by
  unfold State.pktIn; try dsimp only
  repeat' first
    | with_reducible first
      | assumption | exact sub_trans hmsk rfl | apply State.freeBuf_same
    | intro _
    | split
    | with_reducible apply SameBut.lit_coll
    | dsimp only

theorem State.stale_same {msk : List Fld} {s0 : State} {s : State} (hs : SameBut msk s0 s)
    (hmsk : sub [.regs, .cnts] msk = true) :
    SameBut msk s0 (State.stale s) := by
  unfold State.stale; try dsimp only
  repeat' first
    | with_reducible first
      | assumption | exact sub_trans hmsk rfl | apply State.count_same
    | intro _
    | split
    | dsimp only

theorem State.heard_same {msk : List Fld} {s0 : State} {s : State} (g : _) (src : _) (hs : SameBut msk s0 s)
    (hmsk : sub [.groups] msk = true) :
    SameBut msk s0 (State.heard s g src) := by
  unfold State.heard; try dsimp only
  repeat' first
    | with_reducible first
      | assumption | exact sub_trans hmsk rfl | apply State.updGrp_same
    | intro _
    | split
    | dsimp only

theorem joinIn_same {msk : List Fld} {s0 : State} (src : _) (gid : _) (epoch : _) (digest : _) {s : State} (hs : SameBut msk s0 s)
    (hmsk : sub [.regs, .rings, .groups, .coll, .cores, .cnts, .wire] msk = true) :
    SameBut msk s0 (joinIn src gid epoch digest s) := by
  unfold joinIn; try dsimp only
  repeat' first
    | with_reducible first
      | assumption | exact sub_trans hmsk rfl | apply State.answerForm_same | apply State.heard_same
      | apply State.postPkt_same | apply State.stale_same
    | intro _
    | split
    | with_reducible apply SameBut.lit_coll
    | dsimp only

theorem execJoin_same {msk : List Fld} {s0 : State} (src : _) (gid : _) (epoch : _) (digest : _) {s : State} (hs : SameBut msk s0 s)
    (hmsk : sub [.regs, .rings, .xngs, .groups, .coll, .cores, .cnts, .wire] msk = true) :
    OutSame msk s0 (execJoin src gid epoch digest s) := by
  unfold execJoin; try dsimp only
  repeat' first
    | with_reducible first
      | assumption | exact sub_trans hmsk rfl | apply OutSame.next | apply State.pktIn_same | apply joinIn_same
    | intro _
    | split
    | dsimp only

theorem joinAckIn_same {msk : List Fld} {s0 : State} (src : _) (gid : _) (epoch : _) (digest : _) {s : State} (hs : SameBut msk s0 s)
    (hmsk : sub [.regs, .rings, .groups, .coll, .cores, .cnts, .wire] msk = true) :
    SameBut msk s0 (joinAckIn src gid epoch digest s) := by
  unfold joinAckIn; try dsimp only
  repeat' first
    | with_reducible first
      | assumption | exact sub_trans hmsk rfl | apply State.answerForm_same | apply State.heard_same
      | apply State.stale_same
    | intro _
    | split
    | dsimp only

theorem execJoinAck_same {msk : List Fld} {s0 : State} (src : _) (gid : _) (epoch : _) (digest : _) {s : State} (hs : SameBut msk s0 s)
    (hmsk : sub [.regs, .rings, .xngs, .groups, .coll, .cores, .cnts, .wire] msk = true) :
    OutSame msk s0 (execJoinAck src gid epoch digest s) := by
  unfold execJoinAck; try dsimp only
  repeat' first
    | with_reducible first
      | assumption | exact sub_trans hmsk rfl | apply OutSame.next | apply State.pktIn_same | apply joinAckIn_same
    | intro _
    | split
    | dsimp only

theorem execJoinKeepExpiry_same {msk : List Fld} {s0 : State} (i : _) {s : State} (hs : SameBut msk s0 s)
    (hmsk : sub [.coll] msk = true) :
    OutSame msk s0 (execJoinKeepExpiry i s) := by
  unfold execJoinKeepExpiry; try dsimp only
  repeat' first
    | with_reducible first
      | assumption | exact sub_trans hmsk rfl | apply OutSame.next
    | intro _
    | split
    | with_reducible apply SameBut.lit_coll
    | dsimp only

theorem execGrpTimeout_same {msk : List Fld} {s0 : State} (g : _) {s : State} (hs : SameBut msk s0 s)
    (hmsk : sub [.rings, .groups, .cores, .wire] msk = true) :
    OutSame msk s0 (execGrpTimeout g s) := by
  unfold execGrpTimeout; try dsimp only
  repeat' first
    | with_reducible first
      | assumption | exact sub_trans hmsk rfl | apply OutSame.next | apply State.formFailed_same
    | intro _
    | split
    | dsimp only

theorem beat_same {msk : List Fld} {s0 : State} (g : _) {s : State} (hs : SameBut msk s0 s)
    (hmsk : sub [.coll] msk = true) :
    SameBut msk s0 (beat g s) := by
  unfold beat; try dsimp only
  repeat' first
    | with_reducible first
      | assumption | exact sub_trans hmsk rfl | apply SameBut.foldl | apply SameBut.foldl1
      | apply SameBut.foldlDev | apply SameBut.foldlMv | apply SameBut.foldlDn | apply State.postPkt_same
    | intro _
    | split
    | dsimp only

theorem execHeartbeatSend_same {msk : List Fld} {s0 : State} (g : _) {s : State} (hs : SameBut msk s0 s)
    (hmsk : sub [.coll] msk = true) :
    OutSame msk s0 (execHeartbeatSend g s) := by
  unfold execHeartbeatSend; try dsimp only
  repeat' first
    | with_reducible first
      | assumption | exact sub_trans hmsk rfl | apply OutSame.next | apply beat_same
    | intro _
    | split
    | dsimp only

theorem groupPkt_same {msk : List Fld} {s0 : State} (src : _) (gid : _) (epoch : _) (f : _) {s : State} (hf : ∀ c u, SameBut msk s0 u → SameBut msk s0 (f c u)) (hs : SameBut msk s0 s)
    (hmsk : sub [.regs, .groups, .cnts] msk = true) :
    SameBut msk s0 (groupPkt src gid epoch f s) := by
  unfold groupPkt; try dsimp only
  repeat' first
    | with_reducible first
      | assumption | exact sub_trans hmsk rfl | apply hf | apply State.heard_same | apply State.stale_same
    | intro _
    | split
    | dsimp only

theorem execHeartbeat_same {msk : List Fld} {s0 : State} (src : _) (gid : _) (epoch : _) {s : State} (hs : SameBut msk s0 s)
    (hmsk : sub [.regs, .xngs, .groups, .coll, .cnts] msk = true) :
    OutSame msk s0 (execHeartbeat src gid epoch s) := by
  unfold execHeartbeat; try dsimp only
  repeat' first
    | with_reducible first
      | assumption | exact sub_trans hmsk rfl | apply OutSame.next | apply State.pktIn_same | apply groupPkt_same
    | intro _
    | split
    | dsimp only

theorem sever_same {msk : List Fld} {s0 : State} (g : _) {s : State} (hs : SameBut msk s0 s)
    (hmsk : sub [.regs, .slices, .dram, .chk, .net, .errs, .eps, .groups, .coll, .cores, .caches, .cnts, .wire] msk = true) :
    SameBut msk s0 (sever g s) := by
  unfold sever; try dsimp only
  repeat' first
    | with_reducible first
      | assumption | exact sub_trans hmsk rfl | apply State.endColls_same | apply State.postAll_same
      | apply State.setBit_same | apply State.setGrp_same
    | intro _
    | split
    | dsimp only

theorem execHeartbeatTimeout_same {msk : List Fld} {s0 : State} (g : _) (_next : _) {s : State} (hs : SameBut msk s0 s)
    (hmsk : sub [.regs, .slices, .dram, .chk, .net, .errs, .eps, .groups, .coll, .cores, .caches, .cnts, .wire] msk = true) :
    OutSame msk s0 (execHeartbeatTimeout g _next s) := by
  unfold execHeartbeatTimeout; try dsimp only
  repeat' first
    | with_reducible first
      | assumption | exact sub_trans hmsk rfl | apply OutSame.next | apply sever_same
    | intro _
    | split
    | dsimp only

theorem execSever_same {msk : List Fld} {s0 : State} (src : _) (gid : _) (epoch : _) {s : State} (hs : SameBut msk s0 s)
    (hmsk : sub [.regs, .slices, .dram, .chk, .net, .errs, .xngs, .eps, .groups, .coll, .cores, .caches, .cnts, .wire] msk = true) :
    OutSame msk s0 (execSever src gid epoch s) := by
  unfold execSever; try dsimp only
  repeat' first
    | with_reducible first
      | assumption | exact sub_trans hmsk rfl | apply OutSame.next | apply State.pktIn_same | apply groupPkt_same
      | apply sever_same
    | intro _
    | split
    | dsimp only

theorem lostIn_same {msk : List Fld} {s0 : State} (seq : _) (g : _) {s : State} (hs : SameBut msk s0 s)
    (hmsk : sub [.regs, .slices, .dram, .chk, .net, .errs, .eps, .cores, .caches, .cnts, .wire] msk = true) :
    SameBut msk s0 (lostIn seq g s) := by
  unfold lostIn; try dsimp only
  repeat' first
    | with_reducible first
      | assumption | exact sub_trans hmsk rfl | apply State.endColl_same
    | intro _
    | split
    | dsimp only

theorem execLost_same {msk : List Fld} {s0 : State} (src : _) (gid : _) (epoch : _) (seq : _) {s : State} (hs : SameBut msk s0 s)
    (hmsk : sub [.regs, .slices, .dram, .chk, .net, .errs, .xngs, .eps, .groups, .coll, .cores, .caches, .cnts, .wire] msk = true) :
    OutSame msk s0 (execLost src gid epoch seq s) := by
  unfold execLost; try dsimp only
  repeat' first
    | with_reducible first
      | assumption | exact sub_trans hmsk rfl | apply OutSame.next | apply State.pktIn_same | apply groupPkt_same
      | apply lostIn_same
    | intro _
    | split
    | dsimp only

theorem creditIn_same {msk : List Fld} {s0 : State} (src : _) (amount : _) {s : State} (hs : SameBut msk s0 s)
    (hmsk : sub [.coll] msk = true) :
    SameBut msk s0 (creditIn src amount s) := by
  unfold creditIn; try dsimp only
  repeat' first
    | with_reducible first
      | assumption | exact sub_trans hmsk rfl
    | intro _
    | split
    | with_reducible apply SameBut.lit_coll
    | dsimp only

theorem State.creditPktIn_same {msk : List Fld} {s0 : State} {s : State} (src : _) (hs : SameBut msk s0 s)
    (hmsk : sub [.xngs, .coll] msk = true) :
    SameBut msk s0 (State.creditPktIn s src) := by
  unfold State.creditPktIn; try dsimp only
  repeat' first
    | with_reducible first
      | assumption | exact sub_trans hmsk rfl | apply State.pktIn_same
    | intro _
    | split
    | dsimp only

theorem execE2eCredit_same {msk : List Fld} {s0 : State} (src : _) (amount : _) {s : State} (hs : SameBut msk s0 s)
    (hmsk : sub [.xngs, .coll] msk = true) :
    OutSame msk s0 (execE2eCredit src amount s) := by
  unfold execE2eCredit; try dsimp only
  repeat' first
    | with_reducible first
      | assumption | exact sub_trans hmsk rfl | apply OutSame.next | apply State.creditPktIn_same
      | apply creditIn_same
    | intro _
    | split
    | dsimp only

theorem applyData_same {msk : List Fld} {s0 : State} (e : _) (n : _) (C : _) (q : _) (off : _) (data : _) (bad : _) {s : State} (hs : SameBut msk s0 s)
    (hmsk : sub [.regs, .slices, .dram, .chk, .errs, .eps, .coll, .cores, .caches, .cnts, .wire] msk = true) :
    SameBut msk s0 (applyData e n C q off data bad s) := by
  unfold applyData; try dsimp only
  repeat' first
    | with_reducible first
      | assumption | exact sub_trans hmsk rfl | apply SameBut.foldl | apply SameBut.foldl1
      | apply SameBut.foldlDev | apply SameBut.foldlMv | apply SameBut.foldlDn | apply State.addSap_same
      | apply State.countColl_same | apply State.devWrite_same | apply State.setColl_same
    | intro _
    | split
    | dsimp only

theorem dataIn_same {msk : List Fld} {s0 : State} (src : _) (seq : _) (like : _) (off : _) (data : _) (bad : _) (g : _) {s : State} (hs : SameBut msk s0 s)
    (hmsk : sub [.regs, .slices, .dram, .chk, .net, .errs, .eps, .coll, .cores, .caches, .cnts, .wire] msk = true) :
    SameBut msk s0 (dataIn src seq like off data bad g s) := by
  unfold dataIn; try dsimp only
  repeat' first
    | with_reducible first
      | assumption | exact sub_trans hmsk rfl | apply State.endColl_same | apply State.sendLost_same
      | apply applyData_same
    | intro _
    | split
    | dsimp only

theorem execDataPacket_same {msk : List Fld} {s0 : State} (src : _) (gid : _) (epoch : _) (seq : _) (like : _) (off : _) (data : _) (poison : _) {s : State} (hs : SameBut msk s0 s)
    (hmsk : sub [.regs, .slices, .dram, .chk, .net, .errs, .xngs, .eps, .groups, .coll, .cores, .caches, .cnts, .wire] msk = true) :
    OutSame msk s0 (execDataPacket src gid epoch seq like off data poison s) := by
  unfold execDataPacket; try dsimp only
  repeat' first
    | with_reducible first
      | assumption | exact sub_trans hmsk rfl | apply OutSame.next | apply State.pktIn_same | apply dataIn_same
      | apply groupPkt_same
    | intro _
    | split
    | dsimp only

end Sys2Proof.Machine
end

