-- ==== Sys2Proof/Laws/FramePackage.lean ====
section
/-!
SUPPORT. Laws/FramePackage.lean: what each operation leaves unchanged: one lemma per operation of boot, security, debug, governing, the tollhouse and the register map.
-/
set_option linter.unusedTactic false
set_option linter.unreachableTactic false
set_option linter.unusedVariables false
set_option linter.unusedSimpArgs false

namespace Sys2Proof.Machine

variable {msk : List Fld} {s0 : State}

/-! ### Store -/

theorem State.storePut_same {msk : List Fld} {s0 : State} {s : State} (a : _) (bytes : _) (hs : SameBut msk s0 s)
    (hmsk : sub [.store] msk = true) :
    SameBut msk s0 (State.storePut s a bytes) := by
  unfold State.storePut; try dsimp only
  repeat' first
    | with_reducible first
      | assumption | exact sub_trans hmsk rfl
    | intro _
    | split
    | with_reducible apply SameBut.lit_store
    | dsimp only

theorem State.storeErase_same {msk : List Fld} {s0 : State} {s : State} (a : _) (b : _) (hs : SameBut msk s0 s)
    (hmsk : sub [.store] msk = true) :
    SameBut msk s0 (State.storeErase s a b) := by
  unfold State.storeErase; try dsimp only
  repeat' first
    | with_reducible first
      | assumption | exact sub_trans hmsk rfl
    | intro _
    | split
    | with_reducible apply SameBut.lit_store
    | dsimp only

theorem State.bootLog_same {msk : List Fld} {s0 : State} {s : State} (stage : _) (reason : _) (hs : SameBut msk s0 s)
    (hmsk : sub [.freeCtr, .boot, .store] msk = true) :
    SameBut msk s0 (State.bootLog s stage reason) := by
  unfold State.bootLog; try dsimp only
  repeat' first
    | with_reducible first
      | assumption | exact sub_trans hmsk rfl | apply State.freeBytes_same | apply State.storePut_same
    | intro _
    | split
    | with_reducible apply SameBut.lit_boot
    | dsimp only

theorem State.attemptPut_same {msk : List Fld} {s0 : State} {s : State} (i : _) (kind : _) (hs : SameBut msk s0 s)
    (hmsk : sub [.store] msk = true) :
    SameBut msk s0 (State.attemptPut s i kind) := by
  unfold State.attemptPut; try dsimp only
  repeat' first
    | with_reducible first
      | assumption | exact sub_trans hmsk rfl | apply State.storePut_same
    | intro _
    | split
    | dsimp only

theorem State.attemptWrite_same {msk : List Fld} {s0 : State} {s : State} (kind : _) (hs : SameBut msk s0 s)
    (hmsk : sub [.store] msk = true) :
    SameBut msk s0 (State.attemptWrite s kind) := by
  unfold State.attemptWrite; try dsimp only
  repeat' first
    | with_reducible first
      | assumption | exact sub_trans hmsk rfl | apply SameBut.foldl | apply SameBut.foldl1
      | apply SameBut.foldlDev | apply SameBut.foldlMv | apply SameBut.foldlDn | apply State.attemptPut_same
      | apply State.storeErase_same
    | intro _
    | split
    | dsimp only

theorem State.showAttempts_same {msk : List Fld} {s0 : State} {s : State} (hs : SameBut msk s0 s)
    (hmsk : sub [.regs] msk = true) :
    SameBut msk s0 (State.showAttempts s) := by
  unfold State.showAttempts; try dsimp only
  repeat' first
    | with_reducible first
      | assumption | exact sub_trans hmsk rfl | apply State.setFld_same
    | intro _
    | split
    | dsimp only

theorem storeCmd_same {msk : List Fld} {s0 : State} (c : _) {s : State} (hs : SameBut msk s0 s)
    (hmsk : sub [.regs, .boot] msk = true) :
    SameBut msk s0 (storeCmd c s) := by
  unfold storeCmd; try dsimp only
  repeat' first
    | with_reducible first
      | assumption | exact sub_trans hmsk rfl | apply State.setBit_same | apply State.setFld_same
    | intro _
    | split
    | with_reducible apply SameBut.lit_boot
    | dsimp only

theorem execSstoreRead_same {msk : List Fld} {s0 : State} (r : _) {s : State} (hs : SameBut msk s0 s)
    (hmsk : sub [.regs, .cores, .boot, .dbg, .cnts] msk = true) :
    OutSame msk s0 (execSstoreRead r s) := by
  unfold execSstoreRead; try dsimp only
  repeat' first
    | with_reducible first
      | assumption | exact sub_trans hmsk rfl | apply OutSame.next | apply State.access_same | apply storeCmd_same
    | intro _
    | split
    | dsimp only

theorem execSstoreProgram_same {msk : List Fld} {s0 : State} (r : _) {s : State} (hs : SameBut msk s0 s)
    (hmsk : sub [.regs, .cores, .boot, .dbg, .cnts] msk = true) :
    OutSame msk s0 (execSstoreProgram r s) := by
  unfold execSstoreProgram; try dsimp only
  repeat' first
    | with_reducible first
      | assumption | exact sub_trans hmsk rfl | apply OutSame.next | apply State.access_same | apply storeCmd_same
    | intro _
    | split
    | dsimp only

theorem execSstoreErase_same {msk : List Fld} {s0 : State} (r : _) {s : State} (hs : SameBut msk s0 s)
    (hmsk : sub [.regs, .cores, .boot, .dbg, .cnts] msk = true) :
    OutSame msk s0 (execSstoreErase r s) := by
  unfold execSstoreErase; try dsimp only
  repeat' first
    | with_reducible first
      | assumption | exact sub_trans hmsk rfl | apply OutSame.next | apply State.access_same | apply storeCmd_same
    | intro _
    | split
    | dsimp only

theorem storeEffect_same {msk : List Fld} {s0 : State} (c : _) (a : _) {s : State} (hs : SameBut msk s0 s)
    (hmsk : sub [.regs, .store] msk = true) :
    SameBut msk s0 (storeEffect c a s).1 := by
  unfold storeEffect; try dsimp only
  repeat' first
    | with_reducible first
      | assumption | exact sub_trans hmsk rfl | apply SameBut.foldl | apply SameBut.foldl1
      | apply SameBut.foldlDev | apply SameBut.foldlMv | apply SameBut.foldlDn | apply State.setReg_same
      | apply State.storeErase_same | apply State.storePut_same
    | intro _
    | split
    | dsimp only

theorem execSstoreDone_same {msk : List Fld} {s0 : State} (ok : _) {s : State} (hs : SameBut msk s0 s)
    (hmsk : sub [.regs, .boot, .store] msk = true) :
    OutSame msk s0 (execSstoreDone ok s) := by
  unfold execSstoreDone; try dsimp only
  repeat' first
    | with_reducible first
      | assumption | exact sub_trans hmsk rfl | apply OutSame.next | apply State.setFld_same
      | apply storeEffect_same
    | intro _
    | split
    | with_reducible apply SameBut.lit_boot
    | dsimp only

theorem execClrAttempts_same {msk : List Fld} {s0 : State} (r : _) {s : State} (hs : SameBut msk s0 s)
    (hmsk : sub [.regs, .cores, .store, .dbg, .cnts] msk = true) :
    OutSame msk s0 (execClrAttempts r s) := by
  unfold execClrAttempts; try dsimp only
  repeat' first
    | with_reducible first
      | assumption | exact sub_trans hmsk rfl | apply OutSame.next | apply State.access_same
      | apply State.attemptWrite_same | apply State.showAttempts_same
    | intro _
    | split
    | dsimp only

theorem writeNextSlot_same {msk : List Fld} {s0 : State} (v : _) {s : State} (hs : SameBut msk s0 s)
    (hmsk : sub [.boot] msk = true) :
    SameBut msk s0 (writeNextSlot v s) := by
  unfold writeNextSlot; try dsimp only
  repeat' first
    | with_reducible first
      | assumption | exact sub_trans hmsk rfl
    | intro _
    | split
    | with_reducible apply SameBut.lit_boot
    | dsimp only

theorem execNextSlot_same {msk : List Fld} {s0 : State} (r : _) (v : _) {s : State} (hs : SameBut msk s0 s)
    (hmsk : sub [.regs, .cores, .boot, .dbg, .cnts] msk = true) :
    OutSame msk s0 (execNextSlot r v s) := by
  unfold execNextSlot; try dsimp only
  repeat' first
    | with_reducible first
      | assumption | exact sub_trans hmsk rfl | apply OutSame.next | apply State.access_same
      | apply writeNextSlot_same
    | intro _
    | split
    | dsimp only

/-! ### Ferry -/

theorem State.readFerry_same {msk : List Fld} {s0 : State} {s : State} (i : _) (x : _) (hs : SameBut msk s0 s)
    (hmsk : sub [.regs] msk = true) :
    SameBut msk s0 (State.readFerry s i x) := by
  unfold State.readFerry; try dsimp only
  repeat' first
    | with_reducible first
      | assumption | exact sub_trans hmsk rfl | apply SameBut.foldl | apply SameBut.foldl1
      | apply SameBut.foldlDev | apply SameBut.foldlMv | apply SameBut.foldlDn | apply State.setReg_same
    | intro _
    | split
    | dsimp only

theorem State.setFerry_same {msk : List Fld} {s0 : State} {s : State} (i : _) (state : _) (reason : _) (modules : _) (ucie2 : _) (hs : SameBut msk s0 s)
    (hmsk : sub [.regs] msk = true) :
    SameBut msk s0 (State.setFerry s i state reason modules ucie2) := by
  unfold State.setFerry; try dsimp only
  repeat' first
    | with_reducible first
      | assumption | exact sub_trans hmsk rfl | apply State.setReg_same
    | intro _
    | split
    | dsimp only

theorem State.setFerryMeas_same {msk : List Fld} {s0 : State} {s : State} (i : _) (m : _) (hs : SameBut msk s0 s)
    (hmsk : sub [.sec] msk = true) :
    SameBut msk s0 (State.setFerryMeas s i m) := by
  unfold State.setFerryMeas; try dsimp only
  repeat' first
    | with_reducible first
      | assumption | exact sub_trans hmsk rfl
    | intro _
    | split
    | with_reducible apply SameBut.lit_sec
    | dsimp only

theorem State.markLane_same {msk : List Fld} {s0 : State} {s : State} (n : _) (hs : SameBut msk s0 s)
    (hmsk : sub [.xngs] msk = true) :
    SameBut msk s0 (State.markLane s n) := by
  unfold State.markLane; try dsimp only
  repeat' first
    | with_reducible first
      | assumption | exact sub_trans hmsk rfl | apply State.updXng_same
    | intro _
    | split
    | dsimp only

theorem State.admitFerry_same {msk : List Fld} {s0 : State} {s : State} (i : _) (x : _) (hs : SameBut msk s0 s)
    (hmsk : sub [.regs, .xngs, .sec] msk = true) :
    SameBut msk s0 (State.admitFerry s i x) := by
  unfold State.admitFerry; try dsimp only
  repeat' first
    | with_reducible first
      | assumption | exact sub_trans hmsk rfl | apply SameBut.foldl | apply SameBut.foldl1
      | apply SameBut.foldlDev | apply SameBut.foldlMv | apply SameBut.foldlDn | apply State.markLane_same
      | apply State.readFerry_same | apply State.setFerry_same | apply State.setFerryMeas_same
      | apply State.xngDetect_same
    | intro _
    | split
    | dsimp only

theorem State.rejectFerry_same {msk : List Fld} {s0 : State} {s : State} (i : _) (x : _) (reason : _) (hs : SameBut msk s0 s)
    (hmsk : sub [.freeCtr, .regs, .xngs, .sec, .boot, .store, .wire] msk = true) :
    SameBut msk s0 (State.rejectFerry s i x reason) := by
  unfold State.rejectFerry; try dsimp only
  repeat' first
    | with_reducible first
      | assumption | exact sub_trans hmsk rfl | apply SameBut.foldl | apply SameBut.foldl1
      | apply SameBut.foldlDev | apply SameBut.foldlMv | apply SameBut.foldlDn | apply State.bootLog_same
      | apply State.readFerry_same | apply State.send_same | apply State.setFerry_same
      | apply State.setFerryMeas_same | apply State.xngDark_same
    | intro _
    | split
    | dsimp only

theorem execFerryAdmission_same {msk : List Fld} {s0 : State} (i : _) (x : _) {s : State} (hs : SameBut msk s0 s)
    (hmsk : sub [.freeCtr, .regs, .xngs, .sec, .boot, .store, .wire] msk = true) :
    OutSame msk s0 (execFerryAdmission i x s) := by
  unfold execFerryAdmission; try dsimp only
  repeat' first
    | with_reducible first
      | assumption | exact sub_trans hmsk rfl | apply OutSame.next | apply State.admitFerry_same
      | apply State.rejectFerry_same
    | intro _
    | split
    | dsimp only

theorem State.ferryXngLost_same {msk : List Fld} {s0 : State} {s : State} (n : _) (hs : SameBut msk s0 s)
    (hmsk : sub [.regs, .slices, .dram, .chk, .net, .errs, .xngs, .eps, .coll, .cores, .caches, .cnts, .wire] msk = true) :
    SameBut msk s0 (State.ferryXngLost s n) := by
  unfold State.ferryXngLost; try dsimp only
  repeat' first
    | with_reducible first
      | assumption | exact sub_trans hmsk rfl | apply State.xngDown_same
    | intro _
    | split
    | dsimp only

theorem State.loseFerry_same {msk : List Fld} {s0 : State} {s : State} (i : _) (hs : SameBut msk s0 s)
    (hmsk : sub [.freeCtr, .regs, .caps, .plots, .chans, .slices, .norias, .dram, .chk, .net, .rr, .links, .reqTabs, .stks, .sensors, .coolant, .parts, .rings, .funcs, .lndErr, .cfg, .errs, .xngs, .eps, .groups, .coll, .cores, .caches, .media, .sec, .boot, .faults, .dbg, .cnts, .toll, .wire] msk = true) :
    SameBut msk s0 (State.loseFerry s i) := by
  unfold State.loseFerry; try dsimp only
  repeat' first
    | with_reducible first
      | assumption | exact sub_trans hmsk rfl | apply SameBut.foldl | apply SameBut.foldl1
      | apply SameBut.foldlDev | apply SameBut.foldlMv | apply SameBut.foldlDn | apply State.ferryXngLost_same
      | apply State.setFerry_same | apply State.setFerryMeas_same | apply hotResetNow_same
    | intro _
    | split
    | dsimp only

theorem execFerryLost_same {msk : List Fld} {s0 : State} (i : _) (hot : _) {s : State} (hs : SameBut msk s0 s)
    (hmsk : sub [.freeCtr, .regs, .caps, .plots, .chans, .slices, .norias, .dram, .chk, .net, .rr, .links, .reqTabs, .stks, .sensors, .coolant, .parts, .rings, .funcs, .lndErr, .cfg, .errs, .xngs, .eps, .groups, .coll, .cores, .caches, .media, .sec, .boot, .faults, .dbg, .cnts, .toll, .wire] msk = true) :
    OutSame msk s0 (execFerryLost i hot s) := by
  unfold execFerryLost; try dsimp only
  repeat' first
    | with_reducible first
      | assumption | exact sub_trans hmsk rfl | apply OutSame.next | apply State.alert_same
      | apply State.loseFerry_same
    | intro _
    | split
    | dsimp only

theorem readmit_same {msk : List Fld} {s0 : State} (i : _) {s : State} (hs : SameBut msk s0 s)
    (hmsk : sub [.regs, .slices, .dram, .chk, .net, .errs, .xngs, .eps, .coll, .cores, .caches, .sec, .cnts, .wire] msk = true) :
    SameBut msk s0 (readmit i s) := by
  unfold readmit; try dsimp only
  repeat' first
    | with_reducible first
      | assumption | exact sub_trans hmsk rfl | apply SameBut.foldl | apply SameBut.foldl1
      | apply SameBut.foldlDev | apply SameBut.foldlMv | apply SameBut.foldlDn | apply State.ferryXngLost_same
      | apply State.setFerry_same | apply State.setFerryMeas_same
    | intro _
    | split
    | dsimp only

theorem execFerryReadmit_same {msk : List Fld} {s0 : State} (r : _) (i : _) {s : State} (hs : SameBut msk s0 s)
    (hmsk : sub [.regs, .slices, .dram, .chk, .net, .errs, .xngs, .eps, .coll, .cores, .caches, .sec, .dbg, .cnts, .wire] msk = true) :
    OutSame msk s0 (execFerryReadmit r i s) := by
  unfold execFerryReadmit; try dsimp only
  repeat' first
    | with_reducible first
      | assumption | exact sub_trans hmsk rfl | apply OutSame.next | apply State.access_same | apply readmit_same
    | intro _
    | split
    | dsimp only

/-! ### Flood -/

theorem State.updReceiver_same {msk : List Fld} {s0 : State} {s : State} (r : _) (f : _) (hs : SameBut msk s0 s)
    (hmsk : sub [.boot] msk = true) :
    SameBut msk s0 (State.updReceiver s r f) := by
  unfold State.updReceiver; try dsimp only
  repeat' first
    | with_reducible first
      | assumption | exact sub_trans hmsk rfl
    | intro _
    | split
    | with_reducible apply SameBut.lit_boot
    | dsimp only

theorem State.startFlood_same {msk : List Fld} {s0 : State} {s : State} (hs : SameBut msk s0 s)
    (hmsk : sub [.regs, .boot] msk = true) :
    SameBut msk s0 (State.startFlood s) := by
  unfold State.startFlood; try dsimp only
  repeat' first
    | with_reducible first
      | assumption | exact sub_trans hmsk rfl | apply State.setReg_same
    | intro _
    | split
    | with_reducible apply SameBut.lit_boot
    | dsimp only

theorem State.installBlock_same {msk : List Fld} {s0 : State} {s : State} (r : _) (num : _) (data : _) (hs : SameBut msk s0 s)
    (hmsk : sub [.plots, .slices, .stks] msk = true) :
    SameBut msk s0 (State.installBlock s r num data) := by
  unfold State.installBlock; try dsimp only
  repeat' first
    | with_reducible first
      | assumption | exact sub_trans hmsk rfl | apply State.updPlot_same | apply State.updSlc_same
      | apply State.updStk_same
    | intro _
    | split
    | dsimp only

theorem execFloodBlock_same {msk : List Fld} {s0 : State} (r : _) (num : _) (data : _) {s : State} (hs : SameBut msk s0 s)
    (hmsk : sub [.plots, .slices, .stks, .boot] msk = true) :
    OutSame msk s0 (execFloodBlock r num data s) := by
  unfold execFloodBlock; try dsimp only
  repeat' first
    | with_reducible first
      | assumption | exact sub_trans hmsk rfl | apply OutSame.next | apply State.installBlock_same
      | apply State.updReceiver_same
    | intro _
    | split
    | dsimp only

theorem State.startRound_same {msk : List Fld} {s0 : State} {s : State} (hs : SameBut msk s0 s)
    (hmsk : sub [.regs, .boot] msk = true) :
    SameBut msk s0 (State.startRound s) := by
  unfold State.startRound; try dsimp only
  repeat' first
    | with_reducible first
      | assumption | exact sub_trans hmsk rfl | apply SameBut.foldl | apply SameBut.foldl1
      | apply SameBut.foldlDev | apply SameBut.foldlMv | apply SameBut.foldlDn | apply State.addFld_same
      | apply State.updReceiver_same
    | intro _
    | split
    | with_reducible apply SameBut.lit_boot
    | dsimp only

theorem execFloodRepairRequest_same {msk : List Fld} {s0 : State} {s : State} (hs : SameBut msk s0 s)
    (hmsk : sub [.regs, .boot] msk = true) :
    OutSame msk s0 (execFloodRepairRequest s) := by
  unfold execFloodRepairRequest; try dsimp only
  repeat' first
    | with_reducible first
      | assumption | exact sub_trans hmsk rfl | apply OutSame.next | apply State.startRound_same
    | intro _
    | split
    | dsimp only

theorem State.holdReceiver_same {msk : List Fld} {s0 : State} {s : State} (r : _) (hs : SameBut msk s0 s)
    (hmsk : sub [.freeCtr, .regs, .plots, .chans, .slices, .norias, .net, .reqTabs, .stks, .parts, .rings, .errs, .cores, .boot, .faults, .dbg, .cnts, .wire] msk = true) :
    SameBut msk s0 (State.holdReceiver s r) := by
  unfold State.holdReceiver; try dsimp only
  repeat' first
    | with_reducible first
      | assumption | exact sub_trans hmsk rfl | apply State.failPlot_same | apply State.setBit_same
      | apply State.setReg_same | apply State.updReceiver_same | apply State.updSlc_same
    | intro _
    | split
    | dsimp only

theorem State.endRound_same {msk : List Fld} {s0 : State} {s : State} (hs : SameBut msk s0 s)
    (hmsk : sub [.freeCtr, .regs, .plots, .chans, .slices, .norias, .net, .reqTabs, .stks, .parts, .rings, .errs, .cores, .boot, .faults, .dbg, .cnts, .wire] msk = true) :
    SameBut msk s0 (State.endRound s) := by
  unfold State.endRound; try dsimp only
  repeat' first
    | with_reducible first
      | assumption | exact sub_trans hmsk rfl | apply SameBut.foldl | apply SameBut.foldl1
      | apply SameBut.foldlDev | apply SameBut.foldlMv | apply SameBut.foldlDn | apply State.holdReceiver_same
      | apply State.startRound_same
    | intro _
    | split
    | with_reducible apply SameBut.lit_boot
    | dsimp only

theorem execFloodRoundEnd_same {msk : List Fld} {s0 : State} {s : State} (hs : SameBut msk s0 s)
    (hmsk : sub [.freeCtr, .regs, .plots, .chans, .slices, .norias, .net, .reqTabs, .stks, .parts, .rings, .errs, .cores, .boot, .faults, .dbg, .cnts, .wire] msk = true) :
    OutSame msk s0 (execFloodRoundEnd s) := by
  unfold execFloodRoundEnd; try dsimp only
  repeat' first
    | with_reducible first
      | assumption | exact sub_trans hmsk rfl | apply OutSame.next | apply State.endRound_same
    | intro _
    | split
    | dsimp only

/-! ### Ecc -/

theorem scrubWord_same {msk : List Fld} {s0 : State} {s : State} (k : _) (w : _) (hs : SameBut msk s0 s)
    (hmsk : sub [.regs, .slices, .dram, .chk, .errs, .cores, .cnts, .wire] msk = true) :
    SameBut msk s0 (scrubWord s k w) := by
  unfold scrubWord; try dsimp only
  repeat' first
    | with_reducible first
      | assumption | exact sub_trans hmsk rfl | apply State.putWord_same | apply State.updSlc_same
      | apply readWord_same
    | intro _
    | split
    | dsimp only

theorem scrubBurst_same {msk : List Fld} {s0 : State} (k : _) (b : _) {s : State} (hs : SameBut msk s0 s)
    (hmsk : sub [.regs, .slices, .dram, .chk, .errs, .cores, .cnts, .wire] msk = true) :
    SameBut msk s0 (scrubBurst k b s) := by
  unfold scrubBurst; try dsimp only
  repeat' first
    | with_reducible first
      | assumption | exact sub_trans hmsk rfl | apply SameBut.foldl | apply SameBut.foldl1
      | apply SameBut.foldlDev | apply SameBut.foldlMv | apply SameBut.foldlDn | apply State.count_same
      | apply State.updSlc_same | apply scrubWord_same
    | intro _
    | split
    | dsimp only

theorem execDemandScrub_same {msk : List Fld} {s0 : State} (p : _) {s : State} (hs : SameBut msk s0 s)
    (hmsk : sub [.regs, .slices, .dram, .chk, .errs, .cores, .cnts, .wire] msk = true) :
    OutSame msk s0 (execDemandScrub p s) := by
  unfold execDemandScrub; try dsimp only
  repeat' first
    | with_reducible first
      | assumption | exact sub_trans hmsk rfl | apply OutSame.next | apply scrubBurst_same
    | intro _
    | split
    | dsimp only

theorem patrolStep_same {msk : List Fld} {s0 : State} (k : _) {s : State} (hs : SameBut msk s0 s)
    (hmsk : sub [.regs, .slices, .dram, .chk, .errs, .cores, .cnts, .wire] msk = true) :
    SameBut msk s0 (patrolStep k s) := by
  unfold patrolStep; try dsimp only
  repeat' first
    | with_reducible first
      | assumption | exact sub_trans hmsk rfl | apply State.setFld_same | apply State.updSlc_same
      | apply scrubBurst_same
    | intro _
    | split
    | dsimp only

theorem execPatrolScrub_same {msk : List Fld} {s0 : State} (p : _) {s : State} (hs : SameBut msk s0 s)
    (hmsk : sub [.regs, .slices, .dram, .chk, .errs, .cores, .cnts, .wire] msk = true) :
    OutSame msk s0 (execPatrolScrub p s) := by
  unfold execPatrolScrub; try dsimp only
  repeat' first
    | with_reducible first
      | assumption | exact sub_trans hmsk rfl | apply OutSame.next | apply patrolStep_same
    | intro _
    | split
    | dsimp only

theorem closeWindows_same {msk : List Fld} {s0 : State} (st : _) {s : State} (hs : SameBut msk s0 s)
    (hmsk : sub [.regs] msk = true) :
    SameBut msk s0 (closeWindows st s) := by
  unfold closeWindows; try dsimp only
  repeat' first
    | with_reducible first
      | assumption | exact sub_trans hmsk rfl | apply SameBut.foldl | apply SameBut.foldl1
      | apply SameBut.foldlDev | apply SameBut.foldlMv | apply SameBut.foldlDn | apply State.clrBit_same
    | intro _
    | split
    | dsimp only

theorem execEccWindowTick_same {msk : List Fld} {s0 : State} (st : _) {s : State} (hs : SameBut msk s0 s)
    (hmsk : sub [.regs] msk = true) :
    OutSame msk s0 (execEccWindowTick st s) := by
  unfold execEccWindowTick; try dsimp only
  repeat' first
    | with_reducible first
      | assumption | exact sub_trans hmsk rfl | apply OutSame.next | apply closeWindows_same
    | intro _
    | split
    | dsimp only

theorem popRpt_same {msk : List Fld} {s0 : State} (f : _) {s : State} (hs : SameBut msk s0 s)
    (hmsk : sub [.reply, .errs] msk = true) :
    SameBut msk s0 (popRpt f s) := by
  unfold popRpt; try dsimp only
  repeat' first
    | with_reducible first
      | assumption | exact sub_trans hmsk rfl | apply State.answer_same | apply State.setErrf_same
      | apply State.updErrf_same
    | intro _
    | split
    | dsimp only

theorem execErrRptPop_same {msk : List Fld} {s0 : State} (r : _) (f : _) {s : State} (hs : SameBut msk s0 s)
    (hmsk : sub [.freeCtr, .reply, .regs, .errs, .cores, .dbg, .cnts] msk = true) :
    OutSame msk s0 (execErrRptPop r f s) := by
  unfold execErrRptPop; try dsimp only
  repeat' first
    | with_reducible first
      | assumption | exact sub_trans hmsk rfl | apply OutSame.next | apply State.readAccess_same
      | apply popRpt_same
    | intro _
    | split
    | dsimp only

theorem startPpr_same {msk : List Fld} {s0 : State} (k : _) (v : _) {s : State} (hs : SameBut msk s0 s)
    (hmsk : sub [.regs, .slices] msk = true) :
    SameBut msk s0 (startPpr k v s) := by
  unfold startPpr; try dsimp only
  repeat' first
    | with_reducible first
      | assumption | exact sub_trans hmsk rfl | apply State.setFld_same | apply State.updSlc_same
    | intro _
    | split
    | dsimp only

theorem execPprGo_same {msk : List Fld} {s0 : State} (r : _) (p : _) (v : _) {s : State} (hs : SameBut msk s0 s)
    (hmsk : sub [.regs, .slices, .cores, .dbg, .cnts] msk = true) :
    OutSame msk s0 (execPprGo r p v s) := by
  unfold execPprGo; try dsimp only
  repeat' first
    | with_reducible first
      | assumption | exact sub_trans hmsk rfl | apply OutSame.next | apply State.access_same
      | apply State.setFld_same | apply startPpr_same
    | intro _
    | split
    | dsimp only

theorem finishPpr_same {msk : List Fld} {s0 : State} (k : _) {s : State} (hs : SameBut msk s0 s)
    (hmsk : sub [.regs, .slices, .dram, .chk, .errs, .cores, .caches, .cnts, .wire] msk = true) :
    SameBut msk s0 (finishPpr k s) := by
  unfold finishPpr; try dsimp only
  repeat' first
    | with_reducible first
      | assumption | exact sub_trans hmsk rfl | apply SameBut.foldl | apply SameBut.foldl1
      | apply SameBut.foldlDev | apply SameBut.foldlMv | apply SameBut.foldlDn | apply State.serveWaiting_same
      | apply State.setFld_same | apply State.storeWord_same | apply State.updSlc_same | apply readWord_same
    | intro _
    | split
    | dsimp only

theorem execPprDone_same {msk : List Fld} {s0 : State} (p : _) {s : State} (hs : SameBut msk s0 s)
    (hmsk : sub [.regs, .slices, .dram, .chk, .errs, .cores, .caches, .cnts, .wire] msk = true) :
    OutSame msk s0 (execPprDone p s) := by
  unfold execPprDone; try dsimp only
  repeat' first
    | with_reducible first
      | assumption | exact sub_trans hmsk rfl | apply OutSame.next | apply finishPpr_same
    | intro _
    | split
    | dsimp only

/-! ### Boot -/

theorem State.bootTest_same {msk : List Fld} {s0 : State} {s : State} (test : _) (kind : _) (st : _) (idx : _) (hs : SameBut msk s0 s)
    (hmsk : sub [.regs, .plots, .norias, .sensors, .faults] msk = true) :
    SameBut msk s0 (State.bootTest s test kind st idx) := by
  unfold State.bootTest; try dsimp only
  repeat' first
    | with_reducible first
      | assumption | exact sub_trans hmsk rfl | apply State.startTest_same
    | intro _
    | split
    | with_reducible apply SameBut.lit_faults
    | dsimp only

theorem State.bootTests_same {msk : List Fld} {s0 : State} {s : State} (st : _) (hs : SameBut msk s0 s)
    (hmsk : sub [.regs, .plots, .norias, .sensors, .faults] msk = true) :
    SameBut msk s0 (State.bootTests s st) := by
  unfold State.bootTests; try dsimp only
  repeat' first
    | with_reducible first
      | assumption | exact sub_trans hmsk rfl | apply SameBut.foldl | apply SameBut.foldl1
      | apply SameBut.foldlDev | apply SameBut.foldlMv | apply SameBut.foldlDn | apply State.bootTest_same
    | intro _
    | split
    | dsimp only

theorem State.assignRecord_same {msk : List Fld} {s0 : State} {s : State} (n : _) (w : _) (hs : SameBut msk s0 s)
    (hmsk : sub [.freeCtr, .regs, .caps, .plots, .chans, .slices, .norias, .dram, .chk, .net, .links, .reqTabs, .stks, .sensors, .parts, .cores, .caches, .boot, .store, .faults, .dbg, .cnts, .wire] msk = true) :
    SameBut msk s0 (State.assignRecord s n w) := by
  unfold State.assignRecord; try dsimp only
  repeat' first
    | with_reducible first
      | assumption | exact sub_trans hmsk rfl | apply State.assignPart_same | apply State.bootLog_same
      | apply State.setFld_same | apply State.setPState_same | apply State.updPart_same
    | intro _
    | split
    | dsimp only

theorem State.assignRecords_same {msk : List Fld} {s0 : State} {s : State} (hs : SameBut msk s0 s)
    (hmsk : sub [.freeCtr, .regs, .caps, .plots, .chans, .slices, .norias, .dram, .chk, .net, .links, .reqTabs, .stks, .sensors, .parts, .cores, .caches, .boot, .store, .faults, .dbg, .cnts, .wire] msk = true) :
    SameBut msk s0 (State.assignRecords s) := by
  unfold State.assignRecords; try dsimp only
  repeat' first
    | with_reducible first
      | assumption | exact sub_trans hmsk rfl | apply SameBut.foldl | apply SameBut.foldl1
      | apply SameBut.foldlDev | apply SameBut.foldlMv | apply SameBut.foldlDn | apply State.assignRecord_same
      | apply State.clearStack_same | apply State.requestVdd_same
    | intro _
    | split
    | dsimp only

theorem State.stageHook_same {msk : List Fld} {s0 : State} {s : State} (k : _) (hs : SameBut msk s0 s)
    (hmsk : sub [.freeCtr, .regs, .caps, .plots, .chans, .slices, .norias, .dram, .chk, .net, .links, .reqTabs, .stks, .sensors, .parts, .cores, .caches, .boot, .store, .faults, .dbg, .cnts, .wire] msk = true) :
    SameBut msk s0 (State.stageHook s k) := by
  unfold State.stageHook; try dsimp only
  repeat' first
    | with_reducible first
      | assumption | exact sub_trans hmsk rfl | apply SameBut.foldl | apply SameBut.foldl1
      | apply SameBut.foldlDev | apply SameBut.foldlMv | apply SameBut.foldlDn | apply State.assignRecords_same
      | apply State.bootTests_same | apply State.startFlood_same
    | intro _
    | split
    | with_reducible apply SameBut.lit_boot
    | dsimp only

theorem State.startStage_same {msk : List Fld} {s0 : State} {s : State} (k : _) (hs : SameBut msk s0 s)
    (hmsk : sub [.freeCtr, .regs, .caps, .plots, .chans, .slices, .norias, .dram, .chk, .net, .links, .reqTabs, .stks, .sensors, .parts, .cores, .caches, .boot, .store, .faults, .dbg, .cnts, .wire] msk = true) :
    SameBut msk s0 (State.startStage s k) := by
  unfold State.startStage; try dsimp only
  repeat' first
    | with_reducible first
      | assumption | exact sub_trans hmsk rfl | apply State.send_same | apply State.setFld_same
      | apply State.stageHook_same
    | intro _
    | split
    | with_reducible apply SameBut.lit_boot
    | dsimp only

theorem State.startStages_same {msk : List Fld} {s0 : State} {s : State} (hs : SameBut msk s0 s)
    (hmsk : sub [.freeCtr, .regs, .caps, .plots, .chans, .slices, .norias, .dram, .chk, .net, .links, .reqTabs, .stks, .sensors, .parts, .cores, .caches, .boot, .store, .faults, .dbg, .cnts, .wire] msk = true) :
    SameBut msk s0 (State.startStages s) := by
  unfold State.startStages; try dsimp only
  repeat' first
    | with_reducible first
      | assumption | exact sub_trans hmsk rfl | apply SameBut.foldl | apply SameBut.foldl1
      | apply SameBut.foldlDev | apply SameBut.foldlMv | apply SameBut.foldlDn | apply State.startStage_same
    | intro _
    | split
    | dsimp only

theorem State.deriveKeys_same {msk : List Fld} {s0 : State} {s : State} (imgHash : _) (svn : _) (hs : SameBut msk s0 s)
    (hmsk : sub [.sec] msk = true) :
    SameBut msk s0 (State.deriveKeys s imgHash svn) := by
  unfold State.deriveKeys; try dsimp only
  repeat' first
    | with_reducible first
      | assumption | exact sub_trans hmsk rfl
    | intro _
    | split
    | with_reducible apply SameBut.lit_sec
    | dsimp only

theorem State.fixMeas_same {msk : List Fld} {s0 : State} {s : State} (hs : SameBut msk s0 s)
    (hmsk : sub [.sec] msk = true) :
    SameBut msk s0 (State.fixMeas s) := by
  unfold State.fixMeas; try dsimp only
  repeat' first
    | with_reducible first
      | assumption | exact sub_trans hmsk rfl
    | intro _
    | split
    | with_reducible apply SameBut.lit_sec
    | dsimp only

theorem State.lowWater_same {msk : List Fld} {s0 : State} {s : State} (stage : _) (reason : _) (hs : SameBut msk s0 s)
    (hmsk : sub [.freeCtr, .regs, .sec, .boot, .store, .wire] msk = true) :
    SameBut msk s0 (State.lowWater s stage reason) := by
  unfold State.lowWater; try dsimp only
  repeat' first
    | with_reducible first
      | assumption | exact sub_trans hmsk rfl | apply State.bootLog_same | apply State.deriveKeys_same
      | apply State.fixMeas_same | apply State.send_same | apply State.setFld_same
    | intro _
    | split
    | with_reducible apply SameBut.lit_boot
    | dsimp only

theorem State.restart_same {msk : List Fld} {s0 : State} {s : State} (stage : _) (reason : _) (hs : SameBut msk s0 s)
    (hmsk : sub [.freeCtr, .regs, .caps, .plots, .chans, .slices, .norias, .dram, .chk, .net, .rr, .links, .reqTabs, .stks, .sensors, .coolant, .parts, .rings, .funcs, .lndErr, .cfg, .errs, .xngs, .eps, .groups, .coll, .cores, .caches, .media, .sec, .boot, .store, .faults, .dbg, .cnts, .toll, .wire] msk = true) :
    SameBut msk s0 (State.restart s stage reason) := by
  unfold State.restart; try dsimp only
  repeat' first
    | with_reducible first
      | assumption | exact sub_trans hmsk rfl | apply State.bootLog_same | apply State.clearPkg_same
      | apply State.send_same | apply State.setReg_same | apply State.startBoot_same
    | intro _
    | split
    | with_reducible apply SameBut.lit_boot
    | dsimp only

theorem State.failStart_same {msk : List Fld} {s0 : State} {s : State} (stage : _) (reason : _) (hs : SameBut msk s0 s)
    (hmsk : sub [.freeCtr, .regs, .caps, .plots, .chans, .slices, .norias, .dram, .chk, .net, .rr, .links, .reqTabs, .stks, .sensors, .coolant, .parts, .rings, .funcs, .lndErr, .cfg, .errs, .xngs, .eps, .groups, .coll, .cores, .caches, .media, .sec, .boot, .store, .faults, .dbg, .cnts, .toll, .wire] msk = true) :
    SameBut msk s0 (State.failStart s stage reason) := by
  unfold State.failStart; try dsimp only
  repeat' first
    | with_reducible first
      | assumption | exact sub_trans hmsk rfl | apply State.lowWater_same | apply State.restart_same
    | intro _
    | split
    | dsimp only

theorem State.endSettings_same {msk : List Fld} {s0 : State} {s : State} (hs : SameBut msk s0 s)
    (hmsk : sub [.freeCtr, .regs, .sec, .boot, .store] msk = true) :
    SameBut msk s0 (State.endSettings s) := by
  unfold State.endSettings; try dsimp only
  repeat' first
    | with_reducible first
      | assumption | exact sub_trans hmsk rfl | apply State.attemptWrite_same | apply State.bootLog_same
      | apply State.setFld_same | apply State.showAttempts_same
    | intro _
    | split
    | with_reducible apply SameBut.lit_sec
    | with_reducible apply SameBut.lit_boot
    | with_reducible (apply SameBut.lit <;> first | exact Or.inl rfl | exact Or.inr (sub_trans hmsk rfl) | skip)
    | dsimp only

theorem State.endImage_same {msk : List Fld} {s0 : State} {s : State} (b : _) (hs : SameBut msk s0 s)
    (hmsk : sub [.freeCtr, .regs, .sec, .boot, .store] msk = true) :
    SameBut msk s0 (State.endImage s b) := by
  unfold State.endImage; try dsimp only
  repeat' first
    | with_reducible first
      | assumption | exact sub_trans hmsk rfl | apply SameBut.foldl | apply SameBut.foldl1
      | apply SameBut.foldlDev | apply SameBut.foldlMv | apply SameBut.foldlDn | apply State.bootLog_same
      | apply State.setFld_same
    | intro _
    | split
    | with_reducible apply SameBut.lit_sec
    | with_reducible apply SameBut.lit_boot
    | with_reducible (apply SameBut.lit <;> first | exact Or.inl rfl | exact Or.inr (sub_trans hmsk rfl) | skip)
    | dsimp only

theorem State.endDieId_same {msk : List Fld} {s0 : State} {s : State} (hs : SameBut msk s0 s)
    (hmsk : sub [.regs, .boot] msk = true) :
    SameBut msk s0 (State.endDieId s) := by
  unfold State.endDieId; try dsimp only
  repeat' first
    | with_reducible first
      | assumption | exact sub_trans hmsk rfl | apply SameBut.foldl | apply SameBut.foldl1
      | apply SameBut.foldlDev | apply SameBut.foldlMv | apply SameBut.foldlDn | apply State.setReg_same
    | intro _
    | split
    | with_reducible apply SameBut.lit_boot
    | dsimp only

theorem State.mapSites_same {msk : List Fld} {s0 : State} {s : State} (st : _) (hs : SameBut msk s0 s)
    (hmsk : sub [.regs] msk = true) :
    SameBut msk s0 (State.mapSites s st) := by
  unfold State.mapSites; try dsimp only
  repeat' first
    | with_reducible first
      | assumption | exact sub_trans hmsk rfl | apply SameBut.foldl | apply SameBut.foldl1
      | apply SameBut.foldlDev | apply SameBut.foldlMv | apply SameBut.foldlDn | apply State.setFld_same
    | intro _
    | split
    | dsimp only

theorem State.repairRow_same {msk : List Fld} {s0 : State} {s : State} (k : _) (bank : _) (row : _) (hs : SameBut msk s0 s)
    (hmsk : sub [.freeCtr, .slices, .boot, .store] msk = true) :
    SameBut msk s0 (State.repairRow s k bank row) := by
  unfold State.repairRow; try dsimp only
  repeat' first
    | with_reducible first
      | assumption | exact sub_trans hmsk rfl | apply State.bootLog_same | apply State.updSlc_same
    | intro _
    | split
    | dsimp only

theorem State.endFuses_same {msk : List Fld} {s0 : State} {s : State} (hs : SameBut msk s0 s)
    (hmsk : sub [.freeCtr, .regs, .slices, .stks, .boot, .store] msk = true) :
    SameBut msk s0 (State.endFuses s) := by
  unfold State.endFuses; try dsimp only
  repeat' first
    | with_reducible first
      | assumption | exact sub_trans hmsk rfl | apply SameBut.foldl | apply SameBut.foldl1
      | apply SameBut.foldlDev | apply SameBut.foldlMv | apply SameBut.foldlDn | apply State.mapSites_same
      | apply State.repairRow_same | apply State.updStk_same
    | intro _
    | split
    | dsimp only

theorem State.endClocks_same {msk : List Fld} {s0 : State} {s : State} (hs : SameBut msk s0 s)
    (hmsk : sub [.regs, .stks, .wire] msk = true) :
    SameBut msk s0 (State.endClocks s) := by
  unfold State.endClocks; try dsimp only
  repeat' first
    | with_reducible first
      | assumption | exact sub_trans hmsk rfl | apply SameBut.foldl | apply SameBut.foldl1
      | apply SameBut.foldlDev | apply SameBut.foldlMv | apply SameBut.foldlDn | apply State.requestVdd_same
      | apply State.startGov_same | apply State.updStk_same
    | intro _
    | split
    | dsimp only

theorem State.endTests_same {msk : List Fld} {s0 : State} {s : State} (hs : SameBut msk s0 s)
    (hmsk : sub [.regs, .slices, .dram, .chk, .sensors, .errs, .cores, .faults, .cnts, .wire] msk = true) :
    SameBut msk s0 (State.endTests s) := by
  unfold State.endTests; try dsimp only
  repeat' first
    | with_reducible first
      | assumption | exact sub_trans hmsk rfl | apply SameBut.foldl | apply SameBut.foldl1
      | apply SameBut.foldlDev | apply SameBut.foldlMv | apply SameBut.foldlDn | apply State.testEnded_same
    | intro _
    | split
    | with_reducible apply SameBut.lit_faults
    | dsimp only

theorem State.endReady_same {msk : List Fld} {s0 : State} {s : State} (hs : SameBut msk s0 s)
    (hmsk : sub [.freeCtr, .regs, .sec, .boot, .store] msk = true) :
    SameBut msk s0 (State.endReady s) := by
  unfold State.endReady; try dsimp only
  repeat' first
    | with_reducible first
      | assumption | exact sub_trans hmsk rfl | apply State.attemptWrite_same | apply State.bootLog_same
      | apply State.fixMeas_same | apply State.setFld_same | apply State.setReg_same
      | apply State.showAttempts_same
    | intro _
    | split
    | with_reducible apply SameBut.lit_boot
    | dsimp only

theorem State.stageEffect_same {msk : List Fld} {s0 : State} {s : State} (k : _) (hs : SameBut msk s0 s)
    (hmsk : sub [.freeCtr, .regs, .slices, .dram, .chk, .stks, .sensors, .errs, .cores, .sec, .boot, .store, .faults, .cnts, .wire] msk = true) :
    SameBut msk s0 (State.stageEffect s k) := by
  unfold State.stageEffect; try dsimp only
  repeat' first
    | with_reducible first
      | assumption | exact sub_trans hmsk rfl | apply SameBut.foldl | apply SameBut.foldl1
      | apply SameBut.foldlDev | apply SameBut.foldlMv | apply SameBut.foldlDn | apply State.deriveKeys_same
      | apply State.endClocks_same | apply State.endDieId_same | apply State.endFuses_same
      | apply State.endImage_same | apply State.endReady_same | apply State.endSettings_same
      | apply State.endTests_same | apply State.filledStack_same | apply State.linksUp_same
    | intro _
    | split
    | with_reducible apply SameBut.lit_boot
    | dsimp only

theorem State.holdStack_same {msk : List Fld} {s0 : State} {s : State} (k : _) (cause : _) (st : _) (hs : SameBut msk s0 s)
    (hmsk : sub [.freeCtr, .regs, .caps, .plots, .chans, .slices, .norias, .dram, .chk, .net, .links, .reqTabs, .stks, .sensors, .cores, .caches, .boot, .store, .dbg, .cnts] msk = true) :
    SameBut msk s0 (State.holdStack s k cause st) := by
  unfold State.holdStack; try dsimp only
  repeat' first
    | with_reducible first
      | assumption | exact sub_trans hmsk rfl | apply State.bootLog_same | apply State.clearStack_same
      | apply State.setBit_same | apply State.setFld_same
    | intro _
    | split
    | dsimp only

theorem State.endStage_same {msk : List Fld} {s0 : State} {s : State} (k : _) (hold : _) (hs : SameBut msk s0 s)
    (hmsk : sub [.freeCtr, .regs, .caps, .plots, .chans, .slices, .norias, .dram, .chk, .net, .rr, .links, .reqTabs, .stks, .sensors, .coolant, .parts, .rings, .funcs, .lndErr, .cfg, .errs, .xngs, .eps, .groups, .coll, .cores, .caches, .media, .sec, .boot, .store, .faults, .dbg, .cnts, .toll, .wire] msk = true) :
    SameBut msk s0 (State.endStage s k hold) := by
  unfold State.endStage; try dsimp only
  repeat' first
    | with_reducible first
      | assumption | exact sub_trans hmsk rfl | apply SameBut.foldl | apply SameBut.foldl1
      | apply SameBut.foldlDev | apply SameBut.foldlMv | apply SameBut.foldlDn | apply State.failStart_same
      | apply State.holdStack_same | apply State.stageEffect_same | apply State.startStages_same
    | intro _
    | split
    | with_reducible apply SameBut.lit_boot
    | dsimp only

theorem stageComplete_same {msk : List Fld} {s0 : State} (k : _) (res : _) {s : State} (hs : SameBut msk s0 s)
    (hmsk : sub [.freeCtr, .regs, .caps, .plots, .chans, .slices, .norias, .dram, .chk, .net, .rr, .links, .reqTabs, .stks, .sensors, .coolant, .parts, .rings, .funcs, .lndErr, .cfg, .errs, .xngs, .eps, .groups, .coll, .cores, .caches, .media, .sec, .boot, .store, .faults, .dbg, .cnts, .toll, .wire] msk = true) :
    SameBut msk s0 (stageComplete k res s) := by
  unfold stageComplete; try dsimp only
  repeat' first
    | with_reducible first
      | assumption | exact sub_trans hmsk rfl | apply State.endStage_same | apply State.failStart_same
      | apply State.setBit_same
    | intro _
    | split
    | dsimp only

theorem execBootStageComplete_same {msk : List Fld} {s0 : State} (k : _) (res : _) {s : State} (hs : SameBut msk s0 s)
    (hmsk : sub [.freeCtr, .regs, .caps, .plots, .chans, .slices, .norias, .dram, .chk, .net, .rr, .links, .reqTabs, .stks, .sensors, .coolant, .parts, .rings, .funcs, .lndErr, .cfg, .errs, .xngs, .eps, .groups, .coll, .cores, .caches, .media, .sec, .boot, .store, .faults, .dbg, .cnts, .toll, .wire] msk = true) :
    OutSame msk s0 (execBootStageComplete k res s) := by
  unfold execBootStageComplete; try dsimp only
  repeat' first
    | with_reducible first
      | assumption | exact sub_trans hmsk rfl | apply OutSame.next | apply stageComplete_same
    | intro _
    | split
    | dsimp only

theorem execBootWatchdog_same {msk : List Fld} {s0 : State} {s : State} (hs : SameBut msk s0 s)
    (hmsk : sub [.freeCtr, .regs, .caps, .plots, .chans, .slices, .norias, .dram, .chk, .net, .rr, .links, .reqTabs, .stks, .sensors, .coolant, .parts, .rings, .funcs, .lndErr, .cfg, .errs, .xngs, .eps, .groups, .coll, .cores, .caches, .media, .sec, .boot, .store, .faults, .dbg, .cnts, .toll, .wire] msk = true) :
    OutSame msk s0 (execBootWatchdog s) := by
  unfold execBootWatchdog; try dsimp only
  repeat' first
    | with_reducible first
      | assumption | exact sub_trans hmsk rfl | apply OutSame.next | apply State.failStart_same
    | intro _
    | split
    | dsimp only

theorem State.pkgReset_same {msk : List Fld} {s0 : State} {s : State} (cold : _) (hs : SameBut msk s0 s)
    (hmsk : sub [.freeCtr, .regs, .caps, .plots, .chans, .slices, .norias, .dram, .chk, .net, .rr, .links, .reqTabs, .stks, .sensors, .coolant, .parts, .rings, .funcs, .lndErr, .cfg, .errs, .xngs, .eps, .groups, .coll, .cores, .caches, .media, .sec, .boot, .faults, .dbg, .cnts, .toll, .wire] msk = true) :
    SameBut msk s0 (State.pkgReset s cold) := by
  unfold State.pkgReset; try dsimp only
  repeat' first
    | with_reducible first
      | assumption | exact sub_trans hmsk rfl | apply State.beginReset_same | apply State.clearPkg_same
      | apply State.startBoot_same
    | intro _
    | split
    | dsimp only

theorem execColdReset_same {msk : List Fld} {s0 : State} (r : _) (next : _) {s : State} (hs : SameBut msk s0 s)
    (hmsk : sub [.freeCtr, .regs, .caps, .plots, .chans, .slices, .norias, .dram, .chk, .net, .rr, .links, .reqTabs, .stks, .sensors, .coolant, .parts, .rings, .funcs, .lndErr, .cfg, .errs, .xngs, .eps, .groups, .coll, .cores, .caches, .media, .sec, .boot, .faults, .dbg, .cnts, .toll, .wire] msk = true) :
    OutSame msk s0 (execColdReset r next s) := by
  unfold execColdReset; try dsimp only
  repeat' first
    | with_reducible first
      | assumption | exact sub_trans hmsk rfl | apply OutSame.next | apply State.access_same
      | apply State.pkgReset_same | apply writeNextSlot_same
    | intro _
    | split
    | dsimp only

theorem warmCmd_same {msk : List Fld} {s0 : State} {s : State} (hs : SameBut msk s0 s)
    (hmsk : sub [.freeCtr, .regs, .caps, .plots, .chans, .slices, .norias, .dram, .chk, .net, .rr, .links, .reqTabs, .stks, .sensors, .coolant, .parts, .rings, .funcs, .lndErr, .cfg, .errs, .xngs, .eps, .groups, .coll, .cores, .caches, .media, .sec, .boot, .faults, .dbg, .cnts, .toll, .wire] msk = true) :
    SameBut msk s0 (warmCmd s) := by
  unfold warmCmd; try dsimp only
  repeat' first
    | with_reducible first
      | assumption | exact sub_trans hmsk rfl | apply State.pkgReset_same
    | intro _
    | split
    | dsimp only

theorem execWarmReset_same {msk : List Fld} {s0 : State} (r : _) {s : State} (hs : SameBut msk s0 s)
    (hmsk : sub [.freeCtr, .regs, .caps, .plots, .chans, .slices, .norias, .dram, .chk, .net, .rr, .links, .reqTabs, .stks, .sensors, .coolant, .parts, .rings, .funcs, .lndErr, .cfg, .errs, .xngs, .eps, .groups, .coll, .cores, .caches, .media, .sec, .boot, .faults, .dbg, .cnts, .toll, .wire] msk = true) :
    OutSame msk s0 (execWarmReset r s) := by
  unfold execWarmReset; try dsimp only
  repeat' first
    | with_reducible first
      | assumption | exact sub_trans hmsk rfl | apply OutSame.next | apply State.access_same | apply warmCmd_same
    | intro _
    | split
    | dsimp only

/-! ### Cores -/

theorem State.coreDone_same {msk : List Fld} {s0 : State} {s : State} (n : _) (rd : _) (v : _) (hs : SameBut msk s0 s)
    (hmsk : sub [.cores, .dbg] msk = true) :
    SameBut msk s0 (State.coreDone s n rd v) := by
  unfold State.coreDone; try dsimp only
  repeat' first
    | with_reducible first
      | assumption | exact sub_trans hmsk rfl | apply State.hartStepped_same | apply State.updCore_same
    | intro _
    | split
    | dsimp only

theorem State.releaseCore_same {msk : List Fld} {s0 : State} {s : State} (st : _) (c : _) (hs : SameBut msk s0 s)
    (hmsk : sub [.regs, .cores] msk = true) :
    SameBut msk s0 (State.releaseCore s st c) := by
  unfold State.releaseCore; try dsimp only
  repeat' first
    | with_reducible first
      | assumption | exact sub_trans hmsk rfl | apply State.setBit_same | apply State.updCore_same
    | intro _
    | split
    | dsimp only

theorem coreRelease_same {msk : List Fld} {s0 : State} (st : _) (mask : _) {s : State} (hs : SameBut msk s0 s)
    (hmsk : sub [.regs, .cores] msk = true) :
    SameBut msk s0 (coreRelease st mask s) := by
  unfold coreRelease; try dsimp only
  repeat' first
    | with_reducible first
      | assumption | exact sub_trans hmsk rfl | apply SameBut.foldl | apply SameBut.foldl1
      | apply SameBut.foldlDev | apply SameBut.foldlMv | apply SameBut.foldlDn | apply State.releaseCore_same
    | intro _
    | split
    | dsimp only

theorem execCoreRelease_same {msk : List Fld} {s0 : State} (r : _) (st : _) (mask : _) {s : State} (hs : SameBut msk s0 s)
    (hmsk : sub [.regs, .cores, .dbg, .cnts] msk = true) :
    OutSame msk s0 (execCoreRelease r st mask s) := by
  unfold execCoreRelease; try dsimp only
  repeat' first
    | with_reducible first
      | assumption | exact sub_trans hmsk rfl | apply OutSame.next | apply State.access_same
      | apply coreRelease_same
    | intro _
    | split
    | dsimp only

theorem State.fillLine_same {msk : List Fld} {s0 : State} {s : State} (st : _) (key : _) (off : _) (addr : _) (hs : SameBut msk s0 s)
    (hmsk : sub [.freeCtr, .regs, .slices, .dram, .chk, .errs, .cores, .caches, .cnts, .wire] msk = true) :
    SameBut msk s0 (State.fillLine s st key off addr).1 := by
  unfold State.fillLine; try dsimp only
  repeat' first
    | with_reducible first
      | assumption | exact sub_trans hmsk rfl | apply State.devRead_same
    | intro _
    | split
    | with_reducible apply SameBut.lit_caches
    | dsimp only

theorem State.breakResv_same {msk : List Fld} {s0 : State} {s : State} (st : _) (line : _) (hs : SameBut msk s0 s)
    (hmsk : sub [.cores] msk = true) :
    SameBut msk s0 (State.breakResv s st line) := by
  unfold State.breakResv; try dsimp only
  repeat' first
    | with_reducible first
      | assumption | exact sub_trans hmsk rfl | apply SameBut.foldl | apply SameBut.foldl1
      | apply SameBut.foldlDev | apply SameBut.foldlMv | apply SameBut.foldlDn | apply State.updCore_same
    | intro _
    | split
    | dsimp only

theorem State.lineAmo_same {msk : List Fld} {s0 : State} {s : State} (n : _) (op : _) (wide : _) (line : _) (l : _) (addr : _) (x : _) (cmp : _) (rd : _) (hs : SameBut msk s0 s)
    (hmsk : sub [.cores, .caches, .dbg] msk = true) :
    SameBut msk s0 (State.lineAmo s n op wide line l addr x cmp rd) := by
  unfold State.lineAmo; try dsimp only
  repeat' first
    | with_reducible first
      | assumption | exact sub_trans hmsk rfl | apply State.breakResv_same | apply State.coreDone_same
      | apply State.updCore_same
    | intro _
    | split
    | with_reducible apply SameBut.lit_caches
    | dsimp only

theorem State.cachedAmo_same {msk : List Fld} {s0 : State} {s : State} (n : _) (op : _) (wide : _) (addr : _) (x : _) (cmp : _) (rd : _) (hs : SameBut msk s0 s)
    (hmsk : sub [.freeCtr, .regs, .slices, .dram, .chk, .errs, .cores, .caches, .dbg, .cnts, .wire] msk = true) :
    SameBut msk s0 (State.cachedAmo s n op wide addr x cmp rd) := by
  unfold State.cachedAmo; try dsimp only
  repeat' first
    | with_reducible first
      | assumption | exact sub_trans hmsk rfl | apply State.coreTrap_same | apply State.fillLine_same
      | apply State.lineAmo_same
    | intro _
    | split
    | dsimp only

theorem State.weirAmo_same {msk : List Fld} {s0 : State} {s : State} (n : _) (op : _) (wide : _) (addr : _) (x : _) (cmp : _) (rd : _) (hs : SameBut msk s0 s)
    (hmsk : sub [.regs, .slices, .dram, .chk, .errs, .cores, .caches, .dbg, .cnts, .wire] msk = true) :
    SameBut msk s0 (State.weirAmo s n op wide addr x cmp rd) := by
  unfold State.weirAmo; try dsimp only
  repeat' first
    | with_reducible first
      | assumption | exact sub_trans hmsk rfl | apply State.coreDone_same | apply State.coreTrap_same
      | apply State.devWeir_same
    | intro _
    | split
    | dsimp only

theorem coreAmo_same {msk : List Fld} {s0 : State} (n : _) (op : _) (wide : _) (addr : _) (cached : _) (x : _) (cmp : _) (rd : _) {s : State} (hs : SameBut msk s0 s)
    (hmsk : sub [.freeCtr, .regs, .slices, .dram, .chk, .errs, .cores, .caches, .dbg, .cnts, .wire] msk = true) :
    SameBut msk s0 (coreAmo n op wide addr cached x cmp rd s) := by
  unfold coreAmo; try dsimp only
  repeat' first
    | with_reducible first
      | assumption | exact sub_trans hmsk rfl | apply State.cachedAmo_same | apply State.coreTrap_same
      | apply State.weirAmo_same
    | intro _
    | split
    | dsimp only

theorem execCoreAtomic_same {msk : List Fld} {s0 : State} (st : _) (k : _) (op : _) (wide : _) (addr : _) (cached : _) (operand : _) (compare : _) (rd : _) {s : State} (hs : SameBut msk s0 s)
    (hmsk : sub [.freeCtr, .regs, .slices, .dram, .chk, .errs, .cores, .caches, .dbg, .cnts, .wire] msk = true) :
    OutSame msk s0 (execCoreAtomic st k op wide addr cached operand compare rd s) := by
  unfold execCoreAtomic; try dsimp only
  repeat' first
    | with_reducible first
      | assumption | exact sub_trans hmsk rfl | apply OutSame.next | apply coreAmo_same
    | intro _
    | split
    | dsimp only

theorem State.coreToken_same {msk : List Fld} {s0 : State} {s : State} (st : _) (dst : _) (m : _) (hs : SameBut msk s0 s)
    (hmsk : sub [.regs, .net] msk = true) :
    SameBut msk s0 (State.coreToken s st dst m) := by
  unfold State.coreToken; try dsimp only
  repeat' first
    | with_reducible first
      | assumption | exact sub_trans hmsk rfl | apply State.irq_same
    | intro _
    | split
    | with_reducible apply SameBut.lit_net
    | dsimp only

theorem coreTokenTx_same {msk : List Fld} {s0 : State} (st : _) (v : _) {s : State} (hs : SameBut msk s0 s)
    (hmsk : sub [.regs, .net] msk = true) :
    SameBut msk s0 (coreTokenTx st v s) := by
  unfold coreTokenTx; try dsimp only
  repeat' first
    | with_reducible first
      | assumption | exact sub_trans hmsk rfl | apply State.coreToken_same | apply State.irq_same
    | intro _
    | split
    | dsimp only

theorem execCoreTokenTx_same {msk : List Fld} {s0 : State} (r : _) (st : _) (v : _) {s : State} (hs : SameBut msk s0 s)
    (hmsk : sub [.regs, .net, .cores, .dbg, .cnts] msk = true) :
    OutSame msk s0 (execCoreTokenTx r st v s) := by
  unfold execCoreTokenTx; try dsimp only
  repeat' first
    | with_reducible first
      | assumption | exact sub_trans hmsk rfl | apply OutSame.next | apply State.access_same
      | apply coreTokenTx_same
    | intro _
    | split
    | dsimp only

/-! ### Media -/

theorem State.medSignal_same {msk : List Fld} {s0 : State} {s : State} (n : _) (d : _) (status : _) (hs : SameBut msk s0 s)
    (hmsk : sub [.net] msk = true) :
    SameBut msk s0 (State.medSignal s n d status) := by
  unfold State.medSignal; try dsimp only
  repeat' first
    | with_reducible first
      | assumption | exact sub_trans hmsk rfl | apply State.inject_same
    | intro _
    | split
    | dsimp only

theorem State.medEnd_same {msk : List Fld} {s0 : State} {s : State} (n : _) (d : _) (status : _) (frames : _) (rejected : _) (hs : SameBut msk s0 s)
    (hmsk : sub [.regs, .net, .media] msk = true) :
    SameBut msk s0 (State.medEnd s n d status frames rejected) := by
  unfold State.medEnd; try dsimp only
  repeat' first
    | with_reducible first
      | assumption | exact sub_trans hmsk rfl | apply State.medSignal_same | apply State.setBit_same
      | apply State.updMed_same
    | intro _
    | split
    | dsimp only

theorem mediaPush_same {msk : List Fld} {s0 : State} (n : _) {s : State} (hs : SameBut msk s0 s)
    (hmsk : sub [.regs, .media] msk = true) :
    SameBut msk s0 (mediaPush n s) := by
  unfold mediaPush; try dsimp only
  repeat' first
    | with_reducible first
      | assumption | exact sub_trans hmsk rfl | apply State.irq_same | apply State.setMed_same
    | intro _
    | split
    | dsimp only

theorem execMediaSubmitPush_same {msk : List Fld} {s0 : State} (r : _) (n : _) {s : State} (hs : SameBut msk s0 s)
    (hmsk : sub [.regs, .cores, .media, .dbg, .cnts] msk = true) :
    OutSame msk s0 (execMediaSubmitPush r n s) := by
  unfold execMediaSubmitPush; try dsimp only
  repeat' first
    | with_reducible first
      | assumption | exact sub_trans hmsk rfl | apply OutSame.next | apply State.access_same
      | apply mediaPush_same
    | intro _
    | split
    | dsimp only

theorem mediaStart_same {msk : List Fld} {s0 : State} (n : _) {s : State} (hs : SameBut msk s0 s)
    (hmsk : sub [.regs, .net, .media] msk = true) :
    SameBut msk s0 (mediaStart n s) := by
  unfold mediaStart; try dsimp only
  repeat' first
    | with_reducible first
      | assumption | exact sub_trans hmsk rfl | apply State.medEnd_same | apply State.setMed_same
      | apply State.updMed_same
    | intro _
    | split
    | dsimp only

theorem execMediaJobStart_same {msk : List Fld} {s0 : State} (n : _) {s : State} (hs : SameBut msk s0 s)
    (hmsk : sub [.regs, .net, .media] msk = true) :
    OutSame msk s0 (execMediaJobStart n s) := by
  unfold execMediaJobStart; try dsimp only
  repeat' first
    | with_reducible first
      | assumption | exact sub_trans hmsk rfl | apply OutSame.next | apply mediaStart_same
    | intro _
    | split
    | dsimp only

theorem mediaOutput_same {msk : List Fld} {s0 : State} (n : _) (d : _) (vals : _) {s : State} (hs : SameBut msk s0 s)
    (hmsk : sub [.regs, .slices, .dram, .chk, .errs, .cores, .caches, .media, .cnts, .wire] msk = true) :
    SameBut msk s0 (mediaOutput n d vals s) := by
  unfold mediaOutput; try dsimp only
  repeat' first
    | with_reducible first
      | assumption | exact sub_trans hmsk rfl | apply State.devWrite_same | apply State.updMed_same
    | intro _
    | split
    | dsimp only

theorem execMediaPictureOutput_same {msk : List Fld} {s0 : State} (n : _) (vals : _) {s : State} (hs : SameBut msk s0 s)
    (hmsk : sub [.regs, .slices, .dram, .chk, .errs, .cores, .caches, .media, .cnts, .wire] msk = true) :
    OutSame msk s0 (execMediaPictureOutput n vals s) := by
  unfold execMediaPictureOutput; try dsimp only
  repeat' first
    | with_reducible first
      | assumption | exact sub_trans hmsk rfl | apply OutSame.next | apply mediaOutput_same
    | intro _
    | split
    | dsimp only

theorem State.medStopped_same {msk : List Fld} {s0 : State} {s : State} (n : _) (hs : SameBut msk s0 s)
    (hmsk : sub [.media] msk = true) :
    SameBut msk s0 (State.medStopped s n) := by
  unfold State.medStopped; try dsimp only
  repeat' first
    | with_reducible first
      | assumption | exact sub_trans hmsk rfl | apply State.setMed_same
    | intro _
    | split
    | dsimp only

theorem mediaComplete_same {msk : List Fld} {s0 : State} (n : _) (d : _) (how : _) {s : State} (hs : SameBut msk s0 s)
    (hmsk : sub [.freeCtr, .regs, .slices, .dram, .chk, .net, .errs, .cores, .media, .cnts, .wire] msk = true) :
    SameBut msk s0 (mediaComplete n d how s) := by
  unfold mediaComplete; try dsimp only
  repeat' first
    | with_reducible first
      | assumption | exact sub_trans hmsk rfl | apply State.devRead_same | apply State.medEnd_same
      | apply State.medStopped_same | apply State.setMed_same
    | intro _
    | split
    | dsimp only

theorem execMediaJobComplete_same {msk : List Fld} {s0 : State} (n : _) (how : _) {s : State} (hs : SameBut msk s0 s)
    (hmsk : sub [.freeCtr, .regs, .slices, .dram, .chk, .net, .errs, .cores, .media, .cnts, .wire] msk = true) :
    OutSame msk s0 (execMediaJobComplete n how s) := by
  unfold execMediaJobComplete; try dsimp only
  repeat' first
    | with_reducible first
      | assumption | exact sub_trans hmsk rfl | apply OutSame.next | apply mediaComplete_same
    | intro _
    | split
    | dsimp only

theorem popMedia_same {msk : List Fld} {s0 : State} (n : _) {s : State} (hs : SameBut msk s0 s)
    (hmsk : sub [.reply, .caps, .media] msk = true) :
    SameBut msk s0 (popMedia n s) := by
  unfold popMedia; try dsimp only
  repeat' first
    | with_reducible first
      | assumption | exact sub_trans hmsk rfl | apply State.answer_same | apply State.capture_same
      | apply State.updMed_same
    | intro _
    | split
    | dsimp only

theorem execMediaCplPop_same {msk : List Fld} {s0 : State} (r : _) (n : _) {s : State} (hs : SameBut msk s0 s)
    (hmsk : sub [.freeCtr, .reply, .regs, .caps, .cores, .media, .dbg, .cnts] msk = true) :
    OutSame msk s0 (execMediaCplPop r n s) := by
  unfold execMediaCplPop; try dsimp only
  repeat' first
    | with_reducible first
      | assumption | exact sub_trans hmsk rfl | apply OutSame.next | apply State.readAccess_same
      | apply popMedia_same
    | intro _
    | split
    | dsimp only

theorem medSetEn_same {msk : List Fld} {s0 : State} (n : _) {s : State} (hs : SameBut msk s0 s)
    (hmsk : sub [.regs, .media] msk = true) :
    SameBut msk s0 (medSetEn n s) := by
  unfold medSetEn; try dsimp only
  repeat' first
    | with_reducible first
      | assumption | exact sub_trans hmsk rfl | apply State.setBit_same | apply State.updMed_same
    | intro _
    | split
    | dsimp only

theorem State.expireMed_same {msk : List Fld} {s0 : State} {s : State} (n : _) (hs : SameBut msk s0 s)
    (hmsk : sub [.regs, .net, .media] msk = true) :
    SameBut msk s0 (State.expireMed s n) := by
  unfold State.expireMed; try dsimp only
  repeat' first
    | with_reducible first
      | assumption | exact sub_trans hmsk rfl | apply SameBut.foldl | apply SameBut.foldl1
      | apply SameBut.foldlDev | apply SameBut.foldlMv | apply SameBut.foldlDn | apply State.medEnd_same
      | apply State.medStopped_same | apply State.setMed_same
    | intro _
    | split
    | dsimp only

theorem medClrEn_same {msk : List Fld} {s0 : State} (n : _) {s : State} (hs : SameBut msk s0 s)
    (hmsk : sub [.regs, .net, .media] msk = true) :
    SameBut msk s0 (medClrEn n s) := by
  unfold medClrEn; try dsimp only
  repeat' first
    | with_reducible first
      | assumption | exact sub_trans hmsk rfl | apply State.clrBit_same | apply State.expireMed_same
      | apply State.updMed_same
    | intro _
    | split
    | dsimp only

/-! ### Security -/

theorem State.reqStat_same {msk : List Fld} {s0 : State} {s : State} (state : _) (code : _) (hs : SameBut msk s0 s)
    (hmsk : sub [.regs] msk = true) :
    SameBut msk s0 (State.reqStat s state code) := by
  unfold State.reqStat; try dsimp only
  repeat' first
    | with_reducible first
      | assumption | exact sub_trans hmsk rfl | apply State.setFld_same
    | intro _
    | split
    | dsimp only

theorem svnCommitCmd_same {msk : List Fld} {s0 : State} {s : State} (hs : SameBut msk s0 s)
    (hmsk : sub [.regs, .sec] msk = true) :
    SameBut msk s0 (svnCommitCmd s) := by
  unfold svnCommitCmd; try dsimp only
  repeat' first
    | with_reducible first
      | assumption | exact sub_trans hmsk rfl | apply State.reqStat_same
    | intro _
    | split
    | with_reducible apply SameBut.lit_sec
    | dsimp only

theorem execSvnCommit_same {msk : List Fld} {s0 : State} (r : _) {s : State} (hs : SameBut msk s0 s)
    (hmsk : sub [.regs, .cores, .sec, .dbg, .cnts] msk = true) :
    OutSame msk s0 (execSvnCommit r s) := by
  unfold execSvnCommit; try dsimp only
  repeat' first
    | with_reducible first
      | assumption | exact sub_trans hmsk rfl | apply OutSame.next | apply State.access_same
      | apply svnCommitCmd_same
    | intro _
    | split
    | dsimp only

theorem revokeImage_same {s u : State} {l : List Byte} (hs : SameBut msk s0 s)
    (hmsk : sub [.freeCtr, .regs, .slices, .dram, .chk, .errs, .cores, .sec, .cnts, .wire] msk = true) (hu : revokeImage s = some (u, l)) : SameBut msk s0 u := by
  unfold revokeImage at hu
  dsimp only at hu
  split at hu
  · simp at hu
  · split at hu
    · simp at hu
    · split at hu
      · simp at hu
      · simp only [Option.some.injEq, Prod.mk.injEq] at hu
        obtain ⟨rfl, -⟩ := hu
        exact State.devRead_same _ _ _ (State.devRead_same _ _ _ hs (sub_trans hmsk rfl)) (sub_trans hmsk rfl)

theorem revokeCmd_same {s : State} (hs : SameBut msk s0 s)
    (hmsk : sub [.freeCtr, .regs, .slices, .dram, .chk, .errs, .cores, .sec, .cnts, .wire] msk = true) : SameBut msk s0 (revokeCmd s) := by
  unfold revokeCmd
  split
  · exact hs
  · split
    · exact State.reqStat_same _ _ hs (sub_trans hmsk rfl)
    · rename_i u l hu
      have k := revokeImage_same hs hmsk hu
      split
      · exact State.reqStat_same _ _ k (sub_trans hmsk rfl)
      · split
        · exact State.reqStat_same _ _ k (sub_trans hmsk rfl)
        · exact State.reqStat_same _ _ (SameBut.lit_sec k (sub_trans hmsk rfl)) (sub_trans hmsk rfl)

theorem execRevokeSubmit_same {msk : List Fld} {s0 : State} (r : _) {s : State} (hs : SameBut msk s0 s)
    (hmsk : sub [.freeCtr, .regs, .slices, .dram, .chk, .errs, .cores, .sec, .dbg, .cnts, .wire] msk = true) :
    OutSame msk s0 (execRevokeSubmit r s) := by
  unfold execRevokeSubmit; try dsimp only
  repeat' first
    | with_reducible first
      | assumption | exact sub_trans hmsk rfl | apply OutSame.next | apply State.access_same
      | apply revokeCmd_same
    | intro _
    | split
    | dsimp only

theorem State.partCommit_same {msk : List Fld} {s0 : State} {s : State} (target : _) (hs : SameBut msk s0 s)
    (hmsk : sub [.freeCtr, .fuses] msk = true) :
    SameBut msk s0 (State.partCommit s target) := by
  unfold State.partCommit; try dsimp only
  repeat' first
    | with_reducible first
      | assumption | exact sub_trans hmsk rfl | apply State.drawn_same
    | intro _
    | split
    | with_reducible apply SameBut.lit_fuses
    | dsimp only

theorem requestDone_same {msk : List Fld} {s0 : State} (ok : _) {s : State} (hs : SameBut msk s0 s)
    (hmsk : sub [.freeCtr, .fuses, .regs, .sec] msk = true) :
    SameBut msk s0 (requestDone ok s) := by
  unfold requestDone; try dsimp only
  repeat' first
    | with_reducible first
      | assumption | exact sub_trans hmsk rfl | apply State.partCommit_same | apply State.reqStat_same
    | intro _
    | split
    | with_reducible apply SameBut.lit_fuses
    | with_reducible apply SameBut.lit_sec
    | with_reducible (apply SameBut.lit <;> first | exact Or.inl rfl | exact Or.inr (sub_trans hmsk rfl) | skip)
    | dsimp only

theorem execKeyEngineRequestDone_same {msk : List Fld} {s0 : State} (ok : _) {s : State} (hs : SameBut msk s0 s)
    (hmsk : sub [.freeCtr, .fuses, .regs, .sec] msk = true) :
    OutSame msk s0 (execKeyEngineRequestDone ok s) := by
  unfold execKeyEngineRequestDone; try dsimp only
  repeat' first
    | with_reducible first
      | assumption | exact sub_trans hmsk rfl | apply OutSame.next | apply requestDone_same
    | intro _
    | split
    | dsimp only

theorem State.spdmErr_same {msk : List Fld} {s0 : State} {s : State} (f : _) (code : _) (hs : SameBut msk s0 s)
    (hmsk : sub [.wire] msk = true) :
    SameBut msk s0 (State.spdmErr s f code) := by
  unfold State.spdmErr; try dsimp only
  repeat' first
    | with_reducible first
      | assumption | exact sub_trans hmsk rfl | apply State.send_same
    | intro _
    | split
    | dsimp only

theorem State.spdmAns_same {msk : List Fld} {s0 : State} {s : State} (f : _) (body : _) (hs : SameBut msk s0 s)
    (hmsk : sub [.wire] msk = true) :
    SameBut msk s0 (State.spdmAns s f body) := by
  unfold State.spdmAns; try dsimp only
  repeat' first
    | with_reducible first
      | assumption | exact sub_trans hmsk rfl | apply State.send_same
    | intro _
    | split
    | dsimp only

theorem State.aliasSign_same {msk : List Fld} {s0 : State} {s : State} (f : _) (body : _) (hs : SameBut msk s0 s)
    (hmsk : sub [.freeCtr, .wire] msk = true) :
    SameBut msk s0 (State.aliasSign s f body) := by
  unfold State.aliasSign; try dsimp only
  repeat' first
    | with_reducible first
      | assumption | exact sub_trans hmsk rfl | apply State.freeBytes_same | apply State.spdmAns_same
      | apply State.spdmErr_same
    | intro _
    | split
    | dsimp only

theorem State.setSessions_same {msk : List Fld} {s0 : State} {s : State} (f : _) (n : _) (hs : SameBut msk s0 s)
    (hmsk : sub [.sec] msk = true) :
    SameBut msk s0 (State.setSessions s f n) := by
  unfold State.setSessions; try dsimp only
  repeat' first
    | with_reducible first
      | assumption | exact sub_trans hmsk rfl
    | intro _
    | split
    | with_reducible apply SameBut.lit_sec
    | dsimp only

theorem State.bindIde_same {msk : List Fld} {s0 : State} {s : State} (f : _) (hs : SameBut msk s0 s)
    (hmsk : sub [.regs, .sec] msk = true) :
    SameBut msk s0 (State.bindIde s f) := by
  unfold State.bindIde; try dsimp only
  repeat' first
    | with_reducible first
      | assumption | exact sub_trans hmsk rfl | apply State.setBit_same
    | intro _
    | split
    | with_reducible apply SameBut.lit_sec
    | dsimp only

theorem spdm_same {msk : List Fld} {s0 : State} (f : _) (q : _) {s : State} (hs : SameBut msk s0 s)
    (hmsk : sub [.freeCtr, .regs, .sec, .wire] msk = true) :
    SameBut msk s0 (spdm f q s) := by
  unfold spdm; try dsimp only
  repeat' first
    | with_reducible first
      | assumption | exact sub_trans hmsk rfl | apply State.aliasSign_same | apply State.bindIde_same
      | apply State.freeBytes_same | apply State.setSessions_same | apply State.spdmAns_same
      | apply State.spdmErr_same
    | intro _
    | split
    | dsimp only

theorem execSpdmRequest_same {msk : List Fld} {s0 : State} (f : _) (q : _) {s : State} (hs : SameBut msk s0 s)
    (hmsk : sub [.freeCtr, .regs, .sec, .wire] msk = true) :
    OutSame msk s0 (execSpdmRequest f q s) := by
  unfold execSpdmRequest; try dsimp only
  repeat' first
    | with_reducible first
      | assumption | exact sub_trans hmsk rfl | apply OutSame.next | apply spdm_same
    | intro _
    | split
    | dsimp only

theorem ideFail_same {msk : List Fld} {s0 : State} (f : _) {s : State} (hs : SameBut msk s0 s)
    (hmsk : sub [.regs, .parts, .lndErr, .cores, .sec, .faults, .dbg, .wire] msk = true) :
    SameBut msk s0 (ideFail f s) := by
  unfold ideFail; try dsimp only
  repeat' first
    | with_reducible first
      | assumption | exact sub_trans hmsk rfl | apply State.lndCount_same | apply State.tdiError_same
    | intro _
    | split
    | with_reducible apply SameBut.lit_sec
    | dsimp only

theorem execIdeIntegrityFail_same {msk : List Fld} {s0 : State} (f : _) {s : State} (hs : SameBut msk s0 s)
    (hmsk : sub [.regs, .parts, .lndErr, .cores, .sec, .faults, .dbg, .wire] msk = true) :
    OutSame msk s0 (execIdeIntegrityFail f s) := by
  unfold execIdeIntegrityFail; try dsimp only
  repeat' first
    | with_reducible first
      | assumption | exact sub_trans hmsk rfl | apply OutSame.next | apply ideFail_same
    | intro _
    | split
    | dsimp only

theorem execLockInterface_same {msk : List Fld} {s0 : State} (n : _) {s : State} (hs : SameBut msk s0 s)
    (hmsk : sub [.regs] msk = true) :
    OutSame msk s0 (execLockInterface n s) := by
  unfold execLockInterface; try dsimp only
  repeat' first
    | with_reducible first
      | assumption | exact sub_trans hmsk rfl | apply OutSame.next | apply State.lockPage_same
      | apply State.setTdi_same
    | intro _
    | split
    | dsimp only

theorem execStartInterface_same {msk : List Fld} {s0 : State} (n : _) {s : State} (hs : SameBut msk s0 s)
    (hmsk : sub [.regs] msk = true) :
    OutSame msk s0 (execStartInterface n s) := by
  unfold execStartInterface; try dsimp only
  repeat' first
    | with_reducible first
      | assumption | exact sub_trans hmsk rfl | apply OutSame.next | apply State.setTdi_same
    | intro _
    | split
    | dsimp only

theorem stopInterface_same {msk : List Fld} {s0 : State} (n : _) {s : State} (hs : SameBut msk s0 s)
    (hmsk : sub [.regs, .parts, .cores, .faults, .dbg, .wire] msk = true) :
    SameBut msk s0 (stopInterface n s) := by
  unfold stopInterface; try dsimp only
  repeat' first
    | with_reducible first
      | assumption | exact sub_trans hmsk rfl | apply State.resetPart_same | apply State.setTdi_same
      | apply State.updPart_same
    | intro _
    | split
    | dsimp only

theorem execStopInterface_same {msk : List Fld} {s0 : State} (n : _) {s : State} (hs : SameBut msk s0 s)
    (hmsk : sub [.regs, .parts, .cores, .faults, .dbg, .wire] msk = true) :
    OutSame msk s0 (execStopInterface n s) := by
  unfold execStopInterface; try dsimp only
  repeat' first
    | with_reducible first
      | assumption | exact sub_trans hmsk rfl | apply OutSame.next | apply stopInterface_same
    | intro _
    | split
    | dsimp only

theorem State.unlockDebug_same {msk : List Fld} {s0 : State} {s : State} (level : _) (hs : SameBut msk s0 s)
    (hmsk : sub [.regs, .parts, .cores, .sec, .faults, .dbg, .wire] msk = true) :
    SameBut msk s0 (State.unlockDebug s level) := by
  unfold State.unlockDebug; try dsimp only
  repeat' first
    | with_reducible first
      | assumption | exact sub_trans hmsk rfl | apply SameBut.foldl | apply SameBut.foldl1
      | apply SameBut.foldlDev | apply SameBut.foldlMv | apply SameBut.foldlDn | apply State.setBit_same
      | apply State.setFld_same | apply State.tdiError_same
    | intro _
    | split
    | with_reducible apply SameBut.lit_sec
    | dsimp only

theorem submitToken_same {msk : List Fld} {s0 : State} (l : _) {s : State} (hs : SameBut msk s0 s)
    (hmsk : sub [.regs, .parts, .cores, .sec, .faults, .dbg, .wire] msk = true) :
    SameBut msk s0 (submitToken l s) := by
  unfold submitToken; try dsimp only
  repeat' first
    | with_reducible first
      | assumption | exact sub_trans hmsk rfl | apply State.setBit_same | apply State.unlockDebug_same
    | intro _
    | split
    | dsimp only

theorem execDbgTokenSubmit_same {msk : List Fld} {s0 : State} (token : _) (viaJtag : _) {s : State} (hs : SameBut msk s0 s)
    (hmsk : sub [.regs, .parts, .cores, .sec, .faults, .dbg, .cnts, .wire] msk = true) :
    OutSame msk s0 (execDbgTokenSubmit token viaJtag s) := by
  unfold execDbgTokenSubmit; try dsimp only
  repeat' first
    | with_reducible first
      | assumption | exact sub_trans hmsk rfl | apply OutSame.next | apply State.access_same
      | apply submitToken_same
    | intro _
    | split
    | dsimp only

theorem rngFail_same {msk : List Fld} {s0 : State} {s : State} (hs : SameBut msk s0 s)
    (hmsk : sub [.regs, .slices, .dram, .chk, .net, .errs, .xngs, .eps, .coll, .cores, .caches, .cnts, .wire] msk = true) :
    SameBut msk s0 (rngFail s) := by
  unfold rngFail; try dsimp only
  repeat' first
    | with_reducible first
      | assumption | exact sub_trans hmsk rfl | apply SameBut.foldl | apply SameBut.foldl1
      | apply SameBut.foldlDev | apply SameBut.foldlMv | apply SameBut.foldlDn | apply State.setBit_same
      | apply State.setFld_same | apply State.xngDown_same
    | intro _
    | split
    | dsimp only

theorem execRngHealthFail_same {msk : List Fld} {s0 : State} {s : State} (hs : SameBut msk s0 s)
    (hmsk : sub [.regs, .slices, .dram, .chk, .net, .errs, .xngs, .eps, .coll, .cores, .caches, .cnts, .wire] msk = true) :
    OutSame msk s0 (execRngHealthFail s) := by
  unfold execRngHealthFail; try dsimp only
  repeat' first
    | with_reducible first
      | assumption | exact sub_trans hmsk rfl | apply OutSame.next | apply rngFail_same
    | intro _
    | split
    | dsimp only

theorem State.clearUnit_same {msk : List Fld} {s0 : State} {s : State} (x1 : _) (hs : SameBut msk s0 s)
    (hmsk : sub [.chans, .reqTabs, .eps, .media] msk = true) :
    SameBut msk s0 (State.clearUnit s x1) := by
  unfold State.clearUnit; try dsimp only
  repeat' first
    | with_reducible first
      | assumption | exact sub_trans hmsk rfl | apply State.clearChan_same | apply State.setChan_same
      | apply State.setEp_same | apply State.setMed_same
    | intro _
    | split
    | dsimp only

theorem writeOwner_same {msk : List Fld} {s0 : State} (u : _) (v : _) {s : State} (hs : SameBut msk s0 s)
    (hmsk : sub [.regs, .chans, .reqTabs, .eps, .media] msk = true) :
    SameBut msk s0 (writeOwner u v s) := by
  unfold writeOwner; try dsimp only
  repeat' first
    | with_reducible first
      | assumption | exact sub_trans hmsk rfl | apply State.clearUnit_same | apply State.setBit_same
      | apply State.setFld_same | apply State.wrRej_same
    | intro _
    | split
    | dsimp only

theorem execOwnerWrite_same {msk : List Fld} {s0 : State} (r : _) (u : _) (v : _) {s : State} (hs : SameBut msk s0 s)
    (hmsk : sub [.regs, .chans, .reqTabs, .eps, .cores, .media, .dbg, .cnts] msk = true) :
    OutSame msk s0 (execOwnerWrite r u v s) := by
  unfold execOwnerWrite; try dsimp only
  repeat' first
    | with_reducible first
      | assumption | exact sub_trans hmsk rfl | apply OutSame.next | apply State.access_same
      | apply writeOwner_same
    | intro _
    | split
    | dsimp only

theorem writeGrpOwner_same {msk : List Fld} {s0 : State} (g : _) (v : _) {s : State} (hs : SameBut msk s0 s)
    (hmsk : sub [.regs] msk = true) :
    SameBut msk s0 (writeGrpOwner g v s) := by
  unfold writeGrpOwner; try dsimp only
  repeat' first
    | with_reducible first
      | assumption | exact sub_trans hmsk rfl | apply State.setBit_same | apply State.setFld_same
      | apply State.wrRej_same
    | intro _
    | split
    | dsimp only

/-! ### Debug -/

theorem cntSampleCmd_same {msk : List Fld} {s0 : State} (r : _) (k : _) {s : State} (hs : SameBut msk s0 s)
    (hmsk : sub [.cnts] msk = true) :
    SameBut msk s0 (cntSampleCmd r k s) := by
  unfold cntSampleCmd; try dsimp only
  repeat' first
    | with_reducible first
      | assumption | exact sub_trans hmsk rfl | apply State.cntSwitch_same
    | intro _
    | split
    | dsimp only

theorem execCntSample_same {msk : List Fld} {s0 : State} (r : _) (set : _) {s : State} (hs : SameBut msk s0 s)
    (hmsk : sub [.regs, .cores, .dbg, .cnts] msk = true) :
    OutSame msk s0 (execCntSample r set s) := by
  unfold execCntSample; try dsimp only
  repeat' first
    | with_reducible first
      | assumption | exact sub_trans hmsk rfl | apply OutSame.next | apply State.access_same
      | apply cntSampleCmd_same
    | intro _
    | split
    | dsimp only

theorem State.updUnit_same {msk : List Fld} {s0 : State} {s : State} (u : _) (f : _) (hs : SameBut msk s0 s)
    (hmsk : sub [.dbg] msk = true) :
    SameBut msk s0 (State.updUnit s u f) := by
  unfold State.updUnit; try dsimp only
  repeat' first
    | with_reducible first
      | assumption | exact sub_trans hmsk rfl
    | intro _
    | split
    | with_reducible apply SameBut.lit_dbg
    | dsimp only

theorem soundingCmd_same {msk : List Fld} {s0 : State} {s : State} (hs : SameBut msk s0 s)
    (hmsk : sub [.regs, .dbg] msk = true) :
    SameBut msk s0 (soundingCmd s) := by
  unfold soundingCmd; try dsimp only
  repeat' first
    | with_reducible first
      | assumption | exact sub_trans hmsk rfl | apply State.setBit_same | apply State.setFld_same
    | intro _
    | split
    | with_reducible apply SameBut.lit_dbg
    | dsimp only

theorem execSoundingGo_same {msk : List Fld} {s0 : State} (r : _) {s : State} (hs : SameBut msk s0 s)
    (hmsk : sub [.regs, .cores, .dbg, .cnts] msk = true) :
    OutSame msk s0 (execSoundingGo r s) := by
  unfold execSoundingGo; try dsimp only
  repeat' first
    | with_reducible first
      | assumption | exact sub_trans hmsk rfl | apply OutSame.next | apply State.access_same
      | apply soundingCmd_same
    | intro _
    | split
    | dsimp only

theorem State.beginStop_same {msk : List Fld} {s0 : State} {s : State} (hs : SameBut msk s0 s)
    (hmsk : sub [.regs, .dbg, .cnts] msk = true) :
    SameBut msk s0 (State.beginStop s) := by
  unfold State.beginStop; try dsimp only
  repeat' first
    | with_reducible first
      | assumption | exact sub_trans hmsk rfl | apply State.count_same | apply State.setFld_same
    | intro _
    | split
    | with_reducible apply SameBut.lit_dbg
    | dsimp only

theorem stopCmd_same {msk : List Fld} {s0 : State} {s : State} (hs : SameBut msk s0 s)
    (hmsk : sub [.regs, .dbg, .cnts] msk = true) :
    SameBut msk s0 (stopCmd s) := by
  unfold stopCmd; try dsimp only
  repeat' first
    | with_reducible first
      | assumption | exact sub_trans hmsk rfl | apply State.beginStop_same | apply State.setBit_same
    | intro _
    | split
    | with_reducible apply SameBut.lit_dbg
    | dsimp only

theorem execStopGo_same {msk : List Fld} {s0 : State} (r : _) {s : State} (hs : SameBut msk s0 s)
    (hmsk : sub [.regs, .cores, .dbg, .cnts] msk = true) :
    OutSame msk s0 (execStopGo r s) := by
  unfold execStopGo; try dsimp only
  repeat' first
    | with_reducible first
      | assumption | exact sub_trans hmsk rfl | apply OutSame.next | apply State.access_same | apply stopCmd_same
    | intro _
    | split
    | dsimp only

theorem soundingEnd_same {msk : List Fld} {s0 : State} {s : State} (hs : SameBut msk s0 s)
    (hmsk : sub [.regs, .dbg, .cnts] msk = true) :
    SameBut msk s0 (soundingEnd s) := by
  unfold soundingEnd; try dsimp only
  repeat' first
    | with_reducible first
      | assumption | exact sub_trans hmsk rfl | apply State.beginStop_same | apply State.setFld_same
    | intro _
    | split
    | with_reducible apply SameBut.lit_dbg
    | dsimp only

theorem execSoundingDone_same {msk : List Fld} {s0 : State} {s : State} (hs : SameBut msk s0 s)
    (hmsk : sub [.regs, .dbg, .cnts] msk = true) :
    OutSame msk s0 (execSoundingDone s) := by
  unfold execSoundingDone; try dsimp only
  repeat' first
    | with_reducible first
      | assumption | exact sub_trans hmsk rfl | apply OutSame.next | apply soundingEnd_same
    | intro _
    | split
    | dsimp only

theorem State.checkStopped_same {msk : List Fld} {s0 : State} {s : State} (hs : SameBut msk s0 s)
    (hmsk : sub [.regs] msk = true) :
    SameBut msk s0 (State.checkStopped s) := by
  unfold State.checkStopped; try dsimp only
  repeat' first
    | with_reducible first
      | assumption | exact sub_trans hmsk rfl | apply State.setFld_same | apply State.setReg_same
    | intro _
    | split
    | dsimp only

theorem markerIn_same {msk : List Fld} {s0 : State} (u : _) (i : _) (stop : _) {s : State} (hs : SameBut msk s0 s)
    (hmsk : sub [.regs, .dbg, .cnts] msk = true) :
    SameBut msk s0 (markerIn u i stop s) := by
  unfold markerIn; try dsimp only
  repeat' first
    | with_reducible first
      | assumption | exact sub_trans hmsk rfl | apply State.checkStopped_same | apply State.count_same
      | apply State.updUnit_same
    | intro _
    | split
    | dsimp only

theorem execMarkerToken_same {msk : List Fld} {s0 : State} (u : _) (input : _) (stop : _) {s : State} (hs : SameBut msk s0 s)
    (hmsk : sub [.regs, .dbg, .cnts] msk = true) :
    OutSame msk s0 (execMarkerToken u input stop s) := by
  unfold execMarkerToken; try dsimp only
  repeat' first
    | with_reducible first
      | assumption | exact sub_trans hmsk rfl | apply OutSame.next | apply markerIn_same
    | intro _
    | split
    | dsimp only

theorem execMarkerPacket_same {msk : List Fld} {s0 : State} (u : _) (input : _) (stop : _) {s : State} (hs : SameBut msk s0 s)
    (hmsk : sub [.regs, .dbg, .cnts] msk = true) :
    OutSame msk s0 (execMarkerPacket u input stop s) := by
  unfold execMarkerPacket; try dsimp only
  repeat' first
    | with_reducible first
      | assumption | exact sub_trans hmsk rfl | apply OutSame.next | apply markerIn_same
    | intro _
    | split
    | dsimp only

theorem State.snapshot_same {msk : List Fld} {s0 : State} {s : State} (u : _) (forced : _) (hs : SameBut msk s0 s)
    (hmsk : sub [.dbg, .wire] msk = true) :
    SameBut msk s0 (State.snapshot s u forced) := by
  unfold State.snapshot; try dsimp only
  repeat' first
    | with_reducible first
      | assumption | exact sub_trans hmsk rfl | apply State.send_same | apply State.updUnit_same
    | intro _
    | split
    | with_reducible apply SameBut.lit_dbg
    | dsimp only

theorem execUnitSnapshot_same {msk : List Fld} {s0 : State} (u : _) {s : State} (hs : SameBut msk s0 s)
    (hmsk : sub [.regs, .dbg, .wire] msk = true) :
    OutSame msk s0 (execUnitSnapshot u s) := by
  unfold execUnitSnapshot; try dsimp only
  repeat' first
    | with_reducible first
      | assumption | exact sub_trans hmsk rfl | apply OutSame.next | apply State.checkStopped_same
      | apply State.snapshot_same
    | intro _
    | split
    | dsimp only

theorem markerLate_same {msk : List Fld} {s0 : State} (u : _) (i : _) {s : State} (hs : SameBut msk s0 s)
    (hmsk : sub [.regs, .dbg] msk = true) :
    SameBut msk s0 (markerLate u i s) := by
  unfold markerLate; try dsimp only
  repeat' first
    | with_reducible first
      | assumption | exact sub_trans hmsk rfl | apply State.checkStopped_same | apply State.updUnit_same
    | intro _
    | split
    | dsimp only

theorem execMarkerTimeout_same {msk : List Fld} {s0 : State} (u : _) (input : _) {s : State} (hs : SameBut msk s0 s)
    (hmsk : sub [.regs, .dbg] msk = true) :
    OutSame msk s0 (execMarkerTimeout u input s) := by
  unfold execMarkerTimeout; try dsimp only
  repeat' first
    | with_reducible first
      | assumption | exact sub_trans hmsk rfl | apply OutSame.next | apply markerLate_same
    | intro _
    | split
    | dsimp only

theorem forceStop_same {msk : List Fld} {s0 : State} {s : State} (hs : SameBut msk s0 s)
    (hmsk : sub [.regs, .dbg, .wire] msk = true) :
    SameBut msk s0 (forceStop s) := by
  unfold forceStop; try dsimp only
  repeat' first
    | with_reducible first
      | assumption | exact sub_trans hmsk rfl | apply SameBut.foldl | apply SameBut.foldl1
      | apply SameBut.foldlDev | apply SameBut.foldlMv | apply SameBut.foldlDn | apply State.checkStopped_same
      | apply State.snapshot_same
    | intro _
    | split
    | dsimp only

theorem execStopForce_same {msk : List Fld} {s0 : State} {s : State} (hs : SameBut msk s0 s)
    (hmsk : sub [.regs, .dbg, .wire] msk = true) :
    OutSame msk s0 (execStopForce s) := by
  unfold execStopForce; try dsimp only
  repeat' first
    | with_reducible first
      | assumption | exact sub_trans hmsk rfl | apply OutSame.next | apply forceStop_same
    | intro _
    | split
    | dsimp only

theorem State.heldReset_same {msk : List Fld} {s0 : State} {s : State} (r : _) (hs : SameBut msk s0 s)
    (hmsk : sub [.parts, .cores, .faults, .dbg, .wire] msk = true) :
    SameBut msk s0 (State.heldReset s r) := by
  unfold State.heldReset; try dsimp only
  repeat' first
    | with_reducible first
      | assumption | exact sub_trans hmsk rfl | apply State.beginReset_same | apply State.resetPart_same
    | intro _
    | split
    | dsimp only

theorem releaseStop_same {msk : List Fld} {s0 : State} {s : State} (hs : SameBut msk s0 s)
    (hmsk : sub [.regs, .plots, .chans, .slices, .norias, .dram, .chk, .net, .reqTabs, .stks, .parts, .rings, .funcs, .errs, .xngs, .groups, .coll, .cores, .caches, .faults, .dbg, .cnts, .wire] msk = true) :
    SameBut msk s0 (releaseStop s) := by
  unfold releaseStop; try dsimp only
  repeat' first
    | with_reducible first
      | assumption | exact sub_trans hmsk rfl | apply SameBut.foldl | apply SameBut.foldl1
      | apply SameBut.foldlDev | apply SameBut.foldlMv | apply SameBut.foldlDn | apply State.checkLost_same
      | apply State.ctrAdd_same | apply State.deliver_same | apply State.heldReset_same
      | apply State.serveWaiting_same | apply State.setFld_same | apply hostReadDone_same
    | intro _
    | split
    | with_reducible (apply SameBut.lit <;> first | exact Or.inl rfl | exact Or.inr (sub_trans hmsk rfl) | skip)
    | dsimp only

theorem releaseCmd_same {msk : List Fld} {s0 : State} {s : State} (hs : SameBut msk s0 s)
    (hmsk : sub [.regs, .plots, .chans, .slices, .norias, .dram, .chk, .net, .reqTabs, .stks, .parts, .rings, .funcs, .errs, .xngs, .groups, .coll, .cores, .caches, .faults, .dbg, .cnts, .wire] msk = true) :
    SameBut msk s0 (releaseCmd s) := by
  unfold releaseCmd; try dsimp only
  repeat' first
    | with_reducible first
      | assumption | exact sub_trans hmsk rfl | apply releaseStop_same
    | intro _
    | split
    | dsimp only

theorem execStopRelease_same {msk : List Fld} {s0 : State} (r : _) {s : State} (hs : SameBut msk s0 s)
    (hmsk : sub [.regs, .plots, .chans, .slices, .norias, .dram, .chk, .net, .reqTabs, .stks, .parts, .rings, .funcs, .errs, .xngs, .groups, .coll, .cores, .caches, .faults, .dbg, .cnts, .wire] msk = true) :
    OutSame msk s0 (execStopRelease r s) := by
  unfold execStopRelease; try dsimp only
  repeat' first
    | with_reducible first
      | assumption | exact sub_trans hmsk rfl | apply OutSame.next | apply State.access_same
      | apply releaseCmd_same
    | intro _
    | split
    | dsimp only

theorem recSel_same {msk : List Fld} {s0 : State} (v : _) {s : State} (hs : SameBut msk s0 s)
    (hmsk : sub [.regs] msk = true) :
    SameBut msk s0 (recSel v s) := by
  unfold recSel; try dsimp only
  repeat' first
    | with_reducible first
      | assumption | exact sub_trans hmsk rfl | apply State.setFld_same
    | intro _
    | split
    | dsimp only

theorem execDbgRecSel_same {msk : List Fld} {s0 : State} (r : _) (v : _) {s : State} (hs : SameBut msk s0 s)
    (hmsk : sub [.regs, .cores, .dbg, .cnts] msk = true) :
    OutSame msk s0 (execDbgRecSel r v s) := by
  unfold execDbgRecSel; try dsimp only
  repeat' first
    | with_reducible first
      | assumption | exact sub_trans hmsk rfl | apply OutSame.next | apply State.access_same | apply recSel_same
    | intro _
    | split
    | dsimp only

theorem recReady_same {msk : List Fld} {s0 : State} {s : State} (hs : SameBut msk s0 s)
    (hmsk : sub [.regs, .dbg] msk = true) :
    SameBut msk s0 (recReady s) := by
  unfold recReady; try dsimp only
  repeat' first
    | with_reducible first
      | assumption | exact sub_trans hmsk rfl | apply State.setFld_same
    | intro _
    | split
    | with_reducible apply SameBut.lit_dbg
    | dsimp only

theorem execDbgRecReady_same {msk : List Fld} {s0 : State} {s : State} (hs : SameBut msk s0 s)
    (hmsk : sub [.regs, .dbg] msk = true) :
    OutSame msk s0 (execDbgRecReady s) := by
  unfold execDbgRecReady; try dsimp only
  repeat' first
    | with_reducible first
      | assumption | exact sub_trans hmsk rfl | apply OutSame.next | apply recReady_same
    | intro _
    | split
    | dsimp only

theorem wpFire_same {msk : List Fld} {s0 : State} (n : _) {s : State} (hs : SameBut msk s0 s)
    (hmsk : sub [.regs, .dbg, .cnts] msk = true) :
    SameBut msk s0 (wpFire n s) := by
  unfold wpFire; try dsimp only
  repeat' first
    | with_reducible first
      | assumption | exact sub_trans hmsk rfl | apply soundingCmd_same | apply stopCmd_same
    | intro _
    | split
    | with_reducible apply SameBut.lit_dbg
    | dsimp only

theorem execWatchPointFire_same {msk : List Fld} {s0 : State} (n : _) {s : State} (hs : SameBut msk s0 s)
    (hmsk : sub [.regs, .dbg, .cnts] msk = true) :
    OutSame msk s0 (execWatchPointFire n s) := by
  unfold execWatchPointFire; try dsimp only
  repeat' first
    | with_reducible first
      | assumption | exact sub_trans hmsk rfl | apply OutSame.next | apply wpFire_same
    | intro _
    | split
    | dsimp only

/-! ### Functions -/

theorem State.xngStopped_same {msk : List Fld} {s0 : State} {s : State} (n : _) (hs : SameBut msk s0 s)
    (hmsk : sub [.xngs] msk = true) :
    SameBut msk s0 (State.xngStopped s n) := by
  unfold State.xngStopped; try dsimp only
  repeat' first
    | with_reducible first
      | assumption | exact sub_trans hmsk rfl | apply State.updXng_same | apply State.xngDark_same
    | intro _
    | split
    | dsimp only

theorem State.expireXng_same {msk : List Fld} {s0 : State} {s : State} (n : _) (hs : SameBut msk s0 s)
    (hmsk : sub [.regs, .slices, .dram, .chk, .net, .errs, .xngs, .eps, .coll, .cores, .caches, .cnts, .wire] msk = true) :
    SameBut msk s0 (State.expireXng s n) := by
  unfold State.expireXng; try dsimp only
  repeat' first
    | with_reducible first
      | assumption | exact sub_trans hmsk rfl | apply State.updXng_same | apply State.xngDark_same
      | apply State.xngDown_same
    | intro _
    | split
    | dsimp only

theorem xngSetEn_same {msk : List Fld} {s0 : State} (n : _) {s : State} (hs : SameBut msk s0 s)
    (hmsk : sub [.regs, .xngs] msk = true) :
    SameBut msk s0 (xngSetEn n s) := by
  unfold xngSetEn; try dsimp only
  repeat' first
    | with_reducible first
      | assumption | exact sub_trans hmsk rfl | apply State.setBit_same | apply State.updXng_same
      | apply State.xngDetect_same
    | intro _
    | split
    | dsimp only

theorem xngClrEn_same {msk : List Fld} {s0 : State} (n : _) {s : State} (hs : SameBut msk s0 s)
    (hmsk : sub [.regs, .slices, .dram, .chk, .net, .errs, .xngs, .eps, .coll, .cores, .caches, .cnts, .wire] msk = true) :
    SameBut msk s0 (xngClrEn n s) := by
  unfold xngClrEn; try dsimp only
  repeat' first
    | with_reducible first
      | assumption | exact sub_trans hmsk rfl | apply State.clrBit_same | apply State.expireXng_same
      | apply State.updXng_same
    | intro _
    | split
    | dsimp only

theorem State.expireEp_same {msk : List Fld} {s0 : State} {s : State} (e : _) (hs : SameBut msk s0 s)
    (hmsk : sub [.regs, .slices, .dram, .chk, .net, .errs, .eps, .cores, .caches, .cnts, .wire] msk = true) :
    SameBut msk s0 (State.expireEp s e) := by
  unfold State.expireEp; try dsimp only
  repeat' first
    | with_reducible first
      | assumption | exact sub_trans hmsk rfl | apply SameBut.foldl | apply SameBut.foldl1
      | apply SameBut.foldlDev | apply SameBut.foldlMv | apply SameBut.foldlDn | apply State.endColl_same
      | apply State.epStopped_same | apply State.setBit_same
    | intro _
    | split
    | dsimp only

theorem epSetEn_same {msk : List Fld} {s0 : State} (e : _) {s : State} (hs : SameBut msk s0 s)
    (hmsk : sub [.regs, .eps] msk = true) :
    SameBut msk s0 (epSetEn e s) := by
  unfold epSetEn; try dsimp only
  repeat' first
    | with_reducible first
      | assumption | exact sub_trans hmsk rfl | apply State.setBit_same | apply State.updEp_same
    | intro _
    | split
    | dsimp only

theorem epClrEn_same {msk : List Fld} {s0 : State} (e : _) {s : State} (hs : SameBut msk s0 s)
    (hmsk : sub [.regs, .slices, .dram, .chk, .net, .errs, .eps, .cores, .caches, .cnts, .wire] msk = true) :
    SameBut msk s0 (epClrEn e s) := by
  unfold epClrEn; try dsimp only
  repeat' first
    | with_reducible first
      | assumption | exact sub_trans hmsk rfl | apply State.clrBit_same | apply State.expireEp_same
      | apply State.updEp_same
    | intro _
    | split
    | dsimp only

theorem funcSetEn_same {msk : List Fld} {s0 : State} (u : _) {s : State} (hs : SameBut msk s0 s)
    (hmsk : sub [.regs, .plots, .chans, .parts, .rings, .xngs, .eps, .cores, .media, .wire] msk = true) :
    SameBut msk s0 (funcSetEn u s) := by
  unfold funcSetEn; try dsimp only
  repeat' first
    | with_reducible first
      | assumption | exact sub_trans hmsk rfl | apply chanSetEn_same | apply epSetEn_same | apply medSetEn_same
      | apply partSetEn_same | apply queueSetEn_same | apply ringSetEn_same | apply xngSetEn_same
    | intro _
    | split
    | dsimp only

theorem funcClrEn_same {msk : List Fld} {s0 : State} (u : _) {s : State} (hs : SameBut msk s0 s)
    (hmsk : sub [.freeCtr, .regs, .plots, .chans, .slices, .norias, .dram, .chk, .net, .reqTabs, .stks, .parts, .rings, .funcs, .errs, .xngs, .eps, .groups, .coll, .cores, .caches, .media, .faults, .dbg, .cnts, .wire] msk = true) :
    SameBut msk s0 (funcClrEn u s) := by
  unfold funcClrEn; try dsimp only
  repeat' first
    | with_reducible first
      | assumption | exact sub_trans hmsk rfl | apply chanClrEn_same | apply epClrEn_same | apply medClrEn_same
      | apply partClrEn_same | apply queueStop_same | apply ringClrEn_same | apply xngClrEn_same
    | intro _
    | split
    | dsimp only

theorem funcStopped_same {msk : List Fld} {s0 : State} (u : _) {s : State} (hs : SameBut msk s0 s)
    (hmsk : sub [.plots, .chans, .parts, .rings, .xngs, .eps, .cores, .media, .wire] msk = true) :
    SameBut msk s0 (funcStopped u s) := by
  unfold funcStopped; try dsimp only
  repeat' first
    | with_reducible first
      | assumption | exact sub_trans hmsk rfl | apply State.chanStopped_same | apply State.epStopped_same
      | apply State.medStopped_same | apply State.partStopped_same | apply State.queueStopped_same
      | apply State.ringStopped_same | apply State.xngStopped_same
    | intro _
    | split
    | dsimp only

theorem funcExpire_same {msk : List Fld} {s0 : State} (u : _) {s : State} (hs : SameBut msk s0 s)
    (hmsk : sub [.freeCtr, .regs, .plots, .chans, .slices, .norias, .dram, .chk, .net, .reqTabs, .stks, .parts, .rings, .funcs, .errs, .xngs, .eps, .groups, .coll, .cores, .caches, .media, .faults, .dbg, .cnts, .wire] msk = true) :
    SameBut msk s0 (funcExpire u s) := by
  unfold funcExpire; try dsimp only
  repeat' first
    | with_reducible first
      | assumption | exact sub_trans hmsk rfl | apply State.expireChan_same | apply State.expireEp_same
      | apply State.expireMed_same | apply State.expirePart_same | apply State.expireQueue_same
      | apply State.expireRing_same | apply State.expireXng_same
    | intro _
    | split
    | dsimp only

theorem execFunctionSetEn_same {msk : List Fld} {s0 : State} (r : _) (u : _) {s : State} (hs : SameBut msk s0 s)
    (hmsk : sub [.regs, .plots, .chans, .parts, .rings, .xngs, .eps, .cores, .media, .dbg, .cnts, .wire] msk = true) :
    OutSame msk s0 (execFunctionSetEn r u s) := by
  unfold execFunctionSetEn; try dsimp only
  repeat' first
    | with_reducible first
      | assumption | exact sub_trans hmsk rfl | apply OutSame.next | apply State.access_same
      | apply funcSetEn_same
    | intro _
    | split
    | dsimp only

theorem execFunctionClrEn_same {msk : List Fld} {s0 : State} (r : _) (u : _) {s : State} (hs : SameBut msk s0 s)
    (hmsk : sub [.freeCtr, .regs, .plots, .chans, .slices, .norias, .dram, .chk, .net, .reqTabs, .stks, .parts, .rings, .funcs, .errs, .xngs, .eps, .groups, .coll, .cores, .caches, .media, .faults, .dbg, .cnts, .wire] msk = true) :
    OutSame msk s0 (execFunctionClrEn r u s) := by
  unfold execFunctionClrEn; try dsimp only
  repeat' first
    | with_reducible first
      | assumption | exact sub_trans hmsk rfl | apply OutSame.next | apply State.access_same
      | apply funcClrEn_same
    | intro _
    | split
    | dsimp only

theorem execFunctionStopped_same {msk : List Fld} {s0 : State} (u : _) {s : State} (hs : SameBut msk s0 s)
    (hmsk : sub [.plots, .chans, .parts, .rings, .xngs, .eps, .cores, .media, .wire] msk = true) :
    OutSame msk s0 (execFunctionStopped u s) := by
  unfold execFunctionStopped; try dsimp only
  repeat' first
    | with_reducible first
      | assumption | exact sub_trans hmsk rfl | apply OutSame.next | apply funcStopped_same
    | intro _
    | split
    | dsimp only

theorem execDrainLimitExpiry_same {msk : List Fld} {s0 : State} (u : _) {s : State} (hs : SameBut msk s0 s)
    (hmsk : sub [.freeCtr, .regs, .plots, .chans, .slices, .norias, .dram, .chk, .net, .reqTabs, .stks, .parts, .rings, .funcs, .errs, .xngs, .eps, .groups, .coll, .cores, .caches, .media, .faults, .dbg, .cnts, .wire] msk = true) :
    OutSame msk s0 (execDrainLimitExpiry u s) := by
  unfold execDrainLimitExpiry; try dsimp only
  repeat' first
    | with_reducible first
      | assumption | exact sub_trans hmsk rfl | apply OutSame.next | apply funcExpire_same
    | intro _
    | split
    | dsimp only

/-! ### Window -/

theorem nwinPush_same {msk : List Fld} {s0 : State} (n : _) {s : State} (hs : SameBut msk s0 s)
    (hmsk : sub [.regs, .parts] msk = true) :
    SameBut msk s0 (nwinPush n s) := by
  unfold nwinPush; try dsimp only
  repeat' first
    | with_reducible first
      | assumption | exact sub_trans hmsk rfl | apply State.setBit_same | apply State.setPart_same
    | intro _
    | split
    | dsimp only

theorem execNwinPush_same {msk : List Fld} {s0 : State} (r : _) (n : _) {s : State} (hs : SameBut msk s0 s)
    (hmsk : sub [.regs, .parts, .cores, .dbg, .cnts] msk = true) :
    OutSame msk s0 (execNwinPush r n s) := by
  unfold execNwinPush; try dsimp only
  repeat' first
    | with_reducible first
      | assumption | exact sub_trans hmsk rfl | apply OutSame.next | apply State.access_same | apply nwinPush_same
    | intro _
    | split
    | dsimp only

theorem State.unholdWin_same {msk : List Fld} {s0 : State} {s : State} (n : _) (hs : SameBut msk s0 s)
    (hmsk : sub [.parts, .cores, .wire] msk = true) :
    SameBut msk s0 (State.unholdWin s n) := by
  unfold State.unholdWin; try dsimp only
  repeat' first
    | with_reducible first
      | assumption | exact sub_trans hmsk rfl | apply SameBut.foldl | apply SameBut.foldl1
      | apply SameBut.foldlDev | apply SameBut.foldlMv | apply SameBut.foldlDn | apply State.updPart_same
      | apply State.winRecord_same
    | intro _
    | split
    | dsimp only

theorem popWin_same {msk : List Fld} {s0 : State} (n : _) {s : State} (hs : SameBut msk s0 s)
    (hmsk : sub [.reply, .parts, .cores, .wire] msk = true) :
    SameBut msk s0 (popWin n s) := by
  unfold popWin; try dsimp only
  repeat' first
    | with_reducible first
      | assumption | exact sub_trans hmsk rfl | apply State.answer_same | apply State.unholdWin_same
      | apply State.updPart_same
    | intro _
    | split
    | dsimp only

theorem execNwinCplPop_same {msk : List Fld} {s0 : State} (r : _) (n : _) {s : State} (hs : SameBut msk s0 s)
    (hmsk : sub [.freeCtr, .reply, .regs, .parts, .cores, .dbg, .cnts, .wire] msk = true) :
    OutSame msk s0 (execNwinCplPop r n s) := by
  unfold execNwinCplPop; try dsimp only
  repeat' first
    | with_reducible first
      | assumption | exact sub_trans hmsk rfl | apply OutSame.next | apply State.readAccess_same
      | apply popWin_same
    | intro _
    | split
    | dsimp only

/-! ### Thermal -/

theorem sensorSample_same {msk : List Fld} {s0 : State} (die : _) (i : _) (raw : _) (t : _) {s : State} (hs : SameBut msk s0 s)
    (hmsk : sub [.regs, .sensors, .errs, .cores, .cnts, .wire] msk = true) :
    SameBut msk s0 (sensorSample die i raw t s) := by
  unfold sensorSample; try dsimp only
  repeat' first
    | with_reducible first
      | assumption | exact sub_trans hmsk rfl | apply State.alert_same | apply State.report_same
      | apply State.sensorIgnored_same | apply State.updSensor_same
    | intro _
    | split
    | dsimp only

theorem execSensorSample_same {msk : List Fld} {s0 : State} (die : _) (i : _) (raw : _) (temp : _) {s : State} (hs : SameBut msk s0 s)
    (hmsk : sub [.regs, .sensors, .errs, .cores, .cnts, .wire] msk = true) :
    OutSame msk s0 (execSensorSample die i raw temp s) := by
  unfold execSensorSample; try dsimp only
  repeat' first
    | with_reducible first
      | assumption | exact sub_trans hmsk rfl | apply OutSame.next | apply sensorSample_same
    | intro _
    | split
    | dsimp only

theorem execSensorMean100ms_same {msk : List Fld} {s0 : State} (st : _) (i : _) {s : State} (hs : SameBut msk s0 s)
    (hmsk : sub [.regs, .sensors, .errs, .cores, .wire] msk = true) :
    OutSame msk s0 (execSensorMean100ms st i s) := by
  unfold execSensorMean100ms; try dsimp only
  repeat' first
    | with_reducible first
      | assumption | exact sub_trans hmsk rfl | apply OutSame.next | apply State.sensorIgnored_same
      | apply State.updSensor_same
    | intro _
    | split
    | dsimp only

theorem State.trip_same {msk : List Fld} {s0 : State} {s : State} (hs : SameBut msk s0 s)
    (hmsk : sub [.clocksOff, .pins, .stks] msk = true) :
    SameBut msk s0 (State.trip s) := by
  unfold State.trip; try dsimp only
  repeat' first
    | with_reducible first
      | assumption | exact sub_trans hmsk rfl | apply SameBut.foldl | apply SameBut.foldl1
      | apply SameBut.foldlDev | apply SameBut.foldlMv | apply SameBut.foldlDn | apply State.updStk_same
    | intro _
    | split
    | with_reducible (apply SameBut.lit <;> first | exact Or.inl rfl | exact Or.inr (sub_trans hmsk rfl) | skip)
    | dsimp only

theorem execHardLimitTrip_same {msk : List Fld} {s0 : State} {s : State} (hs : SameBut msk s0 s)
    (hmsk : sub [.clocksOff, .pins, .stks] msk = true) :
    OutSame msk s0 (execHardLimitTrip s) := by
  unfold execHardLimitTrip; try dsimp only
  repeat' first
    | with_reducible first
      | assumption | exact sub_trans hmsk rfl | apply OutSame.next | apply State.trip_same
    | intro _
    | split
    | dsimp only

theorem execAnalogueComparatorTrip_same {msk : List Fld} {s0 : State} (die : _) {s : State} (hs : SameBut msk s0 s)
    (hmsk : sub [.clocksOff, .pins, .stks] msk = true) :
    OutSame msk s0 (execAnalogueComparatorTrip die s) := by
  unfold execAnalogueComparatorTrip; try dsimp only
  repeat' first
    | with_reducible first
      | assumption | exact sub_trans hmsk rfl | apply OutSame.next | apply State.trip_same
    | intro _
    | split
    | dsimp only

theorem State.sensorsLost_same {msk : List Fld} {s0 : State} {s : State} (st : _) (hs : SameBut msk s0 s)
    (hmsk : sub [.regs, .stks, .cores, .cnts, .wire] msk = true) :
    SameBut msk s0 (State.sensorsLost s st) := by
  unfold State.sensorsLost; try dsimp only
  repeat' first
    | with_reducible first
      | assumption | exact sub_trans hmsk rfl | apply State.alert_same | apply State.updStk_same
    | intro _
    | split
    | dsimp only

theorem State.pairCheck_same {msk : List Fld} {s0 : State} {s : State} (st : _) (hs : SameBut msk s0 s)
    (hmsk : sub [.regs, .stks, .errs, .cores, .wire] msk = true) :
    SameBut msk s0 (State.pairCheck s st) := by
  unfold State.pairCheck; try dsimp only
  repeat' first
    | with_reducible first
      | assumption | exact sub_trans hmsk rfl | apply State.clrBit_same | apply State.report_same
      | apply State.setBit_same | apply State.updStk_same
    | intro _
    | split
    | dsimp only

theorem State.setBand_same {msk : List Fld} {s0 : State} {s : State} (st : _) (b : _) (hs : SameBut msk s0 s)
    (hmsk : sub [.regs, .stks, .errs, .cores, .cnts, .wire] msk = true) :
    SameBut msk s0 (State.setBand s st b) := by
  unfold State.setBand; try dsimp only
  repeat' first
    | with_reducible first
      | assumption | exact sub_trans hmsk rfl | apply State.alert_same | apply State.report_same
      | apply State.setBit_same | apply State.setFld_same | apply State.updStk_same
    | intro _
    | split
    | dsimp only

theorem thermalLoop_same {msk : List Fld} {s0 : State} (st : _) {s : State} (hs : SameBut msk s0 s)
    (hmsk : sub [.regs, .stks, .errs, .cores, .cnts, .wire] msk = true) :
    SameBut msk s0 (thermalLoop st s) := by
  unfold thermalLoop; try dsimp only
  repeat' first
    | with_reducible first
      | assumption | exact sub_trans hmsk rfl | apply State.pairCheck_same | apply State.sensorsLost_same
      | apply State.setBand_same | apply State.setFld_same | apply State.updStk_same
    | intro _
    | split
    | dsimp only

theorem execThermalLoop_same {msk : List Fld} {s0 : State} (st : _) {s : State} (hs : SameBut msk s0 s)
    (hmsk : sub [.regs, .stks, .errs, .cores, .cnts, .wire] msk = true) :
    OutSame msk s0 (execThermalLoop st s) := by
  unfold execThermalLoop; try dsimp only
  repeat' first
    | with_reducible first
      | assumption | exact sub_trans hmsk rfl | apply OutSame.next | apply thermalLoop_same
    | intro _
    | split
    | dsimp only

theorem State.countGov_same {msk : List Fld} {s0 : State} {s : State} (st : _) (hs : SameBut msk s0 s)
    (hmsk : sub [.regs, .cnts] msk = true) :
    SameBut msk s0 (State.countGov s st) := by
  unfold State.countGov; try dsimp only
  repeat' first
    | with_reducible first
      | assumption | exact sub_trans hmsk rfl | apply State.count_same
    | intro _
    | split
    | dsimp only

theorem powerEstimate_same {msk : List Fld} {s0 : State} (st : _) (mw : _) {s : State} (hs : SameBut msk s0 s)
    (hmsk : sub [.regs, .stks, .cnts] msk = true) :
    SameBut msk s0 (powerEstimate st mw s) := by
  unfold powerEstimate; try dsimp only
  repeat' first
    | with_reducible first
      | assumption | exact sub_trans hmsk rfl | apply State.countGov_same | apply State.setFld_same
      | apply State.updStk_same
    | intro _
    | split
    | dsimp only

theorem execPowerEstimate_same {msk : List Fld} {s0 : State} (st : _) (mw : _) {s : State} (hs : SameBut msk s0 s)
    (hmsk : sub [.regs, .stks, .cnts] msk = true) :
    OutSame msk s0 (execPowerEstimate st mw s) := by
  unfold execPowerEstimate; try dsimp only
  repeat' first
    | with_reducible first
      | assumption | exact sub_trans hmsk rfl | apply OutSame.next | apply powerEstimate_same
    | intro _
    | split
    | dsimp only

theorem execAdaptiveLevelLower_same {msk : List Fld} {s0 : State} (st : _) {s : State} (hs : SameBut msk s0 s)
    (hmsk : sub [.stks] msk = true) :
    OutSame msk s0 (execAdaptiveLevelLower st s) := by
  unfold execAdaptiveLevelLower; try dsimp only
  repeat' first
    | with_reducible first
      | assumption | exact sub_trans hmsk rfl | apply OutSame.next | apply State.updStk_same
    | intro _
    | split
    | dsimp only

theorem execStartPermitGrant_same {msk : List Fld} {s0 : State} (st : _) (p : _) (t : _) {s : State} (hs : SameBut msk s0 s)
    (hmsk : sub [.plots, .stks] msk = true) :
    OutSame msk s0 (execStartPermitGrant st p t s) := by
  unfold execStartPermitGrant; try dsimp only
  repeat' first
    | with_reducible first
      | assumption | exact sub_trans hmsk rfl | apply OutSame.next | apply State.updArr_same
      | apply State.updStk_same
    | intro _
    | split
    | dsimp only

theorem execPstateDecision_same {msk : List Fld} {s0 : State} (st : _) (ack : _) {s : State} (hs : SameBut msk s0 s)
    (hmsk : sub [.regs, .stks, .cores, .cnts, .wire] msk = true) :
    OutSame msk s0 (execPstateDecision st ack s) := by
  unfold execPstateDecision; try dsimp only
  repeat' first
    | with_reducible first
      | assumption | exact sub_trans hmsk rfl | apply OutSame.next | apply State.changePstate_same
      | apply State.updStk_same
    | intro _
    | split
    | dsimp only

theorem stepSettled_same {msk : List Fld} {s0 : State} (st : _) (ack : _) {s : State} (hs : SameBut msk s0 s)
    (hmsk : sub [.regs, .stks, .cores, .cnts, .wire] msk = true) :
    SameBut msk s0 (stepSettled st ack s) := by
  unfold stepSettled; try dsimp only
  repeat' first
    | with_reducible first
      | assumption | exact sub_trans hmsk rfl | apply State.sendStep_same | apply State.updStk_same
    | intro _
    | split
    | dsimp only

theorem execVoutStepSettled_same {msk : List Fld} {s0 : State} (st : _) (ack : _) {s : State} (hs : SameBut msk s0 s)
    (hmsk : sub [.regs, .stks, .cores, .cnts, .wire] msk = true) :
    OutSame msk s0 (execVoutStepSettled st ack s) := by
  unfold execVoutStepSettled; try dsimp only
  repeat' first
    | with_reducible first
      | assumption | exact sub_trans hmsk rfl | apply OutSame.next | apply stepSettled_same
    | intro _
    | split
    | dsimp only

theorem clockSwitch_same {msk : List Fld} {s0 : State} (st : _) (ack : _) {s : State} (hs : SameBut msk s0 s)
    (hmsk : sub [.regs, .stks, .cores, .cnts, .wire] msk = true) :
    SameBut msk s0 (clockSwitch st ack s) := by
  unfold clockSwitch; try dsimp only
  repeat' first
    | with_reducible first
      | assumption | exact sub_trans hmsk rfl | apply State.count_same | apply State.sendStep_same
      | apply State.setFld_same | apply State.updStk_same
    | intro _
    | split
    | dsimp only

theorem execClockSwitch_same {msk : List Fld} {s0 : State} (st : _) (ack : _) {s : State} (hs : SameBut msk s0 s)
    (hmsk : sub [.regs, .stks, .cores, .cnts, .wire] msk = true) :
    OutSame msk s0 (execClockSwitch st ack s) := by
  unfold execClockSwitch; try dsimp only
  repeat' first
    | with_reducible first
      | assumption | exact sub_trans hmsk rfl | apply OutSame.next | apply clockSwitch_same
    | intro _
    | split
    | dsimp only

theorem State.setCoolReg_same {msk : List Fld} {s0 : State} {s : State} (off : _) (x : _) (hs : SameBut msk s0 s)
    (hmsk : sub [.regs] msk = true) :
    SameBut msk s0 (State.setCoolReg s off x) := by
  unfold State.setCoolReg; try dsimp only
  repeat' first
    | with_reducible first
      | assumption | exact sub_trans hmsk rfl | apply State.clrBit_same | apply State.setBit_same
      | apply State.setFld_same
    | intro _
    | split
    | dsimp only

theorem State.coolAlert_same {msk : List Fld} {s0 : State} {s : State} (was : _) (now : _) (rpt : _) (cause : _) (hs : SameBut msk s0 s)
    (hmsk : sub [.regs, .errs, .cores, .cnts, .wire] msk = true) :
    SameBut msk s0 (State.coolAlert s was now rpt cause) := by
  unfold State.coolAlert; try dsimp only
  repeat' first
    | with_reducible first
      | assumption | exact sub_trans hmsk rfl | apply State.alert_same | apply State.report_same
    | intro _
    | split
    | dsimp only

theorem State.inletCheck_same {msk : List Fld} {s0 : State} {s : State} (inlet : _) (outlet : _) (hs : SameBut msk s0 s)
    (hmsk : sub [.regs, .coolant, .errs, .cores, .cnts, .wire] msk = true) :
    SameBut msk s0 (State.inletCheck s inlet outlet) := by
  unfold State.inletCheck; try dsimp only
  repeat' first
    | with_reducible first
      | assumption | exact sub_trans hmsk rfl | apply State.coolAlert_same
    | intro _
    | split
    | with_reducible apply SameBut.lit_coolant
    | dsimp only

theorem coolantRead_same {msk : List Fld} {s0 : State} (inlet : _) (outlet : _) {s : State} (hs : SameBut msk s0 s)
    (hmsk : sub [.regs, .coolant, .errs, .cores, .cnts, .wire] msk = true) :
    SameBut msk s0 (coolantRead inlet outlet s) := by
  unfold coolantRead; try dsimp only
  repeat' first
    | with_reducible first
      | assumption | exact sub_trans hmsk rfl | apply State.count_same | apply State.inletCheck_same
      | apply State.setCoolReg_same
    | intro _
    | split
    | with_reducible apply SameBut.lit_coolant
    | dsimp only

theorem execCoolantSensorRead_same {msk : List Fld} {s0 : State} (inlet : _) (outlet : _) {s : State} (hs : SameBut msk s0 s)
    (hmsk : sub [.regs, .coolant, .errs, .cores, .cnts, .wire] msk = true) :
    OutSame msk s0 (execCoolantSensorRead inlet outlet s) := by
  unfold execCoolantSensorRead; try dsimp only
  repeat' first
    | with_reducible first
      | assumption | exact sub_trans hmsk rfl | apply OutSame.next | apply coolantRead_same
    | intro _
    | split
    | dsimp only

theorem execFlowPulse_same {msk : List Fld} {s0 : State} {s : State} (hs : SameBut msk s0 s)
    (hmsk : sub [.regs, .coolant] msk = true) :
    OutSame msk s0 (execFlowPulse s) := by
  unfold execFlowPulse; try dsimp only
  repeat' first
    | with_reducible first
      | assumption | exact sub_trans hmsk rfl | apply OutSame.next | apply State.setBit_same
    | intro _
    | split
    | with_reducible apply SameBut.lit_coolant
    | dsimp only

theorem State.emergencyHalt_same {msk : List Fld} {s0 : State} {s : State} (cause : _) (code : _) (addr : _) (hs : SameBut msk s0 s)
    (hmsk : sub [.regs, .coolant, .errs, .cores, .cnts, .wire] msk = true) :
    SameBut msk s0 (State.emergencyHalt s cause code addr) := by
  unfold State.emergencyHalt; try dsimp only
  repeat' first
    | with_reducible first
      | assumption | exact sub_trans hmsk rfl | apply State.alert_same | apply State.report_same
    | intro _
    | split
    | with_reducible apply SameBut.lit_coolant
    | dsimp only

theorem execFlowStop_same {msk : List Fld} {s0 : State} {s : State} (hs : SameBut msk s0 s)
    (hmsk : sub [.regs, .coolant, .errs, .cores, .cnts, .wire] msk = true) :
    OutSame msk s0 (execFlowStop s) := by
  unfold execFlowStop; try dsimp only
  repeat' first
    | with_reducible first
      | assumption | exact sub_trans hmsk rfl | apply OutSame.next | apply State.clrBit_same
      | apply State.emergencyHalt_same
    | intro _
    | split
    | with_reducible apply SameBut.lit_coolant
    | dsimp only

theorem State.flowCheck_same {msk : List Fld} {s0 : State} {s : State} (hs : SameBut msk s0 s)
    (hmsk : sub [.regs, .coolant, .errs, .cores, .cnts, .wire] msk = true) :
    SameBut msk s0 (State.flowCheck s) := by
  unfold State.flowCheck; try dsimp only
  repeat' first
    | with_reducible first
      | assumption | exact sub_trans hmsk rfl | apply State.coolAlert_same | apply State.setFld_same
    | intro _
    | split
    | with_reducible apply SameBut.lit_coolant
    | dsimp only

theorem State.coolState_same {msk : List Fld} {s0 : State} {s : State} (st : _) (est : _) (hs : SameBut msk s0 s)
    (hmsk : sub [.regs, .stks, .errs, .cores, .cnts, .wire] msk = true) :
    SameBut msk s0 (State.coolState s st est) := by
  unfold State.coolState; try dsimp only
  repeat' first
    | with_reducible first
      | assumption | exact sub_trans hmsk rfl | apply State.alert_same | apply State.report_same
      | apply State.updStk_same
    | intro _
    | split
    | dsimp only

theorem State.moveCap_same {msk : List Fld} {s0 : State} {s : State} (st : _) (hs : SameBut msk s0 s)
    (hmsk : sub [.stks] msk = true) :
    SameBut msk s0 (State.moveCap s st) := by
  unfold State.moveCap; try dsimp only
  repeat' first
    | with_reducible first
      | assumption | exact sub_trans hmsk rfl | apply State.updStk_same
    | intro _
    | split
    | dsimp only

theorem State.coolStack_same {msk : List Fld} {s0 : State} {s : State} (st : _) (hs : SameBut msk s0 s)
    (hmsk : sub [.regs, .stks, .coolant, .errs, .cores, .cnts, .wire] msk = true) :
    SameBut msk s0 (State.coolStack s st) := by
  unfold State.coolStack; try dsimp only
  repeat' first
    | with_reducible first
      | assumption | exact sub_trans hmsk rfl | apply State.coolState_same | apply State.emergencyHalt_same
      | apply State.moveCap_same | apply State.setFld_same | apply State.updStk_same
    | intro _
    | split
    | with_reducible apply SameBut.lit_coolant
    | dsimp only

theorem coolantEstimate_same {msk : List Fld} {s0 : State} {s : State} (hs : SameBut msk s0 s)
    (hmsk : sub [.regs, .stks, .coolant, .errs, .cores, .cnts, .wire] msk = true) :
    SameBut msk s0 (coolantEstimate s) := by
  unfold coolantEstimate; try dsimp only
  repeat' first
    | with_reducible first
      | assumption | exact sub_trans hmsk rfl | apply SameBut.foldl | apply SameBut.foldl1
      | apply SameBut.foldlDev | apply SameBut.foldlMv | apply SameBut.foldlDn | apply State.coolStack_same
      | apply State.flowCheck_same
    | intro _
    | split
    | with_reducible apply SameBut.lit_coolant
    | dsimp only

theorem execCoolantEstimate_same {msk : List Fld} {s0 : State} {s : State} (hs : SameBut msk s0 s)
    (hmsk : sub [.regs, .stks, .coolant, .errs, .cores, .cnts, .wire] msk = true) :
    OutSame msk s0 (execCoolantEstimate s) := by
  unfold execCoolantEstimate; try dsimp only
  repeat' first
    | with_reducible first
      | assumption | exact sub_trans hmsk rfl | apply OutSame.next | apply coolantEstimate_same
    | intro _
    | split
    | dsimp only

theorem resume_same {msk : List Fld} {s0 : State} {s : State} (hs : SameBut msk s0 s)
    (hmsk : sub [.regs, .coolant] msk = true) :
    SameBut msk s0 (resume s) := by
  unfold resume; try dsimp only
  repeat' first
    | with_reducible first
      | assumption | exact sub_trans hmsk rfl | apply State.setBit_same
    | intro _
    | split
    | with_reducible apply SameBut.lit_coolant
    | dsimp only

theorem execGovResume_same {msk : List Fld} {s0 : State} (r : _) {s : State} (hs : SameBut msk s0 s)
    (hmsk : sub [.regs, .coolant, .cores, .dbg, .cnts] msk = true) :
    OutSame msk s0 (execGovResume r s) := by
  unfold execGovResume; try dsimp only
  repeat' first
    | with_reducible first
      | assumption | exact sub_trans hmsk rfl | apply OutSame.next | apply State.access_same | apply resume_same
    | intro _
    | split
    | dsimp only

theorem clearAlerts_same {msk : List Fld} {s0 : State} (v : _) {s : State} (hs : SameBut msk s0 s)
    (hmsk : sub [.regs] msk = true) :
    SameBut msk s0 (clearAlerts v s) := by
  unfold clearAlerts; try dsimp only
  repeat' first
    | with_reducible first
      | assumption | exact sub_trans hmsk rfl | apply SameBut.foldl | apply SameBut.foldl1
      | apply SameBut.foldlDev | apply SameBut.foldlMv | apply SameBut.foldlDn | apply State.clrBit_same
      | apply State.setFld_same
    | intro _
    | split
    | dsimp only

/-! ### Toll -/

theorem State.updToll_same {msk : List Fld} {s0 : State} {s : State} (f : _) (hs : SameBut msk s0 s)
    (hmsk : sub [.toll] msk = true) :
    SameBut msk s0 (State.updToll s f) := by
  unfold State.updToll; try dsimp only
  repeat' first
    | with_reducible first
      | assumption | exact sub_trans hmsk rfl
    | intro _
    | split
    | with_reducible apply SameBut.lit_toll
    | dsimp only

theorem execTollSample_same {msk : List Fld} {s0 : State} (power : _) (sat : _) {s : State} (hs : SameBut msk s0 s)
    (hmsk : sub [.toll] msk = true) :
    OutSame msk s0 (execTollSample power sat s) := by
  unfold execTollSample; try dsimp only
  repeat' first
    | with_reducible first
      | assumption | exact sub_trans hmsk rfl | apply OutSame.next | apply State.updToll_same
    | intro _
    | split
    | dsimp only

theorem execFeedFrame_same {msk : List Fld} {s0 : State} (frame : _) (crcOk : _) {s : State} (hs : SameBut msk s0 s)
    (hmsk : sub [.stks, .toll] msk = true) :
    OutSame msk s0 (execFeedFrame frame crcOk s) := by
  unfold execFeedFrame; try dsimp only
  repeat' first
    | with_reducible first
      | assumption | exact sub_trans hmsk rfl | apply OutSame.next | apply SameBut.foldl | apply SameBut.foldl1
      | apply SameBut.foldlDev | apply SameBut.foldlMv | apply SameBut.foldlDn | apply State.updStk_same
      | apply State.updToll_same
    | intro _
    | split
    | dsimp only

theorem execFeedGap_same {msk : List Fld} {s0 : State} {s : State} (hs : SameBut msk s0 s)
    (hmsk : sub [.toll] msk = true) :
    OutSame msk s0 (execFeedGap s) := by
  unfold execFeedGap; try dsimp only
  repeat' first
    | with_reducible first
      | assumption | exact sub_trans hmsk rfl | apply OutSame.next | apply State.updToll_same
    | intro _
    | split
    | dsimp only

theorem State.closeSummary_same {msk : List Fld} {s0 : State} {s : State} (hs : SameBut msk s0 s)
    (hmsk : sub [.freeCtr, .toll] msk = true) :
    SameBut msk s0 (State.closeSummary s) := by
  unfold State.closeSummary; try dsimp only
  repeat' first
    | with_reducible first
      | assumption | exact sub_trans hmsk rfl | apply State.freeBytes_same | apply State.updToll_same
    | intro _
    | split
    | dsimp only

theorem execTollSummary_same {msk : List Fld} {s0 : State} {s : State} (hs : SameBut msk s0 s)
    (hmsk : sub [.freeCtr, .toll] msk = true) :
    OutSame msk s0 (execTollSummary s) := by
  unfold execTollSummary; try dsimp only
  repeat' first
    | with_reducible first
      | assumption | exact sub_trans hmsk rfl | apply OutSame.next | apply State.closeSummary_same
    | intro _
    | split
    | dsimp only

theorem tollSecond_same {msk : List Fld} {s0 : State} (memOk : _) {s : State} (hs : SameBut msk s0 s)
    (hmsk : sub [.freeCtr, .toll] msk = true) :
    SameBut msk s0 (tollSecond memOk s) := by
  unfold tollSecond; try dsimp only
  repeat' first
    | with_reducible first
      | assumption | exact sub_trans hmsk rfl | apply State.closeSummary_same | apply State.freeBytes_same
      | apply State.updToll_same
    | intro _
    | split
    | dsimp only

theorem execTollSecond_same {msk : List Fld} {s0 : State} (memOk : _) {s : State} (hs : SameBut msk s0 s)
    (hmsk : sub [.freeCtr, .toll] msk = true) :
    OutSame msk s0 (execTollSecond memOk s) := by
  unfold execTollSecond; try dsimp only
  repeat' first
    | with_reducible first
      | assumption | exact sub_trans hmsk rfl | apply OutSame.next | apply tollSecond_same
    | intro _
    | split
    | dsimp only

theorem execTollCalEnChange_same {msk : List Fld} {s0 : State} (level : _) {s : State} (hs : SameBut msk s0 s)
    (hmsk : sub [.pins, .toll] msk = true) :
    OutSame msk s0 (execTollCalEnChange level s) := by
  unfold execTollCalEnChange; try dsimp only
  repeat' first
    | with_reducible first
      | assumption | exact sub_trans hmsk rfl | apply OutSame.next | apply State.updToll_same
    | intro _
    | split
    | with_reducible apply SameBut.lit_pins
    | dsimp only

theorem mbGo_same {msk : List Fld} {s0 : State} (m : _) {s : State} (hs : SameBut msk s0 s)
    (hmsk : sub [.regs, .toll] msk = true) :
    SameBut msk s0 (mbGo m s) := by
  unfold mbGo; try dsimp only
  repeat' first
    | with_reducible first
      | assumption | exact sub_trans hmsk rfl | apply State.setFld_same | apply State.updToll_same
    | intro _
    | split
    | dsimp only

theorem State.mbAnswer_same {msk : List Fld} {s0 : State} {s : State} (m : _) (code : _) (body : _) (hs : SameBut msk s0 s)
    (hmsk : sub [.toll] msk = true) :
    SameBut msk s0 (State.mbAnswer s m code body) := by
  unfold State.mbAnswer; try dsimp only
  repeat' first
    | with_reducible first
      | assumption | exact sub_trans hmsk rfl | apply State.updToll_same
    | intro _
    | split
    | dsimp only

theorem execIdentify_same {msk : List Fld} {s0 : State} (m : _) {s : State} (hs : SameBut msk s0 s)
    (hmsk : sub [.toll] msk = true) :
    OutSame msk s0 (execIdentify m s) := by
  unfold execIdentify; try dsimp only
  repeat' first
    | with_reducible first
      | assumption | exact sub_trans hmsk rfl | apply OutSame.next | apply State.mbAnswer_same
    | intro _
    | split
    | dsimp only

theorem execStatus_same {msk : List Fld} {s0 : State} (m : _) {s : State} (hs : SameBut msk s0 s)
    (hmsk : sub [.toll] msk = true) :
    OutSame msk s0 (execStatus m s) := by
  unfold execStatus; try dsimp only
  repeat' first
    | with_reducible first
      | assumption | exact sub_trans hmsk rfl | apply OutSame.next | apply State.mbAnswer_same
    | intro _
    | split
    | dsimp only

theorem execReadRecord_same {msk : List Fld} {s0 : State} (m : _) {s : State} (hs : SameBut msk s0 s)
    (hmsk : sub [.toll] msk = true) :
    OutSame msk s0 (execReadRecord m s) := by
  unfold execReadRecord; try dsimp only
  repeat' first
    | with_reducible first
      | assumption | exact sub_trans hmsk rfl | apply OutSame.next | apply State.mbAnswer_same
    | intro _
    | split
    | dsimp only

theorem execReadSummary_same {msk : List Fld} {s0 : State} (m : _) {s : State} (hs : SameBut msk s0 s)
    (hmsk : sub [.toll] msk = true) :
    OutSame msk s0 (execReadSummary m s) := by
  unfold execReadSummary; try dsimp only
  repeat' first
    | with_reducible first
      | assumption | exact sub_trans hmsk rfl | apply OutSame.next | apply State.mbAnswer_same
    | intro _
    | split
    | dsimp only

theorem execSignRange_same {msk : List Fld} {s0 : State} (m : _) {s : State} (hs : SameBut msk s0 s)
    (hmsk : sub [.freeCtr, .toll] msk = true) :
    OutSame msk s0 (execSignRange m s) := by
  unfold execSignRange; try dsimp only
  repeat' first
    | with_reducible first
      | assumption | exact sub_trans hmsk rfl | apply OutSame.next | apply State.freeBytes_same
      | apply State.mbAnswer_same
    | intro _
    | split
    | dsimp only

theorem execReadAudit_same {msk : List Fld} {s0 : State} (m : _) {s : State} (hs : SameBut msk s0 s)
    (hmsk : sub [.toll] msk = true) :
    OutSame msk s0 (execReadAudit m s) := by
  unfold execReadAudit; try dsimp only
  repeat' first
    | with_reducible first
      | assumption | exact sub_trans hmsk rfl | apply OutSame.next | apply State.mbAnswer_same
    | intro _
    | split
    | dsimp only

theorem execMbBadOpcode_same {msk : List Fld} {s0 : State} (m : _) {s : State} (hs : SameBut msk s0 s)
    (hmsk : sub [.toll] msk = true) :
    OutSame msk s0 (execMbBadOpcode m s) := by
  unfold execMbBadOpcode; try dsimp only
  repeat' first
    | with_reducible first
      | assumption | exact sub_trans hmsk rfl | apply OutSame.next | apply State.mbAnswer_same
    | intro _
    | split
    | dsimp only

theorem execCalibrate_same {msk : List Fld} {s0 : State} (m : _) (message : _) (pinHeld : _) {s : State} (hs : SameBut msk s0 s)
    (hmsk : sub [.toll] msk = true) :
    OutSame msk s0 (execCalibrate m message pinHeld s) := by
  unfold execCalibrate; try dsimp only
  repeat' first
    | with_reducible first
      | assumption | exact sub_trans hmsk rfl | apply OutSame.next | apply State.mbAnswer_same
      | apply State.updToll_same
    | intro _
    | split
    | dsimp only

theorem mbDone_same {msk : List Fld} {s0 : State} (m : _) (code : _) (body : _) {s : State} (hs : SameBut msk s0 s)
    (hmsk : sub [.regs, .toll, .wire] msk = true) :
    SameBut msk s0 (mbDone m code body s) := by
  unfold mbDone; try dsimp only
  repeat' first
    | with_reducible first
      | assumption | exact sub_trans hmsk rfl | apply SameBut.foldl | apply SameBut.foldl1
      | apply SameBut.foldlDev | apply SameBut.foldlMv | apply SameBut.foldlDn | apply State.irq_same
      | apply State.send_same | apply State.setReg_same | apply State.updToll_same
    | intro _
    | split
    | dsimp only

theorem execTollMbDone_same {msk : List Fld} {s0 : State} (m : _) {s : State} (hs : SameBut msk s0 s)
    (hmsk : sub [.regs, .toll, .wire] msk = true) :
    OutSame msk s0 (execTollMbDone m s) := by
  unfold execTollMbDone; try dsimp only
  repeat' first
    | with_reducible first
      | assumption | exact sub_trans hmsk rfl | apply OutSame.next | apply mbDone_same
    | intro _
    | split
    | dsimp only

/-! ### Pins -/

theorem execPwrGoodRise_same {msk : List Fld} {s0 : State} {s : State} (hs : SameBut msk s0 s)
    (hmsk : sub [.freeCtr, .pins, .regs, .boot, .toll, .wire] msk = true) :
    OutSame msk s0 (execPwrGoodRise s) := by
  unfold execPwrGoodRise; try dsimp only
  repeat' first
    | with_reducible first
      | assumption | exact sub_trans hmsk rfl | apply OutSame.next | apply State.startBoot_same
    | intro _
    | split
    | with_reducible apply SameBut.lit_pins
    | with_reducible (apply SameBut.lit <;> first | exact Or.inl rfl | exact Or.inr (sub_trans hmsk rfl) | skip)
    | dsimp only

theorem powerLoss_same {msk : List Fld} {s0 : State} {s : State} (hs : SameBut msk s0 s)
    (hmsk : sub [.tb, .clocksOff, .pins, .regs, .caps, .plots, .chans, .slices, .norias, .dram, .chk, .net, .rr, .links, .reqTabs, .stks, .sensors, .coolant, .parts, .rings, .funcs, .lndErr, .cfg, .errs, .xngs, .eps, .groups, .coll, .cores, .caches, .media, .sec, .boot, .faults, .dbg, .cnts, .toll] msk = true) :
    SameBut msk s0 (powerLoss s) := by
  unfold powerLoss; try dsimp only
  repeat' first
    | with_reducible first
      | assumption | exact sub_trans hmsk rfl
    | intro _
    | split
    | with_reducible (apply SameBut.lit <;> first | exact Or.inl rfl | exact Or.inr (sub_trans hmsk rfl) | skip)
    | dsimp only

theorem execPwrGoodFall_same {msk : List Fld} {s0 : State} {s : State} (hs : SameBut msk s0 s)
    (hmsk : sub [.tb, .clocksOff, .pins, .regs, .caps, .plots, .chans, .slices, .norias, .dram, .chk, .net, .rr, .links, .reqTabs, .stks, .sensors, .coolant, .parts, .rings, .funcs, .lndErr, .cfg, .errs, .xngs, .eps, .groups, .coll, .cores, .caches, .media, .sec, .boot, .faults, .dbg, .cnts, .toll] msk = true) :
    OutSame msk s0 (execPwrGoodFall s) := by
  unfold execPwrGoodFall; try dsimp only
  repeat' first
    | with_reducible first
      | assumption | exact sub_trans hmsk rfl | apply OutSame.next | apply powerLoss_same
    | intro _
    | split
    | dsimp only

theorem execPerstNAssert_same {msk : List Fld} {s0 : State} {s : State} (hs : SameBut msk s0 s)
    (hmsk : sub [.pins, .regs, .caps, .plots, .chans, .slices, .norias, .dram, .chk, .net, .rr, .links, .reqTabs, .stks, .sensors, .coolant, .parts, .rings, .funcs, .lndErr, .cfg, .errs, .xngs, .eps, .groups, .coll, .cores, .caches, .media, .sec, .boot, .faults, .dbg, .cnts, .toll] msk = true) :
    OutSame msk s0 (execPerstNAssert s) := by
  unfold execPerstNAssert; try dsimp only
  repeat' first
    | with_reducible first
      | assumption | exact sub_trans hmsk rfl | apply OutSame.next | apply State.clearPkg_same
    | intro _
    | split
    | with_reducible apply SameBut.lit_pins
    | dsimp only

theorem execPerstNRelease_same {msk : List Fld} {s0 : State} (mode : _) {s : State} (hs : SameBut msk s0 s)
    (hmsk : sub [.freeCtr, .pins, .regs, .boot, .wire] msk = true) :
    OutSame msk s0 (execPerstNRelease mode s) := by
  unfold execPerstNRelease; try dsimp only
  repeat' first
    | with_reducible first
      | assumption | exact sub_trans hmsk rfl | apply OutSame.next | apply State.startBoot_same
    | intro _
    | split
    | with_reducible apply SameBut.lit_pins
    | dsimp only

theorem execRefclkSysAbsent_same {msk : List Fld} {s0 : State} {s : State} (hs : SameBut msk s0 s)
    (hmsk : sub [.pins, .regs, .stks, .cores, .cnts, .wire] msk = true) :
    OutSame msk s0 (execRefclkSysAbsent s) := by
  unfold execRefclkSysAbsent; try dsimp only
  repeat' first
    | with_reducible first
      | assumption | exact sub_trans hmsk rfl | apply OutSame.next | apply SameBut.foldl | apply SameBut.foldl1
      | apply SameBut.foldlDev | apply SameBut.foldlMv | apply SameBut.foldlDn | apply State.alert_same
      | apply State.updStk_same
    | intro _
    | split
    | with_reducible apply SameBut.lit_pins
    | dsimp only

/-! ### Link -/

theorem State.countLink_same {msk : List Fld} {s0 : State} {s : State} (die : _) (i : _) (m : _) (n : _) (hs : SameBut msk s0 s)
    (hmsk : sub [.regs, .cnts] msk = true) :
    SameBut msk s0 (State.countLink s die i m n) := by
  unfold State.countLink; try dsimp only
  repeat' first
    | with_reducible first
      | assumption | exact sub_trans hmsk rfl | apply State.count_same
    | intro _
    | split
    | dsimp only

theorem State.sendFrame_same {msk : List Fld} {s0 : State} {s : State} (die : _) (m : _) (f : _) (hs : SameBut msk s0 s)
    (hmsk : sub [.regs, .cnts, .wire] msk = true) :
    SameBut msk s0 (State.sendFrame s die m f) := by
  unfold State.sendFrame; try dsimp only
  repeat' first
    | with_reducible first
      | assumption | exact sub_trans hmsk rfl | apply State.countLink_same | apply State.send_same
    | intro _
    | split
    | dsimp only

theorem State.replayFrames_same {msk : List Fld} {s0 : State} {s : State} (die : _) (m : _) (hs : SameBut msk s0 s)
    (hmsk : sub [.regs, .links, .cnts, .wire] msk = true) :
    SameBut msk s0 (State.replayFrames s die m) := by
  unfold State.replayFrames; try dsimp only
  repeat' first
    | with_reducible first
      | assumption | exact sub_trans hmsk rfl | apply SameBut.foldl | apply SameBut.foldl1
      | apply SameBut.foldlDev | apply SameBut.foldlMv | apply SameBut.foldlDn | apply State.addFld_same
      | apply State.countLink_same | apply State.sendFrame_same | apply State.updLink_same
    | intro _
    | split
    | dsimp only

theorem receiveFrame_same {msk : List Fld} {s0 : State} (die : _) (m : _) (f : _) {s : State} (hs : SameBut msk s0 s)
    (hmsk : sub [.regs, .links, .cnts, .wire] msk = true) :
    SameBut msk s0 (receiveFrame die m f s) := by
  unfold receiveFrame; try dsimp only
  repeat' first
    | with_reducible first
      | assumption | exact sub_trans hmsk rfl | apply State.replayFrames_same | apply State.sendFrame_same
      | apply State.setLink_same | apply State.updLink_same
    | intro _
    | split
    | dsimp only

theorem execD2dFrameReceive_same {msk : List Fld} {s0 : State} (m : _) (frame : _) {s : State} (hs : SameBut msk s0 s)
    (hmsk : sub [.regs, .links, .cnts, .wire] msk = true) :
    OutSame msk s0 (execD2dFrameReceive m frame s) := by
  unfold execD2dFrameReceive; try dsimp only
  repeat' first
    | with_reducible first
      | assumption | exact sub_trans hmsk rfl | apply OutSame.next | apply receiveFrame_same
    | intro _
    | split
    | dsimp only

theorem State.startRetrain_same {msk : List Fld} {s0 : State} {s : State} (die : _) (m : _) (hs : SameBut msk s0 s)
    (hmsk : sub [.regs] msk = true) :
    SameBut msk s0 (State.startRetrain s die m) := by
  unfold State.startRetrain; try dsimp only
  repeat' first
    | with_reducible first
      | assumption | exact sub_trans hmsk rfl | apply State.refreshRoute_same | apply State.setFld_same
    | intro _
    | split
    | dsimp only

theorem replayTick_same {msk : List Fld} {s0 : State} (die : _) (m : _) {s : State} (hs : SameBut msk s0 s)
    (hmsk : sub [.regs, .links, .errs, .cores, .wire] msk = true) :
    SameBut msk s0 (replayTick die m s) := by
  unfold replayTick; try dsimp only
  repeat' first
    | with_reducible first
      | assumption | exact sub_trans hmsk rfl | apply State.report_same | apply State.setBit_same
      | apply State.setLink_same | apply State.startRetrain_same | apply State.updLink_same
    | intro _
    | split
    | dsimp only

theorem execReplayRateTick_same {msk : List Fld} {s0 : State} (m : _) {s : State} (hs : SameBut msk s0 s)
    (hmsk : sub [.regs, .links, .errs, .cores, .wire] msk = true) :
    OutSame msk s0 (execReplayRateTick m s) := by
  unfold execReplayRateTick; try dsimp only
  repeat' first
    | with_reducible first
      | assumption | exact sub_trans hmsk rfl | apply OutSame.next | apply replayTick_same
    | intro _
    | split
    | dsimp only

theorem retrainWrite_same {msk : List Fld} {s0 : State} (die : _) (m : _) {s : State} (hs : SameBut msk s0 s)
    (hmsk : sub [.regs] msk = true) :
    SameBut msk s0 (retrainWrite die m s) := by
  unfold retrainWrite; try dsimp only
  repeat' first
    | with_reducible first
      | assumption | exact sub_trans hmsk rfl | apply State.startRetrain_same
    | intro _
    | split
    | dsimp only

theorem execDfLinkRetrain_same {msk : List Fld} {s0 : State} (r : _) (m : _) {s : State} (hs : SameBut msk s0 s)
    (hmsk : sub [.regs, .cores, .dbg, .cnts] msk = true) :
    OutSame msk s0 (execDfLinkRetrain r m s) := by
  unfold execDfLinkRetrain; try dsimp only
  repeat' first
    | with_reducible first
      | assumption | exact sub_trans hmsk rfl | apply OutSame.next | apply State.access_same
      | apply retrainWrite_same
    | intro _
    | split
    | dsimp only

theorem retrainEnd_same {msk : List Fld} {s0 : State} (die : _) (m : _) (ok : _) (spared : _) {s : State} (hs : SameBut msk s0 s)
    (hmsk : sub [.regs, .links] msk = true) :
    SameBut msk s0 (retrainEnd die m ok spared s) := by
  unfold retrainEnd; try dsimp only
  repeat' first
    | with_reducible first
      | assumption | exact sub_trans hmsk rfl | apply State.refreshRoute_same | apply State.setFld_same
      | apply State.updLink_same
    | intro _
    | split
    | dsimp only

theorem execD2dRetrainDone_same {msk : List Fld} {s0 : State} (m : _) (ok : _) (spared : _) {s : State} (hs : SameBut msk s0 s)
    (hmsk : sub [.regs, .links] msk = true) :
    OutSame msk s0 (execD2dRetrainDone m ok spared s) := by
  unfold execD2dRetrainDone; try dsimp only
  repeat' first
    | with_reducible first
      | assumption | exact sub_trans hmsk rfl | apply OutSame.next | apply retrainEnd_same
    | intro _
    | split
    | dsimp only

theorem disableWrite_same {msk : List Fld} {s0 : State} (die : _) (m : _) (v : _) {s : State} (hs : SameBut msk s0 s)
    (hmsk : sub [.regs] msk = true) :
    SameBut msk s0 (disableWrite die m v s) := by
  unfold disableWrite; try dsimp only
  repeat' first
    | with_reducible first
      | assumption | exact sub_trans hmsk rfl | apply State.refreshRoute_same | apply State.setFld_same
      | apply State.startRetrain_same
    | intro _
    | split
    | dsimp only

theorem execDfLinkDisable_same {msk : List Fld} {s0 : State} (r : _) (m : _) (v : _) {s : State} (hs : SameBut msk s0 s)
    (hmsk : sub [.regs, .cores, .dbg, .cnts] msk = true) :
    OutSame msk s0 (execDfLinkDisable r m v s) := by
  unfold execDfLinkDisable; try dsimp only
  repeat' first
    | with_reducible first
      | assumption | exact sub_trans hmsk rfl | apply OutSame.next | apply State.access_same
      | apply disableWrite_same
    | intro _
    | split
    | dsimp only

/-! ### RegRead -/

theorem State.clearRc_same {msk : List Fld} {s0 : State} {s : State} (a : _) (fs : _) (hs : SameBut msk s0 s)
    (hmsk : sub [.regs] msk = true) :
    SameBut msk s0 (State.clearRc s a fs) := by
  unfold State.clearRc; try dsimp only
  repeat' first
    | with_reducible first
      | assumption | exact sub_trans hmsk rfl | apply SameBut.foldl | apply SameBut.foldl1
      | apply SameBut.foldlDev | apply SameBut.foldlMv | apply SameBut.foldlDn | apply State.setFld_same
    | intro _
    | split
    | dsimp only

theorem popAt_same {s u : State} (a ty inst : Nat) (hs : SameBut msk s0 s)
    (hmsk : sub [.reply, .regs, .caps, .plots, .chans, .net, .reqTabs, .parts, .rings, .errs, .cores, .media, .faults, .wire] msk = true) (hu : popAt s a ty inst = some u) : SameBut msk s0 u := by
  unfold popAt at hu
  split at hu <;> simp only [Option.some.injEq, reduceCtorEq] at hu
  all_goals subst hu
  · exact popCpl_same _ hs (sub_trans hmsk rfl)
  · exact popBrg_same _ hs (sub_trans hmsk rfl)
  · exact popMedia_same _ hs (sub_trans hmsk rfl)
  · exact popWin_same _ hs (sub_trans hmsk rfl)
  · exact popRpt_same _ hs (sub_trans hmsk rfl)
  · exact popProp_same hs (sub_trans hmsk rfl)

theorem readReg_same {s : State} (r : Req) (a : Nat) (hs : SameBut msk s0 s)
    (hmsk : sub [.reply, .regs, .caps, .plots, .chans, .net, .reqTabs, .parts, .rings, .errs, .cores, .media, .faults, .wire] msk = true) : SameBut msk s0 (readReg r a s) := by
  unfold readReg
  split
  · exact State.answer_same _ hs (sub_trans hmsk rfl)
  · split
    · exact popAt_same _ _ _ hs (sub_trans hmsk rfl) ‹_›
    · split
      · exact State.answer_same _ (SameBut.lit_caps hs (sub_trans hmsk rfl)) (sub_trans hmsk rfl)
      · exact State.answer_same _ (State.clearRc_same _ _ (hs.foldl fun u b hu => State.capture_same _ _ hu (sub_trans hmsk rfl))
          (sub_trans hmsk rfl)) (sub_trans hmsk rfl)

theorem readReg8_same {msk : List Fld} {s0 : State} (r : _) (a : _) {s : State} (hs : SameBut msk s0 s)
    (hmsk : sub [.reply, .regs, .caps, .plots, .chans, .net, .reqTabs, .parts, .rings, .errs, .cores, .media, .faults, .wire] msk = true) :
    SameBut msk s0 (readReg8 r a s) := by
  unfold readReg8; try dsimp only
  repeat' first
    | with_reducible first
      | assumption | exact sub_trans hmsk rfl | apply State.answer_same | apply readReg_same
    | intro _
    | split
    | dsimp only

/-! ### RegWrite -/

theorem writeField_same {msk : List Fld} {s0 : State} (r : _) (ty : _) (a : _) (v : _) {s : State} (f : _) (hs : SameBut msk s0 s)
    (hmsk : sub [.regs] msk = true) :
    SameBut msk s0 (writeField r ty a v s f) := by
  unfold writeField; try dsimp only
  repeat' first
    | with_reducible first
      | assumption | exact sub_trans hmsk rfl | apply State.setFld_same | apply State.wrRej_same
    | intro _
    | split
    | dsimp only

theorem plainWrite_same {msk : List Fld} {s0 : State} (r : _) (ty : _) (a : _) (v : _) {s : State} (hs : SameBut msk s0 s)
    (hmsk : sub [.regs] msk = true) :
    SameBut msk s0 (plainWrite r ty a v s) := by
  unfold plainWrite; try dsimp only
  repeat' first
    | with_reducible first
      | assumption | exact sub_trans hmsk rfl | apply SameBut.foldl | apply SameBut.foldl1
      | apply SameBut.foldlDev | apply SameBut.foldlMv | apply SameBut.foldlDn | apply writeField_same
    | intro _
    | split
    | dsimp only

/-- Each operation of a list of bit operations leaves the same fields. -/
def AllSame (msk : List Fld) (s0 : State) (l : List (Nat × (State → State))) : Prop :=
  ∀ e ∈ l, ∀ u, SameBut msk s0 u → SameBut msk s0 (e.2 u)

theorem AllSame.nil : AllSame msk s0 [] := by simp [AllSame]

theorem AllSame.cons {n : Nat} {f : State → State} {l : List (Nat × (State → State))}
    (h : ∀ u, SameBut msk s0 u → SameBut msk s0 (f u)) (hl : AllSame msk s0 l) : AllSame msk s0 ((n, f) :: l) :=
  List.forall_mem_cons.2 ⟨h, hl⟩

theorem onBits_same {s : State} (v : Nat) (l : List (Nat × (State → State))) (h : SameBut msk s0 s) (hl : AllSame msk s0 l) :
    SameBut msk s0 (onBits v l s) := by
  unfold onBits
  induction l generalizing s with
  | nil => exact h
  | cons e l ih =>
    refine ih ?_ fun x hx => hl x (List.mem_cons_of_mem _ hx)
    dsimp only
    split
    · exact hl e (List.mem_cons_self ..) _ h
    · exact h

theorem fnEnable_same {msk : List Fld} {s0 : State} (die : _) (ty : _) (inst : _) (en : _) {s : State} (hs : SameBut msk s0 s)
    (hmsk : sub [.regs, .plots, .chans, .slices, .dram, .chk, .net, .reqTabs, .parts, .rings, .errs, .xngs, .eps, .coll, .cores, .caches, .media, .dbg, .cnts, .wire] msk = true) :
    SameBut msk s0 (fnEnable die ty inst en s) := by
  unfold fnEnable; try dsimp only
  repeat' first
    | with_reducible first
      | assumption | exact sub_trans hmsk rfl | apply chanClrEn_same | apply chanSetEn_same | apply epClrEn_same
      | apply epSetEn_same | apply medClrEn_same | apply medSetEn_same | apply xngClrEn_same | apply xngSetEn_same
    | intro _
    | split
    | dsimp only

theorem writeHdrCtrl_same {msk : List Fld} {s0 : State} (a : _) (ty : _) (inst : _) (v : _) {s : State} (hs : SameBut msk s0 s)
    (hmsk : sub [.regs, .plots, .chans, .slices, .dram, .chk, .net, .reqTabs, .parts, .rings, .errs, .xngs, .eps, .coll, .cores, .caches, .media, .dbg, .cnts, .wire] msk = true) :
    SameBut msk s0 (writeHdrCtrl a ty inst v s) := by
  unfold writeHdrCtrl; try dsimp only
  repeat' first
    | with_reducible first
      | assumption | exact sub_trans hmsk rfl | apply State.clrBit_same | apply fnEnable_same
    | intro _
    | split
    | dsimp only

theorem forceIrq_same {msk : List Fld} {s0 : State} (a : _) (ty : _) (v : _) {s : State} (hs : SameBut msk s0 s)
    (hmsk : sub [.regs] msk = true) :
    SameBut msk s0 (forceIrq a ty v s) := by
  unfold forceIrq; try dsimp only
  repeat' first
    | with_reducible first
      | assumption | exact sub_trans hmsk rfl | apply State.setFld_same
    | intro _
    | split
    | dsimp only

theorem writeLock_same {msk : List Fld} {s0 : State} (r : _) (a : _) (ty : _) (v : _) {s : State} (hs : SameBut msk s0 s)
    (hmsk : sub [.regs] msk = true) :
    SameBut msk s0 (writeLock r a ty v s) := by
  unfold writeLock; try dsimp only
  repeat' first
    | with_reducible first
      | assumption | exact sub_trans hmsk rfl | apply State.clrBit_same | apply State.setBit_same
    | intro _
    | split
    | dsimp only

theorem writeHdr_same {msk : List Fld} {s0 : State} (r : _) (a : _) (ty : _) (inst : _) (v : _) {s : State} (hs : SameBut msk s0 s)
    (hmsk : sub [.regs, .plots, .chans, .slices, .dram, .chk, .net, .reqTabs, .parts, .rings, .errs, .xngs, .eps, .coll, .cores, .caches, .media, .dbg, .cnts, .wire] msk = true) :
    SameBut msk s0 (writeHdr r a ty inst v s) := by
  unfold writeHdr; try dsimp only
  repeat' first
    | with_reducible first
      | assumption | exact sub_trans hmsk rfl | apply forceIrq_same | apply plainWrite_same
      | apply writeHdrCtrl_same | apply writeLock_same
    | intro _
    | split
    | dsimp only

theorem writeArr_same {msk : List Fld} {s0 : State} (r : _) (a : _) (k : _) (v : _) {s : State} (hs : SameBut msk s0 s)
    (hmsk : sub [.regs, .plots] msk = true) :
    SameBut msk s0 (writeArr r a k v s) := by
  unfold writeArr; try dsimp only
  repeat' first
    | with_reducible first
      | assumption | exact sub_trans hmsk rfl | apply State.updArr_same | apply plainWrite_same
      | apply writeArrCfg_same | apply writeArrRng_same
    | intro _
    | split
    | dsimp only

theorem pushWord_same {msk : List Fld} {s0 : State} (k : _) (off : _) (v : _) {s : State} (hs : SameBut msk s0 s)
    (hmsk : sub [.plots] msk = true) :
    SameBut msk s0 (pushWord k off v s) := by
  unfold pushWord; try dsimp only
  repeat' first
    | with_reducible first
      | assumption | exact sub_trans hmsk rfl | apply State.updQueue_same
    | intro _
    | split
    | dsimp only

theorem writePqCtrl_same {msk : List Fld} {s0 : State} (k : _) (v : _) {s : State} (hs : SameBut msk s0 s)
    (hmsk : sub [.freeCtr, .regs, .plots, .chans, .norias, .net, .reqTabs, .stks, .parts, .rings, .cores, .dbg, .cnts, .wire] msk = true) :
    SameBut msk s0 (writePqCtrl k v s) := by
  unfold writePqCtrl; try dsimp only
  repeat' first
    | with_reducible first
      | assumption | exact sub_trans hmsk rfl | apply AllSame.cons | apply AllSame.nil | apply flushQueue_same
      | apply onBits_same | apply queueSetEn_same | apply queueStop_same | apply skipQueue_same
    | intro _
    | split
    | dsimp only

theorem writePq_same {msk : List Fld} {s0 : State} (r : _) (a : _) (k : _) (v : _) {s : State} (hs : SameBut msk s0 s)
    (hmsk : sub [.freeCtr, .regs, .plots, .chans, .norias, .net, .reqTabs, .stks, .parts, .rings, .errs, .cores, .faults, .dbg, .cnts, .wire] msk = true) :
    SameBut msk s0 (writePq r a k v s) := by
  unfold writePq; try dsimp only
  repeat' first
    | with_reducible first
      | assumption | exact sub_trans hmsk rfl | apply AllSame.cons | apply AllSame.nil | apply State.setFld_same
      | apply State.updPlot_same | apply kickDog_same | apply onBits_same | apply plainWrite_same
      | apply pushQueue_same | apply pushWord_same | apply sendToken_same | apply stewardFault_same
      | apply writeCtr_same | apply writeHg_same | apply writePqCtrl_same | apply writeSlot_same
      | apply writeVecRng_same
    | intro _
    | split
    | dsimp only

theorem writeBrg_same {msk : List Fld} {s0 : State} (r : _) (ty : _) (a : _) (c : _) (v : _) {s : State} (hs : SameBut msk s0 s)
    (hmsk : sub [.regs, .chans, .net, .reqTabs, .rings, .eps, .cores, .media, .wire] msk = true) :
    SameBut msk s0 (writeBrg r ty a c v s) := by
  unfold writeBrg; try dsimp only
  repeat' first
    | with_reducible first
      | assumption | exact sub_trans hmsk rfl | apply AllSame.cons | apply AllSame.nil | apply State.updChan_same
      | apply brgGo_same | apply brgPush_same | apply onBits_same | apply plainWrite_same | apply writeOwner_same
    | intro _
    | split
    | dsimp only

theorem writeCnt_same {msk : List Fld} {s0 : State} (r : _) (ty : _) (a : _) (k : _) (v : _) {s : State} (hs : SameBut msk s0 s)
    (hmsk : sub [.regs, .cnts] msk = true) :
    SameBut msk s0 (writeCnt r ty a k v s) := by
  unfold writeCnt; try dsimp only
  repeat' first
    | with_reducible first
      | assumption | exact sub_trans hmsk rfl | apply cntSampleCmd_same | apply plainWrite_same
    | intro _
    | split
    | dsimp only

theorem writeSlc_same {msk : List Fld} {s0 : State} (r : _) (a : _) (k : _) (v : _) {s : State} (hs : SameBut msk s0 s)
    (hmsk : sub [.regs, .slices] msk = true) :
    SameBut msk s0 (writeSlc r a k v s) := by
  unfold writeSlc; try dsimp only
  repeat' first
    | with_reducible first
      | assumption | exact sub_trans hmsk rfl | apply State.setFld_same | apply plainWrite_same
      | apply startPpr_same
    | intro _
    | split
    | dsimp only

theorem writeNor_same {msk : List Fld} {s0 : State} (r : _) (a : _) (k : _) (v : _) {s : State} (hs : SameBut msk s0 s)
    (hmsk : sub [.regs, .norias] msk = true) :
    SameBut msk s0 (writeNor r a k v s) := by
  unfold writeNor; try dsimp only
  repeat' first
    | with_reducible first
      | assumption | exact sub_trans hmsk rfl | apply plainWrite_same | apply xchkGo_same
    | intro _
    | split
    | dsimp only

theorem writeRh_same {msk : List Fld} {s0 : State} (r : _) (a : _) (st : _) (q : _) (v : _) {s : State} (hs : SameBut msk s0 s)
    (hmsk : sub [.freeCtr, .regs, .plots, .norias, .net, .stks, .parts, .rings, .cores, .faults, .dbg, .cnts, .wire] msk = true) :
    SameBut msk s0 (writeRh r a st q v s) := by
  unfold writeRh; try dsimp only
  repeat' first
    | with_reducible first
      | assumption | exact sub_trans hmsk rfl | apply fenceMask_same | apply plainWrite_same
      | apply writePlotCtrl_same
    | intro _
    | split
    | dsimp only

theorem writeDf_same {msk : List Fld} {s0 : State} (r : _) (ty : _) (a : _) (v : _) {s : State} (hs : SameBut msk s0 s)
    (hmsk : sub [.regs] msk = true) :
    SameBut msk s0 (writeDf r ty a v s) := by
  unfold writeDf; try dsimp only
  repeat' first
    | with_reducible first
      | assumption | exact sub_trans hmsk rfl | apply disableWrite_same | apply plainWrite_same
      | apply retrainWrite_same
    | intro _
    | split
    | dsimp only

theorem writeGov_same {msk : List Fld} {s0 : State} (r : _) (a : _) (v : _) {s : State} (hs : SameBut msk s0 s)
    (hmsk : sub [.regs] msk = true) :
    SameBut msk s0 (writeGov r a v s) := by
  unfold writeGov; try dsimp only
  repeat' first
    | with_reducible first
      | assumption | exact sub_trans hmsk rfl | apply State.setFld_same | apply plainWrite_same
    | intro _
    | split
    | dsimp only

theorem writeCc_same {msk : List Fld} {s0 : State} (r : _) (a : _) (st : _) (v : _) {s : State} (hs : SameBut msk s0 s)
    (hmsk : sub [.regs, .net, .cores] msk = true) :
    SameBut msk s0 (writeCc r a st v s) := by
  unfold writeCc; try dsimp only
  repeat' first
    | with_reducible first
      | assumption | exact sub_trans hmsk rfl | apply coreRelease_same | apply coreTokenTx_same
      | apply plainWrite_same
    | intro _
    | split
    | dsimp only

theorem writeImsic_same {msk : List Fld} {s0 : State} (a : _) (st : _) (inst : _) (v : _) {s : State} (hs : SameBut msk s0 s)
    (hmsk : sub [.cores] msk = true) :
    SameBut msk s0 (writeImsic a st inst v s) := by
  unfold writeImsic; try dsimp only
  repeat' first
    | with_reducible first
      | assumption | exact sub_trans hmsk rfl | apply State.updCore_same
    | intro _
    | split
    | dsimp only

theorem writePkg_same {msk : List Fld} {s0 : State} (r : _) (a : _) (v : _) {s : State} (hs : SameBut msk s0 s)
    (hmsk : sub [.regs, .stks] msk = true) :
    SameBut msk s0 (writePkg r a v s) := by
  unfold writePkg; try dsimp only
  repeat' first
    | with_reducible first
      | assumption | exact sub_trans hmsk rfl | apply SameBut.foldl | apply SameBut.foldl1
      | apply SameBut.foldlDev | apply SameBut.foldlMv | apply SameBut.foldlDn | apply State.updStk_same
      | apply plainWrite_same
    | intro _
    | split
    | dsimp only

theorem writeBootCtrl_same {msk : List Fld} {s0 : State} (v : _) {s : State} (hs : SameBut msk s0 s)
    (hmsk : sub [.freeCtr, .regs, .caps, .plots, .chans, .slices, .norias, .dram, .chk, .net, .rr, .links, .reqTabs, .stks, .sensors, .coolant, .parts, .rings, .funcs, .lndErr, .cfg, .errs, .xngs, .eps, .groups, .coll, .cores, .caches, .media, .sec, .boot, .store, .faults, .dbg, .cnts, .toll, .wire] msk = true) :
    SameBut msk s0 (writeBootCtrl v s) := by
  unfold writeBootCtrl; try dsimp only
  repeat' first
    | with_reducible first
      | assumption | exact sub_trans hmsk rfl | apply State.attemptWrite_same | apply State.pkgReset_same
      | apply State.showAttempts_same | apply warmCmd_same | apply writeNextSlot_same
    | intro _
    | split
    | dsimp only

theorem writeBoot_same {msk : List Fld} {s0 : State} (r : _) (a : _) (v : _) {s : State} (hs : SameBut msk s0 s)
    (hmsk : sub [.freeCtr, .regs, .caps, .plots, .chans, .slices, .norias, .dram, .chk, .net, .rr, .links, .reqTabs, .stks, .sensors, .coolant, .parts, .rings, .funcs, .lndErr, .cfg, .errs, .xngs, .eps, .groups, .coll, .cores, .caches, .media, .sec, .boot, .store, .faults, .dbg, .cnts, .toll, .wire] msk = true) :
    SameBut msk s0 (writeBoot r a v s) := by
  unfold writeBoot; try dsimp only
  repeat' first
    | with_reducible first
      | assumption | exact sub_trans hmsk rfl | apply plainWrite_same | apply storeCmd_same
      | apply writeBootCtrl_same
    | intro _
    | split
    | dsimp only

theorem writeThm_same {msk : List Fld} {s0 : State} (r : _) (a : _) (v : _) {s : State} (hs : SameBut msk s0 s)
    (hmsk : sub [.regs, .coolant] msk = true) :
    SameBut msk s0 (writeThm r a v s) := by
  unfold writeThm; try dsimp only
  repeat' first
    | with_reducible first
      | assumption | exact sub_trans hmsk rfl | apply clearAlerts_same | apply plainWrite_same | apply resume_same
    | intro _
    | split
    | dsimp only

theorem tokenWord4_same {msk : List Fld} {s0 : State} (i : _) (v : _) {s : State} (hs : SameBut msk s0 s)
    (hmsk : sub [.regs, .parts, .cores, .sec, .faults, .dbg, .wire] msk = true) :
    SameBut msk s0 (tokenWord4 i v s) := by
  unfold tokenWord4; try dsimp only
  repeat' first
    | with_reducible first
      | assumption | exact sub_trans hmsk rfl | apply SameBut.foldl | apply SameBut.foldl1
      | apply SameBut.foldlDev | apply SameBut.foldlMv | apply SameBut.foldlDn | apply submitToken_same
    | intro _
    | split
    | with_reducible apply SameBut.lit_sec
    | dsimp only

theorem writeSec_same {msk : List Fld} {s0 : State} (r : _) (a : _) (v : _) {s : State} (hs : SameBut msk s0 s)
    (hmsk : sub [.freeCtr, .regs, .slices, .dram, .chk, .parts, .errs, .cores, .sec, .faults, .dbg, .cnts, .wire] msk = true) :
    SameBut msk s0 (writeSec r a v s) := by
  unfold writeSec; try dsimp only
  repeat' first
    | with_reducible first
      | assumption | exact sub_trans hmsk rfl | apply AllSame.cons | apply AllSame.nil | apply onBits_same
      | apply plainWrite_same | apply revokeCmd_same | apply svnCommitCmd_same | apply tokenWord4_same
    | intro _
    | split
    | dsimp only

theorem writeRing_same {msk : List Fld} {s0 : State} (r : _) (ty : _) (a : _) (g : _) (v : _) {s : State} (hs : SameBut msk s0 s)
    (hmsk : sub [.regs, .chans, .net, .reqTabs, .parts, .rings, .funcs, .groups, .cores, .faults, .wire] msk = true) :
    SameBut msk s0 (writeRing r ty a g v s) := by
  unfold writeRing; try dsimp only
  repeat' first
    | with_reducible first
      | assumption | exact sub_trans hmsk rfl | apply AllSame.cons | apply AllSame.nil | apply State.setFld_same
      | apply onBits_same | apply plainWrite_same | apply ringClrEn_same | apply ringSetEn_same
    | intro _
    | split
    | dsimp only

theorem writeWinBase_same {msk : List Fld} {s0 : State} (a : _) (f : _) (v : _) {s : State} (hs : SameBut msk s0 s)
    (hmsk : sub [.regs] msk = true) :
    SameBut msk s0 (writeWinBase a f v s) := by
  unfold writeWinBase; try dsimp only
  repeat' first
    | with_reducible first
      | assumption | exact sub_trans hmsk rfl | apply State.setFld_same
    | intro _
    | split
    | dsimp only

theorem writeLnd_same {msk : List Fld} {s0 : State} (r : _) (a : _) (v : _) {s : State} (hs : SameBut msk s0 s)
    (hmsk : sub [.freeCtr, .regs, .caps, .plots, .chans, .slices, .norias, .dram, .chk, .net, .links, .reqTabs, .stks, .sensors, .parts, .rings, .funcs, .groups, .cores, .caches, .faults, .dbg, .cnts, .wire] msk = true) :
    SameBut msk s0 (writeLnd r a v s) := by
  unfold writeLnd; try dsimp only
  repeat' first
    | with_reducible first
      | assumption | exact sub_trans hmsk rfl | apply AllSame.cons | apply AllSame.nil
      | apply State.resetPart_same | apply onBits_same | apply partClrEn_same | apply partSetEn_same
      | apply plainWrite_same | apply writePartCfg_same | apply writeRing_same | apply writeWinBase_same
    | intro _
    | split
    | dsimp only

theorem State.armWp_same {msk : List Fld} {s0 : State} {s : State} (n : _) (hs : SameBut msk s0 s)
    (hmsk : sub [.dbg] msk = true) :
    SameBut msk s0 (State.armWp s n) := by
  unfold State.armWp; try dsimp only
  repeat' first
    | with_reducible first
      | assumption | exact sub_trans hmsk rfl
    | intro _
    | split
    | with_reducible apply SameBut.lit_dbg
    | dsimp only

theorem writeWp_same {msk : List Fld} {s0 : State} (r : _) (a : _) (n : _) (v : _) {s : State} (hs : SameBut msk s0 s)
    (hmsk : sub [.regs, .dbg] msk = true) :
    SameBut msk s0 (writeWp r a n v s) := by
  unfold writeWp; try dsimp only
  repeat' first
    | with_reducible first
      | assumption | exact sub_trans hmsk rfl | apply State.armWp_same | apply State.clrBit_same
      | apply plainWrite_same
    | intro _
    | split
    | dsimp only

theorem writeDbg_same {msk : List Fld} {s0 : State} (r : _) (a : _) (v : _) {s : State} (hs : SameBut msk s0 s)
    (hmsk : sub [.regs, .plots, .chans, .slices, .norias, .dram, .chk, .net, .reqTabs, .stks, .parts, .rings, .funcs, .errs, .xngs, .groups, .coll, .cores, .caches, .faults, .dbg, .cnts, .wire] msk = true) :
    SameBut msk s0 (writeDbg r a v s) := by
  unfold writeDbg; try dsimp only
  repeat' first
    | with_reducible first
      | assumption | exact sub_trans hmsk rfl | apply AllSame.cons | apply AllSame.nil | apply onBits_same
      | apply plainWrite_same | apply recSel_same | apply releaseCmd_same | apply soundingCmd_same
      | apply stopCmd_same | apply writeWp_same
    | intro _
    | split
    | dsimp only

theorem writeCol_same {msk : List Fld} {s0 : State} (r : _) (a : _) (v : _) {s : State} (hs : SameBut msk s0 s)
    (hmsk : sub [.regs, .chans, .reqTabs, .eps, .media] msk = true) :
    SameBut msk s0 (writeCol r a v s) := by
  unfold writeCol; try dsimp only
  repeat' first
    | with_reducible first
      | assumption | exact sub_trans hmsk rfl | apply plainWrite_same | apply writeGrpOwner_same
      | apply writeOwner_same
    | intro _
    | split
    | dsimp only

theorem writeXng_same {msk : List Fld} {s0 : State} (r : _) (a : _) (n : _) (v : _) {s : State} (hs : SameBut msk s0 s)
    (hmsk : sub [.regs, .slices, .dram, .chk, .net, .errs, .xngs, .eps, .coll, .cores, .caches, .cnts, .wire] msk = true) :
    SameBut msk s0 (writeXng r a n v s) := by
  unfold writeXng; try dsimp only
  repeat' first
    | with_reducible first
      | assumption | exact sub_trans hmsk rfl | apply AllSame.cons | apply AllSame.nil | apply State.rekey_same
      | apply State.setFld_same | apply onBits_same | apply plainWrite_same | apply retrainCtrl_same
    | intro _
    | split
    | dsimp only

theorem writeMed_same {msk : List Fld} {s0 : State} (r : _) (a : _) (n : _) (v : _) {s : State} (hs : SameBut msk s0 s)
    (hmsk : sub [.regs, .chans, .reqTabs, .eps, .media] msk = true) :
    SameBut msk s0 (writeMed r a n v s) := by
  unfold writeMed; try dsimp only
  repeat' first
    | with_reducible first
      | assumption | exact sub_trans hmsk rfl | apply State.updMed_same | apply mediaPush_same
      | apply plainWrite_same | apply writeOwner_same
    | intro _
    | split
    | dsimp only

theorem writePart_same {msk : List Fld} {s0 : State} (r : _) (a : _) (n : _) (v : _) {s : State} (hs : SameBut msk s0 s)
    (hmsk : sub [.freeCtr, .regs, .plots, .chans, .norias, .net, .reqTabs, .stks, .parts, .rings, .funcs, .groups, .cores, .faults, .dbg, .cnts, .wire] msk = true) :
    SameBut msk s0 (writePart r a n v s) := by
  unfold writePart; try dsimp only
  repeat' first
    | with_reducible first
      | assumption | exact sub_trans hmsk rfl | apply AllSame.cons | apply AllSame.nil | apply State.updPart_same
      | apply nwinPush_same | apply onBits_same | apply partClrEn_same | apply partSetEn_same
      | apply plainWrite_same | apply writeRing_same | apply writeWinBase_same
    | intro _
    | split
    | dsimp only

theorem writeCom_same {msk : List Fld} {s0 : State} (r : _) (a : _) (n : _) (v : _) {s : State} (hs : SameBut msk s0 s)
    (hmsk : sub [.regs, .parts] msk = true) :
    SameBut msk s0 (writeCom r a n v s) := by
  unfold writeCom; try dsimp only
  repeat' first
    | with_reducible first
      | assumption | exact sub_trans hmsk rfl | apply plainWrite_same | apply remapBegin_same
      | apply remapCancel_same | apply remapClear_same | apply remapStart_same | apply remapWrite_same
      | apply writeCommonsCfg_same
    | intro _
    | split
    | dsimp only

theorem writeMb_same {msk : List Fld} {s0 : State} (r : _) (a : _) (m : _) (v : _) {s : State} (hs : SameBut msk s0 s)
    (hmsk : sub [.regs, .toll] msk = true) :
    SameBut msk s0 (writeMb r a m v s) := by
  unfold writeMb; try dsimp only
  repeat' first
    | with_reducible first
      | assumption | exact sub_trans hmsk rfl | apply mbGo_same | apply plainWrite_same
    | intro _
    | split
    | dsimp only

theorem writeFer_same {msk : List Fld} {s0 : State} (r : _) (a : _) (i : _) (v : _) {s : State} (hs : SameBut msk s0 s)
    (hmsk : sub [.regs, .slices, .dram, .chk, .net, .errs, .xngs, .eps, .coll, .cores, .caches, .sec, .cnts, .wire] msk = true) :
    SameBut msk s0 (writeFer r a i v s) := by
  unfold writeFer; try dsimp only
  repeat' first
    | with_reducible first
      | assumption | exact sub_trans hmsk rfl | apply plainWrite_same | apply readmit_same
    | intro _
    | split
    | dsimp only

theorem writeBlock_same {msk : List Fld} {s0 : State} (r : _) (a : _) (ty : _) (inst : _) (v : _) {s : State} (hs : SameBut msk s0 s)
    (hmsk : sub [.freeCtr, .regs, .caps, .plots, .chans, .slices, .norias, .dram, .chk, .net, .rr, .links, .reqTabs, .stks, .sensors, .coolant, .parts, .rings, .funcs, .lndErr, .cfg, .errs, .xngs, .eps, .groups, .coll, .cores, .caches, .media, .sec, .boot, .store, .faults, .dbg, .cnts, .toll, .wire] msk = true) :
    SameBut msk s0 (writeBlock r a ty inst v s) := by
  unfold writeBlock; try dsimp only
  repeat' first
    | with_reducible first
      | assumption | exact sub_trans hmsk rfl | apply plainWrite_same | apply writeArr_same | apply writeBoot_same
      | apply writeBrg_same | apply writeCc_same | apply writeCnt_same | apply writeCol_same | apply writeCom_same
      | apply writeDbg_same | apply writeDf_same | apply writeFer_same | apply writeGov_same | apply writeLnd_same
      | apply writeMb_same | apply writeMed_same | apply writeNor_same | apply writePart_same
      | apply writePkg_same | apply writePq_same | apply writeRh_same | apply writeSec_same | apply writeSlc_same
      | apply writeThm_same | apply writeXng_same
    | intro _
    | split
    | dsimp only

theorem writeReg_same {msk : List Fld} {s0 : State} (r : _) (a : _) (v : _) {s : State} (hs : SameBut msk s0 s)
    (hmsk : sub [.freeCtr, .regs, .caps, .plots, .chans, .slices, .norias, .dram, .chk, .net, .rr, .links, .reqTabs, .stks, .sensors, .coolant, .parts, .rings, .funcs, .lndErr, .cfg, .errs, .xngs, .eps, .groups, .coll, .cores, .caches, .media, .sec, .boot, .store, .faults, .dbg, .cnts, .toll, .wire] msk = true) :
    SameBut msk s0 (writeReg r a v s) := by
  unfold writeReg; try dsimp only
  repeat' first
    | with_reducible first
      | assumption | exact sub_trans hmsk rfl | apply writeBlock_same | apply writeHdr_same
      | apply writeImsic_same
    | intro _
    | split
    | dsimp only

/-! ### Regs -/

theorem State.noVfErr_same {msk : List Fld} {s0 : State} {s : State} (r : _) (x : _) (hs : SameBut msk s0 s)
    (hmsk : sub [.regs, .dbg, .cnts] msk = true) :
    SameBut msk s0 (State.noVfErr s r x) := by
  unfold State.noVfErr; try dsimp only
  repeat' first
    | with_reducible first
      | assumption | exact sub_trans hmsk rfl | apply State.regErr_same | apply State.reqStepped_same
    | intro _
    | split
    | dsimp only

theorem readHalf_same {msk : List Fld} {s0 : State} (r : _) {s : State} (a : _) (hs : SameBut msk s0 s)
    (hmsk : sub [.freeCtr, .reply, .regs, .caps, .plots, .chans, .net, .reqTabs, .parts, .rings, .errs, .cores, .media, .faults, .dbg, .cnts, .wire] msk = true) :
    SameBut msk s0 (readHalf r s a) := by
  unfold readHalf; try dsimp only
  repeat' first
    | with_reducible first
      | assumption | exact sub_trans hmsk rfl | apply State.readAccess_same | apply readReg_same
    | intro _
    | split
    | dsimp only

theorem regReadAt_same {msk : List Fld} {s0 : State} (r : _) (a : _) (size : _) {s : State} (hs : SameBut msk s0 s)
    (hmsk : sub [.freeCtr, .reply, .regs, .caps, .plots, .chans, .net, .reqTabs, .parts, .rings, .errs, .cores, .media, .faults, .dbg, .cnts, .wire] msk = true) :
    SameBut msk s0 (regReadAt r a size s) := by
  unfold regReadAt; try dsimp only
  repeat' first
    | with_reducible first
      | assumption | exact sub_trans hmsk rfl | apply State.answer_same | apply State.readAccess_same
      | apply State.regErr_same | apply State.reqStepped_same | apply readHalf_same
    | intro _
    | split
    | dsimp only [id]

theorem regRead_same {msk : List Fld} {s0 : State} (r : _) (x : _) (size : _) {s : State} (hs : SameBut msk s0 s)
    (hmsk : sub [.freeCtr, .reply, .regs, .caps, .plots, .chans, .net, .reqTabs, .parts, .rings, .errs, .cores, .media, .faults, .dbg, .cnts, .wire] msk = true) :
    SameBut msk s0 (regRead r x size s) := by
  unfold regRead; try dsimp only
  repeat' first
    | with_reducible first
      | assumption | exact sub_trans hmsk rfl | apply State.answer_same | apply State.noVfErr_same
      | apply regReadAt_same
    | intro _
    | split
    | dsimp only

theorem regWriteAt_same {msk : List Fld} {s0 : State} (r : _) (a : _) (size : _) (v : _) {s : State} (hs : SameBut msk s0 s)
    (hmsk : sub [.freeCtr, .regs, .caps, .plots, .chans, .slices, .norias, .dram, .chk, .net, .rr, .links, .reqTabs, .stks, .sensors, .coolant, .parts, .rings, .funcs, .lndErr, .cfg, .errs, .xngs, .eps, .groups, .coll, .cores, .caches, .media, .sec, .boot, .store, .faults, .dbg, .cnts, .toll, .wire] msk = true) :
    SameBut msk s0 (regWriteAt r a size v s) := by
  unfold regWriteAt; try dsimp only
  repeat' first
    | with_reducible first
      | assumption | exact sub_trans hmsk rfl | apply State.access_same | apply State.regErr_same
      | apply State.reqStepped_same | apply writeReg_same
    | intro _
    | split
    | dsimp only [id]

theorem regWrite_same {msk : List Fld} {s0 : State} (r : _) (x : _) (size : _) (v : _) {s : State} (hs : SameBut msk s0 s)
    (hmsk : sub [.freeCtr, .regs, .caps, .plots, .chans, .slices, .norias, .dram, .chk, .net, .rr, .links, .reqTabs, .stks, .sensors, .coolant, .parts, .rings, .funcs, .lndErr, .cfg, .errs, .xngs, .eps, .groups, .coll, .cores, .caches, .media, .sec, .boot, .store, .faults, .dbg, .cnts, .toll, .wire] msk = true) :
    SameBut msk s0 (regWrite r x size v s) := by
  unfold regWrite; try dsimp only
  repeat' first
    | with_reducible first
      | assumption | exact sub_trans hmsk rfl | apply State.noVfErr_same | apply regWriteAt_same
    | intro _
    | split
    | dsimp only

theorem execHdrLockSet_same {msk : List Fld} {s0 : State} (r : _) (x : _) (size : _) {s : State} (hs : SameBut msk s0 s)
    (hmsk : sub [.freeCtr, .regs, .caps, .plots, .chans, .slices, .norias, .dram, .chk, .net, .rr, .links, .reqTabs, .stks, .sensors, .coolant, .parts, .rings, .funcs, .lndErr, .cfg, .errs, .xngs, .eps, .groups, .coll, .cores, .caches, .media, .sec, .boot, .store, .faults, .dbg, .cnts, .toll, .wire] msk = true) :
    OutSame msk s0 (execHdrLockSet r x size s) := by
  unfold execHdrLockSet; try dsimp only
  repeat' first
    | with_reducible first
      | assumption | exact sub_trans hmsk rfl | apply OutSame.next | apply regWrite_same
    | intro _
    | split
    | dsimp only

theorem execHdrIrqForce_same {msk : List Fld} {s0 : State} (r : _) (x : _) (size : _) (v : _) {s : State} (hs : SameBut msk s0 s)
    (hmsk : sub [.freeCtr, .regs, .caps, .plots, .chans, .slices, .norias, .dram, .chk, .net, .rr, .links, .reqTabs, .stks, .sensors, .coolant, .parts, .rings, .funcs, .lndErr, .cfg, .errs, .xngs, .eps, .groups, .coll, .cores, .caches, .media, .sec, .boot, .store, .faults, .dbg, .cnts, .toll, .wire] msk = true) :
    OutSame msk s0 (execHdrIrqForce r x size v s) := by
  unfold execHdrIrqForce; try dsimp only
  repeat' first
    | with_reducible first
      | assumption | exact sub_trans hmsk rfl | apply OutSame.next | apply regWrite_same
    | intro _
    | split
    | dsimp only

theorem execRegisterPairLoRead_same {msk : List Fld} {s0 : State} (r : _) (x : _) (size : _) {s : State} (hs : SameBut msk s0 s)
    (hmsk : sub [.freeCtr, .reply, .regs, .caps, .plots, .chans, .net, .reqTabs, .parts, .rings, .errs, .cores, .media, .faults, .dbg, .cnts, .wire] msk = true) :
    OutSame msk s0 (execRegisterPairLoRead r x size s) := by
  unfold execRegisterPairLoRead; try dsimp only
  repeat' first
    | with_reducible first
      | assumption | exact sub_trans hmsk rfl | apply OutSame.next | apply regRead_same
    | intro _
    | split
    | dsimp only

theorem execRcRead_same {msk : List Fld} {s0 : State} (r : _) (x : _) (size : _) {s : State} (hs : SameBut msk s0 s)
    (hmsk : sub [.freeCtr, .reply, .regs, .caps, .plots, .chans, .net, .reqTabs, .parts, .rings, .errs, .cores, .media, .faults, .dbg, .cnts, .wire] msk = true) :
    OutSame msk s0 (execRcRead r x size s) := by
  unfold execRcRead; try dsimp only
  repeat' first
    | with_reducible first
      | assumption | exact sub_trans hmsk rfl | apply OutSame.next | apply regRead_same
    | intro _
    | split
    | dsimp only

theorem execRegisterWrite_same {msk : List Fld} {s0 : State} (r : _) (x : _) (size : _) (v : _) {s : State} (hs : SameBut msk s0 s)
    (hmsk : sub [.freeCtr, .regs, .caps, .plots, .chans, .slices, .norias, .dram, .chk, .net, .rr, .links, .reqTabs, .stks, .sensors, .coolant, .parts, .rings, .funcs, .lndErr, .cfg, .errs, .xngs, .eps, .groups, .coll, .cores, .caches, .media, .sec, .boot, .store, .faults, .dbg, .cnts, .toll, .wire] msk = true) :
    OutSame msk s0 (execRegisterWrite r x size v s) := by
  unfold execRegisterWrite; try dsimp only
  repeat' first
    | with_reducible first
      | assumption | exact sub_trans hmsk rfl | apply OutSame.next | apply regWrite_same
    | intro _
    | split
    | dsimp only

/-! ### Jtag -/

theorem State.accDone_same {msk : List Fld} {s0 : State} {s : State} (stat : _) (data : _) (hs : SameBut msk s0 s)
    (hmsk : sub [.dbg] msk = true) :
    SameBut msk s0 (State.accDone s stat data) := by
  unfold State.accDone; try dsimp only
  repeat' first
    | with_reducible first
      | assumption | exact sub_trans hmsk rfl
    | intro _
    | split
    | with_reducible apply SameBut.lit_dbg
    | dsimp only

theorem dbgReg8_same {msk : List Fld} {s0 : State} (rd : _) (a : _) (v : _) {s : State} (hs : SameBut msk s0 s)
    (hmsk : sub [.freeCtr, .reply, .regs, .caps, .plots, .chans, .slices, .norias, .dram, .chk, .net, .rr, .links, .reqTabs, .stks, .sensors, .coolant, .parts, .rings, .funcs, .lndErr, .cfg, .errs, .xngs, .eps, .groups, .coll, .cores, .caches, .media, .sec, .boot, .store, .faults, .dbg, .cnts, .toll, .wire] msk = true) :
    SameBut msk s0 (dbgReg8 rd a v s) := by
  unfold dbgReg8; try dsimp only
  repeat' first
    | with_reducible first
      | assumption | exact sub_trans hmsk rfl | apply State.accDone_same | apply regReadAt_same
      | apply regWriteAt_same
    | intro _
    | split
    | dsimp only

theorem dbgMem_same {msk : List Fld} {s0 : State} (rd : _) (a : _) (v : _) {s : State} (hs : SameBut msk s0 s)
    (hmsk : sub [.freeCtr, .regs, .slices, .dram, .chk, .errs, .cores, .caches, .dbg, .cnts, .wire] msk = true) :
    SameBut msk s0 (dbgMem rd a v s) := by
  unfold dbgMem; try dsimp only
  repeat' first
    | with_reducible first
      | assumption | exact sub_trans hmsk rfl | apply State.accDone_same | apply State.devRead_same
      | apply State.devWrite_same
    | intro _
    | split
    | dsimp only

theorem dbgAccess_same {msk : List Fld} {s0 : State} (dr : _) {s : State} (hs : SameBut msk s0 s)
    (hmsk : sub [.freeCtr, .reply, .regs, .caps, .plots, .chans, .slices, .norias, .dram, .chk, .net, .rr, .links, .reqTabs, .stks, .sensors, .coolant, .parts, .rings, .funcs, .lndErr, .cfg, .errs, .xngs, .eps, .groups, .coll, .cores, .caches, .media, .sec, .boot, .store, .faults, .dbg, .cnts, .toll, .wire] msk = true) :
    SameBut msk s0 (dbgAccess dr s) := by
  unfold dbgAccess; try dsimp only
  repeat' first
    | with_reducible first
      | assumption | exact sub_trans hmsk rfl | apply State.accDone_same | apply dbgMem_same | apply dbgReg8_same
    | intro _
    | split
    | dsimp only

theorem execDbgAccess_same {msk : List Fld} {s0 : State} (dr : _) {s : State} (hs : SameBut msk s0 s)
    (hmsk : sub [.freeCtr, .reply, .regs, .caps, .plots, .chans, .slices, .norias, .dram, .chk, .net, .rr, .links, .reqTabs, .stks, .sensors, .coolant, .parts, .rings, .funcs, .lndErr, .cfg, .errs, .xngs, .eps, .groups, .coll, .cores, .caches, .media, .sec, .boot, .store, .faults, .dbg, .cnts, .toll, .wire] msk = true) :
    OutSame msk s0 (execDbgAccess dr s) := by
  unfold execDbgAccess; try dsimp only
  repeat' first
    | with_reducible first
      | assumption | exact sub_trans hmsk rfl | apply OutSame.next | apply dbgAccess_same
    | intro _
    | split
    | dsimp only

theorem State.haltHart_same {msk : List Fld} {s0 : State} {s : State} (x1 : _) (hs : SameBut msk s0 s)
    (hmsk : sub [.dbg] msk = true) :
    SameBut msk s0 (State.haltHart s x1) := by
  unfold State.haltHart; try dsimp only
  repeat' first
    | with_reducible first
      | assumption | exact sub_trans hmsk rfl | apply State.hartStepped_same
    | intro _
    | split
    | with_reducible apply SameBut.lit_dbg
    | dsimp only

theorem State.resumeHart_same {msk : List Fld} {s0 : State} {s : State} (x1 : _) (hs : SameBut msk s0 s)
    (hmsk : sub [.dbg] msk = true) :
    SameBut msk s0 (State.resumeHart s x1) := by
  unfold State.resumeHart; try dsimp only
  repeat' first
    | with_reducible first
      | assumption | exact sub_trans hmsk rfl | apply State.hartStepped_same
    | intro _
    | split
    | with_reducible apply SameBut.lit_dbg
    | dsimp only

theorem State.stepHart_same {msk : List Fld} {s0 : State} {s : State} (x1 : _) (hs : SameBut msk s0 s)
    (hmsk : sub [.dbg] msk = true) :
    SameBut msk s0 (State.stepHart s x1) := by
  unfold State.stepHart; try dsimp only
  repeat' first
    | with_reducible first
      | assumption | exact sub_trans hmsk rfl
    | intro _
    | split
    | with_reducible apply SameBut.lit_dbg
    | dsimp only

theorem State.dmiAnswer_same {msk : List Fld} {s0 : State} {s : State} (v : _) (hs : SameBut msk s0 s)
    (hmsk : sub [.reply, .dbg] msk = true) :
    SameBut msk s0 (State.dmiAnswer s v) := by
  unfold State.dmiAnswer; try dsimp only
  repeat' first
    | with_reducible first
      | assumption | exact sub_trans hmsk rfl | apply State.answer_same
    | intro _
    | split
    | with_reducible apply SameBut.lit_dbg
    | dsimp only

theorem riderGet_same {msk : List Fld} {s0 : State} (n : _) {s : State} (hs : SameBut msk s0 s)
    (hmsk : sub [.freeCtr, .reply, .dbg] msk = true) :
    SameBut msk s0 (riderGet n s) := by
  unfold riderGet; try dsimp only
  repeat' first
    | with_reducible first
      | assumption | exact sub_trans hmsk rfl | apply State.dmiAnswer_same | apply State.drawn_same
    | intro _
    | split
    | with_reducible apply SameBut.lit_dbg
    | dsimp only

theorem scanDump_same {msk : List Fld} {s0 : State} {s : State} (hs : SameBut msk s0 s)
    (hmsk : sub [.freeCtr, .reply, .dbg] msk = true) :
    SameBut msk s0 (scanDump s) := by
  unfold scanDump; try dsimp only
  repeat' first
    | with_reducible first
      | assumption | exact sub_trans hmsk rfl | apply State.dmiAnswer_same | apply State.drawn_same
    | intro _
    | split
    | dsimp only

theorem onHalted_same {msk : List Fld} {s0 : State} {s : State} (x1 : _) (k : _) (hs : SameBut msk s0 s) (hk : ∀ u, SameBut msk s0 u → SameBut msk s0 (k u))
    (hmsk : sub [] msk = true) :
    SameBut msk s0 (onHalted s x1 k) := by
  unfold onHalted; try dsimp only
  repeat' first
    | with_reducible first
      | assumption | exact sub_trans hmsk rfl | apply hk
    | intro _
    | split
    | dsimp only

theorem dmi_same {msk : List Fld} {s0 : State} (a : _) {s : State} (hs : SameBut msk s0 s)
    (hmsk : sub [.freeCtr, .reply, .plots, .cores, .dbg] msk = true) :
    SameBut msk s0 (dmi a s) := by
  unfold dmi; try dsimp only
  repeat' first
    | with_reducible first
      | assumption | exact sub_trans hmsk rfl | apply State.dmiAnswer_same | apply State.haltHart_same
      | apply State.resumeHart_same | apply State.stepHart_same | apply State.updCore_same
      | apply State.updPlot_same | apply onHalted_same | apply riderGet_same | apply scanDump_same
    | intro _
    | split
    | with_reducible apply SameBut.lit_dbg
    | dsimp only

theorem execDmiAccess_same {msk : List Fld} {s0 : State} (a : _) {s : State} (hs : SameBut msk s0 s)
    (hmsk : sub [.freeCtr, .reply, .plots, .cores, .dbg] msk = true) :
    OutSame msk s0 (execDmiAccess a s) := by
  unfold execDmiAccess; try dsimp only
  repeat' first
    | with_reducible first
      | assumption | exact sub_trans hmsk rfl | apply OutSame.next | apply dmi_same
    | intro _
    | split
    | dsimp only

end Sys2Proof.Machine
end

