-- ==== Sys2Proof/Laws/GrowsPlots.lean ====
section
/-!
SUPPORT. Laws/GrowsPlots.lean: no operation takes back what `Grows` names: one lemma per operation of the plots: array, vector unit, queues.
-/
set_option linter.unusedTactic false
set_option linter.unreachableTactic false
set_option linter.unusedVariables false
set_option linter.unusedSimpArgs false

namespace Sys2Proof.Machine

variable {s0 : State}

theorem Grows.refl (s : State) : Grows s s :=
  ⟨rfl, id, id, Nat.le_refl _, fun _ => id, Nat.le_refl _, Nat.le_refl _, id, List.prefix_refl _⟩

theorem Grows.trans {s t u : State} (h : Grows s t) (k : Grows t u) : Grows s u :=
  ⟨k.pending.trans h.pending, k.mem ∘ h.mem, k.regs ∘ h.regs, h.svn.trans k.svn, fun i => k.revoked i ∘ h.revoked i,
   h.free.trans k.free, h.seals.trans k.seals, k.sealMax ∘ h.sealMax, h.wire.trans k.wire⟩

/-- An update of the other fields. -/
theorem Grows.lit {s : State} {tb reply clocksOff pins caps plots chans slices norias chk net rr links reqTabs stks sensors coolant parts rings funcs lndErr cfg errs xngs eps groups coll cores caches media sec boot store faults dbg cnts} (h : Grows s0 s) :
    Grows s0 (State.mk tb s.freeCtr reply clocksOff pins s.fuses s.regs caps plots chans slices norias s.dram chk net rr links reqTabs stks sensors coolant parts rings funcs lndErr cfg errs xngs eps groups coll cores caches media sec boot store faults dbg cnts s.toll s.wire s.pending) :=
  ⟨h.pending, h.mem, h.regs, h.svn, h.revoked, h.free, h.seals, h.sealMax, h.wire⟩

theorem Grows.foldl {α : Type} {f : State → α → State} {l : List α} {s : State} (h : Grows s0 s)
    (hf : ∀ u a, Grows s0 u → Grows s0 (f u a)) : Grows s0 (l.foldl f s) := by
  induction l generalizing s with
  | nil => exact h
  | cons a l ih => exact ih (hf _ _ h)

theorem Grows.foldl1 {α β : Type} {f : State × β → α → State × β} {l : List α} {x : State × β} (h : Grows s0 x.1)
    (hf : ∀ u a, Grows s0 u.1 → Grows s0 (f u a).1) : Grows s0 (l.foldl f x).1 := by
  induction l generalizing x with
  | nil => exact h
  | cons a l ih => exact ih (hf _ _ h)

theorem Grows.forAll {α : Type} {f : State → α → State} {l : List α} {s : State} (h : Grows s0 s)
    (hf : ∀ u a, Grows s0 u → Grows s0 (f u a)) : Grows s0 (forAll l s f) := h.foldl hf

/-- The outcome is a next state that takes nothing back. -/
def OutGrows (s : State) (o : Out) : Prop := ∃ t, o = .next t ∧ Grows s t

theorem OutGrows.next {t : State} (h : Grows s0 t) : OutGrows s0 (.next t) := ⟨t, rfl, h⟩

theorem State.setReg_grows {s : State} (a : Nat) (w : Word) (h : Grows s0 s) : Grows s0 (s.setReg a w) :=
  ⟨h.pending, h.mem, fun k => twf_tput_at _ _ _ _ (h.regs k), h.svn, h.revoked, h.free, h.seals, h.sealMax, h.wire⟩

theorem State.resetPage_grows {s : State} (a : Nat) (h : Grows s0 s) : Grows s0 (s.resetPage a) :=
  ⟨h.pending, h.mem, fun k => twf_filter _ (fun k => k / 4096 != a / 4096) _ (h.regs k), h.svn, h.revoked, h.free, h.seals, h.sealMax, h.wire⟩

theorem State.drawn_grows {s : State} (h : Grows s0 s) : Grows s0 s.drawn :=
  ⟨h.pending, h.mem, h.regs, h.svn, h.revoked, Nat.le_succ_of_le h.free, h.seals, h.sealMax, h.wire⟩

theorem State.send_grows {s : State} (m : Msg) (h : Grows s0 s) : Grows s0 (s.send m) :=
  ⟨h.pending, h.mem, h.regs, h.svn, h.revoked, h.free, h.seals, h.sealMax, h.wire.trans (List.prefix_append _ _)⟩

/-- A fold whose accumulator carries the state. -/
theorem Grows.foldlBy {α β : Type} (p : β → State) {f : β → α → β} {l : List α} {x : β} (h : Grows s0 (p x))
    (hf : ∀ u a, Grows s0 (p u) → Grows s0 (p (f u a))) : Grows s0 (p (l.foldl f x)) := by
  induction l generalizing x with
  | nil => exact h
  | cons a l ih => exact ih (hf _ _ h)

/-- A change of the tollhouse that leaves its seal counter. -/
theorem Grows.toll {s t : State} (h : Grows s0 s) (hp : t.pending = s.pending) (hm : t.dram = s.dram)
    (hr : t.regs = s.regs) (hf : t.fuses = s.fuses) (hc : t.freeCtr = s.freeCtr) (hw : t.wire = s.wire)
    (hs : t.toll.sealCnt = s.toll.sealCnt) : Grows s0 t :=
  ⟨hp.trans h.pending, hm ▸ h.mem, hr ▸ h.regs, hf ▸ h.svn, hf ▸ h.revoked, hc ▸ h.free, hs ▸ h.seals, hs ▸ h.sealMax, hw ▸ h.wire⟩

theorem Grows.foldlDev {α : Type} {f : DevRes → α → DevRes} {l : List α} {x : DevRes} (h : Grows s0 x.st)
    (hf : ∀ u a, Grows s0 u.st → Grows s0 (f u a).st) : Grows s0 (l.foldl f x).st := Grows.foldlBy DevRes.st h hf

theorem Grows.foldlMv {α : Type} {f : Moved → α → Moved} {l : List α} {x : Moved} (h : Grows s0 x.st)
    (hf : ∀ u a, Grows s0 u.st → Grows s0 (f u a).st) : Grows s0 (l.foldl f x).st := Grows.foldlBy Moved.st h hf

theorem Grows.foldlDn {α β : Type} {f : DevRes × β → α → DevRes × β} {l : List α} {x : DevRes × β} (h : Grows s0 x.1.st)
    (hf : ∀ u a, Grows s0 u.1.st → Grows s0 (f u a).1.st) : Grows s0 (l.foldl f x).1.st :=
  Grows.foldlBy (fun u : DevRes × β => u.1.st) h hf

/-! ### Ops -/

theorem State.setChan_grows {s0 : State} {s : State} (k : _) (x : _) (hs : Grows s0 s) :
    Grows s0 (State.setChan s k x) := by
  unfold State.setChan; try dsimp only
  repeat' first
    | with_reducible first
      | assumption
    | intro _
    | split
    | with_reducible apply Grows.lit
    | dsimp only

theorem State.updChan_grows {s0 : State} {s : State} (k : _) (f : _) (hs : Grows s0 s) :
    Grows s0 (State.updChan s k f) := by
  unfold State.updChan; try dsimp only
  repeat' first
    | with_reducible first
      | assumption | apply State.setChan_grows
    | intro _
    | split
    | dsimp only

theorem State.setPlot_grows {s0 : State} {s : State} (k : _) (x : _) (hs : Grows s0 s) :
    Grows s0 (State.setPlot s k x) := by
  unfold State.setPlot; try dsimp only
  repeat' first
    | with_reducible first
      | assumption
    | intro _
    | split
    | with_reducible apply Grows.lit
    | dsimp only

theorem State.updPlot_grows {s0 : State} {s : State} (k : _) (f : _) (hs : Grows s0 s) :
    Grows s0 (State.updPlot s k f) := by
  unfold State.updPlot; try dsimp only
  repeat' first
    | with_reducible first
      | assumption | apply State.setPlot_grows
    | intro _
    | split
    | dsimp only

theorem State.setSlc_grows {s0 : State} {s : State} (k : _) (x : _) (hs : Grows s0 s) :
    Grows s0 (State.setSlc s k x) := by
  unfold State.setSlc; try dsimp only
  repeat' first
    | with_reducible first
      | assumption
    | intro _
    | split
    | with_reducible apply Grows.lit
    | dsimp only

theorem State.updSlc_grows {s0 : State} {s : State} (k : _) (f : _) (hs : Grows s0 s) :
    Grows s0 (State.updSlc s k f) := by
  unfold State.updSlc; try dsimp only
  repeat' first
    | with_reducible first
      | assumption | apply State.setSlc_grows
    | intro _
    | split
    | dsimp only

theorem State.setNor_grows {s0 : State} {s : State} (k : _) (x : _) (hs : Grows s0 s) :
    Grows s0 (State.setNor s k x) := by
  unfold State.setNor; try dsimp only
  repeat' first
    | with_reducible first
      | assumption
    | intro _
    | split
    | with_reducible apply Grows.lit
    | dsimp only

theorem State.updNor_grows {s0 : State} {s : State} (k : _) (f : _) (hs : Grows s0 s) :
    Grows s0 (State.updNor s k f) := by
  unfold State.updNor; try dsimp only
  repeat' first
    | with_reducible first
      | assumption | apply State.setNor_grows
    | intro _
    | split
    | dsimp only

theorem State.setLink_grows {s0 : State} {s : State} (k : _) (x : _) (hs : Grows s0 s) :
    Grows s0 (State.setLink s k x) := by
  unfold State.setLink; try dsimp only
  repeat' first
    | with_reducible first
      | assumption
    | intro _
    | split
    | with_reducible apply Grows.lit
    | dsimp only

theorem State.updLink_grows {s0 : State} {s : State} (k : _) (f : _) (hs : Grows s0 s) :
    Grows s0 (State.updLink s k f) := by
  unfold State.updLink; try dsimp only
  repeat' first
    | with_reducible first
      | assumption | apply State.setLink_grows
    | intro _
    | split
    | dsimp only

theorem State.setStk_grows {s0 : State} {s : State} (k : _) (x : _) (hs : Grows s0 s) :
    Grows s0 (State.setStk s k x) := by
  unfold State.setStk; try dsimp only
  repeat' first
    | with_reducible first
      | assumption
    | intro _
    | split
    | with_reducible apply Grows.lit
    | dsimp only

theorem State.updStk_grows {s0 : State} {s : State} (k : _) (f : _) (hs : Grows s0 s) :
    Grows s0 (State.updStk s k f) := by
  unfold State.updStk; try dsimp only
  repeat' first
    | with_reducible first
      | assumption | apply State.setStk_grows
    | intro _
    | split
    | dsimp only

theorem State.setSensor_grows {s0 : State} {s : State} (k : _) (x : _) (hs : Grows s0 s) :
    Grows s0 (State.setSensor s k x) := by
  unfold State.setSensor; try dsimp only
  repeat' first
    | with_reducible first
      | assumption
    | intro _
    | split
    | with_reducible apply Grows.lit
    | dsimp only

theorem State.updSensor_grows {s0 : State} {s : State} (k : _) (f : _) (hs : Grows s0 s) :
    Grows s0 (State.updSensor s k f) := by
  unfold State.updSensor; try dsimp only
  repeat' first
    | with_reducible first
      | assumption | apply State.setSensor_grows
    | intro _
    | split
    | dsimp only

theorem State.setPart_grows {s0 : State} {s : State} (k : _) (x : _) (hs : Grows s0 s) :
    Grows s0 (State.setPart s k x) := by
  unfold State.setPart; try dsimp only
  repeat' first
    | with_reducible first
      | assumption
    | intro _
    | split
    | with_reducible apply Grows.lit
    | dsimp only

theorem State.updPart_grows {s0 : State} {s : State} (k : _) (f : _) (hs : Grows s0 s) :
    Grows s0 (State.updPart s k f) := by
  unfold State.updPart; try dsimp only
  repeat' first
    | with_reducible first
      | assumption | apply State.setPart_grows
    | intro _
    | split
    | dsimp only

theorem State.setRing_grows {s0 : State} {s : State} (k : _) (x : _) (hs : Grows s0 s) :
    Grows s0 (State.setRing s k x) := by
  unfold State.setRing; try dsimp only
  repeat' first
    | with_reducible first
      | assumption
    | intro _
    | split
    | with_reducible apply Grows.lit
    | dsimp only

theorem State.updRing_grows {s0 : State} {s : State} (k : _) (f : _) (hs : Grows s0 s) :
    Grows s0 (State.updRing s k f) := by
  unfold State.updRing; try dsimp only
  repeat' first
    | with_reducible first
      | assumption | apply State.setRing_grows
    | intro _
    | split
    | dsimp only

theorem State.setFunc_grows {s0 : State} {s : State} (k : _) (x : _) (hs : Grows s0 s) :
    Grows s0 (State.setFunc s k x) := by
  unfold State.setFunc; try dsimp only
  repeat' first
    | with_reducible first
      | assumption
    | intro _
    | split
    | with_reducible apply Grows.lit
    | dsimp only

theorem State.updFunc_grows {s0 : State} {s : State} (k : _) (f : _) (hs : Grows s0 s) :
    Grows s0 (State.updFunc s k f) := by
  unfold State.updFunc; try dsimp only
  repeat' first
    | with_reducible first
      | assumption | apply State.setFunc_grows
    | intro _
    | split
    | dsimp only

theorem State.setErrf_grows {s0 : State} {s : State} (k : _) (x : _) (hs : Grows s0 s) :
    Grows s0 (State.setErrf s k x) := by
  unfold State.setErrf; try dsimp only
  repeat' first
    | with_reducible first
      | assumption
    | intro _
    | split
    | with_reducible apply Grows.lit
    | dsimp only

theorem State.updErrf_grows {s0 : State} {s : State} (k : _) (f : _) (hs : Grows s0 s) :
    Grows s0 (State.updErrf s k f) := by
  unfold State.updErrf; try dsimp only
  repeat' first
    | with_reducible first
      | assumption | apply State.setErrf_grows
    | intro _
    | split
    | dsimp only

theorem State.setXng_grows {s0 : State} {s : State} (k : _) (x : _) (hs : Grows s0 s) :
    Grows s0 (State.setXng s k x) := by
  unfold State.setXng; try dsimp only
  repeat' first
    | with_reducible first
      | assumption
    | intro _
    | split
    | with_reducible apply Grows.lit
    | dsimp only

theorem State.updXng_grows {s0 : State} {s : State} (k : _) (f : _) (hs : Grows s0 s) :
    Grows s0 (State.updXng s k f) := by
  unfold State.updXng; try dsimp only
  repeat' first
    | with_reducible first
      | assumption | apply State.setXng_grows
    | intro _
    | split
    | dsimp only

theorem State.setEp_grows {s0 : State} {s : State} (k : _) (x : _) (hs : Grows s0 s) :
    Grows s0 (State.setEp s k x) := by
  unfold State.setEp; try dsimp only
  repeat' first
    | with_reducible first
      | assumption
    | intro _
    | split
    | with_reducible apply Grows.lit
    | dsimp only

theorem State.updEp_grows {s0 : State} {s : State} (k : _) (f : _) (hs : Grows s0 s) :
    Grows s0 (State.updEp s k f) := by
  unfold State.updEp; try dsimp only
  repeat' first
    | with_reducible first
      | assumption | apply State.setEp_grows
    | intro _
    | split
    | dsimp only

theorem State.setGrp_grows {s0 : State} {s : State} (k : _) (x : _) (hs : Grows s0 s) :
    Grows s0 (State.setGrp s k x) := by
  unfold State.setGrp; try dsimp only
  repeat' first
    | with_reducible first
      | assumption
    | intro _
    | split
    | with_reducible apply Grows.lit
    | dsimp only

theorem State.updGrp_grows {s0 : State} {s : State} (k : _) (f : _) (hs : Grows s0 s) :
    Grows s0 (State.updGrp s k f) := by
  unfold State.updGrp; try dsimp only
  repeat' first
    | with_reducible first
      | assumption | apply State.setGrp_grows
    | intro _
    | split
    | dsimp only

theorem State.setCore_grows {s0 : State} {s : State} (k : _) (x : _) (hs : Grows s0 s) :
    Grows s0 (State.setCore s k x) := by
  unfold State.setCore; try dsimp only
  repeat' first
    | with_reducible first
      | assumption
    | intro _
    | split
    | with_reducible apply Grows.lit
    | dsimp only

theorem State.updCore_grows {s0 : State} {s : State} (k : _) (f : _) (hs : Grows s0 s) :
    Grows s0 (State.updCore s k f) := by
  unfold State.updCore; try dsimp only
  repeat' first
    | with_reducible first
      | assumption | apply State.setCore_grows
    | intro _
    | split
    | dsimp only

theorem State.setMed_grows {s0 : State} {s : State} (k : _) (x : _) (hs : Grows s0 s) :
    Grows s0 (State.setMed s k x) := by
  unfold State.setMed; try dsimp only
  repeat' first
    | with_reducible first
      | assumption
    | intro _
    | split
    | with_reducible apply Grows.lit
    | dsimp only

theorem State.updMed_grows {s0 : State} {s : State} (k : _) (f : _) (hs : Grows s0 s) :
    Grows s0 (State.updMed s k f) := by
  unfold State.updMed; try dsimp only
  repeat' first
    | with_reducible first
      | assumption | apply State.setMed_grows
    | intro _
    | split
    | dsimp only

theorem State.setCnt_grows {s0 : State} {s : State} (k : _) (x : _) (hs : Grows s0 s) :
    Grows s0 (State.setCnt s k x) := by
  unfold State.setCnt; try dsimp only
  repeat' first
    | with_reducible first
      | assumption
    | intro _
    | split
    | with_reducible apply Grows.lit
    | dsimp only

theorem State.updCnt_grows {s0 : State} {s : State} (k : _) (f : _) (hs : Grows s0 s) :
    Grows s0 (State.updCnt s k f) := by
  unfold State.updCnt; try dsimp only
  repeat' first
    | with_reducible first
      | assumption | apply State.setCnt_grows
    | intro _
    | split
    | dsimp only

theorem State.setReqTab_grows {s0 : State} {s : State} (k : _) (x : _) (hs : Grows s0 s) :
    Grows s0 (State.setReqTab s k x) := by
  unfold State.setReqTab; try dsimp only
  repeat' first
    | with_reducible first
      | assumption
    | intro _
    | split
    | with_reducible apply Grows.lit
    | dsimp only

theorem State.updReqTab_grows {s0 : State} {s : State} (k : _) (f : _) (hs : Grows s0 s) :
    Grows s0 (State.updReqTab s k f) := by
  unfold State.updReqTab; try dsimp only
  repeat' first
    | with_reducible first
      | assumption | apply State.setReqTab_grows
    | intro _
    | split
    | dsimp only

theorem State.setFld_grows {s0 : State} {s : State} (a : _) (lo : _) (w : _) (x : _) (hs : Grows s0 s) :
    Grows s0 (State.setFld s a lo w x) := by
  unfold State.setFld; try dsimp only
  repeat' first
    | with_reducible first
      | assumption | apply State.setReg_grows
    | intro _
    | split
    | dsimp only

theorem State.setBit_grows {s0 : State} {s : State} (a : _) (i : _) (hs : Grows s0 s) :
    Grows s0 (State.setBit s a i) := by
  unfold State.setBit; try dsimp only
  repeat' first
    | with_reducible first
      | assumption | apply State.setFld_grows
    | intro _
    | split
    | dsimp only

theorem State.clrBit_grows {s0 : State} {s : State} (a : _) (i : _) (hs : Grows s0 s) :
    Grows s0 (State.clrBit s a i) := by
  unfold State.clrBit; try dsimp only
  repeat' first
    | with_reducible first
      | assumption | apply State.setFld_grows
    | intro _
    | split
    | dsimp only

theorem State.addFld_grows {s0 : State} {s : State} (a : _) (lo : _) (w : _) (n : _) (hs : Grows s0 s) :
    Grows s0 (State.addFld s a lo w n) := by
  unfold State.addFld; try dsimp only
  repeat' first
    | with_reducible first
      | assumption | apply State.setFld_grows
    | intro _
    | split
    | dsimp only

theorem State.irq_grows {s0 : State} {s : State} (a : _) (i : _) (hs : Grows s0 s) :
    Grows s0 (State.irq s a i) := by
  unfold State.irq; try dsimp only
  repeat' first
    | with_reducible first
      | assumption | apply State.setBit_grows
    | intro _
    | split
    | dsimp only

theorem State.pageErr_grows {s0 : State} {s : State} (a : _) (addr : _) (hs : Grows s0 s) :
    Grows s0 (State.pageErr s a addr) := by
  unfold State.pageErr; try dsimp only
  repeat' first
    | with_reducible first
      | assumption | apply State.addFld_grows | apply State.setReg_grows
    | intro _
    | split
    | dsimp only

theorem State.inject_grows {s0 : State} {s : State} (cls : _) (src : _) (dst : _) (m : _) (hs : Grows s0 s) :
    Grows s0 (State.inject s cls src dst m) := by
  unfold State.inject; try dsimp only
  repeat' first
    | with_reducible first
      | assumption
    | intro _
    | split
    | with_reducible apply Grows.lit
    | dsimp only

theorem State.noteItem_grows {s0 : State} {s : State} (u : _) (i : _) (hs : Grows s0 s) :
    Grows s0 (State.noteItem s u i) := by
  unfold State.noteItem; try dsimp only
  repeat' first
    | with_reducible first
      | assumption
    | intro _
    | split
    | with_reducible apply Grows.lit
    | dsimp only

theorem State.holdMsg_grows {s0 : State} {s : State} (cls : _) (src : _) (dst : _) (m : _) (hs : Grows s0 s) :
    Grows s0 (State.holdMsg s cls src dst m) := by
  unfold State.holdMsg; try dsimp only
  repeat' first
    | with_reducible first
      | assumption | apply State.noteItem_grows
    | intro _
    | split
    | with_reducible apply Grows.lit
    | dsimp only

theorem State.arrived_grows {s0 : State} {s : State} (m : _) (hs : Grows s0 s) :
    Grows s0 (State.arrived s m) := by
  unfold State.arrived; try dsimp only
  repeat' first
    | with_reducible first
      | assumption
    | intro _
    | split
    | with_reducible apply Grows.lit
    | dsimp only

theorem State.count_grows {s0 : State} {s : State} (k : _) (i : _) (n : _) (hs : Grows s0 s) :
    Grows s0 (State.count s k i n) := by
  unfold State.count; try dsimp only
  repeat' first
    | with_reducible first
      | assumption | apply State.setBit_grows | apply State.setCnt_grows
    | intro _
    | split
    | dsimp only

theorem State.countChan_grows {s0 : State} {s : State} (k : _) (i : _) (n : _) (hs : Grows s0 s) :
    Grows s0 (State.countChan s k i n) := by
  unfold State.countChan; try dsimp only
  repeat' first
    | with_reducible first
      | assumption | apply State.count_grows
    | intro _
    | split
    | dsimp only

theorem State.cntSwitch_grows {s0 : State} {s : State} (k : _) (boundary : _) (tag : _) (hs : Grows s0 s) :
    Grows s0 (State.cntSwitch s k boundary tag) := by
  unfold State.cntSwitch; try dsimp only
  repeat' first
    | with_reducible first
      | assumption | apply State.updCnt_grows
    | intro _
    | split
    | dsimp only

theorem State.routeIrq_grows {s0 : State} {s : State} (n : _) (hs : Grows s0 s) :
    Grows s0 (State.routeIrq s n) := by
  unfold State.routeIrq; try dsimp only
  repeat' first
    | with_reducible first
      | assumption | apply State.updCore_grows
    | intro _
    | split
    | dsimp only

theorem State.msix_grows {s0 : State} {s : State} (f : _) (vec : _) (hs : Grows s0 s) :
    Grows s0 (State.msix s f vec) := by
  unfold State.msix; try dsimp only
  repeat' first
    | with_reducible first
      | assumption | apply State.routeIrq_grows | apply State.send_grows
    | intro _
    | split
    | dsimp only

theorem State.pushRpt_grows {s0 : State} {s : State} (f : _) (r : _) (hs : Grows s0 s) :
    Grows s0 (State.pushRpt s f r) := by
  unfold State.pushRpt; try dsimp only
  repeat' first
    | with_reducible first
      | assumption | apply State.addFld_grows | apply State.msix_grows | apply State.setErrf_grows
    | intro _
    | split
    | dsimp only

theorem State.report_grows {s0 : State} {s : State} (own : _) (code : _) (sev : _) (die : _) (plot : _) (addr : _) (hs : Grows s0 s) :
    Grows s0 (State.report s own code sev die plot addr) := by
  unfold State.report; try dsimp only
  repeat' first
    | with_reducible first
      | assumption | apply State.pushRpt_grows
    | intro _
    | split
    | dsimp only

theorem State.alert_grows {s0 : State} {s : State} (i : _) (hs : Grows s0 s) :
    Grows s0 (State.alert s i) := by
  unfold State.alert; try dsimp only
  repeat' first
    | with_reducible first
      | assumption | apply State.count_grows | apply State.msix_grows | apply State.setBit_grows
    | intro _
    | split
    | dsimp only

theorem State.regErr_grows {s0 : State} {s : State} (addr : _) (cause : _) (r : _) (hs : Grows s0 s) :
    Grows s0 (State.regErr s addr cause r) := by
  unfold State.regErr; try dsimp only
  repeat' first
    | with_reducible first
      | assumption | apply State.count_grows | apply State.setReg_grows
    | intro _
    | split
    | dsimp only

theorem State.hartStepped_grows {s0 : State} {s : State} (x1 : _) (hs : Grows s0 s) :
    Grows s0 (State.hartStepped s x1) := by
  unfold State.hartStepped; try dsimp only
  repeat' first
    | with_reducible first
      | assumption
    | intro _
    | split
    | with_reducible apply Grows.lit
    | dsimp only

theorem State.coreTrap_grows {s0 : State} {s : State} (n : _) (cause : _) (tval : _) (hs : Grows s0 s) :
    Grows s0 (State.coreTrap s n cause tval) := by
  unfold State.coreTrap; try dsimp only
  repeat' first
    | with_reducible first
      | assumption | apply State.hartStepped_grows | apply State.updCore_grows
    | intro _
    | split
    | dsimp only

theorem State.accessFault_grows {s0 : State} {s : State} (r : _) (rd : _) (a : _) (hs : Grows s0 s) :
    Grows s0 (State.accessFault s r rd a) := by
  unfold State.accessFault; try dsimp only
  repeat' first
    | with_reducible first
      | assumption | apply State.coreTrap_grows
    | intro _
    | split
    | dsimp only

theorem State.reqStepped_grows {s0 : State} {s : State} (r : _) (hs : Grows s0 s) :
    Grows s0 (State.reqStepped s r) := by
  unfold State.reqStepped; try dsimp only
  repeat' first
    | with_reducible first
      | assumption | apply State.hartStepped_grows
    | intro _
    | split
    | dsimp only

theorem State.access_grows {s : State} (r : Req) (a : Nat) (k : State → State) (hs : Grows s0 s)
    (hk : ∀ u, Grows s0 u → Grows s0 (k u)) : Grows s0 (s.access r a k) := by
  unfold State.access
  generalize reach s r false a = o
  cases o
  · exact hk _ (State.reqStepped_grows r hs)
  · exact hs
  · exact hs
  · exact State.regErr_grows _ _ r (State.reqStepped_grows r hs)
  · exact State.accessFault_grows r _ a hs

theorem State.answer_grows {s0 : State} {s : State} (data : _) (hs : Grows s0 s) :
    Grows s0 (State.answer s data) := by
  unfold State.answer; try dsimp only
  repeat' first
    | with_reducible first
      | assumption
    | intro _
    | split
    | with_reducible apply Grows.lit
    | dsimp only

theorem State.readAccess_grows {s : State} (r : Req) (a : Nat) (k : State → State) (n : Nat) (hs : Grows s0 s)
    (hk : ∀ u, Grows s0 u → Grows s0 (k u)) : Grows s0 (s.readAccess r a k n) := by
  unfold State.readAccess
  generalize reach s r true a = o
  cases o
  · exact hk _ (State.reqStepped_grows r hs)
  · dsimp only; split
    · exact State.answer_grows _ hs
    · exact hs
  · exact Grows.lit (State.drawn_grows (State.reqStepped_grows r hs))
  · exact State.answer_grows _ (State.regErr_grows _ _ r (State.reqStepped_grows r hs))
  · exact State.accessFault_grows r _ a hs

theorem State.capture_grows {s0 : State} {s : State} (a : _) (w : _) (hs : Grows s0 s) :
    Grows s0 (State.capture s a w) := by
  unfold State.capture; try dsimp only
  repeat' first
    | with_reducible first
      | assumption
    | intro _
    | split
    | with_reducible apply Grows.lit
    | dsimp only

/-! ### PlotOps -/

theorem State.ctrAdd_grows {s0 : State} {s : State} (k : _) (n : _) (amt : _) (hs : Grows s0 s) :
    Grows s0 (State.ctrAdd s k n amt) := by
  unfold State.ctrAdd; try dsimp only
  repeat' first
    | with_reducible first
      | assumption | apply State.irq_grows | apply State.setBit_grows | apply State.setFld_grows
    | intro _
    | split
    | dsimp only

theorem State.tokArrive_grows {s0 : State} {s : State} (k : _) (n : _) (amt : _) (hs : Grows s0 s) :
    Grows s0 (State.tokArrive s k n amt) := by
  unfold State.tokArrive; try dsimp only
  repeat' first
    | with_reducible first
      | assumption | apply State.ctrAdd_grows
    | intro _
    | split
    | with_reducible apply Grows.lit
    | dsimp only

theorem State.waitTake_grows {s0 : State} {s : State} (k : _) (y : _) (hs : Grows s0 s) :
    Grows s0 (State.waitTake s k y) := by
  unfold State.waitTake; try dsimp only
  repeat' first
    | with_reducible first
      | assumption | apply State.setFld_grows
    | intro _
    | split
    | dsimp only

theorem State.updQueue_grows {s0 : State} {s : State} (k : _) (q : _) (f : _) (hs : Grows s0 s) :
    Grows s0 (State.updQueue s k q f) := by
  unfold State.updQueue; try dsimp only
  repeat' first
    | with_reducible first
      | assumption | apply State.updPlot_grows
    | intro _
    | split
    | dsimp only

theorem State.wpMatch_grows {s0 : State} {s : State} (k : _) (q : _) (tag : _) (n : _) (hs : Grows s0 s) :
    Grows s0 (State.wpMatch s k q tag n) := by
  unfold State.wpMatch; try dsimp only
  repeat' first
    | with_reducible first
      | assumption | apply State.addFld_grows | apply State.clrBit_grows | apply State.setBit_grows
      | apply State.setReg_grows
    | intro _
    | split
    | with_reducible apply Grows.lit
    | dsimp only

theorem State.wpMatches_grows {s0 : State} {s : State} (k : _) (q : _) (tag : _) (hs : Grows s0 s) :
    Grows s0 (State.wpMatches s k q tag) := by
  unfold State.wpMatches; try dsimp only
  repeat' first
    | with_reducible first
      | assumption | apply Grows.foldl | apply Grows.foldl1 | apply Grows.foldlDev | apply Grows.foldlMv
      | apply Grows.foldlDn | apply State.wpMatch_grows
    | intro _
    | split
    | dsimp only

theorem State.record_grows {s0 : State} {s : State} (k : _) (r : _) (hs : Grows s0 s) :
    Grows s0 (State.record s k r) := by
  unfold State.record; try dsimp only
  repeat' first
    | with_reducible first
      | assumption | apply State.irq_grows | apply State.setPlot_grows | apply State.updQueue_grows
    | intro _
    | split
    | dsimp only

theorem State.plotToken_grows {s0 : State} {s : State} (k : _) (dst : _) (m : _) (hs : Grows s0 s) :
    Grows s0 (State.plotToken s k dst m) := by
  unfold State.plotToken; try dsimp only
  repeat' first
    | with_reducible first
      | assumption | apply State.count_grows | apply State.inject_grows | apply State.irq_grows
    | intro _
    | split
    | dsimp only

theorem State.signal_grows {s0 : State} {s : State} (k : _) (y : _) (g : _) (hs : Grows s0 s) :
    Grows s0 (State.signal s k y g) := by
  unfold State.signal; try dsimp only
  repeat' first
    | with_reducible first
      | assumption | apply State.plotToken_grows | apply State.updPlot_grows
    | intro _
    | split
    | dsimp only

theorem State.runPoison_grows {s0 : State} {s : State} (k : _) (hs : Grows s0 s) :
    Grows s0 (State.runPoison s k) := by
  unfold State.runPoison; try dsimp only
  repeat' first
    | with_reducible first
      | assumption | apply State.updPart_grows
    | intro _
    | split
    | dsimp only

theorem State.complete_grows {s0 : State} {s : State} (k : _) (q : _) (d : _) (status : _) (hs : Grows s0 s) :
    Grows s0 (State.complete s k q d status) := by
  unfold State.complete; try dsimp only
  repeat' first
    | with_reducible first
      | assumption | apply State.record_grows | apply State.runPoison_grows | apply State.signal_grows
      | apply State.wpMatches_grows
    | intro _
    | split
    | dsimp only

theorem State.rejectHold_grows {s0 : State} {s : State} (k : _) (q : _) (d : _) (status : _) (hs : Grows s0 s) :
    Grows s0 (State.rejectHold s k q d status) := by
  unfold State.rejectHold; try dsimp only
  repeat' first
    | with_reducible first
      | assumption | apply State.irq_grows | apply State.record_grows | apply State.updQueue_grows
    | intro _
    | split
    | dsimp only

theorem State.releaseHeld_grows {s0 : State} {s : State} (k : _) (hs : Grows s0 s) :
    Grows s0 (State.releaseHeld s k) := by
  unfold State.releaseHeld; try dsimp only
  repeat' first
    | with_reducible first
      | assumption | apply Grows.foldl | apply Grows.foldl1 | apply Grows.foldlDev | apply Grows.foldlMv
      | apply Grows.foldlDn | apply State.record_grows | apply State.updQueue_grows
    | intro _
    | split
    | dsimp only

theorem State.abortEntries_grows {s0 : State} {s : State} (k : _) (q : _) (hs : Grows s0 s) :
    Grows s0 (State.abortEntries s k q) := by
  unfold State.abortEntries; try dsimp only
  repeat' first
    | with_reducible first
      | assumption | apply Grows.foldl | apply Grows.foldl1 | apply Grows.foldlDev | apply Grows.foldlMv
      | apply Grows.foldlDn | apply State.complete_grows | apply State.updQueue_grows
    | intro _
    | split
    | dsimp only

theorem State.rhErr_grows {s0 : State} {s : State} (k : _) (code : _) (info : _) (hi : _) (hs : Grows s0 s) :
    Grows s0 (State.rhErr s k code info hi) := by
  unfold State.rhErr; try dsimp only
  repeat' first
    | with_reducible first
      | assumption | apply State.addFld_grows | apply State.count_grows | apply State.setReg_grows
    | intro _
    | split
    | dsimp only

/-! ### Array -/

theorem State.updArr_grows {s0 : State} {s : State} (k : _) (f : _) (hs : Grows s0 s) :
    Grows s0 (State.updArr s k f) := by
  unfold State.updArr; try dsimp only
  repeat' first
    | with_reducible first
      | assumption | apply State.updPlot_grows
    | intro _
    | split
    | dsimp only

theorem State.arrNow_grows {s0 : State} {s : State} (k : _) (t : _) (hs : Grows s0 s) :
    Grows s0 (State.arrNow s k t) := by
  unfold State.arrNow; try dsimp only
  repeat' first
    | with_reducible first
      | assumption | apply State.updArr_grows
    | intro _
    | split
    | dsimp only

theorem lookahead_grows {s0 : State} {s : State} (k : _) (t : _) (hs : Grows s0 s) :
    Grows s0 (lookahead s k t) := by
  unfold lookahead; try dsimp only
  repeat' first
    | with_reducible first
      | assumption | apply State.arrNow_grows | apply State.rejectHold_grows | apply State.updPlot_grows
    | intro _
    | split
    | dsimp only

theorem execLookaheadEntry_grows {s0 : State} (p : _) (t : _) {s : State} (hs : Grows s0 s) :
    OutGrows s0 (execLookaheadEntry p t s) := by
  unfold execLookaheadEntry; try dsimp only
  repeat' first
    | with_reducible first
      | assumption | apply OutGrows.next | apply lookahead_grows
    | intro _
    | split
    | dsimp only

theorem startLoad_grows {s0 : State} {s : State} (k : _) (t : _) (bore : _) (hs : Grows s0 s) :
    Grows s0 (startLoad s k t bore) := by
  unfold startLoad; try dsimp only
  repeat' first
    | with_reducible first
      | assumption | apply State.updPlot_grows
    | intro _
    | split
    | dsimp only

theorem execBoreStart_grows {s0 : State} (p : _) (t : _) {s : State} (hs : Grows s0 s) :
    OutGrows s0 (execBoreStart p t s) := by
  unfold execBoreStart; try dsimp only
  repeat' first
    | with_reducible first
      | assumption | apply OutGrows.next | apply startLoad_grows
    | intro _
    | split
    | dsimp only

theorem boreDone_grows {s0 : State} {s : State} (k : _) (t : _) (hs : Grows s0 s) :
    Grows s0 (boreDone s k t) := by
  unfold boreDone; try dsimp only
  repeat' first
    | with_reducible first
      | assumption | apply State.updArr_grows
    | intro _
    | split
    | dsimp only

theorem execBoreEntryDone_grows {s0 : State} (p : _) (t : _) {s : State} (hs : Grows s0 s) :
    OutGrows s0 (execBoreEntryDone p t s) := by
  unfold execBoreEntryDone; try dsimp only
  repeat' first
    | with_reducible first
      | assumption | apply OutGrows.next | apply boreDone_grows
    | intro _
    | split
    | dsimp only

theorem execShadowLoadStart_grows {s0 : State} (p : _) (t : _) {s : State} (hs : Grows s0 s) :
    OutGrows s0 (execShadowLoadStart p t s) := by
  unfold execShadowLoadStart; try dsimp only
  repeat' first
    | with_reducible first
      | assumption | apply OutGrows.next | apply startLoad_grows
    | intro _
    | split
    | dsimp only

theorem shadowDone_grows {s0 : State} {s : State} (k : _) (t : _) (hs : Grows s0 s) :
    Grows s0 (shadowDone s k t) := by
  unfold shadowDone; try dsimp only
  repeat' first
    | with_reducible first
      | assumption | apply State.updArr_grows
    | intro _
    | split
    | dsimp only

theorem execShadowLoaded_grows {s0 : State} (p : _) (t : _) {s : State} (hs : Grows s0 s) :
    OutGrows s0 (execShadowLoaded p t s) := by
  unfold execShadowLoaded; try dsimp only
  repeat' first
    | with_reducible first
      | assumption | apply OutGrows.next | apply shadowDone_grows
    | intro _
    | split
    | dsimp only

theorem sparseReject_grows {s0 : State} {s : State} (k : _) (t : _) (hs : Grows s0 s) :
    Grows s0 (sparseReject s k t) := by
  unfold sparseReject; try dsimp only
  repeat' first
    | with_reducible first
      | assumption | apply State.rejectHold_grows | apply State.updArr_grows
    | intro _
    | split
    | dsimp only

theorem execSparseMetaReject_grows {s0 : State} (p : _) (t : _) {s : State} (hs : Grows s0 s) :
    OutGrows s0 (execSparseMetaReject p t s) := by
  unfold execSparseMetaReject; try dsimp only
  repeat' first
    | with_reducible first
      | assumption | apply OutGrows.next | apply sparseReject_grows
    | intro _
    | split
    | dsimp only

theorem startPass_grows {s0 : State} {s : State} (k : _) (t : _) (hs : Grows s0 s) :
    Grows s0 (startPass s k t) := by
  unfold startPass; try dsimp only
  repeat' first
    | with_reducible first
      | assumption | apply State.count_grows | apply State.updArr_grows | apply State.waitTake_grows
    | intro _
    | split
    | dsimp only

theorem execPassStart_grows {s0 : State} (p : _) (t : _) {s : State} (hs : Grows s0 s) :
    OutGrows s0 (execPassStart p t s) := by
  unfold execPassStart; try dsimp only
  repeat' first
    | with_reducible first
      | assumption | apply OutGrows.next | apply startPass_grows
    | intro _
    | split
    | dsimp only

theorem execShadowFree_grows {s0 : State} (p : _) (t : _) {s : State} (hs : Grows s0 s) :
    OutGrows s0 (execShadowFree p t s) := by
  unfold execShadowFree; try dsimp only
  repeat' first
    | with_reducible first
      | assumption | apply OutGrows.next | apply State.updArr_grows
    | intro _
    | split
    | dsimp only

theorem bubble_grows {s0 : State} {s : State} (k : _) (t : _) (why : _) (hs : Grows s0 s) :
    Grows s0 (bubble s k t why) := by
  unfold bubble; try dsimp only
  repeat' first
    | with_reducible first
      | assumption | apply State.count_grows | apply State.updArr_grows
    | intro _
    | split
    | dsimp only

theorem issueVec_grows {s0 : State} {s : State} (k : _) (t : _) (x : _) (hs : Grows s0 s) :
    Grows s0 (issueVec s k t x) := by
  unfold issueVec; try dsimp only
  repeat' first
    | with_reducible first
      | assumption | apply State.count_grows | apply State.drawn_grows | apply State.updArr_grows
      | apply State.updStk_grows
    | intro _
    | split
    | dsimp only [id]

theorem issueSlot_grows {s0 : State} {s : State} (k : _) (t : _) (hs : Grows s0 s) :
    Grows s0 (issueSlot s k t) := by
  unfold issueSlot; try dsimp only
  repeat' first
    | with_reducible first
      | assumption | apply bubble_grows | apply issueVec_grows
    | intro _
    | split
    | dsimp only

theorem execVectorIssue_grows {s0 : State} (p : _) (t : _) {s : State} (hs : Grows s0 s) :
    OutGrows s0 (execVectorIssue p t s) := by
  unfold execVectorIssue; try dsimp only
  repeat' first
    | with_reducible first
      | assumption | apply OutGrows.next | apply issueSlot_grows
    | intro _
    | split
    | dsimp only

theorem passDone_grows {s0 : State} {s : State} (k : _) (seq : _) (hs : Grows s0 s) :
    Grows s0 (passDone s k seq) := by
  unfold passDone; try dsimp only
  repeat' first
    | with_reducible first
      | assumption | apply State.complete_grows | apply State.updArr_grows
    | intro _
    | split
    | dsimp only

theorem rowDone_grows {s0 : State} {s : State} (k : _) (seq : _) (bad : _) (hs : Grows s0 s) :
    Grows s0 (rowDone s k seq bad) := by
  unfold rowDone; try dsimp only
  repeat' first
    | with_reducible first
      | assumption | apply State.updArr_grows | apply passDone_grows
    | intro _
    | split
    | dsimp only

theorem State.cvtFlags_grows {s0 : State} {s : State} (k : _) (flags : _) (hs : Grows s0 s) :
    Grows s0 (State.cvtFlags s k flags) := by
  unfold State.cvtFlags; try dsimp only
  repeat' first
    | with_reducible first
      | assumption | apply State.setReg_grows
    | intro _
    | split
    | dsimp only

theorem accWrite_grows {s0 : State} {s : State} (k : _) (c : _) (t : _) (hs : Grows s0 s) :
    Grows s0 (accWrite s k c t) := by
  unfold accWrite; try dsimp only
  repeat' first
    | with_reducible first
      | assumption | apply State.cvtFlags_grows | apply State.updArr_grows | apply State.updPlot_grows
      | apply rowDone_grows
    | intro _
    | split
    | dsimp only

theorem execAccWrite_grows {s0 : State} (p : _) (c : _) (t : _) {s : State} (hs : Grows s0 s) :
    OutGrows s0 (execAccWrite p c t s) := by
  unfold execAccWrite; try dsimp only
  repeat' first
    | with_reducible first
      | assumption | apply OutGrows.next | apply accWrite_grows
    | intro _
    | split
    | dsimp only

theorem drainRow_grows {s0 : State} {s : State} (k : _) (t : _) (hs : Grows s0 s) :
    Grows s0 (drainRow s k t) := by
  unfold drainRow; try dsimp only
  repeat' first
    | with_reducible first
      | assumption | apply State.cvtFlags_grows | apply State.updArr_grows | apply State.updPlot_grows
      | apply rowDone_grows
    | intro _
    | split
    | dsimp only

theorem execDrainRow_grows {s0 : State} (p : _) (t : _) {s : State} (hs : Grows s0 s) :
    OutGrows s0 (execDrainRow p t s) := by
  unfold execDrainRow; try dsimp only
  repeat' first
    | with_reducible first
      | assumption | apply OutGrows.next | apply drainRow_grows
    | intro _
    | split
    | dsimp only

theorem writeArrRng_grows {s0 : State} {s : State} (k : _) (v : _) (hs : Grows s0 s) :
    Grows s0 (writeArrRng s k v) := by
  unfold writeArrRng; try dsimp only
  repeat' first
    | with_reducible first
      | assumption | apply State.updArr_grows
    | intro _
    | split
    | dsimp only

theorem execArrRngHiWrite_grows {s0 : State} (r : _) (p : _) (v : _) {s : State} (hs : Grows s0 s) :
    OutGrows s0 (execArrRngHiWrite r p v s) := by
  unfold execArrRngHiWrite; try dsimp only
  repeat' first
    | with_reducible first
      | assumption | apply OutGrows.next | apply State.access_grows | apply writeArrRng_grows
    | intro _
    | split
    | dsimp only

theorem execRampDownStart_grows {s0 : State} (p : _) (t : _) {s : State} (hs : Grows s0 s) :
    OutGrows s0 (execRampDownStart p t s) := by
  unfold execRampDownStart; try dsimp only
  repeat' first
    | with_reducible first
      | assumption | apply OutGrows.next | apply State.updArr_grows
    | intro _
    | split
    | dsimp only

theorem execColumnGroupDisable_grows {s0 : State} (p : _) (t : _) {s : State} (hs : Grows s0 s) :
    OutGrows s0 (execColumnGroupDisable p t s) := by
  unfold execColumnGroupDisable; try dsimp only
  repeat' first
    | with_reducible first
      | assumption | apply OutGrows.next | apply State.updArr_grows
    | intro _
    | split
    | dsimp only

theorem execRampUpStart_grows {s0 : State} (p : _) (t : _) {s : State} (hs : Grows s0 s) :
    OutGrows s0 (execRampUpStart p t s) := by
  unfold execRampUpStart; try dsimp only
  repeat' first
    | with_reducible first
      | assumption | apply OutGrows.next | apply State.updArr_grows
    | intro _
    | split
    | dsimp only

theorem execColumnGroupEnable_grows {s0 : State} (p : _) (t : _) {s : State} (hs : Grows s0 s) :
    OutGrows s0 (execColumnGroupEnable p t s) := by
  unfold execColumnGroupEnable; try dsimp only
  repeat' first
    | with_reducible first
      | assumption | apply OutGrows.next | apply State.updArr_grows
    | intro _
    | split
    | dsimp only

theorem execHaltRequest_grows {s0 : State} (p : _) (t : _) {s : State} (hs : Grows s0 s) :
    OutGrows s0 (execHaltRequest p t s) := by
  unfold execHaltRequest; try dsimp only
  repeat' first
    | with_reducible first
      | assumption | apply OutGrows.next | apply State.setBit_grows | apply State.updArr_grows
    | intro _
    | split
    | dsimp only

theorem execArrayHalted_grows {s0 : State} (p : _) (t : _) {s : State} (hs : Grows s0 s) :
    OutGrows s0 (execArrayHalted p t s) := by
  unfold execArrayHalted; try dsimp only
  repeat' first
    | with_reducible first
      | assumption | apply OutGrows.next | apply State.updArr_grows
    | intro _
    | split
    | dsimp only

theorem State.resumeArr_grows {s0 : State} {s : State} (k : _) (hs : Grows s0 s) :
    Grows s0 (State.resumeArr s k) := by
  unfold State.resumeArr; try dsimp only
  repeat' first
    | with_reducible first
      | assumption | apply State.clrBit_grows | apply State.updArr_grows
    | intro _
    | split
    | dsimp only

theorem writeArrCfg_grows {s0 : State} {s : State} (k : _) (v : _) (hs : Grows s0 s) :
    Grows s0 (writeArrCfg s k v) := by
  unfold writeArrCfg; try dsimp only
  repeat' first
    | with_reducible first
      | assumption | apply State.setBit_grows | apply State.setFld_grows
    | intro _
    | split
    | dsimp only

theorem execArrCfgWrite_grows {s0 : State} (r : _) (p : _) (v : _) {s : State} (hs : Grows s0 s) :
    OutGrows s0 (execArrCfgWrite r p v s) := by
  unfold execArrCfgWrite; try dsimp only
  repeat' first
    | with_reducible first
      | assumption | apply OutGrows.next | apply State.access_grows | apply writeArrCfg_grows
    | intro _
    | split
    | dsimp only

theorem State.clearArr_grows {s0 : State} {s : State} (k : _) (hs : Grows s0 s) :
    Grows s0 (State.clearArr s k) := by
  unfold State.clearArr; try dsimp only
  repeat' first
    | with_reducible first
      | assumption | apply Grows.foldl | apply Grows.foldl1 | apply Grows.foldlDev | apply Grows.foldlMv
      | apply Grows.foldlDn | apply State.drawn_grows | apply State.updArr_grows | apply State.updPlot_grows
    | intro _
    | split
    | dsimp only

/-! ### Vector -/

theorem State.vecFlags_grows {s0 : State} {s : State} (k : _) (fl : _) (hs : Grows s0 s) :
    Grows s0 (State.vecFlags s k fl) := by
  unfold State.vecFlags; try dsimp only
  repeat' first
    | with_reducible first
      | assumption | apply State.irq_grows | apply State.setReg_grows
    | intro _
    | split
    | dsimp only

theorem vecStart_grows {s0 : State} {s : State} (k : _) (hs : Grows s0 s) :
    Grows s0 (vecStart s k) := by
  unfold vecStart; try dsimp only
  repeat' first
    | with_reducible first
      | assumption | apply State.rejectHold_grows | apply State.updPlot_grows | apply State.waitTake_grows
    | intro _
    | split
    | dsimp only

theorem execVectorDescStart_grows {s0 : State} (p : _) {s : State} (hs : Grows s0 s) :
    OutGrows s0 (execVectorDescStart p s) := by
  unfold execVectorDescStart; try dsimp only
  repeat' first
    | with_reducible first
      | assumption | apply OutGrows.next | apply vecStart_grows
    | intro _
    | split
    | dsimp only

theorem vecDone_grows {s0 : State} {s : State} (k : _) (hs : Grows s0 s) :
    Grows s0 (vecDone s k) := by
  unfold vecDone; try dsimp only
  repeat' first
    | with_reducible first
      | assumption | apply State.complete_grows | apply State.updPlot_grows | apply State.vecFlags_grows
    | intro _
    | split
    | dsimp only

theorem execVectorDescComplete_grows {s0 : State} (p : _) {s : State} (hs : Grows s0 s) :
    OutGrows s0 (execVectorDescComplete p s) := by
  unfold execVectorDescComplete; try dsimp only
  repeat' first
    | with_reducible first
      | assumption | apply OutGrows.next | apply vecDone_grows
    | intro _
    | split
    | dsimp only

theorem writeVecRng_grows {s0 : State} {s : State} (k : _) (v : _) (hs : Grows s0 s) :
    Grows s0 (writeVecRng s k v) := by
  unfold writeVecRng; try dsimp only
  repeat' first
    | with_reducible first
      | assumption | apply State.updPlot_grows
    | intro _
    | split
    | dsimp only

theorem execVecRngHiWrite_grows {s0 : State} (r : _) (p : _) (v : _) {s : State} (hs : Grows s0 s) :
    OutGrows s0 (execVecRngHiWrite r p v s) := by
  unfold execVecRngHiWrite; try dsimp only
  repeat' first
    | with_reducible first
      | assumption | apply OutGrows.next | apply State.access_grows | apply writeVecRng_grows
    | intro _
    | split
    | dsimp only

/-! ### Queue -/

theorem State.enqueue_grows {s0 : State} {s : State} (k : _) (q : _) (hs : Grows s0 s) :
    Grows s0 (State.enqueue s k q) := by
  unfold State.enqueue; try dsimp only
  repeat' first
    | with_reducible first
      | assumption | apply State.updQueue_grows
    | intro _
    | split
    | dsimp only

theorem pushQueue_grows {s0 : State} (r : _) (k : _) (q : _) {s : State} (hs : Grows s0 s) :
    Grows s0 (pushQueue r k q s) := by
  unfold pushQueue; try dsimp only
  repeat' first
    | with_reducible first
      | assumption | apply State.enqueue_grows | apply State.irq_grows | apply State.updPlot_grows
    | intro _
    | split
    | dsimp only

theorem execPqPush_grows {s0 : State} (r : _) (p : _) (q : _) {s : State} (hs : Grows s0 s) :
    OutGrows s0 (execPqPush r p q s) := by
  unfold execPqPush; try dsimp only
  repeat' first
    | with_reducible first
      | assumption | apply OutGrows.next | apply State.access_grows | apply pushQueue_grows
    | intro _
    | split
    | dsimp only

theorem stalledPush_grows {s0 : State} {s : State} (k : _) (hs : Grows s0 s) :
    Grows s0 (stalledPush s k) := by
  unfold stalledPush; try dsimp only
  repeat' first
    | with_reducible first
      | assumption | apply State.enqueue_grows | apply State.irq_grows | apply State.updPlot_grows
    | intro _
    | split
    | dsimp only

theorem execStalledPushAccept_grows {s0 : State} (p : _) {s : State} (hs : Grows s0 s) :
    OutGrows s0 (execStalledPushAccept p s) := by
  unfold execStalledPushAccept; try dsimp only
  repeat' first
    | with_reducible first
      | assumption | apply OutGrows.next | apply stalledPush_grows
    | intro _
    | split
    | dsimp only

theorem execLocalSignalArrive_grows {s0 : State} (p : _) (ctr : _) {s : State} (hs : Grows s0 s) :
    OutGrows s0 (execLocalSignalArrive p ctr s) := by
  unfold execLocalSignalArrive; try dsimp only
  repeat' first
    | with_reducible first
      | assumption | apply OutGrows.next | apply State.tokArrive_grows | apply State.updPlot_grows
    | intro _
    | split
    | dsimp only

theorem writeCtr_grows {s0 : State} (k : _) (n : _) (v : _) {s : State} (hs : Grows s0 s) :
    Grows s0 (writeCtr k n v s) := by
  unfold writeCtr; try dsimp only
  repeat' first
    | with_reducible first
      | assumption | apply State.clrBit_grows | apply State.setFld_grows
    | intro _
    | split
    | dsimp only

theorem execTokenCounterWrite_grows {s0 : State} (r : _) (p : _) (n : _) (v : _) {s : State} (hs : Grows s0 s) :
    OutGrows s0 (execTokenCounterWrite r p n v s) := by
  unfold execTokenCounterWrite; try dsimp only
  repeat' first
    | with_reducible first
      | assumption | apply OutGrows.next | apply State.access_grows | apply writeCtr_grows
    | intro _
    | split
    | dsimp only

theorem popCpl_grows {s0 : State} (k : _) {s : State} (hs : Grows s0 s) :
    Grows s0 (popCpl k s) := by
  unfold popCpl; try dsimp only
  repeat' first
    | with_reducible first
      | assumption | apply State.answer_grows | apply State.capture_grows | apply State.releaseHeld_grows
      | apply State.updPlot_grows
    | intro _
    | split
    | dsimp only

theorem execPqCplPop_grows {s0 : State} (r : _) (p : _) {s : State} (hs : Grows s0 s) :
    OutGrows s0 (execPqCplPop r p s) := by
  unfold execPqCplPop; try dsimp only
  repeat' first
    | with_reducible first
      | assumption | apply OutGrows.next | apply State.readAccess_grows | apply popCpl_grows
    | intro _
    | split
    | dsimp only

theorem State.unhold_grows {s0 : State} {s : State} (k : _) (q : _) (hs : Grows s0 s) :
    Grows s0 (State.unhold s k q) := by
  unfold State.unhold; try dsimp only
  repeat' first
    | with_reducible first
      | assumption | apply State.updQueue_grows
    | intro _
    | split
    | dsimp only

theorem State.dropHeld_grows {s0 : State} {s : State} (k : _) (q : _) (hs : Grows s0 s) :
    Grows s0 (State.dropHeld s k q) := by
  unfold State.dropHeld; try dsimp only
  repeat' first
    | with_reducible first
      | assumption | apply State.updArr_grows | apply State.updQueue_grows
    | intro _
    | split
    | dsimp only

theorem skipQueue_grows {s0 : State} (k : _) (q : _) {s : State} (hs : Grows s0 s) :
    Grows s0 (skipQueue k q s) := by
  unfold skipQueue; try dsimp only
  repeat' first
    | with_reducible first
      | assumption | apply State.dropHeld_grows | apply State.unhold_grows
    | intro _
    | split
    | dsimp only

theorem execPqSkip_grows {s0 : State} (r : _) (p : _) (q : _) {s : State} (hs : Grows s0 s) :
    OutGrows s0 (execPqSkip r p q s) := by
  unfold execPqSkip; try dsimp only
  repeat' first
    | with_reducible first
      | assumption | apply OutGrows.next | apply State.access_grows | apply skipQueue_grows
    | intro _
    | split
    | dsimp only

theorem State.abortLane_grows {s0 : State} {s : State} (k : _) (hs : Grows s0 s) :
    Grows s0 (State.abortLane s k) := by
  unfold State.abortLane; try dsimp only
  repeat' first
    | with_reducible first
      | assumption | apply Grows.foldl | apply Grows.foldl1 | apply Grows.foldlDev | apply Grows.foldlMv
      | apply Grows.foldlDn | apply State.complete_grows | apply State.updArr_grows
    | intro _
    | split
    | dsimp only

theorem State.abortArrayQueue_grows {s0 : State} {s : State} (k : _) (hs : Grows s0 s) :
    Grows s0 (State.abortArrayQueue s k) := by
  unfold State.abortArrayQueue; try dsimp only
  repeat' first
    | with_reducible first
      | assumption | apply Grows.foldl | apply Grows.foldl1 | apply Grows.foldlDev | apply Grows.foldlMv
      | apply Grows.foldlDn | apply State.abortLane_grows | apply State.complete_grows
      | apply State.updQueue_grows
    | intro _
    | split
    | dsimp only

theorem flushQueue_grows {s0 : State} (k : _) (q : _) {s : State} (hs : Grows s0 s) :
    Grows s0 (flushQueue k q s) := by
  unfold flushQueue; try dsimp only
  repeat' first
    | with_reducible first
      | assumption | apply State.abortArrayQueue_grows | apply State.abortEntries_grows | apply State.unhold_grows
    | intro _
    | split
    | dsimp only

theorem execPqFlush_grows {s0 : State} (r : _) (p : _) (q : _) {s : State} (hs : Grows s0 s) :
    OutGrows s0 (execPqFlush r p q s) := by
  unfold execPqFlush; try dsimp only
  repeat' first
    | with_reducible first
      | assumption | apply OutGrows.next | apply State.access_grows | apply flushQueue_grows
    | intro _
    | split
    | dsimp only

theorem queueSetEn_grows {s0 : State} (k : _) (q : _) {s : State} (hs : Grows s0 s) :
    Grows s0 (queueSetEn k q s) := by
  unfold queueSetEn; try dsimp only
  repeat' first
    | with_reducible first
      | assumption | apply State.updQueue_grows
    | intro _
    | split
    | dsimp only

theorem execPqSetEn_grows {s0 : State} (r : _) (p : _) (q : _) {s : State} (hs : Grows s0 s) :
    OutGrows s0 (execPqSetEn r p q s) := by
  unfold execPqSetEn; try dsimp only
  repeat' first
    | with_reducible first
      | assumption | apply OutGrows.next | apply State.access_grows | apply queueSetEn_grows
    | intro _
    | split
    | dsimp only

theorem queueClrEn_grows {s0 : State} (k : _) (q : _) {s : State} (hs : Grows s0 s) :
    Grows s0 (queueClrEn k q s) := by
  unfold queueClrEn; try dsimp only
  repeat' first
    | with_reducible first
      | assumption | apply State.updQueue_grows | apply flushQueue_grows
    | intro _
    | split
    | dsimp only

theorem sendToken_grows {s0 : State} (k : _) (v : _) {s : State} (hs : Grows s0 s) :
    Grows s0 (sendToken k v s) := by
  unfold sendToken; try dsimp only
  repeat' first
    | with_reducible first
      | assumption | apply State.irq_grows | apply State.plotToken_grows
    | intro _
    | split
    | dsimp only

theorem execPqTokenTx_grows {s0 : State} (r : _) (p : _) (v : _) {s : State} (hs : Grows s0 s) :
    OutGrows s0 (execPqTokenTx r p v s) := by
  unfold execPqTokenTx; try dsimp only
  repeat' first
    | with_reducible first
      | assumption | apply OutGrows.next | apply State.access_grows | apply sendToken_grows
    | intro _
    | split
    | dsimp only

theorem tokenErr_grows {s0 : State} (k : _) {s : State} (hs : Grows s0 s) :
    Grows s0 (tokenErr k s) := by
  unfold tokenErr; try dsimp only
  repeat' first
    | with_reducible first
      | assumption | apply State.irq_grows
    | intro _
    | split
    | dsimp only

theorem writeSlot_grows {s0 : State} (k : _) (n : _) (w : _) (v : _) {s : State} (hs : Grows s0 s) :
    Grows s0 (writeSlot k n w v s) := by
  unfold writeSlot; try dsimp only
  repeat' first
    | with_reducible first
      | assumption | apply State.clrBit_grows | apply State.setFld_grows | apply tokenErr_grows
    | intro _
    | split
    | dsimp only

theorem execOutputSlotWrite_grows {s0 : State} (r : _) (p : _) (n : _) (w : _) (v : _) {s : State} (hs : Grows s0 s) :
    OutGrows s0 (execOutputSlotWrite r p n w v s) := by
  unfold execOutputSlotWrite; try dsimp only
  repeat' first
    | with_reducible first
      | assumption | apply OutGrows.next | apply State.access_grows | apply writeSlot_grows
    | intro _
    | split
    | dsimp only

theorem State.sendCredit_grows {s0 : State} {s : State} (k : _) (n : _) (hs : Grows s0 s) :
    Grows s0 (State.sendCredit s k n) := by
  unfold State.sendCredit; try dsimp only
  repeat' first
    | with_reducible first
      | assumption | apply State.count_grows | apply State.inject_grows | apply State.updPlot_grows
    | intro _
    | split
    | dsimp only

theorem closeHg_grows {s0 : State} (k : _) (n : _) {s : State} (hs : Grows s0 s) :
    Grows s0 (closeHg k n s) := by
  unfold closeHg; try dsimp only
  repeat' first
    | with_reducible first
      | assumption | apply State.clrBit_grows | apply State.sendCredit_grows | apply State.setReg_grows
      | apply State.updPlot_grows
    | intro _
    | split
    | dsimp only

theorem writeHg_grows {s0 : State} (k : _) (n : _) (w : _) (v : _) {s : State} (hs : Grows s0 s) :
    Grows s0 (writeHg k n w v s) := by
  unfold writeHg; try dsimp only
  repeat' first
    | with_reducible first
      | assumption | apply State.setFld_grows | apply State.setReg_grows | apply State.updPlot_grows
      | apply closeHg_grows | apply tokenErr_grows
    | intro _
    | split
    | dsimp only

theorem execHeadgateWrite_grows {s0 : State} (r : _) (p : _) (n : _) (w : _) (v : _) {s : State} (hs : Grows s0 s) :
    OutGrows s0 (execHeadgateWrite r p n w v s) := by
  unfold execHeadgateWrite; try dsimp only
  repeat' first
    | with_reducible first
      | assumption | apply OutGrows.next | apply State.access_grows | apply writeHg_grows
    | intro _
    | split
    | dsimp only

end Sys2Proof.Machine
end

