-- ==== Sys2Proof/Laws/GrowsMemory.lean ====
section
/-!
SUPPORT. Laws/GrowsMemory.lean: no operation takes back what `Grows` names: one lemma per operation of cisterns, commons, barges, norias and the fabric.
-/
set_option linter.unusedTactic false
set_option linter.unreachableTactic false
set_option linter.unusedVariables false
set_option linter.unusedSimpArgs false

namespace Sys2Proof.Machine

variable {s0 : State}

/-! ### Cistern -/

theorem State.putWord_grows {s : State} (k w : Nat) (bs : List Byte) (d : Nat) (h : Grows s0 s) :
    Grows s0 (s.putWord k w bs d) :=
  ⟨h.pending, fun m => Memory.wf_tputs _ _ _ (h.mem m), h.regs, h.svn, h.revoked, h.free, h.seals, h.sealMax, h.wire⟩

theorem State.logCommon_grows {s0 : State} {s : State} (a : _) (old : _) (w : _) (pl : _) (syn : _) (pos : _) (fb : _) (sus : _) (hs : Grows s0 s) :
    Grows s0 (State.logCommon s a old w pl syn pos fb sus) := by
  unfold State.logCommon; try dsimp only
  repeat' first
    | with_reducible first
      | assumption | apply Grows.foldl | apply Grows.foldl1 | apply Grows.foldlDev | apply Grows.foldlMv
      | apply Grows.foldlDn | apply State.addFld_grows | apply State.setBit_grows | apply State.setFld_grows
      | apply State.setReg_grows
    | intro _
    | split
    | dsimp only

theorem State.window_grows {s0 : State} {s : State} (a : _) (st : _) (k : _) (off : _) (hs : Grows s0 s) :
    Grows s0 (State.window s a st k off) := by
  unfold State.window; try dsimp only
  repeat' first
    | with_reducible first
      | assumption | apply State.addFld_grows | apply State.report_grows | apply State.setBit_grows
      | apply State.setFld_grows | apply State.setReg_grows
    | intro _
    | split
    | dsimp only

theorem State.logCE_grows {s0 : State} {s : State} (k : _) (w : _) (syn : _) (pos : _) (fb : _) (sus : _) (hs : Grows s0 s) :
    Grows s0 (State.logCE s k w syn pos fb sus) := by
  unfold State.logCE; try dsimp only
  repeat' first
    | with_reducible first
      | assumption | apply State.addFld_grows | apply State.logCommon_grows | apply State.report_grows
      | apply State.window_grows
    | intro _
    | split
    | dsimp only

theorem State.logUE_grows {s0 : State} {s : State} (k : _) (w : _) (syn : _) (pos : _) (fb : _) (sus : _) (hs : Grows s0 s) :
    Grows s0 (State.logUE s k w syn pos fb sus) := by
  unfold State.logUE; try dsimp only
  repeat' first
    | with_reducible first
      | assumption | apply State.addFld_grows | apply State.logCommon_grows
    | intro _
    | split
    | dsimp only

theorem State.poisonBack_grows {s0 : State} {s : State} (k : _) (w : _) (hs : Grows s0 s) :
    Grows s0 (State.poisonBack s k w) := by
  unfold State.poisonBack; try dsimp only
  repeat' first
    | with_reducible first
      | assumption | apply State.putWord_grows | apply State.updSlc_grows
    | intro _
    | split
    | dsimp only

theorem readWord_grows {s0 : State} {s : State} (k : _) (w : _) (src : _) (hs : Grows s0 s) :
    Grows s0 (readWord s k w src).1 := by
  unfold readWord; try dsimp only
  repeat' first
    | with_reducible first
      | assumption | apply State.count_grows | apply State.logCE_grows | apply State.logUE_grows
      | apply State.pageErr_grows | apply State.poisonBack_grows | apply State.report_grows
      | apply State.updSlc_grows
    | intro _
    | split
    | dsimp only

theorem readWords_grows {s0 : State} {s : State} (k : _) (src : _) (x3 : _) (hs : Grows s0 s) :
    Grows s0 (readWords s k src x3).1 := by
  induction x3 generalizing s with
  | nil =>
    unfold readWords; try dsimp only
    repeat' first
      | with_reducible first
        | assumption | apply readWord_grows
      | intro _
      | split
      | dsimp only
  | cons _ _ ih =>
    unfold readWords; try dsimp only
    repeat' first
      | with_reducible first
        | assumption | apply readWord_grows | apply ih
      | intro _
      | split
      | dsimp only

theorem State.cisRead_grows {s0 : State} {s : State} (k : _) (off : _) (len : _) (src : _) (hs : Grows s0 s) :
    Grows s0 (State.cisRead s k off len src).1 := by
  unfold State.cisRead; try dsimp only
  repeat' first
    | with_reducible first
      | assumption | apply State.count_grows | apply readWords_grows
    | intro _
    | split
    | dsimp only

theorem State.flipWord_grows {s0 : State} {s : State} (k : _) (w : _) (hs : Grows s0 s) :
    Grows s0 (State.flipWord s k w) := by
  unfold State.flipWord; try dsimp only
  repeat' first
    | with_reducible first
      | assumption | apply Grows.foldl | apply Grows.foldl1 | apply Grows.foldlDev | apply Grows.foldlMv
      | apply Grows.foldlDn | apply State.clrBit_grows | apply State.putWord_grows | apply State.setReg_grows
    | intro _
    | split
    | dsimp only

theorem State.storeWord_grows {s0 : State} {s : State} (k : _) (w : _) (bs : _) (bad : _) (src : _) (hs : Grows s0 s) :
    Grows s0 (State.storeWord s k w bs bad src) := by
  unfold State.storeWord; try dsimp only
  repeat' first
    | with_reducible first
      | assumption | apply State.flipWord_grows | apply State.putWord_grows
    | intro _
    | split
    | dsimp only

theorem writeWord_grows {s0 : State} {s : State} (k : _) (w : _) (lo : _) (bs : _) (bad : _) (src : _) (hs : Grows s0 s) :
    Grows s0 (writeWord s k w lo bs bad src).1 := by
  unfold writeWord; try dsimp only
  repeat' first
    | with_reducible first
      | assumption | apply State.storeWord_grows | apply readWord_grows
    | intro _
    | split
    | dsimp only

theorem writeWords_grows {s0 : State} {s : State} (k : _) (off : _) (data : _) (bad : _) (src : _) (x6 : _) (hs : Grows s0 s) :
    Grows s0 (writeWords s k off data bad src x6).1 := by
  induction x6 generalizing s with
  | nil =>
    unfold writeWords; try dsimp only
    repeat' first
      | with_reducible first
        | assumption | apply writeWord_grows
      | intro _
      | split
      | dsimp only
  | cons _ _ ih =>
    unfold writeWords; try dsimp only
    repeat' first
      | with_reducible first
        | assumption | apply writeWord_grows | apply ih
      | intro _
      | split
      | dsimp only

theorem State.dropLines_grows {s0 : State} {s : State} (k : _) (off : _) (len : _) (hs : Grows s0 s) :
    Grows s0 (State.dropLines s k off len) := by
  unfold State.dropLines; try dsimp only
  repeat' first
    | with_reducible first
      | assumption | apply Grows.foldl | apply Grows.foldl1 | apply Grows.foldlDev | apply Grows.foldlMv
      | apply Grows.foldlDn | apply State.updCore_grows
    | intro _
    | split
    | with_reducible apply Grows.lit
    | dsimp only

theorem State.cisWrite_grows {s0 : State} {s : State} (k : _) (off : _) (data : _) (bad : _) (src : _) (hs : Grows s0 s) :
    Grows s0 (State.cisWrite s k off data bad src).1 := by
  unfold State.cisWrite; try dsimp only
  repeat' first
    | with_reducible first
      | assumption | apply State.count_grows | apply State.dropLines_grows | apply writeWords_grows
    | intro _
    | split
    | dsimp only

theorem State.weirFlags_grows {s0 : State} {s : State} (k : _) (fl : _) (hs : Grows s0 s) :
    Grows s0 (State.weirFlags s k fl) := by
  unfold State.weirFlags; try dsimp only
  repeat' first
    | with_reducible first
      | assumption | apply State.setReg_grows
    | intro _
    | split
    | dsimp only

theorem weirWord_grows {s0 : State} {s : State} (k : _) (w : _) (lo : _) (op : _) (x : _) (bad : _) (hs : Grows s0 s) :
    Grows s0 (weirWord s k w lo op x bad).1 := by
  unfold weirWord; try dsimp only
  repeat' first
    | with_reducible first
      | assumption | apply State.storeWord_grows | apply State.weirFlags_grows | apply readWord_grows
    | intro _
    | split
    | dsimp only

theorem weirWords_grows {s0 : State} {s : State} (k : _) (off : _) (op : _) (x : _) (bad : _) (x6 : _) (hs : Grows s0 s) :
    Grows s0 (weirWords s k off op x bad x6).1 := by
  induction x6 generalizing s with
  | nil =>
    unfold weirWords; try dsimp only
    repeat' first
      | with_reducible first
        | assumption | apply weirWord_grows
      | intro _
      | split
      | dsimp only
  | cons _ _ ih =>
    unfold weirWords; try dsimp only
    repeat' first
      | with_reducible first
        | assumption | apply weirWord_grows | apply ih
      | intro _
      | split
      | dsimp only

theorem State.cisWeir_grows {s0 : State} {s : State} (k : _) (op : _) (off : _) (x : _) (bad : _) (hs : Grows s0 s) :
    Grows s0 (State.cisWeir s k op off x bad).1 := by
  unfold State.cisWeir; try dsimp only
  repeat' first
    | with_reducible first
      | assumption | apply State.count_grows | apply State.dropLines_grows | apply weirWord_grows
      | apply weirWords_grows
    | intro _
    | split
    | dsimp only

theorem State.serveHeld_grows {s0 : State} {s : State} (k : _) (x2 : _) (hs : Grows s0 s) :
    Grows s0 (State.serveHeld s k x2) := by
  unfold State.serveHeld; try dsimp only
  repeat' first
    | with_reducible first
      | assumption | apply State.cisWeir_grows | apply State.cisWrite_grows | apply State.putWord_grows
    | intro _
    | split
    | dsimp only

theorem State.serveList_grows {s0 : State} {s : State} (k : _) (x2 : _) (hs : Grows s0 s) :
    Grows s0 (State.serveList s k x2) := by
  induction x2 generalizing s with
  | nil =>
    unfold State.serveList; try dsimp only
    repeat' first
      | with_reducible first
        | assumption | apply State.serveHeld_grows | apply State.updSlc_grows
      | intro _
      | split
      | with_reducible apply Grows.lit
      | dsimp only
  | cons _ _ ih =>
    unfold State.serveList; try dsimp only
    repeat' first
      | with_reducible first
        | assumption | apply State.serveHeld_grows | apply State.updSlc_grows | apply ih
      | intro _
      | split
      | with_reducible apply Grows.lit
      | dsimp only

theorem State.serveWaiting_grows {s0 : State} {s : State} (k : _) (hs : Grows s0 s) :
    Grows s0 (State.serveWaiting s k) := by
  unfold State.serveWaiting; try dsimp only
  repeat' first
    | with_reducible first
      | assumption | apply State.serveList_grows | apply State.updSlc_grows
    | intro _
    | split
    | dsimp only

theorem State.keepReq_grows {s0 : State} {s : State} (k : _) (x2 : _) (hs : Grows s0 s) :
    Grows s0 (State.keepReq s k x2) := by
  unfold State.keepReq; try dsimp only
  repeat' first
    | with_reducible first
      | assumption | apply State.updSlc_grows
    | intro _
    | split
    | dsimp only

theorem State.answerCis_grows {s0 : State} {s : State} (data : _) (poison : _) (hs : Grows s0 s) :
    Grows s0 (State.answerCis s data poison) := by
  unfold State.answerCis; try dsimp only
  repeat' first
    | with_reducible first
      | assumption
    | intro _
    | split
    | with_reducible apply Grows.lit
    | dsimp only

theorem execCisternRead_grows {s0 : State} (p : _) (off : _) (len : _) (src : _) {s : State} (hs : Grows s0 s) :
    OutGrows s0 (execCisternRead p off len src s) := by
  unfold execCisternRead; try dsimp only
  repeat' first
    | with_reducible first
      | assumption | apply OutGrows.next | apply State.answerCis_grows | apply State.cisRead_grows
    | intro _
    | split
    | dsimp only

theorem execCisternWrite_grows {s0 : State} (p : _) (off : _) (data : _) (poison : _) (src : _) {s : State} (hs : Grows s0 s) :
    OutGrows s0 (execCisternWrite p off data poison src s) := by
  unfold execCisternWrite; try dsimp only
  repeat' first
    | with_reducible first
      | assumption | apply OutGrows.next | apply State.answerCis_grows | apply State.cisWrite_grows
      | apply State.keepReq_grows
    | intro _
    | split
    | dsimp only

theorem execWeirOpApply_grows {s0 : State} (p : _) (op : _) (esize : _) (off : _) (operand : _) (poison : _) (fetch : _) {s : State} (hs : Grows s0 s) :
    OutGrows s0 (execWeirOpApply p op esize off operand poison fetch s) := by
  unfold execWeirOpApply; try dsimp only
  repeat' first
    | with_reducible first
      | assumption | apply OutGrows.next | apply State.answerCis_grows | apply State.cisWeir_grows
      | apply State.keepReq_grows
    | intro _
    | split
    | dsimp only

theorem execBankRefresh_grows {s0 : State} (p : _) (bank : _) {s : State} (hs : Grows s0 s) :
    OutGrows s0 (execBankRefresh p bank s) := by
  unfold execBankRefresh; try dsimp only
  repeat' first
    | with_reducible first
      | assumption | apply OutGrows.next | apply State.count_grows | apply State.updSlc_grows
    | intro _
    | split
    | dsimp only

theorem applyBand_grows {s0 : State} (st : _) {s : State} (hs : Grows s0 s) :
    Grows s0 (applyBand st s) := by
  unfold applyBand; try dsimp only
  repeat' first
    | with_reducible first
      | assumption | apply Grows.foldl | apply Grows.foldl1 | apply Grows.foldlDev | apply Grows.foldlMv
      | apply Grows.foldlDn | apply State.serveWaiting_grows | apply State.updStk_grows
    | intro _
    | split
    | dsimp only

theorem execBandApply_grows {s0 : State} (st : _) {s : State} (hs : Grows s0 s) :
    OutGrows s0 (execBandApply st s) := by
  unfold execBandApply; try dsimp only
  repeat' first
    | with_reducible first
      | assumption | apply OutGrows.next | apply applyBand_grows
    | intro _
    | split
    | dsimp only

theorem State.startFill_grows {s0 : State} {s : State} (k : _) (set : _) (hs : Grows s0 s) :
    Grows s0 (State.startFill s k set) := by
  unfold State.startFill; try dsimp only
  repeat' first
    | with_reducible first
      | assumption | apply State.setReg_grows | apply State.updSlc_grows
    | intro _
    | split
    | dsimp only

theorem State.zeroSegment_grows {s : State} (k g : Nat) (h : Grows s0 s) : Grows s0 (s.zeroSegment k g) :=
  ⟨h.pending, fun m => by
    unfold State.zeroSegment
    exact Memory.wf_tkeep _ (fun a => decide (a < byteKey k (g * 268435456)) || decide (byteKey k (g * 268435456) + 268435456 ≤ a)) (h.mem m), h.regs, h.svn, h.revoked, h.free, h.seals, h.sealMax, h.wire⟩

theorem fillDone_grows {s0 : State} (k : _) (g : _) {s : State} (hs : Grows s0 s) :
    Grows s0 (fillDone k g s) := by
  unfold fillDone; try dsimp only
  repeat' first
    | with_reducible first
      | assumption | apply State.serveWaiting_grows | apply State.setFld_grows | apply State.updSlc_grows
      | apply State.zeroSegment_grows
    | intro _
    | split
    | dsimp only

theorem execFillSegmentDone_grows {s0 : State} (p : _) (seg : _) {s : State} (hs : Grows s0 s) :
    OutGrows s0 (execFillSegmentDone p seg s) := by
  unfold execFillSegmentDone; try dsimp only
  repeat' first
    | with_reducible first
      | assumption | apply OutGrows.next | apply fillDone_grows
    | intro _
    | split
    | dsimp only

/-! ### Commons -/

theorem State.freeBytes_grows {s0 : State} {s : State} (x1 : _) (hs : Grows s0 s) :
    Grows s0 (State.freeBytes s x1).1 := by
  induction x1 generalizing s with
  | zero =>
    unfold State.freeBytes; try dsimp only
    repeat' first
      | with_reducible first
        | assumption | apply State.drawn_grows
      | intro _
      | split
      | dsimp only
  | succ _ ih =>
    unfold State.freeBytes; try dsimp only
    repeat' first
      | with_reducible first
        | assumption | apply State.drawn_grows | apply ih
      | intro _
      | split
      | dsimp only

theorem devReadPiece_grows {s0 : State} {r : _} (src : _) (p : _) (hr : Grows s0 r.st) :
    Grows s0 (devReadPiece r src p).st := by
  unfold devReadPiece; try dsimp only
  repeat' first
    | with_reducible first
      | assumption | apply State.cisRead_grows | apply State.freeBytes_grows
    | intro _
    | split
    | dsimp only

theorem State.devRead_grows {s0 : State} {s : State} (addr : _) (len : _) (src : _) (hs : Grows s0 s) :
    Grows s0 (State.devRead s addr len src).st := by
  unfold State.devRead; try dsimp only
  repeat' first
    | with_reducible first
      | assumption | apply Grows.foldl | apply Grows.foldl1 | apply Grows.foldlDev | apply Grows.foldlMv
      | apply Grows.foldlDn | apply devReadPiece_grows
    | intro _
    | split
    | dsimp only

theorem State.devWrite_grows {s0 : State} {s : State} (addr : _) (data : _) (bad : _) (src : _) (hs : Grows s0 s) :
    Grows s0 (State.devWrite s addr data bad src).st := by
  unfold State.devWrite; try dsimp only
  repeat' first
    | with_reducible first
      | assumption | apply Grows.foldl | apply Grows.foldl1 | apply Grows.foldlDev | apply Grows.foldlMv
      | apply Grows.foldlDn | apply State.cisWrite_grows
    | intro _
    | split
    | dsimp only

theorem State.devWeir_grows {s0 : State} {s : State} (op : _) (addr : _) (x : _) (bad : _) (hs : Grows s0 s) :
    Grows s0 (State.devWeir s op addr x bad).st := by
  unfold State.devWeir; try dsimp only
  repeat' first
    | with_reducible first
      | assumption | apply Grows.foldl | apply Grows.foldl1 | apply Grows.foldlDev | apply Grows.foldlMv
      | apply Grows.foldlDn | apply State.cisWeir_grows
    | intro _
    | split
    | dsimp only

theorem State.wrRej_grows {s0 : State} {s : State} (a : _) (hs : Grows s0 s) :
    Grows s0 (State.wrRej s a) := by
  unfold State.wrRej; try dsimp only
  repeat' first
    | with_reducible first
      | assumption | apply State.setBit_grows
    | intro _
    | split
    | dsimp only

theorem State.lockPage_grows {s0 : State} {s : State} (a : _) (hs : Grows s0 s) :
    Grows s0 (State.lockPage s a) := by
  unfold State.lockPage; try dsimp only
  repeat' first
    | with_reducible first
      | assumption | apply State.setFld_grows
    | intro _
    | split
    | dsimp only

theorem writeCommonsCfg_grows {s0 : State} (n : _) (v : _) {s : State} (hs : Grows s0 s) :
    Grows s0 (writeCommonsCfg n v s) := by
  unfold writeCommonsCfg; try dsimp only
  repeat' first
    | with_reducible first
      | assumption | apply State.clrBit_grows | apply State.setBit_grows | apply State.setFld_grows
      | apply State.wrRej_grows
    | intro _
    | split
    | dsimp only

theorem execCommonsCfgWrite_grows {s0 : State} (r : _) (n : _) (v : _) {s : State} (hs : Grows s0 s) :
    OutGrows s0 (execCommonsCfgWrite r n v s) := by
  unfold execCommonsCfgWrite; try dsimp only
  repeat' first
    | with_reducible first
      | assumption | apply OutGrows.next | apply State.access_grows | apply writeCommonsCfg_grows
    | intro _
    | split
    | dsimp only

theorem State.setRemapState_grows {s0 : State} {s : State} (n : _) (x : _) (hs : Grows s0 s) :
    Grows s0 (State.setRemapState s n x) := by
  unfold State.setRemapState; try dsimp only
  repeat' first
    | with_reducible first
      | assumption | apply State.setFld_grows
    | intro _
    | split
    | dsimp only

theorem State.updRemap_grows {s0 : State} {s : State} (n : _) (f : _) (hs : Grows s0 s) :
    Grows s0 (State.updRemap s n f) := by
  unfold State.updRemap; try dsimp only
  repeat' first
    | with_reducible first
      | assumption | apply State.updPart_grows
    | intro _
    | split
    | dsimp only

theorem remapBegin_grows {s0 : State} (n : _) {s : State} (hs : Grows s0 s) :
    Grows s0 (remapBegin n s) := by
  unfold remapBegin; try dsimp only
  repeat' first
    | with_reducible first
      | assumption | apply State.setFld_grows | apply State.setRemapState_grows | apply State.updRemap_grows
    | intro _
    | split
    | dsimp only

theorem remapWrite_grows {s0 : State} (n : _) (i : _) {s : State} (hs : Grows s0 s) :
    Grows s0 (remapWrite n i s) := by
  unfold remapWrite; try dsimp only
  repeat' first
    | with_reducible first
      | assumption | apply State.updRemap_grows
    | intro _
    | split
    | dsimp only

theorem remapClear_grows {s0 : State} (n : _) (i : _) {s : State} (hs : Grows s0 s) :
    Grows s0 (remapClear n i s) := by
  unfold remapClear; try dsimp only
  repeat' first
    | with_reducible first
      | assumption | apply State.updRemap_grows
    | intro _
    | split
    | dsimp only

theorem remapStart_grows {s0 : State} (n : _) {s : State} (hs : Grows s0 s) :
    Grows s0 (remapStart n s) := by
  unfold remapStart; try dsimp only
  repeat' first
    | with_reducible first
      | assumption | apply State.setFld_grows | apply State.setRemapState_grows | apply State.updRemap_grows
    | intro _
    | split
    | dsimp only

theorem remapCancel_grows {s0 : State} (n : _) {s : State} (hs : Grows s0 s) :
    Grows s0 (remapCancel n s) := by
  unfold remapCancel; try dsimp only
  repeat' first
    | with_reducible first
      | assumption | apply State.setRemapState_grows | apply State.updRemap_grows
    | intro _
    | split
    | dsimp only

theorem execCommonsRemapBegin_grows {s0 : State} (r : _) (n : _) {s : State} (hs : Grows s0 s) :
    OutGrows s0 (execCommonsRemapBegin r n s) := by
  unfold execCommonsRemapBegin; try dsimp only
  repeat' first
    | with_reducible first
      | assumption | apply OutGrows.next | apply State.access_grows | apply remapBegin_grows
    | intro _
    | split
    | dsimp only

theorem execCommonsRemapWrite_grows {s0 : State} (r : _) (n : _) (i : _) {s : State} (hs : Grows s0 s) :
    OutGrows s0 (execCommonsRemapWrite r n i s) := by
  unfold execCommonsRemapWrite; try dsimp only
  repeat' first
    | with_reducible first
      | assumption | apply OutGrows.next | apply State.access_grows | apply remapWrite_grows
    | intro _
    | split
    | dsimp only

theorem execCommonsRemapClear_grows {s0 : State} (r : _) (n : _) (i : _) {s : State} (hs : Grows s0 s) :
    OutGrows s0 (execCommonsRemapClear r n i s) := by
  unfold execCommonsRemapClear; try dsimp only
  repeat' first
    | with_reducible first
      | assumption | apply OutGrows.next | apply State.access_grows | apply remapClear_grows
    | intro _
    | split
    | dsimp only

theorem execCommonsRemapStart_grows {s0 : State} (r : _) (n : _) {s : State} (hs : Grows s0 s) :
    OutGrows s0 (execCommonsRemapStart r n s) := by
  unfold execCommonsRemapStart; try dsimp only
  repeat' first
    | with_reducible first
      | assumption | apply OutGrows.next | apply State.access_grows | apply remapStart_grows
    | intro _
    | split
    | dsimp only

theorem execCommonsRemapCancel_grows {s0 : State} (r : _) (n : _) {s : State} (hs : Grows s0 s) :
    OutGrows s0 (execCommonsRemapCancel r n s) := by
  unfold execCommonsRemapCancel; try dsimp only
  repeat' first
    | with_reducible first
      | assumption | apply OutGrows.next | apply State.access_grows | apply remapCancel_grows
    | intro _
    | split
    | dsimp only

theorem State.remapFail_grows {s0 : State} {s : State} (n : _) (code : _) (hs : Grows s0 s) :
    Grows s0 (State.remapFail s n code) := by
  unfold State.remapFail; try dsimp only
  repeat' first
    | with_reducible first
      | assumption | apply State.report_grows | apply State.setFld_grows | apply State.setRemapState_grows
      | apply State.updRemap_grows
    | intro _
    | split
    | dsimp only

theorem copyGranule_grows {s0 : State} {s : State} (a : _) (b : _) (hs : Grows s0 s) :
    Grows s0 (copyGranule s a b) := by
  unfold copyGranule; try dsimp only
  repeat' first
    | with_reducible first
      | assumption | apply Grows.foldl | apply Grows.foldl1 | apply Grows.foldlDev | apply Grows.foldlMv
      | apply Grows.foldlDn | apply State.count_grows | apply State.storeWord_grows | apply readWord_grows
    | intro _
    | split
    | dsimp only

theorem finishCopy_grows {s0 : State} (n : _) {s : State} (hs : Grows s0 s) :
    Grows s0 (finishCopy n s) := by
  unfold finishCopy; try dsimp only
  repeat' first
    | with_reducible first
      | assumption | apply Grows.foldl | apply Grows.foldl1 | apply Grows.foldlDev | apply Grows.foldlMv
      | apply Grows.foldlDn | apply State.remapFail_grows | apply State.setRemapState_grows
      | apply State.updRemap_grows | apply copyGranule_grows
    | intro _
    | split
    | dsimp only

theorem execRemapCopyDone_grows {s0 : State} (n : _) {s : State} (hs : Grows s0 s) :
    OutGrows s0 (execRemapCopyDone n s) := by
  unfold execRemapCopyDone; try dsimp only
  repeat' first
    | with_reducible first
      | assumption | apply OutGrows.next | apply finishCopy_grows
    | intro _
    | split
    | dsimp only

theorem switchRemap_grows {s0 : State} (n : _) {s : State} (hs : Grows s0 s) :
    Grows s0 (switchRemap n s) := by
  unfold switchRemap; try dsimp only
  repeat' first
    | with_reducible first
      | assumption | apply State.setFld_grows | apply State.updRemap_grows
    | intro _
    | split
    | dsimp only

theorem execRemapSwitch_grows {s0 : State} (n : _) {s : State} (hs : Grows s0 s) :
    OutGrows s0 (execRemapSwitch n s) := by
  unfold execRemapSwitch; try dsimp only
  repeat' first
    | with_reducible first
      | assumption | apply OutGrows.next | apply switchRemap_grows
    | intro _
    | split
    | dsimp only

theorem execRemapDone_grows {s0 : State} (n : _) {s : State} (hs : Grows s0 s) :
    OutGrows s0 (execRemapDone n s) := by
  unfold execRemapDone; try dsimp only
  repeat' first
    | with_reducible first
      | assumption | apply OutGrows.next | apply State.report_grows | apply State.setRemapState_grows
      | apply State.updRemap_grows
    | intro _
    | split
    | dsimp only

/-! ### RingOps -/

theorem State.writeCpl_grows {s0 : State} {s : State} (g : _) (e : _) (hs : Grows s0 s) :
    Grows s0 (State.writeCpl s g e) := by
  unfold State.writeCpl; try dsimp only
  repeat' first
    | with_reducible first
      | assumption | apply State.msix_grows | apply State.send_grows | apply State.setRing_grows
    | intro _
    | split
    | dsimp only

theorem State.postCpl_grows {s0 : State} {s : State} (g : _) (e : _) (hs : Grows s0 s) :
    Grows s0 (State.postCpl s g e) := by
  unfold State.postCpl; try dsimp only
  repeat' first
    | with_reducible first
      | assumption | apply State.updRing_grows | apply State.writeCpl_grows
    | intro _
    | split
    | dsimp only

theorem State.releaseCpls_grows {s0 : State} {s : State} (g : _) (x2 : _) (hs : Grows s0 s) :
    Grows s0 (State.releaseCpls s g x2) := by
  induction x2 generalizing s with
  | nil =>
    unfold State.releaseCpls; try dsimp only
    repeat' first
      | with_reducible first
        | assumption | apply State.updRing_grows | apply State.writeCpl_grows
      | intro _
      | split
      | with_reducible apply Grows.lit
      | dsimp only
  | cons _ _ ih =>
    unfold State.releaseCpls; try dsimp only
    repeat' first
      | with_reducible first
        | assumption | apply State.updRing_grows | apply State.writeCpl_grows | apply ih
      | intro _
      | split
      | with_reducible apply Grows.lit
      | dsimp only

theorem State.endCmd_grows {s0 : State} {s : State} (g : _) (c : _) (status : _) (value : _) (hs : Grows s0 s) :
    Grows s0 (State.endCmd s g c status value) := by
  unfold State.endCmd; try dsimp only
  repeat' first
    | with_reducible first
      | assumption | apply State.postCpl_grows
    | intro _
    | split
    | dsimp only

theorem State.dropCmd_grows {s0 : State} {s : State} (g : _) (id : _) (hs : Grows s0 s) :
    Grows s0 (State.dropCmd s g id) := by
  unfold State.dropCmd; try dsimp only
  repeat' first
    | with_reducible first
      | assumption | apply State.updRing_grows
    | intro _
    | split
    | dsimp only

theorem State.unfence_grows {s0 : State} {s : State} (g : _) (id : _) (hs : Grows s0 s) :
    Grows s0 (State.unfence s g id) := by
  unfold State.unfence; try dsimp only
  repeat' first
    | with_reducible first
      | assumption | apply Grows.foldl | apply Grows.foldl1 | apply Grows.foldlDev | apply Grows.foldlMv
      | apply Grows.foldlDn | apply State.updRing_grows
    | intro _
    | split
    | dsimp only

theorem State.endFences_grows {s0 : State} {s : State} (f : _) (x2 : _) (hs : Grows s0 s) :
    Grows s0 (State.endFences s f x2) := by
  induction x2 generalizing s with
  | zero =>
    unfold State.endFences; try dsimp only
    repeat' first
      | with_reducible first
        | assumption | apply State.dropCmd_grows | apply State.endCmd_grows | apply State.unfence_grows
      | intro _
      | split
      | dsimp only
  | succ _ ih =>
    unfold State.endFences; try dsimp only
    repeat' first
      | with_reducible first
        | assumption | apply State.dropCmd_grows | apply State.endCmd_grows | apply State.unfence_grows | apply ih
      | intro _
      | split
      | dsimp only

theorem State.finishCmd_grows {s0 : State} {s : State} (g : _) (id : _) (status : _) (value : _) (hs : Grows s0 s) :
    Grows s0 (State.finishCmd s g id status value) := by
  unfold State.finishCmd; try dsimp only
  repeat' first
    | with_reducible first
      | assumption | apply Grows.foldl | apply Grows.foldl1 | apply Grows.foldlDev | apply Grows.foldlMv
      | apply Grows.foldlDn | apply State.dropCmd_grows | apply State.endCmd_grows | apply State.endFences_grows
      | apply State.unfence_grows
    | intro _
    | split
    | dsimp only

theorem State.updCmd_grows {s0 : State} {s : State} (g : _) (id : _) (f : _) (hs : Grows s0 s) :
    Grows s0 (State.updCmd s g id f) := by
  unfold State.updCmd; try dsimp only
  repeat' first
    | with_reducible first
      | assumption | apply State.updRing_grows
    | intro _
    | split
    | dsimp only

/-! ### Routes -/

theorem State.refreshRoute_grows {s0 : State} {s : State} (die : _) (hs : Grows s0 s) :
    Grows s0 (State.refreshRoute s die) := by
  unfold State.refreshRoute; try dsimp only
  repeat' first
    | with_reducible first
      | assumption | apply State.setFld_grows
    | intro _
    | split
    | dsimp only

/-! ### BargeOps -/

theorem State.addGo_grows {s0 : State} {s : State} (c : _) (hs : Grows s0 s) :
    Grows s0 (State.addGo s c) := by
  unfold State.addGo; try dsimp only
  repeat' first
    | with_reducible first
      | assumption | apply State.setBit_grows | apply State.setChan_grows
    | intro _
    | split
    | dsimp only

theorem State.reqAdd_grows {s0 : State} {s : State} (c : _) (ks : _) (hs : Grows s0 s) :
    Grows s0 (State.reqAdd s c ks) := by
  unfold State.reqAdd; try dsimp only
  repeat' first
    | with_reducible first
      | assumption | apply Grows.foldl | apply Grows.foldl1 | apply Grows.foldlDev | apply Grows.foldlMv
      | apply Grows.foldlDn | apply State.updReqTab_grows
    | intro _
    | split
    | dsimp only

theorem State.reqDrop_grows {s0 : State} {s : State} (c : _) (ks : _) (hs : Grows s0 s) :
    Grows s0 (State.reqDrop s c ks) := by
  unfold State.reqDrop; try dsimp only
  repeat' first
    | with_reducible first
      | assumption | apply Grows.foldl | apply Grows.foldl1 | apply Grows.foldlDev | apply Grows.foldlMv
      | apply Grows.foldlDn | apply State.updReqTab_grows
    | intro _
    | split
    | dsimp only

theorem State.startUnit_grows {s0 : State} {s : State} (c : _) (d : _) (hs : Grows s0 s) :
    Grows s0 (State.startUnit s c d) := by
  unfold State.startUnit; try dsimp only
  repeat' first
    | with_reducible first
      | assumption | apply State.reqAdd_grows | apply State.updChan_grows
    | intro _
    | split
    | dsimp only

theorem State.pump_grows {s0 : State} {s : State} (c : _) (hs : Grows s0 s) :
    Grows s0 (State.pump s c) := by
  unfold State.pump; try dsimp only
  repeat' first
    | with_reducible first
      | assumption | apply State.setChan_grows | apply State.startUnit_grows | apply State.updChan_grows
      | apply State.waitTake_grows
    | intro _
    | split
    | dsimp only

theorem readElem_grows {s0 : State} {s : State} (c : _) (d : _) (n : _) (hs : Grows s0 s) :
    Grows s0 (readElem s c d n).st := by
  unfold readElem; try dsimp only
  repeat' first
    | with_reducible first
      | assumption | apply State.devRead_grows
    | intro _
    | split
    | dsimp only

theorem writeElem_grows {s0 : State} {s : State} (c : _) (d : _) (n : _) (data : _) (bad : _) (hs : Grows s0 s) :
    Grows s0 (writeElem s c d n data bad).st := by
  unfold writeElem; try dsimp only
  repeat' first
    | with_reducible first
      | assumption | apply State.devWeir_grows | apply State.devWrite_grows | apply State.updPlot_grows
    | intro _
    | split
    | dsimp only

theorem moveElem_grows {s0 : State} {m : _} (c : _) (d : _) (n : _) (hm : Grows s0 m.st) :
    Grows s0 (moveElem m c d n).st := by
  unfold moveElem; try dsimp only
  repeat' first
    | with_reducible first
      | assumption | apply State.freeBytes_grows | apply State.setBit_grows | apply readElem_grows
      | apply writeElem_grows
    | intro _
    | split
    | dsimp only

theorem moveElems_grows {s0 : State} {s : State} (c : _) (d : _) (n : _) (cnt : _) (hs : Grows s0 s) :
    Grows s0 (moveElems s c d n cnt).st := by
  unfold moveElems; try dsimp only
  repeat' first
    | with_reducible first
      | assumption | apply Grows.foldl | apply Grows.foldl1 | apply Grows.foldlDev | apply Grows.foldlMv
      | apply Grows.foldlDn | apply moveElem_grows
    | intro _
    | split
    | dsimp only

theorem State.fillOut_grows {s0 : State} {s : State} (c : _) (hs : Grows s0 s) :
    Grows s0 (State.fillOut s c) := by
  unfold State.fillOut; try dsimp only
  repeat' first
    | with_reducible first
      | assumption | apply Grows.foldl | apply Grows.foldl1 | apply Grows.foldlDev | apply Grows.foldlMv
      | apply Grows.foldlDn | apply State.setBit_grows | apply State.updChan_grows | apply readElem_grows
    | intro _
    | split
    | dsimp only

theorem State.readyChans_grows {s0 : State} {s : State} (k : _) (hs : Grows s0 s) :
    Grows s0 (State.readyChans s k) := by
  unfold State.readyChans; try dsimp only
  repeat' first
    | with_reducible first
      | assumption | apply Grows.foldl | apply Grows.foldl1 | apply Grows.foldlDev | apply Grows.foldlMv
      | apply Grows.foldlDn | apply State.fillOut_grows | apply State.pump_grows
    | intro _
    | split
    | dsimp only

theorem State.countUnit_grows {s0 : State} {s : State} (c : _) (d : _) (n : _) (cnt : _) (hs : Grows s0 s) :
    Grows s0 (State.countUnit s c d n cnt) := by
  unfold State.countUnit; try dsimp only
  repeat' first
    | with_reducible first
      | assumption | apply State.countChan_grows
    | intro _
    | split
    | dsimp only

theorem State.iodRecord_grows {s0 : State} {s : State} (c : _) (r : _) (hs : Grows s0 s) :
    Grows s0 (State.iodRecord s c r) := by
  unfold State.iodRecord; try dsimp only
  repeat' first
    | with_reducible first
      | assumption | apply State.setChan_grows
    | intro _
    | split
    | dsimp only

theorem State.refillChan_grows {s0 : State} {s : State} (c : _) (x2 : _) (hs : Grows s0 s) :
    Grows s0 (State.refillChan s c x2) := by
  induction x2 generalizing s with
  | zero =>
    unfold State.refillChan; try dsimp only
    repeat' first
      | with_reducible first
        | assumption | apply State.updChan_grows | apply State.updCmd_grows
      | intro _
      | split
      | with_reducible apply Grows.lit
      | dsimp only
  | succ _ ih =>
    unfold State.refillChan; try dsimp only
    repeat' first
      | with_reducible first
        | assumption | apply State.updChan_grows | apply State.updCmd_grows | apply ih
      | intro _
      | split
      | with_reducible apply Grows.lit
      | dsimp only

theorem State.jobDone_grows {s0 : State} {s : State} (g : _) (id : _) (status : _) (bytes : _) (hs : Grows s0 s) :
    Grows s0 (State.jobDone s g id status bytes) := by
  unfold State.jobDone; try dsimp only
  repeat' first
    | with_reducible first
      | assumption | apply State.finishCmd_grows | apply State.updCmd_grows
    | intro _
    | split
    | dsimp only

theorem State.iodSignal_grows {s0 : State} {s : State} (c : _) (d : _) (status : _) (hs : Grows s0 s) :
    Grows s0 (State.iodSignal s c d status) := by
  unfold State.iodSignal; try dsimp only
  repeat' first
    | with_reducible first
      | assumption | apply State.inject_grows
    | intro _
    | split
    | dsimp only

theorem State.iodEnd_grows {s0 : State} {s : State} (c : _) (d : _) (job : _) (status : _) (bytes : _) (rejected : _) (hs : Grows s0 s) :
    Grows s0 (State.iodEnd s c d job status bytes rejected) := by
  unfold State.iodEnd; try dsimp only
  repeat' first
    | with_reducible first
      | assumption | apply State.iodRecord_grows | apply State.iodSignal_grows | apply State.jobDone_grows
    | intro _
    | split
    | dsimp only

theorem State.takeDesc_grows {s0 : State} {s : State} (c : _) (d : _) (job : _) (hs : Grows s0 s) :
    Grows s0 (State.takeDesc s c d job) := by
  unfold State.takeDesc; try dsimp only
  repeat' first
    | with_reducible first
      | assumption | apply State.pump_grows | apply State.updChan_grows
    | intro _
    | split
    | dsimp only

theorem State.iodNext_grows {s0 : State} {s : State} (c : _) (x2 : _) (hs : Grows s0 s) :
    Grows s0 (State.iodNext s c x2) := by
  induction x2 generalizing s with
  | zero =>
    unfold State.iodNext; try dsimp only
    repeat' first
      | with_reducible first
        | assumption | apply State.iodEnd_grows | apply State.refillChan_grows | apply State.setChan_grows
        | apply State.takeDesc_grows
      | intro _
      | split
      | with_reducible apply Grows.lit
      | dsimp only
  | succ _ ih =>
    unfold State.iodNext; try dsimp only
    repeat' first
      | with_reducible first
        | assumption | apply State.iodEnd_grows | apply State.refillChan_grows | apply State.setChan_grows
        | apply State.takeDesc_grows | apply ih
      | intro _
      | split
      | with_reducible apply Grows.lit
      | dsimp only

theorem handoff_grows {s0 : State} (k : _) {s : State} (hs : Grows s0 s) :
    Grows s0 (handoff k s) := by
  unfold handoff; try dsimp only
  repeat' first
    | with_reducible first
      | assumption | apply State.rejectHold_grows | apply State.takeDesc_grows | apply State.updQueue_grows
    | intro _
    | split
    | dsimp only

theorem State.clearChan_grows {s0 : State} {s : State} (c : _) (hs : Grows s0 s) :
    Grows s0 (State.clearChan s c) := by
  unfold State.clearChan; try dsimp only
  repeat' first
    | with_reducible first
      | assumption | apply State.reqDrop_grows | apply State.updChan_grows
    | intro _
    | split
    | dsimp only

theorem State.endDesc_grows {s0 : State} {s : State} (c : _) (status : _) (hs : Grows s0 s) :
    Grows s0 (State.endDesc s c status) := by
  unfold State.endDesc; try dsimp only
  repeat' first
    | with_reducible first
      | assumption | apply State.clearChan_grows | apply State.complete_grows | apply State.iodEnd_grows
      | apply State.iodNext_grows | apply handoff_grows
    | intro _
    | split
    | dsimp only

theorem State.followers_grows {s0 : State} {s : State} (c : _) (hs : Grows s0 s) :
    Grows s0 (State.followers s c) := by
  unfold State.followers; try dsimp only
  repeat' first
    | with_reducible first
      | assumption | apply Grows.foldl | apply Grows.foldl1 | apply Grows.foldlDev | apply Grows.foldlMv
      | apply Grows.foldlDn | apply State.addGo_grows | apply State.pump_grows
    | intro _
    | split
    | dsimp only

theorem State.notify_grows {s0 : State} {s : State} (c : _) (d : _) (hs : Grows s0 s) :
    Grows s0 (State.notify s c d) := by
  unfold State.notify; try dsimp only
  repeat' first
    | with_reducible first
      | assumption | apply State.plotToken_grows
    | intro _
    | split
    | dsimp only

/-! ### Noria -/

theorem State.winRecord_grows {s0 : State} {s : State} (n : _) (r : _) (hs : Grows s0 s) :
    Grows s0 (State.winRecord s n r) := by
  unfold State.winRecord; try dsimp only
  repeat' first
    | with_reducible first
      | assumption | apply State.msix_grows | apply State.updPart_grows
    | intro _
    | split
    | dsimp only

theorem State.norJob_grows {s0 : State} {s : State} (g : _) (id : _) (i : _) (status : _) (hs : Grows s0 s) :
    Grows s0 (State.norJob s g id i status) := by
  unfold State.norJob; try dsimp only
  repeat' first
    | with_reducible first
      | assumption | apply State.finishCmd_grows | apply State.updCmd_grows
    | intro _
    | split
    | dsimp only

theorem State.refillWin_grows {s0 : State} {s : State} (n : _) (x2 : _) (hs : Grows s0 s) :
    Grows s0 (State.refillWin s n x2) := by
  induction x2 generalizing s with
  | zero =>
    unfold State.refillWin; try dsimp only
    repeat' first
      | with_reducible first
        | assumption | apply State.updCmd_grows | apply State.updPart_grows
      | intro _
      | split
      | with_reducible apply Grows.lit
      | dsimp only
  | succ _ ih =>
    unfold State.refillWin; try dsimp only
    repeat' first
      | with_reducible first
        | assumption | apply State.updCmd_grows | apply State.updPart_grows | apply ih
      | intro _
      | split
      | with_reducible apply Grows.lit
      | dsimp only

theorem State.winDone_grows {s0 : State} {s : State} (n : _) (seq : _) (status : _) (rejected : _) (hs : Grows s0 s) :
    Grows s0 (State.winDone s n seq status rejected) := by
  unfold State.winDone; try dsimp only
  repeat' first
    | with_reducible first
      | assumption | apply State.inject_grows | apply State.norJob_grows | apply State.updPart_grows
      | apply State.winRecord_grows
    | intro _
    | split
    | dsimp only

theorem State.plotNorDone_grows {s0 : State} {s : State} (k : _) (seq : _) (status : _) (rejected : _) (hs : Grows s0 s) :
    Grows s0 (State.plotNorDone s k seq status rejected) := by
  unfold State.plotNorDone; try dsimp only
  repeat' first
    | with_reducible first
      | assumption | apply State.complete_grows | apply State.rejectHold_grows | apply State.updPlot_grows
    | intro _
    | split
    | dsimp only

theorem State.norDone_grows {s0 : State} {s : State} (src : _) (status : _) (rejected : _) (hs : Grows s0 s) :
    Grows s0 (State.norDone s src status rejected) := by
  unfold State.norDone; try dsimp only
  repeat' first
    | with_reducible first
      | assumption | apply State.plotNorDone_grows | apply State.winDone_grows
    | intro _
    | split
    | dsimp only

theorem norDispatch_grows {s0 : State} {s : State} (k : _) (hs : Grows s0 s) :
    Grows s0 (norDispatch s k) := by
  unfold norDispatch; try dsimp only
  repeat' first
    | with_reducible first
      | assumption | apply State.updPlot_grows | apply State.updQueue_grows | apply State.waitTake_grows
    | intro _
    | split
    | dsimp only

theorem execNoriaDispatch_grows {s0 : State} (p : _) {s : State} (hs : Grows s0 s) :
    OutGrows s0 (execNoriaDispatch p s) := by
  unfold execNoriaDispatch; try dsimp only
  repeat' first
    | with_reducible first
      | assumption | apply OutGrows.next | apply norDispatch_grows
    | intro _
    | split
    | dsimp only

theorem State.winSend_grows {s0 : State} {s : State} (n : _) (seq : _) (hs : Grows s0 s) :
    Grows s0 (State.winSend s n seq) := by
  unfold State.winSend; try dsimp only
  repeat' first
    | with_reducible first
      | assumption | apply State.refillWin_grows | apply State.updPart_grows
    | intro _
    | split
    | dsimp only

theorem State.norWay_grows {s0 : State} {s : State} (src : _) (from_ : _) (w : _) (hs : Grows s0 s) :
    Grows s0 (State.norWay s src from_ w) := by
  unfold State.norWay; try dsimp only
  repeat' first
    | with_reducible first
      | assumption | apply State.updPart_grows | apply State.updPlot_grows
    | intro _
    | split
    | dsimp only

theorem norArrive_grows {s0 : State} (src : _) {s : State} (hs : Grows s0 s) :
    Grows s0 (norArrive src s) := by
  unfold norArrive; try dsimp only
  repeat' first
    | with_reducible first
      | assumption | apply State.count_grows | apply State.norDone_grows | apply State.norWay_grows
      | apply State.updNor_grows
    | intro _
    | split
    | dsimp only

theorem norLeave_grows {s0 : State} (src : _) {s : State} (hs : Grows s0 s) :
    Grows s0 (norLeave src s) := by
  unfold norLeave; try dsimp only
  repeat' first
    | with_reducible first
      | assumption | apply State.winSend_grows
    | intro _
    | split
    | dsimp only

theorem execNoriaCmdArrive_grows {s0 : State} (src : _) {s : State} (hs : Grows s0 s) :
    OutGrows s0 (execNoriaCmdArrive src s) := by
  unfold execNoriaCmdArrive; try dsimp only
  repeat' first
    | with_reducible first
      | assumption | apply OutGrows.next | apply norArrive_grows | apply norLeave_grows
    | intro _
    | split
    | dsimp only

theorem execNoriaRetryResend_grows {s0 : State} (src : _) {s : State} (hs : Grows s0 s) :
    OutGrows s0 (execNoriaRetryResend src s) := by
  unfold execNoriaRetryResend; try dsimp only
  repeat' first
    | with_reducible first
      | assumption | apply OutGrows.next | apply State.norWay_grows
    | intro _
    | split
    | dsimp only

theorem execBankPermitGrant_grows {s0 : State} (p : _) (bank : _) {s : State} (hs : Grows s0 s) :
    OutGrows s0 (execBankPermitGrant p bank s) := by
  unfold execBankPermitGrant; try dsimp only
  repeat' first
    | with_reducible first
      | assumption | apply OutGrows.next | apply State.count_grows | apply State.updNor_grows
    | intro _
    | split
    | dsimp only

theorem State.releasePermit_grows {s0 : State} {s : State} (k : _) (b : _) (hs : Grows s0 s) :
    Grows s0 (State.releasePermit s k b) := by
  unfold State.releasePermit; try dsimp only
  repeat' first
    | with_reducible first
      | assumption | apply State.updNor_grows | apply State.updStk_grows
    | intro _
    | split
    | dsimp only

theorem execNoriaStepStart_grows {s0 : State} (p : _) (bank : _) {s : State} (hs : Grows s0 s) :
    OutGrows s0 (execNoriaStepStart p bank s) := by
  unfold execNoriaStepStart; try dsimp only
  repeat' first
    | with_reducible first
      | assumption | apply OutGrows.next | apply State.updNor_grows
    | intro _
    | split
    | dsimp only

theorem State.norRead_grows {s0 : State} {s : State} (k : _) (b : _) (bl : _) (len : _) (hs : Grows s0 s) :
    Grows s0 (State.norRead s k b bl len) := by
  unfold State.norRead; try dsimp only
  repeat' first
    | with_reducible first
      | assumption | apply Grows.foldl | apply Grows.foldl1 | apply Grows.foldlDev | apply Grows.foldlMv
      | apply Grows.foldlDn | apply readWord_grows
    | intro _
    | split
    | dsimp only

theorem State.norRecord_grows {s0 : State} {s : State} (k : _) (b : _) (tag : _) (lo : _) (hi : _) (fresh : _) (hs : Grows s0 s) :
    Grows s0 (State.norRecord s k b tag lo hi fresh) := by
  unfold State.norRecord; try dsimp only
  repeat' first
    | with_reducible first
      | assumption | apply State.setReg_grows
    | intro _
    | split
    | dsimp only

theorem norWriteWord_grows {s0 : State} {x : _} (k : _) (b : _) (tag : _) (u : _) (lo : _) (bs : _) (bad : _) (hx : Grows s0 x.1) :
    Grows s0 (norWriteWord x k b tag u lo bs bad).1 := by
  unfold norWriteWord; try dsimp only
  repeat' first
    | with_reducible first
      | assumption | apply State.count_grows | apply State.norRecord_grows | apply writeWord_grows
    | intro _
    | split
    | dsimp only

theorem norWriteRun_grows {s0 : State} {x : _} (k : _) (b : _) (tag : _) (w : _) (hx : Grows s0 x.1) :
    Grows s0 (norWriteRun x k b tag w).1 := by
  unfold norWriteRun; try dsimp only
  repeat' first
    | with_reducible first
      | assumption | apply Grows.foldl | apply Grows.foldl1 | apply Grows.foldlDev | apply Grows.foldlMv
      | apply Grows.foldlDn | apply norWriteWord_grows
    | intro _
    | split
    | dsimp only

theorem State.updNorCmd_grows {s0 : State} {s : State} (k : _) (src : _) (f : _) (hs : Grows s0 s) :
    Grows s0 (State.updNorCmd s k src f) := by
  unfold State.updNorCmd; try dsimp only
  repeat' first
    | with_reducible first
      | assumption | apply State.updNor_grows
    | intro _
    | split
    | dsimp only

theorem State.norFinish_grows {s0 : State} {s : State} (k : _) (src : _) (hs : Grows s0 s) :
    Grows s0 (State.norFinish s k src) := by
  unfold State.norFinish; try dsimp only
  repeat' first
    | with_reducible first
      | assumption | apply State.count_grows | apply State.norDone_grows | apply State.updNor_grows
    | intro _
    | split
    | dsimp only

theorem runStep_grows {s0 : State} {s : State} (k : _) (b : _) (c : _) (hs : Grows s0 s) :
    Grows s0 (runStep s k b c) := by
  unfold runStep; try dsimp only
  repeat' first
    | with_reducible first
      | assumption | apply Grows.foldl | apply Grows.foldl1 | apply Grows.foldlDev | apply Grows.foldlMv
      | apply Grows.foldlDn | apply State.count_grows | apply State.norRead_grows | apply State.updNorCmd_grows
      | apply norWriteRun_grows
    | intro _
    | split
    | dsimp only

theorem stepEnd_grows {s0 : State} (k : _) (b : _) {s : State} (hs : Grows s0 s) :
    Grows s0 (stepEnd k b s) := by
  unfold stepEnd; try dsimp only
  repeat' first
    | with_reducible first
      | assumption | apply State.norFinish_grows | apply State.releasePermit_grows
      | apply State.serveWaiting_grows | apply State.updNor_grows | apply runStep_grows
    | intro _
    | split
    | dsimp only

theorem execNoriaStepEnd_grows {s0 : State} (p : _) (bank : _) {s : State} (hs : Grows s0 s) :
    OutGrows s0 (execNoriaStepEnd p bank s) := by
  unfold execNoriaStepEnd; try dsimp only
  repeat' first
    | with_reducible first
      | assumption | apply OutGrows.next | apply stepEnd_grows
    | intro _
    | split
    | dsimp only

theorem State.norStopCmd_grows {s0 : State} {s : State} (k : _) (status : _) (src : _) (hs : Grows s0 s) :
    Grows s0 (State.norStopCmd s k status src) := by
  unfold State.norStopCmd; try dsimp only
  repeat' first
    | with_reducible first
      | assumption | apply Grows.foldl | apply Grows.foldl1 | apply Grows.foldlDev | apply Grows.foldlMv
      | apply Grows.foldlDn | apply State.norFinish_grows | apply State.updNorCmd_grows
    | intro _
    | split
    | dsimp only

theorem State.norStop_grows {s0 : State} {s : State} (k : _) (sel : _) (status : _) (hs : Grows s0 s) :
    Grows s0 (State.norStop s k sel status) := by
  unfold State.norStop; try dsimp only
  repeat' first
    | with_reducible first
      | assumption | apply Grows.foldl | apply Grows.foldl1 | apply Grows.foldlDev | apply Grows.foldlMv
      | apply Grows.foldlDn | apply State.norStopCmd_grows | apply State.releasePermit_grows
    | intro _
    | split
    | dsimp only

theorem State.norUnsent_grows {s0 : State} {s : State} (p : _) (status : _) (hs : Grows s0 s) :
    Grows s0 (State.norUnsent s p status) := by
  unfold State.norUnsent; try dsimp only
  repeat' first
    | with_reducible first
      | assumption | apply Grows.foldl | apply Grows.foldl1 | apply Grows.foldlDev | apply Grows.foldlMv
      | apply Grows.foldlDn | apply State.plotNorDone_grows
    | intro _
    | split
    | dsimp only

theorem State.norStopPlot_grows {s0 : State} {s : State} (p : _) (status : _) (hs : Grows s0 s) :
    Grows s0 (State.norStopPlot s p status) := by
  unfold State.norStopPlot; try dsimp only
  repeat' first
    | with_reducible first
      | assumption | apply Grows.foldl | apply Grows.foldl1 | apply Grows.foldlDev | apply Grows.foldlMv
      | apply Grows.foldlDn | apply State.norStop_grows | apply State.norUnsent_grows
    | intro _
    | split
    | dsimp only

theorem State.norFence_grows {s0 : State} {s : State} (p : _) (hs : Grows s0 s) :
    Grows s0 (State.norFence s p) := by
  unfold State.norFence; try dsimp only
  repeat' first
    | with_reducible first
      | assumption | apply Grows.foldl | apply Grows.foldl1 | apply Grows.foldlDev | apply Grows.foldlMv
      | apply Grows.foldlDn | apply State.norStop_grows | apply State.updPlot_grows
    | intro _
    | split
    | dsimp only

theorem State.norStopWindow_grows {s0 : State} {s : State} (n : _) (status : _) (hs : Grows s0 s) :
    Grows s0 (State.norStopWindow s n status) := by
  unfold State.norStopWindow; try dsimp only
  repeat' first
    | with_reducible first
      | assumption | apply Grows.foldl | apply Grows.foldl1 | apply Grows.foldlDev | apply Grows.foldlMv
      | apply Grows.foldlDn | apply State.norStop_grows | apply State.updPart_grows | apply State.winDone_grows
    | intro _
    | split
    | dsimp only

theorem State.startXchk_grows {s0 : State} {s : State} (k : _) (mask : _) (mgmt : _) (hs : Grows s0 s) :
    Grows s0 (State.startXchk s k mask mgmt) := by
  unfold State.startXchk; try dsimp only
  repeat' first
    | with_reducible first
      | assumption | apply State.setFld_grows | apply State.updNor_grows
    | intro _
    | split
    | dsimp only

theorem execNoriaXchkPeriod_grows {s0 : State} (p : _) {s : State} (hs : Grows s0 s) :
    OutGrows s0 (execNoriaXchkPeriod p s) := by
  unfold execNoriaXchkPeriod; try dsimp only
  repeat' first
    | with_reducible first
      | assumption | apply OutGrows.next | apply State.startXchk_grows
    | intro _
    | split
    | dsimp only

theorem xchkGo_grows {s0 : State} (r : _) (k : _) (v : _) {s : State} (hs : Grows s0 s) :
    Grows s0 (xchkGo r k v s) := by
  unfold xchkGo; try dsimp only
  repeat' first
    | with_reducible first
      | assumption | apply State.startXchk_grows
    | intro _
    | split
    | dsimp only

theorem execNoriaXchkGo_grows {s0 : State} (r : _) (p : _) (v : _) {s : State} (hs : Grows s0 s) :
    OutGrows s0 (execNoriaXchkGo r p v s) := by
  unfold execNoriaXchkGo; try dsimp only
  repeat' first
    | with_reducible first
      | assumption | apply OutGrows.next | apply State.access_grows | apply xchkGo_grows
    | intro _
    | split
    | dsimp only

theorem xchkResult_grows {s0 : State} (k : _) (b : _) (same : _) {s : State} (hs : Grows s0 s) :
    Grows s0 (xchkResult k b same s) := by
  unfold xchkResult; try dsimp only
  repeat' first
    | with_reducible first
      | assumption | apply State.addFld_grows | apply State.clrBit_grows | apply State.irq_grows
      | apply State.report_grows | apply State.setBit_grows
    | intro _
    | split
    | dsimp only

theorem xchkDone_grows {s0 : State} (k : _) (b : _) (same : _) {s : State} (hs : Grows s0 s) :
    Grows s0 (xchkDone k b same s) := by
  unfold xchkDone; try dsimp only
  repeat' first
    | with_reducible first
      | assumption | apply State.count_grows | apply State.setFld_grows | apply State.updNor_grows
      | apply xchkResult_grows
    | intro _
    | split
    | dsimp only

theorem execNoriaXchkDone_grows {s0 : State} (p : _) (bank : _) (same : _) {s : State} (hs : Grows s0 s) :
    OutGrows s0 (execNoriaXchkDone p bank same s) := by
  unfold execNoriaXchkDone; try dsimp only
  repeat' first
    | with_reducible first
      | assumption | apply OutGrows.next | apply xchkDone_grows
    | intro _
    | split
    | dsimp only

/-! ### Fabric -/

theorem State.dropToken_grows {s0 : State} {s : State} (k : _) (m : _) (src : _) (counted : _) (hs : Grows s0 s) :
    Grows s0 (State.dropToken s k m src counted) := by
  unfold State.dropToken; try dsimp only
  repeat' first
    | with_reducible first
      | assumption | apply State.count_grows | apply State.rhErr_grows
    | intro _
    | split
    | dsimp only

theorem State.tokenIn_grows {s0 : State} {s : State} (k : _) (src : _) (m : _) (counted : _) (tallied : _) (f : _) (hs : Grows s0 s) (hf : ∀ u, Grows s0 u → Grows s0 (f u)) :
    Grows s0 (State.tokenIn s k src m counted tallied f) := by
  unfold State.tokenIn; try dsimp only
  repeat' first
    | with_reducible first
      | assumption | apply hf | apply State.arrived_grows | apply State.count_grows | apply State.dropToken_grows
      | apply State.holdMsg_grows
    | intro _
    | split
    | dsimp only

theorem badToken_grows {s0 : State} (k : _) {s : State} (hs : Grows s0 s) :
    Grows s0 (badToken k s) := by
  unfold badToken; try dsimp only
  repeat' first
    | with_reducible first
      | assumption | apply State.count_grows | apply State.irq_grows
    | intro _
    | split
    | dsimp only

theorem execAddToken_grows {s0 : State} (p : _) (src : _) (ctr : _) (amount : _) {s : State} (hs : Grows s0 s) :
    OutGrows s0 (execAddToken p src ctr amount s) := by
  unfold execAddToken; try dsimp only
  repeat' first
    | with_reducible first
      | assumption | apply OutGrows.next | apply State.noteItem_grows | apply State.tokArrive_grows
      | apply State.tokenIn_grows | apply badToken_grows
    | intro _
    | split
    | dsimp only

theorem addCredit_grows {s0 : State} (k : _) (src : _) (sl : _) (n : _) {s : State} (hs : Grows s0 s) :
    Grows s0 (addCredit k src sl n s) := by
  unfold addCredit; try dsimp only
  repeat' first
    | with_reducible first
      | assumption | apply State.irq_grows | apply State.rhErr_grows | apply State.setFld_grows
    | intro _
    | split
    | dsimp only

theorem execCreditToken_grows {s0 : State} (p : _) (src : _) (slot : _) (n : _) {s : State} (hs : Grows s0 s) :
    OutGrows s0 (execCreditToken p src slot n s) := by
  unfold execCreditToken; try dsimp only
  repeat' first
    | with_reducible first
      | assumption | apply OutGrows.next | apply State.tokenIn_grows | apply addCredit_grows
    | intro _
    | split
    | dsimp only

theorem State.dropRows_grows {s0 : State} {s : State} (k : _) (sl : _) (hs : Grows s0 s) :
    Grows s0 (State.dropRows s k sl) := by
  unfold State.dropRows; try dsimp only
  repeat' first
    | with_reducible first
      | assumption | apply Grows.foldl | apply Grows.foldl1 | apply Grows.foldlDev | apply Grows.foldlMv
      | apply Grows.foldlDn | apply State.updArr_grows | apply rowDone_grows
    | intro _
    | split
    | dsimp only

theorem fenceSlot_grows {s0 : State} (k : _) (sl : _) {s : State} (hs : Grows s0 s) :
    Grows s0 (fenceSlot k sl s) := by
  unfold fenceSlot; try dsimp only
  repeat' first
    | with_reducible first
      | assumption | apply Grows.foldl | apply Grows.foldl1 | apply Grows.foldlDev | apply Grows.foldlMv
      | apply Grows.foldlDn | apply State.count_grows | apply State.dropRows_grows | apply State.setBit_grows
      | apply State.updChan_grows
    | intro _
    | split
    | dsimp only

theorem execFencedToken_grows {s0 : State} (p : _) (src : _) (slot : _) {s : State} (hs : Grows s0 s) :
    OutGrows s0 (execFencedToken p src slot s) := by
  unfold execFencedToken; try dsimp only
  repeat' first
    | with_reducible first
      | assumption | apply OutGrows.next | apply State.arrived_grows | apply State.count_grows
      | apply State.holdMsg_grows | apply fenceSlot_grows
    | intro _
    | split
    | dsimp only

theorem execBargeGo_grows {s0 : State} (p : _) (src : _) (c : _) {s : State} (hs : Grows s0 s) :
    OutGrows s0 (execBargeGo p src c s) := by
  unfold execBargeGo; try dsimp only
  repeat' first
    | with_reducible first
      | assumption | apply OutGrows.next | apply State.addGo_grows | apply State.pump_grows
      | apply State.tokenIn_grows
    | intro _
    | split
    | dsimp only

theorem execWake_grows {s0 : State} (p : _) (src : _) {s : State} (hs : Grows s0 s) :
    OutGrows s0 (execWake p src s) := by
  unfold execWake; try dsimp only
  repeat' first
    | with_reducible first
      | assumption | apply OutGrows.next | apply State.irq_grows | apply State.tokenIn_grows
    | intro _
    | split
    | dsimp only

theorem execReservedToken_grows {s0 : State} (p : _) (src : _) (tok : _) {s : State} (hs : Grows s0 s) :
    OutGrows s0 (execReservedToken p src tok s) := by
  unfold execReservedToken; try dsimp only
  repeat' first
    | with_reducible first
      | assumption | apply OutGrows.next | apply State.tokenIn_grows | apply badToken_grows
    | intro _
    | split
    | dsimp only

theorem State.launch_grows {s0 : State} {s : State} (k : _) (n : _) (f : _) (hs : Grows s0 s) :
    Grows s0 (State.launch s k n f) := by
  unfold State.launch; try dsimp only
  repeat' first
    | with_reducible first
      | assumption | apply State.count_grows | apply State.inject_grows | apply State.setFld_grows
    | intro _
    | split
    | dsimp only

theorem sendFlit_grows {s0 : State} (k : _) (n : _) {s : State} (hs : Grows s0 s) :
    Grows s0 (sendFlit k n s) := by
  unfold sendFlit; try dsimp only
  repeat' first
    | with_reducible first
      | assumption | apply State.countChan_grows | apply State.count_grows | apply State.launch_grows
      | apply State.updArr_grows | apply State.updChan_grows | apply rowDone_grows
    | intro _
    | split
    | dsimp only

theorem execStreamFlitSend_grows {s0 : State} (p : _) (slot : _) {s : State} (hs : Grows s0 s) :
    OutGrows s0 (execStreamFlitSend p slot s) := by
  unfold execStreamFlitSend; try dsimp only
  repeat' first
    | with_reducible first
      | assumption | apply OutGrows.next | apply State.readyChans_grows | apply sendFlit_grows
    | intro _
    | split
    | dsimp only

theorem State.discardFlit_grows {s0 : State} {s : State} (k : _) (code : _) (sid : _) (src : _) (slot : _) (hs : Grows s0 s) :
    Grows s0 (State.discardFlit s k code sid src slot) := by
  unfold State.discardFlit; try dsimp only
  repeat' first
    | with_reducible first
      | assumption | apply State.count_grows | apply State.inject_grows | apply State.rhErr_grows
      | apply State.updPlot_grows
    | intro _
    | split
    | dsimp only

theorem State.ringPut_grows {s0 : State} {s : State} (k : _) (n : _) (src : _) (slot : _) (data : _) (hs : Grows s0 s) :
    Grows s0 (State.ringPut s k n src slot data) := by
  unfold State.ringPut; try dsimp only
  repeat' first
    | with_reducible first
      | assumption | apply State.count_grows | apply State.setFld_grows | apply State.tokArrive_grows
      | apply State.updPlot_grows
    | intro _
    | split
    | dsimp only

theorem plotFlit_grows {s0 : State} (k : _) (hg : _) (sid : _) (src : _) (slot : _) (data : _) {s : State} (hs : Grows s0 s) :
    Grows s0 (plotFlit k hg sid src slot data s) := by
  unfold plotFlit; try dsimp only
  repeat' first
    | with_reducible first
      | assumption | apply State.arrived_grows | apply State.discardFlit_grows | apply State.holdMsg_grows
      | apply State.ringPut_grows
    | intro _
    | split
    | dsimp only

theorem State.ringTake_grows {s0 : State} {s : State} (k : _) (n : _) (hs : Grows s0 s) :
    Grows s0 (State.ringTake s k n) := by
  unfold State.ringTake; try dsimp only
  repeat' first
    | with_reducible first
      | assumption | apply State.sendCredit_grows | apply State.setFld_grows | apply State.updPlot_grows
    | intro _
    | split
    | dsimp only

theorem consume_grows {s0 : State} (k : _) (n : _) {s : State} (hs : Grows s0 s) :
    Grows s0 (consume k n s) := by
  unfold consume; try dsimp only
  repeat' first
    | with_reducible first
      | assumption | apply State.ringTake_grows | apply State.updArr_grows | apply State.updChan_grows
    | intro _
    | split
    | dsimp only

theorem execHeadgateConsume_grows {s0 : State} (p : _) (hg : _) {s : State} (hs : Grows s0 s) :
    OutGrows s0 (execHeadgateConsume p hg s) := by
  unfold execHeadgateConsume; try dsimp only
  repeat' first
    | with_reducible first
      | assumption | apply OutGrows.next | apply State.readyChans_grows | apply consume_grows
    | intro _
    | split
    | dsimp only

theorem execCreditBatchTimeout_grows {s0 : State} (p : _) (hg : _) {s : State} (hs : Grows s0 s) :
    OutGrows s0 (execCreditBatchTimeout p hg s) := by
  unfold execCreditBatchTimeout; try dsimp only
  repeat' first
    | with_reducible first
      | assumption | apply OutGrows.next | apply State.sendCredit_grows
    | intro _
    | split
    | dsimp only

theorem State.fencePlot_grows {s0 : State} {s : State} (k : _) (byFault : _) (hs : Grows s0 s) :
    Grows s0 (State.fencePlot s k byFault) := by
  unfold State.fencePlot; try dsimp only
  repeat' first
    | with_reducible first
      | assumption | apply State.clearArr_grows | apply State.norFence_grows | apply State.setBit_grows
    | intro _
    | split
    | dsimp only

theorem fenceMask_grows {s0 : State} (st : _) (q : _) (mask : _) {s : State} (hs : Grows s0 s) :
    Grows s0 (fenceMask st q mask s) := by
  unfold fenceMask; try dsimp only
  repeat' first
    | with_reducible first
      | assumption | apply Grows.foldl | apply Grows.foldl1 | apply Grows.foldlDev | apply Grows.foldlMv
      | apply Grows.foldlDn | apply State.fencePlot_grows
    | intro _
    | split
    | dsimp only

theorem execRhFenceSet_grows {s0 : State} (r : _) (st : _) (q : _) (mask : _) {s : State} (hs : Grows s0 s) :
    OutGrows s0 (execRhFenceSet r st q mask s) := by
  unfold execRhFenceSet; try dsimp only
  repeat' first
    | with_reducible first
      | assumption | apply OutGrows.next | apply State.access_grows | apply fenceMask_grows
    | intro _
    | split
    | dsimp only

theorem forwardLane_grows {s0 : State} (die : _) (site : _) (out : _) (lane : _) {s : State} (hs : Grows s0 s) :
    Grows s0 (forwardLane die site out lane s) := by
  unfold forwardLane; try dsimp only
  repeat' first
    | with_reducible first
      | assumption
    | intro _
    | split
    | with_reducible apply Grows.lit
    | dsimp only

/-! ### Barge -/

theorem execBargeHandoff_grows {s0 : State} (p : _) {s : State} (hs : Grows s0 s) :
    OutGrows s0 (execBargeHandoff p s) := by
  unfold execBargeHandoff; try dsimp only
  repeat' first
    | with_reducible first
      | assumption | apply OutGrows.next | apply handoff_grows
    | intro _
    | split
    | dsimp only

theorem finishUnit_grows {s0 : State} (c : _) {s : State} (hs : Grows s0 s) :
    Grows s0 (finishUnit c s) := by
  unfold finishUnit; try dsimp only
  repeat' first
    | with_reducible first
      | assumption | apply State.countUnit_grows | apply State.endDesc_grows | apply State.followers_grows
      | apply State.notify_grows | apply State.pump_grows | apply State.reqDrop_grows | apply State.updChan_grows
      | apply moveElems_grows
    | intro _
    | split
    | dsimp only

theorem State.ready_grows {s0 : State} {s : State} (c : _) (hs : Grows s0 s) :
    Grows s0 (State.ready s c) := by
  unfold State.ready; try dsimp only
  repeat' first
    | with_reducible first
      | assumption | apply State.fillOut_grows | apply State.pump_grows
    | intro _
    | split
    | dsimp only

theorem execBargeUnitComplete_grows {s0 : State} (c : _) {s : State} (hs : Grows s0 s) :
    OutGrows s0 (execBargeUnitComplete c s) := by
  unfold execBargeUnitComplete; try dsimp only
  repeat' first
    | with_reducible first
      | assumption | apply OutGrows.next | apply State.ready_grows | apply finishUnit_grows
    | intro _
    | split
    | dsimp only

theorem timerDue_grows {s0 : State} (c : _) (d : _) {s : State} (hs : Grows s0 s) :
    Grows s0 (timerDue c d s) := by
  unfold timerDue; try dsimp only
  repeat' first
    | with_reducible first
      | assumption | apply State.addFld_grows | apply State.setChan_grows | apply State.startUnit_grows
    | intro _
    | split
    | dsimp only

theorem execBargeTimerDue_grows {s0 : State} (c : _) {s : State} (hs : Grows s0 s) :
    OutGrows s0 (execBargeTimerDue c s) := by
  unfold execBargeTimerDue; try dsimp only
  repeat' first
    | with_reducible first
      | assumption | apply OutGrows.next | apply State.pump_grows | apply timerDue_grows
    | intro _
    | split
    | dsimp only

theorem brgPush_grows {s0 : State} (n : _) {s : State} (hs : Grows s0 s) :
    Grows s0 (brgPush n s) := by
  unfold brgPush; try dsimp only
  repeat' first
    | with_reducible first
      | assumption | apply State.iodNext_grows | apply State.irq_grows | apply State.setChan_grows
    | intro _
    | split
    | dsimp only

theorem execBrgSubmitPush_grows {s0 : State} (r : _) (n : _) {s : State} (hs : Grows s0 s) :
    OutGrows s0 (execBrgSubmitPush r n s) := by
  unfold execBrgSubmitPush; try dsimp only
  repeat' first
    | with_reducible first
      | assumption | apply OutGrows.next | apply State.access_grows | apply brgPush_grows
    | intro _
    | split
    | dsimp only

theorem brgGo_grows {s0 : State} (c : _) (clr : _) {s : State} (hs : Grows s0 s) :
    Grows s0 (brgGo c clr s) := by
  unfold brgGo; try dsimp only
  repeat' first
    | with_reducible first
      | assumption | apply State.addGo_grows | apply State.pump_grows | apply State.updChan_grows
    | intro _
    | split
    | dsimp only

theorem execBrgCtrlGo_grows {s0 : State} (r : _) (c : _) (clr : _) {s : State} (hs : Grows s0 s) :
    OutGrows s0 (execBrgCtrlGo r c clr s) := by
  unfold execBrgCtrlGo; try dsimp only
  repeat' first
    | with_reducible first
      | assumption | apply OutGrows.next | apply State.access_grows | apply brgGo_grows
    | intro _
    | split
    | dsimp only

theorem popBrg_grows {s0 : State} (n : _) {s : State} (hs : Grows s0 s) :
    Grows s0 (popBrg n s) := by
  unfold popBrg; try dsimp only
  repeat' first
    | with_reducible first
      | assumption | apply State.answer_grows | apply State.iodNext_grows | apply State.setChan_grows
    | intro _
    | split
    | dsimp only

theorem execBrgCplPop_grows {s0 : State} (r : _) (n : _) {s : State} (hs : Grows s0 s) :
    OutGrows s0 (execBrgCplPop r n s) := by
  unfold execBrgCplPop; try dsimp only
  repeat' first
    | with_reducible first
      | assumption | apply OutGrows.next | apply State.readAccess_grows | apply popBrg_grows
    | intro _
    | split
    | dsimp only

theorem sendPacket_grows {s0 : State} (c : _) {s : State} (hs : Grows s0 s) :
    Grows s0 (sendPacket c s) := by
  unfold sendPacket; try dsimp only
  repeat' first
    | with_reducible first
      | assumption | apply State.updChan_grows | apply moveElems_grows
    | intro _
    | split
    | dsimp only

end Sys2Proof.Machine
end

