-- ==== Sys2Proof/Laws/GrowsHost.lean ====
section
/-!
SUPPORT. Laws/GrowsHost.lean: no operation takes back what `Grows` names: one lemma per operation of resets, the landing, ring commands, graphs, crossings and groups.
-/
set_option linter.unusedTactic false
set_option linter.unreachableTactic false
set_option linter.unusedVariables false
set_option linter.unusedSimpArgs false

namespace Sys2Proof.Machine

variable {s0 : State}

/-! ### ResetOps -/

theorem State.updSlot_grows {s0 : State} {s : State} (n : _) (sl : _) (f : _) (hs : Grows s0 s) :
    Grows s0 (State.updSlot s n sl f) := by
  unfold State.updSlot; try dsimp only
  repeat' first
    | with_reducible first
      | assumption | apply State.updPart_grows
    | intro _
    | split
    | dsimp only

theorem State.answerRun_grows {s0 : State} {s : State} (n : _) (sl : _) (status : _) (value : _) (hs : Grows s0 s) :
    Grows s0 (State.answerRun s n sl status value) := by
  unfold State.answerRun; try dsimp only
  repeat' first
    | with_reducible first
      | assumption | apply State.finishCmd_grows | apply State.updSlot_grows
    | intro _
    | split
    | dsimp only

theorem State.dropRun_grows {s0 : State} {s : State} (n : _) (sl : _) (hs : Grows s0 s) :
    Grows s0 (State.dropRun s n sl) := by
  unfold State.dropRun; try dsimp only
  repeat' first
    | with_reducible first
      | assumption | apply State.updSlot_grows
    | intro _
    | split
    | dsimp only

theorem State.partEnded_grows {s0 : State} {s : State} (n : _) (sl : _) (k : _) (hs : Grows s0 s) :
    Grows s0 (State.partEnded s n sl k) := by
  unfold State.partEnded; try dsimp only
  repeat' first
    | with_reducible first
      | assumption | apply State.answerRun_grows | apply State.dropRun_grows | apply State.updSlot_grows
    | intro _
    | split
    | dsimp only

theorem State.faultRun_grows {s0 : State} {s : State} (n : _) (sl : _) (k : _) (hs : Grows s0 s) :
    Grows s0 (State.faultRun s n sl k) := by
  unfold State.faultRun; try dsimp only
  repeat' first
    | with_reducible first
      | assumption | apply State.answerRun_grows | apply State.partEnded_grows
    | intro _
    | split
    | dsimp only

theorem State.faultRuns_grows {s0 : State} {s : State} (k : _) (hs : Grows s0 s) :
    Grows s0 (State.faultRuns s k) := by
  unfold State.faultRuns; try dsimp only
  repeat' first
    | with_reducible first
      | assumption | apply Grows.foldl | apply Grows.foldl1 | apply Grows.foldlDev | apply Grows.foldlMv
      | apply Grows.foldlDn | apply State.faultRun_grows
    | intro _
    | split
    | dsimp only

theorem State.cancelJob_grows {s0 : State} {s : State} (g : _) (id : _) (hs : Grows s0 s) :
    Grows s0 (State.cancelJob s g id) := by
  unfold State.cancelJob; try dsimp only
  repeat' first
    | with_reducible first
      | assumption | apply Grows.foldl | apply Grows.foldl1 | apply Grows.foldlDev | apply Grows.foldlMv
      | apply Grows.foldlDn | apply State.clearChan_grows | apply State.iodNext_grows | apply State.updChan_grows
      | apply State.updFunc_grows | apply State.updGrp_grows | apply State.updPart_grows
    | intro _
    | split
    | with_reducible apply Grows.lit
    | dsimp only

theorem State.abortCmd_grows {s0 : State} {s : State} (g : _) (id : _) (status : _) (hs : Grows s0 s) :
    Grows s0 (State.abortCmd s g id status) := by
  unfold State.abortCmd; try dsimp only
  repeat' first
    | with_reducible first
      | assumption | apply State.cancelJob_grows | apply State.finishCmd_grows
    | intro _
    | split
    | dsimp only

theorem State.abortCmds_grows {s0 : State} {s : State} (g : _) (sel : _) (status : _) (hs : Grows s0 s) :
    Grows s0 (State.abortCmds s g sel status) := by
  unfold State.abortCmds; try dsimp only
  repeat' first
    | with_reducible first
      | assumption | apply Grows.foldl | apply Grows.foldl1 | apply Grows.foldlDev | apply Grows.foldlMv
      | apply Grows.foldlDn | apply State.abortCmd_grows | apply State.endCmd_grows | apply State.updRing_grows
    | intro _
    | split
    | dsimp only

theorem State.abortRunning_grows {s0 : State} {s : State} (g : _) (sel : _) (status : _) (hs : Grows s0 s) :
    Grows s0 (State.abortRunning s g sel status) := by
  unfold State.abortRunning; try dsimp only
  repeat' first
    | with_reducible first
      | assumption | apply Grows.foldl | apply Grows.foldl1 | apply Grows.foldlDev | apply Grows.foldlMv
      | apply Grows.foldlDn | apply State.abortCmd_grows
    | intro _
    | split
    | dsimp only

theorem State.setPState_grows {s0 : State} {s : State} (n : _) (st : _) (hs : Grows s0 s) :
    Grows s0 (State.setPState s n st) := by
  unfold State.setPState; try dsimp only
  repeat' first
    | with_reducible first
      | assumption | apply State.msix_grows | apply State.updPart_grows
    | intro _
    | split
    | dsimp only

theorem State.setTdi_grows {s0 : State} {s : State} (n : _) (x : _) (hs : Grows s0 s) :
    Grows s0 (State.setTdi s n x) := by
  unfold State.setTdi; try dsimp only
  repeat' first
    | with_reducible first
      | assumption | apply State.setFld_grows
    | intro _
    | split
    | dsimp only

theorem State.beginReset_grows {s0 : State} {s : State} (sc : _) (zero : _) (retest : _) (hs : Grows s0 s) :
    Grows s0 (State.beginReset s sc zero retest) := by
  unfold State.beginReset; try dsimp only
  repeat' first
    | with_reducible first
      | assumption
    | intro _
    | split
    | with_reducible apply Grows.lit
    | dsimp only

theorem State.resetPart_grows {s0 : State} {s : State} (n : _) (why : _) (hs : Grows s0 s) :
    Grows s0 (State.resetPart s n why) := by
  unfold State.resetPart; try dsimp only
  repeat' first
    | with_reducible first
      | assumption | apply State.beginReset_grows | apply State.setPState_grows | apply State.updPart_grows
    | intro _
    | split
    | dsimp only

theorem State.tdiError_grows {s0 : State} {s : State} (n : _) (hs : Grows s0 s) :
    Grows s0 (State.tdiError s n) := by
  unfold State.tdiError; try dsimp only
  repeat' first
    | with_reducible first
      | assumption | apply State.resetPart_grows | apply State.setTdi_grows
    | intro _
    | split
    | dsimp only

theorem State.faultPart_grows {s0 : State} {s : State} (n : _) (hs : Grows s0 s) :
    Grows s0 (State.faultPart s n) := by
  unfold State.faultPart; try dsimp only
  repeat' first
    | with_reducible first
      | assumption | apply Grows.foldl | apply Grows.foldl1 | apply Grows.foldlDev | apply Grows.foldlMv
      | apply Grows.foldlDn | apply State.abortRunning_grows | apply State.setPState_grows
      | apply State.tdiError_grows | apply State.updPart_grows
    | intro _
    | split
    | dsimp only

theorem State.propose_grows {s0 : State} {s : State} (st : _) (pl : _) (d : _) (hs : Grows s0 s) :
    Grows s0 (State.propose s st pl d) := by
  unfold State.propose; try dsimp only
  repeat' first
    | with_reducible first
      | assumption | apply State.addFld_grows | apply State.report_grows
    | intro _
    | split
    | with_reducible apply Grows.lit
    | dsimp only

theorem State.markFailed_grows {s0 : State} {s : State} (k : _) (cause : _) (hs : Grows s0 s) :
    Grows s0 (State.markFailed s k cause) := by
  unfold State.markFailed; try dsimp only
  repeat' first
    | with_reducible first
      | assumption | apply State.setBit_grows | apply State.setFld_grows
    | intro _
    | split
    | dsimp only

theorem State.markOk_grows {s0 : State} {s : State} (k : _) (hs : Grows s0 s) :
    Grows s0 (State.markOk s k) := by
  unfold State.markOk; try dsimp only
  repeat' first
    | with_reducible first
      | assumption | apply State.clrBit_grows | apply State.setFld_grows | apply State.updPlot_grows
    | intro _
    | split
    | dsimp only

theorem State.stopPlotWork_grows {s0 : State} {s : State} (k : _) (hs : Grows s0 s) :
    Grows s0 (State.stopPlotWork s k) := by
  unfold State.stopPlotWork; try dsimp only
  repeat' first
    | with_reducible first
      | assumption | apply Grows.foldl | apply Grows.foldl1 | apply Grows.foldlDev | apply Grows.foldlMv
      | apply Grows.foldlDn | apply State.clearArr_grows | apply State.clearChan_grows
      | apply State.norFence_grows | apply State.updPlot_grows
    | intro _
    | split
    | dsimp only

theorem State.holdPlot_grows {s0 : State} {s : State} (k : _) (cause : _) (hs : Grows s0 s) :
    Grows s0 (State.holdPlot s k cause) := by
  unfold State.holdPlot; try dsimp only
  repeat' first
    | with_reducible first
      | assumption | apply State.setBit_grows
    | intro _
    | split
    | dsimp only

theorem State.failPlot_grows {s0 : State} {s : State} (k : _) (cause : _) (hs : Grows s0 s) :
    Grows s0 (State.failPlot s k cause) := by
  unfold State.failPlot; try dsimp only
  repeat' first
    | with_reducible first
      | assumption | apply State.faultRuns_grows | apply State.fencePlot_grows | apply State.holdPlot_grows
      | apply State.markFailed_grows | apply State.propose_grows | apply State.report_grows
      | apply State.stopPlotWork_grows | apply State.updPlot_grows
    | intro _
    | split
    | dsimp only

theorem State.fenceSource_grows {s0 : State} {s : State} (m : _) (hs : Grows s0 s) :
    Grows s0 (State.fenceSource s m) := by
  unfold State.fenceSource; try dsimp only
  repeat' first
    | with_reducible first
      | assumption | apply State.inject_grows
    | intro _
    | split
    | dsimp only

theorem State.dropQueued_grows {s0 : State} {s : State} (die : _) (far : _) (hs : Grows s0 s) :
    Grows s0 (State.dropQueued s die far) := by
  unfold State.dropQueued; try dsimp only
  repeat' first
    | with_reducible first
      | assumption | apply Grows.foldl | apply Grows.foldl1 | apply Grows.foldlDev | apply Grows.foldlMv
      | apply Grows.foldlDn | apply State.fenceSource_grows
    | intro _
    | split
    | with_reducible apply Grows.lit
    | dsimp only

theorem State.dropFar_grows {s0 : State} {s : State} (die : _) (far : _) (abort : _) (hs : Grows s0 s) :
    Grows s0 (State.dropFar s die far abort) := by
  unfold State.dropFar; try dsimp only
  repeat' first
    | with_reducible first
      | assumption | apply Grows.foldl | apply Grows.foldl1 | apply Grows.foldlDev | apply Grows.foldlMv
      | apply Grows.foldlDn | apply State.count_grows | apply State.dropQueued_grows | apply State.setReqTab_grows
      | apply State.updChan_grows | apply State.updLink_grows
    | intro _
    | split
    | dsimp only

theorem State.setLink2_grows {s0 : State} {s : State} (die : _) (m : _) (x : _) (hs : Grows s0 s) :
    Grows s0 (State.setLink2 s die m x) := by
  unfold State.setLink2; try dsimp only
  repeat' first
    | with_reducible first
      | assumption | apply State.refreshRoute_grows | apply State.setFld_grows
    | intro _
    | split
    | dsimp only

theorem State.linksDown_grows {s0 : State} {s : State} (st : _) (abort : _) (hs : Grows s0 s) :
    Grows s0 (State.linksDown s st abort) := by
  unfold State.linksDown; try dsimp only
  repeat' first
    | with_reducible first
      | assumption | apply Grows.foldl | apply Grows.foldl1 | apply Grows.foldlDev | apply Grows.foldlMv
      | apply Grows.foldlDn | apply State.dropFar_grows | apply State.setLink2_grows
    | intro _
    | split
    | dsimp only

theorem State.linksUp_grows {s0 : State} {s : State} (st : _) (hs : Grows s0 s) :
    Grows s0 (State.linksUp s st) := by
  unfold State.linksUp; try dsimp only
  repeat' first
    | with_reducible first
      | assumption | apply Grows.foldl | apply Grows.foldl1 | apply Grows.foldlDev | apply Grows.foldlMv
      | apply Grows.foldlDn | apply State.setLink2_grows
    | intro _
    | split
    | dsimp only

theorem State.clearPlot_grows {s0 : State} {s : State} (k : _) (hs : Grows s0 s) :
    Grows s0 (State.clearPlot s k) := by
  unfold State.clearPlot; try dsimp only
  repeat' first
    | with_reducible first
      | assumption | apply Grows.foldl | apply Grows.foldl1 | apply Grows.foldlDev | apply Grows.foldlMv
      | apply Grows.foldlDn | apply State.clearChan_grows | apply State.norStopPlot_grows
      | apply State.resetPage_grows | apply State.setChan_grows | apply State.setCnt_grows
      | apply State.updPlot_grows
    | intro _
    | split
    | with_reducible apply Grows.lit
    | dsimp only

theorem State.clearHub_grows {s0 : State} {s : State} (st : _) (q : _) (hs : Grows s0 s) :
    Grows s0 (State.clearHub s st q) := by
  unfold State.clearHub; try dsimp only
  repeat' first
    | with_reducible first
      | assumption | apply State.resetPage_grows | apply State.setCnt_grows | apply State.setReg_grows
    | intro _
    | split
    | dsimp only

theorem State.noMicrocode_grows {s0 : State} {s : State} (st : _) (hs : Grows s0 s) :
    Grows s0 (State.noMicrocode s st) := by
  unfold State.noMicrocode; try dsimp only
  repeat' first
    | with_reducible first
      | assumption | apply Grows.foldl | apply Grows.foldl1 | apply Grows.foldlDev | apply Grows.foldlMv
      | apply Grows.foldlDn | apply State.setReg_grows
    | intro _
    | split
    | dsimp only

theorem State.clearStack_grows {s : State} (st : Nat) (h : Grows s0 s) : Grows s0 (s.clearStack st) := by
  have k := State.linksDown_grows (s := s) st true h
  unfold State.clearStack
  refine State.linksDown_grows _ _ (State.noMicrocode_grows _ (State.setStk_grows _ _ ?_))
  exact ⟨k.pending, fun m => Memory.wf_tkeep _ (fun a => a / 68719476736 != st) (k.mem m),
    fun m => twf_tkeep _ _ (keptStackReg st) (k.regs m), k.svn, k.revoked, k.free, k.seals, k.sealMax, k.wire⟩

theorem State.filledStack_grows {s0 : State} {s : State} (st : _) (hs : Grows s0 s) :
    Grows s0 (State.filledStack s st) := by
  unfold State.filledStack; try dsimp only
  repeat' first
    | with_reducible first
      | assumption | apply Grows.foldl | apply Grows.foldl1 | apply Grows.foldlDev | apply Grows.foldlMv
      | apply Grows.foldlDn | apply State.setReg_grows
    | intro _
    | split
    | dsimp only

theorem State.resetOwned_grows {s0 : State} {s : State} (page : _) (own : _) (hs : Grows s0 s) :
    Grows s0 (State.resetOwned s page own) := by
  unfold State.resetOwned; try dsimp only
  repeat' first
    | with_reducible first
      | assumption | apply State.resetPage_grows | apply State.setReg_grows
    | intro _
    | split
    | dsimp only

theorem State.clearOwned_grows {s0 : State} {s : State} (n : _) (hs : Grows s0 s) :
    Grows s0 (State.clearOwned s n) := by
  unfold State.clearOwned; try dsimp only
  repeat' first
    | with_reducible first
      | assumption | apply Grows.foldl | apply Grows.foldl1 | apply Grows.foldlDev | apply Grows.foldlMv
      | apply Grows.foldlDn | apply State.clearChan_grows | apply State.resetOwned_grows
      | apply State.resetPage_grows | apply State.setChan_grows | apply State.setEp_grows
      | apply State.setGrp_grows | apply State.setMed_grows
    | intro _
    | split
    | dsimp only

theorem State.resetRemap_grows {s0 : State} {s : State} (n : _) (hs : Grows s0 s) :
    Grows s0 (State.resetRemap s n) := by
  unfold State.resetRemap; try dsimp only
  repeat' first
    | with_reducible first
      | assumption | apply State.remapFail_grows | apply State.setRemapState_grows | apply State.updRemap_grows
    | intro _
    | split
    | dsimp only

theorem State.clearPartState_grows {s0 : State} {s : State} (n : _) (hs : Grows s0 s) :
    Grows s0 (State.clearPartState s n) := by
  unfold State.clearPartState; try dsimp only
  repeat' first
    | with_reducible first
      | assumption | apply Grows.foldl | apply Grows.foldl1 | apply Grows.foldlDev | apply Grows.foldlMv
      | apply Grows.foldlDn | apply State.abortCmds_grows | apply State.clearOwned_grows
      | apply State.resetPage_grows | apply State.resetRemap_grows | apply State.setErrf_grows
      | apply State.setFld_grows | apply State.setPart_grows | apply State.setRing_grows
      | apply State.setTdi_grows | apply State.updFunc_grows
    | intro _
    | split
    | with_reducible apply Grows.lit
    | dsimp only

theorem State.abortTests_grows {s0 : State} {s : State} (sel : _) (hs : Grows s0 s) :
    Grows s0 (State.abortTests s sel) := by
  unfold State.abortTests; try dsimp only
  repeat' first
    | with_reducible first
      | assumption | apply Grows.foldl | apply Grows.foldl1 | apply Grows.foldlDev | apply Grows.foldlMv
      | apply Grows.foldlDn | apply State.abortCmd_grows
    | intro _
    | split
    | with_reducible apply Grows.lit
    | dsimp only

theorem State.clearPart_grows {s0 : State} {s : State} (n : _) (hs : Grows s0 s) :
    Grows s0 (State.clearPart s n) := by
  unfold State.clearPart; try dsimp only
  repeat' first
    | with_reducible first
      | assumption | apply Grows.foldl | apply Grows.foldl1 | apply Grows.foldlDev | apply Grows.foldlMv
      | apply Grows.foldlDn | apply State.abortTests_grows | apply State.clearPartState_grows
      | apply State.clearStack_grows
    | intro _
    | split
    | with_reducible apply Grows.lit
    | dsimp only

theorem State.clearPkg_grows {s : State} (cold : Bool) (h : Grows s0 s) : Grows s0 (s.clearPkg cold) := by
  unfold State.clearPkg
  refine State.setFld_grows _ _ _ _ ?_
  exact ⟨h.pending, fun _ => rfl, fun m => twf_tkeep _ _ (fun a => !cold && decide (addrDie a < 16) && addrPage a == 0x148 &&
    decide (0x040 ≤ addrOff a) && decide (addrOff a < 0x060)) (h.regs m), h.svn, h.revoked, h.free, h.seals, h.sealMax, h.wire⟩

/-! ### Landing -/

theorem State.drawNonce_grows {s0 : State} {s : State} (hs : Grows s0 s) :
    Grows s0 (State.drawNonce s) := by
  unfold State.drawNonce; try dsimp only
  repeat' first
    | with_reducible first
      | assumption | apply Grows.foldl | apply Grows.foldl1 | apply Grows.foldlDev | apply Grows.foldlMv
      | apply Grows.foldlDn | apply State.drawn_grows | apply State.setReg_grows
    | intro _
    | split
    | dsimp only

theorem State.startBoot_grows {s0 : State} {s : State} (warm : _) (hs : Grows s0 s) :
    Grows s0 (State.startBoot s warm) := by
  unfold State.startBoot; try dsimp only
  repeat' first
    | with_reducible first
      | assumption | apply State.drawNonce_grows | apply State.send_grows | apply State.setFld_grows
      | apply State.setReg_grows
    | intro _
    | split
    | with_reducible apply Grows.lit
    | dsimp only

theorem hotResetNow_grows {s0 : State} {s : State} (hs : Grows s0 s) :
    Grows s0 (hotResetNow s) := by
  unfold hotResetNow; try dsimp only
  repeat' first
    | with_reducible first
      | assumption | apply State.clearPkg_grows | apply State.startBoot_grows
    | intro _
    | split
    | dsimp only

theorem execHotReset_grows {s0 : State} {s : State} (hs : Grows s0 s) :
    OutGrows s0 (execHotReset s) := by
  unfold execHotReset; try dsimp only
  repeat' first
    | with_reducible first
      | assumption | apply OutGrows.next | apply hotResetNow_grows
    | intro _
    | split
    | dsimp only

theorem linkRec_grows {s0 : State} (gen : _) (width : _) {s : State} (hs : Grows s0 s) :
    Grows s0 (linkRec gen width s) := by
  unfold linkRec; try dsimp only
  repeat' first
    | with_reducible first
      | assumption | apply State.addFld_grows | apply State.setFld_grows
    | intro _
    | split
    | dsimp only

theorem execLinkRecovery_grows {s0 : State} (gen : _) (width : _) {s : State} (hs : Grows s0 s) :
    OutGrows s0 (execLinkRecovery gen width s) := by
  unfold execLinkRecovery; try dsimp only
  repeat' first
    | with_reducible first
      | assumption | apply OutGrows.next | apply linkRec_grows
    | intro _
    | split
    | dsimp only

theorem State.resetCfg_grows {s0 : State} {s : State} (f : _) (hs : Grows s0 s) :
    Grows s0 (State.resetCfg s f) := by
  unfold State.resetCfg; try dsimp only
  repeat' first
    | with_reducible first
      | assumption
    | intro _
    | split
    | with_reducible apply Grows.lit
    | dsimp only

theorem execFlrVf_grows {s0 : State} (n : _) {s : State} (hs : Grows s0 s) :
    OutGrows s0 (execFlrVf n s) := by
  unfold execFlrVf; try dsimp only
  repeat' first
    | with_reducible first
      | assumption | apply OutGrows.next | apply State.resetCfg_grows | apply State.resetPart_grows
      | apply State.tdiError_grows
    | intro _
    | split
    | dsimp only

theorem flrPfNow_grows {s : State} (h : Grows s0 s) : Grows s0 (flrPfNow s) := by
  have k : Grows s0 ([0, 1, 2, 3].foldl (fun s g => (s.abortCmds g (fun _ => true) 0x21).setRing g {}) (s.resetCfg 0)) :=
    (State.resetCfg_grows 0 h).foldl fun u a hu => State.setRing_grows _ _ (State.abortCmds_grows _ _ _ hu)
  unfold flrPfNow
  generalize [0, 1, 2, 3].foldl (fun s g => (s.abortCmds g (fun _ => true) 0x21).setRing g {}) (s.resetCfg 0) = u at k
  refine State.updFunc_grows _ _ (State.setReg_grows _ _ (State.setErrf_grows _ _ (State.setReg_grows _ _ (State.setReg_grows _ _ ?_))))
  exact ⟨k.pending, k.mem, fun m => twf_tkeep _ _ (fun a => !(decide (lndReg 0x100 ≤ a) && decide (a < lndReg 0x200))) (k.regs m),
    k.svn, k.revoked, k.free, k.seals, k.sealMax, k.wire⟩

theorem execFlrPf_grows {s0 : State} {s : State} (hs : Grows s0 s) :
    OutGrows s0 (execFlrPf s) := by
  unfold execFlrPf; try dsimp only
  repeat' first
    | with_reducible first
      | assumption | apply OutGrows.next | apply flrPfNow_grows
    | intro _
    | split
    | dsimp only

theorem cfgServe_grows {s0 : State} (f : _) (write : _) (off : _) (v : _) {s : State} (hs : Grows s0 s) :
    Grows s0 (cfgServe f write off v s) := by
  unfold cfgServe; try dsimp only
  repeat' first
    | with_reducible first
      | assumption | apply Grows.foldl | apply Grows.foldl1 | apply Grows.foldlDev | apply Grows.foldlMv
      | apply Grows.foldlDn | apply State.answer_grows | apply State.send_grows | apply State.setBit_grows
    | intro _
    | split
    | with_reducible apply Grows.lit
    | dsimp only

theorem execConfigRequest_grows {s0 : State} (f : _) (write : _) (off : _) (v : _) {s : State} (hs : Grows s0 s) :
    OutGrows s0 (execConfigRequest f write off v s) := by
  unfold execConfigRequest; try dsimp only
  repeat' first
    | with_reducible first
      | assumption | apply OutGrows.next | apply State.send_grows | apply cfgServe_grows
    | intro _
    | split
    | with_reducible apply Grows.lit
    | dsimp only

theorem State.allOnes_grows {s0 : State} {s : State} (f : _) (len : _) (hs : Grows s0 s) :
    Grows s0 (State.allOnes s f len) := by
  unfold State.allOnes; try dsimp only
  repeat' first
    | with_reducible first
      | assumption | apply State.answer_grows | apply State.send_grows
    | intro _
    | split
    | dsimp only

theorem State.unsupported_grows {s0 : State} {s : State} (f : _) (hs : Grows s0 s) :
    Grows s0 (State.unsupported s f) := by
  unfold State.unsupported; try dsimp only
  repeat' first
    | with_reducible first
      | assumption | apply State.send_grows
    | intro _
    | split
    | with_reducible apply Grows.lit
    | dsimp only

theorem State.lndCount_grows {s0 : State} {s : State} (i : _) (hs : Grows s0 s) :
    Grows s0 (State.lndCount s i) := by
  unfold State.lndCount; try dsimp only
  repeat' first
    | with_reducible first
      | assumption
    | intro _
    | split
    | with_reducible apply Grows.lit
    | dsimp only

theorem State.dropPosted_grows {s0 : State} {s : State} (hs : Grows s0 s) :
    Grows s0 (State.dropPosted s) := by
  unfold State.dropPosted; try dsimp only
  repeat' first
    | with_reducible first
      | assumption
    | intro _
    | split
    | with_reducible apply Grows.lit
    | dsimp only

theorem State.completerAbort_grows {s0 : State} {s : State} (f : _) (hs : Grows s0 s) :
    Grows s0 (State.completerAbort s f) := by
  unfold State.completerAbort; try dsimp only
  repeat' first
    | with_reducible first
      | assumption | apply State.send_grows
    | intro _
    | split
    | with_reducible apply Grows.lit
    | dsimp only

theorem bar2_grows {s0 : State} (f : _) (write : _) (off : _) (len : _) (data : _) (ep : _) {s : State} (hs : Grows s0 s) :
    Grows s0 (bar2 f write off len data ep s) := by
  unfold bar2; try dsimp only
  repeat' first
    | with_reducible first
      | assumption | apply State.allOnes_grows | apply State.devRead_grows | apply State.devWrite_grows
      | apply State.lndCount_grows | apply State.send_grows | apply State.setBit_grows
    | intro _
    | split
    | with_reducible apply Grows.lit
    | dsimp only

theorem execBar2Access_grows {s0 : State} (f : _) (write : _) (off : _) (len : _) (data : _) (ep : _) (tbit : _) {s : State} (hs : Grows s0 s) :
    OutGrows s0 (execBar2Access f write off len data ep tbit s) := by
  unfold execBar2Access; try dsimp only
  repeat' first
    | with_reducible first
      | assumption | apply OutGrows.next | apply State.allOnes_grows | apply State.completerAbort_grows
      | apply State.dropPosted_grows | apply State.unsupported_grows | apply bar2_grows
    | intro _
    | split
    | dsimp only

theorem State.atomicRefused_grows {s0 : State} {s : State} (f : _) (hs : Grows s0 s) :
    Grows s0 (State.atomicRefused s f) := by
  unfold State.atomicRefused; try dsimp only
  repeat' first
    | with_reducible first
      | assumption | apply State.setBit_grows | apply State.unsupported_grows
    | intro _
    | split
    | dsimp only

theorem atomic_grows {s0 : State} (f : _) (bar : _) (op : _) (off : _) (x : _) (y : _) {s : State} (hs : Grows s0 s) :
    Grows s0 (atomic f bar op off x y s) := by
  unfold atomic; try dsimp only
  repeat' first
    | with_reducible first
      | assumption | apply State.atomicRefused_grows | apply State.devWeir_grows | apply State.send_grows
    | intro _
    | split
    | with_reducible apply Grows.lit
    | dsimp only

theorem execAtomicOp_grows {s0 : State} (f : _) (bar : _) (op : _) (off : _) (operand : _) (compare : _) (tbit : _) {s : State} (hs : Grows s0 s) :
    OutGrows s0 (execAtomicOp f bar op off operand compare tbit s) := by
  unfold execAtomicOp; try dsimp only
  repeat' first
    | with_reducible first
      | assumption | apply OutGrows.next | apply State.completerAbort_grows | apply State.unsupported_grows
      | apply atomic_grows
    | intro _
    | split
    | dsimp only

theorem sqBell_grows {s0 : State} (g : _) (v : _) {s : State} (hs : Grows s0 s) :
    Grows s0 (sqBell g v s) := by
  unfold sqBell; try dsimp only
  repeat' first
    | with_reducible first
      | assumption | apply State.setBit_grows | apply State.updRing_grows
    | intro _
    | split
    | dsimp only

theorem execSqDoorbell_grows {s0 : State} (g : _) (v : _) (tbit : _) {s : State} (hs : Grows s0 s) :
    OutGrows s0 (execSqDoorbell g v tbit s) := by
  unfold execSqDoorbell; try dsimp only
  repeat' first
    | with_reducible first
      | assumption | apply OutGrows.next | apply State.dropPosted_grows | apply sqBell_grows
    | intro _
    | split
    | dsimp only

theorem cqBell_grows {s0 : State} (g : _) (v : _) {s : State} (hs : Grows s0 s) :
    Grows s0 (cqBell g v s) := by
  unfold cqBell; try dsimp only
  repeat' first
    | with_reducible first
      | assumption | apply State.releaseCpls_grows | apply State.setBit_grows | apply State.updRing_grows
    | intro _
    | split
    | dsimp only

theorem execCqDoorbell_grows {s0 : State} (g : _) (v : _) (tbit : _) {s : State} (hs : Grows s0 s) :
    OutGrows s0 (execCqDoorbell g v tbit s) := by
  unfold execCqDoorbell; try dsimp only
  repeat' first
    | with_reducible first
      | assumption | apply OutGrows.next | apply State.dropPosted_grows | apply cqBell_grows
    | intro _
    | split
    | dsimp only

theorem fetch_grows {s0 : State} (g : _) {s : State} (hs : Grows s0 s) :
    Grows s0 (fetch g s) := by
  unfold fetch; try dsimp only
  repeat' first
    | with_reducible first
      | assumption | apply State.updFunc_grows
    | intro _
    | split
    | dsimp only

theorem execSqFetch_grows {s0 : State} (g : _) {s : State} (hs : Grows s0 s) :
    OutGrows s0 (execSqFetch g s) := by
  unfold execSqFetch; try dsimp only
  repeat' first
    | with_reducible first
      | assumption | apply OutGrows.next | apply fetch_grows
    | intro _
    | split
    | dsimp only

theorem State.takeEntries_grows {s0 : State} {s : State} (g : _) (data : _) (hs : Grows s0 s) :
    Grows s0 (State.takeEntries s g data) := by
  unfold State.takeEntries; try dsimp only
  repeat' first
    | with_reducible first
      | assumption | apply State.setRing_grows | apply State.updFunc_grows
    | intro _
    | split
    | dsimp only

theorem State.copyIn_grows {s0 : State} {s : State} (g : _) (c : _) (r : _) (data : _) (left : _) (moved : _) (hs : Grows s0 s) :
    Grows s0 (State.copyIn s g c r data left moved) := by
  unfold State.copyIn; try dsimp only
  repeat' first
    | with_reducible first
      | assumption | apply State.devWrite_grows | apply State.finishCmd_grows | apply State.updCmd_grows
      | apply State.updFunc_grows
    | intro _
    | split
    | dsimp only

theorem State.dropRead_grows {s0 : State} {s : State} (f : _) (i : _) (hs : Grows s0 s) :
    Grows s0 (State.dropRead s f i) := by
  unfold State.dropRead; try dsimp only
  repeat' first
    | with_reducible first
      | assumption | apply State.updFunc_grows
    | intro _
    | split
    | dsimp only

theorem State.readFailed_grows {s0 : State} {s : State} (f : _) (i : _) (r : _) (hs : Grows s0 s) :
    Grows s0 (State.readFailed s f i r) := by
  unfold State.readFailed; try dsimp only
  repeat' first
    | with_reducible first
      | assumption | apply State.dropRead_grows | apply State.finishCmd_grows | apply State.setBit_grows
      | apply State.updRing_grows
    | intro _
    | split
    | dsimp only

theorem readDone_grows {s0 : State} (f : _) (i : _) (r : _) (data : _) {s : State} (hs : Grows s0 s) :
    Grows s0 (readDone f i r data s) := by
  unfold readDone; try dsimp only
  repeat' first
    | with_reducible first
      | assumption | apply State.copyIn_grows | apply State.dropRead_grows | apply State.takeEntries_grows
    | intro _
    | split
    | dsimp only

theorem hostReadDone_grows {s0 : State} (f : _) (i : _) (ok : _) (data : _) {s : State} (hs : Grows s0 s) :
    Grows s0 (hostReadDone f i ok data s) := by
  unfold hostReadDone; try dsimp only
  repeat' first
    | with_reducible first
      | assumption | apply State.readFailed_grows | apply readDone_grows
    | intro _
    | split
    | dsimp only

theorem execHostReadCompletion_grows {s0 : State} (f : _) (i : _) (ok : _) (data : _) {s : State} (hs : Grows s0 s) :
    OutGrows s0 (execHostReadCompletion f i ok data s) := by
  unfold execHostReadCompletion; try dsimp only
  repeat' first
    | with_reducible first
      | assumption | apply OutGrows.next | apply hostReadDone_grows
    | intro _
    | split
    | with_reducible apply Grows.lit
    | dsimp only

theorem execCompletionTimeout_grows {s0 : State} (f : _) (i : _) {s : State} (hs : Grows s0 s) :
    OutGrows s0 (execCompletionTimeout f i s) := by
  unfold execCompletionTimeout; try dsimp only
  repeat' first
    | with_reducible first
      | assumption | apply OutGrows.next | apply State.lndCount_grows | apply State.readFailed_grows
    | intro _
    | split
    | dsimp only

/-! ### RingCmd -/

theorem State.popCmd_grows {s0 : State} {s : State} (g : _) (hs : Grows s0 s) :
    Grows s0 (State.popCmd s g) := by
  unfold State.popCmd; try dsimp only
  repeat' first
    | with_reducible first
      | assumption | apply State.updRing_grows
    | intro _
    | split
    | dsimp only

theorem State.instant_grows {s0 : State} {s : State} (g : _) (c : _) (status : _) (value : _) (hs : Grows s0 s) :
    Grows s0 (State.instant s g c status value) := by
  unfold State.instant; try dsimp only
  repeat' first
    | with_reducible first
      | assumption | apply State.endCmd_grows | apply State.popCmd_grows
    | intro _
    | split
    | dsimp only

theorem State.runCmd_grows {s0 : State} {s : State} (g : _) (c : _) (st : _) (hs : Grows s0 s) :
    Grows s0 (State.runCmd s g c st) := by
  unfold State.runCmd; try dsimp only
  repeat' first
    | with_reducible first
      | assumption | apply State.popCmd_grows | apply State.updRing_grows
    | intro _
    | split
    | dsimp only

theorem startCmd_grows {s0 : State} (g : _) (sel : _) (k : _) {s : State} (hk : ∀ c u, Grows s0 u → Grows s0 (k c u)) (hs : Grows s0 s) :
    Grows s0 (startCmd g sel k s) := by
  unfold startCmd; try dsimp only
  repeat' first
    | with_reducible first
      | assumption | apply hk | apply State.instant_grows
    | intro _
    | split
    | dsimp only

theorem execReservedOpcode_grows {s0 : State} (g : _) {s : State} (hs : Grows s0 s) :
    OutGrows s0 (execReservedOpcode g s) := by
  unfold execReservedOpcode; try dsimp only
  repeat' first
    | with_reducible first
      | assumption | apply OutGrows.next | apply startCmd_grows
    | intro _
    | split
    | dsimp only

theorem State.hostDma_grows {s0 : State} {s : State} (g : _) (c : _) (hs : Grows s0 s) :
    Grows s0 (State.hostDma s g c) := by
  unfold State.hostDma; try dsimp only
  repeat' first
    | with_reducible first
      | assumption | apply State.instant_grows | apply State.setBit_grows
    | intro _
    | split
    | dsimp only

theorem State.feedChans_grows {s0 : State} {s : State} (g : _) (c : _) (cs : _) (todo : _) (hs : Grows s0 s) :
    Grows s0 (State.feedChans s g c cs todo) := by
  unfold State.feedChans; try dsimp only
  repeat' first
    | with_reducible first
      | assumption | apply Grows.foldl | apply Grows.foldl1 | apply Grows.foldlDev | apply Grows.foldlMv
      | apply Grows.foldlDn | apply State.iodNext_grows | apply State.refillChan_grows | apply State.runCmd_grows
    | intro _
    | split
    | dsimp only

theorem copyOut_grows {s0 : State} {s : State} (f : _) (src : _) (host : _) (ps : _) (hs : Grows s0 s) :
    Grows s0 (copyOut s f src host ps).1 := by
  unfold copyOut; try dsimp only
  repeat' first
    | with_reducible first
      | assumption | apply Grows.foldl | apply Grows.foldl1 | apply Grows.foldlDev | apply Grows.foldlMv
      | apply Grows.foldlDn | apply State.devRead_grows | apply State.send_grows
    | intro _
    | split
    | dsimp only

theorem copyCmd_grows {s0 : State} (g : _) (c : _) {s : State} (hs : Grows s0 s) :
    Grows s0 (copyCmd g c s) := by
  unfold copyCmd; try dsimp only
  repeat' first
    | with_reducible first
      | assumption | apply State.feedChans_grows | apply State.instant_grows | apply State.runCmd_grows
      | apply State.updFunc_grows | apply copyOut_grows
    | intro _
    | split
    | dsimp only

theorem execCopy_grows {s0 : State} (g : _) {s : State} (hs : Grows s0 s) :
    OutGrows s0 (execCopy g s) := by
  unfold execCopy; try dsimp only
  repeat' first
    | with_reducible first
      | assumption | apply OutGrows.next | apply copyCmd_grows | apply startCmd_grows
    | intro _
    | split
    | dsimp only

theorem fillCmd_grows {s0 : State} (g : _) (c : _) {s : State} (hs : Grows s0 s) :
    Grows s0 (fillCmd g c s) := by
  unfold fillCmd; try dsimp only
  repeat' first
    | with_reducible first
      | assumption | apply State.feedChans_grows | apply State.instant_grows
    | intro _
    | split
    | dsimp only

theorem execFill_grows {s0 : State} (g : _) {s : State} (hs : Grows s0 s) :
    OutGrows s0 (execFill g s) := by
  unfold execFill; try dsimp only
  repeat' first
    | with_reducible first
      | assumption | apply OutGrows.next | apply fillCmd_grows | apply startCmd_grows
    | intro _
    | split
    | dsimp only

theorem State.startNoriaOp_grows {s0 : State} {s : State} (g : _) (c : _) (list : _) (hs : Grows s0 s) :
    Grows s0 (State.startNoriaOp s g c list) := by
  unfold State.startNoriaOp; try dsimp only
  repeat' first
    | with_reducible first
      | assumption | apply State.refillWin_grows | apply State.runCmd_grows
    | intro _
    | split
    | dsimp only

theorem noriaOpCmd_grows {s0 : State} (list : _) (g : _) (c : _) {s : State} (hs : Grows s0 s) :
    Grows s0 (noriaOpCmd list g c s) := by
  unfold noriaOpCmd; try dsimp only
  repeat' first
    | with_reducible first
      | assumption | apply State.devRead_grows | apply State.hostDma_grows | apply State.instant_grows
      | apply State.startNoriaOp_grows
    | intro _
    | split
    | dsimp only

theorem execNoriaOp_grows {s0 : State} (g : _) (list : _) {s : State} (hs : Grows s0 s) :
    OutGrows s0 (execNoriaOp g list s) := by
  unfold execNoriaOp; try dsimp only
  repeat' first
    | with_reducible first
      | assumption | apply OutGrows.next | apply noriaOpCmd_grows | apply startCmd_grows
    | intro _
    | split
    | dsimp only

theorem fenceCmd_grows {s0 : State} (g : _) (c : _) {s : State} (hs : Grows s0 s) :
    Grows s0 (fenceCmd g c s) := by
  unfold fenceCmd; try dsimp only
  repeat' first
    | with_reducible first
      | assumption | apply State.instant_grows | apply State.runCmd_grows
    | intro _
    | split
    | dsimp only

theorem execFence_grows {s0 : State} (g : _) {s : State} (hs : Grows s0 s) :
    OutGrows s0 (execFence g s) := by
  unfold execFence; try dsimp only
  repeat' first
    | with_reducible first
      | assumption | apply OutGrows.next | apply fenceCmd_grows | apply startCmd_grows
    | intro _
    | split
    | dsimp only

theorem signalCmd_grows {s0 : State} (g : _) (c : _) {s : State} (hs : Grows s0 s) :
    Grows s0 (signalCmd g c s) := by
  unfold signalCmd; try dsimp only
  repeat' first
    | with_reducible first
      | assumption | apply State.devWeir_grows | apply State.inject_grows | apply State.instant_grows
    | intro _
    | split
    | dsimp only

theorem execSignal_grows {s0 : State} (g : _) {s : State} (hs : Grows s0 s) :
    OutGrows s0 (execSignal g s) := by
  unfold execSignal; try dsimp only
  repeat' first
    | with_reducible first
      | assumption | apply OutGrows.next | apply signalCmd_grows | apply startCmd_grows
    | intro _
    | split
    | dsimp only

theorem waitCmd_grows {s0 : State} (g : _) (c : _) {s : State} (hs : Grows s0 s) :
    Grows s0 (waitCmd g c s) := by
  unfold waitCmd; try dsimp only
  repeat' first
    | with_reducible first
      | assumption | apply State.instant_grows | apply State.runCmd_grows
    | intro _
    | split
    | dsimp only

theorem execWait_grows {s0 : State} (g : _) {s : State} (hs : Grows s0 s) :
    OutGrows s0 (execWait g s) := by
  unfold execWait; try dsimp only
  repeat' first
    | with_reducible first
      | assumption | apply OutGrows.next | apply startCmd_grows | apply waitCmd_grows
    | intro _
    | split
    | dsimp only

theorem pollWait_grows {s0 : State} (g : _) (c : _) {s : State} (hs : Grows s0 s) :
    Grows s0 (pollWait g c s) := by
  unfold pollWait; try dsimp only
  repeat' first
    | with_reducible first
      | assumption | apply State.devRead_grows | apply State.finishCmd_grows
    | intro _
    | split
    | dsimp only

theorem execWaitPoll_grows {s0 : State} (g : _) {s : State} (hs : Grows s0 s) :
    OutGrows s0 (execWaitPoll g s) := by
  unfold execWaitPoll; try dsimp only
  repeat' first
    | with_reducible first
      | assumption | apply OutGrows.next | apply pollWait_grows
    | intro _
    | split
    | dsimp only

theorem timeoutWait_grows {s0 : State} (g : _) (c : _) {s : State} (hs : Grows s0 s) :
    Grows s0 (timeoutWait g c s) := by
  unfold timeoutWait; try dsimp only
  repeat' first
    | with_reducible first
      | assumption | apply State.devRead_grows | apply State.drawn_grows | apply State.finishCmd_grows
    | intro _
    | split
    | dsimp only

theorem execWaitTimeout_grows {s0 : State} (g : _) {s : State} (hs : Grows s0 s) :
    OutGrows s0 (execWaitTimeout g s) := by
  unfold execWaitTimeout; try dsimp only
  repeat' first
    | with_reducible first
      | assumption | apply OutGrows.next | apply timeoutWait_grows
    | intro _
    | split
    | dsimp only

theorem State.writeHost_grows {s0 : State} {s : State} (f : _) (host : _) (data : _) (hs : Grows s0 s) :
    Grows s0 (State.writeHost s f host data) := by
  unfold State.writeHost; try dsimp only
  repeat' first
    | with_reducible first
      | assumption | apply Grows.foldl | apply Grows.foldl1 | apply Grows.foldlDev | apply Grows.foldlMv
      | apply Grows.foldlDn | apply State.send_grows
    | intro _
    | split
    | dsimp only

theorem State.queryDone_grows {s0 : State} {s : State} (g : _) (c : _) (data : _) (hs : Grows s0 s) :
    Grows s0 (State.queryDone s g c data) := by
  unfold State.queryDone; try dsimp only
  repeat' first
    | with_reducible first
      | assumption | apply State.instant_grows | apply State.writeHost_grows
    | intro _
    | split
    | dsimp only

theorem counterQuery_grows {s0 : State} (g : _) (k : _) (c : _) {s : State} (hs : Grows s0 s) :
    Grows s0 (counterQuery g k c s) := by
  unfold counterQuery; try dsimp only
  repeat' first
    | with_reducible first
      | assumption | apply State.cntSwitch_grows | apply State.queryDone_grows
    | intro _
    | split
    | dsimp only

theorem queryCmd_grows {s0 : State} (g : _) (c : _) {s : State} (hs : Grows s0 s) :
    Grows s0 (queryCmd g c s) := by
  unfold queryCmd; try dsimp only
  repeat' first
    | with_reducible first
      | assumption | apply State.instant_grows | apply State.queryDone_grows | apply counterQuery_grows
    | intro _
    | split
    | dsimp only

theorem execQuery_grows {s0 : State} (g : _) {s : State} (hs : Grows s0 s) :
    OutGrows s0 (execQuery g s) := by
  unfold execQuery; try dsimp only
  repeat' first
    | with_reducible first
      | assumption | apply OutGrows.next | apply queryCmd_grows | apply startCmd_grows
    | intro _
    | split
    | dsimp only

theorem selftestCmd_grows {s0 : State} (g : _) (c : _) {s : State} (hs : Grows s0 s) :
    Grows s0 (selftestCmd g c s) := by
  unfold selftestCmd; try dsimp only
  repeat' first
    | with_reducible first
      | assumption | apply State.instant_grows | apply State.runCmd_grows
    | intro _
    | split
    | with_reducible apply Grows.lit
    | dsimp only

theorem execSelftest_grows {s0 : State} (g : _) {s : State} (hs : Grows s0 s) :
    OutGrows s0 (execSelftest g s) := by
  unfold execSelftest; try dsimp only
  repeat' first
    | with_reducible first
      | assumption | apply OutGrows.next | apply selftestCmd_grows | apply startCmd_grows
    | intro _
    | split
    | dsimp only

theorem spareInCmd_grows {s0 : State} (g : _) (c : _) {s : State} (hs : Grows s0 s) :
    Grows s0 (spareInCmd g c s) := by
  unfold spareInCmd; try dsimp only
  repeat' first
    | with_reducible first
      | assumption | apply State.instant_grows | apply State.runCmd_grows
    | intro _
    | split
    | with_reducible apply Grows.lit
    | dsimp only

theorem execSpareIn_grows {s0 : State} (g : _) {s : State} (hs : Grows s0 s) :
    OutGrows s0 (execSpareIn g s) := by
  unfold execSpareIn; try dsimp only
  repeat' first
    | with_reducible first
      | assumption | apply OutGrows.next | apply spareInCmd_grows | apply startCmd_grows
    | intro _
    | split
    | dsimp only

/-! ### Graph -/

theorem State.reopen_grows {s0 : State} {s : State} (e : _) (hs : Grows s0 s) :
    Grows s0 (State.reopen s e) := by
  unfold State.reopen; try dsimp only
  repeat' first
    | with_reducible first
      | assumption | apply State.setReg_grows | apply State.updPlot_grows
    | intro _
    | split
    | dsimp only

theorem State.writeStream_grows {s0 : State} {s : State} (e : _) (hs : Grows s0 s) :
    Grows s0 (State.writeStream s e) := by
  unfold State.writeStream; try dsimp only
  repeat' first
    | with_reducible first
      | assumption | apply Grows.foldl | apply Grows.foldl1 | apply Grows.foldlDev | apply Grows.foldlMv
      | apply Grows.foldlDn | apply State.reopen_grows | apply State.setReg_grows
    | intro _
    | split
    | dsimp only

theorem State.installGraph_grows {s0 : State} {s : State} (n : _) (sl : _) (l : _) (hs : Grows s0 s) :
    Grows s0 (State.installGraph s n sl l) := by
  unfold State.installGraph; try dsimp only
  repeat' first
    | with_reducible first
      | assumption | apply Grows.foldl | apply Grows.foldl1 | apply Grows.foldlDev | apply Grows.foldlMv
      | apply Grows.foldlDn | apply State.updPlot_grows | apply State.updSlot_grows
      | apply State.writeStream_grows
    | intro _
    | split
    | with_reducible apply Grows.lit
    | dsimp only

theorem loadImage_grows {s0 : State} (g : _) (c : _) (l : _) {s : State} (hs : Grows s0 s) :
    Grows s0 (loadImage g c l s) := by
  unfold loadImage; try dsimp only
  repeat' first
    | with_reducible first
      | assumption | apply State.installGraph_grows | apply State.instant_grows
    | intro _
    | split
    | dsimp only

theorem State.unloadSlot_grows {s0 : State} {s : State} (n : _) (sl : _) (hs : Grows s0 s) :
    Grows s0 (State.unloadSlot s n sl) := by
  unfold State.unloadSlot; try dsimp only
  repeat' first
    | with_reducible first
      | assumption | apply State.updSlot_grows
    | intro _
    | split
    | with_reducible apply Grows.lit
    | dsimp only

theorem loadGraphCmd_grows {s0 : State} (image : _) (g : _) (c : _) {s : State} (hs : Grows s0 s) :
    Grows s0 (loadGraphCmd image g c s) := by
  unfold loadGraphCmd; try dsimp only
  repeat' first
    | with_reducible first
      | assumption | apply State.devRead_grows | apply State.hostDma_grows | apply State.instant_grows
      | apply State.unloadSlot_grows | apply loadImage_grows
    | intro _
    | split
    | dsimp only

theorem execLoadGraph_grows {s0 : State} (g : _) (image : _) {s : State} (hs : Grows s0 s) :
    OutGrows s0 (execLoadGraph g image s) := by
  unfold execLoadGraph; try dsimp only
  repeat' first
    | with_reducible first
      | assumption | apply OutGrows.next | apply loadGraphCmd_grows | apply startCmd_grows
    | intro _
    | split
    | dsimp only

theorem State.releasePlot_grows {s0 : State} {s : State} (k : _) (args : _) (tag : _) (hs : Grows s0 s) :
    Grows s0 (State.releasePlot s k args tag) := by
  unfold State.releasePlot; try dsimp only
  repeat' first
    | with_reducible first
      | assumption | apply Grows.foldl | apply Grows.foldl1 | apply Grows.foldlDev | apply Grows.foldlMv
      | apply Grows.foldlDn | apply State.cntSwitch_grows | apply State.setFld_grows | apply State.updPlot_grows
    | intro _
    | split
    | dsimp only

theorem State.startRun_grows {s0 : State} {s : State} (g : _) (c : _) (n : _) (sl : _) (hs : Grows s0 s) :
    Grows s0 (State.startRun s g c n sl) := by
  unfold State.startRun; try dsimp only
  repeat' first
    | with_reducible first
      | assumption | apply Grows.foldl | apply Grows.foldl1 | apply Grows.foldlDev | apply Grows.foldlMv
      | apply Grows.foldlDn | apply State.faultRun_grows | apply State.releasePlot_grows
      | apply State.runCmd_grows | apply State.updSlot_grows | apply State.writeStream_grows
    | intro _
    | split
    | dsimp only

theorem runGraphCmd_grows {s0 : State} (g : _) (c : _) {s : State} (hs : Grows s0 s) :
    Grows s0 (runGraphCmd g c s) := by
  unfold runGraphCmd; try dsimp only
  repeat' first
    | with_reducible first
      | assumption | apply State.instant_grows | apply State.startRun_grows
    | intro _
    | split
    | dsimp only

theorem execRunGraph_grows {s0 : State} (g : _) {s : State} (hs : Grows s0 s) :
    OutGrows s0 (execRunGraph g s) := by
  unfold execRunGraph; try dsimp only
  repeat' first
    | with_reducible first
      | assumption | apply OutGrows.next | apply runGraphCmd_grows | apply startCmd_grows
    | intro _
    | split
    | dsimp only

theorem endPart_grows {s0 : State} (k : _) {s : State} (hs : Grows s0 s) :
    Grows s0 (endPart k s) := by
  unfold endPart; try dsimp only
  repeat' first
    | with_reducible first
      | assumption | apply State.partEnded_grows | apply State.updPlot_grows
    | intro _
    | split
    | dsimp only

theorem execPlotPartEnd_grows {s0 : State} (p : _) {s : State} (hs : Grows s0 s) :
    OutGrows s0 (execPlotPartEnd p s) := by
  unfold execPlotPartEnd; try dsimp only
  repeat' first
    | with_reducible first
      | assumption | apply OutGrows.next | apply endPart_grows
    | intro _
    | split
    | dsimp only

theorem execRunTimeout_grows {s0 : State} (n : _) (slot : _) {s : State} (hs : Grows s0 s) :
    OutGrows s0 (execRunTimeout n slot s) := by
  unfold execRunTimeout; try dsimp only
  repeat' first
    | with_reducible first
      | assumption | apply OutGrows.next | apply State.answerRun_grows
    | intro _
    | split
    | dsimp only

/-! ### StopOps -/

theorem State.queueStopped_grows {s0 : State} {s : State} (k : _) (q : _) (hs : Grows s0 s) :
    Grows s0 (State.queueStopped s k q) := by
  unfold State.queueStopped; try dsimp only
  repeat' first
    | with_reducible first
      | assumption | apply State.updQueue_grows
    | intro _
    | split
    | dsimp only

theorem State.writeVecs_grows {s0 : State} {s : State} (k : _) (hs : Grows s0 s) :
    Grows s0 (State.writeVecs s k) := by
  unfold State.writeVecs; try dsimp only
  repeat' first
    | with_reducible first
      | assumption | apply Grows.foldl | apply Grows.foldl1 | apply Grows.foldlDev | apply Grows.foldlMv
      | apply Grows.foldlDn | apply accWrite_grows
    | intro _
    | split
    | dsimp only

theorem State.expireArr_grows {s0 : State} {s : State} (k : _) (hs : Grows s0 s) :
    Grows s0 (State.expireArr s k) := by
  unfold State.expireArr; try dsimp only
  repeat' first
    | with_reducible first
      | assumption | apply Grows.foldl | apply Grows.foldl1 | apply Grows.foldlDev | apply Grows.foldlMv
      | apply Grows.foldlDn | apply State.clearArr_grows | apply State.complete_grows
      | apply State.writeVecs_grows
    | intro _
    | split
    | dsimp only

theorem State.expireVec_grows {s0 : State} {s : State} (k : _) (hs : Grows s0 s) :
    Grows s0 (State.expireVec s k) := by
  unfold State.expireVec; try dsimp only
  repeat' first
    | with_reducible first
      | assumption | apply State.complete_grows | apply State.updPlot_grows
    | intro _
    | split
    | dsimp only

theorem State.expireDesc_grows {s0 : State} {s : State} (c : _) (hs : Grows s0 s) :
    Grows s0 (State.expireDesc s c) := by
  unfold State.expireDesc; try dsimp only
  repeat' first
    | with_reducible first
      | assumption | apply State.endDesc_grows | apply State.setBit_grows
    | intro _
    | split
    | dsimp only

theorem State.expireQueue_grows {s0 : State} {s : State} (k : _) (q : _) (hs : Grows s0 s) :
    Grows s0 (State.expireQueue s k q) := by
  unfold State.expireQueue; try dsimp only
  repeat' first
    | with_reducible first
      | assumption | apply Grows.foldl | apply Grows.foldl1 | apply Grows.foldlDev | apply Grows.foldlMv
      | apply Grows.foldlDn | apply State.expireArr_grows | apply State.expireDesc_grows
      | apply State.expireVec_grows | apply State.norStopPlot_grows | apply State.queueStopped_grows
    | intro _
    | split
    | dsimp only

theorem queueStop_grows {s0 : State} (k : _) (q : _) {s : State} (hs : Grows s0 s) :
    Grows s0 (queueStop k q s) := by
  unfold queueStop; try dsimp only
  repeat' first
    | with_reducible first
      | assumption | apply State.expireQueue_grows | apply queueClrEn_grows
    | intro _
    | split
    | dsimp only

theorem execPqClrEn_grows {s0 : State} (r : _) (p : _) (q : _) {s : State} (hs : Grows s0 s) :
    OutGrows s0 (execPqClrEn r p q s) := by
  unfold execPqClrEn; try dsimp only
  repeat' first
    | with_reducible first
      | assumption | apply OutGrows.next | apply State.access_grows | apply queueStop_grows
    | intro _
    | split
    | dsimp only

theorem State.chanStopped_grows {s0 : State} {s : State} (c : _) (hs : Grows s0 s) :
    Grows s0 (State.chanStopped s c) := by
  unfold State.chanStopped; try dsimp only
  repeat' first
    | with_reducible first
      | assumption | apply State.setChan_grows
    | intro _
    | split
    | dsimp only

theorem State.expireChan_grows {s0 : State} {s : State} (c : _) (hs : Grows s0 s) :
    Grows s0 (State.expireChan s c) := by
  unfold State.expireChan; try dsimp only
  repeat' first
    | with_reducible first
      | assumption | apply State.chanStopped_grows | apply State.expireDesc_grows
    | intro _
    | split
    | dsimp only

theorem State.discardQueue_grows {s0 : State} {s : State} (c : _) (hs : Grows s0 s) :
    Grows s0 (State.discardQueue s c) := by
  unfold State.discardQueue; try dsimp only
  repeat' first
    | with_reducible first
      | assumption | apply Grows.foldl | apply Grows.foldl1 | apply Grows.foldlDev | apply Grows.foldlMv
      | apply Grows.foldlDn | apply State.iodEnd_grows | apply State.setBit_grows | apply State.updChan_grows
    | intro _
    | split
    | dsimp only

theorem chanSetEn_grows {s0 : State} (c : _) {s : State} (hs : Grows s0 s) :
    Grows s0 (chanSetEn c s) := by
  unfold chanSetEn; try dsimp only
  repeat' first
    | with_reducible first
      | assumption | apply State.setBit_grows | apply State.updChan_grows
    | intro _
    | split
    | dsimp only

theorem chanClrEn_grows {s0 : State} (c : _) {s : State} (hs : Grows s0 s) :
    Grows s0 (chanClrEn c s) := by
  unfold chanClrEn; try dsimp only
  repeat' first
    | with_reducible first
      | assumption | apply State.clrBit_grows | apply State.discardQueue_grows | apply State.expireChan_grows
      | apply State.updChan_grows
    | intro _
    | split
    | dsimp only

theorem State.ringStopped_grows {s0 : State} {s : State} (g : _) (hs : Grows s0 s) :
    Grows s0 (State.ringStopped s g) := by
  unfold State.ringStopped; try dsimp only
  repeat' first
    | with_reducible first
      | assumption | apply State.setRing_grows
    | intro _
    | split
    | dsimp only

theorem State.expireRing_grows {s0 : State} {s : State} (g : _) (hs : Grows s0 s) :
    Grows s0 (State.expireRing s g) := by
  unfold State.expireRing; try dsimp only
  repeat' first
    | with_reducible first
      | assumption | apply State.abortRunning_grows | apply State.ringStopped_grows
    | intro _
    | split
    | dsimp only

theorem ringSetEn_grows {s0 : State} (g : _) {s : State} (hs : Grows s0 s) :
    Grows s0 (ringSetEn g s) := by
  unfold ringSetEn; try dsimp only
  repeat' first
    | with_reducible first
      | assumption | apply State.updRing_grows
    | intro _
    | split
    | dsimp only

theorem ringClrEn_grows {s0 : State} (g : _) {s : State} (hs : Grows s0 s) :
    Grows s0 (ringClrEn g s) := by
  unfold ringClrEn; try dsimp only
  repeat' first
    | with_reducible first
      | assumption | apply State.expireRing_grows | apply State.updFunc_grows | apply State.updRing_grows
    | intro _
    | split
    | dsimp only

theorem execRingSetEn_grows {s0 : State} (r : _) (g : _) {s : State} (hs : Grows s0 s) :
    OutGrows s0 (execRingSetEn r g s) := by
  unfold execRingSetEn; try dsimp only
  repeat' first
    | with_reducible first
      | assumption | apply OutGrows.next | apply State.access_grows | apply ringSetEn_grows
    | intro _
    | split
    | dsimp only

theorem execRingClrEn_grows {s0 : State} (r : _) (g : _) {s : State} (hs : Grows s0 s) :
    OutGrows s0 (execRingClrEn r g s) := by
  unfold execRingClrEn; try dsimp only
  repeat' first
    | with_reducible first
      | assumption | apply OutGrows.next | apply State.access_grows | apply ringClrEn_grows
    | intro _
    | split
    | dsimp only

theorem State.partStopped_grows {s0 : State} {s : State} (n : _) (hs : Grows s0 s) :
    Grows s0 (State.partStopped s n) := by
  unfold State.partStopped; try dsimp only
  repeat' first
    | with_reducible first
      | assumption | apply State.setPState_grows
    | intro _
    | split
    | dsimp only

theorem State.haltPlot_grows {s0 : State} {s : State} (k : _) (hs : Grows s0 s) :
    Grows s0 (State.haltPlot s k) := by
  unfold State.haltPlot; try dsimp only
  repeat' first
    | with_reducible first
      | assumption | apply Grows.foldl | apply Grows.foldl1 | apply Grows.foldlDev | apply Grows.foldlMv
      | apply Grows.foldlDn | apply State.expireQueue_grows | apply State.updPlot_grows | apply queueClrEn_grows
    | intro _
    | split
    | dsimp only

theorem State.expireRun_grows {s0 : State} {s : State} (n : _) (sl : _) (hs : Grows s0 s) :
    Grows s0 (State.expireRun s n sl) := by
  unfold State.expireRun; try dsimp only
  repeat' first
    | with_reducible first
      | assumption | apply Grows.foldl | apply Grows.foldl1 | apply Grows.foldlDev | apply Grows.foldlMv
      | apply Grows.foldlDn | apply State.answerRun_grows | apply State.dropRun_grows | apply State.haltPlot_grows
    | intro _
    | split
    | dsimp only

theorem State.expirePart_grows {s0 : State} {s : State} (n : _) (hs : Grows s0 s) :
    Grows s0 (State.expirePart s n) := by
  unfold State.expirePart; try dsimp only
  repeat' first
    | with_reducible first
      | assumption | apply Grows.foldl | apply Grows.foldl1 | apply Grows.foldlDev | apply Grows.foldlMv
      | apply Grows.foldlDn | apply State.expireRun_grows | apply State.partStopped_grows
    | intro _
    | split
    | dsimp only

theorem partSetEn_grows {s0 : State} (n : _) {s : State} (hs : Grows s0 s) :
    Grows s0 (partSetEn n s) := by
  unfold partSetEn; try dsimp only
  repeat' first
    | with_reducible first
      | assumption | apply State.lockPage_grows | apply State.setPState_grows | apply State.updPart_grows
    | intro _
    | split
    | dsimp only

theorem partClrEn_grows {s0 : State} (n : _) {s : State} (hs : Grows s0 s) :
    Grows s0 (partClrEn n s) := by
  unfold partClrEn; try dsimp only
  repeat' first
    | with_reducible first
      | assumption | apply Grows.foldl | apply Grows.foldl1 | apply Grows.foldlDev | apply Grows.foldlMv
      | apply Grows.foldlDn | apply State.expirePart_grows | apply State.setPState_grows
      | apply State.updPart_grows | apply ringClrEn_grows
    | intro _
    | split
    | dsimp only

theorem execPartSetEn_grows {s0 : State} (r : _) (n : _) {s : State} (hs : Grows s0 s) :
    OutGrows s0 (execPartSetEn r n s) := by
  unfold execPartSetEn; try dsimp only
  repeat' first
    | with_reducible first
      | assumption | apply OutGrows.next | apply State.access_grows | apply partSetEn_grows
    | intro _
    | split
    | dsimp only

theorem execPartClrEn_grows {s0 : State} (r : _) (n : _) {s : State} (hs : Grows s0 s) :
    OutGrows s0 (execPartClrEn r n s) := by
  unfold execPartClrEn; try dsimp only
  repeat' first
    | with_reducible first
      | assumption | apply OutGrows.next | apply State.access_grows | apply partClrEn_grows
    | intro _
    | split
    | dsimp only

/-! ### Gov -/

theorem State.sensorIgnored_grows {s0 : State} {s : State} (die : _) (i : _) (was : _) (hs : Grows s0 s) :
    Grows s0 (State.sensorIgnored s die i was) := by
  unfold State.sensorIgnored; try dsimp only
  repeat' first
    | with_reducible first
      | assumption | apply State.report_grows
    | intro _
    | split
    | dsimp only

theorem State.calFailed_grows {s0 : State} {s : State} (die : _) (i : _) (hs : Grows s0 s) :
    Grows s0 (State.calFailed s die i) := by
  unfold State.calFailed; try dsimp only
  repeat' first
    | with_reducible first
      | assumption | apply State.sensorIgnored_grows | apply State.updSensor_grows
    | intro _
    | split
    | dsimp only

theorem State.requestVdd_grows {s0 : State} {s : State} (st : _) (mv : _) (hs : Grows s0 s) :
    Grows s0 (State.requestVdd s st mv) := by
  unfold State.requestVdd; try dsimp only
  repeat' first
    | with_reducible first
      | assumption | apply State.send_grows | apply State.updStk_grows
    | intro _
    | split
    | dsimp only

theorem State.stepVdd_grows {s0 : State} {s : State} (st : _) (mv : _) (x3 : _) (hs : Grows s0 s) :
    Grows s0 (State.stepVdd s st mv x3) := by
  induction x3 generalizing s with
  | zero =>
    unfold State.stepVdd; try dsimp only
    repeat' first
      | with_reducible first
        | assumption | apply State.requestVdd_grows
      | intro _
      | split
      | dsimp only
  | succ _ ih =>
    unfold State.stepVdd; try dsimp only
    repeat' first
      | with_reducible first
        | assumption | apply State.requestVdd_grows | apply ih
      | intro _
      | split
      | dsimp only

theorem State.startGov_grows {s0 : State} {s : State} (st : _) (hs : Grows s0 s) :
    Grows s0 (State.startGov s st) := by
  unfold State.startGov; try dsimp only
  repeat' first
    | with_reducible first
      | assumption | apply State.setFld_grows | apply State.stepVdd_grows
    | intro _
    | split
    | dsimp only

theorem State.pmbFault_grows {s0 : State} {s : State} (st : _) (hs : Grows s0 s) :
    Grows s0 (State.pmbFault s st) := by
  unfold State.pmbFault; try dsimp only
  repeat' first
    | with_reducible first
      | assumption | apply State.alert_grows | apply State.setBit_grows | apply State.updStk_grows
    | intro _
    | split
    | dsimp only

theorem State.sendStep_grows {s0 : State} {s : State} (st : _) (mv : _) (ack : _) (hs : Grows s0 s) :
    Grows s0 (State.sendStep s st mv ack) := by
  unfold State.sendStep; try dsimp only
  repeat' first
    | with_reducible first
      | assumption | apply State.pmbFault_grows | apply State.requestVdd_grows
    | intro _
    | split
    | dsimp only

theorem State.changePstate_grows {s0 : State} {s : State} (st : _) (p : _) (ack : _) (hs : Grows s0 s) :
    Grows s0 (State.changePstate s st p ack) := by
  unfold State.changePstate; try dsimp only
  repeat' first
    | with_reducible first
      | assumption | apply State.sendStep_grows | apply State.updStk_grows
    | intro _
    | split
    | dsimp only

/-! ### Parts -/

theorem State.assignPart_grows {s0 : State} {s : State} (n : _) (first : _) (log2 : _) (hs : Grows s0 s) :
    Grows s0 (State.assignPart s n first log2) := by
  unfold State.assignPart; try dsimp only
  repeat' first
    | with_reducible first
      | assumption | apply Grows.foldl | apply Grows.foldl1 | apply Grows.foldlDev | apply Grows.foldlMv
      | apply Grows.foldlDn | apply State.clearStack_grows | apply State.setPState_grows
      | apply State.updPart_grows
    | intro _
    | split
    | with_reducible apply Grows.lit
    | dsimp only

theorem State.cfgRej_grows {s0 : State} {s : State} (n : _) (hs : Grows s0 s) :
    Grows s0 (State.cfgRej s n) := by
  unfold State.cfgRej; try dsimp only
  repeat' first
    | with_reducible first
      | assumption | apply State.setBit_grows
    | intro _
    | split
    | dsimp only

theorem writePartCfg_grows {s0 : State} (n : _) (v : _) {s : State} (hs : Grows s0 s) :
    Grows s0 (writePartCfg n v s) := by
  unfold writePartCfg; try dsimp only
  repeat' first
    | with_reducible first
      | assumption | apply State.assignPart_grows | apply State.cfgRej_grows | apply State.clrBit_grows
      | apply State.resetPart_grows | apply State.setFld_grows
    | intro _
    | split
    | dsimp only

theorem execPartAssign_grows {s0 : State} (r : _) (n : _) (v : _) {s : State} (hs : Grows s0 s) :
    OutGrows s0 (execPartAssign r n v s) := by
  unfold execPartAssign; try dsimp only
  repeat' first
    | with_reducible first
      | assumption | apply OutGrows.next | apply State.access_grows | apply writePartCfg_grows
    | intro _
    | split
    | dsimp only

theorem execPartRemove_grows {s0 : State} (r : _) (n : _) (v : _) {s : State} (hs : Grows s0 s) :
    OutGrows s0 (execPartRemove r n v s) := by
  unfold execPartRemove; try dsimp only
  repeat' first
    | with_reducible first
      | assumption | apply OutGrows.next | apply State.access_grows | apply writePartCfg_grows
    | intro _
    | split
    | dsimp only

theorem execPartReset_grows {s0 : State} (r : _) (n : _) {s : State} (hs : Grows s0 s) :
    OutGrows s0 (execPartReset r n s) := by
  unfold execPartReset; try dsimp only
  repeat' first
    | with_reducible first
      | assumption | apply OutGrows.next | apply State.access_grows | apply State.resetPart_grows
    | intro _
    | split
    | dsimp only

theorem State.foundStack_grows {s0 : State} {s : State} (st : _) (hs : Grows s0 s) :
    Grows s0 (State.foundStack s st) := by
  unfold State.foundStack; try dsimp only
  repeat' first
    | with_reducible first
      | assumption | apply State.clrBit_grows | apply State.updStk_grows
    | intro _
    | split
    | dsimp only

theorem State.releaseStack_grows {s0 : State} {s : State} (st : _) (hs : Grows s0 s) :
    Grows s0 (State.releaseStack s st) := by
  unfold State.releaseStack; try dsimp only
  repeat' first
    | with_reducible first
      | assumption | apply Grows.foldl | apply Grows.foldl1 | apply Grows.foldlDev | apply Grows.foldlMv
      | apply Grows.foldlDn | apply State.filledStack_grows | apply State.linksUp_grows | apply State.setBit_grows
      | apply State.startGov_grows | apply State.updStk_grows
    | intro _
    | split
    | dsimp only

theorem State.freePart_grows {s0 : State} {s : State} (n : _) (hs : Grows s0 s) :
    Grows s0 (State.freePart s n) := by
  unfold State.freePart; try dsimp only
  repeat' first
    | with_reducible first
      | assumption | apply Grows.foldl | apply Grows.foldl1 | apply Grows.foldlDev | apply Grows.foldlMv
      | apply Grows.foldlDn | apply State.clrBit_grows | apply State.requestVdd_grows
      | apply State.resetPage_grows | apply State.setPState_grows | apply State.setPart_grows
    | intro _
    | split
    | dsimp only

theorem State.tdiEnd_grows {s0 : State} {s : State} (n : _) (hs : Grows s0 s) :
    Grows s0 (State.tdiEnd s n) := by
  unfold State.tdiEnd; try dsimp only
  repeat' first
    | with_reducible first
      | assumption | apply State.setTdi_grows | apply State.updPart_grows
    | intro _
    | split
    | dsimp only

theorem State.dropReset_grows {s0 : State} {s : State} (sel : _) (hs : Grows s0 s) :
    Grows s0 (State.dropReset s sel) := by
  unfold State.dropReset; try dsimp only
  repeat' first
    | with_reducible first
      | assumption
    | intro _
    | split
    | with_reducible apply Grows.lit
    | dsimp only

theorem endResetting_grows {s0 : State} (n : _) (trained : _) {s : State} (hs : Grows s0 s) :
    Grows s0 (endResetting n trained s) := by
  unfold endResetting; try dsimp only
  repeat' first
    | with_reducible first
      | assumption | apply Grows.foldl | apply Grows.foldl1 | apply Grows.foldlDev | apply Grows.foldlMv
      | apply Grows.foldlDn | apply State.dropReset_grows | apply State.foundStack_grows
      | apply State.freePart_grows | apply State.releaseStack_grows | apply State.setPState_grows
      | apply State.tdiEnd_grows | apply State.updPart_grows
    | intro _
    | split
    | dsimp only

theorem execResettingEnd_grows {s0 : State} (n : _) (trained : _) {s : State} (hs : Grows s0 s) :
    OutGrows s0 (execResettingEnd n trained s) := by
  unfold execResettingEnd; try dsimp only
  repeat' first
    | with_reducible first
      | assumption | apply OutGrows.next | apply endResetting_grows
    | intro _
    | split
    | dsimp only

/-! ### Resets -/

theorem writePlotCtrl_grows {s0 : State} (st : _) (q : _) (v : _) {s : State} (hs : Grows s0 s) :
    Grows s0 (writePlotCtrl st q v s) := by
  unfold writePlotCtrl; try dsimp only
  repeat' first
    | with_reducible first
      | assumption | apply Grows.foldl | apply Grows.foldl1 | apply Grows.foldlDev | apply Grows.foldlMv
      | apply Grows.foldlDn | apply State.beginReset_grows
    | intro _
    | split
    | dsimp only

theorem execPlotReset_grows {s0 : State} (r : _) (st : _) (q : _) (v : _) {s : State} (hs : Grows s0 s) :
    OutGrows s0 (execPlotReset r st q v s) := by
  unfold execPlotReset; try dsimp only
  repeat' first
    | with_reducible first
      | assumption | apply OutGrows.next | apply State.access_grows | apply writePlotCtrl_grows
    | intro _
    | split
    | dsimp only

theorem execReachReset_grows {s0 : State} (r : _) (st : _) (q : _) {s : State} (hs : Grows s0 s) :
    OutGrows s0 (execReachReset r st q s) := by
  unfold execReachReset; try dsimp only
  repeat' first
    | with_reducible first
      | assumption | apply OutGrows.next | apply State.access_grows | apply writePlotCtrl_grows
    | intro _
    | split
    | dsimp only

theorem State.noteAbsorbed_grows {s0 : State} {s : State} (k : _) (hs : Grows s0 s) :
    Grows s0 (State.noteAbsorbed s k) := by
  unfold State.noteAbsorbed; try dsimp only
  repeat' first
    | with_reducible first
      | assumption | apply State.setBit_grows
    | intro _
    | split
    | dsimp only

theorem State.absorbPlot_grows {s0 : State} {s : State} (k : _) (zero : _) (hs : Grows s0 s) :
    Grows s0 (State.absorbPlot s k zero) := by
  unfold State.absorbPlot; try dsimp only
  repeat' first
    | with_reducible first
      | assumption | apply State.abortTests_grows | apply State.clearPlot_grows | apply State.count_grows
      | apply State.faultRuns_grows | apply State.noteAbsorbed_grows | apply State.startFill_grows
    | intro _
    | split
    | dsimp only

theorem State.abortAll_grows {s0 : State} {s : State} (hs : Grows s0 s) :
    Grows s0 (State.abortAll s) := by
  unfold State.abortAll; try dsimp only
  repeat' first
    | with_reducible first
      | assumption | apply Grows.foldl | apply Grows.foldl1 | apply Grows.foldlDev | apply Grows.foldlMv
      | apply Grows.foldlDn | apply State.abortCmds_grows
    | intro _
    | split
    | dsimp only

theorem absorb_grows {s0 : State} {s : State} (r : _) (hs : Grows s0 s) :
    Grows s0 (absorb s r) := by
  unfold absorb; try dsimp only
  repeat' first
    | with_reducible first
      | assumption | apply Grows.foldl | apply Grows.foldl1 | apply Grows.foldlDev | apply Grows.foldlMv
      | apply Grows.foldlDn | apply State.abortAll_grows | apply State.absorbPlot_grows
      | apply State.clearHub_grows | apply State.clearPart_grows | apply State.clearPkg_grows
      | apply State.setBit_grows | apply State.startBoot_grows
    | intro _
    | split
    | dsimp only

theorem State.markCleared_grows {s0 : State} {s : State} (sc : _) (hs : Grows s0 s) :
    Grows s0 (State.markCleared s sc) := by
  unfold State.markCleared; try dsimp only
  repeat' first
    | with_reducible first
      | assumption
    | intro _
    | split
    | with_reducible apply Grows.lit
    | dsimp only

theorem execResetDrainEnd_grows {s0 : State} (sc : _) {s : State} (hs : Grows s0 s) :
    OutGrows s0 (execResetDrainEnd sc s) := by
  unfold execResetDrainEnd; try dsimp only
  repeat' first
    | with_reducible first
      | assumption | apply OutGrows.next | apply State.markCleared_grows | apply absorb_grows
    | intro _
    | split
    | dsimp only

theorem State.liftFence_grows {s0 : State} {s : State} (k : _) (hs : Grows s0 s) :
    Grows s0 (State.liftFence s k) := by
  unfold State.liftFence; try dsimp only
  repeat' first
    | with_reducible first
      | assumption | apply State.clrBit_grows
    | intro _
    | split
    | dsimp only

theorem State.setFence_grows {s0 : State} {s : State} (k : _) (hs : Grows s0 s) :
    Grows s0 (State.setFence s k) := by
  unfold State.setFence; try dsimp only
  repeat' first
    | with_reducible first
      | assumption | apply State.setBit_grows
    | intro _
    | split
    | dsimp only

theorem State.releasePlotReset_grows {s0 : State} {s : State} (k : _) (retest : _) (ok : _) (floodOk : _) (hs : Grows s0 s) :
    Grows s0 (State.releasePlotReset s k retest ok floodOk) := by
  unfold State.releasePlotReset; try dsimp only
  repeat' first
    | with_reducible first
      | assumption | apply State.failPlot_grows | apply State.liftFence_grows | apply State.markOk_grows
      | apply State.setFence_grows
    | intro _
    | split
    | dsimp only

theorem releaseScope_grows {s0 : State} {s : State} (r : _) (ok : _) (floodOk : _) (hs : Grows s0 s) :
    Grows s0 (releaseScope s r ok floodOk) := by
  unfold releaseScope; try dsimp only
  repeat' first
    | with_reducible first
      | assumption | apply Grows.foldl | apply Grows.foldl1 | apply Grows.foldlDev | apply Grows.foldlMv
      | apply Grows.foldlDn | apply State.dropReset_grows | apply State.releasePlotReset_grows
    | intro _
    | split
    | dsimp only

theorem execResetRelease_grows {s0 : State} (sc : _) (testsOk : _) (floodOk : _) {s : State} (hs : Grows s0 s) :
    OutGrows s0 (execResetRelease sc testsOk floodOk s) := by
  unfold execResetRelease; try dsimp only
  repeat' first
    | with_reducible first
      | assumption | apply OutGrows.next | apply releaseScope_grows
    | intro _
    | split
    | dsimp only

theorem State.loseStack_grows {s0 : State} {s : State} (st : _) (hs : Grows s0 s) :
    Grows s0 (State.loseStack s st) := by
  unfold State.loseStack; try dsimp only
  repeat' first
    | with_reducible first
      | assumption | apply Grows.foldl | apply Grows.foldl1 | apply Grows.foldlDev | apply Grows.foldlMv
      | apply Grows.foldlDn | apply State.faultPart_grows | apply State.norStop_grows | apply State.report_grows
      | apply State.setBit_grows | apply State.updStk_grows
    | intro _
    | split
    | dsimp only

theorem State.checkLost_grows {s0 : State} {s : State} (st : _) (hs : Grows s0 s) :
    Grows s0 (State.checkLost s st) := by
  unfold State.checkLost; try dsimp only
  repeat' first
    | with_reducible first
      | assumption | apply State.loseStack_grows
    | intro _
    | split
    | dsimp only

theorem execD2dLinkDown_grows {s0 : State} (die : _) (far : _) {s : State} (hs : Grows s0 s) :
    OutGrows s0 (execD2dLinkDown die far s) := by
  unfold execD2dLinkDown; try dsimp only
  repeat' first
    | with_reducible first
      | assumption | apply OutGrows.next | apply State.checkLost_grows | apply State.dropFar_grows
      | apply State.refreshRoute_grows
    | intro _
    | split
    | dsimp only

theorem execRouterForward_grows {s0 : State} (die : _) (site : _) (out : _) {s : State} (hs : Grows s0 s) :
    OutGrows s0 (execRouterForward die site out s) := by
  unfold execRouterForward; try dsimp only
  repeat' first
    | with_reducible first
      | assumption | apply OutGrows.next | apply State.dropQueued_grows | apply forwardLane_grows
    | intro _
    | split
    | dsimp only

theorem popProp_grows {s0 : State} {s : State} (hs : Grows s0 s) :
    Grows s0 (popProp s) := by
  unfold popProp; try dsimp only
  repeat' first
    | with_reducible first
      | assumption | apply State.answer_grows | apply State.capture_grows
    | intro _
    | split
    | with_reducible apply Grows.lit
    | dsimp only

theorem execFltPropPop_grows {s0 : State} (r : _) {s : State} (hs : Grows s0 s) :
    OutGrows s0 (execFltPropPop r s) := by
  unfold execFltPropPop; try dsimp only
  repeat' first
    | with_reducible first
      | assumption | apply OutGrows.next | apply State.readAccess_grows | apply popProp_grows
    | intro _
    | split
    | dsimp only

theorem State.startTest_grows {s0 : State} {s : State} (t : _) (hs : Grows s0 s) :
    Grows s0 (State.startTest s t) := by
  unfold State.startTest; try dsimp only
  repeat' first
    | with_reducible first
      | assumption | apply Grows.foldl | apply Grows.foldl1 | apply Grows.foldlDev | apply Grows.foldlMv
      | apply Grows.foldlDn | apply State.startXchk_grows | apply State.updPlot_grows
      | apply State.updSensor_grows
    | intro _
    | split
    | dsimp only

theorem execSelftestStart_grows {s0 : State} (id : _) {s : State} (hs : Grows s0 s) :
    OutGrows s0 (execSelftestStart id s) := by
  unfold execSelftestStart; try dsimp only
  repeat' first
    | with_reducible first
      | assumption | apply OutGrows.next | apply State.startTest_grows
    | intro _
    | split
    | with_reducible apply Grows.lit
    | dsimp only

theorem State.verifyStack_grows {s0 : State} {s : State} (st : _) (hs : Grows s0 s) :
    Grows s0 (State.verifyStack s st) := by
  unfold State.verifyStack; try dsimp only
  repeat' first
    | with_reducible first
      | assumption | apply Grows.foldl | apply Grows.foldl1 | apply Grows.foldlDev | apply Grows.foldlMv
      | apply Grows.foldlDn | apply readWord_grows
    | intro _
    | split
    | dsimp only

theorem State.testFailed_grows {s0 : State} {s : State} (t : _) (hs : Grows s0 s) :
    Grows s0 (State.testFailed s t) := by
  unfold State.testFailed; try dsimp only
  repeat' first
    | with_reducible first
      | assumption | apply Grows.foldl | apply Grows.foldl1 | apply Grows.foldlDev | apply Grows.foldlMv
      | apply Grows.foldlDn | apply State.calFailed_grows | apply State.failPlot_grows
      | apply State.refreshRoute_grows | apply State.setBit_grows | apply State.setFld_grows
    | intro _
    | split
    | dsimp only

theorem State.testEnded_grows {s0 : State} {s : State} (t : _) (ok : _) (hs : Grows s0 s) :
    Grows s0 (State.testEnded s t ok) := by
  unfold State.testEnded; try dsimp only
  repeat' first
    | with_reducible first
      | assumption | apply State.updSensor_grows | apply State.verifyStack_grows
    | intro _
    | split
    | dsimp only

theorem execSelftestDone_grows {s0 : State} (id : _) (ok : _) (code : _) {s : State} (hs : Grows s0 s) :
    OutGrows s0 (execSelftestDone id ok code s) := by
  unfold execSelftestDone; try dsimp only
  repeat' first
    | with_reducible first
      | assumption | apply OutGrows.next | apply State.finishCmd_grows | apply State.testEnded_grows
      | apply State.testFailed_grows
    | intro _
    | split
    | with_reducible apply Grows.lit
    | dsimp only

theorem execBusyTimeout_grows {s0 : State} (id : _) {s : State} (hs : Grows s0 s) :
    OutGrows s0 (execBusyTimeout id s) := by
  unfold execBusyTimeout; try dsimp only
  repeat' first
    | with_reducible first
      | assumption | apply OutGrows.next | apply State.finishCmd_grows
    | intro _
    | split
    | with_reducible apply Grows.lit
    | dsimp only

theorem State.spareFail_grows {s0 : State} {s : State} (x : _) (status : _) (hs : Grows s0 s) :
    Grows s0 (State.spareFail s x status) := by
  unfold State.spareFail; try dsimp only
  repeat' first
    | with_reducible first
      | assumption | apply State.finishCmd_grows
    | intro _
    | split
    | with_reducible apply Grows.lit
    | dsimp only

theorem State.copyCistern_grows {s0 : State} {s : State} (k : _) (hs : Grows s0 s) :
    Grows s0 (State.copyCistern s k) := by
  unfold State.copyCistern; try dsimp only
  repeat' first
    | with_reducible first
      | assumption | apply Grows.foldl | apply Grows.foldl1 | apply Grows.foldlDev | apply Grows.foldlMv
      | apply Grows.foldlDn | apply State.storeWord_grows | apply readWord_grows
    | intro _
    | split
    | dsimp only

theorem State.emptySlots_grows {s0 : State} {s : State} (n : _) (k : _) (hs : Grows s0 s) :
    Grows s0 (State.emptySlots s n k) := by
  unfold State.emptySlots; try dsimp only
  repeat' first
    | with_reducible first
      | assumption | apply Grows.foldl | apply Grows.foldl1 | apply Grows.foldlDev | apply Grows.foldlMv
      | apply Grows.foldlDn | apply State.unloadSlot_grows
    | intro _
    | split
    | dsimp only

theorem State.spareDone_grows {s0 : State} {s : State} (x : _) (hs : Grows s0 s) :
    Grows s0 (State.spareDone s x) := by
  unfold State.spareDone; try dsimp only
  repeat' first
    | with_reducible first
      | assumption | apply Grows.foldl | apply Grows.foldl1 | apply Grows.foldlDev | apply Grows.foldlMv
      | apply Grows.foldlDn | apply State.clearPlot_grows | apply State.copyCistern_grows
      | apply State.emptySlots_grows | apply State.finishCmd_grows | apply State.liftFence_grows
      | apply State.markOk_grows | apply State.resetPage_grows | apply State.setFld_grows
      | apply State.setNor_grows | apply State.setReg_grows | apply State.setSlc_grows | apply State.updPlot_grows
      | apply State.updStk_grows | apply State.zeroSegment_grows
    | intro _
    | split
    | with_reducible apply Grows.lit
    | dsimp only

theorem execSpareCopyDone_grows {s0 : State} (st : _) (p : _) (testsOk : _) (floodOk : _) (copyOk : _) {s : State} (hs : Grows s0 s) :
    OutGrows s0 (execSpareCopyDone st p testsOk floodOk copyOk s) := by
  unfold execSpareCopyDone; try dsimp only
  repeat' first
    | with_reducible first
      | assumption | apply OutGrows.next | apply State.propose_grows | apply State.spareDone_grows
      | apply State.spareFail_grows
    | intro _
    | split
    | dsimp only

/-! ### Steward -/

theorem execStewardException_grows {s0 : State} (p : _) (cause : _) (tval : _) {s : State} (hs : Grows s0 s) :
    OutGrows s0 (execStewardException p cause tval s) := by
  unfold execStewardException; try dsimp only
  repeat' first
    | with_reducible first
      | assumption | apply OutGrows.next | apply State.hartStepped_grows | apply State.updPlot_grows
    | intro _
    | split
    | dsimp only

theorem stewardFault_grows {s0 : State} (k : _) {s : State} (hs : Grows s0 s) :
    Grows s0 (stewardFault k s) := by
  unfold stewardFault; try dsimp only
  repeat' first
    | with_reducible first
      | assumption | apply State.failPlot_grows | apply State.setBit_grows
    | intro _
    | split
    | dsimp only

theorem execStwWdogFault_grows {s0 : State} (r : _) (p : _) {s : State} (hs : Grows s0 s) :
    OutGrows s0 (execStwWdogFault r p s) := by
  unfold execStwWdogFault; try dsimp only
  repeat' first
    | with_reducible first
      | assumption | apply OutGrows.next | apply State.access_grows | apply stewardFault_grows
    | intro _
    | split
    | dsimp only

theorem kickDog_grows {s0 : State} (k : _) {s : State} (hs : Grows s0 s) :
    Grows s0 (kickDog k s) := by
  unfold kickDog; try dsimp only
  repeat' first
    | with_reducible first
      | assumption | apply State.updPlot_grows
    | intro _
    | split
    | dsimp only

theorem execStwWdogKick_grows {s0 : State} (r : _) (p : _) {s : State} (hs : Grows s0 s) :
    OutGrows s0 (execStwWdogKick r p s) := by
  unfold execStwWdogKick; try dsimp only
  repeat' first
    | with_reducible first
      | assumption | apply OutGrows.next | apply State.access_grows | apply kickDog_grows
    | intro _
    | split
    | dsimp only

theorem execStewardWatchdogExpiry_grows {s0 : State} (p : _) {s : State} (hs : Grows s0 s) :
    OutGrows s0 (execStewardWatchdogExpiry p s) := by
  unfold execStewardWatchdogExpiry; try dsimp only
  repeat' first
    | with_reducible first
      | assumption | apply OutGrows.next | apply State.failPlot_grows
    | intro _
    | split
    | dsimp only

/-! ### Coll -/

theorem State.markPoisoned_grows {s0 : State} {s : State} (addr : _) (hs : Grows s0 s) :
    Grows s0 (State.markPoisoned s addr) := by
  unfold State.markPoisoned; try dsimp only
  repeat' first
    | with_reducible first
      | assumption | apply Grows.foldl | apply Grows.foldl1 | apply Grows.foldlDev | apply Grows.foldlMv
      | apply Grows.foldlDn | apply State.updEp_grows
    | intro _
    | split
    | dsimp only

theorem State.flushSap_grows {s0 : State} {s : State} (hs : Grows s0 s) :
    Grows s0 (State.flushSap s) := by
  unfold State.flushSap; try dsimp only
  repeat' first
    | with_reducible first
      | assumption | apply Grows.foldl | apply Grows.foldl1 | apply Grows.foldlDev | apply Grows.foldlMv
      | apply Grows.foldlDn | apply State.devWeir_grows | apply State.markPoisoned_grows
    | intro _
    | split
    | with_reducible apply Grows.lit
    | dsimp only

theorem State.addSap_grows {s0 : State} {s : State} (op : _) (addr : _) (data : _) (bad : _) (hs : Grows s0 s) :
    Grows s0 (State.addSap s op addr data bad) := by
  unfold State.addSap; try dsimp only
  repeat' first
    | with_reducible first
      | assumption | apply Grows.foldl | apply Grows.foldl1 | apply Grows.foldlDev | apply Grows.foldlMv
      | apply Grows.foldlDn | apply State.flushSap_grows
    | intro _
    | split
    | with_reducible apply Grows.lit
    | dsimp only

theorem execScatterAddPacketSend_grows {s0 : State} (c : _) {s : State} (hs : Grows s0 s) :
    OutGrows s0 (execScatterAddPacketSend c s) := by
  unfold execScatterAddPacketSend; try dsimp only
  repeat' first
    | with_reducible first
      | assumption | apply OutGrows.next | apply State.flushSap_grows | apply State.pump_grows
      | apply sendPacket_grows
    | intro _
    | split
    | dsimp only

theorem State.postPkt_grows {s0 : State} {s : State} (p : _) (hs : Grows s0 s) :
    Grows s0 (State.postPkt s p) := by
  unfold State.postPkt; try dsimp only
  repeat' first
    | with_reducible first
      | assumption
    | intro _
    | split
    | with_reducible apply Grows.lit
    | dsimp only

theorem State.postAll_grows {s0 : State} {s : State} (members : _) (p : _) (hs : Grows s0 s) :
    Grows s0 (State.postAll s members p) := by
  unfold State.postAll; try dsimp only
  repeat' first
    | with_reducible first
      | assumption | apply Grows.foldl | apply Grows.foldl1 | apply Grows.foldlDev | apply Grows.foldlMv
      | apply Grows.foldlDn | apply State.postPkt_grows
    | intro _
    | split
    | dsimp only

theorem State.collRecord_grows {s0 : State} {s : State} (e : _) (n : _) (d : _) (status : _) (seq : _) (epoch : _) (hs : Grows s0 s) :
    Grows s0 (State.collRecord s e n d status seq epoch) := by
  unfold State.collRecord; try dsimp only
  repeat' first
    | with_reducible first
      | assumption | apply State.devWrite_grows | apply State.inject_grows
    | intro _
    | split
    | dsimp only

theorem State.endColl_grows {s0 : State} {s : State} (e : _) (C : _) (status : _) (hs : Grows s0 s) :
    Grows s0 (State.endColl s e C status) := by
  unfold State.endColl; try dsimp only
  repeat' first
    | with_reducible first
      | assumption | apply State.collRecord_grows | apply State.updEp_grows
    | intro _
    | split
    | dsimp only

theorem State.sendLost_grows {s0 : State} {s : State} (g : _) (seq : _) (hs : Grows s0 s) :
    Grows s0 (State.sendLost s g seq) := by
  unfold State.sendLost; try dsimp only
  repeat' first
    | with_reducible first
      | assumption | apply State.postAll_grows
    | intro _
    | split
    | dsimp only

theorem State.lostData_grows {s0 : State} {s : State} (p : _) (hs : Grows s0 s) :
    Grows s0 (State.lostData s p) := by
  unfold State.lostData; try dsimp only
  repeat' first
    | with_reducible first
      | assumption | apply State.endColl_grows | apply State.sendLost_grows
    | intro _
    | split
    | dsimp only

theorem State.countColl_grows {s0 : State} {s : State} (e : _) (n : _) (hs : Grows s0 s) :
    Grows s0 (State.countColl s e n) := by
  unfold State.countColl; try dsimp only
  repeat' first
    | with_reducible first
      | assumption | apply State.count_grows
    | intro _
    | split
    | dsimp only

theorem localWord_grows {s0 : State} (e : _) (n : _) {x : _} (w : _) (hx : Grows s0 x.1) :
    Grows s0 (localWord e n x w).1 := by
  unfold localWord; try dsimp only
  repeat' first
    | with_reducible first
      | assumption | apply State.countColl_grows | apply State.devWrite_grows
    | intro _
    | split
    | dsimp only

theorem collWords_grows {s0 : State} {s : State} (n : _) (off : _) (x3 : _) (hs : Grows s0 s) :
    Grows s0 (collWords s n off x3).1 := by
  induction x3 generalizing s off with
  | zero =>
    unfold collWords; try dsimp only
    repeat' first
      | with_reducible first
        | assumption | apply State.devRead_grows
      | intro _
      | split
      | dsimp only
  | succ _ ih =>
    unfold collWords; try dsimp only
    repeat' first
      | with_reducible first
        | assumption | apply State.devRead_grows | apply ih
      | intro _
      | split
      | dsimp only

theorem State.epTake_grows {s0 : State} {s : State} (e : _) (q : _) (hs : Grows s0 s) :
    Grows s0 (State.epTake s e q) := by
  unfold State.epTake; try dsimp only
  repeat' first
    | with_reducible first
      | assumption | apply State.inject_grows | apply State.updEp_grows
    | intro _
    | split
    | dsimp only

theorem State.setColl_grows {s0 : State} {s : State} (e : _) (C : _) (hs : Grows s0 s) :
    Grows s0 (State.setColl s e C) := by
  unfold State.setColl; try dsimp only
  repeat' first
    | with_reducible first
      | assumption | apply State.updEp_grows
    | intro _
    | split
    | dsimp only

theorem State.feedColl_grows {s0 : State} {s : State} (e : _) (n : _) (q : _) (x4 : _) (hs : Grows s0 s) :
    Grows s0 (State.feedColl s e n q x4) := by
  induction x4 generalizing s with
  | zero =>
    unfold State.feedColl; try dsimp only
    repeat' first
      | with_reducible first
        | assumption | apply Grows.foldl | apply Grows.foldl1 | apply Grows.foldlDev | apply Grows.foldlMv
        | apply Grows.foldlDn | apply State.epTake_grows | apply State.setColl_grows | apply localWord_grows
      | intro _
      | split
      | dsimp only
  | succ _ ih =>
    unfold State.feedColl; try dsimp only
    repeat' first
      | with_reducible first
        | assumption | apply Grows.foldl | apply Grows.foldl1 | apply Grows.foldlDev | apply Grows.foldlMv
        | apply Grows.foldlDn | apply State.epTake_grows | apply State.setColl_grows | apply localWord_grows
        | apply ih
      | intro _
      | split
      | dsimp only

theorem State.startColl_grows {s0 : State} {s : State} (e : _) (n : _) (d : _) (seq : _) (hs : Grows s0 s) :
    Grows s0 (State.startColl s e n d seq) := by
  unfold State.startColl; try dsimp only
  repeat' first
    | with_reducible first
      | assumption | apply Grows.foldl | apply Grows.foldl1 | apply Grows.foldlDev | apply Grows.foldlMv
      | apply Grows.foldlDn | apply State.drawn_grows | apply State.feedColl_grows | apply State.postPkt_grows
      | apply State.updEp_grows | apply collWords_grows | apply localWord_grows
    | intro _
    | split
    | dsimp only

theorem takeCollDesc_grows {s0 : State} (e : _) (n : _) (f : _) {s : State} (hs : Grows s0 s) :
    Grows s0 (takeCollDesc e n f s) := by
  unfold takeCollDesc; try dsimp only
  repeat' first
    | with_reducible first
      | assumption | apply State.collRecord_grows | apply State.drawn_grows | apply State.epTake_grows
      | apply State.startColl_grows | apply State.updGrp_grows
    | intro _
    | split
    | dsimp only

theorem execCollectiveDescriptor_grows {s0 : State} (e : _) {s : State} (hs : Grows s0 s) :
    OutGrows s0 (execCollectiveDescriptor e s) := by
  unfold execCollectiveDescriptor; try dsimp only
  repeat' first
    | with_reducible first
      | assumption | apply OutGrows.next | apply takeCollDesc_grows
    | intro _
    | split
    | dsimp only

theorem State.epStopped_grows {s0 : State} {s : State} (e : _) (hs : Grows s0 s) :
    Grows s0 (State.epStopped s e) := by
  unfold State.epStopped; try dsimp only
  repeat' first
    | with_reducible first
      | assumption | apply State.setEp_grows
    | intro _
    | split
    | dsimp only

theorem execCollectiveComplete_grows {s0 : State} (e : _) (i : _) {s : State} (hs : Grows s0 s) :
    OutGrows s0 (execCollectiveComplete e i s) := by
  unfold execCollectiveComplete; try dsimp only
  repeat' first
    | with_reducible first
      | assumption | apply OutGrows.next | apply State.endColl_grows
    | intro _
    | split
    | dsimp only

theorem State.epDiscard_grows {s0 : State} {s : State} (e : _) (src : _) (slot : _) (hs : Grows s0 s) :
    Grows s0 (State.epDiscard s e src slot) := by
  unfold State.epDiscard; try dsimp only
  repeat' first
    | with_reducible first
      | assumption | apply State.inject_grows | apply State.updEp_grows
    | intro _
    | split
    | dsimp only

theorem epFlit_grows {s0 : State} (e : _) (q : _) (sid : _) (src : _) (slot : _) (data : _) {s : State} (hs : Grows s0 s) :
    Grows s0 (epFlit e q sid src slot data s) := by
  unfold epFlit; try dsimp only
  repeat' first
    | with_reducible first
      | assumption | apply State.arrived_grows | apply State.epDiscard_grows | apply State.feedColl_grows
      | apply State.holdMsg_grows | apply State.updEp_grows
    | intro _
    | split
    | dsimp only

theorem execStreamFlitArrive_grows {s0 : State} (dst : _) (hg : _) (sid : _) (src : _) (slot : _) (data : _) {s : State} (hs : Grows s0 s) :
    OutGrows s0 (execStreamFlitArrive dst hg sid src slot data s) := by
  unfold execStreamFlitArrive; try dsimp only
  repeat' first
    | with_reducible first
      | assumption | apply OutGrows.next | apply epFlit_grows | apply plotFlit_grows
    | intro _
    | split
    | dsimp only

/-! ### Xng -/

theorem State.xngDown_grows {s0 : State} {s : State} (n : _) (reason : _) (hs : Grows s0 s) :
    Grows s0 (State.xngDown s n reason) := by
  unfold State.xngDown; try dsimp only
  repeat' first
    | with_reducible first
      | assumption | apply Grows.foldl | apply Grows.foldl1 | apply Grows.foldlDev | apply Grows.foldlMv
      | apply Grows.foldlDn | apply State.lostData_grows | apply State.setFld_grows | apply State.setXng_grows
    | intro _
    | split
    | dsimp only

theorem State.xngDark_grows {s0 : State} {s : State} (n : _) (hs : Grows s0 s) :
    Grows s0 (State.xngDark s n) := by
  unfold State.xngDark; try dsimp only
  repeat' first
    | with_reducible first
      | assumption | apply State.updXng_grows
    | intro _
    | split
    | dsimp only

theorem State.xngDetect_grows {s0 : State} {s : State} (n : _) (hs : Grows s0 s) :
    Grows s0 (State.xngDetect s n) := by
  unfold State.xngDetect; try dsimp only
  repeat' first
    | with_reducible first
      | assumption | apply State.updXng_grows | apply State.xngDark_grows
    | intro _
    | split
    | dsimp only

theorem State.xngTo_grows {s0 : State} {s : State} (n : _) (x : _) (hs : Grows s0 s) :
    Grows s0 (State.xngTo s n x) := by
  unfold State.xngTo; try dsimp only
  repeat' first
    | with_reducible first
      | assumption | apply State.updXng_grows
    | intro _
    | split
    | dsimp only

theorem execXngLightDetect_grows {s0 : State} (n : _) {s : State} (hs : Grows s0 s) :
    OutGrows s0 (execXngLightDetect n s) := by
  unfold execXngLightDetect; try dsimp only
  repeat' first
    | with_reducible first
      | assumption | apply OutGrows.next | apply State.updXng_grows | apply State.xngDark_grows
    | intro _
    | split
    | dsimp only

theorem State.xngRetrain_grows {s0 : State} {s : State} (n : _) (hs : Grows s0 s) :
    Grows s0 (State.xngRetrain s n) := by
  unfold State.xngRetrain; try dsimp only
  repeat' first
    | with_reducible first
      | assumption | apply State.updXng_grows | apply State.xngDown_grows
    | intro _
    | split
    | dsimp only

theorem State.retrainFailed_grows {s0 : State} {s : State} (n : _) (hs : Grows s0 s) :
    Grows s0 (State.retrainFailed s n) := by
  unfold State.retrainFailed; try dsimp only
  repeat' first
    | with_reducible first
      | assumption | apply State.updXng_grows | apply State.xngDown_grows | apply State.xngRetrain_grows
    | intro _
    | split
    | dsimp only

theorem State.trainFailed_grows {s0 : State} {s : State} (n : _) (reason : _) (hs : Grows s0 s) :
    Grows s0 (State.trainFailed s n reason) := by
  unfold State.trainFailed; try dsimp only
  repeat' first
    | with_reducible first
      | assumption | apply State.retrainFailed_grows | apply State.xngDown_grows
    | intro _
    | split
    | dsimp only

theorem State.equaliseFailed_grows {s0 : State} {s : State} (n : _) (hs : Grows s0 s) :
    Grows s0 (State.equaliseFailed s n) := by
  unfold State.equaliseFailed; try dsimp only
  repeat' first
    | with_reducible first
      | assumption | apply State.trainFailed_grows | apply State.updXng_grows
    | intro _
    | split
    | dsimp only

theorem execXngEqualiseDone_grows {s0 : State} (n : _) (ok : _) {s : State} (hs : Grows s0 s) :
    OutGrows s0 (execXngEqualiseDone n ok s) := by
  unfold execXngEqualiseDone; try dsimp only
  repeat' first
    | with_reducible first
      | assumption | apply OutGrows.next | apply State.equaliseFailed_grows | apply State.xngTo_grows
    | intro _
    | split
    | dsimp only

theorem alignDone_grows {s0 : State} (n : _) (spare : _) {s : State} (hs : Grows s0 s) :
    Grows s0 (alignDone n spare s) := by
  unfold alignDone; try dsimp only
  repeat' first
    | with_reducible first
      | assumption | apply State.setBit_grows | apply State.updXng_grows | apply State.xngTo_grows
    | intro _
    | split
    | dsimp only

theorem execXngAlignDone_grows {s0 : State} (n : _) (spare : _) {s : State} (hs : Grows s0 s) :
    OutGrows s0 (execXngAlignDone n spare s) := by
  unfold execXngAlignDone; try dsimp only
  repeat' first
    | with_reducible first
      | assumption | apply OutGrows.next | apply alignDone_grows
    | intro _
    | split
    | dsimp only

theorem State.sendFlit_grows {s0 : State} {s : State} (n : _) (ty : _) (nak : _) (payload : _) (hs : Grows s0 s) :
    Grows s0 (State.sendFlit s n ty nak payload) := by
  unfold State.sendFlit; try dsimp only
  repeat' first
    | with_reducible first
      | assumption | apply State.count_grows | apply State.send_grows | apply State.setXng_grows
      | apply State.updXng_grows
    | intro _
    | split
    | dsimp only

theorem State.sendIdle_grows {s0 : State} {s : State} (n : _) (nak : _) (hs : Grows s0 s) :
    Grows s0 (State.sendIdle s n nak) := by
  unfold State.sendIdle; try dsimp only
  repeat' first
    | with_reducible first
      | assumption | apply State.sendFlit_grows
    | intro _
    | split
    | dsimp only

theorem State.replayFlits_grows {s0 : State} {s : State} (n : _) (hs : Grows s0 s) :
    Grows s0 (State.replayFlits s n) := by
  unfold State.replayFlits; try dsimp only
  repeat' first
    | with_reducible first
      | assumption | apply Grows.foldl | apply Grows.foldl1 | apply Grows.foldlDev | apply Grows.foldlMv
      | apply Grows.foldlDn | apply State.count_grows | apply State.send_grows
    | intro _
    | split
    | dsimp only

theorem State.xngActive_grows {s0 : State} {s : State} (n : _) (enc : _) (hs : Grows s0 s) :
    Grows s0 (State.xngActive s n enc) := by
  unfold State.xngActive; try dsimp only
  repeat' first
    | with_reducible first
      | assumption | apply State.setFld_grows | apply State.setXng_grows
    | intro _
    | split
    | dsimp only

theorem State.xngResume_grows {s0 : State} {s : State} (n : _) (hs : Grows s0 s) :
    Grows s0 (State.xngResume s n) := by
  unfold State.xngResume; try dsimp only
  repeat' first
    | with_reducible first
      | assumption | apply State.replayFlits_grows | apply State.updXng_grows
    | intro _
    | split
    | dsimp only

theorem peerDone_grows {s0 : State} (n : _) (peer : _) (gen : _) (half : _) (encOff : _) {s : State} (hs : Grows s0 s) :
    Grows s0 (peerDone n peer gen half encOff s) := by
  unfold peerDone; try dsimp only
  repeat' first
    | with_reducible first
      | assumption | apply State.setFld_grows | apply State.trainFailed_grows | apply State.updXng_grows
      | apply State.xngResume_grows | apply State.xngTo_grows
    | intro _
    | split
    | dsimp only

theorem execXngPeerDone_grows {s0 : State} (n : _) (peer : _) (gen : _) (half : _) (encOff : _) {s : State} (hs : Grows s0 s) :
    OutGrows s0 (execXngPeerDone n peer gen half encOff s) := by
  unfold execXngPeerDone; try dsimp only
  repeat' first
    | with_reducible first
      | assumption | apply OutGrows.next | apply peerDone_grows
    | intro _
    | split
    | dsimp only

theorem authDone_grows {s0 : State} (n : _) (certOk : _) {s : State} (hs : Grows s0 s) :
    Grows s0 (authDone n certOk s) := by
  unfold authDone; try dsimp only
  repeat' first
    | with_reducible first
      | assumption | apply State.setFld_grows | apply State.xngActive_grows | apply State.xngDown_grows
    | intro _
    | split
    | dsimp only

theorem execXngAuthDone_grows {s0 : State} (n : _) (certOk : _) {s : State} (hs : Grows s0 s) :
    OutGrows s0 (execXngAuthDone n certOk s) := by
  unfold execXngAuthDone; try dsimp only
  repeat' first
    | with_reducible first
      | assumption | apply OutGrows.next | apply authDone_grows
    | intro _
    | split
    | dsimp only

theorem xngTimeout_grows {s0 : State} (n : _) {s : State} (hs : Grows s0 s) :
    Grows s0 (xngTimeout n s) := by
  unfold xngTimeout; try dsimp only
  repeat' first
    | with_reducible first
      | assumption | apply State.equaliseFailed_grows | apply State.setFld_grows | apply State.trainFailed_grows
      | apply State.xngDown_grows
    | intro _
    | split
    | dsimp only

theorem execXngStateTimeout_grows {s0 : State} (n : _) {s : State} (hs : Grows s0 s) :
    OutGrows s0 (execXngStateTimeout n s) := by
  unfold execXngStateTimeout; try dsimp only
  repeat' first
    | with_reducible first
      | assumption | apply OutGrows.next | apply xngTimeout_grows
    | intro _
    | split
    | dsimp only

theorem execXngDownExpiry_grows {s0 : State} (n : _) {s : State} (hs : Grows s0 s) :
    OutGrows s0 (execXngDownExpiry n s) := by
  unfold execXngDownExpiry; try dsimp only
  repeat' first
    | with_reducible first
      | assumption | apply OutGrows.next | apply State.xngDetect_grows
    | intro _
    | split
    | dsimp only

theorem execCodewordLockLoss_grows {s0 : State} (n : _) {s : State} (hs : Grows s0 s) :
    OutGrows s0 (execCodewordLockLoss n s) := by
  unfold execCodewordLockLoss; try dsimp only
  repeat' first
    | with_reducible first
      | assumption | apply OutGrows.next | apply State.xngRetrain_grows
    | intro _
    | split
    | dsimp only

theorem retrainCtrl_grows {s0 : State} (n : _) {s : State} (hs : Grows s0 s) :
    Grows s0 (retrainCtrl n s) := by
  unfold retrainCtrl; try dsimp only
  repeat' first
    | with_reducible first
      | assumption | apply State.updXng_grows | apply State.xngRetrain_grows
    | intro _
    | split
    | dsimp only

theorem execXngRetrain_grows {s0 : State} (r : _) (n : _) {s : State} (hs : Grows s0 s) :
    OutGrows s0 (execXngRetrain r n s) := by
  unfold execXngRetrain; try dsimp only
  repeat' first
    | with_reducible first
      | assumption | apply OutGrows.next | apply State.access_grows | apply retrainCtrl_grows
    | intro _
    | split
    | dsimp only

theorem execXngRetrainDone_grows {s0 : State} (n : _) (ok : _) {s : State} (hs : Grows s0 s) :
    OutGrows s0 (execXngRetrainDone n ok s) := by
  unfold execXngRetrainDone; try dsimp only
  repeat' first
    | with_reducible first
      | assumption | apply OutGrows.next | apply State.retrainFailed_grows | apply State.xngResume_grows
    | intro _
    | split
    | dsimp only

theorem xngClockLost_grows {s0 : State} {s : State} (hs : Grows s0 s) :
    Grows s0 (xngClockLost s) := by
  unfold xngClockLost; try dsimp only
  repeat' first
    | with_reducible first
      | assumption | apply Grows.foldl | apply Grows.foldl1 | apply Grows.foldlDev | apply Grows.foldlMv
      | apply Grows.foldlDn | apply State.xngDown_grows
    | intro _
    | split
    | with_reducible apply Grows.lit
    | dsimp only

theorem execRefclkXngAbsent_grows {s0 : State} {s : State} (hs : Grows s0 s) :
    OutGrows s0 (execRefclkXngAbsent s) := by
  unfold execRefclkXngAbsent; try dsimp only
  repeat' first
    | with_reducible first
      | assumption | apply OutGrows.next | apply xngClockLost_grows
    | intro _
    | split
    | dsimp only

theorem xngClockBack_grows {s0 : State} {s : State} (hs : Grows s0 s) :
    Grows s0 (xngClockBack s) := by
  unfold xngClockBack; try dsimp only
  repeat' first
    | with_reducible first
      | assumption | apply Grows.foldl | apply Grows.foldl1 | apply Grows.foldlDev | apply Grows.foldlMv
      | apply Grows.foldlDn | apply State.xngDetect_grows
    | intro _
    | split
    | with_reducible apply Grows.lit
    | dsimp only

theorem execRefclkXngStable_grows {s0 : State} {s : State} (hs : Grows s0 s) :
    OutGrows s0 (execRefclkXngStable s) := by
  unfold execRefclkXngStable; try dsimp only
  repeat' first
    | with_reducible first
      | assumption | apply OutGrows.next | apply xngClockBack_grows
    | intro _
    | split
    | dsimp only

theorem State.freeBuf_grows {s0 : State} {s : State} (via : _) (p : _) (hs : Grows s0 s) :
    Grows s0 (State.freeBuf s via p) := by
  unfold State.freeBuf; try dsimp only
  repeat' first
    | with_reducible first
      | assumption | apply State.updXng_grows
    | intro _
    | split
    | dsimp only

theorem State.dropPkt_grows {s0 : State} {s : State} (via : _) (p : _) (hs : Grows s0 s) :
    Grows s0 (State.dropPkt s via p) := by
  unfold State.dropPkt; try dsimp only
  repeat' first
    | with_reducible first
      | assumption | apply State.count_grows | apply State.freeBuf_grows
    | intro _
    | split
    | dsimp only

theorem State.takePkt_grows {s0 : State} {s : State} (n : _) (p : _) (hs : Grows s0 s) :
    Grows s0 (State.takePkt s n p) := by
  unfold State.takePkt; try dsimp only
  repeat' first
    | with_reducible first
      | assumption | apply State.dropPkt_grows
    | intro _
    | split
    | with_reducible apply Grows.lit
    | dsimp only

theorem takePkts_grows {s0 : State} {s : State} (n : _) (x2 : _) (x3 : _) (hs : Grows s0 s) :
    Grows s0 (takePkts s n x2 x3) := by
  induction x2 generalizing s x3 with
  | zero =>
    unfold takePkts; try dsimp only
    repeat' first
      | with_reducible first
        | assumption | apply State.takePkt_grows | apply State.updXng_grows
      | intro _
      | split
      | with_reducible apply Grows.lit
      | dsimp only
  | succ _ ih =>
    unfold takePkts; try dsimp only
    repeat' first
      | with_reducible first
        | assumption | apply State.takePkt_grows | apply State.updXng_grows | apply ih
      | intro _
      | split
      | with_reducible apply Grows.lit
      | dsimp only

theorem State.deliver_grows {s0 : State} {s : State} (n : _) (bytes : _) (hs : Grows s0 s) :
    Grows s0 (State.deliver s n bytes) := by
  unfold State.deliver; try dsimp only
  repeat' first
    | with_reducible first
      | assumption | apply State.updXng_grows | apply takePkts_grows
    | intro _
    | split
    | dsimp only

theorem State.replayXng_grows {s0 : State} {s : State} (n : _) (hs : Grows s0 s) :
    Grows s0 (State.replayXng s n) := by
  unfold State.replayXng; try dsimp only
  repeat' first
    | with_reducible first
      | assumption | apply State.addFld_grows | apply State.replayFlits_grows | apply State.updXng_grows
    | intro _
    | split
    | dsimp only

theorem State.sendNak_grows {s0 : State} {s : State} (n : _) (hs : Grows s0 s) :
    Grows s0 (State.sendNak s n) := by
  unfold State.sendNak; try dsimp only
  repeat' first
    | with_reducible first
      | assumption | apply State.sendIdle_grows | apply State.updXng_grows
    | intro _
    | split
    | dsimp only

theorem State.takeFlits_grows {s0 : State} {s : State} (n : _) (seq : _) (bytes : _) (hs : Grows s0 s) :
    Grows s0 (State.takeFlits s n seq bytes) := by
  unfold State.takeFlits; try dsimp only
  repeat' first
    | with_reducible first
      | assumption | apply State.deliver_grows | apply State.sendIdle_grows | apply State.updXng_grows
    | intro _
    | split
    | dsimp only

theorem State.tagFailed_grows {s0 : State} {s : State} (n : _) (hs : Grows s0 s) :
    Grows s0 (State.tagFailed s n) := by
  unfold State.tagFailed; try dsimp only
  repeat' first
    | with_reducible first
      | assumption | apply State.addFld_grows | apply State.sendNak_grows | apply State.updXng_grows
      | apply State.xngDown_grows
    | intro _
    | split
    | dsimp only

theorem sequenced_grows {s0 : State} (n : _) (f : _) (tagOk : _) (plain : _) {s : State} (hs : Grows s0 s) :
    Grows s0 (sequenced n f tagOk plain s) := by
  unfold sequenced; try dsimp only
  repeat' first
    | with_reducible first
      | assumption | apply State.count_grows | apply State.sendNak_grows | apply State.tagFailed_grows
      | apply State.takeFlits_grows | apply State.updXng_grows
    | intro _
    | split
    | dsimp only

theorem receiveFlit_grows {s0 : State} (n : _) (f : _) (tagOk : _) (plain : _) {s : State} (hs : Grows s0 s) :
    Grows s0 (receiveFlit n f tagOk plain s) := by
  unfold receiveFlit; try dsimp only
  repeat' first
    | with_reducible first
      | assumption | apply State.replayXng_grows | apply State.sendNak_grows | apply State.updXng_grows
      | apply sequenced_grows
    | intro _
    | split
    | dsimp only

theorem execXngFlitReceive_grows {s0 : State} (n : _) (flit : _) (tagOk : _) (plain : _) {s : State} (hs : Grows s0 s) :
    OutGrows s0 (execXngFlitReceive n flit tagOk plain s) := by
  unfold execXngFlitReceive; try dsimp only
  repeat' first
    | with_reducible first
      | assumption | apply OutGrows.next | apply receiveFlit_grows
    | intro _
    | split
    | dsimp only

theorem State.dataFlit_grows {s0 : State} {s : State} (n : _) (hs : Grows s0 s) :
    Grows s0 (State.dataFlit s n) := by
  unfold State.dataFlit; try dsimp only
  repeat' first
    | with_reducible first
      | assumption | apply State.freeBytes_grows | apply State.sendFlit_grows | apply State.setXng_grows
    | intro _
    | split
    | dsimp only

theorem State.flushFlits_grows {s0 : State} {s : State} (n : _) (x2 : _) (hs : Grows s0 s) :
    Grows s0 (State.flushFlits s n x2) := by
  induction x2 generalizing s with
  | zero =>
    unfold State.flushFlits; try dsimp only
    repeat' first
      | with_reducible first
        | assumption | apply State.dataFlit_grows
      | intro _
      | split
      | dsimp only
  | succ _ ih =>
    unfold State.flushFlits; try dsimp only
    repeat' first
      | with_reducible first
        | assumption | apply State.dataFlit_grows | apply ih
      | intro _
      | split
      | dsimp only

theorem State.newKey_grows {s0 : State} {s : State} (n : _) (hs : Grows s0 s) :
    Grows s0 (State.newKey s n) := by
  unfold State.newKey; try dsimp only
  repeat' first
    | with_reducible first
      | assumption | apply State.updXng_grows
    | intro _
    | split
    | dsimp only

theorem closeGroup_grows {s0 : State} (n : _) {s : State} (hs : Grows s0 s) :
    Grows s0 (closeGroup n s) := by
  unfold closeGroup; try dsimp only
  repeat' first
    | with_reducible first
      | assumption | apply State.dataFlit_grows | apply State.flushFlits_grows | apply State.freeBytes_grows
      | apply State.newKey_grows | apply State.sendFlit_grows | apply State.updXng_grows
    | intro _
    | split
    | dsimp only

theorem execTagGroupClose_grows {s0 : State} (n : _) {s : State} (hs : Grows s0 s) :
    OutGrows s0 (execTagGroupClose n s) := by
  unfold execTagGroupClose; try dsimp only
  repeat' first
    | with_reducible first
      | assumption | apply OutGrows.next | apply closeGroup_grows
    | intro _
    | split
    | dsimp only

theorem State.rekey_grows {s0 : State} {s : State} (n : _) (hs : Grows s0 s) :
    Grows s0 (State.rekey s n) := by
  unfold State.rekey; try dsimp only
  repeat' first
    | with_reducible first
      | assumption | apply State.newKey_grows | apply State.setFld_grows | apply State.updXng_grows
      | apply State.xngDown_grows
    | intro _
    | split
    | dsimp only

theorem execXngRekey_grows {s0 : State} (r : _) (n : _) {s : State} (hs : Grows s0 s) :
    OutGrows s0 (execXngRekey r n s) := by
  unfold execXngRekey; try dsimp only
  repeat' first
    | with_reducible first
      | assumption | apply OutGrows.next | apply State.access_grows | apply State.rekey_grows
    | intro _
    | split
    | dsimp only

theorem execRekeyDue_grows {s0 : State} (n : _) {s : State} (hs : Grows s0 s) :
    OutGrows s0 (execRekeyDue n s) := by
  unfold execRekeyDue; try dsimp only
  repeat' first
    | with_reducible first
      | assumption | apply OutGrows.next | apply State.rekey_grows
    | intro _
    | split
    | dsimp only

theorem errorTick_grows {s0 : State} (n : _) (laneCorr : _) {s : State} (hs : Grows s0 s) :
    Grows s0 (errorTick n laneCorr s) := by
  unfold errorTick; try dsimp only
  repeat' first
    | with_reducible first
      | assumption | apply State.report_grows | apply State.setBit_grows | apply State.setXng_grows
      | apply State.xngRetrain_grows
    | intro _
    | split
    | dsimp only

theorem execXngErrorRateTick_grows {s0 : State} (n : _) (laneCorr : _) {s : State} (hs : Grows s0 s) :
    OutGrows s0 (execXngErrorRateTick n laneCorr s) := by
  unfold execXngErrorRateTick; try dsimp only
  repeat' first
    | with_reducible first
      | assumption | apply OutGrows.next | apply errorTick_grows
    | intro _
    | split
    | dsimp only

theorem State.dropLostPkts_grows {s0 : State} {s : State} (hs : Grows s0 s) :
    Grows s0 (State.dropLostPkts s) := by
  unfold State.dropLostPkts; try dsimp only
  repeat' first
    | with_reducible first
      | assumption | apply Grows.foldl | apply Grows.foldl1 | apply Grows.foldlDev | apply Grows.foldlMv
      | apply Grows.foldlDn | apply State.dropPkt_grows
    | intro _
    | split
    | with_reducible apply Grows.lit
    | dsimp only

theorem State.packPkt_grows {s0 : State} {s : State} (n : _) (p : _) (hs : Grows s0 s) :
    Grows s0 (State.packPkt s n p) := by
  unfold State.packPkt; try dsimp only
  repeat' first
    | with_reducible first
      | assumption | apply State.flushFlits_grows | apply State.setXng_grows
    | intro _
    | split
    | dsimp only

theorem sendPkt_grows {s0 : State} (n : _) {s : State} (hs : Grows s0 s) :
    Grows s0 (sendPkt n s) := by
  unfold sendPkt; try dsimp only
  repeat' first
    | with_reducible first
      | assumption | apply State.count_grows | apply State.dataFlit_grows | apply State.dropLostPkts_grows
      | apply State.flushFlits_grows | apply State.freeBuf_grows | apply State.packPkt_grows
      | apply State.sendIdle_grows | apply State.setColl_grows
    | intro _
    | split
    | with_reducible apply Grows.lit
    | dsimp only

theorem execXngPacketSend_grows {s0 : State} (n : _) {s : State} (hs : Grows s0 s) :
    OutGrows s0 (execXngPacketSend n s) := by
  unfold execXngPacketSend; try dsimp only
  repeat' first
    | with_reducible first
      | assumption | apply OutGrows.next | apply sendPkt_grows
    | intro _
    | split
    | dsimp only

/-! ### Groups -/

theorem State.tryForm_grows {s0 : State} {s : State} (g : _) (hs : Grows s0 s) :
    Grows s0 (State.tryForm s g) := by
  unfold State.tryForm; try dsimp only
  repeat' first
    | with_reducible first
      | assumption | apply State.finishCmd_grows | apply State.setGrp_grows
    | intro _
    | split
    | dsimp only

theorem State.formFailed_grows {s0 : State} {s : State} (g : _) (status : _) (hs : Grows s0 s) :
    Grows s0 (State.formFailed s g status) := by
  unfold State.formFailed; try dsimp only
  repeat' first
    | with_reducible first
      | assumption | apply State.finishCmd_grows | apply State.updGrp_grows
    | intro _
    | split
    | dsimp only

theorem State.answerForm_grows {s0 : State} {s : State} (g : _) (q : _) (digest : _) (ack : _) (hs : Grows s0 s) :
    Grows s0 (State.answerForm s g q digest ack) := by
  unfold State.answerForm; try dsimp only
  repeat' first
    | with_reducible first
      | assumption | apply State.formFailed_grows | apply State.postPkt_grows | apply State.tryForm_grows
      | apply State.updGrp_grows
    | intro _
    | split
    | dsimp only

theorem startForm_grows {s0 : State} (k : _) (c : _) (ids : _) {s : State} (hs : Grows s0 s) :
    Grows s0 (startForm k c ids s) := by
  unfold startForm; try dsimp only
  repeat' first
    | with_reducible first
      | assumption | apply Grows.foldl | apply Grows.foldl1 | apply Grows.foldlDev | apply Grows.foldlMv
      | apply Grows.foldlDn | apply State.answerForm_grows | apply State.postAll_grows | apply State.runCmd_grows
      | apply State.updGrp_grows
    | intro _
    | split
    | with_reducible apply Grows.lit
    | dsimp only

theorem formCmd_grows {s0 : State} (ids : _) (k : _) (c : _) {s : State} (hs : Grows s0 s) :
    Grows s0 (formCmd ids k c s) := by
  unfold formCmd; try dsimp only
  repeat' first
    | with_reducible first
      | assumption | apply State.hostDma_grows | apply State.instant_grows | apply startForm_grows
    | intro _
    | split
    | dsimp only

theorem execGroupForm_grows {s0 : State} (g : _) (ids : _) {s : State} (hs : Grows s0 s) :
    OutGrows s0 (execGroupForm g ids s) := by
  unfold execGroupForm; try dsimp only
  repeat' first
    | with_reducible first
      | assumption | apply OutGrows.next | apply formCmd_grows | apply startCmd_grows
    | intro _
    | split
    | dsimp only

theorem State.endColls_grows {s0 : State} {s : State} (g : _) (status : _) (hs : Grows s0 s) :
    Grows s0 (State.endColls s g status) := by
  unfold State.endColls; try dsimp only
  repeat' first
    | with_reducible first
      | assumption | apply Grows.foldl | apply Grows.foldl1 | apply Grows.foldlDev | apply Grows.foldlMv
      | apply Grows.foldlDn | apply State.endColl_grows
    | intro _
    | split
    | dsimp only

theorem dissolve_grows {s0 : State} (g : _) {s : State} (hs : Grows s0 s) :
    Grows s0 (dissolve g s) := by
  unfold dissolve; try dsimp only
  repeat' first
    | with_reducible first
      | assumption | apply State.endColls_grows | apply State.formFailed_grows | apply State.setGrp_grows
    | intro _
    | split
    | dsimp only

theorem dissolveCmd_grows {s0 : State} (k : _) (c : _) {s : State} (hs : Grows s0 s) :
    Grows s0 (dissolveCmd k c s) := by
  unfold dissolveCmd; try dsimp only
  repeat' first
    | with_reducible first
      | assumption | apply State.instant_grows | apply dissolve_grows
    | intro _
    | split
    | dsimp only

theorem execGroupDissolve_grows {s0 : State} (g : _) {s : State} (hs : Grows s0 s) :
    OutGrows s0 (execGroupDissolve g s) := by
  unfold execGroupDissolve; try dsimp only
  repeat' first
    | with_reducible first
      | assumption | apply OutGrows.next | apply dissolveCmd_grows | apply startCmd_grows
    | intro _
    | split
    | dsimp only

theorem State.pktIn_grows {s0 : State} {s : State} (kind : _) (src : _) (gid : _) (epoch : _) (seq : _) (hs : Grows s0 s) :
    Grows s0 (State.pktIn s kind src gid epoch seq) := by
  unfold State.pktIn; try dsimp only
  repeat' first
    | with_reducible first
      | assumption | apply State.freeBuf_grows
    | intro _
    | split
    | with_reducible apply Grows.lit
    | dsimp only

theorem State.stale_grows {s0 : State} {s : State} (hs : Grows s0 s) :
    Grows s0 (State.stale s) := by
  unfold State.stale; try dsimp only
  repeat' first
    | with_reducible first
      | assumption | apply State.count_grows
    | intro _
    | split
    | dsimp only

theorem State.heard_grows {s0 : State} {s : State} (g : _) (src : _) (hs : Grows s0 s) :
    Grows s0 (State.heard s g src) := by
  unfold State.heard; try dsimp only
  repeat' first
    | with_reducible first
      | assumption | apply State.updGrp_grows
    | intro _
    | split
    | dsimp only

theorem joinIn_grows {s0 : State} (src : _) (gid : _) (epoch : _) (digest : _) {s : State} (hs : Grows s0 s) :
    Grows s0 (joinIn src gid epoch digest s) := by
  unfold joinIn; try dsimp only
  repeat' first
    | with_reducible first
      | assumption | apply State.answerForm_grows | apply State.heard_grows | apply State.postPkt_grows
      | apply State.stale_grows
    | intro _
    | split
    | with_reducible apply Grows.lit
    | dsimp only

theorem execJoin_grows {s0 : State} (src : _) (gid : _) (epoch : _) (digest : _) {s : State} (hs : Grows s0 s) :
    OutGrows s0 (execJoin src gid epoch digest s) := by
  unfold execJoin; try dsimp only
  repeat' first
    | with_reducible first
      | assumption | apply OutGrows.next | apply State.pktIn_grows | apply joinIn_grows
    | intro _
    | split
    | dsimp only

theorem joinAckIn_grows {s0 : State} (src : _) (gid : _) (epoch : _) (digest : _) {s : State} (hs : Grows s0 s) :
    Grows s0 (joinAckIn src gid epoch digest s) := by
  unfold joinAckIn; try dsimp only
  repeat' first
    | with_reducible first
      | assumption | apply State.answerForm_grows | apply State.heard_grows | apply State.stale_grows
    | intro _
    | split
    | dsimp only

theorem execJoinAck_grows {s0 : State} (src : _) (gid : _) (epoch : _) (digest : _) {s : State} (hs : Grows s0 s) :
    OutGrows s0 (execJoinAck src gid epoch digest s) := by
  unfold execJoinAck; try dsimp only
  repeat' first
    | with_reducible first
      | assumption | apply OutGrows.next | apply State.pktIn_grows | apply joinAckIn_grows
    | intro _
    | split
    | dsimp only

theorem execJoinKeepExpiry_grows {s0 : State} (i : _) {s : State} (hs : Grows s0 s) :
    OutGrows s0 (execJoinKeepExpiry i s) := by
  unfold execJoinKeepExpiry; try dsimp only
  repeat' first
    | with_reducible first
      | assumption | apply OutGrows.next
    | intro _
    | split
    | with_reducible apply Grows.lit
    | dsimp only

theorem execGrpTimeout_grows {s0 : State} (g : _) {s : State} (hs : Grows s0 s) :
    OutGrows s0 (execGrpTimeout g s) := by
  unfold execGrpTimeout; try dsimp only
  repeat' first
    | with_reducible first
      | assumption | apply OutGrows.next | apply State.formFailed_grows
    | intro _
    | split
    | dsimp only

theorem beat_grows {s0 : State} (g : _) {s : State} (hs : Grows s0 s) :
    Grows s0 (beat g s) := by
  unfold beat; try dsimp only
  repeat' first
    | with_reducible first
      | assumption | apply Grows.foldl | apply Grows.foldl1 | apply Grows.foldlDev | apply Grows.foldlMv
      | apply Grows.foldlDn | apply State.postPkt_grows
    | intro _
    | split
    | dsimp only

theorem execHeartbeatSend_grows {s0 : State} (g : _) {s : State} (hs : Grows s0 s) :
    OutGrows s0 (execHeartbeatSend g s) := by
  unfold execHeartbeatSend; try dsimp only
  repeat' first
    | with_reducible first
      | assumption | apply OutGrows.next | apply beat_grows
    | intro _
    | split
    | dsimp only

theorem groupPkt_grows {s0 : State} (src : _) (gid : _) (epoch : _) (f : _) {s : State} (hf : ∀ c u, Grows s0 u → Grows s0 (f c u)) (hs : Grows s0 s) :
    Grows s0 (groupPkt src gid epoch f s) := by
  unfold groupPkt; try dsimp only
  repeat' first
    | with_reducible first
      | assumption | apply hf | apply State.heard_grows | apply State.stale_grows
    | intro _
    | split
    | dsimp only

theorem execHeartbeat_grows {s0 : State} (src : _) (gid : _) (epoch : _) {s : State} (hs : Grows s0 s) :
    OutGrows s0 (execHeartbeat src gid epoch s) := by
  unfold execHeartbeat; try dsimp only
  repeat' first
    | with_reducible first
      | assumption | apply OutGrows.next | apply State.pktIn_grows | apply groupPkt_grows
    | intro _
    | split
    | dsimp only

theorem sever_grows {s0 : State} (g : _) {s : State} (hs : Grows s0 s) :
    Grows s0 (sever g s) := by
  unfold sever; try dsimp only
  repeat' first
    | with_reducible first
      | assumption | apply State.endColls_grows | apply State.postAll_grows | apply State.setBit_grows
      | apply State.setGrp_grows
    | intro _
    | split
    | dsimp only

theorem execHeartbeatTimeout_grows {s0 : State} (g : _) (_next : _) {s : State} (hs : Grows s0 s) :
    OutGrows s0 (execHeartbeatTimeout g _next s) := by
  unfold execHeartbeatTimeout; try dsimp only
  repeat' first
    | with_reducible first
      | assumption | apply OutGrows.next | apply sever_grows
    | intro _
    | split
    | dsimp only

theorem execSever_grows {s0 : State} (src : _) (gid : _) (epoch : _) {s : State} (hs : Grows s0 s) :
    OutGrows s0 (execSever src gid epoch s) := by
  unfold execSever; try dsimp only
  repeat' first
    | with_reducible first
      | assumption | apply OutGrows.next | apply State.pktIn_grows | apply groupPkt_grows | apply sever_grows
    | intro _
    | split
    | dsimp only

theorem lostIn_grows {s0 : State} (seq : _) (g : _) {s : State} (hs : Grows s0 s) :
    Grows s0 (lostIn seq g s) := by
  unfold lostIn; try dsimp only
  repeat' first
    | with_reducible first
      | assumption | apply State.endColl_grows
    | intro _
    | split
    | dsimp only

theorem execLost_grows {s0 : State} (src : _) (gid : _) (epoch : _) (seq : _) {s : State} (hs : Grows s0 s) :
    OutGrows s0 (execLost src gid epoch seq s) := by
  unfold execLost; try dsimp only
  repeat' first
    | with_reducible first
      | assumption | apply OutGrows.next | apply State.pktIn_grows | apply groupPkt_grows | apply lostIn_grows
    | intro _
    | split
    | dsimp only

theorem creditIn_grows {s0 : State} (src : _) (amount : _) {s : State} (hs : Grows s0 s) :
    Grows s0 (creditIn src amount s) := by
  unfold creditIn; try dsimp only
  repeat' first
    | with_reducible first
      | assumption
    | intro _
    | split
    | with_reducible apply Grows.lit
    | dsimp only

theorem State.creditPktIn_grows {s0 : State} {s : State} (src : _) (hs : Grows s0 s) :
    Grows s0 (State.creditPktIn s src) := by
  unfold State.creditPktIn; try dsimp only
  repeat' first
    | with_reducible first
      | assumption | apply State.pktIn_grows
    | intro _
    | split
    | dsimp only

theorem execE2eCredit_grows {s0 : State} (src : _) (amount : _) {s : State} (hs : Grows s0 s) :
    OutGrows s0 (execE2eCredit src amount s) := by
  unfold execE2eCredit; try dsimp only
  repeat' first
    | with_reducible first
      | assumption | apply OutGrows.next | apply State.creditPktIn_grows | apply creditIn_grows
    | intro _
    | split
    | dsimp only

theorem applyData_grows {s0 : State} (e : _) (n : _) (C : _) (q : _) (off : _) (data : _) (bad : _) {s : State} (hs : Grows s0 s) :
    Grows s0 (applyData e n C q off data bad s) := by
  unfold applyData; try dsimp only
  repeat' first
    | with_reducible first
      | assumption | apply Grows.foldl | apply Grows.foldl1 | apply Grows.foldlDev | apply Grows.foldlMv
      | apply Grows.foldlDn | apply State.addSap_grows | apply State.countColl_grows | apply State.devWrite_grows
      | apply State.setColl_grows
    | intro _
    | split
    | dsimp only

theorem dataIn_grows {s0 : State} (src : _) (seq : _) (like : _) (off : _) (data : _) (bad : _) (g : _) {s : State} (hs : Grows s0 s) :
    Grows s0 (dataIn src seq like off data bad g s) := by
  unfold dataIn; try dsimp only
  repeat' first
    | with_reducible first
      | assumption | apply State.endColl_grows | apply State.sendLost_grows | apply applyData_grows
    | intro _
    | split
    | dsimp only

theorem execDataPacket_grows {s0 : State} (src : _) (gid : _) (epoch : _) (seq : _) (like : _) (off : _) (data : _) (poison : _) {s : State} (hs : Grows s0 s) :
    OutGrows s0 (execDataPacket src gid epoch seq like off data poison s) := by
  unfold execDataPacket; try dsimp only
  repeat' first
    | with_reducible first
      | assumption | apply OutGrows.next | apply State.pktIn_grows | apply dataIn_grows | apply groupPkt_grows
    | intro _
    | split
    | dsimp only

end Sys2Proof.Machine
end

