-- ==== Sys2Proof/Laws/GrowsPackage.lean ====
section
/-!
SUPPORT. Laws/GrowsPackage.lean: no operation takes back what `Grows` names: one lemma per operation of boot, security, debug, governing, the tollhouse and the register map.
-/
set_option linter.unusedTactic false
set_option linter.unreachableTactic false
set_option linter.unusedVariables false
set_option linter.unusedSimpArgs false

namespace Sys2Proof.Machine

variable {s0 : State}

/-! ### Store -/

theorem State.storePut_grows {s0 : State} {s : State} (a : _) (bytes : _) (hs : Grows s0 s) :
    Grows s0 (State.storePut s a bytes) := by
  unfold State.storePut; try dsimp only
  repeat' first
    | with_reducible first
      | assumption
    | intro _
    | split
    | with_reducible apply Grows.lit
    | dsimp only

theorem State.storeErase_grows {s0 : State} {s : State} (a : _) (b : _) (hs : Grows s0 s) :
    Grows s0 (State.storeErase s a b) := by
  unfold State.storeErase; try dsimp only
  repeat' first
    | with_reducible first
      | assumption
    | intro _
    | split
    | with_reducible apply Grows.lit
    | dsimp only

theorem State.bootLog_grows {s0 : State} {s : State} (stage : _) (reason : _) (hs : Grows s0 s) :
    Grows s0 (State.bootLog s stage reason) := by
  unfold State.bootLog; try dsimp only
  repeat' first
    | with_reducible first
      | assumption | apply State.freeBytes_grows | apply State.storePut_grows
    | intro _
    | split
    | with_reducible apply Grows.lit
    | dsimp only

theorem State.attemptPut_grows {s0 : State} {s : State} (i : _) (kind : _) (hs : Grows s0 s) :
    Grows s0 (State.attemptPut s i kind) := by
  unfold State.attemptPut; try dsimp only
  repeat' first
    | with_reducible first
      | assumption | apply State.storePut_grows
    | intro _
    | split
    | dsimp only

theorem State.attemptWrite_grows {s0 : State} {s : State} (kind : _) (hs : Grows s0 s) :
    Grows s0 (State.attemptWrite s kind) := by
  unfold State.attemptWrite; try dsimp only
  repeat' first
    | with_reducible first
      | assumption | apply Grows.foldl | apply Grows.foldl1 | apply Grows.foldlDev | apply Grows.foldlMv
      | apply Grows.foldlDn | apply State.attemptPut_grows | apply State.storeErase_grows
    | intro _
    | split
    | dsimp only

theorem State.showAttempts_grows {s0 : State} {s : State} (hs : Grows s0 s) :
    Grows s0 (State.showAttempts s) := by
  unfold State.showAttempts; try dsimp only
  repeat' first
    | with_reducible first
      | assumption | apply State.setFld_grows
    | intro _
    | split
    | dsimp only

theorem storeCmd_grows {s0 : State} (c : _) {s : State} (hs : Grows s0 s) :
    Grows s0 (storeCmd c s) := by
  unfold storeCmd; try dsimp only
  repeat' first
    | with_reducible first
      | assumption | apply State.setBit_grows | apply State.setFld_grows
    | intro _
    | split
    | with_reducible apply Grows.lit
    | dsimp only

theorem execSstoreRead_grows {s0 : State} (r : _) {s : State} (hs : Grows s0 s) :
    OutGrows s0 (execSstoreRead r s) := by
  unfold execSstoreRead; try dsimp only
  repeat' first
    | with_reducible first
      | assumption | apply OutGrows.next | apply State.access_grows | apply storeCmd_grows
    | intro _
    | split
    | dsimp only

theorem execSstoreProgram_grows {s0 : State} (r : _) {s : State} (hs : Grows s0 s) :
    OutGrows s0 (execSstoreProgram r s) := by
  unfold execSstoreProgram; try dsimp only
  repeat' first
    | with_reducible first
      | assumption | apply OutGrows.next | apply State.access_grows | apply storeCmd_grows
    | intro _
    | split
    | dsimp only

theorem execSstoreErase_grows {s0 : State} (r : _) {s : State} (hs : Grows s0 s) :
    OutGrows s0 (execSstoreErase r s) := by
  unfold execSstoreErase; try dsimp only
  repeat' first
    | with_reducible first
      | assumption | apply OutGrows.next | apply State.access_grows | apply storeCmd_grows
    | intro _
    | split
    | dsimp only

theorem storeEffect_grows {s0 : State} (c : _) (a : _) {s : State} (hs : Grows s0 s) :
    Grows s0 (storeEffect c a s).1 := by
  unfold storeEffect; try dsimp only
  repeat' first
    | with_reducible first
      | assumption | apply Grows.foldl | apply Grows.foldl1 | apply Grows.foldlDev | apply Grows.foldlMv
      | apply Grows.foldlDn | apply State.setReg_grows | apply State.storeErase_grows | apply State.storePut_grows
    | intro _
    | split
    | dsimp only

theorem execSstoreDone_grows {s0 : State} (ok : _) {s : State} (hs : Grows s0 s) :
    OutGrows s0 (execSstoreDone ok s) := by
  unfold execSstoreDone; try dsimp only
  repeat' first
    | with_reducible first
      | assumption | apply OutGrows.next | apply State.setFld_grows | apply storeEffect_grows
    | intro _
    | split
    | with_reducible apply Grows.lit
    | dsimp only

theorem execClrAttempts_grows {s0 : State} (r : _) {s : State} (hs : Grows s0 s) :
    OutGrows s0 (execClrAttempts r s) := by
  unfold execClrAttempts; try dsimp only
  repeat' first
    | with_reducible first
      | assumption | apply OutGrows.next | apply State.access_grows | apply State.attemptWrite_grows
      | apply State.showAttempts_grows
    | intro _
    | split
    | dsimp only

theorem writeNextSlot_grows {s0 : State} (v : _) {s : State} (hs : Grows s0 s) :
    Grows s0 (writeNextSlot v s) := by
  unfold writeNextSlot; try dsimp only
  repeat' first
    | with_reducible first
      | assumption
    | intro _
    | split
    | with_reducible apply Grows.lit
    | dsimp only

theorem execNextSlot_grows {s0 : State} (r : _) (v : _) {s : State} (hs : Grows s0 s) :
    OutGrows s0 (execNextSlot r v s) := by
  unfold execNextSlot; try dsimp only
  repeat' first
    | with_reducible first
      | assumption | apply OutGrows.next | apply State.access_grows | apply writeNextSlot_grows
    | intro _
    | split
    | dsimp only

/-! ### Ferry -/

theorem State.readFerry_grows {s0 : State} {s : State} (i : _) (x : _) (hs : Grows s0 s) :
    Grows s0 (State.readFerry s i x) := by
  unfold State.readFerry; try dsimp only
  repeat' first
    | with_reducible first
      | assumption | apply Grows.foldl | apply Grows.foldl1 | apply Grows.foldlDev | apply Grows.foldlMv
      | apply Grows.foldlDn | apply State.setReg_grows
    | intro _
    | split
    | dsimp only

theorem State.setFerry_grows {s0 : State} {s : State} (i : _) (state : _) (reason : _) (modules : _) (ucie2 : _) (hs : Grows s0 s) :
    Grows s0 (State.setFerry s i state reason modules ucie2) := by
  unfold State.setFerry; try dsimp only
  repeat' first
    | with_reducible first
      | assumption | apply State.setReg_grows
    | intro _
    | split
    | dsimp only

theorem State.setFerryMeas_grows {s0 : State} {s : State} (i : _) (m : _) (hs : Grows s0 s) :
    Grows s0 (State.setFerryMeas s i m) := by
  unfold State.setFerryMeas; try dsimp only
  repeat' first
    | with_reducible first
      | assumption
    | intro _
    | split
    | with_reducible apply Grows.lit
    | dsimp only

theorem State.markLane_grows {s0 : State} {s : State} (n : _) (hs : Grows s0 s) :
    Grows s0 (State.markLane s n) := by
  unfold State.markLane; try dsimp only
  repeat' first
    | with_reducible first
      | assumption | apply State.updXng_grows
    | intro _
    | split
    | dsimp only

theorem State.admitFerry_grows {s0 : State} {s : State} (i : _) (x : _) (hs : Grows s0 s) :
    Grows s0 (State.admitFerry s i x) := by
  unfold State.admitFerry; try dsimp only
  repeat' first
    | with_reducible first
      | assumption | apply Grows.foldl | apply Grows.foldl1 | apply Grows.foldlDev | apply Grows.foldlMv
      | apply Grows.foldlDn | apply State.markLane_grows | apply State.readFerry_grows
      | apply State.setFerryMeas_grows | apply State.setFerry_grows | apply State.xngDetect_grows
    | intro _
    | split
    | dsimp only

theorem State.rejectFerry_grows {s0 : State} {s : State} (i : _) (x : _) (reason : _) (hs : Grows s0 s) :
    Grows s0 (State.rejectFerry s i x reason) := by
  unfold State.rejectFerry; try dsimp only
  repeat' first
    | with_reducible first
      | assumption | apply Grows.foldl | apply Grows.foldl1 | apply Grows.foldlDev | apply Grows.foldlMv
      | apply Grows.foldlDn | apply State.bootLog_grows | apply State.readFerry_grows | apply State.send_grows
      | apply State.setFerryMeas_grows | apply State.setFerry_grows | apply State.xngDark_grows
    | intro _
    | split
    | dsimp only

theorem execFerryAdmission_grows {s0 : State} (i : _) (x : _) {s : State} (hs : Grows s0 s) :
    OutGrows s0 (execFerryAdmission i x s) := by
  unfold execFerryAdmission; try dsimp only
  repeat' first
    | with_reducible first
      | assumption | apply OutGrows.next | apply State.admitFerry_grows | apply State.rejectFerry_grows
    | intro _
    | split
    | dsimp only

theorem State.ferryXngLost_grows {s0 : State} {s : State} (n : _) (hs : Grows s0 s) :
    Grows s0 (State.ferryXngLost s n) := by
  unfold State.ferryXngLost; try dsimp only
  repeat' first
    | with_reducible first
      | assumption | apply State.xngDown_grows
    | intro _
    | split
    | dsimp only

theorem State.loseFerry_grows {s0 : State} {s : State} (i : _) (hs : Grows s0 s) :
    Grows s0 (State.loseFerry s i) := by
  unfold State.loseFerry; try dsimp only
  repeat' first
    | with_reducible first
      | assumption | apply Grows.foldl | apply Grows.foldl1 | apply Grows.foldlDev | apply Grows.foldlMv
      | apply Grows.foldlDn | apply State.ferryXngLost_grows | apply State.setFerryMeas_grows
      | apply State.setFerry_grows | apply hotResetNow_grows
    | intro _
    | split
    | dsimp only

theorem execFerryLost_grows {s0 : State} (i : _) (hot : _) {s : State} (hs : Grows s0 s) :
    OutGrows s0 (execFerryLost i hot s) := by
  unfold execFerryLost; try dsimp only
  repeat' first
    | with_reducible first
      | assumption | apply OutGrows.next | apply State.alert_grows | apply State.loseFerry_grows
    | intro _
    | split
    | dsimp only

theorem readmit_grows {s0 : State} (i : _) {s : State} (hs : Grows s0 s) :
    Grows s0 (readmit i s) := by
  unfold readmit; try dsimp only
  repeat' first
    | with_reducible first
      | assumption | apply Grows.foldl | apply Grows.foldl1 | apply Grows.foldlDev | apply Grows.foldlMv
      | apply Grows.foldlDn | apply State.ferryXngLost_grows | apply State.setFerryMeas_grows
      | apply State.setFerry_grows
    | intro _
    | split
    | dsimp only

theorem execFerryReadmit_grows {s0 : State} (r : _) (i : _) {s : State} (hs : Grows s0 s) :
    OutGrows s0 (execFerryReadmit r i s) := by
  unfold execFerryReadmit; try dsimp only
  repeat' first
    | with_reducible first
      | assumption | apply OutGrows.next | apply State.access_grows | apply readmit_grows
    | intro _
    | split
    | dsimp only

/-! ### Flood -/

theorem State.updReceiver_grows {s0 : State} {s : State} (r : _) (f : _) (hs : Grows s0 s) :
    Grows s0 (State.updReceiver s r f) := by
  unfold State.updReceiver; try dsimp only
  repeat' first
    | with_reducible first
      | assumption
    | intro _
    | split
    | with_reducible apply Grows.lit
    | dsimp only

theorem State.startFlood_grows {s0 : State} {s : State} (hs : Grows s0 s) :
    Grows s0 (State.startFlood s) := by
  unfold State.startFlood; try dsimp only
  repeat' first
    | with_reducible first
      | assumption | apply State.setReg_grows
    | intro _
    | split
    | with_reducible apply Grows.lit
    | dsimp only

theorem State.installBlock_grows {s0 : State} {s : State} (r : _) (num : _) (data : _) (hs : Grows s0 s) :
    Grows s0 (State.installBlock s r num data) := by
  unfold State.installBlock; try dsimp only
  repeat' first
    | with_reducible first
      | assumption | apply State.updPlot_grows | apply State.updSlc_grows | apply State.updStk_grows
    | intro _
    | split
    | dsimp only

theorem execFloodBlock_grows {s0 : State} (r : _) (num : _) (data : _) {s : State} (hs : Grows s0 s) :
    OutGrows s0 (execFloodBlock r num data s) := by
  unfold execFloodBlock; try dsimp only
  repeat' first
    | with_reducible first
      | assumption | apply OutGrows.next | apply State.installBlock_grows | apply State.updReceiver_grows
    | intro _
    | split
    | dsimp only

theorem State.startRound_grows {s0 : State} {s : State} (hs : Grows s0 s) :
    Grows s0 (State.startRound s) := by
  unfold State.startRound; try dsimp only
  repeat' first
    | with_reducible first
      | assumption | apply Grows.foldl | apply Grows.foldl1 | apply Grows.foldlDev | apply Grows.foldlMv
      | apply Grows.foldlDn | apply State.addFld_grows | apply State.updReceiver_grows
    | intro _
    | split
    | with_reducible apply Grows.lit
    | dsimp only

theorem execFloodRepairRequest_grows {s0 : State} {s : State} (hs : Grows s0 s) :
    OutGrows s0 (execFloodRepairRequest s) := by
  unfold execFloodRepairRequest; try dsimp only
  repeat' first
    | with_reducible first
      | assumption | apply OutGrows.next | apply State.startRound_grows
    | intro _
    | split
    | dsimp only

theorem State.holdReceiver_grows {s0 : State} {s : State} (r : _) (hs : Grows s0 s) :
    Grows s0 (State.holdReceiver s r) := by
  unfold State.holdReceiver; try dsimp only
  repeat' first
    | with_reducible first
      | assumption | apply State.failPlot_grows | apply State.setBit_grows | apply State.setReg_grows
      | apply State.updReceiver_grows | apply State.updSlc_grows
    | intro _
    | split
    | dsimp only

theorem State.endRound_grows {s0 : State} {s : State} (hs : Grows s0 s) :
    Grows s0 (State.endRound s) := by
  unfold State.endRound; try dsimp only
  repeat' first
    | with_reducible first
      | assumption | apply Grows.foldl | apply Grows.foldl1 | apply Grows.foldlDev | apply Grows.foldlMv
      | apply Grows.foldlDn | apply State.holdReceiver_grows | apply State.startRound_grows
    | intro _
    | split
    | with_reducible apply Grows.lit
    | dsimp only

theorem execFloodRoundEnd_grows {s0 : State} {s : State} (hs : Grows s0 s) :
    OutGrows s0 (execFloodRoundEnd s) := by
  unfold execFloodRoundEnd; try dsimp only
  repeat' first
    | with_reducible first
      | assumption | apply OutGrows.next | apply State.endRound_grows
    | intro _
    | split
    | dsimp only

/-! ### Ecc -/

theorem scrubWord_grows {s0 : State} {s : State} (k : _) (w : _) (hs : Grows s0 s) :
    Grows s0 (scrubWord s k w) := by
  unfold scrubWord; try dsimp only
  repeat' first
    | with_reducible first
      | assumption | apply State.putWord_grows | apply State.updSlc_grows | apply readWord_grows
    | intro _
    | split
    | dsimp only

theorem scrubBurst_grows {s0 : State} (k : _) (b : _) {s : State} (hs : Grows s0 s) :
    Grows s0 (scrubBurst k b s) := by
  unfold scrubBurst; try dsimp only
  repeat' first
    | with_reducible first
      | assumption | apply Grows.foldl | apply Grows.foldl1 | apply Grows.foldlDev | apply Grows.foldlMv
      | apply Grows.foldlDn | apply State.count_grows | apply State.updSlc_grows | apply scrubWord_grows
    | intro _
    | split
    | dsimp only

theorem execDemandScrub_grows {s0 : State} (p : _) {s : State} (hs : Grows s0 s) :
    OutGrows s0 (execDemandScrub p s) := by
  unfold execDemandScrub; try dsimp only
  repeat' first
    | with_reducible first
      | assumption | apply OutGrows.next | apply scrubBurst_grows
    | intro _
    | split
    | dsimp only

theorem patrolStep_grows {s0 : State} (k : _) {s : State} (hs : Grows s0 s) :
    Grows s0 (patrolStep k s) := by
  unfold patrolStep; try dsimp only
  repeat' first
    | with_reducible first
      | assumption | apply State.setFld_grows | apply State.updSlc_grows | apply scrubBurst_grows
    | intro _
    | split
    | dsimp only

theorem execPatrolScrub_grows {s0 : State} (p : _) {s : State} (hs : Grows s0 s) :
    OutGrows s0 (execPatrolScrub p s) := by
  unfold execPatrolScrub; try dsimp only
  repeat' first
    | with_reducible first
      | assumption | apply OutGrows.next | apply patrolStep_grows
    | intro _
    | split
    | dsimp only

theorem closeWindows_grows {s0 : State} (st : _) {s : State} (hs : Grows s0 s) :
    Grows s0 (closeWindows st s) := by
  unfold closeWindows; try dsimp only
  repeat' first
    | with_reducible first
      | assumption | apply Grows.foldl | apply Grows.foldl1 | apply Grows.foldlDev | apply Grows.foldlMv
      | apply Grows.foldlDn | apply State.clrBit_grows
    | intro _
    | split
    | dsimp only

theorem execEccWindowTick_grows {s0 : State} (st : _) {s : State} (hs : Grows s0 s) :
    OutGrows s0 (execEccWindowTick st s) := by
  unfold execEccWindowTick; try dsimp only
  repeat' first
    | with_reducible first
      | assumption | apply OutGrows.next | apply closeWindows_grows
    | intro _
    | split
    | dsimp only

theorem popRpt_grows {s0 : State} (f : _) {s : State} (hs : Grows s0 s) :
    Grows s0 (popRpt f s) := by
  unfold popRpt; try dsimp only
  repeat' first
    | with_reducible first
      | assumption | apply State.answer_grows | apply State.setErrf_grows | apply State.updErrf_grows
    | intro _
    | split
    | dsimp only

theorem execErrRptPop_grows {s0 : State} (r : _) (f : _) {s : State} (hs : Grows s0 s) :
    OutGrows s0 (execErrRptPop r f s) := by
  unfold execErrRptPop; try dsimp only
  repeat' first
    | with_reducible first
      | assumption | apply OutGrows.next | apply State.readAccess_grows | apply popRpt_grows
    | intro _
    | split
    | dsimp only

theorem startPpr_grows {s0 : State} (k : _) (v : _) {s : State} (hs : Grows s0 s) :
    Grows s0 (startPpr k v s) := by
  unfold startPpr; try dsimp only
  repeat' first
    | with_reducible first
      | assumption | apply State.setFld_grows | apply State.updSlc_grows
    | intro _
    | split
    | dsimp only

theorem execPprGo_grows {s0 : State} (r : _) (p : _) (v : _) {s : State} (hs : Grows s0 s) :
    OutGrows s0 (execPprGo r p v s) := by
  unfold execPprGo; try dsimp only
  repeat' first
    | with_reducible first
      | assumption | apply OutGrows.next | apply State.access_grows | apply State.setFld_grows
      | apply startPpr_grows
    | intro _
    | split
    | dsimp only

theorem finishPpr_grows {s0 : State} (k : _) {s : State} (hs : Grows s0 s) :
    Grows s0 (finishPpr k s) := by
  unfold finishPpr; try dsimp only
  repeat' first
    | with_reducible first
      | assumption | apply Grows.foldl | apply Grows.foldl1 | apply Grows.foldlDev | apply Grows.foldlMv
      | apply Grows.foldlDn | apply State.serveWaiting_grows | apply State.setFld_grows
      | apply State.storeWord_grows | apply State.updSlc_grows | apply readWord_grows
    | intro _
    | split
    | dsimp only

theorem execPprDone_grows {s0 : State} (p : _) {s : State} (hs : Grows s0 s) :
    OutGrows s0 (execPprDone p s) := by
  unfold execPprDone; try dsimp only
  repeat' first
    | with_reducible first
      | assumption | apply OutGrows.next | apply finishPpr_grows
    | intro _
    | split
    | dsimp only

/-! ### Boot -/

theorem State.bootTest_grows {s0 : State} {s : State} (test : _) (kind : _) (st : _) (idx : _) (hs : Grows s0 s) :
    Grows s0 (State.bootTest s test kind st idx) := by
  unfold State.bootTest; try dsimp only
  repeat' first
    | with_reducible first
      | assumption | apply State.startTest_grows
    | intro _
    | split
    | with_reducible apply Grows.lit
    | dsimp only

theorem State.bootTests_grows {s0 : State} {s : State} (st : _) (hs : Grows s0 s) :
    Grows s0 (State.bootTests s st) := by
  unfold State.bootTests; try dsimp only
  repeat' first
    | with_reducible first
      | assumption | apply Grows.foldl | apply Grows.foldl1 | apply Grows.foldlDev | apply Grows.foldlMv
      | apply Grows.foldlDn | apply State.bootTest_grows
    | intro _
    | split
    | dsimp only

theorem State.assignRecord_grows {s0 : State} {s : State} (n : _) (w : _) (hs : Grows s0 s) :
    Grows s0 (State.assignRecord s n w) := by
  unfold State.assignRecord; try dsimp only
  repeat' first
    | with_reducible first
      | assumption | apply State.assignPart_grows | apply State.bootLog_grows | apply State.setFld_grows
      | apply State.setPState_grows | apply State.updPart_grows
    | intro _
    | split
    | dsimp only

theorem State.assignRecords_grows {s0 : State} {s : State} (hs : Grows s0 s) :
    Grows s0 (State.assignRecords s) := by
  unfold State.assignRecords; try dsimp only
  repeat' first
    | with_reducible first
      | assumption | apply Grows.foldl | apply Grows.foldl1 | apply Grows.foldlDev | apply Grows.foldlMv
      | apply Grows.foldlDn | apply State.assignRecord_grows | apply State.clearStack_grows
      | apply State.requestVdd_grows
    | intro _
    | split
    | dsimp only

theorem State.stageHook_grows {s0 : State} {s : State} (k : _) (hs : Grows s0 s) :
    Grows s0 (State.stageHook s k) := by
  unfold State.stageHook; try dsimp only
  repeat' first
    | with_reducible first
      | assumption | apply Grows.foldl | apply Grows.foldl1 | apply Grows.foldlDev | apply Grows.foldlMv
      | apply Grows.foldlDn | apply State.assignRecords_grows | apply State.bootTests_grows
      | apply State.startFlood_grows
    | intro _
    | split
    | with_reducible apply Grows.lit
    | dsimp only

theorem State.startStage_grows {s0 : State} {s : State} (k : _) (hs : Grows s0 s) :
    Grows s0 (State.startStage s k) := by
  unfold State.startStage; try dsimp only
  repeat' first
    | with_reducible first
      | assumption | apply State.send_grows | apply State.setFld_grows | apply State.stageHook_grows
    | intro _
    | split
    | with_reducible apply Grows.lit
    | dsimp only

theorem State.startStages_grows {s0 : State} {s : State} (hs : Grows s0 s) :
    Grows s0 (State.startStages s) := by
  unfold State.startStages; try dsimp only
  repeat' first
    | with_reducible first
      | assumption | apply Grows.foldl | apply Grows.foldl1 | apply Grows.foldlDev | apply Grows.foldlMv
      | apply Grows.foldlDn | apply State.startStage_grows
    | intro _
    | split
    | dsimp only

theorem State.deriveKeys_grows {s0 : State} {s : State} (imgHash : _) (svn : _) (hs : Grows s0 s) :
    Grows s0 (State.deriveKeys s imgHash svn) := by
  unfold State.deriveKeys; try dsimp only
  repeat' first
    | with_reducible first
      | assumption
    | intro _
    | split
    | with_reducible apply Grows.lit
    | dsimp only

theorem State.fixMeas_grows {s0 : State} {s : State} (hs : Grows s0 s) :
    Grows s0 (State.fixMeas s) := by
  unfold State.fixMeas; try dsimp only
  repeat' first
    | with_reducible first
      | assumption
    | intro _
    | split
    | with_reducible apply Grows.lit
    | dsimp only

theorem State.lowWater_grows {s0 : State} {s : State} (stage : _) (reason : _) (hs : Grows s0 s) :
    Grows s0 (State.lowWater s stage reason) := by
  unfold State.lowWater; try dsimp only
  repeat' first
    | with_reducible first
      | assumption | apply State.bootLog_grows | apply State.deriveKeys_grows | apply State.fixMeas_grows
      | apply State.send_grows | apply State.setFld_grows
    | intro _
    | split
    | with_reducible apply Grows.lit
    | dsimp only

theorem State.restart_grows {s0 : State} {s : State} (stage : _) (reason : _) (hs : Grows s0 s) :
    Grows s0 (State.restart s stage reason) := by
  unfold State.restart; try dsimp only
  repeat' first
    | with_reducible first
      | assumption | apply State.bootLog_grows | apply State.clearPkg_grows | apply State.send_grows
      | apply State.setReg_grows | apply State.startBoot_grows
    | intro _
    | split
    | with_reducible apply Grows.lit
    | dsimp only

theorem State.failStart_grows {s0 : State} {s : State} (stage : _) (reason : _) (hs : Grows s0 s) :
    Grows s0 (State.failStart s stage reason) := by
  unfold State.failStart; try dsimp only
  repeat' first
    | with_reducible first
      | assumption | apply State.lowWater_grows | apply State.restart_grows
    | intro _
    | split
    | dsimp only

theorem State.endSettings_grows {s0 : State} {s : State} (hs : Grows s0 s) :
    Grows s0 (State.endSettings s) := by
  unfold State.endSettings; try dsimp only
  repeat' first
    | with_reducible first
      | assumption | apply State.attemptWrite_grows | apply State.bootLog_grows | apply State.setFld_grows
      | apply State.showAttempts_grows
    | intro _
    | split
    | with_reducible apply Grows.lit
    | dsimp only

theorem State.endImage_grows {s0 : State} {s : State} (b : _) (hs : Grows s0 s) :
    Grows s0 (State.endImage s b) := by
  unfold State.endImage; try dsimp only
  repeat' first
    | with_reducible first
      | assumption | apply Grows.foldl | apply Grows.foldl1 | apply Grows.foldlDev | apply Grows.foldlMv
      | apply Grows.foldlDn | apply State.bootLog_grows | apply State.setFld_grows
    | intro _
    | split
    | with_reducible apply Grows.lit
    | dsimp only

theorem State.endDieId_grows {s0 : State} {s : State} (hs : Grows s0 s) :
    Grows s0 (State.endDieId s) := by
  unfold State.endDieId; try dsimp only
  repeat' first
    | with_reducible first
      | assumption | apply Grows.foldl | apply Grows.foldl1 | apply Grows.foldlDev | apply Grows.foldlMv
      | apply Grows.foldlDn | apply State.setReg_grows
    | intro _
    | split
    | with_reducible apply Grows.lit
    | dsimp only

theorem State.mapSites_grows {s0 : State} {s : State} (st : _) (hs : Grows s0 s) :
    Grows s0 (State.mapSites s st) := by
  unfold State.mapSites; try dsimp only
  repeat' first
    | with_reducible first
      | assumption | apply Grows.foldl | apply Grows.foldl1 | apply Grows.foldlDev | apply Grows.foldlMv
      | apply Grows.foldlDn | apply State.setFld_grows
    | intro _
    | split
    | dsimp only

theorem State.repairRow_grows {s0 : State} {s : State} (k : _) (bank : _) (row : _) (hs : Grows s0 s) :
    Grows s0 (State.repairRow s k bank row) := by
  unfold State.repairRow; try dsimp only
  repeat' first
    | with_reducible first
      | assumption | apply State.bootLog_grows | apply State.updSlc_grows
    | intro _
    | split
    | dsimp only

theorem State.endFuses_grows {s0 : State} {s : State} (hs : Grows s0 s) :
    Grows s0 (State.endFuses s) := by
  unfold State.endFuses; try dsimp only
  repeat' first
    | with_reducible first
      | assumption | apply Grows.foldl | apply Grows.foldl1 | apply Grows.foldlDev | apply Grows.foldlMv
      | apply Grows.foldlDn | apply State.mapSites_grows | apply State.repairRow_grows | apply State.updStk_grows
    | intro _
    | split
    | dsimp only

theorem State.endClocks_grows {s0 : State} {s : State} (hs : Grows s0 s) :
    Grows s0 (State.endClocks s) := by
  unfold State.endClocks; try dsimp only
  repeat' first
    | with_reducible first
      | assumption | apply Grows.foldl | apply Grows.foldl1 | apply Grows.foldlDev | apply Grows.foldlMv
      | apply Grows.foldlDn | apply State.requestVdd_grows | apply State.startGov_grows | apply State.updStk_grows
    | intro _
    | split
    | dsimp only

theorem State.endTests_grows {s0 : State} {s : State} (hs : Grows s0 s) :
    Grows s0 (State.endTests s) := by
  unfold State.endTests; try dsimp only
  repeat' first
    | with_reducible first
      | assumption | apply Grows.foldl | apply Grows.foldl1 | apply Grows.foldlDev | apply Grows.foldlMv
      | apply Grows.foldlDn | apply State.testEnded_grows
    | intro _
    | split
    | with_reducible apply Grows.lit
    | dsimp only

theorem State.endReady_grows {s0 : State} {s : State} (hs : Grows s0 s) :
    Grows s0 (State.endReady s) := by
  unfold State.endReady; try dsimp only
  repeat' first
    | with_reducible first
      | assumption | apply State.attemptWrite_grows | apply State.bootLog_grows | apply State.fixMeas_grows
      | apply State.setFld_grows | apply State.setReg_grows | apply State.showAttempts_grows
    | intro _
    | split
    | with_reducible apply Grows.lit
    | dsimp only

theorem State.stageEffect_grows {s0 : State} {s : State} (k : _) (hs : Grows s0 s) :
    Grows s0 (State.stageEffect s k) := by
  unfold State.stageEffect; try dsimp only
  repeat' first
    | with_reducible first
      | assumption | apply Grows.foldl | apply Grows.foldl1 | apply Grows.foldlDev | apply Grows.foldlMv
      | apply Grows.foldlDn | apply State.deriveKeys_grows | apply State.endClocks_grows
      | apply State.endDieId_grows | apply State.endFuses_grows | apply State.endImage_grows
      | apply State.endReady_grows | apply State.endSettings_grows | apply State.endTests_grows
      | apply State.filledStack_grows | apply State.linksUp_grows
    | intro _
    | split
    | with_reducible apply Grows.lit
    | dsimp only

theorem State.holdStack_grows {s0 : State} {s : State} (k : _) (cause : _) (st : _) (hs : Grows s0 s) :
    Grows s0 (State.holdStack s k cause st) := by
  unfold State.holdStack; try dsimp only
  repeat' first
    | with_reducible first
      | assumption | apply State.bootLog_grows | apply State.clearStack_grows | apply State.setBit_grows
      | apply State.setFld_grows
    | intro _
    | split
    | dsimp only

theorem State.endStage_grows {s0 : State} {s : State} (k : _) (hold : _) (hs : Grows s0 s) :
    Grows s0 (State.endStage s k hold) := by
  unfold State.endStage; try dsimp only
  repeat' first
    | with_reducible first
      | assumption | apply Grows.foldl | apply Grows.foldl1 | apply Grows.foldlDev | apply Grows.foldlMv
      | apply Grows.foldlDn | apply State.failStart_grows | apply State.holdStack_grows
      | apply State.stageEffect_grows | apply State.startStages_grows
    | intro _
    | split
    | with_reducible apply Grows.lit
    | dsimp only

theorem stageComplete_grows {s0 : State} (k : _) (res : _) {s : State} (hs : Grows s0 s) :
    Grows s0 (stageComplete k res s) := by
  unfold stageComplete; try dsimp only
  repeat' first
    | with_reducible first
      | assumption | apply State.endStage_grows | apply State.failStart_grows | apply State.setBit_grows
    | intro _
    | split
    | dsimp only

theorem execBootStageComplete_grows {s0 : State} (k : _) (res : _) {s : State} (hs : Grows s0 s) :
    OutGrows s0 (execBootStageComplete k res s) := by
  unfold execBootStageComplete; try dsimp only
  repeat' first
    | with_reducible first
      | assumption | apply OutGrows.next | apply stageComplete_grows
    | intro _
    | split
    | dsimp only

theorem execBootWatchdog_grows {s0 : State} {s : State} (hs : Grows s0 s) :
    OutGrows s0 (execBootWatchdog s) := by
  unfold execBootWatchdog; try dsimp only
  repeat' first
    | with_reducible first
      | assumption | apply OutGrows.next | apply State.failStart_grows
    | intro _
    | split
    | dsimp only

theorem State.pkgReset_grows {s0 : State} {s : State} (cold : _) (hs : Grows s0 s) :
    Grows s0 (State.pkgReset s cold) := by
  unfold State.pkgReset; try dsimp only
  repeat' first
    | with_reducible first
      | assumption | apply State.beginReset_grows | apply State.clearPkg_grows | apply State.startBoot_grows
    | intro _
    | split
    | dsimp only

theorem execColdReset_grows {s0 : State} (r : _) (next : _) {s : State} (hs : Grows s0 s) :
    OutGrows s0 (execColdReset r next s) := by
  unfold execColdReset; try dsimp only
  repeat' first
    | with_reducible first
      | assumption | apply OutGrows.next | apply State.access_grows | apply State.pkgReset_grows
      | apply writeNextSlot_grows
    | intro _
    | split
    | dsimp only

theorem warmCmd_grows {s0 : State} {s : State} (hs : Grows s0 s) :
    Grows s0 (warmCmd s) := by
  unfold warmCmd; try dsimp only
  repeat' first
    | with_reducible first
      | assumption | apply State.pkgReset_grows
    | intro _
    | split
    | dsimp only

theorem execWarmReset_grows {s0 : State} (r : _) {s : State} (hs : Grows s0 s) :
    OutGrows s0 (execWarmReset r s) := by
  unfold execWarmReset; try dsimp only
  repeat' first
    | with_reducible first
      | assumption | apply OutGrows.next | apply State.access_grows | apply warmCmd_grows
    | intro _
    | split
    | dsimp only

/-! ### Cores -/

theorem State.coreDone_grows {s0 : State} {s : State} (n : _) (rd : _) (v : _) (hs : Grows s0 s) :
    Grows s0 (State.coreDone s n rd v) := by
  unfold State.coreDone; try dsimp only
  repeat' first
    | with_reducible first
      | assumption | apply State.hartStepped_grows | apply State.updCore_grows
    | intro _
    | split
    | dsimp only

theorem State.releaseCore_grows {s0 : State} {s : State} (st : _) (c : _) (hs : Grows s0 s) :
    Grows s0 (State.releaseCore s st c) := by
  unfold State.releaseCore; try dsimp only
  repeat' first
    | with_reducible first
      | assumption | apply State.setBit_grows | apply State.updCore_grows
    | intro _
    | split
    | dsimp only

theorem coreRelease_grows {s0 : State} (st : _) (mask : _) {s : State} (hs : Grows s0 s) :
    Grows s0 (coreRelease st mask s) := by
  unfold coreRelease; try dsimp only
  repeat' first
    | with_reducible first
      | assumption | apply Grows.foldl | apply Grows.foldl1 | apply Grows.foldlDev | apply Grows.foldlMv
      | apply Grows.foldlDn | apply State.releaseCore_grows
    | intro _
    | split
    | dsimp only

theorem execCoreRelease_grows {s0 : State} (r : _) (st : _) (mask : _) {s : State} (hs : Grows s0 s) :
    OutGrows s0 (execCoreRelease r st mask s) := by
  unfold execCoreRelease; try dsimp only
  repeat' first
    | with_reducible first
      | assumption | apply OutGrows.next | apply State.access_grows | apply coreRelease_grows
    | intro _
    | split
    | dsimp only

theorem State.fillLine_grows {s0 : State} {s : State} (st : _) (key : _) (off : _) (addr : _) (hs : Grows s0 s) :
    Grows s0 (State.fillLine s st key off addr).1 := by
  unfold State.fillLine; try dsimp only
  repeat' first
    | with_reducible first
      | assumption | apply State.devRead_grows
    | intro _
    | split
    | with_reducible apply Grows.lit
    | dsimp only

theorem State.breakResv_grows {s0 : State} {s : State} (st : _) (line : _) (hs : Grows s0 s) :
    Grows s0 (State.breakResv s st line) := by
  unfold State.breakResv; try dsimp only
  repeat' first
    | with_reducible first
      | assumption | apply Grows.foldl | apply Grows.foldl1 | apply Grows.foldlDev | apply Grows.foldlMv
      | apply Grows.foldlDn | apply State.updCore_grows
    | intro _
    | split
    | dsimp only

theorem State.lineAmo_grows {s0 : State} {s : State} (n : _) (op : _) (wide : _) (line : _) (l : _) (addr : _) (x : _) (cmp : _) (rd : _) (hs : Grows s0 s) :
    Grows s0 (State.lineAmo s n op wide line l addr x cmp rd) := by
  unfold State.lineAmo; try dsimp only
  repeat' first
    | with_reducible first
      | assumption | apply State.breakResv_grows | apply State.coreDone_grows | apply State.updCore_grows
    | intro _
    | split
    | with_reducible apply Grows.lit
    | dsimp only

theorem State.cachedAmo_grows {s0 : State} {s : State} (n : _) (op : _) (wide : _) (addr : _) (x : _) (cmp : _) (rd : _) (hs : Grows s0 s) :
    Grows s0 (State.cachedAmo s n op wide addr x cmp rd) := by
  unfold State.cachedAmo; try dsimp only
  repeat' first
    | with_reducible first
      | assumption | apply State.coreTrap_grows | apply State.fillLine_grows | apply State.lineAmo_grows
    | intro _
    | split
    | dsimp only

theorem State.weirAmo_grows {s0 : State} {s : State} (n : _) (op : _) (wide : _) (addr : _) (x : _) (cmp : _) (rd : _) (hs : Grows s0 s) :
    Grows s0 (State.weirAmo s n op wide addr x cmp rd) := by
  unfold State.weirAmo; try dsimp only
  repeat' first
    | with_reducible first
      | assumption | apply State.coreDone_grows | apply State.coreTrap_grows | apply State.devWeir_grows
    | intro _
    | split
    | dsimp only

theorem coreAmo_grows {s0 : State} (n : _) (op : _) (wide : _) (addr : _) (cached : _) (x : _) (cmp : _) (rd : _) {s : State} (hs : Grows s0 s) :
    Grows s0 (coreAmo n op wide addr cached x cmp rd s) := by
  unfold coreAmo; try dsimp only
  repeat' first
    | with_reducible first
      | assumption | apply State.cachedAmo_grows | apply State.coreTrap_grows | apply State.weirAmo_grows
    | intro _
    | split
    | dsimp only

theorem execCoreAtomic_grows {s0 : State} (st : _) (k : _) (op : _) (wide : _) (addr : _) (cached : _) (operand : _) (compare : _) (rd : _) {s : State} (hs : Grows s0 s) :
    OutGrows s0 (execCoreAtomic st k op wide addr cached operand compare rd s) := by
  unfold execCoreAtomic; try dsimp only
  repeat' first
    | with_reducible first
      | assumption | apply OutGrows.next | apply coreAmo_grows
    | intro _
    | split
    | dsimp only

theorem State.coreToken_grows {s0 : State} {s : State} (st : _) (dst : _) (m : _) (hs : Grows s0 s) :
    Grows s0 (State.coreToken s st dst m) := by
  unfold State.coreToken; try dsimp only
  repeat' first
    | with_reducible first
      | assumption | apply State.irq_grows
    | intro _
    | split
    | with_reducible apply Grows.lit
    | dsimp only

theorem coreTokenTx_grows {s0 : State} (st : _) (v : _) {s : State} (hs : Grows s0 s) :
    Grows s0 (coreTokenTx st v s) := by
  unfold coreTokenTx; try dsimp only
  repeat' first
    | with_reducible first
      | assumption | apply State.coreToken_grows | apply State.irq_grows
    | intro _
    | split
    | dsimp only

theorem execCoreTokenTx_grows {s0 : State} (r : _) (st : _) (v : _) {s : State} (hs : Grows s0 s) :
    OutGrows s0 (execCoreTokenTx r st v s) := by
  unfold execCoreTokenTx; try dsimp only
  repeat' first
    | with_reducible first
      | assumption | apply OutGrows.next | apply State.access_grows | apply coreTokenTx_grows
    | intro _
    | split
    | dsimp only

/-! ### Media -/

theorem State.medSignal_grows {s0 : State} {s : State} (n : _) (d : _) (status : _) (hs : Grows s0 s) :
    Grows s0 (State.medSignal s n d status) := by
  unfold State.medSignal; try dsimp only
  repeat' first
    | with_reducible first
      | assumption | apply State.inject_grows
    | intro _
    | split
    | dsimp only

theorem State.medEnd_grows {s0 : State} {s : State} (n : _) (d : _) (status : _) (frames : _) (rejected : _) (hs : Grows s0 s) :
    Grows s0 (State.medEnd s n d status frames rejected) := by
  unfold State.medEnd; try dsimp only
  repeat' first
    | with_reducible first
      | assumption | apply State.medSignal_grows | apply State.setBit_grows | apply State.updMed_grows
    | intro _
    | split
    | dsimp only

theorem mediaPush_grows {s0 : State} (n : _) {s : State} (hs : Grows s0 s) :
    Grows s0 (mediaPush n s) := by
  unfold mediaPush; try dsimp only
  repeat' first
    | with_reducible first
      | assumption | apply State.irq_grows | apply State.setMed_grows
    | intro _
    | split
    | dsimp only

theorem execMediaSubmitPush_grows {s0 : State} (r : _) (n : _) {s : State} (hs : Grows s0 s) :
    OutGrows s0 (execMediaSubmitPush r n s) := by
  unfold execMediaSubmitPush; try dsimp only
  repeat' first
    | with_reducible first
      | assumption | apply OutGrows.next | apply State.access_grows | apply mediaPush_grows
    | intro _
    | split
    | dsimp only

theorem mediaStart_grows {s0 : State} (n : _) {s : State} (hs : Grows s0 s) :
    Grows s0 (mediaStart n s) := by
  unfold mediaStart; try dsimp only
  repeat' first
    | with_reducible first
      | assumption | apply State.medEnd_grows | apply State.setMed_grows | apply State.updMed_grows
    | intro _
    | split
    | dsimp only

theorem execMediaJobStart_grows {s0 : State} (n : _) {s : State} (hs : Grows s0 s) :
    OutGrows s0 (execMediaJobStart n s) := by
  unfold execMediaJobStart; try dsimp only
  repeat' first
    | with_reducible first
      | assumption | apply OutGrows.next | apply mediaStart_grows
    | intro _
    | split
    | dsimp only

theorem mediaOutput_grows {s0 : State} (n : _) (d : _) (vals : _) {s : State} (hs : Grows s0 s) :
    Grows s0 (mediaOutput n d vals s) := by
  unfold mediaOutput; try dsimp only
  repeat' first
    | with_reducible first
      | assumption | apply State.devWrite_grows | apply State.updMed_grows
    | intro _
    | split
    | dsimp only

theorem execMediaPictureOutput_grows {s0 : State} (n : _) (vals : _) {s : State} (hs : Grows s0 s) :
    OutGrows s0 (execMediaPictureOutput n vals s) := by
  unfold execMediaPictureOutput; try dsimp only
  repeat' first
    | with_reducible first
      | assumption | apply OutGrows.next | apply mediaOutput_grows
    | intro _
    | split
    | dsimp only

theorem State.medStopped_grows {s0 : State} {s : State} (n : _) (hs : Grows s0 s) :
    Grows s0 (State.medStopped s n) := by
  unfold State.medStopped; try dsimp only
  repeat' first
    | with_reducible first
      | assumption | apply State.setMed_grows
    | intro _
    | split
    | dsimp only

theorem mediaComplete_grows {s0 : State} (n : _) (d : _) (how : _) {s : State} (hs : Grows s0 s) :
    Grows s0 (mediaComplete n d how s) := by
  unfold mediaComplete; try dsimp only
  repeat' first
    | with_reducible first
      | assumption | apply State.devRead_grows | apply State.medEnd_grows | apply State.medStopped_grows
      | apply State.setMed_grows
    | intro _
    | split
    | dsimp only

theorem execMediaJobComplete_grows {s0 : State} (n : _) (how : _) {s : State} (hs : Grows s0 s) :
    OutGrows s0 (execMediaJobComplete n how s) := by
  unfold execMediaJobComplete; try dsimp only
  repeat' first
    | with_reducible first
      | assumption | apply OutGrows.next | apply mediaComplete_grows
    | intro _
    | split
    | dsimp only

theorem popMedia_grows {s0 : State} (n : _) {s : State} (hs : Grows s0 s) :
    Grows s0 (popMedia n s) := by
  unfold popMedia; try dsimp only
  repeat' first
    | with_reducible first
      | assumption | apply State.answer_grows | apply State.capture_grows | apply State.updMed_grows
    | intro _
    | split
    | dsimp only

theorem execMediaCplPop_grows {s0 : State} (r : _) (n : _) {s : State} (hs : Grows s0 s) :
    OutGrows s0 (execMediaCplPop r n s) := by
  unfold execMediaCplPop; try dsimp only
  repeat' first
    | with_reducible first
      | assumption | apply OutGrows.next | apply State.readAccess_grows | apply popMedia_grows
    | intro _
    | split
    | dsimp only

theorem medSetEn_grows {s0 : State} (n : _) {s : State} (hs : Grows s0 s) :
    Grows s0 (medSetEn n s) := by
  unfold medSetEn; try dsimp only
  repeat' first
    | with_reducible first
      | assumption | apply State.setBit_grows | apply State.updMed_grows
    | intro _
    | split
    | dsimp only

theorem State.expireMed_grows {s0 : State} {s : State} (n : _) (hs : Grows s0 s) :
    Grows s0 (State.expireMed s n) := by
  unfold State.expireMed; try dsimp only
  repeat' first
    | with_reducible first
      | assumption | apply Grows.foldl | apply Grows.foldl1 | apply Grows.foldlDev | apply Grows.foldlMv
      | apply Grows.foldlDn | apply State.medEnd_grows | apply State.medStopped_grows | apply State.setMed_grows
    | intro _
    | split
    | dsimp only

theorem medClrEn_grows {s0 : State} (n : _) {s : State} (hs : Grows s0 s) :
    Grows s0 (medClrEn n s) := by
  unfold medClrEn; try dsimp only
  repeat' first
    | with_reducible first
      | assumption | apply State.clrBit_grows | apply State.expireMed_grows | apply State.updMed_grows
    | intro _
    | split
    | dsimp only

/-! ### Security -/

theorem State.reqStat_grows {s0 : State} {s : State} (state : _) (code : _) (hs : Grows s0 s) :
    Grows s0 (State.reqStat s state code) := by
  unfold State.reqStat; try dsimp only
  repeat' first
    | with_reducible first
      | assumption | apply State.setFld_grows
    | intro _
    | split
    | dsimp only

theorem svnCommitCmd_grows {s0 : State} {s : State} (hs : Grows s0 s) :
    Grows s0 (svnCommitCmd s) := by
  unfold svnCommitCmd; try dsimp only
  repeat' first
    | with_reducible first
      | assumption | apply State.reqStat_grows
    | intro _
    | split
    | with_reducible apply Grows.lit
    | dsimp only

theorem execSvnCommit_grows {s0 : State} (r : _) {s : State} (hs : Grows s0 s) :
    OutGrows s0 (execSvnCommit r s) := by
  unfold execSvnCommit; try dsimp only
  repeat' first
    | with_reducible first
      | assumption | apply OutGrows.next | apply State.access_grows | apply svnCommitCmd_grows
    | intro _
    | split
    | dsimp only

theorem revokeImage_grows {s u : State} {l : List Byte} (h : Grows s0 s) (hu : revokeImage s = some (u, l)) : Grows s0 u := by
  unfold revokeImage at hu
  dsimp only at hu
  split at hu
  · simp at hu
  · split at hu
    · simp at hu
    · split at hu
      · simp at hu
      · simp only [Option.some.injEq, Prod.mk.injEq] at hu
        obtain ⟨rfl, -⟩ := hu
        exact State.devRead_grows _ _ _ (State.devRead_grows _ _ _ h)

theorem revokeCmd_grows {s : State} (h : Grows s0 s) : Grows s0 (revokeCmd s) := by
  unfold revokeCmd
  split
  · exact h
  · split
    · exact State.reqStat_grows _ _ h
    · rename_i u l hu
      have k := revokeImage_grows h hu
      split
      · exact State.reqStat_grows _ _ k
      · split
        · exact State.reqStat_grows _ _ k
        · exact State.reqStat_grows _ _ k.lit

theorem execRevokeSubmit_grows {s0 : State} (r : _) {s : State} (hs : Grows s0 s) :
    OutGrows s0 (execRevokeSubmit r s) := by
  unfold execRevokeSubmit; try dsimp only
  repeat' first
    | with_reducible first
      | assumption | apply OutGrows.next | apply State.access_grows | apply revokeCmd_grows
    | intro _
    | split
    | dsimp only

theorem State.partCommit_grows {s : State} (v : Nat) (h : Grows s0 s) : Grows s0 (s.partCommit v) := by
  unfold State.partCommit
  split
  · refine State.drawn_grows ?_
    exact ⟨h.pending, h.mem, h.regs, h.svn.trans (Nat.le_add_right _ _), h.revoked, h.free, h.seals, h.sealMax, h.wire⟩
  · exact h

theorem requestDone_grows {s : State} (ok : Bool) (h : Grows s0 s) : Grows s0 (requestDone ok s) := by
  unfold requestDone
  dsimp only
  split
  · exact h
  · split
    · refine State.reqStat_grows _ _ ?_
      exact ⟨h.pending, h.mem, h.regs, h.svn.trans (Nat.le_max_right _ _), h.revoked, h.free, h.seals, h.sealMax, h.wire⟩
    · exact State.reqStat_grows _ _ (State.partCommit_grows _ h.lit)
  · split
    · refine State.reqStat_grows _ _ ?_
      exact ⟨h.pending, h.mem, h.regs, h.svn, fun i hi => by simp [h.revoked i hi], h.free, h.seals, h.sealMax, h.wire⟩
    · exact State.reqStat_grows _ _ h.lit

theorem execKeyEngineRequestDone_grows {s0 : State} (ok : _) {s : State} (hs : Grows s0 s) :
    OutGrows s0 (execKeyEngineRequestDone ok s) := by
  unfold execKeyEngineRequestDone; try dsimp only
  repeat' first
    | with_reducible first
      | assumption | apply OutGrows.next | apply requestDone_grows
    | intro _
    | split
    | dsimp only

theorem State.spdmErr_grows {s0 : State} {s : State} (f : _) (code : _) (hs : Grows s0 s) :
    Grows s0 (State.spdmErr s f code) := by
  unfold State.spdmErr; try dsimp only
  repeat' first
    | with_reducible first
      | assumption | apply State.send_grows
    | intro _
    | split
    | dsimp only

theorem State.spdmAns_grows {s0 : State} {s : State} (f : _) (body : _) (hs : Grows s0 s) :
    Grows s0 (State.spdmAns s f body) := by
  unfold State.spdmAns; try dsimp only
  repeat' first
    | with_reducible first
      | assumption | apply State.send_grows
    | intro _
    | split
    | dsimp only

theorem State.aliasSign_grows {s0 : State} {s : State} (f : _) (body : _) (hs : Grows s0 s) :
    Grows s0 (State.aliasSign s f body) := by
  unfold State.aliasSign; try dsimp only
  repeat' first
    | with_reducible first
      | assumption | apply State.freeBytes_grows | apply State.spdmAns_grows | apply State.spdmErr_grows
    | intro _
    | split
    | dsimp only

theorem State.setSessions_grows {s0 : State} {s : State} (f : _) (n : _) (hs : Grows s0 s) :
    Grows s0 (State.setSessions s f n) := by
  unfold State.setSessions; try dsimp only
  repeat' first
    | with_reducible first
      | assumption
    | intro _
    | split
    | with_reducible apply Grows.lit
    | dsimp only

theorem State.bindIde_grows {s0 : State} {s : State} (f : _) (hs : Grows s0 s) :
    Grows s0 (State.bindIde s f) := by
  unfold State.bindIde; try dsimp only
  repeat' first
    | with_reducible first
      | assumption | apply State.setBit_grows
    | intro _
    | split
    | with_reducible apply Grows.lit
    | dsimp only

theorem spdm_grows {s0 : State} (f : _) (q : _) {s : State} (hs : Grows s0 s) :
    Grows s0 (spdm f q s) := by
  unfold spdm; try dsimp only
  repeat' first
    | with_reducible first
      | assumption | apply State.aliasSign_grows | apply State.bindIde_grows | apply State.freeBytes_grows
      | apply State.setSessions_grows | apply State.spdmAns_grows | apply State.spdmErr_grows
    | intro _
    | split
    | dsimp only

theorem execSpdmRequest_grows {s0 : State} (f : _) (q : _) {s : State} (hs : Grows s0 s) :
    OutGrows s0 (execSpdmRequest f q s) := by
  unfold execSpdmRequest; try dsimp only
  repeat' first
    | with_reducible first
      | assumption | apply OutGrows.next | apply spdm_grows
    | intro _
    | split
    | dsimp only

theorem ideFail_grows {s0 : State} (f : _) {s : State} (hs : Grows s0 s) :
    Grows s0 (ideFail f s) := by
  unfold ideFail; try dsimp only
  repeat' first
    | with_reducible first
      | assumption | apply State.lndCount_grows | apply State.tdiError_grows
    | intro _
    | split
    | with_reducible apply Grows.lit
    | dsimp only

theorem execIdeIntegrityFail_grows {s0 : State} (f : _) {s : State} (hs : Grows s0 s) :
    OutGrows s0 (execIdeIntegrityFail f s) := by
  unfold execIdeIntegrityFail; try dsimp only
  repeat' first
    | with_reducible first
      | assumption | apply OutGrows.next | apply ideFail_grows
    | intro _
    | split
    | dsimp only

theorem execLockInterface_grows {s0 : State} (n : _) {s : State} (hs : Grows s0 s) :
    OutGrows s0 (execLockInterface n s) := by
  unfold execLockInterface; try dsimp only
  repeat' first
    | with_reducible first
      | assumption | apply OutGrows.next | apply State.lockPage_grows | apply State.setTdi_grows
    | intro _
    | split
    | dsimp only

theorem execStartInterface_grows {s0 : State} (n : _) {s : State} (hs : Grows s0 s) :
    OutGrows s0 (execStartInterface n s) := by
  unfold execStartInterface; try dsimp only
  repeat' first
    | with_reducible first
      | assumption | apply OutGrows.next | apply State.setTdi_grows
    | intro _
    | split
    | dsimp only

theorem stopInterface_grows {s0 : State} (n : _) {s : State} (hs : Grows s0 s) :
    Grows s0 (stopInterface n s) := by
  unfold stopInterface; try dsimp only
  repeat' first
    | with_reducible first
      | assumption | apply State.resetPart_grows | apply State.setTdi_grows | apply State.updPart_grows
    | intro _
    | split
    | dsimp only

theorem execStopInterface_grows {s0 : State} (n : _) {s : State} (hs : Grows s0 s) :
    OutGrows s0 (execStopInterface n s) := by
  unfold execStopInterface; try dsimp only
  repeat' first
    | with_reducible first
      | assumption | apply OutGrows.next | apply stopInterface_grows
    | intro _
    | split
    | dsimp only

theorem State.unlockDebug_grows {s0 : State} {s : State} (level : _) (hs : Grows s0 s) :
    Grows s0 (State.unlockDebug s level) := by
  unfold State.unlockDebug; try dsimp only
  repeat' first
    | with_reducible first
      | assumption | apply Grows.foldl | apply Grows.foldl1 | apply Grows.foldlDev | apply Grows.foldlMv
      | apply Grows.foldlDn | apply State.setBit_grows | apply State.setFld_grows | apply State.tdiError_grows
    | intro _
    | split
    | with_reducible apply Grows.lit
    | dsimp only

theorem submitToken_grows {s0 : State} (l : _) {s : State} (hs : Grows s0 s) :
    Grows s0 (submitToken l s) := by
  unfold submitToken; try dsimp only
  repeat' first
    | with_reducible first
      | assumption | apply State.setBit_grows | apply State.unlockDebug_grows
    | intro _
    | split
    | dsimp only

theorem execDbgTokenSubmit_grows {s0 : State} (token : _) (viaJtag : _) {s : State} (hs : Grows s0 s) :
    OutGrows s0 (execDbgTokenSubmit token viaJtag s) := by
  unfold execDbgTokenSubmit; try dsimp only
  repeat' first
    | with_reducible first
      | assumption | apply OutGrows.next | apply State.access_grows | apply submitToken_grows
    | intro _
    | split
    | dsimp only

theorem rngFail_grows {s0 : State} {s : State} (hs : Grows s0 s) :
    Grows s0 (rngFail s) := by
  unfold rngFail; try dsimp only
  repeat' first
    | with_reducible first
      | assumption | apply Grows.foldl | apply Grows.foldl1 | apply Grows.foldlDev | apply Grows.foldlMv
      | apply Grows.foldlDn | apply State.setBit_grows | apply State.setFld_grows | apply State.xngDown_grows
    | intro _
    | split
    | dsimp only

theorem execRngHealthFail_grows {s0 : State} {s : State} (hs : Grows s0 s) :
    OutGrows s0 (execRngHealthFail s) := by
  unfold execRngHealthFail; try dsimp only
  repeat' first
    | with_reducible first
      | assumption | apply OutGrows.next | apply rngFail_grows
    | intro _
    | split
    | dsimp only

theorem State.clearUnit_grows {s0 : State} {s : State} (x1 : _) (hs : Grows s0 s) :
    Grows s0 (State.clearUnit s x1) := by
  unfold State.clearUnit; try dsimp only
  repeat' first
    | with_reducible first
      | assumption | apply State.clearChan_grows | apply State.setChan_grows | apply State.setEp_grows
      | apply State.setMed_grows
    | intro _
    | split
    | dsimp only

theorem writeOwner_grows {s0 : State} (u : _) (v : _) {s : State} (hs : Grows s0 s) :
    Grows s0 (writeOwner u v s) := by
  unfold writeOwner; try dsimp only
  repeat' first
    | with_reducible first
      | assumption | apply State.clearUnit_grows | apply State.setBit_grows | apply State.setFld_grows
      | apply State.wrRej_grows
    | intro _
    | split
    | dsimp only

theorem execOwnerWrite_grows {s0 : State} (r : _) (u : _) (v : _) {s : State} (hs : Grows s0 s) :
    OutGrows s0 (execOwnerWrite r u v s) := by
  unfold execOwnerWrite; try dsimp only
  repeat' first
    | with_reducible first
      | assumption | apply OutGrows.next | apply State.access_grows | apply writeOwner_grows
    | intro _
    | split
    | dsimp only

theorem writeGrpOwner_grows {s0 : State} (g : _) (v : _) {s : State} (hs : Grows s0 s) :
    Grows s0 (writeGrpOwner g v s) := by
  unfold writeGrpOwner; try dsimp only
  repeat' first
    | with_reducible first
      | assumption | apply State.setBit_grows | apply State.setFld_grows | apply State.wrRej_grows
    | intro _
    | split
    | dsimp only

/-! ### Debug -/

theorem cntSampleCmd_grows {s0 : State} (r : _) (k : _) {s : State} (hs : Grows s0 s) :
    Grows s0 (cntSampleCmd r k s) := by
  unfold cntSampleCmd; try dsimp only
  repeat' first
    | with_reducible first
      | assumption | apply State.cntSwitch_grows
    | intro _
    | split
    | dsimp only

theorem execCntSample_grows {s0 : State} (r : _) (set : _) {s : State} (hs : Grows s0 s) :
    OutGrows s0 (execCntSample r set s) := by
  unfold execCntSample; try dsimp only
  repeat' first
    | with_reducible first
      | assumption | apply OutGrows.next | apply State.access_grows | apply cntSampleCmd_grows
    | intro _
    | split
    | dsimp only

theorem State.updUnit_grows {s0 : State} {s : State} (u : _) (f : _) (hs : Grows s0 s) :
    Grows s0 (State.updUnit s u f) := by
  unfold State.updUnit; try dsimp only
  repeat' first
    | with_reducible first
      | assumption
    | intro _
    | split
    | with_reducible apply Grows.lit
    | dsimp only

theorem soundingCmd_grows {s0 : State} {s : State} (hs : Grows s0 s) :
    Grows s0 (soundingCmd s) := by
  unfold soundingCmd; try dsimp only
  repeat' first
    | with_reducible first
      | assumption | apply State.setBit_grows | apply State.setFld_grows
    | intro _
    | split
    | with_reducible apply Grows.lit
    | dsimp only

theorem execSoundingGo_grows {s0 : State} (r : _) {s : State} (hs : Grows s0 s) :
    OutGrows s0 (execSoundingGo r s) := by
  unfold execSoundingGo; try dsimp only
  repeat' first
    | with_reducible first
      | assumption | apply OutGrows.next | apply State.access_grows | apply soundingCmd_grows
    | intro _
    | split
    | dsimp only

theorem State.beginStop_grows {s0 : State} {s : State} (hs : Grows s0 s) :
    Grows s0 (State.beginStop s) := by
  unfold State.beginStop; try dsimp only
  repeat' first
    | with_reducible first
      | assumption | apply State.count_grows | apply State.setFld_grows
    | intro _
    | split
    | with_reducible apply Grows.lit
    | dsimp only

theorem stopCmd_grows {s0 : State} {s : State} (hs : Grows s0 s) :
    Grows s0 (stopCmd s) := by
  unfold stopCmd; try dsimp only
  repeat' first
    | with_reducible first
      | assumption | apply State.beginStop_grows | apply State.setBit_grows
    | intro _
    | split
    | with_reducible apply Grows.lit
    | dsimp only

theorem execStopGo_grows {s0 : State} (r : _) {s : State} (hs : Grows s0 s) :
    OutGrows s0 (execStopGo r s) := by
  unfold execStopGo; try dsimp only
  repeat' first
    | with_reducible first
      | assumption | apply OutGrows.next | apply State.access_grows | apply stopCmd_grows
    | intro _
    | split
    | dsimp only

theorem soundingEnd_grows {s0 : State} {s : State} (hs : Grows s0 s) :
    Grows s0 (soundingEnd s) := by
  unfold soundingEnd; try dsimp only
  repeat' first
    | with_reducible first
      | assumption | apply State.beginStop_grows | apply State.setFld_grows
    | intro _
    | split
    | with_reducible apply Grows.lit
    | dsimp only

theorem execSoundingDone_grows {s0 : State} {s : State} (hs : Grows s0 s) :
    OutGrows s0 (execSoundingDone s) := by
  unfold execSoundingDone; try dsimp only
  repeat' first
    | with_reducible first
      | assumption | apply OutGrows.next | apply soundingEnd_grows
    | intro _
    | split
    | dsimp only

theorem State.checkStopped_grows {s0 : State} {s : State} (hs : Grows s0 s) :
    Grows s0 (State.checkStopped s) := by
  unfold State.checkStopped; try dsimp only
  repeat' first
    | with_reducible first
      | assumption | apply State.setFld_grows | apply State.setReg_grows
    | intro _
    | split
    | dsimp only

theorem markerIn_grows {s0 : State} (u : _) (i : _) (stop : _) {s : State} (hs : Grows s0 s) :
    Grows s0 (markerIn u i stop s) := by
  unfold markerIn; try dsimp only
  repeat' first
    | with_reducible first
      | assumption | apply State.checkStopped_grows | apply State.count_grows | apply State.updUnit_grows
    | intro _
    | split
    | dsimp only

theorem execMarkerToken_grows {s0 : State} (u : _) (input : _) (stop : _) {s : State} (hs : Grows s0 s) :
    OutGrows s0 (execMarkerToken u input stop s) := by
  unfold execMarkerToken; try dsimp only
  repeat' first
    | with_reducible first
      | assumption | apply OutGrows.next | apply markerIn_grows
    | intro _
    | split
    | dsimp only

theorem execMarkerPacket_grows {s0 : State} (u : _) (input : _) (stop : _) {s : State} (hs : Grows s0 s) :
    OutGrows s0 (execMarkerPacket u input stop s) := by
  unfold execMarkerPacket; try dsimp only
  repeat' first
    | with_reducible first
      | assumption | apply OutGrows.next | apply markerIn_grows
    | intro _
    | split
    | dsimp only

theorem State.snapshot_grows {s0 : State} {s : State} (u : _) (forced : _) (hs : Grows s0 s) :
    Grows s0 (State.snapshot s u forced) := by
  unfold State.snapshot; try dsimp only
  repeat' first
    | with_reducible first
      | assumption | apply State.send_grows | apply State.updUnit_grows
    | intro _
    | split
    | with_reducible apply Grows.lit
    | dsimp only

theorem execUnitSnapshot_grows {s0 : State} (u : _) {s : State} (hs : Grows s0 s) :
    OutGrows s0 (execUnitSnapshot u s) := by
  unfold execUnitSnapshot; try dsimp only
  repeat' first
    | with_reducible first
      | assumption | apply OutGrows.next | apply State.checkStopped_grows | apply State.snapshot_grows
    | intro _
    | split
    | dsimp only

theorem markerLate_grows {s0 : State} (u : _) (i : _) {s : State} (hs : Grows s0 s) :
    Grows s0 (markerLate u i s) := by
  unfold markerLate; try dsimp only
  repeat' first
    | with_reducible first
      | assumption | apply State.checkStopped_grows | apply State.updUnit_grows
    | intro _
    | split
    | dsimp only

theorem execMarkerTimeout_grows {s0 : State} (u : _) (input : _) {s : State} (hs : Grows s0 s) :
    OutGrows s0 (execMarkerTimeout u input s) := by
  unfold execMarkerTimeout; try dsimp only
  repeat' first
    | with_reducible first
      | assumption | apply OutGrows.next | apply markerLate_grows
    | intro _
    | split
    | dsimp only

theorem forceStop_grows {s0 : State} {s : State} (hs : Grows s0 s) :
    Grows s0 (forceStop s) := by
  unfold forceStop; try dsimp only
  repeat' first
    | with_reducible first
      | assumption | apply Grows.foldl | apply Grows.foldl1 | apply Grows.foldlDev | apply Grows.foldlMv
      | apply Grows.foldlDn | apply State.checkStopped_grows | apply State.snapshot_grows
    | intro _
    | split
    | dsimp only

theorem execStopForce_grows {s0 : State} {s : State} (hs : Grows s0 s) :
    OutGrows s0 (execStopForce s) := by
  unfold execStopForce; try dsimp only
  repeat' first
    | with_reducible first
      | assumption | apply OutGrows.next | apply forceStop_grows
    | intro _
    | split
    | dsimp only

theorem State.heldReset_grows {s0 : State} {s : State} (r : _) (hs : Grows s0 s) :
    Grows s0 (State.heldReset s r) := by
  unfold State.heldReset; try dsimp only
  repeat' first
    | with_reducible first
      | assumption | apply State.beginReset_grows | apply State.resetPart_grows
    | intro _
    | split
    | dsimp only

theorem releaseStop_grows {s0 : State} {s : State} (hs : Grows s0 s) :
    Grows s0 (releaseStop s) := by
  unfold releaseStop; try dsimp only
  repeat' first
    | with_reducible first
      | assumption | apply Grows.foldl | apply Grows.foldl1 | apply Grows.foldlDev | apply Grows.foldlMv
      | apply Grows.foldlDn | apply State.checkLost_grows | apply State.ctrAdd_grows | apply State.deliver_grows
      | apply State.heldReset_grows | apply State.serveWaiting_grows | apply State.setFld_grows
      | apply hostReadDone_grows
    | intro _
    | split
    | with_reducible apply Grows.lit
    | dsimp only

theorem releaseCmd_grows {s0 : State} {s : State} (hs : Grows s0 s) :
    Grows s0 (releaseCmd s) := by
  unfold releaseCmd; try dsimp only
  repeat' first
    | with_reducible first
      | assumption | apply releaseStop_grows
    | intro _
    | split
    | dsimp only

theorem execStopRelease_grows {s0 : State} (r : _) {s : State} (hs : Grows s0 s) :
    OutGrows s0 (execStopRelease r s) := by
  unfold execStopRelease; try dsimp only
  repeat' first
    | with_reducible first
      | assumption | apply OutGrows.next | apply State.access_grows | apply releaseCmd_grows
    | intro _
    | split
    | dsimp only

theorem recSel_grows {s0 : State} (v : _) {s : State} (hs : Grows s0 s) :
    Grows s0 (recSel v s) := by
  unfold recSel; try dsimp only
  repeat' first
    | with_reducible first
      | assumption | apply State.setFld_grows
    | intro _
    | split
    | dsimp only

theorem execDbgRecSel_grows {s0 : State} (r : _) (v : _) {s : State} (hs : Grows s0 s) :
    OutGrows s0 (execDbgRecSel r v s) := by
  unfold execDbgRecSel; try dsimp only
  repeat' first
    | with_reducible first
      | assumption | apply OutGrows.next | apply State.access_grows | apply recSel_grows
    | intro _
    | split
    | dsimp only

theorem recReady_grows {s0 : State} {s : State} (hs : Grows s0 s) :
    Grows s0 (recReady s) := by
  unfold recReady; try dsimp only
  repeat' first
    | with_reducible first
      | assumption | apply State.setFld_grows
    | intro _
    | split
    | with_reducible apply Grows.lit
    | dsimp only

theorem execDbgRecReady_grows {s0 : State} {s : State} (hs : Grows s0 s) :
    OutGrows s0 (execDbgRecReady s) := by
  unfold execDbgRecReady; try dsimp only
  repeat' first
    | with_reducible first
      | assumption | apply OutGrows.next | apply recReady_grows
    | intro _
    | split
    | dsimp only

theorem wpFire_grows {s0 : State} (n : _) {s : State} (hs : Grows s0 s) :
    Grows s0 (wpFire n s) := by
  unfold wpFire; try dsimp only
  repeat' first
    | with_reducible first
      | assumption | apply soundingCmd_grows | apply stopCmd_grows
    | intro _
    | split
    | with_reducible apply Grows.lit
    | dsimp only

theorem execWatchPointFire_grows {s0 : State} (n : _) {s : State} (hs : Grows s0 s) :
    OutGrows s0 (execWatchPointFire n s) := by
  unfold execWatchPointFire; try dsimp only
  repeat' first
    | with_reducible first
      | assumption | apply OutGrows.next | apply wpFire_grows
    | intro _
    | split
    | dsimp only

/-! ### Functions -/

theorem State.xngStopped_grows {s0 : State} {s : State} (n : _) (hs : Grows s0 s) :
    Grows s0 (State.xngStopped s n) := by
  unfold State.xngStopped; try dsimp only
  repeat' first
    | with_reducible first
      | assumption | apply State.updXng_grows | apply State.xngDark_grows
    | intro _
    | split
    | dsimp only

theorem State.expireXng_grows {s0 : State} {s : State} (n : _) (hs : Grows s0 s) :
    Grows s0 (State.expireXng s n) := by
  unfold State.expireXng; try dsimp only
  repeat' first
    | with_reducible first
      | assumption | apply State.updXng_grows | apply State.xngDark_grows | apply State.xngDown_grows
    | intro _
    | split
    | dsimp only

theorem xngSetEn_grows {s0 : State} (n : _) {s : State} (hs : Grows s0 s) :
    Grows s0 (xngSetEn n s) := by
  unfold xngSetEn; try dsimp only
  repeat' first
    | with_reducible first
      | assumption | apply State.setBit_grows | apply State.updXng_grows | apply State.xngDetect_grows
    | intro _
    | split
    | dsimp only

theorem xngClrEn_grows {s0 : State} (n : _) {s : State} (hs : Grows s0 s) :
    Grows s0 (xngClrEn n s) := by
  unfold xngClrEn; try dsimp only
  repeat' first
    | with_reducible first
      | assumption | apply State.clrBit_grows | apply State.expireXng_grows | apply State.updXng_grows
    | intro _
    | split
    | dsimp only

theorem State.expireEp_grows {s0 : State} {s : State} (e : _) (hs : Grows s0 s) :
    Grows s0 (State.expireEp s e) := by
  unfold State.expireEp; try dsimp only
  repeat' first
    | with_reducible first
      | assumption | apply Grows.foldl | apply Grows.foldl1 | apply Grows.foldlDev | apply Grows.foldlMv
      | apply Grows.foldlDn | apply State.endColl_grows | apply State.epStopped_grows | apply State.setBit_grows
    | intro _
    | split
    | dsimp only

theorem epSetEn_grows {s0 : State} (e : _) {s : State} (hs : Grows s0 s) :
    Grows s0 (epSetEn e s) := by
  unfold epSetEn; try dsimp only
  repeat' first
    | with_reducible first
      | assumption | apply State.setBit_grows | apply State.updEp_grows
    | intro _
    | split
    | dsimp only

theorem epClrEn_grows {s0 : State} (e : _) {s : State} (hs : Grows s0 s) :
    Grows s0 (epClrEn e s) := by
  unfold epClrEn; try dsimp only
  repeat' first
    | with_reducible first
      | assumption | apply State.clrBit_grows | apply State.expireEp_grows | apply State.updEp_grows
    | intro _
    | split
    | dsimp only

theorem funcSetEn_grows {s0 : State} (u : _) {s : State} (hs : Grows s0 s) :
    Grows s0 (funcSetEn u s) := by
  unfold funcSetEn; try dsimp only
  repeat' first
    | with_reducible first
      | assumption | apply chanSetEn_grows | apply epSetEn_grows | apply medSetEn_grows | apply partSetEn_grows
      | apply queueSetEn_grows | apply ringSetEn_grows | apply xngSetEn_grows
    | intro _
    | split
    | dsimp only

theorem funcClrEn_grows {s0 : State} (u : _) {s : State} (hs : Grows s0 s) :
    Grows s0 (funcClrEn u s) := by
  unfold funcClrEn; try dsimp only
  repeat' first
    | with_reducible first
      | assumption | apply chanClrEn_grows | apply epClrEn_grows | apply medClrEn_grows | apply partClrEn_grows
      | apply queueStop_grows | apply ringClrEn_grows | apply xngClrEn_grows
    | intro _
    | split
    | dsimp only

theorem funcStopped_grows {s0 : State} (u : _) {s : State} (hs : Grows s0 s) :
    Grows s0 (funcStopped u s) := by
  unfold funcStopped; try dsimp only
  repeat' first
    | with_reducible first
      | assumption | apply State.chanStopped_grows | apply State.epStopped_grows | apply State.medStopped_grows
      | apply State.partStopped_grows | apply State.queueStopped_grows | apply State.ringStopped_grows
      | apply State.xngStopped_grows
    | intro _
    | split
    | dsimp only

theorem funcExpire_grows {s0 : State} (u : _) {s : State} (hs : Grows s0 s) :
    Grows s0 (funcExpire u s) := by
  unfold funcExpire; try dsimp only
  repeat' first
    | with_reducible first
      | assumption | apply State.expireChan_grows | apply State.expireEp_grows | apply State.expireMed_grows
      | apply State.expirePart_grows | apply State.expireQueue_grows | apply State.expireRing_grows
      | apply State.expireXng_grows
    | intro _
    | split
    | dsimp only

theorem execFunctionSetEn_grows {s0 : State} (r : _) (u : _) {s : State} (hs : Grows s0 s) :
    OutGrows s0 (execFunctionSetEn r u s) := by
  unfold execFunctionSetEn; try dsimp only
  repeat' first
    | with_reducible first
      | assumption | apply OutGrows.next | apply State.access_grows | apply funcSetEn_grows
    | intro _
    | split
    | dsimp only

theorem execFunctionClrEn_grows {s0 : State} (r : _) (u : _) {s : State} (hs : Grows s0 s) :
    OutGrows s0 (execFunctionClrEn r u s) := by
  unfold execFunctionClrEn; try dsimp only
  repeat' first
    | with_reducible first
      | assumption | apply OutGrows.next | apply State.access_grows | apply funcClrEn_grows
    | intro _
    | split
    | dsimp only

theorem execFunctionStopped_grows {s0 : State} (u : _) {s : State} (hs : Grows s0 s) :
    OutGrows s0 (execFunctionStopped u s) := by
  unfold execFunctionStopped; try dsimp only
  repeat' first
    | with_reducible first
      | assumption | apply OutGrows.next | apply funcStopped_grows
    | intro _
    | split
    | dsimp only

theorem execDrainLimitExpiry_grows {s0 : State} (u : _) {s : State} (hs : Grows s0 s) :
    OutGrows s0 (execDrainLimitExpiry u s) := by
  unfold execDrainLimitExpiry; try dsimp only
  repeat' first
    | with_reducible first
      | assumption | apply OutGrows.next | apply funcExpire_grows
    | intro _
    | split
    | dsimp only

/-! ### Window -/

theorem nwinPush_grows {s0 : State} (n : _) {s : State} (hs : Grows s0 s) :
    Grows s0 (nwinPush n s) := by
  unfold nwinPush; try dsimp only
  repeat' first
    | with_reducible first
      | assumption | apply State.setBit_grows | apply State.setPart_grows
    | intro _
    | split
    | dsimp only

theorem execNwinPush_grows {s0 : State} (r : _) (n : _) {s : State} (hs : Grows s0 s) :
    OutGrows s0 (execNwinPush r n s) := by
  unfold execNwinPush; try dsimp only
  repeat' first
    | with_reducible first
      | assumption | apply OutGrows.next | apply State.access_grows | apply nwinPush_grows
    | intro _
    | split
    | dsimp only

theorem State.unholdWin_grows {s0 : State} {s : State} (n : _) (hs : Grows s0 s) :
    Grows s0 (State.unholdWin s n) := by
  unfold State.unholdWin; try dsimp only
  repeat' first
    | with_reducible first
      | assumption | apply Grows.foldl | apply Grows.foldl1 | apply Grows.foldlDev | apply Grows.foldlMv
      | apply Grows.foldlDn | apply State.updPart_grows | apply State.winRecord_grows
    | intro _
    | split
    | dsimp only

theorem popWin_grows {s0 : State} (n : _) {s : State} (hs : Grows s0 s) :
    Grows s0 (popWin n s) := by
  unfold popWin; try dsimp only
  repeat' first
    | with_reducible first
      | assumption | apply State.answer_grows | apply State.unholdWin_grows | apply State.updPart_grows
    | intro _
    | split
    | dsimp only

theorem execNwinCplPop_grows {s0 : State} (r : _) (n : _) {s : State} (hs : Grows s0 s) :
    OutGrows s0 (execNwinCplPop r n s) := by
  unfold execNwinCplPop; try dsimp only
  repeat' first
    | with_reducible first
      | assumption | apply OutGrows.next | apply State.readAccess_grows | apply popWin_grows
    | intro _
    | split
    | dsimp only

/-! ### Thermal -/

theorem sensorSample_grows {s0 : State} (die : _) (i : _) (raw : _) (t : _) {s : State} (hs : Grows s0 s) :
    Grows s0 (sensorSample die i raw t s) := by
  unfold sensorSample; try dsimp only
  repeat' first
    | with_reducible first
      | assumption | apply State.alert_grows | apply State.report_grows | apply State.sensorIgnored_grows
      | apply State.updSensor_grows
    | intro _
    | split
    | dsimp only

theorem execSensorSample_grows {s0 : State} (die : _) (i : _) (raw : _) (temp : _) {s : State} (hs : Grows s0 s) :
    OutGrows s0 (execSensorSample die i raw temp s) := by
  unfold execSensorSample; try dsimp only
  repeat' first
    | with_reducible first
      | assumption | apply OutGrows.next | apply sensorSample_grows
    | intro _
    | split
    | dsimp only

theorem execSensorMean100ms_grows {s0 : State} (st : _) (i : _) {s : State} (hs : Grows s0 s) :
    OutGrows s0 (execSensorMean100ms st i s) := by
  unfold execSensorMean100ms; try dsimp only
  repeat' first
    | with_reducible first
      | assumption | apply OutGrows.next | apply State.sensorIgnored_grows | apply State.updSensor_grows
    | intro _
    | split
    | dsimp only

theorem State.trip_grows {s0 : State} {s : State} (hs : Grows s0 s) :
    Grows s0 (State.trip s) := by
  unfold State.trip; try dsimp only
  repeat' first
    | with_reducible first
      | assumption | apply Grows.foldl | apply Grows.foldl1 | apply Grows.foldlDev | apply Grows.foldlMv
      | apply Grows.foldlDn | apply State.updStk_grows
    | intro _
    | split
    | with_reducible apply Grows.lit
    | dsimp only

theorem execHardLimitTrip_grows {s0 : State} {s : State} (hs : Grows s0 s) :
    OutGrows s0 (execHardLimitTrip s) := by
  unfold execHardLimitTrip; try dsimp only
  repeat' first
    | with_reducible first
      | assumption | apply OutGrows.next | apply State.trip_grows
    | intro _
    | split
    | dsimp only

theorem execAnalogueComparatorTrip_grows {s0 : State} (die : _) {s : State} (hs : Grows s0 s) :
    OutGrows s0 (execAnalogueComparatorTrip die s) := by
  unfold execAnalogueComparatorTrip; try dsimp only
  repeat' first
    | with_reducible first
      | assumption | apply OutGrows.next | apply State.trip_grows
    | intro _
    | split
    | dsimp only

theorem State.sensorsLost_grows {s0 : State} {s : State} (st : _) (hs : Grows s0 s) :
    Grows s0 (State.sensorsLost s st) := by
  unfold State.sensorsLost; try dsimp only
  repeat' first
    | with_reducible first
      | assumption | apply State.alert_grows | apply State.updStk_grows
    | intro _
    | split
    | dsimp only

theorem State.pairCheck_grows {s0 : State} {s : State} (st : _) (hs : Grows s0 s) :
    Grows s0 (State.pairCheck s st) := by
  unfold State.pairCheck; try dsimp only
  repeat' first
    | with_reducible first
      | assumption | apply State.clrBit_grows | apply State.report_grows | apply State.setBit_grows
      | apply State.updStk_grows
    | intro _
    | split
    | dsimp only

theorem State.setBand_grows {s0 : State} {s : State} (st : _) (b : _) (hs : Grows s0 s) :
    Grows s0 (State.setBand s st b) := by
  unfold State.setBand; try dsimp only
  repeat' first
    | with_reducible first
      | assumption | apply State.alert_grows | apply State.report_grows | apply State.setBit_grows
      | apply State.setFld_grows | apply State.updStk_grows
    | intro _
    | split
    | dsimp only

theorem thermalLoop_grows {s0 : State} (st : _) {s : State} (hs : Grows s0 s) :
    Grows s0 (thermalLoop st s) := by
  unfold thermalLoop; try dsimp only
  repeat' first
    | with_reducible first
      | assumption | apply State.pairCheck_grows | apply State.sensorsLost_grows | apply State.setBand_grows
      | apply State.setFld_grows | apply State.updStk_grows
    | intro _
    | split
    | dsimp only

theorem execThermalLoop_grows {s0 : State} (st : _) {s : State} (hs : Grows s0 s) :
    OutGrows s0 (execThermalLoop st s) := by
  unfold execThermalLoop; try dsimp only
  repeat' first
    | with_reducible first
      | assumption | apply OutGrows.next | apply thermalLoop_grows
    | intro _
    | split
    | dsimp only

theorem State.countGov_grows {s0 : State} {s : State} (st : _) (hs : Grows s0 s) :
    Grows s0 (State.countGov s st) := by
  unfold State.countGov; try dsimp only
  repeat' first
    | with_reducible first
      | assumption | apply State.count_grows
    | intro _
    | split
    | dsimp only

theorem powerEstimate_grows {s0 : State} (st : _) (mw : _) {s : State} (hs : Grows s0 s) :
    Grows s0 (powerEstimate st mw s) := by
  unfold powerEstimate; try dsimp only
  repeat' first
    | with_reducible first
      | assumption | apply State.countGov_grows | apply State.setFld_grows | apply State.updStk_grows
    | intro _
    | split
    | dsimp only

theorem execPowerEstimate_grows {s0 : State} (st : _) (mw : _) {s : State} (hs : Grows s0 s) :
    OutGrows s0 (execPowerEstimate st mw s) := by
  unfold execPowerEstimate; try dsimp only
  repeat' first
    | with_reducible first
      | assumption | apply OutGrows.next | apply powerEstimate_grows
    | intro _
    | split
    | dsimp only

theorem execAdaptiveLevelLower_grows {s0 : State} (st : _) {s : State} (hs : Grows s0 s) :
    OutGrows s0 (execAdaptiveLevelLower st s) := by
  unfold execAdaptiveLevelLower; try dsimp only
  repeat' first
    | with_reducible first
      | assumption | apply OutGrows.next | apply State.updStk_grows
    | intro _
    | split
    | dsimp only

theorem execStartPermitGrant_grows {s0 : State} (st : _) (p : _) (t : _) {s : State} (hs : Grows s0 s) :
    OutGrows s0 (execStartPermitGrant st p t s) := by
  unfold execStartPermitGrant; try dsimp only
  repeat' first
    | with_reducible first
      | assumption | apply OutGrows.next | apply State.updArr_grows | apply State.updStk_grows
    | intro _
    | split
    | dsimp only

theorem execPstateDecision_grows {s0 : State} (st : _) (ack : _) {s : State} (hs : Grows s0 s) :
    OutGrows s0 (execPstateDecision st ack s) := by
  unfold execPstateDecision; try dsimp only
  repeat' first
    | with_reducible first
      | assumption | apply OutGrows.next | apply State.changePstate_grows | apply State.updStk_grows
    | intro _
    | split
    | dsimp only

theorem stepSettled_grows {s0 : State} (st : _) (ack : _) {s : State} (hs : Grows s0 s) :
    Grows s0 (stepSettled st ack s) := by
  unfold stepSettled; try dsimp only
  repeat' first
    | with_reducible first
      | assumption | apply State.sendStep_grows | apply State.updStk_grows
    | intro _
    | split
    | dsimp only

theorem execVoutStepSettled_grows {s0 : State} (st : _) (ack : _) {s : State} (hs : Grows s0 s) :
    OutGrows s0 (execVoutStepSettled st ack s) := by
  unfold execVoutStepSettled; try dsimp only
  repeat' first
    | with_reducible first
      | assumption | apply OutGrows.next | apply stepSettled_grows
    | intro _
    | split
    | dsimp only

theorem clockSwitch_grows {s0 : State} (st : _) (ack : _) {s : State} (hs : Grows s0 s) :
    Grows s0 (clockSwitch st ack s) := by
  unfold clockSwitch; try dsimp only
  repeat' first
    | with_reducible first
      | assumption | apply State.count_grows | apply State.sendStep_grows | apply State.setFld_grows
      | apply State.updStk_grows
    | intro _
    | split
    | dsimp only

theorem execClockSwitch_grows {s0 : State} (st : _) (ack : _) {s : State} (hs : Grows s0 s) :
    OutGrows s0 (execClockSwitch st ack s) := by
  unfold execClockSwitch; try dsimp only
  repeat' first
    | with_reducible first
      | assumption | apply OutGrows.next | apply clockSwitch_grows
    | intro _
    | split
    | dsimp only

theorem State.setCoolReg_grows {s0 : State} {s : State} (off : _) (x : _) (hs : Grows s0 s) :
    Grows s0 (State.setCoolReg s off x) := by
  unfold State.setCoolReg; try dsimp only
  repeat' first
    | with_reducible first
      | assumption | apply State.clrBit_grows | apply State.setBit_grows | apply State.setFld_grows
    | intro _
    | split
    | dsimp only

theorem State.coolAlert_grows {s0 : State} {s : State} (was : _) (now : _) (rpt : _) (cause : _) (hs : Grows s0 s) :
    Grows s0 (State.coolAlert s was now rpt cause) := by
  unfold State.coolAlert; try dsimp only
  repeat' first
    | with_reducible first
      | assumption | apply State.alert_grows | apply State.report_grows
    | intro _
    | split
    | dsimp only

theorem State.inletCheck_grows {s0 : State} {s : State} (inlet : _) (outlet : _) (hs : Grows s0 s) :
    Grows s0 (State.inletCheck s inlet outlet) := by
  unfold State.inletCheck; try dsimp only
  repeat' first
    | with_reducible first
      | assumption | apply State.coolAlert_grows
    | intro _
    | split
    | with_reducible apply Grows.lit
    | dsimp only

theorem coolantRead_grows {s0 : State} (inlet : _) (outlet : _) {s : State} (hs : Grows s0 s) :
    Grows s0 (coolantRead inlet outlet s) := by
  unfold coolantRead; try dsimp only
  repeat' first
    | with_reducible first
      | assumption | apply State.count_grows | apply State.inletCheck_grows | apply State.setCoolReg_grows
    | intro _
    | split
    | with_reducible apply Grows.lit
    | dsimp only

theorem execCoolantSensorRead_grows {s0 : State} (inlet : _) (outlet : _) {s : State} (hs : Grows s0 s) :
    OutGrows s0 (execCoolantSensorRead inlet outlet s) := by
  unfold execCoolantSensorRead; try dsimp only
  repeat' first
    | with_reducible first
      | assumption | apply OutGrows.next | apply coolantRead_grows
    | intro _
    | split
    | dsimp only

theorem execFlowPulse_grows {s0 : State} {s : State} (hs : Grows s0 s) :
    OutGrows s0 (execFlowPulse s) := by
  unfold execFlowPulse; try dsimp only
  repeat' first
    | with_reducible first
      | assumption | apply OutGrows.next | apply State.setBit_grows
    | intro _
    | split
    | with_reducible apply Grows.lit
    | dsimp only

theorem State.emergencyHalt_grows {s0 : State} {s : State} (cause : _) (code : _) (addr : _) (hs : Grows s0 s) :
    Grows s0 (State.emergencyHalt s cause code addr) := by
  unfold State.emergencyHalt; try dsimp only
  repeat' first
    | with_reducible first
      | assumption | apply State.alert_grows | apply State.report_grows
    | intro _
    | split
    | with_reducible apply Grows.lit
    | dsimp only

theorem execFlowStop_grows {s0 : State} {s : State} (hs : Grows s0 s) :
    OutGrows s0 (execFlowStop s) := by
  unfold execFlowStop; try dsimp only
  repeat' first
    | with_reducible first
      | assumption | apply OutGrows.next | apply State.clrBit_grows | apply State.emergencyHalt_grows
    | intro _
    | split
    | with_reducible apply Grows.lit
    | dsimp only

theorem State.flowCheck_grows {s0 : State} {s : State} (hs : Grows s0 s) :
    Grows s0 (State.flowCheck s) := by
  unfold State.flowCheck; try dsimp only
  repeat' first
    | with_reducible first
      | assumption | apply State.coolAlert_grows | apply State.setFld_grows
    | intro _
    | split
    | with_reducible apply Grows.lit
    | dsimp only

theorem State.coolState_grows {s0 : State} {s : State} (st : _) (est : _) (hs : Grows s0 s) :
    Grows s0 (State.coolState s st est) := by
  unfold State.coolState; try dsimp only
  repeat' first
    | with_reducible first
      | assumption | apply State.alert_grows | apply State.report_grows | apply State.updStk_grows
    | intro _
    | split
    | dsimp only

theorem State.moveCap_grows {s0 : State} {s : State} (st : _) (hs : Grows s0 s) :
    Grows s0 (State.moveCap s st) := by
  unfold State.moveCap; try dsimp only
  repeat' first
    | with_reducible first
      | assumption | apply State.updStk_grows
    | intro _
    | split
    | dsimp only

theorem State.coolStack_grows {s0 : State} {s : State} (st : _) (hs : Grows s0 s) :
    Grows s0 (State.coolStack s st) := by
  unfold State.coolStack; try dsimp only
  repeat' first
    | with_reducible first
      | assumption | apply State.coolState_grows | apply State.emergencyHalt_grows | apply State.moveCap_grows
      | apply State.setFld_grows | apply State.updStk_grows
    | intro _
    | split
    | with_reducible apply Grows.lit
    | dsimp only

theorem coolantEstimate_grows {s0 : State} {s : State} (hs : Grows s0 s) :
    Grows s0 (coolantEstimate s) := by
  unfold coolantEstimate; try dsimp only
  repeat' first
    | with_reducible first
      | assumption | apply Grows.foldl | apply Grows.foldl1 | apply Grows.foldlDev | apply Grows.foldlMv
      | apply Grows.foldlDn | apply State.coolStack_grows | apply State.flowCheck_grows
    | intro _
    | split
    | with_reducible apply Grows.lit
    | dsimp only

theorem execCoolantEstimate_grows {s0 : State} {s : State} (hs : Grows s0 s) :
    OutGrows s0 (execCoolantEstimate s) := by
  unfold execCoolantEstimate; try dsimp only
  repeat' first
    | with_reducible first
      | assumption | apply OutGrows.next | apply coolantEstimate_grows
    | intro _
    | split
    | dsimp only

theorem resume_grows {s0 : State} {s : State} (hs : Grows s0 s) :
    Grows s0 (resume s) := by
  unfold resume; try dsimp only
  repeat' first
    | with_reducible first
      | assumption | apply State.setBit_grows
    | intro _
    | split
    | with_reducible apply Grows.lit
    | dsimp only

theorem execGovResume_grows {s0 : State} (r : _) {s : State} (hs : Grows s0 s) :
    OutGrows s0 (execGovResume r s) := by
  unfold execGovResume; try dsimp only
  repeat' first
    | with_reducible first
      | assumption | apply OutGrows.next | apply State.access_grows | apply resume_grows
    | intro _
    | split
    | dsimp only

theorem clearAlerts_grows {s0 : State} (v : _) {s : State} (hs : Grows s0 s) :
    Grows s0 (clearAlerts v s) := by
  unfold clearAlerts; try dsimp only
  repeat' first
    | with_reducible first
      | assumption | apply Grows.foldl | apply Grows.foldl1 | apply Grows.foldlDev | apply Grows.foldlMv
      | apply Grows.foldlDn | apply State.clrBit_grows | apply State.setFld_grows
    | intro _
    | split
    | dsimp only

/-! ### Toll -/

theorem State.updToll_grows {s : State} {f : Toll → Toll} (h : Grows s0 s) (hf : ∀ T, (f T).sealCnt = T.sealCnt) :
    Grows s0 (s.updToll f) := h.toll rfl rfl rfl rfl rfl rfl (hf _)

@[simp] theorem Toll.flag_sealCnt (T : Toll) (i : Nat) : (T.flag i).sealCnt = T.sealCnt := rfl

@[simp] theorem Toll.sample_sealCnt (T : Toll) (p : List Nat) (b : Bool) : (T.sample p b).sealCnt = T.sealCnt := by
  unfold Toll.sample; dsimp only; split <;> rfl

@[simp] theorem Toll.gap_sealCnt (T : Toll) : T.gap.sealCnt = T.sealCnt := rfl

@[simp] theorem Toll.write_sealCnt (T : Toll) (l : List Byte) (b : Bool) : (T.write l b).sealCnt = T.sealCnt := by
  unfold Toll.write; dsimp only; split <;> rfl

@[simp] theorem Toll.nextSecond_sealCnt (T : Toll) : T.nextSecond.sealCnt = T.sealCnt := by
  unfold Toll.nextSecond; dsimp only; split
  · rfl
  · split <;> rfl

@[simp] theorem Toll.addAudit_sealCnt (T : Toll) (a b : Nat) (c : Bool) : (T.addAudit a b c).sealCnt = T.sealCnt := by
  by_cases h : T.audit.length < (if c = true then 4096 else 3840) <;> simp only [Toll.addAudit, h, if_true, if_false]

theorem execTollSample_grows {s0 : State} (power : _) (sat : _) {s : State} (hs : Grows s0 s) :
    OutGrows s0 (execTollSample power sat s) := by
  unfold execTollSample; try dsimp only
  repeat' first
    | with_reducible first
      | assumption | apply OutGrows.next | apply State.updToll_grows
    | intro _
    | split
    | dsimp only
    | rfl
    | simp

theorem execFeedFrame_grows {s0 : State} (frame : _) (crcOk : _) {s : State} (hs : Grows s0 s) :
    OutGrows s0 (execFeedFrame frame crcOk s) := by
  unfold execFeedFrame; try dsimp only
  repeat' first
    | with_reducible first
      | assumption | apply OutGrows.next | apply Grows.foldl | apply Grows.foldl1 | apply Grows.foldlDev
      | apply Grows.foldlMv | apply Grows.foldlDn | apply State.updStk_grows | apply State.updToll_grows
    | intro _
    | split
    | dsimp only
    | rfl
    | simp

theorem execFeedGap_grows {s0 : State} {s : State} (hs : Grows s0 s) :
    OutGrows s0 (execFeedGap s) := by
  unfold execFeedGap; try dsimp only
  repeat' first
    | with_reducible first
      | assumption | apply OutGrows.next | apply State.updToll_grows
    | intro _
    | split
    | dsimp only
    | rfl
    | simp

theorem State.closeSummary_grows {s0 : State} {s : State} (hs : Grows s0 s) :
    Grows s0 (State.closeSummary s) := by
  unfold State.closeSummary; try dsimp only
  repeat' first
    | with_reducible first
      | assumption | apply State.freeBytes_grows | apply State.updToll_grows
    | intro _
    | split
    | dsimp only
    | rfl
    | simp

theorem execTollSummary_grows {s0 : State} {s : State} (hs : Grows s0 s) :
    OutGrows s0 (execTollSummary s) := by
  unfold execTollSummary; try dsimp only
  repeat' first
    | with_reducible first
      | assumption | apply OutGrows.next | apply State.closeSummary_grows
    | intro _
    | split
    | dsimp only

theorem tollSecond_grows {s0 : State} (memOk : _) {s : State} (hs : Grows s0 s) :
    Grows s0 (tollSecond memOk s) := by
  unfold tollSecond; try dsimp only
  repeat' first
    | with_reducible first
      | assumption | apply State.closeSummary_grows | apply State.freeBytes_grows | apply State.updToll_grows
    | intro _
    | split
    | dsimp only
    | rfl
    | simp

theorem execTollSecond_grows {s0 : State} (memOk : _) {s : State} (hs : Grows s0 s) :
    OutGrows s0 (execTollSecond memOk s) := by
  unfold execTollSecond; try dsimp only
  repeat' first
    | with_reducible first
      | assumption | apply OutGrows.next | apply tollSecond_grows
    | intro _
    | split
    | dsimp only

theorem execTollCalEnChange_grows {s0 : State} (level : _) {s : State} (hs : Grows s0 s) :
    OutGrows s0 (execTollCalEnChange level s) := by
  unfold execTollCalEnChange; try dsimp only
  repeat' first
    | with_reducible first
      | assumption | apply OutGrows.next | apply State.updToll_grows
    | intro _
    | split
    | with_reducible apply Grows.lit
    | dsimp only
    | rfl
    | simp

theorem mbGo_grows {s0 : State} (m : _) {s : State} (hs : Grows s0 s) :
    Grows s0 (mbGo m s) := by
  unfold mbGo; try dsimp only
  repeat' first
    | with_reducible first
      | assumption | apply State.setFld_grows | apply State.updToll_grows
    | intro _
    | split
    | dsimp only
    | rfl
    | simp

theorem State.mbAnswer_grows {s0 : State} {s : State} (m : _) (code : _) (body : _) (hs : Grows s0 s) :
    Grows s0 (State.mbAnswer s m code body) := by
  unfold State.mbAnswer; try dsimp only
  repeat' first
    | with_reducible first
      | assumption | apply State.updToll_grows
    | intro _
    | split
    | dsimp only
    | rfl
    | simp

theorem execIdentify_grows {s0 : State} (m : _) {s : State} (hs : Grows s0 s) :
    OutGrows s0 (execIdentify m s) := by
  unfold execIdentify; try dsimp only
  repeat' first
    | with_reducible first
      | assumption | apply OutGrows.next | apply State.mbAnswer_grows
    | intro _
    | split
    | dsimp only

theorem execStatus_grows {s0 : State} (m : _) {s : State} (hs : Grows s0 s) :
    OutGrows s0 (execStatus m s) := by
  unfold execStatus; try dsimp only
  repeat' first
    | with_reducible first
      | assumption | apply OutGrows.next | apply State.mbAnswer_grows
    | intro _
    | split
    | dsimp only

theorem execReadRecord_grows {s0 : State} (m : _) {s : State} (hs : Grows s0 s) :
    OutGrows s0 (execReadRecord m s) := by
  unfold execReadRecord; try dsimp only
  repeat' first
    | with_reducible first
      | assumption | apply OutGrows.next | apply State.mbAnswer_grows
    | intro _
    | split
    | dsimp only

theorem execReadSummary_grows {s0 : State} (m : _) {s : State} (hs : Grows s0 s) :
    OutGrows s0 (execReadSummary m s) := by
  unfold execReadSummary; try dsimp only
  repeat' first
    | with_reducible first
      | assumption | apply OutGrows.next | apply State.mbAnswer_grows
    | intro _
    | split
    | dsimp only

theorem execSignRange_grows {s0 : State} (m : _) {s : State} (hs : Grows s0 s) :
    OutGrows s0 (execSignRange m s) := by
  unfold execSignRange; try dsimp only
  repeat' first
    | with_reducible first
      | assumption | apply OutGrows.next | apply State.freeBytes_grows | apply State.mbAnswer_grows
    | intro _
    | split
    | dsimp only

theorem execReadAudit_grows {s0 : State} (m : _) {s : State} (hs : Grows s0 s) :
    OutGrows s0 (execReadAudit m s) := by
  unfold execReadAudit; try dsimp only
  repeat' first
    | with_reducible first
      | assumption | apply OutGrows.next | apply State.mbAnswer_grows
    | intro _
    | split
    | dsimp only

theorem execMbBadOpcode_grows {s0 : State} (m : _) {s : State} (hs : Grows s0 s) :
    OutGrows s0 (execMbBadOpcode m s) := by
  unfold execMbBadOpcode; try dsimp only
  repeat' first
    | with_reducible first
      | assumption | apply OutGrows.next | apply State.mbAnswer_grows
    | intro _
    | split
    | dsimp only

theorem execCalibrate_grows {s : State} (m : Fin 17) (message : List Byte) (pinHeld : Bool) (h : Grows s0 s) :
    OutGrows s0 (execCalibrate m message pinHeld s) := by
  unfold execCalibrate
  refine OutGrows.next ?_
  split
  · split
    · exact State.mbAnswer_grows _ _ _ (State.updToll_grows h (by simp))
    · split
      · exact State.mbAnswer_grows _ _ _ (State.updToll_grows h (by simp))
      · rename_i hc
        have hlt : s.toll.sealCnt < 256 := by
          simp only [calMessageOk, Bool.not_eq_true, Bool.not_eq_false', Bool.and_eq_true, decide_eq_true_eq] at hc
          omega
        refine State.mbAnswer_grows _ _ _ ?_
        exact ⟨h.pending, h.mem, h.regs, h.svn, h.revoked, h.free, by simpa [State.updToll] using Nat.le_succ_of_le h.seals,
          fun _ => by simpa [State.updToll] using hlt, h.wire⟩
  · exact h

theorem mbDone_grows {s0 : State} (m : _) (code : _) (body : _) {s : State} (hs : Grows s0 s) :
    Grows s0 (mbDone m code body s) := by
  unfold mbDone; try dsimp only
  repeat' first
    | with_reducible first
      | assumption | apply Grows.foldl | apply Grows.foldl1 | apply Grows.foldlDev | apply Grows.foldlMv
      | apply Grows.foldlDn | apply State.irq_grows | apply State.send_grows | apply State.setReg_grows
      | apply State.updToll_grows
    | intro _
    | split
    | dsimp only
    | rfl
    | simp

theorem execTollMbDone_grows {s0 : State} (m : _) {s : State} (hs : Grows s0 s) :
    OutGrows s0 (execTollMbDone m s) := by
  unfold execTollMbDone; try dsimp only
  repeat' first
    | with_reducible first
      | assumption | apply OutGrows.next | apply mbDone_grows
    | intro _
    | split
    | dsimp only

/-! ### Pins -/

theorem execPwrGoodRise_grows {s : State} (h : Grows s0 s) : OutGrows s0 (execPwrGoodRise s) := by
  unfold execPwrGoodRise
  refine OutGrows.next ?_
  dsimp only
  split
  · exact h
  · split
    · exact h.toll rfl rfl rfl rfl rfl rfl rfl
    · exact State.startBoot_grows _ (h.toll rfl rfl rfl rfl rfl rfl rfl)

theorem powerLoss_grows {s : State} (h : Grows s0 s) : Grows s0 (powerLoss s) :=
  ⟨h.pending, fun _ => rfl, fun _ => rfl, h.svn, h.revoked, h.free, h.seals, h.sealMax, h.wire⟩

theorem execPwrGoodFall_grows {s0 : State} {s : State} (hs : Grows s0 s) :
    OutGrows s0 (execPwrGoodFall s) := by
  unfold execPwrGoodFall; try dsimp only
  repeat' first
    | with_reducible first
      | assumption | apply OutGrows.next | apply powerLoss_grows
    | intro _
    | split
    | dsimp only

theorem execPerstNAssert_grows {s0 : State} {s : State} (hs : Grows s0 s) :
    OutGrows s0 (execPerstNAssert s) := by
  unfold execPerstNAssert; try dsimp only
  repeat' first
    | with_reducible first
      | assumption | apply OutGrows.next | apply State.clearPkg_grows
    | intro _
    | split
    | with_reducible apply Grows.lit
    | dsimp only

theorem execPerstNRelease_grows {s0 : State} (mode : _) {s : State} (hs : Grows s0 s) :
    OutGrows s0 (execPerstNRelease mode s) := by
  unfold execPerstNRelease; try dsimp only
  repeat' first
    | with_reducible first
      | assumption | apply OutGrows.next | apply State.startBoot_grows
    | intro _
    | split
    | with_reducible apply Grows.lit
    | dsimp only

theorem execRefclkSysAbsent_grows {s0 : State} {s : State} (hs : Grows s0 s) :
    OutGrows s0 (execRefclkSysAbsent s) := by
  unfold execRefclkSysAbsent; try dsimp only
  repeat' first
    | with_reducible first
      | assumption | apply OutGrows.next | apply Grows.foldl | apply Grows.foldl1 | apply Grows.foldlDev
      | apply Grows.foldlMv | apply Grows.foldlDn | apply State.alert_grows | apply State.updStk_grows
    | intro _
    | split
    | with_reducible apply Grows.lit
    | dsimp only

/-! ### Link -/

theorem State.countLink_grows {s0 : State} {s : State} (die : _) (i : _) (m : _) (n : _) (hs : Grows s0 s) :
    Grows s0 (State.countLink s die i m n) := by
  unfold State.countLink; try dsimp only
  repeat' first
    | with_reducible first
      | assumption | apply State.count_grows
    | intro _
    | split
    | dsimp only

theorem State.sendFrame_grows {s0 : State} {s : State} (die : _) (m : _) (f : _) (hs : Grows s0 s) :
    Grows s0 (State.sendFrame s die m f) := by
  unfold State.sendFrame; try dsimp only
  repeat' first
    | with_reducible first
      | assumption | apply State.countLink_grows | apply State.send_grows
    | intro _
    | split
    | dsimp only

theorem State.replayFrames_grows {s0 : State} {s : State} (die : _) (m : _) (hs : Grows s0 s) :
    Grows s0 (State.replayFrames s die m) := by
  unfold State.replayFrames; try dsimp only
  repeat' first
    | with_reducible first
      | assumption | apply Grows.foldl | apply Grows.foldl1 | apply Grows.foldlDev | apply Grows.foldlMv
      | apply Grows.foldlDn | apply State.addFld_grows | apply State.countLink_grows | apply State.sendFrame_grows
      | apply State.updLink_grows
    | intro _
    | split
    | dsimp only

theorem receiveFrame_grows {s0 : State} (die : _) (m : _) (f : _) {s : State} (hs : Grows s0 s) :
    Grows s0 (receiveFrame die m f s) := by
  unfold receiveFrame; try dsimp only
  repeat' first
    | with_reducible first
      | assumption | apply State.replayFrames_grows | apply State.sendFrame_grows | apply State.setLink_grows
      | apply State.updLink_grows
    | intro _
    | split
    | dsimp only

theorem execD2dFrameReceive_grows {s0 : State} (m : _) (frame : _) {s : State} (hs : Grows s0 s) :
    OutGrows s0 (execD2dFrameReceive m frame s) := by
  unfold execD2dFrameReceive; try dsimp only
  repeat' first
    | with_reducible first
      | assumption | apply OutGrows.next | apply receiveFrame_grows
    | intro _
    | split
    | dsimp only

theorem State.startRetrain_grows {s0 : State} {s : State} (die : _) (m : _) (hs : Grows s0 s) :
    Grows s0 (State.startRetrain s die m) := by
  unfold State.startRetrain; try dsimp only
  repeat' first
    | with_reducible first
      | assumption | apply State.refreshRoute_grows | apply State.setFld_grows
    | intro _
    | split
    | dsimp only

theorem replayTick_grows {s0 : State} (die : _) (m : _) {s : State} (hs : Grows s0 s) :
    Grows s0 (replayTick die m s) := by
  unfold replayTick; try dsimp only
  repeat' first
    | with_reducible first
      | assumption | apply State.report_grows | apply State.setBit_grows | apply State.setLink_grows
      | apply State.startRetrain_grows | apply State.updLink_grows
    | intro _
    | split
    | dsimp only

theorem execReplayRateTick_grows {s0 : State} (m : _) {s : State} (hs : Grows s0 s) :
    OutGrows s0 (execReplayRateTick m s) := by
  unfold execReplayRateTick; try dsimp only
  repeat' first
    | with_reducible first
      | assumption | apply OutGrows.next | apply replayTick_grows
    | intro _
    | split
    | dsimp only

theorem retrainWrite_grows {s0 : State} (die : _) (m : _) {s : State} (hs : Grows s0 s) :
    Grows s0 (retrainWrite die m s) := by
  unfold retrainWrite; try dsimp only
  repeat' first
    | with_reducible first
      | assumption | apply State.startRetrain_grows
    | intro _
    | split
    | dsimp only

theorem execDfLinkRetrain_grows {s0 : State} (r : _) (m : _) {s : State} (hs : Grows s0 s) :
    OutGrows s0 (execDfLinkRetrain r m s) := by
  unfold execDfLinkRetrain; try dsimp only
  repeat' first
    | with_reducible first
      | assumption | apply OutGrows.next | apply State.access_grows | apply retrainWrite_grows
    | intro _
    | split
    | dsimp only

theorem retrainEnd_grows {s0 : State} (die : _) (m : _) (ok : _) (spared : _) {s : State} (hs : Grows s0 s) :
    Grows s0 (retrainEnd die m ok spared s) := by
  unfold retrainEnd; try dsimp only
  repeat' first
    | with_reducible first
      | assumption | apply State.refreshRoute_grows | apply State.setFld_grows | apply State.updLink_grows
    | intro _
    | split
    | dsimp only

theorem execD2dRetrainDone_grows {s0 : State} (m : _) (ok : _) (spared : _) {s : State} (hs : Grows s0 s) :
    OutGrows s0 (execD2dRetrainDone m ok spared s) := by
  unfold execD2dRetrainDone; try dsimp only
  repeat' first
    | with_reducible first
      | assumption | apply OutGrows.next | apply retrainEnd_grows
    | intro _
    | split
    | dsimp only

theorem disableWrite_grows {s0 : State} (die : _) (m : _) (v : _) {s : State} (hs : Grows s0 s) :
    Grows s0 (disableWrite die m v s) := by
  unfold disableWrite; try dsimp only
  repeat' first
    | with_reducible first
      | assumption | apply State.refreshRoute_grows | apply State.setFld_grows | apply State.startRetrain_grows
    | intro _
    | split
    | dsimp only

theorem execDfLinkDisable_grows {s0 : State} (r : _) (m : _) (v : _) {s : State} (hs : Grows s0 s) :
    OutGrows s0 (execDfLinkDisable r m v s) := by
  unfold execDfLinkDisable; try dsimp only
  repeat' first
    | with_reducible first
      | assumption | apply OutGrows.next | apply State.access_grows | apply disableWrite_grows
    | intro _
    | split
    | dsimp only

/-! ### RegRead -/

theorem State.clearRc_grows {s0 : State} {s : State} (a : _) (fs : _) (hs : Grows s0 s) :
    Grows s0 (State.clearRc s a fs) := by
  unfold State.clearRc; try dsimp only
  repeat' first
    | with_reducible first
      | assumption | apply Grows.foldl | apply Grows.foldl1 | apply Grows.foldlDev | apply Grows.foldlMv
      | apply Grows.foldlDn | apply State.setFld_grows
    | intro _
    | split
    | dsimp only

theorem popAt_grows {s u : State} (a ty inst : Nat) (h : Grows s0 s) (hu : popAt s a ty inst = some u) : Grows s0 u := by
  unfold popAt at hu
  split at hu <;> simp only [Option.some.injEq, reduceCtorEq] at hu
  all_goals subst hu
  · exact popCpl_grows _ h
  · exact popBrg_grows _ h
  · exact popMedia_grows _ h
  · exact popWin_grows _ h
  · exact popRpt_grows _ h
  · exact popProp_grows h

theorem readReg_grows {s : State} (r : Req) (a : Nat) (h : Grows s0 s) : Grows s0 (readReg r a s) := by
  unfold readReg
  split
  · exact State.answer_grows _ h
  · split
    · exact popAt_grows _ _ _ h ‹_›
    · split
      · exact State.answer_grows _ h.lit
      · exact State.answer_grows _ (State.clearRc_grows _ _ (h.foldl fun u b hu => State.capture_grows _ _ hu))

theorem readReg8_grows {s0 : State} (r : _) (a : _) {s : State} (hs : Grows s0 s) :
    Grows s0 (readReg8 r a s) := by
  unfold readReg8; try dsimp only
  repeat' first
    | with_reducible first
      | assumption | apply State.answer_grows | apply readReg_grows
    | intro _
    | split
    | dsimp only

/-! ### RegWrite -/

theorem writeField_grows {s0 : State} (r : _) (ty : _) (a : _) (v : _) {s : State} (f : _) (hs : Grows s0 s) :
    Grows s0 (writeField r ty a v s f) := by
  unfold writeField; try dsimp only
  repeat' first
    | with_reducible first
      | assumption | apply State.setFld_grows | apply State.wrRej_grows
    | intro _
    | split
    | dsimp only

theorem plainWrite_grows {s0 : State} (r : _) (ty : _) (a : _) (v : _) {s : State} (hs : Grows s0 s) :
    Grows s0 (plainWrite r ty a v s) := by
  unfold plainWrite; try dsimp only
  repeat' first
    | with_reducible first
      | assumption | apply Grows.foldl | apply Grows.foldl1 | apply Grows.foldlDev | apply Grows.foldlMv
      | apply Grows.foldlDn | apply writeField_grows
    | intro _
    | split
    | dsimp only

/-- Each operation of a list of bit operations takes nothing back. -/
def AllGrow (s0 : State) (l : List (Nat × (State → State))) : Prop := ∀ e ∈ l, ∀ u, Grows s0 u → Grows s0 (e.2 u)

theorem AllGrow.nil : AllGrow s0 [] := by simp [AllGrow]

theorem AllGrow.cons {n : Nat} {f : State → State} {l : List (Nat × (State → State))}
    (h : ∀ u, Grows s0 u → Grows s0 (f u)) (hl : AllGrow s0 l) : AllGrow s0 ((n, f) :: l) :=
  List.forall_mem_cons.2 ⟨h, hl⟩

theorem onBits_grows {s : State} (v : Nat) (l : List (Nat × (State → State))) (h : Grows s0 s) (hl : AllGrow s0 l) :
    Grows s0 (onBits v l s) := by
  unfold onBits
  induction l generalizing s with
  | nil => exact h
  | cons e l ih =>
    refine ih ?_ fun x hx => hl x (List.mem_cons_of_mem _ hx)
    dsimp only
    split
    · exact hl e (List.mem_cons_self ..) _ h
    · exact h

theorem fnEnable_grows {s0 : State} (die : _) (ty : _) (inst : _) (en : _) {s : State} (hs : Grows s0 s) :
    Grows s0 (fnEnable die ty inst en s) := by
  unfold fnEnable; try dsimp only
  repeat' first
    | with_reducible first
      | assumption | apply chanClrEn_grows | apply chanSetEn_grows | apply epClrEn_grows | apply epSetEn_grows
      | apply medClrEn_grows | apply medSetEn_grows | apply xngClrEn_grows | apply xngSetEn_grows
    | intro _
    | split
    | dsimp only

theorem writeHdrCtrl_grows {s0 : State} (a : _) (ty : _) (inst : _) (v : _) {s : State} (hs : Grows s0 s) :
    Grows s0 (writeHdrCtrl a ty inst v s) := by
  unfold writeHdrCtrl; try dsimp only
  repeat' first
    | with_reducible first
      | assumption | apply State.clrBit_grows | apply fnEnable_grows
    | intro _
    | split
    | dsimp only

theorem forceIrq_grows {s0 : State} (a : _) (ty : _) (v : _) {s : State} (hs : Grows s0 s) :
    Grows s0 (forceIrq a ty v s) := by
  unfold forceIrq; try dsimp only
  repeat' first
    | with_reducible first
      | assumption | apply State.setFld_grows
    | intro _
    | split
    | dsimp only

theorem writeLock_grows {s0 : State} (r : _) (a : _) (ty : _) (v : _) {s : State} (hs : Grows s0 s) :
    Grows s0 (writeLock r a ty v s) := by
  unfold writeLock; try dsimp only
  repeat' first
    | with_reducible first
      | assumption | apply State.clrBit_grows | apply State.setBit_grows
    | intro _
    | split
    | dsimp only

theorem writeHdr_grows {s0 : State} (r : _) (a : _) (ty : _) (inst : _) (v : _) {s : State} (hs : Grows s0 s) :
    Grows s0 (writeHdr r a ty inst v s) := by
  unfold writeHdr; try dsimp only
  repeat' first
    | with_reducible first
      | assumption | apply forceIrq_grows | apply plainWrite_grows | apply writeHdrCtrl_grows
      | apply writeLock_grows
    | intro _
    | split
    | dsimp only

theorem writeArr_grows {s0 : State} (r : _) (a : _) (k : _) (v : _) {s : State} (hs : Grows s0 s) :
    Grows s0 (writeArr r a k v s) := by
  unfold writeArr; try dsimp only
  repeat' first
    | with_reducible first
      | assumption | apply State.updArr_grows | apply plainWrite_grows | apply writeArrCfg_grows
      | apply writeArrRng_grows
    | intro _
    | split
    | dsimp only

theorem pushWord_grows {s0 : State} (k : _) (off : _) (v : _) {s : State} (hs : Grows s0 s) :
    Grows s0 (pushWord k off v s) := by
  unfold pushWord; try dsimp only
  repeat' first
    | with_reducible first
      | assumption | apply State.updQueue_grows
    | intro _
    | split
    | dsimp only

theorem writePqCtrl_grows {s0 : State} (k : _) (v : _) {s : State} (hs : Grows s0 s) :
    Grows s0 (writePqCtrl k v s) := by
  unfold writePqCtrl; try dsimp only
  repeat' first
    | with_reducible first
      | assumption | apply AllGrow.cons | apply AllGrow.nil | apply flushQueue_grows | apply onBits_grows
      | apply queueSetEn_grows | apply queueStop_grows | apply skipQueue_grows
    | intro _
    | split
    | dsimp only

theorem writePq_grows {s0 : State} (r : _) (a : _) (k : _) (v : _) {s : State} (hs : Grows s0 s) :
    Grows s0 (writePq r a k v s) := by
  unfold writePq; try dsimp only
  repeat' first
    | with_reducible first
      | assumption | apply AllGrow.cons | apply AllGrow.nil | apply State.setFld_grows | apply State.updPlot_grows
      | apply kickDog_grows | apply onBits_grows | apply plainWrite_grows | apply pushQueue_grows
      | apply pushWord_grows | apply sendToken_grows | apply stewardFault_grows | apply writeCtr_grows
      | apply writeHg_grows | apply writePqCtrl_grows | apply writeSlot_grows | apply writeVecRng_grows
    | intro _
    | split
    | dsimp only

theorem writeBrg_grows {s0 : State} (r : _) (ty : _) (a : _) (c : _) (v : _) {s : State} (hs : Grows s0 s) :
    Grows s0 (writeBrg r ty a c v s) := by
  unfold writeBrg; try dsimp only
  repeat' first
    | with_reducible first
      | assumption | apply AllGrow.cons | apply AllGrow.nil | apply State.updChan_grows | apply brgGo_grows
      | apply brgPush_grows | apply onBits_grows | apply plainWrite_grows | apply writeOwner_grows
    | intro _
    | split
    | dsimp only

theorem writeCnt_grows {s0 : State} (r : _) (ty : _) (a : _) (k : _) (v : _) {s : State} (hs : Grows s0 s) :
    Grows s0 (writeCnt r ty a k v s) := by
  unfold writeCnt; try dsimp only
  repeat' first
    | with_reducible first
      | assumption | apply cntSampleCmd_grows | apply plainWrite_grows
    | intro _
    | split
    | dsimp only

theorem writeSlc_grows {s0 : State} (r : _) (a : _) (k : _) (v : _) {s : State} (hs : Grows s0 s) :
    Grows s0 (writeSlc r a k v s) := by
  unfold writeSlc; try dsimp only
  repeat' first
    | with_reducible first
      | assumption | apply State.setFld_grows | apply plainWrite_grows | apply startPpr_grows
    | intro _
    | split
    | dsimp only

theorem writeNor_grows {s0 : State} (r : _) (a : _) (k : _) (v : _) {s : State} (hs : Grows s0 s) :
    Grows s0 (writeNor r a k v s) := by
  unfold writeNor; try dsimp only
  repeat' first
    | with_reducible first
      | assumption | apply plainWrite_grows | apply xchkGo_grows
    | intro _
    | split
    | dsimp only

theorem writeRh_grows {s0 : State} (r : _) (a : _) (st : _) (q : _) (v : _) {s : State} (hs : Grows s0 s) :
    Grows s0 (writeRh r a st q v s) := by
  unfold writeRh; try dsimp only
  repeat' first
    | with_reducible first
      | assumption | apply fenceMask_grows | apply plainWrite_grows | apply writePlotCtrl_grows
    | intro _
    | split
    | dsimp only

theorem writeDf_grows {s0 : State} (r : _) (ty : _) (a : _) (v : _) {s : State} (hs : Grows s0 s) :
    Grows s0 (writeDf r ty a v s) := by
  unfold writeDf; try dsimp only
  repeat' first
    | with_reducible first
      | assumption | apply disableWrite_grows | apply plainWrite_grows | apply retrainWrite_grows
    | intro _
    | split
    | dsimp only

theorem writeGov_grows {s0 : State} (r : _) (a : _) (v : _) {s : State} (hs : Grows s0 s) :
    Grows s0 (writeGov r a v s) := by
  unfold writeGov; try dsimp only
  repeat' first
    | with_reducible first
      | assumption | apply State.setFld_grows | apply plainWrite_grows
    | intro _
    | split
    | dsimp only

theorem writeCc_grows {s0 : State} (r : _) (a : _) (st : _) (v : _) {s : State} (hs : Grows s0 s) :
    Grows s0 (writeCc r a st v s) := by
  unfold writeCc; try dsimp only
  repeat' first
    | with_reducible first
      | assumption | apply coreRelease_grows | apply coreTokenTx_grows | apply plainWrite_grows
    | intro _
    | split
    | dsimp only

theorem writeImsic_grows {s0 : State} (a : _) (st : _) (inst : _) (v : _) {s : State} (hs : Grows s0 s) :
    Grows s0 (writeImsic a st inst v s) := by
  unfold writeImsic; try dsimp only
  repeat' first
    | with_reducible first
      | assumption | apply State.updCore_grows
    | intro _
    | split
    | dsimp only

theorem writePkg_grows {s0 : State} (r : _) (a : _) (v : _) {s : State} (hs : Grows s0 s) :
    Grows s0 (writePkg r a v s) := by
  unfold writePkg; try dsimp only
  repeat' first
    | with_reducible first
      | assumption | apply Grows.foldl | apply Grows.foldl1 | apply Grows.foldlDev | apply Grows.foldlMv
      | apply Grows.foldlDn | apply State.updStk_grows | apply plainWrite_grows
    | intro _
    | split
    | dsimp only

theorem writeBootCtrl_grows {s0 : State} (v : _) {s : State} (hs : Grows s0 s) :
    Grows s0 (writeBootCtrl v s) := by
  unfold writeBootCtrl; try dsimp only
  repeat' first
    | with_reducible first
      | assumption | apply State.attemptWrite_grows | apply State.pkgReset_grows | apply State.showAttempts_grows
      | apply warmCmd_grows | apply writeNextSlot_grows
    | intro _
    | split
    | dsimp only

theorem writeBoot_grows {s0 : State} (r : _) (a : _) (v : _) {s : State} (hs : Grows s0 s) :
    Grows s0 (writeBoot r a v s) := by
  unfold writeBoot; try dsimp only
  repeat' first
    | with_reducible first
      | assumption | apply plainWrite_grows | apply storeCmd_grows | apply writeBootCtrl_grows
    | intro _
    | split
    | dsimp only

theorem writeThm_grows {s0 : State} (r : _) (a : _) (v : _) {s : State} (hs : Grows s0 s) :
    Grows s0 (writeThm r a v s) := by
  unfold writeThm; try dsimp only
  repeat' first
    | with_reducible first
      | assumption | apply clearAlerts_grows | apply plainWrite_grows | apply resume_grows
    | intro _
    | split
    | dsimp only

theorem tokenWord4_grows {s0 : State} (i : _) (v : _) {s : State} (hs : Grows s0 s) :
    Grows s0 (tokenWord4 i v s) := by
  unfold tokenWord4; try dsimp only
  repeat' first
    | with_reducible first
      | assumption | apply Grows.foldl | apply Grows.foldl1 | apply Grows.foldlDev | apply Grows.foldlMv
      | apply Grows.foldlDn | apply submitToken_grows
    | intro _
    | split
    | with_reducible apply Grows.lit
    | dsimp only

theorem writeSec_grows {s0 : State} (r : _) (a : _) (v : _) {s : State} (hs : Grows s0 s) :
    Grows s0 (writeSec r a v s) := by
  unfold writeSec; try dsimp only
  repeat' first
    | with_reducible first
      | assumption | apply AllGrow.cons | apply AllGrow.nil | apply onBits_grows | apply plainWrite_grows
      | apply revokeCmd_grows | apply svnCommitCmd_grows | apply tokenWord4_grows
    | intro _
    | split
    | dsimp only

theorem writeRing_grows {s0 : State} (r : _) (ty : _) (a : _) (g : _) (v : _) {s : State} (hs : Grows s0 s) :
    Grows s0 (writeRing r ty a g v s) := by
  unfold writeRing; try dsimp only
  repeat' first
    | with_reducible first
      | assumption | apply AllGrow.cons | apply AllGrow.nil | apply State.setFld_grows | apply onBits_grows
      | apply plainWrite_grows | apply ringClrEn_grows | apply ringSetEn_grows
    | intro _
    | split
    | dsimp only

theorem writeWinBase_grows {s0 : State} (a : _) (f : _) (v : _) {s : State} (hs : Grows s0 s) :
    Grows s0 (writeWinBase a f v s) := by
  unfold writeWinBase; try dsimp only
  repeat' first
    | with_reducible first
      | assumption | apply State.setFld_grows
    | intro _
    | split
    | dsimp only

theorem writeLnd_grows {s0 : State} (r : _) (a : _) (v : _) {s : State} (hs : Grows s0 s) :
    Grows s0 (writeLnd r a v s) := by
  unfold writeLnd; try dsimp only
  repeat' first
    | with_reducible first
      | assumption | apply AllGrow.cons | apply AllGrow.nil | apply State.resetPart_grows | apply onBits_grows
      | apply partClrEn_grows | apply partSetEn_grows | apply plainWrite_grows | apply writePartCfg_grows
      | apply writeRing_grows | apply writeWinBase_grows
    | intro _
    | split
    | dsimp only

theorem State.armWp_grows {s0 : State} {s : State} (n : _) (hs : Grows s0 s) :
    Grows s0 (State.armWp s n) := by
  unfold State.armWp; try dsimp only
  repeat' first
    | with_reducible first
      | assumption
    | intro _
    | split
    | with_reducible apply Grows.lit
    | dsimp only

theorem writeWp_grows {s0 : State} (r : _) (a : _) (n : _) (v : _) {s : State} (hs : Grows s0 s) :
    Grows s0 (writeWp r a n v s) := by
  unfold writeWp; try dsimp only
  repeat' first
    | with_reducible first
      | assumption | apply State.armWp_grows | apply State.clrBit_grows | apply plainWrite_grows
    | intro _
    | split
    | dsimp only

theorem writeDbg_grows {s0 : State} (r : _) (a : _) (v : _) {s : State} (hs : Grows s0 s) :
    Grows s0 (writeDbg r a v s) := by
  unfold writeDbg; try dsimp only
  repeat' first
    | with_reducible first
      | assumption | apply AllGrow.cons | apply AllGrow.nil | apply onBits_grows | apply plainWrite_grows
      | apply recSel_grows | apply releaseCmd_grows | apply soundingCmd_grows | apply stopCmd_grows
      | apply writeWp_grows
    | intro _
    | split
    | dsimp only

theorem writeCol_grows {s0 : State} (r : _) (a : _) (v : _) {s : State} (hs : Grows s0 s) :
    Grows s0 (writeCol r a v s) := by
  unfold writeCol; try dsimp only
  repeat' first
    | with_reducible first
      | assumption | apply plainWrite_grows | apply writeGrpOwner_grows | apply writeOwner_grows
    | intro _
    | split
    | dsimp only

theorem writeXng_grows {s0 : State} (r : _) (a : _) (n : _) (v : _) {s : State} (hs : Grows s0 s) :
    Grows s0 (writeXng r a n v s) := by
  unfold writeXng; try dsimp only
  repeat' first
    | with_reducible first
      | assumption | apply AllGrow.cons | apply AllGrow.nil | apply State.rekey_grows | apply State.setFld_grows
      | apply onBits_grows | apply plainWrite_grows | apply retrainCtrl_grows
    | intro _
    | split
    | dsimp only

theorem writeMed_grows {s0 : State} (r : _) (a : _) (n : _) (v : _) {s : State} (hs : Grows s0 s) :
    Grows s0 (writeMed r a n v s) := by
  unfold writeMed; try dsimp only
  repeat' first
    | with_reducible first
      | assumption | apply State.updMed_grows | apply mediaPush_grows | apply plainWrite_grows
      | apply writeOwner_grows
    | intro _
    | split
    | dsimp only

theorem writePart_grows {s0 : State} (r : _) (a : _) (n : _) (v : _) {s : State} (hs : Grows s0 s) :
    Grows s0 (writePart r a n v s) := by
  unfold writePart; try dsimp only
  repeat' first
    | with_reducible first
      | assumption | apply AllGrow.cons | apply AllGrow.nil | apply State.updPart_grows | apply nwinPush_grows
      | apply onBits_grows | apply partClrEn_grows | apply partSetEn_grows | apply plainWrite_grows
      | apply writeRing_grows | apply writeWinBase_grows
    | intro _
    | split
    | dsimp only

theorem writeCom_grows {s0 : State} (r : _) (a : _) (n : _) (v : _) {s : State} (hs : Grows s0 s) :
    Grows s0 (writeCom r a n v s) := by
  unfold writeCom; try dsimp only
  repeat' first
    | with_reducible first
      | assumption | apply plainWrite_grows | apply remapBegin_grows | apply remapCancel_grows
      | apply remapClear_grows | apply remapStart_grows | apply remapWrite_grows | apply writeCommonsCfg_grows
    | intro _
    | split
    | dsimp only

theorem writeMb_grows {s0 : State} (r : _) (a : _) (m : _) (v : _) {s : State} (hs : Grows s0 s) :
    Grows s0 (writeMb r a m v s) := by
  unfold writeMb; try dsimp only
  repeat' first
    | with_reducible first
      | assumption | apply mbGo_grows | apply plainWrite_grows
    | intro _
    | split
    | dsimp only

theorem writeFer_grows {s0 : State} (r : _) (a : _) (i : _) (v : _) {s : State} (hs : Grows s0 s) :
    Grows s0 (writeFer r a i v s) := by
  unfold writeFer; try dsimp only
  repeat' first
    | with_reducible first
      | assumption | apply plainWrite_grows | apply readmit_grows
    | intro _
    | split
    | dsimp only

theorem writeBlock_grows {s0 : State} (r : _) (a : _) (ty : _) (inst : _) (v : _) {s : State} (hs : Grows s0 s) :
    Grows s0 (writeBlock r a ty inst v s) := by
  unfold writeBlock; try dsimp only
  repeat' first
    | with_reducible first
      | assumption | apply plainWrite_grows | apply writeArr_grows | apply writeBoot_grows | apply writeBrg_grows
      | apply writeCc_grows | apply writeCnt_grows | apply writeCol_grows | apply writeCom_grows
      | apply writeDbg_grows | apply writeDf_grows | apply writeFer_grows | apply writeGov_grows
      | apply writeLnd_grows | apply writeMb_grows | apply writeMed_grows | apply writeNor_grows
      | apply writePart_grows | apply writePkg_grows | apply writePq_grows | apply writeRh_grows
      | apply writeSec_grows | apply writeSlc_grows | apply writeThm_grows | apply writeXng_grows
    | intro _
    | split
    | dsimp only

theorem writeReg_grows {s0 : State} (r : _) (a : _) (v : _) {s : State} (hs : Grows s0 s) :
    Grows s0 (writeReg r a v s) := by
  unfold writeReg; try dsimp only
  repeat' first
    | with_reducible first
      | assumption | apply writeBlock_grows | apply writeHdr_grows | apply writeImsic_grows
    | intro _
    | split
    | dsimp only

/-! ### Regs -/

theorem State.noVfErr_grows {s0 : State} {s : State} (r : _) (x : _) (hs : Grows s0 s) :
    Grows s0 (State.noVfErr s r x) := by
  unfold State.noVfErr; try dsimp only
  repeat' first
    | with_reducible first
      | assumption | apply State.regErr_grows | apply State.reqStepped_grows
    | intro _
    | split
    | dsimp only

theorem readHalf_grows {s0 : State} (r : _) {s : State} (a : _) (hs : Grows s0 s) :
    Grows s0 (readHalf r s a) := by
  unfold readHalf; try dsimp only
  repeat' first
    | with_reducible first
      | assumption | apply State.readAccess_grows | apply readReg_grows
    | intro _
    | split
    | dsimp only

theorem regReadAt_grows {s0 : State} (r : _) (a : _) (size : _) {s : State} (hs : Grows s0 s) :
    Grows s0 (regReadAt r a size s) := by
  unfold regReadAt; try dsimp only
  repeat' first
    | with_reducible first
      | assumption | apply State.answer_grows | apply State.readAccess_grows | apply State.regErr_grows
      | apply State.reqStepped_grows | apply readHalf_grows
    | intro _
    | split
    | dsimp only [id]

theorem regRead_grows {s0 : State} (r : _) (x : _) (size : _) {s : State} (hs : Grows s0 s) :
    Grows s0 (regRead r x size s) := by
  unfold regRead; try dsimp only
  repeat' first
    | with_reducible first
      | assumption | apply State.answer_grows | apply State.noVfErr_grows | apply regReadAt_grows
    | intro _
    | split
    | dsimp only

theorem regWriteAt_grows {s0 : State} (r : _) (a : _) (size : _) (v : _) {s : State} (hs : Grows s0 s) :
    Grows s0 (regWriteAt r a size v s) := by
  unfold regWriteAt; try dsimp only
  repeat' first
    | with_reducible first
      | assumption | apply State.access_grows | apply State.regErr_grows | apply State.reqStepped_grows
      | apply writeReg_grows
    | intro _
    | split
    | dsimp only [id]

theorem regWrite_grows {s0 : State} (r : _) (x : _) (size : _) (v : _) {s : State} (hs : Grows s0 s) :
    Grows s0 (regWrite r x size v s) := by
  unfold regWrite; try dsimp only
  repeat' first
    | with_reducible first
      | assumption | apply State.noVfErr_grows | apply regWriteAt_grows
    | intro _
    | split
    | dsimp only

theorem execHdrLockSet_grows {s0 : State} (r : _) (x : _) (size : _) {s : State} (hs : Grows s0 s) :
    OutGrows s0 (execHdrLockSet r x size s) := by
  unfold execHdrLockSet; try dsimp only
  repeat' first
    | with_reducible first
      | assumption | apply OutGrows.next | apply regWrite_grows
    | intro _
    | split
    | dsimp only

theorem execHdrIrqForce_grows {s0 : State} (r : _) (x : _) (size : _) (v : _) {s : State} (hs : Grows s0 s) :
    OutGrows s0 (execHdrIrqForce r x size v s) := by
  unfold execHdrIrqForce; try dsimp only
  repeat' first
    | with_reducible first
      | assumption | apply OutGrows.next | apply regWrite_grows
    | intro _
    | split
    | dsimp only

theorem execRegisterPairLoRead_grows {s0 : State} (r : _) (x : _) (size : _) {s : State} (hs : Grows s0 s) :
    OutGrows s0 (execRegisterPairLoRead r x size s) := by
  unfold execRegisterPairLoRead; try dsimp only
  repeat' first
    | with_reducible first
      | assumption | apply OutGrows.next | apply regRead_grows
    | intro _
    | split
    | dsimp only

theorem execRcRead_grows {s0 : State} (r : _) (x : _) (size : _) {s : State} (hs : Grows s0 s) :
    OutGrows s0 (execRcRead r x size s) := by
  unfold execRcRead; try dsimp only
  repeat' first
    | with_reducible first
      | assumption | apply OutGrows.next | apply regRead_grows
    | intro _
    | split
    | dsimp only

theorem execRegisterWrite_grows {s0 : State} (r : _) (x : _) (size : _) (v : _) {s : State} (hs : Grows s0 s) :
    OutGrows s0 (execRegisterWrite r x size v s) := by
  unfold execRegisterWrite; try dsimp only
  repeat' first
    | with_reducible first
      | assumption | apply OutGrows.next | apply regWrite_grows
    | intro _
    | split
    | dsimp only

/-! ### Jtag -/

theorem State.accDone_grows {s0 : State} {s : State} (stat : _) (data : _) (hs : Grows s0 s) :
    Grows s0 (State.accDone s stat data) := by
  unfold State.accDone; try dsimp only
  repeat' first
    | with_reducible first
      | assumption
    | intro _
    | split
    | with_reducible apply Grows.lit
    | dsimp only

theorem dbgReg8_grows {s0 : State} (rd : _) (a : _) (v : _) {s : State} (hs : Grows s0 s) :
    Grows s0 (dbgReg8 rd a v s) := by
  unfold dbgReg8; try dsimp only
  repeat' first
    | with_reducible first
      | assumption | apply State.accDone_grows | apply regReadAt_grows | apply regWriteAt_grows
    | intro _
    | split
    | dsimp only

theorem dbgMem_grows {s0 : State} (rd : _) (a : _) (v : _) {s : State} (hs : Grows s0 s) :
    Grows s0 (dbgMem rd a v s) := by
  unfold dbgMem; try dsimp only
  repeat' first
    | with_reducible first
      | assumption | apply State.accDone_grows | apply State.devRead_grows | apply State.devWrite_grows
    | intro _
    | split
    | dsimp only

theorem dbgAccess_grows {s0 : State} (dr : _) {s : State} (hs : Grows s0 s) :
    Grows s0 (dbgAccess dr s) := by
  unfold dbgAccess; try dsimp only
  repeat' first
    | with_reducible first
      | assumption | apply State.accDone_grows | apply dbgMem_grows | apply dbgReg8_grows
    | intro _
    | split
    | dsimp only

theorem execDbgAccess_grows {s0 : State} (dr : _) {s : State} (hs : Grows s0 s) :
    OutGrows s0 (execDbgAccess dr s) := by
  unfold execDbgAccess; try dsimp only
  repeat' first
    | with_reducible first
      | assumption | apply OutGrows.next | apply dbgAccess_grows
    | intro _
    | split
    | dsimp only

theorem State.haltHart_grows {s0 : State} {s : State} (x1 : _) (hs : Grows s0 s) :
    Grows s0 (State.haltHart s x1) := by
  unfold State.haltHart; try dsimp only
  repeat' first
    | with_reducible first
      | assumption | apply State.hartStepped_grows
    | intro _
    | split
    | with_reducible apply Grows.lit
    | dsimp only

theorem State.resumeHart_grows {s0 : State} {s : State} (x1 : _) (hs : Grows s0 s) :
    Grows s0 (State.resumeHart s x1) := by
  unfold State.resumeHart; try dsimp only
  repeat' first
    | with_reducible first
      | assumption | apply State.hartStepped_grows
    | intro _
    | split
    | with_reducible apply Grows.lit
    | dsimp only

theorem State.stepHart_grows {s0 : State} {s : State} (x1 : _) (hs : Grows s0 s) :
    Grows s0 (State.stepHart s x1) := by
  unfold State.stepHart; try dsimp only
  repeat' first
    | with_reducible first
      | assumption
    | intro _
    | split
    | with_reducible apply Grows.lit
    | dsimp only

theorem State.dmiAnswer_grows {s0 : State} {s : State} (v : _) (hs : Grows s0 s) :
    Grows s0 (State.dmiAnswer s v) := by
  unfold State.dmiAnswer; try dsimp only
  repeat' first
    | with_reducible first
      | assumption | apply State.answer_grows
    | intro _
    | split
    | with_reducible apply Grows.lit
    | dsimp only

theorem riderGet_grows {s0 : State} (n : _) {s : State} (hs : Grows s0 s) :
    Grows s0 (riderGet n s) := by
  unfold riderGet; try dsimp only
  repeat' first
    | with_reducible first
      | assumption | apply State.dmiAnswer_grows | apply State.drawn_grows
    | intro _
    | split
    | with_reducible apply Grows.lit
    | dsimp only

theorem scanDump_grows {s0 : State} {s : State} (hs : Grows s0 s) :
    Grows s0 (scanDump s) := by
  unfold scanDump; try dsimp only
  repeat' first
    | with_reducible first
      | assumption | apply State.dmiAnswer_grows | apply State.drawn_grows
    | intro _
    | split
    | dsimp only

theorem onHalted_grows {s0 : State} {s : State} (x1 : _) (k : _) (hs : Grows s0 s) (hk : ∀ u, Grows s0 u → Grows s0 (k u)) :
    Grows s0 (onHalted s x1 k) := by
  unfold onHalted; try dsimp only
  repeat' first
    | with_reducible first
      | assumption | apply hk
    | intro _
    | split
    | dsimp only

theorem dmi_grows {s0 : State} (a : _) {s : State} (hs : Grows s0 s) :
    Grows s0 (dmi a s) := by
  unfold dmi; try dsimp only
  repeat' first
    | with_reducible first
      | assumption | apply State.dmiAnswer_grows | apply State.haltHart_grows | apply State.resumeHart_grows
      | apply State.stepHart_grows | apply State.updCore_grows | apply State.updPlot_grows | apply onHalted_grows
      | apply riderGet_grows | apply scanDump_grows
    | intro _
    | split
    | with_reducible apply Grows.lit
    | dsimp only

theorem execDmiAccess_grows {s0 : State} (a : _) {s : State} (hs : Grows s0 s) :
    OutGrows s0 (execDmiAccess a s) := by
  unfold execDmiAccess; try dsimp only
  repeat' first
    | with_reducible first
      | assumption | apply OutGrows.next | apply dmi_grows
    | intro _
    | split
    | dsimp only

end Sys2Proof.Machine
end

