-- ==== Sys2Proof/Laws/State.lean ====
section
/-!
SUPPORT. Laws/State.lean: what each update of the state changes and what it leaves: one lemma per table and per shared
update, used by `simp` so that no later proof unfolds a record update.
-/
namespace Sys2Proof.Machine

variable (s : State)

@[simp] theorem State.chan_setChan_same (k : Nat) (x : Chan) : (s.setChan k x).chan k = x := by simp [State.chan, State.setChan]

theorem State.chan_setChan_ne {k j : Nat} (x : Chan) (h : j ≠ k) : (s.setChan k x).chan j = s.chan j := 
  tget_tput_ne' _ _ _ x h

theorem State.chan_setChan (k j : Nat) (x : Chan) : (s.setChan k x).chan j = if j = k then x else s.chan j := by
  split
  · subst_vars; simp
  · exact State.chan_setChan_ne s x ‹_›

@[simp] theorem State.setChan_frame (k : Nat) (x : Chan) :
    (s.setChan k x).tb = s.tb ∧ (s.setChan k x).freeCtr = s.freeCtr ∧ (s.setChan k x).reply = s.reply ∧ (s.setChan k x).clocksOff = s.clocksOff ∧
    (s.setChan k x).pins = s.pins ∧ (s.setChan k x).fuses = s.fuses ∧ (s.setChan k x).regs = s.regs ∧ (s.setChan k x).caps = s.caps ∧
    (s.setChan k x).plots = s.plots ∧ (s.setChan k x).slices = s.slices ∧ (s.setChan k x).norias = s.norias ∧ (s.setChan k x).dram = s.dram ∧
    (s.setChan k x).chk = s.chk ∧ (s.setChan k x).net = s.net ∧ (s.setChan k x).rr = s.rr ∧ (s.setChan k x).links = s.links ∧
    (s.setChan k x).reqTabs = s.reqTabs ∧ (s.setChan k x).stks = s.stks ∧ (s.setChan k x).sensors = s.sensors ∧ (s.setChan k x).coolant = s.coolant ∧
    (s.setChan k x).parts = s.parts ∧ (s.setChan k x).rings = s.rings ∧ (s.setChan k x).funcs = s.funcs ∧ (s.setChan k x).lndErr = s.lndErr ∧
    (s.setChan k x).cfg = s.cfg ∧ (s.setChan k x).errs = s.errs ∧ (s.setChan k x).xngs = s.xngs ∧ (s.setChan k x).eps = s.eps ∧
    (s.setChan k x).groups = s.groups ∧ (s.setChan k x).coll = s.coll ∧ (s.setChan k x).cores = s.cores ∧ (s.setChan k x).caches = s.caches ∧
    (s.setChan k x).media = s.media ∧ (s.setChan k x).sec = s.sec ∧ (s.setChan k x).boot = s.boot ∧ (s.setChan k x).store = s.store ∧
    (s.setChan k x).faults = s.faults ∧ (s.setChan k x).dbg = s.dbg ∧ (s.setChan k x).cnts = s.cnts ∧ (s.setChan k x).toll = s.toll ∧
    (s.setChan k x).wire = s.wire ∧ (s.setChan k x).pending = s.pending := by
  simp [State.setChan]

@[simp] theorem State.setChan_fld (k : Nat) (x : Chan) (j lo w : Nat) : (s.setChan k x).fld j lo w = s.fld j lo w := rfl

@[simp] theorem State.setChan_bit (k : Nat) (x : Chan) (j i : Nat) : (s.setChan k x).bit j i = s.bit j i := rfl

@[simp] theorem State.updChan_fld (k : Nat) (f : Chan → Chan) (j lo w : Nat) : (s.updChan k f).fld j lo w = s.fld j lo w := rfl

@[simp] theorem State.updChan_bit (k : Nat) (f : Chan → Chan) (j i : Nat) : (s.updChan k f).bit j i = s.bit j i := rfl

@[simp] theorem State.setChan_others (k : Nat) (x : Chan) (j : Nat) :
    (s.setChan k x).plot j = s.plot j ∧ (s.setChan k x).slc j = s.slc j ∧ (s.setChan k x).nor j = s.nor j ∧
    (s.setChan k x).link j = s.link j ∧ (s.setChan k x).stk j = s.stk j ∧ (s.setChan k x).sensor j = s.sensor j ∧
    (s.setChan k x).part j = s.part j ∧ (s.setChan k x).ring j = s.ring j ∧ (s.setChan k x).func j = s.func j ∧
    (s.setChan k x).errf j = s.errf j ∧ (s.setChan k x).xng j = s.xng j ∧ (s.setChan k x).ep j = s.ep j ∧
    (s.setChan k x).grp j = s.grp j ∧ (s.setChan k x).core j = s.core j ∧ (s.setChan k x).med j = s.med j ∧
    (s.setChan k x).cnt j = s.cnt j ∧ (s.setChan k x).reqTab j = s.reqTab j ∧ (s.setChan k x).reg j = s.reg j := by
  refine ⟨rfl, rfl, rfl, rfl, rfl, rfl, rfl, rfl, rfl, rfl, rfl, rfl, rfl, rfl, rfl, rfl, rfl, rfl⟩

theorem State.updChan_eq (k : Nat) (f : Chan → Chan) : s.updChan k f = s.setChan k (f (s.chan k)) := rfl

@[simp] theorem State.chan_updChan_same (k : Nat) (f : Chan → Chan) : (s.updChan k f).chan k = f (s.chan k) := by
  simp [State.updChan]

theorem State.chan_updChan (k j : Nat) (f : Chan → Chan) :
    (s.updChan k f).chan j = if j = k then f (s.chan k) else s.chan j := State.chan_setChan s k j _

@[simp] theorem State.updChan_frame (k : Nat) (f : Chan → Chan) :
    (s.updChan k f).tb = s.tb ∧ (s.updChan k f).freeCtr = s.freeCtr ∧ (s.updChan k f).reply = s.reply ∧ (s.updChan k f).clocksOff = s.clocksOff ∧
    (s.updChan k f).pins = s.pins ∧ (s.updChan k f).fuses = s.fuses ∧ (s.updChan k f).regs = s.regs ∧ (s.updChan k f).caps = s.caps ∧
    (s.updChan k f).plots = s.plots ∧ (s.updChan k f).slices = s.slices ∧ (s.updChan k f).norias = s.norias ∧ (s.updChan k f).dram = s.dram ∧
    (s.updChan k f).chk = s.chk ∧ (s.updChan k f).net = s.net ∧ (s.updChan k f).rr = s.rr ∧ (s.updChan k f).links = s.links ∧
    (s.updChan k f).reqTabs = s.reqTabs ∧ (s.updChan k f).stks = s.stks ∧ (s.updChan k f).sensors = s.sensors ∧ (s.updChan k f).coolant = s.coolant ∧
    (s.updChan k f).parts = s.parts ∧ (s.updChan k f).rings = s.rings ∧ (s.updChan k f).funcs = s.funcs ∧ (s.updChan k f).lndErr = s.lndErr ∧
    (s.updChan k f).cfg = s.cfg ∧ (s.updChan k f).errs = s.errs ∧ (s.updChan k f).xngs = s.xngs ∧ (s.updChan k f).eps = s.eps ∧
    (s.updChan k f).groups = s.groups ∧ (s.updChan k f).coll = s.coll ∧ (s.updChan k f).cores = s.cores ∧ (s.updChan k f).caches = s.caches ∧
    (s.updChan k f).media = s.media ∧ (s.updChan k f).sec = s.sec ∧ (s.updChan k f).boot = s.boot ∧ (s.updChan k f).store = s.store ∧
    (s.updChan k f).faults = s.faults ∧ (s.updChan k f).dbg = s.dbg ∧ (s.updChan k f).cnts = s.cnts ∧ (s.updChan k f).toll = s.toll ∧
    (s.updChan k f).wire = s.wire ∧ (s.updChan k f).pending = s.pending := by
  simp [State.updChan]

@[simp] theorem State.updChan_others (k : Nat) (f : Chan → Chan) (j : Nat) :
    (s.updChan k f).plot j = s.plot j ∧ (s.updChan k f).slc j = s.slc j ∧ (s.updChan k f).nor j = s.nor j ∧
    (s.updChan k f).link j = s.link j ∧ (s.updChan k f).stk j = s.stk j ∧ (s.updChan k f).sensor j = s.sensor j ∧
    (s.updChan k f).part j = s.part j ∧ (s.updChan k f).ring j = s.ring j ∧ (s.updChan k f).func j = s.func j ∧
    (s.updChan k f).errf j = s.errf j ∧ (s.updChan k f).xng j = s.xng j ∧ (s.updChan k f).ep j = s.ep j ∧
    (s.updChan k f).grp j = s.grp j ∧ (s.updChan k f).core j = s.core j ∧ (s.updChan k f).med j = s.med j ∧
    (s.updChan k f).cnt j = s.cnt j ∧ (s.updChan k f).reqTab j = s.reqTab j ∧ (s.updChan k f).reg j = s.reg j := by
  refine ⟨rfl, rfl, rfl, rfl, rfl, rfl, rfl, rfl, rfl, rfl, rfl, rfl, rfl, rfl, rfl, rfl, rfl, rfl⟩

@[simp] theorem State.plot_setPlot_same (k : Nat) (x : Plot) : (s.setPlot k x).plot k = x := by simp [State.plot, State.setPlot]

theorem State.plot_setPlot_ne {k j : Nat} (x : Plot) (h : j ≠ k) : (s.setPlot k x).plot j = s.plot j := 
  tget_tput_ne' _ _ _ x h

theorem State.plot_setPlot (k j : Nat) (x : Plot) : (s.setPlot k x).plot j = if j = k then x else s.plot j := by
  split
  · subst_vars; simp
  · exact State.plot_setPlot_ne s x ‹_›

@[simp] theorem State.setPlot_frame (k : Nat) (x : Plot) :
    (s.setPlot k x).tb = s.tb ∧ (s.setPlot k x).freeCtr = s.freeCtr ∧ (s.setPlot k x).reply = s.reply ∧ (s.setPlot k x).clocksOff = s.clocksOff ∧
    (s.setPlot k x).pins = s.pins ∧ (s.setPlot k x).fuses = s.fuses ∧ (s.setPlot k x).regs = s.regs ∧ (s.setPlot k x).caps = s.caps ∧
    (s.setPlot k x).chans = s.chans ∧ (s.setPlot k x).slices = s.slices ∧ (s.setPlot k x).norias = s.norias ∧ (s.setPlot k x).dram = s.dram ∧
    (s.setPlot k x).chk = s.chk ∧ (s.setPlot k x).net = s.net ∧ (s.setPlot k x).rr = s.rr ∧ (s.setPlot k x).links = s.links ∧
    (s.setPlot k x).reqTabs = s.reqTabs ∧ (s.setPlot k x).stks = s.stks ∧ (s.setPlot k x).sensors = s.sensors ∧ (s.setPlot k x).coolant = s.coolant ∧
    (s.setPlot k x).parts = s.parts ∧ (s.setPlot k x).rings = s.rings ∧ (s.setPlot k x).funcs = s.funcs ∧ (s.setPlot k x).lndErr = s.lndErr ∧
    (s.setPlot k x).cfg = s.cfg ∧ (s.setPlot k x).errs = s.errs ∧ (s.setPlot k x).xngs = s.xngs ∧ (s.setPlot k x).eps = s.eps ∧
    (s.setPlot k x).groups = s.groups ∧ (s.setPlot k x).coll = s.coll ∧ (s.setPlot k x).cores = s.cores ∧ (s.setPlot k x).caches = s.caches ∧
    (s.setPlot k x).media = s.media ∧ (s.setPlot k x).sec = s.sec ∧ (s.setPlot k x).boot = s.boot ∧ (s.setPlot k x).store = s.store ∧
    (s.setPlot k x).faults = s.faults ∧ (s.setPlot k x).dbg = s.dbg ∧ (s.setPlot k x).cnts = s.cnts ∧ (s.setPlot k x).toll = s.toll ∧
    (s.setPlot k x).wire = s.wire ∧ (s.setPlot k x).pending = s.pending := by
  simp [State.setPlot]

@[simp] theorem State.setPlot_fld (k : Nat) (x : Plot) (j lo w : Nat) : (s.setPlot k x).fld j lo w = s.fld j lo w := rfl

@[simp] theorem State.setPlot_bit (k : Nat) (x : Plot) (j i : Nat) : (s.setPlot k x).bit j i = s.bit j i := rfl

@[simp] theorem State.updPlot_fld (k : Nat) (f : Plot → Plot) (j lo w : Nat) : (s.updPlot k f).fld j lo w = s.fld j lo w := rfl

@[simp] theorem State.updPlot_bit (k : Nat) (f : Plot → Plot) (j i : Nat) : (s.updPlot k f).bit j i = s.bit j i := rfl

@[simp] theorem State.setPlot_others (k : Nat) (x : Plot) (j : Nat) :
    (s.setPlot k x).chan j = s.chan j ∧ (s.setPlot k x).slc j = s.slc j ∧ (s.setPlot k x).nor j = s.nor j ∧
    (s.setPlot k x).link j = s.link j ∧ (s.setPlot k x).stk j = s.stk j ∧ (s.setPlot k x).sensor j = s.sensor j ∧
    (s.setPlot k x).part j = s.part j ∧ (s.setPlot k x).ring j = s.ring j ∧ (s.setPlot k x).func j = s.func j ∧
    (s.setPlot k x).errf j = s.errf j ∧ (s.setPlot k x).xng j = s.xng j ∧ (s.setPlot k x).ep j = s.ep j ∧
    (s.setPlot k x).grp j = s.grp j ∧ (s.setPlot k x).core j = s.core j ∧ (s.setPlot k x).med j = s.med j ∧
    (s.setPlot k x).cnt j = s.cnt j ∧ (s.setPlot k x).reqTab j = s.reqTab j ∧ (s.setPlot k x).reg j = s.reg j := by
  refine ⟨rfl, rfl, rfl, rfl, rfl, rfl, rfl, rfl, rfl, rfl, rfl, rfl, rfl, rfl, rfl, rfl, rfl, rfl⟩

theorem State.updPlot_eq (k : Nat) (f : Plot → Plot) : s.updPlot k f = s.setPlot k (f (s.plot k)) := rfl

@[simp] theorem State.plot_updPlot_same (k : Nat) (f : Plot → Plot) : (s.updPlot k f).plot k = f (s.plot k) := by
  simp [State.updPlot]

theorem State.plot_updPlot (k j : Nat) (f : Plot → Plot) :
    (s.updPlot k f).plot j = if j = k then f (s.plot k) else s.plot j := State.plot_setPlot s k j _

@[simp] theorem State.updPlot_frame (k : Nat) (f : Plot → Plot) :
    (s.updPlot k f).tb = s.tb ∧ (s.updPlot k f).freeCtr = s.freeCtr ∧ (s.updPlot k f).reply = s.reply ∧ (s.updPlot k f).clocksOff = s.clocksOff ∧
    (s.updPlot k f).pins = s.pins ∧ (s.updPlot k f).fuses = s.fuses ∧ (s.updPlot k f).regs = s.regs ∧ (s.updPlot k f).caps = s.caps ∧
    (s.updPlot k f).chans = s.chans ∧ (s.updPlot k f).slices = s.slices ∧ (s.updPlot k f).norias = s.norias ∧ (s.updPlot k f).dram = s.dram ∧
    (s.updPlot k f).chk = s.chk ∧ (s.updPlot k f).net = s.net ∧ (s.updPlot k f).rr = s.rr ∧ (s.updPlot k f).links = s.links ∧
    (s.updPlot k f).reqTabs = s.reqTabs ∧ (s.updPlot k f).stks = s.stks ∧ (s.updPlot k f).sensors = s.sensors ∧ (s.updPlot k f).coolant = s.coolant ∧
    (s.updPlot k f).parts = s.parts ∧ (s.updPlot k f).rings = s.rings ∧ (s.updPlot k f).funcs = s.funcs ∧ (s.updPlot k f).lndErr = s.lndErr ∧
    (s.updPlot k f).cfg = s.cfg ∧ (s.updPlot k f).errs = s.errs ∧ (s.updPlot k f).xngs = s.xngs ∧ (s.updPlot k f).eps = s.eps ∧
    (s.updPlot k f).groups = s.groups ∧ (s.updPlot k f).coll = s.coll ∧ (s.updPlot k f).cores = s.cores ∧ (s.updPlot k f).caches = s.caches ∧
    (s.updPlot k f).media = s.media ∧ (s.updPlot k f).sec = s.sec ∧ (s.updPlot k f).boot = s.boot ∧ (s.updPlot k f).store = s.store ∧
    (s.updPlot k f).faults = s.faults ∧ (s.updPlot k f).dbg = s.dbg ∧ (s.updPlot k f).cnts = s.cnts ∧ (s.updPlot k f).toll = s.toll ∧
    (s.updPlot k f).wire = s.wire ∧ (s.updPlot k f).pending = s.pending := by
  simp [State.updPlot]

@[simp] theorem State.updPlot_others (k : Nat) (f : Plot → Plot) (j : Nat) :
    (s.updPlot k f).chan j = s.chan j ∧ (s.updPlot k f).slc j = s.slc j ∧ (s.updPlot k f).nor j = s.nor j ∧
    (s.updPlot k f).link j = s.link j ∧ (s.updPlot k f).stk j = s.stk j ∧ (s.updPlot k f).sensor j = s.sensor j ∧
    (s.updPlot k f).part j = s.part j ∧ (s.updPlot k f).ring j = s.ring j ∧ (s.updPlot k f).func j = s.func j ∧
    (s.updPlot k f).errf j = s.errf j ∧ (s.updPlot k f).xng j = s.xng j ∧ (s.updPlot k f).ep j = s.ep j ∧
    (s.updPlot k f).grp j = s.grp j ∧ (s.updPlot k f).core j = s.core j ∧ (s.updPlot k f).med j = s.med j ∧
    (s.updPlot k f).cnt j = s.cnt j ∧ (s.updPlot k f).reqTab j = s.reqTab j ∧ (s.updPlot k f).reg j = s.reg j := by
  refine ⟨rfl, rfl, rfl, rfl, rfl, rfl, rfl, rfl, rfl, rfl, rfl, rfl, rfl, rfl, rfl, rfl, rfl, rfl⟩

@[simp] theorem State.slc_setSlc_same (k : Nat) (x : Slice) : (s.setSlc k x).slc k = x := by simp [State.slc, State.setSlc]

theorem State.slc_setSlc_ne {k j : Nat} (x : Slice) (h : j ≠ k) : (s.setSlc k x).slc j = s.slc j := 
  tget_tput_ne' _ _ _ x h

theorem State.slc_setSlc (k j : Nat) (x : Slice) : (s.setSlc k x).slc j = if j = k then x else s.slc j := by
  split
  · subst_vars; simp
  · exact State.slc_setSlc_ne s x ‹_›

@[simp] theorem State.setSlc_frame (k : Nat) (x : Slice) :
    (s.setSlc k x).tb = s.tb ∧ (s.setSlc k x).freeCtr = s.freeCtr ∧ (s.setSlc k x).reply = s.reply ∧ (s.setSlc k x).clocksOff = s.clocksOff ∧
    (s.setSlc k x).pins = s.pins ∧ (s.setSlc k x).fuses = s.fuses ∧ (s.setSlc k x).regs = s.regs ∧ (s.setSlc k x).caps = s.caps ∧
    (s.setSlc k x).plots = s.plots ∧ (s.setSlc k x).chans = s.chans ∧ (s.setSlc k x).norias = s.norias ∧ (s.setSlc k x).dram = s.dram ∧
    (s.setSlc k x).chk = s.chk ∧ (s.setSlc k x).net = s.net ∧ (s.setSlc k x).rr = s.rr ∧ (s.setSlc k x).links = s.links ∧
    (s.setSlc k x).reqTabs = s.reqTabs ∧ (s.setSlc k x).stks = s.stks ∧ (s.setSlc k x).sensors = s.sensors ∧ (s.setSlc k x).coolant = s.coolant ∧
    (s.setSlc k x).parts = s.parts ∧ (s.setSlc k x).rings = s.rings ∧ (s.setSlc k x).funcs = s.funcs ∧ (s.setSlc k x).lndErr = s.lndErr ∧
    (s.setSlc k x).cfg = s.cfg ∧ (s.setSlc k x).errs = s.errs ∧ (s.setSlc k x).xngs = s.xngs ∧ (s.setSlc k x).eps = s.eps ∧
    (s.setSlc k x).groups = s.groups ∧ (s.setSlc k x).coll = s.coll ∧ (s.setSlc k x).cores = s.cores ∧ (s.setSlc k x).caches = s.caches ∧
    (s.setSlc k x).media = s.media ∧ (s.setSlc k x).sec = s.sec ∧ (s.setSlc k x).boot = s.boot ∧ (s.setSlc k x).store = s.store ∧
    (s.setSlc k x).faults = s.faults ∧ (s.setSlc k x).dbg = s.dbg ∧ (s.setSlc k x).cnts = s.cnts ∧ (s.setSlc k x).toll = s.toll ∧
    (s.setSlc k x).wire = s.wire ∧ (s.setSlc k x).pending = s.pending := by
  simp [State.setSlc]

@[simp] theorem State.setSlc_fld (k : Nat) (x : Slice) (j lo w : Nat) : (s.setSlc k x).fld j lo w = s.fld j lo w := rfl

@[simp] theorem State.setSlc_bit (k : Nat) (x : Slice) (j i : Nat) : (s.setSlc k x).bit j i = s.bit j i := rfl

@[simp] theorem State.updSlc_fld (k : Nat) (f : Slice → Slice) (j lo w : Nat) : (s.updSlc k f).fld j lo w = s.fld j lo w := rfl

@[simp] theorem State.updSlc_bit (k : Nat) (f : Slice → Slice) (j i : Nat) : (s.updSlc k f).bit j i = s.bit j i := rfl

@[simp] theorem State.setSlc_others (k : Nat) (x : Slice) (j : Nat) :
    (s.setSlc k x).chan j = s.chan j ∧ (s.setSlc k x).plot j = s.plot j ∧ (s.setSlc k x).nor j = s.nor j ∧
    (s.setSlc k x).link j = s.link j ∧ (s.setSlc k x).stk j = s.stk j ∧ (s.setSlc k x).sensor j = s.sensor j ∧
    (s.setSlc k x).part j = s.part j ∧ (s.setSlc k x).ring j = s.ring j ∧ (s.setSlc k x).func j = s.func j ∧
    (s.setSlc k x).errf j = s.errf j ∧ (s.setSlc k x).xng j = s.xng j ∧ (s.setSlc k x).ep j = s.ep j ∧
    (s.setSlc k x).grp j = s.grp j ∧ (s.setSlc k x).core j = s.core j ∧ (s.setSlc k x).med j = s.med j ∧
    (s.setSlc k x).cnt j = s.cnt j ∧ (s.setSlc k x).reqTab j = s.reqTab j ∧ (s.setSlc k x).reg j = s.reg j := by
  refine ⟨rfl, rfl, rfl, rfl, rfl, rfl, rfl, rfl, rfl, rfl, rfl, rfl, rfl, rfl, rfl, rfl, rfl, rfl⟩

theorem State.updSlc_eq (k : Nat) (f : Slice → Slice) : s.updSlc k f = s.setSlc k (f (s.slc k)) := rfl

@[simp] theorem State.slc_updSlc_same (k : Nat) (f : Slice → Slice) : (s.updSlc k f).slc k = f (s.slc k) := by
  simp [State.updSlc]

theorem State.slc_updSlc (k j : Nat) (f : Slice → Slice) :
    (s.updSlc k f).slc j = if j = k then f (s.slc k) else s.slc j := State.slc_setSlc s k j _

@[simp] theorem State.updSlc_frame (k : Nat) (f : Slice → Slice) :
    (s.updSlc k f).tb = s.tb ∧ (s.updSlc k f).freeCtr = s.freeCtr ∧ (s.updSlc k f).reply = s.reply ∧ (s.updSlc k f).clocksOff = s.clocksOff ∧
    (s.updSlc k f).pins = s.pins ∧ (s.updSlc k f).fuses = s.fuses ∧ (s.updSlc k f).regs = s.regs ∧ (s.updSlc k f).caps = s.caps ∧
    (s.updSlc k f).plots = s.plots ∧ (s.updSlc k f).chans = s.chans ∧ (s.updSlc k f).norias = s.norias ∧ (s.updSlc k f).dram = s.dram ∧
    (s.updSlc k f).chk = s.chk ∧ (s.updSlc k f).net = s.net ∧ (s.updSlc k f).rr = s.rr ∧ (s.updSlc k f).links = s.links ∧
    (s.updSlc k f).reqTabs = s.reqTabs ∧ (s.updSlc k f).stks = s.stks ∧ (s.updSlc k f).sensors = s.sensors ∧ (s.updSlc k f).coolant = s.coolant ∧
    (s.updSlc k f).parts = s.parts ∧ (s.updSlc k f).rings = s.rings ∧ (s.updSlc k f).funcs = s.funcs ∧ (s.updSlc k f).lndErr = s.lndErr ∧
    (s.updSlc k f).cfg = s.cfg ∧ (s.updSlc k f).errs = s.errs ∧ (s.updSlc k f).xngs = s.xngs ∧ (s.updSlc k f).eps = s.eps ∧
    (s.updSlc k f).groups = s.groups ∧ (s.updSlc k f).coll = s.coll ∧ (s.updSlc k f).cores = s.cores ∧ (s.updSlc k f).caches = s.caches ∧
    (s.updSlc k f).media = s.media ∧ (s.updSlc k f).sec = s.sec ∧ (s.updSlc k f).boot = s.boot ∧ (s.updSlc k f).store = s.store ∧
    (s.updSlc k f).faults = s.faults ∧ (s.updSlc k f).dbg = s.dbg ∧ (s.updSlc k f).cnts = s.cnts ∧ (s.updSlc k f).toll = s.toll ∧
    (s.updSlc k f).wire = s.wire ∧ (s.updSlc k f).pending = s.pending := by
  simp [State.updSlc]

@[simp] theorem State.updSlc_others (k : Nat) (f : Slice → Slice) (j : Nat) :
    (s.updSlc k f).chan j = s.chan j ∧ (s.updSlc k f).plot j = s.plot j ∧ (s.updSlc k f).nor j = s.nor j ∧
    (s.updSlc k f).link j = s.link j ∧ (s.updSlc k f).stk j = s.stk j ∧ (s.updSlc k f).sensor j = s.sensor j ∧
    (s.updSlc k f).part j = s.part j ∧ (s.updSlc k f).ring j = s.ring j ∧ (s.updSlc k f).func j = s.func j ∧
    (s.updSlc k f).errf j = s.errf j ∧ (s.updSlc k f).xng j = s.xng j ∧ (s.updSlc k f).ep j = s.ep j ∧
    (s.updSlc k f).grp j = s.grp j ∧ (s.updSlc k f).core j = s.core j ∧ (s.updSlc k f).med j = s.med j ∧
    (s.updSlc k f).cnt j = s.cnt j ∧ (s.updSlc k f).reqTab j = s.reqTab j ∧ (s.updSlc k f).reg j = s.reg j := by
  refine ⟨rfl, rfl, rfl, rfl, rfl, rfl, rfl, rfl, rfl, rfl, rfl, rfl, rfl, rfl, rfl, rfl, rfl, rfl⟩

@[simp] theorem State.nor_setNor_same (k : Nat) (x : Noria) : (s.setNor k x).nor k = x := by simp [State.nor, State.setNor]

theorem State.nor_setNor_ne {k j : Nat} (x : Noria) (h : j ≠ k) : (s.setNor k x).nor j = s.nor j := 
  tget_tput_ne' _ _ _ x h

theorem State.nor_setNor (k j : Nat) (x : Noria) : (s.setNor k x).nor j = if j = k then x else s.nor j := by
  split
  · subst_vars; simp
  · exact State.nor_setNor_ne s x ‹_›

@[simp] theorem State.setNor_frame (k : Nat) (x : Noria) :
    (s.setNor k x).tb = s.tb ∧ (s.setNor k x).freeCtr = s.freeCtr ∧ (s.setNor k x).reply = s.reply ∧ (s.setNor k x).clocksOff = s.clocksOff ∧
    (s.setNor k x).pins = s.pins ∧ (s.setNor k x).fuses = s.fuses ∧ (s.setNor k x).regs = s.regs ∧ (s.setNor k x).caps = s.caps ∧
    (s.setNor k x).plots = s.plots ∧ (s.setNor k x).chans = s.chans ∧ (s.setNor k x).slices = s.slices ∧ (s.setNor k x).dram = s.dram ∧
    (s.setNor k x).chk = s.chk ∧ (s.setNor k x).net = s.net ∧ (s.setNor k x).rr = s.rr ∧ (s.setNor k x).links = s.links ∧
    (s.setNor k x).reqTabs = s.reqTabs ∧ (s.setNor k x).stks = s.stks ∧ (s.setNor k x).sensors = s.sensors ∧ (s.setNor k x).coolant = s.coolant ∧
    (s.setNor k x).parts = s.parts ∧ (s.setNor k x).rings = s.rings ∧ (s.setNor k x).funcs = s.funcs ∧ (s.setNor k x).lndErr = s.lndErr ∧
    (s.setNor k x).cfg = s.cfg ∧ (s.setNor k x).errs = s.errs ∧ (s.setNor k x).xngs = s.xngs ∧ (s.setNor k x).eps = s.eps ∧
    (s.setNor k x).groups = s.groups ∧ (s.setNor k x).coll = s.coll ∧ (s.setNor k x).cores = s.cores ∧ (s.setNor k x).caches = s.caches ∧
    (s.setNor k x).media = s.media ∧ (s.setNor k x).sec = s.sec ∧ (s.setNor k x).boot = s.boot ∧ (s.setNor k x).store = s.store ∧
    (s.setNor k x).faults = s.faults ∧ (s.setNor k x).dbg = s.dbg ∧ (s.setNor k x).cnts = s.cnts ∧ (s.setNor k x).toll = s.toll ∧
    (s.setNor k x).wire = s.wire ∧ (s.setNor k x).pending = s.pending := by
  simp [State.setNor]

@[simp] theorem State.setNor_fld (k : Nat) (x : Noria) (j lo w : Nat) : (s.setNor k x).fld j lo w = s.fld j lo w := rfl

@[simp] theorem State.setNor_bit (k : Nat) (x : Noria) (j i : Nat) : (s.setNor k x).bit j i = s.bit j i := rfl

@[simp] theorem State.updNor_fld (k : Nat) (f : Noria → Noria) (j lo w : Nat) : (s.updNor k f).fld j lo w = s.fld j lo w := rfl

@[simp] theorem State.updNor_bit (k : Nat) (f : Noria → Noria) (j i : Nat) : (s.updNor k f).bit j i = s.bit j i := rfl

@[simp] theorem State.setNor_others (k : Nat) (x : Noria) (j : Nat) :
    (s.setNor k x).chan j = s.chan j ∧ (s.setNor k x).plot j = s.plot j ∧ (s.setNor k x).slc j = s.slc j ∧
    (s.setNor k x).link j = s.link j ∧ (s.setNor k x).stk j = s.stk j ∧ (s.setNor k x).sensor j = s.sensor j ∧
    (s.setNor k x).part j = s.part j ∧ (s.setNor k x).ring j = s.ring j ∧ (s.setNor k x).func j = s.func j ∧
    (s.setNor k x).errf j = s.errf j ∧ (s.setNor k x).xng j = s.xng j ∧ (s.setNor k x).ep j = s.ep j ∧
    (s.setNor k x).grp j = s.grp j ∧ (s.setNor k x).core j = s.core j ∧ (s.setNor k x).med j = s.med j ∧
    (s.setNor k x).cnt j = s.cnt j ∧ (s.setNor k x).reqTab j = s.reqTab j ∧ (s.setNor k x).reg j = s.reg j := by
  refine ⟨rfl, rfl, rfl, rfl, rfl, rfl, rfl, rfl, rfl, rfl, rfl, rfl, rfl, rfl, rfl, rfl, rfl, rfl⟩

theorem State.updNor_eq (k : Nat) (f : Noria → Noria) : s.updNor k f = s.setNor k (f (s.nor k)) := rfl

@[simp] theorem State.nor_updNor_same (k : Nat) (f : Noria → Noria) : (s.updNor k f).nor k = f (s.nor k) := by
  simp [State.updNor]

theorem State.nor_updNor (k j : Nat) (f : Noria → Noria) :
    (s.updNor k f).nor j = if j = k then f (s.nor k) else s.nor j := State.nor_setNor s k j _

@[simp] theorem State.updNor_frame (k : Nat) (f : Noria → Noria) :
    (s.updNor k f).tb = s.tb ∧ (s.updNor k f).freeCtr = s.freeCtr ∧ (s.updNor k f).reply = s.reply ∧ (s.updNor k f).clocksOff = s.clocksOff ∧
    (s.updNor k f).pins = s.pins ∧ (s.updNor k f).fuses = s.fuses ∧ (s.updNor k f).regs = s.regs ∧ (s.updNor k f).caps = s.caps ∧
    (s.updNor k f).plots = s.plots ∧ (s.updNor k f).chans = s.chans ∧ (s.updNor k f).slices = s.slices ∧ (s.updNor k f).dram = s.dram ∧
    (s.updNor k f).chk = s.chk ∧ (s.updNor k f).net = s.net ∧ (s.updNor k f).rr = s.rr ∧ (s.updNor k f).links = s.links ∧
    (s.updNor k f).reqTabs = s.reqTabs ∧ (s.updNor k f).stks = s.stks ∧ (s.updNor k f).sensors = s.sensors ∧ (s.updNor k f).coolant = s.coolant ∧
    (s.updNor k f).parts = s.parts ∧ (s.updNor k f).rings = s.rings ∧ (s.updNor k f).funcs = s.funcs ∧ (s.updNor k f).lndErr = s.lndErr ∧
    (s.updNor k f).cfg = s.cfg ∧ (s.updNor k f).errs = s.errs ∧ (s.updNor k f).xngs = s.xngs ∧ (s.updNor k f).eps = s.eps ∧
    (s.updNor k f).groups = s.groups ∧ (s.updNor k f).coll = s.coll ∧ (s.updNor k f).cores = s.cores ∧ (s.updNor k f).caches = s.caches ∧
    (s.updNor k f).media = s.media ∧ (s.updNor k f).sec = s.sec ∧ (s.updNor k f).boot = s.boot ∧ (s.updNor k f).store = s.store ∧
    (s.updNor k f).faults = s.faults ∧ (s.updNor k f).dbg = s.dbg ∧ (s.updNor k f).cnts = s.cnts ∧ (s.updNor k f).toll = s.toll ∧
    (s.updNor k f).wire = s.wire ∧ (s.updNor k f).pending = s.pending := by
  simp [State.updNor]

@[simp] theorem State.updNor_others (k : Nat) (f : Noria → Noria) (j : Nat) :
    (s.updNor k f).chan j = s.chan j ∧ (s.updNor k f).plot j = s.plot j ∧ (s.updNor k f).slc j = s.slc j ∧
    (s.updNor k f).link j = s.link j ∧ (s.updNor k f).stk j = s.stk j ∧ (s.updNor k f).sensor j = s.sensor j ∧
    (s.updNor k f).part j = s.part j ∧ (s.updNor k f).ring j = s.ring j ∧ (s.updNor k f).func j = s.func j ∧
    (s.updNor k f).errf j = s.errf j ∧ (s.updNor k f).xng j = s.xng j ∧ (s.updNor k f).ep j = s.ep j ∧
    (s.updNor k f).grp j = s.grp j ∧ (s.updNor k f).core j = s.core j ∧ (s.updNor k f).med j = s.med j ∧
    (s.updNor k f).cnt j = s.cnt j ∧ (s.updNor k f).reqTab j = s.reqTab j ∧ (s.updNor k f).reg j = s.reg j := by
  refine ⟨rfl, rfl, rfl, rfl, rfl, rfl, rfl, rfl, rfl, rfl, rfl, rfl, rfl, rfl, rfl, rfl, rfl, rfl⟩

@[simp] theorem State.link_setLink_same (k : Nat) (x : Link) : (s.setLink k x).link k = x := by simp [State.link, State.setLink]

theorem State.link_setLink_ne {k j : Nat} (x : Link) (h : j ≠ k) : (s.setLink k x).link j = s.link j := 
  tget_tput_ne' _ _ _ x h

theorem State.link_setLink (k j : Nat) (x : Link) : (s.setLink k x).link j = if j = k then x else s.link j := by
  split
  · subst_vars; simp
  · exact State.link_setLink_ne s x ‹_›

@[simp] theorem State.setLink_frame (k : Nat) (x : Link) :
    (s.setLink k x).tb = s.tb ∧ (s.setLink k x).freeCtr = s.freeCtr ∧ (s.setLink k x).reply = s.reply ∧ (s.setLink k x).clocksOff = s.clocksOff ∧
    (s.setLink k x).pins = s.pins ∧ (s.setLink k x).fuses = s.fuses ∧ (s.setLink k x).regs = s.regs ∧ (s.setLink k x).caps = s.caps ∧
    (s.setLink k x).plots = s.plots ∧ (s.setLink k x).chans = s.chans ∧ (s.setLink k x).slices = s.slices ∧ (s.setLink k x).norias = s.norias ∧
    (s.setLink k x).dram = s.dram ∧ (s.setLink k x).chk = s.chk ∧ (s.setLink k x).net = s.net ∧ (s.setLink k x).rr = s.rr ∧
    (s.setLink k x).reqTabs = s.reqTabs ∧ (s.setLink k x).stks = s.stks ∧ (s.setLink k x).sensors = s.sensors ∧ (s.setLink k x).coolant = s.coolant ∧
    (s.setLink k x).parts = s.parts ∧ (s.setLink k x).rings = s.rings ∧ (s.setLink k x).funcs = s.funcs ∧ (s.setLink k x).lndErr = s.lndErr ∧
    (s.setLink k x).cfg = s.cfg ∧ (s.setLink k x).errs = s.errs ∧ (s.setLink k x).xngs = s.xngs ∧ (s.setLink k x).eps = s.eps ∧
    (s.setLink k x).groups = s.groups ∧ (s.setLink k x).coll = s.coll ∧ (s.setLink k x).cores = s.cores ∧ (s.setLink k x).caches = s.caches ∧
    (s.setLink k x).media = s.media ∧ (s.setLink k x).sec = s.sec ∧ (s.setLink k x).boot = s.boot ∧ (s.setLink k x).store = s.store ∧
    (s.setLink k x).faults = s.faults ∧ (s.setLink k x).dbg = s.dbg ∧ (s.setLink k x).cnts = s.cnts ∧ (s.setLink k x).toll = s.toll ∧
    (s.setLink k x).wire = s.wire ∧ (s.setLink k x).pending = s.pending := by
  simp [State.setLink]

@[simp] theorem State.setLink_fld (k : Nat) (x : Link) (j lo w : Nat) : (s.setLink k x).fld j lo w = s.fld j lo w := rfl

@[simp] theorem State.setLink_bit (k : Nat) (x : Link) (j i : Nat) : (s.setLink k x).bit j i = s.bit j i := rfl

@[simp] theorem State.updLink_fld (k : Nat) (f : Link → Link) (j lo w : Nat) : (s.updLink k f).fld j lo w = s.fld j lo w := rfl

@[simp] theorem State.updLink_bit (k : Nat) (f : Link → Link) (j i : Nat) : (s.updLink k f).bit j i = s.bit j i := rfl

@[simp] theorem State.setLink_others (k : Nat) (x : Link) (j : Nat) :
    (s.setLink k x).chan j = s.chan j ∧ (s.setLink k x).plot j = s.plot j ∧ (s.setLink k x).slc j = s.slc j ∧
    (s.setLink k x).nor j = s.nor j ∧ (s.setLink k x).stk j = s.stk j ∧ (s.setLink k x).sensor j = s.sensor j ∧
    (s.setLink k x).part j = s.part j ∧ (s.setLink k x).ring j = s.ring j ∧ (s.setLink k x).func j = s.func j ∧
    (s.setLink k x).errf j = s.errf j ∧ (s.setLink k x).xng j = s.xng j ∧ (s.setLink k x).ep j = s.ep j ∧
    (s.setLink k x).grp j = s.grp j ∧ (s.setLink k x).core j = s.core j ∧ (s.setLink k x).med j = s.med j ∧
    (s.setLink k x).cnt j = s.cnt j ∧ (s.setLink k x).reqTab j = s.reqTab j ∧ (s.setLink k x).reg j = s.reg j := by
  refine ⟨rfl, rfl, rfl, rfl, rfl, rfl, rfl, rfl, rfl, rfl, rfl, rfl, rfl, rfl, rfl, rfl, rfl, rfl⟩

theorem State.updLink_eq (k : Nat) (f : Link → Link) : s.updLink k f = s.setLink k (f (s.link k)) := rfl

@[simp] theorem State.link_updLink_same (k : Nat) (f : Link → Link) : (s.updLink k f).link k = f (s.link k) := by
  simp [State.updLink]

theorem State.link_updLink (k j : Nat) (f : Link → Link) :
    (s.updLink k f).link j = if j = k then f (s.link k) else s.link j := State.link_setLink s k j _

@[simp] theorem State.updLink_frame (k : Nat) (f : Link → Link) :
    (s.updLink k f).tb = s.tb ∧ (s.updLink k f).freeCtr = s.freeCtr ∧ (s.updLink k f).reply = s.reply ∧ (s.updLink k f).clocksOff = s.clocksOff ∧
    (s.updLink k f).pins = s.pins ∧ (s.updLink k f).fuses = s.fuses ∧ (s.updLink k f).regs = s.regs ∧ (s.updLink k f).caps = s.caps ∧
    (s.updLink k f).plots = s.plots ∧ (s.updLink k f).chans = s.chans ∧ (s.updLink k f).slices = s.slices ∧ (s.updLink k f).norias = s.norias ∧
    (s.updLink k f).dram = s.dram ∧ (s.updLink k f).chk = s.chk ∧ (s.updLink k f).net = s.net ∧ (s.updLink k f).rr = s.rr ∧
    (s.updLink k f).reqTabs = s.reqTabs ∧ (s.updLink k f).stks = s.stks ∧ (s.updLink k f).sensors = s.sensors ∧ (s.updLink k f).coolant = s.coolant ∧
    (s.updLink k f).parts = s.parts ∧ (s.updLink k f).rings = s.rings ∧ (s.updLink k f).funcs = s.funcs ∧ (s.updLink k f).lndErr = s.lndErr ∧
    (s.updLink k f).cfg = s.cfg ∧ (s.updLink k f).errs = s.errs ∧ (s.updLink k f).xngs = s.xngs ∧ (s.updLink k f).eps = s.eps ∧
    (s.updLink k f).groups = s.groups ∧ (s.updLink k f).coll = s.coll ∧ (s.updLink k f).cores = s.cores ∧ (s.updLink k f).caches = s.caches ∧
    (s.updLink k f).media = s.media ∧ (s.updLink k f).sec = s.sec ∧ (s.updLink k f).boot = s.boot ∧ (s.updLink k f).store = s.store ∧
    (s.updLink k f).faults = s.faults ∧ (s.updLink k f).dbg = s.dbg ∧ (s.updLink k f).cnts = s.cnts ∧ (s.updLink k f).toll = s.toll ∧
    (s.updLink k f).wire = s.wire ∧ (s.updLink k f).pending = s.pending := by
  simp [State.updLink]

@[simp] theorem State.updLink_others (k : Nat) (f : Link → Link) (j : Nat) :
    (s.updLink k f).chan j = s.chan j ∧ (s.updLink k f).plot j = s.plot j ∧ (s.updLink k f).slc j = s.slc j ∧
    (s.updLink k f).nor j = s.nor j ∧ (s.updLink k f).stk j = s.stk j ∧ (s.updLink k f).sensor j = s.sensor j ∧
    (s.updLink k f).part j = s.part j ∧ (s.updLink k f).ring j = s.ring j ∧ (s.updLink k f).func j = s.func j ∧
    (s.updLink k f).errf j = s.errf j ∧ (s.updLink k f).xng j = s.xng j ∧ (s.updLink k f).ep j = s.ep j ∧
    (s.updLink k f).grp j = s.grp j ∧ (s.updLink k f).core j = s.core j ∧ (s.updLink k f).med j = s.med j ∧
    (s.updLink k f).cnt j = s.cnt j ∧ (s.updLink k f).reqTab j = s.reqTab j ∧ (s.updLink k f).reg j = s.reg j := by
  refine ⟨rfl, rfl, rfl, rfl, rfl, rfl, rfl, rfl, rfl, rfl, rfl, rfl, rfl, rfl, rfl, rfl, rfl, rfl⟩

@[simp] theorem State.stk_setStk_same (k : Nat) (x : Stack) : (s.setStk k x).stk k = x := by simp [State.stk, State.setStk]

theorem State.stk_setStk_ne {k j : Nat} (x : Stack) (h : j ≠ k) : (s.setStk k x).stk j = s.stk j := 
  tget_tput_ne' _ _ _ x h

theorem State.stk_setStk (k j : Nat) (x : Stack) : (s.setStk k x).stk j = if j = k then x else s.stk j := by
  split
  · subst_vars; simp
  · exact State.stk_setStk_ne s x ‹_›

@[simp] theorem State.setStk_frame (k : Nat) (x : Stack) :
    (s.setStk k x).tb = s.tb ∧ (s.setStk k x).freeCtr = s.freeCtr ∧ (s.setStk k x).reply = s.reply ∧ (s.setStk k x).clocksOff = s.clocksOff ∧
    (s.setStk k x).pins = s.pins ∧ (s.setStk k x).fuses = s.fuses ∧ (s.setStk k x).regs = s.regs ∧ (s.setStk k x).caps = s.caps ∧
    (s.setStk k x).plots = s.plots ∧ (s.setStk k x).chans = s.chans ∧ (s.setStk k x).slices = s.slices ∧ (s.setStk k x).norias = s.norias ∧
    (s.setStk k x).dram = s.dram ∧ (s.setStk k x).chk = s.chk ∧ (s.setStk k x).net = s.net ∧ (s.setStk k x).rr = s.rr ∧
    (s.setStk k x).links = s.links ∧ (s.setStk k x).reqTabs = s.reqTabs ∧ (s.setStk k x).sensors = s.sensors ∧ (s.setStk k x).coolant = s.coolant ∧
    (s.setStk k x).parts = s.parts ∧ (s.setStk k x).rings = s.rings ∧ (s.setStk k x).funcs = s.funcs ∧ (s.setStk k x).lndErr = s.lndErr ∧
    (s.setStk k x).cfg = s.cfg ∧ (s.setStk k x).errs = s.errs ∧ (s.setStk k x).xngs = s.xngs ∧ (s.setStk k x).eps = s.eps ∧
    (s.setStk k x).groups = s.groups ∧ (s.setStk k x).coll = s.coll ∧ (s.setStk k x).cores = s.cores ∧ (s.setStk k x).caches = s.caches ∧
    (s.setStk k x).media = s.media ∧ (s.setStk k x).sec = s.sec ∧ (s.setStk k x).boot = s.boot ∧ (s.setStk k x).store = s.store ∧
    (s.setStk k x).faults = s.faults ∧ (s.setStk k x).dbg = s.dbg ∧ (s.setStk k x).cnts = s.cnts ∧ (s.setStk k x).toll = s.toll ∧
    (s.setStk k x).wire = s.wire ∧ (s.setStk k x).pending = s.pending := by
  simp [State.setStk]

@[simp] theorem State.setStk_fld (k : Nat) (x : Stack) (j lo w : Nat) : (s.setStk k x).fld j lo w = s.fld j lo w := rfl

@[simp] theorem State.setStk_bit (k : Nat) (x : Stack) (j i : Nat) : (s.setStk k x).bit j i = s.bit j i := rfl

@[simp] theorem State.updStk_fld (k : Nat) (f : Stack → Stack) (j lo w : Nat) : (s.updStk k f).fld j lo w = s.fld j lo w := rfl

@[simp] theorem State.updStk_bit (k : Nat) (f : Stack → Stack) (j i : Nat) : (s.updStk k f).bit j i = s.bit j i := rfl

@[simp] theorem State.setStk_others (k : Nat) (x : Stack) (j : Nat) :
    (s.setStk k x).chan j = s.chan j ∧ (s.setStk k x).plot j = s.plot j ∧ (s.setStk k x).slc j = s.slc j ∧
    (s.setStk k x).nor j = s.nor j ∧ (s.setStk k x).link j = s.link j ∧ (s.setStk k x).sensor j = s.sensor j ∧
    (s.setStk k x).part j = s.part j ∧ (s.setStk k x).ring j = s.ring j ∧ (s.setStk k x).func j = s.func j ∧
    (s.setStk k x).errf j = s.errf j ∧ (s.setStk k x).xng j = s.xng j ∧ (s.setStk k x).ep j = s.ep j ∧
    (s.setStk k x).grp j = s.grp j ∧ (s.setStk k x).core j = s.core j ∧ (s.setStk k x).med j = s.med j ∧
    (s.setStk k x).cnt j = s.cnt j ∧ (s.setStk k x).reqTab j = s.reqTab j ∧ (s.setStk k x).reg j = s.reg j := by
  refine ⟨rfl, rfl, rfl, rfl, rfl, rfl, rfl, rfl, rfl, rfl, rfl, rfl, rfl, rfl, rfl, rfl, rfl, rfl⟩

theorem State.updStk_eq (k : Nat) (f : Stack → Stack) : s.updStk k f = s.setStk k (f (s.stk k)) := rfl

@[simp] theorem State.stk_updStk_same (k : Nat) (f : Stack → Stack) : (s.updStk k f).stk k = f (s.stk k) := by
  simp [State.updStk]

theorem State.stk_updStk (k j : Nat) (f : Stack → Stack) :
    (s.updStk k f).stk j = if j = k then f (s.stk k) else s.stk j := State.stk_setStk s k j _

@[simp] theorem State.updStk_frame (k : Nat) (f : Stack → Stack) :
    (s.updStk k f).tb = s.tb ∧ (s.updStk k f).freeCtr = s.freeCtr ∧ (s.updStk k f).reply = s.reply ∧ (s.updStk k f).clocksOff = s.clocksOff ∧
    (s.updStk k f).pins = s.pins ∧ (s.updStk k f).fuses = s.fuses ∧ (s.updStk k f).regs = s.regs ∧ (s.updStk k f).caps = s.caps ∧
    (s.updStk k f).plots = s.plots ∧ (s.updStk k f).chans = s.chans ∧ (s.updStk k f).slices = s.slices ∧ (s.updStk k f).norias = s.norias ∧
    (s.updStk k f).dram = s.dram ∧ (s.updStk k f).chk = s.chk ∧ (s.updStk k f).net = s.net ∧ (s.updStk k f).rr = s.rr ∧
    (s.updStk k f).links = s.links ∧ (s.updStk k f).reqTabs = s.reqTabs ∧ (s.updStk k f).sensors = s.sensors ∧ (s.updStk k f).coolant = s.coolant ∧
    (s.updStk k f).parts = s.parts ∧ (s.updStk k f).rings = s.rings ∧ (s.updStk k f).funcs = s.funcs ∧ (s.updStk k f).lndErr = s.lndErr ∧
    (s.updStk k f).cfg = s.cfg ∧ (s.updStk k f).errs = s.errs ∧ (s.updStk k f).xngs = s.xngs ∧ (s.updStk k f).eps = s.eps ∧
    (s.updStk k f).groups = s.groups ∧ (s.updStk k f).coll = s.coll ∧ (s.updStk k f).cores = s.cores ∧ (s.updStk k f).caches = s.caches ∧
    (s.updStk k f).media = s.media ∧ (s.updStk k f).sec = s.sec ∧ (s.updStk k f).boot = s.boot ∧ (s.updStk k f).store = s.store ∧
    (s.updStk k f).faults = s.faults ∧ (s.updStk k f).dbg = s.dbg ∧ (s.updStk k f).cnts = s.cnts ∧ (s.updStk k f).toll = s.toll ∧
    (s.updStk k f).wire = s.wire ∧ (s.updStk k f).pending = s.pending := by
  simp [State.updStk]

@[simp] theorem State.updStk_others (k : Nat) (f : Stack → Stack) (j : Nat) :
    (s.updStk k f).chan j = s.chan j ∧ (s.updStk k f).plot j = s.plot j ∧ (s.updStk k f).slc j = s.slc j ∧
    (s.updStk k f).nor j = s.nor j ∧ (s.updStk k f).link j = s.link j ∧ (s.updStk k f).sensor j = s.sensor j ∧
    (s.updStk k f).part j = s.part j ∧ (s.updStk k f).ring j = s.ring j ∧ (s.updStk k f).func j = s.func j ∧
    (s.updStk k f).errf j = s.errf j ∧ (s.updStk k f).xng j = s.xng j ∧ (s.updStk k f).ep j = s.ep j ∧
    (s.updStk k f).grp j = s.grp j ∧ (s.updStk k f).core j = s.core j ∧ (s.updStk k f).med j = s.med j ∧
    (s.updStk k f).cnt j = s.cnt j ∧ (s.updStk k f).reqTab j = s.reqTab j ∧ (s.updStk k f).reg j = s.reg j := by
  refine ⟨rfl, rfl, rfl, rfl, rfl, rfl, rfl, rfl, rfl, rfl, rfl, rfl, rfl, rfl, rfl, rfl, rfl, rfl⟩

@[simp] theorem State.sensor_setSensor_same (k : Nat) (x : Sensor) : (s.setSensor k x).sensor k = x := by simp [State.sensor, State.setSensor]

theorem State.sensor_setSensor_ne {k j : Nat} (x : Sensor) (h : j ≠ k) : (s.setSensor k x).sensor j = s.sensor j := 
  tget_tput_ne' _ _ _ x h

theorem State.sensor_setSensor (k j : Nat) (x : Sensor) : (s.setSensor k x).sensor j = if j = k then x else s.sensor j := by
  split
  · subst_vars; simp
  · exact State.sensor_setSensor_ne s x ‹_›

@[simp] theorem State.setSensor_frame (k : Nat) (x : Sensor) :
    (s.setSensor k x).tb = s.tb ∧ (s.setSensor k x).freeCtr = s.freeCtr ∧ (s.setSensor k x).reply = s.reply ∧ (s.setSensor k x).clocksOff = s.clocksOff ∧
    (s.setSensor k x).pins = s.pins ∧ (s.setSensor k x).fuses = s.fuses ∧ (s.setSensor k x).regs = s.regs ∧ (s.setSensor k x).caps = s.caps ∧
    (s.setSensor k x).plots = s.plots ∧ (s.setSensor k x).chans = s.chans ∧ (s.setSensor k x).slices = s.slices ∧ (s.setSensor k x).norias = s.norias ∧
    (s.setSensor k x).dram = s.dram ∧ (s.setSensor k x).chk = s.chk ∧ (s.setSensor k x).net = s.net ∧ (s.setSensor k x).rr = s.rr ∧
    (s.setSensor k x).links = s.links ∧ (s.setSensor k x).reqTabs = s.reqTabs ∧ (s.setSensor k x).stks = s.stks ∧ (s.setSensor k x).coolant = s.coolant ∧
    (s.setSensor k x).parts = s.parts ∧ (s.setSensor k x).rings = s.rings ∧ (s.setSensor k x).funcs = s.funcs ∧ (s.setSensor k x).lndErr = s.lndErr ∧
    (s.setSensor k x).cfg = s.cfg ∧ (s.setSensor k x).errs = s.errs ∧ (s.setSensor k x).xngs = s.xngs ∧ (s.setSensor k x).eps = s.eps ∧
    (s.setSensor k x).groups = s.groups ∧ (s.setSensor k x).coll = s.coll ∧ (s.setSensor k x).cores = s.cores ∧ (s.setSensor k x).caches = s.caches ∧
    (s.setSensor k x).media = s.media ∧ (s.setSensor k x).sec = s.sec ∧ (s.setSensor k x).boot = s.boot ∧ (s.setSensor k x).store = s.store ∧
    (s.setSensor k x).faults = s.faults ∧ (s.setSensor k x).dbg = s.dbg ∧ (s.setSensor k x).cnts = s.cnts ∧ (s.setSensor k x).toll = s.toll ∧
    (s.setSensor k x).wire = s.wire ∧ (s.setSensor k x).pending = s.pending := by
  simp [State.setSensor]

@[simp] theorem State.setSensor_fld (k : Nat) (x : Sensor) (j lo w : Nat) : (s.setSensor k x).fld j lo w = s.fld j lo w := rfl

@[simp] theorem State.setSensor_bit (k : Nat) (x : Sensor) (j i : Nat) : (s.setSensor k x).bit j i = s.bit j i := rfl

@[simp] theorem State.updSensor_fld (k : Nat) (f : Sensor → Sensor) (j lo w : Nat) : (s.updSensor k f).fld j lo w = s.fld j lo w := rfl

@[simp] theorem State.updSensor_bit (k : Nat) (f : Sensor → Sensor) (j i : Nat) : (s.updSensor k f).bit j i = s.bit j i := rfl

@[simp] theorem State.setSensor_others (k : Nat) (x : Sensor) (j : Nat) :
    (s.setSensor k x).chan j = s.chan j ∧ (s.setSensor k x).plot j = s.plot j ∧ (s.setSensor k x).slc j = s.slc j ∧
    (s.setSensor k x).nor j = s.nor j ∧ (s.setSensor k x).link j = s.link j ∧ (s.setSensor k x).stk j = s.stk j ∧
    (s.setSensor k x).part j = s.part j ∧ (s.setSensor k x).ring j = s.ring j ∧ (s.setSensor k x).func j = s.func j ∧
    (s.setSensor k x).errf j = s.errf j ∧ (s.setSensor k x).xng j = s.xng j ∧ (s.setSensor k x).ep j = s.ep j ∧
    (s.setSensor k x).grp j = s.grp j ∧ (s.setSensor k x).core j = s.core j ∧ (s.setSensor k x).med j = s.med j ∧
    (s.setSensor k x).cnt j = s.cnt j ∧ (s.setSensor k x).reqTab j = s.reqTab j ∧ (s.setSensor k x).reg j = s.reg j := by
  refine ⟨rfl, rfl, rfl, rfl, rfl, rfl, rfl, rfl, rfl, rfl, rfl, rfl, rfl, rfl, rfl, rfl, rfl, rfl⟩

theorem State.updSensor_eq (k : Nat) (f : Sensor → Sensor) : s.updSensor k f = s.setSensor k (f (s.sensor k)) := rfl

@[simp] theorem State.sensor_updSensor_same (k : Nat) (f : Sensor → Sensor) : (s.updSensor k f).sensor k = f (s.sensor k) := by
  simp [State.updSensor]

theorem State.sensor_updSensor (k j : Nat) (f : Sensor → Sensor) :
    (s.updSensor k f).sensor j = if j = k then f (s.sensor k) else s.sensor j := State.sensor_setSensor s k j _

@[simp] theorem State.updSensor_frame (k : Nat) (f : Sensor → Sensor) :
    (s.updSensor k f).tb = s.tb ∧ (s.updSensor k f).freeCtr = s.freeCtr ∧ (s.updSensor k f).reply = s.reply ∧ (s.updSensor k f).clocksOff = s.clocksOff ∧
    (s.updSensor k f).pins = s.pins ∧ (s.updSensor k f).fuses = s.fuses ∧ (s.updSensor k f).regs = s.regs ∧ (s.updSensor k f).caps = s.caps ∧
    (s.updSensor k f).plots = s.plots ∧ (s.updSensor k f).chans = s.chans ∧ (s.updSensor k f).slices = s.slices ∧ (s.updSensor k f).norias = s.norias ∧
    (s.updSensor k f).dram = s.dram ∧ (s.updSensor k f).chk = s.chk ∧ (s.updSensor k f).net = s.net ∧ (s.updSensor k f).rr = s.rr ∧
    (s.updSensor k f).links = s.links ∧ (s.updSensor k f).reqTabs = s.reqTabs ∧ (s.updSensor k f).stks = s.stks ∧ (s.updSensor k f).coolant = s.coolant ∧
    (s.updSensor k f).parts = s.parts ∧ (s.updSensor k f).rings = s.rings ∧ (s.updSensor k f).funcs = s.funcs ∧ (s.updSensor k f).lndErr = s.lndErr ∧
    (s.updSensor k f).cfg = s.cfg ∧ (s.updSensor k f).errs = s.errs ∧ (s.updSensor k f).xngs = s.xngs ∧ (s.updSensor k f).eps = s.eps ∧
    (s.updSensor k f).groups = s.groups ∧ (s.updSensor k f).coll = s.coll ∧ (s.updSensor k f).cores = s.cores ∧ (s.updSensor k f).caches = s.caches ∧
    (s.updSensor k f).media = s.media ∧ (s.updSensor k f).sec = s.sec ∧ (s.updSensor k f).boot = s.boot ∧ (s.updSensor k f).store = s.store ∧
    (s.updSensor k f).faults = s.faults ∧ (s.updSensor k f).dbg = s.dbg ∧ (s.updSensor k f).cnts = s.cnts ∧ (s.updSensor k f).toll = s.toll ∧
    (s.updSensor k f).wire = s.wire ∧ (s.updSensor k f).pending = s.pending := by
  simp [State.updSensor]

@[simp] theorem State.updSensor_others (k : Nat) (f : Sensor → Sensor) (j : Nat) :
    (s.updSensor k f).chan j = s.chan j ∧ (s.updSensor k f).plot j = s.plot j ∧ (s.updSensor k f).slc j = s.slc j ∧
    (s.updSensor k f).nor j = s.nor j ∧ (s.updSensor k f).link j = s.link j ∧ (s.updSensor k f).stk j = s.stk j ∧
    (s.updSensor k f).part j = s.part j ∧ (s.updSensor k f).ring j = s.ring j ∧ (s.updSensor k f).func j = s.func j ∧
    (s.updSensor k f).errf j = s.errf j ∧ (s.updSensor k f).xng j = s.xng j ∧ (s.updSensor k f).ep j = s.ep j ∧
    (s.updSensor k f).grp j = s.grp j ∧ (s.updSensor k f).core j = s.core j ∧ (s.updSensor k f).med j = s.med j ∧
    (s.updSensor k f).cnt j = s.cnt j ∧ (s.updSensor k f).reqTab j = s.reqTab j ∧ (s.updSensor k f).reg j = s.reg j := by
  refine ⟨rfl, rfl, rfl, rfl, rfl, rfl, rfl, rfl, rfl, rfl, rfl, rfl, rfl, rfl, rfl, rfl, rfl, rfl⟩

@[simp] theorem State.part_setPart_same (k : Nat) (x : Part) : (s.setPart k x).part k = x := by simp [State.part, State.setPart]

theorem State.part_setPart_ne {k j : Nat} (x : Part) (h : j ≠ k) : (s.setPart k x).part j = s.part j := 
  tget_tput_ne' _ _ _ x h

theorem State.part_setPart (k j : Nat) (x : Part) : (s.setPart k x).part j = if j = k then x else s.part j := by
  split
  · subst_vars; simp
  · exact State.part_setPart_ne s x ‹_›

@[simp] theorem State.setPart_frame (k : Nat) (x : Part) :
    (s.setPart k x).tb = s.tb ∧ (s.setPart k x).freeCtr = s.freeCtr ∧ (s.setPart k x).reply = s.reply ∧ (s.setPart k x).clocksOff = s.clocksOff ∧
    (s.setPart k x).pins = s.pins ∧ (s.setPart k x).fuses = s.fuses ∧ (s.setPart k x).regs = s.regs ∧ (s.setPart k x).caps = s.caps ∧
    (s.setPart k x).plots = s.plots ∧ (s.setPart k x).chans = s.chans ∧ (s.setPart k x).slices = s.slices ∧ (s.setPart k x).norias = s.norias ∧
    (s.setPart k x).dram = s.dram ∧ (s.setPart k x).chk = s.chk ∧ (s.setPart k x).net = s.net ∧ (s.setPart k x).rr = s.rr ∧
    (s.setPart k x).links = s.links ∧ (s.setPart k x).reqTabs = s.reqTabs ∧ (s.setPart k x).stks = s.stks ∧ (s.setPart k x).sensors = s.sensors ∧
    (s.setPart k x).coolant = s.coolant ∧ (s.setPart k x).rings = s.rings ∧ (s.setPart k x).funcs = s.funcs ∧ (s.setPart k x).lndErr = s.lndErr ∧
    (s.setPart k x).cfg = s.cfg ∧ (s.setPart k x).errs = s.errs ∧ (s.setPart k x).xngs = s.xngs ∧ (s.setPart k x).eps = s.eps ∧
    (s.setPart k x).groups = s.groups ∧ (s.setPart k x).coll = s.coll ∧ (s.setPart k x).cores = s.cores ∧ (s.setPart k x).caches = s.caches ∧
    (s.setPart k x).media = s.media ∧ (s.setPart k x).sec = s.sec ∧ (s.setPart k x).boot = s.boot ∧ (s.setPart k x).store = s.store ∧
    (s.setPart k x).faults = s.faults ∧ (s.setPart k x).dbg = s.dbg ∧ (s.setPart k x).cnts = s.cnts ∧ (s.setPart k x).toll = s.toll ∧
    (s.setPart k x).wire = s.wire ∧ (s.setPart k x).pending = s.pending := by
  simp [State.setPart]

@[simp] theorem State.setPart_fld (k : Nat) (x : Part) (j lo w : Nat) : (s.setPart k x).fld j lo w = s.fld j lo w := rfl

@[simp] theorem State.setPart_bit (k : Nat) (x : Part) (j i : Nat) : (s.setPart k x).bit j i = s.bit j i := rfl

@[simp] theorem State.updPart_fld (k : Nat) (f : Part → Part) (j lo w : Nat) : (s.updPart k f).fld j lo w = s.fld j lo w := rfl

@[simp] theorem State.updPart_bit (k : Nat) (f : Part → Part) (j i : Nat) : (s.updPart k f).bit j i = s.bit j i := rfl

@[simp] theorem State.setPart_others (k : Nat) (x : Part) (j : Nat) :
    (s.setPart k x).chan j = s.chan j ∧ (s.setPart k x).plot j = s.plot j ∧ (s.setPart k x).slc j = s.slc j ∧
    (s.setPart k x).nor j = s.nor j ∧ (s.setPart k x).link j = s.link j ∧ (s.setPart k x).stk j = s.stk j ∧
    (s.setPart k x).sensor j = s.sensor j ∧ (s.setPart k x).ring j = s.ring j ∧ (s.setPart k x).func j = s.func j ∧
    (s.setPart k x).errf j = s.errf j ∧ (s.setPart k x).xng j = s.xng j ∧ (s.setPart k x).ep j = s.ep j ∧
    (s.setPart k x).grp j = s.grp j ∧ (s.setPart k x).core j = s.core j ∧ (s.setPart k x).med j = s.med j ∧
    (s.setPart k x).cnt j = s.cnt j ∧ (s.setPart k x).reqTab j = s.reqTab j ∧ (s.setPart k x).reg j = s.reg j := by
  refine ⟨rfl, rfl, rfl, rfl, rfl, rfl, rfl, rfl, rfl, rfl, rfl, rfl, rfl, rfl, rfl, rfl, rfl, rfl⟩

theorem State.updPart_eq (k : Nat) (f : Part → Part) : s.updPart k f = s.setPart k (f (s.part k)) := rfl

@[simp] theorem State.part_updPart_same (k : Nat) (f : Part → Part) : (s.updPart k f).part k = f (s.part k) := by
  simp [State.updPart]

theorem State.part_updPart (k j : Nat) (f : Part → Part) :
    (s.updPart k f).part j = if j = k then f (s.part k) else s.part j := State.part_setPart s k j _

@[simp] theorem State.updPart_frame (k : Nat) (f : Part → Part) :
    (s.updPart k f).tb = s.tb ∧ (s.updPart k f).freeCtr = s.freeCtr ∧ (s.updPart k f).reply = s.reply ∧ (s.updPart k f).clocksOff = s.clocksOff ∧
    (s.updPart k f).pins = s.pins ∧ (s.updPart k f).fuses = s.fuses ∧ (s.updPart k f).regs = s.regs ∧ (s.updPart k f).caps = s.caps ∧
    (s.updPart k f).plots = s.plots ∧ (s.updPart k f).chans = s.chans ∧ (s.updPart k f).slices = s.slices ∧ (s.updPart k f).norias = s.norias ∧
    (s.updPart k f).dram = s.dram ∧ (s.updPart k f).chk = s.chk ∧ (s.updPart k f).net = s.net ∧ (s.updPart k f).rr = s.rr ∧
    (s.updPart k f).links = s.links ∧ (s.updPart k f).reqTabs = s.reqTabs ∧ (s.updPart k f).stks = s.stks ∧ (s.updPart k f).sensors = s.sensors ∧
    (s.updPart k f).coolant = s.coolant ∧ (s.updPart k f).rings = s.rings ∧ (s.updPart k f).funcs = s.funcs ∧ (s.updPart k f).lndErr = s.lndErr ∧
    (s.updPart k f).cfg = s.cfg ∧ (s.updPart k f).errs = s.errs ∧ (s.updPart k f).xngs = s.xngs ∧ (s.updPart k f).eps = s.eps ∧
    (s.updPart k f).groups = s.groups ∧ (s.updPart k f).coll = s.coll ∧ (s.updPart k f).cores = s.cores ∧ (s.updPart k f).caches = s.caches ∧
    (s.updPart k f).media = s.media ∧ (s.updPart k f).sec = s.sec ∧ (s.updPart k f).boot = s.boot ∧ (s.updPart k f).store = s.store ∧
    (s.updPart k f).faults = s.faults ∧ (s.updPart k f).dbg = s.dbg ∧ (s.updPart k f).cnts = s.cnts ∧ (s.updPart k f).toll = s.toll ∧
    (s.updPart k f).wire = s.wire ∧ (s.updPart k f).pending = s.pending := by
  simp [State.updPart]

@[simp] theorem State.updPart_others (k : Nat) (f : Part → Part) (j : Nat) :
    (s.updPart k f).chan j = s.chan j ∧ (s.updPart k f).plot j = s.plot j ∧ (s.updPart k f).slc j = s.slc j ∧
    (s.updPart k f).nor j = s.nor j ∧ (s.updPart k f).link j = s.link j ∧ (s.updPart k f).stk j = s.stk j ∧
    (s.updPart k f).sensor j = s.sensor j ∧ (s.updPart k f).ring j = s.ring j ∧ (s.updPart k f).func j = s.func j ∧
    (s.updPart k f).errf j = s.errf j ∧ (s.updPart k f).xng j = s.xng j ∧ (s.updPart k f).ep j = s.ep j ∧
    (s.updPart k f).grp j = s.grp j ∧ (s.updPart k f).core j = s.core j ∧ (s.updPart k f).med j = s.med j ∧
    (s.updPart k f).cnt j = s.cnt j ∧ (s.updPart k f).reqTab j = s.reqTab j ∧ (s.updPart k f).reg j = s.reg j := by
  refine ⟨rfl, rfl, rfl, rfl, rfl, rfl, rfl, rfl, rfl, rfl, rfl, rfl, rfl, rfl, rfl, rfl, rfl, rfl⟩

@[simp] theorem State.ring_setRing_same (k : Nat) (x : Ring) : (s.setRing k x).ring k = x := by simp [State.ring, State.setRing]

theorem State.ring_setRing_ne {k j : Nat} (x : Ring) (h : j ≠ k) : (s.setRing k x).ring j = s.ring j := 
  tget_tput_ne' _ _ _ x h

theorem State.ring_setRing (k j : Nat) (x : Ring) : (s.setRing k x).ring j = if j = k then x else s.ring j := by
  split
  · subst_vars; simp
  · exact State.ring_setRing_ne s x ‹_›

@[simp] theorem State.setRing_frame (k : Nat) (x : Ring) :
    (s.setRing k x).tb = s.tb ∧ (s.setRing k x).freeCtr = s.freeCtr ∧ (s.setRing k x).reply = s.reply ∧ (s.setRing k x).clocksOff = s.clocksOff ∧
    (s.setRing k x).pins = s.pins ∧ (s.setRing k x).fuses = s.fuses ∧ (s.setRing k x).regs = s.regs ∧ (s.setRing k x).caps = s.caps ∧
    (s.setRing k x).plots = s.plots ∧ (s.setRing k x).chans = s.chans ∧ (s.setRing k x).slices = s.slices ∧ (s.setRing k x).norias = s.norias ∧
    (s.setRing k x).dram = s.dram ∧ (s.setRing k x).chk = s.chk ∧ (s.setRing k x).net = s.net ∧ (s.setRing k x).rr = s.rr ∧
    (s.setRing k x).links = s.links ∧ (s.setRing k x).reqTabs = s.reqTabs ∧ (s.setRing k x).stks = s.stks ∧ (s.setRing k x).sensors = s.sensors ∧
    (s.setRing k x).coolant = s.coolant ∧ (s.setRing k x).parts = s.parts ∧ (s.setRing k x).funcs = s.funcs ∧ (s.setRing k x).lndErr = s.lndErr ∧
    (s.setRing k x).cfg = s.cfg ∧ (s.setRing k x).errs = s.errs ∧ (s.setRing k x).xngs = s.xngs ∧ (s.setRing k x).eps = s.eps ∧
    (s.setRing k x).groups = s.groups ∧ (s.setRing k x).coll = s.coll ∧ (s.setRing k x).cores = s.cores ∧ (s.setRing k x).caches = s.caches ∧
    (s.setRing k x).media = s.media ∧ (s.setRing k x).sec = s.sec ∧ (s.setRing k x).boot = s.boot ∧ (s.setRing k x).store = s.store ∧
    (s.setRing k x).faults = s.faults ∧ (s.setRing k x).dbg = s.dbg ∧ (s.setRing k x).cnts = s.cnts ∧ (s.setRing k x).toll = s.toll ∧
    (s.setRing k x).wire = s.wire ∧ (s.setRing k x).pending = s.pending := by
  simp [State.setRing]

@[simp] theorem State.setRing_fld (k : Nat) (x : Ring) (j lo w : Nat) : (s.setRing k x).fld j lo w = s.fld j lo w := rfl

@[simp] theorem State.setRing_bit (k : Nat) (x : Ring) (j i : Nat) : (s.setRing k x).bit j i = s.bit j i := rfl

@[simp] theorem State.updRing_fld (k : Nat) (f : Ring → Ring) (j lo w : Nat) : (s.updRing k f).fld j lo w = s.fld j lo w := rfl

@[simp] theorem State.updRing_bit (k : Nat) (f : Ring → Ring) (j i : Nat) : (s.updRing k f).bit j i = s.bit j i := rfl

@[simp] theorem State.setRing_others (k : Nat) (x : Ring) (j : Nat) :
    (s.setRing k x).chan j = s.chan j ∧ (s.setRing k x).plot j = s.plot j ∧ (s.setRing k x).slc j = s.slc j ∧
    (s.setRing k x).nor j = s.nor j ∧ (s.setRing k x).link j = s.link j ∧ (s.setRing k x).stk j = s.stk j ∧
    (s.setRing k x).sensor j = s.sensor j ∧ (s.setRing k x).part j = s.part j ∧ (s.setRing k x).func j = s.func j ∧
    (s.setRing k x).errf j = s.errf j ∧ (s.setRing k x).xng j = s.xng j ∧ (s.setRing k x).ep j = s.ep j ∧
    (s.setRing k x).grp j = s.grp j ∧ (s.setRing k x).core j = s.core j ∧ (s.setRing k x).med j = s.med j ∧
    (s.setRing k x).cnt j = s.cnt j ∧ (s.setRing k x).reqTab j = s.reqTab j ∧ (s.setRing k x).reg j = s.reg j := by
  refine ⟨rfl, rfl, rfl, rfl, rfl, rfl, rfl, rfl, rfl, rfl, rfl, rfl, rfl, rfl, rfl, rfl, rfl, rfl⟩

theorem State.updRing_eq (k : Nat) (f : Ring → Ring) : s.updRing k f = s.setRing k (f (s.ring k)) := rfl

@[simp] theorem State.ring_updRing_same (k : Nat) (f : Ring → Ring) : (s.updRing k f).ring k = f (s.ring k) := by
  simp [State.updRing]

theorem State.ring_updRing (k j : Nat) (f : Ring → Ring) :
    (s.updRing k f).ring j = if j = k then f (s.ring k) else s.ring j := State.ring_setRing s k j _

@[simp] theorem State.updRing_frame (k : Nat) (f : Ring → Ring) :
    (s.updRing k f).tb = s.tb ∧ (s.updRing k f).freeCtr = s.freeCtr ∧ (s.updRing k f).reply = s.reply ∧ (s.updRing k f).clocksOff = s.clocksOff ∧
    (s.updRing k f).pins = s.pins ∧ (s.updRing k f).fuses = s.fuses ∧ (s.updRing k f).regs = s.regs ∧ (s.updRing k f).caps = s.caps ∧
    (s.updRing k f).plots = s.plots ∧ (s.updRing k f).chans = s.chans ∧ (s.updRing k f).slices = s.slices ∧ (s.updRing k f).norias = s.norias ∧
    (s.updRing k f).dram = s.dram ∧ (s.updRing k f).chk = s.chk ∧ (s.updRing k f).net = s.net ∧ (s.updRing k f).rr = s.rr ∧
    (s.updRing k f).links = s.links ∧ (s.updRing k f).reqTabs = s.reqTabs ∧ (s.updRing k f).stks = s.stks ∧ (s.updRing k f).sensors = s.sensors ∧
    (s.updRing k f).coolant = s.coolant ∧ (s.updRing k f).parts = s.parts ∧ (s.updRing k f).funcs = s.funcs ∧ (s.updRing k f).lndErr = s.lndErr ∧
    (s.updRing k f).cfg = s.cfg ∧ (s.updRing k f).errs = s.errs ∧ (s.updRing k f).xngs = s.xngs ∧ (s.updRing k f).eps = s.eps ∧
    (s.updRing k f).groups = s.groups ∧ (s.updRing k f).coll = s.coll ∧ (s.updRing k f).cores = s.cores ∧ (s.updRing k f).caches = s.caches ∧
    (s.updRing k f).media = s.media ∧ (s.updRing k f).sec = s.sec ∧ (s.updRing k f).boot = s.boot ∧ (s.updRing k f).store = s.store ∧
    (s.updRing k f).faults = s.faults ∧ (s.updRing k f).dbg = s.dbg ∧ (s.updRing k f).cnts = s.cnts ∧ (s.updRing k f).toll = s.toll ∧
    (s.updRing k f).wire = s.wire ∧ (s.updRing k f).pending = s.pending := by
  simp [State.updRing]

@[simp] theorem State.updRing_others (k : Nat) (f : Ring → Ring) (j : Nat) :
    (s.updRing k f).chan j = s.chan j ∧ (s.updRing k f).plot j = s.plot j ∧ (s.updRing k f).slc j = s.slc j ∧
    (s.updRing k f).nor j = s.nor j ∧ (s.updRing k f).link j = s.link j ∧ (s.updRing k f).stk j = s.stk j ∧
    (s.updRing k f).sensor j = s.sensor j ∧ (s.updRing k f).part j = s.part j ∧ (s.updRing k f).func j = s.func j ∧
    (s.updRing k f).errf j = s.errf j ∧ (s.updRing k f).xng j = s.xng j ∧ (s.updRing k f).ep j = s.ep j ∧
    (s.updRing k f).grp j = s.grp j ∧ (s.updRing k f).core j = s.core j ∧ (s.updRing k f).med j = s.med j ∧
    (s.updRing k f).cnt j = s.cnt j ∧ (s.updRing k f).reqTab j = s.reqTab j ∧ (s.updRing k f).reg j = s.reg j := by
  refine ⟨rfl, rfl, rfl, rfl, rfl, rfl, rfl, rfl, rfl, rfl, rfl, rfl, rfl, rfl, rfl, rfl, rfl, rfl⟩

@[simp] theorem State.func_setFunc_same (k : Nat) (x : Func) : (s.setFunc k x).func k = x := by simp [State.func, State.setFunc]

theorem State.func_setFunc_ne {k j : Nat} (x : Func) (h : j ≠ k) : (s.setFunc k x).func j = s.func j := 
  tget_tput_ne' _ _ _ x h

theorem State.func_setFunc (k j : Nat) (x : Func) : (s.setFunc k x).func j = if j = k then x else s.func j := by
  split
  · subst_vars; simp
  · exact State.func_setFunc_ne s x ‹_›

@[simp] theorem State.setFunc_frame (k : Nat) (x : Func) :
    (s.setFunc k x).tb = s.tb ∧ (s.setFunc k x).freeCtr = s.freeCtr ∧ (s.setFunc k x).reply = s.reply ∧ (s.setFunc k x).clocksOff = s.clocksOff ∧
    (s.setFunc k x).pins = s.pins ∧ (s.setFunc k x).fuses = s.fuses ∧ (s.setFunc k x).regs = s.regs ∧ (s.setFunc k x).caps = s.caps ∧
    (s.setFunc k x).plots = s.plots ∧ (s.setFunc k x).chans = s.chans ∧ (s.setFunc k x).slices = s.slices ∧ (s.setFunc k x).norias = s.norias ∧
    (s.setFunc k x).dram = s.dram ∧ (s.setFunc k x).chk = s.chk ∧ (s.setFunc k x).net = s.net ∧ (s.setFunc k x).rr = s.rr ∧
    (s.setFunc k x).links = s.links ∧ (s.setFunc k x).reqTabs = s.reqTabs ∧ (s.setFunc k x).stks = s.stks ∧ (s.setFunc k x).sensors = s.sensors ∧
    (s.setFunc k x).coolant = s.coolant ∧ (s.setFunc k x).parts = s.parts ∧ (s.setFunc k x).rings = s.rings ∧ (s.setFunc k x).lndErr = s.lndErr ∧
    (s.setFunc k x).cfg = s.cfg ∧ (s.setFunc k x).errs = s.errs ∧ (s.setFunc k x).xngs = s.xngs ∧ (s.setFunc k x).eps = s.eps ∧
    (s.setFunc k x).groups = s.groups ∧ (s.setFunc k x).coll = s.coll ∧ (s.setFunc k x).cores = s.cores ∧ (s.setFunc k x).caches = s.caches ∧
    (s.setFunc k x).media = s.media ∧ (s.setFunc k x).sec = s.sec ∧ (s.setFunc k x).boot = s.boot ∧ (s.setFunc k x).store = s.store ∧
    (s.setFunc k x).faults = s.faults ∧ (s.setFunc k x).dbg = s.dbg ∧ (s.setFunc k x).cnts = s.cnts ∧ (s.setFunc k x).toll = s.toll ∧
    (s.setFunc k x).wire = s.wire ∧ (s.setFunc k x).pending = s.pending := by
  simp [State.setFunc]

@[simp] theorem State.setFunc_fld (k : Nat) (x : Func) (j lo w : Nat) : (s.setFunc k x).fld j lo w = s.fld j lo w := rfl

@[simp] theorem State.setFunc_bit (k : Nat) (x : Func) (j i : Nat) : (s.setFunc k x).bit j i = s.bit j i := rfl

@[simp] theorem State.updFunc_fld (k : Nat) (f : Func → Func) (j lo w : Nat) : (s.updFunc k f).fld j lo w = s.fld j lo w := rfl

@[simp] theorem State.updFunc_bit (k : Nat) (f : Func → Func) (j i : Nat) : (s.updFunc k f).bit j i = s.bit j i := rfl

@[simp] theorem State.setFunc_others (k : Nat) (x : Func) (j : Nat) :
    (s.setFunc k x).chan j = s.chan j ∧ (s.setFunc k x).plot j = s.plot j ∧ (s.setFunc k x).slc j = s.slc j ∧
    (s.setFunc k x).nor j = s.nor j ∧ (s.setFunc k x).link j = s.link j ∧ (s.setFunc k x).stk j = s.stk j ∧
    (s.setFunc k x).sensor j = s.sensor j ∧ (s.setFunc k x).part j = s.part j ∧ (s.setFunc k x).ring j = s.ring j ∧
    (s.setFunc k x).errf j = s.errf j ∧ (s.setFunc k x).xng j = s.xng j ∧ (s.setFunc k x).ep j = s.ep j ∧
    (s.setFunc k x).grp j = s.grp j ∧ (s.setFunc k x).core j = s.core j ∧ (s.setFunc k x).med j = s.med j ∧
    (s.setFunc k x).cnt j = s.cnt j ∧ (s.setFunc k x).reqTab j = s.reqTab j ∧ (s.setFunc k x).reg j = s.reg j := by
  refine ⟨rfl, rfl, rfl, rfl, rfl, rfl, rfl, rfl, rfl, rfl, rfl, rfl, rfl, rfl, rfl, rfl, rfl, rfl⟩

theorem State.updFunc_eq (k : Nat) (f : Func → Func) : s.updFunc k f = s.setFunc k (f (s.func k)) := rfl

@[simp] theorem State.func_updFunc_same (k : Nat) (f : Func → Func) : (s.updFunc k f).func k = f (s.func k) := by
  simp [State.updFunc]

theorem State.func_updFunc (k j : Nat) (f : Func → Func) :
    (s.updFunc k f).func j = if j = k then f (s.func k) else s.func j := State.func_setFunc s k j _

@[simp] theorem State.updFunc_frame (k : Nat) (f : Func → Func) :
    (s.updFunc k f).tb = s.tb ∧ (s.updFunc k f).freeCtr = s.freeCtr ∧ (s.updFunc k f).reply = s.reply ∧ (s.updFunc k f).clocksOff = s.clocksOff ∧
    (s.updFunc k f).pins = s.pins ∧ (s.updFunc k f).fuses = s.fuses ∧ (s.updFunc k f).regs = s.regs ∧ (s.updFunc k f).caps = s.caps ∧
    (s.updFunc k f).plots = s.plots ∧ (s.updFunc k f).chans = s.chans ∧ (s.updFunc k f).slices = s.slices ∧ (s.updFunc k f).norias = s.norias ∧
    (s.updFunc k f).dram = s.dram ∧ (s.updFunc k f).chk = s.chk ∧ (s.updFunc k f).net = s.net ∧ (s.updFunc k f).rr = s.rr ∧
    (s.updFunc k f).links = s.links ∧ (s.updFunc k f).reqTabs = s.reqTabs ∧ (s.updFunc k f).stks = s.stks ∧ (s.updFunc k f).sensors = s.sensors ∧
    (s.updFunc k f).coolant = s.coolant ∧ (s.updFunc k f).parts = s.parts ∧ (s.updFunc k f).rings = s.rings ∧ (s.updFunc k f).lndErr = s.lndErr ∧
    (s.updFunc k f).cfg = s.cfg ∧ (s.updFunc k f).errs = s.errs ∧ (s.updFunc k f).xngs = s.xngs ∧ (s.updFunc k f).eps = s.eps ∧
    (s.updFunc k f).groups = s.groups ∧ (s.updFunc k f).coll = s.coll ∧ (s.updFunc k f).cores = s.cores ∧ (s.updFunc k f).caches = s.caches ∧
    (s.updFunc k f).media = s.media ∧ (s.updFunc k f).sec = s.sec ∧ (s.updFunc k f).boot = s.boot ∧ (s.updFunc k f).store = s.store ∧
    (s.updFunc k f).faults = s.faults ∧ (s.updFunc k f).dbg = s.dbg ∧ (s.updFunc k f).cnts = s.cnts ∧ (s.updFunc k f).toll = s.toll ∧
    (s.updFunc k f).wire = s.wire ∧ (s.updFunc k f).pending = s.pending := by
  simp [State.updFunc]

@[simp] theorem State.updFunc_others (k : Nat) (f : Func → Func) (j : Nat) :
    (s.updFunc k f).chan j = s.chan j ∧ (s.updFunc k f).plot j = s.plot j ∧ (s.updFunc k f).slc j = s.slc j ∧
    (s.updFunc k f).nor j = s.nor j ∧ (s.updFunc k f).link j = s.link j ∧ (s.updFunc k f).stk j = s.stk j ∧
    (s.updFunc k f).sensor j = s.sensor j ∧ (s.updFunc k f).part j = s.part j ∧ (s.updFunc k f).ring j = s.ring j ∧
    (s.updFunc k f).errf j = s.errf j ∧ (s.updFunc k f).xng j = s.xng j ∧ (s.updFunc k f).ep j = s.ep j ∧
    (s.updFunc k f).grp j = s.grp j ∧ (s.updFunc k f).core j = s.core j ∧ (s.updFunc k f).med j = s.med j ∧
    (s.updFunc k f).cnt j = s.cnt j ∧ (s.updFunc k f).reqTab j = s.reqTab j ∧ (s.updFunc k f).reg j = s.reg j := by
  refine ⟨rfl, rfl, rfl, rfl, rfl, rfl, rfl, rfl, rfl, rfl, rfl, rfl, rfl, rfl, rfl, rfl, rfl, rfl⟩

@[simp] theorem State.errf_setErrf_same (k : Nat) (x : ErrFifo) : (s.setErrf k x).errf k = x := by simp [State.errf, State.setErrf]

theorem State.errf_setErrf_ne {k j : Nat} (x : ErrFifo) (h : j ≠ k) : (s.setErrf k x).errf j = s.errf j := 
  tget_tput_ne' _ _ _ x h

theorem State.errf_setErrf (k j : Nat) (x : ErrFifo) : (s.setErrf k x).errf j = if j = k then x else s.errf j := by
  split
  · subst_vars; simp
  · exact State.errf_setErrf_ne s x ‹_›

@[simp] theorem State.setErrf_frame (k : Nat) (x : ErrFifo) :
    (s.setErrf k x).tb = s.tb ∧ (s.setErrf k x).freeCtr = s.freeCtr ∧ (s.setErrf k x).reply = s.reply ∧ (s.setErrf k x).clocksOff = s.clocksOff ∧
    (s.setErrf k x).pins = s.pins ∧ (s.setErrf k x).fuses = s.fuses ∧ (s.setErrf k x).regs = s.regs ∧ (s.setErrf k x).caps = s.caps ∧
    (s.setErrf k x).plots = s.plots ∧ (s.setErrf k x).chans = s.chans ∧ (s.setErrf k x).slices = s.slices ∧ (s.setErrf k x).norias = s.norias ∧
    (s.setErrf k x).dram = s.dram ∧ (s.setErrf k x).chk = s.chk ∧ (s.setErrf k x).net = s.net ∧ (s.setErrf k x).rr = s.rr ∧
    (s.setErrf k x).links = s.links ∧ (s.setErrf k x).reqTabs = s.reqTabs ∧ (s.setErrf k x).stks = s.stks ∧ (s.setErrf k x).sensors = s.sensors ∧
    (s.setErrf k x).coolant = s.coolant ∧ (s.setErrf k x).parts = s.parts ∧ (s.setErrf k x).rings = s.rings ∧ (s.setErrf k x).funcs = s.funcs ∧
    (s.setErrf k x).lndErr = s.lndErr ∧ (s.setErrf k x).cfg = s.cfg ∧ (s.setErrf k x).xngs = s.xngs ∧ (s.setErrf k x).eps = s.eps ∧
    (s.setErrf k x).groups = s.groups ∧ (s.setErrf k x).coll = s.coll ∧ (s.setErrf k x).cores = s.cores ∧ (s.setErrf k x).caches = s.caches ∧
    (s.setErrf k x).media = s.media ∧ (s.setErrf k x).sec = s.sec ∧ (s.setErrf k x).boot = s.boot ∧ (s.setErrf k x).store = s.store ∧
    (s.setErrf k x).faults = s.faults ∧ (s.setErrf k x).dbg = s.dbg ∧ (s.setErrf k x).cnts = s.cnts ∧ (s.setErrf k x).toll = s.toll ∧
    (s.setErrf k x).wire = s.wire ∧ (s.setErrf k x).pending = s.pending := by
  simp [State.setErrf]

@[simp] theorem State.setErrf_fld (k : Nat) (x : ErrFifo) (j lo w : Nat) : (s.setErrf k x).fld j lo w = s.fld j lo w := rfl

@[simp] theorem State.setErrf_bit (k : Nat) (x : ErrFifo) (j i : Nat) : (s.setErrf k x).bit j i = s.bit j i := rfl

@[simp] theorem State.updErrf_fld (k : Nat) (f : ErrFifo → ErrFifo) (j lo w : Nat) : (s.updErrf k f).fld j lo w = s.fld j lo w := rfl

@[simp] theorem State.updErrf_bit (k : Nat) (f : ErrFifo → ErrFifo) (j i : Nat) : (s.updErrf k f).bit j i = s.bit j i := rfl

@[simp] theorem State.setErrf_others (k : Nat) (x : ErrFifo) (j : Nat) :
    (s.setErrf k x).chan j = s.chan j ∧ (s.setErrf k x).plot j = s.plot j ∧ (s.setErrf k x).slc j = s.slc j ∧
    (s.setErrf k x).nor j = s.nor j ∧ (s.setErrf k x).link j = s.link j ∧ (s.setErrf k x).stk j = s.stk j ∧
    (s.setErrf k x).sensor j = s.sensor j ∧ (s.setErrf k x).part j = s.part j ∧ (s.setErrf k x).ring j = s.ring j ∧
    (s.setErrf k x).func j = s.func j ∧ (s.setErrf k x).xng j = s.xng j ∧ (s.setErrf k x).ep j = s.ep j ∧
    (s.setErrf k x).grp j = s.grp j ∧ (s.setErrf k x).core j = s.core j ∧ (s.setErrf k x).med j = s.med j ∧
    (s.setErrf k x).cnt j = s.cnt j ∧ (s.setErrf k x).reqTab j = s.reqTab j ∧ (s.setErrf k x).reg j = s.reg j := by
  refine ⟨rfl, rfl, rfl, rfl, rfl, rfl, rfl, rfl, rfl, rfl, rfl, rfl, rfl, rfl, rfl, rfl, rfl, rfl⟩

theorem State.updErrf_eq (k : Nat) (f : ErrFifo → ErrFifo) : s.updErrf k f = s.setErrf k (f (s.errf k)) := rfl

@[simp] theorem State.errf_updErrf_same (k : Nat) (f : ErrFifo → ErrFifo) : (s.updErrf k f).errf k = f (s.errf k) := by
  simp [State.updErrf]

theorem State.errf_updErrf (k j : Nat) (f : ErrFifo → ErrFifo) :
    (s.updErrf k f).errf j = if j = k then f (s.errf k) else s.errf j := State.errf_setErrf s k j _

@[simp] theorem State.updErrf_frame (k : Nat) (f : ErrFifo → ErrFifo) :
    (s.updErrf k f).tb = s.tb ∧ (s.updErrf k f).freeCtr = s.freeCtr ∧ (s.updErrf k f).reply = s.reply ∧ (s.updErrf k f).clocksOff = s.clocksOff ∧
    (s.updErrf k f).pins = s.pins ∧ (s.updErrf k f).fuses = s.fuses ∧ (s.updErrf k f).regs = s.regs ∧ (s.updErrf k f).caps = s.caps ∧
    (s.updErrf k f).plots = s.plots ∧ (s.updErrf k f).chans = s.chans ∧ (s.updErrf k f).slices = s.slices ∧ (s.updErrf k f).norias = s.norias ∧
    (s.updErrf k f).dram = s.dram ∧ (s.updErrf k f).chk = s.chk ∧ (s.updErrf k f).net = s.net ∧ (s.updErrf k f).rr = s.rr ∧
    (s.updErrf k f).links = s.links ∧ (s.updErrf k f).reqTabs = s.reqTabs ∧ (s.updErrf k f).stks = s.stks ∧ (s.updErrf k f).sensors = s.sensors ∧
    (s.updErrf k f).coolant = s.coolant ∧ (s.updErrf k f).parts = s.parts ∧ (s.updErrf k f).rings = s.rings ∧ (s.updErrf k f).funcs = s.funcs ∧
    (s.updErrf k f).lndErr = s.lndErr ∧ (s.updErrf k f).cfg = s.cfg ∧ (s.updErrf k f).xngs = s.xngs ∧ (s.updErrf k f).eps = s.eps ∧
    (s.updErrf k f).groups = s.groups ∧ (s.updErrf k f).coll = s.coll ∧ (s.updErrf k f).cores = s.cores ∧ (s.updErrf k f).caches = s.caches ∧
    (s.updErrf k f).media = s.media ∧ (s.updErrf k f).sec = s.sec ∧ (s.updErrf k f).boot = s.boot ∧ (s.updErrf k f).store = s.store ∧
    (s.updErrf k f).faults = s.faults ∧ (s.updErrf k f).dbg = s.dbg ∧ (s.updErrf k f).cnts = s.cnts ∧ (s.updErrf k f).toll = s.toll ∧
    (s.updErrf k f).wire = s.wire ∧ (s.updErrf k f).pending = s.pending := by
  simp [State.updErrf]

@[simp] theorem State.updErrf_others (k : Nat) (f : ErrFifo → ErrFifo) (j : Nat) :
    (s.updErrf k f).chan j = s.chan j ∧ (s.updErrf k f).plot j = s.plot j ∧ (s.updErrf k f).slc j = s.slc j ∧
    (s.updErrf k f).nor j = s.nor j ∧ (s.updErrf k f).link j = s.link j ∧ (s.updErrf k f).stk j = s.stk j ∧
    (s.updErrf k f).sensor j = s.sensor j ∧ (s.updErrf k f).part j = s.part j ∧ (s.updErrf k f).ring j = s.ring j ∧
    (s.updErrf k f).func j = s.func j ∧ (s.updErrf k f).xng j = s.xng j ∧ (s.updErrf k f).ep j = s.ep j ∧
    (s.updErrf k f).grp j = s.grp j ∧ (s.updErrf k f).core j = s.core j ∧ (s.updErrf k f).med j = s.med j ∧
    (s.updErrf k f).cnt j = s.cnt j ∧ (s.updErrf k f).reqTab j = s.reqTab j ∧ (s.updErrf k f).reg j = s.reg j := by
  refine ⟨rfl, rfl, rfl, rfl, rfl, rfl, rfl, rfl, rfl, rfl, rfl, rfl, rfl, rfl, rfl, rfl, rfl, rfl⟩

@[simp] theorem State.xng_setXng_same (k : Nat) (x : Xng) : (s.setXng k x).xng k = x := by simp [State.xng, State.setXng]

theorem State.xng_setXng_ne {k j : Nat} (x : Xng) (h : j ≠ k) : (s.setXng k x).xng j = s.xng j := 
  tget_tput_ne' _ _ _ x h

theorem State.xng_setXng (k j : Nat) (x : Xng) : (s.setXng k x).xng j = if j = k then x else s.xng j := by
  split
  · subst_vars; simp
  · exact State.xng_setXng_ne s x ‹_›

@[simp] theorem State.setXng_frame (k : Nat) (x : Xng) :
    (s.setXng k x).tb = s.tb ∧ (s.setXng k x).freeCtr = s.freeCtr ∧ (s.setXng k x).reply = s.reply ∧ (s.setXng k x).clocksOff = s.clocksOff ∧
    (s.setXng k x).pins = s.pins ∧ (s.setXng k x).fuses = s.fuses ∧ (s.setXng k x).regs = s.regs ∧ (s.setXng k x).caps = s.caps ∧
    (s.setXng k x).plots = s.plots ∧ (s.setXng k x).chans = s.chans ∧ (s.setXng k x).slices = s.slices ∧ (s.setXng k x).norias = s.norias ∧
    (s.setXng k x).dram = s.dram ∧ (s.setXng k x).chk = s.chk ∧ (s.setXng k x).net = s.net ∧ (s.setXng k x).rr = s.rr ∧
    (s.setXng k x).links = s.links ∧ (s.setXng k x).reqTabs = s.reqTabs ∧ (s.setXng k x).stks = s.stks ∧ (s.setXng k x).sensors = s.sensors ∧
    (s.setXng k x).coolant = s.coolant ∧ (s.setXng k x).parts = s.parts ∧ (s.setXng k x).rings = s.rings ∧ (s.setXng k x).funcs = s.funcs ∧
    (s.setXng k x).lndErr = s.lndErr ∧ (s.setXng k x).cfg = s.cfg ∧ (s.setXng k x).errs = s.errs ∧ (s.setXng k x).eps = s.eps ∧
    (s.setXng k x).groups = s.groups ∧ (s.setXng k x).coll = s.coll ∧ (s.setXng k x).cores = s.cores ∧ (s.setXng k x).caches = s.caches ∧
    (s.setXng k x).media = s.media ∧ (s.setXng k x).sec = s.sec ∧ (s.setXng k x).boot = s.boot ∧ (s.setXng k x).store = s.store ∧
    (s.setXng k x).faults = s.faults ∧ (s.setXng k x).dbg = s.dbg ∧ (s.setXng k x).cnts = s.cnts ∧ (s.setXng k x).toll = s.toll ∧
    (s.setXng k x).wire = s.wire ∧ (s.setXng k x).pending = s.pending := by
  simp [State.setXng]

@[simp] theorem State.setXng_fld (k : Nat) (x : Xng) (j lo w : Nat) : (s.setXng k x).fld j lo w = s.fld j lo w := rfl

@[simp] theorem State.setXng_bit (k : Nat) (x : Xng) (j i : Nat) : (s.setXng k x).bit j i = s.bit j i := rfl

@[simp] theorem State.updXng_fld (k : Nat) (f : Xng → Xng) (j lo w : Nat) : (s.updXng k f).fld j lo w = s.fld j lo w := rfl

@[simp] theorem State.updXng_bit (k : Nat) (f : Xng → Xng) (j i : Nat) : (s.updXng k f).bit j i = s.bit j i := rfl

@[simp] theorem State.setXng_others (k : Nat) (x : Xng) (j : Nat) :
    (s.setXng k x).chan j = s.chan j ∧ (s.setXng k x).plot j = s.plot j ∧ (s.setXng k x).slc j = s.slc j ∧
    (s.setXng k x).nor j = s.nor j ∧ (s.setXng k x).link j = s.link j ∧ (s.setXng k x).stk j = s.stk j ∧
    (s.setXng k x).sensor j = s.sensor j ∧ (s.setXng k x).part j = s.part j ∧ (s.setXng k x).ring j = s.ring j ∧
    (s.setXng k x).func j = s.func j ∧ (s.setXng k x).errf j = s.errf j ∧ (s.setXng k x).ep j = s.ep j ∧
    (s.setXng k x).grp j = s.grp j ∧ (s.setXng k x).core j = s.core j ∧ (s.setXng k x).med j = s.med j ∧
    (s.setXng k x).cnt j = s.cnt j ∧ (s.setXng k x).reqTab j = s.reqTab j ∧ (s.setXng k x).reg j = s.reg j := by
  refine ⟨rfl, rfl, rfl, rfl, rfl, rfl, rfl, rfl, rfl, rfl, rfl, rfl, rfl, rfl, rfl, rfl, rfl, rfl⟩

theorem State.updXng_eq (k : Nat) (f : Xng → Xng) : s.updXng k f = s.setXng k (f (s.xng k)) := rfl

@[simp] theorem State.xng_updXng_same (k : Nat) (f : Xng → Xng) : (s.updXng k f).xng k = f (s.xng k) := by
  simp [State.updXng]

theorem State.xng_updXng (k j : Nat) (f : Xng → Xng) :
    (s.updXng k f).xng j = if j = k then f (s.xng k) else s.xng j := State.xng_setXng s k j _

@[simp] theorem State.updXng_frame (k : Nat) (f : Xng → Xng) :
    (s.updXng k f).tb = s.tb ∧ (s.updXng k f).freeCtr = s.freeCtr ∧ (s.updXng k f).reply = s.reply ∧ (s.updXng k f).clocksOff = s.clocksOff ∧
    (s.updXng k f).pins = s.pins ∧ (s.updXng k f).fuses = s.fuses ∧ (s.updXng k f).regs = s.regs ∧ (s.updXng k f).caps = s.caps ∧
    (s.updXng k f).plots = s.plots ∧ (s.updXng k f).chans = s.chans ∧ (s.updXng k f).slices = s.slices ∧ (s.updXng k f).norias = s.norias ∧
    (s.updXng k f).dram = s.dram ∧ (s.updXng k f).chk = s.chk ∧ (s.updXng k f).net = s.net ∧ (s.updXng k f).rr = s.rr ∧
    (s.updXng k f).links = s.links ∧ (s.updXng k f).reqTabs = s.reqTabs ∧ (s.updXng k f).stks = s.stks ∧ (s.updXng k f).sensors = s.sensors ∧
    (s.updXng k f).coolant = s.coolant ∧ (s.updXng k f).parts = s.parts ∧ (s.updXng k f).rings = s.rings ∧ (s.updXng k f).funcs = s.funcs ∧
    (s.updXng k f).lndErr = s.lndErr ∧ (s.updXng k f).cfg = s.cfg ∧ (s.updXng k f).errs = s.errs ∧ (s.updXng k f).eps = s.eps ∧
    (s.updXng k f).groups = s.groups ∧ (s.updXng k f).coll = s.coll ∧ (s.updXng k f).cores = s.cores ∧ (s.updXng k f).caches = s.caches ∧
    (s.updXng k f).media = s.media ∧ (s.updXng k f).sec = s.sec ∧ (s.updXng k f).boot = s.boot ∧ (s.updXng k f).store = s.store ∧
    (s.updXng k f).faults = s.faults ∧ (s.updXng k f).dbg = s.dbg ∧ (s.updXng k f).cnts = s.cnts ∧ (s.updXng k f).toll = s.toll ∧
    (s.updXng k f).wire = s.wire ∧ (s.updXng k f).pending = s.pending := by
  simp [State.updXng]

@[simp] theorem State.updXng_others (k : Nat) (f : Xng → Xng) (j : Nat) :
    (s.updXng k f).chan j = s.chan j ∧ (s.updXng k f).plot j = s.plot j ∧ (s.updXng k f).slc j = s.slc j ∧
    (s.updXng k f).nor j = s.nor j ∧ (s.updXng k f).link j = s.link j ∧ (s.updXng k f).stk j = s.stk j ∧
    (s.updXng k f).sensor j = s.sensor j ∧ (s.updXng k f).part j = s.part j ∧ (s.updXng k f).ring j = s.ring j ∧
    (s.updXng k f).func j = s.func j ∧ (s.updXng k f).errf j = s.errf j ∧ (s.updXng k f).ep j = s.ep j ∧
    (s.updXng k f).grp j = s.grp j ∧ (s.updXng k f).core j = s.core j ∧ (s.updXng k f).med j = s.med j ∧
    (s.updXng k f).cnt j = s.cnt j ∧ (s.updXng k f).reqTab j = s.reqTab j ∧ (s.updXng k f).reg j = s.reg j := by
  refine ⟨rfl, rfl, rfl, rfl, rfl, rfl, rfl, rfl, rfl, rfl, rfl, rfl, rfl, rfl, rfl, rfl, rfl, rfl⟩

@[simp] theorem State.ep_setEp_same (k : Nat) (x : Endpoint) : (s.setEp k x).ep k = x := by simp [State.ep, State.setEp]

theorem State.ep_setEp_ne {k j : Nat} (x : Endpoint) (h : j ≠ k) : (s.setEp k x).ep j = s.ep j := 
  tget_tput_ne' _ _ _ x h

theorem State.ep_setEp (k j : Nat) (x : Endpoint) : (s.setEp k x).ep j = if j = k then x else s.ep j := by
  split
  · subst_vars; simp
  · exact State.ep_setEp_ne s x ‹_›

@[simp] theorem State.setEp_frame (k : Nat) (x : Endpoint) :
    (s.setEp k x).tb = s.tb ∧ (s.setEp k x).freeCtr = s.freeCtr ∧ (s.setEp k x).reply = s.reply ∧ (s.setEp k x).clocksOff = s.clocksOff ∧
    (s.setEp k x).pins = s.pins ∧ (s.setEp k x).fuses = s.fuses ∧ (s.setEp k x).regs = s.regs ∧ (s.setEp k x).caps = s.caps ∧
    (s.setEp k x).plots = s.plots ∧ (s.setEp k x).chans = s.chans ∧ (s.setEp k x).slices = s.slices ∧ (s.setEp k x).norias = s.norias ∧
    (s.setEp k x).dram = s.dram ∧ (s.setEp k x).chk = s.chk ∧ (s.setEp k x).net = s.net ∧ (s.setEp k x).rr = s.rr ∧
    (s.setEp k x).links = s.links ∧ (s.setEp k x).reqTabs = s.reqTabs ∧ (s.setEp k x).stks = s.stks ∧ (s.setEp k x).sensors = s.sensors ∧
    (s.setEp k x).coolant = s.coolant ∧ (s.setEp k x).parts = s.parts ∧ (s.setEp k x).rings = s.rings ∧ (s.setEp k x).funcs = s.funcs ∧
    (s.setEp k x).lndErr = s.lndErr ∧ (s.setEp k x).cfg = s.cfg ∧ (s.setEp k x).errs = s.errs ∧ (s.setEp k x).xngs = s.xngs ∧
    (s.setEp k x).groups = s.groups ∧ (s.setEp k x).coll = s.coll ∧ (s.setEp k x).cores = s.cores ∧ (s.setEp k x).caches = s.caches ∧
    (s.setEp k x).media = s.media ∧ (s.setEp k x).sec = s.sec ∧ (s.setEp k x).boot = s.boot ∧ (s.setEp k x).store = s.store ∧
    (s.setEp k x).faults = s.faults ∧ (s.setEp k x).dbg = s.dbg ∧ (s.setEp k x).cnts = s.cnts ∧ (s.setEp k x).toll = s.toll ∧
    (s.setEp k x).wire = s.wire ∧ (s.setEp k x).pending = s.pending := by
  simp [State.setEp]

@[simp] theorem State.setEp_fld (k : Nat) (x : Endpoint) (j lo w : Nat) : (s.setEp k x).fld j lo w = s.fld j lo w := rfl

@[simp] theorem State.setEp_bit (k : Nat) (x : Endpoint) (j i : Nat) : (s.setEp k x).bit j i = s.bit j i := rfl

@[simp] theorem State.updEp_fld (k : Nat) (f : Endpoint → Endpoint) (j lo w : Nat) : (s.updEp k f).fld j lo w = s.fld j lo w := rfl

@[simp] theorem State.updEp_bit (k : Nat) (f : Endpoint → Endpoint) (j i : Nat) : (s.updEp k f).bit j i = s.bit j i := rfl

@[simp] theorem State.setEp_others (k : Nat) (x : Endpoint) (j : Nat) :
    (s.setEp k x).chan j = s.chan j ∧ (s.setEp k x).plot j = s.plot j ∧ (s.setEp k x).slc j = s.slc j ∧
    (s.setEp k x).nor j = s.nor j ∧ (s.setEp k x).link j = s.link j ∧ (s.setEp k x).stk j = s.stk j ∧
    (s.setEp k x).sensor j = s.sensor j ∧ (s.setEp k x).part j = s.part j ∧ (s.setEp k x).ring j = s.ring j ∧
    (s.setEp k x).func j = s.func j ∧ (s.setEp k x).errf j = s.errf j ∧ (s.setEp k x).xng j = s.xng j ∧
    (s.setEp k x).grp j = s.grp j ∧ (s.setEp k x).core j = s.core j ∧ (s.setEp k x).med j = s.med j ∧
    (s.setEp k x).cnt j = s.cnt j ∧ (s.setEp k x).reqTab j = s.reqTab j ∧ (s.setEp k x).reg j = s.reg j := by
  refine ⟨rfl, rfl, rfl, rfl, rfl, rfl, rfl, rfl, rfl, rfl, rfl, rfl, rfl, rfl, rfl, rfl, rfl, rfl⟩

theorem State.updEp_eq (k : Nat) (f : Endpoint → Endpoint) : s.updEp k f = s.setEp k (f (s.ep k)) := rfl

@[simp] theorem State.ep_updEp_same (k : Nat) (f : Endpoint → Endpoint) : (s.updEp k f).ep k = f (s.ep k) := by
  simp [State.updEp]

theorem State.ep_updEp (k j : Nat) (f : Endpoint → Endpoint) :
    (s.updEp k f).ep j = if j = k then f (s.ep k) else s.ep j := State.ep_setEp s k j _

@[simp] theorem State.updEp_frame (k : Nat) (f : Endpoint → Endpoint) :
    (s.updEp k f).tb = s.tb ∧ (s.updEp k f).freeCtr = s.freeCtr ∧ (s.updEp k f).reply = s.reply ∧ (s.updEp k f).clocksOff = s.clocksOff ∧
    (s.updEp k f).pins = s.pins ∧ (s.updEp k f).fuses = s.fuses ∧ (s.updEp k f).regs = s.regs ∧ (s.updEp k f).caps = s.caps ∧
    (s.updEp k f).plots = s.plots ∧ (s.updEp k f).chans = s.chans ∧ (s.updEp k f).slices = s.slices ∧ (s.updEp k f).norias = s.norias ∧
    (s.updEp k f).dram = s.dram ∧ (s.updEp k f).chk = s.chk ∧ (s.updEp k f).net = s.net ∧ (s.updEp k f).rr = s.rr ∧
    (s.updEp k f).links = s.links ∧ (s.updEp k f).reqTabs = s.reqTabs ∧ (s.updEp k f).stks = s.stks ∧ (s.updEp k f).sensors = s.sensors ∧
    (s.updEp k f).coolant = s.coolant ∧ (s.updEp k f).parts = s.parts ∧ (s.updEp k f).rings = s.rings ∧ (s.updEp k f).funcs = s.funcs ∧
    (s.updEp k f).lndErr = s.lndErr ∧ (s.updEp k f).cfg = s.cfg ∧ (s.updEp k f).errs = s.errs ∧ (s.updEp k f).xngs = s.xngs ∧
    (s.updEp k f).groups = s.groups ∧ (s.updEp k f).coll = s.coll ∧ (s.updEp k f).cores = s.cores ∧ (s.updEp k f).caches = s.caches ∧
    (s.updEp k f).media = s.media ∧ (s.updEp k f).sec = s.sec ∧ (s.updEp k f).boot = s.boot ∧ (s.updEp k f).store = s.store ∧
    (s.updEp k f).faults = s.faults ∧ (s.updEp k f).dbg = s.dbg ∧ (s.updEp k f).cnts = s.cnts ∧ (s.updEp k f).toll = s.toll ∧
    (s.updEp k f).wire = s.wire ∧ (s.updEp k f).pending = s.pending := by
  simp [State.updEp]

@[simp] theorem State.updEp_others (k : Nat) (f : Endpoint → Endpoint) (j : Nat) :
    (s.updEp k f).chan j = s.chan j ∧ (s.updEp k f).plot j = s.plot j ∧ (s.updEp k f).slc j = s.slc j ∧
    (s.updEp k f).nor j = s.nor j ∧ (s.updEp k f).link j = s.link j ∧ (s.updEp k f).stk j = s.stk j ∧
    (s.updEp k f).sensor j = s.sensor j ∧ (s.updEp k f).part j = s.part j ∧ (s.updEp k f).ring j = s.ring j ∧
    (s.updEp k f).func j = s.func j ∧ (s.updEp k f).errf j = s.errf j ∧ (s.updEp k f).xng j = s.xng j ∧
    (s.updEp k f).grp j = s.grp j ∧ (s.updEp k f).core j = s.core j ∧ (s.updEp k f).med j = s.med j ∧
    (s.updEp k f).cnt j = s.cnt j ∧ (s.updEp k f).reqTab j = s.reqTab j ∧ (s.updEp k f).reg j = s.reg j := by
  refine ⟨rfl, rfl, rfl, rfl, rfl, rfl, rfl, rfl, rfl, rfl, rfl, rfl, rfl, rfl, rfl, rfl, rfl, rfl⟩

@[simp] theorem State.grp_setGrp_same (k : Nat) (x : Group) : (s.setGrp k x).grp k = x := by simp [State.grp, State.setGrp]

theorem State.grp_setGrp_ne {k j : Nat} (x : Group) (h : j ≠ k) : (s.setGrp k x).grp j = s.grp j := 
  tget_tput_ne' _ _ _ x h

theorem State.grp_setGrp (k j : Nat) (x : Group) : (s.setGrp k x).grp j = if j = k then x else s.grp j := by
  split
  · subst_vars; simp
  · exact State.grp_setGrp_ne s x ‹_›

@[simp] theorem State.setGrp_frame (k : Nat) (x : Group) :
    (s.setGrp k x).tb = s.tb ∧ (s.setGrp k x).freeCtr = s.freeCtr ∧ (s.setGrp k x).reply = s.reply ∧ (s.setGrp k x).clocksOff = s.clocksOff ∧
    (s.setGrp k x).pins = s.pins ∧ (s.setGrp k x).fuses = s.fuses ∧ (s.setGrp k x).regs = s.regs ∧ (s.setGrp k x).caps = s.caps ∧
    (s.setGrp k x).plots = s.plots ∧ (s.setGrp k x).chans = s.chans ∧ (s.setGrp k x).slices = s.slices ∧ (s.setGrp k x).norias = s.norias ∧
    (s.setGrp k x).dram = s.dram ∧ (s.setGrp k x).chk = s.chk ∧ (s.setGrp k x).net = s.net ∧ (s.setGrp k x).rr = s.rr ∧
    (s.setGrp k x).links = s.links ∧ (s.setGrp k x).reqTabs = s.reqTabs ∧ (s.setGrp k x).stks = s.stks ∧ (s.setGrp k x).sensors = s.sensors ∧
    (s.setGrp k x).coolant = s.coolant ∧ (s.setGrp k x).parts = s.parts ∧ (s.setGrp k x).rings = s.rings ∧ (s.setGrp k x).funcs = s.funcs ∧
    (s.setGrp k x).lndErr = s.lndErr ∧ (s.setGrp k x).cfg = s.cfg ∧ (s.setGrp k x).errs = s.errs ∧ (s.setGrp k x).xngs = s.xngs ∧
    (s.setGrp k x).eps = s.eps ∧ (s.setGrp k x).coll = s.coll ∧ (s.setGrp k x).cores = s.cores ∧ (s.setGrp k x).caches = s.caches ∧
    (s.setGrp k x).media = s.media ∧ (s.setGrp k x).sec = s.sec ∧ (s.setGrp k x).boot = s.boot ∧ (s.setGrp k x).store = s.store ∧
    (s.setGrp k x).faults = s.faults ∧ (s.setGrp k x).dbg = s.dbg ∧ (s.setGrp k x).cnts = s.cnts ∧ (s.setGrp k x).toll = s.toll ∧
    (s.setGrp k x).wire = s.wire ∧ (s.setGrp k x).pending = s.pending := by
  simp [State.setGrp]

@[simp] theorem State.setGrp_fld (k : Nat) (x : Group) (j lo w : Nat) : (s.setGrp k x).fld j lo w = s.fld j lo w := rfl

@[simp] theorem State.setGrp_bit (k : Nat) (x : Group) (j i : Nat) : (s.setGrp k x).bit j i = s.bit j i := rfl

@[simp] theorem State.updGrp_fld (k : Nat) (f : Group → Group) (j lo w : Nat) : (s.updGrp k f).fld j lo w = s.fld j lo w := rfl

@[simp] theorem State.updGrp_bit (k : Nat) (f : Group → Group) (j i : Nat) : (s.updGrp k f).bit j i = s.bit j i := rfl

@[simp] theorem State.setGrp_others (k : Nat) (x : Group) (j : Nat) :
    (s.setGrp k x).chan j = s.chan j ∧ (s.setGrp k x).plot j = s.plot j ∧ (s.setGrp k x).slc j = s.slc j ∧
    (s.setGrp k x).nor j = s.nor j ∧ (s.setGrp k x).link j = s.link j ∧ (s.setGrp k x).stk j = s.stk j ∧
    (s.setGrp k x).sensor j = s.sensor j ∧ (s.setGrp k x).part j = s.part j ∧ (s.setGrp k x).ring j = s.ring j ∧
    (s.setGrp k x).func j = s.func j ∧ (s.setGrp k x).errf j = s.errf j ∧ (s.setGrp k x).xng j = s.xng j ∧
    (s.setGrp k x).ep j = s.ep j ∧ (s.setGrp k x).core j = s.core j ∧ (s.setGrp k x).med j = s.med j ∧
    (s.setGrp k x).cnt j = s.cnt j ∧ (s.setGrp k x).reqTab j = s.reqTab j ∧ (s.setGrp k x).reg j = s.reg j := by
  refine ⟨rfl, rfl, rfl, rfl, rfl, rfl, rfl, rfl, rfl, rfl, rfl, rfl, rfl, rfl, rfl, rfl, rfl, rfl⟩

theorem State.updGrp_eq (k : Nat) (f : Group → Group) : s.updGrp k f = s.setGrp k (f (s.grp k)) := rfl

@[simp] theorem State.grp_updGrp_same (k : Nat) (f : Group → Group) : (s.updGrp k f).grp k = f (s.grp k) := by
  simp [State.updGrp]

theorem State.grp_updGrp (k j : Nat) (f : Group → Group) :
    (s.updGrp k f).grp j = if j = k then f (s.grp k) else s.grp j := State.grp_setGrp s k j _

@[simp] theorem State.updGrp_frame (k : Nat) (f : Group → Group) :
    (s.updGrp k f).tb = s.tb ∧ (s.updGrp k f).freeCtr = s.freeCtr ∧ (s.updGrp k f).reply = s.reply ∧ (s.updGrp k f).clocksOff = s.clocksOff ∧
    (s.updGrp k f).pins = s.pins ∧ (s.updGrp k f).fuses = s.fuses ∧ (s.updGrp k f).regs = s.regs ∧ (s.updGrp k f).caps = s.caps ∧
    (s.updGrp k f).plots = s.plots ∧ (s.updGrp k f).chans = s.chans ∧ (s.updGrp k f).slices = s.slices ∧ (s.updGrp k f).norias = s.norias ∧
    (s.updGrp k f).dram = s.dram ∧ (s.updGrp k f).chk = s.chk ∧ (s.updGrp k f).net = s.net ∧ (s.updGrp k f).rr = s.rr ∧
    (s.updGrp k f).links = s.links ∧ (s.updGrp k f).reqTabs = s.reqTabs ∧ (s.updGrp k f).stks = s.stks ∧ (s.updGrp k f).sensors = s.sensors ∧
    (s.updGrp k f).coolant = s.coolant ∧ (s.updGrp k f).parts = s.parts ∧ (s.updGrp k f).rings = s.rings ∧ (s.updGrp k f).funcs = s.funcs ∧
    (s.updGrp k f).lndErr = s.lndErr ∧ (s.updGrp k f).cfg = s.cfg ∧ (s.updGrp k f).errs = s.errs ∧ (s.updGrp k f).xngs = s.xngs ∧
    (s.updGrp k f).eps = s.eps ∧ (s.updGrp k f).coll = s.coll ∧ (s.updGrp k f).cores = s.cores ∧ (s.updGrp k f).caches = s.caches ∧
    (s.updGrp k f).media = s.media ∧ (s.updGrp k f).sec = s.sec ∧ (s.updGrp k f).boot = s.boot ∧ (s.updGrp k f).store = s.store ∧
    (s.updGrp k f).faults = s.faults ∧ (s.updGrp k f).dbg = s.dbg ∧ (s.updGrp k f).cnts = s.cnts ∧ (s.updGrp k f).toll = s.toll ∧
    (s.updGrp k f).wire = s.wire ∧ (s.updGrp k f).pending = s.pending := by
  simp [State.updGrp]

@[simp] theorem State.updGrp_others (k : Nat) (f : Group → Group) (j : Nat) :
    (s.updGrp k f).chan j = s.chan j ∧ (s.updGrp k f).plot j = s.plot j ∧ (s.updGrp k f).slc j = s.slc j ∧
    (s.updGrp k f).nor j = s.nor j ∧ (s.updGrp k f).link j = s.link j ∧ (s.updGrp k f).stk j = s.stk j ∧
    (s.updGrp k f).sensor j = s.sensor j ∧ (s.updGrp k f).part j = s.part j ∧ (s.updGrp k f).ring j = s.ring j ∧
    (s.updGrp k f).func j = s.func j ∧ (s.updGrp k f).errf j = s.errf j ∧ (s.updGrp k f).xng j = s.xng j ∧
    (s.updGrp k f).ep j = s.ep j ∧ (s.updGrp k f).core j = s.core j ∧ (s.updGrp k f).med j = s.med j ∧
    (s.updGrp k f).cnt j = s.cnt j ∧ (s.updGrp k f).reqTab j = s.reqTab j ∧ (s.updGrp k f).reg j = s.reg j := by
  refine ⟨rfl, rfl, rfl, rfl, rfl, rfl, rfl, rfl, rfl, rfl, rfl, rfl, rfl, rfl, rfl, rfl, rfl, rfl⟩

@[simp] theorem State.core_setCore_same (k : Nat) (x : HCore) : (s.setCore k x).core k = x := by simp [State.core, State.setCore]

theorem State.core_setCore_ne {k j : Nat} (x : HCore) (h : j ≠ k) : (s.setCore k x).core j = s.core j := 
  tget_tput_ne' _ _ _ x h

theorem State.core_setCore (k j : Nat) (x : HCore) : (s.setCore k x).core j = if j = k then x else s.core j := by
  split
  · subst_vars; simp
  · exact State.core_setCore_ne s x ‹_›

@[simp] theorem State.setCore_frame (k : Nat) (x : HCore) :
    (s.setCore k x).tb = s.tb ∧ (s.setCore k x).freeCtr = s.freeCtr ∧ (s.setCore k x).reply = s.reply ∧ (s.setCore k x).clocksOff = s.clocksOff ∧
    (s.setCore k x).pins = s.pins ∧ (s.setCore k x).fuses = s.fuses ∧ (s.setCore k x).regs = s.regs ∧ (s.setCore k x).caps = s.caps ∧
    (s.setCore k x).plots = s.plots ∧ (s.setCore k x).chans = s.chans ∧ (s.setCore k x).slices = s.slices ∧ (s.setCore k x).norias = s.norias ∧
    (s.setCore k x).dram = s.dram ∧ (s.setCore k x).chk = s.chk ∧ (s.setCore k x).net = s.net ∧ (s.setCore k x).rr = s.rr ∧
    (s.setCore k x).links = s.links ∧ (s.setCore k x).reqTabs = s.reqTabs ∧ (s.setCore k x).stks = s.stks ∧ (s.setCore k x).sensors = s.sensors ∧
    (s.setCore k x).coolant = s.coolant ∧ (s.setCore k x).parts = s.parts ∧ (s.setCore k x).rings = s.rings ∧ (s.setCore k x).funcs = s.funcs ∧
    (s.setCore k x).lndErr = s.lndErr ∧ (s.setCore k x).cfg = s.cfg ∧ (s.setCore k x).errs = s.errs ∧ (s.setCore k x).xngs = s.xngs ∧
    (s.setCore k x).eps = s.eps ∧ (s.setCore k x).groups = s.groups ∧ (s.setCore k x).coll = s.coll ∧ (s.setCore k x).caches = s.caches ∧
    (s.setCore k x).media = s.media ∧ (s.setCore k x).sec = s.sec ∧ (s.setCore k x).boot = s.boot ∧ (s.setCore k x).store = s.store ∧
    (s.setCore k x).faults = s.faults ∧ (s.setCore k x).dbg = s.dbg ∧ (s.setCore k x).cnts = s.cnts ∧ (s.setCore k x).toll = s.toll ∧
    (s.setCore k x).wire = s.wire ∧ (s.setCore k x).pending = s.pending := by
  simp [State.setCore]

@[simp] theorem State.setCore_fld (k : Nat) (x : HCore) (j lo w : Nat) : (s.setCore k x).fld j lo w = s.fld j lo w := rfl

@[simp] theorem State.setCore_bit (k : Nat) (x : HCore) (j i : Nat) : (s.setCore k x).bit j i = s.bit j i := rfl

@[simp] theorem State.updCore_fld (k : Nat) (f : HCore → HCore) (j lo w : Nat) : (s.updCore k f).fld j lo w = s.fld j lo w := rfl

@[simp] theorem State.updCore_bit (k : Nat) (f : HCore → HCore) (j i : Nat) : (s.updCore k f).bit j i = s.bit j i := rfl

@[simp] theorem State.setCore_others (k : Nat) (x : HCore) (j : Nat) :
    (s.setCore k x).chan j = s.chan j ∧ (s.setCore k x).plot j = s.plot j ∧ (s.setCore k x).slc j = s.slc j ∧
    (s.setCore k x).nor j = s.nor j ∧ (s.setCore k x).link j = s.link j ∧ (s.setCore k x).stk j = s.stk j ∧
    (s.setCore k x).sensor j = s.sensor j ∧ (s.setCore k x).part j = s.part j ∧ (s.setCore k x).ring j = s.ring j ∧
    (s.setCore k x).func j = s.func j ∧ (s.setCore k x).errf j = s.errf j ∧ (s.setCore k x).xng j = s.xng j ∧
    (s.setCore k x).ep j = s.ep j ∧ (s.setCore k x).grp j = s.grp j ∧ (s.setCore k x).med j = s.med j ∧
    (s.setCore k x).cnt j = s.cnt j ∧ (s.setCore k x).reqTab j = s.reqTab j ∧ (s.setCore k x).reg j = s.reg j := by
  refine ⟨rfl, rfl, rfl, rfl, rfl, rfl, rfl, rfl, rfl, rfl, rfl, rfl, rfl, rfl, rfl, rfl, rfl, rfl⟩

theorem State.updCore_eq (k : Nat) (f : HCore → HCore) : s.updCore k f = s.setCore k (f (s.core k)) := rfl

@[simp] theorem State.core_updCore_same (k : Nat) (f : HCore → HCore) : (s.updCore k f).core k = f (s.core k) := by
  simp [State.updCore]

theorem State.core_updCore (k j : Nat) (f : HCore → HCore) :
    (s.updCore k f).core j = if j = k then f (s.core k) else s.core j := State.core_setCore s k j _

@[simp] theorem State.updCore_frame (k : Nat) (f : HCore → HCore) :
    (s.updCore k f).tb = s.tb ∧ (s.updCore k f).freeCtr = s.freeCtr ∧ (s.updCore k f).reply = s.reply ∧ (s.updCore k f).clocksOff = s.clocksOff ∧
    (s.updCore k f).pins = s.pins ∧ (s.updCore k f).fuses = s.fuses ∧ (s.updCore k f).regs = s.regs ∧ (s.updCore k f).caps = s.caps ∧
    (s.updCore k f).plots = s.plots ∧ (s.updCore k f).chans = s.chans ∧ (s.updCore k f).slices = s.slices ∧ (s.updCore k f).norias = s.norias ∧
    (s.updCore k f).dram = s.dram ∧ (s.updCore k f).chk = s.chk ∧ (s.updCore k f).net = s.net ∧ (s.updCore k f).rr = s.rr ∧
    (s.updCore k f).links = s.links ∧ (s.updCore k f).reqTabs = s.reqTabs ∧ (s.updCore k f).stks = s.stks ∧ (s.updCore k f).sensors = s.sensors ∧
    (s.updCore k f).coolant = s.coolant ∧ (s.updCore k f).parts = s.parts ∧ (s.updCore k f).rings = s.rings ∧ (s.updCore k f).funcs = s.funcs ∧
    (s.updCore k f).lndErr = s.lndErr ∧ (s.updCore k f).cfg = s.cfg ∧ (s.updCore k f).errs = s.errs ∧ (s.updCore k f).xngs = s.xngs ∧
    (s.updCore k f).eps = s.eps ∧ (s.updCore k f).groups = s.groups ∧ (s.updCore k f).coll = s.coll ∧ (s.updCore k f).caches = s.caches ∧
    (s.updCore k f).media = s.media ∧ (s.updCore k f).sec = s.sec ∧ (s.updCore k f).boot = s.boot ∧ (s.updCore k f).store = s.store ∧
    (s.updCore k f).faults = s.faults ∧ (s.updCore k f).dbg = s.dbg ∧ (s.updCore k f).cnts = s.cnts ∧ (s.updCore k f).toll = s.toll ∧
    (s.updCore k f).wire = s.wire ∧ (s.updCore k f).pending = s.pending := by
  simp [State.updCore]

@[simp] theorem State.updCore_others (k : Nat) (f : HCore → HCore) (j : Nat) :
    (s.updCore k f).chan j = s.chan j ∧ (s.updCore k f).plot j = s.plot j ∧ (s.updCore k f).slc j = s.slc j ∧
    (s.updCore k f).nor j = s.nor j ∧ (s.updCore k f).link j = s.link j ∧ (s.updCore k f).stk j = s.stk j ∧
    (s.updCore k f).sensor j = s.sensor j ∧ (s.updCore k f).part j = s.part j ∧ (s.updCore k f).ring j = s.ring j ∧
    (s.updCore k f).func j = s.func j ∧ (s.updCore k f).errf j = s.errf j ∧ (s.updCore k f).xng j = s.xng j ∧
    (s.updCore k f).ep j = s.ep j ∧ (s.updCore k f).grp j = s.grp j ∧ (s.updCore k f).med j = s.med j ∧
    (s.updCore k f).cnt j = s.cnt j ∧ (s.updCore k f).reqTab j = s.reqTab j ∧ (s.updCore k f).reg j = s.reg j := by
  refine ⟨rfl, rfl, rfl, rfl, rfl, rfl, rfl, rfl, rfl, rfl, rfl, rfl, rfl, rfl, rfl, rfl, rfl, rfl⟩

@[simp] theorem State.med_setMed_same (k : Nat) (x : Media) : (s.setMed k x).med k = x := by simp [State.med, State.setMed]

theorem State.med_setMed_ne {k j : Nat} (x : Media) (h : j ≠ k) : (s.setMed k x).med j = s.med j := 
  tget_tput_ne' _ _ _ x h

theorem State.med_setMed (k j : Nat) (x : Media) : (s.setMed k x).med j = if j = k then x else s.med j := by
  split
  · subst_vars; simp
  · exact State.med_setMed_ne s x ‹_›

@[simp] theorem State.setMed_frame (k : Nat) (x : Media) :
    (s.setMed k x).tb = s.tb ∧ (s.setMed k x).freeCtr = s.freeCtr ∧ (s.setMed k x).reply = s.reply ∧ (s.setMed k x).clocksOff = s.clocksOff ∧
    (s.setMed k x).pins = s.pins ∧ (s.setMed k x).fuses = s.fuses ∧ (s.setMed k x).regs = s.regs ∧ (s.setMed k x).caps = s.caps ∧
    (s.setMed k x).plots = s.plots ∧ (s.setMed k x).chans = s.chans ∧ (s.setMed k x).slices = s.slices ∧ (s.setMed k x).norias = s.norias ∧
    (s.setMed k x).dram = s.dram ∧ (s.setMed k x).chk = s.chk ∧ (s.setMed k x).net = s.net ∧ (s.setMed k x).rr = s.rr ∧
    (s.setMed k x).links = s.links ∧ (s.setMed k x).reqTabs = s.reqTabs ∧ (s.setMed k x).stks = s.stks ∧ (s.setMed k x).sensors = s.sensors ∧
    (s.setMed k x).coolant = s.coolant ∧ (s.setMed k x).parts = s.parts ∧ (s.setMed k x).rings = s.rings ∧ (s.setMed k x).funcs = s.funcs ∧
    (s.setMed k x).lndErr = s.lndErr ∧ (s.setMed k x).cfg = s.cfg ∧ (s.setMed k x).errs = s.errs ∧ (s.setMed k x).xngs = s.xngs ∧
    (s.setMed k x).eps = s.eps ∧ (s.setMed k x).groups = s.groups ∧ (s.setMed k x).coll = s.coll ∧ (s.setMed k x).cores = s.cores ∧
    (s.setMed k x).caches = s.caches ∧ (s.setMed k x).sec = s.sec ∧ (s.setMed k x).boot = s.boot ∧ (s.setMed k x).store = s.store ∧
    (s.setMed k x).faults = s.faults ∧ (s.setMed k x).dbg = s.dbg ∧ (s.setMed k x).cnts = s.cnts ∧ (s.setMed k x).toll = s.toll ∧
    (s.setMed k x).wire = s.wire ∧ (s.setMed k x).pending = s.pending := by
  simp [State.setMed]

@[simp] theorem State.setMed_fld (k : Nat) (x : Media) (j lo w : Nat) : (s.setMed k x).fld j lo w = s.fld j lo w := rfl

@[simp] theorem State.setMed_bit (k : Nat) (x : Media) (j i : Nat) : (s.setMed k x).bit j i = s.bit j i := rfl

@[simp] theorem State.updMed_fld (k : Nat) (f : Media → Media) (j lo w : Nat) : (s.updMed k f).fld j lo w = s.fld j lo w := rfl

@[simp] theorem State.updMed_bit (k : Nat) (f : Media → Media) (j i : Nat) : (s.updMed k f).bit j i = s.bit j i := rfl

@[simp] theorem State.setMed_others (k : Nat) (x : Media) (j : Nat) :
    (s.setMed k x).chan j = s.chan j ∧ (s.setMed k x).plot j = s.plot j ∧ (s.setMed k x).slc j = s.slc j ∧
    (s.setMed k x).nor j = s.nor j ∧ (s.setMed k x).link j = s.link j ∧ (s.setMed k x).stk j = s.stk j ∧
    (s.setMed k x).sensor j = s.sensor j ∧ (s.setMed k x).part j = s.part j ∧ (s.setMed k x).ring j = s.ring j ∧
    (s.setMed k x).func j = s.func j ∧ (s.setMed k x).errf j = s.errf j ∧ (s.setMed k x).xng j = s.xng j ∧
    (s.setMed k x).ep j = s.ep j ∧ (s.setMed k x).grp j = s.grp j ∧ (s.setMed k x).core j = s.core j ∧
    (s.setMed k x).cnt j = s.cnt j ∧ (s.setMed k x).reqTab j = s.reqTab j ∧ (s.setMed k x).reg j = s.reg j := by
  refine ⟨rfl, rfl, rfl, rfl, rfl, rfl, rfl, rfl, rfl, rfl, rfl, rfl, rfl, rfl, rfl, rfl, rfl, rfl⟩

theorem State.updMed_eq (k : Nat) (f : Media → Media) : s.updMed k f = s.setMed k (f (s.med k)) := rfl

@[simp] theorem State.med_updMed_same (k : Nat) (f : Media → Media) : (s.updMed k f).med k = f (s.med k) := by
  simp [State.updMed]

theorem State.med_updMed (k j : Nat) (f : Media → Media) :
    (s.updMed k f).med j = if j = k then f (s.med k) else s.med j := State.med_setMed s k j _

@[simp] theorem State.updMed_frame (k : Nat) (f : Media → Media) :
    (s.updMed k f).tb = s.tb ∧ (s.updMed k f).freeCtr = s.freeCtr ∧ (s.updMed k f).reply = s.reply ∧ (s.updMed k f).clocksOff = s.clocksOff ∧
    (s.updMed k f).pins = s.pins ∧ (s.updMed k f).fuses = s.fuses ∧ (s.updMed k f).regs = s.regs ∧ (s.updMed k f).caps = s.caps ∧
    (s.updMed k f).plots = s.plots ∧ (s.updMed k f).chans = s.chans ∧ (s.updMed k f).slices = s.slices ∧ (s.updMed k f).norias = s.norias ∧
    (s.updMed k f).dram = s.dram ∧ (s.updMed k f).chk = s.chk ∧ (s.updMed k f).net = s.net ∧ (s.updMed k f).rr = s.rr ∧
    (s.updMed k f).links = s.links ∧ (s.updMed k f).reqTabs = s.reqTabs ∧ (s.updMed k f).stks = s.stks ∧ (s.updMed k f).sensors = s.sensors ∧
    (s.updMed k f).coolant = s.coolant ∧ (s.updMed k f).parts = s.parts ∧ (s.updMed k f).rings = s.rings ∧ (s.updMed k f).funcs = s.funcs ∧
    (s.updMed k f).lndErr = s.lndErr ∧ (s.updMed k f).cfg = s.cfg ∧ (s.updMed k f).errs = s.errs ∧ (s.updMed k f).xngs = s.xngs ∧
    (s.updMed k f).eps = s.eps ∧ (s.updMed k f).groups = s.groups ∧ (s.updMed k f).coll = s.coll ∧ (s.updMed k f).cores = s.cores ∧
    (s.updMed k f).caches = s.caches ∧ (s.updMed k f).sec = s.sec ∧ (s.updMed k f).boot = s.boot ∧ (s.updMed k f).store = s.store ∧
    (s.updMed k f).faults = s.faults ∧ (s.updMed k f).dbg = s.dbg ∧ (s.updMed k f).cnts = s.cnts ∧ (s.updMed k f).toll = s.toll ∧
    (s.updMed k f).wire = s.wire ∧ (s.updMed k f).pending = s.pending := by
  simp [State.updMed]

@[simp] theorem State.updMed_others (k : Nat) (f : Media → Media) (j : Nat) :
    (s.updMed k f).chan j = s.chan j ∧ (s.updMed k f).plot j = s.plot j ∧ (s.updMed k f).slc j = s.slc j ∧
    (s.updMed k f).nor j = s.nor j ∧ (s.updMed k f).link j = s.link j ∧ (s.updMed k f).stk j = s.stk j ∧
    (s.updMed k f).sensor j = s.sensor j ∧ (s.updMed k f).part j = s.part j ∧ (s.updMed k f).ring j = s.ring j ∧
    (s.updMed k f).func j = s.func j ∧ (s.updMed k f).errf j = s.errf j ∧ (s.updMed k f).xng j = s.xng j ∧
    (s.updMed k f).ep j = s.ep j ∧ (s.updMed k f).grp j = s.grp j ∧ (s.updMed k f).core j = s.core j ∧
    (s.updMed k f).cnt j = s.cnt j ∧ (s.updMed k f).reqTab j = s.reqTab j ∧ (s.updMed k f).reg j = s.reg j := by
  refine ⟨rfl, rfl, rfl, rfl, rfl, rfl, rfl, rfl, rfl, rfl, rfl, rfl, rfl, rfl, rfl, rfl, rfl, rfl⟩

@[simp] theorem State.cnt_setCnt_same (k : Nat) (x : CntSet) : (s.setCnt k x).cnt k = x := by simp [State.cnt, State.setCnt]

theorem State.cnt_setCnt_ne {k j : Nat} (x : CntSet) (h : j ≠ k) : (s.setCnt k x).cnt j = s.cnt j := 
  tget_tput_ne' _ _ _ x h

theorem State.cnt_setCnt (k j : Nat) (x : CntSet) : (s.setCnt k x).cnt j = if j = k then x else s.cnt j := by
  split
  · subst_vars; simp
  · exact State.cnt_setCnt_ne s x ‹_›

@[simp] theorem State.setCnt_frame (k : Nat) (x : CntSet) :
    (s.setCnt k x).tb = s.tb ∧ (s.setCnt k x).freeCtr = s.freeCtr ∧ (s.setCnt k x).reply = s.reply ∧ (s.setCnt k x).clocksOff = s.clocksOff ∧
    (s.setCnt k x).pins = s.pins ∧ (s.setCnt k x).fuses = s.fuses ∧ (s.setCnt k x).regs = s.regs ∧ (s.setCnt k x).caps = s.caps ∧
    (s.setCnt k x).plots = s.plots ∧ (s.setCnt k x).chans = s.chans ∧ (s.setCnt k x).slices = s.slices ∧ (s.setCnt k x).norias = s.norias ∧
    (s.setCnt k x).dram = s.dram ∧ (s.setCnt k x).chk = s.chk ∧ (s.setCnt k x).net = s.net ∧ (s.setCnt k x).rr = s.rr ∧
    (s.setCnt k x).links = s.links ∧ (s.setCnt k x).reqTabs = s.reqTabs ∧ (s.setCnt k x).stks = s.stks ∧ (s.setCnt k x).sensors = s.sensors ∧
    (s.setCnt k x).coolant = s.coolant ∧ (s.setCnt k x).parts = s.parts ∧ (s.setCnt k x).rings = s.rings ∧ (s.setCnt k x).funcs = s.funcs ∧
    (s.setCnt k x).lndErr = s.lndErr ∧ (s.setCnt k x).cfg = s.cfg ∧ (s.setCnt k x).errs = s.errs ∧ (s.setCnt k x).xngs = s.xngs ∧
    (s.setCnt k x).eps = s.eps ∧ (s.setCnt k x).groups = s.groups ∧ (s.setCnt k x).coll = s.coll ∧ (s.setCnt k x).cores = s.cores ∧
    (s.setCnt k x).caches = s.caches ∧ (s.setCnt k x).media = s.media ∧ (s.setCnt k x).sec = s.sec ∧ (s.setCnt k x).boot = s.boot ∧
    (s.setCnt k x).store = s.store ∧ (s.setCnt k x).faults = s.faults ∧ (s.setCnt k x).dbg = s.dbg ∧ (s.setCnt k x).toll = s.toll ∧
    (s.setCnt k x).wire = s.wire ∧ (s.setCnt k x).pending = s.pending := by
  simp [State.setCnt]

@[simp] theorem State.setCnt_fld (k : Nat) (x : CntSet) (j lo w : Nat) : (s.setCnt k x).fld j lo w = s.fld j lo w := rfl

@[simp] theorem State.setCnt_bit (k : Nat) (x : CntSet) (j i : Nat) : (s.setCnt k x).bit j i = s.bit j i := rfl

@[simp] theorem State.updCnt_fld (k : Nat) (f : CntSet → CntSet) (j lo w : Nat) : (s.updCnt k f).fld j lo w = s.fld j lo w := rfl

@[simp] theorem State.updCnt_bit (k : Nat) (f : CntSet → CntSet) (j i : Nat) : (s.updCnt k f).bit j i = s.bit j i := rfl

@[simp] theorem State.setCnt_others (k : Nat) (x : CntSet) (j : Nat) :
    (s.setCnt k x).chan j = s.chan j ∧ (s.setCnt k x).plot j = s.plot j ∧ (s.setCnt k x).slc j = s.slc j ∧
    (s.setCnt k x).nor j = s.nor j ∧ (s.setCnt k x).link j = s.link j ∧ (s.setCnt k x).stk j = s.stk j ∧
    (s.setCnt k x).sensor j = s.sensor j ∧ (s.setCnt k x).part j = s.part j ∧ (s.setCnt k x).ring j = s.ring j ∧
    (s.setCnt k x).func j = s.func j ∧ (s.setCnt k x).errf j = s.errf j ∧ (s.setCnt k x).xng j = s.xng j ∧
    (s.setCnt k x).ep j = s.ep j ∧ (s.setCnt k x).grp j = s.grp j ∧ (s.setCnt k x).core j = s.core j ∧
    (s.setCnt k x).med j = s.med j ∧ (s.setCnt k x).reqTab j = s.reqTab j ∧ (s.setCnt k x).reg j = s.reg j := by
  refine ⟨rfl, rfl, rfl, rfl, rfl, rfl, rfl, rfl, rfl, rfl, rfl, rfl, rfl, rfl, rfl, rfl, rfl, rfl⟩

theorem State.updCnt_eq (k : Nat) (f : CntSet → CntSet) : s.updCnt k f = s.setCnt k (f (s.cnt k)) := rfl

@[simp] theorem State.cnt_updCnt_same (k : Nat) (f : CntSet → CntSet) : (s.updCnt k f).cnt k = f (s.cnt k) := by
  simp [State.updCnt]

theorem State.cnt_updCnt (k j : Nat) (f : CntSet → CntSet) :
    (s.updCnt k f).cnt j = if j = k then f (s.cnt k) else s.cnt j := State.cnt_setCnt s k j _

@[simp] theorem State.updCnt_frame (k : Nat) (f : CntSet → CntSet) :
    (s.updCnt k f).tb = s.tb ∧ (s.updCnt k f).freeCtr = s.freeCtr ∧ (s.updCnt k f).reply = s.reply ∧ (s.updCnt k f).clocksOff = s.clocksOff ∧
    (s.updCnt k f).pins = s.pins ∧ (s.updCnt k f).fuses = s.fuses ∧ (s.updCnt k f).regs = s.regs ∧ (s.updCnt k f).caps = s.caps ∧
    (s.updCnt k f).plots = s.plots ∧ (s.updCnt k f).chans = s.chans ∧ (s.updCnt k f).slices = s.slices ∧ (s.updCnt k f).norias = s.norias ∧
    (s.updCnt k f).dram = s.dram ∧ (s.updCnt k f).chk = s.chk ∧ (s.updCnt k f).net = s.net ∧ (s.updCnt k f).rr = s.rr ∧
    (s.updCnt k f).links = s.links ∧ (s.updCnt k f).reqTabs = s.reqTabs ∧ (s.updCnt k f).stks = s.stks ∧ (s.updCnt k f).sensors = s.sensors ∧
    (s.updCnt k f).coolant = s.coolant ∧ (s.updCnt k f).parts = s.parts ∧ (s.updCnt k f).rings = s.rings ∧ (s.updCnt k f).funcs = s.funcs ∧
    (s.updCnt k f).lndErr = s.lndErr ∧ (s.updCnt k f).cfg = s.cfg ∧ (s.updCnt k f).errs = s.errs ∧ (s.updCnt k f).xngs = s.xngs ∧
    (s.updCnt k f).eps = s.eps ∧ (s.updCnt k f).groups = s.groups ∧ (s.updCnt k f).coll = s.coll ∧ (s.updCnt k f).cores = s.cores ∧
    (s.updCnt k f).caches = s.caches ∧ (s.updCnt k f).media = s.media ∧ (s.updCnt k f).sec = s.sec ∧ (s.updCnt k f).boot = s.boot ∧
    (s.updCnt k f).store = s.store ∧ (s.updCnt k f).faults = s.faults ∧ (s.updCnt k f).dbg = s.dbg ∧ (s.updCnt k f).toll = s.toll ∧
    (s.updCnt k f).wire = s.wire ∧ (s.updCnt k f).pending = s.pending := by
  simp [State.updCnt]

@[simp] theorem State.updCnt_others (k : Nat) (f : CntSet → CntSet) (j : Nat) :
    (s.updCnt k f).chan j = s.chan j ∧ (s.updCnt k f).plot j = s.plot j ∧ (s.updCnt k f).slc j = s.slc j ∧
    (s.updCnt k f).nor j = s.nor j ∧ (s.updCnt k f).link j = s.link j ∧ (s.updCnt k f).stk j = s.stk j ∧
    (s.updCnt k f).sensor j = s.sensor j ∧ (s.updCnt k f).part j = s.part j ∧ (s.updCnt k f).ring j = s.ring j ∧
    (s.updCnt k f).func j = s.func j ∧ (s.updCnt k f).errf j = s.errf j ∧ (s.updCnt k f).xng j = s.xng j ∧
    (s.updCnt k f).ep j = s.ep j ∧ (s.updCnt k f).grp j = s.grp j ∧ (s.updCnt k f).core j = s.core j ∧
    (s.updCnt k f).med j = s.med j ∧ (s.updCnt k f).reqTab j = s.reqTab j ∧ (s.updCnt k f).reg j = s.reg j := by
  refine ⟨rfl, rfl, rfl, rfl, rfl, rfl, rfl, rfl, rfl, rfl, rfl, rfl, rfl, rfl, rfl, rfl, rfl, rfl⟩

@[simp] theorem State.reqTab_setReqTab_same (k : Nat) (x : List ReqEnt) : (s.setReqTab k x).reqTab k = x := by simp [State.reqTab, State.setReqTab]

theorem State.reqTab_setReqTab_ne {k j : Nat} (x : List ReqEnt) (h : j ≠ k) : (s.setReqTab k x).reqTab j = s.reqTab j := 
  tget_tput_ne' _ _ _ x h

theorem State.reqTab_setReqTab (k j : Nat) (x : List ReqEnt) : (s.setReqTab k x).reqTab j = if j = k then x else s.reqTab j := by
  split
  · subst_vars; simp
  · exact State.reqTab_setReqTab_ne s x ‹_›

@[simp] theorem State.setReqTab_frame (k : Nat) (x : List ReqEnt) :
    (s.setReqTab k x).tb = s.tb ∧ (s.setReqTab k x).freeCtr = s.freeCtr ∧ (s.setReqTab k x).reply = s.reply ∧ (s.setReqTab k x).clocksOff = s.clocksOff ∧
    (s.setReqTab k x).pins = s.pins ∧ (s.setReqTab k x).fuses = s.fuses ∧ (s.setReqTab k x).regs = s.regs ∧ (s.setReqTab k x).caps = s.caps ∧
    (s.setReqTab k x).plots = s.plots ∧ (s.setReqTab k x).chans = s.chans ∧ (s.setReqTab k x).slices = s.slices ∧ (s.setReqTab k x).norias = s.norias ∧
    (s.setReqTab k x).dram = s.dram ∧ (s.setReqTab k x).chk = s.chk ∧ (s.setReqTab k x).net = s.net ∧ (s.setReqTab k x).rr = s.rr ∧
    (s.setReqTab k x).links = s.links ∧ (s.setReqTab k x).stks = s.stks ∧ (s.setReqTab k x).sensors = s.sensors ∧ (s.setReqTab k x).coolant = s.coolant ∧
    (s.setReqTab k x).parts = s.parts ∧ (s.setReqTab k x).rings = s.rings ∧ (s.setReqTab k x).funcs = s.funcs ∧ (s.setReqTab k x).lndErr = s.lndErr ∧
    (s.setReqTab k x).cfg = s.cfg ∧ (s.setReqTab k x).errs = s.errs ∧ (s.setReqTab k x).xngs = s.xngs ∧ (s.setReqTab k x).eps = s.eps ∧
    (s.setReqTab k x).groups = s.groups ∧ (s.setReqTab k x).coll = s.coll ∧ (s.setReqTab k x).cores = s.cores ∧ (s.setReqTab k x).caches = s.caches ∧
    (s.setReqTab k x).media = s.media ∧ (s.setReqTab k x).sec = s.sec ∧ (s.setReqTab k x).boot = s.boot ∧ (s.setReqTab k x).store = s.store ∧
    (s.setReqTab k x).faults = s.faults ∧ (s.setReqTab k x).dbg = s.dbg ∧ (s.setReqTab k x).cnts = s.cnts ∧ (s.setReqTab k x).toll = s.toll ∧
    (s.setReqTab k x).wire = s.wire ∧ (s.setReqTab k x).pending = s.pending := by
  simp [State.setReqTab]

@[simp] theorem State.setReqTab_fld (k : Nat) (x : List ReqEnt) (j lo w : Nat) : (s.setReqTab k x).fld j lo w = s.fld j lo w := rfl

@[simp] theorem State.setReqTab_bit (k : Nat) (x : List ReqEnt) (j i : Nat) : (s.setReqTab k x).bit j i = s.bit j i := rfl

@[simp] theorem State.updReqTab_fld (k : Nat) (f : List ReqEnt → List ReqEnt) (j lo w : Nat) : (s.updReqTab k f).fld j lo w = s.fld j lo w := rfl

@[simp] theorem State.updReqTab_bit (k : Nat) (f : List ReqEnt → List ReqEnt) (j i : Nat) : (s.updReqTab k f).bit j i = s.bit j i := rfl

@[simp] theorem State.setReqTab_others (k : Nat) (x : List ReqEnt) (j : Nat) :
    (s.setReqTab k x).chan j = s.chan j ∧ (s.setReqTab k x).plot j = s.plot j ∧ (s.setReqTab k x).slc j = s.slc j ∧
    (s.setReqTab k x).nor j = s.nor j ∧ (s.setReqTab k x).link j = s.link j ∧ (s.setReqTab k x).stk j = s.stk j ∧
    (s.setReqTab k x).sensor j = s.sensor j ∧ (s.setReqTab k x).part j = s.part j ∧ (s.setReqTab k x).ring j = s.ring j ∧
    (s.setReqTab k x).func j = s.func j ∧ (s.setReqTab k x).errf j = s.errf j ∧ (s.setReqTab k x).xng j = s.xng j ∧
    (s.setReqTab k x).ep j = s.ep j ∧ (s.setReqTab k x).grp j = s.grp j ∧ (s.setReqTab k x).core j = s.core j ∧
    (s.setReqTab k x).med j = s.med j ∧ (s.setReqTab k x).cnt j = s.cnt j ∧ (s.setReqTab k x).reg j = s.reg j := by
  refine ⟨rfl, rfl, rfl, rfl, rfl, rfl, rfl, rfl, rfl, rfl, rfl, rfl, rfl, rfl, rfl, rfl, rfl, rfl⟩

theorem State.updReqTab_eq (k : Nat) (f : List ReqEnt → List ReqEnt) : s.updReqTab k f = s.setReqTab k (f (s.reqTab k)) := rfl

@[simp] theorem State.reqTab_updReqTab_same (k : Nat) (f : List ReqEnt → List ReqEnt) : (s.updReqTab k f).reqTab k = f (s.reqTab k) := by
  simp [State.updReqTab]

theorem State.reqTab_updReqTab (k j : Nat) (f : List ReqEnt → List ReqEnt) :
    (s.updReqTab k f).reqTab j = if j = k then f (s.reqTab k) else s.reqTab j := State.reqTab_setReqTab s k j _

@[simp] theorem State.updReqTab_frame (k : Nat) (f : List ReqEnt → List ReqEnt) :
    (s.updReqTab k f).tb = s.tb ∧ (s.updReqTab k f).freeCtr = s.freeCtr ∧ (s.updReqTab k f).reply = s.reply ∧ (s.updReqTab k f).clocksOff = s.clocksOff ∧
    (s.updReqTab k f).pins = s.pins ∧ (s.updReqTab k f).fuses = s.fuses ∧ (s.updReqTab k f).regs = s.regs ∧ (s.updReqTab k f).caps = s.caps ∧
    (s.updReqTab k f).plots = s.plots ∧ (s.updReqTab k f).chans = s.chans ∧ (s.updReqTab k f).slices = s.slices ∧ (s.updReqTab k f).norias = s.norias ∧
    (s.updReqTab k f).dram = s.dram ∧ (s.updReqTab k f).chk = s.chk ∧ (s.updReqTab k f).net = s.net ∧ (s.updReqTab k f).rr = s.rr ∧
    (s.updReqTab k f).links = s.links ∧ (s.updReqTab k f).stks = s.stks ∧ (s.updReqTab k f).sensors = s.sensors ∧ (s.updReqTab k f).coolant = s.coolant ∧
    (s.updReqTab k f).parts = s.parts ∧ (s.updReqTab k f).rings = s.rings ∧ (s.updReqTab k f).funcs = s.funcs ∧ (s.updReqTab k f).lndErr = s.lndErr ∧
    (s.updReqTab k f).cfg = s.cfg ∧ (s.updReqTab k f).errs = s.errs ∧ (s.updReqTab k f).xngs = s.xngs ∧ (s.updReqTab k f).eps = s.eps ∧
    (s.updReqTab k f).groups = s.groups ∧ (s.updReqTab k f).coll = s.coll ∧ (s.updReqTab k f).cores = s.cores ∧ (s.updReqTab k f).caches = s.caches ∧
    (s.updReqTab k f).media = s.media ∧ (s.updReqTab k f).sec = s.sec ∧ (s.updReqTab k f).boot = s.boot ∧ (s.updReqTab k f).store = s.store ∧
    (s.updReqTab k f).faults = s.faults ∧ (s.updReqTab k f).dbg = s.dbg ∧ (s.updReqTab k f).cnts = s.cnts ∧ (s.updReqTab k f).toll = s.toll ∧
    (s.updReqTab k f).wire = s.wire ∧ (s.updReqTab k f).pending = s.pending := by
  simp [State.updReqTab]

@[simp] theorem State.updReqTab_others (k : Nat) (f : List ReqEnt → List ReqEnt) (j : Nat) :
    (s.updReqTab k f).chan j = s.chan j ∧ (s.updReqTab k f).plot j = s.plot j ∧ (s.updReqTab k f).slc j = s.slc j ∧
    (s.updReqTab k f).nor j = s.nor j ∧ (s.updReqTab k f).link j = s.link j ∧ (s.updReqTab k f).stk j = s.stk j ∧
    (s.updReqTab k f).sensor j = s.sensor j ∧ (s.updReqTab k f).part j = s.part j ∧ (s.updReqTab k f).ring j = s.ring j ∧
    (s.updReqTab k f).func j = s.func j ∧ (s.updReqTab k f).errf j = s.errf j ∧ (s.updReqTab k f).xng j = s.xng j ∧
    (s.updReqTab k f).ep j = s.ep j ∧ (s.updReqTab k f).grp j = s.grp j ∧ (s.updReqTab k f).core j = s.core j ∧
    (s.updReqTab k f).med j = s.med j ∧ (s.updReqTab k f).cnt j = s.cnt j ∧ (s.updReqTab k f).reg j = s.reg j := by
  refine ⟨rfl, rfl, rfl, rfl, rfl, rfl, rfl, rfl, rfl, rfl, rfl, rfl, rfl, rfl, rfl, rfl, rfl, rfl⟩

/-! ### Registers -/

@[simp] theorem State.reg_setReg_same (a : Nat) (x : Word) : (s.setReg a x).reg a = x := by simp [State.reg, State.setReg]

theorem State.reg_setReg_ne {a b : Nat} (x : Word) (h : b ≠ a) : (s.setReg a x).reg b = s.reg b :=
  tget_tput_ne' _ _ _ x h

theorem State.reg_setReg (a b : Nat) (x : Word) : (s.setReg a x).reg b = if b = a then x else s.reg b := by
  split
  · subst_vars; simp
  · exact State.reg_setReg_ne s x ‹_›

@[simp] theorem State.setReg_frame (a : Nat) (x : Word) :
    (s.setReg a x).tb = s.tb ∧ (s.setReg a x).freeCtr = s.freeCtr ∧ (s.setReg a x).reply = s.reply ∧ (s.setReg a x).clocksOff = s.clocksOff ∧
    (s.setReg a x).pins = s.pins ∧ (s.setReg a x).fuses = s.fuses ∧ (s.setReg a x).caps = s.caps ∧ (s.setReg a x).plots = s.plots ∧
    (s.setReg a x).chans = s.chans ∧ (s.setReg a x).slices = s.slices ∧ (s.setReg a x).norias = s.norias ∧ (s.setReg a x).dram = s.dram ∧
    (s.setReg a x).chk = s.chk ∧ (s.setReg a x).net = s.net ∧ (s.setReg a x).rr = s.rr ∧ (s.setReg a x).links = s.links ∧
    (s.setReg a x).reqTabs = s.reqTabs ∧ (s.setReg a x).stks = s.stks ∧ (s.setReg a x).sensors = s.sensors ∧ (s.setReg a x).coolant = s.coolant ∧
    (s.setReg a x).parts = s.parts ∧ (s.setReg a x).rings = s.rings ∧ (s.setReg a x).funcs = s.funcs ∧ (s.setReg a x).lndErr = s.lndErr ∧
    (s.setReg a x).cfg = s.cfg ∧ (s.setReg a x).errs = s.errs ∧ (s.setReg a x).xngs = s.xngs ∧ (s.setReg a x).eps = s.eps ∧
    (s.setReg a x).groups = s.groups ∧ (s.setReg a x).coll = s.coll ∧ (s.setReg a x).cores = s.cores ∧ (s.setReg a x).caches = s.caches ∧
    (s.setReg a x).media = s.media ∧ (s.setReg a x).sec = s.sec ∧ (s.setReg a x).boot = s.boot ∧ (s.setReg a x).store = s.store ∧
    (s.setReg a x).faults = s.faults ∧ (s.setReg a x).dbg = s.dbg ∧ (s.setReg a x).cnts = s.cnts ∧ (s.setReg a x).toll = s.toll ∧
    (s.setReg a x).wire = s.wire ∧ (s.setReg a x).pending = s.pending := by
  simp [State.setReg]

@[simp] theorem State.setReg_others (a : Nat) (x : Word) (j : Nat) :
    (s.setReg a x).chan j = s.chan j ∧ (s.setReg a x).plot j = s.plot j ∧ (s.setReg a x).slc j = s.slc j ∧
    (s.setReg a x).nor j = s.nor j ∧ (s.setReg a x).link j = s.link j ∧ (s.setReg a x).stk j = s.stk j ∧
    (s.setReg a x).sensor j = s.sensor j ∧ (s.setReg a x).part j = s.part j ∧ (s.setReg a x).ring j = s.ring j ∧
    (s.setReg a x).func j = s.func j ∧ (s.setReg a x).errf j = s.errf j ∧ (s.setReg a x).xng j = s.xng j ∧
    (s.setReg a x).ep j = s.ep j ∧ (s.setReg a x).grp j = s.grp j ∧ (s.setReg a x).core j = s.core j ∧
    (s.setReg a x).med j = s.med j ∧ (s.setReg a x).cnt j = s.cnt j ∧ (s.setReg a x).reqTab j = s.reqTab j := by
  refine ⟨rfl, rfl, rfl, rfl, rfl, rfl, rfl, rfl, rfl, rfl, rfl, rfl, rfl, rfl, rfl, rfl, rfl, rfl⟩

@[simp] theorem State.setFld_frame (a l n x : Nat) :
    (s.setFld a l n x).tb = s.tb ∧ (s.setFld a l n x).freeCtr = s.freeCtr ∧ (s.setFld a l n x).reply = s.reply ∧ (s.setFld a l n x).clocksOff = s.clocksOff ∧
    (s.setFld a l n x).pins = s.pins ∧ (s.setFld a l n x).fuses = s.fuses ∧ (s.setFld a l n x).caps = s.caps ∧ (s.setFld a l n x).plots = s.plots ∧
    (s.setFld a l n x).chans = s.chans ∧ (s.setFld a l n x).slices = s.slices ∧ (s.setFld a l n x).norias = s.norias ∧ (s.setFld a l n x).dram = s.dram ∧
    (s.setFld a l n x).chk = s.chk ∧ (s.setFld a l n x).net = s.net ∧ (s.setFld a l n x).rr = s.rr ∧ (s.setFld a l n x).links = s.links ∧
    (s.setFld a l n x).reqTabs = s.reqTabs ∧ (s.setFld a l n x).stks = s.stks ∧ (s.setFld a l n x).sensors = s.sensors ∧ (s.setFld a l n x).coolant = s.coolant ∧
    (s.setFld a l n x).parts = s.parts ∧ (s.setFld a l n x).rings = s.rings ∧ (s.setFld a l n x).funcs = s.funcs ∧ (s.setFld a l n x).lndErr = s.lndErr ∧
    (s.setFld a l n x).cfg = s.cfg ∧ (s.setFld a l n x).errs = s.errs ∧ (s.setFld a l n x).xngs = s.xngs ∧ (s.setFld a l n x).eps = s.eps ∧
    (s.setFld a l n x).groups = s.groups ∧ (s.setFld a l n x).coll = s.coll ∧ (s.setFld a l n x).cores = s.cores ∧ (s.setFld a l n x).caches = s.caches ∧
    (s.setFld a l n x).media = s.media ∧ (s.setFld a l n x).sec = s.sec ∧ (s.setFld a l n x).boot = s.boot ∧ (s.setFld a l n x).store = s.store ∧
    (s.setFld a l n x).faults = s.faults ∧ (s.setFld a l n x).dbg = s.dbg ∧ (s.setFld a l n x).cnts = s.cnts ∧ (s.setFld a l n x).toll = s.toll ∧
    (s.setFld a l n x).wire = s.wire ∧ (s.setFld a l n x).pending = s.pending := by
  simp [State.setFld]

@[simp] theorem State.setFld_others (a l n x : Nat) (j : Nat) :
    (s.setFld a l n x).chan j = s.chan j ∧ (s.setFld a l n x).plot j = s.plot j ∧ (s.setFld a l n x).slc j = s.slc j ∧
    (s.setFld a l n x).nor j = s.nor j ∧ (s.setFld a l n x).link j = s.link j ∧ (s.setFld a l n x).stk j = s.stk j ∧
    (s.setFld a l n x).sensor j = s.sensor j ∧ (s.setFld a l n x).part j = s.part j ∧ (s.setFld a l n x).ring j = s.ring j ∧
    (s.setFld a l n x).func j = s.func j ∧ (s.setFld a l n x).errf j = s.errf j ∧ (s.setFld a l n x).xng j = s.xng j ∧
    (s.setFld a l n x).ep j = s.ep j ∧ (s.setFld a l n x).grp j = s.grp j ∧ (s.setFld a l n x).core j = s.core j ∧
    (s.setFld a l n x).med j = s.med j ∧ (s.setFld a l n x).cnt j = s.cnt j ∧ (s.setFld a l n x).reqTab j = s.reqTab j := by
  refine ⟨rfl, rfl, rfl, rfl, rfl, rfl, rfl, rfl, rfl, rfl, rfl, rfl, rfl, rfl, rfl, rfl, rfl, rfl⟩

@[simp] theorem State.setBit_frame (a i : Nat) :
    (s.setBit a i).tb = s.tb ∧ (s.setBit a i).freeCtr = s.freeCtr ∧ (s.setBit a i).reply = s.reply ∧ (s.setBit a i).clocksOff = s.clocksOff ∧
    (s.setBit a i).pins = s.pins ∧ (s.setBit a i).fuses = s.fuses ∧ (s.setBit a i).caps = s.caps ∧ (s.setBit a i).plots = s.plots ∧
    (s.setBit a i).chans = s.chans ∧ (s.setBit a i).slices = s.slices ∧ (s.setBit a i).norias = s.norias ∧ (s.setBit a i).dram = s.dram ∧
    (s.setBit a i).chk = s.chk ∧ (s.setBit a i).net = s.net ∧ (s.setBit a i).rr = s.rr ∧ (s.setBit a i).links = s.links ∧
    (s.setBit a i).reqTabs = s.reqTabs ∧ (s.setBit a i).stks = s.stks ∧ (s.setBit a i).sensors = s.sensors ∧ (s.setBit a i).coolant = s.coolant ∧
    (s.setBit a i).parts = s.parts ∧ (s.setBit a i).rings = s.rings ∧ (s.setBit a i).funcs = s.funcs ∧ (s.setBit a i).lndErr = s.lndErr ∧
    (s.setBit a i).cfg = s.cfg ∧ (s.setBit a i).errs = s.errs ∧ (s.setBit a i).xngs = s.xngs ∧ (s.setBit a i).eps = s.eps ∧
    (s.setBit a i).groups = s.groups ∧ (s.setBit a i).coll = s.coll ∧ (s.setBit a i).cores = s.cores ∧ (s.setBit a i).caches = s.caches ∧
    (s.setBit a i).media = s.media ∧ (s.setBit a i).sec = s.sec ∧ (s.setBit a i).boot = s.boot ∧ (s.setBit a i).store = s.store ∧
    (s.setBit a i).faults = s.faults ∧ (s.setBit a i).dbg = s.dbg ∧ (s.setBit a i).cnts = s.cnts ∧ (s.setBit a i).toll = s.toll ∧
    (s.setBit a i).wire = s.wire ∧ (s.setBit a i).pending = s.pending := by
  simp [State.setBit]

@[simp] theorem State.setBit_others (a i : Nat) (j : Nat) :
    (s.setBit a i).chan j = s.chan j ∧ (s.setBit a i).plot j = s.plot j ∧ (s.setBit a i).slc j = s.slc j ∧
    (s.setBit a i).nor j = s.nor j ∧ (s.setBit a i).link j = s.link j ∧ (s.setBit a i).stk j = s.stk j ∧
    (s.setBit a i).sensor j = s.sensor j ∧ (s.setBit a i).part j = s.part j ∧ (s.setBit a i).ring j = s.ring j ∧
    (s.setBit a i).func j = s.func j ∧ (s.setBit a i).errf j = s.errf j ∧ (s.setBit a i).xng j = s.xng j ∧
    (s.setBit a i).ep j = s.ep j ∧ (s.setBit a i).grp j = s.grp j ∧ (s.setBit a i).core j = s.core j ∧
    (s.setBit a i).med j = s.med j ∧ (s.setBit a i).cnt j = s.cnt j ∧ (s.setBit a i).reqTab j = s.reqTab j := by
  refine ⟨rfl, rfl, rfl, rfl, rfl, rfl, rfl, rfl, rfl, rfl, rfl, rfl, rfl, rfl, rfl, rfl, rfl, rfl⟩

@[simp] theorem State.clrBit_frame (a i : Nat) :
    (s.clrBit a i).tb = s.tb ∧ (s.clrBit a i).freeCtr = s.freeCtr ∧ (s.clrBit a i).reply = s.reply ∧ (s.clrBit a i).clocksOff = s.clocksOff ∧
    (s.clrBit a i).pins = s.pins ∧ (s.clrBit a i).fuses = s.fuses ∧ (s.clrBit a i).caps = s.caps ∧ (s.clrBit a i).plots = s.plots ∧
    (s.clrBit a i).chans = s.chans ∧ (s.clrBit a i).slices = s.slices ∧ (s.clrBit a i).norias = s.norias ∧ (s.clrBit a i).dram = s.dram ∧
    (s.clrBit a i).chk = s.chk ∧ (s.clrBit a i).net = s.net ∧ (s.clrBit a i).rr = s.rr ∧ (s.clrBit a i).links = s.links ∧
    (s.clrBit a i).reqTabs = s.reqTabs ∧ (s.clrBit a i).stks = s.stks ∧ (s.clrBit a i).sensors = s.sensors ∧ (s.clrBit a i).coolant = s.coolant ∧
    (s.clrBit a i).parts = s.parts ∧ (s.clrBit a i).rings = s.rings ∧ (s.clrBit a i).funcs = s.funcs ∧ (s.clrBit a i).lndErr = s.lndErr ∧
    (s.clrBit a i).cfg = s.cfg ∧ (s.clrBit a i).errs = s.errs ∧ (s.clrBit a i).xngs = s.xngs ∧ (s.clrBit a i).eps = s.eps ∧
    (s.clrBit a i).groups = s.groups ∧ (s.clrBit a i).coll = s.coll ∧ (s.clrBit a i).cores = s.cores ∧ (s.clrBit a i).caches = s.caches ∧
    (s.clrBit a i).media = s.media ∧ (s.clrBit a i).sec = s.sec ∧ (s.clrBit a i).boot = s.boot ∧ (s.clrBit a i).store = s.store ∧
    (s.clrBit a i).faults = s.faults ∧ (s.clrBit a i).dbg = s.dbg ∧ (s.clrBit a i).cnts = s.cnts ∧ (s.clrBit a i).toll = s.toll ∧
    (s.clrBit a i).wire = s.wire ∧ (s.clrBit a i).pending = s.pending := by
  simp [State.clrBit]

@[simp] theorem State.clrBit_others (a i : Nat) (j : Nat) :
    (s.clrBit a i).chan j = s.chan j ∧ (s.clrBit a i).plot j = s.plot j ∧ (s.clrBit a i).slc j = s.slc j ∧
    (s.clrBit a i).nor j = s.nor j ∧ (s.clrBit a i).link j = s.link j ∧ (s.clrBit a i).stk j = s.stk j ∧
    (s.clrBit a i).sensor j = s.sensor j ∧ (s.clrBit a i).part j = s.part j ∧ (s.clrBit a i).ring j = s.ring j ∧
    (s.clrBit a i).func j = s.func j ∧ (s.clrBit a i).errf j = s.errf j ∧ (s.clrBit a i).xng j = s.xng j ∧
    (s.clrBit a i).ep j = s.ep j ∧ (s.clrBit a i).grp j = s.grp j ∧ (s.clrBit a i).core j = s.core j ∧
    (s.clrBit a i).med j = s.med j ∧ (s.clrBit a i).cnt j = s.cnt j ∧ (s.clrBit a i).reqTab j = s.reqTab j := by
  refine ⟨rfl, rfl, rfl, rfl, rfl, rfl, rfl, rfl, rfl, rfl, rfl, rfl, rfl, rfl, rfl, rfl, rfl, rfl⟩

@[simp] theorem State.addFld_frame (a l n x : Nat) :
    (s.addFld a l n x).tb = s.tb ∧ (s.addFld a l n x).freeCtr = s.freeCtr ∧ (s.addFld a l n x).reply = s.reply ∧ (s.addFld a l n x).clocksOff = s.clocksOff ∧
    (s.addFld a l n x).pins = s.pins ∧ (s.addFld a l n x).fuses = s.fuses ∧ (s.addFld a l n x).caps = s.caps ∧ (s.addFld a l n x).plots = s.plots ∧
    (s.addFld a l n x).chans = s.chans ∧ (s.addFld a l n x).slices = s.slices ∧ (s.addFld a l n x).norias = s.norias ∧ (s.addFld a l n x).dram = s.dram ∧
    (s.addFld a l n x).chk = s.chk ∧ (s.addFld a l n x).net = s.net ∧ (s.addFld a l n x).rr = s.rr ∧ (s.addFld a l n x).links = s.links ∧
    (s.addFld a l n x).reqTabs = s.reqTabs ∧ (s.addFld a l n x).stks = s.stks ∧ (s.addFld a l n x).sensors = s.sensors ∧ (s.addFld a l n x).coolant = s.coolant ∧
    (s.addFld a l n x).parts = s.parts ∧ (s.addFld a l n x).rings = s.rings ∧ (s.addFld a l n x).funcs = s.funcs ∧ (s.addFld a l n x).lndErr = s.lndErr ∧
    (s.addFld a l n x).cfg = s.cfg ∧ (s.addFld a l n x).errs = s.errs ∧ (s.addFld a l n x).xngs = s.xngs ∧ (s.addFld a l n x).eps = s.eps ∧
    (s.addFld a l n x).groups = s.groups ∧ (s.addFld a l n x).coll = s.coll ∧ (s.addFld a l n x).cores = s.cores ∧ (s.addFld a l n x).caches = s.caches ∧
    (s.addFld a l n x).media = s.media ∧ (s.addFld a l n x).sec = s.sec ∧ (s.addFld a l n x).boot = s.boot ∧ (s.addFld a l n x).store = s.store ∧
    (s.addFld a l n x).faults = s.faults ∧ (s.addFld a l n x).dbg = s.dbg ∧ (s.addFld a l n x).cnts = s.cnts ∧ (s.addFld a l n x).toll = s.toll ∧
    (s.addFld a l n x).wire = s.wire ∧ (s.addFld a l n x).pending = s.pending := by
  simp [State.addFld]

@[simp] theorem State.addFld_others (a l n x : Nat) (j : Nat) :
    (s.addFld a l n x).chan j = s.chan j ∧ (s.addFld a l n x).plot j = s.plot j ∧ (s.addFld a l n x).slc j = s.slc j ∧
    (s.addFld a l n x).nor j = s.nor j ∧ (s.addFld a l n x).link j = s.link j ∧ (s.addFld a l n x).stk j = s.stk j ∧
    (s.addFld a l n x).sensor j = s.sensor j ∧ (s.addFld a l n x).part j = s.part j ∧ (s.addFld a l n x).ring j = s.ring j ∧
    (s.addFld a l n x).func j = s.func j ∧ (s.addFld a l n x).errf j = s.errf j ∧ (s.addFld a l n x).xng j = s.xng j ∧
    (s.addFld a l n x).ep j = s.ep j ∧ (s.addFld a l n x).grp j = s.grp j ∧ (s.addFld a l n x).core j = s.core j ∧
    (s.addFld a l n x).med j = s.med j ∧ (s.addFld a l n x).cnt j = s.cnt j ∧ (s.addFld a l n x).reqTab j = s.reqTab j := by
  refine ⟨rfl, rfl, rfl, rfl, rfl, rfl, rfl, rfl, rfl, rfl, rfl, rfl, rfl, rfl, rfl, rfl, rfl, rfl⟩

@[simp] theorem State.irq_frame (a i : Nat) :
    (s.irq a i).tb = s.tb ∧ (s.irq a i).freeCtr = s.freeCtr ∧ (s.irq a i).reply = s.reply ∧ (s.irq a i).clocksOff = s.clocksOff ∧
    (s.irq a i).pins = s.pins ∧ (s.irq a i).fuses = s.fuses ∧ (s.irq a i).caps = s.caps ∧ (s.irq a i).plots = s.plots ∧
    (s.irq a i).chans = s.chans ∧ (s.irq a i).slices = s.slices ∧ (s.irq a i).norias = s.norias ∧ (s.irq a i).dram = s.dram ∧
    (s.irq a i).chk = s.chk ∧ (s.irq a i).net = s.net ∧ (s.irq a i).rr = s.rr ∧ (s.irq a i).links = s.links ∧
    (s.irq a i).reqTabs = s.reqTabs ∧ (s.irq a i).stks = s.stks ∧ (s.irq a i).sensors = s.sensors ∧ (s.irq a i).coolant = s.coolant ∧
    (s.irq a i).parts = s.parts ∧ (s.irq a i).rings = s.rings ∧ (s.irq a i).funcs = s.funcs ∧ (s.irq a i).lndErr = s.lndErr ∧
    (s.irq a i).cfg = s.cfg ∧ (s.irq a i).errs = s.errs ∧ (s.irq a i).xngs = s.xngs ∧ (s.irq a i).eps = s.eps ∧
    (s.irq a i).groups = s.groups ∧ (s.irq a i).coll = s.coll ∧ (s.irq a i).cores = s.cores ∧ (s.irq a i).caches = s.caches ∧
    (s.irq a i).media = s.media ∧ (s.irq a i).sec = s.sec ∧ (s.irq a i).boot = s.boot ∧ (s.irq a i).store = s.store ∧
    (s.irq a i).faults = s.faults ∧ (s.irq a i).dbg = s.dbg ∧ (s.irq a i).cnts = s.cnts ∧ (s.irq a i).toll = s.toll ∧
    (s.irq a i).wire = s.wire ∧ (s.irq a i).pending = s.pending := by
  simp [State.irq]

@[simp] theorem State.irq_others (a i : Nat) (j : Nat) :
    (s.irq a i).chan j = s.chan j ∧ (s.irq a i).plot j = s.plot j ∧ (s.irq a i).slc j = s.slc j ∧
    (s.irq a i).nor j = s.nor j ∧ (s.irq a i).link j = s.link j ∧ (s.irq a i).stk j = s.stk j ∧
    (s.irq a i).sensor j = s.sensor j ∧ (s.irq a i).part j = s.part j ∧ (s.irq a i).ring j = s.ring j ∧
    (s.irq a i).func j = s.func j ∧ (s.irq a i).errf j = s.errf j ∧ (s.irq a i).xng j = s.xng j ∧
    (s.irq a i).ep j = s.ep j ∧ (s.irq a i).grp j = s.grp j ∧ (s.irq a i).core j = s.core j ∧
    (s.irq a i).med j = s.med j ∧ (s.irq a i).cnt j = s.cnt j ∧ (s.irq a i).reqTab j = s.reqTab j := by
  refine ⟨rfl, rfl, rfl, rfl, rfl, rfl, rfl, rfl, rfl, rfl, rfl, rfl, rfl, rfl, rfl, rfl, rfl, rfl⟩

@[simp] theorem State.pageErr_frame (a x : Nat) :
    (s.pageErr a x).tb = s.tb ∧ (s.pageErr a x).freeCtr = s.freeCtr ∧ (s.pageErr a x).reply = s.reply ∧ (s.pageErr a x).clocksOff = s.clocksOff ∧
    (s.pageErr a x).pins = s.pins ∧ (s.pageErr a x).fuses = s.fuses ∧ (s.pageErr a x).caps = s.caps ∧ (s.pageErr a x).plots = s.plots ∧
    (s.pageErr a x).chans = s.chans ∧ (s.pageErr a x).slices = s.slices ∧ (s.pageErr a x).norias = s.norias ∧ (s.pageErr a x).dram = s.dram ∧
    (s.pageErr a x).chk = s.chk ∧ (s.pageErr a x).net = s.net ∧ (s.pageErr a x).rr = s.rr ∧ (s.pageErr a x).links = s.links ∧
    (s.pageErr a x).reqTabs = s.reqTabs ∧ (s.pageErr a x).stks = s.stks ∧ (s.pageErr a x).sensors = s.sensors ∧ (s.pageErr a x).coolant = s.coolant ∧
    (s.pageErr a x).parts = s.parts ∧ (s.pageErr a x).rings = s.rings ∧ (s.pageErr a x).funcs = s.funcs ∧ (s.pageErr a x).lndErr = s.lndErr ∧
    (s.pageErr a x).cfg = s.cfg ∧ (s.pageErr a x).errs = s.errs ∧ (s.pageErr a x).xngs = s.xngs ∧ (s.pageErr a x).eps = s.eps ∧
    (s.pageErr a x).groups = s.groups ∧ (s.pageErr a x).coll = s.coll ∧ (s.pageErr a x).cores = s.cores ∧ (s.pageErr a x).caches = s.caches ∧
    (s.pageErr a x).media = s.media ∧ (s.pageErr a x).sec = s.sec ∧ (s.pageErr a x).boot = s.boot ∧ (s.pageErr a x).store = s.store ∧
    (s.pageErr a x).faults = s.faults ∧ (s.pageErr a x).dbg = s.dbg ∧ (s.pageErr a x).cnts = s.cnts ∧ (s.pageErr a x).toll = s.toll ∧
    (s.pageErr a x).wire = s.wire ∧ (s.pageErr a x).pending = s.pending := by
  simp [State.pageErr]

@[simp] theorem State.pageErr_others (a x : Nat) (j : Nat) :
    (s.pageErr a x).chan j = s.chan j ∧ (s.pageErr a x).plot j = s.plot j ∧ (s.pageErr a x).slc j = s.slc j ∧
    (s.pageErr a x).nor j = s.nor j ∧ (s.pageErr a x).link j = s.link j ∧ (s.pageErr a x).stk j = s.stk j ∧
    (s.pageErr a x).sensor j = s.sensor j ∧ (s.pageErr a x).part j = s.part j ∧ (s.pageErr a x).ring j = s.ring j ∧
    (s.pageErr a x).func j = s.func j ∧ (s.pageErr a x).errf j = s.errf j ∧ (s.pageErr a x).xng j = s.xng j ∧
    (s.pageErr a x).ep j = s.ep j ∧ (s.pageErr a x).grp j = s.grp j ∧ (s.pageErr a x).core j = s.core j ∧
    (s.pageErr a x).med j = s.med j ∧ (s.pageErr a x).cnt j = s.cnt j ∧ (s.pageErr a x).reqTab j = s.reqTab j := by
  simp [State.pageErr]

@[simp] theorem State.drawn_frame  :
    (s.drawn).tb = s.tb ∧ (s.drawn).reply = s.reply ∧ (s.drawn).clocksOff = s.clocksOff ∧ (s.drawn).pins = s.pins ∧
    (s.drawn).fuses = s.fuses ∧ (s.drawn).regs = s.regs ∧ (s.drawn).caps = s.caps ∧ (s.drawn).plots = s.plots ∧
    (s.drawn).chans = s.chans ∧ (s.drawn).slices = s.slices ∧ (s.drawn).norias = s.norias ∧ (s.drawn).dram = s.dram ∧
    (s.drawn).chk = s.chk ∧ (s.drawn).net = s.net ∧ (s.drawn).rr = s.rr ∧ (s.drawn).links = s.links ∧
    (s.drawn).reqTabs = s.reqTabs ∧ (s.drawn).stks = s.stks ∧ (s.drawn).sensors = s.sensors ∧ (s.drawn).coolant = s.coolant ∧
    (s.drawn).parts = s.parts ∧ (s.drawn).rings = s.rings ∧ (s.drawn).funcs = s.funcs ∧ (s.drawn).lndErr = s.lndErr ∧
    (s.drawn).cfg = s.cfg ∧ (s.drawn).errs = s.errs ∧ (s.drawn).xngs = s.xngs ∧ (s.drawn).eps = s.eps ∧
    (s.drawn).groups = s.groups ∧ (s.drawn).coll = s.coll ∧ (s.drawn).cores = s.cores ∧ (s.drawn).caches = s.caches ∧
    (s.drawn).media = s.media ∧ (s.drawn).sec = s.sec ∧ (s.drawn).boot = s.boot ∧ (s.drawn).store = s.store ∧
    (s.drawn).faults = s.faults ∧ (s.drawn).dbg = s.dbg ∧ (s.drawn).cnts = s.cnts ∧ (s.drawn).toll = s.toll ∧
    (s.drawn).wire = s.wire ∧ (s.drawn).pending = s.pending := by
  simp [State.drawn]

@[simp] theorem State.drawn_fld  (j lo w : Nat) : (s.drawn).fld j lo w = s.fld j lo w := rfl

@[simp] theorem State.drawn_bit  (j k : Nat) : (s.drawn).bit j k = s.bit j k := rfl

@[simp] theorem State.drawn_others  (j : Nat) :
    (s.drawn).chan j = s.chan j ∧ (s.drawn).plot j = s.plot j ∧ (s.drawn).slc j = s.slc j ∧
    (s.drawn).nor j = s.nor j ∧ (s.drawn).link j = s.link j ∧ (s.drawn).stk j = s.stk j ∧
    (s.drawn).sensor j = s.sensor j ∧ (s.drawn).part j = s.part j ∧ (s.drawn).ring j = s.ring j ∧
    (s.drawn).func j = s.func j ∧ (s.drawn).errf j = s.errf j ∧ (s.drawn).xng j = s.xng j ∧
    (s.drawn).ep j = s.ep j ∧ (s.drawn).grp j = s.grp j ∧ (s.drawn).core j = s.core j ∧
    (s.drawn).med j = s.med j ∧ (s.drawn).cnt j = s.cnt j ∧ (s.drawn).reqTab j = s.reqTab j ∧
    (s.drawn).reg j = s.reg j := by
  refine ⟨rfl, rfl, rfl, rfl, rfl, rfl, rfl, rfl, rfl, rfl, rfl, rfl, rfl, rfl, rfl, rfl, rfl, rfl, rfl⟩

@[simp] theorem State.send_frame (m : Msg) :
    (s.send m).tb = s.tb ∧ (s.send m).freeCtr = s.freeCtr ∧ (s.send m).reply = s.reply ∧ (s.send m).clocksOff = s.clocksOff ∧
    (s.send m).pins = s.pins ∧ (s.send m).fuses = s.fuses ∧ (s.send m).regs = s.regs ∧ (s.send m).caps = s.caps ∧
    (s.send m).plots = s.plots ∧ (s.send m).chans = s.chans ∧ (s.send m).slices = s.slices ∧ (s.send m).norias = s.norias ∧
    (s.send m).dram = s.dram ∧ (s.send m).chk = s.chk ∧ (s.send m).net = s.net ∧ (s.send m).rr = s.rr ∧
    (s.send m).links = s.links ∧ (s.send m).reqTabs = s.reqTabs ∧ (s.send m).stks = s.stks ∧ (s.send m).sensors = s.sensors ∧
    (s.send m).coolant = s.coolant ∧ (s.send m).parts = s.parts ∧ (s.send m).rings = s.rings ∧ (s.send m).funcs = s.funcs ∧
    (s.send m).lndErr = s.lndErr ∧ (s.send m).cfg = s.cfg ∧ (s.send m).errs = s.errs ∧ (s.send m).xngs = s.xngs ∧
    (s.send m).eps = s.eps ∧ (s.send m).groups = s.groups ∧ (s.send m).coll = s.coll ∧ (s.send m).cores = s.cores ∧
    (s.send m).caches = s.caches ∧ (s.send m).media = s.media ∧ (s.send m).sec = s.sec ∧ (s.send m).boot = s.boot ∧
    (s.send m).store = s.store ∧ (s.send m).faults = s.faults ∧ (s.send m).dbg = s.dbg ∧ (s.send m).cnts = s.cnts ∧
    (s.send m).toll = s.toll ∧ (s.send m).pending = s.pending := by
  simp [State.send]

@[simp] theorem State.send_fld (m : Msg) (j lo w : Nat) : (s.send m).fld j lo w = s.fld j lo w := rfl

@[simp] theorem State.send_bit (m : Msg) (j k : Nat) : (s.send m).bit j k = s.bit j k := rfl

@[simp] theorem State.send_others (m : Msg) (j : Nat) :
    (s.send m).chan j = s.chan j ∧ (s.send m).plot j = s.plot j ∧ (s.send m).slc j = s.slc j ∧
    (s.send m).nor j = s.nor j ∧ (s.send m).link j = s.link j ∧ (s.send m).stk j = s.stk j ∧
    (s.send m).sensor j = s.sensor j ∧ (s.send m).part j = s.part j ∧ (s.send m).ring j = s.ring j ∧
    (s.send m).func j = s.func j ∧ (s.send m).errf j = s.errf j ∧ (s.send m).xng j = s.xng j ∧
    (s.send m).ep j = s.ep j ∧ (s.send m).grp j = s.grp j ∧ (s.send m).core j = s.core j ∧
    (s.send m).med j = s.med j ∧ (s.send m).cnt j = s.cnt j ∧ (s.send m).reqTab j = s.reqTab j ∧
    (s.send m).reg j = s.reg j := by
  refine ⟨rfl, rfl, rfl, rfl, rfl, rfl, rfl, rfl, rfl, rfl, rfl, rfl, rfl, rfl, rfl, rfl, rfl, rfl, rfl⟩

@[simp] theorem State.answer_frame (d : List Byte) :
    (s.answer d).tb = s.tb ∧ (s.answer d).freeCtr = s.freeCtr ∧ (s.answer d).clocksOff = s.clocksOff ∧ (s.answer d).pins = s.pins ∧
    (s.answer d).fuses = s.fuses ∧ (s.answer d).regs = s.regs ∧ (s.answer d).caps = s.caps ∧ (s.answer d).plots = s.plots ∧
    (s.answer d).chans = s.chans ∧ (s.answer d).slices = s.slices ∧ (s.answer d).norias = s.norias ∧ (s.answer d).dram = s.dram ∧
    (s.answer d).chk = s.chk ∧ (s.answer d).net = s.net ∧ (s.answer d).rr = s.rr ∧ (s.answer d).links = s.links ∧
    (s.answer d).reqTabs = s.reqTabs ∧ (s.answer d).stks = s.stks ∧ (s.answer d).sensors = s.sensors ∧ (s.answer d).coolant = s.coolant ∧
    (s.answer d).parts = s.parts ∧ (s.answer d).rings = s.rings ∧ (s.answer d).funcs = s.funcs ∧ (s.answer d).lndErr = s.lndErr ∧
    (s.answer d).cfg = s.cfg ∧ (s.answer d).errs = s.errs ∧ (s.answer d).xngs = s.xngs ∧ (s.answer d).eps = s.eps ∧
    (s.answer d).groups = s.groups ∧ (s.answer d).coll = s.coll ∧ (s.answer d).cores = s.cores ∧ (s.answer d).caches = s.caches ∧
    (s.answer d).media = s.media ∧ (s.answer d).sec = s.sec ∧ (s.answer d).boot = s.boot ∧ (s.answer d).store = s.store ∧
    (s.answer d).faults = s.faults ∧ (s.answer d).dbg = s.dbg ∧ (s.answer d).cnts = s.cnts ∧ (s.answer d).toll = s.toll ∧
    (s.answer d).wire = s.wire ∧ (s.answer d).pending = s.pending := by
  simp [State.answer]

@[simp] theorem State.answer_fld (d : List Byte) (j lo w : Nat) : (s.answer d).fld j lo w = s.fld j lo w := rfl

@[simp] theorem State.answer_bit (d : List Byte) (j k : Nat) : (s.answer d).bit j k = s.bit j k := rfl

@[simp] theorem State.answer_others (d : List Byte) (j : Nat) :
    (s.answer d).chan j = s.chan j ∧ (s.answer d).plot j = s.plot j ∧ (s.answer d).slc j = s.slc j ∧
    (s.answer d).nor j = s.nor j ∧ (s.answer d).link j = s.link j ∧ (s.answer d).stk j = s.stk j ∧
    (s.answer d).sensor j = s.sensor j ∧ (s.answer d).part j = s.part j ∧ (s.answer d).ring j = s.ring j ∧
    (s.answer d).func j = s.func j ∧ (s.answer d).errf j = s.errf j ∧ (s.answer d).xng j = s.xng j ∧
    (s.answer d).ep j = s.ep j ∧ (s.answer d).grp j = s.grp j ∧ (s.answer d).core j = s.core j ∧
    (s.answer d).med j = s.med j ∧ (s.answer d).cnt j = s.cnt j ∧ (s.answer d).reqTab j = s.reqTab j ∧
    (s.answer d).reg j = s.reg j := by
  refine ⟨rfl, rfl, rfl, rfl, rfl, rfl, rfl, rfl, rfl, rfl, rfl, rfl, rfl, rfl, rfl, rfl, rfl, rfl, rfl⟩

@[simp] theorem State.arrived_frame (m : Msg) :
    (s.arrived m).tb = s.tb ∧ (s.arrived m).freeCtr = s.freeCtr ∧ (s.arrived m).reply = s.reply ∧ (s.arrived m).clocksOff = s.clocksOff ∧
    (s.arrived m).pins = s.pins ∧ (s.arrived m).fuses = s.fuses ∧ (s.arrived m).regs = s.regs ∧ (s.arrived m).caps = s.caps ∧
    (s.arrived m).plots = s.plots ∧ (s.arrived m).chans = s.chans ∧ (s.arrived m).slices = s.slices ∧ (s.arrived m).norias = s.norias ∧
    (s.arrived m).dram = s.dram ∧ (s.arrived m).chk = s.chk ∧ (s.arrived m).rr = s.rr ∧ (s.arrived m).links = s.links ∧
    (s.arrived m).reqTabs = s.reqTabs ∧ (s.arrived m).stks = s.stks ∧ (s.arrived m).sensors = s.sensors ∧ (s.arrived m).coolant = s.coolant ∧
    (s.arrived m).parts = s.parts ∧ (s.arrived m).rings = s.rings ∧ (s.arrived m).funcs = s.funcs ∧ (s.arrived m).lndErr = s.lndErr ∧
    (s.arrived m).cfg = s.cfg ∧ (s.arrived m).errs = s.errs ∧ (s.arrived m).xngs = s.xngs ∧ (s.arrived m).eps = s.eps ∧
    (s.arrived m).groups = s.groups ∧ (s.arrived m).coll = s.coll ∧ (s.arrived m).cores = s.cores ∧ (s.arrived m).caches = s.caches ∧
    (s.arrived m).media = s.media ∧ (s.arrived m).sec = s.sec ∧ (s.arrived m).boot = s.boot ∧ (s.arrived m).store = s.store ∧
    (s.arrived m).faults = s.faults ∧ (s.arrived m).dbg = s.dbg ∧ (s.arrived m).cnts = s.cnts ∧ (s.arrived m).toll = s.toll ∧
    (s.arrived m).wire = s.wire ∧ (s.arrived m).pending = s.pending := by
  simp [State.arrived]

@[simp] theorem State.arrived_fld (m : Msg) (j lo w : Nat) : (s.arrived m).fld j lo w = s.fld j lo w := rfl

@[simp] theorem State.arrived_bit (m : Msg) (j k : Nat) : (s.arrived m).bit j k = s.bit j k := rfl

@[simp] theorem State.arrived_others (m : Msg) (j : Nat) :
    (s.arrived m).chan j = s.chan j ∧ (s.arrived m).plot j = s.plot j ∧ (s.arrived m).slc j = s.slc j ∧
    (s.arrived m).nor j = s.nor j ∧ (s.arrived m).link j = s.link j ∧ (s.arrived m).stk j = s.stk j ∧
    (s.arrived m).sensor j = s.sensor j ∧ (s.arrived m).part j = s.part j ∧ (s.arrived m).ring j = s.ring j ∧
    (s.arrived m).func j = s.func j ∧ (s.arrived m).errf j = s.errf j ∧ (s.arrived m).xng j = s.xng j ∧
    (s.arrived m).ep j = s.ep j ∧ (s.arrived m).grp j = s.grp j ∧ (s.arrived m).core j = s.core j ∧
    (s.arrived m).med j = s.med j ∧ (s.arrived m).cnt j = s.cnt j ∧ (s.arrived m).reqTab j = s.reqTab j ∧
    (s.arrived m).reg j = s.reg j := by
  refine ⟨rfl, rfl, rfl, rfl, rfl, rfl, rfl, rfl, rfl, rfl, rfl, rfl, rfl, rfl, rfl, rfl, rfl, rfl, rfl⟩

@[simp] theorem State.capture_frame (a : Nat) (x : Word) :
    (s.capture a x).tb = s.tb ∧ (s.capture a x).freeCtr = s.freeCtr ∧ (s.capture a x).reply = s.reply ∧ (s.capture a x).clocksOff = s.clocksOff ∧
    (s.capture a x).pins = s.pins ∧ (s.capture a x).fuses = s.fuses ∧ (s.capture a x).regs = s.regs ∧ (s.capture a x).plots = s.plots ∧
    (s.capture a x).chans = s.chans ∧ (s.capture a x).slices = s.slices ∧ (s.capture a x).norias = s.norias ∧ (s.capture a x).dram = s.dram ∧
    (s.capture a x).chk = s.chk ∧ (s.capture a x).net = s.net ∧ (s.capture a x).rr = s.rr ∧ (s.capture a x).links = s.links ∧
    (s.capture a x).reqTabs = s.reqTabs ∧ (s.capture a x).stks = s.stks ∧ (s.capture a x).sensors = s.sensors ∧ (s.capture a x).coolant = s.coolant ∧
    (s.capture a x).parts = s.parts ∧ (s.capture a x).rings = s.rings ∧ (s.capture a x).funcs = s.funcs ∧ (s.capture a x).lndErr = s.lndErr ∧
    (s.capture a x).cfg = s.cfg ∧ (s.capture a x).errs = s.errs ∧ (s.capture a x).xngs = s.xngs ∧ (s.capture a x).eps = s.eps ∧
    (s.capture a x).groups = s.groups ∧ (s.capture a x).coll = s.coll ∧ (s.capture a x).cores = s.cores ∧ (s.capture a x).caches = s.caches ∧
    (s.capture a x).media = s.media ∧ (s.capture a x).sec = s.sec ∧ (s.capture a x).boot = s.boot ∧ (s.capture a x).store = s.store ∧
    (s.capture a x).faults = s.faults ∧ (s.capture a x).dbg = s.dbg ∧ (s.capture a x).cnts = s.cnts ∧ (s.capture a x).toll = s.toll ∧
    (s.capture a x).wire = s.wire ∧ (s.capture a x).pending = s.pending := by
  simp [State.capture]

@[simp] theorem State.capture_fld (a : Nat) (x : Word) (j lo w : Nat) : (s.capture a x).fld j lo w = s.fld j lo w := rfl

@[simp] theorem State.capture_bit (a : Nat) (x : Word) (j k : Nat) : (s.capture a x).bit j k = s.bit j k := rfl

@[simp] theorem State.capture_others (a : Nat) (x : Word) (j : Nat) :
    (s.capture a x).chan j = s.chan j ∧ (s.capture a x).plot j = s.plot j ∧ (s.capture a x).slc j = s.slc j ∧
    (s.capture a x).nor j = s.nor j ∧ (s.capture a x).link j = s.link j ∧ (s.capture a x).stk j = s.stk j ∧
    (s.capture a x).sensor j = s.sensor j ∧ (s.capture a x).part j = s.part j ∧ (s.capture a x).ring j = s.ring j ∧
    (s.capture a x).func j = s.func j ∧ (s.capture a x).errf j = s.errf j ∧ (s.capture a x).xng j = s.xng j ∧
    (s.capture a x).ep j = s.ep j ∧ (s.capture a x).grp j = s.grp j ∧ (s.capture a x).core j = s.core j ∧
    (s.capture a x).med j = s.med j ∧ (s.capture a x).cnt j = s.cnt j ∧ (s.capture a x).reqTab j = s.reqTab j ∧
    (s.capture a x).reg j = s.reg j := by
  refine ⟨rfl, rfl, rfl, rfl, rfl, rfl, rfl, rfl, rfl, rfl, rfl, rfl, rfl, rfl, rfl, rfl, rfl, rfl, rfl⟩

@[simp] theorem State.hartStepped_frame (h : Nat) :
    (s.hartStepped h).tb = s.tb ∧ (s.hartStepped h).freeCtr = s.freeCtr ∧ (s.hartStepped h).reply = s.reply ∧ (s.hartStepped h).clocksOff = s.clocksOff ∧
    (s.hartStepped h).pins = s.pins ∧ (s.hartStepped h).fuses = s.fuses ∧ (s.hartStepped h).regs = s.regs ∧ (s.hartStepped h).caps = s.caps ∧
    (s.hartStepped h).plots = s.plots ∧ (s.hartStepped h).chans = s.chans ∧ (s.hartStepped h).slices = s.slices ∧ (s.hartStepped h).norias = s.norias ∧
    (s.hartStepped h).dram = s.dram ∧ (s.hartStepped h).chk = s.chk ∧ (s.hartStepped h).net = s.net ∧ (s.hartStepped h).rr = s.rr ∧
    (s.hartStepped h).links = s.links ∧ (s.hartStepped h).reqTabs = s.reqTabs ∧ (s.hartStepped h).stks = s.stks ∧ (s.hartStepped h).sensors = s.sensors ∧
    (s.hartStepped h).coolant = s.coolant ∧ (s.hartStepped h).parts = s.parts ∧ (s.hartStepped h).rings = s.rings ∧ (s.hartStepped h).funcs = s.funcs ∧
    (s.hartStepped h).lndErr = s.lndErr ∧ (s.hartStepped h).cfg = s.cfg ∧ (s.hartStepped h).errs = s.errs ∧ (s.hartStepped h).xngs = s.xngs ∧
    (s.hartStepped h).eps = s.eps ∧ (s.hartStepped h).groups = s.groups ∧ (s.hartStepped h).coll = s.coll ∧ (s.hartStepped h).cores = s.cores ∧
    (s.hartStepped h).caches = s.caches ∧ (s.hartStepped h).media = s.media ∧ (s.hartStepped h).sec = s.sec ∧ (s.hartStepped h).boot = s.boot ∧
    (s.hartStepped h).store = s.store ∧ (s.hartStepped h).faults = s.faults ∧ (s.hartStepped h).cnts = s.cnts ∧ (s.hartStepped h).toll = s.toll ∧
    (s.hartStepped h).wire = s.wire ∧ (s.hartStepped h).pending = s.pending := by
  simp [State.hartStepped]

@[simp] theorem State.hartStepped_fld (h : Nat) (j lo w : Nat) : (s.hartStepped h).fld j lo w = s.fld j lo w := rfl

@[simp] theorem State.hartStepped_bit (h : Nat) (j k : Nat) : (s.hartStepped h).bit j k = s.bit j k := rfl

@[simp] theorem State.hartStepped_others (h : Nat) (j : Nat) :
    (s.hartStepped h).chan j = s.chan j ∧ (s.hartStepped h).plot j = s.plot j ∧ (s.hartStepped h).slc j = s.slc j ∧
    (s.hartStepped h).nor j = s.nor j ∧ (s.hartStepped h).link j = s.link j ∧ (s.hartStepped h).stk j = s.stk j ∧
    (s.hartStepped h).sensor j = s.sensor j ∧ (s.hartStepped h).part j = s.part j ∧ (s.hartStepped h).ring j = s.ring j ∧
    (s.hartStepped h).func j = s.func j ∧ (s.hartStepped h).errf j = s.errf j ∧ (s.hartStepped h).xng j = s.xng j ∧
    (s.hartStepped h).ep j = s.ep j ∧ (s.hartStepped h).grp j = s.grp j ∧ (s.hartStepped h).core j = s.core j ∧
    (s.hartStepped h).med j = s.med j ∧ (s.hartStepped h).cnt j = s.cnt j ∧ (s.hartStepped h).reqTab j = s.reqTab j ∧
    (s.hartStepped h).reg j = s.reg j := by
  refine ⟨rfl, rfl, rfl, rfl, rfl, rfl, rfl, rfl, rfl, rfl, rfl, rfl, rfl, rfl, rfl, rfl, rfl, rfl, rfl⟩

@[simp] theorem State.inject_frame (c : Fin 4) (a b : Loc) (m : Msg) :
    (s.inject c a b m).tb = s.tb ∧ (s.inject c a b m).freeCtr = s.freeCtr ∧ (s.inject c a b m).reply = s.reply ∧ (s.inject c a b m).clocksOff = s.clocksOff ∧
    (s.inject c a b m).pins = s.pins ∧ (s.inject c a b m).fuses = s.fuses ∧ (s.inject c a b m).regs = s.regs ∧ (s.inject c a b m).caps = s.caps ∧
    (s.inject c a b m).plots = s.plots ∧ (s.inject c a b m).chans = s.chans ∧ (s.inject c a b m).slices = s.slices ∧ (s.inject c a b m).norias = s.norias ∧
    (s.inject c a b m).dram = s.dram ∧ (s.inject c a b m).chk = s.chk ∧ (s.inject c a b m).rr = s.rr ∧ (s.inject c a b m).links = s.links ∧
    (s.inject c a b m).reqTabs = s.reqTabs ∧ (s.inject c a b m).stks = s.stks ∧ (s.inject c a b m).sensors = s.sensors ∧ (s.inject c a b m).coolant = s.coolant ∧
    (s.inject c a b m).parts = s.parts ∧ (s.inject c a b m).rings = s.rings ∧ (s.inject c a b m).funcs = s.funcs ∧ (s.inject c a b m).lndErr = s.lndErr ∧
    (s.inject c a b m).cfg = s.cfg ∧ (s.inject c a b m).errs = s.errs ∧ (s.inject c a b m).xngs = s.xngs ∧ (s.inject c a b m).eps = s.eps ∧
    (s.inject c a b m).groups = s.groups ∧ (s.inject c a b m).coll = s.coll ∧ (s.inject c a b m).cores = s.cores ∧ (s.inject c a b m).caches = s.caches ∧
    (s.inject c a b m).media = s.media ∧ (s.inject c a b m).sec = s.sec ∧ (s.inject c a b m).boot = s.boot ∧ (s.inject c a b m).store = s.store ∧
    (s.inject c a b m).faults = s.faults ∧ (s.inject c a b m).dbg = s.dbg ∧ (s.inject c a b m).cnts = s.cnts ∧ (s.inject c a b m).toll = s.toll ∧
    (s.inject c a b m).wire = s.wire ∧ (s.inject c a b m).pending = s.pending := by
  simp [State.inject]

@[simp] theorem State.inject_fld (c : Fin 4) (a b : Loc) (m : Msg) (j lo w : Nat) : (s.inject c a b m).fld j lo w = s.fld j lo w := rfl

@[simp] theorem State.inject_bit (c : Fin 4) (a b : Loc) (m : Msg) (j k : Nat) : (s.inject c a b m).bit j k = s.bit j k := rfl

@[simp] theorem State.inject_others (c : Fin 4) (a b : Loc) (m : Msg) (j : Nat) :
    (s.inject c a b m).chan j = s.chan j ∧ (s.inject c a b m).plot j = s.plot j ∧ (s.inject c a b m).slc j = s.slc j ∧
    (s.inject c a b m).nor j = s.nor j ∧ (s.inject c a b m).link j = s.link j ∧ (s.inject c a b m).stk j = s.stk j ∧
    (s.inject c a b m).sensor j = s.sensor j ∧ (s.inject c a b m).part j = s.part j ∧ (s.inject c a b m).ring j = s.ring j ∧
    (s.inject c a b m).func j = s.func j ∧ (s.inject c a b m).errf j = s.errf j ∧ (s.inject c a b m).xng j = s.xng j ∧
    (s.inject c a b m).ep j = s.ep j ∧ (s.inject c a b m).grp j = s.grp j ∧ (s.inject c a b m).core j = s.core j ∧
    (s.inject c a b m).med j = s.med j ∧ (s.inject c a b m).cnt j = s.cnt j ∧ (s.inject c a b m).reqTab j = s.reqTab j ∧
    (s.inject c a b m).reg j = s.reg j := by
  refine ⟨rfl, rfl, rfl, rfl, rfl, rfl, rfl, rfl, rfl, rfl, rfl, rfl, rfl, rfl, rfl, rfl, rfl, rfl, rfl⟩

@[simp] theorem State.noteItem_frame (u : UnitId) (i : Nat) :
    (s.noteItem u i).tb = s.tb ∧ (s.noteItem u i).freeCtr = s.freeCtr ∧ (s.noteItem u i).reply = s.reply ∧ (s.noteItem u i).clocksOff = s.clocksOff ∧
    (s.noteItem u i).pins = s.pins ∧ (s.noteItem u i).fuses = s.fuses ∧ (s.noteItem u i).regs = s.regs ∧ (s.noteItem u i).caps = s.caps ∧
    (s.noteItem u i).plots = s.plots ∧ (s.noteItem u i).chans = s.chans ∧ (s.noteItem u i).slices = s.slices ∧ (s.noteItem u i).norias = s.norias ∧
    (s.noteItem u i).dram = s.dram ∧ (s.noteItem u i).chk = s.chk ∧ (s.noteItem u i).net = s.net ∧ (s.noteItem u i).rr = s.rr ∧
    (s.noteItem u i).links = s.links ∧ (s.noteItem u i).reqTabs = s.reqTabs ∧ (s.noteItem u i).stks = s.stks ∧ (s.noteItem u i).sensors = s.sensors ∧
    (s.noteItem u i).coolant = s.coolant ∧ (s.noteItem u i).parts = s.parts ∧ (s.noteItem u i).rings = s.rings ∧ (s.noteItem u i).funcs = s.funcs ∧
    (s.noteItem u i).lndErr = s.lndErr ∧ (s.noteItem u i).cfg = s.cfg ∧ (s.noteItem u i).errs = s.errs ∧ (s.noteItem u i).xngs = s.xngs ∧
    (s.noteItem u i).eps = s.eps ∧ (s.noteItem u i).groups = s.groups ∧ (s.noteItem u i).coll = s.coll ∧ (s.noteItem u i).cores = s.cores ∧
    (s.noteItem u i).caches = s.caches ∧ (s.noteItem u i).media = s.media ∧ (s.noteItem u i).sec = s.sec ∧ (s.noteItem u i).boot = s.boot ∧
    (s.noteItem u i).store = s.store ∧ (s.noteItem u i).faults = s.faults ∧ (s.noteItem u i).cnts = s.cnts ∧ (s.noteItem u i).toll = s.toll ∧
    (s.noteItem u i).wire = s.wire ∧ (s.noteItem u i).pending = s.pending := by
  simp [State.noteItem]

@[simp] theorem State.noteItem_fld (u : UnitId) (i : Nat) (j lo w : Nat) : (s.noteItem u i).fld j lo w = s.fld j lo w := rfl

@[simp] theorem State.noteItem_bit (u : UnitId) (i : Nat) (j k : Nat) : (s.noteItem u i).bit j k = s.bit j k := rfl

@[simp] theorem State.noteItem_others (u : UnitId) (i : Nat) (j : Nat) :
    (s.noteItem u i).chan j = s.chan j ∧ (s.noteItem u i).plot j = s.plot j ∧ (s.noteItem u i).slc j = s.slc j ∧
    (s.noteItem u i).nor j = s.nor j ∧ (s.noteItem u i).link j = s.link j ∧ (s.noteItem u i).stk j = s.stk j ∧
    (s.noteItem u i).sensor j = s.sensor j ∧ (s.noteItem u i).part j = s.part j ∧ (s.noteItem u i).ring j = s.ring j ∧
    (s.noteItem u i).func j = s.func j ∧ (s.noteItem u i).errf j = s.errf j ∧ (s.noteItem u i).xng j = s.xng j ∧
    (s.noteItem u i).ep j = s.ep j ∧ (s.noteItem u i).grp j = s.grp j ∧ (s.noteItem u i).core j = s.core j ∧
    (s.noteItem u i).med j = s.med j ∧ (s.noteItem u i).cnt j = s.cnt j ∧ (s.noteItem u i).reqTab j = s.reqTab j ∧
    (s.noteItem u i).reg j = s.reg j := by
  refine ⟨rfl, rfl, rfl, rfl, rfl, rfl, rfl, rfl, rfl, rfl, rfl, rfl, rfl, rfl, rfl, rfl, rfl, rfl, rfl⟩

/-! ### Bit fields -/

theorem nbits_lt (v lo w : Nat) : nbits v lo w < 2 ^ w := Nat.mod_lt _ (Nat.two_pow_pos w)

theorem putBits_lt {v lo w x : Nat} (h : lo + w ≤ 32) (hv : v < 2 ^ 32) : putBits v lo w x < 2 ^ 32 := by
  have h1 : v % 2 ^ lo < 2 ^ lo := Nat.mod_lt _ (Nat.two_pow_pos lo)
  have h2 : x % 2 ^ w < 2 ^ w := Nat.mod_lt _ (Nat.two_pow_pos w)
  have h3 : v / 2 ^ (lo + w) < 2 ^ (32 - (lo + w)) := by
    rw [Nat.div_lt_iff_lt_mul (Nat.two_pow_pos _), ← Nat.pow_add]
    rwa [show 32 - (lo + w) + (lo + w) = 32 by omega]
  have e1 : 2 ^ (lo + w) = 2 ^ w * 2 ^ lo := by rw [Nat.pow_add, Nat.mul_comm]
  have e2 : 2 ^ 32 = 2 ^ (32 - (lo + w)) * 2 ^ (lo + w) := by
    rw [← Nat.pow_add]; congr 1; omega
  unfold putBits
  calc v % 2 ^ lo + x % 2 ^ w * 2 ^ lo + v / 2 ^ (lo + w) * 2 ^ (lo + w)
      < 2 ^ lo + x % 2 ^ w * 2 ^ lo + v / 2 ^ (lo + w) * 2 ^ (lo + w) := by omega
    _ = (x % 2 ^ w + 1) * 2 ^ lo + v / 2 ^ (lo + w) * 2 ^ (lo + w) := by ring
    _ ≤ 2 ^ w * 2 ^ lo + v / 2 ^ (lo + w) * 2 ^ (lo + w) := by
        exact Nat.add_le_add_right (Nat.mul_le_mul_right (2 ^ lo) (Nat.succ_le_of_lt h2)) _
    _ = (v / 2 ^ (lo + w) + 1) * 2 ^ (lo + w) := by rw [e1]; ring
    _ ≤ 2 ^ 32 := by rw [e2]; exact Nat.mul_le_mul_right _ (Nat.succ_le_of_lt h3)

/-- A field just written reads back. -/
theorem nbits_putBits_same (v lo w x : Nat) : nbits (putBits v lo w x) lo w = x % 2 ^ w := by
  unfold nbits putBits
  have h1 : v % 2 ^ lo < 2 ^ lo := Nat.mod_lt _ (Nat.two_pow_pos lo)
  have e : v % 2 ^ lo + x % 2 ^ w * 2 ^ lo + v / 2 ^ (lo + w) * 2 ^ (lo + w)
      = v % 2 ^ lo + (x % 2 ^ w + v / 2 ^ (lo + w) * 2 ^ w) * 2 ^ lo := by rw [Nat.pow_add]; ring
  rw [e, Nat.add_mul_div_right _ _ (Nat.two_pow_pos lo), Nat.div_eq_of_lt h1, Nat.zero_add, Nat.add_mul_mod_self_right,
    Nat.mod_mod]

/-- A field that lies below or above the written one is unchanged. -/
theorem nbits_putBits_ne (v : Nat) {lo w lo' w' : Nat} (x : Nat) (h : lo' + w' ≤ lo ∨ lo + w ≤ lo') :
    nbits (putBits v lo w x) lo' w' = nbits v lo' w' := by
  unfold nbits
  apply Nat.eq_of_testBit_eq
  intro i
  simp only [Nat.testBit_mod_two_pow, Nat.testBit_div_two_pow]
  by_cases hi : i < w'
  · simp only [hi, decide_true, Bool.true_and]
    unfold putBits
    have e : v % 2 ^ lo + x % 2 ^ w * 2 ^ lo + v / 2 ^ (lo + w) * 2 ^ (lo + w)
        = 2 ^ (lo + w) * (v / 2 ^ (lo + w)) + (2 ^ lo * (x % 2 ^ w) + v % 2 ^ lo) := by ring
    have hlt : 2 ^ lo * (x % 2 ^ w) + v % 2 ^ lo < 2 ^ (lo + w) := by
      have h1 : v % 2 ^ lo < 2 ^ lo := Nat.mod_lt _ (Nat.two_pow_pos lo)
      have h2 : x % 2 ^ w < 2 ^ w := Nat.mod_lt _ (Nat.two_pow_pos w)
      calc _ < 2 ^ lo * (x % 2 ^ w) + 2 ^ lo := by omega
        _ = 2 ^ lo * (x % 2 ^ w + 1) := by ring
        _ ≤ 2 ^ lo * 2 ^ w := Nat.mul_le_mul_left _ (Nat.succ_le_of_lt h2)
        _ = 2 ^ (lo + w) := by rw [Nat.pow_add]
    rw [e, Nat.testBit_two_pow_mul_add _ hlt]
    rcases h with h | h
    · rw [if_pos (by omega), Nat.testBit_two_pow_mul_add _ (Nat.mod_lt _ (Nat.two_pow_pos lo)), if_pos (by omega),
        Nat.testBit_mod_two_pow]
      simp [show i + lo' < lo by omega]
    · rw [if_neg (by omega), Nat.testBit_div_two_pow]
      congr 1; omega
  · simp [hi]

theorem State.reg_setFld_ne {a b : Nat} (l n x : Nat) (h : b ≠ a) : (s.setFld a l n x).reg b = s.reg b :=
  s.reg_setReg_ne _ h

theorem State.fld_setFld_reg_ne {a b : Nat} (l n x lo w : Nat) (h : b ≠ a) : (s.setFld a l n x).fld b lo w = s.fld b lo w := by
  unfold State.fld; rw [s.reg_setFld_ne _ _ _ h]

theorem State.fld_setFld_same (a x : Nat) {l n : Nat} (h : l + n ≤ 32) : (s.setFld a l n x).fld a l n = x % 2 ^ n := by
  unfold State.fld State.setFld
  rw [State.reg_setReg_same, BitVec.toNat_ofNat, Nat.mod_eq_of_lt (putBits_lt h (s.reg a).isLt), nbits_putBits_same]

theorem State.fld_setFld_ne (a x : Nat) {l n lo w : Nat} (h : l + n ≤ 32) (h' : lo + w ≤ l ∨ l + n ≤ lo) :
    (s.setFld a l n x).fld a lo w = s.fld a lo w := by
  unfold State.fld State.setFld
  rw [State.reg_setReg_same, BitVec.toNat_ofNat, Nat.mod_eq_of_lt (putBits_lt h (s.reg a).isLt), nbits_putBits_ne _ _ h']

theorem State.bit_setBit_same (a : Nat) {i : Nat} (h : i < 32) : (s.setBit a i).bit a i = true := by
  simp [State.bit, State.setBit, s.fld_setFld_same a 1 (show i + 1 ≤ 32 by omega)]

theorem State.bit_clrBit_same (a : Nat) {i : Nat} (h : i < 32) : (s.clrBit a i).bit a i = false := by
  simp [State.bit, State.clrBit, s.fld_setFld_same a 0 (show i + 1 ≤ 32 by omega)]

theorem State.reg_setBit_ne {a b : Nat} (i : Nat) (h : b ≠ a) : (s.setBit a i).reg b = s.reg b := s.reg_setReg_ne _ h

theorem State.reg_clrBit_ne {a b : Nat} (i : Nat) (h : b ≠ a) : (s.clrBit a i).reg b = s.reg b := s.reg_setReg_ne _ h

/-! ### Accesses to registers -/

/-- A write that the page serves has its effect. -/
theorem State.access_ok {r : Req} {a : Nat} (k : State → State) (h : reach s r false a = .ok) :
    s.access r a k = k (s.reqStepped r) := by simp [State.access, h]

/-- A refused write is logged and has no other effect. -/
theorem State.access_refused {r : Req} {a c : Nat} (k : State → State) (h : reach s r false a = .refused c) :
    s.access r a k = (s.reqStepped r).regErr (devReg a) c r := by simp [State.access, h]

/-- A read that the page serves. -/
theorem State.readAccess_ok {r : Req} {a : Nat} (k : State → State) (n : Nat) (h : reach s r true a = .ok) :
    s.readAccess r a k n = k (s.reqStepped r) := by simp [State.readAccess, h]

@[simp] theorem State.reqStepped_pf : s.reqStepped .pf = s := rfl

@[simp] theorem State.reqStepped_vf (n : Fin 16) : s.reqStepped (.vf n) = s := rfl

end Sys2Proof.Machine
end

