-- ==== Sys2Proof/Laws/Plots.lean ====
section
/-!
SUPPORT. Laws/Plots.lean: what counting, waiting, recording and completing do to the plots: one lemma per shared operation of
PlotOps.lean.
-/
namespace Sys2Proof.Machine

variable (s : State)

/-- Two states with the same plots. -/
theorem SameBut.plot {w : List Fld} {s t : State} (h : SameBut w s t) (hw : Fld.plots ∉ w) (j : Nat) : t.plot j = s.plot j := by
  unfold State.plot; rw [h.plots hw]

/-- Two states with the same registers. -/
theorem SameBut.reg {w : List Fld} {s t : State} (h : SameBut w s t) (hw : Fld.regs ∉ w) (a : Nat) : t.reg a = s.reg a := by
  unfold State.reg; rw [h.regs hw]

@[simp] theorem State.count_plot (k i n j : Nat) : (s.count k i n).plot j = s.plot j :=
  (State.count_same k i n (SameBut.refl (msk := [.regs, .cnts]) s) rfl).plot (by decide) j

/-- Counting leaves the registers outside the counter set's page. -/
theorem State.count_reg (k i n a : Nat) (h : a ≠ cntPage k 0x044) : (s.count k i n).reg a = s.reg a := by
  unfold State.count; dsimp only; split
  · rw [State.reg_setBit_ne _ _ h]; simp
  · simp

@[simp] theorem State.ctrAdd_plot (k n a j : Nat) : (s.ctrAdd k n a).plot j = s.plot j :=
  (State.ctrAdd_same k n a (SameBut.refl (msk := [.regs]) s) rfl).plot (by decide) j

@[simp] theorem State.waitTake_plot (k y j : Nat) : (s.waitTake k y).plot j = s.plot j :=
  (State.waitTake_same k y (SameBut.refl (msk := [.regs]) s) rfl).plot (by decide) j

@[simp] theorem State.wpMatches_plot (k q tag j : Nat) : (s.wpMatches k q tag).plot j = s.plot j :=
  (State.wpMatches_same k q tag (SameBut.refl (msk := [.regs, .dbg]) s) rfl).plot (by decide) j

@[simp] theorem Plot.queue_zero (P : Plot) : P.queue 0 = P.qa := rfl

@[simp] theorem Plot.queue_one (P : Plot) : P.queue 1 = P.qv := rfl

@[simp] theorem Plot.queue_two (P : Plot) : P.queue 2 = P.qb := rfl

@[simp] theorem Plot.queue_three (P : Plot) : P.queue 3 = P.qn := rfl

@[simp] theorem Plot.queue_setQueue_same (P : Plot) (q : Nat) (x : PQueue) : (P.setQueue q x).queue q = x := by
  rcases q with _ | _ | _ | q <;> rfl

@[simp] theorem Plot.setQueue_arr (P : Plot) (q : Nat) (x : PQueue) : (P.setQueue q x).arr = P.arr := by
  rcases q with _ | _ | _ | q <;> rfl

/-- What completing leaves of a plot: everything but its records, its signals on their way and its held records. -/
structure PlotCore (P Q : Plot) : Prop where
  arr : Q.arr = P.arr
  acc : Q.acc = P.acc
  tank : Q.tank = P.tank
  entries : ∀ q, (Q.queue q).entries = (P.queue q).entries
  held : ∀ q, (Q.queue q).held = (P.queue q).held
  state : ∀ q, (Q.queue q).state = (P.queue q).state

theorem PlotCore.refl (P : Plot) : PlotCore P P := ⟨rfl, rfl, rfl, fun _ => rfl, fun _ => rfl, fun _ => rfl⟩

theorem PlotCore.trans {P Q R : Plot} (h : PlotCore P Q) (k : PlotCore Q R) : PlotCore P R :=
  ⟨k.arr.trans h.arr, k.acc.trans h.acc, k.tank.trans h.tank, fun q => (k.entries q).trans (h.entries q),
   fun q => (k.held q).trans (h.held q), fun q => (k.state q).trans (h.state q)⟩

theorem PlotCore.setQueue (P : Plot) (q : Nat) (x : PQueue) (h1 : x.entries = (P.queue q).entries)
    (h2 : x.held = (P.queue q).held) (h3 : x.state = (P.queue q).state) : PlotCore P (P.setQueue q x) := by
  unfold Plot.setQueue
  split <;> refine ⟨rfl, rfl, rfl, ?_, ?_, ?_⟩ <;> intro r <;> simp_all [Plot.queue] <;> (split <;> simp_all)

/-- A record changes one plot, and of it only its records. -/
theorem State.record_plot (k : Nat) (r : CplRec) (j : Nat) :
    PlotCore (s.plot j) ((s.record k r).plot j) ∧ (j ≠ k → (s.record k r).plot j = s.plot j) := by
  unfold State.record
  dsimp only
  split
  · exact ⟨PlotCore.refl _, fun _ => rfl⟩
  · split
    · have e : ∀ t : State, (if r.irq = true then t.irq (pqReg k 0) 0 else t).plot j = t.plot j := by
        intro t; split <;> simp
      rw [e, State.plot_setPlot]
      split
      · subst_vars; exact ⟨⟨rfl, rfl, rfl, fun _ => rfl, fun _ => rfl, fun _ => rfl⟩, fun h => absurd rfl h⟩
      · exact ⟨PlotCore.refl _, fun _ => rfl⟩
    · unfold State.updQueue
      rw [State.plot_updPlot]
      split
      · subst_vars; exact ⟨PlotCore.setQueue _ _ _ rfl rfl rfl, fun h => absurd rfl h⟩
      · exact ⟨PlotCore.refl _, fun _ => rfl⟩

theorem State.signal_plot (k y g j : Nat) :
    PlotCore (s.plot j) ((s.signal k y g).plot j) ∧ (j ≠ k → (s.signal k y g).plot j = s.plot j) := by
  unfold State.signal
  split
  · exact ⟨PlotCore.refl _, fun _ => rfl⟩
  · split
    · unfold State.plotToken
      split <;> simp [PlotCore.refl]
    · rw [State.plot_updPlot]
      split
      · subst_vars; exact ⟨⟨rfl, rfl, rfl, fun _ => rfl, fun _ => rfl, fun _ => rfl⟩, fun h => absurd rfl h⟩
      · exact ⟨PlotCore.refl _, fun _ => rfl⟩

@[simp] theorem State.runPoison_plot (k j : Nat) : (s.runPoison k).plot j = s.plot j := by
  exact (State.runPoison_same k (SameBut.refl (msk := [.parts]) s) rfl).plot (by decide) j

/-- Completing a descriptor changes one plot, and of it only its records and signals. -/
theorem State.complete_plot (k q : Nat) (d : Desc) (st j : Nat) :
    PlotCore (s.plot j) ((s.complete k q d st).plot j) ∧ (j ≠ k → (s.complete k q d st).plot j = s.plot j) := by
  unfold State.complete
  dsimp only
  rw [State.wpMatches_plot]
  have e : ∀ t : State, (if st = 0x10 then t.runPoison k else t).plot j = t.plot j := by
    intro t; split <;> simp
  rw [e]
  have h1 : ∀ t : State, PlotCore (t.plot j) ((if signals st = true then t.signal k (syncOf q d) (tagOf q d) else t).plot j) ∧
      (j ≠ k → (if signals st = true then t.signal k (syncOf q d) (tagOf q d) else t).plot j = t.plot j) := by
    intro t; split
    · exact t.signal_plot _ _ _ _
    · exact ⟨PlotCore.refl _, fun _ => rfl⟩
  generalize ht : (if signals st = true then s.signal k (syncOf q d) (tagOf q d) else s) = t at *
  have h := h1 s
  rw [ht] at h
  have h2 : ∀ c : Prop, ∀ _ : Decidable c, ∀ r, PlotCore (t.plot j) ((if c then t.record k r else t).plot j) ∧
      (j ≠ k → (if c then t.record k r else t).plot j = t.plot j) := by
    intro c _ r; split
    · exact t.record_plot _ _ _
    · exact ⟨PlotCore.refl _, fun _ => rfl⟩
  exact ⟨h.1.trans (h2 _ _ _).1, fun hj => ((h2 _ _ _).2 hj).trans (h.2 hj)⟩

/-- A rejection holds its queue and changes no other plot. -/
theorem State.rejectHold_plot (k q : Nat) (d : Desc) (st j : Nat) :
    (j ≠ k → (s.rejectHold k q d st).plot j = s.plot j) ∧
    ((s.rejectHold k q d st).plot k).arr = (s.plot k).arr ∧
    (((s.rejectHold k q d st).plot k).queue q).entries = ((s.plot k).queue q).entries ∧
    (((s.rejectHold k q d st).plot k).queue q).held = true ∧
    (((s.rejectHold k q d st).plot k).queue q).heldStatus = BitVec.ofNat 8 st := by
  unfold State.rejectHold State.updQueue
  have hj := s.record_plot k (cplRec s q d st true)
  refine ⟨fun h => ?_, ?_⟩
  · simp only [State.irq_others, State.plot_updPlot, if_neg h]; exact (hj j).2 h
  · simp only [State.irq_others, State.plot_updPlot_same]
    have h1 := (hj k).1
    generalize (s.record k (cplRec s q d st true)).plot k = Q at *
    simp [h1.arr, h1.entries]

end Sys2Proof.Machine
end

