-- ==== Sys2Proof/WellFormed.lean ====
section
/-!
DEFINITION. WellFormed.lean: which operands a command can carry. A die has only its own modules, sensors and stop
units; a flit has 64 bytes; a slice access stays inside the cistern; an access has a size of the bus.
-/
namespace Sys2Proof

/-- R174: a stack die has eight modules, the I/O die 64. -/
def wfMod (m : ModId) : Bool := m.die.val == 16 || decide (m.m.val < 8)

/-- R120: a flit carries 64 bytes. -/
def wfFlit (d : FlitData) : Bool := d.bytes.length == 64

/-- R206: a non-empty range of one cistern of 2 GiB. -/
def wfRange (off len : Nat) : Bool := decide (0 < len) && decide (off + len ≤ 2147483648)

/-- R524: a stack die has 13 sensors, the I/O die 8. -/
def wfSensor (die : Fin 17) (i : Fin 13) : Bool := die.val != 16 || decide (i.val < 8)

/-- R594: a stack die has at most 1,024 units of a kind (its banks), the I/O die fewer. -/
def wfUnit (u : UnitId) : Bool := decide (u.index < 1024)

/-- R8, R612: the sizes an access can have; all but 4 and 8 are answered as misaligned. -/
def wfSize (n : Nat) : Bool := n == 1 || n == 2 || n == 4 || n == 8

/-- R315: the link widths: no lane, or 1, 2, 4, 8 or 16. -/
def wfWidth (w : Fin 17) : Bool := w.val == 0 || w.val == 1 || w.val == 2 || w.val == 4 || w.val == 8 || w.val == 16

/-- The command's operands are ones that can occur. -/
def Instr.wf : Instr → Bool
  | .pwrGoodRise => true
  | .pwrGoodFall => true
  | .perstNAssert => true
  | .perstNRelease _ => true
  | .refclkSysAbsent => true
  | .refclkXngAbsent => true
  | .refclkXngStable => true
  | .flowPulse => true
  | .flowStop => true
  | .coolantSensorRead _ _ => true
  | .hardLimitTrip => true
  | .analogueComparatorTrip _ => true
  | .pstateDecision _ _ => true
  | .voutStepSettled _ _ => true
  | .clockSwitch _ _ => true
  | .lookaheadEntry _ _ => true
  | .boreStart _ _ => true
  | .boreEntryDone _ _ => true
  | .shadowLoadStart _ _ => true
  | .shadowLoaded _ _ => true
  | .sparseMetaReject _ _ => true
  | .passStart _ _ => true
  | .shadowFree _ _ => true
  | .vectorIssue _ _ => true
  | .accWrite _ _ _ => true
  | .drainRow _ _ => true
  | .arrRngHiWrite _ _ _ => true
  | .rampDownStart _ _ => true
  | .columnGroupDisable _ _ => true
  | .rampUpStart _ _ => true
  | .columnGroupEnable _ _ => true
  | .haltRequest _ _ => true
  | .arrayHalted _ _ => true
  | .arrCfgWrite _ _ _ => true
  | .stewardException _ _ _ => true
  | .stwWdogFault _ _ => true
  | .stwWdogKick _ _ => true
  | .stewardWatchdogExpiry _ => true
  | .pqPush _ _ _ => true
  | .stalledPushAccept _ => true
  | .vectorDescStart _ => true
  | .vectorDescComplete _ => true
  | .localSignalArrive _ _ => true
  | .vecRngHiWrite _ _ _ => true
  | .pqCplPop _ _ => true
  | .pqSkip _ _ _ => true
  | .pqFlush _ _ _ => true
  | .pqSetEn _ _ _ => true
  | .pqClrEn _ _ _ => true
  | .noriaDispatch _ => true
  | .bargeHandoff _ => true
  | .outputSlotWrite _ _ _ _ _ => true
  | .headgateWrite _ _ _ _ _ => true
  | .addToken _ _ _ _ => true
  | .creditToken _ _ _ _ => true
  | .fencedToken _ _ _ => true
  | .bargeGo _ _ _ => true
  | .wake _ _ => true
  | .markerToken u _ _ => wfUnit u
  | .reservedToken _ _ _ => true
  | .pqTokenTx _ _ _ => true
  | .tokenCounterWrite _ _ _ _ => true
  | .streamFlitSend _ _ => true
  | .streamFlitArrive _ _ _ _ _ data => wfFlit data
  | .headgateConsume _ _ => true
  | .creditBatchTimeout _ _ => true
  | .routerForward _ _ _ => true
  | .rhFenceSet _ _ _ _ => true
  | .d2dFrameReceive m _ => wfMod m
  | .replayRateTick m => wfMod m
  | .dfLinkRetrain _ m => wfMod m
  | .d2dRetrainDone m _ _ => wfMod m
  | .dfLinkDisable _ m _ => wfMod m
  | .d2dLinkDown _ _ => true
  | .cisternRead _ off len _ => wfRange off len
  | .cisternWrite _ off data _ _ => wfRange off data.length
  | .weirOpApply _ _ _ off operand _ _ => wfRange off operand.length && decide (operand.length ≤ 256)
  | .scatterAddPacketSend _ => true
  | .bankRefresh _ _ => true
  | .bandApply _ => true
  | .fillSegmentDone _ _ => true
  | .commonsCfgWrite _ _ _ => true
  | .demandScrub _ => true
  | .patrolScrub _ => true
  | .eccWindowTick _ => true
  | .errRptPop _ _ => true
  | .pprGo _ _ _ => true
  | .pprDone _ => true
  | .commonsRemapBegin _ _ => true
  | .commonsRemapWrite _ _ _ => true
  | .commonsRemapClear _ _ _ => true
  | .commonsRemapStart _ _ => true
  | .commonsRemapCancel _ _ => true
  | .remapCopyDone _ => true
  | .remapSwitch _ => true
  | .remapDone _ => true
  | .noriaCmdArrive _ => true
  | .noriaRetryResend _ => true
  | .bankPermitGrant _ _ => true
  | .noriaStepStart _ _ => true
  | .noriaStepEnd _ _ => true
  | .noriaXchkPeriod _ => true
  | .noriaXchkGo _ _ _ => true
  | .noriaXchkDone _ _ _ => true
  | .nwinPush _ _ => true
  | .nwinCplPop _ _ => true
  | .linkRecovery _ w => wfWidth w
  | .hotReset => true
  | .flrVf _ => true
  | .flrPf => true
  | .configRequest _ _ _ _ => true
  | .bar2Access _ write _ len data _ _ => !write || decide (data.length = len)
  | .atomicOp _ _ _ _ _ _ _ => true
  | .sqDoorbell _ _ _ => true
  | .cqDoorbell _ _ _ => true
  | .sqFetch _ => true
  | .hostReadCompletion _ _ _ _ => true
  | .completionTimeout _ _ => true
  | .loadGraph _ _ => true
  | .runGraph _ => true
  | .plotPartEnd _ => true
  | .runTimeout _ _ => true
  | .copy _ => true
  | .fill _ => true
  | .noriaOp _ list => decide (list.length % 64 = 0)
  | .fence _ => true
  | .signal _ => true
  | .wait _ => true
  | .waitPoll _ => true
  | .waitTimeout _ => true
  | .query _ => true
  | .selftest _ => true
  | .spareIn _ => true
  | .groupForm _ _ => true
  | .groupDissolve _ => true
  | .reservedOpcode _ => true
  | .ringSetEn _ _ => true
  | .ringClrEn _ _ => true
  | .partAssign _ _ _ => true
  | .partRemove _ _ _ => true
  | .partSetEn _ _ => true
  | .partClrEn _ _ => true
  | .partReset _ _ => true
  | .resettingEnd _ _ => true
  | .xngLightDetect _ => true
  | .xngEqualiseDone _ _ => true
  | .xngAlignDone _ _ => true
  | .xngPeerDone _ _ _ _ _ => true
  | .xngAuthDone _ _ => true
  | .xngStateTimeout _ => true
  | .xngDownExpiry _ => true
  | .codewordLockLoss _ => true
  | .xngRetrain _ _ => true
  | .xngRetrainDone _ _ => true
  | .xngFlitReceive _ flit _ plain => decide (flit.length = 256) && decide (plain.length = 256)
  | .tagGroupClose _ => true
  | .xngRekey _ _ => true
  | .rekeyDue _ => true
  | .xngErrorRateTick _ _ => true
  | .xngPacketSend _ => true
  | .join _ _ _ digest => decide (digest.length = 32)
  | .joinAck _ _ _ digest => decide (digest.length = 32)
  | .joinKeepExpiry _ => true
  | .grpTimeout _ => true
  | .heartbeatSend _ => true
  | .heartbeat _ _ _ => true
  | .heartbeatTimeout _ _ => true
  | .sever _ _ _ => true
  | .lost _ _ _ _ => true
  | .e2eCredit _ _ => true
  | .dataPacket _ _ _ _ like _ _ _ => decide (like.length = 16)
  | .collectiveDescriptor _ => true
  | .collectiveComplete _ _ => true
  | .ferryAdmission _ _ => true
  | .ferryLost _ _ => true
  | .ferryReadmit _ _ => true
  | .coreRelease _ _ _ => true
  | .coreAtomic _ _ _ _ _ _ _ _ _ => true
  | .coreTokenTx _ _ _ => true
  | .mediaSubmitPush _ _ => true
  | .mediaJobStart _ => true
  | .mediaPictureOutput _ _ => true
  | .mediaJobComplete _ _ => true
  | .mediaCplPop _ _ => true
  | .ownerWrite _ _ _ => true
  | .svnCommit _ => true
  | .revokeSubmit _ => true
  | .keyEngineRequestDone _ => true
  | .spdmRequest _ _ => true
  | .ideIntegrityFail _ => true
  | .lockInterface _ => true
  | .stopInterface _ => true
  | .dbgTokenSubmit token viaJtag => !viaJtag || decide (token.length = 1024)
  | .rngHealthFail => true
  | .bootStageComplete _ _ => true
  | .bootWatchdog => true
  | .floodBlock _ _ _ => true
  | .floodRepairRequest => true
  | .floodRoundEnd => true
  | .coldReset _ _ => true
  | .warmReset _ => true
  | .clrAttempts _ => true
  | .nextSlot _ _ => true
  | .sstoreRead _ => true
  | .sstoreProgram _ => true
  | .sstoreErase _ => true
  | .sstoreDone _ => true
  | .plotReset _ _ _ _ => true
  | .reachReset _ _ _ => true
  | .resetDrainEnd _ => true
  | .resetRelease _ _ _ => true
  | .fltPropPop _ => true
  | .selftestStart _ => true
  | .selftestDone _ _ _ => true
  | .busyTimeout _ => true
  | .spareCopyDone _ _ _ _ _ => true
  | .functionSetEn _ _ => true
  | .functionClrEn _ _ => true
  | .functionStopped _ => true
  | .drainLimitExpiry _ => true
  | .sensorSample die i _ _ => wfSensor die i
  | .thermalLoop _ => true
  | .sensorMean100ms _ _ => true
  | .powerEstimate _ _ => true
  | .adaptiveLevelLower _ => true
  | .startPermitGrant _ _ _ => true
  | .coolantEstimate => true
  | .govResume _ => true
  | .tollSample power _ => decide (power.length ≤ 20)
  | .feedFrame _ _ => true
  | .feedGap => true
  | .tollSecond _ => true
  | .tollSummary => true
  | .identify _ => true
  | .status _ => true
  | .readRecord _ => true
  | .readSummary _ => true
  | .signRange _ => true
  | .readAudit _ => true
  | .calibrate _ _ _ => true
  | .mbBadOpcode _ => true
  | .tollMbDone _ => true
  | .tollCalEnChange _ => true
  | .cntSample _ _ => true
  | .soundingGo _ => true
  | .soundingDone => true
  | .stopGo _ => true
  | .markerPacket u _ _ => wfUnit u
  | .unitSnapshot u => wfUnit u
  | .markerTimeout u _ => wfUnit u
  | .stopForce => true
  | .stopRelease _ => true
  | .dbgRecSel _ _ => true
  | .dbgRecReady => true
  | .watchPointFire _ => true
  | .dbgAccess _ => true
  | .hdrLockSet _ _ size => wfSize size
  | .hdrIrqForce _ _ size _ => wfSize size
  | .registerPairLoRead _ _ size => wfSize size
  | .rcRead _ _ size => wfSize size
  | .registerWrite _ _ size _ => wfSize size
  | .bargeTimerDue _ => true
  | .bargeUnitComplete _ => true
  | .brgSubmitPush _ _ => true
  | .brgCtrlGo _ _ _ => true
  | .brgCplPop _ _ => true
  | .startInterface _ => true
  | .dmiAccess _ => true

end Sys2Proof
end

