-- ==== Sys2Proof/Tests/Slice0.lean ====
section
/-!
SUPPORT. Slice0.lean: the model's own tests. Each names a small state and one command of it: the state meets the hypotheses of the
clause that a statement makes about the command, and the command does what that clause says. The terms that WellFormed must refuse
stand at the end.
-/
namespace Sys2Proof.Tests
open Sys2Proof.Machine

set_option Elab.async false

/-- The outcome is a next state of which `f` holds. -/
def gives (o : Out) (f : State → Bool) : Bool :=
  match o with
  | .next t => f t
  | _ => false

/-- A package in READY with stack 0 out of reset in running partition 0. -/
def up : State :=
  ((({ pins := { pwrGood := true, perst := false } } : State).setFld (bootReg 0x040) 5 2 1).setStk 0 { inReset := false }).setPart 0
    { assigned := true, first := 0, sizeLog2 := 0, state := .running }

/-- The first plot. -/
def p0 : PlotId := ⟨0, 0⟩

/-- `up` with a first plot. -/
def withPlot (P : Plot) : State := up.setPlot 0 P

/-- `up` with a first plot's array. -/
def withArr (A : Arr) : State := withPlot { arr := A }

/-! ### The machine -/

theorem test_step_takes_the_front :
    gives (step { up with pending := [.flowPulse, .feedGap] }) (fun t => t.pending == [.feedGap] && t.coolant.pulses == 1) = true := by
  decide

theorem test_step_idles : gives (step up) (fun t => t.tb == up.tb + 1) = true := by decide

theorem test_reset_inv : Inv State.reset := by constructor <;> decide

theorem test_reset_values : (State.reset.reg (arrReg 0 0x048)).toNat = 1 ∧ State.reset.fld (arrReg 511 0x040) 0 4 = 6 := by decide

/-! ### Arrays -/

/-- A legal FP8 pass of 16 vectors out of the tank. -/
def passDesc (wload : Nat) : Desc := [BitVec.ofNat 32 (wload * 16 + 3 * 256 + 3 * 8192), 16, 0, 0, 0, 0, 64]

/-- The pass with its load resolved. -/
def pass (w : WLoad) : Pass := { seq := 5, desc := passDesc 0, wload := w, rowsLeft := 16 }

/-- A sparse tile that breaks the index rule. -/
def badTile : Tile := { sparse := true, bytes := List.replicate 16 0xFF }

theorem test_lookahead_enters :
    lookaheadOk (withPlot { qa := { entries := [passDesc 1] } }) 0 7 = true ∧ passCheck up 0 (passDesc 1) = none ∧
    gives (exec (.lookaheadEntry p0 7) (withPlot { qa := { entries := [passDesc 1] } }))
      (fun t => (t.plot 0).qa.entries == [] && (t.arr 0).lane.map (·.wload) == [.bore] && (t.arr 0).now == 7) = true := by decide

theorem test_lookahead_rejects :
    passCheck up 0 [0x80000000, 0] = some 7 ∧
    gives (exec (.lookaheadEntry p0 7) (withPlot { qa := { entries := [[0x80000000, 0]] } }))
      (fun t => (t.plot 0).qa.held && (t.plot 0).qa.heldStatus == 7 && (t.arr 0).lane == []) = true := by decide

theorem test_bore_starts :
    boreOk (withArr { lane := [pass .bore] }) 0 9 = true ∧
    gives (exec (.boreStart p0 9) (withArr { lane := [pass .bore] })) (fun t => (t.arr 0).feed.isSome) = true := by decide

theorem test_bore_done :
    boreDoneOk (withArr { lane := [pass .bore], feed := some ⟨5, true, 3, {}⟩ }) 0 67 = true ∧
    boreDoneOk (withArr { lane := [pass .bore], feed := some ⟨5, true, 3, {}⟩ }) 0 66 = false ∧
    gives (exec (.boreEntryDone p0 67) (withArr { lane := [pass .bore], feed := some ⟨5, true, 3, {}⟩ }))
      (fun t => (t.arr 0).transit == some (5, {}) && (t.arr 0).feed.isNone) = true := by decide

theorem test_shadow_starts :
    shadowLoadOk (withArr { lane := [pass .gate] }) 0 9 = true ∧
    gives (exec (.shadowLoadStart p0 9) (withArr { lane := [pass .gate] })) (fun t => (t.arr 0).shadow == .loading) = true := by decide

theorem test_shadow_done :
    shadowDoneOk (withArr { lane := [pass .gate], feed := some ⟨5, false, 3, {}⟩ }) 0 67 = true ∧
    gives (exec (.shadowLoaded p0 67) (withArr { lane := [pass .gate], feed := some ⟨5, false, 3, {}⟩ }))
      (fun t => (t.arr 0).shadow == .loaded && (t.arr 0).shadowTile == (5, {})) = true := by decide

theorem test_sparse_rejected :
    sparseBadOk (withArr { lane := [pass .bore], feed := some ⟨5, true, 3, badTile⟩ }) 0 4 = true ∧
    gives (exec (.sparseMetaReject p0 4) (withArr { lane := [pass .bore], feed := some ⟨5, true, 3, badTile⟩ }))
      (fun t => (t.arr 0).feed.isNone && (t.plot 0).qa.held && (t.plot 0).qa.heldStatus == 3) = true := by decide

theorem test_shadow_frees :
    shadowFreeOk (withArr { shadow := .swapping, swapAt := 3 }) 0 130 = true ∧
    shadowFreeOk (withArr { shadow := .swapping, swapAt := 3 }) 0 129 = false ∧
    gives (exec (.shadowFree p0 130) (withArr { shadow := .swapping, swapAt := 3 })) (fun t => (t.arr 0).shadow == .free) = true := by
  decide

/-- An array whose head pass may start with weights that it bored. -/
def boredArr : Arr := { lane := [pass .bore], groupsOn := 8, transit := some (5, {}) }

/-- An array whose head pass may start with the shadow set. -/
def gateArr : Arr := { lane := [pass .gate], groupsOn := 8, shadow := .loaded, shadowTile := (5, { loaded := true }) }

theorem test_pass_starts :
    passStartOk (withArr { lane := [pass .keep], groupsOn := 8 }) 0 3 = true ∧ passStartOk (withArr boredArr) 0 3 = true ∧
    gives (exec (.passStart p0 3) (withArr boredArr))
      (fun t => (t.arr 0).transit.isNone && (t.arr 0).lastBore == some 3 && (t.arr 0).slotAt == 3) = true := by decide

theorem test_pass_takes_the_shadow :
    passStartOk (withArr gateArr) 0 3 = true ∧
    gives (exec (.passStart p0 3) (withArr gateArr))
      (fun t => (t.arr 0).active.loaded && (t.arr 0).shadow == .swapping && (t.arr 0).swapAt == 3) = true := by decide

/-- A started pass. -/
def runArr : Arr := { lane := [{ pass .keep with started := true }], groupsOn := 8 }

theorem test_vector_issues :
    issueOk (withArr runArr) 0 4 = true ∧ slotKind runArr { pass .keep with started := true } 4 = .valid ∧
    gives (exec (.vectorIssue p0 4) (withArr runArr)) (fun t => (t.arr 0).vecs.map (fun v => (v.row, v.e)) == [(0, 4)]) = true := by
  decide

theorem test_slot_passes_empty :
    issueOk (withArr { runArr with groupsOn := 0 }) 0 4 = true ∧
    gives (exec (.vectorIssue p0 4) (withArr { runArr with groupsOn := 0 })) (fun t => (t.arr 0).vecs == [] && (t.arr 0).slotAt == 5) =
      true := by decide

theorem test_ramp_goes_down :
    rampDownOk ((withArr { groupsOn := 8 }).setBit (arrReg 0 0x040) 5) 0 256 = true ∧
    gives (exec (.rampDownStart p0 256) ((withArr { groupsOn := 8 }).setBit (arrReg 0 0x040) 5))
      (fun t => match (t.arr 0).ramp with | .down t0 _ => t0 == 256 | _ => false) = true := by decide

theorem test_group_goes_off :
    groupOffOk (withArr { groupsOn := 8, ramp := .down 4 2 }) 0 6 = true ∧ groupOffOk (withArr { groupsOn := 1, ramp := .down 4 2 }) 0 20 = true ∧
    gives (exec (.columnGroupDisable p0 20) (withArr { groupsOn := 1, ramp := .down 4 2 })) (fun t => (t.arr 0).groupsOn == 0) = true := by
  decide

theorem test_ramp_goes_up :
    rampUpOk (withArr { lane := [pass .keep] }) 0 3 = true ∧
    gives (exec (.rampUpStart p0 3) (withArr { lane := [pass .keep] }))
      (fun t => match (t.arr 0).ramp with | .up t0 _ fr => t0 == 3 && fr == 0 | _ => false) = true := by decide

theorem test_group_goes_on :
    groupOnOk (withArr { groupsOn := 7, ramp := .up 4 2 0 }) 0 20 = true ∧
    gives (exec (.columnGroupEnable p0 20) (withArr { groupsOn := 7, ramp := .up 4 2 0 })) (fun t => (t.arr 0).groupsOn == 8) = true := by
  decide

theorem test_halt_requested :
    haltInForce ((withArr {}).updStk 0 fun T => { T with halt := true }) 0 = true ∧
    gives (exec (.haltRequest p0 3) ((withArr {}).updStk 0 fun T => { T with halt := true }))
      (fun t => (t.arr 0).haltReq && t.bit (pqReg 0 0x06C) 15) = true := by decide

theorem test_array_halts :
    gives (exec (.arrayHalted p0 3) (withArr { haltReq := true })) (fun t => (t.arr 0).halted) = true := by decide

/-- An array with a row that waits for its drain. -/
def drainArr (ready : Bool) : Arr := { rows := [{ seq := 5, row := 1, index := 0, ready := ready }] }

theorem test_arr_rng_loads :
    reach up .pf false (arrReg 0 0x04C) = .ok ∧
    gives (exec (.arrRngHiWrite .pf p0 9) up) (fun t => (t.arr 0).rng == rngSeed 9 1) = true ∧
    gives (exec (.arrRngHiWrite .pf p0 9) (withArr (drainArr true)))
      (fun t => (t.arr 0).rng == 1 && (t.arr 0).rngArm == some (rngSeed 9 1)) = true := by decide

theorem test_arr_cfg_written :
    reach up .pf false (arrReg 0 0x040) = .ok ∧
    gives (exec (.arrCfgWrite .pf p0 0x2C) up) (fun t => t.fld (arrReg 0 0x040) 0 6 == 0x2C) = true ∧
    gives (exec (.arrCfgWrite .pf p0 0x2D) up) (fun t => t.fld (arrReg 0 0x040) 0 4 == 6 && t.bit (arrReg 0 0x044) 16) = true := by decide

/-- A vector whose column 0 is written in cycle 64. -/
def vec0 : Vec := { seq := 5, row := 3, e := 0, two := false, acc := false, int := true, drain := false, poison := false, sums := [7, 9] }

theorem test_column_written :
    accWriteOk (withArr { vecs := [vec0] }) 0 0 64 = true ∧ writing { vecs := [vec0] } 0 64 = some vec0 ∧
    gives (exec (.accWrite p0 0 64) (withArr { vecs := [vec0] })) (fun t => accGet (t.plot 0) 3 0 == 7) = true := by decide

theorem test_row_drains :
    drainOk (withArr (drainArr true)) 0 70 = true ∧ (drainHead (drainArr true)).isSome = true ∧
    gives (exec (.drainRow p0 70) (withArr (drainArr true))) (fun t => (t.arr 0).rows.all (·.conv)) = true := by decide
/-! ### Plot queues, the vector unit, tokens and stream ends -/

/-- A vector copy of 4 INT8 elements from 64 to 128 that waits for 2 at counter 1. -/
def copyDesc : Desc := [0x01 + 0x0C * 0x100 + 0x0C * 0x2000, 64, 0, 0, 128, 3, 0x0241]

/-- A descriptor of an operation that does not exist. -/
def badVec : Desc := [0xFF]

theorem test_vector_starts :
    vecCheck copyDesc = none ∧
    vecStartOk ((withPlot { qv := { entries := [copyDesc, badVec] } }).setFld (ctrReg 0 1) 0 16 5) 0 = true ∧
    gives (exec (.vectorDescStart p0) ((withPlot { qv := { entries := [copyDesc, badVec] } }).setFld (ctrReg 0 1) 0 16 5))
      (fun t => (t.plot 0).qv.entries == [badVec] && (t.plot 0).vec == some ⟨copyDesc⟩ && tokCtr t 0 1 == 3) = true := by decide

theorem test_vector_rejected :
    vecCheck badVec = some 8 ∧ vecStartOk (withPlot { qv := { entries := [badVec] } }) 0 = true ∧
    gives (exec (.vectorDescStart p0) (withPlot { qv := { entries := [badVec] } }))
      (fun t => (t.plot 0).qv.held && (t.plot 0).qv.heldStatus == 8 && (t.plot 0).qv.entries == [badVec]) = true := by decide

theorem test_vector_completes :
    vecDoneOk (withPlot { vec := some ⟨copyDesc⟩, tank := [(64, 9), (66, 8)] }) 0 = true ∧
    gives (exec (.vectorDescComplete p0) (withPlot { vec := some ⟨copyDesc⟩, tank := [(64, 9), (66, 8)] }))
      (fun t => (t.plot 0).vec.isNone && (t.plot 0).tank == [(64, 9), (66, 8), (128, 9), (130, 8)]) = true := by decide +kernel

theorem test_vec_rng_loads :
    reach up .pf false (pqReg 0 0x078) = .ok ∧
    gives (exec (.vecRngHiWrite .pf p0 7) up) (fun t => (t.plot 0).vrng == rngSeed 7 1) = true ∧
    gives (exec (.vecRngHiWrite .pf p0 7) (withPlot { vec := some ⟨copyDesc⟩ }))
      (fun t => (t.plot 0).vrng == 1 && (t.plot 0).vrngArm == some (rngSeed 7 1)) = true := by decide

theorem test_push_enters :
    reach up .pf false (pqReg 0 0x040) = .ok ∧
    gives (exec (.pqPush .pf p0 0) (withPlot { qa := { window := [3, 4] } }))
      (fun t => (t.plot 0).qa.entries.map (fun d => (dw d 0, dw d 1, dw d 15, d.length)) == [(3, 4, 0, 16)]) = true := by decide

theorem test_push_is_dropped :
    qFull (withPlot { qa := { entries := List.replicate 16 [] } }) 0 0 = true ∧
    gives (exec (.pqPush .pf p0 0) (withPlot { qa := { entries := List.replicate 16 [] } }))
      (fun t => (t.plot 0).qa.entries.length == 16 && t.bit (pqReg 0 0x014) 6) = true ∧
    reach (withPlot { stw := { released := true } }) (.steward p0) false (pqReg 0 0x040) = .ok ∧
    gives (exec (.pqPush (.steward p0) p0 0) (withPlot { qa := { entries := List.replicate 16 [] } , stw := { released := true } }))
      (fun t => (t.plot 0).stall == some 0) = true := by decide

theorem test_stalled_push_goes :
    stalledOk (withPlot { stall := some 0, qa := { window := [3] } }) 0 = true ∧
    gives (exec (.stalledPushAccept p0) (withPlot { stall := some 0, qa := { window := [3] } }))
      (fun t => (t.plot 0).stall.isNone && (t.plot 0).qa.entries.length == 1) = true := by decide

theorem test_signal_counts :
    signalOk (withPlot { sigs := [3] }) 0 3 = true ∧
    gives (exec (.localSignalArrive p0 3) ((withPlot { sigs := [3] }).setFld (ctrReg 0 3) 0 16 65535))
      (fun t => (t.plot 0).sigs == [] && tokCtr t 0 3 == 65535) = true ∧
    gives (exec (.localSignalArrive p0 3) (withPlot { sigs := [3, 3] })) (fun t => (t.plot 0).sigs == [3] && tokCtr t 0 3 == 1) = true := by
  decide

theorem test_counter_written :
    reach up .pf false (ctrReg 0 63) = .ok ∧
    gives (exec (.tokenCounterWrite .pf p0 63 0x12345) up) (fun t => tokCtr t 0 63 == 0x2345) = true := by decide

theorem test_token_leaves :
    reach up .pf false (pqReg 0 0x064) = .ok ∧
    tokDestOk up (partOf up 0) ⟨0, 5⟩ = true ∧
    gives (exec (.pqTokenTx .pf p0 (0x1081 + 5 * 0x200000)) up)
      (fun t => t.net.map (fun x => (x.cls, x.msg)) == [(3, Msg.add ⟨0, 5⟩ ⟨0, 0⟩ 2 1)]) = true := by decide

theorem test_token_refused :
    tokDestOk up (partOf up 0) ⟨1, 0⟩ = false ∧
    gives (exec (.pqTokenTx .pf p0 0x11081) up) (fun t => t.net == [] && t.bit (pqReg 0 0x014) 4) = true := by decide

theorem test_skip_and_flush :
    reach up .pf false (pqReg 0 0x044) = .ok ∧
    gives (exec (.pqSkip .pf p0 1) (withPlot { qv := { entries := [badVec, copyDesc], held := true, heldStatus := 8 } }))
      (fun t => (t.plot 0).qv.entries == [copyDesc] && !(t.plot 0).qv.held) = true ∧
    gives (exec (.pqFlush .pf p0 1) (withPlot { qv := { entries := [badVec, copyDesc] } })) (fun t => (t.plot 0).qv.entries == []) = true := by
  decide

theorem test_queue_stops_and_runs :
    queueLimit up 0 ≠ 0 ∧
    gives (exec (.pqClrEn .pf p0 0) (withPlot { qa := { entries := [passDesc 0] } }))
      (fun t => (t.plot 0).qa.state == .stopping && (t.plot 0).qa.entries == []) = true ∧
    gives (exec (.pqSetEn .pf p0 0) (withPlot { qa := { state := .stopped } })) (fun t => (t.plot 0).qa.state == .running) = true := by decide

/-- A completion record. -/
def rec0 : CplRec := { tag := 7, queue := 1, rejected := false, status := 0, irq := false, time := 0x55 }

theorem test_pop_answers :
    reach up .pf true (pqReg 0 0x058) = .ok ∧
    gives (exec (.pqCplPop .pf p0) up) (fun t => t.reply == { data := [0, 0, 0, 0] }) = true ∧
    gives (exec (.pqCplPop .pf p0) (withPlot { cpl := [rec0] }))
      (fun t => t.reply == { data := leBytes 4 (cplWord rec0) } && tget none t.caps (pqReg 0 0x05C) == some 0x55 && (t.plot 0).cpl == []) =
      true := by decide

/-- `up` with a slot that may open. -/
def slotReady : State := (up.setFld (slotReg 0 31 2) 0 9 8).setFld (slotReg 0 31 1) 0 5 0

theorem test_slot_opens :
    reach up .pf false (slotReg 0 31 0) = .ok ∧ slotOpenOk slotReady 0 31 0x10007 = true ∧
    gives (exec (.outputSlotWrite .pf p0 31 0 0x10007) slotReady) (fun t => slotValid t 0 31 && slotCredit t 0 31 == 8) = true ∧
    slotOpenOk up 0 31 0x10007 = false ∧
    gives (exec (.outputSlotWrite .pf p0 31 0 0x10007) up) (fun t => !slotValid t 0 31 && t.bit (pqReg 0 0x014) 4) = true := by decide

theorem test_open_slot_is_kept :
    reach up .pf false (slotReg 0 31 2) = .ok ∧
    gives (exec (.outputSlotWrite .pf p0 31 2 9) (slotReady.setFld (slotReg 0 31 0) 0 17 0x10007))
      (fun t => slotCredits t 0 31 == 8 && t.bit (pqReg 0 0x014) 4) = true := by decide

theorem test_headgate_opens :
    reach up .pf false (hgReg 0 2 0) = .ok ∧ hgOpenOk (up.setFld (hgReg 0 2 2) 0 9 256) 0 2 0x10007 = true ∧
    gives (exec (.headgateWrite .pf p0 2 0 0x10007) (up.setFld (hgReg 0 2 2) 0 9 256)) (fun t => hgValid t 0 2 && hgId t 0 2 == 7) = true ∧
    hgOpenOk (up.setFld (hgReg 0 2 2) 0 9 257) 0 2 0x10007 = false ∧
    gives (exec (.headgateWrite .pf p0 2 0 0x10007) (up.setFld (hgReg 0 2 2) 0 9 257))
      (fun t => !hgValid t 0 2 && t.bit (pqReg 0 0x014) 4) = true := by decide

theorem test_open_headgate_is_kept :
    gives (exec (.headgateWrite .pf p0 2 2 9) ((up.setFld (hgReg 0 2 2) 0 9 256).setFld (hgReg 0 2 0) 0 17 0x10007))
      (fun t => hgDepth t 0 2 == 256 && t.bit (pqReg 0 0x014) 4) = true := by decide
/-! ### The fabric, streams and links -/

theorem test_add_counts :
    plotUp up 0 = true ∧
    gives (exec (.addToken p0 ⟨1, 0⟩ 5 63) (up.setFld (ctrReg 0 5) 0 16 65500)) (fun t => tokCtr t 0 5 == 65535) = true := by decide

theorem test_credit_counts :
    gives (exec (.creditToken p0 ⟨1, 0⟩ 31 6) ((slotReady.setFld (slotReg 0 31 0) 0 17 0x10007).setFld (slotReg 0 31 3) 0 9 3))
      (fun t => slotCredit t 0 31 == 8) = true := by decide

theorem test_fenced_marks_its_slot :
    slotValid (slotReady.setFld (slotReg 0 31 0) 0 17 0x10007) 0 31 = true ∧
    gives (exec (.fencedToken p0 ⟨1, 0⟩ 31) (slotReady.setFld (slotReg 0 31 0) 0 17 0x10007)) (fun t => slotFenced t 0 31) = true := by
  decide

theorem test_go_counts :
    gives (exec (.bargeGo p0 ⟨1, 0⟩ 2) up) (fun t => (t.chan 2).goPend == 1) = true ∧
    gives (exec (.bargeGo p0 ⟨1, 0⟩ 2) (up.updChan 2 fun C => { C with goPend := 255 }))
      (fun t => (t.chan 2).goPend == 255 && t.bit (brgReg 2 0x044) 10) = true := by decide

theorem test_wake_and_reserved :
    gives (exec (.wake p0 ⟨1, 0⟩) up) (fun t => t.bit (pqReg 0 0x014) 2) = true ∧ tokenReserved 0x7000 = true ∧ tokenReserved 0x1040 = true ∧
    gives (exec (.reservedToken p0 ⟨1, 0⟩ 0x1040) up) (fun t => t.bit (pqReg 0 0x014) 4) = true := by decide

/-- `up` with the first plot fenced. -/
def fenced0 : State := up.setBit (rhReg 0 0 0x040) 0

theorem test_fenced_plot_drops :
    plotUp fenced0 0 = true ∧ fenced fenced0 0 = true ∧
    gives (exec (.addToken p0 ⟨1, 0⟩ 5 1) fenced0) (fun t => tokCtr t 0 5 == 0 && t.fld (rhReg 0 0 0x088) 0 16 == 1) = true ∧
    gives (exec (.streamFlitArrive ⟨0, 0⟩ 2 7 ⟨1, 3⟩ 4 ⟨[], 0⟩) fenced0)
      (fun t => t.net.map (fun x => (x.cls, x.dst, x.msg)) == [(3, ⟨1, 3⟩, Msg.fenced ⟨1, 3⟩ ⟨0, 0⟩ 4)]) = true := by decide

theorem test_fence_set :
    reach up .pf false (rhReg 0 1 0x040) = .ok ∧
    gives (exec (.rhFenceSet .pf 0 1 0x81) up) (fun t => fenced t 8 && fenced t 15 && !fenced t 9) = true := by decide

/-- A flit of zeros. -/
def flit0 : FlitData := ⟨List.replicate 64 0, 0⟩

/-- `up` with slot 3 open to endpoint 0 of the I/O die and a drained flit for it. -/
def sendReady : State :=
  (((withArr { outQ := [⟨5, 3, flit0, true⟩] }).setFld (slotReg 0 3 0) 0 17 0x10007).setFld (slotReg 0 3 3) 0 9 2).setFld (slotReg 0 3 1) 0 10 16

theorem test_flit_leaves :
    plotRun sendReady 0 = true ∧ (feedingRow (sendReady.readyChans 0) 0 3).isSome = true ∧ slotCredit (sendReady.readyChans 0) 0 3 = 2 ∧
    gives (exec (.streamFlitSend p0 3) sendReady)
      (fun t => slotCredit t 0 3 == 1 && (t.arr 0).outQ == [] && t.net.map (fun x => (x.cls, x.dst)) == [(0, ⟨16, 0⟩)]) = true := by decide

/-- `up` with headgate 2 open and `fill` flits in its ring. -/
def hgOpen (A : Arr) (fill : Nat) : State :=
  ((((withArr A).setFld (hgReg 0 2 0) 0 17 0x10007).setFld (hgReg 0 2 2) 0 9 8).setFld (hgReg 0 2 4) 0 9 fill)

theorem test_flit_enters_the_ring :
    hgRefuses (hgOpen {} 7) 0 2 7 ⟨1, 3⟩ 4 = none ∧
    gives (exec (.streamFlitArrive ⟨0, 0⟩ 2 7 ⟨1, 3⟩ 4 flit0) (hgOpen {} 7))
      (fun t => hgFill t 0 2 == 8 && (tget ({} : Hg) (t.plot 0).hgs 2).src == some (1, 3, 4)) = true ∧
    hgRefuses (hgOpen {} 8) 0 2 7 ⟨1, 3⟩ 4 = some 7 := by decide

/-- A started pass that takes its elements from headgate 2. -/
def streamPass : Pass := { pass .keep with started := true, desc := [0x40000000 + 3 * 0x100 + 3 * 0x2000, 16, 0, 0, 0, 2, 64] }

theorem test_flit_is_consumed :
    passTakes ((hgOpen { lane := [streamPass] } 3).readyChans 0) 0 2 = some false ∧
    gives (exec (.headgateConsume p0 2) (hgOpen { lane := [streamPass] } 3)) (fun t => hgFill t 0 2 == 2 && (t.arr 0).preE.length == 1) = true := by
  decide

theorem test_credit_goes_back :
    gives (exec (.creditBatchTimeout p0 2) ((hgOpen {} 0).updPlot 0 fun P => { P with hgs := [(2, { src := some (1, 3, 4), owed := 130 })] }))
      (fun t => (tget ({} : Hg) (t.plot 0).hgs 2).owed == 3 && t.net.map (·.msg) == [Msg.credit ⟨1, 3⟩ ⟨0, 0⟩ 4 127]) = true := by decide

/-- A token on its way from site 0 to logical plot 3 of stack 0. -/
def tok0 : NetPkt := ⟨0, 0, 4, 3, ⟨0, 0⟩, ⟨0, 3⟩, .wake ⟨0, 3⟩ ⟨0, 0⟩⟩

/-- The same as a stream flit. -/
def pkt0 : NetPkt := { tok0 with cls := 0, msg := .flit ⟨0, 3⟩ 2 7 ⟨0, 0⟩ 4 flit0 }

/-- `up` with logical plot 3 at site 1 and a packet at site 0. -/
def routing : State := { up.setFld (dfReg 0 0x040) 24 6 1 with net := [pkt0] }

set_option maxRecDepth 20000 in
theorem test_router_moves_a_packet :
    routerGo routing 0 0 1 = true ∧ waitingAt routing 0 0 1 true = [] ∧
    pickRound 0 (waitingAt routing 0 0 1 false) = some pkt0 ∧
    gives (exec (.routerForward 0 0 1) routing) (fun t => t.net == [{ pkt0 with site := 1, inp := 3 }]) = true := by decide

/-- Module 0 of stack 0. -/
def m0 : ModId := ⟨0, 0⟩

/-- `up` with module 0 of stack 0 ACTIVE. -/
def linked : State := up.setFld (linkReg 0 0) 0 2 2

theorem test_bad_frame_is_naked :
    modDieUp linked m0 = true ∧ linkUp linked 0 0 = true ∧ frameOk (List.replicate 64 1) = false ∧
    gives (exec (.d2dFrameReceive m0 (List.replicate 64 1)) linked)
      (fun t => (t.link 0).nak && t.wire == [Msg.frame 0 0 (ctrlFrame {} true)]) = true := by decide +kernel

/-- A payload frame of zeros with sequence number 0. -/
def frame0 : List Byte :=
  List.replicate 60 0 ++ leBytes 4 (crc32 (List.replicate 1020 0)) ++ List.replicate 960 0

set_option maxRecDepth 20000 in
theorem test_frame_is_delivered :
    frameOk frame0 = true ∧ frameNak frame0 = false ∧ frameSeq frame0 = 0 ∧ frame0.length = 1024 ∧
    gives (exec (.d2dFrameReceive m0 frame0) linked) (fun t => (t.link 0).delivered.length == 1 && (t.link 0).rxSeq == 1) = true := by
  decide +kernel

theorem test_replay_rate_retrains :
    gives (exec (.replayRateTick m0) (linked.updLink 0 fun L => { L with secReplays := 60000, overSecs := 254 }))
      (fun t => linkState t 0 0 == 1 && t.bit (linkReg 0 0) 5 && (t.link 0).secReplays == 0) = true ∧
    gives (exec (.replayRateTick m0) linked) (fun t => linkState t 0 0 == 2) = true := by decide

theorem test_link_retrains_and_disables :
    reach linked .pf false (linkReg 0 0 + 4) = .ok ∧ modOk m0 = true ∧
    gives (exec (.dfLinkRetrain .pf m0) linked) (fun t => linkState t 0 0 == 1) = true ∧
    gives (exec (.dfLinkDisable .pf m0 true) linked) (fun t => linkState t 0 0 == 3 && t.bit (linkReg 0 0 + 4) 1) = true ∧
    gives (exec (.dfLinkDisable .pf m0 false) (up.setFld (linkReg 0 0) 0 2 3)) (fun t => linkState t 0 0 == 1) = true := by decide

theorem test_retrain_ends :
    training (up.setFld (linkReg 0 0) 0 2 1) m0 = true ∧
    gives (exec (.d2dRetrainDone m0 true 0) (up.setFld (linkReg 0 0) 0 2 1)) (fun t => linkState t 0 0 == 2) = true ∧
    gives (exec (.d2dRetrainDone m0 false 0) ((up.setFld (linkReg 0 0) 0 2 1).updLink 0 fun L => { L with fails := 2 }))
      (fun t => linkState t 0 0 == 3) = true := by decide

theorem test_far_end_lost :
    (modsTo 0 15).isEmpty = false ∧ farDown up 0 15 = true ∧
    gives (exec (.d2dLinkDown 0 15) ((up.setReqTab 15 [⟨⟨0, 0⟩, false⟩]).setBit (dfReg 0 0x060) 0))
      (fun t => t.reqTab 15 == [] && !t.bit (dfReg 0 0x060) 0) = true := by decide

set_option maxRecDepth 20000 in
theorem test_stack_lost :
    (modsTo 16 0).isEmpty = false ∧ farDown up 16 0 = true ∧
    gives (exec (.d2dLinkDown 16 0) up) (fun t => (t.stk 0).lost && (t.stk 0).inReset) = true := by decide +kernel
/-! ### Barges -/

/-- Move 4 bytes from 0 to 64 of the tank at once. -/
def moveDesc : Desc := [0, 0, 0, 64, 0, 3, 0, 1, 0, 0, 1]

/-- The same as units of one innermost run, every 100 µs, by its timer. -/
def timedDesc : Desc := [0x1000 + 0x4000, 0, 0, 64, 0, 0x10001, 0, 1, 2, 0, 1, 2, 0, 1000]

theorem test_barge_takes_its_descriptor :
    bCheck up 0 moveDesc = none ∧ handoffOk (withPlot { qb := { entries := [moveDesc, timedDesc] } }) 0 = true ∧
    gives (exec (.bargeHandoff p0) (withPlot { qb := { entries := [moveDesc, timedDesc] } }))
      (fun t => (t.plot 0).qb.entries == [timedDesc] && (t.chan 0).desc == some moveDesc) = true := by decide

theorem test_barge_rejects :
    bCheck up 0 [6 * 4] = some 7 ∧
    gives (exec (.bargeHandoff p0) (withPlot { qb := { entries := [[6 * 4]] } }))
      (fun t => (t.plot 0).qb.held && (t.plot 0).qb.heldStatus == 7 && (t.chan 0).desc.isNone) = true := by decide

theorem test_submit_stands_in_line :
    reach up .pf false (brgReg 2049 0x058) = .ok ∧
    gives (exec (.brgSubmitPush .pf 1) (up.updChan 2049 fun C => { C with state := .running, desc := some moveDesc, window := [3] }))
      (fun t => (t.chan 2049).queue.map (·.1.take 2) == [[3, 0]]) = true := by decide

theorem test_submit_is_dropped :
    gives (exec (.brgSubmitPush .pf 1) up) (fun t => (t.chan 2049).queue == [] && t.bit (brgReg 2049 0x014) 1) = true ∧
    gives (exec (.brgSubmitPush .pf 1) (up.updChan 2049 fun C => { C with state := .running, queue := List.replicate 4 ([], none) }))
      (fun t => (t.chan 2049).queue.length == 4 && t.bit (brgReg 2049 0x014) 0) = true := by decide

theorem test_go_by_register :
    reach up .pf false (brgReg 2 0x040) = .ok ∧
    gives (exec (.brgCtrlGo .pf (.plot p0 2) false) up) (fun t => (t.chan 2).goPend == 1) = true ∧
    gives (exec (.brgCtrlGo .pf (.plot p0 2) true) (up.updChan 2 fun C => { C with goPend := 9 })) (fun t => (t.chan 2).goPend == 0) = true := by
  decide

theorem test_barge_pop :
    reach up .pf true (brgReg 2049 0x060) = .ok ∧
    gives (exec (.brgCplPop .pf 1) up) (fun t => t.reply == { data := [0, 0, 0, 0] }) = true ∧
    gives (exec (.brgCplPop .pf 1) (up.updChan 2049 fun C => { C with cpl := [rec0] }))
      (fun t => t.reply == { data := [7, 0, 0, 0x80] } && (t.chan 2049).cpl == []) = true := by decide

/-- A channel in the middle of the move. -/
def moving : State :=
  (withPlot { tank := [(0, 5), (3, 6)] }).updChan 0 fun C => { C with phase := .moving, desc := some moveDesc }

theorem test_unit_moves_its_bytes :
    unitOk (moving.ready 0) 0 = true ∧ ((moving.ready 0).chan 0).desc = some moveDesc ∧
    gives (exec (.bargeUnitComplete (.plot p0 0)) moving)
      (fun t => (t.plot 0).tank == [(0, 5), (3, 6), (64, 5), (67, 6)] && (t.chan 0).desc.isNone) = true := by decide +kernel

/-- A timed channel that waits for its next start. -/
def waitGo : State := up.updChan 0 fun C => { C with phase := .waitGo, desc := some timedDesc, unit := 1, grid := 1 }

theorem test_timer_starts_a_unit :
    bCheck up 0 timedDesc = none ∧ bUnits timedDesc = 2 ∧ timerOk (waitGo.pump 0) 0 = true ∧ ((waitGo.pump 0).chan 0).desc = some timedDesc ∧
    gives (exec (.bargeTimerDue (.plot p0 0)) waitGo) (fun t => (t.chan 0).phase == .moving && (t.chan 0).grid == 2) = true := by
  decide +kernel

theorem test_timer_counts_late :
    gives (exec (.bargeTimerDue (.plot p0 0)) (waitGo.updChan 0 fun C => { C with phase := .moving, unit := 0 }))
      (fun t => (t.chan 0).late && t.fld (brgReg 0 0x050) 0 16 == 1) = true ∧
    gives (exec (.bargeTimerDue (.plot p0 0)) (waitGo.updChan 0 fun C => { C with phase := .moving, unit := 0, late := true }))
      (fun t => t.fld (brgReg 0 0x050) 16 16 == 1) = true := by decide +kernel
/-! ### Cisterns -/

/-- `up` with bytes in the first cistern. -/
def stored : State := { up with dram := [(64, 0x11), (65, 0x22)] }

/-- The same with the word poisoned. -/
def poisoned : State := { stored with chk := [(2, 0x5AA55AA5)] }

theorem test_cistern_read :
    readGo stored 0 64 2 = true ∧ inCistern 64 2 = true ∧
    gives (exec (.cisternRead p0 64 2 .port) stored) (fun t => t.reply == { data := [0x11, 0x22] }) = true ∧
    rawChk poisoned 0 2 = poisonMark ∧
    gives (exec (.cisternRead p0 64 2 .port) poisoned) (fun t => t.reply.poison) = true := by
  decide +kernel

theorem test_cistern_write :
    writeGo stored 0 64 32 = true ∧ flipOn stored 0 .port = false ∧
    gives (exec (.cisternWrite p0 64 (List.replicate 32 7) false .port) stored) (fun t => t.dram.length == 32 && tget 0 t.dram 95 == 7) =
      true ∧
    gives (exec (.cisternWrite p0 64 (List.replicate 32 7) true .port) stored) (fun t => rawChk t 0 2 == poisonMark) = true := by
  decide +kernel

theorem test_held_write_waits :
    gives (exec (.cisternWrite p0 64 [9] false .port) (stored.updStk 0 fun T => { T with applied := 4 }))
      (fun t => t.dram == stored.dram && (t.slc 0).held == [.write 64 [9] false]) = true ∧
    bandHeld (stored.updStk 0 fun T => { T with applied := 4 }) 0 = true := by decide

theorem test_weir_adds :
    weirOk 0x6 3 8 = true ∧ writeGo stored 0 64 8 = true ∧ rawChk stored 0 (64 / 32) = 0 ∧ flipOn stored 0 .rmw = false ∧
    gives (exec (.weirOpApply p0 0x6 3 64 [0xF0, 0xFF, 0, 0, 0, 0, 0, 0] false true) stored)
      (fun t => t.dram == [(64, 0x01), (65, 0x22), (66, 0x01)] && t.reply.data == [0x11, 0x22, 0, 0, 0, 0, 0, 0]) = true := by decide

theorem test_refresh_counts :
    gives (exec (.bankRefresh p0 31) up) (fun t => tget 0 (t.slc 0).refreshAt 31 == 1) = true := by decide

theorem test_band_comes_into_force :
    bandDue (up.setFld (smReg 0 0x040) 0 3 2) 0 = true ∧
    gives (exec (.bandApply 0) (up.setFld (smReg 0 0x040) 0 3 2)) (fun t => (t.stk 0).applied == 2) = true := by decide +kernel

theorem test_fill_zeroes_its_segment :
    fillGo (stored.updSlc 0 fun S => { S with fill := some ⟨1, 0⟩ }) 0 0 = true ∧
    gives (exec (.fillSegmentDone p0 0) (stored.updSlc 0 fun S => { S with fill := some ⟨1, 0⟩ }))
      (fun t => t.dram == [] && t.bit (slcReg 0 0x048) 8) = true := by
  decide +kernel

/-- The check bytes that one wrong bit 0 of a word of zeros would leave. -/
def oneBit : State := (up.setSlc 0 { demand := [(0, 0)] })

theorem test_demand_scrub :
    burstWaits oneBit 0 0 = false ∧ gives (exec (.demandScrub p0) oneBit) (fun t => (t.slc 0).demand == []) = true := by decide

theorem test_patrol_goes_on :
    patrolGo (up.setFld (slcReg 0 0x050) 0 32 100) 0 = patrolGo up 0 ∧ patrolGo up 0 = true ∧
    gives (exec (.patrolScrub p0) up) (fun t => patrolPos t 0 == 1) = true := by
  decide +kernel

theorem test_window_closes :
    gives (exec (.eccWindowTick 0) ((({ up with tb := 100000000000000 } : State).setBit (smReg 0 0x800) 31).setFld (smReg 0 0x818) 0 4 8))
      (fun t => !t.bit (smReg 0 0x818) 3) = true ∧ stackUp up 0 = true := by
  decide +kernel

/-- An error report. -/
def rpt0 : ErrRpt := { code := 4, sev := 1, die := 2, plot := 3, addr := 0x123456789, time := 77 }

theorem test_report_popped :
    reach up .pf true (errReg 0 0x040) = .ok ∧
    gives (exec (.errRptPop .pf 0) up) (fun t => t.reply == { data := [0, 0, 0, 0] }) = true ∧
    gives (exec (.errRptPop .pf 0) (up.setErrf 0 { recs := [rpt0] }))
      (fun t => t.reply == { data := leBytes 4 (rptWord rpt0) } && (t.errf 0).recs == [] && (t.errf 0).w1 == 0x23456789 && (t.errf 0).w3 == 77) =
      true := by
  decide +kernel

theorem test_ppr_starts :
    reach up .pf false (slcReg 0 0x068) = .ok ∧ sparesLeft up 0 31 = 64 ∧
    gives (exec (.pprGo .pf p0 (0x80000000 + 5 * 32 + 31)) up)
      (fun t => (t.slc 0).ppr.map (fun x => (x.bank, x.row)) == some (31, 5) && t.fld (slcReg 0 0x06C) 0 2 == 1) = true ∧
    gives (exec (.pprGo .pf p0 (0x80000000 + 5 * 32 + 31)) (up.setSlc 0 { spareUsed := [(31, 64)] }))
      (fun t => t.fld (slcReg 0 0x06C) 0 6 == 7) = true := by
  decide +kernel

theorem test_ppr_done :
    gives (exec (.pprDone p0) (up.setSlc 0 { ppr := some ⟨31, 5, 2⟩ }))
      (fun t => (t.slc 0).ppr.isNone && tget 0 (t.slc 0).rowMap (31 * 32768 + 5) == 3 && tget 0 (t.slc 0).spareUsed 31 == 1) = true := by
  decide +kernel

/-- `up` in a state of the commons remap of partition 0. -/
def remapAt (st : Nat) (r : Remap) : State := (up.updPart 0 fun P => { P with remap := r }).setFld (comReg 0 0x06C) 0 3 st

theorem test_commons_cfg :
    isMgmt .pf = true ∧ reach up .pf false (comReg 0 0x040) = .ok ∧ commonsCfgOk up 0 0 = true ∧
    gives (exec (.commonsCfgWrite .pf 0 0) up) (fun t => t.fld (comReg 0 0x040) 0 20 == 0) = true ∧
    commonsCfgOk up 0 0xFFFFF = false ∧
    gives (exec (.commonsCfgWrite .pf 0 0xFFFFF) up) (fun t => t.bit (comReg 0 0x040) 31) = true := by decide

theorem test_remap_begins_and_cancels :
    reach up .pf false (comReg 0 0x05C) = .ok ∧ remapState up 0 = 0 ∧
    gives (exec (.commonsRemapBegin .pf 0) (remapAt 0 { cur := [(3, some ⟨1, 2⟩)] }))
      (fun t => remapState t 0 == 1 && (t.part 0).remap.stage == [(3, some ⟨1, 2⟩)]) = true ∧
    remapState (remapAt 2 {}) 0 = 2 ∧
    gives (exec (.commonsRemapCancel .pf 0) (remapAt 2 { stage := [(3, some ⟨1, 2⟩)] }))
      (fun t => remapState t 0 == 0 && (t.part 0).remap.stage == []) = true := by decide

theorem test_remap_stages :
    gives (exec (.commonsRemapWrite .pf 0 511) ((remapAt 1 {}).setReg (comReg 0 0x060) 7))
      (fun t => tget none (t.part 0).remap.stage 511 == some ⟨7, 0⟩) = true ∧
    gives (exec (.commonsRemapClear .pf 0 511) (remapAt 1 { stage := [(511, some ⟨1, 2⟩)] })) (fun t => (t.part 0).remap.stage == []) =
      true := by
  decide +kernel

theorem test_remap_starts :
    (firstBad up 0 []).isSome = false ∧
    gives (exec (.commonsRemapStart .pf 0) (remapAt 1 {})) (fun t => remapState t 0 == 2) = true ∧
    (firstBad up 0 [(0, some ⟨0xFFFFFFFF, 2⟩)]).isSome = true ∧
    gives (exec (.commonsRemapStart .pf 0) (remapAt 1 { stage := [(0, some ⟨0xFFFFFFFF, 2⟩)] })) (fun t => remapState t 0 == 4) = true := by
  decide

theorem test_remap_ends :
    moverGo (remapAt 2 {}) 0 = true ∧ moverLost (remapAt 2 {}) 0 = false ∧
    gives (exec (.remapCopyDone 0) (remapAt 2 {})) (fun t => remapState t 0 == 3) = true ∧
    partRunning ((remapAt 3 {}).updPart 0 fun P => { P with state := .stopped }) 0 = false ∧
    gives (exec (.remapSwitch 0) ((remapAt 3 { stage := [(3, some ⟨1, 2⟩)] }).updPart 0 fun P => { P with state := .stopped }))
      (fun t => (t.part 0).remap.cur == [(3, some ⟨1, 2⟩)] && t.fld (comReg 0 0x058) 0 16 == 1) = true ∧
    gives (exec (.remapDone 0) (remapAt 3 { switching := true, stage := [(3, some ⟨1, 2⟩)] }))
      (fun t => remapState t 0 == 0 && (t.part 0).remap.stage == []) = true := by decide
/-! ### The noria -/

/-- Add the constant 1.0 to one FP32 element of bank 0, into offset 4,096 of the bank. -/
def addDesc : Desc := [0x00080002, 0, 0, 0x200, 1, 0, 0, 0, 4096, 0, 0, 0x3F800000]

/-- `up` with what the first plot has sent to its own cistern, and commands at the slice. -/
def norAt (out : List NorOut) (q : List NorCmd) : State := (withPlot { norOut := out }).setNor 0 { queue := q }

theorem test_noria_leaves_the_queue :
    norDispatchOk ((withPlot { qn := { entries := [addDesc.set 1 0x0241] } }).setFld (ctrReg 0 1) 0 16 5) 0 = true ∧
    gives (exec (.noriaDispatch p0) ((withPlot { qn := { entries := [addDesc.set 1 0x0241] } }).setFld (ctrReg 0 1) 0 16 5))
      (fun t => (t.plot 0).qn.entries == [] && (t.plot 0).norOut.map (·.seq) == [0] && tokCtr t 0 1 == 3) = true := by decide

theorem test_noria_accepted :
    norSent (norAt [⟨7, addDesc, .sent⟩] []) (.plot p0 7) = some (addDesc, some 0, 0) ∧ norCheck up (some 0) false 0 addDesc = none ∧
    gives (exec (.noriaCmdArrive (.plot p0 7)) (norAt [⟨7, addDesc, .sent⟩] []))
      (fun t => (t.nor 0).queue.map (·.desc) == [addDesc]) = true := by decide

theorem test_noria_sent_back :
    gives (exec (.noriaCmdArrive (.plot p0 7)) (norAt [⟨7, addDesc, .sent⟩] (List.replicate 16 { src := .plot p0 1, desc := addDesc })))
      (fun t => (t.nor 0).queue.length == 16 && (t.plot 0).norOut.map (·.way) == [.retry]) = true ∧
    gives (exec (.noriaRetryResend (.plot p0 7)) (norAt [⟨7, addDesc, .retry⟩] [])) (fun t => (t.plot 0).norOut.map (·.way) == [.sent]) =
      true := by decide

theorem test_noria_rejected :
    norCheck up (some 0) false 0 (addDesc.set 0 0x000800FF) = some 0x30 ∧
    gives (exec (.noriaCmdArrive (.plot p0 7)) (norAt [⟨7, addDesc.set 0 0x000800FF, .sent⟩] []))
      (fun t => (t.plot 0).qn.held && (t.plot 0).qn.heldStatus == 0x30 && (t.nor 0).queue == []) = true := by decide

theorem test_window_push :
    reach up .pf false (partReg 0 0x048) = .ok ∧
    gives (exec (.nwinPush .pf 0) (up.updPart 0 fun P => { P with window := [3] }))
      (fun t => (t.part 0).winQ.map (fun c => c.desc.take 2) == [[3, 0]]) = true ∧
    gives (exec (.nwinPush .pf 0) (up.updPart 0 fun P => { P with winQ := List.replicate 32 ⟨0, [], none, .sent⟩ }))
      (fun t => (t.part 0).winQ.length == 32 && t.bit (partReg 0 0x04C) 6) = true := by decide

theorem test_window_pop :
    reach up .pf true (partReg 0 0x050) = .ok ∧
    gives (exec (.nwinCplPop .pf 0) up) (fun t => t.reply == { data := [0, 0, 0, 0] }) = true ∧
    gives (exec (.nwinCplPop .pf 0) (up.updPart 0 fun P => { P with winCpl := [⟨7, 0, false, false⟩] }))
      (fun t => t.reply == { data := [7, 0, 0, 0x80] } && (t.part 0).winCpl == []) = true := by decide

/-- The add at work in its slice, with the operand 2.0. -/
def working (permits stepping : Word) : State :=
  { (norAt [⟨7, addDesc, .accepted⟩] []).setNor 0
      { queue := [{ src := .plot p0 7, desc := addDesc }], permits := permits, stepping := stepping } with dram := [(3, 0x40)] }

theorem test_bank_permit :
    bankPermitOk (working 0 0) 0 0 = true ∧
    gives (exec (.bankPermitGrant p0 0) (working 0 0)) (fun t => (t.nor 0).permits == 1) = true := by decide

theorem test_step_starts :
    stepOk (working 1 0) 0 0 = true ∧ gives (exec (.noriaStepStart p0 0) (working 1 0)) (fun t => (t.nor 0).stepping == 1) = true := by
  decide

theorem test_step_adds :
    (norRunning (working 1 1) 0 0).isSome = true ∧ ((runStep (working 1 1) 0 0 { src := .plot p0 7, desc := addDesc }).slc 0).held = [] ∧
    gives (exec (.noriaStepEnd p0 0) (working 1 1))
      (fun t => (t.nor 0).stepping == 0 && t.dram.map (·.2) == [0x40, 0x40, 0x40]) = true := by decide

theorem test_xchk_starts :
    reach up .pf false (norReg 0 0x050) = .ok ∧
    gives (exec (.noriaXchkGo .pf p0 0x80000003) up) (fun t => xchkState t 0 == 1 && (t.nor 0).xchk == 8 && (t.nor 0).xchkGo) = true ∧
    up.fld (norReg 0 0x04C) 0 16 ≠ 0 ∧
    gives (exec (.noriaXchkPeriod p0) up) (fun t => xchkState t 0 == 1 && (t.nor 0).xchk == 0xFFFFFFFF) = true := by decide

theorem test_xchk_ends :
    xchkOk (up.setNor 0 { xchk := 8, xchkGo := true }) 0 3 = true ∧
    gives (exec (.noriaXchkDone p0 3 true) ((up.setNor 0 { xchk := 8, xchkGo := true }).setBit (norReg 0 0x048) 3))
      (fun t => !t.bit (norReg 0 0x048) 3 && (t.nor 0).xchk == 0 && t.fld (norReg 0 0x054) 8 8 == 1) = true ∧
    gives (exec (.noriaXchkDone p0 3 false) (up.setNor 0 { xchk := 8 }))
      (fun t => t.bit (norReg 0 0x048) 3 && t.bit (norReg 0 0x014) 0 && t.fld (norReg 0 0x054) 16 8 == 1) = true := by decide
/-! ### Ring commands -/

/-- Ring 0 of virtual function 1, which partition 0 owns. -/
def g4 : RingId := ⟨1, 0⟩

/-- A command of eight 64-bit words, the first with the opcode and tag 7. -/
def cmdOf (w : List Nat) : Cmd := { id := 9, bytes := w.flatMap (leBytes 8), head := 1 }

/-- `up` with a command at the front of a running ring that has room for its completion. -/
def ringed (w : List Nat) : State :=
  (up.setRing 4 { state := .running, queue := [cmdOf w] }).setFld (ringReg 4 0x10) 4 4 4

/-- The command completes with this status. -/
def answered (s : State) (w : List Nat) (status value : Nat) (t : State) : Bool :=
  (t.ring 4).queue.isEmpty && t.wire.any fun m =>
    match m with
    | .hostWrite f _ data _ => f == 1 && data == cplBytes s 4 (cmdOf w) status value
    | _ => false

theorem test_command_refused :
    refusal ((ringed [0x70006]).updPart 0 fun P => { P with state := .stopped }) 4 (cmdOf [0x70006]) = some 4 ∧
    frontCmd ((ringed [0x70006]).updPart 0 fun P => { P with state := .faulted }) 4 (· == 6) = some (cmdOf [0x70006]) ∧
    refusal ((ringed [0x70006]).updPart 0 fun P => { P with state := .faulted }) 4 (cmdOf [0x70006]) = some 0x12 ∧
    gives (exec (.fence g4) ((ringed [0x70006]).updPart 0 fun P => { P with state := .faulted }))
      (answered (ringed [0x70006]) [0x70006] 0x12 0) = true := by decide

theorem test_reserved_opcode :
    frontCmd (ringed [0x7000D]) 4 (fun o => o == 0 || decide (12 < o)) = some (cmdOf [0x7000D]) ∧
    gives (exec (.reservedOpcode g4) (ringed [0x7000D])) (answered (ringed [0x7000D]) [0x7000D] 1 0) = true := by decide

/-- COPY of 64 bytes: 0 from the host, 1 to the host, 2 inside the device. -/
def copyCmd (way src dst : Nat) : List Nat := [0x70003, way, src, dst, 64]

theorem test_copy_from_host :
    Starts (ringed (copyCmd 0 0x1000 0x200)) 4 3 (cmdOf (copyCmd 0 0x1000 0x200)) ∧
    addrOk (ringed (copyCmd 0 0x1000 0x200)) (some 0) 0x200 64 = true ∧
    gives (exec (.copy g4) (ringed (copyCmd 0 0x1000 0x200)))
      (fun t => (t.func 1).reads.map (fun r => (r.ring, r.cmd, r.addr, r.len)) == [(4, some 9, 0x1000, 64)]) = true := by
  refine ⟨⟨by decide, by decide⟩, by decide, by decide⟩

theorem test_copy_to_host :
    Starts (ringed (copyCmd 1 64 0x1000)) 4 3 (cmdOf (copyCmd 1 64 0x1000)) ∧ devReadGo (ringed (copyCmd 1 64 0x1000)) 64 64 = true ∧
    gives (exec (.copy g4) { ringed (copyCmd 1 64 0x1000) with dram := [(64, 9)] })
      (fun t => t.wire.head? == some (.hostWrite 1 0x1000 (9 :: List.replicate 63 0) false) && (t.ring 4).queue == []) = true := by
  refine ⟨⟨by decide, by decide⟩, by decide +kernel, by decide +kernel⟩

theorem test_copy_inside :
    Starts (ringed (copyCmd 2 64 0x200)) 4 3 (cmdOf (copyCmd 2 64 0x200)) ∧ copyChans (ringed (copyCmd 2 64 0x200)) 0 = [] ∧
    gives (exec (.copy g4) (ringed (copyCmd 2 64 0x200))) (answered (ringed (copyCmd 2 64 0x200)) (copyCmd 2 64 0x200) 0x0B 0) = true := by
  refine ⟨⟨by decide, by decide⟩, by decide, by decide⟩

theorem test_fill :
    Starts (ringed [0x70004, 0, 64, 0]) 4 4 (cmdOf [0x70004, 0, 64, 0]) ∧
    gives (exec (.fill g4) (ringed [0x70004, 0, 64, 0])) (answered (ringed [0x70004]) [0x70004] 0x0B 0) = true ∧
    copyChans (((ringed [0x70004, 0, 64, 0]).setFld (brgReg 2048 0x040) 8 5 0).updChan 2048 fun C => { C with state := .running }) 0 = [] := by
  refine ⟨⟨by decide, by decide⟩, by decide, by decide +kernel⟩

theorem test_noria_op :
    Starts (ringed [0x70005, 0, 0x1000, 1]) 4 5 (cmdOf [0x70005, 0, 0x1000, 1]) ∧
    gives (exec (.noriaOp g4 (List.replicate 64 0)) (ringed [0x70005, 0, 0x1000, 1])) (fun t => (t.ring 4).running.map (·.id) == [9]) = true := by
  refine ⟨⟨by decide, by decide⟩, by decide⟩

theorem test_fence_completes :
    Starts (ringed [0x70006]) 4 6 (cmdOf [0x70006]) ∧ fenceWaits (ringed [0x70006]) 4 (cmdOf [0x70006]) = [] ∧
    gives (exec (.fence g4) (ringed [0x70006])) (answered (ringed [0x70006]) [0x70006] 0 0) = true := by
  refine ⟨⟨by decide, by decide⟩, by decide, by decide⟩

/-- The same ring with a command that runs before it. -/
def busy (w : List Nat) : State := (ringed w).updRing 4 fun R => { R with running := [{ cmdOf [0x70002] with id := 3 }] }

theorem test_fence_waits :
    Starts (busy [0x70006]) 4 6 (cmdOf [0x70006]) ∧ fenceWaits (busy [0x70006]) 4 (cmdOf [0x70006]) = [(4, 3)] ∧
    gives (exec (.fence g4) (busy [0x70006])) (fun t => (t.ring 4).running.map (·.st) == [.waiting, .fence [(4, 3)]]) = true := by
  refine ⟨⟨by decide, by decide⟩, by decide, by decide⟩

theorem test_signal_memory :
    Starts (ringed [0x70007, 0, 64, 5]) 4 7 (cmdOf [0x70007, 0, 64, 5]) ∧ devWriteGo (ringed [0x70007, 0, 64, 5]) 64 8 = true ∧
    gives (exec (.signal g4) { ringed [0x70007, 0, 64, 5] with dram := [(64, 9)] }) (fun t => t.dram == [(64, 14)]) = true := by
  refine ⟨⟨by decide, by decide⟩, by decide, by decide +kernel⟩

theorem test_signal_token :
    Starts (ringed [0x70007, 1, 0x3F0000, 63]) 4 7 (cmdOf [0x70007, 1, 0x3F0000, 63]) ∧
    gives (exec (.signal g4) (ringed [0x70007, 1, 0x3F0000, 63]))
      (fun t => t.net.map (·.msg) == [Msg.add ⟨0, 0⟩ landingLoc 63 63] && answered (ringed []) [0x70007] 0 0 t) = true := by
  refine ⟨⟨by decide, by decide⟩, by decide⟩

theorem test_wait_starts :
    Starts (ringed [0x70008, 0, 64, 5]) 4 8 (cmdOf [0x70008, 0, 64, 5]) ∧
    gives (exec (.wait g4) (ringed [0x70008, 0, 64, 5])) (fun t => (t.ring 4).running.map (·.id) == [9]) = true := by
  refine ⟨⟨by decide, by decide⟩, by decide⟩

/-- A running WAIT for 5 at 64, with a limit. -/
def waitingRing : State := (ringed []).setRing 4 { state := .running, running := [cmdOf [0x70008, 0, 64, 5, 100]] }

theorem test_wait_polls :
    waitRunning waitingRing 4 = some (cmdOf [0x70008, 0, 64, 5, 100]) ∧ landingRuns waitingRing = true ∧ devReadGo waitingRing 64 8 = true ∧
    gives (exec (.waitPoll g4) { waitingRing with dram := [(64, 4)] }) (fun t => (t.ring 4).running.length == 1 && t.wire == []) = true ∧
    gives (exec (.waitPoll g4) { waitingRing with dram := [(64, 5)] }) (fun t => (t.ring 4).running == [] && t.wire.length == 1) = true := by
  decide +kernel

theorem test_wait_times_out :
    gives (exec (.waitTimeout g4) waitingRing) (fun t => (t.ring 4).running == [] && t.wire.length == 1) = true := by decide

theorem test_query :
    Starts (ringed [0x70009, 0, 0x1000, 32]) 4 9 (cmdOf [0x70009, 0, 0x1000, 32]) ∧
    gives (exec (.query g4) (ringed [0x70009, 0, 0x1000, 32])) (answered (ringed []) [0x70009] 0 32) = true := by
  refine ⟨⟨by decide, by decide⟩, by decide +kernel⟩

theorem test_selftest :
    Starts (ringed [0x7000A, 0, 0x500, 1]) 4 10 (cmdOf [0x7000A, 0, 0x500, 1]) ∧ testScope 1 = some 0 ∧ scopeIndexOk (ringed []) 0 0 5 = true ∧
    gives (exec (.selftest g4) (ringed [0x7000A, 0, 0x500, 1])) (fun t => t.faults.tests.map (fun x => (x.test, x.stack, x.idx)) == [(1, 0, 5)]) = true := by
  refine ⟨⟨by decide, by decide⟩, by decide, by decide, by decide⟩

theorem test_selftest_not_permitted :
    testScope 9 = some 4 ∧ scopeIndexOk (ringed []) 4 0 0 = true ∧ Starts (ringed [0x7000A, 4, 0, 9]) 4 10 (cmdOf [0x7000A, 4, 0, 9]) ∧
    gives (exec (.selftest g4) (ringed [0x7000A, 4, 0, 9])) (fun t => answered (ringed []) [0x7000A, 4, 0, 9] 5 0 t && t.faults.tests == []) = true := by
  refine ⟨by decide, by decide, ⟨by decide, by decide⟩, by decide⟩

theorem test_spare_in :
    Starts (ringed [0x7000B, 1, 0x500]) 4 11 (cmdOf [0x7000B, 1, 0x500]) ∧ notQuiesced (ringed [0x7000B, 1, 0x500]) 4 0 = false ∧
    (spareSites (ringed []) 0).head? = some 1 ∧
    gives (exec (.spareIn g4) (ringed [0x7000B, 1, 0x500])) (fun t => t.faults.spares.map (fun x => (x.stack, x.plot, x.site, x.lost)) == [(0, 5, 1, true)]) =
      true := by
  refine ⟨⟨by decide, by decide⟩, by decide, by decide +kernel, by decide +kernel⟩

theorem test_load_graph_refused :
    Starts (ringed [0x70001, 0, 0x1000, 512]) 4 1 (cmdOf [0x70001, 0, 0x1000, 512]) ∧
    loadRefusal (ringed []) 0 0 (List.replicate 512 0) = some 7 ∧
    gives (exec (.loadGraph g4 (List.replicate 512 0)) (ringed [0x70001, 0, 0x1000, 512]))
      (fun t => answered (ringed []) [0x70001, 0, 0x1000, 512] 7 0 t && !(t.slot 0 0).loaded) = true := by
  refine ⟨⟨by decide, by decide⟩, by decide +kernel, by decide +kernel⟩

/-- Partition 0 with a graph on plot 0 in slot 7. -/
def withSlot (w : List Nat) (run : Option GraphRun) : State :=
  (ringed w).updPart 0 fun P => { P with slots := [(7, { plots := [(0, 0)], loaded := true, run := run })] }

theorem test_run_graph :
    Starts (withSlot [0x70002, 0x7] none) 4 2 (cmdOf [0x70002, 0x7]) ∧
    gives (exec (.runGraph g4) ((withSlot [0x70002, 0x7] none).setFld (ctrReg 0 1) 0 16 5))
      (fun t => (t.slot 0 7).runNo == 1 && (t.slot 0 7).run.isSome && (t.plot 0).stw.released && tokCtr t 0 1 == 0) = true := by
  refine ⟨⟨by decide, by decide⟩, by decide +kernel⟩

/-- A run of the graph that nobody has answered. -/
def run0 : GraphRun := { owner := (4, 9), startAt := 0, timeout := 10 }

/-- The run with its steward released. -/
def graphRuns : State := (withSlot [] (some run0)).setPlot 0 { stw := { released := true } }

theorem test_plot_part_ends :
    plotRun graphRuns 0 = true ∧ queueEmpty graphRuns 0 0 = true ∧ runOf graphRuns 0 = some (0, 7) ∧
    gives (exec (.plotPartEnd p0) graphRuns) (fun t => (t.slot 0 7).run.isNone && !(t.plot 0).stw.released) = true := by decide

theorem test_run_times_out :
    landingRuns graphRuns = true ∧
    gives (exec (.runTimeout 0 7) graphRuns) (fun t => (t.slot 0 7).run.map (·.answered) == some true) = true := by decide
/-! ### Partitions and the stop contract -/

/-- `up` with partition 0 in this state. -/
def partIn (st : PState) : State := up.updPart 0 fun P => { P with state := st }

theorem test_assign :
    reach up .pf false (partCfgReg 1) = .ok ∧ arcFree up 1 0 = true ∧ tdiLocked up 1 = false ∧
    gives (exec (.partAssign .pf 1 0x81) up) (fun t => (t.part 1).state == .resetting && (t.part 1).first == 1 && (t.part 1).assigned) = true := by
  decide +kernel

theorem test_assign_refused :
    arcFree up 0 0 = false ∧
    gives (exec (.partAssign .pf 1 0x80) up) (fun t => (t.part 1).state == .free && t.bit (partCfgReg 1) 31) = true := by decide +kernel

theorem test_remove :
    reach (partIn .stopped) .pf false (partCfgReg 0) = .ok ∧ removable (partIn .stopped) 0 = true ∧ resetRuns (partIn .stopped) (.part 0) = false ∧
    gives (exec (.partRemove .pf 0 0) (partIn .stopped)) (fun t => (t.part 0).state == .resetting && (t.part 0).why == some .remove) = true ∧
    removable up 0 = false ∧ gives (exec (.partRemove .pf 0 0) up) (fun t => t.bit (partCfgReg 0) 31) = true := by decide +kernel

theorem test_part_reset :
    reach up .pf false (lndReg (0x0C0 + 4 * 0)) = .ok ∧
    gives (exec (.partReset .pf 0) up) (fun t => (t.part 0).state == .resetting && t.faults.resets.map (·.scope) == [.part 0]) = true := by decide

/-- A cleared reset of partition 0. -/
def clearedPart (why : ResetWhy) : State :=
  { partIn .resetting with faults := { resets := [⟨.part 0, 0, 0, false, false, true⟩] } }.updPart 0 fun P => { P with why := some why }

theorem test_resetting_ends :
    partCleared (clearedPart .reset) 0 = true ∧
    gives (exec (.resettingEnd 0 true) (clearedPart .assign)) (fun t => (t.part 0).state == .idle && !(t.stk 0).inReset) = true ∧
    gives (exec (.resettingEnd 0 true) (clearedPart .remove)) (fun t => t.part 0 == {}) = true ∧
    gives (exec (.resettingEnd 0 false) ((clearedPart .reset).updStk 0 fun T => { T with lost := true })) (fun t => (t.part 0).state == .faulted) =
      true := by decide +kernel

theorem test_part_enables :
    reach (partIn .stopped) .pf false (partCtrlReg .pf 0) = .ok ∧
    gives (exec (.partSetEn .pf 0) (partIn .idle)) (fun t => (t.part 0).state == .running && pageLocked t (comReg 0 0)) = true ∧
    gives (exec (.partSetEn .pf 0) (partIn .stopped)) (fun t => (t.part 0).state == .running) = true := by decide

theorem test_part_stops :
    up.fld (partReg 0 0x054) 0 16 ≠ 0 ∧ up.fld (ringReg 4 0x1C) 0 16 ≠ 0 ∧
    gives (exec (.partClrEn .pf 0) (ringed [])) (fun t => (t.part 0).state == .stopping && (t.ring 4).state == .stopping) = true := by decide

theorem test_ring_enables :
    reach up .pf false (ringReg 4 0x14) = .ok ∧ ringKey g4 = 4 ∧
    gives (exec (.ringSetEn .pf g4) up) (fun t => (t.ring 4).state == .running) = true ∧
    gives (exec (.ringSetEn .pf g4) (partIn .stopped)) (fun t => (t.ring 4).state == .stopped) = true := by decide

theorem test_ring_stops :
    gives (exec (.ringClrEn .pf g4) ((busy [0x70006]).setFunc 1 { reads := [⟨4, none, 0, 64, 0⟩, ⟨4, some 3, 0, 64, 0⟩] }))
      (fun t => (t.ring 4).state == .stopping && (t.ring 4).queue == [] && (t.ring 4).running.length == 1 &&
        (t.func 1).reads.map (·.cmd) == [some 3]) = true := by decide

theorem test_endpoint_contract :
    reach up .pf false (epReg 31 0x00C) = .ok ∧ up.fld (colReg 0x204) 0 16 ≠ 0 ∧
    gives (exec (.functionSetEn .pf (.endpoint 31)) up) (fun t => (t.ep 31).fstate == .running && t.bit (epReg 31 0x00C) 0) = true ∧
    gives (exec (.functionClrEn .pf (.endpoint 31)) (up.updEp 31 fun E => { E with fstate := .running })) (fun t => (t.ep 31).fstate == .stopping) =
      true := by decide

theorem test_channel_contract :
    reach up .pf false (brgReg 2049 0x00C) = .ok ∧ up.fld (brgReg 2049 0x054) 0 16 ≠ 0 ∧
    gives (exec (.functionSetEn .pf (.chan (.iod 1))) up) (fun t => (t.chan 2049).state == .running) = true ∧
    gives (exec (.functionClrEn .pf (.chan (.iod 1))) (up.updChan 2049 fun C => { C with state := .running, queue := [([], none)] }))
      (fun t => (t.chan 2049).state == .stopping && (t.chan 2049).queue == []) = true := by decide

theorem test_media_and_crossing_enable :
    reach up .pf false (medReg 0 0x00C) = .ok ∧ reach up .pf false (xngReg 0 0x00C) = .ok ∧
    gives (exec (.functionSetEn .pf (.media 0)) up) (fun t => (t.med 0).fstate == .running) = true ∧
    gives (exec (.functionSetEn .pf (.xng 0)) (up.updXng 0 fun X => { X with fstate := .stopped })) (fun t => (t.xng 0).fstate == .running) =
      true := by decide

theorem test_functions_read_stopped :
    gives (exec (.functionStopped (.chan (.iod 1))) (up.updChan 2049 fun C => { C with state := .stopping })) (fun t => (t.chan 2049).state == .stopped) =
      true ∧
    gives (exec (.functionStopped (.xng 0)) (up.updXng 0 fun X => { X with fstate := .stopping, state := .active }))
      (fun t => (t.xng 0).fstate == .stopped && (t.xng 0).state == .disabled) = true := by decide

theorem test_drain_limit_ends :
    stopOn up = false ∧
    gives (exec (.drainLimitExpiry (.ring g4)) ((busy []).updRing 4 fun R => { R with state := .stopping })) (fun t => (t.ring 4).running == []) = true ∧
    gives (exec (.drainLimitExpiry (.xng 0)) (up.updXng 0 fun X => { X with fstate := .stopping })) (fun t => (t.xng 0).fstate == .stopped) = true := by
  decide +kernel/-! ### The landing -/

/-- `up` with a commons of 32 GiB in partition 0 and two bytes of it. -/
def common : State := { up.setFld (comReg 0 0x040) 0 20 0x40 with dram := [(64, 5)] }

theorem test_window_read :
    winOf common 1 = (0, 0) ∧ tdiRefuses common 1 true = false ∧ vfBars common 1 = true ∧ winLocked common 1 = false ∧
    bootState common = 1 ∧ devReadGo common (commonsAddr 0 64) 4 = true ∧
    gives (exec (.bar2Access 1 false 0 4 [] false true) common) (fun t => t.wire == [Msg.cplD 1 true t.reply.data false] && t.reply.data.length == 4) = true := by
  decide +kernel

theorem test_window_write :
    devWriteGo common (commonsAddr 0 64) 4 = true ∧
    gives (exec (.bar2Access 1 true 64 4 [1, 2, 3, 4] false true) common)
      (fun t => t.dram == (common.devWrite (commonsAddr 0 64) [1, 2, 3, 4] false .port).st.dram && t.dram.length == 5) = true := by decide +kernel

theorem test_outside_the_window :
    commonsSize up 0 = 0 ∧
    gives (exec (.bar2Access 1 false 0 4 [] false true) up) (fun t => t.reply.data == [0xFF, 0xFF, 0xFF, 0xFF]) = true ∧
    gives (exec (.bar2Access 1 true 0 4 [1, 2, 3, 4] false true) up) (fun t => t.bit (lndReg 0x044) 0) = true := by decide

theorem test_atomic_op :
    atomOf .fetchAdd32 3 0 = some (3, 4, [3, 0, 0, 0]) ∧ devWriteGo common (commonsAddr 0 64) 4 = true ∧
    gives (exec (.atomicOp 1 2 .fetchAdd32 64 3 0 true) common) (fun t => t.reply.data == [0, 0, 0, 0] && t.dram.map (·.2) == [5, 3]) = true := by
  decide +kernel

theorem test_atomic_refused :
    gives (exec (.atomicOp 1 0 .fetchAdd32 64 3 0 true) common) (fun t => t.bit (lndReg 0x044) 1 && t.wire == [Msg.cplErr 1 false]) = true ∧
    atomOf .swap32 3 0 = none := by decide

theorem test_doorbells :
    doorbellOk (ringed []) g4 true = true ∧ cqSize (ringed []) 4 = 16 ∧
    gives (exec (.sqDoorbell g4 3 true) ((ringed []).setFld (ringReg 4 0x10) 0 4 2)) (fun t => (t.ring 4).tail == 3) = true ∧
    gives (exec (.sqDoorbell g4 4 true) ((ringed []).setFld (ringReg 4 0x10) 0 4 2))
      (fun t => (t.ring 4).tail == 0 && t.bit (ringReg 4 0x18) 27) = true ∧
    gives (exec (.cqDoorbell g4 15 true) (ringed [])) (fun t => (t.ring 4).cqHead == 15) = true ∧
    gives (exec (.cqDoorbell g4 16 true) (ringed [])) (fun t => (t.ring 4).cqHead == 0 && t.bit (ringReg 4 0x18) 27) = true := by decide

/-- A ring of four entries with three to fetch, its head at 2. -/
def toFetch : State := ((ringed []).setRing 4 { state := .running, head := 2, tail := 1 }).setFld (ringReg 4 0x10) 0 4 2

theorem test_fetch_stops_at_the_wrap :
    fetchOk toFetch 4 = true ∧ fetchLen toFetch 4 = 2 ∧
    gives (exec (.sqFetch g4) toFetch) (fun t => (t.func 1).reads.map (fun r => (r.ring, r.len, r.addr)) == [(4, 128, 128)]) = true := by decide

theorem test_entries_arrive :
    stopped up landingUnit = false ∧
    gives (exec (.hostReadCompletion 1 0 true (List.replicate 128 6)) (toFetch.setFunc 1 { reads := [⟨4, none, 128, 128, 0⟩] }))
      (fun t => (t.ring 4).queue.map (·.bytes) == [List.replicate 64 6, List.replicate 64 6] && (t.ring 4).head == 0) = true := by decide +kernel

theorem test_fetch_times_out :
    gives (exec (.completionTimeout 1 0) (toFetch.setFunc 1 { reads := [⟨4, none, 128, 128, 0⟩] }))
      (fun t => (t.ring 4).state == .stopped && t.bit (ringReg 4 0x18) 28 && t.bit (lndReg 0x044) 2 && tget 0 t.lndErr 5 == 1) = true := by decide

theorem test_config_space :
    gives (exec (.configRequest 1 false 0x208 0) up) (fun t => t.reply.data == [0, 16, 0, 0]) = true ∧
    gives (exec (.configRequest 1 true 0x10 0x12345678) up) (fun t => cfgByte t 1 0x10 == 0x78 && cfgByte t 1 0x13 == 0x12) = true ∧
    gives (exec (.configRequest 1 true 0x10 0) (up.setFld (bootReg 0x040) 5 2 0)) (fun t => t.reply.err && t.wire == [Msg.retry 1]) = true := by decide

theorem test_link_recovers :
    gives (exec (.linkRecovery 6 16) up)
      (fun t => t.fld (lndReg 0x040) 0 3 == 6 && t.fld (lndReg 0x040) 3 5 == 16 && t.bit (lndReg 0x040) 8 && t.fld (lndReg 0x040) 10 16 == 1) = true := by
  decide

theorem test_function_resets :
    gives (exec (.flrVf 0) up) (fun t => (t.part 0).state == .resetting) = true ∧
    gives (exec .flrPf (up.setRing 0 { state := .running })) (fun t => t.ring 0 == {}) = true := by decide +kernel

theorem test_hot_reset :
    gives (exec .hotReset { up with fuses := { svn := 5 } }) (fun t => t.boot.running && t.boot.number == 1 && t.fuses.svn == 5 && t.rings == []) = true := by
  decide +kernel
/-! ### Crossing groups and collectives -/

/-- Device 1 with partition 0's commons; slot 0, endpoint 0 and a route to device 2 by port 0 are its own. -/
def grouped (w : List Nat) : State :=
  ((((((((ringed w).setFld (comReg 0 0x040) 0 20 0x40).setReg (xpkReg 0x040) 1).setFld (colReg 0x0C0) 0 5 0x10).setFld (colReg 0x040) 0 5 0x10).setReg
    (xpkReg 0x800) 0).updEp 0 fun E => { E with fstate := .running }))

/-- GROUP_FORM of slot 0, group 5, epoch 9, with members 1 and 2. -/
def formCmd : List Nat := [0x7000C, 0x900020000, 5]

/-- Slot 0 ACTIVE as rank 0 of two. -/
def grp0 : Group := { state := .active, members := [1, 2], rank := 0, epoch := 9, gid := 5, hb := 100 }

/-- The group while it is formed. -/
def form0 : Form := { gid := 5, epoch := 9, members := [1, 2], rank := 0, hb := 100, digest := [1], answered := [], startAt := 0, limit := 10, job := (4, 9) }

theorem test_form_refused :
    Starts (grouped formCmd) 4 12 (cmdOf formCmd) ∧ gfAction (cmdOf formCmd) = 0 ∧ formRefusal (grouped formCmd) 0 (cmdOf formCmd) [1, 2] = some 0x35 ∧
    gives (exec (.groupForm g4 [1, 2]) (grouped formCmd)) (answered (ringed []) formCmd 0x35 0) = true := by
  refine ⟨⟨by decide, by decide⟩, by decide, by decide +kernel, by decide +kernel⟩

/-- The same with a route to device 2 by port 0, which is ACTIVE. -/
def routed (w : List Nat) : State :=
  (((grouped w).setReg (regAddr 16 0x010 0x810) 1).setReg (regAddr 16 0x010 0x814) 1).updXng 0 fun X => { X with state := .active }

theorem test_form_starts :
    Starts (routed formCmd) 4 12 (cmdOf formCmd) ∧ formRefusal (routed formCmd) 0 (cmdOf formCmd) [1, 2] = none ∧
    routePorts (routed formCmd) 2 ≠ [] ∧
    gives (exec (.groupForm g4 [1, 2]) (routed formCmd))
      (fun t => (t.grp 0).form.map (fun F => (F.gid, F.epoch, F.members, F.rank, F.job)) == some (5, 9, [1, 2], 0, (4, 9)) &&
        t.coll.out.map (fun h => (h.pkt.kind, h.pkt.dst)) == [(.join, 2)]) = true := by
  refine ⟨⟨by decide, by decide⟩, by decide +kernel, by decide +kernel, by decide +kernel⟩

theorem test_dissolve :
    Starts (grouped [0x7000C, 0x100]) 4 12 (cmdOf [0x7000C, 0x100]) ∧ grpOwner (grouped []) 0 = some 0 ∧
    gives (exec (.groupDissolve g4) ((grouped [0x7000C, 0x100]).setGrp 0 grp0)) (fun t => t.grp 0 == {}) = true := by
  refine ⟨⟨by decide, by decide⟩, by decide, by decide +kernel⟩

theorem test_join_answers :
    collUp (grouped []) = true ∧ formingSlot ((grouped []).setGrp 0 { form := some form0 }) 5 9 = some 0 ∧ rankOf [1, 2] 2 = some 1 ∧
    allAnswered { form0 with answered := [1] } = true ∧
    gives (exec (.join 2 5 9 [1]) ((grouped []).setGrp 0 { form := some form0 })) (fun t => t.grp 0 == formedGroup form0 0) = true ∧
    gives (exec (.joinAck 2 5 9 [3]) ((grouped []).setGrp 0 { form := some form0 })) (fun t => (t.grp 0).form.isNone && (t.grp 0).state == .free) = true := by
  decide +kernel

theorem test_join_kept :
    formingSlot (grouped []) 5 9 = none ∧ activeSlot (grouped []) 5 9 = none ∧ higherEpoch (grouped []) 5 9 = true ∧
    gives (exec (.join 2 5 9 [1]) (grouped [])) (fun t => t.coll.kept.map (·.src) == [2]) = true ∧
    gives (exec (.joinKeepExpiry 0) { grouped [] with coll := { kept := [⟨5, 9, 2, [1], 0⟩] } }) (fun t => t.coll.kept == []) = true := by decide +kernel

theorem test_forming_times_out :
    gives (exec (.grpTimeout 0) ((grouped []).setGrp 0 { form := some form0 })) (fun t => t.grp 0 == {}) = true := by decide +kernel

theorem test_heartbeats :
    grpState grp0 = .active ∧ neighbours grp0 = [2] ∧
    gives (exec (.heartbeatSend 0) ((grouped []).setGrp 0 grp0)) (fun t => t.coll.out.map (fun h => (h.pkt.dst, h.pkt.kind)) == [(2, .heartbeat)]) = true ∧
    activeSlot ((grouped []).setGrp 0 grp0) 5 9 = some 0 ∧
    gives (exec (.heartbeat 2 5 9) { (grouped []).setGrp 0 grp0 with tb := 77 }) (fun t => (t.grp 0).heardNext == 77) = true := by decide +kernel

theorem test_group_severed :
    gives (exec (.heartbeatTimeout 0 true) ((grouped []).setGrp 0 grp0))
      (fun t => (t.grp 0).state == .severed && t.bit (colReg 0x100) 3) = true ∧
    gives (exec (.sever 2 5 9) ((grouped []).setGrp 0 grp0)) (fun t => (t.grp 0).state == .severed) = true := by decide +kernel

/-- A barrier of slot 0 with its status record in the commons. -/
def barrier : Desc := [6, 0, 0, 0, 0, 0, 0, 0, 0, 64, 0, 0]

/-- The barrier as it runs. -/
def coll0 : Coll := { slot := 0, seq := 1, desc := barrier, members := [1, 2], rank := 0 }

theorem test_lost_ends_its_collective :
    findColl (((grouped []).setGrp 0 { grp0 with seq := 1 }).updEp 0 fun E => { E with running := [coll0] }) 0 1 = some (0, coll0) ∧
    gives (exec (.lost 2 5 9 1) (((grouped []).setGrp 0 { grp0 with seq := 1 }).updEp 0 fun E => { E with running := [coll0] }))
      (fun t => (t.ep 0).running == []) = true := by decide +kernel

theorem test_barrier_data :
    dataColl (((grouped []).setGrp 0 { grp0 with seq := 1 }).updEp 0 fun E => { E with running := [coll0] }) 0 1 1 barrier = some (0, coll0) ∧
    dataGo (((grouped []).setGrp 0 { grp0 with seq := 1 }).updEp 0 fun E => { E with running := [coll0] }) 2 5 9 1 barrier 0 0 = true ∧
    mismatch coll0 barrier = false ∧ dataFits coll0 1 0 0 = true ∧
    gives (exec (.dataPacket 2 5 9 1 barrier 0 [] false) (((grouped []).setGrp 0 { grp0 with seq := 1 }).updEp 0 fun E => { E with running := [coll0] }))
      (fun t => (t.ep 0).running.map (fun C => tget 0 C.got 1) == [1]) = true := by decide +kernel

theorem test_e2e_credit : gives (exec (.e2eCredit 2 3) up) (fun t => tget 0 t.coll.e2e 2 == 3) = true := by decide

/-- An endpoint with a barrier's descriptor in its queue. -/
def epReady : State :=
  ((grouped []).setGrp 0 grp0).updEp 0 fun E =>
    { E with queues := [(0, [⟨(barrier ++ List.replicate 4 0).flatMap fun (w : Word) => leBytes 4 w.toNat, 0⟩])] }

theorem test_collective_starts :
    epOwner epReady 0 = some 0 ∧ (epQueue epReady 0 0).length = 1 ∧ stopping epReady (epUnit 0) = false ∧ pkgQuiesced epReady = false ∧
    collRefusal (epReady.epTake 0 0) 0 (barrier ++ List.replicate 4 0) false = none ∧
    collRefusal (epReady.epTake 0 0) 0 (7 :: List.replicate 15 0) false = some 0x54 := by decide +kernel

theorem test_endpoint_takes_a_flit :
    stopped (grouped []) (epUnit 0) = false ∧ epTakes (grouped []) 0 0 0 7 ⟨0, 3⟩ 4 = true ∧
    gives (exec (.streamFlitArrive (epLoc 0) 0 7 ⟨0, 3⟩ 4 ⟨List.replicate 64 1, 0⟩) (grouped [])) (fun t => epQueue t 0 0 == [⟨List.replicate 64 1, 0⟩]) = true := by decide +kernel

theorem test_collective_completes :
    collDone (grouped []) { coll0 with sent := [(1, 1)], got := [(1, 1)] } = true ∧
    gives (exec (.collectiveComplete 0 0) ((grouped []).updEp 0 fun E => { E with running := [{ coll0 with sent := [(1, 1)], got := [(1, 1)] }] }))
      (fun t => (t.ep 0).running == [] && t.dram ≠ []) = true := by decide +kernel

theorem test_scatter_add :
    sapGo { up with coll := { sap := [(0x6, 64, [3, 0, 0, 0, 0, 0, 0, 0], false)] } } = true ∧
    gives (exec (.scatterAddPacketSend none) { up with coll := { sap := [(0x6, 64, [3, 0, 0, 0, 0, 0, 0, 0], false)] }, dram := [(64, 4)] })
      (fun t => t.coll.sap == [] && t.dram == [(64, 7)]) = true := by decide +kernel

/-- A channel that adds 8-byte elements of the tank to the first cistern. -/
def scatterDesc : Desc := [0x06000C0C, 0, 0, 64, 0, 1, 0, 8, 0, 0, 8]

theorem test_scatter_add_of_a_channel :
    bCheck up 0 scatterDesc = none ∧ bDstK scatterDesc = 3 ∧
    gives (exec (.scatterAddPacketSend (some (.plot p0 0)))
        ((withPlot { tank := [(0, 5)] }).updChan 0 fun C => { C with phase := .moving, desc := some scatterDesc }))
      (fun t => t.dram == [(64, 5)] && (t.chan 0).desc == some scatterDesc && decide (0 < (t.chan 0).pos)) = true := by decide +kernel
/-! ### Crossings -/

/-- `up` with ferry 0 admitted at Gen 2 on all its lanes, crossing 0 in a state, and device ID 1. -/
def xngIn (X : Xng) : State := (((up.setFld (ferReg 0 0x040) 0 3 4).setFld (ferReg 0 0x040) 7 9 0x1FF).setReg (xpkReg 0x040) 1).setXng 0 X

theorem test_light :
    xngGo (xngIn {}) = true ∧ (firstCfg (xngIn {}) 0).isSome = true ∧
    gives (exec (.xngLightDetect 0) (xngIn { state := .detect })) (fun t => (t.xng 0).state == .equalise) = true ∧
    firstCfg up 0 = none ∧ gives (exec (.xngLightDetect 0) (up.setXng 0 { state := .detect })) (fun t => (t.xng 0).state == .disabled) = true := by
  decide

theorem test_equalise :
    gives (exec (.xngEqualiseDone 0 true) (xngIn { state := .equalise })) (fun t => (t.xng 0).state == .align) = true ∧
    (nextCfg (xngIn {}) 0).isSome = true ∧
    gives (exec (.xngEqualiseDone 0 false) (xngIn { state := .equalise })) (fun t => (t.xng 0).state == .equalise && (t.xng 0).cfg.gen == 1) = true := by
  decide

theorem test_equalise_fails :
    nextCfg up 0 = none ∧
    gives (exec (.xngEqualiseDone 0 false) (up.setXng 0 { state := .equalise })) (fun t => (t.xng 0).state == .down && t.fld (xngReg 0 0x048) 24 4 == 2) =
      true := by decide

theorem test_align :
    gives (exec (.xngAlignDone 0 true) (xngIn { state := .align })) (fun t => (t.xng 0).state == .peer && t.bit (xngReg 0 0x044) 6) = true := by decide

theorem test_peer :
    (settle (xngIn {}) 0 2 1 true).isSome = true ∧
    gives (exec (.xngPeerDone 0 2 1 true false) (xngIn { state := .peer }))
      (fun t => (t.xng 0).state == .auth && (t.xng 0).cfg == { gen := 1, half := true, upper := false } && t.fld (xngReg 0 0x044) 16 16 == 2) = true ∧
    settle (xngIn {}) 0 1 1 true = none ∧
    gives (exec (.xngPeerDone 0 1 1 true false) (xngIn { state := .peer })) (fun t => (t.xng 0).state == .down && t.fld (xngReg 0 0x048) 24 4 == 4) =
      true := by decide

theorem test_auth :
    xngTrusts ((xngIn {}).setReg (xpkReg 0x080) 1) = true ∧ keysUsable up = true ∧
    gives (exec (.xngAuthDone 0 true) ((xngIn { state := .auth }).setReg (xpkReg 0x080) 1))
      (fun t => (t.xng 0).state == .active && t.bit (xngReg 0 0x044) 8 && (t.xng 0).credit.length == 8) = true ∧
    gives (exec (.xngAuthDone 0 true) (xngIn { state := .auth })) (fun t => (t.xng 0).state == .down && t.fld (xngReg 0 0x048) 24 4 == 5) = true ∧
    gives (exec (.xngAuthDone 0 true) (xngIn { state := .auth, peerEncOff := true })) (fun t => t.fld (xngReg 0 0x048) 24 4 == 6) = true := by decide

theorem test_xng_time_out :
    gives (exec (.xngStateTimeout 0) (xngIn { state := .align })) (fun t => (t.xng 0).state == .down && t.fld (xngReg 0 0x048) 24 4 == 3) = true ∧
    gives (exec (.xngDownExpiry 0) (xngIn { state := .down })) (fun t => (t.xng 0).state == .detect) = true := by decide

theorem test_lock_loss :
    gives (exec (.codewordLockLoss 0) (xngIn { state := .active })) (fun t => (t.xng 0).state == .retrain && (t.xng 0).phase == .equalise) = true := by
  decide

theorem test_xng_retrain :
    reach up .pf false (xngReg 0 0x060) = .ok ∧
    gives (exec (.xngRetrain .pf 0) (xngIn { state := .active })) (fun t => (t.xng 0).state == .retrain && (t.xng 0).ceil == ⟨2, false, false⟩) = true ∧
    gives (exec (.xngRetrain .pf 0) (xngIn { state := .align })) (fun t => (t.xng 0).state == .align) = true := by decide

theorem test_xng_retrain_done :
    gives (exec (.xngRetrainDone 0 true) (xngIn { state := .retrain, fails := 1 })) (fun t => (t.xng 0).state == .active && (t.xng 0).fails == 0) = true ∧
    gives (exec (.xngRetrainDone 0 false) (xngIn { state := .retrain, fails := 2 })) (fun t => (t.xng 0).state == .down && t.fld (xngReg 0 0x048) 24 4 == 8) =
      true := by decide

theorem test_xng_rate_and_clock :
    gives (exec (.xngErrorRateTick 0 0) (xngIn { state := .active, secReplays := 1 })) (fun t => (t.xng 0).state == .active && (t.xng 0).secReplays == 0) =
      true ∧
    xngLit { state := .active } = true ∧
    gives (exec .refclkXngAbsent (xngIn { state := .active })) (fun t => (t.xng 0).state == .down && t.fld (xngReg 0 0x048) 24 4 == 9 && !t.pins.xngClk) =
      true ∧
    gives (exec .refclkXngStable (xngIn { state := .down })) (fun t => (t.xng 0).state == .detect) = true := by
  decide +kernel

/-- A flit of zeros of type `ty` with a right check. -/
def xflit (ty : Nat) : List Byte :=
  List.replicate 4 0 ++ leBytes 1 ty ++ List.replicate 7 0 ++ leBytes 4 (crc32 (List.replicate 4 0 ++ leBytes 1 ty ++ List.replicate 247 0)) ++
    List.replicate 240 0

theorem test_bad_flit :
    flitOk (List.replicate 256 7) = false ∧
    gives (exec (.xngFlitReceive 0 (List.replicate 256 7) true []) (xngIn { state := .active })) (fun t => (t.xng 0).nak && t.wire.length == 1) = true := by
  decide +kernel

set_option maxRecDepth 20000 in
theorem test_good_flit :
    flitOk (xflit 0) = true ∧ flitOk (xflit 1) = true ∧ flNak (xflit 1) = false ∧ flType (xflit 1) = 1 ∧ flSeq (xflit 1) = 0 ∧
    xngEnc (xngIn { state := .active }) 0 = false ∧
    gives (exec (.xngFlitReceive 0 (xflit 1) true []) (xngIn { state := .active })) (fun t => (t.xng 0).rxAck == 0 && (t.xng 0).rxNext == 1) = true := by
  decide +kernel

/-- Crossing 0 ACTIVE and encrypted. -/
def encrypted (X : Xng) : State := (xngIn { X with state := .active }).setBit (xngReg 0 0x044) 8

theorem test_tag_group_closes :
    xngSends (encrypted {}) 0 = true ∧ xngEnc (encrypted {}) 0 = true ∧
    gives (exec (.tagGroupClose 0) (encrypted { txGroup := 3 })) (fun t => (t.xng 0).groups == 1 && !(t.xng 0).txPhase) = true ∧
    gives (exec (.tagGroupClose 0) (encrypted { txGroup := 3, rekeying := true })) (fun t => (t.xng 0).groups == 0 && (t.xng 0).txPhase) = true := by
  decide +kernel

theorem test_rekey :
    hasKeys (encrypted {}) 0 = true ∧ up.fld (xngReg 0 0x058) 0 16 ≠ 0 ∧
    gives (exec (.xngRekey .pf 0) (encrypted {})) (fun t => (t.xng 0).txPhase && (t.xng 0).groups == 0) = true ∧
    gives (exec (.rekeyDue 0) (encrypted { txGroup := 3 })) (fun t => (t.xng 0).rekeying && !(t.xng 0).txPhase) = true ∧
    gives (exec (.rekeyDue 0) ((encrypted {}).setBit (secReg 0x040) 18)) (fun t => (t.xng 0).state == .down && t.fld (xngReg 0 0x048) 24 4 == 5) = true := by
  decide

theorem test_idle_flit_sent :
    xngSends (xngIn { state := .active }) 0 = true ∧ portOpen (xngIn { state := .active }) 0 = true ∧ pickPkt (xngIn { state := .active }) 0 = none ∧
    (xngIn { state := .active }).dropLostPkts.wire = [] ∧
    gives (exec (.xngPacketSend 0) (xngIn { state := .active })) (fun t => t.wire.length == 1 && (t.xng 0).replay == []) = true := by decide +kernel

/-! ### Boot, settings store, flood and ferries -/

/-- A boot under way on a package of stacks 0 and 1 with these stages passed. -/
def booting (passed : List Nat) : State :=
  { (up.setFld (bootReg 0x040) 5 2 0) with fuses := { stackEn := [0, 1] }, boot := { running := true, passed := passed } }

theorem test_stage_passes :
    stageOn (booting []) 1 = true ∧ storeFails (booting []) 1 = none ∧ keptStacks (booting []) = [0, 1] ∧ stageReady (booting []) 1 = true ∧
    gives (exec (.bootStageComplete 1 .pass) (booting [])) (fun t => t.boot.passed == [1]) = true := by decide +kernel

theorem test_ready_ends_the_boot :
    stageOn (booting (List.range 16)) 16 = true ∧
    gives (exec (.bootStageComplete 16 .pass) (booting (List.range 16))) (fun t => bootState t == 1 && !t.boot.running) = true := by decide +kernel

theorem test_stack_held_out :
    stageOn (booting (List.range 7)) 7 = true ∧ holdCause 7 = 1 ∧
    gives (exec (.bootStageComplete 7 (.holdOut [1] 1)) (booting (List.range 7)))
      (fun t => heldOut t 1 && t.fld (bootReg 0x050) 4 4 == 1 && t.boot.passed.head? == some 7) = true := by decide +kernel

theorem test_stage_fails :
    stageOn (booting [1]) 2 = true ∧ storeFails (booting [1, 2]) 9 = none ∧ stageOn (booting (List.range 9)) 9 = true ∧ failOk (booting (List.range 9)) 9 8 = true ∧
    gives (exec (.bootStageComplete 9 (.fail 8)) (booting (List.range 9))) (fun t => t.boot.running && t.boot.passed == [] && t.boot.number == 1) = true ∧
    gives (exec .bootWatchdog (booting [1])) (fun t => t.boot.running && t.boot.passed == [] && t.boot.number == 1) = true := by decide +kernel

theorem test_no_header_is_low_water :
    storeFails (booting [1]) 2 = some 3 ∧
    gives (exec (.bootStageComplete 2 .pass) (booting [1])) (fun t => bootState t == 2 && t.fld (bootReg 0x040) 12 8 == 3) = true := by decide +kernel

theorem test_resets_by_register :
    reach up .pf false (bootReg 0x044) = .ok ∧ resetRuns up (.package true) = false ∧ resetRuns up (.package false) = false ∧
    gives (exec (.coldReset .pf 2) up) (fun t => t.faults.resets.map (·.scope) == [.package true] && t.boot.nextSlot == 2) = true ∧
    gives (exec (.warmReset .pf) up) (fun t => t.faults.resets.map (·.scope) == [.package false]) = true ∧
    gives (exec (.nextSlot .pf 3) up) (fun t => t.boot.nextSlot == 0) = true := by decide +kernel

theorem test_resets_while_starting :
    reach (booting []) .debug false (bootReg 0x044) = .gone ∧ reach (booting []) .rider false (bootReg 0x044) = .ok ∧
    gives (exec (.coldReset .rider 3) (booting [1])) (fun t => t.boot.running && t.boot.number == 1 && t.boot.passed == []) = true ∧
    gives (exec (.warmReset .rider) (booting [1])) (fun t => t.boot.running && t.boot.passed == []) = true := by decide +kernel

theorem test_warm_reset_in_low_water :
    gives (exec (.warmReset .rider) (up.setFld (bootReg 0x040) 5 2 2)) (fun t => t.faults.resets == []) = true := by decide +kernel

theorem test_attempts_cleared :
    attemptNext up = 0 ∧
    gives (exec (.clrAttempts .pf) { up with store := [(attemptArea + 16, 1)] })
      (fun t => attemptKind t 1 == 2 && t.fld (bootReg 0x040) 10 2 == 0) = true := by decide +kernel

theorem test_store_commands_start :
    reach up .pf false (bootReg 0x104) = .ok ∧ storeProtected 0x100 = false ∧
    gives (exec (.sstoreRead .pf) (up.setReg (bootReg 0x100) 0x1FF)) (fun t => t.boot.sstore.map (fun x => (x.1, x.2.1)) == some (1, 0x100)) = true ∧
    storeProtected attemptArea = true ∧
    gives (exec (.sstoreErase .pf) (up.setReg (bootReg 0x100) (BitVec.ofNat 32 attemptArea))) (fun t => t.bit (bootReg 0x108) 2 && t.boot.sstore.isNone) =
      true := by decide +kernel

/-- A settings store command for the block at 0x10000. -/
def storing (c : BitVec 2) : State := { up.setReg (bootReg 0x200) 0x44332211 with boot := { sstore := some (c, 0x10000, 0) }, store := [(0x10005, 7)] }

theorem test_store_reads :
    storeWaits (storing 1) 0 = false ∧
    gives (exec (.sstoreDone true) (storing 1)) (fun t => t.fld (bootReg 0x108) 0 2 == 2 && (t.reg (bootReg 0x204)).toNat == 0xFFFF07FF) = true ∧
    gives (exec (.sstoreDone false) (storing 1)) (fun t => t.fld (bootReg 0x108) 0 2 == 3) = true := by decide +kernel

theorem test_store_programs :
    pageErased (storing 2) 0x10000 = false ∧
    gives (exec (.sstoreDone true) (storing 2)) (fun t => t.fld (bootReg 0x108) 0 2 == 3 && t.store == [(0x10005, 7)]) = true ∧
    pageErased { storing 2 with store := [] } 0x10000 = true ∧
    gives (exec (.sstoreDone true) { storing 2 with store := [] }) (fun t => storeBytes t 0x10000 4 == [0x11, 0x22, 0x33, 0x44]) = true ∧
    gives (exec (.sstoreDone true) (storing 3)) (fun t => t.store == []) = true := by decide +kernel

/-- A flood of one core section of one block to stack 0. -/
def flooding : State :=
  { up with fuses := { stackEn := [0] }, boot := { running := true, flooding := true, sections := [(1, 1)], digests := [(1, sha256 [5])] } }

theorem test_flood_block :
    receivers flooding ≠ [] ∧ (512 : Nat) ∈ receivers flooding ∧ missing flooding 512 = [1] ∧ blockTaken flooding 512 1 [5] = true ∧
    gives (exec (.floodBlock 512 1 [5]) flooding) (fun t => (t.receiver 512).got == [1] && (t.stk 0).coreFw == [(0, 5)]) = true ∧
    blockTaken flooding 512 1 [6] = false := by decide +kernel

theorem test_flood_repairs :
    floodRounds flooding = 0 ∧ incomplete flooding ≠ [] ∧
    gives (exec .floodRepairRequest flooding) (fun t => t.boot.roundOn && floodRounds t == 1 && (t.receiver 512).asked == [1]) = true := by decide +kernel

/-- The flood in repair round `n`. -/
def repairing (n : Nat) : State := { flooding.setFld (bootReg 0x0C4) 10 2 n with boot := { flooding.boot with roundOn := true } }

theorem test_flood_rounds_end :
    gives (exec .floodRoundEnd (repairing 1)) (fun t => floodRounds t == 2 && (t.receiver 512).asked == [1]) = true ∧
    gives (exec .floodRoundEnd (repairing 3)) (fun t => !t.boot.roundOn && (t.receiver 512).out) = true ∧
    incomplete { repairing 1 with boot := { (repairing 1).boot with recv := [(512, { got := [1] })] } } = [] := by decide +kernel

/-- What a ferry shows that answers, trains and is not signed. -/
def ferry0 : FerryInfo := ⟨true, false, 0x1234, 1, 5, 0x100, 0xFF, true, true, List.replicate 32 3, false, []⟩

theorem test_ferry_rejected :
    ferryTurn up 0 = true ∧ ferryReason up 0 { ferry0 with trains := false } = some 2 ∧
    gives (exec (.ferryAdmission 0 { ferry0 with trains := false }) up) (fun t => ferryState t 0 == 5 && t.fld (ferReg 0 0x040) 3 4 == 2) = true := by
  decide +kernel

theorem test_ferry_lost :
    ferryState (xngIn { state := .active }) 0 = 4 ∧
    gives (exec (.ferryLost 0 false) (xngIn { state := .active })) (fun t => ferryState t 0 == 6 && (t.xng 0).state == .down) = true ∧
    gives (exec (.ferryLost 8 false) (up.setFld (ferReg 8 0x040) 0 3 4)) (fun t => t.boot.running && t.boot.number == 1) = true := by decide +kernel

theorem test_ferry_readmitted :
    reach up .pf false (ferReg 0 0x080) = .ok ∧
    gives (exec (.ferryReadmit .pf 0) (xngIn { state := .active })) (fun t => ferryState t 0 == 1 && (t.xng 0).state == .down) = true := by decide +kernel
/-! ### Register accesses -/

/-- The 26-bit address of a register. -/
def ra (a : Nat) : RegAddr := BitVec.ofNat 26 a

theorem test_pair_is_captured :
    placeOf up .pf (ra (pkgReg 0x048)) = .reg (pkgReg 0x048) ∧ reach up .pf true (pkgReg 0x048) = .ok ∧
    pageType 16 0 = some (0x010, 0) ∧ popAt up (pkgReg 0x048) 0x010 0 = none ∧ pairHis 0x010 0x048 = [0x04C] ∧
    gives (exec (.registerPairLoRead .pf (ra (pkgReg 0x048)) 4) { up with tb := 0x500000003 })
      (fun t => t.reply.data == leBytes 4 (liveWord { up with tb := 0x500000003 } .pf (pkgReg 0x048)) &&
        (tget none t.caps (pkgReg 0x04C)).isSome) = true := by decide +kernel

theorem test_rc_read_clears :
    reach up .pf true (norReg 0 0x054) = .ok ∧
    gives (exec (.rcRead .pf (ra (norReg 0 0x054)) 4) (up.setFld (norReg 0 0x054) 8 8 5)) (fun t => t.reply.data == [0, 5, 0, 0] && t.fld (norReg 0 0x054) 8 8 == 0) =
      true := by decide +kernel

theorem test_read_refused :
    reach up .pf true (regAddr 16 0x00D 0x40) = .refused 2 ∧ placeOf up .pf (ra (regAddr 16 0x00D 0x40)) = .reg (regAddr 16 0x00D 0x40) ∧
    gives (exec (.rcRead .pf (ra (regAddr 16 0x00D 0x40)) 4) up)
      (fun t => t.reply.data == [0, 0, 0, 0] && t.bit (pkgReg 0x054) 31 && t.fld (pkgReg 0x054) 16 4 == 2) = true := by decide +kernel

theorem test_misaligned_read :
    gives (exec (.rcRead .pf (ra (pkgReg 0x04A)) 4) up) (fun t => t.reply.data == [0, 0, 0, 0] && t.fld (pkgReg 0x054) 16 4 == 4) = true := by decide +kernel

theorem test_write_by_access_code :
    reach up .pf false (smReg 0 0x100) = .ok ∧ 0x40 ≤ addrOff (smReg 0 0x100) ∧ pageType 0 0x14A = some (0x00B, 0) ∧
    gives (exec (.registerWrite .pf (ra (smReg 0 0x100)) 4 0x0503) up) (fun t => t.fld (smReg 0 0x100) 0 16 == 0x0503) = true := by decide +kernel

theorem test_locked_field_is_kept :
    reach up .pf false (psecReg 0 0x040) = .ok ∧ pageType 16 0x102 = some (0x025, 0) ∧
    gives (exec (.registerWrite .pf (ra (psecReg 0 0x040)) 4 7) up) (fun t => (t.reg (psecReg 0 0x040)).toNat == 7) = true ∧
    pageLocked (up.setBit (psecReg 0 0x02C) 0) (psecReg 0 0x040) = true ∧ mayRwl .pf 0x025 = true ∧
    gives (exec (.registerWrite .pf (ra (psecReg 0 0x040)) 4 7) (up.setBit (psecReg 0 0x02C) 0))
      (fun t => (t.reg (psecReg 0 0x040)).toNat == 0 && t.bit (psecReg 0 0x02C) 2) = true := by decide +kernel

theorem test_write_refused :
    reach up (.vf 0) false (lndReg 0x040) = .refused 3 ∧ reach up .pf false (regAddr 16 0x00D 0x40) = .refused 2 ∧
    gives (exec (.registerWrite .pf (ra (regAddr 16 0x00D 0x40)) 4 7) up) (fun t => t.bit (pkgReg 0x054) 31 && t.fld (pkgReg 0x054) 16 4 == 2) = true ∧
    sizeOk (smReg 0 0x100) 2 = false ∧
    gives (exec (.registerWrite .pf (ra (smReg 0 0x100)) 2 0x0503) up) (fun t => t.fld (pkgReg 0x054) 16 4 == 4 && t.reg (smReg 0 0x100) == up.reg (smReg 0 0x100)) =
      true := by decide +kernel

theorem test_page_locks :
    placeOf up .pf (headerAt (ra (xpkReg 0)) 0x02C) = .reg (xpkReg 0x02C) ∧ hasRwl 0x018 = true ∧ hasRwl 0x012 = false ∧
    gives (exec (.hdrLockSet .pf (ra (xpkReg 0)) 4) up) (fun t => pageLocked t (xpkReg 0)) = true ∧
    gives (exec (.hdrLockSet .pf (ra (fltReg 0)) 4) up) (fun t => !pageLocked t (fltReg 0)) = true := by decide +kernel

theorem test_irq_forced :
    placeOf up .pf (headerAt (ra (brgReg 2048 0)) 0x01C) = .reg (brgReg 2048 0x01C) ∧ irqMask 0x020 = 3 ∧
    gives (exec (.hdrIrqForce .pf (ra (brgReg 2048 0)) 4 0xFF) up) (fun t => (t.reg (brgReg 2048 0x014)).toNat == 3) = true := by decide +kernel

/-! ### Pins -/

/-- A package with its power and PERST_N. -/
def pinned (power perst : Bool) : State := { pins := { pwrGood := power, perst := perst, thermtrip := power } }

theorem test_power :
    gives (exec .pwrGoodRise (pinned false true)) (fun t => t.pins.pwrGood && t.toll.on && !t.boot.running) = true ∧
    gives (exec .pwrGoodRise (pinned false false)) (fun t => t.boot.running) = true ∧
    gives (exec .pwrGoodFall { up with fuses := { svn := 3 } }) (fun t => !t.pins.pwrGood && t.fuses.svn == 3 && t.parts == [] && !t.toll.on) = true := by
  decide +kernel

theorem test_perst :
    gives (exec .perstNAssert { up with toll := { on := true } }) (fun t => t.pins.perst && t.toll.on && t.parts == [] && !pkgUp t) = true ∧
    gives (exec (.perstNRelease 2) (pinned true true)) (fun t => t.boot.running && t.pins.bootMode == 2) = true ∧
    gives (exec (.perstNRelease 2) (pinned false true)) (fun t => !t.boot.running && t.pins.released) = true := by decide +kernel

theorem test_clock_lost :
    gives (exec .refclkSysAbsent up) (fun t => t.pins.sysLost && stackHalted t 15 && t.bit (thmReg 0x040) 9) = true := by decide +kernel

/-! ### Stewards, cores and media -/

theorem test_steward_traps :
    stewardRuns (withPlot { stw := { released := true } }) 0 = true ∧
    gives (exec (.stewardException p0 2 0x33) (withPlot { stw := { released := true, pc := 0x44, mtvec := 0x101, mstatus := 0x8 } }))
      (fun t => (t.plot 0).stw.mepc == 0x44 && (t.plot 0).stw.pc == 0x100 && (t.plot 0).stw.mcause == 2 && (t.plot 0).stw.mtval == 0x33 &&
        nbits (t.plot 0).stw.mstatus.toNat 3 5 == 16) = true := by decide +kernel

theorem test_steward_fault :
    reach up .pf false (pqReg 0 0x07C) = .ok ∧
    gives (exec (.stwWdogFault .pf p0) up) (fun t => (t.plot 0).failed == some .steward && t.bit (pqReg 0 0x07C) 30) = true ∧
    gives (exec (.stwWdogKick .pf p0) { up with tb := 9 }) (fun t => (t.plot 0).kickAt == 9) = true := by decide +kernel

theorem test_watchdog :
    dogRuns (up.setFld (pqReg 0 0x07C) 0 24 5) 0 = true ∧
    gives (exec (.stewardWatchdogExpiry p0) ((withPlot { qa := { entries := [passDesc 0] } }).setFld (pqReg 0 0x07C) 0 24 5))
      (fun t => (t.plot 0).failed == some .watchdog && (t.plot 0).qa.entries == [] && fenced t 0) = true := by decide +kernel

theorem test_core_release :
    reach up .pf false (ccReg 0 0x040) = .ok ∧ coresFree up 0 = true ∧
    gives (exec (.coreRelease .pf 0 0x80) ((up.setReg (ccReg 0 0x048) 0x100).setReg (ccReg 0 0x04C) 1))
      (fun t => (t.core 7).released && (t.core 7).pc == 0x100000100 && !(t.core 7).machine && t.fld (ccReg 0 0x040) 0 16 == 0x8080) = true ∧
    coresFree (partIn .stopped) 0 = false ∧
    gives (exec (.coreRelease .pf 0 0x80) (partIn .stopped)) (fun t => !(t.core 7).released) = true := by decide +kernel

/-- Core 7 of stack 0 released, over a cistern that holds 5 at 64. -/
def coreUp : State := { up.setCore 7 { released := true, machine := false, pc := 0x1000 } with dram := [(64, 5)] }

theorem test_core_atomic_at_the_cistern :
    coreRuns coreUp 7 = true ∧ amoWeir .add true = some 6 ∧ amoLen .add true = 8 ∧ addrOk coreUp (some 0) 64 8 = true ∧ devWriteGo coreUp 64 8 = true ∧
    gives (exec (.coreAtomic 0 7 .add true 64 false 3 0 9) coreUp) (fun t => t.dram == [(64, 8)] && (t.core 7).getX 9 == 5 && (t.core 7).pc == 0x1004) = true := by
  decide +kernel

/-- The same with the line in the cache. -/
def coreCached (resv : Option Nat) : State :=
  { coreUp with caches := [(lineKey 0 0 64, some ⟨5 :: List.replicate 63 0, false, 0⟩)] }.updCore 7 fun c => { c with resv := resv }

/-- The first byte of the cached line, and whether it is dirty. -/
def lineOf (t : State) : Option (Byte × Bool) := (tget none t.caches (lineKey 0 0 64)).map fun l => (nth 0 l.bytes 0, l.dirty)

theorem test_core_atomic_in_the_cache :
    devPlace (coreCached none) 64 = some (0, 64) ∧
    gives (exec (.coreAtomic 0 7 .max true 64 true 9 0 9) (coreCached none)) (fun t => lineOf t == some (9, true) && (t.core 7).getX 9 == 5 && t.dram == [(64, 5)]) =
      true ∧
    gives (exec (.coreAtomic 0 7 .casq true 64 true 7 5 8) (coreCached none)) (fun t => lineOf t == some (7, true)) = true := by decide +kernel

theorem test_core_reservation :
    gives (exec (.coreAtomic 0 7 .lr true 64 true 0 0 9) (coreCached none)) (fun t => (t.core 7).resv == some (lineKey 0 0 64) && (t.core 7).getX 9 == 5) = true ∧
    gives (exec (.coreAtomic 0 7 .sc true 64 true 6 0 9) (coreCached (some (lineKey 0 0 64))))
      (fun t => lineOf t == some (6, true) && (t.core 7).getX 9 == 0 && (t.core 7).resv.isNone) = true ∧
    gives (exec (.coreAtomic 0 7 .sc true 64 true 6 0 9) (coreCached none)) (fun t => lineOf t == some (5, false) && (t.core 7).getX 9 == 1) = true := by
  decide +kernel

theorem test_core_atomic_traps :
    addrOk coreUp (some 0) 0x80000000000 8 = false ∧
    gives (exec (.coreAtomic 0 7 .add true 68 false 3 0 9) coreUp) (fun t => t.dram == [(64, 5)] && (t.core 7).pc ≠ 0x1004) = true := by decide +kernel

theorem test_core_token :
    reach up .pf false (ccReg 0 0x058) = .ok ∧ tokDestOk up (partOf up 0) ⟨0, 5⟩ = true ∧
    gives (exec (.coreTokenTx .pf 0 (0x5000 + 5 * 0x200000)) up) (fun t => t.net.map (fun p => (p.die, p.cls, p.dst)) == [(0, 3, ⟨0, 5⟩)]) = true ∧
    gives (exec (.coreTokenTx .pf 0 (0x7000 + 5 * 0x200000)) up) (fun t => t.net == [] && t.bit (ccReg 0 0x014) 4) = true := by decide +kernel

/-- A JPEG job of one picture of 16 by 16 FP32 values from 4,096 to 8,192. -/
def jpegJob : Desc := [4, 4096, 0, 64, 8192, 0, 4096, 0x00100010, 0, 0, 1]

/-- `up` with media channel 0 of partition 0 RUNNING. -/
def media (M : Media) : State := (up.setFld (lndReg 0x140) 0 5 0x10).setMed 0 { M with fstate := .running }

theorem test_media_push :
    reach up .pf false (medReg 0 0x040) = .ok ∧
    gives (exec (.mediaSubmitPush .pf 0) (media { window := [3] })) (fun t => (t.med 0).queue.map (·.take 2) == [[3, 0]]) = true ∧
    gives (exec (.mediaSubmitPush .pf 0) up) (fun t => t.bit (medReg 0 0x014) 1) = true ∧
    gives (exec (.mediaSubmitPush .pf 0) (media { queue := [[], [], [], []] })) (fun t => (t.med 0).queue.length == 4 && t.bit (medReg 0 0x014) 0) = true := by
  decide +kernel

theorem test_media_rejects :
    medGo (media {}) 0 = true ∧ mCheck (media {}) 0 [7] = some 7 ∧
    gives (exec (.mediaJobStart 0) (media { queue := [[7]] }))
      (fun t => (t.med 0).job.isNone && (t.med 0).queue == [] && (t.med 0).cpl.map (fun x => x.1.status) == [7]) = true := by decide +kernel

theorem test_media_job_ends :
    medRuns (media {}) 0 = true ∧ devReadGo (media {}) (mAddr (medOwner (media {}) 0) 0) 64 = true ∧ mediaStatus .codec false = 0x60 ∧
    gives (exec (.mediaJobComplete 0 .codec) (media { job := some [4, 0, 0, 64], context := true }))
      (fun t => (t.med 0).job.isNone && !(t.med 0).context && (t.med 0).cpl.map (fun x => x.1.status) == [0x60]) = true := by decide +kernel

theorem test_media_picture :
    mMax [4, 0, 0, 0, 0, 0, 0, 0x00010001, 0, 0, 1] = 1 ∧
    gives (exec (.mediaPictureOutput 0 [0, 0, 0]) (media { job := some [4, 0, 0, 0, 0, 0, 0, 0x00010001, 0, 0, 1] })) (fun t => (t.med 0).frames == 1) = true := by
  decide +kernel

theorem test_media_pop :
    reach up .pf true (medReg 0 0x04C) = .ok ∧
    gives (exec (.mediaCplPop .pf 0) up) (fun t => t.reply == { data := [0, 0, 0, 0] }) = true ∧
    gives (exec (.mediaCplPop .pf 0) (media { cpl := [(rec0, 3)] }))
      (fun t => t.reply == { data := leBytes 4 (medCplWord rec0) } && (t.med 0).cpl == [] && tget none t.caps (medReg 0 0x050) == some 3) = true := by decide +kernel
/-! ### Security -/

/-- The modulus of a test key of 3,072 bits, made for these tests. -/
def keyN : Nat := 0xbcc19303f77bbaccc5f6b198f3e6cdc4b28f0758c8408b66c8e88b7b330a8b0e5152826de6990811cd9bc52dc1c15c85e6c5e6a5007964d3dc18ccf416f220acde819224a3af6975316427f1e7206b12cf19d750f4e785377a96ffdde8544de5ba032e2ef9ffa46d5378dd5e06194dd4b4a9c44a6ef57e3d16cd0566b7d03ce26a5bb3151b4e7d08cbadf6606cc1fe88ac6d93907e2486a30195b8fed62c9ac71bb2777de7bd54be5f8dd756996243426aff61b098374a07bafc1ab0c7053e95d67ed8e1df5d8bac02440abd5f159ef3e1fcfc934597bbadcfebb8c21f051b836056b66af170f744561d5691c3a0fa55c14bfe9587206c23d288c5e8c17230779fec99e1edfd22736428da1bbd64b7342cf651a7fd7252c645fb5b8df8882ef65406f87582b392a55598fcbe206c1475ee5bbe85fd6765e4de0f26f627070650c80390be6a86afea2e0b3103ad99844d669e5c33637541b8f9da608ea75ca1e5d5180509e2316300ebae905af985c19b945a547d96ec401171f7da1b5341f873

/-- Its signature of `token`. -/
def tokenSig : Nat := 0x8aa43dffc061d0f2d3f7b002b654b6fd9889e7d9f327edfaf8dd0856a5bfc44394e11cc43dbcef65a5c953b9dfee95f4c8f421243d9b4d6ed3ed4b54838b5e9ba44aa11e01389d1c6cb6dd4fd988834f44251f73cbec88ef1b8430df469a97f9b1fdba2c1448f1c12e7669d4b9c935238385ff0c21c99ac8d99c28a624307f120518895b9570b8e6b19aa4be72d4257d0bd2eb749c968193e74ea016b62b7ecbb1d2c3dc98d83970b56999a58ce2b9d1f21c48e752cf698dff98b449a42a8ceb7d38a8decc417f93102a3ee6b1c29c069112439d10f921b69f4ba3282a8673ff5aecdb18e0f31a6f3f7e06f05062918b4da1e0d691b0eb7913824f1db747f5a05651af562e19ff06e0bc373710dc98edf0f55438b0446ade845cbc2e0394074b36dba3a180d50a5335c0059b20f319a605c5e2120724c3b25bc250d30d327b6c5f1624555a6c48fabcfc0f1ef2a6623077f29d23466d379fd0f5728b833bae379720c0d9b63fcd2210f4ad33dbdb62663c75c89c5eebc6af836bacb204a00195

/-- Its signature of `image`. -/
def imageSig : Nat := 0x951fc5b7c616e9e115c09aff124ee8624b3cffd931083d8ebaf828fdb87561f9eabfcee8280ddb047ce0d9f0e5f90c8096c4b20da34dba2b652e41c65685b7fefcd1990b3e1a580a8353ff6ca95eaf62b90ab2080f9224236bd51c3e89ec05bece16d25fa94157d1dc301156b8d85e43cbd52cc5a05d81dc59d20566e3518df83fa64c8b3799162b8f09cb3af149a829061ad77fc357ae34d6548bc84acba859994362357b96e18ae8ec0a48ef0e0986a15c4aff012bc781ef489ee89d89e3f57ccabaa5d2a6cd5a2a1ce5945124e2b36e0806c951755f489ad6faae7d641d3dd2a64ba31d1ea4c7259848baa30541067638bcd6df3e0d3161fcf95bfe0a93aede9fb624c2401e86adbc680207f961ccb90df37d7c2b1593c5d6603aedb1d2c4961389abcce8e2444d02f6aa5ea45968c97ff71cef1df2e4e13befb927645ba4d5d6f84823b03777e9b12f5ea564f0e84e293bab523edba43955edb5b496da1eaa00e646b1c88a3408adcdc7d486b402d189222c5748ac72874c2641df8be9fb

/-- The test key as an image or a token carries it. -/
def keyBytes : List Byte := leBytes 384 keyN ++ leBytes 4 65537

/-- A debug token of level 2 for a package of zero identity and nonce, signed by the key of slot 0. -/
def token : List Byte :=
  List.replicate 64 0 ++ [2, 0] ++ List.replicate 62 0 ++ keyBytes ++ leBytes 384 tokenSig ++ List.replicate 124 0

/-- A revocation of slot 1 signed by the key of slot 0. -/
def image : List Byte :=
  [0x4E, 0x44, 0x52, 0x4E, 1, 0, 2, 0, 0, 1] ++ List.replicate 54 0 ++ keyBytes ++ List.replicate 60 0 ++ leBytes 384 imageSig

/-- `up` with the test key in slot 0. -/
def keyed : State := { up with fuses := { keyHash := [sha256 keyBytes] } }

/-- `keyed` with an image at device address 0. -/
def imaged (l : List Byte) : State := { keyed with dram := (List.range l.length).zip l }

theorem test_svn_commit :
    reach up .pf false (secReg 0x048) = .ok ∧ up.sec.req = none ∧
    gives (exec (.svnCommit .pf) up) (fun t => t.fld (secReg 0x054) 0 2 == 2) = true ∧
    gives (exec (.svnCommit .pf) (up.setFld (secReg 0x044) 16 7 5))
      (fun t => t.fld (secReg 0x054) 0 2 == 1 && t.sec.req == some (.svnCommit 5)) = true := by decide +kernel

theorem test_no_image_to_revoke :
    revokeImage (up.setReg (secReg 0x050) 0x2000) = none ∧
    gives (exec (.revokeSubmit .pf) (up.setReg (secReg 0x050) 0x2000)) (fun t => t.fld (secReg 0x054) 0 2 == 3 && t.fld (secReg 0x054) 4 4 == 1) =
      true := by decide +kernel

theorem test_bad_image_to_revoke :
    ((revokeImage up).map fun x => imgForm x.2 2 && imgFused x.1 x.2 && imgWhole x.2) = some false ∧
    gives (exec (.revokeSubmit .pf) up) (fun t => t.fld (secReg 0x054) 0 2 == 3 && t.fld (secReg 0x054) 4 4 == 1) = true := by decide +kernel

theorem test_signed_image : imgForm image 2 = true ∧ imgFused keyed image = true ∧ imgWhole image = true := by decide +kernel

theorem test_revocation :
    (revokeImage (imaged image)).isSome = true ∧ revokeRule keyed image = false ∧
    revokeRule (keyed.setFld (secReg 0x040) 8 2 1) image = true := by decide +kernel

theorem test_request_done :
    gives (exec (.keyEngineRequestDone true) { up with sec := { req := some (.svnCommit 5) } }) (fun t => t.fuses.svn == 5 && t.sec.req.isNone) =
      true ∧
    gives (exec (.keyEngineRequestDone true) { up with sec := { req := some (.revoke 1) } }) (fun t => t.fuses.revoked == 2) = true ∧
    gives (exec (.keyEngineRequestDone false) { up with sec := { req := some (.revoke 1) } })
      (fun t => t.fuses.revoked == 0 && t.fld (secReg 0x054) 4 4 == 3) = true := by decide +kernel

theorem test_token_accepted : tokenOk keyed token = true := by decide +kernel

theorem test_debug_opens :
    gives (exec (.dbgTokenSubmit token true) { keyed with sec := { sessions := [(0, 1)] } })
      (fun t => t.bit (secReg 0x040) 17 && t.sec.sessions == [] && t.fld (secReg 0x080) 0 2 == 2) = true := by decide +kernel

theorem test_debug_token_refused :
    tokenOk up token = false ∧ gives (exec (.dbgTokenSubmit token true) up) (fun t => t.bit (secReg 0x080) 2 && !t.bit (secReg 0x040) 17) = true := by
  decide +kernel

/-- The I/O die's barge 0 as an owned unit. -/
def unit0 : OwnedId := .barge 0

theorem test_owner_changes :
    reach up .pf false (ownerReg unit0) = .ok ∧ pageLocked up (ownerReg unit0) = false ∧ ownedStopped up unit0 = true ∧
    frozenBy up (up.fld (ownerReg unit0) 0 5) (nbits 0x13 0 5) = none ∧
    gives (exec (.ownerWrite .pf unit0 0x13) up) (fun t => t.fld (ownerReg unit0) 0 5 == 0x13) = true ∧
    gives (exec (.ownerWrite .pf unit0 0x13) (up.setChan 2048 { state := .running })) (fun t => t.fld (ownerReg unit0) 0 5 == 0) = true := by
  decide +kernel

theorem test_owner_frozen :
    frozenBy (up.setFld (psecReg 3 0x064) 0 2 1) (up.fld (ownerReg unit0) 0 5) (nbits 0x13 0 5) = some 3 ∧
    gives (exec (.ownerWrite .pf unit0 0x13) (up.setFld (psecReg 3 0x064) 0 2 1)) (fun t => t.bit (psecReg 3 0x064) 3) = true ∧
    gives (exec (.ownerWrite .pf unit0 0x13) (up.setBit (brgReg 2048 0x02C) 0)) (fun t => t.fld (ownerReg unit0) 0 5 == 0) = true := by decide +kernel

theorem test_entropy_fails :
    gives (exec .rngHealthFail (xngIn { state := .auth })) (fun t => t.bit (secReg 0x040) 18 && (t.xng 0).state == .down) = true := by decide +kernel

/-- `up` with one measurement and a session of virtual function 1. -/
def measured : State := { up with sec := { meas := [(2, [7, 8])], sessions := [(1, 1)] } }

theorem test_measurements :
    doeUp measured 1 = true ∧ keysUsable measured = true ∧ 2 ∈ measList measured 1 ∧ 50 ∉ measList measured 1 ∧
    gives (exec (.spdmRequest 1 (.getMeasurements 50 [])) measured) (fun t => t.wire == [.spdm 1 [0x7F, 0x01]]) = true ∧
    gives (exec (.spdmRequest 1 (.other 0)) measured) (fun t => t.wire == [.spdm 1 [0x7F, 0x07]]) = true := by decide +kernel

theorem test_sessions :
    sessionCount measured = 1 ∧ SpdmReq.finish ∈ [SpdmReq.finish, .keyUpdate, .heartbeat] ∧
    gives (exec (.spdmRequest 1 .endSession) measured) (fun t => t.sec.sessions == []) = true ∧
    gives (exec (.spdmRequest 1 .finish) measured) (fun t => t.wire == [.spdm 1 []]) = true ∧
    gives (exec (.spdmRequest 0 .finish) measured) (fun t => t.wire == [.spdm 0 [0x7F, 0x04]]) = true ∧
    gives (exec (.spdmRequest 1 .ideKeyProgram) measured) (fun t => tget false t.sec.ideBound 1 && t.bit (psecReg 0 0x064) 2) = true := by decide +kernel

/-- `up` with an IDE stream of virtual function 1. -/
def bound : State := { up with sec := { ideBound := [(1, true)] } }

theorem test_stream_breaks :
    tdiLocked (bound.setFld (psecReg 0 0x064) 0 2 1) 0 = true ∧
    gives (exec (.ideIntegrityFail 1) (bound.setFld (psecReg 0 0x064) 0 2 1))
      (fun t => tget false t.sec.ideInsecure 1 && tdiState t 0 == 3 && tget 0 t.lndErr 7 == 1) = true := by decide +kernel

theorem test_interface_locks :
    lockOk bound 0 = true ∧ gives (exec (.lockInterface 0) bound) (fun t => tdiState t 0 == 1 && pageLocked t (psecReg 0 0)) = true ∧
    lockOk up 0 = false ∧ gives (exec (.lockInterface 0) up) (fun t => t == up) = true := by decide +kernel

theorem test_interface_starts_and_stops :
    gives (exec (.startInterface 0) (up.setFld (psecReg 0 0x064) 0 2 1)) (fun t => tdiState t 0 == 2) = true ∧
    gives (exec (.stopInterface 0) (up.setFld (psecReg 0 0x064) 0 2 3)) (fun t => tdiState t 0 == 0) = true ∧
    gives (exec (.stopInterface 0) (up.setFld (psecReg 0 0x064) 0 2 2)) (fun t => (t.part 0).tdiStop && (t.part 0).state == .resetting) = true := by
  decide +kernel

/-! ### Thermal -/

/-- `up` with these sensors of stack 0. -/
def sensed (l : List (Nat × Sensor)) : State := { up with sensors := l, fuses := { stackEn := [0] } }

/-- A sensor that has stood at one temperature, in 0.0625 C. -/
def steady (t : Int) : Sensor := { last := [t], seen := true }

theorem test_sensor_range :
    sensorLive (sensed []) 0 2 = true ∧ sensorLive (sensed []) 16 8 = false ∧
    gives (exec (.sensorSample 0 2 0x123 400) (sensed [])) (fun t => (t.sensor 2).ok && (t.sensor 2).raw == 0x123 && (t.sensor 2).last == [400]) = true ∧
    gives (exec (.sensorSample 0 2 0x123 2401) (sensed [])) (fun t => (t.sensor 2).cause == 1 && !(t.sensor 2).ok) = true ∧
    gives (exec (.sensorSample 0 2 0x123 2400) (sensed [])) (fun t => (t.sensor 2).ok) = true := by decide +kernel

theorem test_sensor_stuck :
    gives (exec (.sensorMean100ms 0 2) (sensed [(2, { steady 400 with same := 100000 })])) (fun t => (t.sensor 2).cause == 2) = true ∧
    gives (exec (.sensorMean100ms 0 2) (sensed [(2, { steady 400 with prev := some (100, 1), sum := 181, cnt := 1 })]))
      (fun t => (t.sensor 2).cause == 3) = true ∧
    gives (exec (.sensorMean100ms 0 2) (sensed [(2, { steady 400 with prev := some (100, 1), sum := 180, cnt := 1 })]))
      (fun t => (t.sensor 2).cause == 0) = true := by decide +kernel

/-- Stack 0 with a pair, a layer and a logic sensor at these temperatures. -/
def looped (pair layer logic : Int) : State := sensed [(0, steady pair), (1, steady pair), (2, steady layer), (9, steady logic)]

theorem test_loop_sets_band_and_level :
    stackUp (looped 1300 1520 1000) 0 = true ∧
    deciding (((looped 1300 1520 1000).sensorsLost 0).pairCheck 0) 0 = some 1520 ∧
    ((((looped 1300 1520 1000).sensorsLost 0).pairCheck 0).stk 0).bandLost = none ∧
    gives (exec (.thermalLoop 0) (looped 1300 1520 1000)) (fun t => t.fld (smReg 0 0x040) 0 3 == 3 && (t.stk 0).tLevel == 4) = true ∧
    gives (exec (.thermalLoop 0) (looped 1300 1300 1680)) (fun t => t.fld (smReg 0 0x040) 0 3 == 1 && (t.stk 0).tLevel == 8) = true ∧
    gives (exec (.thermalLoop 0) (looped 1300 1519 0)) (fun t => t.fld (smReg 0 0x040) 0 3 == 2 && (t.stk 0).tLevel == 0) = true := by decide +kernel

theorem test_band_falls_late :
    nextBand 3 1488 = 3 ∧ nextBand 3 1487 = 2 ∧ nextBand 0 1360 = 2 ∧ nextBand 2 1680 = 4 ∧ nextBand 1 (-40) = 0 := by decide

theorem test_no_sensor_halts :
    ((((sensed []).sensorsLost 0).pairCheck 0).stk 0).bandLost ≠ none ∧
    gives (exec (.thermalLoop 0) (sensed [])) (fun t => t.fld (smReg 0 0x040) 0 3 == 4 && (t.stk 0).sensHalt) = true := by decide +kernel

theorem test_power_level :
    powerMean { power := [140001] } = 140001 ∧ capMw (sensed []) 0 = 140000 ∧ timedMode (sensed []) 0 = false ∧
    gives (exec (.powerEstimate 0 140001) (sensed [])) (fun t => (t.stk 0).pLevel == 1 && t.fld (govReg 0 0x048) 16 8 == 140) = true ∧
    gives (exec (.powerEstimate 0 135800) (sensed [])) (fun t => (t.stk 0).pLevel == 0) = true := by decide +kernel

theorem test_power_level_falls :
    gives (exec (.adaptiveLevelLower 0) ((sensed []).updStk 0 fun T => { T with pLevel := 5, power := [128799] }))
      (fun t => (t.stk 0).pLevel == 4) = true ∧
    gives (exec (.adaptiveLevelLower 0) ((sensed []).updStk 0 fun T => { T with pLevel := 5, power := [128800] }))
      (fun t => (t.stk 0).pLevel == 5) = true := by decide +kernel

/-- A timed stack whose plot 3 waits for a permit. -/
def waiting : State :=
  ((sensed []).setPart 0 { assigned := true, first := 0, sizeLog2 := 2, state := .running }).updPlot 3 fun P => { P with arr := { lane := [pass .gate] } }

theorem test_permit_is_granted :
    timedMode waiting 0 = true ∧ permitTurn waiting 0 40 = some 3 ∧
    gives (exec (.startPermitGrant 0 3 40) waiting) (fun t => (t.arr 3).permit && (t.stk 0).permitAt == 40 && (t.stk 0).rrPtr == 4) = true := by
  decide +kernel

/-- `sensed` with its P-state left to `PSTATE_MAX`. -/
def fixedClock : State := (sensed []).clrBit (govReg 0 0x044) 5

theorem test_clock_and_voltage_move :
    pstateChoice fixedClock 0 = 0 ∧ pstateOf (fixedClock.setFld (govReg 0 0x048) 4 3 2) 0 = 2 ∧
    gives (exec (.pstateDecision 0 true) ((fixedClock.setFld (govReg 0 0x048) 4 3 2).updStk 0 fun T => { T with vdd := 680 }))
      (fun t => (t.stk 0).vdd == 730 && (t.stk 0).change == some { target := 0, raising := true, hold := false }) = true ∧
    gives (exec (.pstateDecision 0 true) ((fixedClock.setFld (govReg 0 0x044) 2 3 2).updStk 0 fun T => { T with vdd := 800 }))
      (fun t => (t.stk 0).vdd == 800 && (t.stk 0).change == some { target := 2, raising := false, hold := true }) = true ∧
    gives (exec (.pstateDecision 0 true) fixedClock) (fun t => (t.stk 0).change.isNone) = true := by decide +kernel

/-- Stack 0 in a change of P-state. -/
def changing (c : PChange) (mv : Nat) : State := (sensed []).updStk 0 fun T => { T with change := some c, vdd := mv }

theorem test_voltage_steps :
    gives (exec (.voutStepSettled 0 true) (changing ⟨0, true, false⟩ 780)) (fun t => (t.stk 0).vdd == 800) = true ∧
    gives (exec (.voutStepSettled 0 true) (changing ⟨0, true, false⟩ 800)) (fun t => (t.stk 0).change == some ⟨0, true, true⟩) = true ∧
    gives (exec (.voutStepSettled 0 true) (changing ⟨2, false, false⟩ 680)) (fun t => (t.stk 0).change == none) = true ∧
    gives (exec (.voutStepSettled 0 false) (changing ⟨0, true, false⟩ 780))
      (fun t => (t.stk 0).pmbBad && t.bit (pkgReg 0x044) 5 && t.bit (thmReg 0x040) 10) = true := by decide +kernel

theorem test_clock_switches :
    arraysEmpty (changing ⟨1, true, true⟩ 750) 0 = true ∧
    gives (exec (.clockSwitch 0 true) (changing ⟨1, true, true⟩ 750)) (fun t => pstateOf t 0 == 1 && (t.stk 0).change.isNone) = true ∧
    gives (exec (.clockSwitch 0 true) (changing ⟨2, false, true⟩ 750)) (fun t => pstateOf t 0 == 2 && (t.stk 0).vdd == 700) = true := by decide +kernel

/-- A package in which this sensor has been hot for two samples. -/
def hotSensor (die i : Nat) : State := sensed [(sensKey die i, { steady 1760 with hardCnt := 2 })]

theorem test_hard_limit_trips :
    tripDue (hotSensor 0 2) = true ∧
    gives (exec .hardLimitTrip (hotSensor 0 2)) (fun t => t.clocksOff && t.pins.thermtrip && stackHalted t 15) = true ∧
    tripDue (hotSensor 1 2) = false ∧ gives (exec .hardLimitTrip (hotSensor 1 2)) (fun t => t == hotSensor 1 2) = true := by decide +kernel

theorem test_comparator_trips :
    gives (exec (.analogueComparatorTrip 16) (sensed [])) (fun t => t.clocksOff && t.pins.thermtrip) = true ∧
    gives (exec (.analogueComparatorTrip 1) (sensed [])) (fun t => !t.clocksOff) = true := by decide +kernel

/-- A package whose supervisor owns the coolant, with the pulses active. -/
def cooled : State := { (sensed []).setBit (pkgReg 0x044) 3 with boot := { cool := { ppl := 400 } } }

theorem test_coolant_sensors :
    coolRuns cooled = true ∧ coolValid (some 1920) = some 1920 ∧ coolValid (some 1921) = none ∧ coolValid none = none ∧
    gives (exec (.coolantSensorRead (some 400) none) cooled)
      (fun t => t.bit (thmReg 0x044) 16 && !t.bit (thmReg 0x048) 16 && t.fld (thmReg 0x044) 0 16 == 400 && t.coolant.flowReads == 1) = true := by
  decide +kernel

theorem test_flow :
    gives (exec .flowPulse (sensed [])) (fun t => t.bit (pkgReg 0x044) 3 && t.coolant.pulses == 1) = true ∧ coolOwns cooled = true ∧
    gives (exec .flowStop cooled)
      (fun t => t.coolant.halted && stackHalted t 0 && govLevel t 0 == 15 && t.bit (thmReg 0x040) 0 && t.bit (thmReg 0x040) 11) = true ∧
    gives (exec .flowStop { cooled with boot := {} }) (fun t => !t.coolant.halted && t.coolant.noFlow) = true := by decide +kernel

theorem test_flow_is_estimated :
    flowMl { cooled with coolant := { pulses := 30 } } = 4500 ∧
    gives (exec .coolantEstimate { cooled with coolant := { pulses := 30 } })
      (fun t => t.fld (thmReg 0x04C) 0 16 == 4500 && t.coolant.pulses == 0 && (t.stk 0).secs.length == 1) = true := by decide +kernel

theorem test_resume :
    reach cooled .pf false (thmReg 0x054) = .ok ∧ resumeOk { cooled with coolant := { halted := true, flowReads := 10 } } = true ∧
    gives (exec (.govResume .pf) { cooled with coolant := { halted := true, flowReads := 10 } }) (fun t => !t.coolant.halted) = true ∧
    resumeOk { cooled with coolant := { halted := true, flowReads := 9 } } = false ∧
    gives (exec (.govResume .pf) { cooled with coolant := { halted := true, flowReads := 9 } })
      (fun t => t.coolant.halted && t.bit (thmReg 0x058) 0) = true := by decide +kernel

/-! ### Tollhouse -/

/-- A package whose tollhouse meters. -/
def metered (T : Toll) : State := { up with toll := { T with on := true } }

/-- A frame by which partition 1 owns stack 0 and no partition the others. -/
def frame1 : FeedFrame := { owner := 1 :: List.replicate 15 31, wu := [7], lnd := [], xng := [], fwd := 0 }

theorem test_samples_add_up :
    tollOn (metered {}) = true ∧
    gives (exec (.tollSample [5, 6] true) (metered { acc := [(0, 3)] }))
      (fun t => tget 0 t.toll.acc 0 == 8 && tget 0 t.toll.acc 1 == 6 && t.toll.flags == 5 && t.toll.msOpen) = true := by decide +kernel

theorem test_frame_closes_the_millisecond :
    gives (exec (.feedFrame frame1 true) (metered { acc := [(0, 250000)] }))
      (fun t => tget 0 t.toll.sec 0 == 2 && tget 0 t.toll.acc 0 == 50000 && tget 0 t.toll.acct 1 == 2 && tget 0 t.toll.wu 1 == 7) = true ∧
    gives (exec (.feedFrame frame1 false) (metered { acc := [(0, 250000)] }))
      (fun t => tget 0 t.toll.sec 0 == 2 && tget 0 t.toll.acct 17 == 2 && t.toll.flags == 3 && t.toll.frame.isNone) = true ∧
    gives (exec .feedGap (metered { acc := [(0, 250000)] })) (fun t => tget 0 t.toll.acct 17 == 2 && t.toll.flags == 3) = true := by decide +kernel

theorem test_records_chain :
    (metered { alive := 1, seq := 4, ring := [⟨4, [1, 2]⟩] }).toll.find 4 = some ⟨4, [1, 2]⟩ ∧
    gives (exec (.tollSecond true) (metered { alive := 1, seq := 4, ring := [⟨4, [1, 2]⟩] }))
      (fun t => t.toll.seq == 5 && t.toll.ring.map (·.seq) == [5, 4] && t.toll.second == 1) = true ∧
    gives (exec (.tollSecond false) (metered { alive := 1, seq := 4, ring := [⟨4, [1, 2]⟩] }))
      (fun t => t.toll.seq == 5 && t.toll.ring.map (·.seq) == [4] && t.toll.sram.map (·.seq) == [5] && t.toll.memFault) = true := by decide +kernel

theorem test_summary_closes :
    gives (exec .tollSummary (metered { seq := 4, sumFirst := 2 })) (fun t => t.toll.sumFirst == 5 && t.toll.sums.map (·.seq) == [4]) = true ∧
    gives (exec .tollSummary (metered { seq := 4, sumFirst := 5 })) (fun t => t.toll.sums == []) = true := by decide +kernel

theorem test_pin_is_audited :
    gives (exec (.tollCalEnChange true) (metered {})) (fun t => t.pins.calEn && t.toll.audit.map (nth 0 · 0) == [1]) = true ∧
    gives (exec (.tollCalEnChange true) (metered { audit := List.replicate 3840 [] })) (fun t => t.toll.audit.length == 3840 && t.toll.auditOver == 1) =
      true := by decide +kernel

/-- A request of this opcode, first and second operand in mailbox 0. -/
def asked (T : Toll) (op a b : Nat) : State :=
  ((((metered { T with queue := [0] }).setReg (mbReg 0 0x100) (BitVec.ofNat 32 op)).setReg (mbReg 0 0x108) (BitVec.ofNat 32 a)).setReg (mbReg 0 0x110)
    (BitVec.ofNat 32 b))

theorem test_mailbox_turns :
    mbTaken (asked {} 1 0 0) 0 (· == 1) = true ∧ mbTaken (asked {} 8 0 0) 0 (fun o => o == 0 || decide (7 < o)) = true ∧
    mbTurn { queue := [0, 5], lastBox := 0 } = some 5 ∧
    gives (exec (.mbBadOpcode 0) (asked {} 8 0 0)) (fun t => t.toll.resp == some (0, 1, []) && t.toll.queue == [] && t.toll.lastBox == 0) = true := by
  decide +kernel

theorem test_status_answers :
    gives (exec (.status 0) (asked { seq := 77 } 2 0 0))
      (fun t => match t.toll.resp with | some (0, 0, b) => leAt b 0 8 == 77 && leAt b 12 4 == 15 | _ => false) = true := by decide +kernel

theorem test_records_are_read :
    gives (exec (.readRecord 0) (asked { ring := [⟨4, [1, 2]⟩] } 3 4 0)) (fun t => t.toll.resp == some (0, 0, [1, 2])) = true ∧
    gives (exec (.readRecord 0) (asked { ring := [⟨4, [1, 2]⟩] } 3 5 0)) (fun t => t.toll.resp == some (0, 2, [])) = true ∧
    gives (exec (.readSummary 0) (asked { sums := [⟨4, [1, 2]⟩] } 4 4 0)) (fun t => t.toll.resp == some (0, 0, [1, 2])) = true ∧
    gives (exec (.readSummary 0) (asked {} 4 4 0)) (fun t => t.toll.resp == some (0, 2, [])) = true ∧
    gives (exec (.readAudit 0) (asked { audit := [[8], [9]] } 6 1 0)) (fun t => t.toll.resp == some (0, 0, [8])) = true ∧
    gives (exec (.readAudit 0) (asked { audit := [[8], [9]] } 6 2 0)) (fun t => t.toll.resp == some (0, 2, [])) = true := by decide +kernel

theorem test_another_partition_is_hidden :
    (filterRecord 1 ((List.range 512).map fun i => BitVec.ofNat 8 (i / 16 + 1))).getD 32 0 = 3 ∧
    (filterRecord 1 ((List.range 512).map fun i => BitVec.ofNat 8 (i / 16 + 1))).getD 48 9 = 0 ∧
    (filterRecord 0 ((List.range 512).map fun i => BitVec.ofNat 8 (i / 16 + 1))).getD 48 0 = 4 := by decide +kernel

theorem test_ranges :
    rangeOk { ring := [⟨5, []⟩, ⟨4, []⟩] } 4 5 = true ∧ rangeOk { ring := [⟨5, []⟩, ⟨4, []⟩] } 4 6 = false ∧
    rangeOk { ring := [⟨5, []⟩, ⟨4, []⟩] } 5 4 = false ∧ rangeOk { ring := [⟨5, leBytes 12 (2 ^ 64)⟩, ⟨4, []⟩] } 4 5 = false ∧
    mbTaken (asked { ring := [⟨5, []⟩, ⟨4, []⟩] } 5 4 5) 0 (· == 5) = true ∧
    gives (exec (.signRange 0) (asked {} 5 4 5)) (fun t => t.toll.resp == some (0, 3, [])) = true := by decide +kernel

/-- The test key's signature of `calBytes`. -/
def calSig : Nat := 0xab98c554d862030fb577b1b48d7db5a13f232417184e447208c9f28fe03136f270da1963e90acef6e43166dcc49046c9301f77608075450944e4588eff0da5d559d45b18dc6cf1655becd33324c277cf31ab794b18b6fc4958ede2d46e87e189c88a9fc7d46b03382a864b4f05d76b7ff15c9f142221311b88f485bbbc754cbfb901745d785873b8d1d1951eff0ead1724aa45014ea50b11b635a270320a9694b3b5d21d6ebd3d9b843d962a06effe4b582cd63acdc5b9a427091305d09c5809525db2a2e5c0e11b06d8214bd79c3c4bceff536ef07d682b458bde8204613965aea6a9bbbcd62b9d39118edb21e9eeea9e890e33228b757433419fc1040cf4205998a9d7abefc9e12c9037c6413f28d8e8d3569e98504bbf474a25a3280c2742fda64fe481ef3f75aa432f0f70b98aba15f52e2392a3c3bc21eb8809521eff4d312b57bfd0c20ce4dcacb490619d3bf64b4b7ec0627b9f85ec51f419abdf2eebf4724d0f9b8b2fdc2e29463a0cb2978cd4db5db5729ab3d4f2584376b6af66c1

/-- The message that the key has signed: the first change of a tollhouse of zero key hash, `SUMMARY_MIN` 5 and no constants. -/
def calBytes : List Byte := List.replicate 32 0 ++ [1, 0, 0, 0, 5] ++ keyBytes ++ leBytes 384 calSig

/-- A calibration request, with the pin or without it. -/
def calibrating (T : Toll) (pin : Bool) : State := { asked T 7 0 0 with pins := { (asked T 7 0 0).pins with calEn := pin } }

theorem test_calibration_needs_the_pin :
    mbTaken (calibrating {} false) 0 (· == 7) = true ∧
    gives (exec (.calibrate 0 calBytes true) (calibrating {} false)) (fun t => t.toll.resp == some (0, 4, []) && t.toll.sealCnt == 0) = true ∧
    gives (exec (.calibrate 0 calBytes false) (calibrating {} true)) (fun t => t.toll.resp == some (0, 4, [])) = true := by decide +kernel

theorem test_calibration_needs_an_authority :
    calMessageOk {} calBytes = false ∧
    gives (exec (.calibrate 0 calBytes true) (calibrating {} true)) (fun t => t.toll.resp == some (0, 5, []) && t.toll.newCal.isNone) = true ∧
    calMessageOk { authHash := [sha256 keyBytes], sealCnt := 256 } calBytes = false := by decide +kernel

theorem test_calibration_accepted : calMessageOk { authHash := [sha256 keyBytes] } calBytes = true := by decide +kernel

theorem test_response_is_shown :
    gives (exec (.tollMbDone 3) (metered { resp := some (3, 2, [9, 8]) }))
      (fun t => t.fld (mbReg 3 0x044) 0 2 == 2 && t.fld (mbReg 3 0x044) 8 8 == 2 && t.fld (mbReg 3 0x044) 16 12 == 2 &&
        (t.reg (mbReg 3 0x400)).toNat == 0x809 && t.wire == [.tollResp 3] && t.bit (mbReg 3 0x014) 0) = true := by decide +kernel

/-! ### Stops, soundings and debug -/

/-- A package without stacks. -/
def bare : State := { up with fuses := { stackEn := [] } }

/-- A package without stacks whose stop 1 spreads with these units. -/
def stopIn (l : List StopUnit) : State := { (bare.setFld (dbgReg 0x044) 0 2 1).setFld (dbgReg 0x044) 4 8 1 with dbg := { stopAt := some 0, units := l } }

/-- The unit of media channel 0, with the four classes of one port as its inputs. -/
def med0 : UnitId := unitAt 16 9 0

theorem test_stop_goes :
    reach bare .pf false (dbgReg 0x040) = .ok ∧ stopRefused bare = false ∧ stopOn bare = false ∧
    gives (exec (.stopGo .pf) bare) (fun t => stopState t == 1 && stopId t == 1 && stopping t (unitAt 16 6 67) && t.dbg.stopAt == some bare.tb) = true := by
  decide +kernel

theorem test_stop_waits_or_is_refused :
    stopRefused (bare.setFld (psecReg 3 0x064) 0 2 1) = true ∧
    gives (exec (.stopGo .pf) (bare.setFld (psecReg 3 0x064) 0 2 1)) (fun t => t.bit (dbgReg 0x044) 3 && t.dbg.stopAt.isNone) = true ∧
    gives (exec (.stopGo .pf) (bare.setFld (dbgReg 0x050) 0 2 1)) (fun t => t.dbg.stopWait && t.dbg.stopAt.isNone) = true := by decide +kernel

theorem test_stop_releases :
    stopState (bare.setFld (dbgReg 0x044) 0 2 2) = 2 ∧
    gives (exec (.stopRelease .pf) (stopIn [])) (fun t => stopState t == 1) = true := by decide +kernel

theorem test_markers :
    med0 ∈ allUnits (stopIn []) ∧ unitInputs med0 = [0, 1, 2, 3] ∧
    gives (exec (.markerPacket med0 0 1) (stopIn [])) (fun t => stopping t med0 && (stopUnit t med0).marked == [(0, 0)]) = true ∧
    gives (exec (.markerToken med0 3 1) (stopIn [])) (fun t => (stopUnit t med0).marked == [(3, 0)]) = true ∧
    gives (exec (.markerPacket med0 0 2) (stopIn [])) (fun t => !stopping t med0) = true := by decide +kernel

theorem test_stale_marker_counts :
    gives (exec (.markerToken (unitAt 0 0 0) 3 9) bare) (fun t => tget 0 (t.cnt 0).live 14 == 1) = true := by decide +kernel

theorem test_unit_takes_its_snapshot :
    settled (stopIn [{ who := med0, started := true }]) med0 = true ∧
    gives (exec (.unitSnapshot med0) (stopIn [{ who := med0, started := true }]))
      (fun t => stopped t med0 && t.wire == [.marker med0 1] && t.dbg.recs.map (·.who) == [med0]) = true := by decide +kernel

theorem test_marker_comes_late :
    gives (exec (.markerTimeout med0 2) (stopIn [{ who := med0, started := true, snapAt := some 5, marked := [(0, 0)] }]))
      (fun t => (stopUnit t med0).incomplete == [2]) = true ∧
    gives (exec (.markerTimeout med0 0) (stopIn [{ who := med0, started := true, snapAt := some 5, marked := [(0, 0)] }]))
      (fun t => (stopUnit t med0).incomplete == []) = true := by decide +kernel

theorem test_units_are_forced :
    gives (exec .stopForce (stopIn [{ who := med0, started := true }]))
      (fun t => stopped t med0 && (stopUnit t med0).forced && stopState t == 2 && !t.bit (dbgReg 0x044) 2) = true := by decide +kernel

theorem test_sounding :
    gives (exec (.soundingGo .pf) bare) (fun t => t.fld (dbgReg 0x050) 0 2 == 1 && t.dbg.sndAt == some bare.tb && t.dbg.snd.length == 197) = true ∧
    gives (exec (.soundingGo .pf) (stopIn [])) (fun t => t.bit (dbgReg 0x050) 2 && t.dbg.snd == []) = true ∧
    gives (exec .soundingDone (bare.setFld (dbgReg 0x050) 0 2 1)) (fun t => t.fld (dbgReg 0x050) 0 2 == 2 && !stopOn t) = true ∧
    gives (exec .soundingDone { bare.setFld (dbgReg 0x050) 0 2 1 with dbg := { stopWait := true } }) (fun t => stopState t == 1) = true := by decide +kernel

/-- A record of media channel 0. -/
def medRec : DbgRec := makeRec bare med0 false

theorem test_record_is_fetched :
    gives (exec (.dbgRecSel .pf 0x130) bare) (fun t => t.fld (dbgReg 0x058) 0 2 == 1 && t.fld (dbgReg 0x054) 0 23 == 0x130) = true ∧
    gives (exec .dbgRecReady { (bare.setFld (dbgReg 0x058) 0 2 1).setReg (dbgReg 0x054) 0x130 with dbg := { recs := [medRec] } })
      (fun t => t.fld (dbgReg 0x058) 0 2 == 2 && t.fld (dbgReg 0x058) 2 12 == t.dbg.window.length && leAt t.dbg.window 0 4 == 0x130) = true ∧
    gives (exec .dbgRecReady (bare.setFld (dbgReg 0x058) 0 2 1)) (fun t => t.fld (dbgReg 0x058) 0 2 == 3) = true := by decide +kernel

/-- Watch point 2 due with this action. -/
def wpAct (a : Nat) : State := { bare.setFld (wpReg 2 0x04) 11 2 a with dbg := { wpDue := [2] } }

theorem test_watch_point_fires :
    gives (exec (.watchPointFire 2) (wpAct 1)) (fun t => t.dbg.sndAt == some bare.tb && t.dbg.wpDue == []) = true ∧
    gives (exec (.watchPointFire 2) (wpAct 2)) (fun t => t.dbg.stopAt == some bare.tb) = true ∧
    gives (exec (.watchPointFire 2) ((wpAct 2).setFld (psecReg 3 0x064) 0 2 1)) (fun t => t.dbg.wpHold == [] && t.dbg.stopAt.isNone) = true := by
  decide +kernel

theorem test_counter_sample :
    reach up .pf false (cntPage (cntKey .package) 0x040) = .ok ∧
    gives (exec (.cntSample .pf .package) { up with cnts := [(594, { live := [(2, 7)] })] })
      (fun t => (t.cnt 594).held == [(2, 7)] && (t.cnt 594).live == [] && (t.cnt 594).seq == 1) = true := by decide +kernel

/-- `up` at this debug level. -/
def level (n : Nat) : State := up.setFld (secReg 0x080) 0 2 n

/-- A shift of this operation, data and address. -/
def shift (op v a : Nat) : BitVec 88 := BitVec.ofNat 88 (op * 2 ^ 80 + v * 2 ^ 48 + a)

theorem test_jtag_locked :
    jtagLevel (level 0) = 0 ∧ gives (exec (.dbgAccess (shift 1 0 (2 ^ 47))) (level 0)) (fun t => t == level 0) = true ∧
    gives (exec (.dmiAccess (.haltCore 0 0)) (level 1)) (fun t => t == level 1) = true := by decide +kernel

theorem test_jtag_registers :
    gives (exec (.dbgAccess (shift 1 0 (2 ^ 47 + thmReg 0x050))) (level 1)) (fun t => t.dbg.accStat == 0 && t.dbg.accData == t.reg (thmReg 0x050)) = true ∧
    gives (exec (.dbgAccess (shift 2 5 (2 ^ 47 + lndReg 0x0C0))) (level 2)) (fun t => t.dbg.accStat == 0) = true ∧
    gives (exec (.dbgAccess (shift 3 0 0)) (level 1)) (fun t => t.dbg.accStat == 3) = true ∧
    gives (exec (.dbgAccess (shift 1 0 (2 ^ 45))) (level 1)) (fun t => t.dbg.accStat == 3) = true := by decide +kernel

theorem test_jtag_memory :
    gives (exec (.dbgAccess (shift 1 0 64)) { level 1 with dram := [(64, 9)] }) (fun t => t.dbg.accStat == 2) = true ∧
    addrOk (level 2) none 64 4 = true ∧ devReadGo (level 2) 64 4 = true ∧ devWriteGo (level 2) 64 4 = true ∧
    gives (exec (.dbgAccess (shift 1 0 64)) { level 2 with dram := [(64, 9)] }) (fun t => t.dbg.accStat == 0 && t.dbg.accData == 9) = true ∧
    gives (exec (.dbgAccess (shift 2 0x0807 64)) (level 2)) (fun t => t.dram == [(64, 7), (65, 8)]) = true := by decide +kernel

theorem test_harts_halt :
    gives (exec (.dmiAccess (.haltCore 0 3)) (level 2)) (fun t => !hartFree t 3) = true ∧
    gives (exec (.dmiAccess (.resumeCore 0 3)) { level 2 with dbg := { dmiHalt := [3] } }) (fun t => hartFree t 3) = true ∧
    gives (exec (.dmiAccess (.stepCore 0 3)) { level 2 with dbg := { dmiHalt := [3] } }) (fun t => hartFree t 3 && t.dbg.dmiHalt == [3]) = true ∧
    coreRegGet (up.core 3) 0x1005 = some 0 ∧
    gives (exec (.dmiAccess (.writeCoreReg 0 3 0x1005 8)) { level 2 with dbg := { dmiHalt := [3] } }) (fun t => (t.core 3).getX 5 == 8) = true ∧
    gives (exec (.dmiAccess (.writeRiderReg 0x1005 8)) { level 2 with dbg := { dmiHalt := [4096] } })
      (fun t => tget none t.dbg.rider 0x1005 == some 8) = true := by decide +kernel

theorem test_stewards_halt :
    plotUp (level 2) 0 = true ∧ gives (exec (.dmiAccess (.haltSteward p0)) (level 2)) (fun t => !hartFree t 1024) = true ∧
    gives (exec (.dmiAccess (.readStewardReg p0 0x342)) { (level 2).setPlot 0 { stw := { mcause := 5 } } with dbg := { dmiHalt := [1024] } })
      (fun t => t.dbg.dmiData == 5) = true ∧
    gives (exec (.dmiAccess (.writeStewardReg p0 0x305 64)) { level 2 with dbg := { dmiHalt := [1024] } }) (fun t => (t.plot 0).stw.mtvec == 64) =
      true := by decide +kernel

/-! ### Resets, tests and spares -/

/-- A reset of this scope. -/
def resetting (sc : Scope) (cleared retest : Bool) : State :=
  { up with faults := { resets := [{ scope := sc, startAt := 0, limit := 0, retest := retest, cleared := cleared }] } }

theorem test_plot_reset_starts :
    reach up .pf false (rhReg 0 0 0x044) = .ok ∧ plotReported up 1 = true ∧ resetRuns up (.plot ⟨0, 1⟩) = false ∧ up.dbg.stopAt = none ∧
    gives (exec (.plotReset .pf 0 0 0x102) up)
      (fun t => t.faults.resets.map (fun x => (x.scope, x.zeroFill, x.retest, x.cleared)) == [(.plot ⟨0, 1⟩, true, false, false)]) = true ∧
    gives (exec (.plotReset .pf 0 0 0x102) { up with dbg := { stopAt := some 0 } })
      (fun t => t.faults.resets == [] && t.dbg.heldResets.map (·.scope) == [.plot ⟨0, 1⟩]) = true := by decide +kernel

theorem test_reach_reset_starts :
    resetRuns up (.reach 0 2) = false ∧
    gives (exec (.reachReset .pf 0 2) (resetting (.plot ⟨0, 17⟩) false false)) (fun t => t.faults.resets.map (·.scope) == [.reach 0 2]) = true := by
  decide +kernel

theorem test_plot_is_cleared :
    gives (exec (.resetDrainEnd (.plot p0)) { resetting (.plot p0) false false with plots := [(0, { fw := [(0, 3)], qa := { held := true } })] })
      (fun t => (t.plot 0).fw == [(0, 3)] && !(t.plot 0).qa.held && t.faults.resets.map (·.cleared) == [true]) = true := by decide +kernel

theorem test_partition_is_cleared :
    gives (exec (.resetDrainEnd (.part 0)) ((resetting (.part 0) false false).setRing 4 { head := 5 }))
      (fun t => (t.stk 0).inReset && t.ring 4 == {} && partCleared t 0) = true := by decide +kernel

theorem test_package_is_cleared :
    gives (exec (.resetDrainEnd (.package false)) { resetting (.package false) false false with dram := [(3, 3)] })
      (fun t => t.boot.running && t.dram == [] && t.boot.number == 1) = true := by decide +kernel

/-- `resetting` with the plot's fence set. -/
def fencedPlot (retest : Bool) (why : Option FailCause) : State :=
  ((resetting (.plot p0) true retest).setBit (rhReg 0 0 0x040) 0).setPlot 0 { failed := why }

theorem test_plot_released :
    fillOver (fencedPlot false none) { scope := .plot p0, startAt := 0, limit := 0 } = true ∧ fenced (fencedPlot false none) 0 = true ∧
    gives (exec (.resetRelease (.plot p0) true true) (fencedPlot false none)) (fun t => !fenced t 0 && t.faults.resets == []) = true ∧
    gives (exec (.resetRelease (.plot p0) false true) (fencedPlot true none)) (fun t => fenced t 0 && (t.plot 0).failed == some .selftest) = true ∧
    gives (exec (.resetRelease (.plot p0) true true) (fencedPlot true (some .selftest))) (fun t => !fenced t 0 && (t.plot 0).failed == none) = true ∧
    gives (exec (.resetRelease (.plot p0) true false) (fencedPlot true (some .flood))) (fun t => fenced t 0 && (t.plot 0).failed == some .flood) =
      true := by decide +kernel

theorem test_reach_released :
    reachPlots up 0 1 = [8, 9, 10, 11, 12, 13, 14, 15] ∧
    gives (exec (.resetRelease (.reach 0 1) true true) ((resetting (.reach 0 1) true false).setFld (rhReg 0 1 0x040) 0 16 0xFFFF))
      (fun t => !fenced t 8 && !fenced t 15) = true := by decide +kernel

theorem test_proposals_pop :
    gives (exec (.fltPropPop .pf) { up with faults := { props := [[1, 2, 3, 4], [5]] } })
      (fun t => t.reply.data == [1, 0, 0, 0] && t.faults.props == [[5]] && tget none t.caps (fltReg 0x054) == some 4) = true ∧
    gives (exec (.fltPropPop .pf) up) (fun t => t.reply.data == [0, 0, 0, 0]) = true := by decide +kernel

/-- Test 2 of the tank of plot 0 for the command with id 9 of ring 4. -/
def tankTest : TestReq := { id := 3, test := 2, scopeKind := 0, stack := 0, idx := 0, when := 0, limit := 0, job := some (1, 4, 9) }

/-- `up` with that test waiting, or under way. -/
def testing (run : Bool) : State :=
  ({ up with faults := if run then { running := [tankTest] } else { tests := [tankTest] } }.setRing 4 { state := .running, running := [cmdOf [0x70008]] }).setFld
    (ringReg 4 0x10) 4 4 4

theorem test_tests_start :
    testUnitUp (testing false) tankTest = true ∧ testIdle (testing false) tankTest = true ∧
    gives (exec (.selftestStart 3) (testing false)) (fun t => t.faults.running == [tankTest] && t.faults.tests == []) = true ∧
    testIdle ((testing false).setPlot 0 { qa := { entries := [addDesc] } }) tankTest = false := by decide +kernel

theorem test_tests_end :
    gives (exec (.selftestDone 3 true 0) (testing true)) (fun t => (t.ring 4).running == [] && (t.plot 0).failed == none) = true ∧
    gives (exec (.selftestDone 3 false 5) (testing true)) (fun t => (t.ring 4).running == [] && (t.plot 0).failed == some .selftest) = true ∧
    gives (exec (.busyTimeout 3) (testing false)) (fun t => (t.ring 4).running == [] && t.faults.tests == []) = true := by decide +kernel

/-- A SPARE_IN of site 40 for plot 1 of a lost cistern. -/
def sparing (lost : Bool) : State :=
  ({ up with faults := { spares := [{ stack := 0, plot := 1, site := 40, part := 0, lost := lost, job := (1, 4, 9) }] } }.setRing 4
    { state := .running, running := [cmdOf [0x70009]] }).setFld (ringReg 4 0x10) 4 4 4

theorem test_spare_is_refused :
    siteOf up 1 ≠ 40 ∧
    gives (exec (.spareCopyDone 0 1 true false true) (sparing true)) (fun t => (t.ring 4).running == [] && siteOf t 1 == siteOf up 1 && t.faults.spares == []) =
      true ∧
    gives (exec (.spareCopyDone 0 1 true true false) (sparing false)) (fun t => (t.ring 4).running == [] && siteOf t 1 == siteOf up 1) = true := by
  decide +kernel

theorem test_spare_takes_the_place :
    cisternUp (sparing false) 1 = true ∧
    gives (exec (.spareCopyDone 0 1 true true true) (sparing false)) (fun t => siteOf t 1 == 40 && (t.plot 1).failed.isNone && !fenced t 1) = true := by
  decide +kernel

/-! ### Ill-formed commands -/

/-- A module that a stack die does not have. -/
def noMod : ModId := ⟨3, 8⟩

/-- A stop unit that no die has. -/
def noUnit : UnitId := ⟨0, 4, 1024⟩

theorem test_wf_modules (r : Req) (f : List Byte) (ok v : Bool) (x : BitVec 3) :
    (Instr.d2dFrameReceive noMod f).wf = false ∧ (Instr.replayRateTick noMod).wf = false ∧ (Instr.dfLinkRetrain r noMod).wf = false ∧
    (Instr.d2dRetrainDone noMod ok x).wf = false ∧ (Instr.dfLinkDisable r noMod v).wf = false ∧ (Instr.replayRateTick ⟨16, 63⟩).wf = true :=
  ⟨rfl, rfl, rfl, rfl, rfl, rfl⟩

theorem test_wf_units (i : Nat) (n : Byte) :
    (Instr.markerToken noUnit i n).wf = false ∧ (Instr.markerPacket noUnit i n).wf = false ∧ (Instr.unitSnapshot noUnit).wf = false ∧
    (Instr.markerTimeout noUnit i).wf = false ∧ (Instr.unitSnapshot ⟨0, 4, 1023⟩).wf = true := ⟨rfl, rfl, rfl, rfl, rfl⟩

theorem test_wf_flit (a b : Loc) (h s : BitVec 5) (i : BitVec 16) (p : Byte) :
    (Instr.streamFlitArrive a h i b s ⟨List.replicate 63 0, p⟩).wf = false ∧
    (Instr.streamFlitArrive a h i b s ⟨List.replicate 64 0, p⟩).wf = true := ⟨rfl, rfl⟩

theorem test_wf_cistern :
    (Instr.cisternRead p0 0 0 .port).wf = false ∧ (Instr.cisternRead p0 2147483647 2 .port).wf = false ∧
    (Instr.cisternRead p0 2147483647 1 .port).wf = true ∧ (Instr.cisternWrite p0 2147483648 [1] false .port).wf = false ∧
    (Instr.cisternWrite p0 0 [] false .port).wf = false ∧ (Instr.weirOpApply p0 0 0 2147483648 [1] false false).wf = false ∧
    (Instr.weirOpApply p0 0 0 0 (List.replicate 257 0) false false).wf = false := by
  decide +kernel

theorem test_wf_links (g : Fin 7) : (Instr.linkRecovery g 3).wf = false ∧ (Instr.linkRecovery g 16).wf = true := ⟨rfl, rfl⟩

theorem test_wf_lengths (f : Fin 17) (g : RingId) (n : Fin 32) (i j : BitVec 16) (e : Word) (ok : Bool) :
    (Instr.bar2Access f true 0 8 [1] ok ok).wf = false ∧ (Instr.noriaOp g [1]).wf = false ∧
    (Instr.xngFlitReceive n [] ok (List.replicate 256 0)).wf = false ∧ (Instr.xngFlitReceive n (List.replicate 256 0) ok []).wf = false ∧
    (Instr.join i j e []).wf = false ∧ (Instr.joinAck i j e []).wf = false ∧ (Instr.dataPacket i j e i [] 0 [] ok).wf = false ∧
    (Instr.dbgTokenSubmit [] true).wf = false ∧ (Instr.tollSample (List.replicate 21 0) ok).wf = false := by
  simp only [Instr.wf, List.length_replicate, List.length_nil, List.length_cons]
  decide

theorem test_wf_sensor (raw : BitVec 12) (t : BitVec 16) :
    (Instr.sensorSample 16 8 raw t).wf = false ∧ (Instr.sensorSample 15 12 raw t).wf = true := ⟨rfl, rfl⟩

theorem test_wf_sizes (r : Req) (a : RegAddr) (v : Word) (x : BitVec 64) :
    (Instr.hdrLockSet r a 3).wf = false ∧ (Instr.hdrIrqForce r a 0 v).wf = false ∧ (Instr.registerPairLoRead r a 16).wf = false ∧
    (Instr.rcRead r a 5).wf = false ∧ (Instr.registerWrite r a 7 x).wf = false ∧ (Instr.registerWrite r a 2 x).wf = true :=
  ⟨rfl, rfl, rfl, rfl, rfl, rfl⟩

end Sys2Proof.Tests
end

section
/-!
Ring commands that complete at once (R331 to R334), and enabling of partitions and rings (R335, R504).
-/
namespace Sys2Proof.Machine

variable (s : State)

/-- Two states with the same rings. -/
theorem SameBut.ring {w : List Fld} {s t : State} (h : SameBut w s t) (hw : Fld.rings ∉ w) (j : Nat) : t.ring j = s.ring j := by
  unfold State.ring; rw [h.rings hw]

/-- Two states with the same partitions. -/
theorem SameBut.part {w : List Fld} {s t : State} (h : SameBut w s t) (hw : Fld.parts ∉ w) (j : Nat) : t.part j = s.part j := by
  unfold State.part; rw [h.parts hw]

/-! ### What interrupts and single-stepped accesses leave -/

@[simp] theorem State.msix_ring (f v j : Nat) : (s.msix f v).ring j = s.ring j :=
  (State.msix_same f v (SameBut.refl (msk := [.cores, .wire]) s) rfl).ring (by decide) j

@[simp] theorem State.msix_part (f v j : Nat) : (s.msix f v).part j = s.part j :=
  (State.msix_same f v (SameBut.refl (msk := [.cores, .wire]) s) rfl).part (by decide) j

/-- An interrupt keeps the messages sent before it. -/
theorem State.wire_prefix_msix (f v : Nat) : s.wire <+: (s.msix f v).wire :=
  (State.msix_grows f v (Grows.refl s)).wire

@[simp] theorem State.reqStepped_rings (r : Req) : (s.reqStepped r).rings = s.rings :=
  (State.reqStepped_same r (SameBut.refl (msk := [.dbg]) s) rfl).rings (by decide)

@[simp] theorem State.reqStepped_ring (r : Req) (j : Nat) : (s.reqStepped r).ring j = s.ring j :=
  (State.reqStepped_same r (SameBut.refl (msk := [.dbg]) s) rfl).ring (by decide) j

@[simp] theorem State.reqStepped_part (r : Req) (j : Nat) : (s.reqStepped r).part j = s.part j :=
  (State.reqStepped_same r (SameBut.refl (msk := [.dbg]) s) rfl).part (by decide) j

@[simp] theorem State.lockPage_part (a j : Nat) : (s.lockPage a).part j = s.part j :=
  (State.lockPage_same a (SameBut.refl (msk := [.regs]) s) rfl).part (by decide) j

/-! ### Completion entries -/

/-- R333: the entry written is the posted write to the completion queue's tail; it follows what was sent before. -/
theorem State.writeCpl_wire (g : Nat) (e : CplEnt) :
    s.wire ++ [.hostWrite (g / 4) (BitVec.ofNat 64 (cqBase s g + 16 * (s.ring g).cqTail))
      (bytesOf [BitVec.ofNat 32 (putBits e.w0.toNat 31 1 (b2n (s.ring g).phase)), e.w1, e.w2, 0]) false] <+:
      (s.writeCpl g e).wire := by
  unfold State.writeCpl
  dsimp only
  split
  · refine List.IsPrefix.trans ?_ (State.wire_prefix_msix _ _ _)
    simp [State.send]
  · simp [State.send]

theorem State.writeCpl_queue (g j : Nat) (e : CplEnt) : ((s.writeCpl g e).ring j).queue = (s.ring j).queue := by
  have advanced : ∀ (t : State) (tail : Nat) (ph : Bool), t.ring j = s.ring j →
      ((t.setRing g { s.ring g with cqTail := tail, phase := ph }).ring j).queue = (s.ring j).queue := by
    intro t tail ph unchanged
    rw [State.ring_setRing]
    split
    next same => rw [same]
    next => rw [unchanged]
  unfold State.writeCpl
  dsimp only
  split
  · rw [State.msix_ring]
    exact advanced _ _ _ rfl
  · exact advanced _ _ _ rfl

theorem State.postCpl_queue (g j : Nat) (e : CplEnt) : ((s.postCpl g e).ring j).queue = (s.ring j).queue := by
  unfold State.postCpl
  split
  · exact s.writeCpl_queue g j e
  · rw [State.ring_updRing]
    split
    next same => rw [same]
    next => rfl

theorem State.endCmd_queue (g j : Nat) (c : Cmd) (status value : Nat) :
    ((s.endCmd g c status value).ring j).queue = (s.ring j).queue := by
  unfold State.endCmd
  split
  · rfl
  · exact s.postCpl_queue g j _

/-- R334: with room in the completion queue and nothing held, an entry is written at once. -/
theorem State.postCpl_of_room {g : Nat} (e : CplEnt) (held : (s.ring g).held = []) (room : cqRoom s g = true) :
    s.postCpl g e = s.writeCpl g e := by
  simp [State.postCpl, held, room]

/-! ### The front command -/

@[simp] theorem State.ring_popCmd_same (g : Nat) :
    (s.popCmd g).ring g = { s.ring g with queue := (s.ring g).queue.drop 1 } := by
  simp [State.popCmd]

@[simp] theorem cqRoom_popCmd (g : Nat) : cqRoom (s.popCmd g) g = cqRoom s g := by
  unfold cqRoom cqUsed cqSize
  rw [State.ring_popCmd_same]
  rfl

/-- R334: no command starts on a ring that holds completion entries. -/
theorem held_eq_nil_of_frontCmd {s : State} {g : Nat} {sel : Nat → Bool} {c : Cmd} (h : frontCmd s g sel = some c) :
    (s.ring g).held = [] := by
  unfold frontCmd at h
  dsimp only at h
  split at h
  · cases h
  · split at h
    next ready =>
      simp only [Bool.and_eq_true, List.isEmpty_iff] at ready
      obtain ⟨⟨⟨⟨-, held⟩, -⟩, -⟩, -⟩ := ready
      exact held
    next => cases h

/-- A front command that may start and is not refused has its body's effect. -/
theorem startCmd_of_starts {s : State} {g op : Nat} {c : Cmd} (k : Cmd → State → State) (h : Starts s g op c) :
    startCmd g (· == op) k s = k c s := by
  obtain ⟨front, accepted⟩ := h
  simp [startCmd, front, accepted]

/-- R332: the command that completes at once leaves its ring's queue. -/
theorem State.instant_queue (g : Nat) (c : Cmd) (status value : Nat) :
    ((s.instant g c status value).ring g).queue = (s.ring g).queue.drop 1 := by
  unfold State.instant
  rw [State.endCmd_queue, State.ring_popCmd_same]

/-- R333, R334: the entry of a command that completes at once goes to the completion queue's tail, after what the
package had sent. -/
theorem State.instant_wire {g : Nat} {c : Cmd} {status : Nat} (value : Nat) (held : (s.ring g).held = [])
    (loud : c.quiet = false ∨ status ≠ 0) (room : cqRoom s g = true) :
    s.wire ++ [.hostWrite (g / 4) (BitVec.ofNat 64 (cqBase s g + 16 * (s.ring g).cqTail)) (cplBytes s g c status value) false] <+:
      (s.instant g c status value).wire := by
  have written : s.instant g c status value = (s.popCmd g).writeCpl g (cplEntry g c status value) := by
    have : ¬ (c.quiet && status == 0) = true := by
      rcases loud with quiet | failed <;> simp [*]
    unfold State.instant State.endCmd
    rw [if_neg this, State.postCpl_of_room _ _ (by simp [held]) (by simpa using room)]
  have entry := (s.popCmd g).writeCpl_wire g (cplEntry g c status value)
  rw [State.ring_popCmd_same] at entry
  rw [written]
  exact entry

theorem State.instant_answers {g : Nat} {c : Cmd} (status value : Nat) (held : (s.ring g).held = []) :
    Answers g c status value s (s.instant g c status value) :=
  fun loud room => ⟨_, (s.instant_wire value held loud room).subset (List.mem_append_right _ (List.mem_singleton_self _))⟩

/-! ### SELFTEST (R352, R518) -/

/-- R518: a link or sensor scope, or a stack outside the partition, completes on a virtual function's ring with
NOT_PERMITTED. -/
theorem selftestCmd_not_permitted {s : State} {g : Nat} {c : Cmd} (vf : 4 ≤ g) (test : testScope (c.field 24 4) = some (c.byte 8))
    (idx : scopeIndexOk s (c.byte 8) (c.byte 16) (c.byte 17) = true) (foreign : 2 < c.byte 8 ∨ c.byte 16 ∉ arcOf s (cmdPart g c)) :
    selftestCmd g c s = s.instant g c 0x05 0 := by
  simp [selftestCmd, test, idx, vf, foreign]

/-- R352, R518: a plot, reach or stack scope of a virtual function's own partition joins the list of tests. -/
theorem selftestCmd_queues_test {s : State} {g : Nat} {c : Cmd} (test : testScope (c.field 24 4) = some (c.byte 8))
    (idx : scopeIndexOk s (c.byte 8) (c.byte 16) (c.byte 17) = true) (kind : c.byte 8 ≤ 2) (own : c.byte 16 ∈ arcOf s (cmdPart g c))
    (room : s.faults.tests.length < 32) :
    ∃ t, (selftestCmd g c s).faults.tests = s.faults.tests ++ [t] ∧ t.job = some (g / 4, g, c.id) ∧
      t.scopeKind = BitVec.ofNat 8 (c.byte 8) ∧ t.stack = c.byte 16 ∧ t.idx = c.byte 17 := by
  have permitted : ¬ (4 ≤ g ∧ (2 < c.byte 8 ∨ !((arcOf s (cmdPart g c)).contains (c.byte 16)))) := by
    simp [own, Nat.not_lt.mpr kind]
  have tests_runCmd : (s.runCmd g c .waiting).faults.tests = s.faults.tests := rfl
  unfold selftestCmd
  dsimp only
  rw [if_neg (by simp [test, idx]), if_neg permitted, if_neg (Nat.not_le.mpr room)]
  exact ⟨_, congrArg (· ++ _) tests_runCmd, rfl, rfl, rfl, rfl⟩

/-- SELFTEST at the front of its ring has its body's effect. -/
theorem exec_selftest_of_starts {s : State} {g : RingId} {c : Cmd} (h : Starts s (ringKey g) 10 c) :
    exec (.selftest g) s = .next (selftestCmd (ringKey g) c s) :=
  congrArg Host.Outcome.next (startCmd_of_starts _ h)

/-- Settles O10: the scope check stands between the command's start and the list of tests. -/
theorem virtualFunctionsTestTheirOwnScopes : Obligations.VirtualFunctionsTestTheirOwnScopes := by
  unfold Obligations.VirtualFunctionsTestTheirOwnScopes
  rintro s g _ c rfl vf starts test idx
  refine ⟨fun kind own room => ?_, fun foreign => ?_⟩
  · obtain ⟨t, tests, job, scope, stack, index⟩ := selftestCmd_queues_test (g := ringKey g) test idx kind own room
    refine ⟨_, t, exec_selftest_of_starts starts, tests, job, ?_, stack, index⟩
    rw [scope, BitVec.toNat_ofNat]
    omega
  · have held := held_eq_nil_of_frontCmd starts.1
    refine ⟨s.instant (ringKey g) c 0x05 0, ?_, State.instant_same _ _ _ _ (SameBut.refl s) rfl,
      s.instant_answers _ _ held, s.instant_queue _ _ _ _⟩
    rw [exec_selftest_of_starts starts, selftestCmd_not_permitted vf test idx foreign]

/-! ### Partitions and rings under EN (R335, R504) -/

@[simp] theorem State.setPState_state (n : Nat) (st : PState) : ((s.setPState n st).part n).state = st := by
  unfold State.setPState
  split
  · assumption
  · simp

/-- R504: a STOPPED partition whose EN is set runs. -/
theorem partSetEn_state {s : State} {n : Nat} (h : (s.part n).state = .stopped) : ((partSetEn n s).part n).state = .running := by
  unfold partSetEn
  rw [if_pos (Or.inr h)]
  dsimp only
  split <;> simp

@[simp] theorem partSetEn_rings (n : Nat) : (partSetEn n s).rings = s.rings :=
  (partSetEn_same n (SameBut.refl (msk := [.regs, .parts, .cores, .wire]) s) rfl).rings (by decide)

/-- R335: a STOPPED ring of a RUNNING partition starts anew. -/
theorem ringSetEn_of_stopped {s : State} {g : Nat} (stopped : (s.ring g).state = .stopped)
    (runs : (s.part (g / 4 - 1)).state = .running) : ringSetEn g s = s.updRing g fun _ => { state := .running } := by
  simp [ringSetEn, stopped, runs]

/-- R329: a ring of a partition's function names that partition. -/
theorem part_of_mem_ownRings {n k : Nat} (h : k ∈ ownRings n) : k / 4 - 1 = n := by
  simp only [ownRings, List.mem_map, List.mem_range] at h
  obtain ⟨i, hi, rfl⟩ := h
  omega

/-- The enable write that the partition's control page serves. -/
theorem exec_partSetEn_of_reach {s : State} {r : Req} {n : Fin 16} (h : reach s r false (partCtrlReg r n.val) = .ok) :
    exec (.partSetEn r n) s = .next (partSetEn n.val (s.reqStepped r)) :=
  congrArg Host.Outcome.next (s.access_ok _ h)

/-- The enable write that the ring's page serves. -/
theorem exec_ringSetEn_of_reach {s : State} {q : Req} {g : RingId} (h : reach s q false (ringReg (ringKey g) 0x14) = .ok) :
    exec (.ringSetEn q g) s = .next (ringSetEn (ringKey g) (s.reqStepped q)) :=
  congrArg Host.Outcome.next (s.access_ok _ h)

/-- Settles O8: setting EN leaves the table of rings as it is, and a ring then starts by its own EN because its
partition runs. -/
theorem enablingAPartitionLeavesItsRingsStopped : Obligations.EnablingAPartitionLeavesItsRingsStopped := by
  unfold Obligations.EnablingAPartitionLeavesItsRingsStopped
  intro s r n served stopped
  have runs : ((partSetEn n.val (s.reqStepped r)).part n.val).state = .running := partSetEn_state (by simpa using stopped)
  have rings : (partSetEn n.val (s.reqStepped r)).rings = s.rings := by simp
  refine ⟨_, exec_partSetEn_of_reach served, runs, rings, ?_⟩
  rintro q g _ rfl own ringStopped ringServed
  have sameRing : ∀ j, (partSetEn n.val (s.reqStepped r)).ring j = s.ring j := fun j => by simp [State.ring]
  refine ⟨_, exec_ringSetEn_of_reach ringServed, ?_⟩
  rw [ringSetEn_of_stopped (by simpa [sameRing] using ringStopped) (by simpa [part_of_mem_ownRings own] using runs)]
  refine ⟨by simp, fun j other => ?_⟩
  rw [State.ring_updRing, if_neg other, State.reqStepped_ring, sameRing]

end Sys2Proof.Machine
end

section
/-!
The analogue comparators (R532): what a trip leaves of the package, and that nothing stands between a comparator and
THERMTRIP_N.
-/
namespace Sys2Proof.Machine

/-- A step on a queue with a command at its front executes that command with the rest of the queue. -/
theorem step_pending_cons (c : Instr) (s : State) : step { s with pending := c :: s.pending } = exec c s := rfl

variable (s : State)

/-- R22: a trip pulls THERMTRIP_N low and leaves the other pins. -/
@[simp] theorem State.trip_pins : s.trip.pins = { s.pins with thermtrip := true } := by
  have pins : ((List.range 16).foldl (fun s st => s.updStk st fun T => { T with halt := true }) s).pins = s.pins :=
    (SameBut.foldl (SameBut.refl (msk := [.stks]) s) fun _ _ h => State.updStk_same _ _ h rfl).pins (by decide)
  unfold State.trip
  simp only [pins]

/-- R531, R532: a trip changes the stacks, the pins and the clocks, and no other field. -/
theorem State.trip_frame : SameBut [.stks, .pins, .clocksOff] s s.trip := State.trip_same (SameBut.refl s) rfl

@[simp] theorem State.trip_regs : s.trip.regs = s.regs := s.trip_frame.regs (by decide)

@[simp] theorem State.trip_pending : s.trip.pending = s.pending := s.trip_frame.pending (by decide)

variable {s}

/-- R532: power and the die's presence are all that the comparator's trip depends on. -/
theorem exec_analogueComparatorTrip {die : Fin 17} (power : s.pins.pwrGood = true)
    (present : die.val = 16 ∨ activeStack s die.val = true) : exec (.analogueComparatorTrip die) s = .next s.trip := by
  have trips : (s.pins.pwrGood && (die.val == 16 || activeStack s die.val)) = true := by simpa [power] using present
  exact congrArg Host.Outcome.next (if_pos trips)

/-- Settles O9: the comparator's command trips the package on power and presence alone, and a trip latches the pin. -/
theorem theComparatorCannotBeDisabled : Obligations.TheComparatorCannotBeDisabled := by
  unfold Obligations.TheComparatorCannotBeDisabled
  intro s die power present
  refine ⟨s.trip, ?_, ?_, s.trip_regs, s.trip_pending⟩
  · rw [step_pending_cons, exec_analogueComparatorTrip power present]
  · rw [State.trip_pins]

end Sys2Proof.Machine
end

section
/-!
The step contract, the frames of all commands, and what no step takes back (R22, R442, R443, R578): each command has a
frame lemma and a lemma of what it only adds to, and the statements about every command follow over the list of commands.
-/
namespace Sys2Proof.Machine

/-- Every command answers a next state that differs from the state before in the fields of its footprint at most. -/
theorem exec_same (c : Instr) (s : State) : OutSame (footprint c) s (exec c s) :=
  match c with
  | .pwrGoodRise => execPwrGoodRise_same (.refl s) rfl
  | .pwrGoodFall => execPwrGoodFall_same (.refl s) rfl
  | .perstNAssert => execPerstNAssert_same (.refl s) rfl
  | .perstNRelease mode => execPerstNRelease_same mode (.refl s) rfl
  | .refclkSysAbsent => execRefclkSysAbsent_same (.refl s) rfl
  | .refclkXngAbsent => execRefclkXngAbsent_same (.refl s) rfl
  | .refclkXngStable => execRefclkXngStable_same (.refl s) rfl
  | .flowPulse => execFlowPulse_same (.refl s) rfl
  | .flowStop => execFlowStop_same (.refl s) rfl
  | .coolantSensorRead inlet outlet => execCoolantSensorRead_same inlet outlet (.refl s) rfl
  | .hardLimitTrip => execHardLimitTrip_same (.refl s) rfl
  | .analogueComparatorTrip die => execAnalogueComparatorTrip_same die (.refl s) rfl
  | .pstateDecision st ack => execPstateDecision_same st ack (.refl s) rfl
  | .voutStepSettled st ack => execVoutStepSettled_same st ack (.refl s) rfl
  | .clockSwitch st ack => execClockSwitch_same st ack (.refl s) rfl
  | .lookaheadEntry p t => execLookaheadEntry_same p t (.refl s) rfl
  | .boreStart p t => execBoreStart_same p t (.refl s) rfl
  | .boreEntryDone p t => execBoreEntryDone_same p t (.refl s) rfl
  | .shadowLoadStart p t => execShadowLoadStart_same p t (.refl s) rfl
  | .shadowLoaded p t => execShadowLoaded_same p t (.refl s) rfl
  | .sparseMetaReject p t => execSparseMetaReject_same p t (.refl s) rfl
  | .passStart p t => execPassStart_same p t (.refl s) rfl
  | .shadowFree p t => execShadowFree_same p t (.refl s) rfl
  | .vectorIssue p t => execVectorIssue_same p t (.refl s) rfl
  | .accWrite p c t => execAccWrite_same p c t (.refl s) rfl
  | .drainRow p t => execDrainRow_same p t (.refl s) rfl
  | .arrRngHiWrite r p v => execArrRngHiWrite_same r p v (.refl s) rfl
  | .rampDownStart p t => execRampDownStart_same p t (.refl s) rfl
  | .columnGroupDisable p t => execColumnGroupDisable_same p t (.refl s) rfl
  | .rampUpStart p t => execRampUpStart_same p t (.refl s) rfl
  | .columnGroupEnable p t => execColumnGroupEnable_same p t (.refl s) rfl
  | .haltRequest p t => execHaltRequest_same p t (.refl s) rfl
  | .arrayHalted p t => execArrayHalted_same p t (.refl s) rfl
  | .arrCfgWrite r p v => execArrCfgWrite_same r p v (.refl s) rfl
  | .stewardException p cause tval => execStewardException_same p cause tval (.refl s) rfl
  | .stwWdogFault r p => execStwWdogFault_same r p (.refl s) rfl
  | .stwWdogKick r p => execStwWdogKick_same r p (.refl s) rfl
  | .stewardWatchdogExpiry p => execStewardWatchdogExpiry_same p (.refl s) rfl
  | .pqPush r p q => execPqPush_same r p q (.refl s) rfl
  | .stalledPushAccept p => execStalledPushAccept_same p (.refl s) rfl
  | .vectorDescStart p => execVectorDescStart_same p (.refl s) rfl
  | .vectorDescComplete p => execVectorDescComplete_same p (.refl s) rfl
  | .localSignalArrive p ctr => execLocalSignalArrive_same p ctr (.refl s) rfl
  | .vecRngHiWrite r p v => execVecRngHiWrite_same r p v (.refl s) rfl
  | .pqCplPop r p => execPqCplPop_same r p (.refl s) rfl
  | .pqSkip r p q => execPqSkip_same r p q (.refl s) rfl
  | .pqFlush r p q => execPqFlush_same r p q (.refl s) rfl
  | .pqSetEn r p q => execPqSetEn_same r p q (.refl s) rfl
  | .pqClrEn r p q => execPqClrEn_same r p q (.refl s) rfl
  | .noriaDispatch p => execNoriaDispatch_same p (.refl s) rfl
  | .bargeHandoff p => execBargeHandoff_same p (.refl s) rfl
  | .outputSlotWrite r p n w v => execOutputSlotWrite_same r p n w v (.refl s) rfl
  | .headgateWrite r p n w v => execHeadgateWrite_same r p n w v (.refl s) rfl
  | .addToken p src ctr amount => execAddToken_same p src ctr amount (.refl s) rfl
  | .creditToken p src slot n => execCreditToken_same p src slot n (.refl s) rfl
  | .fencedToken p src slot => execFencedToken_same p src slot (.refl s) rfl
  | .bargeGo p src c => execBargeGo_same p src c (.refl s) rfl
  | .wake p src => execWake_same p src (.refl s) rfl
  | .markerToken u input stop => execMarkerToken_same u input stop (.refl s) rfl
  | .reservedToken p src tok => execReservedToken_same p src tok (.refl s) rfl
  | .pqTokenTx r p v => execPqTokenTx_same r p v (.refl s) rfl
  | .tokenCounterWrite r p n v => execTokenCounterWrite_same r p n v (.refl s) rfl
  | .streamFlitSend p slot => execStreamFlitSend_same p slot (.refl s) rfl
  | .streamFlitArrive dst hg sid src slot data => execStreamFlitArrive_same dst hg sid src slot data (.refl s) rfl
  | .headgateConsume p hg => execHeadgateConsume_same p hg (.refl s) rfl
  | .creditBatchTimeout p hg => execCreditBatchTimeout_same p hg (.refl s) rfl
  | .routerForward die site out => execRouterForward_same die site out (.refl s) rfl
  | .rhFenceSet r st q mask => execRhFenceSet_same r st q mask (.refl s) rfl
  | .d2dFrameReceive m frame => execD2dFrameReceive_same m frame (.refl s) rfl
  | .replayRateTick m => execReplayRateTick_same m (.refl s) rfl
  | .dfLinkRetrain r m => execDfLinkRetrain_same r m (.refl s) rfl
  | .d2dRetrainDone m ok spared => execD2dRetrainDone_same m ok spared (.refl s) rfl
  | .dfLinkDisable r m v => execDfLinkDisable_same r m v (.refl s) rfl
  | .d2dLinkDown die far => execD2dLinkDown_same die far (.refl s) rfl
  | .cisternRead p off len src => execCisternRead_same p off len src (.refl s) rfl
  | .cisternWrite p off data poison src => execCisternWrite_same p off data poison src (.refl s) rfl
  | .weirOpApply p op esize off operand poison fetch => execWeirOpApply_same p op esize off operand poison fetch (.refl s) rfl
  | .scatterAddPacketSend c => execScatterAddPacketSend_same c (.refl s) rfl
  | .bankRefresh p bank => execBankRefresh_same p bank (.refl s) rfl
  | .bandApply st => execBandApply_same st (.refl s) rfl
  | .fillSegmentDone p seg => execFillSegmentDone_same p seg (.refl s) rfl
  | .commonsCfgWrite r n v => execCommonsCfgWrite_same r n v (.refl s) rfl
  | .demandScrub p => execDemandScrub_same p (.refl s) rfl
  | .patrolScrub p => execPatrolScrub_same p (.refl s) rfl
  | .eccWindowTick st => execEccWindowTick_same st (.refl s) rfl
  | .errRptPop r f => execErrRptPop_same r f (.refl s) rfl
  | .pprGo r p v => execPprGo_same r p v (.refl s) rfl
  | .pprDone p => execPprDone_same p (.refl s) rfl
  | .commonsRemapBegin r n => execCommonsRemapBegin_same r n (.refl s) rfl
  | .commonsRemapWrite r n j => execCommonsRemapWrite_same r n j (.refl s) rfl
  | .commonsRemapClear r n j => execCommonsRemapClear_same r n j (.refl s) rfl
  | .commonsRemapStart r n => execCommonsRemapStart_same r n (.refl s) rfl
  | .commonsRemapCancel r n => execCommonsRemapCancel_same r n (.refl s) rfl
  | .remapCopyDone n => execRemapCopyDone_same n (.refl s) rfl
  | .remapSwitch n => execRemapSwitch_same n (.refl s) rfl
  | .remapDone n => execRemapDone_same n (.refl s) rfl
  | .noriaCmdArrive src => execNoriaCmdArrive_same src (.refl s) rfl
  | .noriaRetryResend src => execNoriaRetryResend_same src (.refl s) rfl
  | .bankPermitGrant p bank => execBankPermitGrant_same p bank (.refl s) rfl
  | .noriaStepStart p bank => execNoriaStepStart_same p bank (.refl s) rfl
  | .noriaStepEnd p bank => execNoriaStepEnd_same p bank (.refl s) rfl
  | .noriaXchkPeriod p => execNoriaXchkPeriod_same p (.refl s) rfl
  | .noriaXchkGo r p v => execNoriaXchkGo_same r p v (.refl s) rfl
  | .noriaXchkDone p bank same => execNoriaXchkDone_same p bank same (.refl s) rfl
  | .nwinPush r n => execNwinPush_same r n (.refl s) rfl
  | .nwinCplPop r n => execNwinCplPop_same r n (.refl s) rfl
  | .linkRecovery gen width => execLinkRecovery_same gen width (.refl s) rfl
  | .hotReset => execHotReset_same (.refl s) rfl
  | .flrVf n => execFlrVf_same n (.refl s) rfl
  | .flrPf => execFlrPf_same (.refl s) rfl
  | .configRequest f write off v => execConfigRequest_same f write off v (.refl s) rfl
  | .bar2Access f write off len data ep tbit => execBar2Access_same f write off len data ep tbit (.refl s) rfl
  | .atomicOp f bar op off operand compare tbit => execAtomicOp_same f bar op off operand compare tbit (.refl s) rfl
  | .sqDoorbell g v tbit => execSqDoorbell_same g v tbit (.refl s) rfl
  | .cqDoorbell g v tbit => execCqDoorbell_same g v tbit (.refl s) rfl
  | .sqFetch g => execSqFetch_same g (.refl s) rfl
  | .hostReadCompletion f j ok data => execHostReadCompletion_same f j ok data (.refl s) rfl
  | .completionTimeout f j => execCompletionTimeout_same f j (.refl s) rfl
  | .loadGraph g image => execLoadGraph_same g image (.refl s) rfl
  | .runGraph g => execRunGraph_same g (.refl s) rfl
  | .plotPartEnd p => execPlotPartEnd_same p (.refl s) rfl
  | .runTimeout n slot => execRunTimeout_same n slot (.refl s) rfl
  | .copy g => execCopy_same g (.refl s) rfl
  | .fill g => execFill_same g (.refl s) rfl
  | .noriaOp g list => execNoriaOp_same g list (.refl s) rfl
  | .fence g => execFence_same g (.refl s) rfl
  | .signal g => execSignal_same g (.refl s) rfl
  | .wait g => execWait_same g (.refl s) rfl
  | .waitPoll g => execWaitPoll_same g (.refl s) rfl
  | .waitTimeout g => execWaitTimeout_same g (.refl s) rfl
  | .query g => execQuery_same g (.refl s) rfl
  | .selftest g => execSelftest_same g (.refl s) rfl
  | .spareIn g => execSpareIn_same g (.refl s) rfl
  | .groupForm g ids => execGroupForm_same g ids (.refl s) rfl
  | .groupDissolve g => execGroupDissolve_same g (.refl s) rfl
  | .reservedOpcode g => execReservedOpcode_same g (.refl s) rfl
  | .ringSetEn r g => execRingSetEn_same r g (.refl s) rfl
  | .ringClrEn r g => execRingClrEn_same r g (.refl s) rfl
  | .partAssign r n v => execPartAssign_same r n v (.refl s) rfl
  | .partRemove r n v => execPartRemove_same r n v (.refl s) rfl
  | .partSetEn r n => execPartSetEn_same r n (.refl s) rfl
  | .partClrEn r n => execPartClrEn_same r n (.refl s) rfl
  | .partReset r n => execPartReset_same r n (.refl s) rfl
  | .resettingEnd n trained => execResettingEnd_same n trained (.refl s) rfl
  | .xngLightDetect n => execXngLightDetect_same n (.refl s) rfl
  | .xngEqualiseDone n ok => execXngEqualiseDone_same n ok (.refl s) rfl
  | .xngAlignDone n spare => execXngAlignDone_same n spare (.refl s) rfl
  | .xngPeerDone n peer gen half encOff => execXngPeerDone_same n peer gen half encOff (.refl s) rfl
  | .xngAuthDone n certOk => execXngAuthDone_same n certOk (.refl s) rfl
  | .xngStateTimeout n => execXngStateTimeout_same n (.refl s) rfl
  | .xngDownExpiry n => execXngDownExpiry_same n (.refl s) rfl
  | .codewordLockLoss n => execCodewordLockLoss_same n (.refl s) rfl
  | .xngRetrain r n => execXngRetrain_same r n (.refl s) rfl
  | .xngRetrainDone n ok => execXngRetrainDone_same n ok (.refl s) rfl
  | .xngFlitReceive n flit tagOk plain => execXngFlitReceive_same n flit tagOk plain (.refl s) rfl
  | .tagGroupClose n => execTagGroupClose_same n (.refl s) rfl
  | .xngRekey r n => execXngRekey_same r n (.refl s) rfl
  | .rekeyDue n => execRekeyDue_same n (.refl s) rfl
  | .xngErrorRateTick n laneCorr => execXngErrorRateTick_same n laneCorr (.refl s) rfl
  | .xngPacketSend n => execXngPacketSend_same n (.refl s) rfl
  | .join src gid epoch digest => execJoin_same src gid epoch digest (.refl s) rfl
  | .joinAck src gid epoch digest => execJoinAck_same src gid epoch digest (.refl s) rfl
  | .joinKeepExpiry j => execJoinKeepExpiry_same j (.refl s) rfl
  | .grpTimeout g => execGrpTimeout_same g (.refl s) rfl
  | .heartbeatSend g => execHeartbeatSend_same g (.refl s) rfl
  | .heartbeat src gid epoch => execHeartbeat_same src gid epoch (.refl s) rfl
  | .heartbeatTimeout g next => execHeartbeatTimeout_same g next (.refl s) rfl
  | .sever src gid epoch => execSever_same src gid epoch (.refl s) rfl
  | .lost src gid epoch seq => execLost_same src gid epoch seq (.refl s) rfl
  | .e2eCredit src amount => execE2eCredit_same src amount (.refl s) rfl
  | .dataPacket src gid epoch seq like off data poison => execDataPacket_same src gid epoch seq like off data poison (.refl s) rfl
  | .collectiveDescriptor e => execCollectiveDescriptor_same e (.refl s) rfl
  | .collectiveComplete e j => execCollectiveComplete_same e j (.refl s) rfl
  | .ferryAdmission st info => execFerryAdmission_same st info (.refl s) rfl
  | .ferryLost st hot => execFerryLost_same st hot (.refl s) rfl
  | .ferryReadmit r st => execFerryReadmit_same r st (.refl s) rfl
  | .coreRelease r st mask => execCoreRelease_same r st mask (.refl s) rfl
  | .coreAtomic st k op wide addr cached operand compare rd => execCoreAtomic_same st k op wide addr cached operand compare rd (.refl s) rfl
  | .coreTokenTx r st v => execCoreTokenTx_same r st v (.refl s) rfl
  | .mediaSubmitPush r n => execMediaSubmitPush_same r n (.refl s) rfl
  | .mediaJobStart n => execMediaJobStart_same n (.refl s) rfl
  | .mediaPictureOutput n vals => execMediaPictureOutput_same n vals (.refl s) rfl
  | .mediaJobComplete n how => execMediaJobComplete_same n how (.refl s) rfl
  | .mediaCplPop r n => execMediaCplPop_same r n (.refl s) rfl
  | .ownerWrite r u v => execOwnerWrite_same r u v (.refl s) rfl
  | .svnCommit r => execSvnCommit_same r (.refl s) rfl
  | .revokeSubmit r => execRevokeSubmit_same r (.refl s) rfl
  | .keyEngineRequestDone ok => execKeyEngineRequestDone_same ok (.refl s) rfl
  | .spdmRequest f q => execSpdmRequest_same f q (.refl s) rfl
  | .ideIntegrityFail f => execIdeIntegrityFail_same f (.refl s) rfl
  | .lockInterface n => execLockInterface_same n (.refl s) rfl
  | .stopInterface n => execStopInterface_same n (.refl s) rfl
  | .dbgTokenSubmit token viaJtag => execDbgTokenSubmit_same token viaJtag (.refl s) rfl
  | .rngHealthFail => execRngHealthFail_same (.refl s) rfl
  | .bootStageComplete stage res => execBootStageComplete_same stage res (.refl s) rfl
  | .bootWatchdog => execBootWatchdog_same (.refl s) rfl
  | .floodBlock recv num data => execFloodBlock_same recv num data (.refl s) rfl
  | .floodRepairRequest => execFloodRepairRequest_same (.refl s) rfl
  | .floodRoundEnd => execFloodRoundEnd_same (.refl s) rfl
  | .coldReset r next => execColdReset_same r next (.refl s) rfl
  | .warmReset r => execWarmReset_same r (.refl s) rfl
  | .clrAttempts r => execClrAttempts_same r (.refl s) rfl
  | .nextSlot r v => execNextSlot_same r v (.refl s) rfl
  | .sstoreRead r => execSstoreRead_same r (.refl s) rfl
  | .sstoreProgram r => execSstoreProgram_same r (.refl s) rfl
  | .sstoreErase r => execSstoreErase_same r (.refl s) rfl
  | .sstoreDone ok => execSstoreDone_same ok (.refl s) rfl
  | .plotReset r st q v => execPlotReset_same r st q v (.refl s) rfl
  | .reachReset r st q => execReachReset_same r st q (.refl s) rfl
  | .resetDrainEnd sc => execResetDrainEnd_same sc (.refl s) rfl
  | .resetRelease sc testsOk floodOk => execResetRelease_same sc testsOk floodOk (.refl s) rfl
  | .fltPropPop r => execFltPropPop_same r (.refl s) rfl
  | .selftestStart id => execSelftestStart_same id (.refl s) rfl
  | .selftestDone id ok code => execSelftestDone_same id ok code (.refl s) rfl
  | .busyTimeout id => execBusyTimeout_same id (.refl s) rfl
  | .spareCopyDone st p testsOk floodOk copyOk => execSpareCopyDone_same st p testsOk floodOk copyOk (.refl s) rfl
  | .functionSetEn r u => execFunctionSetEn_same r u (.refl s) rfl
  | .functionClrEn r u => execFunctionClrEn_same r u (.refl s) rfl
  | .functionStopped u => execFunctionStopped_same u (.refl s) rfl
  | .drainLimitExpiry u => execDrainLimitExpiry_same u (.refl s) rfl
  | .sensorSample die j raw temp => execSensorSample_same die j raw temp (.refl s) rfl
  | .thermalLoop st => execThermalLoop_same st (.refl s) rfl
  | .sensorMean100ms st j => execSensorMean100ms_same st j (.refl s) rfl
  | .powerEstimate st mw => execPowerEstimate_same st mw (.refl s) rfl
  | .adaptiveLevelLower st => execAdaptiveLevelLower_same st (.refl s) rfl
  | .startPermitGrant st p t => execStartPermitGrant_same st p t (.refl s) rfl
  | .coolantEstimate => execCoolantEstimate_same (.refl s) rfl
  | .govResume r => execGovResume_same r (.refl s) rfl
  | .tollSample power sat => execTollSample_same power sat (.refl s) rfl
  | .feedFrame frame crcOk => execFeedFrame_same frame crcOk (.refl s) rfl
  | .feedGap => execFeedGap_same (.refl s) rfl
  | .tollSecond memOk => execTollSecond_same memOk (.refl s) rfl
  | .tollSummary => execTollSummary_same (.refl s) rfl
  | .identify m => execIdentify_same m (.refl s) rfl
  | .status m => execStatus_same m (.refl s) rfl
  | .readRecord m => execReadRecord_same m (.refl s) rfl
  | .readSummary m => execReadSummary_same m (.refl s) rfl
  | .signRange m => execSignRange_same m (.refl s) rfl
  | .readAudit m => execReadAudit_same m (.refl s) rfl
  | .calibrate m message pinHeld => execCalibrate_same m message pinHeld (.refl s) rfl
  | .mbBadOpcode m => execMbBadOpcode_same m (.refl s) rfl
  | .tollMbDone m => execTollMbDone_same m (.refl s) rfl
  | .tollCalEnChange level => execTollCalEnChange_same level (.refl s) rfl
  | .cntSample r set => execCntSample_same r set (.refl s) rfl
  | .soundingGo r => execSoundingGo_same r (.refl s) rfl
  | .soundingDone => execSoundingDone_same (.refl s) rfl
  | .stopGo r => execStopGo_same r (.refl s) rfl
  | .markerPacket u input stop => execMarkerPacket_same u input stop (.refl s) rfl
  | .unitSnapshot u => execUnitSnapshot_same u (.refl s) rfl
  | .markerTimeout u input => execMarkerTimeout_same u input (.refl s) rfl
  | .stopForce => execStopForce_same (.refl s) rfl
  | .stopRelease r => execStopRelease_same r (.refl s) rfl
  | .dbgRecSel r v => execDbgRecSel_same r v (.refl s) rfl
  | .dbgRecReady => execDbgRecReady_same (.refl s) rfl
  | .watchPointFire n => execWatchPointFire_same n (.refl s) rfl
  | .dbgAccess dr => execDbgAccess_same dr (.refl s) rfl
  | .hdrLockSet r a size => execHdrLockSet_same r a size (.refl s) rfl
  | .hdrIrqForce r a size v => execHdrIrqForce_same r a size v (.refl s) rfl
  | .registerPairLoRead r a size => execRegisterPairLoRead_same r a size (.refl s) rfl
  | .rcRead r a size => execRcRead_same r a size (.refl s) rfl
  | .registerWrite r a size v => execRegisterWrite_same r a size v (.refl s) rfl
  | .bargeTimerDue c => execBargeTimerDue_same c (.refl s) rfl
  | .bargeUnitComplete c => execBargeUnitComplete_same c (.refl s) rfl
  | .brgSubmitPush r n => execBrgSubmitPush_same r n (.refl s) rfl
  | .brgCtrlGo r c clr => execBrgCtrlGo_same r c clr (.refl s) rfl
  | .brgCplPop r n => execBrgCplPop_same r n (.refl s) rfl
  | .startInterface n => execStartInterface_same n (.refl s) rfl
  | .dmiAccess a => execDmiAccess_same a (.refl s) rfl

/-- Every command answers a next state that takes nothing back. -/
theorem exec_grows (c : Instr) (s : State) : OutGrows s (exec c s) :=
  match c with
  | .pwrGoodRise => execPwrGoodRise_grows (.refl s)
  | .pwrGoodFall => execPwrGoodFall_grows (.refl s)
  | .perstNAssert => execPerstNAssert_grows (.refl s)
  | .perstNRelease mode => execPerstNRelease_grows mode (.refl s)
  | .refclkSysAbsent => execRefclkSysAbsent_grows (.refl s)
  | .refclkXngAbsent => execRefclkXngAbsent_grows (.refl s)
  | .refclkXngStable => execRefclkXngStable_grows (.refl s)
  | .flowPulse => execFlowPulse_grows (.refl s)
  | .flowStop => execFlowStop_grows (.refl s)
  | .coolantSensorRead inlet outlet => execCoolantSensorRead_grows inlet outlet (.refl s)
  | .hardLimitTrip => execHardLimitTrip_grows (.refl s)
  | .analogueComparatorTrip die => execAnalogueComparatorTrip_grows die (.refl s)
  | .pstateDecision st ack => execPstateDecision_grows st ack (.refl s)
  | .voutStepSettled st ack => execVoutStepSettled_grows st ack (.refl s)
  | .clockSwitch st ack => execClockSwitch_grows st ack (.refl s)
  | .lookaheadEntry p t => execLookaheadEntry_grows p t (.refl s)
  | .boreStart p t => execBoreStart_grows p t (.refl s)
  | .boreEntryDone p t => execBoreEntryDone_grows p t (.refl s)
  | .shadowLoadStart p t => execShadowLoadStart_grows p t (.refl s)
  | .shadowLoaded p t => execShadowLoaded_grows p t (.refl s)
  | .sparseMetaReject p t => execSparseMetaReject_grows p t (.refl s)
  | .passStart p t => execPassStart_grows p t (.refl s)
  | .shadowFree p t => execShadowFree_grows p t (.refl s)
  | .vectorIssue p t => execVectorIssue_grows p t (.refl s)
  | .accWrite p c t => execAccWrite_grows p c t (.refl s)
  | .drainRow p t => execDrainRow_grows p t (.refl s)
  | .arrRngHiWrite r p v => execArrRngHiWrite_grows r p v (.refl s)
  | .rampDownStart p t => execRampDownStart_grows p t (.refl s)
  | .columnGroupDisable p t => execColumnGroupDisable_grows p t (.refl s)
  | .rampUpStart p t => execRampUpStart_grows p t (.refl s)
  | .columnGroupEnable p t => execColumnGroupEnable_grows p t (.refl s)
  | .haltRequest p t => execHaltRequest_grows p t (.refl s)
  | .arrayHalted p t => execArrayHalted_grows p t (.refl s)
  | .arrCfgWrite r p v => execArrCfgWrite_grows r p v (.refl s)
  | .stewardException p cause tval => execStewardException_grows p cause tval (.refl s)
  | .stwWdogFault r p => execStwWdogFault_grows r p (.refl s)
  | .stwWdogKick r p => execStwWdogKick_grows r p (.refl s)
  | .stewardWatchdogExpiry p => execStewardWatchdogExpiry_grows p (.refl s)
  | .pqPush r p q => execPqPush_grows r p q (.refl s)
  | .stalledPushAccept p => execStalledPushAccept_grows p (.refl s)
  | .vectorDescStart p => execVectorDescStart_grows p (.refl s)
  | .vectorDescComplete p => execVectorDescComplete_grows p (.refl s)
  | .localSignalArrive p ctr => execLocalSignalArrive_grows p ctr (.refl s)
  | .vecRngHiWrite r p v => execVecRngHiWrite_grows r p v (.refl s)
  | .pqCplPop r p => execPqCplPop_grows r p (.refl s)
  | .pqSkip r p q => execPqSkip_grows r p q (.refl s)
  | .pqFlush r p q => execPqFlush_grows r p q (.refl s)
  | .pqSetEn r p q => execPqSetEn_grows r p q (.refl s)
  | .pqClrEn r p q => execPqClrEn_grows r p q (.refl s)
  | .noriaDispatch p => execNoriaDispatch_grows p (.refl s)
  | .bargeHandoff p => execBargeHandoff_grows p (.refl s)
  | .outputSlotWrite r p n w v => execOutputSlotWrite_grows r p n w v (.refl s)
  | .headgateWrite r p n w v => execHeadgateWrite_grows r p n w v (.refl s)
  | .addToken p src ctr amount => execAddToken_grows p src ctr amount (.refl s)
  | .creditToken p src slot n => execCreditToken_grows p src slot n (.refl s)
  | .fencedToken p src slot => execFencedToken_grows p src slot (.refl s)
  | .bargeGo p src c => execBargeGo_grows p src c (.refl s)
  | .wake p src => execWake_grows p src (.refl s)
  | .markerToken u input stop => execMarkerToken_grows u input stop (.refl s)
  | .reservedToken p src tok => execReservedToken_grows p src tok (.refl s)
  | .pqTokenTx r p v => execPqTokenTx_grows r p v (.refl s)
  | .tokenCounterWrite r p n v => execTokenCounterWrite_grows r p n v (.refl s)
  | .streamFlitSend p slot => execStreamFlitSend_grows p slot (.refl s)
  | .streamFlitArrive dst hg sid src slot data => execStreamFlitArrive_grows dst hg sid src slot data (.refl s)
  | .headgateConsume p hg => execHeadgateConsume_grows p hg (.refl s)
  | .creditBatchTimeout p hg => execCreditBatchTimeout_grows p hg (.refl s)
  | .routerForward die site out => execRouterForward_grows die site out (.refl s)
  | .rhFenceSet r st q mask => execRhFenceSet_grows r st q mask (.refl s)
  | .d2dFrameReceive m frame => execD2dFrameReceive_grows m frame (.refl s)
  | .replayRateTick m => execReplayRateTick_grows m (.refl s)
  | .dfLinkRetrain r m => execDfLinkRetrain_grows r m (.refl s)
  | .d2dRetrainDone m ok spared => execD2dRetrainDone_grows m ok spared (.refl s)
  | .dfLinkDisable r m v => execDfLinkDisable_grows r m v (.refl s)
  | .d2dLinkDown die far => execD2dLinkDown_grows die far (.refl s)
  | .cisternRead p off len src => execCisternRead_grows p off len src (.refl s)
  | .cisternWrite p off data poison src => execCisternWrite_grows p off data poison src (.refl s)
  | .weirOpApply p op esize off operand poison fetch => execWeirOpApply_grows p op esize off operand poison fetch (.refl s)
  | .scatterAddPacketSend c => execScatterAddPacketSend_grows c (.refl s)
  | .bankRefresh p bank => execBankRefresh_grows p bank (.refl s)
  | .bandApply st => execBandApply_grows st (.refl s)
  | .fillSegmentDone p seg => execFillSegmentDone_grows p seg (.refl s)
  | .commonsCfgWrite r n v => execCommonsCfgWrite_grows r n v (.refl s)
  | .demandScrub p => execDemandScrub_grows p (.refl s)
  | .patrolScrub p => execPatrolScrub_grows p (.refl s)
  | .eccWindowTick st => execEccWindowTick_grows st (.refl s)
  | .errRptPop r f => execErrRptPop_grows r f (.refl s)
  | .pprGo r p v => execPprGo_grows r p v (.refl s)
  | .pprDone p => execPprDone_grows p (.refl s)
  | .commonsRemapBegin r n => execCommonsRemapBegin_grows r n (.refl s)
  | .commonsRemapWrite r n j => execCommonsRemapWrite_grows r n j (.refl s)
  | .commonsRemapClear r n j => execCommonsRemapClear_grows r n j (.refl s)
  | .commonsRemapStart r n => execCommonsRemapStart_grows r n (.refl s)
  | .commonsRemapCancel r n => execCommonsRemapCancel_grows r n (.refl s)
  | .remapCopyDone n => execRemapCopyDone_grows n (.refl s)
  | .remapSwitch n => execRemapSwitch_grows n (.refl s)
  | .remapDone n => execRemapDone_grows n (.refl s)
  | .noriaCmdArrive src => execNoriaCmdArrive_grows src (.refl s)
  | .noriaRetryResend src => execNoriaRetryResend_grows src (.refl s)
  | .bankPermitGrant p bank => execBankPermitGrant_grows p bank (.refl s)
  | .noriaStepStart p bank => execNoriaStepStart_grows p bank (.refl s)
  | .noriaStepEnd p bank => execNoriaStepEnd_grows p bank (.refl s)
  | .noriaXchkPeriod p => execNoriaXchkPeriod_grows p (.refl s)
  | .noriaXchkGo r p v => execNoriaXchkGo_grows r p v (.refl s)
  | .noriaXchkDone p bank same => execNoriaXchkDone_grows p bank same (.refl s)
  | .nwinPush r n => execNwinPush_grows r n (.refl s)
  | .nwinCplPop r n => execNwinCplPop_grows r n (.refl s)
  | .linkRecovery gen width => execLinkRecovery_grows gen width (.refl s)
  | .hotReset => execHotReset_grows (.refl s)
  | .flrVf n => execFlrVf_grows n (.refl s)
  | .flrPf => execFlrPf_grows (.refl s)
  | .configRequest f write off v => execConfigRequest_grows f write off v (.refl s)
  | .bar2Access f write off len data ep tbit => execBar2Access_grows f write off len data ep tbit (.refl s)
  | .atomicOp f bar op off operand compare tbit => execAtomicOp_grows f bar op off operand compare tbit (.refl s)
  | .sqDoorbell g v tbit => execSqDoorbell_grows g v tbit (.refl s)
  | .cqDoorbell g v tbit => execCqDoorbell_grows g v tbit (.refl s)
  | .sqFetch g => execSqFetch_grows g (.refl s)
  | .hostReadCompletion f j ok data => execHostReadCompletion_grows f j ok data (.refl s)
  | .completionTimeout f j => execCompletionTimeout_grows f j (.refl s)
  | .loadGraph g image => execLoadGraph_grows g image (.refl s)
  | .runGraph g => execRunGraph_grows g (.refl s)
  | .plotPartEnd p => execPlotPartEnd_grows p (.refl s)
  | .runTimeout n slot => execRunTimeout_grows n slot (.refl s)
  | .copy g => execCopy_grows g (.refl s)
  | .fill g => execFill_grows g (.refl s)
  | .noriaOp g list => execNoriaOp_grows g list (.refl s)
  | .fence g => execFence_grows g (.refl s)
  | .signal g => execSignal_grows g (.refl s)
  | .wait g => execWait_grows g (.refl s)
  | .waitPoll g => execWaitPoll_grows g (.refl s)
  | .waitTimeout g => execWaitTimeout_grows g (.refl s)
  | .query g => execQuery_grows g (.refl s)
  | .selftest g => execSelftest_grows g (.refl s)
  | .spareIn g => execSpareIn_grows g (.refl s)
  | .groupForm g ids => execGroupForm_grows g ids (.refl s)
  | .groupDissolve g => execGroupDissolve_grows g (.refl s)
  | .reservedOpcode g => execReservedOpcode_grows g (.refl s)
  | .ringSetEn r g => execRingSetEn_grows r g (.refl s)
  | .ringClrEn r g => execRingClrEn_grows r g (.refl s)
  | .partAssign r n v => execPartAssign_grows r n v (.refl s)
  | .partRemove r n v => execPartRemove_grows r n v (.refl s)
  | .partSetEn r n => execPartSetEn_grows r n (.refl s)
  | .partClrEn r n => execPartClrEn_grows r n (.refl s)
  | .partReset r n => execPartReset_grows r n (.refl s)
  | .resettingEnd n trained => execResettingEnd_grows n trained (.refl s)
  | .xngLightDetect n => execXngLightDetect_grows n (.refl s)
  | .xngEqualiseDone n ok => execXngEqualiseDone_grows n ok (.refl s)
  | .xngAlignDone n spare => execXngAlignDone_grows n spare (.refl s)
  | .xngPeerDone n peer gen half encOff => execXngPeerDone_grows n peer gen half encOff (.refl s)
  | .xngAuthDone n certOk => execXngAuthDone_grows n certOk (.refl s)
  | .xngStateTimeout n => execXngStateTimeout_grows n (.refl s)
  | .xngDownExpiry n => execXngDownExpiry_grows n (.refl s)
  | .codewordLockLoss n => execCodewordLockLoss_grows n (.refl s)
  | .xngRetrain r n => execXngRetrain_grows r n (.refl s)
  | .xngRetrainDone n ok => execXngRetrainDone_grows n ok (.refl s)
  | .xngFlitReceive n flit tagOk plain => execXngFlitReceive_grows n flit tagOk plain (.refl s)
  | .tagGroupClose n => execTagGroupClose_grows n (.refl s)
  | .xngRekey r n => execXngRekey_grows r n (.refl s)
  | .rekeyDue n => execRekeyDue_grows n (.refl s)
  | .xngErrorRateTick n laneCorr => execXngErrorRateTick_grows n laneCorr (.refl s)
  | .xngPacketSend n => execXngPacketSend_grows n (.refl s)
  | .join src gid epoch digest => execJoin_grows src gid epoch digest (.refl s)
  | .joinAck src gid epoch digest => execJoinAck_grows src gid epoch digest (.refl s)
  | .joinKeepExpiry j => execJoinKeepExpiry_grows j (.refl s)
  | .grpTimeout g => execGrpTimeout_grows g (.refl s)
  | .heartbeatSend g => execHeartbeatSend_grows g (.refl s)
  | .heartbeat src gid epoch => execHeartbeat_grows src gid epoch (.refl s)
  | .heartbeatTimeout g next => execHeartbeatTimeout_grows g next (.refl s)
  | .sever src gid epoch => execSever_grows src gid epoch (.refl s)
  | .lost src gid epoch seq => execLost_grows src gid epoch seq (.refl s)
  | .e2eCredit src amount => execE2eCredit_grows src amount (.refl s)
  | .dataPacket src gid epoch seq like off data poison => execDataPacket_grows src gid epoch seq like off data poison (.refl s)
  | .collectiveDescriptor e => execCollectiveDescriptor_grows e (.refl s)
  | .collectiveComplete e j => execCollectiveComplete_grows e j (.refl s)
  | .ferryAdmission st info => execFerryAdmission_grows st info (.refl s)
  | .ferryLost st hot => execFerryLost_grows st hot (.refl s)
  | .ferryReadmit r st => execFerryReadmit_grows r st (.refl s)
  | .coreRelease r st mask => execCoreRelease_grows r st mask (.refl s)
  | .coreAtomic st k op wide addr cached operand compare rd => execCoreAtomic_grows st k op wide addr cached operand compare rd (.refl s)
  | .coreTokenTx r st v => execCoreTokenTx_grows r st v (.refl s)
  | .mediaSubmitPush r n => execMediaSubmitPush_grows r n (.refl s)
  | .mediaJobStart n => execMediaJobStart_grows n (.refl s)
  | .mediaPictureOutput n vals => execMediaPictureOutput_grows n vals (.refl s)
  | .mediaJobComplete n how => execMediaJobComplete_grows n how (.refl s)
  | .mediaCplPop r n => execMediaCplPop_grows r n (.refl s)
  | .ownerWrite r u v => execOwnerWrite_grows r u v (.refl s)
  | .svnCommit r => execSvnCommit_grows r (.refl s)
  | .revokeSubmit r => execRevokeSubmit_grows r (.refl s)
  | .keyEngineRequestDone ok => execKeyEngineRequestDone_grows ok (.refl s)
  | .spdmRequest f q => execSpdmRequest_grows f q (.refl s)
  | .ideIntegrityFail f => execIdeIntegrityFail_grows f (.refl s)
  | .lockInterface n => execLockInterface_grows n (.refl s)
  | .stopInterface n => execStopInterface_grows n (.refl s)
  | .dbgTokenSubmit token viaJtag => execDbgTokenSubmit_grows token viaJtag (.refl s)
  | .rngHealthFail => execRngHealthFail_grows (.refl s)
  | .bootStageComplete stage res => execBootStageComplete_grows stage res (.refl s)
  | .bootWatchdog => execBootWatchdog_grows (.refl s)
  | .floodBlock recv num data => execFloodBlock_grows recv num data (.refl s)
  | .floodRepairRequest => execFloodRepairRequest_grows (.refl s)
  | .floodRoundEnd => execFloodRoundEnd_grows (.refl s)
  | .coldReset r next => execColdReset_grows r next (.refl s)
  | .warmReset r => execWarmReset_grows r (.refl s)
  | .clrAttempts r => execClrAttempts_grows r (.refl s)
  | .nextSlot r v => execNextSlot_grows r v (.refl s)
  | .sstoreRead r => execSstoreRead_grows r (.refl s)
  | .sstoreProgram r => execSstoreProgram_grows r (.refl s)
  | .sstoreErase r => execSstoreErase_grows r (.refl s)
  | .sstoreDone ok => execSstoreDone_grows ok (.refl s)
  | .plotReset r st q v => execPlotReset_grows r st q v (.refl s)
  | .reachReset r st q => execReachReset_grows r st q (.refl s)
  | .resetDrainEnd sc => execResetDrainEnd_grows sc (.refl s)
  | .resetRelease sc testsOk floodOk => execResetRelease_grows sc testsOk floodOk (.refl s)
  | .fltPropPop r => execFltPropPop_grows r (.refl s)
  | .selftestStart id => execSelftestStart_grows id (.refl s)
  | .selftestDone id ok code => execSelftestDone_grows id ok code (.refl s)
  | .busyTimeout id => execBusyTimeout_grows id (.refl s)
  | .spareCopyDone st p testsOk floodOk copyOk => execSpareCopyDone_grows st p testsOk floodOk copyOk (.refl s)
  | .functionSetEn r u => execFunctionSetEn_grows r u (.refl s)
  | .functionClrEn r u => execFunctionClrEn_grows r u (.refl s)
  | .functionStopped u => execFunctionStopped_grows u (.refl s)
  | .drainLimitExpiry u => execDrainLimitExpiry_grows u (.refl s)
  | .sensorSample die j raw temp => execSensorSample_grows die j raw temp (.refl s)
  | .thermalLoop st => execThermalLoop_grows st (.refl s)
  | .sensorMean100ms st j => execSensorMean100ms_grows st j (.refl s)
  | .powerEstimate st mw => execPowerEstimate_grows st mw (.refl s)
  | .adaptiveLevelLower st => execAdaptiveLevelLower_grows st (.refl s)
  | .startPermitGrant st p t => execStartPermitGrant_grows st p t (.refl s)
  | .coolantEstimate => execCoolantEstimate_grows (.refl s)
  | .govResume r => execGovResume_grows r (.refl s)
  | .tollSample power sat => execTollSample_grows power sat (.refl s)
  | .feedFrame frame crcOk => execFeedFrame_grows frame crcOk (.refl s)
  | .feedGap => execFeedGap_grows (.refl s)
  | .tollSecond memOk => execTollSecond_grows memOk (.refl s)
  | .tollSummary => execTollSummary_grows (.refl s)
  | .identify m => execIdentify_grows m (.refl s)
  | .status m => execStatus_grows m (.refl s)
  | .readRecord m => execReadRecord_grows m (.refl s)
  | .readSummary m => execReadSummary_grows m (.refl s)
  | .signRange m => execSignRange_grows m (.refl s)
  | .readAudit m => execReadAudit_grows m (.refl s)
  | .calibrate m message pinHeld => execCalibrate_grows m message pinHeld (.refl s)
  | .mbBadOpcode m => execMbBadOpcode_grows m (.refl s)
  | .tollMbDone m => execTollMbDone_grows m (.refl s)
  | .tollCalEnChange level => execTollCalEnChange_grows level (.refl s)
  | .cntSample r set => execCntSample_grows r set (.refl s)
  | .soundingGo r => execSoundingGo_grows r (.refl s)
  | .soundingDone => execSoundingDone_grows (.refl s)
  | .stopGo r => execStopGo_grows r (.refl s)
  | .markerPacket u input stop => execMarkerPacket_grows u input stop (.refl s)
  | .unitSnapshot u => execUnitSnapshot_grows u (.refl s)
  | .markerTimeout u input => execMarkerTimeout_grows u input (.refl s)
  | .stopForce => execStopForce_grows (.refl s)
  | .stopRelease r => execStopRelease_grows r (.refl s)
  | .dbgRecSel r v => execDbgRecSel_grows r v (.refl s)
  | .dbgRecReady => execDbgRecReady_grows (.refl s)
  | .watchPointFire n => execWatchPointFire_grows n (.refl s)
  | .dbgAccess dr => execDbgAccess_grows dr (.refl s)
  | .hdrLockSet r a size => execHdrLockSet_grows r a size (.refl s)
  | .hdrIrqForce r a size v => execHdrIrqForce_grows r a size v (.refl s)
  | .registerPairLoRead r a size => execRegisterPairLoRead_grows r a size (.refl s)
  | .rcRead r a size => execRcRead_grows r a size (.refl s)
  | .registerWrite r a size v => execRegisterWrite_grows r a size v (.refl s)
  | .bargeTimerDue c => execBargeTimerDue_grows c (.refl s)
  | .bargeUnitComplete c => execBargeUnitComplete_grows c (.refl s)
  | .brgSubmitPush r n => execBrgSubmitPush_grows r n (.refl s)
  | .brgCtrlGo r c clr => execBrgCtrlGo_grows r c clr (.refl s)
  | .brgCplPop r n => execBrgCplPop_grows r n (.refl s)
  | .startInterface n => execStartInterface_grows n (.refl s)
  | .dmiAccess a => execDmiAccess_grows a (.refl s)


/-- R22, R532: clocks that are stopped are stopped with THERMTRIP_N latched. -/
def TripLatched (s : State) : Prop := s.clocksOff = true → s.pins.thermtrip = true

theorem exec_frame {c : Instr} {s u : State} (h : exec c s = .next u) : SameBut (footprint c) s u := by
  obtain ⟨t, ht, frame⟩ := exec_same c s
  cases ht.symm.trans h
  exact frame

theorem exec_takes_nothing_back {c : Instr} {s u : State} (h : exec c s = .next u) : Grows s u := by
  obtain ⟨t, ht, grows⟩ := exec_grows c s
  cases ht.symm.trans h
  exact grows

theorem exec_pending {c : Instr} {s u : State} (h : exec c s = .next u) : u.pending = s.pending :=
  (exec_takes_nothing_back h).pending

theorem exec_completes (c : Instr) (s : State) : ∃ u, exec c s = .next u :=
  let ⟨u, hu, _⟩ := exec_same c s
  ⟨u, hu⟩

theorem TripLatched.of_frame {w : List Fld} {s u : State} (frame : SameBut w s u) (clocks : w.contains .clocksOff = false)
    (pins : w.contains .pins = false) (latched : TripLatched s) : TripLatched u := by
  unfold TripLatched
  rw [frame.clocksOff (by simpa using clocks), frame.pins (by simpa using pins)]
  exact latched

theorem TripLatched.trip (s : State) : TripLatched s.trip := fun _ => by simp

theorem TripLatched.powerLoss (s : State) : TripLatched (powerLoss s) := fun off => by cases off

theorem TripLatched.foldl {α : Type} {f : State → α → State} {l : List α} {s : State} (h : TripLatched s)
    (hf : ∀ u a, TripLatched u → TripLatched (f u a)) : TripLatched (l.foldl f s) := by
  induction l generalizing s with
  | nil => exact h
  | cons a l ih => exact ih (hf _ _ h)

theorem TripLatched.startBoot {s : State} (warm : Bool) (h : TripLatched s) : TripLatched (s.startBoot warm) :=
  h.of_frame (State.startBoot_same (msk := [.freeCtr, .regs, .boot, .wire]) warm (.refl s) rfl) rfl rfl

theorem TripLatched.clearPkg {s : State} (cold : Bool) (h : TripLatched s) : TripLatched (s.clearPkg cold) :=
  h.of_frame (State.clearPkg_same (msk := footprint .hotReset) cold (.refl s) rfl) rfl rfl

/-- PERST_N leaves the latch and the clocks as they are. -/
theorem TripLatched.perstNAssert {s u : State} (h : TripLatched s) (hu : exec .perstNAssert s = .next u) : TripLatched u := by
  cases hu
  dsimp only
  split
  · exact TripLatched.clearPkg true h
  · exact h

theorem TripLatched.perstNRelease {mode : BitVec 2} {s u : State} (h : TripLatched s)
    (hu : exec (.perstNRelease mode) s = .next u) : TripLatched u := by
  cases hu
  dsimp only
  split
  · exact h
  · split
    · exact TripLatched.startBoot false h
    · exact h

theorem TripLatched.pwrGoodRise {s u : State} (h : TripLatched s) (hu : exec .pwrGoodRise s = .next u) : TripLatched u := by
  cases hu
  split
  · exact h
  · dsimp only
    split
    · exact h
    · exact TripLatched.startBoot false h

/-- Power loss releases the pin and starts the clocks anew. -/
theorem TripLatched.pwrGoodFall {s u : State} (h : TripLatched s) (hu : exec .pwrGoodFall s = .next u) : TripLatched u := by
  cases hu
  split
  · exact TripLatched.powerLoss s
  · exact h

theorem TripLatched.sysLost {s : State} (h : TripLatched s) (lost : Bool) :
    TripLatched { s with pins := { s.pins with sysLost := lost } } := fun off => h off

theorem TripLatched.refclkSysAbsent {s u : State} (h : TripLatched s) (hu : exec .refclkSysAbsent s = .next u) :
    TripLatched u := by
  cases hu
  split
  · have alerted : TripLatched (s.alert 9) :=
      h.of_frame (State.alert_same (msk := [.regs, .cores, .cnts, .wire]) 9 (.refl s) rfl) rfl rfl
    have halted := alerted.foldl (f := fun s st => s.updStk st fun T => { T with halt := true }) (l := List.range 16)
      fun u st hu => hu.of_frame (State.updStk_same (msk := [.stks]) st _ (.refl u) rfl) rfl rfl
    exact halted.sysLost true
  · exact h

theorem xngClockLost_tripLatched {s : State} (h : TripLatched s) : TripLatched (xngClockLost s) := by
  unfold xngClockLost
  refine TripLatched.foldl (fun off => h off) fun u n hu => ?_
  split
  · exact hu.of_frame (State.xngDown_same (msk := footprint (.codewordLockLoss default)) n 9 (.refl u) rfl) rfl rfl
  · exact hu

theorem xngClockBack_tripLatched {s : State} (h : TripLatched s) : TripLatched (xngClockBack s) := by
  unfold xngClockBack
  refine TripLatched.foldl (fun off => h off) fun u n hu => ?_
  split
  · exact hu.of_frame (State.xngDetect_same (msk := [.xngs]) n (.refl u) rfl) rfl rfl
  · exact hu

theorem TripLatched.refclkXngAbsent {s u : State} (h : TripLatched s) (hu : exec .refclkXngAbsent s = .next u) :
    TripLatched u := by
  injection hu with hu
  exact hu ▸ xngClockLost_tripLatched h

theorem TripLatched.refclkXngStable {s u : State} (h : TripLatched s) (hu : exec .refclkXngStable s = .next u) :
    TripLatched u := by
  injection hu with hu
  exact hu ▸ xngClockBack_tripLatched h

theorem TripLatched.tollCalEnChange {level : Bool} {s u : State} (h : TripLatched s)
    (hu : exec (.tollCalEnChange level) s = .next u) : TripLatched u := by
  cases hu
  dsimp only
  split
  · exact h
  · split <;> exact h

theorem TripLatched.ite_trip {s u : State} {c : Prop} [Decidable c] (h : TripLatched s)
    (hu : (Host.Outcome.next (if c then s.trip else s) : Out) = .next u) : TripLatched u := by
  cases hu
  split
  · exact TripLatched.trip s
  · exact h

/-- Ten commands change the pins or the clocks; every other keeps both by its footprint. -/
theorem TripLatched.exec {c : Instr} {s u : State} (h : TripLatched s) (hu : exec c s = .next u) : TripLatched u := by
  cases c
  case pwrGoodRise => exact h.pwrGoodRise hu
  case pwrGoodFall => exact h.pwrGoodFall hu
  case perstNAssert => exact h.perstNAssert hu
  case perstNRelease => exact h.perstNRelease hu
  case refclkSysAbsent => exact h.refclkSysAbsent hu
  case refclkXngAbsent => exact h.refclkXngAbsent hu
  case refclkXngStable => exact h.refclkXngStable hu
  case hardLimitTrip => exact h.ite_trip hu
  case analogueComparatorTrip => exact h.ite_trip hu
  case tollCalEnChange => exact h.tollCalEnChange hu
  all_goals exact h.of_frame (exec_frame hu) rfl rfl

theorem Inv.exec {c : Instr} {s u : State} (inv : Inv s) (hu : exec c s = .next u) : Inv u :=
  let grows := exec_takes_nothing_back hu
  ⟨grows.mem inv.mem, grows.regs inv.regs, grows.sealMax inv.seals, TripLatched.exec inv.trip hu⟩

/-! ### Steps -/

/-- A step is the front command's `exec` with the queue's rest, or the tick of an idle package. -/
theorem step_cases {s u : State} (h : step s = .next u) :
    (∃ c rest, s.pending = c :: rest ∧ exec c { s with pending := rest } = .next u) ∨ (s.pending = [] ∧ u = tick s) := by
  unfold step at h
  split at h
  · cases h
    exact .inr ⟨‹_›, rfl⟩
  · exact .inl ⟨_, _, ‹_›, h⟩

theorem step_nil {s : State} (h : s.pending = []) : step s = .next (tick s) := by
  unfold step
  rw [h]

theorem tick_same (s : State) : SameBut [.tb] s (tick s) := SameBut.lit_tb (.refl s) rfl

theorem step_completes (s : State) : ∃ u, step s = .next u ∧ u.pending = s.pending.tail := by
  cases h : s.pending with
  | nil => exact ⟨_, step_nil h, h⟩
  | cons c rest =>
    obtain ⟨u, hu⟩ := exec_completes c { s with pending := rest }
    refine ⟨u, ?_, exec_pending hu⟩
    unfold step
    rw [h]
    exact hu

theorem safeFor (k : Nat) (s : State) : SafeFor k s := by
  induction k generalizing s with
  | zero => exact trivial
  | succ k ih =>
    obtain ⟨u, hu, _⟩ := step_completes s
    exact ⟨u, hu, ih u⟩

/-- Settles O1: `step` is written so. -/
theorem aStepRunsTheFrontCommand : Obligations.AStepRunsTheFrontCommand :=
  ⟨step_pending_cons, fun s idle => ⟨tick s, step_nil idle, tick_same s, rfl⟩⟩

/-- Settles O2: every command has a lemma that names its next state, and none of them touches the queue. -/
theorem everyCommandCompletes : Obligations.EveryCommandCompletes :=
  ⟨fun c s => let ⟨u, hu⟩ := exec_completes c s; ⟨u, hu, exec_pending hu⟩, step_completes, safeFor⟩

/-- Settles O3: the frame lemma of each command, over the list of commands. -/
theorem commandsKeepToTheirFields : Obligations.CommandsKeepToTheirFields := fun _ _ _ h => exec_frame h

/-- Settles O4: memory, registers and the seal counter by what every command keeps, THERMTRIP_N by the ten commands
that reach the pins or the clocks. -/
theorem stepsKeepTheInvariant : Obligations.StepsKeepTheInvariant := by
  unfold Obligations.StepsKeepTheInvariant
  intro s u inv h
  rcases step_cases h with ⟨c, rest, _, hu⟩ | ⟨_, rfl⟩
  · exact Inv.exec (s := { s with pending := rest }) ⟨inv.mem, inv.regs, inv.seals, inv.trip⟩ hu
  · exact ⟨inv.mem, inv.regs, inv.seals, inv.trip⟩

/-- Settles O5: the tables of the package at reset are empty. -/
theorem theInvariantHoldsAtReset : Obligations.TheInvariantHoldsAtReset :=
  ⟨rfl, rfl, Nat.zero_le 256, fun off => by cases off⟩

/-- Settles O6: every command takes nothing back, and an idle step changes the time base alone. -/
theorem stepsNeverTakeBack : Obligations.StepsNeverTakeBack := by
  unfold Obligations.StepsNeverTakeBack
  intro s u h
  rcases step_cases h with ⟨c, rest, _, hu⟩ | ⟨_, rfl⟩
  · have grows := exec_takes_nothing_back hu
    exact ⟨grows.svn, grows.revoked, grows.seals, grows.wire, grows.free⟩
  · exact ⟨Nat.le_refl _, fun _ => id, Nat.le_refl _, List.prefix_refl _, Nat.le_refl _⟩

end Sys2Proof.Machine
end

section
/-!
Rules that the commands of all units share: what a served access does, what counting, interrupts and the token counters
leave of the registers, and how a frame carries over to a unit's entry.
-/
namespace Sys2Proof.Machine

variable (s : State)

/-! ### Other plots -/

theorem OtherPlots.refl (k : Nat) : OtherPlots k s s := fun _ _ => rfl

theorem OtherPlots.trans {k : Nat} {s t u : State} (h : OtherPlots k s t) (h' : OtherPlots k t u) : OtherPlots k s u :=
  fun j hj => (h' j hj).trans (h j hj)

theorem State.plot_updPlot_ne {k j : Nat} (f : Plot → Plot) (h : j ≠ k) : (s.updPlot k f).plot j = s.plot j :=
  State.plot_setPlot_ne s _ h

theorem otherPlots_updPlot (k : Nat) (f : Plot → Plot) : OtherPlots k s (s.updPlot k f) := fun _ hj =>
  s.plot_updPlot_ne f hj

theorem SameBut.otherPlots {w : List Fld} {s t : State} (h : SameBut w s t) (hw : Fld.plots ∉ w) (k : Nat) :
    OtherPlots k s t := fun j _ => h.plot hw j

theorem otherPlots_updArr (k : Nat) (f : Arr → Arr) : OtherPlots k s (s.updArr k f) := otherPlots_updPlot s k _

theorem otherPlots_updQueue (k q : Nat) (f : PQueue → PQueue) : OtherPlots k s (s.updQueue k q f) :=
  otherPlots_updPlot s k _

@[simp] theorem State.arr_updArr_same (k : Nat) (f : Arr → Arr) : (s.updArr k f).arr k = f (s.arr k) := by
  simp [State.arr, State.updArr]

@[simp] theorem State.queue_updQueue_same (k q : Nat) (f : PQueue → PQueue) :
    (s.updQueue k q f).queue k q = f (s.queue k q) := by
  simp [State.queue, State.updQueue]

theorem SameBut.ite {w : List Fld} {s t u : State} {c : Prop} [Decidable c] (ht : SameBut w s t) (hu : SameBut w s u) :
    SameBut w s (if c then t else u) := by
  split
  · exact ht
  · exact hu

/-! ### Served accesses -/

/-- R606: what a served access changes before its effect is the debug module's note of a step. -/
theorem State.reqStepped_frame (r : Req) : SameBut [.dbg] s (s.reqStepped r) :=
  State.reqStepped_same r (.refl s) rfl

@[simp] theorem State.reqStepped_plot (r : Req) (k : Nat) : (s.reqStepped r).plot k = s.plot k :=
  (s.reqStepped_frame r).plot (by decide) k

@[simp] theorem State.reqStepped_reg (r : Req) (a : Nat) : (s.reqStepped r).reg a = s.reg a :=
  (s.reqStepped_frame r).reg (by decide) a

@[simp] theorem State.reqStepped_fld (r : Req) (a lo w : Nat) : (s.reqStepped r).fld a lo w = s.fld a lo w := by
  simp [State.fld]

@[simp] theorem State.reqStepped_bit (r : Req) (a i : Nat) : (s.reqStepped r).bit a i = s.bit a i := by
  simp [State.bit]

@[simp] theorem State.reqStepped_regs (r : Req) : (s.reqStepped r).regs = s.regs :=
  (s.reqStepped_frame r).regs (by decide)

@[simp] theorem State.reqStepped_queue (r : Req) (k q : Nat) : (s.reqStepped r).queue k q = s.queue k q := by
  simp [State.queue]

@[simp] theorem State.reqStepped_arr (r : Req) (k : Nat) : (s.reqStepped r).arr k = s.arr k := by
  simp [State.arr]

theorem State.reqStepped_otherPlots (r : Req) (k : Nat) : OtherPlots k s (s.reqStepped r) :=
  (s.reqStepped_frame r).otherPlots (by decide) k

variable {s}

/-- A write that reaches its register has its effect. -/
theorem outcome_access {r : Req} {a : Nat} (k : State → State) (h : reach s r false a = .ok) :
    (Host.Outcome.next (s.access r a k) : Out) = .next (k (s.reqStepped r)) :=
  congrArg _ (s.access_ok k h)

/-- A read that reaches its register has its effect. -/
theorem outcome_readAccess {r : Req} {a : Nat} (k : State → State) (n : Nat) (h : reach s r true a = .ok) :
    (Host.Outcome.next (s.readAccess r a k n) : Out) = .next (k (s.reqStepped r)) :=
  congrArg _ (s.readAccess_ok k n h)

@[simp] theorem State.caps_capture (s : State) (a : Nat) (x : Word) : tget none (s.capture a x).caps a = some x := by
  simp [State.capture]

/-! ### Registers -/

theorem OtherRegs.refl (l : List Nat) : OtherRegs l s s := fun _ _ => rfl

theorem OtherRegs.trans {l : List Nat} {s t u : State} (h : OtherRegs l s t) (h' : OtherRegs l t u) : OtherRegs l s u :=
  fun a ha => (h' a ha).trans (h a ha)

theorem SameBut.otherRegs {w : List Fld} {s t : State} (h : SameBut w s t) (hw : Fld.regs ∉ w) (l : List Nat) :
    OtherRegs l s t := fun a _ => h.reg hw a

theorem otherRegs_setReg {l : List Nat} {a : Nat} (x : Word) (h : a ∈ l) : OtherRegs l s (s.setReg a x) :=
  fun _ hb => s.reg_setReg_ne _ fun e => hb (e ▸ h)

theorem otherRegs_setFld {l : List Nat} {a : Nat} (lo w x : Nat) (h : a ∈ l) : OtherRegs l s (s.setFld a lo w x) :=
  otherRegs_setReg _ h

theorem otherRegs_setBit {l : List Nat} {a : Nat} (i : Nat) (h : a ∈ l) : OtherRegs l s (s.setBit a i) :=
  otherRegs_setReg _ h

theorem otherRegs_clrBit {l : List Nat} {a : Nat} (i : Nat) (h : a ∈ l) : OtherRegs l s (s.clrBit a i) :=
  otherRegs_setReg _ h

theorem otherRegs_count {l : List Nat} {k : Nat} (i n : Nat) (h : cntPage k 0x044 ∈ l) : OtherRegs l s (s.count k i n) :=
  fun a ha => s.count_reg k i n a fun e => ha (e ▸ h)

/-- A register outside the list reads as before, field by field. -/
theorem OtherRegs.fld {l : List Nat} {s t : State} (h : OtherRegs l s t) {a : Nat} (ha : a ∉ l) (lo w : Nat) :
    t.fld a lo w = s.fld a lo w := by
  unfold State.fld
  rw [h a ha]

theorem OtherRegs.bit {l : List Nat} {s t : State} (h : OtherRegs l s t) {a : Nat} (ha : a ∉ l) (i : Nat) :
    t.bit a i = s.bit a i := by
  unfold State.bit
  rw [h.fld ha]

theorem SameBut.fld {w : List Fld} {s t : State} (h : SameBut w s t) (hw : Fld.regs ∉ w) (a lo n : Nat) :
    t.fld a lo n = s.fld a lo n := by
  unfold State.fld
  rw [h.reg hw]

theorem SameBut.bit {w : List Fld} {s t : State} (h : SameBut w s t) (hw : Fld.regs ∉ w) (a i : Nat) :
    t.bit a i = s.bit a i := by
  unfold State.bit
  rw [h.fld hw]

/-- A field's value fits its width. -/
theorem State.fld_lt (s : State) (a lo w : Nat) : s.fld a lo w < 2 ^ w := nbits_lt _ _ _

theorem State.bit_setBit_ne {a i j : Nat} (hi : i < 32) (h : j ≠ i) :
    (s.setBit a i).bit a j = s.bit a j := by
  unfold State.setBit State.bit
  rw [State.fld_setFld_ne s a 1 (by omega) (by omega)]

theorem State.bit_setFld_ne {a lo w x j : Nat} (hw : lo + w ≤ 32) (h : j < lo ∨ lo + w ≤ j) :
    (s.setFld a lo w x).bit a j = s.bit a j := by
  unfold State.bit
  rw [State.fld_setFld_ne s a x hw (by omega)]

/-- R145: the page of the plot's queues posts its events at offset 0x014. -/
theorem State.irq_pqReg (k i : Nat) : s.irq (pqReg k 0) i = s.setBit (pqReg k 0x014) i := by
  have address : pqReg k 0 / 4096 * 4096 + 0x014 = pqReg k 0x014 := by
    unfold pqReg regAddr
    omega
  rw [State.irq, address]

theorem State.irq_pqReg_bit {k i : Nat} (hi : i < 32) : (s.irq (pqReg k 0) i).bit (pqReg k 0x014) i = true := by
  rw [State.irq_pqReg]
  exact s.bit_setBit_same _ hi

theorem otherRegs_irq_pqReg {l : List Nat} {k : Nat} (i : Nat) (h : pqReg k 0x014 ∈ l) :
    OtherRegs l s (s.irq (pqReg k 0) i) := by
  rw [State.irq_pqReg]
  exact otherRegs_setBit i h

/-! ### Token counters (R108) -/

theorem ctrReg_ne_irq (k n : Nat) : ctrReg k n ≠ pqReg k 0x014 := by
  unfold ctrReg pqReg regAddr
  omega

theorem tokCtr_of_reg {s t : State} {k n : Nat} (h : t.reg (ctrReg k n) = s.reg (ctrReg k n)) : tokCtr t k n = tokCtr s k n := by
  unfold tokCtr State.fld
  rw [h]

theorem tokCtr_lt (s : State) (k n : Nat) : tokCtr s k n < 65536 := State.fld_lt s _ 0 16

theorem tokCtr_setFld (s : State) (k n x : Nat) : tokCtr (s.setFld (ctrReg k n) 0 16 x) k n = x % 65536 :=
  State.fld_setFld_same s _ _ (by decide)

/-- R108: a counter takes what is added and saturates. -/
theorem tokCtr_ctrAdd (s : State) (k n amt : Nat) : tokCtr (s.ctrAdd k n amt) k n = min (tokCtr s k n + amt) 65535 := by
  have value : tokCtr (s.setFld (ctrReg k n) 0 16 (min (tokCtr s k n + amt) 65535)) k n = min (tokCtr s k n + amt) 65535 := by
    rw [tokCtr_setFld]
    omega
  unfold State.ctrAdd
  dsimp only
  split
  · rw [State.irq_pqReg, tokCtr_of_reg (State.reg_setBit_ne _ _ (ctrReg_ne_irq k n))]
    unfold tokCtr State.setBit
    rw [State.fld_setFld_ne _ _ _ (by decide) (by decide)]
    exact value
  · exact value

theorem otherRegs_ctrAdd {l : List Nat} {k n : Nat} (amt : Nat) (hc : ctrReg k n ∈ l) (hi : pqReg k 0x014 ∈ l) :
    OtherRegs l s (s.ctrAdd k n amt) := by
  unfold State.ctrAdd
  dsimp only
  split
  · exact ((otherRegs_setFld _ _ _ hc).trans (otherRegs_setBit _ hc)).trans (otherRegs_irq_pqReg _ hi)
  · exact otherRegs_setFld _ _ _ hc

/-- R106: a start takes what its wait names from the counter. -/
theorem tokCtr_waitTake {k y : Nat} (en : waitEn y = true) (ok : waitOk s k y = true) :
    tokCtr (s.waitTake k y) k (waitCtr y) + waitCnt y = tokCtr s k (waitCtr y) := by
  have enough : waitCnt y ≤ tokCtr s k (waitCtr y) := by simpa [waitOk, en] using ok
  have below := tokCtr_lt s k (waitCtr y)
  unfold State.waitTake
  rw [if_pos en, tokCtr_setFld]
  omega

end Sys2Proof.Machine
end

section
/-!
The plot's queues and units: weight loads of the array (R43, R49 to R51, R61), the vector unit (R106, R107, R149),
pushes (R102, R112), token counters and token sends (R107, R108, R134), queue controls and completion records (R111,
R112, R144).
-/
namespace Sys2Proof.Machine

variable {s : State} {k t : Nat}

/-! ### What completing leaves of a plot (R107, R109) -/

/-- The plot `P` with the records and signals of `Q`. -/
def Plot.withRecords (P Q : Plot) : Plot :=
  { P with
    cpl := Q.cpl, sigs := Q.sigs
    qa := { P.qa with heldRecs := Q.qa.heldRecs }
    qv := { P.qv with heldRecs := Q.qv.heldRecs }
    qb := { P.qb with heldRecs := Q.qb.heldRecs }
    qn := { P.qn with heldRecs := Q.qn.heldRecs } }

/-- The plots differ in their records and the signals on their way at most. -/
def RecordsOnly (P Q : Plot) : Prop := Q = P.withRecords Q

theorem RecordsOnly.refl (P : Plot) : RecordsOnly P P := rfl

theorem RecordsOnly.trans {P Q R : Plot} (h : RecordsOnly P Q) (h' : RecordsOnly Q R) : RecordsOnly P R := by
  unfold RecordsOnly at *
  rw [h] at h'
  exact h'

theorem recordsOnly_heldRecs (P : Plot) (q : Nat) (rs : List CplRec) :
    RecordsOnly P (P.setQueue q { P.queue q with heldRecs := rs }) := by
  rcases q with _ | _ | _ | q <;> rfl

theorem recordsOnly_updPlot {f : Plot → Plot} (hf : RecordsOnly (s.plot k) (f (s.plot k))) (j : Nat) :
    RecordsOnly (s.plot j) ((s.updPlot k f).plot j) := by
  rw [State.plot_updPlot]
  split
  · subst_vars
    exact hf
  · exact .refl _

theorem State.record_recordsOnly (s : State) (k : Nat) (r : CplRec) (j : Nat) :
    RecordsOnly (s.plot j) ((s.record k r).plot j) := by
  unfold State.record
  dsimp only
  split
  · exact .refl _
  · split
    · have posted : RecordsOnly (s.plot j) ((s.setPlot k { s.plot k with cpl := (s.plot k).cpl ++ [r] }).plot j) :=
        recordsOnly_updPlot (f := fun P => { P with cpl := P.cpl ++ [r] }) rfl j
      split
      · simpa using posted
      · exact posted
    · exact recordsOnly_updPlot (recordsOnly_heldRecs _ _ _) j

theorem State.plotToken_plot (s : State) (k : Nat) (dst : Loc) (m : Loc → Loc → Msg) (j : Nat) :
    (s.plotToken k dst m).plot j = s.plot j :=
  (State.plotToken_same k dst m (SameBut.refl (msk := [.regs, .net, .cnts]) s) rfl).plot (by decide) j

theorem State.signal_recordsOnly (s : State) (k y g j : Nat) : RecordsOnly (s.plot j) ((s.signal k y g).plot j) := by
  unfold State.signal
  split
  · exact .refl _
  · split
    · rw [State.plotToken_plot]
      exact .refl _
    · exact recordsOnly_updPlot (f := fun P => { P with sigs := P.sigs ++ [BitVec.ofNat 6 (sigCtr y)] }) rfl j

/-- R107, R109: a completion changes its plot's records and signals, and nothing else of any plot. -/
theorem State.complete_recordsOnly (s : State) (k q : Nat) (d : Desc) (st j : Nat) :
    RecordsOnly (s.plot j) ((s.complete k q d st).plot j) := by
  have signalled : RecordsOnly (s.plot j)
      ((if signals st then s.signal k (syncOf q d) (tagOf q d) else s).plot j) := by
    split
    · exact s.signal_recordsOnly _ _ _ j
    · exact .refl _
  unfold State.complete
  dsimp only
  generalize (if signals st then s.signal k (syncOf q d) (tagOf q d) else s) = s1 at *
  rw [State.wpMatches_plot]
  have recorded : RecordsOnly (s1.plot j)
      ((if (cplEn (syncOf q d) || st != 0) = true then s1.record k (cplRec s q d st false) else s1).plot j) := by
    split
    · exact s1.record_recordsOnly _ _ j
    · exact .refl _
  split
  · rw [State.runPoison_plot]
    exact signalled.trans recorded
  · exact signalled.trans recorded

theorem RecordsOnly.queue {P Q : Plot} (h : RecordsOnly P Q) (q : Nat) :
    Q.queue q = { P.queue q with heldRecs := (Q.queue q).heldRecs } := by
  unfold RecordsOnly at h
  rw [h]
  rcases q with _ | _ | _ | q <;> rfl

theorem State.complete_foldl_recordsOnly (s : State) (k q st j : Nat) (ds : List Desc) :
    RecordsOnly (s.plot j) ((ds.foldl (fun s d => s.complete k q d st) s).plot j) := by
  induction ds generalizing s with
  | nil => exact .refl _
  | cons d ds ih => exact (s.complete_recordsOnly k q d st j).trans (ih _)

theorem State.complete_foldl_otherPlots (s : State) (k q st : Nat) (ds : List Desc) :
    OtherPlots k s (ds.foldl (fun s d => s.complete k q d st) s) := by
  induction ds generalizing s with
  | nil => exact .refl s k
  | cons d ds ih => exact (OtherPlots.trans (fun j hj => (s.complete_plot k q d st j).2 hj)) (ih _)

theorem State.complete_otherPlots (s : State) (k q : Nat) (d : Desc) (st : Nat) : OtherPlots k s (s.complete k q d st) :=
  fun j hj => (s.complete_plot k q d st j).2 hj

/-! ### Weight loads (R49 to R51, R61) -/

theorem otherPlots_startLoad (bore : Bool) : OtherPlots k s (startLoad s k t bore) := by
  unfold startLoad
  split
  · exact .refl s k
  · exact otherPlots_updPlot s k _

/-- R49, R51: the array once the feed carries the tile of the next load. -/
theorem arr_startLoad {x : Pass} (bore : Bool) (h : nextLoad (s.arr k) = some x) :
    ((startLoad s k t bore).arr k).feed =
        some { seq := x.seq, bore := bore, start := t, tile := readTile (s.plot k) x.desc } ∧
      ((startLoad s k t bore).arr k).shadow = if bore then (s.arr k).shadow else .loading := by
  unfold startLoad
  simp only [h]
  unfold State.arr
  rw [State.plot_updPlot_same]
  exact ⟨rfl, rfl⟩

theorem nextLoad_of_boreOk (h : boreOk s k t = true) : ∃ x, nextLoad (s.arr k) = some x := by
  unfold boreOk at h
  cases hx : nextLoad (s.arr k) with
  | some x => exact ⟨x, rfl⟩
  | none => simp [hx] at h

theorem nextLoad_of_shadowLoadOk (h : shadowLoadOk s k t = true) : ∃ x, nextLoad (s.arr k) = some x := by
  unfold shadowLoadOk at h
  cases hx : nextLoad (s.arr k) with
  | some x => exact ⟨x, rfl⟩
  | none => simp [hx] at h

theorem feed_of_boreDoneOk (h : boreDoneOk s k t = true) : ∃ f, (s.arr k).feed = some f := by
  unfold boreDoneOk at h
  cases hf : (s.arr k).feed with
  | some f => exact ⟨f, rfl⟩
  | none => simp [hf] at h

theorem feed_of_shadowDoneOk (h : shadowDoneOk s k t = true) : ∃ f, (s.arr k).feed = some f := by
  unfold shadowDoneOk at h
  cases hf : (s.arr k).feed with
  | some f => exact ⟨f, rfl⟩
  | none => simp [hf] at h

theorem feed_of_sparseBadOk (h : sparseBadOk s k t = true) : ∃ f, (s.arr k).feed = some f := by
  unfold sparseBadOk at h
  cases hf : (s.arr k).feed with
  | some f => exact ⟨f, rfl⟩
  | none => simp [hf] at h

/-- R50: the chains hold the tile, the feed is free and the active tile stays. -/
theorem boreDone_eq {f : Feed} (h : (s.arr k).feed = some f) : boreDone s k t = s.updArr k fun A =>
    { A.updPass f.seq (fun x => { x with load := .ready, readyAt := f.start + 64 }) with
      now := t, feed := none, transit := some (f.seq, f.tile) } := by
  unfold boreDone
  simp only [h]

theorem shadowDone_eq {f : Feed} (h : (s.arr k).feed = some f) : shadowDone s k t = s.updArr k fun A =>
    { A.updPass f.seq (fun x => { x with load := .ready, readyAt := f.start + 64 }) with
      now := t, feed := none, shadow := .loaded, shadowTile := (f.seq, f.tile) } := by
  unfold shadowDone
  simp only [h]

/-- R43, R61: the array after a tile that breaks the index rule, as the rejection finds it. -/
def sparseDropped (s : State) (k t : Nat) (f : Feed) : State :=
  s.updArr k fun A => { A.updPass f.seq (fun x => { x with rejected := true, load := .none }) with
    now := t, feed := none, shadow := if f.bore then A.shadow else .free }

theorem sparseReject_eq {f : Feed} (h : (s.arr k).feed = some f) :
    ∃ d, sparseReject s k t = (sparseDropped s k t f).rejectHold k 0 d 0x03 := by
  unfold sparseReject
  simp only [h]
  exact ⟨_, rfl⟩

theorem otherPlots_rejectHold (s : State) (k q : Nat) (d : Desc) (st : Nat) : OtherPlots k s (s.rejectHold k q d st) :=
  fun j hj => (s.rejectHold_plot k q d st j).1 hj

/-- R61: what a rejected tile leaves of its plot. -/
theorem sparseReject_plot {f : Feed} (h : (s.arr k).feed = some f) :
    OtherPlots k s (sparseReject s k t) ∧ ((sparseReject s k t).arr k).feed = none ∧
      ((sparseReject s k t).arr k).active = (s.arr k).active ∧
      ((sparseReject s k t).plot k).qa.held = true ∧ ((sparseReject s k t).plot k).qa.heldStatus = 3 := by
  obtain ⟨d, hd⟩ := sparseReject_eq (t := t) h
  obtain ⟨-, array, -, held, status⟩ := (sparseDropped s k t f).rejectHold_plot k 0 d 0x03 k
  rw [Plot.queue_zero] at held status
  have dropped : OtherPlots k s (sparseDropped s k t f) := otherPlots_updArr s k _
  rw [hd]
  refine ⟨dropped.trans (otherPlots_rejectHold _ k 0 d 3), ?_, ?_, held, status⟩
  · unfold State.arr
    rw [array]
    simp [sparseDropped, State.updArr]
  · unfold State.arr
    rw [array]
    simp [sparseDropped, State.updArr, Arr.updPass]

/-- Settles O12: each weight-load command is one update of its plot's array, and the rejection of a tile holds the
array queue as any rejection does. -/
theorem weightLoadsMoveTheTile : Obligations.WeightLoadsMoveTheTile := by
  unfold Obligations.WeightLoadsMoveTheTile
  intro s p t
  refine ⟨fun ok => ?_, fun ok => ?_, fun ok => ?_, fun ok => ?_, fun ok => ?_, fun ok => ?_⟩
  · obtain ⟨x, hx⟩ := nextLoad_of_boreOk ok
    obtain ⟨feed, shadow⟩ := arr_startLoad (t := t) true hx
    exact ⟨x, _, hx, congrArg Host.Outcome.next (if_pos ok), startLoad_same _ _ _ (.refl s) rfl, otherPlots_startLoad true,
      shadow, feed⟩
  · obtain ⟨x, hx⟩ := nextLoad_of_shadowLoadOk ok
    obtain ⟨feed, shadow⟩ := arr_startLoad (t := t) false hx
    exact ⟨x, _, hx, congrArg Host.Outcome.next (if_pos ok), startLoad_same _ _ _ (.refl s) rfl, otherPlots_startLoad false,
      shadow, feed⟩
  · obtain ⟨f, hf⟩ := feed_of_boreDoneOk ok
    refine ⟨f, _, hf, congrArg Host.Outcome.next (if_pos ok), boreDone_same _ _ (.refl s) rfl, ?_⟩
    rw [boreDone_eq hf]
    simp [otherPlots_updArr, Arr.updPass]
  · obtain ⟨f, hf⟩ := feed_of_shadowDoneOk ok
    refine ⟨f, _, hf, congrArg Host.Outcome.next (if_pos ok), shadowDone_same _ _ (.refl s) rfl, ?_⟩
    rw [shadowDone_eq hf]
    simp [otherPlots_updArr]
  · obtain ⟨f, hf⟩ := feed_of_sparseBadOk ok
    exact ⟨_, congrArg Host.Outcome.next (if_pos ok), sparseReject_same _ _ (.refl s) rfl, sparseReject_plot hf⟩
  · refine ⟨_, congrArg Host.Outcome.next (if_pos ok), State.updArr_same _ _ (.refl s) rfl, otherPlots_updArr s _ _, ?_⟩
    simp

/-! ### The vector unit (R106, R107, R139, R149) -/

@[simp] theorem Plot.loadVrng_vec (P : Plot) : P.loadVrng.vec = P.vec := by
  unfold Plot.loadVrng
  split <;> rfl

@[simp] theorem Plot.loadVrng_tank (P : Plot) : P.loadVrng.tank = P.tank := by
  unfold Plot.loadVrng
  split <;> rfl

@[simp] theorem Plot.loadVrng_acc (P : Plot) : P.loadVrng.acc = P.acc := by
  unfold Plot.loadVrng
  split <;> rfl

@[simp] theorem State.waitTake_plot_frame (k y : Nat) : OtherPlots k s (s.waitTake k y) := fun j _ => by simp

theorem vecStart_of_ok {d : Desc} {rest : List Desc} (h : (s.plot k).qv.entries = d :: rest) (ok : vecCheck d = none) :
    vecStart s k = (s.waitTake k (syncOf 1 d)).updPlot k fun P =>
      { P.loadVrng with qv := { P.qv with entries := rest }, vec := some { desc := d } } := by
  unfold vecStart
  simp only [h, ok]

theorem vecStart_of_bad {d : Desc} {rest : List Desc} {st : Nat} (h : (s.plot k).qv.entries = d :: rest)
    (bad : vecCheck d = some st) : vecStart s k = s.rejectHold k 1 d st := by
  unfold vecStart
  simp only [h, bad]

theorem waitOk_of_vecStartOk {d : Desc} {rest : List Desc} (ok : vecStartOk s k = true)
    (h : (s.plot k).qv.entries = d :: rest) : waitOk s k (syncOf 1 d) = true := by
  unfold vecStartOk at ok
  simp only [h, Bool.and_eq_true] at ok
  exact ok.2

/-- R106: the accepted head of the vector queue is in the unit, and its counter has paid its wait. -/
theorem vecStart_accepted {d : Desc} {rest : List Desc} (ok : vecStartOk s k = true)
    (h : (s.plot k).qv.entries = d :: rest) (good : vecCheck d = none) :
    OtherPlots k s (vecStart s k) ∧ ((vecStart s k).plot k).qv.entries = rest ∧
      ((vecStart s k).plot k).vec = some { desc := d } ∧
      (waitEn (syncOf 1 d) = true →
        tokCtr (vecStart s k) k (waitCtr (syncOf 1 d)) + waitCnt (syncOf 1 d) = tokCtr s k (waitCtr (syncOf 1 d))) := by
  rw [vecStart_of_ok h good]
  refine ⟨(State.waitTake_plot_frame k _).trans (otherPlots_updPlot _ k _), by simp, by simp, fun en => ?_⟩
  exact tokCtr_waitTake en (waitOk_of_vecStartOk ok h)

theorem vec_of_vecDone {v : VecRun} (h : (s.plot k).vec = some v) :
    vecDone s k = ((s.updPlot k fun P => { (vApply P (vRun (s.plot k) v.desc)).loadVrng with vec := none }).vecFlags k
      (vRun (s.plot k) v.desc).flags).complete k 1 v.desc (if (vRun (s.plot k) v.desc).poisoned then 0x10 else 0) := by
  unfold vecDone
  simp only [h]

@[simp] theorem State.vecFlags_plot (k fl j : Nat) : (s.vecFlags k fl).plot j = s.plot j :=
  (State.vecFlags_same k fl (SameBut.refl (msk := [.regs]) s) rfl).plot (by decide) j

/-- R107: once the descriptor is complete the unit is free, and its plot holds what the descriptor computed. -/
theorem vecDone_plot {v : VecRun} (h : (s.plot k).vec = some v) :
    OtherPlots k s (vecDone s k) ∧ ((vecDone s k).plot k).vec = none ∧
      ((vecDone s k).plot k).tank = (vApply (s.plot k) (vRun (s.plot k) v.desc)).tank ∧
      ((vecDone s k).plot k).acc = (vApply (s.plot k) (vRun (s.plot k) v.desc)).acc := by
  rw [vec_of_vecDone h]
  generalize hs1 : (s.updPlot k fun P => { (vApply P (vRun (s.plot k) v.desc)).loadVrng with vec := none }).vecFlags k
    (vRun (s.plot k) v.desc).flags = s1
  have stored : s1.plot k = { (vApply (s.plot k) (vRun (s.plot k) v.desc)).loadVrng with vec := none } := by
    rw [← hs1, State.vecFlags_plot, State.plot_updPlot_same]
  have others : OtherPlots k s s1 := fun j hj => by
    rw [← hs1, State.vecFlags_plot, State.plot_updPlot_ne _ _ hj]
  have kept := s1.complete_recordsOnly k 1 v.desc (if (vRun (s.plot k) v.desc).poisoned then 0x10 else 0) k
  refine ⟨others.trans (s1.complete_otherPlots k 1 v.desc _), ?_, ?_, ?_⟩
  · exact (congrArg Plot.vec kept).trans (congrArg Plot.vec stored)
  · exact (congrArg Plot.tank kept).trans ((congrArg Plot.tank stored).trans (Plot.loadVrng_tank _))
  · exact (congrArg Plot.acc kept).trans ((congrArg Plot.acc stored).trans (Plot.loadVrng_acc _))

/-- R149: a write of the generator's high half loads it at once where the unit is free. -/
theorem writeVecRng_plot (s : State) (k : Nat) (v : Word) :
    if (s.plot k).vec.isNone then
      ((writeVecRng s k v).plot k).vrng = rngSeed v (s.plot k).vrngLo ∧ ((writeVecRng s k v).plot k).vrngArm = none
    else ((writeVecRng s k v).plot k).vrng = (s.plot k).vrng ∧
      ((writeVecRng s k v).plot k).vrngArm = some (rngSeed v (s.plot k).vrngLo) := by
  unfold writeVecRng
  rw [State.plot_updPlot_same]
  dsimp only
  split
  · exact ⟨rfl, rfl⟩
  · exact ⟨rfl, rfl⟩

/-- Settles O15: the start is an update of the unit or a rejection, the end is the descriptor's stores followed by a
completion, which leaves what was stored. -/
theorem vectorDescriptorsEnterAndLeave : Obligations.VectorDescriptorsEnterAndLeave := by
  unfold Obligations.VectorDescriptorsEnterAndLeave
  rintro s p _ rfl
  refine ⟨fun d rest ok head => ?_, fun v ok hv => ?_, fun r v served => ?_⟩
  · refine ⟨_, congrArg Host.Outcome.next (if_pos ok), vecStart_same _ (.refl s) rfl, ?_⟩
    cases check : vecCheck d with
    | none => exact vecStart_accepted ok head check
    | some st =>
      rw [vecStart_of_bad head check]
      obtain ⟨-, -, entries, held, status⟩ := s.rejectHold_plot (plotKey p) 1 d st 0
      rw [Plot.queue_one] at entries held status
      exact ⟨otherPlots_rejectHold s _ 1 d st, entries.trans head, held, status⟩
  · exact ⟨_, congrArg Host.Outcome.next (if_pos ok), vecDone_same _ (.refl s) rfl, vecDone_plot hv⟩
  · refine ⟨_, outcome_access _ served, writeVecRng_same _ _ (.refl _) rfl,
      (s.reqStepped_otherPlots r _).trans (otherPlots_updPlot _ _ _), ?_⟩
    have loaded := writeVecRng_plot (s.reqStepped r) (plotKey p) v
    rwa [State.reqStepped_plot] at loaded

/-! ### Pushes (R102, R112) -/

theorem pushQueue_of_room {r : Req} {q : Nat} (runs : (s.queue k q).state = .running) (room : qFull s k q = false) :
    pushQueue r k q s = s.enqueue k q := by
  simp [pushQueue, runs, room]

theorem pushQueue_of_stall {r : Req} {q : Nat} (runs : (s.queue k q).state = .running) (full : qFull s k q = true)
    (own : ownSteward k r = true) :
    pushQueue r k q s = s.updPlot k fun P => { P with stall := some (BitVec.ofNat 2 q) } := by
  unfold pushQueue
  simp only [runs, full, own, bne_self_eq_false, Bool.false_eq_true, if_false, if_true]

theorem pushQueue_of_drop {r : Req} {q : Nat} (full : (s.queue k q).state = .running → qFull s k q = true)
    (foreign : (s.queue k q).state = .running → ownSteward k r = false) : pushQueue r k q s = s.irq (pqReg k 0) 6 := by
  by_cases runs : (s.queue k q).state = .running
  · simp [pushQueue, runs, full runs, foreign runs]
  · simp [pushQueue, runs]

/-- R102, R112: a push enters its queue, stalls its own steward, or is dropped with the error interrupt. -/
theorem pushQueue_effect (s : State) (r : Req) (k q : Nat) :
    OtherPlots k s (pushQueue r k q s) ∧
    if (s.queue k q).state = .running ∧ qFull s k q = false then
      ((pushQueue r k q s).queue k q).entries = (s.queue k q).entries ++ [windowDesc (s.queue k q).window] ∧
        (pushQueue r k q s).regs = s.regs
    else if (s.queue k q).state = .running ∧ ownSteward k r = true then
      ((pushQueue r k q s).plot k).stall = some (BitVec.ofNat 2 q) ∧ (pushQueue r k q s).regs = s.regs
    else (pushQueue r k q s).plot k = s.plot k ∧ (pushQueue r k q s).bit (pqReg k 0x014) 6 = true := by
  split
  next h =>
    rw [pushQueue_of_room h.1 h.2]
    exact ⟨otherPlots_updQueue s k q _, congrArg PQueue.entries (s.queue_updQueue_same k q _), rfl⟩
  next notRoom =>
    split
    next h =>
      rw [pushQueue_of_stall h.1 (by simpa [h.1] using notRoom) h.2]
      refine ⟨otherPlots_updPlot s k _, ?_, rfl⟩
      rw [State.plot_updPlot_same]
    next notOwn =>
      rw [pushQueue_of_drop (fun runs => by simpa [runs] using notRoom) (fun runs => by simpa [runs] using notOwn)]
      exact ⟨fun j _ => by simp, by simp, State.irq_pqReg_bit (by decide)⟩

@[simp] theorem Plot.setQueue_stall (P : Plot) (q : Nat) (x : PQueue) : (P.setQueue q x).stall = P.stall := by
  rcases q with _ | _ | _ | q <;> rfl

theorem queue_updPlot_stall (s : State) (k q : Nat) (x : Option (BitVec 2)) :
    (s.updPlot k fun P => { P with stall := x }).queue k q = s.queue k q := by
  unfold State.queue
  rw [State.plot_updPlot_same]
  rcases q with _ | _ | _ | q <;> rfl

/-- R102: the stalled store completes and its push enters the queue that still runs. -/
theorem stalledPush_effect {q : BitVec 2} (h : (s.plot k).stall = some q) :
    OtherPlots k s (stalledPush s k) ∧ ((stalledPush s k).plot k).stall = none ∧
    ((s.queue k q.toNat).state = .running →
      ((stalledPush s k).queue k q.toNat).entries =
        (s.queue k q.toNat).entries ++ [windowDesc (s.queue k q.toNat).window]) := by
  have sameQueue := queue_updPlot_stall s k q.toNat none
  unfold stalledPush
  simp only [h, sameQueue]
  split
  next stops =>
    refine ⟨fun j hj => ?_, by simp, fun runs => by simp [runs] at stops⟩
    simp only [State.irq_others]
    exact s.plot_updPlot_ne _ hj
  next =>
    refine ⟨(otherPlots_updPlot s k _).trans (otherPlots_updQueue _ k _ _), ?_, fun _ => ?_⟩
    · simp [State.enqueue, State.updQueue]
    · unfold State.enqueue
      rw [State.queue_updQueue_same, sameQueue]

/-- Settles O16: a push is one of three updates by the state of its queue and its requester. -/
theorem pushesEnterTheQueue : Obligations.PushesEnterTheQueue := by
  unfold Obligations.PushesEnterTheQueue
  rintro s p _ rfl
  refine ⟨fun r q served => ?_, fun q ok stalled => ?_⟩
  · obtain ⟨others, effect⟩ := pushQueue_effect (s.reqStepped r) r (plotKey p) q.toNat
    refine ⟨_, outcome_access _ served, pushQueue_same _ _ _ (.refl _) rfl, (s.reqStepped_otherPlots r _).trans others, ?_⟩
    simpa [qFull] using effect
  · exact ⟨_, congrArg Host.Outcome.next (if_pos ok), stalledPush_same _ (.refl s) rfl, stalledPush_effect stalled⟩

/-! ### Tokens (R107, R108, R134) -/

/-- R107: a local signal that arrives leaves its list and counts. -/
theorem localSignal_effect {c : BitVec 6} (runs : stopped s (plotUnit k) = false) :
    (s.updPlot k fun P => { P with sigs := P.sigs.erase c }).tokArrive k c.toNat 1 =
      (s.updPlot k fun P => { P with sigs := P.sigs.erase c }).ctrAdd k c.toNat 1 := by
  have stillRuns : ¬ stopped (s.updPlot k fun P => { P with sigs := P.sigs.erase c }) (plotUnit k) = true := by
    simpa [stopped] using runs
  unfold State.tokArrive
  rw [if_neg stillRuns]

/-- R108, R145: a write of a counter sets its value. -/
theorem tokCtr_writeCtr (s : State) (k n : Nat) (v : Word) : tokCtr (writeCtr k n v s) k n = nbits v.toNat 0 16 := by
  have written : tokCtr (s.setFld (ctrReg k n) 0 16 (nbits v.toNat 0 16)) k n = nbits v.toNat 0 16 := by
    rw [tokCtr_setFld]
    exact Nat.mod_eq_of_lt (nbits_lt _ _ _)
  unfold writeCtr
  dsimp only
  split
  · unfold tokCtr State.clrBit
    rw [State.fld_setFld_ne _ _ _ (by decide) (by decide)]
    exact written
  · exact written

theorem otherRegs_writeCtr (s : State) (k n : Nat) (v : Word) : OtherRegs [ctrReg k n] s (writeCtr k n v s) := by
  unfold writeCtr
  dsimp only
  split
  · exact (otherRegs_setFld _ _ _ (by simp)).trans (otherRegs_clrBit _ (by simp))
  · exact otherRegs_setFld _ _ _ (by simp)

/-- R134: a token enters the fabric's token lane at its plot, or is dropped with TOKEN_ERR. -/
theorem State.plotToken_effect (s : State) (k : Nat) (dst : Loc) (m : Loc → Loc → Msg) :
    if tokDestOk s (partOf s (k / 32)) dst = true then
      ∃ x, (s.plotToken k dst m).net = s.net ++ [x] ∧ x.cls = 3 ∧ x.src = plotLoc k ∧ x.dst = dst ∧ x.msg = m dst (plotLoc k)
    else (s.plotToken k dst m).net = s.net ∧ (s.plotToken k dst m).bit (pqReg k 0x014) 4 = true := by
  unfold State.plotToken
  split
  · have counted := (State.count_same k 12 1 (SameBut.refl (msk := [.regs, .cnts]) (s.inject 3 (plotLoc k) dst (m dst (plotLoc k)))) rfl).net (by decide)
    rw [counted]
    exact ⟨_, rfl, rfl, rfl, rfl, rfl⟩
  · exact ⟨by simp, State.irq_pqReg_bit (by decide)⟩

theorem tokenError_effect (s : State) (k : Nat) :
    (s.irq (pqReg k 0) 4).net = s.net ∧ (s.irq (pqReg k 0) 4).bit (pqReg k 0x014) 4 = true :=
  ⟨by simp, State.irq_pqReg_bit (by decide)⟩

@[simp] theorem tokDestOk_reqStepped (s : State) (r : Req) (k : Nat) (dst : Loc) :
    tokDestOk (s.reqStepped r) (partOf (s.reqStepped r) k) dst = tokDestOk s (partOf s k) dst := by
  cases r <;> rfl

@[simp] theorem State.reqStepped_net (s : State) (r : Req) : (s.reqStepped r).net = s.net :=
  (s.reqStepped_frame r).net (by decide)

/-- Settles O17: counters move by their own register's update, and the type field of a token write chooses the message
or the error. -/
theorem tokensCountAndTravel : Obligations.TokensCountAndTravel := by
  unfold Obligations.TokensCountAndTravel
  rintro s p _ rfl
  refine ⟨fun c ok runs => ?_, fun r n v served => ?_, fun r v dst served hdst => ?_⟩
  · refine ⟨_, congrArg Host.Outcome.next (if_pos ok), ?_⟩
    rw [localSignal_effect runs]
    refine ⟨State.ctrAdd_same _ _ _ (State.updPlot_same _ _ (.refl s) rfl) rfl, fun j hj => ?_, ?_, tokCtr_ctrAdd _ _ _ _⟩
    · rw [State.ctrAdd_plot, State.plot_updPlot_ne _ _ hj]
    · rw [State.ctrAdd_plot, State.plot_updPlot_same]
  · refine ⟨_, outcome_access _ served, writeCtr_same _ _ _ (.refl _) rfl, ?_, tokCtr_writeCtr _ _ _ _⟩
    exact ((s.reqStepped_frame r).otherRegs (by decide) _).trans (otherRegs_writeCtr _ _ _ _)
  · refine ⟨_, outcome_access _ served, sendToken_same _ _ (.refl _) rfl, ?_⟩
    have token := fun m => (s.reqStepped r).plotToken_effect (plotKey p) dst m
    have dropped := tokenError_effect (s.reqStepped r) (plotKey p)
    simp only [tokDestOk_reqStepped, State.reqStepped_net] at token dropped
    unfold sendToken
    dsimp only
    rw [← hdst]
    generalize nbits v.toNat 12 4 = kind
    match kind with
    | 1 => exact token _
    | 4 => exact token _
    | 5 => exact token _
    | 0 => exact dropped
    | 2 => exact dropped
    | 3 => exact dropped
    | n + 6 => exact dropped

/-! ### Queue controls (R111, R112, R144) -/

theorem otherPlots_dropHeld (s : State) (k q : Nat) : OtherPlots k s (s.dropHeld k q) := by
  unfold State.dropHeld
  split
  · exact otherPlots_updArr s k _
  · split
    · exact .refl s k
    · exact otherPlots_updQueue s k q _

/-- R111: SKIP frees a held queue and leaves any other as it is. -/
theorem skipQueue_effect (s : State) (k q : Nat) :
    OtherPlots k s (skipQueue k q s) ∧ ((skipQueue k q s).queue k q).held = false ∧
      ((s.queue k q).held = false → (skipQueue k q s).plot k = s.plot k) := by
  unfold skipQueue
  split
  next held =>
    refine ⟨(otherPlots_dropHeld s k q).trans (otherPlots_updQueue _ k q _), ?_, fun free => by simp [free] at held⟩
    unfold State.unhold
    rw [State.queue_updQueue_same]
  next free => exact ⟨.refl s k, by simpa using free, fun _ => rfl⟩

/-- The queue's entries are gone; its state, and every other plot, is as before. -/
structure Emptied (k q : Nat) (s u : State) : Prop where
  others : OtherPlots k s u
  entries : (u.queue k q).entries = []
  state : (u.queue k q).state = (s.queue k q).state

theorem emptied_updQueue (s : State) (k q : Nat) : Emptied k q s (s.updQueue k q fun Q => { Q with entries := [] }) :=
  ⟨otherPlots_updQueue s k q _, by simp, by simp⟩

/-- Completions do not bring entries back. -/
theorem Emptied.complete_foldl {s u : State} {k q : Nat} (h : Emptied k q s u) (st : Nat) (ds : List Desc) :
    Emptied k q s (ds.foldl (fun s d => s.complete k q d st) u) := by
  have kept := (u.complete_foldl_recordsOnly k q st k ds).queue q
  exact ⟨h.others.trans (u.complete_foldl_otherPlots k q st ds), (congrArg PQueue.entries kept).trans h.entries,
    (congrArg PQueue.state kept).trans h.state⟩

/-- R111: the lookahead's idle passes leave the array queue as it is. -/
theorem abortLane_effect (s : State) (k : Nat) :
    OtherPlots k s (s.abortLane k) ∧ ((s.abortLane k).queue k 0).state = (s.queue k 0).state := by
  unfold State.abortLane
  dsimp only
  rw [← List.foldl_map (f := Pass.desc) (g := fun (s : State) d => s.complete k 0 d 0x20)]
  generalize hu : (s.updArr k fun A => { A with lane := A.lane.filter fun x => !(passIdle x) && !x.rejected }) = u
  generalize List.map Pass.desc (List.filter passIdle (s.arr k).lane) = ds
  have sameQueue : u.queue k 0 = s.queue k 0 := by
    rw [← hu]
    unfold State.queue State.updArr
    rw [State.plot_updPlot_same]
    rfl
  have others : OtherPlots k s u := hu ▸ otherPlots_updArr s k _
  have kept := (u.complete_foldl_recordsOnly k 0 0x20 k ds).queue 0
  refine ⟨others.trans (u.complete_foldl_otherPlots k 0 0x20 ds), ?_⟩
  have state := congrArg PQueue.state kept
  rw [← sameQueue]
  exact state

theorem emptied_abortArrayQueue (s : State) (k : Nat) : Emptied k 0 s (s.abortArrayQueue k) := by
  obtain ⟨others, state⟩ := abortLane_effect s k
  have emptied := (emptied_updQueue (s.abortLane k) k 0).complete_foldl 0x20
    (if ((s.plot k).qa.held && !((s.arr k).lane.any (·.rejected))) = true then (s.plot k).qa.entries.drop 1
      else (s.plot k).qa.entries)
  exact ⟨others.trans emptied.others, emptied.entries, emptied.state.trans state⟩

theorem emptied_abortEntries (s : State) (k q : Nat) : Emptied k q s (s.abortEntries k q) :=
  (emptied_updQueue s k q).complete_foldl 0x20 _

theorem Emptied.unhold {k q : Nat} {s u : State} (h : Emptied k q s u) : Emptied k q s (u.unhold k q) := by
  unfold State.unhold
  refine ⟨h.others.trans (otherPlots_updQueue u k q _), ?_, ?_⟩
  · rw [State.queue_updQueue_same]
    exact h.entries
  · rw [State.queue_updQueue_same]
    exact h.state

/-- R111: FLUSH empties its queue. -/
theorem emptied_flushQueue (s : State) (k q : Nat) : Emptied k q s (flushQueue k q s) := by
  unfold flushQueue
  split
  · subst_vars
    exact (emptied_abortArrayQueue s k).unhold
  · exact (emptied_abortEntries s k q).unhold

theorem held_flushQueue (s : State) (k q : Nat) : ((flushQueue k q s).queue k q).held = false := by
  unfold flushQueue State.unhold
  rw [State.queue_updQueue_same]

/-- R112: with a drain limit, CLR_EN leaves a running queue STOPPING and empty. -/
theorem queueStop_effect (runs : (s.queue k q).state = .running) (limit : queueLimit s k ≠ 0) :
    ((queueStop k q s).queue k q).state = .stopping ∧ ((queueStop k q s).queue k q).entries = [] ∧
      OtherPlots k s (queueStop k q s) := by
  have emptied := emptied_flushQueue (s.updQueue k q fun Q => { Q with state := .stopping, stopAt := s.tb }) k q
  unfold queueStop queueClrEn
  rw [if_pos runs, if_pos runs, if_neg limit]
  refine ⟨emptied.state.trans ?_, emptied.entries, (otherPlots_updQueue s k q _).trans emptied.others⟩
  rw [State.queue_updQueue_same]

theorem queueStop_of_not_running (h : (s.queue k q).state ≠ .running) : queueStop k q s = s := by
  unfold queueStop
  rw [if_neg h]

theorem queueSetEn_effect (s : State) (k q : Nat) :
    OtherPlots k s (queueSetEn k q s) ∧
      ((s.queue k q).state = .stopped → ((queueSetEn k q s).queue k q).state = .running) ∧
      ((s.queue k q).state ≠ .stopped → (queueSetEn k q s).plot k = s.plot k) := by
  unfold queueSetEn
  split
  next stops =>
    refine ⟨otherPlots_updQueue s k q _, fun _ => ?_, fun h => absurd stops h⟩
    rw [State.queue_updQueue_same]
  next other => exact ⟨.refl s k, fun h => absurd h other, fun _ => rfl⟩

theorem State.record_otherPlots (s : State) (k : Nat) (r : CplRec) : OtherPlots k s (s.record k r) :=
  fun j hj => (s.record_plot k r j).2 hj

theorem State.record_foldl_otherPlots (s : State) (k : Nat) (rs : List CplRec) :
    OtherPlots k s (rs.foldl (fun s r => s.record k r) s) := by
  induction rs generalizing s with
  | nil => exact .refl s k
  | cons r rs ih => exact (s.record_otherPlots k r).trans (ih _)

theorem State.releaseHeld_otherPlots (s : State) (k : Nat) : OtherPlots k s (s.releaseHeld k) := by
  unfold State.releaseHeld
  generalize [0, 1, 2, 3] = qs
  induction qs generalizing s with
  | nil => exact .refl s k
  | cons q qs ih =>
    exact ((otherPlots_updQueue s k q _).trans (State.record_foldl_otherPlots _ k _)).trans (ih _)

/-- R144: a read answers the oldest record and captures its time; with none it answers zero. -/
theorem popCpl_effect (s : State) (k : Nat) :
    OtherPlots k s (popCpl k s) ∧
    match (s.plot k).cpl with
    | [] => (popCpl k s).reply = { data := leBytes 4 0 } ∧ (popCpl k s).plot k = s.plot k
    | c :: _ => (popCpl k s).reply = { data := leBytes 4 (cplWord c) } ∧
        tget none (popCpl k s).caps (pqReg k 0x05C) = some c.time := by
  unfold popCpl
  cases records : (s.plot k).cpl with
  | nil => exact ⟨fun j _ => by simp, rfl, by simp⟩
  | cons c rest =>
    refine ⟨fun j hj => ?_, rfl, ?_⟩
    · simp only [State.answer_others, State.capture_others]
      rw [State.releaseHeld_otherPlots _ k j hj, State.plot_updPlot_ne _ _ hj]
    · simp only [State.answer_frame, State.caps_capture]

@[simp] theorem queueLimit_reqStepped (s : State) (r : Req) (k : Nat) : queueLimit (s.reqStepped r) k = queueLimit s k := by
  simp [queueLimit]

/-- Settles O18: each control is an update of its own queue; completions of what it discards bring nothing back. -/
theorem queueControlsActOnTheirQueue : Obligations.QueueControlsActOnTheirQueue := by
  unfold Obligations.QueueControlsActOnTheirQueue
  rintro s p _ rfl
  refine ⟨fun r q served => ⟨?_, ?_, ?_, ?_⟩, fun r served => ?_⟩
  · obtain ⟨others, freed, left⟩ := skipQueue_effect (s.reqStepped r) (plotKey p) q.toNat
    refine ⟨_, outcome_access _ served, skipQueue_same _ _ (.refl _) rfl, (s.reqStepped_otherPlots r _).trans others, freed, ?_⟩
    simpa using left
  · have emptied := emptied_flushQueue (s.reqStepped r) (plotKey p) q.toNat
    exact ⟨_, outcome_access _ served, flushQueue_same _ _ (.refl _) rfl,
      (s.reqStepped_otherPlots r _).trans emptied.others, emptied.entries, held_flushQueue _ _ _⟩
  · obtain ⟨others, runs, left⟩ := queueSetEn_effect (s.reqStepped r) (plotKey p) q.toNat
    refine ⟨_, outcome_access _ served, queueSetEn_same _ _ (.refl _) rfl, (s.reqStepped_otherPlots r _).trans others, ?_, ?_⟩
    · simpa using runs
    · simpa using left
  · refine ⟨_, outcome_access _ served, fun runs limit => ?_, fun other => queueStop_of_not_running (by simpa using other)⟩
    obtain ⟨state, entries, others⟩ := queueStop_effect (s := s.reqStepped r) (k := plotKey p) (q := q.toNat)
      (by simpa using runs) (by simpa using limit)
    exact ⟨state, entries, (s.reqStepped_otherPlots r _).trans others⟩
  · obtain ⟨others, effect⟩ := popCpl_effect (s.reqStepped r) (plotKey p)
    refine ⟨_, outcome_readAccess _ _ served, popCpl_same _ (.refl _) rfl, (s.reqStepped_otherPlots r _).trans others, ?_⟩
    rwa [State.reqStepped_plot] at effect

end Sys2Proof.Machine
end

section
/-!
Tokens, flits and fences (R133, R178, R184, R186, R187, R191, R192): which registers a completion, a fabric error and a
noria stop can change, and from that what a token, a flit or a fence leaves of the plot it reaches.
-/
namespace Sys2Proof.Machine

variable {s : State} {k n : Nat}

/-! ### Register frames over sets of addresses -/

/-- Every register whose address is not in the set is as before. -/
def RegsBut (P : Nat → Prop) (s t : State) : Prop := ∀ a, ¬ P a → t.reg a = s.reg a

variable {P : Nat → Prop}

theorem RegsBut.refl (s : State) : RegsBut P s s := fun _ _ => rfl

theorem RegsBut.trans {s t u : State} (h : RegsBut P s t) (h' : RegsBut P t u) : RegsBut P s u :=
  fun a ha => (h' a ha).trans (h a ha)

variable {s0 : State}

/-- An update that leaves the register file. -/
theorem RegsBut.of_regs {t : State} (e : t.regs = s.regs) (h : RegsBut P s0 s) : RegsBut P s0 t := fun a ha => by
  rw [← h a ha]
  unfold State.reg
  rw [e]

theorem RegsBut.same {w : List Fld} {t : State} (h : RegsBut P s0 s) (frame : SameBut w s t) (hw : Fld.regs ∉ w) :
    RegsBut P s0 t := h.of_regs (frame.regs hw)

theorem RegsBut.withDbg {d : Dbg} (h : RegsBut P s0 s) : RegsBut P s0 { s with dbg := d } := h

theorem RegsBut.setReg {a : Nat} {x : Word} (h : RegsBut P s0 s) (ha : P a) : RegsBut P s0 (s.setReg a x) :=
  h.trans fun _ hb => s.reg_setReg_ne _ fun e => hb (e ▸ ha)

theorem RegsBut.setFld {a lo w x : Nat} (h : RegsBut P s0 s) (ha : P a) : RegsBut P s0 (s.setFld a lo w x) := h.setReg ha

theorem RegsBut.addFld {a lo w x : Nat} (h : RegsBut P s0 s) (ha : P a) : RegsBut P s0 (s.addFld a lo w x) := h.setReg ha

theorem RegsBut.setBit {a i : Nat} (h : RegsBut P s0 s) (ha : P a) : RegsBut P s0 (s.setBit a i) := h.setReg ha

theorem RegsBut.clrBit {a i : Nat} (h : RegsBut P s0 s) (ha : P a) : RegsBut P s0 (s.clrBit a i) := h.setReg ha

theorem RegsBut.count {k i n : Nat} (h : RegsBut P s0 s) (ha : P (cntPage k 0x044)) : RegsBut P s0 (s.count k i n) :=
  h.trans fun a hb => s.count_reg k i n a fun e => hb (e ▸ ha)

theorem RegsBut.irq_pqReg {k i : Nat} (h : RegsBut P s0 s) (ha : P (pqReg k 0x014)) : RegsBut P s0 (s.irq (pqReg k 0) i) := by
  rw [State.irq_pqReg]
  exact h.setBit ha

theorem RegsBut.foldl {α : Type} {f : State → α → State} {l : List α} (h : RegsBut P s0 s)
    (hf : ∀ u, ∀ a ∈ l, RegsBut P s0 u → RegsBut P s0 (f u a)) : RegsBut P s0 (l.foldl f s) := by
  induction l generalizing s with
  | nil => exact h
  | cons a l ih => exact ih (hf s a (by simp) h) fun u b hb => hf u b (by simp [hb])

theorem RegsBut.ite {c : Prop} [Decidable c] {t u : State} (ht : RegsBut P s t) (hu : RegsBut P s u) :
    RegsBut P s (if c then t else u) := by
  split
  · exact ht
  · exact hu

theorem RegsBut.fld {s t : State} (h : RegsBut P s t) {a : Nat} (ha : ¬ P a) (lo w : Nat) : t.fld a lo w = s.fld a lo w := by
  unfold State.fld
  rw [h a ha]

theorem RegsBut.bit {s t : State} (h : RegsBut P s t) {a : Nat} (ha : ¬ P a) (i : Nat) : t.bit a i = s.bit a i := by
  unfold State.bit
  rw [h.fld ha]

/-! ### Completions (R107, R109, R604) -/

/-- The registers a completion of plot `k` can change: its interrupt status, its counter page and the watch points. -/
def ComplRegs (k a : Nat) : Prop := a = pqReg k 0x014 ∨ a = cntPage k 0x044 ∨ ∃ off, (0x080 ≤ off ∧ off < 4096) ∧ a = dbgReg off

theorem complRegs_wpReg {m off : Nat} (hm : m < 8) (hoff : off < 32) : ComplRegs k (wpReg m off) := by
  refine .inr (.inr ⟨0x080 + 32 * m + off, by omega, rfl⟩)

theorem RegsBut.record {r : CplRec} (h : RegsBut (ComplRegs k) s0 s) : RegsBut (ComplRegs k) s0 (s.record k r) := by
  unfold State.record
  dsimp only
  split
  · exact h
  · split
    · split
      · exact (h.of_regs (t := s.setPlot k _) rfl).irq_pqReg (.inl rfl)
      · exact h.of_regs rfl
    · exact h.of_regs rfl

theorem RegsBut.plotToken {dst : Loc} {m : Loc → Loc → Msg} (h : RegsBut (ComplRegs k) s0 s) :
    RegsBut (ComplRegs k) s0 (s.plotToken k dst m) := by
  unfold State.plotToken
  split
  · exact (h.of_regs (t := s.inject _ _ _ _) rfl).count (.inr (.inl rfl))
  · exact h.irq_pqReg (.inl rfl)

theorem RegsBut.signal {y g : Nat} (h : RegsBut (ComplRegs k) s0 s) : RegsBut (ComplRegs k) s0 (s.signal k y g) := by
  unfold State.signal
  split
  · exact h
  · split
    · exact h.plotToken
    · exact h.of_regs rfl

theorem RegsBut.wpMatch {q tag m : Nat} (hm : m < 8) (h : RegsBut (ComplRegs k) s0 s) :
    RegsBut (ComplRegs k) s0 (s.wpMatch k q tag m) := by
  have wp : ∀ off < 32, ComplRegs k (wpReg m off) := fun off hoff => complRegs_wpReg hm hoff
  unfold State.wpMatch
  dsimp only
  split
  · exact h
  · refine RegsBut.ite (RegsBut.ite (RegsBut.withDbg ?_) ?_) h
    · exact RegsBut.setReg (RegsBut.setBit (RegsBut.clrBit (RegsBut.addFld (RegsBut.withDbg h) (wp 0x10 (by decide)))
        (wp 0x04 (by decide))) (wp 0x10 (by decide))) (wp 0x14 (by decide))
    · exact RegsBut.addFld (RegsBut.withDbg h) (wp 0x10 (by decide))

theorem RegsBut.wpMatches {q tag : Nat} (h : RegsBut (ComplRegs k) s0 s) :
    RegsBut (ComplRegs k) s0 (s.wpMatches k q tag) := by
  unfold State.wpMatches
  split
  · exact h
  · exact h.foldl fun u m hm hu => hu.wpMatch (List.mem_range.1 hm)

/-- R107, R109, R604: the registers that a completion leaves. -/
theorem RegsBut.complete {q st : Nat} {d : Desc} (h : RegsBut (ComplRegs k) s0 s) :
    RegsBut (ComplRegs k) s0 (s.complete k q d st) := by
  have signalled : RegsBut (ComplRegs k) s0 (if signals st then s.signal k (syncOf q d) (tagOf q d) else s) := by
    split
    · exact h.signal
    · exact h
  unfold State.complete
  dsimp only
  generalize (if signals st then s.signal k (syncOf q d) (tagOf q d) else s) = s1 at *
  have recorded : RegsBut (ComplRegs k) s0
      (if (cplEn (syncOf q d) || st != 0) = true then s1.record k (cplRec s q d st false) else s1) := by
    split
    · exact signalled.record
    · exact signalled
  refine RegsBut.wpMatches ?_
  split
  · exact recorded.same (State.runPoison_same (msk := [.parts]) k (.refl _) rfl) (by decide)
  · exact recorded

theorem RegsBut.rejectHold {q st : Nat} {d : Desc} (h : RegsBut (ComplRegs k) s0 s) :
    RegsBut (ComplRegs k) s0 (s.rejectHold k q d st) := by
  unfold State.rejectHold
  exact (RegsBut.of_regs (e := rfl) h.record).irq_pqReg (.inl rfl)

theorem RegsBut.rowDone {seq : Nat} {bad : Bool} (h : RegsBut (ComplRegs k) s0 s) :
    RegsBut (ComplRegs k) s0 (rowDone s k seq bad) := by
  unfold Machine.rowDone passDone
  split
  · exact h.of_regs rfl
  · exact RegsBut.complete (RegsBut.of_regs (e := rfl) h)

/-! ### Which registers those are not -/

/-- A register of plot `k`'s queue page other than its interrupt status. -/
theorem not_complRegs_pqReg {off : Nat} (hk : k < 512) (hoff : off < 4096) (h : off ≠ 0x014) : ¬ ComplRegs k (pqReg k off) := by
  unfold ComplRegs cntPage pqReg dbgReg regAddr
  rw [if_pos hk]
  rintro (h' | h' | ⟨o, ho, h'⟩) <;> omega

/-- A register of a reach hub. -/
theorem not_complRegs_rhReg {st q off : Nat} (hk : k < 512) (_ : st < 16) (hq : q < 4) (hoff : off < 4096) :
    ¬ ComplRegs k (rhReg st q off) := by
  unfold ComplRegs cntPage rhReg pqReg dbgReg regAddr
  rw [if_pos hk]
  rintro (h' | h' | ⟨o, ho, h'⟩) <;> omega

theorem plotKey_lt (p : PlotId) : plotKey p < 512 := by
  have := p.st.isLt
  have := p.pl.isLt
  unfold plotKey
  omega

theorem pqReg_ne_cntPage {off i : Nat} (hk : k < 512) (hoff : off < 4096) (hi : i < 4096) : pqReg k off ≠ cntPage k i := by
  unfold cntPage pqReg regAddr
  rw [if_pos hk]
  omega

/-! ### Fabric errors (R202) -/

/-- The registers an error of plot `k` in the fabric can change: its reach hub's and that reach's counter page. -/
def FabricRegs (k a : Nat) : Prop :=
  (∃ off < 4096, a = rhReg (k / 32) (k % 32 / 8) off) ∨ a = cntPage (512 + 4 * (k / 32) + k % 32 / 8) 0x044

theorem fabricRegs_rhReg {off : Nat} (h : off < 4096) : FabricRegs k (rhReg (k / 32) (k % 32 / 8) off) := .inl ⟨off, h, rfl⟩

theorem rhReg_add (st q off d : Nat) : rhReg st q off + d = rhReg st q (off + d) := by
  unfold rhReg regAddr
  omega

theorem not_fabricRegs_pqReg {off : Nat} (hk : k < 512) (hoff : off < 4096) : ¬ FabricRegs k (pqReg k off) := by
  unfold FabricRegs cntPage rhReg pqReg regAddr
  rw [if_neg (by omega), if_pos (by omega)]
  rintro (⟨o, ho, h⟩ | h) <;> omega

/-- R202: a fabric error adds 1 to the plot's error count and may log itself. -/
theorem rhErr_effect (s : State) {k : Nat} (code info hi : Nat) (hk : k < 512) :
    RegsBut (FabricRegs k) s (s.rhErr k code info hi) ∧
      (s.rhErr k code info hi).fld (rhReg (k / 32) (k % 32 / 8) (0x088 + 16 * (k % 8))) 0 16 =
        satAdd 16 (s.fld (rhReg (k / 32) (k % 32 / 8) (0x088 + 16 * (k % 8))) 0 16) 1 := by
  have page : cntPage (512 + 4 * (k / 32) + k % 32 / 8) 0x044 ≠ rhReg (k / 32) (k % 32 / 8) (0x088 + 16 * (k % 8)) := by
    unfold cntPage rhReg regAddr
    rw [if_neg (by omega), if_pos (by omega)]
    omega
  have fits : satAdd 16 (s.fld (rhReg (k / 32) (k % 32 / 8) (0x088 + 16 * (k % 8))) 0 16) 1 % 2 ^ 16 =
      satAdd 16 (s.fld (rhReg (k / 32) (k % 32 / 8) (0x088 + 16 * (k % 8))) 0 16) 1 :=
    Nat.mod_eq_of_lt (by unfold satAdd; omega)
  unfold State.rhErr
  simp only [rhReg_add, show 0x080 + 16 * (k % 8) + 8 = 0x088 + 16 * (k % 8) by omega]
  generalize hu : (s.addFld (rhReg (k / 32) (k % 32 / 8) (0x088 + 16 * (k % 8))) 0 16 1).count
    (512 + 4 * (k / 32) + k % 32 / 8) 2 1 = u
  have counted : RegsBut (FabricRegs k) s u := by
    rw [← hu]
    exact ((RegsBut.refl s).addFld (fabricRegs_rhReg (by omega))).count (.inr rfl)
  have added : u.fld (rhReg (k / 32) (k % 32 / 8) (0x088 + 16 * (k % 8))) 0 16 =
      satAdd 16 (s.fld (rhReg (k / 32) (k % 32 / 8) (0x088 + 16 * (k % 8))) 0 16) 1 := by
    rw [← hu]
    unfold State.fld
    rw [State.count_reg _ _ _ _ _ page.symm]
    exact (State.fld_setFld_same s _ _ (by decide)).trans fits
  split
  · exact ⟨counted, added⟩
  · refine ⟨(counted.setReg (fabricRegs_rhReg (by omega))).setReg (fabricRegs_rhReg (by omega)), ?_⟩
    rw [← added]
    unfold State.fld
    rw [State.reg_setReg_ne, State.reg_setReg_ne] <;> unfold rhReg regAddr <;> omega

/-! ### Tokens at a plot that takes them (R133, R164, R186, R192) -/

/-- The state in which a token that was in the fabric has its effect: it has arrived and is counted. -/
def delivered (s : State) (k : Nat) (m : Msg) : State := (s.arrived m).count k 13 1

theorem delivered_frame (s : State) (k : Nat) (m : Msg) : SameBut [.regs, .net, .cnts] s (delivered s k m) :=
  State.count_same _ _ _ (State.arrived_same _ (.refl s) rfl) rfl

theorem delivered_reg (s : State) {k a : Nat} (m : Msg) (h : a ≠ cntPage k 0x044) : (delivered s k m).reg a = s.reg a := by
  unfold delivered
  rw [State.count_reg _ _ _ _ _ h]
  rfl

theorem otherRegs_delivered {l : List Nat} (m : Msg) (h : cntPage k 0x044 ∈ l) : OtherRegs l s (delivered s k m) :=
  fun _ ha => delivered_reg s m fun e => ha (e ▸ h)

theorem delivered_pqReg_fld (s : State) {k off : Nat} (m : Msg) (lo w : Nat) (hk : k < 512) (hoff : off < 4096) :
    (delivered s k m).fld (pqReg k off) lo w = s.fld (pqReg k off) lo w := by
  unfold State.fld
  rw [delivered_reg s m (pqReg_ne_cntPage hk hoff (by decide))]

theorem tokenIn_served {src : Loc} {m : Msg} {counted tallied : Bool} {f : State → State} (up : plotUp s k = true)
    (open_ : fenced s k = false) (runs : holding s k = false) :
    s.tokenIn k src m counted tallied f = f (delivered s k m) := by
  simp [State.tokenIn, ejects, up, open_, runs, delivered]

theorem tokenIn_fenced {src : Loc} {m : Msg} {counted tallied : Bool} {f : State → State} (closed : fenced s k = true) :
    s.tokenIn k src m counted tallied f = (s.arrived m).dropToken k m src counted := by
  simp [State.tokenIn, ejects, closed]

theorem stopped_of_dbg {t : State} (h : t.dbg = s.dbg) (u : UnitId) : stopped t u = stopped s u := by
  unfold stopped
  rw [h]

theorem StopUnit.note_who (i : Nat) (x : StopUnit) : (x.note i).who = x.who ∧ (x.note i).snapAt = x.snapAt := by
  unfold StopUnit.note
  split <;> exact ⟨rfl, rfl⟩

@[simp] theorem stopped_noteItem (s : State) (u v : UnitId) (i : Nat) : stopped (s.noteItem u i) v = stopped s v := by
  unfold stopped State.noteItem
  simp only [List.any_map]
  congr 1
  funext x
  obtain ⟨who, snapAt⟩ := StopUnit.note_who i x
  simp only [Function.comp]
  split
  · rw [who, snapAt]
  · rfl

/-- R108: an ADD token counts at once where no snapshot holds it. -/
theorem addToken_effect {ctr amount : Nat} (m : Msg) (hk : k < 512) (hc : ctr < 64) (runs : holding s k = false) :
    tokCtr (((delivered s k m).noteItem (plotUnit k) 3).tokArrive k ctr amount) k ctr = min (tokCtr s k ctr + amount) 65535 ∧
      OtherRegs [ctrReg k ctr, pqReg k 0x014, cntPage k 0x044] s
        (((delivered s k m).noteItem (plotUnit k) 3).tokArrive k ctr amount) := by
  have stillRuns : ¬ stopped ((delivered s k m).noteItem (plotUnit k) 3) (plotUnit k) = true := by
    rw [stopped_noteItem, stopped_of_dbg ((delivered_frame s k m).dbg (by decide))]
    simpa [holding] using runs
  have before : tokCtr ((delivered s k m).noteItem (plotUnit k) 3) k ctr = tokCtr s k ctr :=
    delivered_pqReg_fld s m 0 16 hk (by omega)
  unfold State.tokArrive
  rw [if_neg stillRuns]
  refine ⟨by rw [tokCtr_ctrAdd, before], OtherRegs.trans ?_ (otherRegs_ctrAdd _ (by simp) (by simp))⟩
  exact (otherRegs_delivered m (by simp)).trans fun _ _ => rfl

theorem slotCredits_lt (s : State) (k n : Nat) : slotCredits s k n < 512 := State.fld_lt s _ 0 9

/-- R186: credit adds up to the slot's initial credit. -/
theorem slotCredit_addCredit {src : Loc} {sl n : Nat} (hk : k < 512) (hsl : sl < 32) (valid : slotValid s k sl = true) :
    slotCredit (addCredit k src sl n s) k sl = min (slotCredit s k sl + n) (slotCredits s k sl) := by
  have most := slotCredits_lt s k sl
  have set : ∀ v < 512, slotCredit (s.setFld (slotReg k sl 3) 0 9 v) k sl = v := fun v hv =>
    (State.fld_setFld_same s _ _ (by decide)).trans (Nat.mod_eq_of_lt hv)
  unfold addCredit
  rw [if_neg (by simp [valid])]
  dsimp only
  split
  next above =>
    have logged := (rhErr_effect ((s.setFld (slotReg k sl 3) 0 9 (slotCredits s k sl)).irq (pqReg k 0) 4) 6
      (streamInfo (slotId s k sl) src.die.toNat src.plot.toNat sl) 0 hk).1
    have posted := RegsBut.irq_pqReg (P := (· = pqReg k 0x014)) (i := 4)
      (.refl (s.setFld (slotReg k sl 3) 0 9 (slotCredits s k sl))) rfl
    unfold slotCredit slotReg at *
    rw [logged.fld (not_fabricRegs_pqReg hk (by omega)), posted.fld (by unfold pqReg regAddr; omega), set _ most]
    omega
  next within =>
    rw [set _ (by omega)]
    omega

theorem otherPlots_rowDone (s : State) (k seq : Nat) (bad : Bool) : OtherPlots k s (rowDone s k seq bad) := by
  unfold rowDone passDone
  split
  · exact otherPlots_updArr s k _
  · exact ((otherPlots_updArr s k _).trans (otherPlots_updArr _ k _)).trans (State.complete_otherPlots _ _ _ _ _)

theorem OtherPlots.foldl {α : Type} {f : State → α → State} {l : List α} {s : State} (hf : ∀ u a, OtherPlots k u (f u a)) :
    OtherPlots k s (l.foldl f s) := by
  induction l generalizing s with
  | nil => exact .refl s k
  | cons a l ih => exact (hf s a).trans ih

theorem dropRows_effect (s : State) (k sl : Nat) :
    OtherPlots k s (s.dropRows k sl) ∧ RegsBut (ComplRegs k) s (s.dropRows k sl) := by
  unfold State.dropRows
  dsimp only
  refine ⟨(otherPlots_updArr s k _).trans (OtherPlots.foldl fun u r => otherPlots_rowDone u k _ _), ?_⟩
  exact RegsBut.foldl ((RegsBut.refl s).of_regs rfl) fun u r _ hu => hu.rowDone

/-- R192: FENCED marks the slot of its plot. -/
theorem fenceSlot_effect {sl : Nat} (hk : k < 512) (hsl : sl < 32) (valid : slotValid s k sl = true) :
    OtherPlots k s (fenceSlot k sl s) ∧ slotFenced (fenceSlot k sl s) k sl = true := by
  have counted : RegsBut (ComplRegs k) s (s.count k 15 1) := (RegsBut.refl s).count (.inr (.inl rfl))
  have stillValid : slotValid (s.count k 15 1) k sl = true := by
    unfold slotValid slotReg at *
    rw [counted.bit (not_complRegs_pqReg hk (by omega) (by omega)), valid]
  unfold fenceSlot
  rw [if_neg (by simp [stillValid])]
  dsimp only
  generalize hu : ((s.count k 15 1).setBit (slotReg k sl 3) 9).dropRows k sl = u
  obtain ⟨others, regs⟩ := dropRows_effect ((s.count k 15 1).setBit (slotReg k sl 3) 9) k sl
  rw [hu] at others regs
  generalize hw : List.foldl _ u (plotChans k) = w
  have chans : SameBut [.chans] u w := by
    rw [← hw]
    exact SameBut.foldl (.refl u) fun v c hv => SameBut.ite (State.updChan_same _ _ hv rfl) hv
  refine ⟨OtherPlots.trans (fun j hj => ?_) (chans.otherPlots (by decide) k), ?_⟩
  · rw [others j hj]
    simp
  · unfold slotFenced slotReg at *
    rw [chans.bit (by decide), regs.bit (not_complRegs_pqReg hk (by omega) (by omega))]
    exact State.bit_setBit_same _ _ (by decide)

/-- R164: a start event of an idle channel adds to its pending events, or is lost with `GO_LOST`. -/
theorem goToken_effect {c : Nat} (idle : (s.chan c).desc = none) :
    ((s.addGo c).pump c) = s.addGo c ∧
      if (s.chan c).goPend < 255 then ((s.addGo c).chan c).goPend = (s.chan c).goPend + 1
      else (s.addGo c).bit (brgReg c 0x044) 10 = true := by
  have stillIdle : ((s.addGo c).chan c).desc = none := by
    unfold State.addGo
    dsimp only
    split
    · simpa [State.setBit] using idle
    · simpa using idle
  refine ⟨by simp only [State.pump, stillIdle], ?_⟩
  unfold State.addGo
  dsimp only
  split
  next few => rw [if_neg (by omega)]; simp
  next many => rw [if_pos (by omega)]; exact s.bit_setBit_same _ (by decide)

theorem delivered_chan (s : State) (k c : Nat) (m : Msg) : (delivered s k m).chan c = s.chan c := by
  unfold State.chan
  rw [(delivered_frame s k m).chans (by decide)]

/-! ### What a fenced plot drops (R191, R203) -/

/-- R203: a token dropped at a fenced plot is logged, and no counter of the plot takes it. -/
theorem dropToken_effect (s : State) {k : Nat} (m : Msg) (src : Loc) (counted : Bool) (hk : k < 512) :
    (∀ ctr < 64, tokCtr ((s.arrived m).dropToken k m src counted) k ctr = tokCtr s k ctr) ∧
      ((s.arrived m).dropToken k m src counted).fld (rhReg (k / 32) (k % 32 / 8) (0x088 + 16 * (k % 8))) 0 16 =
        satAdd 16 (s.fld (rhReg (k / 32) (k % 32 / 8) (0x088 + 16 * (k % 8))) 0 16) 1 := by
  obtain ⟨regs, errors⟩ := rhErr_effect (s.arrived m) 5 (tokenInfo m src) 0 hk
  have before : ∀ a lo w, (s.arrived m).fld a lo w = s.fld a lo w := fun _ _ _ => rfl
  have after : ∀ a, a ≠ cntPage k 0x044 →
      ((s.arrived m).dropToken k m src counted).reg a = ((s.arrived m).rhErr k 5 (tokenInfo m src) 0).reg a := by
    intro a ha
    unfold State.dropToken
    dsimp only
    split
    · exact State.count_reg _ _ _ _ _ ha
    · rfl
  refine ⟨fun ctr hc => ?_, ?_⟩
  · unfold tokCtr ctrReg
    unfold State.fld
    rw [after _ (pqReg_ne_cntPage hk (by omega) (by decide)), regs _ (not_fabricRegs_pqReg hk (by omega))]
    rfl
  · rw [before] at errors
    rw [← errors]
    unfold State.fld
    rw [after]
    unfold rhReg cntPage regAddr
    rw [if_pos hk]
    omega

theorem dropToken_frame (s : State) (k : Nat) (m : Msg) (src : Loc) (counted : Bool) :
    SameBut [.regs, .net, .cnts] s ((s.arrived m).dropToken k m src counted) :=
  State.dropToken_same _ _ _ _ (State.arrived_same _ (.refl s) rfl) rfl

theorem plotLoc_die (hk : k < 512) : (plotLoc k).die.toNat = k / 32 := by
  simp [plotLoc]
  omega

theorem locKey_plotLoc (hk : k < 512) : locKey (plotLoc k) = k := by
  simp [locKey, plotLoc]
  omega

/-- A flit for a plot reaches that plot's filter. -/
theorem exec_streamFlitArrive_plot {hg : BitVec 5} {sid : BitVec 16} {src : Loc} {sl : BitVec 5} {data : FlitData}
    (hk : k < 512) :
    exec (.streamFlitArrive (plotLoc k) hg sid src sl data) s = .next (plotFlit k hg sid src sl data s) := by
  have onPlot : (plotLoc k).die.toNat < 16 := by
    rw [plotLoc_die hk]
    omega
  refine congrArg Host.Outcome.next ((if_pos onPlot).trans ?_)
  rw [locKey_plotLoc hk]

/-- R191: the first flit of a source at a plot that discards it is answered with FENCED. -/
theorem discardFlit_effect (s : State) (k code : Nat) (sid : BitVec 16) (src : Loc) (sl : BitVec 5) :
    OtherPlots k s (s.discardFlit k code sid src sl) ∧ ((s.discardFlit k code sid src sl).plot k).tank = (s.plot k).tank ∧
      ((src.die.toNat, src.plot.toNat, sl.toNat) ∉ (s.plot k).fencedSrc →
        ∃ x ∈ (s.discardFlit k code sid src sl).net, x.cls = 3 ∧ x.dst = src ∧ x.msg = .fenced src (plotLoc k) sl) := by
  unfold State.discardFlit
  dsimp only
  generalize hu : (s.count (512 + 4 * (k / 32) + k % 32 / 8) 0 1).rhErr k code
    (streamInfo sid.toNat src.die.toNat src.plot.toNat sl.toNat) 0 = u
  have logged : SameBut [.regs, .cnts] s u := by
    rw [← hu]
    exact State.rhErr_same _ _ _ _ (State.count_same _ _ _ (.refl s) rfl) rfl
  have plots := logged.plot (by decide)
  split
  next known =>
    refine ⟨fun j _ => plots j, by rw [plots], fun new => ?_⟩
    rw [plots] at known
    exact absurd (by simpa using known) new
  next =>
    have counted := State.count_same (512 + 4 * (k / 32) + k % 32 / 8) 1 1 (SameBut.refl (msk := [.regs, .cnts])
      ((u.updPlot k fun P => { P with fencedSrc := (src.die.toNat, src.plot.toNat, sl.toNat) :: P.fencedSrc }).inject 3
        (plotLoc k) src (.fenced src (plotLoc k) sl))) rfl
    refine ⟨fun j hj => ?_, ?_, fun _ => ?_⟩
    · simp only [counted.plot (by decide : Fld.plots ∉ _), State.inject_others, State.plot_updPlot_ne _ _ hj, plots]
    · simp only [counted.plot (by decide : Fld.plots ∉ _), State.inject_others, State.plot_updPlot_same, plots]
    · rw [counted.net (by decide)]
      exact ⟨_, List.mem_append_right _ (List.mem_singleton_self _), rfl, rfl, rfl⟩

/-! ### Fences (R67, R191) -/

/-- The registers that work which ends anywhere on the stacks can change: interrupt status of queue pages, counter pages
and the watch points. -/
def WorkRegs (a : Nat) : Prop :=
  (∃ p, a = pqReg p 0x014) ∨ (∃ c, a = cntPage c 0x044) ∨ ∃ off, (0x080 ≤ off ∧ off < 4096) ∧ a = dbgReg off

theorem RegsBut.mono {Q : Nat → Prop} {s t : State} (h : RegsBut P s t) (sub : ∀ a, P a → Q a) : RegsBut Q s t :=
  fun a ha => h a fun hp => ha (sub a hp)

theorem ComplRegs.workRegs {a : Nat} (h : ComplRegs k a) : WorkRegs a := by
  rcases h with h | h | h
  · exact .inl ⟨k, h⟩
  · exact .inr (.inl ⟨k, h⟩)
  · exact .inr (.inr h)

theorem not_workRegs_fence {st q : Nat} : ¬ WorkRegs (rhReg st q 0x040) := by
  unfold WorkRegs cntPage rhReg pqReg dbgReg regAddr
  rintro (⟨p, h⟩ | ⟨c, h⟩ | ⟨o, ho, h⟩)
  · omega
  · split_ifs at h <;> omega
  · omega

theorem RegsBut.norDone {src : NorSrc} {status : Nat} {rejected : Bool} (h : RegsBut WorkRegs s0 s) :
    RegsBut WorkRegs s0 (s.norDone src status rejected) := by
  unfold State.norDone
  split
  next p seq =>
    unfold State.plotNorDone
    split
    · exact h
    · dsimp only
      generalize hu : s.updPlot (plotKey p) _ = u
      have dropped : RegsBut WorkRegs s0 u := hu ▸ h
      refine dropped.trans ?_
      split
      · exact (RegsBut.rejectHold (.refl _)).mono fun _ => ComplRegs.workRegs
      · exact (RegsBut.complete (.refl _)).mono fun _ => ComplRegs.workRegs
  next n seq =>
    exact h.same (State.winDone_same (msk := [.net, .parts, .rings, .cores, .wire]) _ _ _ _ (.refl s) rfl) (by decide)

theorem RegsBut.norFinish {k : Nat} {src : NorSrc} (h : RegsBut WorkRegs s0 s) : RegsBut WorkRegs s0 (s.norFinish k src) := by
  unfold State.norFinish
  split
  · exact h
  · refine RegsBut.ite (RegsBut.norDone ?_) h
    exact (h.of_regs (t := s.updNor _ _) rfl).count (.inr (.inl ⟨_, rfl⟩))

/-- R302: a stop of noria commands ends work and changes no other register. -/
theorem RegsBut.norStop {k : Nat} {sel : NorCmd → Bool} {status : Nat} (h : RegsBut WorkRegs s0 s) :
    RegsBut WorkRegs s0 (s.norStop k sel status) := by
  unfold State.norStop
  refine RegsBut.foldl (RegsBut.foldl h fun u src _ hu => ?_) fun u b _ hu => RegsBut.ite hu ?_
  · unfold State.norStopCmd
    exact (hu.of_regs (t := u.updNorCmd _ _ _) rfl).norFinish
  · exact hu.same (State.releasePermit_same (msk := [.norias, .stks]) _ _ (.refl u) rfl) (by decide)

theorem RegsBut.norFence {p : Nat} (h : RegsBut WorkRegs s0 s) : RegsBut WorkRegs s0 (s.norFence p) := by
  unfold State.norFence
  refine RegsBut.foldl ?_ fun u c _ hu => hu.norStop
  exact fun a ha => h a ha

/-- Setting a bit clears none. -/
theorem State.bit_setBit_of_bit {a b i j : Nat} (hi : i < 32) (h : s.bit a j = true) : (s.setBit b i).bit a j = true := by
  by_cases address : a = b
  · subst address
    by_cases place : j = i
    · subst place
      exact s.bit_setBit_same a hi
    · rw [State.bit_setBit_ne hi place, h]
  · unfold State.bit State.fld
    rw [State.reg_setBit_ne _ _ address]
    exact h

/-- The fence bits that a fence leaves are those it has just written. -/
theorem fencePlot_bits (s : State) (k j : Nat) (byFault : Bool) :
    (fenced s j = true → fenced (s.fencePlot k byFault) j = true) ∧ fenced (s.fencePlot k byFault) k = true := by
  unfold State.fencePlot
  dsimp only
  generalize hu : (if byFault = true then
    (s.setBit (rhReg (k / 32) (k % 32 / 8) 0x040) (k % 8)).setBit (rhReg (k / 32) (k % 32 / 8) 0x040) (8 + k % 8)
    else s.setBit (rhReg (k / 32) (k % 32 / 8) 0x040) (k % 8)) = u
  have set : ∀ i, s.bit (rhReg (i / 32) (i % 32 / 8) 0x040) (i % 8) = true ∨ i = k → fenced u i = true := by
    intro i hi
    have first : (s.setBit (rhReg (k / 32) (k % 32 / 8) 0x040) (k % 8)).bit (rhReg (i / 32) (i % 32 / 8) 0x040) (i % 8) = true := by
      rcases hi with hi | rfl
      · exact State.bit_setBit_of_bit (by omega) hi
      · exact s.bit_setBit_same _ (by omega)
    rw [← hu]
    unfold fenced
    split
    · exact State.bit_setBit_of_bit (by omega) first
    · exact first
  have work : RegsBut WorkRegs u ((u.clearArr k).norFence k) :=
    ((RegsBut.refl u).same (State.clearArr_same (msk := [.freeCtr, .plots]) k (.refl u) rfl) (by decide)).norFence
  have kept : ∀ i, fenced u i = true → fenced ((u.clearArr k).norFence k) i = true := fun i hi => by
    unfold fenced
    rw [work.bit not_workRegs_fence]
    exact hi
  split
  · exact ⟨fun h => set j (.inl h), set k (.inr rfl)⟩
  · exact ⟨fun h => kept j (set j (.inl h)), kept k (set k (.inr rfl))⟩

/-- R191: a write of the fence mask fences every plot of it. -/
theorem fenced_fenceMask_foldl {base : Nat} (l : List Nat) {j : Nat} (hj : j ∈ l ∨ fenced s (base + j) = true) :
    fenced (l.foldl (fun s p => s.fencePlot (base + p) false) s) (base + j) = true := by
  induction l generalizing s with
  | nil => simpa using hj
  | cons p l ih =>
    refine ih ?_
    rcases hj with hj | hj
    · rcases List.mem_cons.1 hj with rfl | hj
      · exact .inr (fencePlot_bits s _ 0 false).2
      · exact .inl hj
    · exact .inr ((fencePlot_bits s _ _ false).1 hj)

theorem mem_setBits {w v i : Nat} (hi : i < w) (h : v.testBit i = true) : i ∈ setBits w v := by
  unfold setBits nbit
  rw [Nat.testBit_eq_decide_div_mod_eq] at h
  simpa [hi] using h

/-- Settles O20: a token that is taken has its own effect on the delivered state, one that is fenced off is logged by
its reach hub alone, and fences only add bits to the hubs' fence registers. -/
theorem tokensActOrAreFencedOff : Obligations.TokensActOrAreFencedOff := by
  unfold Obligations.TokensActOrAreFencedOff
  refine ⟨?_, fun s => ⟨?_, ?_⟩⟩
  · rintro s p _ src rfl up unfenced runs
    have hk := plotKey_lt p
    refine ⟨fun ctr amount some_ => ?_, fun sl n valid => ?_, fun sl valid => ?_, fun c idle => ?_, ?_, fun tok reserved => ?_⟩
    · obtain ⟨counts, regs⟩ := addToken_effect (s := s) (amount := amount.toNat)
        (.add (plotLoc (plotKey p)) src ctr amount) hk ctr.isLt runs
      refine ⟨_, congrArg Host.Outcome.next ((tokenIn_served up unfenced runs).trans (if_neg some_)), ?_, counts, regs⟩
      exact State.tokArrive_same _ _ _ (State.noteItem_same _ _ ((delivered_frame s _ _).mono rfl) rfl) rfl
    · have valid' : slotValid (delivered s (plotKey p) (.credit (plotLoc (plotKey p)) src sl n)) (plotKey p) sl.toNat = true := by
        unfold slotValid State.bit slotReg at *
        rwa [delivered_pqReg_fld s _ _ _ hk (by omega)]
      refine ⟨_, congrArg Host.Outcome.next (tokenIn_served up unfenced runs), ?_, ?_⟩
      · exact addCredit_same _ _ _ _ (delivered_frame s _ _) rfl
      · rw [slotCredit_addCredit hk sl.isLt valid']
        unfold slotCredit slotCredits slotReg
        rw [delivered_pqReg_fld s _ _ _ hk (by omega), delivered_pqReg_fld s _ _ _ hk (by omega)]
    · have valid' : slotValid (delivered s (plotKey p) (.fenced (plotLoc (plotKey p)) src sl)) (plotKey p) sl.toNat = true := by
        unfold slotValid State.bit slotReg at *
        rwa [delivered_pqReg_fld s _ _ _ hk (by omega)]
      obtain ⟨others, fenced⟩ := fenceSlot_effect hk sl.isLt valid'
      refine ⟨_, congrArg Host.Outcome.next ((if_neg (by simp [up])).trans (if_neg (by simp [runs]))), ?_, ?_, fenced⟩
      · exact fenceSlot_same _ _ ((delivered_frame s _ _).mono rfl) rfl
      · exact ((delivered_frame s _ _).otherPlots (by decide) _).trans others
    · have idle' : ((delivered s (plotKey p) (.bargeGo (plotLoc (plotKey p)) src c)).chan (4 * plotKey p + c.toNat)).desc = none := by
        rwa [delivered_chan]
      obtain ⟨waits, counted⟩ := goToken_effect idle'
      rw [delivered_chan] at counted
      refine ⟨_, congrArg Host.Outcome.next ((tokenIn_served up unfenced runs).trans waits), ?_, counted⟩
      exact State.addGo_same _ ((delivered_frame s _ _).mono rfl) rfl
    · refine ⟨_, congrArg Host.Outcome.next (tokenIn_served up unfenced runs), ?_, State.irq_pqReg_bit (by decide), ?_⟩
      · exact State.irq_same _ _ (delivered_frame s _ _) rfl
      · exact (otherRegs_delivered _ (by simp)).trans (otherRegs_irq_pqReg _ (by simp))
    · refine ⟨_, congrArg Host.Outcome.next ((if_pos reserved).trans (tokenIn_served up unfenced runs)), ?_,
        State.irq_pqReg_bit (by decide), ?_⟩
      · exact badToken_same _ (delivered_frame s _ _) rfl
      · exact (otherRegs_delivered _ (by simp)).trans ((otherRegs_count _ _ (by simp)).trans (otherRegs_irq_pqReg _ (by simp)))
  · rintro p _ src rfl up closed
    have hk := plotKey_lt p
    refine ⟨fun ctr amount sl n c i hi => ?_, fun hg sl sid data => ?_⟩
    · have drops : ∃ m counted, exec i s = .next ((s.arrived m).dropToken (plotKey p) m src counted) := by
        simp only [List.mem_cons, List.not_mem_nil, or_false] at hi
        rcases hi with rfl | rfl | rfl | rfl <;> exact ⟨_, _, congrArg Host.Outcome.next (tokenIn_fenced closed)⟩
      obtain ⟨m, counted, hu⟩ := drops
      obtain ⟨counters, errors⟩ := dropToken_effect s m src counted hk
      exact ⟨_, hu, dropToken_frame s _ m src counted, counters _ ctr.isLt, errors⟩
    · have filter : plotFlit (plotKey p) hg sid src sl data s =
          (s.arrived (.flit (plotLoc (plotKey p)) hg sid src sl data)).discardFlit (plotKey p) 5 sid src sl := by
        simp [plotFlit, ejects, closed]
      refine ⟨_, (exec_streamFlitArrive_plot hk).trans (congrArg Host.Outcome.next filter), ?_, ?_⟩
      · exact State.discardFlit_same _ _ _ _ _ (State.arrived_same _ (.refl s) rfl) rfl
      · exact discardFlit_effect (s.arrived (.flit (plotLoc (plotKey p)) hg sid src sl data)) (plotKey p) 5 sid src sl
  · rintro r st q mask served
    refine ⟨_, outcome_access _ served, fenceMask_same _ _ _ (.refl _) rfl, fun j hj set => ?_⟩
    exact fenced_fenceMask_foldl _ (.inl (mem_setBits hj set))

end Sys2Proof.Machine
end

section
/-!
Streams and routers (R178, R179, R184, R186, R187): what the sending, the arrival and the consumption of a flit change of
slots and headgates, and the hop of a packet.
-/
namespace Sys2Proof.Machine

variable {s : State} {k n : Nat}

/-! ### What completions leave in the fabric -/

theorem State.count_net (s : State) (k i n : Nat) : (s.count k i n).net = s.net :=
  (State.count_same k i n (SameBut.refl (msk := [.regs, .cnts]) s) rfl).net (by decide)

theorem State.signal_net (s : State) (k y g : Nat) : s.net <+: (s.signal k y g).net := by
  unfold State.signal
  split
  · exact List.prefix_refl _
  · split
    · unfold State.plotToken
      split
      · rw [State.count_net]
        exact List.prefix_append _ _
      · simp
    · simp

/-- A completion may send a token and takes nothing out of the fabric. -/
theorem State.complete_net (s : State) (k q : Nat) (d : Desc) (st : Nat) : s.net <+: (s.complete k q d st).net := by
  have signalled : s.net <+: (if signals st then s.signal k (syncOf q d) (tagOf q d) else s).net := by
    split
    · exact s.signal_net k _ _
    · exact List.prefix_refl _
  unfold State.complete
  dsimp only
  generalize (if signals st then s.signal k (syncOf q d) (tagOf q d) else s) = s1 at *
  generalize hs2 : (if (cplEn (syncOf q d) || st != 0) = true then s1.record k (cplRec s q d st false) else s1) = s2
  have recorded : SameBut [.regs, .plots, .parts, .dbg] s1 s2 := by
    rw [← hs2]
    exact SameBut.ite (State.record_same _ _ (.refl s1) rfl) (.refl s1)
  have ended : SameBut [.regs, .plots, .parts, .dbg] s1 ((if st = 0x10 then s2.runPoison k else s2).wpMatches k q (nbits (tagOf q d) 0 16)) :=
    State.wpMatches_same _ _ _ (SameBut.ite (State.runPoison_same _ recorded rfl) recorded) rfl
  rw [ended.net (by decide)]
  exact signalled

@[simp] theorem State.complete_arr (s : State) (k q : Nat) (d : Desc) (st j : Nat) :
    (s.complete k q d st).arr j = s.arr j := (s.complete_plot k q d st j).1.arr

/-- R107: the last row of a pass leaves the fabric's packets and the output queue where they are. -/
theorem rowDone_effect (s : State) (k seq : Nat) (bad : Bool) :
    s.net <+: (rowDone s k seq bad).net ∧ ((rowDone s k seq bad).arr k).outQ = (s.arr k).outQ := by
  unfold rowDone passDone
  split
  · refine ⟨List.prefix_refl _, ?_⟩
    rw [State.arr_updArr_same]
    rfl
  next x _ =>
    generalize hv : State.updArr (s.updArr k _) k _ = v
    have net : v.net = s.net := hv ▸ rfl
    have queue : (v.arr k).outQ = (s.arr k).outQ := by
      rw [← hv, State.arr_updArr_same, State.arr_updArr_same]
      rfl
    rw [State.complete_arr, queue, ← net]
    exact ⟨v.complete_net _ _ _ _, rfl⟩

/-! ### A flit leaves (R183, R186) -/

theorem slotReg_ne_cnt {w : Nat} (hk : k < 512) (hn : n < 32) (hw : w < 8) : slotReg k n w ≠ cntPage k 0x044 :=
  pqReg_ne_cntPage hk (by omega) (by decide)

/-- R186: a launched flit takes one credit and stands in the fabric. -/
theorem launch_effect (s : State) {k n : Nat} (f : FlitData) (hk : k < 512) (hn : n < 32) (credit : slotCredit s k n ≠ 0) :
    OtherPlots k s (s.launch k n f) ∧ slotCredit (s.launch k n f) k n + 1 = slotCredit s k n ∧
      (s.launch k n f).plot k = s.plot k ∧
      ∃ x ∈ (s.launch k n f).net, x.cls = 0 ∧ x.src = plotLoc k ∧ x.dst = slotDest s k n := by
  have below : slotCredit s k n < 512 := State.fld_lt s _ 0 9
  have taken : slotCredit (s.launch k n f) k n = (slotCredit s k n - 1) % 2 ^ 9 := by
    have reg : (s.launch k n f).reg (slotReg k n 3) = (s.setFld (slotReg k n 3) 0 9 (slotCredit s k n - 1)).reg (slotReg k n 3) := by
      unfold State.launch
      dsimp only
      rw [State.count_reg _ _ _ _ _ (slotReg_ne_cnt hk hn (by decide))]
      simp only [State.inject_others]
    have field := State.fld_setFld_same s (slotReg k n 3) (slotCredit s k n - 1) (show 0 + 9 ≤ 32 by decide)
    exact (congrArg (fun w : Word => nbits w.toNat 0 9) reg).trans field
  refine ⟨fun j _ => by simp [State.launch], by rw [taken]; omega, by simp [State.launch], ?_⟩
  unfold State.launch
  dsimp only
  rw [State.count_net]
  exact ⟨_, List.mem_append_right _ (List.mem_singleton_self _), rfl, rfl, rfl⟩

theorem sendFlit_of_row {f : OutFlit} (row : feedingRow s k n = some f) (credit : slotCredit s k n ≠ 0) :
    sendFlit k n s =
      if f.last then
        rowDone (((s.launch k n f.data).updArr k fun A => { A with outQ := A.outQ.drop 1 }).updArr k fun A =>
          { A with rows := A.rows.eraseP fun r => r.conv && r.seq == f.seq }) k f.seq (f.data.poison != 0)
      else (s.launch k n f.data).updArr k fun A => { A with outQ := A.outQ.drop 1 } := by
  unfold sendFlit
  simp only [row, credit, if_false]

/-- R183, R186: the drain path's flit leaves on its slot. -/
theorem sendFlit_effect {f : OutFlit} (hk : k < 512) (hn : n < 32) (row : feedingRow s k n = some f)
    (credit : slotCredit s k n ≠ 0) :
    OtherPlots k s (sendFlit k n s) ∧ slotCredit (sendFlit k n s) k n + 1 = slotCredit s k n ∧
      ((sendFlit k n s).arr k).outQ = (s.arr k).outQ.drop 1 ∧
      ∃ x ∈ (sendFlit k n s).net, x.cls = 0 ∧ x.src = plotLoc k ∧ x.dst = slotDest s k n := by
  obtain ⟨others, taken, plot, x, sent, cls, src, dst⟩ := launch_effect s f.data hk hn credit
  rw [sendFlit_of_row row credit]
  generalize s.launch k n f.data = u at *
  have queue : ((u.updArr k fun A => { A with outQ := A.outQ.drop 1 }).arr k).outQ = (s.arr k).outQ.drop 1 := by
    rw [State.arr_updArr_same]
    unfold State.arr
    rw [plot]
  split
  · generalize hw : (u.updArr k fun A => { A with outQ := A.outQ.drop 1 }).updArr k (fun A =>
      { A with rows := A.rows.eraseP fun r => r.conv && r.seq == f.seq }) = w
    have same : SameBut [.plots] u w := by
      rw [← hw]
      exact State.updArr_same _ _ (State.updArr_same _ _ (.refl u) rfl) rfl
    have wOthers : OtherPlots k u w := hw ▸ (otherPlots_updArr u k _).trans (otherPlots_updArr _ k _)
    have wQueue : (w.arr k).outQ = (s.arr k).outQ.drop 1 := by
      rw [← hw, State.arr_updArr_same]
      exact queue
    obtain ⟨net, outQ⟩ := rowDone_effect w k f.seq (f.data.poison != 0)
    have regs : RegsBut (ComplRegs k) u (rowDone w k f.seq (f.data.poison != 0)) :=
      ((RegsBut.refl u).same same (by decide)).rowDone
    refine ⟨(others.trans wOthers).trans (otherPlots_rowDone w k _ _), ?_, outQ.trans wQueue, x, ?_, cls, src, dst⟩
    · unfold slotCredit slotReg at *
      rw [regs.fld (not_complRegs_pqReg hk (by omega) (by omega)), taken]
    · exact net.subset (by rw [same.net (by decide)]; exact sent)
  · exact ⟨others.trans (otherPlots_updArr u k _), taken, queue, x, sent, cls, src, dst⟩

/-! ### A flit arrives (R184) -/

theorem hgReg_ne_cnt {w : Nat} (hk : k < 512) (hn : n < 32) (hw : w < 8) : hgReg k n w ≠ cntPage k 0x044 :=
  pqReg_ne_cntPage hk (by omega) (by decide)

theorem hgFill_lt_of_takes {sid : BitVec 16} {src : Loc} {sl : BitVec 5} (h : hgRefuses s k n sid src sl = none) :
    hgFill s k n < hgDepth s k n := by
  unfold hgRefuses at h
  dsimp only at h
  split_ifs at h
  omega

/-- R184: a flit that does not step the arrival counter enters the ring and latches its source. -/
theorem ringPut_effect (s : State) {k n : Nat} (src : Loc) (sl : BitVec 5) (data : FlitData) (hk : k < 512) (hn : n < 32)
    (room : hgFill s k n < hgDepth s k n) (quiet : s.bit (hgReg k n 3) 6 = false) :
    SameBut [.regs, .plots, .cnts] s (s.ringPut k n src sl data) ∧ OtherPlots k s (s.ringPut k n src sl data) ∧
      hgFill (s.ringPut k n src sl data) k n = hgFill s k n + 1 ∧ hgRd (s.ringPut k n src sl data) k n = hgRd s k n ∧
      (tget ({} : Hg) ((s.ringPut k n src sl data).plot k).hgs n).src = some (src.die.toNat, src.plot.toNat, sl.toNat) := by
  have depth : hgDepth s k n < 512 := State.fld_lt s _ 0 9
  unfold State.ringPut
  simp only [quiet, Bool.false_and, Bool.false_eq_true, if_false]
  generalize hu : s.updPlot k _ = u
  have updated : SameBut [.plots] s u := hu ▸ State.updPlot_same _ _ (.refl s) rfl
  have others : OtherPlots k s u := hu ▸ otherPlots_updPlot s k _
  have ring : ∀ lo w, ((u.setFld (hgReg k n 4) 0 9 (hgFill s k n + 1)).count k 10 1).fld (hgReg k n 4) lo w =
      (u.setFld (hgReg k n 4) 0 9 (hgFill s k n + 1)).fld (hgReg k n 4) lo w := fun lo w => by
    unfold State.fld
    rw [State.count_reg _ _ _ _ _ (hgReg_ne_cnt hk hn (by decide))]
  refine ⟨?_, ?_, ?_, ?_, ?_⟩
  · exact State.count_same _ _ _ (State.setFld_same _ _ _ _ (updated.mono rfl) rfl) rfl
  · intro j hj
    rw [State.count_plot]
    simp only [State.setFld_others]
    exact others j hj
  · have filled := (ring 0 9).trans (State.fld_setFld_same u _ _ (by decide))
    rw [Nat.mod_eq_of_lt (by omega)] at filled
    exact filled
  · have kept := (ring 16 9).trans (State.fld_setFld_ne u _ _ (by decide) (by decide))
    exact kept.trans (updated.fld (by decide) _ _ _)
  · rw [State.count_plot]
    simp only [State.setFld_others]
    rw [← hu, State.plot_updPlot_same]
    simp

/-! ### A flit is consumed and credited (R132, R187) -/

/-- R187: owed credit goes back as one CREDIT token, at most 127 at a time. -/
theorem sendCredit_owed {w : Nat × Nat × Nat} (source : (tget ({} : Hg) (s.plot k).hgs n).src = some w)
    (owed : 0 < (tget ({} : Hg) (s.plot k).hgs n).owed) :
    (tget ({} : Hg) ((s.sendCredit k n).plot k).hgs n).owed = (tget ({} : Hg) (s.plot k).hgs n).owed - 127 ∧
      ∃ x, (s.sendCredit k n).net = s.net ++ [x] ∧ x.cls = 3 ∧ x.dst = ⟨BitVec.ofNat 5 w.1, BitVec.ofNat 5 w.2.1⟩ := by
  obtain ⟨die, plot, slot⟩ := w
  unfold State.sendCredit
  simp only [source, Nat.ne_of_gt owed, if_false]
  generalize hu : s.updPlot k _ = u
  have net : u.net = s.net := hu ▸ rfl
  constructor
  · rw [State.count_plot]
    simp only [State.inject_others]
    rw [← hu, State.plot_updPlot_same]
    simp only [tget_tput_same]
    omega
  · rw [State.count_net, ← net]
    exact ⟨_, rfl, rfl, rfl⟩

/-- Sending credit touches one headgate's count of the plot, and no register but the counter set. -/
theorem sendCredit_keeps (s : State) (k n : Nat) :
    OtherPlots k s (s.sendCredit k n) ∧ (s.sendCredit k n).arr k = s.arr k ∧
      ∀ a, a ≠ cntPage k 0x044 → (s.sendCredit k n).reg a = s.reg a := by
  unfold State.sendCredit
  dsimp only
  split
  · exact ⟨.refl s k, rfl, fun _ _ => rfl⟩
  · split_ifs
    · exact ⟨.refl s k, rfl, fun _ _ => rfl⟩
    · generalize hu : s.updPlot k _ = u
      refine ⟨fun j hj => ?_, ?_, fun a ha => ?_⟩
      · rw [State.count_plot]
        simp only [State.inject_others]
        rw [← hu]
        exact s.plot_updPlot_ne _ hj
      · unfold State.arr
        rw [State.count_plot]
        simp only [State.inject_others]
        rw [← hu, State.plot_updPlot_same]
      · rw [State.count_reg _ _ _ _ _ ha]
        simp only [State.inject_others]
        rw [← hu]
        rfl

/-- R132, R187: a flit leaves the ring. -/
theorem ringTake_effect (s : State) {k n : Nat} (hk : k < 512) (hn : n < 32) (held : 0 < hgFill s k n) :
    OtherPlots k s (s.ringTake k n) ∧ (s.ringTake k n).arr k = s.arr k ∧
      hgFill (s.ringTake k n) k n + 1 = hgFill s k n := by
  have below : hgFill s k n < 512 := State.fld_lt s _ 0 9
  unfold State.ringTake
  dsimp only
  generalize hv : (s.setFld (hgReg k n 4) 0 9 (hgFill s k n - 1)).setFld (hgReg k n 4) 16 9 ((hgRd s k n + 1) % hgDepth s k n) = v
  have plots : ∀ j, v.plot j = s.plot j := fun j => by rw [← hv]; simp only [State.setFld_others]
  have fill : hgFill v k n = (hgFill s k n - 1) % 2 ^ 9 := by
    rw [← hv]
    exact (State.fld_setFld_ne _ _ _ (by decide) (by decide)).trans (State.fld_setFld_same s _ _ (by decide))
  generalize hu : v.updPlot k _ = u
  have updated : SameBut [.plots] v u := hu ▸ State.updPlot_same _ _ (.refl v) rfl
  have uFill : hgFill u k n = hgFill v k n := updated.fld (by decide) _ _ _
  have others : OtherPlots k s u := fun j hj => (hu ▸ v.plot_updPlot_ne _ hj).trans (plots j)
  have arr : u.arr k = s.arr k := by
    unfold State.arr
    rw [← hu, State.plot_updPlot_same, plots]
  obtain ⟨cOthers, cArr, cReg⟩ := sendCredit_keeps u k n
  have cFill : hgFill (u.sendCredit k n) k n = hgFill u k n := by
    unfold hgFill State.fld
    rw [cReg _ (hgReg_ne_cnt hk hn (by decide))]
  split_ifs
  · exact ⟨others.trans cOthers, cArr.trans arr, by omega⟩
  · exact ⟨others, arr, by omega⟩

/-- R136, R187: the head pass takes the flit at the read pointer. -/
theorem consume_effect {b : Bool} (hk : k < 512) (hn : n < 32) (held : 0 < hgFill s k n) (takes : passTakes s k n = some b) :
    OtherPlots k s (consume k n s) ∧ hgFill (consume k n s) k n + 1 = hgFill s k n ∧
      if b then ((consume k n s).arr k).preB = (s.arr k).preB ++ [ringHead s k n]
      else ((consume k n s).arr k).preE = (s.arr k).preE ++ [ringHead s k n] := by
  have taken : ∀ f : Arr → Arr, OtherPlots k s ((s.updArr k f).ringTake k n) ∧
      ((s.updArr k f).ringTake k n).arr k = f (s.arr k) ∧ hgFill ((s.updArr k f).ringTake k n) k n + 1 = hgFill s k n := by
    intro f
    obtain ⟨others, arr, fill⟩ := ringTake_effect (s.updArr k f) hk hn held
    exact ⟨(otherPlots_updArr s k f).trans others, by rw [arr, State.arr_updArr_same], fill⟩
  unfold consume
  dsimp only
  cases b <;> simp only [takes]
  · obtain ⟨others, arr, fill⟩ := taken fun A => { A with preE := A.preE ++ [ringHead s k n] }
    exact ⟨others, fill, by rw [arr]; rfl⟩
  · obtain ⟨others, arr, fill⟩ := taken fun A => { A with preB := A.preB ++ [ringHead s k n] }
    exact ⟨others, fill, by rw [arr]; rfl⟩

theorem readyChans_otherPlots (s : State) (k : Nat) : OtherPlots k s (s.readyChans k) :=
  (State.readyChans_same (msk := [.freeCtr, .regs, .chans, .slices, .dram, .chk, .reqTabs, .errs, .cores, .cnts, .wire]) k
    (.refl s) rfl).otherPlots (by decide) k

theorem arrived_reg (s : State) (m : Msg) (a : Nat) : (s.arrived m).reg a = s.reg a := rfl

/-- Settles O21: each command is its operation on the plot whose channels have started (a flit sent or consumed) or on
the state the flit has arrived in. -/
theorem flitsMoveThroughTheStreams : Obligations.FlitsMoveThroughTheStreams := by
  unfold Obligations.FlitsMoveThroughTheStreams
  rintro s p _ n rfl
  have hk := plotKey_lt p
  have slotNumber : (BitVec.ofNat 5 n.val).toNat = n.val := by simp
  refine ⟨fun runs valid unfenced f row credit => ?_, fun sid src sl data up unfenced runs takes quiet => ?_,
    fun runs valid held ready b takes => ?_, fun runs valid w source owed => ?_⟩
  · obtain ⟨others, taken, queue, sent⟩ := sendFlit_effect hk n.isLt row credit
    have go : (plotRun s (plotKey p) && slotValid s (plotKey p) n.val && !slotFenced s (plotKey p) n.val) = true := by
      simp [runs, valid, unfenced]
    exact ⟨_, congrArg Host.Outcome.next (if_pos go), (readyChans_otherPlots s _).trans others, taken, queue, sent⟩
  · have open_ : ejects s (plotKey p) = false := by simp [ejects, up, unfenced]
    have put : plotFlit (plotKey p) (BitVec.ofNat 5 n.val) sid src sl data s =
        (s.arrived (Msg.flit (plotLoc (plotKey p)) (BitVec.ofNat 5 n.val) sid src sl data)).ringPut (plotKey p) n.val src sl
          data := by
      unfold plotFlit
      simp [open_, runs, takes]
    obtain ⟨same, others, fill, rd, latched⟩ :=
      ringPut_effect (s.arrived (Msg.flit (plotLoc (plotKey p)) (BitVec.ofNat 5 n.val) sid src sl data)) src sl data hk n.isLt
        (hgFill_lt_of_takes takes) quiet
    refine ⟨_, (exec_streamFlitArrive_plot hk).trans (congrArg _ put), ?_, others, fill, rd, latched⟩
    exact (State.arrived_same _ (.refl s) rfl).trans (same.mono rfl)
  · obtain ⟨others, fill, data⟩ := consume_effect hk n.isLt ready takes
    have go : (plotRun s (plotKey p) && hgValid s (plotKey p) n.val && decide (0 < hgFill s (plotKey p) n.val)) = true := by
      simp [runs, valid, held]
    exact ⟨_, congrArg Host.Outcome.next (if_pos go), (readyChans_otherPlots s _).trans others, fill, data⟩
  · have go : (plotRun s (plotKey p) && hgValid s (plotKey p) n.val) = true := by simp [runs, valid]
    obtain ⟨left, sent⟩ := sendCredit_owed source owed
    exact ⟨_, congrArg Host.Outcome.next (if_pos go), State.sendCredit_same _ _ (.refl s) rfl, (sendCredit_keeps s _ _).1, left,
      sent⟩

/-! ### Routers (R178, R179) -/

/-- Taking out an element that a filter drops leaves the filtered list. -/
theorem filter_erase_of_not {α : Type} [DecidableEq α] (P : α → Bool) {x : α} (h : P x = false) (l : List α) :
    (l.erase x).filter P = l.filter P := by
  induction l with
  | nil => rfl
  | cons y ys ih =>
    by_cases e : y = x
    · subst e
      simp [h]
    · simp only [List.erase_cons, beq_iff_eq, e, if_false, List.filter_cons, ih]

theorem moved_cls (p : NetPkt) : ∀ out, (moved p out).cls = p.cls
  | 0 | 1 | 2 | 3 | 4 => rfl
  | _ + 5 => (apply_ite NetPkt.cls _ _ _).trans (ite_self _)

theorem mem_of_pickRound {last : Nat} {cs : List NetPkt} {p : NetPkt} (h : pickRound last cs = some p) : p ∈ cs := by
  unfold pickRound at h
  split at h
  next x found =>
    obtain rfl := Option.some.inj h
    exact List.mem_of_find?_eq_some found
  next => exact List.mem_of_mem_head? h

theorem waitingAt_spec {s : State} {die site out : Nat} {lane : Bool} {p : NetPkt} (h : p ∈ waitingAt s die site out lane) :
    p ∈ s.net ∧ (p.cls.val == 3) = lane := by
  obtain ⟨i, -, found⟩ := List.mem_flatMap.1 (List.mem_of_mem_filter h)
  obtain ⟨net, here⟩ := List.mem_filter.1 (List.mem_of_find?_eq_some (Option.mem_toList.1 found))
  exact ⟨net, by simpa using (Bool.and_eq_true_iff.1 here).2⟩

/-- R178: a router neither makes nor loses packets. -/
theorem forwardLane_length (die site out : Nat) (lane : Bool) (s : State) :
    (forwardLane die site out lane s).net.length = s.net.length := by
  unfold forwardLane
  dsimp only
  split
  · rfl
  next p picked =>
    have stands := (waitingAt_spec (mem_of_pickRound picked)).1
    have := List.length_pos_of_mem stands
    simp only [List.length_append, List.length_erase_of_mem stands, List.length_singleton]
    omega

theorem forwardLane_of_none {s : State} {die site out : Nat} {lane : Bool} (h : waitingAt s die site out lane = []) :
    forwardLane die site out lane s = s := by
  unfold forwardLane
  rw [h]
  rfl

/-- R178: the token lane waits on tokens alone, so a data packet's hop leaves it as it was. -/
theorem waitingAt_tokens_of_hop {s : State} {x y : NetPkt} (rr : Tbl Nat) (hx : x.cls.val ≠ 3) (hy : y.cls.val ≠ 3)
    (die site out : Nat) :
    waitingAt { s with rr := rr, net := s.net.erase x ++ [y] } die site out true = waitingAt s die site out true := by
  have port : ∀ p, outPort { s with rr := rr, net := s.net.erase x ++ [y] } p = outPort s p := fun _ => rfl
  unfold waitingAt
  simp only [port, List.filter_append]
  rw [filter_erase_of_not _ (by simp [hx])]
  simp [hy]

/-- Settles O22: the data lane's hop and the token lane's hop each erase the packet picked and append it one hop on, and a
data packet's hop is not seen by the token lane. -/
theorem routersForwardOneHop : Obligations.RoutersForwardOneHop := by
  unfold Obligations.RoutersForwardOneHop
  intro s die site out go
  refine ⟨_, congrArg Host.Outcome.next (if_pos go), forwardLane_same _ _ _ _ (forwardLane_same _ _ _ _ (.refl s) rfl) rfl,
    ?_, fun quiet x picked => ?_⟩
  · rw [forwardLane_length, forwardLane_length]
  · have data : x.cls.val ≠ 3 := by simpa using (waitingAt_spec (mem_of_pickRound picked)).2
    have hop : forwardLane die.val site.val out.val false s = { s with
        rr := tput 0 s.rr (((die.val * 36 + site.val) * 13 + out.val) * 2) (4 * x.inp + x.cls.val + 1),
        net := s.net.erase x ++ [moved x out.val] } := by
      unfold forwardLane
      simp only [b2n, Bool.false_eq_true, if_false, Nat.add_zero, picked]
    rw [hop, forwardLane_of_none]
    rw [waitingAt_tokens_of_hop _ data (by rwa [moved_cls]), quiet]

end Sys2Proof.Machine
end

section
/-!
Barge channels (R129, R160 to R169): what starts, start events and the end of a unit change of a channel, and what they leave
to the other channels.
-/
namespace Sys2Proof.Machine

variable {s : State} {k c : Nat} {d : Desc}

theorem SameBut.chan {w : List Fld} {s t : State} (h : SameBut w s t) (hw : Fld.chans ∉ w) (j : Nat) : t.chan j = s.chan j := by
  unfold State.chan
  rw [h.chans hw]

/-- Only channel `c` differs. -/
def OtherChans (c : Nat) (s u : State) : Prop := ∀ j, j ≠ c → u.chan j = s.chan j

theorem OtherChans.refl (c : Nat) (s : State) : OtherChans c s s := fun _ _ => rfl

theorem OtherChans.trans {s t u : State} (h : OtherChans c s t) (h' : OtherChans c t u) : OtherChans c s u :=
  fun j hj => (h' j hj).trans (h j hj)

theorem SameBut.otherChans {w : List Fld} {s t : State} (h : SameBut w s t) (hw : Fld.chans ∉ w) : OtherChans c s t :=
  fun j _ => h.chan hw j

theorem otherChans_setChan (s : State) (c : Nat) (C : Chan) : OtherChans c s (s.setChan c C) :=
  fun _ hj => s.chan_setChan_ne C hj

theorem otherChans_updChan (s : State) (c : Nat) (f : Chan → Chan) : OtherChans c s (s.updChan c f) := otherChans_setChan s c _

/-! ### Starts (R163 to R165) -/

/-- `D` is `C` with another phase and other start events. -/
def PacedOnly (C D : Chan) : Prop :=
  D = { C with phase := D.phase, t0 := D.t0, grid := D.grid, late := D.late, goPend := D.goPend, fenced := D.fenced }

theorem PacedOnly.refl (C : Chan) : PacedOnly C C := rfl

theorem PacedOnly.trans {C D E : Chan} (h : PacedOnly C D) (h' : PacedOnly D E) : PacedOnly C E := by
  unfold PacedOnly at *
  rw [h] at h'
  exact h'

theorem PacedOnly.desc {C D : Chan} (h : PacedOnly C D) : D.desc = C.desc := by rw [h]

theorem PacedOnly.unit {C D : Chan} (h : PacedOnly C D) : D.unit = C.unit := by rw [h]

theorem pacedOnly_unitTake (C : Chan) (d : Desc) : PacedOnly C (unitTake C d) := by
  unfold unitTake
  split <;> rfl

/-- R163: a start changes the channel's phase, and marks a fenced slot. -/
theorem State.startUnit_chan (s : State) (c : Nat) (d : Desc) :
    (∃ b, (s.startUnit c d).chan c = { s.chan c with phase := .moving, fenced := b }) ∧ OtherChans c s (s.startUnit c d) := by
  unfold State.startUnit
  dsimp only
  generalize hu : s.updChan c _ = u
  have requests : SameBut [.reqTabs] u (u.reqAdd c (unitKeys s c d (unitFirst (s.chan c) d))) :=
    State.reqAdd_same _ _ (.refl u) rfl
  refine ⟨⟨_, (requests.chan (by decide) c).trans (hu ▸ State.chan_updChan_same s c _)⟩, ?_⟩
  exact (hu ▸ otherChans_updChan s c _ : OtherChans c s u).trans (requests.otherChans (by decide))

theorem PacedOnly.startUnit {C : Chan} (h : PacedOnly C (s.chan c)) : PacedOnly C ((s.startUnit c d).chan c) := by
  obtain ⟨b, started⟩ := (s.startUnit_chan c d).1
  rw [started]
  exact h.trans rfl

/-- R163: starting what can start changes the pacing of the channel alone. -/
theorem State.pump_chan (s : State) (c : Nat) : PacedOnly (s.chan c) ((s.pump c).chan c) ∧ OtherChans c s (s.pump c) := by
  unfold State.pump
  split
  · exact ⟨.refl _, .refl c s⟩
  next d _ =>
    split
    · exact ⟨.refl _, .refl c s⟩
    · dsimp only
      generalize hs1 : (if ((s.chan c).phase == .waitSync && (isIod c || waitOk s (c / 4) (syncOf 2 d))) = true then _ else s) = s1
      have waited : PacedOnly (s.chan c) (s1.chan c) ∧ OtherChans c s s1 := by
        rw [← hs1]
        split
        · generalize hv : (if isIod c = true then s else s.waitTake (c / 4) (syncOf 2 d)) = v
          have taken : SameBut [.regs] s v := hv ▸ SameBut.ite (.refl s) (State.waitTake_same _ _ (.refl s) rfl)
          rw [State.chan_updChan_same, taken.chan (by decide)]
          exact ⟨rfl, (taken.otherChans (by decide)).trans (otherChans_updChan v c _)⟩
        · exact ⟨.refl _, .refl c s⟩
      split
      · have began : PacedOnly (s.chan c) ((s1.setChan c (unitTake (s1.chan c) d)).chan c) := by
          rw [State.chan_setChan_same]
          exact waited.1.trans (pacedOnly_unitTake _ d)
        exact ⟨began.startUnit, (waited.2.trans (otherChans_setChan s1 c _)).trans (State.startUnit_chan _ c d).2⟩
      · exact waited

/-- R129, R168: a channel that takes a descriptor begins at its first unit. -/
theorem State.takeDesc_chan (s : State) (c : Nat) (d : Desc) (job : Option (Nat × Nat)) :
    ((s.takeDesc c d job).chan c).desc = some d ∧ ((s.takeDesc c d job).chan c).unit = 0 ∧
      OtherChans c s (s.takeDesc c d job) := by
  unfold State.takeDesc
  generalize hu : s.updChan c _ = u
  have taken : (u.chan c).desc = some d ∧ (u.chan c).unit = 0 := by
    rw [← hu, State.chan_updChan_same]
    exact ⟨rfl, rfl⟩
  obtain ⟨paced, others⟩ := u.pump_chan c
  exact ⟨paced.desc.trans taken.1, paced.unit.trans taken.2, (hu ▸ otherChans_updChan s c _ : OtherChans c s u).trans others⟩

theorem State.pump_of_idle (h : (s.chan c).desc = none) : s.pump c = s := by
  unfold State.pump
  rw [h]

/-- R168: a channel at work takes nothing from its queue. -/
theorem State.iodNext_of_busy (h : (s.chan c).desc.isSome = true) (n : Nat) : s.iodNext c n = s := by
  cases n with
  | zero => rfl
  | succ n =>
    unfold State.iodNext
    dsimp only
    split
    · rfl
    · simp [h]

theorem State.iodNext_of_empty (h : (s.chan c).queue = []) (n : Nat) : s.iodNext c n = s := by
  cases n with
  | zero => rfl
  | succ n =>
    unfold State.iodNext
    dsimp only
    rw [h]

/-! ### Handoff (R129) -/

/-- R129, R157: the head goes to its channel, or stays at the queue's front, held with its status. -/
theorem handoff_effect {rest : List Desc} (head : (s.queue k 2).entries = d :: rest) :
    OtherPlots k s (handoff k s) ∧ OtherChans (4 * k + bCh d) s (handoff k s) ∧
      (bCheck s (4 * k + bCh d) d = none → ((handoff k s).queue k 2).entries = rest ∧
        ((handoff k s).chan (4 * k + bCh d)).desc = some d ∧ ((handoff k s).chan (4 * k + bCh d)).unit = 0) ∧
      ∀ st, bCheck s (4 * k + bCh d) d = some st → ((handoff k s).queue k 2).entries = d :: rest ∧
        ((handoff k s).queue k 2).held = true ∧ ((handoff k s).queue k 2).heldStatus = BitVec.ofNat 8 st ∧
        (handoff k s).chan (4 * k + bCh d) = s.chan (4 * k + bCh d) := by
  unfold handoff
  simp only [head]
  cases check : bCheck s (4 * k + bCh d) d with
  | some st =>
    dsimp only
    have held : SameBut [.regs, .plots] s (s.rejectHold k 2 d st) := State.rejectHold_same _ _ _ _ (.refl s) rfl
    obtain ⟨-, -, entries, isHeld, status⟩ := s.rejectHold_plot k 2 d st 0
    refine ⟨otherPlots_rejectHold s k 2 d st, held.otherChans (by decide), fun h => absurd h (by simp), fun st' h => ?_⟩
    obtain rfl := Option.some.inj h
    exact ⟨entries.trans head, isHeld, status, held.chan (by decide) _⟩
  | none =>
    dsimp only
    generalize hu : s.updQueue k 2 _ = u
    have updated : SameBut [.plots] s u := hu ▸ State.updQueue_same _ _ _ (.refl s) rfl
    have queue : (u.queue k 2).entries = rest := by rw [← hu, State.queue_updQueue_same]
    have took : SameBut [.regs, .chans, .reqTabs] u (u.takeDesc (4 * k + bCh d) d none) :=
      State.takeDesc_same _ _ _ (.refl u) rfl
    obtain ⟨desc, unit, others⟩ := u.takeDesc_chan (4 * k + bCh d) d none
    refine ⟨(hu ▸ otherPlots_updQueue s k 2 _ : OtherPlots k s u).trans (took.otherPlots (by decide) k),
      (updated.otherChans (by decide)).trans others, fun _ => ⟨?_, desc, unit⟩, fun _ h => absurd h (by simp)⟩
    unfold State.queue at queue ⊢
    rw [took.plot (by decide)]
    exact queue

/-! ### The end of a unit (R160 to R166) -/

theorem State.queue_updPlot {f : Plot → Plot} (hf : ∀ P q, (f P).queue q = P.queue q) (s : State) (k j q : Nat) :
    (s.updPlot k f).queue j q = s.queue j q := by
  unfold State.queue
  rw [State.plot_updPlot]
  split
  · subst_vars
    exact hf _ q
  · rfl

theorem SameBut.queue {w : List Fld} {s t : State} (h : SameBut w s t) (hw : Fld.plots ∉ w) (j q : Nat) :
    t.queue j q = s.queue j q := by
  unfold State.queue
  rw [h.plot hw]

/-- R155: a written element reaches no queue: a tank write changes the tank alone. -/
theorem writeElem_queue (s : State) (c : Nat) (d : Desc) (n : Nat) (data : List Byte) (bad : Bool) (j q : Nat) :
    ((writeElem s c d n data bad).st).queue j q = s.queue j q := by
  unfold writeElem
  dsimp only
  split
  · exact State.queue_updPlot (fun P q => by rcases q with _ | _ | _ | q <;> rfl) s _ j q
  · exact SameBut.queue (State.devWrite_same (msk := [.regs, .slices, .dram, .chk, .errs, .cores, .caches, .cnts, .wire])
      _ _ _ _ (.refl s) rfl) (by decide) j q
  · exact SameBut.queue (State.devWeir_same (msk := [.regs, .slices, .dram, .chk, .errs, .cores, .caches, .cnts, .wire])
      _ _ _ _ (.refl s) rfl) (by decide) j q
  · rfl

theorem moveElem_queue (m : Moved) (c : Nat) (d : Desc) (n j q : Nat) :
    (moveElem m c d n).st.queue j q = m.st.queue j q := by
  have read : SameBut [.freeCtr, .regs, .slices, .dram, .chk, .errs, .cores, .cnts, .wire] m.st (readElem m.st c d n).st :=
    readElem_same _ _ _ (.refl m.st) rfl
  unfold moveElem
  dsimp only
  generalize readElem m.st c d n = r at *
  generalize hf : (if bOverlap d = true then r.st.freeBytes (bBytes d) else (r.st, swapBytes (bSwap d) r.data)) = f
  have swapped : SameBut [.freeCtr, .regs, .slices, .dram, .chk, .errs, .cores, .cnts, .wire] m.st f.1 := by
    rw [← hf]
    split
    · exact State.freeBytes_same _ read rfl
    · exact read
  have written := (writeElem_queue f.1 c d n f.2 r.poison j q).trans (swapped.queue (by decide) j q)
  split_ifs
  · rfl
  · exact read.queue (by decide) j q
  · exact written
  · exact written

/-- R160: moved elements reach no queue. -/
theorem moveElems_queue (s : State) (c : Nat) (d : Desc) (n cnt j q : Nat) :
    (moveElems s c d n cnt).st.queue j q = s.queue j q := by
  have fold : ∀ (l : List Nat) (m : Moved), (l.foldl (fun m i => moveElem m c d (n + i)) m).st.queue j q = m.st.queue j q := by
    intro l
    induction l with
    | nil => exact fun _ => rfl
    | cons i l ih => exact fun m => (ih _).trans (moveElem_queue m c d (n + i) j q)
  exact fold _ _

/-- R164: what follows channel `c` is another channel. -/
theorem State.followers_chan (s : State) (c : Nat) : (s.followers c).chan c = s.chan c := by
  have fold : ∀ (p : State → Nat → Bool) (l : List Nat) (s : State),
      (l.foldl (fun s x => if x != c && p s x then (s.addGo x).pump x else s) s).chan c = s.chan c := by
    intro p l
    induction l with
    | nil => exact fun _ => rfl
    | cons x l ih =>
      intro s
      refine (ih _).trans ?_
      dsimp only
      split
      next go =>
        have other : c ≠ x := fun e => by simp [e] at go
        have started : (s.addGo x).chan c = s.chan c := by
          unfold State.addGo
          dsimp only
          split
          · simp only [State.setBit_others]
          · exact s.chan_setChan_ne _ other
        exact ((s.addGo x).pump_chan x).2 c other |>.trans started
      · rfl
  unfold State.followers
  exact fold _ _ s

/-- R160: a channel of a plot with nothing queued for it is idle when its descriptor ends. -/
theorem State.endDesc_idle (plot : isIod c = false) (empty : (s.queue (c / 4) 2).entries = []) (status : Nat) :
    ((s.endDesc c status).chan c).desc = none := by
  unfold State.endDesc
  dsimp only
  split
  next h => exact h
  next d _ =>
    have cleared : SameBut [.chans, .reqTabs] s (s.clearChan c) := State.clearChan_same _ (.refl s) rfl
    have idle : ((s.clearChan c).chan c).desc = none := by
      unfold State.clearChan
      dsimp only
      rw [State.chan_updChan_same]
    generalize s.clearChan c = t at *
    have done : SameBut [.regs, .plots, .net, .parts, .dbg, .cnts] t (t.complete (c / 4) 2 d status) :=
      State.complete_same _ _ _ _ (.refl t) rfl
    have stays : handoffOk (t.complete (c / 4) 2 d status) (c / 4) = false := by
      have entries : ((t.complete (c / 4) 2 d status).queue (c / 4) 2).entries = [] := by
        refine ((t.complete_plot (c / 4) 2 d status (c / 4)).1.entries 2).trans ?_
        exact (congrArg PQueue.entries (cleared.queue (by decide) (c / 4) 2)).trans empty
      unfold handoffOk
      simp only [entries]
    simp only [plot, stays, Bool.false_eq_true, if_false]
    rw [done.chan (by decide)]
    exact idle

/-- R160 to R166: a unit's completion moves its elements, and then touches memory no more. -/
theorem finishUnit_effect {m : Moved} (desc : (s.chan c).desc = some d) (found : (s.chan c).lost = false)
    (unfenced : (s.chan c).fenced = false) (goes : (s.chan c).aborted = false)
    (hm : m = moveElems s c d (s.chan c).pos (if bDstK d = 2 then 0 else unitFirst (s.chan c) d + bUnitElems d - (s.chan c).pos)) :
    (finishUnit c s).dram = m.st.dram ∧ (finishUnit c s).chk = m.st.chk ∧
      (m.lost = false → (s.chan c).unit + 1 < bUnits d →
        ((finishUnit c s).chan c).unit = (s.chan c).unit + 1 ∧ ((finishUnit c s).chan c).desc = some d) ∧
      (m.lost = false → bUnits d ≤ (s.chan c).unit + 1 → isIod c = false → (s.queue (c / 4) 2).entries = [] →
        ((finishUnit c s).chan c).desc = none) := by
  have moves : SameBut [.freeCtr, .regs, .plots, .slices, .dram, .chk, .errs, .cores, .caches, .cnts, .wire] s m.st :=
    hm ▸ moveElems_same _ _ _ _ (.refl s) rfl
  have queue : ∀ j q, m.st.queue j q = s.queue j q := fun j q => hm ▸ moveElems_queue s c d _ _ j q
  unfold finishUnit
  simp only [desc, found, unfenced, goes, Bool.or_self, Bool.false_eq_true, if_false]
  rw [← hm]
  cases lost : m.lost with
  | true =>
    simp only [if_true]
    generalize hv : m.st.updChan c _ = v
    have noted : SameBut [.chans] m.st v := hv ▸ State.updChan_same _ _ (.refl m.st) rfl
    have ended : SameBut [.regs, .plots, .chans, .net, .reqTabs, .parts, .rings, .cores, .dbg, .cnts, .wire] m.st
      (v.endDesc c 0x12) := State.endDesc_same _ _ (noted.mono rfl) rfl
    exact ⟨ended.dram (by decide), ended.chk (by decide), fun h => absurd h (by decide), fun h => absurd h (by decide)⟩
  | false =>
    simp only [Bool.false_eq_true, if_false]
    generalize hs1 : (m.st.countUnit c d (unitFirst (s.chan c) d) (bUnitElems d)).reqDrop c _ = s1
    have counted : SameBut [.regs, .reqTabs, .cnts] m.st s1 :=
      hs1 ▸ State.reqDrop_same _ _ (State.countUnit_same _ _ _ _ (.refl m.st) rfl) rfl
    have chan1 : s1.chan c = s.chan c := (counted.chan (by decide) c).trans (moves.chan (by decide) c)
    generalize hs2 : s1.updChan c _ = s2
    have stepped : SameBut [.regs, .chans, .reqTabs, .cnts] m.st s2 :=
      hs2 ▸ State.updChan_same _ _ (counted.mono rfl) rfl
    have unit2 : (s2.chan c).unit = (s.chan c).unit + 1 ∧ (s2.chan c).desc = some d := by
      rw [← hs2, State.chan_updChan_same, chan1]
      exact ⟨rfl, desc⟩
    generalize hs3 : (s2.followers c).notify c d = s3
    have followed : SameBut [.regs, .chans, .net, .reqTabs, .cnts] m.st s3 :=
      hs3 ▸ State.notify_same _ _ (State.followers_same _ (stepped.mono rfl) rfl) rfl
    have chan3 : s3.chan c = s2.chan c := by
      rw [← hs3, SameBut.chan (w := [.regs, .net, .cnts]) (State.notify_same _ _ (.refl (s2.followers c)) rfl) (by decide)]
      exact s2.followers_chan c
    split
    next last =>
      have ended : SameBut [.regs, .plots, .chans, .net, .reqTabs, .parts, .rings, .cores, .dbg, .cnts, .wire] m.st
        (s3.endDesc c (endStatus (s3.chan c))) := State.endDesc_same _ _ (followed.mono rfl) rfl
      refine ⟨ended.dram (by decide), ended.chk (by decide), fun _ more => by omega, fun _ _ plot empty => ?_⟩
      refine State.endDesc_idle plot ?_ _
      rw [followed.queue (by decide), queue]
      exact empty
    next more =>
      have ended : SameBut [.regs, .chans, .net, .reqTabs, .cnts] m.st (s3.pump c) := State.pump_same _ followed rfl
      refine ⟨ended.dram (by decide), ended.chk (by decide), fun _ _ => ?_, fun _ last => absurd last more⟩
      have paced := (s3.pump_chan c).1
      rw [paced.unit, paced.desc, chan3]
      exact unit2

/-! ### Due times (R165) -/

theorem State.fld_addFld_same (s : State) (a n : Nat) {lo w : Nat} (h : lo + w ≤ 32) :
    (s.addFld a lo w n).fld a lo w = satAdd w (s.fld a lo w) n := by
  have pos : 0 < 2 ^ w := Nat.two_pow_pos w
  have below : satAdd w (s.fld a lo w) n < 2 ^ w := by
    unfold satAdd
    omega
  unfold State.addFld
  rw [State.fld_setFld_same _ _ _ h, Nat.mod_eq_of_lt below]

/-- R165: a due time of an idle grid starts a unit. -/
theorem timerDue_starts (idle : (s.chan c).phase ≠ .moving) :
    ((timerDue c d s).chan c).phase = .moving ∧ ((timerDue c d s).chan c).grid = (s.chan c).grid + 1 := by
  have rests : ((s.chan c).phase == .moving) = false := by simpa using idle
  unfold timerDue
  simp only [rests, Bool.false_eq_true, if_false]
  obtain ⟨b, started⟩ := ((s.setChan c { s.chan c with grid := (s.chan c).grid + 1 }).startUnit_chan c d).1
  rw [started, State.chan_setChan_same]
  exact ⟨rfl, rfl⟩

/-- R165: a due time while a unit moves makes the next unit late, or is missed where one is late already. -/
theorem timerDue_misses (moving : (s.chan c).phase = .moving) (more : (s.chan c).unit + 1 < bUnits d) :
    ((timerDue c d s).chan c).grid = (s.chan c).grid + 1 ∧ ((timerDue c d s).chan c).late = true ∧
      if (s.chan c).late then (timerDue c d s).fld (brgReg c 0x050) 16 16 = satAdd 16 (s.fld (brgReg c 0x050) 16 16) 1
      else (timerDue c d s).fld (brgReg c 0x050) 0 16 = satAdd 16 (s.fld (brgReg c 0x050) 0 16) 1 := by
  generalize ha : brgReg c 0x050 = a
  have counted : ∀ lo, lo + 16 ≤ 32 → ∀ C : Chan,
      ((s.addFld a lo 16 1).setChan c C).fld a lo 16 = satAdd 16 (s.fld a lo 16) 1 := fun lo h C =>
    (State.setChan_fld _ c C a lo 16).trans (s.fld_addFld_same a 1 h)
  unfold timerDue
  simp only [moving, beq_self_eq_true, if_true, if_neg (Nat.not_le.2 more), ha]
  cases late : (s.chan c).late with
  | true =>
    simp only [if_true]
    refine ⟨?_, ?_, counted 16 (by decide) _⟩ <;> rw [State.chan_setChan_same]
  | false =>
    simp only [Bool.false_eq_true, if_false]
    refine ⟨?_, ?_, counted 0 (by decide) _⟩ <;> rw [State.chan_setChan_same]

/-! ### Registers of a channel (R164, R168, R169) -/

@[simp] theorem State.reqStepped_chan (s : State) (r : Req) (j : Nat) : (s.reqStepped r).chan j = s.chan j :=
  (s.reqStepped_frame r).chan (by decide) j

/-- R168: the page of an I/O die channel posts its events at offset 0x014. -/
theorem State.irq_brgReg_bit (s : State) (n : Fin 32) {i : Nat} (hi : i < 32) :
    (s.irq (brgReg (2048 + n.val) 0) i).bit (brgReg (2048 + n.val) 0x014) i = true := by
  have address : brgReg (2048 + n.val) 0 / 4096 * 4096 + 0x014 = brgReg (2048 + n.val) 0x014 := by
    unfold brgReg regAddr
    split_ifs <;> omega
  rw [State.irq, address]
  exact s.bit_setBit_same _ hi

/-- R168: a push enters a running queue with room, and is refused with its interrupt otherwise. -/
theorem brgPush_effect (s : State) (n : Fin 32) :
    ((s.chan (2048 + n.val)).state ≠ .running → (brgPush n.val s).chan (2048 + n.val) = s.chan (2048 + n.val) ∧
      (brgPush n.val s).bit (brgReg (2048 + n.val) 0x014) 1 = true) ∧
    ((s.chan (2048 + n.val)).state = .running → 4 ≤ (s.chan (2048 + n.val)).queue.length →
      (brgPush n.val s).chan (2048 + n.val) = s.chan (2048 + n.val) ∧
        (brgPush n.val s).bit (brgReg (2048 + n.val) 0x014) 0 = true) ∧
    ((s.chan (2048 + n.val)).state = .running → (s.chan (2048 + n.val)).queue.length < 4 →
      (s.chan (2048 + n.val)).desc.isSome = true →
      ((brgPush n.val s).chan (2048 + n.val)).queue =
        (s.chan (2048 + n.val)).queue ++ [(windowDesc (s.chan (2048 + n.val)).window, none)]) := by
  have posted : ∀ i < 32, (s.irq (brgReg (2048 + n.val) 0) i).chan (2048 + n.val) = s.chan (2048 + n.val) ∧
      (s.irq (brgReg (2048 + n.val) 0) i).bit (brgReg (2048 + n.val) 0x014) i = true := fun i hi =>
    ⟨by simp only [State.irq_others], s.irq_brgReg_bit n hi⟩
  unfold brgPush
  dsimp only
  refine ⟨fun halted => ?_, fun runs full => ?_, fun runs room busy => ?_⟩
  · rw [if_pos (by simpa using halted)]
    exact posted 1 (by decide)
  · rw [if_neg (by simp [runs]), if_pos full]
    exact posted 0 (by decide)
  · rw [if_neg (by simp [runs]), if_neg (by omega)]
    generalize hu : s.setChan (2048 + n.val) _ = u
    have queued : u.chan (2048 + n.val) = { s.chan (2048 + n.val) with
        queue := (s.chan (2048 + n.val)).queue ++ [(windowDesc (s.chan (2048 + n.val)).window, none)] } :=
      hu ▸ State.chan_setChan_same s _ _
    rw [State.iodNext_of_busy (by rw [queued]; exact busy), queued]

/-- R169: a read of `BRG_CPL` answers the oldest record and lets a held one in. -/
theorem popBrg_effect (s : State) (n : Nat) :
    match (s.chan (2048 + n)).cpl with
    | [] => (popBrg n s).reply = { data := leBytes 4 0 } ∧ (popBrg n s).chan (2048 + n) = s.chan (2048 + n)
    | x :: rest => (popBrg n s).reply = { data := leBytes 4 (brgCplWord x) } ∧
        ((s.chan (2048 + n)).queue = [] →
          ((popBrg n s).chan (2048 + n)).cpl = (rest ++ (s.chan (2048 + n)).heldRecs).take 4) := by
  unfold popBrg
  dsimp only
  cases records : (s.chan (2048 + n)).cpl with
  | nil => exact ⟨rfl, rfl⟩
  | cons x rest =>
    dsimp only
    refine ⟨rfl, fun empty => ?_⟩
    generalize hu : s.setChan (2048 + n) _ = u
    have popped : (u.chan (2048 + n)).cpl = (rest ++ (s.chan (2048 + n)).heldRecs).take 4 ∧ (u.chan (2048 + n)).queue = [] := by
      rw [← hu, State.chan_setChan_same]
      exact ⟨rfl, empty⟩
    rw [State.iodNext_of_empty popped.2]
    exact popped.1

/-- R164: GO adds a start event to an idle channel. -/
theorem brgGo_of_idle (idle : (s.chan c).desc = none) (room : (s.chan c).goPend < 255) :
    brgGo c false s = s.setChan c { s.chan c with goPend := (s.chan c).goPend + 1 } := by
  have added : s.addGo c = s.setChan c { s.chan c with goPend := (s.chan c).goPend + 1 } :=
    if_neg (by omega)
  have stays : ((s.setChan c { s.chan c with goPend := (s.chan c).goPend + 1 }).chan c).desc = none := by
    rw [State.chan_setChan_same]
    exact idle
  unfold brgGo
  rw [if_neg (by decide), added]
  exact State.pump_of_idle stays

/-- Settles O24: each command is its operation on its own channel; the end of a unit is the moving of its rest, after which
memory is touched no more. -/
theorem bargeChannelsTakeAndMoveUnits : Obligations.BargeChannelsTakeAndMoveUnits := by
  unfold Obligations.BargeChannelsTakeAndMoveUnits
  refine ⟨fun s => ⟨?_, ?_, ?_, ?_⟩, ?_⟩
  · rintro p _ d rest rfl ok head
    obtain ⟨others, chans, takes, rejects⟩ := handoff_effect head
    refine ⟨_, congrArg Host.Outcome.next (if_pos ok), handoff_same _ (.refl s) rfl, others, chans, ?_⟩
    cases check : bCheck s (4 * plotKey p + bCh d) d with
    | none => exact takes check
    | some st => exact rejects st check
  · rintro r n _ rfl served
    obtain ⟨halted, full, room⟩ := brgPush_effect (s.reqStepped r) n
    simp only [State.reqStepped_chan] at halted full room
    have frame : SameBut [.dbg, .regs, .chans, .net, .reqTabs, .rings, .cores, .wire] s (brgPush n.val (s.reqStepped r)) :=
      brgPush_same _ ((s.reqStepped_frame r).mono rfl) rfl
    exact ⟨_, outcome_access _ served, frame.plots (by decide), frame.dram (by decide), halted, full, room⟩
  · rintro r c _ rfl served
    have clears : ∀ t : State, brgGo (chanKey c) true t = t.updChan (chanKey c) fun C => { C with goPend := 0 } :=
      fun _ => if_pos rfl
    refine ⟨⟨_, (outcome_access _ served).trans (congrArg _ (clears _)), State.updChan_same _ _ (.refl _) rfl, ?_, fun j hj => ?_⟩, fun idle room => ?_⟩
    · exact congrArg Chan.goPend (State.chan_updChan_same _ _ _)
    · exact (otherChans_updChan _ _ _ j hj).trans (s.reqStepped_chan r j)
    · have go := brgGo_of_idle (s := s.reqStepped r) (c := chanKey c) (by simpa using idle) (by simpa using room)
      refine ⟨_, (outcome_access _ served).trans (congrArg _ go), State.setChan_same _ _ (.refl _) rfl, ?_, fun j hj => ?_⟩
      · rw [State.chan_setChan_same, State.reqStepped_chan]
      · exact (otherChans_setChan _ _ _ j hj).trans (s.reqStepped_chan r j)
  · rintro r n _ rfl served
    have effect := popBrg_effect (s.reqStepped r) n.val
    simp only [State.reqStepped_chan] at effect
    have frame : SameBut [.dbg, .reply, .regs, .chans, .net, .reqTabs, .rings, .cores, .wire] s
      (popBrg n.val (s.reqStepped r)) := popBrg_same _ ((s.reqStepped_frame r).mono rfl) rfl
    exact ⟨_, outcome_readAccess _ 4 served, frame.plots (by decide), frame.dram (by decide), effect⟩
  · rintro s t c _ d rfl
    refine ⟨?_, ?_⟩
    · rintro rfl ok desc found unfenced goes m hm
      obtain ⟨dram, chk, next_, last⟩ := finishUnit_effect desc found unfenced goes hm
      have readied : SameBut [.freeCtr, .regs, .chans, .slices, .dram, .chk, .reqTabs, .errs, .cores, .cnts, .wire] s
        (s.ready (chanKey c)) := State.ready_same _ (.refl s) rfl
      have finished : SameBut [.freeCtr, .regs, .plots, .chans, .slices, .dram, .chk, .net, .reqTabs, .parts, .rings, .errs,
        .cores, .caches, .dbg, .cnts, .wire] s (finishUnit (chanKey c) (s.ready (chanKey c))) :=
        finishUnit_same _ (readied.mono rfl) rfl
      exact ⟨_, congrArg Host.Outcome.next (if_pos ok), finished.fuses (by decide), dram, chk, next_, last⟩
    · rintro rfl ok desc
      have due : (match ((s.pump (chanKey c)).chan (chanKey c)).desc with
          | some d => timerDue (chanKey c) d (s.pump (chanKey c))
          | none => s.pump (chanKey c)) = timerDue (chanKey c) d (s.pump (chanKey c)) := by rw [desc]
      refine ⟨_, congrArg Host.Outcome.next ((if_pos ok).trans due), ?_, timerDue_starts, timerDue_misses⟩
      exact timerDue_same _ _ (State.pump_same _ (.refl s) rfl) rfl

end Sys2Proof.Machine
end

section
/-!
Bytes of the cisterns (R220 to R230, R244 to R249): byte strings read after writes, code words that are clean, and the weir
operation inside one of them.
-/
namespace Sys2Proof.Machine

variable {s : State} {k w : Nat}

/-! ### Byte strings -/

theorem tgets_eq_map {α : Type} (d : α) (t : Tbl α) (i n : Nat) : tgets d t i n = (List.range n).map fun j => tget d t (i + j) := by
  induction n generalizing i with
  | zero => rfl
  | succ n ih =>
    rw [tgets, ih, List.range_succ_eq_map, List.map_cons, List.map_map]
    congr 1
    exact List.map_congr_left fun j _ => congrArg (tget d t) (show i + 1 + j = i + (j + 1) by omega)

@[simp] theorem length_tgets {α : Type} (d : α) (t : Tbl α) (i n : Nat) : (tgets d t i n).length = n := by
  simp [tgets_eq_map]

@[simp] theorem length_slice (l : List Byte) (i n : Nat) : (slice l i n).length = n := by simp [slice]

@[simp] theorem length_leBytes (n v : Nat) : (leBytes n v).length = n := by
  induction n generalizing v with
  | zero => rfl
  | succ n ih => simp [leBytes, ih]

theorem nth_tgets (t : Tbl Byte) {i n j : Nat} (h : j < n) : nth 0 (tgets 0 t i n) j = tget 0 t (i + j) := by
  simp [nth, tgets_eq_map, h]

/-- A part of what is stored is what is stored there. -/
theorem slice_tgets (t : Tbl Byte) {a m i n : Nat} (h : i + n ≤ m) : slice (tgets 0 t a m) i n = tgets 0 t (a + i) n := by
  rw [tgets_eq_map 0 t (a + i)]
  refine List.map_congr_left fun j hj => ?_
  rw [nth_tgets t (by have := List.mem_range.1 hj; omega), Nat.add_assoc]

theorem slice_all (l : List Byte) : slice l 0 l.length = l := by
  refine List.ext_getElem (by simp) fun j h _ => ?_
  have : j < l.length := by simpa using h
  simp [slice, nth, this]

/-- What a write leaves at each address. -/
theorem tget_tputs (t : Tbl Byte) (l : List Byte) (a b : Nat) :
    tget 0 (tputs 0 t a l) b = if a ≤ b ∧ b < a + l.length then nth 0 l (b - a) else tget 0 t b := by
  split
  next h =>
    have inside : b - a < l.length := by omega
    have stored := tget_tputs_in 0 l t a (b - a) inside
    rw [Nat.add_sub_cancel' h.1] at stored
    rw [stored]
    simp [nth, inside]
  next h => exact tget_tputs_out _ _ _ _ _ (by omega)

theorem length_setNth {l : List Byte} {i : Nat} (x : Byte) (h : i < l.length) : (setNth 0 l i x).length = l.length := by
  simp [setNth, h]

theorem nth_setNth {l : List Byte} {i : Nat} (x : Byte) (j : Nat) (h : i < l.length) :
    nth 0 (setNth 0 l i x) j = if j = i then x else nth 0 l j := by
  unfold setNth nth
  rw [if_pos h]
  simp only [List.getD_eq_getElem?_getD, List.getElem?_set, h, if_true, eq_comm (a := i)]
  split <;> rfl

theorem length_putBytes {l bs : List Byte} {i : Nat} (h : i + bs.length ≤ l.length) : (putBytes l i bs).length = l.length := by
  induction bs generalizing l i with
  | nil => rfl
  | cons b bs ih =>
    simp only [List.length_cons] at h
    have := length_setNth b (show i < l.length by omega)
    rw [putBytes, ih (by omega), this]

/-- Bytes written over a byte string are read back, and the others stay. -/
theorem nth_putBytes {l bs : List Byte} {i : Nat} (j : Nat) (h : i + bs.length ≤ l.length) :
    nth 0 (putBytes l i bs) j = if i ≤ j ∧ j < i + bs.length then nth 0 bs (j - i) else nth 0 l j := by
  induction bs generalizing l i with
  | nil => rw [putBytes, if_neg (by simp only [List.length_nil]; omega)]
  | cons b bs ih =>
    simp only [List.length_cons] at h ⊢
    have inside : i < l.length := by omega
    rw [putBytes, ih (by rw [length_setNth b inside]; omega), nth_setNth b j inside]
    rcases Nat.lt_trichotomy j i with hj | rfl | hj
    · rw [if_neg (by omega), if_neg (by omega), if_neg (by omega)]
    · rw [if_neg (by omega), if_pos rfl, if_pos (by omega), Nat.sub_self]
      rfl
    · by_cases hin : j < i + (bs.length + 1)
      · rw [if_pos (by omega), if_pos (by omega), show j - i = j - (i + 1) + 1 by omega]
        rfl
      · rw [if_neg (by omega), if_neg (by omega), if_neg (by omega)]

theorem slice_putBytes {l bs : List Byte} {i : Nat} (h : i + bs.length ≤ l.length) :
    slice (putBytes l i bs) i bs.length = bs := by
  refine Eq.trans ?_ (slice_all bs)
  refine List.map_congr_left fun j hj => ?_
  have := List.mem_range.1 hj
  rw [nth_putBytes _ h, if_pos (by omega)]
  congr 1
  omega

/-! ### Clean words (R241, R244, R246) -/

theorem rawWord_of_dram {t : State} (h : t.dram = s.dram) (k w : Nat) : rawWord t k w = rawWord s k w := by
  unfold rawWord
  rw [h]

theorem rawChk_of_chk {t : State} (h : t.chk = s.chk) (k w : Nat) : rawChk t k w = rawChk s k w := by
  unfold rawChk
  rw [h]

theorem length_rawWord (s : State) (k w : Nat) : (rawWord s k w).length = 32 := length_tgets _ _ _ _

/-- R244: a clean word reads as it is stored. -/
theorem readWord_of_clean (clean : rawChk s k w = 0) (src : Src) : readWord s k w src = (s, rawWord s k w, false) := by
  have class_ : classify (rawChk s k w) = .clean := by rw [clean]; rfl
  unfold readWord
  simp only [class_]

theorem storeWord_of_noFlip {src : Src} (quiet : flipOn s k src = false) (bs : List Byte) (bad : Bool) :
    s.storeWord k w bs bad src = s.putWord k w bs (if bad then poisonMark else 0) := by
  unfold State.storeWord
  simp [quiet]

@[simp] theorem rawChk_putWord_same (s : State) (k w : Nat) (bs : List Byte) (d : Nat) :
    rawChk (s.putWord k w bs d) k w = d % 2 ^ 32 := by
  simp [rawChk, State.putWord]

/-- R220: what a stored word leaves at each address. -/
theorem tget_putWord (s : State) (k w : Nat) {bs : List Byte} (d a : Nat) (h : bs.length = 32) :
    tget 0 (s.putWord k w bs d).dram a =
      if byteKey k (32 * w) ≤ a ∧ a < byteKey k (32 * w) + 32 then nth 0 bs (a - byteKey k (32 * w)) else tget 0 s.dram a := by
  refine (tget_tputs s.dram bs _ a).trans ?_
  rw [h]

theorem nth_rawWord (s : State) (k w : Nat) {j : Nat} (h : j < 32) :
    nth 0 (rawWord s k w) j = tget 0 s.dram (byteKey k (32 * w) + j) := nth_tgets s.dram h

/-- R246: bytes written over part of a word are stored there, and the memory around them stays. -/
theorem tget_putWord_putBytes (s : State) (k w : Nat) {lo : Nat} {bs : List Byte} (d a : Nat) (h : lo + bs.length ≤ 32) :
    tget 0 (s.putWord k w (putBytes (rawWord s k w) lo bs) d).dram a =
      if byteKey k (32 * w) + lo ≤ a ∧ a < byteKey k (32 * w) + lo + bs.length then nth 0 bs (a - (byteKey k (32 * w) + lo))
      else tget 0 s.dram a := by
  have fits : lo + bs.length ≤ (rawWord s k w).length := by rwa [length_rawWord]
  rw [tget_putWord s k w d a ((length_putBytes fits).trans (length_rawWord s k w)), nth_putBytes _ fits]
  by_cases inWord : byteKey k (32 * w) ≤ a ∧ a < byteKey k (32 * w) + 32
  · rw [if_pos inWord]
    by_cases written : byteKey k (32 * w) + lo ≤ a ∧ a < byteKey k (32 * w) + lo + bs.length
    · rw [if_pos (by omega), if_pos written, Nat.sub_sub]
    · rw [if_neg (by omega), if_neg written, nth_rawWord s k w (by omega)]
      congr 1
      omega
  · rw [if_neg inWord, if_neg (by omega)]

theorem tgets_eq_of_nth {t : Tbl Byte} {a : Nat} {l : List Byte} (h : ∀ j < l.length, tget 0 t (a + j) = nth 0 l j) :
    tgets 0 t a l.length = l := by
  rw [tgets_eq_map]
  refine Eq.trans (List.map_congr_left fun j hj => ?_) (slice_all l)
  rw [h j (List.mem_range.1 hj), Nat.zero_add]

/-! ### Weir operations (R224 to R227) -/

/-- R224: the elements that a weir takes are whole lanes. -/
theorem lanes_of_weirOk {op esize n : Nat} (plain : op ≠ 0xC) (ok : weirOk op esize n = true) :
    n / laneBytes op * laneBytes op = n ∧ 0 < n := by
  have table : ∀ op < 13, ∀ esize < 6, ∀ n ∈ [1, 2, 4, 8, 32, 256], op ≠ 0xC → weirOk op esize n = true →
      n / laneBytes op * laneBytes op = n ∧ 0 < n := by decide
  have parts := ok
  unfold weirOk at parts
  rw [if_neg plain, Bool.and_eq_true_iff, beq_iff_eq] at parts
  obtain ⟨pair, size⟩ := parts
  have known : op < 13 := by
    by_contra beyond
    obtain ⟨m, rfl⟩ := Nat.exists_eq_add_of_le' (Nat.not_lt.1 beyond)
    have unknown : weirLane (m + 13) = none := rfl
    simp [weirPairOk, unknown] at pair
  have small : esize < 6 := by
    unfold weirPairOk at pair
    have := (Bool.and_eq_true_iff.1 pair).1
    have := of_decide_eq_true this
    omega
  refine table op known esize small n ?_ plain ok
  split at size <;> simp [size]

theorem length_flatMap_leBytes {α : Type} (l : List α) (n : Nat) (f : α → Nat) :
    (l.flatMap fun x => leBytes n (f x)).length = l.length * n := by
  induction l with
  | nil => simp
  | cons x l ih =>
    rw [List.flatMap_cons, List.length_append, ih, length_leBytes, List.length_cons]
    ring

/-- R225: an operation keeps the size of its element. -/
theorem length_weirBytes {op : Nat} (old x : List Byte) (whole : x.length / laneBytes op * laneBytes op = x.length) :
    (weirBytes op old x).1.length = x.length := by
  unfold weirBytes
  dsimp only
  rw [length_flatMap_leBytes, List.length_map, List.length_range, whole]

/-- R224, R227: a weir operation inside a clean word stores its lanes and answers the stored bytes. -/
theorem weirWord_of_clean {op lo : Nat} {x : List Byte} (plain : op ≠ 0xC) (clean : rawChk s k w = 0)
    (quiet : flipOn s k .rmw = false) (old : List Byte) (hold : old = slice (rawWord s k w) lo x.length) :
    weirWord s k w lo op x false =
      ((s.putWord k w (putBytes (rawWord s k w) lo (weirBytes op old x).1) 0).weirFlags k (weirBytes op old x).2, old, false) := by
  subst hold
  unfold weirWord
  simp only [plain, if_false, readWord_of_clean clean, Bool.false_eq_true, storeWord_of_noFlip quiet]

/-- R208: an element inside one word touches that word. -/
theorem codeWords_of_inside {off n : Nat} (some_ : 0 < n) (inside : off % 32 + n ≤ 32) : codeWords off n = [off / 32] := by
  have same : (off + n - 1) / 32 = off / 32 := by omega
  unfold codeWords
  rw [if_neg (by omega), same, Nat.sub_self]
  simp

theorem weirWords_of_inside {off op : Nat} {x : List Byte} (bad : Bool) (inside : off % 32 + x.length ≤ 32) :
    weirWords s k off op x bad [off / 32] = weirWord s k (off / 32) (off % 32) op x bad := by
  have first : max off (32 * (off / 32)) = off := by omega
  have last : min (off + x.length) (32 * (off / 32) + 32) = off + x.length := by omega
  have place : off - 32 * (off / 32) = off % 32 := by omega
  simp only [weirWords, first, last, place, Nat.sub_self, Nat.add_sub_cancel_left, slice_all, List.append_nil, Bool.or_false]

/-- R255: a slice's registers are none of its plot's counter page. -/
theorem slcReg_ne_cntPage {off i : Nat} (hk : k < 512) (hi : i < 4096) : slcReg k off ≠ cntPage k i := by
  unfold cntPage slcReg regAddr
  rw [if_pos hk]
  omega

/-- R227, R412: a weir operation first drops the cached lines and counts; memory is as it was. -/
theorem cisWeir_of_clean {op off : Nat} {x : List Byte} (hk : k < 512) (plain : op ≠ 0xC) (some_ : 0 < x.length)
    (inside : off % 32 + x.length ≤ 32) (clean : rawChk s k (off / 32) = 0) (quiet : flipOn s k .rmw = false)
    {old : List Byte} (hold : old = tgets 0 s.dram (byteKey k off) x.length) :
    ∃ t, SameBut [.regs, .cores, .caches, .cnts] s t ∧
      s.cisWeir k op off x false =
        ((t.putWord k (off / 32) (putBytes (rawWord t k (off / 32)) (off % 32) (weirBytes op old x).1) 0).weirFlags k
          (weirBytes op old x).2, old, false) := by
  unfold State.cisWeir
  simp only [plain, if_false]
  generalize ht : State.count _ k 39 _ = t
  have counted : SameBut [.regs, .cores, .caches, .cnts] s t := ht ▸ State.count_same _ _ _ (State.count_same _ _ _
    (State.count_same _ _ _ (State.count_same _ _ _ (State.dropLines_same _ _ _ (.refl s) rfl) rfl) rfl) rfl) rfl
  have regs : RegsBut (· = cntPage k 0x044) s t := by
    have dropped : RegsBut (· = cntPage k 0x044) s (s.dropLines k off x.length) :=
      (RegsBut.refl s).same (State.dropLines_same (msk := [.cores, .caches]) _ _ _ (.refl s) rfl) (by decide)
    rw [← ht]
    exact (((dropped.count rfl).count rfl).count rfl).count rfl
  have quiet' : flipOn t k .rmw = false := by
    have flips : ∀ lo w, t.fld (slcReg k 0x058) lo w = s.fld (slcReg k 0x058) lo w := fun lo w =>
      regs.fld (slcReg_ne_cntPage hk (by decide)) lo w
    unfold flipOn State.bit at *
    simpa only [flips] using quiet
  have clean' : rawChk t k (off / 32) = 0 := (rawChk_of_chk (counted.chk (by decide)) k _).trans clean
  have stored : old = slice (rawWord t k (off / 32)) (off % 32) x.length := by
    have place : byteKey k (32 * (off / 32)) + off % 32 = byteKey k off := by
      unfold byteKey
      omega
    rw [rawWord_of_dram (counted.dram (by decide)), rawWord, slice_tgets _ inside, place]
    exact hold
  refine ⟨t, counted, ?_⟩
  rw [codeWords_of_inside some_ inside, weirWords_of_inside false inside, weirWord_of_clean plain clean' quiet' old stored]

/-- Settles O26: inside one clean word an operation reads, computes and stores the word. -/
theorem weirsApplyTheirLanes : Obligations.WeirsApplyTheirLanes := by
  unfold Obligations.WeirsApplyTheirLanes
  rintro s p _ op esize off operand fetch rfl plain ok inCis inside go clean quiet old hold
  obtain ⟨whole, some_⟩ := lanes_of_weirOk plain ok
  obtain ⟨t, counted, weir⟩ := cisWeir_of_clean (op := op.toNat) (plotKey_lt p) plain some_ inside clean quiet hold
  have length := length_weirBytes old operand whole
  have op' : op ≠ 0xC := fun e => plain (by rw [e]; rfl)
  have up : cisternUp s (plotKey p) = true := by
    unfold writeGo readGo at go
    simp only [Bool.and_eq_true] at go
    exact go.1.1.1.1
  generalize (weirBytes op.toNat old operand).1 = new at *
  generalize hv : t.putWord (plotKey p) (off / 32) (putBytes (rawWord t (plotKey p) (off / 32)) (off % 32) new) 0 = v at weir
  generalize hu : v.weirFlags (plotKey p) (weirBytes op.toNat old operand).2 = u at weir
  have flags : SameBut [.regs] v u := hu ▸ State.weirFlags_same _ _ (.refl v) rfl
  have applied : exec (.weirOpApply p op esize off operand false fetch) s = .next (u.answerCis (if fetch then old else []) false) := by
    refine congrArg Host.Outcome.next ?_
    simp only [op', if_false, inCis, up, ok, go, Bool.and_self, Bool.not_true, Bool.false_eq_true, if_true, weir]
  have place : byteKey (plotKey p) (32 * (off / 32)) + off % 32 = byteKey (plotKey p) off := by
    unfold byteKey
    omega
  have memory : ∀ a, tget 0 u.dram a =
      if byteKey (plotKey p) off ≤ a ∧ a < byteKey (plotKey p) off + operand.length then nth 0 new (a - byteKey (plotKey p) off)
      else tget 0 s.dram a := by
    intro a
    have stored := tget_putWord_putBytes t (plotKey p) (off / 32) (lo := off % 32) (bs := new) 0 a (by omega)
    rw [hv, place, length, counted.dram (by decide)] at stored
    rw [flags.dram (by decide)]
    exact stored
  have stored : SameBut [.regs, .dram, .chk, .cores, .caches, .cnts] s v :=
    hv ▸ State.putWord_same _ _ _ _ (counted.mono rfl) rfl
  have answered : SameBut [.reply] u (u.answerCis (if fetch then old else []) false) := State.answerCis_same _ _ (.refl u) rfl
  refine ⟨_, applied, (stored.mono rfl).trans ((flags.mono rfl).trans (answered.mono rfl)), ?_, rfl, ?_, fun a ha => ?_⟩
  · have read : tgets 0 u.dram (byteKey (plotKey p) off) new.length = new := by
      refine tgets_eq_of_nth fun j hj => ?_
      rw [memory, if_pos (by omega), Nat.add_sub_cancel_left]
    rw [length] at read
    rw [answered.dram (by decide)]
    exact read
  · rw [rawChk_of_chk (answered.chk (by decide)), rawChk_of_chk (flags.chk (by decide)), ← hv]
    exact rawChk_putWord_same t _ _ _ 0
  · rw [answered.dram (by decide), memory a, if_neg (by omega)]

end Sys2Proof.Machine
end

section
/-!
Slice controllers (R230 to R233, R248 to R257, R270): refreshes, bands, fills, scrubs, error windows, reports and row
repairs.
-/
namespace Sys2Proof.Machine

variable {s : State} {k : Nat}

/-! ### Fields inside fields -/

theorem nbits_nbits (v lo w i n : Nat) (h : i + n ≤ w) : nbits (nbits v lo w) i n = nbits v (lo + i) n := by
  unfold nbits
  refine Nat.eq_of_testBit_eq fun j => ?_
  simp only [Nat.testBit_mod_two_pow, Nat.testBit_div_two_pow]
  by_cases hj : j < n
  · simp [hj, show j + i < w by omega, show j + (lo + i) = j + i + lo by omega]
  · simp [hj]

theorem nbit_eq_nbits (v i : Nat) : nbit v i = (nbits v i 1 == 1) := rfl

/-- A field inside one just written. -/
theorem State.fld_setFld_inside (s : State) (a x : Nat) {lo w i n : Nat} (h : lo + w ≤ 32) (inside : i + n ≤ w) :
    (s.setFld a lo w x).fld a (lo + i) n = nbits x i n := by
  have whole := s.fld_setFld_same a x h
  unfold State.fld at *
  rw [← nbits_nbits _ lo w i n inside, whole]
  have := nbits_nbits x 0 w i n inside
  simpa [nbits] using this

theorem State.bit_setFld_inside (s : State) (a x : Nat) {lo w i : Nat} (h : lo + w ≤ 32) (inside : i < w) :
    (s.setFld a lo w x).bit a (lo + i) = nbit x i := by
  unfold State.bit
  rw [s.fld_setFld_inside a x h inside]
  rfl

/-! ### Tables of slices -/

theorem SameBut.slc {w : List Fld} {s t : State} (h : SameBut w s t) (hw : Fld.slices ∉ w) (j : Nat) : t.slc j = s.slc j := by
  unfold State.slc
  rw [h.slices hw]

@[simp] theorem State.reqStepped_slc (s : State) (r : Req) (j : Nat) : (s.reqStepped r).slc j = s.slc j :=
  (s.reqStepped_frame r).slc (by decide) j

theorem State.slc_updSlc_ne (s : State) {k j : Nat} (f : Slice → Slice) (h : j ≠ k) : (s.updSlc k f).slc j = s.slc j :=
  s.slc_setSlc_ne _ h

/-! ### Refresh, bands and fills (R230 to R233) -/

/-- Nothing is held and nothing waits at slice `k`. -/
def SliceQuiet (s : State) (k : Nat) : Prop := (s.slc k).held = [] ∧ (s.slc k).waiting = []

/-- R234: with nothing held, trying again changes nothing but the lists of that slice. -/
theorem serveWaiting_of_quiet (quiet : SliceQuiet s k) :
    SameBut [.slices] s (s.serveWaiting k) ∧ ∀ j, SliceQuiet s j → SliceQuiet (s.serveWaiting k) j := by
  obtain ⟨held, waiting⟩ := quiet
  unfold State.serveWaiting
  simp only [held, waiting, List.append_nil]
  split
  · exact ⟨.refl s, fun _ h => h⟩
  · refine ⟨State.updSlc_same _ _ (.refl s) rfl, fun j h => ?_⟩
    show SliceQuiet (s.updSlc k _) j
    unfold SliceQuiet at *
    rw [State.slc_updSlc]
    split
    · exact ⟨rfl, rfl⟩
    · exact h

theorem serveWaiting_foldl_of_quiet (l : List Nat) (key : Nat → Nat) (quiet : ∀ p ∈ l, SliceQuiet s (key p)) :
    SameBut [.slices] s (l.foldl (fun s p => s.serveWaiting (key p)) s) := by
  induction l generalizing s with
  | nil => exact .refl s
  | cons p l ih =>
    obtain ⟨same, stays⟩ := serveWaiting_of_quiet (quiet p (by simp))
    exact same.trans (ih fun q hq => stays _ (quiet q (by simp [hq])))

/-- R233: the band that is due comes into force; with nothing held, memory stays. -/
theorem applyBand_effect (s : State) (st : Nat) :
    ((applyBand st s).stk st).applied = s.fld (smReg st 0x040) 0 3 ∧
      ((∀ p < 32, SliceQuiet s (32 * st + p)) → (applyBand st s).dram = s.dram ∧ (applyBand st s).chk = s.chk) := by
  unfold applyBand
  dsimp only
  generalize hu : s.updStk st _ = u
  have updated : SameBut [.stks] s u := hu ▸ State.updStk_same _ _ (.refl s) rfl
  have band : (u.stk st).applied = s.fld (smReg st 0x040) 0 3 := by rw [← hu, State.stk_updStk_same]
  constructor
  · have served : SameBut [.regs, .slices, .dram, .chk, .errs, .cores, .caches, .cnts, .wire] u
        ((List.range 32).foldl (fun s p => s.serveWaiting (32 * st + p)) u) :=
      SameBut.foldl (.refl u) fun _ _ h => State.serveWaiting_same _ h rfl
    unfold State.stk at *
    rw [served.stks (by decide)]
    exact band
  · intro quiet
    have served := serveWaiting_foldl_of_quiet (s := u) (List.range 32) (fun p => 32 * st + p) fun p hp => by
      unfold SliceQuiet
      rw [updated.slc (by decide)]
      exact quiet p (List.mem_range.1 hp)
    exact ⟨(served.dram (by decide)).trans (updated.dram (by decide)), (served.chk (by decide)).trans (updated.chk (by decide))⟩

/-- R230: a filled segment reads zero, and the rest of memory stays. -/
theorem zeroSegment_effect (s : State) (k g : Nat) :
    (∀ a, tget 0 (s.zeroSegment k g).dram a =
      if byteKey k (g * 268435456) ≤ a ∧ a < byteKey k ((g + 1) * 268435456) then 0 else tget 0 s.dram a) ∧
    ∀ w, g * 8388608 ≤ w → w < (g + 1) * 8388608 → rawChk (s.zeroSegment k g) k w = 0 := by
  constructor
  · intro a
    unfold State.zeroSegment
    rw [tget_tkeep]
    have next_ : byteKey k ((g + 1) * 268435456) = byteKey k (g * 268435456) + 268435456 := by
      unfold byteKey
      omega
    rw [next_]
    split
    next keep => rw [if_neg (by simp only [Bool.or_eq_true, decide_eq_true_eq] at keep; omega)]
    next drop => rw [if_pos (by simp only [Bool.or_eq_true, decide_eq_true_eq] at drop; omega)]
  · intro w low high
    have dropped : tget 0 (s.zeroSegment k g).chk (wordKey k w) = 0 := by
      unfold State.zeroSegment
      rw [tget_tkeep, if_neg]
      unfold wordKey
      simp only [Bool.or_eq_true, decide_eq_true_eq]
      omega
    unfold rawChk
    rw [dropped]
    rfl

/-- R231: a done segment of a slice where nothing waits. -/
theorem fillDone_effect {f : FillSt} {g : Nat} (hg : g < 8) (fill : (s.slc k).fill = some f) (quiet : SliceQuiet s k) :
    SameBut [.regs, .slices, .dram, .chk] s (fillDone k g s) ∧
      SameBut [.regs, .slices] (s.zeroSegment k g) (fillDone k g s) ∧
      (fillDone k g s).bit (slcReg k 0x048) (8 + g) = true := by
  unfold fillDone
  simp only [fill]
  generalize hu : (s.zeroSegment k g).updSlc k _ = u
  have noted : SameBut [.slices] (s.zeroSegment k g) u := hu ▸ State.updSlc_same _ _ (.refl _) rfl
  generalize hv : u.setFld (slcReg k 0x048) 8 8 _ = v
  have shown : SameBut [.regs] u v := hv ▸ State.setFld_same _ _ _ _ (.refl u) rfl
  have done : v.bit (slcReg k 0x048) (8 + g) = true := by
    rw [← hv, State.bit_setFld_inside _ _ _ (by decide) hg]
    unfold nbit
    rw [← Nat.shiftRight_eq_div_pow, ← Nat.and_one_is_mod]
    simpa [Nat.testBit, Nat.one_and_eq_mod_two] using (show (f.done.toNat ||| 2 ^ g).testBit g = true by simp)
  have stillQuiet : SliceQuiet v k := by
    unfold SliceQuiet at *
    rw [shown.slc (by decide), ← hu, State.slc_updSlc_same]
    exact quiet
  obtain ⟨served, -⟩ := serveWaiting_of_quiet stillQuiet
  have since : SameBut [.regs, .slices] (s.zeroSegment k g) (v.serveWaiting k) :=
    (noted.mono rfl).trans ((shown.mono rfl).trans (served.mono rfl))
  exact ⟨(State.zeroSegment_same _ _ (.refl s) rfl).trans (since.mono rfl), since, (served.bit (by decide) _ _).trans done⟩

/-! ### Scrubs (R248, R249) -/

/-- What is stored in word `w`: its bytes and its check difference. -/
def storedWord (s : State) (k w : Nat) : List Byte × Nat := (rawWord s k w, rawChk s k w)

theorem SameBut.storedWord {ws : List Fld} {s t : State} (h : SameBut ws s t) (hd : Fld.dram ∉ ws) (hc : Fld.chk ∉ ws)
    (k w : Nat) : storedWord t k w = storedWord s k w := by
  unfold Sys2Proof.Machine.storedWord
  rw [rawWord_of_dram (h.dram hd), rawChk_of_chk (h.chk hc)]

theorem storedWord_putWord_same (s : State) (k w : Nat) {bs : List Byte} (d : Nat) (h : bs.length = 32) :
    storedWord (s.putWord k w bs d) k w = (bs, d % 2 ^ 32) := by
  unfold storedWord
  have read : tgets 0 (s.putWord k w bs d).dram (byteKey k (32 * w)) bs.length = bs := by
    refine tgets_eq_of_nth fun j hj => ?_
    rw [tget_putWord s k w d _ h, if_pos (by omega), Nat.add_sub_cancel_left]
  rw [h] at read
  rw [rawChk_putWord_same, rawWord, read]

theorem storedWord_putWord_ne (s : State) {k w v : Nat} {bs : List Byte} (d : Nat) (hv : v ≠ w) (h : bs.length = 32) :
    storedWord (s.putWord k w bs d) k v = storedWord s k v := by
  unfold storedWord
  congr 1
  · unfold rawWord
    rw [tgets_eq_map, tgets_eq_map]
    refine List.map_congr_left fun j hj => ?_
    have := List.mem_range.1 hj
    rw [tget_putWord s k w d _ h, if_neg]
    unfold byteKey
    omega
  · unfold rawChk State.putWord
    rw [tget_tput_ne]
    unfold wordKey
    omega

theorem bandHeld_of_same {ws : List Fld} {t : State} (h : SameBut ws s t) (hw : Fld.stks ∉ ws) (st : Nat) :
    bandHeld t st = bandHeld s st := by
  unfold bandHeld State.stk
  rw [h.stks hw]

/-- R245: only an uncorrectable word is written back while it is read, and over its own bytes. -/
theorem readWord_storedWord (s : State) (k w : Nat) (src : Src) {v : Nat} (hv : v ≠ w) :
    storedWord (readWord s k w src).1 k v = storedWord s k v := by
  have counted : ∀ (t : State) (c : Prop) [Decidable c] (i : Nat),
      storedWord (if c then t.count k i 1 else t) k v = storedWord t k v := fun t c _ i =>
    SameBut.storedWord (w := v) (k := k) (ws := [.regs, .cnts]) (SameBut.ite (State.count_same _ _ _ (.refl t) rfl) (.refl t))
      (by decide) (by decide)
  have written : ∀ t : State, storedWord (t.poisonBack k w) k v = storedWord t k v := by
    intro t
    unfold State.poisonBack
    split
    · exact SameBut.storedWord (ws := [.slices]) (State.updSlc_same _ _ (.refl t) rfl) (by decide) (by decide) k v
    · exact storedWord_putWord_ne t _ hv (length_rawWord t k w)
  have reported : ∀ (t : State) (own : Option Nat) (code sev die plot addr : Nat),
      storedWord (t.report own code sev die plot addr) k v = storedWord t k v := fun t own code sev die plot addr =>
    SameBut.storedWord (ws := [.regs, .errs, .cores, .wire]) (State.report_same _ _ _ _ _ _ (.refl t) rfl) (by decide) (by decide) k v
  have logged : ∀ syn pos fb sus, storedWord (s.logUE k w syn pos fb sus) k v = storedWord s k v := fun syn pos fb sus =>
    SameBut.storedWord (ws := [.regs]) (State.logUE_same _ _ _ _ _ _ (.refl s) rfl) (by decide) (by decide) k v
  have loggedCE : ∀ syn pos fb sus, storedWord (s.logCE k w syn pos fb sus) k v = storedWord s k v := fun syn pos fb sus =>
    SameBut.storedWord (ws := [.regs, .errs, .cores, .wire]) (State.logCE_same _ _ _ _ _ _ (.refl s) rfl) (by decide) (by decide) k v
  have counts : ∀ (t : State) (i n : Nat), storedWord (t.count k i n) k v = storedWord t k v := fun t i n =>
    SameBut.storedWord (ws := [.regs, .cnts]) (State.count_same _ _ _ (.refl t) rfl) (by decide) (by decide) k v
  have paged : ∀ (t : State) (a addr : Nat), storedWord (t.pageErr a addr) k v = storedWord t k v := fun t a addr =>
    SameBut.storedWord (ws := [.regs]) (State.pageErr_same _ _ (.refl t) rfl) (by decide) (by decide) k v
  have noted : ∀ (t : State) (f : Slice → Slice), storedWord (t.updSlc k f) k v = storedWord t k v := fun t f =>
    SameBut.storedWord (ws := [.slices]) (State.updSlc_same _ _ (.refl t) rfl) (by decide) (by decide) k v
  unfold readWord
  dsimp only
  split
  · rfl
  · exact counted _ _ _
  · rw [counted, reported, counted, logged]
  · split
    · rfl
    · split
      · rw [counted, counts, loggedCE]
      · rw [noted, counted, counts, loggedCE]
  · rw [counted, written, reported, paged, counted, counts, logged]

/-- R240: a single wrong byte stands in one of the 36 positions. -/
theorem correctable_lt {d j e : Nat} (h : classify d = .correctable j e) : j < 36 := by
  unfold classify at h
  split_ifs at h
  split at h
  next i found =>
    obtain ⟨rfl, -⟩ := WordClass.correctable.inj h
    unfold singleAt at found
    split_ifs at found
    exact List.mem_range.1 (List.mem_of_find?_eq_some found)
  next => simp at h

theorem length_corrected (s : State) (k w : Nat) {d j e : Nat} (h : classify d = .correctable j e) :
    (corrected (rawWord s k w) j e).length = 32 := by
  have position := correctable_lt h
  unfold corrected
  split
  · exact length_rawWord s k w
  · rw [length_setNth _ (by rw [length_rawWord]; omega), length_rawWord]

/-- R248: a scrub reaches no other word. -/
theorem scrubWord_storedWord_ne (s : State) (k w : Nat) {v : Nat} (hv : v ≠ w) (open_ : bandHeld s (k / 32) = false) :
    storedWord (scrubWord s k w) k v = storedWord s k v := by
  have read := readWord_storedWord s k w .scrub hv
  unfold scrubWord
  dsimp only
  split
  next j e class_ =>
    rw [if_neg (by simp [open_]), storedWord_putWord_ne _ _ hv (length_corrected s k w class_), read]
  next => exact read

/-- R248: a scrub of a correctable word writes it back corrected. -/
theorem scrubWord_storedWord_same {w j e : Nat} (open_ : bandHeld s (k / 32) = false)
    (wrong : classify (rawChk s k w) = .correctable j e) :
    storedWord (scrubWord s k w) k w = (corrected (rawWord s k w) j e, 0) := by
  unfold scrubWord
  simp only [wrong, open_, Bool.false_eq_true, if_false]
  exact storedWord_putWord_same _ k w 0 (length_corrected s k w wrong)

/-- R248, R249: the scrub of a list of words corrects each correctable word of it. -/
theorem scrubWords_corrects {l : List Nat} (nodup : l.Nodup) (open_ : bandHeld s (k / 32) = false) {w j e : Nat} (hw : w ∈ l)
    (wrong : classify (rawChk s k w) = .correctable j e) :
    storedWord (l.foldl (fun s w => scrubWord s k w) s) k w = (corrected (rawWord s k w) j e, 0) := by
  have kept : ∀ (l : List Nat) (t : State), bandHeld t (k / 32) = false → w ∉ l →
      storedWord (l.foldl (fun s w => scrubWord s k w) t) k w = storedWord t k w := by
    intro l
    induction l with
    | nil => exact fun _ _ _ => rfl
    | cons v l ih =>
      intro t bt hm
      have same : SameBut [.regs, .slices, .dram, .chk, .errs, .cores, .cnts, .wire] t (scrubWord t k v) :=
        scrubWord_same _ _ (.refl t) rfl
      refine (ih _ ((bandHeld_of_same same (by decide) _).trans bt) fun h => hm (by simp [h])).trans ?_
      exact scrubWord_storedWord_ne t k v (fun e => hm (by simp [e])) bt
  induction l generalizing s with
  | nil => simp at hw
  | cons v l ih =>
    obtain ⟨fresh, nodup'⟩ := List.nodup_cons.1 nodup
    have same : SameBut [.regs, .slices, .dram, .chk, .errs, .cores, .cnts, .wire] s (scrubWord s k v) :=
      scrubWord_same _ _ (.refl s) rfl
    have open' := (bandHeld_of_same same (by decide) (k / 32)).trans open_
    by_cases here : w = v
    · subst here
      exact (kept l _ open' fresh).trans (scrubWord_storedWord_same open_ wrong)
    · have before := scrubWord_storedWord_ne s k v here open_
      obtain ⟨bytes, check⟩ := Prod.mk.inj before
      rw [List.foldl_cons, ih nodup' open' (List.mem_of_ne_of_mem here hw) (by rwa [check]), bytes]

theorem foldl_scrubWord_burst (s : State) (k b : Nat) :
    (List.range 8).foldl (fun s i => scrubWord s k (8 * b + i)) s =
      ((List.range 8).map fun i => 8 * b + i).foldl (fun s w => scrubWord s k w) s := by
  rw [List.foldl_map]

/-- R248, R249: the scrub of a burst. -/
theorem scrubBurst_effect (s : State) (k b : Nat) :
    (∀ y ∈ ((scrubBurst k b s).slc k).demand, y.1 / 256 ≠ b) ∧
      (bandHeld s (k / 32) = false → ∀ i < 8, ∀ j e, classify (rawChk s k (8 * b + i)) = .correctable j e →
        storedWord (scrubBurst k b s) k (8 * b + i) = (corrected (rawWord s k (8 * b + i)) j e, 0)) := by
  have counted : SameBut [.regs, .cnts] s (s.count k 47 1) := State.count_same _ _ _ (.refl s) rfl
  unfold scrubBurst
  dsimp only
  generalize hu : List.foldl _ (s.count k 47 1) (List.range 8) = u
  constructor
  · rw [State.slc_updSlc_same]
    intro y hy
    simpa using (List.mem_filter.1 hy).2
  · intro open_ i hi j e wrong
    obtain ⟨bytes, check⟩ := Prod.mk.inj (counted.storedWord (by decide) (by decide) k (8 * b + i))
    have noted : SameBut [.slices] u (u.updSlc k fun S => { S with demand := S.demand.filter fun x => x.1 / 256 != b }) :=
      State.updSlc_same _ _ (.refl u) rfl
    rw [noted.storedWord (by decide) (by decide), ← hu, foldl_scrubWord_burst, ← bytes]
    refine scrubWords_corrects ?_ ((bandHeld_of_same counted (by decide) _).trans open_)
      (List.mem_map.2 ⟨i, List.mem_range.2 hi, rfl⟩) (by rwa [check])
    exact List.nodup_range.map fun _ _ h => by simpa using h

/-- R248: the patrol goes on to the next burst. -/
theorem patrolStep_pos (s : State) (k : Nat) : patrolPos (patrolStep k s) k = (patrolPos s k + 1) % 8388608 := by
  unfold patrolStep
  dsimp only
  generalize hu : (scrubBurst k (patrolPos s k) s).setFld (slcReg k 0x054) 0 23 _ = u
  have moved : u.fld (slcReg k 0x054) 0 23 = (patrolPos s k + 1) % 8388608 := by
    rw [← hu, State.fld_setFld_same _ _ _ (by decide), show 2 ^ 23 = 8388608 by norm_num, Nat.mod_mod]
  have noted : SameBut [.slices] u (u.updSlc k fun S => { S with patrolFrom := s.tb }) :=
    State.updSlc_same _ _ (.refl u) rfl
  rw [patrolPos, State.fld_setFld_ne _ _ _ (by decide) (by decide)]
  split
  · rw [noted.fld (by decide), moved]
  · exact moved

/-! ### Error windows (R252) -/

/-- R252: the window of the log entry at `a` is open, used and over. -/
def windowOver (s : State) (st a : Nat) : Bool :=
  s.bit a 31 && decide (eccWindow s st < (msNow s % 2 ^ 32 + 2 ^ 32 - (s.reg (a + 20)).toNat) % 2 ^ 32)

/-- The flag word of a log entry. -/
def WindowFlags (st : Nat) (is : List Nat) (a : Nat) : Prop := ∃ i ∈ is, a = smReg st (0x800 + 32 * i) + 24

/-- R252: closing one window. -/
def closeWindow (st : Nat) (s : State) (i : Nat) : State :=
  if s.bit (smReg st (0x800 + 32 * i)) 31 && s.bit (smReg st (0x800 + 32 * i) + 24) 3 &&
      decide (eccWindow s st < (msNow s % 2 ^ 32 + 2 ^ 32 - (s.reg (smReg st (0x800 + 32 * i) + 20)).toNat) % 2 ^ 32)
    then s.clrBit (smReg st (0x800 + 32 * i) + 24) 3 else s

theorem closeWindows_eq (st : Nat) (s : State) : closeWindows st s = (List.range 64).foldl (closeWindow st) s := rfl

theorem closeWindow_bit (st : Nat) (s : State) (i : Nat) :
    (closeWindow st s i).bit (smReg st (0x800 + 32 * i) + 24) 3 =
      (s.bit (smReg st (0x800 + 32 * i) + 24) 3 && !windowOver s st (smReg st (0x800 + 32 * i))) := by
  unfold closeWindow windowOver
  generalize smReg st (0x800 + 32 * i) = a
  generalize decide (eccWindow s st < (msNow s % 2 ^ 32 + 2 ^ 32 - (s.reg (a + 20)).toNat) % 2 ^ 32) = late
  cases used : s.bit a 31 <;> cases set : s.bit (a + 24) 3 <;> cases late <;> simp [set, State.bit_clrBit_same]

theorem closeWindow_regs (st : Nat) (s : State) (i : Nat) : RegsBut (WindowFlags st [i]) s (closeWindow st s i) :=
  RegsBut.ite ((RegsBut.refl s).clrBit ⟨i, by simp, rfl⟩) (.refl s)

/-- The flag words are no word that a window's test reads. -/
theorem windowOver_of_regs {t : State} {st i : Nat} {is : List Nat} (regs : RegsBut (WindowFlags st is) s t)
    (frame : SameBut [.regs] s t) :
    windowOver t st (smReg st (0x800 + 32 * i)) = windowOver s st (smReg st (0x800 + 32 * i)) := by
  have head : ¬ WindowFlags st is (smReg st (0x800 + 32 * i)) := by
    rintro ⟨j, -, h⟩
    unfold smReg regAddr at h
    omega
  have time : ¬ WindowFlags st is (smReg st (0x800 + 32 * i) + 20) := by
    rintro ⟨j, -, h⟩
    unfold smReg regAddr at h
    omega
  have config : ¬ WindowFlags st is (smReg st 0x100) := by
    rintro ⟨j, -, h⟩
    unfold smReg regAddr at h
    omega
  unfold windowOver eccWindow msNow
  rw [regs.bit head, regs _ time, regs.fld config, frame.tb (by decide), frame.boot (by decide)]

/-- R252: each used window that has run out is closed. -/
theorem closeWindow_foldl_bit {st i : Nat} {l : List Nat} (nodup : l.Nodup) (hi : i ∈ l) :
    (l.foldl (closeWindow st) s).bit (smReg st (0x800 + 32 * i) + 24) 3 =
      (s.bit (smReg st (0x800 + 32 * i) + 24) 3 && !windowOver s st (smReg st (0x800 + 32 * i))) := by
  have apart : ∀ is : List Nat, i ∉ is → ¬ WindowFlags st is (smReg st (0x800 + 32 * i) + 24) := by
    rintro is hm ⟨j, hj, h⟩
    unfold smReg regAddr at h
    exact hm ((show i = j by omega) ▸ hj)
  induction l generalizing s with
  | nil => simp at hi
  | cons j l ih =>
    obtain ⟨fresh, nodup'⟩ := List.nodup_cons.1 nodup
    rw [List.foldl_cons]
    by_cases here : i = j
    · subst here
      have later : RegsBut (WindowFlags st l) (closeWindow st s i) (l.foldl (closeWindow st) (closeWindow st s i)) :=
        (RegsBut.refl _).foldl fun u j hj h => h.trans ((closeWindow_regs st u j).mono (by
          rintro a ⟨x, hx, rfl⟩
          exact ⟨x, by simp at hx; exact hx ▸ hj, rfl⟩))
      rw [later.bit (apart l fresh), closeWindow_bit]
    · have regs := closeWindow_regs st s j
      have same : SameBut [.regs] s (closeWindow st s j) := SameBut.ite (State.clrBit_same _ _ (.refl s) rfl) (.refl s)
      rw [ih nodup' (List.mem_of_ne_of_mem here hi), windowOver_of_regs regs same,
        regs.bit (apart [j] (by simpa using here))]

/-! ### Row repair (R257) -/

/-- The slices differ in what is held, what waits and what is due a scrub, and in nothing else. -/
def SlicesQueue (s t : State) : Prop :=
  ∀ j, t.slc j = { s.slc j with held := (t.slc j).held, waiting := (t.slc j).waiting, demand := (t.slc j).demand }

theorem SlicesQueue.refl (s : State) : SlicesQueue s s := fun _ => rfl

theorem SlicesQueue.trans {s t u : State} (h : SlicesQueue s t) (h' : SlicesQueue t u) : SlicesQueue s u := fun j => by
  have later := h' j
  rw [h j] at later
  exact later

theorem SlicesQueue.same {ws : List Fld} {s t u : State} (h : SlicesQueue s t) (frame : SameBut ws t u)
    (hw : Fld.slices ∉ ws) : SlicesQueue s u :=
  h.trans fun j => by rw [frame.slc hw]

theorem slicesQueue_updSlc (s : State) (k : Nat) {f : Slice → Slice}
    (hf : ∀ S, f S = { S with held := (f S).held, waiting := (f S).waiting, demand := (f S).demand }) :
    SlicesQueue s (s.updSlc k f) := fun j => by
  rw [State.slc_updSlc]
  split
  · subst_vars
    exact hf _
  · rfl

theorem SlicesQueue.ite {c : Prop} [Decidable c] {s t u : State} (ht : SlicesQueue s t) (hu : SlicesQueue s u) :
    SlicesQueue s (if c then t else u) := by
  split
  · exact ht
  · exact hu

theorem poisonBack_slices (s : State) (k w : Nat) : SlicesQueue s (s.poisonBack k w) := by
  unfold State.poisonBack
  exact .ite (slicesQueue_updSlc _ _ fun _ => rfl)
    ((SlicesQueue.refl s).same (State.putWord_same (msk := [.dram, .chk]) _ _ _ _ (.refl s) rfl) (by decide))

theorem readWord_slices (s : State) (k w : Nat) (src : Src) : SlicesQueue s (readWord s k w src).1 := by
  have counted : ∀ {t : State} (c : Prop) [Decidable c] (i : Nat), SlicesQueue s t →
      SlicesQueue s (if c then t.count k i 1 else t) := fun c _ i h =>
    .ite (h.same (State.count_same (msk := [.regs, .cnts]) _ _ _ (.refl _) rfl) (by decide)) h
  unfold readWord
  dsimp only
  split
  · exact .refl s
  · exact counted _ _ (.refl s)
  · refine counted _ _ (SlicesQueue.same (counted _ _ ?_) (State.report_same (msk := [.regs, .errs, .cores, .wire]) _ _ _ _ _ _ (.refl _) rfl) (by decide))
    exact (SlicesQueue.refl s).same (State.logUE_same (msk := [.regs]) _ _ _ _ _ _ (.refl s) rfl) (by decide)
  · have logged : ∀ syn pos fb sus, SlicesQueue s ((s.logCE k w syn pos fb sus).count k 43 1) := fun syn pos fb sus =>
      (SlicesQueue.refl s).same (State.count_same (msk := [.regs, .errs, .cores, .cnts, .wire]) _ _ _
        (State.logCE_same _ _ _ _ _ _ (.refl s) rfl) rfl) (by decide)
    split
    · exact .refl s
    · split
      · exact counted _ _ (logged _ _ _ _)
      · exact (counted _ _ (logged _ _ _ _)).trans (slicesQueue_updSlc _ _ fun _ => rfl)
  · have logged : ∀ syn pos fb sus, SlicesQueue s ((s.logUE k w syn pos fb sus).count k 44 1) := fun syn pos fb sus =>
      (SlicesQueue.refl s).same (State.count_same (msk := [.regs, .cnts]) _ _ _
        (State.logUE_same _ _ _ _ _ _ (.refl s) rfl) rfl) (by decide)
    have shown : ∀ {t : State} (own : Option Nat) (a addr code sev die plot addr' : Nat), SlicesQueue s t →
        SlicesQueue s ((t.pageErr a addr).report own code sev die plot addr') := fun own a addr code sev die plot addr' h =>
      h.same (State.report_same (msk := [.regs, .errs, .cores, .wire]) _ _ _ _ _ _
        (State.pageErr_same _ _ (.refl _) rfl) rfl) (by decide)
    exact counted _ _ ((shown _ _ _ _ _ _ _ _ (counted _ _ (logged _ _ _ _))).trans (poisonBack_slices _ k w))

theorem storeWord_slices (s : State) (k w : Nat) (bs : List Byte) (bad : Bool) (src : Src) :
    SlicesQueue s (s.storeWord k w bs bad src) :=
  (SlicesQueue.refl s).same (State.storeWord_same (msk := [.regs, .dram, .chk]) _ _ _ _ _ (.refl s) rfl) (by decide)

theorem writeWord_slices (s : State) (k w lo : Nat) (bs : List Byte) (bad : Bool) (src : Src) :
    SlicesQueue s (writeWord s k w lo bs bad src).1 := by
  have read := readWord_slices s k w (if src = .port then .rmw else src)
  unfold writeWord
  dsimp only
  generalize readWord s k w (if src = .port then .rmw else src) = r at *
  split_ifs <;> dsimp only
  · exact storeWord_slices _ _ _ _ _ _
  · exact read.trans (storeWord_slices _ _ _ _ _ _)
  · exact read
  · exact read.trans (storeWord_slices _ _ _ _ _ _)

theorem writeWords_slices (s : State) (k off : Nat) (data : List Byte) (bad : Bool) (src : Src) (ws : List Nat) :
    SlicesQueue s (writeWords s k off data bad src ws).1 := by
  induction ws generalizing s with
  | nil => exact .refl s
  | cons w ws ih => exact (writeWord_slices s k w _ _ bad src).trans (ih _)

theorem cisWrite_slices (s : State) (k off : Nat) (data : List Byte) (bad : Bool) (src : Src) :
    SlicesQueue s (s.cisWrite k off data bad src).1 := by
  unfold State.cisWrite
  dsimp only
  refine SlicesQueue.trans ?_ (writeWords_slices _ k off data bad src _)
  refine (SlicesQueue.refl s).same (ws := [.regs, .cores, .caches, .cnts]) ?_ (by decide)
  exact State.count_same _ _ _ (State.count_same _ _ _ (State.count_same _ _ _ (State.count_same _ _ _
    (SameBut.ite (State.dropLines_same _ _ _ (.refl s) rfl) (.refl s)) rfl) rfl) rfl) rfl

theorem weirWord_slices (s : State) (k w lo op : Nat) (x : List Byte) (bad : Bool) :
    SlicesQueue s (weirWord s k w lo op x bad).1 := by
  have read := readWord_slices s k w .rmw
  have flagged : ∀ {t : State} (fl : Nat), SlicesQueue s t → SlicesQueue s (t.weirFlags k fl) := fun fl h =>
    h.same (State.weirFlags_same (msk := [.regs]) _ _ (.refl _) rfl) (by decide)
  unfold weirWord
  dsimp only
  generalize readWord s k w .rmw = r at *
  generalize slice r.2.1 lo _ = old
  generalize (if op = 0xC then (casBytes old x, 0) else weirBytes op old x) = y
  split_ifs <;> dsimp only
  · exact flagged _ read
  · exact read.trans (storeWord_slices _ _ _ _ _ _)
  · exact flagged _ (read.trans (storeWord_slices _ _ _ _ _ _))

theorem weirWords_slices (s : State) (k off op : Nat) (x : List Byte) (bad : Bool) (ws : List Nat) :
    SlicesQueue s (weirWords s k off op x bad ws).1 := by
  induction ws generalizing s with
  | nil => exact .refl s
  | cons w ws ih => exact (weirWord_slices s k w _ op _ bad).trans (ih _)

theorem cisWeir_slices (s : State) (k op off : Nat) (x : List Byte) (bad : Bool) :
    SlicesQueue s (s.cisWeir k op off x bad).1 := by
  have counted : ∀ n, SlicesQueue s (((((s.dropLines k off x.length).count k 40 1).count k 36 n).count k 37 n).count k 39 n) :=
    fun n => (SlicesQueue.refl s).same (ws := [.regs, .cores, .caches, .cnts])
      (State.count_same _ _ _ (State.count_same _ _ _ (State.count_same _ _ _ (State.count_same _ _ _
        (State.dropLines_same _ _ _ (.refl s) rfl) rfl) rfl) rfl) rfl) (by decide)
  unfold State.cisWeir
  dsimp only
  split
  · exact (counted _).trans (weirWord_slices _ _ _ _ _ _ _)
  · exact (counted _).trans (weirWords_slices _ _ _ _ _ _ _)

theorem serveHeld_slices (s : State) (k : Nat) (h : HeldReq) : SlicesQueue s (s.serveHeld k h) := by
  have put : ∀ w bs d, SlicesQueue s (s.putWord k w bs d) := fun w bs d =>
    (SlicesQueue.refl s).same (State.putWord_same (msk := [.dram, .chk]) _ _ _ _ (.refl s) rfl) (by decide)
  unfold State.serveHeld
  split
  · exact cisWrite_slices _ _ _ _ _ _
  · exact cisWeir_slices _ _ _ _ _ _
  · exact put _ _ _
  · split
    · exact put _ _ _
    · exact .refl s

theorem serveList_slices (s : State) (k : Nat) (hs : List HeldReq) : SlicesQueue s (s.serveList k hs) := by
  induction hs generalizing s with
  | nil => exact .refl s
  | cons h hs ih =>
    unfold State.serveList
    dsimp only
    split
    · exact (slicesQueue_updSlc s k fun _ => rfl).trans (ih _)
    · exact (serveHeld_slices s k h).trans (ih _)

/-- R234: trying again what waits changes what is held, waiting and due of the slices. -/
theorem serveWaiting_slices (s : State) (k : Nat) : SlicesQueue s (s.serveWaiting k) := by
  unfold State.serveWaiting
  dsimp only
  split
  · exact .refl s
  · exact (slicesQueue_updSlc s k fun _ => rfl).trans (serveList_slices _ _ _)

/-- R257: the end of a repair puts the row on its spare. -/
theorem finishPpr_effect {x : PprRun} (runs : (s.slc k).ppr = some x) :
    ((finishPpr k s).slc k).ppr = none ∧
      tget 0 ((finishPpr k s).slc k).rowMap (x.bank.toNat * 32768 + x.row.toNat) = x.spare + 1 ∧
      tget 0 ((finishPpr k s).slc k).spareUsed x.bank.toNat = tget 0 (s.slc k).spareUsed x.bank.toNat + 1 := by
  unfold finishPpr
  simp only [runs]
  have copied : ∀ (l : List Nat) (t : State), SlicesQueue t
      (l.foldl (fun s w => (readWord s k w .copy).1.storeWord k w (readWord s k w .copy).2.1 (readWord s k w .copy).2.2 .copy) t) := by
    intro l
    induction l with
    | nil => exact fun t => .refl t
    | cons w l ih => exact fun t => ((readWord_slices t k w .copy).trans (storeWord_slices _ _ _ _ _ _)).trans (ih _)
  generalize hu : List.foldl _ s (rowWords x.bank.toNat x.row.toNat) = u
  have before : SlicesQueue s u := hu ▸ copied (rowWords x.bank.toNat x.row.toNat) s
  generalize hv : State.setFld _ (slcReg k 0x06C) 0 6 2 = v
  have ended : (v.slc k).ppr = none ∧ tget 0 (v.slc k).rowMap (x.bank.toNat * 32768 + x.row.toNat) = x.spare + 1 ∧
      tget 0 (v.slc k).spareUsed x.bank.toNat = tget 0 (s.slc k).spareUsed x.bank.toNat + 1 := by
    have used : (u.slc k).spareUsed = (s.slc k).spareUsed := by rw [before k]
    rw [← hv]
    simp only [State.setFld_others, State.slc_updSlc_same, tget_tput_same, used]
    trivial
  have served := serveWaiting_slices v k k
  rw [served]
  exact ended

/-- R257, R266: a write with GO starts a repair on the next spare, shows that none is left, or is ignored while one runs. -/
theorem startPpr_effect (s : State) (k : Nat) (v : Word) :
    (s.fld (slcReg k 0x06C) 0 2 = 1 → (startPpr k v s).slc k = s.slc k) ∧
      (s.fld (slcReg k 0x06C) 0 2 ≠ 1 → sparesLeft s k (nbits v.toNat 0 5) = 0 →
        (startPpr k v s).fld (slcReg k 0x06C) 0 6 = 7) ∧
      (s.fld (slcReg k 0x06C) 0 2 ≠ 1 → 0 < sparesLeft s k (nbits v.toNat 0 5) →
        ∃ x, ((startPpr k v s).slc k).ppr = some x ∧ x.bank = BitVec.ofNat 5 (nbits v.toNat 0 5) ∧
          x.row = BitVec.ofNat 15 (nbits v.toNat 5 15) ∧ (startPpr k v s).fld (slcReg k 0x06C) 0 2 = 1) := by
  unfold startPpr
  dsimp only
  generalize hu : s.setFld (slcReg k 0x068) 0 20 v.toNat = u
  have written : SameBut [.regs] s u := hu ▸ State.setFld_same _ _ _ _ (.refl s) rfl
  have status : u.fld (slcReg k 0x06C) 0 2 = s.fld (slcReg k 0x06C) 0 2 := by
    rw [← hu, State.fld_setFld_reg_ne]
    unfold slcReg regAddr
    omega
  have spares : ∀ b, sparesLeft u k b = sparesLeft s k b := fun b => by
    unfold sparesLeft
    rw [written.slc (by decide)]
  rw [status]
  simp only [spares]
  refine ⟨fun busy => ?_, fun idle none_ => ?_, fun idle left => ?_⟩
  · rw [if_pos busy, written.slc (by decide)]
  · rw [if_neg idle, if_pos none_, State.fld_setFld_same _ _ _ (by decide)]
    decide
  · rw [if_neg idle, if_neg (by omega)]
    refine ⟨_, congrArg Slice.ppr (State.slc_updSlc_same _ _ _), rfl, rfl, ?_⟩
    rw [State.updSlc_fld]
    exact (State.fld_setFld_inside u (slcReg k 0x06C) 1 (lo := 0) (w := 6) (i := 0) (n := 2) (by decide) (by decide)).trans (by decide)

/-- R270: a report is popped oldest first, and its other words are kept for reading. -/
theorem popRpt_effect (f : Nat) (t : State) : match (t.errf f).recs with
    | [] => (popRpt f t).reply = { data := leBytes 4 0 } ∧ ((popRpt f t).errf f).recs = []
    | x :: rest => (popRpt f t).reply = { data := leBytes 4 (rptWord x) } ∧ ((popRpt f t).errf f).recs = rest ∧
        ((popRpt f t).errf f).w3 = x.time ∧ ((popRpt f t).errf f).w1 = BitVec.ofNat 32 x.addr.toNat := by
  unfold popRpt
  cases h : (t.errf f).recs with
  | nil =>
    dsimp only
    have stored : ∀ g : ErrFifo → ErrFifo, ((t.updErrf f g).answer (leBytes 4 0)).errf f = g (t.errf f) :=
      fun g => State.errf_updErrf_same t _ g
    exact ⟨rfl, (congrArg ErrFifo.recs (stored _)).trans h⟩
  | cons x rest =>
    dsimp only
    have stored : ∀ y : ErrFifo, ((t.setErrf f y).answer (leBytes 4 (rptWord x))).errf f = y := fun y =>
      State.errf_setErrf_same t _ y
    exact ⟨rfl, congrArg ErrFifo.recs (stored _), congrArg ErrFifo.w3 (stored _), congrArg ErrFifo.w1 (stored _)⟩

/-- Settles O27: refreshes, bands, fills, scrubs, windows, reports and repairs each act on their slice, stack or FIFO; what
waited is tried again and, where nothing waits, changes no memory. -/
theorem slicesFillScrubAndRepair : Obligations.SlicesFillScrubAndRepair := by
  unfold Obligations.SlicesFillScrubAndRepair
  refine ⟨fun s => ⟨?_, fun st due => ?_, ?_⟩, fun s => ⟨?_, ?_, fun st up => ?_, fun r f served => ?_, ?_, ?_⟩⟩
  · rintro p _ b rfl up rests
    have counted : SameBut [.regs, .cnts] s (s.count (plotKey p) 42 1) := State.count_same _ _ _ (.refl s) rfl
    refine ⟨_, congrArg Host.Outcome.next (if_pos (by simp [up, rests])), ?_, ?_, fun j hj => ?_⟩
    · exact State.updSlc_same _ _ (State.count_same _ _ _ (.refl s) rfl) rfl
    · rw [State.slc_updSlc_same, counted.slc (by decide), tget_tput_same]
    · rw [State.slc_updSlc_ne _ _ hj, counted.slc (by decide)]
  · obtain ⟨band, quiet⟩ := applyBand_effect s st.val
    exact ⟨_, congrArg Host.Outcome.next (if_pos due), applyBand_same _ (.refl s) rfl, band, quiet⟩
  · rintro p _ g rfl go held waiting
    cases fill : (s.slc (plotKey p)).fill with
    | none => simp [fillGo, fill] at go
    | some f =>
      obtain ⟨same, since, done⟩ := fillDone_effect g.isLt fill ⟨held, waiting⟩
      obtain ⟨memory, checks⟩ := zeroSegment_effect s (plotKey p) g.val
      refine ⟨_, congrArg Host.Outcome.next (if_pos go), same, done, fun a => ?_, fun w low high => ?_⟩
      · rw [since.dram (by decide)]
        exact memory a
      · rw [rawChk_of_chk (since.chk (by decide))]
        exact checks w low high
  · rintro p _ x rest rfl due up free
    obtain ⟨done, correct⟩ := scrubBurst_effect s (plotKey p) (x.1 / 256)
    have scrub : exec (.demandScrub p) s = .next (scrubBurst (plotKey p) (x.1 / 256) s) := by
      refine congrArg Host.Outcome.next ?_
      simp only [due, up, free, Bool.not_false, Bool.and_self, if_true]
    refine ⟨_, scrub, scrubBurst_same _ _ (.refl s) rfl, done, fun open_ i hi j e wrong => ?_⟩
    obtain ⟨bytes, check⟩ := Prod.mk.inj (correct open_ i hi j e wrong)
    exact ⟨check, bytes⟩
  · rintro p _ rfl go
    exact ⟨_, congrArg Host.Outcome.next (if_pos go), patrolStep_same _ (.refl s) rfl, patrolStep_pos s _⟩
  · refine ⟨_, congrArg Host.Outcome.next (if_pos up), closeWindows_same _ (.refl s) rfl, fun i hi => ?_⟩
    rw [closeWindows_eq]
    exact closeWindow_foldl_bit List.nodup_range (List.mem_range.2 hi)
  · refine ⟨_, outcome_readAccess _ 4 served, popRpt_same _ (.refl _) rfl, ?_⟩
    have effect := popRpt_effect f.val (s.reqStepped r)
    rwa [show (s.reqStepped r).errf f.val = s.errf f.val by
      unfold State.errf
      rw [(s.reqStepped_frame r).errs (by decide)]] at effect
  · rintro r p _ v rfl served go
    obtain ⟨busy, none_, left⟩ := startPpr_effect (s.reqStepped r) (plotKey p) v
    simp only [State.reqStepped_fld, State.reqStepped_slc, sparesLeft] at busy none_ left
    refine ⟨_, (outcome_access _ served).trans (congrArg _ (if_pos go)), startPpr_same _ _ (.refl _) rfl, busy, none_, left⟩
  · rintro p _ x rfl runs up open_ rests
    have ends : exec (.pprDone p) s = .next (finishPpr (plotKey p) s) := by
      refine congrArg Host.Outcome.next ?_
      simp only [runs, up, open_, rests, Bool.not_false, Bool.and_self, if_true]
    exact ⟨_, ends, finishPpr_same _ (.refl s) rfl, finishPpr_effect runs⟩

end Sys2Proof.Machine
end

section
/-!
The commons (R215, R236, R259 to R263): its configuration, and the steps of a remap.
-/
namespace Sys2Proof.Machine

variable {s : State} {n : Nat}

/-! ### What a served access leaves -/

/-- R606: a served access changes the debug module alone. -/
theorem State.reqStepped_eq (s : State) (r : Req) : ∃ d, s.reqStepped r = { s with dbg := d } := by
  cases r <;> exact ⟨_, rfl⟩

@[simp] theorem remapState_reqStepped (s : State) (r : Req) (n : Nat) : remapState (s.reqStepped r) n = remapState s n :=
  s.reqStepped_fld r _ _ _

@[simp] theorem firstBad_reqStepped (s : State) (r : Req) (n : Nat) (t : Tbl (Option Pair)) :
    firstBad (s.reqStepped r) n t = firstBad s n t := by
  obtain ⟨d, hd⟩ := s.reqStepped_eq r
  rw [hd]
  rfl

@[simp] theorem commonsCfgOk_reqStepped (s : State) (r : Req) (n v : Nat) :
    commonsCfgOk (s.reqStepped r) n v = commonsCfgOk s n v := by
  obtain ⟨d, hd⟩ := s.reqStepped_eq r
  rw [hd]
  rfl

/-! ### Configuration (R215) -/

theorem comReg_page (n : Nat) : comReg n 0x040 / 4096 * 4096 + 0x02C = comReg n 0x02C := by
  unfold comReg regAddr
  omega

/-- R215, R619: a configuration that is allowed is taken, another rejected, and any refused while the page is locked. -/
theorem writeCommonsCfg_effect {v : Word} (keeps : nbit v.toNat 31 = false) :
    if pageLocked s (comReg n 0x040) then
      (writeCommonsCfg n v s).fld (comReg n 0x040) 0 20 = s.fld (comReg n 0x040) 0 20 ∧
        (writeCommonsCfg n v s).bit (comReg n 0x02C) 2 = true
    else if commonsCfgOk s n v.toNat then (writeCommonsCfg n v s).fld (comReg n 0x040) 0 20 = nbits v.toNat 0 20
    else (writeCommonsCfg n v s).fld (comReg n 0x040) 0 20 = s.fld (comReg n 0x040) 0 20 ∧
      (writeCommonsCfg n v s).bit (comReg n 0x040) 31 = true := by
  unfold writeCommonsCfg
  simp only [keeps, Bool.false_eq_true, if_false]
  split
  · unfold State.wrRej
    rw [comReg_page]
    refine ⟨?_, State.bit_setBit_same s _ (by decide)⟩
    refine State.fld_setFld_reg_ne _ _ _ _ _ _ ?_
    unfold comReg regAddr
    omega
  · split
    · exact (State.fld_setFld_same s _ _ (by decide)).trans (Nat.mod_eq_of_lt (nbits_lt _ _ _))
    · exact ⟨State.fld_setFld_ne s _ _ (by decide) (by decide), State.bit_setBit_same s _ (by decide)⟩

/-! ### Remap (R260 to R263) -/

theorem State.updRemap_remap (s : State) (n : Nat) (f : Remap → Remap) :
    ((s.updRemap n f).part n).remap = f (s.part n).remap := by
  unfold State.updRemap
  rw [State.part_updPart_same]

theorem remapState_updRemap (s : State) (n : Nat) (f : Remap → Remap) : remapState (s.updRemap n f) n = remapState s n := rfl

theorem remapState_setRemapState (s : State) (n x : Nat) : remapState (s.setRemapState n x) n = x % 8 :=
  State.fld_setFld_same s _ x (by decide)

/-- The other fields of the status word. -/
theorem remapState_setFld (s : State) (n x : Nat) {lo w : Nat} (h : lo + w ≤ 32) (above : 3 ≤ lo) :
    remapState (s.setFld (comReg n 0x06C) lo w x) n = remapState s n := s.fld_setFld_ne _ _ h (by omega)

theorem setRemapState_part (s : State) (n x j : Nat) : (s.setRemapState n x).part j = s.part j := rfl

theorem setFld_part (s : State) (a lo w x j : Nat) : (s.setFld a lo w x).part j = s.part j := rfl

/-- R260: BEGIN stages the generation in force. -/
theorem remapBegin_effect (free : remapState s n = 0 ∨ remapState s n = 4) :
    remapState (remapBegin n s) n = 1 ∧ ((remapBegin n s).part n).remap.stage = (s.part n).remap.cur := by
  unfold remapBegin
  rw [if_pos free]
  exact ⟨(remapState_updRemap _ _ _).trans (remapState_setRemapState _ _ 1),
    congrArg Remap.stage (State.updRemap_remap _ _ _)⟩

/-- R260: START checks the staged pairs. -/
theorem remapStart_effect (s : State) (n : Nat) :
    (remapState s n = 1 → remapState (remapStart n s) n = if (firstBad s n (s.part n).remap.stage).isSome then 4 else 2) ∧
      ((remapStart n s).part n).remap.cur = (s.part n).remap.cur := by
  unfold remapStart
  split
  · cases bad : firstBad s n (s.part n).remap.stage with
    | some i =>
      dsimp only
      rw [State.updRemap_remap]
      refine ⟨fun _ => ?_, rfl⟩
      rw [remapState_updRemap, remapState_setFld _ _ _ (by decide) (by decide), remapState_setFld _ _ _ (by decide) (by decide),
        remapState_setRemapState]
      rfl
    | none =>
      dsimp only
      rw [State.updRemap_remap]
      exact ⟨fun _ => (remapState_updRemap _ _ _).trans (remapState_setRemapState _ _ 2), rfl⟩
  next other => exact ⟨fun h => absurd h other, rfl⟩

/-- R260: CANCEL drops what is staged before the switch. -/
theorem remapCancel_effect (s : State) (n : Nat) :
    (remapState s n ∈ [1, 2, 3] → (s.part n).remap.switching = false →
      remapState (remapCancel n s) n = 0 ∧ ((remapCancel n s).part n).remap.stage = []) ∧
      ((remapCancel n s).part n).remap.cur = (s.part n).remap.cur := by
  unfold remapCancel
  split
  · rw [State.updRemap_remap]
    exact ⟨fun _ _ => ⟨(remapState_updRemap _ _ _).trans (remapState_setRemapState _ _ 0), rfl⟩, rfl⟩
  next other => exact ⟨fun h h' => absurd ⟨by simpa using h, by simp [h']⟩ other, rfl⟩

theorem remapWrite_effect {i : Nat} (staging : remapState s n = 1) :
    tget none ((remapWrite n i s).part n).remap.stage i = some ⟨s.reg (comReg n 0x060), s.reg (comReg n 0x064)⟩ ∧
      ((remapWrite n i s).part n).remap.cur = (s.part n).remap.cur := by
  unfold remapWrite
  rw [if_pos staging, State.updRemap_remap]
  dsimp only
  exact ⟨tget_tput_same (α := Option Pair) _ _ _ _, rfl⟩

theorem remapClear_effect {i : Nat} (staging : remapState s n = 1) :
    tget none ((remapClear n i s).part n).remap.stage i = none ∧
      ((remapClear n i s).part n).remap.cur = (s.part n).remap.cur := by
  unfold remapClear
  rw [if_pos staging, State.updRemap_remap]
  dsimp only
  exact ⟨tget_tput_same (α := Option Pair) _ _ _ _, rfl⟩

theorem SameBut.remapState {w : List Fld} {s t : State} (h : SameBut w s t) (hw : Fld.regs ∉ w) (n : Nat) :
    remapState t n = remapState s n := h.fld hw _ _ _

/-- The counters of lost reports. -/
def RptRegs (a : Nat) : Prop := ∃ f, a = errReg f 0x050

theorem RegsBut.routeIrq {P : Nat → Prop} {s0 : State} {j : Nat} (h : RegsBut P s0 s) : RegsBut P s0 (s.routeIrq j) :=
  h.same (State.routeIrq_same (msk := [.cores]) _ (.refl s) rfl) (by decide)

theorem RegsBut.msix {P : Nat → Prop} {s0 : State} {f vec : Nat} (h : RegsBut P s0 s) : RegsBut P s0 (s.msix f vec) :=
  h.same (State.msix_same (msk := [.cores, .wire]) _ _ (.refl s) rfl) (by decide)

theorem RegsBut.pushRpt {P : Nat → Prop} {s0 : State} {f : Nat} {r : ErrRpt} (h : RegsBut P s0 s) (hP : P (errReg f 0x050)) :
    RegsBut P s0 (s.pushRpt f r) := by
  unfold State.pushRpt
  dsimp only
  have queued : ∀ q, RegsBut P s0 (s.setErrf f q) := fun q =>
    h.same (State.setErrf_same (msk := [.errs]) _ _ (.refl s) rfl) (by decide)
  exact .ite (h.addFld hP) (.ite (queued _).msix (queued _))

/-- R264: a report counts what a full FIFO loses, and changes no other register. -/
theorem RegsBut.report {P : Nat → Prop} {s0 : State} {own : Option Nat} {code sev die plot addr : Nat} (h : RegsBut P s0 s)
    (hP : ∀ f, P (errReg f 0x050)) : RegsBut P s0 (s.report own code sev die plot addr) := by
  unfold State.report
  cases own with
  | some j => exact (h.pushRpt (hP _)).pushRpt (hP _)
  | none => exact h.pushRpt (hP _)

theorem remapState_report (s : State) (j : Nat) (own : Option Nat) (code sev die plot addr : Nat) :
    remapState (s.report own code sev die plot addr) j = remapState s j := by
  refine RegsBut.fld (P := RptRegs) ((RegsBut.refl s).report fun f => ⟨f, rfl⟩) ?_ 0 3
  rintro ⟨f, h⟩
  unfold comReg errReg regAddr at h
  split at h <;> omega

theorem report_part (s : State) (j : Nat) (own : Option Nat) (code sev die plot addr : Nat) :
    (s.report own code sev die plot addr).part j = s.part j :=
  SameBut.part (w := [.regs, .errs, .cores, .wire]) (State.report_same _ _ _ _ _ _ (.refl s) rfl) (by decide) j

/-- R263: the mover stops, and the generation in force stays. -/
theorem remapFail_effect (s : State) (n code : Nat) :
    remapState (s.remapFail n code) n = 4 ∧ ((s.remapFail n code).part n).remap.cur = (s.part n).remap.cur := by
  unfold State.remapFail
  rw [remapState_report, report_part, State.updRemap_remap, remapState_updRemap,
    remapState_setFld _ _ _ (by decide) (by decide), remapState_setRemapState]
  exact ⟨rfl, rfl⟩

/-- R260, R263: the copy ends with every granule copied, or fails where a slice is lost. -/
theorem finishCopy_effect (s : State) (n : Nat) :
    ((finishCopy n s).part n).remap.cur = (s.part n).remap.cur ∧
      if moverLost s n then remapState (finishCopy n s) n = 4 ∧ (finishCopy n s).dram = s.dram
      else remapState (finishCopy n s) n = 3 ∧ ∀ x ∈ ((finishCopy n s).part n).remap.mig, x.2 = .copied := by
  unfold finishCopy
  split
  · obtain ⟨failed, cur⟩ := remapFail_effect s n 2
    exact ⟨cur, failed, SameBut.dram (State.remapFail_same (msk := [.regs, .parts, .errs, .cores, .wire]) _ _ (.refl s) rfl) (by decide)⟩
  · dsimp only
    generalize hu : List.foldl _ s (s.part n).remap.mig = u
    have copied : SameBut [.regs, .slices, .dram, .chk, .errs, .cores, .cnts, .wire] s u := by
      rw [← hu]
      refine SameBut.foldl (.refl s) fun t x h => ?_
      split
      · exact copyGranule_same _ _ h rfl
      · exact h
    rw [State.updRemap_remap]
    refine ⟨?_, (remapState_updRemap _ _ _).trans (remapState_setRemapState _ _ 3), fun x hx => ?_⟩
    · exact congrArg (fun P : Part => P.remap.cur) (copied.part (by decide) n)
    · obtain ⟨y, -, rfl⟩ := List.mem_map.1 hx
      rfl

/-- R262: the switch puts the staged generation in force and counts it. -/
theorem switchRemap_effect (s : State) (n : Nat) :
    ((switchRemap n s).part n).remap.cur = (s.part n).remap.stage ∧
      (switchRemap n s).fld (comReg n 0x058) 0 16 = (s.fld (comReg n 0x058) 0 16 + 1) % 65536 := by
  unfold switchRemap
  dsimp only
  generalize hu : s.setFld (comReg n 0x058) 0 16 (s.fld (comReg n 0x058) 0 16 + 1) = u
  have counted : u.fld (comReg n 0x058) 0 16 = (s.fld (comReg n 0x058) 0 16 + 1) % 65536 :=
    hu ▸ s.fld_setFld_same (comReg n 0x058) _ (show 0 + 16 ≤ 32 by decide)
  generalize hv : u.setFld (comReg n 0x06C) 16 10 _ = v
  have shown : v.fld (comReg n 0x058) 0 16 = u.fld (comReg n 0x058) 0 16 := by
    rw [← hv]
    refine State.fld_setFld_reg_ne _ _ _ _ _ _ ?_
    unfold comReg regAddr
    omega
  have part : v.part n = s.part n := by rw [← hv, setFld_part, ← hu, setFld_part]
  refine ⟨(congrArg Remap.cur (State.updRemap_remap v n _)).trans (by rw [part]), ?_⟩
  have switched : ∀ f, SameBut [.parts] v (v.updRemap n f) := fun f => State.updRemap_same _ _ (.refl v) rfl
  rw [(switched _).fld (by decide), shown, counted]

/-- Settles O28: the configuration write and each remap command act on the page of their partition and on its remap. -/
theorem commonsIsConfiguredAndRemapped : Obligations.CommonsIsConfiguredAndRemapped := by
  unfold Obligations.CommonsIsConfiguredAndRemapped
  rintro s n _ rfl
  refine ⟨fun r v mgmt served keeps => ?_, fun r served => ⟨?_, fun i => ⟨?_, ?_⟩, ?_, ?_⟩, fun migrating go => ?_,
    fun waits free quiet => ?_, fun switching => ?_⟩
  · have effect := writeCommonsCfg_effect (s := s.reqStepped r) (n := n.val) keeps
    simp only [pageLocked, State.reqStepped_bit, State.reqStepped_fld, commonsCfgOk_reqStepped] at effect
    exact ⟨_, (outcome_access _ served).trans (congrArg _ (if_pos mgmt)), writeCommonsCfg_same _ _ (.refl _) rfl, effect⟩
  · refine ⟨_, outcome_access _ served, remapBegin_same _ (.refl _) rfl, fun free => ?_, fun h0 h4 => ?_⟩
    · have effect := remapBegin_effect (s := s.reqStepped r) (n := n.val) (by simpa using free)
      rwa [State.reqStepped_part] at effect
    · exact if_neg (by simp [h0, h4])
  · refine ⟨_, outcome_access _ served, remapWrite_same _ _ (.refl _) rfl, fun staging => ?_⟩
    have effect := remapWrite_effect (s := s.reqStepped r) (n := n.val) (i := i.val) (by simpa using staging)
    simpa only [State.reqStepped_part, State.reqStepped_reg] using effect
  · refine ⟨_, outcome_access _ served, remapClear_same _ _ (.refl _) rfl, fun staging => ?_⟩
    have effect := remapClear_effect (s := s.reqStepped r) (n := n.val) (i := i.val) (by simpa using staging)
    simpa only [State.reqStepped_part] using effect
  · have effect := remapStart_effect (s.reqStepped r) n.val
    simp only [remapState_reqStepped, firstBad_reqStepped, State.reqStepped_part] at effect
    exact ⟨_, outcome_access _ served, remapStart_same _ (.refl _) rfl, effect⟩
  · have effect := remapCancel_effect (s.reqStepped r) n.val
    simp only [remapState_reqStepped, State.reqStepped_part] at effect
    exact ⟨_, outcome_access _ served, remapCancel_same _ (.refl _) rfl, effect⟩
  · exact ⟨_, congrArg Host.Outcome.next (if_pos (by simp [migrating, go])), finishCopy_effect s n.val⟩
  · exact ⟨_, congrArg Host.Outcome.next (if_pos (by simp [waits, free, quiet])), switchRemap_same _ (.refl s) rfl,
      switchRemap_effect s n.val⟩
  · refine ⟨_, congrArg Host.Outcome.next (if_pos switching), ?_, ?_, ?_⟩
    · exact State.report_same _ _ _ _ _ _ (State.updRemap_same _ _ (State.setRemapState_same _ _ (.refl s) rfl) rfl) rfl
    · rw [remapState_report, remapState_updRemap, remapState_setRemapState]
    · rw [report_part, State.updRemap_remap]
      exact ⟨rfl, rfl⟩

end Sys2Proof.Machine
end

section
/-!
Ring commands (R331 to R353): what the end of a command and its start leave of its ring and of the others, and the commands
that complete at once, wait or hand a test over.
-/
namespace Sys2Proof.Machine

variable {s : State} {g : Nat}

/-! ### Rings -/

theorem OtherRings.refl (g : Nat) (s : State) : OtherRings g s s := fun _ _ => rfl

theorem OtherRings.trans {s t u : State} (h : OtherRings g s t) (h' : OtherRings g t u) : OtherRings g s u :=
  fun j hj => (h' j hj).trans (h j hj)

theorem SameBut.otherRings {w : List Fld} {s t : State} (h : SameBut w s t) (hw : Fld.rings ∉ w) : OtherRings g s t :=
  fun j _ => h.ring hw j

theorem otherRings_setRing (s : State) (g : Nat) (R : Ring) : OtherRings g s (s.setRing g R) :=
  fun _ hj => s.ring_setRing_ne R hj

theorem otherRings_updRing (s : State) (g : Nat) (f : Ring → Ring) : OtherRings g s (s.updRing g f) := otherRings_setRing s g _

/-- R333, R334: a completion entry changes its own ring, and no command that runs. -/
theorem State.postCpl_ring (s : State) (g : Nat) (e : CplEnt) :
    OtherRings g s (s.postCpl g e) ∧ ∀ j, ((s.postCpl g e).ring j).running = (s.ring j).running := by
  have advanced : ∀ R : Ring, R.running = (s.ring g).running → ∀ t : State, (∀ j, t.ring j = s.ring j) →
      OtherRings g s (t.setRing g R) ∧ ∀ j, ((t.setRing g R).ring j).running = (s.ring j).running := by
    intro R kept t same
    refine ⟨fun j hj => (t.ring_setRing_ne R hj).trans (same j), fun j => ?_⟩
    rw [State.ring_setRing]
    split
    next e => rw [kept, e]
    next => rw [same]
  unfold State.postCpl
  split
  · unfold State.writeCpl
    dsimp only
    have written := fun tail ph => advanced { s.ring g with cqTail := tail, phase := ph } rfl (s.send (.hostWrite (g / 4)
      (BitVec.ofNat 64 (cqBase s g + 16 * (s.ring g).cqTail))
      (bytesOf [BitVec.ofNat 32 (putBits e.w0.toNat 31 1 (b2n (s.ring g).phase)), e.w1, e.w2, 0]) false)) fun _ => rfl
    split
    · simpa only [OtherRings, State.msix_ring] using written _ _
    · exact written _ _
  · exact advanced { s.ring g with held := (s.ring g).held ++ [e] } rfl s fun _ => rfl

theorem State.endCmd_ring (s : State) (g : Nat) (c : Cmd) (status value : Nat) :
    OtherRings g s (s.endCmd g c status value) ∧ ∀ j, ((s.endCmd g c status value).ring j).running = (s.ring j).running := by
  unfold State.endCmd
  split
  · exact ⟨.refl g s, fun _ => rfl⟩
  · exact s.postCpl_ring g _

/-- R332: a command that completes at once leaves the queue; what runs goes on. -/
theorem State.instant_ring (s : State) (g : Nat) (c : Cmd) (status value : Nat) :
    OtherRings g s (s.instant g c status value) ∧ ((s.instant g c status value).ring g).running = (s.ring g).running := by
  obtain ⟨others, running⟩ := (s.popCmd g).endCmd_ring g c status value
  refine ⟨(otherRings_updRing s g _).trans others, (running g).trans ?_⟩
  rw [State.ring_popCmd_same]

theorem State.instant_frame (s : State) (g : Nat) (c : Cmd) (status value : Nat) :
    SameBut [.rings, .cores, .wire] s (s.instant g c status value) := State.instant_same _ _ _ _ (.refl s) rfl

/-- R332: a command that starts to run joins the running ones. -/
theorem State.runCmd_ring (s : State) (g : Nat) (c : Cmd) (st : RunSt) :
    OtherRings g s (s.runCmd g c st) ∧ ((s.runCmd g c st).ring g).queue = (s.ring g).queue.drop 1 ∧
      ((s.runCmd g c st).ring g).running = (s.ring g).running ++ [{ c with st := st, startAt := s.tb }] := by
  unfold State.runCmd
  refine ⟨(otherRings_updRing s g _).trans (otherRings_updRing _ g _), ?_, ?_⟩ <;>
    rw [State.ring_updRing_same, State.ring_popCmd_same]

/-- A command refused at the front of its ring. -/
theorem startCmd_of_refused {sel : Nat → Bool} {c : Cmd} {st : Nat} (k : Cmd → State → State) (front : frontCmd s g sel = some c)
    (refused : refusal s g c = some st) : startCmd g sel k s = s.instant g c st 0 := by
  simp [startCmd, front, refused]

/-- The front command is of an opcode that is asked for. -/
theorem op_of_frontCmd {sel : Nat → Bool} {c : Cmd} (h : frontCmd s g sel = some c) : sel c.op = true := by
  unfold frontCmd at h
  dsimp only at h
  split at h
  · cases h
  · split at h
    next ready =>
      simp only [Bool.and_eq_true] at ready
      obtain ⟨⟨⟨⟨⟨op, -⟩, -⟩, -⟩, -⟩, -⟩ := ready
      obtain rfl := Option.some.inj h
      exact op
    next => cases h

/-- What a refusal leaves (R333, R337). -/
theorem refused_effect {sel : Nat → Bool} {c : Cmd} (st : Nat) (front : frontCmd s g sel = some c) :
    SameBut [.rings, .wire, .cores] s (s.instant g c st 0) ∧ OtherRings g s (s.instant g c st 0) ∧
      ((s.instant g c st 0).ring g).queue = (s.ring g).queue.drop 1 ∧
      ((s.instant g c st 0).ring g).running = (s.ring g).running ∧ Answers g c st 0 s (s.instant g c st 0) :=
  ⟨(s.instant_frame g c st 0).mono rfl, (s.instant_ring g c st 0).1, s.instant_queue g c st 0, (s.instant_ring g c st 0).2,
    s.instant_answers st 0 (held_eq_nil_of_frontCmd front)⟩

/-- Settles O30: the refusal stands before the body of every command, and a reserved opcode is the first refusal. -/
theorem refusedAndReservedCommandsComplete : Obligations.RefusedAndReservedCommandsComplete := by
  unfold Obligations.RefusedAndReservedCommandsComplete
  refine ⟨?_, ?_⟩
  · rintro s g _ c st bs ids rfl refused x hx front
    have starts : ∃ body, exec x.1 s = .next (startCmd (ringKey g) (· == x.2) body s) := by
      simp only [List.mem_cons, List.not_mem_nil, or_false] at hx
      rcases hx with rfl | rfl | rfl | rfl | rfl | rfl | rfl | rfl | rfl | rfl | rfl | rfl | rfl <;> exact ⟨_, rfl⟩
    obtain ⟨body, starts⟩ := starts
    rw [startCmd_of_refused body front refused] at starts
    exact ⟨_, starts, refused_effect st front⟩
  · rintro s g _ c rfl front
    have reserved : refusal s (ringKey g) c = some 0x01 := by
      have op := op_of_frontCmd front
      unfold refusal
      exact if_pos (by simpa using op)
    obtain ⟨frame, others, queue, -, answers⟩ := refused_effect 0x01 front
    exact ⟨_, congrArg Host.Outcome.next (startCmd_of_refused _ front reserved), frame, others, queue, answers⟩

/-! ### FENCE, SIGNAL and WAIT (R345 to R347) -/

/-- No command `id` runs on ring `g`. -/
def NotRunning (s : State) (g id : Nat) : Prop := ∀ x ∈ (s.ring g).running, x.id ≠ id

theorem NotRunning.dropCmd {id : Nat} (h : NotRunning s g id) (r i : Nat) : NotRunning (s.dropCmd r i) g id := by
  unfold NotRunning State.dropCmd
  rw [State.ring_updRing]
  split
  next e =>
    subst e
    exact fun x hx => h x (List.mem_of_mem_filter hx)
  next => exact h

theorem NotRunning.endCmd {id : Nat} (h : NotRunning s g id) (r : Nat) (c : Cmd) (status value : Nat) :
    NotRunning (s.endCmd r c status value) g id := by
  unfold NotRunning
  rw [(s.endCmd_ring r c status value).2]
  exact h

theorem NotRunning.unfence {id : Nat} (h : NotRunning s g id) (r i : Nat) : NotRunning (s.unfence r i) g id := by
  have fold : ∀ (l : List Nat) (s : State), NotRunning s g id → NotRunning (l.foldl (fun s q => s.updRing (r / 4 * 4 + q) fun R =>
      { R with running := R.running.map fun c => { c with st := c.st.without r i } }) s) g id := by
    intro l
    induction l with
    | nil => exact fun _ h => h
    | cons q l ih =>
      refine fun s h => ih _ ?_
      unfold NotRunning
      rw [State.ring_updRing]
      split
      next e =>
        subst e
        intro x hx
        obtain ⟨y, hy, rfl⟩ := List.mem_map.1 hx
        exact h y hy
      next => exact h
  exact fold _ s h

theorem NotRunning.endFences {id : Nat} (h : NotRunning s g id) (f n : Nat) : NotRunning (s.endFences f n) g id := by
  induction n generalizing s with
  | zero => exact h
  | succ n ih =>
    unfold State.endFences
    split
    · exact h
    · exact ih (((h.dropCmd _ _).endCmd _ _ _ _).unfence _ _)

/-- R332: a command that has ended does not run. -/
theorem notRunning_finishCmd (s : State) (g id status value : Nat) : NotRunning (s.finishCmd g id status value) g id := by
  unfold State.finishCmd
  split
  next none_ => exact fun x hx e => by simpa [e] using List.find?_eq_none.1 none_ x hx
  next c _ =>
    have dropped : NotRunning (s.dropCmd g id) g id := by
      unfold NotRunning State.dropCmd
      rw [State.ring_updRing_same]
      intro x hx
      simpa using (List.mem_filter.1 hx).2
    exact (((dropped.endCmd g c status value).unfence g id).endFences _ _)

theorem State.finishCmd_frame (s : State) (g id status value : Nat) :
    SameBut [.rings, .cores, .wire] s (s.finishCmd g id status value) := State.finishCmd_same _ _ _ _ (.refl s) rfl

/-- R347: a reading of the word ends the WAIT where it is great enough. -/
theorem pollWait_effect (s : State) (g : Nat) (c : Cmd) {r : DevRes} (hr : r = s.devRead (c.field 16 8) 8 .port) :
    (pollWait g c s).dram = r.st.dram ∧
      (r.lost = false → r.poison = false → leVal r.data < c.field 24 8 → pollWait g c s = r.st) ∧
      (c.field 24 8 ≤ leVal r.data → NotRunning (pollWait g c s) g c.id) := by
  unfold pollWait
  dsimp only
  rw [← hr]
  have ended : ∀ st v, (r.st.finishCmd g c.id st v).dram = r.st.dram := fun st v =>
    (r.st.finishCmd_frame g c.id st v).dram (by decide)
  cases lost : r.lost with
  | true => exact ⟨ended _ _, fun h => absurd h (by decide), fun _ => notRunning_finishCmd _ _ _ _ _⟩
  | false =>
    cases bad : r.poison with
    | true => exact ⟨ended _ _, fun _ h => absurd h (by decide), fun _ => notRunning_finishCmd _ _ _ _ _⟩
    | false =>
      simp only [Bool.false_eq_true, if_false]
      split
      next enough => exact ⟨ended _ _, fun _ _ less => by omega, fun _ => notRunning_finishCmd _ _ _ _ _⟩
      next less => exact ⟨rfl, fun _ _ _ => rfl, fun enough => absurd enough less⟩

theorem timeoutWait_effect (s : State) (g : Nat) (c : Cmd) :
    (timeoutWait g c s).fuses = s.fuses ∧ (timeoutWait g c s).plots = s.plots ∧ NotRunning (timeoutWait g c s) g c.id := by
  have frame : SameBut [.freeCtr, .regs, .slices, .dram, .chk, .rings, .errs, .cores, .cnts, .wire] s (timeoutWait g c s) :=
    timeoutWait_same _ _ (.refl s) rfl
  refine ⟨frame.fuses (by decide), frame.plots (by decide), ?_⟩
  unfold timeoutWait
  split
  · exact notRunning_finishCmd _ _ _ _ _
  · exact notRunning_finishCmd _ _ _ _ _

/-- R345: FENCE completes at once, or waits for what runs before it. -/
theorem fenceCmd_effect {c : Cmd} (held : (s.ring g).held = []) (field : c.byte 8 ≤ 1) :
    ((fenceCmd g c s).ring g).queue = (s.ring g).queue.drop 1 ∧
      (fenceWaits s g c = [] → Answers g c 0 0 s (fenceCmd g c s) ∧ ((fenceCmd g c s).ring g).running = (s.ring g).running) ∧
      (fenceWaits s g c ≠ [] → (fenceCmd g c s).wire = s.wire ∧ ∃ x, ((fenceCmd g c s).ring g).running =
        (s.ring g).running ++ [x] ∧ x.id = c.id ∧ x.st = .fence (fenceWaits s g c)) := by
  unfold fenceCmd
  rw [if_neg (by omega)]
  cases waits : fenceWaits s g c with
  | nil => exact ⟨s.instant_queue g c 0 0, fun _ => ⟨s.instant_answers 0 0 held, (s.instant_ring g c 0 0).2⟩, fun h => absurd rfl h⟩
  | cons y l =>
    obtain ⟨-, queue, running⟩ := s.runCmd_ring g c (.fence (y :: l))
    exact ⟨queue, fun h => absurd h (by simp), fun _ => ⟨rfl, _, running, rfl, rfl⟩⟩

theorem exec_fence {g : RingId} {c : Cmd} (h : Starts s (ringKey g) 6 c) : exec (.fence g) s = .next (fenceCmd (ringKey g) c s) :=
  congrArg Host.Outcome.next (startCmd_of_starts _ h)

theorem exec_signal {g : RingId} {c : Cmd} (h : Starts s (ringKey g) 7 c) : exec (.signal g) s = .next (signalCmd (ringKey g) c s) :=
  congrArg Host.Outcome.next (startCmd_of_starts _ h)

theorem exec_wait {g : RingId} {c : Cmd} (h : Starts s (ringKey g) 8 c) : exec (.wait g) s = .next (waitCmd (ringKey g) c s) :=
  congrArg Host.Outcome.next (startCmd_of_starts _ h)

/-- R346: SIGNAL adds to a word of memory. -/
theorem signalCmd_memory {c : Cmd} (kind : c.byte 8 = 0) (aligned : c.field 16 8 % 8 = 0)
    (valid : addrOk s (some (cmdPart g c)) (c.field 16 8) 8 = true) (go : devWriteGo s (c.field 16 8) 8 = true) {r : DevRes}
    (hr : r = s.devWeir 0x6 (c.field 16 8) (leBytes 8 (c.field 24 8)) false) :
    (signalCmd g c s).dram = r.st.dram ∧ ((signalCmd g c s).ring g).queue = (s.ring g).queue.drop 1 := by
  have rings : SameBut [.regs, .slices, .dram, .chk, .errs, .cores, .caches, .cnts, .wire] s r.st :=
    hr ▸ State.devWeir_same _ _ _ _ (.refl s) rfl
  unfold signalCmd
  simp only [kind, aligned, valid, go, if_true, ne_eq, not_true, if_false, Bool.not_true, Bool.false_eq_true, ← hr]
  refine ⟨(r.st.instant_frame g c _ 0).dram (by decide), ?_⟩
  rw [State.instant_queue, rings.ring (by decide)]

/-- R346: SIGNAL sends a token to a plot of its partition. -/
theorem signalCmd_token {c : Cmd} (kind : c.byte 8 = 1) (ctr : c.byte 18 ≤ 63) (low : 1 ≤ c.byte 24) (high : c.byte 24 ≤ 63)
    (own : c.byte 16 ∈ arcOf s (cmdPart g c)) (plot : c.byte 17 ≤ 31)
    (reported : plotReported s (32 * c.byte 16 + c.byte 17) = true) :
    signalCmd g c s = (s.inject 3 landingLoc ⟨BitVec.ofNat 5 (c.byte 16), BitVec.ofNat 5 (c.byte 17)⟩
      (.add ⟨BitVec.ofNat 5 (c.byte 16), BitVec.ofNat 5 (c.byte 17)⟩ landingLoc (BitVec.ofNat 6 (c.byte 18))
        (BitVec.ofNat 6 (c.byte 24)))).instant g c 0 0 := by
  unfold signalCmd
  dsimp only
  rw [if_neg (by omega), if_pos kind, if_neg (by omega), if_neg]
  simp only [List.contains_iff_mem.2 own, reported, Bool.not_true, Bool.false_eq_true, false_or, or_false]
  omega

/-- An answer told of a state with the same rings and registers. -/
theorem Answers.of_frame {c : Cmd} {st v : Nat} {t u : State} (h : Answers g c st v t u) {w : List Fld} (frame : SameBut w s t)
    (hr : Fld.rings ∉ w) (hg : Fld.regs ∉ w) : Answers g c st v s u := by
  unfold Answers cqRoom cqUsed cqSize cplBytes at *
  rwa [frame.ring hr, frame.fld hg] at h

/-- Settles O32: each command is its body at the front of its ring; the WAIT that a reading or its timeout ends is out of
the running ones. -/
theorem fencesSignalsAndWaits : Obligations.FencesSignalsAndWaits := by
  unfold Obligations.FencesSignalsAndWaits
  rintro s g _ c rfl
  refine ⟨fun starts field => ?_, fun starts => ⟨fun kind aligned valid go r hr => ?_,
    fun kind ctr low high own plot reported => ?_⟩, fun starts aligned valid => ?_, fun runs up go r hr => ?_,
    fun runs up timed => ?_⟩
  · exact ⟨_, exec_fence starts, fenceCmd_same _ _ (.refl s) rfl, fenceCmd_effect (held_eq_nil_of_frontCmd starts.1) field⟩
  · exact ⟨_, exec_signal starts, signalCmd_memory kind aligned valid go hr⟩
  · have sends := signalCmd_token (g := ringKey g) kind ctr low high own plot reported
    generalize ht : State.inject s 3 landingLoc _ _ = t at sends
    have injected : SameBut [.net] s t := ht ▸ State.inject_same _ _ _ _ (.refl s) rfl
    have held : (t.ring (ringKey g)).held = [] := by
      rw [injected.ring (by decide)]
      exact held_eq_nil_of_frontCmd starts.1
    have instant := t.instant_frame (ringKey g) c 0 0
    refine ⟨_, (exec_signal starts).trans (congrArg _ sends), (injected.mono rfl).trans (instant.mono rfl), ?_,
      (t.instant_answers 0 0 held).of_frame injected (by decide) (by decide), ?_⟩
    · rw [State.instant_queue, injected.ring (by decide)]
    · rw [instant.net (by decide), ← ht]
      exact ⟨_, rfl, rfl, rfl⟩
  · have runs : waitCmd (ringKey g) c s = s.runCmd (ringKey g) c .waiting := by
      unfold waitCmd
      simp only [aligned, valid, ne_eq, not_true, if_false, Bool.not_true, Bool.false_eq_true]
    obtain ⟨others, queue, running⟩ := s.runCmd_ring (ringKey g) c .waiting
    exact ⟨_, (exec_wait starts).trans (congrArg _ runs), State.runCmd_same _ _ _ (.refl s) rfl, others, queue, _, running, rfl, rfl⟩
  · have polls : exec (.waitPoll g) s = .next (pollWait (ringKey g) c s) := by
      refine congrArg Host.Outcome.next ?_
      simp only [runs, up, go, Bool.and_self, if_true]
    exact ⟨_, polls, pollWait_effect s _ c hr⟩
  · have ends : exec (.waitTimeout g) s = .next (timeoutWait (ringKey g) c s) := by
      refine congrArg Host.Outcome.next ?_
      simp only [runs, up, bne_iff_ne.2 timed, Bool.and_self, if_true]
    exact ⟨_, ends, timeoutWait_effect s _ c⟩

/-! ### QUERY, SELFTEST and SPARE_IN (R348 to R353) -/

theorem State.writeHost_frame (s : State) (f host : Nat) (data : List Byte) : SameBut [.wire] s (s.writeHost f host data) :=
  State.writeHost_same _ _ _ (.refl s) rfl

/-- R348: a query's result goes to host memory, and then its length to the completion queue. -/
theorem State.queryDone_effect {c : Cmd} (held : (s.ring g).held = []) (data : List Byte) :
    (s.writeHost (g / 4) (c.field 16 8) data).wire <+: (s.queryDone g c data).wire ∧
      ((s.queryDone g c data).ring g).queue = (s.ring g).queue.drop 1 ∧ Answers g c 0 data.length s (s.queryDone g c data) := by
  have written := s.writeHost_frame (g / 4) (c.field 16 8) data
  unfold State.queryDone
  generalize s.writeHost (g / 4) (c.field 16 8) data = t at *
  have held' : (t.ring g).held = [] := by
    rw [written.ring (by decide)]
    exact held
  refine ⟨(State.instant_grows g c 0 data.length (Grows.refl t)).wire, ?_,
    (t.instant_answers 0 data.length held').of_frame written (by decide) (by decide)⟩
  rw [State.instant_queue, written.ring (by decide)]

/-- Settles O33: a query's body writes and answers; a test and a spare run join their lists as the command starts to run. -/
theorem queriesTestsAndSpares : Obligations.QueriesTestsAndSpares := by
  unfold Obligations.QueriesTestsAndSpares
  rintro s g _ c rfl
  refine ⟨fun starts kind data hdata => ?_, fun starts test idx own room => ?_,
    fun site rest starts kind own plot stack reported quiet sites => ?_⟩
  · have query : exec (.query g) s = .next (s.queryDone (ringKey g) c data) := by
      refine congrArg Host.Outcome.next ((startCmd_of_starts _ starts).trans ?_)
      unfold queryCmd
      dsimp only
      rcases kind with kind | kind <;> simp [hdata, kind]
    exact ⟨_, query, State.queryDone_same _ _ _ (.refl s) rfl, State.queryDone_effect (held_eq_nil_of_frontCmd starts.1) data⟩
  · have permitted : ¬ (4 ≤ ringKey g ∧ (2 < c.byte 8 ∨ !((arcOf s (cmdPart (ringKey g) c)).contains (c.byte 16)))) := by
      rcases own with pf | ⟨kind, own⟩
      · omega
      · simp [own, Nat.not_lt.mpr kind]
    have body : exec (.selftest g) s = .next (selftestCmd (ringKey g) c s) := exec_selftest_of_starts starts
    unfold selftestCmd at body
    dsimp only at body
    rw [if_neg (by simp [test, idx]), if_neg permitted, if_neg (Nat.not_le.mpr room)] at body
    obtain ⟨-, queue, -⟩ := s.runCmd_ring (ringKey g) c .waiting
    have runs : SameBut [.rings] s (s.runCmd (ringKey g) c .waiting) := State.runCmd_same _ _ _ (.refl s) rfl
    generalize s.runCmd (ringKey g) c .waiting = t at *
    refine ⟨_, _, body, SameBut.lit_faults (runs.mono rfl) rfl,
      congrArg (fun F : Faults => F.tests ++ _) (runs.faults (by decide)), ?_⟩
    exact ⟨rfl, rfl, rfl, rfl, queue⟩
  · have body : exec (.spareIn g) s = .next (spareInCmd (ringKey g) c s) :=
      congrArg Host.Outcome.next (startCmd_of_starts _ starts)
    unfold spareInCmd at body
    simp only [sites] at body
    rw [if_neg (by omega), if_neg (by simp [own, reported]), if_neg (by simp [quiet])] at body
    obtain ⟨-, queue, -⟩ := s.runCmd_ring (ringKey g) c .waiting
    have runs : SameBut [.rings] s (s.runCmd (ringKey g) c .waiting) := State.runCmd_same _ _ _ (.refl s) rfl
    generalize s.runCmd (ringKey g) c .waiting = t at *
    refine ⟨_, _, body, SameBut.lit_faults (runs.mono rfl) rfl,
      congrArg (fun F : Faults => F.spares ++ _) (runs.faults (by decide)), ?_⟩
    exact ⟨rfl, rfl, rfl, rfl, queue⟩

end Sys2Proof.Machine
end

section
/-!
Partitions (R326 to R328, R497, R507): assignment, removal, reset and the end of RESETTING.
-/
namespace Sys2Proof.Machine

variable {s : State} {n : Nat}

/-! ### Partitions -/

theorem OtherParts.refl (n : Nat) (s : State) : OtherParts n s s := fun _ _ => rfl

theorem OtherParts.trans {s t u : State} (h : OtherParts n s t) (h' : OtherParts n t u) : OtherParts n s u :=
  fun j hj => (h' j hj).trans (h j hj)

theorem SameBut.otherParts {w : List Fld} {s t : State} (h : SameBut w s t) (hw : Fld.parts ∉ w) : OtherParts n s t :=
  fun j _ => h.part hw j

theorem otherParts_setPart (s : State) (n : Nat) (P : Part) : OtherParts n s (s.setPart n P) :=
  fun _ hj => s.part_setPart_ne P hj

theorem otherParts_updPart (s : State) (n : Nat) (f : Part → Part) : OtherParts n s (s.updPart n f) := otherParts_setPart s n _

/-- R328: a new state of the partition. -/
theorem State.setPState_part (s : State) (n : Nat) (st : PState) :
    (s.setPState n st).part n = { s.part n with state := st } ∧ OtherParts n s (s.setPState n st) := by
  unfold State.setPState
  split
  next same => exact ⟨by rw [← same], .refl n s⟩
  next =>
    refine ⟨?_, fun j hj => ?_⟩
    · rw [State.msix_part, State.msix_part, State.part_updPart_same]
    · rw [State.msix_part, State.msix_part]
      exact otherParts_updPart s n _ j hj

theorem State.setPState_frame (s : State) (n : Nat) (st : PState) : SameBut [.parts, .cores, .wire] s (s.setPState n st) :=
  State.setPState_same _ _ (.refl s) rfl

/-- R606: a served access takes a step from the debug module, and nothing more. -/
theorem State.reqStepped_step (s : State) (r : Req) : ∃ l, s.reqStepped r = { s with dbg := { s.dbg with dmiStep := l } } := by
  cases r <;> exact ⟨_, rfl⟩

@[simp] theorem stopAt_reqStepped (s : State) (r : Req) : (s.reqStepped r).dbg.stopAt = s.dbg.stopAt := by
  obtain ⟨l, hl⟩ := s.reqStepped_step r
  rw [hl]

@[simp] theorem arcFree_reqStepped (s : State) (r : Req) (a b : Nat) : arcFree (s.reqStepped r) a b = arcFree s a b := by
  obtain ⟨d, hd⟩ := s.reqStepped_eq r
  rw [hd]
  rfl

@[simp] theorem tdiLocked_reqStepped (s : State) (r : Req) (n : Nat) : tdiLocked (s.reqStepped r) n = tdiLocked s n := by
  simp [tdiLocked]

@[simp] theorem State.reqStepped_faults (s : State) (r : Req) : (s.reqStepped r).faults = s.faults :=
  (s.reqStepped_frame r).faults (by decide)

/-! ### Resets of a partition (R492, R497, R499) -/

theorem scope_of_index (n : Fin 16) : Scope.part (Fin.ofNat 16 n.val) = Scope.part n := by
  rw [Fin.ofNat_val_eq_self]

/-- R499: what takes a partition's reset over does not depend on the partitions. -/
theorem resetRuns_part_of_faults {t : State} (h : t.faults = s.faults) (n : Fin 16) :
    resetRuns t (.part n) = resetRuns s (.part n) := by
  have holds : ∀ sc, scopeHolds t sc (.part n) = scopeHolds s sc (.part n) := fun sc => by cases sc <;> rfl
  unfold resetRuns
  simp only [h, holds]

/-- R497: a partition that is neither free nor in reset enters RESETTING with a reset of its own. -/
theorem resetPart_effect {n : Fin 16} (why : ResetWhy) (taken : (s.part n.val).state ≠ .free) (calm : (s.part n.val).state ≠ .resetting)
    (runs : s.dbg.stopAt = none) (fresh : resetRuns s (.part n) = false) :
    SameBut [.parts, .faults, .wire, .cores] s (s.resetPart n.val why) ∧ OtherParts n.val s (s.resetPart n.val why) ∧
      ((s.resetPart n.val why).part n.val).state = .resetting ∧ ((s.resetPart n.val why).part n.val).why = some why ∧
      ∃ x ∈ (s.resetPart n.val why).faults.resets, x.scope = .part n ∧ x.limit = drainLimit s (.part n) ∧ x.cleared = false := by
  unfold State.resetPart
  rw [if_neg (by simp [taken, calm])]
  simp only [runs, Option.isSome_none, Bool.false_eq_true, if_false, scope_of_index]
  generalize hu : s.updPart n.val _ = u
  have noted : SameBut [.parts] s u := hu ▸ State.updPart_same _ _ (.refl s) rfl
  obtain ⟨part, others⟩ := u.setPState_part n.val .resetting
  have entered := u.setPState_frame n.val .resetting
  generalize u.setPState n.val .resetting = v at *
  have frame : SameBut [.parts, .cores, .wire] s v := (noted.mono rfl).trans entered
  have fresh' : resetRuns v (.part n) = false := (resetRuns_part_of_faults (frame.faults (by decide)) n).trans fresh
  have free : resetHeld v (.part n) = false := by
    unfold resetHeld
    rw [frame.dbg (by decide), runs]
    rfl
  have limit : drainLimit v (.part n) = drainLimit s (.part n) := by
    unfold drainLimit
    dsimp only
    rw [frame.fld (by decide)]
  unfold State.beginReset
  simp only [fresh', free, Bool.false_eq_true, if_false]
  refine ⟨SameBut.lit_faults (frame.mono rfl) rfl, (hu ▸ otherParts_updPart s n.val _ : OtherParts n.val s u).trans others, ?_, ?_,
    _, List.mem_append_right _ (List.mem_singleton_self _), rfl, limit, rfl⟩
  · exact congrArg Part.state part
  · refine (congrArg Part.why part).trans ?_
    rw [← hu, State.part_updPart_same]

/-! ### Writes of `PART_CFGp` (R327) -/

theorem cfgRej_effect (s : State) (n : Nat) :
    SameBut [.regs] s (s.cfgRej n) ∧ OtherRegs [partCfgReg n] s (s.cfgRej n) ∧ (s.cfgRej n).bit (partCfgReg n) 31 = true :=
  ⟨State.cfgRej_same _ (.refl s) rfl, otherRegs_setBit _ (by simp), s.bit_setBit_same _ (by decide)⟩

/-- R327: an arc that nobody has is assigned. -/
theorem writePartCfg_assigns {v : Word} (valid : nbit v.toNat 7 = true) (keeps : nbit v.toNat 31 = false)
    (open_ : tdiLocked s n = false) (unassigned : (s.part n).assigned = false) (free : (s.part n).state = .free)
    (arc : arcFree s (nbits v.toNat 0 4) (nbits v.toNat 4 3) = true) :
    writePartCfg n v s =
      (s.setFld (partCfgReg n) 0 8 (nbits v.toNat 0 8)).assignPart n (nbits v.toNat 0 4) (nbits v.toNat 4 3) := by
  unfold writePartCfg
  simp [valid, keeps, open_, unassigned, free, arc]

/-- R327: a wrong assignment is ignored. -/
theorem writePartCfg_rejects {v : Word} (valid : nbit v.toNat 7 = true) (keeps : nbit v.toNat 31 = false)
    (wrong : tdiLocked s n = true ∨ (s.part n).assigned = false ∧
      ((s.part n).state ≠ .free ∨ arcFree s (nbits v.toNat 0 4) (nbits v.toNat 4 3) = false)) :
    writePartCfg n v s = s.cfgRej n := by
  unfold writePartCfg
  simp only [keeps, Bool.false_eq_true, if_false, valid, if_true]
  cases locked : tdiLocked s n with
  | true => rfl
  | false =>
    obtain ⟨unassigned, bad⟩ := wrong.resolve_left (by simp [locked])
    rw [if_neg (by decide), if_neg (by simp [unassigned]), if_neg]
    rintro ⟨free, arc⟩
    rcases bad with taken | bad
    · exact taken free
    · simp [bad] at arc

/-- R327: a removal is a reset of the partition, where it is accepted. -/
theorem writePartCfg_removes {v : Word} (clear : nbit v.toNat 7 = false) (keeps : nbit v.toNat 31 = false)
    (open_ : tdiLocked s n = false) (taken : (s.part n).state ≠ .free) :
    writePartCfg n v s = if removable s n then s.resetPart n .remove else s.cfgRej n := by
  unfold writePartCfg
  simp [clear, keeps, open_, taken]

/-- R328: an assigned partition is in RESETTING with its arc. -/
theorem assignPart_effect (s : State) (n first log2 : Nat) :
    OtherParts n s (s.assignPart n first log2) ∧ (s.assignPart n first log2).part n =
      { s.part n with state := .resetting, first := first, sizeLog2 := log2, assigned := true, why := some .assign, enabled := false } := by
  obtain ⟨part, others⟩ := s.setPState_part n .resetting
  unfold State.assignPart
  dsimp only
  generalize s.setPState n .resetting = u at *
  generalize hv : u.updPart n _ = v
  have arcs : SameBut [.regs, .caps, .plots, .chans, .slices, .norias, .dram, .chk, .net, .links, .reqTabs, .stks, .sensors, .cores,
      .caches, .dbg, .cnts] v ((arcOf v n).foldl (fun s st => s.clearStack st) v) :=
    SameBut.foldl (.refl v) fun _ _ h => State.clearStack_same _ h rfl
  generalize (arcOf v n).foldl (fun s st => s.clearStack st) v = w at *
  refine ⟨(others.trans (hv ▸ otherParts_updPart u n _)).trans (arcs.otherParts (by decide)), (arcs.part (by decide) n).trans ?_⟩
  rw [← hv, State.part_updPart_same, part]

/-! ### The end of RESETTING (R328, R507) -/

/-- R327: of a removed partition nothing is left. -/
theorem freePart_effect (s : State) (n : Nat) :
    (s.freePart n).part n = {} ∧ (s.freePart n).bit (partCfgReg n) 7 = false := by
  unfold State.freePart
  dsimp only
  generalize hu : State.clrBit _ (partCfgReg n) 7 = u
  have cleared : u.bit (partCfgReg n) 7 = false := hu ▸ State.bit_clrBit_same _ _ (by decide)
  have part : u.part n = {} := by
    rw [← hu]
    exact State.part_setPart_same (s.setPState n .free) n {}
  have asked : SameBut [.stks, .wire] u ((arcOf s n).foldl (fun s st => s.requestVdd st 550) u) :=
    SameBut.foldl (.refl u) fun _ _ h => State.requestVdd_same _ _ h rfl
  exact ⟨(asked.part (by decide) n).trans part, (asked.bit (by decide) _ _).trans cleared⟩

/-- The stack is out of reset. -/
def Released (s : State) (st : Nat) : Prop := (s.stk st).inReset = false

theorem SameBut.stk {w : List Fld} {s t : State} (h : SameBut w s t) (hw : Fld.stks ∉ w) (j : Nat) : t.stk j = s.stk j := by
  unfold State.stk
  rw [h.stks hw]

theorem released_updStk {f : Stack → Stack} (st j : Nat) (hf : ∀ T, (f T).inReset = T.inReset) :
    Released (s.updStk st f) j ↔ Released s j := by
  unfold Released
  rw [State.stk_updStk]
  split
  next e => rw [hf, e]
  next => exact Iff.rfl

theorem released_requestVdd {st mv j : Nat} (h : Released s j) : Released (s.requestVdd st mv) j := by
  unfold State.requestVdd
  exact (released_updStk (s := s) (f := fun T => { T with vdd := mv }) st j fun _ => rfl).2 h

theorem released_stepVdd (st mv j n : Nat) (h : Released s j) : Released (s.stepVdd st mv n) j := by
  induction n generalizing s with
  | zero => exact h
  | succ n ih =>
    unfold State.stepVdd
    split
    · exact h
    · exact ih (released_requestVdd h)

/-- R495: a stack that is released is out of reset, and the others stay as they are. -/
theorem released_releaseStack (s : State) (st j : Nat) (h : Released s j ∨ j = st) : Released (s.releaseStack st) j := by
  unfold State.releaseStack
  dsimp only
  generalize hu : s.updStk st _ = u
  have out : Released u j := by
    rw [← hu]
    unfold Released
    rw [State.stk_updStk]
    split
    · rfl
    next other => exact h.resolve_right other
  have up : SameBut [.regs] u ((u.linksUp st).filledStack st) := State.filledStack_same _ (State.linksUp_same _ (.refl u) rfl) rfl
  generalize (u.linksUp st).filledStack st = v at *
  have started : Released (v.startGov st) j := by
    unfold State.startGov
    refine released_stepVdd _ _ _ _ ?_
    unfold Released at *
    simp only [State.setFld_others]
    rw [up.stk (by decide)]
    exact out
  have fenced : SameBut [.regs] (v.startGov st) ((List.range 32).foldl (fun s p =>
      if (s.plot (32 * st + p)).failed.isSome then (s.setBit (rhReg st (p / 8) 0x040) (p % 8)).setBit (rhReg st (p / 8) 0x040) (8 + p % 8)
      else s) (v.startGov st)) :=
    SameBut.foldl (.refl _) fun _ _ h => SameBut.trans h
      (SameBut.ite (State.setBit_same _ _ (State.setBit_same _ _ (.refl _) rfl) rfl) (.refl _))
  unfold Released at *
  rw [fenced.stk (by decide)]
  exact started

theorem released_foldl (l : List Nat) {j : Nat} (h : Released s j ∨ j ∈ l) :
    Released (l.foldl (fun s st => s.releaseStack st) s) j := by
  induction l generalizing s with
  | nil => exact h.resolve_right (by simp)
  | cons st l ih =>
    have next : Released (s.releaseStack st) j ∨ j ∈ l := by
      by_cases hj : Released s j ∨ j = st
      · exact .inl (released_releaseStack s st j hj)
      · have inTail := h.resolve_left fun r => hj (.inl r)
        exact .inr (List.mem_of_ne_of_mem (fun e => hj (.inr e)) inTail)
    rw [List.foldl_cons]
    generalize s.releaseStack st = t at next ⊢
    exact ih next

theorem foundStack_of_live {st : Nat} (h : (s.stk st).lost = false) : s.foundStack st = s := by
  unfold State.foundStack
  simp [h]

theorem foundStacks_of_live (l : List Nat) (h : ∀ st ∈ l, (s.stk st).lost = false) :
    l.foldl (fun s st => s.foundStack st) s = s := by
  induction l with
  | nil => rfl
  | cons st l ih =>
    have first := foundStack_of_live (h st (by simp))
    exact (congrArg (fun t => l.foldl (fun s st => s.foundStack st) t) first).trans (ih fun st' h' => h st' (by simp [h']))

/-- The reset leaves the list. -/
theorem partCleared_dropReset (s : State) (n : Nat) : partCleared (s.dropReset (isPart n)) n = false := by
  unfold partCleared State.dropReset
  dsimp only
  rw [List.any_eq_false]
  intro r hr
  obtain ⟨-, other⟩ := List.mem_filter.1 hr
  unfold isPart at other
  cases hs : r.scope <;> simp_all

theorem partCleared_of_faults {t : State} (h : t.faults = s.faults) (n : Nat) : partCleared t n = partCleared s n := by
  unfold partCleared
  rw [h]

/-- R328: what is left of the partition when its reset has left the list. -/
theorem endResetting_effect (s : State) (n : Nat) (trained : Bool) {u : State} (hu : endResetting n trained s = u) :
    partCleared u n = false ∧
      ((s.part n).why = some .remove → u.part n = {} ∧ u.bit (partCfgReg n) 7 = false) ∧
      ((s.part n).why ≠ some .remove → (∀ st ∈ arcOf s n, (s.stk st).lost = false) →
        (u.part n).state = (if (s.part n).why = some .assign then PState.idle else .stopped) ∧
        ∀ st ∈ arcOf s n, (u.stk st).inReset = false) ∧
      ((s.part n).why ≠ some .remove → trained = false → (∃ st ∈ arcOf s n, (s.stk st).lost = true) →
        (u.part n).state = .faulted) := by
  have gone := partCleared_dropReset s n
  have dropped : SameBut [.faults] s (s.dropReset (isPart n)) := State.dropReset_same _ (.refl s) rfl
  unfold endResetting at hu
  dsimp only at hu
  generalize s.dropReset (isPart n) = s1 at *
  rw [← dropped.part (by decide) n]
  have lostAs : ∀ st, (s1.stk st).lost = (s.stk st).lost := fun st => by rw [dropped.stk (by decide)]
  split at hu
  next removed =>
    have freed : SameBut [.regs, .caps, .stks, .parts, .cores, .wire] s1 u := by
      rw [← hu]
      exact State.freePart_same _ (State.tdiEnd_same _ (.refl s1) rfl) rfl
    refine ⟨(partCleared_of_faults (freed.faults (by decide)) n).trans gone, fun _ => ?_, fun h => absurd removed h,
      fun h => absurd removed h⟩
    rw [← hu]
    exact freePart_effect _ n
  next kept =>
    generalize hs2 : (if trained = true then (arcOf s n).foldl (fun s st => s.foundStack st) s1 else s1) = s2 at hu
    have found : SameBut [.regs, .stks] s1 s2 := by
      rw [← hs2]
      exact SameBut.ite (SameBut.foldl (.refl s1) fun _ _ h => State.foundStack_same _ h rfl) (.refl s1)
    generalize hlive : (arcOf s n).filter (fun st => !(s2.stk st).lost) = live at hu
    generalize hs3 : live.foldl (fun s st => s.releaseStack st) s2 = s3 at hu
    have released : SameBut [.regs, .stks, .wire] s2 s3 := by
      rw [← hs3]
      exact SameBut.foldl (.refl s2) fun _ _ h => State.releaseStack_same _ h rfl
    generalize hs4 : (s3.tdiEnd n).updPart n _ = s4 at hu
    have named : SameBut [.regs, .parts] s3 s4 := by
      rw [← hs4]
      exact State.updPart_same _ _ (State.tdiEnd_same _ (.refl s3) rfl) rfl
    have state_ : ∀ st, SameBut [.parts, .cores, .wire] s4 (s4.setPState n st) := fun st => s4.setPState_frame n st
    have ended : SameBut [.parts, .cores, .wire] s4 u := by
      rw [← hu]
      exact SameBut.ite (state_ _) (state_ _)
    have since : SameBut [.regs, .stks, .parts, .cores, .wire] s1 u :=
      (found.mono rfl).trans ((released.mono rfl).trans ((named.mono rfl).trans (ended.mono rfl)))
    refine ⟨(partCleared_of_faults (since.faults (by decide)) n).trans gone, fun h => absurd h kept, fun _ none_ => ?_,
      fun _ untrained some_ => ?_⟩
    · have whole : s2 = s1 := by
        rw [← hs2, foundStacks_of_live _ fun st hst => (lostAs st).trans (none_ st hst), ite_self]
      have all : live = arcOf s n := by
        rw [← hlive, List.filter_eq_self]
        intro st hst
        simp [whole, lostAs, none_ st hst]
      rw [if_neg (by simp [all])] at hu
      refine ⟨?_, fun st hst => ?_⟩
      · rw [← hu, State.setPState_state]
      · have out : Released s3 st := by
          rw [← hs3]
          exact released_foldl live (.inr (by rwa [all]))
        rw [ended.stk (by decide), named.stk (by decide)]
        exact out
    · have same : s2 = s1 := by rw [← hs2, untrained]; rfl
      obtain ⟨st, hst, lost⟩ := some_
      have fewer : live.length < (arcOf s n).length := by
        rw [← hlive]
        refine List.length_filter_lt_length_iff_exists.2 ⟨st, hst, ?_⟩
        simp [same, lostAs, lost]
      rw [if_pos fewer] at hu
      rw [← hu, State.setPState_state]

/-- Settles O35: a write of `PART_CFGp` is an assignment, a removal or a rejection; a reset enters RESETTING, whose end goes
by its cause. -/
theorem partitionsAreAssignedResetAndRemoved : Obligations.PartitionsAreAssignedResetAndRemoved := by
  unfold Obligations.PartitionsAreAssignedResetAndRemoved
  intro s n
  refine ⟨fun r v served valid keeps => ⟨fun open_ unassigned free arc => ?_, fun wrong => ?_⟩,
    fun r v served clear keeps runs fresh open_ => ⟨fun ok => ?_, fun no taken => ?_⟩,
    fun r served runs fresh taken calm => ?_, fun trained up resetting cleared => ?_⟩
  · have assigns := writePartCfg_assigns (s := s.reqStepped r) (n := n.val) valid keeps (by simpa using open_)
      (by simpa using unassigned) (by simpa using free) (by simpa using arc)
    generalize ht : (s.reqStepped r).setFld (partCfgReg n.val) 0 8 _ = t at assigns
    have noted : SameBut [.dbg, .regs] s t := ht ▸ State.setFld_same _ _ _ _ ((s.reqStepped_frame r).mono rfl) rfl
    obtain ⟨others, part⟩ := assignPart_effect t n.val (nbits v.toNat 0 4) (nbits v.toNat 4 3)
    refine ⟨_, (outcome_access _ served).trans (congrArg _ assigns), State.assignPart_same _ _ _ (noted.mono rfl) rfl,
      (noted.otherParts (by decide)).trans others, ?_, ?_, ?_, ?_, ?_⟩ <;> rw [part]
  · have rejects := writePartCfg_rejects (s := s.reqStepped r) (n := n.val) valid keeps (by simpa using wrong)
    obtain ⟨frame, regs, flag⟩ := cfgRej_effect (s.reqStepped r) n.val
    exact ⟨_, (outcome_access _ served).trans (congrArg _ rejects), frame,
      ((s.reqStepped_frame r).otherRegs (by decide) _).trans regs, flag⟩
  · have taken : (s.part n.val).state ≠ .free := fun e => by simp [removable, e] at ok
    have calm : (s.part n.val).state ≠ .resetting := fun e => by simp [removable, e] at ok
    have removes := writePartCfg_removes (s := s.reqStepped r) (n := n.val) clear keeps (by simpa using open_) (by simpa using taken)
    rw [if_pos (by simpa [removable] using ok)] at removes
    obtain ⟨frame, others, state_, why, x, hx, scope, -, -⟩ := resetPart_effect (s := s.reqStepped r) (n := n) .remove
      (by simpa using taken) (by simpa using calm) (by simpa using runs)
      ((resetRuns_part_of_faults (s.reqStepped_faults r) n).trans fresh)
    exact ⟨_, (outcome_access _ served).trans (congrArg _ removes), frame,
      ((s.reqStepped_frame r).otherParts (by decide)).trans others, state_, why, x, hx, scope⟩
  · have removes := writePartCfg_removes (s := s.reqStepped r) (n := n.val) clear keeps (by simpa using open_) (by simpa using taken)
    rw [if_neg (by simpa [removable] using no)] at removes
    obtain ⟨frame, regs, flag⟩ := cfgRej_effect (s.reqStepped r) n.val
    exact ⟨_, (outcome_access _ served).trans (congrArg _ removes), frame,
      ((s.reqStepped_frame r).otherRegs (by decide) _).trans regs, flag⟩
  · obtain ⟨frame, others, state_, -, x, hx, scope, limit, cleared⟩ := resetPart_effect (s := s.reqStepped r) (n := n) .reset
      (by simpa using taken) (by simpa using calm) (by simpa using runs)
      ((resetRuns_part_of_faults (s.reqStepped_faults r) n).trans fresh)
    refine ⟨_, outcome_access _ served, frame, ((s.reqStepped_frame r).otherParts (by decide)).trans others, state_, x, hx, scope,
      limit.trans ?_, cleared⟩
    simp [drainLimit]
  · have go : (pkgUp s && (s.part n.val).state == .resetting && partCleared s n.val) = true := by simp [up, resetting, cleared]
    exact ⟨_, congrArg Host.Outcome.next (if_pos go), endResetting_same _ _ (.refl s) rfl, endResetting_effect s n.val trained rfl⟩

end Sys2Proof.Machine
end

section
/-!
The host port (R309 to R325, R330): BAR2 and AtomicOps, doorbells and fetches; configuration space, function resets and the
hot reset.
-/
namespace Sys2Proof.Machine

section Landing
variable {s : State}

/-! ### BAR2 and AtomicOps (R319, R324) -/

/-- R324: a request that reaches the window. -/
theorem exec_bar2 {f : Fin 17} {tbit : Bool} (write : Bool) (off len : Nat) (data : List Byte) (up : pkgUp s = true)
    (ready : bootState s ≠ 0) (plain : tdiRefuses s f.val tbit = false) (bars : vfBars s f.val = true)
    (live : stopped s landingUnit = false) :
    exec (.bar2Access f write off len data false tbit) s = .next (bar2 f.val write off len data false s) := by
  refine congrArg Host.Outcome.next ?_
  simp only [up, ready, plain, bars, live, Bool.not_true, Bool.false_eq_true, if_false, or_self]

/-- R319: an AtomicOp that reaches its function. -/
theorem exec_atomic {f : Fin 17} {tbit : Bool} (bar : Fin 5) (op : AtomOp) (off : Nat) (x y : BitVec 64) (up : pkgUp s = true)
    (ready : bootState s ≠ 0) (plain : tdiRefuses s f.val tbit = false) (bars : vfBars s f.val = true)
    (live : stopped s landingUnit = false) :
    exec (.atomicOp f bar op off x y tbit) s = .next (atomic f.val bar.val op off x y s) := by
  refine congrArg Host.Outcome.next ?_
  simp only [up, ready, plain, bars, live, Bool.not_true, Bool.false_eq_true, if_false, or_self]

theorem bar2_inside {f off len : Nat} (write : Bool) (data : List Byte) (free : winLocked s f = false)
    (fits : (winOf s f).2 + off + len ≤ commonsSize s (winOf s f).1) :
    bar2 f write off len data false s =
      if write then
        (if devWriteGo s (commonsAddr (winOf s f).1 ((winOf s f).2 + off)) data.length then
          (s.devWrite (commonsAddr (winOf s f).1 ((winOf s f).2 + off)) data false .port).st else s)
      else if devReadGo s (commonsAddr (winOf s f).1 ((winOf s f).2 + off)) len then
        (let r := s.devRead (commonsAddr (winOf s f).1 ((winOf s f).2 + off)) len .port
         { r.st with reply := { data := r.data, poison := r.poison } }.send (.cplD f true r.data r.poison))
      else s := by
  unfold bar2
  simp [free, fits]

theorem bar2_outside {f off len : Nat} (write : Bool) (data : List Byte) (free : winLocked s f = false)
    (past : commonsSize s (winOf s f).1 < (winOf s f).2 + off + len) :
    bar2 f write off len data false s = if write then s.setBit (lndReg 0x044) 0 else s.allOnes f len := by
  unfold bar2
  simp [free, Nat.not_le.2 past]

theorem State.atomicRefused_effect (s : State) (f : Nat) :
    (s.atomicRefused f).bit (lndReg 0x044) 1 = true ∧ Msg.cplErr f false ∈ (s.atomicRefused f).wire := by
  refine ⟨?_, List.mem_append_right _ (List.mem_singleton_self _)⟩
  unfold State.atomicRefused
  rw [SameBut.bit (State.unsupported_same f (.refl _) rfl : SameBut [.reply, .wire] _ _) (by decide)]
  exact s.bit_setBit_same _ (by decide)

theorem atomic_inside {f off code n : Nat} {op : AtomOp} {x y : BitVec 64} {bytes : List Byte}
    (serves : atomOf op x y = some (code, n, bytes)) (aligned : off % n = 0) (free : winLocked s f = false)
    (fits : (winOf s f).2 + off + n ≤ commonsSize s (winOf s f).1)
    (go : devWriteGo s (commonsAddr (winOf s f).1 ((winOf s f).2 + off)) n = true) {r : DevRes}
    (hr : r = s.devWeir code (commonsAddr (winOf s f).1 ((winOf s f).2 + off)) bytes false) :
    atomic f 2 op off x y s =
      { r.st with reply := { data := r.data, poison := r.poison || r.lost } }.send (.cplD f true r.data (r.poison || r.lost)) := by
  unfold atomic
  simp only [if_true, serves]
  rw [if_neg (by simp [free, aligned, fits]), if_pos go, hr]

theorem atomic_other {f bar off : Nat} {op : AtomOp} {x y : BitVec 64} (h : bar ≠ 2 ∨ atomOf op x y = none) :
    atomic f bar op off x y s = s.atomicRefused f := by
  have none_ : (if bar = 2 then atomOf op x y else none) = none := by
    split
    next two => exact h.resolve_left (fun ne => ne two)
    next => rfl
  unfold atomic
  simp only [none_]

/-! ### Doorbells (R330) -/

theorem sqBell_effect (s : State) (k : Nat) (v : Word) :
    (v.toNat < sqSize s k → ((sqBell k v s).ring k).tail = v.toNat ∧ (sqBell k v s).regs = s.regs) ∧
      (sqSize s k ≤ v.toNat → (sqBell k v s).rings = s.rings ∧ (sqBell k v s).bit (ringReg k 0x18) 27 = true) := by
  have flagged : SameBut [.regs] s (s.setBit (ringReg k 0x18) 27) := State.setBit_same _ _ (.refl s) rfl
  refine ⟨fun inside => ?_, fun past => ?_⟩
  · have e : sqBell k v s = s.updRing k fun R => { R with tail := v.toNat } := if_neg (Nat.not_le.2 inside)
    rw [e, State.ring_updRing_same]
    exact ⟨rfl, rfl⟩
  · have e : sqBell k v s = s.setBit (ringReg k 0x18) 27 := if_pos past
    rw [e]
    exact ⟨flagged.rings (by decide), s.bit_setBit_same _ (by decide)⟩

theorem State.writeCpl_head (s : State) (k : Nat) (e : CplEnt) : ((s.writeCpl k e).ring k).cqHead = (s.ring k).cqHead := by
  unfold State.writeCpl
  dsimp only
  split
  · rw [msix_ring, State.ring_setRing_same]
  · rw [State.ring_setRing_same]

/-- R334: writing the held entries moves the tail, not the head. -/
theorem State.releaseCpls_head (s : State) (k : Nat) (l : List CplEnt) : ((s.releaseCpls k l).ring k).cqHead = (s.ring k).cqHead := by
  induction l generalizing s with
  | nil =>
    unfold State.releaseCpls
    rw [State.ring_updRing_same]
  | cons e es ih =>
    unfold State.releaseCpls
    split
    · rw [ih, State.writeCpl_head]
    · rw [State.ring_updRing_same]

theorem cqBell_effect (s : State) (k : Nat) (v : Word) :
    (v.toNat < cqSize s k → ((cqBell k v s).ring k).cqHead = v.toNat ∧ (cqBell k v s).regs = s.regs) ∧
      (cqSize s k ≤ v.toNat → (cqBell k v s).rings = s.rings ∧ (cqBell k v s).bit (ringReg k 0x18) 27 = true) := by
  have flagged : SameBut [.regs] s (s.setBit (ringReg k 0x18) 27) := State.setBit_same _ _ (.refl s) rfl
  refine ⟨fun inside => ?_, fun past => ?_⟩
  · unfold cqBell
    rw [if_neg (Nat.not_le.2 inside)]
    dsimp only
    generalize hu : s.updRing k _ = u
    have noted : SameBut [.rings] s u := hu ▸ State.updRing_same _ _ (.refl s) rfl
    have released : SameBut [.rings, .cores, .wire] u (u.releaseCpls k (u.ring k).held) := State.releaseCpls_same _ _ (.refl u) rfl
    refine ⟨?_, (released.regs (by decide)).trans (noted.regs (by decide))⟩
    rw [State.releaseCpls_head, ← hu, State.ring_updRing_same]
  · have e : cqBell k v s = s.setBit (ringReg k 0x18) 27 := if_pos past
    rw [e]
    exact ⟨flagged.rings (by decide), s.bit_setBit_same _ (by decide)⟩

/-! ### Fetches (R320, R330) -/

theorem State.dropRead_frame (s : State) (f i : Nat) : SameBut [.funcs] s (s.dropRead f i) := State.dropRead_same f i (.refl s) rfl

theorem SameBut.sqSize {w : List Fld} {s t : State} (h : SameBut w s t) (hw : Fld.regs ∉ w) (k : Nat) : sqSize t k = sqSize s k := by
  unfold Sys2Proof.Machine.sqSize
  rw [h.fld hw]

/-- R330: the fetched entries join the ring's queue and its head moves over them. -/
theorem State.takeEntries_effect (s : State) (k : Nat) (data : List Byte) :
    OtherRings k s (s.takeEntries k data) ∧
      ((s.takeEntries k data).ring k).queue.length = (s.ring k).queue.length + data.length / 64 ∧
      ((s.takeEntries k data).ring k).head = ((s.ring k).head + data.length / 64) % sqSize s k ∧
      ((s.takeEntries k data).ring k).queue.map (·.bytes) = (s.ring k).queue.map (·.bytes) ++
        (List.range (data.length / 64)).map fun j => (data.drop (64 * j)).take 64 := by
  unfold State.takeEntries
  dsimp only
  generalize hu : s.updFunc (k / 4) _ = u
  have noted : SameBut [.funcs] s u := hu ▸ State.updFunc_same _ _ (.refl s) rfl
  rw [State.ring_setRing_same]
  exact ⟨(noted.otherRings (by decide)).trans (otherRings_setRing u k _), by simp, rfl, by simp⟩

theorem lndReg_ne_ringReg (k off : Nat) : lndReg 0x044 ≠ ringReg k off := by
  unfold ringReg
  split
  · unfold lndReg regAddr
    omega
  · unfold lndReg partReg regAddr
    omega

/-- R320: the failed read of a fetch stops its ring. -/
theorem State.readFailed_fetch (s : State) (f i : Nat) {r : HostRead} (fetched : r.cmd = none) :
    SameBut [.regs, .rings, .funcs] s (s.readFailed f i r) ∧ ((s.readFailed f i r).ring r.ring).state = .stopped ∧
      (s.readFailed f i r).bit (ringReg r.ring 0x18) 28 = true ∧ (s.readFailed f i r).bit (lndReg 0x044) 2 = true := by
  unfold State.readFailed
  simp only [fetched]
  generalize hu : (s.dropRead f i).setBit (lndReg 0x044) 2 = u
  have noted : SameBut [.regs, .funcs] s u := hu ▸ State.setBit_same _ _ ((s.dropRead_frame f i).mono rfl) rfl
  have flagged : u.bit (lndReg 0x044) 2 = true := hu ▸ State.bit_setBit_same _ _ (by decide)
  generalize hv : u.updRing r.ring _ = v
  have halted : SameBut [.rings] u v := hv ▸ State.updRing_same _ _ (.refl u) rfl
  refine ⟨State.setBit_same _ _ ((noted.mono rfl).trans (halted.mono rfl)) rfl, ?_, State.bit_setBit_same _ _ (by decide), ?_⟩
  · rw [(State.setBit_same _ _ (.refl v) rfl : SameBut [.regs] v _).ring (by decide), ← hv, State.ring_updRing_same]
  · unfold State.setBit State.bit
    rw [State.fld_setFld_reg_ne _ _ _ _ _ _ (lndReg_ne_ringReg _ _)]
    have := halted.bit (by decide) (lndReg 0x044) 2
    unfold State.bit at this flagged
    rw [this]
    exact flagged

/-- Settles O37: window requests through `bar2_inside` and `bar2_outside`, doorbells, fetches. -/
theorem windowsDoorbellsAndFetches : Obligations.WindowsDoorbellsAndFetches := by
  unfold Obligations.WindowsDoorbellsAndFetches
  refine ⟨?_, fun s => ⟨?_, ?_, ?_, ?_⟩⟩
  · rintro s f off len data tbit w rfl up ready plain bars live free
    refine ⟨?_, fun fits go => ?_, fun past => ⟨?_, ?_⟩, ?_, fun x y bar op other => ?_⟩
    · rintro fits go r rfl
      have body := (bar2_inside false data free fits).trans ((if_neg (by decide)).trans (if_pos go))
      exact ⟨_, (exec_bar2 false off len data up ready plain bars live).trans (congrArg _ body), rfl, rfl,
        List.mem_append_right _ (List.mem_singleton_self _)⟩
    · have body := (bar2_inside true data free fits).trans ((if_pos rfl).trans (if_pos go))
      exact ⟨_, (exec_bar2 true off len data up ready plain bars live).trans (congrArg _ body), rfl,
        SameBut.plots (State.devWrite_same _ _ _ _ (.refl s) rfl :
          SameBut [.regs, .slices, .dram, .chk, .errs, .cores, .caches, .cnts, .wire] s _) (by decide)⟩
    · have body := (bar2_outside false data free past).trans (if_neg (by decide))
      exact ⟨_, (exec_bar2 false off len data up ready plain bars live).trans (congrArg _ body),
        State.allOnes_same _ _ (.refl s) rfl, rfl⟩
    · have body := (bar2_outside true data free past).trans (if_pos rfl)
      exact ⟨_, (exec_bar2 true off len data up ready plain bars live).trans (congrArg _ body),
        State.setBit_same _ _ (.refl s) rfl, s.bit_setBit_same _ (by decide)⟩
    · rintro x y op code n bytes serves aligned fits go r rfl
      exact ⟨_, (exec_atomic 2 op off x y up ready plain bars live).trans
        (congrArg _ (atomic_inside serves aligned free fits go rfl)), rfl, rfl⟩
    · obtain ⟨flagged, sent⟩ := s.atomicRefused_effect f.val
      refine ⟨_, (exec_atomic bar op off x y up ready plain bars live).trans (congrArg _ (atomic_other ?_)),
        State.atomicRefused_same _ (.refl s) rfl, flagged, sent⟩
      exact other
  · rintro g k v tbit rfl ok live
    refine ⟨⟨_, ?_, ?_, sqBell_effect s _ v⟩, ⟨_, ?_, ?_, cqBell_effect s _ v⟩⟩
    · refine congrArg Host.Outcome.next ?_
      simp only [ok, live, if_true, Bool.false_eq_true, if_false]
    · exact sqBell_same _ _ (.refl s) rfl
    · refine congrArg Host.Outcome.next ?_
      simp only [ok, live, if_true, Bool.false_eq_true, if_false]
    · exact cqBell_same _ _ (.refl s) rfl
  · rintro g k rfl ok
    exact ⟨_, _, congrArg Host.Outcome.next (if_pos ok), fetch_same _ (.refl s) rfl,
      congrArg Func.reads (State.func_updFunc_same s _ _), rfl, rfl, rfl, rfl⟩
  · rintro f i r data up live entry fetched whole
    have body : hostReadDone f.val i true data s = (s.dropRead f.val i).takeEntries r.ring data := by
      unfold hostReadDone readDone
      simp only [entry, fetched, if_true, whole]
    have dropped := s.dropRead_frame f.val i
    obtain ⟨others, len, head, bytes⟩ := (s.dropRead f.val i).takeEntries_effect r.ring data
    refine ⟨_, ?_, State.takeEntries_same r.ring data (dropped.mono rfl) rfl, (dropped.otherRings (by decide)).trans others, ?_, ?_, ?_⟩
    · rw [← body]
      refine congrArg Host.Outcome.next ?_
      simp only [up, live, Bool.not_true, Bool.false_eq_true, if_false]
    · rw [len, dropped.ring (by decide)]
    · rw [head, dropped.ring (by decide), dropped.sqSize (by decide)]
    · rw [bytes, dropped.ring (by decide)]
  · intro f i r up entry fetched
    obtain ⟨frame, halted, ringFlag, lndFlag⟩ := (s.lndCount 5).readFailed_fetch f.val i fetched
    have counted : SameBut [.lndErr] s (s.lndCount 5) := State.lndCount_same 5 (.refl s) rfl
    refine ⟨_, ?_, (counted.mono rfl).trans (frame.mono rfl), halted, ringFlag, lndFlag, ?_⟩
    · refine congrArg Host.Outcome.next ?_
      simp only [entry, up, Bool.not_true, Bool.false_eq_true, if_false]
    · rw [frame.lndErr (by decide)]
      unfold State.lndCount
      simp

/-! ### Configuration space and the link (R4, R315, R316) -/

theorem cfgServe_write {f off : Nat} {v : Word} (hi : off / 4 ≠ 0) (size : off / 4 ≠ 0x82) :
    cfgServe f true off v s = { s with cfg := (List.range 4).foldl (fun t i =>
      tput (cfgReset f (off / 4 * 4 + i)) t (4096 * f + off / 4 * 4 + i) (BitVec.ofNat 8 (v.toNat / 256 ^ i))) s.cfg } := by
  have plain : barSizeBad s f (off / 4 * 4) v = false := by
    have : (off / 4 * 4 == 0x208) = false := by simp; omega
    unfold barSizeBad
    rw [this, Bool.false_and]
  unfold cfgServe
  rw [if_pos rfl]
  rw [if_neg (by omega), if_neg (by simp [plain])]

/-- Bytes put one after another, each with a reset value of its own. -/
theorem tget_foldl_tput (d v : Nat → Byte) (a n : Nat) (t : Tbl Byte) {i : Nat} (h : i < n) :
    tget (d i) ((List.range n).foldl (fun t i => tput (d i) t (a + i) (v i)) t) (a + i) = v i := by
  induction n with
  | zero => omega
  | succ n ih =>
    rw [List.range_succ, List.foldl_append]
    simp only [List.foldl_cons, List.foldl_nil]
    by_cases e : i = n
    · subst e
      exact tget_tput_same _ _ _ _
    · rw [tget_tput_ne' _ _ _ _ (by omega)]
      exact ih (by omega)

theorem linkRec_effect (gen width : Nat) (hg : gen < 8) (hw : width < 32) (s : State) :
    (linkRec gen width s).fld (lndReg 0x040) 0 3 = gen ∧ (linkRec gen width s).fld (lndReg 0x040) 3 5 = width ∧
      (linkRec gen width s).bit (lndReg 0x040) 8 = (decide (0 < gen) && decide (0 < width)) ∧
      (linkRec gen width s).fld (lndReg 0x040) 10 16 = satAdd 16 (s.fld (lndReg 0x040) 10 16) 1 := by
  have flag : ∀ b : Bool, (b2n b % 2 ^ 1 == 1) = b := by decide
  have hg' : gen % 2 ^ 3 = gen := Nat.mod_eq_of_lt hg
  have hw' : width % 2 ^ 5 = width := Nat.mod_eq_of_lt hw
  unfold linkRec
  dsimp only
  generalize lndReg 0x040 = a
  refine ⟨?_, ?_, ?_, ?_⟩
  · rw [State.fld_setFld_ne _ _ _ (by decide) (by decide), State.fld_setFld_ne _ _ _ (by decide) (by decide),
      State.fld_setFld_ne _ _ _ (by decide) (by decide), State.fld_setFld_same _ _ _ (by decide), hg']
  · rw [State.fld_setFld_ne _ _ _ (by decide) (by decide), State.fld_setFld_ne _ _ _ (by decide) (by decide),
      State.fld_setFld_same _ _ _ (by decide), hw']
  · unfold State.bit
    rw [State.fld_setFld_ne _ _ _ (by decide) (by decide), State.fld_setFld_same _ _ _ (by decide), flag]
  · rw [State.fld_setFld_ne _ _ _ (by decide) (by decide), State.fld_setFld_ne _ _ _ (by decide) (by decide),
      State.fld_setFld_ne _ _ _ (by decide) (by decide), State.fld_setFld_ne _ _ _ (by decide) (by decide),
      State.fld_addFld_same _ _ _ (by decide)]

/-- R317: a function whose configuration space is reset. -/
theorem cfgByte_resetCfg (s : State) (f : Nat) {off : Nat} (h : off < 4096) : cfgByte (s.resetCfg f) f off = cfgReset f off := by
  unfold cfgByte State.resetCfg
  rw [tget_tkeep]
  have : (4096 * f + off) / 4096 = f := by omega
  simp [this]

theorem cfgByte_of_cfg {t : State} (h : t.cfg = s.cfg) (f off : Nat) : cfgByte t f off = cfgByte s f off := by
  unfold cfgByte
  rw [h]

/-- R497: a partition that is not free reads RESETTING after its reset has started, whether or not one runs already. -/
theorem resetPart_resetting {n : Fin 16} (why : ResetWhy) (taken : (s.part n.val).state ≠ .free) (runs : s.dbg.stopAt = none) :
    SameBut [.parts, .faults, .wire, .cores] s (s.resetPart n.val why) ∧ ((s.resetPart n.val why).part n.val).state = .resetting := by
  unfold State.resetPart
  split
  next no => exact ⟨.refl s, no.resolve_left taken⟩
  next =>
    simp only [runs, Option.isSome_none, Bool.false_eq_true, if_false]
    generalize hu : s.updPart n.val _ = u
    have noted : SameBut [.parts] s u := hu ▸ State.updPart_same _ _ (.refl s) rfl
    have part := u.setPState_state n.val .resetting
    have entered := u.setPState_frame n.val .resetting
    generalize u.setPState n.val .resetting = v at *
    have frame : SameBut [.parts, .cores, .wire] s v := (noted.mono rfl).trans entered
    have free : resetHeld v (.part (Fin.ofNat 16 n.val)) = false := by
      unfold resetHeld
      rw [frame.dbg (by decide), runs]
      rfl
    unfold State.beginReset
    simp only [free, Bool.false_eq_true, if_false]
    split
    · exact ⟨frame.mono rfl, part⟩
    · exact ⟨SameBut.lit_faults (frame.mono rfl) rfl, part⟩

/-! ### A function level reset of the physical function (R315) -/

/-- Ring `j` is as after reset. -/
def RingClear (s : State) (j : Nat) : Prop := s.ring j = {}

theorem RingClear.same {w : List Fld} {s t : State} {j : Nat} (clear : RingClear s j) (h : SameBut w s t) (hw : Fld.rings ∉ w) :
    RingClear t j := (h.ring hw j).trans clear

theorem RingClear.others {s t : State} {g j : Nat} (clear : RingClear s j) (h : OtherRings g s t) (ne : j ≠ g) : RingClear t j :=
  (h j ne).trans clear

theorem RingClear.updRing {s : State} {j : Nat} (clear : RingClear s j) (g : Nat) {f : Ring → Ring} (hf : f {} = {}) :
    RingClear (s.updRing g f) j := by
  unfold RingClear
  rw [State.ring_updRing]
  split
  next e => rw [← e, clear, hf]
  next => exact clear

theorem RingClear.foldl {α : Type} {j : Nat} {f : State → α → State} (hf : ∀ s x, RingClear s j → RingClear (f s x) j) (l : List α)
    {s : State} (clear : RingClear s j) : RingClear (l.foldl f s) j := by
  induction l generalizing s with
  | nil => exact clear
  | cons x l ih => exact ih (hf s x clear)

/-- A ring on which a command runs is not clear. -/
theorem RingClear.ne_of_find {s : State} {g j : Nat} {p : Cmd → Bool} {c : Cmd} (clear : RingClear s j)
    (found : (s.ring g).running.find? p = some c) : j ≠ g := by
  rintro rfl
  rw [clear] at found
  exact absurd found (by simp)

theorem RingClear.ended {s : State} {g j : Nat} (clear : RingClear s j) (ne : j ≠ g) (id : Nat) (c : Cmd) (status value : Nat) :
    RingClear (((s.dropCmd g id).endCmd g c status value).unfence g id) j := by
  have dropped : RingClear (s.dropCmd g id) j := clear.updRing g rfl
  have entered := dropped.others ((s.dropCmd g id).endCmd_ring g c status value).1 ne
  exact RingClear.foldl (fun s r h => h.updRing _ rfl) _ entered

theorem RingClear.endFences {s : State} {j : Nat} (clear : RingClear s j) (f n : Nat) : RingClear (s.endFences f n) j := by
  induction n generalizing s with
  | zero => exact clear
  | succ n ih =>
    unfold State.endFences
    split
    · exact clear
    next g c found =>
      obtain ⟨r, -, hit⟩ := List.exists_of_findSome?_eq_some found
      obtain ⟨c', found', e⟩ := Option.map_eq_some_iff.1 hit
      obtain ⟨rfl, rfl⟩ := Prod.mk.inj e
      exact ih (clear.ended (clear.ne_of_find found') _ _ _ _)

theorem RingClear.finishCmd {s : State} {j : Nat} (clear : RingClear s j) (g id status value : Nat) :
    RingClear (s.finishCmd g id status value) j := by
  unfold State.finishCmd
  split
  · exact clear
  next c found => exact (clear.ended (clear.ne_of_find found) _ _ _ _).endFences _ _

theorem RingClear.jobDone {s : State} {j : Nat} (clear : RingClear s j) (g id status bytes : Nat) :
    RingClear (s.jobDone g id status bytes) j := by
  unfold State.jobDone
  split
  · exact clear
  · split
    · dsimp only
      split
      · exact clear.finishCmd _ _ _ _
      · exact clear.updRing g rfl
    · exact clear

theorem RingClear.refillChan {s : State} {j : Nat} (clear : RingClear s j) (c n : Nat) : RingClear (s.refillChan c n) j := by
  induction n generalizing s with
  | zero => exact clear
  | succ n ih =>
    unfold State.refillChan
    split
    · exact clear
    · split
      · exact clear
      next g id d todo left status moved _ =>
        refine ih ?_
        have noted : RingClear (s.updCmd g id fun x => { x with st := .chans todo left status moved }) j := clear.updRing g rfl
        exact noted.same (State.updChan_same (msk := [.chans]) c _ (.refl _) rfl) (by decide)

theorem RingClear.iodEnd {s : State} {j : Nat} (clear : RingClear s j) (c : Nat) (d : Desc) (job : Option (Nat × Nat))
    (status bytes : Nat) (rejected : Bool) : RingClear (s.iodEnd c d job status bytes rejected) j := by
  unfold State.iodEnd
  split
  · exact clear.jobDone _ _ _ _
  · dsimp only
    have signalled : SameBut [.net, .chans] s (if rejected then s else s.iodSignal c d status) :=
      .ite (.refl s) (State.iodSignal_same _ _ _ (.refl s) rfl)
    exact clear.same (SameBut.ite (State.iodRecord_same _ _ signalled rfl) signalled) (by decide)

/-- R168: the next descriptors of a channel leave a clear ring clear. -/
theorem RingClear.iodNext {s : State} {j : Nat} (clear : RingClear s j) (c n : Nat) : RingClear (s.iodNext c n) j := by
  induction n generalizing s with
  | zero => exact clear
  | succ n ih =>
    unfold State.iodNext
    dsimp only
    split
    · exact clear
    next d job rest _ =>
      split
      · exact clear
      · have refilled : RingClear ((s.setChan c { s.chan c with queue := rest }).refillChan c 4) j :=
          RingClear.refillChan (clear.same (State.setChan_same (msk := [.chans]) c _ (.refl s) rfl) (by decide)) c 4
        split
        · exact ih (refilled.iodEnd _ _ _ _ _ _)
        · exact refilled.same (State.takeDesc_same (msk := [.regs, .chans, .reqTabs]) _ _ _ (.refl _) rfl) (by decide)

theorem RingClear.cancelJob {s : State} {j : Nat} (clear : RingClear s j) (g id : Nat) : RingClear (s.cancelJob g id) j := by
  unfold State.cancelJob
  dsimp only
  generalize hu : (List.range 32).foldl _ s = u
  have channels : RingClear u j := by
    rw [← hu]
    refine RingClear.foldl (fun s i h => ?_) _ clear
    have drained : SameBut [.chans] s (s.updChan (2048 + i) fun C => { C with queue := C.queue.filter fun x => x.2 != some (g, id) }) :=
      State.updChan_same _ _ (.refl s) rfl
    split
    · exact RingClear.iodNext (h.same (State.clearChan_same (msk := [.chans, .reqTabs]) _ (drained.mono rfl) rfl) (by decide)) _ _
    · exact h.same drained (by decide)
  refine RingClear.foldl (fun s i h => ?_) _ ?_
  · exact h.same (SameBut.ite (State.updGrp_same (msk := [.groups]) _ _ (.refl s) rfl) (.refl s)) (by decide)
  · have reads : SameBut [.funcs, .parts] u (u.updFunc (g / 4) fun F =>
        { F with reads := F.reads.filter fun r => !(r.ring == g && r.cmd == some id) }) := State.updFunc_same _ _ (.refl u) rfl
    exact channels.same (w := [.funcs, .parts, .faults])
      (SameBut.lit_faults (SameBut.foldl (reads.mono rfl) fun _ _ h => State.updPart_same _ _ h rfl) rfl) (by decide)

/-- The end of the commands of one ring leaves another clear ring clear. -/
theorem RingClear.abortCmds {s : State} {g j : Nat} (clear : RingClear s j) (ne : j ≠ g) (sel : Cmd → Bool) (status : Nat) :
    RingClear (s.abortCmds g sel status) j := by
  unfold State.abortCmds
  dsimp only
  refine RingClear.foldl (fun s c h => h.others (s.endCmd_ring g c status 0).1 ne) _ ?_
  exact (RingClear.foldl (fun s id h => (h.cancelJob g id).finishCmd g id status 0) _ clear).others (otherRings_updRing _ g _) ne

/-- R315: a ring of the physical function after its commands have ended. -/
def State.dropRing (s : State) (g : Nat) : State := (s.abortCmds g (fun _ => true) 0x21).setRing g {}

theorem ringClear_dropRing (s : State) (g : Nat) {j : Nat} (h : RingClear s j ∨ j = g) : RingClear (s.dropRing g) j := by
  by_cases e : j = g
  · subst e
    exact State.ring_setRing_same _ _ _
  · exact ((h.resolve_right e).abortCmds e _ _).others (otherRings_setRing _ g {}) e

theorem State.dropRing_frame (s : State) (g : Nat) :
    SameBut [.regs, .chans, .net, .reqTabs, .parts, .rings, .funcs, .groups, .cores, .faults, .wire] s (s.dropRing g) :=
  State.setRing_same _ _ (State.abortCmds_same _ _ _ (.refl s) rfl) rfl

theorem ringClear_foldl (l : List Nat) {s : State} {j : Nat} (h : RingClear s j ∨ j ∈ l) :
    RingClear (l.foldl State.dropRing s) j := by
  induction l generalizing s with
  | nil => exact h.resolve_right (by simp)
  | cons g l ih =>
    have next : RingClear (s.dropRing g) j ∨ j ∈ l := by
      by_cases hj : RingClear s j ∨ j = g
      · exact .inl (ringClear_dropRing s g hj)
      · have inTail := h.resolve_left fun r => hj (.inl r)
        exact .inr (List.mem_of_ne_of_mem (fun e => hj (.inr e)) inTail)
    rw [List.foldl_cons]
    exact ih next

theorem flrPfNow_effect (s : State) :
    (∀ g < 4, (flrPfNow s).ring g = {}) ∧ (∀ off < 4096, cfgByte (flrPfNow s) 0 off = cfgReset 0 off) ∧ (flrPfNow s).errf 0 = {} := by
  unfold flrPfNow
  dsimp only
  generalize hv : List.foldl _ (s.resetCfg 0) _ = v
  have all : [0, 1, 2, 3].foldl State.dropRing (s.resetCfg 0) = v := hv
  have ended : SameBut [.regs, .chans, .net, .reqTabs, .parts, .rings, .funcs, .groups, .cores, .faults, .wire] (s.resetCfg 0) v :=
    all ▸ SameBut.foldl (.refl _) fun _ _ h => h.trans (State.dropRing_frame _ _)
  have clear : ∀ g < 4, RingClear v g := fun g hg => all ▸ ringClear_foldl _ (.inr (by simp; omega))
  generalize hw : State.setErrf _ 0 {} = w
  have window : SameBut [.regs, .errs] v w := by
    rw [← hw]
    exact State.setErrf_same _ _ (State.setReg_same _ _ (State.setReg_same _ _ (SameBut.lit_regs (.refl v) rfl) rfl) rfl) rfl
  have dropped : ∀ f, SameBut [.regs, .funcs] w ((w.setReg (errReg 0 0x050) 0).updFunc 0 f) := fun f =>
    State.updFunc_same _ _ (State.setReg_same _ _ (.refl w) rfl) rfl
  have frame := fun f => (window.mono (msk := [.regs, .errs, .funcs]) rfl).trans ((dropped f).mono rfl)
  refine ⟨fun g hg => ?_, fun off hoff => ?_, ?_⟩
  · rw [(frame _).ring (by decide)]
    exact clear g hg
  · rw [cfgByte_of_cfg ((frame _).cfg (by decide)), cfgByte_of_cfg (ended.cfg (by decide))]
    exact cfgByte_resetCfg s 0 hoff
  · unfold State.errf
    rw [(dropped _).errs (by decide), ← hw]
    exact State.errf_setErrf_same _ _ _

/-! ### The hot reset (R315, R498) -/

theorem startBoot_effect (s : State) (warm : Bool) :
    SameBut [.freeCtr, .regs, .boot, .wire] s (s.startBoot warm) ∧ (s.startBoot warm).boot.running = true ∧
      (s.startBoot warm).boot.number = s.boot.number + 1 := by
  refine ⟨State.startBoot_same warm (.refl s) rfl, ?_⟩
  have said : ∀ u : State, SameBut [.freeCtr, .regs, .wire] u
      ((((u.setReg (bootReg 0x040) (BitVec.ofNat 32 (1 + b2n warm * 256))).setFld (pkgReg 0x044) 0 2 s.pins.bootMode.toNat).drawNonce).send
        (.uart [1])) := fun u =>
    State.send_same _ (State.drawNonce_same (State.setFld_same _ _ _ _ (State.setReg_same _ _ (.refl u) rfl) rfl) rfl) rfl
  unfold State.startBoot
  dsimp only
  rw [(said _).boot (by decide)]
  exact ⟨rfl, rfl⟩

theorem hotResetNow_effect (s : State) :
    (hotResetNow s).boot.running = true ∧ (hotResetNow s).boot.number = s.boot.number + 1 ∧ (hotResetNow s).rings = [] ∧
      (hotResetNow s).plots = [] ∧ (hotResetNow s).net = [] ∧ (hotResetNow s).fuses = s.fuses ∧ (hotResetNow s).store = s.store ∧
      (hotResetNow s).toll.ring = s.toll.ring := by
  obtain ⟨frame, running, number⟩ := startBoot_effect (s.clearPkg false) true
  unfold hotResetNow
  rw [frame.rings (by decide), frame.plots (by decide), frame.net (by decide), frame.fuses (by decide), frame.store (by decide),
    frame.toll (by decide)]
  exact ⟨running, number, rfl, rfl, rfl, rfl, rfl, rfl⟩

/-- Settles O38: configuration space byte by byte, the link's fields, and what each reset clears. -/
theorem linkAndFunctionResets : Obligations.LinkAndFunctionResets := by
  unfold Obligations.LinkAndFunctionResets
  refine fun s up => ⟨fun f off v => ⟨fun starting write => ?_, fun ready => ?_, fun ready hi size => ?_⟩, fun gen width => ?_,
    fun n ready unlocked runs taken => ?_, fun ready => ?_, ?_⟩
  · refine ⟨{ s with reply := { err := true } }.send (.retry f.val), ?_, State.send_same _ (SameBut.lit_reply (.refl s) rfl) rfl, rfl, rfl⟩
    refine congrArg Host.Outcome.next ?_
    simp only [up, starting, Bool.not_true, Bool.false_eq_true, if_false, if_true]
  · refine ⟨cfgServe f.val false off.toNat v s, ?_, ?_, rfl⟩
    · refine congrArg Host.Outcome.next ?_
      simp [up, ready]
    · exact State.send_same _ (State.answer_same _ (.refl s) rfl) rfl
  · refine ⟨cfgServe f.val true off.toNat v s, ?_, ?_, fun i hi4 => ?_⟩
    · refine congrArg Host.Outcome.next ?_
      simp [up, ready]
    · rw [cfgServe_write hi size]
      exact SameBut.lit_cfg (.refl s) rfl
    · rw [cfgServe_write hi size]
      unfold cfgByte
      dsimp only
      rw [← Nat.add_assoc]
      exact tget_foldl_tput (fun i => cfgReset f.val (off.toNat / 4 * 4 + i)) (fun i => BitVec.ofNat 8 (v.toNat / 256 ^ i)) _ 4 _ hi4
  · have bounds : gen.val < 8 ∧ width.val < 32 := by omega
    exact ⟨_, congrArg Host.Outcome.next (if_pos up), linkRec_same _ _ (.refl s) rfl, linkRec_effect _ _ bounds.1 bounds.2 s⟩
  · have cleared : SameBut [.cfg] s (s.resetCfg (n.val + 1)) := State.resetCfg_same _ (.refl s) rfl
    obtain ⟨frame, resetting⟩ := resetPart_resetting (s := s.resetCfg (n.val + 1)) .reset taken runs
    refine ⟨_, ?_, (cleared.mono rfl).trans (frame.mono rfl), resetting, fun off hoff => ?_⟩
    · refine congrArg Host.Outcome.next ?_
      have free : tdiLocked (s.resetCfg (n.val + 1)) n.val = false := unlocked
      simp only [up, ready, free, beq_self_eq_true, Bool.and_self, if_true, Bool.false_eq_true, if_false]
    · rw [cfgByte_of_cfg (frame.cfg (by decide))]
      exact cfgByte_resetCfg s _ hoff
  · refine ⟨_, ?_, flrPfNow_same (.refl s) rfl, flrPfNow_effect s⟩
    refine congrArg Host.Outcome.next ?_
    simp only [up, ready, decide_true, Bool.and_self, if_true]
  · exact ⟨_, congrArg Host.Outcome.next (if_pos up), hotResetNow_effect s⟩

end Landing
end Sys2Proof.Machine
end

section
/-!
Plots that fail (R508 to R510), the steward's traps and its watchdog (R95, R99, R150).
-/
namespace Sys2Proof.Machine

section Failing
variable {s : State} {k : Nat}

/-! ### A plot that fails (R508 to R510) -/

/-- The registers that hold the marks of a failure of plot `k`. -/
def MarkRegs (k a : Nat) : Prop :=
  a ∈ [fltReg 0x044, fltReg (0x080 + 4 * (k / 32)), fltReg (0x100 + 16 * (k / 32) + 4 * (k % 32 / 8)), bootReg (0x080 + 4 * (k / 32))]

/-- The registers that the failure of plot `k` can change. -/
def FailRegs (k a : Nat) : Prop := WorkRegs a ∨ RptRegs a ∨ a = rhReg (k / 32) (k % 32 / 8) 0x040 ∨ MarkRegs k a

theorem MarkRegs.failRegs {a : Nat} (h : MarkRegs k a) : FailRegs k a := .inr (.inr (.inr h))

theorem RegsBut.fencePlot {s0 : State} {byFault : Bool} (h : RegsBut (FailRegs k) s0 s) :
    RegsBut (FailRegs k) s0 (s.fencePlot k byFault) := by
  have hub : FailRegs k (rhReg (k / 32) (k % 32 / 8) 0x040) := .inr (.inr (.inl rfl))
  unfold State.fencePlot
  dsimp only
  generalize hu : (if byFault = true then _ else s.setBit (rhReg (k / 32) (k % 32 / 8) 0x040) (k % 8)) = u
  have set : RegsBut (FailRegs k) s0 u := hu ▸ .ite ((h.setBit hub).setBit hub) (h.setBit hub)
  refine .ite set (set.trans (RegsBut.mono (P := WorkRegs) ?_ fun _ => .inl))
  exact ((RegsBut.refl u).same (State.clearArr_same (msk := [.freeCtr, .plots]) k (.refl u) rfl) (by decide)).norFence

/-- R509: the work of a plot stops, and its queues are empty. -/
theorem stopPlotWork_effect (s : State) (k : Nat) :
    RegsBut WorkRegs s (s.stopPlotWork k) ∧ ∀ q < 4, ((s.stopPlotWork k).queue k q).entries = [] := by
  unfold State.stopPlotWork
  dsimp only
  have fenced : RegsBut WorkRegs s ((s.clearArr k).norFence k) :=
    ((RegsBut.refl s).same (State.clearArr_same (msk := [.freeCtr, .plots]) k (.refl s) rfl) (by decide)).norFence
  generalize (s.clearArr k).norFence k = t at *
  have cleared : SameBut [.chans, .reqTabs] t ((plotChans k).foldl (fun s c => s.clearChan c) t) :=
    SameBut.foldl (.refl t) fun _ _ h => State.clearChan_same _ h rfl
  generalize (plotChans k).foldl (fun s c => s.clearChan c) t = u at *
  generalize hv : u.updPlot k _ = v
  have emptied : SameBut [.plots] u v := hv ▸ State.updPlot_same _ _ (.refl u) rfl
  refine ⟨(fenced.same cleared (by decide)).same emptied (by decide), fun q hq => ?_⟩
  unfold State.queue
  rw [← hv, State.plot_updPlot_same]
  generalize u.plot k = P
  match q, hq with
  | 0, _ => rfl
  | 1, _ => rfl
  | 2, _ => rfl
  | 3, _ => rfl

theorem RegsBut.holdPlot {P : Nat → Prop} {s0 : State} {cause : FailCause} (h : RegsBut P s0 s) (hP : P (bootReg (0x080 + 4 * (k / 32)))) :
    RegsBut P s0 (s.holdPlot k cause) := by
  unfold State.holdPlot
  split
  · exact h.setBit hP
  · exact h.setBit hP
  · exact h

theorem RegsBut.propose {P : Nat → Prop} {s0 : State} {st pl : Nat} {d : Defect} (h : RegsBut P s0 s) (hr : ∀ f, P (errReg f 0x050))
    (hf : P (fltReg 0x044)) : RegsBut P s0 (s.propose st pl d) := by
  unfold State.propose
  exact .ite (h.addFld hf) (RegsBut.report (RegsBut.of_regs (s := s) rfl h) hr)

/-- The last steps of a failure: marks, the runs it ends, reports and a proposal. -/
def State.failMarks (s : State) (k cause : Nat) (own : Option Nat) (d : Defect) : State :=
  (((s.markFailed k cause).faultRuns k).report own 0x0B 2 (k / 32) (k % 32) 0).propose (k / 32) (k % 32) d

theorem State.failMarks_frame (s : State) (k cause : Nat) (own : Option Nat) (d : Defect) :
    SameBut [.regs, .parts, .rings, .errs, .cores, .faults, .wire] s (s.failMarks k cause own d) :=
  State.propose_same _ _ _ (State.report_same _ _ _ _ _ _ (State.faultRuns_same _ (State.markFailed_same _ _ (.refl s) rfl) rfl) rfl) rfl

theorem RegsBut.failMarks {P : Nat → Prop} {s0 : State} {cause : Nat} {own : Option Nat} {d : Defect} (h : RegsBut P s0 s)
    (hr : ∀ a, RptRegs a → P a) (hm : ∀ a, MarkRegs k a → P a) : RegsBut P s0 (s.failMarks k cause own d) := by
  have marked : RegsBut P s0 (s.markFailed k cause) := by
    unfold State.markFailed
    exact (h.setBit (hm _ (by simp [MarkRegs]))).setFld (hm _ (by simp [MarkRegs]))
  have ended : RegsBut P s0 ((s.markFailed k cause).faultRuns k) :=
    marked.same (State.faultRuns_same (msk := [.parts, .rings, .cores, .wire]) _ (.refl _) rfl) (by decide)
  have reports : ∀ f, P (errReg f 0x050) := fun f => hr _ ⟨f, rfl⟩
  exact (ended.report reports).propose reports (hm _ (by simp [MarkRegs]))

theorem failPlot_of_failed {cause : FailCause} (h : (s.plot k).failed.isSome = true) : s.failPlot k cause = s := if_pos h

/-- The registers that a failure changes once the plot is fenced. -/
def AfterFence (k a : Nat) : Prop := WorkRegs a ∨ RptRegs a ∨ MarkRegs k a

theorem not_afterFence {j : Nat} (hk : k < 512) : ¬ AfterFence k (rhReg (j / 32) (j % 32 / 8) 0x040) := by
  rintro (h | ⟨f, h⟩ | h)
  · exact not_workRegs_fence h
  · unfold rhReg errReg regAddr at h
    split at h <;> omega
  · simp only [MarkRegs, List.mem_cons, List.not_mem_nil, or_false, rhReg, fltReg, bootReg, regAddr] at h
    omega

/-- R508 to R510: a plot that has not failed reads FAILED with its cause, its queues are empty and its fence is set. -/
theorem failPlot_effect (cause : FailCause) (hk : k < 512) (fit : (s.plot k).failed = none) :
    RegsBut (FailRegs k) s (s.failPlot k cause) ∧ ((s.failPlot k cause).plot k).failed = some cause ∧
      (∀ q < 4, ((s.failPlot k cause).queue k q).entries = []) ∧ fenced (s.failPlot k cause) k = true := by
  unfold State.failPlot
  rw [if_neg (by simp [fit])]
  dsimp only
  have fence := (RegsBut.refl s).fencePlot (k := k) (byFault := true)
  have fenceBit := (fencePlot_bits s k k true).2
  generalize s.fencePlot k true = a at *
  obtain ⟨stops, empty⟩ := stopPlotWork_effect a k
  generalize a.stopPlotWork k = b at *
  generalize hc : b.updPlot k _ = c
  have plot : c.plot k = { b.plot k with failed := some cause } := by rw [← hc, State.plot_updPlot_same]
  have named : SameBut [.plots] b c := hc ▸ State.updPlot_same _ _ (.refl b) rfl
  have held : SameBut [.regs] c (c.holdPlot k cause) := State.holdPlot_same _ _ (.refl c) rfl
  have heldRegs : RegsBut (AfterFence k) a (c.holdPlot k cause) :=
    RegsBut.holdPlot ((stops.mono fun _ => .inl).same named (by decide)) (.inr (.inr (by simp [MarkRegs])))
  generalize c.holdPlot k cause = e at *
  change RegsBut (FailRegs k) s (e.failMarks k (causeCode cause) (partOf s (k / 32)) (badSiteEntry (k / 32) (siteOf s k))) ∧
    ((e.failMarks k (causeCode cause) (partOf s (k / 32)) (badSiteEntry (k / 32) (siteOf s k))).plot k).failed = some cause ∧
    (∀ q < 4, ((e.failMarks k (causeCode cause) (partOf s (k / 32)) (badSiteEntry (k / 32) (siteOf s k))).queue k q).entries = []) ∧
    fenced (e.failMarks k (causeCode cause) (partOf s (k / 32)) (badSiteEntry (k / 32) (siteOf s k))) k = true
  have marks := e.failMarks_frame k (causeCode cause) (partOf s (k / 32)) (badSiteEntry (k / 32) (siteOf s k))
  have regs : RegsBut (AfterFence k) a (e.failMarks k (causeCode cause) (partOf s (k / 32)) (badSiteEntry (k / 32) (siteOf s k))) :=
    heldRegs.failMarks (fun _ h => .inr (.inl h)) fun _ h => .inr (.inr h)
  generalize e.failMarks k (causeCode cause) (partOf s (k / 32)) (badSiteEntry (k / 32) (siteOf s k)) = u at *
  have samePlot : u.plot k = { b.plot k with failed := some cause } := by
    rw [marks.plot (by decide), held.plot (by decide), plot]
  refine ⟨fence.trans (regs.mono ?_), by rw [samePlot], fun q hq => ?_, ?_⟩
  · rintro r (h | h | h)
    · exact .inl h
    · exact .inr (.inl h)
    · exact h.failRegs
  · have before := empty q hq
    unfold State.queue at before ⊢
    rw [samePlot]
    generalize b.plot k = P at before ⊢
    exact before
  · unfold fenced at fenceBit ⊢
    rw [regs.bit (not_afterFence hk)]
    exact fenceBit

/-! ### The steward (R95, R99, R150) -/

theorem failPlot_dram (s : State) (k : Nat) (cause : FailCause) :
    (s.failPlot k cause).dram = s.dram ∧ (s.failPlot k cause).fuses = s.fuses := by
  have frame : SameBut [.freeCtr, .regs, .plots, .chans, .norias, .net, .reqTabs, .stks, .parts, .rings, .errs, .cores, .faults, .dbg, .cnts, .wire]
    s (s.failPlot k cause) := State.failPlot_same _ _ (.refl s) rfl
  exact ⟨frame.dram (by decide), frame.fuses (by decide)⟩

/-- R99: where a trap leaves the interrupt enables. -/
theorem trap_enables (w : Steward) (cause tval : BitVec 64) :
    nbit (w.trap cause tval).mstatus.toNat 3 = false ∧ nbit (w.trap cause tval).mstatus.toNat 7 = nbit w.mstatus.toNat 3 := by
  have word : ∀ x i, i < 64 → nbit (BitVec.ofNat 64 x).toNat i = nbit x i := by
    intro x i hi
    have whole : (BitVec.ofNat 64 x).toNat = nbits x 0 64 := by simp [nbits]
    rw [nbit_eq_nbits, nbit_eq_nbits, whole, nbits_nbits _ _ _ _ _ (by omega), Nat.zero_add]
  unfold Steward.trap
  dsimp only
  rw [word _ 3 (by decide), word _ 7 (by decide)]
  simp only [nbit_eq_nbits]
  refine ⟨?_, ?_⟩
  · rw [nbits_putBits_ne _ _ (by decide), nbits_putBits_same]
    rfl
  · rw [nbits_putBits_ne _ _ (by decide), nbits_putBits_ne _ _ (by decide), nbits_putBits_same]
    have : nbits w.mstatus.toNat 3 1 < 2 ^ 1 := nbits_lt _ _ _
    rw [Nat.mod_eq_of_lt this]

/-- Addresses agree only in page and offset. -/
theorem regAddr_eq {d p o d' p' o' : Nat} (h : regAddr d p o = regAddr d' p' o') (ho : o < 4096) (ho' : o' < 4096) :
    512 * d + p = 512 * d' + p' ∧ o = o' := by
  unfold regAddr at h
  omega

theorem not_failRegs_watchdog (hk : k < 512) : ¬ FailRegs k (pqReg k 0x07C) := by
  rintro ((⟨p, h⟩ | ⟨c, h⟩ | ⟨o, ho, h⟩) | ⟨f, h⟩ | h | h)
  · exact absurd (regAddr_eq h (by decide) (by decide)).2 (by decide)
  · unfold cntPage at h
    split_ifs at h
    all_goals exact absurd (regAddr_eq h (by decide) (by decide)).2 (by decide)
  · have := (regAddr_eq h (by decide) ho.2).1
    omega
  · unfold errReg at h
    split_ifs at h
    all_goals exact absurd (regAddr_eq h (by decide) (by decide)).2 (by decide)
  · exact absurd (regAddr_eq h (by decide) (by decide)).2 (by decide)
  · simp only [MarkRegs, List.mem_cons, List.not_mem_nil, or_false] at h
    rcases h with h | h | h | h
    all_goals
      have := (regAddr_eq h (by decide) (by omega)).1
      omega

theorem stewardFault_effect (hk : k < 512) :
    ((stewardFault k s).plot k).failed = some ((s.plot k).failed.getD .steward) ∧ (stewardFault k s).bit (pqReg k 0x07C) 30 = true := by
  unfold stewardFault
  have flagged : (s.setBit (pqReg k 0x07C) 30).bit (pqReg k 0x07C) 30 = true := s.bit_setBit_same _ (by decide)
  have noted : SameBut [.regs] s (s.setBit (pqReg k 0x07C) 30) := State.setBit_same _ _ (.refl s) rfl
  generalize s.setBit (pqReg k 0x07C) 30 = t at *
  rw [← noted.plot (by decide) k]
  cases failed : (t.plot k).failed with
  | some c =>
    rw [failPlot_of_failed (by simp [failed])]
    exact ⟨by simp [failed], flagged⟩
  | none =>
    obtain ⟨regs, cause, -, -⟩ := failPlot_effect .steward hk failed
    refine ⟨cause, ?_⟩
    rw [regs.bit, flagged]
    exact not_failRegs_watchdog hk

/-- Settles O48: a trap keeps the registers, and the plot's failure is `failPlot_effect`. -/
theorem stewardsTrapAndAreWatched : Obligations.StewardsTrapAndAreWatched := by
  unfold Obligations.StewardsTrapAndAreWatched
  rintro s p _ rfl
  have hk := plotKey_lt p
  refine ⟨fun cause tval runs => ?_, fun r served => ⟨?_, ?_⟩, fun due => ?_⟩
  · refine ⟨_, congrArg Host.Outcome.next (if_pos runs), ?_⟩
    generalize hu : s.updPlot (plotKey p) (fun P => { P with stw := P.stw.trap cause tval }) = u
    have trapped : SameBut [.plots] s u := hu ▸ State.updPlot_same _ _ (.refl s) rfl
    have stepped : SameBut [.dbg] u (u.hartStepped (1024 + plotKey p)) := State.hartStepped_same _ (.refl u) rfl
    have others : OtherPlots (plotKey p) s u := hu ▸ otherPlots_updPlot s _ _
    have plot : u.plot (plotKey p) = { s.plot (plotKey p) with stw := (s.plot (plotKey p)).stw.trap cause tval } := by
      rw [← hu, State.plot_updPlot_same]
    refine ⟨(trapped.mono rfl).trans (stepped.mono rfl), others.trans (stepped.otherPlots (by decide) _), ?_⟩
    rw [stepped.plot (by decide), plot]
    exact ⟨rfl, rfl, rfl, rfl, rfl, trap_enables _ cause tval⟩
  · obtain ⟨failed, flagged⟩ := stewardFault_effect (s := s.reqStepped r) hk
    rw [State.reqStepped_plot] at failed
    have stepped := s.reqStepped_frame r
    have frame : SameBut [.freeCtr, .regs, .plots, .chans, .norias, .net, .reqTabs, .stks, .parts, .rings, .errs, .cores, .faults, .dbg, .cnts, .wire]
      (s.reqStepped r) (stewardFault (plotKey p) (s.reqStepped r)) := stewardFault_same _ (.refl _) rfl
    exact ⟨_, outcome_access _ served, failed, flagged, (frame.dram (by decide)).trans (stepped.dram (by decide)),
      (frame.fuses (by decide)).trans (stepped.fuses (by decide))⟩
  · have stepped := s.reqStepped_frame r
    refine ⟨_, outcome_access _ served, kickDog_same _ (.refl _) rfl,
      (stepped.otherPlots (by decide) _).trans (otherPlots_updPlot _ _ _), ?_⟩
    unfold kickDog
    rw [State.plot_updPlot_same, State.reqStepped_plot, stepped.tb (by decide)]
  · have fit : (s.plot (plotKey p)).failed = none := by
      simp only [dogRuns, Bool.and_eq_true, Option.isNone_iff_eq_none] at due
      exact due.1.1.2
    obtain ⟨-, cause, empty, fence⟩ := failPlot_effect .watchdog hk fit
    refine ⟨_, congrArg Host.Outcome.next (if_pos due), cause, (failPlot_dram s _ _).1, fun q hq => empty q ?_, fence⟩
    simp only [List.mem_cons, List.not_mem_nil, or_false] at hq
    omega

end Failing
end Sys2Proof.Machine
end

section
/-!
Defect proposals (R511, R523), self-tests (R475, R476, R515 to R517) and the end of SPARE_IN (R512, R513).
-/
namespace Sys2Proof.Machine

section Tests
variable {s : State}

/-! ### Proposals (R511, R523) -/

theorem State.caps_capture_ne {a b : Nat} (x : Word) (h : b ≠ a) : tget none (s.capture a x).caps b = tget none s.caps b := by
  unfold State.capture
  exact tget_tput_ne' none none s.caps (some x) h

theorem popProp_empty (none_ : s.faults.props = []) : popProp s = s.answer (leBytes 4 0) := by
  unfold popProp
  rw [none_]

theorem popProp_cons {d : Defect} {rest : List Defect} (some_ : s.faults.props = d :: rest) :
    (popProp s).faults = { s.faults with props := rest } ∧ (popProp s).reply = { data := leBytes 4 (nth 0 d 0).toNat } ∧
      tget none (popProp s).caps (fltReg 0x04C) = some (nth 0 d 1) ∧ tget none (popProp s).caps (fltReg 0x050) = some (nth 0 d 2) ∧
      tget none (popProp s).caps (fltReg 0x054) = some (nth 0 d 3) := by
  unfold popProp
  rw [some_]
  refine ⟨rfl, rfl, ?_, ?_, ?_⟩
  · exact (State.caps_capture_ne _ (by decide)).trans ((State.caps_capture_ne _ (by decide)).trans (State.caps_capture _ _ _))
  · exact (State.caps_capture_ne _ (by decide)).trans (State.caps_capture _ _ _)
  · exact State.caps_capture _ _ _

/-! ### Self-tests (R476, R515 to R517) -/

theorem State.startTest_frame (s : State) (t : TestReq) : SameBut [.regs, .plots, .norias, .sensors] s (s.startTest t) :=
  State.startTest_same t (.refl s) rfl

theorem startTest_scratch {t : TestReq} (two : t.test = 2) :
    ((s.startTest t).plot (32 * t.stack + t.idx)).tank = [] ∧ ((s.startTest t).plot (32 * t.stack + t.idx)).acc = [] := by
  have body : s.startTest t =
      s.updPlot (32 * t.stack + t.idx) fun P => { P with tank := [], tankPoison := [], acc := [], accPoison := [] } := by
    unfold State.startTest
    rw [two]
    rfl
  rw [body, State.plot_updPlot_same]
  exact ⟨rfl, rfl⟩

theorem propose_running (s : State) (st pl : Nat) (d : Defect) : (s.propose st pl d).faults.running = s.faults.running := by
  unfold State.propose
  split
  · rw [SameBut.faults (w := [.regs]) (State.addFld_same _ _ _ _ (.refl s) rfl) (by decide)]
  · rw [SameBut.faults (w := [.regs, .errs, .cores, .wire]) (State.report_same _ _ _ _ _ _ (.refl _) rfl) (by decide)]

theorem failMarks_running (s : State) (k cause : Nat) (own : Option Nat) (d : Defect) :
    (s.failMarks k cause own d).faults.running = s.faults.running := by
  have marked : SameBut [.regs, .parts, .rings, .errs, .cores, .wire] s
      (((s.markFailed k cause).faultRuns k).report own 0x0B 2 (k / 32) (k % 32) 0) :=
    State.report_same _ _ _ _ _ _ (State.faultRuns_same _ (State.markFailed_same _ _ (.refl s) rfl) rfl) rfl
  unfold State.failMarks
  rw [propose_running, marked.faults (by decide)]

/-- The failure of a plot leaves the tests that run, and the plot has failed. -/
theorem failPlot_running (s : State) (k : Nat) (cause : FailCause) :
    (s.failPlot k cause).faults.running = s.faults.running ∧ ((s.failPlot k cause).plot k).failed ≠ none := by
  by_cases failed : (s.plot k).failed.isSome = true
  · rw [failPlot_of_failed failed]
    exact ⟨rfl, fun h => by simp [h] at failed⟩
  unfold State.failPlot
  rw [if_neg failed]
  dsimp only
  have work : SameBut [.freeCtr, .regs, .plots, .chans, .norias, .net, .reqTabs, .stks, .parts, .rings, .cores, .dbg, .cnts, .wire] s
      ((s.fencePlot k true).stopPlotWork k) := State.stopPlotWork_same _ (State.fencePlot_same _ _ (.refl s) rfl) rfl
  generalize (s.fencePlot k true).stopPlotWork k = a at *
  generalize hb : a.updPlot k _ = b
  have plot : (b.plot k).failed = some cause := by rw [← hb, State.plot_updPlot_same]
  have named : SameBut [.plots] a b := hb ▸ State.updPlot_same _ _ (.refl a) rfl
  have held : SameBut [.regs] b (b.holdPlot k cause) := State.holdPlot_same _ _ (.refl b) rfl
  generalize b.holdPlot k cause = e at *
  change (e.failMarks k (causeCode cause) (partOf s (k / 32)) (badSiteEntry (k / 32) (siteOf s k))).faults.running = _ ∧
    ((e.failMarks k (causeCode cause) (partOf s (k / 32)) (badSiteEntry (k / 32) (siteOf s k))).plot k).failed ≠ none
  have marks := e.failMarks_frame k (causeCode cause) (partOf s (k / 32)) (badSiteEntry (k / 32) (siteOf s k))
  refine ⟨?_, ?_⟩
  · rw [failMarks_running, held.faults (by decide), named.faults (by decide), work.faults (by decide)]
  · rw [marks.plot (by decide), held.plot (by decide), plot]
    exact fun h => nomatch h

theorem failPlots_running (l : List Nat) (cause : FailCause) :
    (l.foldl (fun s k => s.failPlot k cause) s).faults.running = s.faults.running := by
  induction l generalizing s with
  | nil => rfl
  | cons k l ih => exact ih.trans (failPlot_running s k cause).1

theorem testFailed_running (s : State) (t : TestReq) : (s.testFailed t).faults.running = s.faults.running := by
  have same : ∀ {w : List Fld} {u : State}, SameBut w s u → Fld.faults ∉ w → u.faults.running = s.faults.running := fun h hw => by
    rw [h.faults hw]
  unfold State.testFailed
  split
  · exact (failPlot_running s _ _).1
  · exact (failPlot_running s _ _).1
  · exact (failPlot_running s _ _).1
  · exact failPlots_running _ _
  · exact same (w := [.regs]) (State.refreshRoute_same _ (State.setFld_same _ _ _ _ (.refl s) rfl) rfl) (by decide)
  · exact same (w := [.regs, .sensors, .errs, .cores, .wire]) (State.calFailed_same _ _ (.refl s) rfl) (by decide)
  · rfl
  · rfl

theorem testFailed_plot {t : TestReq} (plotTest : t.test ∈ [(1 : Byte), 2, 3]) :
    ((s.testFailed t).plot (32 * t.stack + t.idx)).failed ≠ none := by
  have body : s.testFailed t = s.failPlot (32 * t.stack + t.idx) .selftest := by
    unfold State.testFailed
    simp only [List.mem_cons, List.not_mem_nil, or_false] at plotTest
    rcases plotTest with h | h | h <;> rw [h] <;> rfl
  rw [body]
  exact (failPlot_running s _ _).2

theorem testFailed_stack {t : TestReq} (ten : t.test = 10) (inPackage : t.stack < 16) :
    (s.testFailed t).bit (bootReg 0x04C) (16 + t.stack) = true := by
  have body : s.testFailed t = s.setBit (bootReg 0x04C) (16 + t.stack) := by
    unfold State.testFailed
    rw [ten]
    rfl
  rw [body]
  exact s.bit_setBit_same _ (by omega)

/-! ### The end of SPARE_IN (R512, R513) -/

theorem siteOf_of_regs {t : State} {P : Nat → Prop} (h : RegsBut P s t) {k : Nat} (hP : ¬ P (dfReg (k / 32) (0x040 + k % 32 / 4 * 4))) :
    siteOf t k = siteOf s k := by
  unfold siteOf
  rw [h.fld hP]

theorem State.spareFail_effect (s : State) (x : SpareRun) (status : Nat) :
    SameBut [.faults, .rings, .cores, .wire] s (s.spareFail x status) ∧
      ∀ y ∈ ((s.spareFail x status).ring x.job.2.1).running, y.id ≠ x.job.2.2 :=
  ⟨State.spareFail_same _ _ (.refl s) rfl, notRunning_finishCmd _ _ _ _ _⟩

/-- R511: a proposal is reported and changes no site. -/
theorem siteOf_propose (s : State) (k st pl : Nat) (d : Defect) : siteOf (s.propose st pl d) k = siteOf s k := by
  have regs : RegsBut (fun a => RptRegs a ∨ a = fltReg 0x044) s (s.propose st pl d) :=
    (RegsBut.refl s).propose (fun f => .inl ⟨f, rfl⟩) (.inr rfl)
  refine siteOf_of_regs regs ?_
  unfold dfReg
  rintro (⟨f, h⟩ | h)
  · unfold errReg regAddr at h
    split_ifs at h <;> omega
  · unfold fltReg regAddr at h
    split_ifs at h <;> omega

/-- R512: what becomes of the plot's site, marks and fence. -/
def State.spareMarks (s : State) (st k site : Nat) (f : Stack → Stack) : State :=
  (((s.setFld (dfReg st (0x040 + k % 32 / 4 * 4)) (8 * (k % 32 % 4)) 6 site).updStk st f).markOk k).liftFence k

theorem State.markOk_failed (s : State) (k : Nat) : ((s.markOk k).plot k).failed = none := by
  unfold State.markOk
  dsimp only
  rw [State.plot_updPlot_same]

theorem State.liftFence_frame (s : State) (k : Nat) : SameBut [.regs] s (s.liftFence k) := State.liftFence_same _ (.refl s) rfl

theorem fenced_liftFence (s : State) (k : Nat) : fenced (s.liftFence k) k = false := by
  unfold State.liftFence fenced
  dsimp only
  have first := s.bit_clrBit_same (rhReg (k / 32) (k % 32 / 8) 0x040) (i := k % 8) (by omega)
  generalize s.clrBit (rhReg (k / 32) (k % 32 / 8) 0x040) (k % 8) = t at first ⊢
  unfold State.clrBit
  rw [State.bit_setFld_ne (by omega) (by omega)]
  exact first

theorem RegsBut.liftFence {P : Nat → Prop} {s0 : State} {k : Nat} (h : RegsBut P s0 s) (hP : P (rhReg (k / 32) (k % 32 / 8) 0x040)) :
    RegsBut P s0 (s.liftFence k) := (h.clrBit hP).clrBit hP

theorem RegsBut.markOk {P : Nat → Prop} {s0 : State} {k : Nat} (h : RegsBut P s0 s) (hP : ∀ a, MarkRegs k a → P a) :
    RegsBut P s0 (s.markOk k) := by
  unfold State.markOk
  dsimp only
  have marked := (h.clrBit (i := k % 32) (hP (fltReg (0x080 + 4 * (k / 32))) (by simp [MarkRegs]))).setFld (lo := 4 * (k % 8)) (w := 4)
    (x := 0) (hP (fltReg (0x100 + 16 * (k / 32) + 4 * (k % 32 / 8))) (by simp [MarkRegs]))
  exact marked.same (State.updPlot_same (msk := [.plots]) _ _ (.refl _) rfl) (by decide)

/-- Marks and fence are no site. -/
theorem siteOf_liftFence_markOk (s : State) {k : Nat} (hk : k < 512) : siteOf ((s.markOk k).liftFence k) k = siteOf s k := by
  have regs : RegsBut (fun a => MarkRegs k a ∨ a = rhReg (k / 32) (k % 32 / 8) 0x040) s ((s.markOk k).liftFence k) :=
    ((RegsBut.refl s).markOk fun _ => .inl).liftFence (.inr rfl)
  refine siteOf_of_regs regs ?_
  simp only [MarkRegs, List.mem_cons, List.not_mem_nil, or_false, dfReg, if_pos (show k / 32 < 16 by omega)]
  rintro ((h | h | h | h) | h)
  all_goals
    have := (regAddr_eq h (by omega) (by omega)).1
    omega

theorem spareMarks_effect (s : State) {st k site : Nat} (hk : k < 512) (hs : st = k / 32) (hsite : site < 64) (f : Stack → Stack) :
    siteOf (s.spareMarks st k site f) k = site ∧ ((s.spareMarks st k site f).plot k).failed = none ∧
      fenced (s.spareMarks st k site f) k = false := by
  unfold State.spareMarks
  refine ⟨?_, ?_, fenced_liftFence _ _⟩
  · rw [siteOf_liftFence_markOk _ hk]
    unfold siteOf
    rw [State.updStk_fld, hs, show k % 32 % 4 = k % 4 by omega, State.fld_setFld_same _ _ _ (by omega)]
    omega
  · rw [(State.liftFence_frame _ k).plot (by decide)]
    exact State.markOk_failed _ _

/-- R512: a spare takes the plot's place. -/
theorem spareDone_effect (s : State) {x : SpareRun} {k : Nat} (hk : k = 32 * x.stack + x.plot) (hst : x.stack < 16) (hpl : x.plot < 32)
    (hsite : x.site < 64) :
    siteOf (s.spareDone x) k = x.site ∧ ((s.spareDone x).plot k).failed = none ∧ fenced (s.spareDone x) k = false ∧
      ∀ y ∈ ((s.spareDone x).ring x.job.2.1).running, y.id ≠ x.job.2.2 := by
  have place : k / 32 = x.stack ∧ k % 32 = x.plot := by omega
  unfold State.spareDone
  rw [← hk]
  dsimp only
  generalize State.updPlot _ k (fun P => { P with prog := [] }) = b
  generalize hm : State.liftFence _ k = m
  have marks : siteOf m k = x.site ∧ (m.plot k).failed = none ∧ fenced m k = false := by
    rw [← hm, ← place.2]
    exact spareMarks_effect b (by omega) place.1.symm hsite _
  obtain ⟨site, fit, free⟩ := marks
  generalize hv : State.mk _ _ _ _ _ _ _ _ _ _ _ _ _ _ _ _ _ _ _ _ _ _ _ _ _ _ _ _ _ _ _ _ _ _ _ _ _ _ _ _ _ _ _ = v
  have emptied : SameBut [.parts, .sec, .faults] m v := hv ▸ SameBut.lit_faults (State.emptySlots_same _ _ (.refl m) rfl) rfl
  have ended := v.finishCmd_frame x.job.2.1 x.job.2.2 0 k
  have all : SameBut [.parts, .sec, .faults, .rings, .cores, .wire] m (v.finishCmd x.job.2.1 x.job.2.2 0 k) :=
    (emptied.mono rfl).trans (ended.mono rfl)
  refine ⟨?_, ?_, ?_, notRunning_finishCmd _ _ _ _ _⟩
  · unfold siteOf at site ⊢
    rw [all.fld (by decide), site]
  · rw [all.plot (by decide), fit]
  · unfold fenced at free ⊢
    rw [all.bit (by decide), free]

/-- R523: a proposal is popped oldest first, and the rest of it is captured. -/
theorem fltPropPop_effect {r : Req} (served : reach s r true (fltReg 0x048) = .ok) :
    ∃ u, exec (.fltPropPop r) s = .next u ∧ SameBut [.faults, .caps, .reply] (s.reqStepped r) u ∧
      match s.faults.props with
      | [] => u.reply = { data := leBytes 4 0 } ∧ u.faults = s.faults
      | d :: rest => u.faults = { s.faults with props := rest } ∧ u.reply = { data := leBytes 4 (nth 0 d 0).toNat } ∧
          tget none u.caps (fltReg 0x04C) = some (nth 0 d 1) ∧ tget none u.caps (fltReg 0x050) = some (nth 0 d 2) ∧
          tget none u.caps (fltReg 0x054) = some (nth 0 d 3) := by
  have stepped := s.reqStepped_frame r
  refine ⟨_, outcome_readAccess _ _ served, popProp_same (.refl _) rfl, ?_⟩
  cases props : s.faults.props with
  | nil =>
    rw [popProp_empty ((congrArg Faults.props (stepped.faults (by decide))).trans props)]
    exact ⟨rfl, stepped.faults (by decide)⟩
  | cons d rest =>
    obtain ⟨faults, reply, w1, w2, w3⟩ := popProp_cons ((congrArg Faults.props (stepped.faults (by decide))).trans props)
    exact ⟨by rw [faults, stepped.faults (by decide)], reply, w1, w2, w3⟩

section Waiting
variable {id : Nat} {t : TestReq} (waiting : (s.faults.tests.find? fun t => t.id == id) = some t)
include waiting

/-- R515: a test whose scope is idle starts. -/
theorem selftestStart_effect (up : testUnitUp s t = true) (idle : testIdle s t = true)
    (apart : (((s.faults.tests.takeWhile fun x => x.id != id) ++ s.faults.running).any (testsMeet t)) = false) :
    ∃ u, exec (.selftestStart id) s = .next u ∧ u.faults.running = s.faults.running ++ [t] ∧
      u.faults.tests = s.faults.tests.filter (fun x => x.id != id) ∧ u.rings = s.rings ∧
      (t.test = 2 → (u.plot (32 * t.stack + t.idx)).tank = [] ∧ (u.plot (32 * t.stack + t.idx)).acc = []) := by
  generalize hv : ({ s with faults := { s.faults with tests := s.faults.tests.filter (fun x => x.id != id), running := s.faults.running ++ [t] } } : State) = v
  have frame := v.startTest_frame t
  refine ⟨v.startTest t, ?_, ?_, ?_, ?_, fun two => startTest_scratch two⟩
  · refine congrArg Host.Outcome.next ?_
    simp only [waiting, up, idle, apart, Bool.not_false, Bool.and_self, if_true, hv]
  · rw [frame.faults (by decide), ← hv]
  · rw [frame.faults (by decide), ← hv]
  · rw [frame.rings (by decide), ← hv]

theorem selftestStart_busy (busy : testIdle s t = false) : exec (.selftestStart id) s = .next s := by
  refine congrArg Host.Outcome.next ?_
  simp only [waiting, busy, Bool.and_false, Bool.false_and, Bool.false_eq_true, if_false]

/-- R517: a test that waited too long ends with its command. -/
theorem busyTimeout_effect : ∃ u, exec (.busyTimeout id) s = .next u ∧ SameBut [.faults, .rings, .cores, .wire] s u ∧
    u.faults.tests = s.faults.tests.filter (fun x => x.id != id) ∧
    ∀ f g c, t.job = some (f, g, c) → ∀ x ∈ (u.ring g).running, x.id ≠ c := by
  generalize hv : ({ s with faults := { s.faults with tests := s.faults.tests.filter fun x => x.id != id } } : State) = v
  have dropped : SameBut [.faults] s v := hv ▸ SameBut.lit_faults (.refl s) rfl
  cases job : t.job with
  | none =>
    refine ⟨v, ?_, dropped.mono rfl, by rw [← hv], fun f g c h => nomatch h⟩
    refine congrArg Host.Outcome.next ?_
    simp only [waiting, job, hv]
  | some j =>
    obtain ⟨f, g, c⟩ := j
    have ended := v.finishCmd_frame g c 0x16 0
    refine ⟨v.finishCmd g c 0x16 0, ?_, (dropped.mono rfl).trans (ended.mono rfl), ?_, ?_⟩
    · refine congrArg Host.Outcome.next ?_
      simp only [waiting, job, hv]
    · rw [ended.faults (by decide), ← hv]
    · rintro f' g' c' ⟨⟩
      exact notRunning_finishCmd _ _ _ _ _

end Waiting

/-- R476: a test ends with its command, and holds out what it failed. -/
theorem selftestDone_effect {id : Nat} {t : TestReq} (ok : Bool) (code : Word)
    (running : (s.faults.running.find? fun t => t.id == id) = some t) :
    ∃ u, exec (.selftestDone id ok code) s = .next u ∧ u.faults.running = s.faults.running.filter (fun x => x.id != id) ∧
      (∀ f g c, t.job = some (f, g, c) → ∀ x ∈ (u.ring g).running, x.id ≠ c) ∧
      (ok = false → t.test ∈ [(1 : Byte), 2, 3] → (u.plot (32 * t.stack + t.idx)).failed ≠ none) ∧
      (ok = false → t.test = 10 → t.stack < 16 → u.bit (bootReg 0x04C) (16 + t.stack) = true) := by
  generalize hv : ({ s with faults := { s.faults with running := s.faults.running.filter fun x => x.id != id } } : State) = v
  have tested : SameBut [.regs, .slices, .dram, .chk, .sensors, .errs, .cores, .cnts, .wire] v (v.testEnded t ok) :=
    State.testEnded_same _ _ (.refl v) rfl
  generalize hw : (if ok then v.testEnded t ok else (v.testEnded t ok).testFailed t) = w
  have left_ : w.faults.running = s.faults.running.filter fun x => x.id != id := by
    have before : (v.testEnded t ok).faults.running = s.faults.running.filter fun x => x.id != id := by
      rw [tested.faults (by decide), ← hv]
    rw [← hw]
    split
    · exact before
    · rw [testFailed_running, before]
  have plotTest : ok = false → t.test ∈ [(1 : Byte), 2, 3] → (w.plot (32 * t.stack + t.idx)).failed ≠ none := fun no kind => by
    rw [← hw, if_neg (by simp [no])]
    exact testFailed_plot kind
  have stackTest : ok = false → t.test = 10 → t.stack < 16 → w.bit (bootReg 0x04C) (16 + t.stack) = true := fun no kind inPackage => by
    rw [← hw, if_neg (by simp [no])]
    exact testFailed_stack kind inPackage
  cases job : t.job with
  | none =>
    refine ⟨w, ?_, left_, fun f g c h => absurd h (by simp), plotTest, stackTest⟩
    refine congrArg Host.Outcome.next ?_
    simp only [running, job, hv, hw]
  | some j =>
    obtain ⟨f, g, c⟩ := j
    have ended := w.finishCmd_frame g c (if ok then 0 else 0x17) (if ok then 0 else code.toNat)
    refine ⟨w.finishCmd g c (if ok then 0 else 0x17) (if ok then 0 else code.toNat), ?_, ?_, ?_, ?_, ?_⟩
    · refine congrArg Host.Outcome.next ?_
      simp only [running, job, hv, hw]
    · rw [ended.faults (by decide), left_]
    · rintro f' g' c' ⟨⟩
      exact notRunning_finishCmd _ _ _ _ _
    · rw [ended.plot (by decide)]
      exact plotTest
    · rw [ended.bit (by decide)]
      exact stackTest

/-- R512: a spare takes the plot's place, or its command fails. -/
theorem spareCopyDone_effect {st : Fin 16} {p : Fin 32} {x : SpareRun} (tests flood copy : Bool) (up : pkgUp s = true)
    (found : (s.faults.spares.find? fun x => x.stack == st.val && x.plot == p.val) = some x) (hsite : x.site < 64) :
    ∃ u, exec (.spareCopyDone st p tests flood copy) s = .next u ∧
      (∀ y ∈ (u.ring x.job.2.1).running, y.id ≠ x.job.2.2) ∧
      (tests = false ∨ flood = false → SameBut [.regs, .errs, .faults, .rings, .cores, .wire] s u ∧
        siteOf u (32 * st.val + p.val) = siteOf s (32 * st.val + p.val)) ∧
      (tests = true → flood = true → x.lost = false → copy = false →
        SameBut [.faults, .rings, .cores, .wire] s u) ∧
      (tests = true → flood = true → x.lost = true ∨ copy = true ∧ cisternUp s (32 * st.val + p.val) = true →
        siteOf u (32 * st.val + p.val) = x.site ∧ (u.plot (32 * st.val + p.val)).failed = none ∧
        fenced u (32 * st.val + p.val) = false) := by
  obtain ⟨hst, hpl⟩ : x.stack = st.val ∧ x.plot = p.val := by
    have := List.find?_some found
    simpa using this
  rw [← hst, ← hpl]
  have proposed : SameBut [.regs, .errs, .cores, .faults, .wire] s (s.propose x.stack x.plot (badSiteEntry x.stack x.site)) :=
    State.propose_same _ _ _ (.refl s) rfl
  have body : exec (.spareCopyDone st p tests flood copy) s =
      .next (if !tests || !flood then (s.propose x.stack x.plot (badSiteEntry x.stack x.site)).spareFail x 0x17
        else if !x.lost && (!copy || !cisternUp s (32 * x.stack + x.plot)) then s.spareFail x 0x12 else s.spareDone x) := by
    refine congrArg Host.Outcome.next ?_
    simp only [found, up, Bool.not_true, Bool.false_eq_true, if_false]
  refine ⟨_, body, ?_, fun bad => ?_, fun good good' kept bad => ?_, fun good good' fits => ?_⟩
  · split_ifs
    · exact (State.spareFail_effect _ x 0x17).2
    · exact (s.spareFail_effect x 0x12).2
    · exact (spareDone_effect s rfl (by omega) (by omega) hsite).2.2.2
  · obtain ⟨frame, -⟩ := State.spareFail_effect (s.propose x.stack x.plot (badSiteEntry x.stack x.site)) x 0x17
    rw [if_pos (by rcases bad with h | h <;> simp [h])]
    refine ⟨(proposed.mono rfl).trans (frame.mono rfl), ?_⟩
    rw [← siteOf_propose s (32 * x.stack + x.plot) x.stack x.plot (badSiteEntry x.stack x.site)]
    unfold siteOf
    rw [frame.fld (by decide)]
  · rw [if_neg (by simp [good, good']), if_pos (by simp [kept, bad])]
    exact (s.spareFail_effect x 0x12).1
  · obtain ⟨site, fit, free, -⟩ := spareDone_effect s (x := x) rfl (by omega) (by omega) hsite
    rw [if_neg (by simp [good, good']), if_neg ?_]
    · exact ⟨site, fit, free⟩
    · rcases fits with lost | ⟨copied, live⟩
      · simp [lost]
      · simp [copied, live]

/-- Settles O60: what each end of a test or of a spare leaves, with `notRunning_finishCmd` for its command. -/
theorem testsSparesAndProposals : Obligations.TestsSparesAndProposals := by
  unfold Obligations.TestsSparesAndProposals
  exact fun s => ⟨fun r served => fltPropPop_effect served,
    fun id t waiting => ⟨selftestStart_effect waiting, selftestStart_busy waiting, busyTimeout_effect waiting⟩,
    fun id t ok code running => selftestDone_effect ok code running,
    fun st p x tests flood copy up found hsite => spareCopyDone_effect tests flood copy up found hsite⟩

end Tests
end Sys2Proof.Machine
end

section
/-!
Counter samples (R587), soundings (R591), records (R600) and watch points (R604).
-/
namespace Sys2Proof.Machine

section Soundings
variable {s : State}

/-! ### The stop starts (R593) -/

theorem dbgReg_ne_cntPage (off k : Nat) (h : off < 4096) : dbgReg off ≠ cntPage k 0x044 := by
  unfold dbgReg cntPage
  intro e
  split_ifs at e
  all_goals
    have := (regAddr_eq e h (by decide)).1
    omega

theorem State.fld_count_dbgReg (s : State) (k i n : Nat) {off : Nat} (h : off < 4096) (lo w : Nat) :
    (s.count k i n).fld (dbgReg off) lo w = s.fld (dbgReg off) lo w := by
  unfold State.fld
  rw [s.count_reg k i n _ (dbgReg_ne_cntPage off k h)]

/-- R593: what a stop that starts leaves. -/
theorem beginStop_effect (s : State) :
    s.beginStop.dbg = { s.dbg with
      units := (List.range 68).map fun i => { who := unitAt 16 6 i, started := true }
      recs := [], stopAt := some s.tb, stopWait := false, tally := [], dropped := 0, heldCpls := [] } ∧
    stopState s.beginStop = 1 ∧ stopId s.beginStop = (stopId s + 1) % 256 ∧
    RegsBut (fun a => a = dbgReg 0x044 ∨ a = cntPage 594 0x044) s s.beginStop := by
  unfold State.beginStop
  dsimp only
  generalize hu : ((s.setFld (dbgReg 0x044) 4 8 ((stopId s + 1) % 256)).setFld (dbgReg 0x044) 0 3 1).setFld (dbgReg 0x044) 16 16 0 = u
  have written : SameBut [.regs] s u := hu ▸ State.setFld_same _ _ _ _ (State.setFld_same _ _ _ _ (State.setFld_same _ _ _ _ (.refl s) rfl) rfl) rfl
  have regs : RegsBut (fun a => a = dbgReg 0x044 ∨ a = cntPage 594 0x044) s u :=
    hu ▸ (((RegsBut.refl s).setFld (.inl rfl)).setFld (.inl rfl)).setFld (.inl rfl)
  have state_ : u.fld (dbgReg 0x044) 0 2 = 1 := by
    rw [← hu, State.fld_setFld_ne _ _ _ (by decide) (by decide)]
    exact State.fld_setFld_inside _ _ 1 (lo := 0) (w := 3) (i := 0) (n := 2) (by decide) (by decide)
  have id_ : u.fld (dbgReg 0x044) 4 8 = (stopId s + 1) % 256 := by
    rw [← hu, State.fld_setFld_ne _ _ _ (by decide) (by decide), State.fld_setFld_ne _ _ _ (by decide) (by decide),
      State.fld_setFld_same _ _ _ (by decide)]
    exact Nat.mod_mod _ _
  have counted : SameBut [.regs, .cnts] u (u.count 594 5 1) := State.count_same _ _ _ (.refl u) rfl
  refine ⟨?_, ?_, ?_, ?_⟩
  · rw [counted.dbg (by decide), written.dbg (by decide)]
  · exact (u.fld_count_dbgReg 594 5 1 (by decide) 0 2).trans state_
  · exact (u.fld_count_dbgReg 594 5 1 (by decide) 4 8).trans id_
  · exact RegsBut.of_regs (e := rfl) (regs.count (.inr rfl))

theorem stopCmd_refused (h : stopRefused s = true) : stopCmd s = s.setBit (dbgReg 0x044) 3 := if_pos h

theorem stopCmd_starts (free : stopRefused s = false) (off : stopOn s = false) (calm : s.fld (dbgReg 0x050) 0 2 ≠ 1) :
    stopCmd s = s.beginStop := by
  unfold stopCmd
  rw [if_neg (by simp [free]), if_neg (by simp [off]), if_neg calm]

theorem stopCmd_waits (free : stopRefused s = false) (off : stopOn s = false) (sounds : s.fld (dbgReg 0x050) 0 2 = 1) :
    stopCmd s = { s with dbg := { s.dbg with stopWait := true } } := by
  unfold stopCmd
  rw [if_neg (by simp [free]), if_neg (by simp [off]), if_pos sounds]

/-- A start command keeps what watch points have due and hold. -/
theorem stopCmd_watch (s : State) : (stopCmd s).dbg.wpDue = s.dbg.wpDue ∧ (stopCmd s).dbg.wpHold = s.dbg.wpHold := by
  unfold stopCmd
  split
  · rw [SameBut.dbg (w := [.regs]) (State.setBit_same _ _ (.refl s) rfl) (by decide)]
    exact ⟨rfl, rfl⟩
  · split
    · exact ⟨rfl, rfl⟩
    · split
      · exact ⟨rfl, rfl⟩
      · rw [(beginStop_effect s).1]
        exact ⟨rfl, rfl⟩

/-! ### Soundings (R591) -/

theorem soundingCmd_refused (h : stopOn s = true) : soundingCmd s = s.setBit (dbgReg 0x050) 2 := if_pos h

/-- R591: a sounding has a record of every unit. -/
theorem soundingCmd_effect (h : stopOn s = false) :
    OtherRegs [dbgReg 0x050] s (soundingCmd s) ∧ (soundingCmd s).fld (dbgReg 0x050) 0 2 = 1 ∧
      (soundingCmd s).dbg = { s.dbg with snd := (allUnits s).map fun u => makeRec s u true, sndAt := some s.tb } := by
  have body : soundingCmd s = { s with dbg := { s.dbg with snd := (allUnits s).map fun u => makeRec s u true, sndAt := some s.tb } }.setFld
      (dbgReg 0x050) 0 2 1 := if_neg (by simp [h])
  rw [body]
  generalize hu : ({ s with dbg := { s.dbg with snd := (allUnits s).map fun u => makeRec s u true, sndAt := some s.tb } } : State) = u
  have noted : SameBut [.dbg] s u := hu ▸ SameBut.lit_dbg (.refl s) rfl
  refine ⟨(noted.otherRegs (by decide) _).trans (otherRegs_setFld _ _ _ (by simp)), State.fld_setFld_same _ _ _ (by decide), ?_⟩
  rw [SameBut.dbg (w := [.regs]) (State.setFld_same _ _ _ _ (.refl u) rfl) (by decide), ← hu]

/-- R591, R599: the end of a sounding starts the stop that waits for it. -/
theorem soundingEnd_effect (s : State) :
    (soundingEnd s).fld (dbgReg 0x050) 0 2 = 2 ∧ (soundingEnd s).dbg.sndAt = none ∧
      (s.dbg.stopWait = true → (soundingEnd s).dbg.stopAt = some s.tb ∧ stopState (soundingEnd s) = 1) ∧
      (s.dbg.stopWait = false → (soundingEnd s).cnts = s.cnts ∧ (soundingEnd s).dbg.stopAt = s.dbg.stopAt) := by
  unfold soundingEnd
  dsimp only
  generalize hu : State.setFld _ (dbgReg 0x050) 0 2 2 = u
  have noted : SameBut [.dbg, .regs] s u := hu ▸ State.setFld_same _ _ _ _ (SameBut.lit_dbg (.refl s) rfl) rfl
  have dbg : u.dbg = { s.dbg with sndAt := none } := by
    rw [← hu, SameBut.dbg (w := [.regs]) (State.setFld_same _ _ _ _ (.refl _) rfl) (by decide)]
  have done : u.fld (dbgReg 0x050) 0 2 = 2 := hu ▸ State.fld_setFld_same _ _ _ (by decide)
  rw [show u.dbg.stopWait = s.dbg.stopWait by rw [dbg]]
  cases waits : s.dbg.stopWait with
  | true =>
    rw [if_pos rfl]
    generalize hv : ({ u with dbg := { u.dbg with stopWait := false } } : State) = v
    have waited : SameBut [.dbg] u v := hv ▸ SameBut.lit_dbg (.refl u) rfl
    obtain ⟨began, state_, -, regs⟩ := beginStop_effect v
    have calm : ¬ (dbgReg 0x050 = dbgReg 0x044 ∨ dbgReg 0x050 = cntPage 594 0x044) :=
      fun h => h.elim (by decide) (dbgReg_ne_cntPage _ _ (by decide))
    refine ⟨?_, ?_, fun _ => ⟨?_, state_⟩, fun h => absurd h (by simp)⟩
    · rw [regs.fld calm, waited.fld (by decide), done]
    · rw [began, ← hv]
      show u.dbg.sndAt = none
      rw [dbg]
    · rw [began]
      show some v.tb = some s.tb
      rw [waited.tb (by decide), noted.tb (by decide)]
  | false =>
    rw [if_neg (by simp)]
    exact ⟨done, by rw [dbg], fun h => absurd h (by simp), fun _ => ⟨noted.cnts (by decide), by rw [dbg]⟩⟩

/-! ### Records (R600) -/

theorem recSel_effect (v : Word) (idle : s.fld (dbgReg 0x058) 0 2 ≠ 1) :
    OtherRegs [dbgReg 0x054, dbgReg 0x058] s (recSel v s) ∧ (recSel v s).fld (dbgReg 0x054) 0 23 = nbits v.toNat 0 23 ∧
      (recSel v s).fld (dbgReg 0x058) 0 2 = 1 := by
  have body : recSel v s = (s.setFld (dbgReg 0x054) 0 23 (nbits v.toNat 0 23)).setFld (dbgReg 0x058) 0 2 1 := if_neg idle
  rw [body]
  refine ⟨(otherRegs_setFld _ _ _ (by simp)).trans (otherRegs_setFld _ _ _ (by simp)), ?_, State.fld_setFld_same _ _ _ (by decide)⟩
  rw [State.fld_setFld_reg_ne _ _ _ _ _ _ (by decide), State.fld_setFld_same _ _ _ (by decide)]
  exact Nat.mod_eq_of_lt (nbits_lt _ _ _)

theorem length_recBytes_le (s : State) (x : DbgRec) : (recBytes s x).length ≤ 2048 := by
  unfold recBytes
  dsimp only
  rw [List.length_take]
  omega

/-- The end of a fetch, with what the window then holds. -/
theorem recReady_steps (s : State) (b : List Byte) (st : Nat) (hst : st < 4) (hb : b.length < 4096) :
    ∀ u, u = ({ s with dbg := { s.dbg with window := b } }.setFld (dbgReg 0x058) 0 2 st).setFld (dbgReg 0x058) 2 12 b.length →
      OtherRegs [dbgReg 0x058] s u ∧ u.fld (dbgReg 0x058) 0 2 = st ∧ u.dbg.window = b ∧ u.fld (dbgReg 0x058) 2 12 = b.length := by
  rintro u hu
  generalize hv : ({ s with dbg := { s.dbg with window := b } } : State) = v at hu
  have noted : SameBut [.dbg] s v := hv ▸ SameBut.lit_dbg (.refl s) rfl
  have written : SameBut [.regs] v u := hu ▸ State.setFld_same _ _ _ _ (State.setFld_same _ _ _ _ (.refl v) rfl) rfl
  refine ⟨?_, ?_, ?_, ?_⟩
  · rw [hu]
    exact (noted.otherRegs (by decide) _).trans ((otherRegs_setFld _ _ _ (by simp)).trans (otherRegs_setFld _ _ _ (by simp)))
  · rw [hu, State.fld_setFld_ne _ _ _ (by decide) (by decide), State.fld_setFld_same _ _ _ (by decide)]
    exact Nat.mod_eq_of_lt hst
  · rw [written.dbg (by decide), ← hv]
  · rw [hu, State.fld_setFld_same _ _ _ (by decide)]
    exact Nat.mod_eq_of_lt hb

/-! ### Watch points (R604) -/

theorem wpFire_effect (s : State) (n : Nat) :
    (wpFire n s).dbg.wpDue = s.dbg.wpDue.erase n ∧
      (s.fld (wpReg n 0x04) 11 2 ≠ 2 → stopOn s = false → (wpFire n s).dbg.sndAt = some s.tb) ∧
      (s.fld (wpReg n 0x04) 11 2 = 2 → stopRefused s = false → stopOn s = false → s.fld (dbgReg 0x050) 0 2 ≠ 1 →
        (wpFire n s).dbg.stopAt = some s.tb) ∧
      (s.fld (wpReg n 0x04) 11 2 = 2 → stopRefused s = true → wpPlot s n ∉ (wpFire n s).dbg.wpHold) := by
  unfold wpFire
  dsimp only
  generalize hv : ({ s with dbg := { s.dbg with wpDue := s.dbg.wpDue.erase n } } : State) = v
  have noted : SameBut [.dbg] s v := hv ▸ SameBut.lit_dbg (.refl s) rfl
  have due : v.dbg.wpDue = s.dbg.wpDue.erase n := by rw [← hv]
  have refused : stopRefused v = stopRefused s := by rw [← hv]; rfl
  have on : stopOn v = stopOn s := by rw [← hv]; rfl
  have tb : v.tb = s.tb := noted.tb (by decide)
  rw [refused]
  split
  next stops =>
    obtain ⟨kept, held⟩ := stopCmd_watch v
    refine ⟨?_, fun h => absurd stops h, fun _ free off calm => ?_, fun _ refused_ => ?_⟩
    · split
      · exact kept.trans due
      · exact kept.trans due
    · rw [if_neg (by simp [free]), stopCmd_starts (refused.trans free) (on.trans off) (by rwa [noted.fld (by decide)]),
        (beginStop_effect v).1]
      exact congrArg some tb
    · rw [if_pos refused_]
      simp
  next sounds =>
    refine ⟨?_, fun _ off => ?_, fun h => absurd h sounds, fun h => absurd h sounds⟩
    · by_cases off : stopOn v = true
      · rw [soundingCmd_refused off, SameBut.dbg (w := [.regs]) (State.setBit_same _ _ (.refl v) rfl) (by decide), due]
      · rw [(soundingCmd_effect (by simpa using off)).2.2]
        exact due
    · rw [(soundingCmd_effect (on.trans off)).2.2]
      exact congrArg some tb

/-- Settles O57: each command of the sounding, the records and the watch points by its own effect. -/
theorem soundingsRecordsAndSamples : Obligations.SoundingsRecordsAndSamples := by
  unfold Obligations.SoundingsRecordsAndSamples
  refine fun s => ⟨fun r served => ⟨fun off => ?_, fun on => ?_⟩, fun sounds => ?_, fun r v served idle => ?_, fun fetching => ?_,
    fun n due => ?_, fun r set served plain => ?_⟩
  · obtain ⟨l, hl⟩ := s.reqStepped_step r
    have stepped := s.reqStepped_frame r
    have off' : stopOn (s.reqStepped r) = false := by rw [hl]; exact off
    obtain ⟨regs, runs, dbg⟩ := soundingCmd_effect off'
    have units : allUnits (s.reqStepped r) = allUnits s := by rw [hl]; rfl
    refine ⟨_, outcome_access _ served, soundingCmd_same (.refl _) rfl, (stepped.otherRegs (by decide) _).trans regs, runs, ?_, ?_, ?_⟩
    · rw [dbg]
      exact congrArg some (stepped.tb (by decide))
    · rw [dbg]
      simp [makeRec, Function.comp_def, units]
    · rw [dbg]
      intro x hx
      obtain ⟨w, -, rfl⟩ := List.mem_map.1 hx
      exact ⟨rfl, stepped.tb (by decide)⟩
  · have on' : stopOn (s.reqStepped r) = true := by
      unfold stopOn at *
      rwa [stopAt_reqStepped]
    refine ⟨_, (outcome_access _ served).trans (congrArg _ (soundingCmd_refused on')), State.setBit_same _ _ (.refl _) rfl,
      ((s.reqStepped_frame r).otherRegs (by decide) _).trans (otherRegs_setBit _ (by simp)), State.bit_setBit_same _ _ (by decide)⟩
  · exact ⟨_, congrArg Host.Outcome.next (if_pos sounds), soundingEnd_same (.refl s) rfl, soundingEnd_effect s⟩
  · obtain ⟨regs, sel, fetching⟩ := recSel_effect (s := s.reqStepped r) v (by rwa [State.reqStepped_fld])
    exact ⟨_, outcome_access _ served, recSel_same _ (.refl _) rfl, ((s.reqStepped_frame r).otherRegs (by decide) _).trans regs, sel, fetching⟩
  · refine ⟨_, congrArg Host.Outcome.next (if_pos fetching), recReady_same (.refl s) rfl, ?_⟩
    cases found : selRec s with
    | some x =>
      have body : recReady s = ({ s with dbg := { s.dbg with window := recBytes s x } }.setFld (dbgReg 0x058) 0 2 2).setFld
          (dbgReg 0x058) 2 12 (recBytes s x).length := by
        unfold recReady
        rw [found]
      have short := length_recBytes_le s x
      obtain ⟨regs, state_, window, len⟩ := recReady_steps s _ 2 (by decide) (by omega) _ body
      exact ⟨regs, state_, window, len⟩
    | none =>
      have body : recReady s = ({ s with dbg := { s.dbg with window := [] } }.setFld (dbgReg 0x058) 0 2 3).setFld (dbgReg 0x058) 2 12 0 := by
        unfold recReady
        rw [found]
      obtain ⟨regs, state_, window, -⟩ := recReady_steps s [] 3 (by decide) (by decide) _ body
      exact ⟨regs, state_, window⟩
  · have inList : s.dbg.wpDue.contains n.val = true := by simpa using due
    exact ⟨_, congrArg Host.Outcome.next (if_pos inList), wpFire_same _ (.refl s) rfl, wpFire_effect s n.val⟩
  · have stepped := s.reqStepped_frame r
    have body : cntSampleCmd r (cntKey set) (s.reqStepped r) = (s.reqStepped r).cntSwitch (cntKey set) false none := by
      cases r with
      | steward p => exact absurd rfl (plain p)
      | _ => rfl
    have before : ∀ j, (s.reqStepped r).cnt j = s.cnt j := fun j => by
      unfold State.cnt
      rw [stepped.cnts (by decide)]
    refine ⟨_, (outcome_access _ served).trans (congrArg _ body), State.cntSwitch_same _ _ _ (.refl _) rfl, ?_⟩
    unfold State.cntSwitch
    rw [State.cnt_updCnt_same, before, stepped.tb (by decide)]
    refine ⟨rfl, rfl, rfl, rfl, fun j hj => ?_⟩
    rw [State.cnt_updCnt, if_neg hj, before]

end Soundings
end Sys2Proof.Machine
end

section
/-!
JTAG: debug access (R451, R607) and the debug module (R606).
-/
namespace Sys2Proof.Machine

section Jtag
variable {s : State}

/-! ### DBG_ACCESS (R607) -/

theorem exec_dbgAccess (open_ : jtagLevel s ≠ 0) (dr : BitVec 88) : exec (.dbgAccess dr) s = .next (dbgAccess dr s) :=
  congrArg Host.Outcome.next (if_neg open_)

theorem State.accDone_frame (s : State) (stat data : Nat) : SameBut [.dbg] s (s.accDone stat data) := State.accDone_same _ _ (.refl s) rfl

/-- R607: regions that no access reaches, and the operation that is none. -/
theorem dbgAccess_error {dr : BitVec 88}
    (h : nbits dr.toNat 80 2 = 3 ∨
      nbits dr.toNat 80 2 ≠ 0 ∧ 2 ≤ nbits (nbits dr.toNat 0 48) 44 4 ∧ nbits (nbits dr.toNat 0 48) 44 4 ≠ 8) :
    dbgAccess dr s = s.accDone 3 0 := by
  unfold dbgAccess
  dsimp only
  rcases h with three | ⟨some_, far, notRegs⟩
  · rw [if_neg (by omega), if_pos three]
  · rw [if_neg some_, if_neg notRegs, if_pos far, ite_self]

theorem dbgAccess_regs {dr : BitVec 88} (op : nbits dr.toNat 80 2 = 1 ∨ nbits dr.toNat 80 2 = 2)
    (region : nbits (nbits dr.toNat 0 48) 44 4 = 8) (zero : nbits (nbits dr.toNat 0 48) 26 18 = 0) :
    dbgAccess dr s = dbgReg8 (nbits dr.toNat 80 2 == 1) (nbits dr.toNat 0 48 % 2 ^ 26) (nbits dr.toNat 48 32) s := by
  unfold dbgAccess
  dsimp only
  rw [if_neg (by omega), if_neg (by omega), if_pos region, if_pos zero]

theorem dbgAccess_memory {dr : BitVec 88} (op : nbits dr.toNat 80 2 = 1 ∨ nbits dr.toNat 80 2 = 2)
    (region : nbits (nbits dr.toNat 0 48) 44 4 < 2) :
    dbgAccess dr s = if jtagLevel s = 2 then dbgMem (nbits dr.toNat 80 2 == 1) (nbits dr.toNat 0 48) (nbits dr.toNat 48 32) s
      else s.accDone 2 0 := by
  unfold dbgAccess
  dsimp only
  rw [if_neg (by omega), if_neg (by omega), if_neg (by omega), if_neg (by omega)]

theorem debugMay_of_level {rd : Bool} {die page : Nat} (h : jtagLevel s = 2 ∨ jtagLevel s = 1 ∧ rd = true) : debugMay s rd die page = true := by
  have level : ∀ n, n ≠ 0 → jtagLevel s = n → s.fld (secReg 0x080) 0 2 = n := by
    intro n hn h
    unfold jtagLevel at h
    split at h
    · exact h
    · exact absurd h.symm hn
  unfold debugMay
  rcases h with two | ⟨one, rd_⟩
  · simp [level 2 (by decide) two]
  · simp [level 1 (by decide) one, rd_]

theorem regRead_debug (a size : Nat) (s : State) : regRead .debug (BitVec.ofNat 26 a) size s = regReadAt .debug (a % 2 ^ 26) size s := by
  unfold regRead placeOf
  simp

theorem regWrite_debug (a size v : Nat) (s : State) : regWrite .debug (BitVec.ofNat 26 a) size v s = regWriteAt .debug (a % 2 ^ 26) size v s := by
  unfold regWrite placeOf
  simp

/-! ### The debug module (R606) -/

theorem exec_dmi (open_ : jtagLevel s = 2) (x : DmiOp) : exec (.dmiAccess x) s = .next (dmi x s) :=
  congrArg Host.Outcome.next (if_pos open_)

theorem hartFree_haltHart (s : State) (h : Nat) : hartFree (s.haltHart h) h = false := by
  unfold hartFree State.haltHart State.hartStepped
  simp

theorem haltHart_frame (s : State) (h : Nat) : SameBut [.dbg] s (s.haltHart h) := State.haltHart_same _ (.refl s) rfl

theorem stepHart_effect {h : Nat} (halted : h ∈ s.dbg.dmiHalt) :
    SameBut [.dbg] s (s.stepHart h) ∧ hartFree (s.stepHart h) h = true ∧ (s.stepHart h).dbg.dmiHalt = s.dbg.dmiHalt := by
  refine ⟨State.stepHart_same _ (.refl s) rfl, ?_, ?_⟩
  · unfold hartFree State.stepHart
    simp [halted]
  · unfold State.stepHart
    split <;> rfl

theorem onHalted_of_mem {h : Nat} (halted : h ∈ s.dbg.dmiHalt) (k : State → State) : onHalted s h k = k s :=
  if_pos (by simpa using halted)

theorem dmi_readCoreReg {st : Fin 16} {k : Fin 8} {n : BitVec 16} {w : BitVec 64} (halted : 8 * st.val + k.val ∈ s.dbg.dmiHalt)
    (known : coreRegGet (s.core (8 * st.val + k.val)) n.toNat = some w) : dmi (.readCoreReg st k n) s = s.dmiAnswer w := by
  unfold dmi
  dsimp only
  rw [onHalted_of_mem halted]
  simp only [known]

theorem dmi_writeCoreReg {st : Fin 16} {k : Fin 8} (n : BitVec 16) (v : BitVec 64) (halted : 8 * st.val + k.val ∈ s.dbg.dmiHalt) :
    dmi (.writeCoreReg st k n v) s = s.updCore (8 * st.val + k.val) fun C => coreRegPut C n.toNat v := by
  unfold dmi
  dsimp only
  rw [onHalted_of_mem halted]

theorem dmi_readStewardReg {p : PlotId} {n : BitVec 16} {w : BitVec 64} (halted : 1024 + plotKey p ∈ s.dbg.dmiHalt)
    (known : stewardRegGet (s.plot (plotKey p)).stw n.toNat = some w) : dmi (.readStewardReg p n) s = s.dmiAnswer w := by
  unfold dmi
  dsimp only
  rw [onHalted_of_mem halted]
  simp only [known]

theorem dmi_writeStewardReg {p : PlotId} (n : BitVec 16) (v : BitVec 64) (halted : 1024 + plotKey p ∈ s.dbg.dmiHalt) :
    dmi (.writeStewardReg p n v) s = s.updPlot (plotKey p) fun P => { P with stw := stewardRegPut P.stw n.toNat v } := by
  unfold dmi
  dsimp only
  rw [onHalted_of_mem halted]

theorem dmi_writeRiderReg {n : BitVec 16} (v : BitVec 64) (halted : riderHart ∈ s.dbg.dmiHalt) (some_ : n ≠ 0x1000) :
    dmi (.writeRiderReg n v) s = { s with dbg := { s.dbg with rider := tput none s.dbg.rider n.toNat (some v) } } := by
  unfold dmi
  dsimp only
  rw [onHalted_of_mem halted, if_neg some_]

theorem dmi_readRiderReg {n : BitVec 16} {v : BitVec 64} (halted : riderHart ∈ s.dbg.dmiHalt) (some_ : n.toNat ≠ 0x1000)
    (known : tget none s.dbg.rider n.toNat = some v) : dmi (.readRiderReg n) s = s.dmiAnswer v := by
  unfold dmi
  dsimp only
  rw [onHalted_of_mem halted]
  unfold riderGet
  rw [if_neg some_, known]

/-- Settles O58: each access and operation by the branch that its level and its hart choose. -/
theorem jtagActsByItsLevel : Obligations.JtagActsByItsLevel := by
  unfold Obligations.JtagActsByItsLevel
  refine fun s => ⟨fun locked dr => congrArg Host.Outcome.next (if_pos locked), ?_,
    fun low x => congrArg Host.Outcome.next (if_neg low), fun two => ⟨?_, ?_, ?_⟩⟩
  · rintro dr _ _ _ rfl rfl rfl
    refine ⟨fun open_ none_ => ?_, fun open_ bad => ?_, fun level rd region zero => ?_, fun two wr region zero => ?_,
      fun one op region => ?_, fun two region ok => ⟨fun rd go => ?_, fun wr go => ?_⟩⟩
    · exact (exec_dbgAccess open_ dr).trans (congrArg _ (if_pos none_))
    · exact ⟨_, (exec_dbgAccess open_ dr).trans (congrArg _ (dbgAccess_error bad)), s.accDone_frame 3 0, rfl⟩
    · have body := (dbgAccess_regs (s := s) (.inl rd) region zero).trans (if_neg (by
        rw [debugMay_of_level (level.symm.imp_right fun one => ⟨one, by simp [rd]⟩)]; simp))
      rw [if_pos (by simp [rd])] at body
      refine ⟨_, _, (exec_dbgAccess (by omega) dr).trans (congrArg _ body), congrArg Host.Outcome.next (regRead_debug _ 4 s),
        State.accDone_frame _ _ _, rfl, rfl⟩
    · have body := (dbgAccess_regs (s := s) (.inr wr) region zero).trans (if_neg (by rw [debugMay_of_level (.inl two)]; simp))
      rw [if_neg (by simp [wr])] at body
      have word : (BitVec.ofNat 64 (nbits dr.toNat 48 32)).toNat = nbits dr.toNat 48 32 := by
        have := nbits_lt dr.toNat 48 32
        simp only [BitVec.toNat_ofNat]
        omega
      refine ⟨_, _, (exec_dbgAccess (by omega) dr).trans (congrArg _ body), congrArg Host.Outcome.next ?_, State.accDone_frame _ _ _, rfl⟩
      rw [word]
      exact regWrite_debug _ 4 _ s
    · have body := (dbgAccess_memory (s := s) op region).trans (if_neg (by omega))
      exact ⟨_, (exec_dbgAccess (by omega) dr).trans (congrArg _ body), s.accDone_frame 2 0, rfl⟩
    · have body := (dbgAccess_memory (s := s) (.inl rd) region).trans (if_pos two)
      unfold dbgMem at body
      rw [if_neg (by simp [ok]), if_pos (by simp [rd]), if_neg (by simp [go])] at body
      exact ⟨_, (exec_dbgAccess (by omega) dr).trans (congrArg _ body), rfl, rfl⟩
    · have body := (dbgAccess_memory (s := s) (.inr wr) region).trans (if_pos two)
      unfold dbgMem at body
      rw [if_neg (by simp [ok]), if_neg (by simp [wr]), if_neg (by simp [go])] at body
      exact ⟨_, (exec_dbgAccess (by omega) dr).trans (congrArg _ body), rfl⟩
  · rintro st k _ rfl
    refine ⟨fun up => ?_, ?_, fun halted => ?_, fun n v halted => ⟨fun w known => ?_, ?_⟩⟩
    · exact ⟨_, (exec_dmi two _).trans (congrArg _ (if_pos up)), haltHart_frame _ _, hartFree_haltHart _ _⟩
    · exact ⟨_, exec_dmi two _, State.resumeHart_same _ (.refl s) rfl, by simp [dmi, State.resumeHart]⟩
    · exact ⟨_, exec_dmi two _, stepHart_effect halted⟩
    · exact ⟨_, (exec_dmi two _).trans (congrArg _ (dmi_readCoreReg halted known)), State.dmiAnswer_same w (.refl s) rfl, rfl⟩
    · refine ⟨_, (exec_dmi two _).trans (congrArg _ (dmi_writeCoreReg n v halted)), State.updCore_same _ _ (.refl s) rfl,
        State.core_updCore_same _ _ _, fun j hj => ?_⟩
      rw [State.core_updCore, if_neg hj]
  · rintro p _ rfl
    refine ⟨fun up => ?_, fun halted n v => ⟨fun w known => ?_, ?_⟩⟩
    · exact ⟨_, (exec_dmi two _).trans (congrArg _ (if_pos up)), haltHart_frame _ _, hartFree_haltHart _ _⟩
    · exact ⟨_, (exec_dmi two _).trans (congrArg _ (dmi_readStewardReg halted known)), State.dmiAnswer_same w (.refl s) rfl, rfl⟩
    · refine ⟨_, (exec_dmi two _).trans (congrArg _ (dmi_writeStewardReg n v halted)), State.updPlot_same _ _ (.refl s) rfl,
        otherPlots_updPlot s _ _, ?_⟩
      rw [State.plot_updPlot_same]
  · intro n v halted notZero
    have some_ : n ≠ 0x1000 := fun h => notZero (by rw [h]; rfl)
    refine ⟨_, (exec_dmi two _).trans (congrArg _ (dmi_writeRiderReg v halted some_)), SameBut.lit_dbg (.refl s) rfl, ?_⟩
    generalize hu : ({ s with dbg := { s.dbg with rider := tput none s.dbg.rider n.toNat (some v) } } : State) = u
    have held : riderHart ∈ u.dbg.dmiHalt := by rw [← hu]; exact halted
    have level : jtagLevel u = 2 := by rw [← hu]; exact two
    have known : tget none u.dbg.rider n.toNat = some v := by
      rw [← hu]
      dsimp only
      rw [tget_tput_same]
    exact ⟨_, (exec_dmi level _).trans (congrArg _ (dmi_readRiderReg held notZero known)), State.dmiAnswer_same v (.refl u) rfl, rfl⟩

end Jtag
end Sys2Proof.Machine
end

section
/-!
Alerts (R551), trips (R22, R531, R532) and the coolant supervisor (R546 to R550).
-/
namespace Sys2Proof.Machine

section Coolant
variable {s : State}

/-! ### Alerts (R551) -/

/-- The registers that alerts and reports change. -/
def AlertRegs (a : Nat) : Prop := a = thmReg 0x040 ∨ a = pkgReg 0x044 ∨ a = cntPage 594 0x044 ∨ RptRegs a

theorem RegsBut.alert {P : Nat → Prop} {s0 : State} {i : Nat} (h : RegsBut P s0 s) (hP : ∀ a, AlertRegs a → P a) :
    RegsBut P s0 (s.alert i) := by
  have set := (h.setBit (i := i) (hP (thmReg 0x040) (.inl rfl))).setBit (i := 2) (hP (pkgReg 0x044) (.inr (.inl rfl)))
  have counted := RegsBut.ite (c := s.fld (thmReg 0x040) 0 12 = 0) (set.count (i := 3) (n := 1) (hP _ (.inr (.inr (.inl rfl))))) set
  exact RegsBut.ite counted counted.msix

theorem RegsBut.alertReport {P : Nat → Prop} {s0 : State} {own : Option Nat} {code sev die plot addr : Nat} (h : RegsBut P s0 s)
    (hP : ∀ a, AlertRegs a → P a) : RegsBut P s0 (s.report own code sev die plot addr) :=
  h.report fun f => hP _ (.inr (.inr (.inr ⟨f, rfl⟩)))

/-- R551: the cause is set, no cause is cleared, and of the package's status only the alert bit. -/
theorem State.alert_bits (s : State) {i : Nat} (hi : i < 32) :
    (s.alert i).bit (thmReg 0x040) i = true ∧ (∀ j, s.bit (thmReg 0x040) j = true → (s.alert i).bit (thmReg 0x040) j = true) ∧
      ∀ j, j ≠ 2 → (s.alert i).bit (pkgReg 0x044) j = s.bit (pkgReg 0x044) j := by
  generalize hu : (s.setBit (thmReg 0x040) i).setBit (pkgReg 0x044) 2 = u
  have cause : u.bit (thmReg 0x040) i = true := hu ▸ State.bit_setBit_of_bit (by decide) (s.bit_setBit_same _ hi)
  have kept : ∀ j, s.bit (thmReg 0x040) j = true → u.bit (thmReg 0x040) j = true := fun j hj =>
    hu ▸ State.bit_setBit_of_bit (by decide) (State.bit_setBit_of_bit hi hj)
  have package : ∀ j, j ≠ 2 → u.bit (pkgReg 0x044) j = s.bit (pkgReg 0x044) j := fun j hj => by
    rw [← hu, State.bit_setBit_ne (by decide) hj]
    unfold State.bit State.fld
    rw [State.reg_setBit_ne _ _ (by decide)]
  have rest : RegsBut (fun a => a = cntPage 594 0x044) u (s.alert i) := by
    rw [← hu]
    have counted := RegsBut.ite (c := s.fld (thmReg 0x040) 0 12 = 0)
      ((RegsBut.refl ((s.setBit (thmReg 0x040) i).setBit (pkgReg 0x044) 2)).count (P := fun a => a = cntPage 594 0x044) (k := 594) (i := 3)
        (n := 1) rfl) (.refl _)
    exact RegsBut.ite counted counted.msix
  refine ⟨?_, fun j hj => ?_, fun j hj => ?_⟩
  · rw [rest.bit (by decide), cause]
  · rw [rest.bit (by decide), kept j hj]
  · rw [rest.bit (by decide), package j hj]

/-- A report sets and clears none of the package's registers. -/
theorem State.report_fld (s : State) (own : Option Nat) (code sev die plot addr : Nat) {a : Nat} (ha : ∀ f, a ≠ errReg f 0x050) (lo w : Nat) :
    (s.report own code sev die plot addr).fld a lo w = s.fld a lo w :=
  RegsBut.fld (P := RptRegs) ((RegsBut.refl s).report fun f => ⟨f, rfl⟩) (fun ⟨f, h⟩ => ha f h) lo w

theorem State.report_bit (s : State) (own : Option Nat) (code sev die plot addr : Nat) {a : Nat} (ha : ∀ f, a ≠ errReg f 0x050) (i : Nat) :
    (s.report own code sev die plot addr).bit a i = s.bit a i := by
  unfold State.bit
  rw [s.report_fld _ _ _ _ _ _ ha]

theorem ne_errReg_of_offset {d p o : Nat} (ho : o < 4096) (h : o ≠ 0x050) (f : Nat) : regAddr d p o ≠ errReg f 0x050 := by
  unfold errReg
  intro e
  split_ifs at e
  all_goals exact h (regAddr_eq e ho (by decide)).2

/-! ### Trips (R22, R531, R532) -/

theorem halted_foldl (l : List Nat) {j : Nat} (h : (s.stk j).halt = true ∨ j ∈ l) :
    ((l.foldl (fun s st => s.updStk st fun T => { T with halt := true }) s).stk j).halt = true := by
  induction l generalizing s with
  | nil => exact h.resolve_right (by simp)
  | cons st l ih =>
    rw [List.foldl_cons]
    refine ih ?_
    by_cases e : j = st
    · subst e
      exact .inl (by rw [State.stk_updStk_same])
    · rcases h with h | h
      · exact .inl (by rw [State.stk_updStk, if_neg e]; exact h)
      · exact .inr (List.mem_of_ne_of_mem e h)

/-- R531: the arrays of every stack are halted. -/
def State.haltAll (s : State) : State := (List.range 16).foldl (fun s st => s.updStk st fun T => { T with halt := true }) s

theorem State.trip_eq (s : State) :
    s.trip = { s.haltAll with pins := { s.haltAll.pins with thermtrip := true }, clocksOff := true } := rfl

theorem State.haltAll_effect (s : State) : SameBut [.stks] s s.haltAll ∧ ∀ st < 16, (s.haltAll.stk st).halt = true :=
  ⟨SameBut.foldl (.refl s) fun _ _ h => State.updStk_same _ _ h rfl, fun _ h => halted_foldl _ (.inr (List.mem_range.2 h))⟩

theorem stackHalted_of_halt {st : Nat} (h : (s.stk st).halt = true) : stackHalted s st = true := by
  unfold stackHalted
  rw [h]
  rfl

theorem State.trip_stk (s : State) (st : Nat) : s.trip.stk st = s.haltAll.stk st := by
  unfold State.stk
  rw [State.trip_eq]

theorem State.trip_effect (s : State) :
    SameBut [.stks, .pins, .clocksOff] s s.trip ∧ s.trip.clocksOff = true ∧ s.trip.pins = { s.pins with thermtrip := true } ∧
      ∀ st < 16, stackHalted s.trip st = true := by
  refine ⟨State.trip_same (.refl s) rfl, by rw [State.trip_eq], ?_, fun st h => stackHalted_of_halt ?_⟩
  · rw [State.trip_eq, ← s.haltAll_effect.1.pins (by decide)]
  · rw [State.trip_stk]
    exact s.haltAll_effect.2 st h

/-! ### Sensor reads (R25, R548) -/

theorem wrapInt_toInt (x : BitVec 16) : wrapInt 16 x.toInt = x.toNat := by
  unfold wrapInt
  have := x.isLt
  rw [BitVec.toInt_eq_toNat_cond]
  split <;> omega

theorem State.setCoolReg_effect (s : State) (off : Nat) (x : Option (BitVec 16)) :
    (s.setCoolReg off (coolValid x)).bit (thmReg off) 16 = (coolValid x).isSome ∧
      ∀ v : BitVec 16, x = some v → coolValid x ≠ none → (s.setCoolReg off (coolValid x)).fld (thmReg off) 0 16 = v.toNat := by
  unfold State.setCoolReg
  cases valid : coolValid x with
  | none => exact ⟨s.bit_clrBit_same _ (by decide), fun _ _ h => absurd rfl h⟩
  | some t =>
    refine ⟨State.bit_setBit_same _ _ (by decide), fun v hv _ => ?_⟩
    subst hv
    have temp : v.toInt = t := by
      unfold coolValid at valid
      dsimp only at valid
      split at valid
      · exact absurd valid (by simp)
      · exact Option.some.inj valid
    dsimp only
    unfold State.setBit
    rw [State.fld_setFld_ne _ _ _ (by decide) (by decide), State.fld_setFld_same _ _ _ (by decide), ← temp, wrapInt_toInt]
    exact Nat.mod_eq_of_lt v.isLt

theorem State.setCoolReg_regs (s : State) (off : Nat) (x : Option Int) : OtherRegs [thmReg off] s (s.setCoolReg off x) := by
  unfold State.setCoolReg
  split
  · exact (otherRegs_setFld _ _ _ (by simp)).trans (otherRegs_setBit _ (by simp))
  · exact otherRegs_clrBit _ (by simp)

theorem RegsBut.coolAlert {P : Nat → Prop} {s0 : State} {was now : CoolCond} {rpt : Bool} {cause : Nat} (h : RegsBut P s0 s)
    (hP : ∀ a, AlertRegs a → P a) : RegsBut P s0 (s.coolAlert was now rpt cause) :=
  .ite (RegsBut.alert (.ite (h.alertReport hP) h) hP) h

theorem State.coolAlert_frame (s : State) (was now : CoolCond) (rpt : Bool) (cause : Nat) :
    SameBut [.regs, .errs, .cores, .cnts, .wire] s (s.coolAlert was now rpt cause) := State.coolAlert_same _ _ _ _ (.refl s) rfl

theorem State.inletCheck_effect (s : State) (inlet outlet : Option Int) :
    RegsBut AlertRegs s (s.inletCheck inlet outlet) ∧ (s.inletCheck inlet outlet).coolant.flowReads = s.coolant.flowReads := by
  unfold State.inletCheck
  dsimp only
  generalize hu : State.mk _ _ _ _ _ _ _ _ _ _ _ _ _ _ _ _ _ _ _ _ _ _ _ _ _ _ _ _ _ _ _ _ _ _ _ _ _ _ _ _ _ _ _ = u
  have noted : SameBut [.coolant] s u := hu ▸ SameBut.lit_coolant (.refl s) rfl
  have reads : u.coolant.flowReads = s.coolant.flowReads := by rw [← hu]
  have all : ∀ a b c d e f i j k x y z, SameBut [.regs, .errs, .cores, .cnts, .wire] u
      (((u.coolAlert a b c d).coolAlert e f i j).coolAlert k x y z) := fun a b c d e f i j k x y z =>
    ((u.coolAlert_frame a b c d).trans (State.coolAlert_frame _ e f i j)).trans (State.coolAlert_frame _ k x y z)
  refine ⟨?_, ?_⟩
  · have regs : RegsBut AlertRegs s u := (RegsBut.refl s).same noted (by decide)
    exact ((regs.coolAlert fun _ => id).coolAlert fun _ => id).coolAlert fun _ => id
  · rw [(all _ _ _ _ _ _ _ _ _ _ _ _).coolant (by decide), reads]

theorem not_alertRegs {o : Nat} (ho : o < 4096) (h : o ≠ 0x040) (h' : o ≠ 0x050) : ¬ AlertRegs (thmReg o) := by
  rintro (e | e | e | ⟨f, e⟩)
  · exact h (regAddr_eq e ho (by decide)).2
  · have := (regAddr_eq e ho (by decide)).1
    omega
  · unfold cntPage at e
    simp only [show ¬ (594 < 512) by decide, show ¬ (594 < 576) by decide, show ¬ (594 < 592) by decide, show ¬ (594 = 592) by decide,
      show ¬ (594 = 593) by decide, if_false] at e
    have := (regAddr_eq e ho (by decide)).1
    omega
  · exact ne_errReg_of_offset ho h' f e

/-- R25, R548: a read shows in the registers, and the flow is counted from the package's status. -/
theorem coolantRead_effect (s : State) (inlet outlet : Option (BitVec 16)) :
    ∀ u, u = coolantRead (coolValid inlet) (coolValid outlet) s →
      u.bit (thmReg 0x044) 16 = (coolValid inlet).isSome ∧ u.bit (thmReg 0x048) 16 = (coolValid outlet).isSome ∧
      (∀ x : BitVec 16, inlet = some x → coolValid inlet ≠ none → u.fld (thmReg 0x044) 0 16 = x.toNat) ∧
      u.coolant.flowReads = (if s.bit (pkgReg 0x044) 3 then s.coolant.flowReads + 1 else 0) := by
  rintro u hu
  unfold coolantRead at hu
  dsimp only at hu
  obtain ⟨inBit, inWord⟩ := s.setCoolReg_effect 0x044 inlet
  have inRegs := s.setCoolReg_regs 0x044 (coolValid inlet)
  have inFrame : SameBut [.regs] s (s.setCoolReg 0x044 (coolValid inlet)) := State.setCoolReg_same _ _ (.refl s) rfl
  generalize s.setCoolReg 0x044 (coolValid inlet) = a at *
  obtain ⟨outBit, -⟩ := a.setCoolReg_effect 0x048 outlet
  have outRegs := a.setCoolReg_regs 0x048 (coolValid outlet)
  have outFrame : SameBut [.regs] a (a.setCoolReg 0x048 (coolValid outlet)) := State.setCoolReg_same _ _ (.refl a) rfl
  generalize a.setCoolReg 0x048 (coolValid outlet) = b at *
  have before : b.coolant = s.coolant := (outFrame.coolant (by decide)).trans (inFrame.coolant (by decide))
  have status : b.bit (pkgReg 0x044) 3 = s.bit (pkgReg 0x044) 3 := (outRegs.bit (by decide) 3).trans (inRegs.bit (by decide) 3)
  generalize hc : State.mk _ _ _ _ _ _ _ _ _ _ _ _ _ _ _ _ _ _ _ _ _ _ _ _ _ _ _ _ _ _ _ _ _ _ _ _ _ _ _ _ _ _ _ = c at hu
  have noted : SameBut [.coolant] b c := hc ▸ SameBut.lit_coolant (.refl b) rfl
  have reads : c.coolant.flowReads = (if s.bit (pkgReg 0x044) 3 then s.coolant.flowReads + 1 else 0) := by
    rw [← hc]
    dsimp only
    rw [before, status]
  generalize hd : (if b.coolant.halted = true then c.count 594 4 100000 else c) = d at hu
  have counted : SameBut [.regs, .cnts] c d := hd ▸ SameBut.ite (State.count_same _ _ _ (.refl c) rfl) (.refl c)
  have countRegs : RegsBut AlertRegs c d := hd ▸ .ite ((RegsBut.refl c).count (.inr (.inr (.inl rfl)))) (.refl c)
  have last : RegsBut AlertRegs d u ∧ u.coolant.flowReads = d.coolant.flowReads := by
    rw [hu]
    split
    · exact d.inletCheck_effect _ _
    · exact ⟨.refl d, rfl⟩
  have since : RegsBut AlertRegs b u := (((RegsBut.refl b).same noted (by decide)).trans countRegs).trans last.1
  refine ⟨?_, ?_, fun x hx valid => ?_, ?_⟩
  · rw [since.bit (not_alertRegs (by decide) (by decide) (by decide)), outRegs.bit (by decide), inBit]
  · rw [since.bit (not_alertRegs (by decide) (by decide) (by decide)), outBit]
  · rw [since.fld (not_alertRegs (by decide) (by decide) (by decide)), outRegs.fld (by decide), inWord x hx valid]
  · rw [last.2, counted.coolant (by decide), reads]

/-! ### The emergency halt (R549) -/

theorem thm_ne_errReg (o : Nat) (ho : o < 4096) (h : o ≠ 0x050) (f : Nat) : thmReg o ≠ errReg f 0x050 := ne_errReg_of_offset ho h f

theorem pkg_ne_errReg (o : Nat) (ho : o < 4096) (h : o ≠ 0x050) (f : Nat) : pkgReg o ≠ errReg f 0x050 := ne_errReg_of_offset ho h f

/-- R549: the halt is in force, its alerts are raised, and the flow bit of the package stays. -/
theorem State.emergencyHalt_effect (s : State) {cause : Nat} (code addr : Nat) (hc : cause < 32) :
    (s.emergencyHalt cause code addr).coolant = { s.coolant with halted := true } ∧
      (s.emergencyHalt cause code addr).bit (thmReg 0x040) cause = true ∧ (s.emergencyHalt cause code addr).bit (thmReg 0x040) 11 = true ∧
      (s.emergencyHalt cause code addr).bit (pkgReg 0x044) 3 = s.bit (pkgReg 0x044) 3 := by
  unfold State.emergencyHalt
  dsimp only
  generalize hu : State.mk _ _ _ _ _ _ _ _ _ _ _ _ _ _ _ _ _ _ _ _ _ _ _ _ _ _ _ _ _ _ _ _ _ _ _ _ _ _ _ _ _ _ _ = u
  have noted : SameBut [.coolant] s u := hu ▸ SameBut.lit_coolant (.refl s) rfl
  have halted : u.coolant = { s.coolant with halted := true } := by rw [← hu]
  obtain ⟨first, -, package⟩ := u.alert_bits hc
  have one : SameBut [.regs, .cores, .cnts, .wire] u (u.alert cause) := State.alert_same _ (.refl u) rfl
  generalize u.alert cause = v at *
  obtain ⟨second, kept, package'⟩ := v.alert_bits (i := 11) (by decide)
  have two : SameBut [.regs, .cores, .cnts, .wire] v (v.alert 11) := State.alert_same _ (.refl v) rfl
  generalize v.alert 11 = w at *
  have reported : SameBut [.regs, .errs, .cores, .wire] w (w.report none code 2 16 0 addr) := State.report_same _ _ _ _ _ _ (.refl w) rfl
  refine ⟨?_, ?_, ?_, ?_⟩
  · rw [reported.coolant (by decide), two.coolant (by decide), one.coolant (by decide), halted]
  · rw [w.report_bit _ _ _ _ _ _ (thm_ne_errReg _ (by decide) (by decide)), kept _ first]
  · rw [w.report_bit _ _ _ _ _ _ (thm_ne_errReg _ (by decide) (by decide)), second]
  · rw [w.report_bit _ _ _ _ _ _ (pkg_ne_errReg _ (by decide) (by decide)), package' 3 (by decide), package 3 (by decide),
      noted.bit (by decide)]

/-! ### The coolant estimate (R546 to R548) -/

theorem flowStop_effect (s : State) :
    ∀ u, u = (if coolOwns s then (({ s with coolant := { s.coolant with flowReads := 0, noFlow := true } } : State).clrBit (pkgReg 0x044) 3).emergencyHalt
        0 0x12 0x10 else ({ s with coolant := { s.coolant with flowReads := 0, noFlow := true } } : State).clrBit (pkgReg 0x044) 3) →
      u.bit (pkgReg 0x044) 3 = false ∧ u.coolant.noFlow = true ∧
      (coolOwns s = true → u.coolant.halted = true ∧ u.bit (thmReg 0x040) 0 = true ∧ u.bit (thmReg 0x040) 11 = true) := by
  generalize hv : ({ s with coolant := { s.coolant with flowReads := 0, noFlow := true } } : State) = v
  have dry : v.coolant.noFlow = true := by rw [← hv]
  have cleared : SameBut [.regs] v (v.clrBit (pkgReg 0x044) 3) := State.clrBit_same _ _ (.refl v) rfl
  have off : (v.clrBit (pkgReg 0x044) 3).bit (pkgReg 0x044) 3 = false := v.bit_clrBit_same _ (by decide)
  generalize v.clrBit (pkgReg 0x044) 3 = w at *
  rintro u rfl
  split
  next owns =>
    obtain ⟨coolant, first, second, package⟩ := w.emergencyHalt_effect (cause := 0) 0x12 0x10 (by decide)
    refine ⟨package.trans off, ?_, fun _ => ⟨?_, first, second⟩⟩
    · rw [coolant]
      exact (congrArg Coolant.noFlow (cleared.coolant (by decide))).trans dry
    · rw [coolant]
  next free =>
    exact ⟨off, (congrArg Coolant.noFlow (cleared.coolant (by decide))).trans dry, fun h => absurd h free⟩

/-- A halt in force halts every stack. -/
theorem stackHalted_of_coolant (h : s.coolant.halted = true) (st : Nat) : stackHalted s st = true ∧ govLevel s st ≥ 15 := by
  have halted : stackHalted s st = true := by
    unfold stackHalted
    rw [h, Bool.or_true]
  refine ⟨halted, ?_⟩
  unfold govLevel
  rw [if_pos halted]
  exact le_max_right _ _

/-- The coolant as the estimate of a stack leaves it: halt and ramp aside. -/
def FlowKept (s t : State) : Prop :=
  t.coolant.pulses = s.coolant.pulses ∧ t.coolant.inCnt = s.coolant.inCnt ∧ t.coolant.inSum = s.coolant.inSum ∧
    t.coolant.inBad = s.coolant.inBad ∧ t.boot = s.boot

theorem FlowKept.trans {s t u : State} (h : FlowKept s t) (h' : FlowKept t u) : FlowKept s u := by
  obtain ⟨a, b, c, d, e⟩ := h
  obtain ⟨a', b', c', d', e'⟩ := h'
  exact ⟨a'.trans a, b'.trans b, c'.trans c, d'.trans d, e'.trans e⟩

theorem FlowKept.of_coolant {t : State} (h : t.coolant = s.coolant) (hb : t.boot = s.boot) : FlowKept s t := by
  unfold FlowKept
  rw [h, hb]
  exact ⟨rfl, rfl, rfl, rfl, rfl⟩

theorem secMean_of_kept {t : State} {st : Nat} (flow : FlowKept s t) (stk : t.stk st = s.stk st) : secMean t st = secMean s st := by
  obtain ⟨-, cnt, sum, bad, -⟩ := flow
  unfold secMean
  rw [stk, cnt, sum, bad]

/-- Only stack `st` changes, and not the means of its seconds. -/
def SecsKept (st : Nat) (s t : State) : Prop := (∀ j, j ≠ st → t.stk j = s.stk j) ∧ (t.stk st).secs = (s.stk st).secs

theorem SecsKept.refl (st : Nat) (s : State) : SecsKept st s s := ⟨fun _ _ => rfl, rfl⟩

theorem SecsKept.same {st : Nat} {w : List Fld} {t u : State} (h : SecsKept st s t) (frame : SameBut w t u) (hw : Fld.stks ∉ w) :
    SecsKept st s u := ⟨fun j hj => (frame.stk hw j).trans (h.1 j hj), (congrArg Stack.secs (frame.stk hw st)).trans h.2⟩

theorem SecsKept.upd {st : Nat} {t : State} {f : Stack → Stack} (h : SecsKept st s t) (hf : ∀ T, (f T).secs = T.secs) :
    SecsKept st s (t.updStk st f) := by
  refine ⟨fun j hj => ?_, ?_⟩
  · rw [State.stk_updStk, if_neg hj]
    exact h.1 j hj
  · rw [State.stk_updStk_same, hf]
    exact h.2

theorem SecsKept.report {st : Nat} {t : State} {own : Option Nat} {code sev die plot addr : Nat} (h : SecsKept st s t) :
    SecsKept st s (t.report own code sev die plot addr) :=
  h.same (State.report_same (msk := [.regs, .errs, .cores, .wire]) _ _ _ _ _ _ (.refl t) rfl) (by decide)

theorem SecsKept.alert {st : Nat} {t : State} {i : Nat} (h : SecsKept st s t) : SecsKept st s (t.alert i) :=
  h.same (State.alert_same (msk := [.regs, .cores, .cnts, .wire]) _ (.refl t) rfl) (by decide)

theorem SecsKept.coolState {st : Nat} {t : State} (h : SecsKept st s t) (est : Nat) : SecsKept st s (t.coolState st est) := by
  unfold State.coolState
  dsimp only
  cases (t.stk st).cool with
  | normal =>
    dsimp only
    split
    · exact SecsKept.report (SecsKept.upd h (by intro T; rfl))
    · exact SecsKept.upd h (by intro T; rfl)
  | derated =>
    dsimp only
    split
    · exact SecsKept.alert (SecsKept.report (SecsKept.upd h (by intro T; rfl)))
    · split
      · exact SecsKept.upd h (by intro T; rfl)
      · exact SecsKept.upd h (by intro T; rfl)
  | degraded =>
    dsimp only
    split
    · exact SecsKept.upd h (by intro T; rfl)
    · exact SecsKept.upd h (by intro T; rfl)

/-- R547: the stack is judged by its estimate, where there is one. -/
def State.judgeStack (s : State) (st : Nat) : State :=
  match rEstimate (s.stk st).secs with
  | some e => (s.setFld (govReg st 0x058) 0 16 (min 65535 e)).coolState st e
  | none => s

theorem State.judgeStack_effect (s : State) (st : Nat) :
    SecsKept st s (s.judgeStack st) ∧ SameBut [.regs, .stks, .errs, .cores, .cnts, .wire] s (s.judgeStack st) := by
  unfold State.judgeStack
  cases rEstimate (s.stk st).secs with
  | some e =>
    have written : SameBut [.regs] s (s.setFld (govReg st 0x058) 0 16 (min 65535 e)) := State.setFld_same _ _ _ _ (.refl s) rfl
    exact ⟨((SecsKept.refl st s).same written (by decide)).coolState e, State.coolState_same _ _ (written.mono rfl) rfl⟩
  | none => exact ⟨.refl st s, .refl s⟩

/-- R549: the halt that a ramp triggers. -/
def State.rampHalt (s : State) (st : Nat) : State :=
  if rampNow (s.stk st).secs then ({ s with coolant := { s.coolant with ramp := true } } : State).emergencyHalt 1 0x13 (thermAddr st 0) else s

theorem State.rampHalt_effect (s : State) (st : Nat) : FlowKept s (s.rampHalt st) ∧ ∀ j, (s.rampHalt st).stk j = s.stk j := by
  unfold State.rampHalt
  split
  · generalize hx : ({ s with coolant := { s.coolant with ramp := true } } : State) = x
    have ramped : SameBut [.coolant] s x := hx ▸ SameBut.lit_coolant (.refl s) rfl
    have flow : FlowKept s x := by
      rw [← hx]
      exact ⟨rfl, rfl, rfl, rfl, rfl⟩
    have halts : SameBut [.regs, .coolant, .errs, .cores, .cnts, .wire] x (x.emergencyHalt 1 0x13 (thermAddr st 0)) :=
      State.emergencyHalt_same _ _ _ (.refl x) rfl
    have flow' : FlowKept x (x.emergencyHalt 1 0x13 (thermAddr st 0)) := by
      unfold FlowKept
      rw [(x.emergencyHalt_effect (cause := 1) 0x13 (thermAddr st 0) (by decide)).1, halts.boot (by decide)]
      exact ⟨rfl, rfl, rfl, rfl, rfl⟩
    exact ⟨flow.trans flow', fun j => (halts.stk (by decide) j).trans (ramped.stk (by decide) j)⟩
  · exact ⟨.of_coolant rfl rfl, fun _ => rfl⟩

theorem State.coolStack_eq (s : State) (st : Nat) :
    s.coolStack st = (((s.updStk st fun T =>
      { T with secs := (secMean s st :: T.secs).take 10, powSum := 0, powCnt := 0, tempSum := 0, tempCnt := 0 }).judgeStack st).moveCap
        st).rampHalt st := rfl

/-- R546: a stack's second joins its last ten; the coolant's sums stay. -/
theorem State.coolStack_effect (s : State) (st : Nat) :
    FlowKept s (s.coolStack st) ∧ (∀ j, j ≠ st → (s.coolStack st).stk j = s.stk j) ∧
      ((s.coolStack st).stk st).secs = (secMean s st :: (s.stk st).secs).take 10 := by
  rw [State.coolStack_eq]
  generalize hu : s.updStk st _ = u
  have noted : SameBut [.stks] s u := hu ▸ State.updStk_same _ _ (.refl s) rfl
  have others : ∀ j, j ≠ st → u.stk j = s.stk j := fun j hj => by rw [← hu, State.stk_updStk, if_neg hj]
  have secs : (u.stk st).secs = (secMean s st :: (s.stk st).secs).take 10 := by rw [← hu, State.stk_updStk_same]
  obtain ⟨judged, frame⟩ := u.judgeStack_effect st
  generalize u.judgeStack st = v at *
  have moved : SecsKept st u (v.moveCap st) := SecsKept.upd judged (by intro T; rfl)
  have capFrame : SameBut [.stks] v (v.moveCap st) := State.moveCap_same _ (.refl v) rfl
  generalize v.moveCap st = w at *
  have flow : FlowKept s w := .of_coolant
    ((capFrame.coolant (by decide)).trans ((frame.coolant (by decide)).trans (noted.coolant (by decide))))
    ((capFrame.boot (by decide)).trans ((frame.boot (by decide)).trans (noted.boot (by decide))))
  obtain ⟨halts, stks⟩ := w.rampHalt_effect st
  refine ⟨flow.trans halts, fun j hj => ?_, ?_⟩
  · rw [stks, moved.1 j hj, others j hj]
  · rw [stks, moved.2, secs]

theorem coolStacks_effect {l : List Nat} (nodup : l.Nodup) :
    FlowKept s (l.foldl (fun s st => s.coolStack st) s) ∧ (∀ j, j ∉ l → (l.foldl (fun s st => s.coolStack st) s).stk j = s.stk j) ∧
      ∀ j ∈ l, ((l.foldl (fun s st => s.coolStack st) s).stk j).secs = (secMean s j :: (s.stk j).secs).take 10 := by
  induction l generalizing s with
  | nil => exact ⟨.of_coolant rfl rfl, fun _ _ => rfl, fun j hj => absurd hj (by simp)⟩
  | cons st l ih =>
    obtain ⟨out, rest⟩ := List.nodup_cons.1 nodup
    obtain ⟨flow, others, secs⟩ := s.coolStack_effect st
    obtain ⟨flow', others', secs'⟩ := ih (s := s.coolStack st) rest
    rw [List.foldl_cons]
    refine ⟨flow.trans flow', fun j hj => ?_, fun j hj => ?_⟩
    · rw [others' j fun h => hj (List.mem_cons_of_mem _ h), others j fun h => hj (h ▸ List.mem_cons_self)]
    · rcases List.mem_cons.1 hj with rfl | inTail
      · rw [others' j out, secs]
      · have ne : j ≠ st := fun h => out (h ▸ inTail)
        rw [secs' j inTail, secMean_of_kept flow (others j ne), others j ne]

theorem flowMl_of_kept {t : State} (h : FlowKept s t) : flowMl t = flowMl s := by
  obtain ⟨pulses, -, -, -, boot⟩ := h
  unfold flowMl
  rw [pulses, boot]

theorem State.flowCheck_effect (s : State) :
    s.flowCheck.fld (thmReg 0x04C) 0 16 = min 65535 (flowMl s) ∧ s.flowCheck.coolant.pulses = 0 := by
  unfold State.flowCheck
  dsimp only
  generalize hu : s.setFld (thmReg 0x04C) 0 16 (min 65535 (flowMl s)) = u
  have flow : u.fld (thmReg 0x04C) 0 16 = min 65535 (flowMl s) := by
    rw [← hu, State.fld_setFld_same _ _ _ (by decide)]
    omega
  generalize hv : State.mk _ _ _ _ _ _ _ _ _ _ _ _ _ _ _ _ _ _ _ _ _ _ _ _ _ _ _ _ _ _ _ _ _ _ _ _ _ _ _ _ _ _ _ = v
  have noted : SameBut [.coolant] u v := hv ▸ SameBut.lit_coolant (.refl u) rfl
  have empty : v.coolant.pulses = 0 := by rw [← hv]
  refine ⟨?_, ?_⟩
  · rw [RegsBut.fld (P := AlertRegs) ((RegsBut.refl v).coolAlert fun _ => id) (not_alertRegs (by decide) (by decide) (by decide)),
      noted.fld (by decide), flow]
  · rw [(v.coolAlert_frame _ _ _ _).coolant (by decide), empty]

theorem coolantEstimate_effect (s : State) :
    (coolantEstimate s).fld (thmReg 0x04C) 0 16 = min 65535 (flowMl s) ∧ (coolantEstimate s).coolant.pulses = 0 ∧
      ∀ st < 16, stackUp s st = true → ((coolantEstimate s).stk st).secs = (secMean s st :: (s.stk st).secs).take 10 := by
  unfold coolantEstimate
  dsimp only
  generalize hu : ({ s with coolant := { s.coolant with ramp := false } } : State) = u
  have calm : SameBut [.coolant] s u := hu ▸ SameBut.lit_coolant (.refl s) rfl
  have flow : FlowKept s u := by
    rw [← hu]
    exact ⟨rfl, rfl, rfl, rfl, rfl⟩
  obtain ⟨flow', -, secs⟩ := coolStacks_effect (s := u) (List.nodup_range.filter fun st => stackUp s st)
  generalize List.foldl (fun s st => State.coolStack s st) u ((List.range 16).filter fun st => stackUp s st) = v at *
  generalize hw : State.mk _ _ _ _ _ _ _ _ _ _ _ _ _ _ _ _ _ _ _ _ _ _ _ _ _ _ _ _ _ _ _ _ _ _ _ _ _ _ _ _ _ _ _ = w
  have noted : SameBut [.coolant] v w := hw ▸ SameBut.lit_coolant (.refl v) rfl
  have same : flowMl w = flowMl v := by
    rw [← hw]
    rfl
  obtain ⟨word, empty⟩ := w.flowCheck_effect
  have checked : SameBut [.regs, .coolant, .errs, .cores, .cnts, .wire] w w.flowCheck := State.flowCheck_same (.refl w) rfl
  refine ⟨?_, empty, fun st hst up => ?_⟩
  · rw [word, same, flowMl_of_kept (flow.trans flow')]
  · have here : st ∈ (List.range 16).filter fun st => stackUp s st := List.mem_filter.2 ⟨List.mem_range.2 hst, up⟩
    rw [checked.stk (by decide), noted.stk (by decide), secs st here, secMean_of_kept flow (calm.stk (by decide) st), calm.stk (by decide)]

/-- Settles O54: trips through `trip_effect`, the halt through `emergencyHalt_effect`, estimates stack by stack. -/
theorem tripsAndTheCoolantHaltThePackage : Obligations.TripsAndTheCoolantHaltThePackage := by
  unfold Obligations.TripsAndTheCoolantHaltThePackage
  refine fun s => ⟨⟨fun due => ?_, fun calm => ?_⟩, fun die power live => ?_, fun inlet outlet runs => ?_, fun up => ?_, fun up flows => ?_,
    fun owns => ?_, fun r served => ?_⟩
  · exact ⟨_, congrArg Host.Outcome.next (if_pos due), s.trip_effect⟩
  · exact congrArg Host.Outcome.next (if_neg (by simp [calm]))
  · refine ⟨_, congrArg Host.Outcome.next (if_pos ?_), s.trip_effect⟩
    rcases live with h | h <;> simp [power, h]
  · exact ⟨_, congrArg Host.Outcome.next (if_pos runs), coolantRead_same _ _ (.refl s) rfl, coolantRead_effect s inlet outlet _ rfl⟩
  · refine ⟨_, congrArg Host.Outcome.next (if_pos up), ?_⟩
    generalize hu : ({ s with coolant := { s.coolant with pulses := s.coolant.pulses + 1, noFlow := false } } : State) = u
    have noted : SameBut [.coolant] s u := hu ▸ SameBut.lit_coolant (.refl s) rfl
    have set : SameBut [.regs] u (u.setBit (pkgReg 0x044) 3) := State.setBit_same _ _ (.refl u) rfl
    refine ⟨(noted.mono rfl).trans (set.mono rfl), (noted.otherRegs (by decide) _).trans (otherRegs_setBit _ (by simp)),
      u.bit_setBit_same _ (by decide), ?_⟩
    rw [set.coolant (by decide), ← hu]
  · refine ⟨_, congrArg Host.Outcome.next (if_pos (by simp [up, flows])), ?_⟩
    dsimp only
    have drained : SameBut [.regs, .coolant, .errs, .cores, .cnts, .wire] s
        (({ s with coolant := { s.coolant with flowReads := 0, noFlow := true } } : State).clrBit (pkgReg 0x044) 3) :=
      State.clrBit_same _ _ (SameBut.lit_coolant (.refl s) rfl) rfl
    obtain ⟨off, dry, halts⟩ := flowStop_effect s _ rfl
    refine ⟨SameBut.ite (State.emergencyHalt_same _ _ _ drained rfl) drained, off, dry, fun owned => ?_⟩
    obtain ⟨halted, first, second⟩ := halts owned
    exact ⟨halted, fun st => stackHalted_of_coolant halted st, first, second⟩
  · exact ⟨_, congrArg Host.Outcome.next (if_pos owns), coolantEstimate_same (.refl s) rfl, coolantEstimate_effect s⟩
  · obtain ⟨l, hl⟩ := s.reqStepped_step r
    have stepped := s.reqStepped_frame r
    have same : resumeOk (s.reqStepped r) = resumeOk s := by rw [hl]; rfl
    refine ⟨_, outcome_access _ served, resume_same (.refl _) rfl, fun ok => ?_, fun bad => ?_⟩
    · unfold resume
      rw [if_pos (same.trans ok)]
      exact ⟨stepped.regs (by decide), by rw [stepped.coolant (by decide)]⟩
    · unfold resume
      rw [if_neg (by rw [same]; simp [bad])]
      have set : SameBut [.regs] (s.reqStepped r) ((s.reqStepped r).setBit (thmReg 0x058) 0) := State.setBit_same _ _ (.refl _) rfl
      exact ⟨(set.coolant (by decide)).trans (stepped.coolant (by decide)),
        (stepped.otherRegs (by decide) _).trans (otherRegs_setBit _ (by simp)), State.bit_setBit_same _ _ (by decide)⟩

end Coolant
end Sys2Proof.Machine
end

section
/-!
The media channels (R421 to R428).
-/
namespace Sys2Proof.Machine

section Media
variable {s : State} {n : Nat}

/-! ### Pushes and starts (R423, R425) -/

theorem SameBut.med {w : List Fld} {s t : State} (h : SameBut w s t) (hw : Fld.media ∉ w) (j : Nat) : t.med j = s.med j := by
  unfold State.med
  rw [h.media hw]

theorem State.irq_medReg (s : State) (n i : Nat) : s.irq (medReg n 0) i = s.setBit (medReg n 0x014) i := by
  have address : medReg n 0 / 4096 * 4096 + 0x014 = medReg n 0x014 := by
    unfold medReg regAddr
    omega
  unfold State.irq
  rw [address]

theorem mediaPush_effect (s : State) (n : Nat) :
    ((s.med n).fstate = .running → (s.med n).queue.length < 4 → (mediaPush n s).regs = s.regs ∧
      (mediaPush n s).med n = { s.med n with queue := (s.med n).queue ++ [windowDesc (s.med n).window] }) ∧
    ((s.med n).fstate ≠ .running → (mediaPush n s).media = s.media ∧ (mediaPush n s).bit (medReg n 0x014) 1 = true) ∧
    ((s.med n).fstate = .running → 4 ≤ (s.med n).queue.length → (mediaPush n s).media = s.media ∧
      (mediaPush n s).bit (medReg n 0x014) 0 = true) := by
  have flagged : ∀ i < 32, (s.irq (medReg n 0) i).media = s.media ∧ (s.irq (medReg n 0) i).bit (medReg n 0x014) i = true := fun i hi => by
    rw [State.irq_medReg]
    exact ⟨SameBut.media (State.setBit_same _ _ (.refl s) rfl) (by decide : Fld.media ∉ [Fld.regs]), s.bit_setBit_same _ hi⟩
  refine ⟨fun runs room => ?_, fun stops => ?_, fun runs full => ?_⟩
  · have body : mediaPush n s = s.setMed n { s.med n with queue := (s.med n).queue ++ [windowDesc (s.med n).window] } := by
      unfold mediaPush
      dsimp only
      rw [if_neg (by simp [runs]), if_neg (by omega)]
    rw [body, State.med_setMed_same]
    exact ⟨rfl, rfl⟩
  · have body : mediaPush n s = s.irq (medReg n 0) 1 := by
      unfold mediaPush
      dsimp only
      rw [if_pos (by simpa using stops)]
    rw [body]
    exact flagged 1 (by decide)
  · have body : mediaPush n s = s.irq (medReg n 0) 0 := by
      unfold mediaPush
      dsimp only
      rw [if_neg (by simp [runs]), if_pos full]
    rw [body]
    exact flagged 0 (by decide)

theorem mCheck_ne_limit (d : Desc) : mCheck s n d ≠ some 0x20 := by
  unfold mCheck
  split_ifs <;> simp

/-- R426: the end of a job adds its record, if any, and changes the job's channel in nothing else. -/
theorem State.medEnd_effect (s : State) (n : Nat) (d : Desc) (status frames : Nat) (rejected : Bool) :
    SameBut [.net, .media, .regs] s (s.medEnd n d status frames rejected) ∧
      (∃ cpl, (s.medEnd n d status frames rejected).med n = { s.med n with cpl := cpl }) ∧
      (status ≠ 0 → ∃ x, x.status = BitVec.ofNat 8 status ∧
        (s.medEnd n d status frames rejected).med n = { s.med n with cpl := (s.med n).cpl ++ [(x, frames)] }) ∧
      (rejected = true → status ≠ 0x20 → SameBut [.media] s (s.medEnd n d status frames rejected)) := by
  unfold State.medEnd
  dsimp only
  generalize hu : (if rejected = true then s else s.medSignal n d status) = u
  have signalled : SameBut [.net] s u := hu ▸ SameBut.ite (.refl s) (State.medSignal_same _ _ _ (.refl s) rfl)
  have plain : rejected = true → u = s := fun h => hu ▸ if_pos h
  have before : u.med n = s.med n := signalled.med (by decide) n
  generalize hx : cplRec u 2 d status rejected = x
  have name : x.status = BitVec.ofNat 8 status := by rw [← hx]; rfl
  generalize hv : (if (cplEn (syncOf 2 d) || status != 0) = true then u.updMed n fun M => { M with cpl := M.cpl ++ [(x, frames)] } else u) = v
  have recorded : SameBut [.media] u v := hv ▸ SameBut.ite (State.updMed_same _ _ (.refl u) rfl) (.refl u)
  have med : (∃ cpl, v.med n = { s.med n with cpl := cpl }) ∧
      (status ≠ 0 → v.med n = { s.med n with cpl := (s.med n).cpl ++ [(x, frames)] }) := by
    rw [← hv]
    split
    · rw [State.med_updMed_same, before]
      exact ⟨⟨_, rfl⟩, fun _ => rfl⟩
    next none_ => exact ⟨⟨_, before⟩, fun h => absurd (by simp [h]) none_⟩
  have flagged : SameBut [.regs] v (if status = 0x20 then v.setBit (medReg n 0x00C) 3 else v) :=
    SameBut.ite (State.setBit_same _ _ (.refl v) rfl) (.refl v)
  refine ⟨(signalled.mono rfl).trans ((recorded.mono rfl).trans (flagged.mono rfl)), ?_, fun bad => ⟨x, name, ?_⟩, fun rej other => ?_⟩
  · rw [flagged.med (by decide)]
    exact med.1
  · rw [flagged.med (by decide)]
    exact med.2 bad
  · rw [if_neg other, ← plain rej]
    exact recorded

theorem mediaStart_effect {d : Desc} {rest : List Desc} (front : (s.med n).queue = d :: rest) (idle : (s.med n).job = none) :
    SameBut [.media] s (mediaStart n s) ∧ ((mediaStart n s).med n).queue = rest ∧
      (mCheck s n d = none → ((mediaStart n s).med n).job = some d ∧ ((mediaStart n s).med n).frames = 0 ∧
        ((mediaStart n s).med n).cpl = (s.med n).cpl) ∧
      (∀ st, mCheck s n d = some st → ((mediaStart n s).med n).job = none ∧
        ∃ x, ((mediaStart n s).med n).cpl = (s.med n).cpl ++ [(x, 0)] ∧ x.status = BitVec.ofNat 8 st) := by
  unfold mediaStart
  simp only [front]
  generalize hu : s.setMed n { s.med n with queue := rest } = u
  have popped : SameBut [.media] s u := hu ▸ State.setMed_same _ _ (.refl s) rfl
  have med : u.med n = { s.med n with queue := rest } := by rw [← hu, State.med_setMed_same]
  cases check : mCheck s n d with
  | some st =>
    dsimp only
    have notZero : st ≠ 0 := by
      rintro rfl
      revert check
      unfold mCheck
      split_ifs <;> simp
    obtain ⟨-, -, record, frame⟩ := u.medEnd_effect n d st 0 true
    obtain ⟨x, name, after⟩ := record notZero
    rw [after, med]
    refine ⟨popped.trans (frame rfl fun h => mCheck_ne_limit d (h ▸ check)), rfl, fun h => absurd h (by simp), ?_⟩
    rintro _ ⟨⟩
    exact ⟨idle, x, rfl, name⟩
  | none =>
    dsimp only
    rw [State.med_updMed_same, med]
    exact ⟨State.updMed_same _ _ popped rfl, rfl, fun _ => ⟨rfl, rfl, rfl⟩, fun _ h => absurd h (by simp)⟩

/-! ### Tensors and ends (R425, R426) -/

theorem mediaOutput_effect (d : Desc) (vals : List Word) {a : Nat} (ha : a = mAddr (medOwner s n) (mDst d) + (s.med n).frames * mPitch d)
    (more : (s.med n).frames < mMax d) (go : devWriteGo s a (mTensor d) = true) :
    (mediaOutput n d vals s).dram = (s.devWrite a (mBytes d vals) false .port).st.dram ∧
      (mediaOutput n d vals s).med n = { s.med n with frames := (s.med n).frames + 1 } := by
  have written : SameBut [.regs, .slices, .dram, .chk, .errs, .cores, .caches, .cnts, .wire] s (s.devWrite a (mBytes d vals) false .port).st :=
    State.devWrite_same _ _ _ _ (.refl s) rfl
  unfold mediaOutput
  dsimp only
  rw [← ha, if_pos ⟨more, go⟩, State.med_updMed_same, written.med (by decide)]
  exact ⟨rfl, rfl⟩

theorem State.medStopped_effect (s : State) (n : Nat) :
    SameBut [.media] s (s.medStopped n) ∧ ∃ st, (s.medStopped n).med n = { s.med n with fstate := st } := by
  refine ⟨State.medStopped_same _ (.refl s) rfl, ?_⟩
  unfold State.medStopped
  dsimp only
  split
  · exact ⟨_, State.med_setMed_same _ _ _⟩
  · exact ⟨_, rfl⟩

theorem mediaComplete_effect (d : Desc) (how : MediaEnd) (go : devReadGo s (mAddr (medOwner s n) (mSrc d)) (mSrcLen d) = true)
    {r : DevRes} (hr : r = s.devRead (mAddr (medOwner s n) (mSrc d)) (mSrcLen d) .port) :
    (mediaComplete n d how s).dram = r.st.dram ∧ ((mediaComplete n d how s).med n).job = none ∧
      (mediaStatus how r.poison = 0 → ((mediaComplete n d how s).med n).context = ((s.med n).context || mCodec d != 4)) ∧
      (mediaStatus how r.poison ≠ 0 → ((mediaComplete n d how s).med n).context = false ∧
        ∃ x, x.status = BitVec.ofNat 8 (mediaStatus how r.poison) ∧
          ((mediaComplete n d how s).med n).cpl = (s.med n).cpl ++ [(x, (s.med n).frames)]) := by
  have read : SameBut [.freeCtr, .regs, .slices, .dram, .chk, .errs, .cores, .cnts, .wire] s r.st :=
    hr ▸ State.devRead_same _ _ _ (.refl s) rfl
  unfold mediaComplete
  dsimp only
  rw [if_neg (by simp [go]), ← hr]
  generalize hu : r.st.setMed n _ = u
  have left_ : SameBut [.media] r.st u := hu ▸ State.setMed_same _ _ (.refl _) rfl
  have med : u.med n = { s.med n with job := none, context := if mediaStatus how r.poison = 0 then (s.med n).context || mCodec d != 4 else false } := by
    rw [← hu, State.med_setMed_same, read.med (by decide)]
  obtain ⟨ended, ⟨cpl, after⟩, record, -⟩ := u.medEnd_effect n d (mediaStatus how r.poison) (r.st.med n).frames false
  generalize u.medEnd n d (mediaStatus how r.poison) (r.st.med n).frames false = v at *
  obtain ⟨stopped, st, last⟩ := v.medStopped_effect n
  rw [last]
  refine ⟨?_, ?_, fun ok => ?_, fun bad => ⟨?_, ?_⟩⟩
  · rw [stopped.dram (by decide), ended.dram (by decide), left_.dram (by decide)]
  · rw [after, med]
  · rw [after, med]
    exact if_pos ok
  · rw [after, med]
    exact if_neg bad
  · obtain ⟨x, name, entered⟩ := record bad
    refine ⟨x, name, ?_⟩
    rw [entered, med, read.med (by decide)]

/-- Settles O50: the channel's own fields step by step, with memory only where a tensor or a source is touched. -/
theorem mediaJobsRunToTheirRecords : Obligations.MediaJobsRunToTheirRecords := by
  unfold Obligations.MediaJobsRunToTheirRecords
  refine fun s n => ⟨fun r served => ?_, fun d rest go idle front => ?_, fun d vals a runs job ha more go => ?_,
    fun d how runs job go r hr => ?_, fun r served => ?_⟩
  · have stepped := s.reqStepped_frame r
    have effect := mediaPush_effect (s.reqStepped r) n.val
    rw [stepped.med (by decide), stepped.regs (by decide), stepped.media (by decide)] at effect
    exact ⟨_, outcome_access _ served, mediaPush_same _ (.refl _) rfl, effect⟩
  · obtain ⟨frame, queue, taken, rejected⟩ := mediaStart_effect front idle
    refine ⟨_, congrArg Host.Outcome.next (if_pos (by simp [go, idle])), frame, queue, ?_⟩
    cases check : mCheck s n.val d with
    | none => exact taken check
    | some st => exact rejected st check
  · obtain ⟨memory, med⟩ := mediaOutput_effect d vals ha more go
    refine ⟨mediaOutput n.val d vals s, ?_, memory, by rw [med], by rw [med]; exact job⟩
    refine congrArg Host.Outcome.next ?_
    simp only [job, runs, if_true]
  · refine ⟨mediaComplete n.val d how s, ?_, mediaComplete_effect d how go hr⟩
    refine congrArg Host.Outcome.next ?_
    simp only [job, runs, if_true]
  · have stepped := s.reqStepped_frame r
    refine ⟨_, outcome_readAccess _ _ served, popMedia_same _ (.refl _) rfl, ?_⟩
    unfold popMedia
    rw [stepped.med (by decide)]
    cases cpl : (s.med n.val).cpl with
    | nil => exact ⟨rfl, stepped.media (by decide)⟩
    | cons x rest =>
      obtain ⟨x, f⟩ := x
      refine ⟨rfl, ?_, ?_⟩
      · dsimp only
        generalize hu : (s.reqStepped r).updMed n.val (fun M => { M with cpl := rest }) = u
        have popped : (u.med n.val).cpl = rest := by rw [← hu, State.med_updMed_same]
        exact popped
      · exact State.caps_capture _ _ _

end Media
end Sys2Proof.Machine
end

section
/-!
Governors: sensors (R525, R526), the control loop (R527 to R535), power (R536 to R541) and P-states (R544, R545).
-/
namespace Sys2Proof.Machine

section Governors
variable {s : State}

/-! ### Sensors (R525, R526) -/

theorem SameBut.sensor {w : List Fld} {t : State} (h : SameBut w s t) (hw : Fld.sensors ∉ w) (j : Nat) : t.sensor j = s.sensor j := by
  unfold State.sensor
  rw [h.sensors hw]

theorem Sensor.not_ok_of_cause {x : Sensor} (h : x.cause ≠ 0) : x.ok = false := by
  unfold Sensor.ok
  rw [beq_eq_false_iff_ne.2 h, Bool.and_false, Bool.false_and]

/-- R525: a sample outside the range marks the sensor. -/
theorem Sensor.sample_bad (x : Sensor) (die i raw : Nat) {t : Int} (h : t < -640 ∨ 2400 < t) : (x.sample die i raw t).ok = false := by
  refine Sensor.not_ok_of_cause ?_
  have bad : (decide (t < -640) || decide (2400 < t)) = true := by simpa using h
  unfold Sensor.sample
  dsimp only
  rw [bad]
  split
  · decide
  next marked => exact fun free => marked ⟨rfl, free⟩

/-- R526: a stuck sensor is marked. -/
theorem Sensor.check_stuck (x : Sensor) (h : 100000 ≤ x.same) : x.check.ok = false := by
  refine Sensor.not_ok_of_cause ?_
  unfold Sensor.check
  dsimp only
  rw [decide_eq_true h]
  by_cases marked : x.cause = 0 <;> simp [marked]

theorem sensorSample_sensor (s : State) (die i raw : Nat) (t : Int) (j : Nat) :
    (sensorSample die i raw t s).sensor j = (s.updSensor (sensKey die i) fun x => x.sample die i raw t).sensor j := by
  unfold sensorSample
  dsimp only
  generalize s.updSensor (sensKey die i) (fun x => x.sample die i raw t) = u
  have ignored : SameBut [.regs, .errs, .cores, .wire] u (u.sensorIgnored die i (s.sensor (sensKey die i)).ok) :=
    State.sensorIgnored_same _ _ _ (.refl u) rfl
  generalize u.sensorIgnored die i (s.sensor (sensKey die i)).ok = v at *
  have alerted : SameBut [.regs, .errs, .cores, .cnts, .wire] v
      (if die = 16 ∧ iodHot v = true then (if iodHot s = true then v else v.report none 0x16 3 16 0 0x10).alert 7 else v) :=
    SameBut.ite (State.alert_same _ (SameBut.ite (.refl v) (State.report_same _ _ _ _ _ _ (.refl v) rfl)) rfl) (.refl v)
  exact (alerted.sensor (by decide) j).trans (ignored.sensor (by decide) j)

/-! ### The control loop (R527 to R535) -/

/-- What the readings of a stack are taken from. -/
def ReadsKept (st : Nat) (s t : State) : Prop :=
  (∀ j, t.sensor j = s.sensor j) ∧ (t.stk st).pairLost = (s.stk st).pairLost ∧ (t.stk st).logicLost = (s.stk st).logicLost ∧
    (t.stk st).sensHalt = (s.stk st).sensHalt ∧ t.fld (govReg st 0x050) 0 4 = s.fld (govReg st 0x050) 0 4

theorem ReadsKept.refl (st : Nat) (s : State) : ReadsKept st s s := ⟨fun _ => rfl, rfl, rfl, rfl, rfl⟩

theorem ReadsKept.trans {st : Nat} {t u : State} (h : ReadsKept st s t) (h' : ReadsKept st t u) : ReadsKept st s u := by
  obtain ⟨sensors, pair, logic, halt, offset⟩ := h
  obtain ⟨sensors', pair', logic', halt', offset'⟩ := h'
  exact ⟨fun j => (sensors' j).trans (sensors j), pair'.trans pair, logic'.trans logic, halt'.trans halt, offset'.trans offset⟩

/-- Registers other than the offset's change, and nothing of sensors and stacks. -/
theorem ReadsKept.of_regs {P : Nat → Prop} {st : Nat} {t : State} {w : List Fld} (h : RegsBut P s t) (hP : ¬ P (govReg st 0x050))
    (frame : SameBut w s t) (hw : Fld.sensors ∉ w) (hw' : Fld.stks ∉ w) : ReadsKept st s t := by
  unfold ReadsKept
  rw [frame.stk hw']
  exact ⟨frame.sensor hw, rfl, rfl, rfl, h.fld hP 0 4⟩

theorem ReadsKept.upd {st : Nat} {f : Stack → Stack}
    (hf : ∀ T, (f T).pairLost = T.pairLost ∧ (f T).logicLost = T.logicLost ∧ (f T).sensHalt = T.sensHalt) :
    ReadsKept st s (s.updStk st f) := by
  obtain ⟨pair, logic, halt⟩ := hf (s.stk st)
  unfold ReadsKept
  rw [State.stk_updStk_same]
  exact ⟨fun _ => rfl, pair, logic, halt, rfl⟩

theorem hottest_of_kept {st : Nat} {t : State} (h : ReadsKept st s t) (is : List Nat) : hottest t st is = hottest s st is := by
  unfold hottest
  simp only [h.1]

theorem logicReading_of_kept {st : Nat} {t : State} (h : ReadsKept st s t) : logicReading t st = logicReading s st := by
  have pairs : pairReading t st = pairReading s st := by
    unfold pairReading pairFill
    simp only [hottest_of_kept h, h.2.1, h.2.2.2.2]
  unfold logicReading
  rw [pairs, h.2.2.1, hottest_of_kept h]

/-- The registers of the band, and those of alerts. -/
def BandRegs (st a : Nat) : Prop := a = smReg st 0x040 ∨ AlertRegs a

theorem stackReg_not_alert {st p o : Nat} (hst : st < 16) (hp : p < 512) (ho : o < 4096) : ¬ AlertRegs (regAddr st p o) := by
  rintro (e | e | e | ⟨f, e⟩)
  · have := (regAddr_eq e ho (by decide)).1
    omega
  · have := (regAddr_eq e ho (by decide)).1
    omega
  · unfold cntPage at e
    simp only [show ¬ (594 < 512) by decide, show ¬ (594 < 576) by decide, show ¬ (594 < 592) by decide, show ¬ (594 = 592) by decide,
      show ¬ (594 = 593) by decide, if_false] at e
    have := (regAddr_eq e ho (by decide)).1
    omega
  · unfold errReg at e
    split at e
    · have := (regAddr_eq e ho (by decide)).1
      omega
    · have := (regAddr_eq e ho (by decide)).1
      omega

theorem govReg_not_band {st o : Nat} (hst : st < 16) (ho : o < 4096) : ¬ BandRegs st (govReg st o) := by
  rintro (e | e)
  · have := (regAddr_eq e ho (by decide)).1
    omega
  · exact stackReg_not_alert hst (by decide) ho e

theorem smReg_not_alert {st : Nat} (hst : st < 16) : ¬ AlertRegs (smReg st 0x040) := stackReg_not_alert hst (by decide) (by decide)

theorem nextBand_lt {b : Nat} (t : Int) (hb : b < 8) : nextBand b t < 8 := by
  have up : ((List.range 5).filter fun x => decide (bandLow x ≤ t)).foldl max 0 < 8 := by
    have bound : ∀ (l : List Nat) (m : Nat), m < 8 → (∀ x ∈ l, x < 8) → l.foldl max m < 8 := by
      intro l
      induction l with
      | nil => exact fun _ h _ => h
      | cons x l ih => exact fun m hm hl => ih (max m x) (max_lt hm (hl x List.mem_cons_self)) fun y hy => hl y (List.mem_cons_of_mem _ hy)
    refine bound _ _ (by decide) fun x hx => ?_
    have := List.mem_range.1 (List.mem_filter.1 hx).1
    omega
  unfold nextBand
  dsimp only
  split
  · exact up
  · split <;> omega

/-- R233: the band is the new one; the readings' sources stay. -/
theorem State.setBand_effect (s : State) {st b : Nat} (hst : st < 16) (hb : b < 8) :
    (s.setBand st b).fld (smReg st 0x040) 0 3 = b ∧ ReadsKept st s (s.setBand st b) := by
  unfold State.setBand
  dsimp only
  split
  next same => exact ⟨same, .refl st s⟩
  next other =>
    generalize hu : State.setBit _ (smReg st 0x040) 19 = u
    have band : u.fld (smReg st 0x040) 0 3 = b := by
      rw [← hu]
      unfold State.setBit
      rw [State.fld_setFld_ne _ _ _ (by decide) (by decide), State.fld_setFld_ne _ _ _ (by decide) (by decide),
        State.fld_setFld_same _ _ _ (by decide)]
      exact Nat.mod_eq_of_lt hb
    have regs : RegsBut (BandRegs st) s u := hu ▸ (((RegsBut.refl s).setFld (.inl rfl)).setFld (.inl rfl)).setBit (.inl rfl)
    have frame : SameBut [.regs] s u :=
      hu ▸ State.setBit_same _ _ (State.setFld_same _ _ _ _ (State.setFld_same _ _ _ _ (.refl s) rfl) rfl) rfl
    have first : ReadsKept st s u := .of_regs regs (govReg_not_band hst (by decide)) frame (by decide) (by decide)
    generalize hv : u.updStk st _ = v
    have second : ReadsKept st u v := hv ▸ ReadsKept.upd (by intro T; exact ⟨rfl, rfl, rfl⟩)
    have noted : SameBut [.stks] u v := hv ▸ State.updStk_same _ _ (.refl u) rfl
    have reported : SameBut [.regs, .errs, .cores, .wire] v (v.report none 0x14 3 st 0 (thermAddr st 0)) :=
      State.report_same _ _ _ _ _ _ (.refl v) rfl
    have alerts : RegsBut AlertRegs v (if b = 4 then (v.report none 0x14 3 st 0 (thermAddr st 0)).alert 3 else v) :=
      .ite (((RegsBut.refl v).alertReport fun _ => id).alert fun _ => id) (.refl v)
    have alertFrame : SameBut [.regs, .errs, .cores, .cnts, .wire] v (if b = 4 then (v.report none 0x14 3 st 0 (thermAddr st 0)).alert 3 else v) :=
      SameBut.ite (State.alert_same _ (reported.mono rfl) rfl) (.refl v)
    refine ⟨?_, first.trans (second.trans (.of_regs alerts (stackReg_not_alert hst (by decide) (by decide)) alertFrame (by decide) (by decide)))⟩
    rw [alerts.fld (smReg_not_alert hst), noted.fld (by decide), band]

/-- R528: the stack is halted for its sensors while no band sensor is valid. -/
theorem State.sensorsLost_halt (s : State) (st : Nat) :
    ((s.sensorsLost st).stk st).sensHalt = ((s.sensorsLost st).stk st).bandLost.isSome := by
  unfold State.sensorsLost
  dsimp only
  generalize hu : s.updStk st _ = u
  have halt : (u.stk st).sensHalt = (u.stk st).bandLost.isSome := by rw [← hu, State.stk_updStk_same]
  have alerted : SameBut [.regs, .cores, .cnts, .wire] u (if ((u.stk st).pairLost.isSome || (u.stk st).logicLost.isSome) = true then u.alert 4 else u) :=
    SameBut.ite (State.alert_same _ (.refl u) rfl) (.refl u)
  rw [alerted.stk (by decide), halt]

/-- R527: the pair check counts, and leaves the measures of lost sensors. -/
theorem State.pairCheck_stk (s : State) (st : Nat) :
    ∃ n, (s.pairCheck st).stk st = { s.stk st with pairCnt := n } := by
  unfold State.pairCheck
  dsimp only
  have counted : ∀ n, (s.updStk st fun T => { T with pairCnt := n }).stk st = { s.stk st with pairCnt := n } := fun n =>
    State.stk_updStk_same _ _ _
  split
  · split
    · exact ⟨0, counted 0⟩
    · split
      · refine ⟨0, Eq.trans (SameBut.stk (w := [.regs]) ?_ (by decide) st) (counted 0)⟩
        exact State.clrBit_same _ _ (.refl (s.updStk st fun T => { T with pairCnt := 0 })) rfl
      · exact ⟨_, counted _⟩
  · split
    · exact ⟨0, counted 0⟩
    · split
      · exact ⟨_, counted _⟩
      · refine ⟨0, Eq.trans (SameBut.stk (w := [.regs, .errs, .cores, .wire]) ?_ (by decide) st) (counted 0)⟩
        exact State.report_same _ _ _ _ _ _
          (State.setBit_same _ _ (State.setBit_same _ _ (.refl (s.updStk st fun T => { T with pairCnt := 0 })) rfl) rfl) rfl

theorem sensHalt_of_lost (s : State) (st : Nat) :
    (((s.sensorsLost st).pairCheck st).stk st).sensHalt = (((s.sensorsLost st).pairCheck st).stk st).bandLost.isSome := by
  obtain ⟨n, stk⟩ := (s.sensorsLost st).pairCheck_stk st
  rw [stk]
  exact s.sensorsLost_halt st

/-- R530: the temperature that decided is noted. -/
def State.noteTemp (s : State) (st : Nat) (t : Option Int) : State :=
  match t with
  | some x => (s.setFld (smReg st 0x040) 8 8 (wrapInt 8 (x / 16))).updStk st fun T =>
      { T with temp := some x, tempSum := T.tempSum + x, tempCnt := T.tempCnt + 1 }
  | none => s.updStk st fun T => { T with temp := none }

theorem State.noteTemp_effect (s : State) {st : Nat} (t : Option Int) (hst : st < 16) :
    (s.noteTemp st t).fld (smReg st 0x040) 0 3 = s.fld (smReg st 0x040) 0 3 ∧ ((s.noteTemp st t).stk st).temp = t ∧
      ReadsKept st s (s.noteTemp st t) := by
  cases t with
  | none => exact ⟨rfl, by unfold State.noteTemp; rw [State.stk_updStk_same], ReadsKept.upd (by intro T; exact ⟨rfl, rfl, rfl⟩)⟩
  | some x =>
    unfold State.noteTemp
    dsimp only
    generalize hu : s.setFld (smReg st 0x040) 8 8 (wrapInt 8 (x / 16)) = u
    have regs : RegsBut (BandRegs st) s u := hu ▸ (RegsBut.refl s).setFld (.inl rfl)
    have frame : SameBut [.regs] s u := hu ▸ State.setFld_same _ _ _ _ (.refl s) rfl
    refine ⟨?_, by rw [State.stk_updStk_same], (ReadsKept.of_regs regs (govReg_not_band hst (by decide)) frame (by decide) (by decide)).trans
      (ReadsKept.upd (by intro T; exact ⟨rfl, rfl, rfl⟩))⟩
    have noted : ∀ f, SameBut [.stks] u (u.updStk st f) := fun f => State.updStk_same _ _ (.refl u) rfl
    rw [(noted _).fld (by decide), ← hu, State.fld_setFld_ne _ _ _ (by decide) (by decide)]

/-- R528, R530: the band that a loop finds. -/
def loopBand (s : State) (st : Nat) : Nat :=
  if (s.stk st).bandLost.isSome then 4
  else match deciding s st with | some x => nextBand (s.fld (smReg st 0x040) 0 3) x | none => 4

theorem loopBand_lt (s : State) (st : Nat) : loopBand s st < 8 := by
  unfold loopBand
  split
  · decide
  · split
    · exact nextBand_lt _ (s.fld_lt _ 0 3)
    · decide

/-- R535: the thermal level is set. -/
def State.setTLevel (s : State) (st n : Nat) : State := s.updStk st fun T => { T with tLevel := n }

theorem thermalLoop_eq (s : State) (st : Nat) {s1 : State} (h : s1 = (s.sensorsLost st).pairCheck st) :
    thermalLoop st s = ((s1.setBand st (loopBand s1 st)).noteTemp st (deciding s1 st)).setTLevel st
      (thermalLevel (loopBand s1 st) (logicReading ((s1.setBand st (loopBand s1 st)).noteTemp st (deciding s1 st)) st)) := by
  subst h
  rfl

/-- R530, R535: band, temperature and level as the loop leaves them. -/
theorem thermalLoop_effect (s : State) {st : Nat} (hst : st < 16) {s1 : State} (h : s1 = (s.sensorsLost st).pairCheck st) :
    (thermalLoop st s).fld (smReg st 0x040) 0 3 = loopBand s1 st ∧ ((thermalLoop st s).stk st).temp = deciding s1 st ∧
      ((thermalLoop st s).stk st).tLevel = thermalLevel (loopBand s1 st) (logicReading s1 st) ∧
      ((thermalLoop st s).stk st).sensHalt = (s1.stk st).sensHalt := by
  rw [thermalLoop_eq s st h]
  obtain ⟨band, kept⟩ := s1.setBand_effect hst (loopBand_lt s1 st)
  generalize s1.setBand st (loopBand s1 st) = u at *
  obtain ⟨band', temp, kept'⟩ := u.noteTemp_effect (deciding s1 st) hst
  generalize u.noteTemp st (deciding s1 st) = v at *
  have all := kept.trans kept'
  unfold State.setTLevel
  rw [State.stk_updStk_same]
  refine ⟨band'.trans band, temp, ?_, all.2.2.2.1⟩
  dsimp only
  rw [logicReading_of_kept all]

/-! ### Power (R536, R539) -/

/-- The registers in which a stack's counters overflow. -/
theorem RegsBut.countGov {st : Nat} : RegsBut (fun a => a = cntPage (576 + st) 0x044) s (s.countGov st) :=
  have first := RegsBut.ite (c := govLevel s st = 0) (.refl s) ((RegsBut.refl s).count (P := fun a => a = cntPage (576 + st) 0x044) rfl)
  have second := RegsBut.ite (c := 0 < (s.stk st).tLevel ∧ (s.stk st).pLevel ≤ (s.stk st).tLevel) (first.count rfl) first
  RegsBut.ite (second.count rfl) second

theorem govReg_ne_cntPage {st o : Nat} (hst : st < 16) (ho : o < 4096) : govReg st o ≠ cntPage (576 + st) 0x044 := by
  unfold cntPage
  rw [if_neg (by omega), if_neg (by omega), if_pos (by omega)]
  intro e
  have := (regAddr_eq e ho (by decide)).1
  omega

/-- The estimate joins the last millisecond's. -/
def notePower (T : Stack) (mw : Nat) : Stack :=
  { T with power := (mw :: T.power).take 100, powSum := T.powSum + mw, powCnt := T.powCnt + 1 }

/-- R539: the power level and the note of R539 after an estimate. -/
def State.setPLevel (s : State) (st n : Nat) (near : Bool) : State := s.updStk st fun T => { T with pLevel := n, above92 := T.above92 || near }

/-- R544: the level joins the sums of the P-state decision. -/
def State.sumLevel (s : State) (st : Nat) : State :=
  s.updStk st fun T => { T with lvlSum := T.lvlSum + T.pLevel, lvlCnt := T.lvlCnt + 1, zeroCnt := if T.pLevel = 0 then T.zeroCnt + 1 else 0 }

theorem powerEstimate_eq (s : State) (st mw : Nat) :
    powerEstimate st mw s =
      ((((s.updStk st fun T => notePower T mw).setFld (govReg st 0x048) 16 8
        (min 255 (powerMean ((s.updStk st fun T => notePower T mw).stk st) / 1000))).setPLevel st
          (nextPLevel (s.updStk st fun T => notePower T mw) st)
          (decide (92 * capMw (s.updStk st fun T => notePower T mw) st ≤ 100 * powerMean ((s.updStk st fun T => notePower T mw).stk st)))).sumLevel
            st).countGov st := rfl

theorem nextPLevel_note (s : State) {st mw m : Nat} (timed : timedMode s st = false) (hm : m = powerMean (notePower (s.stk st) mw)) :
    nextPLevel (s.updStk st fun T => notePower T mw) st =
      if 97 * capMw s st < 100 * m then min 15 ((s.stk st).pLevel + 1) else (s.stk st).pLevel := by
  have cap : capMw (s.updStk st fun T => notePower T mw) st = capMw s st := by
    unfold capMw effCap
    rw [State.stk_updStk_same]
    rfl
  have mode : timedMode (s.updStk st fun T => notePower T mw) st = false := timed
  unfold nextPLevel
  rw [mode, if_neg (by decide), cap, State.stk_updStk_same, hm]
  rfl

/-- R536, R539: the mean shows, and the level follows the cap. -/
theorem powerEstimate_effect (s : State) {st mw m : Nat} (hst : st < 16) (hm : m = powerMean (notePower (s.stk st) mw)) :
    (powerEstimate st mw s).fld (govReg st 0x048) 16 8 = min 255 (m / 1000) ∧
      (timedMode s st = false → ((powerEstimate st mw s).stk st).pLevel =
        if 97 * capMw s st < 100 * m then min 15 ((s.stk st).pLevel + 1) else (s.stk st).pLevel) := by
  have level := fun timed => nextPLevel_note s (st := st) (mw := mw) timed hm
  have mean : powerMean ((s.updStk st fun T => notePower T mw).stk st) = m := by rw [State.stk_updStk_same, hm]
  rw [powerEstimate_eq, mean]
  generalize s.updStk st (fun T => notePower T mw) = u at *
  generalize hv : u.setFld (govReg st 0x048) 16 8 (min 255 (m / 1000)) = v
  have shown : v.fld (govReg st 0x048) 16 8 = min 255 (m / 1000) := by
    rw [← hv, State.fld_setFld_same _ _ _ (by decide)]
    omega
  generalize decide (92 * capMw u st ≤ 100 * m) = near
  generalize hw : (v.setPLevel st (nextPLevel u st) near).sumLevel st = w
  have noted : SameBut [.stks] v w := hw ▸ State.updStk_same _ _ (State.updStk_same _ _ (.refl v) rfl) rfl
  have set : (w.stk st).pLevel = nextPLevel u st := by
    rw [← hw]
    unfold State.sumLevel State.setPLevel
    rw [State.stk_updStk_same, State.stk_updStk_same]
  have counted : SameBut [.regs, .cnts] w (w.countGov st) := State.countGov_same _ (.refl w) rfl
  refine ⟨?_, fun timed => ?_⟩
  · rw [RegsBut.countGov.fld (govReg_ne_cntPage hst (by decide)), noted.fld (by decide), shown]
  · rw [counted.stk (by decide), set, level timed]

/-! ### P-states (R29, R544, R545) -/

theorem State.requestVdd_stk (s : State) (st mv : Nat) : (s.requestVdd st mv).stk st = { s.stk st with vdd := mv } :=
  (SameBut.stk (w := [.wire]) (State.send_same _ (.refl _) rfl) (by decide) st).trans (s.stk_updStk_same st fun T => { T with vdd := mv })

theorem State.sendStep_ack (s : State) (st mv : Nat) : s.sendStep st mv true = s.requestVdd st (nextMv (s.stk st).vdd mv) := rfl

theorem State.sendStep_ack_stk (s : State) (st mv : Nat) : (s.sendStep st mv true).stk st = { s.stk st with vdd := nextMv (s.stk st).vdd mv } := by
  rw [State.sendStep_ack, State.requestVdd_stk]

/-- R545: a change begins with a step up, or with the hold for the clock. -/
theorem State.changePstate_stk (s : State) (st p : Nat) :
    (s.changePstate st p true).stk st =
      if p = pstateOf s st then s.stk st
      else if p < pstateOf s st ∧ (s.stk st).vdd < pstateMv p then
        { s.stk st with change := some { target := p, raising := true, hold := false }, vdd := nextMv (s.stk st).vdd (pstateMv p) }
      else { s.stk st with change := some { target := p, raising := decide (p < pstateOf s st), hold := true } } := by
  unfold State.changePstate
  split
  · rfl
  · split
    · rw [State.sendStep_ack_stk, State.stk_updStk_same]
    · rw [State.stk_updStk_same]

/-- R29: the regulator that does not acknowledge is noted, in the package's status and as an alert. -/
theorem State.pmbFault_effect (s : State) (st : Nat) :
    ((s.pmbFault st).stk st).pmbBad = true ∧ (s.pmbFault st).bit (pkgReg 0x044) 5 = true ∧ (s.pmbFault st).bit (thmReg 0x040) 10 = true := by
  unfold State.pmbFault
  dsimp only
  generalize hu : s.updStk st _ = u
  have bad : (u.stk st).pmbBad = true := by rw [← hu, State.stk_updStk_same]
  have set : SameBut [.regs] u (u.setBit (pkgReg 0x044) 5) := State.setBit_same _ _ (.refl u) rfl
  have status := u.bit_setBit_same (pkgReg 0x044) (i := 5) (by decide)
  generalize u.setBit (pkgReg 0x044) 5 = v at *
  obtain ⟨cause, -, package⟩ := v.alert_bits (i := 10) (by decide)
  have alerted : SameBut [.regs, .cores, .cnts, .wire] v (v.alert 10) := State.alert_same _ (.refl v) rfl
  refine ⟨?_, (package 5 (by decide)).trans status, cause⟩
  rw [alerted.stk (by decide), set.stk (by decide), bad]

theorem stepSettled_eq {st : Nat} {ack : Bool} {c : PChange} (change : (s.stk st).change = some c) (hold : c.hold = false) :
    stepSettled st ack s = if (s.stk st).vdd ≠ pstateMv c.target then s.sendStep st (pstateMv c.target) ack
      else if c.raising then s.updStk st fun T => { T with change := some { c with hold := true } }
      else s.updStk st fun T => { T with change := none } := by
  unfold stepSettled
  rw [change]
  dsimp only
  rw [hold, if_neg (by decide)]

/-- R545: the next step goes out, or the clock may switch, or the change is over. -/
theorem stepSettled_effect {st : Nat} {c : PChange} (change : (s.stk st).change = some c) (hold : c.hold = false) :
    SameBut [.stks, .wire] s (stepSettled st true s) ∧
      ((s.stk st).vdd ≠ pstateMv c.target → ((stepSettled st true s).stk st).vdd = nextMv (s.stk st).vdd (pstateMv c.target) ∧
        ((stepSettled st true s).stk st).change = some c) ∧
      ((s.stk st).vdd = pstateMv c.target → ((stepSettled st true s).stk st).change = if c.raising then some { c with hold := true } else none) := by
  rw [stepSettled_eq change hold]
  by_cases there : (s.stk st).vdd = pstateMv c.target
  · rw [if_neg (not_not.2 there)]
    refine ⟨SameBut.ite (State.updStk_same _ _ (.refl s) rfl) (State.updStk_same _ _ (.refl s) rfl), fun away => absurd there away, fun _ => ?_⟩
    split
    · rw [State.stk_updStk_same]
    · rw [State.stk_updStk_same]
  · rw [if_pos there, State.sendStep_ack]
    refine ⟨State.requestVdd_same _ _ (.refl s) rfl, fun _ => ?_, fun arrived => absurd arrived there⟩
    rw [State.requestVdd_stk]
    exact ⟨rfl, change⟩

theorem clockSwitch_eq {st : Nat} {ack : Bool} {c : PChange} (change : (s.stk st).change = some c) (hold : c.hold = true) :
    clockSwitch st ack s =
      if (!c.raising) = true ∧ (!(s.stk st).pmbBad) = true ∧ (s.stk st).vdd ≠ pstateMv c.target then
        ((((s.setFld (govReg st 0x048) 4 3 c.target).count (576 + st) 21 1).updStk st fun T =>
          { T with change := some { c with hold := false } }).sendStep st (pstateMv c.target) ack)
      else ((s.setFld (govReg st 0x048) 4 3 c.target).count (576 + st) 21 1).updStk st fun T => { T with change := none } := by
  unfold clockSwitch
  rw [change]
  dsimp only
  rw [hold, if_neg (by decide)]

/-- R545: the clock is the target's; a change upwards is over. -/
theorem clockSwitch_effect {st : Nat} {c : PChange} (hst : st < 16) (change : (s.stk st).change = some c) (hold : c.hold = true)
    (target : c.target < 8) :
    SameBut [.stks, .regs, .cnts, .wire] s (clockSwitch st true s) ∧ pstateOf (clockSwitch st true s) st = c.target ∧
      (c.raising = true → ((clockSwitch st true s).stk st).change = none) := by
  rw [clockSwitch_eq change hold]
  generalize hu : (s.setFld (govReg st 0x048) 4 3 c.target).count (576 + st) 21 1 = u
  have frame : SameBut [.regs, .cnts] s u := hu ▸ State.count_same _ _ _ (State.setFld_same _ _ _ _ (.refl s) rfl) rfl
  have clock : u.fld (govReg st 0x048) 4 3 = c.target := by
    have counted := (RegsBut.refl (s.setFld (govReg st 0x048) 4 3 c.target)).count (P := fun a => a = cntPage (576 + st) 0x044) (k := 576 + st)
      (i := 21) (n := 1) rfl
    rw [← hu, counted.fld (govReg_ne_cntPage hst (by decide)), State.fld_setFld_same _ _ _ (by decide)]
    exact Nat.mod_eq_of_lt target
  unfold pstateOf
  split
  next down =>
    have steps : SameBut [.stks, .wire] u ((u.updStk st fun T => { T with change := some { c with hold := false } }).sendStep st
        (pstateMv c.target) true) := State.requestVdd_same _ _ (State.updStk_same _ _ (.refl u) rfl) rfl
    refine ⟨(frame.mono rfl).trans (steps.mono rfl), (steps.fld (by decide) ..).trans clock, fun raising => absurd down.1 (by simp [raising])⟩
  next done =>
    have ends : SameBut [.stks] u (u.updStk st fun T => { T with change := none }) := State.updStk_same _ _ (.refl u) rfl
    refine ⟨(frame.mono rfl).trans (ends.mono rfl), (ends.fld (by decide) ..).trans clock, fun _ => ?_⟩
    rw [State.stk_updStk_same]

/-- Settles O53: each command through the effect of its step on the stack. -/
theorem governorsControlTheirStacks : Obligations.GovernorsControlTheirStacks := by
  unfold Obligations.GovernorsControlTheirStacks
  refine fun s st => ⟨fun die i raw x live => ?_, fun i live => ?_, fun up => ⟨fun s1 hs1 => ?_, fun mw m hm => ?_, fun timed => ?_,
    fun p t timed turn free => ?_, fun idle p hp => ?_, fun c change hold => ?_, fun c change hold target empty => ?_,
    fun c change hold away => ?_⟩⟩
  · have body : exec (.sensorSample die i raw x) s = .next (sensorSample die.val i.val raw.toNat x.toInt s) := congrArg Host.Outcome.next (if_pos live)
    have mark : (sensorSample die.val i.val raw.toNat x.toInt s).sensor (sensKey die.val i.val) =
        (s.sensor (sensKey die.val i.val)).sample die.val i.val raw.toNat x.toInt := by
      rw [sensorSample_sensor, State.sensor_updSensor_same]
    refine ⟨_, body, sensorSample_same _ _ _ _ (.refl s) rfl, mark, fun bad => ?_, fun j hj => ?_⟩
    · rw [mark, Sensor.sample_bad _ _ _ _ bad]
    · rw [sensorSample_sensor, State.sensor_updSensor, if_neg hj]
  · generalize hu : s.updSensor (sensKey st.val i.val) Sensor.check = u
    have ignored : SameBut [.regs, .errs, .cores, .wire] u (u.sensorIgnored st.val i.val (s.sensor (sensKey st.val i.val)).ok) :=
      State.sensorIgnored_same _ _ _ (.refl u) rfl
    have checked : (u.sensorIgnored st.val i.val (s.sensor (sensKey st.val i.val)).ok).sensor (sensKey st.val i.val) =
        (s.sensor (sensKey st.val i.val)).check := by
      rw [ignored.sensor (by decide), ← hu, State.sensor_updSensor_same]
    refine ⟨_, congrArg Host.Outcome.next ((if_pos live).trans (by rw [hu])), ?_, checked, fun stuck => ?_⟩
    · exact SameBut.trans (hu ▸ State.updSensor_same _ _ (.refl s) rfl) (ignored.mono rfl)
    · rw [checked, Sensor.check_stuck _ stuck]
  · obtain ⟨band, temp, level, halt⟩ := thermalLoop_effect s st.isLt hs1
    refine ⟨_, congrArg Host.Outcome.next (if_pos up), thermalLoop_same _ (.refl s) rfl, fun t b decides valid hb => ?_, fun lost => ?_⟩
    · have found : loopBand s1 st.val = b := by
        unfold loopBand
        rw [valid, decides, hb]
        rfl
      exact ⟨band.trans found, temp.trans decides, by rw [level, found]⟩
    · have isLost : (s1.stk st.val).bandLost.isSome = true := Option.isSome_iff_ne_none.2 lost
      have found : loopBand s1 st.val = 4 := if_pos isLost
      refine ⟨band.trans found, halt.trans ?_⟩
      rw [hs1, sensHalt_of_lost, ← hs1, isLost]
  · exact ⟨_, congrArg Host.Outcome.next (if_pos up), powerEstimate_same _ _ (.refl s) rfl, powerEstimate_effect s st.isLt hm⟩
  · refine ⟨_, congrArg Host.Outcome.next (if_pos (by simp [up, timed])), State.updStk_same _ _ (.refl s) rfl, ?_⟩
    rw [State.stk_updStk_same]
    dsimp only
    simp only [Bool.and_eq_true, Bool.not_eq_true', decide_eq_true_eq]
  · refine ⟨_, congrArg Host.Outcome.next (if_pos ?_), ?_⟩
    · simpa [up, timed, turn] using free
    generalize hu : s.updStk st.val _ = u
    have taken : SameBut [.stks] s u := hu ▸ State.updStk_same _ _ (.refl s) rfl
    have stk : (u.stk st.val).permitAt = t ∧ (u.stk st.val).rrPtr = (p.val + 1) % 32 := by
      rw [← hu, State.stk_updStk_same]
      exact ⟨rfl, rfl⟩
    have given : ∀ f, SameBut [.plots] u (u.updArr (32 * st.val + p.val) f) := fun f => State.updArr_same _ _ (.refl u) rfl
    rw [(given _).stk (by decide)]
    exact ⟨(taken.mono rfl).trans ((given _).mono rfl), by simp, stk⟩
  · have body : exec (.pstateDecision st true) s = .next ((s.updStk st.val fun T => { T with
        lvlSum := 0, lvlCnt := 0, zeroCnt := if p < pstateOf s st.val then 0 else T.zeroCnt }).changePstate st.val p true) := by
      rw [hp]
      exact congrArg Host.Outcome.next (if_pos (by simp [up, idle]))
    generalize hu : s.updStk st.val _ = u at body
    have noted : SameBut [.stks] s u := hu ▸ State.updStk_same _ _ (.refl s) rfl
    have state : pstateOf u st.val = pstateOf s st.val := noted.fld (by decide) ..
    have change : (u.stk st.val).change = none := by rw [← hu, State.stk_updStk_same, idle]
    have volts : (u.stk st.val).vdd = (s.stk st.val).vdd := by rw [← hu, State.stk_updStk_same]
    have stk := u.changePstate_stk st.val p
    rw [state, volts] at stk
    refine ⟨_, body, State.changePstate_same _ _ _ (noted.mono rfl) rfl, fun same => ?_, fun below low => ?_, fun above => ?_⟩
    · rw [stk, if_pos same, change]
    · rw [stk, if_neg (by omega), if_pos ⟨below, low⟩]
      exact ⟨rfl, rfl⟩
    · rw [stk, if_neg (by omega), if_neg (fun h => absurd h.1 (by omega))]
      exact ⟨volts, by simp [Nat.le_of_lt above]⟩
  · exact ⟨_, congrArg Host.Outcome.next (if_pos up), stepSettled_effect change hold⟩
  · exact ⟨_, congrArg Host.Outcome.next (if_pos (by simp [up, empty])), clockSwitch_effect st.isLt change hold target⟩
  · have body : exec (.voutStepSettled st false) s = .next
        ((s.requestVdd st.val (nextMv (s.stk st.val).vdd (pstateMv c.target))).pmbFault st.val) :=
      congrArg Host.Outcome.next ((if_pos up).trans ((stepSettled_eq change hold).trans (if_pos away)))
    exact ⟨_, body, State.pmbFault_effect _ _⟩

end Governors
end Sys2Proof.Machine
end

section
/-!
The tollhouse (R557 to R581): channels and milliseconds, the record of a second, summaries, mailboxes and calibration.
-/
namespace Sys2Proof.Machine

section Tollhouse
variable {s : State}

/-! ### Byte strings (R7) -/

theorem leVal_leBytes (n v : Nat) : leVal (leBytes n v) = v % 256 ^ n := by
  induction n generalizing v with
  | zero =>
    rw [pow_zero, Nat.mod_one]
    rfl
  | succ n ih =>
    rw [leBytes, leVal, ih, pow_succ', Nat.mod_mul, BitVec.toNat_ofNat]

/-- The bytes at the front of a string. -/
theorem slice_append_left (l r : List Byte) : slice (l ++ r) 0 l.length = l := by
  refine List.ext_getElem (by simp) fun j h _ => ?_
  have inside : j < l.length := by simpa using h
  simp [slice, nth, List.getElem?_append_left inside, inside]

theorem leAt_leBytes (n v : Nat) (r : List Byte) : leAt (leBytes n v ++ r) 0 n = v % 256 ^ n := by
  have front := slice_append_left (leBytes n v) r
  rw [length_leBytes] at front
  unfold leAt
  rw [front, leVal_leBytes]

theorem length_freeBytes (s : State) (n : Nat) : (s.freeBytes n).2.length = n := by
  induction n generalizing s with
  | zero => rfl
  | succ n ih => exact congrArg Nat.succ (ih _)

theorem length_flatMap_const {α : Type} (l : List α) {n : Nat} {f : α → List Byte} (h : ∀ x, (f x).length = n) :
    (l.flatMap f).length = l.length * n := by
  induction l with
  | nil => simp
  | cons x l ih =>
    rw [List.flatMap_cons, List.length_append, ih, h, List.length_cons]
    ring

/-! ### Channels and milliseconds (R560 to R566) -/

theorem tget_foldl_update {α : Type} [DecidableEq α] (d : α) (f : Nat → α → α) {l : List Nat} (nodup : l.Nodup) (t : Tbl α) {c : Nat} (h : c ∈ l) :
    tget d (l.foldl (fun t c => tput d t c (f c (tget d t c))) t) c = f c (tget d t c) := by
  have out : ∀ (l : List Nat) (t : Tbl α), c ∉ l → tget d (l.foldl (fun t c => tput d t c (f c (tget d t c))) t) c = tget d t c := by
    intro l
    induction l with
    | nil => exact fun _ _ => rfl
    | cons x l ih =>
      intro t hc
      rw [List.foldl_cons, ih _ fun h => hc (List.mem_cons_of_mem _ h), tget_tput_ne _ _ _ fun e => hc (List.mem_cons.2 (.inl e))]
  induction l generalizing t with
  | nil => exact absurd h (by simp)
  | cons x l ih =>
    obtain ⟨fresh, rest⟩ := List.nodup_cons.1 nodup
    rw [List.foldl_cons]
    rcases List.mem_cons.1 h with rfl | inTail
    · rw [out l _ fresh, tget_tput_same]
    · rw [ih rest _ inTail, tget_tput_ne _ _ _ fun (e : c = x) => fresh (e ▸ inTail)]

theorem tget_foldl_add (k : Nat) (e : Nat → Nat) (l : List Nat) (t : Tbl Nat) :
    tget 0 (l.foldl (fun t n => tput 0 t k (tget 0 t k + e n)) t) k = tget 0 t k + (l.map e).sum := by
  induction l generalizing t with
  | nil => rfl
  | cons x l ih =>
    rw [List.foldl_cons, ih, tget_tput_same, List.map_cons, List.sum_cons, Nat.add_assoc]

theorem nbit_eq_testBit (v i : Nat) : nbit v i = v.testBit i := by
  unfold nbit
  rw [Nat.testBit_eq_decide_div_mod_eq, beq_eq_decide]

theorem Toll.nbit_flag (T : Toll) {i : Nat} (h : i < 5) : nbit (T.flag i).flags.toNat i = true := by
  have power : 2 ^ i % 2 ^ 5 = 2 ^ i := Nat.mod_eq_of_lt (Nat.pow_lt_pow_right (by decide) h)
  unfold Toll.flag
  rw [nbit_eq_testBit, BitVec.toNat_or, Nat.testBit_or, BitVec.toNat_ofNat, power, Nat.testBit_two_pow_self, Bool.or_true]

/-- R560: a sample's power joins each channel. -/
theorem Toll.sample_effect (T : Toll) (power : List Nat) (sat : Bool) :
    (T.sample power sat).msOpen = true ∧ (∀ c < 18, tget 0 (T.sample power sat).acc c = tget 0 T.acc c + nth 0 power c) ∧
      (sat = true → nbit (T.sample power sat).flags.toNat 2 = true) ∧ (T.sample power sat).ring = T.ring := by
  have channel : ∀ c < 18, tget 0 ((List.range 18).foldl (fun t c => tput 0 t c (tget 0 t c + nth 0 power c)) T.acc) c =
      tget 0 T.acc c + nth 0 power c := fun c hc =>
    tget_foldl_update 0 (fun c x => x + nth 0 power c) List.nodup_range T.acc (List.mem_range.2 hc)
  unfold Toll.sample
  dsimp only
  split
  · exact ⟨rfl, channel, fun _ => Toll.nbit_flag _ (by decide), rfl⟩
  next plain => exact ⟨rfl, channel, fun h => absurd h plain, rfl⟩

/-- R563: no energy is lost when a millisecond closes. -/
theorem Toll.closeMs_channel (T : Toll) (f : Option FeedFrame) {c : Nat} (hc : c < 18) :
    100000 * tget 0 (T.closeMs f).sec c + tget 0 (T.closeMs f).acc c = 100000 * tget 0 T.sec c + tget 0 T.acc c ∧
      tget 0 (T.closeMs f).acc c < 100000 := by
  have sec : tget 0 (T.closeMs f).sec c = tget 0 T.sec c + T.msEnergy c :=
    tget_foldl_update 0 (fun c x => x + T.msEnergy c) List.nodup_range T.sec (List.mem_range.2 hc)
  have acc : tget 0 (T.closeMs f).acc c = tget 0 T.acc c % 100000 :=
    tget_foldl_update 0 (fun c _ => tget 0 T.acc c % 100000) List.nodup_range T.acc (List.mem_range.2 hc)
  rw [sec, acc]
  unfold Toll.msEnergy
  omega

theorem Toll.takeFrame_kept (T : Toll) (f : FeedFrame) :
    (T.takeFrame f).sec = T.sec ∧ (T.takeFrame f).acc = T.acc ∧ (T.takeFrame f).msOpen = T.msOpen ∧ (T.takeFrame f).frame = some f :=
  ⟨rfl, rfl, rfl, rfl⟩

theorem Toll.gap_kept (T : Toll) :
    T.gap.sec = (T.closeMs none).sec ∧ T.gap.acc = (T.closeMs none).acc ∧ T.gap.msOpen = false ∧ T.gap.frame = T.frame :=
  ⟨rfl, rfl, rfl, rfl⟩

/-- R566: without a frame the stacks' energy is nobody's. -/
theorem Toll.gap_unassigned (T : Toll) : tget 0 T.gap.acct 17 = tget 0 T.acct 17 + ((List.range 16).map fun n => T.msEnergy n).sum :=
  tget_foldl_add 17 (fun n => T.msEnergy n) (List.range 16) T.acct

theorem foldl_updStk {P : Stack → Prop} {f : Stack → Stack} (hf : ∀ T, P (f T)) (l : List Nat) {j : Nat} (h : P (s.stk j) ∨ j ∈ l) :
    P ((l.foldl (fun s st => s.updStk st f) s).stk j) := by
  induction l generalizing s with
  | nil => exact h.resolve_right (by simp)
  | cons st l ih =>
    rw [List.foldl_cons]
    refine ih ?_
    by_cases e : j = st
    · subst e
      exact .inl (by rw [State.stk_updStk_same]; exact hf _)
    · rcases h with h | h
      · exact .inl (by rw [State.stk_updStk, if_neg e]; exact h)
      · exact .inr (List.mem_of_ne_of_mem e h)

/-! ### Seconds and summaries (R567 to R570) -/

/-- The second goes on: its number, the records held and the seal stay. -/
def Toll.Ongoing (T U : Toll) : Prop :=
  U.seq = T.seq ∧ U.second = T.second ∧ U.ring = T.ring ∧ U.sram = T.sram ∧ U.sealCnt = T.sealCnt

theorem Toll.Ongoing.refl (T : Toll) : T.Ongoing T := ⟨rfl, rfl, rfl, rfl, rfl⟩

theorem Toll.Ongoing.trans {T U V : Toll} (h : T.Ongoing U) (h' : U.Ongoing V) : T.Ongoing V := by
  obtain ⟨a, b, c, d, e⟩ := h
  obtain ⟨a', b', c', d', e'⟩ := h'
  exact ⟨a'.trans a, b'.trans b, c'.trans c, d'.trans d, e'.trans e⟩

theorem Toll.find_of_ongoing {T U : Toll} (h : T.Ongoing U) (n : Nat) : U.find n = T.find n := by
  obtain ⟨-, -, ring, sram, -⟩ := h
  unfold Toll.find
  rw [ring, sram]

theorem Toll.length_entries (T : Toll) : T.entries.length = 256 := by
  unfold Toll.entries
  rw [length_flatMap_const (n := 16) _ fun p => by simp, List.length_range]

/-- R568: a record begins with its number and ends with its chain. -/
theorem Toll.record_chain (T : Toll) (chain : List Byte) :
    leAt (T.record chain) 0 8 = (T.seq + 1) % 2 ^ 64 ∧ (T.record chain).drop 480 = chain := by
  unfold Toll.record
  refine ⟨?_, ?_⟩
  · simp only [List.append_assoc]
    rw [leAt_leBytes]
    norm_num
  · refine List.drop_left' ?_
    simp only [List.length_append, length_leBytes, Toll.length_entries, length_flatMap_leBytes, List.length_range, List.length_replicate]

theorem State.freeBytes_toll (s : State) (n : Nat) : (s.freeBytes n).1.toll = s.toll :=
  SameBut.toll (State.freeBytes_same (msk := [.freeCtr]) n (.refl s) rfl) (by decide)

/-- R569: a summary touches no record. -/
theorem State.closeSummary_ongoing (s : State) : s.toll.Ongoing s.closeSummary.toll := by
  have kept := s.freeBytes_toll 384
  unfold State.closeSummary
  generalize s.freeBytes 384 = g at *
  dsimp only
  split
  · exact .refl _
  · unfold State.updToll
    rw [kept]
    exact ⟨rfl, rfl, rfl, rfl, rfl⟩

/-- R568: the state in which the second's record is made. -/
def tollBefore (memOk : Bool) (s : State) : State :=
  let s1 := if s.toll.msOpen then s.updToll Toll.gap else s
  let s2 := if s1.toll.alive = 0 then s1.closeSummary else s1
  if memOk then s2 else s2.updToll fun T => T.flag 4

theorem tollBefore_ongoing (memOk : Bool) (s : State) : s.toll.Ongoing (tollBefore memOk s).toll := by
  unfold tollBefore
  dsimp only
  generalize hu : (if s.toll.msOpen = true then s.updToll Toll.gap else s) = u
  have first : s.toll.Ongoing u.toll := by
    rw [← hu]
    split
    · exact ⟨rfl, rfl, rfl, rfl, rfl⟩
    · exact .refl _
  generalize hv : (if u.toll.alive = 0 then u.closeSummary else u) = v
  have second : u.toll.Ongoing v.toll := by
    rw [← hv]
    split
    · exact u.closeSummary_ongoing
    · exact .refl _
  refine (first.trans second).trans ?_
  split
  · exact .refl _
  · exact ⟨rfl, rfl, rfl, rfl, rfl⟩

/-- The record is written, and the next second begins. -/
def Toll.endSecond (T : Toll) (chain : List Byte) (memOk : Bool) (at_ : Nat) : Toll :=
  { (T.write (T.record (T.chain chain)) memOk).nextSecond with lastAt := at_ }

theorem tollSecond_toll (memOk : Bool) (s : State) :
    (tollSecond memOk s).toll = (tollBefore memOk s).toll.endSecond ((tollBefore memOk s).freeBytes 32).2 memOk s.tb := by
  have made : (tollSecond memOk s).toll =
      (((tollBefore memOk s).freeBytes 32).1).toll.endSecond ((tollBefore memOk s).freeBytes 32).2 memOk s.tb := rfl
  rw [made, State.freeBytes_toll]

theorem Toll.nextSecond_kept (T : Toll) :
    T.nextSecond.seq = T.seq ∧ T.nextSecond.second = T.second + 1 ∧ T.nextSecond.ring = T.ring ∧ T.nextSecond.sram = T.sram ∧
      T.nextSecond.sealCnt = T.sealCnt ∧ T.nextSecond.memFault = T.memFault := by
  unfold Toll.nextSecond
  dsimp only
  split
  · exact ⟨rfl, rfl, rfl, rfl, rfl, rfl⟩
  · split
    · exact ⟨rfl, rfl, rfl, rfl, rfl, rfl⟩
    · exact ⟨rfl, rfl, rfl, rfl, rfl, rfl⟩

/-- R568, R569, R571: the second's record, in the ring or in SRAM. -/
theorem tollSecond_effect (memOk : Bool) (s : State) :
    ∀ u, u = tollSecond memOk s → u.toll.seq = s.toll.seq + 1 ∧ u.toll.second = s.toll.second + 1 ∧ u.toll.sealCnt = s.toll.sealCnt ∧
      ∃ r : TollRec, r.seq = s.toll.seq + 1 ∧ leAt r.bytes 0 8 = (s.toll.seq + 1) % 2 ^ 64 ∧
        (∀ x, s.toll.find s.toll.seq = some x → r.bytes.drop 480 = sha256 x.bytes) ∧
        u.toll.ring = (if memOk then (r :: s.toll.ring).take 345600 else s.toll.ring) ∧
        (memOk = false → u.toll.memFault = true ∧ u.toll.sram = (r :: s.toll.sram).take 3600) := by
  rintro u rfl
  have before := tollBefore_ongoing memOk s
  rw [tollSecond_toll]
  generalize ((tollBefore memOk s).freeBytes 32).2 = g
  generalize (tollBefore memOk s).toll = T at *
  have found := Toll.find_of_ongoing before
  obtain ⟨seq, second, ring, sram, sealCnt⟩ := before
  obtain ⟨front, chain⟩ := T.record_chain (T.chain g)
  have linked : ∀ x, s.toll.find s.toll.seq = some x → T.chain g = sha256 x.bytes := fun x hx => by
    unfold Toll.chain
    rw [found, seq, hx]
  unfold Toll.endSecond
  generalize hw : T.write (T.record (T.chain g)) memOk = W
  obtain ⟨seq', second', ring', sram', seal', fault'⟩ := W.nextSecond_kept
  dsimp only
  rw [seq', second', seal', ring', sram', fault', ← hw]
  refine ⟨?_, ?_, ?_, { seq := T.seq + 1, bytes := T.record (T.chain g) }, congrArg Nat.succ seq, front.trans (by rw [seq]),
    fun x hx => chain.trans (linked x hx), ?_, ?_⟩
  all_goals cases memOk
  all_goals simp [Toll.write, seq, second, sealCnt, ring, sram]

theorem Toll.length_summary (T : Toll) (a b : Nat) : (T.summary a b).length = 640 := by
  unfold Toll.summary
  dsimp only
  rw [List.length_take, List.length_append, List.length_replicate]
  omega

/-- R569: the open interval closes with its summary. -/
theorem State.closeSummary_effect (s : State) (h : s.toll.sumFirst ≤ s.toll.seq) :
    s.closeSummary.toll.sumFirst = s.toll.seq + 1 ∧ (s.toll.memFault = false →
      ∃ r : TollRec, s.closeSummary.toll.sums = (r :: s.toll.sums).take 5760 ∧ r.seq = s.toll.seq ∧
        r.bytes.take 640 = s.toll.summary s.toll.sumFirst s.toll.seq) := by
  have kept := s.freeBytes_toll 384
  unfold State.closeSummary
  generalize s.freeBytes 384 = g at *
  dsimp only
  rw [if_neg (by omega)]
  unfold State.updToll
  rw [kept]
  refine ⟨rfl, fun sound => ⟨{ seq := s.toll.seq, bytes := s.toll.summary s.toll.sumFirst s.toll.seq ++ g.2 }, ?_, rfl, ?_⟩⟩
  · dsimp only
    rw [sound, if_neg (by decide)]
  · exact List.take_left' (Toll.length_summary _ _ _)

/-! ### Mailboxes and calibration (R572 to R579) -/

theorem Toll.length_software (T : Toll) : T.software.length = 36 := by
  unfold Toll.software
  rw [List.length_append, length_leBytes, List.length_take, List.length_append, List.length_replicate]
  omega

theorem Toll.addAudit_kept (T : Toll) (kind code : Nat) (accepted : Bool) :
    (T.addAudit kind code accepted).sealCnt = T.sealCnt ∧ (T.addAudit kind code accepted).newCal = T.newCal := by
  unfold Toll.addAudit
  generalize (if accepted = true then 4096 else 3840) = places
  split
  · exact ⟨rfl, rfl⟩
  · exact ⟨rfl, rfl⟩

/-- R579: a pin event is written while its places last, and counted otherwise. -/
theorem Toll.addAudit_pin (T : Toll) (kind code : Nat) :
    (T.audit.length < 3840 → (T.addAudit kind code false).audit = T.auditEntry kind code :: T.audit) ∧
      (3840 ≤ T.audit.length → (T.addAudit kind code false).audit = T.audit ∧ (T.addAudit kind code false).auditOver = T.auditOver + 1) := by
  have places : (if false = true then 4096 else 3840) = 3840 := if_neg (by decide)
  unfold Toll.addAudit
  rw [places]
  refine ⟨fun room => ?_, fun full => ?_⟩
  · rw [if_pos room]
  · rw [if_neg (by omega)]
    exact ⟨rfl, rfl⟩

theorem calMessageOk_seal {T : Toll} {l : List Byte} (h : calMessageOk T l = true) : T.sealCnt < 256 := by
  unfold calMessageOk at h
  simp only [Bool.and_eq_true, decide_eq_true_eq] at h
  exact h.1.1.1.1.1.1.2

/-- R578: what each verdict on a calibration answers and changes. -/
theorem calibrate_effect {m : Fin 17} (msg : List Byte) (held : Bool) (taken : mbTaken s m.val (· == 7) = true) :
    ∃ u, exec (.calibrate m msg held) s = .next u ∧ SameBut [.toll] s u ∧
      (s.pins.calEn = false ∨ held = false → u.toll.resp = some (m.val, 4, []) ∧ u.toll.sealCnt = s.toll.sealCnt ∧
        u.toll.newCal = s.toll.newCal) ∧
      (s.pins.calEn = true → held = true → calMessageOk s.toll msg = false → u.toll.resp = some (m.val, 5, []) ∧
        u.toll.sealCnt = s.toll.sealCnt ∧ u.toll.newCal = s.toll.newCal) ∧
      (s.pins.calEn = true → held = true → calMessageOk s.toll msg = true → u.toll.resp = some (m.val, 0, []) ∧
        u.toll.sealCnt = s.toll.sealCnt + 1 ∧ u.toll.sealCnt ≤ 256 ∧ u.toll.newCal = some (msg.drop 36)) := by
  refine ⟨_, congrArg Host.Outcome.next (if_pos taken), ?_⟩
  have frame : ∀ (f : Toll → Toll) (c : Nat) (b : List Byte), SameBut [.toll] s ((s.updToll f).mbAnswer m.val c b) := fun _ _ _ =>
    State.mbAnswer_same _ _ _ (State.updToll_same _ (.refl s) rfl) rfl
  by_cases pin : s.pins.calEn = true ∧ held = true
  · obtain ⟨pinOn, isHeld⟩ := pin
    rw [if_neg (by simp [pinOn, isHeld])]
    have free : ¬ (s.pins.calEn = false ∨ held = false) := by simp [pinOn, isHeld]
    by_cases good : calMessageOk s.toll msg = true
    · rw [if_neg (by simp [good])]
      refine ⟨frame _ _ _, fun h => absurd h free, fun _ _ h => absurd (good.symm.trans h) (by decide), fun _ _ _ => ?_⟩
      obtain ⟨sealCnt, newCal⟩ := Toll.addAudit_kept { s.toll with
        sealCnt := s.toll.sealCnt + 1, newCal := some (msg.drop 36), newMin := some (leAt msg 36 1) } 3 0 true
      have bound := calMessageOk_seal good
      exact ⟨rfl, sealCnt, (Nat.le_of_eq sealCnt).trans bound, newCal⟩
    · rw [if_pos (by simp [good])]
      obtain ⟨sealCnt, newCal⟩ := s.toll.addAudit_kept 3 5 false
      exact ⟨frame _ _ _, fun h => absurd h free, fun _ _ _ => ⟨rfl, sealCnt, newCal⟩, fun _ _ h => absurd h good⟩
  · rw [if_pos (by rw [← Bool.not_and, Bool.not_eq_true', ← Bool.not_eq_true, Bool.and_eq_true]; exact pin)]
    obtain ⟨sealCnt, newCal⟩ := s.toll.addAudit_kept 3 4 false
    exact ⟨frame _ _ _, fun _ => ⟨rfl, sealCnt, newCal⟩, fun a b => absurd ⟨a, b⟩ pin, fun a b => absurd ⟨a, b⟩ pin⟩

theorem State.irq_mbReg (s : State) (m i : Nat) : s.irq (mbReg m 0) i = s.setBit (mbReg m 0x014) i := by
  have address : mbReg m 0 / 4096 * 4096 + 0x014 = mbReg m 0x014 := by
    unfold mbReg regAddr
    omega
  unfold State.irq
  rw [address]

/-- R576: the status word of a response. -/
theorem mbWord_fields (code : Byte) (n : Nat) :
    ∀ v, v = 2 + code.toNat * 256 + n % 4096 * 65536 → nbits v 0 2 = 2 ∧ nbits v 8 8 = code.toNat ∧ nbits v 16 12 = n % 4096 ∧ v < 2 ^ 32 := by
  intro v hv
  have small := code.isLt
  unfold nbits
  norm_num
  omega

theorem mbDone_effect (m : Nat) (code : Byte) (body : List Byte) (s : State) :
    (mbDone m code body s).toll.resp = none ∧ (mbDone m code body s).fld (mbReg m 0x044) 0 2 = 2 ∧
      (mbDone m code body s).fld (mbReg m 0x044) 8 8 = code.toNat ∧ (mbDone m code body s).fld (mbReg m 0x044) 16 12 = body.length % 4096 ∧
      (mbDone m code body s).bit (mbReg m 0x014) 0 = true ∧ (mbDone m code body s).wire = s.wire ++ [.tollResp m] := by
  unfold mbDone
  dsimp only
  generalize hu : s.updToll _ = u
  have empty : u.toll.resp = none := by
    rw [← hu]
    rfl
  have noted : SameBut [.toll] s u := hu ▸ State.updToll_same _ (.refl s) rfl
  generalize hv : List.foldl _ u _ = v
  have copied : SameBut [.regs] u v := hv ▸ SameBut.foldl (.refl u) fun _ _ h => State.setReg_same _ _ h rfl
  rw [State.irq_mbReg]
  obtain ⟨state, result, length, word⟩ := mbWord_fields code body.length _ rfl
  generalize 2 + code.toNat * 256 + body.length % 4096 * 65536 = x at *
  generalize hw : v.setReg (mbReg m 0x044) (BitVec.ofNat 32 x) = w
  have written : SameBut [.regs] v w := hw ▸ State.setReg_same _ _ (.refl v) rfl
  have status : ∀ lo n, w.fld (mbReg m 0x044) lo n = nbits x lo n := fun lo n => by
    unfold State.fld
    rw [← hw, State.reg_setReg_same, BitVec.toNat_ofNat, Nat.mod_eq_of_lt word]
  have rings : SameBut [.regs] w (w.setBit (mbReg m 0x014) 0) := State.setBit_same _ _ (.refl w) rfl
  have apart : mbReg m 0x044 ≠ mbReg m 0x014 := fun e => absurd (regAddr_eq e (by decide) (by decide)).2 (by decide)
  have interrupt := w.bit_setBit_same (mbReg m 0x014) (i := 0) (by decide)
  have kept : ∀ lo n, (w.setBit (mbReg m 0x014) 0).fld (mbReg m 0x044) lo n = w.fld (mbReg m 0x044) lo n := fun lo n => by
    unfold State.fld
    rw [State.reg_setBit_ne _ _ apart]
  generalize w.setBit (mbReg m 0x014) 0 = y at *
  have sent : SameBut [.wire] y (y.send (.tollResp m)) := State.send_same _ (.refl y) rfl
  refine ⟨?_, ?_, ?_, ?_, ?_, ?_⟩
  · rw [sent.toll (by decide), rings.toll (by decide), written.toll (by decide), copied.toll (by decide), empty]
  · rw [sent.fld (by decide), kept, status, state]
  · rw [sent.fld (by decide), kept, status, result]
  · rw [sent.fld (by decide), kept, status, length]
  · rw [sent.bit (by decide), interrupt]
  · refine congrArg (· ++ [Msg.tollResp m]) ?_
    rw [rings.wire (by decide), written.wire (by decide), copied.wire (by decide), noted.wire (by decide)]

theorem answered (m code : Nat) (b : List Byte) :
    SameBut [.toll] s (s.mbAnswer m code b) ∧ (s.mbAnswer m code b).toll.resp = some (m, BitVec.ofNat 8 code, b) ∧
      (s.mbAnswer m code b).toll.lastBox = m := ⟨State.mbAnswer_same _ _ _ (.refl s) rfl, rfl, rfl⟩

/-- R565: each stack counts its work anew. -/
def State.countAnew (s : State) : State := (List.range 16).foldl (fun s st => s.updStk st fun T => { T with wu := 0 }) s

theorem State.countAnew_effect (s : State) : SameBut [.stks] s s.countAnew ∧ ∀ st < 16, (s.countAnew.stk st).wu = 0 :=
  ⟨SameBut.foldl (.refl s) fun _ _ h => State.updStk_same _ _ h rfl,
    fun _ hst => foldl_updStk (P := fun T => T.wu = 0) (fun _ => rfl) _ (.inr (List.mem_range.2 hst))⟩

theorem execFeedFrame_eq (on : tollOn s = true) (f : FeedFrame) (ok : Bool) :
    exec (.feedFrame f ok) s = .next (s.countAnew.updToll fun T => if ok then (T.closeMs (some f)).takeFrame f else T.gap) :=
  congrArg Host.Outcome.next (if_pos on)

theorem feedFrame_effect (on : tollOn s = true) (f : FeedFrame) (ok : Bool) :
    ∃ u, exec (.feedFrame f ok) s = .next u ∧ SameBut [.stks, .toll] s u ∧ (∀ st < 16, (u.stk st).wu = 0) ∧ u.toll.msOpen = false ∧
      (∀ c < 18, 100000 * tget 0 u.toll.sec c + tget 0 u.toll.acc c = 100000 * tget 0 s.toll.sec c + tget 0 s.toll.acc c ∧
        tget 0 u.toll.acc c < 100000) ∧
      (ok = true → u.toll.frame = some f) ∧ (ok = false → u.toll.frame = s.toll.frame ∧ nbit u.toll.flags.toNat 1 = true) := by
  refine ⟨_, execFeedFrame_eq on f ok, ?_⟩
  obtain ⟨frame, fresh⟩ := s.countAnew_effect
  generalize s.countAnew = u at *
  have toll : u.toll = s.toll := frame.toll (by decide)
  have noted : ∀ f, SameBut [.toll] u (u.updToll f) := fun f => State.updToll_same _ (.refl u) rfl
  refine ⟨(frame.mono rfl).trans ((noted _).mono rfl), fun st hst => (congrArg Stack.wu ((noted _).stk (by decide) st)).trans (fresh st hst), ?_⟩
  unfold State.updToll
  rw [toll]
  dsimp only
  cases ok with
  | true =>
    obtain ⟨sec, acc, closed, taken⟩ := (s.toll.closeMs (some f)).takeFrame_kept f
    rw [if_pos rfl, sec, acc, closed, taken]
    exact ⟨rfl, fun _ hc => s.toll.closeMs_channel (some f) hc, fun _ => rfl, fun h => absurd h (by decide)⟩
  | false =>
    obtain ⟨sec, acc, closed, frame⟩ := s.toll.gap_kept
    rw [if_neg (by decide), sec, acc, closed, frame]
    exact ⟨rfl, fun _ hc => s.toll.closeMs_channel none hc, fun h => absurd h (by decide), fun _ => ⟨rfl, Toll.nbit_flag _ (by decide)⟩⟩

/-- Settles O55: metering on the tollhouse's own record, seconds through `tollSecond_effect`, mailboxes through `answered`. -/
theorem theTollhouseMetersAndAnswers : Obligations.TheTollhouseMetersAndAnswers := by
  unfold Obligations.TheTollhouseMetersAndAnswers
  refine ⟨fun s on => ⟨fun power sat => ?_, fun f ok => feedFrame_effect on f ok, ?_, ?_, ?_, ?_, fun level change => ?_⟩, fun s m =>
    ⟨fun taken => ?_, fun taken => ?_, fun taken => ?_, fun taken => ?_, fun taken => ?_, fun taken => ?_, fun taken => ?_,
      fun msg held taken => calibrate_effect msg held taken, fun code b up resp => ?_⟩⟩
  · exact ⟨_, congrArg Host.Outcome.next (if_pos on), State.updToll_same _ (.refl s) rfl, s.toll.sample_effect power sat⟩
  · exact ⟨_, congrArg Host.Outcome.next (if_pos on), State.updToll_same _ (.refl s) rfl, Toll.nbit_flag _ (by decide),
      s.toll.gap_unassigned, fun _ hc => (s.toll.closeMs_channel none hc).1⟩
  · obtain ⟨seq, second, sealCnt, r, number, front, chain, ring, -⟩ := tollSecond_effect true s _ rfl
    exact ⟨_, r, congrArg Host.Outcome.next (if_pos on), tollSecond_same _ (.refl s) rfl, seq, second, ring, number, front, chain, sealCnt⟩
  · obtain ⟨seq, -, -, r, number, -, -, ring, sram⟩ := tollSecond_effect false s _ rfl
    obtain ⟨fault, held⟩ := sram rfl
    exact ⟨_, r, congrArg Host.Outcome.next (if_pos on), tollSecond_same _ (.refl s) rfl, seq, fault, ring, held, number⟩
  · refine ⟨_, congrArg Host.Outcome.next (if_pos on), State.closeSummary_same (.refl s) rfl, fun none_ => ?_, s.closeSummary_effect⟩
    unfold State.closeSummary
    exact if_pos none_
  · refine ⟨_, congrArg Host.Outcome.next ((if_neg change).trans (if_pos on)), ?_, rfl, Toll.addAudit_pin _ _ _⟩
    exact State.updToll_same _ (SameBut.lit_pins (.refl s) rfl) rfl
  · obtain ⟨frame, resp, last⟩ := answered (s := s) m.val 0 (s.toll.software ++ leBytes 4 s.toll.sealCnt ++ tollCert)
    refine ⟨_, congrArg Host.Outcome.next (if_pos taken), frame, last, _, resp, ?_⟩
    rw [List.append_assoc]
    exact List.take_left' s.toll.length_software
  · refine ⟨_, congrArg Host.Outcome.next (if_pos taken), (answered _ _ _).1, _, rfl, ?_⟩
    simp only [List.append_assoc]
    rw [leAt_leBytes]
    norm_num
  · refine ⟨_, congrArg Host.Outcome.next (if_pos taken), ?_⟩
    cases s.toll.find (leAt (mbReq s m.val) 8 8) with
    | some r => exact ⟨(answered _ _ _).1, rfl⟩
    | none => exact ⟨(answered _ _ _).1, rfl⟩
  · refine ⟨_, congrArg Host.Outcome.next (if_pos taken), ?_⟩
    cases (s.toll.sramSum ++ s.toll.sums).find? fun r => r.seq == leAt (mbReq s m.val) 8 8 with
    | some r => exact ⟨(answered _ _ _).1, rfl⟩
    | none => exact ⟨(answered _ _ _).1, rfl⟩
  · refine ⟨_, congrArg Host.Outcome.next (if_pos taken), ?_⟩
    have signed : SameBut [.toll, .freeCtr] s (s.freeBytes 384).1 := State.freeBytes_same _ (.refl s) rfl
    have length := length_freeBytes s 384
    generalize s.freeBytes 384 = g at *
    refine ⟨SameBut.ite (State.mbAnswer_same _ _ _ signed rfl) (State.mbAnswer_same _ _ _ (.refl s) rfl), fun bad => ?_, fun good => ?_⟩
    · rw [if_neg (by simp [bad])]
      rfl
    · rw [if_pos good]
      exact ⟨_, length, rfl⟩
  · refine ⟨_, congrArg Host.Outcome.next (if_pos taken), ?_⟩
    cases s.toll.audit.reverse[leAt (mbReq s m.val) 8 4]? with
    | some e => exact ⟨(answered _ _ _).1, rfl⟩
    | none => exact ⟨(answered _ _ _).1, rfl⟩
  · exact ⟨_, congrArg Host.Outcome.next (if_pos taken), (answered _ _ _).1, rfl⟩
  · have body : exec (.tollMbDone m) s = .next (mbDone m.val code b s) := by
      show Host.Outcome.next (match s.toll.resp with
        | some (k, code, body) => if pkgUp s && k == m.val then mbDone k code body s else s
        | none => s) = _
      rw [resp]
      exact congrArg Host.Outcome.next (if_pos (by simp [up]))
    exact ⟨_, body, mbDone_same _ _ _ (.refl s) rfl, mbDone_effect m.val code b s⟩

end Tollhouse
end Sys2Proof.Machine
end

section
/-!
SPDM (R445, R446), the streams and trusted interfaces (R447 to R450).
-/
namespace Sys2Proof.Machine

section Sessions
variable {s : State}

/-! ### SPDM (R445, R446) -/

/-- R435: a signed answer, while the keys are usable. -/
theorem State.aliasSign_effect (f : Nat) (body : List Byte) (usable : keysUsable s = true) :
    SameBut [.freeCtr, .wire] s (s.aliasSign f body) ∧ ∃ sig, (s.aliasSign f body).wire = s.wire ++ [.spdm f (body ++ sig)] := by
  refine ⟨State.aliasSign_same _ _ (.refl s) rfl, ?_⟩
  have drawn : SameBut [.freeCtr] s (s.freeBytes 384).1 := State.freeBytes_same _ (.refl s) rfl
  unfold State.aliasSign
  generalize s.freeBytes 384 = g at *
  rw [if_pos usable]
  exact ⟨g.2, congrArg (· ++ [Msg.spdm f (body ++ g.2)]) (drawn.wire (by decide))⟩

theorem State.setSessions_sessions (s : State) (f n : Nat) : tget 0 (s.setSessions f n).sec.sessions f = n :=
  tget_tput_same 0 s.sec.sessions f n

theorem keyExchange_effect (f : Nat) (usable : keysUsable s = true) :
    SameBut [.freeCtr, .wire, .sec] s (spdm f .keyExchange s) ∧
      tget 0 (spdm f .keyExchange s).sec.sessions f = tget 0 s.sec.sessions f + (if 32 ≤ sessionCount s then 0 else 1) := by
  unfold spdm
  dsimp only
  rw [if_neg (by simp [usable])]
  split
  · exact ⟨State.spdmErr_same _ _ (.refl s) rfl, rfl⟩
  · generalize hu : s.setSessions f (tget 0 s.sec.sessions f + 1) = u
    have noted : SameBut [.sec] s u := hu ▸ State.setSessions_same _ _ (.refl s) rfl
    have more : tget 0 u.sec.sessions f = tget 0 s.sec.sessions f + 1 := hu ▸ s.setSessions_sessions f _
    have signed : SameBut [.freeCtr, .wire] u (u.aliasSign f []) := State.aliasSign_same _ _ (.refl u) rfl
    exact ⟨(noted.mono rfl).trans (signed.mono rfl), by rw [signed.sec (by decide), more]⟩

theorem endSession_effect (f : Nat) :
    SameBut [.wire, .sec] s (spdm f .endSession s) ∧ tget 0 (spdm f .endSession s).sec.sessions f = tget 0 s.sec.sessions f - 1 := by
  unfold spdm
  dsimp only
  split
  next none_ => exact ⟨State.spdmErr_same _ _ (.refl s) rfl, by rw [none_]; exact none_⟩
  next => exact ⟨State.spdmAns_same _ _ (State.setSessions_same _ _ (.refl s) rfl) rfl, s.setSessions_sessions f _⟩

/-- R447: keys are installed for the stream of function `f`. -/
def boundSec (S : Sec) (f : Nat) : Sec :=
  { S with ideBound := tput false S.ideBound f true, ideInsecure := tput false S.ideInsecure f false }

/-- R447: the keys are installed in a session only. -/
theorem ideKeyProgram_effect (f : Nat) :
    SameBut [.wire, .sec, .regs] s (spdm f .ideKeyProgram s) ∧
      (tget 0 s.sec.sessions f = 0 → (spdm f .ideKeyProgram s).sec = s.sec) ∧
      (tget 0 s.sec.sessions f ≠ 0 → tget false (spdm f .ideKeyProgram s).sec.ideBound f = true ∧
        tget false (spdm f .ideKeyProgram s).sec.ideInsecure f = false) := by
  unfold spdm
  dsimp only
  split
  next none_ => exact ⟨State.spdmErr_same _ _ (.refl s) rfl, fun _ => rfl, fun h => absurd none_ h⟩
  next some_ =>
    refine ⟨State.spdmAns_same _ _ (State.bindIde_same _ (.refl s) rfl) rfl, fun h => absurd h some_, fun _ => ?_⟩
    have bound : (s.bindIde f).sec = boundSec s.sec f := by
      unfold State.bindIde
      dsimp only
      split
      · rfl
      · exact SameBut.sec (State.setBit_same (msk := [.regs]) _ _ (.refl _) rfl) (by decide)
    have answered : SameBut [.wire] (s.bindIde f) ((s.bindIde f).spdmAns f []) := State.spdmAns_same _ _ (.refl _) rfl
    rw [answered.sec (by decide), bound]
    exact ⟨tget_tput_same false s.sec.ideBound f true, tget_tput_same false s.sec.ideInsecure f false⟩

/-! ### Streams and interfaces (R447 to R450) -/

theorem State.setTdi_effect (s : State) (n : Nat) {x : Nat} (hx : x < 4) :
    SameBut [.regs] s (s.setTdi n x) ∧ OtherRegs [psecReg n 0x064] s (s.setTdi n x) ∧ tdiState (s.setTdi n x) n = x :=
  ⟨State.setTdi_same _ _ (.refl s) rfl, otherRegs_setFld _ _ _ (by simp), (s.fld_setFld_same _ x (by decide)).trans (Nat.mod_eq_of_lt hx)⟩

/-- R450: a locked interface enters ERROR. -/
theorem State.tdiError_effect (s : State) {n : Nat} (locked : tdiLocked s n = true) : tdiState (s.tdiError n) n = 3 := by
  unfold State.tdiError
  rw [if_pos locked]
  have reset : SameBut [.parts, .cores, .faults, .dbg, .wire] (s.setTdi n 3) ((s.setTdi n 3).resetPart n .reset) :=
    State.resetPart_same _ _ (.refl _) rfl
  exact (reset.fld (by decide) _ _ _).trans (s.setTdi_effect n (by decide)).2.2

theorem ideFail_effect (f : Nat) :
    tget false (ideFail f s).sec.ideInsecure f = true ∧ tget 0 (ideFail f s).lndErr 7 = min (tget 0 s.lndErr 7 + 1) (2 ^ 32 - 1) ∧
      (f ≠ 0 → tdiLocked s (f - 1) = true → tdiState (ideFail f s) (f - 1) = 3) := by
  unfold ideFail
  dsimp only
  generalize hu : State.mk _ _ _ _ _ _ _ _ _ _ _ _ _ _ _ _ _ _ _ _ _ _ _ _ _ _ _ _ _ _ _ _ _ _ _ _ _ _ _ _ _ _ _ = u
  have noted : SameBut [.sec] s u := hu ▸ SameBut.lit_sec (.refl s) rfl
  have insecure : tget false u.sec.ideInsecure f = true := by
    rw [← hu]
    exact tget_tput_same false s.sec.ideInsecure f true
  generalize hv : u.lndCount 7 = v
  have counted : SameBut [.lndErr] u v := hv ▸ State.lndCount_same 7 (.refl u) rfl
  have count : tget 0 v.lndErr 7 = min (tget 0 s.lndErr 7 + 1) (2 ^ 32 - 1) := by
    rw [← hv, ← noted.lndErr (by decide)]
    exact tget_tput_same 0 u.lndErr 7 _
  have frame : SameBut [.regs, .parts, .cores, .faults, .dbg, .wire] v (if f = 0 then v else v.tdiError (f - 1)) :=
    SameBut.ite (.refl v) (State.tdiError_same _ (.refl v) rfl)
  refine ⟨?_, ?_, fun virtual locked => ?_⟩
  · rw [frame.sec (by decide), counted.sec (by decide), insecure]
  · rw [frame.lndErr (by decide), count]
  · rw [if_neg virtual]
    refine v.tdiError_effect ?_
    unfold tdiLocked
    rw [counted.fld (by decide), noted.fld (by decide)]
    exact locked

/-- R448: the page is locked, and the interface with it. -/
theorem lockInterface_effect (s : State) (n : Nat) :
    SameBut [.regs] s ((s.lockPage (psecReg n 0)).setTdi n 1) ∧ tdiState ((s.lockPage (psecReg n 0)).setTdi n 1) n = 1 ∧
      pageLocked ((s.lockPage (psecReg n 0)).setTdi n 1) (psecReg n 0) = true := by
  have locked : (s.lockPage (psecReg n 0)).bit (psecReg n 0 / 4096 * 4096 + 0x02C) 0 = true :=
    (s.bit_setFld_inside _ 3 (lo := 0) (i := 0) (by decide) (by decide)).trans rfl
  have frame : SameBut [.regs] s (s.lockPage (psecReg n 0)) := State.lockPage_same _ (.refl s) rfl
  generalize s.lockPage (psecReg n 0) = u at *
  obtain ⟨set, others, state⟩ := u.setTdi_effect n (x := 1) (by decide)
  refine ⟨frame.trans set, state, ?_⟩
  have apart : psecReg n 0 / 4096 * 4096 + 0x02C ∉ [psecReg n 0x064] := by
    unfold psecReg regAddr
    rw [List.mem_singleton]
    omega
  exact (others.bit apart 0).trans locked

/-- R490: a partition that has work or rests enters RESETTING, for the reason given. -/
theorem resetPart_part {n : Nat} (why : ResetWhy) (taken : (s.part n).state ≠ .free) (calm : (s.part n).state ≠ .resetting)
    (runs : s.dbg.stopAt = none) : (s.resetPart n why).part n = { s.part n with why := some why, state := .resetting } := by
  unfold State.resetPart
  rw [if_neg (by simp [taken, calm])]
  simp only [runs, Option.isSome_none, Bool.false_eq_true, if_false]
  generalize hu : s.updPart n _ = u
  have noted : u.part n = { s.part n with why := some why } := by rw [← hu, State.part_updPart_same]
  have entered := (u.setPState_part n .resetting).1
  generalize u.setPState n .resetting = v at *
  have begun : SameBut [.faults, .dbg] v (v.beginReset (.part (Fin.ofNat 16 n)) false false) := State.beginReset_same _ _ _ (.refl v) rfl
  rw [begun.part (by decide), entered, noted]

/-- R450: a live interface stops through a reset of its partition. -/
theorem stopInterface_resets {n : Fin 16} (live : tdiState s n.val = 1 ∨ tdiState s n.val = 2) (calm : (s.part n.val).state ≠ .resetting)
    (taken : (s.part n.val).state ≠ .free) (runs : s.dbg.stopAt = none) :
    SameBut [.parts, .faults, .wire, .cores] s (stopInterface n.val s) ∧ ((stopInterface n.val s).part n.val).tdiStop = true ∧
      ((stopInterface n.val s).part n.val).state = .resetting := by
  unfold stopInterface
  rw [if_neg (by omega), if_neg calm, if_neg (by omega)]
  generalize hu : s.updPart n.val _ = u
  have noted : SameBut [.parts] s u := hu ▸ State.updPart_same _ _ (.refl s) rfl
  have part : u.part n.val = { s.part n.val with tdiStop := true } := by rw [← hu, State.part_updPart_same]
  have runs' : u.dbg.stopAt = none := by rw [noted.dbg (by decide), runs]
  have taken' : (u.part n.val).state ≠ .free := by rw [part]; exact taken
  have calm' : (u.part n.val).state ≠ .resetting := by rw [part]; exact calm
  have frame := (resetPart_resetting (n := n) .reset taken' runs').1
  rw [resetPart_part .reset taken' calm' runs', part]
  exact ⟨(noted.mono rfl).trans frame, rfl, rfl⟩

/-- Settles O52: requests by kind, streams through `ideFail_effect`, interfaces through `setTdi_effect`. -/
theorem sessionsAndInterfaces : Obligations.SessionsAndInterfaces := by
  unfold Obligations.SessionsAndInterfaces
  refine fun s => ⟨fun f up => ⟨fun i nonce usable listed some_ each => ?_, fun i nonce unlisted some_ each => ?_, fun nonce usable => ?_,
    fun code => ?_, fun usable => ?_, ?_, ?_, fun q hq => ?_⟩, fun f up bound => ?_, fun n => ⟨fun ok => ?_, fun bad => ?_,
    fun up locked => ?_, fun up error calm => ?_, fun up live calm taken runs => ?_⟩⟩
  · obtain ⟨frame, sig, wire⟩ := State.aliasSign_effect (s := s) f.val (measurement s f.val i.toNat ++ nonce) usable
    refine ⟨_, sig, congrArg Host.Outcome.next ((if_pos up).trans ?_), frame, wire⟩
    unfold spdm
    dsimp only
    rw [if_neg some_, if_neg each, if_pos (by simp [listed])]
  · have body : spdm f.val (.getMeasurements i nonce) s = s.spdmErr f.val 0x01 := by
      unfold spdm
      dsimp only
      rw [if_neg some_, if_neg each, if_neg (by simp [unlisted])]
    exact ⟨_, congrArg Host.Outcome.next ((if_pos up).trans body), State.spdmErr_same _ _ (.refl s) rfl, rfl⟩
  · obtain ⟨frame, sig, wire⟩ := State.aliasSign_effect (s := s) f.val nonce usable
    exact ⟨_, sig, congrArg Host.Outcome.next (if_pos up), frame, wire⟩
  · exact ⟨_, congrArg Host.Outcome.next (if_pos up), State.spdmErr_same _ _ (.refl s) rfl, rfl⟩
  · exact ⟨_, congrArg Host.Outcome.next (if_pos up), keyExchange_effect f.val usable⟩
  · exact ⟨_, congrArg Host.Outcome.next (if_pos up), endSession_effect f.val⟩
  · exact ⟨_, congrArg Host.Outcome.next (if_pos up), ideKeyProgram_effect f.val⟩
  · have body : spdm f.val q s = s.spdmAns f.val (if tget 0 s.sec.sessions f.val = 0 then [0x7F, 0x04] else []) := by
      have plain : ∀ x, x = (if tget 0 s.sec.sessions f.val = 0 then s.spdmErr f.val 0x04 else s.spdmAns f.val []) →
          x = s.spdmAns f.val (if tget 0 s.sec.sessions f.val = 0 then [0x7F, 0x04] else []) := by
        rintro x rfl
        split
        · rfl
        · rfl
      rcases List.mem_cons.1 hq with rfl | hq
      · exact plain _ rfl
      · rcases List.mem_cons.1 hq with rfl | hq
        · exact plain _ rfl
        · rw [List.mem_singleton.1 hq]
          exact plain _ rfl
    exact ⟨_, congrArg Host.Outcome.next ((if_pos up).trans body), State.spdmAns_same _ _ (.refl s) rfl, rfl⟩
  · exact ⟨_, congrArg Host.Outcome.next (if_pos (by simp [up, bound])), ideFail_same _ (.refl s) rfl, ideFail_effect f.val⟩
  · exact ⟨_, congrArg Host.Outcome.next (if_pos ok), lockInterface_effect s n.val⟩
  · exact congrArg Host.Outcome.next (if_neg (by simp [bad]))
  · exact ⟨_, congrArg Host.Outcome.next (if_pos (by simp [up, locked])), s.setTdi_effect n.val (by decide)⟩
  · have body : stopInterface n.val s = s.setTdi n.val 0 := by
      unfold stopInterface
      rw [if_neg (by omega), if_neg calm, if_pos error]
    obtain ⟨frame, -, state⟩ := s.setTdi_effect n.val (x := 0) (by decide)
    exact ⟨_, congrArg Host.Outcome.next ((if_pos up).trans body), frame, state⟩
  · exact ⟨_, congrArg Host.Outcome.next (if_pos up), stopInterface_resets live calm taken runs⟩

end Sessions
end Sys2Proof.Machine
end

section
/-!
The registers that memory accesses can change (R220 to R255): the logs of a stack, the slice pages, counter overflows and the
report FIFOs.
-/
namespace Sys2Proof.Machine

section MemoryRegisters
variable {s s0 : State} {P : Nat → Prop}

/-- The registers that an access to memory can change. -/
def MemRegs (a : Nat) : Prop :=
  (∃ st < 16, ∃ o < 4096, a = smReg st o) ∨ (∃ k < 512, ∃ o < 4096, a = slcReg k o) ∨ (∃ c, a = cntPage c 0x044) ∨ RptRegs a

theorem MemRegs.sm {st o : Nat} (hst : st < 16) (ho : o < 4096) : MemRegs (smReg st o) := .inl ⟨st, hst, o, ho, rfl⟩

theorem MemRegs.slc {k o : Nat} (hk : k < 512) (ho : o < 4096) : MemRegs (slcReg k o) := .inr (.inl ⟨k, hk, o, ho, rfl⟩)

theorem MemRegs.cnt (c : Nat) : MemRegs (cntPage c 0x044) := .inr (.inr (.inl ⟨c, rfl⟩))

/-- A page of the I/O die other than the counters' and the FIFOs'. -/
theorem not_memRegs_iod {p o : Nat} (hp : p < 512) (ho : o < 4096) (counters : p < 0x00A ∨ 0x00C < p) (fifos : o ≠ 0x050) :
    ¬ MemRegs (regAddr 16 p o) := by
  rintro (⟨st, hst, o', ho', e⟩ | ⟨k, hk, o', ho', e⟩ | ⟨c, e⟩ | ⟨f, e⟩)
  · have := (regAddr_eq e ho ho').1
    omega
  · have := (regAddr_eq e ho ho').1
    omega
  · unfold cntPage at e
    split_ifs at e
    all_goals
      have := (regAddr_eq e ho (by decide)).1
      omega
  · exact ne_errReg_of_offset ho fifos f e

theorem RegsBut.counted {c i n : Nat} (h : RegsBut MemRegs s0 s) : RegsBut MemRegs s0 (s.count c i n) := h.count (.cnt c)

theorem RegsBut.reported {own : Option Nat} {code sev die plot addr : Nat} (h : RegsBut MemRegs s0 s) :
    RegsBut MemRegs s0 (s.report own code sev die plot addr) := h.report fun f => .inr (.inr (.inr ⟨f, rfl⟩))

/-! ### Error logs (R251 to R254) -/

theorem RegsBut.logCommon {a w pl syn pos fb : Nat} {old sus : Bool} (h : RegsBut P s0 s) (ha : ∀ o < 32, P (a + o)) :
    RegsBut P s0 (s.logCommon a old w pl syn pos fb sus) := by
  have fresh : RegsBut P s0 (if old then s else (List.range 8).foldl (fun s i => s.setReg (a + 4 * i) 0) s) := by
    split
    · exact h
    · refine h.foldl fun t i hi ht => ht.setReg (ha _ ?_)
      have := List.mem_range.1 hi
      omega
  unfold State.logCommon
  dsimp only
  generalize (if old = true then s else _) = t at *
  have noted : RegsBut P s0 (((((t.setReg a (BitVec.ofNat 32 (w + pl * 2 ^ 26 + 2 ^ 31))).setReg (a + 4) (BitVec.ofNat 32 syn)).addFld (a + 8) 0 16
      1).setFld (a + 8) 16 6 pos).setReg (a + 16) (BitVec.ofNat 32 (msNow s % 2 ^ 32))) :=
    ((((fresh.setReg (ha 0 (by decide))).setReg (ha 4 (by decide))).addFld (ha 8 (by decide))).setFld (ha 8 (by decide))).setReg
      (ha 16 (by decide))
  have dated := RegsBut.ite (c := old = true) noted (noted.setReg (x := BitVec.ofNat 32 (msNow s % 2 ^ 32)) (ha 12 (by decide)))
  have found := dated.setFld (lo := 0) (w := 3) (x := fb) (ha 24 (by decide))
  exact .ite (found.setBit (ha 8 (by decide))) found

theorem RegsBut.window {a st k off : Nat} (h : RegsBut MemRegs s0 s) (ha : ∀ o < 32, MemRegs (a + o)) :
    RegsBut MemRegs s0 (s.window a st k off) := by
  unfold State.window
  dsimp only
  generalize hu : (if (!s.bit (a + 24) 3 || _) = true then _ else _) = u
  have counted : RegsBut MemRegs s0 u := hu ▸ .ite (((h.setReg (ha 20 (by decide))).setFld (ha 8 (by decide))).setBit (ha 24 (by decide)))
    (h.addFld (ha 8 (by decide)))
  exact .ite (counted.setBit (ha 8 (by decide))).reported counted

/-- An entry lies in the log. -/
theorem logSlot_place {base n w pl a : Nat} {old : Bool} (found : logSlot s base n w pl = some (a, old)) : ∃ i < n, a = base + 32 * i := by
  have place : ∀ l : List Nat, (∀ x ∈ l, ∃ i < n, x = base + 32 * i) → ∀ q, l.find? q = some a → ∃ i < n, a = base + 32 * i :=
    fun l hl q hq => hl a (List.mem_of_find?_eq_some hq)
  have listed : ∀ x ∈ (List.range n).map fun i => base + 32 * i, ∃ i < n, x = base + 32 * i := by
    intro x hx
    obtain ⟨i, hi, rfl⟩ := List.mem_map.1 hx
    exact ⟨i, List.mem_range.1 hi, rfl⟩
  unfold logSlot at found
  dsimp only at found
  split at found
  next b hb =>
    obtain ⟨rfl, -⟩ := Prod.mk.inj (Option.some.inj found)
    exact place _ listed _ hb
  next =>
    obtain ⟨b, hb, e⟩ := Option.map_eq_some_iff.1 found
    obtain ⟨rfl, -⟩ := Prod.mk.inj e
    exact place _ listed _ hb

theorem logSlot_regs {st off n w pl a : Nat} {old : Bool} (found : logSlot s (smReg st off) n w pl = some (a, old)) (hst : st < 16)
    (inside : off + 32 * n ≤ 4096) : ∀ o < 32, MemRegs (a + o) := by
  obtain ⟨i, hi, rfl⟩ := logSlot_place found
  intro o ho
  have place : smReg st off + 32 * i + o = smReg st (off + 32 * i + o) := by
    unfold smReg regAddr
    omega
  rw [place]
  exact .sm hst (by omega)

theorem RegsBut.logCE {k w syn pos fb : Nat} {sus : Bool} (hk : k < 512) (h : RegsBut MemRegs s0 s) :
    RegsBut MemRegs s0 (s.logCE k w syn pos fb sus) := by
  unfold State.logCE
  dsimp only
  split
  next a old found =>
    have regs := logSlot_regs found (by omega) (by decide)
    exact (h.logCommon regs).window regs
  next =>
    have counted := h.addFld (lo := 0) (w := 16) (x := 1) (MemRegs.sm (st := k / 32) (o := 0x108) (by omega) (by decide))
    exact .ite counted.reported counted

theorem RegsBut.logUE {k w syn pos fb : Nat} {sus : Bool} (hk : k < 512) (h : RegsBut MemRegs s0 s) :
    RegsBut MemRegs s0 (s.logUE k w syn pos fb sus) := by
  unfold State.logUE
  dsimp only
  split
  next a old found => exact h.logCommon (logSlot_regs found (by omega) (by decide))
  next => exact h.addFld (.sm (by omega) (by decide))

/-! ### Words (R222 to R255) -/

theorem regAddr_page (d p o : Nat) : regAddr d p 0 / 4096 * 4096 + o = regAddr d p o := by
  unfold regAddr
  omega

theorem RegsBut.pageErr_slc {k addr : Nat} (hk : k < 512) (h : RegsBut MemRegs s0 s) : RegsBut MemRegs s0 (s.pageErr (slcReg k 0) addr) := by
  have regs : ∀ o < 4096, MemRegs (slcReg k 0 / 4096 * 4096 + o) := fun o ho => by
    have place : slcReg k 0 / 4096 * 4096 + o = slcReg k o := regAddr_page _ _ _
    rw [place]
    exact .slc hk ho
  exact ((h.addFld (regs 0x020 (by decide))).setReg (regs 0x024 (by decide))).setReg (regs 0x028 (by decide))

theorem RegsBut.poisonBack {k w : Nat} (h : RegsBut P s0 s) : RegsBut P s0 (s.poisonBack k w) := .ite h h

theorem RegsBut.readWord {k w : Nat} {src : Src} (hk : k < 512) (h : RegsBut MemRegs s0 s) : RegsBut MemRegs s0 (readWord s k w src).1 := by
  have port : ∀ t, RegsBut MemRegs s0 t → RegsBut MemRegs s0 (if src = .port then t.count k 45 1 else t) := fun t ht => .ite ht.counted ht
  have range : ∀ t, RegsBut MemRegs s0 t → RegsBut MemRegs s0 (if inNoriaRange s k w then t.count k 46 1 else t) := fun t ht => .ite ht.counted ht
  unfold Machine.readWord
  dsimp only
  cases classify (rawChk s k w) with
  | clean => exact h
  | poisoned => exact port _ h
  | poisonedErr => exact port _ (range _ (h.logUE hk)).reported
  | correctable j e =>
    dsimp only
    split
    · exact h
    · have logged := range _ ((h.logCE (w := w) (syn := packSyn (syndromes (rawChk s k w))) (pos := j) (fb := foundBy src)
        (sus := inNoriaRange s k w) hk).counted (c := k) (i := 43) (n := 1))
      exact .ite logged logged
  | uncorrectable => exact port _ (((range _ (h.logUE hk).counted).pageErr_slc hk).reported).poisonBack

theorem RegsBut.readWords {k : Nat} {src : Src} {ws : List Nat} (hk : k < 512) (h : RegsBut MemRegs s0 s) :
    RegsBut MemRegs s0 (readWords s k src ws).1 := by
  induction ws generalizing s with
  | nil => exact h
  | cons w ws ih => exact ih (h.readWord hk)

theorem RegsBut.cisRead {k off len : Nat} {src : Src} (hk : k < 512) (h : RegsBut MemRegs s0 s) :
    RegsBut MemRegs s0 (s.cisRead k off len src).1 := h.counted.counted.readWords hk

theorem RegsBut.flipWord {k w : Nat} (hk : k < 512) (h : RegsBut MemRegs s0 s) : RegsBut MemRegs s0 (s.flipWord k w) :=
  have put : ∀ bs d, RegsBut MemRegs s0 (s.putWord k w bs d) := fun _ _ => h
  ((put _ _).clrBit (.slc hk (by decide))).setReg (.slc hk (by decide))

theorem RegsBut.storeWord {k w : Nat} {bs : List Byte} {bad : Bool} {src : Src} (hk : k < 512) (h : RegsBut MemRegs s0 s) :
    RegsBut MemRegs s0 (s.storeWord k w bs bad src) :=
  have put : RegsBut MemRegs s0 (s.putWord k w bs (if bad then poisonMark else 0)) := h
  .ite (put.flipWord hk) put

theorem RegsBut.writeWord {k w lo : Nat} {bs : List Byte} {bad : Bool} {src : Src} (hk : k < 512) (h : RegsBut MemRegs s0 s) :
    RegsBut MemRegs s0 (writeWord s k w lo bs bad src).1 := by
  unfold Machine.writeWord
  dsimp only
  split
  · exact h.storeWord hk
  · cases bad with
    | true => exact (h.readWord hk).storeWord hk
    | false =>
      cases refused : (Machine.readWord s k w (if src = .port then .rmw else src)).2.2 with
      | true => exact h.readWord hk
      | false => exact (h.readWord hk).storeWord hk

theorem RegsBut.writeWords {k off : Nat} {data : List Byte} {bad : Bool} {src : Src} {ws : List Nat} (hk : k < 512) (h : RegsBut MemRegs s0 s) :
    RegsBut MemRegs s0 (writeWords s k off data bad src ws).1 := by
  induction ws generalizing s with
  | nil => exact h
  | cons w ws ih => exact ih (h.writeWord hk)

theorem RegsBut.dropLines {k off len : Nat} (h : RegsBut P s0 s) : RegsBut P s0 (s.dropLines k off len) :=
  h.same (State.dropLines_same (msk := [.cores, .caches]) _ _ _ (.refl s) rfl) (by decide)

theorem RegsBut.cisWrite {k off : Nat} {data : List Byte} {bad : Bool} {src : Src} (hk : k < 512) (h : RegsBut MemRegs s0 s) :
    RegsBut MemRegs s0 (s.cisWrite k off data bad src).1 :=
  have dropped : RegsBut MemRegs s0 (if src = .port then s.dropLines k off data.length else s) := .ite h.dropLines h
  dropped.counted.counted.counted.counted.writeWords hk

theorem RegsBut.weirFlags {k fl : Nat} (hk : k < 512) (h : RegsBut MemRegs s0 s) : RegsBut MemRegs s0 (s.weirFlags k fl) :=
  h.setReg (.slc hk (by decide))

theorem RegsBut.weirWord {k w lo op : Nat} {x : List Byte} {bad : Bool} (hk : k < 512) (h : RegsBut MemRegs s0 s) :
    RegsBut MemRegs s0 (weirWord s k w lo op x bad).1 := by
  unfold Machine.weirWord
  dsimp only
  split
  · exact (h.readWord hk).weirFlags hk
  · split
    · exact (h.readWord hk).storeWord hk
    · exact ((h.readWord hk).storeWord hk).weirFlags hk

theorem RegsBut.weirWords {k off op : Nat} {x : List Byte} {bad : Bool} {ws : List Nat} (hk : k < 512) (h : RegsBut MemRegs s0 s) :
    RegsBut MemRegs s0 (weirWords s k off op x bad ws).1 := by
  induction ws generalizing s with
  | nil => exact h
  | cons w ws ih => exact ih (h.weirWord hk)

theorem RegsBut.cisWeir {k op off : Nat} {x : List Byte} {bad : Bool} (hk : k < 512) (h : RegsBut MemRegs s0 s) :
    RegsBut MemRegs s0 (s.cisWeir k op off x bad).1 := by
  unfold State.cisWeir
  dsimp only
  split
  · exact h.dropLines.counted.counted.counted.counted.weirWord hk
  · exact h.dropLines.counted.counted.counted.counted.weirWords hk

/-! ### Device addresses (R212, R223, R246) -/

theorem cistern_lt_of_up {k : Nat} (h : ¬ (!cisternUp s k) = true) : k < 512 := by
  unfold cisternUp at h
  simp only [Bool.not_eq_true', Bool.not_eq_false, Bool.and_eq_true, decide_eq_true_eq] at h
  exact h.1.1.1

theorem RegsBut.foldlDev {α : Type} {f : DevRes → α → DevRes} {l : List α} {r : DevRes} (h : RegsBut P s0 r.st)
    (hf : ∀ r x, RegsBut P s0 r.st → RegsBut P s0 (f r x).st) : RegsBut P s0 (l.foldl f r).st := by
  induction l generalizing r with
  | nil => exact h
  | cons x l ih => exact ih (hf r x h)

theorem RegsBut.freeBytes {n : Nat} (h : RegsBut P s0 s) : RegsBut P s0 (s.freeBytes n).1 :=
  h.same (State.freeBytes_same (msk := [.freeCtr]) n (.refl s) rfl) (by decide)

theorem RegsBut.devRead {addr len : Nat} {src : Src} (h : RegsBut MemRegs s0 s) : RegsBut MemRegs s0 (s.devRead addr len src).st := by
  refine RegsBut.foldlDev h fun r p hr => ?_
  unfold devReadPiece
  split
  · exact hr
  · split
    · exact hr
    next up =>
      dsimp only
      split
      · exact (hr.cisRead (cistern_lt_of_up up)).freeBytes
      · exact hr.cisRead (cistern_lt_of_up up)

theorem RegsBut.devWrite {addr : Nat} {data : List Byte} {bad : Bool} {src : Src} (h : RegsBut MemRegs s0 s) :
    RegsBut MemRegs s0 (s.devWrite addr data bad src).st := by
  refine RegsBut.foldlDev h fun r p hr => ?_
  dsimp only
  split
  · exact hr
  · refine RegsBut.foldlDev hr fun r q hr => ?_
    split
    · exact hr
    next up => exact hr.cisWrite (cistern_lt_of_up up)

theorem RegsBut.devWeir {op addr : Nat} {x : List Byte} {bad : Bool} (h : RegsBut MemRegs s0 s) :
    RegsBut MemRegs s0 (s.devWeir op addr x bad).st := by
  refine RegsBut.foldlDev h fun r p hr => ?_
  dsimp only
  split
  · exact hr
  · split
    · exact hr
    next up =>
      refine RegsBut.foldlDev (hr.cisWeir (cistern_lt_of_up up)) fun r q hr => ?_
      split
      · exact hr
      next up => exact hr.cisWeir (cistern_lt_of_up up)

/-! ### What waited at a slice (R222, R234) -/

theorem RegsBut.serveHeld {k : Nat} {x : HeldReq} (hk : k < 512) (h : RegsBut MemRegs s0 s) : RegsBut MemRegs s0 (s.serveHeld k x) := by
  cases x with
  | write off data bad => exact h.cisWrite hk
  | weir op esize off x bad => exact h.cisWeir hk
  | poisonBack off => exact h
  | scrubBack off =>
    unfold State.serveHeld
    dsimp only
    cases classify (rawChk s k (off / 32)) <;> exact h

theorem RegsBut.serveList {k : Nat} {l : List HeldReq} (hk : k < 512) (h : RegsBut MemRegs s0 s) : RegsBut MemRegs s0 (s.serveList k l) := by
  induction l generalizing s with
  | nil => exact h
  | cons x l ih =>
    unfold State.serveList
    dsimp only
    split
    · exact ih h
    · exact ih (h.serveHeld hk)

theorem RegsBut.serveWaiting {k : Nat} (hk : k < 512) (h : RegsBut MemRegs s0 s) : RegsBut MemRegs s0 (s.serveWaiting k) := by
  have taken : RegsBut MemRegs s0 (s.updSlc k fun S => { S with held := [], waiting := [] }) := h
  exact .ite h (taken.serveList hk)

end MemoryRegisters
end Sys2Proof.Machine
end

section
/-!
Fuse requests (R442 to R444), debug tokens (R451, R452), owners (R454), the entropy source (R437), and what the loss of a
crossing leaves.
-/
namespace Sys2Proof.Machine

section Fuses
variable {s s0 : State} {P : Nat → Prop}

/-! ### The loss of a crossing (R383, R391) -/

theorem RegsBut.inject {cls : Fin 4} {src dst : Loc} {m : Msg} (h : RegsBut P s0 s) : RegsBut P s0 (s.inject cls src dst m) :=
  h.same (State.inject_same (msk := [.net]) _ _ _ _ (.refl s) rfl) (by decide)

theorem RegsBut.collRecord {e n status seq epoch : Nat} {d : Desc} (h : RegsBut MemRegs s0 s) :
    RegsBut MemRegs s0 (s.collRecord e n d status seq epoch) := by
  have stored : ∀ a b, RegsBut MemRegs s0 (if cStatus d % 8 = 0 ∧ inCommons s n (cStatus d) 8 then (s.devWrite a b false .port).st else s) :=
    fun _ _ => .ite h.devWrite h
  exact .ite (stored _ _).inject (stored _ _)

theorem RegsBut.endColl {e status : Nat} {C : Coll} (h : RegsBut MemRegs s0 s) : RegsBut MemRegs s0 (s.endColl e C status) := by
  unfold State.endColl
  dsimp only
  generalize hu : s.updEp e _ = u
  have noted : RegsBut MemRegs s0 u := hu ▸ h.same (State.updEp_same (msk := [.eps]) _ _ (.refl s) rfl) (by decide)
  split
  · exact noted.collRecord
  · exact noted

theorem RegsBut.lostData {p : XPkt} (h : RegsBut MemRegs s0 s) : RegsBut MemRegs s0 (s.lostData p) := by
  unfold State.lostData
  dsimp only
  split
  · exact h
  next g _ =>
    have sent : RegsBut MemRegs s0 (s.sendLost g p.seq) := h.same (State.sendLost_same (msk := [.coll]) _ _ (.refl s) rfl) (by decide)
    split
    · exact sent.endColl
    · exact sent

/-- The registers that the loss of crossing `n` can change. -/
def DownRegs (n a : Nat) : Prop := a = xngReg n 0x048 ∨ MemRegs a

theorem SameBut.xng {w : List Fld} {t : State} (h : SameBut w s t) (hw : Fld.xngs ∉ w) (j : Nat) : t.xng j = s.xng j := by
  unfold State.xng
  rw [h.xngs hw]

theorem State.lostData_frame (s : State) (p : XPkt) :
    SameBut [.regs, .slices, .dram, .chk, .net, .errs, .eps, .coll, .cores, .caches, .cnts, .wire] s (s.lostData p) :=
  State.lostData_same _ (.refl s) rfl

/-- R369: the crossing is down; the others, and the registers of other pages, stay. -/
theorem State.xngDown_effect (s : State) (n reason : Nat) :
    ((s.xngDown n reason).xng n).state = .down ∧ (∀ j, j ≠ n → (s.xngDown n reason).xng j = s.xng j) ∧
      RegsBut (DownRegs n) s (s.xngDown n reason) := by
  unfold State.xngDown
  dsimp only
  generalize hu : State.setXng _ n _ = u
  have down : (u.xng n).state = .down := by rw [← hu, State.xng_setXng_same]
  have written : SameBut [.regs] s (s.setFld (xngReg n 0x048) 24 4 reason) := State.setFld_same _ _ _ _ (.refl s) rfl
  have others : ∀ j, j ≠ n → u.xng j = s.xng j := fun j hj => by
    rw [← hu, State.xng_setXng_ne _ _ hj, written.xng (by decide)]
  have regs : RegsBut (DownRegs n) s u :=
    hu ▸ RegsBut.same ((RegsBut.refl s).setFld (.inl rfl)) (State.setXng_same (msk := [.xngs]) _ _ (.refl _) rfl) (by decide)
  generalize List.filter _ _ = gone
  have lost : ∀ (l : List XPkt) (v : State), RegsBut MemRegs u v → (∀ j, v.xng j = u.xng j) →
      RegsBut MemRegs u (l.foldl (fun s p => s.lostData p) v) ∧ ∀ j, (l.foldl (fun s p => s.lostData p) v).xng j = u.xng j := by
    intro l
    induction l with
    | nil => exact fun v hv hx => ⟨hv, hx⟩
    | cons p l ih => exact fun v hv hx => ih _ hv.lostData fun j => ((v.lostData_frame p).xng (by decide) j).trans (hx j)
  obtain ⟨kept, same⟩ := lost gone u (.refl u) fun _ => rfl
  refine ⟨?_, fun j hj => (same j).trans (others j hj), regs.trans (kept.mono fun _ => .inr)⟩
  rw [same, down]

/-! ### The entropy source (R437) -/

/-- R437: the key exchange that crossing `n` is in fails. -/
def State.failAuth (s : State) (n : Nat) : State := if (s.xng n).state = .auth then (s.setFld (xngReg n 0x044) 16 16 0).xngDown n 5 else s

theorem secReg_ne_xngReg {n o o' : Nat} (ho : o < 4096) (ho' : o' < 4096) : secReg o ≠ xngReg n o' := by
  intro e
  have := (regAddr_eq e ho ho').1
  omega

theorem secReg_not_down {n o : Nat} (ho : o < 4096) (h : o ≠ 0x050) : ¬ DownRegs n (secReg o) := by
  rintro (e | e)
  · exact secReg_ne_xngReg ho (by decide) e
  · exact not_memRegs_iod (by decide) ho (by decide) h e

theorem State.failAuth_effect (s : State) (n : Nat) :
    ((s.xng n).state = .auth → ((s.failAuth n).xng n).state = .down) ∧ (∀ j, j ≠ n → (s.failAuth n).xng j = s.xng j) ∧
      (s.failAuth n).bit (secReg 0x040) 18 = s.bit (secReg 0x040) 18 := by
  unfold State.failAuth
  split
  · have written : SameBut [.regs] s (s.setFld (xngReg n 0x044) 16 16 0) := State.setFld_same _ _ _ _ (.refl s) rfl
    have kept : (s.setFld (xngReg n 0x044) 16 16 0).bit (secReg 0x040) 18 = s.bit (secReg 0x040) 18 := by
      unfold State.bit State.setFld State.fld
      rw [State.reg_setReg_ne _ _ (secReg_ne_xngReg (by decide) (by decide))]
    obtain ⟨down, others, regs⟩ := (s.setFld (xngReg n 0x044) 16 16 0).xngDown_effect n 5
    refine ⟨fun _ => down, fun j hj => (others j hj).trans (written.xng (by decide) j), ?_⟩
    rw [regs.bit (secReg_not_down (by decide) (by decide)), kept]
  next idle => exact ⟨fun h => absurd h idle, fun _ _ => rfl, rfl⟩

theorem failAuths_effect {l : List Nat} (nodup : l.Nodup) :
    (∀ j, j ∉ l → (l.foldl State.failAuth s).xng j = s.xng j) ∧
      (∀ j ∈ l, (s.xng j).state = .auth → ((l.foldl State.failAuth s).xng j).state = .down) ∧
      (l.foldl State.failAuth s).bit (secReg 0x040) 18 = s.bit (secReg 0x040) 18 := by
  induction l generalizing s with
  | nil => exact ⟨fun _ _ => rfl, fun j hj => absurd hj (by simp), rfl⟩
  | cons n l ih =>
    obtain ⟨fresh, rest⟩ := List.nodup_cons.1 nodup
    obtain ⟨down, others, bit⟩ := s.failAuth_effect n
    obtain ⟨others', down', bit'⟩ := ih (s := s.failAuth n) rest
    rw [List.foldl_cons]
    refine ⟨fun j hj => ?_, fun j hj auth => ?_, bit'.trans bit⟩
    · rw [others' j fun h => hj (List.mem_cons_of_mem _ h), others j fun h => hj (List.mem_cons.2 (.inl h))]
    · rcases List.mem_cons.1 hj with rfl | inTail
      · rw [others' j fresh]
        exact down auth
      · have ne : j ≠ n := fun h => fresh (h ▸ inTail)
        exact down' j inTail (by rw [others j ne, auth])

theorem rngFail_eq (s : State) : rngFail s = (List.range 32).foldl State.failAuth (s.setBit (secReg 0x040) 18) := rfl

theorem rngFail_effect (s : State) :
    (rngFail s).bit (secReg 0x040) 18 = true ∧ ∀ n < 32, (s.xng n).state = .auth → ((rngFail s).xng n).state = .down := by
  have set : SameBut [.regs] s (s.setBit (secReg 0x040) 18) := State.setBit_same _ _ (.refl s) rfl
  have failed := s.bit_setBit_same (secReg 0x040) (i := 18) (by decide)
  rw [rngFail_eq]
  generalize s.setBit (secReg 0x040) 18 = u at *
  obtain ⟨-, down, bit⟩ := failAuths_effect (s := u) (List.nodup_range (n := 32))
  exact ⟨bit.trans failed, fun n hn auth => down n (List.mem_range.2 hn) ((congrArg Xng.state (set.xng (by decide) n)).trans auth)⟩

/-! ### Fuse requests (R442 to R444) -/

theorem State.reqStat_effect (s : State) {state code : Nat} (hs : state < 4) (hc : code < 16) :
    SameBut [.regs] s (s.reqStat state code) ∧ OtherRegs [secReg 0x054] s (s.reqStat state code) ∧
      (s.reqStat state code).fld (secReg 0x054) 0 2 = state ∧ (s.reqStat state code).fld (secReg 0x054) 4 4 = code := by
  unfold State.reqStat
  refine ⟨State.setFld_same _ _ _ _ (State.setFld_same _ _ _ _ (.refl s) rfl) rfl,
    (otherRegs_setFld _ _ _ (by simp)).trans (otherRegs_setFld _ _ _ (by simp)), ?_, ?_⟩
  · rw [State.fld_setFld_ne _ _ _ (by decide) (by decide), State.fld_setFld_same _ _ _ (by decide)]
    exact Nat.mod_eq_of_lt hs
  · rw [State.fld_setFld_same _ _ _ (by decide)]
    exact Nat.mod_eq_of_lt hc

/-- A request waits for its fuses. -/
def State.askFuses (s : State) (q : KeyReq) : State := { s with sec := { s.sec with req := some q } }

theorem State.askFuses_frame (s : State) (q : KeyReq) : SameBut [.sec] s (s.askFuses q) := SameBut.lit_sec (.refl s) rfl

theorem svnCommitCmd_eq (idle : s.sec.req = none) :
    svnCommitCmd s = if s.fld (secReg 0x044) 16 7 ≤ s.fuses.svn then s.reqStat 2 0
      else (s.askFuses (.svnCommit (s.fld (secReg 0x044) 16 7))).reqStat 1 0 := by
  unfold svnCommitCmd
  dsimp only
  exact if_neg (by simp [reqBusy, idle])

theorem svnCommit_effect {r : Req} (served : reach s r false (secReg 0x048) = .ok) (idle : s.sec.req = none) :
    (s.fld (secReg 0x044) 16 7 ≤ s.fuses.svn → ∃ u, exec (.svnCommit r) s = .next u ∧ SameBut [.regs] (s.reqStepped r) u ∧
      OtherRegs [secReg 0x054] s u ∧ u.fld (secReg 0x054) 0 2 = 2) ∧
    (s.fuses.svn < s.fld (secReg 0x044) 16 7 → ∃ u, exec (.svnCommit r) s = .next u ∧ SameBut [.regs, .sec] (s.reqStepped r) u ∧
      OtherRegs [secReg 0x054] s u ∧ u.fld (secReg 0x054) 0 2 = 1 ∧
      u.sec = { s.sec with req := some (.svnCommit (s.fld (secReg 0x044) 16 7)) }) := by
  have stepped := s.reqStepped_frame r
  have body := svnCommitCmd_eq (s := s.reqStepped r) ((congrArg Sec.req (stepped.sec (by decide))).trans idle)
  rw [stepped.fld (by decide), stepped.fuses (by decide)] at body
  refine ⟨fun stale => ?_, fun newer => ?_⟩
  · obtain ⟨frame, others, state, -⟩ := (s.reqStepped r).reqStat_effect (state := 2) (code := 0) (by decide) (by decide)
    exact ⟨_, (outcome_access _ served).trans (congrArg _ (body.trans (if_pos stale))), frame,
      (stepped.otherRegs (by decide) _).trans others, state⟩
  · have asked := (s.reqStepped r).askFuses_frame (.svnCommit (s.fld (secReg 0x044) 16 7))
    have sec : ((s.reqStepped r).askFuses (.svnCommit (s.fld (secReg 0x044) 16 7))).sec =
        { s.sec with req := some (.svnCommit (s.fld (secReg 0x044) 16 7)) } := by
      rw [← stepped.sec (by decide)]
      rfl
    rw [if_neg (by omega)] at body
    generalize (s.reqStepped r).askFuses (.svnCommit (s.fld (secReg 0x044) 16 7)) = v at *
    obtain ⟨frame, others, state, -⟩ := v.reqStat_effect (state := 1) (code := 0) (by decide) (by decide)
    exact ⟨_, (outcome_access _ served).trans (congrArg _ body), (asked.mono rfl).trans (frame.mono rfl),
      ((stepped.otherRegs (by decide) _).trans (asked.otherRegs (by decide) _)).trans others, state, (frame.sec (by decide)).trans sec⟩

theorem revokeCmd_eq {t : State} {l : List Byte} (idle : s.sec.req = none) (image : revokeImage s = some (t, l)) :
    revokeCmd s = if !(imgForm l 2 && imgFused t l && imgWhole l) then t.reqStat 3 1
      else if revokeRule t l then t.reqStat 3 2 else (t.askFuses (.revoke (BitVec.ofNat 2 (imgRevoke l)))).reqStat 1 0 := by
  unfold revokeCmd
  rw [if_neg (by simp [reqBusy, idle]), image]
  rfl

theorem revokeCmd_unreadable (idle : s.sec.req = none) (image : revokeImage s = none) : revokeCmd s = s.reqStat 3 1 := by
  unfold revokeCmd
  rw [if_neg (by simp [reqBusy, idle]), image]

theorem revokeSubmit_sound {t : State} {l : List Byte} (idle : s.sec.req = none) (image : revokeImage s = some (t, l))
    (sound : (imgForm l 2 && imgFused t l && imgWhole l) = true) :
    ∀ u, u = revokeCmd s → SameBut [.regs, .sec] t u ∧ u.fuses = s.fuses ∧
      (revokeRule t l = true → u.fld (secReg 0x054) 0 2 = 3 ∧ u.fld (secReg 0x054) 4 4 = 2 ∧ u.sec = t.sec) ∧
      (revokeRule t l = false → u.fld (secReg 0x054) 0 2 = 1 ∧ u.sec.req = some (.revoke (BitVec.ofNat 2 (imgRevoke l)))) := by
  rintro u rfl
  have read : SameBut [.freeCtr, .regs, .slices, .dram, .chk, .errs, .cores, .sec, .cnts, .wire] s t :=
    revokeImage_same (.refl s) rfl image
  rw [revokeCmd_eq idle image, if_neg (by simp [sound])]
  split
  next against =>
    obtain ⟨frame, -, state, code⟩ := t.reqStat_effect (state := 3) (code := 2) (by decide) (by decide)
    exact ⟨frame.mono rfl, (frame.fuses (by decide)).trans (read.fuses (by decide)), fun _ => ⟨state, code, frame.sec (by decide)⟩,
      fun h => absurd against (by simp [h])⟩
  next allowed =>
    have asked := t.askFuses_frame (.revoke (BitVec.ofNat 2 (imgRevoke l)))
    have req : (t.askFuses (.revoke (BitVec.ofNat 2 (imgRevoke l)))).sec.req = some (.revoke (BitVec.ofNat 2 (imgRevoke l))) := rfl
    generalize t.askFuses (.revoke (BitVec.ofNat 2 (imgRevoke l))) = v at *
    obtain ⟨frame, -, state, -⟩ := v.reqStat_effect (state := 1) (code := 0) (by decide) (by decide)
    exact ⟨(asked.mono rfl).trans (frame.mono rfl),
      (frame.fuses (by decide)).trans ((asked.fuses (by decide)).trans (read.fuses (by decide))), fun h => absurd h allowed,
      fun _ => ⟨state, (congrArg Sec.req (frame.sec (by decide))).trans req⟩⟩

/-- R444: the request is over. -/
def State.endRequest (s : State) : State := { s with sec := { s.sec with req := none } }

/-- R442, R443: the fuses that a request blows. -/
def blown (F : Fuses) : KeyReq → Fuses
  | .svnCommit v => { F with svn := max v F.svn }
  | .revoke i => { F with revoked := F.revoked ||| BitVec.ofNat 4 (2 ^ i.toNat) }

theorem requestDone_ok {q : KeyReq} (req : s.sec.req = some q) :
    requestDone true s = ({ s.endRequest with fuses := blown s.fuses q } : State).reqStat 2 0 := by
  unfold requestDone
  rw [req]
  cases q with
  | svnCommit v => rfl
  | revoke i => rfl

/-- R430: what a failed request leaves of its fuses. -/
def State.burnFailed (s : State) : KeyReq → State
  | .svnCommit v => s.partCommit v
  | .revoke _ => s

theorem requestDone_failed {q : KeyReq} (req : s.sec.req = some q) : requestDone false s = (s.endRequest.burnFailed q).reqStat 3 3 := by
  unfold requestDone
  rw [req]
  cases q with
  | svnCommit v => rfl
  | revoke i => rfl

/-- R430: a commit that fails stays between the old version and its target. -/
theorem State.partCommit_svn (s : State) (v : Nat) :
    s.fuses.svn ≤ (s.partCommit v).fuses.svn ∧ (s.partCommit v).fuses.svn ≤ max v s.fuses.svn ∧
      (s.partCommit v).fuses.revoked = s.fuses.revoked := by
  unfold State.partCommit
  split
  next below =>
    have part : s.free % (v - s.fuses.svn) < v - s.fuses.svn := Nat.mod_lt _ (by omega)
    refine ⟨Nat.le_add_right _ _, ?_, rfl⟩
    show s.fuses.svn + s.free % (v - s.fuses.svn) ≤ _
    omega
  · exact ⟨Nat.le_refl _, le_max_right _ _, rfl⟩

theorem requestDone_effect {q : KeyReq} (up : pkgUp s = true) (req : s.sec.req = some q) :
    (∃ u, exec (.keyEngineRequestDone true) s = .next u ∧ SameBut [.fuses, .regs, .sec] s u ∧ u.sec = { s.sec with req := none } ∧
      u.fld (secReg 0x054) 0 2 = 2 ∧ u.fuses = blown s.fuses q) ∧
    (∃ u, exec (.keyEngineRequestDone false) s = .next u ∧ SameBut [.fuses, .regs, .sec, .freeCtr] s u ∧
      u.sec = { s.sec with req := none } ∧ u.fld (secReg 0x054) 0 2 = 3 ∧ u.fld (secReg 0x054) 4 4 = 3 ∧
      u.fuses.revoked = s.fuses.revoked ∧ (∀ v, q = .svnCommit v → s.fuses.svn ≤ u.fuses.svn ∧ u.fuses.svn ≤ max v s.fuses.svn)) := by
  have over_ : SameBut [.sec] s s.endRequest := SameBut.lit_sec (.refl s) rfl
  refine ⟨?_, ?_⟩
  · have body : exec (.keyEngineRequestDone true) s = .next (({ s.endRequest with fuses := blown s.fuses q } : State).reqStat 2 0) :=
      congrArg Host.Outcome.next ((if_pos up).trans (requestDone_ok req))
    generalize hv : ({ s.endRequest with fuses := blown s.fuses q } : State) = v at body
    have burnt : SameBut [.fuses, .sec] s v := hv ▸ SameBut.lit_fuses (over_.mono rfl) rfl
    have fuses : v.fuses = blown s.fuses q := by rw [← hv]
    have sec : v.sec = { s.sec with req := none } := by
      rw [← hv]
      rfl
    obtain ⟨frame, -, state, -⟩ := v.reqStat_effect (state := 2) (code := 0) (by decide) (by decide)
    refine ⟨_, body, (burnt.mono rfl).trans (frame.mono rfl), (frame.sec (by decide)).trans sec, state, (frame.fuses (by decide)).trans fuses⟩
  · have body : exec (.keyEngineRequestDone false) s = .next ((s.endRequest.burnFailed q).reqStat 3 3) :=
      congrArg Host.Outcome.next ((if_pos up).trans (requestDone_failed req))
    have burnt : SameBut [.fuses, .freeCtr] s.endRequest (s.endRequest.burnFailed q) := by
      cases q with
      | svnCommit v => exact State.partCommit_same _ (.refl _) rfl
      | revoke i => exact .refl _
    have fuses : (s.endRequest.burnFailed q).fuses.revoked = s.fuses.revoked ∧ ∀ v, q = .svnCommit v →
        s.fuses.svn ≤ (s.endRequest.burnFailed q).fuses.svn ∧ (s.endRequest.burnFailed q).fuses.svn ≤ max v s.fuses.svn := by
      cases q with
      | svnCommit v =>
        obtain ⟨low, high, revoked⟩ := s.endRequest.partCommit_svn v
        refine ⟨revoked, fun w hw => ?_⟩
        cases hw
        exact ⟨low, high⟩
      | revoke i => exact ⟨rfl, fun v h => absurd h (by simp)⟩
    have sec : (s.endRequest.burnFailed q).sec = { s.sec with req := none } := burnt.sec (by decide)
    have all : SameBut [.fuses, .regs, .sec, .freeCtr] s (s.endRequest.burnFailed q) := (over_.mono rfl).trans (burnt.mono rfl)
    generalize s.endRequest.burnFailed q = v at *
    obtain ⟨frame, -, state, code⟩ := v.reqStat_effect (state := 3) (code := 3) (by decide) (by decide)
    rw [← frame.fuses (by decide)] at fuses
    exact ⟨_, body, all.trans (frame.mono rfl), (frame.sec (by decide)).trans sec, state, code, fuses.1, fuses.2⟩

/-! ### Debug tokens (R451, R452) -/

/-- The registers of the interfaces. -/
def TdiRegs (a : Nat) : Prop := ∃ n, a = psecReg n 0x064

theorem secReg_not_tdi {o : Nat} (ho : o < 4096) : ¬ TdiRegs (secReg o) := by
  rintro ⟨n, e⟩
  have := (regAddr_eq e ho (by decide)).1
  omega

theorem RegsBut.tdiError {n : Nat} (h : RegsBut TdiRegs s0 s) : RegsBut TdiRegs s0 (s.tdiError n) :=
  have error := h.setFld (lo := 0) (w := 2) (x := 3) (a := psecReg n 0x064) ⟨n, rfl⟩
  .ite (error.same (State.resetPart_same (msk := [.parts, .cores, .faults, .dbg, .wire]) _ _ (.refl _) rfl) (by decide)) h

/-- R452: every locked interface enters ERROR. -/
def State.tdiErrors (s : State) : State := (List.range 16).foldl (fun s n => s.tdiError n) s

theorem State.tdiErrors_effect (s : State) :
    RegsBut TdiRegs s s.tdiErrors ∧ SameBut [.regs, .parts, .cores, .faults, .dbg, .wire] s s.tdiErrors :=
  ⟨(RegsBut.refl s).foldl fun _ _ _ h => h.tdiError, SameBut.foldl (.refl s) fun _ _ h => State.tdiError_same _ h rfl⟩

/-- R452: the keys are locked and the sessions end. -/
def State.endSessions (s : State) : State :=
  let s1 := (s.setBit (secReg 0x040) 17).setBit (secReg 0x040) 16
  { s1 with sec := { s1.sec with sessions := [], meas := tput [] s1.sec.meas 16 (setNth 0 (tget [] s1.sec.meas 16) 0
    (nth 0 (tget [] s1.sec.meas 16) 0 ||| 1)) } }

theorem State.unlockDebug_eq (s : State) (level : Nat) :
    s.unlockDebug level = s.endSessions.tdiErrors.setFld (secReg 0x080) 0 2 (max (s.endSessions.tdiErrors.fld (secReg 0x080) 0 2) level) := rfl

theorem State.endSessions_effect (s : State) :
    s.endSessions.bit (secReg 0x040) 16 = true ∧ s.endSessions.bit (secReg 0x040) 17 = true ∧ s.endSessions.sec.sessions = [] ∧
      s.endSessions.fld (secReg 0x080) 0 2 = s.fld (secReg 0x080) 0 2 := by
  unfold State.endSessions
  dsimp only
  generalize hu : (s.setBit (secReg 0x040) 17).setBit (secReg 0x040) 16 = u
  have first : u.bit (secReg 0x040) 16 = true := hu ▸ State.bit_setBit_same _ _ (by decide)
  have second : u.bit (secReg 0x040) 17 = true := hu ▸ State.bit_setBit_of_bit (by decide) (s.bit_setBit_same _ (by decide))
  have level : u.fld (secReg 0x080) 0 2 = s.fld (secReg 0x080) 0 2 := by
    rw [← hu]
    unfold State.fld
    rw [State.reg_setBit_ne _ _ (by decide), State.reg_setBit_ne _ _ (by decide)]
  exact ⟨first, second, rfl, level⟩

/-- R452: what an accepted token leaves. -/
theorem State.unlockDebug_effect (s : State) {level : Nat} (hl : level < 4) :
    (s.unlockDebug level).bit (secReg 0x040) 16 = true ∧ (s.unlockDebug level).bit (secReg 0x040) 17 = true ∧
      (s.unlockDebug level).sec.sessions = [] ∧
      (s.unlockDebug level).fld (secReg 0x080) 0 2 = max (s.fld (secReg 0x080) 0 2) level := by
  rw [State.unlockDebug_eq]
  obtain ⟨first, second, sessions, before⟩ := s.endSessions_effect
  generalize s.endSessions = u at *
  obtain ⟨regs, frame⟩ := u.tdiErrors_effect
  generalize u.tdiErrors = v at *
  have old : v.fld (secReg 0x080) 0 2 = s.fld (secReg 0x080) 0 2 := (regs.fld (secReg_not_tdi (by decide)) 0 2).trans before
  have raised : SameBut [.regs] v (v.setFld (secReg 0x080) 0 2 (max (v.fld (secReg 0x080) 0 2) level)) := State.setFld_same _ _ _ _ (.refl v) rfl
  have kept : ∀ i, (v.setFld (secReg 0x080) 0 2 (max (v.fld (secReg 0x080) 0 2) level)).bit (secReg 0x040) i = v.bit (secReg 0x040) i := fun i =>
    (otherRegs_setFld (l := [secReg 0x080]) _ _ _ (by simp)).bit (by decide) i
  refine ⟨?_, ?_, ?_, ?_⟩
  · rw [kept, regs.bit (secReg_not_tdi (by decide)), first]
  · rw [kept, regs.bit (secReg_not_tdi (by decide)), second]
  · rw [raised.sec (by decide), frame.sec (by decide), sessions]
  · rw [State.fld_setFld_same _ _ _ (by decide), old]
    have small := s.fld_lt (secReg 0x080) 0 2
    exact Nat.mod_eq_of_lt (max_lt small hl)

theorem tokenOk_level {l : List Byte} (h : tokenOk s l = true) : leAt l 64 1 < 4 := by
  unfold tokenOk at h
  simp only [Bool.and_eq_true, Bool.or_eq_true, beq_iff_eq, decide_eq_true_eq] at h
  obtain ⟨⟨⟨⟨⟨-, level⟩, -⟩, -⟩, -⟩, -⟩ := h
  omega

/-! ### Owners (R448, R454) -/

/-- The lock's own word is not an owner register. -/
theorem ownerReg_ne_lock (x : OwnedId) : ownerReg x ≠ ownerReg x / 4096 * 4096 + 0x02C := by
  cases x with
  | barge n =>
    show brgReg (2048 + n.val) 0x05C ≠ brgReg (2048 + n.val) 0x05C / 4096 * 4096 + 0x02C
    unfold brgReg regAddr
    rw [if_neg (by omega)]
    omega
  | media n =>
    show medReg n.val 0x044 ≠ medReg n.val 0x044 / 4096 * 4096 + 0x02C
    unfold medReg regAddr
    omega
  | endpoint n =>
    have := n.isLt
    show colReg (0x040 + 4 * n.val) ≠ colReg (0x040 + 4 * n.val) / 4096 * 4096 + 0x02C
    unfold colReg regAddr
    omega

theorem writeOwner_locked {x : OwnedId} (v : Word) (locked : pageLocked s (ownerReg x) = true) :
    writeOwner x v s = s.wrRej (ownerReg x) := by
  unfold writeOwner
  dsimp only
  exact if_pos locked

theorem writeOwner_frozen {x : OwnedId} {v : Word} {n : Nat} (free : pageLocked s (ownerReg x) = false)
    (frozen : frozenBy s (s.fld (ownerReg x) 0 5) (nbits v.toNat 0 5) = some n) : writeOwner x v s = s.setBit (psecReg n 0x064) 3 := by
  unfold writeOwner
  dsimp only
  rw [if_neg (by simp [free]), frozen]

theorem writeOwner_free {x : OwnedId} {v : Word} (free : pageLocked s (ownerReg x) = false)
    (thawed : frozenBy s (s.fld (ownerReg x) 0 5) (nbits v.toNat 0 5) = none) :
    writeOwner x v s = if s.fld (ownerReg x) 0 5 ≠ nbits v.toNat 0 5 ∧ ownedStopped s x = true then
      (s.clearUnit x).setFld (ownerReg x) 0 5 (nbits v.toNat 0 5) else s := by
  unfold writeOwner
  dsimp only
  rw [if_neg (by simp [free]), thawed]

theorem exec_ownerWrite {x : OwnedId} (v : Word) (served : reach s .pf false (ownerReg x) = .ok) :
    exec (.ownerWrite .pf x v) s = .next (writeOwner x v s) := outcome_access (r := .pf) _ served

theorem ownerWrite_effect (x : OwnedId) (v : Word) (served : reach s .pf false (ownerReg x) = .ok) :
    (pageLocked s (ownerReg x) = true → ∃ u, exec (.ownerWrite .pf x v) s = .next u ∧ SameBut [.regs] s u ∧
      u.fld (ownerReg x) 0 5 = s.fld (ownerReg x) 0 5) ∧
    (pageLocked s (ownerReg x) = false → (∀ n, frozenBy s (s.fld (ownerReg x) 0 5) (nbits v.toNat 0 5) = some n →
      ∃ u, exec (.ownerWrite .pf x v) s = .next u ∧ SameBut [.regs] s u ∧ OtherRegs [psecReg n 0x064] s u ∧
        u.bit (psecReg n 0x064) 3 = true)) ∧
    (pageLocked s (ownerReg x) = false → frozenBy s (s.fld (ownerReg x) 0 5) (nbits v.toNat 0 5) = none →
      ∃ u, exec (.ownerWrite .pf x v) s = .next u ∧ SameBut [.regs, .chans, .reqTabs, .eps, .media] s u ∧
        (ownedStopped s x = true → u.fld (ownerReg x) 0 5 = nbits v.toNat 0 5) ∧ (ownedStopped s x = false → u = s)) := by
  refine ⟨fun locked => ?_, fun free n frozen => ?_, fun free thawed => ?_⟩
  · refine ⟨_, (exec_ownerWrite v served).trans (congrArg _ (writeOwner_locked v locked)), State.wrRej_same _ (.refl s) rfl, ?_⟩
    unfold State.wrRej State.fld
    rw [State.reg_setBit_ne _ _ (ownerReg_ne_lock x)]
  · exact ⟨_, (exec_ownerWrite v served).trans (congrArg _ (writeOwner_frozen free frozen)), State.setBit_same _ _ (.refl s) rfl,
      otherRegs_setBit _ (by simp), s.bit_setBit_same _ (by decide)⟩
  · refine ⟨_, exec_ownerWrite v served, writeOwner_same _ _ (.refl s) rfl, fun stopped => ?_, fun runs => ?_⟩
    · rw [writeOwner_free free thawed]
      by_cases same : s.fld (ownerReg x) 0 5 = nbits v.toNat 0 5
      · rw [if_neg fun h => h.1 same, same]
      · rw [if_pos ⟨same, stopped⟩, State.fld_setFld_same _ _ _ (by decide)]
        exact Nat.mod_eq_of_lt (Nat.mod_lt _ (by decide))
    · rw [writeOwner_free free thawed]
      exact if_neg fun h => absurd h.2 (by simp [runs])

/-- Settles O51: requests through `reqStat_effect`, tokens through `unlockDebug_effect`, the entropy source through `xngDown_effect`. -/
theorem fusesTokensAndOwners : Obligations.FusesTokensAndOwners := by
  unfold Obligations.FusesTokensAndOwners
  refine fun s => ⟨fun r served idle => ⟨(svnCommit_effect served idle).1, (svnCommit_effect served idle).2, fun pf unread => ?_,
    fun t l pf image bad => ?_, fun t l pf image form fused whole => ?_⟩, fun q up req => ?_,
    fun l up => ⟨fun bad => ?_, fun ok => ?_⟩, fun x v served => ownerWrite_effect x v served, fun up => ?_⟩
  · subst pf
    obtain ⟨frame, -, state, code⟩ := s.reqStat_effect (state := 3) (code := 1) (by decide) (by decide)
    exact ⟨_, (outcome_access (r := .pf) _ served).trans (congrArg _ (revokeCmd_unreadable idle unread)), state, code,
      frame.fuses (by decide), frame.sec (by decide)⟩
  · subst pf
    obtain ⟨frame, -, state, code⟩ := t.reqStat_effect (state := 3) (code := 1) (by decide) (by decide)
    exact ⟨_, (outcome_access (r := .pf) _ served).trans (congrArg _ ((revokeCmd_eq idle image).trans (if_pos (by simp [bad])))),
      frame, state, code⟩
  · subst pf
    exact ⟨_, outcome_access (r := .pf) _ served, revokeSubmit_sound idle image (by simp [form, fused, whole]) _ rfl⟩
  · obtain ⟨⟨u, body, frame, sec, state, fuses⟩, failed⟩ := requestDone_effect up req
    refine ⟨⟨u, body, frame, sec, state, ?_⟩, failed⟩
    cases q with
    | svnCommit v => exact fuses
    | revoke i => exact fuses
  · exact ⟨_, congrArg Host.Outcome.next ((if_pos rfl).trans ((if_pos up).trans (if_neg (by simp [bad])))),
      State.setBit_same _ _ (.refl s) rfl, otherRegs_setBit _ (by simp), s.bit_setBit_same _ (by decide)⟩
  · exact ⟨_, congrArg Host.Outcome.next ((if_pos rfl).trans ((if_pos up).trans (if_pos ok))), State.unlockDebug_same _ (.refl s) rfl,
      s.unlockDebug_effect (tokenOk_level ok)⟩
  · exact ⟨_, congrArg Host.Outcome.next (if_pos up), rngFail_same (.refl s) rfl, rngFail_effect s⟩

end Fuses
end Sys2Proof.Machine
end

section
/-!
Ferries: admission (R397 to R399), loss and readmission (R400).
-/
namespace Sys2Proof.Machine

section Ferries
variable {s : State} {i : Nat}

/-! ### The status register (R404) -/

/-- R404: the fields of `FERRY_STAT`. -/
theorem State.setFerry_effect (s : State) (i modules : Nat) (ucie2 : Bool) {state reason : Nat} (hs : state < 8) (hr : reason < 16) :
    ferryState (s.setFerry i state reason modules ucie2) i = state ∧
      (s.setFerry i state reason modules ucie2).fld (ferReg i 0x040) 3 4 = reason ∧
      ∀ a, a ≠ ferReg i 0x040 → (s.setFerry i state reason modules ucie2).reg a = s.reg a := by
  have word : state + reason * 8 + modules % 256 * 128 + b2n ucie2 * 32768 < 2 ^ 32 ∧
      nbits (state + reason * 8 + modules % 256 * 128 + b2n ucie2 * 32768) 0 3 = state ∧
      nbits (state + reason * 8 + modules % 256 * 128 + b2n ucie2 * 32768) 3 4 = reason := by
    have bit : b2n ucie2 ≤ 1 := by cases ucie2 <;> decide
    have number : modules % 256 < 256 := Nat.mod_lt _ (by decide)
    generalize modules % 256 = m at *
    generalize b2n ucie2 = b at *
    unfold nbits
    norm_num
    omega
  obtain ⟨small, low, high⟩ := word
  unfold State.setFerry
  refine ⟨?_, ?_, fun a ha => State.reg_setReg_ne _ _ ha⟩
  · unfold ferryState State.fld
    rw [State.reg_setReg_same, BitVec.toNat_ofNat, Nat.mod_eq_of_lt small, low]
  · unfold State.fld
    rw [State.reg_setReg_same, BitVec.toNat_ofNat, Nat.mod_eq_of_lt small, high]

/-- The measurement of site `i` is the one given. -/
theorem State.setFerryMeas_meas (s : State) (i : Nat) (m : List Byte) : tget [] (s.setFerryMeas i m).sec.meas (6 + i) = m :=
  tget_tput_same [] s.sec.meas (6 + i) m

theorem State.setFerryMeas_frame (s : State) (i : Nat) (m : List Byte) : SameBut [.sec] s (s.setFerryMeas i m) :=
  State.setFerryMeas_same _ _ (.refl s) rfl

theorem ferReg_not_down {n : Nat} : ¬ DownRegs n (ferReg i 0x040) := by
  rintro (e | ⟨st, hst, o, ho, e⟩ | ⟨k, hk, o, ho, e⟩ | ⟨c, e⟩ | ⟨f, e⟩)
  · exact absurd (regAddr_eq e (by decide) (by decide)).2 (by decide)
  · have := (regAddr_eq e (by decide) ho).1
    omega
  · have := (regAddr_eq e (by decide) ho).1
    omega
  · unfold cntPage at e
    split_ifs at e
    all_goals exact absurd (regAddr_eq e (by decide) (by decide)).2 (by decide)
  · exact ne_errReg_of_offset (by decide) (by decide) f e

/-! ### Admission (R397 to R399) -/

/-- R397: the registers in which the ditch rider notes what it reads; the version is one of them. -/
theorem State.readFerry_version (s : State) (i : Nat) (x : FerryInfo) : (s.readFerry i x).reg (ferReg i 0x048) = x.version := by
  have apart : ∀ {o o' : Nat}, o < 4096 → o' < 4096 → o ≠ o' → ferReg i o ≠ ferReg i o' := fun ho ho' ne e => ne (regAddr_eq e ho ho').2
  have digest : ∀ (l : List Nat), (∀ k ∈ l, k < 8) → ∀ u : State,
      (l.foldl (fun s k => s.setReg (ferReg i (0x060 + 4 * k)) (BitVec.ofNat 32 (leAt x.meas (4 * k) 4))) u).reg (ferReg i 0x048) =
        u.reg (ferReg i 0x048) := by
    intro l
    induction l with
    | nil => exact fun _ _ => rfl
    | cons k l ih =>
      intro hl u
      have hk := hl k List.mem_cons_self
      rw [List.foldl_cons, ih (fun k hk => hl k (List.mem_cons_of_mem _ hk)),
        State.reg_setReg_ne _ _ (apart (by decide) (by omega) (by omega))]
  unfold State.readFerry
  dsimp only
  rw [digest _ fun k hk => List.mem_range.1 hk, State.reg_setReg_ne _ _ (apart (by decide) (by decide) (by decide)),
    State.reg_setReg_ne _ _ (apart (by decide) (by decide) (by decide)), State.reg_setReg_same]

/-- R397: the lanes of the site are released. -/
def State.releaseLanes (s : State) (i : Nat) : State := (siteXngs i).foldl (fun s n => (s.xngDetect n).markLane n) s

theorem State.releaseLanes_frame (s : State) (i : Nat) : SameBut [.xngs] s (s.releaseLanes i) :=
  SameBut.foldl (.refl s) fun _ _ h => State.markLane_same _ (State.xngDetect_same _ h rfl) rfl

theorem State.admitFerry_eq (s : State) (i : Nat) (x : FerryInfo) :
    s.admitFerry i x = (((s.readFerry i x).setFerry i 4 0 (x.modules.toNat % (if i = 8 then 16 else 256)) x.ucie2).setFerryMeas i
      (x.meas.take 32)).releaseLanes i := rfl

theorem State.admitFerry_effect (s : State) (i : Nat) (x : FerryInfo) :
    ferryState (s.admitFerry i x) i = 4 ∧ (s.admitFerry i x).fld (ferReg i 0x040) 3 4 = 0 ∧
      tget [] (s.admitFerry i x).sec.meas (6 + i) = x.meas.take 32 ∧ (s.admitFerry i x).reg (ferReg i 0x048) = x.version := by
  rw [State.admitFerry_eq]
  have version := s.readFerry_version i x
  generalize s.readFerry i x = u at *
  obtain ⟨state, reason, others⟩ := u.setFerry_effect i (x.modules.toNat % (if i = 8 then 16 else 256)) x.ucie2 (state := 4) (reason := 0)
    (by decide) (by decide)
  have noted := others (ferReg i 0x048) fun e => absurd (regAddr_eq e (by decide) (by decide)).2 (by decide)
  generalize u.setFerry i 4 0 (x.modules.toNat % (if i = 8 then 16 else 256)) x.ucie2 = v at *
  have measured := v.setFerryMeas_meas i (x.meas.take 32)
  have frame := v.setFerryMeas_frame i (x.meas.take 32)
  generalize v.setFerryMeas i (x.meas.take 32) = w at *
  have lanes := w.releaseLanes_frame i
  unfold ferryState at *
  refine ⟨?_, ?_, ?_, ?_⟩
  · rw [lanes.fld (by decide), frame.fld (by decide), state]
  · rw [lanes.fld (by decide), frame.fld (by decide), reason]
  · rw [lanes.sec (by decide), measured]
  · rw [lanes.reg (by decide), frame.reg (by decide), noted, version]

/-- R399: the crossings of the site go dark. -/
def State.darkenSite (s : State) (i : Nat) : State := (siteXngs i).foldl (fun s n => s.xngDark n) s

theorem foldl_xngDark {l : List Nat} {j : Nat} (h : (s.xng j).state = .disabled ∨ j ∈ l) :
    ((l.foldl (fun s n => s.xngDark n) s).xng j).state = .disabled := by
  induction l generalizing s with
  | nil => exact h.resolve_right (by simp)
  | cons n l ih =>
    rw [List.foldl_cons]
    refine ih ?_
    unfold State.xngDark
    rw [State.xng_updXng]
    by_cases e : j = n
    · rw [if_pos e]
      exact .inl rfl
    · rw [if_neg e]
      exact h.imp_right fun h => List.mem_of_ne_of_mem e h

theorem State.darkenSite_effect (s : State) (i : Nat) :
    SameBut [.xngs] s (s.darkenSite i) ∧ ∀ n ∈ siteXngs i, ((s.darkenSite i).xng n).state = .disabled :=
  ⟨SameBut.foldl (.refl s) fun _ _ h => State.xngDark_same _ h rfl, fun _ hn => foldl_xngDark (.inr hn)⟩

/-- R399: the rejection at site L is logged and printed. -/
def State.tellRejection (s : State) (i reason : Nat) : State := if i = 8 then (s.bootLog 3 0).send (.uart [BitVec.ofNat 8 reason]) else s

theorem State.rejectFerry_eq (s : State) (i : Nat) (x : FerryInfo) (reason : Nat) :
    s.rejectFerry i x reason = ((((if x.answers then s.readFerry i x else s).setFerry i 5 reason 0 x.ucie2).setFerryMeas i
      (List.replicate 32 0)).darkenSite i).tellRejection i reason := rfl

theorem State.rejectFerry_effect (s : State) (i : Nat) (x : FerryInfo) {reason : Nat} (hr : reason < 16) :
    ferryState (s.rejectFerry i x reason) i = 5 ∧ (s.rejectFerry i x reason).fld (ferReg i 0x040) 3 4 = reason ∧
      tget [] (s.rejectFerry i x reason).sec.meas (6 + i) = List.replicate 32 0 ∧
      ∀ n ∈ siteXngs i, ((s.rejectFerry i x reason).xng n).state = .disabled := by
  rw [State.rejectFerry_eq]
  generalize (if x.answers = true then s.readFerry i x else s) = u
  obtain ⟨state, why, -⟩ := u.setFerry_effect i 0 x.ucie2 (state := 5) (reason := reason) (by decide) hr
  generalize u.setFerry i 5 reason 0 x.ucie2 = v at *
  have measured := v.setFerryMeas_meas i (List.replicate 32 0)
  have frame := v.setFerryMeas_frame i (List.replicate 32 0)
  generalize v.setFerryMeas i (List.replicate 32 0) = w at *
  obtain ⟨dark, off⟩ := w.darkenSite_effect i
  generalize w.darkenSite i = y at *
  have told : SameBut [.freeCtr, .boot, .store, .wire] y (y.tellRejection i reason) :=
    SameBut.ite (State.send_same _ (State.bootLog_same _ _ (.refl y) rfl) rfl) (.refl y)
  unfold ferryState at *
  refine ⟨?_, ?_, ?_, fun n hn => ?_⟩
  · rw [told.fld (by decide), dark.fld (by decide), frame.fld (by decide), state]
  · rw [told.fld (by decide), dark.fld (by decide), frame.fld (by decide), why]
  · rw [told.sec (by decide), dark.sec (by decide), measured]
  · rw [told.xng (by decide), off n hn]

theorem allowReason_lt {x : FerryInfo} {e : List Byte} {reason : Nat} (h : allowReason x e = some reason) : reason < 16 := by
  unfold allowReason at h
  dsimp only at h
  split_ifs at h
  all_goals
    cases h
    decide

theorem ferryReason_lt {x : FerryInfo} {reason : Nat} (h : ferryReason s i x = some reason) : reason < 16 := by
  unfold ferryReason at h
  split_ifs at h
  · cases h
    decide
  · cases h
    decide
  · cases h
    decide
  · unfold listReason at h
    split at h
    · cases h
      decide
    · split at h
      · exact absurd h (by simp)
      · exact allowReason_lt h

/-! ### Loss (R400) -/

theorem State.ferryXngLost_effect (s : State) (n : Nat) :
    ((s.xng n).state ≠ .disabled → ((s.ferryXngLost n).xng n).state = .down) ∧ (∀ j, j ≠ n → (s.ferryXngLost n).xng j = s.xng j) ∧
      ((s.xng n).state = .disabled → s.ferryXngLost n = s) ∧ RegsBut (DownRegs n) s (s.ferryXngLost n) := by
  unfold State.ferryXngLost
  split
  next dark => exact ⟨fun h => absurd dark h, fun _ _ => rfl, fun _ => rfl, .refl s⟩
  next live =>
    obtain ⟨down, others, regs⟩ := s.xngDown_effect n 10
    exact ⟨fun _ => down, others, fun h => absurd h live, regs⟩

/-- R400: the crossings of the site are lost. -/
def State.loseSite (s : State) (i : Nat) : State := (siteXngs i).foldl (fun s n => s.ferryXngLost n) s

theorem foldl_ferryXngLost {l : List Nat} (nodup : l.Nodup) :
    (∀ n, n ∉ l → (l.foldl (fun s n => s.ferryXngLost n) s).xng n = s.xng n) ∧
      (∀ n ∈ l, (s.xng n).state ≠ .disabled → ((l.foldl (fun s n => s.ferryXngLost n) s).xng n).state = .down) ∧
      ferryState (l.foldl (fun s n => s.ferryXngLost n) s) i = ferryState s i := by
  induction l generalizing s with
  | nil => exact ⟨fun _ _ => rfl, fun n hn => absurd hn (by simp), rfl⟩
  | cons m l ih =>
    obtain ⟨fresh, rest⟩ := List.nodup_cons.1 nodup
    obtain ⟨down, others, -, regs⟩ := s.ferryXngLost_effect m
    obtain ⟨others', down', state'⟩ := ih (s := s.ferryXngLost m) rest
    rw [List.foldl_cons]
    refine ⟨fun n hn => ?_, fun n hn live => ?_, state'.trans (regs.fld ferReg_not_down 0 3)⟩
    · rw [others' n fun h => hn (List.mem_cons_of_mem _ h), others n fun h => hn (List.mem_cons.2 (.inl h))]
    · rcases List.mem_cons.1 hn with rfl | inTail
      · rw [others' n fresh]
        exact down live
      · have ne : n ≠ m := fun h => fresh (h ▸ inTail)
        exact down' n inTail (by rw [others n ne]; exact live)

theorem siteXngs_nodup (i : Nat) : (siteXngs i).Nodup := by
  unfold siteXngs
  split
  · exact (List.nodup_range (n := 4)).map fun _ _ h => Nat.add_left_cancel h
  · exact List.nodup_nil

/-- The site's state and measurement are set, and its crossings taken down. -/
def State.dropSite (s : State) (i state : Nat) (ucie2 : Bool) : State :=
  ((s.setFerry i state 0 0 ucie2).setFerryMeas i (List.replicate 32 0)).loseSite i

theorem State.dropSite_effect (s : State) (i : Nat) (ucie2 : Bool) {state : Nat} (hs : state < 8) :
    SameBut [.regs, .slices, .dram, .chk, .net, .errs, .xngs, .eps, .coll, .cores, .caches, .sec, .cnts, .wire] s (s.dropSite i state ucie2) ∧
      ferryState (s.dropSite i state ucie2) i = state ∧ tget [] (s.dropSite i state ucie2).sec.meas (6 + i) = List.replicate 32 0 ∧
      ∀ n ∈ siteXngs i, (s.xng n).state ≠ .disabled → ((s.dropSite i state ucie2).xng n).state = .down := by
  unfold State.dropSite
  obtain ⟨named, -, -⟩ := s.setFerry_effect i 0 ucie2 (state := state) (reason := 0) hs (by decide)
  have written : SameBut [.regs] s (s.setFerry i state 0 0 ucie2) := State.setFerry_same _ _ _ _ _ (.refl s) rfl
  generalize s.setFerry i state 0 0 ucie2 = u at *
  have measured := u.setFerryMeas_meas i (List.replicate 32 0)
  have frame := u.setFerryMeas_frame i (List.replicate 32 0)
  generalize u.setFerryMeas i (List.replicate 32 0) = v at *
  have lost : SameBut [.regs, .slices, .dram, .chk, .net, .errs, .xngs, .eps, .coll, .cores, .caches, .cnts, .wire] v (v.loseSite i) :=
    SameBut.foldl (.refl v) fun _ _ h => State.ferryXngLost_same _ h rfl
  obtain ⟨-, down, state'⟩ := foldl_ferryXngLost (s := v) (i := i) (siteXngs_nodup i)
  refine ⟨((written.mono rfl).trans (frame.mono rfl)).trans (lost.mono rfl), ?_, ?_, fun n hn live => down n hn ?_⟩
  · exact state'.trans ((frame.fld (by decide) _ _ _).trans named)
  · rw [lost.sec (by decide), measured]
  · rw [frame.xng (by decide), written.xng (by decide)]
    exact live

/-- Settles O44: admission by its reason, loss and readmission through `dropSite_effect`. -/
theorem ferriesAreAdmittedAndLost : Obligations.FerriesAreAdmittedAndLost := by
  unfold Obligations.FerriesAreAdmittedAndLost
  refine fun s i => ⟨fun x up turn fresh unrejected => ?_, fun up admitted => ⟨fun below => ?_, fun landing => ?_⟩, fun r served => ?_⟩
  · have body : exec (.ferryAdmission i x) s = .next (match ferryReason s i.val x with
        | none => s.admitFerry i.val x
        | some reason => s.rejectFerry i.val x reason) := congrArg Host.Outcome.next (if_pos (by simp [up, turn, fresh, unrejected]))
    refine ⟨_, body, ?_⟩
    cases reason : ferryReason s i.val x with
    | none => exact ⟨State.admitFerry_same _ _ (.refl s) rfl, s.admitFerry_effect i.val x⟩
    | some why => exact ⟨State.rejectFerry_same _ _ _ (.refl s) rfl, s.rejectFerry_effect i.val x (ferryReason_lt reason)⟩
  · have body : exec (.ferryLost i false) s = .next (s.dropSite i.val 6 (s.bit (ferReg i.val 0x040) 15)) := by
      refine congrArg Host.Outcome.next ((if_pos (by simp [up, admitted])).trans ?_)
      unfold State.loseFerry
      rw [if_neg (by decide), if_neg (by omega)]
      rfl
    obtain ⟨frame, state, -, down⟩ := s.dropSite_effect i.val (s.bit (ferReg i.val 0x040) 15) (state := 6) (by decide)
    exact ⟨_, body, frame, state, down⟩
  · have body : exec (.ferryLost i false) s = .next (hotResetNow s) := by
      refine congrArg Host.Outcome.next ((if_pos (by simp [up, admitted])).trans ?_)
      unfold State.loseFerry
      rw [if_neg (by decide), if_pos landing]
    obtain ⟨running, number, rings, -, -, fuses, -⟩ := hotResetNow_effect s
    exact ⟨_, body, running, number, rings, fuses⟩
  · have stepped := s.reqStepped_frame r
    obtain ⟨frame, state, measured, down⟩ := (s.reqStepped r).dropSite_effect i.val false (state := 1) (by decide)
    refine ⟨_, outcome_access _ served, frame, state, measured, fun n hn live => down n hn ?_⟩
    rw [stepped.xng (by decide)]
    exact live

end Ferries
end Sys2Proof.Machine
end

section
/-!
Boot: what a stage leaves (R458 to R476, R483, R484), failures of the start (R461, R485) and the resets of BOOT_CTRL (R490).
-/
namespace Sys2Proof.Machine

section Boot
variable {s s0 : State}

/-! ### The stages passed -/

/-- The stages passed are as before. -/
def PassedKept (s t : State) : Prop := t.boot.passed = s.boot.passed

theorem PassedKept.refl (s : State) : PassedKept s s := rfl

theorem PassedKept.same {w : List Fld} {t : State} (h : PassedKept s0 s) (frame : SameBut w s t) (hw : Fld.boot ∉ w) : PassedKept s0 t :=
  (congrArg Boot.passed (frame.boot hw)).trans h

theorem PassedKept.ite {c : Prop} [Decidable c] {t u : State} (ht : PassedKept s t) (hu : PassedKept s u) :
    PassedKept s (if c then t else u) := by
  split
  · exact ht
  · exact hu

theorem PassedKept.foldl {α : Type} {f : State → α → State} {l : List α} (h : PassedKept s0 s)
    (hf : ∀ u a, PassedKept s0 u → PassedKept s0 (f u a)) : PassedKept s0 (l.foldl f s) := by
  induction l generalizing s with
  | nil => exact h
  | cons a l ih => exact ih (hf s a h)

theorem PassedKept.withBoot {b : Boot} (h : PassedKept s0 s) (hb : b.passed = s.boot.passed) : PassedKept s0 { s with boot := b } := hb.trans h

theorem PassedKept.withSec {x : Sec} (h : PassedKept s0 s) : PassedKept s0 { s with sec := x } := h

theorem PassedKept.setReg {a : Nat} {x : Word} (h : PassedKept s0 s) : PassedKept s0 (s.setReg a x) := h

theorem PassedKept.setFld {a lo w x : Nat} (h : PassedKept s0 s) : PassedKept s0 (s.setFld a lo w x) := h.setReg

theorem PassedKept.countAttempt {k : Nat} (h : PassedKept s0 s) : PassedKept s0 (s.attemptWrite k).showAttempts :=
  h.same (State.showAttempts_same (msk := [.store, .regs]) (State.attemptWrite_same k (.refl s) rfl) rfl) (by decide)

theorem State.bootLog_boot (s : State) (stage reason : Nat) :
    (s.bootLog stage reason).boot = { s.boot with logNext := s.boot.logNext + 1 } := by
  have drawn : SameBut [.freeCtr] s (s.freeBytes 22).1 := State.freeBytes_same _ (.refl s) rfl
  unfold State.bootLog
  generalize s.freeBytes 22 = f at *
  dsimp only
  rw [drawn.boot (by decide)]

theorem PassedKept.bootLog {stage reason : Nat} (h : PassedKept s0 s) : PassedKept s0 (s.bootLog stage reason) :=
  (congrArg Boot.passed (s.bootLog_boot stage reason)).trans h

theorem PassedKept.holdStack {k cause st : Nat} (h : PassedKept s0 s) : PassedKept s0 (s.holdStack k cause st) := by
  have marked : SameBut [.regs] s ((s.setBit (bootReg 0x04C) st).setFld (bootReg (0x050 + 4 * (st / 8))) (4 * (st % 8)) 4 cause) :=
    State.setFld_same _ _ _ _ (State.setBit_same _ _ (.refl s) rfl) rfl
  have logged := (h.same marked (by decide)).bootLog (stage := k) (reason := 0)
  exact .ite h (.ite logged (logged.same (State.clearStack_same (msk := [.regs, .caps, .plots, .chans, .slices, .norias, .dram, .chk, .net, .links,
    .reqTabs, .stks, .sensors, .cores, .caches, .dbg, .cnts]) _ (.refl _) rfl) (by decide)))

theorem PassedKept.endSettings (h : PassedKept s0 s) : PassedKept s0 s.endSettings := by
  have counted := h.countAttempt (k := 1)
  unfold State.endSettings
  dsimp only
  generalize (s.attemptWrite 1).showAttempts = u at *
  have read := (counted.withBoot (b := { u.boot with devRec := deviceRecord s }) rfl).setFld (a := xpkReg 0x040) (lo := 0) (w := 16)
    (x := df (deviceRecord s) 0 0 16)
  generalize State.setFld _ (xpkReg 0x040) 0 16 _ = v at *
  cases allowImage s with
  | some l => exact .ite read.withSec.bootLog read.withSec
  | none => exact .ite read.bootLog read

theorem PassedKept.endImage {b : Bool} (h : PassedKept s0 s) : PassedKept s0 (s.endImage b) := by
  unfold State.endImage
  dsimp only
  generalize hu : List.foldl _ s _ = u
  have logged : PassedKept s0 u := hu ▸ h.foldl fun _ _ h => h.bootLog
  generalize hv : State.setFld _ (secReg 0x044) 16 7 _ = v
  have read : PassedKept s0 v := by
    rw [← hv]
    refine PassedKept.setFld (PassedKept.setFld (PassedKept.setFld ?_))
    exact logged.withBoot rfl
  exact read.withSec

theorem PassedKept.repairRow {k bank row : Nat} (h : PassedKept s0 s) : PassedKept s0 (s.repairRow k bank row) :=
  .ite h.bootLog (h.same (State.updSlc_same (msk := [.slices]) _ _ (.refl s) rfl) (by decide))

theorem PassedKept.endFuses (h : PassedKept s0 s) : PassedKept s0 s.endFuses := by
  unfold State.endFuses
  dsimp only
  refine PassedKept.foldl (PassedKept.foldl (PassedKept.foldl h fun u st hu => ?_) fun _ _ hu => hu.repairRow) fun _ _ hu => hu.repairRow
  exact hu.same (State.mapSites_same (msk := [.regs, .stks]) _ (State.updStk_same _ _ (.refl u) rfl) rfl) (by decide)

theorem PassedKept.endReady (h : PassedKept s0 s) : PassedKept s0 s.endReady := by
  have shown := (h.setFld (a := bootReg 0x040) (lo := 5) (w := 2) (x := 1)).setReg (a := bootReg 0x048)
    (x := BitVec.ofNat 32 ((s.tb - s.boot.startAt) / 100000))
  unfold State.endReady
  dsimp only
  generalize State.setReg _ (bootReg 0x048) _ = u at *
  have logged := shown.countAttempt (k := 2) |>.bootLog (stage := 0x10) (reason := 0)
  generalize State.bootLog _ 0x10 0 = v at *
  exact PassedKept.same (s := { v with boot := { v.boot with running := false, failedSlots := [] } }) (logged.withBoot rfl) (State.fixMeas_same (msk := [.sec]) (.refl _) rfl) (by decide)

theorem PassedKept.stageEffect {k : Nat} (h : PassedKept s0 s) : PassedKept s0 (s.stageEffect k) := by
  unfold State.stageEffect
  split
  · exact h.endSettings
  · split
    · exact h.endImage
    · exact h
  · exact h
  · exact h
  · exact h.endFuses
  · exact h.same (State.endClocks_same (msk := [.regs, .stks, .wire]) (.refl s) rfl) (by decide)
  · exact h.same (SameBut.foldl (msk := [.regs]) (.refl s) fun _ _ h => State.linksUp_same _ h rfl) (by decide)
  · exact h.same (SameBut.foldl (msk := [.regs]) (.refl s) fun _ _ h => State.filledStack_same _ h rfl) (by decide)
  · exact h.same (State.endTests_same (msk := [.regs, .slices, .dram, .chk, .sensors, .errs, .cores, .faults, .cnts, .wire]) (.refl s) rfl)
      (by decide)
  · exact h
  · exact h.endReady
  · exact h

theorem PassedKept.assignRecord {n w : Nat} (h : PassedKept s0 s) : PassedKept s0 (s.assignRecord n w) := by
  have set := h.same (State.setFld_same (msk := [.regs]) (partCfgReg n) 0 8 (nbits w 0 8) (.refl s) rfl) (by decide)
  unfold State.assignRecord
  dsimp only
  generalize s.setFld (partCfgReg n) 0 8 (nbits w 0 8) = u at *
  refine .ite h (.ite h.bootLog (.ite ?_ ?_))
  · exact set.same (State.setPState_same (msk := [.parts, .cores, .wire]) _ _ (State.updPart_same _ _ (.refl u) rfl) rfl) (by decide)
  · exact set.same (State.assignPart_same (msk := [.regs, .caps, .plots, .chans, .slices, .norias, .dram, .chk, .net, .links, .reqTabs, .stks,
      .sensors, .parts, .cores, .caches, .faults, .dbg, .cnts, .wire]) _ _ _ (.refl u) rfl) (by decide)

theorem PassedKept.assignRecords (h : PassedKept s0 s) : PassedKept s0 s.assignRecords := by
  unfold State.assignRecords
  dsimp only
  refine PassedKept.foldl (PassedKept.foldl h fun _ _ h => h.assignRecord) fun u st hu => .ite ?_ hu
  exact hu.same (State.requestVdd_same (msk := [.regs, .caps, .plots, .chans, .slices, .norias, .dram, .chk, .net, .links, .reqTabs, .stks,
    .sensors, .cores, .caches, .dbg, .cnts, .wire]) _ _ (State.clearStack_same _ (.refl u) rfl) rfl) (by decide)

theorem PassedKept.stageHook {k : Nat} (h : PassedKept s0 s) : PassedKept s0 (s.stageHook k) := by
  unfold State.stageHook
  split
  · split
    · exact h
    · exact h
  · exact h.same (SameBut.foldl (msk := [.regs, .plots, .norias, .sensors, .faults]) (.refl s) fun _ _ h => State.bootTests_same _ h rfl) (by decide)
  · exact h
  · exact h.assignRecords
  · exact h

theorem PassedKept.startStages (h : PassedKept s0 s) : PassedKept s0 s.startStages := by
  refine PassedKept.foldl h fun u k hu => .ite ?_ hu
  unfold State.startStage
  dsimp only
  refine PassedKept.stageHook ?_
  exact .ite hu hu

/-! ### The registers of the stacks held out (R473) -/

/-- The registers of the stacks held out. -/
def HoldRegs (a : Nat) : Prop := a = bootReg 0x04C ∨ a = bootReg 0x050 ∨ a = bootReg 0x054

/-- Every other register. -/
def NotHold (a : Nat) : Prop := ¬ HoldRegs a

theorem notHold {d p o : Nat} (ho : o < 4096) (h : 512 * d + p ≠ 8193 ∨ (o ≠ 0x04C ∧ o ≠ 0x050 ∧ o ≠ 0x054)) : NotHold (regAddr d p o) := by
  rintro (e | e | e)
  all_goals
    obtain ⟨page, off⟩ := regAddr_eq e ho (by decide)
    omega

theorem notHold_dfReg {d o : Nat} (ho : o < 4096) : NotHold (dfReg d o) := by
  unfold dfReg
  split
  · exact notHold ho (.inl (by omega))
  · exact notHold ho (.inl (by omega))

theorem notHold_cntPage (k : Nat) : NotHold (cntPage k 0x044) := by
  unfold cntPage
  split_ifs
  all_goals exact notHold (by decide) (.inl (by omega))

theorem farEnd_lt {st m : Nat} (hst : st < 16) : (farEnd st m).2 < 64 := by
  unfold farEnd
  rw [if_neg (by omega)]
  split
  all_goals
    dsimp only
    omega

theorem RegsBut.refreshRoute {die : Nat} (h : RegsBut NotHold s0 s) : RegsBut NotHold s0 (s.refreshRoute die) :=
  .ite ((h.setFld (notHold_dfReg (by decide))).setFld (notHold_dfReg (by decide))) h

/-- R199: one end of a link reads `x`, unless it is disabled. -/
def State.setEnd (s : State) (x d i : Nat) : State := if linkState s d i = 3 then s else s.setFld (linkReg d i) 0 2 x

theorem State.setLink2_eq (s : State) (die m x : Nat) :
    s.setLink2 die m x = (((s.setEnd x die m).setEnd x (farEnd die m).1 (farEnd die m).2).refreshRoute die).refreshRoute (farEnd die m).1 := rfl

theorem RegsBut.setEnd {x d i : Nat} (hi : i < 64) (h : RegsBut NotHold s0 s) : RegsBut NotHold s0 (s.setEnd x d i) :=
  .ite h (h.setFld (notHold_dfReg (by omega)))

theorem RegsBut.setLink2 {st m x : Nat} (hst : st < 16) (hm : m < 8) (h : RegsBut NotHold s0 s) : RegsBut NotHold s0 (s.setLink2 st m x) := by
  rw [State.setLink2_eq]
  exact ((h.setEnd (by omega)).setEnd (farEnd_lt hst)).refreshRoute.refreshRoute

theorem RegsBut.dropFar {P : Nat → Prop} {die far : Nat} {abort : Bool} (h : RegsBut P s0 s)
    (hP : P (cntPage (if die < 16 then 576 + die else 592) 0x044)) : RegsBut P s0 (s.dropFar die far abort) := by
  unfold State.dropFar
  dsimp only
  generalize hu : List.foldl _ s (chansAcross s (die * 32 + far)) = u
  have noted : SameBut [.chans] s u := hu ▸ SameBut.foldl (.refl s) fun _ _ h => State.updChan_same _ _ h rfl
  have counted : RegsBut P s0 ((u.setReqTab (die * 32 + far) []).count (if die < 16 then 576 + die else 592) (if die < 16 then 16 else 128)
      (s.reqTab (die * 32 + far)).length) :=
    RegsBut.count (RegsBut.same h (State.setReqTab_same (msk := [.chans, .reqTabs]) _ _ (noted.mono rfl) rfl) (by decide)) hP
  refine counted.same (SameBut.foldl (msk := [.net, .links]) (State.dropQueued_same _ _ (.refl _) rfl) fun _ _ h => State.updLink_same _ _ h rfl)
    (by decide)

theorem RegsBut.linksDown {st : Nat} {abort : Bool} (hst : st < 16) (h : RegsBut NotHold s0 s) : RegsBut NotHold s0 (s.linksDown st abort) :=
  (h.foldl fun _ _ hm hu => hu.setLink2 hst (List.mem_range.1 hm)).foldl fun _ _ _ hu => hu.dropFar (notHold_cntPage _)

theorem RegsBut.noMicrocode {st : Nat} (h : RegsBut NotHold s0 s) : RegsBut NotHold s0 (s.noMicrocode st) :=
  h.foldl fun _ _ _ hu => .ite (hu.setReg (notHold (by decide) (.inl (by omega)))) hu

theorem keptStackReg_hold {st a : Nat} (hst : st < 16) (h : HoldRegs a) : keptStackReg st a = true := by
  have far : addrDie a ≠ st := by
    rcases h with rfl | rfl | rfl
    all_goals
      unfold addrDie bootReg regAddr
      omega
  unfold keptStackReg
  simp [far]

theorem RegsBut.clearStack {st : Nat} (hst : st < 16) (h : RegsBut NotHold s0 s) : RegsBut NotHold s0 (s.clearStack st) := by
  unfold State.clearStack
  dsimp only
  have down := h.linksDown (abort := true) hst
  generalize s.linksDown st true = u at *
  generalize hv : State.setStk _ st _ = v
  have regs : v.regs = tkeep u.regs (keptStackReg st) := by
    rw [← hv]
    rfl
  have cleared : RegsBut NotHold s0 v := fun a ha => by
    unfold State.reg
    rw [regs, tget_tkeep, keptStackReg_hold hst (not_not.1 ha), if_pos rfl]
    exact down a ha
  exact cleared.noMicrocode.linksDown hst

/-! ### What the stages write -/

theorem RegsBut.bootLog {P : Nat → Prop} {stage reason : Nat} (h : RegsBut P s0 s) : RegsBut P s0 (s.bootLog stage reason) :=
  h.same (State.bootLog_same (msk := [.freeCtr, .boot, .store]) _ _ (.refl s) rfl) (by decide)

theorem RegsBut.mapSites {st : Nat} (h : RegsBut NotHold s0 s) : RegsBut NotHold s0 (s.mapSites st) := by
  refine h.foldl fun _ p hp hu => hu.setFld (notHold_dfReg ?_)
  have := List.mem_range.1 hp
  omega

theorem RegsBut.repairRow {P : Nat → Prop} {k bank row : Nat} (h : RegsBut P s0 s) : RegsBut P s0 (s.repairRow k bank row) :=
  .ite h.bootLog (h.same (State.updSlc_same (msk := [.slices]) _ _ (.refl s) rfl) (by decide))

theorem RegsBut.endFuses (h : RegsBut NotHold s0 s) : RegsBut NotHold s0 s.endFuses := by
  unfold State.endFuses
  dsimp only
  refine RegsBut.foldl (RegsBut.foldl (RegsBut.foldl h fun u st _ hu => ?_) fun _ _ _ hu => hu.repairRow) fun _ _ _ hu => hu.repairRow
  exact (hu.same (State.updStk_same (msk := [.stks]) _ _ (.refl u) rfl) (by decide)).mapSites

theorem RegsBut.requestVdd {P : Nat → Prop} {st mv : Nat} (h : RegsBut P s0 s) : RegsBut P s0 (s.requestVdd st mv) :=
  h.same (State.requestVdd_same (msk := [.stks, .wire]) _ _ (.refl s) rfl) (by decide)

theorem RegsBut.startGov {st : Nat} (h : RegsBut NotHold s0 s) : RegsBut NotHold s0 (s.startGov st) := by
  have gov : ∀ o < 4096, NotHold (govReg st o) := fun o ho => notHold ho (.inl (by omega))
  unfold State.startGov
  dsimp only
  exact (((h.setFld (gov _ (by decide))).setFld (gov _ (by decide))).setFld (gov _ (by decide))).same
    (State.stepVdd_same (msk := [.stks, .wire]) _ _ _ (.refl _) rfl) (by decide)

theorem RegsBut.endClocks (h : RegsBut NotHold s0 s) : RegsBut NotHold s0 s.endClocks := by
  unfold State.endClocks
  dsimp only
  refine RegsBut.foldl (RegsBut.foldl h fun u st _ hu => ?_) fun _ _ _ hu => hu.requestVdd
  exact (hu.same (State.updStk_same (msk := [.stks]) _ _ (.refl u) rfl) (by decide)).startGov

theorem RegsBut.linksUp {st : Nat} (hst : st < 16) (h : RegsBut NotHold s0 s) : RegsBut NotHold s0 (s.linksUp st) :=
  h.foldl fun _ _ hm hu => .ite (hu.setLink2 hst (List.mem_range.1 hm)) hu

theorem keptStacks_lt {st : Nat} (h : st ∈ keptStacks s) : st < 16 := List.mem_range.1 (List.mem_filter.1 h).1

theorem holdCause_cases {k : Nat} (h : holdCause k ≠ 0) : k = 0x07 ∨ k = 0x08 ∨ k = 0x09 ∨ k = 0x0B := by
  unfold holdCause at h
  split at h
  · exact .inl rfl
  · exact .inr (.inl rfl)
  · exact .inr (.inr (.inl rfl))
  · exact .inr (.inr (.inr rfl))
  · exact absurd rfl h

/-- A stage that holds out stacks leaves the registers of those held out. -/
theorem RegsBut.stageEffect {k : Nat} (holds : holdCause k ≠ 0) (h : RegsBut NotHold s0 s) : RegsBut NotHold s0 (s.stageEffect k) := by
  rcases holdCause_cases holds with rfl | rfl | rfl | rfl
  · have noted : ∀ d, RegsBut NotHold s0 { s with boot := { s.boot with answered := d } } := fun _ => h
    exact ((noted _).setReg (notHold (by decide) (.inl (by decide)))).setReg (notHold (by decide) (.inl (by decide)))
  · exact h.endFuses
  · exact h.endClocks
  · exact h.foldl fun _ _ hst hu => hu.linksUp (keptStacks_lt hst)

theorem RegsBut.startTest {t : TestReq} (h : RegsBut NotHold s0 s) : RegsBut NotHold s0 (s.startTest t) := by
  unfold State.startTest
  split
  · exact h.same (State.updPlot_same (msk := [.plots]) _ _ (.refl s) rfl) (by decide)
  · refine h.foldl fun u p _ hu => .ite ?_ hu
    unfold State.startXchk
    exact .ite hu ((hu.same (State.updNor_same (msk := [.norias]) _ _ (.refl u) rfl) (by decide)).setFld (notHold (by decide) (.inl (by omega))))
  · exact h.same (State.updSensor_same (msk := [.sensors]) _ _ (.refl s) rfl) (by decide)
  · exact h

theorem RegsBut.bootTest {test kind st idx : Nat} (h : RegsBut NotHold s0 s) : RegsBut NotHold s0 (s.bootTest test kind st idx) := by
  unfold State.bootTest
  dsimp only
  generalize hu : State.mk _ _ _ _ _ _ _ _ _ _ _ _ _ _ _ _ _ _ _ _ _ _ _ _ _ _ _ _ _ _ _ _ _ _ _ _ _ _ _ _ _ _ _ = u
  exact RegsBut.startTest (h.same (hu ▸ SameBut.lit_faults (msk := [.faults]) (.refl s) rfl) (by decide))

theorem RegsBut.bootTests {st : Nat} (h : RegsBut NotHold s0 s) : RegsBut NotHold s0 (s.bootTests st) := by
  unfold State.bootTests
  dsimp only
  have plots := RegsBut.foldl (l := (List.range 32).filter fun p => plotReported s (32 * st + p)) h fun _ p _ hu =>
    ((hu.bootTest (test := 1) (kind := 0) (st := st) (idx := p)).bootTest (test := 2) (kind := 0) (st := st) (idx := p)).bootTest (test := 3)
      (kind := 0) (st := st) (idx := p)
  have reaches := RegsBut.foldl (l := List.range 4) plots fun _ q _ hu => hu.bootTest (test := 4) (kind := 1) (st := st) (idx := q)
  have stack := ((reaches.bootTest (test := 5) (kind := 2) (st := st) (idx := 0)).bootTest (test := 6) (kind := 2) (st := st)
    (idx := 0)).bootTest (test := 10) (kind := 2) (st := st) (idx := 0)
  have modules := RegsBut.foldl (l := List.range 8) stack fun _ m _ hu =>
    (hu.bootTest (test := 7) (kind := 3) (st := st) (idx := m)).bootTest (test := 8) (kind := 3) (st := st) (idx := m)
  exact modules.foldl fun _ _ _ hu => hu.bootTest

theorem arcOf_lt {n st : Nat} (h : st ∈ arcOf s n) : st < 16 := by
  unfold arcOf at h
  split at h
  · unfold arcFrom at h
    obtain ⟨i, -, rfl⟩ := List.mem_map.1 (List.mem_filter.1 (List.mem_of_mem_take h)).1
    exact Nat.mod_lt _ (by decide)
  · exact absurd h (by simp)

theorem RegsBut.assignPart {n first log2 : Nat} (h : RegsBut NotHold s0 s) : RegsBut NotHold s0 (s.assignPart n first log2) := by
  unfold State.assignPart
  dsimp only
  generalize hu : State.updPart _ n _ = u
  have noted : RegsBut NotHold s0 u := hu ▸ h.same (State.updPart_same (msk := [.parts, .cores, .wire]) _ _
    (State.setPState_same _ _ (.refl s) rfl) rfl) (by decide)
  have cleared := noted.foldl (l := arcOf u n) (f := fun s st => s.clearStack st) fun _ _ hst hv => hv.clearStack (arcOf_lt hst)
  generalize List.foldl (fun s st => State.clearStack s st) u (arcOf u n) = v at *
  exact cleared

theorem RegsBut.assignRecord {n w : Nat} (hn : n < 16) (h : RegsBut NotHold s0 s) : RegsBut NotHold s0 (s.assignRecord n w) := by
  have set := h.setFld (lo := 0) (w := 8) (x := nbits w 0 8) (a := partCfgReg n) (notHold (by omega) (.inl (by decide)))
  unfold State.assignRecord
  dsimp only
  generalize s.setFld (partCfgReg n) 0 8 (nbits w 0 8) = u at *
  refine .ite h (.ite h.bootLog (.ite ?_ set.assignPart))
  exact set.same (State.setPState_same (msk := [.parts, .cores, .wire]) _ _ (State.updPart_same _ _ (.refl u) rfl) rfl) (by decide)

theorem RegsBut.assignRecords (h : RegsBut NotHold s0 s) : RegsBut NotHold s0 s.assignRecords := by
  unfold State.assignRecords
  dsimp only
  refine RegsBut.foldl (RegsBut.foldl h fun _ _ hn hu => hu.assignRecord (List.mem_range.1 hn)) fun _ _ hst hu =>
    .ite (hu.clearStack (keptStacks_lt hst)).requestVdd hu

theorem RegsBut.stageHook {k : Nat} (h : RegsBut NotHold s0 s) : RegsBut NotHold s0 (s.stageHook k) := by
  unfold State.stageHook
  split
  · split
    · exact h
    · exact h
  · exact h.foldl fun _ _ _ hu => hu.bootTests
  · have opened : ∀ b, RegsBut NotHold s0 { s with boot := b } := fun _ => h
    exact (opened _).setReg (notHold (by decide) (.inr (by decide)))
  · exact h.assignRecords
  · exact h

theorem RegsBut.startStages (h : RegsBut NotHold s0 s) : RegsBut NotHold s0 s.startStages := by
  refine h.foldl fun u k _ hu => .ite ?_ hu
  unfold State.startStage
  dsimp only
  generalize hv : State.send _ _ = v
  have printed : RegsBut NotHold s0 v :=
    hv ▸ hu.same (State.send_same (msk := [.boot, .wire]) _ (SameBut.lit_boot (.refl u) rfl) rfl) (by decide)
  exact RegsBut.stageHook (.ite printed (printed.setFld (notHold (by decide) (.inr (by decide)))))

/-! ### Stages that pass (R459, R473, R484) -/

/-- R459: the stage joins those passed, and what can start now starts. -/
def State.passStage (s : State) (k : Nat) : State :=
  ({ s.stageEffect k with boot := { (s.stageEffect k).boot with passed := k :: (s.stageEffect k).boot.passed } } : State).startStages

theorem State.endStage_kept {k : Nat} {hold : List Nat}
    (kept : keptStacks (hold.foldl (fun s st => s.holdStack k (holdCause k) st) s) ≠ []) :
    s.endStage k hold = (hold.foldl (fun s st => s.holdStack k (holdCause k) st) s).passStage k := by
  unfold State.endStage
  dsimp only
  rw [if_neg kept]
  rfl

theorem State.passStage_passed (s : State) (k : Nat) : (s.passStage k).boot.passed = k :: s.boot.passed := by
  have effect : (s.stageEffect k).boot.passed = s.boot.passed := (PassedKept.refl s).stageEffect
  unfold State.passStage
  generalize hu : ({ s.stageEffect k with boot := { (s.stageEffect k).boot with passed := k :: (s.stageEffect k).boot.passed } } : State) = u
  have joined : u.boot.passed = k :: s.boot.passed := by rw [← hu, ← effect]
  have started : u.startStages.boot.passed = u.boot.passed := (PassedKept.refl u).startStages
  rw [started, joined]

theorem startStages_idle (h : s.boot.running = false) : s.startStages = s := by
  refine List.foldl_fixed' (fun k => if_neg ?_) _
  unfold stageOn
  simp [h]

/-- R484: at READY the boot is over. -/
theorem State.endReady_effect (s : State) : bootState s.endReady = 1 ∧ s.endReady.boot.running = false := by
  unfold State.endReady
  dsimp only
  have ready : (s.setFld (bootReg 0x040) 5 2 1).fld (bootReg 0x040) 5 2 = 1 := s.fld_setFld_same _ 1 (by decide)
  generalize s.setFld (bootReg 0x040) 5 2 1 = u at *
  generalize ht : BitVec.ofNat 32 ((s.tb - s.boot.startAt) / 100000) = t
  have timed := (otherRegs_setReg (s := u) (l := [bootReg 0x048]) (a := bootReg 0x048) t (by simp)).fld (a := bootReg 0x040) (by decide) 5 2
  generalize u.setReg (bootReg 0x048) t = v at *
  have cleared : SameBut [.store] v (v.attemptWrite 2) := State.attemptWrite_same _ (.refl v) rfl
  generalize v.attemptWrite 2 = w at *
  have shown : w.showAttempts.fld (bootReg 0x040) 5 2 = w.fld (bootReg 0x040) 5 2 := State.fld_setFld_ne _ _ _ (by decide) (by decide)
  generalize w.showAttempts = x at *
  have logged : SameBut [.freeCtr, .boot, .store] x (x.bootLog 0x10 0) := State.bootLog_same _ _ (.refl x) rfl
  generalize x.bootLog 0x10 0 = y at *
  generalize hz : ({ y with boot := { y.boot with running := false, failedSlots := [] } } : State) = z
  have over_ : SameBut [.boot] y z := hz ▸ SameBut.lit_boot (.refl y) rfl
  have stopped : z.boot.running = false := by rw [← hz]
  have fixed : SameBut [.sec] z z.fixMeas := State.fixMeas_same (.refl z) rfl
  unfold bootState
  refine ⟨?_, by rw [fixed.boot (by decide), stopped]⟩
  rw [fixed.fld (by decide), over_.fld (by decide), logged.fld (by decide), shown, cleared.fld (by decide), timed, ready]

theorem State.passStage_ready (s : State) : bootState (s.passStage 0x10) = 1 ∧ (s.passStage 0x10).boot.running = false := by
  obtain ⟨ready, stopped⟩ := s.endReady_effect
  have effect : s.stageEffect 0x10 = s.endReady := rfl
  unfold State.passStage
  rw [effect]
  generalize hu : ({ s.endReady with boot := { s.endReady.boot with passed := 0x10 :: s.endReady.boot.passed } } : State) = u
  have joined : SameBut [.boot] s.endReady u := hu ▸ SameBut.lit_boot (.refl _) rfl
  have idle : u.boot.running = false := by rw [← hu, ← stopped]
  rw [startStages_idle idle]
  exact ⟨(joined.fld (by decide) _ _ _).trans ready, idle⟩

/-! ### Stacks held out (R473) -/

theorem heldOut_eq_bit (s : State) (st : Nat) : heldOut s st = s.bit (bootReg 0x04C) st := rfl

/-- R473: the mark and the cause of a stack held out. -/
def State.markHeld (s : State) (st cause : Nat) : State :=
  (s.setBit (bootReg 0x04C) st).setFld (bootReg (0x050 + 4 * (st / 8))) (4 * (st % 8)) 4 cause

theorem State.markHeld_effect (s : State) {st cause : Nat} (hst : st < 16) (hc : cause < 16) :
    heldOut (s.markHeld st cause) st = true ∧
      (s.markHeld st cause).fld (bootReg (0x050 + 4 * (st / 8))) (4 * (st % 8)) 4 = cause ∧
      ∀ x, x < 16 → x ≠ st → heldOut (s.markHeld st cause) x = heldOut s x := by
  have apart : bootReg 0x04C ∉ [bootReg (0x050 + 4 * (st / 8))] := by
    rw [List.mem_singleton]
    intro e
    have := (regAddr_eq e (by decide) (by omega)).2
    omega
  have kept : ∀ i, (s.markHeld st cause).bit (bootReg 0x04C) i = (s.setBit (bootReg 0x04C) st).bit (bootReg 0x04C) i := fun i =>
    (otherRegs_setFld (l := [bootReg (0x050 + 4 * (st / 8))]) _ _ _ (by simp)).bit apart i
  refine ⟨(kept st).trans (s.bit_setBit_same _ (by omega)), ?_, fun x hx ne => (kept x).trans (State.bit_setBit_ne (by omega) ne)⟩
  unfold State.markHeld
  rw [State.fld_setFld_same _ _ _ (by omega)]
  exact Nat.mod_eq_of_lt hc

theorem State.holdStack_effect (s : State) {k cause st : Nat} (hst : st < 16) (live : activeStack s st = true) (hc : cause < 16) :
    heldOut (s.holdStack k cause st) st = true ∧
      (s.holdStack k cause st).fld (bootReg (0x050 + 4 * (st / 8))) (4 * (st % 8)) 4 = cause ∧
      (∀ x, x < 16 → x ≠ st → heldOut (s.holdStack k cause st) x = heldOut s x) ∧ (s.holdStack k cause st).fuses = s.fuses := by
  obtain ⟨held, why, others⟩ := s.markHeld_effect (cause := cause) hst hc
  have marked : SameBut [.regs] s (s.markHeld st cause) := State.setFld_same _ _ _ _ (State.setBit_same _ _ (.refl s) rfl) rfl
  have body : s.holdStack k cause st = if (s.stk st).inReset then (s.markHeld st cause).bootLog k 0
      else ((s.markHeld st cause).bootLog k 0).clearStack st := by
    unfold State.holdStack
    rw [if_neg (by simp [live])]
    rfl
  rw [body]
  generalize s.markHeld st cause = u at *
  have regs : RegsBut NotHold u (if (s.stk st).inReset then (u.bootLog k 0) else ((u.bootLog k 0)).clearStack st) :=
    .ite (RegsBut.refl u).bootLog ((RegsBut.refl u).bootLog.clearStack hst)
  have logged : SameBut [.freeCtr, .boot, .store] u (u.bootLog k 0) := State.bootLog_same _ _ (.refl u) rfl
  have frame : SameBut [.freeCtr, .regs, .caps, .plots, .chans, .slices, .norias, .dram, .chk, .net, .links, .reqTabs, .stks, .sensors, .cores,
      .caches, .boot, .store, .dbg, .cnts] u (if (s.stk st).inReset then (u.bootLog k 0) else ((u.bootLog k 0)).clearStack st) :=
    SameBut.ite (logged.mono rfl) (State.clearStack_same _ (logged.mono rfl) rfl)
  have place : HoldRegs (bootReg (0x050 + 4 * (st / 8))) := by
    have : st / 8 = 0 ∨ st / 8 = 1 := by omega
    rcases this with h | h
    · rw [h]
      exact .inr (.inl rfl)
    · rw [h]
      exact .inr (.inr rfl)
  simp only [heldOut_eq_bit] at *
  refine ⟨?_, ?_, fun x hx ne => ?_, (frame.fuses (by decide)).trans (marked.fuses (by decide))⟩
  · rw [regs.bit (not_not.2 (.inl rfl)), held]
  · rw [regs.fld (not_not.2 place), why]
  · rw [regs.bit (not_not.2 (.inl rfl)), others x hx ne]

theorem State.passStage_held {k st : Nat} (holds : holdCause k ≠ 0) {lo w : Nat} {a : Nat} (ha : HoldRegs a) :
    heldOut (s.passStage k) st = heldOut s st ∧ (s.passStage k).fld a lo w = s.fld a lo w := by
  have effect := (RegsBut.refl s).stageEffect holds
  have joined : RegsBut NotHold s ({ s.stageEffect k with boot := { (s.stageEffect k).boot with passed := k :: (s.stageEffect k).boot.passed } } :
      State) := effect
  have started := joined.startStages
  rw [heldOut_eq_bit, heldOut_eq_bit]
  exact ⟨started.bit (not_not.2 (.inl rfl)) st, started.fld (not_not.2 ha) lo w⟩

theorem mem_keptStacks {st : Nat} : st ∈ keptStacks s ↔ st < 16 ∧ activeStack s st = true ∧ heldOut s st = false := by
  unfold keptStacks
  simp [List.mem_filter]

/-- R473: a stage that holds out one stack while others remain passes, with the stack's cause. -/
theorem endStage_holds {k st : Nat} (hst : st < 16) (holds : holdCause k ≠ 0) (live : activeStack s st = true)
    (other : ∃ x ∈ keptStacks s, x ≠ st) :
    (s.endStage k [st]).boot.passed = k :: s.boot.passed ∧ heldOut (s.endStage k [st]) st = true ∧
      (s.endStage k [st]).fld (bootReg (0x050 + 4 * (st / 8))) (4 * (st % 8)) 4 = holdCause k := by
  have small : holdCause k < 16 := by
    rcases holdCause_cases holds with rfl | rfl | rfl | rfl <;> decide
  obtain ⟨held, why, others, fuses⟩ := s.holdStack_effect (k := k) hst live small
  have passed : (s.holdStack k (holdCause k) st).boot.passed = s.boot.passed := (PassedKept.refl s).holdStack
  have kept : keptStacks ([st].foldl (fun s st => s.holdStack k (holdCause k) st) s) ≠ [] := by
    obtain ⟨x, hx, ne⟩ := other
    obtain ⟨lt, active, free⟩ := mem_keptStacks.1 hx
    refine List.ne_nil_of_mem (mem_keptStacks.2 ⟨lt, ?_, (others x lt ne).trans free⟩)
    unfold activeStack at *
    exact (congrArg (fun F : Fuses => F.stackEn.any fun y => y.val == x) fuses).trans active
  rw [State.endStage_kept kept]
  have one : [st].foldl (fun s st => s.holdStack k (holdCause k) st) s = s.holdStack k (holdCause k) st := rfl
  rw [one]
  generalize s.holdStack k (holdCause k) st = u at *
  have place : HoldRegs (bootReg (0x050 + 4 * (st / 8))) := by
    have : st / 8 = 0 ∨ st / 8 = 1 := by omega
    rcases this with h | h
    · rw [h]
      exact .inr (.inl rfl)
    · rw [h]
      exact .inr (.inr rfl)
  obtain ⟨held', why'⟩ := State.passStage_held (s := u) (st := st) (lo := 4 * (st % 8)) (w := 4) holds place
  exact ⟨by rw [u.passStage_passed, passed], held'.trans held, why'.trans why⟩

/-! ### Failures of the start (R461, R485) -/

theorem State.lowWater_effect (s : State) (stage : Nat) {reason : Nat} (hr : reason < 256) :
    bootState (s.lowWater stage reason) = 2 ∧ (s.lowWater stage reason).fld (bootReg 0x040) 12 8 = reason ∧
      (s.lowWater stage reason).boot.running = false := by
  unfold State.lowWater
  dsimp only
  generalize (s.bootLog stage reason).send (.uart [BitVec.ofNat 8 reason]) = t
  have state : (t.setFld (bootReg 0x040) 5 2 2).fld (bootReg 0x040) 5 2 = 2 := t.fld_setFld_same _ 2 (by decide)
  generalize t.setFld (bootReg 0x040) 5 2 2 = u at *
  have why := u.fld_setFld_same (bootReg 0x040) reason (l := 12) (n := 8) (by decide)
  have state' : (u.setFld (bootReg 0x040) 12 8 reason).fld (bootReg 0x040) 5 2 = u.fld (bootReg 0x040) 5 2 :=
    State.fld_setFld_ne _ _ _ (by decide) (by decide)
  generalize u.setFld (bootReg 0x040) 12 8 reason = v at *
  generalize (if reason = 2 then lastFail s s.boot.logNext else stage) = n
  have state'' : (v.setFld (bootReg 0x040) 20 5 n).fld (bootReg 0x040) 5 2 = v.fld (bootReg 0x040) 5 2 :=
    State.fld_setFld_ne _ _ _ (by decide) (by decide)
  have why' : (v.setFld (bootReg 0x040) 20 5 n).fld (bootReg 0x040) 12 8 = v.fld (bootReg 0x040) 12 8 :=
    State.fld_setFld_ne _ _ _ (by decide) (by decide)
  generalize v.setFld (bootReg 0x040) 20 5 n = w at *
  generalize hx : ({ w with boot := { w.boot with running := false, flooding := false } } : State) = x
  have over_ : SameBut [.boot] w x := hx ▸ SameBut.lit_boot (.refl w) rfl
  have stopped : x.boot.running = false := by rw [← hx]
  have keyed : SameBut [.sec] x (x.deriveKeys (List.replicate 32 0) 0).fixMeas := State.fixMeas_same (State.deriveKeys_same _ _ (.refl x) rfl) rfl
  unfold bootState
  refine ⟨?_, ?_, by rw [keyed.boot (by decide), stopped]⟩
  · rw [keyed.fld (by decide), over_.fld (by decide), state'', state', state]
  · rw [keyed.fld (by decide), over_.fld (by decide), why', why]
    exact Nat.mod_eq_of_lt hr

/-- What a boot that starts anew shows. -/
theorem State.startBoot_state (s : State) (warm : Bool) :
    bootState (s.startBoot warm) = 0 ∧ warmBoot (s.startBoot warm) = warm ∧ (s.startBoot warm).boot.passed = [] := by
  have number : nbits (1 + b2n warm * 256) 5 2 = 0 ∧ (nbits (1 + b2n warm * 256) 8 1 == 1) = warm ∧ 1 + b2n warm * 256 < 2 ^ 32 := by
    cases warm <;> decide
  obtain ⟨state, path, small⟩ := number
  unfold State.startBoot
  dsimp only
  generalize hu : State.mk _ _ _ _ _ _ _ _ _ _ _ _ _ _ _ _ _ _ _ _ _ _ _ _ _ _ _ _ _ _ _ _ _ _ _ _ _ _ _ _ _ _ _ = u
  have empty : u.boot.passed = [] := by rw [← hu]
  have word : (u.setReg (bootReg 0x040) (BitVec.ofNat 32 (1 + b2n warm * 256))).reg (bootReg 0x040) = BitVec.ofNat 32 (1 + b2n warm * 256) :=
    State.reg_setReg_same _ _ _
  have written : SameBut [.regs] u (u.setReg (bootReg 0x040) (BitVec.ofNat 32 (1 + b2n warm * 256))) := State.setReg_same _ _ (.refl u) rfl
  generalize u.setReg (bootReg 0x040) (BitVec.ofNat 32 (1 + b2n warm * 256)) = v at *
  have mode : RegsBut (fun a => a ≠ bootReg 0x040) v ((v.setFld (pkgReg 0x044) 0 2 s.pins.bootMode.toNat).drawNonce) := by
    refine RegsBut.foldl ((RegsBut.refl v).setFld (by decide)) fun w i hi hw => ?_
    have small := List.mem_range.1 hi
    refine RegsBut.same (hw.setReg ?_) (State.drawn_same (msk := [.freeCtr]) (.refl _) rfl) (by decide)
    intro e
    have := (regAddr_eq (d := 16) (p := 4) e (by omega) (by decide)).1
    omega
  have nonce : SameBut [.freeCtr, .regs] v ((v.setFld (pkgReg 0x044) 0 2 s.pins.bootMode.toNat).drawNonce) :=
    State.drawNonce_same (State.setFld_same _ _ _ _ (.refl v) rfl) rfl
  generalize (v.setFld (pkgReg 0x044) 0 2 s.pins.bootMode.toNat).drawNonce = w at *
  have said : SameBut [.wire] w (w.send (.uart [1])) := State.send_same _ (.refl w) rfl
  have reg : (w.send (.uart [1])).reg (bootReg 0x040) = BitVec.ofNat 32 (1 + b2n warm * 256) := by
    rw [said.reg (by decide), mode _ (not_not.2 rfl), word]
  refine ⟨?_, ?_, ?_⟩
  · unfold bootState State.fld
    rw [reg, BitVec.toNat_ofNat, Nat.mod_eq_of_lt small, state]
  · unfold warmBoot State.bit State.fld
    rw [reg, BitVec.toNat_ofNat, Nat.mod_eq_of_lt small, path]
  · rw [said.boot (by decide), nonce.boot (by decide), written.boot (by decide), empty]

theorem State.clearPkg_kept (s : State) (cold : Bool) :
    (s.clearPkg cold).boot.number = s.boot.number ∧ (s.clearPkg cold).fuses = s.fuses ∧ (s.clearPkg cold).store = s.store ∧
      (s.clearPkg cold).net = [] ∧ (s.clearPkg cold).plots = [] ∧ (s.clearPkg cold).rings = [] ∧
      (cold = true → (s.clearPkg cold).slices = []) := by
  refine ⟨rfl, rfl, rfl, rfl, rfl, rfl, fun h => ?_⟩
  subst h
  rfl

/-- A new boot of the package as a reset leaves it. -/
theorem clearPkg_startBoot (s : State) (cold : Bool) :
    ∀ u, u = (s.clearPkg cold).startBoot (!cold) → bootState u = 0 ∧ warmBoot u = !cold ∧ u.boot.running = true ∧ u.boot.passed = [] ∧
      u.boot.number = s.boot.number + 1 ∧ u.fuses = s.fuses ∧ u.store = s.store ∧ u.rings = [] ∧ (cold = true → u.slices = []) := by
  rintro u rfl
  obtain ⟨number, fuses, store, -, -, rings, slices⟩ := s.clearPkg_kept cold
  generalize s.clearPkg cold = v at *
  obtain ⟨state, warm, passed⟩ := v.startBoot_state (!cold)
  obtain ⟨frame, running, number'⟩ := startBoot_effect v (!cold)
  refine ⟨state, warm, running, passed, by rw [number', number], ?_, ?_, ?_, fun h => ?_⟩
  · rw [frame.fuses (by decide), fuses]
  · rw [frame.store (by decide), store]
  · rw [frame.rings (by decide), rings]
  · rw [frame.slices (by decide), slices h]

/-- R461: a counted failure starts the boot anew. -/
theorem State.restart_effect (s : State) (stage reason : Nat) :
    bootState (s.restart stage reason) = 0 ∧ (s.restart stage reason).boot.running = true ∧ (s.restart stage reason).boot.passed = [] ∧
      (s.restart stage reason).boot.number = s.boot.number + 1 ∧ (s.restart stage reason).fuses = s.fuses ∧
      (s.restart stage reason).net = [] ∧ (s.restart stage reason).plots = [] := by
  unfold State.restart
  dsimp only
  have logged : SameBut [.freeCtr, .boot, .store] s (s.bootLog stage reason) := State.bootLog_same _ _ (.refl s) rfl
  have number : (s.bootLog stage reason).boot.number = s.boot.number := by rw [State.bootLog_boot]
  generalize s.bootLog stage reason = t at *
  have said : SameBut [.wire] t (t.send (.uart [BitVec.ofNat 8 reason])) := State.send_same _ (.refl t) rfl
  generalize t.send (.uart [BitVec.ofNat 8 reason]) = u at *
  obtain ⟨number', fuses, -, net, plots, -, -⟩ := u.clearPkg_kept true
  generalize u.clearPkg true = v at *
  have link : ∀ a b : Word, SameBut [.regs] v ((v.setReg (lndReg 0x040) a).setReg (ferReg 8 0x040) b) := fun a b =>
    State.setReg_same _ _ (State.setReg_same _ _ (.refl v) rfl) rfl
  have link' := link (s.reg (lndReg 0x040)) (s.reg (ferReg 8 0x040))
  generalize (v.setReg (lndReg 0x040) (s.reg (lndReg 0x040))).setReg (ferReg 8 0x040) (s.reg (ferReg 8 0x040)) = w at *
  obtain ⟨state, -, passed⟩ := w.startBoot_state false
  obtain ⟨frame, running, number''⟩ := startBoot_effect w false
  generalize w.startBoot false = x at *
  generalize hy : State.mk _ _ _ _ _ _ _ _ _ _ _ _ _ _ _ _ _ _ _ _ _ _ _ _ _ _ _ _ _ _ _ _ _ _ _ _ _ _ _ _ _ _ _ = y
  have noted : SameBut [.boot] x y := hy ▸ SameBut.lit_boot (.refl x) rfl
  refine ⟨(noted.fld (by decide) _ _ _).trans state, running, passed, ?_, ?_, ?_, ?_⟩
  · rw [number'', link'.boot (by decide), number', said.boot (by decide), number]
  · rw [frame.fuses (by decide), link'.fuses (by decide), fuses, said.fuses (by decide), logged.fuses (by decide)]
  · rw [frame.net (by decide), link'.net (by decide), net]
  · rw [frame.plots (by decide), link'.plots (by decide), plots]

/-! ### The attempt counter (R465) -/

theorem State.attemptPut_kind (s : State) (i : Nat) : attemptKind (s.attemptPut i 2) i = 2 := by
  have read : storeBytes (s.attemptPut i 2) (attemptArea + 16 * (i + 1)) 1 = [2] := by
    have byte := tget_tputs_in 0xFF [(2 : Byte)] s.store (attemptArea + 16 * (i + 1)) 0 (by decide)
    exact congrArg (fun b => [b]) byte
  unfold attemptKind
  rw [read]
  rfl

theorem attempts_of_store {t : State} (h : t.store = s.store) : attemptNext t = attemptNext s ∧ attemptCount t = attemptCount s ∧
    ∀ i, attemptKind t i = attemptKind s i := by
  have kind : ∀ i, attemptKind t i = attemptKind s i := fun i => by
    unfold attemptKind storeBytes
    rw [h]
  have next : attemptNext t = attemptNext s := by
    unfold attemptNext
    simp only [kind]
  refine ⟨next, ?_, kind⟩
  unfold attemptCount
  simp only [kind, next]

/-- R465, R490: the record is a clear one, and the count shows. -/
theorem clrAttempts_effect (s : State) :
    ∀ u, u = (s.attemptWrite 2).showAttempts → SameBut [.store, .regs] s u ∧ OtherRegs [bootReg 0x040] s u ∧
      (attemptNext s < attemptSize → attemptKind u (attemptNext s) = 2) ∧ u.fld (bootReg 0x040) 10 2 = min 3 (attemptCount u) := by
  rintro u rfl
  have written : SameBut [.store] s (s.attemptWrite 2) := State.attemptWrite_same _ (.refl s) rfl
  have kind : attemptNext s < attemptSize → attemptKind (s.attemptWrite 2) (attemptNext s) = 2 := fun room => by
    have body : s.attemptWrite 2 = s.attemptPut (attemptNext s) 2 := by
      unfold State.attemptWrite
      dsimp only
      exact if_pos room
    rw [body, State.attemptPut_kind]
  generalize s.attemptWrite 2 = v at *
  have shown : SameBut [.regs] v v.showAttempts := State.showAttempts_same (.refl v) rfl
  obtain ⟨-, count, kinds⟩ := attempts_of_store (shown.store (by decide))
  refine ⟨(written.mono rfl).trans (shown.mono rfl), (written.otherRegs (by decide) _).trans (otherRegs_setFld _ _ _ (by simp)),
    fun room => (kinds _).trans (kind room), ?_⟩
  rw [count]
  unfold State.showAttempts
  rw [State.fld_setFld_same _ _ _ (by decide)]
  omega

/-! ### Resets by BOOT_CTRL (R490, R498) -/

theorem writeNextSlot_effect (next : BitVec 2) (s : State) :
    SameBut [.boot] s (writeNextSlot next s) ∧ (writeNextSlot next s).boot.nextSlot = (if next = 3 then s.boot.nextSlot else next) ∧
      (writeNextSlot next s).boot.number = s.boot.number := by
  unfold writeNextSlot
  split
  · exact ⟨.refl s, rfl, rfl⟩
  · exact ⟨SameBut.lit_boot (.refl s) rfl, rfl, rfl⟩

/-- R490: a package reset is the only one that runs. -/
theorem beginPkgReset (cold : Bool) (idle : resetRuns s (.package cold) = false) :
    ∃ x, SameBut [.faults] s (s.beginReset (.package cold) false false) ∧ (s.beginReset (.package cold) false false).faults.resets = [x] ∧
      x.scope = .package cold ∧ x.cleared = false ∧ (s.beginReset (.package cold) false false).boot = s.boot := by
  have free : resetHeld s (.package cold) = false := Bool.and_false _
  have none_ : (s.faults.resets.filter fun x => !(scopeHolds s (.package cold) x.scope)) = [] :=
    List.filter_eq_nil_iff.2 fun x _ => by simp [scopeHolds]
  unfold State.beginReset
  dsimp only
  rw [if_neg (by simp [idle]), if_neg (by simp [free]), none_]
  exact ⟨_, SameBut.lit_faults (.refl s) rfl, rfl, rfl, rfl, rfl⟩

theorem resetRuns_pkg_of_faults {t : State} (cold : Bool) (hf : t.faults = s.faults) :
    resetRuns t (.package cold) = resetRuns s (.package cold) := by
  have holds : ∀ sc, scopeHolds t sc (.package cold) = scopeHolds s sc (.package cold) := fun sc => by
    cases sc <;> rfl
  unfold resetRuns
  simp only [hf, holds]

theorem State.pkgReset_early (cold : Bool) (early : bootState s = 0) : s.pkgReset cold = (s.clearPkg cold).startBoot (!cold) := if_pos early

theorem State.pkgReset_late (cold : Bool) (late : bootState s ≠ 0) : s.pkgReset cold = s.beginReset (.package cold) false false := if_neg late

theorem bootCtrl_effect {r : Req} (served : reach s r false (bootReg 0x044) = .ok) :
    (∀ next : BitVec 2,
      (bootState s = 0 → ∃ u, exec (.coldReset r next) s = .next u ∧ u.boot.running = true ∧ u.boot.number = s.boot.number + 1 ∧
        u.rings = [] ∧ u.slices = [] ∧ u.fuses = s.fuses ∧ u.store = s.store) ∧
      (bootState s ≠ 0 → resetRuns s (.package true) = false → ∃ u x, exec (.coldReset r next) s = .next u ∧
        SameBut [.boot, .faults] (s.reqStepped r) u ∧ u.faults.resets = [x] ∧ x.scope = .package true ∧ x.cleared = false ∧
        u.boot.nextSlot = (if next = 3 then s.boot.nextSlot else next)) ∧
      (∃ u, exec (.nextSlot r next) s = .next u ∧ SameBut [.boot] (s.reqStepped r) u ∧
        u.boot.nextSlot = (if next = 3 then s.boot.nextSlot else next))) ∧
    (bootState s = 2 → exec (.warmReset r) s = .next (s.reqStepped r)) ∧
    (bootState s = 0 → ∃ u, exec (.warmReset r) s = .next u ∧ u.boot.running = true ∧ warmBoot u = true ∧ u.boot.passed = [] ∧
      u.rings = [] ∧ u.fuses = s.fuses ∧ u.store = s.store) ∧
    (bootState s = 1 → resetRuns s (.package false) = false → ∃ u x, exec (.warmReset r) s = .next u ∧
      SameBut [.faults] (s.reqStepped r) u ∧ u.faults.resets = [x] ∧ x.scope = .package false) ∧
    (∃ u, exec (.clrAttempts r) s = .next u ∧ SameBut [.store, .regs] (s.reqStepped r) u ∧ OtherRegs [bootReg 0x040] s u ∧
      (attemptNext s < attemptSize → attemptKind u (attemptNext s) = 2) ∧
      u.fld (bootReg 0x040) 10 2 = min 3 (attemptCount u)) := by
  have stepped := s.reqStepped_frame r
  have state : bootState (s.reqStepped r) = bootState s := stepped.fld (by decide) _ _ _
  have idle : ∀ cold, resetRuns (s.reqStepped r) (.package cold) = resetRuns s (.package cold) := fun cold =>
    resetRuns_pkg_of_faults cold (s.reqStepped_faults r)
  have boot := stepped.boot (by decide)
  have fuses := stepped.fuses (by decide)
  have store := stepped.store (by decide)
  have clr : exec (.clrAttempts r) s = .next (((s.reqStepped r).attemptWrite 2).showAttempts) := outcome_access _ served
  have cold : ∀ next, exec (.coldReset r next) s = .next ((writeNextSlot next (s.reqStepped r)).pkgReset true) := fun _ => outcome_access _ served
  have warm : exec (.warmReset r) s = .next (warmCmd (s.reqStepped r)) := outcome_access _ served
  have slot : ∀ next, exec (.nextSlot r next) s = .next (writeNextSlot next (s.reqStepped r)) := fun _ => outcome_access _ served
  obtain ⟨attempts, -, -⟩ := attempts_of_store store
  have others := stepped.otherRegs (by decide) [bootReg 0x040]
  generalize s.reqStepped r = t at *
  refine ⟨fun next => ⟨fun early => ?_, fun late fresh => ?_, ?_⟩, fun low => ?_, fun early => ?_, fun ready fresh => ?_, ?_⟩
  · obtain ⟨frame, -, number⟩ := writeNextSlot_effect next t
    have early' : bootState (writeNextSlot next t) = 0 := (frame.fld (by decide) _ _ _).trans (state.trans early)
    obtain ⟨-, -, running, -, number', fuses', store', rings, slices⟩ := clearPkg_startBoot (writeNextSlot next t) true _ rfl
    refine ⟨_, (cold next).trans (congrArg _ (State.pkgReset_early true early')), running, ?_, rings, slices rfl, ?_, ?_⟩
    · rw [number', number, boot]
    · rw [fuses', frame.fuses (by decide), fuses]
    · rw [store', frame.store (by decide), store]
  · obtain ⟨frame, nextSlot, -⟩ := writeNextSlot_effect next t
    have late' : bootState (writeNextSlot next t) ≠ 0 := fun h => late (state.symm.trans ((frame.fld (by decide) _ _ _).symm.trans h))
    obtain ⟨x, begun, resets, scope, cleared, kept⟩ := beginPkgReset (s := writeNextSlot next t) true
      ((resetRuns_pkg_of_faults true (frame.faults (by decide))).trans ((idle true).trans fresh))
    refine ⟨_, x, (cold next).trans (congrArg _ (State.pkgReset_late true late')), (frame.mono rfl).trans (begun.mono rfl), resets, scope,
      cleared, ?_⟩
    rw [kept, nextSlot, boot]
  · obtain ⟨frame, nextSlot, -⟩ := writeNextSlot_effect next t
    exact ⟨_, slot next, frame, by rw [nextSlot, boot]⟩
  · exact warm.trans (congrArg _ (if_pos (state.trans low)))
  · have body : warmCmd t = (t.clearPkg false).startBoot true := (if_neg (by omega)).trans (State.pkgReset_early false (state.trans early))
    obtain ⟨-, path, running, passed, -, fuses', store', rings, -⟩ := clearPkg_startBoot t false _ rfl
    exact ⟨_, warm.trans (congrArg _ body), running, path, passed, rings, fuses'.trans fuses, store'.trans store⟩
  · have body : warmCmd t = t.beginReset (.package false) false false := (if_neg (by omega)).trans (State.pkgReset_late false (by omega))
    obtain ⟨x, begun, resets, scope, -, -⟩ := beginPkgReset (s := t) false ((idle false).trans fresh)
    exact ⟨_, x, warm.trans (congrArg _ body), begun, resets, scope⟩
  · obtain ⟨frame, regs, kind, count⟩ := clrAttempts_effect t _ rfl
    rw [attempts] at kind
    exact ⟨_, clr, frame, others.trans regs, kind, count⟩

/-- Settles O42: stages through `endStage_kept` and `passStage_passed`, failures through `restart_effect` and `lowWater_effect`. -/
theorem bootStagesPassOrFail : Obligations.BootStagesPassOrFail := by
  unfold Obligations.BootStagesPassOrFail
  refine fun s => ⟨fun k up on sound kept => ⟨fun ready => ?_, fun st cause hc nonzero live other => ?_, fun reason ok => ?_⟩,
    fun up running => ?_, fun r served => bootCtrl_effect served⟩
  · have body : exec (.bootStageComplete k .pass) s = .next (s.passStage k.val) := by
      refine congrArg Host.Outcome.next ((if_pos (by simp [up, on])).trans ?_)
      unfold stageComplete
      rw [sound]
      exact (if_pos ready).trans (State.endStage_kept (hold := []) kept)
    have frame : SameBut [.freeCtr, .regs, .caps, .plots, .chans, .slices, .norias, .dram, .chk, .net, .rr, .links, .reqTabs, .stks, .sensors,
        .coolant, .parts, .rings, .funcs, .lndErr, .cfg, .errs, .xngs, .eps, .groups, .coll, .cores, .caches, .media, .sec, .boot, .store, .faults,
        .dbg, .cnts, .toll, .wire] s (s.passStage k.val) :=
      State.endStage_kept (hold := []) kept ▸ State.endStage_same _ _ (.refl s) rfl
    refine ⟨_, body, s.passStage_passed k.val, frame.fuses (by decide), frame.pending (by decide), fun last => ?_⟩
    rw [last]
    exact s.passStage_ready
  · have holds : holdCause k.val ≠ 0 := fun h => nonzero (BitVec.eq_of_toNat_eq (hc.trans h))
    have body : exec (.bootStageComplete k (.holdOut [st] cause)) s = .next (s.endStage k.val [st.val]) := by
      refine congrArg Host.Outcome.next ((if_pos (by simp [up, on])).trans ?_)
      unfold stageComplete
      rw [sound]
      exact if_pos ⟨hc, nonzero⟩
    exact ⟨_, body, endStage_holds st.isLt holds live other⟩
  · have body : exec (.bootStageComplete k (.fail reason)) s = .next (s.failStart k.val reason.toNat) := by
      refine congrArg Host.Outcome.next ((if_pos (by simp [up, on])).trans ?_)
      unfold stageComplete
      rw [sound]
      exact if_pos ok
    refine ⟨_, body, fun fatal => ?_, fun counted => ?_⟩
    · unfold State.failStart
      rw [if_pos fatal]
      exact s.lowWater_effect k.val reason.isLt
    · unfold State.failStart
      rw [if_neg (by omega)]
      obtain ⟨state, again, passed, number, fuses, net, -⟩ := s.restart_effect k.val reason.toNat
      exact ⟨state, again, passed, number, fuses, net⟩
  · have body : exec .bootWatchdog s = .next (s.restart (s.fld (bootReg 0x040) 0 5) 9) :=
      congrArg Host.Outcome.next ((if_pos (by simp [up, running])).trans (if_neg (by decide)))
    obtain ⟨state, again, passed, number, fuses, -, plots⟩ := s.restart_effect (s.fld (bootReg 0x040) 0 5) 9
    exact ⟨_, body, state, again, passed, number, fuses, plots⟩

end Boot
end Sys2Proof.Machine
end

section
/-!
The settings store's window (R462, R487) and the flood (R479 to R481): the store's bytes after a read, a program and an erase,
what a receiver still misses, and what a repair round and its end leave.
-/
namespace Sys2Proof.Machine

section StoreFlood
variable {s s0 : State}

/-! ### Words and bytes -/

theorem leBytes_leVal (l : List Byte) : leBytes l.length (leVal l) = l := by
  induction l with
  | nil => rfl
  | cons b l ih =>
    have low : BitVec.ofNat 8 (b.toNat + 256 * leVal l) = b := BitVec.eq_of_toNat_eq (by
      rw [BitVec.toNat_ofNat, Nat.add_mul_mod_self_left, Nat.mod_eq_of_lt b.isLt])
    have high : (b.toNat + 256 * leVal l) / 256 = leVal l := by
      have := b.isLt
      omega
    rw [List.length_cons, leVal, leBytes, low, high, ih]

theorem leVal_lt (l : List Byte) : leVal l < 256 ^ l.length := by
  induction l with
  | nil => decide
  | cons b l ih =>
    have := b.isLt
    rw [leVal, List.length_cons, pow_succ]
    omega

/-- R7: a stored word of four bytes gives them back. -/
theorem leBytes_word (l : List Byte) (i : Nat) : leBytes 4 (BitVec.ofNat 32 (leAt l i 4)).toNat = slice l i 4 := by
  have whole : (slice l i 4).length = 4 := length_slice _ _ _
  have below := leVal_lt (slice l i 4)
  rw [whole] at below
  rw [BitVec.toNat_ofNat, Nat.mod_eq_of_lt (show leAt l i 4 < 2 ^ 32 from below), leAt]
  exact (congrArg (leBytes · (leVal (slice l i 4))) whole.symm).trans (leBytes_leVal _)

theorem slice_append (l : List Byte) (i m n : Nat) : slice l i (m + n) = slice l i m ++ slice l (i + m) n := by
  simp [slice, List.range_add, Nat.add_assoc]

theorem flatMap_slice (l : List Byte) (m n : Nat) : (List.range n).flatMap (fun i => slice l (m * i) m) = slice l 0 (m * n) := by
  induction n with
  | zero => rfl
  | succ n ih => rw [List.range_succ, List.flatMap_append, ih, Nat.mul_succ, slice_append, List.flatMap_singleton, Nat.zero_add]

/-- The words of a byte string of whole words give its bytes. -/
theorem bytesOf_words (l : List Byte) {n : Nat} (h : l.length = 4 * n) :
    bytesOf ((List.range n).map fun i => BitVec.ofNat 32 (leAt l (4 * i) 4)) = l := by
  rw [bytesOf, List.flatMap_map]
  calc (List.range n).flatMap (fun i => leBytes 4 (BitVec.ofNat 32 (leAt l (4 * i) 4)).toNat)
      = (List.range n).flatMap fun i => slice l (4 * i) 4 := by simp only [leBytes_word]
    _ = slice l 0 (4 * n) := flatMap_slice l 4 n
    _ = l := by rw [← h, slice_all]

/-! ### The window (R487, R490) -/

theorem length_windowBytes (s : State) : (windowBytes s).length = 256 :=
  (length_flatMap_leBytes _ 4 _).trans (by rw [List.length_map, List.length_range])

/-- Each register of a run that is written one after another reads its own word. -/
theorem reg_foldl_setReg (a : Nat → Nat) (v : Nat → Word) (n : Nat) (inj : ∀ i j, a i = a j → i = j) {i : Nat} (h : i < n) (s : State) :
    ((List.range n).foldl (fun s i => s.setReg (a i) (v i)) s).reg (a i) = v i := by
  induction n with
  | zero => exact absurd h (Nat.not_lt_zero i)
  | succ n ih =>
    rw [List.range_succ, List.foldl_append, List.foldl_cons, List.foldl_nil]
    rcases Nat.lt_succ_iff_lt_or_eq.1 h with below | rfl
    · rw [State.reg_setReg_ne _ _ fun e => absurd (inj _ _ e) (by omega), ih below]
    · rw [State.reg_setReg_same]

/-- R490: the bytes of the window after a read of the store. -/
theorem windowBytes_read (s : State) {b : List Byte} (whole : b.length = 256) {u : State}
    (h : ∀ i < 64, u.reg (bootReg (0x200 + 4 * i)) =
      ((List.range 64).foldl (fun s i => s.setReg (bootReg (0x200 + 4 * i)) (BitVec.ofNat 32 (leAt b (4 * i) 4))) s).reg (bootReg (0x200 + 4 * i))) :
    windowBytes u = b := by
  refine Eq.trans ?_ (bytesOf_words b (n := 64) whole)
  unfold windowBytes
  refine congrArg bytesOf (List.map_congr_left fun i hi => ?_)
  have below := List.mem_range.1 hi
  rw [h i below]
  refine reg_foldl_setReg (fun i => bootReg (0x200 + 4 * i)) (fun i => BitVec.ofNat 32 (leAt b (4 * i) 4)) 64 (fun i j e => ?_) below s
  simp only [bootReg, regAddr] at e
  omega

/-! ### Commands of the window (R487) -/

theorem storeCmd_accepted {c : BitVec 2} (idle : s.fld (bootReg 0x108) 0 2 ≠ 1) (command : c ≠ 0) {a : Nat}
    (ha : a = s.fld (bootReg 0x100) 0 26 / 256 * 256) (free : c = 1 ∨ storeProtected a = false) :
    SameBut [.boot, .regs] s (storeCmd c s) ∧ OtherRegs [bootReg 0x108] s (storeCmd c s) ∧
      (storeCmd c s).fld (bootReg 0x108) 0 2 = 1 ∧ ∃ g, (storeCmd c s).boot.sstore = some (c, a, g) := by
  subst ha
  refine ⟨storeCmd_same c (.refl s) rfl, ?_⟩
  unfold storeCmd
  dsimp only
  rw [if_neg (not_or.2 ⟨idle, command⟩), if_neg (by rcases free with h | h <;> simp [h])]
  exact ⟨otherRegs_setFld (s := { s with boot := _ }) _ _ _ (by simp), State.fld_setFld_same _ _ 1 (by decide), _, rfl⟩

theorem storeCmd_protected {c : BitVec 2} (idle : s.fld (bootReg 0x108) 0 2 ≠ 1) (command : c ≠ 0) (writes : c ≠ 1)
    (area : storeProtected (s.fld (bootReg 0x100) 0 26 / 256 * 256) = true) :
    storeCmd c s = s.setBit (bootReg 0x108) 2 := by
  unfold storeCmd
  dsimp only
  rw [if_neg (not_or.2 ⟨idle, command⟩), if_pos ⟨writes, area⟩]

/-- R487: what a served command leaves. -/
theorem sstore_effect {r : Req} (served : reach s r false (bootReg 0x104) = .ok) (idle : s.fld (bootReg 0x108) 0 2 ≠ 1)
    {i : Instr} {c : BitVec 2} (body : exec i s = .next (s.access r (bootReg 0x104) (storeCmd c))) (command : c ≠ 0) {a : Nat}
    (ha : a = s.fld (bootReg 0x100) 0 26 / 256 * 256) :
    (c = 1 ∨ storeProtected a = false → ∃ u, exec i s = .next u ∧ SameBut [.boot, .regs] (s.reqStepped r) u ∧
      OtherRegs [bootReg 0x108] s u ∧ u.fld (bootReg 0x108) 0 2 = 1 ∧ ∃ g, u.boot.sstore = some (c, a, g)) ∧
    (c ≠ 1 → storeProtected a = true → ∃ u, exec i s = .next u ∧ SameBut [.regs] (s.reqStepped r) u ∧
      OtherRegs [bootReg 0x108] s u ∧ u.bit (bootReg 0x108) 2 = true) := by
  have runs := body.trans (outcome_access _ served)
  have others := (s.reqStepped_frame r).otherRegs (by decide) [bootReg 0x108]
  have ha' : a = (s.reqStepped r).fld (bootReg 0x100) 0 26 / 256 * 256 := by rw [ha, State.reqStepped_fld]
  have idle' : (s.reqStepped r).fld (bootReg 0x108) 0 2 ≠ 1 := by rwa [State.reqStepped_fld]
  generalize s.reqStepped r = t at *
  refine ⟨fun free => ?_, fun writes area => ?_⟩
  · obtain ⟨frame, regs, busy, command⟩ := storeCmd_accepted idle' command ha' free
    exact ⟨_, runs, frame, others.trans regs, busy, command⟩
  · rw [storeCmd_protected idle' command writes (ha' ▸ area)] at runs
    exact ⟨_, runs, State.setBit_same _ _ (.refl t) rfl, others.trans (otherRegs_setBit _ (by simp)), t.bit_setBit_same _ (by decide)⟩

/-! ### The end of a command (R462, R487) -/

/-- The end of a command, done or failed. -/
def sstoreEnd (r : State × Bool) : State :=
  { r.1 with boot := { r.1.boot with sstore := none } }.setFld (bootReg 0x108) 0 2 (if r.2 then 2 else 3)

theorem exec_sstoreDone {c : BitVec 2} {a g : Nat} (ok : Bool) (up : pkgUp s = true) (runs : s.boot.sstore = some (c, a, g))
    (due : storeWaits s g = false) : exec (.sstoreDone ok) s = .next (sstoreEnd (if ok then storeEffect c a s else (s, false))) := by
  change execSstoreDone ok s = _
  unfold execSstoreDone
  rw [runs]
  exact congrArg Host.Outcome.next (if_neg (by simp [up, due]))

theorem sstoreEnd_effect (t : State) (done : Bool) :
    SameBut [.boot, .regs] t (sstoreEnd (t, done)) ∧ (sstoreEnd (t, done)).boot.sstore = none ∧
      (sstoreEnd (t, done)).fld (bootReg 0x108) 0 2 = (if done then 2 else 3) ∧ OtherRegs [bootReg 0x108] t (sstoreEnd (t, done)) := by
  refine ⟨State.setFld_same _ _ _ _ (SameBut.lit_boot (.refl t) rfl) rfl, rfl, ?_, otherRegs_setFld (s := { t with boot := _ }) _ _ _ (by simp)⟩
  refine (State.fld_setFld_same _ _ _ (by decide)).trans ?_
  cases done <;> rfl

theorem tget_storePut (s : State) (a : Nat) (bytes : List Byte) {i : Nat} (h : i < bytes.length) :
    tget 0xFF (s.storePut a bytes).store (a + i) = bytes[i] := tget_tputs_in _ _ _ _ _ h

theorem tget_storePut_out (s : State) (a : Nat) {bytes : List Byte} {b : Nat} (h : b < a ∨ a + bytes.length ≤ b) :
    tget 0xFF (s.storePut a bytes).store b = tget 0xFF s.store b := tget_tputs_out _ _ _ _ _ h

/-- R462: a programmed page reads as what was programmed. -/
theorem storeBytes_storePut (s : State) (a : Nat) (bytes : List Byte) : storeBytes (s.storePut a bytes) a bytes.length = bytes := by
  refine List.ext_getElem (length_tgets _ _ _ _) fun i h h' => ?_
  simp only [storeBytes, tgets_eq_map, List.getElem_map, List.getElem_range]
  exact tget_storePut s a bytes h'

theorem storeBytes_one (s : State) (b : Nat) : storeBytes s b 1 = [tget 0xFF s.store b] := rfl

/-- R462: the erased block reads ones, every other byte as before. -/
theorem storeBytes_storeErase (s : State) (a b : Nat) :
    storeBytes (s.storeErase (a / 65536 * 65536) (a / 65536 * 65536 + 65536)) b 1 =
      if b / 65536 = a / 65536 then [0xFF] else storeBytes s b 1 := by
  rw [storeBytes_one, storeBytes_one]
  unfold State.storeErase
  dsimp only
  rw [tget_tkeep]
  by_cases inside : b / 65536 = a / 65536
  · rw [if_pos inside, if_neg (by simp; omega)]
  · rw [if_neg inside, if_pos (by simp; omega)]

theorem storeBytes_of_store {t : State} (h : t.store = s.store) (a n : Nat) : storeBytes t a n = storeBytes s a n := by
  unfold storeBytes
  rw [h]

/-- R487: what the end of each command leaves. -/
theorem sstoreDone_effect {c : BitVec 2} {a g : Nat} (up : pkgUp s = true) (runs : s.boot.sstore = some (c, a, g))
    (due : storeWaits s g = false) :
    (∃ u, exec (.sstoreDone false) s = .next u ∧ SameBut [.boot, .regs] s u ∧ u.boot.sstore = none ∧ u.fld (bootReg 0x108) 0 2 = 3) ∧
    (c = 1 → ∃ u, exec (.sstoreDone true) s = .next u ∧ SameBut [.boot, .regs] s u ∧ u.fld (bootReg 0x108) 0 2 = 2 ∧
      windowBytes u = storeBytes s a 256) ∧
    (c = 2 → pageErased s a = true → ∃ u, exec (.sstoreDone true) s = .next u ∧ SameBut [.boot, .regs, .store] s u ∧
      u.fld (bootReg 0x108) 0 2 = 2 ∧ storeBytes u a 256 = windowBytes s ∧
      ∀ b, b < a ∨ a + 256 ≤ b → storeBytes u b 1 = storeBytes s b 1) ∧
    (c = 2 → pageErased s a = false → ∃ u, exec (.sstoreDone true) s = .next u ∧ SameBut [.boot, .regs] s u ∧
      u.fld (bootReg 0x108) 0 2 = 3) ∧
    (c = 3 → ∃ u, exec (.sstoreDone true) s = .next u ∧ SameBut [.boot, .regs, .store] s u ∧ u.fld (bootReg 0x108) 0 2 = 2 ∧
      ∀ b, storeBytes u b 1 = if b / 65536 = a / 65536 then [0xFF] else storeBytes s b 1) := by
  have done := exec_sstoreDone true up runs due
  rw [if_pos rfl] at done
  refine ⟨?_, ?_, ?_, ?_, ?_⟩
  · obtain ⟨frame, idle, failed, -⟩ := sstoreEnd_effect s false
    exact ⟨_, exec_sstoreDone false up runs due, frame, idle, failed⟩
  · rintro rfl
    obtain ⟨frame, -, ready, others⟩ := sstoreEnd_effect (storeEffect 1 a s).1 true
    have read : SameBut [.regs] s (storeEffect 1 a s).1 := SameBut.foldl (.refl s) fun _ _ h => State.setReg_same _ _ h rfl
    refine ⟨_, done, (read.mono rfl).trans frame, ready, windowBytes_read s (length_tgets _ _ _ _) fun i hi => others _ ?_⟩
    simp only [List.mem_singleton, bootReg, regAddr]
    omega
  · rintro rfl erased
    have body : storeEffect 2 a s = (s.storePut a (windowBytes s), true) := if_pos erased
    rw [body] at done
    obtain ⟨frame, -, ready, -⟩ := sstoreEnd_effect (s.storePut a (windowBytes s)) true
    have put : SameBut [.store] s (s.storePut a (windowBytes s)) := State.storePut_same _ _ (.refl s) rfl
    have store := frame.store (by decide)
    refine ⟨_, done, (put.mono rfl).trans (frame.mono rfl), ready, ?_, fun b hb => ?_⟩
    · have written := storeBytes_storePut s a (windowBytes s)
      rw [length_windowBytes] at written
      rw [storeBytes_of_store store, written]
    · rw [storeBytes_of_store store, storeBytes_one, storeBytes_one]
      rw [tget_storePut_out s a (by rwa [length_windowBytes])]
  · rintro rfl used
    have body : storeEffect 2 a s = (s, false) := if_neg (by simp [used])
    rw [body] at done
    obtain ⟨frame, -, failed, -⟩ := sstoreEnd_effect s false
    exact ⟨_, done, frame, failed⟩
  · rintro rfl
    have body : storeEffect 3 a s = (s.storeErase (a / 65536 * 65536) (a / 65536 * 65536 + 65536), true) := rfl
    rw [body] at done
    obtain ⟨frame, -, ready, -⟩ := sstoreEnd_effect (s.storeErase (a / 65536 * 65536) (a / 65536 * 65536 + 65536)) true
    have erased : SameBut [.store] s (s.storeErase (a / 65536 * 65536) (a / 65536 * 65536 + 65536)) := State.storeErase_same _ _ (.refl s) rfl
    refine ⟨_, done, (erased.mono rfl).trans (frame.mono rfl), ready, fun b => ?_⟩
    rw [storeBytes_of_store (frame.store (by decide)), storeBytes_storeErase]

/-! ### Receivers (R479) -/

@[simp] theorem State.receiver_updReceiver_same (s : State) (r : Nat) (f : Receiver → Receiver) :
    (s.updReceiver r f).receiver r = f (s.receiver r) := tget_tput_same _ _ _ _

theorem State.receiver_updReceiver_ne (s : State) {r j : Nat} (f : Receiver → Receiver) (h : j ≠ r) :
    (s.updReceiver r f).receiver j = s.receiver j := tget_tput_ne _ _ _ h

theorem State.receiver_of_boot {t : State} (h : t.boot = s.boot) (r : Nat) : t.receiver r = s.receiver r := by
  unfold State.receiver
  rw [h]

/-- What a receiver misses depends on its bitmap and on the sections. -/
theorem missing_congr {t : State} {r : Nat} (sections : t.boot.sections = s.boot.sections)
    (got : (t.receiver r).got = (s.receiver r).got) : missing t r = missing s r := by
  unfold missing recvSections
  rw [sections, got]

/-- R479: the block is in the receiver's bitmap. -/
theorem floodBlock_effect (r num : Nat) (data : List Byte) :
    ∀ u, u = (s.installBlock r num data).updReceiver r (fun R => { R with got := num :: R.got, asked := R.asked.filter (· != num) }) →
      SameBut [.plots, .slices, .stks, .boot] s u ∧ (u.receiver r).got = num :: (s.receiver r).got ∧ num ∉ missing u r := by
  rintro u rfl
  have installed : SameBut [.plots, .slices, .stks] s (s.installBlock r num data) := State.installBlock_same _ _ _ (.refl s) rfl
  have before := State.receiver_of_boot (installed.boot (by decide)) r
  generalize s.installBlock r num data = t at *
  have noted : SameBut [.boot] t (t.updReceiver r fun R => { R with got := num :: R.got, asked := R.asked.filter (· != num) }) :=
    State.updReceiver_same _ _ (.refl t) rfl
  have got : ((t.updReceiver r fun R => { R with got := num :: R.got, asked := R.asked.filter (· != num) }).receiver r).got =
      num :: (s.receiver r).got := by rw [State.receiver_updReceiver_same, before]
  refine ⟨(installed.mono rfl).trans (noted.mono rfl), got, fun wanted => ?_⟩
  have clear := (List.mem_filter.1 wanted).2
  rw [got] at clear
  simp at clear

/-! ### Repair rounds (R480) -/

/-- A receiver asks for what it misses. -/
def State.askFor (s : State) (r : Nat) : State :=
  (s.addFld (bootReg 0x0C4) 12 10 (missing s r).length).updReceiver r fun R => { R with asked := missing s r }

/-- A round begins. -/
def State.roundBegun (s : State) : State := { s with boot := { s.boot with roundOn := true } }.addFld (bootReg 0x0C4) 10 2 1

theorem State.startRound_eq (s : State) : s.startRound = ((incomplete s).foldl (fun s r => s.askFor r) s).roundBegun := rfl

/-- A count in FLOOD_STAT leaves the rounds and the receivers. -/
theorem State.addFld_rounds (s : State) (n : Nat) :
    OtherRegs [bootReg 0x0C4] s (s.addFld (bootReg 0x0C4) 12 10 n) ∧ floodRounds (s.addFld (bootReg 0x0C4) 12 10 n) = floodRounds s ∧
      (s.addFld (bootReg 0x0C4) 12 10 n).boot = s.boot := by
  unfold State.addFld floodRounds
  exact ⟨otherRegs_setFld _ _ _ (by simp), s.fld_setFld_ne _ _ (by decide) (by decide),
    SameBut.boot (w := [.regs]) (State.setFld_same _ _ _ _ (.refl s) rfl) (by decide)⟩

theorem missing_updReceiver (s : State) (r : Nat) (m : List Nat) (j : Nat) :
    missing (s.updReceiver r fun R => { R with asked := m }) j = missing s j := by
  refine missing_congr rfl ?_
  by_cases h : j = r
  · rw [h, State.receiver_updReceiver_same]
  · rw [s.receiver_updReceiver_ne _ h]

theorem State.askFor_effect (s : State) (r : Nat) :
    OtherRegs [bootReg 0x0C4] s (s.askFor r) ∧ floodRounds (s.askFor r) = floodRounds s ∧
      (∀ j, missing (s.askFor r) j = missing s j) ∧ ((s.askFor r).receiver r).asked = missing s r ∧
      ∀ j, j ≠ r → (s.askFor r).receiver j = s.receiver j := by
  unfold State.askFor
  generalize missing s r = m
  obtain ⟨regs, rounds, boot⟩ := s.addFld_rounds m.length
  generalize s.addFld (bootReg 0x0C4) 12 10 m.length = t at *
  have noted : SameBut [.boot] t (t.updReceiver r fun R => { R with asked := m }) := State.updReceiver_same _ _ (.refl t) rfl
  refine ⟨regs.trans (noted.otherRegs (by decide) _), (noted.fld (by decide) _ _ _).trans rounds, fun j => ?_, ?_, fun j hj => ?_⟩
  · rw [missing_updReceiver]
    exact missing_congr (by rw [boot]) (by rw [State.receiver_of_boot boot])
  · rw [State.receiver_updReceiver_same]
  · rw [t.receiver_updReceiver_ne _ hj, State.receiver_of_boot boot]

theorem foldl_askFor (l : List Nat) (s : State) :
    ∀ u, u = l.foldl (fun s r => s.askFor r) s → OtherRegs [bootReg 0x0C4] s u ∧ floodRounds u = floodRounds s ∧
      ∀ r, r ∈ l ∨ (s.receiver r).asked = missing s r → (u.receiver r).asked = missing s r := by
  induction l generalizing s with
  | nil =>
    rintro u rfl
    exact ⟨.refl _, rfl, fun r h => h.resolve_left (by simp)⟩
  | cons a l ih =>
    rintro u rfl
    obtain ⟨regs, rounds, wants, asked, others⟩ := s.askFor_effect a
    obtain ⟨regs', rounds', asks⟩ := ih (s.askFor a) _ rfl
    refine ⟨regs.trans regs', rounds'.trans rounds, fun r h => (asks r ?_).trans (wants r)⟩
    rw [wants r]
    by_cases e : r = a
    · rw [e]
      exact .inr asked
    · rw [others r e]
      exact h.imp_left fun hm => (List.mem_cons.1 hm).resolve_left e

/-- R480: every receiver with a clear bit has asked, and a round more runs. -/
theorem State.startRound_effect (s : State) :
    SameBut [.regs, .boot] s s.startRound ∧ OtherRegs [bootReg 0x0C4] s s.startRound ∧ s.startRound.boot.roundOn = true ∧
      floodRounds s.startRound = satAdd 2 (floodRounds s) 1 ∧ ∀ r ∈ incomplete s, (s.startRound.receiver r).asked = missing s r := by
  refine ⟨State.startRound_same (.refl s) rfl, ?_⟩
  rw [State.startRound_eq]
  obtain ⟨regs, rounds, asks⟩ := foldl_askFor (incomplete s) s _ rfl
  generalize (incomplete s).foldl (fun s r => s.askFor r) s = t at *
  refine ⟨regs.trans (otherRegs_setFld (s := { t with boot := _ }) _ _ _ (by simp)), rfl, ?_, fun r hr => asks r (.inl hr)⟩
  rw [← rounds]
  exact State.fld_addFld_same _ _ _ (by decide)

/-! ### The end of the last round (R481) -/

/-- R481: a receiver held out keeps the other receivers as they are. -/
theorem State.holdReceiver_out (s : State) (r : Nat) :
    ((s.holdReceiver r).receiver r).out = true ∧ (∀ j, j ≠ r → (s.holdReceiver r).receiver j = s.receiver j) ∧
      (s.holdReceiver r).boot.roundOn = s.boot.roundOn := by
  have boot : (s.holdReceiver r).boot = (s.updReceiver r fun R => { R with out := true, asked := [] }).boot := by
    unfold State.holdReceiver
    dsimp only
    generalize s.updReceiver r _ = t
    have frame : ∀ u : State, u.boot = t.boot → (u.failPlot r .flood).boot = t.boot := fun u h => by
      have kept : SameBut [.freeCtr, .regs, .plots, .chans, .norias, .net, .reqTabs, .stks, .parts, .rings, .errs, .cores, .faults, .dbg, .cnts, .wire]
        u (u.failPlot r .flood) := State.failPlot_same _ _ (.refl u) rfl
      exact (kept.boot (by decide)).trans h
    split
    · exact (State.setBit_same _ _ (.refl t) rfl : SameBut [.regs] t _).boot (by decide)
    · refine frame _ (SameBut.boot (w := [.slices, .regs]) ?_ (by decide))
      exact .ite (.refl t) (State.setReg_same _ _ (State.updSlc_same _ _ (.refl t) rfl) rfl)
  refine ⟨?_, fun j hj => ?_, (congrArg Boot.roundOn boot :)⟩
  · rw [State.receiver_of_boot boot, State.receiver_updReceiver_same]
  · rw [State.receiver_of_boot boot, State.receiver_updReceiver_ne _ _ hj]

theorem foldl_holdReceiver (l : List Nat) (s : State) :
    (l.foldl (fun s r => s.holdReceiver r) s).boot.roundOn = s.boot.roundOn ∧
      ∀ r, r ∈ l ∨ (s.receiver r).out = true → ((l.foldl (fun s r => s.holdReceiver r) s).receiver r).out = true := by
  induction l generalizing s with
  | nil => exact ⟨rfl, fun r h => h.resolve_left (by simp)⟩
  | cons a l ih =>
    obtain ⟨held, others, round⟩ := s.holdReceiver_out a
    obtain ⟨round', outs⟩ := ih (s.holdReceiver a)
    refine ⟨round'.trans round, fun r h => outs r ?_⟩
    by_cases e : r = a
    · exact .inr (e ▸ held)
    · rw [others r e]
      exact h.imp_left fun hm => (List.mem_cons.1 hm).resolve_left e

/-- R480, R481: the end of a repair round. -/
theorem State.endRound_effect (s : State) :
    ∀ u, u = s.endRound →
      (incomplete s = [] → SameBut [.boot] s u ∧ u.boot.roundOn = false ∧ floodOver u = true) ∧
      (incomplete s ≠ [] → floodRounds s < 3 → SameBut [.regs, .boot] s u ∧ floodRounds u = floodRounds s + 1 ∧
        ∀ r ∈ incomplete s, (u.receiver r).asked = missing s r) ∧
      (incomplete s ≠ [] → floodRounds s = 3 → u.boot.roundOn = false ∧ u.fuses = s.fuses ∧ u.dram = s.dram ∧
        ∀ r ∈ incomplete s, (u.receiver r).out = true) := by
  rintro u rfl
  unfold State.endRound
  dsimp only
  generalize ht : ({ s with boot := { s.boot with roundOn := false } } : State) = t
  have frame : SameBut [.boot] s t := ht ▸ SameBut.lit_boot (.refl s) rfl
  have off : t.boot.roundOn = false := by rw [← ht]
  have left : incomplete t = incomplete s := by rw [← ht]; rfl
  have wants : ∀ r, missing t r = missing s r := fun r => by rw [← ht]; rfl
  have rounds : floodRounds t = floodRounds s := frame.fld (by decide) _ _ _
  clear ht
  rw [rounds]
  refine ⟨fun none_ => ?_, fun some_ more => ?_, fun some_ last => ?_⟩
  · rw [if_pos (left.trans none_)]
    refine ⟨frame, off, ?_⟩
    simp [floodOver, off, left, none_]
  · rw [if_neg (left ▸ some_), if_pos more]
    obtain ⟨kept, -, -, counted, asked⟩ := t.startRound_effect
    refine ⟨(frame.mono rfl).trans kept, ?_, fun r hr => (asked r (left ▸ hr)).trans (wants r)⟩
    rw [counted, rounds, satAdd]
    omega
  · rw [if_neg (left ▸ some_), if_neg (by omega), left]
    obtain ⟨round, outs⟩ := foldl_holdReceiver (incomplete s) t
    have kept : SameBut [.freeCtr, .regs, .plots, .chans, .slices, .norias, .net, .reqTabs, .stks, .parts, .rings, .errs, .cores, .boot, .faults, .dbg, .cnts, .wire]
      t ((incomplete s).foldl (fun s r => s.holdReceiver r) t) := SameBut.foldl (.refl t) fun _ _ h => State.holdReceiver_same _ h rfl
    refine ⟨round.trans off, (kept.fuses (by decide)).trans (frame.fuses (by decide)), (kept.dram (by decide)).trans (frame.dram (by decide)),
      fun r hr => outs r (.inl hr)⟩

/-- Settles O43: the window through `sstore_effect` and `sstoreDone_effect`, the flood through `startRound_effect` and `endRound_effect`. -/
theorem theStoreAndTheFloodMoveBytes : Obligations.TheStoreAndTheFloodMoveBytes := by
  unfold Obligations.TheStoreAndTheFloodMoveBytes
  refine ⟨fun s => ⟨fun r served idle x hx a ha => ?_, fun c a g up runs due => sstoreDone_effect up runs due⟩,
    fun s up flooding => ⟨fun r num data takes fit => ⟨fun taken => ?_, fun refused => ?_⟩, fun idle none_ some_ => ?_, fun runs => ?_⟩⟩
  · simp only [List.mem_cons, List.not_mem_nil, or_false] at hx
    rcases hx with rfl | rfl | rfl
    · exact sstore_effect served idle rfl (c := 1) (by decide) ha
    · exact sstore_effect served idle rfl (c := 2) (by decide) ha
    · exact sstore_effect served idle rfl (c := 3) (by decide) ha
  · exact ⟨_, congrArg Host.Outcome.next (if_pos (by simp [up, flooding, takes, fit, taken])), floodBlock_effect r num data _ rfl⟩
  · exact congrArg Host.Outcome.next (if_neg (by simp [refused]))
  · obtain ⟨frame, regs, round, counted, asked⟩ := s.startRound_effect
    refine ⟨_, congrArg Host.Outcome.next (if_pos (by simp [up, flooding, idle, none_, some_])), frame, regs, round, ?_, asked⟩
    rw [counted, none_]
    rfl
  · exact ⟨_, congrArg Host.Outcome.next (if_pos (by simp [up, flooding, runs])), s.endRound_effect _ rfl⟩

end StoreFlood
end Sys2Proof.Machine
end

section
/-!
Writes of registers (R10, R611, R612, R615, R619, R623): the fields of a register do not overlap, so each takes its bits of the
written word by its own access code; what a refused write leaves in the error log.
-/
namespace Sys2Proof.Machine

section Writes
variable {s s0 : State}

/-! ### The fields of a page -/

/-- One past the last offset that a field can cover. -/
def RField.last (f : RField) : Nat := if f.n ≤ 1 then f.off + 1 else f.off + f.n * f.stride

/-- The bits of two fields do not overlap. -/
def RField.bitsApart (f g : RField) : Bool := decide (g.lsb + g.w ≤ f.lsb) || decide (f.lsb + f.w ≤ g.lsb)

/-- Two fields share no bit of any register: other bits, other ranges of offsets, or interleaved registers. -/
def RField.apart (f g : RField) : Bool :=
  f.bitsApart g || decide (f.last ≤ g.off) || decide (g.last ≤ f.off) ||
    (decide (1 < f.n) && decide (1 < g.n) && f.stride == g.stride && f.off % f.stride != g.off % g.stride)

/-- A field lies in a word, and like registers do not coincide. -/
def RField.sound (f : RField) : Bool := decide (f.lsb + f.w ≤ 32) && (decide (0 < f.stride) || decide (f.n ≤ 1))

theorem RField.off_of_covers {f : RField} {x : Nat} (h : f.covers x = true) (ok : f.sound = true) :
    f.off ≤ x ∧ x < f.last ∧ (1 < f.n → x % f.stride = f.off % f.stride) := by
  simp only [RField.sound, Bool.and_eq_true, Bool.or_eq_true, decide_eq_true_eq] at ok
  unfold RField.covers at h
  unfold RField.last
  split at h
  next one =>
    have : x = f.off := by simpa using h
    rw [if_pos one]
    omega
  next many =>
    simp only [Bool.and_eq_true, decide_eq_true_eq, beq_iff_eq] at h
    obtain ⟨⟨above, below⟩, aligned⟩ := h
    have pos : 0 < f.stride := by omega
    rw [if_neg many]
    refine ⟨above, ?_, fun _ => ?_⟩
    · have := (Nat.div_lt_iff_lt_mul pos).1 below
      omega
    · have parts : x = f.off + (x - f.off) := by omega
      rw [parts, Nat.add_mod, aligned, Nat.add_zero, Nat.mod_mod]

/-- Fields of one register have bits of their own. -/
theorem RField.bitsApart_of_covers {f g : RField} {x : Nat} (apart : f.apart g = true) (hf : f.covers x = true) (hg : g.covers x = true)
    (okf : f.sound = true) (okg : g.sound = true) : f.bitsApart g = true := by
  obtain ⟨low, high, place⟩ := off_of_covers hf okf
  obtain ⟨low', high', place'⟩ := off_of_covers hg okg
  simp only [RField.apart, Bool.or_eq_true, Bool.and_eq_true, decide_eq_true_eq, beq_iff_eq, bne_iff_ne] at apart
  rcases apart with ((h | h) | h) | ⟨⟨⟨mf, mg⟩, same⟩, other⟩
  · exact h
  · omega
  · omega
  · exact absurd ((place mf).symm.trans ((congrArg (x % ·) same).trans (place' mg))) other

/-- The pages whose registers have no effect beyond their own fields. -/
def plainTypes : List Nat := [0x00B, 0x012, 0x018, 0x01D, 0x01E, 0x022, 0x025]

theorem plainTypes_sound : ∀ ty ∈ plainTypes, (fieldsOf ty).all RField.sound = true := by decide

theorem plainTypes_apart : ∀ ty ∈ plainTypes, (fieldsOf ty).Pairwise fun f g => f.apart g = true := by decide

/-- The fields of a register of such a page are in place and apart. -/
theorem fieldsAt_apart {ty off : Nat} (h : ty ∈ plainTypes) (block : 0x40 ≤ off) :
    (∀ f ∈ (fieldsAt ty off).filter fun f => f.covers off, f.lsb + f.w ≤ 32) ∧
      ((fieldsAt ty off).filter fun f => f.covers off).Pairwise fun f g => f.bitsApart g = true := by
  have fields : fieldsAt ty off = fieldsOf ty := if_neg (by omega)
  rw [fields]
  have sound : ∀ f ∈ fieldsOf ty, f.sound = true := List.all_eq_true.1 (plainTypes_sound ty h)
  refine ⟨fun f hf => ?_, ?_⟩
  · have ok := sound f (List.mem_filter.1 hf).1
    simp only [RField.sound, Bool.and_eq_true, decide_eq_true_eq] at ok
    exact ok.1
  · rw [List.pairwise_filter]
    refine List.Pairwise.imp_of_mem (fun hf hg apart cf cg => ?_) (plainTypes_apart ty h)
    exact RField.bitsApart_of_covers apart cf cg (sound _ hf) (sound _ hg)

/-! ### One field (R10, R619) -/

/-- The lock register of a page. -/
def lockReg (a : Nat) : Nat := a / 4096 * 4096 + 0x02C

theorem ne_lockReg {a : Nat} (h : 0x40 ≤ addrOff a) : a ≠ lockReg a := by
  unfold addrOff at h
  unfold lockReg
  omega

theorem State.wrRej_reg (s : State) {a : Nat} (h : 0x40 ≤ addrOff a) : (s.wrRej a).reg a = s.reg a := s.reg_setReg_ne _ (ne_lockReg h)

/-- R10, R619: what a write of `v` to the register at `a` makes of field `f`. -/
structure FieldTakes (r : Req) (ty a v : Nat) (t u : State) (f : RField) : Prop where
  rw : f.acc = .rw → u.fld a f.lsb f.w = nbits v f.lsb f.w
  kept : f.acc = .ro ∨ f.acc = .rc → u.fld a f.lsb f.w = t.fld a f.lsb f.w
  w1c : f.acc = .w1c → u.fld a f.lsb f.w = t.fld a f.lsb f.w - Nat.land (t.fld a f.lsb f.w) (nbits v f.lsb f.w)
  taken : f.acc = .rwl → mayRwl r ty = true → pageLocked t a = false → u.fld a f.lsb f.w = nbits v f.lsb f.w
  locked : f.acc = .rwl → mayRwl r ty = true → pageLocked t a = true →
    u.fld a f.lsb f.w = t.fld a f.lsb f.w ∧ u.bit (lockReg a) 2 = true

/-- What a write leaves of a field and of the lock: the field, whether the page is locked, and a rejection shown before. -/
structure FieldKept (a : Nat) (f : RField) (s t : State) : Prop where
  fld : t.fld a f.lsb f.w = s.fld a f.lsb f.w
  lock : pageLocked t a = pageLocked s a
  rejected : s.bit (lockReg a) 2 = true → t.bit (lockReg a) 2 = true

theorem FieldKept.refl (a : Nat) (f : RField) (s : State) : FieldKept a f s s := ⟨rfl, rfl, id⟩

theorem FieldKept.trans {a : Nat} {f : RField} {s t u : State} (h : FieldKept a f s t) (h' : FieldKept a f t u) : FieldKept a f s u :=
  ⟨h'.fld.trans h.fld, h'.lock.trans h.lock, h'.rejected ∘ h.rejected⟩

theorem FieldTakes.before {r : Req} {ty a v : Nat} {s t u : State} {f : RField} (kept : FieldKept a f s t)
    (h : FieldTakes r ty a v t u f) : FieldTakes r ty a v s u f := by
  obtain ⟨rw_, ro, w1c, taken, locked⟩ := h
  rw [kept.fld] at ro w1c locked
  rw [kept.lock] at taken locked
  exact ⟨rw_, ro, w1c, taken, locked⟩

theorem FieldTakes.after {r : Req} {ty a v : Nat} {s t u : State} {f : RField} (h : FieldTakes r ty a v s t f)
    (kept : FieldKept a f t u) : FieldTakes r ty a v s u f := by
  obtain ⟨rw_, ro, w1c, taken, locked⟩ := h
  rw [← kept.fld] at rw_ ro w1c taken
  exact ⟨rw_, ro, w1c, taken, fun e may lock => ⟨kept.fld.trans (locked e may lock).1, kept.rejected (locked e may lock).2⟩⟩

section Field
variable (r : Req) (ty v : Nat) {a : Nat} (block : 0x40 ≤ addrOff a)
include block

/-- R10: a field takes its bits by its access code. -/
theorem writeField_takes {f : RField} (word : f.lsb + f.w ≤ 32) (s : State) : FieldTakes r ty a v s (writeField r ty a v s f) f := by
  have written : ∀ x, x < 2 ^ f.w → (s.setFld a f.lsb f.w x).fld a f.lsb f.w = x := fun x h => by
    rw [s.fld_setFld_same a x word, Nat.mod_eq_of_lt h]
  have below := nbits_lt v f.lsb f.w
  have old := s.fld_lt a f.lsb f.w
  unfold writeField
  dsimp only
  constructor
  · intro e
    rw [e]
    exact written _ below
  · rintro (e | e) <;> rw [e]
  · intro e
    rw [e]
    exact written _ (lt_of_le_of_lt (Nat.sub_le _ _) old)
  · intro e may free
    rw [e]
    simp only [may, Bool.not_true, Bool.false_eq_true, if_false, free]
    exact written _ below
  · intro e may lock
    rw [e]
    simp only [may, Bool.not_true, Bool.false_eq_true, if_false, lock, if_true]
    refine ⟨?_, s.bit_setBit_same _ (by decide)⟩
    unfold State.fld
    rw [s.wrRej_reg block]

theorem fieldKept_setFld {f g : RField} (word : g.lsb + g.w ≤ 32) (apart : g.bitsApart f = true) (x : Nat) (s : State) :
    FieldKept a f s (s.setFld a g.lsb g.w x) := by
  simp only [RField.bitsApart, Bool.or_eq_true, decide_eq_true_eq] at apart
  have lock : (s.setFld a g.lsb g.w x).reg (lockReg a) = s.reg (lockReg a) := s.reg_setReg_ne _ (ne_lockReg block).symm
  have bits : ∀ i, (s.setFld a g.lsb g.w x).bit (lockReg a) i = s.bit (lockReg a) i := fun i => by
    unfold State.bit State.fld
    rw [lock]
  exact ⟨s.fld_setFld_ne a x word (by omega), bits 0, fun h => (bits 2).trans h⟩

theorem fieldKept_wrRej (f : RField) (s : State) : FieldKept a f s (s.wrRej a) := by
  refine ⟨?_, s.bit_setBit_ne (by decide) (by decide), fun _ => s.bit_setBit_same _ (by decide)⟩
  unfold State.fld
  rw [s.wrRej_reg block]

/-- A field's write leaves the other fields. -/
theorem writeField_keeps {f g : RField} (word : g.lsb + g.w ≤ 32) (apart : g.bitsApart f = true) (s : State) :
    FieldKept a f s (writeField r ty a v s g) := by
  unfold writeField
  dsimp only
  cases g.acc with
  | rw => exact fieldKept_setFld block word apart _ s
  | w1c => exact fieldKept_setFld block word apart _ s
  | w1s => exact fieldKept_setFld block word apart _ s
  | rwl =>
    dsimp only
    split
    · exact .refl _ _ _
    · split
      · exact fieldKept_wrRej block f s
      · exact fieldKept_setFld block word apart _ s
  | ro => exact .refl _ _ _
  | rc => exact .refl _ _ _
  | wo => exact .refl _ _ _

omit block in
theorem otherRegs_writeField (g : RField) (s : State) : OtherRegs [a, lockReg a] s (writeField r ty a v s g) := by
  unfold writeField
  dsimp only
  have mine : ∀ x, OtherRegs [a, lockReg a] s (s.setFld a g.lsb g.w x) := fun x => otherRegs_setFld _ _ _ (by simp)
  cases g.acc with
  | rw => exact mine _
  | w1c => exact mine _
  | w1s => exact mine _
  | rwl =>
    dsimp only
    split
    · exact .refl _
    · split
      · exact otherRegs_setBit (a := lockReg a) _ (by simp)
      · exact mine _
  | ro => exact .refl _
  | rc => exact .refl _
  | wo => exact .refl _

/-! ### A register -/

theorem foldl_writeField_keeps {f : RField} (l : List RField) (words : ∀ g ∈ l, g.lsb + g.w ≤ 32)
    (apart : ∀ g ∈ l, g.bitsApart f = true) (s : State) : FieldKept a f s (l.foldl (writeField r ty a v) s) := by
  induction l generalizing s with
  | nil => exact .refl _ _ _
  | cons g l ih =>
    exact (writeField_keeps r ty v block (words g (by simp)) (apart g (by simp)) s).trans
      (ih (fun h hh => words h (by simp [hh])) (fun h hh => apart h (by simp [hh])) _)

theorem foldl_writeField_takes (l : List RField) (words : ∀ g ∈ l, g.lsb + g.w ≤ 32)
    (apart : l.Pairwise fun f g => f.bitsApart g = true) (s : State) :
    OtherRegs [a, lockReg a] s (l.foldl (writeField r ty a v) s) ∧
      ∀ f ∈ l, FieldTakes r ty a v s (l.foldl (writeField r ty a v) s) f := by
  induction l generalizing s with
  | nil => exact ⟨.refl _, fun f hf => absurd hf (by simp)⟩
  | cons g l ih =>
    obtain ⟨first, rest⟩ := List.pairwise_cons.1 apart
    have words' : ∀ h ∈ l, h.lsb + h.w ≤ 32 := fun h hh => words h (by simp [hh])
    obtain ⟨regs, takes⟩ := ih words' rest (writeField r ty a v s g)
    refine ⟨(otherRegs_writeField r ty v g s).trans regs, fun f hf => ?_⟩
    rcases List.mem_cons.1 hf with rfl | hf
    · have away : ∀ h ∈ l, h.bitsApart f = true := fun h hh => by
        have := first h hh
        simp only [RField.bitsApart, Bool.or_eq_true, decide_eq_true_eq] at this ⊢
        exact this.symm
      exact (writeField_takes r ty v block (words f (by simp)) s).after (foldl_writeField_keeps r ty v block l words' away _)
    · exact (takes f hf).before (writeField_keeps r ty v block (words g (by simp)) (first f hf) s)

end Field

theorem nbits_low (v lo w : Nat) (h : lo + w ≤ 32) : nbits (v % 2 ^ 32) lo w = nbits v lo w := by
  have low : v % 2 ^ 32 = nbits v 0 32 := by simp [nbits]
  rw [low, nbits_nbits _ _ _ _ _ h, Nat.zero_add]

/-- R10, R619: a write to a register of a page without commands. -/
theorem plainWrite_effect (r : Req) {ty a : Nat} (v : Nat) (plain : ty ∈ plainTypes) (block : 0x40 ≤ addrOff a) (s : State) :
    SameBut [.regs] s (plainWrite r ty a (v % 2 ^ 32) s) ∧ OtherRegs [a, lockReg a] s (plainWrite r ty a (v % 2 ^ 32) s) ∧
      ∀ f ∈ fieldsAt ty (addrOff a), f.covers (addrOff a) = true → FieldTakes r ty a v s (plainWrite r ty a (v % 2 ^ 32) s) f := by
  obtain ⟨words, apart⟩ := fieldsAt_apart plain block
  obtain ⟨regs, takes⟩ := foldl_writeField_takes r ty (v % 2 ^ 32) block _ words apart s
  refine ⟨plainWrite_same _ _ _ _ (.refl s) rfl, regs, fun f hf covers => ?_⟩
  have member : f ∈ (fieldsAt ty (addrOff a)).filter fun f => f.covers (addrOff a) := List.mem_filter.2 ⟨hf, covers⟩
  obtain ⟨rw_, ro, w1c, taken, locked⟩ := takes f member
  rw [nbits_low v _ _ (words f member)] at rw_ w1c taken
  exact ⟨rw_, ro, w1c, taken, locked⟩

theorem writeReg_plain (r : Req) {a ty inst : Nat} (v : Nat) (page : pageType (addrDie a) (addrPage a) = some (ty, inst))
    (plain : ty ∈ plainTypes) (block : 0x40 ≤ addrOff a) : writeReg r a v s = plainWrite r ty a v s := by
  unfold writeReg
  rw [page]
  simp only [plainTypes, List.mem_cons, List.not_mem_nil, or_false] at plain
  dsimp only
  rw [if_neg (by omega), if_neg (by omega)]
  rcases plain with rfl | rfl | rfl | rfl | rfl | rfl | rfl <;> rfl

/-! ### Refused accesses (R612, R623) -/

theorem reach_refused_lt {r : Req} {rd : Bool} {a n : Nat} (h : reach s r rd a = .refused n) : n < 4 := by
  unfold reach at h
  dsimp only at h
  split_ifs at h <;> simp at h <;> omega

/-- R623: the second word of the error log. -/
theorem errWord_bits {x c q : Nat} (hx : x < 65536) (hc : c < 16) (hq : q < 32) :
    nbits (BitVec.ofNat 32 (x + c * 2 ^ 16 + q * 2 ^ 20 + 2 ^ 31)).toNat 16 4 = c ∧
      nbits (BitVec.ofNat 32 (x + c * 2 ^ 16 + q * 2 ^ 20 + 2 ^ 31)).toNat 31 1 = 1 := by
  rw [BitVec.toNat_ofNat]
  unfold nbits
  omega

theorem reqSource_lt (r : Req) : reqSource r < 32 := by
  cases r with
  | vf n =>
    have := n.isLt
    exact (by omega : n.val + 1 < 32)
  | pf => decide
  | core => exact (by decide : (17 : Nat) < 32)
  | debug => decide
  | rider => decide
  | steward => exact (by decide : (20 : Nat) < 32)

/-- R623: what a refused access leaves in the error log. -/
theorem State.regErr_effect (s : State) (addr : Nat) {cause : Nat} (hc : cause < 16) (r : Req) :
    SameBut [.regs, .cnts] s (s.regErr addr cause r) ∧
      OtherRegs [pkgReg 0x050, pkgReg 0x054, cntPage 594 0x044] s (s.regErr addr cause r) ∧
      (s.bit (pkgReg 0x054) 31 = false → (s.regErr addr cause r).bit (pkgReg 0x054) 31 = true ∧
        (s.regErr addr cause r).fld (pkgReg 0x054) 16 4 = cause) := by
  refine ⟨State.regErr_same _ _ _ (.refl s) rfl, ?_⟩
  unfold State.regErr
  dsimp only
  have counted : OtherRegs [cntPage 594 0x044] s (s.count 594 2 1) := otherRegs_count _ _ (by simp)
  have others : OtherRegs [pkgReg 0x050, pkgReg 0x054, cntPage 594 0x044] s (s.count 594 2 1) := otherRegs_count _ _ (by simp)
  have flag := counted.bit (a := pkgReg 0x054) (by decide) 31
  generalize s.count 594 2 1 = t at *
  rw [flag]
  split
  next set_ => exact ⟨others, fun clear => absurd (clear.symm.trans set_) (by decide)⟩
  next clear =>
    obtain ⟨number, valid⟩ := errWord_bits (nbits_lt addr 32 16) hc (reqSource_lt r)
    refine ⟨(others.trans (otherRegs_setReg _ (by simp))).trans (otherRegs_setReg _ (by simp)), fun _ => ?_⟩
    unfold State.bit State.fld
    rw [State.reg_setReg_same, number, valid]
    exact ⟨rfl, rfl⟩

/-! ### The header (R615, R619) -/

/-- R619: the lock is taken by one that may write an RWL field. -/
theorem writeLock_effect (r : Req) (ty : Nat) {a : Nat} (place : addrOff a = 0x02C) (s : State) :
    OtherRegs [a] s (writeLock r a ty 1 s) ∧ (hasRwl ty = true → mayRwl r ty = true → pageLocked (writeLock r a ty 1 s) a = true) ∧
      (hasRwl ty = false ∨ mayRwl r ty = false → writeLock r a ty 1 s = s) := by
  have here : a / 4096 * 4096 + 0x02C = a := by
    unfold addrOff at place
    omega
  have body : writeLock r a ty 1 s = if (hasRwl ty && mayRwl r ty) = true then s.setBit a 0 else s := rfl
  rw [body]
  refine ⟨?_, fun has may => ?_, fun none_ => if_neg (by rcases none_ with h | h <;> simp [h])⟩
  · split
    · exact otherRegs_setBit _ (by simp)
    · exact .refl _
  · rw [if_pos (by simp [has, may]), pageLocked, here]
    exact s.bit_setBit_same _ (by decide)

/-- R615: the events forced. -/
theorem forceIrq_effect (a ty v : Nat) (s : State) :
    OtherRegs [a / 4096 * 4096 + 0x014] s (forceIrq a ty v s) ∧
      (forceIrq a ty v s).reg (a / 4096 * 4096 + 0x014) = s.reg (a / 4096 * 4096 + 0x014) ||| BitVec.ofNat 32 (Nat.land v (irqMask ty)) := by
  refine ⟨otherRegs_setFld _ _ _ (by simp), ?_⟩
  unfold forceIrq
  dsimp only
  generalize a / 4096 * 4096 + 0x014 = b
  have whole := s.fld_setFld_same b (Nat.lor (s.fld b 0 32) (Nat.land v (irqMask ty))) (l := 0) (n := 32) (by decide)
  have all : ∀ (t : State), t.fld b 0 32 = (t.reg b).toNat := fun t => by
    unfold State.fld nbits
    rw [Nat.pow_zero, Nat.div_one, Nat.mod_eq_of_lt (t.reg b).isLt]
  rw [all] at whole
  refine BitVec.eq_of_toNat_eq (whole.trans ?_)
  rw [BitVec.toNat_or, BitVec.toNat_ofNat, all]
  change (((s.reg b).toNat ||| Nat.land v (irqMask ty)) % 2 ^ 32) = _
  rw [Nat.or_mod_two_pow, Nat.mod_eq_of_lt (s.reg b).isLt]

/-! ### Any register (R611) -/

theorem regWrite_served {r : Req} {x : RegAddr} {a v : Nat} (place : placeOf s r x = .reg a) (served : reach s r false a = .ok)
    (aligned : a % 4 = 0) : regWrite r x 4 v s = writeReg r a (v % 2 ^ 32) (s.reqStepped r) := by
  unfold regWrite
  rw [place]
  dsimp only
  unfold regWriteAt
  rw [if_pos (.inl served), if_neg (by simp [sizeOk, aligned]), if_neg (by decide)]
  exact s.access_ok _ served

theorem regWrite_wrongSize {r : Req} {x : RegAddr} {a v size : Nat} (place : placeOf s r x = .reg a) (served : reach s r false a = .ok)
    (wrong : sizeOk a size = false) : regWrite r x size v s = (s.reqStepped r).regErr (devReg a) 4 r := by
  unfold regWrite
  rw [place]
  dsimp only
  unfold regWriteAt
  rw [if_pos (.inl served), if_pos (by simp [wrong])]

theorem regWrite_refused {r : Req} {x : RegAddr} {a v n : Nat} (place : placeOf s r x = .reg a) (refused : reach s r false a = .refused n) :
    regWrite r x 4 v s = (s.reqStepped r).regErr (devReg a) n r := by
  unfold regWrite
  rw [place]
  dsimp only
  unfold regWriteAt
  rw [if_neg (by simp [refused])]
  exact s.access_refused _ refused

theorem writeReg_header {r : Req} {a ty inst v : Nat} (page : pageType (addrDie a) (addrPage a) = some (ty, inst)) (file : ty ≠ 0x00E)
    (header : addrOff a < 0x40) : writeReg r a v s = writeHdr r a ty inst v s := by
  unfold writeReg
  rw [page]
  dsimp only
  rw [if_neg file, if_pos header]

/-- Settles O46: a served write field by field through `plainWrite_effect`, a refused one through `State.regErr_effect`. -/
theorem writesFollowTheirAccessCodes : Obligations.WritesFollowTheirAccessCodes := by
  unfold Obligations.WritesFollowTheirAccessCodes
  rintro s t r x a v rfl
  have word : ∀ place : a % 4096 % 4 = 0, a % 4 = 0 := fun place => by omega
  refine ⟨fun place => ⟨fun ty inst served aligned block page plain => ?_, fun n refused => ?_, fun size served wrong => ?_⟩,
    fun ty inst place served page file header => ?_, fun w ty inst place served page file header => ?_⟩
  · have body := regWrite_served (v := v.toNat) place served aligned
    rw [writeReg_plain r _ page plain block] at body
    obtain ⟨frame, regs, takes⟩ := plainWrite_effect r v.toNat plain block (s.reqStepped r)
    refine ⟨_, congrArg Host.Outcome.next body, frame, regs, fun f hf covers => ?_⟩
    obtain ⟨rw_, ro, w1c, taken, locked⟩ := takes f hf covers
    exact ⟨rw_, ro, w1c, taken, locked⟩
  · obtain ⟨frame, regs, logged⟩ := (s.reqStepped r).regErr_effect (devReg a) (cause := n) (by have := reach_refused_lt refused; omega) r
    rw [State.reqStepped_bit] at logged
    refine ⟨_, congrArg Host.Outcome.next (regWrite_refused place refused), frame, regs, fun clear => ⟨(logged clear).1, ?_⟩⟩
    have := reach_refused_lt refused
    rw [(logged clear).2, Nat.mod_eq_of_lt (by omega)]
  · obtain ⟨frame, regs, logged⟩ := (s.reqStepped r).regErr_effect (devReg a) (cause := 4) (by decide) r
    rw [State.reqStepped_bit] at logged
    exact ⟨_, congrArg Host.Outcome.next (regWrite_wrongSize place served wrong), frame, regs, fun clear => (logged clear).2⟩
  · have body := regWrite_served (v := 1) place served (word (by unfold addrOff at header; omega))
    have hdr : writeHdr r a ty inst (1 % 2 ^ 32) (s.reqStepped r) = writeLock r a ty 1 (s.reqStepped r) := by
      unfold writeHdr
      rw [header]
      rfl
    rw [writeReg_header page file (by omega), hdr] at body
    obtain ⟨regs, locks, none_⟩ := writeLock_effect r ty header (s.reqStepped r)
    exact ⟨_, congrArg Host.Outcome.next body, writeLock_same _ _ _ _ (.refl _) rfl, regs, locks, none_⟩
  · have body := regWrite_served (v := w.toNat) place served (word (by unfold addrOff at header; omega))
    have hdr : writeHdr r a ty inst (w.toNat % 2 ^ 32) (s.reqStepped r) = forceIrq a ty w.toNat (s.reqStepped r) := by
      unfold writeHdr
      rw [header, Nat.mod_eq_of_lt w.isLt]
      rfl
    rw [writeReg_header page file (by omega), hdr] at body
    obtain ⟨regs, forced⟩ := forceIrq_effect a ty w.toNat (s.reqStepped r)
    exact ⟨_, congrArg Host.Outcome.next body, forceIrq_same _ _ _ (.refl _) rfl, regs, forced⟩

end Writes
end Sys2Proof.Machine
end

section
/-!
The slack-water stop (R592 to R599): what GO, markers, snapshots, the limits and the release leave.
-/
namespace Sys2Proof.Machine

section Stops
variable {s s0 : State}

/-! ### A unit's place in the stop (R593) -/

theorem stopUnit_who (s : State) (v : UnitId) : (stopUnit s v).who = v := by
  unfold stopUnit
  split
  next x found => simpa using List.find?_some found
  next => rfl

/-- What a stop has of unit `v` after a change of unit `u`. -/
theorem units_updUnit (s : State) (u : UnitId) (f : StopUnit → StopUnit) :
    (s.updUnit u f).dbg.units = if s.dbg.units.any (fun x => x.who == u) then
      s.dbg.units.map fun x => if x.who == u then f (stopUnit s u) else x else s.dbg.units ++ [f (stopUnit s u)] := rfl

/-- The places of a unit in a list after a change of that unit: the new place alone. -/
theorem find_map_same (l : List StopUnit) {u : UnitId} {y : StopUnit} (who : y.who = u) (some_ : l.any (fun x => x.who == u) = true) :
    (l.map fun x => if x.who == u then y else x).find? (fun x => x.who == u) = some y := by
  induction l with
  | nil => simp at some_
  | cons x l ih =>
    by_cases h : x.who = u
    · simp [h, who]
    · have rest : l.any (fun x => x.who == u) = true := by simpa [h] using some_
      simp only [List.map_cons, beq_eq_false_iff_ne.2 h, Bool.false_eq_true, if_false]
      rw [List.find?_cons_of_neg (by simp [h]), ih rest]

theorem find_map_ne (l : List StopUnit) {u v : UnitId} {y : StopUnit} (who : y.who = u) (ne : v ≠ u) :
    (l.map fun x => if x.who == u then y else x).find? (fun x => x.who == v) = l.find? (fun x => x.who == v) := by
  induction l with
  | nil => rfl
  | cons x l ih =>
    rw [List.map_cons]
    by_cases h : x.who = u
    · have other : ¬ x.who = v := fun e => ne (e.symm.trans h)
      rw [if_pos (by simp [h]), List.find?_cons_of_neg (by simp [who, ne.symm]), ih, List.find?_cons_of_neg (by simp [other])]
    · rw [if_neg (by simp [h])]
      by_cases e : x.who = v
      · rw [List.find?_cons_of_pos (by simp [e]), List.find?_cons_of_pos (by simp [e])]
      · rw [List.find?_cons_of_neg (by simp [e]), List.find?_cons_of_neg (by simp [e]), ih]

theorem stopUnit_updUnit_same (s : State) {u : UnitId} {f : StopUnit → StopUnit} (who : (f (stopUnit s u)).who = u) :
    stopUnit (s.updUnit u f) u = f (stopUnit s u) := by
  conv_lhs => unfold stopUnit
  rw [units_updUnit]
  split
  next x found =>
    split at found
    next some_ => exact (Option.some.inj ((find_map_same _ who some_).symm.trans found)).symm
    next none_ =>
      have fresh : s.dbg.units.find? (fun x => x.who == u) = none := by simpa using none_
      rw [List.find?_append, fresh, Option.none_or, List.find?_cons_of_pos (by simp [who])] at found
      exact (Option.some.inj found).symm
  next missing_ =>
    split at missing_
    next some_ => exact absurd ((find_map_same _ who some_).symm.trans missing_) (by simp)
    next none_ => exact absurd (List.find?_eq_none.1 missing_ (f (stopUnit s u)) (by simp)) (by simp [who])

/-- What holds of some place of a unit, read from the place that the change leaves. -/
theorem any_updUnit_same (s : State) {u : UnitId} {f : StopUnit → StopUnit} (who : (f (stopUnit s u)).who = u) (p : StopUnit → Bool)
    (hp : p (f (stopUnit s u)) = true) : ((s.updUnit u f).dbg.units.any fun x => x.who == u && p x) = true := by
  rw [units_updUnit]
  split
  next some_ =>
    obtain ⟨x, hx, is_⟩ := List.any_eq_true.1 some_
    refine List.any_eq_true.2 ⟨_, List.mem_map.2 ⟨x, hx, if_pos is_⟩, by simp [who, hp]⟩
  next => simp [who, hp]

theorem any_updUnit_ne (s : State) {u v : UnitId} {f : StopUnit → StopUnit} (who : (f (stopUnit s u)).who = u) (ne : v ≠ u)
    (p : StopUnit → Bool) : ((s.updUnit u f).dbg.units.any fun x => x.who == v && p x) = s.dbg.units.any fun x => x.who == v && p x := by
  rw [units_updUnit]
  split
  · rw [List.any_map]
    refine congrArg (s.dbg.units.any) (funext fun x => ?_)
    by_cases h : x.who = u
    · simp [h, who, beq_eq_false_iff_ne.2 ne.symm]
    · simp [h]
  · simp [who, ne.symm]

theorem stopUnit_updUnit_ne (s : State) {u v : UnitId} {f : StopUnit → StopUnit} (who : (f (stopUnit s u)).who = u) (ne : v ≠ u) :
    stopUnit (s.updUnit u f) v = stopUnit s v := by
  have places : (s.updUnit u f).dbg.units.find? (fun x => x.who == v) = s.dbg.units.find? (fun x => x.who == v) := by
    rw [units_updUnit]
    split
    · rw [find_map_ne _ who ne]
    · rw [List.find?_append, List.find?_cons_of_neg (by simp [who, ne.symm]), List.find?_nil, Option.or_none]
  unfold stopUnit
  rw [places]

/-- The units of the stop decide what a unit's place reads. -/
theorem stopUnit_of_dbg {t : State} (h : t.dbg = s.dbg) (v : UnitId) :
    stopUnit t v = stopUnit s v ∧ stopping t v = stopping s v ∧ stopped t v = stopped s v := by
  unfold stopUnit stopping stopped
  rw [h]
  exact ⟨rfl, rfl, rfl⟩

theorem State.checkStopped_frame (s : State) : SameBut [.regs] s s.checkStopped := State.checkStopped_same (.refl s) rfl

/-! ### Markers (R592, R593, R596) -/

theorem StopUnit.mark_effect (now i : Nat) (x : StopUnit) :
    (x.mark now i).who = x.who ∧ (x.mark now i).started = true ∧
      ((x.mark now i).marked.any (fun m => m.1 == i) = true ∨ i ∈ (x.mark now i).incomplete) := by
  unfold StopUnit.mark
  dsimp only
  split
  next known =>
    refine ⟨rfl, rfl, ?_⟩
    simpa using known
  next => exact ⟨rfl, rfl, .inl (by simp)⟩

/-- R593: a marker of the stop in force stops its unit and is noted at its input. -/
theorem markerIn_effect {v : UnitId} {i n : Nat} (on : stopOn s = true) (own : n = stopId s) (unit : v ∈ allUnits s) (inp : i ∈ unitInputs v) :
    SameBut [.dbg, .regs] s (markerIn v i n s) ∧ stopping (markerIn v i n s) v = true ∧
      ((stopUnit (markerIn v i n s) v).marked.any (fun m => m.1 == i) = true ∨ i ∈ (stopUnit (markerIn v i n s) v).incomplete) := by
  have body : markerIn v i n s = (s.updUnit v fun x => x.mark s.tb i).checkStopped := by
    unfold markerIn
    rw [if_neg (by simp [on, own]), if_pos (by simp [unit, inp])]
  obtain ⟨who, started, noted⟩ := (stopUnit s v).mark_effect s.tb i
  have who' := who.trans (stopUnit_who s v)
  have place := stopUnit_updUnit_same s (f := fun x => x.mark s.tb i) who'
  have stops := any_updUnit_same s (f := fun x => x.mark s.tb i) who' (·.started) started
  have changed : SameBut [.dbg] s (s.updUnit v fun x => x.mark s.tb i) := State.updUnit_same _ _ (.refl s) rfl
  rw [body]
  have frame := (s.updUnit v fun x => x.mark s.tb i).checkStopped_frame
  obtain ⟨unit', stops', -⟩ := stopUnit_of_dbg (frame.dbg (by decide)) v
  refine ⟨(changed.mono rfl).trans (frame.mono rfl), stops'.trans stops, ?_⟩
  rw [unit', place]
  exact noted

theorem markerIn_dropped {v : UnitId} {i n : Nat} (other : stopOn s = false ∨ n ≠ stopId s) : SameBut [.cnts, .regs] s (markerIn v i n s) := by
  unfold markerIn
  rw [if_pos (by rcases other with h | h <;> simp [h])]
  exact .ite (State.count_same _ _ _ (.refl s) rfl) (.refl s)

theorem markerLate_effect {v : UnitId} {i : Nat} (snap : (stopUnit s v).snapAt ≠ none) (inp : i ∈ unitInputs v)
    (clear : ((stopUnit s v).marked.any fun m => m.1 == i) = false) (fresh : i ∉ (stopUnit s v).incomplete) :
    SameBut [.dbg, .regs] s (markerLate v i s) ∧ i ∈ (stopUnit (markerLate v i s) v).incomplete := by
  have body : markerLate v i s = (s.updUnit v fun x => { x with incomplete := x.incomplete ++ [i] }).checkStopped := by
    refine if_pos ?_
    simp [Option.isSome_iff_ne_none.2 snap, inp, clear, fresh]
  have place := stopUnit_updUnit_same s (u := v) (f := fun x => { x with incomplete := x.incomplete ++ [i] }) (stopUnit_who s v)
  rw [body]
  have frame := (s.updUnit v fun x => { x with incomplete := x.incomplete ++ [i] }).checkStopped_frame
  have changed : SameBut [.dbg] s (s.updUnit v fun x => { x with incomplete := x.incomplete ++ [i] }) := State.updUnit_same _ _ (.refl s) rfl
  refine ⟨(changed.mono rfl).trans (frame.mono rfl), ?_⟩
  rw [(stopUnit_of_dbg (frame.dbg (by decide)) v).1, place]
  simp

/-! ### Snapshots (R593, R594, R596) -/

/-- R593, R596: a unit's place with its snapshot. -/
def StopUnit.snap (v : UnitId) (now : Nat) (forced : Bool) (x : StopUnit) : StopUnit :=
  { x with started := true, snapAt := some now, forced := forced
           incomplete := if forced then unitInputs v else x.incomplete, marked := if forced then [] else x.marked }

theorem State.snapshot_units (s : State) (v : UnitId) (forced : Bool) :
    (s.snapshot v forced).dbg.units = (s.updUnit v (StopUnit.snap v s.tb forced)).dbg.units := rfl

/-- The stop after a snapshot. -/
theorem State.snapshot_effect (s : State) (v : UnitId) (forced : Bool) :
    SameBut [.dbg, .wire] s (s.snapshot v forced) ∧ stopped (s.snapshot v forced) v = true ∧
      (stopUnit (s.snapshot v forced) v).forced = forced ∧
      (∀ w, w ≠ v → stopped (s.snapshot v forced) w = stopped s w ∧ stopUnit (s.snapshot v forced) w = stopUnit s w) ∧
      (s.snapshot v forced).wire = s.wire ++ [.marker v (BitVec.ofNat 8 (stopId s))] ∧
      (s.snapshot v forced).dbg.recs = s.dbg.recs ++ [makeRec s v false] := by
  have who : (StopUnit.snap v s.tb forced (stopUnit s v)).who = v := stopUnit_who s v
  have units := s.snapshot_units v forced
  have unit : ∀ w, stopUnit (s.snapshot v forced) w = stopUnit (s.updUnit v (StopUnit.snap v s.tb forced)) w := fun w => by
    unfold stopUnit
    rw [units]
  have halted : ∀ w, stopped (s.snapshot v forced) w = stopped (s.updUnit v (StopUnit.snap v s.tb forced)) w := fun w => by
    unfold stopped
    rw [units]
  refine ⟨State.snapshot_same _ _ (.refl s) rfl, ?_, ?_, fun w hw => ⟨?_, ?_⟩, rfl, rfl⟩
  · rw [halted]
    exact any_updUnit_same s who (·.snapAt.isSome) rfl
  · rw [unit, stopUnit_updUnit_same s who]
    rfl
  · rw [halted]
    exact any_updUnit_ne s who hw (·.snapAt.isSome)
  · rw [unit, stopUnit_updUnit_ne s who hw]

/-- R596: every unit of a list is forced to take its snapshot. -/
theorem foldl_snapshot (l : List UnitId) (s : State) (v : UnitId) :
    (stopped s v = true → stopped (l.foldl (fun s u => s.snapshot u true) s) v = true) ∧
    (v ∈ l ∨ stopped s v = true ∧ (stopUnit s v).forced = true →
      stopped (l.foldl (fun s u => s.snapshot u true) s) v = true ∧ (stopUnit (l.foldl (fun s u => s.snapshot u true) s) v).forced = true) := by
  induction l generalizing s with
  | nil => exact ⟨id, fun h => h.resolve_left (by simp)⟩
  | cons u l ih =>
    obtain ⟨-, halted, forced, others, -, -⟩ := s.snapshot_effect u true
    obtain ⟨keeps, forces⟩ := ih (s.snapshot u true)
    by_cases e : v = u
    · subst e
      exact ⟨fun _ => keeps halted, fun _ => forces (.inr ⟨halted, forced⟩)⟩
    · obtain ⟨same, place⟩ := others v e
      rw [same] at keeps forces
      rw [place] at forces
      exact ⟨keeps, fun h => forces (h.imp_left fun hm => (List.mem_cons.1 hm).resolve_left e)⟩

/-- R596: after the limit every unit has its snapshot. -/
theorem forceStop_effect (s : State) : SameBut [.dbg, .regs, .wire] s (forceStop s) ∧
    ∀ v ∈ allUnits s, stopped (forceStop s) v = true ∧ (stopped s v = false → (stopUnit (forceStop s) v).forced = true) := by
  refine ⟨forceStop_same (.refl s) rfl, fun v hv => ?_⟩
  unfold forceStop
  obtain ⟨keeps, forces⟩ := foldl_snapshot ((allUnits s).filter fun u => !stopped s u) s v
  generalize List.foldl _ _ _ = t at *
  obtain ⟨unit, -, halted⟩ := stopUnit_of_dbg (t.checkStopped_frame.dbg (by decide)) v
  rw [halted, unit]
  cases before : stopped s v with
  | true => exact ⟨keeps before, fun h => absurd h (by simp)⟩
  | false =>
    obtain ⟨now_, forced⟩ := forces (.inl (List.mem_filter.2 ⟨hv, by simp [before]⟩))
    exact ⟨now_, fun _ => forced⟩

/-! ### The stop's register (R608) -/

/-- Every register but `DBG_STOP_STAT`. -/
def NotStopStat (a : Nat) : Prop := a ≠ dbgReg 0x044

theorem notStopStat {d p o : Nat} (ho : o < 4096) (h : 512 * d + p ≠ 8198 ∨ o ≠ 0x044) : NotStopStat (regAddr d p o) := fun e => by
  obtain ⟨page, off⟩ := regAddr_eq e ho (by decide)
  omega

theorem notStopStat_cnt (k : Nat) : NotStopStat (cntPage k 0x044) := (dbgReg_ne_cntPage _ k (by decide)).symm

theorem notStopStat_rpt {a : Nat} (h : RptRegs a) : NotStopStat a := by
  obtain ⟨f, rfl⟩ := h
  unfold errReg
  split
  · exact notStopStat (by decide) (.inr (by decide))
  · exact notStopStat (by decide) (.inr (by decide))

theorem notStopStat_work {a : Nat} (h : WorkRegs a) : NotStopStat a := by
  rcases h with ⟨p, rfl⟩ | ⟨c, rfl⟩ | ⟨o, ho, rfl⟩
  · exact notStopStat (by decide) (.inr (by decide))
  · exact notStopStat_cnt c
  · exact notStopStat ho.2 (.inr (by omega))

theorem notStopStat_mem {a : Nat} (h : MemRegs a) : NotStopStat a := by
  rcases h with ⟨st, hst, o, ho, rfl⟩ | ⟨k, hk, o, ho, rfl⟩ | ⟨c, rfl⟩ | h
  · exact notStopStat ho (.inl (by omega))
  · exact notStopStat ho (.inl (by omega))
  · exact notStopStat_cnt c
  · exact notStopStat_rpt h

theorem notStopStat_pqReg (k : Nat) {o : Nat} (ho : o < 4096) : NotStopStat (pqReg k o) := notStopStat ho (.inl (by omega))

/-! ### Operations that leave the stop's register -/

theorem RegsBut.ctrAdd {k n amt : Nat} (hn : n < 64) (h : RegsBut NotStopStat s0 s) : RegsBut NotStopStat s0 (s.ctrAdd k n amt) := by
  have ctr : NotStopStat (ctrReg k n) := notStopStat_pqReg k (by omega)
  unfold State.ctrAdd
  dsimp only
  exact .ite ((h.setFld ctr).setBit ctr |>.irq_pqReg (notStopStat_pqReg k (by decide))) (h.setFld ctr)

theorem RegsBut.pump {c : Nat} (h : RegsBut NotStopStat s0 s) : RegsBut NotStopStat s0 (s.pump c) := by
  unfold State.pump
  split
  · exact h
  next d _ =>
    refine .ite h ?_
    dsimp only
    have begun : RegsBut NotStopStat s0 (if ((s.chan c).phase == .waitSync && (isIod c || waitOk s (c / 4) (syncOf 2 d))) = true then
        (if isIod c then s else s.waitTake (c / 4) (syncOf 2 d)).updChan c fun C => { C with phase := .waitGo, t0 := s.tb, grid := 0 }
      else s) := by
      refine .ite (RegsBut.of_regs (e := rfl) (.ite h ?_)) h
      unfold State.waitTake
      refine .ite (h.setFld (notStopStat_pqReg _ ?_)) h
      have := nbits_lt (syncOf 2 d) 0 6
      unfold waitCtr
      omega
    generalize (if ((s.chan c).phase == .waitSync && (isIod c || waitOk s (c / 4) (syncOf 2 d))) = true then
        (if isIod c then s else s.waitTake (c / 4) (syncOf 2 d)).updChan c fun C => { C with phase := .waitGo, t0 := s.tb, grid := 0 }
      else s) = u at *
    have started : SameBut [.chans, .reqTabs] u ((u.setChan c (unitTake (u.chan c) d)).startUnit c d) :=
      State.startUnit_same _ _ (State.setChan_same _ _ (.refl u) rfl) rfl
    exact .ite (begun.same started (by decide)) begun

theorem RegsBut.iodNext {c : Nat} (n : Nat) (h : RegsBut NotStopStat s0 s) : RegsBut NotStopStat s0 (s.iodNext c n) := by
  induction n generalizing s with
  | zero => exact h
  | succ n ih =>
    unfold State.iodNext
    dsimp only
    split
    · exact h
    next d job rest _ =>
      refine .ite h ?_
      have filled : SameBut [.chans, .rings] s ((s.setChan c { s.chan c with queue := rest }).refillChan c 4) :=
        State.refillChan_same _ _ (State.setChan_same _ _ (.refl s) rfl) rfl
      have regs := h.same filled (by decide)
      generalize (s.setChan c _).refillChan c 4 = u at *
      split
      · exact ih (regs.same (State.iodEnd_same (msk := [.chans, .net, .rings, .cores, .wire]) _ _ _ _ _ _ (.refl u) rfl) (by decide))
      · unfold State.takeDesc
        refine RegsBut.pump (regs.same (State.updChan_same (msk := [.chans]) _ _ (.refl u) rfl) (by decide))

theorem RegsBut.cancelJob {g id : Nat} (h : RegsBut NotStopStat s0 s) : RegsBut NotStopStat s0 (s.cancelJob g id) := by
  unfold State.cancelJob
  dsimp only
  have chans : RegsBut NotStopStat s0 ((List.range 32).foldl (fun s i =>
      if ((s.updChan (2048 + i) fun C => { C with queue := C.queue.filter fun x => x.2 != some (g, id) }).chan (2048 + i)).job = some (g, id) then
        ((s.updChan (2048 + i) fun C => { C with queue := C.queue.filter fun x => x.2 != some (g, id) }).clearChan (2048 + i)).iodNext (2048 + i) 5
      else s.updChan (2048 + i) fun C => { C with queue := C.queue.filter fun x => x.2 != some (g, id) }) s) :=
    .foldl h fun u i _ hu => 
      .ite (RegsBut.iodNext _ (hu.same (State.clearChan_same (msk := [.chans, .reqTabs]) _ (State.updChan_same _ _ (.refl u) rfl) rfl) (by decide)))
        (hu.same (State.updChan_same (msk := [.chans]) _ _ (.refl u) rfl) (by decide))
  generalize List.foldl _ s (List.range 32) = u at *
  have reads : SameBut [.funcs] u (u.updFunc (g / 4) fun F => { F with reads := F.reads.filter fun r => !(r.ring == g && r.cmd == some id) }) :=
    State.updFunc_same _ _ (.refl u) rfl
  replace chans := chans.same reads (by decide)
  generalize u.updFunc (g / 4) _ = v at *
  refine .foldl (RegsBut.same (s := List.foldl _ v (List.range 16)) ?_ (SameBut.lit_faults (msk := [.faults]) (.refl _) rfl) (by decide))
    fun u i _ hu => .ite (RegsBut.of_regs (e := rfl) hu) hu
  exact .foldl chans fun u n _ hu => RegsBut.of_regs (e := rfl) hu

theorem RegsBut.finishCmd {P : Nat → Prop} {s0 : State} {g id status value : Nat} (h : RegsBut P s0 s) :
    RegsBut P s0 (s.finishCmd g id status value) :=
  h.same (State.finishCmd_same (msk := [.rings, .cores, .wire]) _ _ _ _ (.refl s) rfl) (by decide)

theorem RegsBut.abortRunning {g status : Nat} {sel : Cmd → Bool} (h : RegsBut NotStopStat s0 s) :
    RegsBut NotStopStat s0 (s.abortRunning g sel status) := by
  unfold State.abortRunning
  exact .foldl h fun u id _ hu => by
    unfold State.abortCmd
    exact hu.cancelJob.finishCmd

theorem RegsBut.faultPart {n : Nat} (h : RegsBut NotStopStat s0 s) : RegsBut NotStopStat s0 (s.faultPart n) := by
  unfold State.faultPart
  refine .ite h ?_
  dsimp only
  have aborted : RegsBut NotStopStat s0 ((partRings n).foldl (fun s g => s.abortRunning g (onPart n g) 0x12) (s.setPState n .faulted)) := by
    refine .foldl ?_ fun u g _ hu => hu.abortRunning
    exact h.same (State.setPState_same (msk := [.parts, .cores, .wire]) _ _ (.refl s) rfl) (by decide)
  generalize List.foldl _ _ (partRings n) = u at *
  have dropped : SameBut [.parts] u (u.updPart n fun P => { P with slots := P.slots.map fun e => (e.1, { e.2 with run := none }) }) :=
    State.updPart_same _ _ (.refl u) rfl
  refine (aborted.same dropped (by decide)).trans ((RegsBut.tdiError (.refl _)).mono ?_)
  rintro a ⟨m, rfl⟩
  exact notStopStat (by decide) (.inr (by decide))

/-- R505: the noria commands of a lost stack stop. -/
def State.noriasLost (s : State) (st : Nat) : State := (List.range 32).foldl (fun s p => s.norStop (32 * st + p) (fun _ => true) 0x12) s

/-- R505: the loss is shown. -/
def State.stackGone (s : State) (st : Nat) (own : Option Nat) : State :=
  ((s.updStk st fun T => { T with lost := true, inReset := true }).setBit (fltReg 0x040) st).report own 0x0C 2 st 0 0

theorem State.loseStack_eq (s : State) (st : Nat) : s.loseStack st = match partOf s st with
    | some n => ((s.noriasLost st).stackGone st (partOf s st)).faultPart n
    | none => (s.noriasLost st).stackGone st (partOf s st) := rfl

theorem RegsBut.loseStack {st : Nat} (h : RegsBut NotStopStat s0 s) : RegsBut NotStopStat s0 (s.loseStack st) := by
  rw [State.loseStack_eq]
  have stops : RegsBut NotStopStat s0 (s.noriasLost st) :=
    .foldl h fun u p _ hu => hu.trans ((RegsBut.norStop (.refl u)).mono fun _ => notStopStat_work)
  generalize s.noriasLost st = u at *
  have gone : ∀ own, RegsBut NotStopStat s0 (u.stackGone st own) := fun own =>
    ((stops.same (State.updStk_same (msk := [.stks]) _ _ (.refl u) rfl) (by decide)).setBit (notStopStat (by decide) (.inr (by decide)))).report
      fun f => notStopStat_rpt ⟨f, rfl⟩
  cases partOf s st with
  | some n => exact (gone _).faultPart
  | none => exact gone _

theorem RegsBut.checkLost {st : Nat} (h : RegsBut NotStopStat s0 s) : RegsBut NotStopStat s0 (s.checkLost st) := by
  unfold State.checkLost
  exact .ite h.loseStack h

theorem RegsBut.takePkts {n : Nat} (k : Nat) (l : List Byte) (h : RegsBut NotStopStat s0 s) : RegsBut NotStopStat s0 (takePkts s n k l) := by
  have took : ∀ u p, RegsBut NotStopStat s0 u → RegsBut NotStopStat s0 (u.takePkt n p) := fun u p hu => by
    have dropped : RegsBut NotStopStat s0 (u.dropPkt (some n) p) := RegsBut.count (RegsBut.of_regs (e := rfl) hu) (notStopStat_cnt _)
    unfold State.takePkt
    split
    · exact dropped
    · exact .ite (RegsBut.of_regs (e := rfl) hu) (.ite dropped (RegsBut.of_regs (e := rfl) hu))
  induction k generalizing s l with
  | zero => exact RegsBut.of_regs (e := rfl) h
  | succ k ih =>
    unfold Machine.takePkts
    dsimp only
    refine .ite (.ite (ih _ h) (RegsBut.of_regs (e := rfl) h)) (.ite (ih _ h) (.ite (RegsBut.of_regs (e := rfl) h) (ih _ (took _ _ h))))

theorem RegsBut.deliver {n : Nat} {bytes : List Byte} (h : RegsBut NotStopStat s0 s) : RegsBut NotStopStat s0 (s.deliver n bytes) := by
  unfold State.deliver
  exact .ite (RegsBut.of_regs (e := rfl) h) (h.takePkts _ _)

theorem RegsBut.dropRead {P : Nat → Prop} {s0 : State} {f i : Nat} (h : RegsBut P s0 s) : RegsBut P s0 (s.dropRead f i) :=
  h.same (s.dropRead_frame f i) (by decide)

theorem RegsBut.copyIn {g left moved : Nat} {c : Cmd} {r : HostRead} {data : List Byte} (h : RegsBut NotStopStat s0 s) :
    RegsBut NotStopStat s0 (s.copyIn g c r data left moved) := by
  unfold State.copyIn
  dsimp only
  have written : RegsBut NotStopStat s0 (s.devWrite (c.field 24 8 + moved) data false .port).st :=
    h.trans ((RegsBut.devWrite (.refl s)).mono fun _ => notStopStat_mem)
  refine .ite written.finishCmd (.ite ?_ ?_)
  · exact RegsBut.finishCmd (RegsBut.of_regs (e := rfl) written)
  · exact RegsBut.of_regs (e := rfl) written

theorem RegsBut.hostReadDone {f i : Nat} {ok : Bool} {data : List Byte} (h : RegsBut NotStopStat s0 s) :
    RegsBut NotStopStat s0 (hostReadDone f i ok data s) := by
  have landing : NotStopStat (lndReg 0x044) := notStopStat (by decide) (.inl (by decide))
  have done : ∀ r, RegsBut NotStopStat s0 (readDone f i r data s) := fun r => by
    unfold readDone
    split
    · exact .ite (h.dropRead.same (State.takeEntries_same (msk := [.rings, .funcs]) _ _ (.refl _) rfl) (by decide)) h
    · split
      · split
        · exact .ite h.dropRead.copyIn h
        · exact h
      · exact h.dropRead
  have failed : ∀ r, RegsBut NotStopStat s0 (s.readFailed f i r) := fun r => by
    have dropped : RegsBut NotStopStat s0 ((s.dropRead f i).setBit (lndReg 0x044) 2) := h.dropRead.setBit landing
    unfold State.readFailed
    dsimp only
    generalize (s.dropRead f i).setBit (lndReg 0x044) 2 = u at *
    split
    · refine (RegsBut.of_regs (t := u.updRing r.ring _) rfl dropped).setBit ?_
      unfold ringReg
      split
      · exact fun e => absurd e (by unfold lndReg dbgReg regAddr; omega)
      · exact fun e => absurd e (by unfold partReg dbgReg regAddr; omega)
    · split
      · exact dropped.finishCmd
      · exact dropped
  unfold Machine.hostReadDone
  split
  · exact .ite (done _) (failed _)
  · exact h

/-! ### Operations that leave the stop itself -/

/-- The time and the units of the stop in force are as before. -/
def StopKept (s t : State) : Prop := t.dbg.stopAt = s.dbg.stopAt ∧ t.dbg.units = s.dbg.units

theorem StopKept.refl (s : State) : StopKept s s := ⟨rfl, rfl⟩

theorem StopKept.trans {s t u : State} (h : StopKept s t) (h' : StopKept t u) : StopKept s u := ⟨h'.1.trans h.1, h'.2.trans h.2⟩

theorem StopKept.same {w : List Fld} {t : State} (h : StopKept s0 s) (frame : SameBut w s t) (hw : Fld.dbg ∉ w) : StopKept s0 t :=
  h.trans ⟨by rw [frame.dbg hw], by rw [frame.dbg hw]⟩

theorem StopKept.ite {c : Prop} [Decidable c] {t u : State} (ht : StopKept s t) (hu : StopKept s u) : StopKept s (if c then t else u) := by
  split
  · exact ht
  · exact hu

theorem StopKept.foldl {α : Type} {f : State → α → State} {l : List α} (h : StopKept s0 s)
    (hf : ∀ u a, StopKept s0 u → StopKept s0 (f u a)) : StopKept s0 (l.foldl f s) := by
  induction l generalizing s with
  | nil => exact h
  | cons a l ih => exact ih (hf s a h)

/-- A change of the watch points' part. -/
theorem StopKept.withDbg {d : Dbg} (h : StopKept s0 s) (at_ : d.stopAt = s.dbg.stopAt) (units : d.units = s.dbg.units) :
    StopKept s0 { s with dbg := d } := h.trans ⟨at_, units⟩

theorem StopKept.wpMatches {k q tag : Nat} (h : StopKept s0 s) : StopKept s0 (s.wpMatches k q tag) := by
  have one : ∀ u n, StopKept u (u.wpMatch k q tag n) := fun u n => by
    unfold State.wpMatch
    dsimp only
    split
    · exact .refl u
    next run _ =>
      have counted : ∀ d : Dbg, d.stopAt = u.dbg.stopAt → d.units = u.dbg.units →
          StopKept u (State.addFld { u with dbg := d } (wpReg n 0x10) 16 16 1) := fun d at_ units => by
        have noted := (StopKept.refl u).withDbg at_ units
        generalize ({ u with dbg := d } : State) = v at *
        exact noted.same (State.addFld_same (msk := [.regs]) _ _ _ _ (.refl v) rfl) (by decide)
      replace counted := counted { u.dbg with
          wpCount := tput (0, 0) u.dbg.wpCount (512 * n + k) (run, if (tget (0, 0) u.dbg.wpCount (512 * n + k)).1 = run then
            (tget (0, 0) u.dbg.wpCount (512 * n + k)).2 + 1 else 1) } rfl rfl
      generalize State.addFld _ (wpReg n 0x10) 16 16 1 = v at *
      have marked : ∀ x, StopKept u (((v.clrBit (wpReg n 0x04) 13).setBit (wpReg n 0x10) 0).setReg (wpReg n 0x14) x) := fun x =>
        counted.same (State.setReg_same (msk := [.regs]) _ _ (State.setBit_same _ _ (State.clrBit_same _ _ (.refl v) rfl) rfl) rfl) (by decide)
      exact .ite (.ite ((marked _).withDbg rfl rfl) counted) (.refl u)
  unfold State.wpMatches
  exact .ite h (.foldl h fun u n hu => hu.trans (one u n))

theorem StopKept.complete {k q st : Nat} {d : Desc} (h : StopKept s0 s) : StopKept s0 (s.complete k q d st) := by
  unfold State.complete
  dsimp only
  refine StopKept.wpMatches ?_
  have signalled : StopKept s0 (if signals st then s.signal k (syncOf q d) (tagOf q d) else s) :=
    .ite (h.same (State.signal_same (msk := [.regs, .plots, .net, .cnts]) _ _ _ (.refl s) rfl) (by decide)) h
  generalize (if signals st then s.signal k (syncOf q d) (tagOf q d) else s) = u at *
  have recorded : StopKept s0 (if (cplEn (syncOf q d) || st != 0) = true then u.record k (cplRec s q d st false) else u) :=
    .ite (signalled.same (State.record_same (msk := [.regs, .plots]) _ _ (.refl u) rfl) (by decide)) signalled
  generalize (if (cplEn (syncOf q d) || st != 0) = true then u.record k (cplRec s q d st false) else u) = v at *
  exact .ite (recorded.same (State.runPoison_same (msk := [.parts]) _ (.refl v) rfl) (by decide)) recorded

theorem StopKept.norDone {src : NorSrc} {status : Nat} {rejected : Bool} (h : StopKept s0 s) : StopKept s0 (s.norDone src status rejected) := by
  unfold State.norDone
  split
  · unfold State.plotNorDone
    split
    · exact h
    · dsimp only
      generalize hu : s.updPlot _ _ = u
      have dropped : StopKept s0 u := h.same (hu ▸ State.updPlot_same (msk := [.plots]) _ _ (.refl s) rfl) (by decide)
      refine .ite ?_ dropped.complete
      exact dropped.same (State.rejectHold_same (msk := [.regs, .plots]) _ _ _ _ (.refl u) rfl) (by decide)
  · exact h.same (State.winDone_same (msk := [.net, .parts, .rings, .cores, .wire]) _ _ _ _ (.refl s) rfl) (by decide)

theorem StopKept.norStop {k : Nat} {sel : NorCmd → Bool} {status : Nat} (h : StopKept s0 s) : StopKept s0 (s.norStop k sel status) := by
  have finish : ∀ (u : State) src, StopKept s0 u → StopKept s0 (u.norFinish k src) := fun u src hu => by
    unfold State.norFinish
    split
    · exact hu
    · refine .ite (StopKept.norDone ?_) hu
      exact hu.same (State.count_same (msk := [.norias, .regs, .cnts]) _ _ _ (State.updNor_same _ _ (.refl u) rfl) rfl) (by decide)
  unfold State.norStop
  refine .foldl (.foldl h fun u src hu => ?_) fun u b hu => .ite hu ?_
  · unfold State.norStopCmd
    exact finish _ _ (hu.same (State.updNorCmd_same (msk := [.norias]) _ _ _ (.refl u) rfl) (by decide))
  · exact hu.same (State.releasePermit_same (msk := [.norias, .stks]) _ _ (.refl u) rfl) (by decide)

theorem StopKept.beginReset {sc : Scope} {zero retest : Bool} (h : StopKept s0 s) : StopKept s0 (s.beginReset sc zero retest) := by
  unfold State.beginReset
  dsimp only
  exact .ite h (.ite (h.withDbg rfl rfl) h)

theorem StopKept.resetPart {n : Nat} {why : ResetWhy} (h : StopKept s0 s) : StopKept s0 (s.resetPart n why) := by
  unfold State.resetPart
  refine .ite h (StopKept.beginReset ?_)
  have said := h.same (State.updPart_same (msk := [.parts]) n (fun P => { P with why := some why }) (.refl s) rfl) (by decide)
  exact .ite said (said.same (State.setPState_same (msk := [.parts, .cores, .wire]) _ _ (.refl _) rfl) (by decide))

theorem StopKept.faultPart {n : Nat} (h : StopKept s0 s) : StopKept s0 (s.faultPart n) := by
  unfold State.faultPart
  refine .ite h ?_
  dsimp only
  have aborted : StopKept s0 ((partRings n).foldl (fun s g => s.abortRunning g (onPart n g) 0x12) (s.setPState n .faulted)) := by
    refine .foldl ?_ fun u g hu => ?_
    · exact h.same (State.setPState_same (msk := [.parts, .cores, .wire]) _ _ (.refl s) rfl) (by decide)
    · exact hu.same (State.abortRunning_same (msk := [.regs, .chans, .net, .reqTabs, .parts, .rings, .funcs, .groups, .cores, .faults, .wire]) _ _ _
        (.refl u) rfl) (by decide)
  generalize List.foldl _ _ (partRings n) = u at *
  have dropped : SameBut [.parts] u (u.updPart n fun P => { P with slots := P.slots.map fun e => (e.1, { e.2 with run := none }) }) :=
    State.updPart_same _ _ (.refl u) rfl
  have left := aborted.same dropped (by decide)
  unfold State.tdiError
  refine .ite (StopKept.resetPart ?_) left
  exact left.same (State.setTdi_same (msk := [.regs]) _ _ (.refl _) rfl) (by decide)

theorem StopKept.checkLost {st : Nat} (h : StopKept s0 s) : StopKept s0 (s.checkLost st) := by
  unfold State.checkLost
  refine .ite ?_ h
  rw [State.loseStack_eq]
  have stops : StopKept s0 (s.noriasLost st) := .foldl h fun u p hu => hu.norStop
  generalize s.noriasLost st = u at *
  have gone : ∀ own, StopKept s0 (u.stackGone st own) := fun own =>
    stops.same (State.report_same (msk := [.stks, .regs, .errs, .cores, .wire]) _ _ _ _ _ _
      (State.setBit_same _ _ (State.updStk_same _ _ (.refl u) rfl) rfl) rfl) (by decide)
  cases partOf s st with
  | some n => exact (gone _).faultPart
  | none => exact gone _

theorem StopKept.heldReset {r : ResetRun} (h : StopKept s0 s) : StopKept s0 (s.heldReset r) := by
  unfold State.heldReset
  split
  · exact h.resetPart
  · exact h.beginReset

/-! ### Release (R598) -/

/-- R598: the stop is over; what was held is still to come. -/
def State.stopOver (s : State) : State :=
  { s with
    net := s.net.map fun p => if p.inp = 255 then { p with inp := 4 } else p
    dbg := { s.dbg with
      units := [], recs := s.dbg.recs.map fun r => { r with ends := s.dbg.units.find? fun x => x.who == r.who },
      stopAt := none, tally := [], heldResets := [], heldCpls := [], wpHold := [] } }

/-- R598: tokens, accesses, packets and completions that were held arrive. -/
def State.heldArrive (s : State) (D : Dbg) : State :=
  D.heldCpls.foldl (fun s c => hostReadDone c.1 c.2.1 c.2.2.1 c.2.2.2 s)
    ((List.range 32).foldl (fun s n => s.deliver n [])
      ((List.range 512).foldl (fun s k => s.serveWaiting k)
        (D.tally.foldl (fun s e => s.ctrAdd (e.1 / 64) (e.1 % 64) e.2) s)))

/-- R598: held resets begin, and stacks lost meanwhile are lost now. -/
def State.heldEvents (s : State) (D : Dbg) : State :=
  (List.range 16).foldl (fun s st => s.checkLost st) (D.heldResets.foldl State.heldReset s)

theorem releaseStop_eq (s : State) : releaseStop s = ((s.stopOver.setFld (dbgReg 0x044) 0 2 0).heldArrive s.dbg).heldEvents s.dbg := rfl

theorem State.heldArrive_kept (s : State) (D : Dbg) : StopKept s (s.heldArrive D) ∧ RegsBut NotStopStat s (s.heldArrive D) := by
  unfold State.heldArrive
  constructor
  · refine .foldl (.foldl (.foldl (.foldl (.refl s) fun u e hu => ?_) fun u k hu => ?_) fun u n hu => ?_) fun u c hu => ?_
    · exact hu.same (State.ctrAdd_same (msk := [.regs]) _ _ _ (.refl u) rfl) (by decide)
    · exact hu.same (State.serveWaiting_same (msk := [.regs, .slices, .dram, .chk, .errs, .cores, .caches, .cnts, .wire]) _ (.refl u) rfl) (by decide)
    · exact hu.same (State.deliver_same (msk := [.regs, .xngs, .coll, .cnts]) _ _ (.refl u) rfl) (by decide)
    · exact hu.same (hostReadDone_same (msk := [.regs, .slices, .dram, .chk, .rings, .funcs, .errs, .cores, .caches, .cnts, .wire]) _ _ _ _
        (.refl u) rfl) (by decide)
  · refine .foldl (.foldl (.foldl (.foldl (.refl s) fun u e _ hu => ?_) fun u k hk hu => ?_) fun u n _ hu => hu.deliver) fun u c _ hu => hu.hostReadDone
    · exact hu.ctrAdd (Nat.mod_lt _ (by decide))
    · exact hu.trans ((RegsBut.serveWaiting (List.mem_range.1 hk) (.refl u)).mono fun _ => notStopStat_mem)

theorem State.heldEvents_kept (s : State) (D : Dbg) : StopKept s (s.heldEvents D) ∧ RegsBut NotStopStat s (s.heldEvents D) := by
  unfold State.heldEvents
  constructor
  · exact .foldl (.foldl (.refl s) fun u r hu => hu.heldReset) fun u st hu => hu.checkLost
  · refine .foldl (.foldl (.refl s) fun u r _ hu => ?_) fun u st _ hu => hu.checkLost
    exact hu.same (State.heldReset_same (msk := [.parts, .cores, .faults, .dbg, .wire]) _ (.refl u) rfl) (by decide)

/-- R598: the release leaves no stop in force. -/
theorem releaseStop_effect (s : State) :
    (releaseStop s).dbg.stopAt = none ∧ stopState (releaseStop s) = 0 ∧ (releaseStop s).dbg.units = [] := by
  rw [releaseStop_eq]
  have over_ : s.stopOver.dbg.stopAt = none ∧ s.stopOver.dbg.units = [] := ⟨rfl, rfl⟩
  generalize s.stopOver = u at *
  have cleared : StopKept u (u.setFld (dbgReg 0x044) 0 2 0) := (StopKept.refl u).same (State.setFld_same (msk := [.regs]) _ _ _ _ (.refl u) rfl) (by decide)
  have idle : stopState (u.setFld (dbgReg 0x044) 0 2 0) = 0 := u.fld_setFld_same _ 0 (by decide)
  generalize u.setFld (dbgReg 0x044) 0 2 0 = v at *
  obtain ⟨kept, regs⟩ := v.heldArrive_kept s.dbg
  generalize v.heldArrive s.dbg = x at *
  obtain ⟨kept', regs'⟩ := x.heldEvents_kept s.dbg
  obtain ⟨at_, units⟩ := cleared.trans (kept.trans kept')
  refine ⟨at_.trans over_.1, ?_, units.trans over_.2⟩
  have stat : ¬ NotStopStat (dbgReg 0x044) := fun h => h rfl
  unfold stopState at *
  rw [regs'.fld stat, regs.fld stat, idle]

/-! ### The obligation -/

theorem stopRefused_reqStepped (s : State) (r : Req) : stopRefused (s.reqStepped r) = stopRefused s := by
  obtain ⟨l, hl⟩ := s.reqStepped_step r
  rw [hl]
  rfl

theorem stopOn_reqStepped (s : State) (r : Req) : stopOn (s.reqStepped r) = stopOn s := by
  unfold stopOn
  rw [stopAt_reqStepped]

/-- R593, R599: GO. -/
theorem stopGo_effect {r : Req} (served : reach s r false (dbgReg 0x040) = .ok) :
    (stopRefused s = true → ∃ u, exec (.stopGo r) s = .next u ∧ SameBut [.regs] (s.reqStepped r) u ∧
      OtherRegs [dbgReg 0x044] s u ∧ u.bit (dbgReg 0x044) 3 = true) ∧
    (stopRefused s = false → stopOn s = false → s.fld (dbgReg 0x050) 0 2 ≠ 1 → ∃ u, exec (.stopGo r) s = .next u ∧
      SameBut [.regs, .cnts, .dbg] (s.reqStepped r) u ∧ u.dbg.stopAt = some s.tb ∧ stopState u = 1 ∧
      stopId u = (stopId s + 1) % 256 ∧ ∀ i < 68, stopping u (unitAt 16 6 i) = true) ∧
    (stopRefused s = false → stopOn s = false → s.fld (dbgReg 0x050) 0 2 = 1 → ∃ u, exec (.stopGo r) s = .next u ∧
      SameBut [.dbg] (s.reqStepped r) u ∧ u.dbg.stopWait = true ∧ u.dbg.stopAt = none) := by
  have body : exec (.stopGo r) s = .next (stopCmd (s.reqStepped r)) := outcome_access _ served
  have stepped := s.reqStepped_frame r
  have others := stepped.otherRegs (by decide) [dbgReg 0x044]
  have refused := stopRefused_reqStepped s r
  have on := stopOn_reqStepped s r
  have sounding := State.reqStepped_fld r (s := s) (dbgReg 0x050) 0 2
  have id_ : stopId (s.reqStepped r) = stopId s := stepped.fld (by decide) _ _ _
  have tb := stepped.tb (by decide)
  generalize s.reqStepped r = t at *
  refine ⟨fun h => ?_, fun free off calm => ?_, fun free off sounds => ?_⟩
  · rw [stopCmd_refused (refused.trans h)] at body
    exact ⟨_, body, State.setBit_same _ _ (.refl t) rfl, others.trans (otherRegs_setBit _ (by simp)), t.bit_setBit_same _ (by decide)⟩
  · have frame : SameBut [.regs, .dbg, .cnts] t (stopCmd t) := stopCmd_same (.refl t) rfl
    rw [stopCmd_starts (refused.trans free) (on.trans off) (by rwa [sounding])] at body frame
    obtain ⟨began, state_, number, -⟩ := beginStop_effect t
    refine ⟨_, body, frame.mono rfl, ?_, state_, by rw [number, id_], fun i hi => ?_⟩
    · rw [began, ← tb]
    · unfold stopping
      rw [began]
      exact List.any_eq_true.2 ⟨_, List.mem_map.2 ⟨i, List.mem_range.2 hi, rfl⟩, by simp⟩
  · rw [stopCmd_waits (refused.trans free) (on.trans off) (sounding.trans sounds)] at body
    refine ⟨_, body, SameBut.lit_dbg (.refl t) rfl, rfl, ?_⟩
    have none_ : t.dbg.stopAt.isSome = false := on.trans off
    simpa using none_

/-- Settles O56: units through `stopUnit_updUnit_same`, the release through `releaseStop_effect`. -/
theorem stopsSpreadAndRelease : Obligations.StopsSpreadAndRelease := by
  unfold Obligations.StopsSpreadAndRelease
  refine fun s => ⟨fun r served => ?_, fun v i n c hc => ⟨fun on own unit inp => ?_, fun other => ?_⟩, fun v starts open_ settles => ?_,
    fun v i on spreading snap inp clear fresh => ?_, fun on spreading => ?_⟩
  · obtain ⟨refuses, starts, waits⟩ := stopGo_effect served
    have body : exec (.stopRelease r) s = .next (releaseCmd (s.reqStepped r)) := outcome_access _ served
    have stepped := s.reqStepped_frame r
    have state_ : stopState (s.reqStepped r) = stopState s := stepped.fld (by decide) _ _ _
    refine ⟨refuses, starts, waits, fun two => ?_, fun other => body.trans (congrArg _ (if_neg (by rwa [state_])))⟩
    have frame : SameBut [.regs, .plots, .chans, .slices, .norias, .dram, .chk, .net, .reqTabs, .stks, .parts, .rings, .funcs, .errs, .xngs, .groups, .coll, .cores, .caches, .faults, .dbg, .cnts, .wire]
        (s.reqStepped r) (releaseCmd (s.reqStepped r)) := releaseCmd_same (.refl _) rfl
    have released : releaseCmd (s.reqStepped r) = releaseStop (s.reqStepped r) := if_pos (state_.trans two)
    refine ⟨_, body, (frame.fuses (by decide)).trans (stepped.fuses (by decide)), (frame.store (by decide)).trans (stepped.store (by decide)), ?_⟩
    rw [released]
    exact releaseStop_effect _
  · have body : exec c s = .next (markerIn v i n.toNat s) := by
      rcases hc with ⟨rfl, lane⟩ | ⟨rfl, lane⟩
      · exact congrArg Host.Outcome.next (if_pos lane)
      · exact congrArg Host.Outcome.next (if_neg lane)
    exact ⟨_, body, markerIn_effect on own unit inp⟩
  · have body : exec c s = .next (markerIn v i n.toNat s) := by
      rcases hc with ⟨rfl, lane⟩ | ⟨rfl, lane⟩
      · exact congrArg Host.Outcome.next (if_pos lane)
      · exact congrArg Host.Outcome.next (if_neg lane)
    exact ⟨_, body, markerIn_dropped other⟩
  · obtain ⟨taken, halted, -, -, sent, recs⟩ := s.snapshot_effect v false
    refine ⟨_, congrArg Host.Outcome.next (if_pos (by simp [starts, open_, settles])), ?_⟩
    have frame := (s.snapshot v false).checkStopped_frame
    refine ⟨(taken.mono rfl).trans (frame.mono rfl), ?_, (frame.wire (by decide)).trans sent, makeRec s v false, ?_, rfl, rfl, rfl⟩
    · rw [(stopUnit_of_dbg (frame.dbg (by decide)) v).2.2, halted]
    · rw [frame.dbg (by decide), recs]
  · exact ⟨_, congrArg Host.Outcome.next (if_pos (by simp [on, spreading])), markerLate_effect snap inp clear fresh⟩
  · exact ⟨_, congrArg Host.Outcome.next (if_pos (by simp [on, spreading])), forceStop_effect s⟩

end Stops
end Sys2Proof.Machine
end

section
/-!
Crossings in training (R27, R364 to R368, R374, R375): each step of training and of a retrain, and link-down with its reason.
-/
namespace Sys2Proof.Machine

section Training
variable {s s0 : State} {k : Nat}

/-! ### Link-down (R368) -/

/-- R368: the crossing's place in DOWN. -/
def Xng.downed (X : Xng) (now : Nat) : Xng :=
  { X with state := .down, since := now, replay := [], sentPkts := [], txBuf := [], txEnds := [], rxBuf := [], rxGroup := [],
           txGroup := 0, credit := [], owed := [], nak := false, fails := 0, tagFails := 0, rekeying := false }

/-- R383: the DATA packets of this device that are lost with the crossing. -/
def goneData (s : State) (n : Nat) : List XPkt :=
  (((s.xng n).sentPkts.map (·.2)) ++ ((s.xng n).txEnds.map (·.2))).filter fun p => p.kind == .data && p.src == ownId s

/-- The crossing is down and shows why. -/
def State.downShown (s : State) (n reason : Nat) : State := (s.setFld (xngReg n 0x048) 24 4 reason).setXng n ((s.xng n).downed s.tb)

theorem State.xngDown_eq (s : State) (n reason : Nat) :
    s.xngDown n reason = (goneData s n).foldl (fun s p => s.lostData p) (s.downShown n reason) := rfl

theorem xngReg_not_mem {o : Nat} (hk : k < 32) (ho : o < 4096) (h : o ≠ 0x050) : ¬ MemRegs (xngReg k o) :=
  not_memRegs_iod (by omega) ho (by omega) h

theorem xngReg_ne {j k o o' : Nat} (ho : o < 4096) (ho' : o' < 4096) (h : j ≠ k ∨ o ≠ o') : xngReg j o ≠ xngReg k o' := fun e => by
  have := regAddr_eq e ho ho'
  omega

/-- R368, R383: what link-down leaves of the crossing, and the reason it shows. -/
theorem State.xngDown_kept (s : State) (hk : k < 32) {reason : Nat} (hr : reason < 16) :
    (s.xngDown k reason).xng k = (s.xng k).downed s.tb ∧ (s.xngDown k reason).fld (xngReg k 0x048) 24 4 = reason := by
  rw [State.xngDown_eq]
  have shown : (s.downShown k reason).xng k = (s.xng k).downed s.tb := State.xng_setXng_same _ _ _
  have why : (s.downShown k reason).fld (xngReg k 0x048) 24 4 = reason := by
    unfold State.downShown
    rw [SameBut.fld (w := [.xngs]) (State.setXng_same _ _ (.refl _) rfl) (by decide)]
    exact (s.fld_setFld_same _ _ (by decide)).trans (Nat.mod_eq_of_lt hr)
  generalize s.downShown k reason = u at *
  have frame : SameBut [.regs, .slices, .dram, .chk, .net, .errs, .eps, .coll, .cores, .caches, .cnts, .wire] u
      ((goneData s k).foldl (fun s p => s.lostData p) u) := SameBut.foldl (.refl u) fun _ _ h => State.lostData_same _ h rfl
  have regs : RegsBut MemRegs u ((goneData s k).foldl (fun s p => s.lostData p) u) := .foldl (.refl u) fun _ _ _ h => h.lostData
  exact ⟨(frame.xng (by decide) k).trans shown, (regs.fld (xngReg_not_mem hk (by decide) (by decide)) _ _).trans why⟩

/-- The crossing is down for a reason. -/
def DownFor (s : State) (k reason : Nat) : Prop := (s.xng k).state = .down ∧ s.fld (xngReg k 0x048) 24 4 = reason

theorem State.xngDown_for (s : State) (hk : k < 32) {reason : Nat} (hr : reason < 16) : DownFor (s.xngDown k reason) k reason := by
  obtain ⟨down, why⟩ := s.xngDown_kept hk hr
  exact ⟨by rw [down]; rfl, why⟩

/-! ### Configurations (R366, R367) -/

theorem firstCfg_congr {t : State} (regs : t.regs = s.regs) (ceil : (t.xng k).ceil = (s.xng k).ceil) : firstCfg t k = firstCfg s k := by
  have fields : ∀ a lo w, t.fld a lo w = s.fld a lo w := fun a lo w => by
    unfold State.fld State.reg
    rw [regs]
  unfold firstCfg xngAllowed pairGen ferryState State.bit
  simp only [fields, ceil]

theorem pairGen_congr {t : State} (regs : t.regs = s.regs) : pairGen t k = pairGen s k := by
  unfold pairGen ferryState State.bit State.fld State.reg
  rw [regs]

theorem xngGo_reqStepped (s : State) (r : Req) : xngGo (s.reqStepped r) = xngGo s := by
  obtain ⟨l, hl⟩ := s.reqStepped_step r
  rw [hl]
  rfl

theorem State.xngRetrain_some (s : State) {c : XCfg} (h : firstCfg s k = some c) :
    s.xngRetrain k = s.updXng k fun X => { X with state := .retrain, phase := .equalise, cfg := c, since := s.tb } := by
  unfold State.xngRetrain
  rw [h]

theorem State.xngRetrain_none (s : State) (h : firstCfg s k = none) : s.xngRetrain k = s.xngDown k 8 := by
  unfold State.xngRetrain
  rw [h]

/-- R367: a retrain that begins keeps the ceiling and the second's replays. -/
theorem State.xngRetrain_effect (s : State) (hk : k < 32) :
    (((s.xngRetrain k).xng k).state = .retrain ∨ ((s.xngRetrain k).xng k).state = .down) ∧
      ((s.xngRetrain k).xng k).ceil = (s.xng k).ceil ∧ ((s.xngRetrain k).xng k).secReplays = (s.xng k).secReplays := by
  cases found : firstCfg s k with
  | some c =>
    rw [s.xngRetrain_some found, State.xng_updXng_same]
    exact ⟨.inl rfl, rfl, rfl⟩
  | none =>
    rw [s.xngRetrain_none found, (s.xngDown_kept hk (reason := 8) (by decide)).1]
    exact ⟨.inr rfl, rfl, rfl⟩

/-- What only touches crossings, their registers and what they lose keeps the plots. -/
theorem plots_of_same {t : State}
    (h : SameBut [.pins, .regs, .slices, .dram, .chk, .net, .errs, .xngs, .eps, .coll, .cores, .caches, .cnts, .wire] s t) : t.plots = s.plots :=
  h.plots (by decide)

/-! ### Steps of training (R365, R366) -/

theorem State.xngTo_step (s : State) (k : Nat) (x : XState) (h : x ≠ .retrain) : xngStep ((s.xngTo k x).xng k) = x := by
  unfold State.xngTo
  rw [State.xng_updXng_same]
  unfold xngStep
  by_cases retrain : (s.xng k).state = .retrain
  · simp [retrain]
  · simp [retrain, h]

/-- R366: equalisation fails: the next configuration, or the reason 2. -/
theorem equaliseFailed_effect (s : State) (hk : k < 32) (step : xngStep (s.xng k) = .equalise) :
    (∀ c, nextCfg s k = some c → ((s.equaliseFailed k).xng k).cfg = c ∧ xngStep ((s.equaliseFailed k).xng k) = .equalise) ∧
      (nextCfg s k = none → (s.xng k).state ≠ .retrain → DownFor (s.equaliseFailed k) k 2) := by
  unfold State.equaliseFailed
  refine ⟨fun c next => ?_, fun none_ trains => ?_⟩
  · rw [next, State.xng_updXng_same]
    exact ⟨rfl, step⟩
  · rw [none_]
    dsimp only
    unfold State.trainFailed
    rw [if_neg trains]
    exact s.xngDown_for hk (by decide)

theorem alignDone_effect (s : State) (k : Nat) (spare : Bool) :
    xngStep ((alignDone k spare s).xng k) = .peer ∧ (spare = true → (alignDone k spare s).bit (xngReg k 0x044) 6 = true) := by
  unfold alignDone
  dsimp only
  refine ⟨State.xngTo_step _ _ _ (by decide), fun h => ?_⟩
  subst h
  have moved : SameBut [.xngs] (s.setBit (xngReg k 0x044) 6)
      (((s.setBit (xngReg k 0x044) 6).updXng k fun X => { X with spareMark := false }).xngTo k .peer) :=
    State.xngTo_same _ _ (State.updXng_same _ _ (.refl _) rfl) rfl
  rw [if_pos (by simp), moved.bit (by decide)]
  exact s.bit_setBit_same _ (by decide)

/-- R367: what a retrain's end leaves of the crossing. -/
def Xng.resumed (X : Xng) (now : Nat) : Xng :=
  { X with state := .active, since := now, ceil := X.cfg, fails := 0, nak := false, rxGroup := [], rxNext := X.rxAck + 1 }

theorem RegsBut.replayFlits {P : Nat → Prop} (hP : P (cntPage 592 0x044)) (h : RegsBut P s0 s) : RegsBut P s0 (s.replayFlits k) := by
  unfold State.replayFlits
  exact .foldl h fun u f _ hu => RegsBut.count (RegsBut.of_regs (e := rfl) hu) hP

theorem xngReg_ne_cnt {o c : Nat} (hk : k < 32) (ho : o < 4096) : xngReg k o ≠ cntPage c 0x044 := fun e => by
  unfold cntPage at e
  split_ifs at e
  all_goals
    have := (regAddr_eq e ho (by decide)).1
    omega

theorem State.xngResume_effect (s : State) (k : Nat) :
    (s.xngResume k).xng k = (s.xng k).resumed s.tb ∧ RegsBut (· = cntPage 592 0x044) s (s.xngResume k) := by
  have changed : SameBut [.xngs] s (s.updXng k fun X => X.resumed s.tb) := State.updXng_same _ _ (.refl s) rfl
  have body : s.xngResume k = (s.updXng k fun X => X.resumed s.tb).replayFlits k := rfl
  have mine := s.xng_updXng_same k fun X => X.resumed s.tb
  rw [body]
  generalize s.updXng k _ = u at *
  have replayed : SameBut [.regs, .cnts, .wire] u (u.replayFlits k) := State.replayFlits_same _ (.refl u) rfl
  exact ⟨(replayed.xng (by decide) k).trans mine, RegsBut.replayFlits rfl ((RegsBut.refl s).same changed (by decide))⟩

/-- R365, R366: PEER with ends that fit. -/
theorem peerDone_some (hk : k < 32) {peer : BitVec 16} {gen : Nat} {half off : Bool} {c : XCfg} (fits : settle s k peer gen half = some c) :
    ((peerDone k peer gen half off s).xng k).cfg = c ∧ (peerDone k peer gen half off s).fld (xngReg k 0x044) 16 16 = peer.toNat ∧
      ((peerDone k peer gen half off s).xng k).state = (if (s.xng k).state = .retrain then .active else .auth) := by
  unfold peerDone
  rw [fits]
  dsimp only
  have named : (s.setFld (xngReg k 0x044) 16 16 peer.toNat).fld (xngReg k 0x044) 16 16 = peer.toNat :=
    (s.fld_setFld_same _ _ (by decide)).trans (Nat.mod_eq_of_lt peer.isLt)
  have written : SameBut [.regs] s (s.setFld (xngReg k 0x044) 16 16 peer.toNat) := State.setFld_same _ _ _ _ (.refl s) rfl
  have before := written.xng (by decide) k
  generalize s.setFld (xngReg k 0x044) 16 16 peer.toNat = t at *
  have changed : SameBut [.xngs] t (t.updXng k fun X => { X with cfg := c, peerEncOff := off }) := State.updXng_same _ _ (.refl t) rfl
  have mine := t.xng_updXng_same k fun X => { X with cfg := c, peerEncOff := off }
  have named' := (changed.fld (by decide) (xngReg k 0x044) 16 16).trans named
  rw [before] at mine
  generalize t.updXng k _ = u at *
  rw [mine]
  dsimp only
  split
  next retrain =>
    obtain ⟨resumed, regs⟩ := u.xngResume_effect k
    rw [resumed, mine, regs.fld (xngReg_ne_cnt hk (by decide))]
    exact ⟨rfl, named', rfl⟩
  next trains =>
    have moved : SameBut [.xngs] u (u.xngTo k .auth) := State.xngTo_same _ _ (.refl u) rfl
    have step : (u.xngTo k .auth).xng k = { u.xng k with state := .auth, since := u.tb } := by
      unfold State.xngTo
      rw [State.xng_updXng_same, mine]
      exact if_neg trains
    rw [moved.fld (by decide), step, mine]
    exact ⟨rfl, named', rfl⟩

theorem peerDone_none (hk : k < 32) {peer : BitVec 16} {gen : Nat} {half off : Bool} (misfit : settle s k peer gen half = none)
    (trains : (s.xng k).state ≠ .retrain) : DownFor (peerDone k peer gen half off s) k 4 := by
  unfold peerDone
  rw [misfit]
  dsimp only
  unfold State.trainFailed
  rw [if_neg trains]
  exact s.xngDown_for hk (by decide)

/-- R374, R375: AUTH's end. -/
theorem authDone_effect (s : State) (hk : k < 32) (ok : Bool) :
    if s.bit (xngReg k 0x040) 2 ≠ (s.xng k).peerEncOff then DownFor (authDone k ok s) k 6
    else if ok && xngTrusts s && keysUsable s then ((authDone k ok s).xng k).state = .active ∧
      (authDone k ok s).bit (xngReg k 0x044) 8 = !s.bit (xngReg k 0x040) 2 ∧ ((authDone k ok s).xng k).credit = List.replicate 8 4096
    else DownFor (authDone k ok s) k 5 := by
  unfold authDone
  dsimp only
  split
  · exact s.xngDown_for hk (by decide)
  · split
    · unfold State.xngActive
      dsimp only
      generalize hu : s.setXng k _ = u
      have mine : (u.xng k).state = .active ∧ (u.xng k).credit = List.replicate 8 4096 := by
        rw [← hu, State.xng_setXng_same]
        exact ⟨rfl, rfl⟩
      generalize (!s.bit (xngReg k 0x040) 2) = enc
      have written : SameBut [.regs] u (u.setFld (xngReg k 0x044) 8 1 (b2n enc)) := State.setFld_same _ _ _ _ (.refl u) rfl
      rw [written.xng (by decide)]
      refine ⟨mine.1, ?_, mine.2⟩
      unfold State.bit
      rw [u.fld_setFld_same _ _ (by decide)]
      cases enc <;> rfl
    · exact State.xngDown_for _ hk (by decide)

/-- R365: a time limit passes in ALIGN or in AUTH. -/
theorem xngTimeout_effect (s : State) (hk : k < 32) :
    ((s.xng k).state = .align → DownFor (xngTimeout k s) k 3) ∧ ((s.xng k).state = .auth → DownFor (xngTimeout k s) k 5) := by
  refine ⟨fun align => ?_, fun auth => ?_⟩
  · have step : xngStep (s.xng k) = .align := by simp [xngStep, align]
    unfold xngTimeout
    rw [step]
    dsimp only
    unfold State.trainFailed
    rw [if_neg (by simp [align])]
    exact s.xngDown_for hk (by decide)
  · have step : xngStep (s.xng k) = .auth := by simp [xngStep, auth]
    unfold xngTimeout
    rw [step]
    exact State.xngDown_for _ hk (by decide)

/-! ### Retrains (R367, R372) -/

/-- R367: a retrain fails. -/
theorem retrainFailed_effect (s : State) (hk : k < 32) :
    (2 ≤ (s.xng k).fails → DownFor (s.retrainFailed k) k 8) ∧
      ((s.xng k).fails < 2 → (firstCfg s k).isSome = true → ((s.retrainFailed k).xng k).state = .retrain ∧
        ((s.retrainFailed k).xng k).fails = (s.xng k).fails + 1) := by
  unfold State.retrainFailed
  dsimp only
  refine ⟨fun many => ?_, fun few some_ => ?_⟩
  · rw [if_pos (by omega)]
    exact s.xngDown_for hk (by decide)
  · rw [if_neg (by omega)]
    have changed : SameBut [.xngs] s (s.updXng k fun X => { X with fails := (s.xng k).fails + 1 }) := State.updXng_same _ _ (.refl s) rfl
    have mine := s.xng_updXng_same k fun X => { X with fails := (s.xng k).fails + 1 }
    generalize s.updXng k _ = u at *
    obtain ⟨c, found⟩ := Option.isSome_iff_exists.1 some_
    rw [u.xngRetrain_some ((firstCfg_congr (changed.regs (by decide)) (by rw [mine])).trans found), State.xng_updXng_same, mine]
    exact ⟨rfl, rfl⟩

/-- R364, R372: a second without lasting errors. -/
theorem errorTick_effect (s : State) (hk : k < 32) (laneCorr : Nat) :
    ((errorTick k laneCorr s).xng k).secReplays = 0 ∧
      ((s.xng k).secReplays ≤ s.fld (xngReg k 0x054) 0 16 → laneCorr ≤ s.fld (xngReg k 0x05C) 0 16 →
        ((errorTick k laneCorr s).xng k).state = (s.xng k).state ∧ ((errorTick k laneCorr s).xng k).overSecs = 0) := by
  unfold errorTick
  dsimp only
  generalize hbad : (if s.fld (xngReg k 0x054) 0 16 < (s.xng k).secReplays then (s.xng k).overSecs + 1 else 0) = bad
  generalize hlast : (decide (0 < bad) && decide (s.fld (xngReg k 0x054) 16 8 ≤ bad)) = lasting
  generalize hlane : (decide (s.fld (xngReg k 0x05C) 0 16 < laneCorr) && !s.bit (xngReg k 0x044) 6) = lane
  have mine := s.xng_setXng_same k
    { s.xng k with secReplays := 0, overSecs := if lasting then 0 else bad, spareMark := (s.xng k).spareMark || lane }
  generalize s.setXng k _ = t at *
  have told : SameBut [.regs, .errs, .cores, .wire] t
      (if lasting = true then (t.setBit (xngReg k 0x044) 9).report none 0x08 1 16 0 (64 + k) else t) :=
    SameBut.ite (State.report_same _ _ _ _ _ _ (State.setBit_same _ _ (.refl t) rfl) rfl) (.refl t)
  have mine' := (told.xng (by decide) k).trans mine
  generalize (if lasting = true then (t.setBit (xngReg k 0x044) 9).report none 0x08 1 16 0 (64 + k) else t) = u at *
  refine ⟨?_, fun calm clean => ?_⟩
  · split
    · rw [(u.xngRetrain_effect hk).2.2, mine']
    · rw [mine']
  · rw [if_neg (by omega)] at hbad
    subst hbad
    have noLast : lasting = false := by rw [← hlast]; rfl
    have noLane : lane = false := by rw [← hlane]; simp; omega
    subst noLast noLane
    rw [if_neg (by decide), mine']
    exact ⟨rfl, rfl⟩

theorem retrainCtrl_effect (s : State) (hk : k < 32) :
    ((retrainCtrl k s).xng k).ceil = ⟨2, false, false⟩ ∧
      ((s.xng k).state = .active → xngGo s = true → ((retrainCtrl k s).xng k).state = .retrain ∨ ((retrainCtrl k s).xng k).state = .down) ∧
      ((s.xng k).state ≠ .active → ((retrainCtrl k s).xng k).state = (s.xng k).state) := by
  have mine := s.xng_updXng_same k fun X => { X with ceil := ⟨2, false, false⟩ }
  have go : xngGo (s.updXng k fun X => { X with ceil := ⟨2, false, false⟩ }) = xngGo s := rfl
  unfold retrainCtrl
  dsimp only
  generalize s.updXng k _ = t at *
  rw [mine, go]
  obtain ⟨state, ceil, -⟩ := t.xngRetrain_effect hk
  refine ⟨?_, fun active up => ?_, fun other => ?_⟩
  · split
    · rw [ceil, mine]
    · rw [mine]
  · rw [if_pos ⟨active, up⟩]
    exact state
  · rw [if_neg fun h => other h.1, mine]

theorem xngDetect_effect (s : State) (k : Nat) :
    ((s.xngDetect k).xng k).state = if (s.xng k).fstate = .running ∧ (pairGen s k).isSome then .detect else .disabled := by
  unfold State.xngDetect
  split
  · rw [State.xng_updXng_same]
  · unfold State.xngDark
    rw [State.xng_updXng_same]

/-! ### The reference clock (R27) -/

/-- R27: a lit crossing goes down with its clock. -/
def State.clockDown (s : State) (n : Nat) : State := if xngLit (s.xng n) then s.xngDown n 9 else s

theorem foldl_clockDown {l : List Nat} (nodup : l.Nodup) (hk : k < 32) (below : ∀ n ∈ l, n < 32) (s : State) :
    (k ∉ l → (l.foldl State.clockDown s).xng k = s.xng k ∧ (l.foldl State.clockDown s).fld (xngReg k 0x048) 24 4 = s.fld (xngReg k 0x048) 24 4) ∧
      (k ∈ l → xngLit (s.xng k) = true → DownFor (l.foldl State.clockDown s) k 9) := by
  induction l generalizing s with
  | nil => exact ⟨fun _ => ⟨rfl, rfl⟩, fun h => absurd h (by simp)⟩
  | cons n l ih =>
    obtain ⟨fresh, rest⟩ := List.nodup_cons.1 nodup
    obtain ⟨out, inn⟩ := ih rest (fun m hm => below m (by simp [hm])) (s.clockDown n)
    have other : k ≠ n → (s.clockDown n).xng k = s.xng k ∧ (s.clockDown n).fld (xngReg k 0x048) 24 4 = s.fld (xngReg k 0x048) 24 4 := fun ne => by
      unfold State.clockDown
      split
      · obtain ⟨-, others, regs⟩ := s.xngDown_effect n 9
        refine ⟨others k ne, regs.fld (fun h => ?_) 24 4⟩
        exact h.elim (xngReg_ne (by decide) (by decide) (.inl ne)) (xngReg_not_mem hk (by decide) (by decide))
      · exact ⟨rfl, rfl⟩
    rw [List.foldl_cons]
    refine ⟨fun notIn => ?_, fun isIn lit => ?_⟩
    · obtain ⟨ne, notTail⟩ := not_or.1 (fun h => notIn (List.mem_cons.2 h))
      obtain ⟨x, f⟩ := out notTail
      rw [x, f]
      exact other ne
    · by_cases e : k = n
      · subst e
        obtain ⟨x, f⟩ := out fresh
        have down : DownFor (s.clockDown k) k 9 := by
          unfold State.clockDown
          rw [if_pos lit]
          exact s.xngDown_for hk (by decide)
        exact ⟨by rw [x]; exact down.1, f.trans down.2⟩
      · exact inn ((List.mem_cons.1 isIn).resolve_left e) (by rwa [(other e).1])

theorem xngClockLost_eq (s : State) : xngClockLost s = (List.range 32).foldl State.clockDown { s with pins := { s.pins with xngClk := false } } := rfl

theorem xngClockLost_effect (s : State) (hk : k < 32) :
    (xngClockLost s).pins = { s.pins with xngClk := false } ∧ (xngLit (s.xng k) = true → DownFor (xngClockLost s) k 9) := by
  rw [xngClockLost_eq]
  generalize hu : ({ s with pins := { s.pins with xngClk := false } } : State) = u
  have pins : u.pins = { s.pins with xngClk := false } := by rw [← hu]
  have mine : u.xng k = s.xng k := by rw [← hu]; rfl
  clear hu
  have frame : SameBut [.regs, .slices, .dram, .chk, .net, .errs, .xngs, .eps, .coll, .cores, .caches, .cnts, .wire] u
      ((List.range 32).foldl State.clockDown u) :=
    SameBut.foldl (.refl u) fun v n h => SameBut.ite (State.xngDown_same _ _ h rfl) h
  refine ⟨(frame.pins (by decide)).trans pins, fun lit => ?_⟩
  exact (foldl_clockDown List.nodup_range hk (fun n hn => List.mem_range.1 hn) u).2 (List.mem_range.2 hk) (by rwa [mine])

/-- R27: a crossing that is down trains again. -/
def State.clockUp (s : State) (n : Nat) : State := if (s.xng n).state = .down ∧ (pairGen s n).isSome then s.xngDetect n else s

theorem State.clockUp_frame (s : State) (n : Nat) : SameBut [.xngs] s (s.clockUp n) := .ite (State.xngDetect_same _ (.refl s) rfl) (.refl s)

theorem State.clockUp_ne (s : State) {n j : Nat} (h : j ≠ n) : (s.clockUp n).xng j = s.xng j := by
  unfold State.clockUp State.xngDetect State.xngDark
  split
  · split
    · rw [State.xng_updXng, if_neg h]
    · rw [State.xng_updXng, if_neg h]
  · rfl

theorem foldl_clockUp {l : List Nat} (nodup : l.Nodup) (s : State) :
    (k ∉ l → (l.foldl State.clockUp s).xng k = s.xng k) ∧
      (k ∈ l → (s.xng k).state = .down → (pairGen s k).isSome = true → (s.xng k).fstate = .running →
        ((l.foldl State.clockUp s).xng k).state = .detect) := by
  induction l generalizing s with
  | nil => exact ⟨fun _ => rfl, fun h => absurd h (by simp)⟩
  | cons n l ih =>
    obtain ⟨fresh, rest⟩ := List.nodup_cons.1 nodup
    obtain ⟨out, inn⟩ := ih rest (s.clockUp n)
    rw [pairGen_congr ((s.clockUp_frame n).regs (by decide))] at inn
    rw [List.foldl_cons]
    refine ⟨fun notIn => ?_, fun isIn down pair runs => ?_⟩
    · obtain ⟨ne, notTail⟩ := not_or.1 (fun h => notIn (List.mem_cons.2 h))
      exact (out notTail).trans (s.clockUp_ne ne)
    · by_cases e : k = n
      · subst e
        rw [out fresh]
        unfold State.clockUp
        rw [if_pos ⟨down, pair⟩, xngDetect_effect, if_pos ⟨runs, pair⟩]
      · have same := s.clockUp_ne e
        rw [same] at inn
        exact inn ((List.mem_cons.1 isIn).resolve_left e) down pair runs

theorem xngClockBack_eq (s : State) : xngClockBack s = (List.range 32).foldl State.clockUp { s with pins := { s.pins with xngClk := true } } := rfl

theorem xngClockBack_effect (s : State) (hk : k < 32) :
    (xngClockBack s).pins = { s.pins with xngClk := true } ∧
      ((s.xng k).state = .down → (pairGen s k).isSome = true → (s.xng k).fstate = .running → ((xngClockBack s).xng k).state = .detect) := by
  rw [xngClockBack_eq]
  generalize hu : ({ s with pins := { s.pins with xngClk := true } } : State) = u
  have pins : u.pins = { s.pins with xngClk := true } := by rw [← hu]
  have mine : u.xng k = s.xng k := by rw [← hu]; rfl
  have pair : pairGen u k = pairGen s k := by rw [← hu]; rfl
  clear hu
  have frame : SameBut [.xngs] u ((List.range 32).foldl State.clockUp u) :=
    SameBut.foldl (.refl u) fun v n h => h.trans (v.clockUp_frame n)
  refine ⟨(frame.pins (by decide)).trans pins, ?_⟩
  have up := (foldl_clockUp (k := k) List.nodup_range u).2 (List.mem_range.2 hk)
  rwa [mine, pair] at up

end Training
end Sys2Proof.Machine
end

section
/-!
The link layer of an ACTIVE crossing (R369 to R373, R376 to R378, R381, R382): flits sent and taken, tag groups, keys and packets.
-/
namespace Sys2Proof.Machine

section Flits
variable {s s0 : State} {k : Nat}

/-! ### What sending leaves (R369, R376) -/

/-- Sending and delivering leave the credit held, the keys and the receiver's place. -/
structure SendKept (X Y : Xng) : Prop where
  credit : Y.credit = X.credit
  rekeying : Y.rekeying = X.rekeying
  groups : Y.groups = X.groups
  txPhase : Y.txPhase = X.txPhase
  nak : Y.nak = X.nak
  rxAck : Y.rxAck = X.rxAck
  rxNext : Y.rxNext = X.rxNext

theorem SendKept.refl (X : Xng) : SendKept X X := ⟨rfl, rfl, rfl, rfl, rfl, rfl, rfl⟩

theorem SendKept.trans {X Y Z : Xng} (h : SendKept X Y) (h' : SendKept Y Z) : SendKept X Z :=
  ⟨h'.credit.trans h.credit, h'.rekeying.trans h.rekeying, h'.groups.trans h.groups, h'.txPhase.trans h.txPhase, h'.nak.trans h.nak,
    h'.rxAck.trans h.rxAck, h'.rxNext.trans h.rxNext⟩

theorem SendKept.of_xng {t u : State} (h : SendKept (s.xng k) (t.xng k)) (same : u.xng k = t.xng k) : SendKept (s.xng k) (u.xng k) := by
  rwa [same]

/-- R369: the byte of a flit that holds its type and flags. -/
theorem leAt_mkFlit (seq ack ty : Nat) (nak phase : Bool) (c0 c1 : Nat) (payload : List Byte) :
    leAt (mkFlit seq ack ty nak phase c0 c1 payload) 4 1 = (ty + 4 * b2n nak + 8 * b2n phase) % 256 := rfl

theorem idle_flags (seq ack : Nat) (nak phase : Bool) (c0 c1 : Nat) (payload : List Byte) :
    flType (mkFlit seq ack 0 nak phase c0 c1 payload) = 0 ∧ flNak (mkFlit seq ack 0 nak phase c0 c1 payload) = nak := by
  unfold flType flNak
  rw [leAt_mkFlit]
  cases nak <;> cases phase <;> decide

theorem State.sendFlit_kept (s : State) (k ty : Nat) (nak : Bool) (payload : List Byte) :
    SendKept (s.xng k) ((s.sendFlit k ty nak payload).xng k) := by
  unfold State.sendFlit
  dsimp only
  generalize mkFlit _ _ _ _ _ _ _ _ = f
  generalize (creditFields (s.xng k).owed).2.2 = o
  have mine := s.xng_setXng_same k { s.xng k with owed := o }
  have sent : SameBut [.wire] (s.setXng k { s.xng k with owed := o }) ((s.setXng k { s.xng k with owed := o }).send (.xflit k f)) :=
    State.send_same _ (.refl _) rfl
  have mine' := (sent.xng (by decide) k).trans mine
  generalize (s.setXng k { s.xng k with owed := o }).send (.xflit k f) = u at *
  split
  · rw [mine']
    exact ⟨rfl, rfl, rfl, rfl, rfl, rfl, rfl⟩
  · have counted : SameBut [.regs, .cnts] (u.updXng k fun X => { X with replay := X.replay ++ [(X.txSeq, f)], txSeq := X.txSeq + 1 })
        ((u.updXng k fun X => { X with replay := X.replay ++ [(X.txSeq, f)], txSeq := X.txSeq + 1 }).count 592 (129 + k) 1) :=
      State.count_same _ _ _ (.refl _) rfl
    rw [counted.xng (by decide), State.xng_updXng_same, mine']
    exact ⟨rfl, rfl, rfl, rfl, rfl, rfl, rfl⟩

/-- R370: an IDLE flit. -/
theorem State.sendIdle_effect (s : State) (k : Nat) (nak : Bool) :
    SameBut [.xngs, .wire] s (s.sendIdle k nak) ∧ SendKept (s.xng k) ((s.sendIdle k nak).xng k) ∧
      ((s.sendIdle k nak).xng k).replay = (s.xng k).replay ∧
      ∃ x, (s.sendIdle k nak).wire = s.wire ++ [.xflit k x] ∧ flType x = 0 ∧ flNak x = nak := by
  refine ⟨?_, s.sendFlit_kept k 0 nak _, ?_, ?_⟩
  · exact State.send_same _ (State.setXng_same _ _ (.refl s) rfl) rfl
  · unfold State.sendIdle State.sendFlit
    dsimp only
    rw [if_pos rfl]
    have mine : ∀ X f, ((s.setXng k X).send (.xflit k f)).xng k = X := fun X _ => s.xng_setXng_same k X
    rw [mine]
  · unfold State.sendIdle State.sendFlit
    dsimp only
    rw [if_pos rfl]
    exact ⟨_, rfl, idle_flags _ _ _ _ _ _ _⟩

theorem State.dataFlit_kept (s : State) (k : Nat) : SendKept (s.xng k) ((s.dataFlit k).xng k) := by
  unfold State.dataFlit
  dsimp only
  refine SendKept.trans ?_ (State.sendFlit_kept _ k 1 false _)
  rw [State.xng_setXng_same]
  exact ⟨rfl, rfl, rfl, rfl, rfl, rfl, rfl⟩

theorem State.flushFlits_kept (s : State) (k m : Nat) : SendKept (s.xng k) ((s.flushFlits k m).xng k) := by
  induction m generalizing s with
  | zero => exact .refl _
  | succ m ih =>
    unfold State.flushFlits
    split
    · exact (s.dataFlit_kept k).trans (ih _)
    · exact .refl _

/-! ### Taking flits (R371, R377) -/

theorem takePkts_kept (k m : Nat) (l : List Byte) (s : State) : SendKept (s.xng k) ((takePkts s k m l).xng k) := by
  have left : ∀ (u : State) (l : List Byte), SendKept (u.xng k) ((u.updXng k fun X => { X with rxBuf := l }).xng k) := fun u l => by
    rw [State.xng_updXng_same]
    exact ⟨rfl, rfl, rfl, rfl, rfl, rfl, rfl⟩
  have dropped : ∀ (u : State) p, SendKept (u.xng k) ((u.dropPkt (some k) p).xng k) := fun u p => by
    unfold State.dropPkt
    rw [SameBut.xng (w := [.regs, .cnts]) (State.count_same _ _ _ (.refl _) rfl) (by decide)]
    unfold State.freeBuf
    dsimp only
    rw [State.xng_updXng_same]
    exact ⟨rfl, rfl, rfl, rfl, rfl, rfl, rfl⟩
  have took : ∀ (u : State) p, SendKept (u.xng k) ((u.takePkt k p).xng k) := fun u p => by
    unfold State.takePkt
    split
    · exact dropped u p
    · split
      · exact .refl _
      · split
        · exact dropped u p
        · exact .refl _
  induction m generalizing s l with
  | zero => exact left s l
  | succ m ih =>
    unfold takePkts
    dsimp only
    split
    · split
      · exact ih _ _
      · exact left s l
    · split
      · exact ih _ _
      · split
        · exact left s l
        · exact (took s _).trans (ih _ _)

theorem State.deliver_kept (s : State) (k : Nat) (bytes : List Byte) : SendKept (s.xng k) ((s.deliver k bytes).xng k) := by
  unfold State.deliver
  dsimp only
  split
  · rw [State.xng_updXng_same]
    exact ⟨rfl, rfl, rfl, rfl, rfl, rfl, rfl⟩
  · exact takePkts_kept k _ _ s

/-- R371: a NAK leaves. -/
theorem State.sendNak_effect (s : State) (k : Nat) :
    ((s.sendNak k).xng k).nak = true ∧ ((s.sendNak k).xng k).rxAck = (s.xng k).rxAck ∧ (s.sendNak k).coll = s.coll ∧
      ∃ x, (s.sendNak k).wire = s.wire ++ [.xflit k x] ∧ flNak x = true := by
  unfold State.sendNak
  have changed : SameBut [.xngs] s (s.updXng k fun X => { X with nak := true, rxGroup := [], rxNext := X.rxAck + 1 }) :=
    State.updXng_same _ _ (.refl s) rfl
  have mine := s.xng_updXng_same k fun X => { X with nak := true, rxGroup := [], rxNext := X.rxAck + 1 }
  generalize s.updXng k _ = u at *
  obtain ⟨frame, kept, -, x, sent, -, nak⟩ := u.sendIdle_effect k true
  refine ⟨kept.nak.trans (by rw [mine]), kept.rxAck.trans (by rw [mine]), (frame.coll (by decide)).trans (changed.coll (by decide)), x, ?_, nak⟩
  rw [sent, changed.wire (by decide)]

/-- R371, R377: a sequenced flit taken in good order. -/
theorem State.takeFlits_effect (s : State) (k : Nat) (seq : BitVec 16) (bytes : List Byte) :
    ((s.takeFlits k seq bytes).xng k).rxAck = seq ∧ ((s.takeFlits k seq bytes).xng k).rxNext = seq + 1 ∧
      ((s.takeFlits k seq bytes).xng k).nak = false := by
  unfold State.takeFlits
  have mine := s.xng_updXng_same k fun X => { X with rxAck := seq, rxNext := seq + 1, nak := false, rxGroup := [], tagFails := 0 }
  generalize s.updXng k _ = u at *
  obtain ⟨-, idle, -⟩ := (u.deliver k bytes).sendIdle_effect k false
  have kept := (u.deliver_kept k bytes).trans idle
  rw [mine] at kept
  exact ⟨kept.rxAck, kept.rxNext, kept.nak⟩

/-- R371, R373: acknowledgement and credit of a flit. -/
def Xng.acked (X : Xng) (f : List Byte) : Xng := addCredits (addCredits (ackFlits X (flAck f)) (leAt f 5 2)) (leAt f 7 2)

theorem acked_kept (X : Xng) (f : List Byte) :
    (X.acked f).replay = (ackFlits X (flAck f)).replay ∧ (X.acked f).rxNext = X.rxNext := by
  refine ⟨rfl, ?_⟩
  change (ackFlits X (flAck f)).rxNext = X.rxNext
  unfold ackFlits
  split <;> rfl

theorem receiveFlit_bad {f : List Byte} {tagOk : Bool} {plain : List Byte} (bad : flitOk f = false) (clear : (s.xng k).nak = false) :
    receiveFlit k f tagOk plain s = s.sendNak k := by
  unfold receiveFlit
  rw [if_pos (by simp [bad]), if_neg (by simp [clear])]

theorem receiveFlit_good {f : List Byte} {tagOk : Bool} {plain : List Byte} (good : flitOk f = true) (ack : flNak f = false) :
    receiveFlit k f tagOk plain s = if flType f = 0 then s.updXng k fun X => X.acked f
      else sequenced k f tagOk plain (s.updXng k fun X => X.acked f) := by
  unfold receiveFlit
  rw [if_neg (by simp [good]), ack]
  rfl

theorem sequenced_taken {f : List Byte} {tagOk : Bool} {plain : List Byte} (data : flType f = 1) (next : flSeq f = (s.xng k).rxNext)
    (plainText : xngEnc s k = false) :
    sequenced k f tagOk plain s = (s.count 592 (161 + k) 1).takeFlits k (flSeq f) (f.drop 16) := by
  unfold sequenced
  dsimp only
  rw [if_neg (not_not_intro next), if_pos (by simp [plainText]), if_pos data]

/-- R371, R373, R377: what an ACTIVE crossing makes of a flit. -/
theorem receiveFlit_effect (s : State) (k : Nat) (f : List Byte) (tagOk : Bool) (plain : List Byte) :
    ∀ u, u = receiveFlit k f tagOk plain s →
      (flitOk f = false → (s.xng k).nak = false → (u.xng k).nak = true ∧ (u.xng k).rxAck = (s.xng k).rxAck ∧
        u.coll = s.coll ∧ ∃ x, u.wire = s.wire ++ [.xflit k x] ∧ flNak x = true) ∧
      (flitOk f = true → flNak f = false → flType f = 0 → SameBut [.xngs] s u ∧
        (u.xng k).replay = (ackFlits (s.xng k) (flAck f)).replay) ∧
      (flitOk f = true → flNak f = false → flType f = 1 → flSeq f = (s.xng k).rxNext → xngEnc s k = false →
        (u.xng k).rxAck = flSeq f ∧ (u.xng k).rxNext = flSeq f + 1 ∧ (u.xng k).nak = false) := by
  rintro u rfl
  have acked : SameBut [.xngs] s (s.updXng k fun X => X.acked f) := State.updXng_same _ _ (.refl s) rfl
  have mine := s.xng_updXng_same k fun X => X.acked f
  obtain ⟨replay, next⟩ := acked_kept (s.xng k) f
  refine ⟨fun bad clear => ?_, fun good ack idle => ?_, fun good ack data inOrder open_ => ?_⟩
  · rw [receiveFlit_bad bad clear]
    exact s.sendNak_effect k
  · rw [receiveFlit_good good ack, if_pos idle, mine]
    exact ⟨acked, replay⟩
  · rw [receiveFlit_good good ack, if_neg (by omega), sequenced_taken data (by rw [mine, next, inOrder]) ?_]
    · exact State.takeFlits_effect _ k _ _
    · unfold xngEnc at *
      rw [acked.bit (by decide), open_]

/-! ### Tag groups and keys (R376, R378) -/

theorem State.newKey_xng (s : State) (k : Nat) :
    (s.newKey k).xng k = { s.xng k with txPhase := !(s.xng k).txPhase, groups := 0, keyAt := s.tb, rekeying := false } :=
  s.xng_updXng_same k _

/-- R376, R378: a group closes; the next goes under a new key where a renewal waits. -/
theorem closeGroup_effect (s : State) (k : Nat) :
    ((s.xng k).rekeying = false → ((closeGroup k s).xng k).groups = (s.xng k).groups + 1 ∧
      ((closeGroup k s).xng k).txPhase = (s.xng k).txPhase) ∧
    ((s.xng k).rekeying = true → ((closeGroup k s).xng k).groups = 0 ∧ ((closeGroup k s).xng k).txPhase = (!(s.xng k).txPhase) ∧
      ((closeGroup k s).xng k).rekeying = false) := by
  unfold closeGroup
  dsimp only
  have rest : SendKept (s.xng k) ((if 0 < (s.xng k).txBuf.length ∧ mayFlit s k then s.dataFlit k else s).xng k) := by
    split
    · exact s.dataFlit_kept k
    · exact .refl _
  generalize (if 0 < (s.xng k).txBuf.length ∧ mayFlit s k then s.dataFlit k else s) = t at *
  have drawn : SameBut [.freeCtr] t (t.freeBytes 16).1 := State.freeBytes_same _ (.refl t) rfl
  have kept := rest.of_xng (drawn.xng (by decide) k)
  generalize t.freeBytes 16 = tag at *
  replace kept := kept.trans (tag.1.sendFlit_kept k 2 false (tag.2 ++ List.replicate 224 0))
  generalize tag.1.sendFlit k 2 false (tag.2 ++ List.replicate 224 0) = v at *
  have mine := v.xng_updXng_same k fun X => { X with txGroup := 0, groups := X.groups + 1 }
  generalize v.updXng k _ = w at *
  have renewing : (w.xng k).rekeying = (s.xng k).rekeying := by rw [mine]; exact kept.rekeying
  rw [renewing]
  refine ⟨fun calm => ?_, fun renews => ?_⟩
  · rw [if_neg (by simp [calm])]
    have flushed := w.flushFlits_kept k ((w.xng k).txBuf.length + 1)
    rw [flushed.groups, flushed.txPhase, mine]
    exact ⟨congrArg (· + 1) kept.groups, kept.txPhase⟩
  · rw [if_pos renews]
    have flushed := (w.newKey k).flushFlits_kept k (((w.newKey k).xng k).txBuf.length + 1)
    rw [flushed.groups, flushed.txPhase, flushed.rekeying, w.newKey_xng, mine]
    exact ⟨rfl, congrArg (!·) kept.txPhase, rfl⟩

/-- R378, R452: a renewal. -/
theorem State.rekey_effect (s : State) (hk : k < 32) :
    (keysUsable s = false → DownFor (s.rekey k) k 5) ∧
      (keysUsable s = true → (s.xng k).txGroup = 0 → ((s.rekey k).xng k).txPhase = (!(s.xng k).txPhase) ∧
        ((s.rekey k).xng k).groups = 0 ∧ ((s.rekey k).xng k).keyAt = s.tb) ∧
      (keysUsable s = true → (s.xng k).txGroup ≠ 0 → ((s.rekey k).xng k).rekeying = true ∧
        ((s.rekey k).xng k).txPhase = (s.xng k).txPhase) := by
  unfold State.rekey
  refine ⟨fun broken => ?_, fun usable empty => ?_, fun usable open_ => ?_⟩
  · rw [if_pos (by simp [broken])]
    exact State.xngDown_for _ hk (by decide)
  · rw [if_neg (by simp [usable]), if_pos empty, s.newKey_xng]
    exact ⟨rfl, rfl, rfl⟩
  · rw [if_neg (by simp [usable]), if_neg open_, State.xng_updXng_same]
    exact ⟨rfl, rfl⟩

theorem hasKeys_reqStepped (s : State) (r : Req) : hasKeys (s.reqStepped r) k = hasKeys s k := by
  obtain ⟨l, hl⟩ := s.reqStepped_step r
  rw [hl]
  rfl

theorem keysUsable_reqStepped (s : State) (r : Req) : keysUsable (s.reqStepped r) = keysUsable s := by
  unfold keysUsable
  rw [State.reqStepped_bit, State.reqStepped_bit]

/-! ### Sending packets (R373, R381, R382) -/

theorem nth_setNth_same {α : Type} (d : α) (l : List α) (i : Nat) (x : α) : nth d (setNth d l i x) i = x := by
  unfold nth setNth
  split
  next inside => simp [inside]
  next outside =>
    rw [List.getD_append_right _ _ _ _ (by simp; omega)]
    have place : i - (l ++ List.replicate (i - l.length) d).length = 0 := by simp; omega
    rw [place]
    rfl

/-- R373: a packet that joins the flit stream costs its units of credit. -/
theorem State.packPkt_effect (s : State) (k : Nat) (p : XPkt) :
    SameBut [.freeCtr, .regs, .xngs, .cnts, .wire] s (s.packPkt k p) ∧
      nth 0 ((s.packPkt k p).xng k).credit (pktChan p) = nth 0 (s.xng k).credit (pktChan p) - pktUnits p := by
  refine ⟨State.packPkt_same _ _ (.refl s) rfl, ?_⟩
  unfold State.packPkt
  dsimp only
  generalize hu : s.setXng k _ = u
  have mine : (u.xng k).credit = setNth 0 (s.xng k).credit (pktChan p) (nth 0 (s.xng k).credit (pktChan p) - pktUnits p) := by
    rw [← hu, State.xng_setXng_same]
  rw [(u.flushFlits_kept k _).credit, mine, nth_setNth_same]

/-- R373: a forwarded packet's buffer frees. -/
def State.forwarded (s : State) (h : HeldPkt) : State := if h.via.isSome then (s.freeBuf h.via h.pkt).count 592 193 1 else s

theorem State.forwarded_effect (s : State) (h : HeldPkt) :
    SameBut [.xngs, .regs, .cnts] s (s.forwarded h) ∧ ((s.forwarded h).xng k).credit = (s.xng k).credit := by
  unfold State.forwarded
  refine ⟨.ite (State.count_same _ _ _ (State.freeBuf_same _ _ (.refl s) rfl) rfl) (.refl s), ?_⟩
  split
  · rw [SameBut.xng (w := [.regs, .cnts]) (State.count_same _ _ _ (.refl _) rfl) (by decide)]
    unfold State.freeBuf
    split
    · rw [State.xng_updXng]
      split
      next e => rw [e]
      next => rfl
    · rfl
  · rfl

/-- R373, R381, R382: what a crossing with an open port sends. -/
theorem sendPkt_effect {t : State} (ht : t = s.dropLostPkts) (short : (t.xng k).txBuf.length < 240) (port : portOpen t k = true)
    (runs : stopping t ⟨16, 10, k⟩ = false) :
    ∀ u, u = sendPkt k s →
      (∀ h, pickPkt t k = some h → u.coll.out = t.coll.out.erase h ∧
        nth 0 (u.xng k).credit (pktChan (outPkt h)) = nth 0 (t.xng k).credit (pktChan (outPkt h)) - pktUnits (outPkt h)) ∧
      (pickPkt t k = none → pickData t k = none → (t.xng k).txBuf = [] → u.coll = t.coll ∧
        (u.xng k).replay = (t.xng k).replay ∧ ∃ x, u.wire = t.wire ++ [.xflit k x] ∧ flType x = 0) := by
  rintro u rfl
  unfold sendPkt
  rw [← ht]
  dsimp only
  rw [if_neg (by omega), if_pos (by simp [port, runs]), if_pos (by simp [port, runs])]
  refine ⟨fun h found => ?_, fun noPkt noData empty => ?_⟩
  · rw [found]
    dsimp only
    have sends : ∀ v : State, (if h.via.isSome = true then (v.freeBuf h.via h.pkt).count 592 193 1 else v) = v.forwarded h := fun _ => rfl
    rw [sends]
    generalize hv : ({ t with coll := { t.coll with out := t.coll.out.erase h } } : State) = v
    have out : v.coll.out = t.coll.out.erase h := by rw [← hv]
    have mine : v.xng k = t.xng k := by rw [← hv]; rfl
    clear hv sends
    obtain ⟨frame, credit⟩ := v.forwarded_effect (k := k) h
    generalize v.forwarded h = w at *
    obtain ⟨frame', credit'⟩ := w.packPkt_effect k (outPkt h)
    rw [frame'.coll (by decide), frame.coll (by decide), credit', credit, mine]
    exact ⟨out, rfl⟩
  · rw [noPkt, noData]
    dsimp only
    rw [if_neg (by simp [empty])]
    obtain ⟨frame, -, replay, x, sent, idle, -⟩ := t.sendIdle_effect k false
    exact ⟨frame.coll (by decide), replay, x, sent, idle⟩

/-! ### The commands -/

/-- What the steps of a crossing change beside the crossings themselves is neither plots nor fuses. -/
theorem plots_of_xng {t : State} (h : SameBut [.regs, .slices, .dram, .chk, .net, .errs, .xngs, .eps, .coll, .cores, .caches, .cnts, .wire] s t) :
    t.plots = s.plots := h.plots (by decide)

/-- R365: light at a crossing that waits for it. -/
def State.light (s : State) (k : Nat) : State :=
  match firstCfg s k with
  | some c => s.updXng k fun X => { X with state := .equalise, cfg := c, since := s.tb }
  | none => s.xngDark k

theorem exec_xngLightDetect {n : Fin 32} (go : xngGo s = true) (detect : (s.xng n.val).state = .detect) :
    exec (.xngLightDetect n) s = .next (s.light n.val) := congrArg Host.Outcome.next (if_pos (by simp [go, detect]))

theorem State.light_some {c : XCfg} (h : firstCfg s k = some c) :
    s.light k = s.updXng k fun X => { X with state := .equalise, cfg := c, since := s.tb } := by
  unfold State.light
  rw [h]

theorem State.light_none (h : firstCfg s k = none) : s.light k = s.xngDark k := by
  unfold State.light
  rw [h]

/-- The steps of training (R365, R366, R374, R375). -/
theorem training_effect {n : Fin 32} (go : xngGo s = true) :
    ((s.xng n.val).state = .detect → ∃ u, exec (.xngLightDetect n) s = .next u ∧ SameBut [.xngs] s u ∧
      (∀ c, firstCfg s n.val = some c → (u.xng n.val).state = .equalise ∧ (u.xng n.val).cfg = c) ∧
      (firstCfg s n.val = none → (u.xng n.val).state = .disabled)) ∧
    (xngStep (s.xng n.val) = .equalise →
      (∃ u, exec (.xngEqualiseDone n true) s = .next u ∧ SameBut [.xngs] s u ∧ xngStep (u.xng n.val) = .align) ∧
      (∃ u, exec (.xngEqualiseDone n false) s = .next u ∧ u.plots = s.plots ∧
        (∀ c, nextCfg s n.val = some c → (u.xng n.val).cfg = c ∧ xngStep (u.xng n.val) = .equalise) ∧
        (nextCfg s n.val = none → (s.xng n.val).state ≠ .retrain → DownFor u n.val 2))) ∧
    (xngStep (s.xng n.val) = .align → ∀ spare, ∃ u, exec (.xngAlignDone n spare) s = .next u ∧ SameBut [.regs, .xngs] s u ∧
      xngStep (u.xng n.val) = .peer ∧ (spare = true → u.bit (xngReg n.val 0x044) 6 = true)) := by
  have hk := n.isLt
  refine ⟨fun detect => ⟨_, exec_xngLightDetect go detect, ?_, fun c found => ?_, fun found => ?_⟩, fun equal => ⟨?_, ?_⟩, fun align spare => ?_⟩
  · unfold State.light
    split
    · exact State.updXng_same _ _ (.refl s) rfl
    · exact State.xngDark_same _ (.refl s) rfl
  · rw [State.light_some found, State.xng_updXng_same]
    exact ⟨rfl, rfl⟩
  · rw [State.light_none found]
    unfold State.xngDark
    rw [State.xng_updXng_same]
  · exact ⟨_, congrArg Host.Outcome.next (if_pos (by simp [go, equal])), State.xngTo_same _ _ (.refl s) rfl, s.xngTo_step _ _ (by decide)⟩
  · have body : exec (.xngEqualiseDone n false) s = .next (s.equaliseFailed n.val) :=
      congrArg Host.Outcome.next ((if_pos (by simp [go, equal])).trans (if_neg (by decide)))
    exact ⟨_, body, plots_of_xng (State.equaliseFailed_same _ (.refl s) rfl), equaliseFailed_effect s hk equal⟩
  · exact ⟨_, congrArg Host.Outcome.next (if_pos (by simp [go, align])), alignDone_same _ _ (.refl s) rfl, alignDone_effect s n.val spare⟩

/-- R378: both commands that renew keys. -/
theorem renewal_effect {n : Fin 32} (keys : hasKeys s n.val = true) {r : Req} {i : Instr}
    (hi : (i = .xngRekey r n ∧ reach s r false (xngReg n.val 0x060) = .ok) ∨ (i = .rekeyDue n ∧ s.fld (xngReg n.val 0x058) 0 16 ≠ 0)) :
    ∃ u, exec i s = .next u ∧ u.plots = s.plots ∧
      (keysUsable s = false → DownFor u n.val 5) ∧
      (keysUsable s = true → (s.xng n.val).txGroup = 0 → (u.xng n.val).txPhase = (!(s.xng n.val).txPhase) ∧ (u.xng n.val).groups = 0 ∧
        (u.xng n.val).keyAt = s.tb) ∧
      (keysUsable s = true → (s.xng n.val).txGroup ≠ 0 → (u.xng n.val).rekeying = true ∧ (u.xng n.val).txPhase = (s.xng n.val).txPhase) := by
  rcases hi with ⟨rfl, served⟩ | ⟨rfl, due⟩
  · have stepped := s.reqStepped_frame r
    have body : exec (.xngRekey r n) s = .next ((s.reqStepped r).rekey n.val) :=
      (outcome_access _ served).trans (congrArg _ (if_pos (by rw [hasKeys_reqStepped, keys])))
    have usable := keysUsable_reqStepped s r
    have mine := stepped.xng (by decide) n.val
    have tb := stepped.tb (by decide)
    have plots := stepped.plots (by decide)
    generalize s.reqStepped r = t at *
    have effect_ := t.rekey_effect n.isLt
    rw [usable, mine, tb] at effect_
    exact ⟨_, body, (plots_of_xng (State.rekey_same _ (.refl t) rfl)).trans plots, effect_⟩
  · exact ⟨_, congrArg Host.Outcome.next (if_pos (by simp [keys, due])), plots_of_xng (State.rekey_same _ (.refl s) rfl), s.rekey_effect n.isLt⟩

/-- Settles O41: training through `training_effect` and the effects of its steps, the link layer through `receiveFlit_effect`,
`closeGroup_effect`, `renewal_effect` and `sendPkt_effect`. -/
theorem crossingsTrainFailAndCarryFlits : Obligations.CrossingsTrainFailAndCarryFlits := by
  unfold Obligations.CrossingsTrainFailAndCarryFlits
  refine ⟨?_, ?_⟩
  · rintro s n _ rfl
    have hk := n.isLt
    refine ⟨fun go => ?_, fun r served => ?_, ?_, ?_⟩
    · obtain ⟨light, equal, align⟩ := training_effect (n := n) go
      refine ⟨fun detect => ?_, equal, align, fun peer id_ gen half off => ?_, fun auth ok => ?_, ?_, fun down => ?_,
        fun active c found => ?_, fun retrain => ⟨?_, ?_⟩, fun active laneCorr => ?_⟩
      · obtain ⟨u, body, frame, tries, dark⟩ := light detect
        refine ⟨u, body, frame, ?_⟩
        cases found : firstCfg s n.val with
        | some c => exact tries c found
        | none => exact dark found
      · refine ⟨_, congrArg Host.Outcome.next (if_pos (by simp [go, peer])), plots_of_xng (peerDone_same _ _ _ _ _ (.refl s) rfl), ?_⟩
        cases fits : settle s n.val id_ gen.val half with
        | some c => exact peerDone_some hk fits
        | none => exact peerDone_none hk fits
      · exact ⟨_, congrArg Host.Outcome.next (if_pos (by simp [go, auth])), plots_of_xng (authDone_same _ _ (.refl s) rfl),
          authDone_effect s hk ok⟩
      · exact ⟨_, congrArg Host.Outcome.next (if_pos go), plots_of_xng (xngTimeout_same _ (.refl s) rfl), xngTimeout_effect s hk⟩
      · exact ⟨_, congrArg Host.Outcome.next (if_pos (by simp [go, down])), State.xngDetect_same _ (.refl s) rfl, xngDetect_effect s n.val⟩
      · have body : exec (.codewordLockLoss n) s = .next (s.xngRetrain n.val) := congrArg Host.Outcome.next (if_pos (by simp [go, active]))
        rw [s.xngRetrain_some found] at body
        refine ⟨_, body, State.updXng_same _ _ (.refl s) rfl, ?_⟩
        rw [State.xng_updXng_same]
        exact ⟨rfl, rfl, rfl⟩
      · have body : exec (.xngRetrainDone n true) s = .next (s.xngResume n.val) :=
          congrArg Host.Outcome.next ((if_pos (by simp [go, retrain])).trans (if_pos rfl))
        refine ⟨_, body, State.xngResume_same _ (.refl s) rfl, ?_⟩
        rw [(s.xngResume_effect n.val).1]
        exact ⟨rfl, rfl⟩
      · have body : exec (.xngRetrainDone n false) s = .next (s.retrainFailed n.val) :=
          congrArg Host.Outcome.next ((if_pos (by simp [go, retrain])).trans (if_neg (by decide)))
        exact ⟨_, body, plots_of_xng (State.retrainFailed_same _ (.refl s) rfl), retrainFailed_effect s hk⟩
      · obtain ⟨cleared, calm⟩ := errorTick_effect s hk laneCorr
        rw [active] at calm
        exact ⟨_, congrArg Host.Outcome.next (if_pos (by simp [go, active])), plots_of_xng (errorTick_same _ _ (.refl s) rfl), cleared, calm⟩
    · have stepped := s.reqStepped_frame r
      have body : exec (.xngRetrain r n) s = .next (retrainCtrl n.val (s.reqStepped r)) := outcome_access _ served
      have go := xngGo_reqStepped s r
      have mine := stepped.xng (by decide) n.val
      have plots := stepped.plots (by decide)
      generalize s.reqStepped r = t at *
      have effect_ := retrainCtrl_effect t hk
      rw [go, mine] at effect_
      exact ⟨_, body, (plots_of_xng (retrainCtrl_same _ (.refl t) rfl)).trans plots, effect_⟩
    · exact ⟨_, rfl, plots_of_same (xngClockLost_same (.refl s) rfl), xngClockLost_effect s hk⟩
    · exact ⟨_, rfl, xngClockBack_same (.refl s) rfl, xngClockBack_effect s hk⟩
  · rintro s n _ rfl
    have hk := n.isLt
    refine ⟨fun go active f tagOk plain => ?_, fun sends enc open_ room => ?_, fun keys r i hi => renewal_effect keys hi,
      fun t sends ht short port runs => ?_⟩
    · have frame : SameBut [.regs, .slices, .dram, .chk, .net, .errs, .xngs, .eps, .coll, .cores, .caches, .cnts, .wire] s
          (receiveFlit n.val f tagOk plain s) := receiveFlit_same _ _ _ _ (.refl s) rfl
      exact ⟨_, congrArg Host.Outcome.next (if_pos (by simp [go, active])), frame.plots (by decide), frame.fuses (by decide),
        receiveFlit_effect s n.val f tagOk plain _ rfl⟩
    · exact ⟨_, congrArg Host.Outcome.next (if_pos (by simp [sends, enc, open_, room])), closeGroup_same _ (.refl s) rfl, closeGroup_effect s n.val⟩
    · exact ⟨_, congrArg Host.Outcome.next (if_pos sends), sendPkt_same _ (.refl s) rfl, sendPkt_effect ht short port runs _ rfl⟩

end Flits
end Sys2Proof.Machine
end

section
/-!
Crossing groups (R385 to R395): what the collective engine's packets and the ends of its collectives leave, the forming of a group,
its heartbeats, and the DATA of its collectives.
-/
namespace Sys2Proof.Machine

section Groups
variable {s t : State} {w : List Fld}

/-! ### What packets and ends leave unread -/

theorem SameBut.ep (h : SameBut w s t) (hw : Fld.eps ∉ w) (j : Nat) : t.ep j = s.ep j := by
  unfold State.ep
  rw [h.eps hw]

theorem SameBut.grp (h : SameBut w s t) (hw : Fld.groups ∉ w) (j : Nat) : t.grp j = s.grp j := by
  unfold State.grp
  rw [h.groups hw]

theorem SameBut.collsOf (h : SameBut w s t) (hw : Fld.eps ∉ w) (g : Nat) : collsOf t g = collsOf s g := by
  unfold Machine.collsOf
  simp only [h.ep hw]

theorem SameBut.formingSlot (h : SameBut w s t) (hw : Fld.groups ∉ w) (gid : BitVec 16) (epoch : Word) :
    formingSlot t gid epoch = formingSlot s gid epoch := by
  unfold Machine.formingSlot
  simp only [h.grp hw]

theorem SameBut.activeSlot (h : SameBut w s t) (hw : Fld.groups ∉ w) (gid : BitVec 16) (epoch : Word) :
    activeSlot t gid epoch = activeSlot s gid epoch := by
  unfold Machine.activeSlot
  simp only [h.grp hw]

theorem SameBut.grpOwner (h : SameBut w s t) (hw : Fld.regs ∉ w) (g : Nat) : grpOwner t g = grpOwner s g := by
  unfold Machine.grpOwner
  rw [h.bit hw, h.fld hw]

theorem SameBut.ownId (h : SameBut w s t) (hw : Fld.regs ∉ w) : ownId t = ownId s := by
  unfold Machine.ownId
  rw [h.fld hw]

theorem SameBut.routePorts (h : SameBut w s t) (hr : Fld.regs ∉ w) (hx : Fld.xngs ∉ w) (d : Nat) :
    routePorts t d = routePorts s d := by
  unfold Machine.routePorts routeMask
  dsimp only
  rw [h.bit hr, h.fld hr]
  unfold portOpen
  simp only [h.xng hx]

theorem SameBut.dataColl (h : SameBut w s t) (hw : Fld.eps ∉ w) (g q : Nat) (seq : BitVec 16) (like : Desc) :
    dataColl t g q seq like = dataColl s g q seq like := by
  unfold Machine.dataColl findColl
  rw [h.collsOf hw]

/-! ### Packets posted (R381) -/

/-- Packets posted one after the other wait in this order, and nothing else of the engine changes. -/
theorem foldl_postPkt {α : Type} (f : State → α → XPkt) (target : α → BitVec 16) (kind : XKind) (l : List α) (s : State)
    (dst : ∀ u x, (f u x).dst = target x) (kinds : ∀ u x, (f u x).kind = kind) :
    ∃ r, (l.foldl (fun s x => s.postPkt (f s x)) s).coll = { s.coll with out := s.coll.out ++ r } ∧
      r.map (·.pkt.dst) = l.map target ∧ ∀ h ∈ r, h.pkt.kind = kind := by
  induction l generalizing s with
  | nil => exact ⟨[], by simp, rfl, by simp⟩
  | cons x l ih =>
    obtain ⟨r, posted, order, kept⟩ := ih (s.postPkt (f s x))
    refine ⟨⟨f s x, none⟩ :: r, ?_, ?_, ?_⟩
    · rw [List.foldl_cons, posted]
      simp [State.postPkt]
    · simp [order, dst]
    · rintro h (_ | ⟨_, later⟩)
      · exact kinds s x
      · exact kept h later

/-- R381: a packet of the group waits for each other member that a route leads to. -/
theorem State.postAll_effect (s : State) (members : List (BitVec 16)) (p : XPkt) :
    ∃ r, (s.postAll members p).coll = { s.coll with out := s.coll.out ++ r } ∧ (∀ h ∈ r, h.pkt.kind = p.kind) ∧
      ∀ m ∈ members, m ≠ ownId s → routePorts s m.toNat ≠ [] → ∃ h ∈ r, h.pkt.dst = m := by
  obtain ⟨r, posted, order, kinds⟩ := foldl_postPkt (fun s m => { p with src := ownId s, dst := m }) id p.kind
    (members.filter fun m => m != ownId s && routePorts s m.toNat != []) s (fun _ _ => rfl) (fun _ _ => rfl)
  refine ⟨r, posted, kinds, fun m member other route => ?_⟩
  have listed : m ∈ r.map (·.pkt.dst) := by
    rw [order]
    simp [member, other, route]
  exact List.mem_map.1 listed

/-! ### Ends of collectives (R391) -/

theorem mem_collsOf {g e : Nat} {C : Coll} : (e, C) ∈ collsOf s g ↔ e < 32 ∧ C ∈ (s.ep e).running ∧ C.slot = g := by
  unfold collsOf
  constructor
  · intro h
    obtain ⟨e', he, listed⟩ := List.mem_flatMap.1 h
    obtain ⟨C', hC, pair⟩ := List.mem_map.1 listed
    obtain ⟨rfl, rfl⟩ := Prod.mk.inj pair
    obtain ⟨runs, slot⟩ := List.mem_filter.1 hC
    exact ⟨List.mem_range.1 he, runs, by simpa using slot⟩
  · rintro ⟨he, runs, rfl⟩
    exact List.mem_flatMap.2 ⟨e, List.mem_range.2 he, List.mem_map.2 ⟨C, List.mem_filter.2 ⟨runs, by simp⟩, rfl⟩⟩

/-- R391: the collective that ends leaves its endpoint, and the other endpoints are as before. -/
theorem State.endColl_ep (s : State) (e : Nat) (C : Coll) (status j : Nat) :
    ((s.endColl e C status).ep j).running =
      if j = e then (s.ep e).running.filter (fun X => !(X.slot == C.slot && X.seq == C.seq)) else (s.ep j).running := by
  have removed := s.ep_updEp e j fun E => { E with running := E.running.filter fun X => !(X.slot == C.slot && X.seq == C.seq) }
  have running : ((s.endColl e C status).ep j) =
      ((s.updEp e fun E => { E with running := E.running.filter fun X => !(X.slot == C.slot && X.seq == C.seq) }).ep j) := by
    unfold State.endColl
    dsimp only
    split
    · exact SameBut.ep (w := [.regs, .slices, .dram, .chk, .net, .errs, .cores, .caches, .cnts, .wire])
        (State.collRecord_same _ _ _ _ _ _ (.refl _) rfl) (by decide) j
    · rfl
  rw [running, removed]
  split <;> rfl

/-- The ends of listed collectives leave none of a slot whose collectives were all listed. -/
theorem collsOf_foldl_endColl {g : Nat} (status : State → Coll → Nat) (l : List (Nat × Coll))
    (listed : ∀ x ∈ collsOf s g, x ∈ l) :
    collsOf (l.foldl (fun s x => s.endColl x.1 x.2 (status s x.2)) s) g = [] := by
  induction l generalizing s with
  | nil => exact List.eq_nil_iff_forall_not_mem.2 fun x hx => by simpa using listed x hx
  | cons y l ih =>
    refine ih fun x hx => ?_
    obtain ⟨e, C⟩ := x
    obtain ⟨he, runs, slot⟩ := mem_collsOf.1 hx
    rw [State.endColl_ep] at runs
    split at runs
    next same =>
      obtain ⟨before, other⟩ := List.mem_filter.1 runs
      rcases List.mem_cons.1 (listed _ (mem_collsOf.2 ⟨he, same ▸ before, slot⟩)) with rfl | later
      · simp at other
      · exact later
    next different =>
      rcases List.mem_cons.1 (listed _ (mem_collsOf.2 ⟨he, runs, slot⟩)) with rfl | later
      · exact absurd rfl different
      · exact later

/-- R386, R393: a slot whose collectives have ended has none. -/
theorem State.collsOf_endColls (s : State) (g status : Nat) : collsOf (s.endColls g status) g = [] :=
  collsOf_foldl_endColl (fun s C => if collDone s C then collStatus C else status) _ fun _ h => h

theorem State.endColls_frame (s : State) (g status : Nat) :
    SameBut [.regs, .slices, .dram, .chk, .net, .errs, .eps, .cores, .caches, .cnts, .wire] s (s.endColls g status) :=
  State.endColls_same _ _ (.refl s) rfl

/-! ### Forming (R385 to R387) -/

/-- R387: a slot whose forming failed forms nothing, and is otherwise as before. -/
theorem State.formFailed_grp {F : Form} {g : Nat} (forms : (s.grp g).form = some F) (status : Nat) :
    (s.formFailed g status).grp g = { s.grp g with form := none } := by
  unfold State.formFailed
  simp only [forms]
  rw [(State.finishCmd_frame _ _ _ _ _).grp (by decide), State.grp_updGrp_same]

/-- R386: with the last answer the group is formed. -/
theorem State.tryForm_grp {F : Form} {g : Nat} (forms : (s.grp g).form = some F) :
    (allAnswered F = true → (s.tryForm g).grp g = formedGroup F s.tb) ∧ (allAnswered F = false → s.tryForm g = s) := by
  unfold State.tryForm
  simp only [forms]
  refine ⟨fun all => ?_, fun more => if_neg (by simp [more])⟩
  rw [if_pos all, (State.finishCmd_frame _ _ _ _ _).grp (by decide), State.grp_setGrp_same]

/-- R386: what an answer leaves of the slot that forms. -/
theorem State.answerForm_grp {F : Form} {g q : Nat} (forms : (s.grp g).form = some F) (digest : List Byte) (ack : Bool) :
    (digest ≠ F.digest → ((s.answerForm g q digest ack).grp g).form = none ∧
      ((s.answerForm g q digest ack).grp g).state = (s.grp g).state) ∧
    (digest = F.digest → allAnswered { F with answered := q :: F.answered } = true →
      (s.answerForm g q digest ack).grp g = formedGroup F s.tb) ∧
    (digest = F.digest → allAnswered { F with answered := q :: F.answered } = false →
      ((s.answerForm g q digest ack).grp g).form = some { F with answered := q :: F.answered }) := by
  unfold State.answerForm
  simp only [forms]
  refine ⟨fun wrong => ?_, ?_⟩
  · rw [if_pos wrong, s.formFailed_grp forms]
    exact ⟨rfl, rfl⟩
  have answered : ∀ u : State, SameBut [.coll] (s.updGrp g fun G => { G with form := some { F with answered := q :: F.answered } }) u →
      (u.grp g).form = some { F with answered := q :: F.answered } ∧ u.tb = s.tb := fun u frame => by
    rw [frame.grp (by decide), State.grp_updGrp_same]
    exact ⟨rfl, frame.tb (by decide)⟩
  have posted : ∀ p, SameBut [.coll] (s.updGrp g fun G => { G with form := some { F with answered := q :: F.answered } })
      (if ack then (s.updGrp g fun G => { G with form := some { F with answered := q :: F.answered } }).postPkt p
        else s.updGrp g fun G => { G with form := some { F with answered := q :: F.answered } }) :=
    fun p => SameBut.ite (State.postPkt_same _ (.refl _) rfl) (.refl _)
  constructor
  · intro right all
    rw [if_neg (not_not.2 right)]
    obtain ⟨form, now⟩ := answered _ (posted _)
    rw [(State.tryForm_grp form).1 all, now]
    rfl
  · intro right more
    rw [if_neg (not_not.2 right)]
    obtain ⟨form, -⟩ := answered _ (posted _)
    rw [(State.tryForm_grp form).2 more]
    exact form

/-- R386: JOIN and JOIN_ACK answer the group that forms. -/
theorem joinIn_of_forming {src gid : BitVec 16} {epoch : Word} {g q : Nat} {F : Form} (slot : formingSlot s gid epoch = some g)
    (forms : (s.grp g).form = some F) (rank : rankOf F.members src = some q) (digest : List Byte) :
    joinIn src gid epoch digest s = s.answerForm g q digest true ∧
      joinAckIn src gid epoch digest s = s.answerForm g q digest false := by
  constructor
  · simp only [joinIn, slot, forms, rank]
  · simp only [joinAckIn, slot, forms, rank]

theorem answers_effect {src gid : BitVec 16} {epoch : Word} {digest : List Byte} {g q : Nat} {F : Form} (up : collUp s = true)
    (slot : formingSlot s gid epoch = some g) (forms : (s.grp g).form = some F) (rank : rankOf F.members src = some q) :
    ∀ i ∈ [Instr.join src gid epoch digest, .joinAck src gid epoch digest], ∃ u, exec i s = .next u ∧
      u.plots = s.plots ∧ u.dram = s.dram ∧ u.fuses = s.fuses ∧
      (digest ≠ F.digest → (u.grp g).form = none ∧ (u.grp g).state = (s.grp g).state) ∧
      (digest = F.digest → allAnswered { F with answered := q :: F.answered } = true → u.grp g = formedGroup F s.tb) ∧
      (digest = F.digest → allAnswered { F with answered := q :: F.answered } = false →
        (u.grp g).form = some { F with answered := q :: F.answered }) := by
  have answer : ∀ kind ack, ∃ u, u = (s.pktIn kind src gid epoch none).answerForm g q digest ack ∧
      u.plots = s.plots ∧ u.dram = s.dram ∧ u.fuses = s.fuses ∧
      (digest ≠ F.digest → (u.grp g).form = none ∧ (u.grp g).state = (s.grp g).state) ∧
      (digest = F.digest → allAnswered { F with answered := q :: F.answered } = true → u.grp g = formedGroup F s.tb) ∧
      (digest = F.digest → allAnswered { F with answered := q :: F.answered } = false →
        (u.grp g).form = some { F with answered := q :: F.answered }) := by
    intro kind ack
    have taken : SameBut [.xngs, .coll] s (s.pktIn kind src gid epoch none) := State.pktIn_same _ _ _ _ _ (.refl s) rfl
    generalize s.pktIn kind src gid epoch none = v at *
    have form : (v.grp g).form = some F := by rw [taken.grp (by decide), forms]
    have frame : SameBut [.xngs, .rings, .groups, .coll, .cores, .wire] s (v.answerForm g q digest ack) :=
      State.answerForm_same _ _ _ _ (taken.mono rfl) rfl
    have grp := v.answerForm_grp form (q := q) digest ack
    rw [taken.grp (by decide), taken.tb (by decide)] at grp
    exact ⟨_, rfl, frame.plots (by decide), frame.dram (by decide), frame.fuses (by decide), grp⟩
  have body : ∀ kind, joinIn src gid epoch digest (s.pktIn kind src gid epoch none) =
        (s.pktIn kind src gid epoch none).answerForm g q digest true ∧
      joinAckIn src gid epoch digest (s.pktIn kind src gid epoch none) =
        (s.pktIn kind src gid epoch none).answerForm g q digest false := by
    intro kind
    have taken : SameBut [.xngs, .coll] s (s.pktIn kind src gid epoch none) := State.pktIn_same _ _ _ _ _ (.refl s) rfl
    exact joinIn_of_forming (by rw [taken.formingSlot (by decide), slot]) (by rw [taken.grp (by decide), forms]) rank digest
  intro i hi
  rcases List.mem_cons.1 hi with rfl | last
  · obtain ⟨u, eq, rest⟩ := answer .join true
    exact ⟨u, congrArg Host.Outcome.next ((if_pos up).trans ((body .join).1.trans eq.symm)), rest⟩
  · obtain rfl := List.mem_singleton.1 last
    obtain ⟨u, eq, rest⟩ := answer .joinAck false
    exact ⟨u, congrArg Host.Outcome.next ((if_pos up).trans ((body .joinAck).2.trans eq.symm)), rest⟩

/-- R386: a JOIN of no slot is kept where its epoch is new. -/
theorem join_kept {src gid : BitVec 16} {epoch : Word} (digest : List Byte) (up : collUp s = true)
    (forms : formingSlot s gid epoch = none) (active : activeSlot s gid epoch = none) :
    ∃ u, exec (.join src gid epoch digest) s = .next u ∧ SameBut [.regs, .xngs, .coll, .cnts] s u ∧ u.coll.kept = s.coll.kept ++
      (if higherEpoch s gid epoch then [{ gid := gid, epoch := epoch, src := src, digest := digest, since := s.tb }] else []) := by
  refine ⟨_, congrArg Host.Outcome.next (if_pos up), ?_⟩
  have taken : SameBut [.xngs, .coll] s (s.pktIn .join src gid epoch none) := State.pktIn_same _ _ _ _ _ (.refl s) rfl
  have engine : (s.pktIn .join src gid epoch none).coll.kept = s.coll.kept ∧
      (s.pktIn .join src gid epoch none).coll.lastEpoch = s.coll.lastEpoch := by
    unfold State.pktIn
    split
    · exact ⟨rfl, rfl⟩
    next h _ =>
      rw [SameBut.coll (w := [.xngs]) (State.freeBuf_same _ _ (.refl _) rfl) (by decide)]
      exact ⟨rfl, rfl⟩
  generalize s.pktIn .join src gid epoch none = v at *
  obtain ⟨kept, last⟩ := engine
  have newer : higherEpoch v gid epoch = higherEpoch s gid epoch := by
    unfold higherEpoch
    rw [last]
  unfold joinIn
  simp only [taken.formingSlot (by decide), taken.activeSlot (by decide), forms, active, newer]
  split
  · refine ⟨SameBut.lit_coll (taken.mono rfl) rfl, ?_⟩
    rw [taken.tb (by decide)]
    exact congrArg (· ++ _) kept
  · have counted : SameBut [.regs, .cnts] v v.stale := State.stale_same (.refl v) rfl
    refine ⟨(taken.mono rfl).trans (counted.mono rfl), ?_⟩
    rw [counted.coll (by decide), kept, List.append_nil]

/-- The group that a GROUP_FORM starts to form. -/
def newForm (k : Nat) (c : Cmd) (ids : List (BitVec 16)) (s : State) : Form :=
  { gid := BitVec.ofNat 16 (gfGid c), epoch := BitVec.ofNat 32 (gfEpoch c), members := ids.take (gfSize c), rank := gfRank c
    hb := if c.field 20 2 = 0 then s.fld (colReg 0x200) 0 16 else c.field 20 2
    digest := memberDigest (gfGid c) (gfEpoch c) (ids.take (gfSize c)), answered := [], startAt := s.tb
    limit := if c.field 22 2 = 0 then 100 else c.field 22 2, job := (k, c.id) }

/-- The command runs, and its slot forms the group; the epoch is used. -/
def State.slotForms (s : State) (k : Nat) (c : Cmd) (F : Form) : State :=
  let s1 := (s.runCmd k c .waiting).updGrp (gfSlot c) fun G => { G with form := some F }
  { s1 with coll := { s1.coll with lastEpoch := tput 0 s1.coll.lastEpoch (gfGid c) F.epoch } }

/-- The JOINs of a group that forms. -/
def State.joinsSent (s : State) (F : Form) : State :=
  s.postAll F.members { kind := .join, src := 0, dst := 0, group := F.gid, epoch := F.epoch, seq := 0, body := F.digest }

theorem State.slotForms_effect (s : State) (k : Nat) (c : Cmd) (F : Form) :
    SameBut [.rings, .groups, .coll] s (s.slotForms k c F) ∧ ((s.slotForms k c F).grp (gfSlot c)).form = some F ∧
      (s.slotForms k c F).coll = { s.coll with lastEpoch := tput 0 s.coll.lastEpoch (gfGid c) F.epoch } := by
  have runs : SameBut [.rings, .groups] s ((s.runCmd k c .waiting).updGrp (gfSlot c) fun G => { G with form := some F }) :=
    State.updGrp_same _ _ (State.runCmd_same _ _ _ (.refl s) rfl) rfl
  have form := State.grp_updGrp_same (s.runCmd k c .waiting) (gfSlot c) fun G => { G with form := some F }
  unfold State.slotForms
  generalize (s.runCmd k c .waiting).updGrp (gfSlot c) (fun G => { G with form := some F }) = v at *
  have engine := runs.coll (by decide)
  refine ⟨SameBut.lit_coll (runs.mono rfl) rfl, congrArg Group.form form, ?_⟩
  rw [← engine]

/-- JOINs kept for the group that forms are taken as answers. -/
def State.takeKept (s : State) (g : Nat) (F : Form) : State :=
  let mine (j : KeptJoin) : Bool := j.gid == F.gid && j.epoch == F.epoch && F.members.contains j.src
  (s.coll.kept.filter mine).foldl (fun s j => match rankOf F.members j.src with
    | some q => s.answerForm g q j.digest true
    | none => s) { s with coll := { s.coll with kept := s.coll.kept.filter fun j => !(mine j) } }

theorem State.takeKept_of_none (s : State) (g : Nat) (F : Form) (kept : s.coll.kept = []) :
    s.takeKept g F = { s with coll := { s.coll with kept := [] } } := by
  unfold State.takeKept
  simp only [kept, List.filter_nil, List.foldl_nil]

theorem startForm_eq (k : Nat) (c : Cmd) (ids : List (BitVec 16)) (s : State) :
    startForm k c ids s =
      ((s.slotForms k c (newForm k c ids s)).joinsSent (newForm k c ids s)).takeKept (gfSlot c) (newForm k c ids s) := rfl

/-- R386: what the start of forming leaves where no JOIN is kept. -/
theorem startForm_effect (k : Nat) (c : Cmd) (ids : List (BitVec 16)) (kept : s.coll.kept = []) :
    SameBut [.rings, .groups, .coll] s (startForm k c ids s) ∧
      ((startForm k c ids s).grp (gfSlot c)).form = some (newForm k c ids s) ∧
      tget 0 (startForm k c ids s).coll.lastEpoch (gfGid c) = (newForm k c ids s).epoch ∧
      ∀ m ∈ (newForm k c ids s).members, m ≠ ownId s → routePorts s m.toNat ≠ [] →
        ∃ h ∈ (startForm k c ids s).coll.out, h.pkt.kind = .join ∧ h.pkt.dst = m := by
  rw [startForm_eq]
  generalize newForm k c ids s = F at *
  obtain ⟨frame, form, engine⟩ := s.slotForms_effect k c F
  generalize s.slotForms k c F = v at *
  obtain ⟨r, posted, kinds, all⟩ := v.postAll_effect F.members
    { kind := .join, src := 0, dst := 0, group := F.gid, epoch := F.epoch, seq := 0, body := F.digest }
  have joins : SameBut [.coll] v (v.joinsSent F) := State.postAll_same _ _ (.refl v) rfl
  have engine' : (v.joinsSent F).coll = { v.coll with out := v.coll.out ++ r } := posted
  generalize v.joinsSent F = t at *
  rw [t.takeKept_of_none _ _ (by rw [engine', engine]; exact kept)]
  refine ⟨SameBut.lit_coll (frame.trans (joins.mono rfl)) rfl, ?_, ?_, fun m member other route => ?_⟩
  · exact (congrArg Group.form (joins.grp (by decide) _)).trans form
  · change tget 0 t.coll.lastEpoch _ = _
    rw [engine', engine]
    exact tget_tput_same _ _ _ _
  · obtain ⟨h, listed, dst⟩ := all m member (by rwa [frame.ownId (by decide)])
      (by rwa [frame.routePorts (by decide) (by decide)])
    refine ⟨h, ?_, kinds h listed, dst⟩
    change h ∈ t.coll.out
    rw [engine']
    exact List.mem_append_right _ listed

/-- R385: GROUP_FORM forms a group, or completes with the status that refuses it. -/
theorem groupForm_effect {g : RingId} {c : Cmd} (ids : List (BitVec 16)) (starts : Starts s (ringKey g) 12 c) (action : gfAction c = 0) :
    (formRefusal s (cmdPart (ringKey g) c) c ids = none → collsOf s (gfSlot c) = [] → s.coll.kept = [] →
      ∃ u F, exec (.groupForm g ids) s = .next u ∧ SameBut [.rings, .groups, .coll] s u ∧
        (u.grp (gfSlot c)).form = some F ∧ F.gid = BitVec.ofNat 16 (gfGid c) ∧ F.epoch = BitVec.ofNat 32 (gfEpoch c) ∧
        F.members = ids.take (gfSize c) ∧ F.rank = gfRank c ∧ F.job = (ringKey g, c.id) ∧
        tget 0 u.coll.lastEpoch (gfGid c) = F.epoch ∧
        (∀ m ∈ F.members, m ≠ ownId s → routePorts s m.toNat ≠ [] → ∃ h ∈ u.coll.out, h.pkt.kind = .join ∧ h.pkt.dst = m)) ∧
    (∀ st, formRefusal s (cmdPart (ringKey g) c) c ids = some st → st ≠ 0x31 → ∃ u, exec (.groupForm g ids) s = .next u ∧
      SameBut [.rings, .cores, .wire] s u ∧ Answers (ringKey g) c st 0 s u) := by
  have body : exec (.groupForm g ids) s = .next (formCmd ids (ringKey g) c s) :=
    congrArg Host.Outcome.next (startCmd_of_starts _ starts)
  unfold formCmd at body
  rw [if_neg (by omega), if_neg (by omega)] at body
  constructor
  · intro allowed idle kept
    simp only [allowed] at body
    rw [if_pos idle] at body
    obtain ⟨frame, form, epoch, joins⟩ := startForm_effect (ringKey g) c ids kept
    exact ⟨_, _, body, frame, form, rfl, rfl, rfl, rfl, rfl, epoch, joins⟩
  · intro st refused other
    simp only [refused] at body
    rw [if_neg fun h => other h.2.2] at body
    exact ⟨_, body, s.instant_frame _ c st 0, s.instant_answers st 0 (held_eq_nil_of_frontCmd starts.1)⟩

/-- R386: a dissolved slot reads FREE, and its collectives have ended. -/
theorem dissolve_effect (s : State) (g : Nat) : (dissolve g s).grp g = {} ∧ collsOf (dissolve g s) g = [] := by
  refine ⟨State.grp_setGrp_same _ _ _, ?_⟩
  have failed : SameBut [.rings, .groups, .cores, .wire] (s.endColls g 0x53) (dissolve g s) :=
    State.setGrp_same _ _ (State.formFailed_same _ _ (.refl _) rfl) rfl
  rw [failed.collsOf (by decide), s.collsOf_endColls]

theorem groupDissolve_effect {g : RingId} {c : Cmd} (starts : Starts s (ringKey g) 12 c) (action : gfAction c = 1)
    (slot : gfSlot c ≤ 15) (own : grpOwner s (gfSlot c) = some (cmdPart (ringKey g) c)) :
    ∃ u, exec (.groupDissolve g) s = .next u ∧ u.plots = s.plots ∧ u.fuses = s.fuses ∧ u.grp (gfSlot c) = {} ∧
      collsOf u (gfSlot c) = [] := by
  have body : exec (.groupDissolve g) s = .next (dissolveCmd (ringKey g) c s) :=
    congrArg Host.Outcome.next (startCmd_of_starts _ starts)
  unfold dissolveCmd at body
  rw [if_neg (not_not.2 action), if_neg (by simp [own]; omega)] at body
  have gone : SameBut [.regs, .slices, .dram, .chk, .net, .rings, .errs, .eps, .groups, .cores, .caches, .cnts, .wire] s
      (dissolve (gfSlot c) s) := dissolve_same _ (.refl s) rfl
  obtain ⟨free, none_⟩ := dissolve_effect s (gfSlot c)
  generalize dissolve (gfSlot c) s = v at *
  have done := v.instant_frame (ringKey g) c 0 (gfEpoch c)
  refine ⟨_, body, (done.plots (by decide)).trans (gone.plots (by decide)), (done.fuses (by decide)).trans (gone.fuses (by decide)), ?_, ?_⟩
  · rw [done.grp (by decide), free]
  · rw [done.collsOf (by decide), none_]

/-! ### Heartbeats and splits (R392 to R395) -/

/-- A packet of an ACTIVE slot has its effect there, after it was heard. -/
theorem groupPkt_of_active {src gid : BitVec 16} {epoch : Word} {g : Nat} (active : activeSlot s gid epoch = some g)
    (f : Nat → State → State) (kind : XKind) (seq : Option (BitVec 16)) :
    ∃ v, groupPkt src gid epoch f (s.pktIn kind src gid epoch seq) = f g v ∧ SameBut [.xngs, .groups, .coll] s v ∧
      (v.grp g).members = (s.grp g).members ∧ (v.grp g).state = (s.grp g).state ∧
      (v.grp g).heardNext = if nth 0 (s.grp g).members (((s.grp g).rank + 1) % (s.grp g).members.length) = src then s.tb
        else (s.grp g).heardNext := by
  have taken : SameBut [.xngs, .coll] s (s.pktIn kind src gid epoch seq) := State.pktIn_same _ _ _ _ _ (.refl s) rfl
  generalize s.pktIn kind src gid epoch seq = t at *
  refine ⟨t.heard g src, ?_, State.heard_same _ _ (taken.mono rfl) rfl, ?_⟩
  · unfold groupPkt
    rw [taken.activeSlot (by decide), active]
  · unfold State.heard
    rw [State.grp_updGrp_same, taken.grp (by decide), taken.tb (by decide)]
    exact ⟨rfl, rfl, rfl⟩

/-- R393: a severed slot. -/
theorem sever_effect (s : State) {g : Nat} : ((sever g s).grp g).state = .severed ∧ collsOf (sever g s) g = [] ∧
    (sever g s).bit (colReg (0x100 + 16 * g)) 3 = true := by
  have none_ := s.collsOf_endColls g 0x50
  unfold sever
  dsimp only
  generalize s.endColls g 0x50 = v at *
  have grp := v.grp_setGrp_same g { s.grp g with state := .severed }
  have slot : SameBut [.groups] v (v.setGrp g { s.grp g with state := .severed }) := State.setGrp_same _ _ (.refl v) rfl
  generalize v.setGrp g { s.grp g with state := .severed } = t at *
  have set := t.bit_setBit_same (colReg (0x100 + 16 * g)) (i := 3) (by decide)
  have bit : SameBut [.regs] t (t.setBit (colReg (0x100 + 16 * g)) 3) := State.setBit_same _ _ (.refl t) rfl
  generalize t.setBit (colReg (0x100 + 16 * g)) 3 = r at *
  have sent := State.postAll_same (s.grp g).members
    { kind := .sever, src := 0, dst := 0, group := (s.grp g).gid, epoch := (s.grp g).epoch, seq := 0 } (.refl r) (msk := [.coll]) rfl
  refine ⟨?_, ?_, ?_⟩
  · rw [sent.grp (by decide), bit.grp (by decide), grp]
  · rw [sent.collsOf (by decide), bit.collsOf (by decide), slot.collsOf (by decide), none_]
  · rw [sent.bit (by decide), set]

/-- R392: a beat posts a HEARTBEAT to each neighbour. -/
theorem beat_effect (s : State) (g : Nat) : ∃ l, (beat g s).coll.out = s.coll.out ++ l ∧
    l.map (·.pkt.dst) = neighbours (s.grp g) ∧ ∀ x ∈ l, x.pkt.kind = .heartbeat := by
  obtain ⟨r, posted, order, kinds⟩ := foldl_postPkt
    (fun u d => { kind := .heartbeat, src := ownId u, dst := d, group := (s.grp g).gid, epoch := (s.grp g).epoch, seq := 0 })
    id .heartbeat (neighbours (s.grp g)) s (fun _ _ => rfl) (fun _ _ => rfl)
  exact ⟨r, congrArg CollEng.out posted, order.trans (List.map_id _), kinds⟩

/-- R392, R393: an ACTIVE slot's beat, and its neighbours' silence. -/
theorem active_effect {g : Nat} (up : collUp s = true) (active : grpState (s.grp g) = .active) (h : g < 16) :
    (∃ u, exec (.heartbeatSend ⟨g, h⟩) s = .next u ∧ SameBut [.coll] s u ∧
      ∃ l, u.coll.out = s.coll.out ++ l ∧ l.map (·.pkt.dst) = neighbours (s.grp g) ∧ ∀ x ∈ l, x.pkt.kind = .heartbeat) ∧
    (∀ next, ∃ u, exec (.heartbeatTimeout ⟨g, h⟩ next) s = .next u ∧ u.plots = s.plots ∧ u.fuses = s.fuses ∧
      (u.grp g).state = .severed ∧ collsOf u g = [] ∧ u.bit (colReg (0x100 + 16 * g)) 3 = true) := by
  have go : (collUp s && grpState (s.grp g) == .active) = true := by simp [up, active]
  refine ⟨⟨_, congrArg Host.Outcome.next (if_pos go), beat_same _ (.refl s) rfl, beat_effect s g⟩, fun _ => ?_⟩
  have frame : SameBut [.regs, .slices, .dram, .chk, .net, .errs, .eps, .groups, .coll, .cores, .caches, .cnts, .wire] s
      (sever g s) := sever_same _ (.refl s) rfl
  exact ⟨_, congrArg Host.Outcome.next (if_pos go), frame.plots (by decide), frame.fuses (by decide), sever_effect s⟩

/-! ### DATA (R389, R390) -/

/-- Collective `seq` of a slot runs at an endpoint, and `n` bytes of rank `q` have come. -/
def CollGot (e slot : Nat) (seq : Word) (q n : Nat) (s : State) : Prop :=
  ∃ X ∈ (s.ep e).running, X.slot = slot ∧ X.seq = seq ∧ tget 0 X.got q = n

section CollGot
variable {e slot q n : Nat} {seq : Word}

theorem CollGot.same (h : CollGot e slot seq q n s) (frame : SameBut w s t) (hw : Fld.eps ∉ w) : CollGot e slot seq q n t := by
  unfold CollGot
  rwa [frame.ep hw]

theorem markColl_keeps (addr : Nat) (C : Coll) :
    (markColl addr C).slot = C.slot ∧ (markColl addr C).seq = C.seq ∧ (markColl addr C).got = C.got := by
  unfold markColl
  split <;> exact ⟨rfl, rfl, rfl⟩

theorem CollGot.markPoisoned (h : CollGot e slot seq q n s) (addr : Nat) : CollGot e slot seq q n (s.markPoisoned addr) := by
  unfold State.markPoisoned
  generalize List.range 32 = l
  induction l generalizing s with
  | nil => exact h
  | cons j l ih =>
    refine ih ?_
    dsimp only
    split
    · exact h
    · unfold CollGot
      rw [State.ep_updEp]
      split
      next place =>
        subst place
        obtain ⟨X, runs, slot, seq, got⟩ := h
        obtain ⟨slot', seq', got'⟩ := markColl_keeps addr X
        exact ⟨_, List.mem_map_of_mem runs, slot'.trans slot, seq'.trans seq, got'.symm ▸ got⟩
      next => exact h

theorem CollGot.flushSap (h : CollGot e slot seq q n s) : CollGot e slot seq q n s.flushSap := by
  unfold State.flushSap
  generalize s.coll.sap = l
  have start : CollGot e slot seq q n { s with coll := { s.coll with sap := [] } } :=
    h.same (w := [.coll]) (SameBut.lit_coll (.refl s) rfl) (by decide)
  generalize ({ s with coll := { s.coll with sap := [] } } : State) = v at *
  induction l generalizing v with
  | nil => exact start
  | cons x l ih =>
    refine ih _ ?_
    have added : CollGot e slot seq q n (v.devWeir x.1.toNat x.2.1 x.2.2.1 x.2.2.2).st :=
      start.same (w := [.regs, .slices, .dram, .chk, .errs, .cores, .caches, .cnts, .wire])
        (State.devWeir_same _ _ _ _ (.refl v) rfl) (by decide)
    dsimp only
    split
    · exact added.markPoisoned _
    · exact added

theorem CollGot.addSap (h : CollGot e slot seq q n s) (op addr : Nat) (data : List Byte) (bad : Bool) :
    CollGot e slot seq q n (s.addSap op addr data bad) := by
  unfold State.addSap
  dsimp only
  split
  · exact h.flushSap.same (w := [.coll]) (SameBut.lit_coll (.refl _) rfl) (by decide)
  · exact h.same (w := [.coll]) (SameBut.lit_coll (.refl _) rfl) (by decide)

theorem CollGot.foldl_addSap {α : Type} (h : CollGot e slot seq q n s) (op : Nat) (addr : α → Nat) (data : α → List Byte) (bad : Bool)
    (l : List α) : CollGot e slot seq q n (l.foldl (fun s p => s.addSap op (addr p) (data p) bad) s) := by
  induction l generalizing s with
  | nil => exact h
  | cons p l ih => exact ih (h.addSap op (addr p) (data p) bad)

end CollGot

/-- R389: data that fits counts for its collective. -/
theorem applyData_effect {C : Coll} {e : Nat} (runs : C ∈ (s.ep e).running) (n q off : Nat) (data : List Byte) (bad : Bool) :
    CollGot e C.slot C.seq q (min (collRecv C q) (tget 0 C.got q + (if cOp C.desc = 6 then 1 else data.length)))
      (applyData e n C q off data bad s) := by
  unfold applyData
  dsimp only
  generalize (if cOp C.desc = 6 then 1 else data.length) = len
  generalize hC : ({ C with got := tput 0 C.got q _, poisoned := C.poisoned || bad } : Coll) = C1
  have counted : CollGot e C.slot C.seq q (min (collRecv C q) (tget 0 C.got q + len))
      (s.setColl e C1) := by
    unfold CollGot State.setColl
    rw [State.ep_updEp_same]
    refine ⟨C1, List.mem_map.2 ⟨C, runs, if_pos ?_⟩, ?_⟩ <;> subst hC
    · exact ⟨rfl, rfl⟩
    · exact ⟨rfl, rfl, tget_tput_same _ _ _ _⟩
  generalize s.setColl e C1 = v at *
  split
  · exact counted
  next o _ =>
    exact (counted.foldl_addSap _ _ _ _ _).same (w := [.regs, .cnts]) (State.countColl_same _ _ (.refl _) rfl) (by decide)
  next o _ =>
    have written : SameBut [.regs, .slices, .dram, .chk, .errs, .cores, .caches, .cnts, .wire] v
        (v.devWrite (commonsAddr n (collDst C.desc + o)) data bad .port).st := State.devWrite_same _ _ _ _ (.refl v) rfl
    exact (counted.same written (by decide)).same (w := [.regs, .cnts]) (State.countColl_same _ _ (.refl _) rfl) (by decide)

/-- R389, R390: DATA of a collective in flight counts, or ends it where the descriptors do not fit. -/
theorem dataIn_effect {src seq : BitVec 16} {like : Desc} {off q n e g : Nat} {data : List Byte} {C : Coll}
    (rank : rankOf (s.grp g).members src = some q) (own : grpOwner s g = some n) (names : dataColl s g q seq like = some (e, C))
    (bad : Bool) :
    (mismatch C like = true → ((dataIn src seq like off data bad g s).ep e).running =
      (s.ep e).running.filter (fun X => !(X.slot == C.slot && X.seq == C.seq))) ∧
    (mismatch C like = false → dataFits C q off data.length = true → C ∈ (s.ep e).running →
      CollGot e C.slot C.seq q (min (collRecv C q) (tget 0 C.got q + (if cOp C.desc = 6 then 1 else data.length)))
        (dataIn src seq like off data bad g s)) := by
  unfold dataIn
  simp only [rank, own, names]
  refine ⟨fun unlike => ?_, fun fits inside runs => ?_⟩
  · have sent : SameBut [.coll] s (s.sendLost g (BitVec.ofNat 16 C.seq.toNat)) := State.sendLost_same _ _ (.refl s) rfl
    rw [if_pos unlike, State.endColl_ep, if_pos rfl, sent.ep (by decide)]
  · rw [if_neg (c := mismatch C like = true) (by simp [fits]), if_pos inside]
    exact applyData_effect runs n q off data bad

/-- R382: credit adds to what this device may send to its peer. -/
theorem e2eCredit_effect (src : BitVec 16) (amount : Nat) (up : collUp s = true) :
    ∃ u, exec (.e2eCredit src amount) s = .next u ∧ SameBut [.xngs, .coll] s u ∧
      tget 0 u.coll.e2e src.toNat = tget 0 s.coll.e2e src.toNat + amount := by
  have taken : (s.creditPktIn src).coll.e2e = s.coll.e2e := by
    unfold State.creditPktIn
    split
    · unfold State.pktIn
      split
      · rfl
      · rw [SameBut.coll (w := [.xngs]) (State.freeBuf_same _ _ (.refl _) rfl) (by decide)]
    · rfl
  refine ⟨_, congrArg Host.Outcome.next (if_pos up), creditIn_same _ _ (State.creditPktIn_same _ (.refl s) rfl) rfl, ?_⟩
  unfold creditIn
  dsimp only
  rw [tget_tput_same, taken]

/-- Settles O40: each packet's effect on the slot it names, and the engine's own timers. -/
theorem groupsFormAndTakePackets : Obligations.GroupsFormAndTakePackets := by
  unfold Obligations.GroupsFormAndTakePackets
  refine ⟨fun s => ⟨?_, ?_, ?_, ?_, ?_, ?_⟩, fun s src gid epoch g up => ⟨active_effect up, fun active => ⟨?_, ?_, ?_, ?_⟩,
    fun amount => e2eCredit_effect src amount up⟩⟩
  · rintro g _ c ids rfl starts action
    exact groupForm_effect ids starts action
  · rintro g _ c rfl starts action slot own
    exact groupDissolve_effect starts action slot own
  · exact fun src gid epoch digest g q F up slot forms rank => answers_effect up slot forms rank
  · exact fun src gid epoch digest up forms active => join_kept digest up forms active
  · exact fun i up => ⟨_, congrArg Host.Outcome.next (if_pos up), SameBut.lit_coll (.refl s) rfl, rfl⟩
  · exact fun g F up forms => ⟨_, congrArg Host.Outcome.next (if_pos up), State.formFailed_same _ _ (.refl s) rfl,
      s.formFailed_grp forms 0x33⟩
  · obtain ⟨v, eq, frame, -, state, next⟩ := groupPkt_of_active (src := src) active (fun _ s => s) .heartbeat none
    refine ⟨v, congrArg Host.Outcome.next ((if_pos up).trans eq), frame, fun near => ?_, fun far => ?_, state⟩
    · rw [next, if_pos near]
    · rw [next, if_neg far]
  · obtain ⟨v, eq, frame, -, -, -⟩ := groupPkt_of_active (src := src) active sever .sever none
    have severed : SameBut [.xngs, .regs, .slices, .dram, .chk, .net, .errs, .eps, .groups, .coll, .cores, .caches, .cnts, .wire] s
        (sever g v) := sever_same _ (frame.mono rfl) rfl
    obtain ⟨state, none_, -⟩ := sever_effect v (g := g)
    exact ⟨_, congrArg Host.Outcome.next ((if_pos up).trans eq), severed.plots (by decide), severed.fuses (by decide), state, none_⟩
  · intro seq e C names
    obtain ⟨v, eq, frame, -, -, -⟩ := groupPkt_of_active (src := src) active (lostIn seq) .lost (some seq)
    have names' : findColl v g seq = some (e, C) := by
      unfold findColl
      rw [frame.collsOf (by decide)]
      exact names
    have ends : lostIn seq g v = v.endColl e C 0x51 := by
      unfold lostIn
      rw [names']
    rw [ends] at eq
    have ended : SameBut [.regs, .slices, .dram, .chk, .net, .errs, .eps, .cores, .caches, .cnts, .wire] v (v.endColl e C 0x51) :=
      State.endColl_same _ _ _ (.refl v) rfl
    refine ⟨_, congrArg Host.Outcome.next ((if_pos up).trans eq), (ended.plots (by decide)).trans (frame.plots (by decide)), ?_⟩
    rw [State.endColl_ep, if_pos rfl, frame.ep (by decide)]
  · intro seq like off data bad q n e C rank own names go
    obtain ⟨v, eq, frame, members, -, -⟩ := groupPkt_of_active (src := src) active (dataIn src seq like off data bad) .data (some seq)
    have taken : SameBut [.xngs, .groups, .regs, .slices, .dram, .chk, .net, .errs, .eps, .coll, .cores, .caches, .cnts, .wire] s
        (dataIn src seq like off data bad g v) := dataIn_same _ _ _ _ _ _ _ (frame.mono rfl) rfl
    have data_ := dataIn_effect (s := v) (off := off) (data := data) (by rw [members, rank]) (by rw [frame.grpOwner (by decide), own])
      (by rw [frame.dataColl (by decide), names]) bad
    rw [frame.ep (by decide)] at data_
    exact ⟨_, congrArg Host.Outcome.next ((if_pos (by simp [up, go])).trans eq), taken.plots (by decide), data_⟩

end Groups

end Sys2Proof.Machine
end

section
/-!
Noria commands (R127, R128, R272 to R308): their way to a slice and through the window, the permits and steps of a bank, and the
encoder cross-check.
-/
namespace Sys2Proof.Machine

section NoriaWork
variable {s t : State} {w : List Fld} {k : Nat}

theorem SameBut.nor (h : SameBut w s t) (hw : Fld.norias ∉ w) (j : Nat) : t.nor j = s.nor j := by
  unfold State.nor
  rw [h.norias hw]

/-! ### Bank masks -/

theorem nbit_or_bank (x : Word) {b : Nat} (hb : b < 32) (j : Nat) :
    nbit (x ||| BitVec.ofNat 32 (2 ^ b)).toNat j = (nbit x.toNat j || j == b) := by
  have power : 2 ^ b % 2 ^ 32 = 2 ^ b := Nat.mod_eq_of_lt (Nat.pow_lt_pow_right (by decide) hb)
  rw [nbit_eq_testBit, nbit_eq_testBit, BitVec.toNat_or, Nat.testBit_or, BitVec.toNat_ofNat, power, Nat.testBit_two_pow]
  simp [Bool.beq_eq_decide_eq, eq_comm]

theorem nbit_andNot_bank (x : Word) {b : Nat} (hb : b < 32) :
    nbit (x &&& ~~~(BitVec.ofNat 32 (2 ^ b))).toNat b = false := by
  have power : 2 ^ b % 2 ^ 32 = 2 ^ b := Nat.mod_eq_of_lt (Nat.pow_lt_pow_right (by decide) hb)
  have set : (BitVec.ofNat 32 (2 ^ b)).getLsbD b = true := by
    rw [← BitVec.testBit_toNat, BitVec.toNat_ofNat, power, Nat.testBit_two_pow_self]
  rw [nbit_eq_testBit, BitVec.testBit_toNat, BitVec.getLsbD_and, BitVec.getLsbD_not, set]
  simp

/-! ### Dispatch (R128) -/

theorem waitOk_of_norDispatchOk {d : Desc} {rest : List Desc} (ok : norDispatchOk s k = true)
    (head : (s.queue k 3).entries = d :: rest) : waitOk s k (dw d 1) = true := by
  unfold norDispatchOk at ok
  simp only [head, Bool.and_eq_true] at ok
  obtain ⟨⟨⟨-, wait⟩, -⟩, -⟩ := ok
  exact wait

/-- R128: the head leaves its queue with its wait paid, and is on its way. -/
theorem norDispatch_effect {d : Desc} {rest : List Desc} (ok : norDispatchOk s k = true)
    (head : (s.queue k 3).entries = d :: rest) :
    OtherPlots k s (norDispatch s k) ∧ ((norDispatch s k).queue k 3).entries = rest ∧
      ((norDispatch s k).plot k).norOut = (s.plot k).norOut ++ [{ seq := (s.plot k).norSeq, desc := d }] ∧
      (waitEn (dw d 1) = true →
        tokCtr (norDispatch s k) k (waitCtr (dw d 1)) + waitCnt (dw d 1) = tokCtr s k (waitCtr (dw d 1))) := by
  have leaves : norDispatch s k = ((s.waitTake k (dw d 1)).updQueue k 3 fun Q => { Q with entries := rest }).updPlot k fun P =>
      { P with norOut := P.norOut ++ [{ seq := P.norSeq, desc := d }], norSeq := P.norSeq + 1 } := by
    unfold norDispatch
    simp only [head]
  have plot : (s.waitTake k (dw d 1)).plot k = s.plot k :=
    SameBut.plot (w := [.regs]) (State.waitTake_same _ _ (.refl s) rfl) (by decide) k
  rw [leaves]
  refine ⟨((State.waitTake_plot_frame k _).trans (otherPlots_updQueue _ k 3 _)).trans (otherPlots_updPlot _ k _), ?_, ?_, fun en => ?_⟩
  · unfold State.queue State.updQueue
    rw [State.plot_updPlot_same, State.plot_updPlot_same]
    rfl
  · unfold State.updQueue
    rw [State.plot_updPlot_same, State.plot_updPlot_same, plot]
    rfl
  · exact tokCtr_waitTake en (waitOk_of_norDispatchOk ok head)

/-! ### Arrival (R273, R277) -/

/-- What its source notes of a command that a target answered. -/
theorem State.norWay_plot (s : State) (p : PlotId) (seq : Nat) (from_ to_ : NorWay) :
    ((s.norWay (.plot p seq) from_ to_).plot (plotKey p)).norOut = (s.plot (plotKey p)).norOut.map fun c =>
      if c.seq = seq ∧ c.way = from_ then { c with way := to_ } else c := by
  unfold State.norWay
  dsimp only
  rw [State.plot_updPlot_same]

/-- No command of this name that was on its way is so after its target answered. -/
theorem State.norWay_left (s : State) (p : PlotId) (seq : Nat) {from_ to_ : NorWay} (other : to_ ≠ from_) :
    ∀ c ∈ ((s.norWay (.plot p seq) from_ to_).plot (plotKey p)).norOut, c.seq = seq → c.way ≠ from_ := by
  rw [State.norWay_plot]
  intro c listed name
  obtain ⟨x, -, rfl⟩ := List.mem_map.1 listed
  split
  · exact other
  next same =>
    rw [if_neg same] at name
    exact fun way => same ⟨name, way⟩

theorem norSent_norWay (s : State) (p : PlotId) (seq : Nat) {to_ : NorWay} (other : to_ ≠ .sent) :
    norSent (s.norWay (.plot p seq) .sent to_) (.plot p seq) = none := by
  unfold norSent
  rw [Option.map_eq_none_iff, List.find?_eq_none]
  intro c listed
  have gone := s.norWay_left p seq other c listed
  simpa using gone

/-- A command that its source has on its way is one of its commands. -/
theorem find_of_norSent {p : PlotId} {seq : Nat} {d : Desc} {own : Option Nat} (sent : norSent s (.plot p seq) = some (d, own, k)) :
    ∃ c, (s.plot (plotKey p)).norOut.find? (fun c => c.seq == seq) = some c := by
  unfold norSent at sent
  obtain ⟨c, found, -⟩ := Option.map_eq_some_iff.1 sent
  have named := List.find?_some found
  simp only [Bool.and_eq_true] at named
  exact Option.isSome_iff_exists.1 (List.find?_isSome.2 ⟨c, List.mem_of_find?_eq_some found, named.1⟩)

/-- R277: a rejected command of a plot holds its noria queue. -/
theorem State.norDone_rejected {p : PlotId} {seq : Nat} {c : NorOut} (st : Nat)
    (found : (s.plot (plotKey p)).norOut.find? (fun c => c.seq == seq) = some c) :
    SameBut [.regs, .plots] s (s.norDone (.plot p seq) st true) ∧
      ((s.norDone (.plot p seq) st true).queue (plotKey p) 3).held = true ∧
      ((s.norDone (.plot p seq) st true).queue (plotKey p) 3).heldStatus = BitVec.ofNat 8 st := by
  have holds : s.norDone (.plot p seq) st true = (s.updPlot (plotKey p) fun P =>
      { P with norOut := P.norOut.filter fun x => x.seq != seq }).rejectHold (plotKey p) 3 c.desc st := by
    unfold State.norDone State.plotNorDone
    simp only [found, if_true]
  rw [holds]
  generalize hv : s.updPlot (plotKey p) (fun P => { P with norOut := P.norOut.filter fun x => x.seq != seq }) = v
  have dropped : SameBut [.plots] s v := hv ▸ State.updPlot_same _ _ (.refl s) rfl
  obtain ⟨-, -, -, held, status⟩ := v.rejectHold_plot (plotKey p) 3 c.desc st (plotKey p)
  exact ⟨State.rejectHold_same _ _ _ _ (dropped.mono rfl) rfl, held, status⟩

/-- R273, R277: a command reaches a slice that takes commands. -/
theorem norArrive_effect {p : PlotId} {seq : Nat} {d : Desc} {own : Option Nat} (sent : norSent s (.plot p seq) = some (d, own, k))
    (go : stopping s (sliceUnit k) = false) (allowed : keyAllowed s own k = true) (there : norLost s k = false)
    (up : cisternUp s k = true) :
    (16 ≤ (s.nor k).queue.length → (norArrive (.plot p seq) s).nor k = s.nor k ∧
      norSent (norArrive (.plot p seq) s) (.plot p seq) = none) ∧
    ((s.nor k).queue.length < 16 → match norCheck s own false k d with
      | none => ((norArrive (.plot p seq) s).nor k).queue = (s.nor k).queue ++ [{ src := .plot p seq, desc := d }]
      | some st => (norArrive (.plot p seq) s).nor k = s.nor k ∧ ((norArrive (.plot p seq) s).queue (plotKey p) 3).held = true ∧
          ((norArrive (.plot p seq) s).queue (plotKey p) 3).heldStatus = BitVec.ofNat 8 st) := by
  unfold norArrive
  simp only [sent, go, allowed, there, up, Bool.not_true, Bool.false_eq_true, if_false]
  constructor
  · intro full
    rw [if_pos full]
    have back : SameBut [.regs, .plots, .parts, .cnts] s ((s.count k 55 1).norWay (.plot p seq) .sent .retry) :=
      State.norWay_same _ _ _ (State.count_same _ _ _ (.refl s) rfl) rfl
    exact ⟨back.nor (by decide) k, norSent_norWay _ p seq (by decide)⟩
  · intro room
    rw [if_neg (Nat.not_le.2 room)]
    have plain : isWindow (.plot p seq) = false := rfl
    rw [plain]
    cases norCheck s own false k d with
    | none =>
      have noted := State.norWay_same (.plot p seq) .sent .accepted
        (.refl (s.updNor k fun N => { N with queue := N.queue ++ [{ src := .plot p seq, desc := d }] })) (msk := [.plots, .parts]) rfl
      dsimp only
      rw [noted.nor (by decide), State.nor_updNor_same]
    | some st =>
      obtain ⟨c, found⟩ := find_of_norSent sent
      obtain ⟨frame, held, status⟩ := State.norDone_rejected st found
      exact ⟨frame.nor (by decide) k, held, status⟩

/-- R273: a command that was sent back is sent again. -/
theorem retryResend_effect (s : State) (p : PlotId) (seq : Nat) :
    SameBut [.plots] s (s.norWay (.plot p seq) .retry .sent) ∧ OtherPlots (plotKey p) s (s.norWay (.plot p seq) .retry .sent) ∧
      ((s.norWay (.plot p seq) .retry .sent).plot (plotKey p)).norOut.map (·.desc) = (s.plot (plotKey p)).norOut.map (·.desc) := by
  refine ⟨?_, otherPlots_updPlot s _ _, ?_⟩
  · unfold State.norWay
    exact State.updPlot_same _ _ (.refl s) rfl
  rw [State.norWay_plot, List.map_map]
  refine List.map_congr_left fun c _ => ?_
  simp only [Function.comp_apply]
  split <;> rfl

/-! ### The window (R356, R358) -/

theorem nwinPush_effect (s : State) (n : Nat) :
    if 32 ≤ (s.part n).winQ.length then (nwinPush n s).part n = s.part n ∧ (nwinPush n s).bit (partReg n 0x04C) 6 = true
    else ∃ c, ((nwinPush n s).part n).winQ = (s.part n).winQ ++ [c] ∧ c.desc = windowDesc (s.part n).window ∧ c.job = none ∧
      (nwinPush n s).regs = s.regs := by
  unfold nwinPush
  dsimp only
  split
  · exact ⟨rfl, State.bit_setBit_same _ _ (by decide)⟩
  · rw [State.part_setPart_same]
    exact ⟨_, rfl, rfl, rfl, rfl⟩

theorem popWin_effect (s : State) (n : Nat) :
    match (s.part n).winCpl with
    | [] => (popWin n s).reply = { data := leBytes 4 0 } ∧ (popWin n s).part n = s.part n
    | x :: rest => (popWin n s).reply = { data := leBytes 4 (winCplWord x) } ∧
        ((s.part n).winHeld = [] → ((popWin n s).part n).winCpl = rest) := by
  unfold popWin
  cases records : (s.part n).winCpl with
  | nil => exact ⟨rfl, rfl⟩
  | cons x rest =>
    refine ⟨rfl, fun none_ => ?_⟩
    have held : ((s.updPart n fun P => { P with winCpl := rest }).part n).winHeld = [] := by
      rw [State.part_updPart_same]
      exact none_
    change (((s.updPart n fun P => { P with winCpl := rest }).unholdWin n).part n).winCpl = rest
    unfold State.unholdWin
    dsimp only
    rw [held, List.foldl_nil, State.part_updPart_same, State.part_updPart_same]

/-! ### Steps (R289, R292) -/

theorem State.norFinish_stepping (s : State) (k : Nat) (src : NorSrc) (j : Nat) :
    ((s.norFinish k src).nor j).stepping = (s.nor j).stepping := by
  unfold State.norFinish
  split
  · rfl
  next c _ =>
    split
    · generalize hv : s.updNor k (fun N => { N with queue := N.queue.filter fun x => x.src != src }) = v
      have counted : SameBut [.regs, .plots, .net, .parts, .rings, .cores, .dbg, .cnts, .wire] v
          ((v.count k 49 1).norDone src c.status false) :=
        State.norDone_same _ _ _ (State.count_same _ _ _ (.refl v) rfl) rfl
      rw [counted.nor (by decide), ← hv, State.nor_updNor]
      split
      next e => rw [e]
      next => rfl
    · rfl

theorem State.releasePermit_stepping (s : State) (k b j : Nat) : ((s.releasePermit k b).nor j).stepping = (s.nor j).stepping := by
  unfold State.releasePermit
  split
  · generalize hv : s.updNor k (fun N => { N with permits := N.permits &&& ~~~(BitVec.ofNat 32 (2 ^ b)) }) = v
    have noted : SameBut [.stks] v (v.updStk (k / 32) fun T =>
        { T with released := s.tb :: T.released.filter fun t => decide (s.tb < t + 100) }) := State.updStk_same _ _ (.refl v) rfl
    rw [noted.nor (by decide), ← hv, State.nor_updNor]
    split
    next e => rw [e]
    next => rfl
  · rfl

/-- R292: the step that ends is no longer running; memory is as its reads and writes leave it where nothing waits for it. -/
theorem stepEnd_effect {b : Nat} (hb : b < 32) :
    nbit ((stepEnd k b s).nor k).stepping.toNat b = false ∧
      match norRunning s k b with
      | none => (stepEnd k b s).dram = s.dram
      | some c => ∀ t, t = runStep s k b c → (t.slc k).held = [] → (t.slc k).waiting = [] →
          (stepEnd k b s).dram = t.dram ∧ (stepEnd k b s).chk = t.chk := by
  have clears : ∀ v : State, nbit ((v.updNor k fun N =>
      { N with stepping := N.stepping &&& ~~~(BitVec.ofNat 32 (2 ^ b)) }).nor k).stepping.toNat b = false := fun v => by
    rw [State.nor_updNor_same]
    exact nbit_andNot_bank _ hb
  unfold stepEnd
  cases norRunning s k b with
  | none => exact ⟨clears s, rfl⟩
  | some c =>
    dsimp only
    generalize runStep s k b c = v
    have cleared := clears v
    have halted : SameBut [.norias] v (v.updNor k fun N => { N with stepping := N.stepping &&& ~~~(BitVec.ofNat 32 (2 ^ b)) }) :=
      State.updNor_same _ _ (.refl v) rfl
    generalize v.updNor k (fun N => { N with stepping := N.stepping &&& ~~~(BitVec.ofNat 32 (2 ^ b)) }) = r at *
    have ended : SameBut [.regs, .plots, .norias, .net, .stks, .parts, .rings, .cores, .dbg, .cnts, .wire] v
        ((r.norFinish k c.src).releasePermit k b) :=
      State.releasePermit_same _ _ (State.norFinish_same _ _ (halted.mono rfl) rfl) rfl
    have stepping : (((r.norFinish k c.src).releasePermit k b).nor k).stepping = (r.nor k).stepping := by
      rw [State.releasePermit_stepping, State.norFinish_stepping]
    generalize (r.norFinish k c.src).releasePermit k b = q at *
    have served : SameBut [.regs, .slices, .dram, .chk, .errs, .cores, .caches, .cnts, .wire] q (q.serveWaiting k) :=
      State.serveWaiting_same _ (.refl q) rfl
    refine ⟨?_, ?_⟩
    · rw [served.nor (by decide), stepping]
      exact cleared
    · rintro t rfl held waiting
      have quiet : SliceQuiet q k := by
        unfold SliceQuiet
        rw [ended.slc (by decide)]
        exact ⟨held, waiting⟩
      obtain ⟨quietly, -⟩ := serveWaiting_of_quiet quiet
      exact ⟨(quietly.dram (by decide)).trans (ended.dram (by decide)), (quietly.chk (by decide)).trans (ended.chk (by decide))⟩

/-! ### The encoder cross-check (R299, R307) -/

/-- R307: a cross-check starts unless one waits already. -/
theorem State.startXchk_effect (s : State) (k mask : Nat) (mgmt : Bool) :
    xchkState (s.startXchk k mask mgmt) k = 1 ∧
      (xchkState s k ≠ 1 → ((s.startXchk k mask mgmt).nor k).xchk = BitVec.ofNat 32 mask ∧
        ((s.startXchk k mask mgmt).nor k).xchkGo = mgmt) := by
  unfold State.startXchk
  split
  next runs => exact ⟨runs, fun idle => absurd runs idle⟩
  next idle =>
    refine ⟨State.fld_setFld_same _ _ _ (by decide), fun _ => ?_⟩
    have shown : SameBut [.regs] (s.updNor k fun N => { N with xchk := BitVec.ofNat 32 mask, xchkGo := mgmt })
        ((s.updNor k fun N => { N with xchk := BitVec.ofNat 32 mask, xchkGo := mgmt }).setFld (norReg k 0x054) 0 2 1) :=
      State.setFld_same _ _ _ _ (.refl _) rfl
    rw [shown.nor (by decide), State.nor_updNor_same]
    exact ⟨rfl, rfl⟩

/-- The pages of counters and of error reports keep to two offsets. -/
def TallyRegs (a : Nat) : Prop := a % 4096 = 0x044 ∨ a % 4096 = 0x050

theorem tallyRegs_cntPage (k : Nat) : TallyRegs (cntPage k 0x044) := by
  refine .inl ?_
  unfold cntPage
  split_ifs
  all_goals
    unfold regAddr
    omega

theorem tallyRegs_errReg (f : Nat) : TallyRegs (errReg f 0x050) := by
  refine .inr ?_
  unfold errReg
  split_ifs
  all_goals
    unfold regAddr
    omega

theorem norReg_mod (k : Nat) {off : Nat} (h : off < 4096) : norReg k off % 4096 = off := by
  unfold norReg regAddr
  omega

theorem not_tallyRegs_norReg (k : Nat) {off : Nat} (h : off < 4096) (other : off ≠ 0x044 ∧ off ≠ 0x050) :
    ¬ TallyRegs (norReg k off) := by
  unfold TallyRegs
  rw [norReg_mod k h]
  omega

theorem norReg_ne (k : Nat) {a b : Nat} (ha : a < 4096) (hb : b < 4096) (h : a ≠ b) : norReg k a ≠ norReg k b := by
  intro e
  have := congrArg (· % 4096) e
  rw [norReg_mod k ha, norReg_mod k hb] at this
  exact h this

theorem irq_norReg (s : State) (k i : Nat) : s.irq (norReg k 0) i = s.setBit (norReg k 0x014) i := by
  have page : norReg k 0 / 4096 * 4096 + 0x014 = norReg k 0x014 := by
    unfold norReg regAddr
    omega
  unfold State.irq
  rw [page]

/-- R299: what a bank's test counts and shows. -/
theorem xchkResult_effect {b : Nat} (hb : b < 32) (same : Bool) (s : State) :
    if same then (xchkResult k b same s).fld (norReg k 0x054) 8 8 = satAdd 8 (s.fld (norReg k 0x054) 8 8) 1 ∧
      ((s.nor k).xchkGo = true → (xchkResult k b same s).bit (norReg k 0x048) b = false)
    else (xchkResult k b same s).fld (norReg k 0x054) 16 8 = satAdd 8 (s.fld (norReg k 0x054) 16 8) 1 ∧
      (xchkResult k b same s).bit (norReg k 0x048) b = true ∧ (xchkResult k b same s).bit (norReg k 0x014) 0 = true := by
  have ne : norReg k 0x054 ≠ norReg k 0x048 := norReg_ne k (by decide) (by decide) (by decide)
  have ne' : norReg k 0x054 ≠ norReg k 0x014 := norReg_ne k (by decide) (by decide) (by decide)
  have ne'' : norReg k 0x048 ≠ norReg k 0x014 := norReg_ne k (by decide) (by decide) (by decide)
  unfold xchkResult
  cases same with
  | true =>
    simp only [if_true]
    have counted := s.fld_addFld_same (norReg k 0x054) (n := 1) (lo := 8) (w := 8) (by decide)
    generalize s.addFld (norReg k 0x054) 8 8 1 = v at *
    cases (s.nor k).xchkGo with
    | false => exact ⟨counted, fun h => absurd h (by decide)⟩
    | true =>
      refine ⟨?_, fun _ => State.bit_clrBit_same _ _ hb⟩
      have cleared : RegsBut (· = norReg k 0x048) v (v.clrBit (norReg k 0x048) b) := (RegsBut.refl v).clrBit rfl
      exact (cleared.fld ne _ _).trans counted
  | false =>
    simp only [Bool.false_eq_true, if_false]
    have counted := s.fld_addFld_same (norReg k 0x054) (n := 1) (lo := 16) (w := 8) (by decide)
    generalize s.addFld (norReg k 0x054) 16 8 1 = v at *
    have held : RegsBut (· = norReg k 0x048) v (v.setBit (norReg k 0x048) b) := (RegsBut.refl v).setBit rfl
    have shown := v.bit_setBit_same (norReg k 0x048) hb
    generalize v.setBit (norReg k 0x048) b = r at *
    rw [irq_norReg]
    have raised := r.bit_setBit_same (norReg k 0x014) (i := 0) (by decide)
    have irq : RegsBut (· = norReg k 0x014) r (r.setBit (norReg k 0x014) 0) := (RegsBut.refl r).setBit rfl
    generalize r.setBit (norReg k 0x014) 0 = q at *
    have reported : RegsBut TallyRegs q (q.report (partOf s (k / 32)) 0x17 1 (k / 32) (k % 32) (direct k (256 * b))) :=
      (RegsBut.refl q).report tallyRegs_errReg
    refine ⟨?_, ?_, ?_⟩
    · rw [reported.fld (not_tallyRegs_norReg k (by decide) (by decide)), irq.fld ne', held.fld ne, counted]
    · rw [reported.bit (not_tallyRegs_norReg k (by decide) (by decide)), irq.bit ne'', shown]
    · rw [reported.bit (not_tallyRegs_norReg k (by decide) (by decide)), raised]

/-- What follows a bank's result: the bank's test is no longer due, and the state alone may change. -/
theorem xchkDone_keeps {b : Nat} (hb : b < 32) (same : Bool) (s : State) :
    nbit ((xchkDone k b same s).nor k).xchk.toNat b = false ∧
      (∀ lo w, 2 ≤ lo → (xchkDone k b same s).fld (norReg k 0x054) lo w = (xchkResult k b same s).fld (norReg k 0x054) lo w) ∧
      ∀ off i, off < 4096 → off ≠ 0x054 ∧ off ≠ 0x044 ∧ off ≠ 0x050 →
        (xchkDone k b same s).bit (norReg k off) i = (xchkResult k b same s).bit (norReg k off) i := by
  unfold xchkDone
  dsimp only
  generalize xchkResult k b same s = v
  have counted : RegsBut TallyRegs v (v.count k 56 1) := (RegsBut.refl v).count (tallyRegs_cntPage k)
  generalize v.count k 56 1 = r at *
  have done : nbit ((r.updNor k fun N => { N with xchk := N.xchk &&& ~~~(BitVec.ofNat 32 (2 ^ b)) }).nor k).xchk.toNat b = false := by
    rw [State.nor_updNor_same]
    exact nbit_andNot_bank _ hb
  have noted : RegsBut TallyRegs v (r.updNor k fun N => { N with xchk := N.xchk &&& ~~~(BitVec.ofNat 32 (2 ^ b)) }) :=
    counted.same (State.updNor_same (msk := [.norias]) _ _ (.refl r) rfl) (by decide)
  generalize r.updNor k (fun N => { N with xchk := N.xchk &&& ~~~(BitVec.ofNat 32 (2 ^ b)) }) = q at *
  have kept : ∀ lo w, q.fld (norReg k 0x054) lo w = v.fld (norReg k 0x054) lo w :=
    noted.fld (not_tallyRegs_norReg k (by decide) (by decide))
  have bits : ∀ off i, off < 4096 → off ≠ 0x054 ∧ off ≠ 0x044 ∧ off ≠ 0x050 → q.bit (norReg k off) i = v.bit (norReg k off) i :=
    fun off i h other => noted.bit (not_tallyRegs_norReg k h other.2) i
  split
  · have ended : SameBut [.regs] q (q.setFld (norReg k 0x054) 0 2 2) := State.setFld_same _ _ _ _ (.refl q) rfl
    have regs : RegsBut (· = norReg k 0x054) q (q.setFld (norReg k 0x054) 0 2 2) := (RegsBut.refl q).setFld rfl
    refine ⟨by rw [ended.nor (by decide), done], fun lo w h => ?_, fun off i h other => ?_⟩
    · rw [State.fld_setFld_ne _ _ _ (by decide) (.inr h), kept]
    · rw [regs.bit (norReg_ne k h (by decide) other.1), bits off i h other]
  · exact ⟨done, fun lo w _ => kept lo w, bits⟩

/-- Settles O29: each command's body at its unit; the cross-check's result stands through its count and its end. -/
theorem noriaCommandsTravelAndRun : Obligations.NoriaCommandsTravelAndRun := by
  unfold Obligations.NoriaCommandsTravelAndRun
  refine ⟨fun s => ⟨?_, ?_, ?_, ?_, ?_⟩, ?_⟩
  · rintro p _ d rest rfl ok head
    exact ⟨_, congrArg Host.Outcome.next (if_pos ok), norDispatch_same _ (.refl s) rfl, norDispatch_effect ok head⟩
  · intro p seq d own k sent go allowed there up
    have frame : SameBut [.regs, .plots, .norias, .net, .parts, .rings, .cores, .dbg, .cnts, .wire] s (norArrive (.plot p seq) s) :=
      norArrive_same _ (.refl s) rfl
    exact ⟨_, rfl, frame.dram (by decide), norArrive_effect sent go allowed there up⟩
  · intro p seq
    obtain ⟨frame, others, descs⟩ := retryResend_effect s p seq
    exact ⟨_, rfl, frame, others, s.norWay_left p seq (by decide), descs⟩
  · intro n r served
    have pushed := nwinPush_effect (s.reqStepped r) n.val
    rw [(s.reqStepped_frame r).part (by decide), State.reqStepped_regs] at pushed
    exact ⟨_, outcome_access _ served, nwinPush_same _ (.refl _) rfl, pushed⟩
  · intro n r served
    have frame : SameBut [.reply, .parts, .cores, .wire, .dbg] s (popWin n.val (s.reqStepped r)) :=
      popWin_same _ ((s.reqStepped_frame r).mono rfl) rfl
    have popped := popWin_effect (s.reqStepped r) n.val
    rw [(s.reqStepped_frame r).part (by decide)] at popped
    exact ⟨_, outcome_readAccess _ 4 served, frame.dram (by decide), frame.plots (by decide), popped⟩
  · rintro s p b _ rfl
    refine ⟨fun ok => ?_, fun ok => ?_, fun runs => ?_, fun up period => ?_, fun r v served go => ?_, fun same ok => ?_⟩
    · refine ⟨_, congrArg Host.Outcome.next (if_pos ok), State.updNor_same _ _ (.refl s) rfl, fun j _ => ?_⟩
      rw [State.nor_updNor_same]
      exact nbit_or_bank _ b.isLt j
    · refine ⟨_, congrArg Host.Outcome.next (if_pos ok), State.updNor_same _ _ (.refl s) rfl, ?_, fun j _ => ?_⟩ <;>
        rw [State.nor_updNor_same]
      exact nbit_or_bank _ b.isLt j
    · have frame : SameBut [.regs, .plots, .slices, .norias, .dram, .chk, .net, .stks, .parts, .rings, .errs, .cores, .caches, .dbg,
          .cnts, .wire] s (stepEnd (plotKey p) b.val s) := stepEnd_same _ _ (.refl s) rfl
      exact ⟨_, congrArg Host.Outcome.next (if_pos runs), frame.fuses (by decide), stepEnd_effect b.isLt⟩
    · exact ⟨_, congrArg Host.Outcome.next (if_pos (by simp [up, period])), State.startXchk_same _ _ _ (.refl s) rfl,
        s.startXchk_effect _ _ _⟩
    · have starts : xchkGo r (plotKey p) v (s.reqStepped r) = (s.reqStepped r).startXchk (plotKey p)
          (if nbit v.toNat 5 then 2 ^ 32 - 1 else 2 ^ nbits v.toNat 0 5) (isMgmt r) := if_pos go
      obtain ⟨state, mask⟩ := (s.reqStepped r).startXchk_effect (plotKey p)
        (if nbit v.toNat 5 then 2 ^ 32 - 1 else 2 ^ nbits v.toNat 0 5) (isMgmt r)
      refine ⟨_, (outcome_access _ served).trans (congrArg _ starts), State.startXchk_same _ _ _ (.refl _) rfl, state, fun idle => ?_⟩
      obtain ⟨banks, mgmt⟩ := mask (by rwa [xchkState, State.reqStepped_fld])
      exact ⟨mgmt, banks⟩
    · have result := xchkResult_effect (k := plotKey p) b.isLt same s
      obtain ⟨due, flds, bits⟩ := xchkDone_keeps (k := plotKey p) b.isLt same s
      refine ⟨_, congrArg Host.Outcome.next (if_pos ok), xchkDone_same _ _ _ (.refl s) rfl, due, ?_⟩
      rw [flds 8 8 (by decide), flds 16 8 (by decide), bits 0x048 _ (by decide) (by decide), bits 0x014 _ (by decide) (by decide)]
      exact result

end NoriaWork

end Sys2Proof.Machine
end
